-- ==== Sys2Proof/Word.lean ====
section
/-! DEFINITION. The word types of the ELY7144 and the unit of time every command's instant is counted in. -/
namespace Sys2Proof

/-- A BAR0 register word: 32 bits, little-endian (R2). -/
abbrev Word := BitVec 32

/-- A byte of a frame, a buffer or a key. -/
abbrev Byte := BitVec 8

/-- An instant or a span of time, in steps of 250 ps: the finest step the manual gives an instant (R10). -/
abbrev Instant := Nat

/-- 1 ns in steps of 250 ps. -/
abbrev nsQ : Nat := 4
/-- One PWM tick, 2 ns (R10). -/
abbrev tickQ : Nat := 8
/-- 1 µs. -/
abbrev usQ : Nat := 4000
/-- 1 ms. -/
abbrev msQ : Nat := 4000000
/-- 1 s. -/
abbrev secQ : Nat := 4000000000

end Sys2Proof
end

