-- ==== Sys2Proof/Flit.lean ====
section
/-! DEFINITION. The mesh flits of Table 1.4 with their payloads (Tables 1.6, 2.3, 3.4, 4.10, 4.12, 7.2, 9.7, 11.6, 12.8, 19.4):
one constructor per flit type, one field per payload field. Reserved payload bits are zero and are not held. -/
namespace Sys2Proof

/-- One window result of a WINRES payload (Table 1.6): accumulator, 48-bit sum, 24-bit count. -/
structure WinItem where
  acc : Nat
  sum : BitVec 48
  cnt : Nat
  deriving DecidableEq, Repr

/-- One tracker result of a TRKRES payload (Table 2.3). `min` and `max` are bits 15:6 of the codes. -/
structure TrkItem where
  mmt : Nat
  min : Nat
  max : Nat
  cnt : Nat
  above : Nat
  below : Nat
  flags : Nat
  deriving DecidableEq, Repr

/-- The POSRES payload by KIND (Table 3.4). -/
inductive PosBody where
  | incremental (cnt : Word) (edgeAge : Nat) (edgeDir : Bool) (idxCnt : Word) (idxValid : Bool)
      (hall : Nat) (hallAge : Nat) (hallDir : Bool)
  | serial (position : Nat) (lineDly : Nat)
  | resolver (amp2 : Nat) (fails : Nat)
  deriving DecidableEq, Repr

/-- Mode of a compare value (R235, bits 23:22): COMPARE, OFF, or a reserved code. -/
inductive CmpMode where
  | compare
  | off
  | reserved
  deriving DecidableEq, Repr

/-- One compare value (R235): mode, 19-bit ticks, 3-bit fine in 250 ps steps. -/
structure CmpVal where
  mode : CmpMode
  ticks : Nat
  fine : Nat
  deriving DecidableEq, Repr

/-- The CMPW payload (Table 7.2). `vals` holds the six values, `none` where the VALID bit is 0. -/
structure Cmpw where
  issueTs : Word
  ctx : Nat
  target : Nat
  take : Bool
  seq : Nat
  carrier : Bool
  epoch : Bool
  vals : List (Option CmpVal)
  deriving DecidableEq, Repr

/-- The CTXX payload (Table 4.10). `words` are the NW valid words. -/
structure Ctxx where
  sub : Nat
  ctx : Nat
  ts : Word
  first : Nat
  last : Bool
  words : List Word
  deriving DecidableEq, Repr

/-- The MIGR payload (Table 4.12). -/
structure Migr where
  op : Nat
  ctx : Nat
  kpos : Nat
  mem : Bool
  addr : Nat
  words : List Word
  deriving DecidableEq, Repr

/-- The EVT payload (Table 19.4). -/
structure Evt where
  cls : Nat
  code : Nat
  subject : Nat
  w0 : Word
  w1 : Word
  ts : Word
  deriving DecidableEq, Repr

/-- The SVCX payload (Table 12.8). -/
structure Svcx where
  sub : Nat
  tag : Nat
  domain : Nat
  first : Nat
  last : Bool
  words : List Word
  deriving DecidableEq, Repr

/-- The SAFX CYCLE payload (Table 9.7). `xSpd` and `xSt` hold the four axes of the other half. -/
structure SafCycle where
  ts : Word
  sinA : Nat
  sinB : Nat
  demIn : Nat
  rst : Bool
  rb : Nat
  pairF : Word
  xSpd : List Int
  xSt : List Nat
  deriving DecidableEq, Repr

/-- The SAFX RESULT payload (Table 9.7). `axSt` holds, per axis, bits 1:0 the state and bits 9:2 the VIOL bits (R308). -/
structure SafResult where
  ts : Word
  out : Nat
  dem : Nat
  spd : List Int
  axSt : List Nat
  deriving DecidableEq, Repr

/-- The CFGL payload (Table 11.6). -/
structure Cfgl where
  op : Nat
  addr : Nat
  words : List Word
  deriving DecidableEq, Repr

/-- A flit's payload, by TYPE (Table 1.5). -/
inductive Payload where
  | winres (closeTs : Word) (a : WinItem) (b : Option WinItem)
  | trkres (closeTs : Word) (a : TrkItem) (b : Option TrkItem)
  | posres (capTs : Word) (pi : Nat) (status : Nat) (body : PosBody)
  | cmpw (c : Cmpw)
  | ctxx (c : Ctxx)
  | strd (addr : Nat)
  | strs (refused : Bool) (uecc : Bool) (data : BitVec 256)
  | stwr (addr : Nat) (mask : Word) (data : BitVec 256)
  | migr (m : Migr)
  | cfgl (c : Cfgl)
  | evt (e : Evt)
  | svcx (x : Svcx)
  | safCycle (c : SafCycle)
  | safResult (r : SafResult)
  | safWords (sub : Nat) (ts : Word) (first : Nat) (last : Bool) (words : List Word)
  | reserved (typ : Nat)
  deriving DecidableEq, Repr

/-- The TYPE code of a payload (Table 1.5). -/
def Payload.typ : Payload → Nat
  | .winres .. => 0x1
  | .trkres .. => 0x2
  | .posres .. => 0x3
  | .cmpw .. => 0x4
  | .ctxx .. => 0x5
  | .strd .. => 0x6
  | .strs .. => 0x7
  | .stwr .. => 0x8
  | .migr .. => 0x9
  | .cfgl .. => 0xA
  | .evt .. => 0xB
  | .svcx .. => 0xC
  | .safCycle .. | .safResult .. | .safWords .. => 0xD
  | .reserved t => t

/-- Where a flit goes (Table 1.4, DST_SEL): a mask of logical kernels of a pod, or a block port of a router. -/
inductive FlitDst where
  | kernels (router : Nat) (mask : Nat)
  | port (router : Nat) (num : Nat)
  deriving DecidableEq, Repr

/-- Where a flit comes from (Table 1.4, SRC_PORT): logical kernel `k` of a pod, or a block port of a router. -/
inductive FlitSrc where
  | kernel (router : Nat) (k : Nat)
  | port (router : Nat) (num : Nat)
  deriving DecidableEq, Repr

/-- A flit (Table 1.4) without its check bits. -/
structure Flit where
  dst : FlitDst
  src : FlitSrc
  payload : Payload
  deriving DecidableEq, Repr

end Sys2Proof
end

