-- ==== Sys2Proof/Operand.lean ====
section
/-! DEFINITION. Operand types of the commands: numbers a program computes, and what the parts of a configuration image hold
(R346 to R355). -/
namespace Sys2Proof

/-- A float32 value: not a number, an infinity, or a rational number. -/
inductive Num where
  | nan
  | inf (neg : Bool)
  | fin (q : Rat)
  deriving DecidableEq, Repr

/-- A vector of two rational components. -/
structure Vec2 where
  a : Rat := 0
  b : Rat := 0
  deriving DecidableEq, Repr

/-- A state of a context descriptor (Table 11.5). -/
structure StateDef where
  init : Word
  integ : Bool
  deriving DecidableEq, Repr

/-- An integrator entry: MODE 0 SAT, 1 COND, 2 BACK; LO and HI are parameter indices; `out` is the linked output or 255. -/
structure IntegDef where
  state : Nat
  mode : Nat
  lo : Nat
  hi : Nat
  out : Nat
  kb : Word
  deriving DecidableEq, Repr

/-- An input: kind in the order of Table 4.3 from 1; class 0 due, 1 fresh, 2 latest; source index; paired feedback input. -/
structure InputDef where
  kind : Nat
  cls : Nat
  src : Nat
  fb : Nat
  deriving DecidableEq, Repr

/-- An output: target kind 0 gate channel, 1 AUX value, 2 context; target index; range; preload integrator (255: a routine);
gain, or the routine's code word index. -/
structure OutputDef where
  kind : Nat
  idx : Nat
  range : Word
  preload : Nat
  gain : Word
  deriving DecidableEq, Repr

/-- A parameter word: initial value, bounds, ramp rate per second, owner (1 OEM, 2 OPR), set-point and integer flags. -/
structure ParamDef where
  init : Word
  lo : Word
  hi : Word
  ramp : Word
  owner : Nat
  setpoint : Bool
  integer : Bool
  deriving DecidableEq, Repr

/-- A context descriptor (Table 11.5). -/
structure CtxDesc where
  ctx : Nat := 0
  nvar : Nat := 1
  sections : Nat := 0
  agentPod : Nat := 0
  agentK : Nat := 0
  entries : List Nat := []
  ceval : List Nat := []
  cevalChange : Nat := 0
  fma : Nat := 0
  dIn : Nat := 0
  dOut : Nat := 0
  states : List StateDef := []
  integs : List IntegDef := []
  inputs : List InputDef := []
  outputs : List OutputDef := []
  params : List ParamDef := []
  /-- The image selects the command input for the set-points permanently (R188). -/
  cmdAlways : Bool := false
  deriving DecidableEq, Repr

/-- What the program of a context forms for the angle selector (Table 4.8): encoder angle and speed, injection record. Mark: DESIGN CHOICE (log 43). -/
structure SelIn where
  encTheta : Rat := 0
  encOmega : Rat := 0
  injHere : Bool := false
  injTheta : Rat := 0
  injOmega : Rat := 0
  injSal : Rat := 0
  /-- Probe (R106): largest current window average, and the current vector's magnitude and back-EMF angle. -/
  iMax : Rat := 0
  iMag : Rat := 0
  gamma : Rat := 0
  deriving DecidableEq, Repr

/-- What the law passes the drive services (R160, R163, R173): torque request, link voltage, voltage vector and current vector, each as magnitude
and angle in the stationary frame. Mark: DESIGN CHOICE (log 55). -/
structure DrvIn where
  tReq : Rat := 0
  vdc : Rat := 0
  vMag : Rat := 0
  vArg : Rat := 0
  iMag : Rat := 0
  iArg : Rat := 0
  deriving DecidableEq, Repr

/-- What the law passes the grid, DC-DC and link services (R195 to R220), in V, A, W and s. Mark: DESIGN CHOICE (log 56). -/
structure GridIn where
  v : Vec2 := {}
  i : Vec2 := {}
  vc : Vec2 := {}
  tw : Rat := 0
  iRef : Vec2 := {}
  vBat : Rat := 0
  vdc : Rat := 0
  iBat : Rat := 0
  iBatRef : Rat := 0
  iPh : List Rat := []
  deriving DecidableEq, Repr

/-- What a law gives for the life record of one bridge (R265): the leg currents and V_dc. -/
structure LegIn where
  cur : List Rat := []
  vdc : Rat := 0
  deriving DecidableEq, Repr

/-- A life record (R265): leg currents, V_dc, on-time fractions and edges of the channels. -/
structure LifeIn where
  cur : List Rat := []
  vdc : Rat := 0
  duty : List Rat := []
  edges : List Nat := []
  deriving DecidableEq, Repr

/-- What a context's program computes in one evaluation (step 3 of R118): the outputs, the outputs with every preload integrator
at zero (r_j, R136), the increments of the states, the states a preload routine sets, the outputs it codes OFF, a change of
variant it asks for, CARRIER flits (target, TOP), a probe it asks for; and for a group of kernels, the partial results and new states that each
kernel sends the others (CTXX STATE), by its position: the first index and the words; and the leg currents and V_dc of each bridge. Mark: DESIGN CHOICE (log 44). -/
structure LawOut where
  y : List Num := []
  r : List Num := []
  dx : List Num := []
  routine : List (Nat × Num) := []
  off : List Nat := []
  variant : Option Nat := none
  carriers : List (Nat × Nat) := []
  probe : Bool := false
  group : List (Nat × Nat × List Word) := []
  sel : SelIn := {}
  drv : DrvIn := {}
  grid : GridIn := {}
  life : List (Nat × LegIn) := []
  deriving DecidableEq, Repr

/-- A store region (R33, R349): first page, pages of 4 KiB, owning domain, read and write role masks. -/
structure Region where
  base : Nat
  pages : Nat
  dom : Nat
  rd : Nat
  wr : Nat
  deriving DecidableEq, Repr

/-- The LIFE section (R355): the life kernel, step and rates, limits, the reference table (codes, °C), the device type of each
position (255: not modelled), and the 102 words of each type. -/
structure LifeCfg where
  present : Bool := false
  pod : Nat := 0
  k : Nat := 0
  tLm : Nat := 0
  lifeDiv : Nat := 0
  saveInt : Nat := 0
  hyst : Word := 0
  dtMin : Word := 0
  tjWarn : Word := 0
  tjLimit : Word := 0
  lifeWarn : Word := 0
  refAcc : Nat := 0
  refTab : List (Nat × Word) := []
  posMap : List Nat := []
  types : List (List Word) := []
  deriving DecidableEq, Repr

/-- The data set that an Announce message carries (R406): priority1, clockClass, clockAccuracy, offsetScaledLogVariance, priority2 and identity of
the grandmaster, stepsRemoved, and the sender by clockIdentity and port number. -/
structure Announce where
  prio1 : Nat := 0
  cls : Nat := 0
  acc : Nat := 0
  var : Nat := 0
  prio2 : Nat := 0
  gm : Nat := 0
  steps : Nat := 0
  src : Nat := 0
  srcPort : Nat := 0
  deriving DecidableEq, Repr

/-- The SecTAG of a received frame (R421): receive SC and SA by index, packet number, and whether the integrity check value holds under that SA. -/
structure SecTag where
  sc : Nat := 0
  an : Nat := 0
  pn : Nat := 0
  icv : Bool := true
  deriving DecidableEq, Repr

/-- An MKA frame (R421): the CAK slot by whose keys its check holds, the sender's key-server priority and SCI, whether it distributes a SAK, and the
MKA frames that the husk sends for it. Mark: DESIGN CHOICE (log 137). -/
structure MkaFrame where
  slot : Option Nat := none
  prio : Nat := 0
  sci : Nat := 0
  sak : Bool := false
  send : List (List Byte) := []
  deriving DecidableEq, Repr

/-- A telemetry item (R352): kind, domains granted (OEM, OPR, SAF in bits 1 to 3), first index, count, shortest period in µs. -/
structure TelemItem where
  kind : Nat := 0
  grant : Nat := 0
  first : Nat := 0
  n : Nat := 0
  period : Nat := 0
  deriving DecidableEq, Repr

/-- An entry of the section table (R346). -/
structure SecEntry where
  id : Nat
  flags : Nat := 0
  ofs : Nat := 0
  len : Nat := 0
  iv : BitVec 96 := 0
  tag : BitVec 128 := 0
  deriving DecidableEq, Repr

/-- The header of an image (Table 11.2) and its section table. -/
structure SlotHdr where
  magic : Nat := 0
  format : Nat := 0
  hdrLen : Nat := 0
  seq : Nat := 0
  svn : Nat := 0
  nsec : Nat := 0
  len : Nat := 0
  bind : Nat := 0
  nonce : BitVec 256 := 0
  keyOfs : Nat := 0
  sigOfs : Nat := 0
  crc : Word := 0
  table : List SecEntry := []
  deriving DecidableEq, Repr

/-- The key block of an image (Table 11.3): byte 0 of each value lowest. -/
structure KeyBlock where
  rootPub : BitVec 776 := 0
  kind : Nat := 0
  imgPub : BitVec 776 := 0
  certSig : BitVec 768 := 0
  deriving DecidableEq, Repr

/-- The safety officer's 200 bytes of SAFETY_SET (R354): the public key, the signature, and the SHA-384 of the section before them. -/
structure Officer where
  pub : BitVec 776
  sig : BitVec 768
  digest : BitVec 384
  deriving DecidableEq, Repr

/-- A block of the PROGRAMS section (R350): pod, mask of logical kernels, data memory, first word index, words. -/
structure ProgBlock where
  pod : Nat
  mask : Nat
  data : Bool
  first : Nat
  words : List Word
  deriving DecidableEq, Repr

/-- A section of an image (Table 11.4) with its content (R348 to R355). Register records are pairs of BAR0 address and value; the
masks of ROLE_MAP assign accumulators, trackers and position interfaces to the safety island; SAFETY_FW by its SHA-384. -/
inductive Section where
  | roleMap (roles clocks : List Nat) (accs trks pis : Nat) (regions : List Region) (recs : List (Nat × Word))
  | programs (blocks : List ProgBlock)
  | contexts (ds : List CtxDesc)
  | telemetry (items : List (Nat × TelemItem))
  | huskPolicy (pf0Base : Bool) (keys : List (BitVec 776))
  | network (recs : List (Nat × Word))
  | safetyFw (hash : BitVec 384)
  | safetySet (recs : List (Nat × Word)) (params consts : List Word) (fwHash : BitVec 384) (officer : Option Officer)
  | life (c : LifeCfg)
  deriving DecidableEq, Repr

/-- An image in a slot (R344): header, sections in order, the SHA-384 of each section as stored, key block, signature, and the SHA-384 of bytes 0
to SIG_OFS - 1. Mark: DESIGN CHOICE (log 93). -/
structure SlotImage where
  hdr : SlotHdr := {}
  secs : List Section := []
  stored : List (BitVec 384) := []
  key : KeyBlock := {}
  sig : BitVec 768 := 0
  digest : BitVec 384 := 0
  deriving DecidableEq, Repr

/-- What the device finds when reset is released: the straps REFSEL (0 REFCLK, 1 XTAL); the references that qualify at once (bit 0 REFCLK, bit
1 XTAL); PERST_N is high; the known-answer tests pass; the copies of the husk firmware (SHA-384, SVN, build number); the flash size
(log2); the slots that an external programmer has rewritten; which stored areas have an authentic or valid copy (safety record area, CAK store,
life record, map-out record); wires that fail the lane test, as (link, wire). Mark: DESIGN CHOICE (log 78). -/
structure BootIn where
  refsel : Nat := 0
  refs : Nat := 3
  perst : Bool := true
  kat : Bool := true
  hfw : List (BitVec 384 × Nat × Nat) := [(0, 0, 0)]
  flashLog2 : Nat := 26
  slots : List (Nat × SlotImage) := []
  safOk : Bool := true
  cakOk : Bool := true
  lifeOk : Bool := true
  mapOk : Bool := true
  wires : List (Nat × Nat) := []
  deriving DecidableEq, Repr

/-- Instructions of the TAP (R323, R324). -/
inductive TapInstr where
  | bypass
  | idcode
  | preload
  | extest
  | clamp
  | highz
  | priv (code : Nat)
  deriving DecidableEq, Repr

end Sys2Proof
end

