-- ==== Sys2Proof/Syntax.lean ====
section
/-! DEFINITION. The commands of the ELY7144: one constructor per row of spec/opcode_table.json, in the table's order.
Every command carries `t`, the instant at which it happens (in steps of 250 ps). The other operands are what the outside
world, or a part of the device that the manual leaves to programs and analogue circuits, brings with the command. -/
namespace Sys2Proof

/-- A command (a row of the table). -/
inductive Instr where
  /-- REGISTER_WRITE (R6). A BAR0 write to a register that has no row of its own sets its fields, or is discarded if the domain is not named or the register is sealed. -/
  | registerWrite (t : Instant) (fn addr : Nat) (data : Word)
  /-- MISALIGNED_ACCESS (R2). A BAR0 access of wrong size or alignment reads zero or is discarded, and a SYS event is posted. -/
  | misalignedAccess (t : Instant) (fn addr len : Nat) (write : Bool)
  /-- RESERVED_ADDRESS_ACCESS (R527). A read or write of an unlisted BAR0 address returns zero or is discarded, before any rights check, and posts BAD_ACCESS. -/
  | reservedAddressAccess (t : Instant) (fn addr : Nat) (write : Bool)
  /-- PWM_TIME_LO (R223). A read of PWM_TIME_LO returns PWM time bits 31:0 and latches bits 63:32 into PWM_TIME_HI. -/
  | pwmTimeLo (t : Instant) (fn : Nat)
  /-- NET_NTIME_LO (R408). A read of NET_NTIME_LO returns NTIME bits 31:0 and latches NET_NTIME_HI. -/
  | netNtimeLo (t : Instant) (fn : Nat)
  /-- SYS_EVT_SEQ_LO (R528). A read of SYS_EVT_SEQ_LO returns the newest entry SEQ low word and latches SYS_EVT_SEQ_HI. -/
  | sysEvtSeqLo (t : Instant) (fn : Nat)
  /-- SYS_EVT_OLD_LO (R528). A read of SYS_EVT_OLD_LO returns the oldest entry SEQ low word and latches SYS_EVT_OLD_HI. -/
  | sysEvtOldLo (t : Instant) (fn : Nat)
  /-- FLIT_SEND (R31). A kernel hands a flit to its pod router, which passes it only if the type and destination suit the kernel's role. -/
  | flitSend (t : Instant) (router k : Nat) (dst : FlitDst) (payload : Payload)
  /-- FLIT_RECEIVE (R30). A router takes an arriving flit, checks and corrects up to two bit errors, and forwards it. -/
  | flitReceive (t : Instant) (l : Nat) (e1 e2 : List Nat)
  /-- STRD (R33). A store bank serves a read request and returns STRS with the word or a refusal. -/
  | strd (t : Instant) (router k addr errs : Nat)
  /-- STWR (R34). A store bank performs a byte-masked write, in source order among coincident accesses. -/
  | stwr (t : Instant) (router k addr : Nat) (mask : Word) (data : BitVec 256)
  /-- SAMPLING_INSTANT (R45). A SAR unit's acquisition time ends and the input is sampled, starting the conversion phase. -/
  | samplingInstant (t : Instant) (n : Nat) (vin : List Int) (inj : Option Instant)
  /-- CONVERSION_PHASE_END (R46). The 60 ns conversion phase ends and the acquisition of the next sequence entry starts. -/
  | conversionPhaseEnd (t : Instant) (n : Nat)
  /-- CONVERSION_END (R45). A SAR code reaches its accumulator and tracker, which add it and compare it with the thresholds. -/
  | conversionEnd (t : Instant) (n : Nat)
  /-- CALIBRATION_DONE (R47). All SAR units finish self-calibration and MEAS_CTL.CAL_DONE is set. -/
  | calibrationDone (t : Instant)
  /-- INJECTED_TRIGGER (R50). An injected trigger interrupts the regular sequence and runs the injected entries. -/
  | injectedTrigger (t : Instant) (n : Nat)
  /-- SD_CONVERSION_END (R55). A sigma-delta main filter delivers a code every OSR modulator clocks. -/
  | sdConversionEnd (t : Instant) (n : Nat) (clk : Instant) (pin : List (Instant × Bool))
  /-- SD_PROTECTION_OUTPUT (R57). A sigma-delta protection filter delivers a code to its tracker only. -/
  | sdProtectionOutput (t : Instant) (n : Nat) (clk : Instant) (pin : List (Instant × Bool))
  /-- SD_STUCK (R58). A data pin at one level for 128 bit clocks stops the channel and sets its STUCK bit. -/
  | sdStuck (t : Instant) (n : Nat)
  /-- SD_RESUMED (R58). A stuck channel whose data toggles in 1,024 consecutive groups resumes delivery. -/
  | sdResumed (t : Instant) (n : Nat)
  /-- NTIME_GENERATOR_EVENT (R62). An NTIME generator reaches PHASE plus a multiple of PERIOD and produces an event. -/
  | ntimeGeneratorEvent (t : Instant) (k : Nat)
  /-- PAIR_FAULT_CLEAR (R74). Clearing a MEAS_PAIR_STAT bit releases the pair fault line and restarts the count. -/
  | pairFaultClear (t : Instant) (fn : Nat) (data : Word)
  /-- QUAD_EDGE (R82). An accepted A or B edge moves the incremental counter by one count. -/
  | quadEdge (t : Instant) (n : Nat) (a b : Bool) (ta tb : Instant)
  /-- INDEX_LATCH (R83). An accepted gated index edge latches the counter into IDX_CNT. -/
  | indexLatch (t : Instant) (n : Nat) (a b : Bool) (ta tb tz : Instant)
  /-- HALL_TRANSITION (R84). An accepted Hall level change updates the Hall state and direction. -/
  | hallTransition (t : Instant) (n h : Nat) (tu tv tw : Instant)
  /-- SERIAL_FRAME_END (R86). A BiSS-C or SSI frame completes and a serial record is sent. -/
  | serialFrameEnd (t : Instant) (n raw check lineDly : Nat) (nE nW : Bool) (ready : Instant)
  /-- SER_TIMEOUT (R86). The BiSS-C start bit does not arrive within the timeout and the frame ends with SER_TIMEOUT. -/
  | serTimeout (t : Instant) (n : Nat) (ready : Instant)
  /-- EXC_FAULT (R91). A short or overload of the excitation output sets EXC_FAULT and drives 0 V. -/
  | excFault (t : Instant) (n : Nat)
  /-- LOSS_CLEAR (R98). Clearing LOSS releases the loss line and restarts every consecutive count of the interface. -/
  | lossClear (t : Instant) (fn n : Nat) (data : Word)
  /-- INPUT_ARRIVAL (R117). A WINRES, TRKRES, POSRES or CTXX input lands in a kernel's data memory. -/
  | inputArrival (t : Instant) (c : Nat) (p : Payload)
  /-- INPUT_DEADLINE (R115). T_IN after the trigger passes and the evaluation starts with missing inputs. -/
  | inputDeadline (t : Instant) (c : Nat)
  /-- EVALUATION (R118). A loop context evaluates its steps in order and sends its outputs. -/
  | evaluation (t : Instant) (c : Nat) (law : LawOut)
  /-- CMPW_ARRIVAL (R236). PWM or AUX takes a CMPW flit, checks it and stores its values. -/
  | cmpwArrival (t : Instant) (f : Flit)
  /-- COMPARE_EFFECTIVE (R123). At T_eff the new compare values take effect by the late-compare rule and are stamped. -/
  | compareEffective (t : Instant) (T : Nat)
  /-- WD_EXPIRED (R145). WD_N half-periods without an active-owner COMPARE assert the slot watchdog line. -/
  | wdExpired (t : Instant) (T : Nat)
  /-- CTX_FAULT_CLEAR (R146). Clearing FAULT after its cause has gone restarts the context at its next trigger. -/
  | ctxFaultClear (t : Instant) (fn c : Nat) (data : Word)
  /-- PARAM_TRANSACTION (R147). The parameter agent checks a transaction and forwards it as CTXX PARAM flits. -/
  | paramTransaction (t : Instant) (c dom : Nat) (setp : Bool) (apply : Int) (tag : Nat) (words : List (Nat × Word))
  /-- MIG_LOAD_DONE (R151). MIGR LOAD of the target completes and the target joins the input destinations. -/
  | migLoadDone (t : Instant)
  /-- MIG_VERIFY (R152). The VERIFY flits of source and target are compared and the migration commits or aborts. -/
  | migVerify (t : Instant) (parts : List (List Nat × List Nat)) (dst : List (List Word × List Word))
  /-- SNAPSHOT_DEADLINE (R153). The snapshot has not landed by trigger k+1 + T_IN and the migration aborts. -/
  | snapshotDeadline (t : Instant)
  /-- FORCED_MIGRATION (R154). The context's reload onto a spare completes, FAULT is cleared and MIG_DONE posts forced. -/
  | forcedMigration (t : Instant) (c : Nat)
  /-- COAST_TIMEOUT (R169). T_COAST passes in COAST_WAIT and the drive returns to OFF with START_FAILED. -/
  | coastTimeout (t : Instant) (c : Nat)
  /-- ASC_HOLD (R175). T_REACQ passes in ACQUIRE and the drive enters ASC_HOLD. -/
  | ascHold (t : Instant) (c : Nat)
  /-- DISCH_TIMEOUT (R176). T_DISCH passes in DISCHARGE and the drive returns to OFF. -/
  | dischTimeout (t : Instant) (c : Nat)
  /-- ALIGN_END (R182). T_ALIGN passes and the bridge enters the open-loop RAMP. -/
  | alignEnd (t : Instant) (x : Nat)
  /-- COMMUTATION (R181). The commutation delay after a crossing, or an open-loop step time, expires and the bridge commutates. -/
  | commutation (t : Instant) (x : Nat)
  /-- ZERO_CROSS (R180). A floating-phase zero crossing is accepted. -/
  | zeroCross (t : Instant) (x : Nat) (samples : List (Instant × Bool))
  /-- RAMP_END (R182). T_RAMP passes without closed loop and the start attempt fails. -/
  | rampEnd (t : Instant) (x : Nat)
  /-- BC_STALL (R183). No crossing within twice the last interval turns the bridge off and sets STALL. -/
  | bcStall (t : Instant) (x : Nat)
  /-- BC_RETRY (R183). The retry delay passes and a new start draws a new token. -/
  | bcRetry (t : Instant) (x : Nat)
  /-- CMD_ANALOGUE_CONVERSION (R185). CMD_IN produces an analogue code every RATE + 1 µs. -/
  | cmdAnalogueConversion (t : Instant) (vin : Int)
  /-- CMD_DUTY_EDGE (R185). A rising edge ends a duty period and produces a duty code. -/
  | cmdDutyEdge (t : Instant) (wave : List (Instant × Bool))
  /-- CMD_FREQUENCY_GATE (R185). A frequency gate ends and produces a frequency code. -/
  | cmdFrequencyGate (t : Instant) (wave : List (Instant × Bool))
  /-- CMD_STATIC (R186). No rising edge for 2 ms produces static codes and sets STATIC_LO or STATIC_HI. -/
  | cmdStatic (t : Instant) (wave : List (Instant × Bool))
  /-- GRID_RETURN (R204). |V| stays above V_RET for T_RET in COAST and the return decision is made. -/
  | gridReturn (t : Instant) (c : Nat)
  /-- RT_TRIP (R200). A ride-through or frequency timer passes its limit and the grid goes to TRIP_OUT. -/
  | rtTrip (t : Instant) (c : Nat)
  /-- BLOCK_END (R206). N_B evaluations of BLOCK pass and BLOCK ends by the lock state. -/
  | blockEnd (t : Instant) (c : Nat)
  /-- RESYNC_TIMEOUT (R206). T_RESYNC passes in BLOCK and the grid goes to TRIP_OUT. -/
  | resyncTimeout (t : Instant) (c : Nat)
  /-- PRECHARGE_FAIL (R216). A precharge stage time limit passes, or MAIN does not close, and the state becomes PC_FAIL. -/
  | prechargeFail (t : Instant) (c : Nat)
  /-- MAIN_SETTLED (R216). T_MAIN passes after MAIN closes and the voltage check decides RUN or PC_FAIL. -/
  | mainSettled (t : Instant) (c : Nat)
  /-- BMS_STALE (R214). T_BMS passes without a limit refresh and both limits ramp to zero. -/
  | bmsStale (t : Instant) (c : Nat)
  /-- CARRIER_EVENT (R224). A slot or AUX carrier reaches its zero or peak event and starts a half-period. -/
  | carrierEvent (t : Instant) (T : Nat)
  /-- SLOT_STARTED (R225). An enabled slot starts its carrier at the first scheduled zero event 10 µs after EN. -/
  | slotStarted (t : Instant) (T : Nat)
  /-- FAULT_RETURN (R239). An FB level accepted after its filter asserts or releases the channel's fault source. -/
  | faultReturn (t : Instant) (ch : Nat) (level : Option Bool) (since : Instant)
  /-- BOOT_UV (R242). Bootstrap voltage below threshold for 500 ns holds the high side off and asserts the bootstrap source. -/
  | bootUv (t : Instant) (x k : Nat)
  /-- BOOT_UV_RELEASE (R242). Bootstrap voltage above threshold for 2 µs clears the under-voltage. -/
  | bootUvRelease (t : Instant) (x k : Nat)
  /-- VDS_FAULT (R243). A VDS comparator still asserted after blanking or VFILT is a fault and asserts the VDS source. -/
  | vdsFault (t : Instant) (x i : Nat) (since : Instant) (v : Int)
  /-- VGD_UV (R244). VGD below 9.5 V drives all AUX gates low and asserts the VGD source. -/
  | vgdUv (t : Instant)
  /-- VGD_UV_RELEASE (R244). VGD above 10.0 V for 10 µs releases the under-voltage. -/
  | vgdUvRelease (t : Instant)
  /-- STO_MASK_END (R259). REC µs after STO returns the fault-return mask ends and live faults count as new. -/
  | stoMaskEnd (t : Instant)
  /-- TRIP_LATCH_CLEAR (R260). A W1C of TRIP_LATCH clears the latch only when no latching source or short remains. -/
  | tripLatchClear (t : Instant) (fn : Nat) (data : Word)
  /-- SHORT_CLEAR (R258). An OEM clear of SHORT or MLS ends the rank-1 hold of the bridge. -/
  | shortClear (t : Instant) (fn : Nat) (mls : Bool) (data : Word)
  /-- CMP_TRIP (R264). An analogue comparator's trip level is accepted and asserts its line. -/
  | cmpTrip (t : Instant) (c ain : Nat) (since : Instant) (v : Int)
  /-- LIFE_RECORD (R265). A life record from a context reaches the life-model kernel. -/
  | lifeRecord (t : Instant) (T : Nat) (r : LifeIn) (span : Nat)
  /-- LIFE_STEP (R266). Every T_LM the model updates losses, temperatures, rainflow and damage. -/
  | lifeStep (t : Instant)
  /-- LIFE_SAVE (R270). Every SAVE_INT minutes the life and map-out records are written to flash. -/
  | lifeSave (t : Instant)
  /-- SAFETY_CYCLE_START (R282). Each half applies the previous RESULT, latches inputs, exchanges over the cross-link and sends CYCLE flits. -/
  | safetyCycleStart (t : Instant) (rcA rcB link : Nat)
  /-- SAFETY_EVALUATION (R301). A safety pair evaluates a CYCLE flit's functions and sends its RESULT. -/
  | safetyEvaluation (t : Instant) (p : Nat)
  /-- SAFETY_RESULT (R282). A RESULT flit from a pair reaches its SAFE half for the next cycle start. -/
  | safetyResult (t : Instant) (p : Nat)
  /-- LOCKSTEP_MISMATCH (R280). Leader and shadow disagree, the flit is held and the pair faults. -/
  | lockstepMismatch (t : Instant) (p : Nat)
  /-- FAULT_MESSAGE (R281). A cross-link fault message makes the other half drive its outputs low. -/
  | faultMessage (t : Instant) (h : Nat)
  /-- CROSS_LINK_LOSS (R284). Two cycles without a valid cross-link message fault the receiving half. -/
  | crossLinkLoss (t : Instant) (h : Nat)
  /-- SPLIT (R286). A split request starts draining a safety pair. -/
  | split (t : Instant) (fn : Nat) (data : Word)
  /-- SPLIT_DONE (R286). Matching CRCs complete the split and start the SPLIT_MAX timer. -/
  | splitDone (t : Instant) (p : Nat) (crcLead crcShadow : Word)
  /-- REJOIN (R286). A rejoin request runs the chaff test of the pair's lockstep unit. -/
  | rejoin (t : Instant) (fn : Nat) (data : Word) (chaffOk : Bool)
  /-- REJOIN_DONE (R286). The pair restarts in LOCKSTEP from the mirror state. -/
  | rejoinDone (t : Instant) (p : Nat)
  /-- SPLIT_TIMEOUT (R286). SPLIT_MAX passes in SPLIT or REJOINING and the half faults. -/
  | splitTimeout (t : Instant) (p : Nat)
  /-- CHAFF_TEST_DONE (R287). The boot chaff tests of every comparator complete. -/
  | chaffTestDone (t : Instant) (failed : Option (Nat × Nat))
  /-- SIN_CHANGE (R291). A SIN channel accepts a new level after t_F. -/
  | sinChange (t : Instant) (h i : Nat) (level : Bool) (since : Instant)
  /-- SIN_DISCREPANCY (R292). The two channels disagree beyond T_DISC and the input is held in demand. -/
  | sinDiscrepancy (t : Instant) (i : Nat)
  /-- SRST_PRESS (R293). A reset press is accepted after 10 ms. -/
  | srstPress (t : Instant) (level : Option Bool) (since : Instant)
  /-- SRST_RELEASE (R293). An accepted release of a 50 ms to 5 s press gives one reset event. -/
  | srstRelease (t : Instant) (level : Option Bool) (since : Instant)
  /-- RST_STUCK (R293). A press held 5 s sets STUCK. -/
  | rstStuck (t : Instant)
  /-- READBACK_SAMPLE (R295). Every 10 µs a half reads back the pad level of its outputs. -/
  | readbackSample (t : Instant) (h pads : Nat)
  /-- TEST_PULSE_START (R296). A due test pulse drives a high safety output low. -/
  | testPulseStart (t : Instant) (k : Nat)
  /-- TEST_PULSE_END (R296). A test pulse ends and its readback decides pass. -/
  | testPulseEnd (t : Instant) (k : Nat) (rb5 rb20 : Bool)
  /-- TEST_MISSED (R297). An output high too long without a passing test is driven low and its axes go to STO. -/
  | testMissed (t : Instant) (k : Nat)
  /-- PSET_TIMEOUT (R304). The 60 s confirmation timer passes and the staging lapses. -/
  | psetTimeout (t : Instant)
  /-- PW_LOCKOUT_END (R306). A slot lockout time passes. -/
  | pwLockoutEnd (t : Instant) (slot : Nat)
  /-- REQ (R313). A session request asks the husk for a challenge. -/
  | req (t : Instant) (fn : Nat) (data : Word)
  /-- CHALLENGE_READY (R313). The husk fills HUSK_CHAL and sets PHASE to CHALLENGED. -/
  | challengeReady (t : Instant) (fn : Nat)
  /-- SUBMIT (R313). Host software submits the session response for verification. -/
  | submit (t : Instant) (fn : Nat) (data : Word)
  /-- RESPONSE_VERIFIED (R313). The husk finishes verifying the response and opens the session or reports RESULT. -/
  | responseVerified (t : Instant) (fn : Nat)
  /-- CHALLENGE_TIMEOUT (R313). 30 s pass without SUBMIT and the challenge lapses. -/
  | challengeTimeout (t : Instant) (fn : Nat)
  /-- CLOSE (R315). CLOSE ends the session or abandons the challenge. -/
  | close (t : Instant) (fn : Nat) (data : Word)
  /-- SESSION_IDLE_TIMEOUT (R315). 900 s without activity end the session. -/
  | sessionIdleTimeout (t : Instant) (fn : Nat)
  /-- SESSION_LOCK_END (R314). The 60 s refusal after three failed responses ends. -/
  | sessionLockEnd (t : Instant) (fn : Nat)
  /-- KDBG (R325). An OEM write opens the KDBG debug path when its conditions hold. -/
  | kdbg (t : Instant) (fn : Nat) (data : Word)
  /-- VTEST (R323). A VND write in RETURNED opens the VTEST path. -/
  | vtest (t : Instant) (fn : Nat) (data : Word)
  /-- GIVE (R325). An OPR write gives debug consent for 600 s. -/
  | give (t : Instant) (fn : Nat) (data : Word)
  /-- WITHDRAW (R325). An OPR write withdraws consent and closes KDBG. -/
  | withdraw (t : Instant) (fn : Nat) (data : Word)
  /-- CONSENT_EXPIRY (R325). 600 s of consent pass and CONSENT clears. -/
  | consentExpiry (t : Instant)
  /-- FUSE (R329). An OEM provisioning write fuses the named item. -/
  | fuse (t : Instant) (fn : Nat) (data : Word) (verified : Bool)
  /-- COMMIT (R332). An OEM COMMIT raises IMG_SVN to RUN_SVN. -/
  | commit (t : Instant) (fn : Nat) (data : Word)
  /-- PW_SET (R334). A session sets a user slot's password verifier. -/
  | pwSet (t : Instant) (fn : Nat) (data : Word)
  /-- PW_DEL (R334). Slot 0's session deletes user slots 1 to 7. -/
  | pwDel (t : Instant) (fn : Nat) (data : Word)
  /-- LOAD (R336). OPR loads a CAK slot from HUSK_KEY_DATA. -/
  | load (t : Instant) (fn : Nat) (data : Word)
  /-- DELETE (R336). OPR clears a CAK slot. -/
  | delete (t : Instant) (fn : Nat) (data : Word)
  /-- SAK_REMOVAL (R336). The husk removes the SAKs derived from a deleted CAK. -/
  | sakRemoval (t : Instant) (slot : Nat)
  /-- MKA_FRAME (R421). An MKA frame is processed by the husk's key agreement. -/
  | mkaFrame (t : Instant) (p : Nat) (m : MkaFrame)
  /-- ERASE (R338). An accepted ERASE starts the erase on return. -/
  | erase (t : Instant) (fn : Nat) (data : Word)
  /-- ERASE_DONE (R338). Flash erase completes, ERASED is set and the device stays held. -/
  | eraseDone (t : Instant)
  /-- RESET_RELEASE (R487). The last reset source ends and the sprout boot chain starts. -/
  | resetRelease (t : Instant) (b : BootIn)
  /-- IMAGE_VERIFY (R331). The husk finishes verifying an image slot. -/
  | imageVerify (t : Instant)
  /-- SECTION_LOAD (R357). CFG loads and checks a released image section. -/
  | sectionLoad (t : Instant) (bad : Option (Nat × Nat)) (ofs : Nat)
  /-- SEAL (R358). CFG sets SEALED and the image's EN fields take effect. -/
  | seal (t : Instant)
  /-- BOOT_BIST_DONE (R473). Boot kernel tests end and logical kernels are backed. -/
  | bootBistDone (t : Instant) (failed : List Nat)
  /-- READY (R495). PWR sets READY once all its conditions hold. -/
  | ready (t : Instant)
  /-- SUPPLY_LOW (R485). A rail below its falling threshold for 2 µs asserts internal reset. -/
  | supplyLow (t : Instant) (r mv : Nat) (since : Instant)
  /-- SUPPLY_OK (R485). 1 ms after the last rail rises internal reset is released. -/
  | supplyOk (t : Instant) (mvs : List Nat) (since : Instant)
  /-- PORST_N (R488). PORST_N held low for 10 µs asserts reset and forces outputs to their reset states. -/
  | porstN (t : Instant) (since : Instant)
  /-- SYS_RST (R489). An OEM software reset saves records and asserts reset. -/
  | sysRst (t : Instant) (fn : Nat) (data : Word)
  /-- PERST_N (R490). PERST_N resets the PCIe endpoint only, as a loss of the link. -/
  | perstN (t : Instant) (since : Instant)
  /-- START (R360). An OEM START begins writing a new image into the slot not in force. -/
  | start (t : Instant) (fn : Nat) (data : Word) (im : Option SlotImage)
  /-- UPDATE_ERASE_DONE (R360). The erase of the target slot completes and programming begins. -/
  | updateEraseDone (t : Instant) (ok : Bool)
  /-- UPDATE_PROGRAM_DONE (R360). Programming without MAGIC completes and verification begins. -/
  | updateProgramDone (t : Instant) (err : Nat)
  /-- UPDATE_VERIFY_DONE (R360). Verification finishes and MAGIC is programmed on success. -/
  | updateVerifyDone (t : Instant)
  /-- UPDATE_ABORT (R361). An OEM ABORT ends a running update. -/
  | updateAbort (t : Instant) (fn : Nat) (data : Word)
  /-- VERIFY (R362). An OEM VERIFY checks the named slot. -/
  | verify (t : Instant) (fn : Nat) (data : Word)
  /-- SLOT_VERIFIED (R362). A VERIFY completes and records its result. -/
  | slotVerified (t : Instant)
  /-- REVOKE (R362). An OEM REVOKE zeroes MAGIC of the named slot. -/
  | revoke (t : Instant) (fn : Nat) (data : Word)
  /-- RING_ENABLE (R371). Setting EN enables and binds a ring to the domain of the access. -/
  | ringEnable (t : Instant) (fn : Nat) (cq : Bool) (q : Nat) (data : Word)
  /-- RING_DISABLE (R374). Clearing EN of an SQ stops fetching and drains it. -/
  | ringDisable (t : Instant) (fn : Nat) (cq : Bool) (q : Nat) (data : Word)
  /-- RING_DRAINED (R374). The last outstanding descriptor of a draining SQ completes and it is disabled. -/
  | ringDrained (t : Instant) (fn q : Nat)
  /-- SQ_TAIL_DOORBELL (R372). An SQ tail doorbell makes HOSTQ fetch up to the new tail. -/
  | sqTailDoorbell (t : Instant) (fn q : Nat) (data : Word)
  /-- CQ_HEAD_DOORBELL (R373). A CQ head doorbell reports consumed completions and frees room. -/
  | cqHeadDoorbell (t : Instant) (fn q : Nat) (data : Word)
  /-- DESCRIPTOR_FETCH (R379). A fetched descriptor is checked in order and refused or held for release. -/
  | descriptorFetch (t : Instant) (fn q : Nat) (bytes : List Byte) (inner : Option (List Byte))
  /-- DESCRIPTOR_RELEASE (R381). At APPLY_TS − 1 ms a descriptor is released to its handler. -/
  | descriptorRelease (t : Instant) (tag : Nat)
  /-- SETPOINT (R385). A SETPOINT descriptor writes set-point words of a context. -/
  | setpoint (t : Instant) (tag : Nat)
  /-- PARAM_TXN (R385). A PARAM_TXN descriptor writes parameter words or the safety parameter set. -/
  | paramTxn (t : Instant) (tag : Nat) (data : Option (List (Nat × Word))) (logOk : Bool)
  /-- SCHEDULE (R386). A SCHEDULE descriptor sets up repeated firings of an inner descriptor. -/
  | schedule (t : Instant) (tag : Nat)
  /-- SCHEDULE_FIRING (R386). A schedule instant approaches and a copy of the inner descriptor is released. -/
  | scheduleFiring (t : Instant) (tag : Nat)
  /-- ABORT (R393). An ABORT descriptor cancels a named descriptor in its cancellable phase. -/
  | abort (t : Instant) (tag : Nat)
  /-- TELEM_STREAM (R387). A TELEM_STREAM descriptor starts periodic telemetry records. -/
  | telemStream (t : Instant) (tag : Nat)
  /-- TELEMETRY_SAMPLE (R387). Every PERIOD a stream writes one record per item into its circular buffer. -/
  | telemetrySample (t : Instant) (tag : Nat) (data : List (Int × Bool × List Word)) (dmaOk : Bool)
  /-- STATS_READ (R387). A STATS_READ descriptor writes one record per item. -/
  | statsRead (t : Instant) (tag : Nat) (data : List (Int × Bool × List Word)) (dmaOk : Bool)
  /-- LOG_FETCH (R388). A LOG_FETCH descriptor returns readable log entries from START_SEQ. -/
  | logFetch (t : Instant) (tag : Nat) (dmaOk : Bool)
  /-- CAN_TX (R389). A CAN_TX descriptor queues one frame on a message object. -/
  | canTx (t : Instant) (tag : Nat) (data : Option (List Byte))
  /-- NET_TX (R390). A NET_TX descriptor hands a frame to a launch queue. -/
  | netTx (t : Instant) (tag : Nat) (frame : Option (List Byte))
  /-- MIGRATE (R392). A MIGRATE descriptor requests a live migration of a context. -/
  | migrate (t : Instant) (tag : Nat)
  /-- HEARTBEAT (R392). A HEARTBEAT completes at once and refreshes host-loss supervision. -/
  | heartbeat (t : Instant) (tag : Nat)
  /-- COMPLETION (R377). The device writes a completion to its CQ when there is room. -/
  | completion (t : Instant) (fn q : Nat)
  /-- IRQ_TIMER (R397). The oldest unsignalled completion reaches IRQ_TIME and the vector is sent. -/
  | irqTimer (t : Instant) (fn q : Nat)
  /-- RING_ERROR (R375). A bus-master error puts a ring into ERROR. -/
  | ringError (t : Instant) (fn : Nat) (cq : Bool) (q err : Nat)
  /-- LINK_LOSS (R374). A function-level reset, hot reset or link loss disables every ring of the function. -/
  | linkLoss (t : Instant) (kind fn : Nat)
  /-- HOST_LOST (R394). A heartbeat timeout or link event asserts the host-loss line. -/
  | hostLost (t : Instant) (fn : Nat)
  /-- FRAME_RECEIVE (R402). A received Ethernet frame is sorted to MACsec, MKA, PTP, a NETSVC filter or dropped. -/
  | frameReceive (t : Instant) (p : Nat) (fcsOk : Bool) (sec : Option SecTag) (time : Int) (bytes : List Byte)
  /-- PTP_SYNC (R410). A Sync on the SLAVE port updates the offset and the servo correction. -/
  | ptpSync (t : Instant) (p : Nat) (origin raw : Rat)
  /-- PTP_ANNOUNCE (R406). An Announce message feeds the best master clock algorithm. -/
  | ptpAnnounce (t : Instant) (p : Nat) (a : Announce)
  /-- PTP_DELAY (R405). A delay or peer-delay message updates the mean path delay. -/
  | ptpDelay (t : Instant) (p : Nat) (t1 t2 t3 t4 : Rat)
  /-- ANNOUNCE_TIMEOUT (R406). announceReceiptTimeout passes and the port leaves SLAVE. -/
  | announceTimeout (t : Instant) (p : Nat)
  /-- SYNC_LOSS (R409). Three sync intervals without a Sync put the servo in HOLDOVER. -/
  | syncLoss (t : Instant) (p : Nat)
  /-- STEP_APPLIED (R411). At the step tick TOFS changes by Δ and the step parity inverts. -/
  | stepApplied (t : Instant)
  /-- STEP_FORCED (R412). No tick allows the step within 100 ms and it is forced. -/
  | stepForced (t : Instant)
  /-- SET (R413). An OPR SET requests a step of NTIME to NET_TIME_SET. -/
  | set (t : Instant) (fn : Nat) (data : Word)
  /-- LINK_UP (R425). An Ethernet port's link comes up. -/
  | linkUp (t : Instant) (p speed : Nat)
  /-- LINK_DOWN (R418). A port's link goes down and its queued launch frames fail. -/
  | linkDown (t : Instant) (p : Nat)
  /-- LAUNCH (R419). A launch frame at a queue head becomes due and is sent. -/
  | launch (t : Instant) (q : Nat)
  /-- LAUNCH_DEADLINE (R420). A launch frame cannot start by LAUNCH + LATE_TOL and is sent late or dropped. -/
  | launchDeadline (t : Instant) (q : Nat)
  /-- FRAME_ITEM (R423). A NETSVC kernel hands NET a frame item. -/
  | frameItem (t : Instant) (router k tag : Nat) (desc : Option Nat) (ws : List Word)
  /-- WAKE_SYNC_TIMEOUT (R422). SYNC_TO passes without lock and W is fixed from local time. -/
  | wakeSyncTimeout (t : Instant)
  /-- WAKE_INSTANT (R422). NTIME reaches W and DONE is set. -/
  | wakeInstant (t : Instant)
  /-- CAN_FRAME_RECEIVE (R431). A received CAN frame goes to the first matching receive object. -/
  | canFrameReceive (t : Instant) (n id : Nat) (xtd fdf brs esi rtr : Bool) (bytes : List Byte) (sof : Int) (recTo : Nat)
  /-- CAN_ITEM_DELIVERED (R432). A main buffer's item leaves and the shadow frame moves up. -/
  | canItemDelivered (t : Instant) (o : Nat)
  /-- CAN_TX_ITEM (R433). A transmit item from a NETSVC kernel is queued on its object. -/
  | canTxItem (t : Instant) (router k tag : Nat) (desc : Option Nat) (ws : List Word)
  /-- ARBITRATION_START (R435). The controller offers the eligible frame of lowest arbitration value. -/
  | arbitrationStart (t : Instant) (n dly : Nat)
  /-- CAN_TX_DONE (R436). A frame is acknowledged and completes with its SOF time. -/
  | canTxDone (t : Instant) (n tdcv : Nat)
  /-- CAN_BUS_ERROR (R438). A CAN error updates the error counters and object counts. -/
  | canBusError (t : Instant) (n kind : Nat) (dataPhase tx : Bool) (field plus : Nat) (exempt : Bool) (tdcv : Nat)
  /-- RECOVER (R439). A RECOVER write in BUS_OFF starts RECOVERING. -/
  | recover (t : Instant) (n fn : Nat) (data : Word)
  /-- RECOVERED (R439). 128 recessive sequences complete recovery to ERROR_ACTIVE. -/
  | recovered (t : Instant) (n : Nat)
  /-- REFERENCE_INSTANT (R443). A reference instant comes and a reference message carrying NTIME takes the slot. -/
  | referenceInstant (t : Instant) (n : Nat)
  /-- CAN_OBJECT_ENABLE (R445). A write of object EN disables the object or enables it and clears its supervision. -/
  | canObjectEnable (t : Instant) (o fn : Nat) (data : Word)
  /-- REF_EN (R444). Writing REF_EN 1 restarts a stopped reference slot. -/
  | refEn (t : Instant) (n fn : Nat) (data : Word)
  /-- REF_LOST (R449). A reference gap or invalid window loses the reference. -/
  | refLost (t : Instant) (ref gap edges : Nat)
  /-- REF_QUALIFIED (R449). 100 valid windows qualify a reference again. -/
  | refQualified (t : Instant) (ref : Nat) (since : Instant)
  /-- LOCK_LOST (R458). A PLL loses lock with a valid reference and enters HOLDOVER. -/
  | lockLost (t : Instant) (p : Nat) (errs : List Nat)
  /-- BACKUP_HOP (R458). 100 µs in HOLDOVER with a qualified backup start a hop to BACKUP_SLOT. -/
  | backupHop (t : Instant) (p : Nat)
  /-- SLOT_HOP (R454). A PLL hop to another slot completes. -/
  | slotHop (t : Instant) (p : Nat)
  /-- PLL_RELOCKED (R458). 1,024 good reference edges regain LOCKED. -/
  | pllRelocked (t : Instant) (p worst : Nat)
  /-- BAND_COPY (R454). Every 10 s the VCO band is copied into every valid slot. -/
  | bandCopy (t : Instant) (p band code : Nat)
  /-- SYNC_DONE (R455). A SYNC_IN edge ungates PLL_PWM at phase zero. -/
  | syncDone (t : Instant)
  /-- SYNC_TIMEOUT (R455). SYNC_TO passes without a SYNC_IN edge and PLL_PWM ungates. -/
  | syncTimeout (t : Instant)
  /-- SYNC_EDGE (R456). A SYNC_IN edge after ungating stores SYNC_PH. -/
  | syncEdge (t : Instant)
  /-- GO (R460). An OEM pod clock request is checked and started. -/
  | go (t : Instant) (fn : Nat) (data : Word)
  /-- POD_CLK_CHANGED (R460). A pod clock change completes. -/
  | podClkChanged (t : Instant)
  /-- UE_KERNEL (R467). A kernel reads an uncorrectable word, stops and is taken out of use. -/
  | ueKernel (t : Instant) (pod k mem word : Nat)
  /-- SCRUB_READ (R468). The scrubber reads and corrects the next memory word. -/
  | scrubRead (t : Instant) (mem pod unit word errs : Nat) (other : Bool) (entry : Option Nat)
  /-- REGISTER_CHECK (R466). Every 100 ms REL compares sealed registers with its copies. -/
  | registerCheck (t : Instant) (found : List (Nat × Word))
  /-- BACKGROUND_TEST (R474). REL selects the next kernel of its walk and migrates or tests it. -/
  | backgroundTest (t : Instant)
  /-- KERNEL_TEST_DONE (R475). A kernel test finishes and the kernel is kept, restored or mapped out. -/
  | kernelTestDone (t : Instant) (pod k : Nat) (pass chaffOk : Bool)
  /-- TEST (R479). An OEM request schedules a test of one logical kernel. -/
  | test (t : Instant) (fn : Nat) (data : Word)
  /-- AGE_MEASURE (R480). Hourly REL measures pod slowing from the ring oscillators. -/
  | ageMeasure (t : Instant) (counts : List (Nat × Nat))
  /-- LIFE_COUNT (R481). Every second REL adds the Arrhenius factor to the life counter. -/
  | lifeCount (t : Instant) (tj : List Int)
  /-- TOKEN_REQUEST (R498). A requester asks PWR for a start token. -/
  | tokenRequest (t : Instant) (req : Nat)
  /-- TOKEN_WITHDRAW (R498). A requester withdraws its waiting request. -/
  | tokenWithdraw (t : Instant) (req : Nat)
  /-- TOKEN_REFILL (R497). Every REFILL ms the bucket gains a token and grants waiting requests in order. -/
  | tokenRefill (t : Instant)
  /-- PWR_TOK_CFG (R501). A run-time write of the token configuration changes the bucket. -/
  | pwrTokCfg (t : Instant) (fn : Nat) (data : Word)
  /-- EVENT_WRITE (R531). SYS writes an arriving EVT flit as a log entry with the next SEQ. -/
  | eventWrite (t : Instant)
  /-- REFERENCE_EDGE (R228). The carrier count of a half-period reaches a channel's compare instant, the reference edge falls, and dead-time turn-ons, three-level order delays, SOFT_OFF turn-offs and DEFERRED stamps follow from it. -/
  | referenceEdge (t : Instant) (T : Nat)
  /-- CMP_RELEASE (R264). An analogue comparator's output returns past its hysteresis, the new level is accepted after CFILT ticks, and LIVE and the comparator's trip line are released. -/
  | cmpRelease (t : Instant) (c ain : Nat) (since : Instant) (v : Int)
  /-- VDS_BLANKED_RISING (R243). An AUX VDS comparator rises inside its blanking time and increments the bridge's BLANKED count without a fault. -/
  | vdsBlankedRising (t : Instant) (x i : Nat) (v : Int)
  /-- BUS_MASTER_ENABLE (R370). Host software sets Bus Master Enable of a function, and the fetches, completions and buffer transfers that waited on it resume. -/
  | busMasterEnable (t : Instant) (fn : Nat)
  /-- PERST_N_RELEASE (R490). PERST_N rises, and the PCIe endpoint trains its link and answers configuration requests within 100 ms. -/
  | perstNRelease (t : Instant)
  /-- MSIX_VECTOR_UNMASK (R397). Host software unmasks an MSI-X vector in BAR4, and a message whose pending bit is set is sent. -/
  | msixVectorUnmask (t : Instant) (fn v : Nat)
  /-- PTP_MESSAGE_INTERVAL (R406). A port's sync, announce or (peer) delay request interval expires, and the time engine sends the corresponding PTP message as master or slave. -/
  | ptpMessageInterval (t : Instant) (p kind : Nat)
  /-- FRAME_TRANSMIT_END (R403). An Ethernet frame finishes leaving a port, and the next frame by precedence starts unless a pending launch instant forbids it. -/
  | frameTransmitEnd (t : Instant) (p : Nat)
  /-- PROTOCOL_EXCEPTION_END (R427). A CAN controller in protocol exception, or newly enabled, detects bus idle (11 recessive bits), clears PX and integrates into bus traffic. -/
  | protocolExceptionEnd (t : Instant) (n : Nat)
  /-- MKA_PEER_TIMEOUT (R421). An MKA peer's live-membership time expires without its MKPDU, the membership changes, and the husk key server installs a new SAK or the port loses its transmit SA. -/
  | mkaPeerTimeout (t : Instant) (p : Nat) (send : List (List Byte))
  /-- TAP_INSTRUCTION (R324). The JTAG TAP, clocked on TCK, loads an instruction; EXTEST, CLAMP and HIGHZ act only while PORST_N is low, and BYPASS is selected otherwise. -/
  | tapInstruction (t : Instant) (i : TapInstr) (cells : List (Nat × Bool))
  deriving DecidableEq, Repr

end Sys2Proof
end

