-- ==== Sys2Proof/Decode.lean ====
section
/-! DEFINITION. The decoder over the rows of spec/opcode_table.json that give bits. No row gives any: the commands of this block
come as register accesses, frames, flits, pins and instants, not as words. -/
namespace Sys2Proof

/-- The command that a word spells by the table's bits: no row of the table has bits, so there is none. Mark: DEDUCED (log 7). -/
def decodeTableWord (_nbits _w : Nat) : Option Instr := none

end Sys2Proof
end

