-- ==== Sys2Proof/Config.lean ====
section
/-! DEFINITION. The free values: what the manual leaves open, as constants without a body, so that nothing can be proved of
the value one takes. Each is named in the assumption log. -/
namespace Sys2Proof.Config

/-- Fresh random bytes of the entropy source (R313, R336), by the counter of the state. Mark: DESIGN CHOICE (log 12). -/
opaque random : Nat → BitVec 256
/-- SHA-384 of bytes, byte 0 of the result lowest. Mark: DESIGN CHOICE (log 70). -/
opaque sha384 (bytes : List Nat) : BitVec 384
/-- An ECDSA P-384 signature over a digest verifies with an uncompressed public key (Tables 10.2 and 11.3). Mark: DESIGN CHOICE (log 70). -/
opaque ecdsa (pub : BitVec 776) (digest : BitVec 384) (sig : BitVec 768) : Bool
/-- The public key of a hash that is fused (R345), and of service key `k` in the husk firmware (Table 10.2). Mark: DESIGN CHOICE (log 70). -/
opaque keyOfHash (hash : BitVec 384) : BitVec 776
opaque vndKey (k : Nat) : BitVec 776
/-- The AES-256-GCM tag that a section as stored gives under K_SEC of its identifier, by OEM_KEK, the image nonce, the IV, the additional data
and the SHA-384 of the ciphertext (Table 10.9, R346). Mark: DESIGN CHOICE (log 70). -/
opaque gcmTag (kek nonce : BitVec 256) (id : Nat) (iv : BitVec 96) (aad : List Nat) (cipher : BitVec 384) : BitVec 128
/-- Safety firmware of a SHA-384 is signed by a key chained to SKV_ROOT_HASH (Table 10.6). Mark: DESIGN CHOICE (log 70). -/
opaque fwSigned (root fw : BitVec 384) : Bool
/-- The worst-case cycle time in ns that the safety firmware states for the enabled functions of the axes at the clocks of P00 and P23 (R282).
Mark: DESIGN CHOICE (log 86). -/
opaque safeWorst (fw : BitVec 384) (fens : List Nat) (mhz0 mhz23 : Nat) : Nat
/-- HKDF-SHA-384 of a verifier over a challenge for a user slot: the 384 bits of R (Table 10.2). Mark: DESIGN CHOICE (log 12), DESIGN CHOICE (log 70). -/
opaque hkdfResponse (verifier : BitVec 384) (chal : List Word) (user : Nat) : BitVec 384
/-- AES-256-GCM opening of a wrapped verifier under K_W (R334): `none` when the tag fails. Mark: DESIGN CHOICE (log 70). -/
opaque unwrapVerifier (verifier : BitVec 384) (chal data : List Word) : Option (BitVec 384)
/-- The 19 check bits of BCH(275,256) over a word (R27, R32): the manual names the code and not its generator. Mark: DESIGN CHOICE (log 140). -/
opaque bch (data : BitVec 256) : BitVec 19
/-- The payload bits of STRD, STRS and STWR, whose layout the manual does not give. Mark: DESIGN CHOICE (log 140). -/
opaque storePayload (typ addr : Nat) (mask : BitVec 32) (data : BitVec 256) : BitVec 221
/-- The mechanical position (rad) that the position scaling of the safety block gives to the newest capture of an axis in a half, and the current
(A) that it gives to a window of the first or second phase: the manual places both scalings in the safety block and lays out neither (R300,
R303). Mark: DESIGN CHOICE (log 69). -/
opaque safePosition (axis half : Nat) (capture : List Int) : Rat
opaque safeCurrent (axis phase : Nat) (sum : Int) (cnt : Nat) : Rat
/-- The safety block of the image, by its machine constants, permits debug with power (R325): its layout has no place for it. Mark: DESIGN CHOICE
(log 163). -/
opaque debugWithPower (consts : List Word) : Bool
/-- The PTP clockIdentity by the EUI-48 rule of IEEE 1588-2019 (R416), and clockAccuracy and offsetScaledLogVariance of the device's own clock, which
the manual does not give. Mark: DESIGN CHOICE (log 112). -/
opaque clockIdentity (mac : BitVec 48) : Nat
opaque clockAccuracy : Nat
opaque clockVariance : Nat
/-- The rounding of a computed float32 result. Mark: DESIGN CHOICE (log 13). -/
opaque round32 : Rat → Rat
/-- π, and the real functions the services use, as rational numbers. Mark: DESIGN CHOICE (log 12). -/
opaque pi : Rat
opaque sqrt : Rat → Rat
opaque sin : Rat → Rat
opaque cos : Rat → Rat
opaque atan2 : Rat → Rat → Rat
opaque exp : Rat → Rat
opaque log : Rat → Rat
opaque pow : Rat → Rat → Rat
/-- Coefficient `k` of the second-order resonator of R211 (b0, b1, b2, a1, a2), by its frequency over that of the evaluations and its quality
factor: the manual names no discretisation. Mark: DESIGN CHOICE (log 57). -/
opaque resonator : Rat → Rat → Nat → Rat
/-- An output of the other law where none has ever reached a context that takes over (R135). Mark: DESIGN CHOICE (log 154). -/
opaque noOutput : Nat → Rat
/-- The index of the vector inside the hexagon that restores the volt-seconds of region I, by the index demanded (Table 5.2). Mark: DESIGN CHOICE
(log 55). -/
opaque raised : Rat → Rat
/-- A quotient by zero where the manual states no result, by the counter of the state. Mark: DESIGN CHOICE (log 12). -/
opaque overZero : Nat → Rat
/-- A free word, by the counter of the state. Mark: DESIGN CHOICE (log 12). -/
opaque freeWord : Nat → Word

end Sys2Proof.Config
end

