-- ==== Sys2Proof/Machine/Bits.lean ====
section
/-! DEFINITION. Bit fields of words and small integer helpers (R9, R12, R532). -/
namespace Sys2Proof.Machine

/-- Bits `hi` to `lo` of a word as an unsigned number (R9). -/
def getBits (w : Word) (hi lo : Nat) : Nat := (w.toNat >>> lo) % 2 ^ (hi + 1 - lo)

/-- The word with bits `hi` to `lo` replaced by the low bits of `v`. -/
def setBits (w : Word) (hi lo v : Nat) : Word :=
  BitVec.ofNat 32 (w.toNat % 2 ^ lo + (v % 2 ^ (hi + 1 - lo)) * 2 ^ lo + (w.toNat >>> (hi + 1)) * 2 ^ (hi + 1))

/-- Bit `i` of a number. -/
def bitOf (n i : Nat) : Bool := n.testBit i

/-- A number with bit `i` set or cleared. -/
def putBit (n i : Nat) (b : Bool) : Nat :=
  if n.testBit i then (if b then n else n - 2 ^ i) else (if b then n + 2 ^ i else n)

/-- The low `n` bits of a number read as two's complement (R9). -/
def signed (n v : Nat) : Int :=
  if v % 2 ^ n < 2 ^ (n - 1) then (v % 2 ^ n : Int) else (v % 2 ^ n : Int) - (2 ^ n : Nat)

/-- An integer as an `n`-bit two's complement number. -/
def unsignedOf (n : Nat) (v : Int) : Nat := (v % ((2 ^ n : Nat) : Int)).toNat

/-- An integer saturated to signed 32 bits, as a word (R532). -/
def satWord (v : Int) : Word :=
  BitVec.ofInt 32 (if v > 2147483647 then 2147483647 else if v < -2147483648 then -2147483648 else v)

/-- A number saturated at the top of `n` bits. -/
def satN (n v : Nat) : Nat := min v (2 ^ n - 1)

/-- 0 or 1. -/
def b2n (b : Bool) : Nat := if b then 1 else 0

/-- The number of set bits among the low `n`. -/
def popcount (n v : Nat) : Nat := (List.range n).foldl (fun a i => a + b2n (v.testBit i)) 0

/-- A short timestamp read against an NTIME: the signed 32-bit difference (R12). -/
def shortDiff (short : Word) (ntime : Int) : Int :=
  signed 32 ((short - BitVec.ofInt 32 ntime).toNat)

/-- The difference of two NTIME values as a signed 64-bit count: they are compared by its sign alone (R11). -/
def ntSub (a b : Int) : Int := (a - b).bmod (2 ^ 64)

/-- An NTIME lies before another (R11). -/
def ntLt (a b : Int) : Bool := decide (ntSub a b < 0)

/-- An NTIME lies at another or before it (R11). -/
def ntLe (a b : Int) : Bool := decide (ntSub a b ≤ 0)

/-- The NTIME value of a count of nanoseconds (R11). -/
def ntWrap (a : Int) : Int := a.bmod (2 ^ 64)

/-- The NTIME a short timestamp stands for (R12). -/
def shortToNtime (short : Word) (ntime : Int) : Int := ntWrap (ntime + shortDiff short ntime)

/-- Ceiling of a quotient. -/
def ceilDiv (a b : Nat) : Nat := (a + b - 1) / b

/-- An NTIME as 64 bits. -/
def ntBits (t : Int) : BitVec 64 := BitVec.ofInt 64 t

/-- One byte through the CRC-32 of IEEE 802.3. -/
def crcByte (c : BitVec 32) (b : Nat) : BitVec 32 :=
  (List.range 8).foldl (fun c _ => if c.getLsbD 0 then (c >>> 1) ^^^ 0xEDB88320#32 else c >>> 1) (c ^^^ BitVec.ofNat 32 (b % 256))

/-- The `n` bytes of a number, the lowest first. -/
def numBytes (n v : Nat) : List Nat := (List.range n).map fun i => v / 2 ^ (8 * i) % 256

/-- CRC-32 over words, each in little-endian bytes. -/
def crcWords (ws : List Word) : Word :=
  ~~~ (ws.foldl (fun c w => (List.range 4).foldl (fun c i => crcByte c (w.toNat >>> (8 * i))) c) 0xFFFFFFFF#32)

/-- A word of BCH(275,256) with `n` bits in error is corrected, or is uncorrectable (R464). Mark: DEDUCED (log 128). -/
def eccFixed (n : Nat) : Bool := n == 1 || n == 2
def eccBad (n : Nat) : Bool := decide (3 ≤ n)

end Sys2Proof.Machine
end

