-- ==== Sys2Proof/Machine/Events.lean ====
section
/-! DEFINITION. The event codes of the device by name (Table 19.7 and the code tables it points at). -/
namespace Sys2Proof.Machine

/-- Source classes of Table 0.6. -/
inductive Cls where
  | sys | husk | cfg | hostq | meas | pos | loop | pwm | trip | safe | net | can | clk | rel | pwr | aux
  deriving DecidableEq, Repr

/-- The code of a source class (Table 0.6). -/
def Cls.code : Cls → Nat
  | .sys => 0x01 | .husk => 0x02 | .cfg => 0x03 | .hostq => 0x04 | .meas => 0x05 | .pos => 0x06
  | .loop => 0x07 | .pwm => 0x08 | .trip => 0x09 | .safe => 0x0A | .net => 0x0B | .can => 0x0C
  | .clk => 0x0D | .rel => 0x0E | .pwr => 0x0F | .aux => 0x10

/-- An event name: its class and code. -/
abbrev Ev := Cls × Nat

-- Table 2.20
def E.ACC_VOID : Ev := (.meas, 0x0001)
def E.ACC_FORCED_CLOSE : Ev := (.meas, 0x0002)
def E.ACC_RAIL : Ev := (.meas, 0x0003)
def E.MMT_HI : Ev := (.meas, 0x0004)
def E.MMT_LO : Ev := (.meas, 0x0005)
def E.INJ_OVERRUN : Ev := (.meas, 0x0006)
def E.SD_STUCK : Ev := (.meas, 0x0007)
def E.SD_RESUMED : Ev := (.meas, 0x0008)
def E.PAIR_FAULT : Ev := (.meas, 0x0009)
def E.ACQ_EXTENDED : Ev := (.meas, 0x000A)
def E.MMT_FORCED_CLOSE : Ev := (.meas, 0x000B)
-- Table 3.17
def E.QUAD_ERROR : Ev := (.pos, 0x0001)
def E.INDEX_ERROR : Ev := (.pos, 0x0002)
def E.HALL_INVALID : Ev := (.pos, 0x0003)
def E.HALL_SEQUENCE : Ev := (.pos, 0x0004)
def E.SER_CRC : Ev := (.pos, 0x0005)
def E.SER_TIMEOUT : Ev := (.pos, 0x0006)
def E.ENC_ERROR : Ev := (.pos, 0x0007)
def E.ENC_WARNING : Ev := (.pos, 0x0008)
def E.RES_AMPLITUDE : Ev := (.pos, 0x0009)
def E.EXC_FAULT : Ev := (.pos, 0x000A)
def E.EXC_UNLOCKED : Ev := (.pos, 0x000B)
def E.POS_LOSS : Ev := (.pos, 0x000C)
def E.OBS_LOST : Ev := (.pos, 0x000D)
def E.INJ_LOST : Ev := (.pos, 0x000E)
def E.SOURCE_CHANGE : Ev := (.pos, 0x000F)
def E.ENC_DISAGREE : Ev := (.pos, 0x0010)
def E.SER_OVERRUN : Ev := (.pos, 0x0011)
def E.PROBE_RESULT : Ev := (.pos, 0x0012)
-- Table 4.20
def E.INPUT_MISSING : Ev := (.loop, 0x0001)
def E.OVERRUN : Ev := (.loop, 0x0002)
def E.RATE_SKIP : Ev := (.loop, 0x0003)
def E.CTX_FAULT : Ev := (.loop, 0x0004)
def E.HANDOVER : Ev := (.loop, 0x0005)
def E.HANDOVER_DISAGREE : Ev := (.loop, 0x0006)
def E.FE_LIMIT : Ev := (.loop, 0x0007)
def E.WD_EXPIRED : Ev := (.loop, 0x0008)
def E.LATE_DELIVERY : Ev := (.loop, 0x0009)
def E.MIG_START : Ev := (.loop, 0x000A)
def E.MIG_DONE : Ev := (.loop, 0x000B)
def E.MIG_ABORT : Ev := (.loop, 0x000C)
def E.PARAM_REFUSED : Ev := (.loop, 0x000D)
-- Table 5.10
def E.DRV_STATE : Ev := (.loop, 0x0020)
def E.START_FAILED : Ev := (.loop, 0x0021)
def E.VOLT_LIMIT : Ev := (.loop, 0x0022)
def E.BRAKE_LIMIT : Ev := (.loop, 0x0023)
def E.ANGLE_LOST : Ev := (.loop, 0x0024)
def E.REACQUIRED : Ev := (.loop, 0x0025)
def E.ASC_HOLD : Ev := (.loop, 0x0026)
def E.DISCH_DONE : Ev := (.loop, 0x0027)
def E.DISCH_TIMEOUT : Ev := (.loop, 0x0028)
def E.DISCH_BLOCKED : Ev := (.loop, 0x0029)
-- Table 5.11
def E.BC_CLOSED : Ev := (.aux, 0x0100)
def E.BC_STALL : Ev := (.aux, 0x0101)
def E.BC_START_FAIL : Ev := (.aux, 0x0102)
def E.CMD_STATIC : Ev := (.aux, 0x0103)
def E.CMD_RANGE : Ev := (.aux, 0x0104)
-- Table 6.5
def E.GRID_STATE : Ev := (.loop, 0x0030)
def E.GRID_RETURN : Ev := (.loop, 0x0031)
def E.RT_TRIP : Ev := (.loop, 0x0032)
def E.RESYNC_TIMEOUT : Ev := (.loop, 0x0033)
def E.RESONANCE : Ev := (.loop, 0x0034)
def E.GRID_MODE : Ev := (.loop, 0x0035)
def E.GFM_CUR_LIMIT : Ev := (.loop, 0x0036)
def E.DCDC_STATE : Ev := (.loop, 0x0040)
def E.PRECHARGE_FAIL : Ev := (.loop, 0x0041)
def E.BMS_STALE : Ev := (.loop, 0x0042)
def E.PHASE_IMBALANCE : Ev := (.loop, 0x0043)
def E.PHASE_DROPPED : Ev := (.loop, 0x0044)
def E.LINK_HOLDER : Ev := (.loop, 0x0048)
-- Table 7.13
def E.CMPW_BAD : Ev := (.pwm, 0x0001)
def E.SEQ_GAP : Ev := (.pwm, 0x0002)
def E.CARRIER_CHANGED : Ev := (.pwm, 0x0003)
def E.CARRIER_REFUSED : Ev := (.pwm, 0x0004)
def E.SLOT_LOCKED : Ev := (.pwm, 0x0005)
def E.SLOT_UNLOCKED : Ev := (.pwm, 0x0006)
def E.INTERLOCK : Ev := (.pwm, 0x0007)
def E.SHORT_PULSE : Ev := (.pwm, 0x0008)
def E.FB_FAULT : Ev := (.pwm, 0x0009)
def E.SLOT_STARTED : Ev := (.pwm, 0x000A)
-- Table 7.14
def E.VDS_FAULT : Ev := (.aux, 0x0001)
def E.BOOT_UV : Ev := (.aux, 0x0002)
def E.DUTY_CLAMP : Ev := (.aux, 0x0003)
def E.VGD_UV : Ev := (.aux, 0x0004)
def E.AUX_CMPW_BAD : Ev := (.aux, 0x0005)
def E.AUX_SEQ_GAP : Ev := (.aux, 0x0006)
def E.AUX_CARRIER_CHANGED : Ev := (.aux, 0x0007)
def E.AUX_CARRIER_REFUSED : Ev := (.aux, 0x0008)
def E.AUX_LOCKED : Ev := (.aux, 0x0009)
def E.AUX_UNLOCKED : Ev := (.aux, 0x000A)
def E.AUX_SHORT_PULSE : Ev := (.aux, 0x000B)
-- Table 8.11
def E.TRIP_ONSET : Ev := (.trip, 0x0001)
def E.TRIP_ESCALATED : Ev := (.trip, 0x0002)
def E.TRIP_RELEASED : Ev := (.trip, 0x0003)
def E.LATCH_HELD : Ev := (.trip, 0x0004)
def E.SHORT_REPORTED : Ev := (.trip, 0x0005)
def E.MULTI_LEG_SHORT : Ev := (.trip, 0x0006)
def E.ASC_SUBSTITUTED : Ev := (.trip, 0x0007)
def E.ASC_BLOCKED : Ev := (.trip, 0x0008)
def E.CMP_TRIP : Ev := (.trip, 0x0009)
def E.STO_MASKED : Ev := (.trip, 0x000A)
def E.TJ_WARN : Ev := (.trip, 0x0020)
def E.TJ_LIMIT : Ev := (.trip, 0x0021)
def E.LIFE_WARN : Ev := (.trip, 0x0022)
def E.LIFE_INPUT_STALE : Ev := (.trip, 0x0023)
def E.LIFE_RESTORE_FAIL : Ev := (.trip, 0x0024)
-- Table 9.11
def E.SAFE_ARMED : Ev := (.safe, 0x0001)
def E.CHAFF_FAIL : Ev := (.safe, 0x0002)
def E.LOCKSTEP_MISMATCH : Ev := (.safe, 0x0003)
def E.HALF_FAULT : Ev := (.safe, 0x0004)
def E.AXIS_STATE : Ev := (.safe, 0x0005)
def E.VIOLATION : Ev := (.safe, 0x0006)
def E.SIN_DISCREPANCY : Ev := (.safe, 0x0007)
def E.OUT_READBACK : Ev := (.safe, 0x0008)
def E.TEST_MISSED : Ev := (.safe, 0x0009)
def E.RST_ACCEPTED : Ev := (.safe, 0x000A)
def E.RST_REFUSED : Ev := (.safe, 0x000B)
def E.RST_STUCK : Ev := (.safe, 0x000C)
def E.SPLIT_DONE : Ev := (.safe, 0x000D)
def E.SPLIT_REFUSED : Ev := (.safe, 0x000E)
def E.REJOIN_DONE : Ev := (.safe, 0x000F)
def E.PSET_CHANGED : Ev := (.safe, 0x0010)
def E.PSET_REFUSED : Ev := (.safe, 0x0011)
def E.PW_LOCKOUT : Ev := (.safe, 0x0012)
def E.OVERLAY_DISCARDED : Ev := (.safe, 0x0013)
-- Table 10.16
def E.SESSION_OPEN : Ev := (.husk, 0x0001)
def E.SESSION_FAIL : Ev := (.husk, 0x0002)
def E.SESSION_CLOSED : Ev := (.husk, 0x0003)
def E.DOMAIN_REFUSED : Ev := (.husk, 0x0004)
def E.OPCODE_REFUSED : Ev := (.husk, 0x0005)
def E.IMG_REJECTED : Ev := (.husk, 0x0006)
def E.HFW_COPY_BAD : Ev := (.husk, 0x0007)
def E.SVN_COMMIT : Ev := (.husk, 0x0008)
def E.DBG_UNLOCK : Ev := (.husk, 0x0009)
def E.DBG_CLOSED : Ev := (.husk, 0x000A)
def E.CONSENT_GIVEN : Ev := (.husk, 0x000B)
def E.ERASE_START : Ev := (.husk, 0x000C)
def E.ERASE_DONE : Ev := (.husk, 0x000D)
def E.ERASE_REFUSED : Ev := (.husk, 0x000E)
def E.KEY_LOADED : Ev := (.husk, 0x000F)
def E.KEY_DELETED : Ev := (.husk, 0x0010)
def E.KEY_REFUSED : Ev := (.husk, 0x0011)
def E.PROV_FUSED : Ev := (.husk, 0x0012)
def E.RECORD_AUTH_FAIL : Ev := (.husk, 0x0013)
-- Table 11.9
def E.IMG_LOADED : Ev := (.cfg, 0x0001)
def E.SLOT_FALLBACK : Ev := (.cfg, 0x0002)
def E.IMG_REFUSED : Ev := (.cfg, 0x0003)
def E.FLIT_ROLE_DISCARD : Ev := (.cfg, 0x0004)
def E.CMPW_NOT_OWNER : Ev := (.cfg, 0x0005)
def E.STORE_REFUSED : Ev := (.cfg, 0x0006)
def E.PLACE_MOVED : Ev := (.cfg, 0x0007)
def E.PLACE_FAIL : Ev := (.cfg, 0x0008)
def E.UPD_START : Ev := (.cfg, 0x0009)
def E.UPD_DONE : Ev := (.cfg, 0x000A)
def E.UPD_FAIL : Ev := (.cfg, 0x000B)
def E.SLOT_VERIFIED : Ev := (.cfg, 0x000C)
def E.SLOT_REVOKED : Ev := (.cfg, 0x000D)
-- Table 12.12
def E.RING_ERROR : Ev := (.hostq, 0x0001)
def E.DB_BAD : Ev := (.hostq, 0x0002)
def E.CQ_FULL : Ev := (.hostq, 0x0003)
def E.HOST_LOST : Ev := (.hostq, 0x0004)
def E.HOST_RETURNED : Ev := (.hostq, 0x0005)
def E.FALLBACK_START : Ev := (.hostq, 0x0006)
def E.FALLBACK_END : Ev := (.hostq, 0x0007)
def E.SCHED_FIRE_FAIL : Ev := (.hostq, 0x0008)
def E.RING_CFG_REFUSED : Ev := (.hostq, 0x0009)
-- Table 13.8
def E.TIME_STATE : Ev := (.net, 0x0001)
def E.STEP_APPLIED : Ev := (.net, 0x0002)
def E.STEP_FORCED : Ev := (.net, 0x0003)
def E.PARENT_CHANGED : Ev := (.net, 0x0004)
def E.LINK_UP : Ev := (.net, 0x0005)
def E.LINK_DOWN : Ev := (.net, 0x0006)
def E.TIME_SET_REFUSED : Ev := (.net, 0x0007)
def E.RX_DROP : Ev := (.net, 0x0008)
def E.MSEC_BAD : Ev := (.net, 0x0009)
def E.MSEC_NO_SA : Ev := (.net, 0x000A)
def E.LAUNCH_LATE : Ev := (.net, 0x000B)
def E.LAUNCH_DROPPED : Ev := (.net, 0x000C)
def E.WAKE_SLOT : Ev := (.net, 0x000D)
-- Table 14.8
def E.ERROR_PASSIVE : Ev := (.can, 0x0001)
def E.BUS_OFF : Ev := (.can, 0x0002)
def E.ERROR_ACTIVE : Ev := (.can, 0x0003)
def E.RECOVERED : Ev := (.can, 0x0004)
def E.RECOVER_REFUSED : Ev := (.can, 0x0005)
def E.PROTOCOL_EXCEPTION : Ev := (.can, 0x0006)
def E.RX_LOST : Ev := (.can, 0x0007)
def E.RX_UNMATCHED : Ev := (.can, 0x0008)
def E.ID_COLLISION : Ev := (.can, 0x0009)
def E.NO_PEER : Ev := (.can, 0x000A)
def E.REF_MISSED : Ev := (.can, 0x000B)
def E.REF_CONFLICT : Ev := (.can, 0x000C)
def E.CAN_ITEM_BAD : Ev := (.can, 0x000D)
-- Table 15.8
def E.REF_LOST : Ev := (.clk, 0x0001)
def E.REF_QUALIFIED : Ev := (.clk, 0x0002)
def E.PLL_HOLDOVER : Ev := (.clk, 0x0003)
def E.PLL_RELOCKED : Ev := (.clk, 0x0004)
def E.LOCK_LOST : Ev := (.clk, 0x0005)
def E.SLOT_HOP : Ev := (.clk, 0x0006)
def E.SYNC_DONE : Ev := (.clk, 0x0007)
def E.SYNC_TIMEOUT : Ev := (.clk, 0x0008)
def E.FREQ_CLAMP : Ev := (.clk, 0x0009)
def E.POD_CLK_CHANGED : Ev := (.clk, 0x000A)
def E.POD_CLK_REFUSED : Ev := (.clk, 0x000B)
-- Table 16.7
def E.CE_HARD : Ev := (.rel, 0x0001)
def E.UE_KERNEL : Ev := (.rel, 0x0002)
def E.UE_STORE : Ev := (.rel, 0x0003)
def E.UE_BLOCK : Ev := (.rel, 0x0004)
def E.LINK_UECC : Ev := (.rel, 0x0005)
def E.WIRE_MAPPED : Ev := (.rel, 0x0006)
def E.LINK_FAILED : Ev := (.rel, 0x0007)
def E.BIST_FAIL : Ev := (.rel, 0x0008)
def E.KERNEL_RESTORED : Ev := (.rel, 0x0009)
def E.SPARE_USED : Ev := (.rel, 0x000A)
def E.SPARES_EXHAUSTED : Ev := (.rel, 0x000B)
def E.MIG_SUSPECT : Ev := (.rel, 0x000C)
def E.AGE_WARN : Ev := (.rel, 0x000D)
def E.AGE_LIMIT : Ev := (.rel, 0x000E)
def E.REG_RESTORED : Ev := (.rel, 0x000F)
def E.RECORD_FAIL : Ev := (.rel, 0x0010)
def E.TEST_SKIPPED : Ev := (.rel, 0x0011)
def E.DEVICE_LIFE : Ev := (.rel, 0x0012)
-- Table 17.6
def E.RESET_CAUSE : Ev := (.pwr, 0x0001)
def E.READY : Ev := (.pwr, 0x0002)
def E.RST_CMD_REFUSED : Ev := (.pwr, 0x0003)
def E.WAKE_OPEN : Ev := (.pwr, 0x0004)
def E.TOKEN_GRANTED : Ev := (.pwr, 0x0005)
def E.TOKEN_WITHDRAWN : Ev := (.pwr, 0x0006)
-- Table 19.6
def E.BAD_ACCESS : Ev := (.sys, 0x0001)
def E.EVT_LOST : Ev := (.sys, 0x0002)

end Sys2Proof.Machine
end

