-- ==== Sys2Proof/Machine/KMap.lean ====
section
/-! DEFINITION. Sparse maps from a number to plain data, in one canonical form: keys strictly rising, and no entry equal to
the value that an unlisted key reads as. Registers, contexts, channels, objects and stores are held in them. -/
namespace Sys2Proof.Machine

/-- A sparse map: a list of key and value pairs. -/
abbrev KMap (α : Type) := List (Nat × α)

/-- The value at a key, or the value `d` that every unlisted key reads as. -/
def kget {α : Type} (d : α) : KMap α → Nat → α
  | [], _ => d
  | (k', v) :: m, k => if k = k' then v else kget d m k

/-- Put an entry into a strictly rising list, in place of the entry of the same key. -/
def kput {α : Type} : KMap α → Nat → α → KMap α
  | [], k, v => [(k, v)]
  | (k', v') :: m, k, v =>
    if k < k' then (k, v) :: (k', v') :: m
    else if k = k' then (k, v) :: m
    else (k', v') :: kput m k v

/-- Remove what is listed at a key. -/
def kdel {α : Type} : KMap α → Nat → KMap α
  | [], _ => []
  | (k', v') :: m, k => if k = k' then kdel m k else (k', v') :: kdel m k

/-- Write a value: an entry equal to the unlisted value is removed, so the form stays canonical. -/
def kset {α : Type} [DecidableEq α] (d : α) (m : KMap α) (k : Nat) (v : α) : KMap α :=
  if v = d then kdel m k else kput m k v

/-- Every key of the list lies above `k`. -/
def kabove {α : Type} (k : Nat) : KMap α → Bool
  | [] => true
  | (k', _) :: m => decide (k < k') && kabove k m

/-- The canonical form: keys strictly rising and no entry equal to the unlisted value. -/
def kwf {α : Type} [DecidableEq α] (d : α) : KMap α → Bool
  | [] => true
  | (k, v) :: m => kabove k m && decide (v ≠ d) && kwf d m

end Sys2Proof.Machine
end

