-- ==== Sys2Proof/Machine/RegTable.lean ====
section
/-! DEFINITION. The registers of BAR0 as the chapters' register tables give them: for every register its block, offset,
strides and counts, and for every field its bits, access code, write domains, and whether it stays writable after SEALED.
Written from the register maps and register tables (Tables 2.5 to 19.3); `R527` is decided by this table. -/
namespace Sys2Proof.Machine

/-- The sixteen blocks of Table 19.1, in base order. -/
inductive Blk where
  | sys | husk | cfg | hostq | meas | pos | loop | pwm | trip | safe | net | can | clk | rel | pwr | aux
  deriving DecidableEq, Repr

/-- A block's number: its base ÷ 0x0001_0000 (Table 19.1). -/
def Blk.num : Blk → Nat
  | .sys => 0
  | .husk => 1
  | .cfg => 2
  | .hostq => 3
  | .meas => 4
  | .pos => 5
  | .loop => 6
  | .pwm => 7
  | .trip => 8
  | .safe => 9
  | .net => 10
  | .can => 11
  | .clk => 12
  | .rel => 13
  | .pwr => 14
  | .aux => 15

/-- The block at a base ÷ 0x0001_0000. -/
def Blk.ofNum : Nat → Option Blk
  | 0 => some .sys
  | 1 => some .husk
  | 2 => some .cfg
  | 3 => some .hostq
  | 4 => some .meas
  | 5 => some .pos
  | 6 => some .loop
  | 7 => some .pwm
  | 8 => some .trip
  | 9 => some .safe
  | 10 => some .net
  | 11 => some .can
  | 12 => some .clk
  | 13 => some .rel
  | 14 => some .pwr
  | 15 => some .aux
  | _ => none

/-- Access codes of Table 0.5. -/
inductive Access where
  | ro | rw | wo | w1c | w1s
  deriving DecidableEq, Repr

/-- One field of a register: bits, access code, write domains (bit c: domain code c of R311), `rt`: writable after SEALED
(R7 and the owning chapter), `own`: a write of it is a command of its own in the table, so REGISTER_WRITE leaves it alone. -/
structure FieldDef where
  hi : Nat
  lo : Nat
  acc : Access
  dom : Nat
  rt : Bool
  own : Bool
  deriving DecidableEq, Repr

/-- One register: base offset in its block, two strides with their counts, `perFn`: each function has its own (the second
stride then runs over the functions and is no part of the address). -/
structure RegDef where
  base : Nat
  s1 : Nat
  n1 : Nat
  s2 : Nat
  n2 : Nat
  perFn : Bool
  fields : List FieldDef
  deriving DecidableEq, Repr

/-- A named field of a register: where its word is held and which bits it takes. -/
structure FRef where
  blk : Blk
  base : Nat
  s1 : Nat
  s2 : Nat
  hi : Nat
  lo : Nat
  deriving DecidableEq, Repr

/-- A field that only the device writes. -/
def fRo (hi lo : Nat) : FieldDef := ⟨hi, lo, .ro, 0, false, false⟩
/-- A field of another access code. -/
def fAc (acc : Access) (hi lo dom : Nat) (rt own : Bool) : FieldDef := ⟨hi, lo, acc, dom, rt, own⟩

/-- The registers of block SYS. -/
def regsSys : List RegDef :=
  [ ⟨0x0000, 0, 1, 0, 1, false, [fRo 31 16, fRo 15 0]⟩ -- SYS_ID
  , ⟨0x0004, 0, 1, 0, 1, false, [fRo 31 16, fRo 15 12, fRo 11 8, fRo 7 6]⟩ -- SYS_REV
  , ⟨0x0008, 0, 1, 0, 1, false, [fRo 31 31, fRo 30 30, fRo 29 29, fRo 28 28, fRo 27 27, fRo 26 26, fRo 25 25, fRo 24 24]⟩ -- SYS_STAT
  , ⟨0x0010, 0, 1, 0, 1, false, [fRo 31 0]⟩ -- SYS_EVT_SEQ_LO
  , ⟨0x0014, 0, 1, 0, 1, false, [fRo 31 0]⟩ -- SYS_EVT_SEQ_HI
  , ⟨0x0018, 0, 1, 0, 1, false, [fRo 31 0]⟩ -- SYS_EVT_OLD_LO
  , ⟨0x001C, 0, 1, 0, 1, false, [fRo 31 0]⟩ -- SYS_EVT_OLD_HI
  , ⟨0x0020, 0, 1, 0, 1, false, [fRo 31 0]⟩ -- SYS_EVT_LOST
  , ⟨0x0030, 0, 1, 65536, 2, true, [fAc .w1c 16 1 31 true false]⟩ -- SYS_EVT_PEND
  , ⟨0x0034, 0, 1, 65536, 2, true, [fAc .rw 31 31 31 true false, fAc .rw 30 26 31 true false, fAc .rw 16 1 31 true false]⟩ -- SYS_EVT_IRQ
  ]

/-- The registers of block HUSK. -/
def regsHusk : List RegDef :=
  [ ⟨0x0000, 0, 1, 0, 1, false, [fRo 31 28, fRo 27 16]⟩ -- HUSK_ID
  , ⟨0x0004, 0, 1, 0, 1, false, [fRo 31 31, fRo 30 29, fRo 28 28, fRo 27 27, fRo 26 26, fRo 23 16]⟩ -- HUSK_STAT
  , ⟨0x0008, 0, 1, 0, 1, false, [fRo 31 0]⟩ -- HUSK_DEV_ID_LO
  , ⟨0x000C, 0, 1, 0, 1, false, [fRo 31 0]⟩ -- HUSK_DEV_ID_HI
  , ⟨0x0010, 0, 1, 0, 1, false, [fRo 31 25, fRo 24 18, fRo 17 12]⟩ -- HUSK_SVN
  , ⟨0x0014, 0, 1, 0, 1, false, [fAc .w1s 31 31 2 true true]⟩ -- HUSK_SVN_CMD
  , ⟨0x0020, 0, 1, 65536, 2, true, [fAc .w1s 31 31 31 true true, fAc .w1s 30 30 31 true true, fAc .w1s 29 29 31 true true, fAc .rw 28 26 31 true false, fAc .rw 25 23 31 true false, fAc .rw 22 19 31 true false]⟩ -- HUSK_SESS_CTL
  , ⟨0x0024, 0, 1, 65536, 2, true, [fRo 31 29, fRo 28 26, fRo 25 24, fRo 23 20, fRo 19 10]⟩ -- HUSK_SESS_STAT
  , ⟨0x0100, 4, 12, 65536, 2, true, [fRo 31 0]⟩ -- HUSK_CHAL
  , ⟨0x0200, 4, 24, 65536, 2, true, [fAc .wo 31 0 31 true false]⟩ -- HUSK_RESP
  , ⟨0x0300, 0, 1, 0, 1, false, [fAc .w1s 31 31 2 true true, fAc .w1s 30 30 16 true true]⟩ -- HUSK_DBG_CTL
  , ⟨0x0304, 0, 1, 0, 1, false, [fRo 31 31, fRo 30 30, fRo 29 29, fRo 28 19]⟩ -- HUSK_DBG_STAT
  , ⟨0x0308, 0, 1, 0, 1, false, [fAc .w1s 31 31 4 true true, fAc .w1s 30 30 4 true true]⟩ -- HUSK_DBG_CONSENT
  , ⟨0x0400, 0, 1, 0, 1, false, [fAc .w1s 31 31 18 true true, fAc .wo 15 0 18 true true]⟩ -- HUSK_ERASE_CTL
  , ⟨0x0404, 0, 1, 0, 1, false, [fRo 31 29, fRo 28 22]⟩ -- HUSK_ERASE_STAT
  , ⟨0x0500, 0, 1, 0, 1, false, [fAc .w1s 31 31 4 true true, fAc .w1s 30 30 4 true true, fAc .w1s 29 29 10 true true, fAc .w1s 28 28 8 true true, fAc .rw 27 25 14 true false, fAc .rw 24 24 4 true false, fAc .rw 23 18 4 true false]⟩ -- HUSK_KEY_CTL
  , ⟨0x0504, 0, 1, 0, 1, false, [fRo 31 24, fRo 23 16, fRo 15 12]⟩ -- HUSK_KEY_STAT
  , ⟨0x0508, 0, 1, 0, 1, false, [fAc .w1s 31 31 2 true true, fAc .rw 30 28 2 true false]⟩ -- HUSK_PROV_CTL
  , ⟨0x050C, 0, 1, 0, 1, false, [fRo 31 29, fRo 28 25]⟩ -- HUSK_PROV_STAT
  , ⟨0x0540, 4, 16, 0, 1, false, [fAc .wo 31 0 14 true false]⟩ -- HUSK_KEY_DATA
  , ⟨0x0600, 0, 1, 0, 1, false, [fRo 31 0]⟩ -- HUSK_REFUSE_CNT
  , ⟨0x0604, 0, 1, 0, 1, false, [fRo 31 31, fRo 30 28, fRo 27 27, fRo 26 23, fRo 22 9, fRo 8 7]⟩ -- HUSK_REFUSE_LAST
  ]

/-- The registers of block CFG. -/
def regsCfg : List RegDef :=
  [ ⟨0x0000, 0, 1, 0, 1, false, [fRo 31 31, fRo 30 29, fRo 28 28, fRo 27 24, fRo 23 16, fRo 15 8]⟩ -- CFG_STAT
  , ⟨0x0008, 0, 1, 0, 1, false, [fRo 31 0]⟩ -- CFG_SEQ_A_LO
  , ⟨0x000C, 0, 1, 0, 1, false, [fRo 31 0]⟩ -- CFG_SEQ_A_HI
  , ⟨0x0010, 0, 1, 0, 1, false, [fRo 31 0]⟩ -- CFG_SEQ_B_LO
  , ⟨0x0014, 0, 1, 0, 1, false, [fRo 31 0]⟩ -- CFG_SEQ_B_HI
  , ⟨0x0018, 0, 1, 0, 1, false, [fRo 31 31, fRo 30 30, fRo 29 26, fRo 25 19, fRo 15 15, fRo 14 14, fRo 13 10, fRo 9 3]⟩ -- CFG_SLOT_STAT
  , ⟨0x001C, 0, 1, 0, 1, false, [fRo 31 16]⟩ -- CFG_REFUSE_SEC
  , ⟨0x0020, 0, 1, 0, 1, false, [fRo 31 0]⟩ -- CFG_REFUSE_OFS
  , ⟨0x0040, 0, 1, 0, 1, false, [fAc .w1s 31 31 2 true true, fAc .w1s 30 30 2 true true, fAc .w1s 29 29 2 true true, fAc .w1s 28 28 2 true true, fAc .rw 27 27 2 true false]⟩ -- CFG_UPD_CTL
  , ⟨0x0044, 0, 1, 0, 1, false, [fAc .rw 31 0 2 true false]⟩ -- CFG_UPD_ADDR_LO
  , ⟨0x0048, 0, 1, 0, 1, false, [fAc .rw 31 0 2 true false]⟩ -- CFG_UPD_ADDR_HI
  , ⟨0x004C, 0, 1, 0, 1, false, [fAc .rw 31 0 2 true false]⟩ -- CFG_UPD_LEN
  , ⟨0x0050, 0, 1, 0, 1, false, [fRo 31 29, fRo 28 28, fRo 27 24, fRo 23 17, fAc .w1c 16 16 2 true false]⟩ -- CFG_UPD_STAT
  , ⟨0x0060, 0, 1, 0, 1, false, [fRo 31 24, fRo 23 23]⟩ -- CFG_FLASH_STAT
  ]

/-- The registers of block HOSTQ. -/
def regsHostq : List RegDef :=
  [ ⟨0x0000, 0, 1, 0, 1, false, [fRo 31 21, fRo 20 12, fRo 0 0]⟩ -- HOSTQ_STAT
  , ⟨0x0010, 4, 2, 0, 1, false, [fAc .rw 31 31 2 false false, fAc .rw 30 30 2 false false, fAc .rw 13 0 2 false false]⟩ -- HOSTQ_HL_CFG
  , ⟨0x0020, 0, 1, 0, 1, false, [fRo 31 31, fRo 30 30, fAc .w1c 29 29 6 true false, fAc .w1c 28 28 2 true false, fRo 27 26, fRo 25 24]⟩ -- HOSTQ_HL_STAT
  , ⟨0x0100, 4, 32, 0, 1, false, [fAc .rw 31 0 2 false false]⟩ -- HOSTQ_FB
  , ⟨0x1000, 32, 32, 65536, 2, true, [fAc .rw 31 12 31 true false]⟩ -- HOSTQ_SQ_BASE_LO
  , ⟨0x1004, 32, 32, 65536, 2, true, [fAc .rw 31 0 31 true false]⟩ -- HOSTQ_SQ_BASE_HI
  , ⟨0x1008, 32, 32, 65536, 2, true, [fAc .rw 31 31 31 true true, fAc .rw 30 27 31 true false, fAc .rw 26 22 31 true false, fAc .rw 21 20 31 true false, fAc .rw 19 16 31 true false]⟩ -- HOSTQ_SQ_CFG
  , ⟨0x100C, 32, 32, 65536, 2, true, [fRo 31 30, fRo 29 27, fRo 26 20, fAc .w1c 19 19 31 true false, fRo 18 16, fRo 11 0]⟩ -- HOSTQ_SQ_STAT
  , ⟨0x2000, 32, 32, 65536, 2, true, [fAc .rw 31 12 31 true false]⟩ -- HOSTQ_CQ_BASE_LO
  , ⟨0x2004, 32, 32, 65536, 2, true, [fAc .rw 31 0 31 true false]⟩ -- HOSTQ_CQ_BASE_HI
  , ⟨0x2008, 32, 32, 65536, 2, true, [fAc .rw 31 31 31 true true, fAc .rw 30 27 31 true false, fAc .rw 26 22 31 true false, fAc .rw 21 14 31 true false, fAc .rw 13 4 31 true false]⟩ -- HOSTQ_CQ_CFG
  , ⟨0x200C, 32, 32, 65536, 2, true, [fRo 31 30, fRo 29 27, fRo 26 26, fRo 25 25, fAc .w1c 24 24 31 true false, fRo 23 12, fRo 11 0]⟩ -- HOSTQ_CQ_STAT
  ]

/-- The registers of block MEAS. -/
def regsMeas : List RegDef :=
  [ ⟨0x0000, 0, 1, 0, 1, false, [fAc .rw 31 31 2 false false, fRo 0 0]⟩ -- MEAS_CTL
  , ⟨0x0004, 0, 1, 0, 1, false, [fRo 4 4, fRo 3 3, fRo 2 2, fRo 1 1, fRo 0 0]⟩ -- MEAS_STAT
  , ⟨0x0100, 4, 24, 0, 1, false, [fAc .rw 31 31 2 false false, fAc .rw 30 30 2 false false, fAc .rw 29 26 2 false false, fAc .rw 25 24 2 false false, fAc .rw 23 22 2 false false, fAc .rw 21 17 2 false false, fAc .rw 16 15 2 false false, fAc .rw 14 12 2 false false, fAc .rw 11 11 2 false false, fAc .rw 10 6 2 false false, fAc .rw 5 4 2 false false]⟩ -- MEAS_SEQ_CTL
  , ⟨0x0200, 16, 8, 0, 1, false, [fAc .rw 31 0 2 false false]⟩ -- MEAS_NTEV_PER
  , ⟨0x0204, 16, 8, 0, 1, false, [fAc .rw 31 0 2 false false]⟩ -- MEAS_NTEV_PH_LO
  , ⟨0x0208, 16, 8, 0, 1, false, [fAc .rw 31 0 2 false false]⟩ -- MEAS_NTEV_PH_HI
  , ⟨0x0300, 4, 8, 0, 1, false, [fAc .rw 31 31 2 false false, fAc .rw 6 0 2 false false]⟩ -- MEAS_SDCK_CFG
  , ⟨0x0400, 8, 48, 0, 1, false, [fAc .rw 31 31 2 false false, fAc .rw 30 28 2 false false, fAc .rw 27 20 2 false false, fAc .rw 19 16 2 false false, fAc .rw 15 12 2 false false, fAc .rw 11 10 2 false false]⟩ -- MEAS_SD_CFG
  , ⟨0x0404, 8, 48, 0, 1, false, [fAc .rw 31 31 2 false false, fAc .rw 30 23 2 false false, fAc .rw 22 22 2 false false, fAc .rw 21 14 2 false false, fAc .rw 13 13 2 false false, fAc .rw 12 5 2 false false]⟩ -- MEAS_SD_RT
  , ⟨0x1000, 64, 24, 4, 16, false, [fAc .rw 31 31 2 false false, fAc .rw 30 23 2 false false, fAc .rw 22 22 2 false false, fAc .rw 21 14 2 false false, fAc .rw 13 6 2 false false, fAc .rw 5 4 2 false false, fAc .rw 1 0 2 false false]⟩ -- MEAS_SEQ_ENT
  , ⟨0x2000, 16, 256, 0, 1, false, [fAc .rw 31 31 10 false false, fAc .rw 30 30 10 false false, fAc .rw 29 28 10 false false, fAc .rw 27 23 10 false false, fAc .rw 22 11 10 false false, fRo 10 10]⟩ -- MEAS_ACC_CFG
  , ⟨0x2004, 16, 256, 0, 1, false, [fAc .rw 31 30 10 false false, fAc .rw 23 0 10 false false]⟩ -- MEAS_ACC_CLOSE
  , ⟨0x2008, 16, 256, 0, 1, false, [fAc .rw 31 31 10 false false, fAc .rw 19 15 10 false false, fAc .rw 14 0 10 false false]⟩ -- MEAS_ACC_DST0
  , ⟨0x200C, 16, 256, 0, 1, false, [fAc .rw 31 31 10 false false, fAc .rw 19 15 10 false false, fAc .rw 14 0 10 false false]⟩ -- MEAS_ACC_DST1
  , ⟨0x3000, 16, 256, 0, 1, false, [fAc .rw 31 31 10 false false, fAc .rw 30 30 10 false false, fAc .rw 29 29 10 false false, fAc .rw 28 26 10 false false, fAc .rw 25 18 10 false false]⟩ -- MEAS_MMT_CFG
  , ⟨0x3004, 16, 256, 0, 1, false, [fAc .rw 31 30 10 false false, fAc .rw 23 0 10 false false]⟩ -- MEAS_MMT_CLOSE
  , ⟨0x3008, 16, 256, 0, 1, false, [fAc .rw 31 16 10 false false, fAc .rw 15 0 10 false false]⟩ -- MEAS_MMT_THR
  , ⟨0x300C, 16, 256, 0, 1, false, [fAc .rw 31 31 10 false false, fAc .rw 19 15 10 false false, fAc .rw 14 0 10 false false]⟩ -- MEAS_MMT_DST
  , ⟨0x4000, 8, 32, 0, 1, false, [fAc .rw 31 31 8 false false, fAc .rw 15 8 8 false false, fAc .rw 7 0 8 false false]⟩ -- MEAS_PAIR_CFG
  , ⟨0x4004, 8, 32, 0, 1, false, [fAc .rw 31 28 8 false false, fAc .rw 15 0 8 false false]⟩ -- MEAS_PAIR_LIM
  , ⟨0x5000, 4, 8, 0, 1, false, [fAc .w1c 31 0 10 true false]⟩ -- MEAS_ACC_VOID
  , ⟨0x5020, 4, 8, 0, 1, false, [fAc .w1c 31 0 10 true false]⟩ -- MEAS_ACC_RAIL
  , ⟨0x5040, 0, 1, 0, 1, false, [fAc .w1c 31 0 8 true true]⟩ -- MEAS_PAIR_STAT
  , ⟨0x5044, 0, 1, 0, 1, false, [fAc .w1c 23 0 2 true false]⟩ -- MEAS_INJ_OVR
  , ⟨0x5048, 0, 1, 0, 1, false, [fAc .w1c 31 0 2 true false]⟩ -- MEAS_SD_STUCK0
  , ⟨0x504C, 0, 1, 0, 1, false, [fAc .w1c 15 0 2 true false]⟩ -- MEAS_SD_STUCK1
  ]

/-- The registers of block POS. -/
def regsPos : List RegDef :=
  [ ⟨0x0000, 0, 1, 0, 1, false, [fAc .rw 31 31 2 false false, fRo 7 0]⟩ -- POS_CTL
  , ⟨0x0100, 64, 8, 0, 1, false, [fAc .rw 31 31 10 false false, fAc .rw 30 30 10 false false, fAc .rw 29 29 10 false false, fAc .rw 28 27 10 false false, fAc .rw 26 26 10 false false, fAc .rw 25 22 10 false false, fAc .rw 21 16 10 false false, fAc .rw 15 8 10 false false, fRo 0 0]⟩ -- POS_PI_CFG
  , ⟨0x0104, 64, 8, 0, 1, false, [fAc .rw 31 31 10 false false, fAc .rw 30 30 10 false false, fAc .rw 29 28 10 false false, fAc .rw 15 0 10 false false]⟩ -- POS_INC_CFG
  , ⟨0x0108, 64, 8, 0, 1, false, [fAc .rw 31 20 10 false false, fAc .rw 19 14 10 false false, fAc .rw 13 13 10 false false, fAc .rw 12 12 10 false false, fAc .rw 11 8 10 false false, fAc .rw 7 0 10 false false]⟩ -- POS_SER_CFG
  , ⟨0x010C, 64, 8, 0, 1, false, [fAc .rw 31 31 10 false false, fAc .rw 30 30 10 false false, fAc .rw 29 25 10 false false, fAc .rw 24 22 10 false false, fAc .rw 21 18 10 false false, fAc .rw 17 0 10 false false]⟩ -- POS_RES_CFG
  , ⟨0x0110, 64, 8, 0, 1, false, [fAc .rw 31 16 10 false false, fAc .rw 15 0 10 false false]⟩ -- POS_RES_LIM
  , ⟨0x0114, 64, 8, 0, 1, false, [fAc .rw 15 8 10 false false, fAc .rw 7 0 10 false false]⟩ -- POS_RES_ACC
  , ⟨0x0118, 64, 8, 0, 1, false, [fAc .rw 31 30 10 false false, fAc .rw 23 0 10 false false]⟩ -- POS_CAP
  , ⟨0x011C, 64, 8, 0, 1, false, [fAc .rw 31 31 10 false false, fAc .rw 19 15 10 false false, fAc .rw 14 0 10 false false]⟩ -- POS_DST
  , ⟨0x0120, 64, 8, 0, 1, false, [fAc .w1c 12 12 10 true false, fAc .w1c 11 11 10 true false, fAc .w1c 10 10 10 true true, fAc .w1c 9 9 10 true false, fAc .w1c 8 8 10 true false, fAc .w1c 7 7 10 true false, fAc .w1c 6 6 10 true false, fAc .w1c 5 5 10 true false, fAc .w1c 4 4 10 true false, fAc .w1c 3 3 10 true false, fAc .w1c 2 2 10 true false, fAc .w1c 1 1 10 true false, fAc .w1c 0 0 10 true false]⟩ -- POS_PI_STAT
  , ⟨0x0800, 32, 16, 0, 1, false, [fAc .rw 31 31 2 false false, fAc .rw 30 30 2 false false, fAc .rw 29 27 2 false false, fAc .rw 26 26 2 false false, fAc .rw 25 25 2 false false, fAc .rw 24 16 2 false false, fAc .rw 15 10 2 false false]⟩ -- POS_AS_CFG
  , ⟨0x0804, 32, 16, 0, 1, false, [fAc .rw 31 16 2 false false, fAc .rw 15 0 2 false false]⟩ -- POS_AS_SPD
  , ⟨0x0808, 32, 16, 0, 1, false, [fAc .rw 31 22 2 false false, fAc .rw 21 12 2 false false, fAc .rw 11 2 2 false false]⟩ -- POS_AS_SUP
  , ⟨0x080C, 32, 16, 0, 1, false, [fAc .rw 31 24 2 false false]⟩ -- POS_AS_ENC
  , ⟨0x0810, 32, 16, 0, 1, false, [fAc .rw 31 28 2 false false, fAc .rw 27 24 2 false false, fAc .rw 23 12 2 false false, fAc .rw 11 0 2 false false]⟩ -- POS_AS_PROBE
  ]

/-- The registers of block LOOP. -/
def regsLoop : List RegDef :=
  [ ⟨0x0000, 0, 1, 0, 1, false, [fAc .rw 31 31 2 false false]⟩ -- LOOP_CTL
  , ⟨0x0004, 0, 1, 0, 1, false, [fRo 25 16, fRo 9 0]⟩ -- LOOP_STAT
  , ⟨0x0008, 0, 1, 0, 1, false, [fRo 31 30, fRo 29 21, fRo 20 16, fRo 15 11, fAc .w1c 2 2 2 true false, fAc .w1c 1 1 2 true false, fAc .w1c 0 0 2 true false]⟩ -- LOOP_MIG_STAT
  , ⟨0x0100, 4, 16, 0, 1, false, [fRo 31 0]⟩ -- LOOP_FAULT
  , ⟨0x1000, 32, 512, 0, 1, false, [fAc .rw 31 31 2 false false, fAc .rw 30 30 2 false false, fAc .rw 29 27 2 false false, fAc .rw 26 22 2 false false, fAc .rw 21 20 2 false false, fAc .rw 14 0 2 false false]⟩ -- LOOP_CTX_CFG
  , ⟨0x1004, 32, 512, 0, 1, false, [fAc .rw 31 30 2 false false, fAc .rw 23 0 2 false false]⟩ -- LOOP_CTX_TRIG
  , ⟨0x1008, 32, 512, 0, 1, false, [fAc .rw 31 24 2 false false, fAc .rw 23 12 2 false false]⟩ -- LOOP_CTX_TIME
  , ⟨0x100C, 32, 512, 0, 1, false, [fAc .rw 31 28 2 false false, fAc .rw 27 24 2 false false, fAc .rw 23 16 2 false false, fAc .rw 15 14 2 false false]⟩ -- LOOP_CTX_FLT
  , ⟨0x1010, 32, 512, 0, 1, false, [fAc .rw 31 31 2 false false, fAc .rw 30 22 2 false false, fAc .rw 21 15 2 false false, fAc .rw 14 8 2 false false, fAc .rw 7 0 2 false false]⟩ -- LOOP_CTX_HO
  , ⟨0x1014, 32, 512, 0, 1, false, [fAc .rw 31 31 2 false false, fAc .rw 30 22 2 false false, fAc .rw 21 16 2 false false]⟩ -- LOOP_CTX_SHADOW
  , ⟨0x1018, 32, 512, 0, 1, false, [fAc .rw 31 31 2 false false, fAc .rw 30 26 2 false false, fAc .rw 25 21 2 false false, fAc .rw 20 12 2 false false, fAc .rw 11 10 2 false false, fAc .rw 9 0 2 false false]⟩ -- LOOP_CTX_FE0
  , ⟨0x101C, 32, 512, 0, 1, false, [fAc .rw 31 31 2 false false, fAc .rw 30 26 2 false false, fAc .rw 25 21 2 false false, fAc .rw 20 12 2 false false, fAc .rw 11 10 2 false false, fAc .rw 9 0 2 false false]⟩ -- LOOP_CTX_FE1
  , ⟨0x5000, 4, 512, 0, 1, false, [fAc .w1c 31 31 2 true true, fAc .w1c 30 30 2 true false, fAc .w1c 29 29 2 true false, fAc .w1c 28 28 2 true false, fAc .w1c 27 27 2 true false, fAc .w1c 26 26 2 true false, fAc .w1c 25 25 2 true false, fAc .w1c 24 24 2 true false, fRo 23 22, fRo 21 13, fRo 12 11]⟩ -- LOOP_CTX_STAT
  ]

/-- The registers of block PWM. -/
def regsPwm : List RegDef :=
  [ ⟨0x0000, 0, 1, 0, 1, false, [fAc .rw 31 31 2 false false]⟩ -- PWM_CTL
  , ⟨0x0004, 0, 1, 0, 1, false, [fRo 23 0]⟩ -- PWM_STAT
  , ⟨0x0008, 0, 1, 0, 1, false, [fRo 31 0]⟩ -- PWM_TIME_LO
  , ⟨0x000C, 0, 1, 0, 1, false, [fRo 31 0]⟩ -- PWM_TIME_HI
  , ⟨0x0100, 64, 24, 0, 1, false, [fAc .rw 31 31 2 false false, fAc .rw 30 28 2 false false, fAc .rw 27 27 2 false false, fAc .rw 26 26 2 false false, fAc .rw 25 23 2 false false]⟩ -- PWM_SLOT_CFG
  , ⟨0x0104, 64, 24, 0, 1, false, [fAc .rw 19 0 2 false false]⟩ -- PWM_SLOT_TOP
  , ⟨0x0108, 64, 24, 0, 1, false, [fAc .rw 31 0 2 false false]⟩ -- PWM_SLOT_PH_LO
  , ⟨0x010C, 64, 24, 0, 1, false, [fAc .rw 31 0 2 false false]⟩ -- PWM_SLOT_PH_HI
  , ⟨0x0110, 64, 24, 0, 1, false, [fAc .rw 31 18 2 false false, fAc .rw 11 0 2 false false]⟩ -- PWM_SLOT_DT
  , ⟨0x0114, 64, 24, 0, 1, false, [fAc .rw 31 20 2 false false, fAc .rw 19 8 2 false false]⟩ -- PWM_SLOT_LOCK
  , ⟨0x0118, 64, 24, 0, 1, false, [fAc .rw 29 20 2 false false, fAc .rw 19 10 2 false false, fAc .rw 9 0 2 false false]⟩ -- PWM_SLOT_LEG
  , ⟨0x011C, 64, 24, 0, 1, false, [fAc .rw 31 31 2 false false, fAc .rw 30 22 2 false false, fAc .rw 21 21 2 false false, fAc .rw 20 12 2 false false]⟩ -- PWM_SLOT_OWN
  , ⟨0x0120, 64, 24, 0, 1, false, [fAc .rw 31 24 2 false false, fAc .rw 11 6 2 false false, fAc .rw 5 0 2 false false]⟩ -- PWM_FB_CFG
  , ⟨0x0124, 64, 24, 0, 1, false, [fRo 31 31, fRo 30 30, fRo 29 29, fAc .w1c 5 5 2 true false, fAc .w1c 4 4 2 true false, fAc .w1c 3 3 2 true false, fAc .w1c 2 2 2 true false, fAc .w1c 1 1 2 true false, fAc .w1c 0 0 2 true false]⟩ -- PWM_SLOT_STAT
  , ⟨0x0128, 64, 24, 0, 1, false, [fAc .w1c 13 8 2 true false, fRo 5 0]⟩ -- PWM_FB_STAT
  , ⟨0x012C, 64, 24, 0, 1, false, [fRo 31 24, fRo 23 23, fRo 17 0]⟩ -- PWM_SLOT_UPD
  , ⟨0x0130, 64, 24, 0, 1, false, [fRo 31 16, fRo 15 0]⟩ -- PWM_SLOT_CNT
  , ⟨0x1000, 32, 24, 4, 6, false, [fRo 31 0]⟩ -- PWM_AGE
  ]

/-- The registers of block TRIP. -/
def regsTrip : List RegDef :=
  [ ⟨0x0000, 0, 1, 0, 1, false, [fAc .rw 31 31 2 false false, fRo 30 30]⟩ -- TRIP_CTL
  , ⟨0x0004, 0, 1, 0, 1, false, [fRo 27 0]⟩ -- TRIP_STAT
  , ⟨0x0008, 0, 1, 0, 1, false, [fAc .rw 27 0 8 false false]⟩ -- TRIP_STO_MASK
  , ⟨0x000C, 0, 1, 0, 1, false, [fAc .rw 15 0 8 false false]⟩ -- TRIP_STO_REC
  , ⟨0x0010, 0, 1, 0, 1, false, [fAc .w1c 27 0 6 true true]⟩ -- TRIP_LATCH
  , ⟨0x0014, 0, 1, 0, 1, false, [fAc .w1c 27 0 2 true true]⟩ -- TRIP_SHORT
  , ⟨0x0018, 0, 1, 0, 1, false, [fAc .w1c 27 0 2 true true]⟩ -- TRIP_MLS
  , ⟨0x001C, 0, 1, 0, 1, false, [fAc .w1c 31 16 2 true false, fRo 15 0]⟩ -- TRIP_CMP_STAT
  , ⟨0x0100, 16, 28, 0, 1, false, [fAc .rw 31 31 2 false false, fAc .rw 30 28 2 false false, fAc .rw 27 27 2 false false, fAc .rw 26 24 2 false false, fAc .rw 23 23 2 false false, fAc .rw 22 22 2 false false, fAc .rw 21 21 2 false false, fAc .rw 20 13 2 false false]⟩ -- TRIP_TGT_CFG
  , ⟨0x0104, 16, 28, 0, 1, false, [fAc .rw 31 31 2 false false, fAc .rw 30 28 2 false false, fAc .rw 23 0 2 false false]⟩ -- TRIP_TGT_AUTO
  , ⟨0x0108, 16, 28, 0, 1, false, [fAc .rw 31 31 2 false false, fAc .rw 30 23 2 false false, fAc .rw 22 22 2 false false, fAc .rw 21 14 2 false false]⟩ -- TRIP_TGT_LINK
  , ⟨0x010C, 16, 28, 0, 1, false, [fRo 31 29, fRo 28 28, fRo 27 27, fRo 26 26, fRo 25 25, fRo 24 16, fRo 15 0]⟩ -- TRIP_TGT_STAT
  , ⟨0x0400, 4, 8, 0, 1, false, [fAc .rw 31 31 2 false false, fAc .rw 30 28 2 false false, fAc .rw 27 0 2 false false]⟩ -- TRIP_GRP
  , ⟨0x0500, 4, 16, 0, 1, false, [fAc .rw 31 31 2 false false, fAc .rw 30 24 2 false false, fAc .rw 23 23 2 false false, fAc .rw 22 13 2 false false, fAc .rw 12 8 2 false false, fAc .rw 7 0 2 false false]⟩ -- TRIP_CMP_CFG
  , ⟨0x0800, 8, 128, 0, 1, false, [fAc .rw 31 31 10 false false, fAc .rw 30 27 10 false false, fAc .rw 26 18 10 false false, fAc .rw 17 15 10 false false, fAc .rw 14 14 10 false false]⟩ -- TRIP_RULE_SRC
  , ⟨0x0804, 8, 128, 0, 1, false, [fAc .rw 27 0 10 false false]⟩ -- TRIP_RULE_TGT
  , ⟨0x0C00, 4, 28, 0, 1, false, [fRo 31 0]⟩ -- TRIP_TS
  ]

/-- The registers of block SAFE. -/
def regsSafe : List RegDef :=
  [ ⟨0x0000, 0, 1, 0, 1, false, [fAc .rw 31 31 8 false false, fRo 30 30, fRo 29 29]⟩ -- SAFE_CTL
  , ⟨0x0004, 0, 1, 0, 1, false, [fRo 31 31, fRo 30 30, fRo 29 26, fRo 25 22]⟩ -- SAFE_STAT
  , ⟨0x0008, 0, 1, 0, 1, false, [fAc .rw 31 28 8 false false, fAc .rw 27 24 8 false false, fAc .rw 23 12 8 false false]⟩ -- SAFE_CYCLE
  , ⟨0x000C, 0, 1, 0, 1, false, [fRo 31 24, fRo 23 16, fRo 15 8, fRo 7 0]⟩ -- SAFE_SIN_STAT
  , ⟨0x0010, 0, 1, 0, 1, false, [fRo 31 26, fRo 25 20, fRo 19 14]⟩ -- SAFE_OUT_STAT
  , ⟨0x0014, 0, 1, 0, 1, false, [fAc .rw 31 31 8 false false, fRo 30 30, fRo 29 29, fAc .w1c 28 28 8 true false]⟩ -- SAFE_RST
  , ⟨0x0018, 0, 1, 0, 1, false, [fAc .w1s 31 31 8 true true, fAc .w1s 30 30 8 true true, fAc .rw 29 28 8 true false]⟩ -- SAFE_SPLIT
  , ⟨0x001C, 0, 1, 0, 1, false, [fRo 31 0]⟩ -- SAFE_LOG_STAT
  , ⟨0x0020, 0, 1, 0, 1, false, [fRo 31 0]⟩ -- SAFE_PSET_CRC
  , ⟨0x0024, 0, 1, 0, 1, false, [fRo 31 24, fRo 23 16]⟩ -- SAFE_PW_STAT
  , ⟨0x0030, 0, 1, 0, 1, false, [fAc .rw 31 31 8 false false, fAc .rw 29 24 8 false false, fAc .rw 23 16 8 false false]⟩ -- SAFE_STO_CFG
  , ⟨0x0040, 4, 4, 0, 1, false, [fRo 31 29, fRo 28 13]⟩ -- SAFE_PAIR
  , ⟨0x0080, 4, 8, 0, 1, false, [fAc .rw 31 31 8 false false, fAc .rw 30 30 8 false false, fAc .rw 29 25 8 false false, fAc .rw 24 16 8 false false, fAc .rw 15 13 8 false false, fAc .rw 12 9 8 false false]⟩ -- SAFE_SIN_CFG
  , ⟨0x00C0, 4, 4, 0, 1, false, [fAc .rw 31 31 8 false false, fAc .rw 30 30 8 false false, fAc .rw 29 24 8 false false, fAc .rw 23 16 8 false false, fAc .rw 15 14 8 false false, fAc .rw 13 12 8 false false]⟩ -- SAFE_SOUT_CFG
  , ⟨0x0100, 16, 4, 0, 1, false, [fAc .rw 31 31 8 false false, fAc .rw 30 30 8 false false, fAc .rw 29 28 8 false false, fAc .rw 27 25 8 false false, fAc .rw 24 24 8 false false, fAc .rw 23 19 8 false false, fAc .rw 18 17 8 false false, fAc .rw 16 16 8 false false]⟩ -- SAFE_AX_CFG
  , ⟨0x0104, 16, 4, 0, 1, false, [fAc .rw 31 29 8 false false, fAc .rw 28 26 8 false false, fAc .rw 25 18 8 false false, fAc .rw 17 10 8 false false]⟩ -- SAFE_AX_POS
  , ⟨0x0108, 16, 4, 0, 1, false, [fRo 31 30, fRo 29 22, fRo 21 16, fRo 15 0]⟩ -- SAFE_AX_STAT
  ]

/-- The registers of block NET. -/
def regsNet : List RegDef :=
  [ ⟨0x0000, 0, 1, 0, 1, false, [fAc .rw 31 31 4 true false, fAc .rw 30 30 4 true false]⟩ -- NET_CTL
  , ⟨0x0004, 0, 1, 0, 1, false, [fRo 31 30, fRo 29 29, fRo 28 28, fRo 27 27, fRo 26 24, fRo 23 21, fRo 20 13]⟩ -- NET_STAT
  , ⟨0x0008, 0, 1, 0, 1, false, [fAc .rw 17 0 4 true false]⟩ -- NET_NODE
  , ⟨0x000C, 0, 1, 0, 1, false, [fRo 31 16, fAc .w1c 0 0 4 true false]⟩ -- NET_STEP_STAT
  , ⟨0x0010, 0, 1, 0, 1, false, [fRo 31 0]⟩ -- NET_NTIME_LO
  , ⟨0x0014, 0, 1, 0, 1, false, [fRo 31 0]⟩ -- NET_NTIME_HI
  , ⟨0x0018, 0, 1, 0, 1, false, [fRo 31 0]⟩ -- NET_OFFSET
  , ⟨0x001C, 0, 1, 0, 1, false, [fRo 31 0]⟩ -- NET_FREQ
  , ⟨0x0020, 0, 1, 0, 1, false, [fAc .rw 31 0 4 true false]⟩ -- NET_TIME_SET_LO
  , ⟨0x0024, 0, 1, 0, 1, false, [fAc .rw 31 0 4 true false]⟩ -- NET_TIME_SET_HI
  , ⟨0x0028, 0, 1, 0, 1, false, [fAc .w1s 31 31 4 true true]⟩ -- NET_TIME_CMD
  , ⟨0x0040, 0, 1, 0, 1, false, [fAc .rw 31 24 4 true false, fAc .rw 23 23 4 true false, fAc .rw 22 22 4 true false, fAc .rw 21 21 4 true false, fAc .rw 20 20 4 true false, fAc .rw 19 19 4 true false, fAc .rw 18 18 4 true false, fAc .rw 17 14 4 true false, fAc .rw 13 10 4 true false, fAc .rw 9 7 4 true false, fAc .rw 6 6 4 true false, fAc .rw 5 2 4 true false]⟩ -- NET_PTP_CFG
  , ⟨0x0044, 0, 1, 0, 1, false, [fAc .rw 31 24 4 true false, fAc .rw 23 16 4 true false, fAc .rw 15 8 4 true false]⟩ -- NET_PTP_DS
  , ⟨0x0048, 0, 1, 0, 1, false, [fAc .rw 31 16 4 true false, fAc .rw 15 0 4 true false]⟩ -- NET_SERVO
  , ⟨0x004C, 0, 1, 0, 1, false, [fAc .rw 31 16 4 true false, fAc .rw 15 0 4 true false]⟩ -- NET_SERVO_LIM
  , ⟨0x0050, 0, 1, 0, 1, false, [fAc .rw 31 20 4 true false, fAc .rw 19 10 4 true false]⟩ -- NET_WAKE_CFG
  , ⟨0x0054, 0, 1, 0, 1, false, [fRo 31 31, fRo 30 30, fRo 15 0]⟩ -- NET_WAKE_STAT
  , ⟨0x0100, 32, 2, 0, 1, false, [fAc .rw 31 31 4 true false, fAc .rw 30 29 4 true false, fAc .rw 28 28 4 true false, fAc .rw 27 27 4 true false, fAc .rw 26 26 4 true false, fAc .rw 25 25 4 true false, fAc .rw 24 23 4 true false, fAc .rw 22 11 4 true false, fAc .rw 10 3 4 true false]⟩ -- NET_PORT_CFG
  , ⟨0x0104, 32, 2, 0, 1, false, [fAc .rw 31 0 4 true false]⟩ -- NET_PORT_MAC_LO
  , ⟨0x0108, 32, 2, 0, 1, false, [fAc .rw 15 0 4 true false]⟩ -- NET_PORT_MAC_HI
  , ⟨0x010C, 32, 2, 0, 1, false, [fAc .rw 31 16 4 true false, fAc .rw 15 0 4 true false]⟩ -- NET_PORT_LAT
  , ⟨0x0110, 32, 2, 0, 1, false, [fAc .rw 15 0 4 true false]⟩ -- NET_PORT_ASYM
  , ⟨0x0114, 32, 2, 0, 1, false, [fRo 31 0]⟩ -- NET_PORT_DELAY
  , ⟨0x0118, 32, 2, 0, 1, false, [fRo 31 31, fRo 30 28, fRo 27 26, fRo 25 25, fAc .w1c 24 24 4 true false, fAc .w1c 23 23 4 true false]⟩ -- NET_PORT_STAT
  , ⟨0x011C, 32, 2, 0, 1, false, [fRo 31 16, fRo 15 0]⟩ -- NET_PORT_CNT
  , ⟨0x0200, 8, 16, 0, 1, false, [fAc .rw 31 31 4 true false, fAc .rw 30 28 4 true false, fAc .rw 27 23 4 true false, fAc .rw 22 19 4 true false, fAc .rw 18 7 4 true false]⟩ -- NET_LQ_CFG
  , ⟨0x0204, 8, 16, 0, 1, false, [fRo 31 26, fAc .w1c 25 25 4 true false, fAc .w1c 24 24 4 true false, fRo 15 0]⟩ -- NET_LQ_STAT
  , ⟨0x0300, 8, 16, 0, 1, false, [fAc .rw 31 31 4 true false, fAc .rw 30 29 4 true false, fAc .rw 28 28 4 true false, fAc .rw 27 16 4 true false, fAc .rw 15 0 4 true false]⟩ -- NET_RXF
  , ⟨0x0304, 8, 16, 0, 1, false, [fAc .rw 31 27 4 true false, fAc .rw 26 23 4 true false]⟩ -- NET_RXF_DST
  ]

/-- The registers of block CAN. -/
def regsCan : List RegDef :=
  [ ⟨0x0000, 0, 1, 0, 1, false, [fAc .rw 31 31 2 false false, fRo 3 0]⟩ -- CAN_CTL
  , ⟨0x0100, 64, 4, 0, 1, false, [fAc .rw 31 31 6 false false, fAc .rw 30 30 2 false false, fAc .rw 29 29 6 false false, fAc .rw 28 28 6 false false, fAc .rw 27 27 6 false false, fAc .rw 26 26 6 false false]⟩ -- CAN_CFG
  , ⟨0x0104, 64, 4, 0, 1, false, [fAc .rw 31 27 6 false false, fAc .rw 26 19 6 false false, fAc .rw 18 12 6 false false, fAc .rw 11 5 6 false false]⟩ -- CAN_NBT
  , ⟨0x0108, 64, 4, 0, 1, false, [fAc .rw 31 27 6 false false, fAc .rw 26 22 6 false false, fAc .rw 21 18 6 false false, fAc .rw 17 14 6 false false]⟩ -- CAN_DBT
  , ⟨0x010C, 64, 4, 0, 1, false, [fAc .rw 31 31 6 false false, fAc .rw 30 24 6 false false, fRo 15 8]⟩ -- CAN_TDC
  , ⟨0x0110, 64, 4, 0, 1, false, [fAc .rw 31 31 6 true true, fAc .rw 30 30 6 false false, fAc .rw 29 29 6 false false, fRo 28 28, fAc .rw 23 0 6 false false]⟩ -- CAN_REF_CFG
  , ⟨0x0114, 64, 4, 0, 1, false, [fAc .rw 31 31 6 false false, fAc .rw 28 0 6 false false]⟩ -- CAN_REF_ID
  , ⟨0x0118, 64, 4, 0, 1, false, [fAc .rw 31 0 6 false false]⟩ -- CAN_REF_PH
  , ⟨0x011C, 64, 4, 0, 1, false, [fAc .w1s 31 31 6 true true]⟩ -- CAN_CMD
  , ⟨0x0120, 64, 4, 0, 1, false, [fRo 31 30, fRo 29 29, fAc .w1c 28 28 6 true false, fAc .w1c 27 27 6 true false, fAc .w1c 26 26 6 true false, fAc .w1c 25 25 6 true false, fAc .w1c 24 24 6 true false]⟩ -- CAN_STAT
  , ⟨0x0124, 64, 4, 0, 1, false, [fRo 31 24, fRo 23 16, fRo 15 13, fRo 12 10]⟩ -- CAN_ERR
  , ⟨0x0128, 64, 4, 0, 1, false, [fRo 31 16, fRo 15 0]⟩ -- CAN_CNT
  , ⟨0x1000, 16, 256, 0, 1, false, [fAc .rw 31 31 6 true true, fAc .rw 30 30 6 false false, fAc .rw 29 27 2 false false, fAc .rw 26 22 6 false false, fAc .rw 21 18 6 false false, fAc .rw 17 17 6 false false, fAc .rw 16 16 6 false false, fAc .rw 15 15 6 false false, fAc .rw 14 10 6 false false, fAc .rw 9 6 6 false false]⟩ -- CAN_OBJ_CFG
  , ⟨0x1004, 16, 256, 0, 1, false, [fAc .rw 31 31 6 false false, fAc .rw 28 0 6 false false]⟩ -- CAN_OBJ_ID
  , ⟨0x1008, 16, 256, 0, 1, false, [fAc .rw 28 0 6 false false]⟩ -- CAN_OBJ_MASK
  , ⟨0x100C, 16, 256, 0, 1, false, [fRo 31 31, fRo 30 30, fAc .w1c 29 29 6 true false, fRo 28 26, fRo 25 21, fRo 20 16, fRo 15 0]⟩ -- CAN_OBJ_STAT
  ]

/-- The registers of block CLK. -/
def regsClk : List RegDef :=
  [ ⟨0x0000, 0, 1, 0, 1, false, [fAc .rw 31 31 2 false false, fAc .rw 30 30 2 false false, fAc .rw 29 29 2 false false, fAc .rw 28 22 2 false false]⟩ -- CLK_CTL
  , ⟨0x0004, 0, 1, 0, 1, false, [fRo 31 31, fRo 30 30, fRo 29 29, fRo 28 28, fRo 27 27]⟩ -- CLK_STAT
  , ⟨0x0008, 0, 1, 0, 1, false, [fRo 31 31, fRo 30 30, fAc .w1c 29 29 2 true false, fRo 28 26]⟩ -- CLK_SYNC_STAT
  , ⟨0x0010, 16, 3, 0, 1, false, [fAc .rw 31 29 2 false false, fAc .rw 28 26 2 false false]⟩ -- CLK_PLL_CFG
  , ⟨0x0014, 16, 3, 0, 1, false, [fRo 31 30, fRo 29 27, fRo 26 26, fAc .w1c 25 25 2 true false, fAc .w1c 24 24 2 true false]⟩ -- CLK_PLL_STAT
  , ⟨0x0018, 16, 3, 0, 1, false, [fRo 31 24, fRo 23 0]⟩ -- CLK_PLL_DIV
  , ⟨0x001C, 16, 3, 0, 1, false, [fRo 31 16, fRo 15 0]⟩ -- CLK_PLL_CNT
  , ⟨0x0100, 64, 3, 8, 8, false, [fAc .rw 31 31 2 false false, fAc .rw 30 30 2 false false, fAc .rw 29 22 2 false false, fRo 21 16]⟩ -- CLK_SLOT_A
  , ⟨0x0104, 64, 3, 8, 8, false, [fAc .rw 23 0 2 false false]⟩ -- CLK_SLOT_F
  , ⟨0x0200, 4, 24, 0, 1, false, [fRo 31 22, fRo 19 0]⟩ -- CLK_POD
  , ⟨0x0280, 0, 1, 0, 1, false, [fAc .w1s 31 31 2 true true, fAc .rw 30 26 2 true false, fAc .rw 25 16 2 true false]⟩ -- CLK_POD_REQ
  , ⟨0x0284, 0, 1, 0, 1, false, [fRo 31 31, fRo 30 28, fAc .w1c 27 27 2 true false]⟩ -- CLK_POD_REQ_STAT
  ]

/-- The registers of block REL. -/
def regsRel : List RegDef :=
  [ ⟨0x0000, 0, 1, 0, 1, false, [fAc .rw 31 31 2 false false, fAc .rw 30 30 2 false false, fAc .rw 29 29 2 false false, fAc .rw 28 28 2 false false, fAc .rw 27 18 2 false false, fAc .rw 17 6 2 false false]⟩ -- REL_CTL
  , ⟨0x0004, 0, 1, 0, 1, false, [fAc .rw 31 24 2 false false, fAc .rw 23 16 2 false false, fAc .rw 15 8 2 false false]⟩ -- REL_THR
  , ⟨0x0008, 0, 1, 0, 1, false, [fRo 31 31, fRo 30 30, fRo 23 16, fRo 15 8, fAc .w1c 7 7 2 true false, fAc .w1c 6 6 2 true false, fAc .w1c 5 5 2 true false, fAc .w1c 4 4 2 true false, fAc .w1c 3 3 2 true false]⟩ -- REL_STAT
  , ⟨0x0010, 0, 1, 0, 1, false, [fRo 31 0]⟩ -- REL_CE_CNT
  , ⟨0x0014, 0, 1, 0, 1, false, [fRo 31 0]⟩ -- REL_UE_CNT
  , ⟨0x0018, 0, 1, 0, 1, false, [fRo 31 31, fRo 30 28, fRo 27 23, fRo 22 19, fRo 18 0]⟩ -- REL_LAST_ERR
  , ⟨0x0020, 0, 1, 0, 1, false, [fRo 31 30, fRo 29 25, fRo 24 21, fRo 15 0]⟩ -- REL_BIST
  , ⟨0x0030, 0, 1, 0, 1, false, [fRo 31 0]⟩ -- REL_LIFE
  , ⟨0x0034, 0, 1, 0, 1, false, [fRo 31 16, fRo 15 0]⟩ -- REL_TJ
  , ⟨0x0040, 0, 1, 0, 1, false, [fAc .w1s 31 31 2 true true, fAc .rw 30 26 2 true false, fAc .rw 25 22 2 true false, fRo 21 19, fAc .w1c 18 18 2 true false]⟩ -- REL_CMD
  , ⟨0x0100, 4, 24, 0, 1, false, [fRo 31 31, fRo 30 26, fRo 25 11, fRo 10 0]⟩ -- REL_POD
  , ⟨0x0200, 4, 24, 0, 1, false, [fRo 31 20, fRo 19 19, fRo 18 18]⟩ -- REL_AGE
  , ⟨0x0400, 4, 148, 0, 1, false, [fRo 31 30, fRo 29 28, fRo 27 19, fRo 18 10, fRo 9 0]⟩ -- REL_LINK
  ]

/-- The registers of block PWR. -/
def regsPwr : List RegDef :=
  [ ⟨0x0000, 0, 1, 0, 1, false, [fRo 31 31, fRo 30 28]⟩ -- PWR_STAT
  , ⟨0x0004, 0, 1, 0, 1, false, [fRo 31 31, fRo 30 30, fRo 29 29, fRo 28 28, fRo 27 20]⟩ -- PWR_RST_CAUSE
  , ⟨0x0008, 0, 1, 0, 1, false, [fRo 7 0]⟩ -- PWR_SUP_STAT
  , ⟨0x000C, 0, 1, 0, 1, false, [fAc .w1s 31 31 2 true true, fAc .wo 15 0 2 true true]⟩ -- PWR_RST_CMD
  , ⟨0x0010, 0, 1, 0, 1, false, [fAc .rw 31 31 4 true true, fAc .rw 30 30 4 true true, fAc .rw 29 26 4 true true, fAc .rw 25 21 4 true true, fAc .rw 20 18 4 true true, fAc .rw 17 15 4 true true, fAc .rw 14 0 4 true true]⟩ -- PWR_TOK_CFG
  , ⟨0x0014, 0, 1, 0, 1, false, [fRo 31 27, fRo 26 17, fRo 16 16, fRo 15 0]⟩ -- PWR_TOK_STAT
  , ⟨0x0018, 0, 1, 0, 1, false, [fRo 31 22]⟩ -- PWR_TOK_LAST
  ]

/-- The registers of block AUX. -/
def regsAux : List RegDef :=
  [ ⟨0x0800, 16, 4, 0, 1, false, [fAc .rw 31 31 2 false false, fAc .rw 30 30 2 false false, fAc .rw 29 28 2 false false, fAc .rw 27 24 2 false false, fAc .rw 23 17 2 false false, fAc .rw 16 9 2 false false, fAc .rw 8 5 2 false false]⟩ -- AUX_BC_CFG
  , ⟨0x0804, 16, 4, 0, 1, false, [fAc .rw 31 24 2 false false, fAc .rw 23 16 2 false false, fAc .rw 15 8 2 false false, fAc .rw 7 0 2 false false]⟩ -- AUX_BC_START
  , ⟨0x0808, 16, 4, 0, 1, false, [fAc .rw 31 20 2 false false, fAc .rw 19 8 2 false false, fAc .rw 7 4 2 false false]⟩ -- AUX_BC_RUN
  , ⟨0x080C, 16, 4, 0, 1, false, [fRo 31 30, fAc .w1c 29 29 2 true false, fAc .w1c 28 28 2 true false, fRo 27 24, fRo 23 0]⟩ -- AUX_BC_STAT
  , ⟨0x0880, 0, 1, 0, 1, false, [fAc .rw 31 31 2 false false, fAc .rw 30 29 2 false false, fAc .rw 28 28 2 false false, fAc .rw 27 20 2 false false, fAc .rw 19 19 2 false false, fAc .rw 18 11 2 false false, fAc .rw 10 7 2 false false, fAc .rw 6 0 2 false false]⟩ -- AUX_CMD_CFG
  , ⟨0x0884, 0, 1, 0, 1, false, [fAc .rw 31 15 2 false false]⟩ -- AUX_CMD_SCALE
  , ⟨0x0888, 0, 1, 0, 1, false, [fAc .w1c 2 2 2 true false, fAc .w1c 1 1 2 true false, fAc .w1c 0 0 2 true false]⟩ -- AUX_CMD_STAT
  , ⟨0x0000, 0, 1, 0, 1, false, [fAc .rw 31 31 2 false false, fAc .w1c 1 1 2 true false, fRo 0 0]⟩ -- AUX_CTL
  , ⟨0x0004, 0, 1, 0, 1, false, [fRo 11 8, fRo 7 4, fRo 3 0]⟩ -- AUX_STAT
  , ⟨0x0100, 32, 4, 0, 1, false, [fAc .rw 31 31 2 false false, fAc .rw 30 30 2 false false, fAc .rw 29 21 2 false false, fAc .rw 20 9 2 false false]⟩ -- AUX_BR_CFG
  , ⟨0x0104, 32, 4, 0, 1, false, [fAc .rw 31 16 2 false false, fAc .rw 12 0 2 false false]⟩ -- AUX_BR_TOP
  , ⟨0x0108, 32, 4, 0, 1, false, [fAc .rw 31 0 2 false false]⟩ -- AUX_BR_PH_LO
  , ⟨0x010C, 32, 4, 0, 1, false, [fAc .rw 31 0 2 false false]⟩ -- AUX_BR_PH_HI
  , ⟨0x0110, 32, 4, 0, 1, false, [fAc .rw 31 18 2 false false, fAc .rw 11 0 2 false false]⟩ -- AUX_BR_DT
  , ⟨0x0114, 32, 4, 0, 1, false, [fAc .rw 31 27 2 false false, fAc .rw 26 24 2 false false, fAc .rw 23 21 2 false false, fAc .rw 20 18 2 false false]⟩ -- AUX_BR_VDS
  , ⟨0x0118, 32, 4, 0, 1, false, [fRo 31 31, fAc .w1c 30 25 2 true false, fAc .w1c 24 22 2 true false, fRo 21 19, fAc .w1c 18 18 2 true false, fAc .w1c 17 17 2 true false, fAc .w1c 16 16 2 true false, fAc .w1c 15 15 2 true false, fAc .w1c 14 14 2 true false, fAc .w1c 13 13 2 true false, fRo 5 0]⟩ -- AUX_BR_STAT
  , ⟨0x011C, 32, 4, 0, 1, false, [fRo 31 16, fRo 15 0]⟩ -- AUX_BR_CNT
  , ⟨0x0200, 32, 4, 0, 1, false, [fRo 31 24, fRo 23 23, fRo 17 0]⟩ -- AUX_BR_UPD
  , ⟨0x0204, 32, 4, 4, 6, false, [fRo 31 0]⟩ -- AUX_AGE
  ]

/-- The registers of a block. -/
def regsOf : Blk → List RegDef
  | .sys => regsSys
  | .husk => regsHusk
  | .cfg => regsCfg
  | .hostq => regsHostq
  | .meas => regsMeas
  | .pos => regsPos
  | .loop => regsLoop
  | .pwm => regsPwm
  | .trip => regsTrip
  | .safe => regsSafe
  | .net => regsNet
  | .can => regsCan
  | .clk => regsClk
  | .rel => regsRel
  | .pwr => regsPwr
  | .aux => regsAux

end Sys2Proof.Machine
end

