-- ==== Sys2Proof/Machine/RegNames.lean ====
section
/-! DEFINITION. Names for the register words (`W.<register>`) and fields (`R.<register>_<field>`) of the register tables,
and the non-zero reset words. -/
namespace Sys2Proof.Machine

-- MEAS_CTL, Table 2.6
def W.MEAS_CTL : FRef := ⟨.meas, 0x0, 0, 0, 31, 0⟩
def R.MEAS_CTL_EN : FRef := ⟨.meas, 0x0, 0, 0, 31, 31⟩
def R.MEAS_CTL_CAL_DONE : FRef := ⟨.meas, 0x0, 0, 0, 0, 0⟩
-- MEAS_STAT, Table 2.7
def W.MEAS_STAT : FRef := ⟨.meas, 0x4, 0, 0, 31, 0⟩
def R.MEAS_STAT_OVR_ANY : FRef := ⟨.meas, 0x4, 0, 0, 4, 4⟩
def R.MEAS_STAT_STUCK_ANY : FRef := ⟨.meas, 0x4, 0, 0, 3, 3⟩
def R.MEAS_STAT_PAIR_ANY : FRef := ⟨.meas, 0x4, 0, 0, 2, 2⟩
def R.MEAS_STAT_VOID_ANY : FRef := ⟨.meas, 0x4, 0, 0, 1, 1⟩
def R.MEAS_STAT_RAIL_ANY : FRef := ⟨.meas, 0x4, 0, 0, 0, 0⟩
-- MEAS_SEQ_CTL, Table 2.8
def W.MEAS_SEQ_CTL : FRef := ⟨.meas, 0x100, 4, 0, 31, 0⟩
def R.MEAS_SEQ_CTL_EN : FRef := ⟨.meas, 0x100, 4, 0, 31, 31⟩
def R.MEAS_SEQ_CTL_MODE : FRef := ⟨.meas, 0x100, 4, 0, 30, 30⟩
def R.MEAS_SEQ_CTL_SEQ_LEN : FRef := ⟨.meas, 0x100, 4, 0, 29, 26⟩
def R.MEAS_SEQ_CTL_INJ_LEN : FRef := ⟨.meas, 0x100, 4, 0, 25, 24⟩
def R.MEAS_SEQ_CTL_INJ_TRIG : FRef := ⟨.meas, 0x100, 4, 0, 23, 22⟩
def R.MEAS_SEQ_CTL_INJ_SLOT : FRef := ⟨.meas, 0x100, 4, 0, 21, 17⟩
def R.MEAS_SEQ_CTL_INJ_EDGE : FRef := ⟨.meas, 0x100, 4, 0, 16, 15⟩
def R.MEAS_SEQ_CTL_INJ_NTEV : FRef := ⟨.meas, 0x100, 4, 0, 14, 12⟩
def R.MEAS_SEQ_CTL_RESTART_EN : FRef := ⟨.meas, 0x100, 4, 0, 11, 11⟩
def R.MEAS_SEQ_CTL_RST_SLOT : FRef := ⟨.meas, 0x100, 4, 0, 10, 6⟩
def R.MEAS_SEQ_CTL_RST_EDGE : FRef := ⟨.meas, 0x100, 4, 0, 5, 4⟩
-- MEAS_NTEV_PER, Table 2.10
def W.MEAS_NTEV_PER : FRef := ⟨.meas, 0x200, 16, 0, 31, 0⟩
def R.MEAS_NTEV_PER_PERIOD : FRef := ⟨.meas, 0x200, 16, 0, 31, 0⟩
-- MEAS_NTEV_PH_LO, Table 2.10
def W.MEAS_NTEV_PH_LO : FRef := ⟨.meas, 0x204, 16, 0, 31, 0⟩
def R.MEAS_NTEV_PH_LO_PHASE_LO : FRef := ⟨.meas, 0x204, 16, 0, 31, 0⟩
-- MEAS_NTEV_PH_HI, Table 2.10
def W.MEAS_NTEV_PH_HI : FRef := ⟨.meas, 0x208, 16, 0, 31, 0⟩
def R.MEAS_NTEV_PH_HI_PHASE_HI : FRef := ⟨.meas, 0x208, 16, 0, 31, 0⟩
-- MEAS_SDCK_CFG, Table 2.11
def W.MEAS_SDCK_CFG : FRef := ⟨.meas, 0x300, 4, 0, 31, 0⟩
def R.MEAS_SDCK_CFG_EN : FRef := ⟨.meas, 0x300, 4, 0, 31, 31⟩
def R.MEAS_SDCK_CFG_DIV : FRef := ⟨.meas, 0x300, 4, 0, 6, 0⟩
-- MEAS_SD_CFG, Table 2.12
def W.MEAS_SD_CFG : FRef := ⟨.meas, 0x400, 8, 0, 31, 0⟩
def R.MEAS_SD_CFG_EN : FRef := ⟨.meas, 0x400, 8, 0, 31, 31⟩
def R.MEAS_SD_CFG_CKSEL : FRef := ⟨.meas, 0x400, 8, 0, 30, 28⟩
def R.MEAS_SD_CFG_OSR : FRef := ⟨.meas, 0x400, 8, 0, 27, 20⟩
def R.MEAS_SD_CFG_SHIFT : FRef := ⟨.meas, 0x400, 8, 0, 19, 16⟩
def R.MEAS_SD_CFG_SAMP_DLY : FRef := ⟨.meas, 0x400, 8, 0, 15, 12⟩
def R.MEAS_SD_CFG_PROT_OSR : FRef := ⟨.meas, 0x400, 8, 0, 11, 10⟩
-- MEAS_SD_RT, Table 2.13
def W.MEAS_SD_RT : FRef := ⟨.meas, 0x404, 8, 0, 31, 0⟩
def R.MEAS_SD_RT_ACC_EN : FRef := ⟨.meas, 0x404, 8, 0, 31, 31⟩
def R.MEAS_SD_RT_ACC : FRef := ⟨.meas, 0x404, 8, 0, 30, 23⟩
def R.MEAS_SD_RT_MMT_EN : FRef := ⟨.meas, 0x404, 8, 0, 22, 22⟩
def R.MEAS_SD_RT_MMT : FRef := ⟨.meas, 0x404, 8, 0, 21, 14⟩
def R.MEAS_SD_RT_PMMT_EN : FRef := ⟨.meas, 0x404, 8, 0, 13, 13⟩
def R.MEAS_SD_RT_PMMT : FRef := ⟨.meas, 0x404, 8, 0, 12, 5⟩
-- MEAS_SEQ_ENT, Table 2.9
def W.MEAS_SEQ_ENT : FRef := ⟨.meas, 0x1000, 64, 4, 31, 0⟩
def R.MEAS_SEQ_ENT_ACC_EN : FRef := ⟨.meas, 0x1000, 64, 4, 31, 31⟩
def R.MEAS_SEQ_ENT_ACC : FRef := ⟨.meas, 0x1000, 64, 4, 30, 23⟩
def R.MEAS_SEQ_ENT_MMT_EN : FRef := ⟨.meas, 0x1000, 64, 4, 22, 22⟩
def R.MEAS_SEQ_ENT_MMT : FRef := ⟨.meas, 0x1000, 64, 4, 21, 14⟩
def R.MEAS_SEQ_ENT_ACQ : FRef := ⟨.meas, 0x1000, 64, 4, 13, 6⟩
def R.MEAS_SEQ_ENT_GAIN : FRef := ⟨.meas, 0x1000, 64, 4, 5, 4⟩
def R.MEAS_SEQ_ENT_INPUT : FRef := ⟨.meas, 0x1000, 64, 4, 1, 0⟩
-- MEAS_ACC_CFG, Table 2.14
def W.MEAS_ACC_CFG : FRef := ⟨.meas, 0x2000, 16, 0, 31, 0⟩
def R.MEAS_ACC_CFG_EN : FRef := ⟨.meas, 0x2000, 16, 0, 31, 31⟩
def R.MEAS_ACC_CFG_MODE : FRef := ⟨.meas, 0x2000, 16, 0, 30, 30⟩
def R.MEAS_ACC_CFG_SIGN_SRC : FRef := ⟨.meas, 0x2000, 16, 0, 29, 28⟩
def R.MEAS_ACC_CFG_SIGN_IDX : FRef := ⟨.meas, 0x2000, 16, 0, 27, 23⟩
def R.MEAS_ACC_CFG_SIGN_DLY : FRef := ⟨.meas, 0x2000, 16, 0, 22, 11⟩
def R.MEAS_ACC_CFG_SAFE : FRef := ⟨.meas, 0x2000, 16, 0, 10, 10⟩
-- MEAS_ACC_CLOSE, Table 2.15
def W.MEAS_ACC_CLOSE : FRef := ⟨.meas, 0x2004, 16, 0, 31, 0⟩
def R.MEAS_ACC_CLOSE_SRC : FRef := ⟨.meas, 0x2004, 16, 0, 31, 30⟩
def R.MEAS_ACC_CLOSE_ARG : FRef := ⟨.meas, 0x2004, 16, 0, 23, 0⟩
-- MEAS_ACC_DST0, Table 2.16
def W.MEAS_ACC_DST0 : FRef := ⟨.meas, 0x2008, 16, 0, 31, 0⟩
def R.MEAS_ACC_DST0_EN : FRef := ⟨.meas, 0x2008, 16, 0, 31, 31⟩
def R.MEAS_ACC_DST0_ROUTER : FRef := ⟨.meas, 0x2008, 16, 0, 19, 15⟩
def R.MEAS_ACC_DST0_MASK : FRef := ⟨.meas, 0x2008, 16, 0, 14, 0⟩
-- MEAS_ACC_DST1, Table 2.16
def W.MEAS_ACC_DST1 : FRef := ⟨.meas, 0x200C, 16, 0, 31, 0⟩
def R.MEAS_ACC_DST1_EN : FRef := ⟨.meas, 0x200C, 16, 0, 31, 31⟩
def R.MEAS_ACC_DST1_ROUTER : FRef := ⟨.meas, 0x200C, 16, 0, 19, 15⟩
def R.MEAS_ACC_DST1_MASK : FRef := ⟨.meas, 0x200C, 16, 0, 14, 0⟩
-- MEAS_MMT_CFG, Table 2.17
def W.MEAS_MMT_CFG : FRef := ⟨.meas, 0x3000, 16, 0, 31, 0⟩
def R.MEAS_MMT_CFG_EN : FRef := ⟨.meas, 0x3000, 16, 0, 31, 31⟩
def R.MEAS_MMT_CFG_HI_EN : FRef := ⟨.meas, 0x3000, 16, 0, 30, 30⟩
def R.MEAS_MMT_CFG_LO_EN : FRef := ⟨.meas, 0x3000, 16, 0, 29, 29⟩
def R.MEAS_MMT_CFG_DEBOUNCE : FRef := ⟨.meas, 0x3000, 16, 0, 28, 26⟩
def R.MEAS_MMT_CFG_HYST : FRef := ⟨.meas, 0x3000, 16, 0, 25, 18⟩
-- MEAS_MMT_CLOSE, Table 2.15
def W.MEAS_MMT_CLOSE : FRef := ⟨.meas, 0x3004, 16, 0, 31, 0⟩
def R.MEAS_MMT_CLOSE_SRC : FRef := ⟨.meas, 0x3004, 16, 0, 31, 30⟩
def R.MEAS_MMT_CLOSE_ARG : FRef := ⟨.meas, 0x3004, 16, 0, 23, 0⟩
-- MEAS_MMT_THR, Table 2.17
def W.MEAS_MMT_THR : FRef := ⟨.meas, 0x3008, 16, 0, 31, 0⟩
def R.MEAS_MMT_THR_UPPER : FRef := ⟨.meas, 0x3008, 16, 0, 31, 16⟩
def R.MEAS_MMT_THR_LOWER : FRef := ⟨.meas, 0x3008, 16, 0, 15, 0⟩
-- MEAS_MMT_DST, Table 2.16
def W.MEAS_MMT_DST : FRef := ⟨.meas, 0x300C, 16, 0, 31, 0⟩
def R.MEAS_MMT_DST_EN : FRef := ⟨.meas, 0x300C, 16, 0, 31, 31⟩
def R.MEAS_MMT_DST_ROUTER : FRef := ⟨.meas, 0x300C, 16, 0, 19, 15⟩
def R.MEAS_MMT_DST_MASK : FRef := ⟨.meas, 0x300C, 16, 0, 14, 0⟩
-- MEAS_PAIR_CFG, Table 2.18
def W.MEAS_PAIR_CFG : FRef := ⟨.meas, 0x4000, 8, 0, 31, 0⟩
def R.MEAS_PAIR_CFG_EN : FRef := ⟨.meas, 0x4000, 8, 0, 31, 31⟩
def R.MEAS_PAIR_CFG_ACC_B : FRef := ⟨.meas, 0x4000, 8, 0, 15, 8⟩
def R.MEAS_PAIR_CFG_ACC_A : FRef := ⟨.meas, 0x4000, 8, 0, 7, 0⟩
-- MEAS_PAIR_LIM, Table 2.18
def W.MEAS_PAIR_LIM : FRef := ⟨.meas, 0x4004, 8, 0, 31, 0⟩
def R.MEAS_PAIR_LIM_N : FRef := ⟨.meas, 0x4004, 8, 0, 31, 28⟩
def R.MEAS_PAIR_LIM_LIM : FRef := ⟨.meas, 0x4004, 8, 0, 15, 0⟩
-- MEAS_ACC_VOID, Table 2.19
def W.MEAS_ACC_VOID : FRef := ⟨.meas, 0x5000, 4, 0, 31, 0⟩
def R.MEAS_ACC_VOID_VOID : FRef := ⟨.meas, 0x5000, 4, 0, 31, 0⟩
-- MEAS_ACC_RAIL, Table 2.19
def W.MEAS_ACC_RAIL : FRef := ⟨.meas, 0x5020, 4, 0, 31, 0⟩
def R.MEAS_ACC_RAIL_RAIL : FRef := ⟨.meas, 0x5020, 4, 0, 31, 0⟩
-- MEAS_PAIR_STAT, Table 2.19
def W.MEAS_PAIR_STAT : FRef := ⟨.meas, 0x5040, 0, 0, 31, 0⟩
def R.MEAS_PAIR_STAT_FAULT : FRef := ⟨.meas, 0x5040, 0, 0, 31, 0⟩
-- MEAS_INJ_OVR, Table 2.19
def W.MEAS_INJ_OVR : FRef := ⟨.meas, 0x5044, 0, 0, 31, 0⟩
def R.MEAS_INJ_OVR_OVR : FRef := ⟨.meas, 0x5044, 0, 0, 23, 0⟩
-- MEAS_SD_STUCK0, Table 2.19
def W.MEAS_SD_STUCK0 : FRef := ⟨.meas, 0x5048, 0, 0, 31, 0⟩
def R.MEAS_SD_STUCK0_STUCK : FRef := ⟨.meas, 0x5048, 0, 0, 31, 0⟩
-- MEAS_SD_STUCK1, Table 2.19
def W.MEAS_SD_STUCK1 : FRef := ⟨.meas, 0x504C, 0, 0, 31, 0⟩
def R.MEAS_SD_STUCK1_STUCK : FRef := ⟨.meas, 0x504C, 0, 0, 15, 0⟩
-- POS_CTL, Table 3.6
def W.POS_CTL : FRef := ⟨.pos, 0x0, 0, 0, 31, 0⟩
def R.POS_CTL_EN : FRef := ⟨.pos, 0x0, 0, 0, 31, 31⟩
def R.POS_CTL_LOSS_LINE : FRef := ⟨.pos, 0x0, 0, 0, 7, 0⟩
-- POS_PI_CFG, Table 3.7
def W.POS_PI_CFG : FRef := ⟨.pos, 0x100, 64, 0, 31, 0⟩
def R.POS_PI_CFG_EN : FRef := ⟨.pos, 0x100, 64, 0, 31, 31⟩
def R.POS_PI_CFG_INC_EN : FRef := ⟨.pos, 0x100, 64, 0, 30, 30⟩
def R.POS_PI_CFG_HALL_EN : FRef := ⟨.pos, 0x100, 64, 0, 29, 29⟩
def R.POS_PI_CFG_SER : FRef := ⟨.pos, 0x100, 64, 0, 28, 27⟩
def R.POS_PI_CFG_RES_EN : FRef := ⟨.pos, 0x100, 64, 0, 26, 26⟩
def R.POS_PI_CFG_FILT : FRef := ⟨.pos, 0x100, 64, 0, 25, 22⟩
def R.POS_PI_CFG_LOSS_EN : FRef := ⟨.pos, 0x100, 64, 0, 21, 16⟩
def R.POS_PI_CFG_LOSS_N : FRef := ⟨.pos, 0x100, 64, 0, 15, 8⟩
def R.POS_PI_CFG_SAFE : FRef := ⟨.pos, 0x100, 64, 0, 0, 0⟩
-- POS_INC_CFG, Table 3.8
def W.POS_INC_CFG : FRef := ⟨.pos, 0x104, 64, 0, 31, 0⟩
def R.POS_INC_CFG_DIR_INV : FRef := ⟨.pos, 0x104, 64, 0, 31, 31⟩
def R.POS_INC_CFG_Z_EN : FRef := ⟨.pos, 0x104, 64, 0, 30, 30⟩
def R.POS_INC_CFG_Z_GATE : FRef := ⟨.pos, 0x104, 64, 0, 29, 28⟩
def R.POS_INC_CFG_LINES : FRef := ⟨.pos, 0x104, 64, 0, 15, 0⟩
-- POS_SER_CFG, Table 3.9
def W.POS_SER_CFG : FRef := ⟨.pos, 0x108, 64, 0, 31, 0⟩
def R.POS_SER_CFG_MA_DIV : FRef := ⟨.pos, 0x108, 64, 0, 31, 20⟩
def R.POS_SER_CFG_LEN : FRef := ⟨.pos, 0x108, 64, 0, 19, 14⟩
def R.POS_SER_CFG_GRAY : FRef := ⟨.pos, 0x108, 64, 0, 13, 13⟩
def R.POS_SER_CFG_PARITY : FRef := ⟨.pos, 0x108, 64, 0, 12, 12⟩
def R.POS_SER_CFG_TIMEOUT : FRef := ⟨.pos, 0x108, 64, 0, 11, 8⟩
def R.POS_SER_CFG_DLY : FRef := ⟨.pos, 0x108, 64, 0, 7, 0⟩
-- POS_RES_CFG, Table 3.10
def W.POS_RES_CFG : FRef := ⟨.pos, 0x10C, 64, 0, 31, 0⟩
def R.POS_RES_CFG_EXC_EN : FRef := ⟨.pos, 0x10C, 64, 0, 31, 31⟩
def R.POS_RES_CFG_LOCK : FRef := ⟨.pos, 0x10C, 64, 0, 30, 30⟩
def R.POS_RES_CFG_LOCK_SLOT : FRef := ⟨.pos, 0x10C, 64, 0, 29, 25⟩
def R.POS_RES_CFG_M : FRef := ⟨.pos, 0x10C, 64, 0, 24, 22⟩
def R.POS_RES_CFG_EXC_AMP : FRef := ⟨.pos, 0x10C, 64, 0, 21, 18⟩
def R.POS_RES_CFG_EXC_PER : FRef := ⟨.pos, 0x10C, 64, 0, 17, 0⟩
-- POS_RES_LIM, Table 3.11
def W.POS_RES_LIM : FRef := ⟨.pos, 0x110, 64, 0, 31, 0⟩
def R.POS_RES_LIM_AMAX : FRef := ⟨.pos, 0x110, 64, 0, 31, 16⟩
def R.POS_RES_LIM_AMIN : FRef := ⟨.pos, 0x110, 64, 0, 15, 0⟩
-- POS_RES_ACC, Table 3.11
def W.POS_RES_ACC : FRef := ⟨.pos, 0x114, 64, 0, 31, 0⟩
def R.POS_RES_ACC_ACC_COS : FRef := ⟨.pos, 0x114, 64, 0, 15, 8⟩
def R.POS_RES_ACC_ACC_SIN : FRef := ⟨.pos, 0x114, 64, 0, 7, 0⟩
-- POS_CAP, Table 3.12
def W.POS_CAP : FRef := ⟨.pos, 0x118, 64, 0, 31, 0⟩
def R.POS_CAP_SRC : FRef := ⟨.pos, 0x118, 64, 0, 31, 30⟩
def R.POS_CAP_ARG : FRef := ⟨.pos, 0x118, 64, 0, 23, 0⟩
-- POS_DST, Table 3.12
def W.POS_DST : FRef := ⟨.pos, 0x11C, 64, 0, 31, 0⟩
def R.POS_DST_EN : FRef := ⟨.pos, 0x11C, 64, 0, 31, 31⟩
def R.POS_DST_ROUTER : FRef := ⟨.pos, 0x11C, 64, 0, 19, 15⟩
def R.POS_DST_MASK : FRef := ⟨.pos, 0x11C, 64, 0, 14, 0⟩
-- POS_PI_STAT, Table 3.13
def W.POS_PI_STAT : FRef := ⟨.pos, 0x120, 64, 0, 31, 0⟩
def R.POS_PI_STAT_SER_OVERRUN : FRef := ⟨.pos, 0x120, 64, 0, 12, 12⟩
def R.POS_PI_STAT_EXC_UNLOCK : FRef := ⟨.pos, 0x120, 64, 0, 11, 11⟩
def R.POS_PI_STAT_LOSS : FRef := ⟨.pos, 0x120, 64, 0, 10, 10⟩
def R.POS_PI_STAT_QUAD_ERR : FRef := ⟨.pos, 0x120, 64, 0, 9, 9⟩
def R.POS_PI_STAT_INDEX_ERR : FRef := ⟨.pos, 0x120, 64, 0, 8, 8⟩
def R.POS_PI_STAT_HALL_ERR : FRef := ⟨.pos, 0x120, 64, 0, 7, 7⟩
def R.POS_PI_STAT_HALL_SEQ : FRef := ⟨.pos, 0x120, 64, 0, 6, 6⟩
def R.POS_PI_STAT_SER_CRC : FRef := ⟨.pos, 0x120, 64, 0, 5, 5⟩
def R.POS_PI_STAT_SER_TIMEOUT : FRef := ⟨.pos, 0x120, 64, 0, 4, 4⟩
def R.POS_PI_STAT_ENC_ERR : FRef := ⟨.pos, 0x120, 64, 0, 3, 3⟩
def R.POS_PI_STAT_ENC_WARN : FRef := ⟨.pos, 0x120, 64, 0, 2, 2⟩
def R.POS_PI_STAT_RES_AMP : FRef := ⟨.pos, 0x120, 64, 0, 1, 1⟩
def R.POS_PI_STAT_EXC_FAULT : FRef := ⟨.pos, 0x120, 64, 0, 0, 0⟩
-- POS_AS_CFG, Table 3.14
def W.POS_AS_CFG : FRef := ⟨.pos, 0x800, 32, 0, 31, 0⟩
def R.POS_AS_CFG_EN : FRef := ⟨.pos, 0x800, 32, 0, 31, 31⟩
def R.POS_AS_CFG_ENC_EN : FRef := ⟨.pos, 0x800, 32, 0, 30, 30⟩
def R.POS_AS_CFG_ENC_PI : FRef := ⟨.pos, 0x800, 32, 0, 29, 27⟩
def R.POS_AS_CFG_OBS_EN : FRef := ⟨.pos, 0x800, 32, 0, 26, 26⟩
def R.POS_AS_CFG_INJ_EN : FRef := ⟨.pos, 0x800, 32, 0, 25, 25⟩
def R.POS_AS_CFG_CTX : FRef := ⟨.pos, 0x800, 32, 0, 24, 16⟩
def R.POS_AS_CFG_N_SUP : FRef := ⟨.pos, 0x800, 32, 0, 15, 10⟩
-- POS_AS_SPD, Table 3.14
def W.POS_AS_SPD : FRef := ⟨.pos, 0x804, 32, 0, 31, 0⟩
def R.POS_AS_SPD_W_X2 : FRef := ⟨.pos, 0x804, 32, 0, 31, 16⟩
def R.POS_AS_SPD_W_X1 : FRef := ⟨.pos, 0x804, 32, 0, 15, 0⟩
-- POS_AS_SUP, Table 3.15
def W.POS_AS_SUP : FRef := ⟨.pos, 0x808, 32, 0, 31, 0⟩
def R.POS_AS_SUP_RES_LIM : FRef := ⟨.pos, 0x808, 32, 0, 31, 22⟩
def R.POS_AS_SUP_FLUX_LIM : FRef := ⟨.pos, 0x808, 32, 0, 21, 12⟩
def R.POS_AS_SUP_INJ_LIM : FRef := ⟨.pos, 0x808, 32, 0, 11, 2⟩
-- POS_AS_ENC, Table 3.15
def W.POS_AS_ENC : FRef := ⟨.pos, 0x80C, 32, 0, 31, 0⟩
def R.POS_AS_ENC_ENC_DEV_LIM : FRef := ⟨.pos, 0x80C, 32, 0, 31, 24⟩
-- POS_AS_PROBE, Table 3.16
def W.POS_AS_PROBE : FRef := ⟨.pos, 0x810, 32, 0, 31, 0⟩
def R.POS_AS_PROBE_P : FRef := ⟨.pos, 0x810, 32, 0, 31, 28⟩
def R.POS_AS_PROBE_K : FRef := ⟨.pos, 0x810, 32, 0, 27, 24⟩
def R.POS_AS_PROBE_T_ZV : FRef := ⟨.pos, 0x810, 32, 0, 23, 12⟩
def R.POS_AS_PROBE_I_DET : FRef := ⟨.pos, 0x810, 32, 0, 11, 0⟩
-- LOOP_CTL, Table 4.14
def W.LOOP_CTL : FRef := ⟨.loop, 0x0, 0, 0, 31, 0⟩
def R.LOOP_CTL_EN : FRef := ⟨.loop, 0x0, 0, 0, 31, 31⟩
-- LOOP_STAT, Table 4.14
def W.LOOP_STAT : FRef := ⟨.loop, 0x4, 0, 0, 31, 0⟩
def R.LOOP_STAT_ACTIVE : FRef := ⟨.loop, 0x4, 0, 0, 25, 16⟩
def R.LOOP_STAT_FAULTED : FRef := ⟨.loop, 0x4, 0, 0, 9, 0⟩
-- LOOP_MIG_STAT, Table 4.15
def W.LOOP_MIG_STAT : FRef := ⟨.loop, 0x8, 0, 0, 31, 0⟩
def R.LOOP_MIG_STAT_PHASE : FRef := ⟨.loop, 0x8, 0, 0, 31, 30⟩
def R.LOOP_MIG_STAT_CTX : FRef := ⟨.loop, 0x8, 0, 0, 29, 21⟩
def R.LOOP_MIG_STAT_SRC_POD : FRef := ⟨.loop, 0x8, 0, 0, 20, 16⟩
def R.LOOP_MIG_STAT_DST_POD : FRef := ⟨.loop, 0x8, 0, 0, 15, 11⟩
def R.LOOP_MIG_STAT_DONE : FRef := ⟨.loop, 0x8, 0, 0, 2, 2⟩
def R.LOOP_MIG_STAT_ABORTED : FRef := ⟨.loop, 0x8, 0, 0, 1, 1⟩
def R.LOOP_MIG_STAT_FORCED : FRef := ⟨.loop, 0x8, 0, 0, 0, 0⟩
-- LOOP_FAULT, Table 4.14
def W.LOOP_FAULT : FRef := ⟨.loop, 0x100, 4, 0, 31, 0⟩
def R.LOOP_FAULT_FAULT : FRef := ⟨.loop, 0x100, 4, 0, 31, 0⟩
-- LOOP_CTX_CFG, Table 4.16
def W.LOOP_CTX_CFG : FRef := ⟨.loop, 0x1000, 32, 0, 31, 0⟩
def R.LOOP_CTX_CFG_EN : FRef := ⟨.loop, 0x1000, 32, 0, 31, 31⟩
def R.LOOP_CTX_CFG_FAST : FRef := ⟨.loop, 0x1000, 32, 0, 30, 30⟩
def R.LOOP_CTX_CFG_KIND : FRef := ⟨.loop, 0x1000, 32, 0, 29, 27⟩
def R.LOOP_CTX_CFG_POD : FRef := ⟨.loop, 0x1000, 32, 0, 26, 22⟩
def R.LOOP_CTX_CFG_NVAR : FRef := ⟨.loop, 0x1000, 32, 0, 21, 20⟩
def R.LOOP_CTX_CFG_KMASK : FRef := ⟨.loop, 0x1000, 32, 0, 14, 0⟩
-- LOOP_CTX_TRIG, Table 4.16
def W.LOOP_CTX_TRIG : FRef := ⟨.loop, 0x1004, 32, 0, 31, 0⟩
def R.LOOP_CTX_TRIG_SRC : FRef := ⟨.loop, 0x1004, 32, 0, 31, 30⟩
def R.LOOP_CTX_TRIG_ARG : FRef := ⟨.loop, 0x1004, 32, 0, 23, 0⟩
-- LOOP_CTX_TIME, Table 4.17
def W.LOOP_CTX_TIME : FRef := ⟨.loop, 0x1008, 32, 0, 31, 0⟩
def R.LOOP_CTX_TIME_L_DLV : FRef := ⟨.loop, 0x1008, 32, 0, 31, 24⟩
def R.LOOP_CTX_TIME_T_IN : FRef := ⟨.loop, 0x1008, 32, 0, 23, 12⟩
-- LOOP_CTX_FLT, Table 4.17
def W.LOOP_CTX_FLT : FRef := ⟨.loop, 0x100C, 32, 0, 31, 0⟩
def R.LOOP_CTX_FLT_MISS_N : FRef := ⟨.loop, 0x100C, 32, 0, 31, 28⟩
def R.LOOP_CTX_FLT_OVR_N : FRef := ⟨.loop, 0x100C, 32, 0, 27, 24⟩
def R.LOOP_CTX_FLT_WD_N : FRef := ⟨.loop, 0x100C, 32, 0, 23, 16⟩
def R.LOOP_CTX_FLT_ACTION : FRef := ⟨.loop, 0x100C, 32, 0, 15, 14⟩
-- LOOP_CTX_HO, Table 4.18
def W.LOOP_CTX_HO : FRef := ⟨.loop, 0x1010, 32, 0, 31, 0⟩
def R.LOOP_CTX_HO_FB_EN : FRef := ⟨.loop, 0x1010, 32, 0, 31, 31⟩
def R.LOOP_CTX_HO_FALLBACK : FRef := ⟨.loop, 0x1010, 32, 0, 30, 22⟩
def R.LOOP_CTX_HO_N_XF : FRef := ⟨.loop, 0x1010, 32, 0, 21, 15⟩
def R.LOOP_CTX_HO_DIS_LIM : FRef := ⟨.loop, 0x1010, 32, 0, 14, 8⟩
def R.LOOP_CTX_HO_XF_RATE : FRef := ⟨.loop, 0x1010, 32, 0, 7, 0⟩
-- LOOP_CTX_SHADOW, Table 4.18
def W.LOOP_CTX_SHADOW : FRef := ⟨.loop, 0x1014, 32, 0, 31, 0⟩
def R.LOOP_CTX_SHADOW_TRACK : FRef := ⟨.loop, 0x1014, 32, 0, 31, 31⟩
def R.LOOP_CTX_SHADOW_OUTER : FRef := ⟨.loop, 0x1014, 32, 0, 30, 22⟩
def R.LOOP_CTX_SHADOW_OUTER_DIV : FRef := ⟨.loop, 0x1014, 32, 0, 21, 16⟩
-- LOOP_CTX_FE0, Table 4.18
def W.LOOP_CTX_FE0 : FRef := ⟨.loop, 0x1018, 32, 0, 31, 0⟩
def R.LOOP_CTX_FE0_EN : FRef := ⟨.loop, 0x1018, 32, 0, 31, 31⟩
def R.LOOP_CTX_FE0_REF : FRef := ⟨.loop, 0x1018, 32, 0, 30, 26⟩
def R.LOOP_CTX_FE0_MEAS : FRef := ⟨.loop, 0x1018, 32, 0, 25, 21⟩
def R.LOOP_CTX_FE0_TIME : FRef := ⟨.loop, 0x1018, 32, 0, 20, 12⟩
def R.LOOP_CTX_FE0_ACTION : FRef := ⟨.loop, 0x1018, 32, 0, 11, 10⟩
def R.LOOP_CTX_FE0_LIM_PIDX : FRef := ⟨.loop, 0x1018, 32, 0, 9, 0⟩
-- LOOP_CTX_FE1, Table 4.18
def W.LOOP_CTX_FE1 : FRef := ⟨.loop, 0x101C, 32, 0, 31, 0⟩
def R.LOOP_CTX_FE1_EN : FRef := ⟨.loop, 0x101C, 32, 0, 31, 31⟩
def R.LOOP_CTX_FE1_REF : FRef := ⟨.loop, 0x101C, 32, 0, 30, 26⟩
def R.LOOP_CTX_FE1_MEAS : FRef := ⟨.loop, 0x101C, 32, 0, 25, 21⟩
def R.LOOP_CTX_FE1_TIME : FRef := ⟨.loop, 0x101C, 32, 0, 20, 12⟩
def R.LOOP_CTX_FE1_ACTION : FRef := ⟨.loop, 0x101C, 32, 0, 11, 10⟩
def R.LOOP_CTX_FE1_LIM_PIDX : FRef := ⟨.loop, 0x101C, 32, 0, 9, 0⟩
-- LOOP_CTX_STAT, Table 4.19
def W.LOOP_CTX_STAT : FRef := ⟨.loop, 0x5000, 4, 0, 31, 0⟩
def R.LOOP_CTX_STAT_FAULT : FRef := ⟨.loop, 0x5000, 4, 0, 31, 31⟩
def R.LOOP_CTX_STAT_FE0 : FRef := ⟨.loop, 0x5000, 4, 0, 30, 30⟩
def R.LOOP_CTX_STAT_FE1 : FRef := ⟨.loop, 0x5000, 4, 0, 29, 29⟩
def R.LOOP_CTX_STAT_OVERRUN : FRef := ⟨.loop, 0x5000, 4, 0, 28, 28⟩
def R.LOOP_CTX_STAT_MISSED : FRef := ⟨.loop, 0x5000, 4, 0, 27, 27⟩
def R.LOOP_CTX_STAT_DISAGREE : FRef := ⟨.loop, 0x5000, 4, 0, 26, 26⟩
def R.LOOP_CTX_STAT_LATE_DLV : FRef := ⟨.loop, 0x5000, 4, 0, 25, 25⟩
def R.LOOP_CTX_STAT_RATE_SKIP : FRef := ⟨.loop, 0x5000, 4, 0, 24, 24⟩
def R.LOOP_CTX_STAT_STATE : FRef := ⟨.loop, 0x5000, 4, 0, 23, 22⟩
def R.LOOP_CTX_STAT_XF_LEFT : FRef := ⟨.loop, 0x5000, 4, 0, 21, 13⟩
def R.LOOP_CTX_STAT_VAR : FRef := ⟨.loop, 0x5000, 4, 0, 12, 11⟩
-- AUX_BC_CFG, Table 5.7
def W.AUX_BC_CFG : FRef := ⟨.aux, 0x800, 16, 0, 31, 0⟩
def R.AUX_BC_CFG_EN : FRef := ⟨.aux, 0x800, 16, 0, 31, 31⟩
def R.AUX_BC_CFG_DIR : FRef := ⟨.aux, 0x800, 16, 0, 30, 30⟩
def R.AUX_BC_CFG_DUTY_SRC : FRef := ⟨.aux, 0x800, 16, 0, 29, 28⟩
def R.AUX_BC_CFG_ZC_FILT : FRef := ⟨.aux, 0x800, 16, 0, 27, 24⟩
def R.AUX_BC_CFG_ADV : FRef := ⟨.aux, 0x800, 16, 0, 23, 17⟩
def R.AUX_BC_CFG_BLANK : FRef := ⟨.aux, 0x800, 16, 0, 16, 9⟩
def R.AUX_BC_CFG_N_ZC : FRef := ⟨.aux, 0x800, 16, 0, 8, 5⟩
-- AUX_BC_START, Table 5.7
def W.AUX_BC_START : FRef := ⟨.aux, 0x804, 16, 0, 31, 0⟩
def R.AUX_BC_START_D_ALIGN : FRef := ⟨.aux, 0x804, 16, 0, 31, 24⟩
def R.AUX_BC_START_T_ALIGN : FRef := ⟨.aux, 0x804, 16, 0, 23, 16⟩
def R.AUX_BC_START_D_RAMP : FRef := ⟨.aux, 0x804, 16, 0, 15, 8⟩
def R.AUX_BC_START_T_RAMP : FRef := ⟨.aux, 0x804, 16, 0, 7, 0⟩
-- AUX_BC_RUN, Table 5.8
def W.AUX_BC_RUN : FRef := ⟨.aux, 0x808, 16, 0, 31, 0⟩
def R.AUX_BC_RUN_F0 : FRef := ⟨.aux, 0x808, 16, 0, 31, 20⟩
def R.AUX_BC_RUN_F1 : FRef := ⟨.aux, 0x808, 16, 0, 19, 8⟩
def R.AUX_BC_RUN_N_RETRY : FRef := ⟨.aux, 0x808, 16, 0, 7, 4⟩
-- AUX_BC_STAT, Table 5.8
def W.AUX_BC_STAT : FRef := ⟨.aux, 0x80C, 16, 0, 31, 0⟩
def R.AUX_BC_STAT_PHASE : FRef := ⟨.aux, 0x80C, 16, 0, 31, 30⟩
def R.AUX_BC_STAT_STALL : FRef := ⟨.aux, 0x80C, 16, 0, 29, 29⟩
def R.AUX_BC_STAT_START_FAIL : FRef := ⟨.aux, 0x80C, 16, 0, 28, 28⟩
def R.AUX_BC_STAT_RETRIES : FRef := ⟨.aux, 0x80C, 16, 0, 27, 24⟩
def R.AUX_BC_STAT_INTERVAL : FRef := ⟨.aux, 0x80C, 16, 0, 23, 0⟩
-- AUX_CMD_CFG, Table 5.9
def W.AUX_CMD_CFG : FRef := ⟨.aux, 0x880, 0, 0, 31, 0⟩
def R.AUX_CMD_CFG_EN : FRef := ⟨.aux, 0x880, 0, 0, 31, 31⟩
def R.AUX_CMD_CFG_MODE : FRef := ⟨.aux, 0x880, 0, 0, 30, 29⟩
def R.AUX_CMD_CFG_ACC_EN : FRef := ⟨.aux, 0x880, 0, 0, 28, 28⟩
def R.AUX_CMD_CFG_ACC : FRef := ⟨.aux, 0x880, 0, 0, 27, 20⟩
def R.AUX_CMD_CFG_MMT_EN : FRef := ⟨.aux, 0x880, 0, 0, 19, 19⟩
def R.AUX_CMD_CFG_MMT : FRef := ⟨.aux, 0x880, 0, 0, 18, 11⟩
def R.AUX_CMD_CFG_FILT : FRef := ⟨.aux, 0x880, 0, 0, 10, 7⟩
def R.AUX_CMD_CFG_RATE : FRef := ⟨.aux, 0x880, 0, 0, 6, 0⟩
-- AUX_CMD_SCALE, Table 5.9
def W.AUX_CMD_SCALE : FRef := ⟨.aux, 0x884, 0, 0, 31, 0⟩
def R.AUX_CMD_SCALE_F_FS : FRef := ⟨.aux, 0x884, 0, 0, 31, 15⟩
-- AUX_CMD_STAT, Table 5.9
def W.AUX_CMD_STAT : FRef := ⟨.aux, 0x888, 0, 0, 31, 0⟩
def R.AUX_CMD_STAT_RANGE : FRef := ⟨.aux, 0x888, 0, 0, 2, 2⟩
def R.AUX_CMD_STAT_STATIC_HI : FRef := ⟨.aux, 0x888, 0, 0, 1, 1⟩
def R.AUX_CMD_STAT_STATIC_LO : FRef := ⟨.aux, 0x888, 0, 0, 0, 0⟩
-- PWM_CTL, Table 7.8
def W.PWM_CTL : FRef := ⟨.pwm, 0x0, 0, 0, 31, 0⟩
def R.PWM_CTL_EN : FRef := ⟨.pwm, 0x0, 0, 0, 31, 31⟩
-- PWM_STAT, Table 7.8
def W.PWM_STAT : FRef := ⟨.pwm, 0x4, 0, 0, 31, 0⟩
def R.PWM_STAT_LOCKED : FRef := ⟨.pwm, 0x4, 0, 0, 23, 0⟩
-- PWM_TIME_LO, Table 7.8
def W.PWM_TIME_LO : FRef := ⟨.pwm, 0x8, 0, 0, 31, 0⟩
def R.PWM_TIME_LO_TIME_LO : FRef := ⟨.pwm, 0x8, 0, 0, 31, 0⟩
-- PWM_TIME_HI, Table 7.8
def W.PWM_TIME_HI : FRef := ⟨.pwm, 0xC, 0, 0, 31, 0⟩
def R.PWM_TIME_HI_TIME_HI : FRef := ⟨.pwm, 0xC, 0, 0, 31, 0⟩
-- PWM_SLOT_CFG, Table 7.9
def W.PWM_SLOT_CFG : FRef := ⟨.pwm, 0x100, 64, 0, 31, 0⟩
def R.PWM_SLOT_CFG_EN : FRef := ⟨.pwm, 0x100, 64, 0, 31, 31⟩
def R.PWM_SLOT_CFG_TOPO : FRef := ⟨.pwm, 0x100, 64, 0, 30, 28⟩
def R.PWM_SLOT_CFG_LOCK : FRef := ⟨.pwm, 0x100, 64, 0, 27, 27⟩
def R.PWM_SLOT_CFG_LV3 : FRef := ⟨.pwm, 0x100, 64, 0, 26, 26⟩
def R.PWM_SLOT_CFG_LEG_INDEP : FRef := ⟨.pwm, 0x100, 64, 0, 25, 23⟩
-- PWM_SLOT_TOP, Table 7.9
def W.PWM_SLOT_TOP : FRef := ⟨.pwm, 0x104, 64, 0, 31, 0⟩
def R.PWM_SLOT_TOP_TOP : FRef := ⟨.pwm, 0x104, 64, 0, 19, 0⟩
-- PWM_SLOT_PH_LO, Table 7.9
def W.PWM_SLOT_PH_LO : FRef := ⟨.pwm, 0x108, 64, 0, 31, 0⟩
def R.PWM_SLOT_PH_LO_PHASE_LO : FRef := ⟨.pwm, 0x108, 64, 0, 31, 0⟩
-- PWM_SLOT_PH_HI, Table 7.9
def W.PWM_SLOT_PH_HI : FRef := ⟨.pwm, 0x10C, 64, 0, 31, 0⟩
def R.PWM_SLOT_PH_HI_PHASE_HI : FRef := ⟨.pwm, 0x10C, 64, 0, 31, 0⟩
-- PWM_SLOT_DT, Table 7.9
def W.PWM_SLOT_DT : FRef := ⟨.pwm, 0x110, 64, 0, 31, 0⟩
def R.PWM_SLOT_DT_DEAD : FRef := ⟨.pwm, 0x110, 64, 0, 31, 18⟩
def R.PWM_SLOT_DT_MINPW : FRef := ⟨.pwm, 0x110, 64, 0, 11, 0⟩
-- PWM_SLOT_LOCK, Table 7.9
def W.PWM_SLOT_LOCK : FRef := ⟨.pwm, 0x114, 64, 0, 31, 0⟩
def R.PWM_SLOT_LOCK_PH_SLEW : FRef := ⟨.pwm, 0x114, 64, 0, 31, 20⟩
def R.PWM_SLOT_LOCK_LOCK_TOL : FRef := ⟨.pwm, 0x114, 64, 0, 19, 8⟩
-- PWM_SLOT_LEG, Table 7.9
def W.PWM_SLOT_LEG : FRef := ⟨.pwm, 0x118, 64, 0, 31, 0⟩
def R.PWM_SLOT_LEG_OFS2 : FRef := ⟨.pwm, 0x118, 64, 0, 29, 20⟩
def R.PWM_SLOT_LEG_OFS1 : FRef := ⟨.pwm, 0x118, 64, 0, 19, 10⟩
def R.PWM_SLOT_LEG_OFS0 : FRef := ⟨.pwm, 0x118, 64, 0, 9, 0⟩
-- PWM_SLOT_OWN, Table 7.9
def W.PWM_SLOT_OWN : FRef := ⟨.pwm, 0x11C, 64, 0, 31, 0⟩
def R.PWM_SLOT_OWN_A_EN : FRef := ⟨.pwm, 0x11C, 64, 0, 31, 31⟩
def R.PWM_SLOT_OWN_OWNER_A : FRef := ⟨.pwm, 0x11C, 64, 0, 30, 22⟩
def R.PWM_SLOT_OWN_B_EN : FRef := ⟨.pwm, 0x11C, 64, 0, 21, 21⟩
def R.PWM_SLOT_OWN_OWNER_B : FRef := ⟨.pwm, 0x11C, 64, 0, 20, 12⟩
-- PWM_FB_CFG, Table 7.9
def W.PWM_FB_CFG : FRef := ⟨.pwm, 0x120, 64, 0, 31, 0⟩
def R.PWM_FB_CFG_FILT : FRef := ⟨.pwm, 0x120, 64, 0, 31, 24⟩
def R.PWM_FB_CFG_POL : FRef := ⟨.pwm, 0x120, 64, 0, 11, 6⟩
def R.PWM_FB_CFG_FB_EN : FRef := ⟨.pwm, 0x120, 64, 0, 5, 0⟩
-- PWM_SLOT_STAT, Table 7.10
def W.PWM_SLOT_STAT : FRef := ⟨.pwm, 0x124, 64, 0, 31, 0⟩
def R.PWM_SLOT_STAT_LOCKED : FRef := ⟨.pwm, 0x124, 64, 0, 31, 31⟩
def R.PWM_SLOT_STAT_B_ACTIVE : FRef := ⟨.pwm, 0x124, 64, 0, 30, 30⟩
def R.PWM_SLOT_STAT_STARTED : FRef := ⟨.pwm, 0x124, 64, 0, 29, 29⟩
def R.PWM_SLOT_STAT_CMPW_BAD : FRef := ⟨.pwm, 0x124, 64, 0, 5, 5⟩
def R.PWM_SLOT_STAT_SEQ_GAP : FRef := ⟨.pwm, 0x124, 64, 0, 4, 4⟩
def R.PWM_SLOT_STAT_CAR_REF : FRef := ⟨.pwm, 0x124, 64, 0, 3, 3⟩
def R.PWM_SLOT_STAT_UNLOCK : FRef := ⟨.pwm, 0x124, 64, 0, 2, 2⟩
def R.PWM_SLOT_STAT_INTERLOCK : FRef := ⟨.pwm, 0x124, 64, 0, 1, 1⟩
def R.PWM_SLOT_STAT_SHORT_PULSE : FRef := ⟨.pwm, 0x124, 64, 0, 0, 0⟩
-- PWM_FB_STAT, Table 7.10
def W.PWM_FB_STAT : FRef := ⟨.pwm, 0x128, 64, 0, 31, 0⟩
def R.PWM_FB_STAT_SEEN : FRef := ⟨.pwm, 0x128, 64, 0, 13, 8⟩
def R.PWM_FB_STAT_LIVE : FRef := ⟨.pwm, 0x128, 64, 0, 5, 0⟩
-- PWM_SLOT_UPD, Table 7.10
def W.PWM_SLOT_UPD : FRef := ⟨.pwm, 0x12C, 64, 0, 31, 0⟩
def R.PWM_SLOT_UPD_SEQ : FRef := ⟨.pwm, 0x12C, 64, 0, 31, 24⟩
def R.PWM_SLOT_UPD_LATE : FRef := ⟨.pwm, 0x12C, 64, 0, 23, 23⟩
def R.PWM_SLOT_UPD_CASE : FRef := ⟨.pwm, 0x12C, 64, 0, 17, 0⟩
-- PWM_SLOT_CNT, Table 7.10
def W.PWM_SLOT_CNT : FRef := ⟨.pwm, 0x130, 64, 0, 31, 0⟩
def R.PWM_SLOT_CNT_ILK_CNT : FRef := ⟨.pwm, 0x130, 64, 0, 31, 16⟩
def R.PWM_SLOT_CNT_SHORT_CNT : FRef := ⟨.pwm, 0x130, 64, 0, 15, 0⟩
-- PWM_AGE, Table 7.10
def W.PWM_AGE : FRef := ⟨.pwm, 0x1000, 32, 4, 31, 0⟩
def R.PWM_AGE_AGE : FRef := ⟨.pwm, 0x1000, 32, 4, 31, 0⟩
-- AUX_CTL, Table 7.12
def W.AUX_CTL : FRef := ⟨.aux, 0x0, 0, 0, 31, 0⟩
def R.AUX_CTL_EN : FRef := ⟨.aux, 0x0, 0, 0, 31, 31⟩
def R.AUX_CTL_VGD_UV_SEEN : FRef := ⟨.aux, 0x0, 0, 0, 1, 1⟩
def R.AUX_CTL_VGD_UV : FRef := ⟨.aux, 0x0, 0, 0, 0, 0⟩
-- AUX_STAT, Table 7.12
def W.AUX_STAT : FRef := ⟨.aux, 0x4, 0, 0, 31, 0⟩
def R.AUX_STAT_LOCKED : FRef := ⟨.aux, 0x4, 0, 0, 11, 8⟩
def R.AUX_STAT_BOOT_UV_ANY : FRef := ⟨.aux, 0x4, 0, 0, 7, 4⟩
def R.AUX_STAT_VDS_LINE : FRef := ⟨.aux, 0x4, 0, 0, 3, 0⟩
-- AUX_BR_CFG, Table 7.12
def W.AUX_BR_CFG : FRef := ⟨.aux, 0x100, 32, 0, 31, 0⟩
def R.AUX_BR_CFG_EN : FRef := ⟨.aux, 0x100, 32, 0, 31, 31⟩
def R.AUX_BR_CFG_OWN_EN : FRef := ⟨.aux, 0x100, 32, 0, 30, 30⟩
def R.AUX_BR_CFG_OWNER : FRef := ⟨.aux, 0x100, 32, 0, 29, 21⟩
def R.AUX_BR_CFG_RFR : FRef := ⟨.aux, 0x100, 32, 0, 20, 9⟩
-- AUX_BR_TOP, Table 7.12
def W.AUX_BR_TOP : FRef := ⟨.aux, 0x104, 32, 0, 31, 0⟩
def R.AUX_BR_TOP_TOP : FRef := ⟨.aux, 0x104, 32, 0, 31, 16⟩
def R.AUX_BR_TOP_PH_SLEW : FRef := ⟨.aux, 0x104, 32, 0, 12, 0⟩
-- AUX_BR_PH_LO, Table 7.12
def W.AUX_BR_PH_LO : FRef := ⟨.aux, 0x108, 32, 0, 31, 0⟩
def R.AUX_BR_PH_LO_PHASE_LO : FRef := ⟨.aux, 0x108, 32, 0, 31, 0⟩
-- AUX_BR_PH_HI, Table 7.12
def W.AUX_BR_PH_HI : FRef := ⟨.aux, 0x10C, 32, 0, 31, 0⟩
def R.AUX_BR_PH_HI_PHASE_HI : FRef := ⟨.aux, 0x10C, 32, 0, 31, 0⟩
-- AUX_BR_DT, Table 7.12
def W.AUX_BR_DT : FRef := ⟨.aux, 0x110, 32, 0, 31, 0⟩
def R.AUX_BR_DT_DEAD : FRef := ⟨.aux, 0x110, 32, 0, 31, 18⟩
def R.AUX_BR_DT_MINPW : FRef := ⟨.aux, 0x110, 32, 0, 11, 0⟩
-- AUX_BR_VDS, Table 7.12
def W.AUX_BR_VDS : FRef := ⟨.aux, 0x114, 32, 0, 31, 0⟩
def R.AUX_BR_VDS_BLANK : FRef := ⟨.aux, 0x114, 32, 0, 31, 27⟩
def R.AUX_BR_VDS_VTH_HS : FRef := ⟨.aux, 0x114, 32, 0, 26, 24⟩
def R.AUX_BR_VDS_VTH_LS : FRef := ⟨.aux, 0x114, 32, 0, 23, 21⟩
def R.AUX_BR_VDS_VFILT : FRef := ⟨.aux, 0x114, 32, 0, 20, 18⟩
-- AUX_BR_STAT, Table 7.12
def W.AUX_BR_STAT : FRef := ⟨.aux, 0x118, 32, 0, 31, 0⟩
def R.AUX_BR_STAT_LOCKED : FRef := ⟨.aux, 0x118, 32, 0, 31, 31⟩
def R.AUX_BR_STAT_VDS_FLT : FRef := ⟨.aux, 0x118, 32, 0, 30, 25⟩
def R.AUX_BR_STAT_BOOT_UV : FRef := ⟨.aux, 0x118, 32, 0, 24, 22⟩
def R.AUX_BR_STAT_BOOT_UV_LIVE : FRef := ⟨.aux, 0x118, 32, 0, 21, 19⟩
def R.AUX_BR_STAT_DUTY_CLAMP : FRef := ⟨.aux, 0x118, 32, 0, 18, 18⟩
def R.AUX_BR_STAT_SEQ_GAP : FRef := ⟨.aux, 0x118, 32, 0, 17, 17⟩
def R.AUX_BR_STAT_CMPW_BAD : FRef := ⟨.aux, 0x118, 32, 0, 16, 16⟩
def R.AUX_BR_STAT_CAR_REF : FRef := ⟨.aux, 0x118, 32, 0, 15, 15⟩
def R.AUX_BR_STAT_UNLOCK : FRef := ⟨.aux, 0x118, 32, 0, 14, 14⟩
def R.AUX_BR_STAT_SHORT_PULSE : FRef := ⟨.aux, 0x118, 32, 0, 13, 13⟩
def R.AUX_BR_STAT_VDS_LIVE : FRef := ⟨.aux, 0x118, 32, 0, 5, 0⟩
-- AUX_BR_CNT, Table 7.12
def W.AUX_BR_CNT : FRef := ⟨.aux, 0x11C, 32, 0, 31, 0⟩
def R.AUX_BR_CNT_BLANKED : FRef := ⟨.aux, 0x11C, 32, 0, 31, 16⟩
def R.AUX_BR_CNT_SHORT_CNT : FRef := ⟨.aux, 0x11C, 32, 0, 15, 0⟩
-- AUX_BR_UPD, Table 7.12
def W.AUX_BR_UPD : FRef := ⟨.aux, 0x200, 32, 0, 31, 0⟩
def R.AUX_BR_UPD_SEQ : FRef := ⟨.aux, 0x200, 32, 0, 31, 24⟩
def R.AUX_BR_UPD_LATE : FRef := ⟨.aux, 0x200, 32, 0, 23, 23⟩
def R.AUX_BR_UPD_CASE : FRef := ⟨.aux, 0x200, 32, 0, 17, 0⟩
-- AUX_AGE, Table 7.12
def W.AUX_AGE : FRef := ⟨.aux, 0x204, 32, 4, 31, 0⟩
def R.AUX_AGE_AGE : FRef := ⟨.aux, 0x204, 32, 4, 31, 0⟩
-- TRIP_CTL, Table 8.8
def W.TRIP_CTL : FRef := ⟨.trip, 0x0, 0, 0, 31, 0⟩
def R.TRIP_CTL_EN : FRef := ⟨.trip, 0x0, 0, 0, 31, 31⟩
def R.TRIP_CTL_ARMED : FRef := ⟨.trip, 0x0, 0, 0, 30, 30⟩
-- TRIP_STAT, Table 8.8
def W.TRIP_STAT : FRef := ⟨.trip, 0x4, 0, 0, 31, 0⟩
def R.TRIP_STAT_HELD : FRef := ⟨.trip, 0x4, 0, 0, 27, 0⟩
-- TRIP_STO_MASK, Table 8.8
def W.TRIP_STO_MASK : FRef := ⟨.trip, 0x8, 0, 0, 31, 0⟩
def R.TRIP_STO_MASK_MASK : FRef := ⟨.trip, 0x8, 0, 0, 27, 0⟩
-- TRIP_STO_REC, Table 8.8
def W.TRIP_STO_REC : FRef := ⟨.trip, 0xC, 0, 0, 31, 0⟩
def R.TRIP_STO_REC_REC : FRef := ⟨.trip, 0xC, 0, 0, 15, 0⟩
-- TRIP_LATCH, Table 8.8
def W.TRIP_LATCH : FRef := ⟨.trip, 0x10, 0, 0, 31, 0⟩
def R.TRIP_LATCH_LATCH : FRef := ⟨.trip, 0x10, 0, 0, 27, 0⟩
-- TRIP_SHORT, Table 8.8
def W.TRIP_SHORT : FRef := ⟨.trip, 0x14, 0, 0, 31, 0⟩
def R.TRIP_SHORT_SHORT : FRef := ⟨.trip, 0x14, 0, 0, 27, 0⟩
-- TRIP_MLS, Table 8.8
def W.TRIP_MLS : FRef := ⟨.trip, 0x18, 0, 0, 31, 0⟩
def R.TRIP_MLS_MLS : FRef := ⟨.trip, 0x18, 0, 0, 27, 0⟩
-- TRIP_CMP_STAT, Table 8.8
def W.TRIP_CMP_STAT : FRef := ⟨.trip, 0x1C, 0, 0, 31, 0⟩
def R.TRIP_CMP_STAT_SEEN : FRef := ⟨.trip, 0x1C, 0, 0, 31, 16⟩
def R.TRIP_CMP_STAT_LIVE : FRef := ⟨.trip, 0x1C, 0, 0, 15, 0⟩
-- TRIP_TGT_CFG, Table 8.9
def W.TRIP_TGT_CFG : FRef := ⟨.trip, 0x100, 16, 0, 31, 0⟩
def R.TRIP_TGT_CFG_EN : FRef := ⟨.trip, 0x100, 16, 0, 31, 31⟩
def R.TRIP_TGT_CFG_LOCAL_ACT : FRef := ⟨.trip, 0x100, 16, 0, 30, 28⟩
def R.TRIP_TGT_CFG_LOCAL_LATCH : FRef := ⟨.trip, 0x100, 16, 0, 27, 27⟩
def R.TRIP_TGT_CFG_WD_ACT : FRef := ⟨.trip, 0x100, 16, 0, 26, 24⟩
def R.TRIP_TGT_CFG_WD_LATCH : FRef := ⟨.trip, 0x100, 16, 0, 23, 23⟩
def R.TRIP_TGT_CFG_ASC_PREF : FRef := ⟨.trip, 0x100, 16, 0, 22, 22⟩
def R.TRIP_TGT_CFG_SC_EN : FRef := ⟨.trip, 0x100, 16, 0, 21, 21⟩
def R.TRIP_TGT_CFG_SC_WIN : FRef := ⟨.trip, 0x100, 16, 0, 20, 13⟩
-- TRIP_TGT_AUTO, Table 8.9
def W.TRIP_TGT_AUTO : FRef := ⟨.trip, 0x104, 16, 0, 31, 0⟩
def R.TRIP_TGT_AUTO_SPD_EN : FRef := ⟨.trip, 0x104, 16, 0, 31, 31⟩
def R.TRIP_TGT_AUTO_SPD_PI : FRef := ⟨.trip, 0x104, 16, 0, 30, 28⟩
def R.TRIP_TGT_AUTO_SPD_INT : FRef := ⟨.trip, 0x104, 16, 0, 23, 0⟩
-- TRIP_TGT_LINK, Table 8.9
def W.TRIP_TGT_LINK : FRef := ⟨.trip, 0x108, 16, 0, 31, 0⟩
def R.TRIP_TGT_LINK_LINK_EN : FRef := ⟨.trip, 0x108, 16, 0, 31, 31⟩
def R.TRIP_TGT_LINK_LINK_MMT : FRef := ⟨.trip, 0x108, 16, 0, 30, 23⟩
def R.TRIP_TGT_LINK_BEMF_EN : FRef := ⟨.trip, 0x108, 16, 0, 22, 22⟩
def R.TRIP_TGT_LINK_BEMF_MMT : FRef := ⟨.trip, 0x108, 16, 0, 21, 14⟩
-- TRIP_TGT_STAT, Table 8.9
def W.TRIP_TGT_STAT : FRef := ⟨.trip, 0x10C, 16, 0, 31, 0⟩
def R.TRIP_TGT_STAT_ACTION : FRef := ⟨.trip, 0x10C, 16, 0, 31, 29⟩
def R.TRIP_TGT_STAT_HELD : FRef := ⟨.trip, 0x10C, 16, 0, 28, 28⟩
def R.TRIP_TGT_STAT_AUTO_ASC : FRef := ⟨.trip, 0x10C, 16, 0, 27, 27⟩
def R.TRIP_TGT_STAT_SUBST : FRef := ⟨.trip, 0x10C, 16, 0, 26, 26⟩
def R.TRIP_TGT_STAT_STO_MASKED : FRef := ⟨.trip, 0x10C, 16, 0, 25, 25⟩
def R.TRIP_TGT_STAT_FIRST : FRef := ⟨.trip, 0x10C, 16, 0, 24, 16⟩
def R.TRIP_TGT_STAT_COUNT : FRef := ⟨.trip, 0x10C, 16, 0, 15, 0⟩
-- TRIP_GRP, Table 8.10
def W.TRIP_GRP : FRef := ⟨.trip, 0x400, 4, 0, 31, 0⟩
def R.TRIP_GRP_EN : FRef := ⟨.trip, 0x400, 4, 0, 31, 31⟩
def R.TRIP_GRP_MLS_ACT : FRef := ⟨.trip, 0x400, 4, 0, 30, 28⟩
def R.TRIP_GRP_MASK : FRef := ⟨.trip, 0x400, 4, 0, 27, 0⟩
-- TRIP_CMP_CFG, Table 8.10
def W.TRIP_CMP_CFG : FRef := ⟨.trip, 0x500, 4, 0, 31, 0⟩
def R.TRIP_CMP_CFG_EN : FRef := ⟨.trip, 0x500, 4, 0, 31, 31⟩
def R.TRIP_CMP_CFG_AIN : FRef := ⟨.trip, 0x500, 4, 0, 30, 24⟩
def R.TRIP_CMP_CFG_POL : FRef := ⟨.trip, 0x500, 4, 0, 23, 23⟩
def R.TRIP_CMP_CFG_THR : FRef := ⟨.trip, 0x500, 4, 0, 22, 13⟩
def R.TRIP_CMP_CFG_HYS : FRef := ⟨.trip, 0x500, 4, 0, 12, 8⟩
def R.TRIP_CMP_CFG_CFILT : FRef := ⟨.trip, 0x500, 4, 0, 7, 0⟩
-- TRIP_RULE_SRC, Table 8.10
def W.TRIP_RULE_SRC : FRef := ⟨.trip, 0x800, 8, 0, 31, 0⟩
def R.TRIP_RULE_SRC_EN : FRef := ⟨.trip, 0x800, 8, 0, 31, 31⟩
def R.TRIP_RULE_SRC_CLASS : FRef := ⟨.trip, 0x800, 8, 0, 30, 27⟩
def R.TRIP_RULE_SRC_INDEX : FRef := ⟨.trip, 0x800, 8, 0, 26, 18⟩
def R.TRIP_RULE_SRC_ACTION : FRef := ⟨.trip, 0x800, 8, 0, 17, 15⟩
def R.TRIP_RULE_SRC_LATCH : FRef := ⟨.trip, 0x800, 8, 0, 14, 14⟩
-- TRIP_RULE_TGT, Table 8.10
def W.TRIP_RULE_TGT : FRef := ⟨.trip, 0x804, 8, 0, 31, 0⟩
def R.TRIP_RULE_TGT_MASK : FRef := ⟨.trip, 0x804, 8, 0, 27, 0⟩
-- TRIP_TS, Table 8.9
def W.TRIP_TS : FRef := ⟨.trip, 0xC00, 4, 0, 31, 0⟩
def R.TRIP_TS_TS : FRef := ⟨.trip, 0xC00, 4, 0, 31, 0⟩
-- SAFE_CTL, Table 9.9
def W.SAFE_CTL : FRef := ⟨.safe, 0x0, 0, 0, 31, 0⟩
def R.SAFE_CTL_EN : FRef := ⟨.safe, 0x0, 0, 0, 31, 31⟩
def R.SAFE_CTL_ARMED : FRef := ⟨.safe, 0x0, 0, 0, 30, 30⟩
def R.SAFE_CTL_CHAFF_OK : FRef := ⟨.safe, 0x0, 0, 0, 29, 29⟩
-- SAFE_STAT, Table 9.9
def W.SAFE_STAT : FRef := ⟨.safe, 0x4, 0, 0, 31, 0⟩
def R.SAFE_STAT_HALF_A_FLT : FRef := ⟨.safe, 0x4, 0, 0, 31, 31⟩
def R.SAFE_STAT_HALF_B_FLT : FRef := ⟨.safe, 0x4, 0, 0, 30, 30⟩
def R.SAFE_STAT_FCAUSE_A : FRef := ⟨.safe, 0x4, 0, 0, 29, 26⟩
def R.SAFE_STAT_FCAUSE_B : FRef := ⟨.safe, 0x4, 0, 0, 25, 22⟩
-- SAFE_CYCLE, Table 9.9
def W.SAFE_CYCLE : FRef := ⟨.safe, 0x8, 0, 0, 31, 0⟩
def R.SAFE_CYCLE_SC_PER : FRef := ⟨.safe, 0x8, 0, 0, 31, 28⟩
def R.SAFE_CYCLE_N_X : FRef := ⟨.safe, 0x8, 0, 0, 27, 24⟩
def R.SAFE_CYCLE_SPLIT_MAX : FRef := ⟨.safe, 0x8, 0, 0, 23, 12⟩
-- SAFE_SIN_STAT, Table 9.9
def W.SAFE_SIN_STAT : FRef := ⟨.safe, 0xC, 0, 0, 31, 0⟩
def R.SAFE_SIN_STAT_DISC : FRef := ⟨.safe, 0xC, 0, 0, 31, 24⟩
def R.SAFE_SIN_STAT_DEM : FRef := ⟨.safe, 0xC, 0, 0, 23, 16⟩
def R.SAFE_SIN_STAT_LIVE_B : FRef := ⟨.safe, 0xC, 0, 0, 15, 8⟩
def R.SAFE_SIN_STAT_LIVE_A : FRef := ⟨.safe, 0xC, 0, 0, 7, 0⟩
-- SAFE_OUT_STAT, Table 9.9
def W.SAFE_OUT_STAT : FRef := ⟨.safe, 0x10, 0, 0, 31, 0⟩
def R.SAFE_OUT_STAT_RB_FLT : FRef := ⟨.safe, 0x10, 0, 0, 31, 26⟩
def R.SAFE_OUT_STAT_TEST_MISS : FRef := ⟨.safe, 0x10, 0, 0, 25, 20⟩
def R.SAFE_OUT_STAT_LEVEL : FRef := ⟨.safe, 0x10, 0, 0, 19, 14⟩
-- SAFE_RST, Table 9.9
def W.SAFE_RST : FRef := ⟨.safe, 0x14, 0, 0, 31, 0⟩
def R.SAFE_RST_POL : FRef := ⟨.safe, 0x14, 0, 0, 31, 31⟩
def R.SAFE_RST_STUCK : FRef := ⟨.safe, 0x14, 0, 0, 30, 30⟩
def R.SAFE_RST_PRESSED : FRef := ⟨.safe, 0x14, 0, 0, 29, 29⟩
def R.SAFE_RST_REFUSED : FRef := ⟨.safe, 0x14, 0, 0, 28, 28⟩
-- SAFE_SPLIT, Table 9.9
def W.SAFE_SPLIT : FRef := ⟨.safe, 0x18, 0, 0, 31, 0⟩
def R.SAFE_SPLIT_SPLIT : FRef := ⟨.safe, 0x18, 0, 0, 31, 31⟩
def R.SAFE_SPLIT_REJOIN : FRef := ⟨.safe, 0x18, 0, 0, 30, 30⟩
def R.SAFE_SPLIT_PAIR : FRef := ⟨.safe, 0x18, 0, 0, 29, 28⟩
-- SAFE_LOG_STAT, Table 9.9
def W.SAFE_LOG_STAT : FRef := ⟨.safe, 0x1C, 0, 0, 31, 0⟩
def R.SAFE_LOG_STAT_SEQ : FRef := ⟨.safe, 0x1C, 0, 0, 31, 0⟩
-- SAFE_PSET_CRC, Table 9.9
def W.SAFE_PSET_CRC : FRef := ⟨.safe, 0x20, 0, 0, 31, 0⟩
def R.SAFE_PSET_CRC_CRC : FRef := ⟨.safe, 0x20, 0, 0, 31, 0⟩
-- SAFE_PW_STAT, Table 9.9
def W.SAFE_PW_STAT : FRef := ⟨.safe, 0x24, 0, 0, 31, 0⟩
def R.SAFE_PW_STAT_SET : FRef := ⟨.safe, 0x24, 0, 0, 31, 24⟩
def R.SAFE_PW_STAT_LOCKED : FRef := ⟨.safe, 0x24, 0, 0, 23, 16⟩
-- SAFE_STO_CFG, Table 9.9
def W.SAFE_STO_CFG : FRef := ⟨.safe, 0x30, 0, 0, 31, 0⟩
def R.SAFE_STO_CFG_TP_EN : FRef := ⟨.safe, 0x30, 0, 0, 31, 31⟩
def R.SAFE_STO_CFG_TP_W : FRef := ⟨.safe, 0x30, 0, 0, 29, 24⟩
def R.SAFE_STO_CFG_TP_INT : FRef := ⟨.safe, 0x30, 0, 0, 23, 16⟩
-- SAFE_PAIR, Table 9.10
def W.SAFE_PAIR : FRef := ⟨.safe, 0x40, 4, 0, 31, 0⟩
def R.SAFE_PAIR_STATE : FRef := ⟨.safe, 0x40, 4, 0, 31, 29⟩
def R.SAFE_PAIR_SPLITS : FRef := ⟨.safe, 0x40, 4, 0, 28, 13⟩
-- SAFE_SIN_CFG, Table 9.10
def W.SAFE_SIN_CFG : FRef := ⟨.safe, 0x80, 4, 0, 31, 0⟩
def R.SAFE_SIN_CFG_EN : FRef := ⟨.safe, 0x80, 4, 0, 31, 31⟩
def R.SAFE_SIN_CFG_ANTI : FRef := ⟨.safe, 0x80, 4, 0, 30, 30⟩
def R.SAFE_SIN_CFG_FILT : FRef := ⟨.safe, 0x80, 4, 0, 29, 25⟩
def R.SAFE_SIN_CFG_T_DISC : FRef := ⟨.safe, 0x80, 4, 0, 24, 16⟩
def R.SAFE_SIN_CFG_REQ : FRef := ⟨.safe, 0x80, 4, 0, 15, 13⟩
def R.SAFE_SIN_CFG_AXMASK : FRef := ⟨.safe, 0x80, 4, 0, 12, 9⟩
-- SAFE_SOUT_CFG, Table 9.10
def W.SAFE_SOUT_CFG : FRef := ⟨.safe, 0xC0, 4, 0, 31, 0⟩
def R.SAFE_SOUT_CFG_EN : FRef := ⟨.safe, 0xC0, 4, 0, 31, 31⟩
def R.SAFE_SOUT_CFG_TP_EN : FRef := ⟨.safe, 0xC0, 4, 0, 30, 30⟩
def R.SAFE_SOUT_CFG_TP_W : FRef := ⟨.safe, 0xC0, 4, 0, 29, 24⟩
def R.SAFE_SOUT_CFG_TP_INT : FRef := ⟨.safe, 0xC0, 4, 0, 23, 16⟩
def R.SAFE_SOUT_CFG_KIND : FRef := ⟨.safe, 0xC0, 4, 0, 15, 14⟩
def R.SAFE_SOUT_CFG_AXIS : FRef := ⟨.safe, 0xC0, 4, 0, 13, 12⟩
-- SAFE_AX_CFG, Table 9.10
def W.SAFE_AX_CFG : FRef := ⟨.safe, 0x100, 16, 0, 31, 0⟩
def R.SAFE_AX_CFG_EN : FRef := ⟨.safe, 0x100, 16, 0, 31, 31⟩
def R.SAFE_AX_CFG_GROUP : FRef := ⟨.safe, 0x100, 16, 0, 30, 30⟩
def R.SAFE_AX_CFG_STO_PATH : FRef := ⟨.safe, 0x100, 16, 0, 29, 28⟩
def R.SAFE_AX_CFG_DEM : FRef := ⟨.safe, 0x100, 16, 0, 27, 25⟩
def R.SAFE_AX_CFG_SS1_MODE : FRef := ⟨.safe, 0x100, 16, 0, 24, 24⟩
def R.SAFE_AX_CFG_FEN : FRef := ⟨.safe, 0x100, 16, 0, 23, 19⟩
def R.SAFE_AX_CFG_REACT : FRef := ⟨.safe, 0x100, 16, 0, 18, 17⟩
def R.SAFE_AX_CFG_RESTART : FRef := ⟨.safe, 0x100, 16, 0, 16, 16⟩
-- SAFE_AX_POS, Table 9.10
def W.SAFE_AX_POS : FRef := ⟨.safe, 0x104, 16, 0, 31, 0⟩
def R.SAFE_AX_POS_POS_A : FRef := ⟨.safe, 0x104, 16, 0, 31, 29⟩
def R.SAFE_AX_POS_POS_B : FRef := ⟨.safe, 0x104, 16, 0, 28, 26⟩
def R.SAFE_AX_POS_ACC_I1 : FRef := ⟨.safe, 0x104, 16, 0, 25, 18⟩
def R.SAFE_AX_POS_ACC_I2 : FRef := ⟨.safe, 0x104, 16, 0, 17, 10⟩
-- SAFE_AX_STAT, Table 9.10
def W.SAFE_AX_STAT : FRef := ⟨.safe, 0x108, 16, 0, 31, 0⟩
def R.SAFE_AX_STAT_STATE : FRef := ⟨.safe, 0x108, 16, 0, 31, 30⟩
def R.SAFE_AX_STAT_VIOL : FRef := ⟨.safe, 0x108, 16, 0, 29, 22⟩
def R.SAFE_AX_STAT_ACTIVE : FRef := ⟨.safe, 0x108, 16, 0, 21, 16⟩
def R.SAFE_AX_STAT_SPD : FRef := ⟨.safe, 0x108, 16, 0, 15, 0⟩
-- HUSK_ID, Table 10.13
def W.HUSK_ID : FRef := ⟨.husk, 0x0, 0, 0, 31, 0⟩
def R.HUSK_ID_LIFECYCLE : FRef := ⟨.husk, 0x0, 0, 0, 31, 28⟩
def R.HUSK_ID_HFW_BUILD : FRef := ⟨.husk, 0x0, 0, 0, 27, 16⟩
-- HUSK_STAT, Table 10.13
def W.HUSK_STAT : FRef := ⟨.husk, 0x4, 0, 0, 31, 0⟩
def R.HUSK_STAT_BOOT_OK : FRef := ⟨.husk, 0x4, 0, 0, 31, 31⟩
def R.HUSK_STAT_SLOT : FRef := ⟨.husk, 0x4, 0, 0, 30, 29⟩
def R.HUSK_STAT_OEM_KEYS : FRef := ⟨.husk, 0x4, 0, 0, 28, 28⟩
def R.HUSK_STAT_SAF_ROOT : FRef := ⟨.husk, 0x4, 0, 0, 27, 27⟩
def R.HUSK_STAT_ERASED : FRef := ⟨.husk, 0x4, 0, 0, 26, 26⟩
def R.HUSK_STAT_BOOT_ERR : FRef := ⟨.husk, 0x4, 0, 0, 23, 16⟩
-- HUSK_DEV_ID_LO, Table 10.13
def W.HUSK_DEV_ID_LO : FRef := ⟨.husk, 0x8, 0, 0, 31, 0⟩
def R.HUSK_DEV_ID_LO_DEV_ID : FRef := ⟨.husk, 0x8, 0, 0, 31, 0⟩
-- HUSK_DEV_ID_HI, Table 10.13
def W.HUSK_DEV_ID_HI : FRef := ⟨.husk, 0xC, 0, 0, 31, 0⟩
def R.HUSK_DEV_ID_HI_DEV_ID : FRef := ⟨.husk, 0xC, 0, 0, 31, 0⟩
-- HUSK_SVN, Table 10.13
def W.HUSK_SVN : FRef := ⟨.husk, 0x10, 0, 0, 31, 0⟩
def R.HUSK_SVN_IMG_SVN : FRef := ⟨.husk, 0x10, 0, 0, 31, 25⟩
def R.HUSK_SVN_RUN_SVN : FRef := ⟨.husk, 0x10, 0, 0, 24, 18⟩
def R.HUSK_SVN_HFW_SVN : FRef := ⟨.husk, 0x10, 0, 0, 17, 12⟩
-- HUSK_SVN_CMD, Table 10.13
def W.HUSK_SVN_CMD : FRef := ⟨.husk, 0x14, 0, 0, 31, 0⟩
def R.HUSK_SVN_CMD_COMMIT : FRef := ⟨.husk, 0x14, 0, 0, 31, 31⟩
-- HUSK_SESS_CTL, Table 10.14
def W.HUSK_SESS_CTL : FRef := ⟨.husk, 0x20, 0, 65536, 31, 0⟩
def R.HUSK_SESS_CTL_REQ : FRef := ⟨.husk, 0x20, 0, 65536, 31, 31⟩
def R.HUSK_SESS_CTL_SUBMIT : FRef := ⟨.husk, 0x20, 0, 65536, 30, 30⟩
def R.HUSK_SESS_CTL_CLOSE : FRef := ⟨.husk, 0x20, 0, 65536, 29, 29⟩
def R.HUSK_SESS_CTL_DOMAIN : FRef := ⟨.husk, 0x20, 0, 65536, 28, 26⟩
def R.HUSK_SESS_CTL_USER : FRef := ⟨.husk, 0x20, 0, 65536, 25, 23⟩
def R.HUSK_SESS_CTL_KEYIDX : FRef := ⟨.husk, 0x20, 0, 65536, 22, 19⟩
-- HUSK_SESS_STAT, Table 10.14
def W.HUSK_SESS_STAT : FRef := ⟨.husk, 0x24, 0, 65536, 31, 0⟩
def R.HUSK_SESS_STAT_DOMAIN : FRef := ⟨.husk, 0x24, 0, 65536, 31, 29⟩
def R.HUSK_SESS_STAT_USER : FRef := ⟨.husk, 0x24, 0, 65536, 28, 26⟩
def R.HUSK_SESS_STAT_PHASE : FRef := ⟨.husk, 0x24, 0, 65536, 25, 24⟩
def R.HUSK_SESS_STAT_RESULT : FRef := ⟨.husk, 0x24, 0, 65536, 23, 20⟩
def R.HUSK_SESS_STAT_IDLE_LEFT : FRef := ⟨.husk, 0x24, 0, 65536, 19, 10⟩
-- HUSK_CHAL, Table 10.14
def W.HUSK_CHAL : FRef := ⟨.husk, 0x100, 4, 65536, 31, 0⟩
def R.HUSK_CHAL_CHAL : FRef := ⟨.husk, 0x100, 4, 65536, 31, 0⟩
-- HUSK_RESP, Table 10.14
def W.HUSK_RESP : FRef := ⟨.husk, 0x200, 4, 65536, 31, 0⟩
def R.HUSK_RESP_RESP : FRef := ⟨.husk, 0x200, 4, 65536, 31, 0⟩
-- HUSK_DBG_CTL, Table 10.15
def W.HUSK_DBG_CTL : FRef := ⟨.husk, 0x300, 0, 0, 31, 0⟩
def R.HUSK_DBG_CTL_KDBG : FRef := ⟨.husk, 0x300, 0, 0, 31, 31⟩
def R.HUSK_DBG_CTL_VTEST : FRef := ⟨.husk, 0x300, 0, 0, 30, 30⟩
-- HUSK_DBG_STAT, Table 10.15
def W.HUSK_DBG_STAT : FRef := ⟨.husk, 0x304, 0, 0, 31, 0⟩
def R.HUSK_DBG_STAT_KDBG_OPEN : FRef := ⟨.husk, 0x304, 0, 0, 31, 31⟩
def R.HUSK_DBG_STAT_VTEST_OPEN : FRef := ⟨.husk, 0x304, 0, 0, 30, 30⟩
def R.HUSK_DBG_STAT_CONSENT : FRef := ⟨.husk, 0x304, 0, 0, 29, 29⟩
def R.HUSK_DBG_STAT_CONSENT_LEFT : FRef := ⟨.husk, 0x304, 0, 0, 28, 19⟩
-- HUSK_DBG_CONSENT, Table 10.15
def W.HUSK_DBG_CONSENT : FRef := ⟨.husk, 0x308, 0, 0, 31, 0⟩
def R.HUSK_DBG_CONSENT_GIVE : FRef := ⟨.husk, 0x308, 0, 0, 31, 31⟩
def R.HUSK_DBG_CONSENT_WITHDRAW : FRef := ⟨.husk, 0x308, 0, 0, 30, 30⟩
-- HUSK_ERASE_CTL, Table 10.15
def W.HUSK_ERASE_CTL : FRef := ⟨.husk, 0x400, 0, 0, 31, 0⟩
def R.HUSK_ERASE_CTL_ERASE : FRef := ⟨.husk, 0x400, 0, 0, 31, 31⟩
def R.HUSK_ERASE_CTL_CONFIRM : FRef := ⟨.husk, 0x400, 0, 0, 15, 0⟩
-- HUSK_ERASE_STAT, Table 10.15
def W.HUSK_ERASE_STAT : FRef := ⟨.husk, 0x404, 0, 0, 31, 0⟩
def R.HUSK_ERASE_STAT_PHASE : FRef := ⟨.husk, 0x404, 0, 0, 31, 29⟩
def R.HUSK_ERASE_STAT_PCT : FRef := ⟨.husk, 0x404, 0, 0, 28, 22⟩
-- HUSK_KEY_CTL, Table 10.15
def W.HUSK_KEY_CTL : FRef := ⟨.husk, 0x500, 0, 0, 31, 0⟩
def R.HUSK_KEY_CTL_LOAD : FRef := ⟨.husk, 0x500, 0, 0, 31, 31⟩
def R.HUSK_KEY_CTL_DELETE : FRef := ⟨.husk, 0x500, 0, 0, 30, 30⟩
def R.HUSK_KEY_CTL_PW_SET : FRef := ⟨.husk, 0x500, 0, 0, 29, 29⟩
def R.HUSK_KEY_CTL_PW_DEL : FRef := ⟨.husk, 0x500, 0, 0, 28, 28⟩
def R.HUSK_KEY_CTL_SLOT : FRef := ⟨.husk, 0x500, 0, 0, 27, 25⟩
def R.HUSK_KEY_CTL_PORT : FRef := ⟨.husk, 0x500, 0, 0, 24, 24⟩
def R.HUSK_KEY_CTL_CKN_LEN : FRef := ⟨.husk, 0x500, 0, 0, 23, 18⟩
-- HUSK_KEY_STAT, Table 10.15
def W.HUSK_KEY_STAT : FRef := ⟨.husk, 0x504, 0, 0, 31, 0⟩
def R.HUSK_KEY_STAT_VALID : FRef := ⟨.husk, 0x504, 0, 0, 31, 24⟩
def R.HUSK_KEY_STAT_PORTS : FRef := ⟨.husk, 0x504, 0, 0, 23, 16⟩
def R.HUSK_KEY_STAT_RESULT : FRef := ⟨.husk, 0x504, 0, 0, 15, 12⟩
-- HUSK_PROV_CTL, Table 10.15
def W.HUSK_PROV_CTL : FRef := ⟨.husk, 0x508, 0, 0, 31, 0⟩
def R.HUSK_PROV_CTL_FUSE : FRef := ⟨.husk, 0x508, 0, 0, 31, 31⟩
def R.HUSK_PROV_CTL_ITEM : FRef := ⟨.husk, 0x508, 0, 0, 30, 28⟩
-- HUSK_PROV_STAT, Table 10.15
def W.HUSK_PROV_STAT : FRef := ⟨.husk, 0x50C, 0, 0, 31, 0⟩
def R.HUSK_PROV_STAT_DONE : FRef := ⟨.husk, 0x50C, 0, 0, 31, 29⟩
def R.HUSK_PROV_STAT_RESULT : FRef := ⟨.husk, 0x50C, 0, 0, 28, 25⟩
-- HUSK_KEY_DATA, Table 10.15
def W.HUSK_KEY_DATA : FRef := ⟨.husk, 0x540, 4, 0, 31, 0⟩
def R.HUSK_KEY_DATA_DATA : FRef := ⟨.husk, 0x540, 4, 0, 31, 0⟩
-- HUSK_REFUSE_CNT, Table 10.15
def W.HUSK_REFUSE_CNT : FRef := ⟨.husk, 0x600, 0, 0, 31, 0⟩
def R.HUSK_REFUSE_CNT_CNT : FRef := ⟨.husk, 0x600, 0, 0, 31, 0⟩
-- HUSK_REFUSE_LAST, Table 10.15
def W.HUSK_REFUSE_LAST : FRef := ⟨.husk, 0x604, 0, 0, 31, 0⟩
def R.HUSK_REFUSE_LAST_FUNC : FRef := ⟨.husk, 0x604, 0, 0, 31, 31⟩
def R.HUSK_REFUSE_LAST_DOMAIN : FRef := ⟨.husk, 0x604, 0, 0, 30, 28⟩
def R.HUSK_REFUSE_LAST_WRITE : FRef := ⟨.husk, 0x604, 0, 0, 27, 27⟩
def R.HUSK_REFUSE_LAST_BLOCK : FRef := ⟨.husk, 0x604, 0, 0, 26, 23⟩
def R.HUSK_REFUSE_LAST_WORD : FRef := ⟨.husk, 0x604, 0, 0, 22, 9⟩
def R.HUSK_REFUSE_LAST_KIND : FRef := ⟨.husk, 0x604, 0, 0, 8, 7⟩
-- CFG_STAT, Table 11.8
def W.CFG_STAT : FRef := ⟨.cfg, 0x0, 0, 0, 31, 0⟩
def R.CFG_STAT_SEALED : FRef := ⟨.cfg, 0x0, 0, 0, 31, 31⟩
def R.CFG_STAT_SLOT : FRef := ⟨.cfg, 0x0, 0, 0, 30, 29⟩
def R.CFG_STAT_FALLBACK : FRef := ⟨.cfg, 0x0, 0, 0, 28, 28⟩
def R.CFG_STAT_PHASE : FRef := ⟨.cfg, 0x0, 0, 0, 27, 24⟩
def R.CFG_STAT_MOVED : FRef := ⟨.cfg, 0x0, 0, 0, 23, 16⟩
def R.CFG_STAT_PLACE_FAILS : FRef := ⟨.cfg, 0x0, 0, 0, 15, 8⟩
-- CFG_SEQ_A_LO, Table 11.8
def W.CFG_SEQ_A_LO : FRef := ⟨.cfg, 0x8, 0, 0, 31, 0⟩
def R.CFG_SEQ_A_LO_SEQ : FRef := ⟨.cfg, 0x8, 0, 0, 31, 0⟩
-- CFG_SEQ_A_HI, Table 11.8
def W.CFG_SEQ_A_HI : FRef := ⟨.cfg, 0xC, 0, 0, 31, 0⟩
def R.CFG_SEQ_A_HI_SEQ : FRef := ⟨.cfg, 0xC, 0, 0, 31, 0⟩
-- CFG_SEQ_B_LO, Table 11.8
def W.CFG_SEQ_B_LO : FRef := ⟨.cfg, 0x10, 0, 0, 31, 0⟩
def R.CFG_SEQ_B_LO_SEQ : FRef := ⟨.cfg, 0x10, 0, 0, 31, 0⟩
-- CFG_SEQ_B_HI, Table 11.8
def W.CFG_SEQ_B_HI : FRef := ⟨.cfg, 0x14, 0, 0, 31, 0⟩
def R.CFG_SEQ_B_HI_SEQ : FRef := ⟨.cfg, 0x14, 0, 0, 31, 0⟩
-- CFG_SLOT_STAT, Table 11.8
def W.CFG_SLOT_STAT : FRef := ⟨.cfg, 0x18, 0, 0, 31, 0⟩
def R.CFG_SLOT_STAT_A_HDR_OK : FRef := ⟨.cfg, 0x18, 0, 0, 31, 31⟩
def R.CFG_SLOT_STAT_A_VER_DONE : FRef := ⟨.cfg, 0x18, 0, 0, 30, 30⟩
def R.CFG_SLOT_STAT_A_RESULT : FRef := ⟨.cfg, 0x18, 0, 0, 29, 26⟩
def R.CFG_SLOT_STAT_A_SVN : FRef := ⟨.cfg, 0x18, 0, 0, 25, 19⟩
def R.CFG_SLOT_STAT_B_HDR_OK : FRef := ⟨.cfg, 0x18, 0, 0, 15, 15⟩
def R.CFG_SLOT_STAT_B_VER_DONE : FRef := ⟨.cfg, 0x18, 0, 0, 14, 14⟩
def R.CFG_SLOT_STAT_B_RESULT : FRef := ⟨.cfg, 0x18, 0, 0, 13, 10⟩
def R.CFG_SLOT_STAT_B_SVN : FRef := ⟨.cfg, 0x18, 0, 0, 9, 3⟩
-- CFG_REFUSE_SEC, Table 11.8
def W.CFG_REFUSE_SEC : FRef := ⟨.cfg, 0x1C, 0, 0, 31, 0⟩
def R.CFG_REFUSE_SEC_SECTION : FRef := ⟨.cfg, 0x1C, 0, 0, 31, 16⟩
-- CFG_REFUSE_OFS, Table 11.8
def W.CFG_REFUSE_OFS : FRef := ⟨.cfg, 0x20, 0, 0, 31, 0⟩
def R.CFG_REFUSE_OFS_OFFSET : FRef := ⟨.cfg, 0x20, 0, 0, 31, 0⟩
-- CFG_UPD_CTL, Table 11.8
def W.CFG_UPD_CTL : FRef := ⟨.cfg, 0x40, 0, 0, 31, 0⟩
def R.CFG_UPD_CTL_START : FRef := ⟨.cfg, 0x40, 0, 0, 31, 31⟩
def R.CFG_UPD_CTL_ABORT : FRef := ⟨.cfg, 0x40, 0, 0, 30, 30⟩
def R.CFG_UPD_CTL_VERIFY : FRef := ⟨.cfg, 0x40, 0, 0, 29, 29⟩
def R.CFG_UPD_CTL_REVOKE : FRef := ⟨.cfg, 0x40, 0, 0, 28, 28⟩
def R.CFG_UPD_CTL_SLOT : FRef := ⟨.cfg, 0x40, 0, 0, 27, 27⟩
-- CFG_UPD_ADDR_LO, Table 11.8
def W.CFG_UPD_ADDR_LO : FRef := ⟨.cfg, 0x44, 0, 0, 31, 0⟩
def R.CFG_UPD_ADDR_LO_ADDR : FRef := ⟨.cfg, 0x44, 0, 0, 31, 0⟩
-- CFG_UPD_ADDR_HI, Table 11.8
def W.CFG_UPD_ADDR_HI : FRef := ⟨.cfg, 0x48, 0, 0, 31, 0⟩
def R.CFG_UPD_ADDR_HI_ADDR : FRef := ⟨.cfg, 0x48, 0, 0, 31, 0⟩
-- CFG_UPD_LEN, Table 11.8
def W.CFG_UPD_LEN : FRef := ⟨.cfg, 0x4C, 0, 0, 31, 0⟩
def R.CFG_UPD_LEN_LEN : FRef := ⟨.cfg, 0x4C, 0, 0, 31, 0⟩
-- CFG_UPD_STAT, Table 11.8
def W.CFG_UPD_STAT : FRef := ⟨.cfg, 0x50, 0, 0, 31, 0⟩
def R.CFG_UPD_STAT_PHASE : FRef := ⟨.cfg, 0x50, 0, 0, 31, 29⟩
def R.CFG_UPD_STAT_TARGET : FRef := ⟨.cfg, 0x50, 0, 0, 28, 28⟩
def R.CFG_UPD_STAT_RESULT : FRef := ⟨.cfg, 0x50, 0, 0, 27, 24⟩
def R.CFG_UPD_STAT_PCT : FRef := ⟨.cfg, 0x50, 0, 0, 23, 17⟩
def R.CFG_UPD_STAT_DONE : FRef := ⟨.cfg, 0x50, 0, 0, 16, 16⟩
-- CFG_FLASH_STAT, Table 11.8
def W.CFG_FLASH_STAT : FRef := ⟨.cfg, 0x60, 0, 0, 31, 0⟩
def R.CFG_FLASH_STAT_SIZE_LOG2 : FRef := ⟨.cfg, 0x60, 0, 0, 31, 24⟩
def R.CFG_FLASH_STAT_OCTAL_DDR : FRef := ⟨.cfg, 0x60, 0, 0, 23, 23⟩
-- HOSTQ_STAT, Table 12.10
def W.HOSTQ_STAT : FRef := ⟨.hostq, 0x0, 0, 0, 31, 0⟩
def R.HOSTQ_STAT_OUTSTANDING : FRef := ⟨.hostq, 0x0, 0, 0, 31, 21⟩
def R.HOSTQ_STAT_SCHEDULES : FRef := ⟨.hostq, 0x0, 0, 0, 20, 12⟩
def R.HOSTQ_STAT_FALLBACK : FRef := ⟨.hostq, 0x0, 0, 0, 0, 0⟩
-- HOSTQ_HL_CFG, Table 12.10
def W.HOSTQ_HL_CFG : FRef := ⟨.hostq, 0x10, 4, 0, 31, 0⟩
def R.HOSTQ_HL_CFG_HB_EN : FRef := ⟨.hostq, 0x10, 4, 0, 31, 31⟩
def R.HOSTQ_HL_CFG_FB_EN : FRef := ⟨.hostq, 0x10, 4, 0, 30, 30⟩
def R.HOSTQ_HL_CFG_HB_TIMEOUT : FRef := ⟨.hostq, 0x10, 4, 0, 13, 0⟩
-- HOSTQ_HL_STAT, Table 12.10
def W.HOSTQ_HL_STAT : FRef := ⟨.hostq, 0x20, 0, 0, 31, 0⟩
def R.HOSTQ_HL_STAT_LOST1 : FRef := ⟨.hostq, 0x20, 0, 0, 31, 31⟩
def R.HOSTQ_HL_STAT_LOST0 : FRef := ⟨.hostq, 0x20, 0, 0, 30, 30⟩
def R.HOSTQ_HL_STAT_SEEN1 : FRef := ⟨.hostq, 0x20, 0, 0, 29, 29⟩
def R.HOSTQ_HL_STAT_SEEN0 : FRef := ⟨.hostq, 0x20, 0, 0, 28, 28⟩
def R.HOSTQ_HL_STAT_CAUSE1 : FRef := ⟨.hostq, 0x20, 0, 0, 27, 26⟩
def R.HOSTQ_HL_STAT_CAUSE0 : FRef := ⟨.hostq, 0x20, 0, 0, 25, 24⟩
-- HOSTQ_FB, Table 12.10
def W.HOSTQ_FB : FRef := ⟨.hostq, 0x100, 4, 0, 31, 0⟩
def R.HOSTQ_FB_MODE : FRef := ⟨.hostq, 0x100, 4, 0, 31, 0⟩
-- HOSTQ_SQ_BASE_LO, Table 12.11
def W.HOSTQ_SQ_BASE_LO : FRef := ⟨.hostq, 0x1000, 32, 65536, 31, 0⟩
def R.HOSTQ_SQ_BASE_LO_ADDR : FRef := ⟨.hostq, 0x1000, 32, 65536, 31, 12⟩
-- HOSTQ_SQ_BASE_HI, Table 12.11
def W.HOSTQ_SQ_BASE_HI : FRef := ⟨.hostq, 0x1004, 32, 65536, 31, 0⟩
def R.HOSTQ_SQ_BASE_HI_ADDR : FRef := ⟨.hostq, 0x1004, 32, 65536, 31, 0⟩
-- HOSTQ_SQ_CFG, Table 12.11
def W.HOSTQ_SQ_CFG : FRef := ⟨.hostq, 0x1008, 32, 65536, 31, 0⟩
def R.HOSTQ_SQ_CFG_EN : FRef := ⟨.hostq, 0x1008, 32, 65536, 31, 31⟩
def R.HOSTQ_SQ_CFG_SIZE : FRef := ⟨.hostq, 0x1008, 32, 65536, 30, 27⟩
def R.HOSTQ_SQ_CFG_CQ : FRef := ⟨.hostq, 0x1008, 32, 65536, 26, 22⟩
def R.HOSTQ_SQ_CFG_PRIO : FRef := ⟨.hostq, 0x1008, 32, 65536, 21, 20⟩
def R.HOSTQ_SQ_CFG_BURST : FRef := ⟨.hostq, 0x1008, 32, 65536, 19, 16⟩
-- HOSTQ_SQ_STAT, Table 12.11
def W.HOSTQ_SQ_STAT : FRef := ⟨.hostq, 0x100C, 32, 65536, 31, 0⟩
def R.HOSTQ_SQ_STAT_STATE : FRef := ⟨.hostq, 0x100C, 32, 65536, 31, 30⟩
def R.HOSTQ_SQ_STAT_DOMAIN : FRef := ⟨.hostq, 0x100C, 32, 65536, 29, 27⟩
def R.HOSTQ_SQ_STAT_OUTSTANDING : FRef := ⟨.hostq, 0x100C, 32, 65536, 26, 20⟩
def R.HOSTQ_SQ_STAT_DB_BAD : FRef := ⟨.hostq, 0x100C, 32, 65536, 19, 19⟩
def R.HOSTQ_SQ_STAT_ERR : FRef := ⟨.hostq, 0x100C, 32, 65536, 18, 16⟩
def R.HOSTQ_SQ_STAT_HEAD : FRef := ⟨.hostq, 0x100C, 32, 65536, 11, 0⟩
-- HOSTQ_CQ_BASE_LO, Table 12.11
def W.HOSTQ_CQ_BASE_LO : FRef := ⟨.hostq, 0x2000, 32, 65536, 31, 0⟩
def R.HOSTQ_CQ_BASE_LO_ADDR : FRef := ⟨.hostq, 0x2000, 32, 65536, 31, 12⟩
-- HOSTQ_CQ_BASE_HI, Table 12.11
def W.HOSTQ_CQ_BASE_HI : FRef := ⟨.hostq, 0x2004, 32, 65536, 31, 0⟩
def R.HOSTQ_CQ_BASE_HI_ADDR : FRef := ⟨.hostq, 0x2004, 32, 65536, 31, 0⟩
-- HOSTQ_CQ_CFG, Table 12.11
def W.HOSTQ_CQ_CFG : FRef := ⟨.hostq, 0x2008, 32, 65536, 31, 0⟩
def R.HOSTQ_CQ_CFG_EN : FRef := ⟨.hostq, 0x2008, 32, 65536, 31, 31⟩
def R.HOSTQ_CQ_CFG_SIZE : FRef := ⟨.hostq, 0x2008, 32, 65536, 30, 27⟩
def R.HOSTQ_CQ_CFG_VEC : FRef := ⟨.hostq, 0x2008, 32, 65536, 26, 22⟩
def R.HOSTQ_CQ_CFG_IRQ_CNT : FRef := ⟨.hostq, 0x2008, 32, 65536, 21, 14⟩
def R.HOSTQ_CQ_CFG_IRQ_TIME : FRef := ⟨.hostq, 0x2008, 32, 65536, 13, 4⟩
-- HOSTQ_CQ_STAT, Table 12.11
def W.HOSTQ_CQ_STAT : FRef := ⟨.hostq, 0x200C, 32, 65536, 31, 0⟩
def R.HOSTQ_CQ_STAT_STATE : FRef := ⟨.hostq, 0x200C, 32, 65536, 31, 30⟩
def R.HOSTQ_CQ_STAT_DOMAIN : FRef := ⟨.hostq, 0x200C, 32, 65536, 29, 27⟩
def R.HOSTQ_CQ_STAT_PHASE : FRef := ⟨.hostq, 0x200C, 32, 65536, 26, 26⟩
def R.HOSTQ_CQ_STAT_FULL : FRef := ⟨.hostq, 0x200C, 32, 65536, 25, 25⟩
def R.HOSTQ_CQ_STAT_DB_BAD : FRef := ⟨.hostq, 0x200C, 32, 65536, 24, 24⟩
def R.HOSTQ_CQ_STAT_HEAD : FRef := ⟨.hostq, 0x200C, 32, 65536, 23, 12⟩
def R.HOSTQ_CQ_STAT_TAIL : FRef := ⟨.hostq, 0x200C, 32, 65536, 11, 0⟩
-- NET_CTL, Table 13.6
def W.NET_CTL : FRef := ⟨.net, 0x0, 0, 0, 31, 0⟩
def R.NET_CTL_EN : FRef := ⟨.net, 0x0, 0, 0, 31, 31⟩
def R.NET_CTL_PTP_EN : FRef := ⟨.net, 0x0, 0, 0, 30, 30⟩
-- NET_STAT, Table 13.6
def W.NET_STAT : FRef := ⟨.net, 0x4, 0, 0, 31, 0⟩
def R.NET_STAT_STATE : FRef := ⟨.net, 0x4, 0, 0, 31, 30⟩
def R.NET_STAT_GM : FRef := ⟨.net, 0x4, 0, 0, 29, 29⟩
def R.NET_STAT_LINK1 : FRef := ⟨.net, 0x4, 0, 0, 28, 28⟩
def R.NET_STAT_LINK0 : FRef := ⟨.net, 0x4, 0, 0, 27, 27⟩
def R.NET_STAT_PS1 : FRef := ⟨.net, 0x4, 0, 0, 26, 24⟩
def R.NET_STAT_PS0 : FRef := ⟨.net, 0x4, 0, 0, 23, 21⟩
def R.NET_STAT_STEPS_REMOVED : FRef := ⟨.net, 0x4, 0, 0, 20, 13⟩
-- NET_NODE, Table 13.6
def W.NET_NODE : FRef := ⟨.net, 0x8, 0, 0, 31, 0⟩
def R.NET_NODE_NODE_ID : FRef := ⟨.net, 0x8, 0, 0, 17, 0⟩
-- NET_STEP_STAT, Table 13.6
def W.NET_STEP_STAT : FRef := ⟨.net, 0xC, 0, 0, 31, 0⟩
def R.NET_STEP_STAT_STEPS : FRef := ⟨.net, 0xC, 0, 0, 31, 16⟩
def R.NET_STEP_STAT_FORCED : FRef := ⟨.net, 0xC, 0, 0, 0, 0⟩
-- NET_NTIME_LO, Table 13.6
def W.NET_NTIME_LO : FRef := ⟨.net, 0x10, 0, 0, 31, 0⟩
def R.NET_NTIME_LO_TIME_LO : FRef := ⟨.net, 0x10, 0, 0, 31, 0⟩
-- NET_NTIME_HI, Table 13.6
def W.NET_NTIME_HI : FRef := ⟨.net, 0x14, 0, 0, 31, 0⟩
def R.NET_NTIME_HI_TIME_HI : FRef := ⟨.net, 0x14, 0, 0, 31, 0⟩
-- NET_OFFSET, Table 13.6
def W.NET_OFFSET : FRef := ⟨.net, 0x18, 0, 0, 31, 0⟩
def R.NET_OFFSET_OFFSET : FRef := ⟨.net, 0x18, 0, 0, 31, 0⟩
-- NET_FREQ, Table 13.6
def W.NET_FREQ : FRef := ⟨.net, 0x1C, 0, 0, 31, 0⟩
def R.NET_FREQ_FREQ : FRef := ⟨.net, 0x1C, 0, 0, 31, 0⟩
-- NET_TIME_SET_LO, Table 13.6
def W.NET_TIME_SET_LO : FRef := ⟨.net, 0x20, 0, 0, 31, 0⟩
def R.NET_TIME_SET_LO_TIME : FRef := ⟨.net, 0x20, 0, 0, 31, 0⟩
-- NET_TIME_SET_HI, Table 13.6
def W.NET_TIME_SET_HI : FRef := ⟨.net, 0x24, 0, 0, 31, 0⟩
def R.NET_TIME_SET_HI_TIME : FRef := ⟨.net, 0x24, 0, 0, 31, 0⟩
-- NET_TIME_CMD, Table 13.6
def W.NET_TIME_CMD : FRef := ⟨.net, 0x28, 0, 0, 31, 0⟩
def R.NET_TIME_CMD_SET : FRef := ⟨.net, 0x28, 0, 0, 31, 31⟩
-- NET_PTP_CFG, Table 13.6
def W.NET_PTP_CFG : FRef := ⟨.net, 0x40, 0, 0, 31, 0⟩
def R.NET_PTP_CFG_DOMAIN : FRef := ⟨.net, 0x40, 0, 0, 31, 24⟩
def R.NET_PTP_CFG_PROFILE : FRef := ⟨.net, 0x40, 0, 0, 23, 23⟩
def R.NET_PTP_CFG_BC : FRef := ⟨.net, 0x40, 0, 0, 22, 22⟩
def R.NET_PTP_CFG_OC_PORT : FRef := ⟨.net, 0x40, 0, 0, 21, 21⟩
def R.NET_PTP_CFG_TWO_STEP : FRef := ⟨.net, 0x40, 0, 0, 20, 20⟩
def R.NET_PTP_CFG_P2P : FRef := ⟨.net, 0x40, 0, 0, 19, 19⟩
def R.NET_PTP_CFG_UDP : FRef := ⟨.net, 0x40, 0, 0, 18, 18⟩
def R.NET_PTP_CFG_LOG_SYNC : FRef := ⟨.net, 0x40, 0, 0, 17, 14⟩
def R.NET_PTP_CFG_LOG_ANN : FRef := ⟨.net, 0x40, 0, 0, 13, 10⟩
def R.NET_PTP_CFG_ANN_TO : FRef := ⟨.net, 0x40, 0, 0, 9, 7⟩
def R.NET_PTP_CFG_SLAVE_ONLY : FRef := ⟨.net, 0x40, 0, 0, 6, 6⟩
def R.NET_PTP_CFG_LOG_PDELAY : FRef := ⟨.net, 0x40, 0, 0, 5, 2⟩
-- NET_PTP_DS, Table 13.6
def W.NET_PTP_DS : FRef := ⟨.net, 0x44, 0, 0, 31, 0⟩
def R.NET_PTP_DS_PRIORITY1 : FRef := ⟨.net, 0x44, 0, 0, 31, 24⟩
def R.NET_PTP_DS_PRIORITY2 : FRef := ⟨.net, 0x44, 0, 0, 23, 16⟩
def R.NET_PTP_DS_CLASS : FRef := ⟨.net, 0x44, 0, 0, 15, 8⟩
-- NET_SERVO, Table 13.6
def W.NET_SERVO : FRef := ⟨.net, 0x48, 0, 0, 31, 0⟩
def R.NET_SERVO_KP : FRef := ⟨.net, 0x48, 0, 0, 31, 16⟩
def R.NET_SERVO_KI : FRef := ⟨.net, 0x48, 0, 0, 15, 0⟩
-- NET_SERVO_LIM, Table 13.6
def W.NET_SERVO_LIM : FRef := ⟨.net, 0x4C, 0, 0, 31, 0⟩
def R.NET_SERVO_LIM_SLEW : FRef := ⟨.net, 0x4C, 0, 0, 31, 16⟩
def R.NET_SERVO_LIM_LOCK_THR : FRef := ⟨.net, 0x4C, 0, 0, 15, 0⟩
-- NET_WAKE_CFG, Table 13.6
def W.NET_WAKE_CFG : FRef := ⟨.net, 0x50, 0, 0, 31, 0⟩
def R.NET_WAKE_CFG_WINDOW : FRef := ⟨.net, 0x50, 0, 0, 31, 20⟩
def R.NET_WAKE_CFG_SYNC_TO : FRef := ⟨.net, 0x50, 0, 0, 19, 10⟩
-- NET_WAKE_STAT, Table 13.6
def W.NET_WAKE_STAT : FRef := ⟨.net, 0x54, 0, 0, 31, 0⟩
def R.NET_WAKE_STAT_DONE : FRef := ⟨.net, 0x54, 0, 0, 31, 31⟩
def R.NET_WAKE_STAT_SYNCED : FRef := ⟨.net, 0x54, 0, 0, 30, 30⟩
def R.NET_WAKE_STAT_HASH : FRef := ⟨.net, 0x54, 0, 0, 15, 0⟩
-- NET_PORT_CFG, Table 13.7
def W.NET_PORT_CFG : FRef := ⟨.net, 0x100, 32, 0, 31, 0⟩
def R.NET_PORT_CFG_EN : FRef := ⟨.net, 0x100, 32, 0, 31, 31⟩
def R.NET_PORT_CFG_MODE : FRef := ⟨.net, 0x100, 32, 0, 30, 29⟩
def R.NET_PORT_CFG_PTP : FRef := ⟨.net, 0x100, 32, 0, 28, 28⟩
def R.NET_PORT_CFG_MSEC : FRef := ⟨.net, 0x100, 32, 0, 27, 27⟩
def R.NET_PORT_CFG_XPN : FRef := ⟨.net, 0x100, 32, 0, 26, 26⟩
def R.NET_PORT_CFG_PTP_BYPASS : FRef := ⟨.net, 0x100, 32, 0, 25, 25⟩
def R.NET_PORT_CFG_VALIDATE : FRef := ⟨.net, 0x100, 32, 0, 24, 23⟩
def R.NET_PORT_CFG_REPLAY_WIN : FRef := ⟨.net, 0x100, 32, 0, 22, 11⟩
def R.NET_PORT_CFG_KS_PRIO : FRef := ⟨.net, 0x100, 32, 0, 10, 3⟩
-- NET_PORT_MAC_LO, Table 13.7
def W.NET_PORT_MAC_LO : FRef := ⟨.net, 0x104, 32, 0, 31, 0⟩
def R.NET_PORT_MAC_LO_MAC : FRef := ⟨.net, 0x104, 32, 0, 31, 0⟩
-- NET_PORT_MAC_HI, Table 13.7
def W.NET_PORT_MAC_HI : FRef := ⟨.net, 0x108, 32, 0, 31, 0⟩
def R.NET_PORT_MAC_HI_MAC : FRef := ⟨.net, 0x108, 32, 0, 15, 0⟩
-- NET_PORT_LAT, Table 13.7
def W.NET_PORT_LAT : FRef := ⟨.net, 0x10C, 32, 0, 31, 0⟩
def R.NET_PORT_LAT_TX_LAT : FRef := ⟨.net, 0x10C, 32, 0, 31, 16⟩
def R.NET_PORT_LAT_RX_LAT : FRef := ⟨.net, 0x10C, 32, 0, 15, 0⟩
-- NET_PORT_ASYM, Table 13.7
def W.NET_PORT_ASYM : FRef := ⟨.net, 0x110, 32, 0, 31, 0⟩
def R.NET_PORT_ASYM_ASYM : FRef := ⟨.net, 0x110, 32, 0, 15, 0⟩
-- NET_PORT_DELAY, Table 13.7
def W.NET_PORT_DELAY : FRef := ⟨.net, 0x114, 32, 0, 31, 0⟩
def R.NET_PORT_DELAY_DELAY : FRef := ⟨.net, 0x114, 32, 0, 31, 0⟩
-- NET_PORT_STAT, Table 13.7
def W.NET_PORT_STAT : FRef := ⟨.net, 0x118, 32, 0, 31, 0⟩
def R.NET_PORT_STAT_LINK : FRef := ⟨.net, 0x118, 32, 0, 31, 31⟩
def R.NET_PORT_STAT_PSTATE : FRef := ⟨.net, 0x118, 32, 0, 30, 28⟩
def R.NET_PORT_STAT_SPEED : FRef := ⟨.net, 0x118, 32, 0, 27, 26⟩
def R.NET_PORT_STAT_SA_TX : FRef := ⟨.net, 0x118, 32, 0, 25, 25⟩
def R.NET_PORT_STAT_RX_DROP_SEEN : FRef := ⟨.net, 0x118, 32, 0, 24, 24⟩
def R.NET_PORT_STAT_MSEC_BAD_SEEN : FRef := ⟨.net, 0x118, 32, 0, 23, 23⟩
-- NET_PORT_CNT, Table 13.7
def W.NET_PORT_CNT : FRef := ⟨.net, 0x11C, 32, 0, 31, 0⟩
def R.NET_PORT_CNT_RX_DROP : FRef := ⟨.net, 0x11C, 32, 0, 31, 16⟩
def R.NET_PORT_CNT_MSEC_BAD : FRef := ⟨.net, 0x11C, 32, 0, 15, 0⟩
-- NET_LQ_CFG, Table 13.7
def W.NET_LQ_CFG : FRef := ⟨.net, 0x200, 8, 0, 31, 0⟩
def R.NET_LQ_CFG_EN : FRef := ⟨.net, 0x200, 8, 0, 31, 31⟩
def R.NET_LQ_CFG_DOMAIN : FRef := ⟨.net, 0x200, 8, 0, 30, 28⟩
def R.NET_LQ_CFG_ROUTER : FRef := ⟨.net, 0x200, 8, 0, 27, 23⟩
def R.NET_LQ_CFG_LK : FRef := ⟨.net, 0x200, 8, 0, 22, 19⟩
def R.NET_LQ_CFG_LATE_TOL : FRef := ⟨.net, 0x200, 8, 0, 18, 7⟩
-- NET_LQ_STAT, Table 13.7
def W.NET_LQ_STAT : FRef := ⟨.net, 0x204, 8, 0, 31, 0⟩
def R.NET_LQ_STAT_FILL : FRef := ⟨.net, 0x204, 8, 0, 31, 26⟩
def R.NET_LQ_STAT_LATE_SEEN : FRef := ⟨.net, 0x204, 8, 0, 25, 25⟩
def R.NET_LQ_STAT_DROP_SEEN : FRef := ⟨.net, 0x204, 8, 0, 24, 24⟩
def R.NET_LQ_STAT_LATE_CNT : FRef := ⟨.net, 0x204, 8, 0, 15, 0⟩
-- NET_RXF, Table 13.7
def W.NET_RXF : FRef := ⟨.net, 0x300, 8, 0, 31, 0⟩
def R.NET_RXF_EN : FRef := ⟨.net, 0x300, 8, 0, 31, 31⟩
def R.NET_RXF_PORTS : FRef := ⟨.net, 0x300, 8, 0, 30, 29⟩
def R.NET_RXF_VLAN_EN : FRef := ⟨.net, 0x300, 8, 0, 28, 28⟩
def R.NET_RXF_VID : FRef := ⟨.net, 0x300, 8, 0, 27, 16⟩
def R.NET_RXF_ETYPE : FRef := ⟨.net, 0x300, 8, 0, 15, 0⟩
-- NET_RXF_DST, Table 13.7
def W.NET_RXF_DST : FRef := ⟨.net, 0x304, 8, 0, 31, 0⟩
def R.NET_RXF_DST_ROUTER : FRef := ⟨.net, 0x304, 8, 0, 31, 27⟩
def R.NET_RXF_DST_LK : FRef := ⟨.net, 0x304, 8, 0, 26, 23⟩
-- CAN_CTL, Table 14.6
def W.CAN_CTL : FRef := ⟨.can, 0x0, 0, 0, 31, 0⟩
def R.CAN_CTL_EN : FRef := ⟨.can, 0x0, 0, 0, 31, 31⟩
def R.CAN_CTL_BUSOFF : FRef := ⟨.can, 0x0, 0, 0, 3, 0⟩
-- CAN_CFG, Table 14.6
def W.CAN_CFG : FRef := ⟨.can, 0x100, 64, 0, 31, 0⟩
def R.CAN_CFG_EN : FRef := ⟨.can, 0x100, 64, 0, 31, 31⟩
def R.CAN_CFG_OWNER : FRef := ⟨.can, 0x100, 64, 0, 30, 30⟩
def R.CAN_CFG_FD_EN : FRef := ⟨.can, 0x100, 64, 0, 29, 29⟩
def R.CAN_CFG_BRS_EN : FRef := ⟨.can, 0x100, 64, 0, 28, 28⟩
def R.CAN_CFG_LOM : FRef := ⟨.can, 0x100, 64, 0, 27, 27⟩
def R.CAN_CFG_PXE : FRef := ⟨.can, 0x100, 64, 0, 26, 26⟩
-- CAN_NBT, Table 14.6
def W.CAN_NBT : FRef := ⟨.can, 0x104, 64, 0, 31, 0⟩
def R.CAN_NBT_NBRP : FRef := ⟨.can, 0x104, 64, 0, 31, 27⟩
def R.CAN_NBT_NTSEG1 : FRef := ⟨.can, 0x104, 64, 0, 26, 19⟩
def R.CAN_NBT_NTSEG2 : FRef := ⟨.can, 0x104, 64, 0, 18, 12⟩
def R.CAN_NBT_NSJW : FRef := ⟨.can, 0x104, 64, 0, 11, 5⟩
-- CAN_DBT, Table 14.6
def W.CAN_DBT : FRef := ⟨.can, 0x108, 64, 0, 31, 0⟩
def R.CAN_DBT_DBRP : FRef := ⟨.can, 0x108, 64, 0, 31, 27⟩
def R.CAN_DBT_DTSEG1 : FRef := ⟨.can, 0x108, 64, 0, 26, 22⟩
def R.CAN_DBT_DTSEG2 : FRef := ⟨.can, 0x108, 64, 0, 21, 18⟩
def R.CAN_DBT_DSJW : FRef := ⟨.can, 0x108, 64, 0, 17, 14⟩
-- CAN_TDC, Table 14.6
def W.CAN_TDC : FRef := ⟨.can, 0x10C, 64, 0, 31, 0⟩
def R.CAN_TDC_TDC_EN : FRef := ⟨.can, 0x10C, 64, 0, 31, 31⟩
def R.CAN_TDC_TDCO : FRef := ⟨.can, 0x10C, 64, 0, 30, 24⟩
def R.CAN_TDC_TDCV : FRef := ⟨.can, 0x10C, 64, 0, 15, 8⟩
-- CAN_REF_CFG, Table 14.6
def W.CAN_REF_CFG : FRef := ⟨.can, 0x110, 64, 0, 31, 0⟩
def R.CAN_REF_CFG_REF_EN : FRef := ⟨.can, 0x110, 64, 0, 31, 31⟩
def R.CAN_REF_CFG_REF_FMT : FRef := ⟨.can, 0x110, 64, 0, 30, 30⟩
def R.CAN_REF_CFG_REF_BRS : FRef := ⟨.can, 0x110, 64, 0, 29, 29⟩
def R.CAN_REF_CFG_REF_RUN : FRef := ⟨.can, 0x110, 64, 0, 28, 28⟩
def R.CAN_REF_CFG_REF_PERIOD : FRef := ⟨.can, 0x110, 64, 0, 23, 0⟩
-- CAN_REF_ID, Table 14.6
def W.CAN_REF_ID : FRef := ⟨.can, 0x114, 64, 0, 31, 0⟩
def R.CAN_REF_ID_REF_XTD : FRef := ⟨.can, 0x114, 64, 0, 31, 31⟩
def R.CAN_REF_ID_REF_ID : FRef := ⟨.can, 0x114, 64, 0, 28, 0⟩
-- CAN_REF_PH, Table 14.6
def W.CAN_REF_PH : FRef := ⟨.can, 0x118, 64, 0, 31, 0⟩
def R.CAN_REF_PH_REF_PHASE : FRef := ⟨.can, 0x118, 64, 0, 31, 0⟩
-- CAN_CMD, Table 14.6
def W.CAN_CMD : FRef := ⟨.can, 0x11C, 64, 0, 31, 0⟩
def R.CAN_CMD_RECOVER : FRef := ⟨.can, 0x11C, 64, 0, 31, 31⟩
-- CAN_STAT, Table 14.6
def W.CAN_STAT : FRef := ⟨.can, 0x120, 64, 0, 31, 0⟩
def R.CAN_STAT_STATE : FRef := ⟨.can, 0x120, 64, 0, 31, 30⟩
def R.CAN_STAT_PX : FRef := ⟨.can, 0x120, 64, 0, 29, 29⟩
def R.CAN_STAT_BUSOFF_SEEN : FRef := ⟨.can, 0x120, 64, 0, 28, 28⟩
def R.CAN_STAT_PASSIVE_SEEN : FRef := ⟨.can, 0x120, 64, 0, 27, 27⟩
def R.CAN_STAT_PX_SEEN : FRef := ⟨.can, 0x120, 64, 0, 26, 26⟩
def R.CAN_STAT_REF_MISS_SEEN : FRef := ⟨.can, 0x120, 64, 0, 25, 25⟩
def R.CAN_STAT_UNM_SEEN : FRef := ⟨.can, 0x120, 64, 0, 24, 24⟩
-- CAN_ERR, Table 14.6
def W.CAN_ERR : FRef := ⟨.can, 0x124, 64, 0, 31, 0⟩
def R.CAN_ERR_TEC : FRef := ⟨.can, 0x124, 64, 0, 31, 24⟩
def R.CAN_ERR_REC : FRef := ⟨.can, 0x124, 64, 0, 23, 16⟩
def R.CAN_ERR_LEC : FRef := ⟨.can, 0x124, 64, 0, 15, 13⟩
def R.CAN_ERR_DLEC : FRef := ⟨.can, 0x124, 64, 0, 12, 10⟩
-- CAN_CNT, Table 14.6
def W.CAN_CNT : FRef := ⟨.can, 0x128, 64, 0, 31, 0⟩
def R.CAN_CNT_RX_UNMATCHED : FRef := ⟨.can, 0x128, 64, 0, 31, 16⟩
def R.CAN_CNT_REF_MISSED : FRef := ⟨.can, 0x128, 64, 0, 15, 0⟩
-- CAN_OBJ_CFG, Table 14.7
def W.CAN_OBJ_CFG : FRef := ⟨.can, 0x1000, 16, 0, 31, 0⟩
def R.CAN_OBJ_CFG_EN : FRef := ⟨.can, 0x1000, 16, 0, 31, 31⟩
def R.CAN_OBJ_CFG_DIR : FRef := ⟨.can, 0x1000, 16, 0, 30, 30⟩
def R.CAN_OBJ_CFG_DOMAIN : FRef := ⟨.can, 0x1000, 16, 0, 29, 27⟩
def R.CAN_OBJ_CFG_ROUTER : FRef := ⟨.can, 0x1000, 16, 0, 26, 22⟩
def R.CAN_OBJ_CFG_LK : FRef := ⟨.can, 0x1000, 16, 0, 21, 18⟩
def R.CAN_OBJ_CFG_FDF_OK : FRef := ⟨.can, 0x1000, 16, 0, 17, 17⟩
def R.CAN_OBJ_CFG_CLS_OK : FRef := ⟨.can, 0x1000, 16, 0, 16, 16⟩
def R.CAN_OBJ_CFG_ONE_SHOT : FRef := ⟨.can, 0x1000, 16, 0, 15, 15⟩
def R.CAN_OBJ_CFG_N_NOACK : FRef := ⟨.can, 0x1000, 16, 0, 14, 10⟩
def R.CAN_OBJ_CFG_ID_COLL_LIMIT : FRef := ⟨.can, 0x1000, 16, 0, 9, 6⟩
-- CAN_OBJ_ID, Table 14.7
def W.CAN_OBJ_ID : FRef := ⟨.can, 0x1004, 16, 0, 31, 0⟩
def R.CAN_OBJ_ID_XTD : FRef := ⟨.can, 0x1004, 16, 0, 31, 31⟩
def R.CAN_OBJ_ID_ID : FRef := ⟨.can, 0x1004, 16, 0, 28, 0⟩
-- CAN_OBJ_MASK, Table 14.7
def W.CAN_OBJ_MASK : FRef := ⟨.can, 0x1008, 16, 0, 31, 0⟩
def R.CAN_OBJ_MASK_MASK : FRef := ⟨.can, 0x1008, 16, 0, 28, 0⟩
-- CAN_OBJ_STAT, Table 14.7
def W.CAN_OBJ_STAT : FRef := ⟨.can, 0x100C, 16, 0, 31, 0⟩
def R.CAN_OBJ_STAT_NO_PEER : FRef := ⟨.can, 0x100C, 16, 0, 31, 31⟩
def R.CAN_OBJ_STAT_ID_COLL : FRef := ⟨.can, 0x100C, 16, 0, 30, 30⟩
def R.CAN_OBJ_STAT_LOST_SEEN : FRef := ⟨.can, 0x100C, 16, 0, 29, 29⟩
def R.CAN_OBJ_STAT_FILL : FRef := ⟨.can, 0x100C, 16, 0, 28, 26⟩
def R.CAN_OBJ_STAT_COLL_CNT : FRef := ⟨.can, 0x100C, 16, 0, 25, 21⟩
def R.CAN_OBJ_STAT_NOACK_CNT : FRef := ⟨.can, 0x100C, 16, 0, 20, 16⟩
def R.CAN_OBJ_STAT_CNT : FRef := ⟨.can, 0x100C, 16, 0, 15, 0⟩
-- CLK_CTL, Table 15.7
def W.CLK_CTL : FRef := ⟨.clk, 0x0, 0, 0, 31, 0⟩
def R.CLK_CTL_BACKUP_EN : FRef := ⟨.clk, 0x0, 0, 0, 31, 31⟩
def R.CLK_CTL_REVERT : FRef := ⟨.clk, 0x0, 0, 0, 30, 30⟩
def R.CLK_CTL_SYNC_EN : FRef := ⟨.clk, 0x0, 0, 0, 29, 29⟩
def R.CLK_CTL_SYNC_TO : FRef := ⟨.clk, 0x0, 0, 0, 28, 22⟩
-- CLK_STAT, Table 15.7
def W.CLK_STAT : FRef := ⟨.clk, 0x4, 0, 0, 31, 0⟩
def R.CLK_STAT_STRAP : FRef := ⟨.clk, 0x4, 0, 0, 31, 31⟩
def R.CLK_STAT_REF_ACTIVE : FRef := ⟨.clk, 0x4, 0, 0, 30, 30⟩
def R.CLK_STAT_REFCLK_OK : FRef := ⟨.clk, 0x4, 0, 0, 29, 29⟩
def R.CLK_STAT_XTAL_OK : FRef := ⟨.clk, 0x4, 0, 0, 28, 28⟩
def R.CLK_STAT_NOREF : FRef := ⟨.clk, 0x4, 0, 0, 27, 27⟩
-- CLK_SYNC_STAT, Table 15.7
def W.CLK_SYNC_STAT : FRef := ⟨.clk, 0x8, 0, 0, 31, 0⟩
def R.CLK_SYNC_STAT_SYNCED : FRef := ⟨.clk, 0x8, 0, 0, 31, 31⟩
def R.CLK_SYNC_STAT_TIMEOUT : FRef := ⟨.clk, 0x8, 0, 0, 30, 30⟩
def R.CLK_SYNC_STAT_SYNC_SEEN : FRef := ⟨.clk, 0x8, 0, 0, 29, 29⟩
def R.CLK_SYNC_STAT_SYNC_PH : FRef := ⟨.clk, 0x8, 0, 0, 28, 26⟩
-- CLK_PLL_CFG, Table 15.7
def W.CLK_PLL_CFG : FRef := ⟨.clk, 0x10, 16, 0, 31, 0⟩
def R.CLK_PLL_CFG_INIT_SLOT : FRef := ⟨.clk, 0x10, 16, 0, 31, 29⟩
def R.CLK_PLL_CFG_BACKUP_SLOT : FRef := ⟨.clk, 0x10, 16, 0, 28, 26⟩
-- CLK_PLL_STAT, Table 15.7
def W.CLK_PLL_STAT : FRef := ⟨.clk, 0x14, 16, 0, 31, 0⟩
def R.CLK_PLL_STAT_STATE : FRef := ⟨.clk, 0x14, 16, 0, 31, 30⟩
def R.CLK_PLL_STAT_SLOT : FRef := ⟨.clk, 0x14, 16, 0, 29, 27⟩
def R.CLK_PLL_STAT_FREQ_CLAMP : FRef := ⟨.clk, 0x14, 16, 0, 26, 26⟩
def R.CLK_PLL_STAT_LOCK_LOST_SEEN : FRef := ⟨.clk, 0x14, 16, 0, 25, 25⟩
def R.CLK_PLL_STAT_HOLD_SEEN : FRef := ⟨.clk, 0x14, 16, 0, 24, 24⟩
-- CLK_PLL_DIV, Table 15.7
def W.CLK_PLL_DIV : FRef := ⟨.clk, 0x18, 16, 0, 31, 0⟩
def R.CLK_PLL_DIV_N : FRef := ⟨.clk, 0x18, 16, 0, 31, 24⟩
def R.CLK_PLL_DIV_FRAC : FRef := ⟨.clk, 0x18, 16, 0, 23, 0⟩
-- CLK_PLL_CNT, Table 15.7
def W.CLK_PLL_CNT : FRef := ⟨.clk, 0x1C, 16, 0, 31, 0⟩
def R.CLK_PLL_CNT_HOLDOVERS : FRef := ⟨.clk, 0x1C, 16, 0, 31, 16⟩
def R.CLK_PLL_CNT_HOPS : FRef := ⟨.clk, 0x1C, 16, 0, 15, 0⟩
-- CLK_SLOT_A, Table 15.7
def W.CLK_SLOT_A : FRef := ⟨.clk, 0x100, 64, 8, 31, 0⟩
def R.CLK_SLOT_A_VALID : FRef := ⟨.clk, 0x100, 64, 8, 31, 31⟩
def R.CLK_SLOT_A_REFSEL : FRef := ⟨.clk, 0x100, 64, 8, 30, 30⟩
def R.CLK_SLOT_A_N : FRef := ⟨.clk, 0x100, 64, 8, 29, 22⟩
def R.CLK_SLOT_A_BAND : FRef := ⟨.clk, 0x100, 64, 8, 21, 16⟩
-- CLK_SLOT_F, Table 15.7
def W.CLK_SLOT_F : FRef := ⟨.clk, 0x104, 64, 8, 31, 0⟩
def R.CLK_SLOT_F_FRAC : FRef := ⟨.clk, 0x104, 64, 8, 23, 0⟩
-- CLK_POD, Table 15.7
def W.CLK_POD : FRef := ⟨.clk, 0x200, 4, 0, 31, 0⟩
def R.CLK_POD_MHZ : FRef := ⟨.clk, 0x200, 4, 0, 31, 22⟩
def R.CLK_POD_KHZ : FRef := ⟨.clk, 0x200, 4, 0, 19, 0⟩
-- CLK_POD_REQ, Table 15.7
def W.CLK_POD_REQ : FRef := ⟨.clk, 0x280, 0, 0, 31, 0⟩
def R.CLK_POD_REQ_GO : FRef := ⟨.clk, 0x280, 0, 0, 31, 31⟩
def R.CLK_POD_REQ_POD : FRef := ⟨.clk, 0x280, 0, 0, 30, 26⟩
def R.CLK_POD_REQ_MHZ : FRef := ⟨.clk, 0x280, 0, 0, 25, 16⟩
-- CLK_POD_REQ_STAT, Table 15.7
def W.CLK_POD_REQ_STAT : FRef := ⟨.clk, 0x284, 0, 0, 31, 0⟩
def R.CLK_POD_REQ_STAT_BUSY : FRef := ⟨.clk, 0x284, 0, 0, 31, 31⟩
def R.CLK_POD_REQ_STAT_RESULT : FRef := ⟨.clk, 0x284, 0, 0, 30, 28⟩
def R.CLK_POD_REQ_STAT_DONE : FRef := ⟨.clk, 0x284, 0, 0, 27, 27⟩
-- REL_CTL, Table 16.6
def W.REL_CTL : FRef := ⟨.rel, 0x0, 0, 0, 31, 0⟩
def R.REL_CTL_EN : FRef := ⟨.rel, 0x0, 0, 0, 31, 31⟩
def R.REL_CTL_SCRUB_EN : FRef := ⟨.rel, 0x0, 0, 0, 30, 30⟩
def R.REL_CTL_BIST_EN : FRef := ⟨.rel, 0x0, 0, 0, 29, 29⟩
def R.REL_CTL_LANE_EN : FRef := ⟨.rel, 0x0, 0, 0, 28, 28⟩
def R.REL_CTL_BIST_PER : FRef := ⟨.rel, 0x0, 0, 0, 27, 18⟩
def R.REL_CTL_SCRUB_PER : FRef := ⟨.rel, 0x0, 0, 0, 17, 6⟩
-- REL_THR, Table 16.6
def W.REL_THR : FRef := ⟨.rel, 0x4, 0, 0, 31, 0⟩
def R.REL_THR_LANE_THR : FRef := ⟨.rel, 0x4, 0, 0, 31, 24⟩
def R.REL_THR_AGE_WARN : FRef := ⟨.rel, 0x4, 0, 0, 23, 16⟩
def R.REL_THR_AGE_LIMIT : FRef := ⟨.rel, 0x4, 0, 0, 15, 8⟩
-- REL_STAT, Table 16.6
def W.REL_STAT : FRef := ⟨.rel, 0x8, 0, 0, 31, 0⟩
def R.REL_STAT_BOOT_BIST_DONE : FRef := ⟨.rel, 0x8, 0, 0, 31, 31⟩
def R.REL_STAT_RECORD_OK : FRef := ⟨.rel, 0x8, 0, 0, 30, 30⟩
def R.REL_STAT_SPARES_LEFT : FRef := ⟨.rel, 0x8, 0, 0, 23, 16⟩
def R.REL_STAT_UNBACKED : FRef := ⟨.rel, 0x8, 0, 0, 15, 8⟩
def R.REL_STAT_CE_SEEN : FRef := ⟨.rel, 0x8, 0, 0, 7, 7⟩
def R.REL_STAT_UE_SEEN : FRef := ⟨.rel, 0x8, 0, 0, 6, 6⟩
def R.REL_STAT_LANE_SEEN : FRef := ⟨.rel, 0x8, 0, 0, 5, 5⟩
def R.REL_STAT_BIST_FAIL_SEEN : FRef := ⟨.rel, 0x8, 0, 0, 4, 4⟩
def R.REL_STAT_AGE_SEEN : FRef := ⟨.rel, 0x8, 0, 0, 3, 3⟩
-- REL_CE_CNT, Table 16.6
def W.REL_CE_CNT : FRef := ⟨.rel, 0x10, 0, 0, 31, 0⟩
def R.REL_CE_CNT_CE : FRef := ⟨.rel, 0x10, 0, 0, 31, 0⟩
-- REL_UE_CNT, Table 16.6
def W.REL_UE_CNT : FRef := ⟨.rel, 0x14, 0, 0, 31, 0⟩
def R.REL_UE_CNT_UE : FRef := ⟨.rel, 0x14, 0, 0, 31, 0⟩
-- REL_LAST_ERR, Table 16.6
def W.REL_LAST_ERR : FRef := ⟨.rel, 0x18, 0, 0, 31, 0⟩
def R.REL_LAST_ERR_UE : FRef := ⟨.rel, 0x18, 0, 0, 31, 31⟩
def R.REL_LAST_ERR_MEM : FRef := ⟨.rel, 0x18, 0, 0, 30, 28⟩
def R.REL_LAST_ERR_POD : FRef := ⟨.rel, 0x18, 0, 0, 27, 23⟩
def R.REL_LAST_ERR_UNIT : FRef := ⟨.rel, 0x18, 0, 0, 22, 19⟩
def R.REL_LAST_ERR_WORD : FRef := ⟨.rel, 0x18, 0, 0, 18, 0⟩
-- REL_BIST, Table 16.6
def W.REL_BIST : FRef := ⟨.rel, 0x20, 0, 0, 31, 0⟩
def R.REL_BIST_PHASE : FRef := ⟨.rel, 0x20, 0, 0, 31, 30⟩
def R.REL_BIST_POD : FRef := ⟨.rel, 0x20, 0, 0, 29, 25⟩
def R.REL_BIST_K : FRef := ⟨.rel, 0x20, 0, 0, 24, 21⟩
def R.REL_BIST_WALKS : FRef := ⟨.rel, 0x20, 0, 0, 15, 0⟩
-- REL_LIFE, Table 16.6
def W.REL_LIFE : FRef := ⟨.rel, 0x30, 0, 0, 31, 0⟩
def R.REL_LIFE_HOURS : FRef := ⟨.rel, 0x30, 0, 0, 31, 0⟩
-- REL_TJ, Table 16.6
def W.REL_TJ : FRef := ⟨.rel, 0x34, 0, 0, 31, 0⟩
def R.REL_TJ_TJ_MAX : FRef := ⟨.rel, 0x34, 0, 0, 31, 16⟩
def R.REL_TJ_TJ_NOW : FRef := ⟨.rel, 0x34, 0, 0, 15, 0⟩
-- REL_CMD, Table 16.6
def W.REL_CMD : FRef := ⟨.rel, 0x40, 0, 0, 31, 0⟩
def R.REL_CMD_TEST : FRef := ⟨.rel, 0x40, 0, 0, 31, 31⟩
def R.REL_CMD_POD : FRef := ⟨.rel, 0x40, 0, 0, 30, 26⟩
def R.REL_CMD_LK : FRef := ⟨.rel, 0x40, 0, 0, 25, 22⟩
def R.REL_CMD_RESULT : FRef := ⟨.rel, 0x40, 0, 0, 21, 19⟩
def R.REL_CMD_DONE : FRef := ⟨.rel, 0x40, 0, 0, 18, 18⟩
-- REL_POD, Table 16.6
def W.REL_POD : FRef := ⟨.rel, 0x100, 4, 0, 31, 0⟩
def R.REL_POD_SPARE : FRef := ⟨.rel, 0x100, 4, 0, 31, 31⟩
def R.REL_POD_FAILED : FRef := ⟨.rel, 0x100, 4, 0, 30, 26⟩
def R.REL_POD_UNBACKED : FRef := ⟨.rel, 0x100, 4, 0, 25, 11⟩
def R.REL_POD_UNTESTED : FRef := ⟨.rel, 0x100, 4, 0, 10, 0⟩
-- REL_AGE, Table 16.6
def W.REL_AGE : FRef := ⟨.rel, 0x200, 4, 0, 31, 0⟩
def R.REL_AGE_SLOW : FRef := ⟨.rel, 0x200, 4, 0, 31, 20⟩
def R.REL_AGE_WARN : FRef := ⟨.rel, 0x200, 4, 0, 19, 19⟩
def R.REL_AGE_LIMIT : FRef := ⟨.rel, 0x200, 4, 0, 18, 18⟩
-- REL_LINK, Table 16.6
def W.REL_LINK : FRef := ⟨.rel, 0x400, 4, 0, 31, 0⟩
def R.REL_LINK_STATE : FRef := ⟨.rel, 0x400, 4, 0, 31, 30⟩
def R.REL_LINK_SPARES_USED : FRef := ⟨.rel, 0x400, 4, 0, 29, 28⟩
def R.REL_LINK_WIRE_A : FRef := ⟨.rel, 0x400, 4, 0, 27, 19⟩
def R.REL_LINK_WIRE_B : FRef := ⟨.rel, 0x400, 4, 0, 18, 10⟩
def R.REL_LINK_CE_HOUR : FRef := ⟨.rel, 0x400, 4, 0, 9, 0⟩
-- PWR_STAT, Table 17.5
def W.PWR_STAT : FRef := ⟨.pwr, 0x0, 0, 0, 31, 0⟩
def R.PWR_STAT_READY : FRef := ⟨.pwr, 0x0, 0, 0, 31, 31⟩
def R.PWR_STAT_PHASE : FRef := ⟨.pwr, 0x0, 0, 0, 30, 28⟩
-- PWR_RST_CAUSE, Table 17.5
def W.PWR_RST_CAUSE : FRef := ⟨.pwr, 0x4, 0, 0, 31, 0⟩
def R.PWR_RST_CAUSE_POR : FRef := ⟨.pwr, 0x4, 0, 0, 31, 31⟩
def R.PWR_RST_CAUSE_PIN : FRef := ⟨.pwr, 0x4, 0, 0, 30, 30⟩
def R.PWR_RST_CAUSE_SUPPLY : FRef := ⟨.pwr, 0x4, 0, 0, 29, 29⟩
def R.PWR_RST_CAUSE_SOFT : FRef := ⟨.pwr, 0x4, 0, 0, 28, 28⟩
def R.PWR_RST_CAUSE_RAILS : FRef := ⟨.pwr, 0x4, 0, 0, 27, 20⟩
-- PWR_SUP_STAT, Table 17.5
def W.PWR_SUP_STAT : FRef := ⟨.pwr, 0x8, 0, 0, 31, 0⟩
def R.PWR_SUP_STAT_OK : FRef := ⟨.pwr, 0x8, 0, 0, 7, 0⟩
-- PWR_RST_CMD, Table 17.5
def W.PWR_RST_CMD : FRef := ⟨.pwr, 0xC, 0, 0, 31, 0⟩
def R.PWR_RST_CMD_SYS_RST : FRef := ⟨.pwr, 0xC, 0, 0, 31, 31⟩
def R.PWR_RST_CMD_KEY : FRef := ⟨.pwr, 0xC, 0, 0, 15, 0⟩
-- PWR_TOK_CFG, Table 17.5
def W.PWR_TOK_CFG : FRef := ⟨.pwr, 0x10, 0, 0, 31, 0⟩
def R.PWR_TOK_CFG_EN : FRef := ⟨.pwr, 0x10, 0, 0, 31, 31⟩
def R.PWR_TOK_CFG_WAKE_EN : FRef := ⟨.pwr, 0x10, 0, 0, 30, 30⟩
def R.PWR_TOK_CFG_CAP : FRef := ⟨.pwr, 0x10, 0, 0, 29, 26⟩
def R.PWR_TOK_CFG_INIT : FRef := ⟨.pwr, 0x10, 0, 0, 25, 21⟩
def R.PWR_TOK_CFG_PC_COST : FRef := ⟨.pwr, 0x10, 0, 0, 20, 18⟩
def R.PWR_TOK_CFG_AUX_COST : FRef := ⟨.pwr, 0x10, 0, 0, 17, 15⟩
def R.PWR_TOK_CFG_REFILL : FRef := ⟨.pwr, 0x10, 0, 0, 14, 0⟩
-- PWR_TOK_STAT, Table 17.5
def W.PWR_TOK_STAT : FRef := ⟨.pwr, 0x14, 0, 0, 31, 0⟩
def R.PWR_TOK_STAT_LEVEL : FRef := ⟨.pwr, 0x14, 0, 0, 31, 27⟩
def R.PWR_TOK_STAT_PENDING : FRef := ⟨.pwr, 0x14, 0, 0, 26, 17⟩
def R.PWR_TOK_STAT_OPEN : FRef := ⟨.pwr, 0x14, 0, 0, 16, 16⟩
def R.PWR_TOK_STAT_GRANTS : FRef := ⟨.pwr, 0x14, 0, 0, 15, 0⟩
-- PWR_TOK_LAST, Table 17.5
def W.PWR_TOK_LAST : FRef := ⟨.pwr, 0x18, 0, 0, 31, 0⟩
def R.PWR_TOK_LAST_REQ : FRef := ⟨.pwr, 0x18, 0, 0, 31, 22⟩
-- SYS_ID, Table 19.3
def W.SYS_ID : FRef := ⟨.sys, 0x0, 0, 0, 31, 0⟩
def R.SYS_ID_VENDOR : FRef := ⟨.sys, 0x0, 0, 0, 31, 16⟩
def R.SYS_ID_DEVICE : FRef := ⟨.sys, 0x0, 0, 0, 15, 0⟩
-- SYS_REV, Table 19.3
def W.SYS_REV : FRef := ⟨.sys, 0x4, 0, 0, 31, 0⟩
def R.SYS_REV_PART : FRef := ⟨.sys, 0x4, 0, 0, 31, 16⟩
def R.SYS_REV_SI_MAJOR : FRef := ⟨.sys, 0x4, 0, 0, 15, 12⟩
def R.SYS_REV_SI_MINOR : FRef := ⟨.sys, 0x4, 0, 0, 11, 8⟩
def R.SYS_REV_GRADE : FRef := ⟨.sys, 0x4, 0, 0, 7, 6⟩
-- SYS_STAT, Table 19.3
def W.SYS_STAT : FRef := ⟨.sys, 0x8, 0, 0, 31, 0⟩
def R.SYS_STAT_READY : FRef := ⟨.sys, 0x8, 0, 0, 31, 31⟩
def R.SYS_STAT_SEALED : FRef := ⟨.sys, 0x8, 0, 0, 30, 30⟩
def R.SYS_STAT_HELD_ANY : FRef := ⟨.sys, 0x8, 0, 0, 29, 29⟩
def R.SYS_STAT_STO_ANY : FRef := ⟨.sys, 0x8, 0, 0, 28, 28⟩
def R.SYS_STAT_FAULT_ANY : FRef := ⟨.sys, 0x8, 0, 0, 27, 27⟩
def R.SYS_STAT_FALLBACK : FRef := ⟨.sys, 0x8, 0, 0, 26, 26⟩
def R.SYS_STAT_TIME_LOCKED : FRef := ⟨.sys, 0x8, 0, 0, 25, 25⟩
def R.SYS_STAT_UE_SEEN : FRef := ⟨.sys, 0x8, 0, 0, 24, 24⟩
-- SYS_EVT_SEQ_LO, Table 19.3
def W.SYS_EVT_SEQ_LO : FRef := ⟨.sys, 0x10, 0, 0, 31, 0⟩
def R.SYS_EVT_SEQ_LO_SEQ : FRef := ⟨.sys, 0x10, 0, 0, 31, 0⟩
-- SYS_EVT_SEQ_HI, Table 19.3
def W.SYS_EVT_SEQ_HI : FRef := ⟨.sys, 0x14, 0, 0, 31, 0⟩
def R.SYS_EVT_SEQ_HI_SEQ : FRef := ⟨.sys, 0x14, 0, 0, 31, 0⟩
-- SYS_EVT_OLD_LO, Table 19.3
def W.SYS_EVT_OLD_LO : FRef := ⟨.sys, 0x18, 0, 0, 31, 0⟩
def R.SYS_EVT_OLD_LO_SEQ : FRef := ⟨.sys, 0x18, 0, 0, 31, 0⟩
-- SYS_EVT_OLD_HI, Table 19.3
def W.SYS_EVT_OLD_HI : FRef := ⟨.sys, 0x1C, 0, 0, 31, 0⟩
def R.SYS_EVT_OLD_HI_SEQ : FRef := ⟨.sys, 0x1C, 0, 0, 31, 0⟩
-- SYS_EVT_LOST, Table 19.3
def W.SYS_EVT_LOST : FRef := ⟨.sys, 0x20, 0, 0, 31, 0⟩
def R.SYS_EVT_LOST_LOST : FRef := ⟨.sys, 0x20, 0, 0, 31, 0⟩
-- SYS_EVT_PEND, Table 19.3
def W.SYS_EVT_PEND : FRef := ⟨.sys, 0x30, 0, 65536, 31, 0⟩
def R.SYS_EVT_PEND_PEND : FRef := ⟨.sys, 0x30, 0, 65536, 16, 1⟩
-- SYS_EVT_IRQ, Table 19.3
def W.SYS_EVT_IRQ : FRef := ⟨.sys, 0x34, 0, 65536, 31, 0⟩
def R.SYS_EVT_IRQ_EN : FRef := ⟨.sys, 0x34, 0, 65536, 31, 31⟩
def R.SYS_EVT_IRQ_VEC : FRef := ⟨.sys, 0x34, 0, 65536, 30, 26⟩
def R.SYS_EVT_IRQ_MASK : FRef := ⟨.sys, 0x34, 0, 65536, 16, 1⟩

/-- The reset words of block SYS that are not zero (R8; the values a log entry names where the manual says Fuse, Pin, Cause or Record). Mark: DEDUCED (log 18). -/
def resetWordsSys : List (Nat × Word) :=
  [(0x0, 0x1F3A7144),
   (0x4, 0x71441040),
   (0x8, 0x20000000)]

/-- The reset words of block HUSK that are not zero (R8; the values a log entry names where the manual says Fuse, Pin, Cause or Record). Mark: DESIGN CHOICE (log 15). -/
def resetWordsHusk : List (Nat × Word) :=
  [(0x0, 0x20000000)]

/-- The reset words of block CFG that are not zero (R8; the values a log entry names where the manual says Fuse, Pin, Cause or Record). -/
def resetWordsCfg : List (Nat × Word) :=
  []

/-- The reset words of block HOSTQ that are not zero (R8; the values a log entry names where the manual says Fuse, Pin, Cause or Record). -/
def resetWordsHostq : List (Nat × Word) :=
  []

/-- The reset words of block MEAS that are not zero (R8; the values a log entry names where the manual says Fuse, Pin, Cause or Record). -/
def resetWordsMeas : List (Nat × Word) :=
  []

/-- The reset words of block POS that are not zero (R8; the values a log entry names where the manual says Fuse, Pin, Cause or Record). -/
def resetWordsPos : List (Nat × Word) :=
  []

/-- The reset words of block LOOP that are not zero (R8; the values a log entry names where the manual says Fuse, Pin, Cause or Record). -/
def resetWordsLoop : List (Nat × Word) :=
  []

/-- The reset words of block PWM that are not zero (R8; the values a log entry names where the manual says Fuse, Pin, Cause or Record). -/
def resetWordsPwm : List (Nat × Word) :=
  []

/-- The reset words of block TRIP that are not zero (R8; the values a log entry names where the manual says Fuse, Pin, Cause or Record). -/
def resetWordsTrip : List (Nat × Word) :=
  [(0x4, 0x0FFFFFFF),
   (0x10C, 0x31040000),
   (0x11C, 0x31040000),
   (0x12C, 0x31040000),
   (0x13C, 0x31040000),
   (0x14C, 0x31040000),
   (0x15C, 0x31040000),
   (0x16C, 0x31040000),
   (0x17C, 0x31040000),
   (0x18C, 0x31040000),
   (0x19C, 0x31040000),
   (0x1AC, 0x31040000),
   (0x1BC, 0x31040000),
   (0x1CC, 0x31040000),
   (0x1DC, 0x31040000),
   (0x1EC, 0x31040000),
   (0x1FC, 0x31040000),
   (0x20C, 0x31040000),
   (0x21C, 0x31040000),
   (0x22C, 0x31040000),
   (0x23C, 0x31040000),
   (0x24C, 0x31040000),
   (0x25C, 0x31040000),
   (0x26C, 0x31040000),
   (0x27C, 0x31040000),
   (0x28C, 0x31040000),
   (0x29C, 0x31040000),
   (0x2AC, 0x31040000),
   (0x2BC, 0x31040000)]

/-- The reset words of block SAFE that are not zero (R8; the values a log entry names where the manual says Fuse, Pin, Cause or Record). -/
def resetWordsSafe : List (Nat × Word) :=
  []

/-- The reset words of block NET that are not zero (R8; the values a log entry names where the manual says Fuse, Pin, Cause or Record). -/
def resetWordsNet : List (Nat × Word) :=
  []

/-- The reset words of block CAN that are not zero (R8; the values a log entry names where the manual says Fuse, Pin, Cause or Record). -/
def resetWordsCan : List (Nat × Word) :=
  []

/-- The reset words of block CLK that are not zero (R8; the values a log entry names where the manual says Fuse, Pin, Cause or Record). Mark: DESIGN CHOICE (log 15). -/
def resetWordsClk : List (Nat × Word) :=
  [(0x200, 0x7D07A120),
   (0x204, 0x7D07A120),
   (0x208, 0x7D07A120),
   (0x20C, 0x7D07A120),
   (0x210, 0x7D07A120),
   (0x214, 0x7D07A120),
   (0x218, 0x7D07A120),
   (0x21C, 0x7D07A120),
   (0x220, 0x7D07A120),
   (0x224, 0x7D07A120),
   (0x228, 0x7D07A120),
   (0x22C, 0x7D07A120),
   (0x230, 0x7D07A120),
   (0x234, 0x7D07A120),
   (0x238, 0x7D07A120),
   (0x23C, 0x7D07A120),
   (0x240, 0x7D07A120),
   (0x244, 0x7D07A120),
   (0x248, 0x7D07A120),
   (0x24C, 0x7D07A120),
   (0x250, 0x7D07A120),
   (0x254, 0x7D07A120),
   (0x258, 0x7D07A120),
   (0x25C, 0x7D07A120)]

/-- The reset words of block REL that are not zero (R8; the values a log entry names where the manual says Fuse, Pin, Cause or Record). -/
def resetWordsRel : List (Nat × Word) :=
  []

/-- The reset words of block PWR that are not zero (R8; the values a log entry names where the manual says Fuse, Pin, Cause or Record). Mark: DESIGN CHOICE (log 15). -/
def resetWordsPwr : List (Nat × Word) :=
  [(0x4, 0xC0000000)]

/-- The reset words of block AUX that are not zero (R8; the values a log entry names where the manual says Fuse, Pin, Cause or Record). -/
def resetWordsAux : List (Nat × Word) :=
  []

end Sys2Proof.Machine
end

