-- ==== Sys2Proof/Machine/State.lean ====
section
/-! DEFINITION. The state of the ELY7144 as plain data: the register words of every block, the state behind the registers
(subsystem by subsystem), what the last command sent out, and the queue of waiting commands. -/
namespace Sys2Proof.Machine

/-- Why the machine stops with a fault. No rule of the manual stops the device: a fault of a part of it (a kernel, a half of the
safety island, a context, a ring) is a state the device goes on from, so no meaning raises this. Mark: DEDUCED (log 6). -/
inductive Fault where
  /-- Raised by no meaning. Safe: the model never stops where the device goes on. -/
  | none
  deriving DecidableEq, Repr

/-- Why a command has no meaning. Mark: DEDUCED (log 6). -/
inductive Refusal where
  /-- The dispatch raises it for a command whose meaning is not written. Safe: nothing is claimed of that command. -/
  | notModelled (mnemonic : String)
  deriving DecidableEq, Repr

/-- What a command makes the device send out, in order. -/
inductive Output where
  /-- A flit put onto the mesh. -/
  | flit (f : Flit)
  /-- A router puts the 275 bits of a flit onto the wires of a link (R24, R27). -/
  | hop (link : Nat) (wires : BitVec 275)
  /-- A flit reaches its destination: a router delivers a copy to each kernel named, or a block port takes it (Table 1.4). -/
  | arrive (f : Flit)
  /-- An MSI-X message of vector `vec` of a function (R397). -/
  | msix (fn vec : Nat)
  /-- A DMA write of bytes into host memory. -/
  | dmaWrite (fn addr : Nat) (bytes : List Byte)
  /-- The data a BAR0 read completes with. -/
  | readData (fn addr : Nat) (data : Word)
  /-- An Ethernet frame leaving a port. -/
  | ethFrame (port : Nat) (kind : Nat) (bytes : List Byte)
  /-- A CAN frame put onto a controller's bus: identifier, extended, FD, payload. -/
  | canFrame (n : Nat) (id : Nat) (xtd fd brs esi : Bool) (bytes : List Byte)
  /-- A gate or auxiliary pin takes a level: channel 0 to 143 the G pins, 144 to 167 the AX gates. -/
  | pin (chan : Nat) (level : Bool)
  /-- The clock of PIn_MA starts with a first falling edge at `at_` and a period in steps of 250 ps, or returns to idle high (R85). -/
  | ma (n : Nat) (run : Option (Instant × Nat))
  /-- EXCn_P and EXCn_N take up a sine of `num` cycles in `len` ticks, of `amp` × 0.125 V peak, or 0 V with `amp` 0 (R89 to R91). -/
  | exc (n amp num len : Nat)
  /-- A STO or SOUT pin takes a level, in the order STO_A, STO_B, SOUT0 to SOUT3. -/
  | safePin (k : Nat) (level : Bool)
  deriving DecidableEq, Repr

/-- The register words of the sixteen blocks, keyed by offset (an unlisted word is zero). A register that each function sees
separately is held at its offset + 0x1_0000 × function. Mark: DEDUCED (log 18). -/
structure Regs where
  sys : KMap Word := resetWordsSys
  husk : KMap Word := resetWordsHusk
  cfg : KMap Word := resetWordsCfg
  hostq : KMap Word := resetWordsHostq
  meas : KMap Word := resetWordsMeas
  pos : KMap Word := resetWordsPos
  loop : KMap Word := resetWordsLoop
  pwm : KMap Word := resetWordsPwm
  trip : KMap Word := resetWordsTrip
  safe : KMap Word := resetWordsSafe
  net : KMap Word := resetWordsNet
  can : KMap Word := resetWordsCan
  clk : KMap Word := resetWordsClk
  rel : KMap Word := resetWordsRel
  pwr : KMap Word := resetWordsPwr
  aux : KMap Word := resetWordsAux
  deriving DecidableEq, Repr

/-- One entry of the event log (Table 19.5). -/
structure LogEntry where
  ntime : Int
  seq : Nat
  cls : Nat
  flags : Nat
  code : Nat
  subject : Nat
  w0 : Word
  w1 : Word
  deriving DecidableEq, Repr

/-- An EVT flit waiting in the queue of SYS: its payload, the NTIME at arrival, whether NTIME was LOCKED then, and whether
events were lost before it. -/
structure QueuedEvt where
  evt : Evt
  arrival : Int
  locked : Bool
  lostBefore : Bool
  deriving DecidableEq, Repr

/-- SYS: the event log, its queue, and the rate limits of events marked 'at most once per second'. -/
structure SysSt where
  /-- Oldest first, at most 8,192 entries. -/
  log : List LogEntry := []
  queue : List QueuedEvt := []
  /-- SEQ of the next entry (R531). -/
  nextSeq : Nat := 1
  /-- Flits lost since the previous EVT_LOST entry (R533). -/
  lostNow : Nat := 0
  /-- Instant + 1 of the last post of a rate-limited event, by key. -/
  rate : KMap Nat := []
  deriving DecidableEq, Repr

/-- A session of one function, beside its HUSK_SESS registers (R313 to R315). -/
structure Session where
  /-- A REQ is accepted and its challenge is being made. -/
  wanted : Bool := false
  /-- A SUBMIT is accepted and being verified. -/
  verifying : Bool := false
  dom : Nat := 0
  user : Nat := 0
  key : Nat := 0
  chalAt : Instant := 0
  lastAct : Instant := 0
  fails : Nat := 0
  lockEnd : Instant := 0
  deriving DecidableEq, Repr

/-- A password slot of the safety record area (R306). -/
structure PwSlot where
  set : Bool := false
  salt : BitVec 128 := 0
  verifier : BitVec 384 := 0
  wrong : Nat := 0
  /-- Lockouts since the last correct password: each doubles the time. -/
  lockouts : Nat := 0
  lockEnd : Instant := 0
  deriving DecidableEq, Repr

/-- A CAK slot (R336), with the instant by which SAKs of a deleted CAK are removed. -/
structure CakSlot where
  valid : Bool := false
  cak : BitVec 256 := 0
  ckn : BitVec 256 := 0
  cknLen : Nat := 0
  port : Nat := 0
  sakDeadline : Instant := 0
  deriving DecidableEq, Repr

/-- The husk: sessions, one-time storage behind the registers (R327), keys, debug consent, erase (R311 to R339). -/
structure HuskSt where
  sess : KMap Session := []
  /-- Secrets of the Skovash test (Table 10.8): SKV_ROOT_HASH, and DUK, from which K_REC of the record areas comes. Mark: DESIGN CHOICE (log 15). -/
  skvRootHash : BitVec 384 := 0
  duk : BitVec 256 := 0
  oemRootHash : Option (BitVec 384) := none
  oemKek : Option (BitVec 256) := none
  safRootHash : Option (BitVec 384) := none
  pw : KMap PwSlot := []
  cak : KMap CakSlot := []
  consentEnd : Instant := 0
  /-- The core die is held by an erase on return (Table 10.11). -/
  eraseHeld : Bool := false
  /-- The flash areas of the erase are not yet blank (R339). -/
  eraseOpen : Bool := false
  /-- Husk policy of the image: PF0_BASE and the OEM service keys 1 to 8 (R353). -/
  pf0Base : Bool := false
  svcKeys : List (BitVec 776) := []
  /-- Husk firmware verified and running at this boot. -/
  firmware : Bool := false
  /-- Neither copy of the safety record area is authentic (R335). -/
  recordBad : Bool := false
  deriving DecidableEq, Repr

/-- PWR: reset sources and rails (R485 to R491), and the start tokens (R497 to R501). Mark: DESIGN CHOICE (log 17), DESIGN CHOICE (log 17), DEDUCED (log 76). -/
structure PwrSt where
  /-- Rails above their thresholds, bit order of Table 17.1. -/
  rails : Nat := 0xFF
  /-- PORST_N is low. -/
  porst : Bool := true
  /-- Internal reset of R485 is asserted. -/
  supplyReset : Bool := false
  /-- Software reset of R489 runs until this instant (0: none). -/
  softEnd : Instant := 0
  /-- The boot waits for its reference (R450), with what it found at release. -/
  waiting : Option BootIn := none
  /-- Waiting requests of start tokens in order: arrival tick and requester (contexts 0 to 511, 512 + x for AXx). -/
  tokens : List (Nat × Nat) := []
  /-- The instant of the next refill. -/
  refillAt : Option Instant := none
  deriving DecidableEq, Repr

/-- A write of a store word: its source in the order of R34 (32·router + port), its mask and data. -/
structure StoreOp where
  src : Nat
  mask : Word
  data : BitVec 256
  deriving DecidableEq, Repr

/-- The writes of one store word in one tick (R34), in source order, and the content of the word before them. -/
structure StoreOps where
  word : Nat
  old : BitVec 256
  writes : List StoreOp
  deriving DecidableEq, Repr

/-- The kernel sea: what the role map and the reliability manager hold of kernels and store (R16, R18, R33). Mark: DESIGN CHOICE (log 19), DESIGN CHOICE (log 19). -/
structure SeaSt where
  /-- Role codes (R349) of the logical kernels Lpp.k, at 16·pp + k; 0 is IDLE/SPARE. -/
  roles : KMap Nat := []
  /-- Store regions of the role map (R33). -/
  regions : List Region := []
  /-- The shared store, by word number (byte address ÷ 32), and the words that read uncorrectable (R32, R464). -/
  store : KMap (BitVec 256) := []
  badWords : List Nat := []
  /-- The words written in the present tick (R34): the tick, and by word number the content before it and the writes by source order. -/
  opsTick : Nat := 0
  ops : List StoreOps := []
  /-- Trackers the role map assigns to the safety island (R77). -/
  safeTrackers : List Nat := []
  /-- Words of code (0) and data (1) memory that CFG has loaded, at ((16·pod + k)·2 + memory)·16,384 + word (R350). -/
  mem : KMap Word := []
  deriving DecidableEq, Repr

/-- The output side of one link direction (R26): the flits of each priority class that wait, by input and oldest first; the input after the
one that its class served last; how many high-class flits in a row have passed while a low-class flit waited. -/
structure LinkQ where
  hi : KMap (List Flit) := []
  lo : KMap (List Flit) := []
  hiNext : Nat := 0
  loNext : Nat := 0
  run : Nat := 0
  deriving DecidableEq, Repr

/-- The mesh (R23 to R26): the links by the numbers of REL_LINK (R483). -/
structure MeshSt where
  links : KMap LinkQ := []
  deriving DecidableEq, Repr

/-- An entry of the safety change log (Table 9.6). -/
structure ChangeEntry where
  ntime : Int
  seq : Nat
  paramId : Nat
  user : Nat
  unlocked : Bool
  kind : Nat
  oldCrc : Word
  newCrc : Word
  chain : BitVec 64
  deriving DecidableEq, Repr

/-- A safety axis in one half (R299 to R301). Mark: DESIGN CHOICE (log 14). -/
structure AxHalf where
  /-- 0 STO, 1 RUN, 2 SS1: the state the half's pair holds, and the one its last RESULT told SAFE. -/
  st : Nat := 0
  told : Nat := 0
  /-- VIOL bits in the order of SAFE_AX_STAT, bit 7 SMS to bit 0 PAIR; the conditions present in the last cycle, and for how many
  cycles each has held. -/
  viol : Nat := 0
  cond : Nat := 0
  runs : KMap Nat := []
  /-- Positions of the last cycles, newest first; cycles until the estimate is valid. -/
  hist : List Rat := []
  wait : Nat := 0
  v : Rat := 0
  p : Rat := 0
  /-- The estimates exchanged at the last cycle start, and consecutive discrepant cycles. -/
  xv : Rat := 0
  xp : Rat := 0
  xok : Bool := false
  crossRun : Nat := 0
  /-- Cycles since SS1 was entered, and the speed then. -/
  ss1 : Nat := 0
  v0 : Rat := 0
  /-- Cycles since SLS became active; the extreme positions since SDI became active. -/
  sls : Option Nat := none
  sdiMax : Option Rat := none
  sdiMin : Option Rat := none
  deriving DecidableEq, Repr

/-- A safety output (R295 to R297), in the order STO_A, STO_B, SOUT0 to SOUT3. -/
structure SafeOut where
  /-- The instant of the last commanded change, samples that differ in a row. -/
  changedAt : Instant := 0
  rbRun : Nat := 0
  /-- High since this instant; time high before it since the last passing test; the test pulse that runs. -/
  highAt : Instant := 0
  highAcc : Nat := 0
  pulse : Option Instant := none
  /-- The last test passed: the time high it has set to zero, and the end of its pulse (R297). -/
  undo : Option (Nat × Instant) := none
  /-- The level of the last readback sample. -/
  pad : Bool := false
  deriving DecidableEq, Repr

/-- SAFE. -/
structure SafeSt where
  /-- The change log of the safety record area, oldest first, at most 1,024 entries (R307). -/
  changeLog : List ChangeEntry := []
  /-- The demand lines SAFE_DEM0 to SAFE_DEM7; all asserted while the island does not run (R290). -/
  dem : Nat := 255
  /-- The image carries SAFETY_FW and SAFETY_SET. -/
  present : Bool := false
  /-- The parameter set in force, 32 words per axis (R303), and the machine constants, 5 words per axis (R354). -/
  params : List Word := []
  consts : List Word := []
  /-- SHA-384 of the safety firmware. -/
  fw : BitVec 384 := 0
  /-- The staged words: user slot, words, NEW_CRC, the instant the confirmation timer ends (R304). -/
  staged : Option (Nat × List (Nat × Word) × Word × Instant) := none
  /-- An accepted set that both halves apply at the next cycle start, and the descriptor that completes then. -/
  newSet : Option (List Word × Nat) := none
  /-- The stored overlay: the CRC it is based on, and its words (R305); the CRC in force before this boot. -/
  overlay : Option (Word × List (Nat × Word)) := none
  lastCrc : Option Word := none
  /-- Channels at their demand level come with SAFE_SIN_STAT; since when two channels disagree; both at demand since DISC. -/
  disagreeAt : KMap Instant := []
  discBoth : Nat := 0
  /-- Demands latched at the cycle start. -/
  demIn : Nat := 0
  pressAt : Instant := 0
  pressVoid : Bool := false
  rstDue : Bool := false
  armedAt : Instant := 0
  /-- By half: cycles in a row without a valid cross-link message (R284). -/
  linkRun : KMap Nat := []
  /-- Tick of the last cycle start; pairs that owe a RESULT, that have evaluated, whose RESULT has arrived. -/
  cycleAt : Option Nat := none
  owed : Nat := 0
  evaluated : Nat := 0
  ax : KMap AxHalf := []
  /-- Axes with a pending reset, and axes that an output fault puts into STO at the next cycle start. -/
  pend : Nat := 0
  outSto : Nat := 0
  outs : KMap SafeOut := []
  /-- Pairs: a DRAINING pair has passed its cycle start; end of the SPLIT_MAX timer. -/
  drained : Nat := 0
  splitEnd : KMap Instant := []
  deriving DecidableEq, Repr

/-- A compare value that has arrived and waits for its T_eff (R121, R125). Ticks are PWM time. -/
structure WaitVal where
  val : CmpVal
  teff : Nat
  issue : Nat
  /-- The same flit carries a valid high value of the leg (R230). -/
  withHigh : Bool
  deriving DecidableEq, Repr

/-- The reference of a channel under the late-compare rule (R123, R124, R228). Instants are PWM time in steps of 250 ps. -/
structure RefSt where
  /-- The value in force; `none` until the first is received. -/
  val : Option CmpVal := none
  /-- A deferred value that governs from the next half-period (R123). -/
  defer : Option CmpVal := none
  /-- The reference level (R228); of the leg, on the high channel of a complementary leg. -/
  ref : Bool := false
  /-- This half-period's reference edge that has not taken place yet. -/
  edge : Option Nat := none
  /-- An edge has taken place in this half-period. -/
  emitted : Bool := false
  lastEdge : Option Nat := none
  /-- For the life record (R265): the time at level 1 up to an instant, and the edges, since the last record. -/
  on : Nat := 0
  since : Nat := 0
  edges : Nat := 0
  deriving DecidableEq, Repr

/-- A gate channel 0 to 143, or an AUX switch at 144 + 6·x + i. Instants are PWM time in steps of 250 ps. Mark: DEDUCED (log 65). -/
structure Chan extends RefSt where
  wait : Option WaitVal := none
  /-- Issue tick of a DEFERRED stamp that is not written yet; on a low channel, that its stamp follows the high channel's (R230, R237). -/
  stampDue : Option Nat := none
  /-- The edge of the latest stamp is still to come (R237). -/
  stampOpen : Bool := false
  /-- The T_eff tick of the last value that took effect (R263). -/
  took : Option Nat := none
  /-- The values in force at the onset of HOLD or SOFT_OFF (Table 8.1). -/
  held : Option (Option CmpVal) := none
  /-- The reference as the runtime works it out (R127), and the values sent whose T_eff is to come, in the order of their T_eff. -/
  seen : RefSt := {}
  seenWait : List (Nat × CmpVal) := []
  /-- The level after the dead-time stage, its pending turn-on and its last turn-off (R230). -/
  drive : Bool := false
  onAt : Option Nat := none
  lastOff : Nat := 0
  /-- The pin, the instants of its last changes (newest first) and whether the order stage delays it (R233). -/
  pin : Bool := false
  changes : List Nat := []
  delayed : Bool := false
  deriving DecidableEq, Repr

/-- One half-period: first tick, length in ticks, up or down. -/
structure HalfPeriod where
  start : Nat
  len : Nat
  up : Bool
  deriving DecidableEq, Repr

/-- A leg (at 3·target + k): its half-period in force, the delayed ones to come (R234), and what holds its outputs. -/
structure Leg where
  hp : Option HalfPeriod := none
  queue : List HalfPeriod := []
  /-- Bootstrap under-voltage holds the high side off until the next rising reference edge after release (R242). -/
  bootHold : Bool := false
  /-- From VGD under-voltage on the outputs wait for the next reference edge after its release (R244). -/
  edgeWait : Bool := false
  deriving DecidableEq, Repr

/-- The carrier of a slot (0 to 23) or AUX bridge (24 to 27), with its watchdog (R224 to R227, R145). -/
structure Carrier where
  hp : Option HalfPeriod := none
  /-- Length fixed for the up half-period that starts at the next zero event (R226). -/
  nextUp : Nat := 0
  /-- Accepted TOPs with the T_eff ticks of their flits, in the order of arrival (R227). -/
  newTop : List (Nat × Nat) := []
  locked : Bool := false
  /-- Owners (bit 0 A, bit 1 B) a flit has been accepted from since boot (R236). -/
  seqSeen : Nat := 0
  /-- The T_eff of the first COMPARE flit has passed (R238). -/
  opened : Bool := false
  /-- T_effs of COMPARE flits that have not taken effect yet, and whether the flit is late. -/
  served : List (Nat × Bool) := []
  /-- A COMPARE flit took effect in this half-period. -/
  servedNow : Bool := false
  wdCount : Nat := 0
  wdLine : Bool := false
  deriving DecidableEq, Repr

/-- A SAR unit (R45 to R53). -/
structure UnitSt where
  /-- 0: not started; 1: acquisition; 2: conversion phase. -/
  phase : Nat := 0
  entry : Nat := 0
  /-- End of the phase. -/
  until_ : Instant := 0
  /-- The injected sequence runs; it waits for a conversion phase to end. -/
  inj : Bool := false
  injWait : Bool := false
  /-- A trigger event of this unit has happened and its trigger has not been taken yet. -/
  injDue : Bool := false
  /-- Regular entry at which the sequence goes on. -/
  resume : Nat := 0
  /-- The regular sequence goes on at entry 0 instead (R52). -/
  restart : Bool := false
  /-- Conversions sampled and not yet delivered, oldest first: entry, code, sampling instant. -/
  flight : List (Nat × Nat × Instant) := []
  deriving DecidableEq, Repr

/-- A sigma-delta channel (R55 to R58): conversions still to discard on each filter, the bits that each filter still holds (newest first),
and whether it is stuck. -/
structure SdSt where
  discard : Nat := 3
  discardProt : Nat := 3
  bits : List Bool := []
  bitsProt : List Bool := []
  stuck : Bool := false
  deriving DecidableEq, Repr

/-- An accumulator (R59 to R67): the open window, the divider, the latest result. -/
structure AccSt where
  sum : Int := 0
  cnt : Nat := 0
  rail : Bool := false
  div : Nat := 0
  resSum : Int := 0
  resCnt : Nat := 0
  deriving DecidableEq, Repr

/-- A min-max tracker (R69 to R72). -/
structure MmtSt where
  min : Nat := 0
  max : Nat := 0
  cnt : Nat := 0
  above : Nat := 0
  below : Nat := 0
  rail : Bool := false
  div : Nat := 0
  /-- Consecutive conversions at or beyond each threshold. -/
  hiRun : Nat := 0
  loRun : Nat := 0
  hi : Bool := false
  lo : Bool := false
  /-- The line was asserted at some tick of the open window. -/
  hiSeen : Bool := false
  loSeen : Bool := false
  /-- The latest result (R70). -/
  last : Option TrkItem := none
  deriving DecidableEq, Repr

/-- A redundant sensing pair (R74). -/
structure PairSt where
  freshA : Bool := false
  freshB : Bool := false
  run : Nat := 0
  deriving DecidableEq, Repr

/-- MEAS. -/
structure MeasSt where
  units : KMap UnitSt := []
  sd : KMap SdSt := []
  acc : KMap AccSt := []
  mmt : KMap MmtSt := []
  pairs : KMap PairSt := []
  /-- Instants PHASE + m × PERIOD that have produced an event, as ranges of m, by generator (R62). -/
  ntevDone : KMap (List (Int × Int)) := []
  /-- Recent carrier events of a slot, newest first: tick and whether up (R64). -/
  carHist : KMap (List (Nat × Bool)) := []
  deriving DecidableEq, Repr

/-- A stretch of resolver excitation from tick `since`: whether the output runs, and its phase as `num` cycles in `len` ticks
from tick `org` on, starting at `ph0` / 125,000 of a cycle (R89, R90). -/
structure ExcSeg where
  since : Nat
  on : Bool
  org : Nat
  num : Nat
  len : Nat
  ph0 : Nat
  deriving DecidableEq, Repr

/-- A serial frame under way: its first MA falling edge, its CAP_TS, and the instant the interface is ready again (R85 to R88). -/
structure SerSt where
  running : Bool := false
  start : Instant := 0
  ts : Word := 0
  ready : Instant := 0
  run : Nat := 0
  deriving DecidableEq, Repr

/-- A position interface (R81 to R98). The `seen` fields hold the STATUS conditions since the last record of the KIND, and the `rec` fields the
tick of that record. Mark: DESIGN CHOICE (log 38). -/
structure PiSt where
  /-- The accepted levels of A and B. -/
  qa : Option Bool := none
  qb : Option Bool := none
  cnt : Word := 0
  edgeTick : Option Nat := none
  edgeDir : Bool := false
  /-- Acceptance ticks of the latest A or B edges, newest first (R255). -/
  edges : List Nat := []
  idxCnt : Word := 0
  idxValid : Bool := false
  hall : Option Nat := none
  hallTick : Option Nat := none
  hallDir : Bool := false
  hallEdges : List Nat := []
  seenInc : Nat := 0
  seenSer : Nat := 0
  seenRes : Nat := 0
  recInc : Nat := 0
  recSer : Nat := 0
  recRes : Nat := 0
  hallRun : Nat := 0
  ser : SerSt := {}
  resRun : Nat := 0
  /-- Which of the resolver's accumulators (bit 0 sine, bit 1 cosine) has a new result. -/
  resFresh : Nat := 0
  exc : List ExcSeg := []
  capDiv : Nat := 0
  /-- The position words of the newest capture (R300). -/
  capture : List Int := []
  deriving DecidableEq, Repr

/-- POS. -/
structure PosSt where
  pi : KMap PiSt := []
  deriving DecidableEq, Repr

/-- Block commutation of an AUX bridge (R179 to R184). -/
structure BcSt where
  /-- The demand of its duty source, as a fraction of the chopping period. -/
  duty : Rat := 0
  /-- The step of the six-step sequence. -/
  step : Nat := 0
  /-- The instant of the last commutation, and of the start of the phase. -/
  commAt : Instant := 0
  phaseAt : Instant := 0
  /-- Open-loop commutations made in RAMP. -/
  made : Nat := 0
  /-- This step has an accepted crossing; the step before it had one; consecutive steps with one. -/
  crossed : Bool := false
  crossedBefore : Bool := false
  run : Nat := 0
  /-- The last accepted crossing, the last 60° interval, and the commutation that follows. -/
  crossAt : Instant := 0
  interval : Option Nat := none
  due : Option Instant := none
  /-- The scheduled new start; the bridge stays STOPPED until its demand falls. -/
  retryAt : Option Instant := none
  barred : Bool := false
  deriving DecidableEq, Repr

/-- The command input (R185, R186): the end of the last conversion period; the accepted level, the level at the pin and since when; the last accepted
edges, the latest complete period; the instant from which a static input is paced, and the static codes produced. -/
structure CmdSt where
  lastAt : Instant := 0
  level : Bool := false
  raw : Bool := false
  rawAt : Instant := 0
  riseAt : Option Instant := none
  fallAt : Instant := 0
  per : Option Nat := none
  quietAt : Instant := 0
  statics : Nat := 0
  deriving DecidableEq, Repr

/-- PWM and AUX. -/
structure PwmSt where
  carriers : KMap Carrier := []
  legs : KMap Leg := []
  chans : KMap Chan := []
  /-- PWM time at which the EN fields took effect (R225, R494). -/
  enTick : Nat := 0
  bc : KMap BcSt := []
  cmd : CmdSt := {}
  deriving DecidableEq, Repr

/-- A demand on a trip target: its place among equals (R263), its action (Table 8.1), its FIRST code, and its latch flag. -/
structure Demand where
  ord : Nat
  act : Nat
  first : Nat
  latch : Bool
  deriving DecidableEq, Repr

/-- A trip target beside its TRIP_TGT_STAT register (R249 to R263). -/
structure Target where
  /-- The latched demands (R260). -/
  latched : List Demand := []
  /-- ASC_BLOCKED is posted in this onset (R258). -/
  blocked : Bool := false
  /-- The tick since which a held target has no demand (R262). -/
  freeAt : Option Nat := none
  /-- Carrier events since the onset of a SOFT_OFF (Table 8.1). -/
  softCount : Nat := 0
  /-- The tick of the last onset (R263). -/
  onsetAt : Option Nat := none
  deriving DecidableEq, Repr

/-- The life-model estimate of one switch position (R266 to R271). Real quantities are rational numbers. Mark: DESIGN CHOICE (log 14). -/
structure LifePos where
  /-- ΔT of the Foster stages. -/
  stages : List Rat := []
  tj : Rat := 0
  loss : Rat := 0
  damage : Rat := 0
  /-- The damage of the last 30 days of powered time, newest first: the powered time in s at which it was counted, and the damage. -/
  recent : List (Rat × Rat) := []
  /-- Residue of turning points, newest first (R267). -/
  residue : List Rat := []
  /-- The running extreme and its direction for the hysteresis; a first step has been made. -/
  begun : Bool := false
  extreme : Rat := 0
  rising : Bool := true
  cycles : Nat := 0
  maxDt : Rat := 0
  maxTj : Rat := 0
  warn : Bool := false
  limit : Bool := false
  lifeWarn : Bool := false
  stale : Bool := false
  deriving DecidableEq, Repr

/-- The latest life record of a bridge (R265): per leg the mean current, the mean V_dc, per channel the on-time fraction and the
number of edges, the time it covers; and what became of it. -/
structure LifeRec where
  cur : List Rat := []
  vdc : Rat := 0
  duty : List Rat := []
  edges : List Nat := []
  span : Rat := 0
  fresh : Bool := false
  reused : Nat := 0
  stale : Bool := false
  deriving DecidableEq, Repr

/-- TRIP. -/
structure TripSt where
  targets : KMap Target := []
  /-- Recent short reports: bridge, leg, tick (R257). -/
  shorts : List (Nat × Nat × Nat) := []
  /-- The STO mask runs; its end once both pins are active again; STO_MASKED posted in this span (R259). -/
  stoMask : Bool := false
  stoEnd : Option Instant := none
  stoPosted : Bool := false
  /-- The life model: positions by channel key, records by target, the saved copy, and powered time in steps (R266 to R270). -/
  lifeCfg : LifeCfg := {}
  life : KMap LifePos := []
  lifeRecs : KMap LifeRec := []
  lifeSaved : Option (KMap LifePos) := none
  lifeSavedTime : Rat := 0
  lifeLastSave : Instant := 0
  lifeLastStep : Instant := 0
  /-- Powered time in s, and the last reference temperature in °C. -/
  lifeTime : Rat := 0
  lifeRef : Rat := 0
  deriving DecidableEq, Repr

/-- A descriptor from fetch to completion (R376, R383), or the copy of a schedule's inner descriptor that one firing releases. -/
structure HDesc where
  fn : Nat := 0
  sq : Nat := 0
  cid : Nat := 0
  op : Nat := 0
  flags : Nat := 0
  /-- The NTIME of APPLY_TS, or of the firing, where the descriptor has one. -/
  apply : Option Int := none
  target : Nat := 0
  count : Nat := 0
  /-- Bytes 16 to 63. -/
  body : List Byte := []
  dom : Nat := 0
  /-- Its place in the order of fetching. -/
  order : Nat := 0
  /-- 0: waits for release; 1: released to its handler; 2: taken up by its handler; 3: past the phase in which ABORT cancels it;
  4: finished, its completion waits. -/
  phase : Nat := 0
  late : Bool := false
  /-- Its completion is discarded (R374, R375). -/
  dead : Bool := false
  status : Nat := 0
  detail : Nat := 0
  doneTs : Word := 0
  info0 : Word := 0
  info1 : BitVec 64 := 0
  /-- The tag of the schedule this is a firing of. -/
  parent : Option Nat := none
  /-- SCHEDULE: the inner descriptor, the next m of START + m × PERIOD, whether it is held, firings made and failed. -/
  inner : List Byte := []
  nextM : Nat := 0
  held : Bool := false
  fired : Nat := 0
  failed : Nat := 0
  /-- TELEM_STREAM: the next sampling instant, records and bytes written (pad records included). -/
  nextAt : Int := 0
  recs : Nat := 0
  bytes : Nat := 0
  deriving DecidableEq, Repr

/-- HOSTQ. Rings are numbered 32·f + q. Mark: DEDUCED (log 71), PRESUMED (log 110). -/
structure HostqSt where
  /-- SQs whose session has ended: their descriptors are refused (R316). -/
  refusing : List Nat := []
  /-- The PCI Express link is trained. -/
  linkUp : Bool := false
  /-- Bus Master Enable of the functions, bit f (R370). -/
  bme : Nat := 0
  /-- Outstanding descriptors by tag (below 1,024), and firings (from 1,024). -/
  descs : KMap HDesc := []
  /-- Tags whose completion waits, in the order they finished. -/
  waiting : List Nat := []
  order : Nat := 0
  /-- CIDs of the last 256 completions of an SQ, newest first. -/
  done : KMap (List Nat) := []
  /-- Tail of an SQ. -/
  tails : KMap Nat := []
  /-- Descriptors fetched from an SQ in this round, and the SQ served last + 1 (R383). -/
  round : KMap Nat := []
  served : Nat := 0
  /-- CQs that have filled since EN. -/
  filled : List Nat := []
  /-- Instants of the unsignalled completions of a CQ, oldest first, and whether one of them asks to signal at once. -/
  unsig : KMap (List Instant) := []
  unsigNow : List Nat := []
  /-- Unmasked MSI-X vectors (32·f + v) and the pending ones (R397). -/
  vecOpen : List Nat := []
  vecPend : List Nat := []
  /-- Instant of the last HEARTBEAT of a function, or of the start of its supervision (R394). -/
  lastHb : KMap Instant := []
  /-- The telemetry items of the image, by ITEM (R352). -/
  items : KMap TelemItem := []
  /-- A link or reset event of a function that HOST_LOST has not taken up (R394): its CAUSE. -/
  lossCause : KMap Nat := []
  deriving DecidableEq, Repr

/-- A frame in a launch queue or in a port's best-effort queue (R417, R423): its LAUNCH, the tag of its NET_TX descriptor, the tag of its
item, the kernel it came from, LATE_DROP, and whether it is to be sent at once as late. -/
structure NetFrame where
  launch : Int := 0
  desc : Option Nat := none
  item : Nat := 0
  src : Nat := 0
  lateDrop : Bool := false
  late : Bool := false
  bytes : List Byte := []
  deriving DecidableEq, Repr

/-- An Ethernet port beside its registers. Mark: DESIGN CHOICE (log 114). -/
structure PortSt where
  /-- Mean path delay in ns (R405); the instants of the last Sync and Announce received. -/
  delay : Rat := 0
  syncAt : Instant := 0
  annAt : Instant := 0
  /-- Waiting messages of the time engine by kind, MKA frames, and best-effort frames (R403). -/
  ptpOut : List Nat := []
  mkaOut : List (List Byte) := []
  best : List NetFrame := []
  /-- The frame on the wire: its class (0 launch, 1 time engine, 2 MKA, 3 best-effort), the kind of a time-engine message, and the
  instant at which it and the interframe gap end. -/
  busy : Option (Nat × Nat × Instant) := none
  /-- The instant of the last message of the time engine, by kind. -/
  sentAt : KMap Instant := []
  /-- Announce messages by sender: the newest with its instant, and the instant of the one before it (R406); the end of PRE_MASTER. -/
  foreign : List (Announce × Instant × Option Instant) := []
  preTill : Instant := 0
  /-- Key agreement (R421): the live peer by key-server priority, SCI and CAK slot. MACsec: frames sent under the transmit SA, and the next packet
  number of each receive SA (4 × SC + SA). -/
  peer : Option (Nat × Nat × Nat) := none
  txPn : Nat := 0
  rxPn : KMap Nat := []
  deriving DecidableEq, Repr

/-- NET. Mark: DESIGN CHOICE (log 14). -/
structure NetSt where
  /-- Offset of NTIME against the local count, ns (R408). -/
  tofs : Int := 0
  /-- Step parity, the last applied step Δ in ns, and its step tick (R411). -/
  parity : Bool := false
  lastStep : Int := 0
  stepTick : Option Nat := none
  /-- The step that waits: Δ and the instant of the decision (R410 to R413). -/
  step : Option (Int × Instant) := none
  /-- Consecutive θ of 1 µs or more, signed by their sign; consecutive θ within LOCK_THR. -/
  run : Int := 0
  lockRun : Nat := 0
  /-- The servo in ppb: I, f_h, f, and the corrections of the last 64 Syncs in LOCKED, newest first. -/
  integ : Rat := 0
  fh : Rat := 0
  f : Rat := 0
  freqs : List Rat := []
  /-- The parent clock by clockIdentity and port number, and the grandmaster (R409). -/
  parent : Option (Nat × Nat) := none
  gmId : Option Nat := none
  ports : KMap PortSt := []
  /-- The launch queues, head first. -/
  lq : KMap (List NetFrame) := []
  /-- The next tag of an item that NET sends. -/
  tag : Nat := 0
  /-- PORST_N release, the values of NODE_ID, WINDOW and SYNC_TO that form the wake slot, and W (R422). -/
  porstAt : Instant := 0
  wakeCfg : Option (Nat × Nat × Nat) := none
  wakeW : Option Int := none
  /-- The CAK slot + 1 a port's transmit SA derives from (0: none, R336, R421), by port. -/
  txSa : KMap Nat := []
  deriving DecidableEq, Repr

/-- A frame on a CAN transmit queue (R434): its APPLY time (0: at once), the CAN_TX descriptor and the item it came by, the kernel it came
from, and its content. -/
structure CanFrame where
  apply : Int := 0
  late : Bool := false
  desc : Option Nat := none
  item : Nat := 0
  src : Nat := 0
  id : Nat := 0
  xtd : Bool := false
  fdf : Bool := false
  brs : Bool := false
  bytes : List Byte := []
  deriving DecidableEq, Repr

/-- A received frame in a buffer (R432), with the NTIME of its SOF and the LOSS flag of its item. -/
structure CanRx where
  sof : Int := 0
  id : Nat := 0
  xtd : Bool := false
  fdf : Bool := false
  brs : Bool := false
  esi : Bool := false
  loss : Bool := false
  bytes : List Byte := []
  deriving DecidableEq, Repr

/-- A message object beside its registers: the transmit queue, head first; the main and the shadow buffer; a frame was overwritten since
the last item (R432, R434). -/
structure CanObj where
  queue : List CanFrame := []
  main : Option CanRx := none
  shadow : Option CanRx := none
  loss : Bool := false
  deriving DecidableEq, Repr

/-- A CAN controller beside its registers. -/
structure CanCtl where
  /-- It takes part in bus traffic: bus idle was seen since it was enabled (R427). -/
  onBus : Bool := false
  /-- The attempt under way: its object, or 256 for the reference slot; the NTIME of its SOF (R435, R436). -/
  att : Option Nat := none
  sof : Int := 0
  /-- The sequence number of the reference message that waits in the slot; what the slot holds when the attempt under way ends; instants done, as ranges of m (R62); the next sequence; consecutive collisions of the slot (R443, R444). -/
  ref : Option Nat := none
  refNext : Option (Option Nat) := none
  refDone : List (Int × Int) := []
  refSeq : Nat := 0
  refColl : Nat := 0
  deriving DecidableEq, Repr

/-- CAN. -/
structure CanSt where
  ctl : KMap CanCtl := []
  obj : KMap CanObj := []
  /-- The next tag of an item that CAN sends. -/
  tag : Nat := 0
  deriving DecidableEq, Repr

/-- A PLL beside its registers (R453 to R458). Mark: DESIGN CHOICE (log 138). -/
structure PllSt where
  /-- It runs on the integer boot setting of the strapped reference (Table 15.4). -/
  boot : Bool := true
  /-- Reference of the active setting: 0 REFCLK, 1 XTAL. -/
  ref : Nat := 0
  holdAt : Instant := 0
  relockAt : Instant := 0
  /-- A hop under way to this slot. -/
  hop : Option Nat := none
  /-- Tuning codes stored with the slots (R453), by slot, and the instant of the last copy (R454). -/
  tune : KMap Nat := []
  copyAt : Instant := 0
  deriving DecidableEq, Repr

/-- CLK. -/
structure ClkSt where
  /-- The instant at which the PLL_PWM output ungated (R455). -/
  ungatedAt : Option Instant := none
  /-- SEAL waits for SYNC_IN since this instant; the REFCLK edge that sampled SYNC_IN high (R455). -/
  syncWait : Option Instant := none
  syncAt : Option Instant := none
  plls : KMap PllSt := []
  /-- References lost since they last qualified (bit 0 REFCLK, bit 1 XTAL), and when. -/
  lost : Nat := 0
  lostAt : KMap Instant := []
  /-- The servo correction in force and the part of it below one FRAC step (R461). -/
  corr : Rat := 0
  carry : Rat := 0
  /-- The pod clock change in progress: pod and MHz (R460). -/
  podReq : Option (Nat × Nat) := none
  deriving DecidableEq, Repr

/-- An input of a context (Table 4.3): its latest value, and whether it has landed for the coming evaluation or is stale. -/
structure InSt where
  sum : Int := 0
  cnt : Nat := 0
  words : List Word := []
  ts : Word := 0
  landed : Bool := false
  stale : Bool := false
  /-- A value has landed since the context started. -/
  got : Bool := false
  deriving DecidableEq, Repr

/-- A parameter transaction on its way to a context (R147, R148): APPLY time, words by index, whether LAST has landed, and the
tag its completion answers. -/
structure Txn where
  apply : Int := 0
  words : List (Nat × Word) := []
  landed : Bool := false
  tag : Option Nat := none
  deriving DecidableEq, Repr

/-- The angle selector of a context (R99 to R106). `source`: 0 NONE, 1 ENCODER, 2 OBSERVER, 3 INJECTION, 4 BLEND. -/
structure SelSt where
  source : Nat := 0
  theta : Rat := 0
  omega : Rat := 0
  obsOk : Bool := true
  injOk : Bool := true
  /-- Reinitialised: N_SUP passing periods make it valid (R104). -/
  obsArm : Bool := false
  injArm : Bool := false
  obsRun : Nat := 0
  injRun : Nat := 0
  encRun : Nat := 0
  /-- The probe: 0 idle, 1 to 3 the attempt; half-periods counted; back-EMF angles; every current so far below I_DET. -/
  attempt : Nat := 0
  halfs : Nat := 0
  gammas : List Rat := []
  small : Bool := true
  result : Option Nat := none
  deriving DecidableEq, Repr

/-- Drive services (R158 to R176). States in the order of Table 5.3. -/
structure DrvSt where
  st : Nat := 0
  runWas : Bool := false
  dischWas : Bool := false
  entered : Instant := 0
  evals : Nat := 0
  tlim : Rat := 0
  did : Rat := 0
  mPrev : Rat := 0
  /-- Bit 0 VOLT_LIMIT, 1 CUR_LIMIT, 2 BRAKE_LIMIT, 3 FW_SAT. -/
  flags : Nat := 0
  tStar : Rat := 0
  drops : Nat := 0
  idRef : Rat := 0
  iqRef : Rat := 0
  /-- Acquired speed and angle. -/
  omega : Rat := 0
  theta : Rat := 0
  /-- Arguments of the short-circuit current, newest first (R173). -/
  args : List Rat := []
  settleEnd : Instant := 0
  /-- 0: commanded ASC; 1, 2: the evaluation of a zero-current pulse, and the voltage it applies as magnitude and angle. -/
  pulse : Nat := 0
  pulseV : Rat × Rat := (0, 0)
  good : Nat := 0
  /-- Evaluations under the off pattern before the probe of an angle loss (R172). -/
  offLeft : Nat := 0
  /-- The compare values of the slot's legs that the modulation stage formed in this evaluation, in ticks, and where the voltage limit cuts each. -/
  vals : List Rat := []
  cuts : List Int := []
  /-- The probe serves a discharge (R176); the acquisition serves a start (R168). -/
  forDisch : Bool := false
  forStart : Bool := false
  deriving DecidableEq, Repr

/-- Grid services (R195 to R211). States in the order of Table 6.1a, W0. -/
structure GridSt where
  st : Nat := 0
  runWas : Bool := false
  xpll : Rat := 0
  omega : Rat := 0
  theta : Rat := 0
  thetaUsed : Rat := 0
  thetaI : Rat := 0
  omegaI : Rat := 0
  lockRun : Nat := 0
  ilim : Rat := 0
  stopFrom : Rat := 0
  ipHold : Rat := 0
  irHold : Rat := 0
  /-- Positive-sequence vector, its magnitude in pu, the history of compensated voltages, newest first. -/
  vpos : Vec2 := {}
  vmag : Rat := 0
  hist : List Vec2 := []
  power : Rat := 0
  /-- Ride-through timers t_0 to t_3, t_h, t_f (R200). -/
  tk : List Rat := [0, 0, 0, 0]
  th : Rat := 0
  tf : Rat := 0
  /-- Time a condition has held without a break: lock before RAMP, return of the grid, return to grid-following. -/
  syncRun : Option Rat := none
  retRun : Option Rat := none
  backRun : Option Rat := none
  slewing : Bool := false
  blockCount : Nat := 0
  blockTime : Rat := 0
  resRun : Nat := 0
  /-- The last two inputs and outputs of the resonator, newest first (R211). -/
  resIn : List Vec2 := []
  resOut : List Vec2 := []
  /-- Bits of W1 of the grid record that the present evaluation sets: bit 0 CUR_LIMIT, bit 1 DF_SAT. -/
  flags : Nat := 0
  ipRef : Rat := 0
  irRef : Rat := 0
  deriving DecidableEq, Repr

/-- DC-DC services (R212 to R217). States in the order of Table 6.1a, W7. -/
structure DcSt where
  st : Nat := 0
  runWas : Bool := false
  /-- Time in PC_CHARGE, or since MAIN closed; whether the first precharge stage has passed. -/
  t : Rat := 0
  half : Bool := false
  /-- The start token is granted; the grant had landed when the evaluation started (R499). -/
  granted : Bool := false
  grantSeen : Bool := false
  pre : Bool := false
  main : Bool := false
  /-- The effective limits in force, and whether they still ramp up. -/
  chg : Rat := 0
  dis : Rat := 0
  up : Bool := false
  iRef : Rat := 0
  phRef : Rat := 0
  /-- Phases held off. -/
  dropped : Nat := 0
  imb : List Nat := []
  /-- Phases whose present imbalance has been posted (R215). -/
  imbDone : Nat := 0
  bmsTime : Rat := 0
  stale : Bool := false
  openNext : Bool := false
  vBat : Rat := 0
  vdc : Rat := 0
  deriving DecidableEq, Repr

/-- Link services (R218 to R220). -/
structure LinkSt where
  holder : Nat := 0
  energy : Rat := 0
  pGrid : Rat := 0
  pBat : Rat := 0
  avail : Rat := 0
  deriving DecidableEq, Repr

/-- A loop context behind its LOOP registers (R110 to R154). -/
structure CtxSt where
  desc : CtxDesc := {}
  params : List Word := []
  /-- Present values of set-point words that still ramp to their words (R143, R188, R385), by index. -/
  ramped : List (Nat × Rat) := []
  states : List Num := []
  /-- The outputs last applied. -/
  yOut : List Num := []
  /-- Outputs limited at their range in the previous evaluation: -1, 0 or 1. -/
  lim : List Int := []
  trigDiv : Nat := 0
  outerDiv : Nat := 0
  /-- Tick of the last trigger, taken or skipped; of the last taken; of the one before; NTIME of the last taken. -/
  lastTrig : Option Nat := none
  trig : Option Nat := none
  prevTrig : Option Nat := none
  trigNt : Int := 0
  /-- 0: idle; 1: triggered and waiting for inputs; 2: waiting for its kernels; 3: started. -/
  phase : Nat := 0
  inputs : KMap InSt := []
  /-- The inputs of the running evaluation, as they stood at its start (R117). -/
  evalIn : KMap InSt := []
  /-- The ACT_OUT under way: its words by index, and TS; the last one that landed whole, and its TS (R135). -/
  act : List (Nat × Word) := []
  actTs : Word := 0
  actWhole : Option (List Word) := none
  actWholeTs : Word := 0
  missRun : Nat := 0
  ovrRun : Nat := 0
  fe0 : Nat := 0
  fe1 : Nat := 0
  /-- The cause code of the fault (R144). -/
  cause : Nat := 0
  /-- The cause of the fault that the context takes once its evaluation is over (R116, R120), or 0. -/
  faultDue : Nat := 0
  /-- The context stopped by STOP, so that its partner does not take over (R143, R144). -/
  stopped : Bool := false
  /-- At the start of the evaluation the partner's ACT_OUT was missing (R135), or what it brought. -/
  actMissing : Bool := false
  actIn : Option (List Word) := none
  /-- Restart at the next trigger (R146). -/
  restart : Bool := false
  takeNext : Bool := false
  /-- Crossfade: its length, the evaluations done, the outputs it started from (R138). -/
  xfN : Nat := 0
  xfDone : Nat := 0
  xfFrom : List Num := []
  /-- The last SEQ used, plus 1, by target. -/
  seq : KMap Nat := []
  /-- Age records of the last evaluation: CASE and AGE by output (R127). -/
  ages : List (Nat × Nat) := []
  /-- The staged transaction, and whether it had landed when the evaluation started; the one the agent has forwarded; those it
  holds (R148). -/
  txn : Option Txn := none
  txnReady : Bool := false
  sent : Option Txn := none
  txnQueue : List Txn := []
  /-- Void command windows in a row, and the timestamp of the last one counted (R188). -/
  voidRun : Nat := 0
  voidTs : Option Word := none
  sel : SelSt := {}
  drv : DrvSt := {}
  grid : GridSt := {}
  dcdc : DcSt := {}
  link : LinkSt := {}
  lifeCount : Nat := 0
  lifeAcc : KMap LegIn := []
  /-- The instant of the last life record, in PWM time. -/
  lifeStart : Nat := 0
  /-- The fallback in force: 0 none, 1 HOLD, 2 RAMP_ZERO, 3 LIMP_CMDIN (R395). -/
  fallback : Nat := 0
  deriving DecidableEq, Repr

/-- A migration in progress (R151 to R154). -/
structure MigSt where
  ctx : Nat := 0
  srcPod : Nat := 0
  srcMask : Nat := 0
  dstPod : Nat := 0
  dstMask : Nat := 0
  /-- Requested by the reliability manager for a background test or a repair (R474 to R477). -/
  rel : Bool := false
  /-- The manager has moved a context from the same source kernel to the same target kernel before. -/
  again : Bool := false
  forced : Bool := false
  /-- 0: loading; 1: trigger k to come; 2: evaluation k under way; 3: snapshot sent; 4: trigger k+1 has come. -/
  step : Nat := 0
  /-- Words of the snapshot that have landed in order, and whether it has landed whole. -/
  snapAt : Nat := 0
  snapLanded : Bool := false
  /-- Tick of trigger k+1. -/
  trig1 : Option Nat := none
  /-- The tag of the MIGRATE descriptor to complete. -/
  tag : Option Nat := none
  deriving DecidableEq, Repr

/-- The loop engine. -/
structure LoopSt where
  ctx : KMap CtxSt := []
  mig : Option MigSt := none
  /-- Requests of the reliability manager that wait (R151). -/
  migQueue : List MigSt := []
  deriving DecidableEq, Repr

/-- The map-out record in flash (R478, R481): physical kernels at 16·pod + k, wires as (link, wire), and the life counter in s at
85 °C. -/
structure RelRec where
  kernels : List Nat := []
  wires : List (Nat × Nat) := []
  life : Rat := 0
  deriving DecidableEq, Repr

/-- A test that REL makes before it goes on with its walk: the physical kernel, why (0 a walk's or hard error's test, 1 an
uncorrectable word, 2 a suspect migration), and the source kernel that a passing suspect target sends it to (R470, R475, R477). -/
structure TestReq where
  kernel : Nat
  why : Nat
  src : Option Nat := none
  deriving DecidableEq, Repr

/-- A reload under way after a kernel loss (R154, R475): the contexts, and the logical kernels before and after. -/
structure Reload where
  ctxs : List Nat
  src : Nat
  dst : Nat
  deriving DecidableEq, Repr

/-- REL. Kernels are numbered 16·pod + k. -/
structure RelSt where
  /-- Physical kernel + 1 behind a logical kernel; 0 is unbacked (R16). -/
  backing : KMap Nat := []
  /-- Physical kernels out of use: 1 awaiting a test, 2 mapped out at run time or by the record, 3 failed at boot (R473, R475, R478). -/
  gone : KMap Nat := []
  /-- Consecutive scrub passes in which a word needed correction, and the last of them counted from 1 (R470), by word. -/
  ceRun : KMap (Nat × Nat) := []
  /-- Place of the walk: 0 to 359 the logical kernels, 360 to 383 the spares, and the instant from which the walk is spaced (R474). -/
  walk : Nat := 0
  walkAt : Instant := 0
  first : List TestReq := []
  /-- The kernel a migration frees, as logical source and target, aborts of it in this walk, and the request it answers. -/
  moving : Option (Nat × Nat) := none
  aborts : Nat := 0
  /-- Tests that run, the safety pair they belong to, and whether one of the pair has failed. -/
  testing : List TestReq := []
  pair : Option Nat := none
  pairBad : Bool := false
  /-- A test that OEM requested, and whether the present one is it (R479). -/
  asked : Option Nat := none
  askedNow : Bool := false
  reloads : List Reload := []
  /-- Errors of the wires of a link this hour, and its faulty wires that stay in service (R471, R472). -/
  wires : KMap (KMap Nat) := []
  faulty : KMap (List Nat) := []
  /-- Wires mapped out, and the saved record. -/
  mapped : List (Nat × Nat) := []
  saved : RelRec := {}
  /-- The life counter, whether a junction temperature has been read, and the instants of the last passes. -/
  life : Rat := 0
  tjSeen : Bool := false
  checkAt : Instant := 0
  ageAt : Instant := 0
  lifeAt : Instant := 0
  deriving DecidableEq, Repr

/-- An update (`verify` false) or a VERIFY under way (R360 to R362): the slot, and the image that it writes. -/
structure UpdJob where
  verify : Bool
  slot : Nat
  img : SlotImage
  deriving DecidableEq, Repr

/-- CFG. Slots are numbered 0 A, 1 B. -/
structure CfgSt where
  /-- The images as they stand in flash. -/
  slots : KMap SlotImage := []
  /-- Slots still to be tried at this boot, the one in trial first; the first of the order (R356). -/
  order : List Nat := []
  first : Option Nat := none
  /-- The husk releases the sections of the slot in trial; the sections loaded; every section is loaded and checked; placement is
  complete (R357 to R359). -/
  released : Bool := false
  loaded : List Nat := []
  placed : Bool := false
  /-- A SAFETY role could not be placed within its pod, so the island does not arm (R359). -/
  noSafety : Bool := false
  /-- CFGL flits sent to each destination: kernels by number, blocks from 512 (R365). -/
  sent : KMap Nat := []
  /-- BAR0 addresses of the register records applied. -/
  written : List Nat := []
  job : Option UpdJob := none
  /-- Slots with a VERIFY result OK since the last boot that have not been written since (R362). -/
  verified : List Nat := []
  deriving DecidableEq, Repr

/-- The TAP (R324): the instruction selected, and the cells of the boundary register, by gate channel. -/
structure TapSt where
  instr : TapInstr := .bypass
  cells : List (Nat × Bool) := []
  deriving DecidableEq, Repr

/-- The state of the ELY7144. Mark: DESIGN CHOICE (log 9), DESIGN CHOICE (log 11), DEDUCED (log 96). -/
structure State where
  /-- The commands that wait, first in, first out. -/
  pending : List Instr := []
  /-- The present instant, in steps of 250 ps. -/
  now : Instant := 0
  /-- What the last command sent out. -/
  out : List Output := []
  /-- The model's own counter behind the free values (no part of the device). -/
  free : Nat := 0
  /-- The register bits that the hardware has set in the present cycle of 2 ns, by block and key (R5): no register of the device. -/
  fresh : KMap Nat := []
  regs : Regs := {}
  sys : SysSt := {}
  husk : HuskSt := {}
  pwr : PwrSt := {}
  sea : SeaSt := {}
  mesh : MeshSt := {}
  meas : MeasSt := {}
  pos : PosSt := {}
  pwm : PwmSt := {}
  trip : TripSt := {}
  loop : LoopSt := {}
  safe : SafeSt := {}
  hostq : HostqSt := {}
  net : NetSt := {}
  can : CanSt := {}
  clk : ClkSt := {}
  rel : RelSt := {}
  cfg : CfgSt := {}
  tap : TapSt := {}
  deriving DecidableEq, Repr

/-- The device at PORST_N: every register at its Reset column, IMG fields zero (R8), reset asserted. Mark: DESIGN CHOICE (log 16). -/
def State.reset : State := {}

end Sys2Proof.Machine
end

