-- ==== Sys2Proof/Machine/Mesh.lean ====
section
/-! DEFINITION. The mesh: links and routes of the folded torus, the arbitration of a link, and the bits of a flit (R23 to R28, R483; Tables
1.3 to 1.6, 2.3, 3.4, 4.10, 4.12, 7.2, 9.7, 11.6, 12.8, 19.4). -/
namespace Sys2Proof

open Machine

/-! ## Links and routes (R23, R25, R483) -/

/-- The block ports of Table 1.3 in table order: router and port number. -/
def Machine.blockPorts : List (Nat × Nat) :=
  [(0, 0), (0, 1), (1, 0), (1, 1), (4, 0), (4, 1), (5, 0), (5, 1), (7, 0), (8, 0), (8, 1), (8, 2), (10, 0), (13, 0), (15, 0), (15, 1), (16, 0),
    (18, 0), (18, 1), (18, 2), (18, 3), (19, 0), (19, 1), (22, 0), (22, 1), (23, 0)]

/-- The router and the block port of a flit's destination. -/
def FlitDst.place : FlitDst → Nat × Option Nat
  | .kernels r _ => (r, none)
  | .port r n => (r, some n)

/-- The direction in which a flit leaves router `r` for router `d`, in the codes of REL_LINK: along its row and then along its column, the
shorter way round, and toward increasing index where both ways are equally short (R25). -/
def Machine.direction (r d : Nat) : Option Nat :=
  let dc := (d % 6 + 6 - r % 6) % 6
  let dr := (d / 6 + 4 - r / 6) % 4
  if dc ≠ 0 then some (if dc ≤ 3 then 0 else 1)
  else if dr ≠ 0 then some (if dr ≤ 2 then 2 else 3)
  else none

/-- The router that lies in a direction. -/
def Machine.neighbour (r dir : Nat) : Nat :=
  match dir with
  | 0 => r / 6 * 6 + (r % 6 + 1) % 6
  | 1 => r / 6 * 6 + (r % 6 + 5) % 6
  | 2 => (r / 6 + 1) % 4 * 6 + r % 6
  | _ => (r / 6 + 3) % 4 * 6 + r % 6

/-- The link on which a flit leaves a router; none where the router delivers it to kernels of its pod. -/
def Machine.nextLink (r : Nat) (dst : FlitDst) : Option Nat :=
  match direction r dst.place.1, dst.place.2 with
  | some d, _ => some (4 * r + d)
  | none, some n => some (96 + 2 * blockPorts.idxOf (r, n))
  | none, none => none

/-- What a link ends at: a router, or a block port. -/
def Machine.linkEnd (l : Nat) : Option Nat :=
  if l < 96 then some (neighbour (l / 4) (l % 4))
  else if l % 2 = 1 then (blockPorts[(l - 97) / 2]?).map (·.1)
  else none

/-- The links a flit crosses from a router to its destination, in order (R23: at most 5 to a pod and one more to a block port). -/
def Machine.routeFrom (dst : FlitDst) : Nat → Nat → List Nat
  | 0, _ => []
  | n + 1, r =>
    match nextLink r dst with
    | none => []
    | some l => l :: (match linkEnd l with
      | some r' => routeFrom dst n r'
      | none => [])

/-- The links a flit crosses: a block port's flit first crosses the link to its router. -/
def Flit.route (f : Flit) : List Nat :=
  match f.src with
  | .kernel r _ => routeFrom f.dst 7 r
  | .port r n => (97 + 2 * blockPorts.idxOf (r, n)) :: routeFrom f.dst 7 r

/-! ## Arbitration (R26) -/

/-- The types of the high priority class. -/
def Machine.highClass (typ : Nat) : Bool := [0x1, 0x2, 0x3, 0x4, 0x5, 0xD].contains typ

/-- The input served next: the first with a waiting flit from `n` on, round the inputs. -/
def Machine.nextInput (n : Nat) (q : KMap (List Flit)) : Option (Nat × List Flit) :=
  (q.find? fun x => decide (n ≤ x.1) && !x.2.isEmpty).orElse fun _ => q.find? fun x => !x.2.isEmpty

/-- A flit comes to a link from an input. -/
def Machine.LinkQ.push (x : LinkQ) (inp : Nat) (f : Flit) : LinkQ :=
  if highClass f.payload.typ then { x with hi := kset [] x.hi inp (kget [] x.hi inp ++ [f]) }
  else { x with lo := kset [] x.lo inp (kget [] x.lo inp ++ [f]) }

/-- The link passes a flit: of the high class, unless eight have passed in a row while one of the low class waits. -/
def Machine.LinkQ.pop (x : LinkQ) : Option (Flit × LinkQ) :=
  let low : Option (Flit × LinkQ) :=
    match nextInput x.loNext x.lo with
    | some (i, f :: fs) => some (f, { x with lo := kset [] x.lo i fs, loNext := i + 1, run := 0 })
    | _ => none
  match nextInput x.hiNext x.hi with
  | some (i, f :: fs) =>
    if low.isSome ∧ 8 ≤ x.run then low
    else some (f, { x with hi := kset [] x.hi i fs, hiNext := i + 1, run := if low.isSome then x.run + 1 else 0 })
  | _ => low

/-- A link's queues. -/
def Machine.MeshSt.link (m : MeshSt) (l : Nat) : LinkQ := kget {} m.links l

/-- Replace a link's queues. -/
def Machine.MeshSt.setLink (m : MeshSt) (l : Nat) (x : LinkQ) : MeshSt := { m with links := kset {} m.links l x }

/-- The input of a link that a kernel or a block port feeds: kernels 0 to 14; links 16 + l. -/
def FlitSrc.input : FlitSrc → Nat
  | .kernel _ k => k
  | .port _ _ => 0

/-- A flit starts on its route: it waits at the first link. A flit for kernels of its own pod crosses none. -/
def Machine.MeshSt.put (m : MeshSt) (f : Flit) : MeshSt :=
  match f.route with
  | [] => m
  | l :: _ => m.setLink l ((m.link l).push f.src.input f)

/-! ## The bits of a flit (R27, R28) -/

/-- Fields of the given widths, the highest first, as one number. -/
def Machine.packBits (l : List (Nat × Nat)) : Nat := l.foldl (fun a x => a * 2 ^ x.1 + x.2 % 2 ^ x.1) 0

/-- Five words, W0 highest; words that are missing are zero. -/
def Machine.fiveWords (ws : List Word) : List (Nat × Nat) := (List.range 5).map fun i => (32, (ws.getD i 0).toNat)

/-- One window result (Table 1.6). -/
def WinItem.fields (w : WinItem) : List (Nat × Nat) := [(8, w.acc), (48, w.sum.toNat), (24, w.cnt)]

/-- One tracker result (Table 2.3). -/
def TrkItem.fields (x : TrkItem) : List (Nat × Nat) := [(8, x.mmt), (10, x.min), (10, x.max), (24, x.cnt), (16, x.above), (16, x.below), (4, x.flags)]

/-- KIND and body of a position record (Table 3.4). -/
def PosBody.kind : PosBody → Nat
  | .incremental .. => 0
  | .serial .. => 1
  | .resolver .. => 2

def PosBody.fields : PosBody → List (Nat × Nat)
  | .incremental cnt age dir idx ok hall hage hdir =>
    [(32, cnt.toNat), (24, age), (1, b2n dir), (32, idx.toNat), (1, b2n ok), (3, hall), (24, hage), (1, b2n hdir), (56, 0)]
  | .serial p d => [(40, p), (16, d), (118, 0)]
  | .resolver a n => [(32, a), (8, n), (134, 0)]

/-- A compare value (R235). -/
def CmpVal.code (v : CmpVal) : Nat :=
  packBits [(2, match v.mode with | .compare => 0 | .off => 1 | .reserved => 2), (19, v.ticks), (3, v.fine)]

/-- The 221 bits of a payload. STRD, STRS and STWR have no layout in the manual. Mark: DESIGN CHOICE (log 140). -/
def Payload.bits : Payload → Nat
  | .winres ts a b =>
    packBits ([(32, ts.toNat)] ++ a.fields ++ (match b with | some b => b.fields | none => [(80, 0)]) ++ [(28, 0), (1, b2n b.isSome)])
  | .trkres ts a b =>
    packBits ([(32, ts.toNat)] ++ a.fields ++ (match b with | some b => b.fields | none => [(88, 0)]) ++ [(12, 0), (1, b2n b.isSome)])
  | .posres ts pi st body => packBits ([(32, ts.toNat), (3, pi), (2, body.kind), (10, st)] ++ body.fields)
  | .cmpw c =>
    packBits ([(32, c.issueTs.toNat), (9, c.ctx), (5, c.target), (1, b2n c.take), (8, c.seq), (1, b2n c.carrier),
      (6, (List.range 6).foldl (fun m i => putBit m i (c.vals.getD i none).isSome) 0), (1, b2n c.epoch), (14, 0)]
      ++ (List.range 6).reverse.map fun i => (24, ((c.vals.getD i none).map CmpVal.code).getD 0))
  | .ctxx c =>
    packBits ([(4, c.sub), (9, c.ctx), (32, c.ts.toNat), (12, c.first), (3, c.words.length), (1, b2n c.last)] ++ fiveWords c.words)
  | .migr m => packBits ([(4, m.op), (9, m.ctx), (2, m.kpos), (1, b2n m.mem), (14, m.addr), (31, 0)] ++ fiveWords m.words)
  | .cfgl c => packBits ([(4, c.op), (14, c.addr), (3, c.words.length), (40, 0)] ++ fiveWords c.words)
  | .evt e => packBits [(8, e.cls), (16, e.code), (32, e.subject), (32, e.w0.toNat), (32, e.w1.toNat), (32, e.ts.toNat), (69, 0)]
  | .svcx x =>
    packBits ([(4, x.sub), (16, x.tag), (3, x.domain), (12, x.first), (3, x.words.length), (1, b2n x.last), (22, 0)] ++ fiveWords x.words)
  | .safCycle c =>
    packBits ([(4, 1), (32, c.ts.toNat), (8, c.sinA), (8, c.sinB), (8, c.demIn), (1, b2n c.rst), (6, c.rb), (32, c.pairF.toNat)]
      ++ ((List.range 4).map fun x => (16, unsignedOf 16 (c.xSpd.getD x 0))) ++ ((List.range 4).map fun x => (10, c.xSt.getD x 0)) ++ [(18, 0)])
  | .safResult r =>
    packBits ([(4, 2), (32, r.ts.toNat), (6, r.out), (8, r.dem)] ++ ((List.range 4).map fun x => (16, unsignedOf 16 (r.spd.getD x 0)))
      ++ ((List.range 4).map fun x => (10, r.axSt.getD x 0)) ++ [(67, 0)])
  | .safWords sub ts first last ws =>
    packBits ([(4, sub), (32, ts.toNat), (12, first), (3, ws.length), (1, b2n last), (9, 0)] ++ fiveWords ws)
  | .strd addr => (Config.storePayload 0x6 addr 0 0).toNat
  | .strs refused ue data => (Config.storePayload 0x7 (b2n refused + 2 * b2n ue) 0 data).toNat
  | .stwr addr mask data => (Config.storePayload 0x8 addr mask data).toNat
  | .reserved _ => 0

/-- DST_SEL and DST_ROUTER, SRC_PORT and SRC_ROUTER (Table 1.4). -/
def FlitDst.fields : FlitDst → List (Nat × Nat)
  | .kernels r m => [(5, r), (16, m % 2 ^ 15)]
  | .port r n => [(5, r), (16, 2 ^ 15 + n % 16)]

def FlitSrc.fields : FlitSrc → List (Nat × Nat)
  | .kernel r k => [(5, r), (5, k)]
  | .port r n => [(5, r), (5, 16 + n)]

/-- The 256 data bits of a flit (Table 1.4). -/
def Flit.data (f : Flit) : BitVec 256 :=
  BitVec.ofNat 256 (packBits (f.dst.fields ++ f.src.fields ++ [(4, f.payload.typ), (221, f.payload.bits)]))

/-- The 275 bits of a flit: the check bits above the data bits (R27). -/
def Flit.wires (f : Flit) : BitVec 275 := Config.bch f.data ++ f.data

end Sys2Proof
end

