-- ==== Sys2Proof/Machine/Ops.lean ====
section
/-! DEFINITION. The operations every meaning shares: the register file, time, events, flits, and an access of BAR0 with the
checks of R2, R6, R7, R311, R312, R317, R318, R493 and R527. -/
namespace Sys2Proof.Machine

/-- What a meaning answers. -/
abbrev Res := Host.Outcome State Fault Refusal

/-! ## The register file -/

/-- The words of a block. -/
def Regs.blk (r : Regs) : Blk → KMap Word
  | .sys => r.sys | .husk => r.husk | .cfg => r.cfg | .hostq => r.hostq
  | .meas => r.meas | .pos => r.pos | .loop => r.loop | .pwm => r.pwm
  | .trip => r.trip | .safe => r.safe | .net => r.net | .can => r.can
  | .clk => r.clk | .rel => r.rel | .pwr => r.pwr | .aux => r.aux

/-- Replace the words of a block. -/
def Regs.setBlk (r : Regs) (m : KMap Word) : Blk → Regs
  | .sys => { r with sys := m } | .husk => { r with husk := m } | .cfg => { r with cfg := m }
  | .hostq => { r with hostq := m } | .meas => { r with meas := m } | .pos => { r with pos := m }
  | .loop => { r with loop := m } | .pwm => { r with pwm := m } | .trip => { r with trip := m }
  | .safe => { r with safe := m } | .net => { r with net := m } | .can => { r with can := m }
  | .clk => { r with clk := m } | .rel => { r with rel := m } | .pwr => { r with pwr := m }
  | .aux => { r with aux := m }

/-- The word of a block at a key. -/
def State.word (s : State) (b : Blk) (k : Nat) : Word := kget 0 (s.regs.blk b) k

/-- Write the word of a block at a key. -/
def State.setWord (s : State) (b : Blk) (k : Nat) (w : Word) : State :=
  { s with regs := s.regs.setBlk (kset 0 (s.regs.blk b) k w) b }

/-- The key of a register instance. -/
def FRef.key (r : FRef) (i j : Nat) : Nat := r.base + r.s1 * i + r.s2 * j

/-- A field of a register instance (R9). -/
def State.f (s : State) (r : FRef) (i : Nat := 0) (j : Nat := 0) : Nat :=
  getBits (s.word r.blk (r.key i j)) r.hi r.lo

/-- A one-bit field of a register instance. -/
def State.b (s : State) (r : FRef) (i : Nat := 0) (j : Nat := 0) : Bool := s.f r i j == 1

/-- The place of a register in the record of the present cycle. -/
def freshKey (b : Blk) (k : Nat) : Nat := b.num * 0x40000 + k

/-- The bits of a register that the hardware has set in the present cycle (R5). -/
def State.freshOf (s : State) (b : Blk) (k : Nat) : Nat := kget 0 s.fresh (freshKey b k)

/-- The hardware sets bits of a register in the present cycle: a write that clears them in the same cycle leaves them set (R5). -/
def State.noteSet (s : State) (b : Blk) (k v : Nat) : State := { s with fresh := kset 0 s.fresh (freshKey b k) (s.freshOf b k ||| v) }

/-- The hardware writes a field of a register instance. -/
def State.setF (s : State) (r : FRef) (v : Nat) (i : Nat := 0) (j : Nat := 0) : State :=
  (s.setWord r.blk (r.key i j) (setBits (s.word r.blk (r.key i j)) r.hi r.lo v)).noteSet r.blk (r.key i j)
    ((v % 2 ^ (r.hi + 1 - r.lo)) <<< r.lo)

/-- Write a one-bit field of a register instance. -/
def State.setB (s : State) (r : FRef) (v : Bool) (i : Nat := 0) (j : Nat := 0) : State := s.setF r (b2n v) i j

/-- Set bit `k` of a field. -/
def State.setBitF (s : State) (r : FRef) (k : Nat) (v : Bool) (i : Nat := 0) (j : Nat := 0) : State :=
  (s.setWord r.blk (r.key i j) (setBits (s.word r.blk (r.key i j)) r.hi r.lo (putBit (s.f r i j) k v))).noteSet r.blk (r.key i j)
    (b2n v <<< (r.lo + k))

/-- The hardware has set bit `k` of a field in the present cycle. -/
def State.setNow (s : State) (r : FRef) (k : Nat := 0) (i : Nat := 0) (j : Nat := 0) : Bool :=
  (s.freshOf r.blk (r.key i j)).testBit (r.lo + k)

/-- A written 1 clears bit `k` of a W1C field, unless the hardware sets it in the same cycle (R5). -/
def State.w1c (s : State) (r : FRef) (k : Nat := 0) (i : Nat := 0) (j : Nat := 0) : State :=
  if s.setNow r k i j then s
  else s.setWord r.blk (r.key i j) (s.word r.blk (r.key i j) &&& ~~~((1 : Word) <<< (r.lo + k)))

/-- Bit `k` of a field. -/
def State.bitF (s : State) (r : FRef) (k : Nat) (i : Nat := 0) (j : Nat := 0) : Bool := (s.f r i j).testBit k

/-- Count a saturating counter field up by `n`. -/
def State.incF (s : State) (r : FRef) (n : Nat := 1) (i : Nat := 0) (j : Nat := 0) : State :=
  s.setF r (satN (r.hi + 1 - r.lo) (s.f r i j + n)) i j

/-! ## Time -/

/-- A command happens at instant `t`: time moves on to it (never back) and the outputs of the last command are gone. Mark: DESIGN CHOICE (log 1). -/
def State.start (s : State) (t : Instant) : State :=
  { s with now := max s.now t, out := [], fresh := if (max s.now t) / tickQ = s.now / tickQ then s.fresh else [] }

/-- Send something out. Mark: DESIGN CHOICE (log 11). -/
def State.emit (s : State) (o : Output) : State := { s with out := s.out ++ [o] }

/-- Put a flit onto the mesh: it waits at the first link of its route (R25, R26). Mark: DESIGN CHOICE (log 10). -/
def State.send (s : State) (f : Flit) : State := { s.emit (.flit f) with mesh := s.mesh.put f }

/-- PWM time in ticks (R223): zero until the PLL_PWM output ungates. Mark: DEDUCED (log 126). -/
def State.pwmTime (s : State) : Nat :=
  match s.clk.ungatedAt with
  | none => 0
  | some e => (s.now - e) / tickQ

/-- NTIME in ns: the local count at 2 ns per tick plus the offset TOFS (R408), wrapped to signed 64 bits (R11). -/
def State.ntime (s : State) : Int :=
  (s.net.tofs + 2 * (s.pwmTime : Int)).bmod (2 ^ 64)

/-- The present short timestamp (R12). -/
def State.shortTs (s : State) : Word := BitVec.ofInt 32 s.ntime

/-- The device is in reset (R487). -/
def State.inReset (s : State) : Bool := s.pwr.porst || s.pwr.supplyReset || s.pwr.softEnd != 0

/-- The control side of the core die runs: neither in reset nor held by an erase (Table 10.11). Mark: DEDUCED (log 73). -/
def State.alive (s : State) : Bool := !s.inReset && !s.husk.eraseHeld

/-- The image is sealed and the blocks run (R358, R494). -/
def State.sealed (s : State) : Bool := s.alive && s.b R.CFG_STAT_SEALED

/-- The destinations of a flit for kernels while a migration runs: the target kernels are added beside the source kernels (Table
4.9, step 1). -/
def State.withMig (s : State) (d : FlitDst) : List FlitDst :=
  match s.loop.mig, d with
  | some m, .kernels r mask =>
    if !m.forced && r == m.srcPod && (mask &&& m.srcMask) != 0 then [d, .kernels m.dstPod m.dstMask] else [d]
  | _, _ => [d]

/-- Do `g` where `c` holds, else nothing. Mark: DESIGN CHOICE (log 3). -/
def State.doIf (s : State) (c : Bool) (g : State → State) : State := if c then g s else s

/-! ## Events (R13, R530 to R535) -/

/-- SUBJECT of an event (Table 19.5): instance, second index, function, domain. Mark: DEDUCED (log 32). -/
def subject (inst : Nat) (second : Nat := 0) (fn : Nat := 0) (dom : Nat := 0) : Nat :=
  inst % 65536 + (second % 256) * 65536 + (fn % 2) * 2 ^ 24 + (dom % 8) * 2 ^ 25

/-- An EVT flit reaches SYS (R530, R533): it is queued, or counted lost at a full queue of 64. Mark: DESIGN CHOICE (log 10). -/
def State.post (s : State) (e : Ev) (subj : Nat := 0) (w0 : Word := 0) (w1 : Word := 0) : State :=
  if s.sys.queue.length < 64 then
    let x : Evt := { cls := e.1.code, code := e.2, subject := subj, w0 := w0, w1 := w1, ts := s.shortTs }
    let q : QueuedEvt := { evt := x, arrival := s.ntime, locked := s.f R.NET_STAT_STATE == 2
                           lostBefore := s.sys.lostNow != 0 && !(s.sys.queue.any (·.lostBefore)) }
    { s with sys := { s.sys with queue := s.sys.queue ++ [q] } }
  else
    { s.incF R.SYS_EVT_LOST_LOST with sys := { s.sys with lostNow := s.sys.lostNow + 1 } }

/-- Set a status bit, and post its event when it goes from 0 to 1. -/
def State.raise (s : State) (r : FRef) (i : Nat) (e : Ev) (subj : Nat) (w0 : Word := 0) (w1 : Word := 0) : State :=
  if s.b r i then s.noteSet r.blk (r.key i 0) (2 ^ r.lo) else (s.setB r true i).post e subj w0 w1

/-- Set bit `k` of a status field, and post its event when it goes from 0 to 1. -/
def State.raiseBit (s : State) (r : FRef) (k i : Nat) (e : Ev) (subj : Nat) (w0 : Word := 0) (w1 : Word := 0) : State :=
  if s.bitF r k i then s.noteSet r.blk (r.key i 0) (2 ^ (r.lo + k)) else (s.setBitF r k true i).post e subj w0 w1

/-- Post an event that is limited to once per second per key (R534). -/
def State.postLimited (s : State) (key : Nat) (e : Ev) (subj : Nat := 0) (w0 : Word := 0) (w1 : Word := 0) :
    State :=
  let last := kget 0 s.sys.rate key
  if last = 0 ∨ s.now + 1 ≥ last + secQ then
    { s.post e subj w0 w1 with sys := { (s.post e subj w0 w1).sys with rate := kset 0 s.sys.rate key (s.now + 1) } }
  else s

/-- A word of an event from a number. -/
def nw (n : Nat) : Word := BitVec.ofNat 32 n

/-! ## Access of BAR0 -/

/-- Domain codes of R311. -/
abbrev domNone : Nat := 0
abbrev domOem : Nat := 1
abbrev domOpr : Nat := 2
abbrev domSaf : Nat := 3
abbrev domVnd : Nat := 4

/-- LIFECYCLE codes of HUSK_ID (R326). -/
abbrev lcTest : Nat := 1
abbrev lcOemOpen : Nat := 2
abbrev lcDeployed : Nat := 3
abbrev lcReturned : Nat := 4

/-- The base domain of a function (Table 10.1). -/
def State.baseDomain (s : State) (fn : Nat) : Nat :=
  let lc := s.f R.HUSK_ID_LIFECYCLE
  if lc = lcOemOpen then (if fn = 0 then domOem else domNone)
  else if lc = lcDeployed then
    (if fn = 0 then (if s.husk.pf0Base then domOem else domNone) else domOpr)
  else domNone

/-- A session is open on the function (R313). -/
def State.sessionOpen (s : State) (fn : Nat) : Bool := s.f R.HUSK_SESS_STAT_PHASE 0 fn == 2

/-- The domain an access through a function carries (R311). -/
def State.domainOf (s : State) (fn : Nat) : Nat :=
  if s.sessionOpen fn then s.f R.HUSK_SESS_STAT_DOMAIN 0 fn else s.baseDomain fn

/-- The session record of a function. -/
def State.session (s : State) (fn : Nat) : Session := kget {} s.husk.sess fn

/-- Replace the session record of a function. -/
def State.setSession (s : State) (fn : Nat) (x : Session) : State :=
  { s with husk := { s.husk with sess := kset {} s.husk.sess fn x } }

/-- A register instance found at an address: its block, definition, indices and key. -/
structure RegHit where
  blk : Blk
  rd : RegDef
  i : Nat
  j : Nat
  key : Nat
  deriving DecidableEq, Repr

/-- Whether offset `off` names an instance of a register; the second index of a per-function register is the function. -/
def RegDef.hit (d : RegDef) (off fn : Nat) : Option (Nat × Nat) :=
  if off < d.base then none
  else
    let r := off - d.base
    let i := if d.s1 = 0 then 0 else r / d.s1
    let r1 := if d.s1 = 0 then r else r % d.s1
    if d.perFn then (if i < d.n1 ∧ r1 = 0 then some (i, fn) else none)
    else
      let j := if d.s2 = 0 then 0 else r1 / d.s2
      let r2 := if d.s2 = 0 then r1 else r1 % d.s2
      if i < d.n1 ∧ j < d.n2 ∧ r2 = 0 then some (i, j) else none

/-- The register at an offset of a block as a function sees it; `none` is a reserved address (R527). -/
def findIn (b : Blk) (off fn : Nat) : Option RegHit :=
  (regsOf b).findSome? fun d =>
    match d.hit off fn with
    | none => none
    | some (i, j) => some { blk := b, rd := d, i := i, j := j, key := d.base + d.s1 * i + d.s2 * j }

/-- The register at a BAR0 address. -/
def findReg (addr fn : Nat) : Option RegHit :=
  match Blk.ofNum (addr / 0x10000) with
  | none => none
  | some b => findIn b (addr % 0x10000) fn

/-- A BAR0 access can reach the device: the PCI Express link is up and the device is not in reset. -/
def State.barOpen (s : State) : Bool := s.hostq.linkUp && !s.inReset

/-- Before SEALED only SYS, HUSK, CFG and PWR answer (R493); while an erase holds the core die, HUSK alone (Table 10.11); without husk
firmware, reads of SYS and HUSK through PF0 (R330). Mark: DEDUCED (log 27), DEDUCED (log 77). -/
def State.blockOpen (s : State) (b : Blk) (fn : Nat) (write : Bool) : Bool :=
  if s.husk.eraseHeld then b == .husk
  else if !s.husk.firmware then fn == 0 && !write && (b == .sys || b == .husk)
  else s.b R.CFG_STAT_SEALED || b == .sys || b == .husk || b == .cfg || b == .pwr

/-- Post BAD_ACCESS (Table 19.6): SUBJECT the function, W0 the address, W1 bit 0 write and bits 13:1 the length. -/
def State.badAccess (s : State) (fn addr len : Nat) (write : Bool) : State :=
  s.post E.BAD_ACCESS (subject fn 0 fn) (nw addr) (nw (b2n write + 2 * len))

/-- A register access is refused (R317): counted, recorded with its KIND, and reported once a second per function. -/
def State.refuse (s : State) (fn : Nat) (b : Blk) (off : Nat) (write : Bool) (kind : Nat) : State :=
  let d := s.domainOf fn
  let s := s.incF R.HUSK_REFUSE_CNT_CNT
  let s := ((((((s.setF R.HUSK_REFUSE_LAST_FUNC fn).setF R.HUSK_REFUSE_LAST_DOMAIN d).setB R.HUSK_REFUSE_LAST_WRITE write).setF
    R.HUSK_REFUSE_LAST_BLOCK b.num).setF R.HUSK_REFUSE_LAST_WORD (off / 4)).setF R.HUSK_REFUSE_LAST_KIND kind)
  s.postLimited (0x0204 * 2 + fn) E.DOMAIN_REFUSED (subject 0 0 fn d)

/-- The domain rule of a register instance beyond its Domain column (R77, R96, R371, R430): whether fields that several
domains share are open to domain `d` in this instance. Mark: DEDUCED (log 25). -/
def State.instGrant (s : State) (h : RegHit) (fn d : Nat) : Bool :=
  match h.blk with
  | .can =>
    if h.rd.base ≥ 0x1000 then s.f R.CAN_OBJ_CFG_DOMAIN h.i == d
    else if h.rd.base ≥ 0x100 then (if s.b R.CAN_CFG_OWNER h.i then d == domOpr else d == domOem)
    else true
  | .pos =>
    if 0x100 ≤ h.rd.base ∧ h.rd.base < 0x800 then
      (if s.b R.POS_PI_CFG_SAFE h.i then d == domSaf else d == domOem)
    else true
  | .meas =>
    if 0x2000 ≤ h.rd.base ∧ h.rd.base < 0x3000 then
      (if s.b R.MEAS_ACC_CFG_SAFE h.i then d == domSaf else d == domOem)
    else if 0x3000 ≤ h.rd.base ∧ h.rd.base < 0x4000 then
      (if s.sea.safeTrackers.contains h.i then d == domSaf else d == domOem)
    else true
  | .hostq =>
    if 0x1000 ≤ h.rd.base ∧ h.rd.base < 0x2000 then
      !(s.b R.HOSTQ_SQ_CFG_EN h.i fn) || s.f R.HOSTQ_SQ_STAT_DOMAIN h.i fn == d
    else if 0x2000 ≤ h.rd.base then
      !(s.b R.HOSTQ_CQ_CFG_EN h.i fn) || s.f R.HOSTQ_CQ_STAT_DOMAIN h.i fn == d
    else true
  | _ => true

/-- Whether the Domain column and R312, R314 let domain `d` write a field of a block. Mark: DEDUCED (log 23). -/
def State.fieldGrant (s : State) (h : RegHit) (fn d : Nat) (fd : FieldDef) : Bool :=
  if fd.dom = 31 then (d != domNone || h.blk == .husk) && s.instGrant h fn d
  else
    fd.dom.testBit d
      && (d != domVnd || s.f R.HUSK_ID_LIFECYCLE == lcReturned || h.blk == .husk && h.rd.base == 0x400)
      && (fd.dom == 2 || s.instGrant h fn d)

/-- Whether sealing leaves a field writable now (R7). -/
def State.fieldOpen (s : State) (fd : FieldDef) : Bool := fd.rt || !s.b R.CFG_STAT_SEALED

/-- The effect of a written word on one field (Table 0.5). `fresh`: the bits that the hardware has set in the same cycle, which a W1C write
leaves set (R5). -/
def applyField (fresh old data : Word) (fd : FieldDef) : Word :=
  let v := getBits data fd.hi fd.lo
  match fd.acc with
  | .ro => old
  | .rw | .wo => setBits old fd.hi fd.lo v
  | .w1c => setBits old fd.hi fd.lo (getBits (old &&& ~~~ (data &&& ~~~ fresh)) fd.hi fd.lo)
  | .w1s => setBits old fd.hi fd.lo (getBits (old ||| data) fd.hi fd.lo)

/-- What the husk says of a write: the fields it may act on, or the KIND of its refusal, or that it only meets RO fields. -/
inductive WriteVerdict where
  | granted (fields : List FieldDef)
  | refused (kind : Nat)
  | ignored
  deriving DecidableEq, Repr

/-- The husk's check of a write of a register instance (R6, R7, R312). Mark: DEDUCED (log 23), DEDUCED (log 24). -/
def State.checkWrite (s : State) (h : RegHit) (fn : Nat) : WriteVerdict :=
  let d := s.domainOf fn
  let wr := h.rd.fields.filter (fun fd => fd.acc != .ro)
  let gr := wr.filter (s.fieldGrant h fn d)
  let op := gr.filter s.fieldOpen
  if wr.isEmpty then .ignored
  else if gr.isEmpty then .refused 0
  else if op.isEmpty then .refused 1
  else .granted op

/-- The bits of a register whose bits belong to instances of several owners that a domain may clear: those of its own accumulators (Table 2.19). -/
def State.bitGrant (s : State) (h : RegHit) (d : Nat) : Word :=
  if h.blk == .meas && decide (0x5000 ≤ h.rd.base) && decide (h.rd.base < 0x5040) then
    nw ((List.range 32).foldl (fun m k => putBit m k (s.b R.MEAS_ACC_CFG_SAFE (32 * h.i + k) == (d == domSaf))) 0)
  else BitVec.allOnes 32

/-- An accepted access through a function keeps its session from going idle (R315). -/
def State.touch (s : State) (fn : Nat) : State :=
  if s.sessionOpen fn then s.setSession fn { s.session fn with lastAct := s.now } else s

/-- A write of a whole word at an offset of a block, through the checks: refused writes are recorded, granted fields are written, fields
whose write is a command of its own are left to that command. Answers the register hit and the granted fields where the write passed. Mark: DESIGN CHOICE (log 20). -/
def State.writeAt (s : State) (fn : Nat) (b : Blk) (off : Nat) (data : Word) : State × Option (RegHit × List FieldDef) :=
  if !s.barOpen || !s.blockOpen b fn true then (s, none)
  else
    match findIn b off fn with
    | none => (s.badAccess fn (b.num * 0x10000 + off) 4 true, none)
    | some h =>
      match s.checkWrite h fn with
      | .ignored => (s.touch fn, none)
      | .refused k => (s.refuse fn b off true k, none)
      | .granted fs =>
        let s := s.touch fn
        let d := data &&& s.bitGrant h (s.domainOf fn)
        let w := (fs.filter (fun fd => !fd.own)).foldl (fun w fd => applyField (nw (s.freshOf b h.key)) w d fd) (s.word b h.key)
        (s.setWord b h.key w, some (h, fs))

/-- The offset of a register instance in its block (per-function registers show each function its own at one address). -/
def FRef.off (r : FRef) (i j : Nat) : Nat := r.base + r.s1 * i + (if r.s2 = 0x10000 then 0 else r.s2 * j)

/-- The BAR0 address of a register instance. -/
def FRef.addr (r : FRef) (i j : Nat) : Nat := r.blk.num * 0x10000 + r.off i j

/-- A write whose action bit is a command of its own: the write passes the checks with the action's field granted. Answers the
state after the write's plain fields and whether the action may go on. Mark: DESIGN CHOICE (log 20). -/
def State.actionWrite (s : State) (fn : Nat) (r : FRef) (data : Word) (i : Nat := 0) (j : Nat := 0) : State × Bool :=
  match s.writeAt fn r.blk (r.off i j) data with
  | (s', none) => (s', false)
  | (s', some (_, fs)) => (s', fs.any (fun fd => fd.hi == r.hi && fd.lo == r.lo) && getBits data r.hi r.lo != 0)

/-- Read rights of Table 10.3. -/
def State.canRead (s : State) (h : RegHit) (fn : Nat) : Bool :=
  let d := s.domainOf fn
  let status := h.rd.fields.all (fun fd => fd.acc == .ro || fd.acc == .w1c)
  if h.blk == .sys || h.blk == .husk then true
  else if s.f R.HUSK_ID_LIFECYCLE == lcReturned && d == domVnd then true
  else if d == domOem then (match h.blk with | .net => status | _ => true)
  else if d == domOpr then
    match h.blk with
    | .cfg => status
    | .hostq => !(h.rd.base == 0x10 && h.i == 0) && (h.rd.base < 0x1000 || fn == 1)
    | .loop => h.rd.base == 0x4 || h.rd.base == 0x100
    | .pwm => h.rd.base == 0x4 || h.rd.base == 0x124 || h.rd.base == 0x128
    | .trip | .safe | .net | .can | .clk | .rel | .pwr => true
    | .aux => h.rd.base == 0x4 || h.rd.base == 0x118 || h.rd.base == 0x80C || h.rd.base == 0x888
    | _ => false
  else if d == domSaf then
    match h.blk with
    | .cfg => status
    | .hostq => (0x1000 ≤ h.rd.base && h.rd.base < 0x2000 && s.f R.HOSTQ_SQ_STAT_DOMAIN h.i fn == domSaf)
        || (0x2000 ≤ h.rd.base && s.f R.HOSTQ_CQ_STAT_DOMAIN h.i fn == domSaf)
    | .meas => status || (0x4000 ≤ h.rd.base && h.rd.base < 0x5000)
        || (0x2000 ≤ h.rd.base && h.rd.base < 0x3000 && s.b R.MEAS_ACC_CFG_SAFE h.i)
        || (0x3000 ≤ h.rd.base && h.rd.base < 0x4000 && s.sea.safeTrackers.contains h.i)
    | .pos => status || (0x100 ≤ h.rd.base && h.rd.base < 0x800 && s.b R.POS_PI_CFG_SAFE h.i)
    | .trip | .safe | .clk | .rel | .pwr => true
    | _ => false
  else false

/-- SYS_STAT sums up other registers (Table 19.3). Mark: DEDUCED (log 21), DEDUCED (log 22). -/
def State.sysStat (s : State) : Word :=
  let sto := (List.range 4).any fun x => s.b R.SAFE_AX_CFG_EN x && s.f R.SAFE_AX_STAT_STATE x == 0
  let bits := [s.b R.REL_STAT_UE_SEEN, s.f R.NET_STAT_STATE == 2, s.b R.HOSTQ_STAT_FALLBACK, s.f R.LOOP_STAT_FAULTED != 0, sto,
    s.f R.TRIP_STAT_HELD != 0, s.b R.CFG_STAT_SEALED, s.b R.PWR_STAT_READY]
  BitVec.ofNat 32 ((bits.zipIdx.map fun x => b2n x.1 * 2 ^ (24 + x.2)).foldl (· + ·) 0)

/-- The word as a read finds it: WO fields read zero (Table 0.5), the two second counts of the husk run down with time, and
SYS_STAT sums up other registers. Mark: DEDUCED (log 21). -/
def State.readWord (s : State) (h : RegHit) : Word :=
  let w := (h.rd.fields.filter (fun fd => fd.acc == .wo)).foldl (fun w fd => setBits w fd.hi fd.lo 0) (s.word h.blk h.key)
  if h.blk == .husk && h.rd.base == 0x24 && s.sessionOpen h.j then
    setBits w 19 10 (900 - (s.now - (s.session h.j).lastAct) / secQ)
  else if h.blk == .husk && h.rd.base == 0x304 && s.b R.HUSK_DBG_STAT_CONSENT then
    setBits w 28 19 ((s.husk.consentEnd - s.now) / secQ)
  else if h.blk == .sys && h.rd.base == 0x8 then s.sysStat
  else w

/-- A read of an aligned word (R6, R318, R493, R527): the state after it and the data it completes with. Mark: DEDUCED (log 21). -/
def State.barRead (s : State) (fn addr : Nat) : State × Word :=
  if !s.barOpen then (s, 0)
  else
    match Blk.ofNum (addr / 0x10000) with
    | none => (s.badAccess fn addr 4 false, 0)
    | some b =>
      if !s.blockOpen b fn false then (s, 0)
      else
        match findReg addr fn with
        | none => (s.badAccess fn addr 4 false, 0)
        | some h =>
          if s.canRead h fn then (s.touch fn, s.readWord h)
          else (s.refuse fn h.blk (addr % 0x10000) false 2, 0)

/-- `n` consecutive words of a register array. -/
def State.words (s : State) (r : FRef) (n : Nat) (j : Nat := 0) : List Word :=
  (List.range n).map fun w => s.word r.blk (r.key w j)

/-- Write consecutive words of a register array. -/
def State.setWords (s : State) (r : FRef) (ws : List Word) (j : Nat := 0) : State :=
  (ws.zipIdx).foldl (fun s x => s.setWord r.blk (r.key x.2 j) x.1) s

/-- Little-endian words as a number (Table 10.2: byte i in bits 8·(i mod 4) of word i ÷ 4). -/
def wordsToNat (ws : List Word) : Nat := ws.foldr (fun w a => w.toNat + a * 2 ^ 32) 0

/-- The `n` little-endian words of a number. -/
def natToWords (n v : Nat) : List Word := (List.range n).map fun i => BitVec.ofNat 32 (v >>> (32 * i))

/-! ## Free values -/

/-- Take a fresh free value: the counter it is drawn by, and the counter moved on. -/
def State.draw (s : State) : State × Nat := ({ s with free := s.free + 1 }, s.free)

end Sys2Proof.Machine
end

