-- ==== Sys2Proof/Machine/Pwm.lean ====
section
/-! DEFINITION. PWM and AUX below the commands: carriers, reference edges, dead time, the three-level order, the late-compare
rule, update stamps and the pins under a trip action (R223 to R244, R121 to R127, Table 8.1). A target T is 0 to 23 for a slot,
24 to 27 for an AUX bridge; channel i of target T has key 6·T + i, leg k has key 3·T + k. -/
namespace Sys2Proof.Machine

/-! ## Set-up of a target -/

/-- TOPO codes of PWM_SLOT_CFG (Table 7.1). -/
abbrev topoOff : Nat := 0
abbrev topoTwo : Nat := 1
abbrev topoA : Nat := 2
abbrev topoB : Nat := 3
abbrev topoDcdc : Nat := 4

def State.topo (s : State) (T : Nat) : Nat := if T < 24 then s.f R.PWM_SLOT_CFG_TOPO T else topoTwo

/-- The slot or bridge is enabled, and its block runs (R225, R236). -/
def State.targetEn (s : State) (T : Nat) : Bool :=
  if T < 24 then s.b R.PWM_CTL_EN && s.b R.PWM_SLOT_CFG_EN T else s.b R.AUX_CTL_EN && s.b R.AUX_BR_CFG_EN (T - 24)

/-- Dead time in steps of 250 ps (R230). -/
def State.dead (s : State) (T : Nat) : Nat := if T < 24 then s.f R.PWM_SLOT_DT_DEAD T else s.f R.AUX_BR_DT_DEAD (T - 24)

/-- Minimum pulse width in ticks. -/
def State.minpw (s : State) (T : Nat) : Nat := if T < 24 then s.f R.PWM_SLOT_DT_MINPW T else s.f R.AUX_BR_DT_MINPW (T - 24)

/-- TOP in force (R224). -/
def State.top (s : State) (T : Nat) : Nat := if T < 24 then s.f R.PWM_SLOT_TOP_TOP T else s.f R.AUX_BR_TOP_TOP (T - 24)

def State.phSlew (s : State) (T : Nat) : Nat := if T < 24 then s.f R.PWM_SLOT_LOCK_PH_SLEW T else s.f R.AUX_BR_TOP_PH_SLEW (T - 24)

def State.lockTol (s : State) (T : Nat) : Nat := if T < 24 then s.f R.PWM_SLOT_LOCK_LOCK_TOL T else 8

/-- PHASE, signed ns (R225). -/
def State.phase (s : State) (T : Nat) : Int :=
  if T < 24 then signed 64 (s.f R.PWM_SLOT_PH_LO_PHASE_LO T + s.f R.PWM_SLOT_PH_HI_PHASE_HI T * 2 ^ 32)
  else signed 64 (s.f R.AUX_BR_PH_LO_PHASE_LO (T - 24) + s.f R.AUX_BR_PH_HI_PHASE_HI (T - 24) * 2 ^ 32)

/-- The carrier is locked to NTIME: LOCK of the slot, always for an AUX bridge (R240). -/
def State.lockNtime (s : State) (T : Nat) : Bool := if T < 24 then s.b R.PWM_SLOT_CFG_LOCK T else true

/-- The first slot of a three-level pair stands for the bridge (R249). Mark: DEDUCED (log 63). -/
def State.bridge (s : State) (T : Nat) : Nat := if T < 24 && s.topo T = topoB then T - 1 else T

/-- The slots of a bridge. Mark: DEDUCED (log 63). -/
def State.bridgeSlots (s : State) (B : Nat) : List Nat := if B < 23 && s.topo B = topoA then [B, B + 1] else [B]

/-- Leg `k` is independent (R234). -/
def State.legIndep (s : State) (T k : Nat) : Bool :=
  T < 24 && s.topo T = topoDcdc && (s.f R.PWM_SLOT_CFG_LEG_INDEP T).testBit k

/-- Delay of leg `k`'s carrier in ticks (R234). -/
def State.legOfs (s : State) (T k : Nat) : Nat :=
  if T < 24 && s.topo T = topoDcdc then
    (if k = 0 then s.f R.PWM_SLOT_LEG_OFS0 T else if k = 1 then s.f R.PWM_SLOT_LEG_OFS1 T else s.f R.PWM_SLOT_LEG_OFS2 T)
      * 2 * s.top T / 1024
  else 0

/-! ## Records -/

def State.carrier (s : State) (T : Nat) : Carrier := kget {} s.pwm.carriers T
def State.setCarrier (s : State) (T : Nat) (c : Carrier) : State :=
  { s with pwm := { s.pwm with carriers := kset {} s.pwm.carriers T c } }
def State.leg (s : State) (T k : Nat) : Leg := kget {} s.pwm.legs (3 * T + k)
def State.setLeg (s : State) (T k : Nat) (l : Leg) : State :=
  { s with pwm := { s.pwm with legs := kset {} s.pwm.legs (3 * T + k) l } }
def State.chan (s : State) (ck : Nat) : Chan := kget {} s.pwm.chans ck
def State.setChan (s : State) (ck : Nat) (c : Chan) : State :=
  { s with pwm := { s.pwm with chans := kset {} s.pwm.chans ck c } }

/-- PWM time in steps of 250 ps. -/
def State.pwmQ (s : State) : Nat :=
  match s.clk.ungatedAt with
  | none => 0
  | some e => s.now - e

/-- The first tick at which a level that has stood since an instant is sampled (R81, R239). -/
def State.firstTick (s : State) (q : Instant) : Nat :=
  match s.clk.ungatedAt with
  | none => 0
  | some e => ceilDiv (q - e) tickQ

/-- A target is held (R249). -/
def State.targetHeld (s : State) (T : Nat) : Bool := s.b R.TRIP_TGT_STAT_HELD T

/-- The action in force on a target (Table 8.1). -/
def State.actionOf (s : State) (T : Nat) : Nat := s.f R.TRIP_TGT_STAT_ACTION T

abbrev actNone : Nat := 0
abbrev actAllOff : Nat := 1
abbrev actAscLow : Nat := 2
abbrev actAscHigh : Nat := 3
abbrev actHold : Nat := 4
abbrev actSoftOff : Nat := 5
abbrev actAuto : Nat := 6

/-! ## Reference edges (R228) -/

/-- A compare value's time in steps of 250 ps (R10). -/
def cmpQ (v : CmpVal) : Nat := v.ticks * 8 + v.fine

/-- The edge a value places in a half-period against the level the reference holds (R228). -/
def edgeIn (h : HalfPeriod) (ref : Bool) (c : Nat) : Option Nat :=
  let st := h.start * 8
  let en := (h.start + h.len) * 8
  if h.up then (if ref && decide (c < h.len * 8) then some (st + c) else none)
  else (if !ref && decide (0 < c) then some (max st (en - c)) else none)

/-- The edge of a governing value in a half-period, its time limited to `cap` (R241); mode OFF and no value place none (R229, R238). -/
def valueEdge (h : HalfPeriod) (ref : Bool) (cap : Option Nat) : Option CmpVal → Option Nat
  | some v => if v.mode = .compare then edgeIn h ref (match cap with
      | some m => min m (cmpQ v)
      | none => cmpQ v) else none
  | none => none

/-- The time at level 1 is counted up to an instant (R265). -/
def RefSt.count (r : RefSt) (q : Nat) : RefSt := { r with on := r.on + (if r.ref then q - r.since else 0), since := q }

/-- A reference edge at instant `e` (R228). -/
def RefSt.fire (r : RefSt) (e : Nat) : RefSt :=
  { r.count e with ref := !r.ref, edge := none, emitted := true, lastEdge := some e, edges := r.edges + 1 }

/-- The edge of the present half-period, if it is due by instant `q`. -/
def RefSt.fireBy (r : RefSt) (q : Nat) : RefSt :=
  match r.edge with
  | some e => if e ≤ q then r.fire e else r
  | none => r

/-- A half-period starts: a deferred value takes over, and the value that governs (`gov`, or the one in force) places its edge (R123, R228). -/
def RefSt.begin (r : RefSt) (h : HalfPeriod) (cap : Option Nat) (gov : Option (Option CmpVal)) : RefSt :=
  let v := match r.defer with
    | some v => some v
    | none => r.val
  { r with val := v, defer := none, emitted := false, edge := valueEdge h r.ref cap (gov.getD v) }

/-- A value takes effect at tick `te` (R123, R124, R229, Table 4.4). Answers CASE and edge instant; none is DEFERRED. -/
def RefSt.take (r : RefSt) (h : Option HalfPeriod) (minpw te : Nat) (cap : Option Nat) (v : CmpVal) : RefSt × Option (Nat × Nat) :=
  let q := te * 8
  if v.mode = .off then
    ({ r.count q with val := some v, defer := none, edge := none, ref := false, lastEdge := if r.ref then some q else r.lastEdge
                      edges := if r.ref then r.edges + 1 else r.edges }, some (3, 0))
  else
    match h with
    | none => ({ r with val := some v, defer := none, edge := none }, some (3, 0))
    | some h =>
      if r.emitted then ({ r with defer := some v }, none)
      else
        match valueEdge h r.ref cap (some v) with
        | none => ({ r with val := some v, defer := none, edge := none }, some (3, 0))
        | some tn =>
          if q < tn then ({ r with val := some v, defer := none, edge := some tn }, some (0, tn))
          else
            let e := match r.lastEdge with
              | some p => max q (p + minpw * 8)
              | none => q
            if (h.start + h.len) * 8 ≤ e then ({ r with defer := some v, edge := none }, none)
            else ({ r with val := some v, defer := none, edge := some e }, some (1, e))

/-- The value that places a channel's edges: the value at onset while HOLD or SOFT_OFF acts, else the value in force. -/
def Chan.governing (c : Chan) : Option CmpVal := c.held.getD c.val

/-- The runtime's reference up to instant `q` within a half-period: values sent take effect at their T_eff, and edges take place (R127). -/
def Chan.seeBy (c : Chan) (h : Option HalfPeriod) (minpw q : Nat) : Chan :=
  let due := c.seenWait.filter fun w => decide (w.1 * 8 + 7 ≤ q)
  let r := due.foldl (fun (r : RefSt) w => ((r.fireBy (w.1 * 8 + 7)).take h minpw w.1 none w.2).1) c.seen
  { c with seen := r.fireBy q, seenWait := c.seenWait.filter fun w => !decide (w.1 * 8 + 7 ≤ q) }

/-- Write the stamp of a channel: CASE and AGE (R237). -/
def State.stamp (s : State) (T i case age : Nat) : State :=
  let age := satN 32 age
  if T < 24 then
    let u := s.f R.PWM_SLOT_UPD_CASE T
    (s.setF R.PWM_SLOT_UPD_CASE (u - ((u >>> (3 * i)) % 8) * 2 ^ (3 * i) + case * 2 ^ (3 * i)) T).setF R.PWM_AGE_AGE age T i
  else
    let u := s.f R.AUX_BR_UPD_CASE (T - 24)
    (s.setF R.AUX_BR_UPD_CASE (u - ((u >>> (3 * i)) % 8) * 2 ^ (3 * i) + case * 2 ^ (3 * i)) (T - 24)).setF
      R.AUX_AGE_AGE age (T - 24) i

/-- The stamp of a channel with a reference is written, and that of a low channel that follows it (R230, R237). -/
def State.stampLate (s : State) (T i case age : Nat) : State :=
  let s := (s.setChan (6 * T + i) { s.chan (6 * T + i) with stampDue := none, stampOpen := false }).stamp T i case age
  if i % 2 = 0 && !s.legIndep T (i / 2) && (s.chan (6 * T + i + 1)).stampDue.isSome then
    (s.setChan (6 * T + i + 1) { s.chan (6 * T + i + 1) with stampDue := none }).stamp T (i + 1) case age
  else s

/-- The longest time of a high-side value of an AUX bridge in a half-period, unless a trip action holds the bridge (R241). -/
def State.refreshCap (s : State) (T i : Nat) (h : HalfPeriod) : Option Nat :=
  if 24 ≤ T && i % 2 = 0 && !s.targetHeld T then some ((h.len - s.f R.AUX_BR_CFG_RFR (T - 24)) * 8) else none

/-- A value that the refresh limit cuts in a half-period sets DUTY_CLAMP (R241). -/
def State.clampDuty (s : State) (T i : Nat) (h : HalfPeriod) (v : Option CmpVal) : State :=
  s.doIf ((s.refreshCap T i h).any fun m => v.any fun v => v.mode == .compare && decide (m < cmpQ v))
    (·.raise R.AUX_BR_STAT_DUTY_CLAMP (T - 24) E.DUTY_CLAMP (subject (T - 24)))

/-- A short pulse or gap of a reference (R231). -/
def State.shortPulse (s : State) (T : Nat) : State :=
  if T < 24 then (s.incF R.PWM_SLOT_CNT_SHORT_CNT 1 T).raise R.PWM_SLOT_STAT_SHORT_PULSE T E.SHORT_PULSE (subject T)
  else (s.incF R.AUX_BR_CNT_SHORT_CNT 1 (T - 24)).raise R.AUX_BR_STAT_SHORT_PULSE (T - 24) E.AUX_SHORT_PULSE (subject (T - 24))

/-- A turn-off of a channel's drive at instant `e`. -/
def Chan.turnOff (c : Chan) (e : Nat) : Chan :=
  { c with drive := false, onAt := none, lastOff := if c.drive then e else c.lastOff }

/-- A pending turn-on that is due before the next turn-off happens (R230). -/
def Chan.fireOn (c : Chan) (q : Nat) : Chan :=
  match c.onAt with
  | some e => if e ≤ q then { c with drive := true, onAt := none } else c
  | none => c

/-- The low channel of a complementary leg may be on: it has a COMPARE value (R230, R238). -/
def Chan.lowOpen (c : Chan) : Bool :=
  match c.governing with
  | some v => v.mode == .compare
  | none => false

/-- VGD under-voltage drives every AUX gate low (R244). -/
def State.vgdLow (s : State) (T : Nat) : Bool := 24 ≤ T && s.b R.AUX_CTL_VGD_UV

/-- The dead-time stage at a reference edge to level `lv` at instant `e` (R230, R242, R244). -/
def State.legDrive (s : State) (T k e : Nat) (lv : Bool) : State :=
  let hk := 6 * T + 2 * k
  let l := s.leg T k
  let live := 24 ≤ T && s.bitF R.AUX_BR_STAT_BOOT_UV_LIVE k (T - 24)
  let l := { l with edgeWait := l.edgeWait && s.vgdLow T, bootHold := l.bootHold && (live || !lv) }
  let s := s.setLeg T k l
  if s.legIndep T k || s.vgdLow T then s
  else
    let hi := (s.chan hk).fireOn (e - 1)
    let lo := (s.chan (hk + 1)).fireOn (e - 1)
    let open_ := (s.carrier T).opened
    if l.bootHold then s
    else if lv then
      let lo := lo.turnOff e
      let hi := if open_ then { hi with onAt := some (e + s.dead T) } else hi
      (s.setChan hk hi).setChan (hk + 1) lo
    else
      let hi := hi.turnOff e
      let lo := if open_ && lo.lowOpen then { lo with onAt := some (e + s.dead T) } else lo
      (s.setChan hk hi).setChan (hk + 1) lo

/-- The low side of a complementary leg turns on DEAD after instant `q`, or after the high side's last turn-off if that is later, where the low side is
open, the leg reference counts as 0 and the output is not waiting for an edge (R230, R238, R242, R244). -/
def State.lowOn (s : State) (T k q : Nat) : State :=
  let lk := 6 * T + 2 * k + 1
  let hi := s.chan (6 * T + 2 * k)
  let lo := s.chan lk
  let l := s.leg T k
  if s.legIndep T k || !(s.carrier T).opened || !lo.lowOpen || (hi.ref && !l.bootHold) || l.edgeWait || s.vgdLow T || lo.drive || lo.onAt.isSome
  then s
  else s.setChan lk { lo with onAt := some (max q hi.lastOff + s.dead T) }

/-- A reference edge takes place at instant `e` (R228): the level flips, the pulse is checked (R231), a DEFERRED stamp is written
(R237), and the dead-time stage follows. -/
def State.doEdge (s : State) (T i e : Nat) : State :=
  let ck := 6 * T + i
  let c := s.chan ck
  let lv := !c.ref
  let short := match c.lastEdge with
    | some p => decide (e - p < s.minpw T * 8)
    | none => false
  let s := s.setChan ck { c with toRefSt := c.toRefSt.fire e, stampOpen := false }
  let s := match c.stampDue with
    | some issue => s.stampLate T i 2 (e / 8 - issue)
    | none => s
  let s := s.doIf short (·.shortPulse T)
  if s.legIndep T (i / 2) then
    let c := s.chan ck
    s.setChan ck (if lv then { c with drive := (s.carrier T).opened } else c.turnOff e)
  else s.legDrive T (i / 2) e lv

/-- Whether a half-period contains the value's T_eff: the carrier runs and the slot is not OFF (R123). -/
def State.legHalf (s : State) (T k : Nat) : Option HalfPeriod :=
  if s.topo T = topoOff then none else (s.leg T k).hp

/-- The channels of leg `k` that carry a reference of their own. -/
def State.refChans (s : State) (T k : Nat) : List Nat := if s.legIndep T k then [2 * k, 2 * k + 1] else [2 * k]

/-- Edges and turn-ons of leg `k` that are due by instant `q`. -/
def State.runEdges (s : State) (T k q : Nat) : State :=
  let s := (s.refChans T k).foldl (fun s i =>
    match (s.chan (6 * T + i)).edge with
    | some e => if e ≤ q then s.doEdge T i e else s
    | none => s) s
  let s := (s.refChans T k).foldl (fun s i => s.setChan (6 * T + i) ((s.chan (6 * T + i)).seeBy (s.legHalf T k) (s.minpw T) q)) s
  [2 * k, 2 * k + 1].foldl (fun s i => s.setChan (6 * T + i) ((s.chan (6 * T + i)).fireOn q)) s

/-- A half-period of leg `k` starts: a deferred value takes over, a deferred stamp without an edge is written, and the edge of
the half-period is placed. Mark: DEDUCED (log 67). -/
def State.beginHalf (s : State) (T k : Nat) (h : HalfPeriod) : State :=
  let s := s.setLeg T k { s.leg T k with hp := some h }
  (s.refChans T k).foldl (fun s i =>
    let s := s.doIf ((s.chan (6 * T + i)).stampDue.isSome && (s.chan (6 * T + i)).defer.isNone) (·.stampLate T i 3 0)
    let c := s.chan (6 * T + i)
    let s := s.setChan (6 * T + i) { c with toRefSt := c.toRefSt.begin h (s.refreshCap T i h) c.held, seen := c.seen.begin h none none }
    s.clampDuty T i h (s.chan (6 * T + i)).val) s

/-- Leg `k` up to instant `q`: half-periods that begin, edges and turn-ons, in time order. -/
def State.runLeg (s : State) (T k q : Nat) : State :=
  let due := (s.leg T k).queue.filter (fun h => decide (h.start * 8 ≤ q))
  let s := s.setLeg T k { s.leg T k with queue := (s.leg T k).queue.filter (fun h => !decide (h.start * 8 ≤ q)) }
  let s := due.foldl (fun s h => (s.runEdges T k (h.start * 8 - 1)).beginHalf T k h) s
  s.runEdges T k q

/-! ## The pins (R233, R238, R250) -/

/-- What a target's action asks of channel `i` (Table 8.1), before dead time and order: its drive where the action lets the
outputs follow. -/
def State.wanted (s : State) (T i : Nat) : Bool :=
  let c := s.chan (6 * T + i)
  let high := i % 2 = 0
  let npc := !(s.b R.PWM_SLOT_CFG_LV3 (s.bridge T))
  let three := s.topo T = topoA || s.topo T = topoB
  if s.vgdLow T then false
  else if 24 ≤ T && high && (s.leg T (i / 2)).bootHold then false
  else if s.topo T = topoOff || !s.targetEn T then false
  else if !s.targetHeld T then c.drive
  else
    let a := s.actionOf T
    if a = actAscLow then
      if three then (if high then false else s.topo T = topoB || npc) else !high
    else if a = actAscHigh then
      if three then (if high then s.topo T = topoA || npc else false) else high
    else if a = actHold then c.drive
    else if a = actSoftOff then c.pin && c.drive && decide ((kget {} s.trip.targets (s.bridge T)).softCount < 2)
    else false

/-- The instant of a pin's last change. -/
def Chan.pinAt (c : Chan) : Nat := c.changes.headD 0

/-- Whether the pin was high at instant `q` (R256). -/
def Chan.pinHighAt (c : Chan) (q : Nat) : Bool :=
  ((c.changes.filter (fun x => decide (q < x))).length % 2 == 0) == c.pin

/-- The earliest instant at which the pin may take level `lv`, if its partners allow it at all: DEAD after the complement's
turn-off under an action, and the order of a three-level pair (R233). Mark: DESIGN CHOICE (log 66). -/
def State.pinAllowed (s : State) (T i : Nat) (lv : Bool) (q : Nat) : Option Nat :=
  let B := s.bridge T
  let k := i / 2
  let d := s.dead T
  let comp := s.chan (6 * T + (if i % 2 = 0 then i + 1 else i - 1))
  if s.topo T = topoA || s.topo T = topoB then
    let s1 := s.chan (6 * B + 2 * k)
    let s3 := s.chan (6 * B + 2 * k + 1)
    let s2 := s.chan (6 * (B + 1) + 2 * k)
    let s4 := s.chan (6 * (B + 1) + 2 * k + 1)
    let isS1 := T = B && i % 2 = 0
    let isS3 := T = B && i % 2 = 1
    let isS2 := T ≠ B && i % 2 = 0
    if s.b R.PWM_SLOT_CFG_LV3 B then
      -- T-type: S1 and S4 are never on together
      if lv && isS1 then (if s4.pin then none else some (s4.pinAt + d))
      else if lv && !isS3 && !isS2 then (if s1.pin then none else some (s1.pinAt + d))
      else if lv then (if comp.pin then none else some (if s.targetHeld T then comp.pinAt + d else q))
      else some q
    else
      -- NPC: S1 on after S2, S2 off after S1; S4 and S3 likewise
      if lv && isS1 then (if s2.pin && !s3.pin then some (max (s2.pinAt + d) (s3.pinAt + d)) else none)
      else if lv && !isS3 && !isS2 then (if s3.pin && !s2.pin then some (max (s3.pinAt + d) (s2.pinAt + d)) else none)
      else if !lv && isS2 then (if s1.pin then none else some (s1.pinAt + d))
      else if !lv && isS3 then (if s4.pin then none else some (s4.pinAt + d))
      else if lv then (if !s.targetHeld T then some q else if comp.pin then none else some (comp.pinAt + d))
      else some q
  else if lv && s.targetHeld T && !s.legIndep T k then (if comp.pin then none else some (comp.pinAt + d))
  else some q

/-- A three-level edge is delayed by the switching order (R233). -/
def State.interlock (s : State) (T : Nat) : State :=
  ((s.incF R.PWM_SLOT_CNT_ILK_CNT 1 T).setB R.PWM_SLOT_STAT_INTERLOCK true T).postLimited (0x080700 + T) E.INTERLOCK (subject T)

/-- One pin brought to what is wanted, if it may change by instant `q`. Mark: DESIGN CHOICE (log 66). -/
def State.settlePin (s : State) (q : Nat) (T i : Nat) : State :=
  let ck := 6 * T + i
  let c := s.chan ck
  let w := s.wanted T i
  if c.pin = w then (if c.delayed then s.setChan ck { c with delayed := false } else s)
  else
    match s.pinAllowed T i w q with
    | some e =>
      if e ≤ q then
        (s.setChan ck { c with pin := w, changes := (max e (c.pinAt + 1) :: c.changes).take 8, delayed := false }).emit (.pin ck w)
      else if c.delayed then s
      else (s.setChan ck { c with delayed := true }).doIf (s.topo T = topoA || s.topo T = topoB) (·.interlock T)
    | none =>
      if c.delayed then s
      else (s.setChan ck { c with delayed := true }).doIf (s.topo T = topoA || s.topo T = topoB) (·.interlock T)

/-- The pins of a bridge: turn-offs first, then turn-ons, so that each turn-on sees the turn-off it follows. -/
def State.settlePins (s : State) (B : Nat) : State :=
  let q := s.pwmQ
  let chans := (s.bridgeSlots B).flatMap fun T => (List.range 6).map fun i => (T, i)
  let pass (s : State) (lv : Bool) : State :=
    chans.foldl (fun s x => if s.wanted x.1 x.2 = lv then s.settlePin q x.1 x.2 else s) s
  pass (pass (pass s false) false) true

/-- A bridge up to instant `q`. -/
def State.advance (s : State) (B q : Nat) : State :=
  let s := (s.bridgeSlots B).foldl (fun s T => [0, 1, 2].foldl (fun s k => s.runLeg T k q) s) s
  s.settlePins B

/-! ## Mode OFF and values taking effect (R123 to R125, R229, R230, R237) -/

/-- Mode OFF on channel `i` from instant `q` (R229, R230). -/
def State.modeOff (s : State) (T i q : Nat) : State :=
  let ck := 6 * T + i
  let k := i / 2
  let c := s.chan ck
  if s.legIndep T k || i % 2 = 0 then
    let was := c.ref
    let s := s.setChan ck { c.turnOff q with ref := false, edge := none, lastEdge := if was then some q else c.lastEdge }
    if s.legIndep T k || !was then s else s.legDrive T k q false
  else s.setChan ck (c.turnOff q)

/-- A value of a channel that carries a reference takes effect at tick `te`, and is stamped where it belongs to a flit of issue tick `issue` (Table 4.4,
R124, R237). An update of which the edge is still to come is REPLACED. -/
def State.takeRef (s : State) (T i te : Nat) (issue : Option Nat) (v : CmpVal) : State :=
  let ck := 6 * T + i
  let s := s.doIf ((s.chan ck).stampDue.isSome || (s.chan ck).stampOpen) (·.stampLate T i 5 0)
  let c := s.chan ck
  if s.targetHeld T then
    (s.setChan ck { c with val := some v, defer := none, took := some te }).doIf issue.isSome (·.stamp T i 4 0)
  else
    let h := s.legHalf T (i / 2)
    let cap := match h with
      | some h => s.refreshCap T i h
      | none => none
    let s := match h with
      | some h => s.clampDuty T i h (some v)
      | none => s
    let r := c.toRefSt.take h (s.minpw T) te cap v
    let s := if v.mode = .off then (s.setChan ck { c with val := some v, defer := none, took := some te }).modeOff T i (te * 8)
      else s.setChan ck { c with toRefSt := r.1, took := some te }
    match issue, r.2 with
    | none, _ => s
    | some n, none => s.setChan ck { s.chan ck with stampDue := some n }
    | some n, some (k, e) =>
      (s.setChan ck { s.chan ck with stampOpen := decide (k < 2) }).stamp T i k (if k < 2 then e / 8 - n else 0)

/-- The value of a low channel in a complementary leg takes effect; with a high value in the same flit it takes that one's stamp (R230, R237). -/
def State.takeLow (s : State) (T i te : Nat) (issue : Option Nat) (v : CmpVal) (withHigh : Bool) : State :=
  let ck := 6 * T + i
  let s := s.doIf ((s.chan ck).stampDue.isSome) fun s => (s.setChan ck { s.chan ck with stampDue := none }).stamp T i 5 0
  let c := s.chan ck
  let s := s.setChan ck { c with val := some v, took := some te }
  if s.targetHeld T then s.doIf issue.isSome (·.stamp T i 4 0)
  else if v.mode = .off then (s.modeOff T i (te * 8)).doIf issue.isSome (·.stamp T i 3 0)
  else
    let s := s.doIf (!c.lowOpen) (·.lowOn T (i / 2) (te * 8))
    let hi := s.chan (ck - 1)
    if issue.isNone then s
    else if withHigh ∧ hi.stampDue.isSome then s.setChan ck { s.chan ck with stampDue := hi.stampDue }
    else if withHigh then
      if T < 24 then s.stamp T i ((s.f R.PWM_SLOT_UPD_CASE T >>> (3 * (i - 1))) % 8) (s.f R.PWM_AGE_AGE T (i - 1))
      else s.stamp T i ((s.f R.AUX_BR_UPD_CASE (T - 24) >>> (3 * (i - 1))) % 8) (s.f R.AUX_AGE_AGE (T - 24) (i - 1))
    else s.stamp T i 3 0

/-- The waiting value of channel `i` takes effect if its T_eff has come (tick `te` is the present or arrival tick). -/
def State.takeChan (s : State) (T i : Nat) (te : Nat) : State :=
  let ck := 6 * T + i
  match (s.chan ck).wait with
  | none => s
  | some w =>
    if w.teff ≤ te then
      let s := s.setChan ck { s.chan ck with wait := none }
      if !s.legIndep T (i / 2) && i % 2 = 1 then s.takeLow T i w.teff (some w.issue) w.val w.withHigh
      else s.takeRef T i w.teff (some w.issue) w.val
    else s

/-- The first COMPARE flit of the active owner takes effect: the outputs of the slot open, starting from reference 0 (R238). -/
def State.openSlot (s : State) (T : Nat) (te : Nat) : State :=
  if (s.carrier T).opened then s
  else [0, 1, 2].foldl (fun s k => s.lowOn T k (te * 8)) (s.setCarrier T { s.carrier T with opened := true })

/-- COMPARE flits of the active owner whose T_eff is at or before tick `te` serve the watchdog, and LATE shows the last of them (R126, R145). Answers
whether there is one. -/
def State.serve (s : State) (T te : Nat) : State × Bool :=
  let c := s.carrier T
  match (c.served.filter fun x => decide (x.1 ≤ te)).getLast? with
  | none => (s, false)
  | some x =>
    let s := if T < 24 then s.setB R.PWM_SLOT_UPD_LATE x.2 T else s.setB R.AUX_BR_UPD_LATE x.2 (T - 24)
    (s.setCarrier T { c with served := c.served.filter (fun x => !decide (x.1 ≤ te)), servedNow := true, wdCount := 0, wdLine := false }, true)

/-- Values and flits of a target whose T_eff is at or before tick `te` take effect (R123): edges up to the tick come first, then
high channels before low ones, then the watchdog is served (R145) and the slot opened (R238). -/
def State.compareEffective (s : State) (T : Nat) (te : Nat) : State :=
  let s := s.advance (s.bridge T) (te * 8 + 7)
  let s := [0, 2, 4, 1, 3, 5].foldl (fun s i => s.takeChan T i te) s
  let r := s.serve T te
  (r.1.doIf r.2 (·.openSlot T te)).advance (s.bridge T) s.pwmQ

/-! ## Carriers (R224 to R227) -/

/-- The error of an instant (a tick of PWM time) against the nearest scheduled zero event of a carrier with this TOP (R226). -/
def State.phaseError (s : State) (T tick top : Nat) : Int :=
  let base : Int := (if s.lockNtime T then s.net.tofs else 0) + 2 * (tick : Int)
  let r := (base - s.phase T) % ((4 * top : Nat) : Int)
  let e := r / 2
  if e > (top : Int) then (r - ((4 * top : Nat) : Int)) / 2 else e

/-- The first scheduled zero event at or after a tick (R225). -/
def State.nextZero (s : State) (T tick top : Nat) : Nat :=
  let base : Int := (if s.lockNtime T then s.net.tofs else 0) + 2 * (tick : Int)
  let wait := (s.phase T - base) % ((4 * top : Nat) : Int)
  tick + ((wait + 1) / 2).toNat

/-- A value clamped to ± a bound. -/
def clampInt (v : Int) (b : Nat) : Int := if v > (b : Int) then b else if v < -(b : Int) then -(b : Int) else v

/-- Half-periods of the legs of target T follow the carrier's, delayed where LEG says so (R234). Mark: DEDUCED (log 67). -/
def State.queueHalf (s : State) (T : Nat) (h : HalfPeriod) : State :=
  [0, 1, 2].foldl (fun s k =>
    s.setLeg T k { s.leg T k with queue := (s.leg T k).queue ++ [{ h with start := h.start + s.legOfs T k }] }) s

/-- LOCKED rises or falls with the phase error (R226). -/
def State.setLocked (s : State) (T : Nat) (lk : Bool) : State :=
  let was := (s.carrier T).locked
  let s := s.setCarrier T { s.carrier T with locked := lk }
  if T < 24 then
    let s := (s.setB R.PWM_SLOT_STAT_LOCKED lk T).setBitF R.PWM_STAT_LOCKED T lk
    if lk && !was then s.post E.SLOT_LOCKED (subject T)
    else if !lk && was then (s.setB R.PWM_SLOT_STAT_UNLOCK true T).post E.SLOT_UNLOCKED (subject T)
    else s
  else
    let x := T - 24
    let s := (s.setB R.AUX_BR_STAT_LOCKED lk x).setBitF R.AUX_STAT_LOCKED x lk
    if lk && !was then s.post E.AUX_LOCKED (subject x)
    else if !lk && was then (s.setB R.AUX_BR_STAT_UNLOCK true x).post E.AUX_UNLOCKED (subject x)
    else s

/-- PWM fixes the up half-period that starts at the next zero event, and LOCKED, from the error predicted for it (R226). -/
def State.fixNextUp (s : State) (T z upLen top : Nat) : State :=
  let e := s.phaseError T (z + upLen + top) top
  let nu := ((top : Int) - clampInt e (s.phSlew T)).toNat
  let s := s.setCarrier T { s.carrier T with nextUp := nu }
  s.setLocked T (decide (e.natAbs ≤ s.lockTol T))

/-- Start a half-period of the carrier, and of the legs of every slot on it. -/
def State.startHalf (s : State) (T : Nat) (h : HalfPeriod) : State :=
  let s := (s.bridgeSlots T).foldl (fun s T' => s.setCarrier T' { s.carrier T' with servedNow := false }) s
  let s := s.setCarrier T { s.carrier T with hp := some h }
  (s.bridgeSlots T).foldl (fun s T' => s.queueHalf T' h) s

/-- A zero event at tick `z`: of the accepted TOPs whose T_eff has come the last takes effect (R227), the up half-period starts, the next is fixed
(R226). -/
def State.zeroEvent (s : State) (T z : Nat) : State :=
  let c := s.carrier T
  match (c.newTop.filter fun n => decide (n.2 ≤ z)).getLast? with
  | some (top, _) =>
    let s := s.setCarrier T { c with newTop := c.newTop.filter fun n => !decide (n.2 ≤ z) }
    let s := if T < 24 then (s.setF R.PWM_SLOT_TOP_TOP top T).post E.CARRIER_CHANGED (subject T) (nw top)
      else (s.setF R.AUX_BR_TOP_TOP top (T - 24)).post E.AUX_CARRIER_CHANGED (subject (T - 24)) (nw top)
    (s.startHalf T { start := z, len := top, up := true }).fixNextUp T z top top
  | none => (s.startHalf T { start := z, len := c.nextUp, up := true }).fixNextUp T z c.nextUp (s.top T)

/-- The owner context of a target's active owner, if the target has one (R133). -/
def State.activeOwner (s : State) (T : Nat) : Option Nat :=
  if T < 24 then
    if s.b R.PWM_SLOT_STAT_B_ACTIVE T then (if s.b R.PWM_SLOT_OWN_B_EN T then some (s.f R.PWM_SLOT_OWN_OWNER_B T) else none)
    else if s.b R.PWM_SLOT_OWN_A_EN T then some (s.f R.PWM_SLOT_OWN_OWNER_A T) else none
  else if s.b R.AUX_BR_CFG_OWN_EN (T - 24) then some (s.f R.AUX_BR_CFG_OWNER (T - 24)) else none

/-- A half-period ends: one without a COMPARE flit of the active owner adds one to the watchdog count (R145). -/
def State.countWatchdog (s : State) (T : Nat) : State :=
  let c := s.carrier T
  if c.servedNow || s.topo T = topoOff then s else s.setCarrier T { c with wdCount := c.wdCount + 1 }

/-- The carrier's next event, if the carrier runs: its tick and whether it is a zero event. -/
def State.nextCarrier (s : State) (T : Nat) : Option (Nat × Bool) :=
  (s.carrier T).hp.map fun h => (h.start + h.len, !h.up)

/-- The half-period of a carrier ends and the next starts (R224). -/
def State.turnCarrier (s : State) (T : Nat) : State :=
  match (s.carrier T).hp with
  | none => s
  | some h =>
    let e := h.start + h.len
    let s := (s.bridgeSlots T).foldl (fun s T' => s.countWatchdog T') s
    let s := if h.up then s.startHalf T { start := e, len := s.top T, up := false } else s.zeroEvent T e
    s.advance T (e * 8)

/-- Start the carrier of a target at its first zero event (R225). -/
def State.startCarrier (s : State) (T z : Nat) : State :=
  let s := (s.bridgeSlots T).foldl (fun s T' => s.setCarrier T' { s.carrier T' with wdCount := 0 }) s
  let s := s.setCarrier T { s.carrier T with nextUp := s.top T }
  let s := if T < 24 then (s.setB R.PWM_SLOT_STAT_STARTED true T).post E.SLOT_STARTED (subject T) else s
  (s.zeroEvent T z).advance T (z * 8)

end Sys2Proof.Machine
end

