-- ==== Sys2Proof/Machine/Trip.lean ====
section
/-! DEFINITION. The trip matrix: source lines, demands, resolution, onset, release, shorts, latches (R249 to R264), and the
commands that move its source lines: fault returns, AUX protection, watchdogs and comparators (R145, R239, R242 to R244). -/
namespace Sys2Proof.Machine

/-! ## Lines and demands -/

/-- The trip record of a target. -/
def State.target (s : State) (B : Nat) : Target := kget {} s.trip.targets B

/-- Replace the trip record of a target. -/
def State.setTarget (s : State) (B : Nat) (x : Target) : State :=
  { s with trip := { s.trip with targets := kset {} s.trip.targets B x } }

/-- A tracker record. -/
def State.mmt (s : State) (m : Nat) : MmtSt := kget {} s.meas.mmt m

/-- Whether the source line of a rule class and index is asserted (Table 8.2). -/
def State.lineAsserted (s : State) (cls idx : Nat) : Bool :=
  if cls = 1 then (s.mmt idx).hi
  else if cls = 2 then (s.mmt idx).lo
  else if cls = 3 then s.bitF R.TRIP_CMP_STAT_LIVE idx
  else if cls = 4 then s.bitF R.POS_CTL_LOSS_LINE idx
  else if cls = 5 then s.safe.dem.testBit idx
  else if cls = 6 then (if idx = 0 then s.b R.HOSTQ_HL_STAT_LOST0 else idx == 1 && s.b R.HOSTQ_HL_STAT_LOST1)
  else if cls = 7 then s.bitF R.AUX_BR_STAT_BOOT_UV_LIVE (idx % 3) (idx / 3)
  else if cls = 8 then idx == 0 && s.b R.AUX_CTL_VGD_UV
  else false

/-- The enabled trip rules. -/
def State.rules (s : State) : List Nat :=
  s.regs.trip.filterMap fun x =>
    if 0x800 ≤ x.1 ∧ x.1 < 0xC00 ∧ x.1 % 8 = 0 ∧ getBits x.2 31 31 = 1 then some ((x.1 - 0x800) / 8) else none

/-- The STO mask lets a target's fault returns pass (R259). -/
def State.unmasked (s : State) (T : Nat) : Bool := !(s.trip.stoMask && s.bitF R.TRIP_STO_MASK_MASK T)

/-- A fault return, or the VDS source, of a bridge is asserted (R249, R259). -/
def State.localLine (s : State) (B : Nat) : Bool :=
  (s.bridgeSlots B).any fun T =>
    if T < 24 then s.unmasked T && s.f R.PWM_FB_STAT_LIVE T != 0 else s.f R.AUX_BR_STAT_VDS_LIVE (T - 24) != 0

/-- A watchdog line of a bridge is asserted. -/
def State.wdAsserted (s : State) (B : Nat) : Bool := (s.bridgeSlots B).any fun T => (s.carrier T).wdLine

/-- A target mask names the bridge (R249). Mark: DEDUCED (log 63). -/
def State.names (s : State) (mask B : Nat) : Bool := (s.bridgeSlots B).any fun T => mask.testBit T

/-- The demands of the lines of a bridge as they stand (R249, R251). Mark: DEDUCED (log 64). -/
def State.demands (s : State) (B : Nat) : List Demand :=
  (if s.b R.TRIP_TGT_CFG_EN B && s.localLine B then
    [{ ord := 2, act := s.f R.TRIP_TGT_CFG_LOCAL_ACT B, first := 0x100, latch := s.b R.TRIP_TGT_CFG_LOCAL_LATCH B }] else [])
  ++ (if s.b R.TRIP_TGT_CFG_EN B && s.wdAsserted B then
    [{ ord := 3, act := s.f R.TRIP_TGT_CFG_WD_ACT B, first := 0x101, latch := s.b R.TRIP_TGT_CFG_WD_LATCH B }] else [])
  ++ s.rules.filterMap (fun r =>
    if s.names (s.f R.TRIP_RULE_TGT_MASK r) B && s.lineAsserted (s.f R.TRIP_RULE_SRC_CLASS r) (s.f R.TRIP_RULE_SRC_INDEX r) then
      some { ord := 4 + r, act := s.f R.TRIP_RULE_SRC_ACTION r, first := r, latch := s.b R.TRIP_RULE_SRC_LATCH r }
    else none)

/-- SHORT or MLS is set on a bridge (R258). -/
def State.shorted (s : State) (B : Nat) : Bool := s.bitF R.TRIP_SHORT_SHORT B || s.bitF R.TRIP_MLS_MLS B

/-! ## Resolution (R253 to R255, R258) -/

/-- A position interface record. -/
def State.pi (s : State) (n : Nat) : PiSt := kget {} s.pos.pi n

/-- speed_high of a target (R255). -/
def State.speedHigh (s : State) (B : Nat) : Bool :=
  let n := s.f R.TRIP_TGT_AUTO_SPD_PI B
  let w := s.f R.TRIP_TGT_AUTO_SPD_INT B
  if s.bitF R.POS_CTL_LOSS_LINE n then true
  else
    match (if s.b R.POS_PI_CFG_INC_EN n then (s.pi n).edges else (s.pi n).hallEdges) with
    | a :: b :: _ => decide (s.pwmTime - a < w) && decide (a - b < w)
    | _ => false

/-- The condition under which AUTO is ASC (R255). -/
def State.autoCond (s : State) (B : Nat) : Bool :=
  s.b R.TRIP_TGT_STAT_AUTO_ASC B
  || (s.b R.TRIP_TGT_AUTO_SPD_EN B && s.speedHigh B)
  || (s.b R.TRIP_TGT_LINK_LINK_EN B && (s.mmt (s.f R.TRIP_TGT_LINK_LINK_MMT B)).hi)
  || (s.b R.TRIP_TGT_LINK_BEMF_EN B && (s.mmt (s.f R.TRIP_TGT_LINK_BEMF_MMT B)).hi)

/-- The ASC side a target prefers. -/
def State.prefSide (s : State) (B : Nat) : Nat := if s.b R.TRIP_TGT_CFG_ASC_PREF B then actAscHigh else actAscLow

/-- The action a demand stands for once AUTO is resolved (R255). -/
def State.resolved (s : State) (B : Nat) (a : Nat) : Nat :=
  if a = actAuto then
    (if s.topo B = topoDcdc then actAllOff
     else if s.autoCond B then (if 24 ≤ B then actAscLow else s.prefSide B)
     else actAllOff)
  else a

/-- Rank of a resolved action (R253); 9 is none. -/
def rankOf (a : Nat) : Nat :=
  if a = actAscLow ∨ a = actAscHigh then 2 else if a = actAllOff then 3 else if a = actSoftOff then 4 else if a = actHold then 5 else 9

/-- An ASC side of a bridge is blocked (R254). Mark: DEDUCED (log 139). -/
def State.sideBlocked (s : State) (B side : Nat) : Bool :=
  (if B < 24 then
    (s.bridgeSlots B).any fun T => [0, 1, 2].any fun k =>
      s.bitF R.PWM_FB_STAT_LIVE (2 * k + (if side = actAscHigh then 0 else 1)) T
   else side = actAscHigh && s.f R.AUX_BR_STAT_BOOT_UV_LIVE (B - 24) != 0)

/-- A demand with its resolved action. -/
def State.ranked (s : State) (B : Nat) (ds : List Demand) : List Demand :=
  (ds.map fun d => { d with act := s.resolved B d.act }).filter fun d => rankOf d.act < 9

/-- The demand of highest rank, the lower place first among equals. Mark: DEDUCED (log 64). -/
def bestDemand : List Demand → Option Demand
  | [] => none
  | d :: ds =>
    match bestDemand ds with
    | none => some d
    | some e => if rankOf d.act < rankOf e.act ∨ (rankOf d.act = rankOf e.act ∧ d.ord ≤ e.ord) then some d else some e

/-- SUBST rises or falls (R254). -/
def State.setSubst (s : State) (B : Nat) (on : Bool) : State :=
  let was := s.b R.TRIP_TGT_STAT_SUBST B
  let s := (s.bridgeSlots B).foldl (fun s T => s.setB R.TRIP_TGT_STAT_SUBST on T) s
  s.doIf (on && !was) (·.post E.ASC_SUBSTITUTED (subject B))

/-- The ASC side applied: the wanted side, the other side where it is blocked, ALL_OFF where both are (R254). An explicit ASC_HIGH of an AUX bridge
stands (R263). -/
def State.chooseSide (s : State) (B side : Nat) (explicit : Bool) : State × Nat :=
  let other := if side = actAscHigh then actAscLow else actAscHigh
  if !s.sideBlocked B side || (explicit && decide (24 ≤ B)) then (s.setSubst B false, side)
  else if !s.sideBlocked B other then (s.setSubst B true, other)
  else (s.setSubst B false, actAllOff)

/-- Latch the demands whose flag is set (R260). Mark: DEDUCED (log 64). -/
def State.latchDemands (s : State) (B : Nat) (ds : List Demand) : State :=
  let new := ds.filter fun d => d.latch && d.act != actNone
  if new.isEmpty then s
  else
    let x := s.target B
    let add := new.filter fun d => !x.latched.any (fun e => e.first == d.first && e.act == d.act)
    (s.setTarget B { x with latched := x.latched ++ add }).setBitF R.TRIP_LATCH_LATCH B true

/-- auto_asc is kept once the condition holds for an AUTO demand (R255). -/
def State.keepAuto (s : State) (B : Nat) (ds : List Demand) : State :=
  s.doIf (ds.any (fun d => d.act == actAuto) && s.topo B != topoDcdc && s.autoCond B) fun s =>
    (s.bridgeSlots B).foldl (fun s T => s.setB R.TRIP_TGT_STAT_AUTO_ASC true T) s

/-- The action and FIRST of a bridge from its demands, if it has any (R253, R254, R258). -/
def State.decideAction (s : State) (B : Nat) (ds : List Demand) : State × Option (Nat × Nat) :=
  if s.shorted B then
    let asc := (s.ranked B ds).any fun d => rankOf d.act == 2
    let s := if asc && !(s.target B).blocked then
        (s.setTarget B { s.target B with blocked := true }).post E.ASC_BLOCKED (subject B) else s
    (s.setSubst B false, some (actAllOff, 0x102))
  else
    let s := s.keepAuto B ds
    let rs := s.ranked B ds
    match bestDemand rs with
    | none => (s, none)
    | some d =>
      if rankOf d.act = 2 then
        let both := rs.any (·.act == actAscLow) && rs.any (·.act == actAscHigh)
        let side := if both then s.prefSide B else d.act
        let (s, a) := s.chooseSide B side (ds.any (·.act == side))
        (s, some (a, d.first))
      else (s.setSubst B false, some (d.act, d.first))

/-! ## Onset and release (R260 to R263) -/

/-- The summary bits of held targets. -/
def State.heldBits (s : State) (B : Nat) (on : Bool) : State :=
  let s := (s.bridgeSlots B).foldl (fun s T => (s.setB R.TRIP_TGT_STAT_HELD on T).setBitF R.TRIP_STAT_HELD T on) s
  s.setB R.SYS_STAT_HELD_ANY (s.f R.TRIP_STAT_HELD != 0)

/-- The action in force on a bridge. -/
def State.putAction (s : State) (B a : Nat) : State :=
  (s.bridgeSlots B).foldl (fun s T => s.setF R.TRIP_TGT_STAT_ACTION a T) s

/-- A free target becomes held, or a held one has its onset at arming (R253, R263). A value whose T_eff was this tick is stamped HELD. Mark: DEDUCED
(log 65). -/
def State.onset (s : State) (B a first : Nat) : State :=
  let s := (s.heldBits B true).putAction B a
  let s := (s.bridgeSlots B).foldl (fun s T =>
    let s := ((s.setF R.TRIP_TGT_STAT_FIRST first T).incF R.TRIP_TGT_STAT_COUNT 1 T).setF R.TRIP_TS_TS s.shortTs.toNat T
    (List.range 6).foldl (fun s i =>
      let ck := 6 * T + i
      let same := (s.chan ck).took == some s.pwmTime
      let s := s.doIf same fun s => (s.setChan ck { s.chan ck with stampDue := none, stampOpen := false }).stamp T i 4 0
      s.setChan ck { s.chan ck with held := some (s.chan ck).val }) s) s
  (s.setTarget B { s.target B with softCount := 0, freeAt := none, onsetAt := some s.pwmTime }).post E.TRIP_ONSET (subject B) (nw a) (nw first)

/-- A target becomes free: each channel follows its values in force from reference 0; a leg in the middle of a half-period has the edge that is still
to come in it (R234, R262). -/
def State.freeTarget (s : State) (B : Nat) : State :=
  let q := s.pwmQ
  let s := (s.heldBits B false).putAction B actNone
  let s := (s.bridgeSlots B).foldl (fun s T =>
    let s := s.setB R.TRIP_TGT_STAT_AUTO_ASC false T
    let s := s.setB R.TRIP_TGT_STAT_SUBST false T
    (List.range 6).foldl (fun s i =>
      let ck := 6 * T + i
      let c := s.chan ck
      let e := match s.legHalf T (i / 2) with
        | some h => if (s.refChans T (i / 2)).contains i then (valueEdge h false (s.refreshCap T i h) c.val).filter (q ≤ ·) else none
        | none => none
      s.setChan ck { c with held := none, ref := false, edge := e, emitted := false, drive := false, onAt := none }) s) s
  let s := (s.bridgeSlots B).foldl (fun s T => [0, 1, 2].foldl (fun s k => s.lowOn T k q) s) s
  (s.setTarget B { s.target B with freeAt := none, blocked := false }).post E.TRIP_RELEASED (subject B)

/-- The carrier of a bridge has started (R262). -/
def State.carrierRuns (s : State) (B : Nat) : Bool := (s.carrier B).hp.isSome

/-- The demands a bridge is judged by: its latched ones and those asserted now. -/
def State.allDemands (s : State) (B : Nat) : List Demand := (s.target B).latched ++ s.demands B

/-- A bridge's action follows its demands (R253 to R262); several onsets in one tick are one (R263). `arming`: a target with a demand has its onset now (R263). Mark: DEDUCED (log 139). -/
def State.settleTarget (s : State) (B : Nat) (arming : Bool) : State :=
  let s := if s.targetHeld B && !arming then s else s.setTarget B { s.target B with blocked := false }
  let s := s.latchDemands B (s.demands B)
  let (s, r) := s.decideAction B (s.allDemands B)
  match r with
  | some (a, first) =>
    if !s.targetHeld B || arming then s.onset B a first
    else
      let s := s.setTarget B { s.target B with freeAt := none }
      if (s.target B).onsetAt = some s.pwmTime then
        ((s.bridgeSlots B).foldl (fun s T => s.setF R.TRIP_TGT_STAT_FIRST first T) s).putAction B a
      else if a = s.actionOf B then s
      else
        let s := s.putAction B a
        let s := s.setTarget B { s.target B with softCount := 0 }
        s.post E.TRIP_ESCALATED (subject B) (nw a)
  | none =>
    if !s.targetHeld B then s
    else if !s.carrierRuns B then s.freeTarget B
    else if (s.target B).freeAt.isNone then s.setTarget B { s.target B with freeAt := some s.pwmTime } else s

/-- The bridges: every target that is not the second slot of a three-level pair. -/
def State.bridges (s : State) : List Nat := (List.range 28).filter fun T => s.bridge T == T

/-- The matrix judges every line, and the pins follow. -/
def State.settleOnce (s : State) : State :=
  if s.b R.TRIP_CTL_ARMED then
    s.bridges.foldl (fun s B => ((s.advance B s.pwmQ).settleTarget B false).settlePins B) s
  else s

/-- A turn-off ends the watching of an AUX switch, so its VDS line falls (R243). -/
def State.dropVds (s : State) : State :=
  [0, 1, 2, 3].foldl (fun s x =>
    let live := s.f R.AUX_BR_STAT_VDS_LIVE x
    if live = 0 then s
    else
      let keep := (List.range 6).foldl (fun m i => if live.testBit i && (s.chan (144 + 6 * x + i)).pin then m + 2 ^ i else m) 0
      (s.setF R.AUX_BR_STAT_VDS_LIVE keep x).setBitF R.AUX_STAT_VDS_LINE x (keep != 0)) s

/-- The matrix judges every line (R253); a VDS line that its own action ends is judged again. Mark: DESIGN CHOICE (log 10), DEDUCED (log 139). -/
def State.settle (s : State) : State :=
  let live := s.f R.AUX_STAT_VDS_LINE
  let s := s.settleOnce.dropVds
  if s.f R.AUX_STAT_VDS_LINE = live then s else s.settleOnce

/-- A held target without a demand is released at a zero event of its slot after the demands ended (R262). -/
def State.releaseAtZero (s : State) (B z : Nat) : State :=
  match (s.target B).freeAt with
  | some f => if s.b R.TRIP_CTL_ARMED && s.targetHeld B && decide (f < z) then s.freeTarget B else s
  | none => s

/-- A carrier event of a bridge under SOFT_OFF (Table 8.1). -/
def State.softEvent (s : State) (B : Nat) : State :=
  if s.targetHeld B && s.actionOf B = actSoftOff then
    s.setTarget B { s.target B with softCount := (s.target B).softCount + 1 } else s

/-- Arming at sealing (R263). -/
def State.armTrip (s : State) : State :=
  if s.b R.TRIP_CTL_EN then
    let s := s.setB R.TRIP_CTL_ARMED true
    s.bridges.foldl (fun s B => (s.settleTarget B true).settlePins B) s
  else s

/-! ## Shorts (R256, R257) -/

/-- The pin of a channel was high at a tick, or went low within `w` ticks before it. -/
def Chan.highWithin (c : Chan) (tick w : Nat) : Bool :=
  c.pinHighAt (tick * 8) || c.changes.any fun x => decide (x ≤ tick * 8) && decide (tick * 8 ≤ x + w * 8)

/-- MLS sets: every link group that holds the bridge acts on its other members as a latched demand (R257). -/
def State.multiLeg (s : State) (B : Nat) : State :=
  if s.bitF R.TRIP_MLS_MLS B then s
  else
    let s := (s.setBitF R.TRIP_MLS_MLS B true).post E.MULTI_LEG_SHORT (subject B)
    (List.range 8).foldl (fun s g =>
      if s.b R.TRIP_GRP_EN g && s.names (s.f R.TRIP_GRP_MASK g) B then
        (s.bridges.filter fun C => C != B && s.names (s.f R.TRIP_GRP_MASK g) C).foldl (fun s C =>
          s.latchDemands C [{ ord := 132 + g, act := s.f R.TRIP_GRP_MLS_ACT g, first := 0x103, latch := true }]) s
      else s) s

/-- A short report of a leg of a bridge at a tick (R257). -/
def State.shortReport (s : State) (B leg tick : Nat) : State :=
  let s := s.raiseBit R.TRIP_SHORT_SHORT B 0 E.SHORT_REPORTED (subject B)
  let near := s.trip.shorts.any fun x => x.1 == B && x.2.1 != leg && decide (tick ≤ x.2.2 + 100) && decide (x.2.2 ≤ tick + 100)
  let s := { s with trip := { s.trip with shorts := ((B, leg, tick) :: s.trip.shorts).take 64 } }
  s.doIf near (·.multiLeg B)

/-! ## Fault returns (R239, R256, R259) -/

/-- An accepted fault level on channel `i` of slot `T`, whose first tick was `first`. -/
def State.faultAccepted (s : State) (T i first : Nat) : State :=
  let B := s.bridge T
  let s := (s.setBitF R.PWM_FB_STAT_LIVE i true T).raiseBit R.PWM_FB_STAT_SEEN i T E.FB_FAULT (subject T i)
  if !s.unmasked T then
    (if s.trip.stoPosted then s
     else { s.post E.STO_MASKED (subject B) with trip := { s.trip with stoPosted := true } })
  else
    s.doIf (s.b R.TRIP_CTL_ARMED && s.b R.TRIP_TGT_CFG_EN B && s.b R.TRIP_TGT_CFG_SC_EN B
        && (s.chan (6 * T + i)).highWithin first (s.f R.TRIP_TGT_CFG_SC_WIN B))
      (·.shortReport B (i / 2) first)

/-- A level that has stood since an instant is accepted by a filter that has run since sealing (R239, R264). -/
def State.filtered (s : State) (since : Instant) (filt : Nat) : Bool := decide (max (s.firstTick since) s.pwm.enTick + filt ≤ s.pwmTime)

/-- The level that the pull of an FB pin gives an open return: down until sealing and without FB_EN, else toward its fault level (R509). -/
def State.fbPull (s : State) (T i : Nat) : Bool := s.sealed && s.bitF R.PWM_FB_CFG_FB_EN i T && s.bitF R.PWM_FB_CFG_POL i T

/-- FAULT_RETURN (R239): the FB input of a channel stands at `level`, or is open, since an instant, for FILT + 1 ticks or more. -/
def execFaultReturn (t : Instant) (ch : Nat) (level : Option Bool) (since : Instant) (s : State) : Res :=
  let s := s.start t
  let T := ch / 6
  let i := ch % 6
  let fault := level.getD (s.fbPull T i) == s.bitF R.PWM_FB_CFG_POL i T
  .next (s.doIf (s.sealed && decide (ch < 144) && s.bitF R.PWM_FB_CFG_FB_EN i T
      && s.bitF R.PWM_FB_STAT_LIVE i T != fault && s.filtered since (s.f R.PWM_FB_CFG_FILT T))
    (fun s =>
      let s := s.advance (s.bridge T) s.pwmQ
      (if fault then s.faultAccepted T i (s.firstTick since) else s.setBitF R.PWM_FB_STAT_LIVE i false T).settle))

/-! ## AUX protection (R242 to R244) -/

/-- Any phase of a bridge is in bootstrap under-voltage. -/
def State.bootAny (s : State) (x : Nat) : State :=
  s.setBitF R.AUX_STAT_BOOT_UV_ANY x (s.f R.AUX_BR_STAT_BOOT_UV_LIVE x != 0)

/-- The high side of phase k goes off and the leg reference counts as 0, so the low side turns on after DEAD (R242). -/
def State.bootDown (s : State) (x k : Nat) : State :=
  let T := 24 + x
  let s := s.advance T s.pwmQ
  let hk := 6 * T + 2 * k
  let s := s.setLeg T k { s.leg T k with bootHold := true }
  (s.setChan hk ((s.chan hk).turnOff s.pwmQ)).lowOn T k s.pwmQ

/-- BOOT_UV (R242): the bootstrap voltage of a phase has stayed below its threshold for 500 ns. -/
def execBootUv (t : Instant) (x k : Nat) (s : State) : Res :=
  let s := s.start t
  .next (s.doIf (s.sealed && decide (x < 4) && decide (k < 3) && !s.bitF R.AUX_BR_STAT_BOOT_UV_LIVE k x) (fun s =>
    let s := ((s.bootDown x k).setBitF R.AUX_BR_STAT_BOOT_UV_LIVE k true x).raiseBit R.AUX_BR_STAT_BOOT_UV k x E.BOOT_UV (subject x k)
    (((s.bootAny x).settle).settlePins (24 + x))))

/-- BOOT_UV_RELEASE (R242): the voltage has stayed above the threshold for 2 µs; the high side waits for a rising edge. -/
def execBootUvRelease (t : Instant) (x k : Nat) (s : State) : Res :=
  let s := s.start t
  .next (s.doIf (s.sealed && decide (x < 4) && decide (k < 3) && s.bitF R.AUX_BR_STAT_BOOT_UV_LIVE k x) (fun s =>
    (((s.setBitF R.AUX_BR_STAT_BOOT_UV_LIVE k false x).bootAny x).settle)))

/-- Threshold of a VDS comparator in mV by its code (Table 7.6). -/
def vdsThreshold (code : Nat) : Nat := [200, 300, 450, 600, 800, 1000, 1500, 2000].getD code 0

/-- A drain-source voltage in µV is above the threshold of switch `i` of bridge `x` (R243). Mark: DESIGN CHOICE (log 159). -/
def State.vdsAbove (s : State) (x i : Nat) (v : Int) : Bool :=
  decide ((1000 * vdsThreshold (if i % 2 = 0 then s.f R.AUX_BR_VDS_VTH_HS x else s.f R.AUX_BR_VDS_VTH_LS x) : Nat) < v)

/-- The end of the blanking of a switch that is on, in PWM time (R243). -/
def State.vdsBlankEnd (s : State) (x i : Nat) : Nat := (s.chan (144 + 6 * x + i)).pinAt + (s.f R.AUX_BR_VDS_BLANK x + 1) * 250 * nsQ

/-- A comparator asserted since an instant of PWM time is a fault: at the end of blanking, or VFILT after it rose beyond it (R243). -/
def State.vdsDeclared (s : State) (x i since : Nat) : Bool :=
  decide ((if since ≤ s.vdsBlankEnd x i then s.vdsBlankEnd x i else since + (s.f R.AUX_BR_VDS_VFILT x + 1) * 50 * nsQ) ≤ s.pwmQ)

/-- VDS_FAULT (R243): since an instant the drain-source voltage of a switch that is on has been `v` µV or more: still at the end of blanking, or for
VFILT after it. Every VDS fault is a short report at the tick it is declared (R256). -/
def execVdsFault (t : Instant) (x i : Nat) (since : Instant) (v : Int) (s : State) : Res :=
  let s := s.start t
  let T := 24 + x
  .next (s.doIf (s.sealed && decide (x < 4) && decide (i < 6)) (fun s =>
    let s := s.advance T s.pwmQ
    if (s.chan (6 * T + i)).pin && s.vdsAbove x i v && s.vdsDeclared x i (s.pwmQ - (s.now - since)) && !s.bitF R.AUX_BR_STAT_VDS_LIVE i x then
      let s := ((s.setBitF R.AUX_BR_STAT_VDS_LIVE i true x).setBitF R.AUX_STAT_VDS_LINE x true).raiseBit
        R.AUX_BR_STAT_VDS_FLT i x E.VDS_FAULT (subject x i)
      (s.doIf (s.b R.TRIP_CTL_ARMED && s.b R.TRIP_TGT_CFG_EN T) (·.shortReport T (i / 2) s.pwmTime)).settle
    else s))

/-- VDS_BLANKED_RISING (R243): the drain-source voltage of a switch rises to `v` µV, above its threshold, inside blanking, and is only counted. -/
def execVdsBlankedRising (t : Instant) (x i : Nat) (v : Int) (s : State) : Res :=
  let s := s.start t
  let T := 24 + x
  .next (s.doIf (s.sealed && decide (x < 4) && decide (i < 6)) (fun s =>
    let s := s.advance T s.pwmQ
    s.doIf ((s.chan (6 * T + i)).pin && s.vdsAbove x i v && decide (s.pwmQ < s.vdsBlankEnd x i)) (·.incF R.AUX_BR_CNT_BLANKED 1 x)))

/-- VGD falls below 9.5 V: every AUX gate goes low, and waits for a reference edge after the release (R244). -/
def State.vgdDown (s : State) : State :=
  let s := [24, 25, 26, 27].foldl (fun s T =>
    let s := s.advance T s.pwmQ
    let s := [0, 1, 2].foldl (fun s k => s.setLeg T k { s.leg T k with edgeWait := true }) s
    (List.range 6).foldl (fun s i => s.setChan (6 * T + i) ((s.chan (6 * T + i)).turnOff s.pwmQ)) s) s
  let s := (s.setB R.AUX_CTL_VGD_UV true).raise R.AUX_CTL_VGD_UV_SEEN 0 E.VGD_UV 0
  ([24, 25, 26, 27].foldl (fun s T => s.settlePins T) s).settle

/-- VGD_UV (R244). -/
def execVgdUv (t : Instant) (s : State) : Res :=
  let s := s.start t
  .next (s.doIf (s.sealed && !s.b R.AUX_CTL_VGD_UV) (·.vgdDown))

/-- VGD_UV_RELEASE (R244): VGD has stayed above 10.0 V for 10 µs; outputs resume at the next reference edges. -/
def execVgdUvRelease (t : Instant) (s : State) : Res :=
  let s := s.start t
  .next (s.doIf (s.sealed && s.b R.AUX_CTL_VGD_UV) (fun s => (s.setB R.AUX_CTL_VGD_UV false).settle))

/-! ## The STO mask (R259) -/

/-- The STO_MASKED bits of the targets. -/
def State.stoBits (s : State) : State :=
  (List.range 28).foldl (fun s T => s.setB R.TRIP_TGT_STAT_STO_MASKED (s.trip.stoMask && s.bitF R.TRIP_STO_MASK_MASK T) T) s

/-- STO_A or STO_B goes inactive: the mask starts, or goes on. -/
def State.stoDown (s : State) : State :=
  if s.trip.stoMask then { s with trip := { s.trip with stoEnd := none } }
  else ({ s with trip := { s.trip with stoMask := true, stoEnd := none, stoPosted := false } }).stoBits.settle

/-- Both STO outputs are active again: the mask runs for REC µs more. -/
def State.stoUp (s : State) : State :=
  if s.trip.stoMask && s.trip.stoEnd.isNone then
    { s with trip := { s.trip with stoEnd := some (s.now + s.f R.TRIP_STO_REC_REC * usQ) } } else s

/-- The fault returns of masked slots that are still LIVE count as accepted now, and are no shorts (R259). -/
def State.reaccept (s : State) : State :=
  (List.range 24).foldl (fun s T => (List.range 6).foldl (fun s i =>
    s.doIf (!s.unmasked T && s.bitF R.PWM_FB_STAT_LIVE i T) (·.raiseBit R.PWM_FB_STAT_SEEN i T E.FB_FAULT (subject T i))) s) s

/-- STO_MASK_END (R259). -/
def execStoMaskEnd (t : Instant) (s : State) : Res :=
  let s := s.start t
  .next (match s.trip.stoEnd with
    | some e => s.doIf (s.trip.stoMask && decide (e ≤ s.now)) (fun s =>
        ({ s.reaccept with trip := { s.reaccept.trip with stoMask := false, stoEnd := none } }).stoBits.settle)
    | none => s)

/-! ## Clearing (R258, R260) -/

/-- A latching source of a bridge is asserted, or SHORT or MLS is set (R260). -/
def State.latchSource (s : State) (B : Nat) : Bool :=
  s.shorted B || (s.demands B).any fun d => d.latch && d.act != actNone

/-- Clear TRIP_LATCH of one target, or refuse to; a target that latches in the same cycle stays latched (R5). -/
def State.clearLatch (s : State) (B : Nat) : State :=
  if !s.bitF R.TRIP_LATCH_LATCH B then s
  else if s.latchSource B then s.post E.LATCH_HELD (subject B)
  else if s.setNow R.TRIP_LATCH_LATCH B then s
  else (s.setBitF R.TRIP_LATCH_LATCH B false).setTarget B { s.target B with latched := [] }

/-- TRIP_LATCH_CLEAR (R260): a W1C write of TRIP_LATCH. -/
def execTripLatchClear (t : Instant) (fn : Nat) (data : Word) (s : State) : Res :=
  match (s.start t).actionWrite fn R.TRIP_LATCH_LATCH data with
  | (s, go) => .next (s.doIf go (fun s =>
      (((List.range 28).filter fun T => data.toNat.testBit T).foldl (fun s T => s.clearLatch T) s).settle))

/-- SHORT_CLEAR (R258): a W1C write of TRIP_SHORT, or of TRIP_MLS. -/
def execShortClear (t : Instant) (fn : Nat) (mls : Bool) (data : Word) (s : State) : Res :=
  let r := if mls then R.TRIP_MLS_MLS else R.TRIP_SHORT_SHORT
  match (s.start t).actionWrite fn r data with
  | (s, go) => .next (s.doIf go (fun s =>
      (((List.range 28).filter fun T => data.toNat.testBit T).foldl (fun s T => s.w1c r T) s).settle))

/-! ## Comparators and watchdogs (R145, R264) -/

/-- An input voltage in nV is beyond a comparator's threshold (R264). Mark: DESIGN CHOICE (log 159). -/
def State.cmpBeyond (s : State) (c : Nat) (v : Int) : Bool :=
  let thr : Int := (s.f R.TRIP_CMP_CFG_THR c * 2500000000 : Nat)
  if s.b R.TRIP_CMP_CFG_POL c then decide (thr < v * 1024) else decide (v * 1024 < thr)

/-- An input voltage in nV is HYS steps of 2.441 mV or more on the other side of the threshold (R264). -/
def State.cmpBack (s : State) (c : Nat) (v : Int) : Bool :=
  let thr : Int := (s.f R.TRIP_CMP_CFG_THR c * 2500000000 : Nat)
  let hys : Int := (s.f R.TRIP_CMP_CFG_HYS c * 2441000 * 1024 : Nat)
  if s.b R.TRIP_CMP_CFG_POL c then decide (v * 1024 ≤ thr - hys) else decide (thr + hys ≤ v * 1024)

/-- CMP_TRIP (R264): since an instant input AIN `ain` has been at `v` nV or beyond it, past the comparator's threshold, for CFILT + 1 ticks or more. -/
def execCmpTrip (t : Instant) (c ain : Nat) (since : Instant) (v : Int) (s : State) : Res :=
  let s := s.start t
  .next (s.doIf (s.sealed && decide (c < 16) && s.b R.TRIP_CMP_CFG_EN c && !s.bitF R.TRIP_CMP_STAT_LIVE c
      && s.f R.TRIP_CMP_CFG_AIN c == ain && s.cmpBeyond c v && s.filtered since (s.f R.TRIP_CMP_CFG_CFILT c))
    (fun s => ((s.setBitF R.TRIP_CMP_STAT_LIVE c true).raiseBit R.TRIP_CMP_STAT_SEEN c 0 E.CMP_TRIP (subject c)).settle))

/-- CMP_RELEASE (R264): since an instant input AIN `ain` has been back at `v` nV, past the hysteresis, for CFILT + 1 ticks or more. -/
def execCmpRelease (t : Instant) (c ain : Nat) (since : Instant) (v : Int) (s : State) : Res :=
  let s := s.start t
  .next (s.doIf (s.sealed && decide (c < 16) && s.b R.TRIP_CMP_CFG_EN c && s.bitF R.TRIP_CMP_STAT_LIVE c
      && s.f R.TRIP_CMP_CFG_AIN c == ain && s.cmpBack c v && s.filtered since (s.f R.TRIP_CMP_CFG_CFILT c))
    (fun s => (s.setBitF R.TRIP_CMP_STAT_LIVE c false).settle))

/-- The watchdog line of a target asserts once its count reaches WD_N of its active owner (R145). -/
def State.wdExpire (s : State) (T : Nat) : State :=
  match s.activeOwner T with
  | none => s
  | some c =>
    let x := s.carrier T
    if !x.wdLine && decide (s.f R.LOOP_CTX_FLT_WD_N c + 1 ≤ x.wdCount) then
      ((s.setCarrier T { x with wdLine := true }).post E.WD_EXPIRED (subject c)).settle
    else s

/-- WD_EXPIRED (R145). -/
def execWdExpired (t : Instant) (T : Nat) (s : State) : Res :=
  let s := s.start t
  .next (s.doIf (s.sealed && decide (T < 28)) (·.wdExpire T))

end Sys2Proof.Machine
end

