-- ==== Sys2Proof/Machine/Pos.lean ====
section
/-! DEFINITION. POS: quadrature, index, Hall, serial frames, resolver excitation and windows, captures and records, position loss
(R80 to R98). -/
namespace Sys2Proof.Machine

/-- Replace a position interface record. -/
def State.setPi (s : State) (n : Nat) (p : PiSt) : State := { s with pos := { s.pos with pi := kset {} s.pos.pi n p } }

/-- An interface runs (R80). -/
def State.piOn (s : State) (n : Nat) : Bool := s.sealed && decide (n < 8) && s.b R.POS_CTL_EN && s.b R.POS_PI_CFG_EN n

/-- SRC of the POS block port (Table 1.3). -/
def posPort : FlitSrc := .port 5 0

/-! ## Conditions and loss (R97) -/

/-- A condition of STATUS bit `k` is seen: by every KIND of record, and in POS_PI_STAT with its event. -/
def State.cond (s : State) (n k : Nat) (r : FRef) (e : Ev) : State :=
  let p := s.pi n
  let add (m : Nat) : Nat := putBit m k true
  (s.setPi n { p with seenInc := add p.seenInc, seenSer := add p.seenSer, seenRes := add p.seenRes }).raise r n e (subject n)

/-- A cause of R97 arises: with its LOSS_EN bit set, the loss line asserts. -/
def State.lossCause (s : State) (n bit : Nat) : State :=
  if s.bitF R.POS_PI_CFG_LOSS_EN bit n then
    ((s.raise R.POS_PI_STAT_LOSS n E.POS_LOSS (subject n)).setBitF R.POS_CTL_LOSS_LINE n true).settle
  else s

abbrev lossQuad : Nat := 5
abbrev lossHall : Nat := 4
abbrev lossSer : Nat := 3
abbrev lossEnc : Nat := 2
abbrev lossRes : Nat := 1
abbrev lossExc : Nat := 0

/-- An invalid Hall state (R84). -/
def hallInvalid (h : Nat) : Bool := h == 0 || h == 7

/-- The Hall state of an interface is invalid at this tick (R84). -/
def State.hallBad (s : State) (n : Nat) : Bool := s.b R.POS_PI_CFG_HALL_EN n && (s.pi n).hall.any hallInvalid

/-- STATUS of a record: LOSS and the conditions seen since the last record of its KIND, an invalid Hall state at this tick among them (Table
3.4, R84). Mark: DEDUCED (log 42). -/
def State.posStatus (s : State) (n seen : Nat) : Nat :=
  (if s.hallBad n then putBit (seen % 512) 6 true else seen % 512) + 512 * b2n (s.b R.POS_PI_STAT_LOSS n)

/-- An accumulator record. -/
def State.acc (s : State) (a : Nat) : AccSt := kget {} s.meas.acc a

/-- The words of a capture that hold its position: the counter, the serial position, or the sine and cosine windows. -/
def State.captureWords (s : State) (n : Nat) : PosBody → List Int
  | .incremental cnt _ _ _ _ _ _ _ => [cnt.toInt]
  | .serial pos _ => [pos]
  | .resolver _ _ =>
    let x := s.acc (s.f R.POS_RES_ACC_ACC_SIN n)
    let y := s.acc (s.f R.POS_RES_ACC_ACC_COS n)
    [x.resSum, x.resCnt, y.resSum, y.resCnt]

/-- Send a record to the interface's destination (R95). Mark: DEDUCED (log 42). -/
def State.sendPos (s : State) (n : Nat) (ts : Word) (status : Nat) (body : PosBody) : State :=
  (s.setPi n { s.pi n with capture := s.captureWords n body }).doIf (s.b R.POS_DST_EN n) fun s =>
    (s.withMig (.kernels (s.f R.POS_DST_ROUTER n) (s.f R.POS_DST_MASK n))).foldl
      (fun s d => s.send { dst := d, src := posPort, payload := .posres ts n status body }) s

/-! ## Incremental and Hall inputs (R81 to R84) -/

/-- A level that has stood since an instant is accepted: it has held for FILT + 1 ticks (R81). -/
def State.accepted (s : State) (n : Nat) (q : Instant) : Bool := decide (s.firstTick q + s.f R.POS_PI_CFG_FILT n ≤ s.pwmTime)

/-- An accepted A or B edge of edge time `e`, or both at one edge time (R82). `a`, `b`: the levels after it. -/
def State.quadEdge (s : State) (n e : Nat) (aEdge bEdge a b : Bool) : State :=
  let p := s.pi n
  let s := s.setPi n { p with edges := ((e + s.f R.POS_PI_CFG_FILT n) :: p.edges).take 2 }
  if aEdge && bEdge then ((s.cond n 8 R.POS_PI_STAT_QUAD_ERR E.QUAD_ERROR).lossCause n lossQuad).settle
  else
    let fwd := if aEdge then a != b else a == b
    let up := fwd != s.b R.POS_INC_CFG_DIR_INV n
    let p := s.pi n
    (s.setPi n { p with cnt := if up then p.cnt + 1 else p.cnt - 1, edgeTick := some e, edgeDir := up }).settle

/-- Levels of A and B, which have stood since `ta` and `tb`, are sampled (R81, R82): each that is accepted and differs from the accepted
level is an edge, the earlier edge time first. The first accepted level of a pin is no edge. Mark: DESIGN CHOICE (log 38). -/
def State.quadLevels (s : State) (n : Nat) (a b : Bool) (ta tb : Instant) : State :=
  let p := s.pi n
  let okA := s.accepted n ta
  let okB := s.accepted n tb
  let aE := okA && p.qa == some (!a)
  let bE := okB && p.qb == some (!b)
  let na := if okA then some a else p.qa
  let nb := if okB then some b else p.qb
  let ea := s.firstTick ta
  let eb := s.firstTick tb
  let s := s.setPi n { p with qa := na, qb := nb }
  if aE && bE then
    if ea = eb then s.quadEdge n ea true true a b
    else if ea < eb then (s.quadEdge n ea true false a !b).quadEdge n eb false true a b
    else (s.quadEdge n eb false true (!a) b).quadEdge n ea true false a b
  else if aE then s.quadEdge n ea true false a (nb.getD b)
  else if bE then s.quadEdge n eb false true (na.getD a) b
  else s

/-- QUAD_EDGE (R81, R82): A and B stand at `a` and `b` since `ta` and `tb`, and an edge is accepted. -/
def execQuadEdge (t : Instant) (n : Nat) (a b : Bool) (ta tb : Instant) (s : State) : Res :=
  let s := s.start t
  .next (s.doIf (s.piOn n && s.b R.POS_PI_CFG_INC_EN n) (·.quadLevels n a b ta tb))

/-- An index latch that fits neither zero nor CPR (R83). -/
def indexBad (cnt prev : Word) (cpr : Nat) : Bool :=
  let d := (signed 32 (cnt - prev).toNat).natAbs
  decide (2 < d) && decide (2 < ((d : Int) - (cpr : Int)).natAbs)

/-- The counter is latched into IDX_CNT (R83). -/
def State.indexLatch (s : State) (n : Nat) : State :=
  let p := s.pi n
  let bad := p.idxValid && indexBad p.cnt p.idxCnt (4 * (s.f R.POS_INC_CFG_LINES n + 1))
  let s := s.setPi n { p with idxCnt := p.cnt, idxValid := true }
  s.doIf bad (fun s => (s.cond n 7 R.POS_PI_STAT_INDEX_ERR E.INDEX_ERROR).lossCause n lossQuad)

/-- INDEX_LATCH (R83): the gated index is high since `tz`, and A and B stand at `a` and `b` since `ta` and `tb`. Edges of A and B that are
accepted in this tick count first; then the rising edge of the index, once accepted, latches. -/
def execIndexLatch (t : Instant) (n : Nat) (a b : Bool) (ta tb tz : Instant) (s : State) : Res :=
  let s := s.start t
  .next (s.doIf (s.piOn n && s.b R.POS_PI_CFG_INC_EN n) fun s =>
    (s.quadLevels n a b ta tb).doIf (s.b R.POS_INC_CFG_Z_EN n && s.accepted n tz
      && (s.f R.POS_INC_CFG_Z_GATE n == 0 || (s.f R.POS_INC_CFG_Z_GATE n == 1 && a && b))) (·.indexLatch n))

/-- The Hall state that follows in forward order (R84). -/
def hallNext (h : Nat) : Nat :=
  if h = 1 then 3 else if h = 3 then 2 else if h = 2 then 6 else if h = 6 then 4 else if h = 4 then 5 else if h = 5 then 1 else 0

/-- An invalid Hall state ends: it was there at some tick since the last record of each KIND but those of this and the last tick (R84). -/
def State.hallPast (s : State) (n : Nat) : State :=
  let p := s.pi n
  let add (m at_ : Nat) : Nat := if at_ + 1 < s.pwmTime then putBit m 6 true else m
  if s.hallBad n then
    s.setPi n { p with seenInc := add p.seenInc p.recInc, seenSer := add p.seenSer p.recSer, seenRes := add p.seenRes p.recRes }
  else s

/-- The accepted Hall state becomes `h`, with edge time `e` (R84). -/
def State.hallChange (s : State) (n h e : Nat) : State :=
  let s := s.hallPast n
  let p := s.pi n
  let s := s.setPi n { p with hall := some h, hallTick := some e
                              hallEdges := ((e + s.f R.POS_PI_CFG_FILT n) :: p.hallEdges).take 2
                              hallDir := match p.hall with | some o => !hallInvalid o && hallNext o == h | none => false }
  let s := s.doIf (p.hall.any fun o => decide (2 ≤ popcount 3 (o ^^^ h))) (·.cond n 5 R.POS_PI_STAT_HALL_SEQ E.HALL_SEQUENCE)
  (s.doIf (hallInvalid h) (·.cond n 6 R.POS_PI_STAT_HALL_ERR E.HALL_INVALID)).settle

/-- The Hall pins that take a new accepted level at edge time `e`: the state after it (R81, R84). -/
def State.hallAt (s : State) (n h : Nat) (since : List Instant) (e : Nat) : State :=
  match (s.pi n).hall with
  | none => s
  | some o =>
    let h' := (List.range 3).foldl (fun o i =>
      let q := since.getD (2 - i) 0
      if s.accepted n q && s.firstTick q == e then putBit o i (h.testBit i) else o) o
    s.doIf (h' != o) (·.hallChange n h' e)

/-- Insert a tick into a rising list. -/
def insertTick (e : Nat) : List Nat → List Nat
  | [] => [e]
  | x :: xs => if e ≤ x then e :: x :: xs else x :: insertTick e xs

/-- The Hall pins HU, HV, HW stand at `h` since the three instants: changes are accepted in the order of their edge times. The first accepted
state of all is no transition of its own. Mark: DESIGN CHOICE (log 38). -/
def State.hallLevels (s : State) (n h : Nat) (since : List Instant) : State :=
  let es := since.foldr (fun q es => insertTick (s.firstTick q) es) []
  if (s.pi n).hall.isNone then s.doIf (since.all (s.accepted n)) (·.hallChange n h (es.getLastD 0))
  else es.foldl (fun s e => s.hallAt n h since e) s

/-- HALL_TRANSITION (R84): HU, HV and HW stand at `h` since the instants `tu`, `tv`, `tw`, and a change is accepted. -/
def execHallTransition (t : Instant) (n h : Nat) (tu tv tw : Instant) (s : State) : Res :=
  let s := s.start t
  .next (s.doIf (s.piOn n && s.b R.POS_PI_CFG_HALL_EN n) (·.hallLevels n (h % 8) [tu, tv, tw]))

/-! ## Serial frames (R85 to R88) -/

/-- The MA period in steps of 250 ps: MA_DIV periods of 250 MHz (R85). -/
def State.maPeriod (s : State) (n : Nat) : Nat := s.f R.POS_SER_CFG_MA_DIV n * 4 * nsQ

/-- CAP_TS of a serial record (R87): the first MA falling edge, with the encoder's latch delay in BiSS-C, rounded to the next tick. -/
def State.serTs (s : State) (n : Nat) (start : Instant) : Word :=
  let q := start + (if s.f R.POS_PI_CFG_SER n = 1 then s.f R.POS_SER_CFG_DLY n * 8 * nsQ else 0)
  BitVec.ofInt 32 (s.net.tofs + 2 * (s.firstTick q : Int))

/-- A capture starts a frame within 4 ns, or is ignored while one runs or the encoder is not ready (R85, R88). -/
def State.serCapture (s : State) (n : Nat) : State :=
  let p := s.pi n
  if p.ser.running || decide (s.now < p.ser.ready) then
    s.raise R.POS_PI_STAT_SER_OVERRUN n E.SER_OVERRUN (subject n)
  else
    let (s, d) := s.draw
    let start := s.now + (Config.freeWord d).toNat % (4 * nsQ + 1)
    (s.setPi n { p with ser := { p.ser with running := true, start := start, ts := s.serTs n start } }).emit
      (.ma n (some (start, s.maPeriod n)))

/-- The level of PIn_MA (R85): high when idle; while a frame runs it falls at the start of each period and rises in the middle. -/
def State.maLevel (s : State) (n : Nat) : Bool :=
  let x := (s.pi n).ser
  !x.running || decide (s.now < x.start) || decide (s.maPeriod n ≤ 2 * ((s.now - x.start) % s.maPeriod n))

/-- A frame ends: PIn_MA idles high again, and the interface is ready at an instant. -/
def State.serStop (s : State) (n : Nat) (ready : Instant) : State :=
  (s.setPi n { s.pi n with ser := { (s.pi n).ser with running := false, ready := ready } }).emit (.ma n none)

/-- CRC-6 of BiSS-C over the `k` low bits of `v`, MSB first: polynomial x⁶ + x + 1 (R85). Mark: PRESUMED (log 41). -/
def biss6 (k v : Nat) : Nat :=
  (List.range k).foldl (fun c i =>
    let top := (c >>> 5) % 2
    let b := (v >>> (k - 1 - i)) % 2
    let c' := (c * 2) % 64
    if top ^^^ b = 1 then c' ^^^ 3 else c') 0

/-- Gray code to binary over `k` bits. -/
def grayToBin (k v : Nat) : Nat :=
  (List.range k).foldl (fun (acc : Nat) i => acc * 2 + ((acc + v >>> (k - 1 - i)) % 2)) 0

/-- A frame ends that counts as failed, or not, for the loss line (R97). -/
def State.serOutcome (s : State) (n : Nat) (failed : Bool) : State :=
  let p := s.pi n
  if failed then
    let s := s.setPi n { p with ser := { p.ser with run := p.ser.run + 1 } }
    s.doIf (p.ser.run + 1 == s.f R.POS_PI_CFG_LOSS_N n + 1) (·.lossCause n lossSer)
  else s.setPi n { p with ser := { p.ser with run := 0 } }

/-- Send the serial record. -/
def State.serRecord (s : State) (n pos lineDly : Nat) : State :=
  let p := s.pi n
  let s := s.setPi n { p with seenSer := 0, recSer := s.pwmTime }
  s.sendPos n p.ser.ts (s.posStatus n p.seenSer) (.serial pos lineDly)

/-- A frame's bits are in: `raw` the position bits, `check` the CRC bits as received (BiSS-C) or the parity bit (SSI). -/
def State.serialEnd (s : State) (n raw check lineDly : Nat) (nE nW : Bool) (ready : Instant) : State :=
  let len := s.f R.POS_SER_CFG_LEN n + 1
  let v := raw % 2 ^ len
  if s.f R.POS_PI_CFG_SER n = 1 then
    let s := s.serStop n ready
    let bad := 63 - biss6 (len + 2) (v * 4 + b2n nE * 2 + b2n nW) != check % 64
    let s := s.doIf bad (·.cond n 4 R.POS_PI_STAT_SER_CRC E.SER_CRC)
    let s := s.doIf (!nE) (fun s => (s.cond n 2 R.POS_PI_STAT_ENC_ERR E.ENC_ERROR).lossCause n lossEnc)
    let s := s.doIf (!nW) (·.cond n 1 R.POS_PI_STAT_ENC_WARN E.ENC_WARNING)
    (s.serOutcome n bad).serRecord n v lineDly
  else
    let s := s.serStop n (s.now + 25 * usQ)
    let bad := s.b R.POS_SER_CFG_PARITY n && popcount 41 v % 2 != check % 2
    let s := s.doIf bad (·.cond n 4 R.POS_PI_STAT_SER_CRC E.SER_CRC)
    (s.serOutcome n bad).serRecord n (if s.b R.POS_SER_CFG_GRAY n then grayToBin len v else v) 0

/-- SERIAL_FRAME_END (R86): the last bit of a frame is sampled. `ready`: when SL is high again after a BiSS-C frame (R88). Mark: DEDUCED (log 40). -/
def execSerialFrameEnd (t : Instant) (n raw check lineDly : Nat) (nE nW : Bool) (ready : Instant) (s : State) : Res :=
  let s := s.start t
  .next (s.doIf (s.piOn n && (s.pi n).ser.running) (·.serialEnd n raw check lineDly nE nW ready))

/-- The start bit has not arrived in time: the frame ends, and the next record names the timeout (R86). The frame itself sends no record, and
its time counts from its first MA falling edge. Mark: DEDUCED (log 145). -/
def State.serTimeout (s : State) (n : Nat) (ready : Instant) : State :=
  (((s.serStop n ready).cond n 3 R.POS_PI_STAT_SER_TIMEOUT E.SER_TIMEOUT).serOutcome n true)

/-- SER_TIMEOUT (R86): 4 × (TIMEOUT + 1) MA periods without a start bit. `ready`: when SL is high again (R88). -/
def execSerTimeout (t : Instant) (n : Nat) (ready : Instant) (s : State) : Res :=
  let s := s.start t
  let lim := 4 * (s.f R.POS_SER_CFG_TIMEOUT n + 1) * s.maPeriod n
  .next (s.doIf (s.piOn n && s.f R.POS_PI_CFG_SER n == 1 && (s.pi n).ser.running && decide ((s.pi n).ser.start + lim ≤ s.now))
    (·.serTimeout n ready))

/-! ## Resolver excitation (R89 to R91) -/

/-- Phase of a segment at a tick, in 1/125,000 of a cycle. -/
def ExcSeg.phase (g : ExcSeg) (tick : Nat) : Nat :=
  (g.ph0 + (tick - g.org) * g.num * 125000 / max g.len 1) % 125000

/-- The excitation sine is positive at a tick; while the excitation does not run it is not (R64). -/
def excPositive : List ExcSeg → Nat → Bool
  | [], _ => false
  | g :: gs, tick => if g.since ≤ tick then g.on && decide (g.phase tick < 62500) else excPositive gs tick

/-- Keep what a delayed sign reference can still reach. -/
def pruneSegs (now : Nat) : List ExcSeg → List ExcSeg
  | [] => []
  | g :: gs => if g.since + 4100 ≤ now then [g] else g :: pruneSegs now gs

/-- A new stretch of excitation. -/
def State.pushExc (s : State) (n : Nat) (g : ExcSeg) : State :=
  let p := s.pi n
  (s.setPi n { p with exc := pruneSegs s.pwmTime (g :: p.exc) }).emit
    (.exc n (if g.on then s.f R.POS_RES_CFG_EXC_AMP n + 1 else 0) g.num g.len)

/-- The output of an excitation at a tick, in V (R89): the DAC is updated every 50 ticks with (EXC_AMP + 1) × 0.125 V times the sine of the
phase, to 12 bits of the full scale of 2 V either way; 0 V while it does not run. Mark: DESIGN CHOICE (log 146). -/
def State.excVolts (s : State) (n tick : Nat) : Rat :=
  match ((s.pi n).exc.find? fun g => decide (g.since ≤ tick / 50 * 50)) with
  | some g =>
    if g.on then
      let v := ((s.f R.POS_RES_CFG_EXC_AMP n + 1 : Nat) : Rat) / 8 * Config.sin (2 * Config.pi * (g.phase (tick / 50 * 50) : Rat) / 125000)
      ((v * 1024).floor : Rat) / 1024
    else 0
  | none => 0

/-- The excitation of an interface is enabled. -/
def State.excOn (s : State) (n : Nat) : Bool := s.b R.POS_CTL_EN && s.b R.POS_PI_CFG_EN n && s.b R.POS_RES_CFG_EXC_EN n

/-- Free-running excitation starts at sealing (R89). -/
def State.excStart (s : State) : State :=
  (List.range 8).foldl (fun s n =>
    if s.excOn n && !s.b R.POS_RES_CFG_LOCK n then
      s.pushExc n { since := s.pwmTime, on := true, org := s.pwmTime, num := 1, len := s.f R.POS_RES_CFG_EXC_PER n, ph0 := 0 }
    else s) s

/-- A carrier event of a slot at tick `z` that starts a half-period of `len` ticks: locked excitation follows it (R89, R90). -/
def State.excCarrier (s : State) (slot z len : Nat) : State :=
  (List.range 8).foldl (fun s n =>
    if s.excOn n && s.b R.POS_RES_CFG_LOCK n && s.f R.POS_RES_CFG_LOCK_SLOT n == slot then
      let m := s.f R.POS_RES_CFG_M n + 1
      let on := !s.b R.POS_PI_STAT_EXC_FAULT n
      if m * 25000 ≤ len ∧ len ≤ m * 125000 then
        s.pushExc n { since := z, on := on, org := z, num := m, len := len, ph0 := 0 }
      else
        let lim := if len < m * 25000 then 25000 else 125000
        let ph := match (s.pi n).exc with
          | g :: _ => g.phase z
          | [] => 0
        (s.pushExc n { since := z, on := on, org := z, num := 1, len := lim, ph0 := ph }).raise R.POS_PI_STAT_EXC_UNLOCK n
          E.EXC_UNLOCKED (subject n)
    else s) s

/-- The output of an excitation starts or stops with its phase kept. -/
def State.excSwitch (s : State) (n : Nat) (on : Bool) : State :=
  match (s.pi n).exc with
  | g :: _ => s.pushExc n { g with since := s.pwmTime, on := on }
  | [] => s

/-- EXC_FAULT (R91): a short or overload of the output, which drives 0 V until EXC_FAULT is cleared. -/
def execExcFault (t : Instant) (n : Nat) (s : State) : Res :=
  let s := s.start t
  .next (s.doIf (s.piOn n && s.b R.POS_RES_CFG_EXC_EN n) (fun s =>
    ((s.cond n 0 R.POS_PI_STAT_EXC_FAULT E.EXC_FAULT).excSwitch n false).lossCause n lossExc))

/-! ## Resolver windows (R92, R93) -/

/-- The amplitude of the pair's latest results: a_s² + a_c², the averages truncated toward zero; `none` if one is void. -/
def State.amp2 (s : State) (n : Nat) : Option Nat :=
  let x := s.acc (s.f R.POS_RES_ACC_ACC_SIN n)
  let y := s.acc (s.f R.POS_RES_ACC_ACC_COS n)
  if x.resCnt = 0 ∨ y.resCnt = 0 then none
  else
    let a := x.resSum.tdiv x.resCnt
    let b := y.resSum.tdiv y.resCnt
    some (a * a + b * b).toNat

/-- At a close of the pair POS judges the window and sends a resolver record (R93), whose AMP2 is 0 for a void window. Mark: DESIGN CHOICE
(log 147). -/
def State.resolverClose (s : State) (n : Nat) : State :=
  let lo := s.f R.POS_RES_LIM_AMIN n
  let hi := s.f R.POS_RES_LIM_AMAX n
  let (fail, amp) := match s.amp2 n with
    | none => (true, 0)
    | some v => (decide (v < lo * lo) || decide (hi * hi < v), v)
  let p := s.pi n
  let s := s.setPi n { p with resFresh := 0, resRun := if fail then p.resRun + 1 else 0 }
  let s := s.doIf fail (·.cond n 0 R.POS_PI_STAT_RES_AMP E.RES_AMPLITUDE)
  let s := s.doIf (fail && p.resRun + 1 == s.f R.POS_PI_CFG_LOSS_N n + 1) (·.lossCause n lossRes)
  let p := s.pi n
  (s.setPi n { p with seenRes := 0, recRes := s.pwmTime }).sendPos n s.shortTs (s.posStatus n p.seenRes) (.resolver (satN 32 amp) (satN 8 p.resRun))

/-- Accumulators that closed together reach the resolvers they serve. -/
def State.resolvers (s : State) (closed : List Nat) : State :=
  (List.range 8).foldl (fun s n =>
    if s.b R.POS_CTL_EN && s.b R.POS_PI_CFG_EN n && s.b R.POS_PI_CFG_RES_EN n then
      let p := s.pi n
      let f := p.resFresh
      let f := if closed.contains (s.f R.POS_RES_ACC_ACC_SIN n) then putBit f 0 true else f
      let f := if closed.contains (s.f R.POS_RES_ACC_ACC_COS n) then putBit f 1 true else f
      let s := s.setPi n { p with resFresh := f }
      s.doIf (f == 3) (·.resolverClose n)
    else s) s

/-! ## Capture (R94) -/

/-- An age in ticks up to the capture, saturating at 24 bits; a free value while there was no edge. Mark: DESIGN CHOICE (log 39). -/
def State.age (s : State) (at_ : Option Nat) : State × Nat :=
  match at_ with
  | some e => (s, satN 24 (s.pwmTime - e))
  | none => ((s.draw).1, (Config.freeWord s.free).toNat % 2 ^ 24)

/-- The incremental and Hall part of a capture. Mark: DESIGN CHOICE (log 39). -/
def State.incCapture (s : State) (n : Nat) : State :=
  let p := s.pi n
  let hallOn := s.b R.POS_PI_CFG_HALL_EN n
  let inv := s.hallBad n
  let run := if inv then p.hallRun + 1 else 0
  let s := s.setPi n { p with hallRun := if hallOn then run else p.hallRun }
  let s := s.doIf (inv && run == s.f R.POS_PI_CFG_LOSS_N n + 1) (·.lossCause n lossHall)
  let (s, ea) := s.age p.edgeTick
  let (s, ha) := s.age p.hallTick
  let (s, h) := match p.hall with
    | some h => (s, h)
    | none => ((s.draw).1, (Config.freeWord s.free).toNat % 8)
  let p := s.pi n
  let st := s.posStatus n p.seenInc
  (s.setPi n { p with seenInc := 0, recInc := s.pwmTime }).sendPos n s.shortTs st
    (.incremental (if s.b R.POS_PI_CFG_INC_EN n then p.cnt else 0) ea p.edgeDir p.idxCnt p.idxValid (if hallOn then h else 0) ha p.hallDir)

/-- An interface captures: an incremental or Hall record, and a serial frame (R80, R94). -/
def State.capture (s : State) (n : Nat) : State :=
  let s := s.doIf (s.b R.POS_PI_CFG_INC_EN n || s.b R.POS_PI_CFG_HALL_EN n) (·.incCapture n)
  s.doIf (s.f R.POS_PI_CFG_SER n == 1 || s.f R.POS_PI_CFG_SER n == 2) (·.serCapture n)

/-- Edge codes of a carrier source: zero, peak or both (Table 2.8, Table 2.15). -/
def edgeMatch (code : Nat) (zero : Bool) : Bool := code.testBit (if zero then 0 else 1)

/-- A carrier source ARG names the slot and the kind of event (Table 2.15). -/
def argCarrier (arg slot : Nat) (zero : Bool) : Bool := (arg >>> 19) % 32 == slot && edgeMatch ((arg >>> 17) % 4) zero

/-- DIV of a carrier source (Table 2.15). -/
def argDiv (arg : Nat) : Nat := (arg >>> 9) % 256 + 1

/-- Interfaces that capture on a carrier event (R94). -/
def State.captureCarrier (s : State) (slot : Nat) (zero : Bool) : State :=
  (List.range 8).foldl (fun s n =>
    let arg := s.f R.POS_CAP_ARG n
    if s.piOn n && s.f R.POS_CAP_SRC n == 0 && argCarrier arg slot zero then
      let p := s.pi n
      if p.capDiv + 1 < argDiv arg then s.setPi n { p with capDiv := p.capDiv + 1 }
      else (s.setPi n { p with capDiv := 0 }).capture n
    else s) s

/-- Interfaces that capture on an NTIME generator event. -/
def State.captureNtev (s : State) (k : Nat) : State :=
  (List.range 8).foldl (fun s n =>
    s.doIf (s.piOn n && s.f R.POS_CAP_SRC n == 1 && s.f R.POS_CAP_ARG n % 8 == k) (·.capture n)) s

/-! ## Clearing (R98) -/

/-- LOSS is cleared, unless a cause arises in the same tick: the line falls and every consecutive count starts again (R5, R98). -/
def State.clearLoss (s : State) (n : Nat) : State :=
  let s := s.w1c R.POS_PI_STAT_LOSS 0 n
  if s.b R.POS_PI_STAT_LOSS n then s
  else
    let p := s.pi n
    (s.setPi n { p with hallRun := 0, resRun := 0, ser := { p.ser with run := 0 } }).setBitF R.POS_CTL_LOSS_LINE n false

/-- What a clear of the other POS_PI_STAT bits brings: a Hall state that is still invalid sets HALL_ERR at this tick too (R84), and
an excitation whose fault is cleared drives again (R91). -/
def State.piStatCleared (s : State) (n : Nat) (data : Word) : State :=
  let s := s.doIf (data.getLsbD 7 && s.piOn n && s.hallBad n)
    (·.setB R.POS_PI_STAT_HALL_ERR true n)
  s.doIf (data.getLsbD 0 && !s.b R.POS_PI_STAT_EXC_FAULT n && (match (s.pi n).exc with | g :: _ => !g.on | [] => false)) (·.excSwitch n true)

/-- LOSS_CLEAR (R98): a write of POS_PI_STAT with LOSS set. -/
def execLossClear (t : Instant) (fn n : Nat) (data : Word) (s : State) : Res :=
  match (s.start t).actionWrite fn R.POS_PI_STAT_LOSS data n with
  | (s, go) => .next ((s.doIf go (fun s => (s.piStatCleared n data).clearLoss n)).settle)

end Sys2Proof.Machine
end

