-- ==== Sys2Proof/Machine/Meas.lean ====
section
/-! DEFINITION. MEAS: converter units and sequences, sigma-delta channels, accumulators, trackers, pairs, NTIME generators
(R43 to R77). -/
namespace Sys2Proof.Machine

/-- MEAS runs: from sealing, and never before every unit has calibrated (R47). -/
def State.measOn (s : State) : Bool := s.sealed && s.b R.MEAS_CTL_EN && s.b R.MEAS_CTL_CAL_DONE

/-- SRC of MEAS port 0 (Table 1.3), through which every window result leaves. Mark: DESIGN CHOICE (log 37). -/
def measPort : FlitSrc := .port 1 0

/-! ## Records -/

def State.unit (s : State) (n : Nat) : UnitSt := kget {} s.meas.units n
def State.setUnit (s : State) (n : Nat) (u : UnitSt) : State := { s with meas := { s.meas with units := kset {} s.meas.units n u } }
def State.sdCh (s : State) (n : Nat) : SdSt := kget {} s.meas.sd n
def State.setSd (s : State) (n : Nat) (x : SdSt) : State := { s with meas := { s.meas with sd := kset {} s.meas.sd n x } }
def State.setAcc (s : State) (a : Nat) (x : AccSt) : State := { s with meas := { s.meas with acc := kset {} s.meas.acc a x } }
def State.setMmt (s : State) (m : Nat) (x : MmtSt) : State := { s with meas := { s.meas with mmt := kset {} s.meas.mmt m x } }
def State.pair (s : State) (p : Nat) : PairSt := kget {} s.meas.pairs p
def State.setPair (s : State) (p : Nat) (x : PairSt) : State := { s with meas := { s.meas with pairs := kset {} s.meas.pairs p x } }

/-- The enabled accumulators, rising. -/
def State.accsOn (s : State) : List Nat :=
  s.regs.meas.filterMap fun x =>
    if 0x2000 ≤ x.1 ∧ x.1 < 0x3000 ∧ x.1 % 16 = 0 ∧ getBits x.2 31 31 = 1 then some ((x.1 - 0x2000) / 16) else none

/-- The enabled trackers, rising. -/
def State.mmtsOn (s : State) : List Nat :=
  s.regs.meas.filterMap fun x =>
    if 0x3000 ≤ x.1 ∧ x.1 < 0x4000 ∧ x.1 % 16 = 0 ∧ getBits x.2 31 31 = 1 then some ((x.1 - 0x3000) / 16) else none

/-! ## Packing of results (R68, R70) -/

/-- Results for one destination, two to a flit in rising index. -/
def pairUp {α : Type} : List (Nat × α) → List (Nat × α × Option α)
  | [] => []
  | [x] => [(x.1, x.2, none)]
  | x :: y :: xs => (x.1, x.2, some y.2) :: pairUp xs

/-- Insert a flit by the index of its result A, after flits of the same index. -/
def insertFlit (k : Nat) (f : Flit) : List (Nat × Flit) → List (Nat × Flit)
  | [] => [(k, f)]
  | (k', f') :: fs => if k < k' then (k, f) :: (k', f') :: fs else (k', f') :: insertFlit k f fs

/-- The flits of results closed by one event: packed per destination, leaving in rising index of result A. -/
def packFlits {α : Type} (mk : α → Option α → Payload) (xs : List (FlitDst × Nat × α)) : List Flit :=
  let dsts := xs.foldl (fun ds x => if ds.contains x.1 then ds else ds ++ [x.1]) []
  let fs := dsts.flatMap fun d =>
    (pairUp (xs.filterMap fun x => if x.1 = d then some x.2 else none)).map fun p =>
      (p.1, ({ dst := d, src := measPort, payload := mk p.2.1 p.2.2 } : Flit))
  (fs.foldl (fun acc x => insertFlit x.1 x.2 acc) []).map (·.2)

/-- The destinations of an accumulator (R68). -/
def State.accDests (s : State) (a : Nat) : List FlitDst :=
  (if s.b R.MEAS_ACC_DST0_EN a then s.withMig (.kernels (s.f R.MEAS_ACC_DST0_ROUTER a) (s.f R.MEAS_ACC_DST0_MASK a)) else [])
  ++ (if s.b R.MEAS_ACC_DST1_EN a then s.withMig (.kernels (s.f R.MEAS_ACC_DST1_ROUTER a) (s.f R.MEAS_ACC_DST1_MASK a)) else [])

/-- Send the window results of one closing event. Mark: DESIGN CHOICE (log 37). -/
def State.sendWins (s : State) (ws : List WinItem) : State :=
  (packFlits (fun a b => .winres s.shortTs a b) (ws.flatMap fun w => (s.accDests w.acc).map fun d => (d, w.acc, w))).foldl
    (fun s f => s.send f) s

/-- Send the tracker results of one closing event. Mark: DESIGN CHOICE (log 37). -/
def State.sendTrks (s : State) (ts : List TrkItem) : State :=
  (packFlits (fun a b => .trkres s.shortTs a b) (ts.flatMap fun w =>
    if s.b R.MEAS_MMT_DST_EN w.mmt then
      (s.withMig (.kernels (s.f R.MEAS_MMT_DST_ROUTER w.mmt) (s.f R.MEAS_MMT_DST_MASK w.mmt))).map fun d => (d, w.mmt, w)
    else [])).foldl
    (fun s f => s.send f) s

/-! ## Pairs (R74) -/

/-- Whether the latest results of a pair are discrepant. -/
def State.discrepant (s : State) (p : Nat) : Bool :=
  let x := s.acc (s.f R.MEAS_PAIR_CFG_ACC_A p)
  let y := s.acc (s.f R.MEAS_PAIR_CFG_ACC_B p)
  decide (s.f R.MEAS_PAIR_LIM_LIM p * x.resCnt * y.resCnt < (x.resSum * y.resCnt - y.resSum * x.resCnt).natAbs)

/-- The summary bit PAIR_ANY. Mark: DEDUCED (log 26). -/
def State.pairAny (s : State) : State := s.setB R.MEAS_STAT_PAIR_ANY (s.f R.MEAS_PAIR_STAT_FAULT != 0)

/-- A comparison of pair `p`. -/
def State.comparePair (s : State) (p : Nat) : State :=
  let x := s.pair p
  let a := s.acc (s.f R.MEAS_PAIR_CFG_ACC_A p)
  let b := s.acc (s.f R.MEAS_PAIR_CFG_ACC_B p)
  let x := { x with freshA := false, freshB := false }
  if a.resCnt = 0 ∨ b.resCnt = 0 then s.setPair p x
  else if s.discrepant p then
    let s := s.setPair p { x with run := x.run + 1 }
    if s.f R.MEAS_PAIR_LIM_N p + 1 ≤ x.run + 1 then (s.raiseBit R.MEAS_PAIR_STAT_FAULT p 0 E.PAIR_FAULT (subject p)).pairAny else s
  else s.setPair p { x with run := 0 }

/-- Accumulator `a` has a new result: enabled pairs that now have one of both are compared. -/
def State.pairResult (s : State) (a : Nat) : State :=
  (List.range 32).foldl (fun s p =>
    if s.b R.MEAS_PAIR_CFG_EN p then
      let x := s.pair p
      let x := { x with freshA := x.freshA || s.f R.MEAS_PAIR_CFG_ACC_A p == a, freshB := x.freshB || s.f R.MEAS_PAIR_CFG_ACC_B p == a }
      let s := s.setPair p x
      s.doIf (x.freshA && x.freshB) (·.comparePair p)
    else s) s

/-! ## Window closes (R60, R65 to R67, R69, R70) -/

/-- The window of accumulator `a` closes: its result, and its status bits. -/
def State.closeAcc (s : State) (a : Nat) : State × WinItem :=
  let x := s.acc a
  let void := decide (x.cnt < 4)
  let s := s.setAcc a { x with sum := 0, cnt := 0, rail := false, resSum := if void then 0 else x.sum, resCnt := if void then 0 else x.cnt }
  let s := if void then
      (s.raiseBit R.MEAS_ACC_VOID_VOID (a % 32) (a / 32) E.ACC_VOID (subject a)).setB R.MEAS_STAT_VOID_ANY true
    else s.doIf x.rail fun s =>
      (s.raiseBit R.MEAS_ACC_RAIL_RAIL (a % 32) (a / 32) E.ACC_RAIL (subject a)).setB R.MEAS_STAT_RAIL_ANY true
  (s.pairResult a, { acc := a, sum := if void then 0 else BitVec.ofInt 48 x.sum, cnt := if void then 0 else x.cnt })

/-- The window of tracker `m` closes: its result. -/
def State.closeMmt (s : State) (m : Nat) : State × TrkItem :=
  let x := s.mmt m
  let void := decide (x.cnt < 4)
  let lines := 8 * b2n (x.hiSeen || x.hi) + 4 * b2n (x.loSeen || x.lo)
  let r : TrkItem := if void then { mmt := m, min := 0, max := 0, cnt := 0, above := 0, below := 0, flags := lines + 1 }
    else { mmt := m, min := x.min / 64, max := x.max / 64, cnt := x.cnt, above := satN 16 x.above, below := satN 16 x.below
           flags := lines + 2 * b2n x.rail }
  (s.setMmt m { x with min := 0, max := 0, cnt := 0, above := 0, below := 0, rail := false, hiSeen := x.hi, loSeen := x.lo, last := some r }, r)

/-- Close accumulators by one event, send their results, and let the resolvers they serve judge them. -/
def State.closeAccs (s : State) (as : List Nat) : State :=
  let (s, ws) := as.foldl (fun (x : State × List WinItem) a => let (s, w) := x.1.closeAcc a; (s, x.2 ++ [w])) (s, [])
  (s.sendWins ws).resolvers as

/-- Close trackers by one event and send their results. -/
def State.closeMmts (s : State) (ms : List Nat) : State :=
  let (s, ts) := ms.foldl (fun (x : State × List TrkItem) m => let (s, w) := x.1.closeMmt m; (s, x.2 ++ [w])) (s, [])
  s.sendTrks ts

/-- Count a matching carrier event of a divider; whether it is the DIV-th (R61). -/
def divStep (div n : Nat) : Nat × Bool := if n + 1 < div then (n + 1, false) else (0, true)

/-- A carrier event of a slot closes windows (R61). -/
def State.windowsCarrier (s : State) (slot : Nat) (zero : Bool) : State :=
  let (s, as) := s.accsOn.foldl (fun (x : State × List Nat) a =>
    let arg := x.1.f R.MEAS_ACC_CLOSE_ARG a
    if x.1.f R.MEAS_ACC_CLOSE_SRC a == 0 && argCarrier arg slot zero then
      let (d, c) := divStep (argDiv arg) (x.1.acc a).div
      (x.1.setAcc a { x.1.acc a with div := d }, if c then x.2 ++ [a] else x.2)
    else x) (s, [])
  let s := s.closeAccs as
  let (s, ms) := s.mmtsOn.foldl (fun (x : State × List Nat) m =>
    let arg := x.1.f R.MEAS_MMT_CLOSE_ARG m
    if x.1.f R.MEAS_MMT_CLOSE_SRC m == 0 && argCarrier arg slot zero then
      let (d, c) := divStep (argDiv arg) (x.1.mmt m).div
      (x.1.setMmt m { x.1.mmt m with div := d }, if c then x.2 ++ [m] else x.2)
    else x) (s, [])
  s.closeMmts ms

/-- An NTIME generator event closes windows (R61). -/
def State.windowsNtev (s : State) (k : Nat) : State :=
  let s := s.closeAccs (s.accsOn.filter fun a => s.f R.MEAS_ACC_CLOSE_SRC a == 1 && s.f R.MEAS_ACC_CLOSE_ARG a % 8 == k)
  s.closeMmts (s.mmtsOn.filter fun m => s.f R.MEAS_MMT_CLOSE_SRC m == 1 && s.f R.MEAS_MMT_CLOSE_ARG m % 8 == k)

/-! ## Conversions (R59 to R66, R71, R72) -/

/-- A rail code (R44). -/
def isRail (code : Nat) : Bool := code == 0 || code == 65535

/-- The slot carrier reference at a tick: up from the zero to the peak (R64). -/
def carUp : List (Nat × Bool) → Nat → Bool
  | [], _ => false
  | (z, u) :: hs, tick => if z ≤ tick then u else carUp hs tick

/-- The weight of a conversion in signed mode is +1 (R64): the reference before the tick that lies SIGN_DLY ticks back. -/
def State.signPositive (s : State) (a : Nat) : Bool :=
  let dly := s.f R.MEAS_ACC_CFG_SIGN_DLY a
  let now := s.pwmTime
  let idx := s.f R.MEAS_ACC_CFG_SIGN_IDX a
  if now < dly + 1 then false
  else if s.f R.MEAS_ACC_CFG_SIGN_SRC a = 0 then excPositive (s.pi idx).exc (now - dly - 1)
  else carUp (kget [] s.meas.carHist idx) (now - dly - 1)

/-- The window of an accumulator has reached its count, or the largest count of all (R61, R66). -/
def State.accFull (s : State) (a : Nat) : State :=
  let cnt := (s.acc a).cnt
  if s.f R.MEAS_ACC_CLOSE_SRC a == 2 && decide (s.f R.MEAS_ACC_CLOSE_ARG a ≤ cnt) then s.closeAccs [a]
  else if cnt = 16777215 then (s.closeAccs [a]).post E.ACC_FORCED_CLOSE (subject a)
  else s

/-- A conversion enters accumulator `a`; the largest count of all closes its window at once (R66). -/
def State.accAdd (s : State) (a code : Nat) : State :=
  if s.b R.MEAS_ACC_CFG_EN a then
    let x := s.acc a
    let pos := !s.b R.MEAS_ACC_CFG_MODE a || s.signPositive a
    let s := s.setAcc a { x with sum := if pos then x.sum + code else x.sum - code, cnt := x.cnt + 1, rail := x.rail || isRail code }
    s.doIf (x.cnt + 1 == 16777215) (·.accFull a)
  else s

/-- The HI line of a tracker after a conversion: its state, its run count, and whether it asserts now (R71). -/
def hiStep (en : Bool) (deb upper hyst code : Nat) (line : Bool) (run : Nat) : Bool × Nat × Bool :=
  let run := if upper ≤ code then run + 1 else 0
  if line then (!decide (code + hyst < upper), run, false)
  else (en && decide (deb ≤ run), run, en && decide (deb ≤ run))

/-- The LO line likewise. -/
def loStep (en : Bool) (deb lower hyst code : Nat) (line : Bool) (run : Nat) : Bool × Nat × Bool :=
  let run := if code ≤ lower then run + 1 else 0
  if line then (!decide (lower + hyst < code), run, false)
  else (en && decide (deb ≤ run), run, en && decide (deb ≤ run))

/-- The window of a tracker has reached its count, or the largest count of all (R69). -/
def State.mmtFull (s : State) (m : Nat) : State :=
  let cnt := (s.mmt m).cnt
  if s.f R.MEAS_MMT_CLOSE_SRC m == 2 && decide (s.f R.MEAS_MMT_CLOSE_ARG m ≤ cnt) then s.closeMmts [m]
  else if cnt = 16777215 then (s.closeMmts [m]).post E.MMT_FORCED_CLOSE (subject m)
  else s

/-- A conversion enters tracker `m`: extremes, counts, thresholds, lines. -/
def State.mmtAdd (s : State) (m code : Nat) : State :=
  if s.b R.MEAS_MMT_CFG_EN m then
    let x := s.mmt m
    let up := s.f R.MEAS_MMT_THR_UPPER m
    let lw := s.f R.MEAS_MMT_THR_LOWER m
    let deb := s.f R.MEAS_MMT_CFG_DEBOUNCE m + 1
    let hy := s.f R.MEAS_MMT_CFG_HYST m
    let (hi, hr, hon) := hiStep (s.b R.MEAS_MMT_CFG_HI_EN m) deb up hy code x.hi x.hiRun
    let (lo, lr, lon) := loStep (s.b R.MEAS_MMT_CFG_LO_EN m) deb lw hy code x.lo x.loRun
    let s := s.setMmt m { x with
      min := if x.cnt = 0 then code else min x.min code, max := max x.max code, cnt := x.cnt + 1
      above := x.above + b2n (decide (up ≤ code)), below := x.below + b2n (decide (code ≤ lw)), rail := x.rail || isRail code
      hi := hi, lo := lo, hiRun := hr, loRun := lr, hiSeen := x.hiSeen || x.hi || hi, loSeen := x.loSeen || x.lo || lo }
    let s := (s.doIf hon (·.post E.MMT_HI (subject m))).doIf lon (·.post E.MMT_LO (subject m))
    s.doIf (x.cnt + 1 == 16777215) (·.mmtFull m)
  else s

/-- A conversion that ends: the accumulator and the tracker that its route names, and its code. -/
structure Conv where
  acc : Option Nat
  mmt : Option Nat
  code : Nat
  deriving DecidableEq, Repr

/-- A conversion enters the accumulator and the tracker that its route names, and no other (R49, R59). -/
def State.enter (s : State) (c : Conv) : State :=
  let s := match c.acc with
    | some a => s.accAdd a c.code
    | none => s
  match c.mmt with
  | some m => s.mmtAdd m c.code
  | none => s

/-- The windows that the conversions of one tick have filled close, with every conversion of the tick in them (R60, R61); the trip matrix
judges the lines. -/
def State.fillCloses (s : State) (cs : List Conv) : State :=
  let s := cs.foldl (fun s c => match c.acc with | some a => s.doIf (s.b R.MEAS_ACC_CFG_EN a) (·.accFull a) | none => s) s
  (cs.foldl (fun s c => match c.mmt with | some m => s.doIf (s.b R.MEAS_MMT_CFG_EN m) (·.mmtFull m) | none => s) s).settle

/-- The conversions of one tick end. -/
def State.deliver (s : State) (cs : List Conv) : State := (cs.foldl (fun s c => s.enter c) s).fillCloses cs

/-- A route that is enabled. -/
def routeTo (en : Bool) (a : Nat) : Option Nat := if en then some a else none

/-! ## Converter units (R45 to R53) -/

/-- Minimum acquisition of a gain code in steps of 250 ps (Table 2.1). -/
def acqMin (gain : Nat) : Nat := if gain ≤ 1 then 40 * nsQ else if gain = 2 then 60 * nsQ else 100 * nsQ

/-- Acquisition time of an entry (R45). -/
def State.acqTime (s : State) (n e : Nat) : Nat :=
  max ((s.f R.MEAS_SEQ_ENT_ACQ n e + 8) * 5 * nsQ) (acqMin (s.f R.MEAS_SEQ_ENT_GAIN n e))

/-- Acquisition of entry `e` of a unit starts, after a delay of at most `d` (R46, R50, R52). Mark: DESIGN CHOICE (log 34). -/
def State.startEntry (s : State) (n e d : Nat) (inj : Bool) : State :=
  let (s, k) := s.draw
  let u := s.unit n
  s.setUnit n { u with phase := 1, entry := e, inj := inj, injWait := false
                       resume := if inj then u.resume else e, restart := inj && u.restart
                       until_ := s.now + (Config.freeWord k).toNat % (d + 1) + s.acqTime n e }

/-- The regular entry after `e`. -/
def State.nextRegular (s : State) (n e : Nat) : Nat := if e < s.f R.MEAS_SEQ_CTL_SEQ_LEN n then e + 1 else 0

/-- Units start at sealing, at entry 0, and not before every unit has calibrated (R47, R494). -/
def State.startUnits (s : State) : State :=
  (List.range 24).foldl (fun s n => s.doIf (s.b R.MEAS_CTL_EN && s.b R.MEAS_CTL_CAL_DONE && s.b R.MEAS_SEQ_CTL_EN n)
    (·.startEntry n 0 0 false)) s

/-- The start of the present tick of PWM time, in steps of 250 ps. -/
def State.tickStart (s : State) : Instant :=
  match s.clk.ungatedAt with
  | none => s.now
  | some e => e + s.pwmTime * tickQ

/-- A conversion sampled at `q` has reached its conversion end: the first tick at or after 128 ns from there has come (R45). -/
def State.convDone (s : State) (q : Instant) : Bool := decide (q + 128 * nsQ ≤ s.tickStart)

/-- The conversions of a unit that have reached their conversion end, taken out of its converter, oldest first. -/
def State.unitDone (s : State) (n : Nat) : State × List Conv :=
  let u := s.unit n
  let done := u.flight.filter fun x => s.convDone x.2.2
  (s.setUnit n { u with flight := u.flight.filter fun x => !s.convDone x.2.2 },
   done.map fun x => { acc := routeTo (s.b R.MEAS_SEQ_ENT_ACC_EN n x.1) (s.f R.MEAS_SEQ_ENT_ACC n x.1)
                       mmt := routeTo (s.b R.MEAS_SEQ_ENT_MMT_EN n x.1) (s.f R.MEAS_SEQ_ENT_MMT n x.1), code := x.2.1 })

/-- Every SAR conversion whose conversion end has come enters its windows: those that end in the tick of a close belong to the closing
window, whichever command comes first (R60). -/
def State.landConversions (s : State) : State :=
  let (s, cs) := (List.range 24).foldl (fun (x : State × List Conv) n =>
    let (s, done) := x.1.unitDone n
    (s, x.2 ++ done)) (s, [])
  s.deliver cs

/-- The code of a sampled voltage in nV (R44). Mark: DESIGN CHOICE (log 35). -/
def sarCode (vin : Int) (gain : Nat) : Nat :=
  min ((max vin 0).toNat * 2 ^ gain * 65536 / 2500000000) 65535

/-- The code of a conversion of entry `e` of a unit whose inputs stand at `vin` nV against the return pin (R43, R44). Where a pin of the
unit was under injection at `inj`, every conversion of the unit until 2 µs after is undefined (R510): a free value. Mark: DESIGN CHOICE (log 35). -/
def State.unitCode (s : State) (n e : Nat) (vin : List Int) (inj : Option Instant) : State × Nat :=
  if inj.any fun q => decide (s.now ≤ q + 2 * usQ) then
    let (s, k) := s.draw
    (s, (Config.freeWord k).toNat % 65536)
  else (s, sarCode (vin.getD (s.f R.MEAS_SEQ_ENT_INPUT n e) 0) (s.f R.MEAS_SEQ_ENT_GAIN n e))

/-- SAMPLING_INSTANT (R43 to R45): the acquisition ends with `vin` nV at the four inputs of the unit against its return pin; `inj`: the last
instant at which a pin of the unit was under injection (R510). Mark: DESIGN CHOICE (log 35). -/
def execSamplingInstant (t : Instant) (n : Nat) (vin : List Int) (inj : Option Instant) (s : State) : Res :=
  let s := s.start t
  let u := s.unit n
  .next (s.doIf (s.measOn && u.phase == 1 && decide (u.until_ ≤ s.now)) fun s =>
    let (s, code) := s.unitCode n u.entry vin inj
    s.setUnit n { u with phase := 2, until_ := s.now + 60 * nsQ, flight := u.flight ++ [(u.entry, code, s.now)] })

/-- The regular sequence goes on: at entry 0 within 5 ns where a restart waits (R52), else at once at its next entry (R46, R50). -/
def State.resumeRegular (s : State) (n : Nat) : State :=
  let u := s.unit n
  if u.restart then s.startEntry n 0 (5 * nsQ) false else s.startEntry n u.resume 0 false

/-- A conversion phase ends: an injected sequence that waits starts within 5 ns (R50: 65 ns after its trigger at most), the next injected
entry follows at once, or the regular sequence goes on. Mark: DESIGN CHOICE (log 34). -/
def State.nextEntry (s : State) (n : Nat) : State :=
  let u := s.unit n
  if u.injWait then s.startEntry n 12 (5 * nsQ) true
  else if u.inj && decide (u.entry < 12 + s.f R.MEAS_SEQ_CTL_INJ_LEN n) then s.startEntry n (u.entry + 1) 0 true
  else s.resumeRegular n

/-- CONVERSION_PHASE_END (R46): 60 ns after the sampling instant. -/
def execConversionPhaseEnd (t : Instant) (n : Nat) (s : State) : Res :=
  let s := s.start t
  let u := s.unit n
  .next (s.doIf (s.measOn && u.phase == 2 && decide (u.until_ ≤ s.now)) (fun s =>
    (if u.inj then s else s.setUnit n { u with resume := s.nextRegular n u.entry }).nextEntry n))

/-- CONVERSION_END (R45): 128 ns after its sampling instant a code of unit `n` reaches its accumulator and tracker, and with it every
conversion of the device that ends in this tick. -/
def execConversionEnd (t : Instant) (n : Nat) (s : State) : Res :=
  let s := s.start t
  .next (s.doIf (s.measOn && (s.unit n).flight.any fun x => s.convDone x.2.2) (·.landConversions))

/-- CALIBRATION_DONE (R47): every unit has calibrated, within the boot sequence. Where the image is sealed already, conversion starts now. -/
def execCalibrationDone (t : Instant) (s : State) : Res :=
  let s := s.start t
  .next (s.doIf (s.alive && !s.b R.MEAS_CTL_CAL_DONE) fun s =>
    let s := s.setB R.MEAS_CTL_CAL_DONE true
    s.doIf s.sealed (·.startUnits))

/-- An injected trigger of a unit in REG_INJ (R50, R51, R53). An injected sequence that waits for a conversion phase to end counts as
running. Mark: DESIGN CHOICE (log 144). -/
def State.injTrigger (s : State) (n : Nat) : State :=
  let u := s.unit n
  let s := s.setUnit n { u with injDue := false }
  if u.inj || u.injWait then
    (s.raiseBit R.MEAS_INJ_OVR_OVR n 0 E.INJ_OVERRUN (subject n)).setB R.MEAS_STAT_OVR_ANY true
  else if u.phase = 1 then
    s.startEntry n 12 (5 * nsQ) true
  else if u.phase = 2 then s.setUnit n { s.unit n with injWait := true }
  else s

/-- INJECTED_TRIGGER (R50): the trigger that a matching carrier or generator event brought. -/
def execInjectedTrigger (t : Instant) (n : Nat) (s : State) : Res :=
  let s := s.start t
  .next (s.doIf (s.measOn && (s.unit n).injDue) (·.injTrigger n))

/-- A matching carrier event restarts the regular sequence at entry 0 (R52). -/
def State.restartUnit (s : State) (n : Nat) : State :=
  let u := s.unit n
  if u.phase = 0 then s
  else if u.phase = 1 && !u.inj then s.startEntry n 0 (5 * nsQ) false
  else s.setUnit n { u with restart := true }

/-- Restarts and injected triggers of a carrier event (R50, R52). -/
def State.unitsCarrier (s : State) (slot : Nat) (zero : Bool) : State :=
  (List.range 24).foldl (fun s n =>
    if s.b R.MEAS_SEQ_CTL_EN n then
      let s := s.doIf (s.b R.MEAS_SEQ_CTL_RESTART_EN n && s.f R.MEAS_SEQ_CTL_RST_SLOT n == slot
        && edgeMatch (s.f R.MEAS_SEQ_CTL_RST_EDGE n) zero) (·.restartUnit n)
      s.doIf (s.b R.MEAS_SEQ_CTL_MODE n && s.f R.MEAS_SEQ_CTL_INJ_TRIG n == 1 && s.f R.MEAS_SEQ_CTL_INJ_SLOT n == slot
        && edgeMatch (s.f R.MEAS_SEQ_CTL_INJ_EDGE n) zero) (fun s => s.setUnit n { s.unit n with injDue := true })
    else s) s

/-- Injected triggers of an NTIME generator event. -/
def State.unitsNtev (s : State) (k : Nat) : State :=
  (List.range 24).foldl (fun s n =>
    s.doIf (s.b R.MEAS_SEQ_CTL_EN n && s.b R.MEAS_SEQ_CTL_MODE n && s.f R.MEAS_SEQ_CTL_INJ_TRIG n == 2
      && s.f R.MEAS_SEQ_CTL_INJ_NTEV n == k) (fun s => s.setUnit n { s.unit n with injDue := true })) s

/-! ## Sigma-delta channels (R54 to R58) -/

/-- A sigma-delta channel has its bit clock: it is enabled, and so is the SDCK output that it selects (R54, Table 2.11). -/
def State.sdClocked (s : State) (n : Nat) : Bool :=
  s.measOn && decide (n < 48) && s.b R.MEAS_SD_CFG_EN n && s.b R.MEAS_SDCK_CFG_EN (s.f R.MEAS_SD_CFG_CKSEL n)

/-- A sigma-delta channel runs. -/
def State.sdOn (s : State) (n : Nat) : Bool := s.sdClocked n && !(s.sdCh n).stuck

/-- The level of a pin at an instant, from its changes, newest first; low before the first of them. -/
def levelAt : List (Instant × Bool) → Instant → Bool
  | [], _ => false
  | (q, v) :: cs, at_ => if q ≤ at_ then v else levelAt cs at_

/-- The last `k` bits of a channel, newest first (R54): its data pin sampled SAMP_DLY × 2.5 ns after the rising edges of its SDCK output, the
last of which is at `clk`, DIV periods of 400 MHz apart. Mark: DESIGN CHOICE (log 36). -/
def State.sdBits (s : State) (n k : Nat) (clk : Instant) (pin : List (Instant × Bool)) : List Bool :=
  (List.range k).map fun i =>
    levelAt pin (clk + 10 * s.f R.MEAS_SD_CFG_SAMP_DLY n - 10 * s.f R.MEAS_SDCK_CFG_DIV (s.f R.MEAS_SD_CFG_CKSEL n) * i)

/-- Sums over a window of `n` that moves along a list. -/
def boxcar (n : Nat) (xs : List Nat) : List Nat := (List.range (xs.length + 1 - n)).map fun i => ((xs.drop i).take n).sum

/-- The output of a sinc3 filter (R55): three boxcars of length OSR over the bits, newest first, a 1 counted as 1 and a 0 as 0. -/
def sinc3 (osr : Nat) (bits : List Bool) : Nat :=
  ((boxcar osr (boxcar osr (boxcar osr ((bits.take (3 * osr - 2)).map b2n))))).headD 0

/-- The code of a main filter output (R55). -/
def sdCode (filt shift : Nat) : Nat := min 65535 (filt >>> shift)

/-- log2 OSR of the protection filter by PROT_OSR (R57). -/
def protLog (c : Nat) : Nat := c + 2

/-- The code of a protection filter output (R57). -/
def protCode (filt c : Nat) : Nat := min 65535 (filt * 2 ^ 16 / 2 ^ (3 * protLog c))

/-- SD_CONVERSION_END (R55, R56): OSR more bits of a channel are in its sinc3 filter; `clk`: the last rising edge of its SDCK output, `pin`:
the changes of its data pin. Mark: DESIGN CHOICE (log 36). -/
def execSdConversionEnd (t : Instant) (n : Nat) (clk : Instant) (pin : List (Instant × Bool)) (s : State) : Res :=
  let s := s.start t
  .next (s.doIf (s.sdOn n) (fun s =>
    let x := s.sdCh n
    let osr := s.f R.MEAS_SD_CFG_OSR n + 1
    let bits := (s.sdBits n osr clk pin ++ x.bits).take (3 * osr)
    let s := s.setSd n { x with discard := x.discard - 1, bits := bits }
    s.doIf (x.discard == 0) (·.deliver [{ acc := routeTo (s.b R.MEAS_SD_RT_ACC_EN n) (s.f R.MEAS_SD_RT_ACC n)
                                          mmt := routeTo (s.b R.MEAS_SD_RT_MMT_EN n) (s.f R.MEAS_SD_RT_MMT n)
                                          code := sdCode (sinc3 osr bits) (s.f R.MEAS_SD_CFG_SHIFT n) }])))

/-- SD_PROTECTION_OUTPUT (R57): as SD_CONVERSION_END, of the protection filter, for its tracker alone. Mark: DESIGN CHOICE (log 36). -/
def execSdProtectionOutput (t : Instant) (n : Nat) (clk : Instant) (pin : List (Instant × Bool)) (s : State) : Res :=
  let s := s.start t
  .next (s.doIf (s.sdOn n && s.f R.MEAS_SD_CFG_PROT_OSR n != 0) (fun s =>
    let x := s.sdCh n
    let c := s.f R.MEAS_SD_CFG_PROT_OSR n
    let osr := 2 ^ protLog c
    let bits := (s.sdBits n osr clk pin ++ x.bitsProt).take (3 * osr)
    let s := s.setSd n { x with discardProt := x.discardProt - 1, bitsProt := bits }
    s.doIf (x.discardProt == 0) (·.deliver [{ acc := none, mmt := routeTo (s.b R.MEAS_SD_RT_PMMT_EN n) (s.f R.MEAS_SD_RT_PMMT n)
                                              code := protCode (sinc3 osr bits) c }])))

/-- Set the STUCK bit of a channel. -/
def State.setStuck (s : State) (n : Nat) : State :=
  (if n < 32 then s.setBitF R.MEAS_SD_STUCK0_STUCK n true else s.setBitF R.MEAS_SD_STUCK1_STUCK (n - 32) true).setB
    R.MEAS_STAT_STUCK_ANY true

/-- SD_STUCK (R58): 128 bit clocks at one level. -/
def execSdStuck (t : Instant) (n : Nat) (s : State) : Res :=
  let s := s.start t
  .next (s.doIf (s.sdOn n) (fun s => ((s.setSd n { s.sdCh n with stuck := true }).setStuck n).post E.SD_STUCK (subject n)))

/-- SD_RESUMED (R58): 1,024 groups of 8 bit clocks with a change in each; the channel starts again as after enabling (R56). -/
def execSdResumed (t : Instant) (n : Nat) (s : State) : Res :=
  let s := s.start t
  .next (s.doIf (s.sdClocked n && (s.sdCh n).stuck)
    (fun s => (s.setSd n {}).post E.SD_RESUMED (subject n)))

/-! ## NTIME generators (R62) -/

/-- A range list holds a number. -/
def inRanges (m : Int) (rs : List (Int × Int)) : Bool := rs.any fun r => decide (r.1 ≤ m) && decide (m ≤ r.2)

/-- Add a number to a range list, at the end of the newest range where it follows on. -/
def addRange (m : Int) : List (Int × Int) → List (Int × Int)
  | (a, b) :: rs => if m = b + 1 ∧ a ≤ m then (a, m) :: rs else (m, m) :: (a, b) :: rs
  | [] => [(m, m)]

/-- The instant number a generator is due to produce an event for at the present tick, if any: its instant is NTIME, or the nanosecond
before it, unless NTIME stepped at this tick (R62). -/
def State.ntevDue (s : State) (k : Nat) : Option Int :=
  let per := s.f R.MEAS_NTEV_PER_PERIOD k
  if per = 0 ∨ 8 ≤ k then none
  else
    let ph := signed 64 (s.f R.MEAS_NTEV_PH_LO_PHASE_LO k + s.f R.MEAS_NTEV_PH_HI_PHASE_HI k * 2 ^ 32)
    let d := s.ntime - ph
    let m := d / (per : Int)
    let late := if s.net.stepTick = some s.pwmTime then 1 else 2
    if d - m * per < late ∧ !inRanges m (kget [] s.meas.ntevDone k) then some m else none

/-- A generator has produced its event for instant `m`. -/
def State.ntevMark (s : State) (k : Nat) (m : Int) : State :=
  { s with meas := { s.meas with ntevDone := kset [] s.meas.ntevDone k (addRange m (kget [] s.meas.ntevDone k)) } }

/-! ## Clearing (R5, R74, R77) -/

/-- The FAULT bit of a pair is cleared, unless it is set in the same cycle (R5); its line falls and its count restarts (R74). -/
def State.clearPair (s : State) (p : Nat) : State :=
  let s' := s.w1c R.MEAS_PAIR_STAT_FAULT p
  if s.bitF R.MEAS_PAIR_STAT_FAULT p && !s'.bitF R.MEAS_PAIR_STAT_FAULT p then s'.setPair p { s'.pair p with run := 0 } else s'

/-- PAIR_FAULT_CLEAR (R74): a W1C write of MEAS_PAIR_STAT releases the lines of the pairs it clears and restarts their counts. -/
def execPairFaultClear (t : Instant) (fn : Nat) (data : Word) (s : State) : Res :=
  match (s.start t).actionWrite fn R.MEAS_PAIR_STAT_FAULT data with
  | (s, go) => .next (s.doIf go (fun s =>
      (((List.range 32).filter fun p => data.toNat.testBit p).foldl (fun s p => s.clearPair p) s).pairAny))

/-- Remember a carrier event for the sign references (R64). -/
def State.carMark (s : State) (slot z : Nat) (up : Bool) : State :=
  let rec keep (hs : List (Nat × Bool)) : List (Nat × Bool) := match hs with
    | [] => []
    | (q, u) :: hs => if q + 4100 ≤ z then [(q, u)] else (q, u) :: keep hs
  { s with meas := { s.meas with carHist := kset [] s.meas.carHist slot ((z, up) :: keep (kget [] s.meas.carHist slot)) } }

/-- What a carrier event of a slot does in MEAS: the conversions of the tick end, windows close, then sequences restart (R52, R60, R61). -/
def State.measCarrier (s : State) (slot z : Nat) (zero : Bool) : State :=
  if s.measOn then ((s.landConversions.windowsCarrier slot zero).unitsCarrier slot zero).carMark slot z zero else s

/-- What an NTIME generator event does in MEAS. -/
def State.measNtev (s : State) (k : Nat) : State := if s.measOn then (s.landConversions.windowsNtev k).unitsNtev k else s

end Sys2Proof.Machine
end

