-- ==== Sys2Proof/Machine/Num.lean ====
section
/-! DEFINITION. float32 values of parameter words, states and events, and rational arithmetic of the services. A computed result
is rounded by the free `Config.round32`; angles, roots and trigonometry are free rational functions. -/
namespace Sys2Proof.Machine

/-- A power of two. -/
def pow2 (k : Int) : Rat := if 0 ≤ k then ((2 ^ k.toNat : Nat) : Rat) else 1 / ((2 ^ (-k).toNat : Nat) : Rat)

/-- The value of an IEEE 754 binary32 word. -/
def f32Num (w : Word) : Num :=
  let neg := w.getLsbD 31
  let e := getBits w 30 23
  let m := getBits w 22 0
  let sg : Rat := if neg then -1 else 1
  if e = 255 then (if m = 0 then .inf neg else .nan)
  else if e = 0 then .fin (sg * (m : Rat) * pow2 (-149))
  else .fin (sg * ((2 ^ 23 + m : Nat) : Rat) * pow2 ((e : Int) - 150))

/-- The value of a word as a rational: an infinity lies beyond every float32, and a NaN counts as zero. Mark: DESIGN CHOICE (log 13). -/
def f32 (w : Word) : Rat :=
  match f32Num w with
  | .fin q => q
  | .inf neg => if neg then -pow2 128 else pow2 128
  | .nan => 0

/-- Nearest integer of a non-negative rational, ties to even. -/
def roundEven (q : Rat) : Nat :=
  let n := q.floor.toNat
  let d := q - (n : Rat)
  if d < 1 / 2 then n else if 1 / 2 < d then n + 1 else if n % 2 = 0 then n else n + 1

/-- The binary32 word nearest to a rational. -/
def f32Of (q : Rat) : Word :=
  if q = 0 then 0
  else
    let sg : Nat := if q < 0 then 2 ^ 31 else 0
    let a := if q < 0 then -q else q
    let e0 : Int := (Nat.log2 a.num.natAbs : Int) - (Nat.log2 a.den : Int)
    let e := if pow2 e0 ≤ a then e0 else e0 - 1
    let ee := if e < -126 then -126 else e
    let m := roundEven (a / pow2 (ee - 23))
    let (m, ee) := if m = 2 ^ 24 then (2 ^ 23, ee + 1) else (m, ee)
    if 127 < ee then BitVec.ofNat 32 (sg + 255 * 2 ^ 23)
    else if m < 2 ^ 23 then BitVec.ofNat 32 (sg + m)
    else BitVec.ofNat 32 (sg + (ee + 127).toNat * 2 ^ 23 + (m - 2 ^ 23))

/-- The word of a float32 value. -/
def numWord : Num → Word
  | .nan => 0x7FC00000
  | .inf neg => if neg then 0xFF800000 else 0x7F800000
  | .fin q => f32Of q

end Sys2Proof.Machine

namespace Sys2Proof

/-- Not a number. -/
def Num.isNan : Num → Bool
  | .nan => true
  | _ => false

/-- Sum of two float32 values; the rounding of a finite sum is free. -/
def Num.add : Num → Num → Num
  | .nan, _ | _, .nan => .nan
  | .inf a, .inf b => if a = b then .inf a else .nan
  | .inf a, .fin _ | .fin _, .inf a => .inf a
  | .fin p, .fin q => .fin (if q = 0 then p else Config.round32 (p + q))

/-- The value with the other sign. -/
def Num.neg : Num → Num
  | .nan => .nan
  | .inf a => .inf (!a)
  | .fin q => .fin (-q)

/-- Difference of two float32 values; the rounding of a finite difference is free. -/
def Num.sub : Num → Num → Num
  | .fin p, .fin q => .fin (Config.round32 (p - q))
  | a, b => a.add b.neg

/-- Magnitude of a float32 value. -/
def Num.abs : Num → Num
  | .nan => .nan
  | .inf _ => .inf false
  | .fin q => .fin (if q < 0 then -q else q)

/-- Product of two float32 values; the rounding of a finite product is free. -/
def Num.mul : Num → Num → Num
  | .nan, _ | _, .nan => .nan
  | .fin p, .fin q => .fin (Config.round32 (p * q))
  | .inf a, .inf b => .inf (a != b)
  | .inf a, .fin q | .fin q, .inf a => if q = 0 then .nan else .inf (a != decide (q < 0))

/-- Whether a float32 value lies below another; a NaN compares with nothing. -/
def Num.lt : Num → Num → Bool
  | .nan, _ | _, .nan => false
  | .fin p, .fin q => decide (p < q)
  | .inf a, .inf b => a && !b
  | .inf a, .fin _ => a
  | .fin _, .inf b => !b

/-- The larger of two float32 values; a NaN prevails. -/
def Num.max (a b : Num) : Num := if a.isNan then a else if b.isNan || a.lt b then b else a

/-- A value limited to a range; NaN stays. -/
def Num.clamp (x : Num) (lo hi : Rat) : Num :=
  match x with
  | .nan => .nan
  | .inf neg => .fin (if neg then lo else hi)
  | .fin q => .fin (if q < lo then lo else if hi < q then hi else q)

/-- The finite value, zero for the others. -/
def Num.q : Num → Rat
  | .fin q => q
  | _ => 0

/-- Sign of a limit: -1 at or below the low end, 1 at or above the high end. -/
def Num.limited (x : Num) (lo hi : Rat) : Int :=
  match x with
  | .nan => 0
  | .inf neg => if neg then -1 else 1
  | .fin q => if q ≤ lo then -1 else if hi ≤ q then 1 else 0

end Sys2Proof

namespace Sys2Proof.Machine

/-- A rational limited to a range. -/
def clampQ (x lo hi : Rat) : Rat := if x < lo then lo else if hi < x then hi else x
def absQ (x : Rat) : Rat := if x < 0 then -x else x
def maxQ (x y : Rat) : Rat := if x < y then y else x
def minQ (x y : Rat) : Rat := if x < y then x else y

/-- Rounding of a computed result. Mark: DESIGN CHOICE (log 13). -/
def rnd (x : Rat) : Rat := Config.round32 x

/-- An angle wrapped to -π to +π. Mark: DESIGN CHOICE (log 13). -/
def wrapPi (x : Rat) : Rat := x - 2 * Config.pi * (((x + Config.pi) / (2 * Config.pi)).floor : Rat)

/-- An angle as signed 1/65,536 of a turn (R532). -/
def turnWord (x : Rat) : Word := satWord ((x * 65536 / (2 * Config.pi)).floor)

/-- Whether a time has passed a float32 limit; an infinite limit is never passed. -/
def passed (t : Rat) (lim : Word) : Bool :=
  match f32Num lim with
  | .fin q => decide (q < t)
  | _ => false

/-- Seconds of a span in steps of 250 ps. -/
def secs (n : Nat) : Rat := (n : Rat) / ((secQ : Nat) : Rat)

/-- A span of seconds in steps of 250 ps, rounded up. -/
def spanOf (q : Rat) : Nat := ((q * ((secQ : Nat) : Rat)).ceil).toNat

end Sys2Proof.Machine
end

