-- ==== Sys2Proof/Machine/Sea.lean ====
section
/-! DEFINITION. The kernel sea: roles and backing of kernels, the rewriting of a moved kernel's name, the routers, and the shared
store (R15 to R34, R359, R464, R467, R471 to R475). Kernels are numbered 16·pod + k. -/
namespace Sys2Proof.Machine

/-! ## Roles and backing -/

/-- Role codes (R349). -/
abbrev roleIdle : Nat := 0
abbrev roleLoop : Nat := 1
abbrev roleService : Nat := 3
abbrev roleSafety : Nat := 5

/-- The role of a logical kernel. -/
def State.role (s : State) (k : Nat) : Nat := kget 0 s.sea.roles k

/-- Give a logical kernel a role. -/
def State.setRole (s : State) (k r : Nat) : State := { s with sea := { s.sea with roles := kset 0 s.sea.roles k r } }

/-- The physical kernel behind a logical kernel. -/
def State.physOf (s : State) (k : Nat) : Option Nat :=
  match kget 0 s.rel.backing k with
  | 0 => none
  | p + 1 => some p

/-- The logical kernel that a physical kernel backs. -/
def State.logicalOf (s : State) (p : Nat) : Option Nat := (s.rel.backing.find? fun x => x.2 == p + 1).map (·.1)

/-- A physical kernel is out of use (R475). -/
def State.isGone (s : State) (p : Nat) : Bool := kget 0 s.rel.gone p != 0

/-- A logical kernel is backed by a kernel in use. -/
def State.backed (s : State) (k : Nat) : Bool :=
  match s.physOf k with
  | some p => !s.isGone p
  | none => false

/-- The physical spare of a pod: in use by nothing, and not out of use (R16). -/
def State.spareOf (s : State) (pod : Nat) : Option Nat :=
  ((List.range 16).map (16 * pod + ·)).find? fun p => !s.isGone p && (s.logicalOf p).isNone

/-- The lowest backed IDLE/SPARE logical kernel of a pod (Table 16.2). -/
def State.idleOf (s : State) (pod : Nat) : Option Nat :=
  ((List.range 15).map (16 * pod + ·)).find? fun k => s.role k == roleIdle && s.backed k

/-- Show a pod's backing in REL_POD, and the totals in REL_STAT. -/
def State.showPods (s : State) : State :=
  let unb (n : Nat) : List Nat := (List.range 15).filter fun k => (s.physOf (16 * n + k)).isNone
  let t := (List.range 24).foldl (fun t n =>
    let mapped := ((List.range 16).filter fun k => decide (2 ≤ kget 0 s.rel.gone (16 * n + k))).length
    ((t.setB R.REL_POD_SPARE (s.spareOf n).isSome n).setF R.REL_POD_FAILED mapped n).setF R.REL_POD_UNBACKED
      ((unb n).foldl (fun m k => putBit m k true) 0) n) s
  let t := t.setF R.REL_STAT_SPARES_LEFT ((List.range 24).filter fun n => (s.spareOf n).isSome).length
  t.setF R.REL_STAT_UNBACKED (satN 8 ((List.range 24).foldl (fun a n => a + (unb n).length) 0))

/-- Back a logical kernel by a physical one. -/
def State.setBacking (s : State) (k : Nat) (p : Option Nat) : State :=
  { s with rel := { s.rel with backing := kset 0 s.rel.backing k (p.elim 0 (· + 1)) } }

/-- Put a physical kernel out of use or back into use. -/
def State.setGone (s : State) (p v : Nat) : State := { s with rel := { s.rel with gone := kset 0 s.rel.gone p v } }

/-- Subject of a kernel: its pod, and its index in the pod. Mark: DEDUCED (log 32). -/
def kernelSubject (k : Nat) : Nat := subject (k / 16) (k % 16)

/-! ## Rewriting the names of moved kernels (R156, R359) -/

/-- A kernel's new name in a list of moves. -/
def moved (mv : List (Nat × Nat)) (k : Nat) : Nat := ((mv.find? fun x => x.1 == k).map (·.2)).getD k

/-- A router and mask after moves: one router holds the new kernels, or they cannot be named in one field. -/
def movedMask (mv : List (Nat × Nat)) (router mask : Nat) : Option (Nat × Nat) :=
  match ((List.range 15).filter fun k => mask.testBit k).map fun k => moved mv (16 * router + k) with
  | [] => none
  | k :: ks =>
    if ks.all fun j => j / 16 == k / 16 then some (k / 16, (k :: ks).foldl (fun m j => putBit m (j % 16) true) 0) else none

/-- Rewrite one router and mask pair of registers. -/
def State.moveMask (s : State) (mv : List (Nat × Nat)) (rr rm : FRef) (n : Nat) : State :=
  match movedMask mv (s.f rr n) (s.f rm n) with
  | some (r, m) => (s.setF rr r n).setF rm m n
  | none => s

/-- Rewrite one router and kernel pair of registers. -/
def State.moveOne (s : State) (mv : List (Nat × Nat)) (rr rk : FRef) (n : Nat) : State :=
  let k := moved mv (16 * s.f rr n + s.f rk n)
  (s.setF rr (k / 16) n).setF rk (k % 16) n

/-- Every destination, mask, owner and agent field that names a moved kernel is rewritten, but the contexts' own POD and KMASK. -/
def State.moveNames (s : State) (mv : List (Nat × Nat)) : State :=
  let s := (List.range 256).foldl (fun s a =>
    (s.moveMask mv R.MEAS_ACC_DST0_ROUTER R.MEAS_ACC_DST0_MASK a).moveMask mv R.MEAS_ACC_DST1_ROUTER R.MEAS_ACC_DST1_MASK a) s
  let s := (List.range 256).foldl (fun s a => s.moveMask mv R.MEAS_MMT_DST_ROUTER R.MEAS_MMT_DST_MASK a) s
  let s := (List.range 8).foldl (fun s a => s.moveMask mv R.POS_DST_ROUTER R.POS_DST_MASK a) s
  let s := (List.range 16).foldl (fun s a => s.doIf (s.b R.NET_LQ_CFG_EN a) (·.moveOne mv R.NET_LQ_CFG_ROUTER R.NET_LQ_CFG_LK a)) s
  let s := (List.range 16).foldl (fun s a => s.doIf (s.b R.NET_RXF_EN a) (·.moveOne mv R.NET_RXF_DST_ROUTER R.NET_RXF_DST_LK a)) s
  let s := (List.range 256).foldl (fun s a => s.doIf (s.b R.CAN_OBJ_CFG_EN a) (·.moveOne mv R.CAN_OBJ_CFG_ROUTER R.CAN_OBJ_CFG_LK a)) s
  let l := moved mv (16 * s.trip.lifeCfg.pod + s.trip.lifeCfg.k)
  let ctx := s.loop.ctx.map fun x =>
    let a := moved mv (16 * x.2.desc.agentPod + x.2.desc.agentK)
    (x.1, { x.2 with desc := { x.2.desc with agentPod := a / 16, agentK := a % 16 } })
  { s with trip := { s.trip with lifeCfg := { s.trip.lifeCfg with pod := l / 16, k := l % 16 } }
           loop := { s.loop with ctx := ctx.filter fun x => x.2 != {} } }

/-- A context's POD and KMASK follow the moves of its kernels (R156). -/
def State.moveCtx (s : State) (mv : List (Nat × Nat)) (c : Nat) : State := s.moveMask mv R.LOOP_CTX_CFG_POD R.LOOP_CTX_CFG_KMASK c

/-- The contexts whose group holds a logical kernel. -/
def State.ctxsOn (s : State) (k : Nat) : List Nat :=
  (List.range 512).filter fun c => s.b R.LOOP_CTX_CFG_EN c && s.f R.LOOP_CTX_CFG_POD c == k / 16 && s.bitF R.LOOP_CTX_CFG_KMASK (k % 16) c

/-! ## Loaded memories of the kernels (R151, R154, R350, R359) -/

/-- The key of a word of a kernel's code or data memory. -/
def memKey (k : Nat) (data : Bool) (w : Nat) : Nat := (2 * k + b2n data) * 16384 + w

/-- Move the loaded memories of kernels with their names. -/
def State.moveMem (s : State) (mv : List (Nat × Nat)) : State :=
  let at_ (x : Nat × Word) : Nat × Word := let k := x.1 / 32768; (moved mv k * 32768 + x.1 % 32768, x.2)
  { s with sea := { s.sea with mem := (s.sea.mem.map at_).foldl (fun m x => kset 0 m x.1 x.2) [] } }

/-- The loaded words of a kernel. -/
def State.memOf (s : State) (k : Nat) : List (Nat × Word) := s.sea.mem.filter fun x => x.1 / 32768 == k

/-- Load onto each target kernel what its source holds, in place of what it held. -/
def State.copyMem (s : State) (mv : List (Nat × Nat)) : State :=
  let kept := s.sea.mem.filter fun x => !mv.any fun y => y.1 != y.2 && y.2 == x.1 / 32768
  let come := mv.flatMap fun y => if y.1 = y.2 then [] else (s.memOf y.1).map fun x => (y.2 * 32768 + x.1 % 32768, x.2)
  { s with sea := { s.sea with mem := come.foldl (fun m x => kset 0 m x.1 x.2) kept } }

/-! ## Pod routers (R18, R31) -/

/-- The flit types a role may send (Table 1.2). -/
def roleMay (role typ : Nat) : Bool :=
  if role = 1 then [5, 4, 6, 8, 0xB, 9].contains typ
  else if role = 2 then [5, 6, 8, 0xB, 9].contains typ
  else if role = 3 then [5, 6, 8, 0xC, 0xB, 9].contains typ
  else if role = 4 then [6, 8, 0xC, 0xB, 9].contains typ
  else if role = 5 then [0xD, 0xB].contains typ
  else false

/-- The store bank ports SB0 to SB3 (Table 1.3). -/
def bankRouter (b : Nat) : Nat := [7, 10, 13, 16].getD b 7

/-- The destinations that a type may reach from a kernel (R31). -/
def dstMay (typ : Nat) (d : FlitDst) : Bool :=
  match d with
  | .kernels r m => typ == 5 && decide (r < 24) && m != 0
  | .port r n =>
    match typ with
    | 4 => (n == 1 && [1, 4, 19, 22, 5].contains r)
    | 5 => r == 18 && n == 2
    | 6 | 8 => n == 0 && [7, 10, 13, 16].contains r
    | 9 => r == 8 && n == 2
    | 0xB => r == 18 && n == 0
    | 0xC => r == 8 && n == 0 || r == 15 && (n == 0 || n == 1)
    | 0xD => n == 0 && (r == 0 || r == 23)
    | _ => false

/-- PWR takes a CTXX flit only as DATA of a context with a DC-DC section, from a kernel of its group (R31, R499). Mark: DEDUCED (log 143). -/
def State.pwrTakes (s : State) (k : Nat) (f : Flit) : Bool :=
  match f.dst, f.payload with
  | .port 18 2, .ctxx c => c.sub == 7 && (kget {} s.loop.ctx c.ctx).desc.sections.testBit 2 && (s.ctxsOn k).contains c.ctx
  | _, _ => true

/-- The router's check of a flit from logical kernel `k`. -/
def State.mayPass (s : State) (k : Nat) (f : Flit) : Bool :=
  roleMay (s.role k) f.payload.typ && dstMay f.payload.typ f.dst && s.pwrTakes k f

/-- A kernel's flit goes through its pod router: a kernel that is stopped or unbacked sends nothing (R467), a flit that its role or
type does not allow is discarded and reported (R31). -/
def State.route (s : State) (k : Nat) (f : Flit) (pass : State → State) : State :=
  if !s.backed k then s
  else if s.mayPass k f then pass s
  else s.post E.FLIT_ROLE_DISCARD (kernelSubject k) (nw f.payload.typ)

/-- Send a flit: a kernel's goes through its pod router (R31), a block port's onto the mesh at once. -/
def State.transmit (s : State) (f : Flit) : State :=
  match f.src with
  | .kernel r k => s.route (16 * r + k) f (·.send f)
  | .port .. => s.send f

/-- FLIT_SEND (R31): a kernel hands a flit to its pod router. -/
def execFlitSend (t : Instant) (router k : Nat) (dst : FlitDst) (payload : Payload) (s : State) : Res :=
  let s := s.start t
  let f : Flit := { dst := dst, src := .kernel router k, payload := payload }
  .next (s.doIf (s.sealed && decide (router < 24) && decide (k < 15)) (·.transmit f))

/-! ## Checked words (R464, R465) -/

/-- REL_LAST_ERR names a word (Table 16.6): MEM 0 code, 1 data, 2 store, 3 block SRAM, 4 mesh. -/
def State.lastErr (s : State) (ue : Bool) (mem pod unit word : Nat) : State :=
  ((((s.setB R.REL_LAST_ERR_UE ue).setF R.REL_LAST_ERR_MEM mem).setF R.REL_LAST_ERR_POD pod).setF R.REL_LAST_ERR_UNIT
    unit).setF R.REL_LAST_ERR_WORD word

/-- A word is corrected. -/
def State.corrected (s : State) (mem pod unit word : Nat) : State :=
  ((s.incF R.REL_CE_CNT_CE).setB R.REL_STAT_CE_SEEN true).lastErr false mem pod unit word

/-- A word reads uncorrectable. -/
def State.uncorrectable (s : State) (mem pod unit word : Nat) : State :=
  ((s.incF R.REL_UE_CNT_UE).setB R.REL_STAT_UE_SEEN true).lastErr true mem pod unit word

/-! ## Links (R24, R30, R471, R472) -/

/-- Subject of a link. Mark: DEDUCED (log 32). -/
def linkSubject (l : Nat) : Nat := subject l

/-- A spare wire of a link takes a wire's place (R471). -/
def State.mapWire (s : State) (l w : Nat) : State :=
  let used := s.f R.REL_LINK_SPARES_USED l
  let s := { s with rel := { s.rel with mapped := s.rel.mapped ++ [(l, w)] } }
  ((s.setF R.REL_LINK_SPARES_USED (used + 1) l).setF (if used = 0 then R.REL_LINK_WIRE_A else R.REL_LINK_WIRE_B) w l).setF R.REL_LINK_STATE 1 l

/-- A faulty wire of a link: mapped out onto the next unused spare wire, or left in service. -/
def State.wireFaulty (s : State) (l w : Nat) : State :=
  let s := { s with rel := { s.rel with wires := kset [] s.rel.wires l (kset 0 (kget [] s.rel.wires l) w 0) } }
  if s.f R.REL_LINK_SPARES_USED l < 2 then
    ((s.mapWire l w).setB R.REL_STAT_LANE_SEEN true).post E.WIRE_MAPPED (linkSubject l) (nw w)
  else
    let bad := kget [] s.rel.faulty l
    if bad.contains w then s
    else
      let s := { s with rel := { s.rel with faulty := kset [] s.rel.faulty l (bad ++ [w]) } }
      if bad.isEmpty then s.setF R.REL_LINK_STATE 2 l
      else (s.setF R.REL_LINK_STATE 3 l).doIf (s.f R.REL_LINK_STATE l != 3) (·.post E.LINK_FAILED (linkSubject l))

/-- A flit is corrected on a link; its wires in error are counted, and one that reaches LANE_THR within the hour is faulty (R471). -/
def State.linkCorrect (s : State) (l : Nat) (wires : List Nat) : State :=
  let s := (s.corrected 4 0 0 l).incF R.REL_LINK_CE_HOUR 1 l
  wires.foldl (fun s w =>
    let m := kget [] s.rel.wires l
    let n := kget 0 m w + 1
    let s := { s with rel := { s.rel with wires := kset [] s.rel.wires l (kset 0 m w n) } }
    s.doIf (s.b R.REL_CTL_LANE_EN && decide (s.f R.REL_THR_LANE_THR ≤ n)) (·.wireFaulty l w)) s

/-- A flit leaves the link `l`: it waits at the next link of its route, whose wires it takes, or it has reached its destination. -/
def State.forward (s : State) (l : Nat) (f : Flit) : State :=
  match (linkEnd l).bind fun r => nextLink r f.dst with
  | some l' => { s.emit (.hop l' f.wires) with mesh := s.mesh.setLink l' ((s.mesh.link l').push (16 + l) f) }
  | none => s.emit (.arrive f)

/-- FLIT_RECEIVE (R25, R26, R30): the router, or the block port, at the end of link `l` takes the flit that the link passes and checks it. `e1`
and `e2` are the wires in error of the first copy and of the second, which is sent when the first is uncorrectable. Mark: DEDUCED (log 128), DESIGN CHOICE (log 141). -/
def execFlitReceive (t : Instant) (l : Nat) (e1 e2 : List Nat) (s : State) : Res :=
  let s := s.start t
  .next (match (s.mesh.link l).pop with
    | some (f, q) => s.doIf (s.alive && decide (l < 148)) fun s =>
        let s := { s with mesh := s.mesh.setLink l q }
        let pass (s : State) (e : List Nat) : State := (s.doIf (!e.isEmpty) (·.linkCorrect l e)).forward l f
        if e1.length ≤ 2 then pass s e1
        else if e2.length ≤ 2 then pass s e2
        else (s.uncorrectable 4 0 0 l).post E.LINK_UECC (linkSubject l)
    | none => s)

/-! ## Shared store (R32 to R34, R464) -/

/-- Whether the region rights let a role access an address. -/
def State.storeGrant (s : State) (role addr : Nat) (write : Bool) : Bool :=
  s.sea.regions.any fun r => decide (r.base * 4096 ≤ addr) && decide (addr < (r.base + r.pages) * 4096)
    && (if write then r.wr else r.rd).testBit role

/-- The bank of an address (R32). -/
def bankOf (addr : Nat) : Nat := addr / 32 % 4

/-- Subject of a store word: its bank. -/
def storeSubject (addr : Nat) : Nat := subject (bankOf addr)

/-- A refused store access is reported (R33). -/
def State.storeRefused (s : State) (k addr : Nat) : State := s.post E.STORE_REFUSED (kernelSubject k) (nw addr)

/-- The word index of a store address within its bank. -/
def bankWord (addr : Nat) : Nat := addr / 128

/-- A store word reads uncorrectable; it stays so until it is written. -/
def State.storeBad (s : State) (addr : Nat) : State :=
  let w := addr / 32
  { s with sea := { s.sea with badWords := if s.sea.badWords.contains w then s.sea.badWords else s.sea.badWords ++ [w] } }

/-- Bytes of a store word replaced where the mask names them (R32). -/
def maskBytes (old new : BitVec 256) (mask : Word) : BitVec 256 :=
  (List.range 32).foldl (fun (w : BitVec 256) i =>
    if mask.getLsbD i then (w &&& ~~~((255 : BitVec 256) <<< (8 * i))) ||| (new &&& ((255 : BitVec 256) <<< (8 * i))) else w) old

/-- The place of a kernel's access in the order of R34: its router, then its port. -/
def srcOrder (k : Nat) : Nat := k / 16 * 32 + k % 16

/-- The writes of a word in the present tick. -/
def State.opsOf (s : State) (w : Nat) : Option StoreOps :=
  if s.sea.opsTick = s.now / tickQ then s.sea.ops.find? fun x => x.word == w else none

/-- A write put in its place among those of its tick. -/
def insertOp (o : StoreOp) : List StoreOp → List StoreOp
  | [] => [o]
  | x :: xs => if o.src < x.src then o :: x :: xs else x :: insertOp o xs

/-- A word after writes in the order of R34: each leaves its own bytes in place. -/
def StoreOps.value (x : StoreOps) (ws : List StoreOp) : BitVec 256 := ws.foldl (fun v o => maskBytes v o.data o.mask) x.old

/-- Keep the writes of a word, and what the word holds after them. -/
def State.putOps (s : State) (x : StoreOps) : State :=
  let rest := if s.sea.opsTick = s.now / tickQ then s.sea.ops.filter fun y => y.word != x.word else []
  { s with sea := { s.sea with opsTick := s.now / tickQ, ops := x :: rest, store := kset 0 s.sea.store x.word (x.value x.writes)
                               badWords := s.sea.badWords.filter (· != x.word) } }

/-- What a read finds in a word (R34): of the writes in its tick, those of sources before its own. -/
def State.storeSees (s : State) (k w : Nat) : BitVec 256 :=
  match s.opsOf w with
  | some x => x.value (x.writes.filter fun o => decide (o.src < srcOrder k))
  | none => kget 0 s.sea.store w

/-- The 275 bits that the bank holds for a word: the check bits above its data (R32). -/
def State.storeWord (s : State) (w : Nat) : BitVec 275 := Config.bch (kget 0 s.sea.store w) ++ kget 0 s.sea.store w

/-- STRD past the router: `errs` bits of the stored word are in error (R464). -/
def State.storeRead (s : State) (k addr errs : Nat) : State :=
  let b := bankOf addr
  let back (refused ue : Bool) (d : BitVec 256) : Flit :=
    { dst := .kernels (k / 16) (2 ^ (k % 16)), src := .port (bankRouter b) 0, payload := .strs refused ue d }
  if !s.storeGrant (s.role k) addr false then (s.storeRefused k addr).send (back true false 0)
  else if eccBad errs ∨ s.sea.badWords.contains (addr / 32) then
    (((s.storeBad addr).uncorrectable 2 (bankRouter b) b (bankWord addr)).post E.UE_STORE (storeSubject addr) (nw addr)).send (back false true 0)
  else (s.doIf (eccFixed errs) (·.corrected 2 (bankRouter b) b (bankWord addr))).send (back false false (s.storeSees k (addr / 32)))

/-- STRD (R33, R34, R464): a store bank serves a read of a word with `errs` bits in error. -/
def execStrd (t : Instant) (router k addr errs : Nat) (s : State) : Res :=
  let s := s.start t
  let f : Flit := { dst := .port (bankRouter (bankOf addr)) 0, src := .kernel router k, payload := .strd addr }
  .next (s.doIf (s.sealed && decide (router < 24) && decide (k < 15))
    (·.route (16 * router + k) f (·.storeRead (16 * router + k) addr errs)))

/-- STWR past the router. Writes of one tick are served in the order of R34 whatever order they come in. An uncorrectable word that is
written in part holds a free value in its other bytes. -/
def State.storeWrite (s : State) (k addr : Nat) (mask : Word) (data : BitVec 256) : State :=
  if !s.storeGrant (s.role k) addr true then s.storeRefused k addr
  else
    let w := addr / 32
    let op : StoreOp := { src := srcOrder k, mask := mask, data := data }
    match s.opsOf w with
    | some x => s.putOps { x with writes := insertOp op x.writes }
    | none =>
      let bad := s.sea.badWords.contains w
      let (s, n) := if bad then s.draw else (s, 0)
      s.putOps { word := w, old := if bad then Config.random n else kget 0 s.sea.store w, writes := [op] }

/-- STWR (R33, R34): a store bank performs a byte-masked write. Mark: DESIGN CHOICE (log 142). -/
def execStwr (t : Instant) (router k addr : Nat) (mask : Word) (data : BitVec 256) (s : State) : Res :=
  let s := s.start t
  let f : Flit := { dst := .port (bankRouter (bankOf addr)) 0, src := .kernel router k, payload := .stwr addr mask data }
  .next (s.doIf (s.sealed && decide (router < 24) && decide (k < 15))
    (·.route (16 * router + k) f (·.storeWrite (16 * router + k) addr mask data)))

/-! ## What REL makes of a migration's end (Table 16.2, R474) -/

/-- The test under way is over. -/
def State.testOver (s : State) : State :=
  let s := { s.setF R.REL_BIST_PHASE 0 with rel := { s.rel with moving := none, aborts := 0, testing := [], pair := none, pairBad := false, askedNow := false } }
  s

/-- A test of REL ends; one that OEM asked for is DONE (R479). -/
def State.endTest (s : State) : State :=
  let asked := s.rel.askedNow
  s.testOver.doIf asked (·.setB R.REL_CMD_DONE true)

/-- Begin the tests of physical kernels. -/
def State.beginTests (s : State) (rs : List TestReq) : State :=
  let p := (rs.head?.elim 0 (·.kernel))
  let s := ((s.setF R.REL_BIST_PHASE 2).setF R.REL_BIST_POD (p / 16)).setF R.REL_BIST_K (p % 16)
  { s with rel := { s.rel with testing := rs } }

/-- A LOOP kernel is skipped (R474). Mark: DEDUCED (log 131). -/
def State.skipTest (s : State) (k : Nat) : State :=
  ((s.incF R.REL_POD_UNTESTED 1 (k / 16)).post E.TEST_SKIPPED (kernelSubject k)).endTest

/-- The request of a migration that frees logical kernel `src` of context `c`. -/
def freeMig (c src dst : Nat) : MigSt :=
  { ctx := c, srcPod := src / 16, srcMask := 2 ^ (src % 16), dstPod := dst / 16, dstMask := 2 ^ (dst % 16), rel := true }

/-- A migration is made once the one under way is over. -/
def State.queueMig (s : State) (m : MigSt) : State := { s with loop := { s.loop with migQueue := s.loop.migQueue ++ [m] } }

/-- The first context on a kernel that REL frees migrates; with none left the test ends. -/
def State.freeNext (s : State) (src dst : Nat) : State :=
  match s.ctxsOn src with
  | c :: _ => s.queueMig { freeMig c src dst with again := s.role dst != roleIdle }
  | [] => s.endTest

/-- What REL moves off a kernel, and how often that was aborted. -/
def State.setMoving (s : State) (m : Option (Nat × Nat)) (aborts : Nat) : State :=
  { s with rel := { s.rel with moving := m, aborts := aborts } }

/-- A migration that REL requested has ended: committed, the next context on the kernel follows, or the kernel is tested; aborted, it is
made again, and the third abort skips the kernel. -/
def State.relMigEnd (s : State) (ok : Bool) : State :=
  match s.rel.moving with
  | none => s
  | some (src, dst) =>
    if ok then
      match s.ctxsOn src, s.physOf src with
      | [], some p => (s.setMoving none s.rel.aborts).beginTests [{ kernel := p, why := 0 }]
      | [], none => s.endTest
      | _ :: _, _ => s.freeNext src dst
    else if s.rel.aborts + 1 < 3 then (s.setMoving s.rel.moving (s.rel.aborts + 1)).freeNext src dst
    else s.skipTest src

/-- A safety pair leaves the state in which REL tests it (R476). -/
def State.relPairOver (s : State) (p : Nat) : State := s.doIf (s.rel.pair == some p) (·.endTest)

end Sys2Proof.Machine
end

