-- ==== Sys2Proof/Machine/Rings.lean ====
section
/-! DEFINITION. Descriptors and their end: what a handler tells HOSTQ of a descriptor (R376 to R378, R383, R386). -/
namespace Sys2Proof.Machine

/-- A descriptor by its tag. -/
def State.desc (s : State) (tag : Nat) : Option HDesc := (s.hostq.descs.find? fun d => d.1 == tag).map (·.2)

/-- Put a descriptor under its tag. -/
def State.setDesc (s : State) (tag : Nat) (d : HDesc) : State :=
  { s with hostq := { s.hostq with descs := kput s.hostq.descs tag d } }

/-- Change a descriptor. -/
def State.modDesc (s : State) (tag : Nat) (g : HDesc → HDesc) : State :=
  match s.desc tag with
  | some d => s.setDesc tag (g d)
  | none => s

/-- A descriptor is gone; it no longer counts as outstanding. -/
def State.dropDesc (s : State) (tag : Nat) : State :=
  match s.desc tag with
  | none => s
  | some d =>
    let s := { s with hostq := { s.hostq with descs := kdel s.hostq.descs tag, waiting := s.hostq.waiting.filter (· != tag) } }
    if d.parent.isSome then s
    else
      let s := s.setF R.HOSTQ_STAT_OUTSTANDING (s.f R.HOSTQ_STAT_OUTSTANDING - 1)
      let s := s.doIf d.held fun s => s.setF R.HOSTQ_STAT_SCHEDULES (s.f R.HOSTQ_STAT_SCHEDULES - 1)
      s.setF R.HOSTQ_SQ_STAT_OUTSTANDING (s.f R.HOSTQ_SQ_STAT_OUTSTANDING d.sq d.fn - 1) d.sq d.fn

/-- The two status codes of a descriptor that has done what it was asked. -/
def statusGood (status : Nat) : Bool := status == 0 || status == 1

/-- A descriptor of an SQ has finished with a status: its completion waits, unless it is to be discarded. OK becomes LATE for a
descriptor whose time had passed (R381). -/
def State.finishOwn (s : State) (tag : Nat) (d : HDesc) (status detail : Nat) (doneTs : Word) (info0 : Word) (info1 : BitVec 64) : State :=
  if d.phase = 4 then s
  else if d.dead then s.dropDesc tag
  else
    let status := if status = 0 ∧ d.late then 1 else status
    let s := s.setDesc tag { d with phase := 4, status := status, detail := detail, doneTs := doneTs, info0 := info0, info1 := info1 }
    { s with hostq := { s.hostq with waiting := s.hostq.waiting ++ [tag] } }

/-- A schedule that has made its last firing completes with the firings made and failed (R386). -/
def State.scheduleEnd (s : State) (tag : Nat) : State :=
  match s.desc tag with
  | some d =>
    let open_ := s.hostq.descs.any fun x => x.2.parent == some tag
    if d.phase != 4 && d.count != 0 && d.count ≤ d.fired && !open_ then
      s.finishOwn tag d 0 0 s.shortTs (nw d.fired) (BitVec.ofNat 64 d.failed)
    else s
  | none => s

/-- A descriptor, or a firing, has finished: a failing firing is reported and counted, and the schedule goes on (R386). Mark: DEDUCED (log 49). -/
def State.finish (s : State) (tag status detail : Nat) (doneTs : Word) (info0 : Word := 0) (info1 : BitVec 64 := 0) : State :=
  match s.desc tag with
  | none => s
  | some d =>
    match d.parent with
    | none => s.finishOwn tag d status detail doneTs info0 info1
    | some p =>
      let s := s.dropDesc tag
      let s := s.doIf (!statusGood status) fun s =>
        (s.post E.SCHED_FIRE_FAIL (subject d.sq 0 d.fn d.dom) (nw status)).modDesc p fun q => { q with failed := q.failed + 1 }
      s.scheduleEnd p

/-- A handler's completion item (SUB CPL of Table 12.8) and what HOSTQ makes of it. Mark: DEDUCED (log 49). -/
def State.reply (s : State) (src : FlitSrc) (tag status detail : Nat) (doneTs : Word) (info0 : Word := 0) (info1 : BitVec 64 := 0) : State :=
  let dom := (s.desc tag).elim 0 (·.dom)
  let ws := [nw (status + 65536 * detail), doneTs, info0, info1.setWidth 32, (info1 >>> 32).setWidth 32]
  let f : Flit := { dst := .port 8 0, src := src, payload := .svcx { sub := 2, tag := tag, domain := dom, first := 0, last := true, words := ws } }
  let done (s : State) : State := (s.send f).finish tag status detail doneTs info0 info1
  match src with
  | .kernel r k => s.route (16 * r + k) f done
  | .port .. => done s

end Sys2Proof.Machine
end

