-- ==== Sys2Proof/Machine/Loop.lean ====
section
/-! DEFINITION. Loop contexts outside the evaluation: states and faults, triggers, inputs, the start of an evaluation, parameter
transactions, and the clearing of a fault (R110 to R117, R120, R144, R146 to R149, R155). -/
namespace Sys2Proof.Machine

/-! ## A context and its registers -/

/-- STATE codes of LOOP_CTX_STAT. -/
abbrev stStopped : Nat := 0
abbrev stActive : Nat := 1
abbrev stShadow : Nat := 2
abbrev stFaulted : Nat := 3

/-- KIND codes of LOOP_CTX_CFG. -/
abbrev kindUnified : Nat := 1
abbrev kindInner : Nat := 2
abbrev kindOuter : Nat := 3
abbrev kindAux : Nat := 4

def State.ctx (s : State) (c : Nat) : CtxSt := kget {} s.loop.ctx c
def State.setCtx (s : State) (c : Nat) (x : CtxSt) : State := { s with loop := { s.loop with ctx := kset {} s.loop.ctx c x } }
def State.modCtx (s : State) (c : Nat) (g : CtxSt → CtxSt) : State := s.setCtx c (g (s.ctx c))

/-- The context runs (LOOP_CTL.EN, LOOP_CTX_CFG.EN). -/
def State.ctxOn (s : State) (c : Nat) : Bool :=
  s.sealed && s.b R.LOOP_CTL_EN && decide (c < 512) && s.b R.LOOP_CTX_CFG_EN c

def State.ctxState (s : State) (c : Nat) : Nat := s.f R.LOOP_CTX_STAT_STATE c
def State.ctxKind (s : State) (c : Nat) : Nat := s.f R.LOOP_CTX_CFG_KIND c

/-- The contexts of the image. -/
def State.ctxs (s : State) : List Nat := (s.loop.ctx.map (·.1)).filter fun c => decide (c < 512) && s.b R.LOOP_CTX_CFG_EN c

/-- The partner of a UNIFIED or CASCADE_INNER context (R130). -/
def State.partner (s : State) (c : Nat) : Option Nat :=
  if (s.ctxKind c = kindUnified ∨ s.ctxKind c = kindInner) ∧ s.b R.LOOP_CTX_HO_FB_EN c then some (s.f R.LOOP_CTX_HO_FALLBACK c)
  else none

/-- The partner could take over (R141). -/
def State.partnerHealthy (s : State) (c : Nat) : Bool :=
  match s.partner c with
  | none => false
  | some p => s.ctxState p == stShadow || s.ctxState p == stActive

/-- The inner context that names `c` as its OUTER. -/
def State.innerOf (s : State) (c : Nat) : Option Nat :=
  if s.ctxKind c = kindOuter then s.ctxs.find? fun i => s.ctxKind i == kindInner && s.f R.LOOP_CTX_SHADOW_OUTER i == c else none

/-- A parameter word (its present value while it ramps is `pv`). -/
def State.pword (s : State) (c i : Nat) : Word := (s.ctx c).params.getD i 0

/-- A parameter as a number: the ramped value of a set-point word, or the float32 value of the word. -/
def CtxSt.pv (x : CtxSt) (i : Nat) : Rat :=
  match x.ramped.find? (fun r => r.1 == i) with
  | some r => r.2
  | none => f32 (x.params.getD i 0)

def State.pv (s : State) (c i : Nat) : Rat := (s.ctx c).pv i

/-- A parameter as a float32 value, which may be an infinity or not a number. -/
def CtxSt.pvNum (x : CtxSt) (i : Nat) : Num :=
  match x.ramped.find? (fun r => r.1 == i) with
  | some r => .fin r.2
  | none => f32Num (x.params.getD i 0)

/-- Kernels of a context as a destination, and the one its flits come from. -/
def State.ctxDst (s : State) (c : Nat) : FlitDst := .kernels (s.f R.LOOP_CTX_CFG_POD c) (s.f R.LOOP_CTX_CFG_KMASK c)

/-- The lowest set bit of a mask of 15. -/
def lowBit (m : Nat) : Nat := ((List.range 15).find? fun k => m.testBit k).getD 0

def State.ctxSrc (s : State) (c : Nat) : FlitSrc := .kernel (s.f R.LOOP_CTX_CFG_POD c) (lowBit (s.f R.LOOP_CTX_CFG_KMASK c))

/-- Send a payload to every kernel of a context, and to the target of its migration. -/
def State.sendCtx (s : State) (src : FlitSrc) (c : Nat) (p : Payload) : State :=
  (s.withMig (s.ctxDst c)).foldl (fun s d => s.transmit { dst := d, src := src, payload := p }) s

/-- Change STATE, with the counts of LOOP_STAT and SYS_STAT.FAULT_ANY. -/
def State.setCtxState (s : State) (c st : Nat) : State :=
  let old := s.ctxState c
  let s := s.setF R.LOOP_CTX_STAT_STATE st c
  let a := s.f R.LOOP_STAT_ACTIVE
  let s := s.setF R.LOOP_STAT_ACTIVE (a + b2n (st == stActive) - b2n (old == stActive))
  let n := s.f R.LOOP_STAT_FAULTED
  let s := s.setF R.LOOP_STAT_FAULTED (n + b2n (st == stFaulted) - b2n (old == stFaulted))
  s.setB R.SYS_STAT_FAULT_ANY (s.f R.LOOP_STAT_FAULTED != 0)

/-- The FAULT bit, and its mirror in LOOP_FAULT. -/
def State.setCtxFault (s : State) (c : Nat) (on : Bool) : State :=
  (s.setB R.LOOP_CTX_STAT_FAULT on c).setBitF R.LOOP_FAULT_FAULT (c % 32) on (c / 32)

/-- HANDOVER of a context, with its causes, variants and states (R139). -/
def State.postHandover (s : State) (c causes var0 st0 : Nat) : State :=
  s.post E.HANDOVER (subject c) (nw causes)
    (nw (s.f R.LOOP_CTX_STAT_VAR c + 4 * var0 + 16 * s.ctxState c + 64 * st0))

/-! ## Migration aborts (R153) -/

/-- The port of CFG. -/
abbrev cfgPort : FlitSrc := .port 8 2

/-- The kernels of a pod's mask, in order. -/
def maskKernels (pod mask : Nat) : List Nat := ((List.range 15).filter fun k => mask.testBit k).map (16 * pod + ·)

/-- The moves of a migration: source kernels to target kernels in order. -/
def MigSt.moves (m : MigSt) : List (Nat × Nat) := (maskKernels m.srcPod m.srcMask).zip (maskKernels m.dstPod m.dstMask)

/-- The position of a kernel in the group of a context (KPOS). -/
def State.kpos (s : State) (c k : Nat) : Nat := ((List.range (k % 16)).filter fun j => s.bitF R.LOOP_CTX_CFG_KMASK j c).length

/-- The MIGR LOAD flits from one kernel's memories to another (Table 4.12): each five words that hold one which is not zero. Mark: DESIGN CHOICE
(log 153). -/
def State.sendLoad (s : State) (c src dst : Nat) : State :=
  let ws := s.memOf src
  let groups := ws.foldl (fun gs w => let g := (w.1 / 16384 % 2, w.1 % 16384 / 5); if gs.contains g then gs else gs ++ [g]) []
  groups.foldl (fun s g =>
    let word (i : Nat) : Word := if 5 * g.2 + i < 16384 then kget 0 s.sea.mem (memKey src (g.1 == 1) (5 * g.2 + i)) else 0
    s.send { dst := .kernels (dst / 16) (2 ^ (dst % 16)), src := cfgPort
             payload := .migr { op := 1, ctx := c, kpos := s.kpos c src, mem := g.1 == 1, addr := 5 * g.2
                                words := (List.range 5).map word } }) s

/-- MIGR LOAD begins: the migration runs (Table 4.9, step 1). -/
def State.beginMig (s : State) (m : MigSt) : State :=
  let s := { s with loop := { s.loop with mig := some m } }
  let s := (((s.setF R.LOOP_MIG_STAT_PHASE 1).setF R.LOOP_MIG_STAT_CTX m.ctx).setF R.LOOP_MIG_STAT_SRC_POD m.srcPod).setF
    R.LOOP_MIG_STAT_DST_POD m.dstPod
  let s := m.moves.foldl (fun s x => s.sendLoad m.ctx x.1 x.2) s
  s.post E.MIG_START (subject m.ctx)

/-- A waiting request of the reliability manager starts (R151): its context is still on the source kernel, else the manager goes on; its target
still holds IDLE/SPARE, or what the manager has moved onto it from the same kernel, else the test is skipped. Mark: DEDUCED (log 50). -/
def State.startWaiting (s : State) (m : MigSt) : State :=
  match m.moves with
  | (a, b) :: _ =>
    if !(s.ctxsOn a).contains m.ctx then s.relMigEnd true
    else if s.backed b && (s.role b == roleIdle || m.again) then s.beginMig m
    else s.skipTest a
  | [] => s

/-- Waiting requests start until one runs. -/
def State.nextMig (s : State) : Nat → State
  | 0 => s
  | n + 1 =>
    match s.loop.mig, s.loop.migQueue with
    | none, m :: ms => ({ s with loop := { s.loop with migQueue := ms } }.startWaiting m).nextMig n
    | _, _ => s

/-- A migration ends: PHASE IDLE, the destinations of the target are gone, its descriptor completes, and a waiting request of the
reliability manager starts (R151). -/
def State.endMig (s : State) (status : Nat) (info0 : Word) : State :=
  match s.loop.mig with
  | none => s
  | some m =>
    let s := { s.setF R.LOOP_MIG_STAT_PHASE 0 with loop := { s.loop with mig := none } }
    let s := match m.tag with
      | some g => s.reply cfgPort g status 0 s.shortTs info0
      | none => s
    let s := s.doIf m.rel (·.relMigEnd (status == 0))
    s.nextMig (s.loop.migQueue.length + 8)

/-- The migration aborts: the source continues, the target is released (Table 4.9, step 4). -/
def State.abortMig (s : State) : State :=
  match s.loop.mig with
  | none => s
  | some m =>
    let s := s.send { dst := .kernels m.dstPod m.dstMask, src := cfgPort
                      payload := .migr { op := 6, ctx := m.ctx, kpos := 0, mem := false, addr := 0, words := [] } }
    ((s.setB R.LOOP_MIG_STAT_ABORTED true).post E.MIG_ABORT (subject m.ctx)).endMig 0x21 0

/-- A fault or hand-over affects a context: its migration aborts before commit. -/
def State.disturbMig (s : State) (c : Nat) : State :=
  match s.loop.mig with
  | some m => if m.ctx = c && !m.forced then s.abortMig else s
  | none => s

/-- Restart at a trigger after FAULT was cleared: states at their initial values, SHADOW with a partner, else ACTIVE with TAKE
(R146). -/
def State.ctxRestart (s : State) (c : Nat) : State :=
  let p := s.partner c
  let s := s.modCtx c fun x => { x with
    restart := false, states := x.desc.states.map fun d => f32Num d.init
    lim := [], xfN := 0, xfDone := 0, xfFrom := [], fe0 := 0, fe1 := 0, missRun := 0, ovrRun := 0, faultDue := 0, stopped := false
    takeNext := p.isNone }
  (s.setF R.LOOP_CTX_STAT_XF_LEFT 0 c).setCtxState c (if p.isSome then stShadow else stActive)

/-! ## The start of an evaluation (R112, R115, R116) -/

/-- Whether an input counts as landed for the coming evaluation: due with the trigger's timestamp, fresh since the last start. -/
def inputReady (trigTs : Word) (d : InputDef) (i : InSt) : Bool :=
  if d.cls = 0 then i.landed && i.ts == trigTs else if d.cls = 1 then i.landed else true

/-- ACT_OUT, the input that a SHADOW context awaits by R135 and no other context awaits. -/
def isAct (d : InputDef) : Bool := d.kind == 5

/-- The short timestamp of the trigger. -/
def CtxSt.trigTs (x : CtxSt) : Word := BitVec.ofInt 32 x.trigNt

/-- The ACT_OUT of the trigger has landed whole. -/
def CtxSt.actReady (x : CtxSt) : Bool := x.actWhole.isSome && x.actWholeTs == x.trigTs

/-- Every due and fresh input has landed (R115). -/
def State.allLanded (s : State) (c : Nat) : Bool :=
  let x := s.ctx c
  (x.desc.inputs.zipIdx).all (fun d => (isAct d.1) || inputReady x.trigTs d.1 (kget {} x.inputs d.2))
    && (s.ctxState c != stShadow || (s.partner c).isNone || x.actReady)

/-- Two contexts share a kernel. -/
def State.shareKernel (s : State) (c d : Nat) : Bool :=
  s.f R.LOOP_CTX_CFG_POD c == s.f R.LOOP_CTX_CFG_POD d && (s.f R.LOOP_CTX_CFG_KMASK c &&& s.f R.LOOP_CTX_CFG_KMASK d) != 0

/-- A kernel of the context is busy with another context's evaluation. -/
def State.kernelBusy (s : State) (c : Nat) : Bool :=
  s.ctxs.any fun d => d != c && (s.ctx d).phase == 3 && s.shareKernel c d

/-- The evaluation starts, on the inputs as they stand (R117): missing inputs are stale, MISSED and its count (R116), and the state of ACT_OUT
(R135). The evaluation that completes MISS_N missing ones in a row faults the context at its end. Mark: DEDUCED (log 46). -/
def State.startEval (s : State) (c : Nat) : State :=
  let x := s.ctx c
  let idx := x.desc.inputs.zipIdx
  let missing := idx.filter fun d => !(isAct d.1) && !inputReady x.trigTs d.1 (kget {} x.inputs d.2)
  let inputs := idx.foldl (fun m d =>
    let i := kget {} m d.2
    kset {} m d.2 { i with stale := !(isAct d.1) && !inputReady x.trigTs d.1 i, landed := false }) x.inputs
  let run := if missing.isEmpty then 0 else x.missRun + 1
  let s := s.setCtx c { x with
    phase := 3, inputs := inputs, evalIn := inputs, actIn := x.actWhole, dcdc := { x.dcdc with grantSeen := x.dcdc.granted }, txnReady := (match x.txn with | some t => t.landed | none => false)
    actMissing := s.ctxState c == stShadow && (s.partner c).isSome && !x.actReady
    missRun := run, faultDue := if x.faultDue = 0 ∧ s.f R.LOOP_CTX_FLT_MISS_N c + 1 ≤ run then 1 else x.faultDue }
  s.doIf (!missing.isEmpty) (·.raise R.LOOP_CTX_STAT_MISSED c E.INPUT_MISSING (subject c))

/-- Start the evaluation if its kernels are free; on a shared kernel it waits (R112). -/
def State.wakeEval (s : State) (c : Nat) : State :=
  if s.kernelBusy c then s.modCtx c fun x => { x with phase := 2 } else s.startEval c

/-- The waiting context that goes first: earliest trigger tick, then lowest number. -/
def State.nextWaiting (s : State) (c : Nat) : Option Nat :=
  (s.ctxs.filter fun d => (s.ctx d).phase == 2 && s.shareKernel c d && !s.kernelBusy d).foldl (fun b d =>
    match b with
    | none => some d
    | some e => if (s.ctx d).trig.getD 0 < (s.ctx e).trig.getD 0 then some d else some e) none

/-- An evaluation ends: its kernels take up waiting evaluations (R112). -/
def State.freeKernels (s : State) (c : Nat) : State :=
  let rec go (n : Nat) (s : State) : State := match n with
    | 0 => s
    | n + 1 => match s.nextWaiting c with
      | some d => go n (s.startEval d)
      | none => s
  go 4 s

/-! ## Faults (R144) -/

/-- A context faults with a cause code: its evaluation is over and its kernels are free. ACTION STOP, and the fault of a supervisor's STOP, keep
its partner from taking over (R143, R144). A context that is faulted already takes the cause of a kernel loss, with FAULT set again where
it was cleared. Mark: DEDUCED (log 152). -/
def State.ctxFault (s : State) (c cause : Nat) : State :=
  let was := s.b R.LOOP_CTX_STAT_FAULT c
  if s.ctxState c = stFaulted then
    s.doIf (cause == 4) fun s =>
      ((s.setCtxFault c true).modCtx c fun x => { x with cause := 4, restart := false }).doIf (!was) (·.post E.CTX_FAULT (subject c) (nw 4))
  else
    let s := (s.setCtxFault c true).setCtxState c stFaulted
    let s := s.modCtx c fun x => { x with
      phase := 0, cause := cause, faultDue := 0, missRun := 0, ovrRun := 0, restart := false
      stopped := cause == 3 || s.f R.LOOP_CTX_FLT_ACTION c == 1 }
    ((s.doIf (!was) (·.post E.CTX_FAULT (subject c) (nw cause))).freeKernels c).disturbMig c

/-- The context takes the fault that was due at the end of its evaluation. -/
def State.dueFault (s : State) (c : Nat) : State := s.doIf ((s.ctx c).faultDue != 0) (·.ctxFault c (s.ctx c).faultDue)

/-! ## Triggers (R113, R114, R120, R132) -/

/-- A trigger comes while VERIFY of its context's migration is missing: trigger k+2, taken or skipped (R153). -/
def State.migLate (s : State) (c : Nat) : State :=
  match s.loop.mig with
  | some m => s.doIf (m.ctx == c && !m.forced && m.step == 4) (·.abortMig)
  | none => s

/-- A trigger is taken while its context migrates: trigger k (SNAP_REQ and FOLLOW go out), or trigger k+1 (Table 4.9). -/
def State.migTrigger (s : State) (c tick : Nat) : State :=
  match s.loop.mig with
  | some m =>
    if m.ctx ≠ c ∨ m.forced then s
    else if m.step = 1 then
      let ts := (s.ctx c).trigTs
      let req (op : Nat) : Payload := .migr { op := op, ctx := c, kpos := 0, mem := false, addr := 0, words := [ts] }
      let s := { s with loop := { s.loop with mig := some { m with step := 2 } } }
      (s.send { dst := .kernels m.srcPod m.srcMask, src := cfgPort, payload := req 3 }).send
        { dst := .kernels m.dstPod m.dstMask, src := cfgPort, payload := req 2 }
    else if m.step = 3 then { s with loop := { s.loop with mig := some { m with step := 4, trig1 := some tick } } }
    else s
  | none => s

/-- A trigger for context `c` itself. -/
def State.takeTrigger (s : State) (c tick : Nat) : State :=
  let s := s.doIf ((s.ctx c).restart) (·.ctxRestart c)
  if s.ctxState c = stStopped ∨ s.ctxState c = stFaulted then s
  else
    let x := s.ctx c
    let s := (s.migLate c).modCtx c fun x => { x with lastTrig := some tick }
    let fastSkip := match x.lastTrig with
      | some p => decide (tick < p + 1250)
      | none => false
    if fastSkip then s.raise R.LOOP_CTX_STAT_RATE_SKIP c E.RATE_SKIP (subject c)
    else if x.phase ≠ 0 then
      let s := (s.raise R.LOOP_CTX_STAT_OVERRUN c E.OVERRUN (subject c)).modCtx c fun x => { x with ovrRun := x.ovrRun + 1 }
      s.doIf (decide (s.f R.LOOP_CTX_FLT_OVR_N c + 1 ≤ (s.ctx c).ovrRun)) (·.modCtx c fun x => { x with faultDue := 2 })
    else
      let s := s.modCtx c fun x => { x with ovrRun := 0, prevTrig := x.trig, trig := some tick, trigNt := s.ntime, phase := 1 }
      let s := s.migTrigger c tick
      s.doIf (s.allLanded c) (·.wakeEval c)

/-- A trigger of context `c` at a tick; an inner context's trigger also drives its outer one, every OUTER_DIV-th time. -/
def State.ctxTrigger (s : State) (c tick : Nat) : State :=
  let o := s.f R.LOOP_CTX_SHADOW_OUTER c
  let s :=
    if s.ctxKind c = kindInner ∧ s.ctxOn o ∧ s.ctxKind o = kindOuter then
      let n := (s.ctx c).outerDiv + 1
      if s.f R.LOOP_CTX_SHADOW_OUTER_DIV c + 1 ≤ n then
        (s.modCtx c fun x => { x with outerDiv := 0 }).takeTrigger o tick
      else s.modCtx c fun x => { x with outerDiv := n }
    else s
  s.takeTrigger c tick

/-- Context `c` is triggered by its own LOOP_CTX_TRIG: it runs, and no inner context drives it. -/
def State.ownTrigger (s : State) (c : Nat) : Bool := s.ctxOn c && (s.innerOf c).isNone

/-- Contexts whose trigger a carrier event of a slot is, divided by DIV (R113). -/
def State.triggersCarrier (s : State) (slot tick : Nat) (zero : Bool) : State :=
  s.ctxs.foldl (fun s c =>
    let arg := s.f R.LOOP_CTX_TRIG_ARG c
    if s.ownTrigger c && s.f R.LOOP_CTX_TRIG_SRC c == 0 && argCarrier arg slot zero then
      let (d, go) := divStep (argDiv arg) (s.ctx c).trigDiv
      (s.modCtx c fun x => { x with trigDiv := d }).doIf go (·.ctxTrigger c tick)
    else s) s

/-- Contexts whose trigger an event of NTIME generator `k` is. -/
def State.triggersNtev (s : State) (k tick : Nat) : State :=
  s.ctxs.foldl (fun s c =>
    s.doIf (s.ownTrigger c && s.f R.LOOP_CTX_TRIG_SRC c == 1 && s.f R.LOOP_CTX_TRIG_ARG c % 8 == k) (·.ctxTrigger c tick)) s

/-- Contexts start at sealing: the UNIFIED partner, and every other context but a partnered inner one, ACTIVE (R131). A
context that could not be placed stays FAULTED (R359). -/
def State.loopStart (s : State) : State :=
  s.ctxs.foldl (fun s c =>
    if s.ctxOn c then
      let s := s.modCtx c fun x => { x with states := x.desc.states.map fun d => f32Num d.init
                                            params := x.desc.params.map (·.init)
                                            grid := { x.grid with omega := 2 * Config.pi * x.pv 106 } }
      let s := s.setF R.LOOP_CTX_STAT_VAR (getBits (s.pword c 0) 1 0) c
      s.doIf (s.ctxState c != stFaulted) (·.setCtxState c (if s.ctxKind c = kindInner ∧ (s.partner c).isSome then stShadow else stActive))
    else s) s

/-! ## Inputs (R114 to R117, Table 4.3) -/

/-- The value of an input as one number: the window average, or its first word. -/
def InSt.val (i : InSt) : Rat := if i.cnt ≠ 0 then (i.sum : Rat) / (i.cnt : Rat) else f32 (i.words.getD 0 0)

/-- What a payload brings to an input of this kind and source, with its timestamp (Table 4.3). Mark: DEDUCED (log 45). -/
def inputValue (c : Nat) (d : InputDef) : Payload → Option (InSt × Word)
  | .winres ts a b =>
    if d.kind = 1 then
      if a.acc = d.src then some ({ sum := a.sum.toInt, cnt := a.cnt }, ts)
      else match b with
        | some w => if w.acc = d.src then some ({ sum := w.sum.toInt, cnt := w.cnt }, ts) else none
        | none => none
    else none
  | .trkres ts a b =>
    let mk (w : TrkItem) : InSt := { words := [nw w.min, nw w.max, nw w.cnt, nw w.above, nw w.below, nw w.flags] }
    if d.kind = 2 then
      if a.mmt = d.src then some (mk a, ts)
      else match b with
        | some w => if w.mmt = d.src then some (mk w, ts) else none
        | none => none
    else none
  | .posres ts pi status _ => if d.kind = 3 ∧ pi = d.src then some ({ words := [nw status] }, ts) else none
  | .ctxx x =>
    if x.ctx = c ∧ ((d.kind = 4 ∧ x.sub = 2) ∨ (d.kind = 6 ∧ x.sub = 4 ∧ x.first = d.src) ∨ (d.kind = 7 ∧ x.sub = 7 ∧ x.first = d.src))
    then some ({ words := x.words }, x.ts) else none
  | _ => none

/-- Put what a payload brings into the inputs of a context. A late due input is discarded (R117). Mark: DEDUCED (log 45). -/
def State.landInputs (s : State) (c : Nat) (p : Payload) : State :=
  let x := s.ctx c
  let inputs := (x.desc.inputs.zipIdx).foldl (fun m d =>
    match inputValue c d.1 p with
    | some (v, ts) =>
      let late := d.1.cls == 0 && (x.phase == 0 || x.phase == 3 || ts != x.trigTs)
      if late then m else kset {} m d.2 { v with ts := ts, landed := true, got := true }
    | none => m) x.inputs
  s.setCtx c { x with inputs := inputs }

/-- ACT_OUT from the partner: the applied outputs are kept for a preload; an ACTIVE UNIFIED context that gets one for its own
trigger yields (R135). -/
def State.landAct (s : State) (c : Nat) (x : Ctxx) : State :=
  let s := s.modCtx c fun y =>
    let old := if x.ts = y.actTs then y.act else []
    let kept := old.filter fun w => decide (w.1 < x.first) || decide (x.first + x.words.length ≤ w.1)
    let act := kept ++ (x.words.zipIdx).map (fun w => (x.first + w.2, w.1))
    let y := { y with act := act, actTs := x.ts }
    match (List.range act.length).mapM fun j => (act.find? fun w => w.1 == j).map (·.2) with
    | some ws => if x.last then { y with actWhole := some ws, actWholeTs := x.ts } else y
    | none => y
  if s.ctxState c = stActive ∧ s.ctxKind c = kindUnified ∧ (s.partner c).isSome ∧ x.last ∧ (s.ctx c).actReady then
    let s := (s.modCtx c fun y => { y with fe0 := 0, fe1 := 0 }).setCtxState c stShadow
    (s.postHandover c 128 (s.f R.LOOP_CTX_STAT_VAR c) stActive).disturbMig c
  else s

/-- PARAM flits stage the transaction (R148). -/
def State.landParam (s : State) (c : Nat) (x : Ctxx) : State :=
  s.modCtx c fun y =>
    let t : Txn := match y.txn with
      | some t => if t.landed then {} else t
      | none => {}
    { y with txn := some { t with apply := shortToNtime x.ts s.ntime
                                  words := t.words ++ (x.words.zipIdx).map (fun w => (x.first + w.2, w.1)), landed := x.last
                                  tag := y.sent.bind (·.tag) } }

/-- The snapshot of a migration lands at the target, flit after flit (Table 4.9, step 2). -/
def State.landSnap (s : State) (c : Nat) (x : Ctxx) : State :=
  match s.loop.mig with
  | some m =>
    if m.ctx = c ∧ (m.step = 3 ∨ m.step = 4) ∧ x.first = m.snapAt then
      { s with loop := { s.loop with mig := some { m with snapAt := m.snapAt + x.words.length, snapLanded := x.last } } }
    else s
  | none => s

/-- INPUT_ARRIVAL (R114, R115): a flit reaches the kernels of a context; a CTXX flit with a reserved SUB is discarded (R155). -/
def State.inputArrival (s : State) (c : Nat) (p : Payload) : State :=
  let s := match p with
    | .ctxx x =>
      if x.ctx ≠ c ∨ x.words.length = 0 ∨ 5 < x.words.length then s
      else if x.sub = 3 then s.landAct c x
      else if x.sub = 5 then s.landParam c x
      else if x.sub = 6 then s.landSnap c x
      else s.landInputs c p
    | _ => s.landInputs c p
  s.doIf ((s.ctx c).phase == 1 && s.allLanded c) (·.wakeEval c)

/-- INPUT_ARRIVAL. -/
def execInputArrival (t : Instant) (c : Nat) (p : Payload) (s : State) : Res :=
  let s := s.start t
  .next (s.doIf (s.ctxOn c) (·.inputArrival c p))

/-- INPUT_DEADLINE (R115): T_IN after the trigger the evaluation starts with what has landed. -/
def execInputDeadline (t : Instant) (c : Nat) (s : State) : Res :=
  let s := s.start t
  .next (s.doIf (s.ctxOn c && (s.ctx c).phase == 1
      && decide ((s.ctx c).trig.getD 0 + s.f R.LOOP_CTX_TIME_T_IN c ≤ s.pwmTime)) (·.wakeEval c))

/-! ## Clearing a fault (R146) -/

/-- CTX_FAULT_CLEAR (R146): a W1C write of FAULT. A kernel loss persists until the context is loaded anew (R154). -/
def execCtxFaultClear (t : Instant) (fn c : Nat) (data : Word) (s : State) : Res :=
  match (s.start t).actionWrite fn R.LOOP_CTX_STAT_FAULT data c with
  | (s, go) => .next (s.doIf (go && s.b R.LOOP_CTX_STAT_FAULT c && !s.setNow R.LOOP_CTX_STAT_FAULT 0 c && (s.ctx c).cause != 4)
      (fun s => (s.setCtxFault c false).modCtx c fun x => { x with restart := true }))

/-! ## Parameter transactions (R147 to R149) -/

/-- A word lies within the bounds of its parameter: float32, or unsigned where the integer bit is set. -/
def inBounds (d : ParamDef) (w : Word) : Bool :=
  if d.integer then decide (d.lo.toNat ≤ w.toNat) && decide (w.toNat ≤ d.hi.toNat)
  else match f32Num w, f32Num d.lo, f32Num d.hi with
    | .fin q, .fin l, .fin h => decide (l ≤ q) && decide (q ≤ h)
    | .fin _, .inf true, .inf false => true
    | .fin q, .inf true, .fin h => decide (q ≤ h)
    | .fin q, .fin l, .inf false => decide (l ≤ q)
    | .inf n, l, h => l == .inf n || h == .inf n
    | _, _, _ => false

/-- Word 0 meets R149. -/
def State.lawSelOk (s : State) (c : Nat) (w : Word) : Bool :=
  getBits w 7 2 == 0 && getBits w 31 9 == 0 && decide (getBits w 1 0 ≤ s.f R.LOOP_CTX_CFG_NVAR c)
    && (getBits w 8 8 == 0 || (s.partner c).isSome)

/-- DETAIL of the first check a word fails, if it fails one (R147). -/
def State.wordDetail (s : State) (c dom : Nat) (setpOnly : Bool) (i : Nat) (w : Word) : Option Nat :=
  match (s.ctx c).desc.params[i]? with
  | none => some 3
  | some d =>
    if setpOnly && !d.setpoint then some 4
    else if d.owner ≠ dom then some 1
    else if !inBounds d w || (i == 0 && !s.lawSelOk c w) then some 2
    else none

/-- The words of a context with transactions applied. -/
def applyWords (ps : List Word) (ws : List (Nat × Word)) : List Word := ws.foldl (fun ps w => ps.set w.1 w.2) ps

/-- Some integrator's LO word exceeds its HI word (R119, R147). -/
def loAboveHi (d : CtxDesc) (ps : List Word) : Bool :=
  d.integs.any fun g => (f32Num (ps.getD g.hi 0)).lt (f32Num (ps.getD g.lo 0))

/-- The words as they stand once every transaction under way has applied. -/
def State.plannedWords (s : State) (c : Nat) : List Word :=
  let x := s.ctx c
  (x.sent.toList ++ x.txnQueue).foldl (fun ps t => applyWords ps t.words) x.params

/-- DETAIL a transaction is refused with, if it is (R147). -/
def State.txnDetail (s : State) (c dom : Nat) (setpOnly : Bool) (ws : List (Nat × Word)) : Option Nat :=
  match ws.findSome? fun w => s.wordDetail c dom setpOnly w.1 w.2 with
  | some d => some d
  | none => if loAboveHi (s.ctx c).desc (applyWords (s.plannedWords c) ws) then some 2 else none

/-- Split a transaction's words into runs of consecutive indices of at most five words, one per CTXX flit. -/
def wordRuns : List (Nat × Word) → List (Nat × List Word)
  | [] => []
  | (i, w) :: ws =>
    match wordRuns ws with
    | (j, vs) :: rs => if j = i + 1 ∧ vs.length < 5 then (i, w :: vs) :: rs else (i, [w]) :: (j, vs) :: rs
    | [] => [(i, [w])]

/-- The agent's kernel. -/
def State.agentSrc (s : State) (c : Nat) : FlitSrc := .kernel (s.ctx c).desc.agentPod (s.ctx c).desc.agentK

/-- Some word of a transaction is a set-point word. -/
def CtxSt.writesSetpoint (x : CtxSt) (ws : List (Nat × Word)) : Bool := ws.any fun w => (x.desc.params[w.1]?).any (·.setpoint)

/-- The agent forwards the next transaction of a context when the previous one has applied (R148). -/
def State.forwardTxn (s : State) (c : Nat) : State :=
  let x := s.ctx c
  match x.sent, x.txnQueue with
  | none, t :: q =>
    let s := s.setCtx c { x with sent := some t, txnQueue := q }
    let runs := wordRuns t.words
    (runs.zipIdx).foldl (fun s r => s.sendCtx (s.agentSrc c) c (.ctxx
      { sub := 5, ctx := c, ts := BitVec.ofInt 32 t.apply, first := r.1.1, last := r.2 + 1 == runs.length, words := r.1.2 })) s
  | _, _ => s

/-- A word of the grid, the DC-DC or the link section that a context carries (Tables 6.1 and 6.4, R218). -/
def CtxSt.powerWord (x : CtxSt) (i : Nat) : Bool :=
  x.desc.sections.testBit 1 && decide (101 ≤ i) && decide (i ≤ 143)
    || x.desc.sections.testBit 2 && decide (151 ≤ i) && decide (i ≤ 169)
    || x.desc.sections.testBit 3 && decide (176 ≤ i) && decide (i ≤ 179)

/-- What both partners receive of a transaction: all of one that writes a grid, DC-DC or link word (R193), else LAW_SEL (R147). -/
def CtxSt.sharedWords (x : CtxSt) (ws : List (Nat × Word)) : List (Nat × Word) :=
  if ws.any fun w => x.powerWord w.1 then ws else ws.filter fun w => w.1 == 0

/-- The agent answers HOSTQ with the status of a transaction (R42, Table 12.8). -/
def State.agentReply (s : State) (c : Nat) (tag : Option Nat) (status detail : Nat) (doneTs : Word) : State :=
  match tag with
  | some g => s.reply (s.agentSrc c) g status detail doneTs
  | none => s

/-- PARAM_TRANSACTION (R147): the agent checks a transaction of context `c` from domain `dom`, for SETPOINT with `setp`, to apply at
NTIME `apply`; `tag` is the tag of the SVCX item it came with. -/
def execParamTransaction (t : Instant) (c dom : Nat) (setp : Bool) (apply : Int) (tag : Nat) (words : List (Nat × Word)) (s : State) :
    Res :=
  let s := s.start t
  .next (s.doIf (s.ctxOn c) (fun s =>
    match s.txnDetail c dom setp words with
    | some d => (s.post E.PARAM_REFUSED (subject c) (nw d)).agentReply c (some tag) 0x16 d s.shortTs
    | none =>
      let shared := (s.ctx c).sharedWords words
      let mine : Txn := { apply := apply, words := words, tag := some tag }
      let s := (s.modCtx c fun x => { x with txnQueue := x.txnQueue ++ [mine] }).forwardTxn c
      match s.partner c with
      | some p =>
        let its : Txn := { apply := apply, words := shared }
        s.doIf (!shared.isEmpty) fun s => (s.modCtx p fun x => { x with txnQueue := x.txnQueue ++ [its] }).forwardTxn p
      | none => s))

end Sys2Proof.Machine
end

