-- ==== Sys2Proof/Machine/Selector.lean ====
section
/-! DEFINITION. The angle selector of a loop context and its probe (R99 to R107, R150), run within an evaluation. -/
namespace Sys2Proof.Machine

/-- Source codes, which SOURCE_CHANGE carries: 0 NONE, 1 ENCODER, 2 OBSERVER, 3 INJECTION, 4 BLEND. Mark: DESIGN CHOICE (log 148). -/
abbrev srcNone : Nat := 0
abbrev srcEncoder : Nat := 1
abbrev srcObserver : Nat := 2
abbrev srcInjection : Nat := 3
abbrev srcBlend : Nat := 4

/-- Probe results in the order of R106, which PROBE_RESULT carries: 0 RECTIFYING, 1 STANDSTILL_OR_SLOW, 2 TURNING, 3 INCONSISTENT. Mark: DESIGN
CHOICE (log 148). -/
abbrev probeRectifying : Nat := 0
abbrev probeStandstill : Nat := 1
abbrev probeTurning : Nat := 2
abbrev probeInconsistent : Nat := 3

/-- The selector that serves a context. -/
def State.selectorOf (s : State) (c : Nat) : Option Nat :=
  (List.range 16).find? fun n => s.b R.POS_AS_CFG_EN n && s.f R.POS_AS_CFG_CTX n == c

/-- The interval between the last two triggers, in seconds. -/
def CtxSt.teval (x : CtxSt) : Rat :=
  match x.trig, x.prevTrig with
  | some a, some b => secs ((a - b) * tickQ)
  | _, _ => 0

/-- The input, as the running evaluation has it, of the first list entry of a kind. -/
def CtxSt.inputOf (x : CtxSt) (p : InputDef → Bool) : Option InSt :=
  ((x.desc.inputs.zipIdx).find? fun d => p d.1).map fun d => kget {} x.evalIn d.2

/-- The encoder candidate is valid: enabled, and LOSS of its interface is 0 (R99). -/
def State.encValid (s : State) (n : Nat) : Bool := s.b R.POS_AS_CFG_ENC_EN n && !s.b R.POS_PI_STAT_LOSS (s.f R.POS_AS_CFG_ENC_PI n)

/-- The observer record: θ, ω, residual, flux deviation; none when it is missing (Table 4.8). A record whose θ or ω is no finite number counts as
missing. Mark: DESIGN CHOICE (log 149). -/
def CtxSt.observer (x : CtxSt) : Option (Rat × Rat × Num × Num) :=
  match x.inputOf (fun d => d.kind == 4) with
  | some i =>
    if i.stale then none
    else match f32Num (i.words.getD 0 0), f32Num (i.words.getD 1 0) with
      | .fin a, .fin b => some (a, b, f32Num (i.words.getD 2 0), f32Num (i.words.getD 3 0))
      | _, _ => none
  | none => none

/-- A value is within a limit; a NaN is not. -/
def withinLim (v : Num) (lim : Rat) : Bool := !v.isNan && !(Num.fin lim).lt v

/-- One supervised period of a candidate: whether it is valid, reinitialised and waiting, its count, and whether it is lost now
(R102 to R104). -/
def superviseStep (n : Nat) (ok arm : Bool) (run : Nat) (fail : Bool) : Bool × Bool × Nat × Bool :=
  if ok then
    if fail then (if n ≤ run + 1 then (false, false, 0, true) else (true, false, run + 1, false)) else (true, false, 0, false)
  else if arm then
    if fail then (false, true, 0, false) else if n ≤ run + 1 then (true, false, 0, false) else (false, true, run + 1, false)
  else (false, false, 0, false)

/-- Supervision of the observer and of injection (R102, R103). Mark: DESIGN CHOICE (log 43). -/
def State.supervise (s : State) (c n : Nat) (d : SelIn) : State :=
  let x := s.ctx c
  let w := absQ x.sel.omega
  let x1 : Rat := (s.f R.POS_AS_SPD_W_X1 n : Rat) / 2
  let x2 : Rat := (s.f R.POS_AS_SPD_W_X2 n : Rat) / 2
  let nSup := s.f R.POS_AS_CFG_N_SUP n + 1
  let oFail := match x.observer with
    | none => true
    | some (_, _, res, flux) =>
      !withinLim res ((s.f R.POS_AS_SUP_RES_LIM n : Rat) / 1024) || !withinLim flux ((s.f R.POS_AS_SUP_FLUX_LIM n : Rat) / 1024)
  let (ok, arm, run, lost) :=
    if s.b R.POS_AS_CFG_OBS_EN n ∧ x1 ≤ w then superviseStep nSup x.sel.obsOk x.sel.obsArm x.sel.obsRun oFail
    else (x.sel.obsOk, x.sel.obsArm, x.sel.obsRun, false)
  let s := (s.modCtx c fun x => { x with sel := { x.sel with obsOk := ok, obsArm := arm, obsRun := run } }).doIf lost
    (·.post E.OBS_LOST (subject n))
  let iFail := !d.injHere || decide (d.injSal < (s.f R.POS_AS_SUP_INJ_LIM n : Rat) / 1024)
  let (ok, arm, run, lost) :=
    if s.b R.POS_AS_CFG_INJ_EN n ∧ w ≤ x2 then superviseStep nSup x.sel.injOk x.sel.injArm x.sel.injRun iFail
    else (x.sel.injOk, x.sel.injArm, x.sel.injRun, false)
  (s.modCtx c fun x => { x with sel := { x.sel with injOk := ok, injArm := arm, injRun := run } }).doIf lost
    (·.post E.INJ_LOST (subject n))

/-- The choice of R99: source, angle and speed. A candidate is valid until its supervision first fails it; NONE keeps the angle and speed of the
previous evaluation, and they stand in for a missing record of a valid observer. Mark: DESIGN CHOICE (log 149). -/
def State.chooseSource (s : State) (c n : Nat) (d : SelIn) : Nat × Rat × Rat :=
  let x := s.ctx c
  let wp := absQ x.sel.omega
  let x1 : Rat := (s.f R.POS_AS_SPD_W_X1 n : Rat) / 2
  let x2 : Rat := (s.f R.POS_AS_SPD_W_X2 n : Rat) / 2
  let obsV := s.b R.POS_AS_CFG_OBS_EN n && x.sel.obsOk
  let injV := s.b R.POS_AS_CFG_INJ_EN n && x.sel.injOk
  let (thO, wo) := match x.observer with
    | some (a, b, _, _) => (a, b)
    | none => (x.sel.theta, x.sel.omega)
  if s.encValid n then (srcEncoder, d.encTheta, d.encOmega)
  else if obsV && injV then
    let w := clampQ ((wp - x1) / (x2 - x1)) 0 1
    (if w = 0 then srcInjection else if w = 1 then srcObserver else srcBlend,
      rnd (wrapPi (d.injTheta + w * wrapPi (thO - d.injTheta))), rnd (d.injOmega + w * (wo - d.injOmega)))
  else if obsV && decide (x1 ≤ wp) then (srcObserver, thO, wo)
  else if injV && decide (wp ≤ x2) then (srcInjection, d.injTheta, d.injOmega)
  else (srcNone, x.sel.theta, x.sel.omega)

/-- Movement within the blend is no hand-over (R100). -/
def inBlend (a : Nat) : Bool := a == srcObserver || a == srcInjection || a == srcBlend

/-- Encoder against observer (R105), while the source of the previous evaluation was ENCODER; a period without an observer record neither counts
nor resets. Mark: DESIGN CHOICE (log 149). -/
def State.encCompare (s : State) (c n : Nat) (d : SelIn) : State :=
  let x := s.ctx c
  match x.observer with
  | some (thO, _, _, _) =>
    if x.sel.source = srcEncoder ∧ s.b R.POS_AS_CFG_OBS_EN n ∧ x.sel.obsOk ∧ (s.f R.POS_AS_SPD_W_X2 n : Rat) / 2 ≤ absQ x.sel.omega then
      let far := decide ((s.f R.POS_AS_ENC_ENC_DEV_LIM n : Rat) * 2 * Config.pi / 256 < absQ (wrapPi (d.encTheta - thO)))
      let run := if far then x.sel.encRun + 1 else 0
      (s.modCtx c fun x => { x with sel := { x.sel with encRun := run } }).doIf (run == s.f R.POS_AS_CFG_N_SUP n + 1)
        (·.post E.ENC_DISAGREE (subject n))
    else s.modCtx c fun x => { x with sel := { x.sel with encRun := 0 } }
  | none => s

/-! ## The probe (R106) -/

/-- The probe finishes; W1 carries the speed, whose sign is the direction. Mark: DESIGN CHOICE (log 148). -/
def State.probeDone (s : State) (c n r : Nat) (omega theta : Rat) : State :=
  (s.modCtx c fun x => { x with sel := { x.sel with attempt := 0, result := some r }
                                drv := { x.drv with omega := omega, theta := theta } }).post
    E.PROBE_RESULT (subject n) (nw r) (f32Of omega)

/-- I_DET as a per-unit current. -/
def State.iDet (s : State) (n : Nat) : Rat := (s.f R.POS_AS_PROBE_I_DET n : Rat) / 4096

/-- The probe starts, or answers RECTIFYING at once. -/
def State.probeStart (s : State) (c : Nat) (d : SelIn) : State :=
  match s.selectorOf c with
  | none => s
  | some n =>
    let s := s.modCtx c fun x => { x with sel := { x.sel with attempt := 1, halfs := 0, gammas := [], small := true, result := none } }
    if s.iDet n < d.iMax then s.probeDone c n probeRectifying 0 0 else s

/-- Differences of consecutive angles, oldest first, as speeds over a span. -/
def stepSpeeds (span : Rat) : List Rat → List Rat
  | a :: b :: gs => rnd (wrapPi (b - a) / span) :: stepSpeeds span (b :: gs)
  | _ => []

/-- All pulses of an attempt are collected (angles oldest first): the attempt's outcome. -/
def State.probeJudge (s : State) (c n : Nat) (gs : List Rat) (small : Bool) : State :=
  let x := s.ctx c
  let span := (s.f R.POS_AS_PROBE_K n : Rat) * x.teval
  let ws := stepSpeeds span gs
  let mean := rnd (ws.foldl (· + ·) 0 / (ws.length : Rat))
  let hi := ws.foldl maxQ (ws.getD 0 0)
  let lo := ws.foldl minQ (ws.getD 0 0)
  if small then s.probeDone c n probeStandstill 0 0
  else if hi - lo ≤ absQ mean / 8 then s.probeDone c n probeTurning mean (rnd (wrapPi (gs.getLastD 0 + mean * span)))
  else if x.sel.attempt < 3 then
    s.modCtx c fun x => { x with sel := { x.sel with attempt := x.sel.attempt + 1, halfs := 0, gammas := [], small := true } }
  else s.probeDone c n probeInconsistent 0 0

/-- One evaluation of a running probe: half-period `halfs` has begun, the current window of the one before it is at hand. -/
def State.probeStep (s : State) (c : Nat) (d : SelIn) : State :=
  match s.selectorOf c with
  | none => s
  | some n =>
    if (s.ctx c).sel.attempt = 0 then s
    else
      let s := s.modCtx c fun x => { x with sel := { x.sel with halfs := x.sel.halfs + 1 } }
      let h := (s.ctx c).sel.halfs
      let k := s.f R.POS_AS_PROBE_K n
      if h = 1 ∧ (s.ctx c).sel.attempt = 1 ∧ s.iDet n < d.iMax then s.probeDone c n probeRectifying 0 0
      else if 2 ≤ h ∧ (h - 2) % k = 0 then
        let s := s.modCtx c fun x => { x with sel := { x.sel with
          gammas := x.sel.gammas ++ [d.gamma], small := x.sel.small && decide (d.iMag < s.iDet n) } }
        let x := s.ctx c
        if s.f R.POS_AS_PROBE_P n + 1 ≤ x.sel.gammas.length then s.probeJudge c n x.sel.gammas x.sel.small else s
      else s

/-- A zero-vector pulse of the probe belongs into the half-period of this evaluation. -/
def State.probePulse (s : State) (c : Nat) : Bool :=
  match s.selectorOf c with
  | none => false
  | some n =>
    let x := (s.ctx c).sel
    x.attempt != 0 && decide (1 ≤ x.halfs) && (x.halfs - 1) % s.f R.POS_AS_PROBE_K n == 0
      && decide (x.gammas.length < s.f R.POS_AS_PROBE_P n + 1)

/-- A probe is under way, so the bridge is off but for its pulses. -/
def State.probing (s : State) (c : Nat) : Bool := (s.ctx c).sel.attempt != 0

/-! ## One evaluation -/

/-- The candidates are reinitialised at an angle and a speed (R104). -/
def State.reinitSel (s : State) (c : Nat) (theta omega : Rat) : State :=
  s.modCtx c fun x => { x with
    sel := { x.sel with theta := theta, omega := omega, obsOk := false, obsArm := true, obsRun := 0
                        injOk := false, injArm := true, injRun := 0, encRun := 0 }
    drv := { x.drv with theta := theta, omega := omega } }

/-- The selector in one evaluation; whether the source changed in a way that is a hand-over. Mark: DESIGN CHOICE (log 43). -/
def State.runSelector (s : State) (c : Nat) (d : SelIn) : State × Bool :=
  match s.selectorOf c with
  | none => (s, false)
  | some n =>
    let s := (s.supervise c n d).encCompare c n d
    let old := (s.ctx c).sel.source
    let (src, th, om) := s.chooseSource c n d
    let s := s.modCtx c fun x => { x with sel := { x.sel with source := src, theta := th, omega := om } }
    let ho := old != src && !(inBlend old && inBlend src)
    ((s.doIf ho (·.post E.SOURCE_CHANGE (subject n) (nw old) (nw src))).probeStep c d, ho)

end Sys2Proof.Machine
end

