-- ==== Sys2Proof/Machine/Modulate.lean ====
section
/-! DEFINITION. The modulation stage of the drive services: from a voltage vector to compare values, through overmodulation up to six-step
(R163 to R165, Table 5.2). Angles are in rad, voltages in V. -/
namespace Sys2Proof.Machine

/-- A section bit of the descriptor: 0 drive, 1 grid, 2 DC-DC, 3 link, 4 life record. -/
def CtxSt.section_ (x : CtxSt) (b : Nat) : Bool := x.desc.sections.testBit b

/-- DRV_CFG fields (Table 5.1). -/
def CtxSt.drvCfg (x : CtxSt) (hi lo : Nat) : Nat := getBits (x.params.getD 4 0) hi lo

/-- The modulation limit of MOD (Table 5.2). -/
def CtxSt.modLimit (x : CtxSt) : Rat :=
  if x.drvCfg 4 3 = 0 then 9069 / 10000 else if x.drvCfg 4 3 = 1 then 9517 / 10000 else 1

/-- A rational as the nearest integer at or below it, as a rational. -/
def floorQ (x : Rat) : Rat := (x.floor : Rat)

/-- The angle of the hexagon vertex nearest to an angle. -/
def vertexAngle (th : Rat) : Rat := floorQ (th / (Config.pi / 3) + 1 / 2) * (Config.pi / 3)

/-- The magnitude of the hexagon at an angle: V_dc ÷ √3 over the cosine of the angle to the middle of the nearest side. -/
def hexagon (vdc th : Rat) : Rat :=
  let side := (floorQ (th / (Config.pi / 3)) + 1 / 2) * (Config.pi / 3)
  vdc / (Config.sqrt 3 * Config.cos (th - side))

/-- The hold angle of region II: 30° × (m − 0.9517) ÷ 0.0483. -/
def holdAngle (m : Rat) : Rat := Config.pi / 6 * (m - 9517 / 10000) / (483 / 10000)

/-- The vector that a method applies for the index `m` at an angle, as magnitude and angle (Table 5.2). Up to 0.9069 it is the demand. In region I
its magnitude is raised inside the hexagon, by an amount the manual does not state, and the vector follows the hexagon where it would leave
it. In region II it is held at the nearest vertex within the hold angle, and follows the hexagon outside. Mark: DESIGN CHOICE (log 55). -/
def methodVector (m vdc th : Rat) : Rat × Rat :=
  if m ≤ 9069 / 10000 then (m * (2 * vdc / Config.pi), th)
  else if m ≤ 9517 / 10000 then (minQ (Config.raised m * (2 * vdc / Config.pi)) (hexagon vdc th), th)
  else if absQ (wrapPi (th - vertexAngle th)) ≤ holdAngle m then (2 * vdc / 3, vertexAngle th)
  else (hexagon vdc th, th)

/-- The angle of phase `k` of a vector at an angle. -/
def phaseAngle (th : Rat) (k : Nat) : Rat := wrapPi (th - (k : Rat) * (2 * Config.pi / 3))

/-- The on-times of the three legs as fractions of the half-period, centred (Table 5.2). -/
def centredDuty (r th vdc : Rat) : List Rat :=
  let v := [0, 1, 2].map fun k => r * Config.cos (phaseAngle th k)
  let hi := v.foldl maxQ (v.getD 0 0)
  let lo := v.foldl minQ (v.getD 0 0)
  v.map fun a => clampQ (rnd (1 / 2 + (a - (hi + lo) / 2) / vdc)) 0 1

/-- In six-step a leg is high for 180° of its fundamental: its level at a phase angle, and the time in s to its next switching angle at a speed
(R164). -/
def sixStepEdge (ph w : Rat) : Bool × Option Rat :=
  let q := Config.pi / 2
  let high := decide (-q ≤ ph) && decide (ph < q)
  let way := if 0 < w then (if high then q - ph else if ph < -q then -q - ph else 3 * q - ph)
    else (if high then ph + q else if ph < -q then ph + 3 * q else ph - q)
  (high, if w = 0 then none else some (way / absQ w))

/-- The compare value in ticks of a leg in six-step: an edge that the half-period can place goes to its instant (R164). An edge against the direction of
the half-period's takes place at the start of the next one. Mark: DESIGN CHOICE (log 55). -/
def sixStepValue (h : HalfPeriod) (ph w : Rat) : Rat :=
  let L : Rat := h.len
  let e := sixStepEdge ph w
  let t := e.2.map (· * 500000000)
  match h.up, e.1, t with
  | true, true, some t => if t < L then t else L
  | true, true, none => L
  | true, false, _ => 0
  | false, true, _ => L
  | false, false, some t => if t < L then L - t else 0
  | false, false, none => 0

/-- A pulse or gap of a half-period that is shorter than the minimum pulse width is removed: the leg is held on or off (R165). Answers the value, and
whether it was removed. Mark: DEDUCED (log 55). -/
def dropShort (L minpw : Nat) (v : Rat) : Rat × Bool :=
  if 0 < v ∧ v < minpw then (0, true)
  else if v < L ∧ (L : Rat) - v < minpw then (L, true)
  else (v, false)

/-- The half-period after one of a leg. Mark: DEDUCED (log 67). -/
def State.followHalf (s : State) (T : Nat) (h : HalfPeriod) : HalfPeriod :=
  { start := h.start + h.len, len := if h.up then s.top (s.bridge T) else (s.carrier (s.bridge T)).nextUp, up := !h.up }

/-- The half-period of leg 0 of a target that contains a tick, as far as its carrier has fixed them; before the carrier starts, one of TOP. -/
def State.halfAt (s : State) (T te : Nat) : HalfPeriod :=
  match (s.leg T 0).hp with
  | some h =>
    if te < h.start + h.len then h
    else if te < (s.followHalf T h).start + (s.followHalf T h).len then s.followHalf T h
    else s.followHalf T (s.followHalf T h)
  | none => { start := te, len := s.top (s.bridge T), up := true }

/-- The values of the three legs for an index at an angle and a speed, before short pulses go. -/
def legValues (m vdc th w : Rat) (h : HalfPeriod) : List Rat :=
  if 1 ≤ m then [0, 1, 2].map fun k => sixStepValue h (phaseAngle th k) w
  else
    let v := methodVector m vdc th
    (centredDuty v.1 v.2 vdc).map (· * (h.len : Rat))

/-- Where the limit cuts a leg's value, as R138 counts a limit: 1 cut from above, -1 from below. -/
def cutSign (full cut : Rat) : Int := if cut < full then 1 else if full < cut then -1 else 0

/-- The modulation stage on a vector of `mag` at the angle `th` with the link at `vdc`: the index demanded and VOLT_LIMIT, the values of the slot's legs,
where the limit cuts them, and the pulses and gaps removed (R163 to R165). `th` holds at the start of the half-period in which the values take
effect. Mark: DESIGN CHOICE (log 55). -/
def State.modulate (s : State) (c : Nat) (mag th vdc w : Rat) : State :=
  let x := s.ctx c
  let T := x.drvCfg 12 8
  let (s, m) := if vdc = 0 then (s.draw.1, Config.overZero s.draw.2) else (s, rnd (mag / (2 * vdc / Config.pi)))
  let h := s.halfAt T (s.pwmTime + s.f R.LOOP_CTX_TIME_L_DLV c)
  let full := legValues m vdc th w h
  let cut := legValues (minQ m x.modLimit) vdc th w h
  let out := cut.map (dropShort h.len (s.minpw T))
  s.modCtx c fun x => { x with drv := { x.drv with
    mPrev := m, flags := putBit x.drv.flags 0 (decide (x.modLimit < m)), drops := x.drv.drops + (out.filter (·.2)).length
    vals := out.map (·.1), cuts := List.zipWith cutSign full cut } }

end Sys2Proof.Machine
end

