-- ==== Sys2Proof/Machine/Drive.lean ====
section
/-! DEFINITION. Drive services of a loop context: references, drive states, starts, angle loss, discharge, and the command input
(R158 to R176, R188). -/
namespace Sys2Proof.Machine

/-- Drive states in the order of Table 5.3. -/
abbrev dOff : Nat := 0
abbrev dProbe : Nat := 1
abbrev dCoastWait : Nat := 2
abbrev dAcquire : Nat := 3
abbrev dAscHold : Nat := 4
abbrev dRamp : Nat := 5
abbrev dRun : Nat := 6
abbrev dBrake : Nat := 7
abbrev dStopping : Nat := 8
abbrev dDischarge : Nat := 9

def CtxSt.polePairs (x : CtxSt) : Rat := ((x.params.getD 5 0).toNat : Rat)
def CtxSt.psi (x : CtxSt) : Rat := x.pv 6

def State.drv (s : State) (c : Nat) : DrvSt := (s.ctx c).drv
def State.modDrv (s : State) (c : Nat) (g : DrvSt → DrvSt) : State := s.modCtx c fun x => { x with drv := g x.drv }

/-- Enter a drive state; each change posts DRV_STATE (R167). In RAMP the torque limit rises from 0 (Table 5.3). -/
def State.drvEnter (s : State) (c st : Nat) : State :=
  let old := (s.drv c).st
  let s := s.modDrv c fun d => { d with
    st := st, entered := s.now, evals := 0, good := 0, pulse := 0, offLeft := 0, tlim := if st = dRamp then 0 else d.tlim }
  s.doIf (old != st) (·.post E.DRV_STATE (subject c) (nw old) (nw st))

/-- The peak line-to-line back-EMF at a speed: √3 × |ω| × PSI. -/
def CtxSt.bemf (x : CtxSt) (omega : Rat) : Rat := rnd (Config.sqrt 3 * absQ omega * x.psi)

/-- The back-EMF would rectify into the link: √3 × |ω| × PSI ≥ K_RECT × V_dc. -/
def CtxSt.rectifies (x : CtxSt) (omega vdc : Rat) : Bool := decide (x.pv 21 * vdc ≤ x.bemf omega)

/-- The encoder is a valid source of the context's selector. -/
def State.encHere (s : State) (c : Nat) : Bool :=
  match s.selectorOf c with
  | some n => s.encValid n
  | none => false

/-- POLICY applied to a known motion (R168). -/
def State.drvPolicy (s : State) (c : Nat) (theta omega : Rat) : State :=
  let x := s.ctx c
  if absQ omega ≤ x.pv 18 then (s.reinitSel c theta omega).drvEnter c dRamp
  else if x.drvCfg 1 0 = 0 then (s.reinitSel c theta omega).drvEnter c dRamp
  else if x.drvCfg 1 0 = 1 then s.drvEnter c dCoastWait
  else (s.reinitSel c theta omega).drvEnter c dBrake

/-- The drive runs the probe (state PROBE). -/
def State.drvProbe (s : State) (c : Nat) (d : SelIn) (disch : Bool) : State :=
  ((s.drvEnter c dProbe).modDrv c fun v => { v with forDisch := disch }).probeStart c d

/-- A start (R168). -/
def State.drvStart (s : State) (c : Nat) (d : SelIn) : State :=
  if s.encHere c then s.drvPolicy c d.encTheta d.encOmega else s.drvProbe c d false

/-- A start fails (R168, R169): reason 0 INCONSISTENT, 1 COAST_TIMEOUT. -/
def State.startFailed (s : State) (c why : Nat) : State := (s.post E.START_FAILED (subject c) (nw why)).drvEnter c dOff

/-- The motion is known: the discharge begins or is refused (R176). -/
def State.dischJudge (s : State) (c : Nat) (omega : Rat) : State :=
  let x := s.ctx c
  if x.pv 27 ≤ x.bemf omega then (s.post E.DISCH_BLOCKED (subject c)).drvEnter c dOff else s.drvEnter c dDischarge

/-- A discharge is asked for in OFF (R176). -/
def State.dischBegin (s : State) (c : Nat) (d : SelIn) : State :=
  if s.encHere c then s.dischJudge c d.encOmega else s.drvProbe c d true

/-- The probe's result in PROBE (R168, R176). -/
def State.drvProbeResult (s : State) (c : Nat) (d : SelIn) (r : Nat) : State :=
  let v := s.drv c
  let s := s.modCtx c fun x => { x with sel := { x.sel with result := none } }
  if v.forDisch then
    if r = probeRectifying then (s.post E.DISCH_BLOCKED (subject c)).drvEnter c dOff
    else s.dischJudge c v.omega
  else if r = probeRectifying then
    (s.drvEnter c dAcquire).modDrv c fun v => { v with forStart := true, settleEnd := s.now + spanOf (s.pv c 22), args := [] }
  else if r = probeInconsistent then s.startFailed c 0
  else if r = probeStandstill then s.drvPolicy c d.injTheta 0
  else s.drvPolicy c v.theta v.omega

/-- The angle-loss response (R172). Off is commanded first; the probe begins at the first evaluation whose window lies whole under it, the second one
from here. Mark: DEDUCED (log 54). -/
def State.angleLost (s : State) (c : Nat) (vdc omegaLast : Rat) : State :=
  let s := s.post E.ANGLE_LOST (subject c)
  if (s.ctx c).rectifies omegaLast vdc then
    (s.drvEnter c dAcquire).modDrv c fun v => { v with forStart := false, settleEnd := s.now + spanOf (s.pv c 22), args := [], omega := omegaLast }
  else
    let s := s.modCtx c fun x => { x with sel := { x.sel with attempt := 0, result := none } }
    (s.drvEnter c dProbe).modDrv c fun v => { v with forDisch := false, offLeft := 2 }

/-- One evaluation in PROBE before the probe of an angle loss begins (R172). -/
def State.drvOffWait (s : State) (c : Nat) (d : SelIn) : State :=
  let n := (s.drv c).offLeft
  (s.modDrv c fun v => { v with offLeft := n - 1 }).doIf (n == 1) (·.probeStart c d)

/-- Mean of the last eight differences of the current's argument over an evaluation (R173). -/
def argSpeed (te : Rat) (args : List Rat) : Rat :=
  let ds := stepSpeeds te args.reverse
  let last := ds.drop (ds.length - 8)
  rnd (last.foldl (· + ·) 0 / (last.length : Rat))

/-- Argument of the steady short-circuit current at a speed (R173). -/
def CtxSt.argShort (x : CtxSt) (w : Rat) : Rat :=
  let den := x.pv 9 * x.pv 9 + w * w * x.pv 7 * x.pv 8
  let id := -(w * w) * x.pv 8 * x.psi / den
  let iq := -w * x.pv 9 * x.psi / den
  Config.atan2 iq id

/-- Speed and angle from the short-circuit current (R173). -/
def State.estimateShort (s : State) (c : Nat) (d : DrvIn) : State :=
  let x := s.ctx c
  let args := (d.iArg :: x.drv.args).take 9
  let w := if 2 ≤ args.length then argSpeed x.teval args else x.drv.omega
  s.modDrv c fun v => { v with args := args, omega := w, theta := rnd (wrapPi (d.iArg - x.argShort w)) }

/-- The voltage by which the machine model brings the current to zero at the period's end (R174), each derivative taken as the change over the
period. Mark: DESIGN CHOICE (log 54). -/
def CtxSt.zeroCurrent (x : CtxSt) (d : DrvIn) (th w : Rat) : Rat × Rat :=
  let id := d.iMag * Config.cos (d.iArg - th)
  let iq := d.iMag * Config.sin (d.iArg - th)
  let vd := rnd (x.pv 9 * id - x.pv 7 * id / x.teval - w * x.pv 8 * iq)
  let vq := rnd (x.pv 9 * iq - x.pv 8 * iq / x.teval + w * (x.pv 7 * id + x.psi))
  (rnd (Config.sqrt (vd * vd + vq * vq)), rnd (wrapPi (th + Config.atan2 vq vd)))

/-- The back-EMF voltage at the acquired angle (R174). -/
def CtxSt.emfVector (x : CtxSt) (th w : Rat) : Rat × Rat :=
  (rnd (absQ w * x.psi), rnd (wrapPi (if w < 0 then th - Config.pi / 2 else th + Config.pi / 2)))

/-- The speed allows a zero-current pulse: |ω| × PSI ≤ m_lim × 2 × V_dc ÷ π (R174). -/
def State.pulseOk (s : State) (c : Nat) (vdc : Rat) : Bool :=
  let x := s.ctx c
  decide (absQ x.drv.omega * x.psi ≤ x.modLimit * 2 * vdc / Config.pi)

/-- A pulse begins, if the speed allows it; else ASC stays commanded. -/
def State.pulseBegin (s : State) (c : Nat) (d : DrvIn) : State :=
  if s.pulseOk c d.vdc then
    let x := s.ctx c
    s.modDrv c fun v => { v with pulse := 1, pulseV := x.zeroCurrent d x.drv.theta x.drv.omega }
  else s.modDrv c fun v => { v with pulse := 0 }

/-- Re-acquisition succeeds (R174); a start goes on by its policy (R168). -/
def State.reacquired (s : State) (c : Nat) : State :=
  let v := s.drv c
  let s := (s.reinitSel c v.theta v.omega).post E.REACQUIRED (subject c)
  if v.forStart then s.drvPolicy c v.theta v.omega else s.drvEnter c dRamp

/-- One evaluation in ACQUIRE (R173, R174). -/
def State.drvAcquire (s : State) (c : Nat) (d : DrvIn) : State :=
  let v := s.drv c
  if s.now < v.settleEnd then s
  else if v.pulse = 0 then
    let s := s.estimateShort c d
    s.doIf (decide (2 ≤ (s.drv c).args.length)) (·.pulseBegin c d)
  else
    let x := s.ctx c
    let s := s.modDrv c fun v => { v with theta := rnd (wrapPi (v.theta + v.omega * x.teval)) }
    if v.pulse = 1 then s.modDrv c fun v => { v with pulse := 2, pulseV := x.emfVector v.theta v.omega }
    else if d.iMag < x.pv 23 then
      if (x.params.getD 24 0).toNat ≤ v.good + 1 then s.reacquired c
      else (s.modDrv c fun v => { v with good := v.good + 1, args := [] }).pulseBegin c d
    else s.modDrv c fun v => { v with good := 0, pulse := 0, args := [], settleEnd := s.now + spanOf (x.pv 22) }

/-- The torque-limit ramp moves by one evaluation (R166): up in RAMP, down in STOPPING. -/
def State.rampTlim (s : State) (c : Nat) (up : Bool) : State :=
  let x := s.ctx c
  let d := if x.pv 20 = 0 then x.pv 3 else x.pv 3 * x.teval / x.pv 20
  s.modDrv c fun v => { v with tlim := if up then minQ (x.pv 3) (rnd (v.tlim + d)) else maxQ 0 (rnd (v.tlim - d)) }

/-- The selector has no source. -/
def State.noSource (s : State) (c : Nat) : Bool := (s.ctx c).sel.source == srcNone

/-- One evaluation in RAMP (R166, R171): the acquired angle advances at the acquired speed. -/
def State.drvRamp (s : State) (c : Nat) (d : DrvIn) (wLast : Rat) : State :=
  let v := s.drv c
  let x := s.ctx c
  let s := s.modDrv c fun v => { v with evals := v.evals + 1, theta := rnd (wrapPi (v.theta + v.omega * x.teval)) }
  if s.noSource c then
    if 64 ≤ v.evals + 1 then s.angleLost c d.vdc wLast else s.modDrv c fun v => { v with tlim := 0 }
  else
    let s := s.rampTlim c true
    s.doIf (decide (s.pv c 3 ≤ (s.drv c).tlim)) (·.drvEnter c dRun)

/-- One evaluation in STOPPING (R170), with DISCH_AUTO on entering OFF (R176). -/
def State.drvStop (s : State) (c : Nat) (l : SelIn) (d : DrvIn) : State :=
  let s := s.rampTlim c false
  let x := s.ctx c
  if x.drv.tlim = 0 ∧ !x.rectifies x.sel.omega d.vdc then
    let s := s.drvEnter c dOff
    s.doIf (x.drvCfg 5 5 == 1) (·.dischBegin c l)
  else s

/-- One evaluation in COAST_WAIT (R169). -/
def State.drvCoast (s : State) (c : Nat) (l : SelIn) : State :=
  let x := s.ctx c
  let go (s : State) (th w : Rat) : State := if absQ w ≤ s.pv c 18 then (s.reinitSel c th w).drvEnter c dRamp else s
  if s.encHere c then go s l.encTheta l.encOmega
  else
    let s := s.modDrv c fun v => { v with evals := v.evals + 1 }
    match x.sel.result with
    | some r =>
      let s := s.modCtx c fun x => { x with sel := { x.sel with result := none } }
      if r = probeStandstill then go s l.injTheta 0 else if r = probeTurning then go s x.drv.theta x.drv.omega else s
    | none => s.doIf ((s.drv c).evals % 64 == 0 && !s.probing c) (·.probeStart c l)

/-- The drive state machine in one evaluation (R166 to R176). `wLast` is the selected speed of the previous evaluation. Mark: DEDUCED (log 54). -/
def State.drvStates (s : State) (c : Nat) (l : SelIn) (d : DrvIn) (wLast : Rat) : State :=
  let v := s.drv c
  let cmd := s.pword c 1
  let run := cmd.getLsbD 0
  let dis := cmd.getLsbD 1
  let rise := run && !v.runWas
  let s := s.modDrv c fun v => { v with runWas := run, dischWas := dis }
  if v.st = dOff then
    if rise then s.drvStart c l else if dis && !v.dischWas then s.dischBegin c l else s
  else if v.st = dProbe then
    if v.offLeft ≠ 0 then s.drvOffWait c l
    else match (s.ctx c).sel.result with
      | some r => s.drvProbeResult c l r
      | none => s
  else if v.st = dCoastWait then s.drvCoast c l
  else if v.st = dAcquire then s.drvAcquire c d
  else if v.st = dAscHold then
    let s := s.doIf (decide (v.settleEnd ≤ s.now)) (·.estimateShort c d)
    s.doIf (!run && !(s.ctx c).rectifies (s.drv c).omega d.vdc) (·.drvEnter c dOff)
  else if v.st = dRamp then s.drvRamp c d wLast
  else if v.st = dRun then
    if s.noSource c then s.angleLost c d.vdc wLast
    else if !run then (s.modDrv c fun v => { v with tlim := s.pv c 3 }).drvEnter c dStopping else s
  else if v.st = dBrake then
    if s.noSource c then s.angleLost c d.vdc wLast
    else if absQ (s.ctx c).sel.omega ≤ s.pv c 18 then
      ((s.reinitSel c (s.ctx c).sel.theta (s.ctx c).sel.omega).modDrv c fun v => { v with tlim := 0 }).drvEnter c dRamp
    else s
  else if v.st = dStopping then
    if s.noSource c then s.angleLost c d.vdc wLast else s.drvStop c l d
  else if v.st = dDischarge then
    if rise then s.drvStart c l
    else if d.vdc < s.pv c 27 then (s.post E.DISCH_DONE (subject c)).drvEnter c dOff
    else s
  else s

/-! ## References (R160 to R163) -/

/-- Linear interpolation of a 33-point table of words from index `base`, at a position of 0 to 32 (R160, step 4). -/
def CtxSt.table (x : CtxSt) (base : Nat) (k : Rat) : Rat :=
  let j := min (clampQ k 0 32).floor.toNat 31
  let a := x.pv (base + j)
  let b := x.pv (base + j + 1)
  rnd (a + (clampQ k 0 32 - (j : Rat)) * (b - a))

/-- Braking fold-back f_v (R162). -/
def CtxSt.foldBack (x : CtxSt) (vdc : Rat) : Rat :=
  if vdc ≤ x.pv 16 then 1 else if x.pv 17 ≤ vdc then 0 else rnd ((x.pv 17 - vdc) / (x.pv 17 - x.pv 16))

/-- The references of the present evaluation (R160 to R162). -/
def State.references (s : State) (c : Nat) (d : DrvIn) (omegaE : Rat) : State :=
  let x := s.ctx c
  let wm := omegaE / x.polePairs
  let tl := minQ (if x.drv.st = dRamp ∨ x.drv.st = dStopping then x.drv.tlim else x.pv 3) (x.pv 14)
  let opp (a b : Rat) : Bool := decide (a < 0 ∧ 0 < b) || decide (0 < a ∧ b < 0)
  let same (a b : Rat) : Bool := decide (a < 0 ∧ b < 0) || decide (0 < a ∧ 0 < b)
  let t0 := if decide (x.pv 2 ≤ absQ wm) && same d.tReq wm then 0 else d.tReq
  let t1 := clampQ t0 (-tl) tl
  let brk := if wm = 0 then tl else rnd (minQ tl (x.pv 15 / absQ wm) * x.foldBack d.vdc)
  let t2 := if opp t1 wm then clampQ t1 (-brk) brk else t1
  let k := rnd (32 * absQ t2 / x.pv 14)
  let idm := x.table 35 k
  let iqm := if t2 < 0 then -(x.table 68 k) else x.table 68 k
  let idr := maxQ (rnd (idm + x.drv.did)) (-(x.pv 10))
  let iq1 := if x.drv.did < 0 then rnd (t2 / (3 / 2 * x.polePairs * (x.psi + (x.pv 7 - x.pv 8) * idr))) else iqm
  let lim := Config.sqrt (x.pv 10 * x.pv 10 - idr * idr)
  let iqr := clampQ iq1 (-lim) lim
  s.modDrv c fun v => { v with
    tStar := t2, idRef := idr, iqRef := iqr
    flags := putBit (putBit v.flags 1 (decide (iqr ≠ iq1))) 2 (opp t1 wm && decide (brk < tl)) }

/-- The field-weakening current (R161), with FW_SAT. -/
def State.fieldWeaken (s : State) (c : Nat) : State :=
  let x := s.ctx c
  let did := clampQ (rnd (x.drv.did - x.pv 13 * (x.drv.mPrev - x.pv 11))) (x.pv 12) 0
  s.modDrv c fun v => { v with did := did, flags := putBit v.flags 3 (decide (did = x.pv 12) && decide (x.pv 11 < x.drv.mPrev)) }

/-- The state uses torque references. -/
def usesReferences (st : Nat) : Bool := st == dRamp || st == dRun || st == dBrake || st == dStopping

/-- The references and the modulation stage in the state that the drive is in (Table 5.3). Without a voltage vector the index demanded is 0. -/
def State.driveStage (s : State) (c : Nat) (d : DrvIn) : State :=
  let v := s.drv c
  let x := s.ctx c
  let omega := if x.sel.source = srcNone then v.omega else x.sel.omega
  if usesReferences v.st then (s.references c d omega).modulate c d.vMag d.vArg d.vdc omega
  else if v.st = dDischarge then
    (s.modDrv c fun v => { v with idRef := x.pv 26, iqRef := 0, tStar := 0 }).modulate c d.vMag d.vArg d.vdc omega
  else if v.st = dAcquire ∧ v.pulse ≠ 0 then s.modulate c v.pulseV.1 v.pulseV.2 d.vdc v.omega
  else s.modDrv c fun v => { v with mPrev := 0 }

/-- The drive services of one evaluation (R158), and whether a re-acquisition in it preloads the law (R174). Mark: DEDUCED (log 54). -/
def State.runDrive (s : State) (c : Nat) (l : SelIn) (d : DrvIn) (wLast : Rat) : State × Bool :=
  if !(s.ctx c).section_ 0 then (s, false)
  else
    let was := (s.drv c).flags
    let pulsed := (s.drv c).st == dAcquire
    let s := (s.drvStates c l d wLast).modDrv c fun v => { v with flags := 0, vals := [], cuts := [] }
    let s := (s.fieldWeaken c).driveStage c d
    let now := (s.drv c).flags
    let s := s.doIf (now.testBit 0 && !was.testBit 0) (·.postLimited (0x0700220000 + c) E.VOLT_LIMIT (subject c))
    let s := s.doIf (now.testBit 2 && !was.testBit 2) (·.postLimited (0x0700230000 + c) E.BRAKE_LIMIT (subject c))
    (s, pulsed && ((s.drv c).st == dRamp || (s.drv c).st == dBrake))

/-! ## Timed rows -/

/-- Time since the drive entered its state. -/
def State.drvSince (s : State) (c : Nat) : Nat := s.now - (s.drv c).entered

/-- COAST_TIMEOUT (R169): T_COAST passes in COAST_WAIT. -/
def execCoastTimeout (t : Instant) (c : Nat) (s : State) : Res :=
  let s := s.start t
  .next (s.doIf (s.ctxOn c && (s.drv c).st == dCoastWait && decide (spanOf (s.pv c 19) ≤ s.drvSince c)) (·.startFailed c 1))

/-- ASC_HOLD (R175): T_REACQ passes in ACQUIRE. After a pulse that this cuts, the estimate starts anew once ASC has settled. -/
def execAscHold (t : Instant) (c : Nat) (s : State) : Res :=
  let s := s.start t
  .next (s.doIf (s.ctxOn c && (s.drv c).st == dAcquire && decide (spanOf (s.pv c 25) ≤ s.drvSince c))
    (fun s =>
      let cut := (s.drv c).pulse != 0
      let settle := s.now + spanOf (s.pv c 22)
      let s := s.modDrv c fun v => if cut then { v with args := [], settleEnd := settle } else v
      (s.post E.ASC_HOLD (subject c)).drvEnter c dAscHold))

/-- DISCH_TIMEOUT (R176): T_DISCH passes in DISCHARGE. -/
def execDischTimeout (t : Instant) (c : Nat) (s : State) : Res :=
  let s := s.start t
  .next (s.doIf (s.ctxOn c && (s.drv c).st == dDischarge && decide (spanOf (s.pv c 28) ≤ s.drvSince c))
    (fun s => (s.post E.DISCH_TIMEOUT (subject c)).drvEnter c dOff))

/-! ## Set-point ramps and the command input (R143, R188, R385, R395) -/

/-- Write a set-point word: its present value goes on from where it is, toward the new word. -/
def CtxSt.writeSetpoint (x : CtxSt) (i : Nat) (w : Word) : CtxSt :=
  let cur := x.pv i
  let rest := x.ramped.filter fun r => r.1 != i
  { x with params := x.params.set i w, ramped := if f32 w = cur then rest else (i, cur) :: rest }

/-- Every set-point word ramps to zero. -/
def CtxSt.rampAllZero (x : CtxSt) : CtxSt :=
  (x.desc.params.zipIdx).foldl (fun x d => if d.1.setpoint then x.writeSetpoint d.2 0 else x) x

/-- Every set-point word keeps its present value. -/
def CtxSt.holdSetpoints (x : CtxSt) : CtxSt :=
  x.ramped.foldl (fun x r => { x with params := x.params.set r.1 (f32Of r.2) }) { x with ramped := [] }

/-- The ramped words move by one evaluation; rate 0 steps at once. -/
def CtxSt.stepRamps (x : CtxSt) : CtxSt :=
  { x with ramped := x.ramped.filterMap fun r =>
      let rate := match x.desc.params[r.1]? with
        | some d => f32 d.ramp
        | none => 0
      let goal := f32 (x.params.getD r.1 0)
      let step := rnd (rate * x.teval)
      let v := if rate = 0 then goal else if goal < r.2 then maxQ goal (r.2 - step) else minQ goal (r.2 + step)
      if v = goal then none else some (r.1, v) }

/-- The set-point of a drive context follows the command input (R188). -/
def State.cmdSetpoint (s : State) (c : Nat) : State :=
  let x := s.ctx c
  let inp := (x.params.getD 34 0).toNat
  let i := (x.params.getD 33 0).toNat
  if !(x.section_ 0 && (x.fallback == 3 || x.desc.cmdAlways)) || inp == 255 then s
  else
    let v := kget {} x.evalIn inp
    if !v.got then s
    else if v.cnt = 0 then
      if x.voidTs = some v.ts then s
      else
        let s := s.modCtx c fun x => { x with voidRun := x.voidRun + 1, voidTs := some v.ts }
        s.doIf (decide (s.f R.LOOP_CTX_FLT_MISS_N c + 1 ≤ x.voidRun + 1)) (·.modCtx c fun x => x.writeSetpoint i 0)
    else
      let a := v.val
      let sp := rnd (x.pv 31 + (a - x.pv 29) * (x.pv 32 - x.pv 31) / (x.pv 30 - x.pv 29))
      let sp := match x.desc.params[i]? with
        | some d => clampQ sp (f32 d.lo) (f32 d.hi)
        | none => sp
      s.modCtx c fun x => { x.writeSetpoint i (f32Of sp) with voidRun := 0, voidTs := none }

end Sys2Proof.Machine
end

