-- ==== Sys2Proof/Machine/Grid.lean ====
section
/-! DEFINITION. Grid, DC-DC and link services of a loop context (R192 to R220). -/
namespace Sys2Proof.Machine

/-! ## Vectors -/

def Vec2.add (u v : Vec2) : Vec2 := ⟨u.a + v.a, u.b + v.b⟩
def Vec2.scale (k : Rat) (v : Vec2) : Vec2 := ⟨rnd (k * v.a), rnd (k * v.b)⟩
/-- Mark: DESIGN CHOICE (log 13). -/
def Vec2.mag (v : Vec2) : Rat := Config.sqrt (v.a * v.a + v.b * v.b)
def Vec2.dot (u v : Vec2) : Rat := u.a * v.a + u.b * v.b
def Vec2.arg (v : Vec2) : Rat := Config.atan2 v.b v.a
/-- j × v. -/
def Vec2.quarter (v : Vec2) : Vec2 := ⟨-v.b, v.a⟩
/-- v turned forward by an angle. -/
def Vec2.turn (h : Rat) (v : Vec2) : Vec2 :=
  ⟨rnd (Config.cos h * v.a - Config.sin h * v.b), rnd (Config.sin h * v.a + Config.cos h * v.b)⟩

/-! ## Grid words and states -/

abbrev gOff : Nat := 0
abbrev gSync : Nat := 1
abbrev gRamp : Nat := 2
abbrev gRun : Nat := 3
abbrev gRide : Nat := 4
abbrev gCoast : Nat := 5
abbrev gBlock : Nat := 6
abbrev gStopping : Nat := 7
abbrev gTripOut : Nat := 8

def CtxSt.gridCfg (x : CtxSt) (hi lo : Nat) : Nat := getBits (x.params.getD 104 0) hi lo
def State.grid (s : State) (c : Nat) : GridSt := (s.ctx c).grid
def State.modGrid (s : State) (c : Nat) (g : GridSt → GridSt) : State := s.modCtx c fun x => { x with grid := g x.grid }

/-- Grid-forming is active: the active variant is VAR_GFM and GFM_EN = 1 (R195). -/
def State.gridForming (s : State) (c : Nat) : Bool :=
  let x := s.ctx c
  x.gridCfg 4 4 == 1 && s.f R.LOOP_CTX_STAT_VAR c == x.gridCfg 3 2

/-- |V| lies in the normal band (R199). -/
def CtxSt.inBand (x : CtxSt) : Bool := decide (x.pv 113 ≤ x.grid.vmag) && decide (x.grid.vmag ≤ x.pv 114)

/-- Enter a grid state; each change posts GRID_STATE (R199). -/
def State.gridEnter (s : State) (c st : Nat) : State :=
  let old := (s.grid c).st
  let s := s.modGrid c fun g => { g with st := st, retRun := if st = gCoast then none else g.retRun }
  s.doIf (old != st) (·.post E.GRID_STATE (subject c) (nw old) (nw st))

/-- RUN or RIDE_THROUGH, by the band. -/
def State.gridByBand (s : State) (c : Nat) : State := s.gridEnter c (if (s.ctx c).inBand then gRun else gRide)

/-- Time a condition has held without a break. -/
def holdTime (on : Bool) (o : Option Rat) (te : Rat) : Option Rat :=
  if on then some (match o with | none => 0 | some t => t + te) else none

/-- A held time has reached a limit. -/
def heldFor (o : Option Rat) (lim : Rat) : Bool :=
  match o with
  | some t => decide (lim ≤ t)
  | none => false

/-! ## Grid angle (R196 to R198, R202) -/

/-- Compensation of a window average: turned forward by ω̂·T_w ÷ 2 and divided by s (R196). -/
def compensate (omega tw : Rat) (v : Vec2) : Vec2 :=
  let h := omega * tw / 2
  if h = 0 then v else Vec2.scale (h / Config.sin h) (Vec2.turn h v)

/-- N_q, the evaluations in a quarter of the nominal cycle (R197). -/
def CtxSt.quarterCount (x : CtxSt) : Nat :=
  if x.teval = 0 ∨ x.pv 106 = 0 then 0 else (1 / (x.teval * 4 * x.pv 106) + 1 / 2).floor.toNat

/-- The next output of the resonator on the compensated capacitor voltage (R211): a second-order filter tuned to F_RES with a quality factor of 4.
Mark: DESIGN CHOICE (log 57). -/
def CtxSt.resonate (x : CtxSt) (vc : Vec2) : Vec2 :=
  let k := Config.resonator (x.pv 141 * x.teval) 4
  let i (n : Nat) := x.grid.resIn.getD n {}
  let o (n : Nat) := x.grid.resOut.getD n {}
  let f (p : Vec2 → Rat) : Rat := rnd (k 0 * p vc + k 1 * p (i 0) + k 2 * p (i 1) - k 3 * p (o 0) - k 4 * p (o 1))
  ⟨f (·.a), f (·.b)⟩

/-- The voltage vector, its magnitude, the measured power and the resonator (R196, R197, R202, R211). -/
def State.gridMeasure (s : State) (c : Nat) (g : GridIn) : State :=
  let x := s.ctx c
  let v := compensate x.grid.omega g.tw g.v
  let i := compensate x.grid.omega g.tw g.i
  let vc := compensate x.grid.omega g.tw g.vc
  let nq := x.quarterCount
  let old := x.grid.hist.getD (nq - 1) {}
  let vp := Vec2.scale (1 / 2) (Vec2.add v (Vec2.quarter (if nq = 0 then v else old)))
  s.modGrid c fun y => { y with
    vpos := vp, vmag := rnd (Vec2.mag vp / x.pv 105), hist := (v :: y.hist).take nq
    power := rnd (3 / 2 * Vec2.dot vp i / x.pv 107)
    resIn := [vc, y.resIn.getD 0 {}], resOut := [x.resonate vc, y.resOut.getD 0 {}] }

/-- The PLL in one evaluation; it freewheels in COAST under grid-following (R198). The count of evaluations with v_q in tolerance runs in both. -/
def State.gridPll (s : State) (c : Nat) : State :=
  let x := s.ctx c
  let te := x.teval
  let free := x.grid.st == gCoast && !s.gridForming c
  let (s, k) := s.draw
  let m := Vec2.mag x.grid.vpos
  let vq := if m = 0 then Config.overZero k
    else rnd ((Config.cos x.grid.theta * x.grid.vpos.b - Config.sin x.grid.theta * x.grid.vpos.a) / m)
  let s := s.modGrid c fun g => { g with lockRun := if absQ vq ≤ x.pv 132 then min 8 (g.lockRun + 1) else 0 }
  if free then s.modGrid c fun g => { g with theta := rnd (wrapPi (g.theta + g.omega * te)) }
  else
    let xp := rnd (x.grid.xpll + x.pv 109 * vq * te)
    let lo := 2 * Config.pi * x.pv 110 * 9 / 10
    let hi := 2 * Config.pi * x.pv 111 * 11 / 10
    let w := clampQ (rnd (2 * Config.pi * x.pv 106 + x.pv 108 * vq + xp)) lo hi
    s.modGrid c fun g => { g with xpll := xp, omega := w, theta := rnd (wrapPi (g.theta + w * te)) }

/-- The PLL is locked. -/
def GridSt.locked (g : GridSt) : Bool := g.lockRun == 8

/-- The internal angle of grid-forming (R202), with DF_SAT. -/
def State.gridForm (s : State) (c : Nat) : State :=
  let x := s.ctx c
  if s.gridForming c then
    let d := rnd (x.pv 136 * (x.pv 102 / x.pv 107 - x.grid.power))
    let dc := clampQ d (-(x.pv 137)) (x.pv 137)
    let w := rnd (2 * Config.pi * (x.pv 106 + dc))
    s.modGrid c fun g => { g with omegaI := w, thetaI := rnd (wrapPi (g.thetaI + w * x.teval)), flags := putBit g.flags 1 (decide (d ≠ dc)) }
  else s.modGrid c fun g => { g with flags := putBit g.flags 1 false }

/-! ## Ride-through timers (R200) -/

/-- The states that keep the timers. -/
def timerState (st : Nat) : Bool := st == gRamp || st == gRun || st == gRide || st == gCoast || st == gBlock || st == gStopping

/-- The timers of one evaluation. -/
def State.gridTimers (s : State) (c : Nat) : State :=
  let x := s.ctx c
  let te := x.teval
  let g := x.grid
  if g.st = gSync then s.modGrid c fun g => { g with tk := [0, 0, 0, 0], th := 0, tf := 0 }
  else if timerState g.st then
    let f := g.omega / (2 * Config.pi)
    let frozen := g.st == gCoast && !s.gridForming c
    s.modGrid c fun g => { g with
      tk := (g.tk.zipIdx).map fun t => if g.vmag < x.pv (118 + t.2) then t.1 + te else 0
      th := if x.pv 126 < g.vmag then g.th + te else 0
      tf := if frozen then g.tf else if x.pv 110 ≤ f ∧ f ≤ x.pv 111 then 0 else g.tf + te }
  else s

/-- The ride-through limit that has passed: 0 to 3 a curve point, 4 high voltage, 5 frequency. -/
def CtxSt.rtLimit (x : CtxSt) : Option Nat :=
  let spent (t : Rat) (i : Nat) : Bool := passed t (x.params.getD i 0)
  if !timerState x.grid.st then none
  else (List.range 6).find? fun k =>
    if k < 4 then spent (x.grid.tk.getD k 0) (122 + k) else if k = 4 then spent x.grid.th 127 else spent x.grid.tf 112

/-- TRIP_OUT on a passed limit (R200). -/
def State.gridTrip (s : State) (c : Nat) : State :=
  match (s.ctx c).rtLimit with
  | some k => (s.post E.RT_TRIP (subject c) (nw k)).gridEnter c gTripOut
  | none => s

/-! ## Return of the grid (R204 to R206) -/

/-- The grid has returned: |V| has been at V_RET or more for T_RET. -/
def CtxSt.gridBack (x : CtxSt) : Bool := x.grid.st == gCoast && heldFor x.grid.retRun (x.pv 117)

/-- The decision on return (R204): 0 SLEW, 1 BLOCK, 2 NONE. A slew begins at the angle that θ_used has in this evaluation (R205). -/
def State.gridReturn (s : State) (c : Nat) : State :=
  let x := s.ctx c
  let gfm := s.gridForming c
  let av := Vec2.arg x.grid.vpos
  let d := rnd (wrapPi (av - (if gfm then x.grid.thetaI else x.grid.theta)))
  let dec := if gfm then 2 else if absQ d ≤ x.pv 133 then 0 else 1
  let s := s.post E.GRID_RETURN (subject c) (turnWord d) (nw dec)
  if dec = 2 then s.gridByBand c
  else if dec = 0 then (s.modGrid c fun g => { g with thetaUsed := if g.slewing then g.thetaUsed else g.theta, theta := av, slewing := true }).gridByBand c
  else (s.modGrid c fun g => { g with theta := av, slewing := false, blockCount := 0, blockTime := 0 }).gridEnter c gBlock

/-- N_B, the evaluations in one grid cycle (R206). -/
def CtxSt.blockLen (x : CtxSt) : Nat :=
  if x.grid.omega * x.teval = 0 then 0 else (2 * Config.pi / (x.grid.omega * x.teval)).ceil.toNat

/-- BLOCK has lasted a cycle and the PLL is locked. -/
def CtxSt.blockOver (x : CtxSt) : Bool := x.grid.st == gBlock && decide (x.blockLen ≤ x.grid.blockCount) && x.grid.locked

/-- BLOCK ends in RAMP, with the limit at 0. -/
def State.blockEnd (s : State) (c : Nat) : State := (s.modGrid c fun g => { g with ilim := 0, thetaUsed := g.theta }).gridEnter c gRamp

/-- T_RESYNC has passed in BLOCK without lock (R206). -/
def CtxSt.resyncOver (x : CtxSt) : Bool :=
  x.grid.st == gBlock && decide (x.blockLen ≤ x.grid.blockCount) && !x.grid.locked && decide (x.pv 135 ≤ x.grid.blockTime)

def State.resyncTimeout (s : State) (c : Nat) : State := (s.post E.RESYNC_TIMEOUT (subject c)).gridEnter c gTripOut

/-! ## The state machine (Table 6.2) -/

/-- The current-limit ramp of RAMP. -/
def State.gridRampUp (s : State) (c : Nat) : State :=
  let x := s.ctx c
  let i := minQ (x.pv 129) (rnd (x.grid.ilim + x.pv 130 * x.teval))
  let s := s.modGrid c fun g => { g with ilim := i }
  s.doIf (decide (x.pv 129 ≤ i)) (·.gridByBand c)

/-- The current-limit ramp of STOPPING. -/
def State.gridRampDown (s : State) (c : Nat) : State :=
  let x := s.ctx c
  let i := if x.pv 138 = 0 then 0 else maxQ 0 (rnd (x.grid.ilim - x.pv 129 / x.pv 138 * x.teval))
  let s := s.modGrid c fun g => { g with ilim := i }
  s.doIf (decide (i = 0)) (·.gridEnter c gOff)

/-- RUN has fallen: the RUN rule of Table 6.2. -/
def State.gridRunFall (s : State) (c : Nat) : State :=
  let st := (s.grid c).st
  if st = gRamp ∨ st = gRun ∨ st = gRide ∨ st = gCoast then
    (s.modGrid c fun g => { g with ilim := if st = gRamp then g.ilim else s.pv c 129 }).gridEnter c gStopping
  else if st = gSync ∨ st = gBlock ∨ st = gTripOut then s.gridEnter c gOff
  else s

/-- The transitions of a state, once no limit has passed and RUN has not fallen. -/
def State.gridMove (s : State) (c : Nat) (rise : Bool) : State :=
  let x := s.ctx c
  let g := x.grid
  if g.st = gOff then s.doIf rise fun s => (s.modGrid c fun g => { g with syncRun := none, slewing := false }).gridEnter c gSync
  else if g.st = gSync then
    let s := s.modGrid c fun g => { g with syncRun := holdTime (g.locked && x.inBand) g.syncRun x.teval }
    s.doIf (heldFor (s.grid c).syncRun (x.pv 131)) fun s => (s.modGrid c fun g => { g with ilim := 0 }).gridEnter c gRamp
  else if g.st = gRamp then if g.vmag < x.pv 115 then s.gridEnter c gCoast else s.gridRampUp c
  else if g.st = gRun then s.doIf (!x.inBand) (·.gridEnter c gRide)
  else if g.st = gRide then if x.inBand then s.gridEnter c gRun else s.doIf (decide (g.vmag < x.pv 115)) (·.gridEnter c gCoast)
  else if g.st = gCoast then
    let s := s.modGrid c fun g => { g with retRun := holdTime (decide (x.pv 116 ≤ g.vmag)) g.retRun x.teval }
    s.doIf ((s.ctx c).gridBack) (·.gridReturn c)
  else if g.st = gBlock then
    if g.vmag < x.pv 115 then s.gridEnter c gCoast
    else
      let s := s.modGrid c fun g => { g with blockCount := g.blockCount + 1, blockTime := g.blockTime + x.teval }
      if (s.ctx c).blockOver then s.blockEnd c
      else s.doIf ((s.ctx c).resyncOver) (·.resyncTimeout c)
  else if g.st = gStopping then s.gridRampDown c
  else s

/-- Resonance (R211): N_RES consecutive evaluations above RES_LIM. -/
def State.gridResonance (s : State) (c : Nat) : State :=
  let x := s.ctx c
  let st := x.grid.st
  if st = gRamp ∨ st = gRun ∨ st = gRide ∨ st = gCoast then
    let n := if x.pv 142 < rnd (Vec2.mag (x.grid.resOut.getD 0 {}) / x.pv 105) then x.grid.resRun + 1 else 0
    let s := s.modGrid c fun g => { g with resRun := n }
    s.doIf (decide ((x.params.getD 143 0).toNat ≤ n) && n != 0) fun s => (s.post E.RESONANCE (subject c)).gridEnter c gTripOut
  else s.modGrid c fun g => { g with resRun := 0 }

/-- The grid state machine in one evaluation, with the order of R210. -/
def State.gridStates (s : State) (c : Nat) : State :=
  let g := s.grid c
  let run := (s.pword c 101).getLsbD 0
  let s := (s.gridTimers c).modGrid c fun g => { g with runWas := run }
  let stay := g.st == gOff || g.st == gStopping
  if !run && g.runWas && !stay then s.gridRunFall c
  else if ((s.ctx c).rtLimit).isSome then s.gridTrip c
  else
    let t := s.gridResonance c
    if (t.grid c).st = gTripOut then t else t.gridMove c (run && !g.runWas)

/-- θ_used: θ̂, or a slew toward it from the evaluation after the decision (R205). `was`: it slewed before this evaluation. -/
def State.gridUsed (s : State) (c : Nat) (was : Bool) : State :=
  let x := s.ctx c
  let g := x.grid
  if g.slewing ∧ !was then s
  else if g.slewing then
    let base := g.thetaUsed + g.omega * x.teval
    let e := wrapPi (g.theta - base)
    let lim := x.pv 134 * x.teval
    if absQ e ≤ lim then s.modGrid c fun g => { g with thetaUsed := g.theta, slewing := false }
    else s.modGrid c fun g => { g with thetaUsed := rnd (wrapPi (base + clampQ e (-lim) lim)) }
  else s.modGrid c fun g => { g with thetaUsed := g.theta }

/-- The current limit of the state; OFF, SYNC, BLOCK and TRIP_OUT have none (Table 6.2). -/
def CtxSt.gridLimit (x : CtxSt) : Option Rat :=
  if x.grid.st = gOff ∨ x.grid.st = gSync ∨ x.grid.st = gBlock ∨ x.grid.st = gTripOut then none
  else some (if x.grid.st = gRamp ∨ x.grid.st = gStopping then x.grid.ilim else x.pv 129)

/-- The references of the present evaluation (R201, R202, R207); a state without a current limit has none. STOPPING forms them as RUN does. Mark:
DESIGN CHOICE (log 157). -/
def State.gridRefs (s : State) (c : Nat) (g : GridIn) : State :=
  let x := s.ctx c
  match x.gridLimit with
  | none => s.modGrid c fun y => { y with ipRef := 0, irRef := 0, flags := putBit y.flags 0 false }
  | some lim =>
  if s.gridForming c then
    let ib := x.pv 107 / (3 / 2 * x.pv 105)
    let r := Vec2.scale (1 / ib) g.iRef
    let m := Vec2.mag r
    let above := decide (lim < m)
    let k := if above then lim / m else 1
    let s := s.modGrid c fun y => { y with ipRef := rnd (k * r.a), irRef := rnd (k * r.b), flags := putBit y.flags 0 above }
    s.doIf above (·.postLimited (0x0700360000 + c) E.GFM_CUR_LIMIT (subject c))
  else
    let den := x.pv 107 * maxQ x.grid.vmag (x.pv 115)
    let ride := x.grid.st == gRide || x.grid.st == gCoast
    let p := clampQ (x.pv 102) (-(x.pv 140)) (x.pv 139)
    let ip0 := if ride then x.grid.ipHold else rnd (p / den)
    let ir0 := if ride then
        rnd (x.grid.irHold + (if x.grid.vmag < x.pv 113 then x.pv 128 * (x.pv 113 - x.grid.vmag)
          else if x.pv 114 < x.grid.vmag then -(x.pv 128) * (x.grid.vmag - x.pv 114) else 0))
      else rnd (x.pv 103 / den)
    let ir := clampQ ir0 (-lim) lim
    let pl := Config.sqrt (lim * lim - ir * ir)
    let ip := clampQ ip0 (-pl) pl
    s.modGrid c fun y => { y with
      ipRef := ip, irRef := ir, flags := putBit y.flags 0 (decide (ip ≠ ip0) || decide (ir ≠ ir0))
      ipHold := if y.st = gRun then ip else y.ipHold, irHold := if y.st = gRun then ir else y.irHold }

/-! ## Grid-mode hand-over (R208 to R210) -/

/-- The angles of the incoming mode, and BLOCK ended by a change to grid-forming, unless RUN falls in this evaluation (R208, R210). -/
def State.gridModeInit (s : State) (c : Nat) (toForming : Bool) : State :=
  if toForming then
    let s := s.modGrid c fun g => { g with thetaI := g.thetaUsed, omegaI := g.omega }
    if (s.grid c).st = gBlock then
      (s.modGrid c fun g => { g with thetaI := g.theta }).doIf ((s.pword c 101).getLsbD 0 || !(s.grid c).runWas) fun s =>
        (s.modGrid c fun g => { g with ilim := 0 }).gridEnter c gRamp
    else s
  else
    let w0 := 2 * Config.pi * s.pv c 106
    s.modGrid c fun g => { g with theta := g.thetaI, thetaUsed := g.thetaI, slewing := false, omega := g.omegaI, xpll := rnd (g.omegaI - w0) }

/-- The variant an automatic change asks for (R209). `was`: the grid state before this evaluation. -/
def State.gridAuto (s : State) (c was : Nat) : State × Option Nat :=
  let x := s.ctx c
  let gfm := s.gridForming c
  if x.gridCfg 4 4 = 1 ∧ x.gridCfg 5 5 = 1 ∧ !gfm ∧ x.grid.st = gCoast ∧ was ≠ gCoast then
    (s, some (x.gridCfg 3 2))
  else if gfm ∧ x.gridCfg 6 6 = 1 then
    let ok := x.inBand && decide (absQ (wrapPi (Vec2.arg x.grid.vpos - x.grid.thetaI)) ≤ x.pv 133)
    let s := s.modGrid c fun g => { g with backRun := holdTime ok g.backRun x.teval }
    (s, if heldFor (s.grid c).backRun (x.pv 131) then some (x.gridCfg 1 0) else none)
  else (s.modGrid c fun g => { g with backRun := none }, none)

/-! ## DC-DC (R212 to R217) -/

abbrev bOff : Nat := 0
abbrev bWait : Nat := 1
abbrev bCharge : Nat := 2
abbrev bClose : Nat := 3
abbrev bRun : Nat := 4
abbrev bStopping : Nat := 5
abbrev bFail : Nat := 6

def CtxSt.dcCfg (x : CtxSt) (hi lo : Nat) : Nat := getBits (x.params.getD 155 0) hi lo
def State.dcdc (s : State) (c : Nat) : DcSt := (s.ctx c).dcdc
def State.modDc (s : State) (c : Nat) (g : DcSt → DcSt) : State := s.modCtx c fun x => { x with dcdc := g x.dcdc }

/-- Enter a DC-DC state; each change posts DCDC_STATE (R216). -/
def State.dcEnter (s : State) (c st : Nat) : State :=
  let old := (s.dcdc c).st
  let s := s.modDc c fun d => { d with st := st, t := 0 }
  s.doIf (old != st) (·.post E.DCDC_STATE (subject c) (nw old) (nw st))

/-- The CTXX DATA flit of the start-token exchange (R499): 1 REQUEST, 2 WITHDRAW. -/
def State.sendToken (s : State) (c w0 : Nat) : State :=
  let x : Ctxx := { sub := 7, ctx := c, ts := (s.ctx c).trigTs, first := 0, last := true, words := [nw w0] }
  s.transmit { dst := .port 18 2, src := s.ctxSrc c, payload := .ctxx x }

/-- Both contactors off and OFF. -/
def State.dcOff (s : State) (c : Nat) : State :=
  (s.modDc c fun d => { d with pre := false, main := false, openNext := false, chg := 0, dis := 0, dropped := 0 }).dcEnter c bOff

/-- Precharge fails (R216): stage 0 STAGE1, 1 STAGE2, 2 MAIN. -/
def State.dcFail (s : State) (c stage : Nat) : State :=
  ((s.post E.PRECHARGE_FAIL (subject c) (nw stage)).modDc c fun d => { d with pre := false, main := false }).dcEnter c bFail

/-- The link voltage is within (1 − K_PC) of the battery's. -/
def CtxSt.linkCharged (x : CtxSt) : Bool := decide (absQ (x.dcdc.vdc - x.dcdc.vBat) ≤ (1 - x.pv 166) * x.dcdc.vBat)

/-- A start from OFF. -/
def State.dcStart (s : State) (c : Nat) : State :=
  let s := s.modDc c fun d => { d with dropped := 0, imb := [], imbDone := 0 }
  if (s.ctx c).linkCharged then (s.modDc c fun d => { d with main := true }).dcEnter c bClose
  else ((s.modDc c fun d => { d with granted := false, grantSeen := false }).dcEnter c bWait).sendToken c 1

/-- The start token of PC_WAIT is granted: PRE on, PC_CHARGE. -/
def State.dcToken (s : State) (c : Nat) : State := (s.modDc c fun d => { d with pre := true, half := false, granted := false }).dcEnter c bCharge

/-- The stage of a precharge whose time limit has passed (R216). Mark: DEDUCED (log 58). -/
def CtxSt.prechargeOver (x : CtxSt) : Option Nat :=
  if x.dcdc.st ≠ bCharge then none
  else if !x.dcdc.half && decide (x.pv 167 < x.dcdc.t) then some 0
  else if x.dcdc.half && decide (x.pv 168 < x.dcdc.t) then some 1
  else none

/-- One evaluation of PC_CHARGE: a time limit that has passed fails it, whatever the voltage (R216). -/
def State.dcCharge (s : State) (c : Nat) : State :=
  let s := s.modDc c fun d => { d with t := d.t + (s.ctx c).teval }
  match (s.ctx c).prechargeOver with
  | some k => s.dcFail c k
  | none =>
    let s := s.doIf (decide ((s.dcdc c).vBat / 2 ≤ (s.dcdc c).vdc)) (·.modDc c fun d => { d with half := true })
    let x := s.ctx c
    match x.prechargeOver with
    | some k => s.dcFail c k
    | none =>
      s.doIf (x.dcdc.half && decide (x.pv 166 * x.dcdc.vBat ≤ x.dcdc.vdc)) fun s => (s.modDc c fun d => { d with main := true }).dcEnter c bClose

/-- MAIN has had T_MAIN to settle. Mark: DEDUCED (log 58). -/
def CtxSt.mainOver (x : CtxSt) : Bool := x.dcdc.st == bClose && decide (x.pv 169 ≤ x.dcdc.t)

/-- MAIN settled: RUN with the limits ramping from 0, or a failed close (R216). -/
def State.mainSettled (s : State) (c : Nat) : State :=
  if (s.ctx c).linkCharged then
    (s.modDc c fun d => { d with pre := false, chg := 0, dis := 0, up := true }).dcEnter c bRun
  else s.dcFail c 2

/-- The active phases. -/
def CtxSt.phasesOn (x : CtxSt) : List Nat := (List.range (x.dcCfg 2 0)).filter fun p => !x.dcdc.dropped.testBit p

/-- 1 up to `a`, falling linearly to 0 at `b`, and 0 beyond. -/
def taper (v a b : Rat) : Rat := if v ≤ a then 1 else if b ≤ v then 0 else rnd ((b - v) / (b - a))

/-- The limits the words and the battery voltage allow, scaled by the active fraction (R214, R215). -/
def CtxSt.dcTargets (x : CtxSt) : Rat × Rat :=
  let fr : Rat := if x.dcCfg 13 13 = 1 ∧ x.dcCfg 2 0 ≠ 0 then (x.phasesOn.length : Rat) / (x.dcCfg 2 0 : Rat) else 1
  let aHi := taper x.dcdc.vBat (x.pv 160) (x.pv 161)
  let aLo := taper (-x.dcdc.vBat) (-x.pv 159) (-x.pv 158)
  (rnd (minQ (x.pv 156) (x.pv 152) * aHi * fr), rnd (minQ (x.pv 157) (x.pv 153) * aLo * fr))

/-- The effective limits move by one evaluation (R214, R216, R217). -/
def State.dcLimits (s : State) (c : Nat) : State :=
  let x := s.ctx c
  let d := x.dcdc
  let step := rnd (x.pv 165 * x.teval)
  let (tc, td) := x.dcTargets
  if d.stale ∨ d.st = bStopping then
    s.modDc c fun d => { d with chg := maxQ 0 (minQ tc (d.chg - step)), dis := maxQ 0 (minQ td (d.dis - step)), up := true }
  else if d.up then
    let a := minQ tc (d.chg + step)
    let b := minQ td (d.dis + step)
    s.modDc c fun d => { d with chg := a, dis := b, up := !(decide (a = tc) && decide (b = td)) }
  else s.modDc c fun d => { d with chg := tc, dis := td }

/-- T_BMS has passed without a refresh (R214). Mark: DEDUCED (log 58). -/
def CtxSt.bmsOver (x : CtxSt) : Bool := decide (0 < x.pv 154) && !x.dcdc.stale && decide (x.pv 154 ≤ x.dcdc.bmsTime)

def State.bmsStale (s : State) (c : Nat) : State := (s.modDc c fun d => { d with stale := true }).post E.BMS_STALE (subject c)

/-- A transaction writes word 152 or 153 (R214). -/
def State.bmsRefresh (s : State) (c : Nat) : State :=
  s.modDc c fun d => { d with bmsTime := 0, stale := false, up := d.up || d.stale }

/-- An imbalanced phase (R215). -/
def State.dcImbalance (s : State) (c p : Nat) : State :=
  let x := s.ctx c
  let s := (s.post E.PHASE_IMBALANCE (subject c p)).modDc c fun d => { d with imbDone := putBit d.imbDone p true }
  if x.dcCfg 13 13 = 1 ∧ 1 < x.phasesOn.length then
    (s.modDc c fun d => { d with dropped := putBit d.dropped p true }).post E.PHASE_DROPPED (subject c p)
  else s.dcEnter c bStopping

/-- The imbalance counts of one evaluation in RUN or STOPPING; a phase posts once while its imbalance lasts (R215). -/
def State.dcBalance (s : State) (c : Nat) (iPh : List Rat) : State :=
  let x := s.ctx c
  let on := x.phasesOn
  let mean := if on = [] then 0 else rnd (on.foldl (fun a p => a + iPh.getD p 0) 0 / (on.length : Rat))
  let imb := (List.range (x.dcCfg 2 0)).map fun p =>
    if on.contains p && decide (x.pv 163 < absQ (iPh.getD p 0 - mean)) then x.dcdc.imb.getD p 0 + 1 else 0
  let s := s.modDc c fun d => { d with imb := imb, imbDone := (List.range (x.dcCfg 2 0)).foldl (fun m p => putBit m p (m.testBit p && imb.getD p 0 != 0)) d.imbDone }
  let lim := (x.params.getD 164 0).toNat
  on.foldl (fun s p => s.doIf (decide (lim ≤ imb.getD p 0) && imb.getD p 0 != 0 && !(s.dcdc c).imbDone.testBit p) (·.dcImbalance c p)) s

/-- The phase references (R214, R215). -/
def State.dcRefs (s : State) (c : Nat) (ref : Rat) : State :=
  let x := s.ctx c
  let n := x.phasesOn.length
  let i := clampQ ref (-x.dcdc.chg) x.dcdc.dis
  let ph := if n = 0 then 0 else clampQ (rnd (i / (n : Rat))) (-(x.pv 162)) (x.pv 162)
  s.modDc c fun d => { d with iRef := i, phRef := ph }

/-- The DC-DC services of one evaluation (R212 to R217). -/
def State.runDcdc (s : State) (c : Nat) (g : GridIn) : State :=
  if !(s.ctx c).section_ 2 then s
  else
    let was := s.dcdc c
    let run := (s.pword c 151).getLsbD 0
    let fall := !run && was.runWas
    let s := s.modDc c fun d => { d with runWas := run, vBat := g.vBat, vdc := g.vdc, bmsTime := d.bmsTime + (s.ctx c).teval }
    let s := s.doIf ((s.ctx c).bmsOver) (·.bmsStale c)
    if was.st = bOff then s.doIf (run && !was.runWas) (·.dcStart c)
    else if was.st = bWait then (if fall then (s.dcOff c).sendToken c 2 else s.doIf was.grantSeen (·.dcToken c))
    else if was.st = bCharge then if fall then s.dcOff c else s.dcCharge c
    else if was.st = bClose then
      if fall then s.dcOff c
      else
        let s := s.modDc c fun d => { d with t := d.t + (s.ctx c).teval }
        s.doIf ((s.ctx c).mainOver) (·.mainSettled c)
    else if was.st = bFail then s.doIf fall (·.dcOff c)
    else if was.openNext then s.dcOff c
    else
      let s := if fall ∧ was.st = bRun then s.dcEnter c bStopping else s
      let s := ((s.dcBalance c g.iPh).dcLimits c).dcRefs c g.iBatRef
      let d := s.dcdc c
      s.doIf (d.st == bStopping && decide (d.chg = 0) && decide (d.dis = 0)) (·.modDc c fun d => { d with openNext := true })

/-! ## Link (R218 to R220) -/

/-- The link record, HOLDER and the absorption capacity of one evaluation. -/
def State.runLink (s : State) (c : Nat) (g : GridIn) : State :=
  let x := s.ctx c
  if !x.section_ 3 then s
  else
    let gst := x.grid.st
    let grid := x.section_ 1 && !s.gridForming c && (gst == gRamp || gst == gRun || gst == gRide)
    let h := if grid then 1 else if x.section_ 2 ∧ x.dcdc.st = bRun then 2 else 0
    let pg := if x.section_ 1 ∧ (gst = gRun ∨ gst = gRide) then
      rnd (minQ (x.pv 139) (x.grid.vmag * x.pv 129 * x.pv 107)) else 0
    let pb := if x.section_ 2 ∧ x.dcdc.st = bRun then rnd (g.vBat * x.dcdc.chg) else 0
    let av := maxQ 0 (rnd (pg + pb - x.pv 179))
    let s := s.modCtx c fun x => { x with link := {
      holder := h, energy := rnd (x.pv 177 * g.vdc * g.vdc / 2), pGrid := rnd (x.grid.power * x.pv 107)
      pBat := rnd (g.vBat * g.iBat), avail := av } }
    let s := s.doIf (x.link.holder != h) (·.post E.LINK_HOLDER (subject c) (nw x.link.holder) (nw h))
    s.doIf ((x.params.getD 176 0).getLsbD 0 && x.section_ 0) (·.modCtx c fun x =>
      let v := match x.desc.params[15]? with
        | some d => clampQ av (f32 d.lo) (f32 d.hi)
        | none => av
      { x with params := x.params.set 15 (f32Of v) })

/-- The grid services of one evaluation, up to the state machine; the variant an automatic change asks for. Mark: DESIGN CHOICE (log 56). -/
def State.runGrid (s : State) (c : Nat) (g : GridIn) : State × Option Nat :=
  if !(s.ctx c).section_ 1 then (s, none)
  else
    let was := s.grid c
    let s := (((((s.gridMeasure c g).gridPll c).gridForm c).gridStates c).gridUsed c was.slewing)
    s.gridAuto c was.st

/-! ## The rows of their own (R200, R204, R206, R214, R216): each makes the transition an evaluation makes once its condition stands -/

/-- GRID_RETURN (R204). -/
def execGridReturn (t : Instant) (c : Nat) (s : State) : Res :=
  let s := s.start t
  .next (s.doIf (s.ctxOn c && (s.ctx c).gridBack && ((s.ctx c).rtLimit).isNone) (·.gridReturn c))

/-- RT_TRIP (R200). -/
def execRtTrip (t : Instant) (c : Nat) (s : State) : Res :=
  let s := s.start t
  .next (s.doIf (s.ctxOn c) (·.gridTrip c))

/-- BLOCK_END (R206). -/
def execBlockEnd (t : Instant) (c : Nat) (s : State) : Res :=
  let s := s.start t
  .next (s.doIf (s.ctxOn c && (s.ctx c).blockOver) (·.blockEnd c))

/-- RESYNC_TIMEOUT (R206). -/
def execResyncTimeout (t : Instant) (c : Nat) (s : State) : Res :=
  let s := s.start t
  .next (s.doIf (s.ctxOn c && (s.ctx c).resyncOver) (·.resyncTimeout c))

/-- PRECHARGE_FAIL (R216): a stage's time limit passes. -/
def execPrechargeFail (t : Instant) (c : Nat) (s : State) : Res :=
  let s := s.start t
  .next (s.doIf (s.ctxOn c) (fun s => match (s.ctx c).prechargeOver with
    | some k => s.dcFail c k
    | none => s))

/-- MAIN_SETTLED (R216). -/
def execMainSettled (t : Instant) (c : Nat) (s : State) : Res :=
  let s := s.start t
  .next (s.doIf (s.ctxOn c && (s.ctx c).mainOver) (·.mainSettled c))

/-- BMS_STALE (R214). -/
def execBmsStale (t : Instant) (c : Nat) (s : State) : Res :=
  let s := s.start t
  .next (s.doIf (s.ctxOn c && (s.ctx c).bmsOver) (·.bmsStale c))

end Sys2Proof.Machine
end

