-- ==== Sys2Proof/Machine/Bc.lean ====
section
/-! DEFINITION. Start tokens of PWR (R497 to R501), block commutation of the AUX bridges (R179 to R184) and the command input
(R185 to R187). -/
namespace Sys2Proof.Machine

/-! ## Block commutation -/

def State.bc (s : State) (x : Nat) : BcSt := kget {} s.pwm.bc x
def State.setBc (s : State) (x : Nat) (b : BcSt) : State := { s with pwm := { s.pwm with bc := kset {} s.pwm.bc x b } }

/-- Bridge `x` runs block commutation. -/
def State.bcOn (s : State) (x : Nat) : Bool := s.sealed && decide (x < 4) && s.targetEn (24 + x) && s.b R.AUX_BC_CFG_EN x

/-- PHASE codes of AUX_BC_STAT. -/
abbrev bcStopped : Nat := 0
abbrev bcAlign : Nat := 1
abbrev bcRamp : Nat := 2
abbrev bcClosed : Nat := 3

def State.bcPhase (s : State) (x : Nat) : Nat := s.f R.AUX_BC_STAT_PHASE x

/-- Chopping phase and low phase of a step: the order U, V, W of back-EMF. Mark: PRESUMED (log 59). -/
def sixStep (n : Nat) : Nat × Nat := [(0, 1), (0, 2), (1, 2), (1, 0), (2, 0), (2, 1)].getD n (0, 1)

/-- The compare value of a duty (R184). -/
def dutyValue (d : Rat) (top : Nat) : CmpVal :=
  let n := (8 * d * (top : Rat) + 1 / 2).floor
  if n < 0 then ⟨.compare, 0, 0⟩ else if 4194303 < n then ⟨.compare, 524287, 7⟩ else ⟨.compare, n.toNat / 8, n.toNat % 8⟩

/-- Set the six switches: the chopping phase as a complementary leg, the low side of the low phase on, the third phase floating; all off with `none`
(R240). `issue`: the issue tick of a flit whose value 0 brings the duty, which the chopping phase's high channel then stamps. Mark: DESIGN CHOICE
(log 158). -/
def State.putPattern (s : State) (x : Nat) (p : Option (Nat × Nat)) (d : Rat) (issue : Option Nat) : State :=
  let T := 24 + x
  let s := s.setCarrier T { s.carrier T with opened := true }
  let s := s.advance T s.pwmQ
  let high (k : Nat) : CmpVal := match p with
    | some (c, l) => if k = c then dutyValue d (s.top T) else if k = l then ⟨.compare, 0, 0⟩ else ⟨.off, 0, 0⟩
    | none => ⟨.off, 0, 0⟩
  let low (k : Nat) : CmpVal := match p with
    | some (c, l) => if k = c ∨ k = l then ⟨.compare, 0, 0⟩ else ⟨.off, 0, 0⟩
    | none => ⟨.off, 0, 0⟩
  let s := [0, 1, 2].foldl (fun s k => s.takeRef T (2 * k) s.pwmTime (if p.any (·.1 == k) then issue else none) (high k)) s
  let s := [0, 1, 2].foldl (fun s k => s.takeLow T (2 * k + 1) s.pwmTime none (low k) false) s
  (s.advance T s.pwmQ).settle

/-- The duty of the phase a bridge is in: the start duties in ALIGN and RAMP, the demand in CLOSED (R184). -/
def State.bcDuty (s : State) (x : Nat) : Rat :=
  let p := s.bcPhase x
  if p = bcAlign then (s.f R.AUX_BC_START_D_ALIGN x : Rat) / 256
  else if p = bcRamp then (s.f R.AUX_BC_START_D_RAMP x : Rat) / 256
  else (s.bc x).duty

/-- Drive the switches of the present step. -/
def State.bcApply (s : State) (x : Nat) (issue : Option Nat := none) : State :=
  s.putPattern x (if s.bcPhase x = bcStopped then none else some (sixStep (s.bc x).step)) (s.bcDuty x) issue

/-- The next step of the sequence (R179). Mark: PRESUMED (log 59). -/
def State.bcNext (s : State) (x : Nat) : Nat :=
  let n := (s.bc x).step
  if s.b R.AUX_BC_CFG_DIR x then (n + 5) % 6 else (n + 1) % 6

/-- A commutation ends the step at once. -/
def State.bcCommutate (s : State) (x : Nat) : State :=
  let b := s.bc x
  let n := s.bcNext x
  (s.setBc x { b with step := n, commAt := s.now, crossed := false, crossedBefore := b.crossed
                      run := if b.crossed then b.run else 0, due := none, made := b.made + 1 }).bcApply x

/-- RAMP begins (R182). Mark: PRESUMED (log 59). -/
def State.bcRampStart (s : State) (x : Nat) : State :=
  let s := s.setF R.AUX_BC_STAT_PHASE bcRamp x
  let s := s.setBc x { s.bc x with phaseAt := s.now, commAt := s.now, made := 0, run := 0, crossed := false, crossedBefore := false
                                   interval := none }
  s.bcApply x

/-- A start token is granted: ALIGN, or RAMP at once where T_ALIGN is 0 (R182). -/
def State.bcStart (s : State) (x : Nat) : State :=
  let s := s.setBc x { s.bc x with step := 0 }
  if s.f R.AUX_BC_START_T_ALIGN x = 0 then s.bcRampStart x
  else ((s.setF R.AUX_BC_STAT_PHASE bcAlign x).setBc x { s.bc x with phaseAt := s.now }).bcApply x

/-- All switches off; the motor coasts. -/
def State.bcOff (s : State) (x : Nat) : State := (s.setF R.AUX_BC_STAT_PHASE bcStopped x).bcApply x

/-- A failed attempt or a stall: a new start after RETRIES × 1 s, or START_FAIL (R183). -/
def State.bcFail (s : State) (x : Nat) : State :=
  let s := s.bcOff x
  let n := s.f R.AUX_BC_STAT_RETRIES x
  if n < s.f R.AUX_BC_RUN_N_RETRY x then
    (s.setF R.AUX_BC_STAT_RETRIES (n + 1) x).setBc x { s.bc x with retryAt := some (s.now + (n + 1) * secQ) }
  else
    (s.raise R.AUX_BC_STAT_START_FAIL x E.BC_START_FAIL (subject x)).setBc x { s.bc x with barred := true }

/-! ## Start tokens -/

/-- Tokens a requester's start costs. -/
def State.tokenCost (s : State) (req : Nat) : Nat := if req < 512 then s.f R.PWR_TOK_CFG_PC_COST else s.f R.PWR_TOK_CFG_AUX_COST

/-- The waiting requests. -/
def State.setTokens (s : State) (q : List (Nat × Nat)) : State :=
  { s.setF R.PWR_TOK_STAT_PENDING q.length with pwr := { s.pwr with tokens := q } }

/-- GRANT to a context and its partner (R499). -/
def State.grantContext (s : State) (c : Nat) : State :=
  let all := c :: (s.partner c).toList
  all.foldl (fun s d =>
    let item : Ctxx := { sub := 7, ctx := c, ts := s.shortTs, first := 0, last := true, words := [3] }
    (s.sendCtx (.port 18 2) d (.ctxx item)).doIf ((s.dcdc d).st == bWait) (·.modDc d fun y => { y with granted := true })) s

/-- A request is granted. -/
def State.grant (s : State) (req : Nat) : State :=
  let s := (s.incF R.PWR_TOK_STAT_GRANTS).setF R.PWR_TOK_LAST_REQ req
  let s := s.post E.TOKEN_GRANTED (subject req)
  if req < 512 then s.grantContext req else s.doIf (decide (req < 516)) (·.bcStart (req - 512))

/-- Grant the requests at the head while the bucket pays for them; with EN = 0 all of them (R497, R500). -/
def State.grantDue (s : State) : State :=
  let rec go (n : Nat) (s : State) : State := match n, s.pwr.tokens with
    | n + 1, (_, r) :: q =>
      if !s.b R.PWR_TOK_CFG_EN then go n ((s.setTokens q).grant r)
      else
        let l := s.f R.PWR_TOK_STAT_LEVEL
        let k := s.tokenCost r
        if s.b R.PWR_TOK_STAT_OPEN && decide (k ≤ l) then go n (((s.setTokens q).setF R.PWR_TOK_STAT_LEVEL (l - k)).grant r) else s
    | _, _ => s
  go 516 s

/-- Requests wait in the order of their ticks, equal ticks in the order of requesters (R500). -/
def putToken (x : Nat × Nat) : List (Nat × Nat) → List (Nat × Nat)
  | [] => [x]
  | y :: q => if x.1 < y.1 ∨ (x.1 = y.1 ∧ x.2 < y.2) then x :: y :: q else y :: putToken x q

/-- The requester that stands for a context: the UNIFIED partner (R498). Mark: DEDUCED (log 136). -/
def State.requester (s : State) (c : Nat) : Nat :=
  if c < 512 ∧ s.ctxKind c = kindInner then (s.partner c).getD c else c

/-- A request; a requester holds at most one. -/
def State.tokenRequest (s : State) (req : Nat) : State :=
  if s.pwr.tokens.any (·.2 == req) then s else (s.setTokens (putToken (s.pwmTime, req) s.pwr.tokens)).grantDue

/-- A waiting request is withdrawn; the next one may be within the level. -/
def State.tokenWithdraw (s : State) (req : Nat) : State :=
  if s.pwr.tokens.any (·.2 == req) then
    ((s.setTokens (s.pwr.tokens.filter (·.2 != req))).post E.TOKEN_WITHDRAWN (subject req)).grantDue
  else s

/-- The capacity in tokens, and the refill period. -/
def State.tokenCap (s : State) : Nat := s.f R.PWR_TOK_CFG_CAP + 1
def State.refillQ (s : State) : Nat := s.f R.PWR_TOK_CFG_REFILL * msQ

/-- The bucket opens: LEVEL becomes INIT, and refills count from now (R497). -/
def State.openBucket (s : State) : State :=
  let s := (s.setB R.PWR_TOK_STAT_OPEN true).setF R.PWR_TOK_STAT_LEVEL (min (s.f R.PWR_TOK_CFG_INIT) s.tokenCap)
  { s with pwr := { s.pwr with refillAt := some (s.now + s.refillQ) } }.grantDue

/-- The wake instant opens the bucket (R422, R497). -/
def State.wakeOpen (s : State) : State :=
  if s.b R.PWR_TOK_CFG_WAKE_EN && !s.b R.PWR_TOK_STAT_OPEN then
    let s := (s.setB R.PWR_TOK_STAT_OPEN true).post E.WAKE_OPEN
    s.openBucket
  else s

/-- TOKEN_REQUEST (R498): a context's request reaches PWR. -/
def execTokenRequest (t : Instant) (req : Nat) (s : State) : Res :=
  let s := s.start t
  .next (s.doIf (s.sealed && (decide (req < 512) && (s.ctx req).section_ 2 && (s.dcdc req).st == bWait && !(s.dcdc req).granted
      || decide (512 ≤ req) && s.bcOn (req - 512) && s.bcPhase (req - 512) == bcStopped && decide (8 / 256 ≤ (s.bc (req - 512)).duty)
        && (s.bc (req - 512)).retryAt.isNone && !(s.bc (req - 512)).barred))
    (fun s => s.tokenRequest (s.requester req)))

/-- TOKEN_WITHDRAW (R498, R501). -/
def execTokenWithdraw (t : Instant) (req : Nat) (s : State) : Res :=
  let s := s.start t
  .next (s.doIf s.sealed fun s => s.tokenWithdraw (s.requester req))

/-- TOKEN_REFILL (R497): one token every REFILL ms, never above CAP. Mark: DEDUCED (log 133). -/
def execTokenRefill (t : Instant) (s : State) : Res :=
  let s := s.start t
  .next (match s.pwr.refillAt with
    | some r =>
      if r ≤ s.now ∧ s.b R.PWR_TOK_STAT_OPEN then
        let s := s.setF R.PWR_TOK_STAT_LEVEL (min (s.f R.PWR_TOK_STAT_LEVEL + 1) s.tokenCap)
        { s with pwr := { s.pwr with refillAt := some (r + s.refillQ) } }.grantDue
      else s
    | none => s)

/-- The value a write of PWR_TOK_CFG would leave (R501, R502). -/
def tokCfgBad (w : Word) : Bool :=
  let cap := getBits w 29 26 + 1
  let pc := getBits w 20 18
  let aux := getBits w 17 15
  decide (cap < pc) || decide (cap < aux)

/-- The new word of PWR_TOK_CFG takes effect, or is discarded as a write to a sealed register. Mark: DEDUCED (log 133). -/
def State.tokCfg (s : State) (fn : Nat) (w : Word) : State :=
  let old := s.word .pwr 0x10
  if tokCfgBad w then s.refuse fn .pwr 0x10 true 1
  else
    let s := s.setWord .pwr 0x10 w
    if old.getLsbD 31 && !w.getLsbD 31 then s.grantDue
    else if !old.getLsbD 31 && w.getLsbD 31 then
      (s.setF R.PWR_TOK_STAT_LEVEL 0).doIf (s.b R.PWR_TOK_STAT_OPEN) fun s => { s with pwr := { s.pwr with refillAt := some (s.now + s.refillQ) } }
    else s

/-- PWR_TOK_CFG (R501): a run-time write; one that sets CAP below a cost is discarded as a write to a sealed register. -/
def execPwrTokCfg (t : Instant) (fn : Nat) (data : Word) (s : State) : Res :=
  match (s.start t).writeAt fn .pwr (R.PWR_TOK_CFG_EN.off 0 0) data with
  | (s, none) => .next s
  | (s, some (_, fs)) => .next (s.tokCfg fn (fs.foldl (fun w fd => applyField 0 w data fd) (s.word .pwr 0x10)))

/-! ## Demand, phases, crossings -/

/-- A bridge's duty source gives a duty (R182 to R184), a flit's with its issue tick. -/
def State.bcDemand (s : State) (x : Nat) (d : Rat) (issue : Option Nat := none) : State :=
  let s := s.setBc x { s.bc x with duty := d }
  if d < 4 / 256 then
    let s := s.tokenWithdraw (512 + x)
    let s := (s.setF R.AUX_BC_STAT_RETRIES 0 x).setBc x { s.bc x with retryAt := none, barred := false }
    s.doIf (s.bcPhase x != bcStopped) (·.bcOff x)
  else if s.bcPhase x = bcStopped then
    s.doIf (decide (8 / 256 ≤ d) && (s.bc x).retryAt.isNone && !(s.bc x).barred) (·.tokenRequest (512 + x))
  else s.doIf (s.bcPhase x == bcClosed) (·.bcApply x issue)

/-- The command window's average as the duty of the bridges that take it; a void window leaves the duty (R184). -/
def State.bcSync (s : State) : State :=
  let a := s.acc (s.f R.AUX_CMD_CFG_ACC)
  if a.resCnt = 0 then s
  else
    let d : Rat := (a.resSum : Rat) / ((65536 * a.resCnt : Nat) : Rat)
    [0, 1, 2, 3].foldl (fun s x => s.doIf (s.bcOn x && s.f R.AUX_BC_CFG_DUTY_SRC x == 1) (·.bcDemand x d)) s

/-- Compare values of a bridge that runs block commutation take effect: the first one is the duty, the others are ignored (R184, R240). Where it places no
edge its stamp is HELD or NO_EDGE on channel 0. Mark: DESIGN CHOICE (log 158). -/
def State.bcCompare (s : State) (x te : Nat) : State :=
  let T := 24 + x
  let due := (s.chan (6 * T)).wait.filter fun w => decide (w.teff ≤ te)
  let s := (List.range 6).foldl (fun s i =>
    let c := s.chan (6 * T + i)
    s.doIf (c.wait.any fun w => decide (w.teff ≤ te)) (·.setChan (6 * T + i) { c with wait := none })) s
  let s := (s.serve T te).1
  match due with
  | some w =>
    let d : Rat := if w.val.mode = .compare then ((cmpQ w.val : Nat) : Rat) / ((8 * s.top T : Nat) : Rat) else 0
    let s := s.stamp T 0 (if s.targetHeld T then 4 else 3) 0
    s.doIf (s.f R.AUX_BC_CFG_DUTY_SRC x == 0) (·.bcDemand x d (some w.issue))
  | none => s

/-- ALIGN_END (R182). -/
def execAlignEnd (t : Instant) (x : Nat) (s : State) : Res :=
  let s := s.start t
  .next (s.doIf (s.bcOn x && s.bcPhase x == bcAlign
    && decide ((s.bc x).phaseAt + s.f R.AUX_BC_START_T_ALIGN x * 10 * msQ ≤ s.now)) fun s =>
      (s.setBc x { s.bc x with step := s.bcNext x }).bcRampStart x)

/-- The next open-loop commutation is due: six times the phase run through since RAMP began has reached the next whole number. -/
def State.rampDue (s : State) (x : Nat) : Bool :=
  let b := s.bc x
  let q := s.now - b.phaseAt
  let f0 := s.f R.AUX_BC_RUN_F0 x
  let f1 := s.f R.AUX_BC_RUN_F1 x
  let T := s.f R.AUX_BC_START_T_RAMP x * 10 * msQ
  decide ((b.made + 1) * 2 * T * secQ ≤ 6 * (2 * f0 * q * T + (f1 - f0) * q * q))

/-- COMMUTATION (R181, R182). -/
def execCommutation (t : Instant) (x : Nat) (s : State) : Res :=
  let s := s.start t
  .next (s.doIf (s.bcOn x && (s.bcPhase x == bcClosed && (s.bc x).due.any (fun d => decide (d ≤ s.now))
    || s.bcPhase x == bcRamp && s.rampDue x)) (·.bcCommutate x))

/-- The interval that an accepted crossing ends, where the crossing before it is known (R181). -/
def State.crossInterval (s : State) (x : Nat) : Option Nat :=
  if (s.bc x).crossedBefore || s.bcPhase x == bcClosed then some (s.now - (s.bc x).crossAt) else (s.bc x).interval

/-- INTERVAL reports the last interval (R181). -/
def State.showInterval (s : State) (x : Nat) (iv : Option Nat) : State :=
  match iv with
  | some n => s.setF R.AUX_BC_STAT_INTERVAL (satN 24 (n / usQ)) x
  | none => s

/-- The loop closes (R182). -/
def State.bcClose (s : State) (x : Nat) : State := (s.setF R.AUX_BC_STAT_PHASE bcClosed x).post E.BC_CLOSED (subject x)

/-- The interval a commutation is derived from: a free value where none has been measured. -/
def State.commInterval (s : State) : Option Nat → State × Nat
  | some n => (s, n)
  | none => (s.draw.1, (Config.freeWord s.draw.2).toNat)

/-- The commutation that follows the crossing of this instant, and drives the bridge where the loop has just closed (R181). -/
def State.scheduleComm (s : State) (x : Nat) (close : Bool) (n : Nat) : State :=
  (s.setBc x { s.bc x with interval := some n, due := some (s.now + (128 - s.f R.AUX_BC_CFG_ADV x) * n / 256) }).doIf close (·.bcApply x)

/-- An accepted crossing (R180 to R182). Mark: DESIGN CHOICE (log 60), DEDUCED (log 61). -/
def State.zeroCross (s : State) (x : Nat) : State :=
  let iv := s.crossInterval x
  let close := s.bcPhase x == bcRamp && decide (s.f R.AUX_BC_CFG_N_ZC x + 1 ≤ (s.bc x).run + 1)
  let v := ((s.showInterval x iv).setBc x { s.bc x with crossed := true, crossAt := s.now, run := (s.bc x).run + 1, interval := iv }).doIf close
    (·.bcClose x)
  if v.bcPhase x = bcClosed then (v.commInterval iv).1.scheduleComm x close (v.commInterval iv).2 else v

/-- The side of the virtual neutral on which the floating phase of a step ends up: it falls in the even steps of the forward sequence and rises in the
odd ones, and the other way round in reverse. Mark: PRESUMED (log 59). -/
def State.expectSide (s : State) (x : Nat) : Bool := ((s.bc x).step % 2 == 1) != s.b R.AUX_BC_CFG_DIR x

/-- The end of the blanking after the last commutation. -/
def State.blankEnd (s : State) (x : Nat) : Instant := (s.bc x).commAt + s.f R.AUX_BC_CFG_BLANK x * (s.bc x).interval.getD 0 / 256

/-- The last of the comparator's samples of a step accepts a crossing: ZC_FILT + 1 in a row on the new side, outside the blanking (R180). -/
def State.crossAccepted (s : State) (x : Nat) (samples : List (Instant × Bool)) : Bool :=
  let run := ((samples.filter fun a => decide (s.blankEnd x ≤ a.1)).reverse).takeWhile fun a => a.2 == s.expectSide x
  decide (s.f R.AUX_BC_CFG_ZC_FILT x + 1 ≤ run.length) && (samples.getLast?).any fun a => a.1 == s.now

/-- Samples follow one another within the present step. -/
def State.samplesOk (s : State) (x : Nat) : Instant → List (Instant × Bool) → Bool
  | _, [] => true
  | a, b :: bs => decide (a < b.1) && s.samplesOk x b.1 bs

/-- ZERO_CROSS (R180): `samples` are those of the comparator since the last commutation, at the centres of the chopping on-times, true above the virtual
neutral; the last one, of this instant, accepts a crossing. Once a step. Mark: DESIGN CHOICE (log 60). -/
def execZeroCross (t : Instant) (x : Nat) (samples : List (Instant × Bool)) (s : State) : Res :=
  let s := s.start t
  .next (s.doIf (s.bcOn x && (s.bcPhase x == bcRamp || s.bcPhase x == bcClosed) && !(s.bc x).crossed
    && s.samplesOk x (s.bc x).commAt samples && s.crossAccepted x samples) (·.zeroCross x))

/-- RAMP_END (R182). -/
def execRampEnd (t : Instant) (x : Nat) (s : State) : Res :=
  let s := s.start t
  .next (s.doIf (s.bcOn x && s.bcPhase x == bcRamp
    && decide ((s.bc x).phaseAt + s.f R.AUX_BC_START_T_RAMP x * 10 * msQ ≤ s.now)) (·.bcFail x))

/-- BC_STALL (R183). -/
def execBcStall (t : Instant) (x : Nat) (s : State) : Res :=
  let s := s.start t
  let b := s.bc x
  .next (s.doIf (s.bcOn x && s.bcPhase x == bcClosed && !b.crossed && decide (b.commAt + 2 * b.interval.getD 0 ≤ s.now)) fun s =>
    (s.raise R.AUX_BC_STAT_STALL x E.BC_STALL (subject x)).bcFail x)

/-- BC_RETRY (R183). -/
def execBcRetry (t : Instant) (x : Nat) (s : State) : Res :=
  let s := s.start t
  .next (s.doIf (s.bcOn x && s.bcPhase x == bcStopped && (s.bc x).retryAt.any (fun r => decide (r ≤ s.now))) fun s =>
    (s.setBc x { s.bc x with retryAt := none }).tokenRequest (512 + x))

/-! ## The command input -/

/-- CMD_IN produces conversions in a mode. -/
def State.cmdOn (s : State) (mode : Nat) : Bool := s.sealed && s.b R.AUX_CMD_CFG_EN && s.f R.AUX_CMD_CFG_MODE == mode

/-- A conversion of CMD_IN enters its accumulator and tracker (R187), and a window it closes gives a duty (R184). -/
def State.cmdCode (s : State) (code : Nat) : State :=
  ((s.deliver [{ acc := routeTo (s.b R.AUX_CMD_CFG_ACC_EN) (s.f R.AUX_CMD_CFG_ACC), mmt := routeTo (s.b R.AUX_CMD_CFG_MMT_EN) (s.f R.AUX_CMD_CFG_MMT),
                 code := code }]).bcSync).settle

def State.setCmd (s : State) (c : CmdSt) : State := { s with pwm := { s.pwm with cmd := c } }

/-- CMD_ANALOGUE_CONVERSION (R185): `vin` in nV, every (RATE + 1) µs. -/
def execCmdAnalogueConversion (t : Instant) (vin : Int) (s : State) : Res :=
  let s := s.start t
  .next (s.doIf (s.cmdOn 0 && decide (s.pwm.cmd.lastAt + (s.f R.AUX_CMD_CFG_RATE + 1) * usQ ≤ s.now)) fun s =>
    (s.setCmd { s.pwm.cmd with lastAt := s.now }).cmdCode (sarCode vin 0))

/-- The time that a level must last to count (R185). -/
def State.cmdFilt (s : State) : Nat := (s.f R.AUX_CMD_CFG_FILT + 1) * 20 * nsQ

/-- The level at the pin is accepted if it has lasted long enough by an instant. A rising edge that this makes ends a period: the time from the rising edge
before it, and how long the pin was high of it. -/
def CmdSt.accept (c : CmdSt) (filt : Nat) (t : Instant) : CmdSt × List (Nat × Nat) :=
  if c.raw = c.level ∨ t < c.rawAt + filt then (c, [])
  else if !c.raw then ({ c with level := false, fallAt := c.rawAt }, [])
  else
    let per := c.riseAt.map fun r => c.rawAt - r
    let c' := { c with level := true, riseAt := some c.rawAt, quietAt := c.rawAt, statics := 0, per := if per.isSome then per else c.per }
    (c', match c.riseAt with
      | some r => [(c.rawAt - r, c.fallAt - r)]
      | none => [])

/-- A change of the level at the pin. -/
def CmdSt.change (c : CmdSt) (filt : Nat) (e : Instant × Bool) : CmdSt × List (Nat × Nat) :=
  let r := c.accept filt e.1
  (if e.2 = r.1.raw then r.1 else { r.1 with raw := e.2, rawAt := e.1 }, r.2)

/-- The changes of the level at the pin up to an instant, past the glitch filter, and the periods that end. Mark: DEDUCED (log 62). -/
def CmdSt.feed (c : CmdSt) (filt : Nat) (wave : List (Instant × Bool)) (t : Instant) : CmdSt × List (Nat × Nat) :=
  let r := wave.foldl (fun (a : CmdSt × List (Nat × Nat)) e => let b := a.1.change filt e; (b.1, a.2 ++ b.2)) (c, [])
  let b := r.1.accept filt t
  (b.1, r.2 ++ b.2)

/-- The code of a period of duty mode, or RANGE (R185). -/
def State.dutyCode (s : State) (p : Nat × Nat) : State :=
  if 50 * usQ ≤ p.1 ∧ p.1 ≤ 1000 * usQ then s.cmdCode (min 65535 (65536 * p.2 / p.1))
  else s.raise R.AUX_CMD_STAT_RANGE 0 E.CMD_RANGE 0

/-- CMD_DUTY_EDGE (R185): `wave` are the changes of the level at CMD_IN since the last command of the input. Each rising edge that counts, past the glitch
filter, ends a period; the first one only starts one. Mark: DEDUCED (log 62). -/
def execCmdDutyEdge (t : Instant) (wave : List (Instant × Bool)) (s : State) : Res :=
  let s := s.start t
  .next (s.doIf (s.cmdOn 1) fun s =>
    let r := s.pwm.cmd.feed s.cmdFilt wave s.now
    r.2.foldl (fun s p => s.dutyCode p) (s.setCmd r.1))

/-- The code of a gate (R185): the latest complete period, unless no rising edge has come within the last second. A period or a full scale of 0 leaves
the quotient open. -/
def State.gateCode (s : State) : State × Nat :=
  let c := s.pwm.cmd
  let ffs := s.f R.AUX_CMD_SCALE_F_FS
  match c.riseAt, c.per with
  | some r, some p =>
    if r + secQ < s.now then (s, 0)
    else if p = 0 ∨ ffs = 0 then (s.draw.1, (Config.freeWord s.draw.2).toNat % 65536)
    else (s, min 65535 (65536 * secQ / (p * ffs)))
  | _, _ => (s, 0)

/-- CMD_FREQUENCY_GATE (R185): the gate ends; `wave` are the changes of the level at CMD_IN since the last command of the input. Mark: DEDUCED (log 62). -/
def execCmdFrequencyGate (t : Instant) (wave : List (Instant × Bool)) (s : State) : Res :=
  let s := s.start t
  .next (s.doIf (s.cmdOn 2 && decide (s.pwm.cmd.lastAt + (s.f R.AUX_CMD_CFG_RATE + 1) * 100 * usQ ≤ s.now)) fun s =>
    let s := s.setCmd (s.pwm.cmd.feed s.cmdFilt wave s.now).1
    let r := s.gateCode
    (r.1.setCmd { r.1.pwm.cmd with lastAt := s.now }).cmdCode r.2)

/-- CMD_STATIC (R186): 2 ms without a rising edge, or since the input was enabled, and every millisecond from there, the pin's level makes a code.
`wave` are the changes of the level at CMD_IN since the last command of the input. Mark: DEDUCED (log 62). -/
def execCmdStatic (t : Instant) (wave : List (Instant × Bool)) (s : State) : Res :=
  let s := s.start t
  .next (s.doIf (s.cmdOn 1) fun s =>
    let r := s.pwm.cmd.feed s.cmdFilt wave s.now
    let s := r.2.foldl (fun s p => s.dutyCode p) (s.setCmd r.1)
    let c := s.pwm.cmd
    s.doIf (decide (c.quietAt + (2 + c.statics) * msQ ≤ s.now)) fun s =>
      let s := s.setCmd { c with statics := c.statics + 1 }
      let s := if c.level then s.raise R.AUX_CMD_STAT_STATIC_HI 0 E.CMD_STATIC 0 1 else s.raise R.AUX_CMD_STAT_STATIC_LO 0 E.CMD_STATIC 0 0
      s.cmdCode (if c.level then 65535 else 0))

end Sys2Proof.Machine
end

