-- ==== Sys2Proof/Machine/Clk.lean ====
section
/-! DEFINITION. CLK: references, the three PLLs with their slots, hops and holdover, the servo's steering of PLL_PWM, SYNC_IN, and
the pod clocks (R448 to R463). PLLs are numbered 0 PLL_CORE, 1 PLL_PWM, 2 PLL_IO; references 0 REFCLK, 1 XTAL. -/
namespace Sys2Proof.Machine

/-- A PLL. -/
def State.pll (s : State) (p : Nat) : PllSt := kget {} s.clk.plls p

/-- Replace a PLL. -/
def State.setPll (s : State) (p : Nat) (x : PllSt) : State :=
  { s with clk := { s.clk with plls := kset {} s.clk.plls p x } }

/-- The status bit of a reference. -/
def refOkF (ref : Nat) : FRef := if ref = 0 then R.CLK_STAT_REFCLK_OK else R.CLK_STAT_XTAL_OK

/-- A reference is qualified (R449). -/
def State.refOk (s : State) (ref : Nat) : Bool := s.b (refOkF ref)

/-- STATE codes of CLK_PLL_STAT. -/
abbrev pllCal : Nat := 0
abbrev pllLocked : Nat := 1
abbrev pllHold : Nat := 2
abbrev pllRelock : Nat := 3

/-- STATE of a PLL. -/
def State.pllState (s : State) (p : Nat) : Nat := s.f R.CLK_PLL_STAT_STATE p

/-- The integer setting of the boot reference (R451). -/
def bootN (p strap : Nat) : Nat := if strap = 0 then (if p = 0 then 60 else 40) else (if p = 0 then 240 else 160)

/-- The divider of the setting in use, in FRAC steps: the active slot's, or the boot setting's. -/
def State.pllBase (s : State) (p : Nat) : Nat :=
  if (s.pll p).boot then bootN p (s.f R.CLK_STAT_STRAP) * 2 ^ 24
  else
    let k := s.f R.CLK_PLL_STAT_SLOT p
    s.f R.CLK_SLOT_A_N p k * 2 ^ 24 + s.f R.CLK_SLOT_F_FRAC p k

/-- Show a divider in force. -/
def State.showDiv (s : State) (p div : Nat) : State :=
  (s.setF R.CLK_PLL_DIV_N (div / 2 ^ 24) p).setF R.CLK_PLL_DIV_FRAC (div % 2 ^ 24) p

/-- Load the divider of the setting in use, with the servo's offset on PLL_PWM (R461): the whole FRAC steps are added, and the part
below one step is carried to the next update. -/
def State.loadDiv (s : State) (p : Nat) : State :=
  let base := s.pllBase p
  if p != 1 then s.showDiv p base
  else
    let x : Rat := (base : Rat) * (1 + s.clk.corr) + s.clk.carry
    { s.showDiv p x.floor.toNat with clk := { s.clk with carry := x - x.floor } }

/-- The servo's correction of PLL_PWM, limited to ±200 ppm with FREQ_CLAMP (R461). -/
def State.steer (s : State) (f : Rat) : State :=
  let lim : Rat := 200 / 1000000
  let g := if f > lim then lim else if f < -lim then -lim else f
  let s := { s with clk := { s.clk with corr := g } }
  let s := if lim ≤ f ∨ f ≤ -lim then s.raise R.CLK_PLL_STAT_FREQ_CLAMP 1 E.FREQ_CLAMP (subject 1)
    else s.setB R.CLK_PLL_STAT_FREQ_CLAMP false 1
  s.loadDiv 1

/-- A PLL enters HOLDOVER: frozen, counted, reported (R458). -/
def State.enterHold (s : State) (p : Nat) : State :=
  let s := (((s.setF R.CLK_PLL_STAT_STATE pllHold p).setB R.CLK_PLL_STAT_HOLD_SEEN true p).incF R.CLK_PLL_CNT_HOLDOVERS 1 p).post
    E.PLL_HOLDOVER (subject p)
  s.setPll p { s.pll p with holdAt := s.now }

/-- A PLL enters RELOCKING (R458). -/
def State.enterRelock (s : State) (p : Nat) : State :=
  (s.setF R.CLK_PLL_STAT_STATE pllRelock p).setPll p { s.pll p with relockAt := s.now }

/-- A PLL that is calibrated follows its reference. -/
def State.pllFollows (s : State) (p : Nat) : Bool := s.pllState p == pllLocked || s.pllState p == pllRelock

/-- A reference window is valid (R449): its edges in 100 µs within ±10 % of nominal, and no gap between them over 1 µs (`gap` in ns). -/
def refWindowOk (ref gap edges : Nat) : Bool :=
  let n := if ref = 0 then 10000 else 2500
  decide (gap ≤ 1000) && decide (9 * n ≤ 10 * edges) && decide (10 * edges ≤ 11 * n)

/-- REF_LOST (R449, R458): the first gap over 1 µs or invalid window, by the longest gap in ns and the edges in 100 µs; every PLL that follows the
reference enters HOLDOVER. -/
def execRefLost (t : Instant) (ref gap edges : Nat) (s : State) : Res :=
  let s := s.start t
  .next (s.doIf (!s.inReset && decide (ref < 2) && s.refOk ref && !refWindowOk ref gap edges) fun s =>
    let s := (s.setB (refOkF ref) false).post E.REF_LOST (subject ref)
    let s := { s with clk := { s.clk with lost := putBit s.clk.lost ref true, lostAt := kset 0 s.clk.lostAt ref s.now } }
    [0, 1, 2].foldl (fun s p => s.doIf (s.pllFollows p && (s.pll p).ref == ref) (·.enterHold p)) s)

/-- The PLLs lock on their integer boot settings and their outputs but PLL_PWM's ungate; all pods run at 500 MHz (Table 15.4). -/
def State.bootClocks (s : State) : State :=
  let strap := s.f R.CLK_STAT_STRAP
  [0, 1, 2].foldl (fun s p =>
    let s := s.setPll p { ref := strap, copyAt := s.now }
    ((s.setF R.CLK_PLL_STAT_STATE pllLocked p).setF R.CLK_PLL_STAT_SLOT 0 p).loadDiv p) (s.setB R.CLK_STAT_NOREF false)

/-- A PLL begins a hop to a slot, from HOLDOVER (R454). Mark: DEDUCED (log 127). -/
def State.beginHop (s : State) (p slot : Nat) : State :=
  let s := s.doIf (s.pllState p != pllHold) (·.enterHold p)
  s.setPll p { s.pll p with hop := some slot }

/-- What the qualification of a reference does to a PLL after a loss (R458): its active reference is back, or REVERT takes it from
BACKUP_SLOT to INIT_SLOT. -/
def State.refBack (s : State) (p ref : Nat) : State :=
  let init := s.f R.CLK_PLL_CFG_INIT_SLOT p
  let slot := s.f R.CLK_PLL_STAT_SLOT p
  if (s.pll p).ref = ref then s.doIf (s.pllState p == pllHold && (s.pll p).hop.isNone) (·.enterRelock p)
  else s.doIf (s.b R.CLK_CTL_REVERT && !(s.pll p).boot && s.pllState p != pllCal && slot == s.f R.CLK_PLL_CFG_BACKUP_SLOT p
      && s.f R.CLK_SLOT_A_REFSEL p init == ref && slot != init) (·.beginHop p init)

/-- LOCK_LOST (R458): a phase error above 500 ps at four consecutive reference edges (`errs`, in ps) with the reference valid; HOLDOVER, and
RELOCKING at once. Mark: DESIGN CHOICE (log 138). -/
def execLockLost (t : Instant) (p : Nat) (errs : List Nat) (s : State) : Res :=
  let s := s.start t
  .next (s.doIf (!s.inReset && decide (p < 3) && s.pllState p == pllLocked && s.refOk (s.pll p).ref && errs.length == 4
      && errs.all fun e => decide (500 < e)) fun s =>
    (((s.setB R.CLK_PLL_STAT_LOCK_LOST_SEEN true p).post E.LOCK_LOST (subject p)).enterHold p).enterRelock p)

/-- BACKUP_HOP (R458): 100 µs in HOLDOVER with BACKUP_EN and the backup reference qualified. -/
def execBackupHop (t : Instant) (p : Nat) (s : State) : Res :=
  let s := s.start t
  let k := s.f R.CLK_PLL_CFG_BACKUP_SLOT p
  let x := s.pll p
  .next (s.doIf (!s.inReset && decide (p < 3) && s.b R.CLK_CTL_BACKUP_EN && s.pllState p == pllHold && x.hop.isNone && !x.boot
      && s.f R.CLK_PLL_STAT_SLOT p != k && s.refOk (s.f R.CLK_SLOT_A_REFSEL p k) && decide (x.holdAt + 100 * usQ ≤ s.now)) (·.beginHop p k))

/-- A slot's setting is in use: its divider and its reference. Mark: DEDUCED (log 99). -/
def State.takeSlot (s : State) (p k : Nat) : State :=
  let ref := s.f R.CLK_SLOT_A_REFSEL p k
  let s := s.setPll p { s.pll p with boot := false, ref := ref, hop := none }
  let s := (s.setF R.CLK_PLL_STAT_SLOT k p).doIf (p == 1) (·.setF R.CLK_STAT_REF_ACTIVE ref)
  s.loadDiv p

/-- A hop completes (R454): counted, reported, and the loop closes unless the new reference is lost. Mark: DEDUCED (log 127). -/
def State.endHop (s : State) (p k : Nat) : State :=
  let s := ((s.takeSlot p k).incF R.CLK_PLL_CNT_HOPS 1 p).post E.SLOT_HOP (subject p)
  s.doIf (s.refOk (s.pll p).ref) (·.enterRelock p)

/-- SLOT_HOP (R454): the hop under way completes. -/
def execSlotHop (t : Instant) (p : Nat) (s : State) : Res :=
  let s := s.start t
  .next (match (s.pll p).hop with
    | some k => s.doIf (!s.inReset && decide (p < 3)) (·.endHop p k)
    | none => s)

/-- PLL_RELOCKED (R458): 1,024 reference edges with a phase error of ±50 ps or less; `worst`: the greatest among them in ps. Mark: DESIGN CHOICE
(log 138). -/
def execPllRelocked (t : Instant) (p worst : Nat) (s : State) : Res :=
  let s := s.start t
  let span := 1024 * (if (s.pll p).ref = 0 then 10 else 40) * nsQ
  .next (s.doIf (!s.inReset && decide (p < 3) && s.pllState p == pllRelock && decide (worst ≤ 50) && decide ((s.pll p).relockAt + span ≤ s.now)) fun s =>
    (s.setF R.CLK_PLL_STAT_STATE pllLocked p).post E.PLL_RELOCKED (subject p))

/-- BAND_COPY (R454): every 10 s a LOCKED PLL copies the band and the tuning code in use into its valid slots. -/
def execBandCopy (t : Instant) (p band code : Nat) (s : State) : Res :=
  let s := s.start t
  .next (s.doIf (!s.inReset && decide (p < 3) && s.pllState p == pllLocked && decide ((s.pll p).copyAt + 10 * secQ ≤ s.now)) fun s =>
    let ks := (List.range 8).filter fun k => s.b R.CLK_SLOT_A_VALID p k
    let s := ks.foldl (fun s k => s.setF R.CLK_SLOT_A_BAND band p k) s
    s.setPll p { s.pll p with copyAt := s.now, tune := ks.foldl (fun m k => kset 0 m k code) (s.pll p).tune })

/-- SYNC_EDGE (R455, R456): a rising edge of SYNC_IN sampled at a REFCLK edge. While SEAL waits for it, it is the edge the ungating
counts from; after ungating it stores the distance to the next tick in eighths of a tick. -/
def execSyncEdge (t : Instant) (s : State) : Res :=
  let s := s.start t
  .next (if s.inReset || !s.refOk 0 then s
    else match s.clk.ungatedAt with
      | some e => (s.setF R.CLK_SYNC_STAT_SYNC_PH ((8 - (s.now - e) % 8) % 8)).setB R.CLK_SYNC_STAT_SYNC_SEEN true
      | none => s.doIf (s.clk.syncWait.isSome && s.clk.syncAt.isNone) fun s => { s with clk := { s.clk with syncAt := some s.now } })

/-! ## Pod clocks (R459, R460) -/

/-- The realised pod clock in kHz of a programmed clock in MHz: 6,000 MHz by D = floor(4,096 × 6,000 ÷ f) ÷ 4,096. Mark: DEDUCED (log 111). -/
def podKhz (mhz : Nat) : Nat := 24576000000 / (24576000 / mhz)

/-- A pod clock is in force. -/
def State.setPodClk (s : State) (pod mhz : Nat) : State :=
  (s.setF R.CLK_POD_MHZ mhz pod).setF R.CLK_POD_KHZ (podKhz mhz) pod

/-- A kernel of the pod holds LOOP, OBSERVER or SAFETY. -/
def State.podHasRole (s : State) (pod : Nat) : Bool :=
  s.sea.roles.any fun x => x.1 / 16 == pod && (x.2 == 1 || x.2 == 2 || x.2 == 5)

/-- The RESULT a pod clock request is refused with (R460). Mark: DEDUCED (log 125). -/
def State.podRefusal (s : State) (pod mhz : Nat) : Option Nat :=
  if s.podHasRole pod then some 1
  else if s.loop.mig.any fun m => m.srcPod == pod || m.dstPod == pod then some 2
  else if s.clk.podReq.isSome then some 3
  else if mhz < 250 ∨ 1000 < mhz ∨ 24 ≤ pod then some 4
  else none

/-- GO past the access check. -/
def State.doGo (s : State) : State :=
  let pod := s.f R.CLK_POD_REQ_POD
  let mhz := s.f R.CLK_POD_REQ_MHZ
  match s.podRefusal pod mhz with
  | some r => ((s.setF R.CLK_POD_REQ_STAT_RESULT r).setB R.CLK_POD_REQ_STAT_DONE true).post E.POD_CLK_REFUSED (subject pod) (nw r)
  | none =>
    let s := { s with clk := { s.clk with podReq := some (pod, mhz) } }
    (s.setF R.CLK_POD_REQ_STAT_RESULT 0).setB R.CLK_POD_REQ_STAT_BUSY true

/-- GO (R460): a write that sets CLK_POD_REQ.GO. -/
def execGo (t : Instant) (fn : Nat) (data : Word) (s : State) : Res :=
  match (s.start t).actionWrite fn R.CLK_POD_REQ_GO data with
  | (s, go) => .next (s.doIf go (·.doGo))

/-- POD_CLK_CHANGED (R460): the accepted change completes. -/
def execPodClkChanged (t : Instant) (s : State) : Res :=
  let s := s.start t
  .next (match s.clk.podReq with
    | some (pod, mhz) =>
      let s := { s with clk := { s.clk with podReq := none } }
      let s := ((s.setPodClk pod mhz).setB R.CLK_POD_REQ_STAT_BUSY false).setF R.CLK_POD_REQ_STAT_RESULT 0
      (s.setB R.CLK_POD_REQ_STAT_DONE true).post E.POD_CLK_CHANGED (subject pod)
    | none => s)

end Sys2Proof.Machine
end

