-- ==== Sys2Proof/Machine/Eval.lean ====
section
/-! DEFINITION. One evaluation of a loop context: the steps of R118 with hand-over, crossfade, actuation, age records, following
error and life record (R118 to R143, R188, R235, R265). -/
namespace Sys2Proof.Machine

/-! ## Step 1: the parameter transaction (R148) -/

/-- A value limited by words, an infinite word limiting nothing. -/
def clampWords (v : Num) (lo hi : Word) : Num :=
  let v := match f32Num lo, v with
    | .fin l, .fin q => Num.fin (if q < l then l else q)
    | .fin l, .inf true => Num.fin l
    | _, v => v
  match f32Num hi, v with
  | .fin h, .fin q => .fin (if h < q then h else q)
  | .fin h, .inf false => .fin h
  | _, v => v

/-- SAT of one integrator (R119). -/
def CtxSt.sat (x : CtxSt) (g : IntegDef) : CtxSt :=
  { x with states := x.states.set g.state (clampWords (x.states.getD g.state (.fin 0)) (x.params.getD g.lo 0) (x.params.getD g.hi 0)) }

/-- The words of a transaction take effect: set-points ramp, other words change at once, and changed limits clamp. -/
def CtxSt.applyTxn (x : CtxSt) (t : Txn) : CtxSt :=
  let x := t.words.foldl (fun x w =>
    if (x.desc.params[w.1]?).any (·.setpoint) then x.writeSetpoint w.1 w.2 else { x with params := x.params.set w.1 w.2 }) x
  (x.desc.integs.filter fun g => t.words.any fun w => w.1 == g.lo || w.1 == g.hi).foldl (fun x g => x.sat g) x

/-- Apply a transaction that has become due; answers whether it held LAW_SEL. Under the host-loss fallback one that writes set-point
words takes no effect (R396). -/
def State.evalTxn (s : State) (c : Nat) : State × Bool :=
  let x := s.ctx c
  match x.txn with
  | some t =>
    if x.txnReady && t.landed && ntLe t.apply x.trigNt && x.fallback != 0 && x.writesSetpoint t.words then
      let s := (s.setCtx c { x with txn := none, sent := none }).agentReply c t.tag 0x19 0 s.shortTs
      (s.forwardTxn c, false)
    else if x.txnReady ∧ t.landed ∧ ntLe t.apply x.trigNt then
      let s := s.setCtx c { x.applyTxn t with txn := none, sent := none }
      let s := s.doIf (t.words.any fun w => w.1 == 152 || w.1 == 153) (·.bmsRefresh c)
      let s := s.agentReply c t.tag 0 0 x.trigTs
      (s.forwardTxn c, t.words.any fun w => w.1 == 0)
    else (s, false)
  | none => (s, false)

/-! ## Hand-over causes (R134, R135, R139, R149) -/

/-- Change the active variant; a change between the grid modes brings its angles and its cause (R208). Answers the causes. -/
def State.setVariant (s : State) (c v cause : Nat) : State × Nat :=
  if s.f R.LOOP_CTX_STAT_VAR c = v then (s, 0)
  else
    let was := s.gridForming c
    let s := s.setF R.LOOP_CTX_STAT_VAR v c
    let now := s.gridForming c
    if (s.ctx c).section_ 1 && was != now then (s.gridModeInit c now, cause ||| 16) else (s, cause)

/-- LAW_SEL of an applied transaction: the variant, and the selection of the ACTIVE partner. Answers the causes. -/
def State.lawSel (s : State) (c : Nat) : State × Nat :=
  let w := s.pword c 0
  let (s, k) := s.setVariant c (getBits w 1 0) 4
  if (s.partner c).isNone then (s, k)
  else
    let mine := (getBits w 8 8 == 1) == (s.ctxKind c == kindInner)
    let st := s.ctxState c
    if mine ∧ st = stShadow then (s, k ||| 2)
    else if !mine ∧ st = stActive then
      (s.setCtxState c (if s.partnerHealthy c then stShadow else stStopped), k ||| 2)
    else (s, k)

/-! ## Preload and disagreement (R132, R136, R137) -/

/-- (y − r) ÷ g as a float32 result. -/
def preloadValue (y r : Num) (g : Rat) : Num :=
  match y, r with
  | .nan, _ | _, .nan => .nan
  | .fin a, .fin b => .fin (rnd ((a - b) / g))
  | .fin _, .inf n => .inf (if g < 0 then n else !n)
  | .inf n, .fin _ => .inf (if g < 0 then !n else n)
  | .inf n, .inf m => if n = m then .nan else .inf (if g < 0 then !n else n)

/-- Preload the integrators toward outputs `yOut`, with the law's outputs `r` for zero integrators, and the states that preload
routines set; each clamps by SAT. -/
def CtxSt.preload (x : CtxSt) (yOut r : List Num) (routine : List (Nat × Num)) : CtxSt :=
  let x := (x.desc.outputs.zipIdx).foldl (fun x o =>
    match x.desc.integs[o.1.preload]? with
    | some g =>
      if o.1.preload = 255 then x
      else
        let v := preloadValue (yOut.getD o.2 (.fin 0)) (r.getD o.2 (.fin 0)) (f32 o.1.gain)
        ({ x with states := x.states.set g.state v }).sat g
    | none => x) x
  let x := routine.foldl (fun x v => { x with states := x.states.set v.1 v.2 }) x
  (x.desc.integs.filter fun g => routine.any fun v => v.1 == g.state).foldl (fun x g => x.sat g) x

end Sys2Proof.Machine

namespace Sys2Proof

/-- Low and high end of an output's range (R138). -/
def OutputDef.ends (o : OutputDef) : Rat × Rat := (if o.kind = 2 then -(Machine.f32 o.range) else 0, Machine.f32 o.range)

/-- An output limited to its range. -/
def OutputDef.limit (o : OutputDef) (y : Num) : Num := y.clamp o.ends.1 o.ends.2

end Sys2Proof

namespace Sys2Proof.Machine

/-- A float32 value over a range. -/
def overRange (d : Num) (r : Rat) : Num :=
  match d with
  | .fin q => .fin (rnd (q / r))
  | d => d

/-- D of R137; infinite where the incoming law's output is. -/
def CtxSt.disagreement (x : CtxSt) (yIn yOut : List Num) : Num :=
  (x.desc.outputs.zipIdx).foldl (fun d o =>
    d.max (overRange ((yIn.getD o.2 (.fin 0)).sub (yOut.getD o.2 (.fin 0))).abs (f32 o.1.range))) (.fin 0)

/-- N_eff for a disagreement beyond DIS_LIM (R137). -/
def crossfadeLen (d : Num) (nxf rate : Nat) : Nat :=
  match d with
  | .fin q => min 256 (max nxf (1024 * q / (rate : Rat)).ceil.toNat)
  | _ => 256

/-- A hand-over takes effect: preload, disagreement, crossfade length; both following-error counters restart (R136 to R142). -/
def State.handOver (s : State) (c : Nat) (yOut : List Num) (l : LawOut) : State :=
  let s := s.modCtx c fun x => x.preload yOut l.r l.routine
  let x := s.ctx c
  let d := x.disagreement l.y yOut
  let nxf := s.f R.LOOP_CTX_HO_N_XF c
  let far := (Num.fin ((s.f R.LOOP_CTX_HO_DIS_LIM c : Rat) / 128)).lt d
  let n := if far then crossfadeLen d nxf (s.f R.LOOP_CTX_HO_XF_RATE c) else nxf
  let s := s.doIf far (·.raise R.LOOP_CTX_STAT_DISAGREE c E.HANDOVER_DISAGREE (subject c) (numWord d))
  (s.modCtx c fun x => { x with xfN := n, xfDone := 0, xfFrom := yOut, fe0 := 0, fe1 := 0 }).disturbMig c

/-- The outputs that the last ACT_OUT carried, in output order; they are open where none has come. Mark: DESIGN CHOICE (log 154). -/
def State.actOutputs (s : State) (c : Nat) : State × List Num :=
  let x := s.ctx c
  let n := x.desc.outputs.length
  match x.actIn with
  | some ws => (s, (List.range n).map fun j => f32Num (ws.getD j 0))
  | none => ({ s with free := s.free + n }, (List.range n).map fun j => .fin (Config.noOutput (s.free + j)))

/-- What an outer context's set-points should be while its inner context is in SHADOW (R132). -/
def State.outerTarget (s : State) (c i : Nat) : List Num :=
  let x := s.ctx c
  let inner := s.ctx i
  let mine := (x.desc.outputs.zipIdx).filter fun o => o.1.kind == 2 && o.1.idx == i
  (x.desc.outputs.zipIdx).map fun o =>
    match mine.findIdx? (fun m => m.2 == o.2) with
    | none => x.yOut.getD o.2 (.fin 0)
    | some k =>
      match inner.desc.inputs.find? (fun d => d.kind == 6 && d.fb != 255 && decide (d.src ≤ k) && decide (k < d.src + 5)) with
      | some d => .fin (kget {} inner.inputs d.fb).val
      | none => x.yOut.getD o.2 (.fin 0)

/-- Tracking in SHADOW, and the preload of an outer context whose inner context is in SHADOW (R132). -/
def State.track (s : State) (c : Nat) (l : LawOut) : State :=
  if s.ctxState c = stShadow then
    s.doIf (s.b R.LOOP_CTX_SHADOW_TRACK c && !(s.ctx c).actMissing) fun s =>
      let r := s.actOutputs c
      r.1.modCtx c fun x => x.preload r.2 l.r l.routine
  else
    match s.innerOf c with
    | some i => s.doIf (s.ctxState i == stShadow) fun s => s.modCtx c fun x => x.preload (s.outerTarget c i) l.r l.routine
    | none => s

/-! ## Steps 3 and 4: states and outputs (R119, R138) -/

/-- The increment of a state under COND (R119). -/
def CtxSt.condInc (x : CtxSt) (g : IntegDef) (dx : Num) : Num :=
  let l := x.lim.getD g.out 0
  let sg : Int := match dx with
    | .fin q => if q < 0 then -1 else if 0 < q then 1 else 0
    | .inf n => if n then -1 else 1
    | .nan => 0
  if g.mode = 1 ∧ g.out ≠ 255 ∧ l ≠ 0 ∧ sg = l then .fin 0 else dx

/-- The states after the law: increments, back-calculation and SAT. -/
def CtxSt.stepStates (x : CtxSt) (l : LawOut) : CtxSt :=
  let next := (x.states.zipIdx).map fun v =>
    let dx := l.dx.getD v.2 (.fin 0)
    match x.desc.integs.find? (fun g => g.state == v.2) with
    | none => v.1.add dx
    | some g =>
      let v1 := v.1.add (x.condInc g dx)
      if g.mode = 2 ∧ g.out ≠ 255 then
        match x.desc.outputs[g.out]? with
        | some o => let u := l.y.getD g.out (.fin 0); v1.add ((f32Num g.kb).mul ((o.limit u).sub u))
        | none => v1
      else v1
  x.desc.integs.foldl (fun x g => x.sat g) { x with states := next }

/-- The leg whose value the modulation stage forms at an output: the high channel of a leg of the drive's slot; 3 for its low channels. -/
def CtxSt.modLeg (x : CtxSt) (o : OutputDef) : Option Nat :=
  if !x.drv.vals.isEmpty && o.kind == 0 && o.idx / 6 == x.drvCfg 12 8 then some (if o.idx % 2 = 0 then o.idx % 6 / 2 else 3) else none

/-- The law's outputs with the values of the modulation stage in their places. -/
def CtxSt.withStage (x : CtxSt) (l : LawOut) : LawOut :=
  { l with y := (x.desc.outputs.zipIdx).map fun o => match x.modLeg o.1 with
      | some k => .fin (x.drv.vals.getD k 0)
      | none => l.y.getD o.2 (.fin 0) }

/-- The outputs the runtime applies: the law's, blended in a crossfade, limited to their ranges. -/
def CtxSt.applied (x : CtxSt) (l : LawOut) : List Num :=
  (x.desc.outputs.zipIdx).map fun o =>
    let y := l.y.getD o.2 (.fin 0)
    if x.xfDone < x.xfN then
      let k : Rat := ((x.xfDone + 1 : Nat) : Rat) / (x.xfN : Rat)
      let f := (x.xfFrom.getD o.2 (.fin 0)).q
      match y with
      | .fin q => o.1.limit (.fin (rnd (f + k * (q - f))))
      | v => o.1.limit v
    else o.1.limit y

/-- Which outputs are limited: at an end of their range, or by the voltage limit of the modulation stage (R163). Mark: DESIGN CHOICE (log 55). -/
def CtxSt.limits (x : CtxSt) (y : List Num) : List Int :=
  (x.desc.outputs.zipIdx).map fun o =>
    let r := (y.getD o.2 (.fin 0)).limited o.1.ends.1 o.1.ends.2
    match x.modLeg o.1 with
    | some k => if x.drv.flags.testBit 0 && x.drv.cuts.getD k 0 != 0 then x.drv.cuts.getD k 0 else r
    | none => r

/-! ## Step 5: compare values (R121, R166, R213, R235) -/

/-- The value that holds a channel on, and off, for the whole half-period. -/
def heldOn : CmpVal := ⟨.compare, 524287, 7⟩
def heldOff : CmpVal := ⟨.compare, 0, 0⟩
def offVal : CmpVal := ⟨.off, 0, 0⟩

/-- An output coded as a compare value (R235). -/
def codeValue (y : Num) : CmpVal :=
  match y with
  | .fin q =>
    let n := (8 * q + 1 / 2).floor
    if n < 0 then heldOff else if 4194303 < n then heldOn else ⟨.compare, n.toNat / 8, n.toNat % 8⟩
  | .inf false => heldOn
  | _ => heldOff

/-- The off pattern of the drive states (R166); that of the probe is for every bridge output of the context. -/
def State.drvOffPattern (s : State) (c : Nat) : Bool :=
  let st := (s.drv c).st
  st == dOff || st == dCoastWait || st == dProbe

/-- A target is a bridge: a two-level or three-level slot, or an AUX bridge. -/
def State.isBridge (s : State) (T : Nat) : Bool := s.topo T == topoTwo || s.topo T == topoA || s.topo T == topoB

/-- The commanded ASC (R166). -/
def State.drvAscPattern (s : State) (c : Nat) : Bool :=
  let d := s.drv c
  d.st == dAscHold || (d.st == dAcquire && d.pulse == 0)

/-- The grid bridge is commanded off (Table 6.2). -/
def gridOffState (st : Nat) : Bool := st == gOff || st == gSync || st == gBlock || st == gTripOut

/-- What the services force on channel `i` of target `T`, given as 6·T + i, if they force anything. Off stands while a probe runs (R106). -/
def State.forced (s : State) (c ch : Nat) : Option CmpVal :=
  let x := s.ctx c
  let T := ch / 6
  let i := ch % 6
  if s.probing c && s.isBridge T then some offVal
  else if x.section_ 0 && T == x.drvCfg 12 8 && s.drvOffPattern c then some offVal
  else if x.section_ 0 && T == x.drvCfg 12 8 && s.drvAscPattern c then
    some (if (i % 2 == 0) == (x.drvCfg 2 2 == 1) then heldOn else heldOff)
  else if x.section_ 1 && gridOffState x.grid.st
      && (T == x.gridCfg 12 8 || (x.gridCfg 7 7 == 1 && T == x.gridCfg 12 8 + 1)) then some offVal
  else if x.section_ 2 then
    let d := x.dcdc
    if T == x.dcCfg 18 14 && i == x.dcCfg 21 19 then some (if d.pre then heldOn else heldOff)
    else if T == x.dcCfg 18 14 && i == x.dcCfg 24 22 then some (if d.main then heldOn else heldOff)
    else
      let p := if T == x.dcCfg 7 3 then i / 2 else 3 + i / 2
      let mine := (T == x.dcCfg 7 3 || T == x.dcCfg 12 8) && decide (p < x.dcCfg 2 0)
      let on := (d.st == bRun || d.st == bStopping) && !d.openNext && !d.dropped.testBit p
      if mine && !on then some offVal else none
  else none

end Sys2Proof.Machine

namespace Sys2Proof

/-- Target and value index of a compare output. -/
def OutputDef.place (o : OutputDef) : Option (Nat × Nat) :=
  if o.kind = 0 then some (o.idx / 6, o.idx % 6) else if o.kind = 1 then some (24 + o.idx / 6, o.idx % 6) else none

end Sys2Proof

namespace Sys2Proof.Machine

/-- The targets of a context in the order of its outputs. -/
def CtxSt.targets (x : CtxSt) : List Nat :=
  x.desc.outputs.foldl (fun ts o => match o.place with
    | some (T, _) => if ts.contains T then ts else ts ++ [T]
    | none => ts) []

/-- Value `i` of target `T`: what the services force, OFF where the law codes it off, or the output; a NaN output answers `none`. -/
def State.compareOf (s : State) (c T i : Nat) (y : List Num) (off : List Nat) : Option (Option CmpVal) :=
  match (s.ctx c).desc.outputs.findIdx? (fun o => o.place == some (T, i)) with
  | none => some none
  | some j =>
    if (y.getD j (.fin 0)).isNan then none
    else match s.forced c (6 * T + i) with
      | some v => some (some v)
      | none => if off.contains j then some (some offVal) else some (some (codeValue (y.getD j (.fin 0))))

/-- The six values of a flit, unless one of them is NaN. -/
def State.flitValues (s : State) (c T : Nat) (y : List Num) (off : List Nat) : Option (List (Option CmpVal)) :=
  (List.range 6).foldr (fun i acc => match s.compareOf c T i y off, acc with
    | some v, some vs => some (v :: vs)
    | _, _ => none) (some [])

/-- The block port that takes a target's CMPW flits (Table 1.3). -/
def cmpwPort (T : Nat) : FlitDst := if T < 24 then .port ([1, 4, 19, 22].getD (T / 6) 1) 1 else .port 5 1

/-- Send one CMPW flit, which leaves at a tick; the runtime keeps its values and their T_eff (R121, R127). -/
def State.sendCmpwAt (s : State) (c T tick : Nat) (carrier : Bool) (vals : List (Option CmpVal)) : State :=
  let n := kget 0 (s.ctx c).seq T
  let f : Cmpw := { issueTs := BitVec.ofInt 32 (s.net.tofs + 2 * (tick : Int)), ctx := c, target := T, take := (s.ctx c).takeNext, seq := n, carrier := carrier
                    epoch := s.net.parity, vals := vals }
  let te := tick + s.f R.LOOP_CTX_TIME_L_DLV c
  let s := s.doIf (!carrier) fun s => (vals.zipIdx).foldl (fun s v => match v.1 with
    | some w =>
      let x := s.chan (6 * T + v.2)
      s.setChan (6 * T + v.2) (if (s.refChans T (v.2 / 2)).contains v.2 then { x with seenWait := x.seenWait ++ [(te, w)] }
        else { x with seen := { x.seen with val := some w } })
    | none => s) s
  (s.modCtx c fun x => { x with seq := kset 0 x.seq T ((n + 1) % 256) }).send
    { dst := cmpwPort T, src := s.ctxSrc c, payload := .cmpw f }

/-- Send one CMPW flit now. -/
def State.sendCmpw (s : State) (c T : Nat) (carrier : Bool) (vals : List (Option CmpVal)) : State := s.sendCmpwAt c T s.pwmTime carrier vals

/-- The bridges that a probe pulses: the drive section's slot, or without one every bridge slot of the context. -/
def State.probeTargets (s : State) (c : Nat) : List Nat :=
  let x := s.ctx c
  x.targets.filter fun T => decide (T < 24) && (if x.section_ 0 then T == x.drvCfg 12 8 else s.isBridge T)

/-- The two flits of a zero-vector pulse of the probe (R106): all low switches on for T_ZV, centred in the present half-period, and off again; the turn-on
waits for the dead time. They leave at the ticks from which L_DLV reaches those instants. Mark: DESIGN CHOICE (log 155). -/
def State.sendProbePulse (s : State) (c T w : Nat) : State :=
  let h := s.halfAt T s.pwmTime
  let dead := (s.dead T + 7) / 8
  let dlv := s.f R.LOOP_CTX_TIME_L_DLV c
  let mid := h.start + h.len / 2
  let on := mid - w / 2
  let tick (te : Nat) : Nat := max s.pwmTime (te - dlv)
  let on_ : List (Option CmpVal) := List.replicate 6 (some heldOff)
  let off_ : List (Option CmpVal) := List.replicate 6 (some offVal)
  (s.sendCmpwAt c T (tick (on - dead)) false on_).sendCmpwAt c T (tick (on + w)) false off_

/-- The pulses of a probe, in the half-periods that have one. -/
def State.sendProbe (s : State) (c : Nat) : State :=
  match s.selectorOf c with
  | some n => s.doIf (s.probePulse c) fun s => (s.probeTargets c).foldl (fun s T => s.sendProbePulse c T (s.f R.POS_AS_PROBE_T_ZV n)) s
  | none => s

/-- The compare values of an evaluation, which only an ACTIVE context sends (R131); `false` where a NaN ended them (R144). -/
def State.sendCompares (s : State) (c : Nat) (active : Bool) (y : List Num) (l : LawOut) : State × Bool :=
  let s := s.doIf active fun s =>
    l.carriers.foldl (fun s k => s.sendCmpw c k.1 true [some ⟨.compare, k.2, 0⟩, none, none, none, none, none]) s
  (s.ctx c).targets.foldl (fun (a : State × Bool) T =>
    if a.2 then
      match a.1.flitValues c T y l.off with
      | some vs => (a.1.doIf active (·.sendCmpw c T false vs), true)
      | none => (a.1, false)
    else a) (s, true)

/-! ## Step 6: CTXX flits (R131, R132) -/

/-- A vector of words to a context in flits of five. -/
def State.sendWords (s : State) (c d sub : Nat) (ws : List Word) : State :=
  let n := (ws.length + 4) / 5
  (List.range n).foldl (fun s k => s.sendCtx (s.ctxSrc c) d (.ctxx
    { sub := sub, ctx := d, ts := (s.ctx c).trigTs, first := 5 * k, last := k + 1 == n, words := (ws.drop (5 * k)).take 5 })) s

/-- The contexts that outputs go to, in output order. -/
def CtxSt.peers (x : CtxSt) : List Nat :=
  x.desc.outputs.foldl (fun ds o => if o.kind = 2 ∧ !ds.contains o.idx then ds ++ [o.idx] else ds) []

/-- ACT_OUT of an ACTIVE context, SETPT and DATA; `false` where a NaN stopped them. -/
def State.sendPeers (s : State) (c : Nat) (active : Bool) (y : List Num) : State × Bool :=
  let (s, ok) := match s.partner c, active with
    | some p, true => if y.any (·.isNan) then (s, false) else (s.sendWords c p 3 (y.map numWord), true)
    | _, _ => (s, true)
  let sub := if s.ctxKind c = kindOuter then 4 else 7
  (s.ctx c).peers.foldl (fun (a : State × Bool) d =>
    let ys := (((a.1.ctx c).desc.outputs.zipIdx).filter fun o => o.1.kind == 2 && o.1.idx == d).map fun o => y.getD o.2 (.fin 0)
    if !a.2 ∨ ys.any (·.isNan) then (a.1, false) else (a.1.sendWords c d sub (ys.map numWord), true)) (s, ok)

/-! ## Step 7: age records (R127) -/

/-- PWM at tick `te`, carrier events up to the tick done. -/
def State.foresee (s : State) (T te : Nat) : State :=
  let B := s.bridge T
  let s := { s with now := s.now + (te - s.pwmTime) * tickQ }
  let turn (s : State) : State := match s.nextCarrier B with
    | some (e, _) => if e ≤ te then s.turnCarrier B else s
    | none => s
  (turn (turn s)).advance B (te * 8 + 7)

/-- CASE and AGE of a value of channel `i` issued now, on the reference as the runtime works it out: no trip hold, no refresh limit, no hold-off, no late
delivery (R127). -/
def State.ageOf (s : State) (T i te issue : Nat) (v : CmpVal) (hasHigh : Option CmpVal) : Nat × Nat :=
  let low := !s.legIndep T (i / 2) && i % 2 == 1
  let (j, w) := if low then (i - 1, hasHigh) else (i, some v)
  match w with
  | none => (3, 0)
  | some w =>
    if v.mode ≠ .compare ∨ w.mode ≠ .compare then (3, 0)
    else
      let p := s.foresee T te
      let h := p.legHalf T (j / 2)
      match (p.chan (6 * T + j)).seen.take h (p.minpw T) te none w, h with
      | (_, some (k, e)), _ => if k < 2 then (k, satN 32 (e / 8 - issue)) else (3, 0)
      | (r, none), some h =>
        match valueEdge (p.followHalf T h) r.ref none (some w) with
        | some e => (2, satN 32 (e / 8 - issue))
        | none => (3, 0)
      | (_, none), none => (3, 0)

/-- The age records for the next evaluation, by output. -/
def State.ageRecords (s : State) (c : Nat) (y : List Num) (off : List Nat) : List (Nat × Nat) :=
  let issue := s.pwmTime
  let te := issue + s.f R.LOOP_CTX_TIME_L_DLV c
  (s.ctx c).desc.outputs.map fun o =>
    match o.place with
    | none => (3, 0)
    | some (T, i) =>
      match s.compareOf c T i y off, s.compareOf c T (i - i % 2) y off with
      | some (some v), some hi => s.ageOf T i te issue v hi
      | _, _ => (3, 0)

/-! ## Following error (R142, R143) -/

/-- One supervisor: its new count and whether it acts now. -/
def CtxSt.feStep (x : CtxSt) (on : Bool) (ref meas time lim run : Nat) : Nat × Bool :=
  if on && (x.pvNum lim).lt ((x.states.getD ref (.fin 0)).sub (x.states.getD meas (.fin 0))).abs then
    if time + 1 ≤ run + 1 then (0, true) else (run + 1, false)
  else (0, false)

/-- The ACTION of a supervisor (R143). Answers the causes. -/
def State.feAct (s : State) (c act : Nat) : State × Nat :=
  if act = 1 then
    ((s.modCtx c fun x => { x with fe0 := 0, fe1 := 0 }).setCtxState c (if s.partnerHealthy c then stShadow else stStopped), 64)
  else if act = 2 then (s.modCtx c fun x => x.rampAllZero, 0)
  else if act = 3 then (s.ctxFault c 3, 0)
  else (s, 0)

/-- If a supervisor's limit is reached: its bit, its event and its action. -/
def State.feHit (s : State) (c : Nat) (hit : Bool) (seen act : FRef) : State × Nat :=
  if hit then (s.raise seen c E.FE_LIMIT (subject c)).feAct c (s.f act c) else (s, 0)

/-- The limits of supervisor 0 and then of supervisor 1, if the context is still ACTIVE. -/
def State.feBoth (s : State) (c : Nat) (h0 h1 : Bool) : State × Nat :=
  let (s, k0) := s.feHit c h0 R.LOOP_CTX_STAT_FE0 R.LOOP_CTX_FE0_ACTION
  let (s, k1) := s.feHit c (h1 && s.ctxState c == stActive) R.LOOP_CTX_STAT_FE1 R.LOOP_CTX_FE1_ACTION
  (s, k0 ||| k1)

/-- Both supervisors of an ACTIVE context. -/
def State.following (s : State) (c : Nat) : State × Nat :=
  if s.ctxState c ≠ stActive then (s, 0)
  else
    let x := s.ctx c
    let (n0, h0) := x.feStep (s.b R.LOOP_CTX_FE0_EN c) (s.f R.LOOP_CTX_FE0_REF c) (s.f R.LOOP_CTX_FE0_MEAS c) (s.f R.LOOP_CTX_FE0_TIME c)
      (s.f R.LOOP_CTX_FE0_LIM_PIDX c) x.fe0
    let (n1, h1) := x.feStep (s.b R.LOOP_CTX_FE1_EN c) (s.f R.LOOP_CTX_FE1_REF c) (s.f R.LOOP_CTX_FE1_MEAS c) (s.f R.LOOP_CTX_FE1_TIME c)
      (s.f R.LOOP_CTX_FE1_LIM_PIDX c) x.fe1
    (s.modCtx c fun x => { x with fe0 := n0, fe1 := n1 }).feBoth c h0 h1

/-- A vector of words of a context to one destination, in CTXX flits of five. Mark: DEDUCED (log 53). -/
def State.sendVector (s : State) (c : Nat) (dst : FlitDst) (sub : Nat) (ws : List Word) : State :=
  let n := (ws.length + 4) / 5
  (List.range n).foldl (fun s k =>
    let x : Ctxx := { sub := sub, ctx := c, ts := (s.ctx c).trigTs, first := 5 * k, last := k + 1 == n, words := (ws.drop (5 * k)).take 5 }
    s.transmit { dst := dst, src := s.ctxSrc c, payload := .ctxx x }) s

/-! ## Life record (R265) -/

/-- Sum two lists of numbers, the longer going on. -/
def addLists : List Rat → List Rat → List Rat
  | a :: as, b :: bs => (a + b) :: addLists as bs
  | [], bs => bs
  | as, [] => as

/-- The mean on-time fraction of channel `i` of target `T` since the last record, on the reference as the runtime works it out; the low channel of a
complementary leg has the rest of the time where it is open (R265). -/
def State.onFraction (s : State) (T i : Nat) (span : Rat) : Rat :=
  let own := (s.refChans T (i / 2)).contains i
  let r := ((s.chan (6 * T + (if own then i else i - 1))).seen.count s.pwmQ).on
  if span = 0 then 0
  else if own then rnd ((r : Rat) / span)
  else if (s.chan (6 * T + i)).seen.val.any (·.mode == .compare) then rnd (1 - (r : Rat) / span) else 0

/-- The number of reference edges of channel `i` of target `T` since the last record. -/
def State.edgeCount (s : State) (T i : Nat) : Nat :=
  (s.chan (6 * T + (if (s.refChans T (i / 2)).contains i then i else i - 1))).seen.edges

/-- The life record of one slot or bridge goes to the life kernel, as a vector of its own, and its counts start again (R265). Mark: DEDUCED (log 160). -/
def State.sendLife (s : State) (c n : Nat) (T : Nat) : State :=
  let cfg := s.trip.lifeCfg
  let a := kget {} (s.ctx c).lifeAcc T
  let span : Rat := ((s.pwmQ - (s.ctx c).lifeStart : Nat) : Rat)
  let ws := ((List.range 3).map fun k => f32Of (rnd (a.cur.getD k 0 / n))) ++ [f32Of (rnd (a.vdc / n))]
    ++ ((List.range 6).map fun i => f32Of (s.onFraction T i span)) ++ ((List.range 6).map fun i => nw (s.edgeCount T i))
  let s := s.sendVector c (.kernels cfg.pod (2 ^ cfg.k)) 7 ws
  (List.range 6).foldl (fun s i =>
    let x := s.chan (6 * T + i)
    s.setChan (6 * T + i) { x with seen := { x.seen with on := 0, since := s.pwmQ, edges := 0 } }) s

/-- The life records of a context: its currents and V_dc add up, and every LIFE_DIV evaluations the record of each of its bridges goes out (R265). -/
def State.lifeRecordOf (s : State) (c : Nat) (l : List (Nat × LegIn)) : State :=
  let x := s.ctx c
  if !(x.section_ 4 && s.trip.lifeCfg.present) then s
  else
    let acc := l.foldl (fun m e =>
      let a := kget {} m e.1
      kset {} m e.1 { cur := addLists a.cur e.2.cur, vdc := a.vdc + e.2.vdc : LegIn }) x.lifeAcc
    let n := x.lifeCount + 1
    let s := s.modCtx c fun x => { x with lifeCount := n, lifeAcc := acc }
    if n < s.trip.lifeCfg.lifeDiv then s
    else (x.targets.foldl (fun s T => s.sendLife c n T) s).modCtx c fun x => { x with lifeCount := 0, lifeAcc := [], lifeStart := s.pwmQ }

/-! ## The evaluation -/

/-- LAW_SEL of an applied transaction, if it held one. -/
def State.lawSelIf (s : State) (c : Nat) (sel : Bool) : State × Nat := if sel then s.lawSel c else (s, 0)

/-- The variant that the grid service chooses, with its event. -/
def State.gridVariant (s : State) (c : Nat) : Option Nat → State × Nat
  | some v =>
    let r := s.setVariant c v 16
    (r.1.post E.GRID_MODE (subject c) (nw v), r.2)
  | none => (s, 0)

/-- The variant that the law itself asks for. -/
def State.askedVariant (s : State) (c : Nat) : Option Nat → State × Nat
  | some v => if v ≤ s.f R.LOOP_CTX_CFG_NVAR c then s.setVariant c v 32 else (s, 0)
  | none => (s, 0)

/-- Steps 1 to 3 up to the choice of state and variant: transaction, ramps, services. Answers the causes of a hand-over. -/
def State.evalServices (s : State) (c : Nat) (l : LawOut) : State × Nat :=
  let wLast := (s.ctx c).sel.omega
  let (s, sel) := s.evalTxn c
  let s := (s.cmdSetpoint c).modCtx c (·.stepRamps)
  let (s, k1) := s.lawSelIf c sel
  let s := s.doIf (l.probe && !s.probing c) (·.probeStart c l.sel)
  let (s, src) := s.runSelector c l.sel
  let (s, auto) := s.runGrid c l.grid
  let (s, k2) := s.gridVariant c auto
  let s := s.doIf ((s.ctx c).section_ 1) (·.gridRefs c l.grid)
  let (s, reacq) := ((s.runDcdc c l.grid).runLink c l.grid).runDrive c l.sel l.drv wLast
  let (s, k3) := s.askedVariant c l.variant
  (s, k1 ||| (if src then 8 else 0) ||| k2 ||| k3 ||| (if reacq then 32 else 0))

/-- The hand-over of this evaluation, if its causes make one, and otherwise tracking. A context in SHADOW whose partner has stopped by STOP does not
take over for the missing ACT_OUT (R143, R144). Answers the causes. Mark: DEDUCED (log 152). -/
def State.evalHandover (s : State) (c st0 causes : Nat) (l : LawOut) : State × Nat :=
  let x := s.ctx c
  let miss := st0 == stShadow && x.actMissing && !((s.partner c).any fun p => (s.ctx p).stopped)
  let take := st0 == stShadow && (miss || causes.testBit 1)
  let causes := causes ||| b2n miss
  if take then
    let r := ((s.setCtxState c stActive).modCtx c fun x => { x with takeNext := true }).actOutputs c
    (r.1.handOver c r.2 l, causes)
  else if (causes &&& 60) ≠ 0 then (s.handOver c x.yOut l, causes)
  else (s.track c l, causes)

/-- The partial results that the kernels of a group exchange (CTXX STATE, Table 4.11): each goes to the other kernels of the group. -/
def State.sendGroup (s : State) (c : Nat) (gs : List (Nat × Nat × List Word)) : State :=
  let pod := s.f R.LOOP_CTX_CFG_POD c
  let ks := maskKernels pod (s.f R.LOOP_CTX_CFG_KMASK c)
  gs.foldl (fun s g =>
    match ks[g.1]? with
    | none => s
    | some k =>
      let others := s.f R.LOOP_CTX_CFG_KMASK c - 2 ^ (k % 16)
      let n := (g.2.2.length + 4) / 5
      s.doIf (others != 0) fun s => (List.range n).foldl (fun s i =>
        let x : Ctxx := { sub := 1, ctx := c, ts := (s.ctx c).trigTs, first := g.2.1 + 5 * i, last := i + 1 == n
                          words := (g.2.2.drop (5 * i)).take 5 }
        s.transmit { dst := .kernels pod others, src := .kernel pod (k % 16), payload := .ctxx x }) s) s

/-- Steps 5 to 7: an ACTIVE context sends compare values and ACT_OUT, one in SHADOW only SETPT and DATA (R131). -/
def State.evalSend (s : State) (c : Nat) (active : Bool) (y : List Num) (l : LawOut) : State :=
  let s := s.doIf active fun s => s.modCtx c fun x => { x with ages := s.ageRecords c y l.off }
  let (s, ok) := s.sendCompares c active y l
  let s := s.doIf (active && ok) (·.sendProbe c)
  let (s, ok) := if ok then s.sendPeers c active y else (s, false)
  let s := s.doIf active (·.modCtx c fun x => { x with takeNext := false })
  if ok then s else s.ctxFault c 5

/-- A list of bits as words of 32, bit 0 first. -/
def bitWords (bs : List Bool) : List Word :=
  (List.range ((bs.length + 31) / 32)).map fun k =>
    nw (((bs.drop (32 * k)).take 32).zipIdx.foldl (fun n b => if b.1 then n + 2 ^ b.2 else n) 0)

/-- The words of a snapshot: states, integrator flags, last outputs, age records, previous edge instants, stale flags and the staged transaction.
Mark: DEDUCED (log 53). -/
def State.snapWords (s : State) (c : Nat) : List Word :=
  let x := s.ctx c
  let edge (o : OutputDef) : Word := match o.place with
    | some (T, i) => match (s.chan (6 * T + i)).lastEdge with
      | some q => BitVec.ofInt 32 (s.net.tofs + ((q / 4 : Nat) : Int))
      | none => 0
    | none => 0
  let txn : List Word := match x.txn with
    | some t => [(ntBits t.apply).setWidth 32, (ntBits t.apply >>> 32).setWidth 32, nw (b2n t.landed)] ++ t.words.flatMap fun w => [nw w.1, w.2]
    | none => []
  x.states.map numWord ++ bitWords (x.desc.states.map (·.integ)) ++ x.yOut.map numWord ++ x.ages.flatMap (fun a => [nw a.2, nw a.1])
    ++ x.desc.outputs.map edge ++ bitWords ((x.desc.inputs.zipIdx).map fun d => (kget {} x.evalIn d.2).stale) ++ txn

/-- The source sends its snapshot after evaluation k (Table 4.9, step 2). -/
def State.migSnap (s : State) (c : Nat) : State :=
  match s.loop.mig with
  | some m =>
    if m.ctx = c ∧ !m.forced ∧ m.step = 2 then
      let s := s.sendVector c (.kernels m.dstPod m.dstMask) 6 (s.snapWords c)
      { s with loop := { s.loop with mig := some { m with step := 3 } } }
    else s
  | none => s

/-- An evaluation ends; a fault that missing inputs or skipped triggers have made due follows (R116, R120). -/
def State.evalEnd (s : State) (c : Nat) : State :=
  (((s.modCtx c fun x => { x with phase := 0, actMissing := false, actIn := none }).freeKernels c).dueFault c).migSnap c

/-- Step 4: the states step, and the outputs with their limits and the transfer are kept. Answers the outputs. -/
def State.evalOutputs (s : State) (c : Nat) (l : LawOut) : State × List Num :=
  let s := s.modCtx c fun x => x.stepStates l
  let x := s.ctx c
  let y := x.applied l
  let s := s.setCtx c { x with lim := x.limits y, yOut := y, xfDone := min x.xfN (x.xfDone + 1) }
  (s.setF R.LOOP_CTX_STAT_XF_LEFT (x.xfN - (x.xfDone + 1)) c, y)

/-- The supervisors, after outputs `y` and with causes `k`: on the states after step 4, before the flits of steps 5 and 6. Mark: DESIGN CHOICE (log 150). -/
def State.evalFollow (s : State) (c : Nat) (y : List Num) (k : Nat) : State × List Num × Nat :=
  let r := s.following c
  (r.1, y, k ||| r.2)

/-- The evaluation up to the supervisors. Answers its outputs and the causes of a hand-over. -/
def State.evalSteps (s : State) (c : Nat) (l : LawOut) : State × List Num × Nat :=
  let r1 := s.evalServices c l
  let l := (r1.1.ctx c).withStage l
  let r2 := r1.1.evalHandover c (s.ctxState c) r1.2 l
  (r2.1.evalOutputs c l).1.evalFollow c (r2.1.evalOutputs c l).2 r2.2

/-- A change of state or variant of this evaluation is posted. `st0` and `var0` stood at its start. -/
def State.evalChange (s : State) (c st0 var0 causes : Nat) : State :=
  let st1 := s.ctxState c
  let s := s.doIf (st1 != stFaulted && (st1 != st0 || s.f R.LOOP_CTX_STAT_VAR c != var0)) (·.postHandover c causes var0 st0)
  s.doIf (st1 != st0) (·.disturbMig c)

/-- What an evaluation sends, if it left the context running. -/
def State.evalOut (s : State) (c : Nat) (st : Nat) (y : List Num) (l : LawOut) : State :=
  let s := (s.sendGroup c l.group).doIf (st == stActive || st == stShadow) (·.evalSend c (st == stActive) y l)
  let s := s.doIf (s.ctxState c == stActive) (·.lifeRecordOf c l.life)
  s.doIf ((s.ctx c).states.any (·.isNan)) (·.ctxFault c 5)

/-- The evaluation of R118. Mark: DESIGN CHOICE (log 44), DESIGN CHOICE (log 47). -/
def State.evaluate (s : State) (c : Nat) (l : LawOut) : State :=
  let r := s.evalSteps c l
  ((r.1.evalChange c (s.ctxState c) (s.f R.LOOP_CTX_STAT_VAR c) r.2.2).evalOut c (r.1.ctxState c) r.2.1 l).evalEnd c

/-- EVALUATION (R118): an evaluation that has started computes `law` and sends it. Mark: DESIGN CHOICE (log 47). -/
def execEvaluation (t : Instant) (c : Nat) (law : LawOut) (s : State) : Res :=
  let s := s.start t
  .next (s.doIf (s.ctxOn c && (s.ctx c).phase == 3) (·.evaluate c law))

end Sys2Proof.Machine
end

