-- ==== Sys2Proof/Machine/Cmpw.lean ====
section
/-! DEFINITION. CMPW flits at PWM and AUX: ownership, checks, waiting values, CARRIER flits and the effective instant (R31, R121 to
R127, R133, R227, R235 to R238). -/
namespace Sys2Proof.Machine

/-- The contexts that own a target, A first (R133). -/
def State.owners (s : State) (T : Nat) : List (Nat × Nat) :=
  if T < 24 then
    (if s.b R.PWM_SLOT_OWN_A_EN T then [(0, s.f R.PWM_SLOT_OWN_OWNER_A T)] else [])
    ++ (if s.b R.PWM_SLOT_OWN_B_EN T then [(1, s.f R.PWM_SLOT_OWN_OWNER_B T)] else [])
  else if s.b R.AUX_BR_CFG_OWN_EN (T - 24) then [(0, s.f R.AUX_BR_CFG_OWNER (T - 24))] else []

/-- A kernel belongs to a context (R20). -/
def State.kernelOf (s : State) (src : FlitSrc) (c : Nat) : Bool :=
  match src with
  | .kernel r k => r == s.f R.LOOP_CTX_CFG_POD c && (s.f R.LOOP_CTX_CFG_KMASK c).testBit k
  | .port _ _ => false

/-- Set a status bit of a slot or bridge with its event. -/
def State.targetRaise (s : State) (T : Nat) (r ra : FRef) (e ea : Ev) (w0 : Word := 0) : State :=
  if T < 24 then s.raise r T e (subject T) w0 else s.raise ra (T - 24) ea (subject (T - 24)) w0

/-- CMPW_BAD (R236). -/
def State.cmpwBad (s : State) (T : Nat) : State :=
  if T < 28 then s.targetRaise T R.PWM_SLOT_STAT_CMPW_BAD R.AUX_BR_STAT_CMPW_BAD E.CMPW_BAD E.AUX_CMPW_BAD
  else s.post E.CMPW_BAD (subject T)

/-- A malformed flit of R236. Mark: DEDUCED (log 48). -/
def State.cmpwMalformed (s : State) (f : Cmpw) : Bool :=
  !(if f.target < 24 then s.b R.PWM_SLOT_CFG_EN f.target else s.b R.AUX_BR_CFG_EN (f.target - 24)) || f.vals.any (fun v => v.any (fun v => v.mode == .reserved))
    || (f.carrier && ((f.vals.getD 0 none).isNone || s.topo f.target == topoB))

/-- The owner a flit's context is of a target: 0 A, 1 B. -/
def State.ownerIndex (s : State) (T c : Nat) : Option Nat := ((s.owners T).find? fun o => o.2 == c).map (·.1)

/-- The active owner: 0 A, 1 B. -/
def State.activeIndex (s : State) (T : Nat) : Nat := if T < 24 && s.b R.PWM_SLOT_STAT_B_ACTIVE T then 1 else 0

/-- The last accepted SEQ of a target. -/
def State.lastSeq (s : State) (T : Nat) : Nat := if T < 24 then s.f R.PWM_SLOT_UPD_SEQ T else s.f R.AUX_BR_UPD_SEQ (T - 24)

/-- SEQ of an accepted flit is checked and kept (R236). -/
def State.acceptSeq (s : State) (f : Cmpw) (own : Nat) : State :=
  let T := f.target
  let free := f.take || !(s.carrier T).seqSeen.testBit own
  let s := s.doIf (!free && f.seq != (s.lastSeq T + 1) % 256)
    (·.targetRaise T R.PWM_SLOT_STAT_SEQ_GAP R.AUX_BR_STAT_SEQ_GAP E.SEQ_GAP E.AUX_SEQ_GAP)
  let s := s.setCarrier T { s.carrier T with seqSeen := putBit (s.carrier T).seqSeen own true }
  if T < 24 then s.setF R.PWM_SLOT_UPD_SEQ f.seq T else s.setF R.AUX_BR_UPD_SEQ f.seq (T - 24)

/-- The tick of ISSUE_TS, read against the NTIME scale of the flit's EPOCH (R121), and T_eff. -/
def State.issueTick (s : State) (f : Cmpw) : Int :=
  let base := if f.epoch = s.net.parity then s.ntime else s.ntime - s.net.lastStep
  (s.pwmTime : Int) + (shortDiff f.issueTs base) / 2

/-- The range of TOP of a target (R224, R240). -/
def topRange (T : Nat) : Nat × Nat := if T < 24 then (625, 500000) else (2500, 50000)

/-- A CARRIER flit (R227). -/
def State.carrierFlit (s : State) (T top te : Nat) : State :=
  let r := topRange T
  if top < r.1 ∨ r.2 < top ∨ top < 2 * s.minpw T ∨ top < 8 * s.phSlew T then
    s.targetRaise T R.PWM_SLOT_STAT_CAR_REF R.AUX_BR_STAT_CAR_REF E.CARRIER_REFUSED E.AUX_CARRIER_REFUSED
  else s.setCarrier T { s.carrier T with newTop := (s.carrier T).newTop ++ [(top, te)] }

/-- The value of channel `i` arrives: a waiting value is replaced and stamped REPLACED (R125, R237). -/
def State.arriveValue (s : State) (T i : Nat) (v : CmpVal) (te issue : Nat) (withHigh : Bool) : State :=
  let ck := 6 * T + i
  let s := s.doIf ((s.chan ck).wait.isSome) (·.stamp T i 5 0)
  s.setChan ck { s.chan ck with wait := some { val := v, teff := te, issue := issue, withHigh := withHigh } }

/-- The values of a target whose T_eff has come take effect; under block commutation they are a duty (R123, R184). -/
def State.valuesEffective (s : State) (T te : Nat) : State :=
  if 24 ≤ T && s.bcOn (T - 24) then s.bcCompare (T - 24) te else s.compareEffective T te

/-- An accepted flit: a late one, or one issued before a forced step (R412), sets LATE_DLV of the sender and takes effect at once
(R126). -/
def State.acceptCmpw (s : State) (f : Cmpw) (own : Nat) : State :=
  let T := f.target
  let s := s.acceptSeq f own
  let issue := s.issueTick f
  let teff := issue + (s.f R.LOOP_CTX_TIME_L_DLV f.ctx : Int)
  let late := decide (teff < (s.pwmTime : Int)) || f.epoch != s.net.parity
  let te := if late then s.pwmTime else teff.toNat
  let s := s.doIf late (·.raise R.LOOP_CTX_STAT_LATE_DLV f.ctx E.LATE_DELIVERY (subject f.ctx))
  if f.carrier then s.carrierFlit T ((f.vals.getD 0 none).getD ⟨.compare, 0, 0⟩).ticks te
  else
    let s := (f.vals.zipIdx).foldl (fun s v => match v.1 with
      | some w => s.arriveValue T v.2 w te issue.toNat (v.2 % 2 == 1 && (f.vals.getD (v.2 - 1) none).isSome)
      | none => s) s
    let s := s.setCarrier T { s.carrier T with served := (s.carrier T).served ++ [(te, late)] }
    if late then (s.valuesEffective T te).settle else s

/-- A flit reaches its port (R31, R133, R236). Mark: DEDUCED (log 48). -/
def State.cmpwArrive (s : State) (src : FlitSrc) (f : Cmpw) : State :=
  let T := f.target
  if 28 ≤ T then s.cmpwBad T
  else
    match s.ownerIndex T f.ctx with
    | none => s.post E.CMPW_NOT_OWNER (subject T) (nw f.ctx)
    | some own =>
      if !s.kernelOf src f.ctx then s.post E.CMPW_NOT_OWNER (subject T) (nw f.ctx)
      else if own ≠ s.activeIndex T ∧ !f.take then s
      else if s.cmpwMalformed f then s.cmpwBad T
      else
        let s := s.doIf (f.take && T < 24) (·.setB R.PWM_SLOT_STAT_B_ACTIVE (own == 1) T)
        s.acceptCmpw f own

/-- CMPW_ARRIVAL (R236). -/
def execCmpwArrival (t : Instant) (f : Flit) (s : State) : Res :=
  let s := s.start t
  .next (s.doIf s.sealed (fun s => match f.payload with
    | .cmpw w => s.cmpwArrive f.src w
    | _ => s))

/-- COMPARE_EFFECTIVE (R123): T_eff of values of target `T` has come. -/
def execCompareEffective (t : Instant) (T : Nat) (s : State) : Res :=
  let s := s.start t
  .next (s.doIf (s.sealed && decide (T < 28)) (fun s => (s.valuesEffective T s.pwmTime).settle))

end Sys2Proof.Machine
end

