-- ==== Sys2Proof/Machine/Husk.lean ====
section
/-! DEFINITION. The husk: sessions, debug paths, provisioning, security version, passwords and CAK slots (R311 to R337). -/
namespace Sys2Proof.Machine

/-! ## The safety change log (R306, R307) -/

/-- Append an entry to the safety change log: SEQ rises by one, CHAIN hashes the previous entry, the oldest of 1,024 is
overwritten. Mark: DESIGN CHOICE (log 134). -/
def State.logChange (s : State) (paramId user kind : Nat) (old new : Word) : State :=
  let seq := (s.f R.SAFE_LOG_STAT_SEQ + 1) % 2 ^ 32
  let prev := match s.safe.changeLog.getLast? with
    | none => []
    | some e => numBytes 8 (unsignedOf 64 e.ntime) ++ numBytes 4 e.seq ++ numBytes 2 e.paramId ++ [e.user + 128 * b2n e.unlocked, e.kind]
        ++ numBytes 4 e.oldCrc.toNat ++ numBytes 4 e.newCrc.toNat ++ numBytes 8 e.chain.toNat
  let e : ChangeEntry := { ntime := s.ntime, seq := seq, paramId := paramId, user := user
                           unlocked := s.f R.NET_STAT_STATE != 2, kind := kind, oldCrc := old, newCrc := new
                           chain := (Config.sha384 prev).setWidth 64 }
  let log := s.safe.changeLog ++ [e]
  { s.setF R.SAFE_LOG_STAT_SEQ seq with safe := { s.safe with changeLog := log.drop (log.length - 1024) } }

/-- A password slot (R306). -/
def State.pwSlot (s : State) (k : Nat) : PwSlot := kget {} s.husk.pw k

/-- Replace a password slot, with its bits of SAFE_PW_STAT. -/
def State.setPwSlot (s : State) (k : Nat) (p : PwSlot) : State :=
  let s := { s with husk := { s.husk with pw := kset {} s.husk.pw k p } }
  (s.setBitF R.SAFE_PW_STAT_SET k p.set).setBitF R.SAFE_PW_STAT_LOCKED k (p.lockEnd != 0)

/-- A wrong password for a slot (R306): the fifth in a row locks it for 10 minutes, doubled at each further lockout up to 24 h. -/
def State.wrongPassword (s : State) (k : Nat) : State :=
  let p := s.pwSlot k
  if p.wrong + 1 < 5 then s.setPwSlot k { p with wrong := p.wrong + 1 }
  else
    let span := min (600 * secQ * 2 ^ p.lockouts) (86400 * secQ)
    let s := s.setPwSlot k { p with wrong := 0, lockouts := p.lockouts + 1, lockEnd := s.now + span }
    (s.logChange k k 0x06 0 0).post E.PW_LOCKOUT (subject k)

/-! ## Sessions (R313 to R316) -/

/-- SUBJECT of a session event: the user slot or key index, the function, the session's domain. -/
def sessSubject (x : Session) (fn : Nat) : Nat := subject (if x.dom = domSaf then x.user else x.key) 0 fn x.dom

/-- The RESULT a REQ is refused with, if it is (R313, R314). Mark: DEDUCED (log 28). -/
def State.reqRefusal (s : State) (fn : Nat) : Option Nat :=
  let d := s.f R.HUSK_SESS_CTL_DOMAIN 0 fn
  let k := s.f R.HUSK_SESS_CTL_KEYIDX 0 fn
  let u := s.f R.HUSK_SESS_CTL_USER 0 fn
  let lc := s.f R.HUSK_ID_LIFECYCLE
  let x := s.session fn
  if s.f R.HUSK_SESS_STAT_PHASE 0 fn != 0 || x.wanted then some 3
  else if d != domOem && d != domSaf && d != domVnd then some 3
  else if d == domOem && lc != lcDeployed then some 3
  else if d == domSaf && lc == lcTest then some 3
  else if d != domSaf && x.lockEnd != 0 then some 2
  else if d == domSaf && (s.pwSlot u).lockEnd != 0 then some 2
  else if d == domOem && k != 0 && !decide (k ≤ s.husk.svcKeys.length) then some 5
  else if d == domVnd && k > 7 then some 5
  else if d == domSaf && !(s.pwSlot u).set then some 5
  else none

/-- REQ, past the husk's access check. -/
def State.doReq (s : State) (fn : Nat) : State :=
  let x := { s.session fn with dom := s.f R.HUSK_SESS_CTL_DOMAIN 0 fn, user := s.f R.HUSK_SESS_CTL_USER 0 fn
                               key := s.f R.HUSK_SESS_CTL_KEYIDX 0 fn }
  match s.reqRefusal fn with
  | some r => (s.setF R.HUSK_SESS_STAT_RESULT r 0 fn).post E.SESSION_FAIL (sessSubject x fn)
  | none => s.setSession fn { x with wanted := true }

/-- REQ (R313): a write that sets HUSK_SESS_CTL.REQ. -/
def execReq (t : Instant) (fn : Nat) (data : Word) (s : State) : Res :=
  match (s.start t).actionWrite fn R.HUSK_SESS_CTL_REQ data 0 fn with
  | (s, go) => .next (s.doIf go (·.doReq fn))

/-- The 12 challenge words (R313): 32 fresh random bytes, then the slot's salt, or DEV_ID and zeros. -/
def State.challengeWords (s : State) (x : Session) (seed : Nat) : List Word :=
  natToWords 8 (Config.random seed).toNat ++
    (if x.dom = domSaf then natToWords 4 (s.pwSlot x.user).salt.toNat
     else [s.word .husk (W.HUSK_DEV_ID_LO.key 0 0), s.word .husk (W.HUSK_DEV_ID_HI.key 0 0), 0, 0])

/-- The husk fills HUSK_CHAL and sets PHASE to CHALLENGED. -/
def State.doChallenge (s : State) (fn : Nat) : State :=
  let x := s.session fn
  let (s, seed) := s.draw
  let s := s.setWords W.HUSK_CHAL (s.challengeWords x seed) fn
  (s.setF R.HUSK_SESS_STAT_PHASE 1 0 fn).setSession fn { x with wanted := false, chalAt := s.now }

/-- CHALLENGE_READY (R313): the challenge of an accepted REQ is made. -/
def execChallengeReady (t : Instant) (fn : Nat) (s : State) : Res :=
  let s := s.start t
  .next (s.doIf (s.session fn).wanted (·.doChallenge fn))

/-- The challenge lapses: RESULT TIMEOUT, PHASE IDLE (R313). -/
def State.lapse (s : State) (fn : Nat) : State :=
  ((s.setF R.HUSK_SESS_STAT_PHASE 0 0 fn).setF R.HUSK_SESS_STAT_RESULT 4 0 fn).setSession fn { s.session fn with verifying := false }

/-- SUBMIT, past the husk's access check: within 30 s of the challenge the response goes to verification. -/
def State.doSubmit (s : State) (fn : Nat) : State :=
  let x := s.session fn
  if s.f R.HUSK_SESS_STAT_PHASE 0 fn = 1 ∧ !x.verifying then
    if s.now ≤ x.chalAt + 30 * secQ then s.setSession fn { x with verifying := true } else s.lapse fn
  else s

/-- SUBMIT (R313): a write that sets HUSK_SESS_CTL.SUBMIT. -/
def execSubmit (t : Instant) (fn : Nat) (data : Word) (s : State) : Res :=
  match (s.start t).actionWrite fn R.HUSK_SESS_CTL_SUBMIT data 0 fn with
  | (s, go) => .next (s.doIf go (·.doSubmit fn))

/-- The public key of an OEM or VND session (Table 10.2). -/
def State.sessionKey (s : State) (x : Session) : BitVec 776 :=
  if x.dom = domVnd then Config.vndKey x.key
  else if x.key = 0 then Config.keyOfHash (s.husk.oemRootHash.getD 0)
  else s.husk.svcKeys.getD (x.key - 1) 0

/-- Whether the response in HUSK_RESP is the one Table 10.2 asks for. -/
def State.responseOk (s : State) (fn : Nat) : Bool :=
  let x := s.session fn
  let chal := s.words W.HUSK_CHAL 12 fn
  if x.dom = domSaf then
    s.words W.HUSK_RESP 12 fn == natToWords 12 (Config.hkdfResponse (s.pwSlot x.user).verifier chal x.user).toNat
  else
    let m := numBytes 48 (wordsToNat chal) ++ [x.dom, x.key, fn]
    Config.ecdsa (s.sessionKey x) (Config.sha384 m) (BitVec.ofNat 768 (wordsToNat (s.words W.HUSK_RESP 24 fn)))

/-- A right response opens the session. -/
def State.openSession (s : State) (fn : Nat) : State :=
  let x := s.session fn
  let s := (((s.setF R.HUSK_SESS_STAT_PHASE 2 0 fn).setF R.HUSK_SESS_STAT_RESULT 0 0 fn).setF R.HUSK_SESS_STAT_DOMAIN
    x.dom 0 fn).setF R.HUSK_SESS_STAT_USER (if x.dom = domSaf then x.user else 0) 0 fn
  let s := if x.dom = domSaf then s.setPwSlot x.user { s.pwSlot x.user with wrong := 0, lockouts := 0 } else s
  (s.setSession fn { x with verifying := false, fails := 0, lastAct := s.now }).post E.SESSION_OPEN (sessSubject x fn)

/-- A wrong response: RESULT BAD_RESP, and the counts of R306 and R314. -/
def State.failSession (s : State) (fn : Nat) : State :=
  let x := s.session fn
  let s := (s.setF R.HUSK_SESS_STAT_PHASE 0 0 fn).setF R.HUSK_SESS_STAT_RESULT 1 0 fn
  let s := if x.dom = domSaf then (s.setSession fn { x with verifying := false }).wrongPassword x.user
    else if x.fails + 1 < 3 then s.setSession fn { x with verifying := false, fails := x.fails + 1 }
    else s.setSession fn { x with verifying := false, fails := 0, lockEnd := s.now + 60 * secQ }
  s.post E.SESSION_FAIL (sessSubject x fn)

/-- RESPONSE_VERIFIED (R313): the husk finishes verifying. -/
def execResponseVerified (t : Instant) (fn : Nat) (s : State) : Res :=
  let s := s.start t
  .next (s.doIf (s.session fn).verifying (fun s => if s.responseOk fn then s.openSession fn else s.failSession fn))

/-- CHALLENGE_TIMEOUT (R313): 30 s without SUBMIT. -/
def execChallengeTimeout (t : Instant) (fn : Nat) (s : State) : Res :=
  let s := s.start t
  let x := s.session fn
  .next (s.doIf (s.f R.HUSK_SESS_STAT_PHASE 0 fn == 1 && !x.verifying && decide (x.chalAt + 30 * secQ ≤ s.now)) (·.lapse fn))

/-- The session of a function ends (R315, R316): its rings refuse further descriptors unless the function's base domain is
theirs. -/
def State.endSession (s : State) (fn : Nat) : State :=
  let x := s.session fn
  let d := s.f R.HUSK_SESS_STAT_DOMAIN 0 fn
  let bound := ((List.range 32).filter fun q => s.b R.HOSTQ_SQ_CFG_EN q fn && s.f R.HOSTQ_SQ_STAT_DOMAIN q fn == d).map (32 * fn + ·)
  let s := ((s.setF R.HUSK_SESS_STAT_PHASE 0 0 fn).setF R.HUSK_SESS_STAT_DOMAIN 0 0 fn).setF R.HUSK_SESS_STAT_USER 0 0 fn
  let s := s.setSession fn { x with verifying := false, wanted := false }
  let s := if s.baseDomain fn = d then s
    else { s with hostq := { s.hostq with refusing := s.hostq.refusing ++ bound.filter (fun q => !s.hostq.refusing.contains q) } }
  s.post E.SESSION_CLOSED (sessSubject x fn)

/-- End the session of a function if one is open, and drop a challenge (R315). -/
def State.dropSession (s : State) (fn : Nat) : State :=
  if s.sessionOpen fn then s.endSession fn
  else (s.setF R.HUSK_SESS_STAT_PHASE 0 0 fn).setSession fn { s.session fn with wanted := false, verifying := false }

/-- CLOSE (R313, R315): ends the session, or abandons the challenge. -/
def execClose (t : Instant) (fn : Nat) (data : Word) (s : State) : Res :=
  match (s.start t).actionWrite fn R.HUSK_SESS_CTL_CLOSE data 0 fn with
  | (s, go) => .next (s.doIf go (·.dropSession fn))

/-- SESSION_IDLE_TIMEOUT (R315): 900 s without an access or a descriptor. -/
def execSessionIdleTimeout (t : Instant) (fn : Nat) (s : State) : Res :=
  let s := s.start t
  .next (s.doIf (s.sessionOpen fn && decide ((s.session fn).lastAct + 900 * secQ ≤ s.now)) (·.endSession fn))

/-- SESSION_LOCK_END (R314): the 60 s refusal ends. -/
def execSessionLockEnd (t : Instant) (fn : Nat) (s : State) : Res :=
  let s := s.start t
  let x := s.session fn
  .next (s.doIf (x.lockEnd != 0 && decide (x.lockEnd ≤ s.now)) (·.setSession fn { x with lockEnd := 0 }))

/-- PW_LOCKOUT_END (R306): the lockout of a password slot passes. -/
def execPwLockoutEnd (t : Instant) (slot : Nat) (s : State) : Res :=
  let s := s.start t
  let p := s.pwSlot slot
  .next (s.doIf (p.lockEnd != 0 && decide (p.lockEnd ≤ s.now)) (·.setPwSlot slot { p with lockEnd := 0 }))

/-! ## Debug paths (R323, R325) -/

/-- Whether an OEM write of KDBG opens the path (R325). -/
def State.kdbgAllowed (s : State) (fn : Nat) : Bool :=
  let lc := s.f R.HUSK_ID_LIFECYCLE
  if lc = lcDeployed then s.sessionOpen fn && s.domainOf fn == domOem && s.b R.HUSK_DBG_STAT_CONSENT
  else if lc = lcOemOpen then fn == 0 && !s.sessionOpen fn
  else false

/-- Open a debug path and report it. -/
def State.openDebug (s : State) (r : FRef) (fn : Nat) : State :=
  (s.setB r true).post E.DBG_UNLOCK (subject 0 0 fn (s.domainOf fn))

/-- KDBG (R325): an OEM write opens the KDBG path when its conditions hold. -/
def execKdbg (t : Instant) (fn : Nat) (data : Word) (s : State) : Res :=
  match (s.start t).actionWrite fn R.HUSK_DBG_CTL_KDBG data with
  | (s, go) => .next (s.doIf (go && s.kdbgAllowed fn) (·.openDebug R.HUSK_DBG_STAT_KDBG_OPEN fn))

/-- VTEST (R323): a VND write in a VND session of a RETURNED part opens the VTEST path. -/
def execVtest (t : Instant) (fn : Nat) (data : Word) (s : State) : Res :=
  match (s.start t).actionWrite fn R.HUSK_DBG_CTL_VTEST data with
  | (s, go) => .next (s.doIf (go && s.f R.HUSK_ID_LIFECYCLE == lcReturned && s.sessionOpen fn)
      (·.openDebug R.HUSK_DBG_STAT_VTEST_OPEN fn))

/-- OPR withdraws consent: CONSENT clears and KDBG closes at once (R325). -/
def State.withdraw (s : State) (fn : Nat) : State :=
  let s1 := { s.setB R.HUSK_DBG_STAT_CONSENT false with husk := { s.husk with consentEnd := 0 } }
  if s.b R.HUSK_DBG_STAT_KDBG_OPEN then
    (s1.setB R.HUSK_DBG_STAT_KDBG_OPEN false).post E.DBG_CLOSED (subject 0 0 fn (s.domainOf fn))
  else s1

/-- OPR gives consent for 600 s (R325). -/
def State.give (s : State) (fn : Nat) : State :=
  ({ s.setB R.HUSK_DBG_STAT_CONSENT true with husk := { s.husk with consentEnd := s.now + 600 * secQ } }).post
    E.CONSENT_GIVEN (subject 0 0 fn (s.domainOf fn))

/-- GIVE (R325): consent for 600 s; a write that also sets WITHDRAW acts as WITHDRAW. -/
def execGive (t : Instant) (fn : Nat) (data : Word) (s : State) : Res :=
  match (s.start t).actionWrite fn R.HUSK_DBG_CONSENT_GIVE data with
  | (s, go) => .next (s.doIf go (fun s => if getBits data 30 30 = 1 then s.withdraw fn else s.give fn))

/-- WITHDRAW (R325). -/
def execWithdraw (t : Instant) (fn : Nat) (data : Word) (s : State) : Res :=
  match (s.start t).actionWrite fn R.HUSK_DBG_CONSENT_WITHDRAW data with
  | (s, go) => .next (s.doIf go (·.withdraw fn))

/-- CONSENT_EXPIRY (R325): 600 s of consent pass; an open KDBG stays open. -/
def execConsentExpiry (t : Instant) (s : State) : Res :=
  let s := s.start t
  .next (s.doIf (s.b R.HUSK_DBG_STAT_CONSENT && decide (s.husk.consentEnd ≤ s.now))
    (fun s => { s.setB R.HUSK_DBG_STAT_CONSENT false with husk := { s.husk with consentEnd := 0 } }))

/-! ## Provisioning and security version (R329, R332) -/

/-- Clear HUSK_KEY_DATA. -/
def State.clearKeyData (s : State) : State := s.setWords W.HUSK_KEY_DATA (List.replicate 16 0)

/-- Fuse the item of HUSK_PROV_CTL in OEM_OPEN (R329). `verified`: the fuses read back as written. A code that names no item does nothing. Mark:
DEDUCED (log 162). -/
def State.doFuse (s : State) (fn : Nat) (verified : Bool) : State :=
  let item := s.f R.HUSK_PROV_CTL_ITEM
  let data := wordsToNat (s.words W.HUSK_KEY_DATA 16)
  let refuse (r : Nat) (s : State) : State := s.setF R.HUSK_PROV_STAT_RESULT r
  let done (s : State) : State :=
    let s := s.setB R.HUSK_STAT_OEM_KEYS (s.husk.oemRootHash.isSome && s.husk.oemKek.isSome)
    let s := s.clearKeyData
    if verified then (s.setF R.HUSK_PROV_STAT_RESULT 0).post E.PROV_FUSED (subject item 0 fn (s.domainOf fn))
    else s.setF R.HUSK_PROV_STAT_RESULT 3
  if item = 1 then
    if s.husk.oemRootHash.isSome then refuse 1 s
    else done ({ s.setBitF R.HUSK_PROV_STAT_DONE 2 true with husk := { s.husk with oemRootHash := some (BitVec.ofNat 384 data) } })
  else if item = 2 then
    if s.husk.oemKek.isSome then refuse 1 s
    else done ({ s.setBitF R.HUSK_PROV_STAT_DONE 1 true with husk := { s.husk with oemKek := some (BitVec.ofNat 256 data) } })
  else if item = 3 then
    if s.husk.safRootHash.isSome then refuse 1 s
    else done ({ (s.setBitF R.HUSK_PROV_STAT_DONE 0 true).setB R.HUSK_STAT_SAF_ROOT true with
      husk := { s.husk with safRootHash := some (BitVec.ofNat 384 data) } })
  else if item = 4 then
    if s.husk.oemRootHash.isSome && s.husk.oemKek.isSome then done (s.setF R.HUSK_ID_LIFECYCLE lcDeployed)
    else refuse 2 s
  else s

/-- FUSE (R329): acts only in OEM_OPEN (R340). -/
def execFuse (t : Instant) (fn : Nat) (data : Word) (verified : Bool) (s : State) : Res :=
  match (s.start t).actionWrite fn R.HUSK_PROV_CTL_FUSE data with
  | (s, go) => .next (s.doIf (go && s.f R.HUSK_ID_LIFECYCLE == lcOemOpen) (·.doFuse fn verified))

/-- COMMIT (R332): IMG_SVN rises to RUN_SVN; with RUN_SVN ≤ IMG_SVN nothing happens. -/
def execCommit (t : Instant) (fn : Nat) (data : Word) (s : State) : Res :=
  match (s.start t).actionWrite fn R.HUSK_SVN_CMD_COMMIT data with
  | (s, go) => .next (s.doIf (go && decide (s.f R.HUSK_SVN_IMG_SVN < s.f R.HUSK_SVN_RUN_SVN)) (fun s =>
      (s.setF R.HUSK_SVN_IMG_SVN (s.f R.HUSK_SVN_RUN_SVN)).post E.SVN_COMMIT (subject 0 0 fn (s.domainOf fn))))

/-! ## Key commands (R334, R336, R337) -/

/-- A key command is refused with RESULT (R337). -/
def State.keyRefused (s : State) (fn r : Nat) : State :=
  (s.setF R.HUSK_KEY_STAT_RESULT r).post E.KEY_REFUSED (subject (s.f R.HUSK_KEY_CTL_SLOT) 0 fn (s.domainOf fn))

/-- A key command completes: RESULT OK, HUSK_KEY_DATA cleared. -/
def State.keyDone (s : State) : State := (s.setF R.HUSK_KEY_STAT_RESULT 0).clearKeyData

/-- More than one of LOAD, DELETE, PW_SET and PW_DEL is set (R337). -/
def keyConflict (data : Word) : Bool := popcount 4 (getBits data 31 28) != 1

/-- One key command: BAD_CMD for more than one bit, else the command itself. -/
def State.keyCommand (s : State) (fn : Nat) (data : Word) (g : State → State) : State :=
  if keyConflict data then s.keyRefused fn 1 else g s

/-- Set the verifier of a slot: the new salt is bytes 0 to 15 of the session's challenge, and the change is logged (R334). -/
def State.setVerifier (s : State) (fn slot : Nat) (v : BitVec 384) : State :=
  let salt := BitVec.ofNat 128 (wordsToNat (s.words W.HUSK_CHAL 4 fn))
  let s := s.setPwSlot slot { s.pwSlot slot with set := true, salt := salt, verifier := v }
  (s.logChange slot (s.f R.HUSK_SESS_STAT_USER 0 fn) 0x04 0 0).keyDone

/-- PW_SET past the access check (R334). Mark: DEDUCED (log 162). -/
def State.doPwSet (s : State) (fn : Nat) : State :=
  let slot := s.f R.HUSK_KEY_CTL_SLOT
  let user := s.f R.HUSK_SESS_STAT_USER 0 fn
  let data := s.words W.HUSK_KEY_DATA 16
  if !s.sessionOpen fn then s.keyRefused fn 3
  else if s.domainOf fn = domOem then
    if !(s.pwSlot 0).set && slot = 0 then s.setVerifier fn 0 (BitVec.ofNat 384 (wordsToNat (data.take 12)))
    else s.keyRefused fn 3
  else if (s.pwSlot 0).set && (slot = user || user = 0) then
    match Config.unwrapVerifier (s.pwSlot user).verifier (s.words W.HUSK_CHAL 12 fn) data with
    | some v => s.setVerifier fn slot v
    | none => s.keyRefused fn 2
  else s.keyRefused fn 3

/-- PW_SET (R334). -/
def execPwSet (t : Instant) (fn : Nat) (data : Word) (s : State) : Res :=
  match (s.start t).actionWrite fn R.HUSK_KEY_CTL_PW_SET data with
  | (s, go) => .next (s.doIf go (·.keyCommand fn data (·.doPwSet fn)))

/-- PW_DEL past the access check: slot 0's session deletes slots 1 to 7 (R334). A lockout stands until its time
passes or a correct password comes (R306). -/
def State.doPwDel (s : State) (fn : Nat) : State :=
  let slot := s.f R.HUSK_KEY_CTL_SLOT
  if s.sessionOpen fn && s.domainOf fn == domSaf && s.f R.HUSK_SESS_STAT_USER 0 fn == 0 && slot != 0 then
    ((s.setPwSlot slot { s.pwSlot slot with set := false, salt := 0, verifier := 0 }).logChange slot 0 0x05 0 0).keyDone
  else s.keyRefused fn 3

/-- PW_DEL (R334). -/
def execPwDel (t : Instant) (fn : Nat) (data : Word) (s : State) : Res :=
  match (s.start t).actionWrite fn R.HUSK_KEY_CTL_PW_DEL data with
  | (s, go) => .next (s.doIf go (·.keyCommand fn data (·.doPwDel fn)))

/-- A CAK slot (R336). -/
def State.cakSlot (s : State) (k : Nat) : CakSlot := kget {} s.husk.cak k

/-- Replace a CAK slot, with its bits of HUSK_KEY_STAT. -/
def State.setCakSlot (s : State) (k : Nat) (c : CakSlot) : State :=
  let s := { s with husk := { s.husk with cak := kset {} s.husk.cak k c } }
  (s.setBitF R.HUSK_KEY_STAT_VALID k c.valid).setBitF R.HUSK_KEY_STAT_PORTS k (c.valid && c.port == 1)

/-- LOAD past the access check: bytes 0 to 31 the CAK, bytes 32 to 63 the CKN (R336). -/
def State.doLoad (s : State) (fn : Nat) : State :=
  let slot := s.f R.HUSK_KEY_CTL_SLOT
  let len := s.f R.HUSK_KEY_CTL_CKN_LEN
  if len < 1 ∨ 32 < len then s.keyRefused fn 1
  else
    let data := s.words W.HUSK_KEY_DATA 16
    let c : CakSlot := { valid := true, cak := BitVec.ofNat 256 (wordsToNat (data.take 8))
                         ckn := BitVec.ofNat 256 (wordsToNat (data.drop 8) % 2 ^ (8 * len)), cknLen := len
                         port := s.f R.HUSK_KEY_CTL_PORT }
    ((s.setCakSlot slot c).keyDone).post E.KEY_LOADED (subject slot 0 fn (s.domainOf fn))

/-- LOAD (R336). -/
def execLoad (t : Instant) (fn : Nat) (data : Word) (s : State) : Res :=
  match (s.start t).actionWrite fn R.HUSK_KEY_CTL_LOAD data with
  | (s, go) => .next (s.doIf go (·.keyCommand fn data (·.doLoad fn)))

/-- DELETE past the access check: the slot is cleared, and its SAKs are to be removed within 6 s (R336). -/
def State.doDelete (s : State) (fn : Nat) : State :=
  let slot := s.f R.HUSK_KEY_CTL_SLOT
  ((s.setCakSlot slot { sakDeadline := s.now + 6 * secQ }).keyDone).post E.KEY_DELETED (subject slot 0 fn (s.domainOf fn))

/-- DELETE (R336). -/
def execDelete (t : Instant) (fn : Nat) (data : Word) (s : State) : Res :=
  match (s.start t).actionWrite fn R.HUSK_KEY_CTL_DELETE data with
  | (s, go) => .next (s.doIf go (·.keyCommand fn data (·.doDelete fn)))

/-- A port loses its transmit SA (R421): SA_TX falls. -/
def State.loseSa (s : State) (port : Nat) : State :=
  let s := { s with net := { s.net with txSa := kset 0 s.net.txSa port 0 } }
  if s.b R.NET_PORT_STAT_SA_TX port then (s.setB R.NET_PORT_STAT_SA_TX false port).post E.MSEC_NO_SA (subject port) else s

/-- SAK_REMOVAL (R336): the SAKs derived from a deleted CAK go. -/
def execSakRemoval (t : Instant) (slot : Nat) (s : State) : Res :=
  let s := s.start t
  let c := s.cakSlot slot
  .next (s.doIf (!c.valid && c.sakDeadline != 0) (fun s =>
    let s := [0, 1].foldl (fun s p => if kget 0 s.net.txSa p = slot + 1 then s.loseSa p else s) s
    s.setCakSlot slot { c with sakDeadline := 0 }))

end Sys2Proof.Machine
end

