-- ==== Sys2Proof/Machine/Safe.lean ====
section
/-! DEFINITION. The safety island: pairs and halves, the safety cycle, axes and functions, inputs, reset, outputs and test pulses,
split and rejoin, and the safety parameters (R274 to R310). Half 0 is A, half 1 is B; pair p is group p mod 2 of half p ÷ 2. -/
namespace Sys2Proof.Machine

/-- States of SAFE_PAIR. -/
abbrev spIdle : Nat := 0
abbrev spLockstep : Nat := 1
abbrev spDraining : Nat := 2
abbrev spSplit : Nat := 3
abbrev spRejoining : Nat := 4
abbrev spFault : Nat := 5

/-- Axis states (Table 9.3). -/
abbrev axSto : Nat := 0
abbrev axRun : Nat := 1
abbrev axSs1 : Nat := 2

/-- Half faults (FCAUSE). -/
abbrev fcMismatch : Nat := 1
abbrev fcLink : Nat := 2
abbrev fcOverrun : Nat := 3
abbrev fcClock : Nat := 4
abbrev fcChaff : Nat := 5
abbrev fcSplitCrc : Nat := 6
abbrev fcSplitTimeout : Nat := 7
abbrev fcOtherHalf : Nat := 8

/-- The island is armed. -/
def State.safeOn (s : State) : Bool := s.sealed && s.b R.SAFE_CTL_ARMED

def State.axHalf (s : State) (x h : Nat) : AxHalf := kget {} s.safe.ax (2 * x + h)
def State.setAxHalf (s : State) (x h : Nat) (a : AxHalf) : State :=
  { s with safe := { s.safe with ax := kset {} s.safe.ax (2 * x + h) a } }

/-- The supervised axes. -/
def State.axes (s : State) : List Nat := (List.range 4).filter fun x => s.b R.SAFE_AX_CFG_EN x

/-- The pair that evaluates an axis in a half (R276). -/
def State.axPair (s : State) (x h : Nat) : Nat := s.f R.SAFE_AX_CFG_GROUP x + 2 * h

def State.pairState (s : State) (p : Nat) : Nat := s.f R.SAFE_PAIR_STATE p

/-- A half has faulted. -/
def State.halfFlt (s : State) (h : Nat) : Bool := if h = 0 then s.b R.SAFE_STAT_HALF_A_FLT else s.b R.SAFE_STAT_HALF_B_FLT

/-- Word `j` of an axis' parameters as a number, and as an integer. -/
def State.axPar (s : State) (x j : Nat) : Rat := f32 (s.safe.params.getD (32 * x + j) 0)
def State.axInt (s : State) (x j : Nat) : Nat := (s.safe.params.getD (32 * x + j) 0).toNat

/-- T_SC in ticks, and in s (R282). -/
def State.tscTicks (s : State) : Nat := (s.f R.SAFE_CYCLE_SC_PER + 1) * 125000
def State.tsc (s : State) : Rat := ((s.f R.SAFE_CYCLE_SC_PER + 1 : Nat) : Rat) / 4000

/-! ## Outputs (R295 to R299) -/

def State.safeOut (s : State) (k : Nat) : SafeOut := kget {} s.safe.outs k
def State.setSafeOut (s : State) (k : Nat) (o : SafeOut) : State := { s with safe := { s.safe with outs := kset {} s.safe.outs k o } }

/-- The half that drives an output: STO_A, SOUT0 and SOUT1 are half A's. -/
def outHalf (k : Nat) : Nat := if k = 0 ∨ k = 2 ∨ k = 3 then 0 else 1

/-- An output is barred: a readback fault, a missed test, a fault of its half. -/
def State.outBarred (s : State) (k : Nat) : Bool :=
  s.bitF R.SAFE_OUT_STAT_RB_FLT k || s.bitF R.SAFE_OUT_STAT_TEST_MISS k || s.halfFlt (outHalf k)

/-- Command an output: its level, its pin, the STO mask of the trip matrix (R259), and a test that a demand
during its pulse or within 20 µs after it discards (R297). -/
def State.setOut (s : State) (k : Nat) (level : Bool) : State :=
  let level := level && !s.outBarred k
  let was := s.bitF R.SAFE_OUT_STAT_LEVEL k
  if was = level then s
  else
    let o := s.safeOut k
    let o := if level then { o with changedAt := s.now, highAt := s.now }
      else
        let was := match o.undo with
          | some (acc, e) => if s.now ≤ e + 20 * usQ then acc else o.highAcc
          | none => o.highAcc
        { o with changedAt := s.now, highAcc := was + (s.now - o.highAt), pulse := none, undo := none }
    let s := (s.setBitF R.SAFE_OUT_STAT_LEVEL k level).setSafeOut k o
    let s := s.emit (.safePin k level)
    if 2 ≤ k then s
    else if !level then s.stoDown
    else s.doIf (s.bitF R.SAFE_OUT_STAT_LEVEL 0 && s.bitF R.SAFE_OUT_STAT_LEVEL 1) (·.stoUp)

/-- The outputs of an axis' torque-off path (R299). -/
def State.pathOuts (s : State) (x : Nat) : List Nat :=
  let p := s.f R.SAFE_AX_CFG_STO_PATH x
  if p = 0 then [0, 1] else if p = 1 then [2, 4] else [3, 5]

/-- The level a half's RESULTs ask of output `k`. -/
def State.outWanted (s : State) (k : Nat) : Bool :=
  let h := outHalf k
  let on (x : Nat) : Bool := (s.axHalf x h).told != axSto
  if k < 2 then
    let xs := s.axes.filter fun x => s.f R.SAFE_AX_CFG_STO_PATH x == 0
    !xs.isEmpty && xs.all on
  else
    let x := s.f R.SAFE_SOUT_CFG_AXIS (k - 2)
    let kind := s.f R.SAFE_SOUT_CFG_KIND (k - 2)
    s.b R.SAFE_SOUT_CFG_EN (k - 2) && s.b R.SAFE_AX_CFG_EN x
      && (kind == 1 && on x || kind == 2 && (s.axHalf x h).told == axRun && (s.axHalf x h).viol == 0)

/-- The demand lines: asserted while either half holds an axis in STO, and for every axis while a half has faulted (R281, R299). -/
def State.demandLines (s : State) : Nat :=
  s.axes.foldl (fun d x =>
    if (s.axHalf x 0).told == axSto || (s.axHalf x 1).told == axSto || s.halfFlt 0 || s.halfFlt 1 then
      putBit d (s.f R.SAFE_AX_CFG_DEM x) true else d) 0

def State.setDemands (s : State) (d : Nat) : State := ({ s with safe := { s.safe with dem := d } }).settle

/-- Apply the RESULTs: outputs and demand lines (R282, step 1). -/
def State.applyResults (s : State) : State :=
  let s := (List.range 6).foldl (fun s k => s.setOut k (s.outWanted k)) s
  s.setDemands s.demandLines

/-! ## Half faults (R281) -/

/-- A half faults: its outputs go low, the demand lines of every axis assert, and the fault message leaves. -/
def State.halfFault (s : State) (h cause : Nat) : State :=
  if s.halfFlt h then s
  else
    let s := if h = 0 then (s.setB R.SAFE_STAT_HALF_A_FLT true).setF R.SAFE_STAT_FCAUSE_A cause
      else (s.setB R.SAFE_STAT_HALF_B_FLT true).setF R.SAFE_STAT_FCAUSE_B cause
    let s := s.post E.HALF_FAULT (subject h) (nw cause)
    let s := (List.range 6).foldl (fun s k => if outHalf k = h then s.setOut k false else s) s
    s.doIf (s.b R.SAFE_CTL_ARMED) fun s => s.setDemands s.demandLines

/-- A pair enters FAULT and its half faults. -/
def State.pairFault (s : State) (p cause : Nat) : State := ((s.setF R.SAFE_PAIR_STATE spFault p).halfFault (p / 2) cause).relPairOver p

/-- LOCKSTEP_MISMATCH (R280). -/
def execLockstepMismatch (t : Instant) (p : Nat) (s : State) : Res :=
  let s := s.start t
  .next (s.doIf (s.safeOn && decide (p < 4) && (s.pairState p == spLockstep || s.pairState p == spDraining)) fun s =>
    (s.post E.LOCKSTEP_MISMATCH (subject p)).pairFault p fcMismatch)

/-- FAULT_MESSAGE (R281): half `h` receives the other half's fault message. -/
def execFaultMessage (t : Instant) (h : Nat) (s : State) : Res :=
  let s := s.start t
  .next (s.doIf (s.safeOn && decide (h < 2) && s.halfFlt (1 - h)) (·.halfFault h fcOtherHalf))

/-- CROSS_LINK_LOSS (R284): half `h` has had no valid message in two cycles in a row. -/
def execCrossLinkLoss (t : Instant) (h : Nat) (s : State) : Res :=
  let s := s.start t
  .next (s.doIf (s.safeOn && decide (h < 2) && decide (2 ≤ kget 0 s.safe.linkRun h)) (·.halfFault h fcLink))

/-! ## Axis states (Table 9.3) -/

/-- The state SAFE_AX_STAT shows: the more restricted of the halves'. Mark: DEDUCED (log 132). -/
def shownState (a b : Nat) : Nat := if a = axSto ∨ b = axSto then axSto else if a = axSs1 ∨ b = axSs1 then axSs1 else axRun

/-- The status register of an axis; a change of its state posts AXIS_STATE. Mark: DEDUCED (log 132). -/
def State.showAxis (s : State) (x : Nat) : State :=
  let a := s.axHalf x 0
  let b := s.axHalf x 1
  let old := s.f R.SAFE_AX_STAT_STATE x
  let new := shownState a.st b.st
  let q := (a.v * 10).floor
  let q := if q > 32767 then 32767 else if q < -32768 then -32768 else q
  let fen := s.f R.SAFE_AX_CFG_FEN x
  let act := 32 * b2n (fen.testBit 4) + 16 * b2n (a.sls.isSome || b.sls.isSome)
    + 8 * b2n (a.sdiMax.isSome || a.sdiMin.isSome || b.sdiMax.isSome || b.sdiMin.isSome)
    + 2 * b2n (fen.testBit 0) + b2n (a.st == axSs1 || b.st == axSs1)
  let slp := fen.testBit 1 && (List.range 8).any fun i =>
    s.b R.SAFE_SIN_CFG_EN i && s.safe.demIn.testBit i && s.f R.SAFE_SIN_CFG_REQ i == 6 && (s.f R.SAFE_SIN_CFG_AXMASK i).testBit x
  let s := (((s.setF R.SAFE_AX_STAT_STATE new x).setF R.SAFE_AX_STAT_VIOL (a.viol ||| b.viol) x).setF R.SAFE_AX_STAT_SPD
    (unsignedOf 16 q) x).setF R.SAFE_AX_STAT_ACTIVE (act + 4 * b2n slp) x
  s.doIf (old != new) (·.post E.AXIS_STATE (subject x) (nw old) (nw new))

/-- Change an axis' state in a half; entering SS1 starts its time and keeps the speed. -/
def State.axEnter (s : State) (x h st : Nat) : State :=
  let a := s.axHalf x h
  if a.st = st then s else s.setAxHalf x h { a with st := st, ss1 := 0, v0 := a.v }

/-- An input that serves axis `x` with request `req` is in demand (as latched). -/
def State.request (s : State) (x req : Nat) : Bool :=
  (List.range 8).any fun i => s.b R.SAFE_SIN_CFG_EN i && s.safe.demIn.testBit i && s.f R.SAFE_SIN_CFG_REQ i == req
    && (s.f R.SAFE_SIN_CFG_AXMASK i).testBit x

/-- Axes whose path holds an output. -/
def State.axesOf (s : State) (k : Nat) : List Nat := s.axes.filter fun x => (s.pathOuts x).contains k

/-- Mark axes: a pending reset. -/
def State.pendAxes (s : State) (xs : List Nat) : State :=
  { s with safe := { s.safe with pend := xs.foldl (fun m x => putBit m x true) s.safe.pend } }

/-- KDBG is open, and the safety block does not permit debug with power: every axis is held in STO (R325). -/
def State.debugHold (s : State) : Bool := s.b R.HUSK_DBG_STAT_KDBG_OPEN && !Config.debugWithPower s.safe.consts

/-- Whether a reset event may return an axis to RUN (R294). -/
def State.resetOk (s : State) (x : Nat) : Bool :=
  !s.request x 1 && !s.request x 2 && (s.axHalf x 0).cond == 0 && (s.axHalf x 1).cond == 0 && !s.halfFlt 0 && !s.halfFlt 1
    && !((List.range 8).any fun i => s.bitF R.SAFE_SIN_STAT_DISC i && (s.f R.SAFE_SIN_CFG_AXMASK i).testBit x)
    && !((s.pathOuts x).any fun k => s.bitF R.SAFE_OUT_STAT_RB_FLT k) && !s.safe.outSto.testBit x && !s.debugHold

/-- A reset event on one axis: back to RUN, or refused. -/
def State.resetAxis (s : State) (x : Nat) : State :=
  if (s.axHalf x 0).st ≠ axSto ∧ (s.axHalf x 1).st ≠ axSto then s
  else if s.resetOk x then
    let s := { s with safe := { s.safe with pend := putBit s.safe.pend x false } }
    [0, 1].foldl (fun s h =>
      if (s.axHalf x h).st = axSto then (s.setAxHalf x h { s.axHalf x h with viol := 0 }).axEnter x h axRun else s) s
  else (s.setB R.SAFE_RST_REFUSED true).post E.RST_REFUSED (subject x)

/-- The reset event (R294). -/
def State.resetEvent (s : State) : State :=
  let s := (s.post E.RST_ACCEPTED).setF R.SAFE_OUT_STAT_TEST_MISS 0
  s.axes.foldl (fun s x => s.resetAxis x) s

/-- Transitions of an axis in a half at a cycle start. -/
def State.axisAt (s : State) (x h : Nat) : State :=
  let a := s.axHalf x h
  let stop := s.request x 1 || s.halfFlt 0 || s.halfFlt 1 || s.safe.outSto.testBit x || s.debugHold
  if a.st = axRun then (if stop then s.axEnter x h axSto else if s.request x 2 then s.axEnter x h axSs1 else s)
  else if a.st = axSs1 then
    let a := { a with ss1 := a.ss1 + 1 }
    let s := s.setAxHalf x h a
    let late := decide (s.axPar x 3 ≤ (a.ss1 : Rat) * s.tsc)
    let slow := s.b R.SAFE_AX_CFG_SS1_MODE x && decide (absQ a.v ≤ s.axPar x 6)
    if stop || late || slow then s.axEnter x h axSto else s
  else
    s.doIf (s.b R.SAFE_AX_CFG_RESTART x && !stop && !s.request x 2 && a.viol == 0 && !s.safe.pend.testBit x) (·.axEnter x h axRun)

/-- The estimates a half exchanges at the cycle start (R284). -/
def State.exchange (s : State) (x h : Nat) : State :=
  let a := s.axHalf x h
  s.setAxHalf x h { a with xv := a.v, xp := a.p, xok := a.wait == 0, wait := a.wait - 1 }

/-- Whether each half has received a valid cross-link message in this cycle (R284). -/
def State.linkSeen (s : State) (valid : Nat) : State :=
  { s with safe := { s.safe with 
    linkRun := [0, 1].foldl (fun m h => kset 0 m h (if valid.testBit h then 0 else kget 0 s.safe.linkRun h + 1)) s.safe.linkRun } }

/-- The logical kernels of a pod that hold SAFETY (code 5), in order (R276). -/
def State.safetyKernels (s : State) (pod : Nat) : List Nat := (List.range 15).filter fun k => kget 0 s.sea.roles (16 * pod + k) == 5

/-- The pod of a half, and the leader of a pair. -/
def halfPod (h : Nat) : Nat := if h = 0 then 0 else 23
def State.leader (s : State) (p : Nat) : Nat := (s.safetyKernels (halfPod (p / 2))).getD (2 * (p % 2)) 0

/-- 0.1 rad/s, saturating to 16 bits. -/
def spdCode (v : Rat) : Int :=
  let q := (v * 10).floor
  if q > 32767 then 32767 else if q < -32768 then -32768 else q

/-- State and VIOL of an axis as SAFX carries them (R308). -/
def AxHalf.code (a : AxHalf) : Nat := a.st + 4 * a.viol

/-- The CYCLE flit of a pair (Table 9.7). -/
def State.sendCycle (s : State) (p : Nat) (rst : Bool) : State :=
  let o := 1 - p / 2
  let c : SafCycle := { ts := s.shortTs, sinA := s.f R.SAFE_SIN_STAT_LIVE_A, sinB := s.f R.SAFE_SIN_STAT_LIVE_B, demIn := s.safe.demIn
                        rst := rst, rb := (List.range 6).foldl (fun m k => m + 2 ^ k * b2n (s.safeOut k).pad) 0, pairF := nw (s.f R.MEAS_PAIR_STAT_FAULT)
                        xSpd := (List.range 4).map fun x => spdCode (s.axHalf x o).v
                        xSt := (List.range 4).map fun x => (s.axHalf x o).code }
  s.send { dst := .kernels (halfPod (p / 2)) (2 ^ s.leader p), src := .port (halfPod (p / 2)) 0, payload := .safCycle c }

/-! ## Safety parameters (R303 to R305) -/

/-- Put words by identifier into a set. -/
def putIds (ps : List Word) (ws : List (Nat × Word)) : List Word := ws.foldl (fun ps w => ps.set (w.1 - 256) w.2) ps

/-- A word lies in the range of Table 9.5. -/
def State.psetWordOk (s : State) (id : Nat) (w : Word) : Bool :=
  if id < 256 ∨ 384 ≤ id then false
  else
    let j := (id - 256) % 32
    let num := f32Num w
    let q := f32 w
    if j = 11 ∨ j = 12 then decide (1 ≤ w.toNat) && decide (w.toNat ≤ 16)
    else
      match num with
      | .fin _ =>
        if j = 0 ∨ j = 1 ∨ j = 4 ∨ j = 10 ∨ j = 13 ∨ j = 14 then decide (0 < q)
        else if j = 2 then decide (0 ≤ q) && decide (q ≤ 10)
        else if j = 3 then decide (s.tsc ≤ q) && decide (q ≤ 60)
        else if j = 5 ∨ j = 6 ∨ j = 7 then decide (0 ≤ q)
        else j == 8 || j == 9
      | _ => false

/-- The set keeps SLP_MIN below SLP_MAX on every axis. -/
def psetOrder (ps : List Word) (ws : List (Nat × Word)) : Bool :=
  ws.all fun w =>
    let x := (w.1 - 256) / 32
    let j := (w.1 - 256) % 32
    if j = 8 ∨ j = 9 then decide (f32 (ps.getD (32 * x + 8) 0) < f32 (ps.getD (32 * x + 9) 0)) else true

/-- A refusal of a change: its reason is posted (1 SESSION, 2 RANGE, 3 CONFIRM, 4 NOT_SAFE_STATE, 5 LOG). -/
def State.psetRefused (s : State) (reason : Nat) : State × Option Nat :=
  ({ s with safe := { s.safe with staged := none } }.post E.PSET_REFUSED 0 (nw reason), some reason)

/-- Staging of KIND 1: NEW_CRC, or the reason of a refusal. A staging refused leaves an earlier one in place. -/
def State.psetStage (s : State) (user : Nat) (ws : List (Nat × Word)) : State × Option Nat × Word :=
  let refuse (r : Nat) : State × Option Nat × Word := (s.post E.PSET_REFUSED 0 (nw r), some r, 0)
  if !(s.pwSlot user).set || s.bitF R.SAFE_PW_STAT_LOCKED user then refuse 1
  else if !(ws.all fun w => s.psetWordOk w.1 w.2) || !psetOrder (putIds s.safe.params ws) ws then refuse 2
  else
    let crc := crcWords (putIds s.safe.params ws)
    ({ s with safe := { s.safe with staged := some (user, ws, crc, s.now + 60 * secQ) } }, none, crc)

/-- Confirmation of KIND 2: accepted (the set applies at the next cycle start, and the descriptor of `tag` completes then), or the
reason of a refusal. `logOk`: the change-log entries could be written. -/
def State.psetConfirm (s : State) (user tag : Nat) (crc : Word) (logOk : Bool) : State × Option Nat :=
  match s.safe.staged with
  | none => s.psetRefused 3
  | some (u, ws, c, tEnd) =>
    if u ≠ user ∨ tEnd ≤ s.now ∨ c ≠ crc then s.psetRefused 3
    else
      let old := s.safe.params
      let changed := ws.filter fun w => old.getD (w.1 - 256) 0 != w.2
      if changed.any fun w => (s.axHalf ((w.1 - 256) / 32) 0).st != axSto || (s.axHalf ((w.1 - 256) / 32) 1).st != axSto then s.psetRefused 4
      else if !logOk then s.psetRefused 5
      else
        let s := changed.foldl (fun s w => s.logChange w.1 user 1 (crcWords [old.getD (w.1 - 256) 0]) (crcWords [w.2])) s
        let base := (s.safe.overlay.map (·.1)).getD (s.f R.SAFE_PSET_CRC_CRC |> nw)
        let ov := ((s.safe.overlay.map (·.2)).getD []).filter (fun w => !(ws.any fun v => v.1 == w.1)) ++ ws
        ({ s with safe := { s.safe with staged := none, newSet := some (putIds old ws, tag), overlay := some (base, ov) } }, none)

/-- The PARAM flits of a set to a pair (Table 9.7): five words each, the last flit marked. Mark: DEDUCED (log 161). -/
def State.sendParams (s : State) (p : Nat) (ps : List Word) : State :=
  let n := ceilDiv ps.length 5
  (List.range n).foldl (fun s i =>
    s.send { dst := .kernels (halfPod (p / 2)) (2 ^ s.leader p), src := .port (halfPod (p / 2)) 0
             payload := .safWords 3 s.shortTs (5 * i) (i + 1 == n) ((ps.drop (5 * i)).take 5) }) s

/-- A pair takes CYCLE flits. -/
def State.inLockstep (s : State) (p : Nat) : Bool := s.pairState p == spLockstep

/-- A pair evaluates: in LOCKSTEP, or DRAINING until the next cycle start (R286). -/
def State.pairRuns (s : State) (p : Nat) : Bool := s.inLockstep p || s.pairState p == spDraining && !s.safe.drained.testBit p

/-- The halves apply an accepted set at a cycle start (R304). -/
def State.applySet (s : State) : State :=
  match s.safe.newSet with
  | none => s
  | some (ps, tag) =>
    let s := { s with safe := { s.safe with params := ps, newSet := none, lastCrc := some (crcWords ps) } }
    let s := [0, 1, 2, 3].foldl (fun s p => s.doIf (s.pairRuns p) (·.sendParams p ps)) s
    let s := (s.setF R.SAFE_PSET_CRC_CRC (crcWords ps).toNat).post E.PSET_CHANGED 0 (crcWords ps)
    s.finish tag 0 0 s.shortTs (crcWords ps)

/-- PSET_TIMEOUT (R304): the confirmation timer passes and the staging lapses. -/
def execPsetTimeout (t : Instant) (s : State) : Res :=
  let s := s.start t
  .next (match s.safe.staged with
    | some (_, _, _, e) => s.doIf (decide (e ≤ s.now)) fun s => { s with safe := { s.safe with staged := none } }
    | none => s)

/-! ## The safety cycle (R282 to R285) -/

/-- The tick of the next cycle start. -/
def State.nextCycle (s : State) : Nat :=
  match s.safe.cycleAt with
  | some c => c + s.tscTicks
  | none => ceilDiv s.pwm.enTick s.tscTicks * s.tscTicks

/-- The counts of a half's 10 MHz oscillator over a cycle lie more than 10 % away from T_SC (R283). -/
def State.clockFar (s : State) (n : Nat) : Bool :=
  let t := 2500 * (s.f R.SAFE_CYCLE_SC_PER + 1)
  decide (t < 10 * ((n : Int) - (t : Int)).natAbs)

/-- The cycle start: checks, the RESULTs of the previous cycle, inputs and resets, exchange, transitions, CYCLE flits. -/
def State.cycleStart (s : State) (tick rcA rcB link : Nat) : State :=
  let s := s.doIf s.safe.cycleAt.isSome fun s =>
    (s.doIf (s.clockFar rcA) (·.halfFault 0 fcClock)).doIf (s.clockFar rcB) (·.halfFault 1 fcClock)
  let s := [0, 1, 2, 3].foldl (fun s p => s.doIf (s.safe.owed.testBit p && s.pairRuns p) (·.halfFault (p / 2) fcOverrun)) s
  let s := s.applyResults
  let rst := s.safe.rstDue
  let s := { s with safe := { s.safe with cycleAt := some tick, demIn := s.f R.SAFE_SIN_STAT_DEM, rstDue := false } }
  let s := s.applySet
  let s := s.linkSeen link
  let s := s.axes.foldl (fun s x => [0, 1].foldl (fun s h => s.exchange x h) s) s
  let s := s.doIf rst (·.resetEvent)
  let s := s.axes.foldl (fun s x => [0, 1].foldl (fun s h => s.axisAt x h) s) s
  let s := { s with safe := { s.safe with outSto := 0 } }
  let s := [0, 1, 2, 3].foldl (fun s p =>
    if s.inLockstep p && !s.halfFlt (p / 2) then
      (({ s with safe := { s.safe with owed := putBit s.safe.owed p true, evaluated := putBit s.safe.evaluated p false } }).sendCycle p rst)
    else
      let s := { s with safe := { s.safe with owed := putBit s.safe.owed p false } }
      s.doIf (s.pairState p == spDraining) fun s => { s with safe := { s.safe with drained := putBit s.safe.drained p true } }) s
  s.axes.foldl (fun s x => s.showAxis x) s

/-- SAFETY_CYCLE_START (R282 to R284): `rcA` and `rcB` are what the halves' oscillators have counted over the last cycle; bit h of `link` says
that half h receives a valid cross-link message in this one. -/
def execSafetyCycleStart (t : Instant) (rcA rcB link : Nat) (s : State) : Res :=
  let s := s.start t
  .next (s.doIf (s.safeOn && decide (s.nextCycle ≤ s.pwmTime)) fun s => s.cycleStart (s.pwmTime / s.tscTicks * s.tscTicks) rcA rcB link)

/-! ## Functions (R300, R301, Table 9.2) -/

/-- VIOL bits. -/
abbrev vSms : Nat := 7
abbrev vSls : Nat := 6
abbrev vSdi : Nat := 5
abbrev vSlp : Nat := 4
abbrev vSlt : Nat := 3
abbrev vSs1 : Nat := 2
abbrev vCross : Nat := 1
abbrev vPair : Nat := 0

/-- A violation: its VIOL bit and event, the pending reset, and the reaction (R301). -/
def State.violate (s : State) (x h bit : Nat) : State :=
  let a := s.axHalf x h
  if a.viol.testBit bit then s
  else
    let s := (s.setAxHalf x h { a with viol := putBit a.viol bit true }).post E.VIOLATION (subject x) (nw bit) (nw h)
    let s := s.pendAxes [x]
    if a.st = axRun then s.axEnter x h (if s.f R.SAFE_AX_CFG_REACT x = 1 then axSs1 else axSto)
    else if a.st = axSs1 then s.axEnter x h axSto
    else s

/-- A function's condition in this cycle: N_LIM consecutive cycles make a violation. -/
def State.judge (s : State) (x h bit : Nat) (c : Bool) : State :=
  let a := s.axHalf x h
  let n := if c then kget 0 a.runs bit + 1 else 0
  let s := s.setAxHalf x h { a with runs := kset 0 a.runs bit n, cond := putBit a.cond bit c }
  s.doIf (c && decide (s.axInt x 12 ≤ n)) (·.violate x h bit)

/-- The interfaces of an axis have a loss line asserted (R300). -/
def State.axLoss (s : State) (x : Nat) : Bool :=
  s.bitF R.POS_CTL_LOSS_LINE (s.f R.SAFE_AX_POS_POS_A x) || s.bitF R.POS_CTL_LOSS_LINE (s.f R.SAFE_AX_POS_POS_B x)

/-- A pair fault line on a current accumulator of the axis is asserted. -/
def State.axPairFault (s : State) (x : Nat) : Bool :=
  let a1 := s.f R.SAFE_AX_POS_ACC_I1 x
  let a2 := s.f R.SAFE_AX_POS_ACC_I2 x
  (List.range 32).any fun n => s.bitF R.MEAS_PAIR_STAT_FAULT n && s.b R.MEAS_PAIR_CFG_EN n
    && (s.f R.MEAS_PAIR_CFG_ACC_A n == a1 || s.f R.MEAS_PAIR_CFG_ACC_B n == a1
      || s.f R.MEAS_PAIR_CFG_ACC_A n == a2 || s.f R.MEAS_PAIR_CFG_ACC_B n == a2)

/-- The interface of an axis in a half. -/
def State.axPi (s : State) (x h : Nat) : Nat := if h = 0 then s.f R.SAFE_AX_POS_POS_A x else s.f R.SAFE_AX_POS_POS_B x

/-- Machine constant `k` of an axis (R354): PSI, L_D, L_Q and R_S are 1 to 4. -/
def State.axConst (s : State) (x k : Nat) : Rat := f32 (s.safe.consts.getD (5 * x + k) 0)

/-- The torque estimate of R177: the two phase currents of the last windows, turned to the rotor's frame at the axis's own angle, with the
machine constants of the safety block (the torque of R160). Mark: DESIGN CHOICE (log 69). -/
def State.torqueOf (s : State) (x h : Nat) : Rat :=
  let cur (k a : Nat) : Rat := Config.safeCurrent x k (s.acc a).resSum (s.acc a).resCnt
  let i1 := cur 0 (s.f R.SAFE_AX_POS_ACC_I1 x)
  let i2 := cur 1 (s.f R.SAFE_AX_POS_ACC_I2 x)
  let pp : Rat := ((s.safe.consts.getD (5 * x) 0).toNat : Rat)
  let th := pp * (s.axHalf x h).p
  let al := i1
  let be := rnd ((i1 + 2 * i2) / Config.sqrt 3)
  let id := rnd (Config.cos th * al + Config.sin th * be)
  let iq := rnd (Config.cos th * be - Config.sin th * al)
  rnd (3 / 2 * pp * iq * (s.axConst x 1 + (s.axConst x 2 - s.axConst x 3) * id))

/-- The estimates of a cycle: the position of the newest capture, and the speed over N_V cycles (R300). Mark: DESIGN CHOICE (log 69). -/
def State.estimate (s : State) (x h : Nat) : State :=
  let a := s.axHalf x h
  let p := Config.safePosition x h (s.pi (s.axPi x h)).capture
  let nv := s.axInt x 11
  let hist := (p :: a.hist).take (nv + 1)
  let v := rnd ((p - hist.getD nv p) / ((nv : Rat) * s.tsc))
  s.setAxHalf x h { a with hist := hist, p := p, v := if a.wait = 0 then v else 0, wait := if s.axLoss x then nv + 1 else a.wait }

/-- Activations that last while a request is in demand: SLS time and SDI extremes. -/
def State.activations (s : State) (x h : Nat) : State :=
  let a := s.axHalf x h
  let fen := s.f R.SAFE_AX_CFG_FEN x
  let sls := if fen.testBit 3 && s.request x 3 then some ((a.sls.getD 0) + b2n a.sls.isSome) else none
  let top := if fen.testBit 2 && s.request x 4 then some (maxQ (a.sdiMax.getD a.p) a.p) else none
  let bot := if fen.testBit 2 && s.request x 5 then some (minQ (a.sdiMin.getD a.p) a.p) else none
  s.setAxHalf x h { a with sls := sls, sdiMax := top, sdiMin := bot }

/-- The functions of Table 9.2. Mark: DESIGN CHOICE (log 69). -/
def State.functions (s : State) (x h : Nat) : State :=
  let a := s.axHalf x h
  let fen := s.f R.SAFE_AX_CFG_FEN x
  let ok := a.wait == 0
  let v := absQ a.v
  let s := s.judge x h vSms (fen.testBit 4 && ok && decide (s.axPar x 0 < v))
  let s := s.judge x h vSls (ok && a.sls.any (fun n => decide (s.axPar x 2 ≤ (n : Rat) * s.tsc)) && decide (s.axPar x 1 < v))
  let s := s.judge x h vSdi (a.sdiMax.any (fun e => decide (s.axPar x 7 < e - a.p)) || a.sdiMin.any (fun e => decide (s.axPar x 7 < a.p - e)))
  let s := s.judge x h vSlp (fen.testBit 1 && s.request x 6 && (decide (a.p < s.axPar x 8) || decide (s.axPar x 9 < a.p)))
  let s := s.judge x h vSlt (fen.testBit 0 && decide (s.axPar x 10 < absQ (s.torqueOf x h)))
  s.judge x h vSs1 (a.st == axSs1 && s.b R.SAFE_AX_CFG_SS1_MODE x && ok
    && decide (absQ a.v0 - s.axPar x 4 * ((a.ss1 : Rat) * s.tsc) + s.axPar x 5 < v))

/-- Losses of position and pair faults, which are violations at once (R300). -/
def State.directViolations (s : State) (x h : Nat) : State :=
  let fen := s.f R.SAFE_AX_CFG_FEN x
  let loss := s.axLoss x
  let pf := s.axPairFault x
  let bits := (if fen.testBit 4 then [vSms] else []) ++ (if fen.testBit 3 then [vSls] else []) ++ (if fen.testBit 2 then [vSdi] else [])
    ++ (if fen.testBit 1 then [vSlp] else [])
  let s := s.doIf loss fun s => bits.foldl (fun s b =>
    (s.setAxHalf x h { s.axHalf x h with cond := putBit (s.axHalf x h).cond b true }).violate x h b) s
  let s := s.setAxHalf x h { s.axHalf x h with cond := putBit (s.axHalf x h).cond vPair pf }
  s.doIf pf (·.violate x h vPair)

/-- Cross-comparison of the estimates exchanged at the cycle start (R285). -/
def State.crossCompare (s : State) (x h : Nat) : State :=
  let a := s.axHalf x h
  let o := s.axHalf x (1 - h)
  if !a.xok || !o.xok || kget 0 s.safe.linkRun h != 0 then s.setAxHalf x h { a with cond := putBit a.cond vCross false }
  else
    let far := decide (s.axPar x 13 < absQ (a.xv - o.xv))
      || (s.f R.SAFE_AX_CFG_FEN x).testBit 1 && decide (s.axPar x 14 < absQ (a.xp - o.xp))
    let n := if far then a.crossRun + 1 else 0
    let s := s.setAxHalf x h { a with crossRun := n, cond := putBit a.cond vCross far }
    if far ∧ s.f R.SAFE_CYCLE_N_X + 1 ≤ n then (s.violate x h vCross).violate x (1 - h) vCross else s

/-- The axes a pair evaluates. -/
def State.pairAxes (s : State) (p : Nat) : List Nat := s.axes.filter fun x => s.axPair x (p / 2) == p

/-- The RESULT flit of a pair (Table 9.7). -/
def State.sendResult (s : State) (p : Nat) : State :=
  let h := p / 2
  let mine := s.pairAxes p
  let get (x : Nat) (g : AxHalf → Int) : Int := if mine.contains x then g (s.axHalf x h) else 0
  let r : SafResult := { ts := s.shortTs, out := (List.range 6).foldl (fun m k => if outHalf k = h && s.outWanted k then m + 2 ^ k else m) 0
                         dem := mine.foldl (fun d x => if (s.axHalf x h).st = axSto then putBit d (s.f R.SAFE_AX_CFG_DEM x) true else d) 0
                         spd := (List.range 4).map fun x => get x fun a => spdCode a.v
                         axSt := (List.range 4).map fun x => (get x fun a => (a.code : Int)).toNat }
  s.transmit { dst := .port (halfPod h) 0, src := .kernel (halfPod h) (s.leader p), payload := .safResult r }

/-- SAFETY_EVALUATION (R300, R301): pair `p` evaluates the cycle on the newest captures and windows. -/
def execSafetyEvaluation (t : Instant) (p : Nat) (s : State) : Res :=
  let s := s.start t
  .next (s.doIf (s.safeOn && decide (p < 4) && s.pairRuns p && s.safe.owed.testBit p && !s.safe.evaluated.testBit p) fun s =>
    let h := p / 2
    let s := { s with safe := { s.safe with evaluated := putBit s.safe.evaluated p true } }
    let s := (s.pairAxes p).foldl (fun s x =>
      let s := ((s.estimate x h).activations x h).functions x h
      ((s.directViolations x h).crossCompare x h).showAxis x) s
    s.sendResult p)

/-- SAFETY_RESULT (R282, R286): the RESULT reaches its half; a half whose own pair is split takes the mirror pair's. -/
def execSafetyResult (t : Instant) (p : Nat) (s : State) : Res :=
  let s := s.start t
  .next (s.doIf (s.safeOn && decide (p < 4) && s.safe.owed.testBit p && s.safe.evaluated.testBit p) fun s =>
    let h := p / 2
    let s := { s with safe := { s.safe with owed := putBit s.safe.owed p false } }
    (s.pairAxes p).foldl (fun s x =>
      let a := s.axHalf x h
      let s := s.setAxHalf x h { a with told := a.st }
      let o := s.axHalf x (1 - h)
      s.doIf (!s.pairRuns (s.axPair x (1 - h))) (·.setAxHalf x (1 - h)
        { o with st := a.st, told := a.st, viol := a.viol, cond := a.cond, v := a.v, p := a.p, wait := s.axInt x 11 + 1, ss1 := a.ss1, v0 := a.v0
                 sls := a.sls, sdiMax := a.sdiMax, sdiMin := a.sdiMin })) s)

/-! ## Split and rejoin (R286) -/

/-- A split request for pair `p`. -/
def State.splitRequest (s : State) (p : Nat) : State :=
  let ok := [0, 1, 2, 3].all (fun q => s.inLockstep q) && !s.halfFlt 0 && !s.halfFlt 1
    && (s.axes.filter fun x => s.f R.SAFE_AX_CFG_GROUP x == p % 2).all (fun x => (s.axHalf x 0).st != axSs1 && (s.axHalf x 1).st != axSs1)
  if ok then { s.setF R.SAFE_PAIR_STATE spDraining p with safe := { s.safe with drained := putBit s.safe.drained p false } }
  else (s.setB R.SAFE_SPLIT_SPLIT false).post E.SPLIT_REFUSED (subject p)

/-- SPLIT: the safety officer's request. -/
def execSplit (t : Instant) (fn : Nat) (data : Word) (s : State) : Res :=
  match (s.start t).actionWrite fn R.SAFE_SPLIT_SPLIT data with
  | (s, go) => .next (s.doIf go fun s => (s.setB R.SAFE_SPLIT_SPLIT true).splitRequest (s.f R.SAFE_SPLIT_PAIR))

/-- SPLIT_DONE: both members of a drained pair have sent their CRCs. -/
def execSplitDone (t : Instant) (p : Nat) (crcLead crcShadow : Word) (s : State) : Res :=
  let s := s.start t
  .next (s.doIf (s.safeOn && decide (p < 4) && s.pairState p == spDraining && s.safe.drained.testBit p) fun s =>
    let s := s.setB R.SAFE_SPLIT_SPLIT false
    if crcLead = crcShadow then
      let s := (s.setF R.SAFE_PAIR_STATE spSplit p).incF R.SAFE_PAIR_SPLITS 1 p
      let s := { s with safe := { s.safe with splitEnd := kset 0 s.safe.splitEnd p (s.now + s.f R.SAFE_CYCLE_SPLIT_MAX * msQ) } }
      s.post E.SPLIT_DONE (subject p)
    else s.pairFault p fcSplitCrc)

/-- A rejoin request for pair `p`, with the outcome of the chaff test of its lockstep unit. -/
def State.rejoinRequest (s : State) (p : Nat) (chaffOk : Bool) : State :=
  if s.pairState p = spSplit then
    if chaffOk then s.setF R.SAFE_PAIR_STATE spRejoining p else (s.setB R.SAFE_SPLIT_REJOIN false).pairFault p fcChaff
  else (s.setB R.SAFE_SPLIT_REJOIN false).post E.SPLIT_REFUSED (subject p)

/-- REJOIN. -/
def execRejoin (t : Instant) (fn : Nat) (data : Word) (chaffOk : Bool) (s : State) : Res :=
  match (s.start t).actionWrite fn R.SAFE_SPLIT_REJOIN data with
  | (s, go) => .next (s.doIf go fun s =>
      (s.setB R.SAFE_SPLIT_REJOIN true).rejoinRequest (s.f R.SAFE_SPLIT_PAIR) chaffOk)

/-- REJOIN_DONE: the mirror pair's state is copied, and the pair runs in lockstep from the next cycle start. -/
def execRejoinDone (t : Instant) (p : Nat) (s : State) : Res :=
  let s := s.start t
  .next (s.doIf (s.safeOn && decide (p < 4) && s.pairState p == spRejoining) fun s =>
    let h := p / 2
    let s := (s.axes.filter fun x => s.axPair x h == p).foldl (fun s x =>
      s.setAxHalf x h { s.axHalf x (1 - h) with hist := [], wait := s.axInt x 11 + 1, xok := false, crossRun := 0 }) s
    let s := { s with safe := { s.safe with splitEnd := kset 0 s.safe.splitEnd p 0 } }
    (((s.setF R.SAFE_PAIR_STATE spLockstep p).setB R.SAFE_SPLIT_REJOIN false).post E.REJOIN_DONE (subject p)).relPairOver p)

/-- SPLIT_TIMEOUT. -/
def execSplitTimeout (t : Instant) (p : Nat) (s : State) : Res :=
  let s := s.start t
  .next (s.doIf (s.safeOn && decide (p < 4) && (s.pairState p == spSplit || s.pairState p == spRejoining)
    && decide (kget 0 s.safe.splitEnd p ≤ s.now)) fun s => (s.setB R.SAFE_SPLIT_REJOIN false).pairFault p fcSplitTimeout)

/-! ## Chaff tests and arming (R287 to R290) -/

/-- CHAFF_TEST_DONE (R287, R288): every comparator has passed, or one of half `h` has failed. -/
def execChaffTestDone (t : Instant) (failed : Option (Nat × Nat)) (s : State) : Res :=
  let s := s.start t
  .next (s.doIf (s.alive && !s.b R.CFG_STAT_SEALED && s.safe.present && s.b R.SAFE_CTL_EN && !s.b R.SAFE_CTL_CHAFF_OK) fun s =>
    match failed with
    | some (h, c) => (s.halfFault (h % 2) fcChaff).post E.CHAFF_FAIL (subject (h % 2)) (nw c)
    | none => s.doIf (!s.halfFlt 0 && !s.halfFlt 1) (·.setB R.SAFE_CTL_CHAFF_OK true))

/-- The island arms at sealing (R289): every axis in STO, a press already present is none. -/
def State.armSafe (s : State) : State :=
  if s.safe.present && s.b R.SAFE_CTL_EN && s.b R.SAFE_CTL_CHAFF_OK then
    let s := (s.setB R.SAFE_CTL_ARMED true).post E.SAFE_ARMED
    let s := [0, 1, 2, 3].foldl (fun s p => s.setF R.SAFE_PAIR_STATE spLockstep p) s
    let s := s.axes.foldl (fun s x => [0, 1].foldl (fun s h => s.setAxHalf x h { wait := s.axInt x 11 + 1 }) s) s
    let s := { s with safe := { s.safe with pressVoid := s.b R.SAFE_RST_PRESSED, pressAt := s.now, armedAt := s.now } }
    s.setDemands s.demandLines
  else s

/-! ## Inputs (R291, R292) -/

/-- Bit `i` of SAFE_SIN_STAT.DEM: either channel at its demand level, or discrepant. -/
def State.sinDemand (s : State) (i : Nat) : State :=
  s.setBitF R.SAFE_SIN_STAT_DEM i (s.bitF R.SAFE_SIN_STAT_LIVE_A i || s.bitF R.SAFE_SIN_STAT_LIVE_B i || s.bitF R.SAFE_SIN_STAT_DISC i)

/-- A channel's accepted level: demand levels, disagreement and the end of DISC. -/
def State.sinChange (s : State) (h i : Nat) (level : Bool) : State :=
  let at_ := if h = 1 && s.b R.SAFE_SIN_CFG_ANTI i then level else !level
  let s := s.setBitF (if h = 0 then R.SAFE_SIN_STAT_LIVE_A else R.SAFE_SIN_STAT_LIVE_B) i at_
  let a := s.bitF R.SAFE_SIN_STAT_LIVE_A i
  let b := s.bitF R.SAFE_SIN_STAT_LIVE_B i
  let was := kget 0 s.safe.disagreeAt i
  let s := { s with safe := { s.safe with disagreeAt := kset 0 s.safe.disagreeAt i (if a = b then 0 else if was = 0 then s.now + 1 else was) } }
  let disc := s.bitF R.SAFE_SIN_STAT_DISC i
  let s := s.doIf (disc && a && b) fun s => { s with safe := { s.safe with discBoth := putBit s.safe.discBoth i true } }
  let s := s.doIf (disc && !a && !b && s.safe.discBoth.testBit i) fun s =>
    { s.setBitF R.SAFE_SIN_STAT_DISC i false with safe := { s.safe with discBoth := putBit s.safe.discBoth i false } }
  s.sinDemand i

/-- SIN_CHANGE (R291): channel A (`h` = 0) or B of input `i` has held a level since the instant `since`, and accepts it once that is t_F. -/
def execSinChange (t : Instant) (h i : Nat) (level : Bool) (since : Instant) (s : State) : Res :=
  let s := s.start t
  .next (s.doIf (s.sealed && s.safe.present && decide (i < 8) && decide (h < 2) && s.b R.SAFE_SIN_CFG_EN i
      && decide (since + (s.f R.SAFE_SIN_CFG_FILT i + 1) * 500 * usQ ≤ s.now)) (·.sinChange h i level))

/-- SIN_DISCREPANCY (R292). -/
def execSinDiscrepancy (t : Instant) (i : Nat) (s : State) : Res :=
  let s := s.start t
  let d := kget 0 s.safe.disagreeAt i
  .next (s.doIf (s.sealed && s.safe.present && decide (i < 8) && decide (d ≠ 0) && !s.bitF R.SAFE_SIN_STAT_DISC i
      && decide (d + (s.f R.SAFE_SIN_CFG_T_DISC i + 1) * msQ < s.now + 1)) fun s =>
    let s := (s.setBitF R.SAFE_SIN_STAT_DISC i true).post E.SIN_DISCREPANCY (subject i)
    let s := { s with safe := { s.safe with discBoth := putBit s.safe.discBoth i false } }
    (s.pendAxes (s.axes.filter fun x => (s.f R.SAFE_SIN_CFG_AXMASK i).testBit x)).sinDemand i)

/-! ## Reset input (R293) -/

/-- SRST_IN has held a level since an instant: it is accepted after 10 ms. -/
def State.rstAccepted (s : State) (since : Instant) : Bool := s.alive && decide (since + 10 * msQ ≤ s.now)

/-- The level that the pull of SRST_IN gives an open button: up until sealing, then toward the released level of POL (R509). -/
def State.srstPull (s : State) : Bool := !(s.sealed && s.b R.SAFE_RST_POL)

/-- SRST_PRESS: SRST_IN has stood at the pressed level since `since`, driven or open. A press that was there when the island armed is none. -/
def execSrstPress (t : Instant) (level : Option Bool) (since : Instant) (s : State) : Res :=
  let s := s.start t
  .next (s.doIf (s.rstAccepted since && level.getD s.srstPull == s.b R.SAFE_RST_POL && !s.b R.SAFE_RST_PRESSED) fun s =>
    { s.setB R.SAFE_RST_PRESSED true with
      safe := { s.safe with pressAt := s.now, pressVoid := !s.b R.SAFE_CTL_ARMED || decide (since ≤ s.safe.armedAt) } })

/-- SRST_RELEASE: SRST_IN has stood at the released level since `since`; a press of 50 ms to 5 s makes one reset event. -/
def execSrstRelease (t : Instant) (level : Option Bool) (since : Instant) (s : State) : Res :=
  let s := s.start t
  .next (s.doIf (s.rstAccepted since && level.getD s.srstPull != s.b R.SAFE_RST_POL && s.b R.SAFE_RST_PRESSED) fun s =>
    let d := s.now - s.safe.pressAt
    let ok := !s.b R.SAFE_RST_STUCK && !s.safe.pressVoid && decide (50 * msQ ≤ d) && decide (d < 5 * secQ)
    let s := (s.setB R.SAFE_RST_PRESSED false).setB R.SAFE_RST_STUCK false
    { s with safe := { s.safe with rstDue := s.safe.rstDue || ok, pressVoid := false } })

/-- RST_STUCK. -/
def execRstStuck (t : Instant) (s : State) : Res :=
  let s := s.start t
  .next (s.doIf (s.safeOn && s.b R.SAFE_RST_PRESSED && decide (s.safe.pressAt + 5 * secQ ≤ s.now)) (·.raise R.SAFE_RST_STUCK 0 E.RST_STUCK 0))

/-! ## Readback and test pulses (R295 to R297) -/

/-- An output fault: the output low, its axes into STO at the next cycle start with a pending reset. -/
def State.outFault (s : State) (k : Nat) : State :=
  let xs := s.axesOf k
  let s := (s.setOut k false).pendAxes xs
  { s with safe := { s.safe with outSto := xs.foldl (fun m x => putBit m x true) s.safe.outSto } }

/-- One readback sample of an output. -/
def State.readback (s : State) (k : Nat) (pad : Bool) : State :=
  let o := { s.safeOut k with pad := pad }
  let s := s.setSafeOut k o
  let want := s.bitF R.SAFE_OUT_STAT_LEVEL k && o.pulse.isNone
  if s.now < o.changedAt + 20 * usQ then s
  else if pad = want then s.setSafeOut k { o with rbRun := 0 }
  else if o.rbRun + 1 < 3 then s.setSafeOut k { o with rbRun := o.rbRun + 1 }
  else if s.bitF R.SAFE_OUT_STAT_RB_FLT k then s
  else ((s.setBitF R.SAFE_OUT_STAT_RB_FLT k true).post E.OUT_READBACK (subject k)).outFault k

/-- READBACK_SAMPLE (R295): half `h` reads the pads of its outputs. -/
def execReadbackSample (t : Instant) (h pads : Nat) (s : State) : Res :=
  let s := s.start t
  .next (s.doIf s.safeOn fun s =>
    (List.range 6).foldl (fun s k => s.doIf (outHalf k == h) (·.readback k (pads.testBit k))) s)

/-- The test pulse set-up of an output: TP_EN, TP_W, TP_INT. -/
def State.pulseCfg (s : State) (k : Nat) : Bool × Nat × Nat :=
  if k < 2 then (s.b R.SAFE_STO_CFG_TP_EN, s.f R.SAFE_STO_CFG_TP_W, s.f R.SAFE_STO_CFG_TP_INT)
  else (s.b R.SAFE_SOUT_CFG_TP_EN (k - 2), s.f R.SAFE_SOUT_CFG_TP_W (k - 2), s.f R.SAFE_SOUT_CFG_TP_INT (k - 2))

/-- Time an output has been high since its last passing test. -/
def State.highTime (s : State) (k : Nat) : Nat :=
  let o := s.safeOut k
  o.highAcc + (if s.bitF R.SAFE_OUT_STAT_LEVEL k then s.now - o.highAt else 0)

/-- The partner of an output in its path. -/
def outPartner (k : Nat) : Nat := [1, 0, 4, 5, 2, 3].getD k 0

/-- TEST_PULSE_START (R296). -/
def execTestPulseStart (t : Instant) (k : Nat) (s : State) : Res :=
  let s := s.start t
  let (en, _, iv) := s.pulseCfg k
  .next (s.doIf (s.safeOn && decide (k < 6) && en && s.bitF R.SAFE_OUT_STAT_LEVEL k && (s.safeOut k).pulse.isNone
      && (s.safeOut (outPartner k)).pulse.isNone && decide ((iv + 1) * 10 * msQ ≤ s.highTime k)) fun s =>
    (s.setSafeOut k { s.safeOut k with pulse := some s.now, changedAt := s.now, undo := none }).emit (.safePin k false))

/-- TEST_PULSE_END (R296): `rb5` is the pad's level 5 µs after the pulse started, `rb20` that 20 µs after it ends. -/
def execTestPulseEnd (t : Instant) (k : Nat) (rb5 rb20 : Bool) (s : State) : Res :=
  let s := s.start t
  let (_, w, _) := s.pulseCfg k
  .next (match (s.safeOut k).pulse with
    | some p => s.doIf (s.safeOn && decide (p + (w + 1) * 10 * usQ ≤ s.now)) fun s =>
        let o := { s.safeOut k with pulse := none, changedAt := s.now }
        let o := if !rb5 && rb20 then { o with highAcc := 0, highAt := s.now, undo := some (s.highTime k, s.now) } else o
        (s.setSafeOut k o).emit (.safePin k true)
    | none => s)

/-- TEST_MISSED (R297). -/
def execTestMissed (t : Instant) (k : Nat) (s : State) : Res :=
  let s := s.start t
  let (en, _, iv) := s.pulseCfg k
  .next (s.doIf (s.safeOn && decide (k < 6) && en && !s.bitF R.SAFE_OUT_STAT_TEST_MISS k && s.bitF R.SAFE_OUT_STAT_LEVEL k
      && decide (2 * (iv + 1) * 10 * msQ < s.highTime k)) fun s =>
    ((s.setBitF R.SAFE_OUT_STAT_TEST_MISS k true).post E.TEST_MISSED (subject k)).outFault k)

end Sys2Proof.Machine
end

