-- ==== Sys2Proof/Machine/Hostq.lean ====
section
/-! DEFINITION. HOSTQ: rings, doorbells, the fetch of descriptors with its checks, release, completions and interrupts, ring errors,
loss of the link, host loss and the fallback (R368 to R383, R393 to R400). Functions are 0 and 1; rings are numbered 32·f + q. -/
namespace Sys2Proof.Machine

/-- STATE codes of rings. -/
abbrev rgOff : Nat := 0
abbrev rgActive : Nat := 1
abbrev rgDraining : Nat := 2
abbrev rgError : Nat := 3

def State.sqState (s : State) (fn q : Nat) : Nat := s.f R.HOSTQ_SQ_STAT_STATE q fn
def State.cqState (s : State) (fn q : Nat) : Nat := s.f R.HOSTQ_CQ_STAT_STATE q fn

/-- The CQ that an SQ names. -/
def State.cqOf (s : State) (fn q : Nat) : Nat := s.f R.HOSTQ_SQ_CFG_CQ q fn

/-- HOSTQ may master the bus on a function (R370). -/
def State.busOpen (s : State) (fn : Nat) : Bool := s.sealed && s.hostq.linkUp && s.hostq.bme.testBit fn

/-- Subject of a ring event. -/
def ringSubject (fn q dom : Nat) : Nat := subject q 0 fn dom

/-! ## Setting rings up and down (R371, R374) -/

/-- An SQ becomes DISABLED: it has no binding any more. -/
def State.sqOff (s : State) (fn q : Nat) : State :=
  let s := (s.setF R.HOSTQ_SQ_STAT_STATE rgOff q fn).setF R.HOSTQ_SQ_STAT_DOMAIN 0 q fn
  (s.setB R.HOSTQ_SQ_CFG_EN false q fn).setF R.HOSTQ_SQ_STAT_ERR 0 q fn

/-- A CQ becomes DISABLED. -/
def State.cqOff (s : State) (fn q : Nat) : State :=
  let s := (s.setF R.HOSTQ_CQ_STAT_STATE rgOff q fn).setF R.HOSTQ_CQ_STAT_DOMAIN 0 q fn
  (s.setB R.HOSTQ_CQ_CFG_EN false q fn).setB R.HOSTQ_CQ_STAT_FULL false q fn

/-- An SQ is enabled: ACTIVE, empty, bound to the domain of the access. -/
def State.sqOn (s : State) (fn q dom : Nat) : State :=
  let r := 32 * fn + q
  let s := (((s.setB R.HOSTQ_SQ_CFG_EN true q fn).setF R.HOSTQ_SQ_STAT_STATE rgActive q fn).setF R.HOSTQ_SQ_STAT_DOMAIN dom q fn)
  let s := (s.setF R.HOSTQ_SQ_STAT_ERR 0 q fn).setF R.HOSTQ_SQ_STAT_HEAD 0 q fn
  { s with hostq := { s.hostq with tails := kset 0 s.hostq.tails r 0, done := kset [] s.hostq.done r []
                                   refusing := s.hostq.refusing.filter (· != r) } }

/-- A CQ is enabled: ACTIVE, PHASE 1, empty, bound to the domain of the access (R373). -/
def State.cqOn (s : State) (fn q dom : Nat) : State :=
  let r := 32 * fn + q
  let s := (((s.setB R.HOSTQ_CQ_CFG_EN true q fn).setF R.HOSTQ_CQ_STAT_STATE rgActive q fn).setF R.HOSTQ_CQ_STAT_DOMAIN dom q fn)
  let s := (((s.setB R.HOSTQ_CQ_STAT_PHASE true q fn).setB R.HOSTQ_CQ_STAT_FULL false q fn).setF R.HOSTQ_CQ_STAT_HEAD 0 q
    fn).setF R.HOSTQ_CQ_STAT_TAIL 0 q fn
  { s with hostq := { s.hostq with filled := s.hostq.filled.filter (· != r), unsig := kset [] s.hostq.unsig r []
                                   unsigNow := s.hostq.unsigNow.filter (· != r) } }

/-- SIZE of a ring lies in 4 to 12 (R371). -/
def sizeOk (n : Nat) : Bool := decide (4 ≤ n) && decide (n ≤ 12)

/-- The enable of a ring is allowed: an SQ needs an enabled CQ of the same domain, and any ring a SIZE of R371 and to be DISABLED. Mark:
DEDUCED (log 107). -/
def State.ringOnOk (s : State) (cq : Bool) (fn q dom : Nat) : Bool :=
  if cq then s.cqState fn q == rgOff && sizeOk (s.f R.HOSTQ_CQ_CFG_SIZE q fn)
  else
    let c := s.cqOf fn q
    s.sqState fn q == rgOff && sizeOk (s.f R.HOSTQ_SQ_CFG_SIZE q fn) && s.cqState fn c == rgActive && s.f R.HOSTQ_CQ_STAT_DOMAIN c fn == dom

/-- The disable of a ring is allowed: no enabled SQ names a CQ that is not in ERROR. -/
def State.ringOffOk (s : State) (cq : Bool) (fn q : Nat) : Bool :=
  !cq || s.cqState fn q == rgError
    || !((List.range 32).any fun p => s.b R.HOSTQ_SQ_CFG_EN p fn && s.cqOf fn p == q)

/-- EN of a ring is cleared (R374, R375). -/
def State.ringOff (s : State) (cq : Bool) (fn q : Nat) : State :=
  if cq then s.cqOff fn q
  else if s.f R.HOSTQ_SQ_STAT_OUTSTANDING q fn = 0 then s.sqOff fn q
  else
    let s := s.setB R.HOSTQ_SQ_CFG_EN false q fn
    s.doIf (s.sqState fn q == rgActive) (·.setF R.HOSTQ_SQ_STAT_STATE rgDraining q fn)

/-- A write of a ring's CFG register. While EN is 1, SIZE, CQ, PRIO, VEC and BURST keep their values; a refused enable or disable changes
nothing. Mark: DEDUCED (log 107). -/
def State.ringCfg (s : State) (cq : Bool) (fn q : Nat) (data : Word) : State :=
  let en := if cq then R.HOSTQ_CQ_CFG_EN else R.HOSTQ_SQ_CFG_EN
  let was := s.b en q fn
  let old := s.word .hostq (en.key q fn)
  let dom := s.domainOf fn
  match s.writeAt fn .hostq (en.off q fn) data with
  | (s, none) => s
  | (s, some _) =>
    let s := s.doIf was fun s =>
      let w := if cq then setBits old 21 4 (getBits (s.word .hostq (en.key q fn)) 21 4) else old
      s.setWord .hostq (en.key q fn) w
    let on := getBits data 31 31 == 1
    let refuse (s : State) : State := (s.setWord .hostq (en.key q fn) old).post E.RING_CFG_REFUSED (ringSubject fn q dom)
    if on && !was then
      (if s.ringOnOk cq fn q dom then (if cq then s.cqOn fn q dom else s.sqOn fn q dom) else refuse s)
    else if !on && was then (if s.ringOffOk cq fn q then s.ringOff cq fn q else refuse s)
    else s

/-- RING_ENABLE (R371): a write of HOSTQ_SQ_CFG or HOSTQ_CQ_CFG with EN = 1. -/
def execRingEnable (t : Instant) (fn : Nat) (cq : Bool) (q : Nat) (data : Word) (s : State) : Res :=
  let s := s.start t
  .next (s.doIf (getBits data 31 31 == 1 && decide (fn < 2) && decide (q < 32)) (·.ringCfg cq fn q data))

/-- RING_DISABLE (R371, R374): a write of HOSTQ_SQ_CFG or HOSTQ_CQ_CFG with EN = 0. -/
def execRingDisable (t : Instant) (fn : Nat) (cq : Bool) (q : Nat) (data : Word) (s : State) : Res :=
  let s := s.start t
  .next (s.doIf (getBits data 31 31 == 0 && decide (fn < 2) && decide (q < 32)) (·.ringCfg cq fn q data))

/-- RING_DRAINED (R374, R375): the last outstanding descriptor of an SQ whose EN is cleared has finished. -/
def execRingDrained (t : Instant) (fn q : Nat) (s : State) : Res :=
  let s := s.start t
  .next (s.doIf (decide (fn < 2) && decide (q < 32) && !s.b R.HOSTQ_SQ_CFG_EN q fn && s.f R.HOSTQ_SQ_STAT_OUTSTANDING q fn == 0
    && (s.sqState fn q == rgDraining || s.sqState fn q == rgError)) (·.sqOff fn q))

/-! ## Doorbells (R372, R373) -/

/-- The doorbells of BAR2 can be reached; a tail written before SEALED is acted on from SEALED on (R493). -/
def State.bellOpen (s : State) : Bool := s.barOpen && !s.husk.eraseHeld

/-- SQ_TAIL_DOORBELL (R372): a write of BAR2 at 8·q. -/
def execSqTailDoorbell (t : Instant) (fn q : Nat) (data : Word) (s : State) : Res :=
  let s := s.start t
  .next (s.doIf (s.bellOpen && decide (fn < 2) && decide (q < 32) && s.b R.HOSTQ_SQ_CFG_EN q fn) fun s =>
    if data.toNat < 2 ^ s.f R.HOSTQ_SQ_CFG_SIZE q fn then
      { s with hostq := { s.hostq with tails := kset 0 s.hostq.tails (32 * fn + q) data.toNat } }
    else if s.b R.HOSTQ_SQ_STAT_DB_BAD q fn then s
    else (s.setB R.HOSTQ_SQ_STAT_DB_BAD true q fn).post E.DB_BAD (ringSubject fn q (s.f R.HOSTQ_SQ_STAT_DOMAIN q fn)))

/-- A CQ is full when the device's next TAIL equals the host's HEAD; the first fill since EN is reported (R373). -/
def State.fillCheck (s : State) (fn q : Nat) : State :=
  let size := 2 ^ s.f R.HOSTQ_CQ_CFG_SIZE q fn
  let full := (s.f R.HOSTQ_CQ_STAT_TAIL q fn + 1) % size == s.f R.HOSTQ_CQ_STAT_HEAD q fn
  let r := 32 * fn + q
  let s := s.setB R.HOSTQ_CQ_STAT_FULL full q fn
  if full && !s.hostq.filled.contains r then
    ({ s with hostq := { s.hostq with filled := r :: s.hostq.filled } }).post E.CQ_FULL (ringSubject fn q (s.f R.HOSTQ_CQ_STAT_DOMAIN q fn))
  else s

/-- CQ_HEAD_DOORBELL (R373): a write of BAR2 at 0x100 + 8·q. -/
def execCqHeadDoorbell (t : Instant) (fn q : Nat) (data : Word) (s : State) : Res :=
  let s := s.start t
  .next (s.doIf (s.bellOpen && decide (fn < 2) && decide (q < 32) && s.b R.HOSTQ_CQ_CFG_EN q fn) fun s =>
    if data.toNat < 2 ^ s.f R.HOSTQ_CQ_CFG_SIZE q fn then (s.setF R.HOSTQ_CQ_STAT_HEAD data.toNat q fn).fillCheck fn q
    else if s.b R.HOSTQ_CQ_STAT_DB_BAD q fn then s
    else (s.setB R.HOSTQ_CQ_STAT_DB_BAD true q fn).post E.DB_BAD (ringSubject fn q (s.f R.HOSTQ_CQ_STAT_DOMAIN q fn)))

/-! ## The bytes of a descriptor (R376, R384) -/

/-- `n` little-endian bytes of a list from `off`. -/
def leAt (b : List Byte) (off n : Nat) : Nat := (List.range n).foldr (fun i a => (b.getD (off + i) 0).toNat + 256 * a) 0

/-- Word `i` of a byte list. -/
def wordAt (b : List Byte) (off : Nat) : Word := BitVec.ofNat 32 (leAt b off 4)

/-- A number as `n` little-endian bytes. -/
def leBytes (n v : Nat) : List Byte := (List.range n).map fun i => BitVec.ofNat 8 (v >>> (8 * i))

/-- The words of a byte list. -/
def bytesToWords (b : List Byte) : List Word := (List.range ((b.length + 3) / 4)).map fun i => wordAt b (4 * i)

/-- The offset where a condition is broken. -/
def badAt (c : Bool) (o : Nat) : List Nat := if c then [o] else []

/-- Offsets from `lo` to `hi` whose byte is not zero. -/
def nonzero (b : List Byte) (lo hi : Nat) : List Nat := ((List.range (hi + 1)).drop lo).filter fun o => b.getD o 0 != 0

/-- Telemetry items TARGET to TARGET + COUNT − 1 exist. -/
def State.itemOk (s : State) (i : Nat) : Bool := (kget {} s.hostq.items i).kind != 0

/-- Offending offsets of an opcode's own fields (Table 12.6). -/
def State.badOperand (s : State) (op flags : Nat) (b : List Byte) : List Nat :=
  let target := leAt b 8 2
  let count := leAt b 10 2
  if op = 1 then
    badAt (512 ≤ target) 8 ++ badAt (count = 0 || 8 < count) 10 ++ (if count ≤ 8 then nonzero b (16 + 6 * count) 63 else [])
  else if op = 2 then
    let kind := leAt b 24 1
    badAt (512 ≤ target && target != 0xFFFF) 8
      ++ badAt (if kind = 2 then count != 0 else count = 0 || 1024 < count) 10
      ++ badAt (leAt b 16 8 % 8 != 0) 16
      ++ badAt (2 < kind || (target == 0xFFFF) == (kind == 0)) 24
      ++ nonzero b 25 27 ++ (if kind = 2 then [] else nonzero b 28 31) ++ nonzero b 32 63
  else if op = 3 then
    let period := leAt b 24 4
    badAt (target != 0) 8 ++ badAt (period = 0 && count != 1) 10 ++ badAt (period != 0 && period < 1000) 24 ++ nonzero b 28 31
      ++ badAt (leAt b 32 8 % 64 != 0) 32 ++ nonzero b 40 63
  else if op = 4 then
    badAt (target != 0) 8 ++ badAt (count != 0) 10 ++ badAt (32 ≤ leAt b 16 1) 16 ++ nonzero b 17 17 ++ nonzero b 20 63
  else if op = 5 then
    let items := (List.range count).map (target + ·)
    let len := leAt b 24 4
    badAt (!s.itemOk target) 8 ++ badAt (count = 0 || 16 < count || !(items.all s.itemOk)) 10
      ++ badAt (leAt b 16 8 % 4096 != 0) 16 ++ badAt (len < 4096 || 16777216 < len || len % 4096 != 0) 24
      ++ badAt (leAt b 28 4 == 0 || items.any fun i => leAt b 28 4 < (kget {} s.hostq.items i).period) 28
      ++ badAt (leAt b 32 8 % 8 != 0) 32 ++ nonzero b 44 63
  else if op = 6 then
    badAt (!s.itemOk target) 8 ++ badAt (count = 0 || 64 < count || !(((List.range count).map (target + ·)).all s.itemOk)) 10
      ++ badAt (leAt b 16 8 % 8 != 0) 16 ++ nonzero b 28 63
  else if op = 7 then
    badAt (1 < target) 8 ++ badAt (count = 0 || 4096 < count) 10 ++ badAt (leAt b 16 8 % 8 != 0) 16 ++ nonzero b 32 63
  else if op = 8 then
    badAt (255 < target) 8 ++ badAt (64 < count) 10 ++ badAt ((b.getD 19 0 &&& 0x60) != 0) 19 ++ badAt ((b.getD 20 0 &&& 0xFC) != 0) 20
      ++ nonzero b 21 23 ++ (if count ≤ 32 then nonzero b 24 31 ++ nonzero b (32 + count) 63 else nonzero b 32 63)
  else if op = 9 then
    badAt (flags.testBit 2) 1 ++ badAt (15 < target) 8 ++ badAt (count < 60 || 1518 < count) 10 ++ nonzero b 32 63
  else if op = 0xA then
    badAt (512 ≤ target) 8 ++ badAt (count != 0) 10 ++ badAt (24 ≤ leAt b 16 1) 16 ++ nonzero b 17 17 ++ badAt (32768 ≤ leAt b 18 2) 19
      ++ nonzero b 20 63
  else badAt (target != 0) 8 ++ badAt (count != 0) 10 ++ nonzero b 16 63

/-- DETAIL of BAD_FIELD: the first offending offset. `outer`: not the inner descriptor of a schedule, whose AT and APPLY_TS are
ignored. -/
def State.badField (s : State) (outer : Bool) (b : List Byte) : Option Nat :=
  let flags := leAt b 1 1
  let all := badAt (16 ≤ flags) 1 ++ (if outer && !flags.testBit 2 then nonzero b 4 7 else []) ++ nonzero b 12 15
    ++ s.badOperand (leAt b 0 1) flags b
  all.foldl (fun m o => match m with
    | none => some o
    | some x => some (min x o)) none

/-- Opcodes that a domain may submit (Table 10.4). -/
def State.opGranted (s : State) (op dom : Nat) : Bool :=
  if op = 0xB then dom != domNone
  else if dom = domOem then true
  else if dom = domOpr then op != 0xA
  else if dom = domSaf then [2, 4, 5, 6, 7].contains op
  else dom == domVnd && s.f R.HUSK_ID_LIFECYCLE == lcReturned

/-- The further check of Table 10.4 passes. -/
def State.ownerOk (s : State) (dom : Nat) (b : List Byte) : Bool :=
  let op := leAt b 0 1
  let target := leAt b 8 2
  if op = 2 then (target == 0xFFFF) == (dom == domSaf)
  else if op = 5 ∨ op = 6 then
    dom == domVnd || (List.range (leAt b 10 2)).all fun i => (kget {} s.hostq.items (target + i)).grant.testBit dom
  else if op = 8 then s.f R.CAN_OBJ_CFG_DOMAIN target == dom
  else if op = 9 then s.f R.NET_LQ_CFG_DOMAIN target == dom
  else true

/-- A status and DETAIL that the checks of R379 give a descriptor, if they refuse it. `inner` is the 64 bytes at INNER_ADDR of a
schedule, `none` where their read fails. Mark: DEDUCED (log 71). -/
def State.fetchRefusal (s : State) (fn q dom : Nat) (b : List Byte) (inner : Option (List Byte)) : Option (Nat × Nat) :=
  let op := leAt b 0 1
  if op = 0 ∨ 0xB < op then some (0x10, 0)
  else if s.hostq.refusing.contains (32 * fn + q) then some (0x15, 0)
  else if !s.opGranted op dom then some (0x13, 0)
  else
    match s.badField true b with
    | some o => some (0x11, o)
    | none =>
      if s.hostq.descs.any fun x => x.2.fn == fn && x.2.sq == q && x.2.cid == leAt b 2 2 && x.2.parent.isNone && !x.2.dead then some (0x12, 0)
      else if !s.ownerOk dom b then some (0x14, 0)
      else if op = 3 then
        match inner with
        | none => some (0x22, 0)
        | some i =>
          let iop := leAt i 0 1
          if !(iop == 1 || iop == 8 || iop == 2 && leAt i 24 1 == 0) then some (0x11, 32)
          else if !s.opGranted iop dom then some (0x13, 0)
          else match s.badField false i with
            | some o => some (0x11, o)
            | none => if s.ownerOk dom i then none else some (0x14, 0)
      else none

/-! ## Fetching (R379, R383) -/

/-- HOSTQ could fetch from an SQ now: it holds descriptors, its limits and the device's are not reached, its CQ can take completions. -/
def State.sqReady (s : State) (fn q : Nat) : Bool :=
  s.busOpen fn && s.b R.HOSTQ_SQ_CFG_EN q fn && s.sqState fn q == rgActive
    && s.f R.HOSTQ_SQ_STAT_HEAD q fn != kget 0 s.hostq.tails (32 * fn + q)
    && decide (s.f R.HOSTQ_SQ_STAT_OUTSTANDING q fn < 64) && decide (s.f R.HOSTQ_STAT_OUTSTANDING < 1024)
    && s.cqState fn (s.cqOf fn q) == rgActive && !s.b R.HOSTQ_CQ_STAT_FULL (s.cqOf fn q) fn

/-- The rings ready for fetching that have not used up their BURST in this round; if none, a new round begins with all ready rings. -/
def State.roundRings (s : State) : List Nat × Bool :=
  let ready := (List.range 64).filter fun r => s.sqReady (r / 32) (r % 32)
  let left := ready.filter fun r => kget 0 s.hostq.round r ≤ s.f R.HOSTQ_SQ_CFG_BURST (r % 32) (r / 32)
  if left.isEmpty then (ready, true) else (left, false)

/-- The ring that HOSTQ serves next: the highest PRIO, round-robin among equal PRIO from the one after the ring served last, which goes
on with its own burst first; and whether a round begins with it. -/
def State.turn (s : State) : Option Nat × Bool :=
  let (rs, fresh) := s.roundRings
  let prio (r : Nat) : Nat := s.f R.HOSTQ_SQ_CFG_PRIO (r % 32) (r / 32)
  let top := rs.foldl (fun m r => max m (prio r)) 0
  let best := rs.filter fun r => prio r == top
  let last := s.hostq.served
  if !fresh && last != 0 && best.contains (last - 1) && kget 0 s.hostq.round (last - 1) != 0 then (some (last - 1), fresh)
  else ((best.find? fun r => last ≤ r) <|> best.head?, fresh)

/-- The lowest free tag from `lo`. -/
def State.freeTag (s : State) (lo : Nat) : Nat :=
  ((List.range (s.hostq.descs.length + 1)).map (lo + ·)).find? (fun g => (s.desc g).isNone) |>.getD lo

/-- The descriptor that 64 bytes hold. -/
def mkDesc (b : List Byte) : HDesc :=
  { cid := leAt b 2 2, op := leAt b 0 1, flags := leAt b 1 1, target := leAt b 8 2, count := leAt b 10 2, body := b.drop 16 }

/-- A descriptor is fetched: HEAD advances, it becomes outstanding, the session of its ring stays in use (R315), and the checks of R379
are made. -/
def State.fetch (s : State) (fn q : Nat) (fresh : Bool) (b : List Byte) (inner : Option (List Byte)) : State :=
  let r := 32 * fn + q
  let dom := s.f R.HOSTQ_SQ_STAT_DOMAIN q fn
  let bad := s.fetchRefusal fn q dom b inner
  let tag := s.freeTag 0
  let round := if fresh then [] else s.hostq.round
  let at_ := if leAt b 1 1 % 8 < 4 then none else some (shortToNtime (BitVec.ofNat 32 (leAt b 4 4)) s.ntime)
  let d := { mkDesc b with fn := fn, sq := q, dom := dom, order := s.hostq.order, apply := at_
                           late := at_.any (fun a => ntLe a s.ntime), inner := inner.getD [] }
  let s := { s with hostq := { s.hostq with order := s.hostq.order + 1, served := r + 1, round := kset 0 round r (kget 0 round r + 1) } }
  let s := s.setF R.HOSTQ_SQ_STAT_HEAD ((s.f R.HOSTQ_SQ_STAT_HEAD q fn + 1) % 2 ^ s.f R.HOSTQ_SQ_CFG_SIZE q fn) q fn
  let s := (s.setF R.HOSTQ_SQ_STAT_OUTSTANDING (s.f R.HOSTQ_SQ_STAT_OUTSTANDING q fn + 1) q fn).setF R.HOSTQ_STAT_OUTSTANDING
    (s.f R.HOSTQ_STAT_OUTSTANDING + 1)
  let s := s.doIf (s.sessionOpen fn && s.domainOf fn == dom) (·.touch fn)
  let s := s.setDesc tag d
  match bad with
  | none => s
  | some (st, detail) =>
    let s := s.doIf (st == 0x13 || st == 0x14 || st == 0x15)
      (·.postLimited (0x0205 * 2 + fn) E.OPCODE_REFUSED (subject q 0 fn dom))
    (s.modDesc tag fun d => { d with late := false }).finish tag st detail s.shortTs

/-- DESCRIPTOR_FETCH (R372, R379, R383): the 64 bytes read from an SQ at HEAD, and those of a schedule's inner descriptor. It happens when
the arbitration serves that ring. Mark: DESIGN CHOICE (log 106). -/
def execDescriptorFetch (t : Instant) (fn q : Nat) (bytes : List Byte) (inner : Option (List Byte)) (s : State) : Res :=
  let s := s.start t
  .next (match s.turn with
    | (some r, fresh) => s.doIf (r == 32 * fn + q && decide (q < 32)) (·.fetch fn q fresh bytes inner)
    | (none, _) => s)

/-! ## Release (R381, R382) -/

/-- The release time of a descriptor has come. -/
def State.dueNow (s : State) (d : HDesc) : Bool :=
  match d.apply with
  | none => true
  | some a => d.late || ntLe (a - 1000000) s.ntime

/-- Ordering lets a descriptor be released: no earlier one of its SQ is due and unreleased, and behind a FENCE none is outstanding. -/
def State.inOrder (s : State) (d : HDesc) : Bool :=
  let before := s.hostq.descs.filter fun x => x.2.parent.isNone && x.2.fn == d.fn && x.2.sq == d.sq && decide (x.2.order < d.order)
  before.all (fun x => x.2.phase != 0 || !s.dueNow x.2) && (!d.flags.testBit 1 || before.isEmpty)

/-- A released SETPOINT or PARAM_TXN that is late with LATE_DROP takes no effect. -/
def lateDrops (d : HDesc) : Bool := d.late && d.flags.testBit 3 && (d.op == 1 || d.op == 2)

/-- A descriptor is released to its handler. -/
def State.release (s : State) (tag : Nat) (d : HDesc) : State :=
  if lateDrops d then s.finish tag 0x1E 0 s.shortTs else s.setDesc tag { d with phase := 1 }

/-- DESCRIPTOR_RELEASE (R381, R382). -/
def execDescriptorRelease (t : Instant) (tag : Nat) (s : State) : Res :=
  let s := s.start t
  .next (match s.desc tag with
    | some d => s.doIf (s.sealed && d.phase == 0 && d.parent.isNone && s.dueNow d && s.inOrder d) (·.release tag d)
    | none => s)

/-! ## Completions and interrupts (R373, R377, R397) -/

/-- Send an MSI-X message, or set its pending bit while the vector is masked. -/
def State.sendVec (s : State) (fn v : Nat) : State :=
  let k := 32 * fn + v
  if s.hostq.vecOpen.contains k then s.emit (.msix fn v)
  else if s.hostq.vecPend.contains k then s
  else { s with hostq := { s.hostq with vecPend := k :: s.hostq.vecPend } }

/-- A CQ signals: all its completions are signalled. -/
def State.signal (s : State) (fn q : Nat) : State :=
  let r := 32 * fn + q
  let s := { s with hostq := { s.hostq with unsig := kset [] s.hostq.unsig r [], unsigNow := s.hostq.unsigNow.filter (· != r) } }
  s.sendVec fn (s.f R.HOSTQ_CQ_CFG_VEC q fn)

/-- Signal where one of the first two conditions of R397 holds. -/
def State.signalCheck (s : State) (fn q : Nat) : State :=
  let r := 32 * fn + q
  let n := (kget [] s.hostq.unsig r).length
  let cnt := s.f R.HOSTQ_CQ_CFG_IRQ_CNT q fn
  s.doIf (n != 0 && (s.hostq.unsigNow.contains r || cnt == 0 || decide (cnt ≤ n))) (·.signal fn q)

/-- The 32 bytes of a completion (Table 12.3). -/
def completionBytes (d : HDesc) (phase : Bool) (head : Nat) : List Byte :=
  leBytes 2 d.cid ++ leBytes 1 d.sq ++ leBytes 1 (b2n phase) ++ leBytes 2 d.status ++ leBytes 1 d.detail ++ [0] ++ leBytes 2 head ++ [0, 0]
    ++ leBytes 4 d.doneTs.toNat ++ leBytes 4 d.info0.toNat ++ [0, 0, 0, 0] ++ leBytes 8 d.info1.toNat

/-- The address of entry `n` of a CQ. -/
def State.cqEntry (s : State) (fn q n : Nat) : Nat :=
  s.f R.HOSTQ_CQ_BASE_LO_ADDR q fn * 4096 + (s.word .hostq (W.HOSTQ_CQ_BASE_HI.key q fn)).toNat * 2 ^ 32 + 32 * n

/-- A completion is written: TAIL moves on, PHASE inverts at the wrap, the CID joins the last 256 of its SQ, the descriptor is no longer
outstanding, and the CQ may signal. Mark: DEDUCED (log 108). -/
def State.complete (s : State) (q tag : Nat) (d : HDesc) : State :=
  let fn := d.fn
  let tail := s.f R.HOSTQ_CQ_STAT_TAIL q fn
  let phase := s.b R.HOSTQ_CQ_STAT_PHASE q fn
  let s := s.emit (.dmaWrite fn (s.cqEntry fn q tail) (completionBytes d phase (s.f R.HOSTQ_SQ_STAT_HEAD d.sq fn)))
  let next := (tail + 1) % 2 ^ s.f R.HOSTQ_CQ_CFG_SIZE q fn
  let s := (s.setF R.HOSTQ_CQ_STAT_TAIL next q fn).doIf (next == 0) (·.setB R.HOSTQ_CQ_STAT_PHASE (!phase) q fn)
  let r := 32 * fn + q
  let sr := 32 * fn + d.sq
  let h := s.hostq
  let s := { s with hostq := { h with
    done := kset [] h.done sr ((d.cid :: kget [] h.done sr).take 256), unsig := kset [] h.unsig r (kget [] h.unsig r ++ [s.now])
    unsigNow := if d.flags.testBit 0 then r :: h.unsigNow else h.unsigNow } }
  ((s.dropDesc tag).fillCheck fn q).signalCheck fn q

/-- The first waiting completion of a CQ. Mark: DEDUCED (log 108). -/
def State.waitingOf (s : State) (fn q : Nat) : Option (Nat × HDesc) :=
  s.hostq.waiting.findSome? fun g =>
    match s.desc g with
    | some d => if d.fn = fn ∧ s.cqOf fn d.sq = q then some (g, d) else none
    | none => none

/-- COMPLETION (R370, R373, R377, R382): the device writes the next completion of a CQ when there is room. -/
def execCompletion (t : Instant) (fn q : Nat) (s : State) : Res :=
  let s := s.start t
  .next (match s.waitingOf fn q with
    | some (g, d) =>
      if s.cqState fn q = rgActive then s.doIf (s.busOpen fn && !s.b R.HOSTQ_CQ_STAT_FULL q fn) (·.complete q g d)
      else s.doIf (s.cqState fn q == rgOff) (·.dropDesc g)
    | none => s)

/-- IRQ_TIMER (R397): the oldest unsignalled completion is IRQ_TIME µs old. -/
def execIrqTimer (t : Instant) (fn q : Nat) (s : State) : Res :=
  let s := s.start t
  let age := s.f R.HOSTQ_CQ_CFG_IRQ_TIME q fn
  .next (match kget [] s.hostq.unsig (32 * fn + q) with
    | a :: _ => s.doIf (s.busOpen fn && age != 0 && decide (a + age * usQ ≤ s.now)) (·.signal fn q)
    | [] => s)

/-- MSIX_VECTOR_UNMASK (R397): a pending message is sent. -/
def execMsixVectorUnmask (t : Instant) (fn v : Nat) (s : State) : Res :=
  let s := s.start t
  let k := 32 * fn + v
  .next (s.doIf (s.hostq.linkUp && decide (fn < 2) && decide (v < 32) && !s.hostq.vecOpen.contains k) fun s =>
    let pend := s.hostq.vecPend.contains k
    let s := { s with hostq := { s.hostq with vecOpen := k :: s.hostq.vecOpen, vecPend := s.hostq.vecPend.filter (· != k) } }
    s.doIf pend (·.emit (.msix fn v)))

/-- BUS_MASTER_ENABLE (R370): host software sets Bus Master Enable of a function; what waited on it resumes. -/
def execBusMasterEnable (t : Instant) (fn : Nat) (s : State) : Res :=
  let s := s.start t
  .next (s.doIf (s.hostq.linkUp && decide (fn < 2)) fun s => { s with hostq := { s.hostq with bme := putBit s.hostq.bme fn true } })

/-! ## Ring errors and loss of the link (R374, R375) -/

/-- Descriptors that meet a condition are discarded as at a link loss: one that waits for release or for its completion, and a stream,
is gone; a released one runs on and its completion is discarded. -/
def State.discard (s : State) (c : HDesc → Bool) : State :=
  (s.hostq.descs.filter fun x => x.2.parent.isNone && c x.2).foldl (fun s x =>
    if x.2.phase = 0 ∨ x.2.phase = 4 ∨ x.2.op = 5 then s.dropDesc x.1 else s.modDesc x.1 fun d => { d with dead := true }) s

/-- An SQ enters ERROR. -/
def State.sqError (s : State) (fn q err : Nat) : State :=
  ((s.setF R.HOSTQ_SQ_STAT_STATE rgError q fn).setF R.HOSTQ_SQ_STAT_ERR err q fn).post E.RING_ERROR
    (ringSubject fn q (s.f R.HOSTQ_SQ_STAT_DOMAIN q fn)) (nw err)

/-- RING_ERROR (R375): a bus-master error with code `err` (1 UR, 2 CA, 3 poison, 4 timeout) on an SQ or a CQ. -/
def execRingError (t : Instant) (fn : Nat) (cq : Bool) (q err : Nat) (s : State) : Res :=
  let s := s.start t
  .next (s.doIf (s.sealed && decide (fn < 2) && decide (q < 32) && decide (0 < err) && decide (err < 5)) fun s =>
    if cq then
      s.doIf (s.cqState fn q == rgActive) fun s =>
        let s := (s.setF R.HOSTQ_CQ_STAT_STATE rgError q fn).post E.RING_ERROR (ringSubject fn q (s.f R.HOSTQ_CQ_STAT_DOMAIN q fn)) (nw err)
        let bound := (List.range 32).filter fun p => (s.sqState fn p == rgActive || s.sqState fn p == rgDraining) && s.cqOf fn p == q
        let s := bound.foldl (fun s p => s.sqError fn p 5) s
        s.discard fun d => d.fn == fn && s.cqOf fn d.sq == q
    else s.doIf (s.sqState fn q == rgActive || s.sqState fn q == rgDraining) (·.sqError fn q err))

/-- Every ring of a function is disabled at once (R374). -/
def State.dropRings (s : State) (fn : Nat) : State :=
  let s := s.discard fun d => d.fn == fn
  let s := (List.range 32).foldl (fun s q => (s.sqOff fn q).cqOff fn q) s
  let mine (r : Nat) : Bool := r / 32 == fn
  let h := s.hostq
  { s with hostq := { h with unsig := h.unsig.filter (fun x => !mine x.1), unsigNow := h.unsigNow.filter (fun r => !mine r)
                             refusing := h.refusing.filter (fun r => !mine r) } }

/-- A function is reset, or its link lost: rings, session (R315), BME and MSI-X masks; host loss is due with its CAUSE. -/
def State.loseFn (s : State) (cause fn : Nat) : State :=
  let s := (s.dropRings fn).dropSession fn
  let mine (k : Nat) : Bool := k / 32 == fn
  let h := s.hostq
  { s with hostq := { h with bme := putBit h.bme fn false, vecOpen := h.vecOpen.filter (fun k => !mine k)
                             vecPend := h.vecPend.filter (fun k => !mine k), lossCause := kset 0 h.lossCause fn cause } }

/-- The PCI Express link goes down. Mark: PRESUMED (log 110). -/
def State.loseLink (s : State) : State :=
  if s.hostq.linkUp then
    let s := { s with hostq := { s.hostq with linkUp := false } }
    (s.loseFn 2 0).loseFn 2 1
  else s

/-- LINK_LOSS (R374): loss of the link (kind 0), a hot reset (1), or a function-level reset of `fn` (2). -/
def execLinkLoss (t : Instant) (kind fn : Nat) (s : State) : Res :=
  let s := s.start t
  .next (s.doIf (s.hostq.linkUp && !s.inReset) fun s =>
    if kind = 0 then s.loseLink
    else if kind = 1 then (s.loseFn 3 0).loseFn 3 1
    else s.doIf (kind == 2 && decide (fn < 2)) (·.loseFn 3 fn))

/-! ## Host loss and the fallback (R394 to R396) -/

def lostF (fn : Nat) : FRef := if fn = 0 then R.HOSTQ_HL_STAT_LOST0 else R.HOSTQ_HL_STAT_LOST1

/-- The host-loss line of a function is asserted. -/
def State.hostLost (s : State) (fn : Nat) : Bool := s.b (lostF fn)

/-- Some line of a function with FB_EN is asserted. -/
def State.fbWanted (s : State) : Bool := [0, 1].any fun f => s.b R.HOSTQ_HL_CFG_FB_EN f && s.hostLost f

/-- The fallback of a context begins (R395). -/
def CtxSt.startFallback (x : CtxSt) (mode : Nat) : CtxSt :=
  let x := { x with fallback := mode + 1 }
  if mode = 1 then x.rampAllZero else x.holdSetpoints

/-- The fallback follows the lines. -/
def State.fallbackCheck (s : State) (fn : Nat) : State :=
  let on := s.fbWanted
  if on == s.b R.HOSTQ_STAT_FALLBACK then s
  else if on then
    let s := (List.range 512).foldl (fun s c => s.doIf (s.b R.LOOP_CTX_CFG_EN c)
      (·.modCtx c (·.startFallback (getBits (s.word .hostq (W.HOSTQ_FB.key (c / 16) 0)) (2 * (c % 16) + 1) (2 * (c % 16)))))) s
    (s.setB R.HOSTQ_STAT_FALLBACK true).post E.FALLBACK_START (subject fn 0 fn)
  else
    let s := (List.range 512).foldl (fun s c => s.doIf (s.b R.LOOP_CTX_CFG_EN c)
      (·.modCtx c fun x => { x.holdSetpoints with fallback := 0 })) s
    (s.setB R.HOSTQ_STAT_FALLBACK false).post E.FALLBACK_END (subject fn 0 fn)

/-- The host-loss line of a function asserts. -/
def State.loseHost (s : State) (fn cause : Nat) : State :=
  let s := s.setB (lostF fn) true
  let s := if fn = 0 then (s.setB R.HOSTQ_HL_STAT_SEEN0 true).setF R.HOSTQ_HL_STAT_CAUSE0 cause
    else (s.setB R.HOSTQ_HL_STAT_SEEN1 true).setF R.HOSTQ_HL_STAT_CAUSE1 cause
  ((s.post E.HOST_LOST (subject fn 0 fn) (nw cause)).settle).fallbackCheck fn

/-- The CAUSE with which host loss of a function is due. -/
def State.lossDue (s : State) (fn : Nat) : Option Nat :=
  let c := kget 0 s.hostq.lossCause fn
  if c != 0 then some c
  else if s.b R.HOSTQ_HL_CFG_HB_EN fn
      && decide (kget 0 s.hostq.lastHb fn + s.f R.HOSTQ_HL_CFG_HB_TIMEOUT fn * msQ ≤ s.now) then some 1
  else none

/-- HOST_LOST (R394): a heartbeat timeout, or a link or reset event, asserts the host-loss line. -/
def execHostLost (t : Instant) (fn : Nat) (s : State) : Res :=
  let s := s.start t
  .next (match s.lossDue fn with
    | some c => s.doIf (s.sealed && decide (fn < 2)) fun s =>
        let s := { s with hostq := { s.hostq with lossCause := kset 0 s.hostq.lossCause fn 0 } }
        s.doIf (!s.hostLost fn) (·.loseHost fn c)
    | none => s)

/-- A heartbeat is accepted on a function: the supervision starts anew, and an asserted line releases (R394). -/
def State.heartbeat (s : State) (fn : Nat) : State :=
  let s := { s with hostq := { s.hostq with lastHb := kset 0 s.hostq.lastHb fn s.now } }
  if s.hostLost fn then
    (((s.setB (lostF fn) false).post E.HOST_RETURNED (subject fn 0 fn)).settle).fallbackCheck fn
  else s

end Sys2Proof.Machine
end

