-- ==== Sys2Proof/Machine/Life.lean ====
section
/-! DEFINITION. The life model: records, losses, junction temperatures, rainflow counting, damage, warnings and the saved copy
(R265 to R271). -/
namespace Sys2Proof

open Sys2Proof.Machine

/-- Word `k` of a device type (R355). -/
def LifeCfg.par (c : LifeCfg) (ty k : Nat) : Rat := f32 ((c.types.getD ty []).getD k 0)

/-- The device type of a position; `none` where it is not modelled. -/
def LifeCfg.typeOf (c : LifeCfg) (p : Nat) : Option Nat :=
  let ty := c.posMap.getD p 255
  if ty = 255 then none else some ty

/-- The targets with a modelled position. -/
def LifeCfg.targets (c : LifeCfg) : List Nat := (List.range 28).filter fun T => (List.range 6).any fun i => (c.typeOf (6 * T + i)).isSome

/-- The loss of a position from a record (R266): the conducting element is the transistor of the high position and the diode of the
low one for a current out of the leg, and the other way round for a current into it. -/
def LifeCfg.loss (c : LifeCfg) (ty i : Nat) (r : LifeRec) : Rat :=
  let cur := r.cur.getD (i / 2) 0
  let a := absQ cur
  let trans := (i % 2 == 0) == decide (0 ≤ cur)
  let d := r.duty.getD i 0
  let cond := if trans then d * (c.par ty 0 + c.par ty 1 * a) * a else d * (c.par ty 8 + c.par ty 9 * a) * a
  let e := (if trans then c.par ty 2 else c.par ty 3) * Config.pow (a / c.par ty 4) (c.par ty 6) * Config.pow (r.vdc / c.par ty 5) (c.par ty 7)
  let sw := if r.span = 0 then 0 else e * (r.edges.getD i 0 : Rat) / (2 * r.span)
  rnd (cond + sw)

/-- A linear interpolation in a table of points, held at its ends. -/
def interp : List (Rat × Rat) → Rat → Rat
  | [], _ => 0
  | [p], _ => p.2
  | p :: q :: ps, x =>
    if x ≤ p.1 then p.2
    else if x ≤ q.1 then (if q.1 = p.1 then q.2 else p.2 + (q.2 - p.2) * (x - p.1) / (q.1 - p.1))
    else interp (q :: ps) x

/-- The Foster stages and the junction temperature after one step (R266). Mark: DESIGN CHOICE (log 68). -/
def LifeCfg.heat (c : LifeCfg) (ty : Nat) (x : LifePos) (p tref : Rat) : LifePos :=
  let dt : Rat := (c.tLm : Rat) / 1000000
  let stages := (List.range 4).map fun k =>
    let r := c.par ty (10 + k)
    let e := Config.exp (-(dt / c.par ty (14 + k)))
    if r = 0 then 0 else rnd (x.stages.getD k 0 * e + p * r * (1 - e))
  let tj := rnd (tref + stages.foldl (· + ·) 0)
  { x with stages := stages, tj := tj, loss := p, maxTj := if x.begun then maxQ x.maxTj tj else tj }

/-- N_f of the life table (R267). Mark: DESIGN CHOICE (log 68). -/
def LifeCfg.cyclesToFail (c : LifeCfg) (ty : Nat) (dT tMax : Rat) : Rat :=
  let row (k : Nat) : Rat := interp ((List.range 16).map fun j =>
    (Config.log (c.par ty (18 + j)), Config.log (c.par ty (38 + 16 * k + j)))) (Config.log dT)
  rnd (Config.exp (interp ((List.range 4).map fun k => (c.par ty (34 + k), row k)) tMax))

/-- 30 days in s. -/
def monthS : Rat := 30 * 86400

/-- Count a closed cycle at a powered time (R267, R268). -/
def LifeCfg.closeCycle (c : LifeCfg) (ty : Nat) (now : Rat) (x : LifePos) (b d : Rat) : LifePos :=
  let dT := absQ (d - b)
  if dT < f32 c.dtMin then x
  else
    let add := 1 / c.cyclesToFail ty dT (maxQ b d)
    { x with damage := x.damage + add, recent := (now, add) :: x.recent.filter (fun e => decide (now - monthS < e.1)), cycles := satN 32 (x.cycles + 1), maxDt := maxQ x.maxDt dT }

/-- The four-point rule on the residue, newest first. Mark: DESIGN CHOICE (log 68). -/
def LifeCfg.fourPoint (c : LifeCfg) (ty : Nat) (now : Rat) : Nat → LifePos → LifePos
  | 0, x => x
  | n + 1, x =>
    match x.residue with
    | e :: d :: b :: a :: rest =>
      if absQ (d - b) ≤ absQ (b - a) ∧ absQ (d - b) ≤ absQ (e - d) then
        c.fourPoint ty now n (c.closeCycle ty now { x with residue := e :: a :: rest } b d)
      else x
    | _ => x

/-- A turning point enters the residue. -/
def LifeCfg.turn (c : LifeCfg) (ty : Nat) (now : Rat) (x : LifePos) (v : Rat) : LifePos :=
  if x.residue.head? = some v then x else c.fourPoint ty now (x.residue.length + 1) { x with residue := v :: x.residue }

/-- The new Tj against the running extreme with the hysteresis (R267). -/
def LifeCfg.track (c : LifeCfg) (ty : Nat) (now : Rat) (x : LifePos) : LifePos :=
  let h := f32 c.hyst
  if !x.begun then { x with begun := true, extreme := x.tj, residue := [x.tj] }
  else if x.rising then
    if x.extreme < x.tj then { x with extreme := x.tj }
    else if x.tj ≤ x.extreme - h ∧ x.tj < x.extreme then { c.turn ty now x x.extreme with rising := false, extreme := x.tj }
    else x
  else
    if x.tj < x.extreme then { x with extreme := x.tj }
    else if x.extreme + h ≤ x.tj ∧ x.extreme < x.tj then { c.turn ty now x x.extreme with rising := true, extreme := x.tj }
    else x

end Sys2Proof

namespace Sys2Proof.Machine

def State.lifePos (s : State) (p : Nat) : LifePos := kget {} s.trip.life p
def State.setLifePos (s : State) (p : Nat) (x : LifePos) : State := { s with trip := { s.trip with life := kset {} s.trip.life p x } }
def State.lifeRec (s : State) (T : Nat) : LifeRec := kget {} s.trip.lifeRecs T
def State.setLifeRec (s : State) (T : Nat) (r : LifeRec) : State :=
  { s with trip := { s.trip with lifeRecs := kset {} s.trip.lifeRecs T r } }

/-- LIFE_RECORD (R265): the record of target `T` reaches the life kernel; `span` is the time it covers in steps of 250 ps. -/
def execLifeRecord (t : Instant) (T : Nat) (r : LifeIn) (span : Nat) (s : State) : Res :=
  let s := s.start t
  .next (s.doIf (s.sealed && s.trip.lifeCfg.present && decide (T < 28)) fun s => s.setLifeRec T
    { cur := r.cur, vdc := r.vdc, duty := r.duty, edges := r.edges, span := secs span, fresh := true })

/-- The reference temperature: the average of the named window through the 16-point table; a void window leaves the last one. -/
def State.lifeTref (s : State) : Rat :=
  let a := s.acc s.trip.lifeCfg.refAcc
  if a.resCnt = 0 then s.trip.lifeRef
  else rnd (interp (s.trip.lifeCfg.refTab.map fun p => ((p.1 : Rat), f32 p.2)) ((a.resSum : Rat) / (a.resCnt : Rat)))

/-- The warnings of a position after a step (R269). -/
def State.lifeWarn (s : State) (p : Nat) : State :=
  let c := s.trip.lifeCfg
  let x := s.lifePos p
  let above (lim : Word) (was : Bool) : Bool := if was then !decide (x.tj ≤ f32 lim - 5) else decide (f32 lim < x.tj)
  let w := above c.tjWarn x.warn
  let l := above c.tjLimit x.limit
  let d := x.lifeWarn || decide (f32 c.lifeWarn < x.damage)
  let subj := subject (p / 6) (p % 6)
  let s := s.doIf (w && !x.warn) (·.post E.TJ_WARN subj (f32Of x.tj))
  let s := s.doIf (l && !x.limit) (·.post E.TJ_LIMIT subj (f32Of x.tj))
  let s := s.doIf (d && !x.lifeWarn) (·.post E.LIFE_WARN subj (f32Of x.damage))
  s.setLifePos p { x with warn := w, limit := l, lifeWarn := d }

/-- One step of a position. -/
def State.lifePosStep (s : State) (T i : Nat) (tref : Rat) : State :=
  let c := s.trip.lifeCfg
  let p := 6 * T + i
  match c.typeOf p with
  | none => s
  | some ty =>
    let x := s.lifePos p
    let x := c.heat ty x (c.loss ty i (s.lifeRec T)) tref
    (s.setLifePos p { c.track ty s.trip.lifeTime x with stale := false }).lifeWarn p

/-- The highest Tj of a bridge, of both slots of a three-level pair, goes to its owning context (R249, R269). -/
def State.lifeSend (s : State) (B : Nat) : State :=
  let ps := (((s.bridgeSlots B).flatMap fun T => (List.range 6).map fun i => 6 * T + i).filter fun p => (s.trip.lifeCfg.typeOf p).isSome).map
    fun p => (s.lifePos p).tj
  match s.activeOwner B, ps with
  | some c, p :: ps =>
    let item : Ctxx := { sub := 7, ctx := c, ts := s.shortTs, first := 0, last := true, words := [f32Of (ps.foldl maxQ p)] }
    s.sendCtx (.kernel s.trip.lifeCfg.pod s.trip.lifeCfg.k) c (.ctxx item)
  | _, _ => s

/-- One step of a bridge: a missing record is used again, eight times; then its estimates hold (R265). -/
def State.lifeTarget (s : State) (tref : Rat) (T : Nat) : State :=
  let r := s.lifeRec T
  if r.stale then s
  else
    let n := if r.fresh then 0 else r.reused + 1
    let s := s.setLifeRec T { r with fresh := false, reused := n, stale := n == 8 }
    let s := (List.range 6).foldl (fun s i => s.lifePosStep T i tref) s
    s.doIf (n == 8) fun s => (List.range 6).foldl (fun s i =>
      s.doIf (s.trip.lifeCfg.typeOf (6 * T + i)).isSome fun s => s.setLifePos (6 * T + i) { s.lifePos (6 * T + i) with stale := true })
      (s.post E.LIFE_INPUT_STALE (subject T))

/-- LIFE_STEP (R266): every T_LM. -/
def execLifeStep (t : Instant) (s : State) : Res :=
  let s := s.start t
  let c := s.trip.lifeCfg
  .next (s.doIf (s.sealed && c.present && decide (s.trip.lifeLastStep + c.tLm * usQ ≤ s.now)) fun s =>
    let tref := s.lifeTref
    let s := { s with trip := { s.trip with lifeLastStep := s.now, lifeTime := s.trip.lifeTime + (c.tLm : Rat) / 1000000, lifeRef := tref } }
    let s := c.targets.foldl (fun s T => s.lifeTarget tref T) s
    (s.bridges.filter fun B => c.targets.any fun T => s.bridge T == B).foldl (fun s B => s.lifeSend B) s)

/-- The life records and the map-out record go to flash (R270, R478). -/
def State.saveRecords (s : State) : State :=
  let saved := s.trip.life
  let s := { s with trip := { s.trip with lifeSaved := some saved, lifeSavedTime := s.trip.lifeTime, lifeLastSave := s.now } }
  let kernels := (s.rel.gone.filter fun x => x.2 == 2).map (·.1)
  { s with rel := { s.rel with saved := { kernels := kernels, wires := s.rel.mapped, life := s.rel.life } } }

/-- LIFE_SAVE (R270, R478): every SAVE_INT minutes. -/
def execLifeSave (t : Instant) (s : State) : Res :=
  let s := s.start t
  .next (s.doIf (s.sealed && s.trip.lifeCfg.present
      && decide (s.trip.lifeLastSave + s.trip.lifeCfg.saveInt * 60 * secQ ≤ s.now)) fun s =>
    s.trip.life.foldl (fun s x => s.setLifePos x.1 { x.2 with maxTj := x.2.tj }) s.saveRecords)

/-- The remaining life in days (R268): the damage of the last 30 days of powered time over that time, or over all of it if shorter. -/
def State.remainingLife (s : State) (p : Nat) : Nat :=
  let x := s.lifePos p
  let time := s.trip.lifeTime
  let r := rnd (((x.recent.filter fun e => decide (time - monthS < e.1)).foldl (fun a e => a + e.2) 0) / (minQ time monthS / 86400))
  if 1 ≤ x.damage then 0 else if r ≤ 0 then 65535 else min 65535 ((1 - x.damage) / r).floor.toNat

/-- The life telemetry record of a position (Table 8.6). -/
def State.lifeWords (s : State) (p : Nat) : List Word :=
  let x := s.lifePos p
  [f32Of x.tj, f32Of x.loss, f32Of (rnd x.damage), nw (s.remainingLife p), nw x.cycles, f32Of x.maxDt, f32Of x.maxTj,
    nw (b2n x.warn + 2 * b2n x.limit + 4 * b2n x.lifeWarn + 8 * b2n x.stale)]

end Sys2Proof.Machine
end

