-- ==== Sys2Proof/Machine/Mig.lean ====
section
/-! DEFINITION. Live migration past the evaluation: the load, the snapshot's deadline, the comparison with commit or abort, and the
forced move after a kernel loss (R151 to R154, R475, R477). -/
namespace Sys2Proof.Machine

/-- MIG_LOAD_DONE (R151): MIGR LOAD of the target is complete. A load waits for a pod clock change on its pod (R460). -/
def execMigLoadDone (t : Instant) (s : State) : Res :=
  let s := s.start t
  .next (match s.loop.mig with
    | some m =>
      if m.step = 0 ∧ !(s.clk.podReq.any fun r => r.1 == m.dstPod) then
        let s := s.copyMem m.moves
        { s.setF R.LOOP_MIG_STAT_PHASE 2 with loop := { s.loop with mig := some { m with step := 1 } } }
      else s
    | none => s)

/-- SNAPSHOT_DEADLINE (R153): the snapshot has not landed T_IN after trigger k+1. -/
def execSnapshotDeadline (t : Instant) (s : State) : Res :=
  let s := s.start t
  .next (match s.loop.mig with
    | some m => s.doIf (m.step == 4 && !m.snapLanded && decide (m.trig1.getD 0 + s.f R.LOOP_CTX_TIME_T_IN m.ctx ≤ s.pwmTime)) (·.abortMig)
    | none => s)

/-- A context takes its new kernels: names, POD and KMASK, and the roles; a source kernel that serves no context any more is
IDLE/SPARE. -/
def State.takeKernels (s : State) (c : Nat) (mv : List (Nat × Nat)) : State :=
  let s := (s.moveNames mv).moveCtx mv c
  let s := mv.foldl (fun s x => s.setRole x.2 roleLoop) s
  mv.foldl (fun s x => s.doIf (x.1 != x.2 && (s.ctxsOn x.1).isEmpty) (·.setRole x.1 roleIdle)) s

/-- POD and KMASK of a context as INFO0 of its migration (R392). -/
def State.placeWord (s : State) (c : Nat) : Word := nw (s.f R.LOOP_CTX_CFG_POD c + 65536 * s.f R.LOOP_CTX_CFG_KMASK c)

/-- The migration commits (Table 4.9, step 4). -/
def State.commitMig (s : State) (m : MigSt) : State :=
  let op : Payload := .migr { op := 5, ctx := m.ctx, kpos := 0, mem := false, addr := 0, words := [] }
  let s := s.setF R.LOOP_MIG_STAT_PHASE 3
  let s := (s.send { dst := .kernels m.dstPod m.dstMask, src := cfgPort, payload := op }).send
    { dst := .kernels m.srcPod m.srcMask, src := cfgPort, payload := op }
  let s := s.takeKernels m.ctx m.moves
  let s := ((s.setB R.LOOP_MIG_STAT_DONE true).setB R.LOOP_MIG_STAT_FORCED false).post E.MIG_DONE (subject m.ctx)
  s.endMig 0 (s.placeWord m.ctx)

/-- The VERIFY flits differ: abort, MIG_SUSPECT, and a test of the target at once, of the source if the target passes (R477). -/
def State.suspectMig (s : State) (m : MigSt) : State :=
  let s := (s.abortMig).post E.MIG_SUSPECT (subject m.ctx)
  let rs := m.moves.filterMap fun x => (s.physOf x.2).map fun p => ({ kernel := p, why := 2, src := some x.1 } : TestReq)
  { s with rel := { s.rel with first := rs ++ s.rel.first } }

/-- The words of a VERIFY flit (Table 4.12): CRC-32 of the outputs, CRC-32 of the states, trigger tick. -/
def CtxSt.verifyWords (x : CtxSt) (outs states : List Word) : List Word := [crcWords outs, crcWords states, x.trigTs]

/-- The outputs and states of the source of a migration that its kernels hold by `parts`: the indices of each kernel. -/
def CtxSt.partWords (x : CtxSt) (parts : List (List Nat × List Nat)) : List (List Word × List Word) :=
  parts.map fun p => (p.1.map fun j => numWord (x.yOut.getD j (.fin 0)), p.2.map fun j => numWord (x.states.getD j (.fin 0)))

/-- A split of a context over the kernels that move: one part a kernel, and, where the whole context moves, every output and state in one. -/
def State.partsOk (s : State) (m : MigSt) (parts : List (List Nat × List Nat)) : Bool :=
  let x := s.ctx m.ctx
  parts.length == m.moves.length
    && (m.moves.length != popcount 15 (s.f R.LOOP_CTX_CFG_KMASK m.ctx)
      || (List.range x.yOut.length).all (fun j => parts.any fun p => p.1.contains j)
        && (List.range x.states.length).all fun j => parts.any fun p => p.2.contains j)

/-- Each kernel of one side of a migration sends its VERIFY flit. -/
def State.sendVerify (s : State) (m : MigSt) (ks : List (Nat × Nat)) (ws : List (List Word × List Word)) : State :=
  (ks.zip ws).foldl (fun s y =>
    s.transmit { dst := .port 8 2, src := .kernel (y.1.1 / 16) (y.1.1 % 16)
                 payload := .migr { op := 4, ctx := m.ctx, kpos := y.1.2, mem := false, addr := 0
                                    words := (s.ctx m.ctx).verifyWords y.2.1 y.2.2 } }) s

/-- MIG_VERIFY (R152, R153): source and target send VERIFY after evaluation k+1. `parts` says which outputs and states each kernel that moves
holds, `dst` what the target's kernels have computed. Mark: DESIGN CHOICE (log 51). -/
def execMigVerify (t : Instant) (parts : List (List Nat × List Nat)) (dst : List (List Word × List Word)) (s : State) : Res :=
  let s := s.start t
  .next (match s.loop.mig with
    | some m =>
      if m.step = 4 ∧ m.snapLanded ∧ (s.ctx m.ctx).phase = 0 ∧ s.partsOk m parts ∧ dst.length = parts.length then
        let x := s.ctx m.ctx
        let src := x.partWords parts
        let s := s.sendVerify m (m.moves.map fun y => (y.1, s.kpos m.ctx y.1)) src
        let s := s.sendVerify m (m.moves.map fun y => (y.2, s.kpos m.ctx y.1)) dst
        let words (ws : List (List Word × List Word)) : List (List Word) := ws.map fun p => x.verifyWords p.1 p.2
        if words src = words dst then s.commitMig m else s.suspectMig m
      else s
    | none => s)

/-- A context's reload is done: it is on the spare, FAULT is clear, and it restarts at its next trigger (R146, R154). -/
def State.forcedDone (s : State) (c : Nat) (r : Reload) : State :=
  let rest := s.rel.reloads.filter (· != r)
  let left := r.ctxs.filter (· != c)
  let s := { s with rel := { s.rel with reloads := if left.isEmpty then rest else rest ++ [{ r with ctxs := left }] } }
  let s := s.doIf (r.src != r.dst) fun s => (s.copyMem [(r.src, r.dst)]).takeKernels c [(r.src, r.dst)]
  let s := (s.setCtxFault c false).modCtx c fun x => { x with restart := true }
  ((s.setB R.LOOP_MIG_STAT_DONE true).setB R.LOOP_MIG_STAT_FORCED true).post E.MIG_DONE (subject c) (nw 1)

/-- FORCED_MIGRATION (R154, R475): the context's reload onto the spare completes. One migration runs at a time (R151). -/
def execForcedMigration (t : Instant) (c : Nat) (s : State) : Res :=
  let s := s.start t
  let others := (s.rel.reloads.filter fun r => r.ctxs.contains c).length
  .next (match s.rel.reloads.find? fun r => r.ctxs.contains c with
    | some r =>
      if s.loop.mig.isNone then
        if others = 1 then s.forcedDone c r
        else
          let rest := s.rel.reloads.filter (· != r)
          let left := r.ctxs.filter (· != c)
          let s := { s with rel := { s.rel with reloads := if left.isEmpty then rest else rest ++ [{ r with ctxs := left }] } }
          s.doIf (r.src != r.dst) fun s => (s.copyMem [(r.src, r.dst)]).takeKernels c [(r.src, r.dst)]
      else s
    | none => s)

end Sys2Proof.Machine
end

