-- ==== Sys2Proof/Machine/HostOps.lean ====
section
/-! DEFINITION. The opcodes: what a released descriptor, or a firing of a schedule, does at its handler (R384 to R393). Data that the
device reads from host memory come as operands; `none` is a bus-master error. -/
namespace Sys2Proof.Machine

/-- A number from the operand bytes at a descriptor offset (16 to 63). -/
def HDesc.num (d : HDesc) (off n : Nat) : Nat := leAt d.body (off - 16) n

/-- Only SERVICE and NETSVC kernels take SVCX items (R42, Table 1.5). -/
def State.svcDst (s : State) : FlitDst → Bool
  | .kernels r m => (List.range 15).all fun k => !m.testBit k || s.role (16 * r + k) == 3 || s.role (16 * r + k) == 4
  | .port .. => true

/-- Send an item to a kernel or port as SVCX DESC flits of five words (R42, Table 12.8). -/
def State.sendItem (s : State) (src : FlitSrc) (dst : FlitDst) (sub tag dom : Nat) (ws : List Word) : State :=
  let n := (ws.length + 4) / 5
  let item (i : Nat) : Payload :=
    .svcx { sub := sub, tag := tag, domain := dom, first := 5 * i, last := i + 1 == n, words := (ws.drop (5 * i)).take 5 }
  s.doIf (s.svcDst dst) fun s => (List.range n).foldl (fun s i => s.transmit { dst := dst, src := src, payload := item i }) s

/-- HOSTQ's port. -/
abbrev hostqPort : FlitSrc := .port 8 0

/-- A logical kernel as a destination. -/
def toKernel (router lk : Nat) : FlitDst := .kernels router (2 ^ lk)

/-- Take up a released descriptor of an opcode: `g` runs on it. -/
def State.takeUp (s : State) (tag op : Nat) (g : State → HDesc → State) : State :=
  match s.desc tag with
  | some d => s.doIf (s.sealed && d.op == op && d.phase == 1) fun s => g s d
  | none => s

/-- A descriptor is with its handler. -/
def State.atHandler (s : State) (tag : Nat) : State := s.modDesc tag fun d => { d with phase := 2 }

/-- Finish a descriptor now. -/
def State.fin (s : State) (tag status : Nat) (detail : Nat := 0) (info0 : Word := 0) (info1 : BitVec 64 := 0) : State :=
  s.finish tag status detail s.shortTs info0 info1

/-! ## SETPOINT and PARAM_TXN (R385, R396) -/

/-- Words go to the parameter agent of a context, which checks them as a command of its own (R147): the APPLY time, the set-point flag,
and index and value of each word. -/
def State.toAgent (s : State) (tag : Nat) (d : HDesc) (ws : List (Nat × Word)) : State :=
  let x := s.ctx d.target
  let st := s.ctxState d.target
  if st = stStopped ∨ st = stFaulted then s.fin tag 0x18
  else if x.fallback != 0 && x.writesSetpoint ws then s.fin tag 0x19
  else
    let t := ntBits (d.apply.getD 0)
    let item := [t.setWidth 32, (t >>> 32).setWidth 32, nw (b2n (d.op == 1) + 2 * b2n d.apply.isSome)] ++ ws.flatMap fun w => [nw w.1, w.2]
    (s.atHandler tag).sendItem hostqPort (toKernel x.desc.agentPod x.desc.agentK) 1 tag d.dom item

/-- SETPOINT (R385). -/
def execSetpoint (t : Instant) (tag : Nat) (s : State) : Res :=
  .next ((s.start t).takeUp tag 1 fun s d =>
    if lateDrops d then s.fin tag 0x1E
    else s.toAgent tag d ((List.range d.count).map fun i => (d.num (16 + 6 * i) 2, nw (d.num (18 + 6 * i) 4))))

/-- The safety parameter set (R304): KIND 1 stages and returns NEW_CRC, KIND 2 confirms. -/
def State.safetyTxn (s : State) (tag : Nat) (d : HDesc) (ws : List (Nat × Word)) (logOk : Bool) : State :=
  let user := s.f R.HUSK_SESS_STAT_USER 0 d.fn
  if !(s.sessionOpen d.fn && s.domainOf d.fn == domSaf) then (s.post E.PSET_REFUSED 0 (nw 1)).fin tag 0x17 1
  else if d.num 24 1 = 1 then
    match s.psetStage user ws with
    | (s, some r, _) => s.fin tag 0x17 r
    | (s, none, crc) => s.fin tag 0 0 crc
  else
    match s.psetConfirm user tag (nw (d.num 28 4)) logOk with
    | (s, some r) => s.fin tag 0x17 r
    | (s, none) => s.atHandler tag

/-- PARAM_TXN (R304, R385): `data` are index and value of the entries read at BUF_ADDR; `logOk`: the change-log entries of a confirmed
safety set could be written. -/
def execParamTxn (t : Instant) (tag : Nat) (data : Option (List (Nat × Word))) (logOk : Bool) (s : State) : Res :=
  .next ((s.start t).takeUp tag 2 fun s d =>
    if lateDrops d then s.fin tag 0x1E
    else if d.num 24 1 = 2 then s.safetyTxn tag d [] logOk
    else match data with
      | none => s.fin tag 0x22
      | some ws => if d.num 24 1 = 0 then s.toAgent tag d (ws.take d.count) else s.safetyTxn tag d (ws.take d.count) logOk)

/-! ## SCHEDULE (R386) -/

/-- START and PERIOD of a schedule, in ns. -/
def HDesc.start (d : HDesc) : Int := (BitVec.ofNat 64 (d.num 16 8)).toInt
def HDesc.period (d : HDesc) : Int := d.num 24 4 * 1000

/-- The first m whose instant is at or after `now`; a schedule that fires once starts at 0. -/
def HDesc.firstM (d : HDesc) (now : Int) : Nat :=
  if d.period = 0 ∨ ntLe now d.start then 0 else ((ntSub now d.start + d.period - 1) / d.period).toNat

/-- SCHEDULE (R386): the schedule is held, or the table of 256 is full. -/
def execSchedule (t : Instant) (tag : Nat) (s : State) : Res :=
  .next ((s.start t).takeUp tag 3 fun s d =>
    if 256 ≤ s.f R.HOSTQ_STAT_SCHEDULES then s.fin tag 0x1D
    else (s.setF R.HOSTQ_STAT_SCHEDULES (s.f R.HOSTQ_STAT_SCHEDULES + 1)).setDesc tag
      { d with phase := 2, held := true, nextM := d.firstM s.ntime })

/-- The instant of the next firing. -/
def HDesc.nextInstant (d : HDesc) : Int := ntWrap (d.start + d.nextM * d.period)

/-- A firing releases a copy of the inner descriptor with its instant as APPLY time. -/
def State.fire (s : State) (tag : Nat) (d : HDesc) : State :=
  let a := d.nextInstant
  let copy : HDesc := { mkDesc d.inner with
    fn := d.fn, sq := d.sq, dom := d.dom, order := d.order, apply := some a, late := ntLt a s.ntime, phase := 1, parent := some tag }
  (s.setDesc tag { d with nextM := d.nextM + 1, fired := d.fired + 1 }).setDesc (s.freeTag 1024) copy

/-- SCHEDULE_FIRING (R386): 1 ms before an instant a copy of the inner descriptor is released. -/
def execScheduleFiring (t : Instant) (tag : Nat) (s : State) : Res :=
  let s := s.start t
  .next (match s.desc tag with
    | some d => s.doIf (s.sealed && d.held && d.phase == 2 && (d.count == 0 || decide (d.fired < d.count))
        && ntLe (d.nextInstant - 1000000) s.ntime) (·.fire tag d)
    | none => s)

/-! ## Telemetry (R387, Table 12.7) -/

/-- The telemetry agent: the lowest SERVICE logical kernel (R380). -/
def State.telemAgent (s : State) : Option Nat := (s.sea.roles.find? fun x => x.2 == 3).map (·.1)

/-- Bytes of words. -/
def wordsBytes (ws : List Word) : List Byte := ws.flatMap fun w => leBytes 4 w.toNat

/-- The drive record of a context. -/
def State.driveRecord (s : State) (c : Nat) : List Word :=
  let v := (s.ctx c).drv
  [nw v.st, nw (s.ctx c).sel.source, nw v.flags, f32Of (s.ctx c).sel.omega, f32Of v.mPrev, f32Of v.did, f32Of v.tStar, nw v.drops]

/-- The grid record of a context, then its link record (Table 6.1a, R218). -/
def State.gridRecord (s : State) (c : Nat) : List Word :=
  let x := s.ctx c
  let g := x.grid
  let dc : Word := if x.section_ 2 then nw x.dcdc.st else 255
  let head : List Word := if x.section_ 1 then
      let flags := g.flags + 4 * b2n g.slewing + 8 * b2n g.locked + 16 * b2n (s.gridForming c)
      [nw g.st, nw flags, f32Of g.vmag, f32Of (g.omega / (2 * Config.pi)), f32Of g.thetaUsed, if x.gridCfg 4 4 == 1 then f32Of g.thetaI else 0, f32Of g.power]
    else [255, 0, 0, 0, 0, 0, 0]
  head ++ [dc] ++ [f32Of x.link.energy, f32Of x.link.pGrid, f32Of x.link.pBat, nw x.link.holder, f32Of x.link.avail]

/-- The update stamps of slot or bridge `n`. -/
def State.stampRecord (s : State) (n : Nat) : List Word :=
  if n < 24 then s.word .pwm (W.PWM_SLOT_UPD.key n 0) :: (List.range 6).map fun i => s.word .pwm (W.PWM_AGE.key n i)
  else s.word .aux (W.AUX_BR_UPD.key (n - 24) 0) :: (List.range 6).map fun i => s.word .aux (W.AUX_AGE.key (n - 24) i)

/-- The payload of a record of an item; context data words are brought by the agent. -/
def State.recordBytes (s : State) (it : TelemItem) (data : List Word) : List Byte :=
  let idx := (List.range it.n).map (it.first + ·)
  match it.kind with
  | 1 => idx.flatMap fun a => leBytes 8 (unsignedOf 64 (s.acc a).resSum) ++ leBytes 4 (s.acc a).resCnt ++ leBytes 2 a ++ [0, 0]
  | 2 => idx.flatMap fun m =>
      match (s.mmt m).last with
      | some r => leBytes 2 r.min ++ leBytes 2 r.max ++ leBytes 4 r.cnt ++ leBytes 2 r.above ++ leBytes 2 r.below ++ leBytes 1 r.flags
          ++ leBytes 1 m ++ [0, 0]
      | none => List.replicate 13 0 ++ leBytes 1 m ++ [0, 0]
  | 3 => wordsBytes (data.take it.n)
  | 4 => idx.flatMap fun c => wordsBytes (s.driveRecord c)
  | 5 => idx.flatMap fun c => wordsBytes (s.gridRecord c)
  | 6 => idx.flatMap fun p => wordsBytes (s.lifeWords p)
  | 7 => idx.flatMap fun n => wordsBytes (s.stampRecord n)
  | _ => wordsBytes (idx.map fun x => s.word .safe (W.SAFE_AX_STAT.key x 0))

/-- A record: head and payload padded to 16 bytes (R387). -/
def recordOf (time : Int) (item seq : Nat) (stale : Bool) (pay : List Byte) : List Byte :=
  leBytes 8 (unsignedOf 64 time) ++ leBytes 2 item ++ leBytes 2 pay.length ++ leBytes 3 seq ++ [BitVec.ofNat 8 (b2n stale)]
    ++ pay ++ List.replicate ((16 - pay.length % 16) % 16) 0

/-- Write bytes of a stream at its place in the circular log, then the count to PROG_ADDR. -/
def State.streamPut (s : State) (tag : Nat) (d : HDesc) (b : List Byte) : State × HDesc :=
  let d' := { d with bytes := d.bytes + b.length }
  let s := (s.emit (.dmaWrite d.fn (d.num 16 8 + d.bytes % d.num 24 4) b)).emit (.dmaWrite d.fn (d.num 32 8) (leBytes 8 d'.bytes))
  (s.setDesc tag d', d')

/-- The sources of an item deliver to the telemetry agent: windows and trackers by their destinations, other kinds by what the agent brings
(R380). Mark: DEDUCED (log 165). -/
def State.itemFed (s : State) (it : TelemItem) : Bool :=
  let idx := (List.range it.n).map (it.first + ·)
  let here (ds : List FlitDst) : Bool := s.telemAgent.any fun k => ds.any fun d => match d with
    | .kernels r m => r == k / 16 && m.testBit (k % 16)
    | _ => false
  match it.kind with
  | 1 => idx.all fun a => here (s.accDests a)
  | 2 => idx.all fun m => s.b R.MEAS_MMT_DST_EN m && here [.kernels (s.f R.MEAS_MMT_DST_ROUTER m) (s.f R.MEAS_MMT_DST_MASK m)]
  | _ => true

/-- Write one record of a stream; a record that would cross the buffer end is preceded by a pad record that fills to the end. -/
def State.streamRecord (s : State) (tag item : Nat) (data : Int × Bool × List Word) : State :=
  match s.desc tag with
  | none => s
  | some d =>
    let len := d.num 24 4
    let pay := s.recordBytes (kget {} s.hostq.items item) data.2.2
    let r := recordOf data.1 item d.recs (data.2.1 || !s.itemFed (kget {} s.hostq.items item)) pay
    let room := len - d.bytes % len
    let (s, d) := if r.length ≤ room then (s, d)
      else s.streamPut tag d (recordOf 0 0xFFFF d.recs false (List.replicate (room - 16) 0))
    if d.bytes % len + r.length ≤ len then
      let (s, d) := s.streamPut tag d r
      s.setDesc tag { d with recs := d.recs + 1 }
    else s

/-- TELEM_STREAM (R387): the stream starts, or 16 of the function run already. -/
def execTelemStream (t : Instant) (tag : Nat) (s : State) : Res :=
  .next ((s.start t).takeUp tag 5 fun s d =>
    if 16 ≤ (s.hostq.descs.filter fun x => x.2.op == 5 && x.2.phase == 2 && x.2.fn == d.fn).length then s.fin tag 0x1D
    else
      let s := s.setDesc tag { d with phase := 2, nextAt := d.apply.elim s.ntime fun a => if ntLt a s.ntime then s.ntime else a }
      match s.telemAgent with
      | some k => s.sendItem hostqPort (toKernel (k / 16) (k % 16)) 1 tag d.dom (bytesToWords d.body)
      | none => s)

/-- TELEMETRY_SAMPLE (R387): a sample of a stream. `data` brings, per item, the NTIME of its data, whether it is stale, and context data
words; `dmaOk`: no bus-master error. -/
def execTelemetrySample (t : Instant) (tag : Nat) (data : List (Int × Bool × List Word)) (dmaOk : Bool) (s : State) : Res :=
  let s := s.start t
  .next (match s.desc tag with
    | some d => s.doIf (s.busOpen d.fn && d.op == 5 && d.phase == 2 && ntLe d.nextAt s.ntime) fun s =>
        if !dmaOk then s.fin tag 0x22 0 (nw d.recs) (BitVec.ofNat 64 d.bytes)
        else
          let limit := d.num 40 4
          let s := s.setDesc tag { d with nextAt := d.nextAt + d.num 28 4 * 1000 }
          let s := ((List.range d.count).zip data).foldl (fun s x =>
            match s.desc tag with
            | some e => s.doIf (limit == 0 || decide (e.recs < limit)) (·.streamRecord tag (d.target + x.1) x.2)
            | none => s) s
          match s.desc tag with
          | some e => s.doIf (limit != 0 && decide (limit ≤ e.recs)) (·.fin tag 0 0 (nw e.recs) (BitVec.ofNat 64 e.bytes))
          | none => s
    | none => s)

/-- STATS_READ (R387): one record per item, without wrap. Mark: DESIGN CHOICE (log 106). -/
def execStatsRead (t : Instant) (tag : Nat) (data : List (Int × Bool × List Word)) (dmaOk : Bool) (s : State) : Res :=
  .next ((s.start t).takeUp tag 6 fun s d =>
    if !s.busOpen d.fn then s
    else
      let bytes := ((List.range d.count).zip data).flatMap fun x =>
        recordOf x.2.1 (d.target + x.1) x.1 (x.2.2.1 || !s.itemFed (kget {} s.hostq.items (d.target + x.1))) (s.recordBytes (kget {} s.hostq.items (d.target + x.1)) x.2.2.2)
      if d.num 24 4 < bytes.length then s.fin tag 0x11 24
      else if !dmaOk then s.fin tag 0x22
      else (s.emit (.dmaWrite d.fn (d.num 16 8) bytes)).fin tag 0 0 (nw bytes.length))

/-! ## LOG_FETCH (R321, R388, R533) -/

/-- A safety-assigned instance, or a pair, is named by a MEAS or POS event. -/
def State.safeEvent (s : State) (cls code inst : Nat) : Bool :=
  if cls = Cls.code .meas then
    if code = 0x0001 ∨ code = 0x0002 ∨ code = 0x0003 then s.b R.MEAS_ACC_CFG_SAFE inst
    else if code = 0x0004 ∨ code = 0x0005 ∨ code = 0x000B then s.sea.safeTrackers.contains inst
    else code == 0x0009
  else if code = 0x000D ∨ code = 0x000E ∨ code = 0x000F ∨ code = 0x0010 ∨ code = 0x0012 then false
  else decide (inst < 8) && s.b R.POS_PI_CFG_SAFE inst

/-- Table 10.5. -/
def State.mayReadEvent (s : State) (dom : Nat) (e : LogEntry) : Bool :=
  let c := e.cls
  if dom = domOem ∨ dom = domVnd then true
  else if [0x01, 0x02, 0x09, 0x0A, 0x0D, 0x0E, 0x0F].contains c then true
  else if [0x03, 0x04, 0x0B, 0x0C, 0x10].contains c then dom == domOpr
  else if c = 0x07 then
    dom == domOpr && (e.code == 4 || e.code == 5 || e.code == 8 || decide (0x20 ≤ e.code) && decide (e.code ≤ 0x4F))
  else if c = 0x05 ∨ c = 0x06 then dom == domSaf && s.safeEvent c e.code (e.subject % 65536)
  else false

/-- The 32 bytes of an event-log entry (Table 19.5). -/
def LogEntry.bytes (e : LogEntry) : List Byte :=
  leBytes 8 (unsignedOf 64 e.ntime) ++ leBytes 8 e.seq ++ leBytes 1 e.cls ++ leBytes 1 e.flags ++ leBytes 2 e.code ++ leBytes 4 e.subject
    ++ leBytes 4 e.w0.toNat ++ leBytes 4 e.w1.toNat

/-- The 32 bytes of a change-log entry (Table 9.6). -/
def ChangeEntry.bytes (e : ChangeEntry) : List Byte :=
  leBytes 8 (unsignedOf 64 e.ntime) ++ leBytes 4 e.seq ++ leBytes 2 e.paramId ++ leBytes 1 (e.user + 128 * b2n e.unlocked) ++ leBytes 1 e.kind
    ++ leBytes 4 e.oldCrc.toNat ++ leBytes 4 e.newCrc.toNat ++ leBytes 8 e.chain.toNat

/-- Serve a fetch from entries given as sequence number, readability and bytes, oldest first; `next` is the SEQ after the last written. -/
def State.serveLog (s : State) (tag : Nat) (d : HDesc) (es : List (Nat × Bool × List Byte)) (first next : Nat) (dmaOk : Bool) : State :=
  let from_ := d.num 24 8
  let at_ := es.filter fun e => from_ ≤ e.1
  let got := (at_.filter fun e => e.2.1).take d.count
  let goOn := if got.length = d.count then got.getLast?.elim next (fun e => e.1 + 1) else max from_ next
  let start := max from_ first
  let held := (at_.filter fun e => e.1 < goOn).length
  let lost := start < goOn ∧ held < goOn - start
  if !dmaOk then s.fin tag 0x22
  else (s.doIf (!got.isEmpty) (·.emit (.dmaWrite d.fn (d.num 16 8) (got.flatMap (·.2.2))))).fin tag 0 (if lost then 1 else 0)
    (nw got.length) (BitVec.ofNat 64 goOn)

/-- LOG_FETCH (R388). Mark: DEDUCED (log 109). -/
def execLogFetch (t : Instant) (tag : Nat) (dmaOk : Bool) (s : State) : Res :=
  .next ((s.start t).takeUp tag 7 fun s d =>
    if !s.busOpen d.fn then s
    else if d.target = 0 then
      s.serveLog tag d (s.sys.log.map fun e => (e.seq, s.mayReadEvent d.dom e, e.bytes)) 1 s.sys.nextSeq dmaOk
    else s.serveLog tag d (s.safe.changeLog.map fun e => (e.seq, true, e.bytes)) 1 (s.f R.SAFE_LOG_STAT_SEQ + 1) dmaOk)

/-! ## Frames, migration, heartbeat -/

/-- A number of data bytes that a CAN frame can have. -/
def canLength (n : Nat) : Bool := decide (n ≤ 8) || [12, 16, 20, 24, 32, 48, 64].contains n

/-- DETAIL of the BAD_FIELD with which HOSTQ completes a CAN_TX before queueing (R434): a receive object, an invalid length, an identifier
that the object does not allow, or a format that the object or its controller does not permit. -/
def State.canBadField (s : State) (d : HDesc) : Option Nat :=
  let o := d.target
  let n := o / 64
  let id := d.num 16 4 % 2 ^ 29
  let xtd := (d.num 16 4).testBit 31
  let fdf := (d.num 20 1).testBit 0
  let brs := (d.num 20 1).testBit 1
  let mask := s.f R.CAN_OBJ_MASK_MASK o
  if !s.b R.CAN_OBJ_CFG_DIR o then some 8
  else if !canLength d.count ∨ !fdf ∧ 8 < d.count then some 10
  else if id &&& mask != s.f R.CAN_OBJ_ID_ID o &&& mask ∨ xtd != s.b R.CAN_OBJ_ID_XTD o ∨ !xtd ∧ 0x7FF < id then some 16
  else if fdf && !(s.b R.CAN_CFG_FD_EN n && s.b R.CAN_OBJ_CFG_FDF_OK o) || brs && !(fdf && s.b R.CAN_CFG_BRS_EN n) then some 20
  else none

/-- CAN_TX (R389): the item goes to the NETSVC kernel of its object; `data` is the payload read at DATA_ADDR when COUNT is above 32. -/
def execCanTx (t : Instant) (tag : Nat) (data : Option (List Byte)) (s : State) : Res :=
  .next ((s.start t).takeUp tag 8 fun s d =>
    match s.canBadField d with
    | some o => s.fin tag 0x11 o
    | none =>
    let pay := if d.count ≤ 32 then some ((d.body.drop 16).take d.count) else data.map (·.take d.count)
    match pay with
    | none => s.fin tag 0x22
    | some b =>
      let a := ntBits (d.apply.getD 0)
      let item := [nw d.target, nw (d.count + 256 * d.num 20 1 + 65536 * b2n d.apply.isSome), nw (d.num 16 4), a.setWidth 32,
        (a >>> 32).setWidth 32] ++ bytesToWords b
      (s.atHandler tag).sendItem hostqPort (toKernel (s.f R.CAN_OBJ_CFG_ROUTER d.target) (s.f R.CAN_OBJ_CFG_LK d.target)) 1 tag d.dom item)

/-- NET_TX (R390): the frame read at FRAME_ADDR goes to the NETSVC kernel of its launch queue. Mark: DESIGN CHOICE (log 106). -/
def execNetTx (t : Instant) (tag : Nat) (frame : Option (List Byte)) (s : State) : Res :=
  .next ((s.start t).takeUp tag 9 fun s d =>
    match frame with
    | none => s.fin tag 0x22
    | some b =>
      let a := BitVec.ofNat 64 (d.num 24 8)
      let item := [nw d.target, nw (d.count + 65536 * b2n (d.flags.testBit 3)), a.setWidth 32, (a >>> 32).setWidth 32]
        ++ bytesToWords (b.take d.count)
      (s.atHandler tag).sendItem hostqPort (toKernel (s.f R.NET_LQ_CFG_ROUTER d.target) (s.f R.NET_LQ_CFG_LK d.target)) 1 tag d.dom item)

/-- The moves that a MIGRATE asks for: the whole context to another pod, or one kernel within its pod (R392); `none` for any other
combination. -/
def State.migWanted (s : State) (c pod mask : Nat) : Option MigSt :=
  let p := s.f R.LOOP_CTX_CFG_POD c
  let m := s.f R.LOOP_CTX_CFG_KMASK c
  if pod = p then
    let gone := m &&& (32767 - mask)
    let come := mask &&& (32767 - m)
    if popcount 15 gone = 1 ∧ popcount 15 come = 1 then some { ctx := c, srcPod := p, srcMask := gone, dstPod := pod, dstMask := come } else none
  else if popcount 15 m = popcount 15 mask then some { ctx := c, srcPod := p, srcMask := m, dstPod := pod, dstMask := mask }
  else none

/-- The target is fit: backed kernels that hold IDLE/SPARE, and for a fast-class context the bound of R151. -/
def State.migFit (s : State) (m : MigSt) : Bool :=
  (maskKernels m.dstPod m.dstMask).all (fun k => s.role k == roleIdle && s.backed k)
    && (!s.b R.LOOP_CTX_CFG_FAST m.ctx
      || (s.ctx m.ctx).desc.ceval.all fun e => decide (e * 1000 ≤ 576 * s.f R.CLK_POD_MHZ m.dstPod))

/-- MIGRATE (R392). Mark: DEDUCED (log 50). -/
def execMigrate (t : Instant) (tag : Nat) (s : State) : Res :=
  .next ((s.start t).takeUp tag 0xA fun s d =>
    let st := s.ctxState d.target
    match s.migWanted d.target (d.num 16 1) (d.num 18 2) with
    | none => s.fin tag 0x11 16
    | some m =>
      if s.loop.mig.isSome then s.fin tag 0x1C
      else if !s.migFit m then s.fin tag 0x11 18
      else if st = stStopped ∨ st = stFaulted then s.fin tag 0x18
      else (s.atHandler tag).beginMig { m with tag := some tag })

/-- HEARTBEAT (R392, R394): completes at once, with the NTIME in INFO1. -/
def execHeartbeat (t : Instant) (tag : Nat) (s : State) : Res :=
  .next ((s.start t).takeUp tag 0xB fun s d => (s.heartbeat d.fn).fin tag 0 0 0 (ntBits s.ntime))

/-! ## ABORT (R393) -/

/-- An outstanding descriptor is in its cancellable phase (Table 12.5). -/
def HDesc.cancellable (d : HDesc) : Bool :=
  match d.op with
  | 1 => d.phase == 0
  | 2 => d.phase == 0 && d.num 24 1 == 0
  | 3 => decide (d.phase < 4) && (d.count == 0 || decide (d.fired < d.count))
  | 5 => decide (d.phase < 4)
  | 6 | 7 => d.phase == 0
  | 8 | 9 | 0xA => decide (d.phase < 3)
  | _ => false

/-- The frames of a launch queue. -/
def State.lqOf (s : State) (q : Nat) : List NetFrame := kget [] s.net.lq q

/-- Replace the frames of a launch queue, with FILL. -/
def State.setLq (s : State) (q : Nat) (fs : List NetFrame) : State :=
  ({ s with net := { s.net with lq := kset [] s.net.lq q fs } }).setF R.NET_LQ_STAT_FILL fs.length q

/-- A message object beside its registers. -/
def State.canObj (s : State) (o : Nat) : CanObj := kget {} s.can.obj o

/-- Replace a message object, with FILL: frames queued, or buffers full (Table 14.7). -/
def State.setCanObj (s : State) (o : Nat) (x : CanObj) : State :=
  ({ s with can := { s.can with obj := kset {} s.can.obj o x } }).setF R.CAN_OBJ_STAT_FILL
    (if s.b R.CAN_OBJ_CFG_DIR o then x.queue.length else b2n x.main.isSome + b2n x.shadow.isSome) o

/-- The frame of a descriptor leaves the queue it waits in. -/
def State.dropFrame (s : State) (tag : Nat) : State :=
  let s := (s.net.lq.map (·.1)).foldl (fun s q =>
    s.doIf ((s.lqOf q).any fun f => f.desc == some tag) fun s => s.setLq q ((s.lqOf q).filter fun f => f.desc != some tag)) s
  (s.can.obj.map (·.1)).foldl (fun s o =>
    s.doIf ((s.canObj o).queue.any fun f => f.desc == some tag) fun s =>
      s.setCanObj o { s.canObj o with queue := (s.canObj o).queue.filter fun f => f.desc != some tag }) s

/-- Cancel a descriptor: a running migration aborts, firings under way lose their schedule, frames leave their queues. -/
def State.cancel (s : State) (tag : Nat) (d : HDesc) : State :=
  let (i0, i1) : Word × BitVec 64 := if d.op = 3 then (nw d.fired, BitVec.ofNat 64 d.failed)
    else if d.op = 5 then (nw d.recs, BitVec.ofNat 64 d.bytes) else (0, 0)
  let s := (s.fin tag 3 0 i0 i1).dropFrame tag
  let orphan (x : Nat × HDesc) : Nat × HDesc := if x.2.parent == some tag then (x.1, { x.2 with parent := some 4096 }) else x
  let s := { s with hostq := { s.hostq with descs := s.hostq.descs.map orphan } }
  match s.loop.mig with
  | some m => s.doIf (m.tag == some tag) (·.abortMig)
  | none => s

/-- ABORT (R393). -/
def execAbort (t : Instant) (tag : Nat) (s : State) : Res :=
  .next ((s.start t).takeUp tag 4 fun s d =>
    let sq := d.num 16 1
    let cid := d.num 18 2
    match s.hostq.descs.find? fun x => x.2.fn == d.fn && x.2.sq == sq && x.2.cid == cid && x.2.parent.isNone && !x.2.dead with
    | some (g, e) =>
      if e.dom != d.dom then s.fin tag 0x1A
      else if e.phase = 4 then s.fin tag 2
      else if e.cancellable then (s.cancel g e).fin tag 0
      else s.fin tag 0x1B
    | none =>
      if s.f R.HOSTQ_SQ_STAT_DOMAIN sq d.fn == d.dom && (kget [] s.hostq.done (32 * d.fn + sq)).contains cid then s.fin tag 2
      else s.fin tag 0x1A)

end Sys2Proof.Machine
end

