-- ==== Sys2Proof/Machine/Ptp.lean ====
section
/-! DEFINITION. What the time engine reads in a received frame, the comparison of Announce data sets and the selection of the best master clock
(R402, R406, R416). The message layouts and the algorithm are those of IEEE 802.3, IPv4 and IEEE 1588-2019, to which the rules refer. Mark:
PRESUMED (log 112). -/
namespace Sys2Proof.Machine

/-! ## Received frames (R402) -/

/-- Bytes `i` and `i + 1` of a frame, the first byte the more significant. -/
def pairAt (bytes : List Byte) (i : Nat) : Nat := 256 * (bytes.getD i 0).toNat + (bytes.getD (i + 1) 0).toNat

/-- A type that announces a VLAN tag. -/
def isTag (etype : Nat) : Bool := etype == 0x8100 || etype == 0x88A8

/-- VLAN identifier of a frame with a tag. -/
def frameVid (bytes : List Byte) : Option Nat := if pairAt bytes 12 = 0x8100 then some (pairAt bytes 14 % 4096) else none

/-- First byte after the EtherType, and the EtherType, past one VLAN tag. -/
def frameBody (bytes : List Byte) : Nat := if isTag (pairAt bytes 12) then 18 else 14
def frameType (bytes : List Byte) : Nat := pairAt bytes (frameBody bytes - 2)

/-- First byte of the PTP message in a frame, by EtherType 0x88F7 or, with `udp`, in UDP over IPv4 to port 319 or 320. -/
def ptpStart (udp : Bool) (bytes : List Byte) : Option Nat :=
  let b := frameBody bytes
  let ip := 4 * ((bytes.getD b 0).toNat % 16)
  let port := pairAt bytes (b + ip + 2)
  if frameType bytes = 0x88F7 then some b
  else if udp ∧ frameType bytes = 0x0800 ∧ (bytes.getD b 0).toNat / 16 = 4 ∧ (bytes.getD (b + 9) 0).toNat = 17 ∧ (port = 319 ∨ port = 320)
  then some (b + ip + 8)
  else none

/-- The answer a PTP request asks for, by kind of `State.ptpLen`: Delay_Resp to Delay_Req, Pdelay_Resp to Pdelay_Req, a response to GET of the
default, current, parent or time-properties data set. -/
def ptpAnswer (domain : Nat) (bytes : List Byte) (at_ : Nat) : Option Nat :=
  let typ := (bytes.getD at_ 0).toNat % 16
  if (bytes.getD (at_ + 4) 0).toNat ≠ domain then none
  else if typ = 1 then some 5
  else if typ = 2 then some 6
  else if typ = 13 ∧ (bytes.getD (at_ + 46) 0).toNat % 16 = 0 ∧ pairAt bytes (at_ + 48) = 1
      ∧ 0x2000 ≤ pairAt bytes (at_ + 52) ∧ pairAt bytes (at_ + 52) ≤ 0x2003 then some 8
  else none

/-! ## Data sets (clause 9.3) -/

/-- The MAC address of a port, its first octet the most significant. -/
def State.macOf (s : State) (p : Nat) : BitVec 48 :=
  BitVec.ofNat 48 (s.f R.NET_PORT_MAC_HI_MAC p * 2 ^ 32 + s.f R.NET_PORT_MAC_LO_MAC p)

/-- The PTP clockIdentity, from the MAC address of ETH0 (R416). -/
def State.clockId (s : State) : Nat := Config.clockIdentity (s.macOf 0)

/-- The data set of the device's own clock. -/
def State.ownClock (s : State) : Announce :=
  { prio1 := s.f R.NET_PTP_DS_PRIORITY1, cls := s.f R.NET_PTP_DS_CLASS, acc := Config.clockAccuracy, var := Config.clockVariance
    prio2 := s.f R.NET_PTP_DS_PRIORITY2, gm := s.clockId, steps := 0, src := s.clockId, srcPort := 0 }

/-- A list of numbers comes before another. -/
def lexLt : List Nat → List Nat → Bool
  | x :: xs, y :: ys => decide (x < y) || x == y && lexLt xs ys
  | _, _ => false

/-- The parts of a data set that rank two grandmasters. -/
def announceRank (a : Announce) : List Nat := [a.prio1, a.cls, a.acc, a.var, a.prio2, a.gm]

/-- The outcomes of a comparison. -/
abbrev cmpBetter : Nat := 0
abbrev cmpBetterTopology : Nat := 1
abbrev cmpWorseTopology : Nat := 2
abbrev cmpWorse : Nat := 3

/-- Data set `a`, received on port `ra`, against `b`, received on port `rb`, by a receiver of identity `own`. -/
def compareSets (own : Nat) (a : Announce) (ra : Nat) (b : Announce) (rb : Nat) : Nat :=
  if a.gm ≠ b.gm then (if lexLt (announceRank a) (announceRank b) then cmpBetter else cmpWorse)
  else if b.steps + 1 < a.steps then cmpWorse
  else if a.steps + 1 < b.steps then cmpBetter
  else if b.steps < a.steps then (if own < a.src then cmpWorse else cmpWorseTopology)
  else if a.steps < b.steps then (if own < b.src then cmpBetter else cmpBetterTopology)
  else if a.src ≠ b.src then (if a.src < b.src then cmpBetterTopology else cmpWorseTopology)
  else if ra ≤ rb then cmpBetterTopology else cmpWorseTopology

/-- The better of two data sets with their ports. -/
def betterOf (own : Nat) (x y : Nat × Announce) : Nat × Announce := if compareSets own x.2 x.1 y.2 y.1 ≤ cmpBetterTopology then x else y

/-- The best of a list. -/
def bestOf (own : Nat) : List (Nat × Announce) → Option (Nat × Announce)
  | [] => none
  | x :: xs => some (xs.foldl (betterOf own) x)

end Sys2Proof.Machine
end

