-- ==== Sys2Proof/Machine/Net.lean ====
section
/-! DEFINITION. NET: ports and their order of transmission, the time engine and its servo, steps of NTIME, launch queues, MACsec
agreement, the wake slot and FRAME items (R401 to R425). Ports are 0 and 1. -/
namespace Sys2Proof.Machine

def State.port (s : State) (p : Nat) : PortSt := kget {} s.net.ports p

def State.setPort (s : State) (p : Nat) (x : PortSt) : State := { s with net := { s.net with ports := kset {} s.net.ports p x } }

/-! ## Ports -/

/-- PTP state codes of NET_STAT. -/
abbrev psListening : Nat := 1
abbrev psPreMaster : Nat := 2
abbrev psMaster : Nat := 3
abbrev psPassive : Nat := 4
abbrev psSlave : Nat := 6
abbrev psFaulty : Nat := 7

/-- The port runs with its link up. -/
def State.portUp (s : State) (p : Nat) : Bool :=
  s.sealed && decide (p < 2) && s.b R.NET_CTL_EN && s.b R.NET_PORT_CFG_EN p && s.b R.NET_PORT_STAT_LINK p

/-- The port runs at 1,000 Mb/s or more (R401). -/
def State.portFast (s : State) (p : Nat) : Bool := 2 ≤ s.f R.NET_PORT_STAT_SPEED p

/-- The time engine uses the port (R401, R406). -/
def State.ptpOn (s : State) (p : Nat) : Bool :=
  s.portUp p && s.portFast p && s.b R.NET_CTL_PTP_EN && s.b R.NET_PORT_CFG_PTP p
    && (s.b R.NET_PTP_CFG_BC || s.f R.NET_PTP_CFG_OC_PORT == p)

/-- PTP state of a port. -/
def State.ps (s : State) (p : Nat) : Nat := s.f R.NET_PORT_STAT_PSTATE p

/-- Set the PTP state of a port, shown in both registers. -/
def State.setPs (s : State) (p v : Nat) : State :=
  (s.setF R.NET_PORT_STAT_PSTATE v p).setF (if p = 0 then R.NET_STAT_PS0 else R.NET_STAT_PS1) v

/-- A port without MACsec, or with a transmit SA, sends every frame; else MKA and, with PTP_BYPASS, PTP (R421). `cls` as in PortSt. -/
def State.maySend (s : State) (p cls : Nat) : Bool :=
  !s.b R.NET_PORT_CFG_MSEC p || s.b R.NET_PORT_STAT_SA_TX p || cls == 2 || cls == 1 && s.b R.NET_PORT_CFG_PTP_BYPASS p

/-- Steps of 250 ps that one byte takes: 800 ns, 80 ns, 8 ns and 3.2 ns, ×10 to stay whole. -/
def byteTime (speed : Nat) : Nat := [32000, 3200, 320, 128].getD speed 320

/-- Time of a frame of `n` bytes without FCS, with preamble, FCS and interframe gap (R420). -/
def State.frameTime (s : State) (p n : Nat) : Nat := ceilDiv ((8 + n + 4 + 12) * byteTime (s.f R.NET_PORT_STAT_SPEED p)) 10

/-- Lengths without FCS of time-engine messages: 0 Sync, 1 Announce, 2 Delay_Req, 3 Pdelay_Req, 4 Follow_Up, 5 Delay_Resp, 6 Pdelay_Resp,
7 Pdelay_Resp_Follow_Up, 8 a management response. -/
def State.ptpLen (s : State) (kind : Nat) : Nat :=
  [60, 78, 60, 68, 60, 68, 68, 68, 110].getD kind 60 + (if s.b R.NET_PTP_CFG_UDP then 28 else 0)

/-- The launch queues of a port. -/
def portQueues (p : Nat) : List Nat := (List.range 8).map (8 * p + ·)

/-- A launch instant pending at the port is reached by a frame that takes `span` from now (R403). -/
def State.launchNear (s : State) (p span : Nat) : Bool :=
  s.maySend p 0 && (portQueues p).any fun q =>
    match s.lqOf q with
    | f :: _ => f.late || ntLe f.launch (s.ntime + ceilDiv span nsQ)
    | [] => false

/-- The SCI of a port: its MAC address and port identifier 0x0001 (R421). -/
def State.sci (s : State) (p : Nat) : Nat := (s.macOf p).toNat * 65536 + 1

/-- The device is key server towards the live peer: the lower key-server priority, then the lower SCI. Mark: PRESUMED (log 137). -/
def State.keyServer (s : State) (p : Nat) : Bool :=
  (s.port p).peer.any fun x => lexLt [s.f R.NET_PORT_CFG_KS_PRIO p, s.sci p] [x.1, x.2.1]

/-- A new SAK derived from a CAK slot is installed: the transmit SA and the receive SAs start afresh (R336, R421). -/
def State.installSak (s : State) (p slot : Nat) : State :=
  let s := s.setPort p { s.port p with txPn := 0, rxPn := [] }
  ({ s with net := { s.net with txSa := kset 0 s.net.txSa p (slot + 1) } }).setB R.NET_PORT_STAT_SA_TX true p

/-- The packet number at which the key server installs a new SAK (R421). -/
def State.pnLimit (s : State) (p : Nat) : Nat := if s.b R.NET_PORT_CFG_XPN p then 2 ^ 62 else 0xC0000000

/-- A protected frame takes the next packet number of the transmit SA. -/
def State.takePn (s : State) (p cls : Nat) : State :=
  if !s.b R.NET_PORT_CFG_MSEC p ∨ cls = 2 ∨ cls = 1 ∧ s.b R.NET_PORT_CFG_PTP_BYPASS p then s
  else
    let n := (s.port p).txPn + 1
    let s := s.setPort p { s.port p with txPn := n }
    match (s.port p).peer with
    | some x => s.doIf (decide (s.pnLimit p ≤ n) && s.keyServer p) (·.installSak p x.2.2)
    | none => s

/-- A frame starts on the wire. -/
def State.startFrame (s : State) (p cls kind len : Nat) (bytes : List Byte) : State :=
  ((s.setPort p { s.port p with busy := some (cls, kind, s.now + s.frameTime p len) }).takePn p cls).emit (.ethFrame p cls bytes)

/-- A FRAME item between NET and a kernel (R423). -/
def State.frameItem (s : State) (k tag kind port queue status len : Nat) (time : Int) (extra : Nat) (bytes : List Byte) : State :=
  let t := ntBits time
  let w0 := nw (len + 65536 * queue + 2 ^ 24 * port + 2 ^ 25 * kind)
  s.sendItem (.port 15 0) (toKernel (k / 16) (k % 16)) 4 tag 0
    ([w0, t.setWidth 32, (t >>> 32).setWidth 32, nw (status + extra)] ++ bytesToWords bytes)

/-- A transmitted, dropped or failed frame is reported: to its kernel as a completion item, and of a NET_TX to HOSTQ (R390, R418, R423).
`code` is the status of item word 3. -/
def State.frameOver (s : State) (p q : Nat) (f : NetFrame) (code : Nat) (egress : Int) : State :=
  let s := s.frameItem f.src f.item 2 p q code f.bytes.length egress 0 []
  match f.desc with
  | none => s
  | some g =>
    let st := if code = 0 then 0 else if code = 1 then 1 else if code = 2 then 0x1E else 0x20
    s.reply (.kernel (f.src / 16) (f.src % 16)) g st (if 3 ≤ code then code - 2 else 0) s.shortTs 0 (ntBits egress)

/-- An idle port starts the next frame of the classes below the launch frames (R403), unless it would reach a launch instant. -/
def State.txKick (s : State) (p : Nat) : State :=
  let x := s.port p
  if x.busy.isSome || !s.portUp p then s
  else
    match (if s.ptpOn p && s.maySend p 1 then x.ptpOut else []), x.mkaOut, (if s.maySend p 3 then x.best else []) with
    | k :: _, _, _ =>
      if s.launchNear p (s.frameTime p (s.ptpLen k)) then s
      else (s.setPort p { x with ptpOut := x.ptpOut.drop 1 }).startFrame p 1 k (s.ptpLen k) [BitVec.ofNat 8 k]
    | [], m :: ms, _ =>
      if s.launchNear p (s.frameTime p m.length) then s
      else (s.setPort p { x with mkaOut := ms }).startFrame p 2 0 m.length m
    | [], [], f :: fs =>
      if s.launchNear p (s.frameTime p f.bytes.length) then s
      else ((s.setPort p { x with best := fs }).startFrame p 3 0 f.bytes.length f.bytes).frameOver p (16 + p) f 0 s.ntime
    | [], [], [] => s

/-- Put a message of the time engine in line. -/
def State.ptpSend (s : State) (p kind : Nat) : State :=
  let x := s.port p
  (s.setPort p { x with ptpOut := x.ptpOut ++ [kind], sentAt := kset 0 x.sentAt kind (s.now + 1) }).txKick p

/-- Sync is two-step on a port (R406, R421). -/
def State.twoStep (s : State) (p : Nat) : Bool :=
  s.b R.NET_PTP_CFG_TWO_STEP || s.b R.NET_PORT_CFG_MSEC p && !s.b R.NET_PORT_CFG_PTP_BYPASS p

/-- FRAME_TRANSMIT_END (R403): a frame has left; a two-step message is followed up, and the next frame by precedence starts. -/
def execFrameTransmitEnd (t : Instant) (p : Nat) (s : State) : Res :=
  let s := s.start t
  .next (match (s.port p).busy with
    | some (cls, kind, till) => s.doIf (decide (p < 2) && decide (till ≤ s.now)) fun s =>
        let s := s.setPort p { s.port p with busy := none }
        let s := if cls = 1 ∧ kind = 0 ∧ s.twoStep p then s.ptpSend p 4
          else if cls = 1 ∧ kind = 6 ∧ s.twoStep p then s.ptpSend p 7 else s
        s.txKick p
    | none => s)

/-! ## Servo states (R409) and the wake slot (R422) -/

abbrev tmFree : Nat := 0
abbrev tmAcquiring : Nat := 1
abbrev tmLocked : Nat := 2
abbrev tmHoldover : Nat := 3

def State.timeState (s : State) : Nat := s.f R.NET_STAT_STATE

/-- h of NODE_ID, and OFS in ns. -/
def wakeHash (node : Nat) : Nat := node * 0x9E3779B1 % 2 ^ 32 / 65536
def wakeOfs (node window : Nat) : Nat := wakeHash node * window * 1000000000 / 65536

/-- W is fixed and reported. Mark: DEDUCED (log 101). -/
def State.fixWake (s : State) (w : Int) (synced : Bool) : State :=
  ({ s.setB R.NET_WAKE_STAT_SYNCED synced with net := { s.net with wakeW := some w } }).post E.WAKE_SLOT 0 (satWord w)

/-- The first NTIME at or after now of the form m × WINDOW × 10⁹ + OFS. -/
def nextSlot (now : Int) (window ofs : Nat) : Int :=
  let p : Int := window * 1000000000
  ofs + p * ((now - ofs + p - 1) / p)

/-- The servo locks within SYNC_TO of PORST_N release: W is taken from locked NTIME. -/
def State.lockWake (s : State) : State :=
  match s.net.wakeW, s.net.wakeCfg with
  | none, some (node, window, limit) =>
    s.doIf (decide (s.now ≤ s.net.porstAt + limit * secQ)) (·.fixWake (nextSlot s.ntime window (wakeOfs node window)) true)
  | _, _ => s

/-- Show and apply a correction in ppb (R410, R461). -/
def State.setFreq (s : State) (f : Rat) : State :=
  let s := { s with net := { s.net with f := f } }
  (s.setF R.NET_FREQ_FREQ (satWord (f * 256).floor).toNat).steer (f / 1000000000)

/-- The servo state changes: LOCKED may fix the wake instant, and HOLDOVER applies f_h (R409, R422). -/
def State.enterTime (s : State) (st : Nat) : State :=
  if s.timeState = st then s
  else
    let s := (s.setF R.NET_STAT_STATE st).post E.TIME_STATE (subject st)
    let s := { s with net := { s.net with lockRun := 0, run := 0 } }
    if st = tmLocked then s.lockWake
    else if st = tmHoldover then s.setFreq s.net.fh
    else s

/-- The SLAVE port is lost (R409). -/
def State.slaveLost (s : State) : State :=
  if s.ps 0 = psSlave ∨ s.ps 1 = psSlave then s
  else if s.timeState = tmLocked then s.enterTime tmHoldover
  else if s.timeState = tmAcquiring then s.enterTime tmFree
  else s

/-- 2 to a signed power, of a second. -/
def logInterval (v : Nat) : Nat :=
  let e := signed 4 v
  if 0 ≤ e then secQ * 2 ^ e.toNat else secQ / 2 ^ (-e).toNat

/-- The announce interval. -/
def State.annInterval (s : State) : Nat := logInterval (s.f R.NET_PTP_CFG_LOG_ANN)

/-- The best data set that a port has received: of senders with two Announce messages within four intervals, or the parent (E_rbest). -/
def State.erBest (s : State) (p : Nat) : Option Announce :=
  let fresh (at_ : Instant) : Bool := decide (s.now ≤ at_ + 4 * s.annInterval)
  let fit := (s.port p).foreign.filter fun x =>
    (match x.2.2 with
     | some at0 => fresh at0
     | none => false) || fresh x.2.1 && s.net.parent == some (x.1.src, x.1.srcPort)
  (bestOf s.clockId (fit.map fun x => (p, x.1))).map (·.2)

/-- The best data set of both ports, with its port (E_best). -/
def State.eBest (s : State) : Option (Nat × Announce) := bestOf s.clockId ([0, 1].filterMap fun p => (s.erBest p).map fun a => (p, a))

/-- The device's own clock is better than a data set. -/
def State.ownBetter (s : State) (x : Option (Nat × Announce)) : Bool :=
  x.all fun y => decide (compareSets s.clockId s.ownClock 0 y.2 y.1 ≤ cmpBetterTopology)

/-- The state that the algorithm recommends for a port (clause 9.3.3); `forced`: its announceReceiptTimeout has passed. -/
def State.recommended (s : State) (p : Nat) (forced : Bool) : Nat :=
  let mine := (s.erBest p).map fun a => (p, a)
  if mine.isNone && s.ps p == psListening && !forced then psListening
  else if s.f R.NET_PTP_DS_CLASS ≤ 127 then (if s.ownBetter mine then psMaster else psPassive)
  else if s.ownBetter s.eBest then psMaster
  else
    match s.eBest with
    | some (q, e) =>
      if q = p then psSlave
      else if mine.any fun x => compareSets s.clockId e q x.2 p == cmpBetterTopology then psPassive
      else if s.ps p = psMaster then psMaster else psPreMaster
    | none => psMaster

/-- A port's state as it may be: DISABLED or FAULTY where the time engine does not use the port, no master state with SLAVE_ONLY. Mark:
PRESUMED (log 113). -/
def State.psFit (s : State) (p v : Nat) : Nat :=
  if !s.ptpOn p then (if s.ps p = psFaulty then psFaulty else 0)
  else if s.b R.NET_PTP_CFG_SLAVE_ONLY && (v == psPreMaster || v == psMaster || v == psPassive) then psListening else v

/-- A port takes a recommended state: PRE_MASTER lasts stepsRemoved + 1 announce intervals. -/
def State.takePs (s : State) (p v steps : Nat) : State :=
  let v := s.psFit p v
  let s := s.doIf (v == psPreMaster && s.ps p != psPreMaster) fun s =>
    s.setPort p { s.port p with preTill := s.now + (steps + 1) * s.annInterval }
  s.setPs p v

/-- The best master clock algorithm runs: port states, GM, parent, stepsRemoved; a new grandmaster takes a LOCKED servo to ACQUIRING
(R406, R409). `forced`: the port whose announceReceiptTimeout has passed. Mark: PRESUMED (log 112). -/
def State.bmca (s : State) (forced : Option Nat) : State :=
  if !s.b R.NET_CTL_PTP_EN then s
  else
    let best := s.eBest
    let steps := (best.map fun x => x.2.steps + 1).getD 0
    let v0 := s.recommended 0 (forced == some 0)
    let v1 := s.recommended 1 (forced == some 1)
    let s := (s.takePs 0 v0 steps).takePs 1 v1 steps
    let slave := s.ps 0 == psSlave || s.ps 1 == psSlave
    let gm := !slave && (s.ps 0 == psMaster || s.ps 1 == psMaster)
    let s := (s.setB R.NET_STAT_GM gm).setF R.NET_STAT_STEPS_REMOVED (if slave then satN 8 steps else 0)
    let parent := match slave, best with
      | true, some x => some (x.2.src, x.2.srcPort)
      | _, _ => if gm then some (s.clockId, 0) else s.net.parent
    let gmId := match slave, best with
      | true, some x => some x.2.gm
      | _, _ => if gm then some s.clockId else s.net.gmId
    let newGm := s.net.gmId.isSome && gmId != s.net.gmId
    let newParent := parent != s.net.parent
    let s := { s with net := { s.net with parent := parent, gmId := gmId } }
    let s := s.doIf newParent (·.post E.PARENT_CHANGED)
    let s := s.doIf (newGm && s.timeState == tmLocked && slave) (·.enterTime tmAcquiring)
    s.slaveLost

/-- An Announce message is kept with its sender. -/
def State.keepAnnounce (s : State) (p : Nat) (a : Announce) : State :=
  let x := s.port p
  let same (y : Announce × Instant × Option Instant) : Bool := y.1.src == a.src && y.1.srcPort == a.srcPort
  let before := (x.foreign.find? same).map fun y => y.2.1
  s.setPort p { x with annAt := s.now, foreign := (a, s.now, before) :: x.foreign.filter fun y => !same y }

/-- PTP_ANNOUNCE (R406): an Announce of another clock feeds the best master clock algorithm. -/
def execPtpAnnounce (t : Instant) (p : Nat) (a : Announce) (s : State) : Res :=
  let s := s.start t
  .next (s.doIf (s.ptpOn p && a.src != s.clockId && decide (a.steps < 255)) fun s => (s.keepAnnounce p a).bmca none)

/-- ANNOUNCE_TIMEOUT (R406): announceReceiptTimeout passes. -/
def execAnnounceTimeout (t : Instant) (p : Nat) (s : State) : Res :=
  let s := s.start t
  .next (s.doIf (s.ptpOn p && (s.ps p == psSlave || s.ps p == 5 || s.ps p == psPassive || s.ps p == psListening)
      && decide ((s.port p).annAt + s.f R.NET_PTP_CFG_ANN_TO * s.annInterval ≤ s.now)) fun s =>
    (s.setPort p { s.port p with annAt := s.now, foreign := [] }).bmca (some p))

/-- SYNC_LOSS (R409): three sync intervals without a Sync. -/
def execSyncLoss (t : Instant) (p : Nat) (s : State) : Res :=
  let s := s.start t
  .next (s.doIf (s.ptpOn p && s.ps p == psSlave && s.timeState == tmLocked
      && decide ((s.port p).syncAt + 3 * logInterval (s.f R.NET_PTP_CFG_LOG_SYNC) ≤ s.now)) (·.enterTime tmHoldover))

/-! ## Offset and servo (R404, R405, R410) -/

/-- The device's own latencies in ns by mode (Table 13.1): egress, ingress. -/
def State.devLat (s : State) (p : Nat) : Rat × Rat := if s.f R.NET_PORT_CFG_MODE p = 2 then (176 / 10, 224 / 10) else (344 / 10, 416 / 10)

/-- A raw timestamp in ns at the resolution of 0.125 ns (R404). Mark: DESIGN CHOICE (log 166). -/
def stampOf (raw : Rat) : Rat := ((raw * 8).floor : Rat) / 8

/-- A raw ingress or egress timestamp, corrected (R404). -/
def State.ingress (s : State) (p : Nat) (raw : Rat) : Rat := stampOf raw - (s.devLat p).2 - (s.f R.NET_PORT_LAT_RX_LAT p : Rat) / 8
def State.egress (s : State) (p : Nat) (raw : Rat) : Rat := stampOf raw + (s.devLat p).1 + (s.f R.NET_PORT_LAT_TX_LAT p : Rat) / 8

/-- ASYM in ns. -/
def State.asym (s : State) (p : Nat) : Rat := ((signed 16 (s.f R.NET_PORT_ASYM_ASYM p) : Int) : Rat) / 8

/-- The nearest whole number. -/
def roundHalf (q : Rat) : Int := (q + 1 / 2).floor

/-- The servo acts on an offset θ in ns; f_h is the mean correction over the last 64 Syncs in LOCKED, 0 before the first (R409, R410). Mark: DEDUCED
(log 166). -/
def State.servo (s : State) (th : Rat) : State :=
  let kp : Rat := (s.f R.NET_SERVO_KP : Rat) / 256
  let ki : Rat := (s.f R.NET_SERVO_KI : Rat) / 4096
  let slew : Rat := s.f R.NET_SERVO_LIM_SLEW
  let n := s.net
  let raw := n.fh - (kp * th + n.integ)
  let f := if raw < n.fh - slew then n.fh - slew else if raw > n.fh + slew then n.fh + slew else raw
  let s := { s with net := { n with integ := if f = raw then n.integ + ki * th else n.integ } }
  let s := s.doIf (s.timeState == tmLocked) fun s =>
    let fs := (f :: s.net.freqs).take 64
    { s with net := { s.net with freqs := fs, fh := fs.foldl (· + ·) 0 / (fs.length : Rat) } }
  s.setFreq f

/-- Four θ of 1 µs or more and one sign decide a step, while none waits; from LOCKED the servo enters ACQUIRING (R410, R411). -/
def State.stepCheck (s : State) (th : Rat) : State :=
  if s.net.step.isSome then s
  else
    let up := decide (1000 ≤ th)
    let down := decide (th ≤ -1000)
    let run : Int := if up then (if 0 < s.net.run then s.net.run + 1 else 1)
      else if down then (if s.net.run < 0 then s.net.run - 1 else -1) else 0
    if run = 4 ∨ run = -4 then
      let s := { s with net := { s.net with run := 0, integ := 0, step := some (-(roundHalf th), s.now) } }
      s.doIf (s.timeState == tmLocked) (·.enterTime tmAcquiring)
    else { s with net := { s.net with run := run } }

/-- 16 θ within LOCK_THR lock the servo (R409). -/
def State.lockCheck (s : State) (th : Rat) : State :=
  if s.timeState != tmAcquiring then s
  else
    let thr : Rat := s.f R.NET_SERVO_LIM_LOCK_THR
    let n := if th ≤ thr ∧ -thr ≤ th then s.net.lockRun + 1 else 0
    if 16 ≤ n then s.enterTime tmLocked else { s with net := { s.net with lockRun := n } }

/-- PTP_SYNC (R409, R410): a Sync on the SLAVE port with its origin timestamp (corrections included) and raw ingress timestamp, in ns. -/
def execPtpSync (t : Instant) (p : Nat) (origin raw : Rat) (s : State) : Res :=
  let s := s.start t
  .next (s.doIf (s.ptpOn p && s.ps p == psSlave) fun s =>
    let th := s.ingress p raw - origin - (s.port p).delay - s.asym p
    let s := s.setPort p { s.port p with syncAt := s.now }
    let s := s.setF R.NET_OFFSET_OFFSET (satWord (roundHalf th)).toNat
    let s := s.doIf (s.timeState == tmFree || s.timeState == tmHoldover) (·.enterTime tmAcquiring)
    ((s.servo th).stepCheck th).lockCheck th)

/-- PTP_DELAY (R405): a delay measurement completes: end-to-end with t1 (origin of a Sync), t2 (its raw ingress), t3 (raw egress of Delay_Req),
t4 (its receipt at the master); peer-to-peer with t1 (raw egress of Pdelay_Req), t2 and t3 (of the peer), t4 (raw ingress). The asymmetry
enters both directions with opposite signs. -/
def execPtpDelay (t : Instant) (p : Nat) (t1 t2 t3 t4 : Rat) (s : State) : Res :=
  let s := s.start t
  .next (s.doIf (s.ptpOn p && (s.b R.NET_PTP_CFG_P2P || s.ps p == psSlave || s.ps p == 5)) fun s =>
    let a := s.asym p
    let d := if s.b R.NET_PTP_CFG_P2P then ((t2 - s.egress p t1 + a) + (s.ingress p t4 - t3 - a)) / 2
      else ((s.ingress p t2 - t1 - a) + (t4 - s.egress p t3 + a)) / 2
    (s.setPort p { s.port p with delay := d }).setF R.NET_PORT_DELAY_DELAY (satN 32 (roundHalf (d * 8)).toNat) p)

/-- PTP_MESSAGE_INTERVAL (R406): an interval of the port expires: 0 Sync and 1 Announce as master, 2 Delay_Req as slave end-to-end,
3 Pdelay_Req peer-to-peer. A port whose PRE_MASTER has lasted is MASTER. -/
def execPtpMessageInterval (t : Instant) (p kind : Nat) (s : State) : Res :=
  let s := s.start t
  let s := s.doIf (s.ptpOn p && s.ps p == psPreMaster && decide ((s.port p).preTill ≤ s.now)) (·.setPs p psMaster)
  let p2p := s.b R.NET_PTP_CFG_P2P
  let ok := match kind with
    | 0 | 1 => s.ps p == psMaster
    | 2 => !p2p && (s.ps p == psSlave || s.ps p == 5)
    | 3 => p2p
    | _ => false
  let span := match kind with
    | 0 => logInterval (s.f R.NET_PTP_CFG_LOG_SYNC)
    | 1 => logInterval (s.f R.NET_PTP_CFG_LOG_ANN)
    | 3 => logInterval (s.f R.NET_PTP_CFG_LOG_PDELAY)
    | _ => 0
  let last := kget 0 (s.port p).sentAt kind
  .next (s.doIf (s.ptpOn p && ok && (last == 0 || decide (last + span ≤ s.now + 1))) (·.ptpSend p kind))

/-! ## Steps of NTIME (R411 to R413) -/

/-- A carrier event of a started slot or bridge within the next 2 µs. -/
def State.carrierNear (s : State) : Bool :=
  (List.range 28).any fun T => match s.nextCarrier T with
    | some (e, _) => decide (e ≤ s.pwmTime + 1000)
    | none => false

/-- An event of an NTIME generator within the next 2 µs. -/
def State.ntevNear (s : State) : Bool :=
  (List.range 8).any fun k =>
    let per := s.f R.MEAS_NTEV_PER_PERIOD k
    let ph := signed 64 (s.f R.MEAS_NTEV_PH_LO_PHASE_LO k + s.f R.MEAS_NTEV_PH_HI_PHASE_HI k * 2 ^ 32)
    per != 0 && decide ((s.ntime + 2000 - ph) / (per : Int) ≠ (s.ntime - ph) / (per : Int))

/-- A launch instant within the next 2 µs. -/
def State.launchSoon (s : State) : Bool :=
  (List.range 16).any fun q => (s.lqOf q).any fun f => !f.late && ntLe s.ntime f.launch && ntLe f.launch (s.ntime + 2000)

/-- Every CMPW has passed its T_eff, and no evaluation runs or waits. -/
def State.quiet (s : State) : Bool :=
  s.loop.ctx.all (fun x => x.2.phase == 0) && s.pwm.chans.all (fun x => x.2.wait.isNone)
    && s.pwm.carriers.all (fun x => x.2.newTop.all (fun n => decide (n.2 ≤ s.pwmTime)) && x.2.served.isEmpty)

/-- The step is applied: TOFS, the parity, the count and the event. -/
def State.applyStep (s : State) (d : Int) : State :=
  let n := s.net
  let s := { s with net := { n with tofs := (n.tofs + d).bmod (2 ^ 64), parity := !n.parity, lastStep := d, stepTick := some s.pwmTime, step := none, run := 0 } }
  (s.incF R.NET_STEP_STAT_STEPS).post E.STEP_APPLIED 0 (satWord d)

/-- STEP_APPLIED (R411): a step tick: 10 µs after the decision, with nothing in the way. -/
def execStepApplied (t : Instant) (s : State) : Res :=
  let s := s.start t
  .next (match s.net.step with
    | some (d, at_) => s.doIf (s.sealed && decide (at_ + 10 * usQ ≤ s.now) && s.quiet && !s.carrierNear && !s.ntevNear && !s.launchSoon) (·.applyStep d)
    | none => s)

/-- The compare values of a target that wait for a T_eff to come are applied as late deliveries at a forced step (R412). -/
def State.forceTarget (s : State) (T : Nat) : State :=
  let now := s.pwmTime
  let waits := (List.range 6).filter fun i => ((s.chan (6 * T + i)).wait).any fun w => decide (now ≤ w.teff)
  let c := s.carrier T
  let s := s.setCarrier T { c with newTop := c.newTop.map fun n => (n.1, min n.2 now), served := c.served.map fun n => (min now n.1, n.2 || decide (now ≤ n.1)) }
  if waits.isEmpty ∧ !c.served.any fun n => decide (now ≤ n.1) then s
  else
    let s := waits.foldl (fun s i =>
      let x := s.chan (6 * T + i)
      s.setChan (6 * T + i) { x with wait := x.wait.map fun w => { w with teff := now } }) s
    let s := match s.activeOwner T with
      | some c => s.raise R.LOOP_CTX_STAT_LATE_DLV c E.LATE_DELIVERY (subject c)
      | none => s
    s.valuesEffective T now

/-- STEP_FORCED (R412): 100 ms after the decision. -/
def execStepForced (t : Instant) (s : State) : Res :=
  let s := s.start t
  .next (match s.net.step with
    | some (d, at_) => s.doIf (s.sealed && decide (at_ + 100 * msQ ≤ s.now)) fun s =>
        let s := (List.range 28).foldl (fun s T => s.forceTarget T) s
        let s := (s.applyStep d).settle
        s.raise R.NET_STEP_STAT_FORCED 0 E.STEP_FORCED 0
    | none => s)

/-- SET (R413): a write that sets NET_TIME_CMD.SET. -/
def execSet (t : Instant) (fn : Nat) (data : Word) (s : State) : Res :=
  match (s.start t).actionWrite fn R.NET_TIME_CMD_SET data with
  | (s, go) => .next (s.doIf go fun s =>
      if s.timeState = tmFree ∧ !s.b R.NET_STAT_GM then
        let v := signed 64 (s.f R.NET_TIME_SET_LO_TIME + s.f R.NET_TIME_SET_HI_TIME * 2 ^ 32)
        { s with net := { s.net with step := some (v - s.ntime, s.now) } }
      else s.post E.TIME_SET_REFUSED)

/-! ## Links -/

/-- LINK_UP (R401, R425): a port's link comes up at a speed of its mode (codes of SPEED). -/
def execLinkUp (t : Instant) (p speed : Nat) (s : State) : Res :=
  let s := s.start t
  .next (s.doIf (s.sealed && decide (p < 2) && s.b R.NET_CTL_EN && s.b R.NET_PORT_CFG_EN p && !s.b R.NET_PORT_STAT_LINK p) fun s =>
    let mode := s.f R.NET_PORT_CFG_MODE p
    let v := if mode = 0 then min speed 2 else if mode = 1 then 2 else 3
    let s := ((s.setB R.NET_PORT_STAT_LINK true p).setF R.NET_PORT_STAT_SPEED v p).setB (if p = 0 then R.NET_STAT_LINK0 else R.NET_STAT_LINK1) true
    let s := s.setPort p { s.port p with annAt := s.now }
    ((s.setPs p (if s.ptpOn p then psListening else 0)).post E.LINK_UP (subject p)).txKick p)

/-- Every frame of a launch queue fails with a DETAIL of Table 13.4. -/
def State.failQueue (s : State) (q detail : Nat) : State :=
  (s.lqOf q).foldl (fun s f => s.frameOver (q / 8) q f (detail + 2) s.ntime) (s.setLq q [])

/-- A port's link goes down: queued launch frames fail, waiting frames are gone, the time engine loses the port. Mark: PRESUMED (log 113). -/
def State.dropLink (s : State) (p : Nat) : State :=
  let was := s.ps p
  let s := (s.setB R.NET_PORT_STAT_LINK false p).setB (if p = 0 then R.NET_STAT_LINK0 else R.NET_STAT_LINK1) false
  let s := s.setPs p (if was = 0 then 0 else psFaulty)
  let s := s.setPort p { s.port p with ptpOut := [], mkaOut := [], best := [], busy := none, foreign := [], peer := none }
  let s := (portQueues p).foldl (fun s q => s.failQueue q 3) (s.post E.LINK_DOWN (subject p))
  s.slaveLost

/-- LINK_DOWN (R418, R425). -/
def execLinkDown (t : Instant) (p : Nat) (s : State) : Res :=
  let s := s.start t
  .next (s.doIf (s.sealed && decide (p < 2) && s.b R.NET_PORT_STAT_LINK p) fun s => (s.dropLink p).bmca none)

/-! ## Launch queues (R417 to R420) -/

/-- LAUNCH + LATE_TOL of a frame. -/
def State.lateLimit (s : State) (q : Nat) (f : NetFrame) : Int := f.launch + s.f R.NET_LQ_CFG_LATE_TOL q * 8

/-- The head of a queue is due. -/
def State.lqDue (s : State) (q : Nat) : Bool :=
  match s.lqOf q with
  | f :: _ => f.late || ntLe f.launch s.ntime
  | [] => false

/-- A frame is sent late. -/
def State.sentLate (s : State) (q : Nat) : State := (s.incF R.NET_LQ_STAT_LATE_CNT 1 q).raise R.NET_LQ_STAT_LATE_SEEN q E.LAUNCH_LATE (subject q)

/-- A frame is dropped late. -/
def State.droppedLate (s : State) (q : Nat) (f : NetFrame) : State :=
  ((s.incF R.NET_LQ_STAT_LATE_CNT 1 q).raise R.NET_LQ_STAT_DROP_SEEN q E.LAUNCH_DROPPED (subject q)).frameOver (q / 8) q f 2 s.ntime

/-- LAUNCH (R419): the frame at a queue head is due and is sent. -/
def execLaunch (t : Instant) (q : Nat) (s : State) : Res :=
  let s := s.start t
  let p := q / 8
  .next (match s.lqOf q with
    | f :: fs =>
      s.doIf (decide (q < 16) && s.b R.NET_LQ_CFG_EN q && s.portUp p && s.portFast p && s.maySend p 0 && (s.port p).busy.isNone && s.lqDue q
          && (f.late || ntLe s.ntime (s.lateLimit q f)) && !((portQueues p).any fun r => decide (r < q) && s.lqDue r)) fun s =>
        let s := (s.setLq q fs).startFrame p 0 0 f.bytes.length f.bytes
        let s := match f.desc with
          | some g => s.modDesc g fun d => { d with phase := 3 }
          | none => s
        (s.doIf f.late (·.sentLate q)).frameOver p q f (b2n f.late) s.ntime
    | [] => s)

/-- LAUNCH_DEADLINE (R420): frames of a queue that cannot start by LAUNCH + LATE_TOL are dropped, or sent at once as late. -/
def execLaunchDeadline (t : Instant) (q : Nat) (s : State) : Res :=
  let s := s.start t
  .next (s.doIf (s.sealed && decide (q < 16)) fun s =>
    let past (f : NetFrame) : Bool := !f.late && ntLt (s.lateLimit q f) s.ntime
    let fs := s.lqOf q
    let keep := (fs.filter fun f => !(past f && f.lateDrop)).map fun f => if past f then { f with late := true } else f
    let s := (fs.filter fun f => past f && f.lateDrop).foldl (fun s f => s.droppedLate q f) (s.setLq q keep)
    s.txKick (q / 8))

/-- DETAIL with which a launch queue refuses a frame (R418). -/
def State.lqRefusal (s : State) (q : Nat) : Option Nat :=
  let p := q / 8
  if !(s.b R.NET_CTL_EN && s.b R.NET_LQ_CFG_EN q) then some 1
  else if 32 ≤ (s.lqOf q).length then some 2
  else if !s.portUp p then some 3
  else if !s.maySend p 0 then some 4
  else if !s.portFast p then some 5
  else none

/-- A frame reaches its launch queue (R391, R418, R420). -/
def State.enqueue (s : State) (q : Nat) (f : NetFrame) : State :=
  match s.lqRefusal q with
  | some d => s.frameOver (q / 8) q f (d + 2) s.ntime
  | none =>
    if ntLt f.launch s.ntime then (if f.lateDrop then s.droppedLate q f else s.setLq q (s.lqOf q ++ [{ f with late := true }]))
    else s.setLq q (s.lqOf q ++ [f])

/-- A received frame or an item is dropped and counted. -/
def State.rxDrop (s : State) (p : Nat) : State := (s.incF R.NET_PORT_CNT_RX_DROP 1 p).raise R.NET_PORT_STAT_RX_DROP_SEEN p E.RX_DROP (subject p)

/-- FRAME_ITEM past the router: item words by R423; `desc` is the NET_TX that the item carries, if it carries one. -/
def State.takeItem (s : State) (k tag : Nat) (desc : Option Nat) (ws : List Word) : State :=
  let w0 := ws.getD 0 0
  let len := getBits w0 10 0
  let q := getBits w0 20 16
  let p := if q < 16 then q / 8 else q - 16
  if ws.length ≠ 4 + (len + 3) / 4 ∨ getBits w0 26 25 ≠ 1 ∨ 18 ≤ q then s.rxDrop (getBits w0 24 24)
  else
    let launch := (((ws.getD 2 0) ++ (ws.getD 1 0) : BitVec 64)).toInt
    let f : NetFrame := { launch := launch, desc := desc, item := tag, src := k, bytes := (wordsBytes (ws.drop 4)).take len
                          lateDrop := (desc.bind s.desc).any fun d => d.flags.testBit 3 }
    if q < 16 then s.enqueue q f
    else if !s.portUp p then s.frameOver p q f 5 s.ntime
    else (s.setPort p { s.port p with best := (s.port p).best ++ [f] }).txKick p

/-- FRAME_ITEM (R423): a kernel hands NET a frame item of words `ws` under a tag. -/
def execFrameItem (t : Instant) (router k tag : Nat) (desc : Option Nat) (ws : List Word) (s : State) : Res :=
  let s := s.start t
  let f : Flit := { dst := .port 15 0, src := .kernel router k
                    payload := .svcx { sub := 4, tag := tag, domain := 0, first := 0, last := true, words := ws.take 5 } }
  let stale := desc.any fun g => !((s.desc g).any fun d => d.op == 9 && d.phase == 2)
  .next (s.doIf (s.sealed && decide (router < 24) && decide (k < 15) && !stale)
    (·.route (16 * router + k) f (·.takeItem (16 * router + k) tag desc ws)))

/-! ## Received frames (R402) -/

/-- The lowest-numbered receive filter that matches. -/
def State.rxFilter (s : State) (p etype : Nat) (vid : Option Nat) : Option Nat :=
  (List.range 16).find? fun k => s.b R.NET_RXF_EN k && s.bitF R.NET_RXF_PORTS p k && s.f R.NET_RXF_ETYPE k == etype
    && (!s.b R.NET_RXF_VLAN_EN k || vid == some (s.f R.NET_RXF_VID k))

/-- A protected frame passes R421: its integrity check holds, and its packet number is not below the replay window; an untagged frame passes with
validateFrames Check. Mark: PRESUMED (log 137). -/
def State.secPass (s : State) (p : Nat) : Option SecTag → Bool
  | some g => g.icv && decide (g.sc < 4) && decide (g.an < 4) && g.pn != 0 && decide (g.pn < 2 ^ (if s.b R.NET_PORT_CFG_XPN p then 64 else 32))
      && decide (kget 0 (s.port p).rxPn (4 * g.sc + g.an) ≤ g.pn + s.f R.NET_PORT_CFG_REPLAY_WIN p)
  | none => s.f R.NET_PORT_CFG_VALIDATE p == 1

/-- The next packet number of the receive SA follows an accepted frame. -/
def State.notePn (s : State) (p : Nat) (g : SecTag) : State :=
  let x := s.port p
  let i := 4 * g.sc + g.an
  s.setPort p { x with rxPn := kset 0 x.rxPn i (max (kget 0 x.rxPn i) (g.pn + 1)) }

/-- A PTP request is answered as master or by the peer delay mechanism; a GET is answered (R406). -/
def State.ptpRequest (s : State) (p kind : Nat) : State :=
  s.doIf (s.ptpOn p && (kind == 5 && s.ps p == psMaster && !s.b R.NET_PTP_CFG_P2P || kind == 6 && s.b R.NET_PTP_CFG_P2P || kind == 8)) (·.ptpSend p kind)

/-- A frame goes to the NETSVC kernel of its filter as an item (R402, R423). -/
def State.toFilter (s : State) (p k : Nat) (tag : Option SecTag) (time : Int) (bytes : List Byte) : State :=
  let n := s.net.tag
  ({ s with net := { s.net with tag := (n + 1) % 65536 } }).frameItem (16 * s.f R.NET_RXF_DST_ROUTER k + s.f R.NET_RXF_DST_LK k) n 0 p (16 + p) 0
    bytes.length time (256 * b2n tag.isSome + 512 * (tag.elim 0 SecTag.sc)) bytes

/-- FRAME_RECEIVE (R402): a frame with its FCS check, its SecTAG, its ingress NTIME and its bytes without FCS and SecTAG. Sync, Announce and delay
messages have rows of their own, as MKA frames have. Mark: DESIGN CHOICE (log 137). -/
def execFrameReceive (t : Instant) (p : Nat) (fcsOk : Bool) (sec : Option SecTag) (time : Int) (bytes : List Byte) (s : State) : Res :=
  let s := s.start t
  .next (s.doIf (s.portUp p) fun s =>
    let etype := frameType bytes
    let ptp := ptpStart (s.b R.NET_PTP_CFG_UDP) bytes
    let secured := s.b R.NET_PORT_CFG_MSEC p && !(etype == 0x888E || ptp.isSome && s.b R.NET_PORT_CFG_PTP_BYPASS p)
    if !fcsOk ∨ bytes.length < 60 ∨ 1518 < bytes.length ∨ isTag etype then s.rxDrop p
    else if secured && !s.secPass p sec then (s.incF R.NET_PORT_CNT_MSEC_BAD 1 p).raise R.NET_PORT_STAT_MSEC_BAD_SEEN p E.MSEC_BAD (subject p)
    else
      let tag := if secured then sec else none
      let s := match tag with
        | some g => s.notePn p g
        | none => s
      if etype = 0x888E ∨ etype = 0x8808 then s
      else
        match ptp with
        | some i =>
          match ptpAnswer (s.f R.NET_PTP_CFG_DOMAIN) bytes i with
          | some k => s.ptpRequest p k
          | none => s
        | none =>
          match s.rxFilter p etype (frameVid bytes) with
          | none => s.rxDrop p
          | some k => s.toFilter p k tag time bytes)

/-! ## MACsec agreement (R336, R421) -/

/-- The key agreement runs on a port. -/
def State.mkaOn (s : State) (p : Nat) : Bool := s.portUp p && s.b R.NET_PORT_CFG_MSEC p

/-- MKA frames wait for the port. -/
def State.mkaSend (s : State) (p : Nat) (fs : List (List Byte)) : State := s.setPort p { s.port p with mkaOut := (s.port p).mkaOut ++ fs }

/-- MKA_FRAME (R402, R421): an MKA frame whose check holds under a CAK slot of the port makes its sender the live peer. A new peer brings a new SAK
if the device is key server; else the SAK comes with the frame. -/
def execMkaFrame (t : Instant) (p : Nat) (m : MkaFrame) (s : State) : Res :=
  let s := s.start t
  .next (s.doIf (s.mkaOn p) fun s =>
    match m.slot with
    | some k =>
      s.doIf ((s.cakSlot k).valid && (s.cakSlot k).port == p) fun s =>
        let changed := !(s.port p).peer.any fun x => x.2.1 == m.sci && x.2.2 == k
        let s := (s.setPort p { s.port p with peer := some (m.prio, m.sci, k) }).mkaSend p m.send
        (s.doIf (if s.keyServer p then changed else m.sak) (·.installSak p k)).txKick p
    | none => s)

/-- MKA_PEER_TIMEOUT (R421): the live membership changes: the key server installs a new SAK, else the port loses its transmit SA. Mark: DEDUCED
(log 137). -/
def execMkaPeerTimeout (t : Instant) (p : Nat) (send : List (List Byte)) (s : State) : Res :=
  let s := s.start t
  .next (s.doIf (s.mkaOn p) fun s =>
    match (s.port p).peer with
    | some x =>
      let server := s.keyServer p
      let s := (s.setPort p { s.port p with peer := none }).mkaSend p send
      (if server && (s.cakSlot x.2.2).valid then s.installSak p x.2.2 else s.loseSa p).txKick p
    | none => s)

/-! ## The wake instant (R422) -/

/-- WAKE_SYNC_TIMEOUT (R422): SYNC_TO passes without lock. NTIME at PORST_N release is 0. -/
def execWakeSyncTimeout (t : Instant) (s : State) : Res :=
  let s := s.start t
  .next (match s.net.wakeW, s.net.wakeCfg with
    | none, some (node, window, limit) => s.doIf (s.alive && decide (s.net.porstAt + limit * secQ ≤ s.now))
        (·.fixWake ((limit * 1000000000 + wakeOfs node window : Nat) : Int) false)
    | _, _ => s)

/-- WAKE_INSTANT (R422, R497): NTIME reaches W. -/
def execWakeInstant (t : Instant) (s : State) : Res :=
  let s := s.start t
  .next (match s.net.wakeW with
    | some w => s.doIf (s.sealed && !s.b R.NET_WAKE_STAT_DONE && ntLe w s.ntime) fun s => (s.setB R.NET_WAKE_STAT_DONE true).wakeOpen
    | none => s)

/-! ## Register writes that the time engine and the queues follow (R409, R417) -/

/-- NET follows its registers: a cleared PTP_EN ends the time engine's work, a disabled port loses its link, a disabled queue its frames. -/
def State.netFollow (s : State) : State :=
  let s := [0, 1].foldl (fun s p => s.doIf (s.b R.NET_PORT_STAT_LINK p && !(s.b R.NET_CTL_EN && s.b R.NET_PORT_CFG_EN p)) (·.dropLink p)) s
  let s := (List.range 16).foldl (fun s q => s.doIf (!s.b R.NET_LQ_CFG_EN q && !(s.lqOf q).isEmpty) (·.failQueue q 1)) s
  if s.b R.NET_CTL_PTP_EN then
    [0, 1].foldl (fun s p => s.doIf (s.ptpOn p && s.ps p == 0) fun s => (s.setPs p psListening).setPort p { s.port p with annAt := s.now }) s
  else
    let s := ((s.setPs 0 0).setPs 1 0).setB R.NET_STAT_GM false
    let s := [0, 1].foldl (fun s p => s.setPort p { s.port p with foreign := [] }) s
    ({ s with net := { s.net with parent := none, gmId := none } }).enterTime tmFree

end Sys2Proof.Machine
end

