-- ==== Sys2Proof/Machine/Can.lean ====
section
/-! DEFINITION. CAN: message objects, transmission, reception, error confinement and reference messages (R426 to R447). What happens on a bus
(frames, errors, acknowledgement, bus idle) comes with the commands. -/
namespace Sys2Proof.Machine

/-! ## Controllers and objects -/

/-- A controller beside its registers. -/
def State.canCtl (s : State) (n : Nat) : CanCtl := kget {} s.can.ctl n

/-- Replace a controller. -/
def State.setCanCtl (s : State) (n : Nat) (c : CanCtl) : State :=
  { s with can := { s.can with ctl := kset {} s.can.ctl n c } }

/-- STATE codes of CAN_STAT. -/
abbrev csActive : Nat := 0
abbrev csPassive : Nat := 1
abbrev csBusOff : Nat := 2
abbrev csRecovering : Nat := 3

/-- STATE of a controller (R438). -/
def State.canState (s : State) (n : Nat) : Nat := s.f R.CAN_STAT_STATE n

/-- A controller is enabled. -/
def State.canEn (s : State) (n : Nat) : Bool := s.sealed && decide (n < 4) && s.b R.CAN_CTL_EN && s.b R.CAN_CFG_EN n

/-- A controller takes part in bus traffic. -/
def State.canOn (s : State) (n : Nat) : Bool :=
  s.canEn n && (s.canCtl n).onBus && !s.b R.CAN_STAT_PX n && decide (s.canState n < 2)

/-- An object is enabled: EN, and not disabled by collisions (R440). -/
def State.objOn (s : State) (o : Nat) : Bool := s.b R.CAN_OBJ_CFG_EN o && !s.b R.CAN_OBJ_STAT_ID_COLL o

/-- The objects of a controller. -/
def objsOf (n : Nat) : List Nat := (List.range 64).map (64 * n + ·)

/-- The logical kernel that serves an object, at 16·pod + k. -/
def State.canServer (s : State) (o : Nat) : Nat := 16 * s.f R.CAN_OBJ_CFG_ROUTER o + s.f R.CAN_OBJ_CFG_LK o

/-- A CAN FRAME item to a kernel (Table 14.3). -/
def State.canItem (s : State) (k tag o kind status : Nat) (loss : Bool) (fdf brs esi xtd : Bool) (time : Int) (id : Nat) (bytes : List Byte) : State :=
  let t := ntBits time
  let w0 := bytes.length + 256 * o + 2 ^ 16 * b2n fdf + 2 ^ 17 * b2n brs + 2 ^ 18 * b2n esi + 2 ^ 19 * b2n xtd + 2 ^ 20 * status
    + 2 ^ 24 * b2n loss + 2 ^ 25 * kind
  s.sendItem (.port 15 1) (toKernel (k / 16) (k % 16)) 4 tag 0
    ([nw w0, t.setWidth 32, (t >>> 32).setWidth 32, nw id] ++ bytesToWords bytes)

/-- A frame has ended: its kernel gets a completion item, and HOSTQ hears of a CAN_TX (R436). `detail`: 0 acknowledged, else Table 14.4. Mark: DEDUCED (log 135). -/
def State.canOver (s : State) (o : Nat) (f : CanFrame) (detail : Nat) (sof : Int) : State :=
  let s := s.canItem f.src f.item o 2 (if detail = 0 ∧ f.late then 9 else detail) false f.fdf f.brs false f.xtd sof f.id f.bytes
  match f.desc with
  | none => s
  | some g => s.reply (.kernel (f.src / 16) (f.src % 16)) g (if detail = 0 then 0 else 0x1F) detail s.shortTs 0 (if detail = 0 then ntBits sof else 0)

/-- Every queued frame of an object ends with a DETAIL, but for the first `keep`. -/
def State.failObj (s : State) (o detail : Nat) (keep : Nat := 0) : State :=
  let x := s.canObj o
  (x.queue.drop keep).foldl (fun s f => s.canOver o f detail 0) (s.setCanObj o { x with queue := x.queue.take keep })

/-- The head of an object's queue ends. -/
def State.headOver (s : State) (o detail : Nat) (sof : Int := 0) : State :=
  match (s.canObj o).queue with
  | f :: fs => (s.setCanObj o { s.canObj o with queue := fs }).canOver o f detail sof
  | [] => s

/-! ## Reception (R431 to R433) -/

/-- An object matches a frame. -/
def State.canMatch (s : State) (o : Nat) (f : CanRx) : Bool :=
  let mask := s.f R.CAN_OBJ_MASK_MASK o
  s.objOn o && !s.b R.CAN_OBJ_CFG_DIR o && s.b R.CAN_OBJ_ID_XTD o == f.xtd && f.id &&& mask == s.f R.CAN_OBJ_ID_ID o &&& mask
    && (if f.fdf then s.b R.CAN_OBJ_CFG_FDF_OK o else s.b R.CAN_OBJ_CFG_CLS_OK o)

/-- A frame goes into the main buffer, into the shadow buffer, or over the shadow buffer. Mark: DEDUCED (log 117). -/
def State.canStore (s : State) (o : Nat) (f : CanRx) : State :=
  let x := s.canObj o
  match x.main, x.shadow with
  | none, _ => s.setCanObj o { x with main := some { f with loss := x.loss }, loss := false }
  | some _, none => s.setCanObj o { x with shadow := some f }
  | some _, some _ =>
    ((s.setCanObj o { x with shadow := some f, loss := true }).incF R.CAN_OBJ_STAT_CNT 1 o).raise R.CAN_OBJ_STAT_LOST_SEEN o E.RX_LOST
      (subject (o / 64) o)

/-- A frame that matches no object is counted. -/
def State.canUnmatched (s : State) (n : Nat) : State :=
  let zero := s.f R.CAN_CNT_RX_UNMATCHED n == 0
  ((s.incF R.CAN_CNT_RX_UNMATCHED 1 n).setB R.CAN_STAT_UNM_SEEN true n).doIf zero (·.postLimited (0x0C08 * 4 + n) E.RX_UNMATCHED (subject n))

/-- CAN_ITEM_DELIVERED (R432): the last flit of a main buffer's item leaves; the shadow buffer's frame moves up. Mark: DEDUCED (log 117). -/
def execCanItemDelivered (t : Instant) (o : Nat) (s : State) : Res :=
  let s := s.start t
  let x := s.canObj o
  .next (match x.main with
    | some f => s.doIf (s.sealed && decide (o < 256)) fun s =>
        let tag := s.can.tag
        let s := { s with can := { s.can with tag := (tag + 1) % 65536 } }
        let s := s.canItem (s.canServer o) tag o 0 0 f.loss f.fdf f.brs f.esi f.xtd f.sof f.id f.bytes
        match x.shadow with
        | some g => s.setCanObj o { x with main := some { g with loss := x.loss }, shadow := none, loss := false }
        | none => s.setCanObj o { x with main := none }
    | none => s)

/-! ## Error confinement (R437 to R439) -/

/-- STATE follows the error counters; the transmit count is given before it saturates (R438, ISO 11898-1). Mark: PRESUMED (log 115). -/
def State.canConfine (s : State) (n tec rec : Nat) : State :=
  let s := (s.setF R.CAN_ERR_TEC (satN 8 tec) n).setF R.CAN_ERR_REC (satN 8 rec) n
  let st := s.canState n
  if 255 < tec then
    let s := (((s.setF R.CAN_STAT_STATE csBusOff n).setB R.CAN_STAT_BUSOFF_SEEN true n).setBitF R.CAN_CTL_BUSOFF n true).post E.BUS_OFF (subject n)
    (objsOf n).foldl (fun s o => s.failObj o 3) s
  else if 127 < tec ∨ 127 < rec then
    s.doIf (st == csActive) fun s => ((s.setF R.CAN_STAT_STATE csPassive n).setB R.CAN_STAT_PASSIVE_SEEN true n).post E.ERROR_PASSIVE (subject n)
  else s.doIf (st == csPassive) fun s => (s.setF R.CAN_STAT_STATE csActive n).post E.ERROR_ACTIVE (subject n)

/-- RECOVER (R439): a write of RECOVER. -/
def execRecover (t : Instant) (n fn : Nat) (data : Word) (s : State) : Res :=
  match (s.start t).actionWrite fn R.CAN_CMD_RECOVER data n with
  | (s, go) => .next (s.doIf (go && decide (n < 4)) fun s =>
      if s.canState n = csBusOff then (s.setF R.CAN_STAT_STATE csRecovering n).setBitF R.CAN_CTL_BUSOFF n false
      else s.post E.RECOVER_REFUSED (subject n))

/-- RECOVERED (R439): 128 occurrences of 11 consecutive recessive bits have passed. -/
def execRecovered (t : Instant) (n : Nat) (s : State) : Res :=
  let s := s.start t
  .next (s.doIf (s.canEn n && s.canState n == csRecovering) fun s =>
    (((s.setF R.CAN_ERR_TEC 0 n).setF R.CAN_ERR_REC 0 n).setF R.CAN_STAT_STATE csActive n).post E.RECOVERED (subject n))

/-- PROTOCOL_EXCEPTION_END (R427): 11 recessive bits; the controller takes part in bus traffic. Mark: DEDUCED (log 121). -/
def execProtocolExceptionEnd (t : Instant) (n : Nat) (s : State) : Res :=
  let s := s.start t
  .next (s.doIf (s.canEn n && (s.b R.CAN_STAT_PX n || !(s.canCtl n).onBus)) fun s =>
    (s.setB R.CAN_STAT_PX false n).setCanCtl n { s.canCtl n with onBus := true })

/-! ## Transmission (R434 to R436, R440 to R442) -/

/-- DETAIL with which a frame that arrives for an object fails at once (Table 14.4). Mark: DEDUCED (log 119). -/
def State.canRefusal (s : State) (o : Nat) : Option Nat :=
  let n := o / 64
  if !s.canEn n then some 8
  else if s.b R.CAN_CFG_LOM n then some 7
  else if 2 ≤ s.canState n then some 3
  else if !s.objOn o then some 1
  else if 4 ≤ (s.canObj o).queue.length then some 2
  else none

/-- A frame arrives at its object. -/
def State.canQueue (s : State) (o : Nat) (f : CanFrame) : State :=
  match s.canRefusal o with
  | some d => s.canOver o f d 0
  | none => s.setCanObj o { s.canObj o with queue := (s.canObj o).queue ++ [f] }

/-- Whether a transmit item is to be discarded (R433): it comes from another kernel, names a receive object, has a reserved field, or asks
for a format that the object or its controller cannot send. Mark: DESIGN CHOICE (log 118). -/
def State.canItemBad (s : State) (k o : Nat) (ws : List Word) : Bool :=
  let w0 := ws.getD 0 0
  let len := getBits w0 6 0
  let fdf := w0.getLsbD 16
  let brs := w0.getLsbD 17
  s.canServer o != k || !s.b R.CAN_OBJ_CFG_DIR o || w0.getLsbD 7 || getBits w0 31 27 != 0 || getBits w0 26 25 != 1 || getBits w0 23 20 != 0
    || getBits (ws.getD 3 0) 31 29 != 0 || !canLength len || ws.length != 4 + (len + 3) / 4 || !fdf && decide (8 < len)
    || fdf && !(s.b R.CAN_CFG_FD_EN (o / 64) && s.b R.CAN_OBJ_CFG_FDF_OK o) || brs && !(fdf && s.b R.CAN_CFG_BRS_EN (o / 64))

/-- CAN_TX_ITEM (R433, R434): a kernel hands CAN a transmit item; `desc` is the CAN_TX that it carries, if it carries one. Mark: DESIGN CHOICE (log 118), DEDUCED (log 135). -/
def State.takeCanItem (s : State) (k tag : Nat) (desc : Option Nat) (ws : List Word) : State :=
  let w0 := ws.getD 0 0
  let o := getBits w0 15 8
  if s.canItemBad k o ws then s.post E.CAN_ITEM_BAD (subject (o / 64) o)
  else
    let apply := ((ws.getD 2 0) ++ (ws.getD 1 0) : BitVec 64).toInt
    s.canQueue o { apply := apply, late := decide (apply ≠ 0) && ntLt apply s.ntime, desc := desc, item := tag, src := k
                   id := getBits (ws.getD 3 0) 28 0, xtd := w0.getLsbD 19, fdf := w0.getLsbD 16, brs := w0.getLsbD 17
                   bytes := (wordsBytes (ws.drop 4)).take (getBits w0 6 0) }

/-- CAN_TX_ITEM (R433): through the kernel's pod router. -/
def execCanTxItem (t : Instant) (router k tag : Nat) (desc : Option Nat) (ws : List Word) (s : State) : Res :=
  let s := s.start t
  let f : Flit := { dst := .port 15 1, src := .kernel router k
                    payload := .svcx { sub := 4, tag := tag, domain := 0, first := 0, last := true, words := ws.take 5 } }
  let stale := desc.any fun g => !((s.desc g).any fun d => d.op == 8 && d.phase == 2)
  .next (s.doIf (s.sealed && decide (router < 24) && decide (k < 15) && !stale)
    (·.route (16 * router + k) f (·.takeCanItem (16 * router + k) tag desc ws)))

/-- The arbitration value: identifier and IDE as the bus compares them (R435). -/
def arbValue (id : Nat) (xtd : Bool) : Nat :=
  if xtd then (id >>> 18) * 2 ^ 20 + 2 ^ 19 + 2 ^ 18 + id % 2 ^ 18 else id % 2 ^ 11 * 2 ^ 20

/-- The reference slot may send: time is LOCKED, the device is grandmaster, or the message carries STATE (R443). -/
def State.refMay (s : State) (n : Nat) : Bool := s.b R.CAN_REF_CFG_REF_FMT n || s.f R.NET_STAT_STATE == 2 || s.b R.NET_STAT_GM

/-- What a controller can offer: arbitration value and object, the reference slot first among equals. -/
def State.offers (s : State) (n : Nat) : List (Nat × Nat) :=
  let ref := if (s.canCtl n).ref.isSome && s.b R.CAN_REF_CFG_REF_RUN n && s.refMay n then [(arbValue (s.f R.CAN_REF_ID_REF_ID n) (s.b R.CAN_REF_ID_REF_XTD n), 256)] else []
  ref ++ (objsOf n).filterMap fun o =>
    match (s.canObj o).queue with
    | f :: _ => if s.b R.CAN_OBJ_CFG_DIR o && ntLe f.apply s.ntime then some (arbValue f.id f.xtd, o) else none
    | [] => none

/-- The lowest offer; the first of equals. -/
def lowestOffer : List (Nat × Nat) → Option (Nat × Nat)
  | [] => none
  | x :: xs =>
    match lowestOffer xs with
    | none => some x
    | some y => if y.1 < x.1 then some y else some x

/-- The bytes of a reference message (R443). -/
def State.refBytes (s : State) (n seq : Nat) (sof : Int) : List Byte :=
  leBytes 8 (unsignedOf 64 sof) ++
    (if s.b R.CAN_REF_CFG_REF_FMT n then leBytes 3 (s.f R.NET_NODE_NODE_ID + 2 ^ 18 * seq) ++ leBytes 1 (s.f R.NET_STAT_STATE + 4 * b2n (s.b R.NET_STAT_GM))
     else [])

/-- The error state indicator that the controller sends: recessive while it is error-passive (R427). -/
def State.canEsi (s : State) (n : Nat) : Bool := s.canState n == csPassive

/-- An attempt of an object's head, or of the reference slot, starts. -/
def State.attempt (s : State) (n o : Nat) (sof : Int) : State :=
  let s := s.setCanCtl n { s.canCtl n with att := some o, sof := sof }
  if o = 256 then
    let fd := s.b R.CAN_REF_CFG_REF_FMT n
    s.emit (.canFrame n (s.f R.CAN_REF_ID_REF_ID n) (s.b R.CAN_REF_ID_REF_XTD n) fd (fd && s.b R.CAN_REF_CFG_REF_BRS n) (fd && s.canEsi n)
      (s.refBytes n ((s.canCtl n).ref.getD 0) sof))
  else
    match (s.canObj o).queue with
    | f :: _ =>
      let s := match f.desc with
        | some g => s.modDesc g fun d => { d with phase := 3 }
        | none => s
      s.emit (.canFrame n f.id f.xtd f.fdf f.brs (f.fdf && s.canEsi n) f.bytes)
    | [] => s

/-- ARBITRATION_START (R435): the controller offers its lowest frame. `dly`: the synchroniser delay of the SOF edge, 0 to 3 ticks (R436). -/
def execArbitrationStart (t : Instant) (n dly : Nat) (s : State) : Res :=
  let s := s.start t
  .next (s.doIf (s.canOn n && !s.b R.CAN_CFG_LOM n && (s.canCtl n).att.isNone) fun s =>
    match lowestOffer (s.offers n) with
    | some (_, o) => s.attempt n o (s.ntime + 2 * (min dly 3 : Nat))
    | none => s)

/-- A message has been missed (R443). Mark: DEDUCED (log 122). -/
def State.refMissed (s : State) (n : Nat) : State :=
  (s.incF R.CAN_CNT_REF_MISSED 1 n).raise R.CAN_STAT_REF_MISS_SEEN n E.REF_MISSED (subject n)

/-- The attempt under way has ended; a newer reference message takes the slot, and one not sent by then is missed. Mark: PRESUMED (log 124). -/
def State.attemptEnd (s : State) (n : Nat) : State :=
  let c := s.canCtl n
  let s := s.setCanCtl n { c with att := none, ref := c.refNext.getD c.ref, refNext := none }
  s.doIf (c.att == some 256 && c.ref.isSome && c.refNext.isSome) (·.refMissed n)

/-- An attempt of an object's head has not been acknowledged: what ends it, if anything does (R441, R442, R445). Mark: DEDUCED (log 120). -/
def State.triedOver (s : State) (o : Nat) (ack : Bool) : State :=
  if s.b R.CAN_OBJ_CFG_ONE_SHOT o || s.b R.CAN_OBJ_STAT_NO_PEER o then s.headOver o (if ack then 4 else 6)
  else if !s.objOn o then s.headOver o (if ack then 4 else 1)
  else s

/-- An attempt loses arbitration. Mark: DEDUCED (log 120). -/
def State.attemptLost (s : State) (n : Nat) : State :=
  match (s.canCtl n).att with
  | none => s
  | some o => (s.doIf (o != 256) (·.triedOver o false)).attemptEnd n

/-- NO_PEER of the objects of a controller clears. -/
def State.peerSeen (s : State) (n : Nat) : State :=
  (objsOf n).foldl (fun s o => s.doIf (s.b R.CAN_OBJ_STAT_NO_PEER o) (·.setB R.CAN_OBJ_STAT_NO_PEER false o)) s

/-- CAN_FRAME_RECEIVE (R431): a frame of another node without error: identifier, format, whether it is a remote frame, payload; the
synchroniser delay; the receive count that replaces one above 127 (ISO 11898-1: 119 to 127). An attempt under way has lost arbitration to it. Mark: PRESUMED (log 116), DEDUCED (log 120), DESIGN CHOICE (log 123). -/
def execCanFrameReceive (t : Instant) (n id : Nat) (xtd fdf brs esi rtr : Bool) (bytes : List Byte) (sof : Int) (recTo : Nat) (s : State) : Res :=
  let s := s.start t
  let f : CanRx := { sof := sof, id := id % (if xtd then 2 ^ 29 else 2 ^ 11), xtd := xtd, fdf := fdf, brs := brs && fdf, esi := esi && fdf
                     bytes := bytes.take (if fdf then 64 else 8) }
  .next (s.doIf (s.canOn n && (!fdf || s.b R.CAN_CFG_FD_EN n)) fun s =>
    let s := (s.attemptLost n).peerSeen n
    let rec_ := s.f R.CAN_ERR_REC n
    let s := s.doIf (!s.b R.CAN_CFG_LOM n)
      (·.canConfine n (s.f R.CAN_ERR_TEC n) (if 127 < rec_ then max 119 (min recTo 127) else rec_ - 1))
    if rtr && !fdf then s.canUnmatched n
    else
      match (objsOf n).find? fun o => s.canMatch o f with
      | some o => s.canStore o f
      | none => s.canUnmatched n)

/-- The measured loop delay of an FD frame with BRS (R429). -/
def State.canTdc (s : State) (n o : Nat) (tdcv : Nat) : State :=
  let brs := if o = 256 then s.b R.CAN_REF_CFG_REF_FMT n && s.b R.CAN_REF_CFG_REF_BRS n
    else match (s.canObj o).queue with
      | f :: _ => f.fdf && f.brs
      | [] => false
  s.doIf (brs && s.b R.CAN_TDC_TDC_EN n) (·.setF R.CAN_TDC_TDCV tdcv n)

/-- CAN_TX_DONE (R436): the attempt under way is acknowledged. `tdcv`: the delay measured in an FD frame with BRS. Mark: PRESUMED (log 124). -/
def execCanTxDone (t : Instant) (n tdcv : Nat) (s : State) : Res :=
  let s := s.start t
  .next (match (s.canCtl n).att with
    | some o => s.doIf (s.canOn n) fun s =>
        let s := (s.canTdc n o tdcv).canConfine n (s.f R.CAN_ERR_TEC n - 1) (s.f R.CAN_ERR_REC n)
        let c := s.canCtl n
        if o = 256 then (s.setCanCtl n { c with ref := none, refColl := 0 }).attemptEnd n
        else
          let s := ((s.setF R.CAN_OBJ_STAT_COLL_CNT 0 o).setF R.CAN_OBJ_STAT_NOACK_CNT 0 o).setB R.CAN_OBJ_STAT_NO_PEER false o
          (s.headOver o 0 c.sof).attemptEnd n
    | none => s)

/-! ## Errors -/

/-- A collision of an object's head is counted; the limit disables the object (R440). -/
def State.objCollision (s : State) (o : Nat) : State :=
  let s := s.incF R.CAN_OBJ_STAT_COLL_CNT 1 o
  let lim := s.f R.CAN_OBJ_CFG_ID_COLL_LIMIT o
  s.doIf (lim != 0 && decide (lim ≤ s.f R.CAN_OBJ_STAT_COLL_CNT o)) fun s =>
    ((s.setB R.CAN_OBJ_STAT_ID_COLL true o).failObj o 5).post E.ID_COLLISION (subject (o / 64) o)

/-- An ACK error of an object's head is counted; the limit sets NO_PEER (R442). -/
def State.objNoAck (s : State) (o : Nat) : State :=
  let s := (s.incF R.CAN_OBJ_STAT_NOACK_CNT 1 o).incF R.CAN_OBJ_STAT_CNT 1 o
  let lim := s.f R.CAN_OBJ_CFG_N_NOACK o
  s.doIf (lim != 0 && decide (lim ≤ s.f R.CAN_OBJ_STAT_NOACK_CNT o) && !s.b R.CAN_OBJ_STAT_NO_PEER o) fun s =>
    ((s.setB R.CAN_OBJ_STAT_NO_PEER true o).failObj o 4).post E.NO_PEER (subject (o / 64) o)

/-- A collision of the reference slot; the third stops it (R444). -/
def State.refCollision (s : State) (n : Nat) : State :=
  let c := s.canCtl n
  if c.refColl + 1 < 3 then s.setCanCtl n { c with refColl := c.refColl + 1 }
  else ((s.setCanCtl n { c with refColl := 0, ref := none, refNext := none }).setB R.CAN_REF_CFG_REF_RUN false n).post E.REF_CONFLICT (subject n)

/-- The attempt under way has met an error. -/
def State.attemptError (s : State) (n o : Nat) (ack coll : Bool) : State :=
  if o = 256 then (s.doIf coll (·.refCollision n)).attemptEnd n
  else
    let s := if coll then s.objCollision o else if ack then s.objNoAck o else s
    (s.doIf (!(s.canObj o).queue.isEmpty) (·.triedOver o ack)).attemptEnd n

/-- CAN_BUS_ERROR (R438): an error on the bus. `kind`: 1 stuff, 2 form, 3 ACK, 4 bit 1, 5 bit 0, 6 CRC as LEC, 7 a recessive res bit (R427); `dataPhase`;
`tx`: as transmitter of the attempt under way; `field`: 0 arbitration, 1 control, 2 data, 3 CRC, 4 later; `plus`: further increments by 8 (ISO 11898-1:
errors during and dominant bits after the flags); `exempt`: the standard's exceptions leave TEC unchanged, or the receiver's bit error counts
nothing; `tdcv`: the delay measured in an FD frame with BRS. Mark: PRESUMED (log 115), DEDUCED (log 121). -/
def execCanBusError (t : Instant) (n kind : Nat) (dataPhase tx : Bool) (field plus : Nat) (exempt : Bool) (tdcv : Nat) (s : State) : Res :=
  let s := s.start t
  let lom := s.b R.CAN_CFG_LOM n
  let own := if tx then (s.canCtl n).att else none
  .next (s.doIf (s.canOn n && decide (1 ≤ kind) && decide (kind ≤ 7) && (!tx || own.isSome)) fun s =>
    if kind = 7 ∧ s.b R.CAN_CFG_PXE n then
      ((s.attemptLost n).setB R.CAN_STAT_PX true n).raise R.CAN_STAT_PX_SEEN n E.PROTOCOL_EXCEPTION (subject n)
    else
      let kind := if kind = 7 then 2 else kind
      let s := if dataPhase then s.setF R.CAN_ERR_DLEC kind n else s.setF R.CAN_ERR_LEC kind n
      let tec := s.f R.CAN_ERR_TEC n
      let rec_ := s.f R.CAN_ERR_REC n
      let s := match own with
        | some o => (s.canTdc n o tdcv).attemptError n o (kind == 3) ((kind == 4 || kind == 5) && decide (1 ≤ field) && decide (field ≤ 3))
        | none => s.attemptLost n
      s.doIf (!lom) fun s =>
        if tx then s.canConfine n (tec + (if exempt then 0 else 8) + 8 * plus) rec_
        else s.canConfine n tec (rec_ + (if exempt then 0 else 1) + 8 * plus))

/-! ## Objects and the reference slot at run time (R443 to R445) -/

/-- CAN_OBJECT_ENABLE (R445): a write of EN of an object. -/
def execCanObjectEnable (t : Instant) (o fn : Nat) (data : Word) (s : State) : Res :=
  match (s.start t).writeAt fn .can (R.CAN_OBJ_CFG_EN.off o 0) data with
  | (s, none) => .next s
  | (s, some (_, fs)) => .next (s.doIf (decide (o < 256) && fs.any fun fd => fd.hi == 31) fun s =>
      if data.getLsbD 31 then
        ((((s.setB R.CAN_OBJ_CFG_EN true o).setB R.CAN_OBJ_STAT_ID_COLL false o).setB R.CAN_OBJ_STAT_NO_PEER false o).setF R.CAN_OBJ_STAT_COLL_CNT 0 o).setF
          R.CAN_OBJ_STAT_NOACK_CNT 0 o
      else (s.setB R.CAN_OBJ_CFG_EN false o).failObj o 1 (b2n ((s.canCtl (o / 64)).att == some o)))

/-- The reference slot starts, or stops: a message that waits is withdrawn, one in an attempt ends with the attempt. -/
def State.refSet (s : State) (n : Nat) (on : Bool) : State :=
  let c := s.canCtl n
  let s := s.setB R.CAN_REF_CFG_REF_EN on n
  if on then s.doIf (!s.b R.CAN_REF_CFG_REF_RUN n) fun s =>
    (s.setCanCtl n { c with refColl := 0, ref := if c.att = some 256 then c.ref else none }).setB R.CAN_REF_CFG_REF_RUN true n
  else (s.setCanCtl n { c with ref := if c.att = some 256 then c.ref else none, refNext := none }).setB R.CAN_REF_CFG_REF_RUN false n

/-- REF_EN (R444): a write of REF_EN. -/
def execRefEn (t : Instant) (n fn : Nat) (data : Word) (s : State) : Res :=
  match (s.start t).writeAt fn .can (R.CAN_REF_CFG_REF_EN.off n 0) data with
  | (s, none) => .next s
  | (s, some (_, fs)) => .next (s.doIf (decide (n < 4) && fs.any fun fd => fd.hi == 31) (·.refSet n (data.getLsbD 31)))

/-- A reference instant (R443): a message still waiting is withdrawn and missed, and a new one takes the slot, or is missed itself. Mark: DEDUCED (log 122). -/
def State.refInstant (s : State) (n : Nat) : State :=
  let c := s.canCtl n
  let may := s.refMay n && decide (s.canState n < 2)
  let next := if may then some c.refSeq else none
  let s := s.setCanCtl n (if c.att = some 256
    then { c with refNext := some next, refSeq := (c.refSeq + b2n may) % 64 }
    else { c with ref := next, refNext := none, refSeq := (c.refSeq + b2n may) % 64 })
  let s := s.doIf (c.att != some 256 && c.ref.isSome || c.refNext.any (·.isSome)) (·.refMissed n)
  s.doIf (!may) (·.refMissed n)

/-- REFERENCE_INSTANT (R443, R62): NTIME reaches an instant m × PERIOD + PHASE that has not been served. -/
def execReferenceInstant (t : Instant) (n : Nat) (s : State) : Res :=
  let s := s.start t
  let per := s.f R.CAN_REF_CFG_REF_PERIOD n * 1000
  let d := s.ntime - (s.f R.CAN_REF_PH_REF_PHASE n * 1000 : Nat)
  let m := d / (per : Int)
  .next (s.doIf (s.canEn n && s.b R.CAN_REF_CFG_REF_EN n && s.b R.CAN_REF_CFG_REF_RUN n && !s.b R.CAN_CFG_LOM n && decide (per ≠ 0)
      && decide (d - m * per < if s.net.stepTick = some s.pwmTime then 1 else 2) && !inRanges m (s.canCtl n).refDone) fun s =>
    (s.setCanCtl n { s.canCtl n with refDone := addRange m (s.canCtl n).refDone }).refInstant n)

/-- CAN at SEAL: reference slots that the image enables run (R443, R494). -/
def State.canStart (s : State) : State :=
  [0, 1, 2, 3].foldl (fun s n => s.doIf (s.canEn n && s.b R.CAN_REF_CFG_REF_EN n) (·.setB R.CAN_REF_CFG_REF_RUN true n)) s

end Sys2Proof.Machine
end

