-- ==== Sys2Proof/Machine/Boot.lean ====
section
/-! DEFINITION. Reset sources, what a reset leaves, the erase on return, and the boot chain up to the slot choice (R326, R330, R333, R335, R338,
R339, R356, R449, R471, R473, R478, R485 to R492). -/
namespace Sys2Proof.Machine

/-! ## Reset (R485 to R491) -/

/-- Take a field's value over from another state. -/
def State.keepF (s old : State) (r : FRef) : State := s.setF r (old.f r)

/-- The fields that show the one-time storage, and the cause of the last reset: a reset leaves them (R327, R491). -/
def fuseFields : List FRef :=
  [R.HUSK_ID_LIFECYCLE, W.HUSK_DEV_ID_LO, W.HUSK_DEV_ID_HI, R.HUSK_SVN_IMG_SVN, R.HUSK_SVN_HFW_SVN, R.HUSK_STAT_OEM_KEYS, R.HUSK_STAT_SAF_ROOT,
    R.HUSK_PROV_STAT_DONE, R.SYS_REV_GRADE, W.PWR_RST_CAUSE]

/-- Pins that are high go to their reset level (R488, Table 17.2). -/
def State.pinsLow (s : State) : State :=
  let s := (s.pwm.chans.filter fun x => x.2.pin).foldl (fun s x => s.emit (.pin x.1 false)) s
  ((List.range 6).filter fun k => s.bitF R.SAFE_OUT_STAT_LEVEL k).foldl (fun s k => s.emit (.safePin k false)) s

/-- The state that a reset leaves (R491): every register at its Reset column, the one-time storage, what the flash holds and the cause of
the last reset as they were. The TAP is no part of it (R324). -/
def State.cleared (s : State) : State :=
  let h := s.husk
  let fresh : State :=
    { pending := s.pending, now := s.now, out := s.out, free := s.free, tap := s.tap
      husk := { skvRootHash := h.skvRootHash, duk := h.duk, oemRootHash := h.oemRootHash, oemKek := h.oemKek, safRootHash := h.safRootHash, pw := h.pw, cak := h.cak, eraseOpen := h.eraseOpen
                recordBad := h.recordBad }
      pwr := { s.pwr with tokens := [], refillAt := none, waiting := none }
      safe := { changeLog := s.safe.changeLog, overlay := s.safe.overlay, lastCrc := s.safe.lastCrc }
      trip := { lifeSaved := s.trip.lifeSaved, lifeSavedTime := s.trip.lifeSavedTime }
      rel := { saved := s.rel.saved }
      cfg := { slots := s.cfg.slots } }
  fuseFields.foldl (fun t r => t.keepF s r) fresh

/-- Reset is asserted by a source: its bit of PWR_RST_CAUSE is recorded, alone when the device was not in reset before. Mark: DEDUCED (log 74). -/
def State.assertReset (s : State) (cause : FRef) : State :=
  let was := s.inReset
  let s := s.pinsLow.cleared
  let s := s.doIf (!was) (·.setWord .pwr (W.PWR_RST_CAUSE.key 0 0) 0)
  s.setB cause true

/-- PORST_N (R488): low since an instant: a pulse shorter than 1 µs is ignored, a level of 10 µs is accepted, and between them the pin may be accepted.
Mark: DEDUCED (log 74). -/
def execPorstN (t : Instant) (since : Instant) (s : State) : Res :=
  let s := s.start t
  .next (s.doIf (!s.pwr.porst && decide (since + usQ ≤ s.now)) fun s =>
    let s := s.assertReset R.PWR_RST_CAUSE_PIN
    { s with pwr := { s.pwr with porst := true } })

/-- The falling and the rising threshold of a rail in mV (Table 17.1). -/
def railFall (r : Nat) : Nat := [675, 720, 1600, 2900, 1600, 2350, 720, 1600].getD r 0
def railRise (r : Nat) : Nat := [700, 745, 1650, 3000, 1650, 2400, 745, 1650].getD r 0

/-- SUPPLY_LOW (R485, R491): rail `r` of Table 17.1 stands at `mv` mV, below its falling threshold since an instant 2 µs ago or more; VDD_IO33 below
1.2 V takes the value of the cause register with it. Mark: DESIGN CHOICE (log 159). -/
def execSupplyLow (t : Instant) (r mv : Nat) (since : Instant) (s : State) : Res :=
  let s := s.start t
  .next (s.doIf (decide (r < 8) && decide (mv < railFall r) && decide (since + 2 * usQ ≤ s.now)) fun s =>
    let s := s.assertReset R.PWR_RST_CAUSE_SUPPLY
    let s := { s with pwr := { s.pwr with supplyReset := true, rails := putBit s.pwr.rails r false } }
    let s := s.setBitF R.PWR_RST_CAUSE_RAILS r true
    s.doIf (decide (mv < 1200) && r == 3) fun s => (s.setWord .pwr (W.PWR_RST_CAUSE.key 0 0) 0).setB R.PWR_RST_CAUSE_POR true)

/-- Every rail is above its rising threshold, or has not been below its falling threshold and is not (Table 17.1). -/
def State.railsUp (s : State) (mvs : List Nat) : Bool :=
  (List.range 8).all fun r => decide ((if s.pwr.rails.testBit r then railFall r else railRise r) ≤ mvs.getD r 0)

/-- SUPPLY_OK (R485): 1 ms after the last rail has risen above its rising threshold: the voltages in mV, and since when all have been so. -/
def execSupplyOk (t : Instant) (mvs : List Nat) (since : Instant) (s : State) : Res :=
  let s := s.start t
  .next (s.doIf (s.pwr.supplyReset && s.railsUp mvs && decide (since + msQ ≤ s.now)) fun s => { s with pwr := { s.pwr with supplyReset := false, rails := 0xFF } })

/-- Every enabled target is held and every enabled axis is in STO (R338, R489). -/
def State.allHeld (s : State) : Bool :=
  (s.bridges.all fun B => !s.targetEn B || s.b R.TRIP_TGT_STAT_HELD B) && s.axes.all fun x => s.f R.SAFE_AX_STAT_STATE x == axSto

/-- A running update ends (R361): the target stays without MAGIC. Mark: DEDUCED (log 102). -/
def State.failUpdate (s : State) (result : Nat) : State :=
  match s.cfg.job with
  | some j =>
    let s := { s with cfg := { s.cfg with job := none } }
    if j.verify then s
    else (((s.setF R.CFG_UPD_STAT_PHASE 6).setF R.CFG_UPD_STAT_RESULT result).setB R.CFG_UPD_STAT_DONE true).post E.UPD_FAIL (subject j.slot) (nw result)
  | none => s

/-- SYS_RST (R489): from an OEM session with KEY in the same write; refused unless the device is held. Update and flash work end, the records
are saved, and reset runs for 100 µs. Mark: DESIGN CHOICE (log 75). -/
def execSysRst (t : Instant) (fn : Nat) (data : Word) (s : State) : Res :=
  match (s.start t).actionWrite fn R.PWR_RST_CMD_SYS_RST data with
  | (s, go) => .next (s.doIf (go && s.sessionOpen fn && s.domainOf fn == domOem && getBits data 15 0 == 0xB007) fun s =>
      if s.allHeld then
        let s := (s.failUpdate 0xE).doIf s.sealed (·.saveRecords)
        let s := s.assertReset R.PWR_RST_CAUSE_SOFT
        { s with pwr := { s.pwr with softEnd := s.now + 100 * usQ } }
      else s.post E.RST_CMD_REFUSED)

/-- PERST_N (R490): low since an instant 1 µs ago or more (R518); the endpoint resets, and both functions lose their link. -/
def execPerstN (t : Instant) (since : Instant) (s : State) : Res :=
  let s := s.start t
  .next (s.doIf (!s.inReset && decide (since + usQ ≤ s.now)) (·.loseLink))

/-- PERST_N_RELEASE (R490): the link trains. Mark: DEDUCED (log 83). -/
def execPerstNRelease (t : Instant) (s : State) : Res :=
  let s := s.start t
  .next (s.doIf (!s.inReset) fun s => { s with hostq := { s.hostq with linkUp := true } })

/-! ## Erase on return (R338, R339) -/

/-- An ERASE is accepted from this function with this word. -/
def State.eraseAllowed (s : State) (fn : Nat) (data : Word) : Bool :=
  let d := s.domainOf fn
  s.sessionOpen fn && (d == domOem || d == domVnd && s.b R.HUSK_DBG_STAT_CONSENT) && s.f R.HUSK_ID_LIFECYCLE == lcDeployed
    && getBits data 15 0 == 0x7144 && s.allHeld

/-- The core die is held and its memories are zero; the husk keeps its registers, the unblown fuses of the hashes and the key are blown, and
only the session of `fn` stays open. `c`: the cleared state. -/
def State.heldOver (s : State) (fn : Nat) (c : State) : State :=
  let h := s.husk
  { c with
    regs := { c.regs with husk := s.regs.husk }
    hostq := { linkUp := s.hostq.linkUp, bme := s.hostq.bme }
    net := { c.net with txSa := [] }
    husk := { c.husk with
      sess := h.sess.filter fun x => x.1 == fn
      oemRootHash := some (BitVec.allOnes 384), oemKek := some (BitVec.allOnes 256), safRootHash := some (BitVec.allOnes 384)
      cak := [], eraseHeld := true, eraseOpen := true, firmware := h.firmware, pf0Base := false, svcKeys := [] } }

/-- The session of a function is over (HUSK_SESS_STAT). -/
def State.noSession (s : State) (fn : Nat) : State :=
  ((s.setF R.HUSK_SESS_STAT_PHASE 0 0 fn).setF R.HUSK_SESS_STAT_DOMAIN 0 0 fn).setF R.HUSK_SESS_STAT_USER 0 0 fn

/-- Steps 1 to 4 of Table 10.11: the core die is held, LIFECYCLE is RETURNED, and CAK slots are empty. Flash is not yet blank. Mark: DESIGN CHOICE (log 72). -/
def State.eraseCore (s : State) (fn : Nat) : State :=
  let s := s.pinsLow
  let c := s.heldOver fn s.cleared
  let c := ((c.setF R.HUSK_ID_LIFECYCLE lcReturned).setB R.HUSK_STAT_OEM_KEYS true).setB R.HUSK_STAT_SAF_ROOT true
  let c := ((c.setF R.HUSK_PROV_STAT_DONE 7).setF R.HUSK_KEY_STAT_VALID 0).setF R.HUSK_KEY_STAT_PORTS 0
  let c := c.doIf (decide (fn < 2)) (·.noSession (1 - fn))
  (c.setF R.HUSK_ERASE_STAT_PHASE 4).setF R.HUSK_ERASE_STAT_PCT 0

/-- ERASE (R338). Mark: DESIGN CHOICE (log 72). -/
def execErase (t : Instant) (fn : Nat) (data : Word) (s : State) : Res :=
  match (s.start t).actionWrite fn R.HUSK_ERASE_CTL_ERASE data with
  | (s, go) => .next (s.doIf go fun s =>
      if s.eraseAllowed fn data then ((s.failUpdate 0xE).post E.ERASE_START (subject 0 0 fn (s.domainOf fn))).eraseCore fn
      else s.post E.ERASE_REFUSED (subject 0 0 fn (s.domainOf fn)))

/-- ERASE_DONE (Table 10.11, steps 5 and 6): slots, safety record area, life record area and CAK store are blank; the device stays held. Mark: DESIGN CHOICE (log 72). -/
def execEraseDone (t : Instant) (s : State) : Res :=
  let s := s.start t
  .next (s.doIf (!s.inReset && s.husk.eraseHeld && s.husk.eraseOpen) fun s =>
    let s := { s with
      cfg := { s.cfg with slots := [], order := [] }
      husk := { s.husk with pw := [], cak := [], eraseOpen := false, recordBad := false }
      safe := { s.safe with changeLog := [], overlay := none, lastCrc := none }
      trip := { s.trip with lifeSaved := none, lifeSavedTime := 0 }
      rel := { s.rel with saved := {} } }
    let s := (s.setF R.HUSK_ERASE_STAT_PHASE 5).setF R.HUSK_ERASE_STAT_PCT 100
    (s.setB R.HUSK_STAT_ERASED true).post E.ERASE_DONE)

/-! ## Boot (Table 10.10, Table 17.3) -/

/-- MAGIC of Table 11.2 as a little-endian number. -/
abbrev imgMagic : Nat := 0x49594C45

/-- The words of a header and its section table, HDR_CRC taken as zero (Table 11.2, R346). -/
def hdrWords (h : SlotHdr) : List Word :=
  [nw h.magic, nw (h.format + 2 ^ 16 * h.hdrLen), nw h.seq, nw (h.seq / 2 ^ 32), nw (h.svn + 2 ^ 16 * h.nsec), nw h.len, nw h.bind,
    nw (h.bind / 2 ^ 32)] ++ natToWords 8 h.nonce.toNat ++ [nw h.keyOfs, nw h.sigOfs, 0] ++ List.replicate 13 0
  ++ h.table.flatMap fun e =>
    [nw (e.id + 2 ^ 16 * e.flags), nw e.ofs, nw e.len] ++ natToWords 3 e.iv.toNat ++ natToWords 4 e.tag.toNat ++ [0, 0]

/-- hdr_ok of a slot (R356). -/
def slotValid (h : SlotHdr) : Bool :=
  h.magic == imgMagic && h.format == 1 && h.crc == crcWords ((hdrWords h).take (h.hdrLen / 4)) && h.seq != 0 && decide (h.len ≤ 0x1000000)

/-- The image of a slot as it stands in flash, and its header. -/
def State.slotImg (s : State) (k : Nat) : SlotImage := kget {} s.cfg.slots k
def State.slotHdr (s : State) (k : Nat) : SlotHdr := (s.slotImg k).hdr

/-- Show a slot in CFG_SLOT_STAT and CFG_SEQ. Mark: DEDUCED (log 79). -/
def State.showSlot (s : State) (k : Nat) : State :=
  let h := s.slotHdr k
  let v := slotValid h
  let seq := if v then h.seq else 0
  if k = 0 then
    (((s.setB R.CFG_SLOT_STAT_A_HDR_OK v).setF R.CFG_SLOT_STAT_A_SVN h.svn).setF R.CFG_SEQ_A_LO_SEQ seq).setF R.CFG_SEQ_A_HI_SEQ (seq / 2 ^ 32)
  else
    (((s.setB R.CFG_SLOT_STAT_B_HDR_OK v).setF R.CFG_SLOT_STAT_B_SVN h.svn).setF R.CFG_SEQ_B_LO_SEQ seq).setF R.CFG_SEQ_B_HI_SEQ (seq / 2 ^ 32)

/-- Replace a slot's image in flash. -/
def State.setSlot (s : State) (k : Nat) (im : SlotImage) : State :=
  ({ s with cfg := { s.cfg with slots := kset {} s.cfg.slots k im } }).showSlot k

/-- The RESULT of a slot. -/
def State.setSlotResult (s : State) (k r : Nat) : State :=
  if k = 0 then (s.setF R.CFG_SLOT_STAT_A_RESULT r).setB R.CFG_SLOT_STAT_A_VER_DONE true
  else (s.setF R.CFG_SLOT_STAT_B_RESULT r).setB R.CFG_SLOT_STAT_B_VER_DONE true

/-- The slots to try (R356): those with a valid header, highest SEQ first, A before B. -/
def State.slotOrder (s : State) : List Nat :=
  let a := s.slotHdr 0
  let b := s.slotHdr 1
  if slotValid a && slotValid b then (if a.seq < b.seq then [1, 0] else [0, 1])
  else if slotValid a then [0] else if slotValid b then [1] else []

/-- No slot is in force (R331, R356). -/
def State.noImage (s : State) : State :=
  ((s.setF R.HUSK_STAT_BOOT_ERR 3).setF R.CFG_STAT_PHASE 4).setF R.PWR_STAT_PHASE 6

/-- The slot choice begins; a slot without a valid header has the RESULT HDR. -/
def State.beginChoice (s : State) : State :=
  let s := [0, 1].foldl (fun s k => (s.showSlot k).doIf (!slotValid (s.slotHdr k)) (·.setSlotResult k 9)) s
  let o := s.slotOrder
  let s := { s with cfg := { s.cfg with order := o, first := o.head? } }
  s.doIf o.isEmpty (·.noImage)

/-- The stored records of the husk (R306, R335): lost ones are reported; the others show in the registers. Mark: DEDUCED (log 81). -/
def State.loadRecords (s : State) (b : BootIn) : State :=
  let s := s.doIf (!b.safOk || s.husk.recordBad) fun s =>
    ({ s with husk := { s.husk with recordBad := true, pw := [] }, safe := { s.safe with changeLog := [], overlay := none } }).post
      E.RECORD_AUTH_FAIL (subject 0)
  let s := s.doIf (!b.cakOk) fun s => ({ s with husk := { s.husk with cak := [] } }).post E.RECORD_AUTH_FAIL (subject 1)
  let s := (List.range 8).foldl (fun s k => (s.setPwSlot k (s.pwSlot k)).setCakSlot k (s.cakSlot k)) s
  s.setF R.SAFE_LOG_STAT_SEQ (s.safe.changeLog.getLast?.elim 0 (·.seq))

/-- The records of the life record area (R270, R478). -/
def State.loadLife (s : State) (b : BootIn) : State :=
  let s := s.doIf (!b.lifeOk) fun s => ({ s with trip := { s.trip with lifeSaved := none, lifeSavedTime := 0 } }).post E.LIFE_RESTORE_FAIL
  let s := if b.mapOk then s.setB R.REL_STAT_RECORD_OK true
    else ({ s with rel := { s.rel with saved := {} } }).post E.RECORD_FAIL
  let s := { s with rel := { s.rel with life := s.rel.saved.life } }
  let s := s.setF R.REL_LIFE_HOURS (satN 32 (s.rel.life / 3600).floor.toNat)
  let s := s.rel.saved.kernels.foldl (fun s p => s.setGone p 2) s
  s.rel.saved.wires.foldl (fun s x => s.mapWire x.1 x.2) s

/-- The husk firmware runs: its build, and HFW_SVN raised to its own (R333). Mark: DESIGN CHOICE (log 80). -/
def State.runFirmware (s : State) (svn build : Nat) : State :=
  let s := { s with husk := { s.husk with firmware := true } }
  (s.setF R.HUSK_ID_HFW_BUILD build).setF R.HUSK_SVN_HFW_SVN (max svn (s.f R.HUSK_SVN_HFW_SVN))

/-- The sprout tries the copies of the husk firmware in turn: one is good whose signature verifies against SKV_ROOT_HASH and whose SVN is not below
HFW_SVN (R330). -/
def State.tryFirmware (s : State) : Nat → List (BitVec 384 × Nat × Nat) → State
  | _, [] => s.setF R.HUSK_STAT_BOOT_ERR 2
  | n, (fw, svn, build) :: cs =>
    if Config.fwSigned s.husk.skvRootHash fw && decide (s.f R.HUSK_SVN_HFW_SVN ≤ svn) then s.runFirmware svn build
    else (s.post E.HFW_COPY_BAD (subject n)).tryFirmware (n + 1) cs

/-- The clocks at release (R448 to R450, Table 15.4). Mark: DESIGN CHOICE (log 80). -/
def State.startClocks (s : State) (b : BootIn) : State :=
  let s := (s.setF R.CLK_STAT_STRAP b.refsel).setF R.CLK_STAT_REF_ACTIVE b.refsel
  let s := (s.setB R.CLK_STAT_REFCLK_OK (b.refs.testBit 0)).setB R.CLK_STAT_XTAL_OK (b.refs.testBit 1)
  if s.refOk (s.f R.CLK_STAT_STRAP) then s.bootClocks else s.setB R.CLK_STAT_NOREF true

/-- What the running husk firmware does: an interrupted erase resumes (R339), or the records are read and the slot choice begins. Mark: DEDUCED (log 77). -/
def State.huskBoot (s : State) (b : BootIn) : State :=
  let s := s.setF R.PWR_STAT_PHASE 2
  if s.husk.eraseOpen && s.f R.HUSK_ID_LIFECYCLE == lcReturned then s.eraseCore 2
  else ((s.loadRecords b).loadLife b).beginChoice

/-- The boot chain once the boot reference has qualified. Mark: DEDUCED (log 76). -/
def State.bootOn (s : State) (b : BootIn) : State :=
  let s := { s.setF R.PWR_STAT_PHASE 1 with pwr := { s.pwr with waiting := none } }
  if !b.kat then s.setF R.HUSK_STAT_BOOT_ERR 1
  else
    let s := (s.setF R.CFG_FLASH_STAT_SIZE_LOG2 b.flashLog2).setB R.CFG_FLASH_STAT_OCTAL_DDR true
    let s := s.tryFirmware 0 (b.hfw.take 2)
    s.doIf s.husk.firmware (·.huskBoot b)

/-- Slots that an external programmer has written while reset was asserted. -/
def State.rewriteSlots (s : State) (l : List (Nat × SlotImage)) : State :=
  l.foldl (fun s x => { s with cfg := { s.cfg with slots := kset {} s.cfg.slots x.1 x.2 } }) s

/-- The wires that the lane tests find faulty. -/
def State.wiresFaulty (s : State) (w : List (Nat × Nat)) : State := w.foldl (fun s x => s.wireFaulty x.1 x.2) s

/-- The release of reset: RESET_CAUSE is the first event; the lane tests run; the boot goes on, or waits for its reference. Mark: DESIGN CHOICE (log 75), DESIGN CHOICE (log 78), DEDUCED (log 83). -/
def State.resetOver (s : State) (b : BootIn) : State :=
  let s := { s with pwr := { s.pwr with porst := false, softEnd := 0 }, net := { s.net with porstAt := s.now }
                    hostq := { s.hostq with linkUp := b.perst }, tap := { s.tap with instr := .bypass } }
  let s := (s.setF R.PWR_SUP_STAT_OK s.pwr.rails).post E.RESET_CAUSE 0 (s.word .pwr (W.PWR_RST_CAUSE.key 0 0))
  let s := s.rewriteSlots b.slots
  let s := (s.startClocks b).wiresFaulty b.wires
  if s.b R.CLK_STAT_NOREF then { s with pwr := { s.pwr with waiting := some b } } else s.bootOn b

/-- RESET_RELEASE (R487): PORST_N is released with no other source of reset left. -/
def execResetRelease (t : Instant) (b : BootIn) (s : State) : Res :=
  let s := s.start t
  .next (s.doIf (s.inReset && !s.pwr.supplyReset && decide (s.pwr.softEnd ≤ s.now)) (·.resetOver b))

/-- REF_QUALIFIED (R449, R450, R458): the first valid window of 100 µs at boot, or 100 of them (10 ms) after a loss; `since`: the instant from
which every window has been valid. The boot reference's qualification lets a boot that waited go on. -/
def execRefQualified (t : Instant) (ref : Nat) (since : Instant) (s : State) : Res :=
  let s := s.start t
  let lost := s.clk.lost.testBit ref
  .next (s.doIf (!s.inReset && decide (ref < 2) && !s.refOk ref && decide (since + (if lost then 10 * msQ else 100 * usQ) ≤ s.now)
      && (!lost || decide (kget 0 s.clk.lostAt ref ≤ since))) fun s =>
    let s := (s.setB (refOkF ref) true).doIf lost (·.post E.REF_QUALIFIED (subject ref))
    let s := { s with clk := { s.clk with lost := putBit s.clk.lost ref false } }
    let s := if s.b R.CLK_STAT_NOREF && s.f R.CLK_STAT_STRAP == ref then
        match s.pwr.waiting with
        | some b => s.bootClocks.bootOn b
        | none => s.bootClocks
      else s
    s.doIf lost fun s => [0, 1, 2].foldl (fun s p => s.refBack p ref) s)

/-! ## Boot tests (R16, R473) -/

/-- The logical kernels of a pod take its working physical kernels in increasing index. Mark: DEDUCED (log 82). -/
def State.backPod (s : State) (n : Nat) : State :=
  let ok := ((List.range 16).map (16 * n + ·)).filter fun p => !s.isGone p
  (List.range 15).foldl (fun s k => s.setBacking (16 * n + k) ok[k]?) s

/-- BOOT_BIST_DONE (R473): the boot tests end; `failed` are the physical kernels that failed, at 16·pod + k. Mark: DEDUCED (log 82). -/
def execBootBistDone (t : Instant) (failed : List Nat) (s : State) : Res :=
  let s := s.start t
  .next (s.doIf (s.alive && s.husk.firmware && !s.b R.CLK_STAT_NOREF && !s.b R.REL_STAT_BOOT_BIST_DONE) fun s =>
    let bad := failed.filter fun p => decide (p < 384)
    let s := bad.foldl (fun s p => s.doIf (!s.isGone p) (·.setGone p 3)) s
    let s := (List.range 24).foldl (fun s n => s.backPod n) s
    (s.setB R.REL_STAT_BOOT_BIST_DONE true).showPods)

end Sys2Proof.Machine
end

