-- ==== Sys2Proof/Machine/Checks.lean ====
section
/-! DEFINITION. The checks of an image that the manual assigns to the configuration system (R357), chapter by chapter. Each definition
holds where the set-up loaded passes its checks. A check of a range applies to enabled instances, and to registers without an EN field where
the image writes them. -/
namespace Sys2Proof.Machine

/-- The image carries a register record for this instance. Mark: DEDUCED (log 84). -/
def State.wrote (s : State) (r : FRef) (i : Nat := 0) (j : Nat := 0) : Bool := s.cfg.written.contains (r.addr i j)

/-- A check of a range applies to a register instance: it is enabled, or the image writes it. Mark: DEDUCED (log 84). -/
def State.uses (s : State) (en : Bool) (r : FRef) (i : Nat := 0) (j : Nat := 0) : Bool := en || s.wrote r i j

/-- The nominal period in ns of a source coded as in MEAS_ACC_CLOSE (R61): carrier events, or an NTIME generator. -/
def State.sourceNs (s : State) (src arg : Nat) : Option Nat :=
  if src = 0 then
    let half := 2 * s.top (s.bridge (arg / 2 ^ 19 % 32))
    some ((if arg / 2 ^ 17 % 4 = 3 then half else 2 * half) * (arg / 2 ^ 9 % 256 + 1))
  else if src = 1 then
    let p := s.f R.MEAS_NTEV_PER_PERIOD (arg % 8)
    if p = 0 then none else some p
  else none

/-- The targets a context owns (R133). Mark: DEDUCED (log 89). -/
def State.ownedBy (s : State) (c : Nat) : List Nat := (List.range 28).filter fun T => (s.owners T).any fun o => o.2 == c

/-! ## Measurement (R48, R54, R55, R61, R62, R73) -/

/-- A close source that counts closes at 4 or more (R61, R69). -/
def closeOk (src arg : Nat) : Bool := src != 2 || decide (4 ≤ arg)

/-- R48, R54, R55, R61, R69 and the ranges of Tables 2.8 to 2.12; R73. Mark: DEDUCED (log 84). -/
def State.measOk (s : State) : Bool :=
  ((List.range 24).all fun n => !s.b R.MEAS_SEQ_CTL_MODE n || decide (s.f R.MEAS_SEQ_CTL_SEQ_LEN n < 12))
  && ((List.range 8).all fun k => s.f R.MEAS_NTEV_PER_PERIOD k == 0 || decide (400 ≤ s.f R.MEAS_NTEV_PER_PERIOD k))
  && ((List.range 8).all fun g =>
    !s.uses (s.b R.MEAS_SDCK_CFG_EN g) W.MEAS_SDCK_CFG g || decide (16 ≤ s.f R.MEAS_SDCK_CFG_DIV g) && decide (s.f R.MEAS_SDCK_CFG_DIV g ≤ 80))
  && ((List.range 48).all fun n =>
    !s.uses (s.b R.MEAS_SD_CFG_EN n) W.MEAS_SD_CFG n || decide (7 ≤ s.f R.MEAS_SD_CFG_OSR n) && decide (s.f R.MEAS_SD_CFG_SHIFT n ≤ 9))
  && ((List.range 256).all fun a =>
    closeOk (s.f R.MEAS_ACC_CLOSE_SRC a) (s.f R.MEAS_ACC_CLOSE_ARG a) && closeOk (s.f R.MEAS_MMT_CLOSE_SRC a) (s.f R.MEAS_MMT_CLOSE_ARG a))
  && ((List.range 32).all fun p =>
    let a := s.f R.MEAS_PAIR_CFG_ACC_A p
    let b := s.f R.MEAS_PAIR_CFG_ACC_B p
    !s.b R.MEAS_PAIR_CFG_EN p
      || s.f R.MEAS_ACC_CLOSE_SRC a == s.f R.MEAS_ACC_CLOSE_SRC b && s.f R.MEAS_ACC_CLOSE_ARG a == s.f R.MEAS_ACC_CLOSE_ARG b)

/-! ## Positions (R85, R89, R92, R94, R101, R106) -/

/-- An accumulator named by a resolver is signed by the excitation of its interface (R92). -/
def State.resAcc (s : State) (n a : Nat) : Bool :=
  s.b R.MEAS_ACC_CFG_MODE a && s.f R.MEAS_ACC_CFG_SIGN_SRC a == 0 && s.f R.MEAS_ACC_CFG_SIGN_IDX a == n

/-- An interface passes R85, R89, R92, R94 and the ranges of Tables 3.9 to 3.12. -/
def State.piOk (s : State) (n : Nat) : Bool :=
  let on := s.b R.POS_PI_CFG_EN n
  let a := s.f R.POS_RES_ACC_ACC_SIN n
  let b := s.f R.POS_RES_ACC_ACC_COS n
  let m := s.f R.POS_RES_CFG_M n + 1
  let top := s.top (s.bridge (s.f R.POS_RES_CFG_LOCK_SLOT n))
  let per := s.f R.POS_RES_CFG_EXC_PER n
  (!s.uses (on && s.f R.POS_PI_CFG_SER n != 0) W.POS_SER_CFG n
    || decide (25 ≤ s.f R.POS_SER_CFG_MA_DIV n) && decide (s.f R.POS_SER_CFG_MA_DIV n ≤ 2500)
      && decide (7 ≤ s.f R.POS_SER_CFG_LEN n) && decide (s.f R.POS_SER_CFG_LEN n ≤ 39))
  && (!s.uses (on && s.b R.POS_RES_CFG_EXC_EN n) W.POS_RES_CFG n || s.f R.POS_RES_CFG_EXC_AMP n != 0)
  && (!(on && s.b R.POS_RES_CFG_EXC_EN n)
    || (if s.b R.POS_RES_CFG_LOCK n then decide (m * 25000 ≤ top) && decide (top ≤ m * 125000)
          else decide (25000 ≤ per) && decide (per ≤ 125000)))
  && (!(on && s.b R.POS_PI_CFG_RES_EN n)
    || s.resAcc n a && s.resAcc n b && s.f R.MEAS_ACC_CLOSE_SRC a == s.f R.MEAS_ACC_CLOSE_SRC b
      && s.f R.MEAS_ACC_CLOSE_ARG a == s.f R.MEAS_ACC_CLOSE_ARG b)
  && decide (s.f R.POS_CAP_SRC n < 2)

/-- The interfaces and the angle selectors (R101, R106). Mark: DEDUCED (log 84). -/
def State.posOk (s : State) : Bool :=
  ((List.range 8).all s.piOk)
  && ((List.range 16).all fun k =>
    (!(s.b R.POS_AS_CFG_OBS_EN k && s.b R.POS_AS_CFG_INJ_EN k) || decide (s.f R.POS_AS_SPD_W_X1 k < s.f R.POS_AS_SPD_W_X2 k))
    && (!s.uses (s.b R.POS_AS_CFG_EN k) W.POS_AS_PROBE k
      || decide (1 ≤ s.f R.POS_AS_PROBE_P k) && decide (s.f R.POS_AS_PROBE_P k ≤ 7) && s.f R.POS_AS_PROBE_K k != 0))

/-! ## Loop contexts (R110 to R115, R119, R122, R128, R130, R136, R137, R142, R145, R149) -/

/-- The worst C_eval of a descriptor. -/
def ctxWorst (d : CtxDesc) : Nat := (d.ceval.take d.nvar).foldl max d.cevalChange

/-- What an input counts as (Table 4.3). -/
def inputCount (d : InputDef) : Nat := if d.kind = 3 then 2 else 1

/-- A descriptor keeps the limits of Table 4.1, its parameter agent is a SERVICE kernel, and R119, R136, R137 and R149 hold. -/
def State.descOk (s : State) (c : Nat) (d : CtxDesc) : Bool :=
  let ini := d.params.map (·.init)
  decide (1 ≤ d.states.length) && decide (d.states.length ≤ 32) && decide (d.integs.length ≤ 32)
  && decide (1 ≤ (d.inputs.map inputCount).sum) && decide ((d.inputs.map inputCount).sum ≤ 16)
  && decide (1 ≤ d.outputs.length) && decide (d.outputs.length ≤ 24) && decide (1 ≤ d.params.length) && decide (d.params.length ≤ 1024)
  && decide (1 ≤ d.nvar) && decide (d.nvar ≤ 4) && d.nvar == s.f R.LOOP_CTX_CFG_NVAR c + 1
  && (d.integs.all fun g => g.out == 255 || decide (g.out < d.outputs.length))
  && !loAboveHi d ini
  && (d.outputs.all fun o => decide (0 < f32 o.range) && (o.preload == 255 || f32 o.gain != 0))
  && s.lawSelOk c (ini.getD 0 0)
  && decide (d.agentPod < 24) && decide (d.agentK < 15) && s.role (16 * d.agentPod + d.agentK) == roleService

/-- The nominal trigger period of a context in ns: of its LOOP_CTX_TRIG, or of an outer context OUTER_DIV periods of its inner one, whose triggers
it takes (R132). Mark: DEDUCED (log 151). -/
def State.nominalNs (s : State) (c : Nat) : Option Nat :=
  match s.innerOf c with
  | some i => (s.sourceNs (s.f R.LOOP_CTX_TRIG_SRC i) (s.f R.LOOP_CTX_TRIG_ARG i)).map fun p => p * (s.f R.LOOP_CTX_SHADOW_OUTER_DIV i + 1)
  | none => s.sourceNs (s.f R.LOOP_CTX_TRIG_SRC c) (s.f R.LOOP_CTX_TRIG_ARG c)

/-- A context's registers keep R113 to R115, R122, R142 and the ranges of Table 4.18. -/
def State.ctxRegsOk (s : State) (c : Nat) (d : CtxDesc) : Bool :=
  let src := s.f R.LOOP_CTX_TRIG_SRC c
  let dlv := s.f R.LOOP_CTX_TIME_L_DLV c
  let fe (en ref meas lim : FRef) : Bool :=
    !s.b en c || decide (s.f ref c < d.states.length) && decide (s.f meas c < d.states.length) && decide (s.f lim c < d.params.length)
  decide (src < 2)
  && (match s.nominalNs c with
    | some p => decide (2500 ≤ p) && decide (p ≤ 1000000)
    | none => false)
  && decide (d.dIn ≤ s.f R.LOOP_CTX_TIME_T_IN c * 2)
  && decide (10 ≤ dlv) && decide (dlv ≤ 60) && decide (d.dOut ≤ dlv * 2)
  && decide (s.f R.LOOP_CTX_HO_N_XF c ≤ 64) && s.f R.LOOP_CTX_HO_XF_RATE c != 0
  && fe R.LOOP_CTX_FE0_EN R.LOOP_CTX_FE0_REF R.LOOP_CTX_FE0_MEAS R.LOOP_CTX_FE0_LIM_PIDX
  && fe R.LOOP_CTX_FE1_EN R.LOOP_CTX_FE1_REF R.LOOP_CTX_FE1_MEAS R.LOOP_CTX_FE1_LIM_PIDX

/-- The kernels of a context, as logical kernels. -/
def State.groupOf (s : State) (c : Nat) : List Nat :=
  ((List.range 15).filter fun k => (s.f R.LOOP_CTX_CFG_KMASK c).testBit k).map (16 * s.f R.LOOP_CTX_CFG_POD c + ·)

/-- The share of a context of its kernel's time (R111). -/
def State.loadOf (s : State) (c : Nat) : Rat :=
  let f : Rat := s.f R.CLK_POD_MHZ (s.f R.LOOP_CTX_CFG_POD c)
  let p : Rat := (s.nominalNs c).getD 0
  if f = 0 ∨ p = 0 then 1 else (ctxWorst (s.ctx c).desc : Rat) * 1000 / f / p

/-- A context's group keeps Table 4.1 and R111. -/
def State.groupOk (s : State) (c : Nat) : Bool :=
  let g := s.groupOf c
  decide (s.f R.LOOP_CTX_CFG_POD c < 24) && decide (1 ≤ g.length) && decide (g.length ≤ 4)
  && (g.all fun k =>
    let on := s.ctxsOn k
    s.role k == roleLoop && (!s.b R.LOOP_CTX_CFG_FAST c || on == [c]) && decide (on.length ≤ 8)
      && decide ((on.map s.loadOf).foldl (· + ·) 0 ≤ 3 / 4))

/-- R128 for a context with FAST = 1. -/
def State.fastOk (s : State) (c : Nat) (d : CtxDesc) : Bool :=
  let n := (s.groupOf c).length
  !s.b R.LOOP_CTX_CFG_FAST c
    || decide (ctxWorst d ≤ 576) && decide (d.fma ≤ if n = 1 then 2048 else 1536 * n)
      && decide (s.f R.LOOP_CTX_TIME_T_IN c ≤ 61) && decide (s.f R.LOOP_CTX_TIME_L_DLV c ≤ 51)

/-- Two descriptors carry the same grid, DC-DC and link sections with identical words (R193). -/
def samePower (d e : CtxDesc) : Bool :=
  ([1, 2, 3].all fun b => d.sections.testBit b == e.sections.testBit b)
    && ((List.range 79).all fun i => !({ desc := d } : CtxSt).powerWord (101 + i) || d.params[101 + i]? == e.params[101 + i]?)

/-- Partners keep R130 and R193. -/
def State.partnersOk (s : State) (c : Nat) : Bool :=
  match s.partner c with
  | none => true
  | some p =>
    s.b R.LOOP_CTX_CFG_EN p && s.partner p == some c && s.ctxKind p != s.ctxKind c
    && s.word .loop (W.LOOP_CTX_TRIG.key p 0) == s.word .loop (W.LOOP_CTX_TRIG.key c 0)
    && s.f R.LOOP_CTX_FLT_WD_N p == s.f R.LOOP_CTX_FLT_WD_N c && s.ownedBy p == s.ownedBy c
    && !((s.groupOf p).any fun k => (s.groupOf c).contains k) && samePower (s.ctx p).desc (s.ctx c).desc

/-- The watchdog of a context's slots and bridges is no shorter than two trigger periods (R145). -/
def State.wdOk (s : State) (c : Nat) : Bool :=
  let p := (s.nominalNs c).getD 0
  (s.ownedBy c).all fun T => decide (2 * p ≤ (s.f R.LOOP_CTX_FLT_WD_N c + 1) * (2 * s.top (s.bridge T)))

/-- Every enabled context has a descriptor and passes. -/
def State.loopOk (s : State) : Bool :=
  (List.range 512).all fun c => !s.b R.LOOP_CTX_CFG_EN c
    || (s.loop.ctx.any fun x => x.1 == c) && s.descOk c (s.ctx c).desc && s.ctxRegsOk c (s.ctx c).desc && s.groupOk c
      && s.fastOk c (s.ctx c).desc && s.partnersOk c && s.wdOk c

/-! ## Drive, grid, DC-DC and link sections (R158, R178, R188, R192, R195, R213, R216) -/

/-- An initial parameter word, and its number. -/
def initWord (d : CtxDesc) (i : Nat) : Word := ((d.params[i]?).map (·.init)).getD 0
def initNum (d : CtxDesc) (i : Nat) : Rat := f32 (initWord d i)

/-- What a table of section words says of a run of words: its first index and length, whether they are integers, their owner (1 OEM, 2 OPR), whether
they are fixed, and their least and greatest value where the table gives them. -/
structure WordRule where
  first : Nat
  n : Nat := 1
  int : Bool := false
  owner : Nat := 1
  fixed : Bool := false
  least : Option Rat := none
  most : Option Rat := none
  deriving DecidableEq, Repr

/-- A bound as a number. -/
def paramNum (d : ParamDef) (w : Word) : Num := if d.integer then .fin (w.toNat : Rat) else f32Num w

/-- A word keeps its rule: type, owner, fixed bounds (R159), and bounds within the values that the table gives. -/
def WordRule.ok (r : WordRule) (d : ParamDef) : Bool :=
  d.integer == r.int && d.owner == r.owner && (!r.fixed || d.lo == d.init && d.hi == d.init)
    && (match r.least with
      | some q => !(paramNum d d.lo).isNan && !(paramNum d d.lo).lt (.fin q)
      | none => true)
    && (match r.most with
      | some q => !(paramNum d d.hi).isNan && !(Num.fin q).lt (paramNum d d.hi)
      | none => true)

/-- The words of a descriptor keep a table; every word of the table is there. Mark: DEDUCED (log 156). -/
def wordsOk (d : CtxDesc) (rs : List WordRule) : Bool :=
  rs.all fun r => (List.range r.n).all fun i => (d.params[r.first + i]?).any fun p => r.ok p

/-- Table 5.1, with the modulation limit of the image and I_MAX. -/
def driveWords (mlim imax : Rat) : List WordRule :=
  [{ first := 1, int := true, owner := 2, most := some 3 }, { first := 2, n := 2, owner := 2 }, { first := 4, int := true, fixed := true },
   { first := 5, int := true, fixed := true, least := some 1, most := some 64 }, { first := 6, n := 4, fixed := true }, { first := 10 },
   { first := 11, least := some (8 / 10), most := some mlim }, { first := 12, least := some (-imax), most := some 0 }, { first := 13 },
   { first := 14, fixed := true }, { first := 15, n := 6 }, { first := 21, least := some (8 / 10), most := some 1 }, { first := 22, n := 2 },
   { first := 24, int := true, least := some 1, most := some 16 }, { first := 25 }, { first := 26, least := some (-imax), most := some 0 },
   { first := 27, n := 6 }, { first := 33, n := 2, int := true, fixed := true }, { first := 35, n := 66, fixed := true }]

/-- Table 6.1. -/
def gridWords : List WordRule :=
  [{ first := 101, int := true, owner := 2, most := some 1 }, { first := 102, n := 2, owner := 2 },
   { first := 104, int := true, fixed := true, most := some 8191 }, { first := 105, fixed := true },
   { first := 106, fixed := true, least := some 45, most := some 66 }, { first := 107, fixed := true }, { first := 108, n := 25 },
   { first := 133, least := some 0, most := some Config.pi }, { first := 134, n := 7 }, { first := 141, fixed := true }, { first := 142 },
   { first := 143, int := true, least := some 1, most := some 64 }]

/-- Table 6.4. -/
def dcdcWords : List WordRule :=
  [{ first := 151, int := true, owner := 2, most := some 1 }, { first := 152, n := 2, owner := 2 }, { first := 154 },
   { first := 155, int := true, fixed := true, most := some 33554431 }, { first := 156, n := 8 },
   { first := 164, int := true, least := some 1, most := some 255 }, { first := 165 }, { first := 166, least := some (8 / 10), most := some (99 / 100) },
   { first := 167, n := 3 }]

/-- The words of R218. -/
def linkWords : List WordRule :=
  [{ first := 176, int := true, fixed := true, most := some 1 }, { first := 177, fixed := true }, { first := 178, owner := 2 }, { first := 179 }]

/-- A number agrees with a machine constant of the safety block to 1/1,024 (R178). -/
def agrees (a b : Rat) : Bool := decide (absQ (a - b) * 1024 ≤ absQ b)

/-- The drive constants of a context are those of an axis (R178). Mark: DESIGN CHOICE (log 90). -/
def State.sameMachine (s : State) (d : CtxDesc) (x : Nat) : Bool :=
  let k (i : Nat) : Word := s.safe.consts.getD (5 * x + i) 0
  (initWord d 5).toNat == (k 0).toNat && ([1, 2, 3, 4].all fun i => agrees (initNum d (5 + i)) (f32 (k i)))

/-- A context with a drive section keeps R158, R188 and Table 5.1. -/
def State.driveOk (s : State) (c : Nat) (d : CtxDesc) : Bool :=
  let w := initWord d 4
  let slot := getBits w 12 8
  !d.sections.testBit 0
    || s.ctxKind c != kindOuter && s.ctxKind c != kindAux && decide (slot < 24) && s.topo slot == topoTwo && (s.ownedBy c).contains slot
      && getBits w 1 0 != 3 && getBits w 4 3 != 3 && getBits w 7 6 == 0 && getBits w 31 13 == 0 && initNum d 29 != initNum d 30
      && wordsOk d (driveWords (({ desc := d, params := d.params.map (·.init) } : CtxSt).modLimit) (initNum d 10))
      && decide (initNum d 16 < initNum d 17)

/-- The machine constants of the safety block agree with a drive section (R178). Mark: DESIGN CHOICE (log 90). -/
def State.machinesOk (s : State) : Bool :=
  let ds := (s.ctxs.map fun c => (s.ctx c).desc).filter fun d => d.sections.testBit 0
  !s.safe.present || ds.isEmpty || ((List.range 4).all fun x => !s.b R.SAFE_AX_CFG_EN x || ds.any fun d => s.sameMachine d x)

/-- The slots of the grid and DC-DC sections of a context (R192, R213). -/
def sectionSlots (d : CtxDesc) : List Nat :=
  let g := initWord d 104
  let b := initWord d 155
  (if d.sections.testBit 1 then getBits g 12 8 :: (if getBits g 7 7 = 1 then [getBits g 12 8 + 1] else []) else [])
  ++ (if d.sections.testBit 2 then getBits b 7 3 :: (if 3 < getBits b 2 0 then [getBits b 12 8] else []) else [])

/-- A grid section keeps R192 and R195, with Table 6.1. -/
def State.gridOk (s : State) (c : Nat) (d : CtxDesc) : Bool :=
  let g := initWord d 104
  let q := initNum d
  let slot := getBits g 12 8
  let teval : Rat := 2 * s.top (s.bridge slot)
  let ts := ([122, 123, 124, 125].filter fun i => initWord d i != 0x7F800000).map q
  !d.sections.testBit 1
    || wordsOk d gridWords && decide (ts.Pairwise (· < ·)) && decide (slot < 24) && (if getBits g 7 7 = 1 then s.topo slot == topoA && (s.ownedBy c).contains (slot + 1) else s.topo slot == topoTwo)
      && (s.ownedBy c).contains slot
      && !(getBits g 4 4 == 1 && getBits g 1 0 == getBits g 3 2)
      && decide (q 115 < q 116) && decide (q 116 ≤ q 114)
      && decide (q 115 ≤ q 118) && decide (q 118 < q 119) && decide (q 119 < q 120) && decide (q 120 < q 121) && decide (q 121 ≤ q 113)
      && decide (q 110 < q 106) && decide (q 106 < q 111)
      && decide (q 141 * teval < 45 / 100 * 1000000000)

/-- A DC-DC section keeps R192, R213 and R216, with Table 6.4. -/
def State.dcdcOk (s : State) (c : Nat) (d : CtxDesc) : Bool :=
  let b := initWord d 155
  let own := s.ownedBy c
  let n := getBits b 2 0
  let slotA := getBits b 7 3
  let slotB := getBits b 12 8
  let cont := getBits b 18 14
  let used (ch : Nat) : Bool :=
    (List.range n).any fun p => cont == (if p < 3 then slotA else slotB) && ch / 2 == (if p < 3 then p else p - 3)
  !d.sections.testBit 2
    || decide (1 ≤ n) && decide (n ≤ 6) && own.contains slotA && s.topo slotA == topoDcdc
      && (decide (n ≤ 3) || own.contains slotB && s.topo slotB == topoDcdc)
      && getBits b 21 19 != getBits b 24 22 && !used (getBits b 21 19) && !used (getBits b 24 22) && own.contains cont
      && decide (initNum d 167 < initNum d 168)
      && wordsOk d dcdcWords && decide (cont < 24) && decide (getBits b 21 19 < 6) && decide (getBits b 24 22 < 6)
      && decide (initNum d 158 < initNum d 159) && decide (initNum d 159 < initNum d 160) && decide (initNum d 160 < initNum d 161)

/-- Grid, DC-DC and link sections of a context (R192). -/
def State.powerOk (s : State) (c : Nat) (d : CtxDesc) : Bool :=
  let arg := s.f R.LOOP_CTX_TRIG_ARG c
  (!(d.sections.testBit 1 || d.sections.testBit 2 || d.sections.testBit 3)
    || s.ctxKind c != kindOuter && s.ctxKind c != kindAux && (d.sections.testBit 1 || d.sections.testBit 2)
      && s.f R.LOOP_CTX_TRIG_SRC c == 0 && (sectionSlots d).contains (arg / 2 ^ 19 % 32) && arg / 2 ^ 17 % 4 == 3
      && arg / 2 ^ 9 % 256 == 0)
  && s.gridOk c d && s.dcdcOk c d && (!d.sections.testBit 3 || wordsOk d linkWords)

/-- The sections of every context, and the machine constants. -/
def State.servicesOk (s : State) : Bool :=
  (s.ctxs.all fun c => s.driveOk c (s.ctx c).desc && s.powerOk c (s.ctx c).desc) && s.machinesOk

/-! ## Switching channels and auxiliary bridges (R145, R187, R189, R224, R230, R233, R239, R241, R246, R247) -/

/-- The owners of a target are enabled contexts, and two owners are partners (R133, R246). Mark: DEDUCED (log 89). -/
def State.ownersOk (s : State) (T : Nat) : Bool :=
  match s.owners T with
  | [] => true
  | [a] => s.b R.LOOP_CTX_CFG_EN a.2
  | a :: b :: _ => s.b R.LOOP_CTX_CFG_EN a.2 && s.partner a.2 == some b.2 && s.partner b.2 == some a.2

/-- A slot keeps R224, R230, R233, R239 and R246, each in the registers that it uses. Mark: DEDUCED (log 88). -/
def State.slotOk (s : State) (n : Nat) : Bool :=
  let t := s.topo n
  let en := s.b R.PWM_SLOT_CFG_EN n
  let top := (s.uses en W.PWM_SLOT_TOP n) && t != topoB
  decide (t ≤ 4)
  && (!top || decide (625 ≤ s.top n) && decide (s.top n ≤ 500000) && decide (2 * s.minpw n ≤ s.top n))
  && (t == topoB || !(top || s.wrote W.PWM_SLOT_LOCK n) || decide (s.phSlew n ≤ s.top n / 8))
  && (!s.uses en W.PWM_SLOT_DT n || decide (s.dead n < 8 * s.minpw n))
  && (!s.uses (s.f R.PWM_FB_CFG_FB_EN n != 0) W.PWM_FB_CFG n || decide (20 ≤ s.f R.PWM_FB_CFG_FILT n))
  && (t != topoA || decide (n ≤ 22) && s.b R.PWM_SLOT_CFG_EN (n + 1) == en && s.topo (n + 1) == topoB && s.owners n == s.owners (n + 1)
      && s.dead n == s.dead (n + 1) && s.minpw n == s.minpw (n + 1))
  && (t != topoB || decide (1 ≤ n) && s.topo (n - 1) == topoA) && s.ownersOk n

/-- An auxiliary bridge keeps R230, R241 and R247, each in the registers that it uses. Mark: DEDUCED (log 88). -/
def State.bridgeOk (s : State) (x : Nat) : Bool :=
  let T := 24 + x
  let rfr := s.f R.AUX_BR_CFG_RFR x
  let en := s.b R.AUX_BR_CFG_EN x
  (!s.uses en W.AUX_BR_TOP x || decide (2500 ≤ s.top T) && decide (s.top T ≤ 50000) && decide (s.phSlew T ≤ s.top T / 8))
  && (!s.uses en W.AUX_BR_DT x || decide (s.dead T < 8 * s.minpw T))
  && (!s.uses en W.AUX_BR_CFG x || decide (s.dead T + 1600 ≤ 16 * rfr) && decide (rfr ≤ s.top T / 2)) && s.ownersOk T

/-- Slots, bridges, block commutation and the command input (R187, R189). -/
def State.pwmOk (s : State) : Bool :=
  ((List.range 24).all fun n => s.slotOk n)
  && ((List.range 4).all fun x => s.bridgeOk x)
  && ((List.range 4).all fun x => !s.b R.AUX_BC_CFG_EN x
    || s.f R.AUX_BC_CFG_DUTY_SRC x < 2)
  && ((List.range 4).all fun x =>
    (!s.uses (s.b R.AUX_BC_CFG_EN x) W.AUX_BC_RUN x
      || s.f R.AUX_BC_RUN_F0 x != 0 && decide (s.f R.AUX_BC_RUN_F0 x < s.f R.AUX_BC_RUN_F1 x))
    && (!s.uses (s.b R.AUX_BC_CFG_EN x) W.AUX_BC_START x || s.f R.AUX_BC_START_T_RAMP x != 0))
  && (!s.uses (s.b R.AUX_CMD_CFG_EN) W.AUX_CMD_SCALE
    || decide (1000 ≤ s.f R.AUX_CMD_SCALE_F_FS) && decide (s.f R.AUX_CMD_SCALE_F_FS ≤ 100000))
  && (!s.b R.AUX_CMD_CFG_EN
    || s.f R.AUX_CMD_CFG_MODE != 3 && !(s.b R.AUX_CMD_CFG_ACC_EN && s.b R.MEAS_ACC_CFG_MODE (s.f R.AUX_CMD_CFG_ACC)))

/-! ## Trip matrix (R249, R251, R264, R272) -/

/-- A mask of targets names a DCDC slot. -/
def State.namesDcdc (s : State) (mask : Nat) : Bool := (List.range 24).any fun n => mask.testBit n && s.topo n == topoDcdc

/-- ASC_LOW or ASC_HIGH. -/
def isAsc (a : Nat) : Bool := a == 2 || a == 3

/-- Target, group, comparator and rule registers pass. -/
def State.tripOk (s : State) : Bool :=
  ((List.range 28).all fun t =>
    let l := s.f R.TRIP_TGT_CFG_LOCAL_ACT t
    let w := s.f R.TRIP_TGT_CFG_WD_ACT t
    l != 7 && w != 7 && !((isAsc l || isAsc w) && s.topo t == topoDcdc && decide (t < 24))
      && (s.bridge t == t || [W.TRIP_TGT_CFG, W.TRIP_TGT_AUTO, W.TRIP_TGT_LINK].all fun r =>
        s.word .trip (r.key t 0) == s.word .trip (r.key (s.bridge t) 0)))
  && ((List.range 8).all fun g =>
    s.f R.TRIP_GRP_MLS_ACT g != 7 && !(isAsc (s.f R.TRIP_GRP_MLS_ACT g) && s.namesDcdc (s.f R.TRIP_GRP_MASK g)))
  && ((List.range 16).all fun c => !s.uses (s.b R.TRIP_CMP_CFG_EN c) W.TRIP_CMP_CFG c || decide (4 ≤ s.f R.TRIP_CMP_CFG_CFILT c))
  && ((List.range 128).all fun r => !s.wrote W.TRIP_RULE_SRC r
    || decide (1 ≤ s.f R.TRIP_RULE_SRC_CLASS r) && decide (s.f R.TRIP_RULE_SRC_CLASS r ≤ 8) && s.f R.TRIP_RULE_SRC_ACTION r != 7
      && !(s.f R.TRIP_RULE_SRC_CLASS r == 5 && s.b R.TRIP_RULE_SRC_LATCH r)
      && !(isAsc (s.f R.TRIP_RULE_SRC_ACTION r) && s.namesDcdc (s.f R.TRIP_RULE_TGT_MASK r)))

/-! ## Safety island (R40, R177, R278, R290, R298, R299, R309) -/

/-- A destination that reaches a SAFETY kernel names one leader alone; a destination of a safety-assigned source does (R40, R278). -/
def State.safeDstOk (s : State) (safe en : Bool) (router mask : Nat) : Bool :=
  let safety := (List.range 15).any fun k => mask.testBit k && s.role (16 * router + k) == roleSafety
  !en || !(safety || safe) || ((List.range 4).any fun p => router == halfPod (p / 2) && mask == 2 ^ s.leader p && s.role (16 * router + s.leader p) == roleSafety)

/-- The destinations of accumulators and interfaces. -/
def State.destsOk (s : State) : Bool :=
  ((List.range 256).all fun a =>
    let safe := s.b R.MEAS_ACC_CFG_SAFE a
    s.safeDstOk safe (s.b R.MEAS_ACC_DST0_EN a) (s.f R.MEAS_ACC_DST0_ROUTER a) (s.f R.MEAS_ACC_DST0_MASK a)
      && s.safeDstOk safe (s.b R.MEAS_ACC_DST1_EN a) (s.f R.MEAS_ACC_DST1_ROUTER a) (s.f R.MEAS_ACC_DST1_MASK a))
  && ((List.range 8).all fun n =>
    s.safeDstOk (s.b R.POS_PI_CFG_SAFE n) (s.b R.POS_DST_EN n) (s.f R.POS_DST_ROUTER n) (s.f R.POS_DST_MASK n))

/-- An accumulator is safety-assigned and a member of an enabled pair (R298). -/
def State.pairedSafe (s : State) (a : Nat) : Bool :=
  s.b R.MEAS_ACC_CFG_SAFE a && ((List.range 32).any fun p =>
    s.b R.MEAS_PAIR_CFG_EN p && (s.f R.MEAS_PAIR_CFG_ACC_A p == a || s.f R.MEAS_PAIR_CFG_ACC_B p == a))

/-- An interface captures at least once per T_SC (R298). -/
def State.capturesOk (s : State) (n : Nat) : Bool :=
  match s.sourceNs (s.f R.POS_CAP_SRC n) (s.f R.POS_CAP_ARG n) with
  | some p => decide (p ≤ (s.f R.SAFE_CYCLE_SC_PER + 1) * 250000)
  | none => false

/-- The SOUT outputs of a torque-off path enable the axis (R299, R309). -/
def State.pathOk (s : State) (x : Nat) : Bool :=
  let en (k : Nat) : Bool := s.f R.SAFE_SOUT_CFG_KIND k == 1 && s.f R.SAFE_SOUT_CFG_AXIS k == x
  match s.f R.SAFE_AX_CFG_STO_PATH x with
  | 0 => true
  | 1 => en 0 && en 2
  | 2 => en 1 && en 3
  | _ => false

/-- An enabled axis keeps R177, R298 and R309. -/
def State.axisOk (s : State) (x : Nat) : Bool :=
  let a := s.f R.SAFE_AX_POS_POS_A x
  let b := s.f R.SAFE_AX_POS_POS_B x
  let fen := s.f R.SAFE_AX_CFG_FEN x
  let serial (n : Nat) : Bool := s.f R.POS_PI_CFG_SER n == 1 || s.f R.POS_PI_CFG_SER n == 2
  a != b && s.b R.POS_PI_CFG_SAFE a && s.b R.POS_PI_CFG_SAFE b && (!fen.testBit 1 || serial a && serial b)
  && s.capturesOk a && s.capturesOk b
  && (!fen.testBit 0 || s.pairedSafe (s.f R.SAFE_AX_POS_ACC_I1 x) && s.pairedSafe (s.f R.SAFE_AX_POS_ACC_I2 x))
  && s.pathOk x

/-- Every target of TRIP_STO_MASK is named by the demand of an axis on STO_A and STO_B (R299). -/
def State.stoMaskOk (s : State) : Bool :=
  (List.range 28).all fun T => !s.bitF R.TRIP_STO_MASK_MASK T
    || (List.range 128).any fun r => s.b R.TRIP_RULE_SRC_EN r && s.f R.TRIP_RULE_SRC_CLASS r == 5 && s.bitF R.TRIP_RULE_TGT_MASK T r
      && (List.range 4).any fun x => s.b R.SAFE_AX_CFG_EN x && s.f R.SAFE_AX_CFG_STO_PATH x == 0
        && s.f R.SAFE_AX_CFG_DEM x == s.f R.TRIP_RULE_SRC_INDEX r

/-- The parameter set keeps Table 9.5, reserved words zero (R303). -/
def State.setOk (s : State) : Bool :=
  let n := s.safe.params.length
  n == 128 && ((List.range 128).all fun i =>
    decide (14 < i % 32) || s.psetWordOk (256 + i) (s.safe.params.getD i 0) || !s.b R.SAFE_AX_CFG_EN (i / 32))
  && ((List.range 4).all fun x => !s.b R.SAFE_AX_CFG_EN x || decide (f32 (s.safe.params.getD (32 * x + 8) 0) < f32 (s.safe.params.getD (32 * x + 9) 0)))

/-- An image with a safety block keeps R282, R298, R299 and R309; one without has nothing of the island's (R290). -/
def State.safetyOk (s : State) : Bool :=
  if s.safe.present then
    s.f R.SAFE_CYCLE_SPLIT_MAX != 0
    && decide (Config.safeWorst s.safe.fw (s.axes.map (s.f R.SAFE_AX_CFG_FEN ·)) (s.f R.CLK_POD_MHZ 0) (s.f R.CLK_POD_MHZ 23)
      ≤ (s.f R.SAFE_CYCLE_SC_PER + 1) * 250000)
    && ((List.range 8).all fun i => s.f R.SAFE_SIN_CFG_REQ i != 7)
    && ((List.range 4).all fun x => decide (s.f R.SAFE_AX_CFG_REACT x < 2) && s.f R.SAFE_AX_CFG_STO_PATH x != 3 && (!s.b R.SAFE_AX_CFG_EN x || s.axisOk x)) && s.stoMaskOk && s.setOk
  else
    !((List.range 256).any fun a => s.b R.MEAS_ACC_CFG_SAFE a) && s.sea.safeTrackers.isEmpty
    && !((List.range 8).any fun n => s.b R.POS_PI_CFG_SAFE n)
    && !((List.range 128).any fun r => s.f R.TRIP_RULE_SRC_CLASS r == 5) && s.f R.TRIP_STO_MASK_MASK == 0

/-! ## Telemetry and host loss (R320, R380, R395, R399) -/

/-- Grants of a telemetry item (R320, R352). -/
def telemOk (x : TelemItem) : Bool :=
  decide (1 ≤ x.kind) && decide (x.kind ≤ 8) && (x.kind != 7 || x.grant == 2 || x.grant == 0)
  && (x.kind != 6 || !x.grant.testBit 3) && (x.kind != 8 || x.grant == 14)

/-- The items have a telemetry agent (R380). -/
def State.agentOk (s : State) : Bool := s.hostq.items.isEmpty || s.sea.roles.any fun x => x.2 == 3

/-- HOSTQ_HL_CFG and HOSTQ_FB (R395, R399). -/
def State.hostOk (s : State) : Bool :=
  ([0, 1].all fun f => !s.b R.HOSTQ_HL_CFG_HB_EN f
    || decide (10 ≤ s.f R.HOSTQ_HL_CFG_HB_TIMEOUT f) && decide (s.f R.HOSTQ_HL_CFG_HB_TIMEOUT f ≤ 10000))
  && ((List.range 512).all fun c =>
    let m := getBits (s.word .hostq (W.HOSTQ_FB.key (c / 16) 0)) (2 * (c % 16) + 1) (2 * (c % 16))
    m != 3 && (m != 2 || (s.ctx c).desc.sections.testBit 0 && s.f R.LOOP_CTX_CFG_KIND c != kindAux))

/-! ## NET and CAN (R407, R417, R424, R428, R430, R446) -/

/-- A logical kernel holds NETSVC. -/
def State.isNetsvc (s : State) (router k : Nat) : Bool := decide (router < 24) && decide (k < 15) && s.role (16 * router + k) == 4

/-- A signed field of `n` bits lies in a range. -/
def inRange (n v : Nat) (lo hi : Int) : Bool := decide (lo ≤ signed n v) && decide (signed n v ≤ hi)

/-- NET_PTP_CFG keeps Table 13.2 and R407. -/
def State.ptpOk (s : State) : Bool :=
  let ls := s.f R.NET_PTP_CFG_LOG_SYNC
  let la := s.f R.NET_PTP_CFG_LOG_ANN
  let lp := s.f R.NET_PTP_CFG_LOG_PDELAY
  let annTo := s.f R.NET_PTP_CFG_ANN_TO
  inRange 4 ls (-4) 1 && inRange 4 la (-3) 3 && inRange 4 lp (-4) 1 && decide (2 ≤ annTo) && decide (s.f R.NET_PTP_CFG_DOMAIN ≤ 127)
  && (!s.b R.NET_PTP_CFG_PROFILE || s.b R.NET_PTP_CFG_P2P && !s.b R.NET_PTP_CFG_UDP && ls == 0 && la == 0 && lp == 0 && annTo == 3
    && s.f R.NET_PTP_CFG_DOMAIN == 0)

/-- The values of a NET register instance are ones that R424 accepts. -/
def State.netRegOk (s : State) (base i : Nat) : Bool :=
  if base = 0x40 then s.ptpOk
  else if base = 0x4C then
    decide (1 ≤ s.f R.NET_SERVO_LIM_LOCK_THR) && decide (s.f R.NET_SERVO_LIM_LOCK_THR ≤ 999)
      && decide (1 ≤ s.f R.NET_SERVO_LIM_SLEW) && decide (s.f R.NET_SERVO_LIM_SLEW ≤ 50000)
  else if base = 0x50 then
    decide (1 ≤ s.f R.NET_WAKE_CFG_WINDOW) && decide (s.f R.NET_WAKE_CFG_WINDOW ≤ 3600)
      && decide (1 ≤ s.f R.NET_WAKE_CFG_SYNC_TO) && decide (s.f R.NET_WAKE_CFG_SYNC_TO ≤ 600)
  else if base = 0x100 then
    s.f R.NET_PORT_CFG_MODE i != 3 && s.f R.NET_PORT_CFG_VALIDATE i != 3 && (!s.b R.NET_PORT_CFG_MSEC i || s.f R.NET_PORT_CFG_VALIDATE i != 0)
  else if base = 0x200 then
    (s.f R.NET_LQ_CFG_DOMAIN i == 1 || s.f R.NET_LQ_CFG_DOMAIN i == 2) && s.isNetsvc (s.f R.NET_LQ_CFG_ROUTER i) (s.f R.NET_LQ_CFG_LK i)
  else if base = 0x304 then s.isNetsvc (s.f R.NET_RXF_DST_ROUTER i) (s.f R.NET_RXF_DST_LK i)
  else true

/-- A bit of `n` quanta prescaled, in CAN clocks. -/
def State.nomBit (s : State) (n : Nat) : Nat :=
  (s.f R.CAN_NBT_NBRP n + 1) * (3 + s.f R.CAN_NBT_NTSEG1 n + s.f R.CAN_NBT_NTSEG2 n)
def State.dataBit (s : State) (n : Nat) : Nat :=
  (s.f R.CAN_DBT_DBRP n + 1) * (3 + s.f R.CAN_DBT_DTSEG1 n + s.f R.CAN_DBT_DTSEG2 n)

/-- What a controller uses keeps R428 and R446: the nominal bit, the data bit with FD_EN, the reference slot. -/
def State.canCtlOk (s : State) (n : Nat) : Bool :=
  (!s.uses (s.b R.CAN_CFG_EN n) W.CAN_NBT n
    || decide (80 ≤ s.nomBit n) && decide (1 ≤ s.f R.CAN_NBT_NTSEG1 n) && decide (s.f R.CAN_NBT_NSJW n ≤ s.f R.CAN_NBT_NTSEG2 n))
  && (!s.uses (s.b R.CAN_CFG_EN n && s.b R.CAN_CFG_FD_EN n) W.CAN_DBT n
    || decide (10 ≤ s.dataBit n) && decide (s.dataBit n ≤ s.nomBit n) && decide (s.f R.CAN_DBT_DSJW n ≤ s.f R.CAN_DBT_DTSEG2 n))
  && (!s.uses (s.b R.CAN_REF_CFG_REF_EN n) W.CAN_REF_CFG n
    || decide (1000 ≤ s.f R.CAN_REF_CFG_REF_PERIOD n) && decide (s.f R.CAN_REF_CFG_REF_PERIOD n ≤ 10000000))
  && (!s.uses (s.b R.CAN_REF_CFG_REF_EN n) W.CAN_REF_PH n || decide (s.f R.CAN_REF_PH_REF_PHASE n < s.f R.CAN_REF_CFG_REF_PERIOD n))

/-- Controllers and objects (R430, R446). -/
def State.canOk (s : State) : Bool :=
  ((List.range 4).all s.canCtlOk)
  && ((List.range 256).all fun o => !s.uses (s.b R.CAN_OBJ_CFG_EN o) W.CAN_OBJ_CFG o
    || (s.f R.CAN_OBJ_CFG_DOMAIN o == 1 || s.f R.CAN_OBJ_CFG_DOMAIN o == 2) && s.isNetsvc (s.f R.CAN_OBJ_CFG_ROUTER o) (s.f R.CAN_OBJ_CFG_LK o))

/-! ## CLK, REL and PWR (R451, R453, R455, R462, R483, R497) -/

/-- A divider of a reference gives the VCO frequency of a PLL within 1 ppm (R451), in units of 2^-24 of a reference cycle. -/
def pllExact (p ref n frac : Nat) : Bool :=
  let want := (if p = 0 then (if ref = 0 then 60 else 240) else if ref = 0 then 40 else 160) * 2 ^ 24
  let got := n * 2 ^ 24 + frac
  decide (16 ≤ n) && decide (n ≤ 251) && decide ((got - want + (want - got)) * 1000000 ≤ want)

/-- A PLL keeps R451 and R453. -/
def State.pllOk (s : State) (p : Nat) : Bool :=
  let i := s.f R.CLK_PLL_CFG_INIT_SLOT p
  let k := s.f R.CLK_PLL_CFG_BACKUP_SLOT p
  ((List.range 8).all fun j => !s.b R.CLK_SLOT_A_VALID p j
    || pllExact p (s.f R.CLK_SLOT_A_REFSEL p j) (s.f R.CLK_SLOT_A_N p j) (s.f R.CLK_SLOT_F_FRAC p j))
  && s.b R.CLK_SLOT_A_VALID p i && s.f R.CLK_SLOT_A_REFSEL p i == s.f R.CLK_STAT_STRAP
  && (!s.b R.CLK_CTL_BACKUP_EN || s.b R.CLK_SLOT_A_VALID p k && s.f R.CLK_SLOT_A_REFSEL p k != s.f R.CLK_SLOT_A_REFSEL p i)

/-- The PLLs and SYNC_IN (R455, R462). -/
def State.clkOk (s : State) : Bool :=
  ([0, 1, 2].all s.pllOk) && !(s.b R.CLK_CTL_SYNC_EN && s.f R.CLK_STAT_STRAP == 1)
  && (!s.wrote W.CLK_CTL || decide (1 ≤ s.f R.CLK_CTL_SYNC_TO) && decide (s.f R.CLK_CTL_SYNC_TO ≤ 100))

/-- REL_CTL and REL_THR (R483). -/
def State.relOk (s : State) : Bool :=
  (!s.wrote W.REL_CTL || decide (1 ≤ s.f R.REL_CTL_BIST_PER) && decide (s.f R.REL_CTL_BIST_PER ≤ 720)
    && decide (1 ≤ s.f R.REL_CTL_SCRUB_PER) && decide (s.f R.REL_CTL_SCRUB_PER ≤ 3600))
  && (!s.wrote W.REL_THR || s.f R.REL_THR_LANE_THR != 0 && decide (s.f R.REL_THR_AGE_WARN ≤ s.f R.REL_THR_AGE_LIMIT))

/-- PWR_TOK_CFG keeps R497 and Table 17.5. -/
def State.tokOk (s : State) : Bool :=
  let cap := s.f R.PWR_TOK_CFG_CAP + 1
  let pc := s.f R.PWR_TOK_CFG_PC_COST
  let ax := s.f R.PWR_TOK_CFG_AUX_COST
  decide (s.f R.PWR_TOK_CFG_INIT ≤ cap) && s.f R.PWR_TOK_CFG_REFILL != 0 && pc != 0 && ax != 0 && decide (pc ≤ cap) && decide (ax ≤ cap)

/-! ## Sections (R347) and the whole image -/

/-- Every required section is loaded, and the two safety sections together (R347). -/
def State.sectionsOk (s : State) : Bool :=
  ([0x100, 0x200, 0x300, 0x500].all s.cfg.loaded.contains) && s.cfg.loaded.contains 0x700 == s.cfg.loaded.contains 0x800

/-- The checks in section order: the section that is named when one fails. -/
def State.imageChecks (s : State) : List (Nat × Bool) :=
  [ (0x100, s.sectionsOk), (0x100, s.measOk), (0x100, s.posOk), (0x100, s.pwmOk), (0x100, s.tripOk), (0x100, s.destsOk), (0x100, s.hostOk)
  , (0x100, s.clkOk), (0x100, s.relOk), (0x100, !s.wrote W.PWR_TOK_CFG || s.tokOk), (0x300, s.loopOk), (0x300, s.servicesOk)
  , (0x400, s.agentOk), (0x600, s.canOk), (0x800, s.safetyOk) ]

/-- The first section with a failed check. -/
def State.imageBad (s : State) : Option Nat := (s.imageChecks.find? fun x => !x.2).map (·.1)

end Sys2Proof.Machine
end

