-- ==== Sys2Proof/Machine/Cfg.lean ====
section
/-! DEFINITION. The image: verification by the husk, loading and checking of its sections, placement, and the release of PLL_PWM that ends
with SEALED and READY (R16, R305, R331, R347 to R359, R365, R422, R453 to R455, R494, R495). -/
namespace Sys2Proof.Machine

/-! ## Verification (R326, R331, R356) -/

/-- SHA-384 of a public key's 97 bytes. -/
def keyHash (pub : BitVec 776) : BitVec 384 := Config.sha384 (numBytes 97 pub.toNat)

/-- The image public key: the root key itself, or the key of the certificate when the root key has signed it (R345). -/
def imageKey (k : KeyBlock) : Option (BitVec 776) :=
  if k.kind = 0 then some k.rootPub
  else if k.kind = 1 ∧ Config.ecdsa k.rootPub
      (Config.sha384 (k.kind :: List.replicate 7 0 ++ numBytes 97 k.imgPub.toNat ++ List.replicate 7 0)) k.certSig then some k.imgPub
  else none

/-- The root key of an image is the OEM's, or Skovash's. -/
def State.oemSigned (s : State) (k : KeyBlock) : Bool := s.husk.oemRootHash == some (keyHash k.rootPub)
def State.skvSigned (s : State) (k : KeyBlock) : Bool := s.husk.skvRootHash == keyHash k.rootPub

/-- The signature and the certificate of an image (R345). Mark: DEDUCED (log 93). -/
def State.signatureOk (s : State) (im : SlotImage) : Bool :=
  (s.oemSigned im.key || s.skvSigned im.key) && (imageKey im.key).any fun k => Config.ecdsa k im.digest im.sig

/-- An entry of the section table says that its section is encrypted. -/
def isEnc (e : SecEntry) : Bool := e.flags.testBit 0

/-- The tag of every encrypted section (R346); the additional data are bytes 0 to 11 of the entry and the nonce. -/
def State.tagsOk (s : State) (im : SlotImage) : Bool :=
  (im.hdr.table.zip ((List.range im.hdr.table.length).map (im.stored.getD · 0))).all fun x =>
    !isEnc x.1 || x.1.tag == Config.gcmTag (s.husk.oemKek.getD 0) im.hdr.nonce x.1.id x.1.iv
      (numBytes 2 x.1.id ++ numBytes 2 x.1.flags ++ numBytes 4 x.1.ofs ++ numBytes 4 x.1.len ++ numBytes 32 im.hdr.nonce.toNat) x.2

/-- The safety firmware of an image is signed, and is the one that the safety block names (R354). Mark: DEDUCED (log 93). -/
def State.fwOk (s : State) (im : SlotImage) : Bool :=
  im.secs.all fun x =>
    match x with
    | .safetyFw h => Config.fwSigned s.husk.skvRootHash h && im.secs.all fun y => match y with
      | .safetySet _ _ _ g _ => g == h
      | _ => true
    | _ => true

/-- The safety officer's signature, where SAF_ROOT_HASH is fused (R331, R354). -/
def State.officerOk (s : State) (im : SlotImage) : Bool :=
  s.husk.safRootHash.all fun r => im.secs.all fun x =>
    match x with
    | .safetySet _ _ _ _ o => o.any fun o => keyHash o.pub == r && Config.ecdsa o.pub o.digest o.sig
    | _ => true

/-- The signer of an image suits the lifecycle (R326). -/
def State.signerOk (s : State) (im : SlotImage) : Bool :=
  s.f R.HUSK_ID_LIFECYCLE == lcDeployed && s.oemSigned im.key || s.f R.HUSK_ID_LIFECYCLE == lcReturned && s.skvSigned im.key

/-- The RESULT of the husk's checks of an image (R331, R356). Mark: DEDUCED (log 93), DEDUCED (log 94). -/
def State.verifyResult (s : State) (im : SlotImage) : Nat :=
  let h := im.hdr
  if !s.signatureOk im then 1
  else if h.svn < s.f R.HUSK_SVN_IMG_SVN ∨ 64 < h.svn then 2
  else if !s.tagsOk im then 3
  else if !s.fwOk im then 4
  else if !s.officerOk im then 5
  else if !s.signerOk im then 6
  else if h.bind ≠ 0 ∧ h.bind ≠ s.f W.HUSK_DEV_ID_LO + s.f W.HUSK_DEV_ID_HI * 2 ^ 32 then 7
  else 0

/-- The slot in trial. -/
def State.trial (s : State) : Option Nat := s.cfg.order.head?

/-- The slot choice goes on after a failed slot (R356). -/
def State.nextSlot (s : State) : State :=
  let o := s.cfg.order.drop 1
  let s := { s with cfg := { s.cfg with order := o, released := false, loaded := [], placed := false, written := [], sent := [] } }
  let s := (s.setB R.HUSK_STAT_BOOT_OK false).setF R.CFG_STAT_PHASE 0
  s.doIf o.isEmpty (·.noImage)

/-- IMAGE_VERIFY (R331, R356): the husk finishes verifying the slot in trial. A slot that fails is invalid, and the next is tried. -/
def execImageVerify (t : Instant) (s : State) : Res :=
  let s := s.start t
  .next (match s.trial with
    | some k =>
      s.doIf (s.alive && s.husk.firmware && !s.b R.CLK_STAT_NOREF && !s.cfg.released && !s.b R.CFG_STAT_SEALED) fun s =>
        let r := s.verifyResult (s.slotImg k)
        if r = 0 then
          let s := ((s.setB R.HUSK_STAT_BOOT_OK true).setF R.CFG_STAT_PHASE 1).setF R.PWR_STAT_PHASE 3
          { s with cfg := { s.cfg with released := true } }
        else ((s.doIf (r != 7) (·.post E.IMG_REJECTED (subject k) (nw r))).setSlotResult k r).nextSlot
    | none => s)

/-! ## Register records (R348) -/

/-- Every writable field of a register instance is SAF-writable (R77, R96, R251). `cls` is the class of the rule it belongs to, if it is one
of a trip rule. -/
def State.safOnly (s : State) (h : RegHit) (cls : Nat) : Bool :=
  if h.blk == .trip && decide (0x800 ≤ h.rd.base) && decide (h.rd.base < 0xC00) then cls == 5
  else (h.rd.fields.filter fun f => f.acc != .ro).all fun f => f.dom != 31 && f.dom.testBit 3 && s.instGrant h 0 3

/-- The class of the trip rule that a record belongs to: by its own value, by a record beside it, or as loaded already. Mark: DEDUCED (log 91). -/
def State.ruleClass (s : State) (recs : List (Nat × Word)) (h : RegHit) (w : Word) : Nat :=
  if h.rd.base = 0x800 then getBits w 30 27
  else
    match recs.find? fun r => r.1 == W.TRIP_RULE_SRC.addr h.i 0 with
    | some r => getBits r.2 30 27
    | none => s.f R.TRIP_RULE_SRC_CLASS h.i

/-- A record would make a rule one of class 0x5 whose mask another section wrote: only SAF writes such a rule (R251). -/
def State.foreignMask (s : State) (recs : List (Nat × Word)) (h : RegHit) (w : Word) : Bool :=
  h.blk == .trip && h.rd.base == 0x800 && getBits w 30 27 == 5
    && !(recs.any fun r => r.1 == W.TRIP_RULE_TGT.addr h.i 0) && s.cfg.written.contains (W.TRIP_RULE_TGT.addr h.i 0)

/-- A section may carry a record for this register. Mark: DEDUCED (log 91), DEDUCED (log 92). -/
def State.recordFits (s : State) (sec : Nat) (recs : List (Nat × Word)) (r : Nat × Word) : Bool :=
  match findReg r.1 0 with
  | none => false
  | some h =>
    let saf := s.safOnly h (s.ruleClass recs h r.2)
    (h.rd.fields.any fun f => f.acc != .ro)
    && (if sec = 0x800 then saf && !s.foreignMask recs h r.2 && h.blk != .sys && h.blk != .husk && h.blk != .cfg
        else if sec = 0x600 then h.blk == .net || h.blk == .can
        else !saf && [Blk.hostq, .meas, .pos, .loop, .pwm, .trip, .clk, .rel, .pwr, .aux].contains h.blk)

/-- Apply a record: RW fields take its value. EN of a ring belongs to a session and is not loaded (R371). Mark: DEDUCED (log 92). -/
def State.putRecord (s : State) (r : Nat × Word) : State :=
  match findReg r.1 0 with
  | none => s
  | some h =>
    let fs := h.rd.fields.filter fun f => f.acc == .rw && !(f.own && h.blk == .hostq)
    let w := fs.foldl (fun w f => applyField 0 w r.2 f) (s.word h.blk h.key)
    { s.setWord h.blk h.key w with cfg := { s.cfg with written := if s.cfg.written.contains r.1 then s.cfg.written else r.1 :: s.cfg.written } }

/-- Apply records in order; the offset of the first that is refused, counted from `ofs`. -/
def State.loadRecords' (sec : Nat) (recs : List (Nat × Word)) : List (Nat × Word) → Nat → State → Except Nat State
  | [], _, s => .ok s
  | r :: rs, ofs, s => if s.recordFits sec recs r then State.loadRecords' sec recs rs (ofs + 8) (s.putRecord r) else .error ofs

/-- Set the RW fields of a register that the slot has written back to their reset value (R357). -/
def State.unwrite (s : State) (addr : Nat) : State :=
  match findReg addr 0 with
  | none => s
  | some h =>
    let reset := kget 0 (({} : Regs).blk h.blk) h.key
    s.setWord h.blk h.key ((h.rd.fields.filter fun f => f.acc == .rw).foldl (fun w f => applyField 0 w reset f) (s.word h.blk h.key))

/-! ## Sections (R349 to R355) -/

/-- The identifier of a section (Table 11.4). -/
def sectionId : Section → Nat
  | .roleMap .. => 0x100 | .programs .. => 0x200 | .contexts .. => 0x300 | .telemetry .. => 0x400 | .huskPolicy .. => 0x500
  | .network .. => 0x600 | .safetyFw .. => 0x700 | .safetySet .. => 0x800 | .life .. => 0x900

/-- Two regions share a page. -/
def overlap (a b : Region) : Bool := decide (a.base < b.base + b.pages) && decide (b.base < a.base + a.pages)

/-- The first region that leaves pages 0 to 4,095 or overlaps an earlier one, counted from `i`. -/
def badRegion (seen : List Region) : List Region → Nat → Option Nat
  | [], _ => none
  | r :: rs, i => if 4096 < r.base + r.pages ∨ seen.any (overlap r) then some i else badRegion (r :: seen) rs (i + 1)

/-- How many kernels of the pod of kernel `i`, below it, hold SAFETY. -/
def safetyBefore (roles : List Nat) (i : Nat) : Nat := ((List.range (i % 15)).filter fun j => roles.getD (i / 15 * 15 + j) 0 == 5).length

/-- The first role code that R18, R19 or R349 refuses: above 5, SAFETY outside P00 and P23, a fifth SAFETY kernel of a pod; else the last
role code of P00 or P23 where it holds fewer than four. Mark: DEDUCED (log 97). -/
def badRole (roles : List Nat) : Option Nat :=
  match (List.range 360).find? fun i =>
    5 < roles.getD i 0 ∨ roles.getD i 0 = 5 ∧ (i / 15 ≠ 0 ∧ i / 15 ≠ 23 ∨ 4 ≤ safetyBefore roles i) with
  | some i => some i
  | none => [14, 359].find? fun i => safetyBefore roles i + (if roles.getD i 0 = 5 then 1 else 0) < 4

/-- ROLE_MAP (R349). -/
def State.loadRoleMap (s : State) (roles clocks : List Nat) (accs trks pis : Nat) (regions : List Region) (recs : List (Nat × Word)) :
    Except Nat State :=
  match badRole roles with
  | some i => .error i
  | none =>
    match (List.range 24).find? fun n => clocks.getD n 0 < 250 ∨ 1000 < clocks.getD n 0 with
    | some n => .error (360 + 2 * n)
    | none =>
      if 64 < regions.length then .error 480
      else
        match badRegion [] regions 0 with
        | some i => .error (512 + 16 * i)
        | none =>
          let s := (List.range 360).foldl (fun s i => s.setRole (16 * (i / 15) + i % 15) (roles.getD i 0)) s
          let s := (List.range 24).foldl (fun s n => s.setPodClk n (clocks.getD n 0)) s
          let s := (List.range 256).foldl (fun s a => s.doIf (accs.testBit a) (·.setB R.MEAS_ACC_CFG_SAFE true a)) s
          let s := (List.range 8).foldl (fun s n => s.doIf (pis.testBit n) (·.setB R.POS_PI_CFG_SAFE true n)) s
          let s := { s with sea := { s.sea with regions := regions, safeTrackers := (List.range 256).filter fun m => trks.testBit m } }
          State.loadRecords' 0x100 recs recs 1544 s

/-- The kernels of a mask of a pod. -/
def podMask (pod mask : Nat) : List Nat := maskKernels pod mask

/-- A block of PROGRAMS is accepted (R350). -/
def State.blockOk (s : State) (b : ProgBlock) : Bool :=
  decide (b.pod < 24) && decide (b.first + b.words.length ≤ 16384)
  && ((podMask b.pod b.mask).all fun k => s.role k != roleIdle && s.role k != roleSafety)

/-- Write a block into the memories of its kernels. -/
def State.putBlock (s : State) (b : ProgBlock) : State :=
  let mem := (podMask b.pod b.mask).foldl (fun m k => b.words.zipIdx.foldl (fun m w => kset 0 m (memKey k b.data (b.first + w.2)) w.1) m) s.sea.mem
  { s with sea := { s.sea with mem := mem } }

/-- PROGRAMS (R350), with the offset of each block. -/
def State.loadPrograms (s : State) : List ProgBlock → Nat → Except Nat State
  | [], _ => .ok s
  | b :: bs, ofs => if s.blockOk b then (s.putBlock b).loadPrograms bs (ofs + 16 + 16 * ((b.words.length + 3) / 4)) else .error ofs

/-- The bytes of a context descriptor, up to the next 64-byte boundary (R351). -/
def descBytes (d : CtxDesc) : Nat :=
  let n := 64 + 8 * d.states.length + 16 * d.integs.length + 8 * d.inputs.length + 16 * d.outputs.length + 20 * d.params.length
  (n + 63) / 64 * 64

/-- CONTEXTS (R351). A context number above 511 is refused. Mark: DEDUCED (log 96). -/
def State.loadContexts (s : State) : List CtxDesc → Nat → Except Nat State
  | [], _ => .ok s
  | d :: ds, ofs => if d.ctx < 512 then (s.modCtx d.ctx fun x => { x with desc := d }).loadContexts ds (ofs + descBytes d) else .error ofs

/-- TELEMETRY (R320, R352). -/
def State.loadTelemetry (s : State) : List (Nat × TelemItem) → Nat → Except Nat State
  | [], _ => .ok s
  | x :: xs, ofs =>
    if x.1 < 1024 ∧ telemOk x.2 then
      ({ s with hostq := { s.hostq with items := kset {} s.hostq.items x.1 x.2 } }).loadTelemetry xs (ofs + 16)
    else .error ofs

/-- NET registers of the section hold values that R424 accepts: the offset of the first record that does not. Mark: DEDUCED (log 87). -/
def State.badNet (s : State) : List (Nat × Word) → Nat → Option Nat
  | [], _ => none
  | r :: rs, ofs =>
    match findReg r.1 0 with
    | some h => if h.blk == .net && !s.netRegOk h.rd.base h.i then some ofs else s.badNet rs (ofs + 8)
    | none => s.badNet rs (ofs + 8)

/-- Load a section: the state with it, or the offset of the item that refuses it. -/
def State.loadSection (s : State) : Section → Except Nat State
  | .roleMap roles clocks accs trks pis regions recs => s.loadRoleMap roles clocks accs trks pis regions recs
  | .programs bs => s.loadPrograms bs 0
  | .contexts ds => s.loadContexts ds 0
  | .telemetry xs => s.loadTelemetry xs 4
  | .huskPolicy base keys =>
    if keys.length ≤ 8 then .ok { s with husk := { s.husk with pf0Base := base, svcKeys := keys } } else .error 8
  | .network recs =>
    match State.loadRecords' 0x600 recs recs 8 s with
    | .error o => .error o
    | .ok s => match s.badNet recs 8 with
      | some o => .error o
      | none => .ok s
  | .safetyFw h => .ok { s with safe := { s.safe with fw := h } }
  | .safetySet recs params consts _ _ =>
    match State.loadRecords' 0x800 recs recs 8 s with
    | .error o => .error o
    | .ok s => .ok { s with safe := { s.safe with present := true, params := params, consts := consts } }
  | .life c =>
    .ok { s with trip := { s.trip with lifeCfg := { c with present := true }, life := s.trip.lifeSaved.getD [], lifeTime := s.trip.lifeSavedTime } }

/-- Everything loaded from the slot in trial is cleared (R356, R357). -/
def State.clearLoaded (s : State) : State :=
  let s := s.cfg.written.foldl (fun s a => s.unwrite a) s
  let s := (List.range 256).foldl (fun s a => s.setB R.MEAS_ACC_CFG_SAFE false a) s
  let s := (List.range 8).foldl (fun s n => s.setB R.POS_PI_CFG_SAFE false n) s
  let s := (List.range 24).foldl (fun s n => s.setPodClk n 500) s
  { s with
    sea := { badWords := s.sea.badWords }
    loop := {}
    hostq := { s.hostq with items := [] }
    husk := { s.husk with pf0Base := false, svcKeys := [] }
    safe := { s.safe with present := false, params := [], consts := [], fw := 0 }
    trip := { s.trip with lifeCfg := {}, life := [], lifeTime := 0 } }

/-- CFG refuses the slot in trial: IMG_REFUSED with the section and the offset (R357). Mark: DESIGN CHOICE (log 85). -/
def State.refuseSlot (s : State) (sec ofs : Nat) : State :=
  let k := s.trial.getD 0
  let s := ((s.post E.IMG_REFUSED (subject k) (nw sec) (nw ofs)).setF R.CFG_REFUSE_SEC_SECTION sec).setF R.CFG_REFUSE_OFS_OFFSET ofs
  (s.setSlotResult k 8).clearLoaded.nextSlot

/-! ## Placement (R359) -/

/-- A role has moved. Mark: DEDUCED (log 52). -/
def State.postMoved (s : State) (k : Nat) : State := (s.incF R.CFG_STAT_MOVED).post E.PLACE_MOVED (kernelSubject k)

/-- A placement has failed. Mark: DEDUCED (log 52). -/
def State.placeFail (s : State) (subj : Nat) : State := (s.incF R.CFG_STAT_PLACE_FAILS).post E.PLACE_FAIL subj

/-- A role moves from `k` to `j` with every context that uses it. -/
def State.moveRole (s : State) (k j : Nat) : State :=
  let r := s.role k
  let cs := s.ctxsOn k
  let s := (s.moveNames [(k, j)]).moveMem [(k, j)]
  let s := cs.foldl (fun s c => s.moveCtx [(k, j)] c) s
  ((s.setRole j r).setRole k roleIdle).postMoved k

/-- The backed IDLE/SPARE kernels of a pod. -/
def State.idles (s : State) (pod : Nat) : List Nat :=
  ((List.range 15).map (16 * pod + ·)).filter fun k => s.role k == roleIdle && s.backed k

/-- A pod's clock gives a fast-class context its time (R35, R151). -/
def State.podFast (s : State) (c pod : Nat) : Bool :=
  let f : Rat := s.f R.CLK_POD_MHZ pod
  !s.b R.LOOP_CTX_CFG_FAST c || f != 0 && decide (224 + (ctxWorst (s.ctx c).desc : Rat) * 1000 / f ≤ 800)

/-- A whole context moves to the lowest pod that has room, or fails. Mark: DEDUCED (log 52). -/
def State.placeCtx (s : State) (c : Nat) : State :=
  let g := s.groupOf c
  match (List.range 24).find? fun n => decide (g.length ≤ (s.idles n).length) && s.podFast c n with
  | some n =>
    let mv := g.zip (s.idles n)
    mv.foldl (fun s x => s.postMoved x.1) ((s.takeKernels c mv).moveMem mv)
  | none =>
    let s := (s.setCtxState c stFaulted).setCtxFault c true
    (s.modCtx c fun x => { x with cause := 4 }).placeFail (subject c)

/-- Place the role of one unbacked logical kernel. -/
def State.placeKernel (s : State) (k : Nat) : State :=
  let r := s.role k
  if s.backed k || r == roleIdle then s
  else
    match s.idleOf (k / 16) with
    | some j => s.moveRole k j
    | none =>
      if r = roleLoop then (s.ctxsOn k).foldl (fun s c => s.placeCtx c) s
      else if r = roleSafety then ({ s with cfg := { s.cfg with noSafety := true } }).placeFail (kernelSubject k)
      else
        match (List.range 24).findSome? s.idleOf with
        | some j => s.moveRole k j
        | none => s.placeFail (kernelSubject k)

/-- Every role of an unbacked kernel is placed, in rising order of the kernels. Mark: DESIGN CHOICE (log 97). -/
def State.place (s : State) : State :=
  ((List.range 384).filter fun k => decide (k % 16 < 15)).foldl (fun s k => s.placeKernel k) (s.setF R.CFG_STAT_PHASE 2)

/-! ## SECTION_LOAD -/

/-- Entries in use whose acquisition is raised post ACQ_EXTENDED (R45). -/
def State.acqExtended (s : State) : State :=
  (List.range 24).foldl (fun s n => s.doIf (s.b R.MEAS_SEQ_CTL_EN n) fun s =>
    (List.range 16).foldl (fun s e =>
      let used := decide (e ≤ s.f R.MEAS_SEQ_CTL_SEQ_LEN n)
        || s.b R.MEAS_SEQ_CTL_MODE n && s.f R.MEAS_SEQ_CTL_INJ_TRIG n != 0 && decide (12 ≤ e) && decide (e ≤ 12 + s.f R.MEAS_SEQ_CTL_INJ_LEN n)
      let short := decide ((s.f R.MEAS_SEQ_ENT_ACQ n e + 8) * 5 * nsQ < acqMin (s.f R.MEAS_SEQ_ENT_GAIN n e))
      s.doIf (used && short) (·.post E.ACQ_EXTENDED (subject n e))) s) s

/-! ## CFGL flits (R365) -/

/-- The ports to which CFG writes the registers of a block. LOOP has no port in Table 1.3. Mark: DESIGN CHOICE (log 164). -/
def cfgPorts : Blk → List (Nat × Nat)
  | .sys => [(18, 0)] | .husk => [(8, 1)] | .cfg => [] | .hostq => [(8, 0)]
  | .meas => [(1, 0), (4, 0), (19, 0), (22, 0)] | .pos => [(5, 0)] | .loop => []
  | .pwm => [(1, 1), (4, 1), (19, 1), (22, 1)] | .trip => [(0, 1)] | .safe => [(0, 0), (23, 0)]
  | .net => [(15, 0)] | .can => [(15, 1)] | .clk => [(18, 3)] | .rel => [(18, 1)] | .pwr => [(18, 2)] | .aux => [(5, 1)]

/-- The destinations that CFG counts: a logical kernel by its number, a block port from 512 on. -/
def cfgDest (d : Nat) : FlitDst := if d < 512 then .kernels (d / 16) (2 ^ (d % 16)) else .port ((d - 512) / 16) ((d - 512) % 16)

/-- A CFGL flit to a destination. -/
def State.cfgl (s : State) (d op addr : Nat) (ws : List Word) : State :=
  { s with cfg := { s.cfg with sent := kset 0 s.cfg.sent d (kget 0 s.cfg.sent d + 1) } }.send
    { dst := cfgDest d, src := cfgPort, payload := .cfgl { op := op, addr := addr, words := ws } }

/-- A record goes to the ports of its block. -/
def State.cfglRec (s : State) (r : Nat × Word) : State :=
  match findReg r.1 0 with
  | some h => (cfgPorts h.blk).foldl (fun s p => s.cfgl (512 + 16 * p.1 + p.2) 3 0 [nw r.1, r.2]) s
  | none => s

/-- A block of PROGRAMS goes to its kernels, five words a flit. -/
def State.cfglBlock (s : State) (b : ProgBlock) : State :=
  (podMask b.pod b.mask).foldl (fun s k =>
    (List.range (ceilDiv b.words.length 5)).foldl (fun s i =>
      s.cfgl k (if b.data then 2 else 1) (b.first + 5 * i) ((b.words.drop (5 * i)).take 5)) s) s

/-- What a loaded section sends. Mark: DESIGN CHOICE (log 164). -/
def State.cfglSection (s : State) : Section → State
  | .roleMap _ _ _ _ _ _ recs | .network recs | .safetySet recs _ _ _ _ => recs.foldl (fun s r => s.cfglRec r) s
  | .programs bs => bs.foldl (fun s b => s.cfglBlock b) s
  | _ => s

/-- Roles after placement, and the count of flits that each destination has been sent. Mark: DESIGN CHOICE (log 164). -/
def State.cfglDone (s : State) : State :=
  let ks := ((List.range 384).filter fun k => decide (k % 16 < 15)).filter fun k => s.role k != roleIdle
  let s := ks.foldl (fun s k => s.cfgl k 4 0 [nw (s.role k), nw ((s.ctxsOn k).headD 0)]) s
  s.cfg.sent.foldl (fun s x => s.cfgl x.1 5 0 [nw x.2]) s

/-- Every check has passed: the slot is in force, and the roles are placed (R356, R359). Mark: DEDUCED (log 30), DEDUCED (log 99). -/
def State.acceptImage (s : State) : State :=
  let k := s.trial.getD 0
  let s := s.setSlotResult k 0
  let s := s.doIf (s.cfg.first != some k) fun s => (s.setB R.CFG_STAT_FALLBACK true).post E.SLOT_FALLBACK (subject k)
  let s := s.acqExtended.place.cfglDone
  { s with cfg := { s.cfg with placed := true } }

/-- A section may follow those loaded: identifiers rise (R344, R347). Mark: DEDUCED (log 95). -/
def State.sectionNext (s : State) (sec : Nat) : Bool := s.cfg.loaded.all fun i => decide (i < sec)

/-- Sections that Table 10.6 lets be encrypted. -/
def mayEncrypt (id : Nat) : Bool := [0x100, 0x200, 0x300, 0x900].contains id

/-- The entry after `e` (none: the key block, at `stop`) begins at or beyond the end of its section. -/
def entryBefore (e : SecEntry) (next : List SecEntry) (stop : Nat) : Bool :=
  match next with
  | n :: _ => decide (e.id < n.id) && decide (e.ofs + e.len ≤ n.ofs)
  | [] => decide (e.ofs + e.len ≤ stop)

/-- The first entry of a section table that breaks R344, R346 or R347, with the sections it stands for. -/
def badEntry (stop : Nat) : List SecEntry → List Section → Option Nat
  | [], [] => none
  | e :: es, x :: xs =>
    if e.id = sectionId x ∧ e.ofs % 64 = 0 ∧ e.flags < 2 ∧ (!isEnc e || mayEncrypt e.id) ∧ (isEnc e || e.iv == 0 && e.tag == 0)
        ∧ entryBefore e es stop then badEntry stop es xs
    else some e.id
  | e :: _, [] => some e.id
  | [], x :: _ => some (sectionId x)

/-- The section and offset at which the layout of an image breaks R344 to R347; section 0 stands for the header. Mark: DEDUCED (log 95). -/
def layoutBad (im : SlotImage) : Option (Nat × Nat) :=
  let h := im.hdr
  if h.nsec < 4 ∨ 9 < h.nsec then some (0, 18)
  else if h.hdrLen ≠ 128 + 48 * h.nsec ∨ h.table.length ≠ h.nsec then some (0, 6)
  else if h.keyOfs + 320 > h.sigOfs then some (0, 64)
  else if h.sigOfs + 96 ≠ h.len then some (0, 68)
  else if h.table.any fun e => decide (e.ofs < h.hdrLen) then some (0, 128)
  else (badEntry h.keyOfs h.table im.secs).map fun i => (i, 0)

/-- A section is loaded: the state with it, or the section and offset that refuse it. -/
def State.takeSection (s : State) (sec : Section) : Except (Nat × Nat) State :=
  let id := sectionId sec
  if !s.sectionNext id then .error (id, 0)
  else
    match s.loadSection sec with
    | .error o => .error (id, o)
    | .ok s' => .ok { s' with cfg := { s'.cfg with loaded := s'.cfg.loaded ++ [id] } }

/-- SECTION_LOAD (R357): CFG loads the next section of the slot in trial, and with the last one runs every check. `bad`: a destination has
counted another total than CFG has sent it, at this section and offset (R365); `ofs`: the offset it names when a check of the values fails. Mark: DESIGN CHOICE (log 85), DESIGN CHOICE (log 86), DEDUCED (log 95). -/
def execSectionLoad (t : Instant) (bad : Option (Nat × Nat)) (ofs : Nat) (s : State) : Res :=
  let s := s.start t
  .next (s.doIf (s.alive && s.cfg.released && !s.cfg.placed && s.b R.REL_STAT_BOOT_BIST_DONE && !s.b R.CFG_STAT_SEALED) fun s =>
    let im := s.slotImg (s.trial.getD 0)
    match layoutBad im, im.secs.drop s.cfg.loaded.length with
    | some (i, o), _ => s.refuseSlot i o
    | none, [] => s.refuseSlot 0 18
    | none, sec :: rest =>
      match s.takeSection sec with
      | .error (i, o) => s.refuseSlot i o
      | .ok s' =>
        let s' := s'.cfglSection sec
        match bad with
        | some (i, o) => s'.refuseSlot i o
        | none =>
          if rest.isEmpty then
            match s'.imageBad with
            | some i => s'.refuseSlot i ofs
            | none => s'.acceptImage
          else s')

/-- Load sections in order. -/
def State.takeSections (s : State) : List Section → Except (Nat × Nat) State
  | [] => .ok s
  | x :: xs => match s.takeSection x with
    | .error e => .error e
    | .ok s' => s'.takeSections xs

/-- Every check of R357 on an image, nothing being loaded (R360): the checks run on a copy of the state from which the image in force is gone. -/
def State.imageFails (s : State) (im : SlotImage) : Bool :=
  (layoutBad im).isSome ||
    match ({ s.clearLoaded with cfg := { s.cfg with loaded := [], written := [] } }).takeSections im.secs with
    | .error _ => true
    | .ok s' => s'.imageBad.isSome

/-! ## SEAL (R305, R358, R455, R494) -/

/-- Each PLL takes its INIT_SLOT: by a hop where its setting differs from the boot setting (Table 15.4, step 5). -/
def State.initSlots (s : State) : State :=
  [0, 1, 2].foldl (fun s p =>
    let k := s.f R.CLK_PLL_CFG_INIT_SLOT p
    let same := s.f R.CLK_SLOT_A_N p k == s.f R.CLK_PLL_DIV_N p && s.f R.CLK_SLOT_F_FRAC p k == s.f R.CLK_PLL_DIV_FRAC p
      && s.f R.CLK_SLOT_A_REFSEL p k == (s.pll p).ref
    if same then s.takeSlot p k else s.endHop p k) s

/-- The safety parameter set of this boot: the overlay on it or without it, its CRC, and the entries of the change log (R305). -/
def State.startSet (s : State) : State :=
  if !s.safe.present then s
  else
    let base := crcWords s.safe.params
    let s := match s.safe.overlay with
      | none => s
      | some (b, ws) =>
        if b = base then { s with safe := { s.safe with params := putIds s.safe.params ws } }
        else (({ s with safe := { s.safe with overlay := none } }).post E.OVERLAY_DISCARDED).logChange 0 0 3 b base
    let crc := crcWords s.safe.params
    let s := match s.safe.lastCrc with
      | some o => s.doIf (o != crc) (·.logChange 0 0 2 o crc)
      | none => s
    ({ s with safe := { s.safe with lastCrc := some crc } }).setF R.SAFE_PSET_CRC_CRC crc.toNat

/-- What forms the wake slot (R422). Mark: DEDUCED (log 101). -/
def State.startWake (s : State) : State :=
  let node := s.f R.NET_NODE_NODE_ID
  let w := s.f R.NET_WAKE_CFG_WINDOW
  if w = 0 then s
  else
    ({ s with net := { s.net with wakeCfg := some (node, w, s.f R.NET_WAKE_CFG_SYNC_TO) } }).setF R.NET_WAKE_STAT_HASH (wakeHash node)

/-- The instants from which periodic work counts. Mark: DEDUCED (log 100). -/
def State.startTimes (s : State) : State :=
  { s with
    pwm := { s.pwm with enTick := 0, cmd := { lastAt := s.now, quietAt := s.now, rawAt := s.now } }
    trip := { s.trip with lifeLastSave := s.now, lifeLastStep := s.now }
    rel := { s.rel with checkAt := s.now, walkAt := s.now, ageAt := s.now, lifeAt := s.now }
    hostq := { s.hostq with lastHb := kset 0 (kset 0 s.hostq.lastHb 0 s.now) 1 s.now } }

/-- Of two owners of a slot the UNIFIED partner is active after boot (R246). -/
def State.unifiedFirst (s : State) : State :=
  (List.range 24).foldl (fun s T =>
    s.setB R.PWM_SLOT_STAT_B_ACTIVE (s.b R.PWM_SLOT_OWN_B_EN T && s.ctxKind (s.f R.PWM_SLOT_OWN_OWNER_B T) == kindUnified) T) s

/-- The blocks start: their EN fields take effect (R494), the island arms if it can (R289, R335, R359), the matrix arms (R263). -/
def State.startBlocks (s : State) : State :=
  let s := s.unifiedFirst.startUnits.excStart.loopStart.canStart.netFollow.startWake
  let s := s.startSet.doIf (!s.husk.recordBad && !s.cfg.noSafety) (·.armSafe)
  s.armTrip.stoDown

/-- PLL_PWM has ungated at this instant, as the last act before SEALED (R358, R455). Mark: DESIGN CHOICE (log 80). -/
def State.sealNow (s : State) : State :=
  let k := s.trial.getD 0
  let h := s.slotHdr k
  let s := { s with clk := { s.clk with ungatedAt := some s.now, syncWait := none } }
  let s := (((s.setB R.CFG_STAT_SEALED true).setF R.CFG_STAT_PHASE 3).setF R.CFG_STAT_SLOT (k + 1)).setF R.HUSK_STAT_SLOT (k + 1)
  let s := (s.setF R.HUSK_SVN_RUN_SVN h.svn).setF R.PWR_STAT_PHASE 4
  (s.post E.IMG_LOADED (subject k) (nw h.seq) (nw (h.seq / 2 ^ 32))).startTimes.startBlocks

/-- The chaff tests of an image with an enabled island have ended (R287). Mark: DEDUCED (log 98). -/
def State.chaffOver (s : State) : Bool :=
  !(s.safe.present && s.b R.SAFE_CTL_EN) || s.b R.SAFE_CTL_CHAFF_OK || s.b R.SAFE_STAT_HALF_A_FLT || s.b R.SAFE_STAT_HALF_B_FLT

/-- SEAL (R358): placement is complete. With SYNC_EN = 1, SEALED waits for SYNC_IN or its timeout (R455). Mark: DEDUCED (log 98). -/
def execSeal (t : Instant) (s : State) : Res :=
  let s := s.start t
  .next (s.doIf (s.alive && s.cfg.placed && s.chaffOver && !s.b R.CFG_STAT_SEALED && s.clk.syncWait.isNone) fun s =>
    let s := s.initSlots
    if s.b R.CLK_CTL_SYNC_EN then { s with clk := { s.clk with syncWait := some s.now, syncAt := none } } else s.sealNow)

/-- SYNC_DONE (R455): the first tick, 3.0 ns after the fourth REFCLK edge past the one that sampled SYNC_IN. Mark: DEDUCED (log 126). -/
def execSyncDone (t : Instant) (s : State) : Res :=
  let s := s.start t
  .next (match s.clk.syncWait, s.clk.syncAt with
    | some _, some e => s.doIf (s.alive && decide (e + 172 ≤ s.now)) fun s =>
        ((s.setB R.CLK_SYNC_STAT_SYNCED true).post E.SYNC_DONE).sealNow
    | _, _ => s)

/-- SYNC_TIMEOUT (R455): SYNC_TO ms pass without an edge. -/
def execSyncTimeout (t : Instant) (s : State) : Res :=
  let s := s.start t
  .next (match s.clk.syncWait, s.clk.syncAt with
    | some w, none => s.doIf (s.alive && decide (w + s.f R.CLK_CTL_SYNC_TO * msQ ≤ s.now)) fun s =>
        ((s.setB R.CLK_SYNC_STAT_TIMEOUT true).post E.SYNC_TIMEOUT).sealNow
    | _, _ => s)

/-! ## READY (R495) -/

/-- Every condition of R495 holds. -/
def State.readyOk (s : State) : Bool :=
  s.sealed && s.b R.TRIP_CTL_ARMED && (!s.safe.present || s.b R.SAFE_CTL_ARMED && s.safe.cycleAt.isSome) && s.b R.MEAS_CTL_CAL_DONE
  && ((List.range 28).all fun T => !s.targetEn T || (s.carrier (s.bridge T)).hp.isSome)

/-- READY (R495, R497): the first tick at which all conditions hold. -/
def execReady (t : Instant) (s : State) : Res :=
  let s := s.start t
  .next (s.doIf (s.readyOk && !s.b R.PWR_STAT_READY) fun s =>
    let s := ((s.setB R.PWR_STAT_READY true).setF R.PWR_STAT_PHASE 5).post E.READY
    s.doIf (!s.b R.PWR_TOK_CFG_WAKE_EN) (·.openBucket))

end Sys2Proof.Machine
end

