-- ==== Sys2Proof/Machine/Sys.lean ====
section
/-! DEFINITION. SYS: the event log (R529 to R534), the accesses of BAR0 that no register answers (R2, R527), the reads that latch a high
word (R223, R408, R528), and the TAP (R324). -/
namespace Sys2Proof.Machine

/-! ## The event log -/

/-- Entries of a class are pending for a function: a PEND bit that goes from 0 to 1 signals where MASK selects it (R529). -/
def State.pendClass (s : State) (cls fn : Nat) : State :=
  let k := cls - 1
  if s.bitF R.SYS_EVT_PEND_PEND k 0 fn then s
  else (s.setBitF R.SYS_EVT_PEND_PEND k true 0 fn).doIf (s.b R.SYS_EVT_IRQ_EN 0 fn && s.bitF R.SYS_EVT_IRQ_MASK k 0 fn)
    (·.sendVec fn (s.f R.SYS_EVT_IRQ_VEC 0 fn))

/-- The last `n` entries of a list. -/
def keepLast {α : Type} (n : Nat) (l : List α) : List α := l.drop (l.length - n)

/-- The log with one more entry, which takes the next SEQ; the oldest of 8,192 is overwritten (R531). -/
def SysSt.add (x : SysSt) (e : LogEntry) : SysSt :=
  { x with log := keepLast 8192 (x.log ++ [{ e with seq := x.nextSeq }]), nextSeq := x.nextSeq + 1 }

/-- SYS_EVT_SEQ and SYS_EVT_OLD show the newest and the oldest SEQ of the log. -/
def State.showLog (s : State) : State :=
  (s.setF R.SYS_EVT_SEQ_LO_SEQ (s.sys.nextSeq - 1)).setF R.SYS_EVT_OLD_LO_SEQ (s.sys.log.head?.elim 0 (·.seq))

/-- Write an entry. -/
def State.logEntry (s : State) (e : LogEntry) : State :=
  (({ s with sys := s.sys.add e }.showLog).pendClass e.cls 0).pendClass e.cls 1

/-- The count of lost flits starts again. -/
def State.clearLost (s : State) : State := { s with sys := { s.sys with lostNow := 0 } }

/-- The EVT_LOST entry that tells of the flits lost since the last one (R533); SEQ is given as it is written. Mark: DEDUCED (log 29). -/
def State.lostEntry (s : State) : LogEntry :=
  { ntime := s.ntime, seq := 0, cls := 1, flags := 2 + b2n (s.f R.NET_STAT_STATE != 2), code := E.EVT_LOST.2, subject := 0
    w0 := nw s.sys.lostNow, w1 := 0 }

/-- The EVT_LOST entry comes before the entry of a flit which arrived after a loss (R533). -/
def State.logLost (s : State) : State := (s.logEntry s.lostEntry).clearLost

/-- The entry of a queued flit (R531, Table 19.5); SEQ is given as it is written. Mark: DEDUCED (log 29). -/
def QueuedEvt.entry (q : QueuedEvt) : LogEntry :=
  { ntime := shortToNtime q.evt.ts q.arrival, seq := 0, cls := q.evt.cls, flags := b2n (!q.locked), code := q.evt.code
    subject := q.evt.subject, w0 := q.evt.w0, w1 := q.evt.w1 }

/-- The flits that wait. -/
def State.setQueue (s : State) (qs : List QueuedEvt) : State := { s with sys := { s.sys with queue := qs } }

/-- The oldest queued flit becomes an entry. Mark: DEDUCED (log 29). -/
def State.writeEvent (s : State) : State :=
  match s.sys.queue with
  | q :: qs => ((s.setQueue qs).doIf q.lostBefore (·.logLost)).logEntry q.entry
  | [] => s

/-- EVENT_WRITE (R531): SYS writes the oldest queued flit. -/
def execEventWrite (t : Instant) (s : State) : Res :=
  let s := s.start t
  .next (s.doIf (!s.inReset) (·.writeEvent))

/-! ## Accesses that no register answers -/

/-- A BAR0 address: 1 MiB (Table 12.1). -/
def inBar0 (addr : Nat) : Bool := decide (addr < 0x100000)

/-- The device answers at this address: the block is open to the access (R493). Mark: DEDUCED (log 27), DEDUCED (log 73). -/
def State.answers (s : State) (fn addr : Nat) (write : Bool) : Bool :=
  s.barOpen && (match Blk.ofNum (addr / 0x10000) with
    | some b => s.blockOpen b fn write
    | none => false)

/-- A read completes with zero. Mark: DEDUCED (log 27). -/
def State.readZero (s : State) (fn addr : Nat) (write : Bool) : State := s.doIf (s.barOpen && !write) (·.emit (.readData fn addr 0))

/-- MISALIGNED_ACCESS (R2): any access that is not one aligned word. -/
def execMisalignedAccess (t : Instant) (fn addr len : Nat) (write : Bool) (s : State) : Res :=
  let s := s.start t
  .next (s.doIf (decide (fn < 2) && inBar0 addr && decide (1 ≤ len) && decide (len ≤ 4096) && !(len == 4 && addr % 4 == 0)) fun s =>
    (s.doIf (s.answers fn addr write) (·.badAccess fn addr len write)).readZero fn addr write)

/-- RESERVED_ADDRESS_ACCESS (R527): an aligned word that Table 19.2 does not list. -/
def execReservedAddressAccess (t : Instant) (fn addr : Nat) (write : Bool) (s : State) : Res :=
  let s := s.start t
  .next (s.doIf (decide (fn < 2) && inBar0 addr && addr % 4 == 0 && (findReg addr fn).isNone) fun s =>
    (s.doIf (s.answers fn addr write) (·.badAccess fn addr 4 write)).readZero fn addr write)

/-! ## Reads that latch -/

/-- The husk lets a read of this register through. -/
def State.readGranted (s : State) (fn addr : Nat) : Bool :=
  s.answers fn addr false && (match findReg addr fn with
    | some h => s.canRead h fn
    | none => false)

/-- A read of the low word of a 64-bit value, which latches the high word into its own register. -/
def State.latchRead (s : State) (fn : Nat) (lo hi : FRef) (v : Nat) : State :=
  let a := lo.addr 0 0
  if s.readGranted fn a then (((s.touch fn).setF lo v).setF hi (v / 2 ^ 32)).emit (.readData fn a (BitVec.ofNat 32 v))
  else (s.barRead fn a).1.readZero fn a false

/-- PWM_TIME_LO (R223): bits 31:0 of PWM time; bits 63:32 go to PWM_TIME_HI. -/
def execPwmTimeLo (t : Instant) (fn : Nat) (s : State) : Res :=
  let s := s.start t
  .next (s.doIf (decide (fn < 2)) fun s => s.latchRead fn W.PWM_TIME_LO W.PWM_TIME_HI s.pwmTime)

/-- NET_NTIME_LO (R408): bits 31:0 of NTIME; bits 63:32 go to NET_NTIME_HI. -/
def execNetNtimeLo (t : Instant) (fn : Nat) (s : State) : Res :=
  let s := s.start t
  .next (s.doIf (decide (fn < 2)) fun s => s.latchRead fn W.NET_NTIME_LO W.NET_NTIME_HI (unsignedOf 64 s.ntime))

/-- SEQ of the newest entry; 0 with nothing logged. -/
def State.newestSeq (s : State) : Nat := s.sys.log.getLast?.elim 0 (·.seq)
/-- SEQ of the oldest entry held. -/
def State.oldestSeq (s : State) : Nat := s.sys.log.head?.elim 0 (·.seq)

/-- SYS_EVT_SEQ_LO (R528). -/
def execSysEvtSeqLo (t : Instant) (fn : Nat) (s : State) : Res :=
  let s := s.start t
  .next (s.doIf (decide (fn < 2)) fun s => s.latchRead fn W.SYS_EVT_SEQ_LO W.SYS_EVT_SEQ_HI s.newestSeq)

/-- SYS_EVT_OLD_LO (R528). -/
def execSysEvtOldLo (t : Instant) (fn : Nat) (s : State) : Res :=
  let s := s.start t
  .next (s.doIf (decide (fn < 2)) fun s => s.latchRead fn W.SYS_EVT_OLD_LO W.SYS_EVT_OLD_HI s.oldestSeq)

/-! ## The TAP (R323, R324) -/

/-- EXTEST and CLAMP drive the pins from the boundary register. -/
def tapDrives : TapInstr → Bool
  | .extest | .clamp => true
  | _ => false

/-- The instruction that the TAP selects when it is given `i`. Mark: DEDUCED (log 33). -/
def State.tapSelects (s : State) (i : TapInstr) : TapInstr :=
  match i with
  | .extest | .clamp | .highz => if s.pwr.porst then i else .bypass
  | .priv _ => if s.b R.HUSK_DBG_STAT_KDBG_OPEN || s.b R.HUSK_DBG_STAT_VTEST_OPEN then i else .bypass
  | _ => i

/-- Levels of boundary cells go to their pins. Mark: DEDUCED (log 33). -/
def State.drivePins (s : State) (cells : List (Nat × Bool)) : State := cells.foldl (fun s c => s.emit (.pin c.1 c.2)) s

/-- TAP_INSTRUCTION (R324): the TAP loads an instruction; `cells` are the levels for gate pins (0 to 167) that PRELOAD or EXTEST brings into the
boundary register. Mark: DEDUCED (log 33). -/
def execTapInstruction (t : Instant) (i : TapInstr) (cells : List (Nat × Bool)) (s : State) : Res :=
  let s := s.start t
  let n := s.tapSelects i
  let old := s.tap
  let held := match n with
    | .preload | .extest => cells.filter fun c => decide (c.1 < 168)
    | _ => old.cells
  let s := { s with tap := { instr := n, cells := held } }
  .next (if tapDrives n then s.drivePins held
    else s.doIf (tapDrives old.instr && s.pwr.porst) (·.drivePins ((old.cells.filter (·.2)).map fun c => (c.1, false))))

end Sys2Proof.Machine
end

