-- ==== Sys2Proof/Machine/HostRegs.lean ====
section
/-! DEFINITION. REGISTER_WRITE: a write of a register through BAR0, with what a run-time write brings in the blocks that have more to say than
the Access column (R6, R7, R65, R67, R98, R371, R407, R424). -/
namespace Sys2Proof.Machine

/-! ## Run-time writes of NET (R407, R424) -/

/-- The enable that closes a NET register: its own field (`own`: the register holds it), or PTP_EN. `none`: the register takes writes at any
time. -/
def netLock (base : Nat) : Option (FRef × Bool) :=
  if base = 0x100 then some (R.NET_PORT_CFG_EN, true)
  else if 0x104 ≤ base ∧ base ≤ 0x110 then some (R.NET_PORT_CFG_EN, false)
  else if 0x40 ≤ base ∧ base ≤ 0x4C then some (R.NET_CTL_PTP_EN, false)
  else if base = 0x200 then some (R.NET_LQ_CFG_EN, true)
  else if base = 0x300 then some (R.NET_RXF_EN, true)
  else if base = 0x304 then some (R.NET_RXF_EN, false)
  else none

/-- The fields of a NET register that a run-time write reaches now. -/
def State.netFields (s : State) (h : RegHit) (fs : List FieldDef) : List FieldDef :=
  match netLock h.rd.base with
  | none => fs
  | some (en, own) =>
    if s.b en (if h.rd.base < 0x100 then 0 else h.i) then (if own then fs.filter fun f => f.hi == 31 else []) else fs

/-- A run-time write of a NET register: with no field left, or with a value of R424 or R407, it is discarded as a write to a sealed register. -/
def State.netWrite (s : State) (fn addr : Nat) (data : Word) (h : RegHit) : State :=
  match s.writeAt fn .net (addr % 0x10000) data with
  | (s', none) => s'
  | (s', some (_, fs)) =>
    let back := s'.setWord .net h.key (s.word .net h.key)
    let open_ := s.netFields h fs
    let w := (open_.filter fun f => !f.own).foldl (fun w fd => applyField (nw (s.freshOf .net h.key)) w data fd) (s.word .net h.key)
    let new := s'.setWord .net h.key w
    if open_.isEmpty || !new.netRegOk h.rd.base h.i then back.refuse fn .net (addr % 0x10000) true 1
    else new.netFollow

/-! ## Hooks after a write -/

/-- The aggregates of MEAS_STAT follow the bits they sum up. -/
def State.measAggregates (s : State) : State :=
  let any (r : FRef) (n : Nat) : Bool := (List.range n).any fun k => s.f r k != 0
  (((s.setB R.MEAS_STAT_VOID_ANY (any R.MEAS_ACC_VOID_VOID 8)).setB R.MEAS_STAT_RAIL_ANY (any R.MEAS_ACC_RAIL_RAIL 8)).setB
    R.MEAS_STAT_OVR_ANY (s.f R.MEAS_INJ_OVR_OVR != 0)).setB R.MEAS_STAT_STUCK_ANY
    (s.f R.MEAS_SD_STUCK0_STUCK != 0 || s.f R.MEAS_SD_STUCK1_STUCK != 0)

/-- What else a write of this register brings. -/
def State.afterWrite (s : State) (h : RegHit) (data : Word) : State :=
  match h.blk with
  | .meas => s.measAggregates
  | .pos => if h.rd.base = 0x120 then (s.piStatCleared h.i data).settle else s
  | .can => if h.rd.base = 0x120 ∧ s.b R.CAN_STAT_UNM_SEEN h.i = false then s.setF R.CAN_CNT_RX_UNMATCHED 0 h.i else s
  | _ => s

/-- A write of a ring's base is discarded while its EN is 1 (R371). -/
def State.ringBaseHeld (s : State) (h : RegHit) : Bool :=
  h.blk == .hostq && ((h.rd.base == 0x1000 || h.rd.base == 0x1004) && s.b R.HOSTQ_SQ_CFG_EN h.i h.j
    || (h.rd.base == 0x2000 || h.rd.base == 0x2004) && s.b R.HOSTQ_CQ_CFG_EN h.i h.j)

/-- The plain case: the write passes the husk, its fields are set, and the block follows. -/
def State.plainWrite (s : State) (fn addr : Nat) (data : Word) (h : RegHit) : State :=
  match s.writeAt fn h.blk (addr % 0x10000) data with
  | (s', none) => s'
  | (s', some _) => if s.ringBaseHeld h then s'.setWord h.blk h.key (s.word h.blk h.key) else s'.afterWrite h data

/-- A write of an aligned word that a register answers. -/
def State.writeReg (s : State) (fn addr : Nat) (data : Word) (h : RegHit) : State :=
  match h.blk with
  | .net => s.netWrite fn addr data h
  | .hostq =>
    if h.rd.base = 0x1008 then s.ringCfg false fn h.i data
    else if h.rd.base = 0x2008 then s.ringCfg true fn h.i data
    else s.plainWrite fn addr data h
  | _ => s.plainWrite fn addr data h

/-- REGISTER_WRITE (R6, R7). A field whose write has a row of its own is left to that row; an address that no register has is
RESERVED_ADDRESS_ACCESS's. Mark: DESIGN CHOICE (log 20), DEDUCED (log 26). -/
def execRegisterWrite (t : Instant) (fn addr : Nat) (data : Word) (s : State) : Res :=
  let s := s.start t
  .next (s.doIf (decide (fn < 2) && addr % 4 == 0 && inBar0 addr) fun s =>
    match findReg addr fn with
    | some h => s.writeReg fn addr data h
    | none => s)

end Sys2Proof.Machine
end

