-- ==== Sys2Proof/Machine/Rel.lean ====
section
/-! DEFINITION. REL: uncorrectable words of kernels, scrubbing, register checks, background tests, map-out, aging and life
(R464 to R484). -/
namespace Sys2Proof.Machine

/-- REL runs. -/
def State.relOn (s : State) : Bool := s.sealed && s.b R.REL_CTL_EN

/-! ## A kernel goes out of use (R475) -/

/-- The spare that takes over a logical kernel's role: its own name on the physical spare, or the lowest backed IDLE/SPARE kernel of the
pod. Answers the new name. -/
def State.takeSpare (s : State) (k : Nat) : State × Option Nat :=
  match s.spareOf (k / 16) with
  | some p => ((s.setBacking k (some p)).post E.SPARE_USED (kernelSubject p), some k)
  | none =>
    let s := s.setBacking k none
    match s.idleOf (k / 16) with
    | some j => (s, some j)
    | none => (s, none)

/-- A LOOP kernel is lost: its contexts fault with cause 4, and their reload begins unless no spare is left. The spare is kept for them
by giving it the role. -/
def State.loseLoop (s : State) (k : Nat) : State :=
  let cs := s.ctxsOn k
  let s := cs.foldl (fun s c => s.ctxFault c 4) s
  match s.takeSpare k with
  | (s, some j) =>
    let s := s.setRole j roleLoop
    { s with rel := { s.rel with reloads := s.rel.reloads ++ [{ ctxs := cs, src := k, dst := j }] } }
  | (s, none) => s.post E.SPARES_EXHAUSTED (subject (k / 16))

/-- An OBSERVER, SERVICE or NETSVC kernel is lost: its role is reloaded onto a spare. -/
def State.loseOther (s : State) (k : Nat) : State :=
  let r := s.role k
  match s.takeSpare k with
  | (s, some j) => if j = k then s else (((s.setRole j r).setRole k roleIdle).moveNames [(k, j)]).moveMem [(k, j)]
  | (s, none) => s.post E.SPARES_EXHAUSTED (subject (k / 16))

/-- An IDLE/SPARE kernel is lost: the physical spare backs it, or it becomes unbacked. A migration onto it ends. -/
def State.loseIdle (s : State) (k : Nat) : State :=
  let s := match s.loop.mig with
    | some m => s.doIf (m.dstPod == k / 16 && m.dstMask.testBit (k % 16)) (·.abortMig)
    | none => s
  match s.spareOf (k / 16) with
  | some p => (s.setBacking k (some p)).post E.SPARE_USED (kernelSubject p)
  | none => s.setBacking k none

/-- A physical kernel is out of use at once. -/
def State.retire (s : State) (p : Nat) : State :=
  if s.isGone p then s
  else
    let l := s.logicalOf p
    let s := s.setGone p 1
    let s := match l with
      | none => s
      | some k =>
        if s.role k = roleIdle then s.loseIdle k
        else if s.role k = roleLoop then s.loseLoop k
        else if s.role k = roleSafety then s
        else s.loseOther k
    s.showPods

/-- A kernel is mapped out, and reported. -/
def State.mapOut (s : State) (p : Nat) : State :=
  (((s.setGone p 2).setB R.REL_STAT_BIST_FAIL_SEEN true).post E.BIST_FAIL (kernelSubject p)).showPods

/-- The safety pair of a physical kernel. -/
def State.pairOf (s : State) (p : Nat) : Option Nat :=
  match s.logicalOf p with
  | some k =>
    if s.role k != roleSafety then none
    else
      let i := (s.safetyKernels (k / 16)).idxOf (k % 16)
      some ((if k / 16 = 0 then 0 else 2) + i / 2)
  | none => none

/-- An uncorrectable word of a kernel memory (Table 16.1): a kernel loss, or a mismatch of the safety pair. -/
def State.kernelWord (s : State) (p mem word : Nat) : State :=
  let s := (s.uncorrectable mem (p / 16) (p % 16) word).post E.UE_KERNEL (kernelSubject p) (nw mem) (nw word)
  match s.pairOf p with
  | some q =>
    s.doIf (s.safeOn && (s.pairState q == spLockstep || s.pairState q == spDraining))
      (fun s => (s.post E.LOCKSTEP_MISMATCH (subject q)).pairFault q fcMismatch)
  | none =>
    if s.isGone p then s
    else
      let s := s.retire p
      { s with rel := { s.rel with first := s.rel.first ++ [{ kernel := p, why := 1 }] } }

/-- UE_KERNEL (R464, R467): a kernel reads an uncorrectable word of its code (0) or data (1) memory. -/
def execUeKernel (t : Instant) (pod k mem word : Nat) (s : State) : Res :=
  let s := s.start t
  .next (s.doIf (s.sealed && decide (pod < 24) && decide (k < 16) && decide (mem < 2)) (·.kernelWord (16 * pod + k) mem word))

/-! ## Scrubbing (R468 to R470) -/

/-- The key of a word in the count of consecutive corrections. -/
def wordKey (mem pod unit word : Nat) : Nat := ((mem * 32 + pod) * 16 + unit) * 2 ^ 19 + word

/-- The scrub pass that runs, counted from 1 at SEAL: kernel memories and block SRAM take SCRUB_PER, the shared store four times as long (R468).
Mark: DEDUCED (log 128). -/
def State.scrubPass (s : State) (mem : Nat) : Nat :=
  let per := s.f R.REL_CTL_SCRUB_PER * secQ * (if mem = 2 then 4 else 1)
  (s.now - s.clk.ungatedAt.getD 0) / per + 1

/-- A corrected word: the third pass in a row is a hard error, and puts a kernel first in the background tests (R470). -/
def State.scrubFixed (s : State) (mem pod unit word : Nat) : State :=
  let x := kget (0, 0) s.rel.ceRun (wordKey mem pod unit word)
  let pass := s.scrubPass mem
  let n := if x.2 = pass then x.1 else if x.2 + 1 = pass then x.1 + 1 else 1
  let s := s.corrected mem pod unit word
  let s := { s with rel := { s.rel with ceRun := kset (0, 0) s.rel.ceRun (wordKey mem pod unit word) (n, pass) } }
  s.doIf (n == 3 && x.2 != pass) fun s =>
    let s := s.post E.CE_HARD (subject pod unit) (nw mem) (nw word)
    if mem < 2 then { s with rel := { s.rel with first := s.rel.first ++ [{ kernel := 16 * pod + unit, why := 0 }] } } else s

/-- An entry of the event log is gone. -/
def State.dropLog (s : State) (n : Nat) : State := { s with sys := { s.sys with log := s.sys.log.eraseIdx n } }

/-- The entry that holds an uncorrectable block SRAM word is discarded when its block reads it (Table 16.1, R533): an event log entry by its
place, a descriptor by its tag. Mark: DEDUCED (log 31). -/
def State.discardEntry (s : State) (block entry : Nat) : State :=
  if block = 0 then
    s.doIf (decide (entry < s.sys.log.length)) fun s => (s.incF R.SYS_EVT_LOST_LOST).dropLog entry
  else if block = 3 then s.dropDesc entry
  else s

/-- A scrub read finds an uncorrectable word: that of a kernel memory is as though the kernel had read it, any other is left and
reported. `entry` is the entry of a block SRAM that the block itself reads. Mark: DEDUCED (log 31). -/
def State.scrubBad (s : State) (mem pod unit word : Nat) (entry : Option Nat) : State :=
  if mem < 2 then s.kernelWord (16 * pod + unit) mem word
  else
    let s := (s.setB R.REL_STAT_UE_SEEN true).lastErr true mem pod unit word
    if mem = 2 then (s.storeBad (128 * word + 32 * unit)).post E.UE_STORE (subject unit) (nw (128 * word + 32 * unit))
    else
      let s := s.post E.UE_BLOCK (subject unit) (nw word)
      match entry with
      | some e => (s.incF R.REL_UE_CNT_UE).discardEntry unit e
      | none => s

/-- SCRUB_READ (R468 to R470): the scrubber reads a word with `errs` bits in error (R464). `other`: another write reaches the word in the cycle of the
write-back, which is then discarded (R469). Mark: DEDUCED (log 128). -/
def execScrubRead (t : Instant) (mem pod unit word errs : Nat) (other : Bool) (entry : Option Nat) (s : State) : Res :=
  let s := s.start t
  .next (s.doIf (s.relOn && (s.b R.REL_CTL_SCRUB_EN || entry.isSome) && decide (mem < 4)) fun s =>
    if errs = 0 ∨ (eccFixed errs ∧ other) then
      let s := s.doIf (eccFixed errs) (·.corrected mem pod unit word)
      { s with rel := { s.rel with ceRun := kset (0, 0) s.rel.ceRun (wordKey mem pod unit word) (0, 0) } }
    else if eccFixed errs then s.scrubFixed mem pod unit word
    else s.scrubBad mem pod unit word entry)

/-! ## Sealed set-up registers (R466) -/

/-- A register instance has a sealed set-up field. -/
def RegHit.isSealed (h : RegHit) : Bool := h.rd.fields.any fun f => f.acc == .rw && !f.rt

/-- The bits of the sealed fields of a register. -/
def RegHit.sealedBits (h : RegHit) : Word :=
  h.rd.fields.foldl (fun m f => if f.acc == .rw && !f.rt then m ||| nw ((2 ^ (f.hi + 1 - f.lo) - 1) * 2 ^ f.lo) else m) 0

/-- REGISTER_CHECK (R466): every 100 ms the sealed registers are compared with their copies. `found`: BAR0 addresses with the words that the registers
hold by then; one whose sealed bits differ is rewritten from the copy, the word that the state holds, and reported. Mark: DESIGN CHOICE (log 31). -/
def execRegisterCheck (t : Instant) (found : List (Nat × Word)) (s : State) : Res :=
  let s := s.start t
  .next (s.doIf (s.relOn && decide (s.rel.checkAt + 100 * msQ ≤ s.now)) fun s =>
    let s := { s with rel := { s.rel with checkAt := s.now } }
    found.foldl (fun s a =>
      match findReg a.1 0 with
      | some h => s.doIf (h.isSealed && (a.2 ^^^ s.word h.blk h.key) &&& h.sealedBits != 0) (·.post E.REG_RESTORED (subject (a.1 % 0x10000 / 4) h.blk.num))
      | none => s) s)

/-! ## Background tests (R474 to R477) -/

/-- BIST_PER in steps of 250 ps. -/
def State.walkPeriod (s : State) : Nat := s.f R.REL_CTL_BIST_PER * 3600 * secQ

/-- A walk moves to its next kernel; the next walk is spaced from the end of this one's period, or from now if that has passed. Mark: DEDUCED
(log 131). -/
def State.walkOn (s : State) : State :=
  if s.rel.walk + 1 < 384 then { s with rel := { s.rel with walk := s.rel.walk + 1 } }
  else (({ s with rel := { s.rel with walk := 0, walkAt := max s.now (s.rel.walkAt + s.walkPeriod) } }).incF R.REL_BIST_WALKS)

/-- The tests of a walk are spaced evenly over BIST_PER: the place that the walk has come to is due (R474). Mark: DEDUCED (log 131). -/
def State.walkDue (s : State) : Bool := decide (s.rel.walkAt + s.rel.walk * s.walkPeriod / 384 ≤ s.now)

/-- The physical kernel at a place of the walk, if the walk covers it: IDLE/SPARE, LOOP and SAFETY kernels that are backed (a safety pair
once, at its leader), and the physical spares. -/
def State.walkKernel (s : State) (w : Nat) : Option Nat :=
  if w < 360 then
    let k := 16 * (w / 15) + w % 15
    let r := s.role k
    if !s.backed k then none
    else if r = roleIdle ∨ r = roleLoop then s.physOf k
    else if r = roleSafety then
      (if 12 ≤ s.f R.SAFE_CYCLE_SPLIT_MAX && (s.safetyKernels (k / 16)).idxOf (k % 16) % 2 == 0 then s.physOf k else none)
    else none
  else s.spareOf (w - 360)

/-- Step the walk to the next kernel it covers, and past it. -/
def State.nextWalk (s : State) : Nat → State × Option Nat
  | 0 => (s, none)
  | n + 1 =>
    match s.walkKernel s.rel.walk with
    | some p => (s.walkOn, some p)
    | none => s.walkOn.nextWalk n

/-- REL selects a physical kernel for a test (Table 16.2, R476). -/
def State.selectTest (s : State) (r : TestReq) : State :=
  match s.logicalOf r.kernel with
  | none => s.beginTests [r]
  | some k =>
    let role := s.role k
    if s.isGone r.kernel ∨ role = roleIdle then s.beginTests [r]
    else if role = roleLoop then
      match s.idleOf (k / 16), s.ctxsOn k with
      | some j, c :: _ =>
        let s := ((s.setF R.REL_BIST_PHASE 1).setF R.REL_BIST_POD (k / 16)).setF R.REL_BIST_K (r.kernel % 16)
        let s := s.setMoving (some (k, j)) 0
        let m := freeMig c k j
        if s.loop.mig.isNone then s.beginMig m else s.queueMig m
      | _, _ => s.skipTest k
    else if role = roleSafety then
      match s.pairOf r.kernel with
      | some q =>
        let s := s.splitRequest q
        if s.pairState q = spDraining then
          let ks := s.safetyKernels (k / 16)
          let ps := [2 * (q % 2), 2 * (q % 2) + 1].filterMap fun i => (ks[i]?).bind fun x => s.physOf (16 * (k / 16) + x)
          let s := s.beginTests (ps.map fun p => { kernel := p, why := 0 })
          { s with rel := { s.rel with pair := some q, pairBad := false } }
        else s.endTest
      | none => s.endTest
    else s.endTest

/-- Nothing of a test is under way. -/
def State.testIdle (s : State) : Bool := s.rel.testing.isEmpty && s.rel.moving.isNone && s.rel.pair.isNone

/-- The next test: those due at once, an OEM request, the walk. Mark: DEDUCED (log 131). -/
def State.nextTest (s : State) : State :=
  match s.rel.first with
  | r :: rs => { s with rel := { s.rel with first := rs } }.selectTest r
  | [] =>
    match s.rel.asked with
    | some k =>
      let s := { s with rel := { s.rel with asked := none, askedNow := true } }
      match s.physOf k with
      | some p => s.selectTest { kernel := p, why := 0 }
      | none => s.endTest
    | none =>
      if s.b R.REL_CTL_BIST_EN && s.walkDue then
        match s.nextWalk 384 with
        | (s, some p) => s.selectTest { kernel := p, why := 0 }
        | (s, none) => s
      else s

/-- BACKGROUND_TEST (R474): REL selects the next kernel. -/
def execBackgroundTest (t : Instant) (s : State) : Res :=
  let s := s.start t
  .next (s.doIf (s.relOn && s.testIdle) (·.nextTest))

/-- A kernel outside a safety pair passes: one that failed only by an uncorrectable word becomes the pod's spare again, the source of a
suspect migration is tested next. -/
def State.testPassed (s : State) (r : TestReq) : State :=
  if s.isGone r.kernel then
    let l := s.logicalOf r.kernel
    let s := (s.setGone r.kernel 0).doIf (l.any fun k => s.role k != roleSafety) fun s => s.setBacking (l.getD 0) none
    (s.post E.KERNEL_RESTORED (kernelSubject r.kernel)).showPods
  else
    match r.src.bind s.physOf with
    | some p => { s with rel := { s.rel with first := { kernel := p, why := 0 } :: s.rel.first } }
    | none => s

/-- A kernel of a split safety pair has been tested (R476). -/
def State.pairTested (s : State) (q : Nat) (r : TestReq) (pass chaffOk : Bool) : State :=
  let left := s.rel.testing.filter (· != r)
  let bad := s.rel.pairBad || !pass
  let s := s.doIf (!pass) (·.mapOut r.kernel)
  let s := { s with rel := { s.rel with testing := left, pairBad := bad } }
  if !left.isEmpty then s
  else if bad then s.endTest
  else (s.setF R.REL_BIST_PHASE 3).rejoinRequest q chaffOk

/-- KERNEL_TEST_DONE (R475, R476): both tests of a physical kernel end. `chaffOk`: the chaff test of the pair's rejoin. -/
def execKernelTestDone (t : Instant) (pod k : Nat) (pass chaffOk : Bool) (s : State) : Res :=
  let s := s.start t
  .next (match s.rel.testing.find? fun r => r.kernel == 16 * pod + k with
    | none => s
    | some r =>
      match s.rel.pair with
      | some q => s.doIf (s.relOn && s.pairState q == spSplit) (·.pairTested q r pass chaffOk)
      | none =>
        s.doIf s.relOn fun s =>
          let s := if pass then s.testPassed r else (s.retire r.kernel).mapOut r.kernel
          s.endTest)

/-! ## A test that OEM requests (R479) -/

/-- The RESULT a request is refused with. -/
def State.testRefusal (s : State) (pod lk : Nat) : Option Nat :=
  let k := 16 * pod + lk
  let r := s.role k
  if s.rel.asked.isSome || s.rel.askedNow then some 1
  else if 24 ≤ pod ∨ 15 ≤ lk then some 3
  else if r = roleLoop then (if (s.idleOf pod).isNone then some 2 else none)
  else if r = roleIdle then (if s.backed k then none else some 2)
  else if r = roleSafety then (if 12 ≤ s.f R.SAFE_CYCLE_SPLIT_MAX then none else some 2)
  else some 2

/-- TEST (R479): a write that sets REL_CMD.TEST. -/
def execTest (t : Instant) (fn : Nat) (data : Word) (s : State) : Res :=
  match (s.start t).actionWrite fn R.REL_CMD_TEST data with
  | (s, go) => .next (s.doIf go fun s =>
      let pod := s.f R.REL_CMD_POD
      let lk := s.f R.REL_CMD_LK
      match s.testRefusal pod lk with
      | some r => (s.setF R.REL_CMD_RESULT r).setB R.REL_CMD_DONE true
      | none => { s.setF R.REL_CMD_RESULT 0 with rel := { s.rel with asked := some (16 * pod + lk) } })

/-! ## Aging and life (R480, R481) -/

/-- SLOW in 0.01 % steps from the counts of the stressed and the reference oscillator; a pod that is faster than its reference shows 0. Mark: DEDUCED (log 130). -/
def slowOf (fs fr : Nat) : Nat := if fr = 0 then 0 else satN 12 ((fr - fs) * 10000 / fr)

/-- AGE_MEASURE (R480): once per hour; `counts` are the stressed and reference counts of the pods. The hour's link counts start anew. -/
def execAgeMeasure (t : Instant) (counts : List (Nat × Nat)) (s : State) : Res :=
  let s := s.start t
  .next (s.doIf (s.relOn && decide (s.rel.ageAt + 3600 * secQ ≤ s.now)) fun s =>
    let s := { s with rel := { s.rel with ageAt := s.now, wires := [] } }
    let s := (List.range 148).foldl (fun s l => s.setF R.REL_LINK_CE_HOUR 0 l) s
    (counts.zipIdx.take 24).foldl (fun s x =>
      let n := x.2
      let slow := slowOf x.1.1 x.1.2
      let s := s.setF R.REL_AGE_SLOW slow n
      let warn := decide (s.f R.REL_THR_AGE_WARN * 10 ≤ slow)
      let s := if warn then (s.doIf (!s.b R.REL_AGE_WARN n) (·.setB R.REL_STAT_AGE_SEEN true)).raise R.REL_AGE_WARN n E.AGE_WARN (subject n)
        else s.setB R.REL_AGE_WARN false n
      if s.f R.REL_THR_AGE_LIMIT * 10 ≤ slow then s.raise R.REL_AGE_LIMIT n E.AGE_LIMIT (subject n) else s.setB R.REL_AGE_LIMIT false n) s)

/-- AF(Tj) for a junction temperature in °C. Mark: DESIGN CHOICE (log 129). -/
def arrhenius (tj : Rat) : Rat := Config.exp (81235 / 10 * (100 / 35815 - 1 / (tj + 27315 / 100)))

/-- REL_LIFE at which DEVICE_LIFE is posted: 0.9 × 553,748 h, in s. -/
def lifeWarnSec : Rat := 9 / 10 * 553748 * 3600

/-- LIFE_COUNT (R481): every second; `tj` are the four sensors in steps of 0.125 °C. Mark: DESIGN CHOICE (log 129). -/
def execLifeCount (t : Instant) (tj : List Int) (s : State) : Res :=
  let s := s.start t
  .next (match tj with
    | [] => s
    | a :: as =>
      s.doIf (s.relOn && decide (s.rel.lifeAt + secQ ≤ s.now)) fun s =>
        let m := as.foldl max a
        let old := s.rel.life
        let life := old + arrhenius ((m : Rat) / 8)
        let top := if s.rel.tjSeen then max m (signed 16 (s.f R.REL_TJ_TJ_MAX)) else m
        let s := { s with rel := { s.rel with life := life, tjSeen := true, lifeAt := s.now } }
        let s := (s.setF R.REL_TJ_TJ_NOW (unsignedOf 16 m)).setF R.REL_TJ_TJ_MAX (unsignedOf 16 top)
        let s := s.setF R.REL_LIFE_HOURS (satN 32 (life / 3600).floor.toNat)
        s.doIf (decide (old < lifeWarnSec) && decide (lifeWarnSec ≤ life)) (·.post E.DEVICE_LIFE))

end Sys2Proof.Machine
end

