-- ==== Sys2Proof/Machine/Ticks.lean ====
section
/-! DEFINITION. The ticks that drive the plant side: carrier events, starts of carriers, reference edges and NTIME generator events
(R62, R94, R113, R224, R225, R228). -/
namespace Sys2Proof.Machine

/-- What a carrier event of a bridge means to the parts that follow carriers: measurement windows and sequences, excitation,
captures and context triggers, slot by slot. AUX carriers have no followers. -/
def State.carrierFollowers (s : State) (B z len : Nat) (zero : Bool) : State :=
  if 24 ≤ B then s
  else
    (s.bridgeSlots B).foldl (fun s T =>
      let s := (s.measCarrier T z zero).excCarrier T z len
      (s.captureCarrier T zero).triggersCarrier T z zero) s

/-- A carrier event (R224): edges before it, SOFT_OFF and release of the target, the turn, and what follows it. -/
def State.carrierEvent (s : State) (B e : Nat) (zero : Bool) : State :=
  let s := (s.advance B (e * 8 - 1)).softEvent B
  let s := s.doIf zero (·.releaseAtZero B e)
  let s := s.turnCarrier B
  let len := match (s.carrier B).hp with
    | some h => h.len
    | none => 0
  ((s.carrierFollowers B e len zero).bcSync).settle

/-- CARRIER_EVENT: the carrier of slot or bridge `T` reaches its zero or peak event. -/
def execCarrierEvent (t : Instant) (T : Nat) (s : State) : Res :=
  let s := s.start t
  .next (if s.sealed && decide (T < 28) && s.bridge T == T then
    match s.nextCarrier T with
    | some (e, zero) => s.doIf (decide (e ≤ s.pwmTime)) (·.carrierEvent T e zero)
    | none => s
  else s)

/-- SLOT_STARTED (R225): an enabled carrier starts at the first scheduled zero event 10 µs after EN took effect. -/
def execSlotStarted (t : Instant) (T : Nat) (s : State) : Res :=
  let s := s.start t
  .next (if s.sealed && decide (T < 28) && s.bridge T == T && s.targetEn T && s.topo T != topoOff && (s.carrier T).hp.isNone then
    let z := s.nextZero T (s.pwm.enTick + 5000) (s.top T)
    s.doIf (decide (z ≤ s.pwmTime)) fun s =>
      (((s.startCarrier T z).carrierFollowers T z (s.top T) true).bcSync).settle
  else s)

/-- REFERENCE_EDGE (R228): edges, turn-ons and delayed pins of a bridge up to now, within its half-period. -/
def execReferenceEdge (t : Instant) (T : Nat) (s : State) : Res :=
  let s := s.start t
  .next (if s.sealed && decide (T < 28) then
    let B := s.bridge T
    let q := match s.nextCarrier B with
      | some (e, _) => min s.pwmQ (e * 8 - 1)
      | none => s.pwmQ
    (s.advance B q).settle
  else s)

/-- NTIME_GENERATOR_EVENT (R62): generator `k` reaches PHASE plus a multiple of PERIOD, once for each. -/
def execNtimeGeneratorEvent (t : Instant) (k : Nat) (s : State) : Res :=
  let s := s.start t
  .next (if s.sealed then
    match s.ntevDue k with
    | some m =>
      let s := (s.ntevMark k m).measNtev k
      ((((s.captureNtev k).triggersNtev k s.pwmTime)).bcSync).settle
    | none => s
  else s)

end Sys2Proof.Machine
end

