-- ==== Sys2Proof/Machine/Upd.lean ====
section
/-! DEFINITION. Updates of the slots at run time: update, verification of a slot, revocation (R360 to R363). -/
namespace Sys2Proof.Machine

/-- The slot in force, if one is. -/
def State.slotInForce (s : State) : Option Nat :=
  if s.b R.CFG_STAT_SEALED && s.f R.CFG_STAT_SLOT != 0 then some (s.f R.CFG_STAT_SLOT - 1) else none

/-- The target of an update (R360, step 3). -/
def State.updTarget (s : State) : Nat :=
  match s.slotInForce with
  | some k => 1 - k
  | none => if slotValid (s.slotHdr 0) && !slotValid (s.slotHdr 1) then 1 else 0

/-- An image without its MAGIC. -/
def unmarked (im : SlotImage) : SlotImage := { im with hdr := { im.hdr with magic := 0 } }

/-- A slot's flash is written: its header is invalid, and a VERIFY result of it no longer counts (R362). -/
def State.spoilSlot (s : State) (k : Nat) (im : SlotImage) : State :=
  let s := s.setSlot k (unmarked im)
  { s with cfg := { s.cfg with verified := s.cfg.verified.filter (· != k) } }

/-- The RESULT that refuses START of an image, if one does (R361); `none` as image: the bus-master read of its header fails. -/
def State.startRefusal (s : State) (im : Option SlotImage) : Option Nat :=
  if s.cfg.job.isSome then some 0xF
  else
    match im.map (·.hdr) with
    | none => some 0xC
    | some h =>
      if 0x1000000 < s.f R.CFG_UPD_LEN_LEN ∨ s.f R.CFG_UPD_LEN_LEN ≠ h.len then some 0xB
      else if s.slotInForce.elim false (fun k => decide (h.seq ≤ (s.slotHdr k).seq)) then some 0xA
      else if h.svn < s.f R.HUSK_SVN_IMG_SVN then some 2
      else none

/-- A command of CFG_UPD_CTL is refused. -/
def State.refuseUpd (s : State) (k result : Nat) : State := (s.setF R.CFG_UPD_STAT_RESULT result).post E.UPD_FAIL (subject k) (nw result)

/-- PF0 may read host memory. -/
def State.pf0Reads (s : State) : Bool := s.hostq.linkUp && s.hostq.bme.testBit 0

/-- START, past the checks of the access. -/
def State.beginUpdate (s : State) (im : Option SlotImage) : State :=
  let k := s.updTarget
  match s.startRefusal im, im with
  | none, some i =>
    let s := ((s.setF R.CFG_UPD_STAT_PHASE 1).setF R.CFG_UPD_STAT_TARGET k).setF R.CFG_UPD_STAT_PCT 0
    let s := { s with cfg := { s.cfg with job := some { verify := false, slot := k, img := i } } }
    (s.spoilSlot k {}).post E.UPD_START (subject k)
  | r, _ => s.refuseUpd k (r.getD 0xC)

/-- START (R360, R361): `im` is the image in host memory, as far as CFG could read its header. Mark: DEDUCED (log 102), DEDUCED (log 104), DESIGN CHOICE (log 105). -/
def execStart (t : Instant) (fn : Nat) (data : Word) (im : Option SlotImage) (s : State) : Res :=
  match (s.start t).actionWrite fn R.CFG_UPD_CTL_START data with
  | (s, go) => .next (s.doIf go (·.beginUpdate (if s.pf0Reads then im else none)))

/-- An update is in this phase. -/
def State.updating (s : State) (phase : Nat) : Bool :=
  s.alive && s.f R.CFG_UPD_STAT_PHASE == phase && s.cfg.job.any fun j => !j.verify

/-- UPDATE_ERASE_DONE (R360): the target is blank and programming begins, or the erase fails. -/
def execUpdateEraseDone (t : Instant) (ok : Bool) (s : State) : Res :=
  let s := s.start t
  .next (s.doIf (s.updating 1) fun s => if ok then s.setF R.CFG_UPD_STAT_PHASE 2 else s.failUpdate 0xD)

/-- The slot that the update in work writes gets the image it brings. -/
def State.writeJob (s : State) : State :=
  match s.cfg.job with
  | some j => s.spoilSlot j.slot j.img
  | none => s

/-- UPDATE_PROGRAM_DONE (R360): every byte but MAGIC is programmed and verification begins. `err`: 1 a bus-master read, 2 a flash program
has failed. Mark: DEDUCED (log 104). -/
def execUpdateProgramDone (t : Instant) (err : Nat) (s : State) : Res :=
  let s := s.start t
  .next (s.doIf (s.updating 2) fun s =>
    if err = 1 ∨ !s.pf0Reads then s.failUpdate 0xC
    else if err = 0 then
      (s.writeJob.setF R.CFG_UPD_STAT_PHASE 3).setF R.CFG_UPD_STAT_PCT 100
    else s.failUpdate 0xD)

/-- What verification makes of an image: the husk's result, or 8 where a check of R357 fails. -/
def State.updResult (s : State) (im : SlotImage) : Nat :=
  let r := s.verifyResult im
  if r = 0 ∧ (!slotValid im.hdr ∨ s.imageFails im) then 8 else r

/-- UPDATE_VERIFY_DONE (R360, R361): on success MAGIC is programmed, and the slot is valid. Mark: DESIGN CHOICE (log 103). -/
def execUpdateVerifyDone (t : Instant) (s : State) : Res :=
  let s := s.start t
  .next (match s.cfg.job with
    | some j => s.doIf (s.updating 3) fun s =>
        let r := s.updResult j.img
        if r != 0 then s.failUpdate r
        else
          let s := { s.setSlot j.slot j.img with cfg := { (s.setSlot j.slot j.img).cfg with job := none } }
          (((s.setF R.CFG_UPD_STAT_PHASE 5).setF R.CFG_UPD_STAT_RESULT 0).setB R.CFG_UPD_STAT_DONE true).post E.UPD_DONE (subject j.slot)
    | none => s)

/-- UPDATE_ABORT (R361): an OEM ABORT ends a running update. -/
def execUpdateAbort (t : Instant) (fn : Nat) (data : Word) (s : State) : Res :=
  match (s.start t).actionWrite fn R.CFG_UPD_CTL_ABORT data with
  | (s, go) => .next (s.doIf (go && s.cfg.job.any fun j => !j.verify) (·.failUpdate 0xE))

/-- VERIFY (R362) of the slot that SLOT names. Mark: DESIGN CHOICE (log 103). -/
def execVerify (t : Instant) (fn : Nat) (data : Word) (s : State) : Res :=
  match (s.start t).actionWrite fn R.CFG_UPD_CTL_VERIFY data with
  | (s, go) => .next (s.doIf go fun s =>
      let k := s.f R.CFG_UPD_CTL_SLOT
      if s.cfg.job.isSome then s.refuseUpd k 0xF
      else { s with cfg := { s.cfg with job := some { verify := true, slot := k, img := s.slotImg k } } })

/-- SLOT_VERIFIED (R362): the result stands in CFG_SLOT_STAT. Mark: DESIGN CHOICE (log 103). -/
def execSlotVerified (t : Instant) (s : State) : Res :=
  let s := s.start t
  .next (match s.cfg.job with
    | some j => s.doIf (s.alive && j.verify) fun s =>
        let r := if slotValid j.img.hdr then s.updResult j.img else 9
        let s := (s.setSlotResult j.slot r).setB R.CFG_UPD_STAT_DONE true
        let v := s.cfg.verified.filter (· != j.slot)
        let s := { s with cfg := { s.cfg with job := none, verified := if r = 0 then j.slot :: v else v } }
        s.post E.SLOT_VERIFIED (subject j.slot) (nw r)
    | none => s)

/-- REVOKE is refused (R362). -/
def State.revokeRefused (s : State) (k : Nat) : Bool := s.cfg.job.isSome || s.slotInForce == some k && !s.cfg.verified.contains (1 - k)

/-- REVOKE (R362) of the slot that SLOT names. -/
def execRevoke (t : Instant) (fn : Nat) (data : Word) (s : State) : Res :=
  match (s.start t).actionWrite fn R.CFG_UPD_CTL_REVOKE data with
  | (s, go) => .next (s.doIf go fun s =>
      let k := s.f R.CFG_UPD_CTL_SLOT
      if s.revokeRefused k then s.refuseUpd k 0xF
      else ((s.spoilSlot k (s.slotImg k)).setB R.CFG_UPD_STAT_DONE true).post E.SLOT_REVOKED (subject k))

end Sys2Proof.Machine
end

