-- ==== Sys2Proof/Machine/Dispatch.lean ====
section
/-! DEFINITION. One arm per command: a direct call of its meaning. -/
namespace Sys2Proof.Machine

/-- What a command does: its meaning, or a refusal by name while it has none. -/
def exec (i : Instr) (s : State) : Host.Outcome State Fault Refusal :=
  match i with
  | .registerWrite t fn addr data => Sys2Proof.Machine.execRegisterWrite t fn addr data s
  | .misalignedAccess t fn addr len write => Sys2Proof.Machine.execMisalignedAccess t fn addr len write s
  | .reservedAddressAccess t fn addr write => Sys2Proof.Machine.execReservedAddressAccess t fn addr write s
  | .pwmTimeLo t fn => Sys2Proof.Machine.execPwmTimeLo t fn s
  | .netNtimeLo t fn => Sys2Proof.Machine.execNetNtimeLo t fn s
  | .sysEvtSeqLo t fn => Sys2Proof.Machine.execSysEvtSeqLo t fn s
  | .sysEvtOldLo t fn => Sys2Proof.Machine.execSysEvtOldLo t fn s
  | .flitSend t router k dst payload => Sys2Proof.Machine.execFlitSend t router k dst payload s
  | .flitReceive t l e1 e2 => Sys2Proof.Machine.execFlitReceive t l e1 e2 s
  | .strd t router k addr errs => Sys2Proof.Machine.execStrd t router k addr errs s
  | .stwr t router k addr mask data => Sys2Proof.Machine.execStwr t router k addr mask data s
  | .samplingInstant t n vin inj => Sys2Proof.Machine.execSamplingInstant t n vin inj s
  | .conversionPhaseEnd t n => Sys2Proof.Machine.execConversionPhaseEnd t n s
  | .conversionEnd t n => Sys2Proof.Machine.execConversionEnd t n s
  | .calibrationDone t => Sys2Proof.Machine.execCalibrationDone t s
  | .injectedTrigger t n => Sys2Proof.Machine.execInjectedTrigger t n s
  | .sdConversionEnd t n clk pin => Sys2Proof.Machine.execSdConversionEnd t n clk pin s
  | .sdProtectionOutput t n clk pin => Sys2Proof.Machine.execSdProtectionOutput t n clk pin s
  | .sdStuck t n => Sys2Proof.Machine.execSdStuck t n s
  | .sdResumed t n => Sys2Proof.Machine.execSdResumed t n s
  | .ntimeGeneratorEvent t k => Sys2Proof.Machine.execNtimeGeneratorEvent t k s
  | .pairFaultClear t fn data => Sys2Proof.Machine.execPairFaultClear t fn data s
  | .quadEdge t n a b ta tb => Sys2Proof.Machine.execQuadEdge t n a b ta tb s
  | .indexLatch t n a b ta tb tz => Sys2Proof.Machine.execIndexLatch t n a b ta tb tz s
  | .hallTransition t n h tu tv tw => Sys2Proof.Machine.execHallTransition t n h tu tv tw s
  | .serialFrameEnd t n raw check lineDly nE nW ready => Sys2Proof.Machine.execSerialFrameEnd t n raw check lineDly nE nW ready s
  | .serTimeout t n ready => Sys2Proof.Machine.execSerTimeout t n ready s
  | .excFault t n => Sys2Proof.Machine.execExcFault t n s
  | .lossClear t fn n data => Sys2Proof.Machine.execLossClear t fn n data s
  | .inputArrival t c p => Sys2Proof.Machine.execInputArrival t c p s
  | .inputDeadline t c => Sys2Proof.Machine.execInputDeadline t c s
  | .evaluation t c law => Sys2Proof.Machine.execEvaluation t c law s
  | .cmpwArrival t f => Sys2Proof.Machine.execCmpwArrival t f s
  | .compareEffective t T => Sys2Proof.Machine.execCompareEffective t T s
  | .wdExpired t T => Sys2Proof.Machine.execWdExpired t T s
  | .ctxFaultClear t fn c data => Sys2Proof.Machine.execCtxFaultClear t fn c data s
  | .paramTransaction t c dom setp apply tag words => Sys2Proof.Machine.execParamTransaction t c dom setp apply tag words s
  | .migLoadDone t => Sys2Proof.Machine.execMigLoadDone t s
  | .migVerify t parts dst => Sys2Proof.Machine.execMigVerify t parts dst s
  | .snapshotDeadline t => Sys2Proof.Machine.execSnapshotDeadline t s
  | .forcedMigration t c => Sys2Proof.Machine.execForcedMigration t c s
  | .coastTimeout t c => Sys2Proof.Machine.execCoastTimeout t c s
  | .ascHold t c => Sys2Proof.Machine.execAscHold t c s
  | .dischTimeout t c => Sys2Proof.Machine.execDischTimeout t c s
  | .alignEnd t x => Sys2Proof.Machine.execAlignEnd t x s
  | .commutation t x => Sys2Proof.Machine.execCommutation t x s
  | .zeroCross t x samples => Sys2Proof.Machine.execZeroCross t x samples s
  | .rampEnd t x => Sys2Proof.Machine.execRampEnd t x s
  | .bcStall t x => Sys2Proof.Machine.execBcStall t x s
  | .bcRetry t x => Sys2Proof.Machine.execBcRetry t x s
  | .cmdAnalogueConversion t vin => Sys2Proof.Machine.execCmdAnalogueConversion t vin s
  | .cmdDutyEdge t wave => Sys2Proof.Machine.execCmdDutyEdge t wave s
  | .cmdFrequencyGate t wave => Sys2Proof.Machine.execCmdFrequencyGate t wave s
  | .cmdStatic t wave => Sys2Proof.Machine.execCmdStatic t wave s
  | .gridReturn t c => Sys2Proof.Machine.execGridReturn t c s
  | .rtTrip t c => Sys2Proof.Machine.execRtTrip t c s
  | .blockEnd t c => Sys2Proof.Machine.execBlockEnd t c s
  | .resyncTimeout t c => Sys2Proof.Machine.execResyncTimeout t c s
  | .prechargeFail t c => Sys2Proof.Machine.execPrechargeFail t c s
  | .mainSettled t c => Sys2Proof.Machine.execMainSettled t c s
  | .bmsStale t c => Sys2Proof.Machine.execBmsStale t c s
  | .carrierEvent t T => Sys2Proof.Machine.execCarrierEvent t T s
  | .slotStarted t T => Sys2Proof.Machine.execSlotStarted t T s
  | .faultReturn t ch level since => Sys2Proof.Machine.execFaultReturn t ch level since s
  | .bootUv t x k => Sys2Proof.Machine.execBootUv t x k s
  | .bootUvRelease t x k => Sys2Proof.Machine.execBootUvRelease t x k s
  | .vdsFault t x ix since v => Sys2Proof.Machine.execVdsFault t x ix since v s
  | .vgdUv t => Sys2Proof.Machine.execVgdUv t s
  | .vgdUvRelease t => Sys2Proof.Machine.execVgdUvRelease t s
  | .stoMaskEnd t => Sys2Proof.Machine.execStoMaskEnd t s
  | .tripLatchClear t fn data => Sys2Proof.Machine.execTripLatchClear t fn data s
  | .shortClear t fn mls data => Sys2Proof.Machine.execShortClear t fn mls data s
  | .cmpTrip t c ain since v => Sys2Proof.Machine.execCmpTrip t c ain since v s
  | .lifeRecord t T r span => Sys2Proof.Machine.execLifeRecord t T r span s
  | .lifeStep t => Sys2Proof.Machine.execLifeStep t s
  | .lifeSave t => Sys2Proof.Machine.execLifeSave t s
  | .safetyCycleStart t rcA rcB link => Sys2Proof.Machine.execSafetyCycleStart t rcA rcB link s
  | .safetyEvaluation t p => Sys2Proof.Machine.execSafetyEvaluation t p s
  | .safetyResult t p => Sys2Proof.Machine.execSafetyResult t p s
  | .lockstepMismatch t p => Sys2Proof.Machine.execLockstepMismatch t p s
  | .faultMessage t h => Sys2Proof.Machine.execFaultMessage t h s
  | .crossLinkLoss t h => Sys2Proof.Machine.execCrossLinkLoss t h s
  | .split t fn data => Sys2Proof.Machine.execSplit t fn data s
  | .splitDone t p crcLead crcShadow => Sys2Proof.Machine.execSplitDone t p crcLead crcShadow s
  | .rejoin t fn data chaffOk => Sys2Proof.Machine.execRejoin t fn data chaffOk s
  | .rejoinDone t p => Sys2Proof.Machine.execRejoinDone t p s
  | .splitTimeout t p => Sys2Proof.Machine.execSplitTimeout t p s
  | .chaffTestDone t failed => Sys2Proof.Machine.execChaffTestDone t failed s
  | .sinChange t h ix level since => Sys2Proof.Machine.execSinChange t h ix level since s
  | .sinDiscrepancy t ix => Sys2Proof.Machine.execSinDiscrepancy t ix s
  | .srstPress t level since => Sys2Proof.Machine.execSrstPress t level since s
  | .srstRelease t level since => Sys2Proof.Machine.execSrstRelease t level since s
  | .rstStuck t => Sys2Proof.Machine.execRstStuck t s
  | .readbackSample t h pads => Sys2Proof.Machine.execReadbackSample t h pads s
  | .testPulseStart t k => Sys2Proof.Machine.execTestPulseStart t k s
  | .testPulseEnd t k rb5 rb20 => Sys2Proof.Machine.execTestPulseEnd t k rb5 rb20 s
  | .testMissed t k => Sys2Proof.Machine.execTestMissed t k s
  | .psetTimeout t => Sys2Proof.Machine.execPsetTimeout t s
  | .pwLockoutEnd t slot => Sys2Proof.Machine.execPwLockoutEnd t slot s
  | .req t fn data => Sys2Proof.Machine.execReq t fn data s
  | .challengeReady t fn => Sys2Proof.Machine.execChallengeReady t fn s
  | .submit t fn data => Sys2Proof.Machine.execSubmit t fn data s
  | .responseVerified t fn => Sys2Proof.Machine.execResponseVerified t fn s
  | .challengeTimeout t fn => Sys2Proof.Machine.execChallengeTimeout t fn s
  | .close t fn data => Sys2Proof.Machine.execClose t fn data s
  | .sessionIdleTimeout t fn => Sys2Proof.Machine.execSessionIdleTimeout t fn s
  | .sessionLockEnd t fn => Sys2Proof.Machine.execSessionLockEnd t fn s
  | .kdbg t fn data => Sys2Proof.Machine.execKdbg t fn data s
  | .vtest t fn data => Sys2Proof.Machine.execVtest t fn data s
  | .give t fn data => Sys2Proof.Machine.execGive t fn data s
  | .withdraw t fn data => Sys2Proof.Machine.execWithdraw t fn data s
  | .consentExpiry t => Sys2Proof.Machine.execConsentExpiry t s
  | .fuse t fn data verified => Sys2Proof.Machine.execFuse t fn data verified s
  | .commit t fn data => Sys2Proof.Machine.execCommit t fn data s
  | .pwSet t fn data => Sys2Proof.Machine.execPwSet t fn data s
  | .pwDel t fn data => Sys2Proof.Machine.execPwDel t fn data s
  | .load t fn data => Sys2Proof.Machine.execLoad t fn data s
  | .delete t fn data => Sys2Proof.Machine.execDelete t fn data s
  | .sakRemoval t slot => Sys2Proof.Machine.execSakRemoval t slot s
  | .mkaFrame t p m => Sys2Proof.Machine.execMkaFrame t p m s
  | .erase t fn data => Sys2Proof.Machine.execErase t fn data s
  | .eraseDone t => Sys2Proof.Machine.execEraseDone t s
  | .resetRelease t b => Sys2Proof.Machine.execResetRelease t b s
  | .imageVerify t => Sys2Proof.Machine.execImageVerify t s
  | .sectionLoad t bad ofs => Sys2Proof.Machine.execSectionLoad t bad ofs s
  | .seal t => Sys2Proof.Machine.execSeal t s
  | .bootBistDone t failed => Sys2Proof.Machine.execBootBistDone t failed s
  | .ready t => Sys2Proof.Machine.execReady t s
  | .supplyLow t r mv since => Sys2Proof.Machine.execSupplyLow t r mv since s
  | .supplyOk t mvs since => Sys2Proof.Machine.execSupplyOk t mvs since s
  | .porstN t since => Sys2Proof.Machine.execPorstN t since s
  | .sysRst t fn data => Sys2Proof.Machine.execSysRst t fn data s
  | .perstN t since => Sys2Proof.Machine.execPerstN t since s
  | .start t fn data im => Sys2Proof.Machine.execStart t fn data im s
  | .updateEraseDone t ok => Sys2Proof.Machine.execUpdateEraseDone t ok s
  | .updateProgramDone t err => Sys2Proof.Machine.execUpdateProgramDone t err s
  | .updateVerifyDone t => Sys2Proof.Machine.execUpdateVerifyDone t s
  | .updateAbort t fn data => Sys2Proof.Machine.execUpdateAbort t fn data s
  | .verify t fn data => Sys2Proof.Machine.execVerify t fn data s
  | .slotVerified t => Sys2Proof.Machine.execSlotVerified t s
  | .revoke t fn data => Sys2Proof.Machine.execRevoke t fn data s
  | .ringEnable t fn cq q data => Sys2Proof.Machine.execRingEnable t fn cq q data s
  | .ringDisable t fn cq q data => Sys2Proof.Machine.execRingDisable t fn cq q data s
  | .ringDrained t fn q => Sys2Proof.Machine.execRingDrained t fn q s
  | .sqTailDoorbell t fn q data => Sys2Proof.Machine.execSqTailDoorbell t fn q data s
  | .cqHeadDoorbell t fn q data => Sys2Proof.Machine.execCqHeadDoorbell t fn q data s
  | .descriptorFetch t fn q bytes inner => Sys2Proof.Machine.execDescriptorFetch t fn q bytes inner s
  | .descriptorRelease t tag => Sys2Proof.Machine.execDescriptorRelease t tag s
  | .setpoint t tag => Sys2Proof.Machine.execSetpoint t tag s
  | .paramTxn t tag data logOk => Sys2Proof.Machine.execParamTxn t tag data logOk s
  | .schedule t tag => Sys2Proof.Machine.execSchedule t tag s
  | .scheduleFiring t tag => Sys2Proof.Machine.execScheduleFiring t tag s
  | .abort t tag => Sys2Proof.Machine.execAbort t tag s
  | .telemStream t tag => Sys2Proof.Machine.execTelemStream t tag s
  | .telemetrySample t tag data dmaOk => Sys2Proof.Machine.execTelemetrySample t tag data dmaOk s
  | .statsRead t tag data dmaOk => Sys2Proof.Machine.execStatsRead t tag data dmaOk s
  | .logFetch t tag dmaOk => Sys2Proof.Machine.execLogFetch t tag dmaOk s
  | .canTx t tag data => Sys2Proof.Machine.execCanTx t tag data s
  | .netTx t tag frame => Sys2Proof.Machine.execNetTx t tag frame s
  | .migrate t tag => Sys2Proof.Machine.execMigrate t tag s
  | .heartbeat t tag => Sys2Proof.Machine.execHeartbeat t tag s
  | .completion t fn q => Sys2Proof.Machine.execCompletion t fn q s
  | .irqTimer t fn q => Sys2Proof.Machine.execIrqTimer t fn q s
  | .ringError t fn cq q err => Sys2Proof.Machine.execRingError t fn cq q err s
  | .linkLoss t kind fn => Sys2Proof.Machine.execLinkLoss t kind fn s
  | .hostLost t fn => Sys2Proof.Machine.execHostLost t fn s
  | .frameReceive t p fcsOk sec time bytes => Sys2Proof.Machine.execFrameReceive t p fcsOk sec time bytes s
  | .ptpSync t p origin raw => Sys2Proof.Machine.execPtpSync t p origin raw s
  | .ptpAnnounce t p a => Sys2Proof.Machine.execPtpAnnounce t p a s
  | .ptpDelay t p t1 t2 t3 t4 => Sys2Proof.Machine.execPtpDelay t p t1 t2 t3 t4 s
  | .announceTimeout t p => Sys2Proof.Machine.execAnnounceTimeout t p s
  | .syncLoss t p => Sys2Proof.Machine.execSyncLoss t p s
  | .stepApplied t => Sys2Proof.Machine.execStepApplied t s
  | .stepForced t => Sys2Proof.Machine.execStepForced t s
  | .set t fn data => Sys2Proof.Machine.execSet t fn data s
  | .linkUp t p speed => Sys2Proof.Machine.execLinkUp t p speed s
  | .linkDown t p => Sys2Proof.Machine.execLinkDown t p s
  | .launch t q => Sys2Proof.Machine.execLaunch t q s
  | .launchDeadline t q => Sys2Proof.Machine.execLaunchDeadline t q s
  | .frameItem t router k tag desc ws => Sys2Proof.Machine.execFrameItem t router k tag desc ws s
  | .wakeSyncTimeout t => Sys2Proof.Machine.execWakeSyncTimeout t s
  | .wakeInstant t => Sys2Proof.Machine.execWakeInstant t s
  | .canFrameReceive t n id xtd fdf brs esi rtr bytes sof recTo => Sys2Proof.Machine.execCanFrameReceive t n id xtd fdf brs esi rtr bytes sof recTo s
  | .canItemDelivered t o => Sys2Proof.Machine.execCanItemDelivered t o s
  | .canTxItem t router k tag desc ws => Sys2Proof.Machine.execCanTxItem t router k tag desc ws s
  | .arbitrationStart t n dly => Sys2Proof.Machine.execArbitrationStart t n dly s
  | .canTxDone t n tdcv => Sys2Proof.Machine.execCanTxDone t n tdcv s
  | .canBusError t n kind dataPhase tx field plus exempt tdcv => Sys2Proof.Machine.execCanBusError t n kind dataPhase tx field plus exempt tdcv s
  | .recover t n fn data => Sys2Proof.Machine.execRecover t n fn data s
  | .recovered t n => Sys2Proof.Machine.execRecovered t n s
  | .referenceInstant t n => Sys2Proof.Machine.execReferenceInstant t n s
  | .canObjectEnable t o fn data => Sys2Proof.Machine.execCanObjectEnable t o fn data s
  | .refEn t n fn data => Sys2Proof.Machine.execRefEn t n fn data s
  | .refLost t ref gap edges => Sys2Proof.Machine.execRefLost t ref gap edges s
  | .refQualified t ref since => Sys2Proof.Machine.execRefQualified t ref since s
  | .lockLost t p errs => Sys2Proof.Machine.execLockLost t p errs s
  | .backupHop t p => Sys2Proof.Machine.execBackupHop t p s
  | .slotHop t p => Sys2Proof.Machine.execSlotHop t p s
  | .pllRelocked t p worst => Sys2Proof.Machine.execPllRelocked t p worst s
  | .bandCopy t p band code => Sys2Proof.Machine.execBandCopy t p band code s
  | .syncDone t => Sys2Proof.Machine.execSyncDone t s
  | .syncTimeout t => Sys2Proof.Machine.execSyncTimeout t s
  | .syncEdge t => Sys2Proof.Machine.execSyncEdge t s
  | .go t fn data => Sys2Proof.Machine.execGo t fn data s
  | .podClkChanged t => Sys2Proof.Machine.execPodClkChanged t s
  | .ueKernel t pod k mem word => Sys2Proof.Machine.execUeKernel t pod k mem word s
  | .scrubRead t mem pod unit word errs other entry => Sys2Proof.Machine.execScrubRead t mem pod unit word errs other entry s
  | .registerCheck t found => Sys2Proof.Machine.execRegisterCheck t found s
  | .backgroundTest t => Sys2Proof.Machine.execBackgroundTest t s
  | .kernelTestDone t pod k pass chaffOk => Sys2Proof.Machine.execKernelTestDone t pod k pass chaffOk s
  | .test t fn data => Sys2Proof.Machine.execTest t fn data s
  | .ageMeasure t counts => Sys2Proof.Machine.execAgeMeasure t counts s
  | .lifeCount t tj => Sys2Proof.Machine.execLifeCount t tj s
  | .tokenRequest t req => Sys2Proof.Machine.execTokenRequest t req s
  | .tokenWithdraw t req => Sys2Proof.Machine.execTokenWithdraw t req s
  | .tokenRefill t => Sys2Proof.Machine.execTokenRefill t s
  | .pwrTokCfg t fn data => Sys2Proof.Machine.execPwrTokCfg t fn data s
  | .eventWrite t => Sys2Proof.Machine.execEventWrite t s
  | .referenceEdge t T => Sys2Proof.Machine.execReferenceEdge t T s
  | .cmpRelease t c ain since v => Sys2Proof.Machine.execCmpRelease t c ain since v s
  | .vdsBlankedRising t x ix v => Sys2Proof.Machine.execVdsBlankedRising t x ix v s
  | .busMasterEnable t fn => Sys2Proof.Machine.execBusMasterEnable t fn s
  | .perstNRelease t => Sys2Proof.Machine.execPerstNRelease t s
  | .msixVectorUnmask t fn v => Sys2Proof.Machine.execMsixVectorUnmask t fn v s
  | .ptpMessageInterval t p kind => Sys2Proof.Machine.execPtpMessageInterval t p kind s
  | .frameTransmitEnd t p => Sys2Proof.Machine.execFrameTransmitEnd t p s
  | .protocolExceptionEnd t n => Sys2Proof.Machine.execProtocolExceptionEnd t n s
  | .mkaPeerTimeout t p send => Sys2Proof.Machine.execMkaPeerTimeout t p send s
  | .tapInstruction t ix cells => Sys2Proof.Machine.execTapInstruction t ix cells s

end Sys2Proof.Machine
end

