-- ==== Sys2Proof/WellFormed.lean ====
section
/-! DEFINITION. Well-formed commands: the operands that the manual's numbering admits (functions, units, channels, contexts, targets,
pods and kernels, rings, ports, slots). What stands outside these ranges is no command of the device. -/
namespace Sys2Proof

/-- A number of `n` bits. -/
def fits (n v : Nat) : Bool := decide (v < 2 ^ n)

/-- The operands of a command are in range. Mark: DESIGN CHOICE (log 5). -/
def Instr.wf : Instr → Bool
  | .registerWrite _ fn addr _ => decide (fn < 2) && fits 20 addr && addr % 4 == 0
  | .misalignedAccess _ fn addr len _ => decide (fn < 2) && fits 20 addr && decide (1 ≤ len) && decide (len ≤ 4096) && !(len == 4 && addr % 4 == 0)
  | .reservedAddressAccess _ fn addr _ => decide (fn < 2) && fits 20 addr && addr % 4 == 0
  | .pwmTimeLo _ fn => decide (fn < 2)
  | .netNtimeLo _ fn => decide (fn < 2)
  | .sysEvtSeqLo _ fn => decide (fn < 2)
  | .sysEvtOldLo _ fn => decide (fn < 2)
  | .flitSend _ router k _ _ => decide (router < 24) && decide (k < 15)
  | .flitReceive _ l _ _ => decide (l < 148)
  | .strd _ router k addr _ => decide (router < 24) && decide (k < 15) && decide (addr < 16777216)
  | .stwr _ router k addr _ _ => decide (router < 24) && decide (k < 15) && decide (addr < 16777216)
  | .samplingInstant _ n vin _ => decide (n < 24) && vin.length == 4
  | .conversionPhaseEnd _ n => decide (n < 24)
  | .conversionEnd _ n => decide (n < 24)
  | .calibrationDone _ => true
  | .injectedTrigger _ n => decide (n < 24)
  | .sdConversionEnd _ n _ _ => decide (n < 48)
  | .sdProtectionOutput _ n _ _ => decide (n < 48)
  | .sdStuck _ n => decide (n < 48)
  | .sdResumed _ n => decide (n < 48)
  | .ntimeGeneratorEvent _ k => decide (k < 8)
  | .pairFaultClear _ fn _ => decide (fn < 2)
  | .quadEdge _ n _ _ _ _ => decide (n < 8)
  | .indexLatch _ n _ _ _ _ _ => decide (n < 8)
  | .hallTransition _ n h _ _ _ => decide (n < 8) && decide (h < 8)
  | .serialFrameEnd _ n _ _ _ _ _ _ => decide (n < 8)
  | .serTimeout _ n _ => decide (n < 8)
  | .excFault _ n => decide (n < 8)
  | .lossClear _ fn n _ => decide (fn < 2) && decide (n < 8)
  | .inputArrival _ c _ => decide (c < 512)
  | .inputDeadline _ c => decide (c < 512)
  | .evaluation _ c _ => decide (c < 512)
  | .cmpwArrival _ _ => true
  | .compareEffective _ T => decide (T < 28)
  | .wdExpired _ T => decide (T < 28)
  | .ctxFaultClear _ fn c _ => decide (fn < 2) && decide (c < 512)
  | .paramTransaction _ c dom _ _ _ _ => decide (c < 512) && decide (dom < 8)
  | .migLoadDone _ => true
  | .migVerify _ _ _ => true
  | .snapshotDeadline _ => true
  | .forcedMigration _ c => decide (c < 512)
  | .coastTimeout _ c => decide (c < 512)
  | .ascHold _ c => decide (c < 512)
  | .dischTimeout _ c => decide (c < 512)
  | .alignEnd _ x => decide (x < 4)
  | .commutation _ x => decide (x < 4)
  | .zeroCross _ x _ => decide (x < 4)
  | .rampEnd _ x => decide (x < 4)
  | .bcStall _ x => decide (x < 4)
  | .bcRetry _ x => decide (x < 4)
  | .cmdAnalogueConversion _ _ => true
  | .cmdDutyEdge _ _ => true
  | .cmdFrequencyGate _ _ => true
  | .cmdStatic _ _ => true
  | .gridReturn _ c => decide (c < 512)
  | .rtTrip _ c => decide (c < 512)
  | .blockEnd _ c => decide (c < 512)
  | .resyncTimeout _ c => decide (c < 512)
  | .prechargeFail _ c => decide (c < 512)
  | .mainSettled _ c => decide (c < 512)
  | .bmsStale _ c => decide (c < 512)
  | .carrierEvent _ T => decide (T < 28)
  | .slotStarted _ T => decide (T < 28)
  | .faultReturn t ch _ since => decide (ch < 144) && decide (since ≤ t)
  | .bootUv _ x k => decide (x < 4) && decide (k < 3)
  | .bootUvRelease _ x k => decide (x < 4) && decide (k < 3)
  | .vdsFault t x i since _ => decide (x < 4) && decide (i < 6) && decide (since ≤ t)
  | .vgdUv _ => true
  | .vgdUvRelease _ => true
  | .stoMaskEnd _ => true
  | .tripLatchClear _ fn _ => decide (fn < 2)
  | .shortClear _ fn _ _ => decide (fn < 2)
  | .cmpTrip t c ain since _ => decide (c < 16) && decide (ain < 96) && decide (since ≤ t)
  | .lifeRecord _ T _ _ => decide (T < 28)
  | .lifeStep _ => true
  | .lifeSave _ => true
  | .safetyCycleStart _ _ _ link => decide (link < 4)
  | .safetyEvaluation _ p => decide (p < 4)
  | .safetyResult _ p => decide (p < 4)
  | .lockstepMismatch _ p => decide (p < 4)
  | .faultMessage _ h => decide (h < 2)
  | .crossLinkLoss _ h => decide (h < 2)
  | .split _ fn _ => decide (fn < 2)
  | .splitDone _ p _ _ => decide (p < 4)
  | .rejoin _ fn _ _ => decide (fn < 2)
  | .rejoinDone _ p => decide (p < 4)
  | .splitTimeout _ p => decide (p < 4)
  | .chaffTestDone _ _ => true
  | .sinChange t h i _ since => decide (h < 2) && decide (i < 8) && decide (since ≤ t)
  | .sinDiscrepancy _ i => decide (i < 8)
  | .srstPress t _ since => decide (since ≤ t)
  | .srstRelease t _ since => decide (since ≤ t)
  | .rstStuck _ => true
  | .readbackSample _ h pads => decide (h < 2) && decide (pads < 64)
  | .testPulseStart _ k => decide (k < 6)
  | .testPulseEnd _ k _ _ => decide (k < 6)
  | .testMissed _ k => decide (k < 6)
  | .psetTimeout _ => true
  | .pwLockoutEnd _ slot => decide (slot < 8)
  | .req _ fn _ => decide (fn < 2)
  | .challengeReady _ fn => decide (fn < 2)
  | .submit _ fn _ => decide (fn < 2)
  | .responseVerified _ fn => decide (fn < 2)
  | .challengeTimeout _ fn => decide (fn < 2)
  | .close _ fn _ => decide (fn < 2)
  | .sessionIdleTimeout _ fn => decide (fn < 2)
  | .sessionLockEnd _ fn => decide (fn < 2)
  | .kdbg _ fn _ => decide (fn < 2)
  | .vtest _ fn _ => decide (fn < 2)
  | .give _ fn _ => decide (fn < 2)
  | .withdraw _ fn _ => decide (fn < 2)
  | .consentExpiry _ => true
  | .fuse _ fn _ _ => decide (fn < 2)
  | .commit _ fn _ => decide (fn < 2)
  | .pwSet _ fn _ => decide (fn < 2)
  | .pwDel _ fn _ => decide (fn < 2)
  | .load _ fn _ => decide (fn < 2)
  | .delete _ fn _ => decide (fn < 2)
  | .sakRemoval _ slot => decide (slot < 8)
  | .mkaFrame _ p _ => decide (p < 2)
  | .erase _ fn _ => decide (fn < 2)
  | .eraseDone _ => true
  | .resetRelease _ _ => true
  | .imageVerify _ => true
  | .sectionLoad _ _ _ => true
  | .seal _ => true
  | .bootBistDone _ _ => true
  | .ready _ => true
  | .supplyLow _ r _ _ => decide (r < 8)
  | .supplyOk _ mvs _ => mvs.length == 8
  | .porstN _ _ => true
  | .sysRst _ fn _ => decide (fn < 2)
  | .perstN _ _ => true
  | .start _ fn _ _ => decide (fn < 2)
  | .updateEraseDone _ _ => true
  | .updateProgramDone _ _ => true
  | .updateVerifyDone _ => true
  | .updateAbort _ fn _ => decide (fn < 2)
  | .verify _ fn _ => decide (fn < 2)
  | .slotVerified _ => true
  | .revoke _ fn _ => decide (fn < 2)
  | .ringEnable _ fn _ q _ => decide (fn < 2) && decide (q < 32)
  | .ringDisable _ fn _ q _ => decide (fn < 2) && decide (q < 32)
  | .ringDrained _ fn q => decide (fn < 2) && decide (q < 32)
  | .sqTailDoorbell _ fn q _ => decide (fn < 2) && decide (q < 32)
  | .cqHeadDoorbell _ fn q _ => decide (fn < 2) && decide (q < 32)
  | .descriptorFetch _ fn q bytes inner => decide (fn < 2) && decide (q < 32) && bytes.length == 64 && (inner.elim true fun b => b.length == 64)
  | .descriptorRelease _ _ => true
  | .setpoint _ _ => true
  | .paramTxn _ _ _ _ => true
  | .schedule _ _ => true
  | .scheduleFiring _ _ => true
  | .abort _ _ => true
  | .telemStream _ _ => true
  | .telemetrySample _ _ _ _ => true
  | .statsRead _ _ _ _ => true
  | .logFetch _ _ _ => true
  | .canTx _ _ _ => true
  | .netTx _ _ _ => true
  | .migrate _ _ => true
  | .heartbeat _ _ => true
  | .completion _ fn q => decide (fn < 2) && decide (q < 32)
  | .irqTimer _ fn q => decide (fn < 2) && decide (q < 32)
  | .ringError _ fn _ q _ => decide (fn < 2) && decide (q < 32)
  | .linkLoss _ kind fn => decide (kind < 3) && decide (fn < 2)
  | .hostLost _ fn => decide (fn < 2)
  | .frameReceive _ p _ _ _ _ => decide (p < 2)
  | .ptpSync _ p _ _ => decide (p < 2)
  | .ptpAnnounce _ p _ => decide (p < 2)
  | .ptpDelay _ p _ _ _ _ => decide (p < 2)
  | .announceTimeout _ p => decide (p < 2)
  | .syncLoss _ p => decide (p < 2)
  | .stepApplied _ => true
  | .stepForced _ => true
  | .set _ fn _ => decide (fn < 2)
  | .linkUp _ p speed => decide (p < 2) && decide (speed < 4)
  | .linkDown _ p => decide (p < 2)
  | .launch _ q => decide (q < 16)
  | .launchDeadline _ q => decide (q < 16)
  | .frameItem _ router k _ _ _ => decide (router < 24) && decide (k < 15)
  | .wakeSyncTimeout _ => true
  | .wakeInstant _ => true
  | .canFrameReceive _ n id xtd _ _ _ _ bytes _ _ => decide (n < 4) && decide (id < 536870912) && (xtd || fits 11 id) && decide (bytes.length ≤ 64)
  | .canItemDelivered _ o => decide (o < 256)
  | .canTxItem _ router k _ _ _ => decide (router < 24) && decide (k < 15)
  | .arbitrationStart _ n dly => decide (n < 4) && decide (dly < 4)
  | .canTxDone _ n _ => decide (n < 4)
  | .canBusError _ n kind _ _ _ _ _ _ => decide (n < 4) && decide (kind < 8)
  | .recover _ n fn _ => decide (n < 4) && decide (fn < 2)
  | .recovered _ n => decide (n < 4)
  | .referenceInstant _ n => decide (n < 4)
  | .canObjectEnable _ o fn _ => decide (o < 256) && decide (fn < 2)
  | .refEn _ n fn _ => decide (n < 4) && decide (fn < 2)
  | .refLost _ ref _ _ => decide (ref < 2)
  | .refQualified _ ref _ => decide (ref < 2)
  | .lockLost _ p _ => decide (p < 3)
  | .backupHop _ p => decide (p < 3)
  | .slotHop _ p => decide (p < 3)
  | .pllRelocked _ p _ => decide (p < 3)
  | .bandCopy _ p _ _ => decide (p < 3)
  | .syncDone _ => true
  | .syncTimeout _ => true
  | .syncEdge _ => true
  | .go _ fn _ => decide (fn < 2)
  | .podClkChanged _ => true
  | .ueKernel _ pod k mem _ => decide (pod < 24) && decide (k < 16) && decide (mem < 2)
  | .scrubRead _ mem _ _ _ _ _ _ => decide (mem < 4)
  | .registerCheck _ _ => true
  | .backgroundTest _ => true
  | .kernelTestDone _ pod k _ _ => decide (pod < 24) && decide (k < 16)
  | .test _ fn _ => decide (fn < 2)
  | .ageMeasure _ _ => true
  | .lifeCount _ _ => true
  | .tokenRequest _ r => decide (r < 516)
  | .tokenWithdraw _ r => decide (r < 516)
  | .tokenRefill _ => true
  | .pwrTokCfg _ fn _ => decide (fn < 2)
  | .eventWrite _ => true
  | .referenceEdge _ T => decide (T < 28)
  | .cmpRelease t c ain since _ => decide (c < 16) && decide (ain < 96) && decide (since ≤ t)
  | .vdsBlankedRising _ x i _ => decide (x < 4) && decide (i < 6)
  | .busMasterEnable _ fn => decide (fn < 2)
  | .perstNRelease _ => true
  | .msixVectorUnmask _ fn v => decide (fn < 2) && decide (v < 32)
  | .ptpMessageInterval _ p kind => decide (p < 2) && decide (kind < 4)
  | .frameTransmitEnd _ p => decide (p < 2)
  | .protocolExceptionEnd _ n => decide (n < 4)
  | .mkaPeerTimeout _ p _ => decide (p < 2)
  | .tapInstruction _ _ _ => true

end Sys2Proof
end

