-- ==== Sys2Proof/Safety.lean ====
section
/-! DEFINITION. What statements about runs are said in: the parts of the state, what a command leaves alone, the events it reports, and the
properties that every step keeps. -/
namespace Sys2Proof.Machine

/-- The parts of the state: the register words of a block, the state behind the registers by subsystem, the level of PORST_N by itself, the
time, the outputs, the model's own counter of free values, and the queue. -/
inductive Part where
  | regs (b : Blk)
  | sys | husk | porst | pwr | sea | mesh | meas | pos | pwm | trip | loop | safe | hostq | net | can | clk | rel | cfg | tap
  | now | out | free | pending
  deriving DecidableEq, Repr

/-- The place of a part in a mask. -/
def Part.bit : Part → Nat
  | .regs b => b.num
  | .sys => 16 | .husk => 17 | .porst => 18 | .pwr => 19 | .sea => 20 | .meas => 21 | .pos => 22 | .pwm => 23 | .trip => 24 | .loop => 25
  | .safe => 26 | .hostq => 27 | .net => 28 | .can => 29 | .clk => 30 | .rel => 31 | .cfg => 32 | .tap => 33 | .now => 34 | .out => 35
  | .free => 36 | .pending => 37 | .mesh => 40

/-- Two states agree on a part. -/
def Part.same (s s' : State) : Part → Prop
  | .regs b => s'.regs.blk b = s.regs.blk b
  | .sys => s'.sys = s.sys | .husk => s'.husk = s.husk | .porst => s'.pwr.porst = s.pwr.porst | .pwr => s'.pwr = s.pwr
  | .sea => s'.sea = s.sea | .mesh => s'.mesh = s.mesh | .meas => s'.meas = s.meas | .pos => s'.pos = s.pos | .pwm => s'.pwm = s.pwm | .trip => s'.trip = s.trip
  | .loop => s'.loop = s.loop | .safe => s'.safe = s.safe | .hostq => s'.hostq = s.hostq | .net => s'.net = s.net | .can => s'.can = s.can
  | .clk => s'.clk = s.clk | .rel => s'.rel = s.rel | .cfg => s'.cfg = s.cfg | .tap => s'.tap = s.tap | .now => s'.now = s.now
  | .out => s'.out = s.out | .free => s'.free = s.free | .pending => s'.pending = s.pending

/-- Every block's words are in the canonical form of a sparse map. -/
def Regs.canon (r : Regs) : Prop := ∀ b : Blk, kwf 0 (r.blk b) = true

/-- The role map, the shared store and the kernel memories are in the canonical form of a sparse map. -/
def SeaSt.canon (x : SeaSt) : Prop := kwf 0 x.roles = true ∧ kwf 0 x.store = true ∧ kwf 0 x.mem = true

/-- The log of SYS holds at most 8,192 entries with SEQ rising up to the next one (R531), and at most 64 flits wait (R530). -/
def SysSt.ordered (x : SysSt) : Prop :=
  x.queue.length ≤ 64 ∧ x.log.length ≤ 8192 ∧ (x.log.map (·.seq) ++ [x.nextSeq]).Pairwise (· < ·)

/-- An instruction that takes the pins from the device runs only while PORST_N is low (R324). -/
def TapSt.confined (x : TapSt) (porst : Bool) : Prop :=
  x.instr = .extest ∨ x.instr = .clamp ∨ x.instr = .highz → porst = true

/-- The command answers a next state of which `P` holds. -/
def Runs (c : Instr) (s : State) (P : State → Prop) : Prop := ∃ s', exec c s = .next s' ∧ P s'

/-- From `s` to `s'` one more flit waits for SYS, and it reports this event with the time of `s`. -/
def Reports (s s' : State) (e : Ev) (subj : Nat := 0) (w0 w1 : Word := 0) : Prop :=
  ∃ q, s'.sys.queue = s.sys.queue ++ [q]
    ∧ q.evt = { cls := e.1.code, code := e.2, subject := subj, w0 := w0, w1 := w1, ts := s.shortTs }

/-- From `s` to `s'` SYS takes further flits, and one of them reports this event with the time of `s`. -/
def Posts (s s' : State) (e : Ev) (subj : Nat := 0) (w0 w1 : Word := 0) : Prop :=
  ∃ a q b, s'.sys.queue = s.sys.queue ++ a ++ q :: b
    ∧ q.evt = { cls := e.1.code, code := e.2, subject := subj, w0 := w0, w1 := w1, ts := s.shortTs }

/-- From `s` to `s'` half `h` of the safety island faults (R281): its flag and cause stand, its outputs are commanded low, the demand line of every
supervised axis is asserted once the island is armed, and HALF_FAULT is reported. -/
structure HalfFaults (s s' : State) (h cause : Nat) : Prop where
  flag : s'.halfFlt h = true
  why : s'.f (if h = 0 then R.SAFE_STAT_FCAUSE_A else R.SAFE_STAT_FCAUSE_B) = cause
  low : ∀ k < 6, outHalf k = h → s'.bitF R.SAFE_OUT_STAT_LEVEL k = false
  demands : s'.b R.SAFE_CTL_ARMED = true → ∀ x < 4, s'.b R.SAFE_AX_CFG_EN x = true → s'.safe.dem.testBit (s'.f R.SAFE_AX_CFG_DEM x) = true
  event : Posts s s' E.HALF_FAULT (subject h) (nw cause)

/-- From `s` to `s'` the device goes into reset (R491): the blocks but SYS, HUSK and PWR have every register as after reset, and nothing that runs
or waits is left; what the flash and the one-time storage hold, LIFECYCLE and the TAP stay. -/
structure Wiped (s s' : State) : Prop where
  held : s'.inReset = true
  regs : ∀ b : Blk, b ≠ .sys → b ≠ .husk → b ≠ .pwr → s'.regs.blk b = State.reset.regs.blk b
  queues : s'.sys = State.reset.sys ∧ s'.hostq = State.reset.hostq ∧ s'.net = State.reset.net ∧ s'.can = State.reset.can
  units : s'.sea = State.reset.sea ∧ s'.meas = State.reset.meas ∧ s'.pos = State.reset.pos ∧ s'.pwm = State.reset.pwm
    ∧ s'.loop = State.reset.loop ∧ s'.clk = State.reset.clk ∧ s'.mesh = State.reset.mesh
  flash : s'.cfg = { slots := s.cfg.slots } ∧ s'.rel = { saved := s.rel.saved } ∧ s'.safe.changeLog = s.safe.changeLog
    ∧ s'.safe.overlay = s.safe.overlay ∧ s'.trip.lifeSaved = s.trip.lifeSaved
  fuses : s'.husk.oemRootHash = s.husk.oemRootHash ∧ s'.husk.oemKek = s.husk.oemKek ∧ s'.husk.safRootHash = s.husk.safRootHash
    ∧ s'.husk.pw = s.husk.pw ∧ s'.husk.cak = s.husk.cak
  lifecycle : s'.f R.HUSK_ID_LIFECYCLE = s.f R.HUSK_ID_LIFECYCLE
  tap : s'.tap = s.tap

/-- A write of this register brings nothing beyond its fields. -/
def RegHit.plain (h : RegHit) : Bool :=
  match h.blk with
  | .net | .meas => false
  | .hostq => !([0x1000, 0x1004, 0x1008, 0x2000, 0x2004, 0x2008].contains h.rd.base)
  | .pos | .can => h.rd.base != 0x120
  | _ => true

/-- SYS has room for another flit (R530). -/
abbrev State.room (s : State) : Prop := s.sys.queue.length < 64

/-- What every step keeps. -/
structure Inv (s : State) : Prop where
  regs : s.regs.canon
  sea : s.sea.canon
  sys : s.sys.ordered
  tap : s.tap.confined s.pwr.porst

end Sys2Proof.Machine
end

