-- ==== Sys2Proof/Footprint.lean ====
section
/-! DEFINITION. When a command happens, and the parts of the state that it can change beside the time and the outputs. -/
namespace Sys2Proof

/-- The instant of a command. -/
def Instr.time : Instr → Instant
  | .registerWrite t _ _ _ | .misalignedAccess t _ _ _ _ | .reservedAddressAccess t _ _ _ | .pwmTimeLo t _ | .netNtimeLo t _
  | .sysEvtSeqLo t _ | .sysEvtOldLo t _ | .flitSend t _ _ _ _ | .flitReceive t _ _ _ | .strd t _ _ _ _ | .stwr t _ _ _ _ _
  | .samplingInstant t _ _ _ | .conversionPhaseEnd t _ | .conversionEnd t _ | .calibrationDone t | .injectedTrigger t _
  | .sdConversionEnd t _ _ _ | .sdProtectionOutput t _ _ _ | .sdStuck t _ | .sdResumed t _ | .ntimeGeneratorEvent t _
  | .pairFaultClear t _ _ | .quadEdge t _ _ _ _ _ | .indexLatch t _ _ _ _ _ _ | .hallTransition t _ _ _ _ _
  | .serialFrameEnd t _ _ _ _ _ _ _ | .serTimeout t _ _ | .excFault t _ | .lossClear t _ _ _ | .inputArrival t _ _ | .inputDeadline t _
  | .evaluation t _ _ | .cmpwArrival t _ | .compareEffective t _ | .wdExpired t _ | .ctxFaultClear t _ _ _
  | .paramTransaction t _ _ _ _ _ _ | .migLoadDone t | .migVerify t _ _ | .snapshotDeadline t | .forcedMigration t _ | .coastTimeout t _
  | .ascHold t _ | .dischTimeout t _ | .alignEnd t _ | .commutation t _ | .zeroCross t _ _ | .rampEnd t _ | .bcStall t _ | .bcRetry t _
  | .cmdAnalogueConversion t _ | .cmdDutyEdge t _ | .cmdFrequencyGate t _ | .cmdStatic t _ | .gridReturn t _ | .rtTrip t _ | .blockEnd t _
  | .resyncTimeout t _ | .prechargeFail t _ | .mainSettled t _ | .bmsStale t _ | .carrierEvent t _ | .slotStarted t _
  | .faultReturn t _ _ _ | .bootUv t _ _ | .bootUvRelease t _ _ | .vdsFault t _ _ _ _ | .vgdUv t | .vgdUvRelease t | .stoMaskEnd t
  | .tripLatchClear t _ _ | .shortClear t _ _ _ | .cmpTrip t _ _ _ _ | .lifeRecord t _ _ _ | .lifeStep t | .lifeSave t
  | .safetyCycleStart t _ _ _ | .safetyEvaluation t _ | .safetyResult t _ | .lockstepMismatch t _ | .faultMessage t _ | .crossLinkLoss t _
  | .split t _ _ | .splitDone t _ _ _ | .rejoin t _ _ _ | .rejoinDone t _ | .splitTimeout t _ | .chaffTestDone t _ | .sinChange t _ _ _ _
  | .sinDiscrepancy t _ | .srstPress t _ _ | .srstRelease t _ _ | .rstStuck t | .readbackSample t _ _ | .testPulseStart t _
  | .testPulseEnd t _ _ _ | .testMissed t _ | .psetTimeout t | .pwLockoutEnd t _ | .req t _ _ | .challengeReady t _ | .submit t _ _
  | .responseVerified t _ | .challengeTimeout t _ | .close t _ _ | .sessionIdleTimeout t _ | .sessionLockEnd t _ | .kdbg t _ _
  | .vtest t _ _ | .give t _ _ | .withdraw t _ _ | .consentExpiry t | .fuse t _ _ _ | .commit t _ _ | .pwSet t _ _ | .pwDel t _ _
  | .load t _ _ | .delete t _ _ | .sakRemoval t _ | .mkaFrame t _ _ | .erase t _ _ | .eraseDone t | .resetRelease t _ | .imageVerify t
  | .sectionLoad t _ _ | .seal t | .bootBistDone t _ | .ready t | .supplyLow t _ _ _ | .supplyOk t _ _ | .porstN t _ | .sysRst t _ _
  | .perstN t _ | .start t _ _ _ | .updateEraseDone t _ | .updateProgramDone t _ | .updateVerifyDone t | .updateAbort t _ _ | .verify t _ _
  | .slotVerified t | .revoke t _ _ | .ringEnable t _ _ _ _ | .ringDisable t _ _ _ _ | .ringDrained t _ _ | .sqTailDoorbell t _ _ _
  | .cqHeadDoorbell t _ _ _ | .descriptorFetch t _ _ _ _ | .descriptorRelease t _ | .setpoint t _ | .paramTxn t _ _ _ | .schedule t _
  | .scheduleFiring t _ | .abort t _ | .telemStream t _ | .telemetrySample t _ _ _ | .statsRead t _ _ _ | .logFetch t _ _ | .canTx t _ _
  | .netTx t _ _ | .migrate t _ | .heartbeat t _ | .completion t _ _ | .irqTimer t _ _ | .ringError t _ _ _ _ | .linkLoss t _ _
  | .hostLost t _ | .frameReceive t _ _ _ _ _ | .ptpSync t _ _ _ | .ptpAnnounce t _ _ | .ptpDelay t _ _ _ _ _ | .announceTimeout t _
  | .syncLoss t _ | .stepApplied t | .stepForced t | .set t _ _ | .linkUp t _ _ | .linkDown t _ | .launch t _ | .launchDeadline t _
  | .frameItem t _ _ _ _ _ | .wakeSyncTimeout t | .wakeInstant t | .canFrameReceive t _ _ _ _ _ _ _ _ _ _ | .canItemDelivered t _
  | .canTxItem t _ _ _ _ _ | .arbitrationStart t _ _ | .canTxDone t _ _ | .canBusError t _ _ _ _ _ _ _ _ | .recover t _ _ _
  | .recovered t _ | .referenceInstant t _ | .canObjectEnable t _ _ _ | .refEn t _ _ _ | .refLost t _ _ _ | .refQualified t _ _
  | .lockLost t _ _ | .backupHop t _ | .slotHop t _ | .pllRelocked t _ _ | .bandCopy t _ _ _ | .syncDone t | .syncTimeout t | .syncEdge t
  | .go t _ _ | .podClkChanged t | .ueKernel t _ _ _ _ | .scrubRead t _ _ _ _ _ _ _ | .registerCheck t _ | .backgroundTest t
  | .kernelTestDone t _ _ _ _ | .test t _ _ | .ageMeasure t _ | .lifeCount t _ | .tokenRequest t _ | .tokenWithdraw t _ | .tokenRefill t
  | .pwrTokCfg t _ _ | .eventWrite t | .referenceEdge t _ | .cmpRelease t _ _ _ _ | .vdsBlankedRising t _ _ _ | .busMasterEnable t _
  | .perstNRelease t | .msixVectorUnmask t _ _ | .ptpMessageInterval t _ _ | .frameTransmitEnd t _ | .protocolExceptionEnd t _
  | .mkaPeerTimeout t _ _ | .tapInstruction t _ _ => t

open Machine in
/-- The parts that a command can change, beside the time and the outputs. -/
def Instr.footprint : Instr → List Part
  | .registerWrite _ _ _ _ =>
    [.regs .sys, .regs .husk, .regs .cfg, .regs .hostq, .regs .meas, .regs .pos, .regs .loop, .regs .pwm, .regs .trip, .regs .safe,
     .regs .net, .regs .can, .regs .clk, .regs .rel, .regs .pwr, .regs .aux, .sys, .husk, .pos, .pwm, .trip, .hostq, .net, .clk, .mesh]
  | .misalignedAccess _ _ _ _ _ | .reservedAddressAccess _ _ _ _ =>
    [.regs .sys, .sys]
  | .pwmTimeLo _ _ =>
    [.regs .sys, .regs .husk, .regs .pwm, .sys, .husk]
  | .netNtimeLo _ _ =>
    [.regs .sys, .regs .husk, .regs .net, .sys, .husk]
  | .sysEvtSeqLo _ _ | .sysEvtOldLo _ _ | .req _ _ _ | .submit _ _ _ | .kdbg _ _ _ | .vtest _ _ _ | .give _ _ _ | .withdraw _ _ _
  | .fuse _ _ _ _ | .commit _ _ _ | .load _ _ _ | .delete _ _ _ =>
    [.regs .sys, .regs .husk, .sys, .husk]
  | .flitSend _ _ _ _ _ =>
    [.regs .sys, .sys, .mesh]
  | .flitReceive _ _ _ _ =>
    [.regs .sys, .regs .rel, .sys, .rel, .mesh]
  | .strd _ _ _ _ _ =>
    [.regs .sys, .regs .rel, .sys, .sea, .mesh]
  | .stwr _ _ _ _ _ _ =>
    [.regs .sys, .sys, .sea, .free]
  | .samplingInstant _ _ _ _ | .conversionPhaseEnd _ _ =>
    [.meas, .free]
  | .conversionEnd _ _ | .sdConversionEnd _ _ _ _ | .sdProtectionOutput _ _ _ _ =>
    [.regs .sys, .regs .meas, .regs .pos, .regs .pwm, .regs .trip, .regs .aux, .sys, .meas, .pos, .pwm, .trip, .mesh]
  | .calibrationDone _ =>
    [.regs .meas, .meas, .free]
  | .injectedTrigger _ _ =>
    [.regs .sys, .regs .meas, .sys, .meas, .free]
  | .sdStuck _ _ =>
    [.regs .sys, .regs .meas, .sys, .meas]
  | .sdResumed _ _ =>
    [.regs .sys, .sys, .meas]
  | .ntimeGeneratorEvent _ _ | .carrierEvent _ _ | .slotStarted _ _ =>
    [.regs .sys, .regs .hostq, .regs .meas, .regs .pos, .regs .loop, .regs .pwm, .regs .trip, .regs .rel, .regs .pwr, .regs .aux, .sys,
     .pwr, .meas, .pos, .pwm, .trip, .loop, .hostq, .rel, .free, .mesh]
  | .pairFaultClear _ _ _ =>
    [.regs .sys, .regs .husk, .regs .meas, .sys, .husk, .meas]
  | .quadEdge _ _ _ _ _ _ | .indexLatch _ _ _ _ _ _ _ | .hallTransition _ _ _ _ _ _ | .serTimeout _ _ _ | .excFault _ _ =>
    [.regs .sys, .regs .pos, .regs .pwm, .regs .trip, .regs .aux, .sys, .pos, .pwm, .trip]
  | .serialFrameEnd _ _ _ _ _ _ _ _ =>
    [.regs .sys, .regs .pos, .regs .pwm, .regs .trip, .regs .aux, .sys, .pos, .pwm, .trip, .mesh]
  | .lossClear _ _ _ _ =>
    [.regs .sys, .regs .husk, .regs .pos, .regs .pwm, .regs .trip, .regs .aux, .sys, .husk, .pos, .pwm, .trip]
  | .inputArrival _ _ _ | .snapshotDeadline _ =>
    [.regs .sys, .regs .hostq, .regs .loop, .regs .rel, .sys, .loop, .hostq, .rel, .mesh]
  | .inputDeadline _ _ =>
    [.regs .sys, .regs .loop, .sys, .loop]
  | .evaluation _ _ _ =>
    [.regs .sys, .regs .hostq, .regs .loop, .regs .rel, .sys, .pwm, .loop, .hostq, .rel, .free, .mesh]
  | .cmpwArrival _ _ =>
    [.regs .sys, .regs .loop, .regs .pwm, .regs .trip, .regs .pwr, .regs .aux, .sys, .pwr, .pwm, .trip, .loop, .mesh]
  | .compareEffective _ _ | .bcRetry _ _ | .ready _ | .tokenRequest _ _ | .tokenWithdraw _ _ | .tokenRefill _ =>
    [.regs .sys, .regs .pwm, .regs .trip, .regs .pwr, .regs .aux, .sys, .pwr, .pwm, .trip, .loop, .mesh]
  | .wdExpired _ _ | .alignEnd _ _ | .commutation _ _ | .rampEnd _ _ | .bcStall _ _ | .faultReturn _ _ _ _ | .bootUv _ _ _
  | .bootUvRelease _ _ _ | .vdsFault _ _ _ _ _ | .vgdUv _ | .vgdUvRelease _ | .stoMaskEnd _ | .cmpTrip _ _ _ _ _ | .referenceEdge _ _
  | .cmpRelease _ _ _ _ _ =>
    [.regs .sys, .regs .pwm, .regs .trip, .regs .aux, .sys, .pwm, .trip]
  | .ctxFaultClear _ _ _ _ =>
    [.regs .sys, .regs .husk, .regs .loop, .sys, .husk, .loop]
  | .paramTransaction _ _ _ _ _ _ _ =>
    [.regs .sys, .regs .hostq, .sys, .loop, .hostq, .mesh]
  | .migLoadDone _ =>
    [.regs .loop, .sea, .loop]
  | .migVerify _ _ _ =>
    [.regs .sys, .regs .hostq, .regs .meas, .regs .pos, .regs .loop, .regs .net, .regs .can, .regs .rel, .sys, .sea, .trip, .loop, .hostq,
     .rel, .mesh]
  | .forcedMigration _ _ =>
    [.regs .sys, .regs .meas, .regs .pos, .regs .loop, .regs .net, .regs .can, .sys, .sea, .trip, .loop, .rel]
  | .coastTimeout _ _ | .ascHold _ _ | .dischTimeout _ _ | .gridReturn _ _ | .rtTrip _ _ | .blockEnd _ _ | .resyncTimeout _ _
  | .prechargeFail _ _ | .mainSettled _ _ | .bmsStale _ _ =>
    [.regs .sys, .sys, .loop]
  | .zeroCross _ _ _ =>
    [.regs .sys, .regs .pwm, .regs .trip, .regs .aux, .sys, .pwm, .trip, .free]
  | .cmdAnalogueConversion _ _ | .cmdDutyEdge _ _ | .cmdStatic _ _ =>
    [.regs .sys, .regs .meas, .regs .pos, .regs .pwm, .regs .trip, .regs .pwr, .regs .aux, .sys, .pwr, .meas, .pos, .pwm, .trip, .loop,
     .mesh]
  | .cmdFrequencyGate _ _ =>
    [.regs .sys, .regs .meas, .regs .pos, .regs .pwm, .regs .trip, .regs .pwr, .regs .aux, .sys, .pwr, .meas, .pos, .pwm, .trip, .loop,
     .free, .mesh]
  | .tripLatchClear _ _ _ | .shortClear _ _ _ _ =>
    [.regs .sys, .regs .husk, .regs .pwm, .regs .trip, .regs .aux, .sys, .husk, .pwm, .trip]
  | .lifeRecord _ _ _ _ =>
    [.trip]
  | .lifeStep _ =>
    [.regs .sys, .sys, .trip, .mesh]
  | .lifeSave _ =>
    [.trip, .rel]
  | .safetyCycleStart _ _ _ _ =>
    [.regs .sys, .regs .hostq, .regs .pwm, .regs .trip, .regs .safe, .regs .aux, .sys, .pwm, .trip, .safe, .hostq, .mesh]
  | .safetyEvaluation _ _ =>
    [.regs .sys, .regs .safe, .sys, .safe, .mesh]
  | .safetyResult _ _ | .testPulseStart _ _ | .testPulseEnd _ _ _ _ | .psetTimeout _ =>
    [.safe]
  | .lockstepMismatch _ _ | .splitDone _ _ _ _ | .splitTimeout _ _ =>
    [.regs .sys, .regs .pwm, .regs .trip, .regs .safe, .regs .rel, .regs .aux, .sys, .pwm, .trip, .safe, .rel]
  | .faultMessage _ _ | .crossLinkLoss _ _ | .chaffTestDone _ _ | .readbackSample _ _ _ | .testMissed _ _ =>
    [.regs .sys, .regs .pwm, .regs .trip, .regs .safe, .regs .aux, .sys, .pwm, .trip, .safe]
  | .split _ _ _ | .responseVerified _ _ | .pwSet _ _ _ | .pwDel _ _ _ =>
    [.regs .sys, .regs .husk, .regs .safe, .sys, .husk, .safe]
  | .rejoin _ _ _ _ =>
    [.regs .sys, .regs .husk, .regs .pwm, .regs .trip, .regs .safe, .regs .rel, .regs .aux, .sys, .husk, .pwm, .trip, .safe, .rel]
  | .rejoinDone _ _ =>
    [.regs .sys, .regs .safe, .regs .rel, .sys, .safe, .rel]
  | .sinChange _ _ _ _ _ | .srstPress _ _ _ | .srstRelease _ _ _ =>
    [.regs .safe, .safe]
  | .sinDiscrepancy _ _ =>
    [.regs .sys, .regs .safe, .sys, .safe]
  | .rstStuck _ =>
    [.regs .sys, .regs .safe, .sys]
  | .pwLockoutEnd _ _ =>
    [.regs .safe, .husk]
  | .challengeReady _ _ =>
    [.regs .husk, .husk, .free]
  | .challengeTimeout _ _ | .consentExpiry _ =>
    [.regs .husk, .husk]
  | .close _ _ _ | .sessionIdleTimeout _ _ =>
    [.regs .sys, .regs .husk, .sys, .husk, .hostq]
  | .sessionLockEnd _ _ =>
    [.husk]
  | .sakRemoval _ _ | .set _ _ _ =>
    [.regs .sys, .regs .husk, .regs .net, .sys, .husk, .net]
  | .mkaFrame _ _ _ | .frameReceive _ _ _ _ _ _ | .linkUp _ _ _ | .launch _ _ | .launchDeadline _ _ | .frameItem _ _ _ _ _ _
  | .ptpMessageInterval _ _ _ | .frameTransmitEnd _ _ | .mkaPeerTimeout _ _ _ =>
    [.regs .sys, .regs .hostq, .regs .net, .sys, .hostq, .net, .mesh]
  | .erase _ _ _ | .supplyLow _ _ _ _ | .sysRst _ _ _ | .refQualified _ _ _ =>
    [.regs .sys, .regs .husk, .regs .cfg, .regs .hostq, .regs .meas, .regs .pos, .regs .loop, .regs .pwm, .regs .trip, .regs .safe,
     .regs .net, .regs .can, .regs .clk, .regs .rel, .regs .pwr, .regs .aux, .sys, .husk, .pwr, .sea, .meas, .pos, .pwm, .trip, .loop,
     .safe, .hostq, .net, .can, .clk, .rel, .cfg, .mesh]
  | .eraseDone _ =>
    [.regs .sys, .regs .husk, .sys, .husk, .trip, .safe, .rel, .cfg]
  | .resetRelease _ _ =>
    [.regs .sys, .regs .husk, .regs .cfg, .regs .hostq, .regs .meas, .regs .pos, .regs .loop, .regs .pwm, .regs .trip, .regs .safe,
     .regs .net, .regs .can, .regs .clk, .regs .rel, .regs .pwr, .regs .aux, .sys, .husk, .porst, .pwr, .sea, .meas, .pos, .pwm, .trip,
     .loop, .safe, .hostq, .net, .can, .clk, .rel, .cfg, .tap, .mesh]
  | .imageVerify _ =>
    [.regs .sys, .regs .husk, .regs .cfg, .regs .pwr, .sys, .cfg]
  | .sectionLoad _ _ _ =>
    [.regs .sys, .regs .husk, .regs .cfg, .regs .hostq, .regs .meas, .regs .pos, .regs .loop, .regs .pwm, .regs .trip, .regs .safe,
     .regs .net, .regs .can, .regs .clk, .regs .rel, .regs .pwr, .regs .aux, .sys, .husk, .sea, .trip, .loop, .safe, .hostq, .cfg, .mesh]
  | .seal _ | .syncDone _ | .syncTimeout _ =>
    [.regs .sys, .regs .husk, .regs .cfg, .regs .hostq, .regs .loop, .regs .pwm, .regs .trip, .regs .safe, .regs .net, .regs .can,
     .regs .clk, .regs .pwr, .regs .aux, .sys, .meas, .pos, .pwm, .trip, .loop, .safe, .hostq, .net, .clk, .rel, .free, .mesh]
  | .bootBistDone _ _ =>
    [.regs .rel, .rel]
  | .supplyOk _ _ _ =>
    [.pwr]
  | .porstN _ _ =>
    [.regs .sys, .regs .husk, .regs .cfg, .regs .hostq, .regs .meas, .regs .pos, .regs .loop, .regs .pwm, .regs .trip, .regs .safe,
     .regs .net, .regs .can, .regs .clk, .regs .rel, .regs .pwr, .regs .aux, .sys, .husk, .porst, .pwr, .sea, .meas, .pos, .pwm, .trip,
     .loop, .safe, .hostq, .net, .can, .clk, .rel, .cfg, .mesh]
  | .perstN _ _ | .ringEnable _ _ _ _ _ | .ringDisable _ _ _ _ _ | .linkLoss _ _ _ =>
    [.regs .sys, .regs .husk, .regs .hostq, .sys, .husk, .hostq]
  | .start _ _ _ _ | .updateAbort _ _ _ | .verify _ _ _ | .revoke _ _ _ =>
    [.regs .sys, .regs .husk, .regs .cfg, .sys, .husk, .cfg]
  | .updateEraseDone _ _ | .updateProgramDone _ _ | .updateVerifyDone _ | .slotVerified _ =>
    [.regs .sys, .regs .cfg, .sys, .cfg]
  | .ringDrained _ _ _ =>
    [.regs .hostq]
  | .sqTailDoorbell _ _ _ _ | .cqHeadDoorbell _ _ _ _ | .descriptorRelease _ _ | .schedule _ _ | .telemetrySample _ _ _ _
  | .statsRead _ _ _ _ | .logFetch _ _ _ | .completion _ _ _ | .ringError _ _ _ _ _ =>
    [.regs .sys, .regs .hostq, .sys, .hostq]
  | .descriptorFetch _ _ _ _ _ =>
    [.regs .sys, .regs .hostq, .sys, .husk, .hostq]
  | .setpoint _ _ | .telemStream _ _ | .canTx _ _ _ | .netTx _ _ _ =>
    [.regs .sys, .regs .hostq, .sys, .hostq, .mesh]
  | .paramTxn _ _ _ _ =>
    [.regs .sys, .regs .hostq, .regs .safe, .sys, .safe, .hostq, .mesh]
  | .scheduleFiring _ _ | .irqTimer _ _ _ | .busMasterEnable _ _ | .perstNRelease _ | .msixVectorUnmask _ _ _ =>
    [.hostq]
  | .abort _ _ =>
    [.regs .sys, .regs .hostq, .regs .loop, .regs .net, .regs .can, .regs .rel, .sys, .loop, .hostq, .net, .can, .rel, .mesh]
  | .migrate _ _ =>
    [.regs .sys, .regs .hostq, .regs .loop, .sys, .loop, .hostq, .mesh]
  | .heartbeat _ _ | .hostLost _ _ =>
    [.regs .sys, .regs .hostq, .regs .pwm, .regs .trip, .regs .aux, .sys, .pwm, .trip, .loop, .hostq]
  | .ptpSync _ _ _ _ | .ptpAnnounce _ _ _ | .announceTimeout _ _ | .syncLoss _ _ =>
    [.regs .sys, .regs .net, .regs .clk, .sys, .net, .clk]
  | .ptpDelay _ _ _ _ _ _ =>
    [.regs .net, .net]
  | .stepApplied _ | .wakeSyncTimeout _ =>
    [.regs .sys, .regs .net, .sys, .net]
  | .stepForced _ =>
    [.regs .sys, .regs .loop, .regs .pwm, .regs .trip, .regs .net, .regs .pwr, .regs .aux, .sys, .pwr, .pwm, .trip, .loop, .net, .mesh]
  | .linkDown _ _ =>
    [.regs .sys, .regs .hostq, .regs .net, .regs .clk, .sys, .hostq, .net, .clk, .mesh]
  | .wakeInstant _ =>
    [.regs .sys, .regs .pwm, .regs .trip, .regs .net, .regs .pwr, .regs .aux, .sys, .pwr, .pwm, .trip, .loop, .mesh]
  | .canFrameReceive _ _ _ _ _ _ _ _ _ _ _ | .canTxItem _ _ _ _ _ _ | .canTxDone _ _ _ | .canBusError _ _ _ _ _ _ _ _ _ =>
    [.regs .sys, .regs .hostq, .regs .can, .sys, .hostq, .can, .mesh]
  | .canItemDelivered _ _ =>
    [.regs .sys, .regs .can, .sys, .can, .mesh]
  | .arbitrationStart _ _ _ =>
    [.hostq, .can]
  | .recover _ _ _ _ =>
    [.regs .sys, .regs .husk, .regs .can, .sys, .husk]
  | .recovered _ _ =>
    [.regs .sys, .regs .can, .sys]
  | .referenceInstant _ _ =>
    [.regs .sys, .regs .can, .sys, .can]
  | .canObjectEnable _ _ _ _ =>
    [.regs .sys, .regs .husk, .regs .hostq, .regs .can, .sys, .husk, .hostq, .can, .mesh]
  | .refEn _ _ _ _ =>
    [.regs .sys, .regs .husk, .regs .can, .sys, .husk, .can]
  | .refLost _ _ _ _ | .lockLost _ _ _ | .backupHop _ _ | .slotHop _ _ | .podClkChanged _ =>
    [.regs .sys, .regs .clk, .sys, .clk]
  | .pllRelocked _ _ _ =>
    [.regs .sys, .regs .clk, .sys]
  | .bandCopy _ _ _ _ | .syncEdge _ =>
    [.regs .clk, .clk]
  | .go _ _ _ =>
    [.regs .sys, .regs .husk, .regs .clk, .sys, .husk, .clk]
  | .ueKernel _ _ _ _ _ | .scrubRead _ _ _ _ _ _ _ _ | .kernelTestDone _ _ _ _ _ =>
    [.regs .sys, .regs .hostq, .regs .meas, .regs .pos, .regs .loop, .regs .pwm, .regs .trip, .regs .safe, .regs .net, .regs .can,
     .regs .rel, .regs .aux, .sys, .sea, .pwm, .trip, .loop, .safe, .hostq, .rel, .mesh]
  | .registerCheck _ _ =>
    [.regs .sys, .sys, .rel]
  | .backgroundTest _ =>
    [.regs .sys, .regs .loop, .regs .safe, .regs .rel, .sys, .loop, .safe, .rel, .mesh]
  | .test _ _ _ =>
    [.regs .sys, .regs .husk, .regs .rel, .sys, .husk, .rel]
  | .ageMeasure _ _ | .lifeCount _ _ =>
    [.regs .sys, .regs .rel, .sys, .rel]
  | .pwrTokCfg _ _ _ =>
    [.regs .sys, .regs .husk, .regs .pwm, .regs .trip, .regs .pwr, .regs .aux, .sys, .husk, .pwr, .pwm, .trip, .loop, .mesh]
  | .eventWrite _ =>
    [.regs .sys, .sys, .hostq]
  | .vdsBlankedRising _ _ _ _ =>
    [.regs .sys, .regs .pwm, .regs .aux, .sys, .pwm]
  | .protocolExceptionEnd _ _ =>
    [.regs .can, .can]
  | .tapInstruction _ _ _ =>
    [.tap]

end Sys2Proof
end

