-- ==== Sys2Proof/Certificates/Slice0/Obligations.lean ====
section
/-! DEFINITION. The statements for the provers, one definition each, from the numbered rules of the spec. `u` is the state at the command's
instant and `w` the one after the write behind a command has passed the husk; `Runs c s P` says that the command answers a next state with `P`. -/
open Sys2Proof Sys2Proof.Machine

/-- A step takes the command at the front of the queue and runs it with the queue's rest; the block idles on an empty queue. -/
def Obligations.StepTakesFrontCommand : Prop :=
  (∀ (s : State) (c : Instr) (cs : List Instr), s.pending = c :: cs → step s = exec c { s with pending := cs })
    ∧ (∀ s : State, s.pending = [] → step s = .next s)

/-- After reset the maps are canonical, the log is in order and the TAP takes no pin. -/
def Obligations.ResetKeepsInvariant : Prop :=
 Inv State.reset

/-- Every step keeps the canonical form of the maps, the order and the bounds of the event log and its queue (R531, R533), and the confinement of the
instructions of the TAP that take pins (R324). -/
def Obligations.StepKeepsInvariant : Prop :=
  ∀ s s' : State, Inv s → step s = .next s' → Inv s'

/-- Every command answers a next state at its instant, takes nothing from the queue and puts nothing into it, and changes no part of the state beside
its footprint and the outputs. -/
def Obligations.CommandChangesFootprintOnly : Prop :=
  ∀ (c : Instr) (s : State), Runs c s fun s' =>
    s'.now = max s.now c.time ∧ s'.pending = s.pending
      ∧ ∀ p : Part, p ∉ c.footprint → p ≠ .now → p ≠ .out → p.same s s'

/-- R2: an access that is not one aligned word changes no register; a read completes with zero; BAD_ACCESS goes to SYS. (Where R493 closes the block,
nothing is posted.) -/
def Obligations.MisalignedAccessIsDiscarded : Prop :=
  ∀ (s u : State) (t : Instant) (fn addr len : Nat) (write : Bool), u = s.start t →
    fn < 2 → addr < 0x100000 → 1 ≤ len → len ≤ 4096 → ¬ (len = 4 ∧ addr % 4 = 0) → u.barOpen = true → u.room →
    Runs (.misalignedAccess t fn addr len write) s fun s' =>
      s'.regs = u.regs ∧ s'.out = (if write then [] else [.readData fn addr 0])
        ∧ (u.answers fn addr write = true →
            Reports u s' E.BAD_ACCESS (subject fn 0 fn) (nw addr) (nw (b2n write + 2 * len)))
        ∧ (u.answers fn addr write = false → s'.sys = u.sys)

/-- R527: an aligned word that Table 19.2 does not list reads as zero and takes no write; either access posts BAD_ACCESS, whose W1 bit 0 tells a read
from a write, but for the blocks that R493 closes. -/
def Obligations.ReservedAddressIsReported : Prop :=
  ∀ (s u : State) (t : Instant) (fn addr : Nat) (write : Bool), u = s.start t →
    fn < 2 → addr < 0x100000 → addr % 4 = 0 → findReg addr fn = none → u.barOpen = true → u.room →
    Runs (.reservedAddressAccess t fn addr write) s fun s' =>
      s'.regs = u.regs ∧ s'.out = (if write then [] else [.readData fn addr 0])
        ∧ (u.answers fn addr write = true →
            Reports u s' E.BAD_ACCESS (subject fn 0 fn) (nw addr) (nw (b2n write + 2 * 4)))
        ∧ (u.answers fn addr write = false → s'.sys = u.sys)

/-- R5, R6, Table 0.5: a write that the husk grants puts into each granted field what its Access column says of the data, but for the fields that have
a command of their own; no other word changes. A 1 written to a W1C bit clears it unless the hardware has set the bit in the same cycle. The registers
whose write brings more are stated apart. -/
def Obligations.GrantedWriteSetsFields : Prop :=
  (∀ (s u : State) (t : Instant) (fn addr : Nat) (data d : Word) (h : RegHit) (fs : List FieldDef), u = s.start t →
    fn < 2 → addr < 0x100000 → addr % 4 = 0 → findReg addr fn = some h → h.plain = true →
    u.barOpen = true → u.blockOpen h.blk fn true = true → u.checkWrite h fn = .granted fs → d = data &&& u.bitGrant h (u.domainOf fn) →
    Runs (.registerWrite t fn addr data) s fun s' =>
      s'.word h.blk h.key
          = (fs.filter fun fd => !fd.own).foldl (fun w fd => applyField (nw (u.freshOf h.blk h.key)) w d fd) (u.word h.blk h.key)
        ∧ (∀ b k, (b, k) ≠ (h.blk, h.key) → s'.word b k = u.word b k) ∧ s'.sys = u.sys)
  ∧ ∀ (fresh old data : Word) (fd : FieldDef) (i : Nat), fd.lo ≤ fd.hi → fd.hi < 32 → i < 32 →
    (applyField fresh old data fd).getLsbD i =
      if fd.lo ≤ i ∧ i ≤ fd.hi then
        match fd.acc with
        | .ro => old.getLsbD i
        | .rw | .wo => data.getLsbD i
        | .w1c => old.getLsbD i && !(data.getLsbD i && !fresh.getLsbD i)
        | .w1s => old.getLsbD i || data.getLsbD i
      else old.getLsbD i

/-- R371, R407, R424: a write that the husk grants of the base of an enabled ring changes no register; one of a NET register whose enable leaves no
field open is discarded as a write to a sealed register; one of a MEAS register sets its fields, and MEAS_STAT alone follows. -/
def Obligations.GuardedBlocksFilterGrantedWrites : Prop :=
  ∀ (s u : State) (t : Instant) (fn addr : Nat) (data : Word) (h : RegHit) (fs : List FieldDef), u = s.start t →
    fn < 2 → addr < 0x100000 → addr % 4 = 0 → findReg addr fn = some h →
    u.barOpen = true → u.blockOpen h.blk fn true = true → u.checkWrite h fn = .granted fs →
    let d := data &&& u.bitGrant h (u.domainOf fn)
    (u.ringBaseHeld h = true → Runs (.registerWrite t fn addr data) s fun s' => ∀ b k, s'.word b k = u.word b k)
    ∧ (h.blk = .net → u.netFields h fs = [] → Runs (.registerWrite t fn addr data) s fun s' =>
        (∀ b k, b ≠ .husk → b ≠ .sys → s'.word b k = u.word b k) ∧ s'.f R.HUSK_REFUSE_LAST_KIND = 1)
    ∧ (h.blk = .meas → h.key ≠ 4 → Runs (.registerWrite t fn addr data) s fun s' =>
        s'.word .meas h.key
            = (fs.filter fun fd => !fd.own).foldl (fun w fd => applyField (nw (u.freshOf .meas h.key)) w d fd) (u.word .meas h.key)
          ∧ (∀ b k, (b, k) ≠ (Blk.meas, h.key) → (b, k) ≠ (Blk.meas, 4) → s'.word b k = u.word b k))

/-- R6, R7: a write that no field grants to the domain, or that sealing has closed, sets none of the register's bits: the husk counts it and records
function, domain, block, word and KIND. -/
def Obligations.RefusedWriteIsDiscarded : Prop :=
  ∀ (s u : State) (t : Instant) (fn addr : Nat) (data : Word) (h : RegHit) (kind : Nat), u = s.start t →
    fn < 2 → addr < 0x100000 → addr % 4 = 0 → findReg addr fn = some h → h.blk ≠ .hostq →
    u.barOpen = true → u.blockOpen h.blk fn true = true → u.checkWrite h fn = .refused kind →
    Runs (.registerWrite t fn addr data) s fun s' =>
      (∀ b k, b ≠ .husk → b ≠ .sys → s'.word b k = u.word b k)
        ∧ s'.f R.HUSK_REFUSE_CNT_CNT = min (u.f R.HUSK_REFUSE_CNT_CNT + 1) (2 ^ 32 - 1)
        ∧ s'.f R.HUSK_REFUSE_LAST_FUNC = fn % 2 ∧ s'.f R.HUSK_REFUSE_LAST_DOMAIN = u.domainOf fn % 8
        ∧ s'.b R.HUSK_REFUSE_LAST_WRITE = true ∧ s'.f R.HUSK_REFUSE_LAST_BLOCK = h.blk.num
        ∧ s'.f R.HUSK_REFUSE_LAST_KIND = kind % 4

/-- R223, R408, R528: a read of the low word of PWM time, NTIME, or the newest or oldest SEQ completes with bits 31:0 of the value and latches bits
63:32 into the high word. -/
def Obligations.LowWordReadLatchesHighWord : Prop :=
  ∀ (s u : State) (t : Instant) (fn : Nat), u = s.start t → fn < 2 →
    (u.readGranted fn (W.PWM_TIME_LO.addr 0 0) = true → Runs (.pwmTimeLo t fn) s fun s' =>
      s'.out = [.readData fn 0x70008 (BitVec.ofNat 32 u.pwmTime)]
        ∧ s'.f W.PWM_TIME_HI = u.pwmTime / 2 ^ 32 % 2 ^ 32)
    ∧ (u.readGranted fn (W.NET_NTIME_LO.addr 0 0) = true → Runs (.netNtimeLo t fn) s fun s' =>
      s'.out = [.readData fn (W.NET_NTIME_LO.addr 0 0) (BitVec.ofInt 32 u.ntime)]
        ∧ s'.f W.NET_NTIME_HI = unsignedOf 64 u.ntime / 2 ^ 32)
    ∧ (u.readGranted fn (W.SYS_EVT_SEQ_LO.addr 0 0) = true → Runs (.sysEvtSeqLo t fn) s fun s' =>
      s'.out = [.readData fn 0x10 (BitVec.ofNat 32 u.newestSeq)] ∧ s'.f W.SYS_EVT_SEQ_HI = u.newestSeq / 2 ^ 32 % 2 ^ 32)
    ∧ (u.readGranted fn (W.SYS_EVT_OLD_LO.addr 0 0) = true → Runs (.sysEvtOldLo t fn) s fun s' =>
      s'.out = [.readData fn 0x18 (BitVec.ofNat 32 u.oldestSeq)] ∧ s'.f W.SYS_EVT_OLD_HI = u.oldestSeq / 2 ^ 32 % 2 ^ 32)

/-- R31: a pod router passes a flit of a kernel in use on when the kernel's role may send its type (Table 1.2) and the type may reach its destination,
and else discards it and reports the kernel and the type. A flit that passes waits at the first link of its route. -/
def Obligations.PodRouterPassesByRole : Prop :=
  ∀ (s u : State) (t : Instant) (router k : Nat) (dst : FlitDst) (payload : Payload), u = s.start t →
    u.sealed = true → router < 24 → k < 15 → u.backed (16 * router + k) = true →
    let f : Flit := { dst := dst, src := .kernel router k, payload := payload }
    (u.mayPass (16 * router + k) f = true → Runs (.flitSend t router k dst payload) s fun s' =>
      s'.out = [.flit f] ∧ s'.mesh = u.mesh.put f ∧ s'.regs = u.regs ∧ s'.sys = u.sys)
    ∧ (u.mayPass (16 * router + k) f = false → u.room → Runs (.flitSend t router k dst payload) s fun s' =>
      s'.out = [] ∧ s'.mesh = u.mesh ∧ s'.regs = u.regs
        ∧ Reports u s' E.FLIT_ROLE_DISCARD (kernelSubject (16 * router + k)) (nw payload.typ))

/-- R25, R26, R30: the router at the end of a link takes the flit that the link passes: of the high class, unless eight have passed in a row while one
of the low class waits, and of each class from the inputs in turn. A first copy with up to two bits in error is corrected and goes on, and REL counts
the correction; with more, the second copy is taken; with more in both, the flit goes nowhere, and REL counts and reports the link. A flit that goes
on waits at the next link of its route, or has arrived. -/
def Obligations.LinkCorrectsUpToTwoBits : Prop :=
  ∀ (s u : State) (t : Instant) (l : Nat) (f : Flit) (q : LinkQ) (e1 e2 : List Nat), u = s.start t → u.alive = true → l < 148 →
    (u.mesh.link l).pop = some (f, q) →
    let onward (s' : State) : Prop := match (linkEnd l).bind fun r => nextLink r f.dst with
      | some l' => s'.out = [.hop l' f.wires] ∧ s'.mesh = (u.mesh.setLink l q).setLink l' (((u.mesh.setLink l q).link l').push (16 + l) f)
      | none => s'.out = [.arrive f] ∧ s'.mesh = u.mesh.setLink l q
    (e1 = [] → Runs (.flitReceive t l e1 e2) s fun s' => onward s' ∧ s'.regs = u.regs ∧ s'.sys = u.sys)
    ∧ (e1 ≠ [] → e1.length ≤ 2 → Runs (.flitReceive t l e1 e2) s fun s' =>
        onward s' ∧ s'.f R.REL_CE_CNT_CE = min (u.f R.REL_CE_CNT_CE + 1) (2 ^ 32 - 1) ∧ s'.f R.REL_UE_CNT_UE = u.f R.REL_UE_CNT_UE)
    ∧ (2 < e1.length → e2.length ≤ 2 → Runs (.flitReceive t l e1 e2) s fun s' =>
        onward s' ∧ s'.f R.REL_UE_CNT_UE = u.f R.REL_UE_CNT_UE
          ∧ (e2 ≠ [] → s'.f R.REL_CE_CNT_CE = min (u.f R.REL_CE_CNT_CE + 1) (2 ^ 32 - 1)))
    ∧ (2 < e1.length → 2 < e2.length → u.room → Runs (.flitReceive t l e1 e2) s fun s' =>
        s'.out = [] ∧ s'.mesh = u.mesh.setLink l q ∧ s'.f R.REL_UE_CNT_UE = min (u.f R.REL_UE_CNT_UE + 1) (2 ^ 32 - 1)
          ∧ Reports u s' E.LINK_UECC (linkSubject l))

/-- R33, R34, R464: a bank answers a read that a region grants with the word as the writes of earlier ticks, and those of its own tick from sources
before the reader's, have left it; it refuses another with zero data and status REFUSED, and answers a word that it cannot correct with status UE; one
or two bits in error are corrected and counted. It replaces the bytes that the mask of a granted write names, each by the data's, and no other byte of
the store; of two writes of a word in one tick, the one of the later source prevails whichever comes first; a write outside the rights is discarded;
refusals and uncorrectable words are reported. -/
def Obligations.StoreBankServesRightsOnly : Prop :=
  (∀ (s u : State) (t : Instant) (router k addr errs : Nat), u = s.start t →
      u.sealed = true → router < 24 → k < 15 → u.backed (16 * router + k) = true → roleMay (u.role (16 * router + k)) 6 = true →
      u.room →
      let back (refused ue : Bool) (d : BitVec 256) : Output :=
        .flit { dst := .kernels router (2 ^ k), src := .port (bankRouter (bankOf addr)) 0, payload := .strs refused ue d }
      (u.storeGrant (u.role (16 * router + k)) addr false = true → errs ≤ 2 → addr / 32 ∉ u.sea.badWords →
        Runs (.strd t router k addr errs) s fun s' =>
          s'.out = [back false false (u.storeSees (16 * router + k) (addr / 32))] ∧ s'.sea = u.sea
            ∧ (errs = 0 → s'.regs = u.regs)
            ∧ (1 ≤ errs → s'.f R.REL_CE_CNT_CE = min (u.f R.REL_CE_CNT_CE + 1) (2 ^ 32 - 1))
            ∧ (u.opsOf (addr / 32) = none → u.storeSees (16 * router + k) (addr / 32) = kget 0 u.sea.store (addr / 32)))
      ∧ (u.storeGrant (u.role (16 * router + k)) addr false = false → Runs (.strd t router k addr errs) s fun s' =>
          s'.out = [back true false 0] ∧ s'.sea = u.sea ∧ s'.regs = u.regs
            ∧ Reports u s' E.STORE_REFUSED (kernelSubject (16 * router + k)) (nw addr))
      ∧ (u.storeGrant (u.role (16 * router + k)) addr false = true → 3 ≤ errs → Runs (.strd t router k addr errs) s fun s' =>
          s'.out = [back false true 0] ∧ addr / 32 ∈ s'.sea.badWords ∧ s'.sea.store = u.sea.store
            ∧ Reports u s' E.UE_STORE (storeSubject addr) (nw addr)))
  ∧ (∀ (s u : State) (t : Instant) (router k addr : Nat) (mask : Word) (data : BitVec 256), u = s.start t →
      u.sealed = true → router < 24 → k < 15 → u.backed (16 * router + k) = true → roleMay (u.role (16 * router + k)) 8 = true →
      (u.storeGrant (u.role (16 * router + k)) addr true = true → addr / 32 ∉ u.sea.badWords → u.opsOf (addr / 32) = none →
        Runs (.stwr t router k addr mask data) s fun s' =>
          (∀ i, i < 256 → (kget 0 s'.sea.store (addr / 32)).getLsbD i
            = if mask.getLsbD (i / 8) then data.getLsbD i else (kget 0 u.sea.store (addr / 32)).getLsbD i)
          ∧ (∀ w, w ≠ addr / 32 → kget 0 s'.sea.store w = kget 0 u.sea.store w) ∧ s'.regs = u.regs ∧ s'.out = [])
      ∧ (∀ (x : StoreOps) (o : StoreOp), u.storeGrant (u.role (16 * router + k)) addr true = true → u.opsOf (addr / 32) = some x →
        x.writes = [o] → o.src ≠ srcOrder (16 * router + k) → Runs (.stwr t router k addr mask data) s fun s' =>
          (∀ i, i < 256 → (kget 0 s'.sea.store (addr / 32)).getLsbD i
            = let mine : Bool := mask.getLsbD (i / 8)
              let other : Bool := o.mask.getLsbD (i / 8)
              if mine && (!other || decide (o.src < srcOrder (16 * router + k))) then data.getLsbD i
              else if other then o.data.getLsbD i else x.old.getLsbD i)
          ∧ (∀ w, w ≠ addr / 32 → kget 0 s'.sea.store w = kget 0 u.sea.store w) ∧ s'.regs = u.regs ∧ s'.out = [])
      ∧ (u.storeGrant (u.role (16 * router + k)) addr true = false → u.room →
        Runs (.stwr t router k addr mask data) s fun s' =>
          s'.sea = u.sea ∧ s'.regs = u.regs ∧ s'.out = []
            ∧ Reports u s' E.STORE_REFUSED (kernelSubject (16 * router + k)) (nw addr)))

/-- R531, R533: SYS writes the oldest waiting flit behind the entries of the log, under the next SEQ, and the oldest of 8,192 gives way; after a loss
an EVT_LOST entry with the number of lost flits and FLAGS bit 1 comes before it. An event that reaches SYS at a full queue is discarded, takes no SEQ
and counts in SYS_EVT_LOST (shown on BAD_ACCESS of R2). -/
def Obligations.EventLogTakesOldestAndCountsLost : Prop :=
  ((∀ (x : SysSt) (e : LogEntry), (x.add e).nextSeq = x.nextSeq + 1 ∧ (x.add e).queue = x.queue
        ∧ (x.add e).log = keepLast 8192 (x.log ++ [{ e with seq := x.nextSeq }]))
      ∧ ∀ (s u : State) (t : Instant) (q : QueuedEvt) (qs : List QueuedEvt), u = s.start t → u.inReset = false → u.sys.queue = q :: qs →
        (q.entry.cls = q.evt.cls ∧ q.entry.code = q.evt.code ∧ q.entry.subject = q.evt.subject ∧ q.entry.w0 = q.evt.w0
          ∧ q.entry.w1 = q.evt.w1 ∧ q.entry.ntime = shortToNtime q.evt.ts q.arrival ∧ q.entry.flags = b2n (!q.locked))
        ∧ (q.lostBefore = false → Runs (.eventWrite t) s fun s' => s'.sys = SysSt.add { u.sys with queue := qs } q.entry)
        ∧ (q.lostBefore = true → Runs (.eventWrite t) s fun s' => ∃ e : LogEntry,
            e.cls = 1 ∧ e.code = E.EVT_LOST.2 ∧ e.flags / 2 = 1 ∧ e.w0 = nw u.sys.lostNow
              ∧ s'.sys = SysSt.add { SysSt.add { u.sys with queue := qs } e with lostNow := 0 } q.entry))
  ∧ (∀ (s u : State) (t : Instant) (fn addr len : Nat), u = s.start t →
      fn < 2 → addr < 0x100000 → 1 ≤ len → len ≤ 4096 → ¬ (len = 4 ∧ addr % 4 = 0) → u.answers fn addr true = true →
      64 ≤ u.sys.queue.length →
      Runs (.misalignedAccess t fn addr len true) s fun s' =>
        s'.sys.queue = u.sys.queue ∧ s'.sys.nextSeq = u.sys.nextSeq ∧ s'.sys.lostNow = u.sys.lostNow + 1
          ∧ s'.f R.SYS_EVT_LOST_LOST = min (u.f R.SYS_EVT_LOST_LOST + 1) (2 ^ 32 - 1))

/-- R324: EXTEST, CLAMP and HIGHZ take effect only while PORST_N is low, and a private instruction only once a debug path is open; at any other time
the TAP selects BYPASS in their place. EXTEST drives the pins that the boundary register names. -/
def Obligations.TapSelectsBypassInstead : Prop :=
  ∀ (s : State) (t : Instant) (i : TapInstr) (cells : List (Nat × Bool)),
    (i ∈ [.extest, .clamp, .highz] → s.pwr.porst = false → Runs (.tapInstruction t i cells) s fun s' => s'.tap.instr = .bypass ∧ s'.out = [])
    ∧ (i ∈ [.extest, .clamp, .highz] → s.pwr.porst = true → Runs (.tapInstruction t i cells) s fun s' => s'.tap.instr = i)
    ∧ (s.pwr.porst = true → (∀ c ∈ cells, c.1 < 168) → Runs (.tapInstruction t .extest cells) s fun s' =>
        s'.out = cells.map fun c => .pin c.1 c.2)
    ∧ (∀ n, i = .priv n → s.b R.HUSK_DBG_STAT_KDBG_OPEN = false → s.b R.HUSK_DBG_STAT_VTEST_OPEN = false →
        Runs (.tapInstruction t i cells) s fun s' => s'.tap.instr = .bypass)
    ∧ (i ∈ [.bypass, .idcode, .preload] → Runs (.tapInstruction t i cells) s fun s' => s'.tap.instr = i)

/-- R44: a SAR code is floor(V_in × gain × 65,536 ÷ 2.5 V), with the voltage in nV and gain 2^g; below 0 V it is 0, and from 2.5 V ÷ gain on it is
65,535; these two are rail codes. -/
def Obligations.SarCodeIsFlooredRatio : Prop :=
  ∀ (vin : Int) (g : Nat),
    (vin < 0 → sarCode vin g = 0) ∧ (2500000000 ≤ vin * 2 ^ g → sarCode vin g = 65535)
      ∧ (0 ≤ vin → vin * 2 ^ g < 2500000000 →
          (sarCode vin g : Int) * 2500000000 ≤ vin * 2 ^ g * 65536 ∧ vin * 2 ^ g * 65536 < ((sarCode vin g : Int) + 1) * 2500000000)
      ∧ sarCode vin g < 65536 ∧ (isRail (sarCode vin g) = true ↔ sarCode vin g = 0 ∨ sarCode vin g = 65535)

/-- R43, R45, R46, R49 to R52: a converter unit samples the input that its entry names at the end of an acquisition, holds the code for 60 ns of
conversion phase and on to its conversion end, and the acquisition of the next entry of the regular sequence starts as the conversion phase ends, or
entry 0's where a restart waits. An injected trigger during an acquisition starts the injected sequence at entry 12; during a conversion phase it
waits for its end; while the injected sequence runs it is ignored and sets the unit's bit in MEAS_INJ_OVR. -/
def Obligations.ConverterUnitRunsItsSequences : Prop :=
  (∀ (s u : State) (t : Instant) (n : Nat), u = s.start t → u.measOn = true →
      (∀ (vin : List Int) (inj : Option Instant), (u.unit n).phase = 1 → (u.unit n).until_ ≤ u.now →
        Runs (.samplingInstant t n vin inj) s fun s' =>
          (s'.unit n).phase = 2 ∧ (s'.unit n).until_ = u.now + 240 ∧ (s'.unit n).entry = (u.unit n).entry
            ∧ (∃ code, (s'.unit n).flight = (u.unit n).flight ++ [((u.unit n).entry, code, u.now)] ∧ code < 65536
                ∧ ((∀ q, inj = some q → q + 2 * usQ < u.now) →
                    code = sarCode (vin.getD (u.f R.MEAS_SEQ_ENT_INPUT n (u.unit n).entry) 0) (u.f R.MEAS_SEQ_ENT_GAIN n (u.unit n).entry)))
            ∧ ∀ m, m ≠ n → s'.unit m = u.unit m)
      ∧ ((u.unit n).phase = 2 → (u.unit n).until_ ≤ u.now → (u.unit n).inj = false → (u.unit n).injWait = false → (u.unit n).restart = false →
        Runs (.conversionPhaseEnd t n) s fun s' =>
          (s'.unit n).phase = 1 ∧ (s'.unit n).inj = false
            ∧ (s'.unit n).entry = (if (u.unit n).entry < u.f R.MEAS_SEQ_CTL_SEQ_LEN n then (u.unit n).entry + 1 else 0)
            ∧ (s'.unit n).until_ = u.now + u.acqTime n (s'.unit n).entry ∧ (s'.unit n).flight = (u.unit n).flight)
      ∧ ((u.unit n).phase = 2 → (u.unit n).until_ ≤ u.now → (u.unit n).inj = false → (u.unit n).injWait = false → (u.unit n).restart = true →
        Runs (.conversionPhaseEnd t n) s fun s' =>
          (s'.unit n).phase = 1 ∧ (s'.unit n).entry = 0 ∧ (s'.unit n).restart = false
            ∧ u.now + u.acqTime n 0 ≤ (s'.unit n).until_ ∧ (s'.unit n).until_ ≤ u.now + u.acqTime n 0 + 5 * nsQ)
      ∧ ((u.unit n).phase = 2 → (u.unit n).until_ ≤ u.now → (u.unit n).injWait = true → Runs (.conversionPhaseEnd t n) s fun s' =>
          (s'.unit n).phase = 1 ∧ (s'.unit n).inj = true ∧ (s'.unit n).entry = 12))
  ∧ (∀ (s u : State) (t : Instant) (n : Nat), u = s.start t → u.measOn = true → (u.unit n).injDue = true → n < 24 →
      ((u.unit n).inj = false → (u.unit n).injWait = false → (u.unit n).phase = 1 → Runs (.injectedTrigger t n) s fun s' =>
        (s'.unit n).phase = 1 ∧ (s'.unit n).inj = true ∧ (s'.unit n).entry = 12 ∧ (s'.unit n).injDue = false)
      ∧ ((u.unit n).inj = false → (u.unit n).injWait = false → (u.unit n).phase = 2 → Runs (.injectedTrigger t n) s fun s' =>
        (s'.unit n).phase = 2 ∧ (s'.unit n).injWait = true ∧ (s'.unit n).inj = false)
      ∧ ((u.unit n).inj = true → Runs (.injectedTrigger t n) s fun s' =>
        s'.bitF R.MEAS_INJ_OVR_OVR n = true ∧ s'.b R.MEAS_STAT_OVR_ANY = true ∧ (s'.unit n).entry = (u.unit n).entry))

/-- R49, R54 to R60, R64, R66: at its conversion end a code enters the accumulator its route names, with the weight that the mode gives it, and no
other; the code of a sigma-delta channel is the output of its sinc3 filter over the bits sampled from its data pin, scaled by SHIFT; the channels
discard their first outputs. (The window stays open: it has not reached its count; no other conversion ends in the tick.) -/
def Obligations.ConversionEntersItsAccumulator : Prop :=
  ∀ (s u : State) (t : Instant) (a : Nat), u = s.start t → u.measOn = true → u.b R.MEAS_ACC_CFG_EN a = true →
    u.b R.MEAS_ACC_CFG_MODE a = false → u.f R.MEAS_ACC_CLOSE_SRC a ≠ 2 → (u.acc a).cnt + 1 < 16777215 →
    let entered (code : Nat) (s' : State) : Prop :=
      s'.acc a = { u.acc a with sum := (u.acc a).sum + code, cnt := (u.acc a).cnt + 1, rail := (u.acc a).rail || isRail code }
        ∧ (∀ b, b ≠ a → s'.acc b = u.acc b) ∧ (∀ m, s'.mmt m = u.mmt m) ∧ s'.regs.meas = u.regs.meas
    (∀ (n e code : Nat) (i : Instant) (rest : List (Nat × Nat × Instant)), n < 24 → (u.unit n).flight = (e, code, i) :: rest →
        u.convDone i = true → (∀ x ∈ rest, u.convDone x.2.2 = false) → (∀ m, m ≠ n → ∀ x ∈ (u.unit m).flight, u.convDone x.2.2 = false) →
        u.b R.MEAS_SEQ_ENT_ACC_EN n e = true → u.f R.MEAS_SEQ_ENT_ACC n e = a → u.b R.MEAS_SEQ_ENT_MMT_EN n e = false →
        Runs (.conversionEnd t n) s fun s' => (s'.unit n).flight = rest ∧ entered code s')
    ∧ (∀ (n : Nat) (clk : Instant) (pin : List (Instant × Bool)), u.sdOn n = true →
        let osr := u.f R.MEAS_SD_CFG_OSR n + 1
        let bits := (u.sdBits n osr clk pin ++ (u.sdCh n).bits).take (3 * osr)
        ((u.sdCh n).discard = 0 → u.b R.MEAS_SD_RT_ACC_EN n = true → u.f R.MEAS_SD_RT_ACC n = a → u.b R.MEAS_SD_RT_MMT_EN n = false →
          Runs (.sdConversionEnd t n clk pin) s fun s' => (s'.sdCh n).bits = bits
            ∧ entered (min 65535 (sinc3 osr bits >>> u.f R.MEAS_SD_CFG_SHIFT n)) s')
        ∧ (0 < (u.sdCh n).discard → Runs (.sdConversionEnd t n clk pin) s fun s' => (s'.sdCh n).bits = bits
            ∧ (s'.sdCh n).discard = (u.sdCh n).discard - 1 ∧ s'.meas.acc = u.meas.acc ∧ s'.meas.mmt = u.meas.mmt))

/-- R57, R69, R71: an output of a protection filter enters the tracker its route names: extremes and counts follow; while outputs are discarded
nothing enters. -/
def Obligations.ProtectionFilterFeedsItsTracker : Prop :=
  ∀ (s u : State) (t : Instant) (n m : Nat) (clk : Instant) (pin : List (Instant × Bool)), u = s.start t → u.sdOn n = true →
    u.f R.MEAS_SD_CFG_PROT_OSR n ≠ 0 →
    let osr := 2 ^ protLog (u.f R.MEAS_SD_CFG_PROT_OSR n)
    let bits := (u.sdBits n osr clk pin ++ (u.sdCh n).bitsProt).take (3 * osr)
    (0 < (u.sdCh n).discardProt → Runs (.sdProtectionOutput t n clk pin) s fun s' => (s'.sdCh n).bitsProt = bits
      ∧ (s'.sdCh n).discardProt = (u.sdCh n).discardProt - 1 ∧ s'.meas.acc = u.meas.acc ∧ s'.meas.mmt = u.meas.mmt)
    ∧ ((u.sdCh n).discardProt = 0 → u.b R.MEAS_SD_RT_PMMT_EN n = true → u.f R.MEAS_SD_RT_PMMT n = m → u.b R.MEAS_MMT_CFG_EN m = true →
      u.f R.MEAS_MMT_CLOSE_SRC m ≠ 2 → (u.mmt m).cnt + 1 < 16777215 →
      ∀ code, code = protCode (sinc3 osr bits) (u.f R.MEAS_SD_CFG_PROT_OSR n) → Runs (.sdProtectionOutput t n clk pin) s fun s' =>
        (s'.mmt m).cnt = (u.mmt m).cnt + 1 ∧ (s'.mmt m).max = max (u.mmt m).max code
          ∧ (s'.mmt m).min = (if (u.mmt m).cnt = 0 then code else min (u.mmt m).min code)
          ∧ s'.meas.acc = u.meas.acc ∧ ∀ k, k ≠ m → s'.mmt k = u.mmt k)

/-- R47, R56, R58: the end of calibration shows in MEAS_CTL, and where the image is sealed already conversion starts with it; a stuck channel stops
and is reported, and one that resumes discards three outputs of each filter again. -/
def Obligations.ChannelsCalibrateStickAndResume : Prop :=
  ∀ (s u : State) (t : Instant) (n : Nat), u = s.start t →
    (u.alive = true → u.b R.MEAS_CTL_CAL_DONE = false → Runs (.calibrationDone t) s fun s' => s'.b R.MEAS_CTL_CAL_DONE = true
      ∧ (u.sealed = true → u.b R.MEAS_CTL_EN = true → n < 24 → u.b R.MEAS_SEQ_CTL_EN n = true →
          (s'.unit n).phase = 1 ∧ (s'.unit n).entry = 0 ∧ (s'.unit n).until_ = u.now + u.acqTime n 0)
      ∧ (u.sealed = false → s'.meas = u.meas))
    ∧ (u.sdOn n = true → u.room → Runs (.sdStuck t n) s fun s' =>
        (s'.sdCh n).stuck = true ∧ s'.b R.MEAS_STAT_STUCK_ANY = true ∧ s'.sdOn n = false
          ∧ (if n < 32 then s'.bitF R.MEAS_SD_STUCK0_STUCK n = true else s'.bitF R.MEAS_SD_STUCK1_STUCK (n - 32) = true)
          ∧ Reports u s' E.SD_STUCK (subject n))
    ∧ (u.sdClocked n = true → (u.sdCh n).stuck = true → u.room → Runs (.sdResumed t n) s fun s' =>
        (s'.sdCh n).stuck = false ∧ (s'.sdCh n).discard = 3 ∧ (s'.sdCh n).discardProt = 3 ∧ s'.regs = u.regs
          ∧ Reports u s' E.SD_RESUMED (subject n))

/-- R5, R74: a write of MEAS_PAIR_STAT that passes the husk clears the fault bits it names, but for one that is set in the same cycle, and no other;
the counts of the pairs it clears start again. -/
def Obligations.PairFaultClearReleasesPairs : Prop :=
  ∀ (s w : State) (t : Instant) (fn : Nat) (data : Word), (s.start t).actionWrite fn R.MEAS_PAIR_STAT_FAULT data = (w, true) →
    Runs (.pairFaultClear t fn data) s fun s' => ∀ p, p < 32 →
      let clears := data.getLsbD p && !(w.freshOf .meas (R.MEAS_PAIR_STAT_FAULT.key 0 0)).testBit p
      s'.bitF R.MEAS_PAIR_STAT_FAULT p = (w.bitF R.MEAS_PAIR_STAT_FAULT p && !clears)
        ∧ (s'.pair p).run = (if w.bitF R.MEAS_PAIR_STAT_FAULT p && clears then 0 else (w.pair p).run)
        ∧ s'.b R.MEAS_STAT_PAIR_ANY = (s'.f R.MEAS_PAIR_STAT_FAULT != 0)

/-- R61, R62: at the first tick at or after an instant PHASE + m × PERIOD that has not produced its event, the generator produces it and marks m as
done: the windows of the accumulators that close by the generator close, no other window does, and the units with a trigger of the generator take
theirs. (No conversion ends in the tick.) -/
def Obligations.NtimeGeneratorProducesEachInstantOnce : Prop :=
  ∀ (s u : State) (t : Instant) (k : Nat) (m : Int), u = s.start t → u.sealed = true → u.regs.canon → u.ntevDue k = some m →
    Runs (.ntimeGeneratorEvent t k) s fun s' =>
      (∀ j, inRanges j (kget [] s'.meas.ntevDone k) = true ↔ j = m ∨ inRanges j (kget [] u.meas.ntevDone k) = true)
      ∧ (u.measOn = true → (∀ n, ∀ x ∈ (u.unit n).flight, u.convDone x.2.2 = false) →
        (∀ a < 256, s'.acc a =
          if u.b R.MEAS_ACC_CFG_EN a = true ∧ u.f R.MEAS_ACC_CLOSE_SRC a = 1 ∧ u.f R.MEAS_ACC_CLOSE_ARG a % 8 = k then
            { u.acc a with sum := 0, cnt := 0, rail := false
                           resSum := if (u.acc a).cnt < 4 then 0 else (u.acc a).sum, resCnt := if (u.acc a).cnt < 4 then 0 else (u.acc a).cnt }
          else u.acc a)
        ∧ ∀ n < 24, u.b R.MEAS_SEQ_CTL_EN n = true → u.b R.MEAS_SEQ_CTL_MODE n = true → u.f R.MEAS_SEQ_CTL_INJ_TRIG n = 2 →
          u.f R.MEAS_SEQ_CTL_INJ_NTEV n = k → (s'.unit n).injDue = true)

/-- R81, R82: an accepted edge of one of A and B counts up or down by its direction, which DIR_INV turns round, and leaves its edge time; edges of
both at one edge time do not count, set QUAD_ERR and post QUAD_ERROR; a level that has not stood for FILT + 1 ticks is no edge. -/
def Obligations.QuadratureEdgeCounts : Prop :=
  ∀ (s u : State) (t : Instant) (n : Nat) (a b : Bool) (ta tb : Instant), u = s.start t → u.piOn n = true →
    u.b R.POS_PI_CFG_INC_EN n = true →
    let counted (up : Bool) (e : Nat) (s' : State) : Prop :=
      (s'.pi n).edgeDir = up ∧ (s'.pi n).cnt = (if up then (u.pi n).cnt + 1 else (u.pi n).cnt - 1)
        ∧ (s'.pi n).edgeTick = some e ∧ ∀ m, m ≠ n → s'.pi m = u.pi m
    (u.accepted n ta = true → (u.pi n).qa = some (!a) → (u.pi n).qb = some b → Runs (.quadEdge t n a b ta tb) s
      (counted ((a != b) != u.b R.POS_INC_CFG_DIR_INV n) (u.firstTick ta)))
    ∧ (u.accepted n tb = true → (u.pi n).qb = some (!b) → (u.pi n).qa = some a → Runs (.quadEdge t n a b ta tb) s
      (counted ((a == b) != u.b R.POS_INC_CFG_DIR_INV n) (u.firstTick tb)))
    ∧ (u.accepted n ta = true → u.accepted n tb = true → (u.pi n).qa = some (!a) → (u.pi n).qb = some (!b) → u.firstTick ta = u.firstTick tb →
      Runs (.quadEdge t n a b ta tb) s fun s' =>
        (s'.pi n).cnt = (u.pi n).cnt ∧ s'.b R.POS_PI_STAT_QUAD_ERR n = true
          ∧ (u.b R.POS_PI_STAT_QUAD_ERR n = false → u.room → Posts u s' E.QUAD_ERROR (subject n)))
    ∧ (u.accepted n ta = false → u.accepted n tb = false → Runs (.quadEdge t n a b ta tb) s fun s' =>
        (s'.pi n).cnt = (u.pi n).cnt ∧ s'.regs = u.regs)

/-- R81, R83, R84: a rising edge of the gated index latches the counter into IDX_CNT, after the edges of A and B that are accepted in its tick have
counted, and makes IDX_VALID; the counter runs on; a latch that fits neither zero nor 4 × LINES of the last one sets INDEX_ERR. Hall levels that have
stood for FILT + 1 ticks become the Hall state, with their edge time; a change of more than one level sets HALL_SEQ, an invalid state HALL_ERR; the
first accepted state is no change. -/
def Obligations.IndexAndHallFollowTheirSignals : Prop :=
  (∀ (s u : State) (t : Instant) (n : Nat) (a b : Bool) (ta tb tz : Instant), u = s.start t → u.piOn n = true →
      u.b R.POS_PI_CFG_INC_EN n = true → u.b R.POS_INC_CFG_Z_EN n = true → u.accepted n tz = true →
      (u.f R.POS_INC_CFG_Z_GATE n = 0 ∨ u.f R.POS_INC_CFG_Z_GATE n = 1 ∧ a = true ∧ b = true) →
      Runs (.indexLatch t n a b ta tb tz) s fun s' =>
        (s'.pi n).idxCnt = (s'.pi n).cnt ∧ (s'.pi n).idxValid = true
          ∧ ((u.pi n).qa = some a → (u.pi n).qb = some b → (s'.pi n).cnt = (u.pi n).cnt)
          ∧ ((u.pi n).idxValid = true → indexBad (s'.pi n).cnt (u.pi n).idxCnt (4 * (u.f R.POS_INC_CFG_LINES n + 1)) = true →
              s'.b R.POS_PI_STAT_INDEX_ERR n = true))
  ∧ (∀ (s u : State) (t : Instant) (n h : Nat) (tu tv tw : Instant), u = s.start t → u.piOn n = true → u.b R.POS_PI_CFG_HALL_EN n = true → h < 8 →
      u.accepted n tu = true → u.accepted n tv = true → u.accepted n tw = true → u.firstTick tu = u.firstTick tv → u.firstTick tv = u.firstTick tw →
      (∀ o, (u.pi n).hall = some o → o < 8 → h ≠ o → Runs (.hallTransition t n h tu tv tw) s fun s' =>
        (s'.pi n).hall = some h ∧ (s'.pi n).hallTick = some (u.firstTick tu)
          ∧ (h = 0 ∨ h = 7 → s'.b R.POS_PI_STAT_HALL_ERR n = true)
          ∧ (2 ≤ popcount 3 (o ^^^ h) → s'.b R.POS_PI_STAT_HALL_SEQ n = true))
      ∧ ((u.pi n).hall = none → Runs (.hallTransition t n h tu tv tw) s fun s' =>
        (s'.pi n).hall = some h ∧ s'.b R.POS_PI_STAT_HALL_SEQ n = u.b R.POS_PI_STAT_HALL_SEQ n))

/-- R85, R86, R88, R97: a serial frame that has ended frees the interface, a BiSS-C one from the instant at which SL is high again, an SSI one 25 µs
later; a wrong CRC or parity sets SER_CRC, a BiSS-C frame without a start bit in time SER_TIMEOUT; a good frame starts the count of failures again. -/
def Obligations.SerialFrameEndsInRecord : Prop :=
  ∀ (s u : State) (t : Instant) (n : Nat), u = s.start t → u.piOn n = true → (u.pi n).ser.running = true →
    (∀ (raw check lineDly : Nat) (nE nW : Bool) (ready : Instant) (v : Nat), v = raw % 2 ^ (u.f R.POS_SER_CFG_LEN n + 1) →
      (u.f R.POS_PI_CFG_SER n = 1 →
        let crc := 63 - biss6 (u.f R.POS_SER_CFG_LEN n + 3) (v * 4 + b2n nE * 2 + b2n nW)
        Runs (.serialFrameEnd t n raw check lineDly nE nW ready) s fun s' =>
          (s'.pi n).ser.running = false ∧ (s'.pi n).ser.ready = ready
            ∧ (crc ≠ check % 64 → s'.b R.POS_PI_STAT_SER_CRC n = true) ∧ (crc = check % 64 → (s'.pi n).ser.run = 0))
      ∧ (u.f R.POS_PI_CFG_SER n = 2 →
        let bad : Bool := u.b R.POS_SER_CFG_PARITY n && popcount 41 v % 2 != check % 2
        Runs (.serialFrameEnd t n raw check lineDly nE nW ready) s fun s' =>
          (s'.pi n).ser.running = false ∧ (s'.pi n).ser.ready = u.now + 25 * usQ
            ∧ (bad = true → s'.b R.POS_PI_STAT_SER_CRC n = true) ∧ (bad = false → (s'.pi n).ser.run = 0)))
    ∧ (u.f R.POS_PI_CFG_SER n = 1 →
      (u.pi n).ser.start + 4 * (u.f R.POS_SER_CFG_TIMEOUT n + 1) * (u.f R.POS_SER_CFG_MA_DIV n * 4 * nsQ) ≤ u.now →
      ∀ ready : Instant, Runs (.serTimeout t n ready) s fun s' =>
        (s'.pi n).ser.running = false ∧ (s'.pi n).ser.ready = ready ∧ s'.b R.POS_PI_STAT_SER_TIMEOUT n = true)

/-- R5, R91, R97, R98: a fault of the excitation output sets EXC_FAULT and stops the output; a clear of LOSS that the husk grants, with no cause in
the same cycle, takes LOSS and its line away and starts the counts again; with one LOSS stays. -/
def Obligations.ExcitationFaultAndLossClear : Prop :=
  (∀ (s u : State) (t : Instant) (n : Nat), u = s.start t → u.piOn n = true → u.b R.POS_RES_CFG_EXC_EN n = true →
    Runs (.excFault t n) s fun s' => s'.b R.POS_PI_STAT_EXC_FAULT n = true
      ∧ ((u.pi n).exc ≠ [] → ∃ g, (s'.pi n).exc.head? = some g ∧ g.on = false))
  ∧ ∀ (s w : State) (t : Instant) (fn n : Nat) (data : Word), n < 8 → (s.start t).actionWrite fn R.POS_PI_STAT_LOSS data n = (w, true) →
    let again := (w.freshOf .pos (R.POS_PI_STAT_LOSS.key n 0)).testBit R.POS_PI_STAT_LOSS.lo
    (again = false → Runs (.lossClear t fn n data) s fun s' =>
      s'.b R.POS_PI_STAT_LOSS n = false ∧ s'.bitF R.POS_CTL_LOSS_LINE n = false
        ∧ (s'.pi n).hallRun = 0 ∧ (s'.pi n).resRun = 0 ∧ (s'.pi n).ser.run = 0)
    ∧ (again = true → w.b R.POS_PI_STAT_LOSS n = true → Runs (.lossClear t fn n data) s fun s' => s'.b R.POS_PI_STAT_LOSS n = true)

/-- R112, R114 to R118, R144: a window result lands in the inputs of its accumulator, a late due input is discarded, and a running evaluation keeps
the inputs it started with; the arrival that completes the inputs of a triggered context starts its evaluation, on a kernel in use it waits; T_IN
after the trigger it starts with what has landed, a missing input keeps its value as stale and sets MISSED. An evaluation that has started ends in the
same command: its context is idle again, and either it has faulted or none of its states is a NaN. -/
def Obligations.InputsStartEvaluationsThatEndWhole : Prop :=
  (∀ (s u : State) (t : Instant) (c : Nat), u = s.start t → u.ctxOn c = true →
      (∀ (n : Nat) (d : InputDef) (a : WinItem) (ts : Word), (u.ctx c).desc.inputs[n]? = some d → d.kind = 1 → d.src = a.acc →
        (u.ctx c).phase ≠ 1 → Runs (.inputArrival t c (.winres ts a none)) s fun s' =>
          kget {} (s'.ctx c).inputs n
              = (if d.cls = 0 ∧ ((u.ctx c).phase = 0 ∨ (u.ctx c).phase = 3 ∨ ts ≠ (u.ctx c).trigTs) then kget {} (u.ctx c).inputs n
                else { sum := a.sum.toInt, cnt := a.cnt, ts := ts, landed := true, got := true })
            ∧ (s'.ctx c).evalIn = (u.ctx c).evalIn ∧ (s'.ctx c).phase = (u.ctx c).phase ∧ s'.regs = u.regs)
      ∧ (∀ (a : WinItem) (ts : Word), (u.ctx c).phase = 1 → (u.landInputs c (.winres ts a none)).allLanded c = true →
        Runs (.inputArrival t c (.winres ts a none)) s fun s' =>
          (s'.ctx c).phase = (if (u.landInputs c (.winres ts a none)).kernelBusy c then 2 else 3))
      ∧ ((u.ctx c).phase = 1 → (u.ctx c).trig.getD 0 + u.f R.LOOP_CTX_TIME_T_IN c ≤ u.pwmTime →
        (u.kernelBusy c = true → Runs (.inputDeadline t c) s fun s' => (s'.ctx c).phase = 2 ∧ s'.regs = u.regs)
        ∧ (u.kernelBusy c = false → Runs (.inputDeadline t c) s fun s' =>
            (s'.ctx c).phase = 3
              ∧ ∀ (n : Nat) (d : InputDef), (u.ctx c).desc.inputs[n]? = some d → isAct d = false →
                inputReady (u.ctx c).trigTs d (kget {} (u.ctx c).inputs n) = false →
                kget {} (s'.ctx c).inputs n = { kget {} (u.ctx c).inputs n with stale := true, landed := false }
                  ∧ kget {} (s'.ctx c).evalIn n = kget {} (s'.ctx c).inputs n
                  ∧ s'.b R.LOOP_CTX_STAT_MISSED c = true ∧ (s'.ctx c).missRun = (u.ctx c).missRun + 1)))
  ∧ (∀ (s u : State) (t : Instant) (c : Nat) (law : LawOut), u = s.start t → u.ctxOn c = true → (u.ctx c).phase = 3 →
      Runs (.evaluation t c law) s fun s' =>
        (s'.ctx c).phase = 0 ∧ (s'.ctxState c = stFaulted ∨ ∀ x ∈ (s'.ctx c).states, x.isNan = false))

/-- R146, R147: a granted clear of FAULT makes the context restart at its next trigger unless a kernel was lost; a transaction with a word that fails
a check is refused whole with the DETAIL of that check, and one that passes goes on to the kernels at once when none is under way, and to the partner
with the words that both receive. -/
def Obligations.ParametersAndFaultClearReachContext : Prop :=
  (∀ (s w : State) (t : Instant) (fn c : Nat) (data : Word), c < 512 → (s.start t).actionWrite fn R.LOOP_CTX_STAT_FAULT data c = (w, true) →
    w.b R.LOOP_CTX_STAT_FAULT c = true → w.setNow R.LOOP_CTX_STAT_FAULT 0 c = false → (w.ctx c).cause ≠ 4 →
    Runs (.ctxFaultClear t fn c data) s fun s' =>
      s'.b R.LOOP_CTX_STAT_FAULT c = false ∧ s'.bitF R.LOOP_FAULT_FAULT (c % 32) (c / 32) = false ∧ (s'.ctx c).restart = true
        ∧ ∀ d, d ≠ c → s'.ctx d = w.ctx d)
  ∧ ∀ (s u : State) (t : Instant) (c dom : Nat) (setp : Bool) (apply : Int) (tag : Nat) (words : List (Nat × Word)), u = s.start t →
    u.ctxOn c = true →
    (∀ d, u.txnDetail c dom setp words = some d → u.room → Runs (.paramTransaction t c dom setp apply tag words) s fun s' =>
        Posts u s' E.PARAM_REFUSED (subject c) (nw d) ∧ s'.loop = u.loop)
    ∧ (u.txnDetail c dom setp words = none → (u.ctx c).sent = none → (u.ctx c).txnQueue = [] → u.partner c = none →
      Runs (.paramTransaction t c dom setp apply tag words) s fun s' =>
        s'.ctx c = { u.ctx c with sent := some { apply := apply, words := words, tag := some tag } }
          ∧ (∀ d, d ≠ c → s'.ctx d = u.ctx d) ∧ s'.regs.loop = u.regs.loop)
    ∧ ∀ p, u.txnDetail c dom setp words = none → u.partner c = some p → p ≠ c → (u.ctx p).sent = none → (u.ctx p).txnQueue = [] →
      (u.ctx c).sharedWords words ≠ [] → Runs (.paramTransaction t c dom setp apply tag words) s fun s' =>
        (s'.ctx p).sent = some { apply := apply, words := (u.ctx c).sharedWords words } ∧ s'.regs.loop = u.regs.loop

/-- R133, R236: a CMPW to a target that does not exist is discarded as CMPW_BAD, one from no owner as CMPW_NOT_OWNER, one from the inactive owner
without an event; a malformed one of the active owner sets CMPW_BAD. -/
def Obligations.CmpwDiscardsKeepTheirOrder : Prop :=
  ∀ (s u : State) (t : Instant) (f : Flit) (w : Cmpw), u = s.start t → u.sealed = true → f.payload = .cmpw w →
    (28 ≤ w.target → u.room → Runs (.cmpwArrival t f) s fun s' =>
      s'.pwm = u.pwm ∧ s'.regs = u.regs ∧ Reports u s' E.CMPW_BAD (subject w.target))
    ∧ (w.target < 28 → u.ownerIndex w.target w.ctx = none ∨ u.kernelOf f.src w.ctx = false → u.room → Runs (.cmpwArrival t f) s fun s' =>
      s'.pwm = u.pwm ∧ s'.regs = u.regs ∧ Reports u s' E.CMPW_NOT_OWNER (subject w.target) (nw w.ctx))
    ∧ ∀ own, w.target < 28 → u.ownerIndex w.target w.ctx = some own → u.kernelOf f.src w.ctx = true →
      (own ≠ u.activeIndex w.target → w.take = false → Runs (.cmpwArrival t f) s fun s' => s' = u)
      ∧ (own = u.activeIndex w.target → u.cmpwMalformed w = true → Runs (.cmpwArrival t f) s fun s' =>
          s'.pwm = u.pwm ∧ (w.target < 24 → s'.b R.PWM_SLOT_STAT_CMPW_BAD w.target = true)
            ∧ (24 ≤ w.target → s'.b R.AUX_BR_STAT_CMPW_BAD (w.target - 24) = true))

/-- R121, R125, R126, R236: an accepted COMPARE flit that is in time leaves each value that it carries waiting for T_eff = ISSUE_TS + L_DLV and keeps
its SEQ; a TAKE makes its owner the active one; the other channels keep what they had. -/
def Obligations.AcceptedCompareWaitsForItsInstant : Prop :=
  ∀ (s u : State) (t : Instant) (f : Flit) (w : Cmpw) (own : Nat), u = s.start t → u.sealed = true → f.payload = .cmpw w →
    w.target < 24 → u.ownerIndex w.target w.ctx = some own → u.kernelOf f.src w.ctx = true → (own = u.activeIndex w.target ∨ w.take = true) →
    u.cmpwMalformed w = false → w.carrier = false → w.epoch = u.net.parity → w.vals.length = 6 → w.seq < 256 →
    ∀ te : Nat, u.issueTick w + (u.f R.LOOP_CTX_TIME_L_DLV w.ctx : Int) = (te : Int) → u.pwmTime ≤ te →
    Runs (.cmpwArrival t f) s fun s' =>
      s'.f R.PWM_SLOT_UPD_SEQ w.target = w.seq
        ∧ (∀ i v, w.vals[i]? = some (some v) → ∃ x, (s'.chan (6 * w.target + i)).wait = some x ∧ x.val = v ∧ x.teff = te)
        ∧ (∀ i, w.vals[i]? = some none → s'.chan (6 * w.target + i) = u.chan (6 * w.target + i))
        ∧ (w.take = true → s'.b R.PWM_SLOT_STAT_B_ACTIVE w.target = (own == 1))

/-- R146, R151 to R154: with the load complete a migration waits for its trigger; a snapshot that has not landed T_IN after trigger k+1 aborts it; the
VERIFY words of both sides, the CRC-32 of outputs and states and the trigger tick, commit it if equal and else abort it; a reload onto a spare that
completes the last of a context's lost kernels clears FAULT, lets the context restart, and sets FORCED. -/
def Obligations.MigrationsCommitAbortOrForce : Prop :=
  (∀ (s u : State) (t : Instant) (m : MigSt), u = s.start t → u.loop.mig = some m → u.loop.migQueue = [] → m.rel = false → m.tag = none →
      (m.step = 0 → (u.clk.podReq.any fun r => r.1 == m.dstPod) = false → Runs (.migLoadDone t) s fun s' =>
        s'.f R.LOOP_MIG_STAT_PHASE = 2 ∧ s'.loop.mig = some { m with step := 1 } ∧ s'.loop.ctx = u.loop.ctx
          ∧ s'.sea = (u.copyMem m.moves).sea)
      ∧ (m.step = 4 → m.snapLanded = false → m.trig1.getD 0 + u.f R.LOOP_CTX_TIME_T_IN m.ctx ≤ u.pwmTime → Runs (.snapshotDeadline t) s fun s' =>
        s'.loop.mig = none ∧ s'.f R.LOOP_MIG_STAT_PHASE = 0 ∧ s'.b R.LOOP_MIG_STAT_ABORTED = true ∧ s'.loop.ctx = u.loop.ctx)
      ∧ (m.step = 4 → m.snapLanded = true → (u.ctx m.ctx).phase = 0 →
        ∀ (parts : List (List Nat × List Nat)) (dst : List (List Word × List Word)) (words : List (List Word × List Word) → List (List Word)),
        u.partsOk m parts = true → dst.length = parts.length → words = (List.map fun p => (u.ctx m.ctx).verifyWords p.1 p.2) →
        (words ((u.ctx m.ctx).partWords parts) = words dst → Runs (.migVerify t parts dst) s fun s' =>
          s'.loop.mig = none ∧ s'.f R.LOOP_MIG_STAT_PHASE = 0 ∧ s'.b R.LOOP_MIG_STAT_DONE = true)
        ∧ (words ((u.ctx m.ctx).partWords parts) ≠ words dst → Runs (.migVerify t parts dst) s fun s' =>
          s'.loop.mig = none ∧ s'.f R.LOOP_MIG_STAT_PHASE = 0 ∧ s'.b R.LOOP_MIG_STAT_ABORTED = true ∧ s'.loop.ctx = u.loop.ctx)))
  ∧ (∀ (s u : State) (t : Instant) (c : Nat) (r : Reload), u = s.start t → c < 512 → u.loop.mig = none →
      (u.rel.reloads.find? fun x => x.ctxs.contains c) = some r → (u.rel.reloads.filter fun x => x.ctxs.contains c).length = 1 →
      Runs (.forcedMigration t c) s fun s' =>
        s'.b R.LOOP_CTX_STAT_FAULT c = false ∧ s'.bitF R.LOOP_FAULT_FAULT (c % 32) (c / 32) = false ∧ (s'.ctx c).restart = true
          ∧ s'.b R.LOOP_MIG_STAT_DONE = true ∧ s'.b R.LOOP_MIG_STAT_FORCED = true
          ∧ (r ∉ s'.rel.reloads ∨ ∃ d ∈ r.ctxs, d ≠ c))

/-- R169, R175, R176, R190: when its time passes, COAST_WAIT ends in OFF with START_FAILED, ACQUIRE in ASC_HOLD, and DISCHARGE in OFF with
DISCH_TIMEOUT; no other context and no register of the plant side changes. -/
def Obligations.DriveTimersEnterTheirState : Prop :=
  ∀ (s u : State) (t : Instant) (c : Nat), u = s.start t → u.ctxOn c = true → u.room →
    let entered (st : Nat) (e : Ev) (w : Word) (s' : State) : Prop :=
      (s'.drv c).st = st ∧ (s'.drv c).entered = u.now ∧ Posts u s' e (subject c) w ∧ (∀ d, d ≠ c → s'.ctx d = u.ctx d)
        ∧ ∀ b k, b ≠ .sys → s'.word b k = u.word b k
    ((u.drv c).st = dCoastWait → spanOf (u.pv c 19) ≤ u.drvSince c → Runs (.coastTimeout t c) s (entered dOff E.START_FAILED (nw 1)))
    ∧ ((u.drv c).st = dAcquire → spanOf (u.pv c 25) ≤ u.drvSince c → Runs (.ascHold t c) s (entered dAscHold E.ASC_HOLD 0))
    ∧ ((u.drv c).st = dDischarge → spanOf (u.pv c 28) ≤ u.drvSince c → Runs (.dischTimeout t c) s (entered dOff E.DISCH_TIMEOUT 0))

/-- R200, R204, R206, R214, R216: a passed ride-through limit and a passed resynchronisation time end in TRIP_OUT, a returned grid is judged by its
angle, BLOCK over and locked ends in RAMP at limit 0; a failed precharge ends in FAULT with its contactors open, a settled MAIN in RUN with limits
from 0, and old battery limits are marked stale. -/
def Obligations.GridAndBatteryTimersAct : Prop :=
  ∀ (s u : State) (t : Instant) (c : Nat), u = s.start t → u.ctxOn c = true → u.room →
    let others (s' : State) : Prop := (∀ d, d ≠ c → s'.ctx d = u.ctx d) ∧ ∀ b k, b ≠ .sys → s'.word b k = u.word b k
    (∀ k, (u.ctx c).rtLimit = some k → Runs (.rtTrip t c) s fun s' =>
        (s'.grid c).st = gTripOut ∧ Posts u s' E.RT_TRIP (subject c) (nw k) ∧ others s')
    ∧ ((u.ctx c).resyncOver = true → Runs (.resyncTimeout t c) s fun s' =>
        (s'.grid c).st = gTripOut ∧ Posts u s' E.RESYNC_TIMEOUT (subject c) ∧ others s')
    ∧ ((u.ctx c).gridBack = true → (u.ctx c).rtLimit = none → Runs (.gridReturn t c) s fun s' =>
        (u.gridForming c = true → (s'.grid c).st = (if (u.ctx c).inBand then gRun else gRide) ∧ (s'.grid c).theta = (u.grid c).theta)
          ∧ (u.gridForming c = false → (s'.grid c).theta = Vec2.arg (u.grid c).vpos
              ∧ ((s'.grid c).st = gBlock ↔ ¬ absQ (rnd (wrapPi (Vec2.arg (u.grid c).vpos - (u.grid c).theta))) ≤ u.pv c 133)) ∧ others s')
    ∧ ((u.ctx c).blockOver = true → Runs (.blockEnd t c) s fun s' => (s'.grid c).st = gRamp ∧ (s'.grid c).ilim = 0 ∧ others s')
    ∧ (∀ k, (u.ctx c).prechargeOver = some k → Runs (.prechargeFail t c) s fun s' =>
        (s'.dcdc c).st = bFail ∧ (s'.dcdc c).pre = false ∧ (s'.dcdc c).main = false ∧ Posts u s' E.PRECHARGE_FAIL (subject c) (nw k) ∧ others s')
    ∧ ((u.ctx c).mainOver = true → Runs (.mainSettled t c) s fun s' =>
        (if (u.ctx c).linkCharged then (s'.dcdc c).st = bRun ∧ (s'.dcdc c).pre = false ∧ (s'.dcdc c).chg = 0 ∧ (s'.dcdc c).dis = 0
         else (s'.dcdc c).st = bFail ∧ Posts u s' E.PRECHARGE_FAIL (subject c) (nw 2)) ∧ others s')
    ∧ ((u.ctx c).bmsOver = true → Runs (.bmsStale t c) s fun s' =>
        (s'.dcdc c).stale = true ∧ Reports u s' E.BMS_STALE (subject c) ∧ others s')

/-- R179 to R183: ALIGN ends in RAMP at the next step; a due commutation takes the next step of the sequence; ZC_FILT + 1 samples in a row on the new
side, past the blanking, make a crossing; it counts, and closes the loop on the (N_ZC + 1)-th in a row, whose next commutation is (128 − ADV) ÷ 256 of
the interval away; a RAMP that ends, or a stall, stops the bridge for RETRIES + 1 s, or for good after N_RETRY; a retry asks for a token again. -/
def Obligations.BridgeRunsSixSteps : Prop :=
  ∀ (s u : State) (t : Instant) (x : Nat), u = s.start t → u.bcOn x = true →
    let failed (s' : State) : Prop := s'.bcPhase x = bcStopped
      ∧ (if u.f R.AUX_BC_STAT_RETRIES x < u.f R.AUX_BC_RUN_N_RETRY x then
          s'.f R.AUX_BC_STAT_RETRIES x = u.f R.AUX_BC_STAT_RETRIES x + 1 ∧ (s'.bc x).retryAt = some (u.now + (u.f R.AUX_BC_STAT_RETRIES x + 1) * secQ)
         else s'.b R.AUX_BC_STAT_START_FAIL x = true ∧ (s'.bc x).barred = true)
    (u.bcPhase x = bcAlign → (u.bc x).phaseAt + u.f R.AUX_BC_START_T_ALIGN x * 10 * msQ ≤ u.now → Runs (.alignEnd t x) s fun s' =>
      s'.bcPhase x = bcRamp ∧ (s'.bc x).step = u.bcNext x ∧ (s'.bc x).made = 0 ∧ (s'.bc x).phaseAt = u.now)
    ∧ (u.bcPhase x = bcClosed ∧ (∃ d, (u.bc x).due = some d ∧ d ≤ u.now) ∨ u.bcPhase x = bcRamp ∧ u.rampDue x = true →
      Runs (.commutation t x) s fun s' =>
        (s'.bc x).step = u.bcNext x ∧ (s'.bc x).commAt = u.now ∧ (s'.bc x).crossed = false ∧ (s'.bc x).made = (u.bc x).made + 1
          ∧ s'.bcPhase x = u.bcPhase x)
    ∧ (u.bcPhase x = bcRamp ∨ u.bcPhase x = bcClosed → (u.bc x).crossed = false →
      ∀ (old new : List (Instant × Bool)), u.samplesOk x (u.bc x).commAt (old ++ new) = true →
      new.length = u.f R.AUX_BC_CFG_ZC_FILT x + 1 → (new.getLast?).map (·.1) = some u.now →
      (∀ a ∈ new, (u.bc x).commAt + u.f R.AUX_BC_CFG_BLANK x * (u.bc x).interval.getD 0 / 256 ≤ a.1 ∧ a.2 = u.expectSide x) →
      Runs (.zeroCross t x (old ++ new)) s fun s' =>
        (s'.bc x).crossed = true ∧ (s'.bc x).crossAt = u.now ∧ (s'.bc x).run = (u.bc x).run + 1
          ∧ (s'.bcPhase x = bcClosed ↔ u.bcPhase x = bcClosed ∨ u.f R.AUX_BC_CFG_N_ZC x + 1 ≤ (u.bc x).run + 1)
          ∧ (u.bcPhase x = bcClosed →
              (s'.bc x).due = some (u.now + (128 - u.f R.AUX_BC_CFG_ADV x) * (u.now - (u.bc x).crossAt) / 256)))
    ∧ (u.bcPhase x = bcRamp → (u.bc x).phaseAt + u.f R.AUX_BC_START_T_RAMP x * 10 * msQ ≤ u.now → Runs (.rampEnd t x) s failed)
    ∧ (u.bcPhase x = bcClosed → (u.bc x).crossed = false → (u.bc x).commAt + 2 * (u.bc x).interval.getD 0 ≤ u.now →
      Runs (.bcStall t x) s fun s' => failed s' ∧ s'.b R.AUX_BC_STAT_STALL x = true)
    ∧ (u.bcPhase x = bcStopped → (∃ r, (u.bc x).retryAt = some r ∧ r ≤ u.now) → u.b R.PWR_TOK_CFG_EN = true → u.b R.PWR_TOK_STAT_OPEN = false →
      Runs (.bcRetry t x) s fun s' => (s'.bc x).retryAt = none ∧ ∃ p ∈ s'.pwr.tokens, p.2 = 512 + x)

/-- R185 to R187: a conversion of CMD_IN (analogue, duty, frequency, or static level) enters the accumulator its configuration names; a period outside
50 µs to 1 ms makes no code and sets RANGE; a level that has not lasted the filter's time does not count. (The window stays open: it has not reached
its count.) -/
def Obligations.CommandInputMakesCodes : Prop :=
  ∀ (s u : State) (t : Instant) (a : Nat), u = s.start t → u.b R.AUX_CMD_CFG_ACC_EN = true → u.f R.AUX_CMD_CFG_ACC = a →
    u.b R.AUX_CMD_CFG_MMT_EN = false → u.b R.MEAS_ACC_CFG_EN a = true → u.b R.MEAS_ACC_CFG_MODE a = false → u.f R.MEAS_ACC_CLOSE_SRC a ≠ 2 →
    (u.acc a).cnt + 1 < 16777215 →
    let entered (code : Nat) (s' : State) : Prop :=
      s'.acc a = { u.acc a with sum := (u.acc a).sum + code, cnt := (u.acc a).cnt + 1, rail := (u.acc a).rail || isRail code }
        ∧ ∀ b, b ≠ a → s'.acc b = u.acc b
    (∀ vin : Int, u.cmdOn 0 = true → u.pwm.cmd.lastAt + (u.f R.AUX_CMD_CFG_RATE + 1) * usQ ≤ u.now →
      Runs (.cmdAnalogueConversion t vin) s fun s' => entered (sarCode vin 0) s' ∧ s'.pwm.cmd.lastAt = u.now)
    ∧ (∀ (wave : List (Instant × Bool)) (c : CmdSt) (per high : Nat), u.cmdOn 1 = true →
      u.pwm.cmd.feed u.cmdFilt wave u.now = (c, [(per, high)]) →
      (50 * usQ ≤ per → per ≤ 1000 * usQ → Runs (.cmdDutyEdge t wave) s fun s' =>
        entered (min 65535 (65536 * high / per)) s' ∧ s'.pwm.cmd = c)
      ∧ (per < 50 * usQ ∨ 1000 * usQ < per → Runs (.cmdDutyEdge t wave) s fun s' =>
        s'.meas = u.meas ∧ s'.b R.AUX_CMD_STAT_RANGE = true ∧ s'.pwm.cmd = c))
    ∧ (∀ e r : Nat, u.cmdOn 1 = true → u.pwm.cmd.level = false → u.pwm.cmd.raw = false → u.pwm.cmd.riseAt = some r →
      (e + u.cmdFilt ≤ u.now → 50 * usQ ≤ e - r → e - r ≤ 1000 * usQ → Runs (.cmdDutyEdge t [(e, true)]) s fun s' =>
        entered (min 65535 (65536 * (u.pwm.cmd.fallAt - r) / (e - r))) s' ∧ s'.pwm.cmd.riseAt = some e)
      ∧ (u.now < e + u.cmdFilt → Runs (.cmdDutyEdge t [(e, true)]) s fun s' => s'.meas = u.meas ∧ s'.pwm.cmd.riseAt = some r))
    ∧ (∀ (wave : List (Instant × Bool)) (c : CmdSt), u.cmdOn 2 = true →
      u.pwm.cmd.lastAt + (u.f R.AUX_CMD_CFG_RATE + 1) * 100 * usQ ≤ u.now → (u.pwm.cmd.feed u.cmdFilt wave u.now).1 = c →
      (∀ rise per : Nat, c.riseAt = some rise → c.per = some per → u.now ≤ rise + secQ → per ≠ 0 → u.f R.AUX_CMD_SCALE_F_FS ≠ 0 →
        Runs (.cmdFrequencyGate t wave) s fun s' =>
          entered (min 65535 (65536 * secQ / (per * u.f R.AUX_CMD_SCALE_F_FS))) s' ∧ s'.pwm.cmd.lastAt = u.now)
      ∧ (c.riseAt = none ∨ (∃ rise, c.riseAt = some rise ∧ rise + secQ < u.now) → Runs (.cmdFrequencyGate t wave) s fun s' =>
          entered 0 s' ∧ s'.pwm.cmd.lastAt = u.now))
    ∧ (∀ (wave : List (Instant × Bool)) (c : CmdSt), u.cmdOn 1 = true → u.pwm.cmd.feed u.cmdFilt wave u.now = (c, []) →
      c.quietAt + (2 + c.statics) * msQ ≤ u.now → Runs (.cmdStatic t wave) s fun s' =>
        entered (if c.level then 65535 else 0) s' ∧ s'.pwm.cmd = { c with statics := c.statics + 1 }
          ∧ s'.b (if c.level then R.AUX_CMD_STAT_STATIC_HI else R.AUX_CMD_STAT_STATIC_LO) = true)

/-- R123, R145, R184, R224, R225, R227, R228: a carrier event ends the half-period and starts the next one, up or down, and counts for the watchdog
unless the owner's flit came; a carrier starts up at its scheduled zero; an edge that is due flips its reference; a value whose T_eff has come no
longer waits and is in force or deferred, or under block commutation the duty, and its flit serves the watchdog; the watchdog line asserts at WD_N. -/
def Obligations.CarriersTurnAndValuesTakeEffect : Prop :=
  ∀ (s u : State) (t : Instant) (T : Nat), u = s.start t → u.sealed = true → T < 28 →
    let upLen (e : Nat) : Nat := match ((u.carrier T).newTop.filter fun n => decide (n.2 ≤ e)).getLast? with
      | some (top, _) => top
      | none => (u.carrier T).nextUp
    (∀ h : HalfPeriod, u.bridge T = T → (u.carrier T).hp = some h → h.start + h.len ≤ u.pwmTime → Runs (.carrierEvent t T) s fun s' =>
      (s'.carrier T).hp = some (if h.up then { start := h.start + h.len, len := u.top T, up := false }
          else { start := h.start + h.len, len := upLen (h.start + h.len), up := true })
        ∧ (s'.carrier T).wdCount = (u.carrier T).wdCount + (if (u.carrier T).servedNow = true ∨ u.topo T = topoOff then 0 else 1)
        ∧ (s'.carrier T).servedNow = false)
    ∧ (u.bridge T = T → u.targetEn T = true → u.topo T ≠ topoOff → (u.carrier T).hp = none →
      u.nextZero T (u.pwm.enTick + 5000) (u.top T) ≤ u.pwmTime → u.room → Runs (.slotStarted t T) s fun s' =>
        (∃ n, (s'.carrier T).hp = some { start := u.nextZero T (u.pwm.enTick + 5000) (u.top T), len := n, up := true }
          ∧ ((u.carrier T).newTop = [] → n = u.top T))
        ∧ (s'.carrier T).wdCount = 0
        ∧ (T < 24 → s'.b R.PWM_SLOT_STAT_STARTED T = true ∧ Posts u s' E.SLOT_STARTED (subject T)))
    ∧ (∀ (i e : Nat) (h : HalfPeriod), i < 6 → i ∈ u.refChans T (i / 2) → u.topo T ≠ topoA → u.topo T ≠ topoB → u.b R.TRIP_CTL_ARMED = false →
      (u.carrier T).hp = some h → (u.leg T (i / 2)).queue = [] → (u.chan (6 * T + i)).edge = some e →
      e ≤ min u.pwmQ ((h.start + h.len) * 8 - 1) → Runs (.referenceEdge t T) s fun s' =>
        (s'.chan (6 * T + i)).ref = !(u.chan (6 * T + i)).ref ∧ (s'.chan (6 * T + i)).edge = none
          ∧ (s'.chan (6 * T + i)).lastEdge = some e ∧ (s'.chan (6 * T + i)).wait = (u.chan (6 * T + i)).wait)
    ∧ Runs (.compareEffective t T) s (fun s' =>
        (∀ i < 6, (s'.chan (6 * T + i)).wait = (u.chan (6 * T + i)).wait.filter fun w => decide (u.pwmTime < w.teff))
        ∧ (s'.carrier T).served = (u.carrier T).served.filter (fun x => decide (u.pwmTime < x.1))
        ∧ ((∃ x ∈ (u.carrier T).served, x.1 ≤ u.pwmTime) →
            (s'.carrier T).wdCount = 0 ∧ (s'.carrier T).wdLine = false ∧ (s'.carrier T).servedNow = true)
        ∧ (T < 24 ∨ u.bcOn (T - 24) = false →
            ((∃ x ∈ (u.carrier T).served, x.1 ≤ u.pwmTime) → (s'.carrier T).opened = true)
            ∧ ∀ (i : Nat) (w : WaitVal), i < 6 → (u.chan (6 * T + i)).wait = some w → w.teff ≤ u.pwmTime →
              ((s'.chan (6 * T + i)).val = some w.val ∨ (s'.chan (6 * T + i)).defer = some w.val) ∧ (s'.chan (6 * T + i)).took = some w.teff)
        ∧ ∀ (x : Nat) (w : WaitVal), T = 24 + x → u.bcOn x = true → (u.chan (6 * T)).wait = some w → w.teff ≤ u.pwmTime →
            (s'.bc x).duty = (if u.f R.AUX_BC_CFG_DUTY_SRC x ≠ 0 then (u.bc x).duty
              else if w.val.mode = .compare then ((cmpQ w.val : Nat) : Rat) / ((8 * u.top T : Nat) : Rat) else 0))
    ∧ (∀ c, u.activeOwner T = some c → (u.carrier T).wdLine = false → u.f R.LOOP_CTX_FLT_WD_N c + 1 ≤ (u.carrier T).wdCount → u.room →
        Runs (.wdExpired t T) s fun s' => (s'.carrier T).wdLine = true ∧ Posts u s' E.WD_EXPIRED (subject c))

/-- R239, R242, R243, R244, R264: an accepted fault level, a bootstrap under-voltage, a VDS fault, an under-voltage of VGD and a comparator trip set
the bits that stand for their line and what has been seen, and report the first; a release clears the line; a rise inside blanking only counts; an
open fault return stands at its fault level. -/
def Obligations.TripSourcesSetTheirLines : Prop :=
  ∀ (s u : State) (t : Instant), u = s.start t → u.sealed = true →
    (∀ (ch : Nat) (level : Option Bool) (since : Instant), ch < 144 → u.bitF R.PWM_FB_CFG_FB_EN (ch % 6) (ch / 6) = true →
      let fault := level.getD (u.bitF R.PWM_FB_CFG_POL (ch % 6) (ch / 6)) == u.bitF R.PWM_FB_CFG_POL (ch % 6) (ch / 6)
      u.bitF R.PWM_FB_STAT_LIVE (ch % 6) (ch / 6) ≠ fault →
      max (u.firstTick since) u.pwm.enTick + u.f R.PWM_FB_CFG_FILT (ch / 6) ≤ u.pwmTime → (u.advance (u.bridge (ch / 6)) u.pwmQ).room →
      Runs (.faultReturn t ch level since) s fun s' =>
        s'.bitF R.PWM_FB_STAT_LIVE (ch % 6) (ch / 6) = fault
          ∧ s'.bitF R.PWM_FB_STAT_SEEN (ch % 6) (ch / 6) = (u.bitF R.PWM_FB_STAT_SEEN (ch % 6) (ch / 6) || fault)
          ∧ (fault = true → u.bitF R.PWM_FB_STAT_SEEN (ch % 6) (ch / 6) = false → Posts u s' E.FB_FAULT (subject (ch / 6) (ch % 6))))
    ∧ (∀ x k : Nat, x < 4 → k < 3 → u.bitF R.AUX_BR_STAT_BOOT_UV_LIVE k x = false → (u.advance (24 + x) u.pwmQ).room →
      Runs (.bootUv t x k) s fun s' => s'.bitF R.AUX_BR_STAT_BOOT_UV_LIVE k x = true ∧ s'.bitF R.AUX_BR_STAT_BOOT_UV k x = true
        ∧ s'.bitF R.AUX_STAT_BOOT_UV_ANY x = true
        ∧ (u.bitF R.AUX_BR_STAT_BOOT_UV k x = false → Posts u s' E.BOOT_UV (subject x k)))
    ∧ (∀ x k : Nat, x < 4 → k < 3 → u.bitF R.AUX_BR_STAT_BOOT_UV_LIVE k x = true →
      Runs (.bootUvRelease t x k) s fun s' => s'.bitF R.AUX_BR_STAT_BOOT_UV_LIVE k x = false
        ∧ (∀ j < 3, j ≠ k → s'.bitF R.AUX_BR_STAT_BOOT_UV_LIVE j x = u.bitF R.AUX_BR_STAT_BOOT_UV_LIVE j x)
        ∧ s'.bitF R.AUX_BR_STAT_BOOT_UV k x = u.bitF R.AUX_BR_STAT_BOOT_UV k x)
    ∧ (∀ (x i : Nat) (v : State), x < 4 → i < 6 → v = u.advance (24 + x) u.pwmQ →
      let c := v.chan (6 * (24 + x) + i)
      let blankEnd := c.pinAt + (v.f R.AUX_BR_VDS_BLANK x + 1) * 250 * nsQ
      let above (mv : Int) : Prop := (1000 * vdsThreshold (if i % 2 = 0 then v.f R.AUX_BR_VDS_VTH_HS x else v.f R.AUX_BR_VDS_VTH_LS x) : Nat) < mv
      (∀ (since : Instant) (mv : Int), c.pin = true → above mv → v.bitF R.AUX_BR_STAT_VDS_LIVE i x = false → v.room →
        (if v.pwmQ - (v.now - since) ≤ blankEnd then blankEnd
          else v.pwmQ - (v.now - since) + (v.f R.AUX_BR_VDS_VFILT x + 1) * 50 * nsQ) ≤ v.pwmQ →
        Runs (.vdsFault t x i since mv) s fun s' => s'.bitF R.AUX_BR_STAT_VDS_FLT i x = true
          ∧ (u.bitF R.AUX_BR_STAT_VDS_FLT i x = false → Posts u s' E.VDS_FAULT (subject x i)))
      ∧ (∀ mv : Int, c.pin = true → above mv → v.pwmQ < blankEnd → Runs (.vdsBlankedRising t x i mv) s fun s' =>
          s'.f R.AUX_BR_CNT_BLANKED x = min (u.f R.AUX_BR_CNT_BLANKED x + 1) 65535
            ∧ s'.bitF R.AUX_BR_STAT_VDS_FLT i x = u.bitF R.AUX_BR_STAT_VDS_FLT i x ∧ s'.sys = v.sys))
    ∧ (u.b R.AUX_CTL_VGD_UV = false → Runs (.vgdUv t) s fun s' => s'.b R.AUX_CTL_VGD_UV = true ∧ s'.b R.AUX_CTL_VGD_UV_SEEN = true)
    ∧ (u.b R.AUX_CTL_VGD_UV = true → Runs (.vgdUvRelease t) s fun s' =>
        s'.b R.AUX_CTL_VGD_UV = false ∧ s'.b R.AUX_CTL_VGD_UV_SEEN = u.b R.AUX_CTL_VGD_UV_SEEN)
    ∧ (∀ (c : Nat) (since : Instant) (v : Int), c < 16 → u.b R.TRIP_CMP_CFG_EN c = true →
      max (u.firstTick since) u.pwm.enTick + u.f R.TRIP_CMP_CFG_CFILT c ≤ u.pwmTime →
      let thr : Int := (u.f R.TRIP_CMP_CFG_THR c * 2500000000 : Nat)
      let hys : Int := (u.f R.TRIP_CMP_CFG_HYS c * 2441000 * 1024 : Nat)
      let pol := u.b R.TRIP_CMP_CFG_POL c
      (u.bitF R.TRIP_CMP_STAT_LIVE c = false → (if pol then thr < v * 1024 else v * 1024 < thr) → u.room →
        Runs (.cmpTrip t c (u.f R.TRIP_CMP_CFG_AIN c) since v) s fun s' =>
          s'.bitF R.TRIP_CMP_STAT_LIVE c = true ∧ s'.bitF R.TRIP_CMP_STAT_SEEN c = true
          ∧ (u.bitF R.TRIP_CMP_STAT_SEEN c = false → Posts u s' E.CMP_TRIP (subject c)))
      ∧ (u.bitF R.TRIP_CMP_STAT_LIVE c = true → (if pol then v * 1024 ≤ thr - hys else thr + hys ≤ v * 1024) →
        Runs (.cmpRelease t c (u.f R.TRIP_CMP_CFG_AIN c) since v) s fun s' =>
          s'.bitF R.TRIP_CMP_STAT_LIVE c = false ∧ s'.bitF R.TRIP_CMP_STAT_SEEN c = u.bitF R.TRIP_CMP_STAT_SEEN c))

/-- R253, R258 to R260: of several demands the one with the highest rank acts; the STO mask ends REC after both outputs are active again; a clear of
TRIP_LATCH is refused and reported while a latching source of the target is asserted, and else unlatches the target; a clear of TRIP_SHORT or TRIP_MLS
clears what it names, but for what the hardware sets in the same cycle. -/
def Obligations.LatchesHoldUntilCleared : Prop :=
  (∀ ds : List Demand, (bestDemand ds = none ↔ ds = [])
    ∧ ∀ d, bestDemand ds = some d → d ∈ ds ∧ ∀ e ∈ ds, rankOf d.act < rankOf e.act ∨ (rankOf d.act = rankOf e.act ∧ d.ord ≤ e.ord))
  ∧ (∀ (s u : State) (t : Instant) (e : Instant), u = s.start t → u.trip.stoMask = true → u.trip.stoEnd = some e → e ≤ u.now →
    Runs (.stoMaskEnd t) s fun s' => s'.trip.stoMask = false ∧ s'.trip.stoEnd = none ∧ (∀ T < 28, s'.b R.TRIP_TGT_STAT_STO_MASKED T = false)
      ∧ ∀ T i : Nat, T < 24 → i < 6 → u.unmasked T = false → u.bitF R.PWM_FB_STAT_LIVE i T = true → s'.bitF R.PWM_FB_STAT_SEEN i T = true)
  ∧ (∀ (s w : State) (t : Instant) (fn B : Nat) (data : Word), (s.start t).actionWrite fn R.TRIP_LATCH_LATCH data = (w, true) →
    B < 28 → data.toNat = 2 ^ B → w.bitF R.TRIP_LATCH_LATCH B = true →
    (w.latchSource B = true → w.room → Runs (.tripLatchClear t fn data) s fun s' => Posts w s' E.LATCH_HELD (subject B))
    ∧ (w.latchSource B = false → w.setNow R.TRIP_LATCH_LATCH B = false → Runs (.tripLatchClear t fn data) s fun s' =>
        s' = ((w.setBitF R.TRIP_LATCH_LATCH B false).setTarget B { w.target B with latched := [] }).settle
          ∧ s'.bitF R.TRIP_LATCH_LATCH B = false ∧ (s'.target B).latched = []))
  ∧ ∀ (s w : State) (t : Instant) (fn : Nat) (mls : Bool) (data : Word),
    (s.start t).actionWrite fn (if mls then R.TRIP_MLS_MLS else R.TRIP_SHORT_SHORT) data = (w, true) →
    Runs (.shortClear t fn mls data) s fun s' => ∀ T < 28,
      s'.bitF R.TRIP_MLS_MLS T = (w.bitF R.TRIP_MLS_MLS T && !(mls && data.toNat.testBit T && !w.setNow R.TRIP_MLS_MLS T))
        ∧ s'.bitF R.TRIP_SHORT_SHORT T = (w.bitF R.TRIP_SHORT_SHORT T && !(!mls && data.toNat.testBit T && !w.setNow R.TRIP_SHORT_SHORT T))

/-- R265, R266, R270: a record replaces the target's last one; a life step moves the time of the life model by T_LM and uses each target's record
once, again up to eight times; a save keeps the life records and the map-out record in flash. -/
def Obligations.LifeModelStepsAndSaves : Prop :=
  ∀ (s u : State) (t : Instant), u = s.start t → u.sealed = true → u.trip.lifeCfg.present = true →
    (∀ (T : Nat) (r : LifeIn) (span : Nat), T < 28 → Runs (.lifeRecord t T r span) s fun s' =>
      s'.lifeRec T = { cur := r.cur, vdc := r.vdc, duty := r.duty, edges := r.edges, span := secs span, fresh := true }
        ∧ (∀ T', T' ≠ T → s'.lifeRec T' = u.lifeRec T') ∧ s'.trip.life = u.trip.life ∧ s'.regs = u.regs)
    ∧ (u.trip.lifeLastStep + u.trip.lifeCfg.tLm * usQ ≤ u.now → Runs (.lifeStep t) s fun s' =>
      s'.trip.lifeLastStep = u.now ∧ s'.trip.lifeTime = u.trip.lifeTime + (u.trip.lifeCfg.tLm : Rat) / 1000000 ∧ s'.trip.lifeRef = u.lifeTref
        ∧ ∀ T ∈ u.trip.lifeCfg.targets, s'.lifeRec T = if (u.lifeRec T).stale then u.lifeRec T else
            let n := if (u.lifeRec T).fresh then 0 else (u.lifeRec T).reused + 1
            { u.lifeRec T with fresh := false, reused := n, stale := n == 8 })
    ∧ (u.trip.lifeLastSave + u.trip.lifeCfg.saveInt * 60 * secQ ≤ u.now → Runs (.lifeSave t) s fun s' =>
      s'.trip.lifeSaved = some u.trip.life ∧ s'.trip.lifeSavedTime = u.trip.lifeTime ∧ s'.trip.lifeLastSave = u.now
        ∧ s'.rel.saved = { kernels := (u.rel.gone.filter fun x => x.2 == 2).map (·.1), wires := u.rel.mapped, life := u.rel.life }
        ∧ s'.regs = u.regs)

/-- R464, R466, R468 to R470, R474, R475, R479 to R481: a kernel's uncorrectable word puts it out of use and first in the tests; a scrub counts what
it corrects, pass after pass; a changed sealed register is reported; a test begins on a spare and maps a failed kernel out; a request is refused or
kept; SLOW, Tj and the device's life are shown. -/
def Obligations.ReliabilityCountsAndTests : Prop :=
  ∀ (s u : State) (t : Instant), u = s.start t → u.sealed = true →
    (∀ pod k mem word : Nat, pod < 24 → k < 16 → mem < 2 → u.room → Runs (.ueKernel t pod k mem word) s fun s' =>
      Posts u s' E.UE_KERNEL (kernelSubject (16 * pod + k)) (nw mem) (nw word)
        ∧ (u.pairOf (16 * pod + k) = none → u.isGone (16 * pod + k) = false → { kernel := 16 * pod + k, why := 1 } ∈ s'.rel.first))
    ∧ (u.b R.REL_CTL_EN = true → u.b R.REL_CTL_SCRUB_EN = true → ∀ mem pod unit word : Nat, mem < 4 →
      let key := wordKey mem pod unit word
      let run := kget (0, 0) u.rel.ceRun key
      let pass := (u.now - u.clk.ungatedAt.getD 0) / (u.f R.REL_CTL_SCRUB_PER * secQ * (if mem = 2 then 4 else 1)) + 1
      let n := if run.2 = pass then run.1 else if run.2 + 1 = pass then run.1 + 1 else 1
      (∀ other : Bool, Runs (.scrubRead t mem pod unit word 0 other none) s fun s' =>
          s'.regs = u.regs ∧ kget (0, 0) s'.rel.ceRun key = (0, 0) ∧ s'.sys = u.sys)
      ∧ (∀ errs : Nat, errs = 1 ∨ errs = 2 →
        (u.room → Runs (.scrubRead t mem pod unit word errs false none) s fun s' =>
          s'.f R.REL_CE_CNT_CE = min (u.f R.REL_CE_CNT_CE + 1) (2 ^ 32 - 1) ∧ kget (0, 0) s'.rel.ceRun key = (n, pass)
            ∧ (n = 3 → run.2 ≠ pass → Reports u s' E.CE_HARD (subject pod unit) (nw mem) (nw word)))
        ∧ Runs (.scrubRead t mem pod unit word errs true none) s fun s' =>
          s'.f R.REL_CE_CNT_CE = min (u.f R.REL_CE_CNT_CE + 1) (2 ^ 32 - 1) ∧ kget (0, 0) s'.rel.ceRun key = (0, 0))
      ∧ (∀ (errs : Nat) (other : Bool), 3 ≤ errs → mem = 3 → u.room → Runs (.scrubRead t mem pod unit word errs other none) s fun s' =>
          s'.b R.REL_STAT_UE_SEEN = true ∧ Reports u s' E.UE_BLOCK (subject unit) (nw word) ∧ s'.f R.REL_UE_CNT_UE = u.f R.REL_UE_CNT_UE))
    ∧ (u.b R.REL_CTL_EN = true → u.rel.checkAt + 100 * msQ ≤ u.now → ∀ found : List (Nat × Word), u.sys.queue.length + found.length ≤ 64 →
      Runs (.registerCheck t found) s fun s' => s'.rel.checkAt = u.now
        ∧ (∀ b k, b ≠ .sys → s'.word b k = u.word b k)
        ∧ ∀ a ∈ found, ∀ h, findReg a.1 0 = some h → h.isSealed = true → (a.2 ^^^ u.word h.blk h.key) &&& h.sealedBits ≠ 0 → h.blk ≠ .sys →
            Posts u s' E.REG_RESTORED (subject (a.1 % 0x10000 / 4) h.blk.num))
    ∧ (∀ (r : TestReq) (rs : List TestReq), u.b R.REL_CTL_EN = true → u.testIdle = true → u.rel.first = r :: rs → u.logicalOf r.kernel = none →
      Runs (.backgroundTest t) s fun s' => s'.rel.testing = [r] ∧ s'.rel.first = rs ∧ s'.f R.REL_BIST_PHASE = 2)
    ∧ (∀ (r : TestReq) (pod k : Nat) (ok : Bool), u.b R.REL_CTL_EN = true → u.rel.testing = [r] → r.kernel = 16 * pod + k → u.rel.pair = none →
      ((u.retire r.kernel).room → Runs (.kernelTestDone t pod k false ok) s fun s' => s'.rel.testing = [] ∧ kget 0 s'.rel.gone r.kernel = 2
          ∧ s'.b R.REL_STAT_BIST_FAIL_SEEN = true ∧ Posts u s' E.BIST_FAIL (kernelSubject r.kernel))
      ∧ (u.isGone r.kernel = true → u.room → Runs (.kernelTestDone t pod k true ok) s fun s' => s'.rel.testing = [] ∧ kget 0 s'.rel.gone r.kernel = 0
          ∧ Posts u s' E.KERNEL_RESTORED (kernelSubject r.kernel))
      ∧ (u.isGone r.kernel = false → Runs (.kernelTestDone t pod k true ok) s fun s' => s'.rel.testing = [] ∧ s'.rel.gone = u.rel.gone
          ∧ s'.rel.first = (r.src.bind u.physOf).toList.map (fun p => { kernel := p, why := 0 }) ++ u.rel.first))
    ∧ (∀ (w : State) (fn : Nat) (data : Word), u.actionWrite fn R.REL_CMD_TEST data = (w, true) → Runs (.test t fn data) s fun s' =>
      match w.testRefusal (w.f R.REL_CMD_POD) (w.f R.REL_CMD_LK) with
      | some r => s'.f R.REL_CMD_RESULT = r ∧ s'.b R.REL_CMD_DONE = true ∧ s'.rel = w.rel
      | none => s'.f R.REL_CMD_RESULT = 0 ∧ s'.rel.asked = some (16 * w.f R.REL_CMD_POD + w.f R.REL_CMD_LK))
    ∧ (u.b R.REL_CTL_EN = true → u.rel.ageAt + 3600 * secQ ≤ u.now → ∀ counts : List (Nat × Nat), Runs (.ageMeasure t counts) s fun s' =>
      s'.rel.ageAt = u.now ∧ (∀ l < 148, s'.f R.REL_LINK_CE_HOUR l = 0)
        ∧ ∀ n < 24, ∀ x, counts[n]? = some x → s'.f R.REL_AGE_SLOW n = slowOf x.1 x.2)
    ∧ (u.b R.REL_CTL_EN = true → u.rel.lifeAt + secQ ≤ u.now → ∀ (a : Int) (as : List Int), Runs (.lifeCount t (a :: as)) s fun s' =>
      s'.rel.life = u.rel.life + arrhenius ((as.foldl max a : Int) / 8) ∧ s'.rel.lifeAt = u.now
        ∧ s'.f R.REL_TJ_TJ_NOW = unsignedOf 16 (as.foldl max a)
        ∧ s'.f R.REL_LIFE_HOURS = satN 32 (s'.rel.life / 3600).floor.toNat)

/-- R280, R281, R284, R286 to R288: a mismatch, the other half's fault message and the loss of the cross-link each fault a half, which takes its
outputs low; a split begins only with every pair in LOCKSTEP, ends in SPLIT or, with unequal CRCs, in a fault; a rejoin copies the mirror pair's
state; the SPLIT_MAX timer faults the half; chaff that is not detected faults a half before the island arms. -/
def Obligations.HalvesAndPairsFaultSplitAndRejoin : Prop :=
  (∀ (s u : State) (t : Instant), u = s.start t → u.safeOn = true →
    (∀ p < 4, u.pairState p = 1 ∨ u.pairState p = 2 → u.halfFlt (p / 2) = false → u.sys.queue.length + 2 ≤ 64 →
      Runs (.lockstepMismatch t p) s fun s' => s'.pairState p = 5 ∧ HalfFaults u s' (p / 2) 1 ∧ Posts u s' E.LOCKSTEP_MISMATCH (subject p))
    ∧ (∀ h < 2, u.halfFlt h = false → u.room →
      (u.halfFlt (1 - h) = true → Runs (.faultMessage t h) s fun s' => HalfFaults u s' h 8)
      ∧ (2 ≤ kget 0 u.safe.linkRun h → Runs (.crossLinkLoss t h) s fun s' => HalfFaults u s' h 2))
    ∧ (∀ p < 4, u.pairState p = 2 → u.safe.drained.testBit p = true → u.room → ∀ lead shadow : Word,
      (lead = shadow → Runs (.splitDone t p lead shadow) s fun s' => s'.pairState p = 3 ∧ s'.b R.SAFE_SPLIT_SPLIT = false
          ∧ s'.f R.SAFE_PAIR_SPLITS p = min (u.f R.SAFE_PAIR_SPLITS p + 1) 65535
          ∧ kget 0 s'.safe.splitEnd p = u.now + u.f R.SAFE_CYCLE_SPLIT_MAX * msQ ∧ Reports u s' E.SPLIT_DONE (subject p))
      ∧ (lead ≠ shadow → u.halfFlt (p / 2) = false → Runs (.splitDone t p lead shadow) s fun s' => s'.pairState p = 5 ∧ HalfFaults u s' (p / 2) 6))
    ∧ (∀ p < 4, u.pairState p = 4 → u.room → Runs (.rejoinDone t p) s fun s' =>
        s'.pairState p = 1 ∧ s'.b R.SAFE_SPLIT_REJOIN = false ∧ Posts u s' E.REJOIN_DONE (subject p)
          ∧ ∀ x < 4, u.b R.SAFE_AX_CFG_EN x = true → u.axPair x (p / 2) = p → s'.axHalf x (p / 2) =
              { u.axHalf x (1 - p / 2) with hist := [], wait := u.axInt x 11 + 1, xok := false, crossRun := 0 })
    ∧ ∀ p < 4, u.pairState p = 3 ∨ u.pairState p = 4 → kget 0 u.safe.splitEnd p ≤ u.now → u.halfFlt (p / 2) = false → u.room →
      Runs (.splitTimeout t p) s fun s' => s'.pairState p = 5 ∧ HalfFaults u s' (p / 2) 7)
  ∧ (∀ (s w : State) (t : Instant) (fn : Nat) (data : Word), (s.start t).actionWrite fn R.SAFE_SPLIT_SPLIT data = (w, true) → w.safeOn = true →
    let p := w.f R.SAFE_SPLIT_PAIR
    let bad : Prop := (∃ q < 4, w.pairState q ≠ 1) ∨ w.halfFlt 0 = true ∨ w.halfFlt 1 = true
      ∨ ∃ x < 4, w.b R.SAFE_AX_CFG_EN x = true ∧ w.f R.SAFE_AX_CFG_GROUP x = p % 2 ∧ ((w.axHalf x 0).st = 2 ∨ (w.axHalf x 1).st = 2)
    (bad → w.room → Runs (.split t fn data) s fun s' =>
        (∀ q < 4, s'.pairState q = w.pairState q) ∧ s'.b R.SAFE_SPLIT_SPLIT = false ∧ Reports w s' E.SPLIT_REFUSED (subject p))
    ∧ (¬ bad → Runs (.split t fn data) s fun s' => s'.pairState p = 2 ∧ s'.safe.drained.testBit p = false
        ∧ (∀ q < 4, q ≠ p → s'.pairState q = 1) ∧ s'.sys = w.sys))
  ∧ (∀ (s w : State) (t : Instant) (fn : Nat) (data : Word), (s.start t).actionWrite fn R.SAFE_SPLIT_REJOIN data = (w, true) → w.safeOn = true →
    let p := w.f R.SAFE_SPLIT_PAIR
    (w.pairState p = 3 → Runs (.rejoin t fn data true) s fun s' => s'.pairState p = 4 ∧ s'.sys = w.sys)
    ∧ (w.pairState p = 3 → w.halfFlt (p / 2) = false → w.room → Runs (.rejoin t fn data false) s fun s' =>
        s'.pairState p = 5 ∧ HalfFaults w s' (p / 2) 5)
    ∧ ∀ ok, w.pairState p ≠ 3 → w.room → Runs (.rejoin t fn data ok) s fun s' =>
        s'.pairState p = w.pairState p ∧ Reports w s' E.SPLIT_REFUSED (subject p))
  ∧ ∀ (s u : State) (t : Instant), u = s.start t → u.alive = true → u.b R.CFG_STAT_SEALED = false → u.safe.present = true →
    u.b R.SAFE_CTL_EN = true → u.b R.SAFE_CTL_CHAFF_OK = false → u.halfFlt 0 = false → u.halfFlt 1 = false →
    (Runs (.chaffTestDone t none) s fun s' => s'.b R.SAFE_CTL_CHAFF_OK = true ∧ s'.sys = u.sys ∧ s'.safe = u.safe)
    ∧ ∀ h < 2, ∀ c, (u.halfFault h 5).room → Runs (.chaffTestDone t (some (h, c))) s fun s' =>
        s'.b R.SAFE_CTL_CHAFF_OK = false ∧ HalfFaults u s' h 5 ∧ Posts u s' E.CHAFF_FAIL (subject h) (nw c)

/-- R282, R283, R286, R300, R304: the cycle start applies the results, latches the inputs, uses up the reset, faults a half whose RESULT is owed or
whose clock is off, and asks every pair in LOCKSTEP of a healthy half for a RESULT; a pair evaluates a cycle once and sends its RESULT; the half takes
the states its pair sends. -/
def Obligations.SafetyCycleRunsOnce : Prop :=
  ∀ (s u : State) (t : Instant), u = s.start t → u.safeOn = true →
    (∀ rcA rcB link : Nat, u.nextCycle ≤ u.pwmTime → Runs (.safetyCycleStart t rcA rcB link) s fun s' =>
      s'.safe.cycleAt = some (u.pwmTime / u.tscTicks * u.tscTicks) ∧ s'.safe.demIn = u.f R.SAFE_SIN_STAT_DEM ∧ s'.safe.rstDue = false
        ∧ (∀ h < 2, u.safe.cycleAt.isSome = true →
            2500 * (u.f R.SAFE_CYCLE_SC_PER + 1) < 10 * (((if h = 0 then rcA else rcB : Nat) : Int) - (2500 * (u.f R.SAFE_CYCLE_SC_PER + 1) : Nat)).natAbs →
            s'.halfFlt h = true)
        ∧ (∀ p < 4, u.safe.owed.testBit p = true → u.pairRuns p = true → s'.halfFlt (p / 2) = true)
        ∧ (∀ h < 2, kget 0 s'.safe.linkRun h = if link.testBit h then 0 else kget 0 u.safe.linkRun h + 1)
        ∧ ∀ p < 4, s'.pairState p = u.pairState p ∧ s'.safe.owed.testBit p = (s'.inLockstep p && !s'.halfFlt (p / 2)))
    ∧ (∀ p < 4, u.pairRuns p = true → u.safe.owed.testBit p = true → u.safe.evaluated.testBit p = false →
      u.role (16 * halfPod (p / 2) + u.leader p) = roleSafety → u.backed (16 * halfPod (p / 2) + u.leader p) = true →
      Runs (.safetyEvaluation t p) s fun s' =>
        s'.safe.evaluated.testBit p = true ∧ s'.safe.owed = u.safe.owed ∧ s'.safe.outs = u.safe.outs
          ∧ ∃ r : SafResult, s'.out = u.out ++
              [.flit { dst := .port (halfPod (p / 2)) 0, src := .kernel (halfPod (p / 2)) (u.leader p), payload := .safResult r }]
            ∧ r.ts = u.shortTs ∧ (∀ k < 6, r.out.testBit k = (decide (outHalf k = p / 2) && s'.outWanted k))
            ∧ ∀ x < 4, r.axSt[x]? = some (if x ∈ u.pairAxes p then (s'.axHalf x (p / 2)).code else 0)
              ∧ r.spd[x]? = some (if x ∈ u.pairAxes p then spdCode (s'.axHalf x (p / 2)).v else 0))
    ∧ ∀ p < 4, u.safe.owed.testBit p = true → u.safe.evaluated.testBit p = true → Runs (.safetyResult t p) s fun s' =>
        (∀ q, s'.safe.owed.testBit q = (u.safe.owed.testBit q && !decide (q = p))) ∧ s'.regs = u.regs ∧ s'.out = u.out
          ∧ ∀ x ∈ u.pairAxes p, s'.axHalf x (p / 2) = { u.axHalf x (p / 2) with told := (u.axHalf x (p / 2)).st }

/-- R291 to R293, R295 to R297, R304, R306: an accepted level moves its channel, and the input is in demand while a channel is or while the channels
are discrepant; a press of 50 ms to 5 s makes one reset event and a longer one is stuck; the third wrong readback sample and a missed test take an
output low; a test pulse is due only on a high output whose partner is not pulsed; a staging and a password lockout lapse. -/
def Obligations.SafetyInputsAndOutputs : Prop :=
  ∀ (s u : State) (t : Instant), u = s.start t →
    (u.sealed = true → u.safe.present = true → ∀ (h i : Nat) (level : Bool) (since : Instant), h < 2 → i < 8 → u.b R.SAFE_SIN_CFG_EN i = true →
      since + (u.f R.SAFE_SIN_CFG_FILT i + 1) * 500 * usQ ≤ u.now → Runs (.sinChange t h i level since) s fun s' =>
        let a := if h = 0 then !level else u.bitF R.SAFE_SIN_STAT_LIVE_A i
        let b := if h = 0 then u.bitF R.SAFE_SIN_STAT_LIVE_B i else if u.b R.SAFE_SIN_CFG_ANTI i then level else !level
        s'.bitF R.SAFE_SIN_STAT_LIVE_A i = a ∧ s'.bitF R.SAFE_SIN_STAT_LIVE_B i = b
          ∧ s'.bitF R.SAFE_SIN_STAT_DISC i = (u.bitF R.SAFE_SIN_STAT_DISC i && (a || b || !u.safe.discBoth.testBit i))
          ∧ s'.bitF R.SAFE_SIN_STAT_DEM i = (a || b || s'.bitF R.SAFE_SIN_STAT_DISC i))
    ∧ (u.sealed = true → u.safe.present = true → ∀ i < 8, kget 0 u.safe.disagreeAt i ≠ 0 → u.bitF R.SAFE_SIN_STAT_DISC i = false →
      kget 0 u.safe.disagreeAt i + (u.f R.SAFE_SIN_CFG_T_DISC i + 1) * msQ < u.now + 1 → u.room → Runs (.sinDiscrepancy t i) s fun s' =>
        s'.bitF R.SAFE_SIN_STAT_DISC i = true ∧ s'.bitF R.SAFE_SIN_STAT_DEM i = true ∧ Reports u s' E.SIN_DISCREPANCY (subject i)
          ∧ ∀ x < 4, u.b R.SAFE_AX_CFG_EN x = true → (u.f R.SAFE_SIN_CFG_AXMASK i).testBit x = true → s'.safe.pend.testBit x = true)
    ∧ (∀ (level : Option Bool) (since : Instant), u.alive = true → since + 10 * msQ ≤ u.now →
      let pin := level.getD (!(u.sealed && u.b R.SAFE_RST_POL))
      (pin = u.b R.SAFE_RST_POL → u.b R.SAFE_RST_PRESSED = false → Runs (.srstPress t level since) s fun s' =>
        s'.b R.SAFE_RST_PRESSED = true ∧ s'.safe.pressAt = u.now
          ∧ s'.safe.pressVoid = (!u.b R.SAFE_CTL_ARMED || decide (since ≤ u.safe.armedAt)))
      ∧ (pin ≠ u.b R.SAFE_RST_POL → u.b R.SAFE_RST_PRESSED = true → Runs (.srstRelease t level since) s fun s' =>
        s'.b R.SAFE_RST_PRESSED = false ∧ s'.b R.SAFE_RST_STUCK = false
          ∧ (s'.safe.rstDue = true ↔ u.safe.rstDue = true ∨ u.b R.SAFE_RST_STUCK = false ∧ u.safe.pressVoid = false
              ∧ 50 * msQ ≤ u.now - u.safe.pressAt ∧ u.now - u.safe.pressAt < 5 * secQ)))
    ∧ (u.safeOn = true → u.b R.SAFE_RST_PRESSED = true → u.b R.SAFE_RST_STUCK = false → u.safe.pressAt + 5 * secQ ≤ u.now → u.room →
      Runs (.rstStuck t) s fun s' => s'.b R.SAFE_RST_STUCK = true ∧ Reports u s' E.RST_STUCK)
    ∧ (u.safeOn = true → ∀ h pads k : Nat, k < 6 → outHalf k = h → (u.safeOut k).changedAt + 20 * usQ ≤ u.now →
      let want := u.bitF R.SAFE_OUT_STAT_LEVEL k && (u.safeOut k).pulse.isNone
      (pads.testBit k = want → Runs (.readbackSample t h pads) s fun s' =>
          s'.bitF R.SAFE_OUT_STAT_RB_FLT k = u.bitF R.SAFE_OUT_STAT_RB_FLT k ∧ (s'.safeOut k).rbRun = 0)
      ∧ (pads.testBit k ≠ want → 2 ≤ (u.safeOut k).rbRun → u.bitF R.SAFE_OUT_STAT_RB_FLT k = false → Runs (.readbackSample t h pads) s fun s' =>
          s'.bitF R.SAFE_OUT_STAT_RB_FLT k = true ∧ s'.bitF R.SAFE_OUT_STAT_LEVEL k = false))
    ∧ (u.safeOn = true → ∀ k < 6, (u.pulseCfg k).1 = true → u.bitF R.SAFE_OUT_STAT_LEVEL k = true →
      ((u.safeOut k).pulse = none → (u.safeOut (outPartner k)).pulse = none →
        ((u.pulseCfg k).2.2 + 1) * 10 * msQ ≤ u.highTime k → Runs (.testPulseStart t k) s fun s' =>
          (s'.safeOut k).pulse = some u.now ∧ s'.out = u.out ++ [.safePin k false] ∧ s'.regs = u.regs)
      ∧ (u.bitF R.SAFE_OUT_STAT_TEST_MISS k = false → 2 * ((u.pulseCfg k).2.2 + 1) * 10 * msQ < u.highTime k → u.room → Runs (.testMissed t k) s fun s' =>
          s'.bitF R.SAFE_OUT_STAT_TEST_MISS k = true ∧ s'.bitF R.SAFE_OUT_STAT_LEVEL k = false ∧ Posts u s' E.TEST_MISSED (subject k)))
    ∧ (u.safeOn = true → ∀ (k p : Nat) (rb5 rb20 : Bool), (u.safeOut k).pulse = some p → p + ((u.pulseCfg k).2.1 + 1) * 10 * usQ ≤ u.now →
      let passed := !rb5 && rb20
      Runs (.testPulseEnd t k rb5 rb20) s fun s' =>
        (s'.safeOut k).pulse = none ∧ (s'.safeOut k).highAcc = (if passed then 0 else (u.safeOut k).highAcc)
          ∧ (s'.safeOut k).highAt = (if passed then u.now else (u.safeOut k).highAt) ∧ s'.out = u.out ++ [.safePin k true] ∧ s'.regs = u.regs)
    ∧ (∀ a b c e, u.safe.staged = some (a, b, c, e) → e ≤ u.now → Runs (.psetTimeout t) s fun s' =>
        s'.safe.staged = none ∧ s'.safe.params = u.safe.params ∧ s'.regs = u.regs)
    ∧ ∀ k < 8, (u.pwSlot k).lockEnd ≠ 0 → (u.pwSlot k).lockEnd ≤ u.now → Runs (.pwLockoutEnd t k) s fun s' =>
        s'.pwSlot k = { u.pwSlot k with lockEnd := 0 } ∧ s'.bitF R.SAFE_PW_STAT_LOCKED k = false

/-- R306, R313 to R316: a REQ while a challenge or session is in place is NOT_ALLOWED, an accepted one gets a fresh challenge; a response sent within
30 s is verified, a later one lapses; a right one opens the session and clears the counts, a wrong one is BAD_RESP and counts toward the lock; CLOSE
and 900 s of idling end the session, whose rings then refuse unless the base domain is theirs. -/
def Obligations.SessionsOpenAndEnd : Prop :=
  (∀ (s w : State) (t : Instant) (fn : Nat) (data : Word), (s.start t).actionWrite fn R.HUSK_SESS_CTL_REQ data 0 fn = (w, true) →
    let x : Session := { w.session fn with dom := w.f R.HUSK_SESS_CTL_DOMAIN 0 fn, user := w.f R.HUSK_SESS_CTL_USER 0 fn
                                           key := w.f R.HUSK_SESS_CTL_KEYIDX 0 fn }
    (w.f R.HUSK_SESS_STAT_PHASE 0 fn ≠ 0 → w.room → Runs (.req t fn data) s fun s' =>
        s'.f R.HUSK_SESS_STAT_RESULT 0 fn = 3 ∧ s'.f R.HUSK_SESS_STAT_PHASE 0 fn = w.f R.HUSK_SESS_STAT_PHASE 0 fn
          ∧ s'.session fn = w.session fn ∧ Reports w s' E.SESSION_FAIL (sessSubject x fn))
    ∧ (w.reqRefusal fn = none → Runs (.req t fn data) s fun s' => s'.session fn = { x with wanted := true } ∧ s'.regs = w.regs))
  ∧ (∀ (s w : State) (t : Instant) (fn : Nat) (data : Word), (s.start t).actionWrite fn R.HUSK_SESS_CTL_SUBMIT data 0 fn = (w, true) →
    w.f R.HUSK_SESS_STAT_PHASE 0 fn = 1 → (w.session fn).verifying = false → Runs (.submit t fn data) s fun s' =>
      if w.now ≤ (w.session fn).chalAt + 30 * secQ then s'.session fn = { w.session fn with verifying := true } ∧ s'.regs = w.regs
      else s'.f R.HUSK_SESS_STAT_PHASE 0 fn = 0 ∧ s'.f R.HUSK_SESS_STAT_RESULT 0 fn = 4)
  ∧ (∀ (s w : State) (t : Instant) (fn : Nat) (data : Word), (s.start t).actionWrite fn R.HUSK_SESS_CTL_CLOSE data 0 fn = (w, true) →
    (w.sessionOpen fn = true → w.room → Runs (.close t fn data) s fun s' =>
        s'.f R.HUSK_SESS_STAT_PHASE 0 fn = 0 ∧ s'.f R.HUSK_SESS_STAT_DOMAIN 0 fn = 0
          ∧ Reports w s' E.SESSION_CLOSED (sessSubject (w.session fn) fn))
    ∧ (w.f R.HUSK_SESS_STAT_PHASE 0 fn = 1 → Runs (.close t fn data) s fun s' =>
        s'.f R.HUSK_SESS_STAT_PHASE 0 fn = 0 ∧ (s'.session fn).verifying = false ∧ s'.sys = w.sys))
  ∧ ∀ (s u : State) (t : Instant) (fn : Nat), u = s.start t →
    let x := u.session fn
    (x.wanted = true → Runs (.challengeReady t fn) s fun s' =>
      s'.f R.HUSK_SESS_STAT_PHASE 0 fn = 1 ∧ s'.session fn = { x with wanted := false, chalAt := u.now }
        ∧ s'.words W.HUSK_CHAL 8 fn = natToWords 8 (Config.random u.free).toNat ∧ s'.free = u.free + 1)
    ∧ (x.verifying = true → u.responseOk fn = true → x.dom < 8 → u.room → Runs (.responseVerified t fn) s fun s' =>
      s'.f R.HUSK_SESS_STAT_PHASE 0 fn = 2 ∧ s'.f R.HUSK_SESS_STAT_RESULT 0 fn = 0 ∧ s'.f R.HUSK_SESS_STAT_DOMAIN 0 fn = x.dom
        ∧ s'.session fn = { x with verifying := false, fails := 0, lastAct := u.now } ∧ Reports u s' E.SESSION_OPEN (sessSubject x fn))
    ∧ (x.verifying = true → u.responseOk fn = false → Runs (.responseVerified t fn) s fun s' =>
      s'.f R.HUSK_SESS_STAT_PHASE 0 fn = 0 ∧ s'.f R.HUSK_SESS_STAT_RESULT 0 fn = 1
        ∧ (x.dom ≠ domSaf → s'.session fn = if x.fails + 1 < 3 then { x with verifying := false, fails := x.fails + 1 }
            else { x with verifying := false, fails := 0, lockEnd := u.now + 60 * secQ })
        ∧ (x.dom = domSaf → s'.pwSlot x.user = if (u.pwSlot x.user).wrong + 1 < 5 then { u.pwSlot x.user with wrong := (u.pwSlot x.user).wrong + 1 }
            else { u.pwSlot x.user with
              wrong := 0, lockouts := (u.pwSlot x.user).lockouts + 1
              lockEnd := u.now + min (600 * secQ * 2 ^ (u.pwSlot x.user).lockouts) (86400 * secQ) }))
    ∧ (u.f R.HUSK_SESS_STAT_PHASE 0 fn = 1 → x.verifying = false → x.chalAt + 30 * secQ ≤ u.now → Runs (.challengeTimeout t fn) s fun s' =>
      s'.f R.HUSK_SESS_STAT_PHASE 0 fn = 0 ∧ s'.f R.HUSK_SESS_STAT_RESULT 0 fn = 4)
    ∧ (u.sessionOpen fn = true → x.lastAct + 900 * secQ ≤ u.now → u.room → Runs (.sessionIdleTimeout t fn) s fun s' =>
      s'.f R.HUSK_SESS_STAT_PHASE 0 fn = 0 ∧ Reports u s' E.SESSION_CLOSED (sessSubject x fn)
        ∧ ∀ q < 32, u.b R.HOSTQ_SQ_CFG_EN q fn = true → u.f R.HOSTQ_SQ_STAT_DOMAIN q fn = u.f R.HUSK_SESS_STAT_DOMAIN 0 fn →
          u.baseDomain fn ≠ u.f R.HUSK_SESS_STAT_DOMAIN 0 fn → 32 * fn + q ∈ s'.hostq.refusing)
    ∧ (x.lockEnd ≠ 0 → x.lockEnd ≤ u.now → Runs (.sessionLockEnd t fn) s fun s' =>
      s'.session fn = { x with lockEnd := 0 } ∧ s'.regs = u.regs)

/-- R323, R325, R329, R332: KDBG opens in DEPLOYED only in an OEM session with consent and in OEM_OPEN through function 0 without a session, VTEST in
a session of a RETURNED part; consent lasts 600 s, its withdrawal closes KDBG and its expiry does not; OEM roots are fused once, and the lifecycle
goes on to DEPLOYED only with both; a commit raises IMG_SVN to RUN_SVN and never lowers it. -/
def Obligations.DebugAndProvisioningKeepTheirGates : Prop :=
  (∀ (s w : State) (t : Instant) (fn : Nat) (data : Word), (s.start t).actionWrite fn R.HUSK_DBG_CTL_KDBG data = (w, true) →
    (w.f R.HUSK_ID_LIFECYCLE = lcDeployed →
      (w.sessionOpen fn = true ∧ w.domainOf fn = domOem ∧ w.b R.HUSK_DBG_STAT_CONSENT = true → w.room → Runs (.kdbg t fn data) s fun s' =>
        s'.b R.HUSK_DBG_STAT_KDBG_OPEN = true ∧ Reports w s' E.DBG_UNLOCK (subject 0 0 fn (w.domainOf fn)))
      ∧ (w.sessionOpen fn = false ∨ w.domainOf fn ≠ domOem ∨ w.b R.HUSK_DBG_STAT_CONSENT = false → Runs (.kdbg t fn data) s fun s' => s' = w))
    ∧ (w.f R.HUSK_ID_LIFECYCLE = lcOemOpen → fn = 0 → w.sessionOpen fn = false → w.room → Runs (.kdbg t fn data) s fun s' =>
        s'.b R.HUSK_DBG_STAT_KDBG_OPEN = true ∧ Reports w s' E.DBG_UNLOCK (subject 0 0 fn (w.domainOf fn))))
  ∧ (∀ (s w : State) (t : Instant) (fn : Nat) (data : Word), (s.start t).actionWrite fn R.HUSK_DBG_CTL_VTEST data = (w, true) →
    w.f R.HUSK_ID_LIFECYCLE = lcReturned → w.sessionOpen fn = true → w.room → Runs (.vtest t fn data) s fun s' =>
      s'.b R.HUSK_DBG_STAT_VTEST_OPEN = true ∧ Reports w s' E.DBG_UNLOCK (subject 0 0 fn (w.domainOf fn)))
  ∧ (∀ (s w : State) (t : Instant) (fn : Nat) (data : Word), (s.start t).actionWrite fn R.HUSK_DBG_CONSENT_GIVE data = (w, true) →
    getBits data 30 30 = 0 → w.room → Runs (.give t fn data) s fun s' => s'.b R.HUSK_DBG_STAT_CONSENT = true
      ∧ s'.husk.consentEnd = w.now + 600 * secQ ∧ Reports w s' E.CONSENT_GIVEN (subject 0 0 fn (w.domainOf fn)))
  ∧ (∀ (s w : State) (t : Instant) (fn : Nat) (data : Word), (s.start t).actionWrite fn R.HUSK_DBG_CONSENT_WITHDRAW data = (w, true) →
    Runs (.withdraw t fn data) s fun s' => s'.b R.HUSK_DBG_STAT_CONSENT = false ∧ s'.b R.HUSK_DBG_STAT_KDBG_OPEN = false
      ∧ (w.b R.HUSK_DBG_STAT_KDBG_OPEN = true → w.room → Reports w s' E.DBG_CLOSED (subject 0 0 fn (w.domainOf fn))))
  ∧ (∀ (s u : State) (t : Instant), u = s.start t → u.b R.HUSK_DBG_STAT_CONSENT = true → u.husk.consentEnd ≤ u.now →
    Runs (.consentExpiry t) s fun s' => s'.b R.HUSK_DBG_STAT_CONSENT = false
      ∧ s'.b R.HUSK_DBG_STAT_KDBG_OPEN = u.b R.HUSK_DBG_STAT_KDBG_OPEN ∧ s'.sys = u.sys)
  ∧ (∀ (s w : State) (t : Instant) (fn : Nat) (data : Word), (s.start t).actionWrite fn R.HUSK_PROV_CTL_FUSE data = (w, true) →
    w.f R.HUSK_ID_LIFECYCLE = lcOemOpen →
    (w.f R.HUSK_PROV_CTL_ITEM = 1 → w.husk.oemRootHash = none → w.room → Runs (.fuse t fn data true) s fun s' =>
        s'.husk.oemRootHash = some (BitVec.ofNat 384 (wordsToNat (w.words W.HUSK_KEY_DATA 16)))
          ∧ s'.words W.HUSK_KEY_DATA 16 = List.replicate 16 0 ∧ s'.f R.HUSK_PROV_STAT_RESULT = 0
          ∧ Reports w s' E.PROV_FUSED (subject 1 0 fn (w.domainOf fn)))
    ∧ (∀ ok : Bool, w.f R.HUSK_PROV_CTL_ITEM = 1 → w.husk.oemRootHash ≠ none → Runs (.fuse t fn data ok) s fun s' =>
        s'.husk = w.husk ∧ s'.f R.HUSK_PROV_STAT_RESULT = 1)
    ∧ (∀ ok : Bool, w.f R.HUSK_PROV_CTL_ITEM = 4 → Runs (.fuse t fn data ok) s fun s' => s'.husk.oemRootHash = w.husk.oemRootHash
        ∧ (w.husk.oemRootHash ≠ none ∧ w.husk.oemKek ≠ none → s'.f R.HUSK_ID_LIFECYCLE = lcDeployed)
        ∧ (w.husk.oemRootHash = none ∨ w.husk.oemKek = none →
            s'.f R.HUSK_ID_LIFECYCLE = lcOemOpen ∧ s'.f R.HUSK_PROV_STAT_RESULT = 2)))
  ∧ ∀ (s w : State) (t : Instant) (fn : Nat) (data : Word), (s.start t).actionWrite fn R.HUSK_SVN_CMD_COMMIT data = (w, true) →
    (w.f R.HUSK_SVN_IMG_SVN < w.f R.HUSK_SVN_RUN_SVN → w.room → Runs (.commit t fn data) s fun s' =>
        s'.f R.HUSK_SVN_IMG_SVN = w.f R.HUSK_SVN_RUN_SVN ∧ Reports w s' E.SVN_COMMIT (subject 0 0 fn (w.domainOf fn)))
    ∧ (w.f R.HUSK_SVN_RUN_SVN ≤ w.f R.HUSK_SVN_IMG_SVN → Runs (.commit t fn data) s fun s' => s' = w)

/-- R334, R336, R337, R402, R421: a key command with more than one bit is BAD_CMD; the responsible officer's slot is first set in an OEM session, and
then each holder sets its own and slot 0 every one; only slot 0 deletes others; LOAD needs a CKN of 1 to 32 bytes; a deleted CAK's slot is empty, and
its SAKs are removed; the key agreement gives a port its transmit SA from a valid slot of that port, where the device is key server for a new peer,
else as the frame brings it, and takes it away when the peer is lost. -/
def Obligations.KeysAreLoadedAndRemoved : Prop :=
  (∀ (s w : State) (t : Instant) (fn : Nat) (data : Word),
    let slot := w.f R.HUSK_KEY_CTL_SLOT
    let user := w.f R.HUSK_SESS_STAT_USER 0 fn
    let new (k : Nat) (v : BitVec 384) : PwSlot :=
      { w.pwSlot k with set := true, salt := BitVec.ofNat 128 (wordsToNat (w.words W.HUSK_CHAL 4 fn)), verifier := v }
    let keyData := w.words W.HUSK_KEY_DATA 16
    ((s.start t).actionWrite fn R.HUSK_KEY_CTL_PW_SET data = (w, true) →
      (keyConflict data = true → Runs (.pwSet t fn data) s fun s' => s'.husk = w.husk ∧ s'.f R.HUSK_KEY_STAT_RESULT = 1)
      ∧ (keyConflict data = false → w.sessionOpen fn = false → Runs (.pwSet t fn data) s fun s' =>
          s'.husk = w.husk ∧ s'.f R.HUSK_KEY_STAT_RESULT = 3)
      ∧ (keyConflict data = false → w.sessionOpen fn = true → w.domainOf fn = domOem → (w.pwSlot 0).set = false → slot = 0 →
          Runs (.pwSet t fn data) s fun s' => s'.pwSlot 0 = new 0 (BitVec.ofNat 384 (wordsToNat (keyData.take 12)))
            ∧ s'.f R.HUSK_KEY_STAT_RESULT = 0 ∧ s'.words W.HUSK_KEY_DATA 16 = List.replicate 16 0)
      ∧ (keyConflict data = false → w.sessionOpen fn = true → w.domainOf fn = domSaf → (w.pwSlot 0).set = true → slot = user ∨ user = 0 →
          ∀ r, r = Config.unwrapVerifier (w.pwSlot user).verifier (w.words W.HUSK_CHAL 12 fn) keyData → Runs (.pwSet t fn data) s fun s' =>
            match r with
            | some v => s'.pwSlot slot = new slot v ∧ s'.f R.HUSK_KEY_STAT_RESULT = 0
            | none => s'.husk = w.husk ∧ s'.f R.HUSK_KEY_STAT_RESULT = 2))
    ∧ ((s.start t).actionWrite fn R.HUSK_KEY_CTL_PW_DEL data = (w, true) → keyConflict data = false → Runs (.pwDel t fn data) s fun s' =>
        if w.sessionOpen fn = true ∧ w.domainOf fn = domSaf ∧ user = 0 ∧ slot ≠ 0 then s'.pwSlot slot = { w.pwSlot slot with set := false, salt := 0, verifier := 0 } ∧ s'.f R.HUSK_KEY_STAT_RESULT = 0
        else s'.husk = w.husk ∧ s'.f R.HUSK_KEY_STAT_RESULT = 3)
    ∧ ((s.start t).actionWrite fn R.HUSK_KEY_CTL_LOAD data = (w, true) → keyConflict data = false → w.room → Runs (.load t fn data) s fun s' =>
        let len := w.f R.HUSK_KEY_CTL_CKN_LEN
        if 1 ≤ len ∧ len ≤ 32 then
          s'.cakSlot slot = { valid := true, cak := BitVec.ofNat 256 (wordsToNat (keyData.take 8))
                              ckn := BitVec.ofNat 256 (wordsToNat (keyData.drop 8) % 2 ^ (8 * len)), cknLen := len
                              port := w.f R.HUSK_KEY_CTL_PORT }
            ∧ s'.bitF R.HUSK_KEY_STAT_VALID slot = true ∧ Reports w s' E.KEY_LOADED (subject slot 0 fn (w.domainOf fn))
        else s'.husk = w.husk ∧ s'.f R.HUSK_KEY_STAT_RESULT = 1)
    ∧ ((s.start t).actionWrite fn R.HUSK_KEY_CTL_DELETE data = (w, true) → keyConflict data = false → w.room → Runs (.delete t fn data) s fun s' =>
        s'.cakSlot slot = { sakDeadline := w.now + 6 * secQ } ∧ s'.bitF R.HUSK_KEY_STAT_VALID slot = false
          ∧ Reports w s' E.KEY_DELETED (subject slot 0 fn (w.domainOf fn))))
  ∧ ∀ (s u : State) (t : Instant), u = s.start t →
    (∀ slot : Nat, (u.cakSlot slot).valid = false → (u.cakSlot slot).sakDeadline ≠ 0 → Runs (.sakRemoval t slot) s fun s' =>
      s'.cakSlot slot = { u.cakSlot slot with sakDeadline := 0 }
        ∧ ∀ p < 2, kget 0 u.net.txSa p = slot + 1 → kget 0 s'.net.txSa p = 0 ∧ s'.b R.NET_PORT_STAT_SA_TX p = false)
    ∧ ∀ p : Nat, u.mkaOn p = true →
      (∀ (m : MkaFrame) (slot : Nat), m.slot = some slot → (u.cakSlot slot).valid = true → (u.cakSlot slot).port = p →
        Runs (.mkaFrame t p m) s fun s' =>
          (s'.port p).peer = some (m.prio, m.sci, slot)
            ∧ ((if lexLt [u.f R.NET_PORT_CFG_KS_PRIO p, u.sci p] [m.prio, m.sci] then (u.port p).peer.map (·.2) ≠ some (m.sci, slot) else m.sak = true) →
                s'.b R.NET_PORT_STAT_SA_TX p = true ∧ kget 0 s'.net.txSa p = slot + 1))
      ∧ ∀ (prio sci slot : Nat) (send : List (List Byte)), (u.port p).peer = some (prio, sci, slot) → Runs (.mkaPeerTimeout t p send) s fun s' =>
          (s'.port p).peer = none
            ∧ (if lexLt [u.f R.NET_PORT_CFG_KS_PRIO p, u.sci p] [prio, sci] = true ∧ (u.cakSlot slot).valid = true then
                s'.b R.NET_PORT_STAT_SA_TX p = true ∧ kget 0 s'.net.txSa p = slot + 1
              else s'.b R.NET_PORT_STAT_SA_TX p = false ∧ kget 0 s'.net.txSa p = 0)

/-- R327, R485 to R491: PORST_N, a rail below its threshold and SYS_RST each put the device into reset, where only what flash and one-time storage
hold is left, and each records its cause; SYS_RST needs an OEM session, its KEY and every target held; reset is over only when no source is left, and
RESET_CAUSE is then reported; PERST_N takes the link away, and its release brings it back. -/
def Obligations.ResetSourcesWipeTheDevice : Prop :=
  (∀ (s u : State) (t : Instant), u = s.start t →
    (∀ since : Instant, u.pwr.porst = false → since + usQ ≤ u.now → Runs (.porstN t since) s fun s' =>
        Wiped u s' ∧ s'.pwr.porst = true ∧ s'.b R.PWR_RST_CAUSE_PIN = true)
    ∧ (∀ (r mv : Nat) (since : Instant), r < 8 → mv < railFall r → since + 2 * usQ ≤ u.now → Runs (.supplyLow t r mv since) s fun s' =>
        Wiped u s' ∧ s'.pwr.supplyReset = true ∧ s'.pwr.rails.testBit r = false
          ∧ (if r = 3 ∧ mv < 1200 then
              s'.b R.PWR_RST_CAUSE_POR = true ∧ s'.b R.PWR_RST_CAUSE_SUPPLY = false ∧ s'.b R.PWR_RST_CAUSE_PIN = false
            else s'.b R.PWR_RST_CAUSE_SUPPLY = true ∧ s'.bitF R.PWR_RST_CAUSE_RAILS r = true))
    ∧ (∀ (mvs : List Nat) (since : Instant), u.pwr.supplyReset = true → since + msQ ≤ u.now →
      (∀ r < 8, (if u.pwr.rails.testBit r then railFall r else railRise r) ≤ mvs.getD r 0) → Runs (.supplyOk t mvs since) s fun s' =>
        s'.pwr = { u.pwr with supplyReset := false, rails := 0xFF } ∧ s'.regs = u.regs)
    ∧ (∀ b : BootIn, u.inReset = true → u.pwr.supplyReset = false → u.pwr.softEnd ≤ u.now → Runs (.resetRelease t b) s fun s' =>
        s'.inReset = false ∧ (u.husk.eraseOpen = false → s'.net.porstAt = u.now
          ∧ (u.room → Posts u s' E.RESET_CAUSE 0 (u.word .pwr (W.PWR_RST_CAUSE.key 0 0)))))
    ∧ (∀ since : Instant, u.inReset = false → u.hostq.linkUp = true → since + usQ ≤ u.now →
      (Runs (.perstN t since) s fun s' => s'.hostq.linkUp = false ∧ s'.hostq.bme.testBit 0 = false ∧ s'.hostq.bme.testBit 1 = false
        ∧ s'.f R.HUSK_SESS_STAT_PHASE 0 0 = 0 ∧ s'.f R.HUSK_SESS_STAT_PHASE 0 1 = 0 ∧ kget 0 s'.hostq.lossCause 0 = 2
        ∧ kget 0 s'.hostq.lossCause 1 = 2))
    ∧ (u.inReset = false → Runs (.perstNRelease t) s fun s' => s'.hostq = { u.hostq with linkUp := true } ∧ s'.regs = u.regs))
  ∧ ∀ (s w : State) (t : Instant) (fn : Nat) (data : Word), (s.start t).actionWrite fn R.PWR_RST_CMD_SYS_RST data = (w, true) →
    (w.sessionOpen fn = true → w.domainOf fn = domOem → getBits data 15 0 = 0xB007 →
      (w.allHeld = true → Runs (.sysRst t fn data) s fun s' =>
          Wiped ((w.failUpdate 0xE).doIf w.sealed (·.saveRecords)) s' ∧ s'.pwr.softEnd = w.now + 100 * usQ ∧ s'.b R.PWR_RST_CAUSE_SOFT = true)
      ∧ (w.allHeld = false → w.room → Runs (.sysRst t fn data) s fun s' => Reports w s' E.RST_CMD_REFUSED ∧ s'.pwr = w.pwr ∧ s'.husk = w.husk))
    ∧ (w.sessionOpen fn = false ∨ w.domainOf fn ≠ domOem ∨ getBits data 15 0 ≠ 0xB007 → Runs (.sysRst t fn data) s fun s' => s' = w)

/-- R338, R339: an erase needs a session of OEM, or of VND with consent, the DEPLOYED lifecycle, its KEY and every target held, else it is refused and
reported; it makes the part RETURNED, takes the keys and holds the core die, and when it is done the slots and every record are blank and the die
stays held. -/
def Obligations.EraseLeavesNothing : Prop :=
  (∀ (s w : State) (t : Instant) (fn : Nat) (data : Word), (s.start t).actionWrite fn R.HUSK_ERASE_CTL_ERASE data = (w, true) →
    let allowed : Prop := w.sessionOpen fn = true ∧ (w.domainOf fn = domOem ∨ w.domainOf fn = domVnd ∧ w.b R.HUSK_DBG_STAT_CONSENT = true)
      ∧ w.f R.HUSK_ID_LIFECYCLE = lcDeployed ∧ getBits data 15 0 = 0x7144 ∧ w.allHeld = true
    (allowed → Runs (.erase t fn data) s fun s' =>
      s'.husk.eraseHeld = true ∧ s'.husk.eraseOpen = true ∧ s'.alive = false ∧ s'.f R.HUSK_ID_LIFECYCLE = lcReturned
        ∧ s'.f R.HUSK_ERASE_STAT_PHASE = 4 ∧ s'.husk.cak = [] ∧ s'.husk.oemRootHash ≠ none ∧ s'.husk.oemKek ≠ none ∧ s'.husk.safRootHash ≠ none
        ∧ s'.loop = State.reset.loop ∧ s'.sea = State.reset.sea ∧ s'.pwm = State.reset.pwm ∧ s'.sys = State.reset.sys
        ∧ ∀ b : Blk, b ≠ .sys → b ≠ .husk → b ≠ .pwr → s'.regs.blk b = State.reset.regs.blk b)
    ∧ (¬ allowed → w.room → Runs (.erase t fn data) s fun s' =>
        Reports w s' E.ERASE_REFUSED (subject 0 0 fn (w.domainOf fn)) ∧ s'.husk = w.husk ∧ s'.loop = w.loop ∧ s'.sea = w.sea))
  ∧ ∀ (s u : State) (t : Instant), u = s.start t → u.inReset = false → u.husk.eraseHeld = true → u.husk.eraseOpen = true → u.room →
    Runs (.eraseDone t) s fun s' => s'.husk = { u.husk with pw := [], cak := [], eraseOpen := false, recordBad := false } ∧ s'.cfg.slots = []
      ∧ s'.safe.changeLog = [] ∧ s'.safe.overlay = none ∧ s'.trip.lifeSaved = none ∧ s'.rel.saved = {} ∧ s'.alive = false
      ∧ s'.f R.HUSK_ERASE_STAT_PHASE = 5 ∧ s'.f R.HUSK_ERASE_STAT_PCT = 100 ∧ s'.b R.HUSK_STAT_ERASED = true ∧ Reports u s' E.ERASE_DONE

/-- R16, R331, R356 to R358, R455, R473, R495: the boot tests put failed kernels out of use and back the logical kernels of each pod with the others
in rising order; an image in trial passes the husk's checks, or is rejected with the result of the first that fails; a section is loaded or refused by
its identifier and offset, an image for its layout; the last accepted one ends in placement; SEALED comes at once or waits for SYNC_IN; READY comes
when all holds. -/
def Obligations.BootChainReachesReady : Prop :=
  ∀ (s u : State) (t : Instant), u = s.start t → u.alive = true →
    (∀ failed : List Nat, u.husk.firmware = true → u.b R.CLK_STAT_NOREF = false → u.b R.REL_STAT_BOOT_BIST_DONE = false →
      Runs (.bootBistDone t failed) s fun s' =>
        s'.b R.REL_STAT_BOOT_BIST_DONE = true ∧ (∀ p ∈ failed, p < 384 → u.isGone p = false → kget 0 s'.rel.gone p = 3)
          ∧ (∀ p, u.isGone p = true → kget 0 s'.rel.gone p = kget 0 u.rel.gone p)
          ∧ ∀ n < 24, ∀ k < 15, s'.physOf (16 * n + k) = (((List.range 16).map (16 * n + ·)).filter fun p => !s'.isGone p)[k]?)
    ∧ (∀ (k : Nat) (im : SlotImage), u.husk.firmware = true → u.b R.CLK_STAT_NOREF = false → u.cfg.released = false →
      u.b R.CFG_STAT_SEALED = false → u.cfg.order.head? = some k → k < 2 → im = u.slotImg k →
      (u.verifyResult im = 0 → Runs (.imageVerify t) s fun s' =>
          s'.b R.HUSK_STAT_BOOT_OK = true ∧ s'.f R.CFG_STAT_PHASE = 1 ∧ s'.cfg = { u.cfg with released := true })
      ∧ (∀ r, u.verifyResult im = r → r ≠ 0 → u.room → Runs (.imageVerify t) s fun s' =>
          s'.cfg.order = u.cfg.order.drop 1 ∧ s'.cfg.released = false ∧ s'.b R.HUSK_STAT_BOOT_OK = false
            ∧ s'.f (if k = 0 then R.CFG_SLOT_STAT_A_RESULT else R.CFG_SLOT_STAT_B_RESULT) = r
            ∧ (if r = 7 then s'.sys = u.sys else Reports u s' E.IMG_REJECTED (subject k) (nw r))))
    ∧ (∀ im : SlotImage, u.verifyResult im = 0 ↔ u.signatureOk im = true ∧ u.f R.HUSK_SVN_IMG_SVN ≤ im.hdr.svn ∧ im.hdr.svn ≤ 64
        ∧ u.tagsOk im = true ∧ u.fwOk im = true ∧ u.officerOk im = true
        ∧ (u.f R.HUSK_ID_LIFECYCLE = lcDeployed ∧ u.husk.oemRootHash = some (keyHash im.key.rootPub)
          ∨ u.f R.HUSK_ID_LIFECYCLE = lcReturned ∧ u.husk.skvRootHash = keyHash im.key.rootPub)
        ∧ (im.hdr.bind = 0 ∨ im.hdr.bind = u.f W.HUSK_DEV_ID_LO + u.f W.HUSK_DEV_ID_HI * 2 ^ 32))
    ∧ (∀ (im : SlotImage) (bad : Option (Nat × Nat)) (ofs : Nat), u.cfg.released = true → u.cfg.placed = false →
      u.b R.REL_STAT_BOOT_BIST_DONE = true → u.b R.CFG_STAT_SEALED = false → im = u.slotImg (u.cfg.order.head?.getD 0) →
      let refused (before : State) (s' : State) : Prop := s'.cfg.placed = false ∧ s'.cfg.order = before.cfg.order.drop 1 ∧ s'.cfg.released = false
        ∧ s'.cfg.loaded = [] ∧ s'.sea.mem = [] ∧ s'.sea.roles = [] ∧ s'.loop = {}
      (∀ i o k : Nat, layoutBad im = some (i, o) → u.cfg.order.head? = some k → u.room → Runs (.sectionLoad t bad ofs) s fun s' =>
        refused u s' ∧ Reports u s' E.IMG_REFUSED (subject k) (nw i) (nw o))
      ∧ ∀ (sec : Section) (rest : List Section), layoutBad im = none → im.secs.drop u.cfg.loaded.length = sec :: rest →
        (∀ i o k : Nat, u.cfg.order.head? = some k → i = sectionId sec →
          (∃ l ∈ u.cfg.loaded, i ≤ l) ∧ o = 0 ∨ (∀ l ∈ u.cfg.loaded, l < i) ∧ u.loadSection sec = .error o → u.room →
          Runs (.sectionLoad t bad ofs) s fun s' => refused u s' ∧ Reports u s' E.IMG_REFUSED (subject k) (nw i) (nw o))
        ∧ ∀ v w : State, (∀ l ∈ u.cfg.loaded, l < sectionId sec) → u.loadSection sec = .ok v →
          w = ({ v with cfg := { v.cfg with loaded := v.cfg.loaded ++ [sectionId sec] } }).cfglSection sec →
          (bad ≠ none → Runs (.sectionLoad t bad ofs) s (refused w))
          ∧ (bad = none → rest ≠ [] → Runs (.sectionLoad t bad ofs) s fun s' => s' = w)
          ∧ (bad = none → rest = [] → w.imageBad = none → Runs (.sectionLoad t bad ofs) s fun s' => s'.cfg.placed = true)
          ∧ (bad = none → rest = [] → w.imageBad ≠ none → Runs (.sectionLoad t bad ofs) s (refused w)))
    ∧ (∀ k : Nat, u.cfg.placed = true → u.chaffOver = true → u.b R.CFG_STAT_SEALED = false → u.clk.syncWait = none → u.cfg.order.head? = some k → k < 2 →
      (u.b R.CLK_CTL_SYNC_EN = false → Runs (.seal t) s fun s' =>
        s'.b R.CFG_STAT_SEALED = true ∧ s'.f R.CFG_STAT_SLOT = k + 1 ∧ s'.clk.ungatedAt = some u.now
          ∧ (u.initSlots.room → ∃ q ∈ s'.sys.queue, q.evt.cls = E.IMG_LOADED.1.code ∧ q.evt.code = E.IMG_LOADED.2
              ∧ q.evt.subject = subject k ∧ q.evt.w0 = nw (u.slotHdr k).seq))
      ∧ (u.b R.CLK_CTL_SYNC_EN = true → Runs (.seal t) s fun s' =>
        s'.clk.syncWait = some u.now ∧ s'.clk.syncAt = none ∧ s'.b R.CFG_STAT_SEALED = false))
    ∧ (u.readyOk = true → u.b R.PWR_STAT_READY = false → u.room → Runs (.ready t) s fun s' =>
      s'.b R.PWR_STAT_READY = true ∧ s'.f R.PWR_STAT_PHASE = 5 ∧ Posts u s' E.READY
        ∧ (u.b R.PWR_TOK_CFG_WAKE_EN = false → s'.b R.PWR_TOK_STAT_OPEN = true))

/-- R360 to R362: START is refused while the slots are busy, for a failed read of the image, for its length, a SEQ not above the one in force and an
old SVN; an accepted one makes the target invalid first; a failure in any phase ends the update with its reason and the target stays invalid;
verified, it is valid. VERIFY shows a result; REVOKE makes a slot invalid unless it is in force with the other unverified. -/
def Obligations.UpdatesWriteTheOtherSlot : Prop :=
  let failed (u : State) (j : UpdJob) (r : Nat) (s' : State) : Prop :=
    s'.f R.CFG_UPD_STAT_PHASE = 6 ∧ s'.f R.CFG_UPD_STAT_RESULT = r ∧ s'.b R.CFG_UPD_STAT_DONE = true ∧ s'.cfg = { u.cfg with job := none }
      ∧ Reports u s' E.UPD_FAIL (subject j.slot) (nw r)
  let refused (w : State) (k r : Nat) (s' : State) : Prop :=
    s'.f R.CFG_UPD_STAT_RESULT = r ∧ s'.cfg = w.cfg ∧ Reports w s' E.UPD_FAIL (subject k) (nw r)
  (∀ (s w : State) (t : Instant) (fn : Nat) (data : Word) (im : SlotImage), (s.start t).actionWrite fn R.CFG_UPD_CTL_START data = (w, true) → w.room →
    let h := im.hdr
    let lenOk : Prop := h.len ≤ 0x1000000 ∧ w.f R.CFG_UPD_LEN_LEN = h.len
    let newer : Prop := ∀ j, w.slotInForce = some j → (w.slotHdr j).seq < h.seq
    (w.cfg.job ≠ none → Runs (.start t fn data (some im)) s (refused w w.updTarget 0xF))
    ∧ (w.cfg.job = none → w.pf0Reads = false → Runs (.start t fn data (some im)) s (refused w w.updTarget 0xC))
    ∧ (w.cfg.job = none → Runs (.start t fn data none) s (refused w w.updTarget 0xC))
    ∧ (w.cfg.job = none → w.pf0Reads = true → ¬ lenOk → Runs (.start t fn data (some im)) s (refused w w.updTarget 0xB))
    ∧ (w.cfg.job = none → w.pf0Reads = true → lenOk → ¬ newer → Runs (.start t fn data (some im)) s (refused w w.updTarget 0xA))
    ∧ (w.cfg.job = none → w.pf0Reads = true → lenOk → newer → h.svn < w.f R.HUSK_SVN_IMG_SVN →
        Runs (.start t fn data (some im)) s (refused w w.updTarget 2))
    ∧ (w.cfg.job = none → w.pf0Reads = true → lenOk → newer → w.f R.HUSK_SVN_IMG_SVN ≤ h.svn → Runs (.start t fn data (some im)) s fun s' =>
        s'.f R.CFG_UPD_STAT_PHASE = 1 ∧ s'.f R.CFG_UPD_STAT_TARGET = w.updTarget ∧ slotValid (s'.slotHdr w.updTarget) = false
          ∧ s'.cfg.job = some { verify := false, slot := w.updTarget, img := im } ∧ (∀ j, j ≠ w.updTarget → s'.slotHdr j = w.slotHdr j)
          ∧ Reports w s' E.UPD_START (subject w.updTarget)))
  ∧ (∀ (s u : State) (t : Instant) (j : UpdJob), u = s.start t → u.alive = true → u.cfg.job = some j → u.room →
    (j.verify = false → u.f R.CFG_UPD_STAT_PHASE = 1 →
      (Runs (.updateEraseDone t true) s fun s' => s'.f R.CFG_UPD_STAT_PHASE = 2 ∧ s'.cfg = u.cfg ∧ s'.sys = u.sys)
      ∧ Runs (.updateEraseDone t false) s (failed u j 0xD))
    ∧ (j.verify = false → u.f R.CFG_UPD_STAT_PHASE = 2 →
      (u.pf0Reads = true → Runs (.updateProgramDone t 0) s fun s' =>
        s'.f R.CFG_UPD_STAT_PHASE = 3 ∧ s'.f R.CFG_UPD_STAT_PCT = 100 ∧ s'.slotImg j.slot = unmarked j.img
          ∧ (∀ k, k ≠ j.slot → s'.slotImg k = u.slotImg k) ∧ s'.cfg.job = some j ∧ s'.sys = u.sys)
      ∧ (∀ err, err = 1 ∨ u.pf0Reads = false → Runs (.updateProgramDone t err) s (failed u j 0xC))
      ∧ (u.pf0Reads = true → Runs (.updateProgramDone t 2) s (failed u j 0xD)))
    ∧ (j.verify = false → u.f R.CFG_UPD_STAT_PHASE = 3 →
      (u.updResult j.img = 0 → Runs (.updateVerifyDone t) s fun s' =>
        s'.slotImg j.slot = j.img ∧ slotValid j.img.hdr = true ∧ s'.f R.CFG_UPD_STAT_PHASE = 5 ∧ s'.f R.CFG_UPD_STAT_RESULT = 0
          ∧ s'.b R.CFG_UPD_STAT_DONE = true ∧ s'.cfg.job = none ∧ (∀ k, k ≠ j.slot → s'.slotImg k = u.slotImg k)
          ∧ Reports u s' E.UPD_DONE (subject j.slot))
      ∧ (∀ r, u.updResult j.img = r → r ≠ 0 → Runs (.updateVerifyDone t) s (failed u j r)))
    ∧ (j.verify = true → j.slot < 2 → ∀ r : Nat, r = (if slotValid j.img.hdr then u.updResult j.img else 9) →
      Runs (.slotVerified t) s fun s' => s'.cfg.job = none ∧ s'.b R.CFG_UPD_STAT_DONE = true ∧ (j.slot ∈ s'.cfg.verified ↔ r = 0)
        ∧ s'.f (if j.slot = 0 then R.CFG_SLOT_STAT_A_RESULT else R.CFG_SLOT_STAT_B_RESULT) = r
        ∧ s'.cfg.slots = u.cfg.slots ∧ Reports u s' E.SLOT_VERIFIED (subject j.slot) (nw r)))
  ∧ (∀ (s w : State) (t : Instant) (fn : Nat) (data : Word) (j : UpdJob), (s.start t).actionWrite fn R.CFG_UPD_CTL_ABORT data = (w, true) → w.room →
    w.cfg.job = some j → j.verify = false → Runs (.updateAbort t fn data) s (failed w j 0xE))
  ∧ (∀ (s w : State) (t : Instant) (fn : Nat) (data : Word), (s.start t).actionWrite fn R.CFG_UPD_CTL_VERIFY data = (w, true) → w.room →
    let k := w.f R.CFG_UPD_CTL_SLOT
    (w.cfg.job = none → Runs (.verify t fn data) s fun s' =>
        s' = { w with cfg := { w.cfg with job := some { verify := true, slot := k, img := w.slotImg k } } })
    ∧ (w.cfg.job ≠ none → Runs (.verify t fn data) s (refused w k 0xF)))
  ∧ ∀ (s w : State) (t : Instant) (fn : Nat) (data : Word), (s.start t).actionWrite fn R.CFG_UPD_CTL_REVOKE data = (w, true) → w.room →
    let k := w.f R.CFG_UPD_CTL_SLOT
    let may : Prop := w.cfg.job = none ∧ (w.slotInForce = some k → 1 - k ∈ w.cfg.verified)
    (may → Runs (.revoke t fn data) s fun s' =>
      slotValid (s'.slotHdr k) = false ∧ (∀ j, j ≠ k → s'.slotHdr j = w.slotHdr j) ∧ s'.b R.CFG_UPD_STAT_DONE = true ∧ s'.cfg.job = none
        ∧ Reports w s' E.SLOT_REVOKED (subject k))
    ∧ (¬ may → Runs (.revoke t fn data) s (refused w k 0xF))

/-- R370 to R375, R394, R397: a ring is enabled only with a CQ of its own domain, and is empty then; a refused enable or disable changes nothing of
HOSTQ; a ring drains; doorbells move tails and heads or set DB_BAD; a completion is written at TAIL, and signals or waits for the timer or the mask; a
bus-master error of a CQ takes its SQs with it; a lost link disables every ring; and a lost host asserts its line. -/
def Obligations.RingsCarryCompletions : Prop :=
  ∀ (s u : State) (t : Instant) (fn q : Nat), u = s.start t → fn < 2 → q < 32 →
    (∀ (data : Word) (w : State) (p : RegHit × List FieldDef), getBits data 31 31 = 1 → u.writeAt fn .hostq (R.HOSTQ_SQ_CFG_EN.off q fn) data = (w, some p) →
      u.b R.HOSTQ_SQ_CFG_EN q fn = false →
      (w.sqState fn q = 0 → 4 ≤ w.f R.HOSTQ_SQ_CFG_SIZE q fn ∧ w.f R.HOSTQ_SQ_CFG_SIZE q fn ≤ 12 → w.cqState fn (w.cqOf fn q) = 1 → w.f R.HOSTQ_CQ_STAT_DOMAIN (w.cqOf fn q) fn = u.domainOf fn →
        Runs (.ringEnable t fn false q data) s fun s' => s'.b R.HOSTQ_SQ_CFG_EN q fn = true ∧ s'.sqState fn q = 1
          ∧ s'.f R.HOSTQ_SQ_STAT_DOMAIN q fn = u.domainOf fn % 8 ∧ s'.f R.HOSTQ_SQ_STAT_HEAD q fn = 0 ∧ kget 0 s'.hostq.tails (32 * fn + q) = 0
          ∧ s'.cqOf fn q = w.cqOf fn q ∧ s'.sys = w.sys)
      ∧ (w.cqState fn (w.cqOf fn q) = 0 ∨ w.f R.HOSTQ_CQ_STAT_DOMAIN (w.cqOf fn q) fn ≠ u.domainOf fn → w.room →
        Runs (.ringEnable t fn false q data) s fun s' => (∀ k, s'.word .hostq k = u.word .hostq k) ∧ s'.hostq = u.hostq
          ∧ Reports w s' E.RING_CFG_REFUSED (ringSubject fn q (u.domainOf fn))))
    ∧ (∀ (data : Word) (w : State) (p : RegHit × List FieldDef), getBits data 31 31 = 1 → u.writeAt fn .hostq (R.HOSTQ_CQ_CFG_EN.off q fn) data = (w, some p) →
      u.b R.HOSTQ_CQ_CFG_EN q fn = false → w.cqState fn q = 0 → 4 ≤ w.f R.HOSTQ_CQ_CFG_SIZE q fn ∧ w.f R.HOSTQ_CQ_CFG_SIZE q fn ≤ 12 →
      Runs (.ringEnable t fn true q data) s fun s' =>
        s'.b R.HOSTQ_CQ_CFG_EN q fn = true ∧ s'.cqState fn q = 1 ∧ s'.b R.HOSTQ_CQ_STAT_PHASE q fn = true ∧ s'.f R.HOSTQ_CQ_STAT_HEAD q fn = 0
          ∧ s'.f R.HOSTQ_CQ_STAT_TAIL q fn = 0 ∧ s'.f R.HOSTQ_CQ_STAT_DOMAIN q fn = u.domainOf fn % 8)
    ∧ (∀ (data : Word) (w : State) (p : RegHit × List FieldDef), getBits data 31 31 = 0 →
      (u.writeAt fn .hostq (R.HOSTQ_SQ_CFG_EN.off q fn) data = (w, some p) → u.b R.HOSTQ_SQ_CFG_EN q fn = true →
        Runs (.ringDisable t fn false q data) s fun s' => s'.b R.HOSTQ_SQ_CFG_EN q fn = false
          ∧ s'.sqState fn q = if u.f R.HOSTQ_SQ_STAT_OUTSTANDING q fn = 0 then 0 else if u.sqState fn q = 1 then 2 else u.sqState fn q)
      ∧ (u.writeAt fn .hostq (R.HOSTQ_CQ_CFG_EN.off q fn) data = (w, some p) → u.b R.HOSTQ_CQ_CFG_EN q fn = true → u.cqState fn q ≠ 3 →
        (∃ r < 32, u.b R.HOSTQ_SQ_CFG_EN r fn = true ∧ u.cqOf fn r = q) → w.room → Runs (.ringDisable t fn true q data) s fun s' =>
          (∀ k, s'.word .hostq k = u.word .hostq k) ∧ Reports w s' E.RING_CFG_REFUSED (ringSubject fn q (u.domainOf fn))))
    ∧ (u.b R.HOSTQ_SQ_CFG_EN q fn = false → u.f R.HOSTQ_SQ_STAT_OUTSTANDING q fn = 0 → u.sqState fn q = 2 ∨ u.sqState fn q = 3 →
      Runs (.ringDrained t fn q) s fun s' => s'.sqState fn q = 0 ∧ s'.f R.HOSTQ_SQ_STAT_DOMAIN q fn = 0 ∧ s'.f R.HOSTQ_SQ_STAT_ERR q fn = 0)
    ∧ (∀ data : Word, u.bellOpen = true → u.b R.HOSTQ_SQ_CFG_EN q fn = true →
      (data.toNat < 2 ^ u.f R.HOSTQ_SQ_CFG_SIZE q fn → Runs (.sqTailDoorbell t fn q data) s fun s' =>
        s' = { u with hostq := { u.hostq with tails := kset 0 u.hostq.tails (32 * fn + q) data.toNat } })
      ∧ (2 ^ u.f R.HOSTQ_SQ_CFG_SIZE q fn ≤ data.toNat → u.b R.HOSTQ_SQ_STAT_DB_BAD q fn = false → u.room →
        Runs (.sqTailDoorbell t fn q data) s fun s' => s'.b R.HOSTQ_SQ_STAT_DB_BAD q fn = true ∧ s'.hostq = u.hostq
          ∧ Reports u s' E.DB_BAD (ringSubject fn q (u.f R.HOSTQ_SQ_STAT_DOMAIN q fn))))
    ∧ (∀ data : Word, u.b R.HOSTQ_SQ_CFG_EN q fn = false → Runs (.sqTailDoorbell t fn q data) s fun s' => s' = u)
    ∧ (∀ data : Word, u.bellOpen = true → u.b R.HOSTQ_CQ_CFG_EN q fn = true → u.f R.HOSTQ_CQ_CFG_SIZE q fn ≤ 12 →
      (data.toNat < 2 ^ u.f R.HOSTQ_CQ_CFG_SIZE q fn → Runs (.cqHeadDoorbell t fn q data) s fun s' =>
        s'.f R.HOSTQ_CQ_STAT_HEAD q fn = data.toNat
          ∧ s'.b R.HOSTQ_CQ_STAT_FULL q fn = decide ((u.f R.HOSTQ_CQ_STAT_TAIL q fn + 1) % 2 ^ u.f R.HOSTQ_CQ_CFG_SIZE q fn = data.toNat))
      ∧ (2 ^ u.f R.HOSTQ_CQ_CFG_SIZE q fn ≤ data.toNat → u.b R.HOSTQ_CQ_STAT_DB_BAD q fn = false → u.room →
        Runs (.cqHeadDoorbell t fn q data) s fun s' => s'.f R.HOSTQ_CQ_STAT_HEAD q fn = u.f R.HOSTQ_CQ_STAT_HEAD q fn
          ∧ s'.b R.HOSTQ_CQ_STAT_DB_BAD q fn = true ∧ Reports u s' E.DB_BAD (ringSubject fn q (u.f R.HOSTQ_CQ_STAT_DOMAIN q fn))))
    ∧ (∀ (g : Nat) (d : HDesc), u.waitingOf fn q = some (g, d) → u.cqState fn q = 1 → u.busOpen fn = true → u.b R.HOSTQ_CQ_STAT_FULL q fn = false →
      u.f R.HOSTQ_CQ_CFG_SIZE q fn ≤ 12 → d.sq < 32 → Runs (.completion t fn q) s fun s' =>
        let next := (u.f R.HOSTQ_CQ_STAT_TAIL q fn + 1) % 2 ^ u.f R.HOSTQ_CQ_CFG_SIZE q fn
        .dmaWrite fn (u.cqEntry fn q (u.f R.HOSTQ_CQ_STAT_TAIL q fn))
            (completionBytes d (u.b R.HOSTQ_CQ_STAT_PHASE q fn) (u.f R.HOSTQ_SQ_STAT_HEAD d.sq fn)) ∈ s'.out
          ∧ s'.f R.HOSTQ_CQ_STAT_TAIL q fn = next
          ∧ s'.b R.HOSTQ_CQ_STAT_PHASE q fn = (if next = 0 then !u.b R.HOSTQ_CQ_STAT_PHASE q fn else u.b R.HOSTQ_CQ_STAT_PHASE q fn)
          ∧ s'.desc g = none ∧ d.cid ∈ kget [] s'.hostq.done (32 * fn + d.sq))
    ∧ (∀ (a : Instant) (l : List Instant), kget [] u.hostq.unsig (32 * fn + q) = a :: l → u.busOpen fn = true → u.f R.HOSTQ_CQ_CFG_IRQ_TIME q fn ≠ 0 →
      a + u.f R.HOSTQ_CQ_CFG_IRQ_TIME q fn * usQ ≤ u.now → Runs (.irqTimer t fn q) s fun s' => kget [] s'.hostq.unsig (32 * fn + q) = []
        ∧ if 32 * fn + u.f R.HOSTQ_CQ_CFG_VEC q fn ∈ u.hostq.vecOpen then .msix fn (u.f R.HOSTQ_CQ_CFG_VEC q fn) ∈ s'.out
          else 32 * fn + u.f R.HOSTQ_CQ_CFG_VEC q fn ∈ s'.hostq.vecPend ∧ s'.out = [])
    ∧ (u.hostq.linkUp = true → 32 * fn + q ∉ u.hostq.vecOpen → Runs (.msixVectorUnmask t fn q) s fun s' => 32 * fn + q ∈ s'.hostq.vecOpen
        ∧ 32 * fn + q ∉ s'.hostq.vecPend ∧ s'.out = if 32 * fn + q ∈ u.hostq.vecPend then [.msix fn q] else [])
    ∧ (u.hostq.linkUp = true → Runs (.busMasterEnable t fn) s fun s' => s'.hostq.bme.testBit fn = true ∧ s'.regs = u.regs)
    ∧ (∀ err, u.sealed = true → 0 < err → err < 5 → u.room →
      (u.sqState fn q = 1 ∨ u.sqState fn q = 2 → Runs (.ringError t fn false q err) s fun s' => s'.sqState fn q = 3
        ∧ s'.f R.HOSTQ_SQ_STAT_ERR q fn = err ∧ Reports u s' E.RING_ERROR (ringSubject fn q (u.f R.HOSTQ_SQ_STAT_DOMAIN q fn)) (nw err))
      ∧ (u.cqState fn q = 1 → Runs (.ringError t fn true q err) s fun s' => s'.cqState fn q = 3
        ∧ Posts u s' E.RING_ERROR (ringSubject fn q (u.f R.HOSTQ_CQ_STAT_DOMAIN q fn)) (nw err)
        ∧ ∀ p < 32, u.sqState fn p = 1 ∨ u.sqState fn p = 2 → u.cqOf fn p = q → s'.sqState fn p = 3 ∧ s'.f R.HOSTQ_SQ_STAT_ERR p fn = 5))
    ∧ (u.hostq.linkUp = true → u.inReset = false →
      let lost (kind : Nat) (n : Nat) (s' : State) : Prop := s'.hostq.bme.testBit n = false ∧ kget 0 s'.hostq.lossCause n = kind
        ∧ ∀ p < 32, s'.sqState n p = 0 ∧ s'.cqState n p = 0
      (Runs (.linkLoss t 0 fn) s fun s' => s'.hostq.linkUp = false ∧ ∀ n < 2, lost 2 n s')
      ∧ (Runs (.linkLoss t 1 fn) s fun s' => s'.hostq.linkUp = true ∧ ∀ n < 2, lost 3 n s')
      ∧ (Runs (.linkLoss t 2 fn) s fun s' => s'.hostq.linkUp = true ∧ lost 3 fn s'))
    ∧ (∀ cause, u.sealed = true → u.hostLost fn = false → u.room →
      cause ≠ 0 ∧ cause < 4 ∧ kget 0 u.hostq.lossCause fn = cause ∨ cause = 1 ∧ kget 0 u.hostq.lossCause fn = 0 ∧ u.b R.HOSTQ_HL_CFG_HB_EN fn = true
        ∧ kget 0 u.hostq.lastHb fn + u.f R.HOSTQ_HL_CFG_HB_TIMEOUT fn * msQ ≤ u.now →
      Runs (.hostLost t fn) s fun s' => s'.hostLost fn = true ∧ s'.f (if fn = 0 then R.HOSTQ_HL_STAT_CAUSE0 else R.HOSTQ_HL_STAT_CAUSE1) = cause
        ∧ s'.b (if fn = 0 then R.HOSTQ_HL_STAT_SEEN0 else R.HOSTQ_HL_STAT_SEEN1) = true ∧ Posts u s' E.HOST_LOST (subject fn 0 fn) (nw cause))

/-- R376, R379, R381, R382, R386, R393: at fetch a ring's HEAD advances and the checks refuse in their order or accept; a due descriptor in order is
released, or dropped late; a schedule is held from the first instant that is not past, or refused beyond 256; each firing releases a copy with its
instant; ABORT cancels what it may and tells why it does not. -/
def Obligations.DescriptorsAreCheckedReleasedAndAborted : Prop :=
  let ends (u : State) (tag : Nat) (status detail : Nat) (s' : State) : Prop := tag ∈ s'.hostq.waiting
    ∧ ∃ d e, u.desc tag = some d ∧ s'.desc tag = some e ∧ e.phase = 4 ∧ e.status = status ∧ e.detail = detail ∧ e.cid = d.cid
  ∀ (s u : State) (t : Instant), u = s.start t → u.sealed = true →
    (∀ (fn q : Nat) (b : List Byte) (inner : Option (List Byte)) (fresh : Bool), u.turn = (some (32 * fn + q), fresh) → fn < 2 → q < 32 →
      u.f R.HOSTQ_SQ_CFG_SIZE q fn ≤ 12 →
      let fetched (s' : State) : Prop := s'.f R.HOSTQ_SQ_STAT_HEAD q fn = (u.f R.HOSTQ_SQ_STAT_HEAD q fn + 1) % 2 ^ u.f R.HOSTQ_SQ_CFG_SIZE q fn
      let refused (status detail : Nat) (s' : State) : Prop := fetched s' ∧ u.freeTag 0 ∈ s'.hostq.waiting ∧ ∃ e, s'.desc (u.freeTag 0) = some e
        ∧ e.phase = 4 ∧ e.status = status ∧ e.detail = detail ∧ e.fn = fn ∧ e.sq = q ∧ e.cid = leAt b 2 2
      (leAt b 0 1 = 0 ∨ 0xB < leAt b 0 1 → Runs (.descriptorFetch t fn q b inner) s (refused 0x10 0))
      ∧ (0 < leAt b 0 1 → leAt b 0 1 ≤ 0xB → 32 * fn + q ∈ u.hostq.refusing → Runs (.descriptorFetch t fn q b inner) s (refused 0x15 0))
      ∧ (∀ st detail, u.fetchRefusal fn q (u.f R.HOSTQ_SQ_STAT_DOMAIN q fn) b inner = some (st, detail) →
          Runs (.descriptorFetch t fn q b inner) s (refused st detail))
      ∧ (u.fetchRefusal fn q (u.f R.HOSTQ_SQ_STAT_DOMAIN q fn) b inner = none → Runs (.descriptorFetch t fn q b inner) s fun s' =>
          fetched s' ∧ s'.sys = u.sys ∧ ∃ e, s'.desc (u.freeTag 0) = some e ∧ e.phase = 0 ∧ e.op = leAt b 0 1 ∧ e.cid = leAt b 2 2 ∧ e.fn = fn
            ∧ e.sq = q ∧ e.dom = u.f R.HOSTQ_SQ_STAT_DOMAIN q fn
            ∧ e.apply = (if (leAt b 1 1).testBit 2 then some (shortToNtime (BitVec.ofNat 32 (leAt b 4 4)) u.ntime) else none)
            ∧ e.late = e.apply.any (fun a => ntLe a u.ntime) ∧ e.target = leAt b 8 2 ∧ e.count = leAt b 10 2 ∧ e.body = b.drop 16))
    ∧ (∀ (tag : Nat) (d : HDesc), u.desc tag = some d → d.parent = none → d.dead = false → d.phase = 0 →
      d.apply = none ∨ d.late = true ∨ (∃ a, d.apply = some a ∧ ntLe (a - 1000000) u.ntime = true) → u.inOrder d = true →
      (d.late = false ∨ d.flags.testBit 3 = false ∨ d.op ≠ 1 ∧ d.op ≠ 2 → Runs (.descriptorRelease t tag) s fun s' =>
        s'.desc tag = some { d with phase := 1 } ∧ s'.regs = u.regs ∧ s'.sys = u.sys)
      ∧ (d.late = true → d.flags.testBit 3 = true → d.op = 1 ∨ d.op = 2 → Runs (.descriptorRelease t tag) s (ends u tag 0x1E 0)))
    ∧ (∀ (tag : Nat) (d : HDesc), u.desc tag = some d → d.parent = none → d.dead = false → d.late = false → d.phase = 1 → d.op = 3 →
      (256 ≤ u.f R.HOSTQ_STAT_SCHEDULES → Runs (.schedule t tag) s (ends u tag 0x1D 0))
      ∧ (u.f R.HOSTQ_STAT_SCHEDULES < 256 → Runs (.schedule t tag) s fun s' => s'.f R.HOSTQ_STAT_SCHEDULES = u.f R.HOSTQ_STAT_SCHEDULES + 1
        ∧ ∃ m, s'.desc tag = some { d with phase := 2, held := true, nextM := m } ∧ (d.period = 0 → m = 0)
          ∧ (d.period ≠ 0 → ntSub u.ntime d.start ≤ m * d.period ∧ ∀ n : Nat, n < m → n * d.period < ntSub u.ntime d.start)))
    ∧ (∀ (tag : Nat) (d : HDesc), u.desc tag = some d → d.held = true → d.phase = 2 → d.count = 0 ∨ d.fired < d.count →
      ntLe (ntWrap (d.start + d.nextM * d.period) - 1000000) u.ntime = true → u.desc (u.freeTag 1024) = none → Runs (.scheduleFiring t tag) s fun s' =>
        s'.desc tag = some { d with nextM := d.nextM + 1, fired := d.fired + 1 }
          ∧ ∃ e, s'.desc (u.freeTag 1024) = some e ∧ e.parent = some tag ∧ e.phase = 1 ∧ e.apply = some (ntWrap (d.start + d.nextM * d.period))
            ∧ e.late = ntLt (ntWrap (d.start + d.nextM * d.period)) u.ntime ∧ e.op = leAt d.inner 0 1 ∧ e.body = d.inner.drop 16)
    ∧ ∀ (tag : Nat) (d : HDesc), u.desc tag = some d → d.parent = none → d.dead = false → d.late = false → d.phase = 1 → d.op = 4 →
      let sq := d.num 16 1
      let named (x : Nat × HDesc) : Bool := x.2.fn == d.fn && x.2.sq == sq && x.2.cid == d.num 18 2 && x.2.parent.isNone && !x.2.dead
      (∀ (g : Nat) (e : HDesc), u.hostq.descs.find? named = some (g, e) → u.desc g = some e →
        (e.dom ≠ d.dom → Runs (.abort t tag) s (ends u tag 0x1A 0))
        ∧ (e.dom = d.dom → e.phase = 4 → Runs (.abort t tag) s (ends u tag 2 0))
        ∧ (e.dom = d.dom → e.phase ≠ 4 → e.cancellable = false → Runs (.abort t tag) s (ends u tag 0x1B 0))
        ∧ (e.dom = d.dom → e.phase ≠ 4 → e.cancellable = true → Runs (.abort t tag) s fun s' => ends u tag 0 0 s' ∧ ends u g 3 0 s'))
      ∧ (u.hostq.descs.find? named = none → ∀ status,
        status = (if u.f R.HOSTQ_SQ_STAT_DOMAIN sq d.fn = d.dom ∧ d.num 18 2 ∈ kget [] u.hostq.done (32 * d.fn + sq) then 2 else 0x1A) →
        Runs (.abort t tag) s (ends u tag status 0))

/-- R304, R385, R387 to R390, R392: a handler ends a descriptor with the status of the first thing that is wrong (a context that is stopped or falls
back, no session, unreadable data, a buffer too small, a field, no room, a running migration), else items go to their kernels, records to host memory
with their counts, a migration begins, and a heartbeat answers NTIME. -/
def Obligations.HandlersAnswerDescriptors : Prop :=
  let ends (tag : Nat) (d : HDesc) (status detail : Nat) (i0 : Word) (i1 : BitVec 64) (s' : State) : Prop := tag ∈ s'.hostq.waiting
    ∧ ∃ e, s'.desc tag = some e ∧ e.phase = 4 ∧ e.status = status ∧ e.detail = detail ∧ e.cid = d.cid ∧ e.info0 = i0 ∧ e.info1 = i1
  ∀ (s u : State) (t : Instant) (tag : Nat) (d : HDesc), u = s.start t → u.sealed = true → u.desc tag = some d → d.parent = none → d.dead = false →
    d.late = false →
    let stopped : Prop := u.ctxState d.target = stStopped ∨ u.ctxState d.target = stFaulted
    let agent (x : CtxSt) (ws : List (Nat × Word)) : State := (u.setDesc tag { d with phase := 2 }).sendItem hostqPort
      (toKernel x.desc.agentPod x.desc.agentK) 1 tag d.dom ([(ntBits (d.apply.getD 0)).setWidth 32, (ntBits (d.apply.getD 0) >>> 32).setWidth 32,
        nw (b2n (d.op == 1) + 2 * b2n d.apply.isSome)] ++ ws.flatMap fun w => [nw w.1, w.2])
    (d.phase = 1 → d.op = 1 → ∀ ws, ws = ((List.range d.count).map fun i => (d.num (16 + 6 * i) 2, nw (d.num (18 + 6 * i) 4))) →
      (stopped → Runs (.setpoint t tag) s (ends tag d 0x18 0 0 0))
      ∧ (¬ stopped → (u.ctx d.target).fallback ≠ 0 → (u.ctx d.target).writesSetpoint ws = true → Runs (.setpoint t tag) s (ends tag d 0x19 0 0 0))
      ∧ (¬ stopped → (u.ctx d.target).fallback = 0 → Runs (.setpoint t tag) s fun s' => s' = agent (u.ctx d.target) ws))
    ∧ (d.phase = 1 → d.op = 2 → ∀ (ws : List (Nat × Word)) (logOk : Bool),
      (d.num 24 1 < 2 → Runs (.paramTxn t tag none logOk) s (ends tag d 0x22 0 0 0))
      ∧ (d.num 24 1 = 0 → stopped → Runs (.paramTxn t tag (some ws) logOk) s (ends tag d 0x18 0 0 0))
      ∧ (d.num 24 1 = 0 → ¬ stopped → (u.ctx d.target).fallback = 0 →
          Runs (.paramTxn t tag (some ws) logOk) s fun s' => s' = agent (u.ctx d.target) (ws.take d.count))
      ∧ (d.num 24 1 = 1 ∨ d.num 24 1 = 2 → ¬ (u.sessionOpen d.fn = true ∧ u.domainOf d.fn = domSaf) → u.room →
          Runs (.paramTxn t tag (some ws) logOk) s fun s' => ends tag d 0x17 1 0 0 s' ∧ Reports u s' E.PSET_REFUSED 0 (nw 1) ∧ s'.safe = u.safe))
    ∧ (d.phase = 1 → d.op = 5 →
      let running := (u.hostq.descs.filter fun x => x.2.op == 5 && x.2.phase == 2 && x.2.fn == d.fn).length
      (16 ≤ running → Runs (.telemStream t tag) s (ends tag d 0x1D 0 0 0))
      ∧ (running < 16 → Runs (.telemStream t tag) s fun s' =>
          (∀ k, u.telemAgent = some k → s' = (u.setDesc tag { d with
              phase := 2, nextAt := if d.apply.any (fun a => !ntLt a u.ntime) then d.apply.getD 0 else u.ntime }).sendItem hostqPort
                (toKernel (k / 16) (k % 16)) 1 tag d.dom (bytesToWords d.body))
          ∧ s'.desc tag = some { d with phase := 2, nextAt := if d.apply.any (fun a => !ntLt a u.ntime) then d.apply.getD 0 else u.ntime } ∧ s'.regs = u.regs))
    ∧ (d.phase = 2 → d.op = 5 → u.busOpen d.fn = true → ntLe d.nextAt u.ntime = true →
      (∀ data, Runs (.telemetrySample t tag data false) s (ends tag d 0x22 0 (nw d.recs) (BitVec.ofNat 64 d.bytes)))
      ∧ (∀ (time : Int) (stale : Bool) (ws : List Word) (r : List Byte), d.count = 1 → d.num 40 4 = 0 →
        r = recordOf time d.target d.recs (stale || !u.itemFed (kget {} u.hostq.items d.target)) (u.recordBytes (kget {} u.hostq.items d.target) ws) → d.bytes % d.num 24 4 + r.length ≤ d.num 24 4 →
        Runs (.telemetrySample t tag [(time, stale, ws)] true) s fun s' =>
          s'.desc tag = some { d with nextAt := d.nextAt + d.num 28 4 * 1000, bytes := d.bytes + r.length, recs := d.recs + 1 }
            ∧ s'.out = [.dmaWrite d.fn (d.num 16 8 + d.bytes % d.num 24 4) r, .dmaWrite d.fn (d.num 32 8) (leBytes 8 (d.bytes + r.length))]))
    ∧ (d.phase = 1 → d.op = 6 → u.busOpen d.fn = true → ∀ (data : List (Int × Bool × List Word)) (bytes : List Byte),
      bytes = (((List.range d.count).zip data).flatMap fun x =>
        recordOf x.2.1 (d.target + x.1) x.1 (x.2.2.1 || !u.itemFed (kget {} u.hostq.items (d.target + x.1))) (u.recordBytes (kget {} u.hostq.items (d.target + x.1)) x.2.2.2)) →
      (d.num 24 4 < bytes.length → Runs (.statsRead t tag data true) s (ends tag d 0x11 24 0 0))
      ∧ (bytes.length ≤ d.num 24 4 → Runs (.statsRead t tag data false) s (ends tag d 0x22 0 0 0))
      ∧ (bytes.length ≤ d.num 24 4 → Runs (.statsRead t tag data true) s fun s' =>
          ends tag d 0 0 (nw bytes.length) 0 s' ∧ s'.out = [.dmaWrite d.fn (d.num 16 8) bytes]))
    ∧ (d.phase = 1 → d.op = 7 → d.target = 0 → u.busOpen d.fn = true → ∀ got : List LogEntry,
      got = ((u.sys.log.filter fun e => decide (d.num 24 8 ≤ e.seq) && u.mayReadEvent d.dom e).take d.count) →
      (Runs (.logFetch t tag true) s fun s' => s'.out = (if got = [] then [] else [.dmaWrite d.fn (d.num 16 8) (got.flatMap LogEntry.bytes)])
        ∧ s'.sys = u.sys ∧ tag ∈ s'.hostq.waiting ∧ ∃ e, s'.desc tag = some e ∧ e.phase = 4 ∧ e.status = 0 ∧ e.info0 = nw got.length)
      ∧ Runs (.logFetch t tag false) s (ends tag d 0x22 0 0 0))
    ∧ (d.phase = 1 → d.op = 8 →
      (∀ o data, u.canBadField d = some o → Runs (.canTx t tag data) s (ends tag d 0x11 o 0 0))
      ∧ (u.canBadField d = none → 32 < d.count → Runs (.canTx t tag none) s (ends tag d 0x22 0 0 0))
      ∧ (∀ b, u.canBadField d = none → Runs (.canTx t tag (some b)) s fun s' =>
          s'.desc tag = some { d with phase := 2 } ∧ s'.regs = u.regs ∧ s'.sys = u.sys
            ∧ s' = (u.setDesc tag { d with phase := 2 }).sendItem hostqPort (toKernel (u.f R.CAN_OBJ_CFG_ROUTER d.target) (u.f R.CAN_OBJ_CFG_LK d.target)) 1
              tag d.dom ([nw d.target, nw (d.count + 256 * d.num 20 1 + 65536 * b2n d.apply.isSome), nw (d.num 16 4),
                  (ntBits (d.apply.getD 0)).setWidth 32, (ntBits (d.apply.getD 0) >>> 32).setWidth 32]
                ++ bytesToWords (if d.count ≤ 32 then (d.body.drop 16).take d.count else b.take d.count))))
    ∧ (d.phase = 1 → d.op = 9 → Runs (.netTx t tag none) s (ends tag d 0x22 0 0 0)
      ∧ ∀ b, Runs (.netTx t tag (some b)) s fun s' => s'.desc tag = some { d with phase := 2 } ∧ s'.regs = u.regs ∧ s'.sys = u.sys
          ∧ s' = (u.setDesc tag { d with phase := 2 }).sendItem hostqPort (toKernel (u.f R.NET_LQ_CFG_ROUTER d.target) (u.f R.NET_LQ_CFG_LK d.target)) 1
            tag d.dom ([nw d.target, nw (d.count + 65536 * b2n (d.flags.testBit 3)), (BitVec.ofNat 64 (d.num 24 8)).setWidth 32,
                (BitVec.ofNat 64 (d.num 24 8) >>> 32).setWidth 32] ++ bytesToWords (b.take d.count)))
    ∧ (d.phase = 1 → d.op = 0xA →
      (u.migWanted d.target (d.num 16 1) (d.num 18 2) = none → Runs (.migrate t tag) s (ends tag d 0x11 16 0 0))
      ∧ ∀ m, u.migWanted d.target (d.num 16 1) (d.num 18 2) = some m →
        (u.loop.mig ≠ none → Runs (.migrate t tag) s (ends tag d 0x1C 0 0 0))
        ∧ (u.loop.mig = none → u.migFit m = false → Runs (.migrate t tag) s (ends tag d 0x11 18 0 0))
        ∧ (u.migFit m = true → u.loop.mig = none → stopped → Runs (.migrate t tag) s (ends tag d 0x18 0 0 0))
        ∧ (u.migFit m = true → u.loop.mig = none → ¬ stopped → u.room → Runs (.migrate t tag) s fun s' =>
          s'.loop.mig = some { m with tag := some tag } ∧ s'.f R.LOOP_MIG_STAT_PHASE = 1 ∧ s'.desc tag = some { d with phase := 2 }
            ∧ Reports u s' E.MIG_START (subject m.ctx)))
    ∧ (d.phase = 1 → d.op = 0xB → d.fn < 2 → Runs (.heartbeat t tag) s fun s' =>
      kget 0 s'.hostq.lastHb d.fn = u.now ∧ s'.hostLost d.fn = false
        ∧ ∃ e, s'.desc tag = some e ∧ e.phase = 4 ∧ e.status = 0 ∧ e.info1 = ntBits u.ntime)

/-- R401 to R403, R417 to R420, R422, R423, R425: a link comes up at the speed its mode allows and goes down with its queued frames; a due frame at
the head of the lowest due queue goes on the wire; past its deadline it is dropped or marked late; an idle port sends the time engine's, then MKA
frames first; a bad frame is counted and dropped, a matching one is handed to its kernel; an item joins its queue; and the wake slot is fixed and
reached. -/
def Obligations.FramesLaunchAndLinksChange : Prop :=
  ∀ (s u : State) (t : Instant), u = s.start t → u.sealed = true →
    (∀ p speed : Nat, p < 2 → speed < 4 → u.b R.NET_CTL_EN = true → u.b R.NET_PORT_CFG_EN p = true → u.b R.NET_PORT_STAT_LINK p = false → u.room →
      Runs (.linkUp t p speed) s fun s' => s'.b R.NET_PORT_STAT_LINK p = true ∧ Posts u s' E.LINK_UP (subject p)
        ∧ s'.f R.NET_PORT_STAT_SPEED p = if u.f R.NET_PORT_CFG_MODE p = 0 then min speed 2 else if u.f R.NET_PORT_CFG_MODE p = 1 then 2 else 3)
    ∧ (∀ p : Nat, p < 2 → u.b R.NET_PORT_STAT_LINK p = true → u.room → Runs (.linkDown t p) s fun s' =>
      s'.b R.NET_PORT_STAT_LINK p = false ∧ (∀ q, q / 8 = p → s'.lqOf q = []) ∧ (s'.port p).ptpOut = [] ∧ (s'.port p).mkaOut = []
        ∧ (s'.port p).best = [] ∧ (s'.port p).busy = none ∧ Posts u s' E.LINK_DOWN (subject p))
    ∧ (∀ (q : Nat) (f : NetFrame) (fs : List NetFrame), q < 16 → u.lqOf q = f :: fs → u.b R.NET_LQ_CFG_EN q = true → u.portUp (q / 8) = true →
      u.portFast (q / 8) = true → u.maySend (q / 8) 0 = true → (u.port (q / 8)).busy = none →
      f.late = true ∨ ntLe f.launch u.ntime = true ∧ ntLe u.ntime (f.launch + u.f R.NET_LQ_CFG_LATE_TOL q * 8) = true → (∀ r, r / 8 = q / 8 → r < q → u.lqDue r = false) →
      Runs (.launch t q) s fun s' => s'.lqOf q = fs ∧ (s'.port (q / 8)).busy = some (0, 0, u.now + u.frameTime (q / 8) f.bytes.length)
        ∧ .ethFrame (q / 8) 0 f.bytes ∈ s'.out
        ∧ (f.late = false → s'.f R.NET_LQ_STAT_LATE_CNT q = u.f R.NET_LQ_STAT_LATE_CNT q)
        ∧ (f.late = true → s'.b R.NET_LQ_STAT_LATE_SEEN q = true))
    ∧ (∀ q : Nat, q < 16 →
      let past (f : NetFrame) : Bool := !f.late && ntLt (f.launch + u.f R.NET_LQ_CFG_LATE_TOL q * 8) u.ntime
      Runs (.launchDeadline t q) s fun s' =>
        s'.lqOf q = ((u.lqOf q).filter fun f => !(past f && f.lateDrop)).map (fun f => if past f then { f with late := true } else f)
          ∧ ((∃ f ∈ u.lqOf q, past f = true ∧ f.lateDrop = true) → s'.b R.NET_LQ_STAT_DROP_SEEN q = true))
    ∧ (∀ p cls kind : Nat, ∀ till : Instant, p < 2 → (u.port p).busy = some (cls, kind, till) → till ≤ u.now → (cls = 1 → kind ≠ 0 ∧ kind ≠ 6) →
      ((u.port p).ptpOut = [] → (u.port p).mkaOut = [] → (u.port p).best = [] → Runs (.frameTransmitEnd t p) s fun s' =>
        (s'.port p).busy = none ∧ s'.out = [])
      ∧ (∀ k ks, (u.port p).ptpOut = k :: ks → u.ptpOn p = true → u.maySend p 1 = true → u.launchNear p (u.frameTime p (u.ptpLen k)) = false →
        Runs (.frameTransmitEnd t p) s fun s' => (s'.port p).busy = some (1, k, u.now + u.frameTime p (u.ptpLen k)) ∧ (s'.port p).ptpOut = ks
          ∧ (s'.port p).mkaOut = (u.port p).mkaOut)
      ∧ (∀ m ms, (u.port p).ptpOut = [] → (u.port p).mkaOut = m :: ms → u.portUp p = true → u.launchNear p (u.frameTime p m.length) = false →
        Runs (.frameTransmitEnd t p) s fun s' => (s'.port p).busy = some (2, 0, u.now + u.frameTime p m.length) ∧ (s'.port p).mkaOut = ms
          ∧ (s'.port p).best = (u.port p).best ∧ s'.out = [.ethFrame p 2 m]))
    ∧ (∀ (p : Nat) (fcsOk : Bool) (sec : Option SecTag) (time : Int) (bytes : List Byte), u.portUp p = true →
      let dropped (s' : State) : Prop := s'.f R.NET_PORT_CNT_RX_DROP p = min (u.f R.NET_PORT_CNT_RX_DROP p + 1) (2 ^ 16 - 1)
        ∧ s'.b R.NET_PORT_STAT_RX_DROP_SEEN p = true ∧ s'.net = u.net ∧ s'.out = []
      let kernel (k : Nat) : Nat := 16 * u.f R.NET_RXF_DST_ROUTER k + u.f R.NET_RXF_DST_LK k
      (fcsOk = false ∨ bytes.length < 60 ∨ 1518 < bytes.length → Runs (.frameReceive t p fcsOk sec time bytes) s dropped)
      ∧ (fcsOk = true → 60 ≤ bytes.length → bytes.length ≤ 1518 → isTag (frameType bytes) = false → frameType bytes ≠ 0x888E → frameType bytes ≠ 0x8808 →
        ptpStart (u.b R.NET_PTP_CFG_UDP) bytes = none →
        (u.b R.NET_PORT_CFG_MSEC p = true →
          (∃ g, sec = some g ∧ (g.icv = false ∨ g.pn + u.f R.NET_PORT_CFG_REPLAY_WIN p < kget 0 (u.port p).rxPn (4 * g.sc + g.an)))
            ∨ sec = none ∧ u.f R.NET_PORT_CFG_VALIDATE p ≠ 1 →
          Runs (.frameReceive t p fcsOk sec time bytes) s fun s' =>
            s'.f R.NET_PORT_CNT_MSEC_BAD p = min (u.f R.NET_PORT_CNT_MSEC_BAD p + 1) (2 ^ 16 - 1) ∧ s'.b R.NET_PORT_STAT_MSEC_BAD_SEEN p = true
              ∧ s'.net = u.net ∧ s'.out = [])
        ∧ (∀ k, u.b R.NET_PORT_CFG_MSEC p = false → u.rxFilter p (frameType bytes) (frameVid bytes) = some k →
          Runs (.frameReceive t p fcsOk sec time bytes) s fun s' =>
            s'.net = { u.net with tag := (u.net.tag + 1) % 65536 } ∧ s'.regs = u.regs
              ∧ s' = ({ u with net := { u.net with tag := (u.net.tag + 1) % 65536 } }).frameItem (kernel k) u.net.tag 0 p (16 + p) 0
                bytes.length time 0 bytes)
        ∧ (∀ (k : Nat) (g : SecTag), u.b R.NET_PORT_CFG_MSEC p = true → sec = some g → g.icv = true → g.sc < 4 → g.an < 4 → 0 < g.pn → g.pn < 2 ^ 32 →
          kget 0 (u.port p).rxPn (4 * g.sc + g.an) ≤ g.pn + u.f R.NET_PORT_CFG_REPLAY_WIN p →
          u.rxFilter p (frameType bytes) (frameVid bytes) = some k → Runs (.frameReceive t p fcsOk sec time bytes) s fun s' =>
            s'.regs = u.regs ∧ s'.net.tag = (u.net.tag + 1) % 65536
              ∧ kget 0 (s'.port p).rxPn (4 * g.sc + g.an) = max (kget 0 (u.port p).rxPn (4 * g.sc + g.an)) (g.pn + 1))
        ∧ (u.b R.NET_PORT_CFG_MSEC p = false → u.rxFilter p (frameType bytes) (frameVid bytes) = none →
          Runs (.frameReceive t p fcsOk sec time bytes) s dropped)))
    ∧ (∀ (router k tag q len : Nat) (ws : List Word) (f : NetFrame), router < 24 → k < 15 → u.backed (16 * router + k) = true →
      let item : Payload := .svcx { sub := 4, tag := tag, domain := 0, first := 0, last := true, words := ws.take 5 }
      u.mayPass (16 * router + k) { dst := .port 15 0, src := .kernel router k, payload := item } = true →
      q = getBits (ws.getD 0 0) 20 16 → len = getBits (ws.getD 0 0) 10 0 → getBits (ws.getD 0 0) 26 25 = 1 → ws.length = 4 + (len + 3) / 4 →
      let launch : Int := ((ws.getD 2 0) ++ (ws.getD 1 0) : BitVec 64).toInt
      f = { launch := launch, item := tag, src := 16 * router + k, bytes := (wordsBytes (ws.drop 4)).take len } →
      (q < 16 → u.lqRefusal q = none → Runs (.frameItem t router k tag none ws) s fun s' =>
        s'.lqOf q = u.lqOf q ++ [if ntLt f.launch u.ntime then { f with late := true } else f] ∧ ∀ r, r ≠ q → s'.lqOf r = u.lqOf r)
      ∧ (q < 16 → u.lqRefusal q ≠ none → Runs (.frameItem t router k tag none ws) s fun s' => ∀ r, s'.lqOf r = u.lqOf r))
    ∧ (∀ node window limit : Nat, u.net.wakeW = none → u.net.wakeCfg = some (node, window, limit) → u.net.porstAt + limit * secQ ≤ u.now → u.room →
      Runs (.wakeSyncTimeout t) s fun s' =>
        let w : Int := ((limit * 1000000000 + node * 0x9E3779B1 % 2 ^ 32 / 65536 * window * 1000000000 / 65536 : Nat) : Int)
        s'.net = { u.net with wakeW := some w } ∧ s'.b R.NET_WAKE_STAT_SYNCED = false ∧ Reports u s' E.WAKE_SLOT 0 (satWord w))
    ∧ (∀ w : Int, u.net.wakeW = some w → u.b R.NET_WAKE_STAT_DONE = false → ntLe w u.ntime = true → Runs (.wakeInstant t) s fun s' =>
      s'.b R.NET_WAKE_STAT_DONE = true ∧ (u.b R.PWR_TOK_CFG_WAKE_EN = true → s'.b R.PWR_TOK_STAT_OPEN = true))

/-- R405, R406, R409 to R413: a Sync gives θ, the servo's correction within its clamp, and the lock after 16 within LOCK_THR or a step after four of 1
µs; an Announce and its timeout bring the outcome of the best master clock algorithm; a missed Sync ends in HOLDOVER; a delay measurement is the mean
of both ways; a message waits for the port or starts; a step moves TOFS and inverts the parity, in time or forced; SET asks for one. -/
def Obligations.TimeEngineFollowsItsMaster : Prop :=
  ∀ (s u : State) (t : Instant), u = s.start t → u.sealed = true →
    (∀ (p : Nat) (origin raw th : Rat), u.ptpOn p = true → u.ps p = 6 →
      th = u.ingress p raw - origin - (u.port p).delay - u.asym p →
      let lo : Rat := u.net.fh - (u.f R.NET_SERVO_LIM_SLEW : Rat)
      let hi : Rat := u.net.fh + (u.f R.NET_SERVO_LIM_SLEW : Rat)
      let want : Rat := u.net.fh - ((u.f R.NET_SERVO_KP : Rat) / 256 * th + u.net.integ)
      let ki : Rat := (u.f R.NET_SERVO_KI : Rat) / 4096
      (u.timeState ≠ 0 → u.timeState ≠ 3 → Runs (.ptpSync t p origin raw) s fun s' => (s'.port p).syncAt = u.now
        ∧ s'.f R.NET_OFFSET_OFFSET = (satWord (roundHalf th)).toNat
        ∧ s'.net.f = (if want < lo then lo else if hi < want then hi else want)
        ∧ (u.timeState = 2 → s'.net.freqs = (s'.net.f :: u.net.freqs).take 64
            ∧ s'.net.fh = s'.net.freqs.foldl (· + ·) 0 / (s'.net.freqs.length : Rat))
        ∧ (u.timeState ≠ 2 → s'.net.fh = u.net.fh)
        ∧ (-1000 < th → th < 1000 → (u.net.step = none → s'.net.run = 0) ∧ s'.net.step = u.net.step
            ∧ (lo ≤ want → want ≤ hi → s'.net.integ = u.net.integ + ki * th) ∧ (want < lo ∨ hi < want → s'.net.integ = u.net.integ)))
      ∧ (u.timeState = 0 ∨ u.timeState = 3 → Runs (.ptpSync t p origin raw) s fun s' => s'.timeState = 1)
      ∧ (u.timeState = 1 → u.net.lockRun = 15 → th ≤ u.f R.NET_SERVO_LIM_LOCK_THR → -(u.f R.NET_SERVO_LIM_LOCK_THR : Rat) ≤ th →
        Runs (.ptpSync t p origin raw) s fun s' => s'.timeState = 2)
      ∧ (u.timeState = 1 ∨ u.timeState = 2 → u.net.step = none → u.net.run = 3 → 1000 ≤ th → Runs (.ptpSync t p origin raw) s fun s' =>
        s'.net.step = some (-(roundHalf th), u.now) ∧ s'.net.integ = 0 ∧ s'.net.run = 0 ∧ (u.timeState = 2 → s'.timeState = 1)))
    ∧ (∀ (p : Nat) (a : Announce), u.ptpOn p = true →
      let decided (w : State) (forced : Option Nat) (s' : State) : Prop := (s'.port p).annAt = u.now
        ∧ (∀ q < 2, s'.ps q = w.psFit q (w.recommended q (forced == some q)))
        ∧ (s'.b R.NET_STAT_GM = true ↔ s'.ps 0 ≠ 6 ∧ s'.ps 1 ≠ 6 ∧ (s'.ps 0 = 3 ∨ s'.ps 1 = 3))
        ∧ (u.room → s'.net.parent ≠ u.net.parent → Posts u s' E.PARENT_CHANGED)
        ∧ (s'.ps 0 = 6 ∨ s'.ps 1 = 6 →
          (∀ (q : Nat) (e : Announce), w.eBest = some (q, e) → s'.net.parent = some (e.src, e.srcPort) ∧ s'.net.gmId = some e.gm
            ∧ s'.f R.NET_STAT_STEPS_REMOVED = min (e.steps + 1) 255)
          ∧ (u.timeState = 2 → s'.timeState = if u.net.gmId ≠ none ∧ u.net.gmId ≠ s'.net.gmId then 1 else 2))
      (a.src ≠ u.clockId → a.steps < 255 → Runs (.ptpAnnounce t p a) s fun s' => decided (u.keepAnnounce p a) none s'
        ∧ ∃ before, (a, u.now, before) ∈ (s'.port p).foreign)
      ∧ (u.ps p = 6 ∨ u.ps p = 5 ∨ u.ps p = 4 ∨ u.ps p = 1 →
        (u.port p).annAt + u.f R.NET_PTP_CFG_ANN_TO * logInterval (u.f R.NET_PTP_CFG_LOG_ANN) ≤ u.now → Runs (.announceTimeout t p) s fun s' =>
          decided (u.setPort p { u.port p with annAt := u.now, foreign := [] }) (some p) s' ∧ (s'.port p).foreign = []))
    ∧ (∀ p : Nat, u.ptpOn p = true → u.ps p = 6 → u.timeState = 2 →
      (u.port p).syncAt + 3 * logInterval (u.f R.NET_PTP_CFG_LOG_SYNC) ≤ u.now → u.room → Runs (.syncLoss t p) s fun s' =>
        s'.timeState = 3 ∧ Posts u s' E.TIME_STATE (subject 3) ∧ s'.net.f = u.net.fh ∧ s'.net.fh = u.net.fh)
    ∧ (∀ (p : Nat) (t1 t2 t3 t4 : Rat), u.ptpOn p = true →
      let delay (d : Rat) (s' : State) : Prop := (s'.port p).delay = d ∧ s'.f R.NET_PORT_DELAY_DELAY p = min (roundHalf (d * 8)).toNat (2 ^ 32 - 1)
      (u.b R.NET_PTP_CFG_P2P = false → u.ps p = 6 → Runs (.ptpDelay t p t1 t2 t3 t4) s
        (delay (((u.ingress p t2 - t1) + (t4 - u.egress p t3)) / 2)))
      ∧ (u.b R.NET_PTP_CFG_P2P = true → Runs (.ptpDelay t p t1 t2 t3 t4) s (delay (((t2 - u.egress p t1) + (u.ingress p t4 - t3)) / 2))))
    ∧ (∀ p kind : Nat, u.ptpOn p = true → kind = 0 ∨ kind = 1 → u.ps p = 3 →
      kget 0 (u.port p).sentAt kind = 0 ∨ kget 0 (u.port p).sentAt kind
        + logInterval (if kind = 0 then u.f R.NET_PTP_CFG_LOG_SYNC else u.f R.NET_PTP_CFG_LOG_ANN) ≤ u.now + 1 →
      ((u.port p).busy ≠ none → Runs (.ptpMessageInterval t p kind) s fun s' => (s'.port p).ptpOut = (u.port p).ptpOut ++ [kind]
        ∧ kget 0 (s'.port p).sentAt kind = u.now + 1 ∧ s'.out = [])
      ∧ ((u.port p).busy = none → (u.port p).ptpOut = [] → u.maySend p 1 = true → u.launchNear p (u.frameTime p (u.ptpLen kind)) = false →
        Runs (.ptpMessageInterval t p kind) s fun s' => (s'.port p).busy = some (1, kind, u.now + u.frameTime p (u.ptpLen kind))
          ∧ (s'.port p).ptpOut = []))
    ∧ (∀ (d : Int) (at_ : Instant), u.net.step = some (d, at_) →
      let stepped (s' : State) : Prop := s'.net.tofs = (u.net.tofs + d).bmod (2 ^ 64) ∧ s'.net.parity = !u.net.parity ∧ s'.net.step = none
        ∧ s'.f R.NET_STEP_STAT_STEPS = min (u.f R.NET_STEP_STAT_STEPS + 1) (2 ^ 16 - 1)
      (at_ + 10 * usQ ≤ u.now → u.quiet = true → u.carrierNear = false → u.ntevNear = false → u.launchSoon = false → u.room →
        Runs (.stepApplied t) s fun s' => stepped s' ∧ ∃ x, s'.sys.queue = u.sys.queue ++ [x] ∧ x.evt.cls = E.STEP_APPLIED.1.code
          ∧ x.evt.code = E.STEP_APPLIED.2 ∧ x.evt.w0 = satWord d)
      ∧ (at_ + 100 * msQ ≤ u.now → Runs (.stepForced t) s fun s' => stepped s' ∧ s'.b R.NET_STEP_STAT_FORCED = true))
    ∧ ∀ (w : State) (fn : Nat) (data : Word), u.actionWrite fn R.NET_TIME_CMD_SET data = (w, true) →
      (w.timeState = 0 → w.b R.NET_STAT_GM = false → Runs (.set t fn data) s fun s' =>
        s'.net = { w.net with step := some (signed 64 (w.f R.NET_TIME_SET_LO_TIME + w.f R.NET_TIME_SET_HI_TIME * 2 ^ 32) - w.ntime, w.now) }
          ∧ s'.regs = w.regs)
      ∧ (w.timeState ≠ 0 ∨ w.b R.NET_STAT_GM = true → w.room → Runs (.set t fn data) s fun s' => Reports w s' E.TIME_SET_REFUSED ∧ s'.net = w.net)

/-- R427, R431 to R445: a received frame goes to the lowest object that it matches, main buffer first, or is counted; a delivered item frees its
buffer; an item of the server joins its object's queue; arbitration offers the lowest value; an acknowledged frame leaves its queue and lowers TEC; an
error raises its counter by 8 or 1, and the limits lead to ERROR_PASSIVE, BUS_OFF, NO_PEER and ID_COLLISION; RECOVER, its end and the end of a
protocol exception; objects and reference slots enabled or stopped at run time; a reference instant fills the slot or counts a missed message. -/
def Obligations.CanObjectsSendReceiveAndRecover : Prop :=
  ∀ (s u : State) (t : Instant) (n : Nat), u = s.start t → n < 4 →
    (∀ (id recTo : Nat) (xtd fdf brs esi : Bool) (bytes : List Byte) (sof : Int), u.canOn n = true → fdf = false ∨ u.b R.CAN_CFG_FD_EN n = true →
      (u.canCtl n).att = none →
      let len := if fdf = true then 64 else 8
      let f : CanRx := { sof := sof, id := id % (if xtd then 2 ^ 29 else 2 ^ 11), xtd := xtd, fdf := fdf, brs := brs && fdf, esi := esi && fdf
                         bytes := bytes.take len }
      (∀ o : Nat, o / 64 = n → u.canMatch o f = true → (∀ r, r / 64 = n → r < o → u.canMatch r f = false) →
        Runs (.canFrameReceive t n id xtd fdf brs esi false bytes sof recTo) s fun s' =>
          ((u.canObj o).main = none → (s'.canObj o).main = some { f with loss := (u.canObj o).loss } ∧ (s'.canObj o).shadow = (u.canObj o).shadow)
          ∧ ((u.canObj o).main ≠ none → (s'.canObj o).main = (u.canObj o).main ∧ (s'.canObj o).shadow = some f)
          ∧ ((u.canObj o).main ≠ none → (u.canObj o).shadow ≠ none → (s'.canObj o).loss = true ∧ s'.b R.CAN_OBJ_STAT_LOST_SEEN o = true
              ∧ s'.f R.CAN_OBJ_STAT_CNT o = min (u.f R.CAN_OBJ_STAT_CNT o + 1) (2 ^ 16 - 1))
          ∧ (∀ r, r ≠ o → s'.canObj r = u.canObj r)
          ∧ (u.b R.CAN_CFG_LOM n = false → s'.f R.CAN_ERR_TEC n = u.f R.CAN_ERR_TEC n ∧ (u.f R.CAN_ERR_REC n ≤ 127 → s'.f R.CAN_ERR_REC n = u.f R.CAN_ERR_REC n - 1)))
      ∧ ((∀ o, o / 64 = n → u.canMatch o f = false) → Runs (.canFrameReceive t n id xtd fdf brs esi false bytes sof recTo) s fun s' =>
          s'.f R.CAN_CNT_RX_UNMATCHED n = min (u.f R.CAN_CNT_RX_UNMATCHED n + 1) (2 ^ 16 - 1) ∧ s'.b R.CAN_STAT_UNM_SEEN n = true
            ∧ ∀ r, s'.canObj r = u.canObj r))
    ∧ (∀ (o : Nat) (f : CanRx), u.sealed = true → o < 256 → (u.canObj o).main = some f → Runs (.canItemDelivered t o) s fun s' =>
      s'.out = (u.canItem (u.canServer o) u.can.tag o 0 0 f.loss f.fdf f.brs f.esi f.xtd f.sof f.id f.bytes).out ∧ (s'.canObj o).shadow = none
        ∧ (s'.canObj o).main = (u.canObj o).shadow.map (fun g => { g with loss := (u.canObj o).loss }))
    ∧ (∀ (router k tag o : Nat) (ws : List Word) (f : CanFrame), u.sealed = true → router < 24 → k < 15 → u.backed (16 * router + k) = true →
      let item : Payload := .svcx { sub := 4, tag := tag, domain := 0, first := 0, last := true, words := ws.take 5 }
      let apply : Int := ((ws.getD 2 0) ++ (ws.getD 1 0) : BitVec 64).toInt
      u.mayPass (16 * router + k) { dst := .port 15 1, src := .kernel router k, payload := item } = true → o = getBits (ws.getD 0 0) 15 8 →
      f = { apply := apply, late := decide (apply ≠ 0) && ntLt apply u.ntime, item := tag, src := 16 * router + k
            id := getBits (ws.getD 3 0) 28 0, xtd := (ws.getD 0 0).getLsbD 19, fdf := (ws.getD 0 0).getLsbD 16, brs := (ws.getD 0 0).getLsbD 17
            bytes := (wordsBytes (ws.drop 4)).take (getBits (ws.getD 0 0) 6 0) } →
      (u.canItemBad (16 * router + k) o ws = false → u.canRefusal o = none → Runs (.canTxItem t router k tag none ws) s fun s' =>
        (s'.canObj o).queue = (u.canObj o).queue ++ [f] ∧ s'.sys = u.sys)
      ∧ (u.canItemBad (16 * router + k) o ws = true → u.room → Runs (.canTxItem t router k tag none ws) s fun s' =>
        s'.can = u.can ∧ Reports u s' E.CAN_ITEM_BAD (subject (o / 64) o)))
    ∧ (∀ dly : Nat, u.canOn n = true → u.b R.CAN_CFG_LOM n = false → (u.canCtl n).att = none → u.offers n ≠ [] → Runs (.arbitrationStart t n dly) s fun s' =>
      ∃ v o, (v, o) ∈ u.offers n ∧ (∀ x ∈ u.offers n, v ≤ x.1) ∧ (s'.canCtl n).att = some o ∧ (s'.canCtl n).sof = u.ntime + 2 * (min dly 3 : Nat)
        ∧ (o < 256 → ∀ f fs, (u.canObj o).queue = f :: fs → s'.out = [.canFrame n f.id f.xtd f.fdf f.brs (f.fdf && decide (u.canState n = 1)) f.bytes]))
    ∧ (∀ (o tdcv : Nat) (f : CanFrame) (fs : List CanFrame), u.canOn n = true → (u.canCtl n).att = some o → o / 64 = n → (u.canObj o).queue = f :: fs →
      Runs (.canTxDone t n tdcv) s fun s' => (s'.canObj o).queue = fs ∧ (s'.canCtl n).att = none ∧ s'.f R.CAN_ERR_TEC n = u.f R.CAN_ERR_TEC n - 1
        ∧ s'.f R.CAN_OBJ_STAT_COLL_CNT o = 0 ∧ s'.f R.CAN_OBJ_STAT_NOACK_CNT o = 0 ∧ s'.b R.CAN_OBJ_STAT_NO_PEER o = false)
    ∧ (∀ (kind field plus o tdcv : Nat) (exempt : Bool), u.canOn n = true → u.b R.CAN_CFG_LOM n = false → 1 ≤ kind → kind ≤ 6 →
      ((u.canCtl n).att = some o → o / 64 = n → Runs (.canBusError t n kind false true field plus exempt tdcv) s fun s' =>
        let tec := u.f R.CAN_ERR_TEC n + (if exempt then 0 else 8) + 8 * plus
        s'.f R.CAN_ERR_TEC n = min tec 255 ∧ s'.f R.CAN_ERR_REC n = u.f R.CAN_ERR_REC n ∧ s'.f R.CAN_ERR_LEC n = kind ∧ (s'.canCtl n).att = none
          ∧ (255 < tec → s'.canState n = 2 ∧ s'.b R.CAN_STAT_BUSOFF_SEEN n = true ∧ s'.bitF R.CAN_CTL_BUSOFF n = true
              ∧ ∀ r, r / 64 = n → (s'.canObj r).queue = [])
          ∧ (127 < tec → tec ≤ 255 → s'.canState n = 1)
          ∧ (kind = 3 → s'.f R.CAN_OBJ_STAT_NOACK_CNT o = min (u.f R.CAN_OBJ_STAT_NOACK_CNT o + 1) 31
              ∧ (u.f R.CAN_OBJ_CFG_N_NOACK o ≠ 0 → u.f R.CAN_OBJ_CFG_N_NOACK o ≤ u.f R.CAN_OBJ_STAT_NOACK_CNT o + 1 → u.b R.CAN_OBJ_STAT_NO_PEER o = false →
                  s'.b R.CAN_OBJ_STAT_NO_PEER o = true ∧ (s'.canObj o).queue = []))
          ∧ (kind = 4 ∨ kind = 5 → 1 ≤ field → field ≤ 3 → s'.f R.CAN_OBJ_STAT_COLL_CNT o = min (u.f R.CAN_OBJ_STAT_COLL_CNT o + 1) 31
              ∧ (u.f R.CAN_OBJ_CFG_ID_COLL_LIMIT o ≠ 0 → u.f R.CAN_OBJ_CFG_ID_COLL_LIMIT o ≤ u.f R.CAN_OBJ_STAT_COLL_CNT o + 1 →
                  s'.b R.CAN_OBJ_STAT_ID_COLL o = true ∧ (s'.canObj o).queue = [])))
      ∧ ((u.canCtl n).att = none → Runs (.canBusError t n kind false false field plus exempt tdcv) s fun s' =>
        s'.f R.CAN_ERR_REC n = min (u.f R.CAN_ERR_REC n + (if exempt then 0 else 1) + 8 * plus) 255 ∧ s'.f R.CAN_ERR_TEC n = u.f R.CAN_ERR_TEC n
          ∧ s'.f R.CAN_ERR_LEC n = kind)
      ∧ (u.b R.CAN_CFG_PXE n = true → Runs (.canBusError t n 7 false false field plus exempt tdcv) s fun s' =>
        s'.b R.CAN_STAT_PX n = true ∧ s'.b R.CAN_STAT_PX_SEEN n = true ∧ s'.word .can (R.CAN_ERR_TEC.key n 0) = u.word .can (R.CAN_ERR_TEC.key n 0)))
    ∧ (∀ (w : State) (fn : Nat) (data : Word), u.actionWrite fn R.CAN_CMD_RECOVER data n = (w, true) →
      (w.canState n = 2 → Runs (.recover t n fn data) s fun s' => s'.canState n = 3 ∧ s'.bitF R.CAN_CTL_BUSOFF n = false ∧ s'.sys = w.sys)
      ∧ (w.canState n ≠ 2 → w.room → Runs (.recover t n fn data) s fun s' => s'.regs = w.regs ∧ Reports w s' E.RECOVER_REFUSED (subject n)))
    ∧ (u.canEn n = true → u.canState n = 3 → u.room → Runs (.recovered t n) s fun s' => s'.canState n = 0 ∧ s'.f R.CAN_ERR_TEC n = 0
      ∧ s'.f R.CAN_ERR_REC n = 0 ∧ Reports u s' E.RECOVERED (subject n))
    ∧ (u.canEn n = true → u.b R.CAN_STAT_PX n = true ∨ (u.canCtl n).onBus = false → Runs (.protocolExceptionEnd t n) s fun s' =>
      s'.b R.CAN_STAT_PX n = false ∧ (s'.canCtl n).onBus = true ∧ s'.sys = u.sys)
    ∧ (∀ (o fn : Nat) (data : Word) (w : State) (h : RegHit) (fs : List FieldDef), o < 256 →
      u.writeAt fn .can (R.CAN_OBJ_CFG_EN.off o 0) data = (w, some (h, fs)) → (∃ fd ∈ fs, fd.hi = 31) →
      (data.getLsbD 31 = true → Runs (.canObjectEnable t o fn data) s fun s' => s'.b R.CAN_OBJ_CFG_EN o = true ∧ s'.b R.CAN_OBJ_STAT_ID_COLL o = false
        ∧ s'.b R.CAN_OBJ_STAT_NO_PEER o = false ∧ s'.f R.CAN_OBJ_STAT_COLL_CNT o = 0 ∧ s'.f R.CAN_OBJ_STAT_NOACK_CNT o = 0 ∧ s'.can = w.can)
      ∧ (data.getLsbD 31 = false → Runs (.canObjectEnable t o fn data) s fun s' => s'.b R.CAN_OBJ_CFG_EN o = false
        ∧ (s'.canObj o).queue = if (w.canCtl (o / 64)).att = some o then (w.canObj o).queue.take 1 else []))
    ∧ (∀ (fn : Nat) (data : Word) (w : State) (h : RegHit) (fs : List FieldDef),
      u.writeAt fn .can (R.CAN_REF_CFG_REF_EN.off n 0) data = (w, some (h, fs)) → (∃ fd ∈ fs, fd.hi = 31) →
      (data.getLsbD 31 = true → Runs (.refEn t n fn data) s fun s' => s'.b R.CAN_REF_CFG_REF_EN n = true ∧ s'.b R.CAN_REF_CFG_REF_RUN n = true
        ∧ (w.b R.CAN_REF_CFG_REF_RUN n = false → (s'.canCtl n).refColl = 0))
      ∧ (data.getLsbD 31 = false → Runs (.refEn t n fn data) s fun s' => s'.b R.CAN_REF_CFG_REF_EN n = false ∧ s'.b R.CAN_REF_CFG_REF_RUN n = false
        ∧ (s'.canCtl n).refNext = none ∧ ((w.canCtl n).att ≠ some 256 → (s'.canCtl n).ref = none)))
    ∧ (∀ (per m : Int), u.canEn n = true → u.b R.CAN_REF_CFG_REF_EN n = true → u.b R.CAN_REF_CFG_REF_RUN n = true → u.b R.CAN_CFG_LOM n = false →
      per = ((u.f R.CAN_REF_CFG_REF_PERIOD n * 1000 : Nat) : Int) → per ≠ 0 → m = (u.ntime - (u.f R.CAN_REF_PH_REF_PHASE n * 1000 : Nat)) / per →
      u.ntime - (u.f R.CAN_REF_PH_REF_PHASE n * 1000 : Nat) - m * per < (if u.net.stepTick = some u.pwmTime then 1 else 2) → inRanges m (u.canCtl n).refDone = false →
      (u.canCtl n).att ≠ some 256 → (u.canCtl n).refNext = none →
      (u.refMay n = true → u.canState n < 2 → Runs (.referenceInstant t n) s fun s' => (s'.canCtl n).ref = some (u.canCtl n).refSeq
        ∧ (s'.canCtl n).refSeq = ((u.canCtl n).refSeq + 1) % 64 ∧ inRanges m (s'.canCtl n).refDone = true
        ∧ s'.f R.CAN_CNT_REF_MISSED n = if (u.canCtl n).ref = none then u.f R.CAN_CNT_REF_MISSED n else min (u.f R.CAN_CNT_REF_MISSED n + 1) (2 ^ 16 - 1))
      ∧ (u.refMay n = false → (u.canCtl n).ref = none → Runs (.referenceInstant t n) s fun s' => (s'.canCtl n).ref = none
        ∧ s'.f R.CAN_CNT_REF_MISSED n = min (u.f R.CAN_CNT_REF_MISSED n + 1) (2 ^ 16 - 1) ∧ s'.b R.CAN_STAT_REF_MISS_SEEN n = true))

/-- R449, R454 to R456, R458, R460: a lost reference puts the PLLs that follow it into HOLDOVER and a qualified one brings them back; a lost lock
relocks at once; the hop to BACKUP_SLOT and its end; LOCKED again; the copy of the band; SYNC_IN, its success and its timeout end in SEALED; and a pod
clock request is refused with its reason or carried out. -/
def Obligations.ClocksHoldOverHopAndSync : Prop :=
  ∀ (s u : State) (t : Instant), u = s.start t → u.inReset = false →
    (∀ ref gap edges n : Nat, ref < 2 → u.refOk ref = true → u.room → n = (if ref = 0 then 10000 else 2500) →
      1000 < gap ∨ 10 * edges < 9 * n ∨ 11 * n < 10 * edges → Runs (.refLost t ref gap edges) s fun s' =>
      s'.refOk ref = false ∧ s'.clk.lost.testBit ref = true ∧ Posts u s' E.REF_LOST (subject ref)
        ∧ ∀ p < 3, if (u.pllState p = 1 ∨ u.pllState p = 3) ∧ (u.pll p).ref = ref then
            s'.pllState p = 2 ∧ s'.b R.CLK_PLL_STAT_HOLD_SEEN p = true ∧ (s'.pll p).holdAt = u.now
              ∧ s'.f R.CLK_PLL_CNT_HOLDOVERS p = min (u.f R.CLK_PLL_CNT_HOLDOVERS p + 1) (2 ^ 16 - 1)
          else s'.pllState p = u.pllState p ∧ s'.pll p = u.pll p)
    ∧ (∀ (ref : Nat) (since : Instant), ref < 2 → u.refOk ref = false →
      (u.b R.CLK_STAT_NOREF = false → u.clk.lost.testBit ref = true → kget 0 u.clk.lostAt ref ≤ since → since + 10 * msQ ≤ u.now → u.room →
        Runs (.refQualified t ref since) s fun s' => s'.refOk ref = true ∧ s'.clk.lost.testBit ref = false ∧ Posts u s' E.REF_QUALIFIED (subject ref)
          ∧ ∀ p < 3, (u.pll p).ref = ref → (u.pll p).hop = none → u.pllState p = 2 → s'.pllState p = 3 ∧ (s'.pll p).relockAt = u.now)
      ∧ (u.b R.CLK_STAT_NOREF = true → u.f R.CLK_STAT_STRAP = ref → u.pwr.waiting = none → u.clk.lost.testBit ref = false → since + 100 * usQ ≤ u.now →
        Runs (.refQualified t ref since) s fun s' => s'.refOk ref = true ∧ s'.b R.CLK_STAT_NOREF = false ∧ (∀ p < 3, s'.pllState p = 1) ∧ s'.sys = u.sys))
    ∧ (∀ (p : Nat) (errs : List Nat), p < 3 → u.pllState p = 1 → u.refOk (u.pll p).ref = true → u.room → errs.length = 4 → (∀ e ∈ errs, 500 < e) →
      Runs (.lockLost t p errs) s fun s' =>
      s'.pllState p = 3 ∧ s'.b R.CLK_PLL_STAT_LOCK_LOST_SEEN p = true ∧ (s'.pll p).relockAt = u.now
        ∧ s'.f R.CLK_PLL_CNT_HOLDOVERS p = min (u.f R.CLK_PLL_CNT_HOLDOVERS p + 1) (2 ^ 16 - 1) ∧ Posts u s' E.LOCK_LOST (subject p))
    ∧ (∀ p k : Nat, p < 3 → k = u.f R.CLK_PLL_CFG_BACKUP_SLOT p → u.b R.CLK_CTL_BACKUP_EN = true → u.pllState p = 2 → (u.pll p).hop = none →
      (u.pll p).boot = false → u.f R.CLK_PLL_STAT_SLOT p ≠ k → u.refOk (u.f R.CLK_SLOT_A_REFSEL p k) = true → (u.pll p).holdAt + 100 * usQ ≤ u.now →
      Runs (.backupHop t p) s fun s' => (s'.pll p).hop = some k ∧ s'.regs = u.regs)
    ∧ (∀ p k : Nat, p < 3 → k < 8 → (u.pll p).hop = some k → u.room → Runs (.slotHop t p) s fun s' =>
      s'.f R.CLK_PLL_STAT_SLOT p = k ∧ (s'.pll p).hop = none ∧ (s'.pll p).ref = u.f R.CLK_SLOT_A_REFSEL p k ∧ (s'.pll p).boot = false
        ∧ s'.f R.CLK_PLL_CNT_HOPS p = min (u.f R.CLK_PLL_CNT_HOPS p + 1) (2 ^ 16 - 1)
        ∧ s'.pllState p = (if u.refOk (u.f R.CLK_SLOT_A_REFSEL p k) then 3 else u.pllState p) ∧ Posts u s' E.SLOT_HOP (subject p)
        ∧ (p ≠ 1 → s'.f R.CLK_PLL_DIV_N p = u.f R.CLK_SLOT_A_N p k ∧ s'.f R.CLK_PLL_DIV_FRAC p = u.f R.CLK_SLOT_F_FRAC p k))
    ∧ (∀ p worst : Nat, p < 3 → u.pllState p = 3 → worst ≤ 50 → (u.pll p).relockAt + 1024 * (if (u.pll p).ref = 0 then 10 else 40) * nsQ ≤ u.now → u.room →
      Runs (.pllRelocked t p worst) s fun s' => s'.pllState p = 1 ∧ s'.clk = u.clk ∧ Reports u s' E.PLL_RELOCKED (subject p))
    ∧ (∀ p band code : Nat, p < 3 → band < 64 → u.pllState p = 1 → (u.pll p).copyAt + 10 * secQ ≤ u.now → Runs (.bandCopy t p band code) s fun s' =>
      (s'.pll p).copyAt = u.now ∧ s'.sys = u.sys ∧ ∀ k < 8, if u.b R.CLK_SLOT_A_VALID p k then s'.f R.CLK_SLOT_A_BAND p k = band
          ∧ kget 0 (s'.pll p).tune k = code else s'.f R.CLK_SLOT_A_BAND p k = u.f R.CLK_SLOT_A_BAND p k)
    ∧ (∀ at_ e : Instant, u.alive = true → u.clk.syncWait = some at_ → u.clk.syncAt = some e → e + 172 ≤ u.now → u.room → Runs (.syncDone t) s fun s' =>
      s'.b R.CLK_SYNC_STAT_SYNCED = true ∧ s'.b R.CFG_STAT_SEALED = true ∧ s'.clk.ungatedAt = some u.now ∧ s'.clk.syncWait = none
        ∧ Posts u s' E.SYNC_DONE)
    ∧ (∀ at_ : Instant, u.alive = true → u.clk.syncWait = some at_ → u.clk.syncAt = none → at_ + u.f R.CLK_CTL_SYNC_TO * msQ ≤ u.now → u.room →
      Runs (.syncTimeout t) s fun s' => s'.b R.CLK_SYNC_STAT_TIMEOUT = true ∧ s'.b R.CFG_STAT_SEALED = true ∧ s'.clk.ungatedAt = some u.now
        ∧ s'.clk.syncWait = none ∧ Posts u s' E.SYNC_TIMEOUT)
    ∧ (u.refOk 0 = true →
      (∀ e : Instant, u.clk.ungatedAt = some e → e ≤ u.now → Runs (.syncEdge t) s fun s' => s'.b R.CLK_SYNC_STAT_SYNC_SEEN = true
        ∧ (u.now - e + s'.f R.CLK_SYNC_STAT_SYNC_PH) % 8 = 0 ∧ s'.f R.CLK_SYNC_STAT_SYNC_PH < 8 ∧ s'.clk = u.clk)
      ∧ (∀ at_ : Instant, u.clk.ungatedAt = none → u.clk.syncWait = some at_ → u.clk.syncAt = none → Runs (.syncEdge t) s fun s' =>
        s'.clk = { u.clk with syncAt := some u.now } ∧ s'.regs = u.regs))
    ∧ (u.refOk 0 = false → Runs (.syncEdge t) s fun s' => s' = u)
    ∧ (∀ (w : State) (fn pod mhz : Nat) (data : Word), u.actionWrite fn R.CLK_POD_REQ_GO data = (w, true) → pod = w.f R.CLK_POD_REQ_POD →
      mhz = w.f R.CLK_POD_REQ_MHZ → w.room →
      let moving : Prop := ∃ m, w.loop.mig = some m ∧ (m.srcPod = pod ∨ m.dstPod = pod)
      let inRange : Prop := 250 ≤ mhz ∧ mhz ≤ 1000 ∧ pod < 24
      let refused (r : Nat) (s' : State) : Prop := s'.f R.CLK_POD_REQ_STAT_RESULT = r ∧ s'.b R.CLK_POD_REQ_STAT_DONE = true ∧ s'.clk = w.clk
        ∧ Reports w s' E.POD_CLK_REFUSED (subject pod) (nw r)
      (w.podHasRole pod = true → Runs (.go t fn data) s (refused 1))
      ∧ (w.podHasRole pod = false → moving → Runs (.go t fn data) s (refused 2))
      ∧ (w.podHasRole pod = false → ¬ moving → w.clk.podReq ≠ none → Runs (.go t fn data) s (refused 3))
      ∧ (w.podHasRole pod = false → ¬ moving → w.clk.podReq = none → ¬ inRange → Runs (.go t fn data) s (refused 4))
      ∧ (w.podHasRole pod = false → ¬ moving → w.clk.podReq = none → inRange → Runs (.go t fn data) s fun s' =>
        s'.clk = { w.clk with podReq := some (pod, mhz) } ∧ s'.b R.CLK_POD_REQ_STAT_BUSY = true ∧ s'.f R.CLK_POD_REQ_STAT_RESULT = 0 ∧ s'.sys = w.sys))
    ∧ ∀ pod mhz : Nat, u.clk.podReq = some (pod, mhz) → pod < 24 → 250 ≤ mhz → mhz ≤ 1000 → u.room → Runs (.podClkChanged t) s fun s' =>
      s'.f R.CLK_POD_MHZ pod = mhz ∧ mhz * 1000 ≤ s'.f R.CLK_POD_KHZ pod ∧ s'.f R.CLK_POD_KHZ pod * 20000 < mhz * 1000 * 20001
        ∧ s'.clk.podReq = none ∧ s'.b R.CLK_POD_REQ_STAT_BUSY = false ∧ s'.b R.CLK_POD_REQ_STAT_DONE = true
        ∧ Reports u s' E.POD_CLK_CHANGED (subject pod)

/-- R497, R498, R500, R501: a request waits in the order of ticks and requesters, and is granted at once with EN = 0 or when the bucket pays for it; a
withdrawn one is gone; a refill raises LEVEL by one, never above CAP, and pays for the head, or holds it back; a CAP below a cost is discarded;
clearing EN grants every waiting request, and setting it empties the bucket. -/
def Obligations.StartTokensAreGrantedInOrder : Prop :=
  ∀ (s u : State) (t : Instant), u = s.start t → u.sealed = true →
    (∀ req x r : Nat, r = u.requester req → (∀ y ∈ u.pwr.tokens, y.2 ≠ r) →
      req < 512 ∧ (u.ctx req).section_ 2 = true ∧ (u.dcdc req).st = bWait ∧ (u.dcdc req).granted = false
        ∨ req = 512 + x ∧ u.bcOn x = true ∧ u.bcPhase x = bcStopped ∧ 8 / 256 ≤ (u.bc x).duty ∧ (u.bc x).retryAt = none ∧ (u.bc x).barred = false →
      (u.b R.PWR_TOK_CFG_EN = true → u.b R.PWR_TOK_STAT_OPEN = false → Runs (.tokenRequest t req) s fun s' =>
        ∃ a b, u.pwr.tokens = a ++ b ∧ s'.pwr.tokens = a ++ (u.pwmTime, r) :: b
          ∧ (∀ y ∈ a, y.1 < u.pwmTime ∨ y.1 = u.pwmTime ∧ y.2 ≤ r)
          ∧ (∀ y, b.head? = some y → u.pwmTime < y.1 ∨ u.pwmTime = y.1 ∧ r < y.2)
          ∧ s'.f R.PWR_TOK_STAT_PENDING = (u.pwr.tokens.length + 1) % 1024)
      ∧ (u.b R.PWR_TOK_CFG_EN = false → u.pwr.tokens = [] → u.room → r < 1024 → Runs (.tokenRequest t req) s fun s' =>
        s'.pwr.tokens = [] ∧ s'.f R.PWR_TOK_LAST_REQ = r ∧ s'.f R.PWR_TOK_STAT_GRANTS = min (u.f R.PWR_TOK_STAT_GRANTS + 1) (2 ^ 16 - 1)
          ∧ Posts u s' E.TOKEN_GRANTED (subject r) ∧ (req = 512 + x → x < 4 → u.f R.AUX_BC_START_T_ALIGN x ≠ 0 → s'.bcPhase x = bcAlign))
      ∧ (u.b R.PWR_TOK_CFG_EN = true → u.b R.PWR_TOK_STAT_OPEN = true → u.pwr.tokens = [] → u.tokenCost r ≤ u.f R.PWR_TOK_STAT_LEVEL → u.room →
        Runs (.tokenRequest t req) s fun s' => s'.pwr.tokens = [] ∧ s'.f R.PWR_TOK_STAT_LEVEL = u.f R.PWR_TOK_STAT_LEVEL - u.tokenCost r
          ∧ Posts u s' E.TOKEN_GRANTED (subject r)))
    ∧ (∀ req : Nat, (∃ y ∈ u.pwr.tokens, y.2 = u.requester req) → u.b R.PWR_TOK_CFG_EN = true → u.b R.PWR_TOK_STAT_OPEN = false → u.room →
      Runs (.tokenWithdraw t req) s fun s' => s'.pwr.tokens = u.pwr.tokens.filter (fun y => y.2 != u.requester req)
        ∧ Reports u s' E.TOKEN_WITHDRAWN (subject (u.requester req)))
    ∧ (∀ r : Instant, u.pwr.refillAt = some r → r ≤ u.now → u.b R.PWR_TOK_STAT_OPEN = true → u.b R.PWR_TOK_CFG_EN = true →
      let level := min (u.f R.PWR_TOK_STAT_LEVEL + 1) (u.f R.PWR_TOK_CFG_CAP + 1)
      (u.pwr.tokens = [] → Runs (.tokenRefill t) s fun s' => s'.f R.PWR_TOK_STAT_LEVEL = level ∧ s'.sys = u.sys
        ∧ s'.pwr = { u.pwr with refillAt := some (r + u.f R.PWR_TOK_CFG_REFILL * msQ) })
      ∧ (∀ tick g, u.pwr.tokens = [(tick, g)] → u.tokenCost g ≤ level → u.room → Runs (.tokenRefill t) s fun s' =>
        s'.f R.PWR_TOK_STAT_LEVEL = level - u.tokenCost g ∧ s'.pwr.tokens = [] ∧ Posts u s' E.TOKEN_GRANTED (subject g))
      ∧ (∀ tick g q, u.pwr.tokens = (tick, g) :: q → level < u.tokenCost g → Runs (.tokenRefill t) s fun s' =>
        s'.f R.PWR_TOK_STAT_LEVEL = level ∧ s'.pwr.tokens = u.pwr.tokens ∧ s'.sys = u.sys))
    ∧ ∀ (w : State) (fn : Nat) (data v : Word) (h : RegHit) (fs : List FieldDef),
      u.writeAt fn .pwr (R.PWR_TOK_CFG_EN.off 0 0) data = (w, some (h, fs)) → v = fs.foldl (fun x fd => applyField 0 x data fd) (w.word .pwr 0x10) →
      let bad : Prop := getBits v 29 26 + 1 < getBits v 20 18 ∨ getBits v 29 26 + 1 < getBits v 17 15
      (bad → Runs (.pwrTokCfg t fn data) s fun s' => s'.word .pwr 0x10 = w.word .pwr 0x10 ∧ s'.pwr = w.pwr ∧ s'.f R.HUSK_REFUSE_LAST_KIND = 1)
      ∧ (¬ bad → Runs (.pwrTokCfg t fn data) s fun s' => s'.word .pwr 0x10 = v
          ∧ (w.b R.PWR_TOK_CFG_EN = true → v.getLsbD 31 = false → w.pwr.tokens.length ≤ 516 → s'.pwr.tokens = [])
          ∧ (w.b R.PWR_TOK_CFG_EN = false → v.getLsbD 31 = true → s'.f R.PWR_TOK_STAT_LEVEL = 0
              ∧ (w.b R.PWR_TOK_STAT_OPEN = true → s'.pwr.refillAt = some (w.now + getBits v 14 0 * msQ))))

/-- R2, R61, R62, R352, R357, R527: three kinds of command that other statements show by part of what they do. An access that is not one aligned word,
or of a reserved address, is answered: BAD_ACCESS goes to SYS and a read completes with zero, and that is all. An NTIME generator whose instant has
come, within the tick and not before a step of NTIME, produces the event of that instant: the open windows of its accumulators become results and
start anew, the units that it triggers take their trigger. A section that tells the husk its keys is loaded, and the next one may come. (No conversion
ends in the tick of the generator.) -/
def Obligations.AnswersEventsAndSectionsComplete : Prop :=
  ∀ (s u : State) (t : Instant), u = s.start t →
    (∀ (fn addr len : Nat) (write : Bool), fn < 2 → addr < 0x100000 → 1 ≤ len → len ≤ 4096 → u.answers fn addr write = true →
      let posted : State := u.post E.BAD_ACCESS (subject fn 0 fn) (nw addr) (nw (b2n write + 2 * len))
      let answered : State := if write then posted else { posted with out := posted.out ++ [.readData fn addr 0] }
      (¬ (len = 4 ∧ addr % 4 = 0) → exec (.misalignedAccess t fn addr len write) s = .next answered)
      ∧ (len = 4 → addr % 4 = 0 → findReg addr fn = none → exec (.reservedAddressAccess t fn addr write) s = .next answered))
    ∧ (∀ (k per : Nat) (ph m : Int), u.sealed = true → u.measOn = true → u.regs.canon → k < 8 → per = u.f R.MEAS_NTEV_PER_PERIOD k → per ≠ 0 →
      ph = signed 64 (u.f R.MEAS_NTEV_PH_LO_PHASE_LO k + u.f R.MEAS_NTEV_PH_HI_PHASE_HI k * 2 ^ 32) →
      ph + m * per ≤ u.ntime → u.ntime < ph + (m + 1) * per → u.ntime < ph + m * per + (if u.net.stepTick = some u.pwmTime then 1 else 2) →
      inRanges m (kget [] u.meas.ntevDone k) = false → (∀ n, ∀ x ∈ (u.unit n).flight, u.convDone x.2.2 = false) →
      Runs (.ntimeGeneratorEvent t k) s fun s' =>
        (∀ j, inRanges j (kget [] s'.meas.ntevDone k) = true ↔ j = m ∨ inRanges j (kget [] u.meas.ntevDone k) = true)
        ∧ (∀ a < 256, u.b R.MEAS_ACC_CFG_EN a = true → u.f R.MEAS_ACC_CLOSE_SRC a = 1 → u.f R.MEAS_ACC_CLOSE_ARG a % 8 = k → 4 ≤ (u.acc a).cnt →
            s'.acc a = { u.acc a with sum := 0, cnt := 0, rail := false, resSum := (u.acc a).sum, resCnt := (u.acc a).cnt })
        ∧ ∀ n < 24, u.b R.MEAS_SEQ_CTL_EN n = true → u.b R.MEAS_SEQ_CTL_MODE n = true → u.f R.MEAS_SEQ_CTL_INJ_TRIG n = 2 →
          u.f R.MEAS_SEQ_CTL_INJ_NTEV n = k → (s'.unit n).injDue = true)
    ∧ ∀ (im : SlotImage) (base : Bool) (keys : List (BitVec 776)) (sec : Section) (rest : List Section) (ofs : Nat), u.alive = true →
      u.cfg.released = true → u.cfg.placed = false → u.b R.REL_STAT_BOOT_BIST_DONE = true → u.b R.CFG_STAT_SEALED = false →
      im = u.slotImg (u.cfg.order.head?.getD 0) → layoutBad im = none → im.secs.drop u.cfg.loaded.length = .huskPolicy base keys :: sec :: rest →
      (∀ l ∈ u.cfg.loaded, l < 0x500) → keys.length ≤ 8 →
      exec (.sectionLoad t none ofs) s = .next { u with
        husk := { u.husk with pf0Base := base, svcKeys := keys }
        cfg := { u.cfg with loaded := u.cfg.loaded ++ [0x500] } }

/-- R8, R223, R263, R492, R528: after reset SYS shows the identity, every target is held in ALL_OFF with FIRST = 0x104, nothing is armed or sealed,
PWM time is zero, no pin is high, the pods stand at 500 MHz, and no event or command waits. -/
def Obligations.ResetLeavesStatedValues : Prop :=
  let s := State.reset
  s.f R.SYS_ID_VENDOR = 0x1F3A ∧ s.f R.SYS_ID_DEVICE = 0x7144 ∧ s.f R.SYS_REV_PART = 0x7144 ∧ s.pwmTime = 0
    ∧ (∀ T < 28, s.b R.TRIP_TGT_STAT_HELD T = true ∧ s.f R.TRIP_TGT_STAT_ACTION T = 1 ∧ s.f R.TRIP_TGT_STAT_FIRST T = 0x104
        ∧ s.f R.TRIP_TGT_STAT_COUNT T = 0)
    ∧ s.b R.TRIP_CTL_ARMED = false ∧ s.b R.SAFE_CTL_ARMED = false ∧ s.b R.CFG_STAT_SEALED = false ∧ s.b R.PWR_STAT_READY = false
    ∧ (∀ c, (s.chan c).pin = false) ∧ (∀ k < 6, s.bitF R.SAFE_OUT_STAT_LEVEL k = false) ∧ (∀ n < 24, s.f R.CLK_POD_MHZ n = 500)
    ∧ s.sys.log = [] ∧ s.sys.queue = [] ∧ s.pending = []
end

