-- ==== Sys2Proof/Laws/Map.lean ====
section
/-! SUPPORT. Sparse maps: what a read gives after a write, and that a write keeps the canonical form. -/
namespace Sys2Proof.Machine

variable {α : Type}

theorem kget_kput_same (d : α) (m : KMap α) (k : Nat) (v : α) : kget d (kput m k v) k = v := by
  induction m with
  | nil => simp [kput, kget]
  | cons x m ih =>
    obtain ⟨k', v'⟩ := x
    unfold kput
    split
    · simp [kget]
    · split
      · simp [kget]
      · simp [kget, *]

theorem kget_kput_other (d : α) (m : KMap α) {k j : Nat} (v : α) (h : j ≠ k) : kget d (kput m k v) j = kget d m j := by
  induction m with
  | nil => simp [kput, kget, h]
  | cons x m ih =>
    obtain ⟨k', v'⟩ := x
    unfold kput
    split
    · simp [kget, h]
    · split
      · rename_i e; subst e; simp [kget, h]
      · simp [kget, ih]

theorem kget_kdel_other (d : α) (m : KMap α) {k j : Nat} (h : j ≠ k) : kget d (kdel m k) j = kget d m j := by
  induction m with
  | nil => rfl
  | cons x m ih =>
    obtain ⟨k', v'⟩ := x
    unfold kdel
    split
    · rename_i e; subst e; simp [kget, h, ih]
    · simp [kget, ih]

theorem kget_kdel_same (d : α) (m : KMap α) (k : Nat) : kget d (kdel m k) k = d := by
  induction m with
  | nil => rfl
  | cons x m ih =>
    obtain ⟨k', v'⟩ := x
    unfold kdel
    split
    · exact ih
    · simp [kget, *]

theorem kabove_kput {j k : Nat} {m : KMap α} (v : α) (h : kabove j m = true) (hk : j < k) : kabove j (kput m k v) = true := by
  induction m with
  | nil => simp [kput, kabove, hk]
  | cons x m ih =>
    obtain ⟨k', v'⟩ := x
    simp only [kabove, Bool.and_eq_true, decide_eq_true_eq] at h
    unfold kput
    split
    · simp [kabove, hk, h]
    · split
      · simp [kabove, h, hk]
      · simp [kabove, h, ih h.2]

theorem kabove_kdel {j k : Nat} {m : KMap α} (h : kabove j m = true) : kabove j (kdel m k) = true := by
  induction m with
  | nil => rfl
  | cons x m ih =>
    obtain ⟨k', v'⟩ := x
    simp only [kabove, Bool.and_eq_true, decide_eq_true_eq] at h
    unfold kdel
    split
    · exact ih h.2
    · simp [kabove, h, ih h.2]

theorem kabove_mono {j k : Nat} {m : KMap α} (h : kabove k m = true) (hk : j ≤ k) : kabove j m = true := by
  induction m with
  | nil => rfl
  | cons x m ih =>
    obtain ⟨k', v'⟩ := x
    simp only [kabove, Bool.and_eq_true, decide_eq_true_eq] at h ⊢
    exact ⟨by omega, ih h.2⟩

theorem kabove_filter {k : Nat} {m : KMap α} (p : Nat × α → Bool) (h : kabove k m = true) : kabove k (m.filter p) = true := by
  induction m with
  | nil => rfl
  | cons x m ih =>
    obtain ⟨k', v⟩ := x
    simp only [kabove, Bool.and_eq_true] at h
    rw [List.filter_cons]
    split
    · simp only [kabove, Bool.and_eq_true]; exact ⟨h.1, ih h.2⟩
    · exact ih h.2

variable [DecidableEq α]

/-- A read of the key just written gives the value written. -/
theorem kget_kset_same (d : α) (m : KMap α) (k : Nat) (v : α) : kget d (kset d m k v) k = v := by
  unfold kset
  split
  · rename_i e; rw [kget_kdel_same, e]
  · exact kget_kput_same d m k v

/-- A write leaves every other key as it was. -/
theorem kget_kset_other (d : α) (m : KMap α) {k j : Nat} (v : α) (h : j ≠ k) : kget d (kset d m k v) j = kget d m j := by
  unfold kset
  split
  · exact kget_kdel_other d m h
  · exact kget_kput_other d m v h

theorem kwf_kput {d : α} {m : KMap α} (k : Nat) {v : α} (h : kwf d m = true) (hv : v ≠ d) : kwf d (kput m k v) = true := by
  induction m with
  | nil => simp [kput, kwf, kabove, hv]
  | cons x m ih =>
    obtain ⟨k', v'⟩ := x
    have h' := h
    simp only [kwf, Bool.and_eq_true, decide_eq_true_eq] at h
    unfold kput
    split
    · simp [kwf, kabove, kabove_mono h.1.1 (Nat.le_of_lt ‹_›), *]
    · split
      · rename_i e; subst e; simp [kwf, h, hv]
      · have hk : k' < k := by omega
        simp [kwf, h, ih h.2, kabove_kput v h.1.1 hk]

theorem kwf_kdel {d : α} {m : KMap α} (k : Nat) (h : kwf d m = true) : kwf d (kdel m k) = true := by
  induction m with
  | nil => rfl
  | cons x m ih =>
    obtain ⟨k', v'⟩ := x
    simp only [kwf, Bool.and_eq_true, decide_eq_true_eq] at h
    unfold kdel
    split
    · exact ih h.2
    · simp [kwf, h, ih h.2, kabove_kdel h.1.1]

/-- A write keeps the canonical form. -/
theorem kwf_kset {d : α} {m : KMap α} (k : Nat) (v : α) (h : kwf d m = true) : kwf d (kset d m k v) = true := by
  unfold kset
  split
  · exact kwf_kdel k h
  · exact kwf_kput k h ‹_›

/-- Writes keep the canonical form. -/
theorem kwf_foldl {β : Type} {d : α} (f : KMap α → β → KMap α) (hf : ∀ m x, kwf d m = true → kwf d (f m x) = true) (l : List β)
    {m : KMap α} (h : kwf d m = true) : kwf d (l.foldl f m) = true := by
  induction l generalizing m with
  | nil => exact h
  | cons x l ih => exact ih (hf m x h)

theorem kwf_filter {d : α} {m : KMap α} (p : Nat × α → Bool) (h : kwf d m = true) : kwf d (m.filter p) = true := by
  induction m with
  | nil => rfl
  | cons x m ih =>
    obtain ⟨k', v⟩ := x
    simp only [kwf, Bool.and_eq_true] at h
    rw [List.filter_cons]
    split
    · simp only [kwf, Bool.and_eq_true]; exact ⟨⟨kabove_filter p h.1.1, h.1.2⟩, ih h.2⟩
    · exact ih h.2

end Sys2Proof.Machine
end

