-- ==== Sys2Proof/Laws/Touch.lean ====
section
/-! SUPPORT. How the parts that a state change touches compose: the rules by which every operation's lemma in Laws/Frame is proved. -/
set_option Elab.async false

namespace Sys2Proof.Machine

/-- From one state to the other, flits have only come to the queue of SYS. -/
def QExt (s s' : State) : Prop := ∃ l, s'.sys.queue = s.sys.queue ++ l

theorem QExt.refl (s : State) : QExt s s := ⟨[], by simp⟩

theorem QExt.trans {s u v : State} (h : QExt s u) (h' : QExt u v) : QExt s v := by
  obtain ⟨l, h⟩ := h
  obtain ⟨l', h'⟩ := h'
  exact ⟨l ++ l', by rw [h', h, List.append_assoc]⟩

theorem QExt.of_eq {s u : State} (h : u.sys.queue = s.sys.queue) : QExt s u := ⟨[], by rw [h]; simp⟩

/-- The carriers are the same in both states, but for the opening of their outputs. -/
def CarKeep (s s' : State) : Prop := ∀ T, { s'.carrier T with opened := false } = { s.carrier T with opened := false }

theorem CarKeep.of_eq {s s' : State} (h : s'.pwm.carriers = s.pwm.carriers) : CarKeep s s' := by
  intro T; unfold State.carrier; rw [h]

theorem CarKeep.trans {s u v : State} (h : CarKeep s u) (h' : CarKeep u v) : CarKeep s v := fun T => (h' T).trans (h T)

/-- Every part outside the mask is the same in both states, what every step keeps is kept, where bit 38 is out of the mask nothing leaves the
queue of SYS, and where bit 39 is, the carriers stay as they were but for the opening of their outputs. -/
def Touches (m : Nat) (s s' : State) : Prop :=
  (∀ p : Part, m.testBit p.bit = false → p.same s s') ∧ (Inv s → Inv s') ∧ (m.testBit 38 = false → QExt s s')
    ∧ (m.testBit 39 = false → CarKeep s s')

/-- Nothing leaves the queue of SYS. -/
theorem Touches.q {m : Nat} {s s' : State} (h : Touches m s s') (hm : m.testBit 38 = false := by decide) : QExt s s' := h.2.2.1 hm

/-- The carriers stay as they were but for the opening of their outputs. -/
theorem Touches.car {m : Nat} {s s' : State} (h : Touches m s s') (hm : m.testBit 39 = false := by decide) : CarKeep s s' := h.2.2.2 hm

theorem Touches.refl (m : Nat) (s : State) : Touches m s s :=
  ⟨fun p _ => by cases p <;> rfl, id, fun _ => QExt.refl s, fun _ _ => rfl⟩

/-- The part at a place of a mask. -/
def Part.ofBit (n : Nat) : Part :=
  ([.regs .sys, .regs .husk, .regs .cfg, .regs .hostq, .regs .meas, .regs .pos, .regs .loop, .regs .pwm, .regs .trip, .regs .safe, .regs .net,
    .regs .can, .regs .clk, .regs .rel, .regs .pwr, .regs .aux, .sys, .husk, .porst, .pwr, .sea, .meas, .pos, .pwm, .trip, .loop, .safe, .hostq,
    .net, .can, .clk, .rel, .cfg, .tap, .now, .out, .free, .pending, .out, .out, .mesh] : List Part).getD n .out

theorem Part.bit_inj {p q : Part} (h : p.bit = q.bit) : p = q := by
  have key : ∀ p : Part, Part.ofBit p.bit = p := by intro p; cases p <;> first | rfl | (rename_i b; cases b <;> rfl)
  rw [← key p, ← key q, h]

theorem Part.same_trans {s0 s s' : State} {p : Part} (h : p.same s0 s) (h' : p.same s s') : p.same s0 s' := by
  cases p <;> exact Eq.trans h' h

theorem mask_sub {M m : Nat} (hm : M &&& m = M) {i : Nat} (h : m.testBit i = false) : M.testBit i = false := by
  have : (M &&& m).testBit i = M.testBit i := by rw [hm]
  rw [Nat.testBit_and, h, Bool.and_false] at this
  exact this.symm

theorem Touches.mono {M m : Nat} {s s' : State} (c : Touches M s s') (hm : M &&& m = M) : Touches m s s' :=
  ⟨fun p hp => c.1 p (mask_sub hm hp), c.2.1, fun h => c.2.2.1 (mask_sub hm h), fun h => c.2.2.2 (mask_sub hm h)⟩

/-- A change after a change. -/
theorem Touches.comp {M m : Nat} {s0 s s' : State} (c : Touches M s s') (hm : M &&& m = M) (h : Touches m s0 s) : Touches m s0 s' :=
  ⟨fun p hp => Part.same_trans (h.1 p hp) (c.1 p (mask_sub hm hp)), fun i => c.2.1 (h.2.1 i),
    fun hb => (h.2.2.1 hb).trans (c.2.2.1 (mask_sub hm hb)), fun hb => (h.2.2.2 hb).trans (c.2.2.2 (mask_sub hm hb))⟩

/-- A change that answers a pair. -/
theorem Touches.compEq {α : Type} {M m : Nat} {s0 s s' : State} {p : State × α} {r : α} (c : Touches M s p.1) (e : p = (s', r))
    (hm : M &&& m = M) (h : Touches m s0 s) : Touches m s0 s' := by
  subst e; exact c.comp hm h

/-- A change that may be refused. -/
theorem Touches.compOk {α : Type} {M m : Nat} {s0 s s' : State} {e : Except α State} (c : ∀ t, e = .ok t → Touches M s t) (he : e = .ok s')
    (hm : M &&& m = M) (h : Touches m s0 s) : Touches m s0 s' := (c s' he).comp hm h

theorem Touches.doIf {m : Nat} {s0 s : State} {c : Bool} {g : State → State} (h : Touches m s0 s)
    (hg : ∀ u, Touches m s0 u → Touches m s0 (g u)) : Touches m s0 (s.doIf c g) := by
  unfold State.doIf; split
  · exact hg s h
  · exact h

theorem Touches.ite {m : Nat} {s0 a b : State} {c : Prop} [Decidable c] (h : Touches m s0 a) (h' : Touches m s0 b) :
    Touches m s0 (if c then a else b) := by split <;> assumption

theorem Touches.foldl {α : Type} {m : Nat} {s0 s : State} {f : State → α → State} {l : List α} (h : Touches m s0 s)
    (hf : ∀ t x, Touches m s0 t → Touches m s0 (f t x)) : Touches m s0 (l.foldl f s) := by
  induction l generalizing s with
  | nil => exact h
  | cons a l ih => exact ih (hf s a h)

theorem Touches.foldlP {α β : Type} {m : Nat} {s0 : State} {f : State × β → α → State × β} {x : State × β} {l : List α} (h : Touches m s0 x.1)
    (hf : ∀ y a, Touches m s0 y.1 → Touches m s0 (f y a).1) : Touches m s0 (l.foldl f x).1 := by
  induction l generalizing x with
  | nil => exact h
  | cons a l ih => exact ih (hf x a h)

/-- The goal that a mask lies within another. -/
theorem maskOk {M m : Nat} (h : M &&& m = M) : M &&& m = M := h

theorem maskR (a b : Nat) : b &&& (a ||| b) = b := by
  apply Nat.eq_of_testBit_eq; intro i; simp only [Nat.testBit_and, Nat.testBit_or]
  cases a.testBit i <;> cases b.testBit i <;> rfl

theorem maskL {M a b : Nat} (h : M &&& a = M) : M &&& (a ||| b) = M := by
  apply Nat.eq_of_testBit_eq; intro i
  have := congrArg (fun n => n.testBit i) h
  simp only [Nat.testBit_and, Nat.testBit_or] at this ⊢
  revert this; cases M.testBit i <;> cases a.testBit i <;> cases b.testBit i <;> decide

theorem maskOr {a b m : Nat} (ha : a &&& m = a) (hb : b &&& m = b) : (a ||| b) &&& m = a ||| b := by
  rw [Nat.and_or_distrib_right, ha, hb]

/-- A block's bit lies within a mask that holds all sixteen. -/
theorem blkOk (b : Blk) {m : Nat} (h : 65535 &&& m = 65535) : 2 ^ b.num &&& m = 2 ^ b.num := by
  have hb : 2 ^ b.num &&& 65535 = 2 ^ b.num := by cases b <;> rfl
  calc 2 ^ b.num &&& m = 2 ^ b.num &&& 65535 &&& m := by rw [hb]
    _ = 2 ^ b.num &&& (65535 &&& m) := Nat.and_assoc ..
    _ = 2 ^ b.num := by rw [h, hb]

/-- The goal that an update leaves PORST_N. -/
theorem porstOk {v : PwrSt} {s : State} (h : v.porst = s.pwr.porst) : v.porst = s.pwr.porst := h

/-- A term that is no update of a state: the eta rule lets this apply to it. -/
theorem notUpdate {m : Nat} {s0 s : State} (h : Touches m s0 s) :
    Touches m s0 (State.mk s.pending s.now s.out s.free s.fresh s.regs s.sys s.husk s.pwr s.sea s.mesh s.meas s.pos s.pwm s.trip s.loop s.safe s.hostq s.net
      s.can s.clk s.rel s.cfg s.tap) := h

/-! What single updates keep. -/

theorem Regs.canon_setBlk {r : Regs} {b : Blk} {m : KMap Word} (h : r.canon) (hm : kwf 0 m = true) : (r.setBlk m b).canon := by
  intro b'
  have hb := h b'
  cases b <;> cases b' <;> first | exact hm | exact hb

theorem SeaSt.canon_roles {x : SeaSt} (h : x.canon) (k r : Nat) : SeaSt.canon { x with roles := kset 0 x.roles k r } :=
  ⟨kwf_kset k r h.1, h.2⟩

theorem SysSt.ordered_queue {x : SysSt} (h : x.ordered) {q : List QueuedEvt} (hq : q.length ≤ 64) : SysSt.ordered { x with queue := q } :=
  ⟨hq, h.2⟩

theorem keepLast_le {α : Type} (n : Nat) (l : List α) : (keepLast n l).length ≤ n := by
  unfold keepLast; rw [List.length_drop]; omega

theorem keepLast_sublist {α : Type} (n : Nat) (l : List α) : (keepLast n l).Sublist l := List.drop_sublist _ _

/-- The next entry is written, and the oldest of too many leaves. -/
theorem SysSt.ordered_log {x : SysSt} (h : x.ordered) (e : LogEntry) (he : e.seq = x.nextSeq) :
    SysSt.ordered { x with log := keepLast 8192 (x.log ++ [e]), nextSeq := x.nextSeq + 1 } := by
  obtain ⟨h1, h2, h3⟩ := h
  have h4 : ((x.log ++ [e]).map (·.seq) ++ [x.nextSeq + 1]).Pairwise (· < ·) := by
    simp only [List.map_append, List.map_cons, List.map_nil, he]
    rw [List.pairwise_append]
    refine ⟨h3, by simp, ?_⟩
    intro a ha b hb
    simp only [List.mem_singleton] at hb
    rw [List.mem_append] at ha
    rcases ha with ha | ha
    · have := (List.pairwise_append.1 h3).2.2 a ha x.nextSeq (by simp); omega
    · simp only [List.mem_singleton] at ha; omega
  have h0 := keepLast_le 8192 (x.log ++ [e])
  unfold SysSt.ordered
  dsimp only
  exact ⟨h1, h0, h4.sublist (List.Sublist.append ((keepLast_sublist _ _).map _) (List.Sublist.refl _))⟩

theorem SysSt.ordered_erase {x : SysSt} (h : x.ordered) (n : Nat) : SysSt.ordered { x with log := x.log.eraseIdx n } := by
  obtain ⟨h1, h2, h3⟩ := h
  have hs : (x.log.eraseIdx n).Sublist x.log := List.eraseIdx_sublist ..
  exact ⟨h1, Nat.le_trans hs.length_le h2, h3.sublist (List.Sublist.append (hs.map _) (List.Sublist.refl _))⟩

theorem Regs.canon_reset : Regs.canon {} := by
  intro b; cases b <;> decide

theorem tapSelects_confined (s : State) (i : TapInstr) (cells : List (Nat × Bool)) :
    TapSt.confined { instr := s.tapSelects i, cells := cells } s.pwr.porst := by
  intro h
  unfold State.tapSelects at h
  cases i <;> simp only at h <;> first
    | (rcases h with h | h | h <;> cases h)
    | (split at h
       · assumption
       · rcases h with h | h | h <;> cases h)
    | (split at h <;> rcases h with h | h | h <;> cases h)

/-- What a meaning's answer touches. -/
def TouchesR (m : Nat) (s : State) : Res → Prop
  | .next s' => Touches m s s'
  | _ => True

theorem TouchesR.next {m : Nat} {s0 s : State} (h : Touches m s0 s) : TouchesR m s0 (.next s) := h

theorem Touches.upd_now {m : Nat} {s0 s : State} {v0 : Nat} (hm : 17179869184 &&& m = 17179869184) (h : Touches m s0 s) :
    Touches m s0 { s with now := v0 } := by
  refine Touches.comp (M := 17179869184) (s := s) ⟨?_, fun i => ⟨i.regs, i.sea, i.sys, i.tap⟩, fun _ => QExt.of_eq rfl, fun _ => CarKeep.of_eq rfl⟩ hm h
  intro p hp; cases p <;> first | rfl | exact absurd hp (by decide) | (rename_i b; cases b <;> first | rfl | exact absurd hp (by decide))

theorem Touches.upd_sys {m : Nat} {s0 s : State} {v0 : SysSt} (hsys : s.sys.ordered → v0.ordered) (hq : ∃ l, v0.queue = s.sys.queue ++ l) (hm : 65536 &&& m = 65536) (h : Touches m s0 s) :
    Touches m s0 { s with sys := v0 } := by
  refine Touches.comp (M := 65536) (s := s) ⟨?_, fun i => ⟨i.regs, i.sea, hsys i.sys, i.tap⟩, fun _ => hq, fun _ => CarKeep.of_eq rfl⟩ hm h
  intro p hp; cases p <;> first | rfl | exact absurd hp (by decide) | (rename_i b; cases b <;> first | rfl | exact absurd hp (by decide))

theorem Touches.upd_queue {m : Nat} {s0 s : State} {v0 : SysSt} (hsys : s.sys.ordered → v0.ordered) (hm : 274877972480 &&& m = 274877972480)
    (h : Touches m s0 s) : Touches m s0 { s with sys := v0 } := by
  refine Touches.comp (M := 274877972480) (s := s) ⟨?_, fun i => ⟨i.regs, i.sea, hsys i.sys, i.tap⟩, fun hb => absurd hb (by decide), fun _ => CarKeep.of_eq rfl⟩ hm h
  intro p hp; cases p <;> first | rfl | exact absurd hp (by decide) | (rename_i b; cases b <;> first | rfl | exact absurd hp (by decide))

theorem Touches.upd_husk {m : Nat} {s0 s : State} {v0 : HuskSt} (hm : 131072 &&& m = 131072) (h : Touches m s0 s) :
    Touches m s0 { s with husk := v0 } := by
  refine Touches.comp (M := 131072) (s := s) ⟨?_, fun i => ⟨i.regs, i.sea, i.sys, i.tap⟩, fun _ => QExt.of_eq rfl, fun _ => CarKeep.of_eq rfl⟩ hm h
  intro p hp; cases p <;> first | rfl | exact absurd hp (by decide) | (rename_i b; cases b <;> first | rfl | exact absurd hp (by decide))

theorem Touches.upd_pwr {m : Nat} {s0 s : State} {v0 : PwrSt} (htap : s.tap.confined s.pwr.porst → TapSt.confined s.tap v0.porst) (hm : 786432 &&& m = 786432) (h : Touches m s0 s) :
    Touches m s0 { s with pwr := v0 } := by
  refine Touches.comp (M := 786432) (s := s) ⟨?_, fun i => ⟨i.regs, i.sea, i.sys, htap i.tap⟩, fun _ => QExt.of_eq rfl, fun _ => CarKeep.of_eq rfl⟩ hm h
  intro p hp; cases p <;> first | rfl | exact absurd hp (by decide) | (rename_i b; cases b <;> first | rfl | exact absurd hp (by decide))

theorem Touches.upd_sea {m : Nat} {s0 s : State} {v0 : SeaSt} (hsea : s.sea.canon → v0.canon) (hm : 1048576 &&& m = 1048576) (h : Touches m s0 s) :
    Touches m s0 { s with sea := v0 } := by
  refine Touches.comp (M := 1048576) (s := s) ⟨?_, fun i => ⟨i.regs, hsea i.sea, i.sys, i.tap⟩, fun _ => QExt.of_eq rfl, fun _ => CarKeep.of_eq rfl⟩ hm h
  intro p hp; cases p <;> first | rfl | exact absurd hp (by decide) | (rename_i b; cases b <;> first | rfl | exact absurd hp (by decide))

theorem Touches.upd_mesh {m : Nat} {s0 s : State} {v0 : MeshSt} (hm : 1099511627776 &&& m = 1099511627776) (h : Touches m s0 s) :
    Touches m s0 { s with mesh := v0 } := by
  refine Touches.comp (M := 1099511627776) (s := s) ⟨?_, fun i => ⟨i.regs, i.sea, i.sys, i.tap⟩, fun _ => QExt.of_eq rfl, fun _ => CarKeep.of_eq rfl⟩ hm h
  intro p hp; cases p <;> first | rfl | exact absurd hp (by decide) | (rename_i b; cases b <;> first | rfl | exact absurd hp (by decide))

/-- The model's own note of what the hardware set in the present cycle belongs to no part. -/
theorem Touches.upd_fresh {m : Nat} {s0 s : State} {v0 : KMap Nat} (h : Touches m s0 s) : Touches m s0 { s with fresh := v0 } := by
  refine Touches.comp (M := 0) (s := s) ⟨?_, fun i => ⟨i.regs, i.sea, i.sys, i.tap⟩, fun _ => QExt.of_eq rfl, fun _ => CarKeep.of_eq rfl⟩ (Nat.zero_and m) h
  intro p _; cases p <;> rfl

theorem Touches.upd_meas {m : Nat} {s0 s : State} {v0 : MeasSt} (hm : 2097152 &&& m = 2097152) (h : Touches m s0 s) :
    Touches m s0 { s with meas := v0 } := by
  refine Touches.comp (M := 2097152) (s := s) ⟨?_, fun i => ⟨i.regs, i.sea, i.sys, i.tap⟩, fun _ => QExt.of_eq rfl, fun _ => CarKeep.of_eq rfl⟩ hm h
  intro p hp; cases p <;> first | rfl | exact absurd hp (by decide) | (rename_i b; cases b <;> first | rfl | exact absurd hp (by decide))

theorem Touches.upd_pos {m : Nat} {s0 s : State} {v0 : PosSt} (hm : 4194304 &&& m = 4194304) (h : Touches m s0 s) :
    Touches m s0 { s with pos := v0 } := by
  refine Touches.comp (M := 4194304) (s := s) ⟨?_, fun i => ⟨i.regs, i.sea, i.sys, i.tap⟩, fun _ => QExt.of_eq rfl, fun _ => CarKeep.of_eq rfl⟩ hm h
  intro p hp; cases p <;> first | rfl | exact absurd hp (by decide) | (rename_i b; cases b <;> first | rfl | exact absurd hp (by decide))

theorem Touches.upd_pwm {m : Nat} {s0 s : State} {v0 : PwmSt} (hc : v0.carriers = s.pwm.carriers) (hm : 8388608 &&& m = 8388608) (h : Touches m s0 s) :
    Touches m s0 { s with pwm := v0 } := by
  refine Touches.comp (M := 8388608) (s := s) ⟨?_, fun i => ⟨i.regs, i.sea, i.sys, i.tap⟩, fun _ => QExt.of_eq rfl, fun _ => CarKeep.of_eq hc⟩ hm h
  intro p hp; cases p <;> first | rfl | exact absurd hp (by decide) | (rename_i b; cases b <;> first | rfl | exact absurd hp (by decide))

theorem Touches.upd_carriers {m : Nat} {s0 s : State} {v0 : PwmSt} (hm : 549764202496 &&& m = 549764202496) (h : Touches m s0 s) :
    Touches m s0 { s with pwm := v0 } := by
  refine Touches.comp (M := 549764202496) (s := s) ⟨?_, fun i => ⟨i.regs, i.sea, i.sys, i.tap⟩, fun _ => QExt.of_eq rfl, fun hb => absurd hb (by decide)⟩ hm h
  intro p hp; cases p <;> first | rfl | exact absurd hp (by decide) | (rename_i b; cases b <;> first | rfl | exact absurd hp (by decide))

theorem Touches.upd_trip {m : Nat} {s0 s : State} {v0 : TripSt} (hm : 16777216 &&& m = 16777216) (h : Touches m s0 s) :
    Touches m s0 { s with trip := v0 } := by
  refine Touches.comp (M := 16777216) (s := s) ⟨?_, fun i => ⟨i.regs, i.sea, i.sys, i.tap⟩, fun _ => QExt.of_eq rfl, fun _ => CarKeep.of_eq rfl⟩ hm h
  intro p hp; cases p <;> first | rfl | exact absurd hp (by decide) | (rename_i b; cases b <;> first | rfl | exact absurd hp (by decide))

theorem Touches.upd_loop {m : Nat} {s0 s : State} {v0 : LoopSt} (hm : 33554432 &&& m = 33554432) (h : Touches m s0 s) :
    Touches m s0 { s with loop := v0 } := by
  refine Touches.comp (M := 33554432) (s := s) ⟨?_, fun i => ⟨i.regs, i.sea, i.sys, i.tap⟩, fun _ => QExt.of_eq rfl, fun _ => CarKeep.of_eq rfl⟩ hm h
  intro p hp; cases p <;> first | rfl | exact absurd hp (by decide) | (rename_i b; cases b <;> first | rfl | exact absurd hp (by decide))

theorem Touches.upd_safe {m : Nat} {s0 s : State} {v0 : SafeSt} (hm : 67108864 &&& m = 67108864) (h : Touches m s0 s) :
    Touches m s0 { s with safe := v0 } := by
  refine Touches.comp (M := 67108864) (s := s) ⟨?_, fun i => ⟨i.regs, i.sea, i.sys, i.tap⟩, fun _ => QExt.of_eq rfl, fun _ => CarKeep.of_eq rfl⟩ hm h
  intro p hp; cases p <;> first | rfl | exact absurd hp (by decide) | (rename_i b; cases b <;> first | rfl | exact absurd hp (by decide))

theorem Touches.upd_hostq {m : Nat} {s0 s : State} {v0 : HostqSt} (hm : 134217728 &&& m = 134217728) (h : Touches m s0 s) :
    Touches m s0 { s with hostq := v0 } := by
  refine Touches.comp (M := 134217728) (s := s) ⟨?_, fun i => ⟨i.regs, i.sea, i.sys, i.tap⟩, fun _ => QExt.of_eq rfl, fun _ => CarKeep.of_eq rfl⟩ hm h
  intro p hp; cases p <;> first | rfl | exact absurd hp (by decide) | (rename_i b; cases b <;> first | rfl | exact absurd hp (by decide))

theorem Touches.upd_net {m : Nat} {s0 s : State} {v0 : NetSt} (hm : 268435456 &&& m = 268435456) (h : Touches m s0 s) :
    Touches m s0 { s with net := v0 } := by
  refine Touches.comp (M := 268435456) (s := s) ⟨?_, fun i => ⟨i.regs, i.sea, i.sys, i.tap⟩, fun _ => QExt.of_eq rfl, fun _ => CarKeep.of_eq rfl⟩ hm h
  intro p hp; cases p <;> first | rfl | exact absurd hp (by decide) | (rename_i b; cases b <;> first | rfl | exact absurd hp (by decide))

theorem Touches.upd_can {m : Nat} {s0 s : State} {v0 : CanSt} (hm : 536870912 &&& m = 536870912) (h : Touches m s0 s) :
    Touches m s0 { s with can := v0 } := by
  refine Touches.comp (M := 536870912) (s := s) ⟨?_, fun i => ⟨i.regs, i.sea, i.sys, i.tap⟩, fun _ => QExt.of_eq rfl, fun _ => CarKeep.of_eq rfl⟩ hm h
  intro p hp; cases p <;> first | rfl | exact absurd hp (by decide) | (rename_i b; cases b <;> first | rfl | exact absurd hp (by decide))

theorem Touches.upd_clk {m : Nat} {s0 s : State} {v0 : ClkSt} (hm : 1073741824 &&& m = 1073741824) (h : Touches m s0 s) :
    Touches m s0 { s with clk := v0 } := by
  refine Touches.comp (M := 1073741824) (s := s) ⟨?_, fun i => ⟨i.regs, i.sea, i.sys, i.tap⟩, fun _ => QExt.of_eq rfl, fun _ => CarKeep.of_eq rfl⟩ hm h
  intro p hp; cases p <;> first | rfl | exact absurd hp (by decide) | (rename_i b; cases b <;> first | rfl | exact absurd hp (by decide))

theorem Touches.upd_rel {m : Nat} {s0 s : State} {v0 : RelSt} (hm : 2147483648 &&& m = 2147483648) (h : Touches m s0 s) :
    Touches m s0 { s with rel := v0 } := by
  refine Touches.comp (M := 2147483648) (s := s) ⟨?_, fun i => ⟨i.regs, i.sea, i.sys, i.tap⟩, fun _ => QExt.of_eq rfl, fun _ => CarKeep.of_eq rfl⟩ hm h
  intro p hp; cases p <;> first | rfl | exact absurd hp (by decide) | (rename_i b; cases b <;> first | rfl | exact absurd hp (by decide))

theorem Touches.upd_cfg {m : Nat} {s0 s : State} {v0 : CfgSt} (hm : 4294967296 &&& m = 4294967296) (h : Touches m s0 s) :
    Touches m s0 { s with cfg := v0 } := by
  refine Touches.comp (M := 4294967296) (s := s) ⟨?_, fun i => ⟨i.regs, i.sea, i.sys, i.tap⟩, fun _ => QExt.of_eq rfl, fun _ => CarKeep.of_eq rfl⟩ hm h
  intro p hp; cases p <;> first | rfl | exact absurd hp (by decide) | (rename_i b; cases b <;> first | rfl | exact absurd hp (by decide))

theorem Touches.upd_tap {m : Nat} {s0 s : State} {v0 : TapSt} (htap : s.tap.confined s.pwr.porst → TapSt.confined v0 s.pwr.porst) (hm : 8589934592 &&& m = 8589934592) (h : Touches m s0 s) :
    Touches m s0 { s with tap := v0 } := by
  refine Touches.comp (M := 8589934592) (s := s) ⟨?_, fun i => ⟨i.regs, i.sea, i.sys, htap i.tap⟩, fun _ => QExt.of_eq rfl, fun _ => CarKeep.of_eq rfl⟩ hm h
  intro p hp; cases p <;> first | rfl | exact absurd hp (by decide) | (rename_i b; cases b <;> first | rfl | exact absurd hp (by decide))

theorem Touches.upd_out {m : Nat} {s0 s : State} {v0 : List Output} (hm : 34359738368 &&& m = 34359738368) (h : Touches m s0 s) :
    Touches m s0 { s with out := v0 } := by
  refine Touches.comp (M := 34359738368) (s := s) ⟨?_, fun i => ⟨i.regs, i.sea, i.sys, i.tap⟩, fun _ => QExt.of_eq rfl, fun _ => CarKeep.of_eq rfl⟩ hm h
  intro p hp; cases p <;> first | rfl | exact absurd hp (by decide) | (rename_i b; cases b <;> first | rfl | exact absurd hp (by decide))

theorem Touches.upd_free {m : Nat} {s0 s : State} {v0 : Nat} (hm : 68719476736 &&& m = 68719476736) (h : Touches m s0 s) :
    Touches m s0 { s with free := v0 } := by
  refine Touches.comp (M := 68719476736) (s := s) ⟨?_, fun i => ⟨i.regs, i.sea, i.sys, i.tap⟩, fun _ => QExt.of_eq rfl, fun _ => CarKeep.of_eq rfl⟩ hm h
  intro p hp; cases p <;> first | rfl | exact absurd hp (by decide) | (rename_i b; cases b <;> first | rfl | exact absurd hp (by decide))

theorem Touches.upd_now_out_fresh {m : Nat} {s0 s : State} {v0 : Instant} {v1 : List Output} {v2 : KMap Nat} (hm : 51539607552 &&& m = 51539607552) (h : Touches m s0 s) :
    Touches m s0 { s with now := v0, out := v1, fresh := v2 } := by
  refine Touches.comp (M := 51539607552) (s := s) ⟨?_, fun i => ⟨i.regs, i.sea, i.sys, i.tap⟩, fun _ => QExt.of_eq rfl, fun _ => CarKeep.of_eq rfl⟩ hm h
  intro p hp; cases p <;> first | rfl | exact absurd hp (by decide) | (rename_i b; cases b <;> first | rfl | exact absurd hp (by decide))

theorem Touches.upd_trip_loop {m : Nat} {s0 s : State} {v0 : TripSt} {v1 : LoopSt} (hm : 50331648 &&& m = 50331648) (h : Touches m s0 s) :
    Touches m s0 { s with trip := v0, loop := v1 } := by
  refine Touches.comp (M := 50331648) (s := s) ⟨?_, fun i => ⟨i.regs, i.sea, i.sys, i.tap⟩, fun _ => QExt.of_eq rfl, fun _ => CarKeep.of_eq rfl⟩ hm h
  intro p hp; cases p <;> first | rfl | exact absurd hp (by decide) | (rename_i b; cases b <;> first | rfl | exact absurd hp (by decide))

theorem Touches.upd_husk_safe {m : Nat} {s0 s : State} {v0 : HuskSt} {v1 : SafeSt} (hm : 67239936 &&& m = 67239936) (h : Touches m s0 s) :
    Touches m s0 { s with husk := v0, safe := v1 } := by
  refine Touches.comp (M := 67239936) (s := s) ⟨?_, fun i => ⟨i.regs, i.sea, i.sys, i.tap⟩, fun _ => QExt.of_eq rfl, fun _ => CarKeep.of_eq rfl⟩ hm h
  intro p hp; cases p <;> first | rfl | exact absurd hp (by decide) | (rename_i b; cases b <;> first | rfl | exact absurd hp (by decide))

theorem Touches.upd_pwm_trip_hostq_rel {m : Nat} {s0 s : State} {v0 : PwmSt} {v1 : TripSt} {v2 : HostqSt} {v3 : RelSt} (hc : v0.carriers = s.pwm.carriers) (hm : 2306867200 &&& m = 2306867200) (h : Touches m s0 s) :
    Touches m s0 { s with pwm := v0, trip := v1, hostq := v2, rel := v3 } := by
  refine Touches.comp (M := 2306867200) (s := s) ⟨?_, fun i => ⟨i.regs, i.sea, i.sys, i.tap⟩, fun _ => QExt.of_eq rfl, fun _ => CarKeep.of_eq hc⟩ hm h
  intro p hp; cases p <;> first | rfl | exact absurd hp (by decide) | (rename_i b; cases b <;> first | rfl | exact absurd hp (by decide))

theorem Touches.upd_pwr_hostq_net_tap {m : Nat} {s0 s : State} {v0 : PwrSt} {v1 : HostqSt} {v2 : NetSt} {v3 : TapSt} (htap : s.tap.confined s.pwr.porst → TapSt.confined v3 v0.porst) (hm : 8993374208 &&& m = 8993374208) (h : Touches m s0 s) :
    Touches m s0 { s with pwr := v0, hostq := v1, net := v2, tap := v3 } := by
  refine Touches.comp (M := 8993374208) (s := s) ⟨?_, fun i => ⟨i.regs, i.sea, i.sys, htap i.tap⟩, fun _ => QExt.of_eq rfl, fun _ => CarKeep.of_eq rfl⟩ hm h
  intro p hp; cases p <;> first | rfl | exact absurd hp (by decide) | (rename_i b; cases b <;> first | rfl | exact absurd hp (by decide))

theorem Touches.upd_husk_trip_safe_rel_cfg {m : Nat} {s0 s : State} {v0 : HuskSt} {v1 : TripSt} {v2 : SafeSt} {v3 : RelSt} {v4 : CfgSt} (hm : 6526468096 &&& m = 6526468096) (h : Touches m s0 s) :
    Touches m s0 { s with husk := v0, trip := v1, safe := v2, rel := v3, cfg := v4 } := by
  refine Touches.comp (M := 6526468096) (s := s) ⟨?_, fun i => ⟨i.regs, i.sea, i.sys, i.tap⟩, fun _ => QExt.of_eq rfl, fun _ => CarKeep.of_eq rfl⟩ hm h
  intro p hp; cases p <;> first | rfl | exact absurd hp (by decide) | (rename_i b; cases b <;> first | rfl | exact absurd hp (by decide))

theorem Touches.upd_husk_sea_trip_loop_safe_hostq {m : Nat} {s0 s : State} {v0 : HuskSt} {v1 : SeaSt} {v2 : TripSt} {v3 : LoopSt} {v4 : SafeSt} {v5 : HostqSt} (hsea : s.sea.canon → v1.canon) (hm : 252837888 &&& m = 252837888) (h : Touches m s0 s) :
    Touches m s0 { s with husk := v0, sea := v1, trip := v2, loop := v3, safe := v4, hostq := v5 } := by
  refine Touches.comp (M := 252837888) (s := s) ⟨?_, fun i => ⟨i.regs, hsea i.sea, i.sys, i.tap⟩, fun _ => QExt.of_eq rfl, fun _ => CarKeep.of_eq rfl⟩ hm h
  intro p hp; cases p <;> first | rfl | exact absurd hp (by decide) | (rename_i b; cases b <;> first | rfl | exact absurd hp (by decide))

theorem Touches.upd_regs_husk_hostq_net {m : Nat} {s0 s : State} {v0 : Regs} {v1 : HuskSt} {v2 : HostqSt} {v3 : NetSt} (hregs : s.regs.canon → v0.canon) (hm : 402849791 &&& m = 402849791) (h : Touches m s0 s) :
    Touches m s0 { s with regs := v0, husk := v1, hostq := v2, net := v3 } := by
  refine Touches.comp (M := 402849791) (s := s) ⟨?_, fun i => ⟨hregs i.regs, i.sea, i.sys, i.tap⟩, fun _ => QExt.of_eq rfl, fun _ => CarKeep.of_eq rfl⟩ hm h
  intro p hp; cases p <;> first | rfl | exact absurd hp (by decide) | (rename_i b; cases b <;> first | rfl | exact absurd hp (by decide))

theorem Touches.upd_regs_sys_husk_pwr_sea_mesh_meas_pos_pwm_ {m : Nat} {s0 s : State} {v0 : Regs} {v1 : SysSt} {v2 : HuskSt} {v3 : PwrSt} {v4 : SeaSt} {v5 : MeasSt} {v6 : PosSt} {v7 : PwmSt} {v8 : TripSt} {v9 : LoopSt} {v10 : SafeSt} {v11 : HostqSt} {v12 : NetSt} {v13 : CanSt} {v14 : ClkSt} {v15 : RelSt} {v16 : CfgSt} {v17 : MeshSt} (hregs : s.regs.canon → v0.canon) (hsea : s.sea.canon → v4.canon) (hsys : s.sys.ordered → v1.ordered) (htap : s.tap.confined s.pwr.porst → TapSt.confined s.tap v3.porst) (hm : 1932735283199 &&& m = 1932735283199) (h : Touches m s0 s) :
    Touches m s0 { s with regs := v0, sys := v1, husk := v2, pwr := v3, sea := v4, mesh := v17, meas := v5, pos := v6, pwm := v7, trip := v8, loop := v9, safe := v10, hostq := v11, net := v12, can := v13, clk := v14, rel := v15, cfg := v16 } := by
  refine Touches.comp (M := 1932735283199) (s := s) ⟨?_, fun i => ⟨hregs i.regs, hsea i.sea, hsys i.sys, htap i.tap⟩, fun hb => absurd hb (by decide), fun hb => absurd hb (by decide)⟩ hm h
  intro p hp; cases p <;> first | rfl | exact absurd hp (by decide) | (rename_i b; cases b <;> first | rfl | exact absurd hp (by decide))

/-- An update of PWR that leaves PORST_N. -/
theorem Touches.upd_pwr_keep {m : Nat} {s0 s : State} {v : PwrSt} (hv : v.porst = s.pwr.porst) (hm : 524288 &&& m = 524288)
    (h : Touches m s0 s) : Touches m s0 { s with pwr := v } := by
  refine Touches.comp (M := 524288) (s := s) ⟨?_, fun i => ⟨i.regs, i.sea, i.sys, hv ▸ i.tap⟩, fun _ => QExt.of_eq rfl, fun _ => CarKeep.of_eq rfl⟩ hm h
  intro p hp; cases p <;> first | rfl | exact hv | exact absurd hp (by decide) | (rename_i b; cases b <;> rfl)
end Sys2Proof.Machine
end

