-- ==== Sys2Proof/Laws/Frame1.lean ====
section
/-! SUPPORT. What each operation of the model touches (generated by rule; part 1). -/
set_option Elab.async false

namespace Sys2Proof.Machine

theorem tch_setWord {s a1 a2 a3} : Touches (2 ^ a1.num) s (@State.setWord s a1 a2 a3) := by
  refine ⟨fun p hp => ?_, fun i => ⟨Regs.canon_setBlk i.regs (kwf_kset _ _ (i.regs a1)), i.sea, i.sys, i.tap⟩, fun _ => QExt.of_eq rfl, fun _ => CarKeep.of_eq rfl⟩
  cases p with
  | regs b' => cases a1 <;> cases b' <;> first | rfl | exact absurd hp (by decide)
  | _ => cases a1 <;> rfl

theorem tch_noteSet {s a1 a2 a3} : Touches (0) s (@State.noteSet s a1 a2 a3) := by
  unfold State.noteSet
  try dsimp only
  refine Touches.upd_fresh ?_
  exact Touches.refl _ _

theorem tch_setF {s a1 a2 a3 a4} : Touches (2 ^ a1.blk.num) s (@State.setF s a1 a2 a3 a4) := by
  unfold State.setF
  try dsimp only
  refine Touches.comp tch_noteSet (by first | decide | exact Nat.zero_and _ | exact Nat.and_self _ | exact maskR _ _ | exact maskL (maskR _ _) | exact maskL (Nat.and_self _) | exact maskL (by decide) | exact maskL (maskL (by decide)) | exact maskOr (maskL (by decide)) (maskR _ _) | exact maskOr (maskL (by decide)) (maskL (maskR _ _)) | exact maskOr (maskL (by decide)) (Nat.and_self _) | exact maskOr (maskL (maskL (by decide))) (maskR _ _) | exact maskOr (maskL (maskL (by decide))) (maskL (maskR _ _)) | exact maskOr (maskL (maskL (by decide))) (Nat.and_self _)) ?_
  refine Touches.comp tch_setWord (by first | decide | exact Nat.zero_and _ | exact Nat.and_self _ | exact maskR _ _ | exact maskL (maskR _ _) | exact maskL (Nat.and_self _) | exact maskL (by decide) | exact maskL (maskL (by decide)) | exact maskOr (maskL (by decide)) (maskR _ _) | exact maskOr (maskL (by decide)) (maskL (maskR _ _)) | exact maskOr (maskL (by decide)) (Nat.and_self _) | exact maskOr (maskL (maskL (by decide))) (maskR _ _) | exact maskOr (maskL (maskL (by decide))) (maskL (maskR _ _)) | exact maskOr (maskL (maskL (by decide))) (Nat.and_self _)) ?_
  exact Touches.refl _ _

theorem tch_setB {s a1 a2 a3 a4} : Touches (2 ^ a1.blk.num) s (@State.setB s a1 a2 a3 a4) := by
  unfold State.setB
  try dsimp only
  refine Touches.comp tch_setF (by first | decide | exact Nat.zero_and _ | exact Nat.and_self _ | exact maskR _ _ | exact maskL (maskR _ _) | exact maskL (Nat.and_self _) | exact maskL (by decide) | exact maskL (maskL (by decide)) | exact maskOr (maskL (by decide)) (maskR _ _) | exact maskOr (maskL (by decide)) (maskL (maskR _ _)) | exact maskOr (maskL (by decide)) (Nat.and_self _) | exact maskOr (maskL (maskL (by decide))) (maskR _ _) | exact maskOr (maskL (maskL (by decide))) (maskL (maskR _ _)) | exact maskOr (maskL (maskL (by decide))) (Nat.and_self _)) ?_
  exact Touches.refl _ _

theorem tch_incF {s a1 a2 a3 a4} : Touches (2 ^ a1.blk.num) s (@State.incF s a1 a2 a3 a4) := by
  unfold State.incF
  try dsimp only
  refine Touches.comp tch_setF (by first | decide | exact Nat.zero_and _ | exact Nat.and_self _ | exact maskR _ _ | exact maskL (maskR _ _) | exact maskL (Nat.and_self _) | exact maskL (by decide) | exact maskL (maskL (by decide)) | exact maskOr (maskL (by decide)) (maskR _ _) | exact maskOr (maskL (by decide)) (maskL (maskR _ _)) | exact maskOr (maskL (by decide)) (Nat.and_self _) | exact maskOr (maskL (maskL (by decide))) (maskR _ _) | exact maskOr (maskL (maskL (by decide))) (maskL (maskR _ _)) | exact maskOr (maskL (maskL (by decide))) (Nat.and_self _)) ?_
  exact Touches.refl _ _

theorem tch_post {s a1 a2 a3 a4} : Touches (65537) s (@State.post s a1 a2 a3 a4) := by
  unfold State.post
  dsimp only
  split
  · rename_i h
    exact Touches.upd_sys (fun i => SysSt.ordered_queue i (by simp only [List.length_append, List.length_cons, List.length_nil]; omega)) ⟨_, rfl⟩ (by decide) (Touches.refl _ _)
  · refine Touches.upd_sys (s := s.incF _) (fun h => h) ⟨[], (List.append_nil _).symm⟩ (by decide) ?_
    exact tch_incF.mono (by decide)

theorem tch_testOver {s} : Touches (2147491840) s (@State.testOver s) := by
  unfold State.testOver
  try dsimp only
  refine Touches.upd_rel (by decide) ?_
  refine Touches.comp tch_setF (by decide) ?_
  exact Touches.refl _ _

theorem tch_endTest {s} : Touches (2147491840) s (@State.endTest s) := by
  unfold State.endTest
  try dsimp only
  refine Touches.doIf ?_ (fun _ h0 => ?_)
  · refine Touches.comp tch_testOver (by decide) ?_
    exact Touches.refl _ _
  · refine Touches.comp tch_setB (by decide) ?_
    exact h0

theorem tch_skipTest {s a1} : Touches (2147557377) s (@State.skipTest s a1) := by
  unfold State.skipTest
  try dsimp only
  refine Touches.comp tch_endTest (by decide) ?_
  refine Touches.comp tch_post (by decide) ?_
  refine Touches.comp tch_incF (by decide) ?_
  exact Touches.refl _ _

theorem tch_emit {s a1} : Touches (34359738368) s (@State.emit s a1) := by
  unfold State.emit
  try dsimp only
  refine Touches.upd_out (by decide) ?_
  exact Touches.refl _ _

theorem tch_send {s a1} : Touches (1133871366144) s (@State.send s a1) := by
  unfold State.send
  try dsimp only
  refine Touches.upd_mesh (by decide) ?_
  refine Touches.comp tch_emit (by decide) ?_
  exact Touches.refl _ _

theorem tch_sendLoad {s a1 a2 a3} : Touches (1133871366144) s (@State.sendLoad s a1 a2 a3) := by
  unfold State.sendLoad
  try dsimp only
  refine Touches.foldl ?_ (fun _ _ h0 => ?_)
  · exact Touches.refl _ _
  · refine Touches.comp tch_send (by decide) ?_
    exact h0

theorem tch_beginMig {s a1} : Touches (1133904986177) s (@State.beginMig s a1) := by
  unfold State.beginMig
  try dsimp only
  refine Touches.comp tch_post (by decide) ?_
  refine Touches.foldl ?_ (fun _ _ h0 => ?_)
  · refine Touches.comp tch_setF (by decide) ?_
    refine Touches.comp tch_setF (by decide) ?_
    refine Touches.comp tch_setF (by decide) ?_
    refine Touches.comp tch_setF (by decide) ?_
    refine Touches.upd_loop (by decide) ?_
    exact Touches.refl _ _
  · refine Touches.comp tch_sendLoad (by decide) ?_
    exact h0

theorem tch_queueMig {s a1} : Touches (33554432) s (@State.queueMig s a1) := by
  unfold State.queueMig
  try dsimp only
  refine Touches.upd_loop (by decide) ?_
  exact Touches.refl _ _

theorem tch_freeNext {s a1 a2} : Touches (2181046272) s (@State.freeNext s a1 a2) := by
  unfold State.freeNext
  try dsimp only
  split
  · refine Touches.comp tch_queueMig (by decide) ?_
    exact Touches.refl _ _
  · refine Touches.comp tch_endTest (by decide) ?_
    exact Touches.refl _ _

theorem tch_setMoving {s a1 a2} : Touches (2147483648) s (@State.setMoving s a1 a2) := by
  unfold State.setMoving
  try dsimp only
  refine Touches.upd_rel (by decide) ?_
  exact Touches.refl _ _

theorem tch_beginTests {s a1} : Touches (2147491840) s (@State.beginTests s a1) := by
  unfold State.beginTests
  try dsimp only
  refine Touches.upd_rel (by decide) ?_
  refine Touches.comp tch_setF (by decide) ?_
  refine Touches.comp tch_setF (by decide) ?_
  refine Touches.comp tch_setF (by decide) ?_
  exact Touches.refl _ _

theorem tch_relMigEnd {s a1} : Touches (2181111809) s (@State.relMigEnd s a1) := by
  unfold State.relMigEnd
  try dsimp only
  split
  · exact Touches.refl _ _
  · refine Touches.ite ?_ ?_
    · split
      · refine Touches.comp tch_beginTests (by decide) ?_
        refine Touches.comp tch_setMoving (by decide) ?_
        exact Touches.refl _ _
      · refine Touches.comp tch_endTest (by decide) ?_
        exact Touches.refl _ _
      · refine Touches.comp tch_freeNext (by decide) ?_
        exact Touches.refl _ _
    · refine Touches.ite ?_ ?_
      · refine Touches.comp tch_freeNext (by decide) ?_
        refine Touches.comp tch_setMoving (by decide) ?_
        exact Touches.refl _ _
      · refine Touches.comp tch_skipTest (by decide) ?_
        exact Touches.refl _ _

theorem tch_startWaiting {s a1} : Touches (1136052478017) s (@State.startWaiting s a1) := by
  unfold State.startWaiting
  try dsimp only
  split
  · refine Touches.ite ?_ ?_
    · refine Touches.comp tch_relMigEnd (by decide) ?_
      exact Touches.refl _ _
    · refine Touches.ite ?_ ?_
      · refine Touches.comp tch_beginMig (by decide) ?_
        exact Touches.refl _ _
      · refine Touches.comp tch_skipTest (by decide) ?_
        exact Touches.refl _ _
  · exact Touches.refl _ _

theorem tch_nextMig {s a1} : Touches (1136052478017) s (@State.nextMig s a1) := by
  induction a1 generalizing s with
  | zero => unfold State.nextMig; exact Touches.refl _ _
  | succ n ih =>
    unfold State.nextMig
    split
    · refine Touches.comp ih (by decide) ?_
      refine Touches.comp tch_startWaiting (by decide) ?_
      exact Touches.upd_loop (by decide) (Touches.refl _ _)
    · exact Touches.refl _ _

theorem tch_setDesc {s a1 a2} : Touches (134217728) s (@State.setDesc s a1 a2) := by
  unfold State.setDesc
  try dsimp only
  refine Touches.upd_hostq (by decide) ?_
  exact Touches.refl _ _

theorem tch_dropDesc {s a1} : Touches (134217736) s (@State.dropDesc s a1) := by
  unfold State.dropDesc
  try dsimp only
  split
  · exact Touches.refl _ _
  · refine Touches.ite ?_ ?_
    · refine Touches.upd_hostq (by decide) ?_
      exact Touches.refl _ _
    · refine Touches.comp tch_setF (by decide) ?_
      refine Touches.doIf ?_ (fun _ h0 => ?_)
      · refine Touches.comp tch_setF (by decide) ?_
        refine Touches.upd_hostq (by decide) ?_
        exact Touches.refl _ _
      · refine Touches.comp tch_setF (by decide) ?_
        exact h0

theorem tch_finishOwn {s a1 a2 a3 a4 a5 a6 a7} : Touches (134217736) s (@State.finishOwn s a1 a2 a3 a4 a5 a6 a7) := by
  unfold State.finishOwn
  try dsimp only
  refine Touches.ite ?_ ?_
  · exact Touches.refl _ _
  · refine Touches.ite ?_ ?_
    · refine Touches.comp tch_dropDesc (by decide) ?_
      exact Touches.refl _ _
    · refine Touches.upd_hostq (by decide) ?_
      refine Touches.comp tch_setDesc (by decide) ?_
      exact Touches.refl _ _

theorem tch_scheduleEnd {s a1} : Touches (134217736) s (@State.scheduleEnd s a1) := by
  unfold State.scheduleEnd
  try dsimp only
  split
  · refine Touches.ite ?_ ?_
    · refine Touches.comp tch_finishOwn (by decide) ?_
      exact Touches.refl _ _
    · exact Touches.refl _ _
  · exact Touches.refl _ _

theorem tch_modDesc {s a1 a2} : Touches (134217728) s (@State.modDesc s a1 a2) := by
  unfold State.modDesc
  try dsimp only
  split
  · refine Touches.comp tch_setDesc (by decide) ?_
    exact Touches.refl _ _
  · exact Touches.refl _ _

theorem tch_finish {s a1 a2 a3 a4 a5 a6} : Touches (134283273) s (@State.finish s a1 a2 a3 a4 a5 a6) := by
  unfold State.finish
  try dsimp only
  split
  · exact Touches.refl _ _
  · split
    · refine Touches.comp tch_finishOwn (by decide) ?_
      exact Touches.refl _ _
    · refine Touches.comp tch_scheduleEnd (by decide) ?_
      refine Touches.doIf ?_ (fun _ h0 => ?_)
      · refine Touches.comp tch_dropDesc (by decide) ?_
        exact Touches.refl _ _
      · refine Touches.comp tch_modDesc (by decide) ?_
        refine Touches.comp tch_post (by decide) ?_
        exact h0

theorem tch_reply {s a1 a2 a3 a4 a5 a6 a7} : Touches (1134005649417) s (@State.reply s a1 a2 a3 a4 a5 a6 a7) := by
  unfold State.reply
  try dsimp only
  split
  · unfold State.route
    try dsimp only
    refine Touches.ite ?_ ?_
    · exact Touches.refl _ _
    · refine Touches.ite ?_ ?_
      · refine Touches.comp tch_finish (by decide) ?_
        refine Touches.comp tch_send (by decide) ?_
        exact Touches.refl _ _
      · refine Touches.comp tch_post (by decide) ?_
        exact Touches.refl _ _
  · refine Touches.comp tch_finish (by decide) ?_
    refine Touches.comp tch_send (by decide) ?_
    exact Touches.refl _ _

theorem tch_endMig {s a1 a2} : Touches (1136186695753) s (@State.endMig s a1 a2) := by
  unfold State.endMig
  try dsimp only
  split
  · exact Touches.refl _ _
  · refine Touches.comp tch_nextMig (by decide) ?_
    refine Touches.doIf ?_ (fun _ h0 => ?_)
    · split
      · refine Touches.comp tch_reply (by decide) ?_
        refine Touches.upd_loop (by decide) ?_
        refine Touches.comp tch_setF (by decide) ?_
        exact Touches.refl _ _
      · refine Touches.upd_loop (by decide) ?_
        refine Touches.comp tch_setF (by decide) ?_
        exact Touches.refl _ _
    · refine Touches.comp tch_relMigEnd (by decide) ?_
      exact h0

theorem tch_abortMig {s} : Touches (1136186695753) s (@State.abortMig s) := by
  unfold State.abortMig
  try dsimp only
  split
  · exact Touches.refl _ _
  · refine Touches.comp tch_endMig (by decide) ?_
    refine Touches.comp tch_post (by decide) ?_
    refine Touches.comp tch_setB (by decide) ?_
    refine Touches.comp tch_send (by decide) ?_
    exact Touches.refl _ _

theorem tch_sendWins {s a1} : Touches (1133871366144) s (@State.sendWins s a1) := by
  unfold State.sendWins
  try dsimp only
  refine Touches.foldl ?_ (fun _ _ h0 => ?_)
  · exact Touches.refl _ _
  · refine Touches.comp tch_send (by decide) ?_
    exact h0

theorem tch_setPi {s a1 a2} : Touches (4194304) s (@State.setPi s a1 a2) := by
  unfold State.setPi
  try dsimp only
  refine Touches.upd_pos (by decide) ?_
  exact Touches.refl _ _

theorem tch_sendPos {s a1 a2 a3 a4} : Touches (1133875560448) s (@State.sendPos s a1 a2 a3 a4) := by
  unfold State.sendPos
  try dsimp only
  refine Touches.doIf ?_ (fun _ h0 => ?_)
  · refine Touches.comp tch_setPi (by decide) ?_
    exact Touches.refl _ _
  · refine Touches.foldl ?_ (fun _ _ h1 => ?_)
    · exact h0
    · refine Touches.comp tch_send (by decide) ?_
      exact h1

theorem tch_raise {s a1 a2 a3 a4 a5 a6} : Touches (65537 ||| 2 ^ a1.blk.num) s (@State.raise s a1 a2 a3 a4 a5 a6) := by
  unfold State.raise
  try dsimp only
  refine Touches.ite ?_ ?_
  · refine Touches.comp tch_noteSet (by first | decide | exact Nat.zero_and _ | exact Nat.and_self _ | exact maskR _ _ | exact maskL (maskR _ _) | exact maskL (Nat.and_self _) | exact maskL (by decide) | exact maskL (maskL (by decide)) | exact maskOr (maskL (by decide)) (maskR _ _) | exact maskOr (maskL (by decide)) (maskL (maskR _ _)) | exact maskOr (maskL (by decide)) (Nat.and_self _) | exact maskOr (maskL (maskL (by decide))) (maskR _ _) | exact maskOr (maskL (maskL (by decide))) (maskL (maskR _ _)) | exact maskOr (maskL (maskL (by decide))) (Nat.and_self _)) ?_
    exact Touches.refl _ _
  · refine Touches.comp tch_post (by first | decide | exact Nat.zero_and _ | exact Nat.and_self _ | exact maskR _ _ | exact maskL (maskR _ _) | exact maskL (Nat.and_self _) | exact maskL (by decide) | exact maskL (maskL (by decide)) | exact maskOr (maskL (by decide)) (maskR _ _) | exact maskOr (maskL (by decide)) (maskL (maskR _ _)) | exact maskOr (maskL (by decide)) (Nat.and_self _) | exact maskOr (maskL (maskL (by decide))) (maskR _ _) | exact maskOr (maskL (maskL (by decide))) (maskL (maskR _ _)) | exact maskOr (maskL (maskL (by decide))) (Nat.and_self _)) ?_
    refine Touches.comp tch_setB (by first | decide | exact Nat.zero_and _ | exact Nat.and_self _ | exact maskR _ _ | exact maskL (maskR _ _) | exact maskL (Nat.and_self _) | exact maskL (by decide) | exact maskL (maskL (by decide)) | exact maskOr (maskL (by decide)) (maskR _ _) | exact maskOr (maskL (by decide)) (maskL (maskR _ _)) | exact maskOr (maskL (by decide)) (Nat.and_self _) | exact maskOr (maskL (maskL (by decide))) (maskR _ _) | exact maskOr (maskL (maskL (by decide))) (maskL (maskR _ _)) | exact maskOr (maskL (maskL (by decide))) (Nat.and_self _)) ?_
    exact Touches.refl _ _

theorem tch_setBitF {s a1 a2 a3 a4 a5} : Touches (2 ^ a1.blk.num) s (@State.setBitF s a1 a2 a3 a4 a5) := by
  unfold State.setBitF
  try dsimp only
  refine Touches.comp tch_noteSet (by first | decide | exact Nat.zero_and _ | exact Nat.and_self _ | exact maskR _ _ | exact maskL (maskR _ _) | exact maskL (Nat.and_self _) | exact maskL (by decide) | exact maskL (maskL (by decide)) | exact maskOr (maskL (by decide)) (maskR _ _) | exact maskOr (maskL (by decide)) (maskL (maskR _ _)) | exact maskOr (maskL (by decide)) (Nat.and_self _) | exact maskOr (maskL (maskL (by decide))) (maskR _ _) | exact maskOr (maskL (maskL (by decide))) (maskL (maskR _ _)) | exact maskOr (maskL (maskL (by decide))) (Nat.and_self _)) ?_
  refine Touches.comp tch_setWord (by first | decide | exact Nat.zero_and _ | exact Nat.and_self _ | exact maskR _ _ | exact maskL (maskR _ _) | exact maskL (Nat.and_self _) | exact maskL (by decide) | exact maskL (maskL (by decide)) | exact maskOr (maskL (by decide)) (maskR _ _) | exact maskOr (maskL (by decide)) (maskL (maskR _ _)) | exact maskOr (maskL (by decide)) (Nat.and_self _) | exact maskOr (maskL (maskL (by decide))) (maskR _ _) | exact maskOr (maskL (maskL (by decide))) (maskL (maskR _ _)) | exact maskOr (maskL (maskL (by decide))) (Nat.and_self _)) ?_
  exact Touches.refl _ _

theorem tch_postLimited {s a1 a2 a3 a4 a5} : Touches (65537) s (@State.postLimited s a1 a2 a3 a4 a5) := by
  unfold State.postLimited
  try dsimp only
  refine Touches.ite ?_ ?_
  · refine Touches.upd_sys (fun h => h) ⟨_, (by first | rfl | exact (List.append_nil _).symm)⟩ (by decide) ?_
    refine Touches.comp tch_post (by decide) ?_
    exact Touches.refl _ _
  · exact Touches.refl _ _

theorem tch_interlock {s a1} : Touches (65665) s (@State.interlock s a1) := by
  unfold State.interlock
  try dsimp only
  refine Touches.comp tch_postLimited (by decide) ?_
  refine Touches.comp tch_setB (by decide) ?_
  refine Touches.comp tch_incF (by decide) ?_
  exact Touches.refl _ _

theorem tch_setChan {s a1 a2} : Touches (8388608) s (@State.setChan s a1 a2) := by
  unfold State.setChan
  try dsimp only
  refine Touches.upd_pwm rfl (by decide) ?_
  exact Touches.refl _ _

theorem tch_settlePin {s a1 a2 a3} : Touches (34368192641) s (@State.settlePin s a1 a2 a3) := by
  unfold State.settlePin
  try dsimp only
  refine Touches.ite ?_ ?_
  · refine Touches.ite ?_ ?_
    · refine Touches.comp tch_setChan (by decide) ?_
      exact Touches.refl _ _
    · exact Touches.refl _ _
  · split
    · refine Touches.ite ?_ ?_
      · refine Touches.comp tch_emit (by decide) ?_
        refine Touches.comp tch_setChan (by decide) ?_
        exact Touches.refl _ _
      · refine Touches.ite ?_ ?_
        · exact Touches.refl _ _
        · refine Touches.doIf ?_ (fun _ h0 => ?_)
          · refine Touches.comp tch_setChan (by decide) ?_
            exact Touches.refl _ _
          · refine Touches.comp tch_interlock (by decide) ?_
            exact h0
    · refine Touches.ite ?_ ?_
      · exact Touches.refl _ _
      · refine Touches.doIf ?_ (fun _ h0 => ?_)
        · refine Touches.comp tch_setChan (by decide) ?_
          exact Touches.refl _ _
        · refine Touches.comp tch_interlock (by decide) ?_
          exact h0

theorem tch_settlePins {s a1} : Touches (34368192641) s (@State.settlePins s a1) := by
  unfold State.settlePins
  try dsimp only
  refine Touches.foldl ?_ (fun _ _ h0 => ?_)
  · refine Touches.foldl ?_ (fun _ _ h0 => ?_)
    · refine Touches.foldl ?_ (fun _ _ h0 => ?_)
      · exact Touches.refl _ _
      · refine Touches.ite ?_ ?_
        · refine Touches.comp tch_settlePin (by decide) ?_
          exact h0
        · exact h0
    · refine Touches.ite ?_ ?_
      · refine Touches.comp tch_settlePin (by decide) ?_
        exact h0
      · exact h0
  · refine Touches.ite ?_ ?_
    · refine Touches.comp tch_settlePin (by decide) ?_
      exact h0
    · exact h0

theorem tch_setLeg {s a1 a2 a3} : Touches (8388608) s (@State.setLeg s a1 a2 a3) := by
  unfold State.setLeg
  try dsimp only
  refine Touches.upd_pwm rfl (by decide) ?_
  exact Touches.refl _ _

theorem tch_legDrive {s a1 a2 a3 a4} : Touches (8388608) s (@State.legDrive s a1 a2 a3 a4) := by
  unfold State.legDrive
  try dsimp only
  refine Touches.ite ?_ ?_
  · refine Touches.comp tch_setLeg (by decide) ?_
    exact Touches.refl _ _
  · refine Touches.ite ?_ ?_
    · refine Touches.comp tch_setLeg (by decide) ?_
      exact Touches.refl _ _
    · refine Touches.ite ?_ ?_
      · refine Touches.comp tch_setChan (by decide) ?_
        refine Touches.comp tch_setChan (by decide) ?_
        refine Touches.comp tch_setLeg (by decide) ?_
        exact Touches.refl _ _
      · refine Touches.comp tch_setChan (by decide) ?_
        refine Touches.comp tch_setChan (by decide) ?_
        refine Touches.comp tch_setLeg (by decide) ?_
        exact Touches.refl _ _

theorem tch_shortPulse {s a1} : Touches (98433) s (@State.shortPulse s a1) := by
  unfold State.shortPulse
  try dsimp only
  refine Touches.ite ?_ ?_
  · refine Touches.comp tch_raise (by decide) ?_
    refine Touches.comp tch_incF (by decide) ?_
    exact Touches.refl _ _
  · refine Touches.comp tch_raise (by decide) ?_
    refine Touches.comp tch_incF (by decide) ?_
    exact Touches.refl _ _

theorem tch_stamp {s a1 a2 a3 a4} : Touches (32896) s (@State.stamp s a1 a2 a3 a4) := by
  unfold State.stamp
  try dsimp only
  refine Touches.ite ?_ ?_
  · refine Touches.comp tch_setF (by decide) ?_
    refine Touches.comp tch_setF (by decide) ?_
    exact Touches.refl _ _
  · refine Touches.comp tch_setF (by decide) ?_
    refine Touches.comp tch_setF (by decide) ?_
    exact Touches.refl _ _

theorem tch_stampLate {s a1 a2 a3 a4} : Touches (8421504) s (@State.stampLate s a1 a2 a3 a4) := by
  unfold State.stampLate
  try dsimp only
  refine Touches.ite ?_ ?_
  · refine Touches.comp tch_stamp (by decide) ?_
    refine Touches.comp tch_setChan (by decide) ?_
    refine Touches.comp tch_stamp (by decide) ?_
    refine Touches.comp tch_setChan (by decide) ?_
    exact Touches.refl _ _
  · refine Touches.comp tch_stamp (by decide) ?_
    refine Touches.comp tch_setChan (by decide) ?_
    exact Touches.refl _ _

theorem tch_doEdge {s a1 a2 a3} : Touches (8487041) s (@State.doEdge s a1 a2 a3) := by
  unfold State.doEdge
  try dsimp only
  refine Touches.ite ?_ ?_
  · refine Touches.comp tch_setChan (by decide) ?_
    refine Touches.doIf ?_ (fun _ h0 => ?_)
    · split
      · refine Touches.comp tch_stampLate (by decide) ?_
        refine Touches.comp tch_setChan (by decide) ?_
        exact Touches.refl _ _
      · refine Touches.comp tch_setChan (by decide) ?_
        exact Touches.refl _ _
    · refine Touches.comp tch_shortPulse (by decide) ?_
      exact h0
  · refine Touches.comp tch_legDrive (by decide) ?_
    refine Touches.doIf ?_ (fun _ h0 => ?_)
    · split
      · refine Touches.comp tch_stampLate (by decide) ?_
        refine Touches.comp tch_setChan (by decide) ?_
        exact Touches.refl _ _
      · refine Touches.comp tch_setChan (by decide) ?_
        exact Touches.refl _ _
    · refine Touches.comp tch_shortPulse (by decide) ?_
      exact h0

theorem tch_runEdges {s a1 a2 a3} : Touches (8487041) s (@State.runEdges s a1 a2 a3) := by
  unfold State.runEdges
  try dsimp only
  refine Touches.foldl ?_ (fun _ _ h0 => ?_)
  · refine Touches.foldl ?_ (fun _ _ h0 => ?_)
    · refine Touches.foldl ?_ (fun _ _ h0 => ?_)
      · exact Touches.refl _ _
      · split
        · refine Touches.ite ?_ ?_
          · refine Touches.comp tch_doEdge (by decide) ?_
            exact h0
          · exact h0
        · exact h0
    · refine Touches.comp tch_setChan (by decide) ?_
      exact h0
  · refine Touches.comp tch_setChan (by decide) ?_
    exact h0

theorem tch_clampDuty {s a1 a2 a3 a4} : Touches (98305) s (@State.clampDuty s a1 a2 a3 a4) := by
  unfold State.clampDuty
  try dsimp only
  refine Touches.doIf ?_ (fun _ h0 => ?_)
  · exact Touches.refl _ _
  · refine Touches.comp tch_raise (by decide) ?_
    exact h0

theorem tch_beginHalf {s a1 a2 a3} : Touches (8487041) s (@State.beginHalf s a1 a2 a3) := by
  unfold State.beginHalf
  try dsimp only
  refine Touches.foldl ?_ (fun _ _ h0 => ?_)
  · refine Touches.comp tch_setLeg (by decide) ?_
    exact Touches.refl _ _
  · refine Touches.comp tch_clampDuty (by decide) ?_
    refine Touches.comp tch_setChan (by decide) ?_
    refine Touches.doIf ?_ (fun _ h1 => ?_)
    · exact h0
    · refine Touches.comp tch_stampLate (by decide) ?_
      exact h1

theorem tch_runLeg {s a1 a2 a3} : Touches (8487041) s (@State.runLeg s a1 a2 a3) := by
  unfold State.runLeg
  try dsimp only
  refine Touches.comp tch_runEdges (by decide) ?_
  refine Touches.foldl ?_ (fun _ _ h0 => ?_)
  · refine Touches.comp tch_setLeg (by decide) ?_
    exact Touches.refl _ _
  · refine Touches.comp tch_beginHalf (by decide) ?_
    refine Touches.comp tch_runEdges (by decide) ?_
    exact h0

theorem tch_advance {s a1 a2} : Touches (34368225409) s (@State.advance s a1 a2) := by
  unfold State.advance
  try dsimp only
  refine Touches.comp tch_settlePins (by decide) ?_
  refine Touches.foldl ?_ (fun _ _ h0 => ?_)
  · exact Touches.refl _ _
  · refine Touches.foldl ?_ (fun _ _ h1 => ?_)
    · exact h0
    · refine Touches.comp tch_runLeg (by decide) ?_
      exact h1

theorem tch_setTarget {s a1 a2} : Touches (16777216) s (@State.setTarget s a1 a2) := by
  unfold State.setTarget
  try dsimp only
  refine Touches.upd_trip (by decide) ?_
  exact Touches.refl _ _

theorem tch_lowOn {s a1 a2 a3} : Touches (8388608) s (@State.lowOn s a1 a2 a3) := by
  unfold State.lowOn
  try dsimp only
  refine Touches.ite ?_ ?_
  · exact Touches.refl _ _
  · refine Touches.comp tch_setChan (by decide) ?_
    exact Touches.refl _ _

theorem tch_heldBits {s a1 a2} : Touches (257) s (@State.heldBits s a1 a2) := by
  unfold State.heldBits
  try dsimp only
  refine Touches.comp tch_setB (by decide) ?_
  refine Touches.foldl ?_ (fun _ _ h0 => ?_)
  · exact Touches.refl _ _
  · refine Touches.comp tch_setBitF (by decide) ?_
    refine Touches.comp tch_setB (by decide) ?_
    exact h0

theorem tch_putAction {s a1 a2} : Touches (256) s (@State.putAction s a1 a2) := by
  unfold State.putAction
  try dsimp only
  refine Touches.foldl ?_ (fun _ _ h0 => ?_)
  · exact Touches.refl _ _
  · refine Touches.comp tch_setF (by decide) ?_
    exact h0

theorem tch_freeTarget {s a1} : Touches (25231617) s (@State.freeTarget s a1) := by
  unfold State.freeTarget
  try dsimp only
  refine Touches.comp tch_post (by decide) ?_
  refine Touches.comp tch_setTarget (by decide) ?_
  refine Touches.foldl ?_ (fun _ _ h0 => ?_)
  · refine Touches.foldl ?_ (fun _ _ h0 => ?_)
    · refine Touches.comp tch_putAction (by decide) ?_
      refine Touches.comp tch_heldBits (by decide) ?_
      exact Touches.refl _ _
    · refine Touches.foldl ?_ (fun _ _ h1 => ?_)
      · refine Touches.comp tch_setB (by decide) ?_
        refine Touches.comp tch_setB (by decide) ?_
        exact h0
      · refine Touches.comp tch_setChan (by decide) ?_
        exact h1
  · refine Touches.foldl ?_ (fun _ _ h1 => ?_)
    · exact h0
    · refine Touches.comp tch_lowOn (by decide) ?_
      exact h1

theorem tch_onset {s a1 a2 a3} : Touches (25264513) s (@State.onset s a1 a2 a3) := by
  unfold State.onset
  try dsimp only
  refine Touches.comp tch_post (by decide) ?_
  refine Touches.comp tch_setTarget (by decide) ?_
  refine Touches.foldl ?_ (fun _ _ h0 => ?_)
  · refine Touches.comp tch_putAction (by decide) ?_
    refine Touches.comp tch_heldBits (by decide) ?_
    exact Touches.refl _ _
  · refine Touches.foldl ?_ (fun _ _ h1 => ?_)
    · refine Touches.comp tch_setF (by decide) ?_
      refine Touches.comp tch_incF (by decide) ?_
      refine Touches.comp tch_setF (by decide) ?_
      exact h0
    · refine Touches.comp tch_setChan (by decide) ?_
      refine Touches.doIf ?_ (fun _ h2 => ?_)
      · exact h1
      · refine Touches.comp tch_stamp (by decide) ?_
        refine Touches.comp tch_setChan (by decide) ?_
        exact h2

theorem tch_setSubst {s a1 a2} : Touches (65793) s (@State.setSubst s a1 a2) := by
  unfold State.setSubst
  try dsimp only
  refine Touches.doIf ?_ (fun _ h0 => ?_)
  · refine Touches.foldl ?_ (fun _ _ h0 => ?_)
    · exact Touches.refl _ _
    · refine Touches.comp tch_setB (by decide) ?_
      exact h0
  · refine Touches.comp tch_post (by decide) ?_
    exact h0

theorem tch_chooseSide {s a1 a2 a3} : Touches (65793) s (@State.chooseSide s a1 a2 a3).1 := by
  unfold State.chooseSide
  dsimp only
  repeat' split
  all_goals exact tch_setSubst

theorem tch_keepAuto {s a1 a2} : Touches (256) s (@State.keepAuto s a1 a2) := by
  unfold State.keepAuto
  try dsimp only
  refine Touches.doIf ?_ (fun _ h0 => ?_)
  · exact Touches.refl _ _
  · refine Touches.foldl ?_ (fun _ _ h1 => ?_)
    · exact h0
    · refine Touches.comp tch_setB (by decide) ?_
      exact h1

theorem tch_decideAction {s a1 a2} : Touches (16843009) s (@State.decideAction s a1 a2).1 := by
  unfold State.decideAction
  try dsimp only
  split
  · try dsimp only
    refine Touches.comp tch_setSubst (by decide) ?_
    refine Touches.ite ?_ ?_
    · refine Touches.comp tch_post (by decide) ?_
      refine Touches.comp tch_setTarget (by decide) ?_
      exact Touches.refl _ _
    · exact Touches.refl _ _
  · try dsimp only
    split
    · refine Touches.comp tch_keepAuto (by decide) ?_
      exact Touches.refl _ _
    · split
      · try dsimp only
        refine Touches.comp tch_chooseSide (by decide) ?_
        refine Touches.comp tch_keepAuto (by decide) ?_
        exact Touches.refl _ _
      · try dsimp only
        refine Touches.comp tch_setSubst (by decide) ?_
        refine Touches.comp tch_keepAuto (by decide) ?_
        exact Touches.refl _ _

theorem tch_latchDemands {s a1 a2} : Touches (16777472) s (@State.latchDemands s a1 a2) := by
  unfold State.latchDemands
  try dsimp only
  refine Touches.ite ?_ ?_
  · exact Touches.refl _ _
  · refine Touches.comp tch_setBitF (by decide) ?_
    refine Touches.comp tch_setTarget (by decide) ?_
    exact Touches.refl _ _

theorem tch_settleTarget {s a1 a2} : Touches (25264513) s (@State.settleTarget s a1 a2) := by
  unfold State.settleTarget
  try dsimp only
  split
  · refine Touches.ite ?_ ?_
    · refine Touches.comp tch_onset (by decide) ?_
      refine Touches.comp tch_decideAction (by decide) ?_
      refine Touches.comp tch_latchDemands (by decide) ?_
      refine Touches.ite ?_ ?_
      · exact Touches.refl _ _
      · refine Touches.comp tch_setTarget (by decide) ?_
        exact Touches.refl _ _
    · refine Touches.ite ?_ ?_
      · refine Touches.comp tch_putAction (by decide) ?_
        refine Touches.foldl ?_ (fun _ _ h0 => ?_)
        · refine Touches.comp tch_setTarget (by decide) ?_
          refine Touches.comp tch_decideAction (by decide) ?_
          refine Touches.comp tch_latchDemands (by decide) ?_
          refine Touches.ite ?_ ?_
          · exact Touches.refl _ _
          · refine Touches.comp tch_setTarget (by decide) ?_
            exact Touches.refl _ _
        · refine Touches.comp tch_setF (by decide) ?_
          exact h0
      · refine Touches.ite ?_ ?_
        · refine Touches.comp tch_setTarget (by decide) ?_
          refine Touches.comp tch_decideAction (by decide) ?_
          refine Touches.comp tch_latchDemands (by decide) ?_
          refine Touches.ite ?_ ?_
          · exact Touches.refl _ _
          · refine Touches.comp tch_setTarget (by decide) ?_
            exact Touches.refl _ _
        · refine Touches.comp tch_post (by decide) ?_
          refine Touches.comp tch_setTarget (by decide) ?_
          refine Touches.comp tch_putAction (by decide) ?_
          refine Touches.comp tch_setTarget (by decide) ?_
          refine Touches.comp tch_decideAction (by decide) ?_
          refine Touches.comp tch_latchDemands (by decide) ?_
          refine Touches.ite ?_ ?_
          · exact Touches.refl _ _
          · refine Touches.comp tch_setTarget (by decide) ?_
            exact Touches.refl _ _
  · refine Touches.ite ?_ ?_
    · refine Touches.comp tch_decideAction (by decide) ?_
      refine Touches.comp tch_latchDemands (by decide) ?_
      refine Touches.ite ?_ ?_
      · exact Touches.refl _ _
      · refine Touches.comp tch_setTarget (by decide) ?_
        exact Touches.refl _ _
    · refine Touches.ite ?_ ?_
      · refine Touches.comp tch_freeTarget (by decide) ?_
        refine Touches.comp tch_decideAction (by decide) ?_
        refine Touches.comp tch_latchDemands (by decide) ?_
        refine Touches.ite ?_ ?_
        · exact Touches.refl _ _
        · refine Touches.comp tch_setTarget (by decide) ?_
          exact Touches.refl _ _
      · refine Touches.ite ?_ ?_
        · refine Touches.comp tch_setTarget (by decide) ?_
          refine Touches.comp tch_decideAction (by decide) ?_
          refine Touches.comp tch_latchDemands (by decide) ?_
          refine Touches.ite ?_ ?_
          · exact Touches.refl _ _
          · refine Touches.comp tch_setTarget (by decide) ?_
            exact Touches.refl _ _
        · refine Touches.comp tch_decideAction (by decide) ?_
          refine Touches.comp tch_latchDemands (by decide) ?_
          refine Touches.ite ?_ ?_
          · exact Touches.refl _ _
          · refine Touches.comp tch_setTarget (by decide) ?_
            exact Touches.refl _ _

theorem tch_settleOnce {s} : Touches (34385002881) s (@State.settleOnce s) := by
  unfold State.settleOnce
  try dsimp only
  refine Touches.ite ?_ ?_
  · refine Touches.foldl ?_ (fun _ _ h0 => ?_)
    · exact Touches.refl _ _
    · refine Touches.comp tch_settlePins (by decide) ?_
      refine Touches.comp tch_settleTarget (by decide) ?_
      refine Touches.comp tch_advance (by decide) ?_
      exact h0
  · exact Touches.refl _ _

theorem tch_dropVds {s} : Touches (32768) s (@State.dropVds s) := by
  unfold State.dropVds
  try dsimp only
  refine Touches.foldl ?_ (fun _ _ h0 => ?_)
  · exact Touches.refl _ _
  · refine Touches.ite ?_ ?_
    · exact h0
    · refine Touches.comp tch_setBitF (by decide) ?_
      refine Touches.comp tch_setF (by decide) ?_
      exact h0

theorem tch_settle {s} : Touches (34385002881) s (@State.settle s) := by
  unfold State.settle
  try dsimp only
  refine Touches.ite ?_ ?_
  · refine Touches.comp tch_dropVds (by decide) ?_
    refine Touches.comp tch_settleOnce (by decide) ?_
    exact Touches.refl _ _
  · refine Touches.comp tch_settleOnce (by decide) ?_
    refine Touches.comp tch_dropVds (by decide) ?_
    refine Touches.comp tch_settleOnce (by decide) ?_
    exact Touches.refl _ _

theorem tch_lossCause {s a1 a2} : Touches (34385002913) s (@State.lossCause s a1 a2) := by
  unfold State.lossCause
  try dsimp only
  refine Touches.ite ?_ ?_
  · refine Touches.comp tch_settle (by decide) ?_
    refine Touches.comp tch_setBitF (by decide) ?_
    refine Touches.comp tch_raise (by decide) ?_
    exact Touches.refl _ _
  · exact Touches.refl _ _

theorem tch_cond {s a1 a2 a3 a4} : Touches (4259841 ||| 2 ^ a3.blk.num) s (@State.cond s a1 a2 a3 a4) := by
  unfold State.cond
  try dsimp only
  refine Touches.comp tch_raise (by first | decide | exact Nat.zero_and _ | exact Nat.and_self _ | exact maskR _ _ | exact maskL (maskR _ _) | exact maskL (Nat.and_self _) | exact maskL (by decide) | exact maskL (maskL (by decide)) | exact maskOr (maskL (by decide)) (maskR _ _) | exact maskOr (maskL (by decide)) (maskL (maskR _ _)) | exact maskOr (maskL (by decide)) (Nat.and_self _) | exact maskOr (maskL (maskL (by decide))) (maskR _ _) | exact maskOr (maskL (maskL (by decide))) (maskL (maskR _ _)) | exact maskOr (maskL (maskL (by decide))) (Nat.and_self _)) ?_
  refine Touches.comp tch_setPi (by first | decide | exact Nat.zero_and _ | exact Nat.and_self _ | exact maskR _ _ | exact maskL (maskR _ _) | exact maskL (Nat.and_self _) | exact maskL (by decide) | exact maskL (maskL (by decide)) | exact maskOr (maskL (by decide)) (maskR _ _) | exact maskOr (maskL (by decide)) (maskL (maskR _ _)) | exact maskOr (maskL (by decide)) (Nat.and_self _) | exact maskOr (maskL (maskL (by decide))) (maskR _ _) | exact maskOr (maskL (maskL (by decide))) (maskL (maskR _ _)) | exact maskOr (maskL (maskL (by decide))) (Nat.and_self _)) ?_
  exact Touches.refl _ _

theorem tch_resolverClose {s a1} : Touches (1133900824993) s (@State.resolverClose s a1) := by
  unfold State.resolverClose
  try dsimp only
  refine Touches.comp tch_sendPos (by decide) ?_
  refine Touches.comp tch_setPi (by decide) ?_
  refine Touches.doIf ?_ (fun _ h0 => ?_)
  · refine Touches.doIf ?_ (fun _ h0 => ?_)
    · refine Touches.comp tch_setPi (by decide) ?_
      exact Touches.refl _ _
    · refine Touches.comp tch_cond (by decide) ?_
      exact h0
  · refine Touches.comp tch_lossCause (by decide) ?_
    exact h0

theorem tch_resolvers {s a1} : Touches (1133900824993) s (@State.resolvers s a1) := by
  unfold State.resolvers
  try dsimp only
  refine Touches.foldl ?_ (fun _ _ h0 => ?_)
  · exact Touches.refl _ _
  · refine Touches.ite ?_ ?_
    · refine Touches.doIf ?_ (fun _ h1 => ?_)
      · refine Touches.comp tch_setPi (by decide) ?_
        exact h0
      · refine Touches.comp tch_resolverClose (by decide) ?_
        exact h1
    · exact h0

theorem tch_raiseBit {s a1 a2 a3 a4 a5 a6 a7} : Touches (65537 ||| 2 ^ a1.blk.num) s (@State.raiseBit s a1 a2 a3 a4 a5 a6 a7) := by
  unfold State.raiseBit
  try dsimp only
  refine Touches.ite ?_ ?_
  · refine Touches.comp tch_noteSet (by first | decide | exact Nat.zero_and _ | exact Nat.and_self _ | exact maskR _ _ | exact maskL (maskR _ _) | exact maskL (Nat.and_self _) | exact maskL (by decide) | exact maskL (maskL (by decide)) | exact maskOr (maskL (by decide)) (maskR _ _) | exact maskOr (maskL (by decide)) (maskL (maskR _ _)) | exact maskOr (maskL (by decide)) (Nat.and_self _) | exact maskOr (maskL (maskL (by decide))) (maskR _ _) | exact maskOr (maskL (maskL (by decide))) (maskL (maskR _ _)) | exact maskOr (maskL (maskL (by decide))) (Nat.and_self _)) ?_
    exact Touches.refl _ _
  · refine Touches.comp tch_post (by first | decide | exact Nat.zero_and _ | exact Nat.and_self _ | exact maskR _ _ | exact maskL (maskR _ _) | exact maskL (Nat.and_self _) | exact maskL (by decide) | exact maskL (maskL (by decide)) | exact maskOr (maskL (by decide)) (maskR _ _) | exact maskOr (maskL (by decide)) (maskL (maskR _ _)) | exact maskOr (maskL (by decide)) (Nat.and_self _) | exact maskOr (maskL (maskL (by decide))) (maskR _ _) | exact maskOr (maskL (maskL (by decide))) (maskL (maskR _ _)) | exact maskOr (maskL (maskL (by decide))) (Nat.and_self _)) ?_
    refine Touches.comp tch_setBitF (by first | decide | exact Nat.zero_and _ | exact Nat.and_self _ | exact maskR _ _ | exact maskL (maskR _ _) | exact maskL (Nat.and_self _) | exact maskL (by decide) | exact maskL (maskL (by decide)) | exact maskOr (maskL (by decide)) (maskR _ _) | exact maskOr (maskL (by decide)) (maskL (maskR _ _)) | exact maskOr (maskL (by decide)) (Nat.and_self _) | exact maskOr (maskL (maskL (by decide))) (maskR _ _) | exact maskOr (maskL (maskL (by decide))) (maskL (maskR _ _)) | exact maskOr (maskL (maskL (by decide))) (Nat.and_self _)) ?_
    exact Touches.refl _ _

theorem tch_pairAny {s} : Touches (16) s (@State.pairAny s) := by
  unfold State.pairAny
  try dsimp only
  refine Touches.comp tch_setB (by decide) ?_
  exact Touches.refl _ _

theorem tch_setPair {s a1 a2} : Touches (2097152) s (@State.setPair s a1 a2) := by
  unfold State.setPair
  try dsimp only
  refine Touches.upd_meas (by decide) ?_
  exact Touches.refl _ _

theorem tch_comparePair {s a1} : Touches (2162705) s (@State.comparePair s a1) := by
  unfold State.comparePair
  try dsimp only
  refine Touches.ite ?_ ?_
  · refine Touches.comp tch_setPair (by decide) ?_
    exact Touches.refl _ _
  · refine Touches.ite ?_ ?_
    · refine Touches.ite ?_ ?_
      · refine Touches.comp tch_pairAny (by decide) ?_
        refine Touches.comp tch_raiseBit (by decide) ?_
        refine Touches.comp tch_setPair (by decide) ?_
        exact Touches.refl _ _
      · refine Touches.comp tch_setPair (by decide) ?_
        exact Touches.refl _ _
    · refine Touches.comp tch_setPair (by decide) ?_
      exact Touches.refl _ _

theorem tch_pairResult {s a1} : Touches (2162705) s (@State.pairResult s a1) := by
  unfold State.pairResult
  try dsimp only
  refine Touches.foldl ?_ (fun _ _ h0 => ?_)
  · exact Touches.refl _ _
  · refine Touches.ite ?_ ?_
    · refine Touches.doIf ?_ (fun _ h1 => ?_)
      · refine Touches.comp tch_setPair (by decide) ?_
        exact h0
      · refine Touches.comp tch_comparePair (by decide) ?_
        exact h1
    · exact h0

theorem tch_setAcc {s a1 a2} : Touches (2097152) s (@State.setAcc s a1 a2) := by
  unfold State.setAcc
  try dsimp only
  refine Touches.upd_meas (by decide) ?_
  exact Touches.refl _ _

theorem tch_closeAcc {s a1} : Touches (2162705) s (@State.closeAcc s a1).1 := by
  unfold State.closeAcc
  try dsimp only
  refine Touches.comp tch_pairResult (by decide) ?_
  refine Touches.ite ?_ ?_
  · refine Touches.comp tch_setB (by decide) ?_
    refine Touches.comp tch_raiseBit (by decide) ?_
    refine Touches.comp tch_setAcc (by decide) ?_
    exact Touches.refl _ _
  · refine Touches.doIf ?_ (fun _ h0 => ?_)
    · refine Touches.comp tch_setAcc (by decide) ?_
      exact Touches.refl _ _
    · refine Touches.comp tch_setB (by decide) ?_
      refine Touches.comp tch_raiseBit (by decide) ?_
      exact h0

theorem tch_closeAccs {s a1} : Touches (1133902922161) s (@State.closeAccs s a1) := by
  unfold State.closeAccs
  try dsimp only
  refine Touches.comp tch_resolvers (by decide) ?_
  refine Touches.comp tch_sendWins (by decide) ?_
  refine Touches.foldlP ?_ (fun _ _ h0 => ?_)
  · exact Touches.refl _ _
  · refine Touches.comp tch_closeAcc (by decide) ?_
    exact h0

theorem tch_accFull {s a1} : Touches (1133902922161) s (@State.accFull s a1) := by
  unfold State.accFull
  try dsimp only
  refine Touches.ite ?_ ?_
  · refine Touches.comp tch_closeAccs (by decide) ?_
    exact Touches.refl _ _
  · refine Touches.ite ?_ ?_
    · refine Touches.comp tch_post (by decide) ?_
      refine Touches.comp tch_closeAccs (by decide) ?_
      exact Touches.refl _ _
    · exact Touches.refl _ _

theorem tch_accAdd {s a1 a2} : Touches (1133902922161) s (@State.accAdd s a1 a2) := by
  unfold State.accAdd
  try dsimp only
  refine Touches.ite ?_ ?_
  · refine Touches.doIf ?_ (fun _ h0 => ?_)
    · refine Touches.comp tch_setAcc (by decide) ?_
      exact Touches.refl _ _
    · refine Touches.comp tch_accFull (by decide) ?_
      exact h0
  · exact Touches.refl _ _

theorem tch_setCarrier {s a1 a2} : Touches (549764202496) s (@State.setCarrier s a1 a2) := by
  unfold State.setCarrier
  try dsimp only
  refine Touches.upd_carriers (by decide) ?_
  exact Touches.refl _ _

theorem tch_openSlot {s a1 a2} : Touches (549764202496) s (@State.openSlot s a1 a2) := by
  unfold State.openSlot
  try dsimp only
  refine Touches.ite ?_ ?_
  · exact Touches.refl _ _
  · refine Touches.foldl ?_ (fun _ _ h0 => ?_)
    · refine Touches.comp tch_setCarrier (by decide) ?_
      exact Touches.refl _ _
    · refine Touches.comp tch_lowOn (by decide) ?_
      exact h0

theorem tch_serve {s a1 a2} : Touches (549764235392) s (@State.serve s a1 a2).1 := by
  unfold State.serve
  try dsimp only
  split
  · exact Touches.refl _ _
  · refine Touches.comp tch_setCarrier (by decide) ?_
    refine Touches.ite ?_ ?_
    · refine Touches.comp tch_setB (by decide) ?_
      exact Touches.refl _ _
    · refine Touches.comp tch_setB (by decide) ?_
      exact Touches.refl _ _

theorem tch_modeOff {s a1 a2 a3} : Touches (8388608) s (@State.modeOff s a1 a2 a3) := by
  unfold State.modeOff
  try dsimp only
  refine Touches.ite ?_ ?_
  · refine Touches.ite ?_ ?_
    · refine Touches.comp tch_setChan (by decide) ?_
      exact Touches.refl _ _
    · refine Touches.comp tch_legDrive (by decide) ?_
      refine Touches.comp tch_setChan (by decide) ?_
      exact Touches.refl _ _
  · refine Touches.comp tch_setChan (by decide) ?_
    exact Touches.refl _ _

theorem tch_takeRef {s a1 a2 a3 a4 a5} : Touches (8487041) s (@State.takeRef s a1 a2 a3 a4 a5) := by
  unfold State.takeRef
  try dsimp only
  refine Touches.ite ?_ ?_
  · refine Touches.doIf ?_ (fun _ h0 => ?_)
    · refine Touches.comp tch_setChan (by decide) ?_
      refine Touches.doIf ?_ (fun _ h0 => ?_)
      · exact Touches.refl _ _
      · refine Touches.comp tch_stampLate (by decide) ?_
        exact h0
    · refine Touches.comp tch_stamp (by decide) ?_
      exact h0
  · split
    · refine Touches.ite ?_ ?_
      · refine Touches.comp tch_modeOff (by decide) ?_
        refine Touches.comp tch_setChan (by decide) ?_
        split
        · refine Touches.comp tch_clampDuty (by decide) ?_
          refine Touches.doIf ?_ (fun _ h0 => ?_)
          · exact Touches.refl _ _
          · refine Touches.comp tch_stampLate (by decide) ?_
            exact h0
        · refine Touches.doIf ?_ (fun _ h0 => ?_)
          · exact Touches.refl _ _
          · refine Touches.comp tch_stampLate (by decide) ?_
            exact h0
      · refine Touches.comp tch_setChan (by decide) ?_
        split
        · refine Touches.comp tch_clampDuty (by decide) ?_
          refine Touches.doIf ?_ (fun _ h0 => ?_)
          · exact Touches.refl _ _
          · refine Touches.comp tch_stampLate (by decide) ?_
            exact h0
        · refine Touches.doIf ?_ (fun _ h0 => ?_)
          · exact Touches.refl _ _
          · refine Touches.comp tch_stampLate (by decide) ?_
            exact h0
    · refine Touches.comp tch_setChan (by decide) ?_
      refine Touches.ite ?_ ?_
      · refine Touches.comp tch_modeOff (by decide) ?_
        refine Touches.comp tch_setChan (by decide) ?_
        split
        · refine Touches.comp tch_clampDuty (by decide) ?_
          refine Touches.doIf ?_ (fun _ h0 => ?_)
          · exact Touches.refl _ _
          · refine Touches.comp tch_stampLate (by decide) ?_
            exact h0
        · refine Touches.doIf ?_ (fun _ h0 => ?_)
          · exact Touches.refl _ _
          · refine Touches.comp tch_stampLate (by decide) ?_
            exact h0
      · refine Touches.comp tch_setChan (by decide) ?_
        split
        · refine Touches.comp tch_clampDuty (by decide) ?_
          refine Touches.doIf ?_ (fun _ h0 => ?_)
          · exact Touches.refl _ _
          · refine Touches.comp tch_stampLate (by decide) ?_
            exact h0
        · refine Touches.doIf ?_ (fun _ h0 => ?_)
          · exact Touches.refl _ _
          · refine Touches.comp tch_stampLate (by decide) ?_
            exact h0
    · refine Touches.comp tch_stamp (by decide) ?_
      refine Touches.comp tch_setChan (by decide) ?_
      refine Touches.ite ?_ ?_
      · refine Touches.comp tch_modeOff (by decide) ?_
        refine Touches.comp tch_setChan (by decide) ?_
        split
        · refine Touches.comp tch_clampDuty (by decide) ?_
          refine Touches.doIf ?_ (fun _ h0 => ?_)
          · exact Touches.refl _ _
          · refine Touches.comp tch_stampLate (by decide) ?_
            exact h0
        · refine Touches.doIf ?_ (fun _ h0 => ?_)
          · exact Touches.refl _ _
          · refine Touches.comp tch_stampLate (by decide) ?_
            exact h0
      · refine Touches.comp tch_setChan (by decide) ?_
        split
        · refine Touches.comp tch_clampDuty (by decide) ?_
          refine Touches.doIf ?_ (fun _ h0 => ?_)
          · exact Touches.refl _ _
          · refine Touches.comp tch_stampLate (by decide) ?_
            exact h0
        · refine Touches.doIf ?_ (fun _ h0 => ?_)
          · exact Touches.refl _ _
          · refine Touches.comp tch_stampLate (by decide) ?_
            exact h0

theorem tch_takeLow {s a1 a2 a3 a4 a5 a6} : Touches (8421504) s (@State.takeLow s a1 a2 a3 a4 a5 a6) := by
  unfold State.takeLow
  try dsimp only
  refine Touches.ite ?_ ?_
  · refine Touches.doIf ?_ (fun _ h0 => ?_)
    · refine Touches.comp tch_setChan (by decide) ?_
      refine Touches.doIf ?_ (fun _ h0 => ?_)
      · exact Touches.refl _ _
      · refine Touches.comp tch_stamp (by decide) ?_
        refine Touches.comp tch_setChan (by decide) ?_
        exact h0
    · refine Touches.comp tch_stamp (by decide) ?_
      exact h0
  · refine Touches.ite ?_ ?_
    · refine Touches.doIf ?_ (fun _ h0 => ?_)
      · refine Touches.comp tch_modeOff (by decide) ?_
        refine Touches.comp tch_setChan (by decide) ?_
        refine Touches.doIf ?_ (fun _ h0 => ?_)
        · exact Touches.refl _ _
        · refine Touches.comp tch_stamp (by decide) ?_
          refine Touches.comp tch_setChan (by decide) ?_
          exact h0
      · refine Touches.comp tch_stamp (by decide) ?_
        exact h0
    · refine Touches.ite ?_ ?_
      · refine Touches.doIf ?_ (fun _ h0 => ?_)
        · refine Touches.comp tch_setChan (by decide) ?_
          refine Touches.doIf ?_ (fun _ h0 => ?_)
          · exact Touches.refl _ _
          · refine Touches.comp tch_stamp (by decide) ?_
            refine Touches.comp tch_setChan (by decide) ?_
            exact h0
        · refine Touches.comp tch_lowOn (by decide) ?_
          exact h0
      · refine Touches.ite ?_ ?_
        · refine Touches.comp tch_setChan (by decide) ?_
          refine Touches.doIf ?_ (fun _ h0 => ?_)
          · refine Touches.comp tch_setChan (by decide) ?_
            refine Touches.doIf ?_ (fun _ h0 => ?_)
            · exact Touches.refl _ _
            · refine Touches.comp tch_stamp (by decide) ?_
              refine Touches.comp tch_setChan (by decide) ?_
              exact h0
          · refine Touches.comp tch_lowOn (by decide) ?_
            exact h0
        · refine Touches.ite ?_ ?_
          · refine Touches.ite ?_ ?_
            · refine Touches.comp tch_stamp (by decide) ?_
              refine Touches.doIf ?_ (fun _ h0 => ?_)
              · refine Touches.comp tch_setChan (by decide) ?_
                refine Touches.doIf ?_ (fun _ h0 => ?_)
                · exact Touches.refl _ _
                · refine Touches.comp tch_stamp (by decide) ?_
                  refine Touches.comp tch_setChan (by decide) ?_
                  exact h0
              · refine Touches.comp tch_lowOn (by decide) ?_
                exact h0
            · refine Touches.comp tch_stamp (by decide) ?_
              refine Touches.doIf ?_ (fun _ h0 => ?_)
              · refine Touches.comp tch_setChan (by decide) ?_
                refine Touches.doIf ?_ (fun _ h0 => ?_)
                · exact Touches.refl _ _
                · refine Touches.comp tch_stamp (by decide) ?_
                  refine Touches.comp tch_setChan (by decide) ?_
                  exact h0
              · refine Touches.comp tch_lowOn (by decide) ?_
                exact h0
          · refine Touches.comp tch_stamp (by decide) ?_
            refine Touches.doIf ?_ (fun _ h0 => ?_)
            · refine Touches.comp tch_setChan (by decide) ?_
              refine Touches.doIf ?_ (fun _ h0 => ?_)
              · exact Touches.refl _ _
              · refine Touches.comp tch_stamp (by decide) ?_
                refine Touches.comp tch_setChan (by decide) ?_
                exact h0
            · refine Touches.comp tch_lowOn (by decide) ?_
              exact h0

theorem tch_takeChan {s a1 a2 a3} : Touches (8487041) s (@State.takeChan s a1 a2 a3) := by
  unfold State.takeChan
  try dsimp only
  split
  · exact Touches.refl _ _
  · refine Touches.ite ?_ ?_
    · refine Touches.ite ?_ ?_
      · refine Touches.comp tch_takeLow (by decide) ?_
        refine Touches.comp tch_setChan (by decide) ?_
        exact Touches.refl _ _
      · refine Touches.comp tch_takeRef (by decide) ?_
        refine Touches.comp tch_setChan (by decide) ?_
        exact Touches.refl _ _
    · exact Touches.refl _ _

theorem tch_compareEffective {s a1 a2} : Touches (584124039297) s (@State.compareEffective s a1 a2) := by
  unfold State.compareEffective
  try dsimp only
  refine Touches.comp tch_advance (by decide) ?_
  refine Touches.doIf ?_ (fun _ h0 => ?_)
  · refine Touches.comp tch_serve (by decide) ?_
    refine Touches.foldl ?_ (fun _ _ h0 => ?_)
    · refine Touches.comp tch_advance (by decide) ?_
      exact Touches.refl _ _
    · refine Touches.comp tch_takeChan (by decide) ?_
      exact h0
  · refine Touches.comp tch_openSlot (by decide) ?_
    exact h0

theorem tch_putPattern {s a1 a2 a3 a4} : Touches (584140816769) s (@State.putPattern s a1 a2 a3 a4) := by
  unfold State.putPattern
  try dsimp only
  refine Touches.comp tch_settle (by decide) ?_
  refine Touches.comp tch_advance (by decide) ?_
  refine Touches.foldl ?_ (fun _ _ h0 => ?_)
  · refine Touches.foldl ?_ (fun _ _ h0 => ?_)
    · refine Touches.comp tch_advance (by decide) ?_
      refine Touches.comp tch_setCarrier (by decide) ?_
      exact Touches.refl _ _
    · refine Touches.comp tch_takeRef (by decide) ?_
      exact h0
  · refine Touches.comp tch_takeLow (by decide) ?_
    exact h0

theorem tch_bcApply {s a1 a2} : Touches (584140816769) s (@State.bcApply s a1 a2) := by
  unfold State.bcApply
  try dsimp only
  refine Touches.comp tch_putPattern (by decide) ?_
  exact Touches.refl _ _

theorem tch_setTokens {s a1} : Touches (540672) s (@State.setTokens s a1) := by
  unfold State.setTokens
  try dsimp only
  refine Touches.upd_pwr_keep rfl (by decide) ?_
  refine Touches.comp tch_setF (by decide) ?_
  exact Touches.refl _ _

theorem tch_setBc {s a1 a2} : Touches (8388608) s (@State.setBc s a1 a2) := by
  unfold State.setBc
  try dsimp only
  refine Touches.upd_pwm rfl (by decide) ?_
  exact Touches.refl _ _

theorem tch_bcRampStart {s a1} : Touches (584140816769) s (@State.bcRampStart s a1) := by
  unfold State.bcRampStart
  try dsimp only
  refine Touches.comp tch_bcApply (by decide) ?_
  refine Touches.comp tch_setBc (by decide) ?_
  refine Touches.comp tch_setF (by decide) ?_
  exact Touches.refl _ _

theorem tch_bcStart {s a1} : Touches (584140816769) s (@State.bcStart s a1) := by
  unfold State.bcStart
  try dsimp only
  refine Touches.ite ?_ ?_
  · refine Touches.comp tch_bcRampStart (by decide) ?_
    refine Touches.comp tch_setBc (by decide) ?_
    exact Touches.refl _ _
  · refine Touches.comp tch_bcApply (by decide) ?_
    refine Touches.comp tch_setBc (by decide) ?_
    refine Touches.comp tch_setF (by decide) ?_
    refine Touches.comp tch_setBc (by decide) ?_
    exact Touches.refl _ _

theorem tch_setCtx {s a1 a2} : Touches (33554432) s (@State.setCtx s a1 a2) := by
  unfold State.setCtx
  try dsimp only
  refine Touches.upd_loop (by decide) ?_
  exact Touches.refl _ _

theorem tch_modCtx {s a1 a2} : Touches (33554432) s (@State.modCtx s a1 a2) := by
  unfold State.modCtx
  try dsimp only
  refine Touches.comp tch_setCtx (by decide) ?_
  exact Touches.refl _ _

theorem tch_modDc {s a1 a2} : Touches (33554432) s (@State.modDc s a1 a2) := by
  unfold State.modDc
  try dsimp only
  refine Touches.comp tch_modCtx (by decide) ?_
  exact Touches.refl _ _

theorem tch_transmit {s a1} : Touches (1133871431681) s (@State.transmit s a1) := by
  unfold State.transmit
  try dsimp only
  split
  · unfold State.route
    try dsimp only
    refine Touches.ite ?_ ?_
    · exact Touches.refl _ _
    · refine Touches.ite ?_ ?_
      · refine Touches.comp tch_send (by decide) ?_
        exact Touches.refl _ _
      · refine Touches.comp tch_post (by decide) ?_
        exact Touches.refl _ _
  · refine Touches.comp tch_send (by decide) ?_
    exact Touches.refl _ _

theorem tch_sendCtx {s a1 a2 a3} : Touches (1133871431681) s (@State.sendCtx s a1 a2 a3) := by
  unfold State.sendCtx
  try dsimp only
  refine Touches.foldl ?_ (fun _ _ h0 => ?_)
  · exact Touches.refl _ _
  · refine Touches.comp tch_transmit (by decide) ?_
    exact h0

theorem tch_grantContext {s a1} : Touches (1133904986113) s (@State.grantContext s a1) := by
  unfold State.grantContext
  try dsimp only
  refine Touches.foldl ?_ (fun _ _ h0 => ?_)
  · exact Touches.refl _ _
  · refine Touches.doIf ?_ (fun _ h1 => ?_)
    · refine Touches.comp tch_sendCtx (by decide) ?_
      exact h0
    · refine Touches.comp tch_modDc (by decide) ?_
      exact h1

theorem tch_grant {s a1} : Touches (1683686015361) s (@State.grant s a1) := by
  unfold State.grant
  try dsimp only
  refine Touches.ite ?_ ?_
  · refine Touches.comp tch_grantContext (by decide) ?_
    refine Touches.comp tch_post (by decide) ?_
    refine Touches.comp tch_setF (by decide) ?_
    refine Touches.comp tch_incF (by decide) ?_
    exact Touches.refl _ _
  · refine Touches.doIf ?_ (fun _ h0 => ?_)
    · refine Touches.comp tch_post (by decide) ?_
      refine Touches.comp tch_setF (by decide) ?_
      refine Touches.comp tch_incF (by decide) ?_
      exact Touches.refl _ _
    · refine Touches.comp tch_bcStart (by decide) ?_
      exact h0

theorem tch_grantDue_go {a0 s} : Touches (1683686539649) s (@State.grantDue.go a0 s) := by
  induction a0 generalizing s with
  | zero => unfold State.grantDue.go; exact Touches.refl _ _
  | succ n ih =>
    unfold State.grantDue.go
    split
    · rename_i h _; cases h
      refine Touches.ite ?_ ?_
      · refine Touches.comp ih (by decide) ?_
        refine Touches.comp tch_grant (by decide) ?_
        exact tch_setTokens.mono (by decide)
      · refine Touches.ite ?_ (Touches.refl _ _)
        refine Touches.comp ih (by decide) ?_
        refine Touches.comp tch_grant (by decide) ?_
        refine Touches.comp tch_setF (by decide) ?_
        exact tch_setTokens.mono (by decide)
    · exact Touches.refl _ _

theorem tch_grantDue {s} : Touches (1683686539649) s (@State.grantDue s) := by
  unfold State.grantDue
  try dsimp only
  refine Touches.comp tch_grantDue_go (by decide) ?_
  exact Touches.refl _ _

theorem tch_tokenRequest {s a1} : Touches (1683686539649) s (@State.tokenRequest s a1) := by
  unfold State.tokenRequest
  try dsimp only
  refine Touches.ite ?_ ?_
  · exact Touches.refl _ _
  · refine Touches.comp tch_grantDue (by decide) ?_
    refine Touches.comp tch_setTokens (by decide) ?_
    exact Touches.refl _ _

theorem tch_bcOff {s a1} : Touches (584140816769) s (@State.bcOff s a1) := by
  unfold State.bcOff
  try dsimp only
  refine Touches.comp tch_bcApply (by decide) ?_
  refine Touches.comp tch_setF (by decide) ?_
  exact Touches.refl _ _

theorem tch_tokenWithdraw {s a1} : Touches (1683686539649) s (@State.tokenWithdraw s a1) := by
  unfold State.tokenWithdraw
  try dsimp only
  refine Touches.ite ?_ ?_
  · refine Touches.comp tch_grantDue (by decide) ?_
    refine Touches.comp tch_post (by decide) ?_
    refine Touches.comp tch_setTokens (by decide) ?_
    exact Touches.refl _ _
  · exact Touches.refl _ _

theorem tch_bcDemand {s a1 a2 a3} : Touches (1683686539649) s (@State.bcDemand s a1 a2 a3) := by
  unfold State.bcDemand
  try dsimp only
  refine Touches.ite ?_ ?_
  · refine Touches.doIf ?_ (fun _ h0 => ?_)
    · refine Touches.comp tch_setBc (by decide) ?_
      refine Touches.comp tch_setF (by decide) ?_
      refine Touches.comp tch_tokenWithdraw (by decide) ?_
      refine Touches.comp tch_setBc (by decide) ?_
      exact Touches.refl _ _
    · refine Touches.comp tch_bcOff (by decide) ?_
      exact h0
  · refine Touches.ite ?_ ?_
    · refine Touches.doIf ?_ (fun _ h0 => ?_)
      · refine Touches.comp tch_setBc (by decide) ?_
        exact Touches.refl _ _
      · refine Touches.comp tch_tokenRequest (by decide) ?_
        exact h0
    · refine Touches.doIf ?_ (fun _ h0 => ?_)
      · refine Touches.comp tch_setBc (by decide) ?_
        exact Touches.refl _ _
      · refine Touches.comp tch_bcApply (by decide) ?_
        exact h0

theorem tch_bcCompare {s a1 a2} : Touches (1683686539649) s (@State.bcCompare s a1 a2) := by
  unfold State.bcCompare
  try dsimp only
  split
  · refine Touches.doIf ?_ (fun _ h0 => ?_)
    · refine Touches.comp tch_stamp (by decide) ?_
      refine Touches.comp tch_serve (by decide) ?_
      refine Touches.foldl ?_ (fun _ _ h0 => ?_)
      · exact Touches.refl _ _
      · refine Touches.doIf ?_ (fun _ h1 => ?_)
        · exact h0
        · refine Touches.comp tch_setChan (by decide) ?_
          exact h1
    · refine Touches.comp tch_bcDemand (by decide) ?_
      exact h0
  · refine Touches.comp tch_serve (by decide) ?_
    refine Touches.foldl ?_ (fun _ _ h0 => ?_)
    · exact Touches.refl _ _
    · refine Touches.doIf ?_ (fun _ h1 => ?_)
      · exact h0
      · refine Touches.comp tch_setChan (by decide) ?_
        exact h1

theorem tch_valuesEffective {s a1 a2} : Touches (1683686539649) s (@State.valuesEffective s a1 a2) := by
  unfold State.valuesEffective
  try dsimp only
  refine Touches.ite ?_ ?_
  · refine Touches.comp tch_bcCompare (by decide) ?_
    exact Touches.refl _ _
  · refine Touches.comp tch_compareEffective (by decide) ?_
    exact Touches.refl _ _

theorem tch_arriveValue {s a1 a2 a3 a4 a5 a6} : Touches (8421504) s (@State.arriveValue s a1 a2 a3 a4 a5 a6) := by
  unfold State.arriveValue
  try dsimp only
  refine Touches.comp tch_setChan (by decide) ?_
  refine Touches.doIf ?_ (fun _ h0 => ?_)
  · exact Touches.refl _ _
  · refine Touches.comp tch_stamp (by decide) ?_
    exact h0

theorem tch_targetRaise {s a1 a2 a3 a4 a5 a6} : Touches (65537 ||| 2 ^ a3.blk.num ||| 2 ^ a2.blk.num) s (@State.targetRaise s a1 a2 a3 a4 a5 a6) := by
  unfold State.targetRaise
  try dsimp only
  refine Touches.ite ?_ ?_
  · refine Touches.comp tch_raise (by first | decide | exact Nat.zero_and _ | exact Nat.and_self _ | exact maskR _ _ | exact maskL (maskR _ _) | exact maskL (Nat.and_self _) | exact maskL (by decide) | exact maskL (maskL (by decide)) | exact maskOr (maskL (by decide)) (maskR _ _) | exact maskOr (maskL (by decide)) (maskL (maskR _ _)) | exact maskOr (maskL (by decide)) (Nat.and_self _) | exact maskOr (maskL (maskL (by decide))) (maskR _ _) | exact maskOr (maskL (maskL (by decide))) (maskL (maskR _ _)) | exact maskOr (maskL (maskL (by decide))) (Nat.and_self _)) ?_
    exact Touches.refl _ _
  · refine Touches.comp tch_raise (by first | decide | exact Nat.zero_and _ | exact Nat.and_self _ | exact maskR _ _ | exact maskL (maskR _ _) | exact maskL (Nat.and_self _) | exact maskL (by decide) | exact maskL (maskL (by decide)) | exact maskOr (maskL (by decide)) (maskR _ _) | exact maskOr (maskL (by decide)) (maskL (maskR _ _)) | exact maskOr (maskL (by decide)) (Nat.and_self _) | exact maskOr (maskL (maskL (by decide))) (maskR _ _) | exact maskOr (maskL (maskL (by decide))) (maskL (maskR _ _)) | exact maskOr (maskL (maskL (by decide))) (Nat.and_self _)) ?_
    exact Touches.refl _ _

theorem tch_carrierFlit {s a1 a2 a3} : Touches (549764300929) s (@State.carrierFlit s a1 a2 a3) := by
  unfold State.carrierFlit
  try dsimp only
  refine Touches.ite ?_ ?_
  · refine Touches.comp tch_targetRaise (by decide) ?_
    exact Touches.refl _ _
  · refine Touches.comp tch_setCarrier (by decide) ?_
    exact Touches.refl _ _

theorem tch_acceptSeq {s a1 a2} : Touches (549764300929) s (@State.acceptSeq s a1 a2) := by
  unfold State.acceptSeq
  try dsimp only
  refine Touches.ite ?_ ?_
  · refine Touches.comp tch_setF (by decide) ?_
    refine Touches.comp tch_setCarrier (by decide) ?_
    refine Touches.doIf ?_ (fun _ h0 => ?_)
    · exact Touches.refl _ _
    · refine Touches.comp tch_targetRaise (by decide) ?_
      exact h0
  · refine Touches.comp tch_setF (by decide) ?_
    refine Touches.comp tch_setCarrier (by decide) ?_
    refine Touches.doIf ?_ (fun _ h0 => ?_)
    · exact Touches.refl _ _
    · refine Touches.comp tch_targetRaise (by decide) ?_
      exact h0

theorem tch_acceptCmpw {s a1 a2} : Touches (1683686539713) s (@State.acceptCmpw s a1 a2) := by
  unfold State.acceptCmpw
  try dsimp only
  refine Touches.ite ?_ ?_
  · refine Touches.comp tch_carrierFlit (by decide) ?_
    refine Touches.doIf ?_ (fun _ h0 => ?_)
    · refine Touches.comp tch_acceptSeq (by decide) ?_
      exact Touches.refl _ _
    · refine Touches.comp tch_raise (by decide) ?_
      exact h0
  · refine Touches.ite ?_ ?_
    · refine Touches.comp tch_settle (by decide) ?_
      refine Touches.comp tch_valuesEffective (by decide) ?_
      refine Touches.comp tch_setCarrier (by decide) ?_
      refine Touches.foldl ?_ (fun _ _ h0 => ?_)
      · refine Touches.doIf ?_ (fun _ h0 => ?_)
        · refine Touches.comp tch_acceptSeq (by decide) ?_
          exact Touches.refl _ _
        · refine Touches.comp tch_raise (by decide) ?_
          exact h0
      · split
        · refine Touches.comp tch_arriveValue (by decide) ?_
          exact h0
        · exact h0
    · refine Touches.comp tch_setCarrier (by decide) ?_
      refine Touches.foldl ?_ (fun _ _ h0 => ?_)
      · refine Touches.doIf ?_ (fun _ h0 => ?_)
        · refine Touches.comp tch_acceptSeq (by decide) ?_
          exact Touches.refl _ _
        · refine Touches.comp tch_raise (by decide) ?_
          exact h0
      · split
        · refine Touches.comp tch_arriveValue (by decide) ?_
          exact h0
        · exact h0

theorem tch_acqExtended {s} : Touches (65537) s (@State.acqExtended s) := by
  unfold State.acqExtended
  try dsimp only
  refine Touches.foldl ?_ (fun _ _ h0 => ?_)
  · exact Touches.refl _ _
  · refine Touches.doIf ?_ (fun _ h1 => ?_)
    · exact h0
    · refine Touches.foldl ?_ (fun _ _ h2 => ?_)
      · exact h1
      · refine Touches.doIf ?_ (fun _ h3 => ?_)
        · exact h2
        · refine Touches.comp tch_post (by decide) ?_
          exact h3

theorem tch_placeFail {s a1} : Touches (65541) s (@State.placeFail s a1) := by
  unfold State.placeFail
  try dsimp only
  refine Touches.comp tch_post (by decide) ?_
  refine Touches.comp tch_incF (by decide) ?_
  exact Touches.refl _ _

theorem tch_setCtxState {s a1 a2} : Touches (65) s (@State.setCtxState s a1 a2) := by
  unfold State.setCtxState
  try dsimp only
  refine Touches.comp tch_setB (by decide) ?_
  refine Touches.comp tch_setF (by decide) ?_
  refine Touches.comp tch_setF (by decide) ?_
  refine Touches.comp tch_setF (by decide) ?_
  exact Touches.refl _ _

theorem tch_setCtxFault {s a1 a2} : Touches (64) s (@State.setCtxFault s a1 a2) := by
  unfold State.setCtxFault
  try dsimp only
  refine Touches.comp tch_setBitF (by decide) ?_
  refine Touches.comp tch_setB (by decide) ?_
  exact Touches.refl _ _

theorem tch_setRole {s a1 a2} : Touches (1048576) s (@State.setRole s a1 a2) := by
  unfold State.setRole
  try dsimp only
  refine Touches.upd_sea (fun h => ⟨kwf_kset _ _ h.1, h.2⟩) (by decide) ?_
  exact Touches.refl _ _

theorem tch_moveOne {s a1 a2 a3 a4} : Touches (2 ^ a2.blk.num ||| 2 ^ a3.blk.num) s (@State.moveOne s a1 a2 a3 a4) := by
  unfold State.moveOne
  try dsimp only
  refine Touches.comp tch_setF (by first | decide | exact Nat.zero_and _ | exact Nat.and_self _ | exact maskR _ _ | exact maskL (maskR _ _) | exact maskL (Nat.and_self _) | exact maskL (by decide) | exact maskL (maskL (by decide)) | exact maskOr (maskL (by decide)) (maskR _ _) | exact maskOr (maskL (by decide)) (maskL (maskR _ _)) | exact maskOr (maskL (by decide)) (Nat.and_self _) | exact maskOr (maskL (maskL (by decide))) (maskR _ _) | exact maskOr (maskL (maskL (by decide))) (maskL (maskR _ _)) | exact maskOr (maskL (maskL (by decide))) (Nat.and_self _)) ?_
  refine Touches.comp tch_setF (by first | decide | exact Nat.zero_and _ | exact Nat.and_self _ | exact maskR _ _ | exact maskL (maskR _ _) | exact maskL (Nat.and_self _) | exact maskL (by decide) | exact maskL (maskL (by decide)) | exact maskOr (maskL (by decide)) (maskR _ _) | exact maskOr (maskL (by decide)) (maskL (maskR _ _)) | exact maskOr (maskL (by decide)) (Nat.and_self _) | exact maskOr (maskL (maskL (by decide))) (maskR _ _) | exact maskOr (maskL (maskL (by decide))) (maskL (maskR _ _)) | exact maskOr (maskL (maskL (by decide))) (Nat.and_self _)) ?_
  exact Touches.refl _ _

theorem tch_moveMask {s a1 a2 a3 a4} : Touches (2 ^ a2.blk.num ||| 2 ^ a3.blk.num) s (@State.moveMask s a1 a2 a3 a4) := by
  unfold State.moveMask
  try dsimp only
  split
  · refine Touches.comp tch_setF (by first | decide | exact Nat.zero_and _ | exact Nat.and_self _ | exact maskR _ _ | exact maskL (maskR _ _) | exact maskL (Nat.and_self _) | exact maskL (by decide) | exact maskL (maskL (by decide)) | exact maskOr (maskL (by decide)) (maskR _ _) | exact maskOr (maskL (by decide)) (maskL (maskR _ _)) | exact maskOr (maskL (by decide)) (Nat.and_self _) | exact maskOr (maskL (maskL (by decide))) (maskR _ _) | exact maskOr (maskL (maskL (by decide))) (maskL (maskR _ _)) | exact maskOr (maskL (maskL (by decide))) (Nat.and_self _)) ?_
    refine Touches.comp tch_setF (by first | decide | exact Nat.zero_and _ | exact Nat.and_self _ | exact maskR _ _ | exact maskL (maskR _ _) | exact maskL (Nat.and_self _) | exact maskL (by decide) | exact maskL (maskL (by decide)) | exact maskOr (maskL (by decide)) (maskR _ _) | exact maskOr (maskL (by decide)) (maskL (maskR _ _)) | exact maskOr (maskL (by decide)) (Nat.and_self _) | exact maskOr (maskL (maskL (by decide))) (maskR _ _) | exact maskOr (maskL (maskL (by decide))) (maskL (maskR _ _)) | exact maskOr (maskL (maskL (by decide))) (Nat.and_self _)) ?_
    exact Touches.refl _ _
  · exact Touches.refl _ _

theorem tch_moveNames {s a1} : Touches (50334768) s (@State.moveNames s a1) := by
  unfold State.moveNames
  try dsimp only
  refine Touches.upd_trip_loop (by decide) ?_
  refine Touches.foldl ?_ (fun _ _ h0 => ?_)
  · refine Touches.foldl ?_ (fun _ _ h0 => ?_)
    · refine Touches.foldl ?_ (fun _ _ h0 => ?_)
      · refine Touches.foldl ?_ (fun _ _ h0 => ?_)
        · refine Touches.foldl ?_ (fun _ _ h0 => ?_)
          · refine Touches.foldl ?_ (fun _ _ h0 => ?_)
            · exact Touches.refl _ _
            · refine Touches.comp tch_moveMask (by decide) ?_
              refine Touches.comp tch_moveMask (by decide) ?_
              exact h0
          · refine Touches.comp tch_moveMask (by decide) ?_
            exact h0
        · refine Touches.comp tch_moveMask (by decide) ?_
          exact h0
      · refine Touches.doIf ?_ (fun _ h1 => ?_)
        · exact h0
        · refine Touches.comp tch_moveOne (by decide) ?_
          exact h1
    · refine Touches.doIf ?_ (fun _ h1 => ?_)
      · exact h0
      · refine Touches.comp tch_moveOne (by decide) ?_
        exact h1
  · refine Touches.doIf ?_ (fun _ h1 => ?_)
    · exact h0
    · refine Touches.comp tch_moveOne (by decide) ?_
      exact h1

theorem tch_moveCtx {s a1 a2} : Touches (64) s (@State.moveCtx s a1 a2) := by
  unfold State.moveCtx
  try dsimp only
  refine Touches.comp tch_moveMask (by decide) ?_
  exact Touches.refl _ _

theorem tch_takeKernels {s a1 a2} : Touches (51383408) s (@State.takeKernels s a1 a2) := by
  unfold State.takeKernels
  try dsimp only
  refine Touches.foldl ?_ (fun _ _ h0 => ?_)
  · refine Touches.foldl ?_ (fun _ _ h0 => ?_)
    · refine Touches.comp tch_moveCtx (by decide) ?_
      refine Touches.comp tch_moveNames (by decide) ?_
      exact Touches.refl _ _
    · refine Touches.comp tch_setRole (by decide) ?_
      exact h0
  · refine Touches.doIf ?_ (fun _ h1 => ?_)
    · exact h0
    · refine Touches.comp tch_setRole (by decide) ?_
      exact h1

theorem tch_moveMem {s a1} : Touches (1048576) s (@State.moveMem s a1) := by
  unfold State.moveMem
  try dsimp only
  refine Touches.upd_sea (fun h => ⟨h.1, h.2.1, kwf_foldl _ (fun _ _ hm => kwf_kset _ _ hm) _ rfl⟩) (by decide) ?_
  exact Touches.refl _ _

theorem tch_postMoved {s a1} : Touches (65541) s (@State.postMoved s a1) := by
  unfold State.postMoved
  try dsimp only
  refine Touches.comp tch_post (by decide) ?_
  refine Touches.comp tch_incF (by decide) ?_
  exact Touches.refl _ _

theorem tch_placeCtx {s a1} : Touches (51448949) s (@State.placeCtx s a1) := by
  unfold State.placeCtx
  try dsimp only
  split
  · refine Touches.foldl ?_ (fun _ _ h0 => ?_)
    · refine Touches.comp tch_moveMem (by decide) ?_
      refine Touches.comp tch_takeKernels (by decide) ?_
      exact Touches.refl _ _
    · refine Touches.comp tch_postMoved (by decide) ?_
      exact h0
  · refine Touches.comp tch_placeFail (by decide) ?_
    refine Touches.comp tch_modCtx (by decide) ?_
    refine Touches.comp tch_setCtxFault (by decide) ?_
    refine Touches.comp tch_setCtxState (by decide) ?_
    exact Touches.refl _ _

theorem tch_moveRole {s a1 a2} : Touches (51448949) s (@State.moveRole s a1 a2) := by
  unfold State.moveRole
  try dsimp only
  refine Touches.comp tch_postMoved (by decide) ?_
  refine Touches.comp tch_setRole (by decide) ?_
  refine Touches.comp tch_setRole (by decide) ?_
  refine Touches.foldl ?_ (fun _ _ h0 => ?_)
  · refine Touches.comp tch_moveMem (by decide) ?_
    refine Touches.comp tch_moveNames (by decide) ?_
    exact Touches.refl _ _
  · refine Touches.comp tch_moveCtx (by decide) ?_
    exact h0

theorem tch_placeKernel {s a1} : Touches (4346416245) s (@State.placeKernel s a1) := by
  unfold State.placeKernel
  try dsimp only
  refine Touches.ite ?_ ?_
  · exact Touches.refl _ _
  · split
    · refine Touches.comp tch_moveRole (by decide) ?_
      exact Touches.refl _ _
    · refine Touches.ite ?_ ?_
      · refine Touches.foldl ?_ (fun _ _ h0 => ?_)
        · exact Touches.refl _ _
        · refine Touches.comp tch_placeCtx (by decide) ?_
          exact h0
      · refine Touches.ite ?_ ?_
        · refine Touches.comp tch_placeFail (by decide) ?_
          refine Touches.upd_cfg (by decide) ?_
          exact Touches.refl _ _
        · split
          · refine Touches.comp tch_moveRole (by decide) ?_
            exact Touches.refl _ _
          · refine Touches.comp tch_placeFail (by decide) ?_
            exact Touches.refl _ _

theorem tch_place {s} : Touches (4346416245) s (@State.place s) := by
  unfold State.place
  try dsimp only
  refine Touches.foldl ?_ (fun _ _ h0 => ?_)
  · refine Touches.comp tch_setF (by decide) ?_
    exact Touches.refl _ _
  · refine Touches.comp tch_placeKernel (by decide) ?_
    exact h0

theorem tch_cfgl {s a1 a2 a3 a4} : Touches (1138166333440) s (@State.cfgl s a1 a2 a3 a4) := by
  unfold State.cfgl
  try dsimp only
  refine Touches.comp tch_send (by decide) ?_
  refine Touches.upd_cfg (by decide) ?_
  exact Touches.refl _ _

theorem tch_cfglDone {s} : Touches (1138166333440) s (@State.cfglDone s) := by
  unfold State.cfglDone
  try dsimp only
  refine Touches.foldl ?_ (fun _ _ h0 => ?_)
  · refine Touches.foldl ?_ (fun _ _ h0 => ?_)
    · exact Touches.refl _ _
    · refine Touches.comp tch_cfgl (by decide) ?_
      exact h0
  · refine Touches.comp tch_cfgl (by decide) ?_
    exact h0

theorem tch_setSlotResult {s a1 a2} : Touches (4) s (@State.setSlotResult s a1 a2) := by
  unfold State.setSlotResult
  try dsimp only
  refine Touches.ite ?_ ?_
  · refine Touches.comp tch_setB (by decide) ?_
    refine Touches.comp tch_setF (by decide) ?_
    exact Touches.refl _ _
  · refine Touches.comp tch_setB (by decide) ?_
    refine Touches.comp tch_setF (by decide) ?_
    exact Touches.refl _ _

theorem tch_acceptImage {s} : Touches (1138217782389) s (@State.acceptImage s) := by
  unfold State.acceptImage
  try dsimp only
  refine Touches.upd_cfg (by decide) ?_
  refine Touches.comp tch_cfglDone (by decide) ?_
  refine Touches.comp tch_place (by decide) ?_
  refine Touches.comp tch_acqExtended (by decide) ?_
  refine Touches.doIf ?_ (fun _ h0 => ?_)
  · refine Touches.comp tch_setSlotResult (by decide) ?_
    exact Touches.refl _ _
  · refine Touches.comp tch_post (by decide) ?_
    refine Touches.comp tch_setB (by decide) ?_
    exact h0

theorem tch_actOutputs {s a1} : Touches (68719476736) s (@State.actOutputs s a1).1 := by
  unfold State.actOutputs
  try dsimp only
  split
  · exact Touches.refl _ _
  · refine Touches.upd_free (by decide) ?_
    exact Touches.refl _ _

theorem tch_refuse {s a1 a2 a3 a4 a5} : Touches (65539) s (@State.refuse s a1 a2 a3 a4 a5) := by
  unfold State.refuse
  try dsimp only
  refine Touches.comp tch_postLimited (by decide) ?_
  refine Touches.comp tch_setF (by decide) ?_
  refine Touches.comp tch_setF (by decide) ?_
  refine Touches.comp tch_setF (by decide) ?_
  refine Touches.comp tch_setB (by decide) ?_
  refine Touches.comp tch_setF (by decide) ?_
  refine Touches.comp tch_setF (by decide) ?_
  refine Touches.comp tch_incF (by decide) ?_
  exact Touches.refl _ _

theorem tch_setSession {s a1 a2} : Touches (131072) s (@State.setSession s a1 a2) := by
  unfold State.setSession
  try dsimp only
  refine Touches.upd_husk (by decide) ?_
  exact Touches.refl _ _

theorem tch_touch {s a1} : Touches (131072) s (@State.touch s a1) := by
  unfold State.touch
  try dsimp only
  refine Touches.ite ?_ ?_
  · refine Touches.comp tch_setSession (by decide) ?_
    exact Touches.refl _ _
  · exact Touches.refl _ _

theorem tch_badAccess {s a1 a2 a3 a4} : Touches (65537) s (@State.badAccess s a1 a2 a3 a4) := by
  unfold State.badAccess
  try dsimp only
  refine Touches.comp tch_post (by decide) ?_
  exact Touches.refl _ _

theorem tch_writeAt {s a1 a2 a3 a4} : Touches (196611 ||| 2 ^ a2.num) s (@State.writeAt s a1 a2 a3 a4).1 := by
  unfold State.writeAt
  try dsimp only
  split
  · try dsimp only
    exact Touches.refl _ _
  · try dsimp only
    split
    · refine Touches.comp tch_badAccess (by first | decide | exact Nat.zero_and _ | exact Nat.and_self _ | exact maskR _ _ | exact maskL (maskR _ _) | exact maskL (Nat.and_self _) | exact maskL (by decide) | exact maskL (maskL (by decide)) | exact maskOr (maskL (by decide)) (maskR _ _) | exact maskOr (maskL (by decide)) (maskL (maskR _ _)) | exact maskOr (maskL (by decide)) (Nat.and_self _) | exact maskOr (maskL (maskL (by decide))) (maskR _ _) | exact maskOr (maskL (maskL (by decide))) (maskL (maskR _ _)) | exact maskOr (maskL (maskL (by decide))) (Nat.and_self _)) ?_
      exact Touches.refl _ _
    · split
      · refine Touches.comp tch_touch (by first | decide | exact Nat.zero_and _ | exact Nat.and_self _ | exact maskR _ _ | exact maskL (maskR _ _) | exact maskL (Nat.and_self _) | exact maskL (by decide) | exact maskL (maskL (by decide)) | exact maskOr (maskL (by decide)) (maskR _ _) | exact maskOr (maskL (by decide)) (maskL (maskR _ _)) | exact maskOr (maskL (by decide)) (Nat.and_self _) | exact maskOr (maskL (maskL (by decide))) (maskR _ _) | exact maskOr (maskL (maskL (by decide))) (maskL (maskR _ _)) | exact maskOr (maskL (maskL (by decide))) (Nat.and_self _)) ?_
        exact Touches.refl _ _
      · refine Touches.comp tch_refuse (by first | decide | exact Nat.zero_and _ | exact Nat.and_self _ | exact maskR _ _ | exact maskL (maskR _ _) | exact maskL (Nat.and_self _) | exact maskL (by decide) | exact maskL (maskL (by decide)) | exact maskOr (maskL (by decide)) (maskR _ _) | exact maskOr (maskL (by decide)) (maskL (maskR _ _)) | exact maskOr (maskL (by decide)) (Nat.and_self _) | exact maskOr (maskL (maskL (by decide))) (maskR _ _) | exact maskOr (maskL (maskL (by decide))) (maskL (maskR _ _)) | exact maskOr (maskL (maskL (by decide))) (Nat.and_self _)) ?_
        exact Touches.refl _ _
      · refine Touches.comp tch_setWord (by first | decide | exact Nat.zero_and _ | exact Nat.and_self _ | exact maskR _ _ | exact maskL (maskR _ _) | exact maskL (Nat.and_self _) | exact maskL (by decide) | exact maskL (maskL (by decide)) | exact maskOr (maskL (by decide)) (maskR _ _) | exact maskOr (maskL (by decide)) (maskL (maskR _ _)) | exact maskOr (maskL (by decide)) (Nat.and_self _) | exact maskOr (maskL (maskL (by decide))) (maskR _ _) | exact maskOr (maskL (maskL (by decide))) (maskL (maskR _ _)) | exact maskOr (maskL (maskL (by decide))) (Nat.and_self _)) ?_
        refine Touches.comp tch_touch (by first | decide | exact Nat.zero_and _ | exact Nat.and_self _ | exact maskR _ _ | exact maskL (maskR _ _) | exact maskL (Nat.and_self _) | exact maskL (by decide) | exact maskL (maskL (by decide)) | exact maskOr (maskL (by decide)) (maskR _ _) | exact maskOr (maskL (by decide)) (maskL (maskR _ _)) | exact maskOr (maskL (by decide)) (Nat.and_self _) | exact maskOr (maskL (maskL (by decide))) (maskR _ _) | exact maskOr (maskL (maskL (by decide))) (maskL (maskR _ _)) | exact maskOr (maskL (maskL (by decide))) (Nat.and_self _)) ?_
        exact Touches.refl _ _

theorem tch_actionWrite {s a1 a2 a3 a4 a5} : Touches (196611 ||| 2 ^ a2.blk.num) s (@State.actionWrite s a1 a2 a3 a4 a5).1 := by
  unfold State.actionWrite
  try dsimp only
  split
  · refine Touches.compEq tch_writeAt (by assumption) (by first | decide | exact Nat.zero_and _ | exact Nat.and_self _ | exact maskR _ _ | exact maskL (maskR _ _) | exact maskL (Nat.and_self _) | exact maskL (by decide) | exact maskL (maskL (by decide)) | exact maskOr (maskL (by decide)) (maskR _ _) | exact maskOr (maskL (by decide)) (maskL (maskR _ _)) | exact maskOr (maskL (by decide)) (Nat.and_self _) | exact maskOr (maskL (maskL (by decide))) (maskR _ _) | exact maskOr (maskL (maskL (by decide))) (maskL (maskR _ _)) | exact maskOr (maskL (maskL (by decide))) (Nat.and_self _)) ?_
    exact Touches.refl _ _
  · refine Touches.compEq tch_writeAt (by assumption) (by first | decide | exact Nat.zero_and _ | exact Nat.and_self _ | exact maskR _ _ | exact maskL (maskR _ _) | exact maskL (Nat.and_self _) | exact maskL (by decide) | exact maskL (maskL (by decide)) | exact maskOr (maskL (by decide)) (maskR _ _) | exact maskOr (maskL (by decide)) (maskL (maskR _ _)) | exact maskOr (maskL (by decide)) (Nat.and_self _) | exact maskOr (maskL (maskL (by decide))) (maskR _ _) | exact maskOr (maskL (maskL (by decide))) (maskL (maskR _ _)) | exact maskOr (maskL (maskL (by decide))) (Nat.and_self _)) ?_
    exact Touches.refl _ _

theorem tch_setAxHalf {s a1 a2 a3} : Touches (67108864) s (@State.setAxHalf s a1 a2 a3) := by
  unfold State.setAxHalf
  try dsimp only
  refine Touches.upd_safe (by decide) ?_
  exact Touches.refl _ _

theorem tch_activations {s a1 a2} : Touches (67108864) s (@State.activations s a1 a2) := by
  unfold State.activations
  try dsimp only
  refine Touches.comp tch_setAxHalf (by decide) ?_
  exact Touches.refl _ _

theorem tch_pushExc {s a1 a2} : Touches (34363932672) s (@State.pushExc s a1 a2) := by
  unfold State.pushExc
  try dsimp only
  refine Touches.comp tch_emit (by decide) ?_
  refine Touches.comp tch_setPi (by decide) ?_
  exact Touches.refl _ _

theorem tch_excSwitch {s a1 a2} : Touches (34363932672) s (@State.excSwitch s a1 a2) := by
  unfold State.excSwitch
  try dsimp only
  split
  · refine Touches.comp tch_pushExc (by decide) ?_
    exact Touches.refl _ _
  · exact Touches.refl _ _

theorem tch_piStatCleared {s a1 a2} : Touches (34363932704) s (@State.piStatCleared s a1 a2) := by
  unfold State.piStatCleared
  try dsimp only
  refine Touches.doIf ?_ (fun _ h0 => ?_)
  · refine Touches.doIf ?_ (fun _ h0 => ?_)
    · exact Touches.refl _ _
    · refine Touches.comp tch_setB (by decide) ?_
      exact h0
  · refine Touches.comp tch_excSwitch (by decide) ?_
    exact h0

theorem tch_measAggregates {s} : Touches (16) s (@State.measAggregates s) := by
  unfold State.measAggregates
  try dsimp only
  refine Touches.comp tch_setB (by decide) ?_
  refine Touches.comp tch_setB (by decide) ?_
  refine Touches.comp tch_setB (by decide) ?_
  refine Touches.comp tch_setB (by decide) ?_
  exact Touches.refl _ _

theorem tch_afterWrite {s a1 a2} : Touches (34389199281) s (@State.afterWrite s a1 a2) := by
  unfold State.afterWrite
  try dsimp only
  split
  · refine Touches.comp tch_measAggregates (by decide) ?_
    exact Touches.refl _ _
  · refine Touches.ite ?_ ?_
    · refine Touches.comp tch_settle (by decide) ?_
      refine Touches.comp tch_piStatCleared (by decide) ?_
      exact Touches.refl _ _
    · exact Touches.refl _ _
  · refine Touches.ite ?_ ?_
    · refine Touches.comp tch_setF (by decide) ?_
      exact Touches.refl _ _
    · exact Touches.refl _ _
  · exact Touches.refl _ _

theorem tch_draw {s} : Touches (68719476736) s (@State.draw s).1 := by
  unfold State.draw
  try dsimp only
  refine Touches.upd_free (by decide) ?_
  exact Touches.refl _ _

theorem tch_age {s a1} : Touches (68719476736) s (@State.age s a1).1 := by
  unfold State.age
  try dsimp only
  split
  · exact Touches.refl _ _
  · refine Touches.comp tch_draw (by decide) ?_
    exact Touches.refl _ _

theorem tch_agentReply {s a1 a2 a3 a4 a5} : Touches (1134005649417) s (@State.agentReply s a1 a2 a3 a4 a5) := by
  unfold State.agentReply
  try dsimp only
  split
  · refine Touches.comp tch_reply (by decide) ?_
    exact Touches.refl _ _
  · exact Touches.refl _ _

theorem tch_modDrv {s a1 a2} : Touches (33554432) s (@State.modDrv s a1 a2) := by
  unfold State.modDrv
  try dsimp only
  refine Touches.comp tch_modCtx (by decide) ?_
  exact Touches.refl _ _

theorem tch_drvEnter {s a1 a2} : Touches (33619969) s (@State.drvEnter s a1 a2) := by
  unfold State.drvEnter
  try dsimp only
  refine Touches.doIf ?_ (fun _ h0 => ?_)
  · refine Touches.comp tch_modDrv (by decide) ?_
    exact Touches.refl _ _
  · refine Touches.comp tch_post (by decide) ?_
    exact h0

theorem tch_angleLost {s a1 a2 a3} : Touches (33619969) s (@State.angleLost s a1 a2 a3) := by
  unfold State.angleLost
  try dsimp only
  refine Touches.ite ?_ ?_
  · refine Touches.comp tch_modDrv (by decide) ?_
    refine Touches.comp tch_drvEnter (by decide) ?_
    refine Touches.comp tch_post (by decide) ?_
    exact Touches.refl _ _
  · refine Touches.comp tch_modDrv (by decide) ?_
    refine Touches.comp tch_drvEnter (by decide) ?_
    refine Touches.comp tch_modCtx (by decide) ?_
    refine Touches.comp tch_post (by decide) ?_
    exact Touches.refl _ _

theorem tch_setDemands {s a1} : Touches (34452111745) s (@State.setDemands s a1) := by
  unfold State.setDemands
  try dsimp only
  refine Touches.comp tch_settle (by decide) ?_
  refine Touches.upd_safe (by decide) ?_
  exact Touches.refl _ _

theorem tch_stoUp {s} : Touches (16777216) s (@State.stoUp s) := by
  unfold State.stoUp
  try dsimp only
  refine Touches.ite ?_ ?_
  · refine Touches.upd_trip (by decide) ?_
    exact Touches.refl _ _
  · exact Touches.refl _ _

theorem tch_stoBits {s} : Touches (256) s (@State.stoBits s) := by
  unfold State.stoBits
  try dsimp only
  refine Touches.foldl ?_ (fun _ _ h0 => ?_)
  · exact Touches.refl _ _
  · refine Touches.comp tch_setB (by decide) ?_
    exact h0

theorem tch_stoDown {s} : Touches (34385002881) s (@State.stoDown s) := by
  unfold State.stoDown
  try dsimp only
  refine Touches.ite ?_ ?_
  · refine Touches.upd_trip (by decide) ?_
    exact Touches.refl _ _
  · refine Touches.comp tch_settle (by decide) ?_
    refine Touches.comp tch_stoBits (by decide) ?_
    refine Touches.upd_trip (by decide) ?_
    exact Touches.refl _ _

theorem tch_setSafeOut {s a1 a2} : Touches (67108864) s (@State.setSafeOut s a1 a2) := by
  unfold State.setSafeOut
  try dsimp only
  refine Touches.upd_safe (by decide) ?_
  exact Touches.refl _ _

theorem tch_setOut {s a1 a2} : Touches (34452112257) s (@State.setOut s a1 a2) := by
  unfold State.setOut
  try dsimp only
  refine Touches.ite ?_ ?_
  · exact Touches.refl _ _
  · refine Touches.ite ?_ ?_
    · refine Touches.comp tch_emit (by decide) ?_
      refine Touches.comp tch_setSafeOut (by decide) ?_
      refine Touches.comp tch_setBitF (by decide) ?_
      exact Touches.refl _ _
    · refine Touches.ite ?_ ?_
      · refine Touches.comp tch_stoDown (by decide) ?_
        refine Touches.comp tch_emit (by decide) ?_
        refine Touches.comp tch_setSafeOut (by decide) ?_
        refine Touches.comp tch_setBitF (by decide) ?_
        exact Touches.refl _ _
      · refine Touches.doIf ?_ (fun _ h0 => ?_)
        · refine Touches.comp tch_emit (by decide) ?_
          refine Touches.comp tch_setSafeOut (by decide) ?_
          refine Touches.comp tch_setBitF (by decide) ?_
          exact Touches.refl _ _
        · refine Touches.comp tch_stoUp (by decide) ?_
          exact h0

theorem tch_applyResults {s} : Touches (34452112257) s (@State.applyResults s) := by
  unfold State.applyResults
  try dsimp only
  refine Touches.comp tch_setDemands (by decide) ?_
  refine Touches.foldl ?_ (fun _ _ h0 => ?_)
  · exact Touches.refl _ _
  · refine Touches.comp tch_setOut (by decide) ?_
    exact h0

theorem tch_sendParams {s a1 a2} : Touches (1133871366144) s (@State.sendParams s a1 a2) := by
  unfold State.sendParams
  try dsimp only
  refine Touches.foldl ?_ (fun _ _ h0 => ?_)
  · exact Touches.refl _ _
  · refine Touches.comp tch_send (by decide) ?_
    exact h0

theorem tch_applySet {s} : Touches (1134072758793) s (@State.applySet s) := by
  unfold State.applySet
  try dsimp only
  split
  · exact Touches.refl _ _
  · refine Touches.comp tch_finish (by decide) ?_
    refine Touches.comp tch_post (by decide) ?_
    refine Touches.comp tch_setF (by decide) ?_
    refine Touches.foldl ?_ (fun _ _ h0 => ?_)
    · refine Touches.upd_safe (by decide) ?_
      exact Touches.refl _ _
    · refine Touches.doIf ?_ (fun _ h1 => ?_)
      · exact h0
      · refine Touches.comp tch_sendParams (by decide) ?_
        exact h1

theorem tch_applyStep {s a1} : Touches (268502017) s (@State.applyStep s a1) := by
  unfold State.applyStep
  try dsimp only
  refine Touches.comp tch_post (by decide) ?_
  refine Touches.comp tch_incF (by decide) ?_
  refine Touches.upd_net (by decide) ?_
  exact Touches.refl _ _

theorem tch_armSafe {s} : Touches (34452112257) s (@State.armSafe s) := by
  unfold State.armSafe
  try dsimp only
  refine Touches.ite ?_ ?_
  · refine Touches.comp tch_setDemands (by decide) ?_
    refine Touches.upd_safe (by decide) ?_
    refine Touches.foldl ?_ (fun _ _ h0 => ?_)
    · refine Touches.foldl ?_ (fun _ _ h0 => ?_)
      · refine Touches.comp tch_post (by decide) ?_
        refine Touches.comp tch_setB (by decide) ?_
        exact Touches.refl _ _
      · refine Touches.comp tch_setF (by decide) ?_
        exact h0
    · refine Touches.foldl ?_ (fun _ _ h1 => ?_)
      · exact h0
      · refine Touches.comp tch_setAxHalf (by decide) ?_
        exact h1
  · exact Touches.refl _ _

theorem tch_armTrip {s} : Touches (34385002881) s (@State.armTrip s) := by
  unfold State.armTrip
  try dsimp only
  refine Touches.ite ?_ ?_
  · refine Touches.foldl ?_ (fun _ _ h0 => ?_)
    · refine Touches.comp tch_setB (by decide) ?_
      exact Touches.refl _ _
    · refine Touches.comp tch_settlePins (by decide) ?_
      refine Touches.comp tch_settleTarget (by decide) ?_
      exact h0
  · exact Touches.refl _ _

theorem tch_modGrid {s a1 a2} : Touches (33554432) s (@State.modGrid s a1 a2) := by
  unfold State.modGrid
  try dsimp only
  refine Touches.comp tch_modCtx (by decide) ?_
  exact Touches.refl _ _

theorem tch_gridEnter {s a1 a2} : Touches (33619969) s (@State.gridEnter s a1 a2) := by
  unfold State.gridEnter
  try dsimp only
  refine Touches.doIf ?_ (fun _ h0 => ?_)
  · refine Touches.comp tch_modGrid (by decide) ?_
    exact Touches.refl _ _
  · refine Touches.comp tch_post (by decide) ?_
    exact h0

theorem tch_gridModeInit {s a1 a2} : Touches (33619969) s (@State.gridModeInit s a1 a2) := by
  unfold State.gridModeInit
  try dsimp only
  refine Touches.ite ?_ ?_
  · refine Touches.ite ?_ ?_
    · refine Touches.doIf ?_ (fun _ h0 => ?_)
      · refine Touches.comp tch_modGrid (by decide) ?_
        refine Touches.comp tch_modGrid (by decide) ?_
        exact Touches.refl _ _
      · refine Touches.comp tch_gridEnter (by decide) ?_
        refine Touches.comp tch_modGrid (by decide) ?_
        exact h0
    · refine Touches.comp tch_modGrid (by decide) ?_
      exact Touches.refl _ _
  · refine Touches.comp tch_modGrid (by decide) ?_
    exact Touches.refl _ _

theorem tch_setVariant {s a1 a2 a3} : Touches (33620033) s (@State.setVariant s a1 a2 a3).1 := by
  unfold State.setVariant
  try dsimp only
  split
  · try dsimp only
    exact Touches.refl _ _
  · try dsimp only
    split
    · try dsimp only
      refine Touches.comp tch_gridModeInit (by decide) ?_
      refine Touches.comp tch_setF (by decide) ?_
      exact Touches.refl _ _
    · try dsimp only
      refine Touches.comp tch_setF (by decide) ?_
      exact Touches.refl _ _

theorem tch_askedVariant {s a1 a2} : Touches (33620033) s (@State.askedVariant s a1 a2).1 := by
  unfold State.askedVariant
  try dsimp only
  split
  · split
    · try dsimp only
      refine Touches.comp tch_setVariant (by decide) ?_
      exact Touches.refl _ _
    · try dsimp only
      exact Touches.refl _ _
  · exact Touches.refl _ _

theorem tch_pinsLow {s} : Touches (34359738368) s (@State.pinsLow s) := by
  unfold State.pinsLow
  try dsimp only
  refine Touches.foldl ?_ (fun _ _ h0 => ?_)
  · refine Touches.foldl ?_ (fun _ _ h0 => ?_)
    · exact Touches.refl _ _
    · refine Touches.comp tch_emit (by decide) ?_
      exact h0
  · refine Touches.comp tch_emit (by decide) ?_
    exact h0

theorem tch_keepF {s a1 a2} : Touches (2 ^ a2.blk.num) s (@State.keepF s a1 a2) := by
  unfold State.keepF
  try dsimp only
  refine Touches.comp tch_setF (by first | decide | exact Nat.zero_and _ | exact Nat.and_self _ | exact maskR _ _ | exact maskL (maskR _ _) | exact maskL (Nat.and_self _) | exact maskL (by decide) | exact maskL (maskL (by decide)) | exact maskOr (maskL (by decide)) (maskR _ _) | exact maskOr (maskL (by decide)) (maskL (maskR _ _)) | exact maskOr (maskL (by decide)) (Nat.and_self _) | exact maskOr (maskL (maskL (by decide))) (maskR _ _) | exact maskOr (maskL (maskL (by decide))) (maskL (maskR _ _)) | exact maskOr (maskL (maskL (by decide))) (Nat.and_self _)) ?_
  exact Touches.refl _ _

theorem tch_cleared {s} : Touches (1932735021055) s (@State.cleared s) := by
  unfold State.cleared
  refine Touches.foldl ?_ (fun _ _ h0 => Touches.comp tch_keepF (blkOk _ (by decide)) h0)
  refine ⟨fun p hp => ?_, fun i => ⟨Regs.canon_reset, ⟨rfl, rfl, rfl⟩, ⟨Nat.zero_le _, Nat.zero_le _, List.pairwise_singleton _ _⟩, i.tap⟩, fun hb => absurd hb (by decide), fun hb => absurd hb (by decide)⟩
  cases p <;> first | rfl | exact absurd hp (by decide) | (rename_i b; cases b <;> exact absurd hp (by decide))

theorem tch_assertReset {s a1} : Touches (1967094759423 ||| 2 ^ a1.blk.num) s (@State.assertReset s a1) := by
  unfold State.assertReset
  try dsimp only
  refine Touches.comp tch_setB (by first | decide | exact Nat.zero_and _ | exact Nat.and_self _ | exact maskR _ _ | exact maskL (maskR _ _) | exact maskL (Nat.and_self _) | exact maskL (by decide) | exact maskL (maskL (by decide)) | exact maskOr (maskL (by decide)) (maskR _ _) | exact maskOr (maskL (by decide)) (maskL (maskR _ _)) | exact maskOr (maskL (by decide)) (Nat.and_self _) | exact maskOr (maskL (maskL (by decide))) (maskR _ _) | exact maskOr (maskL (maskL (by decide))) (maskL (maskR _ _)) | exact maskOr (maskL (maskL (by decide))) (Nat.and_self _)) ?_
  refine Touches.doIf ?_ (fun _ h0 => ?_)
  · refine Touches.comp tch_cleared (by first | decide | exact Nat.zero_and _ | exact Nat.and_self _ | exact maskR _ _ | exact maskL (maskR _ _) | exact maskL (Nat.and_self _) | exact maskL (by decide) | exact maskL (maskL (by decide)) | exact maskOr (maskL (by decide)) (maskR _ _) | exact maskOr (maskL (by decide)) (maskL (maskR _ _)) | exact maskOr (maskL (by decide)) (Nat.and_self _) | exact maskOr (maskL (maskL (by decide))) (maskR _ _) | exact maskOr (maskL (maskL (by decide))) (maskL (maskR _ _)) | exact maskOr (maskL (maskL (by decide))) (Nat.and_self _)) ?_
    refine Touches.comp tch_pinsLow (by first | decide | exact Nat.zero_and _ | exact Nat.and_self _ | exact maskR _ _ | exact maskL (maskR _ _) | exact maskL (Nat.and_self _) | exact maskL (by decide) | exact maskL (maskL (by decide)) | exact maskOr (maskL (by decide)) (maskR _ _) | exact maskOr (maskL (by decide)) (maskL (maskR _ _)) | exact maskOr (maskL (by decide)) (Nat.and_self _) | exact maskOr (maskL (maskL (by decide))) (maskR _ _) | exact maskOr (maskL (maskL (by decide))) (maskL (maskR _ _)) | exact maskOr (maskL (maskL (by decide))) (Nat.and_self _)) ?_
    exact Touches.refl _ _
  · refine Touches.comp tch_setWord (by first | decide | exact Nat.zero_and _ | exact Nat.and_self _ | exact maskR _ _ | exact maskL (maskR _ _) | exact maskL (Nat.and_self _) | exact maskL (by decide) | exact maskL (maskL (by decide)) | exact maskOr (maskL (by decide)) (maskR _ _) | exact maskOr (maskL (by decide)) (maskL (maskR _ _)) | exact maskOr (maskL (by decide)) (Nat.and_self _) | exact maskOr (maskL (maskL (by decide))) (maskR _ _) | exact maskOr (maskL (maskL (by decide))) (maskL (maskR _ _)) | exact maskOr (maskL (maskL (by decide))) (Nat.and_self _)) ?_
    exact h0

theorem tch_atHandler {s a1} : Touches (134217728) s (@State.atHandler s a1) := by
  unfold State.atHandler
  try dsimp only
  refine Touches.comp tch_modDesc (by decide) ?_
  exact Touches.refl _ _

theorem tch_setCanCtl {s a1 a2} : Touches (536870912) s (@State.setCanCtl s a1 a2) := by
  unfold State.setCanCtl
  try dsimp only
  refine Touches.upd_can (by decide) ?_
  exact Touches.refl _ _

theorem tch_attempt {s a1 a2 a3} : Touches (35030827008) s (@State.attempt s a1 a2 a3) := by
  unfold State.attempt
  try dsimp only
  refine Touches.ite ?_ ?_
  · refine Touches.comp tch_emit (by decide) ?_
    refine Touches.comp tch_setCanCtl (by decide) ?_
    exact Touches.refl _ _
  · split
    · refine Touches.comp tch_emit (by decide) ?_
      split
      · refine Touches.comp tch_modDesc (by decide) ?_
        refine Touches.comp tch_setCanCtl (by decide) ?_
        exact Touches.refl _ _
      · refine Touches.comp tch_setCanCtl (by decide) ?_
        exact Touches.refl _ _
    · refine Touches.comp tch_setCanCtl (by decide) ?_
      exact Touches.refl _ _

theorem tch_refMissed {s a1} : Touches (67585) s (@State.refMissed s a1) := by
  unfold State.refMissed
  try dsimp only
  refine Touches.comp tch_raise (by decide) ?_
  refine Touches.comp tch_incF (by decide) ?_
  exact Touches.refl _ _

theorem tch_attemptEnd {s a1} : Touches (536938497) s (@State.attemptEnd s a1) := by
  unfold State.attemptEnd
  try dsimp only
  refine Touches.doIf ?_ (fun _ h0 => ?_)
  · refine Touches.comp tch_setCanCtl (by decide) ?_
    exact Touches.refl _ _
  · refine Touches.comp tch_refMissed (by decide) ?_
    exact h0

theorem tch_setCanObj {s a1 a2} : Touches (536872960) s (@State.setCanObj s a1 a2) := by
  unfold State.setCanObj
  try dsimp only
  refine Touches.comp tch_setF (by decide) ?_
  refine Touches.upd_can (by decide) ?_
  exact Touches.refl _ _

theorem tch_sendItem {s a1 a2 a3 a4 a5 a6} : Touches (1133871431681) s (@State.sendItem s a1 a2 a3 a4 a5 a6) := by
  unfold State.sendItem
  try dsimp only
  refine Touches.doIf ?_ (fun _ h0 => ?_)
  · exact Touches.refl _ _
  · refine Touches.foldl ?_ (fun _ _ h1 => ?_)
    · exact h0
    · refine Touches.comp tch_transmit (by decide) ?_
      exact h1

theorem tch_canItem {s a1 a2 a3 a4 a5 a6 a7 a8 a9 a10 a11 a12 a13} : Touches (1133871431681) s (@State.canItem s a1 a2 a3 a4 a5 a6 a7 a8 a9 a10 a11 a12 a13) := by
  unfold State.canItem
  try dsimp only
  refine Touches.comp tch_sendItem (by decide) ?_
  exact Touches.refl _ _

theorem tch_canOver {s a1 a2 a3 a4} : Touches (1134005649417) s (@State.canOver s a1 a2 a3 a4) := by
  unfold State.canOver
  try dsimp only
  split
  · refine Touches.comp tch_canItem (by decide) ?_
    exact Touches.refl _ _
  · refine Touches.comp tch_reply (by decide) ?_
    refine Touches.comp tch_canItem (by decide) ?_
    exact Touches.refl _ _

theorem tch_headOver {s a1 a2 a3} : Touches (1134542522377) s (@State.headOver s a1 a2 a3) := by
  unfold State.headOver
  try dsimp only
  split
  · refine Touches.comp tch_canOver (by decide) ?_
    refine Touches.comp tch_setCanObj (by decide) ?_
    exact Touches.refl _ _
  · exact Touches.refl _ _

theorem tch_triedOver {s a1 a2} : Touches (1134542522377) s (@State.triedOver s a1 a2) := by
  unfold State.triedOver
  try dsimp only
  refine Touches.ite ?_ ?_
  · refine Touches.comp tch_headOver (by decide) ?_
    exact Touches.refl _ _
  · refine Touches.ite ?_ ?_
    · refine Touches.comp tch_headOver (by decide) ?_
      exact Touches.refl _ _
    · exact Touches.refl _ _

theorem tch_failObj {s a1 a2 a3} : Touches (1134542522377) s (@State.failObj s a1 a2 a3) := by
  unfold State.failObj
  try dsimp only
  refine Touches.foldl ?_ (fun _ _ h0 => ?_)
  · refine Touches.comp tch_setCanObj (by decide) ?_
    exact Touches.refl _ _
  · refine Touches.comp tch_canOver (by decide) ?_
    exact h0

theorem tch_objNoAck {s a1} : Touches (1134542522377) s (@State.objNoAck s a1) := by
  unfold State.objNoAck
  try dsimp only
  refine Touches.doIf ?_ (fun _ h0 => ?_)
  · refine Touches.comp tch_incF (by decide) ?_
    refine Touches.comp tch_incF (by decide) ?_
    exact Touches.refl _ _
  · refine Touches.comp tch_post (by decide) ?_
    refine Touches.comp tch_failObj (by decide) ?_
    refine Touches.comp tch_setB (by decide) ?_
    exact h0

theorem tch_objCollision {s a1} : Touches (1134542522377) s (@State.objCollision s a1) := by
  unfold State.objCollision
  try dsimp only
  refine Touches.doIf ?_ (fun _ h0 => ?_)
  · refine Touches.comp tch_incF (by decide) ?_
    exact Touches.refl _ _
  · refine Touches.comp tch_post (by decide) ?_
    refine Touches.comp tch_failObj (by decide) ?_
    refine Touches.comp tch_setB (by decide) ?_
    exact h0

theorem tch_refCollision {s a1} : Touches (536938497) s (@State.refCollision s a1) := by
  unfold State.refCollision
  try dsimp only
  refine Touches.ite ?_ ?_
  · refine Touches.comp tch_setCanCtl (by decide) ?_
    exact Touches.refl _ _
  · refine Touches.comp tch_post (by decide) ?_
    refine Touches.comp tch_setB (by decide) ?_
    refine Touches.comp tch_setCanCtl (by decide) ?_
    exact Touches.refl _ _

theorem tch_attemptError {s a1 a2 a3 a4} : Touches (1134542522377) s (@State.attemptError s a1 a2 a3 a4) := by
  unfold State.attemptError
  try dsimp only
  refine Touches.ite ?_ ?_
  · refine Touches.comp tch_attemptEnd (by decide) ?_
    refine Touches.doIf ?_ (fun _ h0 => ?_)
    · exact Touches.refl _ _
    · refine Touches.comp tch_refCollision (by decide) ?_
      exact h0
  · refine Touches.comp tch_attemptEnd (by decide) ?_
    refine Touches.doIf ?_ (fun _ h0 => ?_)
    · refine Touches.ite ?_ ?_
      · refine Touches.comp tch_objCollision (by decide) ?_
        exact Touches.refl _ _
      · refine Touches.ite ?_ ?_
        · refine Touches.comp tch_objNoAck (by decide) ?_
          exact Touches.refl _ _
        · exact Touches.refl _ _
    · refine Touches.comp tch_triedOver (by decide) ?_
      exact h0

theorem tch_attemptLost {s a1} : Touches (1134542522377) s (@State.attemptLost s a1) := by
  unfold State.attemptLost
  try dsimp only
  split
  · exact Touches.refl _ _
  · refine Touches.comp tch_attemptEnd (by decide) ?_
    refine Touches.doIf ?_ (fun _ h0 => ?_)
    · exact Touches.refl _ _
    · refine Touches.comp tch_triedOver (by decide) ?_
      exact h0

theorem tch_axEnter {s a1 a2 a3} : Touches (67108864) s (@State.axEnter s a1 a2 a3) := by
  unfold State.axEnter
  try dsimp only
  refine Touches.ite ?_ ?_
  · exact Touches.refl _ _
  · refine Touches.comp tch_setAxHalf (by decide) ?_
    exact Touches.refl _ _

theorem tch_axisAt {s a1 a2} : Touches (67108864) s (@State.axisAt s a1 a2) := by
  unfold State.axisAt
  try dsimp only
  refine Touches.ite ?_ ?_
  · refine Touches.ite ?_ ?_
    · refine Touches.comp tch_axEnter (by decide) ?_
      exact Touches.refl _ _
    · refine Touches.ite ?_ ?_
      · refine Touches.comp tch_axEnter (by decide) ?_
        exact Touches.refl _ _
      · exact Touches.refl _ _
  · refine Touches.ite ?_ ?_
    · refine Touches.ite ?_ ?_
      · refine Touches.comp tch_axEnter (by decide) ?_
        refine Touches.comp tch_setAxHalf (by decide) ?_
        exact Touches.refl _ _
      · refine Touches.comp tch_setAxHalf (by decide) ?_
        exact Touches.refl _ _
    · refine Touches.doIf ?_ (fun _ h0 => ?_)
      · exact Touches.refl _ _
      · refine Touches.comp tch_axEnter (by decide) ?_
        exact h0

theorem tch_setBacking {s a1 a2} : Touches (2147483648) s (@State.setBacking s a1 a2) := by
  unfold State.setBacking
  try dsimp only
  refine Touches.upd_rel (by decide) ?_
  exact Touches.refl _ _

theorem tch_backPod {s a1} : Touches (2147483648) s (@State.backPod s a1) := by
  unfold State.backPod
  try dsimp only
  refine Touches.foldl ?_ (fun _ _ h0 => ?_)
  · exact Touches.refl _ _
  · refine Touches.comp tch_setBacking (by decide) ?_
    exact h0

theorem tch_barRead {s a1 a2} : Touches (196611) s (@State.barRead s a1 a2).1 := by
  unfold State.barRead
  try dsimp only
  split
  · try dsimp only
    exact Touches.refl _ _
  · try dsimp only
    split
    · refine Touches.comp tch_badAccess (by decide) ?_
      exact Touches.refl _ _
    · split
      · try dsimp only
        exact Touches.refl _ _
      · try dsimp only
        split
        · refine Touches.comp tch_badAccess (by decide) ?_
          exact Touches.refl _ _
        · split
          · try dsimp only
            refine Touches.comp tch_touch (by decide) ?_
            exact Touches.refl _ _
          · try dsimp only
            refine Touches.comp tch_refuse (by decide) ?_
            exact Touches.refl _ _

theorem tch_bcClose {s a1} : Touches (98305) s (@State.bcClose s a1) := by
  unfold State.bcClose
  try dsimp only
  refine Touches.comp tch_post (by decide) ?_
  refine Touches.comp tch_setF (by decide) ?_
  exact Touches.refl _ _

theorem tch_bcCommutate {s a1} : Touches (584140816769) s (@State.bcCommutate s a1) := by
  unfold State.bcCommutate
  try dsimp only
  refine Touches.comp tch_bcApply (by decide) ?_
  refine Touches.comp tch_setBc (by decide) ?_
  exact Touches.refl _ _

theorem tch_bcFail {s a1} : Touches (584140816769) s (@State.bcFail s a1) := by
  unfold State.bcFail
  try dsimp only
  refine Touches.ite ?_ ?_
  · refine Touches.comp tch_setBc (by decide) ?_
    refine Touches.comp tch_setF (by decide) ?_
    refine Touches.comp tch_bcOff (by decide) ?_
    exact Touches.refl _ _
  · refine Touches.comp tch_setBc (by decide) ?_
    refine Touches.comp tch_raise (by decide) ?_
    refine Touches.comp tch_bcOff (by decide) ?_
    exact Touches.refl _ _

theorem tch_bcSync {s} : Touches (1683686539649) s (@State.bcSync s) := by
  unfold State.bcSync
  try dsimp only
  refine Touches.ite ?_ ?_
  · exact Touches.refl _ _
  · refine Touches.foldl ?_ (fun _ _ h0 => ?_)
    · exact Touches.refl _ _
    · refine Touches.doIf ?_ (fun _ h1 => ?_)
      · exact h0
      · refine Touches.comp tch_bcDemand (by decide) ?_
        exact h1

theorem tch_noImage {s} : Touches (16390) s (@State.noImage s) := by
  unfold State.noImage
  try dsimp only
  refine Touches.comp tch_setF (by decide) ?_
  refine Touches.comp tch_setF (by decide) ?_
  refine Touches.comp tch_setF (by decide) ?_
  exact Touches.refl _ _

theorem tch_showSlot {s a1} : Touches (4) s (@State.showSlot s a1) := by
  unfold State.showSlot
  try dsimp only
  refine Touches.ite ?_ ?_
  · refine Touches.comp tch_setF (by decide) ?_
    refine Touches.comp tch_setF (by decide) ?_
    refine Touches.comp tch_setF (by decide) ?_
    refine Touches.comp tch_setB (by decide) ?_
    exact Touches.refl _ _
  · refine Touches.comp tch_setF (by decide) ?_
    refine Touches.comp tch_setF (by decide) ?_
    refine Touches.comp tch_setF (by decide) ?_
    refine Touches.comp tch_setB (by decide) ?_
    exact Touches.refl _ _

theorem tch_beginChoice {s} : Touches (4294983686) s (@State.beginChoice s) := by
  unfold State.beginChoice
  try dsimp only
  refine Touches.doIf ?_ (fun _ h0 => ?_)
  · refine Touches.upd_cfg (by decide) ?_
    refine Touches.foldl ?_ (fun _ _ h0 => ?_)
    · exact Touches.refl _ _
    · refine Touches.doIf ?_ (fun _ h1 => ?_)
      · refine Touches.comp tch_showSlot (by decide) ?_
        exact h0
      · refine Touches.comp tch_setSlotResult (by decide) ?_
        exact h1
  · refine Touches.comp tch_noImage (by decide) ?_
    exact h0

theorem tch_setPll {s a1 a2} : Touches (1073741824) s (@State.setPll s a1 a2) := by
  unfold State.setPll
  try dsimp only
  refine Touches.upd_clk (by decide) ?_
  exact Touches.refl _ _

theorem tch_enterHold {s a1} : Touches (1073811457) s (@State.enterHold s a1) := by
  unfold State.enterHold
  try dsimp only
  refine Touches.comp tch_setPll (by decide) ?_
  refine Touches.comp tch_post (by decide) ?_
  refine Touches.comp tch_incF (by decide) ?_
  refine Touches.comp tch_setB (by decide) ?_
  refine Touches.comp tch_setF (by decide) ?_
  exact Touches.refl _ _

theorem tch_beginHop {s a1 a2} : Touches (1073811457) s (@State.beginHop s a1 a2) := by
  unfold State.beginHop
  try dsimp only
  refine Touches.comp tch_setPll (by decide) ?_
  refine Touches.doIf ?_ (fun _ h0 => ?_)
  · exact Touches.refl _ _
  · refine Touches.comp tch_enterHold (by decide) ?_
    exact h0

theorem tch_refuseUpd {s a1 a2} : Touches (65541) s (@State.refuseUpd s a1 a2) := by
  unfold State.refuseUpd
  try dsimp only
  refine Touches.comp tch_post (by decide) ?_
  refine Touches.comp tch_setF (by decide) ?_
  exact Touches.refl _ _

theorem tch_setSlot {s a1 a2} : Touches (4294967300) s (@State.setSlot s a1 a2) := by
  unfold State.setSlot
  try dsimp only
  refine Touches.comp tch_showSlot (by decide) ?_
  refine Touches.upd_cfg (by decide) ?_
  exact Touches.refl _ _

theorem tch_spoilSlot {s a1 a2} : Touches (4294967300) s (@State.spoilSlot s a1 a2) := by
  unfold State.spoilSlot
  try dsimp only
  refine Touches.upd_cfg (by decide) ?_
  refine Touches.comp tch_setSlot (by decide) ?_
  exact Touches.refl _ _

theorem tch_beginUpdate {s a1} : Touches (4295032837) s (@State.beginUpdate s a1) := by
  unfold State.beginUpdate
  try dsimp only
  split
  · refine Touches.comp tch_post (by decide) ?_
    refine Touches.comp tch_spoilSlot (by decide) ?_
    refine Touches.upd_cfg (by decide) ?_
    refine Touches.comp tch_setF (by decide) ?_
    refine Touches.comp tch_setF (by decide) ?_
    refine Touches.comp tch_setF (by decide) ?_
    exact Touches.refl _ _
  · refine Touches.comp tch_refuseUpd (by decide) ?_
    exact Touches.refl _ _

theorem tch_blockEnd {s a1} : Touches (33619969) s (@State.blockEnd s a1) := by
  unfold State.blockEnd
  try dsimp only
  refine Touches.comp tch_gridEnter (by decide) ?_
  refine Touches.comp tch_modGrid (by decide) ?_
  exact Touches.refl _ _

theorem tch_showDiv {s a1 a2} : Touches (4096) s (@State.showDiv s a1 a2) := by
  unfold State.showDiv
  try dsimp only
  refine Touches.comp tch_setF (by decide) ?_
  refine Touches.comp tch_setF (by decide) ?_
  exact Touches.refl _ _

theorem tch_loadDiv {s a1} : Touches (1073745920) s (@State.loadDiv s a1) := by
  unfold State.loadDiv
  try dsimp only
  refine Touches.ite ?_ ?_
  · refine Touches.comp tch_showDiv (by decide) ?_
    exact Touches.refl _ _
  · refine Touches.upd_clk (by decide) ?_
    refine Touches.comp tch_showDiv (by decide) ?_
    exact Touches.refl _ _

theorem tch_steer {s a1} : Touches (1073811457) s (@State.steer s a1) := by
  unfold State.steer
  try dsimp only
  refine Touches.comp tch_loadDiv (by decide) ?_
  refine Touches.ite ?_ ?_
  · refine Touches.comp tch_raise (by decide) ?_
    refine Touches.upd_clk (by decide) ?_
    exact Touches.refl _ _
  · refine Touches.comp tch_setB (by decide) ?_
    refine Touches.upd_clk (by decide) ?_
    exact Touches.refl _ _

theorem tch_setFreq {s a1} : Touches (1342247937) s (@State.setFreq s a1) := by
  unfold State.setFreq
  try dsimp only
  refine Touches.comp tch_steer (by decide) ?_
  refine Touches.comp tch_setF (by decide) ?_
  refine Touches.upd_net (by decide) ?_
  exact Touches.refl _ _

theorem tch_fixWake {s a1 a2} : Touches (268502017) s (@State.fixWake s a1 a2) := by
  unfold State.fixWake
  try dsimp only
  refine Touches.comp tch_post (by decide) ?_
  refine Touches.upd_net (by decide) ?_
  refine Touches.comp tch_setB (by decide) ?_
  exact Touches.refl _ _

theorem tch_lockWake {s} : Touches (268502017) s (@State.lockWake s) := by
  unfold State.lockWake
  try dsimp only
  split
  · refine Touches.doIf ?_ (fun _ h0 => ?_)
    · exact Touches.refl _ _
    · refine Touches.comp tch_fixWake (by decide) ?_
      exact h0
  · exact Touches.refl _ _

theorem tch_enterTime {s a1} : Touches (1342247937) s (@State.enterTime s a1) := by
  unfold State.enterTime
  try dsimp only
  refine Touches.ite ?_ ?_
  · exact Touches.refl _ _
  · refine Touches.ite ?_ ?_
    · refine Touches.comp tch_lockWake (by decide) ?_
      refine Touches.upd_net (by decide) ?_
      refine Touches.comp tch_post (by decide) ?_
      refine Touches.comp tch_setF (by decide) ?_
      exact Touches.refl _ _
    · refine Touches.ite ?_ ?_
      · refine Touches.comp tch_setFreq (by decide) ?_
        refine Touches.upd_net (by decide) ?_
        refine Touches.comp tch_post (by decide) ?_
        refine Touches.comp tch_setF (by decide) ?_
        exact Touches.refl _ _
      · refine Touches.upd_net (by decide) ?_
        refine Touches.comp tch_post (by decide) ?_
        refine Touches.comp tch_setF (by decide) ?_
        exact Touches.refl _ _

theorem tch_slaveLost {s} : Touches (1342247937) s (@State.slaveLost s) := by
  unfold State.slaveLost
  try dsimp only
  refine Touches.ite ?_ ?_
  · exact Touches.refl _ _
  · refine Touches.ite ?_ ?_
    · refine Touches.comp tch_enterTime (by decide) ?_
      exact Touches.refl _ _
    · refine Touches.ite ?_ ?_
      · refine Touches.comp tch_enterTime (by decide) ?_
        exact Touches.refl _ _
      · exact Touches.refl _ _

theorem tch_setPs {s a1 a2} : Touches (1024) s (@State.setPs s a1 a2) := by
  unfold State.setPs
  try dsimp only
  refine Touches.comp tch_setF (by first | decide | (split <;> decide) | exact blkOk _ (by decide) | (unfold lostF; split <;> decide) | (unfold refOkF; split <;> decide)) ?_
  refine Touches.comp tch_setF (by decide) ?_
  exact Touches.refl _ _

end Sys2Proof.Machine
end

