-- ==== Sys2Proof/Laws/Frame2.lean ====
section
/-! SUPPORT. What each operation of the model touches (generated by rule; part 2). -/
set_option Elab.async false

namespace Sys2Proof.Machine

theorem tch_setPort {s a1 a2} : Touches (268435456) s (@State.setPort s a1 a2) := by
  unfold State.setPort
  try dsimp only
  refine Touches.upd_net (by decide) ?_
  exact Touches.refl _ _

theorem tch_takePs {s a1 a2 a3} : Touches (268436480) s (@State.takePs s a1 a2 a3) := by
  unfold State.takePs
  try dsimp only
  refine Touches.comp tch_setPs (by decide) ?_
  refine Touches.doIf ?_ (fun _ h0 => ?_)
  · exact Touches.refl _ _
  · refine Touches.comp tch_setPort (by decide) ?_
    exact h0

theorem tch_bmca {s a1} : Touches (1342247937) s (@State.bmca s a1) := by
  unfold State.bmca
  try dsimp only
  refine Touches.ite ?_ ?_
  · exact Touches.refl _ _
  · refine Touches.comp tch_slaveLost (by decide) ?_
    refine Touches.doIf ?_ (fun _ h0 => ?_)
    · refine Touches.doIf ?_ (fun _ h0 => ?_)
      · refine Touches.upd_net (by decide) ?_
        refine Touches.comp tch_setF (by decide) ?_
        refine Touches.comp tch_setB (by decide) ?_
        refine Touches.comp tch_takePs (by decide) ?_
        refine Touches.comp tch_takePs (by decide) ?_
        exact Touches.refl _ _
      · refine Touches.comp tch_post (by decide) ?_
        exact h0
    · refine Touches.comp tch_enterTime (by decide) ?_
      exact h0

theorem tch_bmsRefresh {s a1} : Touches (33554432) s (@State.bmsRefresh s a1) := by
  unfold State.bmsRefresh
  try dsimp only
  refine Touches.comp tch_modDc (by decide) ?_
  exact Touches.refl _ _

theorem tch_bmsStale {s a1} : Touches (33619969) s (@State.bmsStale s a1) := by
  unfold State.bmsStale
  try dsimp only
  refine Touches.comp tch_post (by decide) ?_
  refine Touches.comp tch_modDc (by decide) ?_
  exact Touches.refl _ _

theorem tch_bootAny {s a1} : Touches (32768) s (@State.bootAny s a1) := by
  unfold State.bootAny
  try dsimp only
  refine Touches.comp tch_setBitF (by decide) ?_
  exact Touches.refl _ _

theorem tch_bootClocks {s} : Touches (1073745920) s (@State.bootClocks s) := by
  unfold State.bootClocks
  try dsimp only
  refine Touches.foldl ?_ (fun _ _ h0 => ?_)
  · refine Touches.comp tch_setB (by decide) ?_
    exact Touches.refl _ _
  · refine Touches.comp tch_loadDiv (by decide) ?_
    refine Touches.comp tch_setF (by decide) ?_
    refine Touches.comp tch_setF (by decide) ?_
    refine Touches.comp tch_setPll (by decide) ?_
    exact h0

theorem tch_bootDown {s a1 a2} : Touches (34368225409) s (@State.bootDown s a1 a2) := by
  unfold State.bootDown
  try dsimp only
  refine Touches.comp tch_lowOn (by decide) ?_
  refine Touches.comp tch_setChan (by decide) ?_
  refine Touches.comp tch_setLeg (by decide) ?_
  refine Touches.comp tch_advance (by decide) ?_
  exact Touches.refl _ _

theorem tch_setPwSlot {s a1 a2} : Touches (131584) s (@State.setPwSlot s a1 a2) := by
  unfold State.setPwSlot
  try dsimp only
  refine Touches.comp tch_setBitF (by decide) ?_
  refine Touches.comp tch_setBitF (by decide) ?_
  refine Touches.upd_husk (by decide) ?_
  exact Touches.refl _ _

theorem tch_setCakSlot {s a1 a2} : Touches (131074) s (@State.setCakSlot s a1 a2) := by
  unfold State.setCakSlot
  try dsimp only
  refine Touches.comp tch_setBitF (by decide) ?_
  refine Touches.comp tch_setBitF (by decide) ?_
  refine Touches.upd_husk (by decide) ?_
  exact Touches.refl _ _

theorem tch_loadRecords {s a1} : Touches (67305987) s (@State.loadRecords s a1) := by
  unfold State.loadRecords
  try dsimp only
  refine Touches.comp tch_setF (by decide) ?_
  refine Touches.foldl ?_ (fun _ _ h0 => ?_)
  · refine Touches.doIf ?_ (fun _ h0 => ?_)
    · refine Touches.doIf ?_ (fun _ h0 => ?_)
      · exact Touches.refl _ _
      · refine Touches.comp tch_post (by decide) ?_
        refine Touches.upd_husk_safe (by decide) ?_
        exact h0
    · refine Touches.comp tch_post (by decide) ?_
      refine Touches.upd_husk (by decide) ?_
      exact h0
  · refine Touches.comp tch_setCakSlot (by decide) ?_
    refine Touches.comp tch_setPwSlot (by decide) ?_
    exact h0

theorem tch_mapWire {s a1 a2} : Touches (2147491840) s (@State.mapWire s a1 a2) := by
  unfold State.mapWire
  try dsimp only
  refine Touches.comp tch_setF (by decide) ?_
  refine Touches.comp tch_setF (by first | decide | (split <;> decide) | exact blkOk _ (by decide) | (unfold lostF; split <;> decide) | (unfold refOkF; split <;> decide)) ?_
  refine Touches.comp tch_setF (by decide) ?_
  refine Touches.upd_rel (by decide) ?_
  exact Touches.refl _ _

theorem tch_setGone {s a1 a2} : Touches (2147483648) s (@State.setGone s a1 a2) := by
  unfold State.setGone
  try dsimp only
  refine Touches.upd_rel (by decide) ?_
  exact Touches.refl _ _

theorem tch_loadLife {s a1} : Touches (2164334593) s (@State.loadLife s a1) := by
  unfold State.loadLife
  try dsimp only
  refine Touches.foldl ?_ (fun _ _ h0 => ?_)
  · refine Touches.foldl ?_ (fun _ _ h0 => ?_)
    · refine Touches.comp tch_setF (by decide) ?_
      refine Touches.upd_rel (by decide) ?_
      refine Touches.ite ?_ ?_
      · refine Touches.comp tch_setB (by decide) ?_
        refine Touches.doIf ?_ (fun _ h0 => ?_)
        · exact Touches.refl _ _
        · refine Touches.comp tch_post (by decide) ?_
          refine Touches.upd_trip (by decide) ?_
          exact h0
      · refine Touches.comp tch_post (by decide) ?_
        refine Touches.upd_rel (by decide) ?_
        refine Touches.doIf ?_ (fun _ h0 => ?_)
        · exact Touches.refl _ _
        · refine Touches.comp tch_post (by decide) ?_
          refine Touches.upd_trip (by decide) ?_
          exact h0
    · refine Touches.comp tch_setGone (by decide) ?_
      exact h0
  · refine Touches.comp tch_mapWire (by decide) ?_
    exact h0

theorem tch_noSession {s a1} : Touches (2) s (@State.noSession s a1) := by
  unfold State.noSession
  try dsimp only
  refine Touches.comp tch_setF (by decide) ?_
  refine Touches.comp tch_setF (by decide) ?_
  refine Touches.comp tch_setF (by decide) ?_
  exact Touches.refl _ _

theorem tch_heldOver {s a1 c} (hc : Touches 1932735021055 s c) : Touches 1932735021055 s (@State.heldOver s a1 c) := by
  unfold State.heldOver
  dsimp only
  refine ⟨fun p hp => ?_, fun i => ⟨fun b => ?_, (hc.2.1 i).sea, (hc.2.1 i).sys, (hc.2.1 i).tap⟩, fun hb => absurd hb (by decide), fun hb => absurd hb (by decide)⟩
  · have h := hc.1 p
    cases p <;> first | exact h rfl | exact absurd hp (by decide) | (rename_i b; cases b <;> exact absurd hp (by decide))
  · have h := (hc.2.1 i).regs b
    have h' := i.regs .husk
    cases b <;> first | exact h | exact h'

theorem tch_eraseCore {s a1} : Touches (1967094759423) s (@State.eraseCore s a1) := by
  unfold State.eraseCore
  dsimp only
  have h := Touches.comp (tch_heldOver (a1 := a1) (tch_cleared (s := s.pinsLow))) (m := 1967094759423) (by decide) (tch_pinsLow.mono (by decide))
  generalize s.pinsLow.heldOver a1 s.pinsLow.cleared = c at h ⊢
  refine Touches.comp tch_setF (by decide) ?_
  refine Touches.comp tch_setF (by decide) ?_
  refine Touches.doIf ?_ (fun _ h0 => Touches.comp tch_noSession (by decide) h0)
  refine Touches.comp tch_setF (by decide) ?_
  refine Touches.comp tch_setF (by decide) ?_
  refine Touches.comp tch_setF (by decide) ?_
  refine Touches.comp tch_setB (by decide) ?_
  refine Touches.comp tch_setB (by decide) ?_
  exact Touches.comp tch_setF (by decide) h

theorem tch_huskBoot {s a1} : Touches (1967094759423) s (@State.huskBoot s a1) := by
  unfold State.huskBoot
  try dsimp only
  refine Touches.ite ?_ ?_
  · refine Touches.comp tch_eraseCore (by decide) ?_
    refine Touches.comp tch_setF (by decide) ?_
    exact Touches.refl _ _
  · refine Touches.comp tch_beginChoice (by decide) ?_
    refine Touches.comp tch_loadLife (by decide) ?_
    refine Touches.comp tch_loadRecords (by decide) ?_
    refine Touches.comp tch_setF (by decide) ?_
    exact Touches.refl _ _

theorem tch_runFirmware {s a1 a2} : Touches (131074) s (@State.runFirmware s a1 a2) := by
  unfold State.runFirmware
  try dsimp only
  refine Touches.comp tch_setF (by decide) ?_
  refine Touches.comp tch_setF (by decide) ?_
  refine Touches.upd_husk (by decide) ?_
  exact Touches.refl _ _

theorem tch_tryFirmware {s a1 a2} : Touches (196611) s (@State.tryFirmware s a1 a2) := by
  induction a2 generalizing s a1 with
  | nil => unfold State.tryFirmware; exact tch_setF.mono (by decide)
  | cons c cs ih =>
    unfold State.tryFirmware
    refine Touches.ite ?_ ?_
    · exact tch_runFirmware.mono (by decide)
    · refine Touches.comp ih (by decide) ?_
      exact tch_post.mono (by decide)

theorem tch_bootOn {s a1} : Touches (1967094759423) s (@State.bootOn s a1) := by
  unfold State.bootOn
  try dsimp only
  refine Touches.ite ?_ ?_
  · refine Touches.comp tch_setF (by decide) ?_
    refine Touches.upd_pwr_keep rfl (by decide) ?_
    refine Touches.comp tch_setF (by decide) ?_
    exact Touches.refl _ _
  · refine Touches.doIf ?_ (fun _ h0 => ?_)
    · refine Touches.comp tch_tryFirmware (by decide) ?_
      refine Touches.comp tch_setB (by decide) ?_
      refine Touches.comp tch_setF (by decide) ?_
      refine Touches.upd_pwr_keep rfl (by decide) ?_
      refine Touches.comp tch_setF (by decide) ?_
      exact Touches.refl _ _
    · refine Touches.comp tch_huskBoot (by decide) ?_
      exact h0

theorem tch_canConfine {s a1 a2 a3} : Touches (1134542522377) s (@State.canConfine s a1 a2 a3) := by
  unfold State.canConfine
  try dsimp only
  refine Touches.ite ?_ ?_
  · refine Touches.foldl ?_ (fun _ _ h0 => ?_)
    · refine Touches.comp tch_post (by decide) ?_
      refine Touches.comp tch_setBitF (by decide) ?_
      refine Touches.comp tch_setB (by decide) ?_
      refine Touches.comp tch_setF (by decide) ?_
      refine Touches.comp tch_setF (by decide) ?_
      refine Touches.comp tch_setF (by decide) ?_
      exact Touches.refl _ _
    · refine Touches.comp tch_failObj (by decide) ?_
      exact h0
  · refine Touches.ite ?_ ?_
    · refine Touches.doIf ?_ (fun _ h0 => ?_)
      · refine Touches.comp tch_setF (by decide) ?_
        refine Touches.comp tch_setF (by decide) ?_
        exact Touches.refl _ _
      · refine Touches.comp tch_post (by decide) ?_
        refine Touches.comp tch_setB (by decide) ?_
        refine Touches.comp tch_setF (by decide) ?_
        exact h0
    · refine Touches.doIf ?_ (fun _ h0 => ?_)
      · refine Touches.comp tch_setF (by decide) ?_
        refine Touches.comp tch_setF (by decide) ?_
        exact Touches.refl _ _
      · refine Touches.comp tch_post (by decide) ?_
        refine Touches.comp tch_setF (by decide) ?_
        exact h0

theorem tch_canQueue {s a1 a2} : Touches (1134542522377) s (@State.canQueue s a1 a2) := by
  unfold State.canQueue
  try dsimp only
  split
  · refine Touches.comp tch_canOver (by decide) ?_
    exact Touches.refl _ _
  · refine Touches.comp tch_setCanObj (by decide) ?_
    exact Touches.refl _ _

theorem tch_canStart {s} : Touches (2048) s (@State.canStart s) := by
  unfold State.canStart
  try dsimp only
  refine Touches.foldl ?_ (fun _ _ h0 => ?_)
  · exact Touches.refl _ _
  · refine Touches.doIf ?_ (fun _ h1 => ?_)
    · exact h0
    · refine Touches.comp tch_setB (by decide) ?_
      exact h1

theorem tch_canStore {s a1 a2} : Touches (536938497) s (@State.canStore s a1 a2) := by
  unfold State.canStore
  try dsimp only
  split
  · refine Touches.comp tch_setCanObj (by decide) ?_
    exact Touches.refl _ _
  · refine Touches.comp tch_setCanObj (by decide) ?_
    exact Touches.refl _ _
  · refine Touches.comp tch_raise (by decide) ?_
    refine Touches.comp tch_incF (by decide) ?_
    refine Touches.comp tch_setCanObj (by decide) ?_
    exact Touches.refl _ _

theorem tch_canTdc {s a1 a2 a3} : Touches (2048) s (@State.canTdc s a1 a2 a3) := by
  unfold State.canTdc
  try dsimp only
  refine Touches.doIf ?_ (fun _ h0 => ?_)
  · exact Touches.refl _ _
  · refine Touches.comp tch_setF (by decide) ?_
    exact h0

theorem tch_canUnmatched {s a1} : Touches (67585) s (@State.canUnmatched s a1) := by
  unfold State.canUnmatched
  try dsimp only
  refine Touches.doIf ?_ (fun _ h0 => ?_)
  · refine Touches.comp tch_setB (by decide) ?_
    refine Touches.comp tch_incF (by decide) ?_
    exact Touches.refl _ _
  · refine Touches.comp tch_postLimited (by decide) ?_
    exact h0

theorem tch_fin {s a1 a2 a3 a4 a5} : Touches (134283273) s (@State.fin s a1 a2 a3 a4 a5) := by
  unfold State.fin
  try dsimp only
  refine Touches.comp tch_finish (by decide) ?_
  exact Touches.refl _ _

theorem tch_setLq {s a1 a2} : Touches (268436480) s (@State.setLq s a1 a2) := by
  unfold State.setLq
  try dsimp only
  refine Touches.comp tch_setF (by decide) ?_
  refine Touches.upd_net (by decide) ?_
  exact Touches.refl _ _

theorem tch_dropFrame {s a1} : Touches (805309440) s (@State.dropFrame s a1) := by
  unfold State.dropFrame
  try dsimp only
  refine Touches.foldl ?_ (fun _ _ h0 => ?_)
  · refine Touches.foldl ?_ (fun _ _ h0 => ?_)
    · exact Touches.refl _ _
    · refine Touches.doIf ?_ (fun _ h1 => ?_)
      · exact h0
      · refine Touches.comp tch_setLq (by decide) ?_
        exact h1
  · refine Touches.doIf ?_ (fun _ h1 => ?_)
    · exact h0
    · refine Touches.comp tch_setCanObj (by decide) ?_
      exact h1

theorem tch_cancel {s a1 a2} : Touches (1136992005193) s (@State.cancel s a1 a2) := by
  unfold State.cancel
  try dsimp only
  split
  · refine Touches.doIf ?_ (fun _ h0 => ?_)
    · refine Touches.upd_hostq (by decide) ?_
      refine Touches.comp tch_dropFrame (by decide) ?_
      refine Touches.comp tch_fin (by decide) ?_
      exact Touches.refl _ _
    · refine Touches.comp tch_abortMig (by decide) ?_
      exact h0
  · refine Touches.upd_hostq (by decide) ?_
    refine Touches.comp tch_dropFrame (by decide) ?_
    refine Touches.comp tch_fin (by decide) ?_
    exact Touches.refl _ _

theorem tch_serCapture {s a1} : Touches (103083474977) s (@State.serCapture s a1) := by
  unfold State.serCapture
  try dsimp only
  refine Touches.ite ?_ ?_
  · refine Touches.comp tch_raise (by decide) ?_
    exact Touches.refl _ _
  · refine Touches.comp tch_emit (by decide) ?_
    refine Touches.comp tch_setPi (by decide) ?_
    refine Touches.comp tch_draw (by decide) ?_
    exact Touches.refl _ _

theorem tch_incCapture {s a1} : Touches (1202620301729) s (@State.incCapture s a1) := by
  unfold State.incCapture
  try dsimp only
  refine Touches.comp tch_sendPos (by decide) ?_
  refine Touches.comp tch_setPi (by decide) ?_
  split
  · refine Touches.comp tch_age (by decide) ?_
    refine Touches.comp tch_age (by decide) ?_
    refine Touches.doIf ?_ (fun _ h0 => ?_)
    · refine Touches.comp tch_setPi (by decide) ?_
      exact Touches.refl _ _
    · refine Touches.comp tch_lossCause (by decide) ?_
      exact h0
  · refine Touches.comp tch_draw (by decide) ?_
    refine Touches.comp tch_age (by decide) ?_
    refine Touches.comp tch_age (by decide) ?_
    refine Touches.doIf ?_ (fun _ h0 => ?_)
    · refine Touches.comp tch_setPi (by decide) ?_
      exact Touches.refl _ _
    · refine Touches.comp tch_lossCause (by decide) ?_
      exact h0

theorem tch_capture {s a1} : Touches (1202620301729) s (@State.capture s a1) := by
  unfold State.capture
  try dsimp only
  refine Touches.doIf ?_ (fun _ h0 => ?_)
  · refine Touches.doIf ?_ (fun _ h0 => ?_)
    · exact Touches.refl _ _
    · refine Touches.comp tch_incCapture (by decide) ?_
      exact h0
  · refine Touches.comp tch_serCapture (by decide) ?_
    exact h0

theorem tch_captureCarrier {s a1 a2} : Touches (1202620301729) s (@State.captureCarrier s a1 a2) := by
  unfold State.captureCarrier
  try dsimp only
  refine Touches.foldl ?_ (fun _ _ h0 => ?_)
  · exact Touches.refl _ _
  · refine Touches.ite ?_ ?_
    · refine Touches.ite ?_ ?_
      · refine Touches.comp tch_setPi (by decide) ?_
        exact h0
      · refine Touches.comp tch_capture (by decide) ?_
        refine Touches.comp tch_setPi (by decide) ?_
        exact h0
    · exact h0

theorem tch_captureNtev {s a1} : Touches (1202620301729) s (@State.captureNtev s a1) := by
  unfold State.captureNtev
  try dsimp only
  refine Touches.foldl ?_ (fun _ _ h0 => ?_)
  · exact Touches.refl _ _
  · refine Touches.doIf ?_ (fun _ h1 => ?_)
    · exact h0
    · refine Touches.comp tch_capture (by decide) ?_
      exact h1

theorem tch_carMark {s a1 a2 a3} : Touches (2097152) s (@State.carMark s a1 a2 a3) := by
  unfold State.carMark
  try dsimp only
  refine Touches.upd_meas (by decide) ?_
  exact Touches.refl _ _

theorem tch_startEval {s a1} : Touches (33620033) s (@State.startEval s a1) := by
  unfold State.startEval
  try dsimp only
  refine Touches.doIf ?_ (fun _ h0 => ?_)
  · refine Touches.comp tch_setCtx (by decide) ?_
    exact Touches.refl _ _
  · refine Touches.comp tch_raise (by decide) ?_
    exact h0

theorem tch_wakeEval {s a1} : Touches (33620033) s (@State.wakeEval s a1) := by
  unfold State.wakeEval
  try dsimp only
  refine Touches.ite ?_ ?_
  · refine Touches.comp tch_modCtx (by decide) ?_
    exact Touches.refl _ _
  · refine Touches.comp tch_startEval (by decide) ?_
    exact Touches.refl _ _

theorem tch_migTrigger {s a1 a2} : Touches (1133904920576) s (@State.migTrigger s a1 a2) := by
  unfold State.migTrigger
  try dsimp only
  split
  · refine Touches.ite ?_ ?_
    · exact Touches.refl _ _
    · refine Touches.ite ?_ ?_
      · refine Touches.comp tch_send (by decide) ?_
        refine Touches.comp tch_send (by decide) ?_
        refine Touches.upd_loop (by decide) ?_
        exact Touches.refl _ _
      · refine Touches.ite ?_ ?_
        · refine Touches.upd_loop (by decide) ?_
          exact Touches.refl _ _
        · exact Touches.refl _ _
  · exact Touches.refl _ _

theorem tch_migLate {s a1} : Touches (1136186695753) s (@State.migLate s a1) := by
  unfold State.migLate
  try dsimp only
  split
  · refine Touches.doIf ?_ (fun _ h0 => ?_)
    · exact Touches.refl _ _
    · refine Touches.comp tch_abortMig (by decide) ?_
      exact h0
  · exact Touches.refl _ _

theorem tch_ctxRestart {s a1} : Touches (33554497) s (@State.ctxRestart s a1) := by
  unfold State.ctxRestart
  try dsimp only
  refine Touches.comp tch_setCtxState (by decide) ?_
  refine Touches.comp tch_setF (by decide) ?_
  refine Touches.comp tch_modCtx (by decide) ?_
  exact Touches.refl _ _

theorem tch_takeTrigger {s a1 a2} : Touches (1136186695753) s (@State.takeTrigger s a1 a2) := by
  unfold State.takeTrigger
  try dsimp only
  refine Touches.ite ?_ ?_
  · refine Touches.doIf ?_ (fun _ h0 => ?_)
    · exact Touches.refl _ _
    · refine Touches.comp tch_ctxRestart (by decide) ?_
      exact h0
  · refine Touches.ite ?_ ?_
    · refine Touches.comp tch_raise (by decide) ?_
      refine Touches.comp tch_modCtx (by decide) ?_
      refine Touches.comp tch_migLate (by decide) ?_
      refine Touches.doIf ?_ (fun _ h0 => ?_)
      · exact Touches.refl _ _
      · refine Touches.comp tch_ctxRestart (by decide) ?_
        exact h0
    · refine Touches.ite ?_ ?_
      · refine Touches.doIf ?_ (fun _ h0 => ?_)
        · refine Touches.comp tch_modCtx (by decide) ?_
          refine Touches.comp tch_raise (by decide) ?_
          refine Touches.comp tch_modCtx (by decide) ?_
          refine Touches.comp tch_migLate (by decide) ?_
          refine Touches.doIf ?_ (fun _ h0 => ?_)
          · exact Touches.refl _ _
          · refine Touches.comp tch_ctxRestart (by decide) ?_
            exact h0
        · refine Touches.comp tch_modCtx (by decide) ?_
          exact h0
      · refine Touches.doIf ?_ (fun _ h0 => ?_)
        · refine Touches.comp tch_migTrigger (by decide) ?_
          refine Touches.comp tch_modCtx (by decide) ?_
          refine Touches.comp tch_modCtx (by decide) ?_
          refine Touches.comp tch_migLate (by decide) ?_
          refine Touches.doIf ?_ (fun _ h0 => ?_)
          · exact Touches.refl _ _
          · refine Touches.comp tch_ctxRestart (by decide) ?_
            exact h0
        · refine Touches.comp tch_wakeEval (by decide) ?_
          exact h0

theorem tch_ctxTrigger {s a1 a2} : Touches (1136186695753) s (@State.ctxTrigger s a1 a2) := by
  unfold State.ctxTrigger
  try dsimp only
  refine Touches.comp tch_takeTrigger (by decide) ?_
  refine Touches.ite ?_ ?_
  · refine Touches.ite ?_ ?_
    · refine Touches.comp tch_takeTrigger (by decide) ?_
      refine Touches.comp tch_modCtx (by decide) ?_
      exact Touches.refl _ _
    · refine Touches.comp tch_modCtx (by decide) ?_
      exact Touches.refl _ _
  · exact Touches.refl _ _

theorem tch_triggersCarrier {s a1 a2 a3} : Touches (1136186695753) s (@State.triggersCarrier s a1 a2 a3) := by
  unfold State.triggersCarrier
  try dsimp only
  refine Touches.foldl ?_ (fun _ _ h0 => ?_)
  · exact Touches.refl _ _
  · refine Touches.ite ?_ ?_
    · refine Touches.doIf ?_ (fun _ h1 => ?_)
      · refine Touches.comp tch_modCtx (by decide) ?_
        exact h0
      · refine Touches.comp tch_ctxTrigger (by decide) ?_
        exact h1
    · exact h0

theorem tch_sendTrks {s a1} : Touches (1133871366144) s (@State.sendTrks s a1) := by
  unfold State.sendTrks
  try dsimp only
  refine Touches.foldl ?_ (fun _ _ h0 => ?_)
  · exact Touches.refl _ _
  · refine Touches.comp tch_send (by decide) ?_
    exact h0

theorem tch_setMmt {s a1 a2} : Touches (2097152) s (@State.setMmt s a1 a2) := by
  unfold State.setMmt
  try dsimp only
  refine Touches.upd_meas (by decide) ?_
  exact Touches.refl _ _

theorem tch_closeMmt {s a1} : Touches (2097152) s (@State.closeMmt s a1).1 := by
  unfold State.closeMmt
  try dsimp only
  refine Touches.comp tch_setMmt (by decide) ?_
  exact Touches.refl _ _

theorem tch_closeMmts {s a1} : Touches (1133873463296) s (@State.closeMmts s a1) := by
  unfold State.closeMmts
  try dsimp only
  refine Touches.comp tch_sendTrks (by decide) ?_
  refine Touches.foldlP ?_ (fun _ _ h0 => ?_)
  · exact Touches.refl _ _
  · refine Touches.comp tch_closeMmt (by decide) ?_
    exact h0

theorem tch_mmtFull {s a1} : Touches (1133873528833) s (@State.mmtFull s a1) := by
  unfold State.mmtFull
  try dsimp only
  refine Touches.ite ?_ ?_
  · refine Touches.comp tch_closeMmts (by decide) ?_
    exact Touches.refl _ _
  · refine Touches.ite ?_ ?_
    · refine Touches.comp tch_post (by decide) ?_
      refine Touches.comp tch_closeMmts (by decide) ?_
      exact Touches.refl _ _
    · exact Touches.refl _ _

theorem tch_mmtAdd {s a1 a2} : Touches (1133873528833) s (@State.mmtAdd s a1 a2) := by
  unfold State.mmtAdd
  try dsimp only
  refine Touches.ite ?_ ?_
  · refine Touches.doIf ?_ (fun _ h0 => ?_)
    · refine Touches.doIf ?_ (fun _ h0 => ?_)
      · refine Touches.doIf ?_ (fun _ h0 => ?_)
        · refine Touches.comp tch_setMmt (by decide) ?_
          exact Touches.refl _ _
        · refine Touches.comp tch_post (by decide) ?_
          exact h0
      · refine Touches.comp tch_post (by decide) ?_
        exact h0
    · refine Touches.comp tch_mmtFull (by decide) ?_
      exact h0
  · exact Touches.refl _ _

theorem tch_enter {s a1} : Touches (1133902922161) s (@State.enter s a1) := by
  unfold State.enter
  try dsimp only
  split
  · refine Touches.comp tch_mmtAdd (by decide) ?_
    split
    · refine Touches.comp tch_accAdd (by decide) ?_
      exact Touches.refl _ _
    · exact Touches.refl _ _
  · split
    · refine Touches.comp tch_accAdd (by decide) ?_
      exact Touches.refl _ _
    · exact Touches.refl _ _

theorem tch_fillCloses {s a1} : Touches (1133902922161) s (@State.fillCloses s a1) := by
  unfold State.fillCloses
  try dsimp only
  refine Touches.comp tch_settle (by decide) ?_
  refine Touches.foldl ?_ (fun _ _ h0 => ?_)
  · refine Touches.foldl ?_ (fun _ _ h0 => ?_)
    · exact Touches.refl _ _
    · split
      · refine Touches.doIf ?_ (fun _ h1 => ?_)
        · exact h0
        · refine Touches.comp tch_accFull (by decide) ?_
          exact h1
      · exact h0
  · split
    · refine Touches.doIf ?_ (fun _ h1 => ?_)
      · exact h0
      · refine Touches.comp tch_mmtFull (by decide) ?_
        exact h1
    · exact h0

theorem tch_deliver {s a1} : Touches (1133902922161) s (@State.deliver s a1) := by
  unfold State.deliver
  try dsimp only
  refine Touches.comp tch_fillCloses (by decide) ?_
  refine Touches.foldl ?_ (fun _ _ h0 => ?_)
  · exact Touches.refl _ _
  · refine Touches.comp tch_enter (by decide) ?_
    exact h0

theorem tch_setUnit {s a1 a2} : Touches (2097152) s (@State.setUnit s a1 a2) := by
  unfold State.setUnit
  try dsimp only
  refine Touches.upd_meas (by decide) ?_
  exact Touches.refl _ _

theorem tch_unitDone {s a1} : Touches (2097152) s (@State.unitDone s a1).1 := by
  unfold State.unitDone
  try dsimp only
  refine Touches.comp tch_setUnit (by decide) ?_
  exact Touches.refl _ _

theorem tch_landConversions {s} : Touches (1133902922161) s (@State.landConversions s) := by
  unfold State.landConversions
  try dsimp only
  refine Touches.comp tch_deliver (by decide) ?_
  refine Touches.foldlP ?_ (fun _ _ h0 => ?_)
  · exact Touches.refl _ _
  · refine Touches.comp tch_unitDone (by decide) ?_
    exact h0

theorem tch_windowsCarrier {s a1 a2} : Touches (1133902922161) s (@State.windowsCarrier s a1 a2) := by
  unfold State.windowsCarrier
  try dsimp only
  refine Touches.comp tch_closeMmts (by decide) ?_
  refine Touches.foldlP ?_ (fun _ _ h0 => ?_)
  · refine Touches.comp tch_closeAccs (by decide) ?_
    refine Touches.foldlP ?_ (fun _ _ h0 => ?_)
    · exact Touches.refl _ _
    · split
      · try dsimp only
        refine Touches.comp tch_setAcc (by decide) ?_
        exact h0
      · try dsimp only
        exact h0
  · split
    · try dsimp only
      refine Touches.comp tch_setMmt (by decide) ?_
      exact h0
    · try dsimp only
      exact h0

theorem tch_startEntry {s a1 a2 a3 a4} : Touches (68721573888) s (@State.startEntry s a1 a2 a3 a4) := by
  unfold State.startEntry
  try dsimp only
  refine Touches.comp tch_setUnit (by decide) ?_
  refine Touches.comp tch_draw (by decide) ?_
  exact Touches.refl _ _

theorem tch_restartUnit {s a1} : Touches (68721573888) s (@State.restartUnit s a1) := by
  unfold State.restartUnit
  try dsimp only
  refine Touches.ite ?_ ?_
  · exact Touches.refl _ _
  · refine Touches.ite ?_ ?_
    · refine Touches.comp tch_startEntry (by decide) ?_
      exact Touches.refl _ _
    · refine Touches.comp tch_setUnit (by decide) ?_
      exact Touches.refl _ _

theorem tch_unitsCarrier {s a1 a2} : Touches (68721573888) s (@State.unitsCarrier s a1 a2) := by
  unfold State.unitsCarrier
  try dsimp only
  refine Touches.foldl ?_ (fun _ _ h0 => ?_)
  · exact Touches.refl _ _
  · refine Touches.ite ?_ ?_
    · refine Touches.doIf ?_ (fun _ h1 => ?_)
      · refine Touches.doIf ?_ (fun _ h1 => ?_)
        · exact h0
        · refine Touches.comp tch_restartUnit (by decide) ?_
          exact h1
      · refine Touches.comp tch_setUnit (by decide) ?_
        exact h1
    · exact h0

theorem tch_measCarrier {s a1 a2 a3} : Touches (1202622398897) s (@State.measCarrier s a1 a2 a3) := by
  unfold State.measCarrier
  try dsimp only
  refine Touches.ite ?_ ?_
  · refine Touches.comp tch_carMark (by decide) ?_
    refine Touches.comp tch_unitsCarrier (by decide) ?_
    refine Touches.comp tch_windowsCarrier (by decide) ?_
    refine Touches.comp tch_landConversions (by decide) ?_
    exact Touches.refl _ _
  · exact Touches.refl _ _

theorem tch_excCarrier {s a1 a2 a3} : Touches (34363998241) s (@State.excCarrier s a1 a2 a3) := by
  unfold State.excCarrier
  try dsimp only
  refine Touches.foldl ?_ (fun _ _ h0 => ?_)
  · exact Touches.refl _ _
  · refine Touches.ite ?_ ?_
    · refine Touches.ite ?_ ?_
      · refine Touches.comp tch_pushExc (by decide) ?_
        exact h0
      · refine Touches.comp tch_raise (by decide) ?_
        refine Touches.comp tch_pushExc (by decide) ?_
        exact h0
    · exact h0

theorem tch_carrierFollowers {s a1 a2 a3 a4} : Touches (1204937662969) s (@State.carrierFollowers s a1 a2 a3 a4) := by
  unfold State.carrierFollowers
  try dsimp only
  refine Touches.ite ?_ ?_
  · exact Touches.refl _ _
  · refine Touches.foldl ?_ (fun _ _ h0 => ?_)
    · exact Touches.refl _ _
    · refine Touches.comp tch_triggersCarrier (by decide) ?_
      refine Touches.comp tch_captureCarrier (by decide) ?_
      refine Touches.comp tch_excCarrier (by decide) ?_
      refine Touches.comp tch_measCarrier (by decide) ?_
      exact h0

theorem tch_queueHalf {s a1 a2} : Touches (8388608) s (@State.queueHalf s a1 a2) := by
  unfold State.queueHalf
  try dsimp only
  refine Touches.foldl ?_ (fun _ _ h0 => ?_)
  · exact Touches.refl _ _
  · refine Touches.comp tch_setLeg (by decide) ?_
    exact h0

theorem tch_startHalf {s a1 a2} : Touches (549764202496) s (@State.startHalf s a1 a2) := by
  unfold State.startHalf
  try dsimp only
  refine Touches.foldl ?_ (fun _ _ h0 => ?_)
  · refine Touches.comp tch_setCarrier (by decide) ?_
    refine Touches.foldl ?_ (fun _ _ h0 => ?_)
    · exact Touches.refl _ _
    · refine Touches.comp tch_setCarrier (by decide) ?_
      exact h0
  · refine Touches.comp tch_queueHalf (by decide) ?_
    exact h0

theorem tch_setLocked {s a1 a2} : Touches (549764300929) s (@State.setLocked s a1 a2) := by
  unfold State.setLocked
  try dsimp only
  refine Touches.ite ?_ ?_
  · refine Touches.ite ?_ ?_
    · refine Touches.comp tch_post (by decide) ?_
      refine Touches.comp tch_setBitF (by decide) ?_
      refine Touches.comp tch_setB (by decide) ?_
      refine Touches.comp tch_setCarrier (by decide) ?_
      exact Touches.refl _ _
    · refine Touches.ite ?_ ?_
      · refine Touches.comp tch_post (by decide) ?_
        refine Touches.comp tch_setB (by decide) ?_
        refine Touches.comp tch_setBitF (by decide) ?_
        refine Touches.comp tch_setB (by decide) ?_
        refine Touches.comp tch_setCarrier (by decide) ?_
        exact Touches.refl _ _
      · refine Touches.comp tch_setBitF (by decide) ?_
        refine Touches.comp tch_setB (by decide) ?_
        refine Touches.comp tch_setCarrier (by decide) ?_
        exact Touches.refl _ _
  · refine Touches.ite ?_ ?_
    · refine Touches.comp tch_post (by decide) ?_
      refine Touches.comp tch_setBitF (by decide) ?_
      refine Touches.comp tch_setB (by decide) ?_
      refine Touches.comp tch_setCarrier (by decide) ?_
      exact Touches.refl _ _
    · refine Touches.ite ?_ ?_
      · refine Touches.comp tch_post (by decide) ?_
        refine Touches.comp tch_setB (by decide) ?_
        refine Touches.comp tch_setBitF (by decide) ?_
        refine Touches.comp tch_setB (by decide) ?_
        refine Touches.comp tch_setCarrier (by decide) ?_
        exact Touches.refl _ _
      · refine Touches.comp tch_setBitF (by decide) ?_
        refine Touches.comp tch_setB (by decide) ?_
        refine Touches.comp tch_setCarrier (by decide) ?_
        exact Touches.refl _ _

theorem tch_fixNextUp {s a1 a2 a3 a4} : Touches (549764300929) s (@State.fixNextUp s a1 a2 a3 a4) := by
  unfold State.fixNextUp
  try dsimp only
  refine Touches.comp tch_setLocked (by decide) ?_
  refine Touches.comp tch_setCarrier (by decide) ?_
  exact Touches.refl _ _

theorem tch_zeroEvent {s a1 a2} : Touches (549764300929) s (@State.zeroEvent s a1 a2) := by
  unfold State.zeroEvent
  try dsimp only
  split
  · refine Touches.comp tch_fixNextUp (by decide) ?_
    refine Touches.comp tch_startHalf (by decide) ?_
    refine Touches.ite ?_ ?_
    · refine Touches.comp tch_post (by decide) ?_
      refine Touches.comp tch_setF (by decide) ?_
      refine Touches.comp tch_setCarrier (by decide) ?_
      exact Touches.refl _ _
    · refine Touches.comp tch_post (by decide) ?_
      refine Touches.comp tch_setF (by decide) ?_
      refine Touches.comp tch_setCarrier (by decide) ?_
      exact Touches.refl _ _
  · refine Touches.comp tch_fixNextUp (by decide) ?_
    refine Touches.comp tch_startHalf (by decide) ?_
    exact Touches.refl _ _

theorem tch_countWatchdog {s a1} : Touches (549764202496) s (@State.countWatchdog s a1) := by
  unfold State.countWatchdog
  try dsimp only
  refine Touches.ite ?_ ?_
  · exact Touches.refl _ _
  · refine Touches.comp tch_setCarrier (by decide) ?_
    exact Touches.refl _ _

theorem tch_turnCarrier {s a1} : Touches (584124039297) s (@State.turnCarrier s a1) := by
  unfold State.turnCarrier
  try dsimp only
  split
  · exact Touches.refl _ _
  · refine Touches.comp tch_advance (by decide) ?_
    refine Touches.ite ?_ ?_
    · refine Touches.comp tch_startHalf (by decide) ?_
      refine Touches.foldl ?_ (fun _ _ h0 => ?_)
      · exact Touches.refl _ _
      · refine Touches.comp tch_countWatchdog (by decide) ?_
        exact h0
    · refine Touches.comp tch_zeroEvent (by decide) ?_
      refine Touches.foldl ?_ (fun _ _ h0 => ?_)
      · exact Touches.refl _ _
      · refine Touches.comp tch_countWatchdog (by decide) ?_
        exact h0

theorem tch_releaseAtZero {s a1 a2} : Touches (25231617) s (@State.releaseAtZero s a1 a2) := by
  unfold State.releaseAtZero
  try dsimp only
  split
  · refine Touches.ite ?_ ?_
    · refine Touches.comp tch_freeTarget (by decide) ?_
      exact Touches.refl _ _
    · exact Touches.refl _ _
  · exact Touches.refl _ _

theorem tch_softEvent {s a1} : Touches (16777216) s (@State.softEvent s a1) := by
  unfold State.softEvent
  try dsimp only
  refine Touches.ite ?_ ?_
  · refine Touches.comp tch_setTarget (by decide) ?_
    exact Touches.refl _ _
  · exact Touches.refl _ _

theorem tch_carrierEvent {s a1 a2 a3} : Touches (1754694017529) s (@State.carrierEvent s a1 a2 a3) := by
  unfold State.carrierEvent
  try dsimp only
  refine Touches.comp tch_settle (by decide) ?_
  refine Touches.comp tch_bcSync (by decide) ?_
  refine Touches.comp tch_carrierFollowers (by decide) ?_
  refine Touches.comp tch_turnCarrier (by decide) ?_
  refine Touches.doIf ?_ (fun _ h0 => ?_)
  · refine Touches.comp tch_softEvent (by decide) ?_
    refine Touches.comp tch_advance (by decide) ?_
    exact Touches.refl _ _
  · refine Touches.comp tch_releaseAtZero (by decide) ?_
    exact h0

theorem tch_cfglBlock {s a1} : Touches (1138166333440) s (@State.cfglBlock s a1) := by
  unfold State.cfglBlock
  try dsimp only
  refine Touches.foldl ?_ (fun _ _ h0 => ?_)
  · exact Touches.refl _ _
  · refine Touches.foldl ?_ (fun _ _ h1 => ?_)
    · exact h0
    · refine Touches.comp tch_cfgl (by decide) ?_
      exact h1

theorem tch_cfglRec {s a1} : Touches (1138166333440) s (@State.cfglRec s a1) := by
  unfold State.cfglRec
  try dsimp only
  split
  · refine Touches.foldl ?_ (fun _ _ h0 => ?_)
    · exact Touches.refl _ _
    · refine Touches.comp tch_cfgl (by decide) ?_
      exact h0
  · exact Touches.refl _ _

theorem tch_cfglSection {s a1} : Touches (1138166333440) s (@State.cfglSection s a1) := by
  unfold State.cfglSection
  try dsimp only
  split
  · refine Touches.foldl ?_ (fun _ _ h0 => ?_)
    · exact Touches.refl _ _
    · refine Touches.comp tch_cfglRec (by decide) ?_
      exact h0
  · refine Touches.foldl ?_ (fun _ _ h0 => ?_)
    · exact Touches.refl _ _
    · refine Touches.comp tch_cfglRec (by decide) ?_
      exact h0
  · refine Touches.foldl ?_ (fun _ _ h0 => ?_)
    · exact Touches.refl _ _
    · refine Touches.comp tch_cfglRec (by decide) ?_
      exact h0
  · refine Touches.foldl ?_ (fun _ _ h0 => ?_)
    · exact Touches.refl _ _
    · refine Touches.comp tch_cfglBlock (by decide) ?_
      exact h0
  · exact Touches.refl _ _

theorem tch_setWords {s a1 a2 a3} : Touches (2 ^ a1.blk.num) s (@State.setWords s a1 a2 a3) := by
  unfold State.setWords
  try dsimp only
  refine Touches.foldl ?_ (fun _ _ h0 => ?_)
  · exact Touches.refl _ _
  · refine Touches.comp tch_setWord (by first | decide | exact Nat.zero_and _ | exact Nat.and_self _ | exact maskR _ _ | exact maskL (maskR _ _) | exact maskL (Nat.and_self _) | exact maskL (by decide) | exact maskL (maskL (by decide)) | exact maskOr (maskL (by decide)) (maskR _ _) | exact maskOr (maskL (by decide)) (maskL (maskR _ _)) | exact maskOr (maskL (by decide)) (Nat.and_self _) | exact maskOr (maskL (maskL (by decide))) (maskR _ _) | exact maskOr (maskL (maskL (by decide))) (maskL (maskR _ _)) | exact maskOr (maskL (maskL (by decide))) (Nat.and_self _)) ?_
    exact h0

theorem tch_clearKeyData {s} : Touches (2) s (@State.clearKeyData s) := by
  unfold State.clearKeyData
  try dsimp only
  refine Touches.comp tch_setWords (by decide) ?_
  exact Touches.refl _ _

theorem tch_clearLatch {s a1} : Touches (16843009) s (@State.clearLatch s a1) := by
  unfold State.clearLatch
  try dsimp only
  refine Touches.ite ?_ ?_
  · exact Touches.refl _ _
  · refine Touches.ite ?_ ?_
    · refine Touches.comp tch_post (by decide) ?_
      exact Touches.refl _ _
    · refine Touches.ite ?_ ?_
      · exact Touches.refl _ _
      · refine Touches.comp tch_setTarget (by decide) ?_
        refine Touches.comp tch_setBitF (by decide) ?_
        exact Touches.refl _ _

theorem tch_setPodClk {s a1 a2} : Touches (4096) s (@State.setPodClk s a1 a2) := by
  unfold State.setPodClk
  try dsimp only
  refine Touches.comp tch_setF (by decide) ?_
  refine Touches.comp tch_setF (by decide) ?_
  exact Touches.refl _ _

theorem tch_unwrite {s a1} : Touches (65535) s (@State.unwrite s a1) := by
  unfold State.unwrite
  try dsimp only
  split
  · exact Touches.refl _ _
  · refine Touches.comp tch_setWord (by first | decide | (split <;> decide) | exact blkOk _ (by decide) | (unfold lostF; split <;> decide) | (unfold refOkF; split <;> decide)) ?_
    exact Touches.refl _ _

theorem tch_clearLoaded {s} : Touches (252903423) s (@State.clearLoaded s) := by
  unfold State.clearLoaded
  try dsimp only
  refine Touches.upd_husk_sea_trip_loop_safe_hostq (fun _ => ⟨rfl, rfl, rfl⟩) (by decide) ?_
  refine Touches.foldl ?_ (fun _ _ h0 => ?_)
  · refine Touches.foldl ?_ (fun _ _ h0 => ?_)
    · refine Touches.foldl ?_ (fun _ _ h0 => ?_)
      · refine Touches.foldl ?_ (fun _ _ h0 => ?_)
        · exact Touches.refl _ _
        · refine Touches.comp tch_unwrite (by decide) ?_
          exact h0
      · refine Touches.comp tch_setB (by decide) ?_
        exact h0
    · refine Touches.comp tch_setB (by decide) ?_
      exact h0
  · refine Touches.comp tch_setPodClk (by decide) ?_
    exact h0

theorem tch_w1c {s a1 a2 a3 a4} : Touches (2 ^ a1.blk.num) s (@State.w1c s a1 a2 a3 a4) := by
  unfold State.w1c
  try dsimp only
  refine Touches.ite ?_ ?_
  · exact Touches.refl _ _
  · refine Touches.comp tch_setWord (by first | decide | exact Nat.zero_and _ | exact Nat.and_self _ | exact maskR _ _ | exact maskL (maskR _ _) | exact maskL (Nat.and_self _) | exact maskL (by decide) | exact maskL (maskL (by decide)) | exact maskOr (maskL (by decide)) (maskR _ _) | exact maskOr (maskL (by decide)) (maskL (maskR _ _)) | exact maskOr (maskL (by decide)) (Nat.and_self _) | exact maskOr (maskL (maskL (by decide))) (maskR _ _) | exact maskOr (maskL (maskL (by decide))) (maskL (maskR _ _)) | exact maskOr (maskL (maskL (by decide))) (Nat.and_self _)) ?_
    exact Touches.refl _ _

theorem tch_clearLoss {s a1} : Touches (4194336) s (@State.clearLoss s a1) := by
  unfold State.clearLoss
  try dsimp only
  refine Touches.ite ?_ ?_
  · refine Touches.comp tch_w1c (by decide) ?_
    exact Touches.refl _ _
  · refine Touches.comp tch_setBitF (by decide) ?_
    refine Touches.comp tch_setPi (by decide) ?_
    refine Touches.comp tch_w1c (by decide) ?_
    exact Touches.refl _ _

theorem tch_clearLost {s} : Touches (65536) s (@State.clearLost s) := by
  unfold State.clearLost
  try dsimp only
  refine Touches.upd_sys (fun h => h) ⟨_, (by first | rfl | exact (List.append_nil _).symm)⟩ (by decide) ?_
  exact Touches.refl _ _

theorem tch_clearPair {s a1} : Touches (2097168) s (@State.clearPair s a1) := by
  unfold State.clearPair
  try dsimp only
  refine Touches.ite ?_ ?_
  · refine Touches.comp tch_setPair (by decide) ?_
    refine Touches.comp tch_w1c (by decide) ?_
    exact Touches.refl _ _
  · refine Touches.comp tch_w1c (by decide) ?_
    exact Touches.refl _ _

theorem tch_cmdCode {s a1} : Touches (1683692831153) s (@State.cmdCode s a1) := by
  unfold State.cmdCode
  try dsimp only
  refine Touches.comp tch_settle (by decide) ?_
  refine Touches.comp tch_bcSync (by decide) ?_
  refine Touches.comp tch_deliver (by decide) ?_
  exact Touches.refl _ _

theorem tch_cmdSetpoint {s a1} : Touches (33554432) s (@State.cmdSetpoint s a1) := by
  unfold State.cmdSetpoint
  try dsimp only
  refine Touches.ite ?_ ?_
  · exact Touches.refl _ _
  · refine Touches.ite ?_ ?_
    · exact Touches.refl _ _
    · refine Touches.ite ?_ ?_
      · refine Touches.ite ?_ ?_
        · exact Touches.refl _ _
        · refine Touches.doIf ?_ (fun _ h0 => ?_)
          · refine Touches.comp tch_modCtx (by decide) ?_
            exact Touches.refl _ _
          · refine Touches.comp tch_modCtx (by decide) ?_
            exact h0
      · refine Touches.comp tch_modCtx (by decide) ?_
        exact Touches.refl _ _

theorem tch_cmpwBad {s a1} : Touches (98433) s (@State.cmpwBad s a1) := by
  unfold State.cmpwBad
  try dsimp only
  refine Touches.ite ?_ ?_
  · refine Touches.comp tch_targetRaise (by decide) ?_
    exact Touches.refl _ _
  · refine Touches.comp tch_post (by decide) ?_
    exact Touches.refl _ _

theorem tch_cmpwArrive {s a1 a2} : Touches (1683686539713) s (@State.cmpwArrive s a1 a2) := by
  unfold State.cmpwArrive
  try dsimp only
  refine Touches.ite ?_ ?_
  · refine Touches.comp tch_cmpwBad (by decide) ?_
    exact Touches.refl _ _
  · split
    · refine Touches.comp tch_post (by decide) ?_
      exact Touches.refl _ _
    · refine Touches.ite ?_ ?_
      · refine Touches.comp tch_post (by decide) ?_
        exact Touches.refl _ _
      · refine Touches.ite ?_ ?_
        · exact Touches.refl _ _
        · refine Touches.ite ?_ ?_
          · refine Touches.comp tch_cmpwBad (by decide) ?_
            exact Touches.refl _ _
          · refine Touches.comp tch_acceptCmpw (by decide) ?_
            refine Touches.doIf ?_ (fun _ h0 => ?_)
            · exact Touches.refl _ _
            · refine Touches.comp tch_setB (by decide) ?_
              exact h0

theorem tch_commInterval {s a1} : Touches (68719476736) s (@State.commInterval s a1).1 := by
  unfold State.commInterval
  try dsimp only
  split
  · exact Touches.refl _ _
  · refine Touches.comp tch_draw (by decide) ?_
    exact Touches.refl _ _

theorem tch_commitMig {s a1} : Touches (1136204524665) s (@State.commitMig s a1) := by
  unfold State.commitMig
  try dsimp only
  refine Touches.comp tch_endMig (by decide) ?_
  refine Touches.comp tch_post (by decide) ?_
  refine Touches.comp tch_setB (by decide) ?_
  refine Touches.comp tch_setB (by decide) ?_
  refine Touches.comp tch_takeKernels (by decide) ?_
  refine Touches.comp tch_send (by decide) ?_
  refine Touches.comp tch_send (by decide) ?_
  refine Touches.comp tch_setF (by decide) ?_
  exact Touches.refl _ _

theorem tch_fillCheck {s a1 a2} : Touches (134283273) s (@State.fillCheck s a1 a2) := by
  unfold State.fillCheck
  try dsimp only
  refine Touches.ite ?_ ?_
  · refine Touches.comp tch_post (by decide) ?_
    refine Touches.upd_hostq (by decide) ?_
    refine Touches.comp tch_setB (by decide) ?_
    exact Touches.refl _ _
  · refine Touches.comp tch_setB (by decide) ?_
    exact Touches.refl _ _

theorem tch_sendVec {s a1 a2} : Touches (34493956096) s (@State.sendVec s a1 a2) := by
  unfold State.sendVec
  try dsimp only
  refine Touches.ite ?_ ?_
  · refine Touches.comp tch_emit (by decide) ?_
    exact Touches.refl _ _
  · refine Touches.ite ?_ ?_
    · exact Touches.refl _ _
    · refine Touches.upd_hostq (by decide) ?_
      exact Touches.refl _ _

theorem tch_signal {s a1 a2} : Touches (34493956096) s (@State.signal s a1 a2) := by
  unfold State.signal
  try dsimp only
  refine Touches.comp tch_sendVec (by decide) ?_
  refine Touches.upd_hostq (by decide) ?_
  exact Touches.refl _ _

theorem tch_signalCheck {s a1 a2} : Touches (34493956096) s (@State.signalCheck s a1 a2) := by
  unfold State.signalCheck
  try dsimp only
  refine Touches.doIf ?_ (fun _ h0 => ?_)
  · exact Touches.refl _ _
  · refine Touches.comp tch_signal (by decide) ?_
    exact h0

theorem tch_complete {s a1 a2 a3} : Touches (34494021641) s (@State.complete s a1 a2 a3) := by
  unfold State.complete
  try dsimp only
  refine Touches.comp tch_signalCheck (by decide) ?_
  refine Touches.comp tch_fillCheck (by decide) ?_
  refine Touches.comp tch_dropDesc (by decide) ?_
  refine Touches.upd_hostq (by decide) ?_
  refine Touches.doIf ?_ (fun _ h0 => ?_)
  · refine Touches.comp tch_setF (by decide) ?_
    refine Touches.comp tch_emit (by decide) ?_
    exact Touches.refl _ _
  · refine Touches.comp tch_setB (by decide) ?_
    exact h0

theorem tch_copyMem {s a1} : Touches (1048576) s (@State.copyMem s a1) := by
  unfold State.copyMem
  try dsimp only
  refine Touches.upd_sea (fun h => ⟨h.1, h.2.1, kwf_foldl _ (fun _ _ hm => kwf_kset _ _ hm) _ (kwf_filter _ h.2.2)⟩) (by decide) ?_
  exact Touches.refl _ _

theorem tch_lastErr {s a1 a2 a3 a4 a5} : Touches (8192) s (@State.lastErr s a1 a2 a3 a4 a5) := by
  unfold State.lastErr
  try dsimp only
  refine Touches.comp tch_setF (by decide) ?_
  refine Touches.comp tch_setF (by decide) ?_
  refine Touches.comp tch_setF (by decide) ?_
  refine Touches.comp tch_setF (by decide) ?_
  refine Touches.comp tch_setB (by decide) ?_
  exact Touches.refl _ _

theorem tch_corrected {s a1 a2 a3 a4} : Touches (8192) s (@State.corrected s a1 a2 a3 a4) := by
  unfold State.corrected
  try dsimp only
  refine Touches.comp tch_lastErr (by decide) ?_
  refine Touches.comp tch_setB (by decide) ?_
  refine Touches.comp tch_incF (by decide) ?_
  exact Touches.refl _ _

theorem tch_cqOff {s a1 a2} : Touches (8) s (@State.cqOff s a1 a2) := by
  unfold State.cqOff
  try dsimp only
  refine Touches.comp tch_setB (by decide) ?_
  refine Touches.comp tch_setB (by decide) ?_
  refine Touches.comp tch_setF (by decide) ?_
  refine Touches.comp tch_setF (by decide) ?_
  exact Touches.refl _ _

theorem tch_cqOn {s a1 a2 a3} : Touches (134217736) s (@State.cqOn s a1 a2 a3) := by
  unfold State.cqOn
  try dsimp only
  refine Touches.upd_hostq (by decide) ?_
  refine Touches.comp tch_setF (by decide) ?_
  refine Touches.comp tch_setF (by decide) ?_
  refine Touches.comp tch_setB (by decide) ?_
  refine Touches.comp tch_setB (by decide) ?_
  refine Touches.comp tch_setF (by decide) ?_
  refine Touches.comp tch_setF (by decide) ?_
  refine Touches.comp tch_setB (by decide) ?_
  exact Touches.refl _ _

theorem tch_pendAxes {s a1} : Touches (67108864) s (@State.pendAxes s a1) := by
  unfold State.pendAxes
  try dsimp only
  refine Touches.upd_safe (by decide) ?_
  exact Touches.refl _ _

theorem tch_violate {s a1 a2 a3} : Touches (67174401) s (@State.violate s a1 a2 a3) := by
  unfold State.violate
  try dsimp only
  refine Touches.ite ?_ ?_
  · exact Touches.refl _ _
  · refine Touches.ite ?_ ?_
    · refine Touches.comp tch_axEnter (by decide) ?_
      refine Touches.comp tch_pendAxes (by decide) ?_
      refine Touches.comp tch_post (by decide) ?_
      refine Touches.comp tch_setAxHalf (by decide) ?_
      exact Touches.refl _ _
    · refine Touches.ite ?_ ?_
      · refine Touches.comp tch_axEnter (by decide) ?_
        refine Touches.comp tch_pendAxes (by decide) ?_
        refine Touches.comp tch_post (by decide) ?_
        refine Touches.comp tch_setAxHalf (by decide) ?_
        exact Touches.refl _ _
      · refine Touches.comp tch_pendAxes (by decide) ?_
        refine Touches.comp tch_post (by decide) ?_
        refine Touches.comp tch_setAxHalf (by decide) ?_
        exact Touches.refl _ _

theorem tch_crossCompare {s a1 a2} : Touches (67174401) s (@State.crossCompare s a1 a2) := by
  unfold State.crossCompare
  try dsimp only
  refine Touches.ite ?_ ?_
  · refine Touches.comp tch_setAxHalf (by decide) ?_
    exact Touches.refl _ _
  · refine Touches.ite ?_ ?_
    · refine Touches.comp tch_violate (by decide) ?_
      refine Touches.comp tch_violate (by decide) ?_
      refine Touches.comp tch_setAxHalf (by decide) ?_
      exact Touches.refl _ _
    · refine Touches.comp tch_setAxHalf (by decide) ?_
      exact Touches.refl _ _

theorem tch_freeKernels_go {a0 a1 s} : Touches (33620033) s (@State.freeKernels.go a0 a1 s) := by
  induction a1 generalizing s with
  | zero => unfold State.freeKernels.go; exact Touches.refl _ _
  | succ n ih =>
    unfold State.freeKernels.go
    split
    · refine Touches.comp ih (by decide) ?_
      exact tch_startEval.mono (by decide)
    · exact Touches.refl _ _

theorem tch_freeKernels {s a1} : Touches (33620033) s (@State.freeKernels s a1) := by
  unfold State.freeKernels
  try dsimp only
  refine Touches.comp tch_freeKernels_go (by decide) ?_
  exact Touches.refl _ _

theorem tch_disturbMig {s a1} : Touches (1136186695753) s (@State.disturbMig s a1) := by
  unfold State.disturbMig
  try dsimp only
  split
  · refine Touches.ite ?_ ?_
    · refine Touches.comp tch_abortMig (by decide) ?_
      exact Touches.refl _ _
    · exact Touches.refl _ _
  · exact Touches.refl _ _

theorem tch_ctxFault {s a1 a2} : Touches (1136186695753) s (@State.ctxFault s a1 a2) := by
  unfold State.ctxFault
  try dsimp only
  refine Touches.ite ?_ ?_
  · refine Touches.doIf ?_ (fun _ h0 => ?_)
    · exact Touches.refl _ _
    · refine Touches.doIf ?_ (fun _ h1 => ?_)
      · refine Touches.comp tch_modCtx (by decide) ?_
        refine Touches.comp tch_setCtxFault (by decide) ?_
        exact h0
      · refine Touches.comp tch_post (by decide) ?_
        exact h1
  · refine Touches.comp tch_disturbMig (by decide) ?_
    refine Touches.comp tch_freeKernels (by decide) ?_
    refine Touches.doIf ?_ (fun _ h0 => ?_)
    · refine Touches.comp tch_modCtx (by decide) ?_
      refine Touches.comp tch_setCtxState (by decide) ?_
      refine Touches.comp tch_setCtxFault (by decide) ?_
      exact Touches.refl _ _
    · refine Touches.comp tch_post (by decide) ?_
      exact h0

theorem tch_showAxis {s a1} : Touches (66049) s (@State.showAxis s a1) := by
  unfold State.showAxis
  try dsimp only
  refine Touches.doIf ?_ (fun _ h0 => ?_)
  · refine Touches.comp tch_setF (by decide) ?_
    refine Touches.comp tch_setF (by decide) ?_
    refine Touches.comp tch_setF (by decide) ?_
    refine Touches.comp tch_setF (by decide) ?_
    exact Touches.refl _ _
  · refine Touches.comp tch_post (by decide) ?_
    exact h0

theorem tch_sendCycle {s a1 a2} : Touches (1133871366144) s (@State.sendCycle s a1 a2) := by
  unfold State.sendCycle
  try dsimp only
  refine Touches.comp tch_send (by decide) ?_
  exact Touches.refl _ _

theorem tch_resetAxis {s a1} : Touches (67174913) s (@State.resetAxis s a1) := by
  unfold State.resetAxis
  try dsimp only
  refine Touches.ite ?_ ?_
  · exact Touches.refl _ _
  · refine Touches.ite ?_ ?_
    · refine Touches.foldl ?_ (fun _ _ h0 => ?_)
      · refine Touches.upd_safe (by decide) ?_
        exact Touches.refl _ _
      · refine Touches.ite ?_ ?_
        · refine Touches.comp tch_axEnter (by decide) ?_
          refine Touches.comp tch_setAxHalf (by decide) ?_
          exact h0
        · exact h0
    · refine Touches.comp tch_post (by decide) ?_
      refine Touches.comp tch_setB (by decide) ?_
      exact Touches.refl _ _

theorem tch_resetEvent {s} : Touches (67174913) s (@State.resetEvent s) := by
  unfold State.resetEvent
  try dsimp only
  refine Touches.foldl ?_ (fun _ _ h0 => ?_)
  · refine Touches.comp tch_setF (by decide) ?_
    refine Touches.comp tch_post (by decide) ?_
    exact Touches.refl _ _
  · refine Touches.comp tch_resetAxis (by decide) ?_
    exact h0

theorem tch_exchange {s a1 a2} : Touches (67108864) s (@State.exchange s a1 a2) := by
  unfold State.exchange
  try dsimp only
  refine Touches.comp tch_setAxHalf (by decide) ?_
  exact Touches.refl _ _

theorem tch_linkSeen {s a1} : Touches (67108864) s (@State.linkSeen s a1) := by
  unfold State.linkSeen
  try dsimp only
  refine Touches.upd_safe (by decide) ?_
  exact Touches.refl _ _

theorem tch_halfFault {s a1 a2} : Touches (34452112257) s (@State.halfFault s a1 a2) := by
  unfold State.halfFault
  try dsimp only
  refine Touches.ite ?_ ?_
  · exact Touches.refl _ _
  · refine Touches.doIf ?_ (fun _ h0 => ?_)
    · refine Touches.foldl ?_ (fun _ _ h0 => ?_)
      · refine Touches.comp tch_post (by decide) ?_
        refine Touches.ite ?_ ?_
        · refine Touches.comp tch_setF (by decide) ?_
          refine Touches.comp tch_setB (by decide) ?_
          exact Touches.refl _ _
        · refine Touches.comp tch_setF (by decide) ?_
          refine Touches.comp tch_setB (by decide) ?_
          exact Touches.refl _ _
      · refine Touches.ite ?_ ?_
        · refine Touches.comp tch_setOut (by decide) ?_
          exact h0
        · exact h0
    · refine Touches.comp tch_setDemands (by decide) ?_
      exact h0

theorem tch_cycleStart {s a1 a2 a3 a4} : Touches (1134097957769) s (@State.cycleStart s a1 a2 a3 a4) := by
  unfold State.cycleStart
  try dsimp only
  refine Touches.foldl ?_ (fun _ _ h0 => ?_)
  · refine Touches.foldl ?_ (fun _ _ h0 => ?_)
    · refine Touches.upd_safe (by decide) ?_
      refine Touches.foldl ?_ (fun _ _ h0 => ?_)
      · refine Touches.doIf ?_ (fun _ h0 => ?_)
        · refine Touches.foldl ?_ (fun _ _ h0 => ?_)
          · refine Touches.comp tch_linkSeen (by decide) ?_
            refine Touches.comp tch_applySet (by decide) ?_
            refine Touches.upd_safe (by decide) ?_
            refine Touches.comp tch_applyResults (by decide) ?_
            refine Touches.foldl ?_ (fun _ _ h0 => ?_)
            · refine Touches.doIf ?_ (fun _ h0 => ?_)
              · exact Touches.refl _ _
              · refine Touches.doIf ?_ (fun _ h1 => ?_)
                · refine Touches.doIf ?_ (fun _ h1 => ?_)
                  · exact h0
                  · refine Touches.comp tch_halfFault (by decide) ?_
                    exact h1
                · refine Touches.comp tch_halfFault (by decide) ?_
                  exact h1
            · refine Touches.doIf ?_ (fun _ h1 => ?_)
              · exact h0
              · refine Touches.comp tch_halfFault (by decide) ?_
                exact h1
          · refine Touches.foldl ?_ (fun _ _ h1 => ?_)
            · exact h0
            · refine Touches.comp tch_exchange (by decide) ?_
              exact h1
        · refine Touches.comp tch_resetEvent (by decide) ?_
          exact h0
      · refine Touches.foldl ?_ (fun _ _ h1 => ?_)
        · exact h0
        · refine Touches.comp tch_axisAt (by decide) ?_
          exact h1
    · refine Touches.ite ?_ ?_
      · refine Touches.comp tch_sendCycle (by decide) ?_
        refine Touches.upd_safe (by decide) ?_
        exact h0
      · refine Touches.doIf ?_ (fun _ h1 => ?_)
        · refine Touches.upd_safe (by decide) ?_
          exact h0
        · refine Touches.upd_safe (by decide) ?_
          exact h1
  · refine Touches.comp tch_showAxis (by decide) ?_
    exact h0

theorem tch_dcEnter {s a1 a2} : Touches (33619969) s (@State.dcEnter s a1 a2) := by
  unfold State.dcEnter
  try dsimp only
  refine Touches.doIf ?_ (fun _ h0 => ?_)
  · refine Touches.comp tch_modDc (by decide) ?_
    exact Touches.refl _ _
  · refine Touches.comp tch_post (by decide) ?_
    exact h0

theorem tch_dcImbalance {s a1 a2} : Touches (33619969) s (@State.dcImbalance s a1 a2) := by
  unfold State.dcImbalance
  try dsimp only
  refine Touches.ite ?_ ?_
  · refine Touches.comp tch_post (by decide) ?_
    refine Touches.comp tch_modDc (by decide) ?_
    refine Touches.comp tch_modDc (by decide) ?_
    refine Touches.comp tch_post (by decide) ?_
    exact Touches.refl _ _
  · refine Touches.comp tch_dcEnter (by decide) ?_
    refine Touches.comp tch_modDc (by decide) ?_
    refine Touches.comp tch_post (by decide) ?_
    exact Touches.refl _ _

theorem tch_dcBalance {s a1 a2} : Touches (33619969) s (@State.dcBalance s a1 a2) := by
  unfold State.dcBalance
  try dsimp only
  refine Touches.foldl ?_ (fun _ _ h0 => ?_)
  · refine Touches.comp tch_modDc (by decide) ?_
    exact Touches.refl _ _
  · refine Touches.doIf ?_ (fun _ h1 => ?_)
    · exact h0
    · refine Touches.comp tch_dcImbalance (by decide) ?_
      exact h1

theorem tch_dcFail {s a1 a2} : Touches (33619969) s (@State.dcFail s a1 a2) := by
  unfold State.dcFail
  try dsimp only
  refine Touches.comp tch_dcEnter (by decide) ?_
  refine Touches.comp tch_modDc (by decide) ?_
  refine Touches.comp tch_post (by decide) ?_
  exact Touches.refl _ _

theorem tch_dcCharge {s a1} : Touches (33619969) s (@State.dcCharge s a1) := by
  unfold State.dcCharge
  try dsimp only
  split
  · refine Touches.comp tch_dcFail (by decide) ?_
    refine Touches.comp tch_modDc (by decide) ?_
    exact Touches.refl _ _
  · split
    · refine Touches.comp tch_dcFail (by decide) ?_
      refine Touches.doIf ?_ (fun _ h0 => ?_)
      · refine Touches.comp tch_modDc (by decide) ?_
        exact Touches.refl _ _
      · refine Touches.comp tch_modDc (by decide) ?_
        exact h0
    · refine Touches.doIf ?_ (fun _ h0 => ?_)
      · refine Touches.doIf ?_ (fun _ h0 => ?_)
        · refine Touches.comp tch_modDc (by decide) ?_
          exact Touches.refl _ _
        · refine Touches.comp tch_modDc (by decide) ?_
          exact h0
      · refine Touches.comp tch_dcEnter (by decide) ?_
        refine Touches.comp tch_modDc (by decide) ?_
        exact h0

theorem tch_dcLimits {s a1} : Touches (33554432) s (@State.dcLimits s a1) := by
  unfold State.dcLimits
  try dsimp only
  refine Touches.ite ?_ ?_
  · refine Touches.comp tch_modDc (by decide) ?_
    exact Touches.refl _ _
  · refine Touches.ite ?_ ?_
    · refine Touches.comp tch_modDc (by decide) ?_
      exact Touches.refl _ _
    · refine Touches.comp tch_modDc (by decide) ?_
      exact Touches.refl _ _

theorem tch_dcOff {s a1} : Touches (33619969) s (@State.dcOff s a1) := by
  unfold State.dcOff
  try dsimp only
  refine Touches.comp tch_dcEnter (by decide) ?_
  refine Touches.comp tch_modDc (by decide) ?_
  exact Touches.refl _ _

theorem tch_dcRefs {s a1 a2} : Touches (33554432) s (@State.dcRefs s a1 a2) := by
  unfold State.dcRefs
  try dsimp only
  refine Touches.comp tch_modDc (by decide) ?_
  exact Touches.refl _ _

theorem tch_sendToken {s a1 a2} : Touches (1133871431681) s (@State.sendToken s a1 a2) := by
  unfold State.sendToken
  try dsimp only
  refine Touches.comp tch_transmit (by decide) ?_
  exact Touches.refl _ _

theorem tch_dcStart {s a1} : Touches (1133904986113) s (@State.dcStart s a1) := by
  unfold State.dcStart
  try dsimp only
  refine Touches.ite ?_ ?_
  · refine Touches.comp tch_dcEnter (by decide) ?_
    refine Touches.comp tch_modDc (by decide) ?_
    refine Touches.comp tch_modDc (by decide) ?_
    exact Touches.refl _ _
  · refine Touches.comp tch_sendToken (by decide) ?_
    refine Touches.comp tch_dcEnter (by decide) ?_
    refine Touches.comp tch_modDc (by decide) ?_
    refine Touches.comp tch_modDc (by decide) ?_
    exact Touches.refl _ _

theorem tch_dcToken {s a1} : Touches (33619969) s (@State.dcToken s a1) := by
  unfold State.dcToken
  try dsimp only
  refine Touches.comp tch_dcEnter (by decide) ?_
  refine Touches.comp tch_modDc (by decide) ?_
  exact Touches.refl _ _

theorem tch_directViolations {s a1 a2} : Touches (67174401) s (@State.directViolations s a1 a2) := by
  unfold State.directViolations
  try dsimp only
  refine Touches.doIf ?_ (fun _ h0 => ?_)
  · refine Touches.comp tch_setAxHalf (by decide) ?_
    refine Touches.doIf ?_ (fun _ h0 => ?_)
    · exact Touches.refl _ _
    · refine Touches.foldl ?_ (fun _ _ h1 => ?_)
      · exact h0
      · refine Touches.comp tch_violate (by decide) ?_
        refine Touches.comp tch_setAxHalf (by decide) ?_
        exact h1
  · refine Touches.comp tch_violate (by decide) ?_
    exact h0

theorem tch_discard {s a1} : Touches (134217736) s (@State.discard s a1) := by
  unfold State.discard
  try dsimp only
  refine Touches.foldl ?_ (fun _ _ h0 => ?_)
  · exact Touches.refl _ _
  · refine Touches.ite ?_ ?_
    · refine Touches.comp tch_dropDesc (by decide) ?_
      exact h0
    · refine Touches.comp tch_modDesc (by decide) ?_
      exact h0

theorem tch_dropLog {s a1} : Touches (65536) s (@State.dropLog s a1) := by
  unfold State.dropLog
  try dsimp only
  refine Touches.upd_sys (fun h => SysSt.ordered_erase h _) ⟨_, (by first | rfl | exact (List.append_nil _).symm)⟩ (by decide) ?_
  exact Touches.refl _ _

theorem tch_discardEntry {s a1 a2} : Touches (134283273) s (@State.discardEntry s a1 a2) := by
  unfold State.discardEntry
  try dsimp only
  refine Touches.ite ?_ ?_
  · refine Touches.doIf ?_ (fun _ h0 => ?_)
    · exact Touches.refl _ _
    · refine Touches.comp tch_dropLog (by decide) ?_
      refine Touches.comp tch_incF (by decide) ?_
      exact h0
  · refine Touches.ite ?_ ?_
    · refine Touches.comp tch_dropDesc (by decide) ?_
      exact Touches.refl _ _
    · exact Touches.refl _ _

theorem tch_probeDone {s a1 a2 a3 a4 a5} : Touches (33619969) s (@State.probeDone s a1 a2 a3 a4 a5) := by
  unfold State.probeDone
  try dsimp only
  refine Touches.comp tch_post (by decide) ?_
  refine Touches.comp tch_modCtx (by decide) ?_
  exact Touches.refl _ _

theorem tch_probeStart {s a1 a2} : Touches (33619969) s (@State.probeStart s a1 a2) := by
  unfold State.probeStart
  try dsimp only
  split
  · exact Touches.refl _ _
  · refine Touches.ite ?_ ?_
    · refine Touches.comp tch_probeDone (by decide) ?_
      refine Touches.comp tch_modCtx (by decide) ?_
      exact Touches.refl _ _
    · refine Touches.comp tch_modCtx (by decide) ?_
      exact Touches.refl _ _

theorem tch_drvProbe {s a1 a2 a3} : Touches (33619969) s (@State.drvProbe s a1 a2 a3) := by
  unfold State.drvProbe
  try dsimp only
  refine Touches.comp tch_probeStart (by decide) ?_
  refine Touches.comp tch_modDrv (by decide) ?_
  refine Touches.comp tch_drvEnter (by decide) ?_
  exact Touches.refl _ _

theorem tch_dischJudge {s a1 a2} : Touches (33619969) s (@State.dischJudge s a1 a2) := by
  unfold State.dischJudge
  try dsimp only
  refine Touches.ite ?_ ?_
  · refine Touches.comp tch_drvEnter (by decide) ?_
    refine Touches.comp tch_post (by decide) ?_
    exact Touches.refl _ _
  · refine Touches.comp tch_drvEnter (by decide) ?_
    exact Touches.refl _ _

theorem tch_dischBegin {s a1 a2} : Touches (33619969) s (@State.dischBegin s a1 a2) := by
  unfold State.dischBegin
  try dsimp only
  refine Touches.ite ?_ ?_
  · refine Touches.comp tch_dischJudge (by decide) ?_
    exact Touches.refl _ _
  · refine Touches.comp tch_drvProbe (by decide) ?_
    exact Touches.refl _ _

theorem tch_doChallenge {s a1} : Touches (68719607810) s (@State.doChallenge s a1) := by
  unfold State.doChallenge
  try dsimp only
  refine Touches.comp tch_setSession (by decide) ?_
  refine Touches.comp tch_setF (by decide) ?_
  refine Touches.comp tch_setWords (by decide) ?_
  refine Touches.comp tch_draw (by decide) ?_
  exact Touches.refl _ _

theorem tch_keyDone {s} : Touches (2) s (@State.keyDone s) := by
  unfold State.keyDone
  try dsimp only
  refine Touches.comp tch_clearKeyData (by decide) ?_
  refine Touches.comp tch_setF (by decide) ?_
  exact Touches.refl _ _

theorem tch_doDelete {s a1} : Touches (196611) s (@State.doDelete s a1) := by
  unfold State.doDelete
  try dsimp only
  refine Touches.comp tch_post (by decide) ?_
  refine Touches.comp tch_keyDone (by decide) ?_
  refine Touches.comp tch_setCakSlot (by decide) ?_
  exact Touches.refl _ _

theorem tch_doFuse {s a1 a2} : Touches (196611) s (@State.doFuse s a1 a2) := by
  unfold State.doFuse
  try dsimp only
  refine Touches.ite ?_ ?_
  · refine Touches.ite ?_ ?_
    · refine Touches.comp tch_setF (by decide) ?_
      exact Touches.refl _ _
    · refine Touches.ite ?_ ?_
      · refine Touches.comp tch_post (by decide) ?_
        refine Touches.comp tch_setF (by decide) ?_
        refine Touches.comp tch_clearKeyData (by decide) ?_
        refine Touches.comp tch_setB (by decide) ?_
        refine Touches.upd_husk (by decide) ?_
        refine Touches.comp tch_setBitF (by decide) ?_
        exact Touches.refl _ _
      · refine Touches.comp tch_setF (by decide) ?_
        refine Touches.comp tch_clearKeyData (by decide) ?_
        refine Touches.comp tch_setB (by decide) ?_
        refine Touches.upd_husk (by decide) ?_
        refine Touches.comp tch_setBitF (by decide) ?_
        exact Touches.refl _ _
  · refine Touches.ite ?_ ?_
    · refine Touches.ite ?_ ?_
      · refine Touches.comp tch_setF (by decide) ?_
        exact Touches.refl _ _
      · refine Touches.ite ?_ ?_
        · refine Touches.comp tch_post (by decide) ?_
          refine Touches.comp tch_setF (by decide) ?_
          refine Touches.comp tch_clearKeyData (by decide) ?_
          refine Touches.comp tch_setB (by decide) ?_
          refine Touches.upd_husk (by decide) ?_
          refine Touches.comp tch_setBitF (by decide) ?_
          exact Touches.refl _ _
        · refine Touches.comp tch_setF (by decide) ?_
          refine Touches.comp tch_clearKeyData (by decide) ?_
          refine Touches.comp tch_setB (by decide) ?_
          refine Touches.upd_husk (by decide) ?_
          refine Touches.comp tch_setBitF (by decide) ?_
          exact Touches.refl _ _
    · refine Touches.ite ?_ ?_
      · refine Touches.ite ?_ ?_
        · refine Touches.comp tch_setF (by decide) ?_
          exact Touches.refl _ _
        · refine Touches.ite ?_ ?_
          · refine Touches.comp tch_post (by decide) ?_
            refine Touches.comp tch_setF (by decide) ?_
            refine Touches.comp tch_clearKeyData (by decide) ?_
            refine Touches.comp tch_setB (by decide) ?_
            refine Touches.upd_husk (by decide) ?_
            refine Touches.comp tch_setB (by decide) ?_
            refine Touches.comp tch_setBitF (by decide) ?_
            exact Touches.refl _ _
          · refine Touches.comp tch_setF (by decide) ?_
            refine Touches.comp tch_clearKeyData (by decide) ?_
            refine Touches.comp tch_setB (by decide) ?_
            refine Touches.upd_husk (by decide) ?_
            refine Touches.comp tch_setB (by decide) ?_
            refine Touches.comp tch_setBitF (by decide) ?_
            exact Touches.refl _ _
      · refine Touches.ite ?_ ?_
        · refine Touches.ite ?_ ?_
          · refine Touches.ite ?_ ?_
            · refine Touches.comp tch_post (by decide) ?_
              refine Touches.comp tch_setF (by decide) ?_
              refine Touches.comp tch_clearKeyData (by decide) ?_
              refine Touches.comp tch_setB (by decide) ?_
              refine Touches.comp tch_setF (by decide) ?_
              exact Touches.refl _ _
            · refine Touches.comp tch_setF (by decide) ?_
              refine Touches.comp tch_clearKeyData (by decide) ?_
              refine Touches.comp tch_setB (by decide) ?_
              refine Touches.comp tch_setF (by decide) ?_
              exact Touches.refl _ _
          · refine Touches.comp tch_setF (by decide) ?_
            exact Touches.refl _ _
        · exact Touches.refl _ _

theorem tch_doGo {s} : Touches (1073811457) s (@State.doGo s) := by
  unfold State.doGo
  try dsimp only
  split
  · refine Touches.comp tch_post (by decide) ?_
    refine Touches.comp tch_setB (by decide) ?_
    refine Touches.comp tch_setF (by decide) ?_
    exact Touches.refl _ _
  · refine Touches.comp tch_setB (by decide) ?_
    refine Touches.comp tch_setF (by decide) ?_
    refine Touches.upd_clk (by decide) ?_
    exact Touches.refl _ _

theorem tch_keyRefused {s a1 a2} : Touches (65539) s (@State.keyRefused s a1 a2) := by
  unfold State.keyRefused
  try dsimp only
  refine Touches.comp tch_post (by decide) ?_
  refine Touches.comp tch_setF (by decide) ?_
  exact Touches.refl _ _

theorem tch_doLoad {s a1} : Touches (196611) s (@State.doLoad s a1) := by
  unfold State.doLoad
  try dsimp only
  refine Touches.ite ?_ ?_
  · refine Touches.comp tch_keyRefused (by decide) ?_
    exact Touches.refl _ _
  · refine Touches.comp tch_post (by decide) ?_
    refine Touches.comp tch_keyDone (by decide) ?_
    refine Touches.comp tch_setCakSlot (by decide) ?_
    exact Touches.refl _ _

theorem tch_logChange {s a1 a2 a3 a4 a5} : Touches (67109376) s (@State.logChange s a1 a2 a3 a4 a5) := by
  unfold State.logChange
  try dsimp only
  refine Touches.upd_safe (by decide) ?_
  refine Touches.comp tch_setF (by decide) ?_
  exact Touches.refl _ _

theorem tch_doPwDel {s a1} : Touches (67305987) s (@State.doPwDel s a1) := by
  unfold State.doPwDel
  try dsimp only
  refine Touches.ite ?_ ?_
  · refine Touches.comp tch_keyDone (by decide) ?_
    refine Touches.comp tch_logChange (by decide) ?_
    refine Touches.comp tch_setPwSlot (by decide) ?_
    exact Touches.refl _ _
  · refine Touches.comp tch_keyRefused (by decide) ?_
    exact Touches.refl _ _

theorem tch_setVerifier {s a1 a2 a3} : Touches (67240450) s (@State.setVerifier s a1 a2 a3) := by
  unfold State.setVerifier
  try dsimp only
  refine Touches.comp tch_keyDone (by decide) ?_
  refine Touches.comp tch_logChange (by decide) ?_
  refine Touches.comp tch_setPwSlot (by decide) ?_
  exact Touches.refl _ _

theorem tch_doPwSet {s a1} : Touches (67305987) s (@State.doPwSet s a1) := by
  unfold State.doPwSet
  try dsimp only
  refine Touches.ite ?_ ?_
  · refine Touches.comp tch_keyRefused (by decide) ?_
    exact Touches.refl _ _
  · refine Touches.ite ?_ ?_
    · refine Touches.ite ?_ ?_
      · refine Touches.comp tch_setVerifier (by decide) ?_
        exact Touches.refl _ _
      · refine Touches.comp tch_keyRefused (by decide) ?_
        exact Touches.refl _ _
    · refine Touches.ite ?_ ?_
      · split
        · refine Touches.comp tch_setVerifier (by decide) ?_
          exact Touches.refl _ _
        · refine Touches.comp tch_keyRefused (by decide) ?_
          exact Touches.refl _ _
      · refine Touches.comp tch_keyRefused (by decide) ?_
        exact Touches.refl _ _

theorem tch_doReq {s a1} : Touches (196611) s (@State.doReq s a1) := by
  unfold State.doReq
  try dsimp only
  split
  · refine Touches.comp tch_post (by decide) ?_
    refine Touches.comp tch_setF (by decide) ?_
    exact Touches.refl _ _
  · refine Touches.comp tch_setSession (by decide) ?_
    exact Touches.refl _ _

theorem tch_lapse {s a1} : Touches (131074) s (@State.lapse s a1) := by
  unfold State.lapse
  try dsimp only
  refine Touches.comp tch_setSession (by decide) ?_
  refine Touches.comp tch_setF (by decide) ?_
  refine Touches.comp tch_setF (by decide) ?_
  exact Touches.refl _ _

theorem tch_doSubmit {s a1} : Touches (131074) s (@State.doSubmit s a1) := by
  unfold State.doSubmit
  try dsimp only
  refine Touches.ite ?_ ?_
  · refine Touches.ite ?_ ?_
    · refine Touches.comp tch_setSession (by decide) ?_
      exact Touches.refl _ _
    · refine Touches.comp tch_lapse (by decide) ?_
      exact Touches.refl _ _
  · exact Touches.refl _ _

theorem tch_drivePins {s a1} : Touches (34359738368) s (@State.drivePins s a1) := by
  unfold State.drivePins
  try dsimp only
  refine Touches.foldl ?_ (fun _ _ h0 => ?_)
  · exact Touches.refl _ _
  · refine Touches.comp tch_emit (by decide) ?_
    exact h0

theorem tch_references {s a1 a2 a3} : Touches (33554432) s (@State.references s a1 a2 a3) := by
  unfold State.references
  try dsimp only
  refine Touches.comp tch_modDrv (by decide) ?_
  exact Touches.refl _ _

theorem tch_modulate {s a1 a2 a3 a4 a5} : Touches (68753031168) s (@State.modulate s a1 a2 a3 a4 a5) := by
  unfold State.modulate
  try dsimp only
  refine Touches.comp tch_modCtx (by decide) ?_
  split
  · try dsimp only
    refine Touches.comp tch_draw (by decide) ?_
    exact Touches.refl _ _
  · try dsimp only
    exact Touches.refl _ _

theorem tch_driveStage {s a1 a2} : Touches (68753031168) s (@State.driveStage s a1 a2) := by
  unfold State.driveStage
  try dsimp only
  refine Touches.ite ?_ ?_
  · refine Touches.comp tch_modulate (by decide) ?_
    refine Touches.comp tch_references (by decide) ?_
    exact Touches.refl _ _
  · refine Touches.ite ?_ ?_
    · refine Touches.comp tch_modulate (by decide) ?_
      refine Touches.comp tch_modDrv (by decide) ?_
      exact Touches.refl _ _
    · refine Touches.ite ?_ ?_
      · refine Touches.comp tch_modulate (by decide) ?_
        exact Touches.refl _ _
      · refine Touches.comp tch_modDrv (by decide) ?_
        exact Touches.refl _ _

theorem tch_frameItem {s a1 a2 a3 a4 a5 a6 a7 a8 a9 a10} : Touches (1133871431681) s (@State.frameItem s a1 a2 a3 a4 a5 a6 a7 a8 a9 a10) := by
  unfold State.frameItem
  try dsimp only
  refine Touches.comp tch_sendItem (by decide) ?_
  exact Touches.refl _ _

theorem tch_frameOver {s a1 a2 a3 a4 a5} : Touches (1134005649417) s (@State.frameOver s a1 a2 a3 a4 a5) := by
  unfold State.frameOver
  try dsimp only
  split
  · refine Touches.comp tch_frameItem (by decide) ?_
    exact Touches.refl _ _
  · refine Touches.comp tch_reply (by decide) ?_
    refine Touches.comp tch_frameItem (by decide) ?_
    exact Touches.refl _ _

theorem tch_failQueue {s a1 a2} : Touches (1134274085897) s (@State.failQueue s a1 a2) := by
  unfold State.failQueue
  try dsimp only
  refine Touches.foldl ?_ (fun _ _ h0 => ?_)
  · refine Touches.comp tch_setLq (by decide) ?_
    exact Touches.refl _ _
  · refine Touches.comp tch_frameOver (by decide) ?_
    exact h0

theorem tch_dropLink {s a1} : Touches (1135347831817) s (@State.dropLink s a1) := by
  unfold State.dropLink
  try dsimp only
  refine Touches.comp tch_slaveLost (by decide) ?_
  refine Touches.foldl ?_ (fun _ _ h0 => ?_)
  · refine Touches.comp tch_post (by decide) ?_
    refine Touches.comp tch_setPort (by decide) ?_
    refine Touches.comp tch_setPs (by decide) ?_
    refine Touches.comp tch_setB (by first | decide | (split <;> decide) | exact blkOk _ (by decide) | (unfold lostF; split <;> decide) | (unfold refOkF; split <;> decide)) ?_
    refine Touches.comp tch_setB (by decide) ?_
    exact Touches.refl _ _
  · refine Touches.comp tch_failQueue (by decide) ?_
    exact h0

theorem tch_sqOff {s a1 a2} : Touches (8) s (@State.sqOff s a1 a2) := by
  unfold State.sqOff
  try dsimp only
  refine Touches.comp tch_setF (by decide) ?_
  refine Touches.comp tch_setB (by decide) ?_
  refine Touches.comp tch_setF (by decide) ?_
  refine Touches.comp tch_setF (by decide) ?_
  exact Touches.refl _ _

theorem tch_dropRings {s a1} : Touches (134217736) s (@State.dropRings s a1) := by
  unfold State.dropRings
  try dsimp only
  refine Touches.upd_hostq (by decide) ?_
  refine Touches.foldl ?_ (fun _ _ h0 => ?_)
  · refine Touches.comp tch_discard (by decide) ?_
    exact Touches.refl _ _
  · refine Touches.comp tch_cqOff (by decide) ?_
    refine Touches.comp tch_sqOff (by decide) ?_
    exact h0

theorem tch_endSession {s a1} : Touches (134414339) s (@State.endSession s a1) := by
  unfold State.endSession
  try dsimp only
  refine Touches.comp tch_post (by decide) ?_
  refine Touches.ite ?_ ?_
  · refine Touches.comp tch_setSession (by decide) ?_
    refine Touches.comp tch_setF (by decide) ?_
    refine Touches.comp tch_setF (by decide) ?_
    refine Touches.comp tch_setF (by decide) ?_
    exact Touches.refl _ _
  · refine Touches.upd_hostq (by decide) ?_
    refine Touches.comp tch_setSession (by decide) ?_
    refine Touches.comp tch_setF (by decide) ?_
    refine Touches.comp tch_setF (by decide) ?_
    refine Touches.comp tch_setF (by decide) ?_
    exact Touches.refl _ _

theorem tch_dropSession {s a1} : Touches (134414339) s (@State.dropSession s a1) := by
  unfold State.dropSession
  try dsimp only
  refine Touches.ite ?_ ?_
  · refine Touches.comp tch_endSession (by decide) ?_
    exact Touches.refl _ _
  · refine Touches.comp tch_setSession (by decide) ?_
    refine Touches.comp tch_setF (by decide) ?_
    exact Touches.refl _ _

theorem tch_droppedLate {s a1 a2} : Touches (1134005650441) s (@State.droppedLate s a1 a2) := by
  unfold State.droppedLate
  try dsimp only
  refine Touches.comp tch_frameOver (by decide) ?_
  refine Touches.comp tch_raise (by decide) ?_
  refine Touches.comp tch_incF (by decide) ?_
  exact Touches.refl _ _

theorem tch_reinitSel {s a1 a2 a3} : Touches (33554432) s (@State.reinitSel s a1 a2 a3) := by
  unfold State.reinitSel
  try dsimp only
  refine Touches.comp tch_modCtx (by decide) ?_
  exact Touches.refl _ _

theorem tch_drvPolicy {s a1 a2 a3} : Touches (33619969) s (@State.drvPolicy s a1 a2 a3) := by
  unfold State.drvPolicy
  try dsimp only
  refine Touches.ite ?_ ?_
  · refine Touches.comp tch_drvEnter (by decide) ?_
    refine Touches.comp tch_reinitSel (by decide) ?_
    exact Touches.refl _ _
  · refine Touches.ite ?_ ?_
    · refine Touches.comp tch_drvEnter (by decide) ?_
      refine Touches.comp tch_reinitSel (by decide) ?_
      exact Touches.refl _ _
    · refine Touches.ite ?_ ?_
      · refine Touches.comp tch_drvEnter (by decide) ?_
        exact Touches.refl _ _
      · refine Touches.comp tch_drvEnter (by decide) ?_
        refine Touches.comp tch_reinitSel (by decide) ?_
        exact Touches.refl _ _

theorem tch_reacquired {s a1} : Touches (33619969) s (@State.reacquired s a1) := by
  unfold State.reacquired
  try dsimp only
  refine Touches.ite ?_ ?_
  · refine Touches.comp tch_drvPolicy (by decide) ?_
    refine Touches.comp tch_post (by decide) ?_
    refine Touches.comp tch_reinitSel (by decide) ?_
    exact Touches.refl _ _
  · refine Touches.comp tch_drvEnter (by decide) ?_
    refine Touches.comp tch_post (by decide) ?_
    refine Touches.comp tch_reinitSel (by decide) ?_
    exact Touches.refl _ _

theorem tch_pulseBegin {s a1 a2} : Touches (33554432) s (@State.pulseBegin s a1 a2) := by
  unfold State.pulseBegin
  try dsimp only
  refine Touches.ite ?_ ?_
  · refine Touches.comp tch_modDrv (by decide) ?_
    exact Touches.refl _ _
  · refine Touches.comp tch_modDrv (by decide) ?_
    exact Touches.refl _ _

theorem tch_estimateShort {s a1 a2} : Touches (33554432) s (@State.estimateShort s a1 a2) := by
  unfold State.estimateShort
  try dsimp only
  refine Touches.comp tch_modDrv (by decide) ?_
  exact Touches.refl _ _

theorem tch_drvAcquire {s a1 a2} : Touches (33619969) s (@State.drvAcquire s a1 a2) := by
  unfold State.drvAcquire
  try dsimp only
  refine Touches.ite ?_ ?_
  · exact Touches.refl _ _
  · refine Touches.ite ?_ ?_
    · refine Touches.doIf ?_ (fun _ h0 => ?_)
      · refine Touches.comp tch_estimateShort (by decide) ?_
        exact Touches.refl _ _
      · refine Touches.comp tch_pulseBegin (by decide) ?_
        exact h0
    · refine Touches.ite ?_ ?_
      · refine Touches.comp tch_modDrv (by decide) ?_
        refine Touches.comp tch_modDrv (by decide) ?_
        exact Touches.refl _ _
      · refine Touches.ite ?_ ?_
        · refine Touches.ite ?_ ?_
          · refine Touches.comp tch_reacquired (by decide) ?_
            refine Touches.comp tch_modDrv (by decide) ?_
            exact Touches.refl _ _
          · refine Touches.comp tch_pulseBegin (by decide) ?_
            refine Touches.comp tch_modDrv (by decide) ?_
            refine Touches.comp tch_modDrv (by decide) ?_
            exact Touches.refl _ _
        · refine Touches.comp tch_modDrv (by decide) ?_
          refine Touches.comp tch_modDrv (by decide) ?_
          exact Touches.refl _ _

theorem tch_drvCoast {s a1 a2} : Touches (33619969) s (@State.drvCoast s a1 a2) := by
  unfold State.drvCoast
  try dsimp only
  refine Touches.ite ?_ ?_
  · refine Touches.ite ?_ ?_
    · refine Touches.comp tch_drvEnter (by decide) ?_
      refine Touches.comp tch_reinitSel (by decide) ?_
      exact Touches.refl _ _
    · exact Touches.refl _ _
  · split
    · refine Touches.ite ?_ ?_
      · refine Touches.ite ?_ ?_
        · refine Touches.comp tch_drvEnter (by decide) ?_
          refine Touches.comp tch_reinitSel (by decide) ?_
          refine Touches.comp tch_modCtx (by decide) ?_
          refine Touches.comp tch_modDrv (by decide) ?_
          exact Touches.refl _ _
        · refine Touches.comp tch_modCtx (by decide) ?_
          refine Touches.comp tch_modDrv (by decide) ?_
          exact Touches.refl _ _
      · refine Touches.ite ?_ ?_
        · refine Touches.ite ?_ ?_
          · refine Touches.comp tch_drvEnter (by decide) ?_
            refine Touches.comp tch_reinitSel (by decide) ?_
            refine Touches.comp tch_modCtx (by decide) ?_
            refine Touches.comp tch_modDrv (by decide) ?_
            exact Touches.refl _ _
          · refine Touches.comp tch_modCtx (by decide) ?_
            refine Touches.comp tch_modDrv (by decide) ?_
            exact Touches.refl _ _
        · refine Touches.comp tch_modCtx (by decide) ?_
          refine Touches.comp tch_modDrv (by decide) ?_
          exact Touches.refl _ _
    · refine Touches.doIf ?_ (fun _ h0 => ?_)
      · refine Touches.comp tch_modDrv (by decide) ?_
        exact Touches.refl _ _
      · refine Touches.comp tch_probeStart (by decide) ?_
        exact h0

theorem tch_drvOffWait {s a1 a2} : Touches (33619969) s (@State.drvOffWait s a1 a2) := by
  unfold State.drvOffWait
  try dsimp only
  refine Touches.doIf ?_ (fun _ h0 => ?_)
  · refine Touches.comp tch_modDrv (by decide) ?_
    exact Touches.refl _ _
  · refine Touches.comp tch_probeStart (by decide) ?_
    exact h0

theorem tch_startFailed {s a1 a2} : Touches (33619969) s (@State.startFailed s a1 a2) := by
  unfold State.startFailed
  try dsimp only
  refine Touches.comp tch_drvEnter (by decide) ?_
  refine Touches.comp tch_post (by decide) ?_
  exact Touches.refl _ _

theorem tch_drvProbeResult {s a1 a2 a3} : Touches (33619969) s (@State.drvProbeResult s a1 a2 a3) := by
  unfold State.drvProbeResult
  try dsimp only
  refine Touches.ite ?_ ?_
  · refine Touches.ite ?_ ?_
    · refine Touches.comp tch_drvEnter (by decide) ?_
      refine Touches.comp tch_post (by decide) ?_
      refine Touches.comp tch_modCtx (by decide) ?_
      exact Touches.refl _ _
    · refine Touches.comp tch_dischJudge (by decide) ?_
      refine Touches.comp tch_modCtx (by decide) ?_
      exact Touches.refl _ _
  · refine Touches.ite ?_ ?_
    · refine Touches.comp tch_modDrv (by decide) ?_
      refine Touches.comp tch_drvEnter (by decide) ?_
      refine Touches.comp tch_modCtx (by decide) ?_
      exact Touches.refl _ _
    · refine Touches.ite ?_ ?_
      · refine Touches.comp tch_startFailed (by decide) ?_
        refine Touches.comp tch_modCtx (by decide) ?_
        exact Touches.refl _ _
      · refine Touches.ite ?_ ?_
        · refine Touches.comp tch_drvPolicy (by decide) ?_
          refine Touches.comp tch_modCtx (by decide) ?_
          exact Touches.refl _ _
        · refine Touches.comp tch_drvPolicy (by decide) ?_
          refine Touches.comp tch_modCtx (by decide) ?_
          exact Touches.refl _ _

theorem tch_rampTlim {s a1 a2} : Touches (33554432) s (@State.rampTlim s a1 a2) := by
  unfold State.rampTlim
  try dsimp only
  refine Touches.comp tch_modDrv (by decide) ?_
  exact Touches.refl _ _

theorem tch_drvRamp {s a1 a2 a3} : Touches (33619969) s (@State.drvRamp s a1 a2 a3) := by
  unfold State.drvRamp
  try dsimp only
  refine Touches.ite ?_ ?_
  · refine Touches.ite ?_ ?_
    · refine Touches.comp tch_angleLost (by decide) ?_
      refine Touches.comp tch_modDrv (by decide) ?_
      exact Touches.refl _ _
    · refine Touches.comp tch_modDrv (by decide) ?_
      refine Touches.comp tch_modDrv (by decide) ?_
      exact Touches.refl _ _
  · refine Touches.doIf ?_ (fun _ h0 => ?_)
    · refine Touches.comp tch_rampTlim (by decide) ?_
      refine Touches.comp tch_modDrv (by decide) ?_
      exact Touches.refl _ _
    · refine Touches.comp tch_drvEnter (by decide) ?_
      exact h0

theorem tch_drvStart {s a1 a2} : Touches (33619969) s (@State.drvStart s a1 a2) := by
  unfold State.drvStart
  try dsimp only
  refine Touches.ite ?_ ?_
  · refine Touches.comp tch_drvPolicy (by decide) ?_
    exact Touches.refl _ _
  · refine Touches.comp tch_drvProbe (by decide) ?_
    exact Touches.refl _ _

theorem tch_drvStop {s a1 a2 a3} : Touches (33619969) s (@State.drvStop s a1 a2 a3) := by
  unfold State.drvStop
  try dsimp only
  refine Touches.ite ?_ ?_
  · refine Touches.doIf ?_ (fun _ h0 => ?_)
    · refine Touches.comp tch_drvEnter (by decide) ?_
      refine Touches.comp tch_rampTlim (by decide) ?_
      exact Touches.refl _ _
    · refine Touches.comp tch_dischBegin (by decide) ?_
      exact h0
  · refine Touches.comp tch_rampTlim (by decide) ?_
    exact Touches.refl _ _

theorem tch_drvStates {s a1 a2 a3 a4} : Touches (33619969) s (@State.drvStates s a1 a2 a3 a4) := by
  unfold State.drvStates
  try dsimp only
  refine Touches.ite ?_ ?_
  · refine Touches.ite ?_ ?_
    · refine Touches.comp tch_drvStart (by decide) ?_
      refine Touches.comp tch_modDrv (by decide) ?_
      exact Touches.refl _ _
    · refine Touches.ite ?_ ?_
      · refine Touches.comp tch_dischBegin (by decide) ?_
        refine Touches.comp tch_modDrv (by decide) ?_
        exact Touches.refl _ _
      · refine Touches.comp tch_modDrv (by decide) ?_
        exact Touches.refl _ _
  · refine Touches.ite ?_ ?_
    · refine Touches.ite ?_ ?_
      · refine Touches.comp tch_drvOffWait (by decide) ?_
        refine Touches.comp tch_modDrv (by decide) ?_
        exact Touches.refl _ _
      · split
        · refine Touches.comp tch_drvProbeResult (by decide) ?_
          refine Touches.comp tch_modDrv (by decide) ?_
          exact Touches.refl _ _
        · refine Touches.comp tch_modDrv (by decide) ?_
          exact Touches.refl _ _
    · refine Touches.ite ?_ ?_
      · refine Touches.comp tch_drvCoast (by decide) ?_
        refine Touches.comp tch_modDrv (by decide) ?_
        exact Touches.refl _ _
      · refine Touches.ite ?_ ?_
        · refine Touches.comp tch_drvAcquire (by decide) ?_
          refine Touches.comp tch_modDrv (by decide) ?_
          exact Touches.refl _ _
        · refine Touches.ite ?_ ?_
          · refine Touches.doIf ?_ (fun _ h0 => ?_)
            · refine Touches.doIf ?_ (fun _ h0 => ?_)
              · refine Touches.comp tch_modDrv (by decide) ?_
                exact Touches.refl _ _
              · refine Touches.comp tch_estimateShort (by decide) ?_
                exact h0
            · refine Touches.comp tch_drvEnter (by decide) ?_
              exact h0
          · refine Touches.ite ?_ ?_
            · refine Touches.comp tch_drvRamp (by decide) ?_
              refine Touches.comp tch_modDrv (by decide) ?_
              exact Touches.refl _ _
            · refine Touches.ite ?_ ?_
              · refine Touches.ite ?_ ?_
                · refine Touches.comp tch_angleLost (by decide) ?_
                  refine Touches.comp tch_modDrv (by decide) ?_
                  exact Touches.refl _ _
                · refine Touches.ite ?_ ?_
                  · refine Touches.comp tch_drvEnter (by decide) ?_
                    refine Touches.comp tch_modDrv (by decide) ?_
                    refine Touches.comp tch_modDrv (by decide) ?_
                    exact Touches.refl _ _
                  · refine Touches.comp tch_modDrv (by decide) ?_
                    exact Touches.refl _ _
              · refine Touches.ite ?_ ?_
                · refine Touches.ite ?_ ?_
                  · refine Touches.comp tch_angleLost (by decide) ?_
                    refine Touches.comp tch_modDrv (by decide) ?_
                    exact Touches.refl _ _
                  · refine Touches.ite ?_ ?_
                    · refine Touches.comp tch_drvEnter (by decide) ?_
                      refine Touches.comp tch_modDrv (by decide) ?_
                      refine Touches.comp tch_reinitSel (by decide) ?_
                      refine Touches.comp tch_modDrv (by decide) ?_
                      exact Touches.refl _ _
                    · refine Touches.comp tch_modDrv (by decide) ?_
                      exact Touches.refl _ _
                · refine Touches.ite ?_ ?_
                  · refine Touches.ite ?_ ?_
                    · refine Touches.comp tch_angleLost (by decide) ?_
                      refine Touches.comp tch_modDrv (by decide) ?_
                      exact Touches.refl _ _
                    · refine Touches.comp tch_drvStop (by decide) ?_
                      refine Touches.comp tch_modDrv (by decide) ?_
                      exact Touches.refl _ _
                  · refine Touches.ite ?_ ?_
                    · refine Touches.ite ?_ ?_
                      · refine Touches.comp tch_drvStart (by decide) ?_
                        refine Touches.comp tch_modDrv (by decide) ?_
                        exact Touches.refl _ _
                      · refine Touches.ite ?_ ?_
                        · refine Touches.comp tch_drvEnter (by decide) ?_
                          refine Touches.comp tch_post (by decide) ?_
                          refine Touches.comp tch_modDrv (by decide) ?_
                          exact Touches.refl _ _
                        · refine Touches.comp tch_modDrv (by decide) ?_
                          exact Touches.refl _ _
                    · refine Touches.comp tch_modDrv (by decide) ?_
                      exact Touches.refl _ _

theorem tch_dueFault {s a1} : Touches (1136186695753) s (@State.dueFault s a1) := by
  unfold State.dueFault
  try dsimp only
  refine Touches.doIf ?_ (fun _ h0 => ?_)
  · exact Touches.refl _ _
  · refine Touches.comp tch_ctxFault (by decide) ?_
    exact h0

theorem tch_dutyCode {s a1} : Touches (1683692831153) s (@State.dutyCode s a1) := by
  unfold State.dutyCode
  try dsimp only
  refine Touches.ite ?_ ?_
  · refine Touches.comp tch_cmdCode (by decide) ?_
    exact Touches.refl _ _
  · refine Touches.comp tch_raise (by decide) ?_
    exact Touches.refl _ _

theorem tch_encCompare {s a1 a2 a3} : Touches (33619969) s (@State.encCompare s a1 a2 a3) := by
  unfold State.encCompare
  try dsimp only
  split
  · refine Touches.ite ?_ ?_
    · refine Touches.doIf ?_ (fun _ h0 => ?_)
      · refine Touches.comp tch_modCtx (by decide) ?_
        exact Touches.refl _ _
      · refine Touches.comp tch_post (by decide) ?_
        exact h0
    · refine Touches.comp tch_modCtx (by decide) ?_
      exact Touches.refl _ _
  · exact Touches.refl _ _

theorem tch_enterRelock {s a1} : Touches (1073745920) s (@State.enterRelock s a1) := by
  unfold State.enterRelock
  try dsimp only
  refine Touches.comp tch_setPll (by decide) ?_
  refine Touches.comp tch_setF (by decide) ?_
  exact Touches.refl _ _

theorem tch_takeSlot {s a1 a2} : Touches (1073745920) s (@State.takeSlot s a1 a2) := by
  unfold State.takeSlot
  try dsimp only
  refine Touches.comp tch_loadDiv (by decide) ?_
  refine Touches.doIf ?_ (fun _ h0 => ?_)
  · refine Touches.comp tch_setF (by decide) ?_
    refine Touches.comp tch_setPll (by decide) ?_
    exact Touches.refl _ _
  · refine Touches.comp tch_setF (by decide) ?_
    exact h0

theorem tch_endHop {s a1 a2} : Touches (1073811457) s (@State.endHop s a1 a2) := by
  unfold State.endHop
  try dsimp only
  refine Touches.doIf ?_ (fun _ h0 => ?_)
  · refine Touches.comp tch_post (by decide) ?_
    refine Touches.comp tch_incF (by decide) ?_
    refine Touches.comp tch_takeSlot (by decide) ?_
    exact Touches.refl _ _
  · refine Touches.comp tch_enterRelock (by decide) ?_
    exact h0

theorem tch_enqueue {s a1 a2} : Touches (1134274085897) s (@State.enqueue s a1 a2) := by
  unfold State.enqueue
  try dsimp only
  split
  · refine Touches.comp tch_frameOver (by decide) ?_
    exact Touches.refl _ _
  · refine Touches.ite ?_ ?_
    · refine Touches.ite ?_ ?_
      · refine Touches.comp tch_droppedLate (by decide) ?_
        exact Touches.refl _ _
      · refine Touches.comp tch_setLq (by decide) ?_
        exact Touches.refl _ _
    · refine Touches.comp tch_setLq (by decide) ?_
      exact Touches.refl _ _

theorem tch_estimate {s a1 a2} : Touches (67108864) s (@State.estimate s a1 a2) := by
  unfold State.estimate
  try dsimp only
  refine Touches.comp tch_setAxHalf (by decide) ?_
  exact Touches.refl _ _

theorem tch_postHandover {s a1 a2 a3 a4} : Touches (65537) s (@State.postHandover s a1 a2 a3 a4) := by
  unfold State.postHandover
  try dsimp only
  refine Touches.comp tch_post (by decide) ?_
  exact Touches.refl _ _

theorem tch_evalChange {s a1 a2 a3 a4} : Touches (1136186695753) s (@State.evalChange s a1 a2 a3 a4) := by
  unfold State.evalChange
  try dsimp only
  refine Touches.doIf ?_ (fun _ h0 => ?_)
  · refine Touches.doIf ?_ (fun _ h0 => ?_)
    · exact Touches.refl _ _
    · refine Touches.comp tch_postHandover (by decide) ?_
      exact h0
  · refine Touches.comp tch_disturbMig (by decide) ?_
    exact h0

theorem tch_sendVector {s a1 a2 a3 a4} : Touches (1133871431681) s (@State.sendVector s a1 a2 a3 a4) := by
  unfold State.sendVector
  try dsimp only
  refine Touches.foldl ?_ (fun _ _ h0 => ?_)
  · exact Touches.refl _ _
  · refine Touches.comp tch_transmit (by decide) ?_
    exact h0

theorem tch_migSnap {s a1} : Touches (1133904986113) s (@State.migSnap s a1) := by
  unfold State.migSnap
  try dsimp only
  split
  · refine Touches.ite ?_ ?_
    · refine Touches.upd_loop (by decide) ?_
      refine Touches.comp tch_sendVector (by decide) ?_
      exact Touches.refl _ _
    · exact Touches.refl _ _
  · exact Touches.refl _ _

theorem tch_evalEnd {s a1} : Touches (1136186695753) s (@State.evalEnd s a1) := by
  unfold State.evalEnd
  try dsimp only
  refine Touches.comp tch_migSnap (by decide) ?_
  refine Touches.comp tch_dueFault (by decide) ?_
  refine Touches.comp tch_freeKernels (by decide) ?_
  refine Touches.comp tch_modCtx (by decide) ?_
  exact Touches.refl _ _

theorem tch_feAct {s a1 a2} : Touches (1136186695753) s (@State.feAct s a1 a2).1 := by
  unfold State.feAct
  try dsimp only
  split
  · try dsimp only
    refine Touches.comp tch_setCtxState (by decide) ?_
    refine Touches.comp tch_modCtx (by decide) ?_
    exact Touches.refl _ _
  · try dsimp only
    split
    · try dsimp only
      refine Touches.comp tch_modCtx (by decide) ?_
      exact Touches.refl _ _
    · try dsimp only
      split
      · try dsimp only
        refine Touches.comp tch_ctxFault (by decide) ?_
        exact Touches.refl _ _
      · try dsimp only
        exact Touches.refl _ _

theorem tch_feHit {s a1 a2 a3 a4} : Touches (1136186695753 ||| 2 ^ a3.blk.num) s (@State.feHit s a1 a2 a3 a4).1 := by
  unfold State.feHit
  try dsimp only
  split
  · try dsimp only
    refine Touches.comp tch_feAct (by first | decide | exact Nat.zero_and _ | exact Nat.and_self _ | exact maskR _ _ | exact maskL (maskR _ _) | exact maskL (Nat.and_self _) | exact maskL (by decide) | exact maskL (maskL (by decide)) | exact maskOr (maskL (by decide)) (maskR _ _) | exact maskOr (maskL (by decide)) (maskL (maskR _ _)) | exact maskOr (maskL (by decide)) (Nat.and_self _) | exact maskOr (maskL (maskL (by decide))) (maskR _ _) | exact maskOr (maskL (maskL (by decide))) (maskL (maskR _ _)) | exact maskOr (maskL (maskL (by decide))) (Nat.and_self _)) ?_
    refine Touches.comp tch_raise (by first | decide | exact Nat.zero_and _ | exact Nat.and_self _ | exact maskR _ _ | exact maskL (maskR _ _) | exact maskL (Nat.and_self _) | exact maskL (by decide) | exact maskL (maskL (by decide)) | exact maskOr (maskL (by decide)) (maskR _ _) | exact maskOr (maskL (by decide)) (maskL (maskR _ _)) | exact maskOr (maskL (by decide)) (Nat.and_self _) | exact maskOr (maskL (maskL (by decide))) (maskR _ _) | exact maskOr (maskL (maskL (by decide))) (maskL (maskR _ _)) | exact maskOr (maskL (maskL (by decide))) (Nat.and_self _)) ?_
    exact Touches.refl _ _
  · try dsimp only
    exact Touches.refl _ _

theorem tch_feBoth {s a1 a2 a3} : Touches (1136186695753) s (@State.feBoth s a1 a2 a3).1 := by
  unfold State.feBoth
  try dsimp only
  refine Touches.comp tch_feHit (by decide) ?_
  refine Touches.comp tch_feHit (by decide) ?_
  exact Touches.refl _ _

theorem tch_following {s a1} : Touches (1136186695753) s (@State.following s a1).1 := by
  unfold State.following
  try dsimp only
  split
  · try dsimp only
    exact Touches.refl _ _
  · try dsimp only
    refine Touches.comp tch_feBoth (by decide) ?_
    refine Touches.comp tch_modCtx (by decide) ?_
    exact Touches.refl _ _

theorem tch_evalFollow {s a1 a2 a3} : Touches (1136186695753) s (@State.evalFollow s a1 a2 a3).1 := by
  unfold State.evalFollow
  try dsimp only
  refine Touches.comp tch_following (by decide) ?_
  exact Touches.refl _ _

theorem tch_track {s a1 a2} : Touches (68753031168) s (@State.track s a1 a2) := by
  unfold State.track
  try dsimp only
  refine Touches.ite ?_ ?_
  · refine Touches.doIf ?_ (fun _ h0 => ?_)
    · exact Touches.refl _ _
    · refine Touches.comp tch_modCtx (by decide) ?_
      refine Touches.comp tch_actOutputs (by decide) ?_
      exact h0
  · split
    · refine Touches.doIf ?_ (fun _ h0 => ?_)
      · exact Touches.refl _ _
      · refine Touches.comp tch_modCtx (by decide) ?_
        exact h0
    · exact Touches.refl _ _

theorem tch_handOver {s a1 a2 a3} : Touches (1136186695753) s (@State.handOver s a1 a2 a3) := by
  unfold State.handOver
  try dsimp only
  refine Touches.comp tch_disturbMig (by decide) ?_
  refine Touches.comp tch_modCtx (by decide) ?_
  refine Touches.doIf ?_ (fun _ h0 => ?_)
  · refine Touches.comp tch_modCtx (by decide) ?_
    exact Touches.refl _ _
  · refine Touches.comp tch_raise (by decide) ?_
    exact h0

theorem tch_evalHandover {s a1 a2 a3 a4} : Touches (1204906172489) s (@State.evalHandover s a1 a2 a3 a4).1 := by
  unfold State.evalHandover
  try dsimp only
  split
  · try dsimp only
    refine Touches.comp tch_handOver (by decide) ?_
    refine Touches.comp tch_actOutputs (by decide) ?_
    refine Touches.comp tch_modCtx (by decide) ?_
    refine Touches.comp tch_setCtxState (by decide) ?_
    exact Touches.refl _ _
  · try dsimp only
    split
    · try dsimp only
      refine Touches.comp tch_handOver (by decide) ?_
      exact Touches.refl _ _
    · try dsimp only
      refine Touches.comp tch_track (by decide) ?_
      exact Touches.refl _ _

theorem tch_sendLife {s a1 a2 a3} : Touches (1133879820289) s (@State.sendLife s a1 a2 a3) := by
  unfold State.sendLife
  try dsimp only
  refine Touches.foldl ?_ (fun _ _ h0 => ?_)
  · refine Touches.comp tch_sendVector (by decide) ?_
    exact Touches.refl _ _
  · refine Touches.comp tch_setChan (by decide) ?_
    exact h0

theorem tch_lifeRecordOf {s a1 a2} : Touches (1133913374721) s (@State.lifeRecordOf s a1 a2) := by
  unfold State.lifeRecordOf
  try dsimp only
  refine Touches.ite ?_ ?_
  · exact Touches.refl _ _
  · refine Touches.ite ?_ ?_
    · refine Touches.comp tch_modCtx (by decide) ?_
      exact Touches.refl _ _
    · refine Touches.comp tch_modCtx (by decide) ?_
      refine Touches.foldl ?_ (fun _ _ h0 => ?_)
      · refine Touches.comp tch_modCtx (by decide) ?_
        exact Touches.refl _ _
      · refine Touches.comp tch_sendLife (by decide) ?_
        exact h0

theorem tch_sendWords {s a1 a2 a3 a4} : Touches (1133871431681) s (@State.sendWords s a1 a2 a3 a4) := by
  unfold State.sendWords
  try dsimp only
  refine Touches.foldl ?_ (fun _ _ h0 => ?_)
  · exact Touches.refl _ _
  · refine Touches.comp tch_sendCtx (by decide) ?_
    exact h0

theorem tch_sendPeers {s a1 a2 a3} : Touches (1133871431681) s (@State.sendPeers s a1 a2 a3).1 := by
  unfold State.sendPeers
  try dsimp only
  refine Touches.foldlP ?_ (fun _ _ h0 => ?_)
  · split
    · split
      · try dsimp only
        exact Touches.refl _ _
      · try dsimp only
        refine Touches.comp tch_sendWords (by decide) ?_
        exact Touches.refl _ _
    · exact Touches.refl _ _
  · split
    · try dsimp only
      exact h0
    · try dsimp only
      refine Touches.comp tch_sendWords (by decide) ?_
      exact h0

theorem tch_sendCmpwAt {s a1 a2 a3 a4 a5} : Touches (1133913309184) s (@State.sendCmpwAt s a1 a2 a3 a4 a5) := by
  unfold State.sendCmpwAt
  try dsimp only
  refine Touches.comp tch_send (by decide) ?_
  refine Touches.comp tch_modCtx (by decide) ?_
  refine Touches.doIf ?_ (fun _ h0 => ?_)
  · exact Touches.refl _ _
  · refine Touches.foldl ?_ (fun _ _ h1 => ?_)
    · exact h0
    · split
      · refine Touches.comp tch_setChan (by decide) ?_
        exact h1
      · exact h1

theorem tch_sendProbePulse {s a1 a2 a3} : Touches (1133913309184) s (@State.sendProbePulse s a1 a2 a3) := by
  unfold State.sendProbePulse
  try dsimp only
  refine Touches.comp tch_sendCmpwAt (by decide) ?_
  refine Touches.comp tch_sendCmpwAt (by decide) ?_
  exact Touches.refl _ _

theorem tch_sendProbe {s a1} : Touches (1133913309184) s (@State.sendProbe s a1) := by
  unfold State.sendProbe
  try dsimp only
  split
  · refine Touches.doIf ?_ (fun _ h0 => ?_)
    · exact Touches.refl _ _
    · refine Touches.foldl ?_ (fun _ _ h1 => ?_)
      · exact h0
      · refine Touches.comp tch_sendProbePulse (by decide) ?_
        exact h1
  · exact Touches.refl _ _

theorem tch_sendCmpw {s a1 a2 a3 a4} : Touches (1133913309184) s (@State.sendCmpw s a1 a2 a3 a4) := by
  unfold State.sendCmpw
  try dsimp only
  refine Touches.comp tch_sendCmpwAt (by decide) ?_
  exact Touches.refl _ _

theorem tch_sendCompares {s a1 a2 a3 a4} : Touches (1133913309184) s (@State.sendCompares s a1 a2 a3 a4).1 := by
  unfold State.sendCompares
  try dsimp only
  refine Touches.foldlP ?_ (fun _ _ h0 => ?_)
  · refine Touches.doIf ?_ (fun _ h0 => ?_)
    · exact Touches.refl _ _
    · refine Touches.foldl ?_ (fun _ _ h1 => ?_)
      · exact h0
      · refine Touches.comp tch_sendCmpw (by decide) ?_
        exact h1
  · split
    · try dsimp only
      split
      · refine Touches.doIf ?_ (fun _ h1 => ?_)
        · exact h0
        · refine Touches.comp tch_sendCmpw (by decide) ?_
          exact h1
      · exact h0
    · try dsimp only
      exact h0

theorem tch_evalSend {s a1 a2 a3 a4} : Touches (1136195084361) s (@State.evalSend s a1 a2 a3 a4) := by
  unfold State.evalSend
  try dsimp only
  refine Touches.ite ?_ ?_
  · refine Touches.doIf ?_ (fun _ h0 => ?_)
    · split
      · try dsimp only
        refine Touches.comp tch_sendPeers (by decide) ?_
        refine Touches.doIf ?_ (fun _ h0 => ?_)
        · refine Touches.comp tch_sendCompares (by decide) ?_
          refine Touches.doIf ?_ (fun _ h0 => ?_)
          · exact Touches.refl _ _
          · refine Touches.comp tch_modCtx (by decide) ?_
            exact h0
        · refine Touches.comp tch_sendProbe (by decide) ?_
          exact h0
      · try dsimp only
        refine Touches.doIf ?_ (fun _ h0 => ?_)
        · refine Touches.comp tch_sendCompares (by decide) ?_
          refine Touches.doIf ?_ (fun _ h0 => ?_)
          · exact Touches.refl _ _
          · refine Touches.comp tch_modCtx (by decide) ?_
            exact h0
        · refine Touches.comp tch_sendProbe (by decide) ?_
          exact h0
    · refine Touches.comp tch_modCtx (by decide) ?_
      exact h0
  · refine Touches.comp tch_ctxFault (by decide) ?_
    refine Touches.doIf ?_ (fun _ h0 => ?_)
    · split
      · try dsimp only
        refine Touches.comp tch_sendPeers (by decide) ?_
        refine Touches.doIf ?_ (fun _ h0 => ?_)
        · refine Touches.comp tch_sendCompares (by decide) ?_
          refine Touches.doIf ?_ (fun _ h0 => ?_)
          · exact Touches.refl _ _
          · refine Touches.comp tch_modCtx (by decide) ?_
            exact h0
        · refine Touches.comp tch_sendProbe (by decide) ?_
          exact h0
      · try dsimp only
        refine Touches.doIf ?_ (fun _ h0 => ?_)
        · refine Touches.comp tch_sendCompares (by decide) ?_
          refine Touches.doIf ?_ (fun _ h0 => ?_)
          · exact Touches.refl _ _
          · refine Touches.comp tch_modCtx (by decide) ?_
            exact h0
        · refine Touches.comp tch_sendProbe (by decide) ?_
          exact h0
    · refine Touches.comp tch_modCtx (by decide) ?_
      exact h0

theorem tch_sendGroup {s a1 a2} : Touches (1133871431681) s (@State.sendGroup s a1 a2) := by
  unfold State.sendGroup
  try dsimp only
  refine Touches.foldl ?_ (fun _ _ h0 => ?_)
  · exact Touches.refl _ _
  · split
    · exact h0
    · refine Touches.doIf ?_ (fun _ h1 => ?_)
      · exact h0
      · refine Touches.foldl ?_ (fun _ _ h2 => ?_)
        · exact h1
        · refine Touches.comp tch_transmit (by decide) ?_
          exact h2

theorem tch_evalOut {s a1 a2 a3 a4} : Touches (1136195084361) s (@State.evalOut s a1 a2 a3 a4) := by
  unfold State.evalOut
  try dsimp only
  refine Touches.doIf ?_ (fun _ h0 => ?_)
  · refine Touches.doIf ?_ (fun _ h0 => ?_)
    · refine Touches.doIf ?_ (fun _ h0 => ?_)
      · refine Touches.comp tch_sendGroup (by decide) ?_
        exact Touches.refl _ _
      · refine Touches.comp tch_evalSend (by decide) ?_
        exact h0
    · refine Touches.comp tch_lifeRecordOf (by decide) ?_
      exact h0
  · refine Touches.comp tch_ctxFault (by decide) ?_
    exact h0

theorem tch_evalOutputs {s a1 a2} : Touches (33554496) s (@State.evalOutputs s a1 a2).1 := by
  unfold State.evalOutputs
  try dsimp only
  refine Touches.comp tch_setF (by decide) ?_
  refine Touches.comp tch_setCtx (by decide) ?_
  refine Touches.comp tch_modCtx (by decide) ?_
  exact Touches.refl _ _

theorem tch_mainSettled {s a1} : Touches (33619969) s (@State.mainSettled s a1) := by
  unfold State.mainSettled
  try dsimp only
  refine Touches.ite ?_ ?_
  · refine Touches.comp tch_dcEnter (by decide) ?_
    refine Touches.comp tch_modDc (by decide) ?_
    exact Touches.refl _ _
  · refine Touches.comp tch_dcFail (by decide) ?_
    exact Touches.refl _ _

theorem tch_runDcdc {s a1 a2} : Touches (1133904986113) s (@State.runDcdc s a1 a2) := by
  unfold State.runDcdc
  try dsimp only
  refine Touches.ite ?_ ?_
  · exact Touches.refl _ _
  · refine Touches.ite ?_ ?_
    · refine Touches.doIf ?_ (fun _ h0 => ?_)
      · refine Touches.doIf ?_ (fun _ h0 => ?_)
        · refine Touches.comp tch_modDc (by decide) ?_
          exact Touches.refl _ _
        · refine Touches.comp tch_bmsStale (by decide) ?_
          exact h0
      · refine Touches.comp tch_dcStart (by decide) ?_
        exact h0
    · refine Touches.ite ?_ ?_
      · refine Touches.ite ?_ ?_
        · refine Touches.comp tch_sendToken (by decide) ?_
          refine Touches.comp tch_dcOff (by decide) ?_
          refine Touches.doIf ?_ (fun _ h0 => ?_)
          · refine Touches.comp tch_modDc (by decide) ?_
            exact Touches.refl _ _
          · refine Touches.comp tch_bmsStale (by decide) ?_
            exact h0
        · refine Touches.doIf ?_ (fun _ h0 => ?_)
          · refine Touches.doIf ?_ (fun _ h0 => ?_)
            · refine Touches.comp tch_modDc (by decide) ?_
              exact Touches.refl _ _
            · refine Touches.comp tch_bmsStale (by decide) ?_
              exact h0
          · refine Touches.comp tch_dcToken (by decide) ?_
            exact h0
      · refine Touches.ite ?_ ?_
        · refine Touches.ite ?_ ?_
          · refine Touches.comp tch_dcOff (by decide) ?_
            refine Touches.doIf ?_ (fun _ h0 => ?_)
            · refine Touches.comp tch_modDc (by decide) ?_
              exact Touches.refl _ _
            · refine Touches.comp tch_bmsStale (by decide) ?_
              exact h0
          · refine Touches.comp tch_dcCharge (by decide) ?_
            refine Touches.doIf ?_ (fun _ h0 => ?_)
            · refine Touches.comp tch_modDc (by decide) ?_
              exact Touches.refl _ _
            · refine Touches.comp tch_bmsStale (by decide) ?_
              exact h0
        · refine Touches.ite ?_ ?_
          · refine Touches.ite ?_ ?_
            · refine Touches.comp tch_dcOff (by decide) ?_
              refine Touches.doIf ?_ (fun _ h0 => ?_)
              · refine Touches.comp tch_modDc (by decide) ?_
                exact Touches.refl _ _
              · refine Touches.comp tch_bmsStale (by decide) ?_
                exact h0
            · refine Touches.doIf ?_ (fun _ h0 => ?_)
              · refine Touches.comp tch_modDc (by decide) ?_
                refine Touches.doIf ?_ (fun _ h0 => ?_)
                · refine Touches.comp tch_modDc (by decide) ?_
                  exact Touches.refl _ _
                · refine Touches.comp tch_bmsStale (by decide) ?_
                  exact h0
              · refine Touches.comp tch_mainSettled (by decide) ?_
                exact h0
          · refine Touches.ite ?_ ?_
            · refine Touches.doIf ?_ (fun _ h0 => ?_)
              · refine Touches.doIf ?_ (fun _ h0 => ?_)
                · refine Touches.comp tch_modDc (by decide) ?_
                  exact Touches.refl _ _
                · refine Touches.comp tch_bmsStale (by decide) ?_
                  exact h0
              · refine Touches.comp tch_dcOff (by decide) ?_
                exact h0
            · refine Touches.ite ?_ ?_
              · refine Touches.comp tch_dcOff (by decide) ?_
                refine Touches.doIf ?_ (fun _ h0 => ?_)
                · refine Touches.comp tch_modDc (by decide) ?_
                  exact Touches.refl _ _
                · refine Touches.comp tch_bmsStale (by decide) ?_
                  exact h0
              · refine Touches.doIf ?_ (fun _ h0 => ?_)
                · refine Touches.comp tch_dcRefs (by decide) ?_
                  refine Touches.comp tch_dcLimits (by decide) ?_
                  refine Touches.comp tch_dcBalance (by decide) ?_
                  refine Touches.ite ?_ ?_
                  · refine Touches.comp tch_dcEnter (by decide) ?_
                    refine Touches.doIf ?_ (fun _ h0 => ?_)
                    · refine Touches.comp tch_modDc (by decide) ?_
                      exact Touches.refl _ _
                    · refine Touches.comp tch_bmsStale (by decide) ?_
                      exact h0
                  · refine Touches.doIf ?_ (fun _ h0 => ?_)
                    · refine Touches.comp tch_modDc (by decide) ?_
                      exact Touches.refl _ _
                    · refine Touches.comp tch_bmsStale (by decide) ?_
                      exact h0
                · refine Touches.comp tch_modDc (by decide) ?_
                  exact h0

theorem tch_runLink {s a1 a2} : Touches (33619969) s (@State.runLink s a1 a2) := by
  unfold State.runLink
  try dsimp only
  refine Touches.ite ?_ ?_
  · exact Touches.refl _ _
  · refine Touches.doIf ?_ (fun _ h0 => ?_)
    · refine Touches.doIf ?_ (fun _ h0 => ?_)
      · refine Touches.comp tch_modCtx (by decide) ?_
        exact Touches.refl _ _
      · refine Touches.comp tch_post (by decide) ?_
        exact h0
    · refine Touches.comp tch_modCtx (by decide) ?_
      exact h0

theorem tch_fieldWeaken {s a1} : Touches (33554432) s (@State.fieldWeaken s a1) := by
  unfold State.fieldWeaken
  try dsimp only
  refine Touches.comp tch_modDrv (by decide) ?_
  exact Touches.refl _ _

theorem tch_runDrive {s a1 a2 a3 a4} : Touches (68753096705) s (@State.runDrive s a1 a2 a3 a4).1 := by
  unfold State.runDrive
  try dsimp only
  split
  · try dsimp only
    exact Touches.refl _ _
  · try dsimp only
    refine Touches.doIf ?_ (fun _ h0 => ?_)
    · refine Touches.doIf ?_ (fun _ h0 => ?_)
      · refine Touches.comp tch_driveStage (by decide) ?_
        refine Touches.comp tch_fieldWeaken (by decide) ?_
        refine Touches.comp tch_modDrv (by decide) ?_
        refine Touches.comp tch_drvStates (by decide) ?_
        exact Touches.refl _ _
      · refine Touches.comp tch_postLimited (by decide) ?_
        exact h0
    · refine Touches.comp tch_postLimited (by decide) ?_
      exact h0

theorem tch_gridRefs {s a1 a2} : Touches (33619969) s (@State.gridRefs s a1 a2) := by
  unfold State.gridRefs
  try dsimp only
  split
  · refine Touches.comp tch_modGrid (by decide) ?_
    exact Touches.refl _ _
  · refine Touches.ite ?_ ?_
    · refine Touches.doIf ?_ (fun _ h0 => ?_)
      · refine Touches.comp tch_modGrid (by decide) ?_
        exact Touches.refl _ _
      · refine Touches.comp tch_postLimited (by decide) ?_
        exact h0
    · refine Touches.comp tch_modGrid (by decide) ?_
      exact Touches.refl _ _

end Sys2Proof.Machine
end

