-- ==== Sys2Proof/Laws/Frame3.lean ====
section
/-! SUPPORT. What each operation of the model touches (generated by rule; part 3). -/
set_option Elab.async false

namespace Sys2Proof.Machine

theorem tch_gridVariant {s a1 a2} : Touches (33620033) s (@State.gridVariant s a1 a2).1 := by
  unfold State.gridVariant
  try dsimp only
  split
  · refine Touches.comp tch_post (by decide) ?_
    refine Touches.comp tch_setVariant (by decide) ?_
    exact Touches.refl _ _
  · exact Touches.refl _ _

theorem tch_gridAuto {s a1 a2} : Touches (33554432) s (@State.gridAuto s a1 a2).1 := by
  unfold State.gridAuto
  try dsimp only
  split
  · try dsimp only
    exact Touches.refl _ _
  · try dsimp only
    split
    · try dsimp only
      refine Touches.comp tch_modGrid (by decide) ?_
      exact Touches.refl _ _
    · try dsimp only
      refine Touches.comp tch_modGrid (by decide) ?_
      exact Touches.refl _ _

theorem tch_gridMeasure {s a1 a2} : Touches (33554432) s (@State.gridMeasure s a1 a2) := by
  unfold State.gridMeasure
  try dsimp only
  refine Touches.comp tch_modGrid (by decide) ?_
  exact Touches.refl _ _

theorem tch_gridPll {s a1} : Touches (68753031168) s (@State.gridPll s a1) := by
  unfold State.gridPll
  try dsimp only
  refine Touches.ite ?_ ?_
  · refine Touches.comp tch_modGrid (by decide) ?_
    refine Touches.comp tch_modGrid (by decide) ?_
    refine Touches.comp tch_draw (by decide) ?_
    exact Touches.refl _ _
  · refine Touches.comp tch_modGrid (by decide) ?_
    refine Touches.comp tch_modGrid (by decide) ?_
    refine Touches.comp tch_draw (by decide) ?_
    exact Touches.refl _ _

theorem tch_gridForm {s a1} : Touches (33554432) s (@State.gridForm s a1) := by
  unfold State.gridForm
  try dsimp only
  refine Touches.ite ?_ ?_
  · refine Touches.comp tch_modGrid (by decide) ?_
    exact Touches.refl _ _
  · refine Touches.comp tch_modGrid (by decide) ?_
    exact Touches.refl _ _

theorem tch_gridRampDown {s a1} : Touches (33619969) s (@State.gridRampDown s a1) := by
  unfold State.gridRampDown
  try dsimp only
  refine Touches.doIf ?_ (fun _ h0 => ?_)
  · refine Touches.comp tch_modGrid (by decide) ?_
    exact Touches.refl _ _
  · refine Touches.comp tch_gridEnter (by decide) ?_
    exact h0

theorem tch_resyncTimeout {s a1} : Touches (33619969) s (@State.resyncTimeout s a1) := by
  unfold State.resyncTimeout
  try dsimp only
  refine Touches.comp tch_gridEnter (by decide) ?_
  refine Touches.comp tch_post (by decide) ?_
  exact Touches.refl _ _

theorem tch_gridByBand {s a1} : Touches (33619969) s (@State.gridByBand s a1) := by
  unfold State.gridByBand
  try dsimp only
  refine Touches.comp tch_gridEnter (by decide) ?_
  exact Touches.refl _ _

theorem tch_gridReturn {s a1} : Touches (33619969) s (@State.gridReturn s a1) := by
  unfold State.gridReturn
  try dsimp only
  refine Touches.ite ?_ ?_
  · refine Touches.comp tch_gridByBand (by decide) ?_
    refine Touches.comp tch_post (by decide) ?_
    exact Touches.refl _ _
  · refine Touches.ite ?_ ?_
    · refine Touches.comp tch_gridByBand (by decide) ?_
      refine Touches.comp tch_modGrid (by decide) ?_
      refine Touches.comp tch_post (by decide) ?_
      exact Touches.refl _ _
    · refine Touches.comp tch_gridEnter (by decide) ?_
      refine Touches.comp tch_modGrid (by decide) ?_
      refine Touches.comp tch_post (by decide) ?_
      exact Touches.refl _ _

theorem tch_gridRampUp {s a1} : Touches (33619969) s (@State.gridRampUp s a1) := by
  unfold State.gridRampUp
  try dsimp only
  refine Touches.doIf ?_ (fun _ h0 => ?_)
  · refine Touches.comp tch_modGrid (by decide) ?_
    exact Touches.refl _ _
  · refine Touches.comp tch_gridByBand (by decide) ?_
    exact h0

theorem tch_gridMove {s a1 a2} : Touches (33619969) s (@State.gridMove s a1 a2) := by
  unfold State.gridMove
  try dsimp only
  refine Touches.ite ?_ ?_
  · refine Touches.doIf ?_ (fun _ h0 => ?_)
    · exact Touches.refl _ _
    · refine Touches.comp tch_gridEnter (by decide) ?_
      refine Touches.comp tch_modGrid (by decide) ?_
      exact h0
  · refine Touches.ite ?_ ?_
    · refine Touches.doIf ?_ (fun _ h0 => ?_)
      · refine Touches.comp tch_modGrid (by decide) ?_
        exact Touches.refl _ _
      · refine Touches.comp tch_gridEnter (by decide) ?_
        refine Touches.comp tch_modGrid (by decide) ?_
        exact h0
    · refine Touches.ite ?_ ?_
      · refine Touches.ite ?_ ?_
        · refine Touches.comp tch_gridEnter (by decide) ?_
          exact Touches.refl _ _
        · refine Touches.comp tch_gridRampUp (by decide) ?_
          exact Touches.refl _ _
      · refine Touches.ite ?_ ?_
        · refine Touches.doIf ?_ (fun _ h0 => ?_)
          · exact Touches.refl _ _
          · refine Touches.comp tch_gridEnter (by decide) ?_
            exact h0
        · refine Touches.ite ?_ ?_
          · refine Touches.ite ?_ ?_
            · refine Touches.comp tch_gridEnter (by decide) ?_
              exact Touches.refl _ _
            · refine Touches.doIf ?_ (fun _ h0 => ?_)
              · exact Touches.refl _ _
              · refine Touches.comp tch_gridEnter (by decide) ?_
                exact h0
          · refine Touches.ite ?_ ?_
            · refine Touches.doIf ?_ (fun _ h0 => ?_)
              · refine Touches.comp tch_modGrid (by decide) ?_
                exact Touches.refl _ _
              · refine Touches.comp tch_gridReturn (by decide) ?_
                exact h0
            · refine Touches.ite ?_ ?_
              · refine Touches.ite ?_ ?_
                · refine Touches.comp tch_gridEnter (by decide) ?_
                  exact Touches.refl _ _
                · refine Touches.ite ?_ ?_
                  · refine Touches.comp tch_blockEnd (by decide) ?_
                    refine Touches.comp tch_modGrid (by decide) ?_
                    exact Touches.refl _ _
                  · refine Touches.doIf ?_ (fun _ h0 => ?_)
                    · refine Touches.comp tch_modGrid (by decide) ?_
                      exact Touches.refl _ _
                    · refine Touches.comp tch_resyncTimeout (by decide) ?_
                      exact h0
              · refine Touches.ite ?_ ?_
                · refine Touches.comp tch_gridRampDown (by decide) ?_
                  exact Touches.refl _ _
                · exact Touches.refl _ _

theorem tch_gridResonance {s a1} : Touches (33619969) s (@State.gridResonance s a1) := by
  unfold State.gridResonance
  try dsimp only
  refine Touches.ite ?_ ?_
  · refine Touches.doIf ?_ (fun _ h0 => ?_)
    · refine Touches.comp tch_modGrid (by decide) ?_
      exact Touches.refl _ _
    · refine Touches.comp tch_gridEnter (by decide) ?_
      refine Touches.comp tch_post (by decide) ?_
      exact h0
  · refine Touches.comp tch_modGrid (by decide) ?_
    exact Touches.refl _ _

theorem tch_gridTrip {s a1} : Touches (33619969) s (@State.gridTrip s a1) := by
  unfold State.gridTrip
  try dsimp only
  split
  · refine Touches.comp tch_gridEnter (by decide) ?_
    refine Touches.comp tch_post (by decide) ?_
    exact Touches.refl _ _
  · exact Touches.refl _ _

theorem tch_gridRunFall {s a1} : Touches (33619969) s (@State.gridRunFall s a1) := by
  unfold State.gridRunFall
  try dsimp only
  refine Touches.ite ?_ ?_
  · refine Touches.comp tch_gridEnter (by decide) ?_
    refine Touches.comp tch_modGrid (by decide) ?_
    exact Touches.refl _ _
  · refine Touches.ite ?_ ?_
    · refine Touches.comp tch_gridEnter (by decide) ?_
      exact Touches.refl _ _
    · exact Touches.refl _ _

theorem tch_gridTimers {s a1} : Touches (33554432) s (@State.gridTimers s a1) := by
  unfold State.gridTimers
  try dsimp only
  refine Touches.ite ?_ ?_
  · refine Touches.comp tch_modGrid (by decide) ?_
    exact Touches.refl _ _
  · refine Touches.ite ?_ ?_
    · refine Touches.comp tch_modGrid (by decide) ?_
      exact Touches.refl _ _
    · exact Touches.refl _ _

theorem tch_gridStates {s a1} : Touches (33619969) s (@State.gridStates s a1) := by
  unfold State.gridStates
  try dsimp only
  refine Touches.ite ?_ ?_
  · refine Touches.comp tch_gridRunFall (by decide) ?_
    refine Touches.comp tch_modGrid (by decide) ?_
    refine Touches.comp tch_gridTimers (by decide) ?_
    exact Touches.refl _ _
  · refine Touches.ite ?_ ?_
    · refine Touches.comp tch_gridTrip (by decide) ?_
      refine Touches.comp tch_modGrid (by decide) ?_
      refine Touches.comp tch_gridTimers (by decide) ?_
      exact Touches.refl _ _
    · refine Touches.ite ?_ ?_
      · refine Touches.comp tch_gridResonance (by decide) ?_
        refine Touches.comp tch_modGrid (by decide) ?_
        refine Touches.comp tch_gridTimers (by decide) ?_
        exact Touches.refl _ _
      · refine Touches.comp tch_gridMove (by decide) ?_
        refine Touches.comp tch_gridResonance (by decide) ?_
        refine Touches.comp tch_modGrid (by decide) ?_
        refine Touches.comp tch_gridTimers (by decide) ?_
        exact Touches.refl _ _

theorem tch_gridUsed {s a1 a2} : Touches (33554432) s (@State.gridUsed s a1 a2) := by
  unfold State.gridUsed
  try dsimp only
  refine Touches.ite ?_ ?_
  · exact Touches.refl _ _
  · refine Touches.ite ?_ ?_
    · refine Touches.ite ?_ ?_
      · refine Touches.comp tch_modGrid (by decide) ?_
        exact Touches.refl _ _
      · refine Touches.comp tch_modGrid (by decide) ?_
        exact Touches.refl _ _
    · refine Touches.comp tch_modGrid (by decide) ?_
      exact Touches.refl _ _

theorem tch_runGrid {s a1 a2} : Touches (68753096705) s (@State.runGrid s a1 a2).1 := by
  unfold State.runGrid
  try dsimp only
  split
  · try dsimp only
    exact Touches.refl _ _
  · try dsimp only
    refine Touches.comp tch_gridAuto (by decide) ?_
    refine Touches.comp tch_gridUsed (by decide) ?_
    refine Touches.comp tch_gridStates (by decide) ?_
    refine Touches.comp tch_gridForm (by decide) ?_
    refine Touches.comp tch_gridPll (by decide) ?_
    refine Touches.comp tch_gridMeasure (by decide) ?_
    exact Touches.refl _ _

theorem tch_probeJudge {s a1 a2 a3 a4} : Touches (33619969) s (@State.probeJudge s a1 a2 a3 a4) := by
  unfold State.probeJudge
  try dsimp only
  refine Touches.ite ?_ ?_
  · refine Touches.comp tch_probeDone (by decide) ?_
    exact Touches.refl _ _
  · refine Touches.ite ?_ ?_
    · refine Touches.comp tch_probeDone (by decide) ?_
      exact Touches.refl _ _
    · refine Touches.ite ?_ ?_
      · refine Touches.comp tch_modCtx (by decide) ?_
        exact Touches.refl _ _
      · refine Touches.comp tch_probeDone (by decide) ?_
        exact Touches.refl _ _

theorem tch_probeStep {s a1 a2} : Touches (33619969) s (@State.probeStep s a1 a2) := by
  unfold State.probeStep
  try dsimp only
  split
  · exact Touches.refl _ _
  · refine Touches.ite ?_ ?_
    · exact Touches.refl _ _
    · refine Touches.ite ?_ ?_
      · refine Touches.comp tch_probeDone (by decide) ?_
        refine Touches.comp tch_modCtx (by decide) ?_
        exact Touches.refl _ _
      · refine Touches.ite ?_ ?_
        · refine Touches.ite ?_ ?_
          · refine Touches.comp tch_probeJudge (by decide) ?_
            refine Touches.comp tch_modCtx (by decide) ?_
            refine Touches.comp tch_modCtx (by decide) ?_
            exact Touches.refl _ _
          · refine Touches.comp tch_modCtx (by decide) ?_
            refine Touches.comp tch_modCtx (by decide) ?_
            exact Touches.refl _ _
        · refine Touches.comp tch_modCtx (by decide) ?_
          exact Touches.refl _ _

theorem tch_supervise {s a1 a2 a3} : Touches (33619969) s (@State.supervise s a1 a2 a3) := by
  unfold State.supervise
  try dsimp only
  refine Touches.doIf ?_ (fun _ h0 => ?_)
  · refine Touches.comp tch_modCtx (by decide) ?_
    refine Touches.doIf ?_ (fun _ h0 => ?_)
    · refine Touches.comp tch_modCtx (by decide) ?_
      exact Touches.refl _ _
    · refine Touches.comp tch_post (by decide) ?_
      exact h0
  · refine Touches.comp tch_post (by decide) ?_
    exact h0

theorem tch_runSelector {s a1 a2} : Touches (33619969) s (@State.runSelector s a1 a2).1 := by
  unfold State.runSelector
  try dsimp only
  split
  · exact Touches.refl _ _
  · refine Touches.comp tch_probeStep (by decide) ?_
    refine Touches.doIf ?_ (fun _ h0 => ?_)
    · refine Touches.comp tch_modCtx (by decide) ?_
      refine Touches.comp tch_encCompare (by decide) ?_
      refine Touches.comp tch_supervise (by decide) ?_
      exact Touches.refl _ _
    · refine Touches.comp tch_post (by decide) ?_
      exact h0

theorem tch_lawSel {s a1} : Touches (33620033) s (@State.lawSel s a1).1 := by
  unfold State.lawSel
  try dsimp only
  split
  · try dsimp only
    refine Touches.comp tch_setVariant (by decide) ?_
    exact Touches.refl _ _
  · try dsimp only
    split
    · try dsimp only
      refine Touches.comp tch_setVariant (by decide) ?_
      exact Touches.refl _ _
    · try dsimp only
      split
      · try dsimp only
        refine Touches.comp tch_setCtxState (by decide) ?_
        refine Touches.comp tch_setVariant (by decide) ?_
        exact Touches.refl _ _
      · try dsimp only
        refine Touches.comp tch_setVariant (by decide) ?_
        exact Touches.refl _ _

theorem tch_lawSelIf {s a1 a2} : Touches (33620033) s (@State.lawSelIf s a1 a2).1 := by
  unfold State.lawSelIf
  try dsimp only
  split
  · try dsimp only
    refine Touches.comp tch_lawSel (by decide) ?_
    exact Touches.refl _ _
  · try dsimp only
    exact Touches.refl _ _

theorem tch_forwardTxn {s a1} : Touches (1133904986113) s (@State.forwardTxn s a1) := by
  unfold State.forwardTxn
  try dsimp only
  split
  · refine Touches.foldl ?_ (fun _ _ h0 => ?_)
    · refine Touches.comp tch_setCtx (by decide) ?_
      exact Touches.refl _ _
    · refine Touches.comp tch_sendCtx (by decide) ?_
      exact h0
  · exact Touches.refl _ _

theorem tch_evalTxn {s a1} : Touches (1134039203849) s (@State.evalTxn s a1).1 := by
  unfold State.evalTxn
  try dsimp only
  split
  · split
    · try dsimp only
      refine Touches.comp tch_forwardTxn (by decide) ?_
      refine Touches.comp tch_agentReply (by decide) ?_
      refine Touches.comp tch_setCtx (by decide) ?_
      exact Touches.refl _ _
    · try dsimp only
      split
      · try dsimp only
        refine Touches.comp tch_forwardTxn (by decide) ?_
        refine Touches.comp tch_agentReply (by decide) ?_
        refine Touches.doIf ?_ (fun _ h0 => ?_)
        · refine Touches.comp tch_setCtx (by decide) ?_
          exact Touches.refl _ _
        · refine Touches.comp tch_bmsRefresh (by decide) ?_
          exact h0
      · try dsimp only
        exact Touches.refl _ _
  · exact Touches.refl _ _

theorem tch_evalServices {s a1 a2} : Touches (1202758680649) s (@State.evalServices s a1 a2).1 := by
  unfold State.evalServices
  try dsimp only
  refine Touches.comp tch_askedVariant (by decide) ?_
  refine Touches.comp tch_runDrive (by decide) ?_
  refine Touches.comp tch_runLink (by decide) ?_
  refine Touches.comp tch_runDcdc (by decide) ?_
  refine Touches.doIf ?_ (fun _ h0 => ?_)
  · refine Touches.comp tch_gridVariant (by decide) ?_
    refine Touches.comp tch_runGrid (by decide) ?_
    refine Touches.comp tch_runSelector (by decide) ?_
    refine Touches.doIf ?_ (fun _ h0 => ?_)
    · refine Touches.comp tch_lawSelIf (by decide) ?_
      refine Touches.comp tch_modCtx (by decide) ?_
      refine Touches.comp tch_cmdSetpoint (by decide) ?_
      refine Touches.comp tch_evalTxn (by decide) ?_
      exact Touches.refl _ _
    · refine Touches.comp tch_probeStart (by decide) ?_
      exact h0
  · refine Touches.comp tch_gridRefs (by decide) ?_
    exact h0

theorem tch_evalSteps {s a1 a2} : Touches (1204906172489) s (@State.evalSteps s a1 a2).1 := by
  unfold State.evalSteps
  try dsimp only
  refine Touches.comp tch_evalFollow (by decide) ?_
  refine Touches.comp tch_evalOutputs (by decide) ?_
  refine Touches.comp tch_evalHandover (by decide) ?_
  refine Touches.comp tch_evalServices (by decide) ?_
  exact Touches.refl _ _

theorem tch_evaluate {s a1 a2} : Touches (1204914561097) s (@State.evaluate s a1 a2) := by
  unfold State.evaluate
  try dsimp only
  refine Touches.comp tch_evalEnd (by decide) ?_
  refine Touches.comp tch_evalOut (by decide) ?_
  refine Touches.comp tch_evalChange (by decide) ?_
  refine Touches.comp tch_evalSteps (by decide) ?_
  exact Touches.refl _ _

theorem tch_excStart {s} : Touches (34363932672) s (@State.excStart s) := by
  unfold State.excStart
  try dsimp only
  refine Touches.foldl ?_ (fun _ _ h0 => ?_)
  · exact Touches.refl _ _
  · refine Touches.ite ?_ ?_
    · refine Touches.comp tch_pushExc (by decide) ?_
      exact h0
    · exact h0

theorem tch_wrongPassword {s a1} : Touches (67305985) s (@State.wrongPassword s a1) := by
  unfold State.wrongPassword
  try dsimp only
  refine Touches.ite ?_ ?_
  · refine Touches.comp tch_setPwSlot (by decide) ?_
    exact Touches.refl _ _
  · refine Touches.comp tch_post (by decide) ?_
    refine Touches.comp tch_logChange (by decide) ?_
    refine Touches.comp tch_setPwSlot (by decide) ?_
    exact Touches.refl _ _

theorem tch_failSession {s a1} : Touches (67305987) s (@State.failSession s a1) := by
  unfold State.failSession
  try dsimp only
  refine Touches.comp tch_post (by decide) ?_
  refine Touches.ite ?_ ?_
  · refine Touches.comp tch_wrongPassword (by decide) ?_
    refine Touches.comp tch_setSession (by decide) ?_
    refine Touches.comp tch_setF (by decide) ?_
    refine Touches.comp tch_setF (by decide) ?_
    exact Touches.refl _ _
  · refine Touches.ite ?_ ?_
    · refine Touches.comp tch_setSession (by decide) ?_
      refine Touches.comp tch_setF (by decide) ?_
      refine Touches.comp tch_setF (by decide) ?_
      exact Touches.refl _ _
    · refine Touches.comp tch_setSession (by decide) ?_
      refine Touches.comp tch_setF (by decide) ?_
      refine Touches.comp tch_setF (by decide) ?_
      exact Touches.refl _ _

theorem tch_failUpdate {s a1} : Touches (4295032837) s (@State.failUpdate s a1) := by
  unfold State.failUpdate
  try dsimp only
  split
  · refine Touches.ite ?_ ?_
    · refine Touches.upd_cfg (by decide) ?_
      exact Touches.refl _ _
    · refine Touches.comp tch_post (by decide) ?_
      refine Touches.comp tch_setB (by decide) ?_
      refine Touches.comp tch_setF (by decide) ?_
      refine Touches.comp tch_setF (by decide) ?_
      refine Touches.upd_cfg (by decide) ?_
      exact Touches.refl _ _
  · exact Touches.refl _ _

theorem tch_fallbackCheck {s a1} : Touches (33619977) s (@State.fallbackCheck s a1) := by
  unfold State.fallbackCheck
  try dsimp only
  refine Touches.ite ?_ ?_
  · exact Touches.refl _ _
  · refine Touches.ite ?_ ?_
    · refine Touches.comp tch_post (by decide) ?_
      refine Touches.comp tch_setB (by decide) ?_
      refine Touches.foldl ?_ (fun _ _ h0 => ?_)
      · exact Touches.refl _ _
      · refine Touches.doIf ?_ (fun _ h1 => ?_)
        · exact h0
        · refine Touches.comp tch_modCtx (by decide) ?_
          exact h1
    · refine Touches.comp tch_post (by decide) ?_
      refine Touches.comp tch_setB (by decide) ?_
      refine Touches.foldl ?_ (fun _ _ h0 => ?_)
      · exact Touches.refl _ _
      · refine Touches.doIf ?_ (fun _ h1 => ?_)
        · exact h0
        · refine Touches.comp tch_modCtx (by decide) ?_
          exact h1

theorem tch_multiLeg {s a1} : Touches (16843009) s (@State.multiLeg s a1) := by
  unfold State.multiLeg
  try dsimp only
  refine Touches.ite ?_ ?_
  · exact Touches.refl _ _
  · refine Touches.foldl ?_ (fun _ _ h0 => ?_)
    · refine Touches.comp tch_post (by decide) ?_
      refine Touches.comp tch_setBitF (by decide) ?_
      exact Touches.refl _ _
    · refine Touches.ite ?_ ?_
      · refine Touches.foldl ?_ (fun _ _ h1 => ?_)
        · exact h0
        · refine Touches.comp tch_latchDemands (by decide) ?_
          exact h1
      · exact h0

theorem tch_shortReport {s a1 a2 a3} : Touches (16843009) s (@State.shortReport s a1 a2 a3) := by
  unfold State.shortReport
  try dsimp only
  refine Touches.doIf ?_ (fun _ h0 => ?_)
  · refine Touches.upd_trip (by decide) ?_
    refine Touches.comp tch_raiseBit (by decide) ?_
    exact Touches.refl _ _
  · refine Touches.comp tch_multiLeg (by decide) ?_
    exact h0

theorem tch_faultAccepted {s a1 a2 a3} : Touches (16843137) s (@State.faultAccepted s a1 a2 a3) := by
  unfold State.faultAccepted
  try dsimp only
  refine Touches.ite ?_ ?_
  · refine Touches.ite ?_ ?_
    · refine Touches.comp tch_raiseBit (by decide) ?_
      refine Touches.comp tch_setBitF (by decide) ?_
      exact Touches.refl _ _
    · refine Touches.upd_trip (by decide) ?_
      refine Touches.comp tch_post (by decide) ?_
      refine Touches.comp tch_raiseBit (by decide) ?_
      refine Touches.comp tch_setBitF (by decide) ?_
      exact Touches.refl _ _
  · refine Touches.doIf ?_ (fun _ h0 => ?_)
    · refine Touches.comp tch_raiseBit (by decide) ?_
      refine Touches.comp tch_setBitF (by decide) ?_
      exact Touches.refl _ _
    · refine Touches.comp tch_shortReport (by decide) ?_
      exact h0

theorem tch_fetch {s a1 a2 a3 a4 a5} : Touches (134414345) s (@State.fetch s a1 a2 a3 a4 a5) := by
  unfold State.fetch
  try dsimp only
  split
  · refine Touches.comp tch_setDesc (by decide) ?_
    refine Touches.doIf ?_ (fun _ h0 => ?_)
    · refine Touches.comp tch_setF (by decide) ?_
      refine Touches.comp tch_setF (by decide) ?_
      refine Touches.comp tch_setF (by decide) ?_
      refine Touches.upd_hostq (by decide) ?_
      exact Touches.refl _ _
    · refine Touches.comp tch_touch (by decide) ?_
      exact h0
  · refine Touches.comp tch_finish (by decide) ?_
    refine Touches.comp tch_modDesc (by decide) ?_
    refine Touches.doIf ?_ (fun _ h0 => ?_)
    · refine Touches.comp tch_setDesc (by decide) ?_
      refine Touches.doIf ?_ (fun _ h0 => ?_)
      · refine Touches.comp tch_setF (by decide) ?_
        refine Touches.comp tch_setF (by decide) ?_
        refine Touches.comp tch_setF (by decide) ?_
        refine Touches.upd_hostq (by decide) ?_
        exact Touches.refl _ _
      · refine Touches.comp tch_touch (by decide) ?_
        exact h0
    · refine Touches.comp tch_postLimited (by decide) ?_
      exact h0

theorem tch_fire {s a1 a2} : Touches (134217728) s (@State.fire s a1 a2) := by
  unfold State.fire
  try dsimp only
  refine Touches.comp tch_setDesc (by decide) ?_
  refine Touches.comp tch_setDesc (by decide) ?_
  exact Touches.refl _ _

theorem tch_forceTarget {s a1} : Touches (1683686539713) s (@State.forceTarget s a1) := by
  unfold State.forceTarget
  try dsimp only
  refine Touches.ite ?_ ?_
  · refine Touches.comp tch_setCarrier (by decide) ?_
    exact Touches.refl _ _
  · refine Touches.comp tch_valuesEffective (by decide) ?_
    split
    · refine Touches.comp tch_raise (by decide) ?_
      refine Touches.foldl ?_ (fun _ _ h0 => ?_)
      · refine Touches.comp tch_setCarrier (by decide) ?_
        exact Touches.refl _ _
      · refine Touches.comp tch_setChan (by decide) ?_
        exact h0
    · refine Touches.foldl ?_ (fun _ _ h0 => ?_)
      · refine Touches.comp tch_setCarrier (by decide) ?_
        exact Touches.refl _ _
      · refine Touches.comp tch_setChan (by decide) ?_
        exact h0

theorem tch_forcedDone {s a1 a2} : Touches (2198932593) s (@State.forcedDone s a1 a2) := by
  unfold State.forcedDone
  try dsimp only
  refine Touches.comp tch_post (by decide) ?_
  refine Touches.comp tch_setB (by decide) ?_
  refine Touches.comp tch_setB (by decide) ?_
  refine Touches.comp tch_modCtx (by decide) ?_
  refine Touches.comp tch_setCtxFault (by decide) ?_
  refine Touches.doIf ?_ (fun _ h0 => ?_)
  · refine Touches.upd_rel (by decide) ?_
    exact Touches.refl _ _
  · refine Touches.comp tch_takeKernels (by decide) ?_
    refine Touches.comp tch_copyMem (by decide) ?_
    exact h0

theorem tch_foresee {s a1 a2} : Touches (601303908481) s (@State.foresee s a1 a2) := by
  unfold State.foresee
  try dsimp only
  refine Touches.comp tch_advance (by decide) ?_
  split
  · refine Touches.ite ?_ ?_
    · refine Touches.comp tch_turnCarrier (by decide) ?_
      split
      · refine Touches.ite ?_ ?_
        · refine Touches.comp tch_turnCarrier (by decide) ?_
          refine Touches.upd_now (by decide) ?_
          exact Touches.refl _ _
        · refine Touches.upd_now (by decide) ?_
          exact Touches.refl _ _
      · refine Touches.upd_now (by decide) ?_
        exact Touches.refl _ _
    · split
      · refine Touches.ite ?_ ?_
        · refine Touches.comp tch_turnCarrier (by decide) ?_
          refine Touches.upd_now (by decide) ?_
          exact Touches.refl _ _
        · refine Touches.upd_now (by decide) ?_
          exact Touches.refl _ _
      · refine Touches.upd_now (by decide) ?_
        exact Touches.refl _ _
  · split
    · refine Touches.ite ?_ ?_
      · refine Touches.comp tch_turnCarrier (by decide) ?_
        refine Touches.upd_now (by decide) ?_
        exact Touches.refl _ _
      · refine Touches.upd_now (by decide) ?_
        exact Touches.refl _ _
    · refine Touches.upd_now (by decide) ?_
      exact Touches.refl _ _

theorem tch_forward {s a1 a2} : Touches (1133871366144) s (@State.forward s a1 a2) := by
  unfold State.forward
  try dsimp only
  split
  · refine Touches.upd_mesh (by decide) ?_
    refine Touches.comp tch_emit (by decide) ?_
    exact Touches.refl _ _
  · refine Touches.comp tch_emit (by decide) ?_
    exact Touches.refl _ _

theorem tch_judge {s a1 a2 a3 a4} : Touches (67174401) s (@State.judge s a1 a2 a3 a4) := by
  unfold State.judge
  try dsimp only
  refine Touches.doIf ?_ (fun _ h0 => ?_)
  · refine Touches.comp tch_setAxHalf (by decide) ?_
    exact Touches.refl _ _
  · refine Touches.comp tch_violate (by decide) ?_
    exact h0

theorem tch_functions {s a1 a2} : Touches (67174401) s (@State.functions s a1 a2) := by
  unfold State.functions
  try dsimp only
  refine Touches.comp tch_judge (by decide) ?_
  refine Touches.comp tch_judge (by decide) ?_
  refine Touches.comp tch_judge (by decide) ?_
  refine Touches.comp tch_judge (by decide) ?_
  refine Touches.comp tch_judge (by decide) ?_
  refine Touches.comp tch_judge (by decide) ?_
  exact Touches.refl _ _

theorem tch_gateCode {s} : Touches (68719476736) s (@State.gateCode s).1 := by
  unfold State.gateCode
  try dsimp only
  split
  · split
    · try dsimp only
      exact Touches.refl _ _
    · try dsimp only
      split
      · try dsimp only
        refine Touches.comp tch_draw (by decide) ?_
        exact Touches.refl _ _
      · try dsimp only
        exact Touches.refl _ _
  · exact Touches.refl _ _

theorem tch_give {s a1} : Touches (196611) s (@State.give s a1) := by
  unfold State.give
  try dsimp only
  refine Touches.comp tch_post (by decide) ?_
  refine Touches.upd_husk (by decide) ?_
  refine Touches.comp tch_setB (by decide) ?_
  exact Touches.refl _ _

theorem tch_hallPast {s a1} : Touches (4194304) s (@State.hallPast s a1) := by
  unfold State.hallPast
  try dsimp only
  refine Touches.ite ?_ ?_
  · refine Touches.comp tch_setPi (by decide) ?_
    exact Touches.refl _ _
  · exact Touches.refl _ _

theorem tch_hallChange {s a1 a2 a3} : Touches (34389197217) s (@State.hallChange s a1 a2 a3) := by
  unfold State.hallChange
  try dsimp only
  refine Touches.comp tch_settle (by decide) ?_
  refine Touches.doIf ?_ (fun _ h0 => ?_)
  · refine Touches.doIf ?_ (fun _ h0 => ?_)
    · refine Touches.comp tch_setPi (by decide) ?_
      refine Touches.comp tch_hallPast (by decide) ?_
      exact Touches.refl _ _
    · refine Touches.comp tch_cond (by decide) ?_
      exact h0
  · refine Touches.comp tch_cond (by decide) ?_
    exact h0

theorem tch_hallAt {s a1 a2 a3 a4} : Touches (34389197217) s (@State.hallAt s a1 a2 a3 a4) := by
  unfold State.hallAt
  try dsimp only
  split
  · exact Touches.refl _ _
  · refine Touches.doIf ?_ (fun _ h0 => ?_)
    · exact Touches.refl _ _
    · refine Touches.comp tch_hallChange (by decide) ?_
      exact h0

theorem tch_hallLevels {s a1 a2 a3} : Touches (34389197217) s (@State.hallLevels s a1 a2 a3) := by
  unfold State.hallLevels
  try dsimp only
  refine Touches.ite ?_ ?_
  · refine Touches.doIf ?_ (fun _ h0 => ?_)
    · exact Touches.refl _ _
    · refine Touches.comp tch_hallChange (by decide) ?_
      exact h0
  · refine Touches.foldl ?_ (fun _ _ h0 => ?_)
    · exact Touches.refl _ _
    · refine Touches.comp tch_hallAt (by decide) ?_
      exact h0

theorem tch_heartbeat {s a1} : Touches (34552775049) s (@State.heartbeat s a1) := by
  unfold State.heartbeat
  try dsimp only
  refine Touches.ite ?_ ?_
  · refine Touches.comp tch_fallbackCheck (by decide) ?_
    refine Touches.comp tch_settle (by decide) ?_
    refine Touches.comp tch_post (by decide) ?_
    refine Touches.comp tch_setB (by first | decide | (split <;> decide) | exact blkOk _ (by decide) | (unfold lostF; split <;> decide) | (unfold refOkF; split <;> decide)) ?_
    refine Touches.upd_hostq (by decide) ?_
    exact Touches.refl _ _
  · refine Touches.upd_hostq (by decide) ?_
    exact Touches.refl _ _

theorem tch_indexLatch {s a1} : Touches (34389197217) s (@State.indexLatch s a1) := by
  unfold State.indexLatch
  try dsimp only
  refine Touches.doIf ?_ (fun _ h0 => ?_)
  · refine Touches.comp tch_setPi (by decide) ?_
    exact Touches.refl _ _
  · refine Touches.comp tch_lossCause (by decide) ?_
    refine Touches.comp tch_cond (by decide) ?_
    exact h0

theorem tch_initSlots {s} : Touches (1073811457) s (@State.initSlots s) := by
  unfold State.initSlots
  try dsimp only
  refine Touches.foldl ?_ (fun _ _ h0 => ?_)
  · exact Touches.refl _ _
  · refine Touches.ite ?_ ?_
    · refine Touches.comp tch_takeSlot (by decide) ?_
      exact h0
    · refine Touches.comp tch_endHop (by decide) ?_
      exact h0

theorem tch_injTrigger {s a1} : Touches (68721639441) s (@State.injTrigger s a1) := by
  unfold State.injTrigger
  try dsimp only
  refine Touches.ite ?_ ?_
  · refine Touches.comp tch_setB (by decide) ?_
    refine Touches.comp tch_raiseBit (by decide) ?_
    refine Touches.comp tch_setUnit (by decide) ?_
    exact Touches.refl _ _
  · refine Touches.ite ?_ ?_
    · refine Touches.comp tch_startEntry (by decide) ?_
      refine Touches.comp tch_setUnit (by decide) ?_
      exact Touches.refl _ _
    · refine Touches.ite ?_ ?_
      · refine Touches.comp tch_setUnit (by decide) ?_
        refine Touches.comp tch_setUnit (by decide) ?_
        exact Touches.refl _ _
      · refine Touches.comp tch_setUnit (by decide) ?_
        exact Touches.refl _ _

theorem tch_landInputs {s a1 a2} : Touches (33554432) s (@State.landInputs s a1 a2) := by
  unfold State.landInputs
  try dsimp only
  refine Touches.comp tch_setCtx (by decide) ?_
  exact Touches.refl _ _

theorem tch_landSnap {s a1 a2} : Touches (33554432) s (@State.landSnap s a1 a2) := by
  unfold State.landSnap
  try dsimp only
  split
  · refine Touches.ite ?_ ?_
    · refine Touches.upd_loop (by decide) ?_
      exact Touches.refl _ _
    · exact Touches.refl _ _
  · exact Touches.refl _ _

theorem tch_landParam {s a1 a2} : Touches (33554432) s (@State.landParam s a1 a2) := by
  unfold State.landParam
  try dsimp only
  refine Touches.comp tch_modCtx (by decide) ?_
  exact Touches.refl _ _

theorem tch_landAct {s a1 a2} : Touches (1136186695753) s (@State.landAct s a1 a2) := by
  unfold State.landAct
  try dsimp only
  refine Touches.ite ?_ ?_
  · refine Touches.comp tch_disturbMig (by decide) ?_
    refine Touches.comp tch_postHandover (by decide) ?_
    refine Touches.comp tch_setCtxState (by decide) ?_
    refine Touches.comp tch_modCtx (by decide) ?_
    refine Touches.comp tch_modCtx (by decide) ?_
    exact Touches.refl _ _
  · refine Touches.comp tch_modCtx (by decide) ?_
    exact Touches.refl _ _

theorem tch_inputArrival {s a1 a2} : Touches (1136186695753) s (@State.inputArrival s a1 a2) := by
  unfold State.inputArrival
  try dsimp only
  refine Touches.doIf ?_ (fun _ h0 => ?_)
  · split
    · refine Touches.ite ?_ ?_
      · exact Touches.refl _ _
      · refine Touches.ite ?_ ?_
        · refine Touches.comp tch_landAct (by decide) ?_
          exact Touches.refl _ _
        · refine Touches.ite ?_ ?_
          · refine Touches.comp tch_landParam (by decide) ?_
            exact Touches.refl _ _
          · refine Touches.ite ?_ ?_
            · refine Touches.comp tch_landSnap (by decide) ?_
              exact Touches.refl _ _
            · refine Touches.comp tch_landInputs (by decide) ?_
              exact Touches.refl _ _
    · refine Touches.comp tch_landInputs (by decide) ?_
      exact Touches.refl _ _
  · refine Touches.comp tch_wakeEval (by decide) ?_
    exact h0

theorem tch_installSak {s a1 a2} : Touches (268436480) s (@State.installSak s a1 a2) := by
  unfold State.installSak
  try dsimp only
  refine Touches.comp tch_setB (by decide) ?_
  refine Touches.upd_net (by decide) ?_
  refine Touches.comp tch_setPort (by decide) ?_
  exact Touches.refl _ _

theorem tch_keepAnnounce {s a1 a2} : Touches (268435456) s (@State.keepAnnounce s a1 a2) := by
  unfold State.keepAnnounce
  try dsimp only
  refine Touches.comp tch_setPort (by decide) ?_
  exact Touches.refl _ _

theorem tch_showPods {s} : Touches (8192) s (@State.showPods s) := by
  unfold State.showPods
  try dsimp only
  refine Touches.comp tch_setF (by decide) ?_
  refine Touches.comp tch_setF (by decide) ?_
  refine Touches.foldl ?_ (fun _ _ h0 => ?_)
  · exact Touches.refl _ _
  · refine Touches.comp tch_setF (by decide) ?_
    refine Touches.comp tch_setF (by decide) ?_
    refine Touches.comp tch_setB (by decide) ?_
    exact h0

theorem tch_takeSpare {s a1} : Touches (2147549185) s (@State.takeSpare s a1).1 := by
  unfold State.takeSpare
  try dsimp only
  split
  · refine Touches.comp tch_post (by decide) ?_
    refine Touches.comp tch_setBacking (by decide) ?_
    exact Touches.refl _ _
  · split
    · refine Touches.comp tch_setBacking (by decide) ?_
      exact Touches.refl _ _
    · refine Touches.comp tch_setBacking (by decide) ?_
      exact Touches.refl _ _

theorem tch_loseOther {s a1} : Touches (2198932529) s (@State.loseOther s a1) := by
  unfold State.loseOther
  try dsimp only
  split
  · refine Touches.ite ?_ ?_
    · refine Touches.compEq tch_takeSpare (by assumption) (by decide) ?_
      exact Touches.refl _ _
    · refine Touches.comp tch_moveMem (by decide) ?_
      refine Touches.comp tch_moveNames (by decide) ?_
      refine Touches.comp tch_setRole (by decide) ?_
      refine Touches.comp tch_setRole (by decide) ?_
      refine Touches.compEq tch_takeSpare (by assumption) (by decide) ?_
      exact Touches.refl _ _
  · refine Touches.comp tch_post (by decide) ?_
    refine Touches.compEq tch_takeSpare (by assumption) (by decide) ?_
    exact Touches.refl _ _

theorem tch_loseLoop {s a1} : Touches (1136187744329) s (@State.loseLoop s a1) := by
  unfold State.loseLoop
  try dsimp only
  split
  · refine Touches.upd_rel (by decide) ?_
    refine Touches.comp tch_setRole (by decide) ?_
    refine Touches.compEq tch_takeSpare (by assumption) (by decide) ?_
    refine Touches.foldl ?_ (fun _ _ h0 => ?_)
    · exact Touches.refl _ _
    · refine Touches.comp tch_ctxFault (by decide) ?_
      exact h0
  · refine Touches.comp tch_post (by decide) ?_
    refine Touches.compEq tch_takeSpare (by assumption) (by decide) ?_
    refine Touches.foldl ?_ (fun _ _ h0 => ?_)
    · exact Touches.refl _ _
    · refine Touches.comp tch_ctxFault (by decide) ?_
      exact h0

theorem tch_loseIdle {s a1} : Touches (1136186695753) s (@State.loseIdle s a1) := by
  unfold State.loseIdle
  try dsimp only
  split
  · refine Touches.comp tch_post (by decide) ?_
    refine Touches.comp tch_setBacking (by decide) ?_
    split
    · refine Touches.doIf ?_ (fun _ h0 => ?_)
      · exact Touches.refl _ _
      · refine Touches.comp tch_abortMig (by decide) ?_
        exact h0
    · exact Touches.refl _ _
  · refine Touches.comp tch_setBacking (by decide) ?_
    split
    · refine Touches.doIf ?_ (fun _ h0 => ?_)
      · exact Touches.refl _ _
      · refine Touches.comp tch_abortMig (by decide) ?_
        exact h0
    · exact Touches.refl _ _

theorem tch_retire {s a1} : Touches (1136204524665) s (@State.retire s a1) := by
  unfold State.retire
  try dsimp only
  refine Touches.ite ?_ ?_
  · exact Touches.refl _ _
  · refine Touches.comp tch_showPods (by decide) ?_
    split
    · refine Touches.comp tch_setGone (by decide) ?_
      exact Touches.refl _ _
    · refine Touches.ite ?_ ?_
      · refine Touches.comp tch_loseIdle (by decide) ?_
        refine Touches.comp tch_setGone (by decide) ?_
        exact Touches.refl _ _
      · refine Touches.ite ?_ ?_
        · refine Touches.comp tch_loseLoop (by decide) ?_
          refine Touches.comp tch_setGone (by decide) ?_
          exact Touches.refl _ _
        · refine Touches.ite ?_ ?_
          · refine Touches.comp tch_setGone (by decide) ?_
            exact Touches.refl _ _
          · refine Touches.comp tch_loseOther (by decide) ?_
            refine Touches.comp tch_setGone (by decide) ?_
            exact Touches.refl _ _

theorem tch_relPairOver {s a1} : Touches (2147491840) s (@State.relPairOver s a1) := by
  unfold State.relPairOver
  try dsimp only
  refine Touches.doIf ?_ (fun _ h0 => ?_)
  · exact Touches.refl _ _
  · refine Touches.comp tch_endTest (by decide) ?_
    exact h0

theorem tch_pairFault {s a1 a2} : Touches (36599604097) s (@State.pairFault s a1 a2) := by
  unfold State.pairFault
  try dsimp only
  refine Touches.comp tch_relPairOver (by decide) ?_
  refine Touches.comp tch_halfFault (by decide) ?_
  refine Touches.comp tch_setF (by decide) ?_
  exact Touches.refl _ _

theorem tch_uncorrectable {s a1 a2 a3 a4} : Touches (8192) s (@State.uncorrectable s a1 a2 a3 a4) := by
  unfold State.uncorrectable
  try dsimp only
  refine Touches.comp tch_lastErr (by decide) ?_
  refine Touches.comp tch_setB (by decide) ?_
  refine Touches.comp tch_incF (by decide) ?_
  exact Touches.refl _ _

theorem tch_kernelWord {s a1 a2 a3} : Touches (1136280055801) s (@State.kernelWord s a1 a2 a3) := by
  unfold State.kernelWord
  try dsimp only
  split
  · refine Touches.doIf ?_ (fun _ h0 => ?_)
    · refine Touches.comp tch_post (by decide) ?_
      refine Touches.comp tch_uncorrectable (by decide) ?_
      exact Touches.refl _ _
    · refine Touches.comp tch_pairFault (by decide) ?_
      refine Touches.comp tch_post (by decide) ?_
      exact h0
  · refine Touches.ite ?_ ?_
    · refine Touches.comp tch_post (by decide) ?_
      refine Touches.comp tch_uncorrectable (by decide) ?_
      exact Touches.refl _ _
    · refine Touches.upd_rel (by decide) ?_
      refine Touches.comp tch_retire (by decide) ?_
      refine Touches.comp tch_post (by decide) ?_
      refine Touches.comp tch_uncorrectable (by decide) ?_
      exact Touches.refl _ _

theorem tch_readZero {s a1 a2 a3} : Touches (34359738368) s (@State.readZero s a1 a2 a3) := by
  unfold State.readZero
  try dsimp only
  refine Touches.doIf ?_ (fun _ h0 => ?_)
  · exact Touches.refl _ _
  · refine Touches.comp tch_emit (by decide) ?_
    exact h0

theorem tch_latchRead {s a1 a2 a3 a4} : Touches (34359934979 ||| 2 ^ a2.blk.num ||| 2 ^ a3.blk.num) s (@State.latchRead s a1 a2 a3 a4) := by
  unfold State.latchRead
  try dsimp only
  refine Touches.ite ?_ ?_
  · refine Touches.comp tch_emit (by first | decide | exact Nat.zero_and _ | exact Nat.and_self _ | exact maskR _ _ | exact maskL (maskR _ _) | exact maskL (Nat.and_self _) | exact maskL (by decide) | exact maskL (maskL (by decide)) | exact maskOr (maskL (by decide)) (maskR _ _) | exact maskOr (maskL (by decide)) (maskL (maskR _ _)) | exact maskOr (maskL (by decide)) (Nat.and_self _) | exact maskOr (maskL (maskL (by decide))) (maskR _ _) | exact maskOr (maskL (maskL (by decide))) (maskL (maskR _ _)) | exact maskOr (maskL (maskL (by decide))) (Nat.and_self _)) ?_
    refine Touches.comp tch_setF (by first | decide | exact Nat.zero_and _ | exact Nat.and_self _ | exact maskR _ _ | exact maskL (maskR _ _) | exact maskL (Nat.and_self _) | exact maskL (by decide) | exact maskL (maskL (by decide)) | exact maskOr (maskL (by decide)) (maskR _ _) | exact maskOr (maskL (by decide)) (maskL (maskR _ _)) | exact maskOr (maskL (by decide)) (Nat.and_self _) | exact maskOr (maskL (maskL (by decide))) (maskR _ _) | exact maskOr (maskL (maskL (by decide))) (maskL (maskR _ _)) | exact maskOr (maskL (maskL (by decide))) (Nat.and_self _)) ?_
    refine Touches.comp tch_setF (by first | decide | exact Nat.zero_and _ | exact Nat.and_self _ | exact maskR _ _ | exact maskL (maskR _ _) | exact maskL (Nat.and_self _) | exact maskL (by decide) | exact maskL (maskL (by decide)) | exact maskOr (maskL (by decide)) (maskR _ _) | exact maskOr (maskL (by decide)) (maskL (maskR _ _)) | exact maskOr (maskL (by decide)) (Nat.and_self _) | exact maskOr (maskL (maskL (by decide))) (maskR _ _) | exact maskOr (maskL (maskL (by decide))) (maskL (maskR _ _)) | exact maskOr (maskL (maskL (by decide))) (Nat.and_self _)) ?_
    refine Touches.comp tch_touch (by first | decide | exact Nat.zero_and _ | exact Nat.and_self _ | exact maskR _ _ | exact maskL (maskR _ _) | exact maskL (Nat.and_self _) | exact maskL (by decide) | exact maskL (maskL (by decide)) | exact maskOr (maskL (by decide)) (maskR _ _) | exact maskOr (maskL (by decide)) (maskL (maskR _ _)) | exact maskOr (maskL (by decide)) (Nat.and_self _) | exact maskOr (maskL (maskL (by decide))) (maskR _ _) | exact maskOr (maskL (maskL (by decide))) (maskL (maskR _ _)) | exact maskOr (maskL (maskL (by decide))) (Nat.and_self _)) ?_
    exact Touches.refl _ _
  · refine Touches.comp tch_readZero (by first | decide | exact Nat.zero_and _ | exact Nat.and_self _ | exact maskR _ _ | exact maskL (maskR _ _) | exact maskL (Nat.and_self _) | exact maskL (by decide) | exact maskL (maskL (by decide)) | exact maskOr (maskL (by decide)) (maskR _ _) | exact maskOr (maskL (by decide)) (maskL (maskR _ _)) | exact maskOr (maskL (by decide)) (Nat.and_self _) | exact maskOr (maskL (maskL (by decide))) (maskR _ _) | exact maskOr (maskL (maskL (by decide))) (maskL (maskR _ _)) | exact maskOr (maskL (maskL (by decide))) (Nat.and_self _)) ?_
    refine Touches.comp tch_barRead (by first | decide | exact Nat.zero_and _ | exact Nat.and_self _ | exact maskR _ _ | exact maskL (maskR _ _) | exact maskL (Nat.and_self _) | exact maskL (by decide) | exact maskL (maskL (by decide)) | exact maskOr (maskL (by decide)) (maskR _ _) | exact maskOr (maskL (by decide)) (maskL (maskR _ _)) | exact maskOr (maskL (by decide)) (Nat.and_self _) | exact maskOr (maskL (maskL (by decide))) (maskR _ _) | exact maskOr (maskL (maskL (by decide))) (maskL (maskR _ _)) | exact maskOr (maskL (maskL (by decide))) (Nat.and_self _)) ?_
    exact Touches.refl _ _

theorem tch_setLifePos {s a1 a2} : Touches (16777216) s (@State.setLifePos s a1 a2) := by
  unfold State.setLifePos
  try dsimp only
  refine Touches.upd_trip (by decide) ?_
  exact Touches.refl _ _

theorem tch_lifeWarn {s a1} : Touches (16842753) s (@State.lifeWarn s a1) := by
  unfold State.lifeWarn
  try dsimp only
  refine Touches.comp tch_setLifePos (by decide) ?_
  refine Touches.doIf ?_ (fun _ h0 => ?_)
  · refine Touches.doIf ?_ (fun _ h0 => ?_)
    · refine Touches.doIf ?_ (fun _ h0 => ?_)
      · exact Touches.refl _ _
      · refine Touches.comp tch_post (by decide) ?_
        exact h0
    · refine Touches.comp tch_post (by decide) ?_
      exact h0
  · refine Touches.comp tch_post (by decide) ?_
    exact h0

theorem tch_lifePosStep {s a1 a2 a3} : Touches (16842753) s (@State.lifePosStep s a1 a2 a3) := by
  unfold State.lifePosStep
  try dsimp only
  split
  · exact Touches.refl _ _
  · refine Touches.comp tch_lifeWarn (by decide) ?_
    refine Touches.comp tch_setLifePos (by decide) ?_
    exact Touches.refl _ _

theorem tch_lifeSend {s a1} : Touches (1133871431681) s (@State.lifeSend s a1) := by
  unfold State.lifeSend
  try dsimp only
  split
  · refine Touches.comp tch_sendCtx (by decide) ?_
    exact Touches.refl _ _
  · exact Touches.refl _ _

theorem tch_setLifeRec {s a1 a2} : Touches (16777216) s (@State.setLifeRec s a1 a2) := by
  unfold State.setLifeRec
  try dsimp only
  refine Touches.upd_trip (by decide) ?_
  exact Touches.refl _ _

theorem tch_lifeTarget {s a1 a2} : Touches (16842753) s (@State.lifeTarget s a1 a2) := by
  unfold State.lifeTarget
  try dsimp only
  refine Touches.ite ?_ ?_
  · exact Touches.refl _ _
  · refine Touches.doIf ?_ (fun _ h0 => ?_)
    · refine Touches.foldl ?_ (fun _ _ h0 => ?_)
      · refine Touches.comp tch_setLifeRec (by decide) ?_
        exact Touches.refl _ _
      · refine Touches.comp tch_lifePosStep (by decide) ?_
        exact h0
    · refine Touches.foldl ?_ (fun _ _ h1 => ?_)
      · refine Touches.comp tch_post (by decide) ?_
        exact h0
      · refine Touches.doIf ?_ (fun _ h2 => ?_)
        · exact h1
        · refine Touches.comp tch_setLifePos (by decide) ?_
          exact h2

theorem tch_wireFaulty {s a1 a2} : Touches (2147557377) s (@State.wireFaulty s a1 a2) := by
  unfold State.wireFaulty
  try dsimp only
  refine Touches.ite ?_ ?_
  · refine Touches.comp tch_post (by decide) ?_
    refine Touches.comp tch_setB (by decide) ?_
    refine Touches.comp tch_mapWire (by decide) ?_
    refine Touches.upd_rel (by decide) ?_
    exact Touches.refl _ _
  · refine Touches.ite ?_ ?_
    · refine Touches.upd_rel (by decide) ?_
      exact Touches.refl _ _
    · refine Touches.ite ?_ ?_
      · refine Touches.comp tch_setF (by decide) ?_
        refine Touches.upd_rel (by decide) ?_
        refine Touches.upd_rel (by decide) ?_
        exact Touches.refl _ _
      · refine Touches.doIf ?_ (fun _ h0 => ?_)
        · refine Touches.comp tch_setF (by decide) ?_
          refine Touches.upd_rel (by decide) ?_
          refine Touches.upd_rel (by decide) ?_
          exact Touches.refl _ _
        · refine Touches.comp tch_post (by decide) ?_
          exact h0

theorem tch_linkCorrect {s a1 a2} : Touches (2147557377) s (@State.linkCorrect s a1 a2) := by
  unfold State.linkCorrect
  try dsimp only
  refine Touches.foldl ?_ (fun _ _ h0 => ?_)
  · refine Touches.comp tch_incF (by decide) ?_
    refine Touches.comp tch_corrected (by decide) ?_
    exact Touches.refl _ _
  · refine Touches.doIf ?_ (fun _ h1 => ?_)
    · refine Touches.upd_rel (by decide) ?_
      exact h0
    · refine Touches.comp tch_wireFaulty (by decide) ?_
      exact h1

theorem tch_loadContexts {s a1 a2} : ∀ t, @State.loadContexts s a1 a2 = .ok t → Touches (33554432) s t := by
  induction a1 generalizing s a2 with
  | nil => intro t h; cases h; exact Touches.refl _ _
  | cons d ds ih =>
    intro t h
    unfold State.loadContexts at h
    split at h
    · exact Touches.comp (ih t h) (by decide) (tch_modCtx.mono (by decide))
    · cases h

theorem tch_putBlock {s a1} : Touches (1048576) s (@State.putBlock s a1) := by
  unfold State.putBlock
  try dsimp only
  refine Touches.upd_sea (fun h => ⟨h.1, h.2.1, kwf_foldl _ (fun _ _ hm => kwf_foldl _ (fun _ _ hm => kwf_kset _ _ hm) _ hm) _ h.2.2⟩) (by decide) ?_
  exact Touches.refl _ _

theorem tch_loadPrograms {s a1 a2} : ∀ t, @State.loadPrograms s a1 a2 = .ok t → Touches (1048576) s t := by
  induction a1 generalizing s a2 with
  | nil => intro t h; cases h; exact Touches.refl _ _
  | cons d ds ih =>
    intro t h
    unfold State.loadPrograms at h
    split at h
    · exact Touches.comp (ih t h) (by decide) (tch_putBlock.mono (by decide))
    · cases h

theorem tch_putRecord {s a1} : Touches (4295032831) s (@State.putRecord s a1) := by
  unfold State.putRecord
  try dsimp only
  split
  · exact Touches.refl _ _
  · refine Touches.upd_cfg (by decide) ?_
    refine Touches.comp tch_setWord (by first | decide | (split <;> decide) | exact blkOk _ (by decide) | (unfold lostF; split <;> decide) | (unfold refOkF; split <;> decide)) ?_
    exact Touches.refl _ _

theorem tch_loadRecords_p {a0 a1 a2 a3 s} : ∀ t, @State.loadRecords' a0 a1 a2 a3 s = .ok t → Touches (4295032831) s t := by
  induction a2 generalizing s a3 with
  | nil => intro t h; cases h; exact Touches.refl _ _
  | cons d ds ih =>
    intro t h
    unfold State.loadRecords' at h
    split at h
    · exact Touches.comp (ih t h) (by decide) (tch_putRecord.mono (by decide))
    · cases h

theorem tch_loadRoleMap {s a1 a2 a3 a4 a5 a6 a7} : ∀ t, @State.loadRoleMap s a1 a2 a3 a4 a5 a6 a7 = .ok t → Touches (4296081407) s t := by
  intro t h
  unfold State.loadRoleMap at h
  split at h
  · cases h
  · split at h
    · cases h
    · split at h
      · cases h
      · split at h
        · cases h
        · refine Touches.comp (tch_loadRecords_p t h) (by decide) ?_
          refine Touches.upd_sea (fun h => h) (by decide) ?_
          refine Touches.foldl ?_ (fun _ _ h0 => Touches.doIf h0 fun _ h1 => Touches.comp tch_setB (by decide) h1)
          refine Touches.foldl ?_ (fun _ _ h0 => Touches.doIf h0 fun _ h1 => Touches.comp tch_setB (by decide) h1)
          refine Touches.foldl ?_ (fun _ _ h0 => Touches.comp tch_setPodClk (by decide) h0)
          refine Touches.foldl ?_ (fun _ _ h0 => Touches.comp tch_setRole (by decide) h0)
          exact Touches.refl _ _

theorem tch_loadTelemetry {s a1 a2} : ∀ t, @State.loadTelemetry s a1 a2 = .ok t → Touches (134217728) s t := by
  induction a1 generalizing s a2 with
  | nil => intro t h; cases h; exact Touches.refl _ _
  | cons d ds ih =>
    intro t h
    unfold State.loadTelemetry at h
    split at h
    · exact Touches.comp (ih t h) (by decide) (Touches.upd_hostq (by decide) (Touches.refl _ _))
    · cases h

theorem tch_loadSection {s a1} : ∀ t, @State.loadSection s a1 = .ok t → Touches (4547870719) s t := by
  intro t h
  unfold State.loadSection at h
  split at h
  · exact (tch_loadRoleMap t h).mono (by decide)
  · exact (tch_loadPrograms t h).mono (by decide)
  · exact (tch_loadContexts t h).mono (by decide)
  · exact (tch_loadTelemetry t h).mono (by decide)
  · split at h
    · cases h; exact Touches.upd_husk (by decide) (Touches.refl _ _)
    · cases h
  · split at h
    · cases h
    · rename_i u hu
      split at h
      · cases h
      · cases h; exact (tch_loadRecords_p _ hu).mono (by decide)
  · cases h; exact Touches.upd_safe (by decide) (Touches.refl _ _)
  · split at h
    · cases h
    · rename_i u hu
      cases h; exact Touches.upd_safe (by decide) ((tch_loadRecords_p _ hu).mono (by decide))
  · cases h; exact Touches.upd_trip (by decide) (Touches.refl _ _)

theorem tch_lockCheck {s a1} : Touches (1342247937) s (@State.lockCheck s a1) := by
  unfold State.lockCheck
  try dsimp only
  refine Touches.ite ?_ ?_
  · exact Touches.refl _ _
  · refine Touches.ite ?_ ?_
    · refine Touches.comp tch_enterTime (by decide) ?_
      exact Touches.refl _ _
    · refine Touches.upd_net (by decide) ?_
      exact Touches.refl _ _

theorem tch_showLog {s} : Touches (1) s (@State.showLog s) := by
  unfold State.showLog
  try dsimp only
  refine Touches.comp tch_setF (by decide) ?_
  refine Touches.comp tch_setF (by decide) ?_
  exact Touches.refl _ _

theorem tch_pendClass {s a1 a2} : Touches (34493956097) s (@State.pendClass s a1 a2) := by
  unfold State.pendClass
  try dsimp only
  refine Touches.ite ?_ ?_
  · exact Touches.refl _ _
  · refine Touches.doIf ?_ (fun _ h0 => ?_)
    · refine Touches.comp tch_setBitF (by decide) ?_
      exact Touches.refl _ _
    · refine Touches.comp tch_sendVec (by decide) ?_
      exact h0

theorem tch_logEntry {s a1} : Touches (309371928577) s (@State.logEntry s a1) := by
  unfold State.logEntry
  try dsimp only
  refine Touches.comp tch_pendClass (by decide) ?_
  refine Touches.comp tch_pendClass (by decide) ?_
  refine Touches.comp tch_showLog (by decide) ?_
  refine Touches.upd_queue (fun h => SysSt.ordered_log h _ rfl) (by decide) ?_
  exact Touches.refl _ _

theorem tch_logLost {s} : Touches (309371928577) s (@State.logLost s) := by
  unfold State.logLost
  try dsimp only
  refine Touches.comp tch_clearLost (by decide) ?_
  refine Touches.comp tch_logEntry (by decide) ?_
  exact Touches.refl _ _

theorem tch_loopStart {s} : Touches (33554497) s (@State.loopStart s) := by
  unfold State.loopStart
  try dsimp only
  refine Touches.foldl ?_ (fun _ _ h0 => ?_)
  · exact Touches.refl _ _
  · refine Touches.ite ?_ ?_
    · refine Touches.doIf ?_ (fun _ h1 => ?_)
      · refine Touches.comp tch_setF (by decide) ?_
        refine Touches.comp tch_modCtx (by decide) ?_
        exact h0
      · refine Touches.comp tch_setCtxState (by decide) ?_
        exact h1
    · exact h0

theorem tch_loseFn {s a1 a2} : Touches (134414347) s (@State.loseFn s a1 a2) := by
  unfold State.loseFn
  try dsimp only
  refine Touches.upd_hostq (by decide) ?_
  refine Touches.comp tch_dropSession (by decide) ?_
  refine Touches.comp tch_dropRings (by decide) ?_
  exact Touches.refl _ _

theorem tch_loseHost {s a1 a2} : Touches (34418557321) s (@State.loseHost s a1 a2) := by
  unfold State.loseHost
  try dsimp only
  refine Touches.comp tch_fallbackCheck (by decide) ?_
  refine Touches.comp tch_settle (by decide) ?_
  refine Touches.comp tch_post (by decide) ?_
  refine Touches.ite ?_ ?_
  · refine Touches.comp tch_setF (by decide) ?_
    refine Touches.comp tch_setB (by decide) ?_
    refine Touches.comp tch_setB (by first | decide | (split <;> decide) | exact blkOk _ (by decide) | (unfold lostF; split <;> decide) | (unfold refOkF; split <;> decide)) ?_
    exact Touches.refl _ _
  · refine Touches.comp tch_setF (by decide) ?_
    refine Touches.comp tch_setB (by decide) ?_
    refine Touches.comp tch_setB (by first | decide | (split <;> decide) | exact blkOk _ (by decide) | (unfold lostF; split <;> decide) | (unfold refOkF; split <;> decide)) ?_
    exact Touches.refl _ _

theorem tch_loseLink {s} : Touches (134414347) s (@State.loseLink s) := by
  unfold State.loseLink
  try dsimp only
  refine Touches.ite ?_ ?_
  · refine Touches.comp tch_loseFn (by decide) ?_
    refine Touches.comp tch_loseFn (by decide) ?_
    refine Touches.upd_hostq (by decide) ?_
    exact Touches.refl _ _
  · exact Touches.refl _ _

theorem tch_loseSa {s a1} : Touches (268502017) s (@State.loseSa s a1) := by
  unfold State.loseSa
  try dsimp only
  refine Touches.ite ?_ ?_
  · refine Touches.comp tch_post (by decide) ?_
    refine Touches.comp tch_setB (by decide) ?_
    refine Touches.upd_net (by decide) ?_
    exact Touches.refl _ _
  · refine Touches.upd_net (by decide) ?_
    exact Touches.refl _ _

theorem tch_mapOut {s a1} : Touches (2147557377) s (@State.mapOut s a1) := by
  unfold State.mapOut
  try dsimp only
  refine Touches.comp tch_showPods (by decide) ?_
  refine Touches.comp tch_post (by decide) ?_
  refine Touches.comp tch_setB (by decide) ?_
  refine Touches.comp tch_setGone (by decide) ?_
  exact Touches.refl _ _

theorem tch_windowsNtev {s a1} : Touches (1133902922161) s (@State.windowsNtev s a1) := by
  unfold State.windowsNtev
  try dsimp only
  refine Touches.comp tch_closeMmts (by decide) ?_
  refine Touches.comp tch_closeAccs (by decide) ?_
  exact Touches.refl _ _

theorem tch_unitsNtev {s a1} : Touches (2097152) s (@State.unitsNtev s a1) := by
  unfold State.unitsNtev
  try dsimp only
  refine Touches.foldl ?_ (fun _ _ h0 => ?_)
  · exact Touches.refl _ _
  · refine Touches.doIf ?_ (fun _ h1 => ?_)
    · exact h0
    · refine Touches.comp tch_setUnit (by decide) ?_
      exact h1

theorem tch_measNtev {s a1} : Touches (1133902922161) s (@State.measNtev s a1) := by
  unfold State.measNtev
  try dsimp only
  refine Touches.ite ?_ ?_
  · refine Touches.comp tch_unitsNtev (by decide) ?_
    refine Touches.comp tch_windowsNtev (by decide) ?_
    refine Touches.comp tch_landConversions (by decide) ?_
    exact Touches.refl _ _
  · exact Touches.refl _ _

theorem tch_mkaSend {s a1 a2} : Touches (268435456) s (@State.mkaSend s a1 a2) := by
  unfold State.mkaSend
  try dsimp only
  refine Touches.comp tch_setPort (by decide) ?_
  exact Touches.refl _ _

theorem tch_netFollow {s} : Touches (1135347831817) s (@State.netFollow s) := by
  unfold State.netFollow
  try dsimp only
  refine Touches.ite ?_ ?_
  · refine Touches.foldl ?_ (fun _ _ h0 => ?_)
    · refine Touches.foldl ?_ (fun _ _ h0 => ?_)
      · refine Touches.foldl ?_ (fun _ _ h0 => ?_)
        · exact Touches.refl _ _
        · refine Touches.doIf ?_ (fun _ h1 => ?_)
          · exact h0
          · refine Touches.comp tch_dropLink (by decide) ?_
            exact h1
      · refine Touches.doIf ?_ (fun _ h1 => ?_)
        · exact h0
        · refine Touches.comp tch_failQueue (by decide) ?_
          exact h1
    · refine Touches.doIf ?_ (fun _ h1 => ?_)
      · exact h0
      · refine Touches.comp tch_setPort (by decide) ?_
        refine Touches.comp tch_setPs (by decide) ?_
        exact h1
  · refine Touches.comp tch_enterTime (by decide) ?_
    refine Touches.upd_net (by decide) ?_
    refine Touches.foldl ?_ (fun _ _ h0 => ?_)
    · refine Touches.comp tch_setB (by decide) ?_
      refine Touches.comp tch_setPs (by decide) ?_
      refine Touches.comp tch_setPs (by decide) ?_
      refine Touches.foldl ?_ (fun _ _ h0 => ?_)
      · refine Touches.foldl ?_ (fun _ _ h0 => ?_)
        · exact Touches.refl _ _
        · refine Touches.doIf ?_ (fun _ h1 => ?_)
          · exact h0
          · refine Touches.comp tch_dropLink (by decide) ?_
            exact h1
      · refine Touches.doIf ?_ (fun _ h1 => ?_)
        · exact h0
        · refine Touches.comp tch_failQueue (by decide) ?_
          exact h1
    · refine Touches.comp tch_setPort (by decide) ?_
      exact h0

theorem tch_netWrite {s a1 a2 a3 a4} : Touches (1135347962891) s (@State.netWrite s a1 a2 a3 a4) := by
  unfold State.netWrite
  try dsimp only
  split
  · refine Touches.compEq tch_writeAt (by assumption) (by decide) ?_
    exact Touches.refl _ _
  · refine Touches.ite ?_ ?_
    · refine Touches.comp tch_refuse (by decide) ?_
      refine Touches.comp tch_setWord (by decide) ?_
      refine Touches.compEq tch_writeAt (by assumption) (by decide) ?_
      exact Touches.refl _ _
    · refine Touches.comp tch_netFollow (by decide) ?_
      refine Touches.comp tch_setWord (by decide) ?_
      refine Touches.compEq tch_writeAt (by assumption) (by decide) ?_
      exact Touches.refl _ _

theorem tch_resumeRegular {s a1} : Touches (68721573888) s (@State.resumeRegular s a1) := by
  unfold State.resumeRegular
  try dsimp only
  refine Touches.ite ?_ ?_
  · refine Touches.comp tch_startEntry (by decide) ?_
    exact Touches.refl _ _
  · refine Touches.comp tch_startEntry (by decide) ?_
    exact Touches.refl _ _

theorem tch_nextEntry {s a1} : Touches (68721573888) s (@State.nextEntry s a1) := by
  unfold State.nextEntry
  try dsimp only
  refine Touches.ite ?_ ?_
  · refine Touches.comp tch_startEntry (by decide) ?_
    exact Touches.refl _ _
  · refine Touches.ite ?_ ?_
    · refine Touches.comp tch_startEntry (by decide) ?_
      exact Touches.refl _ _
    · refine Touches.comp tch_resumeRegular (by decide) ?_
      exact Touches.refl _ _

theorem tch_nextSlot {s} : Touches (4294983686) s (@State.nextSlot s) := by
  unfold State.nextSlot
  try dsimp only
  refine Touches.doIf ?_ (fun _ h0 => ?_)
  · refine Touches.comp tch_setF (by decide) ?_
    refine Touches.comp tch_setB (by decide) ?_
    refine Touches.upd_cfg (by decide) ?_
    exact Touches.refl _ _
  · refine Touches.comp tch_noImage (by decide) ?_
    exact h0

theorem tch_walkOn {s} : Touches (2147491840) s (@State.walkOn s) := by
  unfold State.walkOn
  try dsimp only
  refine Touches.ite ?_ ?_
  · refine Touches.upd_rel (by decide) ?_
    exact Touches.refl _ _
  · refine Touches.comp tch_incF (by decide) ?_
    refine Touches.upd_rel (by decide) ?_
    exact Touches.refl _ _

theorem tch_nextWalk {s a1} : Touches (2147491840) s (@State.nextWalk s a1).1 := by
  induction a1 generalizing s with
  | zero => unfold State.nextWalk; exact Touches.refl _ _
  | succ n ih =>
    unfold State.nextWalk
    split
    · exact tch_walkOn.mono (by decide)
    · refine Touches.comp ih (by decide) ?_
      exact tch_walkOn.mono (by decide)

theorem tch_splitRequest {s a1} : Touches (67174913) s (@State.splitRequest s a1) := by
  unfold State.splitRequest
  try dsimp only
  refine Touches.ite ?_ ?_
  · refine Touches.upd_safe (by decide) ?_
    refine Touches.comp tch_setF (by decide) ?_
    exact Touches.refl _ _
  · refine Touches.comp tch_post (by decide) ?_
    refine Touches.comp tch_setB (by decide) ?_
    exact Touches.refl _ _

theorem tch_selectTest {s a1} : Touches (1136119587393) s (@State.selectTest s a1) := by
  unfold State.selectTest
  try dsimp only
  split
  · refine Touches.comp tch_beginTests (by decide) ?_
    exact Touches.refl _ _
  · refine Touches.ite ?_ ?_
    · refine Touches.comp tch_beginTests (by decide) ?_
      exact Touches.refl _ _
    · refine Touches.ite ?_ ?_
      · split
        · refine Touches.ite ?_ ?_
          · refine Touches.comp tch_beginMig (by decide) ?_
            refine Touches.comp tch_setMoving (by decide) ?_
            refine Touches.comp tch_setF (by decide) ?_
            refine Touches.comp tch_setF (by decide) ?_
            refine Touches.comp tch_setF (by decide) ?_
            exact Touches.refl _ _
          · refine Touches.comp tch_queueMig (by decide) ?_
            refine Touches.comp tch_setMoving (by decide) ?_
            refine Touches.comp tch_setF (by decide) ?_
            refine Touches.comp tch_setF (by decide) ?_
            refine Touches.comp tch_setF (by decide) ?_
            exact Touches.refl _ _
        · refine Touches.comp tch_skipTest (by decide) ?_
          exact Touches.refl _ _
      · refine Touches.ite ?_ ?_
        · split
          · refine Touches.ite ?_ ?_
            · refine Touches.upd_rel (by decide) ?_
              refine Touches.comp tch_beginTests (by decide) ?_
              refine Touches.comp tch_splitRequest (by decide) ?_
              exact Touches.refl _ _
            · refine Touches.comp tch_endTest (by decide) ?_
              refine Touches.comp tch_splitRequest (by decide) ?_
              exact Touches.refl _ _
          · refine Touches.comp tch_endTest (by decide) ?_
            exact Touches.refl _ _
        · refine Touches.comp tch_endTest (by decide) ?_
          exact Touches.refl _ _

theorem tch_nextTest {s} : Touches (1136119587393) s (@State.nextTest s) := by
  unfold State.nextTest
  try dsimp only
  split
  · refine Touches.comp tch_selectTest (by decide) ?_
    refine Touches.upd_rel (by decide) ?_
    exact Touches.refl _ _
  · split
    · split
      · refine Touches.comp tch_selectTest (by decide) ?_
        refine Touches.upd_rel (by decide) ?_
        exact Touches.refl _ _
      · refine Touches.comp tch_endTest (by decide) ?_
        refine Touches.upd_rel (by decide) ?_
        exact Touches.refl _ _
    · refine Touches.ite ?_ ?_
      · split
        · refine Touches.comp tch_selectTest (by decide) ?_
          refine Touches.compEq tch_nextWalk (by assumption) (by decide) ?_
          exact Touches.refl _ _
        · refine Touches.compEq tch_nextWalk (by assumption) (by decide) ?_
          exact Touches.refl _ _
      · exact Touches.refl _ _

theorem tch_notePn {s a1 a2} : Touches (268435456) s (@State.notePn s a1 a2) := by
  unfold State.notePn
  try dsimp only
  refine Touches.comp tch_setPort (by decide) ?_
  exact Touches.refl _ _

theorem tch_ntevMark {s a1 a2} : Touches (2097152) s (@State.ntevMark s a1 a2) := by
  unfold State.ntevMark
  try dsimp only
  refine Touches.upd_meas (by decide) ?_
  exact Touches.refl _ _

theorem tch_openBucket {s} : Touches (1683686539649) s (@State.openBucket s) := by
  unfold State.openBucket
  try dsimp only
  refine Touches.comp tch_grantDue (by decide) ?_
  refine Touches.upd_pwr_keep rfl (by decide) ?_
  refine Touches.comp tch_setF (by decide) ?_
  refine Touches.comp tch_setB (by decide) ?_
  exact Touches.refl _ _

theorem tch_openDebug {s a1 a2} : Touches (65537 ||| 2 ^ a1.blk.num) s (@State.openDebug s a1 a2) := by
  unfold State.openDebug
  try dsimp only
  refine Touches.comp tch_post (by first | decide | exact Nat.zero_and _ | exact Nat.and_self _ | exact maskR _ _ | exact maskL (maskR _ _) | exact maskL (Nat.and_self _) | exact maskL (by decide) | exact maskL (maskL (by decide)) | exact maskOr (maskL (by decide)) (maskR _ _) | exact maskOr (maskL (by decide)) (maskL (maskR _ _)) | exact maskOr (maskL (by decide)) (Nat.and_self _) | exact maskOr (maskL (maskL (by decide))) (maskR _ _) | exact maskOr (maskL (maskL (by decide))) (maskL (maskR _ _)) | exact maskOr (maskL (maskL (by decide))) (Nat.and_self _)) ?_
  refine Touches.comp tch_setB (by first | decide | exact Nat.zero_and _ | exact Nat.and_self _ | exact maskR _ _ | exact maskL (maskR _ _) | exact maskL (Nat.and_self _) | exact maskL (by decide) | exact maskL (maskL (by decide)) | exact maskOr (maskL (by decide)) (maskR _ _) | exact maskOr (maskL (by decide)) (maskL (maskR _ _)) | exact maskOr (maskL (by decide)) (Nat.and_self _) | exact maskOr (maskL (maskL (by decide))) (maskR _ _) | exact maskOr (maskL (maskL (by decide))) (maskL (maskR _ _)) | exact maskOr (maskL (maskL (by decide))) (Nat.and_self _)) ?_
  exact Touches.refl _ _

theorem tch_openSession {s a1} : Touches (197123) s (@State.openSession s a1) := by
  unfold State.openSession
  try dsimp only
  refine Touches.comp tch_post (by decide) ?_
  refine Touches.comp tch_setSession (by decide) ?_
  refine Touches.ite ?_ ?_
  · refine Touches.comp tch_setPwSlot (by decide) ?_
    refine Touches.comp tch_setF (by decide) ?_
    refine Touches.comp tch_setF (by decide) ?_
    refine Touches.comp tch_setF (by decide) ?_
    refine Touches.comp tch_setF (by decide) ?_
    exact Touches.refl _ _
  · refine Touches.comp tch_setF (by decide) ?_
    refine Touches.comp tch_setF (by decide) ?_
    refine Touches.comp tch_setF (by decide) ?_
    refine Touches.comp tch_setF (by decide) ?_
    exact Touches.refl _ _

theorem tch_outFault {s a1} : Touches (34452112257) s (@State.outFault s a1) := by
  unfold State.outFault
  try dsimp only
  refine Touches.upd_safe (by decide) ?_
  refine Touches.comp tch_pendAxes (by decide) ?_
  refine Touches.comp tch_setOut (by decide) ?_
  exact Touches.refl _ _

theorem tch_rejoinRequest {s a1 a2} : Touches (36599604097) s (@State.rejoinRequest s a1 a2) := by
  unfold State.rejoinRequest
  try dsimp only
  refine Touches.ite ?_ ?_
  · refine Touches.ite ?_ ?_
    · refine Touches.comp tch_setF (by decide) ?_
      exact Touches.refl _ _
    · refine Touches.comp tch_pairFault (by decide) ?_
      refine Touches.comp tch_setB (by decide) ?_
      exact Touches.refl _ _
  · refine Touches.comp tch_post (by decide) ?_
    refine Touches.comp tch_setB (by decide) ?_
    exact Touches.refl _ _

theorem tch_pairTested {s a1 a2 a3 a4} : Touches (36599604097) s (@State.pairTested s a1 a2 a3 a4) := by
  unfold State.pairTested
  try dsimp only
  refine Touches.ite ?_ ?_
  · refine Touches.upd_rel (by decide) ?_
    refine Touches.doIf ?_ (fun _ h0 => ?_)
    · exact Touches.refl _ _
    · refine Touches.comp tch_mapOut (by decide) ?_
      exact h0
  · refine Touches.ite ?_ ?_
    · refine Touches.comp tch_endTest (by decide) ?_
      refine Touches.upd_rel (by decide) ?_
      refine Touches.doIf ?_ (fun _ h0 => ?_)
      · exact Touches.refl _ _
      · refine Touches.comp tch_mapOut (by decide) ?_
        exact h0
    · refine Touches.comp tch_rejoinRequest (by decide) ?_
      refine Touches.comp tch_setF (by decide) ?_
      refine Touches.upd_rel (by decide) ?_
      refine Touches.doIf ?_ (fun _ h0 => ?_)
      · exact Touches.refl _ _
      · refine Touches.comp tch_mapOut (by decide) ?_
        exact h0

theorem tch_peerSeen {s a1} : Touches (2048) s (@State.peerSeen s a1) := by
  unfold State.peerSeen
  try dsimp only
  refine Touches.foldl ?_ (fun _ _ h0 => ?_)
  · exact Touches.refl _ _
  · refine Touches.doIf ?_ (fun _ h1 => ?_)
    · exact h0
    · refine Touches.comp tch_setB (by decide) ?_
      exact h1

theorem tch_plainWrite {s a1 a2 a3 a4} : Touches (34389360639) s (@State.plainWrite s a1 a2 a3 a4) := by
  unfold State.plainWrite
  split
  · exact Touches.compEq tch_writeAt (by assumption) (maskOr (by decide) (blkOk _ (by decide))) (Touches.refl _ _)
  · refine Touches.ite ?_ ?_
    · refine Touches.comp tch_setWord (by exact blkOk _ (by decide)) ?_
      exact Touches.compEq tch_writeAt (by assumption) (maskOr (by decide) (blkOk _ (by decide))) (Touches.refl _ _)
    · refine Touches.comp tch_afterWrite (by decide) ?_
      exact Touches.compEq tch_writeAt (by assumption) (maskOr (by decide) (blkOk _ (by decide))) (Touches.refl _ _)

theorem tch_psetRefused {s a1} : Touches (67174401) s (@State.psetRefused s a1).1 := by
  unfold State.psetRefused
  try dsimp only
  refine Touches.comp tch_post (by decide) ?_
  refine Touches.upd_safe (by decide) ?_
  exact Touches.refl _ _

theorem tch_psetConfirm {s a1 a2 a3 a4} : Touches (67174913) s (@State.psetConfirm s a1 a2 a3 a4).1 := by
  unfold State.psetConfirm
  try dsimp only
  split
  · refine Touches.comp tch_psetRefused (by decide) ?_
    exact Touches.refl _ _
  · split
    · try dsimp only
      refine Touches.comp tch_psetRefused (by decide) ?_
      exact Touches.refl _ _
    · try dsimp only
      split
      · try dsimp only
        refine Touches.comp tch_psetRefused (by decide) ?_
        exact Touches.refl _ _
      · try dsimp only
        split
        · try dsimp only
          refine Touches.comp tch_psetRefused (by decide) ?_
          exact Touches.refl _ _
        · try dsimp only
          refine Touches.upd_safe (by decide) ?_
          refine Touches.foldl ?_ (fun _ _ h0 => ?_)
          · exact Touches.refl _ _
          · refine Touches.comp tch_logChange (by decide) ?_
            exact h0

theorem tch_psetStage {s a1 a2} : Touches (67174401) s (@State.psetStage s a1 a2).1 := by
  unfold State.psetStage
  try dsimp only
  split
  · try dsimp only
    refine Touches.comp tch_post (by decide) ?_
    exact Touches.refl _ _
  · try dsimp only
    split
    · try dsimp only
      refine Touches.comp tch_post (by decide) ?_
      exact Touches.refl _ _
    · try dsimp only
      refine Touches.upd_safe (by decide) ?_
      exact Touches.refl _ _

theorem tch_takePn {s a1 a2} : Touches (268436480) s (@State.takePn s a1 a2) := by
  unfold State.takePn
  try dsimp only
  refine Touches.ite ?_ ?_
  · exact Touches.refl _ _
  · split
    · refine Touches.doIf ?_ (fun _ h0 => ?_)
      · refine Touches.comp tch_setPort (by decide) ?_
        exact Touches.refl _ _
      · refine Touches.comp tch_installSak (by decide) ?_
        exact h0
    · refine Touches.comp tch_setPort (by decide) ?_
      exact Touches.refl _ _

theorem tch_startFrame {s a1 a2 a3 a4 a5} : Touches (34628174848) s (@State.startFrame s a1 a2 a3 a4 a5) := by
  unfold State.startFrame
  try dsimp only
  refine Touches.comp tch_emit (by decide) ?_
  refine Touches.comp tch_takePn (by decide) ?_
  refine Touches.comp tch_setPort (by decide) ?_
  exact Touches.refl _ _

theorem tch_txKick {s a1} : Touches (1134274085897) s (@State.txKick s a1) := by
  unfold State.txKick
  try dsimp only
  refine Touches.ite ?_ ?_
  · exact Touches.refl _ _
  · split
    · refine Touches.ite ?_ ?_
      · exact Touches.refl _ _
      · refine Touches.comp tch_startFrame (by decide) ?_
        refine Touches.comp tch_setPort (by decide) ?_
        exact Touches.refl _ _
    · refine Touches.ite ?_ ?_
      · exact Touches.refl _ _
      · refine Touches.comp tch_startFrame (by decide) ?_
        refine Touches.comp tch_setPort (by decide) ?_
        exact Touches.refl _ _
    · refine Touches.ite ?_ ?_
      · exact Touches.refl _ _
      · refine Touches.comp tch_frameOver (by decide) ?_
        refine Touches.comp tch_startFrame (by decide) ?_
        refine Touches.comp tch_setPort (by decide) ?_
        exact Touches.refl _ _
    · exact Touches.refl _ _

theorem tch_ptpSend {s a1 a2} : Touches (1134274085897) s (@State.ptpSend s a1 a2) := by
  unfold State.ptpSend
  try dsimp only
  refine Touches.comp tch_txKick (by decide) ?_
  refine Touches.comp tch_setPort (by decide) ?_
  exact Touches.refl _ _

theorem tch_ptpRequest {s a1 a2} : Touches (1134274085897) s (@State.ptpRequest s a1 a2) := by
  unfold State.ptpRequest
  try dsimp only
  refine Touches.doIf ?_ (fun _ h0 => ?_)
  · exact Touches.refl _ _
  · refine Touches.comp tch_ptpSend (by decide) ?_
    exact h0

theorem tch_putOps {s a1} : Touches (1048576) s (@State.putOps s a1) := by
  unfold State.putOps
  try dsimp only
  refine Touches.upd_sea (fun h => ⟨h.1, kwf_kset _ _ h.2.1, h.2.2⟩) (by decide) ?_
  exact Touches.refl _ _

theorem tch_quadEdge {s a1 a2 a3 a4 a5 a6} : Touches (34389197217) s (@State.quadEdge s a1 a2 a3 a4 a5 a6) := by
  unfold State.quadEdge
  try dsimp only
  refine Touches.ite ?_ ?_
  · refine Touches.comp tch_settle (by decide) ?_
    refine Touches.comp tch_lossCause (by decide) ?_
    refine Touches.comp tch_cond (by decide) ?_
    refine Touches.comp tch_setPi (by decide) ?_
    exact Touches.refl _ _
  · refine Touches.comp tch_settle (by decide) ?_
    refine Touches.comp tch_setPi (by decide) ?_
    refine Touches.comp tch_setPi (by decide) ?_
    exact Touches.refl _ _

theorem tch_quadLevels {s a1 a2 a3 a4 a5} : Touches (34389197217) s (@State.quadLevels s a1 a2 a3 a4 a5) := by
  unfold State.quadLevels
  try dsimp only
  refine Touches.ite ?_ ?_
  · refine Touches.ite ?_ ?_
    · refine Touches.comp tch_quadEdge (by decide) ?_
      refine Touches.comp tch_setPi (by decide) ?_
      exact Touches.refl _ _
    · refine Touches.ite ?_ ?_
      · refine Touches.comp tch_quadEdge (by decide) ?_
        refine Touches.comp tch_quadEdge (by decide) ?_
        refine Touches.comp tch_setPi (by decide) ?_
        exact Touches.refl _ _
      · refine Touches.comp tch_quadEdge (by decide) ?_
        refine Touches.comp tch_quadEdge (by decide) ?_
        refine Touches.comp tch_setPi (by decide) ?_
        exact Touches.refl _ _
  · refine Touches.ite ?_ ?_
    · refine Touches.comp tch_quadEdge (by decide) ?_
      refine Touches.comp tch_setPi (by decide) ?_
      exact Touches.refl _ _
    · refine Touches.ite ?_ ?_
      · refine Touches.comp tch_quadEdge (by decide) ?_
        refine Touches.comp tch_setPi (by decide) ?_
        exact Touches.refl _ _
      · refine Touches.comp tch_setPi (by decide) ?_
        exact Touches.refl _ _

theorem tch_reaccept {s} : Touches (65665) s (@State.reaccept s) := by
  unfold State.reaccept
  try dsimp only
  refine Touches.foldl ?_ (fun _ _ h0 => ?_)
  · exact Touches.refl _ _
  · refine Touches.foldl ?_ (fun _ _ h1 => ?_)
    · exact h0
    · refine Touches.doIf ?_ (fun _ h2 => ?_)
      · exact h1
      · refine Touches.comp tch_raiseBit (by decide) ?_
        exact h2

theorem tch_readback {s a1 a2} : Touches (34452112257) s (@State.readback s a1 a2) := by
  unfold State.readback
  try dsimp only
  refine Touches.ite ?_ ?_
  · refine Touches.comp tch_setSafeOut (by decide) ?_
    exact Touches.refl _ _
  · refine Touches.ite ?_ ?_
    · refine Touches.comp tch_setSafeOut (by decide) ?_
      refine Touches.comp tch_setSafeOut (by decide) ?_
      exact Touches.refl _ _
    · refine Touches.ite ?_ ?_
      · refine Touches.comp tch_setSafeOut (by decide) ?_
        refine Touches.comp tch_setSafeOut (by decide) ?_
        exact Touches.refl _ _
      · refine Touches.ite ?_ ?_
        · refine Touches.comp tch_setSafeOut (by decide) ?_
          exact Touches.refl _ _
        · refine Touches.comp tch_outFault (by decide) ?_
          refine Touches.comp tch_post (by decide) ?_
          refine Touches.comp tch_setBitF (by decide) ?_
          refine Touches.comp tch_setSafeOut (by decide) ?_
          exact Touches.refl _ _

theorem tch_refBack {s a1 a2} : Touches (1073811457) s (@State.refBack s a1 a2) := by
  unfold State.refBack
  try dsimp only
  refine Touches.ite ?_ ?_
  · refine Touches.doIf ?_ (fun _ h0 => ?_)
    · exact Touches.refl _ _
    · refine Touches.comp tch_enterRelock (by decide) ?_
      exact h0
  · refine Touches.doIf ?_ (fun _ h0 => ?_)
    · exact Touches.refl _ _
    · refine Touches.comp tch_beginHop (by decide) ?_
      exact h0

theorem tch_refInstant {s a1} : Touches (536938497) s (@State.refInstant s a1) := by
  unfold State.refInstant
  try dsimp only
  refine Touches.doIf ?_ (fun _ h0 => ?_)
  · refine Touches.doIf ?_ (fun _ h0 => ?_)
    · refine Touches.comp tch_setCanCtl (by decide) ?_
      exact Touches.refl _ _
    · refine Touches.comp tch_refMissed (by decide) ?_
      exact h0
  · refine Touches.comp tch_refMissed (by decide) ?_
    exact h0

theorem tch_refSet {s a1 a2} : Touches (536872960) s (@State.refSet s a1 a2) := by
  unfold State.refSet
  try dsimp only
  refine Touches.ite ?_ ?_
  · refine Touches.doIf ?_ (fun _ h0 => ?_)
    · refine Touches.comp tch_setB (by decide) ?_
      exact Touches.refl _ _
    · refine Touches.comp tch_setB (by decide) ?_
      refine Touches.comp tch_setCanCtl (by decide) ?_
      exact h0
  · refine Touches.comp tch_setB (by decide) ?_
    refine Touches.comp tch_setCanCtl (by decide) ?_
    refine Touches.comp tch_setB (by decide) ?_
    exact Touches.refl _ _

theorem tch_refuseSlot {s a1 a2} : Touches (4547936255) s (@State.refuseSlot s a1 a2) := by
  unfold State.refuseSlot
  try dsimp only
  refine Touches.comp tch_nextSlot (by decide) ?_
  refine Touches.comp tch_clearLoaded (by decide) ?_
  refine Touches.comp tch_setSlotResult (by decide) ?_
  refine Touches.comp tch_setF (by decide) ?_
  refine Touches.comp tch_setF (by decide) ?_
  refine Touches.comp tch_post (by decide) ?_
  exact Touches.refl _ _

theorem tch_release {s a1 a2} : Touches (134283273) s (@State.release s a1 a2) := by
  unfold State.release
  try dsimp only
  refine Touches.ite ?_ ?_
  · refine Touches.comp tch_finish (by decide) ?_
    exact Touches.refl _ _
  · refine Touches.comp tch_setDesc (by decide) ?_
    exact Touches.refl _ _

theorem tch_startClocks {s a1} : Touches (1073745920) s (@State.startClocks s a1) := by
  unfold State.startClocks
  try dsimp only
  refine Touches.ite ?_ ?_
  · refine Touches.comp tch_bootClocks (by decide) ?_
    refine Touches.comp tch_setB (by decide) ?_
    refine Touches.comp tch_setB (by decide) ?_
    refine Touches.comp tch_setF (by decide) ?_
    refine Touches.comp tch_setF (by decide) ?_
    exact Touches.refl _ _
  · refine Touches.comp tch_setB (by decide) ?_
    refine Touches.comp tch_setB (by decide) ?_
    refine Touches.comp tch_setB (by decide) ?_
    refine Touches.comp tch_setF (by decide) ?_
    refine Touches.comp tch_setF (by decide) ?_
    exact Touches.refl _ _

theorem tch_wiresFaulty {s a1} : Touches (2147557377) s (@State.wiresFaulty s a1) := by
  unfold State.wiresFaulty
  try dsimp only
  refine Touches.foldl ?_ (fun _ _ h0 => ?_)
  · exact Touches.refl _ _
  · refine Touches.comp tch_wireFaulty (by decide) ?_
    exact h0

theorem tch_rewriteSlots {s a1} : Touches (4294967296) s (@State.rewriteSlots s a1) := by
  unfold State.rewriteSlots
  try dsimp only
  refine Touches.foldl ?_ (fun _ _ h0 => ?_)
  · exact Touches.refl _ _
  · refine Touches.upd_cfg (by decide) ?_
    exact h0

theorem tch_resetOver {s a1} : Touches (1975684956159) s (@State.resetOver s a1) := by
  unfold State.resetOver
  try dsimp only
  refine Touches.ite ?_ ?_
  · refine Touches.upd_pwr_keep rfl (by decide) ?_
    refine Touches.comp tch_wiresFaulty (by decide) ?_
    refine Touches.comp tch_startClocks (by decide) ?_
    refine Touches.comp tch_rewriteSlots (by decide) ?_
    refine Touches.comp tch_post (by decide) ?_
    refine Touches.comp tch_setF (by decide) ?_
    refine Touches.upd_pwr_hostq_net_tap (fun _ h => by rcases h with h | h | h <;> cases h) (by decide) ?_
    exact Touches.refl _ _
  · refine Touches.comp tch_bootOn (by decide) ?_
    refine Touches.comp tch_wiresFaulty (by decide) ?_
    refine Touches.comp tch_startClocks (by decide) ?_
    refine Touches.comp tch_rewriteSlots (by decide) ?_
    refine Touches.comp tch_post (by decide) ?_
    refine Touches.comp tch_setF (by decide) ?_
    refine Touches.upd_pwr_hostq_net_tap (fun _ h => by rcases h with h | h | h <;> cases h) (by decide) ?_
    exact Touches.refl _ _

theorem tch_ringOff {s a1 a2 a3} : Touches (8) s (@State.ringOff s a1 a2 a3) := by
  unfold State.ringOff
  try dsimp only
  refine Touches.ite ?_ ?_
  · refine Touches.comp tch_cqOff (by decide) ?_
    exact Touches.refl _ _
  · refine Touches.ite ?_ ?_
    · refine Touches.comp tch_sqOff (by decide) ?_
      exact Touches.refl _ _
    · refine Touches.doIf ?_ (fun _ h0 => ?_)
      · refine Touches.comp tch_setB (by decide) ?_
        exact Touches.refl _ _
      · refine Touches.comp tch_setF (by decide) ?_
        exact h0

theorem tch_sqOn {s a1 a2 a3} : Touches (134217736) s (@State.sqOn s a1 a2 a3) := by
  unfold State.sqOn
  try dsimp only
  refine Touches.upd_hostq (by decide) ?_
  refine Touches.comp tch_setF (by decide) ?_
  refine Touches.comp tch_setF (by decide) ?_
  refine Touches.comp tch_setF (by decide) ?_
  refine Touches.comp tch_setF (by decide) ?_
  refine Touches.comp tch_setB (by decide) ?_
  exact Touches.refl _ _

theorem tch_ringCfg {s a1 a2 a3 a4} : Touches (134414347) s (@State.ringCfg s a1 a2 a3 a4) := by
  unfold State.ringCfg
  try dsimp only
  split
  · refine Touches.compEq tch_writeAt (by assumption) (by decide) ?_
    exact Touches.refl _ _
  · refine Touches.ite ?_ ?_
    · refine Touches.ite ?_ ?_
      · refine Touches.ite ?_ ?_
        · refine Touches.comp tch_cqOn (by decide) ?_
          refine Touches.doIf ?_ (fun _ h0 => ?_)
          · refine Touches.compEq tch_writeAt (by assumption) (by decide) ?_
            exact Touches.refl _ _
          · refine Touches.comp tch_setWord (by decide) ?_
            exact h0
        · refine Touches.comp tch_sqOn (by decide) ?_
          refine Touches.doIf ?_ (fun _ h0 => ?_)
          · refine Touches.compEq tch_writeAt (by assumption) (by decide) ?_
            exact Touches.refl _ _
          · refine Touches.comp tch_setWord (by decide) ?_
            exact h0
      · refine Touches.comp tch_post (by decide) ?_
        refine Touches.comp tch_setWord (by decide) ?_
        refine Touches.doIf ?_ (fun _ h0 => ?_)
        · refine Touches.compEq tch_writeAt (by assumption) (by decide) ?_
          exact Touches.refl _ _
        · refine Touches.comp tch_setWord (by decide) ?_
          exact h0
    · refine Touches.ite ?_ ?_
      · refine Touches.ite ?_ ?_
        · refine Touches.comp tch_ringOff (by decide) ?_
          refine Touches.doIf ?_ (fun _ h0 => ?_)
          · refine Touches.compEq tch_writeAt (by assumption) (by decide) ?_
            exact Touches.refl _ _
          · refine Touches.comp tch_setWord (by decide) ?_
            exact h0
        · refine Touches.comp tch_post (by decide) ?_
          refine Touches.comp tch_setWord (by decide) ?_
          refine Touches.doIf ?_ (fun _ h0 => ?_)
          · refine Touches.compEq tch_writeAt (by assumption) (by decide) ?_
            exact Touches.refl _ _
          · refine Touches.comp tch_setWord (by decide) ?_
            exact h0
      · refine Touches.doIf ?_ (fun _ h0 => ?_)
        · refine Touches.compEq tch_writeAt (by assumption) (by decide) ?_
          exact Touches.refl _ _
        · refine Touches.comp tch_setWord (by decide) ?_
          exact h0

theorem tch_rxDrop {s a1} : Touches (66561) s (@State.rxDrop s a1) := by
  unfold State.rxDrop
  try dsimp only
  refine Touches.comp tch_raise (by decide) ?_
  refine Touches.comp tch_incF (by decide) ?_
  exact Touches.refl _ _

theorem tch_safetyTxn {s a1 a2 a3 a4} : Touches (201392649) s (@State.safetyTxn s a1 a2 a3 a4) := by
  unfold State.safetyTxn
  try dsimp only
  refine Touches.ite ?_ ?_
  · refine Touches.comp tch_fin (by decide) ?_
    refine Touches.comp tch_post (by decide) ?_
    exact Touches.refl _ _
  · refine Touches.ite ?_ ?_
    · split
      · refine Touches.comp tch_fin (by decide) ?_
        refine Touches.compEq tch_psetStage (by assumption) (by decide) ?_
        exact Touches.refl _ _
      · refine Touches.comp tch_fin (by decide) ?_
        refine Touches.compEq tch_psetStage (by assumption) (by decide) ?_
        exact Touches.refl _ _
    · split
      · refine Touches.comp tch_fin (by decide) ?_
        refine Touches.compEq tch_psetConfirm (by assumption) (by decide) ?_
        exact Touches.refl _ _
      · refine Touches.comp tch_atHandler (by decide) ?_
        refine Touches.compEq tch_psetConfirm (by assumption) (by decide) ?_
        exact Touches.refl _ _

theorem tch_saveRecords {s} : Touches (2164260864) s (@State.saveRecords s) := by
  unfold State.saveRecords
  exact Touches.upd_rel (s := { s with trip := _ }) (by decide) (Touches.upd_trip (by decide) (Touches.refl _ _))

theorem tch_scheduleComm {s a1 a2 a3} : Touches (584140816769) s (@State.scheduleComm s a1 a2 a3) := by
  unfold State.scheduleComm
  try dsimp only
  refine Touches.doIf ?_ (fun _ h0 => ?_)
  · refine Touches.comp tch_setBc (by decide) ?_
    exact Touches.refl _ _
  · refine Touches.comp tch_bcApply (by decide) ?_
    exact h0

theorem tch_storeBad {s a1} : Touches (1048576) s (@State.storeBad s a1) := by
  unfold State.storeBad
  try dsimp only
  refine Touches.upd_sea (fun h => h) (by decide) ?_
  exact Touches.refl _ _

theorem tch_scrubBad {s a1 a2 a3 a4 a5} : Touches (1136280055801) s (@State.scrubBad s a1 a2 a3 a4 a5) := by
  unfold State.scrubBad
  try dsimp only
  refine Touches.ite ?_ ?_
  · refine Touches.comp tch_kernelWord (by decide) ?_
    exact Touches.refl _ _
  · refine Touches.ite ?_ ?_
    · refine Touches.comp tch_post (by decide) ?_
      refine Touches.comp tch_storeBad (by decide) ?_
      refine Touches.comp tch_lastErr (by decide) ?_
      refine Touches.comp tch_setB (by decide) ?_
      exact Touches.refl _ _
    · split
      · refine Touches.comp tch_discardEntry (by decide) ?_
        refine Touches.comp tch_incF (by decide) ?_
        refine Touches.comp tch_post (by decide) ?_
        refine Touches.comp tch_lastErr (by decide) ?_
        refine Touches.comp tch_setB (by decide) ?_
        exact Touches.refl _ _
      · refine Touches.comp tch_post (by decide) ?_
        refine Touches.comp tch_lastErr (by decide) ?_
        refine Touches.comp tch_setB (by decide) ?_
        exact Touches.refl _ _

theorem tch_scrubFixed {s a1 a2 a3 a4} : Touches (2147557377) s (@State.scrubFixed s a1 a2 a3 a4) := by
  unfold State.scrubFixed
  try dsimp only
  refine Touches.doIf ?_ (fun _ h0 => ?_)
  · refine Touches.upd_rel (by decide) ?_
    refine Touches.comp tch_corrected (by decide) ?_
    exact Touches.refl _ _
  · refine Touches.ite ?_ ?_
    · refine Touches.upd_rel (by decide) ?_
      refine Touches.comp tch_post (by decide) ?_
      exact h0
    · refine Touches.comp tch_post (by decide) ?_
      exact h0

theorem tch_startTimes {s} : Touches (2306867200) s (@State.startTimes s) := by
  unfold State.startTimes
  try dsimp only
  refine Touches.upd_pwm_trip_hostq_rel rfl (by decide) ?_
  exact Touches.refl _ _

theorem tch_startSet {s} : Touches (67174913) s (@State.startSet s) := by
  unfold State.startSet
  try dsimp only
  refine Touches.ite ?_ ?_
  · exact Touches.refl _ _
  · refine Touches.comp tch_setF (by decide) ?_
    refine Touches.upd_safe (by decide) ?_
    split
    · refine Touches.doIf ?_ (fun _ h0 => ?_)
      · split
        · exact Touches.refl _ _
        · refine Touches.ite ?_ ?_
          · refine Touches.upd_safe (by decide) ?_
            exact Touches.refl _ _
          · refine Touches.comp tch_logChange (by decide) ?_
            refine Touches.comp tch_post (by decide) ?_
            refine Touches.upd_safe (by decide) ?_
            exact Touches.refl _ _
      · refine Touches.comp tch_logChange (by decide) ?_
        exact h0
    · split
      · exact Touches.refl _ _
      · refine Touches.ite ?_ ?_
        · refine Touches.upd_safe (by decide) ?_
          exact Touches.refl _ _
        · refine Touches.comp tch_logChange (by decide) ?_
          refine Touches.comp tch_post (by decide) ?_
          refine Touches.upd_safe (by decide) ?_
          exact Touches.refl _ _

theorem tch_unifiedFirst {s} : Touches (128) s (@State.unifiedFirst s) := by
  unfold State.unifiedFirst
  try dsimp only
  refine Touches.foldl ?_ (fun _ _ h0 => ?_)
  · exact Touches.refl _ _
  · refine Touches.comp tch_setB (by decide) ?_
    exact h0

theorem tch_startUnits {s} : Touches (68721573888) s (@State.startUnits s) := by
  unfold State.startUnits
  try dsimp only
  refine Touches.foldl ?_ (fun _ _ h0 => ?_)
  · exact Touches.refl _ _
  · refine Touches.doIf ?_ (fun _ h1 => ?_)
    · exact h0
    · refine Touches.comp tch_startEntry (by decide) ?_
      exact h1

theorem tch_startWake {s} : Touches (268436480) s (@State.startWake s) := by
  unfold State.startWake
  try dsimp only
  refine Touches.ite ?_ ?_
  · exact Touches.refl _ _
  · refine Touches.comp tch_setF (by decide) ?_
    refine Touches.upd_net (by decide) ?_
    exact Touches.refl _ _

theorem tch_startBlocks {s} : Touches (1204199464905) s (@State.startBlocks s) := by
  unfold State.startBlocks
  try dsimp only
  refine Touches.comp tch_stoDown (by decide) ?_
  refine Touches.comp tch_armTrip (by decide) ?_
  refine Touches.doIf ?_ (fun _ h0 => ?_)
  · refine Touches.comp tch_startSet (by decide) ?_
    refine Touches.comp tch_startWake (by decide) ?_
    refine Touches.comp tch_netFollow (by decide) ?_
    refine Touches.comp tch_canStart (by decide) ?_
    refine Touches.comp tch_loopStart (by decide) ?_
    refine Touches.comp tch_excStart (by decide) ?_
    refine Touches.comp tch_startUnits (by decide) ?_
    refine Touches.comp tch_unifiedFirst (by decide) ?_
    exact Touches.refl _ _
  · refine Touches.comp tch_armSafe (by decide) ?_
    exact h0

theorem tch_sealNow {s} : Touches (1206346964943) s (@State.sealNow s) := by
  unfold State.sealNow
  try dsimp only
  refine Touches.comp tch_startBlocks (by decide) ?_
  refine Touches.comp tch_startTimes (by decide) ?_
  refine Touches.comp tch_post (by decide) ?_
  refine Touches.comp tch_setF (by decide) ?_
  refine Touches.comp tch_setF (by decide) ?_
  refine Touches.comp tch_setF (by decide) ?_
  refine Touches.comp tch_setF (by decide) ?_
  refine Touches.comp tch_setF (by decide) ?_
  refine Touches.comp tch_setB (by decide) ?_
  refine Touches.upd_clk (by decide) ?_
  exact Touches.refl _ _

theorem tch_sendResult {s a1} : Touches (1133871431681) s (@State.sendResult s a1) := by
  unfold State.sendResult
  try dsimp only
  refine Touches.comp tch_transmit (by decide) ?_
  exact Touches.refl _ _

theorem tch_sendVerify {s a1 a2 a3} : Touches (1133871431681) s (@State.sendVerify s a1 a2 a3) := by
  unfold State.sendVerify
  try dsimp only
  refine Touches.foldl ?_ (fun _ _ h0 => ?_)
  · exact Touches.refl _ _
  · refine Touches.comp tch_transmit (by decide) ?_
    exact h0

theorem tch_sentLate {s a1} : Touches (66561) s (@State.sentLate s a1) := by
  unfold State.sentLate
  try dsimp only
  refine Touches.comp tch_raise (by decide) ?_
  refine Touches.comp tch_incF (by decide) ?_
  exact Touches.refl _ _

theorem tch_serOutcome {s a1 a2} : Touches (34389197217) s (@State.serOutcome s a1 a2) := by
  unfold State.serOutcome
  try dsimp only
  refine Touches.ite ?_ ?_
  · refine Touches.doIf ?_ (fun _ h0 => ?_)
    · refine Touches.comp tch_setPi (by decide) ?_
      exact Touches.refl _ _
    · refine Touches.comp tch_lossCause (by decide) ?_
      exact h0
  · refine Touches.comp tch_setPi (by decide) ?_
    exact Touches.refl _ _

theorem tch_serRecord {s a1 a2 a3} : Touches (1133875560448) s (@State.serRecord s a1 a2 a3) := by
  unfold State.serRecord
  try dsimp only
  refine Touches.comp tch_sendPos (by decide) ?_
  refine Touches.comp tch_setPi (by decide) ?_
  exact Touches.refl _ _

theorem tch_serStop {s a1 a2} : Touches (34363932672) s (@State.serStop s a1 a2) := by
  unfold State.serStop
  try dsimp only
  refine Touches.comp tch_emit (by decide) ?_
  refine Touches.comp tch_setPi (by decide) ?_
  exact Touches.refl _ _

theorem tch_serTimeout {s a1 a2} : Touches (34389197217) s (@State.serTimeout s a1 a2) := by
  unfold State.serTimeout
  try dsimp only
  refine Touches.comp tch_serOutcome (by decide) ?_
  refine Touches.comp tch_cond (by decide) ?_
  refine Touches.comp tch_serStop (by decide) ?_
  exact Touches.refl _ _

theorem tch_serialEnd {s a1 a2 a3 a4 a5 a6 a7} : Touches (1133900824993) s (@State.serialEnd s a1 a2 a3 a4 a5 a6 a7) := by
  unfold State.serialEnd
  try dsimp only
  refine Touches.ite ?_ ?_
  · refine Touches.comp tch_serRecord (by decide) ?_
    refine Touches.comp tch_serOutcome (by decide) ?_
    refine Touches.doIf ?_ (fun _ h0 => ?_)
    · refine Touches.doIf ?_ (fun _ h0 => ?_)
      · refine Touches.doIf ?_ (fun _ h0 => ?_)
        · refine Touches.comp tch_serStop (by decide) ?_
          exact Touches.refl _ _
        · refine Touches.comp tch_cond (by decide) ?_
          exact h0
      · refine Touches.comp tch_lossCause (by decide) ?_
        refine Touches.comp tch_cond (by decide) ?_
        exact h0
    · refine Touches.comp tch_cond (by decide) ?_
      exact h0
  · refine Touches.comp tch_serRecord (by decide) ?_
    refine Touches.comp tch_serOutcome (by decide) ?_
    refine Touches.doIf ?_ (fun _ h0 => ?_)
    · refine Touches.comp tch_serStop (by decide) ?_
      exact Touches.refl _ _
    · refine Touches.comp tch_cond (by decide) ?_
      exact h0

theorem tch_serveLog {s a1 a2 a3 a4 a5 a6} : Touches (34494021641) s (@State.serveLog s a1 a2 a3 a4 a5 a6) := by
  unfold State.serveLog
  try dsimp only
  refine Touches.ite ?_ ?_
  · refine Touches.comp tch_fin (by decide) ?_
    exact Touches.refl _ _
  · refine Touches.comp tch_fin (by decide) ?_
    refine Touches.doIf ?_ (fun _ h0 => ?_)
    · exact Touches.refl _ _
    · refine Touches.comp tch_emit (by decide) ?_
      exact h0

theorem tch_servo {s a1} : Touches (1342247937) s (@State.servo s a1) := by
  unfold State.servo
  try dsimp only
  refine Touches.comp tch_setFreq (by decide) ?_
  refine Touches.doIf ?_ (fun _ h0 => ?_)
  · refine Touches.upd_net (by decide) ?_
    exact Touches.refl _ _
  · refine Touches.upd_net (by decide) ?_
    exact h0

theorem tch_setCmd {s a1} : Touches (8388608) s (@State.setCmd s a1) := by
  unfold State.setCmd
  try dsimp only
  refine Touches.upd_pwm rfl (by decide) ?_
  exact Touches.refl _ _

theorem tch_setSd {s a1 a2} : Touches (2097152) s (@State.setSd s a1 a2) := by
  unfold State.setSd
  try dsimp only
  refine Touches.upd_meas (by decide) ?_
  exact Touches.refl _ _

theorem tch_setStuck {s a1} : Touches (16) s (@State.setStuck s a1) := by
  unfold State.setStuck
  try dsimp only
  refine Touches.comp tch_setB (by decide) ?_
  refine Touches.ite ?_ ?_
  · refine Touches.comp tch_setBitF (by decide) ?_
    exact Touches.refl _ _
  · refine Touches.comp tch_setBitF (by decide) ?_
    exact Touches.refl _ _

theorem tch_showInterval {s a1 a2} : Touches (32768) s (@State.showInterval s a1 a2) := by
  unfold State.showInterval
  try dsimp only
  split
  · refine Touches.comp tch_setF (by decide) ?_
    exact Touches.refl _ _
  · exact Touches.refl _ _

theorem tch_sinDemand {s a1} : Touches (512) s (@State.sinDemand s a1) := by
  unfold State.sinDemand
  try dsimp only
  refine Touches.comp tch_setBitF (by decide) ?_
  exact Touches.refl _ _

theorem tch_sinChange {s a1 a2 a3} : Touches (67109376) s (@State.sinChange s a1 a2 a3) := by
  unfold State.sinChange
  try dsimp only
  refine Touches.comp tch_sinDemand (by decide) ?_
  refine Touches.doIf ?_ (fun _ h0 => ?_)
  · refine Touches.doIf ?_ (fun _ h0 => ?_)
    · refine Touches.upd_safe (by decide) ?_
      refine Touches.comp tch_setBitF (by first | decide | (split <;> decide) | exact blkOk _ (by decide) | (unfold lostF; split <;> decide) | (unfold refOkF; split <;> decide)) ?_
      exact Touches.refl _ _
    · refine Touches.upd_safe (by decide) ?_
      exact h0
  · refine Touches.upd_safe (by decide) ?_
    refine Touches.comp tch_setBitF (by decide) ?_
    exact h0

theorem tch_sqError {s a1 a2 a3} : Touches (65545) s (@State.sqError s a1 a2 a3) := by
  unfold State.sqError
  try dsimp only
  refine Touches.comp tch_post (by decide) ?_
  refine Touches.comp tch_setF (by decide) ?_
  refine Touches.comp tch_setF (by decide) ?_
  exact Touches.refl _ _

theorem tch_start {s a1} : Touches (51539607552) s (@State.start s a1) := by
  unfold State.start
  try dsimp only
  refine Touches.upd_now_out_fresh (by decide) ?_
  exact Touches.refl _ _

theorem tch_startCarrier {s a1 a2} : Touches (584124039297) s (@State.startCarrier s a1 a2) := by
  unfold State.startCarrier
  try dsimp only
  refine Touches.comp tch_advance (by decide) ?_
  refine Touches.comp tch_zeroEvent (by decide) ?_
  refine Touches.ite ?_ ?_
  · refine Touches.comp tch_post (by decide) ?_
    refine Touches.comp tch_setB (by decide) ?_
    refine Touches.comp tch_setCarrier (by decide) ?_
    refine Touches.foldl ?_ (fun _ _ h0 => ?_)
    · exact Touches.refl _ _
    · refine Touches.comp tch_setCarrier (by decide) ?_
      exact h0
  · refine Touches.comp tch_setCarrier (by decide) ?_
    refine Touches.foldl ?_ (fun _ _ h0 => ?_)
    · exact Touches.refl _ _
    · refine Touches.comp tch_setCarrier (by decide) ?_
      exact h0

theorem tch_stepCheck {s a1} : Touches (1342247937) s (@State.stepCheck s a1) := by
  unfold State.stepCheck
  try dsimp only
  refine Touches.ite ?_ ?_
  · exact Touches.refl _ _
  · refine Touches.ite ?_ ?_
    · refine Touches.doIf ?_ (fun _ h0 => ?_)
      · refine Touches.upd_net (by decide) ?_
        exact Touches.refl _ _
      · refine Touches.comp tch_enterTime (by decide) ?_
        exact h0
    · refine Touches.upd_net (by decide) ?_
      exact Touches.refl _ _

theorem tch_storeRefused {s a1 a2} : Touches (65537) s (@State.storeRefused s a1 a2) := by
  unfold State.storeRefused
  try dsimp only
  refine Touches.comp tch_post (by decide) ?_
  exact Touches.refl _ _

theorem tch_storeRead {s a1 a2 a3} : Touches (1133872488449) s (@State.storeRead s a1 a2 a3) := by
  unfold State.storeRead
  try dsimp only
  refine Touches.ite ?_ ?_
  · refine Touches.comp tch_send (by decide) ?_
    refine Touches.comp tch_storeRefused (by decide) ?_
    exact Touches.refl _ _
  · refine Touches.ite ?_ ?_
    · refine Touches.comp tch_send (by decide) ?_
      refine Touches.comp tch_post (by decide) ?_
      refine Touches.comp tch_uncorrectable (by decide) ?_
      refine Touches.comp tch_storeBad (by decide) ?_
      exact Touches.refl _ _
    · refine Touches.comp tch_send (by decide) ?_
      refine Touches.doIf ?_ (fun _ h0 => ?_)
      · exact Touches.refl _ _
      · refine Touches.comp tch_corrected (by decide) ?_
        exact h0

theorem tch_storeWrite {s a1 a2 a3 a4} : Touches (68720590849) s (@State.storeWrite s a1 a2 a3 a4) := by
  unfold State.storeWrite
  try dsimp only
  refine Touches.ite ?_ ?_
  · refine Touches.comp tch_storeRefused (by decide) ?_
    exact Touches.refl _ _
  · split
    · refine Touches.comp tch_putOps (by decide) ?_
      exact Touches.refl _ _
    · refine Touches.comp tch_putOps (by decide) ?_
      split
      · try dsimp only
        refine Touches.comp tch_draw (by decide) ?_
        exact Touches.refl _ _
      · try dsimp only
        exact Touches.refl _ _

theorem tch_streamPut {s a1 a2 a3} : Touches (34493956096) s (@State.streamPut s a1 a2 a3).1 := by
  unfold State.streamPut
  try dsimp only
  refine Touches.comp tch_setDesc (by decide) ?_
  refine Touches.comp tch_emit (by decide) ?_
  refine Touches.comp tch_emit (by decide) ?_
  exact Touches.refl _ _

theorem tch_streamRecord {s a1 a2 a3} : Touches (34493956096) s (@State.streamRecord s a1 a2 a3) := by
  unfold State.streamRecord
  try dsimp only
  split
  · exact Touches.refl _ _
  · refine Touches.ite ?_ ?_
    · refine Touches.comp tch_setDesc (by decide) ?_
      refine Touches.comp tch_streamPut (by decide) ?_
      split
      · try dsimp only
        exact Touches.refl _ _
      · try dsimp only
        refine Touches.comp tch_streamPut (by decide) ?_
        exact Touches.refl _ _
    · split
      · try dsimp only
        exact Touches.refl _ _
      · try dsimp only
        refine Touches.comp tch_streamPut (by decide) ?_
        exact Touches.refl _ _

theorem tch_suspectMig {s a1} : Touches (1136186695753) s (@State.suspectMig s a1) := by
  unfold State.suspectMig
  try dsimp only
  refine Touches.upd_rel (by decide) ?_
  refine Touches.comp tch_post (by decide) ?_
  refine Touches.comp tch_abortMig (by decide) ?_
  exact Touches.refl _ _

theorem tch_takeCanItem {s a1 a2 a3 a4} : Touches (1134542522377) s (@State.takeCanItem s a1 a2 a3 a4) := by
  unfold State.takeCanItem
  try dsimp only
  refine Touches.ite ?_ ?_
  · refine Touches.comp tch_post (by decide) ?_
    exact Touches.refl _ _
  · refine Touches.comp tch_canQueue (by decide) ?_
    exact Touches.refl _ _

theorem tch_takeItem {s a1 a2 a3 a4} : Touches (1134274085897) s (@State.takeItem s a1 a2 a3 a4) := by
  unfold State.takeItem
  try dsimp only
  refine Touches.ite ?_ ?_
  · refine Touches.comp tch_rxDrop (by decide) ?_
    exact Touches.refl _ _
  · refine Touches.ite ?_ ?_
    · refine Touches.comp tch_enqueue (by decide) ?_
      exact Touches.refl _ _
    · refine Touches.ite ?_ ?_
      · refine Touches.comp tch_frameOver (by decide) ?_
        exact Touches.refl _ _
      · refine Touches.comp tch_txKick (by decide) ?_
        refine Touches.comp tch_setPort (by decide) ?_
        exact Touches.refl _ _

theorem tch_takeSection {s a1} : ∀ t, @State.takeSection s a1 = .ok t → Touches (4547870719) s t := by
  intro t h
  unfold State.takeSection at h
  dsimp only at h
  split at h
  · cases h
  · split at h
    · cases h
    · rename_i u hu
      cases h; exact Touches.upd_cfg (by decide) ((tch_loadSection _ hu).mono (by decide))

theorem tch_takeSections {s a1} : ∀ t, @State.takeSections s a1 = .ok t → Touches (4547870719) s t := by
  induction a1 generalizing s with
  | nil => intro t h; cases h; exact Touches.refl _ _
  | cons x xs ih =>
    intro t h
    unfold State.takeSections at h
    split at h
    · cases h
    · rename_i u hu
      exact Touches.comp (ih t h) (by decide) ((tch_takeSection _ hu).mono (by decide))

theorem tch_testPassed {s a1} : Touches (2147557377) s (@State.testPassed s a1) := by
  unfold State.testPassed
  try dsimp only
  refine Touches.ite ?_ ?_
  · refine Touches.comp tch_showPods (by decide) ?_
    refine Touches.comp tch_post (by decide) ?_
    refine Touches.doIf ?_ (fun _ h0 => ?_)
    · refine Touches.comp tch_setGone (by decide) ?_
      exact Touches.refl _ _
    · refine Touches.comp tch_setBacking (by decide) ?_
      exact h0
  · split
    · refine Touches.upd_rel (by decide) ?_
      exact Touches.refl _ _
    · exact Touches.refl _ _

theorem tch_toAgent {s a1 a2 a3} : Touches (1134005649417) s (@State.toAgent s a1 a2 a3) := by
  unfold State.toAgent
  try dsimp only
  refine Touches.ite ?_ ?_
  · refine Touches.comp tch_fin (by decide) ?_
    exact Touches.refl _ _
  · refine Touches.ite ?_ ?_
    · refine Touches.comp tch_fin (by decide) ?_
      exact Touches.refl _ _
    · refine Touches.comp tch_sendItem (by decide) ?_
      refine Touches.comp tch_atHandler (by decide) ?_
      exact Touches.refl _ _

theorem tch_toFilter {s a1 a2 a3 a4 a5} : Touches (1134139867137) s (@State.toFilter s a1 a2 a3 a4 a5) := by
  unfold State.toFilter
  try dsimp only
  refine Touches.comp tch_frameItem (by decide) ?_
  refine Touches.upd_net (by decide) ?_
  exact Touches.refl _ _

theorem tch_tokCfg {s a1 a2} : Touches (1683686539651) s (@State.tokCfg s a1 a2) := by
  unfold State.tokCfg
  try dsimp only
  refine Touches.ite ?_ ?_
  · refine Touches.comp tch_refuse (by decide) ?_
    exact Touches.refl _ _
  · refine Touches.ite ?_ ?_
    · refine Touches.comp tch_grantDue (by decide) ?_
      refine Touches.comp tch_setWord (by decide) ?_
      exact Touches.refl _ _
    · refine Touches.ite ?_ ?_
      · refine Touches.doIf ?_ (fun _ h0 => ?_)
        · refine Touches.comp tch_setF (by decide) ?_
          refine Touches.comp tch_setWord (by decide) ?_
          exact Touches.refl _ _
        · refine Touches.upd_pwr_keep rfl (by decide) ?_
          exact h0
      · refine Touches.comp tch_setWord (by decide) ?_
        exact Touches.refl _ _

theorem tch_triggersNtev {s a1 a2} : Touches (1136186695753) s (@State.triggersNtev s a1 a2) := by
  unfold State.triggersNtev
  try dsimp only
  refine Touches.foldl ?_ (fun _ _ h0 => ?_)
  · exact Touches.refl _ _
  · refine Touches.doIf ?_ (fun _ h1 => ?_)
    · exact h0
    · refine Touches.comp tch_ctxTrigger (by decide) ?_
      exact h1

theorem tch_unitCode {s a1 a2 a3 a4} : Touches (68719476736) s (@State.unitCode s a1 a2 a3 a4).1 := by
  unfold State.unitCode
  try dsimp only
  split
  · try dsimp only
    refine Touches.comp tch_draw (by decide) ?_
    exact Touches.refl _ _
  · try dsimp only
    exact Touches.refl _ _

theorem tch_vgdDown {s} : Touches (34385002881) s (@State.vgdDown s) := by
  unfold State.vgdDown
  try dsimp only
  refine Touches.comp tch_settle (by decide) ?_
  refine Touches.foldl ?_ (fun _ _ h0 => ?_)
  · refine Touches.comp tch_raise (by decide) ?_
    refine Touches.comp tch_setB (by decide) ?_
    refine Touches.foldl ?_ (fun _ _ h0 => ?_)
    · exact Touches.refl _ _
    · refine Touches.foldl ?_ (fun _ _ h1 => ?_)
      · refine Touches.foldl ?_ (fun _ _ h1 => ?_)
        · refine Touches.comp tch_advance (by decide) ?_
          exact h0
        · refine Touches.comp tch_setLeg (by decide) ?_
          exact h1
      · refine Touches.comp tch_setChan (by decide) ?_
        exact h1
  · refine Touches.comp tch_settlePins (by decide) ?_
    exact h0

theorem tch_wakeOpen {s} : Touches (1683686539649) s (@State.wakeOpen s) := by
  unfold State.wakeOpen
  try dsimp only
  refine Touches.ite ?_ ?_
  · refine Touches.comp tch_openBucket (by decide) ?_
    refine Touches.comp tch_post (by decide) ?_
    refine Touches.comp tch_setB (by decide) ?_
    exact Touches.refl _ _
  · exact Touches.refl _ _

theorem tch_wdExpire {s a1} : Touches (584140816769) s (@State.wdExpire s a1) := by
  unfold State.wdExpire
  try dsimp only
  split
  · exact Touches.refl _ _
  · refine Touches.ite ?_ ?_
    · refine Touches.comp tch_settle (by decide) ?_
      refine Touches.comp tch_post (by decide) ?_
      refine Touches.comp tch_setCarrier (by decide) ?_
      exact Touches.refl _ _
    · exact Touches.refl _ _

theorem tch_withFetchWord {s a1 a2} : Touches (137438953472) s (@State.withFetchWord s a1 a2) := by
  exact Touches.refl _ _

theorem tch_withdraw {s a1} : Touches (196611) s (@State.withdraw s a1) := by
  unfold State.withdraw
  try dsimp only
  refine Touches.ite ?_ ?_
  · refine Touches.comp tch_post (by decide) ?_
    refine Touches.comp tch_setB (by decide) ?_
    refine Touches.upd_husk (by decide) ?_
    refine Touches.comp tch_setB (by decide) ?_
    exact Touches.refl _ _
  · refine Touches.upd_husk (by decide) ?_
    refine Touches.comp tch_setB (by decide) ?_
    exact Touches.refl _ _

theorem tch_writeEvent {s} : Touches (309371928577) s (@State.writeEvent s) := by
  unfold State.writeEvent
  split
  · rename_i q qs hq
    refine Touches.comp tch_logEntry (by decide) ?_
    refine Touches.doIf ?_ (fun _ h1 => Touches.comp tch_logLost (by decide) h1)
    refine Touches.upd_queue (fun h => SysSt.ordered_queue h ?_) (by decide) (Touches.refl _ _)
    have := h.1; rw [hq] at this; exact Nat.le_of_succ_le this
  · exact Touches.refl _ _

theorem tch_writeJob {s} : Touches (4294967300) s (@State.writeJob s) := by
  unfold State.writeJob
  try dsimp only
  split
  · refine Touches.comp tch_spoilSlot (by decide) ?_
    exact Touches.refl _ _
  · exact Touches.refl _ _

theorem tch_writeReg {s a1 a2 a3 a4} : Touches (1135377383423) s (@State.writeReg s a1 a2 a3 a4) := by
  unfold State.writeReg
  try dsimp only
  split
  · refine Touches.comp tch_netWrite (by decide) ?_
    exact Touches.refl _ _
  · refine Touches.ite ?_ ?_
    · refine Touches.comp tch_ringCfg (by decide) ?_
      exact Touches.refl _ _
    · refine Touches.ite ?_ ?_
      · refine Touches.comp tch_ringCfg (by decide) ?_
        exact Touches.refl _ _
      · refine Touches.comp tch_plainWrite (by decide) ?_
        exact Touches.refl _ _
  · refine Touches.comp tch_plainWrite (by decide) ?_
    exact Touches.refl _ _

theorem tch_zeroCross {s a1} : Touches (652860293505) s (@State.zeroCross s a1) := by
  unfold State.zeroCross
  try dsimp only
  refine Touches.ite ?_ ?_
  · refine Touches.comp tch_scheduleComm (by decide) ?_
    refine Touches.comp tch_commInterval (by decide) ?_
    refine Touches.doIf ?_ (fun _ h0 => ?_)
    · refine Touches.comp tch_setBc (by decide) ?_
      refine Touches.comp tch_showInterval (by decide) ?_
      exact Touches.refl _ _
    · refine Touches.comp tch_bcClose (by decide) ?_
      exact h0
  · refine Touches.doIf ?_ (fun _ h0 => ?_)
    · refine Touches.comp tch_setBc (by decide) ?_
      refine Touches.comp tch_showInterval (by decide) ?_
      exact Touches.refl _ _
    · refine Touches.comp tch_bcClose (by decide) ?_
      exact h0

theorem tch_execTapInstruction {a0 a1 a2 s} : TouchesR (42949672960) (s.start a0) (@execTapInstruction a0 a1 a2 s) := by
  unfold execTapInstruction
  try dsimp only
  refine TouchesR.next ?_
  refine Touches.ite ?_ ?_
  · refine Touches.comp tch_drivePins (by decide) ?_
    refine Touches.upd_tap (fun _ => tapSelects_confined _ _ _) (by decide) ?_
    exact Touches.refl _ _
  · refine Touches.doIf ?_ (fun _ h0 => ?_)
    · refine Touches.upd_tap (fun _ => tapSelects_confined _ _ _) (by decide) ?_
      exact Touches.refl _ _
    · refine Touches.comp tch_drivePins (by decide) ?_
      exact h0

theorem tch_execMkaPeerTimeout {a0 a1 a2 s} : TouchesR (1134274085897) (s.start a0) (@execMkaPeerTimeout a0 a1 a2 s) := by
  unfold execMkaPeerTimeout
  try dsimp only
  refine TouchesR.next ?_
  refine Touches.doIf ?_ (fun _ h0 => ?_)
  · exact Touches.refl _ _
  · split
    · refine Touches.comp tch_txKick (by decide) ?_
      refine Touches.ite ?_ ?_
      · refine Touches.comp tch_installSak (by decide) ?_
        refine Touches.comp tch_mkaSend (by decide) ?_
        refine Touches.comp tch_setPort (by decide) ?_
        exact h0
      · refine Touches.comp tch_loseSa (by decide) ?_
        refine Touches.comp tch_mkaSend (by decide) ?_
        refine Touches.comp tch_setPort (by decide) ?_
        exact h0
    · exact h0

theorem tch_execProtocolExceptionEnd {a0 a1 s} : TouchesR (536872960) (s.start a0) (@execProtocolExceptionEnd a0 a1 s) := by
  unfold execProtocolExceptionEnd
  try dsimp only
  refine TouchesR.next ?_
  refine Touches.doIf ?_ (fun _ h0 => ?_)
  · exact Touches.refl _ _
  · refine Touches.comp tch_setCanCtl (by decide) ?_
    refine Touches.comp tch_setB (by decide) ?_
    exact h0

theorem tch_execFrameTransmitEnd {a0 a1 s} : TouchesR (1134274085897) (s.start a0) (@execFrameTransmitEnd a0 a1 s) := by
  unfold execFrameTransmitEnd
  try dsimp only
  refine TouchesR.next ?_
  split
  · refine Touches.doIf ?_ (fun _ h0 => ?_)
    · exact Touches.refl _ _
    · refine Touches.comp tch_txKick (by decide) ?_
      refine Touches.ite ?_ ?_
      · refine Touches.comp tch_ptpSend (by decide) ?_
        refine Touches.comp tch_setPort (by decide) ?_
        exact h0
      · refine Touches.ite ?_ ?_
        · refine Touches.comp tch_ptpSend (by decide) ?_
          refine Touches.comp tch_setPort (by decide) ?_
          exact h0
        · refine Touches.comp tch_setPort (by decide) ?_
          exact h0
  · exact Touches.refl _ _

theorem tch_execPtpMessageInterval {a0 a1 a2 s} : TouchesR (1134274085897) (s.start a0) (@execPtpMessageInterval a0 a1 a2 s) := by
  unfold execPtpMessageInterval
  try dsimp only
  refine TouchesR.next ?_
  refine Touches.doIf ?_ (fun _ h0 => ?_)
  · refine Touches.doIf ?_ (fun _ h0 => ?_)
    · exact Touches.refl _ _
    · refine Touches.comp tch_setPs (by decide) ?_
      exact h0
  · refine Touches.comp tch_ptpSend (by decide) ?_
    exact h0

theorem tch_execMsixVectorUnmask {a0 a1 a2 s} : TouchesR (34493956096) (s.start a0) (@execMsixVectorUnmask a0 a1 a2 s) := by
  unfold execMsixVectorUnmask
  try dsimp only
  refine TouchesR.next ?_
  refine Touches.doIf ?_ (fun _ h0 => ?_)
  · exact Touches.refl _ _
  · refine Touches.doIf ?_ (fun _ h1 => ?_)
    · refine Touches.upd_hostq (by decide) ?_
      exact h0
    · refine Touches.comp tch_emit (by decide) ?_
      exact h1

theorem tch_execPerstNRelease {a0 s} : TouchesR (134217728) (s.start a0) (@execPerstNRelease a0 s) := by
  unfold execPerstNRelease
  try dsimp only
  refine TouchesR.next ?_
  refine Touches.doIf ?_ (fun _ h0 => ?_)
  · exact Touches.refl _ _
  · refine Touches.upd_hostq (by decide) ?_
    exact h0

theorem tch_execBusMasterEnable {a0 a1 s} : TouchesR (134217728) (s.start a0) (@execBusMasterEnable a0 a1 s) := by
  unfold execBusMasterEnable
  try dsimp only
  refine TouchesR.next ?_
  refine Touches.doIf ?_ (fun _ h0 => ?_)
  · exact Touches.refl _ _
  · refine Touches.upd_hostq (by decide) ?_
    exact h0

theorem tch_execVdsBlankedRising {a0 a1 a2 a3 s} : TouchesR (34368225409) (s.start a0) (@execVdsBlankedRising a0 a1 a2 a3 s) := by
  unfold execVdsBlankedRising
  try dsimp only
  refine TouchesR.next ?_
  refine Touches.doIf ?_ (fun _ h0 => ?_)
  · exact Touches.refl _ _
  · refine Touches.doIf ?_ (fun _ h1 => ?_)
    · refine Touches.comp tch_advance (by decide) ?_
      exact h0
    · refine Touches.comp tch_incF (by decide) ?_
      exact h1

theorem tch_execCmpRelease {a0 a1 a2 a3 a4 s} : TouchesR (34385002881) (s.start a0) (@execCmpRelease a0 a1 a2 a3 a4 s) := by
  unfold execCmpRelease
  try dsimp only
  refine TouchesR.next ?_
  refine Touches.doIf ?_ (fun _ h0 => ?_)
  · exact Touches.refl _ _
  · refine Touches.comp tch_settle (by decide) ?_
    refine Touches.comp tch_setBitF (by decide) ?_
    exact h0

theorem tch_execReferenceEdge {a0 a1 s} : TouchesR (34385002881) (s.start a0) (@execReferenceEdge a0 a1 s) := by
  unfold execReferenceEdge
  try dsimp only
  refine TouchesR.next ?_
  refine Touches.ite ?_ ?_
  · refine Touches.comp tch_settle (by decide) ?_
    refine Touches.comp tch_advance (by decide) ?_
    exact Touches.refl _ _
  · exact Touches.refl _ _

end Sys2Proof.Machine
end

