-- ==== Sys2Proof/Laws/Frame4.lean ====
section
/-! SUPPORT. What each operation of the model touches (generated by rule; part 4). -/
set_option Elab.async false

namespace Sys2Proof.Machine

theorem tch_execEventWrite {a0 s} : TouchesR (309371928577) (s.start a0) (@execEventWrite a0 s) := by
  unfold execEventWrite
  try dsimp only
  refine TouchesR.next ?_
  refine Touches.doIf ?_ (fun _ h0 => ?_)
  · exact Touches.refl _ _
  · refine Touches.comp tch_writeEvent (by decide) ?_
    exact h0

theorem tch_execPwrTokCfg {a0 a1 a2 s} : TouchesR (1683686670723) (s.start a0) (@execPwrTokCfg a0 a1 a2 s) := by
  unfold execPwrTokCfg
  try dsimp only
  split
  · refine TouchesR.next ?_
    refine Touches.compEq tch_writeAt (by assumption) (by decide) ?_
    exact Touches.refl _ _
  · refine TouchesR.next ?_
    refine Touches.comp tch_tokCfg (by decide) ?_
    refine Touches.compEq tch_writeAt (by assumption) (by decide) ?_
    exact Touches.refl _ _

theorem tch_execTokenRefill {a0 s} : TouchesR (1683686539649) (s.start a0) (@execTokenRefill a0 s) := by
  unfold execTokenRefill
  try dsimp only
  refine TouchesR.next ?_
  split
  · refine Touches.ite ?_ ?_
    · refine Touches.comp tch_grantDue (by decide) ?_
      refine Touches.upd_pwr_keep rfl (by decide) ?_
      refine Touches.comp tch_setF (by decide) ?_
      exact Touches.refl _ _
    · exact Touches.refl _ _
  · exact Touches.refl _ _

theorem tch_execTokenWithdraw {a0 a1 s} : TouchesR (1683686539649) (s.start a0) (@execTokenWithdraw a0 a1 s) := by
  unfold execTokenWithdraw
  try dsimp only
  refine TouchesR.next ?_
  refine Touches.doIf ?_ (fun _ h0 => ?_)
  · exact Touches.refl _ _
  · refine Touches.comp tch_tokenWithdraw (by decide) ?_
    exact h0

theorem tch_execTokenRequest {a0 a1 s} : TouchesR (1683686539649) (s.start a0) (@execTokenRequest a0 a1 s) := by
  unfold execTokenRequest
  try dsimp only
  refine TouchesR.next ?_
  refine Touches.doIf ?_ (fun _ h0 => ?_)
  · exact Touches.refl _ _
  · refine Touches.comp tch_tokenRequest (by decide) ?_
    exact h0

theorem tch_execLifeCount {a0 a1 s} : TouchesR (2147557377) (s.start a0) (@execLifeCount a0 a1 s) := by
  unfold execLifeCount
  try dsimp only
  refine TouchesR.next ?_
  split
  · exact Touches.refl _ _
  · refine Touches.doIf ?_ (fun _ h0 => ?_)
    · exact Touches.refl _ _
    · refine Touches.doIf ?_ (fun _ h1 => ?_)
      · refine Touches.comp tch_setF (by decide) ?_
        refine Touches.comp tch_setF (by decide) ?_
        refine Touches.comp tch_setF (by decide) ?_
        refine Touches.upd_rel (by decide) ?_
        exact h0
      · refine Touches.comp tch_post (by decide) ?_
        exact h1

theorem tch_execAgeMeasure {a0 a1 s} : TouchesR (2147557377) (s.start a0) (@execAgeMeasure a0 a1 s) := by
  unfold execAgeMeasure
  try dsimp only
  refine TouchesR.next ?_
  refine Touches.doIf ?_ (fun _ h0 => ?_)
  · exact Touches.refl _ _
  · refine Touches.foldl ?_ (fun _ _ h1 => ?_)
    · refine Touches.foldl ?_ (fun _ _ h1 => ?_)
      · refine Touches.upd_rel (by decide) ?_
        exact h0
      · refine Touches.comp tch_setF (by decide) ?_
        exact h1
    · refine Touches.ite ?_ ?_
      · refine Touches.comp tch_raise (by decide) ?_
        refine Touches.ite ?_ ?_
        · refine Touches.comp tch_raise (by decide) ?_
          refine Touches.doIf ?_ (fun _ h2 => ?_)
          · refine Touches.comp tch_setF (by decide) ?_
            exact h1
          · refine Touches.comp tch_setB (by decide) ?_
            exact h2
        · refine Touches.comp tch_setB (by decide) ?_
          refine Touches.comp tch_setF (by decide) ?_
          exact h1
      · refine Touches.comp tch_setB (by decide) ?_
        refine Touches.ite ?_ ?_
        · refine Touches.comp tch_raise (by decide) ?_
          refine Touches.doIf ?_ (fun _ h2 => ?_)
          · refine Touches.comp tch_setF (by decide) ?_
            exact h1
          · refine Touches.comp tch_setB (by decide) ?_
            exact h2
        · refine Touches.comp tch_setB (by decide) ?_
          refine Touches.comp tch_setF (by decide) ?_
          exact h1

theorem tch_execTest {a0 a1 a2 s} : TouchesR (2147688451) (s.start a0) (@execTest a0 a1 a2 s) := by
  unfold execTest
  try dsimp only
  refine TouchesR.next ?_
  refine Touches.doIf ?_ (fun _ h0 => ?_)
  · refine Touches.comp tch_actionWrite (by decide) ?_
    exact Touches.refl _ _
  · split
    · refine Touches.comp tch_setB (by decide) ?_
      refine Touches.comp tch_setF (by decide) ?_
      exact h0
    · refine Touches.upd_rel (by decide) ?_
      refine Touches.comp tch_setF (by decide) ?_
      exact h0

theorem tch_execKernelTestDone {a0 a1 a2 a3 a4 s} : TouchesR (1136280055801) (s.start a0) (@execKernelTestDone a0 a1 a2 a3 a4 s) := by
  unfold execKernelTestDone
  try dsimp only
  refine TouchesR.next ?_
  split
  · exact Touches.refl _ _
  · split
    · refine Touches.doIf ?_ (fun _ h0 => ?_)
      · exact Touches.refl _ _
      · refine Touches.comp tch_pairTested (by decide) ?_
        exact h0
    · refine Touches.doIf ?_ (fun _ h0 => ?_)
      · exact Touches.refl _ _
      · refine Touches.comp tch_endTest (by decide) ?_
        refine Touches.ite ?_ ?_
        · refine Touches.comp tch_testPassed (by decide) ?_
          exact h0
        · refine Touches.comp tch_mapOut (by decide) ?_
          refine Touches.comp tch_retire (by decide) ?_
          exact h0

theorem tch_execBackgroundTest {a0 s} : TouchesR (1136119587393) (s.start a0) (@execBackgroundTest a0 s) := by
  unfold execBackgroundTest
  try dsimp only
  refine TouchesR.next ?_
  refine Touches.doIf ?_ (fun _ h0 => ?_)
  · exact Touches.refl _ _
  · refine Touches.comp tch_nextTest (by decide) ?_
    exact h0

theorem tch_execRegisterCheck {a0 a1 s} : TouchesR (2147549185) (s.start a0) (@execRegisterCheck a0 a1 s) := by
  unfold execRegisterCheck
  try dsimp only
  refine TouchesR.next ?_
  refine Touches.doIf ?_ (fun _ h0 => ?_)
  · exact Touches.refl _ _
  · refine Touches.foldl ?_ (fun _ _ h1 => ?_)
    · refine Touches.upd_rel (by decide) ?_
      exact h0
    · split
      · refine Touches.doIf ?_ (fun _ h2 => ?_)
        · exact h1
        · refine Touches.comp tch_post (by decide) ?_
          exact h2
      · exact h1

theorem tch_execScrubRead {a0 a1 a2 a3 a4 a5 a6 a7 s} : TouchesR (1136280055801) (s.start a0) (@execScrubRead a0 a1 a2 a3 a4 a5 a6 a7 s) := by
  unfold execScrubRead
  try dsimp only
  refine TouchesR.next ?_
  refine Touches.doIf ?_ (fun _ h0 => ?_)
  · exact Touches.refl _ _
  · refine Touches.ite ?_ ?_
    · refine Touches.upd_rel (by decide) ?_
      refine Touches.doIf ?_ (fun _ h1 => ?_)
      · exact h0
      · refine Touches.comp tch_corrected (by decide) ?_
        exact h1
    · refine Touches.ite ?_ ?_
      · refine Touches.comp tch_scrubFixed (by decide) ?_
        exact h0
      · refine Touches.comp tch_scrubBad (by decide) ?_
        exact h0

theorem tch_execUeKernel {a0 a1 a2 a3 a4 s} : TouchesR (1136280055801) (s.start a0) (@execUeKernel a0 a1 a2 a3 a4 s) := by
  unfold execUeKernel
  try dsimp only
  refine TouchesR.next ?_
  refine Touches.doIf ?_ (fun _ h0 => ?_)
  · exact Touches.refl _ _
  · refine Touches.comp tch_kernelWord (by decide) ?_
    exact h0

theorem tch_execPodClkChanged {a0 s} : TouchesR (1073811457) (s.start a0) (@execPodClkChanged a0 s) := by
  unfold execPodClkChanged
  try dsimp only
  refine TouchesR.next ?_
  split
  · refine Touches.comp tch_post (by decide) ?_
    refine Touches.comp tch_setB (by decide) ?_
    refine Touches.comp tch_setF (by decide) ?_
    refine Touches.comp tch_setB (by decide) ?_
    refine Touches.comp tch_setPodClk (by decide) ?_
    refine Touches.upd_clk (by decide) ?_
    exact Touches.refl _ _
  · exact Touches.refl _ _

theorem tch_execGo {a0 a1 a2 s} : TouchesR (1073942531) (s.start a0) (@execGo a0 a1 a2 s) := by
  unfold execGo
  try dsimp only
  refine TouchesR.next ?_
  refine Touches.doIf ?_ (fun _ h0 => ?_)
  · refine Touches.comp tch_actionWrite (by decide) ?_
    exact Touches.refl _ _
  · refine Touches.comp tch_doGo (by decide) ?_
    exact h0

theorem tch_execSyncEdge {a0 s} : TouchesR (1073745920) (s.start a0) (@execSyncEdge a0 s) := by
  unfold execSyncEdge
  try dsimp only
  refine TouchesR.next ?_
  refine Touches.ite ?_ ?_
  · exact Touches.refl _ _
  · split
    · refine Touches.comp tch_setB (by decide) ?_
      refine Touches.comp tch_setF (by decide) ?_
      exact Touches.refl _ _
    · refine Touches.doIf ?_ (fun _ h0 => ?_)
      · exact Touches.refl _ _
      · refine Touches.upd_clk (by decide) ?_
        exact h0

theorem tch_execSyncTimeout {a0 s} : TouchesR (1206346964943) (s.start a0) (@execSyncTimeout a0 s) := by
  unfold execSyncTimeout
  try dsimp only
  refine TouchesR.next ?_
  split
  · refine Touches.doIf ?_ (fun _ h0 => ?_)
    · exact Touches.refl _ _
    · refine Touches.comp tch_sealNow (by decide) ?_
      refine Touches.comp tch_post (by decide) ?_
      refine Touches.comp tch_setB (by decide) ?_
      exact h0
  · exact Touches.refl _ _

theorem tch_execSyncDone {a0 s} : TouchesR (1206346964943) (s.start a0) (@execSyncDone a0 s) := by
  unfold execSyncDone
  try dsimp only
  refine TouchesR.next ?_
  split
  · refine Touches.doIf ?_ (fun _ h0 => ?_)
    · exact Touches.refl _ _
    · refine Touches.comp tch_sealNow (by decide) ?_
      refine Touches.comp tch_post (by decide) ?_
      refine Touches.comp tch_setB (by decide) ?_
      exact h0
  · exact Touches.refl _ _

theorem tch_execBandCopy {a0 a1 a2 a3 s} : TouchesR (1073745920) (s.start a0) (@execBandCopy a0 a1 a2 a3 s) := by
  unfold execBandCopy
  try dsimp only
  refine TouchesR.next ?_
  refine Touches.doIf ?_ (fun _ h0 => ?_)
  · exact Touches.refl _ _
  · refine Touches.comp tch_setPll (by decide) ?_
    refine Touches.foldl ?_ (fun _ _ h1 => ?_)
    · exact h0
    · refine Touches.comp tch_setF (by decide) ?_
      exact h1

theorem tch_execPllRelocked {a0 a1 a2 s} : TouchesR (69633) (s.start a0) (@execPllRelocked a0 a1 a2 s) := by
  unfold execPllRelocked
  try dsimp only
  refine TouchesR.next ?_
  refine Touches.doIf ?_ (fun _ h0 => ?_)
  · exact Touches.refl _ _
  · refine Touches.comp tch_post (by decide) ?_
    refine Touches.comp tch_setF (by decide) ?_
    exact h0

theorem tch_execSlotHop {a0 a1 s} : TouchesR (1073811457) (s.start a0) (@execSlotHop a0 a1 s) := by
  unfold execSlotHop
  try dsimp only
  refine TouchesR.next ?_
  split
  · refine Touches.doIf ?_ (fun _ h0 => ?_)
    · exact Touches.refl _ _
    · refine Touches.comp tch_endHop (by decide) ?_
      exact h0
  · exact Touches.refl _ _

theorem tch_execBackupHop {a0 a1 s} : TouchesR (1073811457) (s.start a0) (@execBackupHop a0 a1 s) := by
  unfold execBackupHop
  try dsimp only
  refine TouchesR.next ?_
  refine Touches.doIf ?_ (fun _ h0 => ?_)
  · exact Touches.refl _ _
  · refine Touches.comp tch_beginHop (by decide) ?_
    exact h0

theorem tch_execLockLost {a0 a1 a2 s} : TouchesR (1073811457) (s.start a0) (@execLockLost a0 a1 a2 s) := by
  unfold execLockLost
  try dsimp only
  refine TouchesR.next ?_
  refine Touches.doIf ?_ (fun _ h0 => ?_)
  · exact Touches.refl _ _
  · refine Touches.comp tch_enterRelock (by decide) ?_
    refine Touches.comp tch_enterHold (by decide) ?_
    refine Touches.comp tch_post (by decide) ?_
    refine Touches.comp tch_setB (by decide) ?_
    exact h0

theorem tch_execRefQualified {a0 a1 a2 s} : TouchesR (1967094759423) (s.start a0) (@execRefQualified a0 a1 a2 s) := by
  unfold execRefQualified
  try dsimp only
  refine TouchesR.next ?_
  refine Touches.doIf ?_ (fun _ h0 => ?_)
  · exact Touches.refl _ _
  · refine Touches.doIf ?_ (fun _ h1 => ?_)
    · refine Touches.ite ?_ ?_
      · split
        · refine Touches.comp tch_bootOn (by decide) ?_
          refine Touches.comp tch_bootClocks (by decide) ?_
          refine Touches.upd_clk (by decide) ?_
          refine Touches.doIf ?_ (fun _ h1 => ?_)
          · refine Touches.comp tch_setB (by first | decide | (split <;> decide) | exact blkOk _ (by decide) | (unfold lostF; split <;> decide) | (unfold refOkF; split <;> decide)) ?_
            exact h0
          · refine Touches.comp tch_post (by decide) ?_
            exact h1
        · refine Touches.comp tch_bootClocks (by decide) ?_
          refine Touches.upd_clk (by decide) ?_
          refine Touches.doIf ?_ (fun _ h1 => ?_)
          · refine Touches.comp tch_setB (by first | decide | (split <;> decide) | exact blkOk _ (by decide) | (unfold lostF; split <;> decide) | (unfold refOkF; split <;> decide)) ?_
            exact h0
          · refine Touches.comp tch_post (by decide) ?_
            exact h1
      · refine Touches.upd_clk (by decide) ?_
        refine Touches.doIf ?_ (fun _ h1 => ?_)
        · refine Touches.comp tch_setB (by first | decide | (split <;> decide) | exact blkOk _ (by decide) | (unfold lostF; split <;> decide) | (unfold refOkF; split <;> decide)) ?_
          exact h0
        · refine Touches.comp tch_post (by decide) ?_
          exact h1
    · refine Touches.foldl ?_ (fun _ _ h2 => ?_)
      · exact h1
      · refine Touches.comp tch_refBack (by decide) ?_
        exact h2

theorem tch_execRefLost {a0 a1 a2 a3 s} : TouchesR (1073811457) (s.start a0) (@execRefLost a0 a1 a2 a3 s) := by
  unfold execRefLost
  try dsimp only
  refine TouchesR.next ?_
  refine Touches.doIf ?_ (fun _ h0 => ?_)
  · exact Touches.refl _ _
  · refine Touches.foldl ?_ (fun _ _ h1 => ?_)
    · refine Touches.upd_clk (by decide) ?_
      refine Touches.comp tch_post (by decide) ?_
      refine Touches.comp tch_setB (by first | decide | (split <;> decide) | exact blkOk _ (by decide) | (unfold lostF; split <;> decide) | (unfold refOkF; split <;> decide)) ?_
      exact h0
    · refine Touches.doIf ?_ (fun _ h2 => ?_)
      · exact h1
      · refine Touches.comp tch_enterHold (by decide) ?_
        exact h2

theorem tch_execRefEn {a0 a1 a2 a3 s} : TouchesR (537069571) (s.start a0) (@execRefEn a0 a1 a2 a3 s) := by
  unfold execRefEn
  try dsimp only
  split
  · refine TouchesR.next ?_
    refine Touches.compEq tch_writeAt (by assumption) (by decide) ?_
    exact Touches.refl _ _
  · refine TouchesR.next ?_
    refine Touches.doIf ?_ (fun _ h0 => ?_)
    · refine Touches.compEq tch_writeAt (by assumption) (by decide) ?_
      exact Touches.refl _ _
    · refine Touches.comp tch_refSet (by decide) ?_
      exact h0

theorem tch_execCanObjectEnable {a0 a1 a2 a3 s} : TouchesR (1134542653451) (s.start a0) (@execCanObjectEnable a0 a1 a2 a3 s) := by
  unfold execCanObjectEnable
  try dsimp only
  split
  · refine TouchesR.next ?_
    refine Touches.compEq tch_writeAt (by assumption) (by decide) ?_
    exact Touches.refl _ _
  · refine TouchesR.next ?_
    refine Touches.doIf ?_ (fun _ h0 => ?_)
    · refine Touches.compEq tch_writeAt (by assumption) (by decide) ?_
      exact Touches.refl _ _
    · refine Touches.ite ?_ ?_
      · refine Touches.comp tch_setF (by decide) ?_
        refine Touches.comp tch_setF (by decide) ?_
        refine Touches.comp tch_setB (by decide) ?_
        refine Touches.comp tch_setB (by decide) ?_
        refine Touches.comp tch_setB (by decide) ?_
        exact h0
      · refine Touches.comp tch_failObj (by decide) ?_
        refine Touches.comp tch_setB (by decide) ?_
        exact h0

theorem tch_execReferenceInstant {a0 a1 s} : TouchesR (536938497) (s.start a0) (@execReferenceInstant a0 a1 s) := by
  unfold execReferenceInstant
  try dsimp only
  refine TouchesR.next ?_
  refine Touches.doIf ?_ (fun _ h0 => ?_)
  · exact Touches.refl _ _
  · refine Touches.comp tch_refInstant (by decide) ?_
    refine Touches.comp tch_setCanCtl (by decide) ?_
    exact h0

theorem tch_execRecovered {a0 a1 s} : TouchesR (67585) (s.start a0) (@execRecovered a0 a1 s) := by
  unfold execRecovered
  try dsimp only
  refine TouchesR.next ?_
  refine Touches.doIf ?_ (fun _ h0 => ?_)
  · exact Touches.refl _ _
  · refine Touches.comp tch_post (by decide) ?_
    refine Touches.comp tch_setF (by decide) ?_
    refine Touches.comp tch_setF (by decide) ?_
    refine Touches.comp tch_setF (by decide) ?_
    exact h0

theorem tch_execRecover {a0 a1 a2 a3 s} : TouchesR (198659) (s.start a0) (@execRecover a0 a1 a2 a3 s) := by
  unfold execRecover
  try dsimp only
  refine TouchesR.next ?_
  refine Touches.doIf ?_ (fun _ h0 => ?_)
  · refine Touches.comp tch_actionWrite (by decide) ?_
    exact Touches.refl _ _
  · refine Touches.ite ?_ ?_
    · refine Touches.comp tch_setBitF (by decide) ?_
      refine Touches.comp tch_setF (by decide) ?_
      exact h0
    · refine Touches.comp tch_post (by decide) ?_
      exact h0

theorem tch_execCanBusError {a0 a1 a2 a3 a4 a5 a6 a7 a8 s} : TouchesR (1134542522377) (s.start a0) (@execCanBusError a0 a1 a2 a3 a4 a5 a6 a7 a8 s) := by
  unfold execCanBusError
  try dsimp only
  refine TouchesR.next ?_
  refine Touches.doIf ?_ (fun _ h0 => ?_)
  · exact Touches.refl _ _
  · refine Touches.ite ?_ ?_
    · refine Touches.comp tch_raise (by decide) ?_
      refine Touches.comp tch_setB (by decide) ?_
      refine Touches.comp tch_attemptLost (by decide) ?_
      exact h0
    · refine Touches.doIf ?_ (fun _ h1 => ?_)
      · split
        · refine Touches.comp tch_attemptError (by decide) ?_
          refine Touches.comp tch_canTdc (by decide) ?_
          refine Touches.ite ?_ ?_
          · refine Touches.comp tch_setF (by decide) ?_
            exact h0
          · refine Touches.comp tch_setF (by decide) ?_
            exact h0
        · refine Touches.comp tch_attemptLost (by decide) ?_
          refine Touches.ite ?_ ?_
          · refine Touches.comp tch_setF (by decide) ?_
            exact h0
          · refine Touches.comp tch_setF (by decide) ?_
            exact h0
      · refine Touches.ite ?_ ?_
        · refine Touches.comp tch_canConfine (by decide) ?_
          exact h1
        · refine Touches.comp tch_canConfine (by decide) ?_
          exact h1

theorem tch_execCanTxDone {a0 a1 a2 s} : TouchesR (1134542522377) (s.start a0) (@execCanTxDone a0 a1 a2 s) := by
  unfold execCanTxDone
  try dsimp only
  refine TouchesR.next ?_
  split
  · refine Touches.doIf ?_ (fun _ h0 => ?_)
    · exact Touches.refl _ _
    · refine Touches.ite ?_ ?_
      · refine Touches.comp tch_attemptEnd (by decide) ?_
        refine Touches.comp tch_setCanCtl (by decide) ?_
        refine Touches.comp tch_canConfine (by decide) ?_
        refine Touches.comp tch_canTdc (by decide) ?_
        exact h0
      · refine Touches.comp tch_attemptEnd (by decide) ?_
        refine Touches.comp tch_headOver (by decide) ?_
        refine Touches.comp tch_setB (by decide) ?_
        refine Touches.comp tch_setF (by decide) ?_
        refine Touches.comp tch_setF (by decide) ?_
        refine Touches.comp tch_canConfine (by decide) ?_
        refine Touches.comp tch_canTdc (by decide) ?_
        exact h0
  · exact Touches.refl _ _

theorem tch_execArbitrationStart {a0 a1 a2 s} : TouchesR (35030827008) (s.start a0) (@execArbitrationStart a0 a1 a2 s) := by
  unfold execArbitrationStart
  try dsimp only
  refine TouchesR.next ?_
  refine Touches.doIf ?_ (fun _ h0 => ?_)
  · exact Touches.refl _ _
  · split
    · refine Touches.comp tch_attempt (by decide) ?_
      exact h0
    · exact h0

theorem tch_execCanTxItem {a0 a1 a2 a3 a4 a5 s} : TouchesR (1134542522377) (s.start a0) (@execCanTxItem a0 a1 a2 a3 a4 a5 s) := by
  unfold execCanTxItem
  try dsimp only
  refine TouchesR.next ?_
  refine Touches.doIf ?_ (fun _ h0 => ?_)
  · exact Touches.refl _ _
  · unfold State.route
    try dsimp only
    refine Touches.ite ?_ ?_
    · exact h0
    · refine Touches.ite ?_ ?_
      · refine Touches.comp tch_takeCanItem (by decide) ?_
        exact h0
      · refine Touches.comp tch_post (by decide) ?_
        exact h0

theorem tch_execCanItemDelivered {a0 a1 s} : TouchesR (1134408304641) (s.start a0) (@execCanItemDelivered a0 a1 s) := by
  unfold execCanItemDelivered
  try dsimp only
  refine TouchesR.next ?_
  split
  · refine Touches.doIf ?_ (fun _ h0 => ?_)
    · exact Touches.refl _ _
    · split
      · refine Touches.comp tch_setCanObj (by decide) ?_
        refine Touches.comp tch_canItem (by decide) ?_
        refine Touches.upd_can (by decide) ?_
        exact h0
      · refine Touches.comp tch_setCanObj (by decide) ?_
        refine Touches.comp tch_canItem (by decide) ?_
        refine Touches.upd_can (by decide) ?_
        exact h0
  · exact Touches.refl _ _

theorem tch_execCanFrameReceive {a0 a1 a2 a3 a4 a5 a6 a7 a8 a9 a10 s} : TouchesR (1134542522377) (s.start a0) (@execCanFrameReceive a0 a1 a2 a3 a4 a5 a6 a7 a8 a9 a10 s) := by
  unfold execCanFrameReceive
  try dsimp only
  refine TouchesR.next ?_
  refine Touches.doIf ?_ (fun _ h0 => ?_)
  · exact Touches.refl _ _
  · refine Touches.ite ?_ ?_
    · refine Touches.comp tch_canUnmatched (by decide) ?_
      refine Touches.doIf ?_ (fun _ h1 => ?_)
      · refine Touches.comp tch_peerSeen (by decide) ?_
        refine Touches.comp tch_attemptLost (by decide) ?_
        exact h0
      · refine Touches.comp tch_canConfine (by decide) ?_
        exact h1
    · split
      · refine Touches.comp tch_canStore (by decide) ?_
        refine Touches.doIf ?_ (fun _ h1 => ?_)
        · refine Touches.comp tch_peerSeen (by decide) ?_
          refine Touches.comp tch_attemptLost (by decide) ?_
          exact h0
        · refine Touches.comp tch_canConfine (by decide) ?_
          exact h1
      · refine Touches.comp tch_canUnmatched (by decide) ?_
        refine Touches.doIf ?_ (fun _ h1 => ?_)
        · refine Touches.comp tch_peerSeen (by decide) ?_
          refine Touches.comp tch_attemptLost (by decide) ?_
          exact h0
        · refine Touches.comp tch_canConfine (by decide) ?_
          exact h1

theorem tch_execWakeInstant {a0 s} : TouchesR (1683686540673) (s.start a0) (@execWakeInstant a0 s) := by
  unfold execWakeInstant
  try dsimp only
  refine TouchesR.next ?_
  split
  · refine Touches.doIf ?_ (fun _ h0 => ?_)
    · exact Touches.refl _ _
    · refine Touches.comp tch_wakeOpen (by decide) ?_
      refine Touches.comp tch_setB (by decide) ?_
      exact h0
  · exact Touches.refl _ _

theorem tch_execWakeSyncTimeout {a0 s} : TouchesR (268502017) (s.start a0) (@execWakeSyncTimeout a0 s) := by
  unfold execWakeSyncTimeout
  try dsimp only
  refine TouchesR.next ?_
  split
  · refine Touches.doIf ?_ (fun _ h0 => ?_)
    · exact Touches.refl _ _
    · refine Touches.comp tch_fixWake (by decide) ?_
      exact h0
  · exact Touches.refl _ _

theorem tch_execFrameItem {a0 a1 a2 a3 a4 a5 s} : TouchesR (1134274085897) (s.start a0) (@execFrameItem a0 a1 a2 a3 a4 a5 s) := by
  unfold execFrameItem
  try dsimp only
  refine TouchesR.next ?_
  refine Touches.doIf ?_ (fun _ h0 => ?_)
  · exact Touches.refl _ _
  · unfold State.route
    try dsimp only
    refine Touches.ite ?_ ?_
    · exact h0
    · refine Touches.ite ?_ ?_
      · refine Touches.comp tch_takeItem (by decide) ?_
        exact h0
      · refine Touches.comp tch_post (by decide) ?_
        exact h0

theorem tch_execLaunchDeadline {a0 a1 s} : TouchesR (1134274085897) (s.start a0) (@execLaunchDeadline a0 a1 s) := by
  unfold execLaunchDeadline
  try dsimp only
  refine TouchesR.next ?_
  refine Touches.doIf ?_ (fun _ h0 => ?_)
  · exact Touches.refl _ _
  · refine Touches.comp tch_txKick (by decide) ?_
    refine Touches.foldl ?_ (fun _ _ h1 => ?_)
    · refine Touches.comp tch_setLq (by decide) ?_
      exact h0
    · refine Touches.comp tch_droppedLate (by decide) ?_
      exact h1

theorem tch_execLaunch {a0 a1 s} : TouchesR (1134274085897) (s.start a0) (@execLaunch a0 a1 s) := by
  unfold execLaunch
  try dsimp only
  refine TouchesR.next ?_
  split
  · refine Touches.doIf ?_ (fun _ h0 => ?_)
    · exact Touches.refl _ _
    · refine Touches.comp tch_frameOver (by decide) ?_
      refine Touches.doIf ?_ (fun _ h1 => ?_)
      · split
        · refine Touches.comp tch_modDesc (by decide) ?_
          refine Touches.comp tch_startFrame (by decide) ?_
          refine Touches.comp tch_setLq (by decide) ?_
          exact h0
        · refine Touches.comp tch_startFrame (by decide) ?_
          refine Touches.comp tch_setLq (by decide) ?_
          exact h0
      · refine Touches.comp tch_sentLate (by decide) ?_
        exact h1
  · exact Touches.refl _ _

theorem tch_execLinkDown {a0 a1 s} : TouchesR (1135347831817) (s.start a0) (@execLinkDown a0 a1 s) := by
  unfold execLinkDown
  try dsimp only
  refine TouchesR.next ?_
  refine Touches.doIf ?_ (fun _ h0 => ?_)
  · exact Touches.refl _ _
  · refine Touches.comp tch_bmca (by decide) ?_
    refine Touches.comp tch_dropLink (by decide) ?_
    exact h0

theorem tch_execLinkUp {a0 a1 a2 s} : TouchesR (1134274085897) (s.start a0) (@execLinkUp a0 a1 a2 s) := by
  unfold execLinkUp
  try dsimp only
  refine TouchesR.next ?_
  refine Touches.doIf ?_ (fun _ h0 => ?_)
  · exact Touches.refl _ _
  · refine Touches.comp tch_txKick (by decide) ?_
    refine Touches.comp tch_post (by decide) ?_
    refine Touches.comp tch_setPs (by decide) ?_
    refine Touches.comp tch_setPort (by decide) ?_
    refine Touches.comp tch_setB (by first | decide | (split <;> decide) | exact blkOk _ (by decide) | (unfold lostF; split <;> decide) | (unfold refOkF; split <;> decide)) ?_
    refine Touches.comp tch_setF (by decide) ?_
    refine Touches.comp tch_setB (by decide) ?_
    exact h0

theorem tch_execSet {a0 a1 a2 s} : TouchesR (268633091) (s.start a0) (@execSet a0 a1 a2 s) := by
  unfold execSet
  try dsimp only
  refine TouchesR.next ?_
  refine Touches.doIf ?_ (fun _ h0 => ?_)
  · refine Touches.comp tch_actionWrite (by decide) ?_
    exact Touches.refl _ _
  · refine Touches.ite ?_ ?_
    · refine Touches.upd_net (by decide) ?_
      exact h0
    · refine Touches.comp tch_post (by decide) ?_
      exact h0

theorem tch_execStepForced {a0 s} : TouchesR (1683954976193) (s.start a0) (@execStepForced a0 s) := by
  unfold execStepForced
  try dsimp only
  refine TouchesR.next ?_
  split
  · refine Touches.doIf ?_ (fun _ h0 => ?_)
    · exact Touches.refl _ _
    · refine Touches.comp tch_raise (by decide) ?_
      refine Touches.comp tch_settle (by decide) ?_
      refine Touches.comp tch_applyStep (by decide) ?_
      refine Touches.foldl ?_ (fun _ _ h1 => ?_)
      · exact h0
      · refine Touches.comp tch_forceTarget (by decide) ?_
        exact h1
  · exact Touches.refl _ _

theorem tch_execStepApplied {a0 s} : TouchesR (268502017) (s.start a0) (@execStepApplied a0 s) := by
  unfold execStepApplied
  try dsimp only
  refine TouchesR.next ?_
  split
  · refine Touches.doIf ?_ (fun _ h0 => ?_)
    · exact Touches.refl _ _
    · refine Touches.comp tch_applyStep (by decide) ?_
      exact h0
  · exact Touches.refl _ _

theorem tch_execSyncLoss {a0 a1 s} : TouchesR (1342247937) (s.start a0) (@execSyncLoss a0 a1 s) := by
  unfold execSyncLoss
  try dsimp only
  refine TouchesR.next ?_
  refine Touches.doIf ?_ (fun _ h0 => ?_)
  · exact Touches.refl _ _
  · refine Touches.comp tch_enterTime (by decide) ?_
    exact h0

theorem tch_execAnnounceTimeout {a0 a1 s} : TouchesR (1342247937) (s.start a0) (@execAnnounceTimeout a0 a1 s) := by
  unfold execAnnounceTimeout
  try dsimp only
  refine TouchesR.next ?_
  refine Touches.doIf ?_ (fun _ h0 => ?_)
  · exact Touches.refl _ _
  · refine Touches.comp tch_bmca (by decide) ?_
    refine Touches.comp tch_setPort (by decide) ?_
    exact h0

theorem tch_execPtpDelay {a0 a1 a2 a3 a4 a5 s} : TouchesR (268436480) (s.start a0) (@execPtpDelay a0 a1 a2 a3 a4 a5 s) := by
  unfold execPtpDelay
  try dsimp only
  refine TouchesR.next ?_
  refine Touches.doIf ?_ (fun _ h0 => ?_)
  · exact Touches.refl _ _
  · refine Touches.comp tch_setF (by decide) ?_
    refine Touches.comp tch_setPort (by decide) ?_
    exact h0

theorem tch_execPtpAnnounce {a0 a1 a2 s} : TouchesR (1342247937) (s.start a0) (@execPtpAnnounce a0 a1 a2 s) := by
  unfold execPtpAnnounce
  try dsimp only
  refine TouchesR.next ?_
  refine Touches.doIf ?_ (fun _ h0 => ?_)
  · exact Touches.refl _ _
  · refine Touches.comp tch_bmca (by decide) ?_
    refine Touches.comp tch_keepAnnounce (by decide) ?_
    exact h0

theorem tch_execPtpSync {a0 a1 a2 a3 s} : TouchesR (1342247937) (s.start a0) (@execPtpSync a0 a1 a2 a3 s) := by
  unfold execPtpSync
  try dsimp only
  refine TouchesR.next ?_
  refine Touches.doIf ?_ (fun _ h0 => ?_)
  · exact Touches.refl _ _
  · refine Touches.comp tch_lockCheck (by decide) ?_
    refine Touches.comp tch_stepCheck (by decide) ?_
    refine Touches.comp tch_servo (by decide) ?_
    refine Touches.doIf ?_ (fun _ h1 => ?_)
    · refine Touches.comp tch_setF (by decide) ?_
      refine Touches.comp tch_setPort (by decide) ?_
      exact h0
    · refine Touches.comp tch_enterTime (by decide) ?_
      exact h1

theorem tch_execFrameReceive {a0 a1 a2 a3 a4 a5 s} : TouchesR (1134274085897) (s.start a0) (@execFrameReceive a0 a1 a2 a3 a4 a5 s) := by
  unfold execFrameReceive
  try dsimp only
  refine TouchesR.next ?_
  refine Touches.doIf ?_ (fun _ h0 => ?_)
  · exact Touches.refl _ _
  · refine Touches.ite ?_ ?_
    · refine Touches.comp tch_rxDrop (by decide) ?_
      exact h0
    · refine Touches.ite ?_ ?_
      · refine Touches.comp tch_raise (by decide) ?_
        refine Touches.comp tch_incF (by decide) ?_
        exact h0
      · refine Touches.ite ?_ ?_
        · split
          · refine Touches.comp tch_notePn (by decide) ?_
            exact h0
          · exact h0
        · split
          · split
            · refine Touches.comp tch_ptpRequest (by decide) ?_
              split
              · refine Touches.comp tch_notePn (by decide) ?_
                exact h0
              · exact h0
            · split
              · refine Touches.comp tch_notePn (by decide) ?_
                exact h0
              · exact h0
          · split
            · refine Touches.comp tch_rxDrop (by decide) ?_
              split
              · refine Touches.comp tch_notePn (by decide) ?_
                exact h0
              · exact h0
            · refine Touches.comp tch_toFilter (by decide) ?_
              split
              · refine Touches.comp tch_notePn (by decide) ?_
                exact h0
              · exact h0

theorem tch_execHostLost {a0 a1 s} : TouchesR (34552775049) (s.start a0) (@execHostLost a0 a1 s) := by
  unfold execHostLost
  try dsimp only
  refine TouchesR.next ?_
  split
  · refine Touches.doIf ?_ (fun _ h0 => ?_)
    · exact Touches.refl _ _
    · refine Touches.doIf ?_ (fun _ h1 => ?_)
      · refine Touches.upd_hostq (by decide) ?_
        exact h0
      · refine Touches.comp tch_loseHost (by decide) ?_
        exact h1
  · exact Touches.refl _ _

theorem tch_execLinkLoss {a0 a1 a2 s} : TouchesR (134414347) (s.start a0) (@execLinkLoss a0 a1 a2 s) := by
  unfold execLinkLoss
  try dsimp only
  refine TouchesR.next ?_
  refine Touches.doIf ?_ (fun _ h0 => ?_)
  · exact Touches.refl _ _
  · refine Touches.ite ?_ ?_
    · refine Touches.comp tch_loseLink (by decide) ?_
      exact h0
    · refine Touches.ite ?_ ?_
      · refine Touches.comp tch_loseFn (by decide) ?_
        refine Touches.comp tch_loseFn (by decide) ?_
        exact h0
      · refine Touches.doIf ?_ (fun _ h1 => ?_)
        · exact h0
        · refine Touches.comp tch_loseFn (by decide) ?_
          exact h1

theorem tch_execRingError {a0 a1 a2 a3 a4 s} : TouchesR (134283273) (s.start a0) (@execRingError a0 a1 a2 a3 a4 s) := by
  unfold execRingError
  try dsimp only
  refine TouchesR.next ?_
  refine Touches.doIf ?_ (fun _ h0 => ?_)
  · exact Touches.refl _ _
  · refine Touches.ite ?_ ?_
    · refine Touches.doIf ?_ (fun _ h1 => ?_)
      · exact h0
      · refine Touches.comp tch_discard (by decide) ?_
        refine Touches.foldl ?_ (fun _ _ h2 => ?_)
        · refine Touches.comp tch_post (by decide) ?_
          refine Touches.comp tch_setF (by decide) ?_
          exact h1
        · refine Touches.comp tch_sqError (by decide) ?_
          exact h2
    · refine Touches.doIf ?_ (fun _ h1 => ?_)
      · exact h0
      · refine Touches.comp tch_sqError (by decide) ?_
        exact h1

theorem tch_execIrqTimer {a0 a1 a2 s} : TouchesR (34493956096) (s.start a0) (@execIrqTimer a0 a1 a2 s) := by
  unfold execIrqTimer
  try dsimp only
  refine TouchesR.next ?_
  split
  · refine Touches.doIf ?_ (fun _ h0 => ?_)
    · exact Touches.refl _ _
    · refine Touches.comp tch_signal (by decide) ?_
      exact h0
  · exact Touches.refl _ _

theorem tch_execCompletion {a0 a1 a2 s} : TouchesR (34494021641) (s.start a0) (@execCompletion a0 a1 a2 s) := by
  unfold execCompletion
  try dsimp only
  refine TouchesR.next ?_
  split
  · refine Touches.ite ?_ ?_
    · refine Touches.doIf ?_ (fun _ h0 => ?_)
      · exact Touches.refl _ _
      · refine Touches.comp tch_complete (by decide) ?_
        exact h0
    · refine Touches.doIf ?_ (fun _ h0 => ?_)
      · exact Touches.refl _ _
      · refine Touches.comp tch_dropDesc (by decide) ?_
        exact h0
  · exact Touches.refl _ _

theorem tch_execHeartbeat {a0 a1 s} : TouchesR (34552775049) (s.start a0) (@execHeartbeat a0 a1 s) := by
  unfold execHeartbeat
  try dsimp only
  refine TouchesR.next ?_
  unfold State.takeUp
  try dsimp only
  split
  · refine Touches.doIf ?_ (fun _ h0 => ?_)
    · exact Touches.refl _ _
    · refine Touches.comp tch_fin (by decide) ?_
      refine Touches.comp tch_heartbeat (by decide) ?_
      exact h0
  · exact Touches.refl _ _

theorem tch_execMigrate {a0 a1 s} : TouchesR (1134039203913) (s.start a0) (@execMigrate a0 a1 s) := by
  unfold execMigrate
  try dsimp only
  refine TouchesR.next ?_
  unfold State.takeUp
  try dsimp only
  split
  · refine Touches.doIf ?_ (fun _ h0 => ?_)
    · exact Touches.refl _ _
    · split
      · refine Touches.comp tch_fin (by decide) ?_
        exact h0
      · refine Touches.ite ?_ ?_
        · refine Touches.comp tch_fin (by decide) ?_
          exact h0
        · refine Touches.ite ?_ ?_
          · refine Touches.comp tch_fin (by decide) ?_
            exact h0
          · refine Touches.ite ?_ ?_
            · refine Touches.comp tch_fin (by decide) ?_
              exact h0
            · refine Touches.comp tch_beginMig (by decide) ?_
              refine Touches.comp tch_atHandler (by decide) ?_
              exact h0
  · exact Touches.refl _ _

theorem tch_execNetTx {a0 a1 a2 s} : TouchesR (1134005649417) (s.start a0) (@execNetTx a0 a1 a2 s) := by
  unfold execNetTx
  try dsimp only
  refine TouchesR.next ?_
  unfold State.takeUp
  try dsimp only
  split
  · refine Touches.doIf ?_ (fun _ h0 => ?_)
    · exact Touches.refl _ _
    · split
      · refine Touches.comp tch_fin (by decide) ?_
        exact h0
      · refine Touches.comp tch_sendItem (by decide) ?_
        refine Touches.comp tch_atHandler (by decide) ?_
        exact h0
  · exact Touches.refl _ _

theorem tch_execCanTx {a0 a1 a2 s} : TouchesR (1134005649417) (s.start a0) (@execCanTx a0 a1 a2 s) := by
  unfold execCanTx
  try dsimp only
  refine TouchesR.next ?_
  unfold State.takeUp
  try dsimp only
  split
  · refine Touches.doIf ?_ (fun _ h0 => ?_)
    · exact Touches.refl _ _
    · split
      · refine Touches.comp tch_fin (by decide) ?_
        exact h0
      · split
        · refine Touches.comp tch_fin (by decide) ?_
          exact h0
        · refine Touches.comp tch_sendItem (by decide) ?_
          refine Touches.comp tch_atHandler (by decide) ?_
          exact h0
  · exact Touches.refl _ _

theorem tch_execLogFetch {a0 a1 a2 s} : TouchesR (34494021641) (s.start a0) (@execLogFetch a0 a1 a2 s) := by
  unfold execLogFetch
  try dsimp only
  refine TouchesR.next ?_
  unfold State.takeUp
  try dsimp only
  split
  · refine Touches.doIf ?_ (fun _ h0 => ?_)
    · exact Touches.refl _ _
    · refine Touches.ite ?_ ?_
      · exact h0
      · refine Touches.ite ?_ ?_
        · refine Touches.comp tch_serveLog (by decide) ?_
          exact h0
        · refine Touches.comp tch_serveLog (by decide) ?_
          exact h0
  · exact Touches.refl _ _

theorem tch_execStatsRead {a0 a1 a2 a3 s} : TouchesR (34494021641) (s.start a0) (@execStatsRead a0 a1 a2 a3 s) := by
  unfold execStatsRead
  try dsimp only
  refine TouchesR.next ?_
  unfold State.takeUp
  try dsimp only
  split
  · refine Touches.doIf ?_ (fun _ h0 => ?_)
    · exact Touches.refl _ _
    · refine Touches.ite ?_ ?_
      · exact h0
      · refine Touches.ite ?_ ?_
        · refine Touches.comp tch_fin (by decide) ?_
          exact h0
        · refine Touches.ite ?_ ?_
          · refine Touches.comp tch_fin (by decide) ?_
            exact h0
          · refine Touches.comp tch_fin (by decide) ?_
            refine Touches.comp tch_emit (by decide) ?_
            exact h0
  · exact Touches.refl _ _

theorem tch_execTelemetrySample {a0 a1 a2 a3 s} : TouchesR (34494021641) (s.start a0) (@execTelemetrySample a0 a1 a2 a3 s) := by
  unfold execTelemetrySample
  try dsimp only
  refine TouchesR.next ?_
  split
  · refine Touches.doIf ?_ (fun _ h0 => ?_)
    · exact Touches.refl _ _
    · refine Touches.ite ?_ ?_
      · refine Touches.comp tch_fin (by decide) ?_
        exact h0
      · split
        · refine Touches.doIf ?_ (fun _ h1 => ?_)
          · refine Touches.foldl ?_ (fun _ _ h1 => ?_)
            · refine Touches.comp tch_setDesc (by decide) ?_
              exact h0
            · split
              · refine Touches.doIf ?_ (fun _ h2 => ?_)
                · exact h1
                · refine Touches.comp tch_streamRecord (by decide) ?_
                  exact h2
              · exact h1
          · refine Touches.comp tch_fin (by decide) ?_
            exact h1
        · refine Touches.foldl ?_ (fun _ _ h1 => ?_)
          · refine Touches.comp tch_setDesc (by decide) ?_
            exact h0
          · split
            · refine Touches.doIf ?_ (fun _ h2 => ?_)
              · exact h1
              · refine Touches.comp tch_streamRecord (by decide) ?_
                exact h2
            · exact h1
  · exact Touches.refl _ _

theorem tch_execTelemStream {a0 a1 s} : TouchesR (1134005649417) (s.start a0) (@execTelemStream a0 a1 s) := by
  unfold execTelemStream
  try dsimp only
  refine TouchesR.next ?_
  unfold State.takeUp
  try dsimp only
  split
  · refine Touches.doIf ?_ (fun _ h0 => ?_)
    · exact Touches.refl _ _
    · refine Touches.ite ?_ ?_
      · refine Touches.comp tch_fin (by decide) ?_
        exact h0
      · split
        · refine Touches.comp tch_sendItem (by decide) ?_
          refine Touches.comp tch_setDesc (by decide) ?_
          exact h0
        · refine Touches.comp tch_setDesc (by decide) ?_
          exact h0
  · exact Touches.refl _ _

theorem tch_execAbort {a0 a1 s} : TouchesR (1136992005193) (s.start a0) (@execAbort a0 a1 s) := by
  unfold execAbort
  try dsimp only
  refine TouchesR.next ?_
  unfold State.takeUp
  try dsimp only
  split
  · refine Touches.doIf ?_ (fun _ h0 => ?_)
    · exact Touches.refl _ _
    · split
      · refine Touches.ite ?_ ?_
        · refine Touches.comp tch_fin (by decide) ?_
          exact h0
        · refine Touches.ite ?_ ?_
          · refine Touches.comp tch_fin (by decide) ?_
            exact h0
          · refine Touches.ite ?_ ?_
            · refine Touches.comp tch_fin (by decide) ?_
              refine Touches.comp tch_cancel (by decide) ?_
              exact h0
            · refine Touches.comp tch_fin (by decide) ?_
              exact h0
      · refine Touches.ite ?_ ?_
        · refine Touches.comp tch_fin (by decide) ?_
          exact h0
        · refine Touches.comp tch_fin (by decide) ?_
          exact h0
  · exact Touches.refl _ _

theorem tch_execScheduleFiring {a0 a1 s} : TouchesR (134217728) (s.start a0) (@execScheduleFiring a0 a1 s) := by
  unfold execScheduleFiring
  try dsimp only
  refine TouchesR.next ?_
  split
  · refine Touches.doIf ?_ (fun _ h0 => ?_)
    · exact Touches.refl _ _
    · refine Touches.comp tch_fire (by decide) ?_
      exact h0
  · exact Touches.refl _ _

theorem tch_execSchedule {a0 a1 s} : TouchesR (134283273) (s.start a0) (@execSchedule a0 a1 s) := by
  unfold execSchedule
  try dsimp only
  refine TouchesR.next ?_
  unfold State.takeUp
  try dsimp only
  split
  · refine Touches.doIf ?_ (fun _ h0 => ?_)
    · exact Touches.refl _ _
    · refine Touches.ite ?_ ?_
      · refine Touches.comp tch_fin (by decide) ?_
        exact h0
      · refine Touches.comp tch_setDesc (by decide) ?_
        refine Touches.comp tch_setF (by decide) ?_
        exact h0
  · exact Touches.refl _ _

theorem tch_execParamTxn {a0 a1 a2 a3 s} : TouchesR (1134072758793) (s.start a0) (@execParamTxn a0 a1 a2 a3 s) := by
  unfold execParamTxn
  try dsimp only
  refine TouchesR.next ?_
  unfold State.takeUp
  try dsimp only
  split
  · refine Touches.doIf ?_ (fun _ h0 => ?_)
    · exact Touches.refl _ _
    · refine Touches.ite ?_ ?_
      · refine Touches.comp tch_fin (by decide) ?_
        exact h0
      · refine Touches.ite ?_ ?_
        · refine Touches.comp tch_safetyTxn (by decide) ?_
          exact h0
        · split
          · refine Touches.comp tch_fin (by decide) ?_
            exact h0
          · refine Touches.ite ?_ ?_
            · refine Touches.comp tch_toAgent (by decide) ?_
              exact h0
            · refine Touches.comp tch_safetyTxn (by decide) ?_
              exact h0
  · exact Touches.refl _ _

theorem tch_execSetpoint {a0 a1 s} : TouchesR (1134005649417) (s.start a0) (@execSetpoint a0 a1 s) := by
  unfold execSetpoint
  try dsimp only
  refine TouchesR.next ?_
  unfold State.takeUp
  try dsimp only
  split
  · refine Touches.doIf ?_ (fun _ h0 => ?_)
    · exact Touches.refl _ _
    · refine Touches.ite ?_ ?_
      · refine Touches.comp tch_fin (by decide) ?_
        exact h0
      · refine Touches.comp tch_toAgent (by decide) ?_
        exact h0
  · exact Touches.refl _ _

theorem tch_execDescriptorRelease {a0 a1 s} : TouchesR (134283273) (s.start a0) (@execDescriptorRelease a0 a1 s) := by
  unfold execDescriptorRelease
  try dsimp only
  refine TouchesR.next ?_
  split
  · refine Touches.doIf ?_ (fun _ h0 => ?_)
    · exact Touches.refl _ _
    · refine Touches.comp tch_release (by decide) ?_
      exact h0
  · exact Touches.refl _ _

theorem tch_execDescriptorFetch {a0 a1 a2 a3 a4 s} : TouchesR (134414345) (s.start a0) (@execDescriptorFetch a0 a1 a2 a3 a4 s) := by
  unfold execDescriptorFetch
  try dsimp only
  refine TouchesR.next ?_
  split
  · refine Touches.doIf ?_ (fun _ h0 => ?_)
    · exact Touches.refl _ _
    · refine Touches.comp tch_fetch (by decide) ?_
      exact h0
  · exact Touches.refl _ _

theorem tch_execCqHeadDoorbell {a0 a1 a2 a3 s} : TouchesR (134283273) (s.start a0) (@execCqHeadDoorbell a0 a1 a2 a3 s) := by
  unfold execCqHeadDoorbell
  try dsimp only
  refine TouchesR.next ?_
  refine Touches.doIf ?_ (fun _ h0 => ?_)
  · exact Touches.refl _ _
  · refine Touches.ite ?_ ?_
    · refine Touches.comp tch_fillCheck (by decide) ?_
      refine Touches.comp tch_setF (by decide) ?_
      exact h0
    · refine Touches.ite ?_ ?_
      · exact h0
      · refine Touches.comp tch_post (by decide) ?_
        refine Touches.comp tch_setB (by decide) ?_
        exact h0

theorem tch_execSqTailDoorbell {a0 a1 a2 a3 s} : TouchesR (134283273) (s.start a0) (@execSqTailDoorbell a0 a1 a2 a3 s) := by
  unfold execSqTailDoorbell
  try dsimp only
  refine TouchesR.next ?_
  refine Touches.doIf ?_ (fun _ h0 => ?_)
  · exact Touches.refl _ _
  · refine Touches.ite ?_ ?_
    · refine Touches.upd_hostq (by decide) ?_
      exact h0
    · refine Touches.ite ?_ ?_
      · exact h0
      · refine Touches.comp tch_post (by decide) ?_
        refine Touches.comp tch_setB (by decide) ?_
        exact h0

theorem tch_execRingDrained {a0 a1 a2 s} : TouchesR (8) (s.start a0) (@execRingDrained a0 a1 a2 s) := by
  unfold execRingDrained
  try dsimp only
  refine TouchesR.next ?_
  refine Touches.doIf ?_ (fun _ h0 => ?_)
  · exact Touches.refl _ _
  · refine Touches.comp tch_sqOff (by decide) ?_
    exact h0

theorem tch_execRingDisable {a0 a1 a2 a3 a4 s} : TouchesR (134414347) (s.start a0) (@execRingDisable a0 a1 a2 a3 a4 s) := by
  unfold execRingDisable
  try dsimp only
  refine TouchesR.next ?_
  refine Touches.doIf ?_ (fun _ h0 => ?_)
  · exact Touches.refl _ _
  · refine Touches.comp tch_ringCfg (by decide) ?_
    exact h0

theorem tch_execRingEnable {a0 a1 a2 a3 a4 s} : TouchesR (134414347) (s.start a0) (@execRingEnable a0 a1 a2 a3 a4 s) := by
  unfold execRingEnable
  try dsimp only
  refine TouchesR.next ?_
  refine Touches.doIf ?_ (fun _ h0 => ?_)
  · exact Touches.refl _ _
  · refine Touches.comp tch_ringCfg (by decide) ?_
    exact h0

theorem tch_execRevoke {a0 a1 a2 s} : TouchesR (4295163911) (s.start a0) (@execRevoke a0 a1 a2 s) := by
  unfold execRevoke
  try dsimp only
  refine TouchesR.next ?_
  refine Touches.doIf ?_ (fun _ h0 => ?_)
  · refine Touches.comp tch_actionWrite (by decide) ?_
    exact Touches.refl _ _
  · refine Touches.ite ?_ ?_
    · refine Touches.comp tch_refuseUpd (by decide) ?_
      exact h0
    · refine Touches.comp tch_post (by decide) ?_
      refine Touches.comp tch_setB (by decide) ?_
      refine Touches.comp tch_spoilSlot (by decide) ?_
      exact h0

theorem tch_execSlotVerified {a0 s} : TouchesR (4295032837) (s.start a0) (@execSlotVerified a0 s) := by
  unfold execSlotVerified
  try dsimp only
  refine TouchesR.next ?_
  split
  · refine Touches.doIf ?_ (fun _ h0 => ?_)
    · exact Touches.refl _ _
    · refine Touches.comp tch_post (by decide) ?_
      refine Touches.upd_cfg (by decide) ?_
      refine Touches.comp tch_setB (by decide) ?_
      refine Touches.comp tch_setSlotResult (by decide) ?_
      exact h0
  · exact Touches.refl _ _

theorem tch_execVerify {a0 a1 a2 s} : TouchesR (4295163911) (s.start a0) (@execVerify a0 a1 a2 s) := by
  unfold execVerify
  try dsimp only
  refine TouchesR.next ?_
  refine Touches.doIf ?_ (fun _ h0 => ?_)
  · refine Touches.comp tch_actionWrite (by decide) ?_
    exact Touches.refl _ _
  · refine Touches.ite ?_ ?_
    · refine Touches.comp tch_refuseUpd (by decide) ?_
      exact h0
    · refine Touches.upd_cfg (by decide) ?_
      exact h0

theorem tch_execUpdateAbort {a0 a1 a2 s} : TouchesR (4295163911) (s.start a0) (@execUpdateAbort a0 a1 a2 s) := by
  unfold execUpdateAbort
  try dsimp only
  refine TouchesR.next ?_
  refine Touches.doIf ?_ (fun _ h0 => ?_)
  · refine Touches.comp tch_actionWrite (by decide) ?_
    exact Touches.refl _ _
  · refine Touches.comp tch_failUpdate (by decide) ?_
    exact h0

theorem tch_execUpdateVerifyDone {a0 s} : TouchesR (4295032837) (s.start a0) (@execUpdateVerifyDone a0 s) := by
  unfold execUpdateVerifyDone
  try dsimp only
  refine TouchesR.next ?_
  split
  · refine Touches.doIf ?_ (fun _ h0 => ?_)
    · exact Touches.refl _ _
    · refine Touches.ite ?_ ?_
      · refine Touches.comp tch_failUpdate (by decide) ?_
        exact h0
      · refine Touches.comp tch_post (by decide) ?_
        refine Touches.comp tch_setB (by decide) ?_
        refine Touches.comp tch_setF (by decide) ?_
        refine Touches.comp tch_setF (by decide) ?_
        refine Touches.upd_cfg (by decide) ?_
        refine Touches.comp tch_setSlot (by decide) ?_
        exact h0
  · exact Touches.refl _ _

theorem tch_execUpdateProgramDone {a0 a1 s} : TouchesR (4295032837) (s.start a0) (@execUpdateProgramDone a0 a1 s) := by
  unfold execUpdateProgramDone
  try dsimp only
  refine TouchesR.next ?_
  refine Touches.doIf ?_ (fun _ h0 => ?_)
  · exact Touches.refl _ _
  · refine Touches.ite ?_ ?_
    · refine Touches.comp tch_failUpdate (by decide) ?_
      exact h0
    · refine Touches.ite ?_ ?_
      · refine Touches.comp tch_setF (by decide) ?_
        refine Touches.comp tch_setF (by decide) ?_
        refine Touches.comp tch_writeJob (by decide) ?_
        exact h0
      · refine Touches.comp tch_failUpdate (by decide) ?_
        exact h0

theorem tch_execUpdateEraseDone {a0 a1 s} : TouchesR (4295032837) (s.start a0) (@execUpdateEraseDone a0 a1 s) := by
  unfold execUpdateEraseDone
  try dsimp only
  refine TouchesR.next ?_
  refine Touches.doIf ?_ (fun _ h0 => ?_)
  · exact Touches.refl _ _
  · refine Touches.ite ?_ ?_
    · refine Touches.comp tch_setF (by decide) ?_
      exact h0
    · refine Touches.comp tch_failUpdate (by decide) ?_
      exact h0

theorem tch_execStart {a0 a1 a2 a3 s} : TouchesR (4295163911) (s.start a0) (@execStart a0 a1 a2 a3 s) := by
  unfold execStart
  try dsimp only
  refine TouchesR.next ?_
  refine Touches.doIf ?_ (fun _ h0 => ?_)
  · refine Touches.comp tch_actionWrite (by decide) ?_
    exact Touches.refl _ _
  · refine Touches.comp tch_beginUpdate (by decide) ?_
    exact h0

theorem tch_execPerstN {a0 a1 s} : TouchesR (134414347) (s.start a0) (@execPerstN a0 a1 s) := by
  unfold execPerstN
  try dsimp only
  refine TouchesR.next ?_
  refine Touches.doIf ?_ (fun _ h0 => ?_)
  · exact Touches.refl _ _
  · refine Touches.comp tch_loseLink (by decide) ?_
    exact h0

theorem tch_execSysRst {a0 a1 a2 s} : TouchesR (1967094759423) (s.start a0) (@execSysRst a0 a1 a2 s) := by
  unfold execSysRst
  try dsimp only
  refine TouchesR.next ?_
  refine Touches.doIf ?_ (fun _ h0 => ?_)
  · refine Touches.comp tch_actionWrite (by decide) ?_
    exact Touches.refl _ _
  · refine Touches.ite ?_ ?_
    · refine Touches.upd_pwr_keep rfl (by decide) ?_
      refine Touches.comp tch_assertReset (by decide) ?_
      refine Touches.doIf ?_ (fun _ h1 => ?_)
      · refine Touches.comp tch_failUpdate (by decide) ?_
        exact h0
      · refine Touches.comp tch_saveRecords (by decide) ?_
        exact h1
    · refine Touches.comp tch_post (by decide) ?_
      exact h0

theorem tch_execPorstN {a0 a1 s} : TouchesR (1967095021567) (s.start a0) (@execPorstN a0 a1 s) := by
  unfold execPorstN
  try dsimp only
  refine TouchesR.next ?_
  refine Touches.doIf ?_ (fun _ h0 => ?_)
  · exact Touches.refl _ _
  · refine Touches.upd_pwr (fun _ _ => rfl) (by decide) ?_
    refine Touches.comp tch_assertReset (by decide) ?_
    exact h0

theorem tch_execSupplyOk {a0 a1 a2 s} : TouchesR (524288) (s.start a0) (@execSupplyOk a0 a1 a2 s) := by
  unfold execSupplyOk
  try dsimp only
  refine TouchesR.next ?_
  refine Touches.doIf ?_ (fun _ h0 => ?_)
  · exact Touches.refl _ _
  · refine Touches.upd_pwr_keep rfl (by decide) ?_
    exact h0

theorem tch_execSupplyLow {a0 a1 a2 a3 s} : TouchesR (1967094759423) (s.start a0) (@execSupplyLow a0 a1 a2 a3 s) := by
  unfold execSupplyLow
  try dsimp only
  refine TouchesR.next ?_
  refine Touches.doIf ?_ (fun _ h0 => ?_)
  · exact Touches.refl _ _
  · refine Touches.doIf ?_ (fun _ h1 => ?_)
    · refine Touches.comp tch_setBitF (by decide) ?_
      refine Touches.upd_pwr_keep rfl (by decide) ?_
      refine Touches.comp tch_assertReset (by decide) ?_
      exact h0
    · refine Touches.comp tch_setB (by decide) ?_
      refine Touches.comp tch_setWord (by decide) ?_
      exact h1

theorem tch_execReady {a0 s} : TouchesR (1683686539649) (s.start a0) (@execReady a0 s) := by
  unfold execReady
  try dsimp only
  refine TouchesR.next ?_
  refine Touches.doIf ?_ (fun _ h0 => ?_)
  · exact Touches.refl _ _
  · refine Touches.doIf ?_ (fun _ h1 => ?_)
    · refine Touches.comp tch_post (by decide) ?_
      refine Touches.comp tch_setF (by decide) ?_
      refine Touches.comp tch_setB (by decide) ?_
      exact h0
    · refine Touches.comp tch_openBucket (by decide) ?_
      exact h1

theorem tch_execBootBistDone {a0 a1 s} : TouchesR (2147491840) (s.start a0) (@execBootBistDone a0 a1 s) := by
  unfold execBootBistDone
  try dsimp only
  refine TouchesR.next ?_
  refine Touches.doIf ?_ (fun _ h0 => ?_)
  · exact Touches.refl _ _
  · refine Touches.comp tch_showPods (by decide) ?_
    refine Touches.comp tch_setB (by decide) ?_
    refine Touches.foldl ?_ (fun _ _ h1 => ?_)
    · refine Touches.foldl ?_ (fun _ _ h1 => ?_)
      · exact h0
      · refine Touches.doIf ?_ (fun _ h2 => ?_)
        · exact h1
        · refine Touches.comp tch_setGone (by decide) ?_
          exact h2
    · refine Touches.comp tch_backPod (by decide) ?_
      exact h1

theorem tch_execSeal {a0 s} : TouchesR (1206346964943) (s.start a0) (@execSeal a0 s) := by
  unfold execSeal
  try dsimp only
  refine TouchesR.next ?_
  refine Touches.doIf ?_ (fun _ h0 => ?_)
  · exact Touches.refl _ _
  · refine Touches.ite ?_ ?_
    · refine Touches.upd_clk (by decide) ?_
      refine Touches.comp tch_initSlots (by decide) ?_
      exact h0
    · refine Touches.comp tch_sealNow (by decide) ?_
      refine Touches.comp tch_initSlots (by decide) ?_
      exact h0

theorem tch_execSectionLoad {a0 a1 a2 s} : TouchesR (1138419302399) (s.start a0) (@execSectionLoad a0 a1 a2 s) := by
  unfold execSectionLoad
  try dsimp only
  refine TouchesR.next ?_
  refine Touches.doIf ?_ (fun _ h0 => ?_)
  · exact Touches.refl _ _
  · split
    · refine Touches.comp tch_refuseSlot (by decide) ?_
      exact h0
    · refine Touches.comp tch_refuseSlot (by decide) ?_
      exact h0
    · split
      · refine Touches.comp tch_refuseSlot (by decide) ?_
        exact h0
      · split
        · refine Touches.comp tch_refuseSlot (by decide) ?_
          refine Touches.comp tch_cfglSection (by decide) ?_
          refine Touches.compOk tch_takeSection (by assumption) (by decide) ?_
          exact h0
        · refine Touches.ite ?_ ?_
          · split
            · refine Touches.comp tch_refuseSlot (by decide) ?_
              refine Touches.comp tch_cfglSection (by decide) ?_
              refine Touches.compOk tch_takeSection (by assumption) (by decide) ?_
              exact h0
            · refine Touches.comp tch_acceptImage (by decide) ?_
              refine Touches.comp tch_cfglSection (by decide) ?_
              refine Touches.compOk tch_takeSection (by assumption) (by decide) ?_
              exact h0
          · refine Touches.comp tch_cfglSection (by decide) ?_
            refine Touches.compOk tch_takeSection (by assumption) (by decide) ?_
            exact h0

theorem tch_execImageVerify {a0 s} : TouchesR (4295049223) (s.start a0) (@execImageVerify a0 s) := by
  unfold execImageVerify
  try dsimp only
  refine TouchesR.next ?_
  split
  · refine Touches.doIf ?_ (fun _ h0 => ?_)
    · exact Touches.refl _ _
    · refine Touches.ite ?_ ?_
      · refine Touches.upd_cfg (by decide) ?_
        refine Touches.comp tch_setF (by decide) ?_
        refine Touches.comp tch_setF (by decide) ?_
        refine Touches.comp tch_setB (by decide) ?_
        exact h0
      · refine Touches.comp tch_nextSlot (by decide) ?_
        refine Touches.comp tch_setSlotResult (by decide) ?_
        refine Touches.doIf ?_ (fun _ h1 => ?_)
        · exact h0
        · refine Touches.comp tch_post (by decide) ?_
          exact h1
  · exact Touches.refl _ _

theorem tch_execResetRelease {a0 a1 s} : TouchesR (1975684956159) (s.start a0) (@execResetRelease a0 a1 s) := by
  unfold execResetRelease
  try dsimp only
  refine TouchesR.next ?_
  refine Touches.doIf ?_ (fun _ h0 => ?_)
  · exact Touches.refl _ _
  · refine Touches.comp tch_resetOver (by decide) ?_
    exact h0

theorem tch_execEraseDone {a0 s} : TouchesR (6526533635) (s.start a0) (@execEraseDone a0 s) := by
  unfold execEraseDone
  try dsimp only
  refine TouchesR.next ?_
  refine Touches.doIf ?_ (fun _ h0 => ?_)
  · exact Touches.refl _ _
  · refine Touches.comp tch_post (by decide) ?_
    refine Touches.comp tch_setB (by decide) ?_
    refine Touches.comp tch_setF (by decide) ?_
    refine Touches.comp tch_setF (by decide) ?_
    refine Touches.upd_husk_trip_safe_rel_cfg (by decide) ?_
    exact h0

theorem tch_execErase {a0 a1 a2 s} : TouchesR (1967094759423) (s.start a0) (@execErase a0 a1 a2 s) := by
  unfold execErase
  try dsimp only
  refine TouchesR.next ?_
  refine Touches.doIf ?_ (fun _ h0 => ?_)
  · refine Touches.comp tch_actionWrite (by decide) ?_
    exact Touches.refl _ _
  · refine Touches.ite ?_ ?_
    · refine Touches.comp tch_eraseCore (by decide) ?_
      refine Touches.comp tch_post (by decide) ?_
      refine Touches.comp tch_failUpdate (by decide) ?_
      exact h0
    · refine Touches.comp tch_post (by decide) ?_
      exact h0

theorem tch_execMkaFrame {a0 a1 a2 s} : TouchesR (1134274085897) (s.start a0) (@execMkaFrame a0 a1 a2 s) := by
  unfold execMkaFrame
  try dsimp only
  refine TouchesR.next ?_
  refine Touches.doIf ?_ (fun _ h0 => ?_)
  · exact Touches.refl _ _
  · split
    · refine Touches.doIf ?_ (fun _ h1 => ?_)
      · exact h0
      · refine Touches.comp tch_txKick (by decide) ?_
        refine Touches.doIf ?_ (fun _ h2 => ?_)
        · refine Touches.comp tch_mkaSend (by decide) ?_
          refine Touches.comp tch_setPort (by decide) ?_
          exact h1
        · refine Touches.comp tch_installSak (by decide) ?_
          exact h2
    · exact h0

theorem tch_execSakRemoval {a0 a1 s} : TouchesR (268633091) (s.start a0) (@execSakRemoval a0 a1 s) := by
  unfold execSakRemoval
  try dsimp only
  refine TouchesR.next ?_
  refine Touches.doIf ?_ (fun _ h0 => ?_)
  · exact Touches.refl _ _
  · refine Touches.comp tch_setCakSlot (by decide) ?_
    refine Touches.foldl ?_ (fun _ _ h1 => ?_)
    · exact h0
    · refine Touches.ite ?_ ?_
      · refine Touches.comp tch_loseSa (by decide) ?_
        exact h1
      · exact h1

theorem tch_execDelete {a0 a1 a2 s} : TouchesR (196611) (s.start a0) (@execDelete a0 a1 a2 s) := by
  unfold execDelete
  try dsimp only
  refine TouchesR.next ?_
  refine Touches.doIf ?_ (fun _ h0 => ?_)
  · refine Touches.comp tch_actionWrite (by decide) ?_
    exact Touches.refl _ _
  · unfold State.keyCommand
    try dsimp only
    refine Touches.ite ?_ ?_
    · refine Touches.comp tch_keyRefused (by decide) ?_
      exact h0
    · refine Touches.comp tch_doDelete (by decide) ?_
      exact h0

theorem tch_execLoad {a0 a1 a2 s} : TouchesR (196611) (s.start a0) (@execLoad a0 a1 a2 s) := by
  unfold execLoad
  try dsimp only
  refine TouchesR.next ?_
  refine Touches.doIf ?_ (fun _ h0 => ?_)
  · refine Touches.comp tch_actionWrite (by decide) ?_
    exact Touches.refl _ _
  · unfold State.keyCommand
    try dsimp only
    refine Touches.ite ?_ ?_
    · refine Touches.comp tch_keyRefused (by decide) ?_
      exact h0
    · refine Touches.comp tch_doLoad (by decide) ?_
      exact h0

theorem tch_execPwDel {a0 a1 a2 s} : TouchesR (67305987) (s.start a0) (@execPwDel a0 a1 a2 s) := by
  unfold execPwDel
  try dsimp only
  refine TouchesR.next ?_
  refine Touches.doIf ?_ (fun _ h0 => ?_)
  · refine Touches.comp tch_actionWrite (by decide) ?_
    exact Touches.refl _ _
  · unfold State.keyCommand
    try dsimp only
    refine Touches.ite ?_ ?_
    · refine Touches.comp tch_keyRefused (by decide) ?_
      exact h0
    · refine Touches.comp tch_doPwDel (by decide) ?_
      exact h0

theorem tch_execPwSet {a0 a1 a2 s} : TouchesR (67305987) (s.start a0) (@execPwSet a0 a1 a2 s) := by
  unfold execPwSet
  try dsimp only
  refine TouchesR.next ?_
  refine Touches.doIf ?_ (fun _ h0 => ?_)
  · refine Touches.comp tch_actionWrite (by decide) ?_
    exact Touches.refl _ _
  · unfold State.keyCommand
    try dsimp only
    refine Touches.ite ?_ ?_
    · refine Touches.comp tch_keyRefused (by decide) ?_
      exact h0
    · refine Touches.comp tch_doPwSet (by decide) ?_
      exact h0

theorem tch_execCommit {a0 a1 a2 s} : TouchesR (196611) (s.start a0) (@execCommit a0 a1 a2 s) := by
  unfold execCommit
  try dsimp only
  refine TouchesR.next ?_
  refine Touches.doIf ?_ (fun _ h0 => ?_)
  · refine Touches.comp tch_actionWrite (by decide) ?_
    exact Touches.refl _ _
  · refine Touches.comp tch_post (by decide) ?_
    refine Touches.comp tch_setF (by decide) ?_
    exact h0

theorem tch_execFuse {a0 a1 a2 a3 s} : TouchesR (196611) (s.start a0) (@execFuse a0 a1 a2 a3 s) := by
  unfold execFuse
  try dsimp only
  refine TouchesR.next ?_
  refine Touches.doIf ?_ (fun _ h0 => ?_)
  · refine Touches.comp tch_actionWrite (by decide) ?_
    exact Touches.refl _ _
  · refine Touches.comp tch_doFuse (by decide) ?_
    exact h0

theorem tch_execConsentExpiry {a0 s} : TouchesR (131074) (s.start a0) (@execConsentExpiry a0 s) := by
  unfold execConsentExpiry
  try dsimp only
  refine TouchesR.next ?_
  refine Touches.doIf ?_ (fun _ h0 => ?_)
  · exact Touches.refl _ _
  · refine Touches.upd_husk (by decide) ?_
    refine Touches.comp tch_setB (by decide) ?_
    exact h0

theorem tch_execWithdraw {a0 a1 a2 s} : TouchesR (196611) (s.start a0) (@execWithdraw a0 a1 a2 s) := by
  unfold execWithdraw
  try dsimp only
  refine TouchesR.next ?_
  refine Touches.doIf ?_ (fun _ h0 => ?_)
  · refine Touches.comp tch_actionWrite (by decide) ?_
    exact Touches.refl _ _
  · refine Touches.comp tch_withdraw (by decide) ?_
    exact h0

theorem tch_execGive {a0 a1 a2 s} : TouchesR (196611) (s.start a0) (@execGive a0 a1 a2 s) := by
  unfold execGive
  try dsimp only
  refine TouchesR.next ?_
  refine Touches.doIf ?_ (fun _ h0 => ?_)
  · refine Touches.comp tch_actionWrite (by decide) ?_
    exact Touches.refl _ _
  · refine Touches.ite ?_ ?_
    · refine Touches.comp tch_withdraw (by decide) ?_
      exact h0
    · refine Touches.comp tch_give (by decide) ?_
      exact h0

theorem tch_execVtest {a0 a1 a2 s} : TouchesR (196611) (s.start a0) (@execVtest a0 a1 a2 s) := by
  unfold execVtest
  try dsimp only
  refine TouchesR.next ?_
  refine Touches.doIf ?_ (fun _ h0 => ?_)
  · refine Touches.comp tch_actionWrite (by decide) ?_
    exact Touches.refl _ _
  · refine Touches.comp tch_openDebug (by decide) ?_
    exact h0

theorem tch_execKdbg {a0 a1 a2 s} : TouchesR (196611) (s.start a0) (@execKdbg a0 a1 a2 s) := by
  unfold execKdbg
  try dsimp only
  refine TouchesR.next ?_
  refine Touches.doIf ?_ (fun _ h0 => ?_)
  · refine Touches.comp tch_actionWrite (by decide) ?_
    exact Touches.refl _ _
  · refine Touches.comp tch_openDebug (by decide) ?_
    exact h0

theorem tch_execSessionLockEnd {a0 a1 s} : TouchesR (131072) (s.start a0) (@execSessionLockEnd a0 a1 s) := by
  unfold execSessionLockEnd
  try dsimp only
  refine TouchesR.next ?_
  refine Touches.doIf ?_ (fun _ h0 => ?_)
  · exact Touches.refl _ _
  · refine Touches.comp tch_setSession (by decide) ?_
    exact h0

theorem tch_execSessionIdleTimeout {a0 a1 s} : TouchesR (134414339) (s.start a0) (@execSessionIdleTimeout a0 a1 s) := by
  unfold execSessionIdleTimeout
  try dsimp only
  refine TouchesR.next ?_
  refine Touches.doIf ?_ (fun _ h0 => ?_)
  · exact Touches.refl _ _
  · refine Touches.comp tch_endSession (by decide) ?_
    exact h0

theorem tch_execClose {a0 a1 a2 s} : TouchesR (134414339) (s.start a0) (@execClose a0 a1 a2 s) := by
  unfold execClose
  try dsimp only
  refine TouchesR.next ?_
  refine Touches.doIf ?_ (fun _ h0 => ?_)
  · refine Touches.comp tch_actionWrite (by decide) ?_
    exact Touches.refl _ _
  · refine Touches.comp tch_dropSession (by decide) ?_
    exact h0

theorem tch_execChallengeTimeout {a0 a1 s} : TouchesR (131074) (s.start a0) (@execChallengeTimeout a0 a1 s) := by
  unfold execChallengeTimeout
  try dsimp only
  refine TouchesR.next ?_
  refine Touches.doIf ?_ (fun _ h0 => ?_)
  · exact Touches.refl _ _
  · refine Touches.comp tch_lapse (by decide) ?_
    exact h0

theorem tch_execResponseVerified {a0 a1 s} : TouchesR (67305987) (s.start a0) (@execResponseVerified a0 a1 s) := by
  unfold execResponseVerified
  try dsimp only
  refine TouchesR.next ?_
  refine Touches.doIf ?_ (fun _ h0 => ?_)
  · exact Touches.refl _ _
  · refine Touches.ite ?_ ?_
    · refine Touches.comp tch_openSession (by decide) ?_
      exact h0
    · refine Touches.comp tch_failSession (by decide) ?_
      exact h0

theorem tch_execSubmit {a0 a1 a2 s} : TouchesR (196611) (s.start a0) (@execSubmit a0 a1 a2 s) := by
  unfold execSubmit
  try dsimp only
  refine TouchesR.next ?_
  refine Touches.doIf ?_ (fun _ h0 => ?_)
  · refine Touches.comp tch_actionWrite (by decide) ?_
    exact Touches.refl _ _
  · refine Touches.comp tch_doSubmit (by decide) ?_
    exact h0

theorem tch_execChallengeReady {a0 a1 s} : TouchesR (68719607810) (s.start a0) (@execChallengeReady a0 a1 s) := by
  unfold execChallengeReady
  try dsimp only
  refine TouchesR.next ?_
  refine Touches.doIf ?_ (fun _ h0 => ?_)
  · exact Touches.refl _ _
  · refine Touches.comp tch_doChallenge (by decide) ?_
    exact h0

theorem tch_execReq {a0 a1 a2 s} : TouchesR (196611) (s.start a0) (@execReq a0 a1 a2 s) := by
  unfold execReq
  try dsimp only
  refine TouchesR.next ?_
  refine Touches.doIf ?_ (fun _ h0 => ?_)
  · refine Touches.comp tch_actionWrite (by decide) ?_
    exact Touches.refl _ _
  · refine Touches.comp tch_doReq (by decide) ?_
    exact h0

theorem tch_execPwLockoutEnd {a0 a1 s} : TouchesR (131584) (s.start a0) (@execPwLockoutEnd a0 a1 s) := by
  unfold execPwLockoutEnd
  try dsimp only
  refine TouchesR.next ?_
  refine Touches.doIf ?_ (fun _ h0 => ?_)
  · exact Touches.refl _ _
  · refine Touches.comp tch_setPwSlot (by decide) ?_
    exact h0

theorem tch_execPsetTimeout {a0 s} : TouchesR (67108864) (s.start a0) (@execPsetTimeout a0 s) := by
  unfold execPsetTimeout
  try dsimp only
  refine TouchesR.next ?_
  split
  · refine Touches.doIf ?_ (fun _ h0 => ?_)
    · exact Touches.refl _ _
    · refine Touches.upd_safe (by decide) ?_
      exact h0
  · exact Touches.refl _ _

theorem tch_execTestMissed {a0 a1 s} : TouchesR (34452112257) (s.start a0) (@execTestMissed a0 a1 s) := by
  unfold execTestMissed
  try dsimp only
  refine TouchesR.next ?_
  refine Touches.doIf ?_ (fun _ h0 => ?_)
  · exact Touches.refl _ _
  · refine Touches.comp tch_outFault (by decide) ?_
    refine Touches.comp tch_post (by decide) ?_
    refine Touches.comp tch_setBitF (by decide) ?_
    exact h0

theorem tch_execTestPulseEnd {a0 a1 a2 a3 s} : TouchesR (34426847232) (s.start a0) (@execTestPulseEnd a0 a1 a2 a3 s) := by
  unfold execTestPulseEnd
  try dsimp only
  refine TouchesR.next ?_
  split
  · refine Touches.doIf ?_ (fun _ h0 => ?_)
    · exact Touches.refl _ _
    · refine Touches.comp tch_emit (by decide) ?_
      refine Touches.comp tch_setSafeOut (by decide) ?_
      exact h0
  · exact Touches.refl _ _

theorem tch_execTestPulseStart {a0 a1 s} : TouchesR (34426847232) (s.start a0) (@execTestPulseStart a0 a1 s) := by
  unfold execTestPulseStart
  try dsimp only
  refine TouchesR.next ?_
  refine Touches.doIf ?_ (fun _ h0 => ?_)
  · exact Touches.refl _ _
  · refine Touches.comp tch_emit (by decide) ?_
    refine Touches.comp tch_setSafeOut (by decide) ?_
    exact h0

theorem tch_execReadbackSample {a0 a1 a2 s} : TouchesR (34452112257) (s.start a0) (@execReadbackSample a0 a1 a2 s) := by
  unfold execReadbackSample
  try dsimp only
  refine TouchesR.next ?_
  refine Touches.doIf ?_ (fun _ h0 => ?_)
  · exact Touches.refl _ _
  · refine Touches.foldl ?_ (fun _ _ h1 => ?_)
    · exact h0
    · refine Touches.doIf ?_ (fun _ h2 => ?_)
      · exact h1
      · refine Touches.comp tch_readback (by decide) ?_
        exact h2

theorem tch_execRstStuck {a0 s} : TouchesR (66049) (s.start a0) (@execRstStuck a0 s) := by
  unfold execRstStuck
  try dsimp only
  refine TouchesR.next ?_
  refine Touches.doIf ?_ (fun _ h0 => ?_)
  · exact Touches.refl _ _
  · refine Touches.comp tch_raise (by decide) ?_
    exact h0

theorem tch_execSrstRelease {a0 a1 a2 s} : TouchesR (67109376) (s.start a0) (@execSrstRelease a0 a1 a2 s) := by
  unfold execSrstRelease
  try dsimp only
  refine TouchesR.next ?_
  refine Touches.doIf ?_ (fun _ h0 => ?_)
  · exact Touches.refl _ _
  · refine Touches.upd_safe (by decide) ?_
    refine Touches.comp tch_setB (by decide) ?_
    refine Touches.comp tch_setB (by decide) ?_
    exact h0

theorem tch_execSrstPress {a0 a1 a2 s} : TouchesR (67109376) (s.start a0) (@execSrstPress a0 a1 a2 s) := by
  unfold execSrstPress
  try dsimp only
  refine TouchesR.next ?_
  refine Touches.doIf ?_ (fun _ h0 => ?_)
  · exact Touches.refl _ _
  · refine Touches.upd_safe (by decide) ?_
    refine Touches.comp tch_setB (by decide) ?_
    exact h0

theorem tch_execSinDiscrepancy {a0 a1 s} : TouchesR (67174913) (s.start a0) (@execSinDiscrepancy a0 a1 s) := by
  unfold execSinDiscrepancy
  try dsimp only
  refine TouchesR.next ?_
  refine Touches.doIf ?_ (fun _ h0 => ?_)
  · exact Touches.refl _ _
  · refine Touches.comp tch_sinDemand (by decide) ?_
    refine Touches.comp tch_pendAxes (by decide) ?_
    refine Touches.upd_safe (by decide) ?_
    refine Touches.comp tch_post (by decide) ?_
    refine Touches.comp tch_setBitF (by decide) ?_
    exact h0

theorem tch_execSinChange {a0 a1 a2 a3 a4 s} : TouchesR (67109376) (s.start a0) (@execSinChange a0 a1 a2 a3 a4 s) := by
  unfold execSinChange
  try dsimp only
  refine TouchesR.next ?_
  refine Touches.doIf ?_ (fun _ h0 => ?_)
  · exact Touches.refl _ _
  · refine Touches.comp tch_sinChange (by decide) ?_
    exact h0

theorem tch_execChaffTestDone {a0 a1 s} : TouchesR (34452112257) (s.start a0) (@execChaffTestDone a0 a1 s) := by
  unfold execChaffTestDone
  try dsimp only
  refine TouchesR.next ?_
  refine Touches.doIf ?_ (fun _ h0 => ?_)
  · exact Touches.refl _ _
  · split
    · refine Touches.comp tch_post (by decide) ?_
      refine Touches.comp tch_halfFault (by decide) ?_
      exact h0
    · refine Touches.doIf ?_ (fun _ h1 => ?_)
      · exact h0
      · refine Touches.comp tch_setB (by decide) ?_
        exact h1

theorem tch_execSplitTimeout {a0 a1 s} : TouchesR (36599604097) (s.start a0) (@execSplitTimeout a0 a1 s) := by
  unfold execSplitTimeout
  try dsimp only
  refine TouchesR.next ?_
  refine Touches.doIf ?_ (fun _ h0 => ?_)
  · exact Touches.refl _ _
  · refine Touches.comp tch_pairFault (by decide) ?_
    refine Touches.comp tch_setB (by decide) ?_
    exact h0

theorem tch_execRejoinDone {a0 a1 s} : TouchesR (2214666753) (s.start a0) (@execRejoinDone a0 a1 s) := by
  unfold execRejoinDone
  try dsimp only
  refine TouchesR.next ?_
  refine Touches.doIf ?_ (fun _ h0 => ?_)
  · exact Touches.refl _ _
  · refine Touches.comp tch_relPairOver (by decide) ?_
    refine Touches.comp tch_post (by decide) ?_
    refine Touches.comp tch_setB (by decide) ?_
    refine Touches.comp tch_setF (by decide) ?_
    refine Touches.upd_safe (by decide) ?_
    refine Touches.foldl ?_ (fun _ _ h1 => ?_)
    · exact h0
    · refine Touches.comp tch_setAxHalf (by decide) ?_
      exact h1

theorem tch_execRejoin {a0 a1 a2 a3 s} : TouchesR (36599735171) (s.start a0) (@execRejoin a0 a1 a2 a3 s) := by
  unfold execRejoin
  try dsimp only
  refine TouchesR.next ?_
  refine Touches.doIf ?_ (fun _ h0 => ?_)
  · refine Touches.comp tch_actionWrite (by decide) ?_
    exact Touches.refl _ _
  · refine Touches.comp tch_rejoinRequest (by decide) ?_
    refine Touches.comp tch_setB (by decide) ?_
    exact h0

theorem tch_execSplitDone {a0 a1 a2 a3 s} : TouchesR (36599604097) (s.start a0) (@execSplitDone a0 a1 a2 a3 s) := by
  unfold execSplitDone
  try dsimp only
  refine TouchesR.next ?_
  refine Touches.doIf ?_ (fun _ h0 => ?_)
  · exact Touches.refl _ _
  · refine Touches.ite ?_ ?_
    · refine Touches.comp tch_post (by decide) ?_
      refine Touches.upd_safe (by decide) ?_
      refine Touches.comp tch_incF (by decide) ?_
      refine Touches.comp tch_setF (by decide) ?_
      refine Touches.comp tch_setB (by decide) ?_
      exact h0
    · refine Touches.comp tch_pairFault (by decide) ?_
      refine Touches.comp tch_setB (by decide) ?_
      exact h0

theorem tch_execSplit {a0 a1 a2 s} : TouchesR (67305987) (s.start a0) (@execSplit a0 a1 a2 s) := by
  unfold execSplit
  try dsimp only
  refine TouchesR.next ?_
  refine Touches.doIf ?_ (fun _ h0 => ?_)
  · refine Touches.comp tch_actionWrite (by decide) ?_
    exact Touches.refl _ _
  · refine Touches.comp tch_splitRequest (by decide) ?_
    refine Touches.comp tch_setB (by decide) ?_
    exact h0

theorem tch_execCrossLinkLoss {a0 a1 s} : TouchesR (34452112257) (s.start a0) (@execCrossLinkLoss a0 a1 s) := by
  unfold execCrossLinkLoss
  try dsimp only
  refine TouchesR.next ?_
  refine Touches.doIf ?_ (fun _ h0 => ?_)
  · exact Touches.refl _ _
  · refine Touches.comp tch_halfFault (by decide) ?_
    exact h0

theorem tch_execFaultMessage {a0 a1 s} : TouchesR (34452112257) (s.start a0) (@execFaultMessage a0 a1 s) := by
  unfold execFaultMessage
  try dsimp only
  refine TouchesR.next ?_
  refine Touches.doIf ?_ (fun _ h0 => ?_)
  · exact Touches.refl _ _
  · refine Touches.comp tch_halfFault (by decide) ?_
    exact h0

theorem tch_execLockstepMismatch {a0 a1 s} : TouchesR (36599604097) (s.start a0) (@execLockstepMismatch a0 a1 s) := by
  unfold execLockstepMismatch
  try dsimp only
  refine TouchesR.next ?_
  refine Touches.doIf ?_ (fun _ h0 => ?_)
  · exact Touches.refl _ _
  · refine Touches.comp tch_pairFault (by decide) ?_
    refine Touches.comp tch_post (by decide) ?_
    exact h0

theorem tch_execSafetyResult {a0 a1 s} : TouchesR (67108864) (s.start a0) (@execSafetyResult a0 a1 s) := by
  unfold execSafetyResult
  try dsimp only
  refine TouchesR.next ?_
  refine Touches.doIf ?_ (fun _ h0 => ?_)
  · exact Touches.refl _ _
  · refine Touches.foldl ?_ (fun _ _ h1 => ?_)
    · refine Touches.upd_safe (by decide) ?_
      exact h0
    · refine Touches.doIf ?_ (fun _ h2 => ?_)
      · refine Touches.comp tch_setAxHalf (by decide) ?_
        exact h1
      · refine Touches.comp tch_setAxHalf (by decide) ?_
        exact h2

theorem tch_execSafetyEvaluation {a0 a1 s} : TouchesR (1133938541057) (s.start a0) (@execSafetyEvaluation a0 a1 s) := by
  unfold execSafetyEvaluation
  try dsimp only
  refine TouchesR.next ?_
  refine Touches.doIf ?_ (fun _ h0 => ?_)
  · exact Touches.refl _ _
  · refine Touches.comp tch_sendResult (by decide) ?_
    refine Touches.foldl ?_ (fun _ _ h1 => ?_)
    · refine Touches.upd_safe (by decide) ?_
      exact h0
    · refine Touches.comp tch_showAxis (by decide) ?_
      refine Touches.comp tch_crossCompare (by decide) ?_
      refine Touches.comp tch_directViolations (by decide) ?_
      refine Touches.comp tch_functions (by decide) ?_
      refine Touches.comp tch_activations (by decide) ?_
      refine Touches.comp tch_estimate (by decide) ?_
      exact h1

theorem tch_execSafetyCycleStart {a0 a1 a2 a3 s} : TouchesR (1134097957769) (s.start a0) (@execSafetyCycleStart a0 a1 a2 a3 s) := by
  unfold execSafetyCycleStart
  try dsimp only
  refine TouchesR.next ?_
  refine Touches.doIf ?_ (fun _ h0 => ?_)
  · exact Touches.refl _ _
  · refine Touches.comp tch_cycleStart (by decide) ?_
    exact h0

theorem tch_execLifeSave {a0 s} : TouchesR (2164260864) (s.start a0) (@execLifeSave a0 s) := by
  unfold execLifeSave
  try dsimp only
  refine TouchesR.next ?_
  refine Touches.doIf ?_ (fun _ h0 => ?_)
  · exact Touches.refl _ _
  · refine Touches.foldl ?_ (fun _ _ h1 => ?_)
    · refine Touches.comp tch_saveRecords (by decide) ?_
      exact h0
    · refine Touches.comp tch_setLifePos (by decide) ?_
      exact h1

theorem tch_execLifeStep {a0 s} : TouchesR (1133888208897) (s.start a0) (@execLifeStep a0 s) := by
  unfold execLifeStep
  try dsimp only
  refine TouchesR.next ?_
  refine Touches.doIf ?_ (fun _ h0 => ?_)
  · exact Touches.refl _ _
  · refine Touches.foldl ?_ (fun _ _ h1 => ?_)
    · refine Touches.foldl ?_ (fun _ _ h1 => ?_)
      · refine Touches.upd_trip (by decide) ?_
        exact h0
      · refine Touches.comp tch_lifeTarget (by decide) ?_
        exact h1
    · refine Touches.comp tch_lifeSend (by decide) ?_
      exact h1

theorem tch_execLifeRecord {a0 a1 a2 a3 s} : TouchesR (16777216) (s.start a0) (@execLifeRecord a0 a1 a2 a3 s) := by
  unfold execLifeRecord
  try dsimp only
  refine TouchesR.next ?_
  refine Touches.doIf ?_ (fun _ h0 => ?_)
  · exact Touches.refl _ _
  · refine Touches.comp tch_setLifeRec (by decide) ?_
    exact h0

theorem tch_execCmpTrip {a0 a1 a2 a3 a4 s} : TouchesR (34385002881) (s.start a0) (@execCmpTrip a0 a1 a2 a3 a4 s) := by
  unfold execCmpTrip
  try dsimp only
  refine TouchesR.next ?_
  refine Touches.doIf ?_ (fun _ h0 => ?_)
  · exact Touches.refl _ _
  · refine Touches.comp tch_settle (by decide) ?_
    refine Touches.comp tch_raiseBit (by decide) ?_
    refine Touches.comp tch_setBitF (by decide) ?_
    exact h0

theorem tch_execShortClear {a0 a1 a2 a3 s} : TouchesR (34385133955) (s.start a0) (@execShortClear a0 a1 a2 a3 s) := by
  unfold execShortClear
  try dsimp only
  refine TouchesR.next ?_
  refine Touches.doIf ?_ (fun _ h0 => ?_)
  · refine Touches.comp tch_actionWrite (by first | decide | (split <;> decide) | exact blkOk _ (by decide) | (unfold lostF; split <;> decide) | (unfold refOkF; split <;> decide)) ?_
    exact Touches.refl _ _
  · refine Touches.comp tch_settle (by decide) ?_
    refine Touches.foldl ?_ (fun _ _ h1 => ?_)
    · exact h0
    · refine Touches.comp tch_w1c (by first | decide | (split <;> decide) | exact blkOk _ (by decide) | (unfold lostF; split <;> decide) | (unfold refOkF; split <;> decide)) ?_
      exact h1

theorem tch_execTripLatchClear {a0 a1 a2 s} : TouchesR (34385133955) (s.start a0) (@execTripLatchClear a0 a1 a2 s) := by
  unfold execTripLatchClear
  try dsimp only
  refine TouchesR.next ?_
  refine Touches.doIf ?_ (fun _ h0 => ?_)
  · refine Touches.comp tch_actionWrite (by decide) ?_
    exact Touches.refl _ _
  · refine Touches.comp tch_settle (by decide) ?_
    refine Touches.foldl ?_ (fun _ _ h1 => ?_)
    · exact h0
    · refine Touches.comp tch_clearLatch (by decide) ?_
      exact h1

theorem tch_execStoMaskEnd {a0 s} : TouchesR (34385002881) (s.start a0) (@execStoMaskEnd a0 s) := by
  unfold execStoMaskEnd
  try dsimp only
  refine TouchesR.next ?_
  split
  · refine Touches.doIf ?_ (fun _ h0 => ?_)
    · exact Touches.refl _ _
    · refine Touches.comp tch_settle (by decide) ?_
      refine Touches.comp tch_stoBits (by decide) ?_
      refine Touches.upd_trip (by decide) ?_
      refine Touches.comp tch_reaccept (by decide) ?_
      exact h0
  · exact Touches.refl _ _

theorem tch_execVgdUvRelease {a0 s} : TouchesR (34385002881) (s.start a0) (@execVgdUvRelease a0 s) := by
  unfold execVgdUvRelease
  try dsimp only
  refine TouchesR.next ?_
  refine Touches.doIf ?_ (fun _ h0 => ?_)
  · exact Touches.refl _ _
  · refine Touches.comp tch_settle (by decide) ?_
    refine Touches.comp tch_setB (by decide) ?_
    exact h0

theorem tch_execVgdUv {a0 s} : TouchesR (34385002881) (s.start a0) (@execVgdUv a0 s) := by
  unfold execVgdUv
  try dsimp only
  refine TouchesR.next ?_
  refine Touches.doIf ?_ (fun _ h0 => ?_)
  · exact Touches.refl _ _
  · refine Touches.comp tch_vgdDown (by decide) ?_
    exact h0

theorem tch_execVdsFault {a0 a1 a2 a3 a4 s} : TouchesR (34385002881) (s.start a0) (@execVdsFault a0 a1 a2 a3 a4 s) := by
  unfold execVdsFault
  try dsimp only
  refine TouchesR.next ?_
  refine Touches.doIf ?_ (fun _ h0 => ?_)
  · exact Touches.refl _ _
  · refine Touches.ite ?_ ?_
    · refine Touches.comp tch_settle (by decide) ?_
      refine Touches.doIf ?_ (fun _ h1 => ?_)
      · refine Touches.comp tch_raiseBit (by decide) ?_
        refine Touches.comp tch_setBitF (by decide) ?_
        refine Touches.comp tch_setBitF (by decide) ?_
        refine Touches.comp tch_advance (by decide) ?_
        exact h0
      · refine Touches.comp tch_shortReport (by decide) ?_
        exact h1
    · refine Touches.comp tch_advance (by decide) ?_
      exact h0

theorem tch_execBootUvRelease {a0 a1 a2 s} : TouchesR (34385002881) (s.start a0) (@execBootUvRelease a0 a1 a2 s) := by
  unfold execBootUvRelease
  try dsimp only
  refine TouchesR.next ?_
  refine Touches.doIf ?_ (fun _ h0 => ?_)
  · exact Touches.refl _ _
  · refine Touches.comp tch_settle (by decide) ?_
    refine Touches.comp tch_bootAny (by decide) ?_
    refine Touches.comp tch_setBitF (by decide) ?_
    exact h0

theorem tch_execBootUv {a0 a1 a2 s} : TouchesR (34385002881) (s.start a0) (@execBootUv a0 a1 a2 s) := by
  unfold execBootUv
  try dsimp only
  refine TouchesR.next ?_
  refine Touches.doIf ?_ (fun _ h0 => ?_)
  · exact Touches.refl _ _
  · refine Touches.comp tch_settlePins (by decide) ?_
    refine Touches.comp tch_settle (by decide) ?_
    refine Touches.comp tch_bootAny (by decide) ?_
    refine Touches.comp tch_raiseBit (by decide) ?_
    refine Touches.comp tch_setBitF (by decide) ?_
    refine Touches.comp tch_bootDown (by decide) ?_
    exact h0

theorem tch_execFaultReturn {a0 a1 a2 a3 s} : TouchesR (34385002881) (s.start a0) (@execFaultReturn a0 a1 a2 a3 s) := by
  unfold execFaultReturn
  try dsimp only
  refine TouchesR.next ?_
  refine Touches.doIf ?_ (fun _ h0 => ?_)
  · exact Touches.refl _ _
  · refine Touches.comp tch_settle (by decide) ?_
    refine Touches.ite ?_ ?_
    · refine Touches.comp tch_faultAccepted (by decide) ?_
      refine Touches.comp tch_advance (by decide) ?_
      exact h0
    · refine Touches.comp tch_setBitF (by decide) ?_
      refine Touches.comp tch_advance (by decide) ?_
      exact h0

theorem tch_execSlotStarted {a0 a1 s} : TouchesR (1754694017529) (s.start a0) (@execSlotStarted a0 a1 s) := by
  unfold execSlotStarted
  try dsimp only
  refine TouchesR.next ?_
  refine Touches.ite ?_ ?_
  · refine Touches.doIf ?_ (fun _ h0 => ?_)
    · exact Touches.refl _ _
    · refine Touches.comp tch_settle (by decide) ?_
      refine Touches.comp tch_bcSync (by decide) ?_
      refine Touches.comp tch_carrierFollowers (by decide) ?_
      refine Touches.comp tch_startCarrier (by decide) ?_
      exact h0
  · exact Touches.refl _ _

theorem tch_execCarrierEvent {a0 a1 s} : TouchesR (1754694017529) (s.start a0) (@execCarrierEvent a0 a1 s) := by
  unfold execCarrierEvent
  try dsimp only
  refine TouchesR.next ?_
  refine Touches.ite ?_ ?_
  · split
    · refine Touches.doIf ?_ (fun _ h0 => ?_)
      · exact Touches.refl _ _
      · refine Touches.comp tch_carrierEvent (by decide) ?_
        exact h0
    · exact Touches.refl _ _
  · exact Touches.refl _ _

theorem tch_execBmsStale {a0 a1 s} : TouchesR (33619969) (s.start a0) (@execBmsStale a0 a1 s) := by
  unfold execBmsStale
  try dsimp only
  refine TouchesR.next ?_
  refine Touches.doIf ?_ (fun _ h0 => ?_)
  · exact Touches.refl _ _
  · refine Touches.comp tch_bmsStale (by decide) ?_
    exact h0

theorem tch_execMainSettled {a0 a1 s} : TouchesR (33619969) (s.start a0) (@execMainSettled a0 a1 s) := by
  unfold execMainSettled
  try dsimp only
  refine TouchesR.next ?_
  refine Touches.doIf ?_ (fun _ h0 => ?_)
  · exact Touches.refl _ _
  · refine Touches.comp tch_mainSettled (by decide) ?_
    exact h0

theorem tch_execPrechargeFail {a0 a1 s} : TouchesR (33619969) (s.start a0) (@execPrechargeFail a0 a1 s) := by
  unfold execPrechargeFail
  try dsimp only
  refine TouchesR.next ?_
  refine Touches.doIf ?_ (fun _ h0 => ?_)
  · exact Touches.refl _ _
  · split
    · refine Touches.comp tch_dcFail (by decide) ?_
      exact h0
    · exact h0

theorem tch_execResyncTimeout {a0 a1 s} : TouchesR (33619969) (s.start a0) (@execResyncTimeout a0 a1 s) := by
  unfold execResyncTimeout
  try dsimp only
  refine TouchesR.next ?_
  refine Touches.doIf ?_ (fun _ h0 => ?_)
  · exact Touches.refl _ _
  · refine Touches.comp tch_resyncTimeout (by decide) ?_
    exact h0

theorem tch_execBlockEnd {a0 a1 s} : TouchesR (33619969) (s.start a0) (@execBlockEnd a0 a1 s) := by
  unfold execBlockEnd
  try dsimp only
  refine TouchesR.next ?_
  refine Touches.doIf ?_ (fun _ h0 => ?_)
  · exact Touches.refl _ _
  · refine Touches.comp tch_blockEnd (by decide) ?_
    exact h0

theorem tch_execRtTrip {a0 a1 s} : TouchesR (33619969) (s.start a0) (@execRtTrip a0 a1 s) := by
  unfold execRtTrip
  try dsimp only
  refine TouchesR.next ?_
  refine Touches.doIf ?_ (fun _ h0 => ?_)
  · exact Touches.refl _ _
  · refine Touches.comp tch_gridTrip (by decide) ?_
    exact h0

theorem tch_execGridReturn {a0 a1 s} : TouchesR (33619969) (s.start a0) (@execGridReturn a0 a1 s) := by
  unfold execGridReturn
  try dsimp only
  refine TouchesR.next ?_
  refine Touches.doIf ?_ (fun _ h0 => ?_)
  · exact Touches.refl _ _
  · refine Touches.comp tch_gridReturn (by decide) ?_
    exact h0

theorem tch_execCmdStatic {a0 a1 s} : TouchesR (1683692831153) (s.start a0) (@execCmdStatic a0 a1 s) := by
  unfold execCmdStatic
  try dsimp only
  refine TouchesR.next ?_
  refine Touches.doIf ?_ (fun _ h0 => ?_)
  · exact Touches.refl _ _
  · refine Touches.doIf ?_ (fun _ h1 => ?_)
    · refine Touches.foldl ?_ (fun _ _ h1 => ?_)
      · refine Touches.comp tch_setCmd (by decide) ?_
        exact h0
      · refine Touches.comp tch_dutyCode (by decide) ?_
        exact h1
    · refine Touches.comp tch_cmdCode (by decide) ?_
      refine Touches.ite ?_ ?_
      · refine Touches.comp tch_raise (by decide) ?_
        refine Touches.comp tch_setCmd (by decide) ?_
        exact h1
      · refine Touches.comp tch_raise (by decide) ?_
        refine Touches.comp tch_setCmd (by decide) ?_
        exact h1

theorem tch_execCmdFrequencyGate {a0 a1 s} : TouchesR (1752412307889) (s.start a0) (@execCmdFrequencyGate a0 a1 s) := by
  unfold execCmdFrequencyGate
  try dsimp only
  refine TouchesR.next ?_
  refine Touches.doIf ?_ (fun _ h0 => ?_)
  · exact Touches.refl _ _
  · refine Touches.comp tch_cmdCode (by decide) ?_
    refine Touches.comp tch_setCmd (by decide) ?_
    refine Touches.comp tch_gateCode (by decide) ?_
    refine Touches.comp tch_setCmd (by decide) ?_
    exact h0

theorem tch_execCmdDutyEdge {a0 a1 s} : TouchesR (1683692831153) (s.start a0) (@execCmdDutyEdge a0 a1 s) := by
  unfold execCmdDutyEdge
  try dsimp only
  refine TouchesR.next ?_
  refine Touches.doIf ?_ (fun _ h0 => ?_)
  · exact Touches.refl _ _
  · refine Touches.foldl ?_ (fun _ _ h1 => ?_)
    · refine Touches.comp tch_setCmd (by decide) ?_
      exact h0
    · refine Touches.comp tch_dutyCode (by decide) ?_
      exact h1

theorem tch_execCmdAnalogueConversion {a0 a1 s} : TouchesR (1683692831153) (s.start a0) (@execCmdAnalogueConversion a0 a1 s) := by
  unfold execCmdAnalogueConversion
  try dsimp only
  refine TouchesR.next ?_
  refine Touches.doIf ?_ (fun _ h0 => ?_)
  · exact Touches.refl _ _
  · refine Touches.comp tch_cmdCode (by decide) ?_
    refine Touches.comp tch_setCmd (by decide) ?_
    exact h0

theorem tch_execBcRetry {a0 a1 s} : TouchesR (1683686539649) (s.start a0) (@execBcRetry a0 a1 s) := by
  unfold execBcRetry
  try dsimp only
  refine TouchesR.next ?_
  refine Touches.doIf ?_ (fun _ h0 => ?_)
  · exact Touches.refl _ _
  · refine Touches.comp tch_tokenRequest (by decide) ?_
    refine Touches.comp tch_setBc (by decide) ?_
    exact h0

theorem tch_execBcStall {a0 a1 s} : TouchesR (584140816769) (s.start a0) (@execBcStall a0 a1 s) := by
  unfold execBcStall
  try dsimp only
  refine TouchesR.next ?_
  refine Touches.doIf ?_ (fun _ h0 => ?_)
  · exact Touches.refl _ _
  · refine Touches.comp tch_bcFail (by decide) ?_
    refine Touches.comp tch_raise (by decide) ?_
    exact h0

theorem tch_execRampEnd {a0 a1 s} : TouchesR (584140816769) (s.start a0) (@execRampEnd a0 a1 s) := by
  unfold execRampEnd
  try dsimp only
  refine TouchesR.next ?_
  refine Touches.doIf ?_ (fun _ h0 => ?_)
  · exact Touches.refl _ _
  · refine Touches.comp tch_bcFail (by decide) ?_
    exact h0

theorem tch_execZeroCross {a0 a1 a2 s} : TouchesR (652860293505) (s.start a0) (@execZeroCross a0 a1 a2 s) := by
  unfold execZeroCross
  try dsimp only
  refine TouchesR.next ?_
  refine Touches.doIf ?_ (fun _ h0 => ?_)
  · exact Touches.refl _ _
  · refine Touches.comp tch_zeroCross (by decide) ?_
    exact h0

theorem tch_execCommutation {a0 a1 s} : TouchesR (584140816769) (s.start a0) (@execCommutation a0 a1 s) := by
  unfold execCommutation
  try dsimp only
  refine TouchesR.next ?_
  refine Touches.doIf ?_ (fun _ h0 => ?_)
  · exact Touches.refl _ _
  · refine Touches.comp tch_bcCommutate (by decide) ?_
    exact h0

theorem tch_execAlignEnd {a0 a1 s} : TouchesR (584140816769) (s.start a0) (@execAlignEnd a0 a1 s) := by
  unfold execAlignEnd
  try dsimp only
  refine TouchesR.next ?_
  refine Touches.doIf ?_ (fun _ h0 => ?_)
  · exact Touches.refl _ _
  · refine Touches.comp tch_bcRampStart (by decide) ?_
    refine Touches.comp tch_setBc (by decide) ?_
    exact h0

theorem tch_execDischTimeout {a0 a1 s} : TouchesR (33619969) (s.start a0) (@execDischTimeout a0 a1 s) := by
  unfold execDischTimeout
  try dsimp only
  refine TouchesR.next ?_
  refine Touches.doIf ?_ (fun _ h0 => ?_)
  · exact Touches.refl _ _
  · refine Touches.comp tch_drvEnter (by decide) ?_
    refine Touches.comp tch_post (by decide) ?_
    exact h0

theorem tch_execAscHold {a0 a1 s} : TouchesR (33619969) (s.start a0) (@execAscHold a0 a1 s) := by
  unfold execAscHold
  try dsimp only
  refine TouchesR.next ?_
  refine Touches.doIf ?_ (fun _ h0 => ?_)
  · exact Touches.refl _ _
  · refine Touches.comp tch_drvEnter (by decide) ?_
    refine Touches.comp tch_post (by decide) ?_
    refine Touches.comp tch_modDrv (by decide) ?_
    exact h0

theorem tch_execCoastTimeout {a0 a1 s} : TouchesR (33619969) (s.start a0) (@execCoastTimeout a0 a1 s) := by
  unfold execCoastTimeout
  try dsimp only
  refine TouchesR.next ?_
  refine Touches.doIf ?_ (fun _ h0 => ?_)
  · exact Touches.refl _ _
  · refine Touches.comp tch_startFailed (by decide) ?_
    exact h0

theorem tch_execForcedMigration {a0 a1 s} : TouchesR (2198932593) (s.start a0) (@execForcedMigration a0 a1 s) := by
  unfold execForcedMigration
  try dsimp only
  refine TouchesR.next ?_
  split
  · refine Touches.ite ?_ ?_
    · refine Touches.ite ?_ ?_
      · refine Touches.comp tch_forcedDone (by decide) ?_
        exact Touches.refl _ _
      · refine Touches.doIf ?_ (fun _ h0 => ?_)
        · refine Touches.upd_rel (by decide) ?_
          exact Touches.refl _ _
        · refine Touches.comp tch_takeKernels (by decide) ?_
          refine Touches.comp tch_copyMem (by decide) ?_
          exact h0
    · exact Touches.refl _ _
  · exact Touches.refl _ _

theorem tch_execSnapshotDeadline {a0 s} : TouchesR (1136186695753) (s.start a0) (@execSnapshotDeadline a0 s) := by
  unfold execSnapshotDeadline
  try dsimp only
  refine TouchesR.next ?_
  split
  · refine Touches.doIf ?_ (fun _ h0 => ?_)
    · exact Touches.refl _ _
    · refine Touches.comp tch_abortMig (by decide) ?_
      exact h0
  · exact Touches.refl _ _

theorem tch_execMigVerify {a0 a1 a2 s} : TouchesR (1136204524665) (s.start a0) (@execMigVerify a0 a1 a2 s) := by
  unfold execMigVerify
  try dsimp only
  refine TouchesR.next ?_
  split
  · refine Touches.ite ?_ ?_
    · refine Touches.ite ?_ ?_
      · refine Touches.comp tch_commitMig (by decide) ?_
        refine Touches.comp tch_sendVerify (by decide) ?_
        refine Touches.comp tch_sendVerify (by decide) ?_
        exact Touches.refl _ _
      · refine Touches.comp tch_suspectMig (by decide) ?_
        refine Touches.comp tch_sendVerify (by decide) ?_
        refine Touches.comp tch_sendVerify (by decide) ?_
        exact Touches.refl _ _
    · exact Touches.refl _ _
  · exact Touches.refl _ _

theorem tch_execMigLoadDone {a0 s} : TouchesR (34603072) (s.start a0) (@execMigLoadDone a0 s) := by
  unfold execMigLoadDone
  try dsimp only
  refine TouchesR.next ?_
  split
  · refine Touches.ite ?_ ?_
    · refine Touches.upd_loop (by decide) ?_
      refine Touches.comp tch_setF (by decide) ?_
      refine Touches.comp tch_copyMem (by decide) ?_
      exact Touches.refl _ _
    · exact Touches.refl _ _
  · exact Touches.refl _ _

theorem tch_execParamTransaction {a0 a1 a2 a3 a4 a5 a6 s} : TouchesR (1134039203849) (s.start a0) (@execParamTransaction a0 a1 a2 a3 a4 a5 a6 s) := by
  unfold execParamTransaction
  try dsimp only
  refine TouchesR.next ?_
  refine Touches.doIf ?_ (fun _ h0 => ?_)
  · exact Touches.refl _ _
  · split
    · refine Touches.comp tch_agentReply (by decide) ?_
      refine Touches.comp tch_post (by decide) ?_
      exact h0
    · split
      · refine Touches.doIf ?_ (fun _ h1 => ?_)
        · refine Touches.comp tch_forwardTxn (by decide) ?_
          refine Touches.comp tch_modCtx (by decide) ?_
          exact h0
        · refine Touches.comp tch_forwardTxn (by decide) ?_
          refine Touches.comp tch_modCtx (by decide) ?_
          exact h1
      · refine Touches.comp tch_forwardTxn (by decide) ?_
        refine Touches.comp tch_modCtx (by decide) ?_
        exact h0

theorem tch_execCtxFaultClear {a0 a1 a2 a3 s} : TouchesR (33751107) (s.start a0) (@execCtxFaultClear a0 a1 a2 a3 s) := by
  unfold execCtxFaultClear
  try dsimp only
  refine TouchesR.next ?_
  refine Touches.doIf ?_ (fun _ h0 => ?_)
  · refine Touches.comp tch_actionWrite (by decide) ?_
    exact Touches.refl _ _
  · refine Touches.comp tch_modCtx (by decide) ?_
    refine Touches.comp tch_setCtxFault (by decide) ?_
    exact h0

theorem tch_execWdExpired {a0 a1 s} : TouchesR (584140816769) (s.start a0) (@execWdExpired a0 a1 s) := by
  unfold execWdExpired
  try dsimp only
  refine TouchesR.next ?_
  refine Touches.doIf ?_ (fun _ h0 => ?_)
  · exact Touches.refl _ _
  · refine Touches.comp tch_wdExpire (by decide) ?_
    exact h0

theorem tch_execCompareEffective {a0 a1 s} : TouchesR (1683686539649) (s.start a0) (@execCompareEffective a0 a1 s) := by
  unfold execCompareEffective
  try dsimp only
  refine TouchesR.next ?_
  refine Touches.doIf ?_ (fun _ h0 => ?_)
  · exact Touches.refl _ _
  · refine Touches.comp tch_settle (by decide) ?_
    refine Touches.comp tch_valuesEffective (by decide) ?_
    exact h0

theorem tch_execCmpwArrival {a0 a1 s} : TouchesR (1683686539713) (s.start a0) (@execCmpwArrival a0 a1 s) := by
  unfold execCmpwArrival
  try dsimp only
  refine TouchesR.next ?_
  refine Touches.doIf ?_ (fun _ h0 => ?_)
  · exact Touches.refl _ _
  · split
    · refine Touches.comp tch_cmpwArrive (by decide) ?_
      exact h0
    · exact h0

theorem tch_execEvaluation {a0 a1 a2 s} : TouchesR (1204914561097) (s.start a0) (@execEvaluation a0 a1 a2 s) := by
  unfold execEvaluation
  try dsimp only
  refine TouchesR.next ?_
  refine Touches.doIf ?_ (fun _ h0 => ?_)
  · exact Touches.refl _ _
  · refine Touches.comp tch_evaluate (by decide) ?_
    exact h0

theorem tch_execInputDeadline {a0 a1 s} : TouchesR (33620033) (s.start a0) (@execInputDeadline a0 a1 s) := by
  unfold execInputDeadline
  try dsimp only
  refine TouchesR.next ?_
  refine Touches.doIf ?_ (fun _ h0 => ?_)
  · exact Touches.refl _ _
  · refine Touches.comp tch_wakeEval (by decide) ?_
    exact h0

theorem tch_execInputArrival {a0 a1 a2 s} : TouchesR (1136186695753) (s.start a0) (@execInputArrival a0 a1 a2 s) := by
  unfold execInputArrival
  try dsimp only
  refine TouchesR.next ?_
  refine Touches.doIf ?_ (fun _ h0 => ?_)
  · exact Touches.refl _ _
  · refine Touches.comp tch_inputArrival (by decide) ?_
    exact h0

theorem tch_execLossClear {a0 a1 a2 a3 s} : TouchesR (34389328291) (s.start a0) (@execLossClear a0 a1 a2 a3 s) := by
  unfold execLossClear
  try dsimp only
  refine TouchesR.next ?_
  refine Touches.comp tch_settle (by decide) ?_
  refine Touches.doIf ?_ (fun _ h0 => ?_)
  · refine Touches.comp tch_actionWrite (by decide) ?_
    exact Touches.refl _ _
  · refine Touches.comp tch_clearLoss (by decide) ?_
    refine Touches.comp tch_piStatCleared (by decide) ?_
    exact h0

theorem tch_execExcFault {a0 a1 s} : TouchesR (34389197217) (s.start a0) (@execExcFault a0 a1 s) := by
  unfold execExcFault
  try dsimp only
  refine TouchesR.next ?_
  refine Touches.doIf ?_ (fun _ h0 => ?_)
  · exact Touches.refl _ _
  · refine Touches.comp tch_lossCause (by decide) ?_
    refine Touches.comp tch_excSwitch (by decide) ?_
    refine Touches.comp tch_cond (by decide) ?_
    exact h0

theorem tch_execSerTimeout {a0 a1 a2 s} : TouchesR (34389197217) (s.start a0) (@execSerTimeout a0 a1 a2 s) := by
  unfold execSerTimeout
  try dsimp only
  refine TouchesR.next ?_
  refine Touches.doIf ?_ (fun _ h0 => ?_)
  · exact Touches.refl _ _
  · refine Touches.comp tch_serTimeout (by decide) ?_
    exact h0

theorem tch_execSerialFrameEnd {a0 a1 a2 a3 a4 a5 a6 a7 s} : TouchesR (1133900824993) (s.start a0) (@execSerialFrameEnd a0 a1 a2 a3 a4 a5 a6 a7 s) := by
  unfold execSerialFrameEnd
  try dsimp only
  refine TouchesR.next ?_
  refine Touches.doIf ?_ (fun _ h0 => ?_)
  · exact Touches.refl _ _
  · refine Touches.comp tch_serialEnd (by decide) ?_
    exact h0

theorem tch_execHallTransition {a0 a1 a2 a3 a4 a5 s} : TouchesR (34389197217) (s.start a0) (@execHallTransition a0 a1 a2 a3 a4 a5 s) := by
  unfold execHallTransition
  try dsimp only
  refine TouchesR.next ?_
  refine Touches.doIf ?_ (fun _ h0 => ?_)
  · exact Touches.refl _ _
  · refine Touches.comp tch_hallLevels (by decide) ?_
    exact h0

theorem tch_execIndexLatch {a0 a1 a2 a3 a4 a5 a6 s} : TouchesR (34389197217) (s.start a0) (@execIndexLatch a0 a1 a2 a3 a4 a5 a6 s) := by
  unfold execIndexLatch
  try dsimp only
  refine TouchesR.next ?_
  refine Touches.doIf ?_ (fun _ h0 => ?_)
  · exact Touches.refl _ _
  · refine Touches.doIf ?_ (fun _ h1 => ?_)
    · refine Touches.comp tch_quadLevels (by decide) ?_
      exact h0
    · refine Touches.comp tch_indexLatch (by decide) ?_
      exact h1

theorem tch_execQuadEdge {a0 a1 a2 a3 a4 a5 s} : TouchesR (34389197217) (s.start a0) (@execQuadEdge a0 a1 a2 a3 a4 a5 s) := by
  unfold execQuadEdge
  try dsimp only
  refine TouchesR.next ?_
  refine Touches.doIf ?_ (fun _ h0 => ?_)
  · exact Touches.refl _ _
  · refine Touches.comp tch_quadLevels (by decide) ?_
    exact h0

theorem tch_execPairFaultClear {a0 a1 a2 s} : TouchesR (2293779) (s.start a0) (@execPairFaultClear a0 a1 a2 s) := by
  unfold execPairFaultClear
  try dsimp only
  refine TouchesR.next ?_
  refine Touches.doIf ?_ (fun _ h0 => ?_)
  · refine Touches.comp tch_actionWrite (by decide) ?_
    exact Touches.refl _ _
  · refine Touches.comp tch_pairAny (by decide) ?_
    refine Touches.foldl ?_ (fun _ _ h1 => ?_)
    · exact h0
    · refine Touches.comp tch_clearPair (by decide) ?_
      exact h1

theorem tch_execNtimeGeneratorEvent {a0 a1 s} : TouchesR (1754694017529) (s.start a0) (@execNtimeGeneratorEvent a0 a1 s) := by
  unfold execNtimeGeneratorEvent
  try dsimp only
  refine TouchesR.next ?_
  refine Touches.ite ?_ ?_
  · split
    · refine Touches.comp tch_settle (by decide) ?_
      refine Touches.comp tch_bcSync (by decide) ?_
      refine Touches.comp tch_triggersNtev (by decide) ?_
      refine Touches.comp tch_captureNtev (by decide) ?_
      refine Touches.comp tch_measNtev (by decide) ?_
      refine Touches.comp tch_ntevMark (by decide) ?_
      exact Touches.refl _ _
    · exact Touches.refl _ _
  · exact Touches.refl _ _

theorem tch_execSdResumed {a0 a1 s} : TouchesR (2162689) (s.start a0) (@execSdResumed a0 a1 s) := by
  unfold execSdResumed
  try dsimp only
  refine TouchesR.next ?_
  refine Touches.doIf ?_ (fun _ h0 => ?_)
  · exact Touches.refl _ _
  · refine Touches.comp tch_post (by decide) ?_
    refine Touches.comp tch_setSd (by decide) ?_
    exact h0

theorem tch_execSdStuck {a0 a1 s} : TouchesR (2162705) (s.start a0) (@execSdStuck a0 a1 s) := by
  unfold execSdStuck
  try dsimp only
  refine TouchesR.next ?_
  refine Touches.doIf ?_ (fun _ h0 => ?_)
  · exact Touches.refl _ _
  · refine Touches.comp tch_post (by decide) ?_
    refine Touches.comp tch_setStuck (by decide) ?_
    refine Touches.comp tch_setSd (by decide) ?_
    exact h0

theorem tch_execSdProtectionOutput {a0 a1 a2 a3 s} : TouchesR (1133902922161) (s.start a0) (@execSdProtectionOutput a0 a1 a2 a3 s) := by
  unfold execSdProtectionOutput
  try dsimp only
  refine TouchesR.next ?_
  refine Touches.doIf ?_ (fun _ h0 => ?_)
  · exact Touches.refl _ _
  · refine Touches.doIf ?_ (fun _ h1 => ?_)
    · refine Touches.comp tch_setSd (by decide) ?_
      exact h0
    · refine Touches.comp tch_deliver (by decide) ?_
      exact h1

theorem tch_execSdConversionEnd {a0 a1 a2 a3 s} : TouchesR (1133902922161) (s.start a0) (@execSdConversionEnd a0 a1 a2 a3 s) := by
  unfold execSdConversionEnd
  try dsimp only
  refine TouchesR.next ?_
  refine Touches.doIf ?_ (fun _ h0 => ?_)
  · exact Touches.refl _ _
  · refine Touches.doIf ?_ (fun _ h1 => ?_)
    · refine Touches.comp tch_setSd (by decide) ?_
      exact h0
    · refine Touches.comp tch_deliver (by decide) ?_
      exact h1

theorem tch_execInjectedTrigger {a0 a1 s} : TouchesR (68721639441) (s.start a0) (@execInjectedTrigger a0 a1 s) := by
  unfold execInjectedTrigger
  try dsimp only
  refine TouchesR.next ?_
  refine Touches.doIf ?_ (fun _ h0 => ?_)
  · exact Touches.refl _ _
  · refine Touches.comp tch_injTrigger (by decide) ?_
    exact h0

theorem tch_execCalibrationDone {a0 s} : TouchesR (68721573904) (s.start a0) (@execCalibrationDone a0 s) := by
  unfold execCalibrationDone
  try dsimp only
  refine TouchesR.next ?_
  refine Touches.doIf ?_ (fun _ h0 => ?_)
  · exact Touches.refl _ _
  · refine Touches.doIf ?_ (fun _ h1 => ?_)
    · refine Touches.comp tch_setB (by decide) ?_
      exact h0
    · refine Touches.comp tch_startUnits (by decide) ?_
      exact h1

theorem tch_execConversionEnd {a0 a1 s} : TouchesR (1133902922161) (s.start a0) (@execConversionEnd a0 a1 s) := by
  unfold execConversionEnd
  try dsimp only
  refine TouchesR.next ?_
  refine Touches.doIf ?_ (fun _ h0 => ?_)
  · exact Touches.refl _ _
  · refine Touches.comp tch_landConversions (by decide) ?_
    exact h0

theorem tch_execConversionPhaseEnd {a0 a1 s} : TouchesR (68721573888) (s.start a0) (@execConversionPhaseEnd a0 a1 s) := by
  unfold execConversionPhaseEnd
  try dsimp only
  refine TouchesR.next ?_
  refine Touches.doIf ?_ (fun _ h0 => ?_)
  · exact Touches.refl _ _
  · refine Touches.comp tch_nextEntry (by decide) ?_
    refine Touches.ite ?_ ?_
    · exact h0
    · refine Touches.comp tch_setUnit (by decide) ?_
      exact h0

theorem tch_execSamplingInstant {a0 a1 a2 a3 s} : TouchesR (68721573888) (s.start a0) (@execSamplingInstant a0 a1 a2 a3 s) := by
  unfold execSamplingInstant
  try dsimp only
  refine TouchesR.next ?_
  refine Touches.doIf ?_ (fun _ h0 => ?_)
  · exact Touches.refl _ _
  · refine Touches.comp tch_setUnit (by decide) ?_
    refine Touches.comp tch_unitCode (by decide) ?_
    exact h0

theorem tch_execStwr {a0 a1 a2 a3 a4 a5 s} : TouchesR (68720590849) (s.start a0) (@execStwr a0 a1 a2 a3 a4 a5 s) := by
  unfold execStwr
  try dsimp only
  refine TouchesR.next ?_
  refine Touches.doIf ?_ (fun _ h0 => ?_)
  · exact Touches.refl _ _
  · unfold State.route
    try dsimp only
    refine Touches.ite ?_ ?_
    · exact h0
    · refine Touches.ite ?_ ?_
      · refine Touches.comp tch_storeWrite (by decide) ?_
        exact h0
      · refine Touches.comp tch_post (by decide) ?_
        exact h0

theorem tch_execStrd {a0 a1 a2 a3 a4 s} : TouchesR (1133872488449) (s.start a0) (@execStrd a0 a1 a2 a3 a4 s) := by
  unfold execStrd
  try dsimp only
  refine TouchesR.next ?_
  refine Touches.doIf ?_ (fun _ h0 => ?_)
  · exact Touches.refl _ _
  · unfold State.route
    try dsimp only
    refine Touches.ite ?_ ?_
    · exact h0
    · refine Touches.ite ?_ ?_
      · refine Touches.comp tch_storeRead (by decide) ?_
        exact h0
      · refine Touches.comp tch_post (by decide) ?_
        exact h0

theorem tch_execFlitReceive {a0 a1 a2 a3 s} : TouchesR (1136018923521) (s.start a0) (@execFlitReceive a0 a1 a2 a3 s) := by
  unfold execFlitReceive
  try dsimp only
  refine TouchesR.next ?_
  split
  · refine Touches.doIf ?_ (fun _ h0 => ?_)
    · exact Touches.refl _ _
    · refine Touches.ite ?_ ?_
      · refine Touches.comp tch_forward (by decide) ?_
        refine Touches.doIf ?_ (fun _ h1 => ?_)
        · refine Touches.upd_mesh (by decide) ?_
          exact h0
        · refine Touches.comp tch_linkCorrect (by decide) ?_
          exact h1
      · refine Touches.ite ?_ ?_
        · refine Touches.comp tch_forward (by decide) ?_
          refine Touches.doIf ?_ (fun _ h1 => ?_)
          · refine Touches.upd_mesh (by decide) ?_
            exact h0
          · refine Touches.comp tch_linkCorrect (by decide) ?_
            exact h1
        · refine Touches.comp tch_post (by decide) ?_
          refine Touches.comp tch_uncorrectable (by decide) ?_
          refine Touches.upd_mesh (by decide) ?_
          exact h0
  · exact Touches.refl _ _

theorem tch_execFlitSend {a0 a1 a2 a3 a4 s} : TouchesR (1133871431681) (s.start a0) (@execFlitSend a0 a1 a2 a3 a4 s) := by
  unfold execFlitSend
  try dsimp only
  refine TouchesR.next ?_
  refine Touches.doIf ?_ (fun _ h0 => ?_)
  · exact Touches.refl _ _
  · refine Touches.comp tch_transmit (by decide) ?_
    exact h0

theorem tch_execSysEvtOldLo {a0 a1 s} : TouchesR (34359934979) (s.start a0) (@execSysEvtOldLo a0 a1 s) := by
  unfold execSysEvtOldLo
  try dsimp only
  refine TouchesR.next ?_
  refine Touches.doIf ?_ (fun _ h0 => ?_)
  · exact Touches.refl _ _
  · refine Touches.comp tch_latchRead (by decide) ?_
    exact h0

theorem tch_execSysEvtSeqLo {a0 a1 s} : TouchesR (34359934979) (s.start a0) (@execSysEvtSeqLo a0 a1 s) := by
  unfold execSysEvtSeqLo
  try dsimp only
  refine TouchesR.next ?_
  refine Touches.doIf ?_ (fun _ h0 => ?_)
  · exact Touches.refl _ _
  · refine Touches.comp tch_latchRead (by decide) ?_
    exact h0

theorem tch_execNetNtimeLo {a0 a1 s} : TouchesR (34359936003) (s.start a0) (@execNetNtimeLo a0 a1 s) := by
  unfold execNetNtimeLo
  try dsimp only
  refine TouchesR.next ?_
  refine Touches.doIf ?_ (fun _ h0 => ?_)
  · exact Touches.refl _ _
  · refine Touches.comp tch_latchRead (by decide) ?_
    exact h0

theorem tch_execPwmTimeLo {a0 a1 s} : TouchesR (34359935107) (s.start a0) (@execPwmTimeLo a0 a1 s) := by
  unfold execPwmTimeLo
  try dsimp only
  refine TouchesR.next ?_
  refine Touches.doIf ?_ (fun _ h0 => ?_)
  · exact Touches.refl _ _
  · refine Touches.comp tch_latchRead (by decide) ?_
    exact h0

theorem tch_execReservedAddressAccess {a0 a1 a2 a3 s} : TouchesR (34359803905) (s.start a0) (@execReservedAddressAccess a0 a1 a2 a3 s) := by
  unfold execReservedAddressAccess
  try dsimp only
  refine TouchesR.next ?_
  refine Touches.doIf ?_ (fun _ h0 => ?_)
  · exact Touches.refl _ _
  · refine Touches.comp tch_readZero (by decide) ?_
    refine Touches.doIf ?_ (fun _ h1 => ?_)
    · exact h0
    · refine Touches.comp tch_badAccess (by decide) ?_
      exact h1

theorem tch_execMisalignedAccess {a0 a1 a2 a3 a4 s} : TouchesR (34359803905) (s.start a0) (@execMisalignedAccess a0 a1 a2 a3 a4 s) := by
  unfold execMisalignedAccess
  try dsimp only
  refine TouchesR.next ?_
  refine Touches.doIf ?_ (fun _ h0 => ?_)
  · exact Touches.refl _ _
  · refine Touches.comp tch_readZero (by decide) ?_
    refine Touches.doIf ?_ (fun _ h1 => ?_)
    · exact h0
    · refine Touches.comp tch_badAccess (by decide) ?_
      exact h1

theorem tch_execRegisterWrite {a0 a1 a2 a3 s} : TouchesR (1135377383423) (s.start a0) (@execRegisterWrite a0 a1 a2 a3 s) := by
  unfold execRegisterWrite
  try dsimp only
  refine TouchesR.next ?_
  refine Touches.doIf ?_ (fun _ h0 => ?_)
  · exact Touches.refl _ _
  · split
    · refine Touches.comp tch_writeReg (by decide) ?_
      exact h0
    · exact h0

end Sys2Proof.Machine
end

