-- ==== Sys2Proof/Laws/Footprint.lean ====
section
/-! SUPPORT. Every command changes only its footprint, keeps what every step keeps, and moves the time to its instant. -/
namespace Sys2Proof.Machine

/-- The mask of a list of parts. -/
def maskOf (l : List Part) : Nat := l.foldl (fun m p => m ||| 2 ^ p.bit) 0

theorem maskOf_not_mem {l : List Part} {p : Part} (h : p ∉ l) : (maskOf l ||| 824633720832).testBit p.bit = false := by
  have go : ∀ (l : List Part) (m : Nat), p ∉ l → m.testBit p.bit = false → (l.foldl (fun m p => m ||| 2 ^ p.bit) m).testBit p.bit = false := by
    intro l
    induction l with
    | nil => intro m _ h; exact h
    | cons q l ih =>
      intro m hp hm
      simp only [List.mem_cons, not_or] at hp
      refine ih _ hp.2 ?_
      rw [Nat.testBit_or, hm, Bool.false_or, Nat.testBit_two_pow, decide_eq_false_iff_not]
      intro e
      exact hp.1 (Part.bit_inj e.symm)
  rw [Nat.testBit_or, show maskOf l = l.foldl (fun m p => m ||| 2 ^ p.bit) 0 from rfl, go l 0 h (Nat.zero_testBit _)]
  cases p <;> first | rfl | (rename_i b; cases b <;> rfl)

theorem TouchesR.mono {M m : Nat} {s : State} {r : Res} (c : TouchesR M s r) (hm : M &&& m = M) : TouchesR m s r := by
  cases r <;> first | exact Touches.mono c hm | trivial

/-- What a command touches, from the state at its instant on. -/
theorem exec_touches (c : Instr) (s : State) : TouchesR (maskOf (.out :: c.footprint) ||| 824633720832) (s.start c.time) (exec c s) := by
  match c with
  | .registerWrite .. => exact tch_execRegisterWrite.mono (by simp only [Instr.footprint]; decide)
  | .misalignedAccess .. => exact tch_execMisalignedAccess.mono (by simp only [Instr.footprint]; decide)
  | .reservedAddressAccess .. => exact tch_execReservedAddressAccess.mono (by simp only [Instr.footprint]; decide)
  | .pwmTimeLo .. => exact tch_execPwmTimeLo.mono (by simp only [Instr.footprint]; decide)
  | .netNtimeLo .. => exact tch_execNetNtimeLo.mono (by simp only [Instr.footprint]; decide)
  | .sysEvtSeqLo .. => exact tch_execSysEvtSeqLo.mono (by simp only [Instr.footprint]; decide)
  | .sysEvtOldLo .. => exact tch_execSysEvtOldLo.mono (by simp only [Instr.footprint]; decide)
  | .flitSend .. => exact tch_execFlitSend.mono (by simp only [Instr.footprint]; decide)
  | .flitReceive .. => exact tch_execFlitReceive.mono (by simp only [Instr.footprint]; decide)
  | .strd .. => exact tch_execStrd.mono (by simp only [Instr.footprint]; decide)
  | .stwr .. => exact tch_execStwr.mono (by simp only [Instr.footprint]; decide)
  | .samplingInstant .. => exact tch_execSamplingInstant.mono (by simp only [Instr.footprint]; decide)
  | .conversionPhaseEnd .. => exact tch_execConversionPhaseEnd.mono (by simp only [Instr.footprint]; decide)
  | .conversionEnd .. => exact tch_execConversionEnd.mono (by simp only [Instr.footprint]; decide)
  | .calibrationDone .. => exact tch_execCalibrationDone.mono (by simp only [Instr.footprint]; decide)
  | .injectedTrigger .. => exact tch_execInjectedTrigger.mono (by simp only [Instr.footprint]; decide)
  | .sdConversionEnd .. => exact tch_execSdConversionEnd.mono (by simp only [Instr.footprint]; decide)
  | .sdProtectionOutput .. => exact tch_execSdProtectionOutput.mono (by simp only [Instr.footprint]; decide)
  | .sdStuck .. => exact tch_execSdStuck.mono (by simp only [Instr.footprint]; decide)
  | .sdResumed .. => exact tch_execSdResumed.mono (by simp only [Instr.footprint]; decide)
  | .ntimeGeneratorEvent .. => exact tch_execNtimeGeneratorEvent.mono (by simp only [Instr.footprint]; decide)
  | .pairFaultClear .. => exact tch_execPairFaultClear.mono (by simp only [Instr.footprint]; decide)
  | .quadEdge .. => exact tch_execQuadEdge.mono (by simp only [Instr.footprint]; decide)
  | .indexLatch .. => exact tch_execIndexLatch.mono (by simp only [Instr.footprint]; decide)
  | .hallTransition .. => exact tch_execHallTransition.mono (by simp only [Instr.footprint]; decide)
  | .serialFrameEnd .. => exact tch_execSerialFrameEnd.mono (by simp only [Instr.footprint]; decide)
  | .serTimeout .. => exact tch_execSerTimeout.mono (by simp only [Instr.footprint]; decide)
  | .excFault .. => exact tch_execExcFault.mono (by simp only [Instr.footprint]; decide)
  | .lossClear .. => exact tch_execLossClear.mono (by simp only [Instr.footprint]; decide)
  | .inputArrival .. => exact tch_execInputArrival.mono (by simp only [Instr.footprint]; decide)
  | .inputDeadline .. => exact tch_execInputDeadline.mono (by simp only [Instr.footprint]; decide)
  | .evaluation .. => exact tch_execEvaluation.mono (by simp only [Instr.footprint]; decide)
  | .cmpwArrival .. => exact tch_execCmpwArrival.mono (by simp only [Instr.footprint]; decide)
  | .compareEffective .. => exact tch_execCompareEffective.mono (by simp only [Instr.footprint]; decide)
  | .wdExpired .. => exact tch_execWdExpired.mono (by simp only [Instr.footprint]; decide)
  | .ctxFaultClear .. => exact tch_execCtxFaultClear.mono (by simp only [Instr.footprint]; decide)
  | .paramTransaction .. => exact tch_execParamTransaction.mono (by simp only [Instr.footprint]; decide)
  | .migLoadDone .. => exact tch_execMigLoadDone.mono (by simp only [Instr.footprint]; decide)
  | .migVerify .. => exact tch_execMigVerify.mono (by simp only [Instr.footprint]; decide)
  | .snapshotDeadline .. => exact tch_execSnapshotDeadline.mono (by simp only [Instr.footprint]; decide)
  | .forcedMigration .. => exact tch_execForcedMigration.mono (by simp only [Instr.footprint]; decide)
  | .coastTimeout .. => exact tch_execCoastTimeout.mono (by simp only [Instr.footprint]; decide)
  | .ascHold .. => exact tch_execAscHold.mono (by simp only [Instr.footprint]; decide)
  | .dischTimeout .. => exact tch_execDischTimeout.mono (by simp only [Instr.footprint]; decide)
  | .alignEnd .. => exact tch_execAlignEnd.mono (by simp only [Instr.footprint]; decide)
  | .commutation .. => exact tch_execCommutation.mono (by simp only [Instr.footprint]; decide)
  | .zeroCross .. => exact tch_execZeroCross.mono (by simp only [Instr.footprint]; decide)
  | .rampEnd .. => exact tch_execRampEnd.mono (by simp only [Instr.footprint]; decide)
  | .bcStall .. => exact tch_execBcStall.mono (by simp only [Instr.footprint]; decide)
  | .bcRetry .. => exact tch_execBcRetry.mono (by simp only [Instr.footprint]; decide)
  | .cmdAnalogueConversion .. => exact tch_execCmdAnalogueConversion.mono (by simp only [Instr.footprint]; decide)
  | .cmdDutyEdge .. => exact tch_execCmdDutyEdge.mono (by simp only [Instr.footprint]; decide)
  | .cmdFrequencyGate .. => exact tch_execCmdFrequencyGate.mono (by simp only [Instr.footprint]; decide)
  | .cmdStatic .. => exact tch_execCmdStatic.mono (by simp only [Instr.footprint]; decide)
  | .gridReturn .. => exact tch_execGridReturn.mono (by simp only [Instr.footprint]; decide)
  | .rtTrip .. => exact tch_execRtTrip.mono (by simp only [Instr.footprint]; decide)
  | .blockEnd .. => exact tch_execBlockEnd.mono (by simp only [Instr.footprint]; decide)
  | .resyncTimeout .. => exact tch_execResyncTimeout.mono (by simp only [Instr.footprint]; decide)
  | .prechargeFail .. => exact tch_execPrechargeFail.mono (by simp only [Instr.footprint]; decide)
  | .mainSettled .. => exact tch_execMainSettled.mono (by simp only [Instr.footprint]; decide)
  | .bmsStale .. => exact tch_execBmsStale.mono (by simp only [Instr.footprint]; decide)
  | .carrierEvent .. => exact tch_execCarrierEvent.mono (by simp only [Instr.footprint]; decide)
  | .slotStarted .. => exact tch_execSlotStarted.mono (by simp only [Instr.footprint]; decide)
  | .faultReturn .. => exact tch_execFaultReturn.mono (by simp only [Instr.footprint]; decide)
  | .bootUv .. => exact tch_execBootUv.mono (by simp only [Instr.footprint]; decide)
  | .bootUvRelease .. => exact tch_execBootUvRelease.mono (by simp only [Instr.footprint]; decide)
  | .vdsFault .. => exact tch_execVdsFault.mono (by simp only [Instr.footprint]; decide)
  | .vgdUv .. => exact tch_execVgdUv.mono (by simp only [Instr.footprint]; decide)
  | .vgdUvRelease .. => exact tch_execVgdUvRelease.mono (by simp only [Instr.footprint]; decide)
  | .stoMaskEnd .. => exact tch_execStoMaskEnd.mono (by simp only [Instr.footprint]; decide)
  | .tripLatchClear .. => exact tch_execTripLatchClear.mono (by simp only [Instr.footprint]; decide)
  | .shortClear .. => exact tch_execShortClear.mono (by simp only [Instr.footprint]; decide)
  | .cmpTrip .. => exact tch_execCmpTrip.mono (by simp only [Instr.footprint]; decide)
  | .lifeRecord .. => exact tch_execLifeRecord.mono (by simp only [Instr.footprint]; decide)
  | .lifeStep .. => exact tch_execLifeStep.mono (by simp only [Instr.footprint]; decide)
  | .lifeSave .. => exact tch_execLifeSave.mono (by simp only [Instr.footprint]; decide)
  | .safetyCycleStart .. => exact tch_execSafetyCycleStart.mono (by simp only [Instr.footprint]; decide)
  | .safetyEvaluation .. => exact tch_execSafetyEvaluation.mono (by simp only [Instr.footprint]; decide)
  | .safetyResult .. => exact tch_execSafetyResult.mono (by simp only [Instr.footprint]; decide)
  | .lockstepMismatch .. => exact tch_execLockstepMismatch.mono (by simp only [Instr.footprint]; decide)
  | .faultMessage .. => exact tch_execFaultMessage.mono (by simp only [Instr.footprint]; decide)
  | .crossLinkLoss .. => exact tch_execCrossLinkLoss.mono (by simp only [Instr.footprint]; decide)
  | .split .. => exact tch_execSplit.mono (by simp only [Instr.footprint]; decide)
  | .splitDone .. => exact tch_execSplitDone.mono (by simp only [Instr.footprint]; decide)
  | .rejoin .. => exact tch_execRejoin.mono (by simp only [Instr.footprint]; decide)
  | .rejoinDone .. => exact tch_execRejoinDone.mono (by simp only [Instr.footprint]; decide)
  | .splitTimeout .. => exact tch_execSplitTimeout.mono (by simp only [Instr.footprint]; decide)
  | .chaffTestDone .. => exact tch_execChaffTestDone.mono (by simp only [Instr.footprint]; decide)
  | .sinChange .. => exact tch_execSinChange.mono (by simp only [Instr.footprint]; decide)
  | .sinDiscrepancy .. => exact tch_execSinDiscrepancy.mono (by simp only [Instr.footprint]; decide)
  | .srstPress .. => exact tch_execSrstPress.mono (by simp only [Instr.footprint]; decide)
  | .srstRelease .. => exact tch_execSrstRelease.mono (by simp only [Instr.footprint]; decide)
  | .rstStuck .. => exact tch_execRstStuck.mono (by simp only [Instr.footprint]; decide)
  | .readbackSample .. => exact tch_execReadbackSample.mono (by simp only [Instr.footprint]; decide)
  | .testPulseStart .. => exact tch_execTestPulseStart.mono (by simp only [Instr.footprint]; decide)
  | .testPulseEnd .. => exact tch_execTestPulseEnd.mono (by simp only [Instr.footprint]; decide)
  | .testMissed .. => exact tch_execTestMissed.mono (by simp only [Instr.footprint]; decide)
  | .psetTimeout .. => exact tch_execPsetTimeout.mono (by simp only [Instr.footprint]; decide)
  | .pwLockoutEnd .. => exact tch_execPwLockoutEnd.mono (by simp only [Instr.footprint]; decide)
  | .req .. => exact tch_execReq.mono (by simp only [Instr.footprint]; decide)
  | .challengeReady .. => exact tch_execChallengeReady.mono (by simp only [Instr.footprint]; decide)
  | .submit .. => exact tch_execSubmit.mono (by simp only [Instr.footprint]; decide)
  | .responseVerified .. => exact tch_execResponseVerified.mono (by simp only [Instr.footprint]; decide)
  | .challengeTimeout .. => exact tch_execChallengeTimeout.mono (by simp only [Instr.footprint]; decide)
  | .close .. => exact tch_execClose.mono (by simp only [Instr.footprint]; decide)
  | .sessionIdleTimeout .. => exact tch_execSessionIdleTimeout.mono (by simp only [Instr.footprint]; decide)
  | .sessionLockEnd .. => exact tch_execSessionLockEnd.mono (by simp only [Instr.footprint]; decide)
  | .kdbg .. => exact tch_execKdbg.mono (by simp only [Instr.footprint]; decide)
  | .vtest .. => exact tch_execVtest.mono (by simp only [Instr.footprint]; decide)
  | .give .. => exact tch_execGive.mono (by simp only [Instr.footprint]; decide)
  | .withdraw .. => exact tch_execWithdraw.mono (by simp only [Instr.footprint]; decide)
  | .consentExpiry .. => exact tch_execConsentExpiry.mono (by simp only [Instr.footprint]; decide)
  | .fuse .. => exact tch_execFuse.mono (by simp only [Instr.footprint]; decide)
  | .commit .. => exact tch_execCommit.mono (by simp only [Instr.footprint]; decide)
  | .pwSet .. => exact tch_execPwSet.mono (by simp only [Instr.footprint]; decide)
  | .pwDel .. => exact tch_execPwDel.mono (by simp only [Instr.footprint]; decide)
  | .load .. => exact tch_execLoad.mono (by simp only [Instr.footprint]; decide)
  | .delete .. => exact tch_execDelete.mono (by simp only [Instr.footprint]; decide)
  | .sakRemoval .. => exact tch_execSakRemoval.mono (by simp only [Instr.footprint]; decide)
  | .mkaFrame .. => exact tch_execMkaFrame.mono (by simp only [Instr.footprint]; decide)
  | .erase .. => exact tch_execErase.mono (by simp only [Instr.footprint]; decide)
  | .eraseDone .. => exact tch_execEraseDone.mono (by simp only [Instr.footprint]; decide)
  | .resetRelease .. => exact tch_execResetRelease.mono (by simp only [Instr.footprint]; decide)
  | .imageVerify .. => exact tch_execImageVerify.mono (by simp only [Instr.footprint]; decide)
  | .sectionLoad .. => exact tch_execSectionLoad.mono (by simp only [Instr.footprint]; decide)
  | .seal .. => exact tch_execSeal.mono (by simp only [Instr.footprint]; decide)
  | .bootBistDone .. => exact tch_execBootBistDone.mono (by simp only [Instr.footprint]; decide)
  | .ready .. => exact tch_execReady.mono (by simp only [Instr.footprint]; decide)
  | .supplyLow .. => exact tch_execSupplyLow.mono (by simp only [Instr.footprint]; decide)
  | .supplyOk .. => exact tch_execSupplyOk.mono (by simp only [Instr.footprint]; decide)
  | .porstN .. => exact tch_execPorstN.mono (by simp only [Instr.footprint]; decide)
  | .sysRst .. => exact tch_execSysRst.mono (by simp only [Instr.footprint]; decide)
  | .perstN .. => exact tch_execPerstN.mono (by simp only [Instr.footprint]; decide)
  | .start .. => exact tch_execStart.mono (by simp only [Instr.footprint]; decide)
  | .updateEraseDone .. => exact tch_execUpdateEraseDone.mono (by simp only [Instr.footprint]; decide)
  | .updateProgramDone .. => exact tch_execUpdateProgramDone.mono (by simp only [Instr.footprint]; decide)
  | .updateVerifyDone .. => exact tch_execUpdateVerifyDone.mono (by simp only [Instr.footprint]; decide)
  | .updateAbort .. => exact tch_execUpdateAbort.mono (by simp only [Instr.footprint]; decide)
  | .verify .. => exact tch_execVerify.mono (by simp only [Instr.footprint]; decide)
  | .slotVerified .. => exact tch_execSlotVerified.mono (by simp only [Instr.footprint]; decide)
  | .revoke .. => exact tch_execRevoke.mono (by simp only [Instr.footprint]; decide)
  | .ringEnable .. => exact tch_execRingEnable.mono (by simp only [Instr.footprint]; decide)
  | .ringDisable .. => exact tch_execRingDisable.mono (by simp only [Instr.footprint]; decide)
  | .ringDrained .. => exact tch_execRingDrained.mono (by simp only [Instr.footprint]; decide)
  | .sqTailDoorbell .. => exact tch_execSqTailDoorbell.mono (by simp only [Instr.footprint]; decide)
  | .cqHeadDoorbell .. => exact tch_execCqHeadDoorbell.mono (by simp only [Instr.footprint]; decide)
  | .descriptorFetch .. => exact tch_execDescriptorFetch.mono (by simp only [Instr.footprint]; decide)
  | .descriptorRelease .. => exact tch_execDescriptorRelease.mono (by simp only [Instr.footprint]; decide)
  | .setpoint .. => exact tch_execSetpoint.mono (by simp only [Instr.footprint]; decide)
  | .paramTxn .. => exact tch_execParamTxn.mono (by simp only [Instr.footprint]; decide)
  | .schedule .. => exact tch_execSchedule.mono (by simp only [Instr.footprint]; decide)
  | .scheduleFiring .. => exact tch_execScheduleFiring.mono (by simp only [Instr.footprint]; decide)
  | .abort .. => exact tch_execAbort.mono (by simp only [Instr.footprint]; decide)
  | .telemStream .. => exact tch_execTelemStream.mono (by simp only [Instr.footprint]; decide)
  | .telemetrySample .. => exact tch_execTelemetrySample.mono (by simp only [Instr.footprint]; decide)
  | .statsRead .. => exact tch_execStatsRead.mono (by simp only [Instr.footprint]; decide)
  | .logFetch .. => exact tch_execLogFetch.mono (by simp only [Instr.footprint]; decide)
  | .canTx .. => exact tch_execCanTx.mono (by simp only [Instr.footprint]; decide)
  | .netTx .. => exact tch_execNetTx.mono (by simp only [Instr.footprint]; decide)
  | .migrate .. => exact tch_execMigrate.mono (by simp only [Instr.footprint]; decide)
  | .heartbeat .. => exact tch_execHeartbeat.mono (by simp only [Instr.footprint]; decide)
  | .completion .. => exact tch_execCompletion.mono (by simp only [Instr.footprint]; decide)
  | .irqTimer .. => exact tch_execIrqTimer.mono (by simp only [Instr.footprint]; decide)
  | .ringError .. => exact tch_execRingError.mono (by simp only [Instr.footprint]; decide)
  | .linkLoss .. => exact tch_execLinkLoss.mono (by simp only [Instr.footprint]; decide)
  | .hostLost .. => exact tch_execHostLost.mono (by simp only [Instr.footprint]; decide)
  | .frameReceive .. => exact tch_execFrameReceive.mono (by simp only [Instr.footprint]; decide)
  | .ptpSync .. => exact tch_execPtpSync.mono (by simp only [Instr.footprint]; decide)
  | .ptpAnnounce .. => exact tch_execPtpAnnounce.mono (by simp only [Instr.footprint]; decide)
  | .ptpDelay .. => exact tch_execPtpDelay.mono (by simp only [Instr.footprint]; decide)
  | .announceTimeout .. => exact tch_execAnnounceTimeout.mono (by simp only [Instr.footprint]; decide)
  | .syncLoss .. => exact tch_execSyncLoss.mono (by simp only [Instr.footprint]; decide)
  | .stepApplied .. => exact tch_execStepApplied.mono (by simp only [Instr.footprint]; decide)
  | .stepForced .. => exact tch_execStepForced.mono (by simp only [Instr.footprint]; decide)
  | .set .. => exact tch_execSet.mono (by simp only [Instr.footprint]; decide)
  | .linkUp .. => exact tch_execLinkUp.mono (by simp only [Instr.footprint]; decide)
  | .linkDown .. => exact tch_execLinkDown.mono (by simp only [Instr.footprint]; decide)
  | .launch .. => exact tch_execLaunch.mono (by simp only [Instr.footprint]; decide)
  | .launchDeadline .. => exact tch_execLaunchDeadline.mono (by simp only [Instr.footprint]; decide)
  | .frameItem .. => exact tch_execFrameItem.mono (by simp only [Instr.footprint]; decide)
  | .wakeSyncTimeout .. => exact tch_execWakeSyncTimeout.mono (by simp only [Instr.footprint]; decide)
  | .wakeInstant .. => exact tch_execWakeInstant.mono (by simp only [Instr.footprint]; decide)
  | .canFrameReceive .. => exact tch_execCanFrameReceive.mono (by simp only [Instr.footprint]; decide)
  | .canItemDelivered .. => exact tch_execCanItemDelivered.mono (by simp only [Instr.footprint]; decide)
  | .canTxItem .. => exact tch_execCanTxItem.mono (by simp only [Instr.footprint]; decide)
  | .arbitrationStart .. => exact tch_execArbitrationStart.mono (by simp only [Instr.footprint]; decide)
  | .canTxDone .. => exact tch_execCanTxDone.mono (by simp only [Instr.footprint]; decide)
  | .canBusError .. => exact tch_execCanBusError.mono (by simp only [Instr.footprint]; decide)
  | .recover .. => exact tch_execRecover.mono (by simp only [Instr.footprint]; decide)
  | .recovered .. => exact tch_execRecovered.mono (by simp only [Instr.footprint]; decide)
  | .referenceInstant .. => exact tch_execReferenceInstant.mono (by simp only [Instr.footprint]; decide)
  | .canObjectEnable .. => exact tch_execCanObjectEnable.mono (by simp only [Instr.footprint]; decide)
  | .refEn .. => exact tch_execRefEn.mono (by simp only [Instr.footprint]; decide)
  | .refLost .. => exact tch_execRefLost.mono (by simp only [Instr.footprint]; decide)
  | .refQualified .. => exact tch_execRefQualified.mono (by simp only [Instr.footprint]; decide)
  | .lockLost .. => exact tch_execLockLost.mono (by simp only [Instr.footprint]; decide)
  | .backupHop .. => exact tch_execBackupHop.mono (by simp only [Instr.footprint]; decide)
  | .slotHop .. => exact tch_execSlotHop.mono (by simp only [Instr.footprint]; decide)
  | .pllRelocked .. => exact tch_execPllRelocked.mono (by simp only [Instr.footprint]; decide)
  | .bandCopy .. => exact tch_execBandCopy.mono (by simp only [Instr.footprint]; decide)
  | .syncDone .. => exact tch_execSyncDone.mono (by simp only [Instr.footprint]; decide)
  | .syncTimeout .. => exact tch_execSyncTimeout.mono (by simp only [Instr.footprint]; decide)
  | .syncEdge .. => exact tch_execSyncEdge.mono (by simp only [Instr.footprint]; decide)
  | .go .. => exact tch_execGo.mono (by simp only [Instr.footprint]; decide)
  | .podClkChanged .. => exact tch_execPodClkChanged.mono (by simp only [Instr.footprint]; decide)
  | .ueKernel .. => exact tch_execUeKernel.mono (by simp only [Instr.footprint]; decide)
  | .scrubRead .. => exact tch_execScrubRead.mono (by simp only [Instr.footprint]; decide)
  | .registerCheck .. => exact tch_execRegisterCheck.mono (by simp only [Instr.footprint]; decide)
  | .backgroundTest .. => exact tch_execBackgroundTest.mono (by simp only [Instr.footprint]; decide)
  | .kernelTestDone .. => exact tch_execKernelTestDone.mono (by simp only [Instr.footprint]; decide)
  | .test .. => exact tch_execTest.mono (by simp only [Instr.footprint]; decide)
  | .ageMeasure .. => exact tch_execAgeMeasure.mono (by simp only [Instr.footprint]; decide)
  | .lifeCount .. => exact tch_execLifeCount.mono (by simp only [Instr.footprint]; decide)
  | .tokenRequest .. => exact tch_execTokenRequest.mono (by simp only [Instr.footprint]; decide)
  | .tokenWithdraw .. => exact tch_execTokenWithdraw.mono (by simp only [Instr.footprint]; decide)
  | .tokenRefill .. => exact tch_execTokenRefill.mono (by simp only [Instr.footprint]; decide)
  | .pwrTokCfg .. => exact tch_execPwrTokCfg.mono (by simp only [Instr.footprint]; decide)
  | .eventWrite .. => exact tch_execEventWrite.mono (by simp only [Instr.footprint]; decide)
  | .referenceEdge .. => exact tch_execReferenceEdge.mono (by simp only [Instr.footprint]; decide)
  | .cmpRelease .. => exact tch_execCmpRelease.mono (by simp only [Instr.footprint]; decide)
  | .vdsBlankedRising .. => exact tch_execVdsBlankedRising.mono (by simp only [Instr.footprint]; decide)
  | .busMasterEnable .. => exact tch_execBusMasterEnable.mono (by simp only [Instr.footprint]; decide)
  | .perstNRelease .. => exact tch_execPerstNRelease.mono (by simp only [Instr.footprint]; decide)
  | .msixVectorUnmask .. => exact tch_execMsixVectorUnmask.mono (by simp only [Instr.footprint]; decide)
  | .ptpMessageInterval .. => exact tch_execPtpMessageInterval.mono (by simp only [Instr.footprint]; decide)
  | .frameTransmitEnd .. => exact tch_execFrameTransmitEnd.mono (by simp only [Instr.footprint]; decide)
  | .protocolExceptionEnd .. => exact tch_execProtocolExceptionEnd.mono (by simp only [Instr.footprint]; decide)
  | .mkaPeerTimeout .. => exact tch_execMkaPeerTimeout.mono (by simp only [Instr.footprint]; decide)
  | .tapInstruction .. => exact tch_execTapInstruction.mono (by simp only [Instr.footprint]; decide)

end Sys2Proof.Machine
end

