-- ==== Sys2Proof/Laws/Reg.lean ====
section
/-! SUPPORT. The register file: what a field reads after a field has been written, and after a change that leaves its block alone. -/
namespace Sys2Proof.Machine

theorem Regs.blk_setBlk_same (r : Regs) (m : KMap Word) (b : Blk) : (r.setBlk m b).blk b = m := by cases b <;> rfl

theorem Regs.blk_setBlk_other (r : Regs) (m : KMap Word) {b b' : Blk} (h : b' ≠ b) : (r.setBlk m b).blk b' = r.blk b' := by
  cases b <;> cases b' <;> first | rfl | exact absurd rfl h

/-- A word just written reads as written. -/
theorem word_setWord_same (s : State) (b : Blk) (k : Nat) (w : Word) : (s.setWord b k w).word b k = w := by
  unfold State.word State.setWord
  rw [Regs.blk_setBlk_same, kget_kset_same]

theorem word_setWord_blk (s : State) {b b' : Blk} (k k' : Nat) (w : Word) (h : b' ≠ b) : (s.setWord b k w).word b' k' = s.word b' k' := by
  unfold State.word State.setWord
  rw [Regs.blk_setBlk_other _ _ h]

theorem word_setWord_key (s : State) (b : Blk) {k k' : Nat} (w : Word) (h : k' ≠ k) : (s.setWord b k w).word b k' = s.word b k' := by
  unfold State.word State.setWord
  rw [Regs.blk_setBlk_same, kget_kset_other _ _ _ h]

/-- Consecutive words written from index `n` on leave another word as it was. -/
theorem word_foldl_other (r : FRef) (j : Nat) (b : Blk) (k : Nat) (ws : List Word) : ∀ (n : Nat) (s : State),
    (∀ i, n ≤ i → i < n + ws.length → b ≠ r.blk ∨ k ≠ r.key i j) →
    ((ws.zipIdx n).foldl (fun (s : State) x => s.setWord r.blk (r.key x.2 j) x.1) s).word b k = s.word b k := by
  induction ws with
  | nil => intro n s _; rfl
  | cons w ws ih =>
    intro n s h
    rw [List.zipIdx_cons, List.foldl_cons, ih (n + 1) _ (fun i h1 h2 => h i (by omega) (by rw [List.length_cons]; omega))]
    by_cases hb : b = r.blk
    · subst hb
      exact word_setWord_key _ _ _ ((h n (by omega) (by rw [List.length_cons]; omega)).resolve_left (fun h => h rfl))
    · exact word_setWord_blk _ _ _ _ hb

/-- A register array that is written whole leaves every other word as it was. -/
theorem word_setWords_other (s : State) (r : FRef) (ws : List Word) (j : Nat) (b : Blk) (k : Nat)
    (h : ∀ i < ws.length, b ≠ r.blk ∨ k ≠ r.key i j) : (s.setWords r ws j).word b k = s.word b k :=
  word_foldl_other r j b k ws 0 s (fun i _ h2 => h i (by omega))

/-- A register array that is written whole reads as written. -/
theorem words_setWords_same (s : State) (r : FRef) (ws : List Word) (j : Nat) (h : 0 < r.s1) :
    (s.setWords r ws j).words r ws.length j = ws := by
  have key : ∀ (ws : List Word) (n : Nat) (s : State) (i : Nat) (hi : i < ws.length),
      ((ws.zipIdx n).foldl (fun (s : State) x => s.setWord r.blk (r.key x.2 j) x.1) s).word r.blk (r.key (n + i) j) = ws[i] := by
    intro ws
    induction ws with
    | nil => intro _ _ i hi; exact absurd hi (Nat.not_lt_zero i)
    | cons w ws ih =>
      intro n s i hi
      rw [List.zipIdx_cons, List.foldl_cons]
      cases i with
      | zero =>
        rw [word_foldl_other r j r.blk _ ws (n + 1) _ (fun i h1 _ => Or.inr ?_), Nat.add_zero, word_setWord_same]; rfl
        unfold FRef.key
        have := Nat.mul_lt_mul_of_pos_left (show n + 0 < i by omega) h
        omega
      | succ i =>
        have := ih (n + 1) (s.setWord r.blk (r.key n j) w) i (by simpa using hi)
        rw [show n + 1 + i = n + (i + 1) by omega] at this
        simpa using this
  unfold State.words State.setWords
  apply List.ext_getElem
  · simp
  · intro i h1 h2
    have := key ws 0 s i h2
    rw [Nat.zero_add] at this
    simpa using this

theorem bits_split (a x y K L : Nat) : a + x * L + y * (K * L) = L * (K * y + x) + a := by
  rw [Nat.mul_add, ← Nat.mul_assoc y K L, Nat.mul_comm (y * K) L, Nat.mul_comm y K, Nat.mul_comm x L]; omega

/-- A field just written reads as its low bits. -/
theorem getBits_setBits_same (w : Word) {hi lo : Nat} (v : Nat) (h : lo ≤ hi) (hh : hi < 32) :
    getBits (setBits w hi lo v) hi lo = v % 2 ^ (hi + 1 - lo) := by
  obtain ⟨n, rfl⟩ : ∃ n, hi = lo + n := ⟨hi - lo, by omega⟩
  have e : lo + n + 1 - lo = n + 1 := by omega
  unfold getBits setBits
  rw [e]
  apply Nat.eq_of_testBit_eq
  intro i
  have hw := w.isLt
  rw [BitVec.toNat_ofNat, Nat.shiftRight_eq_div_pow, Nat.shiftRight_eq_div_pow]
  have p1 : (w.toNat % 2 ^ lo + v % 2 ^ (n + 1) * 2 ^ lo + w.toNat / 2 ^ (lo + n + 1) * 2 ^ (lo + n + 1)) =
      2 ^ lo * (2 ^ (n + 1) * (w.toNat / 2 ^ (lo + n + 1)) + v % 2 ^ (n + 1)) + w.toNat % 2 ^ lo := by
    rw [show lo + n + 1 = n + 1 + lo by omega, Nat.pow_add 2 (n + 1) lo]; exact bits_split ..
  rw [p1]
  by_cases hi' : i < n + 1
  · rw [Nat.testBit_mod_two_pow, Nat.testBit_div_two_pow, Nat.testBit_mod_two_pow]
    simp only [hi', decide_true, Bool.true_and]
    have : lo + i < 32 := by omega
    simp only [Nat.add_comm i lo, this, decide_true, Bool.true_and]
    rw [Nat.testBit_two_pow_mul_add _ (Nat.mod_lt _ (Nat.two_pow_pos lo))]
    simp only [show ¬ lo + i < lo by omega, if_false, show lo + i - lo = i by omega]
    rw [Nat.testBit_two_pow_mul_add _ (Nat.mod_lt _ (Nat.two_pow_pos _))]
    simp only [hi', if_true, Nat.testBit_mod_two_pow, decide_true, Bool.true_and]
  · rw [Nat.testBit_mod_two_pow, Nat.testBit_mod_two_pow]
    simp only [hi', decide_false, Bool.false_and]

/-- A field reads as before when other bits of its word are written. -/
theorem getBits_setBits_other (w : Word) {hi lo hi' lo' : Nat} (v : Nat) (h : lo ≤ hi) (hl' : lo' ≤ hi') (hh' : hi' < 32)
    (hd : hi' < lo ∨ hi < lo') : getBits (setBits w hi lo v) hi' lo' = getBits w hi' lo' := by
  obtain ⟨n, rfl⟩ : ∃ n, hi = lo + n := ⟨hi - lo, by omega⟩
  have e : lo + n + 1 - lo = n + 1 := by omega
  unfold getBits setBits
  rw [e]
  apply Nat.eq_of_testBit_eq
  intro i
  rw [BitVec.toNat_ofNat, Nat.shiftRight_eq_div_pow, Nat.shiftRight_eq_div_pow, Nat.shiftRight_eq_div_pow]
  have p1 : (w.toNat % 2 ^ lo + v % 2 ^ (n + 1) * 2 ^ lo + w.toNat / 2 ^ (lo + n + 1) * 2 ^ (lo + n + 1)) =
      2 ^ lo * (2 ^ (n + 1) * (w.toNat / 2 ^ (lo + n + 1)) + v % 2 ^ (n + 1)) + w.toNat % 2 ^ lo := by
    rw [show lo + n + 1 = n + 1 + lo by omega, Nat.pow_add 2 (n + 1) lo]; exact bits_split ..
  rw [p1]
  rw [Nat.testBit_mod_two_pow, Nat.testBit_div_two_pow, Nat.testBit_mod_two_pow, Nat.testBit_mod_two_pow, Nat.testBit_div_two_pow]
  by_cases hi2 : i < hi' + 1 - lo'
  · simp only [hi2, decide_true, Bool.true_and]
    have : i + lo' < 32 := by omega
    simp only [this, decide_true, Bool.true_and]
    rw [Nat.testBit_two_pow_mul_add _ (Nat.mod_lt _ (Nat.two_pow_pos lo))]
    by_cases hlt : i + lo' < lo
    · simp only [hlt, if_true, Nat.testBit_mod_two_pow, decide_true, Bool.true_and]
    · simp only [hlt, if_false]
      rw [Nat.testBit_two_pow_mul_add _ (Nat.mod_lt _ (Nat.two_pow_pos _))]
      have : ¬ i + lo' - lo < n + 1 := by omega
      simp only [this, if_false, Nat.testBit_div_two_pow]
      congr 1; omega
  · simp only [hi2, decide_false, Bool.false_and]

/-- The note of the bits set in the present cycle changes no register. -/
@[simp] theorem word_noteSet (s : State) (b : Blk) (k v : Nat) (b' : Blk) (k' : Nat) : (s.noteSet b k v).word b' k' = s.word b' k' := rfl

/-- A field reads as its low bits after it is written. -/
theorem f_setF_same (s : State) (r : FRef) (v i j : Nat) (h : r.lo ≤ r.hi ∧ r.hi < 32) :
    (s.setF r v i j).f r i j = v % 2 ^ (r.hi + 1 - r.lo) := by
  unfold State.f State.setF
  rw [word_noteSet, word_setWord_same, getBits_setBits_same _ _ h.1 h.2]

/-- A field of another block reads as before. -/
theorem f_setF_blk (s : State) {r q : FRef} (v i j i' j' : Nat) (h : q.blk ≠ r.blk) : (s.setF r v i j).f q i' j' = s.f q i' j' := by
  unfold State.f State.setF
  rw [word_noteSet, word_setWord_blk _ _ _ _ h]

/-- A field of another word reads as before. -/
theorem f_setF_key (s : State) {r q : FRef} (v : Nat) {i j i' j' : Nat} (h : q.key i' j' ≠ r.key i j) :
    (s.setF r v i j).f q i' j' = s.f q i' j' := by
  by_cases hb : q.blk = r.blk
  · unfold State.f State.setF
    rw [word_noteSet, hb, word_setWord_key _ _ _ h]
  · exact f_setF_blk s v i j i' j' hb

/-- Another field reads as before. -/
theorem f_setF_bits (s : State) {r q : FRef} (v i j i' j' : Nat)
    (h : r.lo ≤ r.hi ∧ q.lo ≤ q.hi ∧ q.hi < 32 ∧ (q.hi < r.lo ∨ r.hi < q.lo)) : (s.setF r v i j).f q i' j' = s.f q i' j' := by
  by_cases hb : q.blk = r.blk
  · by_cases hk : q.key i' j' = r.key i j
    · unfold State.f State.setF
      rw [word_noteSet, hb, hk, word_setWord_same, getBits_setBits_other _ _ h.1 h.2.1 h.2.2.1 h.2.2.2]
    · exact f_setF_key s v hk
  · exact f_setF_blk s v i j i' j' hb

theorem b_setB_same (s : State) (r : FRef) (v : Bool) (i j : Nat) (h : r.lo = r.hi ∧ r.hi < 32) : (s.setB r v i j).b r i j = v := by
  unfold State.b State.setB
  rw [f_setF_same _ _ _ _ _ ⟨by omega, h.2⟩, show r.hi + 1 - r.lo = 1 by omega]
  cases v <;> rfl

/-- What a change leaves of a block it does not touch. -/
theorem Touches.word {m : Nat} {s s' : State} (h : Touches m s s') (b : Blk) (k : Nat) (hb : m.testBit b.num = false) :
    s'.word b k = s.word b k := by
  have := h.1 (.regs b) hb
  unfold State.word; rw [show s'.regs.blk b = s.regs.blk b from this]

theorem Touches.f {m : Nat} {s s' : State} (h : Touches m s s') (r : FRef) (i j : Nat) (hb : m.testBit r.blk.num = false) :
    s'.f r i j = s.f r i j := by
  unfold State.f; rw [h.word _ _ hb]

/-- A bit just put reads as put, and the others as before. -/
theorem testBit_put (n i : Nat) (b : Bool) (j : Nat) : (putBit n i b).testBit j = if j = i then b else n.testBit j := by
  have hn : n = 2 ^ i * (2 * (n / 2 ^ i / 2) + n / 2 ^ i % 2) + n % 2 ^ i := by
    have h1 := Nat.div_add_mod n (2 ^ i)
    have h2 := Nat.div_add_mod (n / 2 ^ i) 2
    rw [h2, h1]
  have hr : n % 2 ^ i < 2 ^ i := Nat.mod_lt _ (Nat.two_pow_pos i)
  have hbit : n.testBit i = decide (n / 2 ^ i % 2 = 1) := by
    rw [Nat.testBit_eq_decide_div_mod_eq]
  generalize n / 2 ^ i / 2 = q at hn
  generalize hc : n / 2 ^ i % 2 = c at hn hbit
  generalize n % 2 ^ i = r at hn hr
  have hc2 : c < 2 := by rw [← hc]; exact Nat.mod_lt _ (by decide)
  have form : ∀ d, d < 2 → (2 ^ i * (2 * q + d) + r).testBit j = if j < i then r.testBit j else if j = i then decide (d = 1) else q.testBit (j - i - 1) := by
    intro d hd
    rw [Nat.testBit_two_pow_mul_add _ hr]
    by_cases h1 : j < i
    · simp [h1]
    · rw [if_neg h1, if_neg h1]
      by_cases h2 : j = i
      · subst h2
        rw [if_pos rfl, Nat.sub_self, Nat.testBit_zero]
        congr 1
        exact propext (by omega)
      · rw [if_neg h2]
        obtain ⟨m, hm⟩ : ∃ m, j - i = m + 1 := ⟨j - i - 1, by omega⟩
        rw [hm, Nat.testBit_succ]
        congr 1
        omega
  have hput : putBit n i b = 2 ^ i * (2 * q + b2n b) + r := by
    have e0 : 2 ^ i * (2 * q + 1) = 2 ^ i * (2 * q) + 2 ^ i := by rw [Nat.mul_add, Nat.mul_one]
    have e1 : 2 ^ i * (2 * q + 0) = 2 ^ i * (2 * q) := rfl
    unfold putBit
    rw [hbit]
    have : c = 0 ∨ c = 1 := by omega
    rcases this with h | h <;> subst h <;> cases b <;> simp [b2n] <;> omega
  rw [hput, form _ (by cases b <;> decide)]
  have hnj := form c hc2
  rw [← hn] at hnj
  rw [hnj]
  by_cases h1 : j < i
  · rw [if_pos h1, if_pos h1, if_neg (by omega)]
  · rw [if_neg h1, if_neg h1]
    by_cases h2 : j = i
    · rw [if_pos h2, if_pos h2]; cases b <;> rfl
    · rw [if_neg h2, if_neg h2, if_neg h2]
theorem f_lt (s : State) (r : FRef) (i j : Nat) : s.f r i j < 2 ^ (r.hi + 1 - r.lo) := Nat.mod_lt _ (Nat.two_pow_pos _)
/-- The fields after one bit of a field is written are those after the field is written with that bit put. -/
theorem f_setBitF (s : State) (r q : FRef) (k : Nat) (v : Bool) (i j i' j' : Nat) :
    (s.setBitF r k v i j).f q i' j' = (s.setF r (putBit (s.f r i j) k v) i j).f q i' j' := rfl
/-- Bits of a field after one of them is written. -/
theorem bitF_setBitF (s : State) (r : FRef) (k : Nat) (v : Bool) (i j k' : Nat) (h : r.lo ≤ r.hi ∧ r.hi < 32) (hk : k < r.hi + 1 - r.lo) :
    (s.setBitF r k v i j).bitF r k' i j = if k' = k then v else s.bitF r k' i j := by
  unfold State.bitF
  rw [f_setBitF, f_setF_same _ _ _ _ _ h, Nat.testBit_mod_two_pow, testBit_put]
  by_cases h1 : k' = k
  · subst h1; simp [hk]
  · simp only [if_neg h1]
    by_cases h2 : k' < r.hi + 1 - r.lo
    · simp [h2]
    · have : (s.f r i j).testBit k' = false := Nat.testBit_lt_two_pow (Nat.lt_of_lt_of_le (f_lt s r i j) (Nat.pow_le_pow_right (by decide) (by omega)))
      simp [this]
theorem bitF_of_f {s s' : State} {q : FRef} {k i j : Nat} (h : s'.f q i j = s.f q i j) : s'.bitF q k i j = s.bitF q k i j := by
  unfold State.bitF; rw [h]

end Sys2Proof.Machine
end

