-- ==== Sys2Proof/Laws/State.lean ====
section
/-! SUPPORT. What each field of the state is after each of the shared updates, and what a register reads after them. -/
namespace Sys2Proof.Machine

/-! ## setWord -/

@[simp] theorem State.setWord_pending (s : State) (b : Blk) (k : Nat) (w : Word) : (s.setWord b k w).pending = s.pending := rfl
@[simp] theorem State.setWord_now (s : State) (b : Blk) (k : Nat) (w : Word) : (s.setWord b k w).now = s.now := rfl
@[simp] theorem State.setWord_out (s : State) (b : Blk) (k : Nat) (w : Word) : (s.setWord b k w).out = s.out := rfl
@[simp] theorem State.setWord_free (s : State) (b : Blk) (k : Nat) (w : Word) : (s.setWord b k w).free = s.free := rfl
@[simp] theorem State.setWord_fresh (s : State) (b : Blk) (k : Nat) (w : Word) : (s.setWord b k w).fresh = s.fresh := rfl
@[simp] theorem State.setWord_sys (s : State) (b : Blk) (k : Nat) (w : Word) : (s.setWord b k w).sys = s.sys := rfl
@[simp] theorem State.setWord_husk (s : State) (b : Blk) (k : Nat) (w : Word) : (s.setWord b k w).husk = s.husk := rfl
@[simp] theorem State.setWord_pwr (s : State) (b : Blk) (k : Nat) (w : Word) : (s.setWord b k w).pwr = s.pwr := rfl
@[simp] theorem State.setWord_sea (s : State) (b : Blk) (k : Nat) (w : Word) : (s.setWord b k w).sea = s.sea := rfl
@[simp] theorem State.setWord_mesh (s : State) (b : Blk) (k : Nat) (w : Word) : (s.setWord b k w).mesh = s.mesh := rfl
@[simp] theorem State.setWord_meas (s : State) (b : Blk) (k : Nat) (w : Word) : (s.setWord b k w).meas = s.meas := rfl
@[simp] theorem State.setWord_pos (s : State) (b : Blk) (k : Nat) (w : Word) : (s.setWord b k w).pos = s.pos := rfl
@[simp] theorem State.setWord_pwm (s : State) (b : Blk) (k : Nat) (w : Word) : (s.setWord b k w).pwm = s.pwm := rfl
@[simp] theorem State.setWord_trip (s : State) (b : Blk) (k : Nat) (w : Word) : (s.setWord b k w).trip = s.trip := rfl
@[simp] theorem State.setWord_loop (s : State) (b : Blk) (k : Nat) (w : Word) : (s.setWord b k w).loop = s.loop := rfl
@[simp] theorem State.setWord_safe (s : State) (b : Blk) (k : Nat) (w : Word) : (s.setWord b k w).safe = s.safe := rfl
@[simp] theorem State.setWord_hostq (s : State) (b : Blk) (k : Nat) (w : Word) : (s.setWord b k w).hostq = s.hostq := rfl
@[simp] theorem State.setWord_net (s : State) (b : Blk) (k : Nat) (w : Word) : (s.setWord b k w).net = s.net := rfl
@[simp] theorem State.setWord_can (s : State) (b : Blk) (k : Nat) (w : Word) : (s.setWord b k w).can = s.can := rfl
@[simp] theorem State.setWord_clk (s : State) (b : Blk) (k : Nat) (w : Word) : (s.setWord b k w).clk = s.clk := rfl
@[simp] theorem State.setWord_rel (s : State) (b : Blk) (k : Nat) (w : Word) : (s.setWord b k w).rel = s.rel := rfl
@[simp] theorem State.setWord_cfg (s : State) (b : Blk) (k : Nat) (w : Word) : (s.setWord b k w).cfg = s.cfg := rfl
@[simp] theorem State.setWord_tap (s : State) (b : Blk) (k : Nat) (w : Word) : (s.setWord b k w).tap = s.tap := rfl

/-! ## noteSet -/

@[simp] theorem State.noteSet_pending (s : State) (b : Blk) (k v : Nat) : (s.noteSet b k v).pending = s.pending := rfl
@[simp] theorem State.noteSet_now (s : State) (b : Blk) (k v : Nat) : (s.noteSet b k v).now = s.now := rfl
@[simp] theorem State.noteSet_out (s : State) (b : Blk) (k v : Nat) : (s.noteSet b k v).out = s.out := rfl
@[simp] theorem State.noteSet_free (s : State) (b : Blk) (k v : Nat) : (s.noteSet b k v).free = s.free := rfl
@[simp] theorem State.noteSet_regs (s : State) (b : Blk) (k v : Nat) : (s.noteSet b k v).regs = s.regs := rfl
@[simp] theorem State.noteSet_sys (s : State) (b : Blk) (k v : Nat) : (s.noteSet b k v).sys = s.sys := rfl
@[simp] theorem State.noteSet_husk (s : State) (b : Blk) (k v : Nat) : (s.noteSet b k v).husk = s.husk := rfl
@[simp] theorem State.noteSet_pwr (s : State) (b : Blk) (k v : Nat) : (s.noteSet b k v).pwr = s.pwr := rfl
@[simp] theorem State.noteSet_sea (s : State) (b : Blk) (k v : Nat) : (s.noteSet b k v).sea = s.sea := rfl
@[simp] theorem State.noteSet_mesh (s : State) (b : Blk) (k v : Nat) : (s.noteSet b k v).mesh = s.mesh := rfl
@[simp] theorem State.noteSet_meas (s : State) (b : Blk) (k v : Nat) : (s.noteSet b k v).meas = s.meas := rfl
@[simp] theorem State.noteSet_pos (s : State) (b : Blk) (k v : Nat) : (s.noteSet b k v).pos = s.pos := rfl
@[simp] theorem State.noteSet_pwm (s : State) (b : Blk) (k v : Nat) : (s.noteSet b k v).pwm = s.pwm := rfl
@[simp] theorem State.noteSet_trip (s : State) (b : Blk) (k v : Nat) : (s.noteSet b k v).trip = s.trip := rfl
@[simp] theorem State.noteSet_loop (s : State) (b : Blk) (k v : Nat) : (s.noteSet b k v).loop = s.loop := rfl
@[simp] theorem State.noteSet_safe (s : State) (b : Blk) (k v : Nat) : (s.noteSet b k v).safe = s.safe := rfl
@[simp] theorem State.noteSet_hostq (s : State) (b : Blk) (k v : Nat) : (s.noteSet b k v).hostq = s.hostq := rfl
@[simp] theorem State.noteSet_net (s : State) (b : Blk) (k v : Nat) : (s.noteSet b k v).net = s.net := rfl
@[simp] theorem State.noteSet_can (s : State) (b : Blk) (k v : Nat) : (s.noteSet b k v).can = s.can := rfl
@[simp] theorem State.noteSet_clk (s : State) (b : Blk) (k v : Nat) : (s.noteSet b k v).clk = s.clk := rfl
@[simp] theorem State.noteSet_rel (s : State) (b : Blk) (k v : Nat) : (s.noteSet b k v).rel = s.rel := rfl
@[simp] theorem State.noteSet_cfg (s : State) (b : Blk) (k v : Nat) : (s.noteSet b k v).cfg = s.cfg := rfl
@[simp] theorem State.noteSet_tap (s : State) (b : Blk) (k v : Nat) : (s.noteSet b k v).tap = s.tap := rfl

/-! ## setF -/

@[simp] theorem State.setF_pending (s : State) (r : FRef) (v i j : Nat) : (s.setF r v i j).pending = s.pending := rfl
@[simp] theorem State.setF_now (s : State) (r : FRef) (v i j : Nat) : (s.setF r v i j).now = s.now := rfl
@[simp] theorem State.setF_out (s : State) (r : FRef) (v i j : Nat) : (s.setF r v i j).out = s.out := rfl
@[simp] theorem State.setF_free (s : State) (r : FRef) (v i j : Nat) : (s.setF r v i j).free = s.free := rfl
@[simp] theorem State.setF_sys (s : State) (r : FRef) (v i j : Nat) : (s.setF r v i j).sys = s.sys := rfl
@[simp] theorem State.setF_husk (s : State) (r : FRef) (v i j : Nat) : (s.setF r v i j).husk = s.husk := rfl
@[simp] theorem State.setF_pwr (s : State) (r : FRef) (v i j : Nat) : (s.setF r v i j).pwr = s.pwr := rfl
@[simp] theorem State.setF_sea (s : State) (r : FRef) (v i j : Nat) : (s.setF r v i j).sea = s.sea := rfl
@[simp] theorem State.setF_mesh (s : State) (r : FRef) (v i j : Nat) : (s.setF r v i j).mesh = s.mesh := rfl
@[simp] theorem State.setF_meas (s : State) (r : FRef) (v i j : Nat) : (s.setF r v i j).meas = s.meas := rfl
@[simp] theorem State.setF_pos (s : State) (r : FRef) (v i j : Nat) : (s.setF r v i j).pos = s.pos := rfl
@[simp] theorem State.setF_pwm (s : State) (r : FRef) (v i j : Nat) : (s.setF r v i j).pwm = s.pwm := rfl
@[simp] theorem State.setF_trip (s : State) (r : FRef) (v i j : Nat) : (s.setF r v i j).trip = s.trip := rfl
@[simp] theorem State.setF_loop (s : State) (r : FRef) (v i j : Nat) : (s.setF r v i j).loop = s.loop := rfl
@[simp] theorem State.setF_safe (s : State) (r : FRef) (v i j : Nat) : (s.setF r v i j).safe = s.safe := rfl
@[simp] theorem State.setF_hostq (s : State) (r : FRef) (v i j : Nat) : (s.setF r v i j).hostq = s.hostq := rfl
@[simp] theorem State.setF_net (s : State) (r : FRef) (v i j : Nat) : (s.setF r v i j).net = s.net := rfl
@[simp] theorem State.setF_can (s : State) (r : FRef) (v i j : Nat) : (s.setF r v i j).can = s.can := rfl
@[simp] theorem State.setF_clk (s : State) (r : FRef) (v i j : Nat) : (s.setF r v i j).clk = s.clk := rfl
@[simp] theorem State.setF_rel (s : State) (r : FRef) (v i j : Nat) : (s.setF r v i j).rel = s.rel := rfl
@[simp] theorem State.setF_cfg (s : State) (r : FRef) (v i j : Nat) : (s.setF r v i j).cfg = s.cfg := rfl
@[simp] theorem State.setF_tap (s : State) (r : FRef) (v i j : Nat) : (s.setF r v i j).tap = s.tap := rfl

/-! ## setB -/

@[simp] theorem State.setB_pending (s : State) (r : FRef) (v : Bool) (i j : Nat) : (s.setB r v i j).pending = s.pending := rfl
@[simp] theorem State.setB_now (s : State) (r : FRef) (v : Bool) (i j : Nat) : (s.setB r v i j).now = s.now := rfl
@[simp] theorem State.setB_out (s : State) (r : FRef) (v : Bool) (i j : Nat) : (s.setB r v i j).out = s.out := rfl
@[simp] theorem State.setB_free (s : State) (r : FRef) (v : Bool) (i j : Nat) : (s.setB r v i j).free = s.free := rfl
@[simp] theorem State.setB_sys (s : State) (r : FRef) (v : Bool) (i j : Nat) : (s.setB r v i j).sys = s.sys := rfl
@[simp] theorem State.setB_husk (s : State) (r : FRef) (v : Bool) (i j : Nat) : (s.setB r v i j).husk = s.husk := rfl
@[simp] theorem State.setB_pwr (s : State) (r : FRef) (v : Bool) (i j : Nat) : (s.setB r v i j).pwr = s.pwr := rfl
@[simp] theorem State.setB_sea (s : State) (r : FRef) (v : Bool) (i j : Nat) : (s.setB r v i j).sea = s.sea := rfl
@[simp] theorem State.setB_mesh (s : State) (r : FRef) (v : Bool) (i j : Nat) : (s.setB r v i j).mesh = s.mesh := rfl
@[simp] theorem State.setB_meas (s : State) (r : FRef) (v : Bool) (i j : Nat) : (s.setB r v i j).meas = s.meas := rfl
@[simp] theorem State.setB_pos (s : State) (r : FRef) (v : Bool) (i j : Nat) : (s.setB r v i j).pos = s.pos := rfl
@[simp] theorem State.setB_pwm (s : State) (r : FRef) (v : Bool) (i j : Nat) : (s.setB r v i j).pwm = s.pwm := rfl
@[simp] theorem State.setB_trip (s : State) (r : FRef) (v : Bool) (i j : Nat) : (s.setB r v i j).trip = s.trip := rfl
@[simp] theorem State.setB_loop (s : State) (r : FRef) (v : Bool) (i j : Nat) : (s.setB r v i j).loop = s.loop := rfl
@[simp] theorem State.setB_safe (s : State) (r : FRef) (v : Bool) (i j : Nat) : (s.setB r v i j).safe = s.safe := rfl
@[simp] theorem State.setB_hostq (s : State) (r : FRef) (v : Bool) (i j : Nat) : (s.setB r v i j).hostq = s.hostq := rfl
@[simp] theorem State.setB_net (s : State) (r : FRef) (v : Bool) (i j : Nat) : (s.setB r v i j).net = s.net := rfl
@[simp] theorem State.setB_can (s : State) (r : FRef) (v : Bool) (i j : Nat) : (s.setB r v i j).can = s.can := rfl
@[simp] theorem State.setB_clk (s : State) (r : FRef) (v : Bool) (i j : Nat) : (s.setB r v i j).clk = s.clk := rfl
@[simp] theorem State.setB_rel (s : State) (r : FRef) (v : Bool) (i j : Nat) : (s.setB r v i j).rel = s.rel := rfl
@[simp] theorem State.setB_cfg (s : State) (r : FRef) (v : Bool) (i j : Nat) : (s.setB r v i j).cfg = s.cfg := rfl
@[simp] theorem State.setB_tap (s : State) (r : FRef) (v : Bool) (i j : Nat) : (s.setB r v i j).tap = s.tap := rfl

/-! ## setBitF -/

@[simp] theorem State.setBitF_pending (s : State) (r : FRef) (k : Nat) (v : Bool) (i j : Nat) : (s.setBitF r k v i j).pending = s.pending := rfl
@[simp] theorem State.setBitF_now (s : State) (r : FRef) (k : Nat) (v : Bool) (i j : Nat) : (s.setBitF r k v i j).now = s.now := rfl
@[simp] theorem State.setBitF_out (s : State) (r : FRef) (k : Nat) (v : Bool) (i j : Nat) : (s.setBitF r k v i j).out = s.out := rfl
@[simp] theorem State.setBitF_free (s : State) (r : FRef) (k : Nat) (v : Bool) (i j : Nat) : (s.setBitF r k v i j).free = s.free := rfl
@[simp] theorem State.setBitF_sys (s : State) (r : FRef) (k : Nat) (v : Bool) (i j : Nat) : (s.setBitF r k v i j).sys = s.sys := rfl
@[simp] theorem State.setBitF_husk (s : State) (r : FRef) (k : Nat) (v : Bool) (i j : Nat) : (s.setBitF r k v i j).husk = s.husk := rfl
@[simp] theorem State.setBitF_pwr (s : State) (r : FRef) (k : Nat) (v : Bool) (i j : Nat) : (s.setBitF r k v i j).pwr = s.pwr := rfl
@[simp] theorem State.setBitF_sea (s : State) (r : FRef) (k : Nat) (v : Bool) (i j : Nat) : (s.setBitF r k v i j).sea = s.sea := rfl
@[simp] theorem State.setBitF_mesh (s : State) (r : FRef) (k : Nat) (v : Bool) (i j : Nat) : (s.setBitF r k v i j).mesh = s.mesh := rfl
@[simp] theorem State.setBitF_meas (s : State) (r : FRef) (k : Nat) (v : Bool) (i j : Nat) : (s.setBitF r k v i j).meas = s.meas := rfl
@[simp] theorem State.setBitF_pos (s : State) (r : FRef) (k : Nat) (v : Bool) (i j : Nat) : (s.setBitF r k v i j).pos = s.pos := rfl
@[simp] theorem State.setBitF_pwm (s : State) (r : FRef) (k : Nat) (v : Bool) (i j : Nat) : (s.setBitF r k v i j).pwm = s.pwm := rfl
@[simp] theorem State.setBitF_trip (s : State) (r : FRef) (k : Nat) (v : Bool) (i j : Nat) : (s.setBitF r k v i j).trip = s.trip := rfl
@[simp] theorem State.setBitF_loop (s : State) (r : FRef) (k : Nat) (v : Bool) (i j : Nat) : (s.setBitF r k v i j).loop = s.loop := rfl
@[simp] theorem State.setBitF_safe (s : State) (r : FRef) (k : Nat) (v : Bool) (i j : Nat) : (s.setBitF r k v i j).safe = s.safe := rfl
@[simp] theorem State.setBitF_hostq (s : State) (r : FRef) (k : Nat) (v : Bool) (i j : Nat) : (s.setBitF r k v i j).hostq = s.hostq := rfl
@[simp] theorem State.setBitF_net (s : State) (r : FRef) (k : Nat) (v : Bool) (i j : Nat) : (s.setBitF r k v i j).net = s.net := rfl
@[simp] theorem State.setBitF_can (s : State) (r : FRef) (k : Nat) (v : Bool) (i j : Nat) : (s.setBitF r k v i j).can = s.can := rfl
@[simp] theorem State.setBitF_clk (s : State) (r : FRef) (k : Nat) (v : Bool) (i j : Nat) : (s.setBitF r k v i j).clk = s.clk := rfl
@[simp] theorem State.setBitF_rel (s : State) (r : FRef) (k : Nat) (v : Bool) (i j : Nat) : (s.setBitF r k v i j).rel = s.rel := rfl
@[simp] theorem State.setBitF_cfg (s : State) (r : FRef) (k : Nat) (v : Bool) (i j : Nat) : (s.setBitF r k v i j).cfg = s.cfg := rfl
@[simp] theorem State.setBitF_tap (s : State) (r : FRef) (k : Nat) (v : Bool) (i j : Nat) : (s.setBitF r k v i j).tap = s.tap := rfl

/-! ## incF -/

@[simp] theorem State.incF_pending (s : State) (r : FRef) (n i j : Nat) : (s.incF r n i j).pending = s.pending := rfl
@[simp] theorem State.incF_now (s : State) (r : FRef) (n i j : Nat) : (s.incF r n i j).now = s.now := rfl
@[simp] theorem State.incF_out (s : State) (r : FRef) (n i j : Nat) : (s.incF r n i j).out = s.out := rfl
@[simp] theorem State.incF_free (s : State) (r : FRef) (n i j : Nat) : (s.incF r n i j).free = s.free := rfl
@[simp] theorem State.incF_sys (s : State) (r : FRef) (n i j : Nat) : (s.incF r n i j).sys = s.sys := rfl
@[simp] theorem State.incF_husk (s : State) (r : FRef) (n i j : Nat) : (s.incF r n i j).husk = s.husk := rfl
@[simp] theorem State.incF_pwr (s : State) (r : FRef) (n i j : Nat) : (s.incF r n i j).pwr = s.pwr := rfl
@[simp] theorem State.incF_sea (s : State) (r : FRef) (n i j : Nat) : (s.incF r n i j).sea = s.sea := rfl
@[simp] theorem State.incF_mesh (s : State) (r : FRef) (n i j : Nat) : (s.incF r n i j).mesh = s.mesh := rfl
@[simp] theorem State.incF_meas (s : State) (r : FRef) (n i j : Nat) : (s.incF r n i j).meas = s.meas := rfl
@[simp] theorem State.incF_pos (s : State) (r : FRef) (n i j : Nat) : (s.incF r n i j).pos = s.pos := rfl
@[simp] theorem State.incF_pwm (s : State) (r : FRef) (n i j : Nat) : (s.incF r n i j).pwm = s.pwm := rfl
@[simp] theorem State.incF_trip (s : State) (r : FRef) (n i j : Nat) : (s.incF r n i j).trip = s.trip := rfl
@[simp] theorem State.incF_loop (s : State) (r : FRef) (n i j : Nat) : (s.incF r n i j).loop = s.loop := rfl
@[simp] theorem State.incF_safe (s : State) (r : FRef) (n i j : Nat) : (s.incF r n i j).safe = s.safe := rfl
@[simp] theorem State.incF_hostq (s : State) (r : FRef) (n i j : Nat) : (s.incF r n i j).hostq = s.hostq := rfl
@[simp] theorem State.incF_net (s : State) (r : FRef) (n i j : Nat) : (s.incF r n i j).net = s.net := rfl
@[simp] theorem State.incF_can (s : State) (r : FRef) (n i j : Nat) : (s.incF r n i j).can = s.can := rfl
@[simp] theorem State.incF_clk (s : State) (r : FRef) (n i j : Nat) : (s.incF r n i j).clk = s.clk := rfl
@[simp] theorem State.incF_rel (s : State) (r : FRef) (n i j : Nat) : (s.incF r n i j).rel = s.rel := rfl
@[simp] theorem State.incF_cfg (s : State) (r : FRef) (n i j : Nat) : (s.incF r n i j).cfg = s.cfg := rfl
@[simp] theorem State.incF_tap (s : State) (r : FRef) (n i j : Nat) : (s.incF r n i j).tap = s.tap := rfl

/-! ## start -/

@[simp] theorem State.start_pending (s : State) (t : Instant) : (s.start t).pending = s.pending := rfl
@[simp] theorem State.start_free (s : State) (t : Instant) : (s.start t).free = s.free := rfl
@[simp] theorem State.start_regs (s : State) (t : Instant) : (s.start t).regs = s.regs := rfl
@[simp] theorem State.start_sys (s : State) (t : Instant) : (s.start t).sys = s.sys := rfl
@[simp] theorem State.start_husk (s : State) (t : Instant) : (s.start t).husk = s.husk := rfl
@[simp] theorem State.start_pwr (s : State) (t : Instant) : (s.start t).pwr = s.pwr := rfl
@[simp] theorem State.start_sea (s : State) (t : Instant) : (s.start t).sea = s.sea := rfl
@[simp] theorem State.start_mesh (s : State) (t : Instant) : (s.start t).mesh = s.mesh := rfl
@[simp] theorem State.start_meas (s : State) (t : Instant) : (s.start t).meas = s.meas := rfl
@[simp] theorem State.start_pos (s : State) (t : Instant) : (s.start t).pos = s.pos := rfl
@[simp] theorem State.start_pwm (s : State) (t : Instant) : (s.start t).pwm = s.pwm := rfl
@[simp] theorem State.start_trip (s : State) (t : Instant) : (s.start t).trip = s.trip := rfl
@[simp] theorem State.start_loop (s : State) (t : Instant) : (s.start t).loop = s.loop := rfl
@[simp] theorem State.start_safe (s : State) (t : Instant) : (s.start t).safe = s.safe := rfl
@[simp] theorem State.start_hostq (s : State) (t : Instant) : (s.start t).hostq = s.hostq := rfl
@[simp] theorem State.start_net (s : State) (t : Instant) : (s.start t).net = s.net := rfl
@[simp] theorem State.start_can (s : State) (t : Instant) : (s.start t).can = s.can := rfl
@[simp] theorem State.start_clk (s : State) (t : Instant) : (s.start t).clk = s.clk := rfl
@[simp] theorem State.start_rel (s : State) (t : Instant) : (s.start t).rel = s.rel := rfl
@[simp] theorem State.start_cfg (s : State) (t : Instant) : (s.start t).cfg = s.cfg := rfl
@[simp] theorem State.start_tap (s : State) (t : Instant) : (s.start t).tap = s.tap := rfl

@[simp] theorem State.start_now (s : State) (t : Instant) : (s.start t).now = max s.now t := rfl
@[simp] theorem State.start_out (s : State) (t : Instant) : (s.start t).out = [] := rfl

/-! ## emit -/

@[simp] theorem State.emit_pending (s : State) (o : Output) : (s.emit o).pending = s.pending := rfl
@[simp] theorem State.emit_now (s : State) (o : Output) : (s.emit o).now = s.now := rfl
@[simp] theorem State.emit_free (s : State) (o : Output) : (s.emit o).free = s.free := rfl
@[simp] theorem State.emit_fresh (s : State) (o : Output) : (s.emit o).fresh = s.fresh := rfl
@[simp] theorem State.emit_regs (s : State) (o : Output) : (s.emit o).regs = s.regs := rfl
@[simp] theorem State.emit_sys (s : State) (o : Output) : (s.emit o).sys = s.sys := rfl
@[simp] theorem State.emit_husk (s : State) (o : Output) : (s.emit o).husk = s.husk := rfl
@[simp] theorem State.emit_pwr (s : State) (o : Output) : (s.emit o).pwr = s.pwr := rfl
@[simp] theorem State.emit_sea (s : State) (o : Output) : (s.emit o).sea = s.sea := rfl
@[simp] theorem State.emit_mesh (s : State) (o : Output) : (s.emit o).mesh = s.mesh := rfl
@[simp] theorem State.emit_meas (s : State) (o : Output) : (s.emit o).meas = s.meas := rfl
@[simp] theorem State.emit_pos (s : State) (o : Output) : (s.emit o).pos = s.pos := rfl
@[simp] theorem State.emit_pwm (s : State) (o : Output) : (s.emit o).pwm = s.pwm := rfl
@[simp] theorem State.emit_trip (s : State) (o : Output) : (s.emit o).trip = s.trip := rfl
@[simp] theorem State.emit_loop (s : State) (o : Output) : (s.emit o).loop = s.loop := rfl
@[simp] theorem State.emit_safe (s : State) (o : Output) : (s.emit o).safe = s.safe := rfl
@[simp] theorem State.emit_hostq (s : State) (o : Output) : (s.emit o).hostq = s.hostq := rfl
@[simp] theorem State.emit_net (s : State) (o : Output) : (s.emit o).net = s.net := rfl
@[simp] theorem State.emit_can (s : State) (o : Output) : (s.emit o).can = s.can := rfl
@[simp] theorem State.emit_clk (s : State) (o : Output) : (s.emit o).clk = s.clk := rfl
@[simp] theorem State.emit_rel (s : State) (o : Output) : (s.emit o).rel = s.rel := rfl
@[simp] theorem State.emit_cfg (s : State) (o : Output) : (s.emit o).cfg = s.cfg := rfl
@[simp] theorem State.emit_tap (s : State) (o : Output) : (s.emit o).tap = s.tap := rfl

@[simp] theorem State.emit_out (s : State) (o : Output) : (s.emit o).out = s.out ++ [o] := rfl

/-! ## send -/

@[simp] theorem State.send_pending (s : State) (f : Flit) : (s.send f).pending = s.pending := rfl
@[simp] theorem State.send_now (s : State) (f : Flit) : (s.send f).now = s.now := rfl
@[simp] theorem State.send_free (s : State) (f : Flit) : (s.send f).free = s.free := rfl
@[simp] theorem State.send_fresh (s : State) (f : Flit) : (s.send f).fresh = s.fresh := rfl
@[simp] theorem State.send_regs (s : State) (f : Flit) : (s.send f).regs = s.regs := rfl
@[simp] theorem State.send_sys (s : State) (f : Flit) : (s.send f).sys = s.sys := rfl
@[simp] theorem State.send_husk (s : State) (f : Flit) : (s.send f).husk = s.husk := rfl
@[simp] theorem State.send_pwr (s : State) (f : Flit) : (s.send f).pwr = s.pwr := rfl
@[simp] theorem State.send_sea (s : State) (f : Flit) : (s.send f).sea = s.sea := rfl
@[simp] theorem State.send_meas (s : State) (f : Flit) : (s.send f).meas = s.meas := rfl
@[simp] theorem State.send_pos (s : State) (f : Flit) : (s.send f).pos = s.pos := rfl
@[simp] theorem State.send_pwm (s : State) (f : Flit) : (s.send f).pwm = s.pwm := rfl
@[simp] theorem State.send_trip (s : State) (f : Flit) : (s.send f).trip = s.trip := rfl
@[simp] theorem State.send_loop (s : State) (f : Flit) : (s.send f).loop = s.loop := rfl
@[simp] theorem State.send_safe (s : State) (f : Flit) : (s.send f).safe = s.safe := rfl
@[simp] theorem State.send_hostq (s : State) (f : Flit) : (s.send f).hostq = s.hostq := rfl
@[simp] theorem State.send_net (s : State) (f : Flit) : (s.send f).net = s.net := rfl
@[simp] theorem State.send_can (s : State) (f : Flit) : (s.send f).can = s.can := rfl
@[simp] theorem State.send_clk (s : State) (f : Flit) : (s.send f).clk = s.clk := rfl
@[simp] theorem State.send_rel (s : State) (f : Flit) : (s.send f).rel = s.rel := rfl
@[simp] theorem State.send_cfg (s : State) (f : Flit) : (s.send f).cfg = s.cfg := rfl
@[simp] theorem State.send_tap (s : State) (f : Flit) : (s.send f).tap = s.tap := rfl

@[simp] theorem State.send_out (s : State) (f : Flit) : (s.send f).out = s.out ++ [.flit f] := rfl
@[simp] theorem State.send_mesh (s : State) (f : Flit) : (s.send f).mesh = s.mesh.put f := rfl

/-! ## Events: an event reaches SYS alone -/

@[simp] theorem State.post_pending (s : State) (e : Ev) (a : Nat) (w0 w1 : Word) : (s.post e a w0 w1).pending = s.pending :=
  tch_post.1 .pending (by decide)
@[simp] theorem State.post_now (s : State) (e : Ev) (a : Nat) (w0 w1 : Word) : (s.post e a w0 w1).now = s.now :=
  tch_post.1 .now (by decide)
@[simp] theorem State.post_out (s : State) (e : Ev) (a : Nat) (w0 w1 : Word) : (s.post e a w0 w1).out = s.out :=
  tch_post.1 .out (by decide)
@[simp] theorem State.post_free (s : State) (e : Ev) (a : Nat) (w0 w1 : Word) : (s.post e a w0 w1).free = s.free :=
  tch_post.1 .free (by decide)
@[simp] theorem State.post_husk (s : State) (e : Ev) (a : Nat) (w0 w1 : Word) : (s.post e a w0 w1).husk = s.husk :=
  tch_post.1 .husk (by decide)
@[simp] theorem State.post_pwr (s : State) (e : Ev) (a : Nat) (w0 w1 : Word) : (s.post e a w0 w1).pwr = s.pwr :=
  tch_post.1 .pwr (by decide)
@[simp] theorem State.post_sea (s : State) (e : Ev) (a : Nat) (w0 w1 : Word) : (s.post e a w0 w1).sea = s.sea :=
  tch_post.1 .sea (by decide)
@[simp] theorem State.post_mesh (s : State) (e : Ev) (a : Nat) (w0 w1 : Word) : (s.post e a w0 w1).mesh = s.mesh :=
  tch_post.1 .mesh (by decide)
@[simp] theorem State.post_meas (s : State) (e : Ev) (a : Nat) (w0 w1 : Word) : (s.post e a w0 w1).meas = s.meas :=
  tch_post.1 .meas (by decide)
@[simp] theorem State.post_pos (s : State) (e : Ev) (a : Nat) (w0 w1 : Word) : (s.post e a w0 w1).pos = s.pos :=
  tch_post.1 .pos (by decide)
@[simp] theorem State.post_pwm (s : State) (e : Ev) (a : Nat) (w0 w1 : Word) : (s.post e a w0 w1).pwm = s.pwm :=
  tch_post.1 .pwm (by decide)
@[simp] theorem State.post_trip (s : State) (e : Ev) (a : Nat) (w0 w1 : Word) : (s.post e a w0 w1).trip = s.trip :=
  tch_post.1 .trip (by decide)
@[simp] theorem State.post_loop (s : State) (e : Ev) (a : Nat) (w0 w1 : Word) : (s.post e a w0 w1).loop = s.loop :=
  tch_post.1 .loop (by decide)
@[simp] theorem State.post_safe (s : State) (e : Ev) (a : Nat) (w0 w1 : Word) : (s.post e a w0 w1).safe = s.safe :=
  tch_post.1 .safe (by decide)
@[simp] theorem State.post_hostq (s : State) (e : Ev) (a : Nat) (w0 w1 : Word) : (s.post e a w0 w1).hostq = s.hostq :=
  tch_post.1 .hostq (by decide)
@[simp] theorem State.post_net (s : State) (e : Ev) (a : Nat) (w0 w1 : Word) : (s.post e a w0 w1).net = s.net :=
  tch_post.1 .net (by decide)
@[simp] theorem State.post_can (s : State) (e : Ev) (a : Nat) (w0 w1 : Word) : (s.post e a w0 w1).can = s.can :=
  tch_post.1 .can (by decide)
@[simp] theorem State.post_clk (s : State) (e : Ev) (a : Nat) (w0 w1 : Word) : (s.post e a w0 w1).clk = s.clk :=
  tch_post.1 .clk (by decide)
@[simp] theorem State.post_rel (s : State) (e : Ev) (a : Nat) (w0 w1 : Word) : (s.post e a w0 w1).rel = s.rel :=
  tch_post.1 .rel (by decide)
@[simp] theorem State.post_cfg (s : State) (e : Ev) (a : Nat) (w0 w1 : Word) : (s.post e a w0 w1).cfg = s.cfg :=
  tch_post.1 .cfg (by decide)
@[simp] theorem State.post_tap (s : State) (e : Ev) (a : Nat) (w0 w1 : Word) : (s.post e a w0 w1).tap = s.tap :=
  tch_post.1 .tap (by decide)

@[simp] theorem State.postLimited_pending (s : State) (k : Nat) (e : Ev) (a : Nat) (w0 w1 : Word) : (s.postLimited k e a w0 w1).pending = s.pending :=
  tch_postLimited.1 .pending (by decide)
@[simp] theorem State.postLimited_now (s : State) (k : Nat) (e : Ev) (a : Nat) (w0 w1 : Word) : (s.postLimited k e a w0 w1).now = s.now :=
  tch_postLimited.1 .now (by decide)
@[simp] theorem State.postLimited_out (s : State) (k : Nat) (e : Ev) (a : Nat) (w0 w1 : Word) : (s.postLimited k e a w0 w1).out = s.out :=
  tch_postLimited.1 .out (by decide)
@[simp] theorem State.postLimited_free (s : State) (k : Nat) (e : Ev) (a : Nat) (w0 w1 : Word) : (s.postLimited k e a w0 w1).free = s.free :=
  tch_postLimited.1 .free (by decide)
@[simp] theorem State.postLimited_husk (s : State) (k : Nat) (e : Ev) (a : Nat) (w0 w1 : Word) : (s.postLimited k e a w0 w1).husk = s.husk :=
  tch_postLimited.1 .husk (by decide)
@[simp] theorem State.postLimited_pwr (s : State) (k : Nat) (e : Ev) (a : Nat) (w0 w1 : Word) : (s.postLimited k e a w0 w1).pwr = s.pwr :=
  tch_postLimited.1 .pwr (by decide)
@[simp] theorem State.postLimited_sea (s : State) (k : Nat) (e : Ev) (a : Nat) (w0 w1 : Word) : (s.postLimited k e a w0 w1).sea = s.sea :=
  tch_postLimited.1 .sea (by decide)
@[simp] theorem State.postLimited_mesh (s : State) (k : Nat) (e : Ev) (a : Nat) (w0 w1 : Word) : (s.postLimited k e a w0 w1).mesh = s.mesh :=
  tch_postLimited.1 .mesh (by decide)
@[simp] theorem State.postLimited_meas (s : State) (k : Nat) (e : Ev) (a : Nat) (w0 w1 : Word) : (s.postLimited k e a w0 w1).meas = s.meas :=
  tch_postLimited.1 .meas (by decide)
@[simp] theorem State.postLimited_pos (s : State) (k : Nat) (e : Ev) (a : Nat) (w0 w1 : Word) : (s.postLimited k e a w0 w1).pos = s.pos :=
  tch_postLimited.1 .pos (by decide)
@[simp] theorem State.postLimited_pwm (s : State) (k : Nat) (e : Ev) (a : Nat) (w0 w1 : Word) : (s.postLimited k e a w0 w1).pwm = s.pwm :=
  tch_postLimited.1 .pwm (by decide)
@[simp] theorem State.postLimited_trip (s : State) (k : Nat) (e : Ev) (a : Nat) (w0 w1 : Word) : (s.postLimited k e a w0 w1).trip = s.trip :=
  tch_postLimited.1 .trip (by decide)
@[simp] theorem State.postLimited_loop (s : State) (k : Nat) (e : Ev) (a : Nat) (w0 w1 : Word) : (s.postLimited k e a w0 w1).loop = s.loop :=
  tch_postLimited.1 .loop (by decide)
@[simp] theorem State.postLimited_safe (s : State) (k : Nat) (e : Ev) (a : Nat) (w0 w1 : Word) : (s.postLimited k e a w0 w1).safe = s.safe :=
  tch_postLimited.1 .safe (by decide)
@[simp] theorem State.postLimited_hostq (s : State) (k : Nat) (e : Ev) (a : Nat) (w0 w1 : Word) : (s.postLimited k e a w0 w1).hostq = s.hostq :=
  tch_postLimited.1 .hostq (by decide)
@[simp] theorem State.postLimited_net (s : State) (k : Nat) (e : Ev) (a : Nat) (w0 w1 : Word) : (s.postLimited k e a w0 w1).net = s.net :=
  tch_postLimited.1 .net (by decide)
@[simp] theorem State.postLimited_can (s : State) (k : Nat) (e : Ev) (a : Nat) (w0 w1 : Word) : (s.postLimited k e a w0 w1).can = s.can :=
  tch_postLimited.1 .can (by decide)
@[simp] theorem State.postLimited_clk (s : State) (k : Nat) (e : Ev) (a : Nat) (w0 w1 : Word) : (s.postLimited k e a w0 w1).clk = s.clk :=
  tch_postLimited.1 .clk (by decide)
@[simp] theorem State.postLimited_rel (s : State) (k : Nat) (e : Ev) (a : Nat) (w0 w1 : Word) : (s.postLimited k e a w0 w1).rel = s.rel :=
  tch_postLimited.1 .rel (by decide)
@[simp] theorem State.postLimited_cfg (s : State) (k : Nat) (e : Ev) (a : Nat) (w0 w1 : Word) : (s.postLimited k e a w0 w1).cfg = s.cfg :=
  tch_postLimited.1 .cfg (by decide)
@[simp] theorem State.postLimited_tap (s : State) (k : Nat) (e : Ev) (a : Nat) (w0 w1 : Word) : (s.postLimited k e a w0 w1).tap = s.tap :=
  tch_postLimited.1 .tap (by decide)

@[simp] theorem State.raise_pending (s : State) (r : FRef) (i : Nat) (e : Ev) (a : Nat) (w0 w1 : Word) : (s.raise r i e a w0 w1).pending = s.pending := by
  unfold State.raise; split
  · rfl
  · rw [State.post_pending, State.setB_pending]
@[simp] theorem State.raise_now (s : State) (r : FRef) (i : Nat) (e : Ev) (a : Nat) (w0 w1 : Word) : (s.raise r i e a w0 w1).now = s.now := by
  unfold State.raise; split
  · rfl
  · rw [State.post_now, State.setB_now]
@[simp] theorem State.raise_out (s : State) (r : FRef) (i : Nat) (e : Ev) (a : Nat) (w0 w1 : Word) : (s.raise r i e a w0 w1).out = s.out := by
  unfold State.raise; split
  · rfl
  · rw [State.post_out, State.setB_out]
@[simp] theorem State.raise_free (s : State) (r : FRef) (i : Nat) (e : Ev) (a : Nat) (w0 w1 : Word) : (s.raise r i e a w0 w1).free = s.free := by
  unfold State.raise; split
  · rfl
  · rw [State.post_free, State.setB_free]
@[simp] theorem State.raise_husk (s : State) (r : FRef) (i : Nat) (e : Ev) (a : Nat) (w0 w1 : Word) : (s.raise r i e a w0 w1).husk = s.husk := by
  unfold State.raise; split
  · rfl
  · rw [State.post_husk, State.setB_husk]
@[simp] theorem State.raise_pwr (s : State) (r : FRef) (i : Nat) (e : Ev) (a : Nat) (w0 w1 : Word) : (s.raise r i e a w0 w1).pwr = s.pwr := by
  unfold State.raise; split
  · rfl
  · rw [State.post_pwr, State.setB_pwr]
@[simp] theorem State.raise_sea (s : State) (r : FRef) (i : Nat) (e : Ev) (a : Nat) (w0 w1 : Word) : (s.raise r i e a w0 w1).sea = s.sea := by
  unfold State.raise; split
  · rfl
  · rw [State.post_sea, State.setB_sea]
@[simp] theorem State.raise_mesh (s : State) (r : FRef) (i : Nat) (e : Ev) (a : Nat) (w0 w1 : Word) : (s.raise r i e a w0 w1).mesh = s.mesh := by
  unfold State.raise; split
  · rfl
  · rw [State.post_mesh, State.setB_mesh]
@[simp] theorem State.raise_meas (s : State) (r : FRef) (i : Nat) (e : Ev) (a : Nat) (w0 w1 : Word) : (s.raise r i e a w0 w1).meas = s.meas := by
  unfold State.raise; split
  · rfl
  · rw [State.post_meas, State.setB_meas]
@[simp] theorem State.raise_pos (s : State) (r : FRef) (i : Nat) (e : Ev) (a : Nat) (w0 w1 : Word) : (s.raise r i e a w0 w1).pos = s.pos := by
  unfold State.raise; split
  · rfl
  · rw [State.post_pos, State.setB_pos]
@[simp] theorem State.raise_pwm (s : State) (r : FRef) (i : Nat) (e : Ev) (a : Nat) (w0 w1 : Word) : (s.raise r i e a w0 w1).pwm = s.pwm := by
  unfold State.raise; split
  · rfl
  · rw [State.post_pwm, State.setB_pwm]
@[simp] theorem State.raise_trip (s : State) (r : FRef) (i : Nat) (e : Ev) (a : Nat) (w0 w1 : Word) : (s.raise r i e a w0 w1).trip = s.trip := by
  unfold State.raise; split
  · rfl
  · rw [State.post_trip, State.setB_trip]
@[simp] theorem State.raise_loop (s : State) (r : FRef) (i : Nat) (e : Ev) (a : Nat) (w0 w1 : Word) : (s.raise r i e a w0 w1).loop = s.loop := by
  unfold State.raise; split
  · rfl
  · rw [State.post_loop, State.setB_loop]
@[simp] theorem State.raise_safe (s : State) (r : FRef) (i : Nat) (e : Ev) (a : Nat) (w0 w1 : Word) : (s.raise r i e a w0 w1).safe = s.safe := by
  unfold State.raise; split
  · rfl
  · rw [State.post_safe, State.setB_safe]
@[simp] theorem State.raise_hostq (s : State) (r : FRef) (i : Nat) (e : Ev) (a : Nat) (w0 w1 : Word) : (s.raise r i e a w0 w1).hostq = s.hostq := by
  unfold State.raise; split
  · rfl
  · rw [State.post_hostq, State.setB_hostq]
@[simp] theorem State.raise_net (s : State) (r : FRef) (i : Nat) (e : Ev) (a : Nat) (w0 w1 : Word) : (s.raise r i e a w0 w1).net = s.net := by
  unfold State.raise; split
  · rfl
  · rw [State.post_net, State.setB_net]
@[simp] theorem State.raise_can (s : State) (r : FRef) (i : Nat) (e : Ev) (a : Nat) (w0 w1 : Word) : (s.raise r i e a w0 w1).can = s.can := by
  unfold State.raise; split
  · rfl
  · rw [State.post_can, State.setB_can]
@[simp] theorem State.raise_clk (s : State) (r : FRef) (i : Nat) (e : Ev) (a : Nat) (w0 w1 : Word) : (s.raise r i e a w0 w1).clk = s.clk := by
  unfold State.raise; split
  · rfl
  · rw [State.post_clk, State.setB_clk]
@[simp] theorem State.raise_rel (s : State) (r : FRef) (i : Nat) (e : Ev) (a : Nat) (w0 w1 : Word) : (s.raise r i e a w0 w1).rel = s.rel := by
  unfold State.raise; split
  · rfl
  · rw [State.post_rel, State.setB_rel]
@[simp] theorem State.raise_cfg (s : State) (r : FRef) (i : Nat) (e : Ev) (a : Nat) (w0 w1 : Word) : (s.raise r i e a w0 w1).cfg = s.cfg := by
  unfold State.raise; split
  · rfl
  · rw [State.post_cfg, State.setB_cfg]
@[simp] theorem State.raise_tap (s : State) (r : FRef) (i : Nat) (e : Ev) (a : Nat) (w0 w1 : Word) : (s.raise r i e a w0 w1).tap = s.tap := by
  unfold State.raise; split
  · rfl
  · rw [State.post_tap, State.setB_tap]

@[simp] theorem State.raiseBit_pending (s : State) (r : FRef) (k : Nat) (i : Nat) (e : Ev) (a : Nat) (w0 w1 : Word) : (s.raiseBit r k i e a w0 w1).pending = s.pending := by
  unfold State.raiseBit; split
  · rfl
  · rw [State.post_pending, State.setBitF_pending]
@[simp] theorem State.raiseBit_now (s : State) (r : FRef) (k : Nat) (i : Nat) (e : Ev) (a : Nat) (w0 w1 : Word) : (s.raiseBit r k i e a w0 w1).now = s.now := by
  unfold State.raiseBit; split
  · rfl
  · rw [State.post_now, State.setBitF_now]
@[simp] theorem State.raiseBit_out (s : State) (r : FRef) (k : Nat) (i : Nat) (e : Ev) (a : Nat) (w0 w1 : Word) : (s.raiseBit r k i e a w0 w1).out = s.out := by
  unfold State.raiseBit; split
  · rfl
  · rw [State.post_out, State.setBitF_out]
@[simp] theorem State.raiseBit_free (s : State) (r : FRef) (k : Nat) (i : Nat) (e : Ev) (a : Nat) (w0 w1 : Word) : (s.raiseBit r k i e a w0 w1).free = s.free := by
  unfold State.raiseBit; split
  · rfl
  · rw [State.post_free, State.setBitF_free]
@[simp] theorem State.raiseBit_husk (s : State) (r : FRef) (k : Nat) (i : Nat) (e : Ev) (a : Nat) (w0 w1 : Word) : (s.raiseBit r k i e a w0 w1).husk = s.husk := by
  unfold State.raiseBit; split
  · rfl
  · rw [State.post_husk, State.setBitF_husk]
@[simp] theorem State.raiseBit_pwr (s : State) (r : FRef) (k : Nat) (i : Nat) (e : Ev) (a : Nat) (w0 w1 : Word) : (s.raiseBit r k i e a w0 w1).pwr = s.pwr := by
  unfold State.raiseBit; split
  · rfl
  · rw [State.post_pwr, State.setBitF_pwr]
@[simp] theorem State.raiseBit_sea (s : State) (r : FRef) (k : Nat) (i : Nat) (e : Ev) (a : Nat) (w0 w1 : Word) : (s.raiseBit r k i e a w0 w1).sea = s.sea := by
  unfold State.raiseBit; split
  · rfl
  · rw [State.post_sea, State.setBitF_sea]
@[simp] theorem State.raiseBit_mesh (s : State) (r : FRef) (k : Nat) (i : Nat) (e : Ev) (a : Nat) (w0 w1 : Word) : (s.raiseBit r k i e a w0 w1).mesh = s.mesh := by
  unfold State.raiseBit; split
  · rfl
  · rw [State.post_mesh, State.setBitF_mesh]
@[simp] theorem State.raiseBit_meas (s : State) (r : FRef) (k : Nat) (i : Nat) (e : Ev) (a : Nat) (w0 w1 : Word) : (s.raiseBit r k i e a w0 w1).meas = s.meas := by
  unfold State.raiseBit; split
  · rfl
  · rw [State.post_meas, State.setBitF_meas]
@[simp] theorem State.raiseBit_pos (s : State) (r : FRef) (k : Nat) (i : Nat) (e : Ev) (a : Nat) (w0 w1 : Word) : (s.raiseBit r k i e a w0 w1).pos = s.pos := by
  unfold State.raiseBit; split
  · rfl
  · rw [State.post_pos, State.setBitF_pos]
@[simp] theorem State.raiseBit_pwm (s : State) (r : FRef) (k : Nat) (i : Nat) (e : Ev) (a : Nat) (w0 w1 : Word) : (s.raiseBit r k i e a w0 w1).pwm = s.pwm := by
  unfold State.raiseBit; split
  · rfl
  · rw [State.post_pwm, State.setBitF_pwm]
@[simp] theorem State.raiseBit_trip (s : State) (r : FRef) (k : Nat) (i : Nat) (e : Ev) (a : Nat) (w0 w1 : Word) : (s.raiseBit r k i e a w0 w1).trip = s.trip := by
  unfold State.raiseBit; split
  · rfl
  · rw [State.post_trip, State.setBitF_trip]
@[simp] theorem State.raiseBit_loop (s : State) (r : FRef) (k : Nat) (i : Nat) (e : Ev) (a : Nat) (w0 w1 : Word) : (s.raiseBit r k i e a w0 w1).loop = s.loop := by
  unfold State.raiseBit; split
  · rfl
  · rw [State.post_loop, State.setBitF_loop]
@[simp] theorem State.raiseBit_safe (s : State) (r : FRef) (k : Nat) (i : Nat) (e : Ev) (a : Nat) (w0 w1 : Word) : (s.raiseBit r k i e a w0 w1).safe = s.safe := by
  unfold State.raiseBit; split
  · rfl
  · rw [State.post_safe, State.setBitF_safe]
@[simp] theorem State.raiseBit_hostq (s : State) (r : FRef) (k : Nat) (i : Nat) (e : Ev) (a : Nat) (w0 w1 : Word) : (s.raiseBit r k i e a w0 w1).hostq = s.hostq := by
  unfold State.raiseBit; split
  · rfl
  · rw [State.post_hostq, State.setBitF_hostq]
@[simp] theorem State.raiseBit_net (s : State) (r : FRef) (k : Nat) (i : Nat) (e : Ev) (a : Nat) (w0 w1 : Word) : (s.raiseBit r k i e a w0 w1).net = s.net := by
  unfold State.raiseBit; split
  · rfl
  · rw [State.post_net, State.setBitF_net]
@[simp] theorem State.raiseBit_can (s : State) (r : FRef) (k : Nat) (i : Nat) (e : Ev) (a : Nat) (w0 w1 : Word) : (s.raiseBit r k i e a w0 w1).can = s.can := by
  unfold State.raiseBit; split
  · rfl
  · rw [State.post_can, State.setBitF_can]
@[simp] theorem State.raiseBit_clk (s : State) (r : FRef) (k : Nat) (i : Nat) (e : Ev) (a : Nat) (w0 w1 : Word) : (s.raiseBit r k i e a w0 w1).clk = s.clk := by
  unfold State.raiseBit; split
  · rfl
  · rw [State.post_clk, State.setBitF_clk]
@[simp] theorem State.raiseBit_rel (s : State) (r : FRef) (k : Nat) (i : Nat) (e : Ev) (a : Nat) (w0 w1 : Word) : (s.raiseBit r k i e a w0 w1).rel = s.rel := by
  unfold State.raiseBit; split
  · rfl
  · rw [State.post_rel, State.setBitF_rel]
@[simp] theorem State.raiseBit_cfg (s : State) (r : FRef) (k : Nat) (i : Nat) (e : Ev) (a : Nat) (w0 w1 : Word) : (s.raiseBit r k i e a w0 w1).cfg = s.cfg := by
  unfold State.raiseBit; split
  · rfl
  · rw [State.post_cfg, State.setBitF_cfg]
@[simp] theorem State.raiseBit_tap (s : State) (r : FRef) (k : Nat) (i : Nat) (e : Ev) (a : Nat) (w0 w1 : Word) : (s.raiseBit r k i e a w0 w1).tap = s.tap := by
  unfold State.raiseBit; split
  · rfl
  · rw [State.post_tap, State.setBitF_tap]

/-- At a queue with room, the flit of an event waits behind the others. -/
theorem State.post_sys (s : State) (e : Ev) (a : Nat) (w0 w1 : Word) (h : s.room) : Reports s (s.post e a w0 w1) e a w0 w1 := by
  unfold State.room at h
  unfold State.post
  rw [if_pos h]
  exact ⟨_, rfl, rfl⟩

/-- An event joins the end of the queue, or is lost. -/
theorem QExt.post (s : State) (e : Ev) (a : Nat) (w0 w1 : Word) : QExt s (s.post e a w0 w1) := by
  by_cases h : s.room
  · obtain ⟨q, hq, _⟩ := State.post_sys s e a w0 w1 h
    exact ⟨[q], hq⟩
  · unfold State.post
    rw [if_neg (show ¬ s.sys.queue.length < 64 from h)]
    exact QExt.of_eq rfl

theorem QExt.doIf {s u : State} {c : Bool} {g : State → State} (h : QExt s u) (hg : ∀ x, QExt s x → QExt s (g x)) : QExt s (u.doIf c g) := by
  unfold State.doIf
  split
  · exact hg _ h
  · exact h

theorem QExt.raise (s : State) (r : FRef) (i : Nat) (e : Ev) (a : Nat) (w0 w1 : Word) : QExt s (s.raise r i e a w0 w1) := by
  unfold State.raise
  split
  · exact QExt.refl s
  · exact (QExt.of_eq rfl).trans (QExt.post ..)

/-- What has been reported stays reported. -/
theorem Reports.posts {s u v : State} {e : Ev} {a : Nat} {w0 w1 : Word} (h : Reports s u e a w0 w1) (h' : QExt u v) : Posts s v e a w0 w1 := by
  obtain ⟨q, hq, he⟩ := h
  obtain ⟨l, h'⟩ := h'
  exact ⟨[], q, l, by rw [h', hq]; simp, he⟩

/-- At a queue with room, an event changes no register. -/
theorem State.post_regs (s : State) (e : Ev) (a : Nat) (w0 w1 : Word) (h : s.room) : (s.post e a w0 w1).regs = s.regs := by
  unfold State.room at h
  unfold State.post
  rw [if_pos h]

/-- With the condition met, the change happens. -/
theorem State.doIf_of {s : State} {c : Bool} {g : State → State} (h : c = true) : s.doIf c g = g s := by subst h; rfl

/-- Without it, nothing does. -/
theorem State.doIf_not {s : State} {c : Bool} {g : State → State} (h : c = false) : s.doIf c g = s := by subst h; rfl

/-- A counter counts up to the top of its field. -/
theorem f_incF_same (s : State) (r : FRef) (n i j : Nat) (h : r.lo ≤ r.hi ∧ r.hi < 32) :
    (s.incF r n i j).f r i j = min (s.f r i j + n) (2 ^ (r.hi + 1 - r.lo) - 1) := by
  unfold State.incF; rw [f_setF_same _ _ _ _ _ h]; unfold satN
  exact Nat.mod_eq_of_lt (Nat.lt_of_le_of_lt (Nat.min_le_right ..) (Nat.sub_lt (Nat.two_pow_pos _) (by decide)))

/-- Reporting sees only the time and the queue of the state before. -/
theorem Reports.of_eq {s u s' : State} {e : Ev} {a : Nat} {w0 w1 : Word} (h : Reports u s' e a w0 w1) (hq : u.sys.queue = s.sys.queue)
    (ht : u.shortTs = s.shortTs) : Reports s s' e a w0 w1 := by
  obtain ⟨q, h1, h2⟩ := h
  exact ⟨q, by rw [h1, hq], by rw [h2, ht]⟩

theorem Reports.emit {s s' : State} {e : Ev} {a : Nat} {w0 w1 : Word} (h : Reports s s' e a w0 w1) (o : Output) :
    Reports s (s'.emit o) e a w0 w1 := h

theorem Reports.send {s s' : State} {e : Ev} {a : Nat} {w0 w1 : Word} (h : Reports s s' e a w0 w1) (f : Flit) :
    Reports s (s'.send f) e a w0 w1 := h

/-- The short timestamp depends on the time, CLK and NET alone. -/
theorem State.shortTs_eq {s u : State} (h1 : u.now = s.now) (h2 : u.clk = s.clk) (h3 : u.net = s.net) : u.shortTs = s.shortTs := by
  unfold State.shortTs State.ntime State.pwmTime
  rw [h1, h2, h3]

/-- A change that leaves time, clock and network alone leaves the short timestamp. -/
theorem Touches.shortTs {m : Nat} {s s' : State} (h : Touches m s s') (hm : m &&& 18522046464 = 0) : s'.shortTs = s.shortTs := by
  have key : ∀ i, (18522046464 : Nat).testBit i = true → m.testBit i = false := by
    intro i hi
    have : (m &&& 18522046464).testBit i = false := by rw [hm]; exact Nat.zero_testBit i
    rw [Nat.testBit_and, hi, Bool.and_true] at this
    exact this
  have h1 : s'.now = s.now := h.1 .now (key 34 (by decide))
  have h2 : s'.net = s.net := h.1 .net (key 28 (by decide))
  have h3 : s'.clk = s.clk := h.1 .clk (key 30 (by decide))
  unfold State.shortTs State.ntime State.pwmTime
  rw [h1, h2, h3]

/-- The same holds of a change of a part alone. -/
theorem Touches.sysSame {m : Nat} {s s' : State} (h : Touches m s s') (hm : m.testBit 16 = false) : s'.sys = s.sys := h.1 .sys hm

/-- Post after a change that leaves SYS and the time alone, as seen from before it. -/
theorem Touches.reports {m : Nat} {s u : State} (h : Touches m s u) (hm : m &&& 18522046464 = 0) (hs : m.testBit 16 = false) (hr : s.room)
    (e : Ev) (a : Nat) (w0 w1 : Word) : Reports s (u.post e a w0 w1) e a w0 w1 := by
  have hsys := h.sysSame hs
  exact (State.post_sys u e a w0 w1 (by unfold State.room; rw [hsys]; exact hr)).of_eq (by rw [hsys]) (h.shortTs hm)

@[simp] theorem State.setWord_room (s : State) (b : Blk) (k : Nat) (w : Word) : (s.setWord b k w).room = s.room := rfl
@[simp] theorem State.setF_room (s : State) (r : FRef) (v i j : Nat) : (s.setF r v i j).room = s.room := rfl
@[simp] theorem State.setB_room (s : State) (r : FRef) (v : Bool) (i j : Nat) : (s.setB r v i j).room = s.room := rfl
@[simp] theorem State.setF_shortTs (s : State) (r : FRef) (v i j : Nat) : (s.setF r v i j).shortTs = s.shortTs := rfl
@[simp] theorem State.setB_shortTs (s : State) (r : FRef) (v : Bool) (i j : Nat) : (s.setB r v i j).shortTs = s.shortTs := rfl
@[simp] theorem State.setWord_shortTs (s : State) (b : Blk) (k : Nat) (w : Word) : (s.setWord b k w).shortTs = s.shortTs := rfl

@[simp] theorem State.post_pwmTime (s : State) (e : Ev) (a : Nat) (w0 w1 : Word) : (s.post e a w0 w1).pwmTime = s.pwmTime := by
  unfold State.pwmTime; rw [State.post_clk, State.post_now]
@[simp] theorem State.post_ntime (s : State) (e : Ev) (a : Nat) (w0 w1 : Word) : (s.post e a w0 w1).ntime = s.ntime := by
  unfold State.ntime; rw [State.post_net, State.post_pwmTime]
@[simp] theorem State.post_shortTs (s : State) (e : Ev) (a : Nat) (w0 w1 : Word) : (s.post e a w0 w1).shortTs = s.shortTs := by
  unfold State.shortTs; rw [State.post_ntime]
@[simp] theorem State.post_inReset (s : State) (e : Ev) (a : Nat) (w0 w1 : Word) : (s.post e a w0 w1).inReset = s.inReset := by
  unfold State.inReset; rw [State.post_pwr]
@[simp] theorem State.post_barOpen (s : State) (e : Ev) (a : Nat) (w0 w1 : Word) : (s.post e a w0 w1).barOpen = s.barOpen := by
  unfold State.barOpen; rw [State.post_hostq, State.post_inReset]
@[simp] theorem State.post_alive (s : State) (e : Ev) (a : Nat) (w0 w1 : Word) : (s.post e a w0 w1).alive = s.alive := by
  unfold State.alive; rw [State.post_husk, State.post_inReset]

@[simp] theorem State.doIf_true (s : State) (g : State → State) : s.doIf true g = g s := rfl
@[simp] theorem State.doIf_false (s : State) (g : State → State) : s.doIf false g = s := rfl

/-! ## Registers after the updates -/

@[simp] theorem word_start (s : State) (t : Instant) (b : Blk) (k : Nat) : (s.start t).word b k = s.word b k := rfl
@[simp] theorem f_start (s : State) (t : Instant) (q : FRef) (i j : Nat) : (s.start t).f q i j = s.f q i j := rfl
@[simp] theorem b_start (s : State) (t : Instant) (q : FRef) (i j : Nat) : (s.start t).b q i j = s.b q i j := rfl
@[simp] theorem f_emit (s : State) (o : Output) (q : FRef) (i j : Nat) : (s.emit o).f q i j = s.f q i j := rfl
@[simp] theorem b_emit (s : State) (o : Output) (q : FRef) (i j : Nat) : (s.emit o).b q i j = s.b q i j := rfl
@[simp] theorem f_send (s : State) (o : Flit) (q : FRef) (i j : Nat) : (s.send o).f q i j = s.f q i j := rfl
@[simp] theorem b_send (s : State) (o : Flit) (q : FRef) (i j : Nat) : (s.send o).b q i j = s.b q i j := rfl

/-! A register reads as before when another field of the state is replaced. -/

@[simp] theorem f_upd_pending (s : State) (x) (q : FRef) (i j : Nat) : State.f { s with pending := x } q i j = s.f q i j := rfl
@[simp] theorem b_upd_pending (s : State) (x) (q : FRef) (i j : Nat) : State.b { s with pending := x } q i j = s.b q i j := rfl
@[simp] theorem f_upd_now (s : State) (x) (q : FRef) (i j : Nat) : State.f { s with now := x } q i j = s.f q i j := rfl
@[simp] theorem b_upd_now (s : State) (x) (q : FRef) (i j : Nat) : State.b { s with now := x } q i j = s.b q i j := rfl
@[simp] theorem f_upd_out (s : State) (x) (q : FRef) (i j : Nat) : State.f { s with out := x } q i j = s.f q i j := rfl
@[simp] theorem b_upd_out (s : State) (x) (q : FRef) (i j : Nat) : State.b { s with out := x } q i j = s.b q i j := rfl
@[simp] theorem f_upd_free (s : State) (x) (q : FRef) (i j : Nat) : State.f { s with free := x } q i j = s.f q i j := rfl
@[simp] theorem b_upd_free (s : State) (x) (q : FRef) (i j : Nat) : State.b { s with free := x } q i j = s.b q i j := rfl
@[simp] theorem f_upd_sys (s : State) (x) (q : FRef) (i j : Nat) : State.f { s with sys := x } q i j = s.f q i j := rfl
@[simp] theorem b_upd_sys (s : State) (x) (q : FRef) (i j : Nat) : State.b { s with sys := x } q i j = s.b q i j := rfl
@[simp] theorem f_upd_husk (s : State) (x) (q : FRef) (i j : Nat) : State.f { s with husk := x } q i j = s.f q i j := rfl
@[simp] theorem b_upd_husk (s : State) (x) (q : FRef) (i j : Nat) : State.b { s with husk := x } q i j = s.b q i j := rfl
@[simp] theorem f_upd_pwr (s : State) (x) (q : FRef) (i j : Nat) : State.f { s with pwr := x } q i j = s.f q i j := rfl
@[simp] theorem b_upd_pwr (s : State) (x) (q : FRef) (i j : Nat) : State.b { s with pwr := x } q i j = s.b q i j := rfl
@[simp] theorem f_upd_sea (s : State) (x) (q : FRef) (i j : Nat) : State.f { s with sea := x } q i j = s.f q i j := rfl
@[simp] theorem b_upd_sea (s : State) (x) (q : FRef) (i j : Nat) : State.b { s with sea := x } q i j = s.b q i j := rfl
@[simp] theorem f_upd_meas (s : State) (x) (q : FRef) (i j : Nat) : State.f { s with meas := x } q i j = s.f q i j := rfl
@[simp] theorem b_upd_meas (s : State) (x) (q : FRef) (i j : Nat) : State.b { s with meas := x } q i j = s.b q i j := rfl
@[simp] theorem f_upd_pos (s : State) (x) (q : FRef) (i j : Nat) : State.f { s with pos := x } q i j = s.f q i j := rfl
@[simp] theorem b_upd_pos (s : State) (x) (q : FRef) (i j : Nat) : State.b { s with pos := x } q i j = s.b q i j := rfl
@[simp] theorem f_upd_pwm (s : State) (x) (q : FRef) (i j : Nat) : State.f { s with pwm := x } q i j = s.f q i j := rfl
@[simp] theorem b_upd_pwm (s : State) (x) (q : FRef) (i j : Nat) : State.b { s with pwm := x } q i j = s.b q i j := rfl
@[simp] theorem f_upd_trip (s : State) (x) (q : FRef) (i j : Nat) : State.f { s with trip := x } q i j = s.f q i j := rfl
@[simp] theorem b_upd_trip (s : State) (x) (q : FRef) (i j : Nat) : State.b { s with trip := x } q i j = s.b q i j := rfl
@[simp] theorem f_upd_loop (s : State) (x) (q : FRef) (i j : Nat) : State.f { s with loop := x } q i j = s.f q i j := rfl
@[simp] theorem b_upd_loop (s : State) (x) (q : FRef) (i j : Nat) : State.b { s with loop := x } q i j = s.b q i j := rfl
@[simp] theorem f_upd_safe (s : State) (x) (q : FRef) (i j : Nat) : State.f { s with safe := x } q i j = s.f q i j := rfl
@[simp] theorem b_upd_safe (s : State) (x) (q : FRef) (i j : Nat) : State.b { s with safe := x } q i j = s.b q i j := rfl
@[simp] theorem f_upd_hostq (s : State) (x) (q : FRef) (i j : Nat) : State.f { s with hostq := x } q i j = s.f q i j := rfl
@[simp] theorem b_upd_hostq (s : State) (x) (q : FRef) (i j : Nat) : State.b { s with hostq := x } q i j = s.b q i j := rfl
@[simp] theorem f_upd_net (s : State) (x) (q : FRef) (i j : Nat) : State.f { s with net := x } q i j = s.f q i j := rfl
@[simp] theorem b_upd_net (s : State) (x) (q : FRef) (i j : Nat) : State.b { s with net := x } q i j = s.b q i j := rfl
@[simp] theorem f_upd_can (s : State) (x) (q : FRef) (i j : Nat) : State.f { s with can := x } q i j = s.f q i j := rfl
@[simp] theorem b_upd_can (s : State) (x) (q : FRef) (i j : Nat) : State.b { s with can := x } q i j = s.b q i j := rfl
@[simp] theorem f_upd_clk (s : State) (x) (q : FRef) (i j : Nat) : State.f { s with clk := x } q i j = s.f q i j := rfl
@[simp] theorem b_upd_clk (s : State) (x) (q : FRef) (i j : Nat) : State.b { s with clk := x } q i j = s.b q i j := rfl
@[simp] theorem f_upd_rel (s : State) (x) (q : FRef) (i j : Nat) : State.f { s with rel := x } q i j = s.f q i j := rfl
@[simp] theorem b_upd_rel (s : State) (x) (q : FRef) (i j : Nat) : State.b { s with rel := x } q i j = s.b q i j := rfl
@[simp] theorem f_upd_cfg (s : State) (x) (q : FRef) (i j : Nat) : State.f { s with cfg := x } q i j = s.f q i j := rfl
@[simp] theorem b_upd_cfg (s : State) (x) (q : FRef) (i j : Nat) : State.b { s with cfg := x } q i j = s.b q i j := rfl
@[simp] theorem f_upd_tap (s : State) (x) (q : FRef) (i j : Nat) : State.f { s with tap := x } q i j = s.f q i j := rfl
@[simp] theorem b_upd_tap (s : State) (x) (q : FRef) (i j : Nat) : State.b { s with tap := x } q i j = s.b q i j := rfl

/-- A field outside SYS reads as before after an event. -/
theorem f_post (s : State) (e : Ev) (a : Nat) (w0 w1 : Word) (q : FRef) (i j : Nat) (h : q.blk ≠ .sys) :
    (s.post e a w0 w1).f q i j = s.f q i j :=
  tch_post.f q i j (by revert h; cases q.blk <;> decide)

theorem f_postLimited (s : State) (k : Nat) (e : Ev) (a : Nat) (w0 w1 : Word) (q : FRef) (i j : Nat) (h : q.blk ≠ .sys) :
    (s.postLimited k e a w0 w1).f q i j = s.f q i j :=
  tch_postLimited.f q i j (by revert h; cases q.blk <;> decide)

theorem b_of_f {s s' : State} {q : FRef} {i j : Nat} (h : s'.f q i j = s.f q i j) : s'.b q i j = s.b q i j := by
  unfold State.b; rw [h]

theorem b_post (s : State) (e : Ev) (a : Nat) (w0 w1 : Word) (q : FRef) (i j : Nat) (h : q.blk ≠ .sys) :
    (s.post e a w0 w1).b q i j = s.b q i j := b_of_f (f_post s e a w0 w1 q i j h)

theorem State.post_sealed (s : State) (e : Ev) (a : Nat) (w0 w1 : Word) : (s.post e a w0 w1).sealed = s.sealed := by
  unfold State.sealed; rw [State.post_alive, b_post _ _ _ _ _ _ _ _ (by decide)]

theorem f_setB_bits (s : State) {r q : FRef} (v : Bool) (i j i' j' : Nat)
    (h : r.lo ≤ r.hi ∧ q.lo ≤ q.hi ∧ q.hi < 32 ∧ (q.hi < r.lo ∨ r.hi < q.lo)) : (s.setB r v i j).f q i' j' = s.f q i' j' :=
  f_setF_bits s _ i j i' j' h

theorem f_setB_blk (s : State) {r q : FRef} (v : Bool) (i j i' j' : Nat) (h : q.blk ≠ r.blk) : (s.setB r v i j).f q i' j' = s.f q i' j' :=
  f_setF_blk s _ i j i' j' h

theorem f_setB_key (s : State) {r q : FRef} (v : Bool) {i j i' j' : Nat} (h : q.key i' j' ≠ r.key i j) :
    (s.setB r v i j).f q i' j' = s.f q i' j' := f_setF_key s _ h

theorem b_setB_bits (s : State) {r q : FRef} (v : Bool) (i j i' j' : Nat)
    (h : r.lo ≤ r.hi ∧ q.lo ≤ q.hi ∧ q.hi < 32 ∧ (q.hi < r.lo ∨ r.hi < q.lo)) : (s.setB r v i j).b q i' j' = s.b q i' j' :=
  b_of_f (f_setF_bits s _ i j i' j' h)

theorem b_setF_bits (s : State) {r q : FRef} (v i j i' j' : Nat)
    (h : r.lo ≤ r.hi ∧ q.lo ≤ q.hi ∧ q.hi < 32 ∧ (q.hi < r.lo ∨ r.hi < q.lo)) : (s.setF r v i j).b q i' j' = s.b q i' j' :=
  b_of_f (f_setF_bits s _ i j i' j' h)

theorem b_setF_key (s : State) {r q : FRef} (v : Nat) {i j i' j' : Nat} (h : q.key i' j' ≠ r.key i j) :
    (s.setF r v i j).b q i' j' = s.b q i' j' := b_of_f (f_setF_key s _ h)

theorem b_setB_key (s : State) {r q : FRef} (v : Bool) {i j i' j' : Nat} (h : q.key i' j' ≠ r.key i j) :
    (s.setB r v i j).b q i' j' = s.b q i' j' := b_of_f (f_setF_key s _ h)

theorem b_setF_blk (s : State) {r q : FRef} (v i j i' j' : Nat) (h : q.blk ≠ r.blk) : (s.setF r v i j).b q i' j' = s.b q i' j' :=
  b_of_f (f_setF_blk s v i j i' j' h)

theorem b_setB_blk (s : State) {r q : FRef} (v : Bool) (i j i' j' : Nat) (h : q.blk ≠ r.blk) : (s.setB r v i j).b q i' j' = s.b q i' j' :=
  b_of_f (f_setF_blk s _ i j i' j' h)

/-- A status bit that is raised reads one. -/
theorem b_raise_same (s : State) (r : FRef) (i : Nat) (e : Ev) (a : Nat) (w0 w1 : Word) (h : r.lo = r.hi ∧ r.hi < 32) (hb : r.blk ≠ .sys) :
    (s.raise r i e a w0 w1).b r i = true := by
  unfold State.raise
  split
  · assumption
  · rw [b_post _ _ _ _ _ _ _ _ hb, b_setB_same _ _ _ _ _ h]

theorem bitF_raiseBit_same (s : State) (r : FRef) (k i : Nat) (e : Ev) (a : Nat) (w0 w1 : Word) (h : r.lo ≤ r.hi ∧ r.hi < 32)
    (hk : k < r.hi + 1 - r.lo) (hb : r.blk ≠ .sys) : (s.raiseBit r k i e a w0 w1).bitF r k i = true := by
  unfold State.raiseBit
  split
  · assumption
  · rw [bitF_of_f (f_post _ _ _ _ _ _ _ _ hb), bitF_setBitF _ _ _ _ _ _ _ h hk, if_pos rfl]

/-- A word outside SYS is as before after an event. -/
theorem word_post (s : State) (e : Ev) (a : Nat) (w0 w1 : Word) (b : Blk) (k : Nat) (h : b ≠ .sys) :
    (s.post e a w0 w1).word b k = s.word b k :=
  tch_post.word b k (by revert h; cases b <;> decide)

end Sys2Proof.Machine
end

