-- ==== Sys2Proof/Laws/Plant.lean ====
section
/-! SUPPORT. What the edges and pins of the bridges and the trip matrix leave alone: everything below `State.advance` and `State.settle` changes a
few named fields only, keeps every waiting value, every carrier, and block commutation. -/
namespace Sys2Proof.Machine

/-- Two fields do not overlap: other blocks, other words, or other bits of one word. -/
def Apart (q r : FRef) (i j i' j' : Nat) : Prop :=
  q.blk ≠ r.blk ∨ q.key i j ≠ r.key i' j' ∨ (r.lo ≤ r.hi ∧ q.lo ≤ q.hi ∧ q.hi < 32 ∧ (q.hi < r.lo ∨ r.hi < q.lo))

theorem f_setF_apart (s : State) {r q : FRef} (v i j i' j' : Nat) (h : Apart q r i' j' i j) : (s.setF r v i j).f q i' j' = s.f q i' j' := by
  rcases h with h | h | h
  · exact f_setF_blk s v i j i' j' h
  · exact f_setF_key s v h
  · exact f_setF_bits s v i j i' j' h

theorem f_setB_apart (s : State) {r q : FRef} (v : Bool) (i j i' j' : Nat) (h : Apart q r i' j' i j) :
    (s.setB r v i j).f q i' j' = s.f q i' j' := f_setF_apart s _ _ _ _ _ h

theorem f_raise_apart (s : State) (r q : FRef) (i i' j' : Nat) (e : Ev) (a : Nat) (w0 w1 : Word) (hb : q.blk ≠ .sys) (h : Apart q r i' j' i 0) :
    (s.raise r i e a w0 w1).f q i' j' = s.f q i' j' := by
  unfold State.raise
  split
  · rfl
  · rw [f_post _ _ _ _ _ _ _ _ hb, f_setB_apart _ _ _ _ _ _ h]

/-- The fields that edges, pins and the matrix change, each with the number of its instances. -/
def plantFields : List (FRef × Nat) :=
  [(R.PWM_SLOT_UPD_CASE, 24), (R.PWM_AGE_AGE, 24), (R.PWM_SLOT_CNT_SHORT_CNT, 24), (R.PWM_SLOT_CNT_ILK_CNT, 24), (R.PWM_SLOT_STAT_INTERLOCK, 24),
   (R.PWM_SLOT_STAT_SHORT_PULSE, 24), (R.AUX_BR_UPD_CASE, 4), (R.AUX_AGE_AGE, 4), (R.AUX_BR_CNT_SHORT_CNT, 4), (R.AUX_BR_STAT_SHORT_PULSE, 4),
   (R.AUX_BR_STAT_VDS_LIVE, 4), (R.AUX_STAT_VDS_LINE, 4), (R.AUX_BR_STAT_DUTY_CLAMP, 4), (R.TRIP_STAT_HELD, 1), (R.TRIP_LATCH_LATCH, 1),
   (R.TRIP_TGT_STAT_ACTION, 28), (R.TRIP_TGT_STAT_HELD, 28), (R.TRIP_TGT_STAT_AUTO_ASC, 28), (R.TRIP_TGT_STAT_SUBST, 28),
   (R.TRIP_TGT_STAT_FIRST, 28), (R.TRIP_TGT_STAT_COUNT, 28), (R.TRIP_TS_TS, 28)]

/-- A field outside SYS that is none of those. -/
def Calm (q : FRef) (i j : Nat) : Prop :=
  q.blk ≠ .sys ∧ ∀ x ∈ plantFields, ∀ a b, a < x.2 → b < 6 → Apart q x.1 i j a b

/-- What the plant side leaves alone. -/
structure Calms (s s' : State) : Prop where
  fields : ∀ q i j, Calm q i j → s'.f q i j = s.f q i j
  waits : ∀ k, (s'.chan k).wait = (s.chan k).wait
  carriers : s'.pwm.carriers = s.pwm.carriers
  bc : s'.pwm.bc = s.pwm.bc
  cmd : s'.pwm.cmd = s.pwm.cmd
  q : QExt s s'
  sto : s'.trip.stoMask = s.trip.stoMask ∧ s'.trip.stoEnd = s.trip.stoEnd ∧ s'.trip.stoPosted = s.trip.stoPosted

theorem Calms.refl (s : State) : Calms s s := ⟨fun _ _ _ _ => rfl, fun _ => rfl, rfl, rfl, rfl, QExt.of_eq rfl, rfl, rfl, rfl⟩

theorem Calms.trans {s u v : State} (h : Calms s u) (h' : Calms u v) : Calms s v :=
  ⟨fun q i j c => (h'.fields q i j c).trans (h.fields q i j c), fun k => (h'.waits k).trans (h.waits k), h'.carriers.trans h.carriers,
   h'.bc.trans h.bc, h'.cmd.trans h.cmd, h.q.trans h'.q, h'.sto.1.trans h.sto.1, h'.sto.2.1.trans h.sto.2.1, h'.sto.2.2.trans h.sto.2.2⟩

/-- A change that leaves the bridges and the matrix alone, and no field but SYS's. -/
theorem Calms.touch {m : Nat} {s s' : State} (h : Touches m s s') (hm : m &&& (8388608 + 16777216 + 65534 + 65536) = 0) : Calms s s' := by
  have bit : ∀ n, (8388608 + 16777216 + 65534 + 65536 : Nat).testBit n = true → m.testBit n = false := by
    intro n hn
    have := congrArg (Nat.testBit · n) hm
    simp only [Nat.testBit_and, hn, Bool.and_true, Nat.zero_testBit] at this
    exact this
  have pw := h.1 .pwm (bit _ (by decide))
  have tr := h.1 .trip (bit _ (by decide))
  refine ⟨fun q i j c => h.f q i j (bit _ ?_), fun k => ?_, congrArg _ pw, congrArg _ pw, congrArg _ pw, QExt.of_eq (congrArg _ (h.1 .sys (bit _ (by decide)))), congrArg _ tr, congrArg _ tr, congrArg _ tr⟩
  · have := c.1; revert this; cases q.blk <;> decide
  · unfold State.chan; rw [show s'.pwm = s.pwm from pw]

theorem Calms.doIf {s0 s : State} {c : Bool} {g : State → State} (h : Calms s0 s) (hg : Calms s (g s)) : Calms s0 (s.doIf c g) := by
  unfold State.doIf; split
  · exact h.trans hg
  · exact h

theorem Calms.ite {s0 a b : State} {c : Prop} [Decidable c] (h : Calms s0 a) (h' : Calms s0 b) : Calms s0 (if c then a else b) := by
  split <;> assumption

theorem Calms.foldl {α : Type} {s0 s : State} {f : State → α → State} {l : List α} (h : Calms s0 s) (hf : ∀ t, ∀ x ∈ l, Calms t (f t x)) :
    Calms s0 (l.foldl f s) := by
  induction l generalizing s with
  | nil => exact h
  | cons a l ih => exact ih (h.trans (hf s a (List.mem_cons_self ..))) fun t x hx => hf t x (List.mem_cons_of_mem _ hx)

/-- A write of one of the fields. -/
theorem Calms.setF {s0 s : State} {r : FRef} {n : Nat} (v i j : Nat) (h : Calms s0 s) (hr : (r, n) ∈ plantFields) (hi : i < n) (hj : j < 6) :
    Calms s0 (s.setF r v i j) :=
  h.trans ⟨fun _ _ _ c => f_setF_apart _ _ _ _ _ _ (c.2 _ hr i j hi hj), fun _ => rfl, rfl, rfl, rfl, QExt.of_eq rfl, rfl, rfl, rfl⟩

theorem Calms.setB {s0 s : State} {r : FRef} {n : Nat} (v : Bool) (i j : Nat) (h : Calms s0 s) (hr : (r, n) ∈ plantFields) (hi : i < n) (hj : j < 6) :
    Calms s0 (s.setB r v i j) := h.setF _ i j hr hi hj

theorem Calms.noteSet {s0 s : State} (b : Blk) (k v : Nat) (h : Calms s0 s) : Calms s0 (s.noteSet b k v) :=
  h.trans (Calms.touch tch_noteSet (by decide))

theorem Calms.sysB {s0 s : State} {r : FRef} (v : Bool) (h : Calms s0 s) (hr : r.blk = .sys) : Calms s0 (s.setB r v) :=
  h.trans ⟨fun _ _ _ c => f_setF_apart _ _ _ _ _ _ (Or.inl (by rw [hr]; exact c.1)), fun _ => rfl, rfl, rfl, rfl, QExt.of_eq rfl, rfl, rfl, rfl⟩

theorem Calms.setBitF {s0 s : State} {r : FRef} {n : Nat} (k : Nat) (v : Bool) (i j : Nat) (h : Calms s0 s) (hr : (r, n) ∈ plantFields) (hi : i < n)
    (hj : j < 6) : Calms s0 (s.setBitF r k v i j) :=
  h.trans ⟨fun q a b c => (f_setBitF s r q k v i j a b).trans (f_setF_apart _ _ _ _ _ _ (c.2 _ hr i j hi hj)), fun _ => rfl, rfl, rfl, rfl,
    QExt.of_eq rfl, rfl, rfl, rfl⟩

theorem Calms.incF {s0 s : State} {r : FRef} {n : Nat} (k i : Nat) (h : Calms s0 s) (hr : (r, n) ∈ plantFields) (hi : i < n) :
    Calms s0 (s.incF r k i) := h.setF _ i 0 hr hi (by decide)

/-- A change of SYS alone whose queue goes on. -/
theorem Calms.sysOnly {s s' : State} (h : Touches 65537 s s') (hq : QExt s s') : Calms s s' := by
  have pw := h.1 .pwm (by decide)
  have tr := h.1 .trip (by decide)
  refine ⟨fun q i j c => h.f q i j ?_, fun k => ?_, congrArg _ pw, congrArg _ pw, congrArg _ pw, hq, congrArg _ tr, congrArg _ tr, congrArg _ tr⟩
  · have := c.1; revert this; cases q.blk <;> decide
  · unfold State.chan; rw [show s'.pwm = s.pwm from pw]

theorem Calms.post {s0 s : State} (e : Ev) (a : Nat) (w0 w1 : Word) (h : Calms s0 s) : Calms s0 (s.post e a w0 w1) :=
  h.trans (Calms.sysOnly tch_post (QExt.post ..))

theorem QExt.postLimited (s : State) (k : Nat) (e : Ev) (a : Nat) (w0 w1 : Word) : QExt s (s.postLimited k e a w0 w1) := by
  unfold State.postLimited
  dsimp only
  split
  · obtain ⟨l, h⟩ := QExt.post s e a w0 w1
    exact ⟨l, h⟩
  · exact QExt.refl s

theorem Calms.postLimited {s0 s : State} (k : Nat) (e : Ev) (a : Nat) (w0 w1 : Word) (h : Calms s0 s) : Calms s0 (s.postLimited k e a w0 w1) :=
  h.trans (Calms.sysOnly tch_postLimited (QExt.postLimited ..))

theorem Calms.emit {s0 s : State} (o : Output) (h : Calms s0 s) : Calms s0 (s.emit o) := h.trans (Calms.touch tch_emit (by decide))

theorem Calms.raise {s0 s : State} {r : FRef} {n : Nat} (i : Nat) (e : Ev) (a : Nat) (w0 w1 : Word) (h : Calms s0 s) (hr : (r, n) ∈ plantFields)
    (hi : i < n) : Calms s0 (s.raise r i e a w0 w1) := by
  unfold State.raise
  exact Calms.ite (h.noteSet ..) ((h.setB true i 0 hr hi (by decide)).post ..)

theorem Calms.setLeg {s0 s : State} (T k : Nat) (l : Leg) (h : Calms s0 s) : Calms s0 (s.setLeg T k l) :=
  h.trans ⟨fun _ _ _ _ => rfl, fun _ => rfl, rfl, rfl, rfl, QExt.of_eq rfl, rfl, rfl, rfl⟩

theorem Calms.setTarget {s0 s : State} (B : Nat) (x : Target) (h : Calms s0 s) : Calms s0 (s.setTarget B x) :=
  h.trans ⟨fun _ _ _ _ => rfl, fun _ => rfl, rfl, rfl, rfl, QExt.of_eq rfl, rfl, rfl, rfl⟩

theorem chan_setChan_same (s : State) (k : Nat) (x : Chan) : (s.setChan k x).chan k = x := kget_kset_same ..
theorem chan_setChan_other (s : State) {j k : Nat} (x : Chan) (h : j ≠ k) : (s.setChan k x).chan j = s.chan j := kget_kset_other _ _ _ h

theorem Calms.setChan {s0 s : State} (k : Nat) (x : Chan) (h : Calms s0 s) (hx : x.wait = (s0.chan k).wait) : Calms s0 (s.setChan k x) := by
  refine ⟨h.fields, fun j => ?_, h.carriers, h.bc, h.cmd, h.q, h.sto⟩
  by_cases hj : j = k
  · subst hj; rw [chan_setChan_same, hx]
  · rw [chan_setChan_other _ _ hj]; exact h.waits j

/-! ## Edges -/

theorem calm_stamp {s : State} {T i : Nat} (c a : Nat) (hT : T < 28) (hi : i < 6) : Calms s (s.stamp T i c a) := by
  unfold State.stamp
  dsimp only
  split
  · exact ((Calms.refl s).setF (n := 24) _ _ _ (by decide) (by omega) (by decide)).setF (n := 24) _ _ _ (by decide) (by omega) hi
  · exact ((Calms.refl s).setF (n := 4) _ _ _ (by decide) (by omega) (by decide)).setF (n := 4) _ _ _ (by decide) (by omega) hi

theorem calm_stampLate {s : State} {T i : Nat} (c a : Nat) (hT : T < 28) (hi : i < 6) : Calms s (s.stampLate T i c a) := by
  unfold State.stampLate
  dsimp only
  have h := ((Calms.refl s).setChan (6 * T + i) { s.chan (6 * T + i) with stampDue := none, stampOpen := false } rfl).trans (calm_stamp c a hT hi)
  generalize State.stamp _ T i c a = v at h ⊢
  split
  · rename_i hc
    simp only [Bool.and_eq_true, decide_eq_true_eq] at hc
    exact (h.trans ((Calms.refl v).setChan _ { v.chan (6 * T + i + 1) with stampDue := none } rfl)).trans (calm_stamp _ _ hT (by omega))
  · exact h

theorem calm_clampDuty {s : State} {T i : Nat} {h : HalfPeriod} {v : Option CmpVal} (hT : T < 28) : Calms s (s.clampDuty T i h v) := by
  unfold State.clampDuty
  exact Calms.doIf (Calms.refl s) ((Calms.refl s).raise (n := 4) _ _ _ _ _ (by decide) (by omega))

theorem calm_lowOn {s : State} {T k q : Nat} : Calms s (s.lowOn T k q) := by
  unfold State.lowOn
  dsimp only
  exact Calms.ite (Calms.refl s) ((Calms.refl s).setChan _ _ (by rfl))

theorem calm_shortPulse {s : State} {T : Nat} (hT : T < 28) : Calms s (s.shortPulse T) := by
  unfold State.shortPulse
  split
  · exact ((Calms.refl s).incF (n := 24) _ _ (by decide) (by omega)).raise (n := 24) _ _ _ _ _ (by decide) (by omega)
  · exact ((Calms.refl s).incF (n := 4) _ _ (by decide) (by omega)).raise (n := 4) _ _ _ _ _ (by decide) (by omega)

theorem Chan.wait_fireOn (c : Chan) (q : Nat) : (c.fireOn q).wait = c.wait := by
  unfold Chan.fireOn; split
  · split <;> rfl
  · rfl

theorem Chan.wait_turnOff (c : Chan) (q : Nat) : (c.turnOff q).wait = c.wait := rfl

/-- Two channels written one after the other, each with the waiting value it had. -/
theorem Calms.setChans {s0 s : State} {k j : Nat} (x y : Chan) (h : Calms s0 s) (hx : x.wait = (s0.chan k).wait) (hy : y.wait = (s0.chan j).wait) :
    Calms s0 ((s.setChan k x).setChan j y) := (h.setChan k x hx).setChan j y hy

theorem calm_legDrive {s : State} {T k e : Nat} {lv : Bool} : Calms s (s.legDrive T k e lv) := by
  unfold State.legDrive
  dsimp only
  generalize hu : s.setLeg T k _ = u
  have hs : Calms s u := by rw [← hu]; exact (Calms.refl s).setLeg ..
  split
  · exact hs
  · split
    · exact hs
    · have w : ∀ j q, ((u.chan j).fireOn q).wait = (s.chan j).wait := fun j q => (Chan.wait_fireOn ..).trans (hs.waits j)
      split
      · refine hs.setChans _ _ ?_ ?_
        · split <;> exact w _ _
        · exact (Chan.wait_turnOff ..).trans (w _ _)
      · refine hs.setChans _ _ ?_ ?_
        · exact (Chan.wait_turnOff ..).trans (w _ _)
        · split <;> exact w _ _

/-- What follows the stamp of an edge. -/
theorem calm_edgeTail {s v : State} (T i e : Nat) (b lv : Bool) (hs : Calms s v) (hT : T < 28) :
    Calms s (if (v.doIf b (·.shortPulse T)).legIndep T (i / 2) then
        (v.doIf b (·.shortPulse T)).setChan (6 * T + i)
          (if lv then { (v.doIf b (·.shortPulse T)).chan (6 * T + i) with drive := ((v.doIf b (·.shortPulse T)).carrier T).opened }
           else ((v.doIf b (·.shortPulse T)).chan (6 * T + i)).turnOff e)
      else (v.doIf b (·.shortPulse T)).legDrive T (i / 2) e lv) := by
  have hw : Calms s (v.doIf b (·.shortPulse T)) := hs.doIf (calm_shortPulse (s := v) hT)
  generalize v.doIf b (·.shortPulse T) = w at hw ⊢
  split
  · refine hw.setChan _ _ ?_
    split
    · exact hw.waits _
    · exact (Chan.wait_turnOff ..).trans (hw.waits _)
  · exact hw.trans calm_legDrive

theorem calm_doEdge {s : State} {T i e : Nat} (hT : T < 28) (hi : i < 6) : Calms s (s.doEdge T i e) := by
  unfold State.doEdge
  dsimp only
  generalize hu : s.setChan (6 * T + i) _ = u
  have hs : Calms s u := by rw [← hu]; exact (Calms.refl s).setChan _ _ rfl
  cases (s.chan (6 * T + i)).stampDue with
  | none => exact calm_edgeTail T i e _ _ hs hT
  | some d => exact calm_edgeTail T i e _ _ (hs.trans (calm_stampLate _ _ hT hi)) hT

theorem refChans_lt {s : State} {T k i : Nat} (hk : k < 3) (h : i ∈ s.refChans T k) : i < 6 := by
  unfold State.refChans at h
  split at h <;> simp at h <;> omega

theorem Chan.wait_seeBy (c : Chan) (h : Option HalfPeriod) (m q : Nat) : (c.seeBy h m q).wait = c.wait := rfl

theorem calm_runEdges {s : State} {T k q : Nat} (hT : T < 28) (hk : k < 3) : Calms s (s.runEdges T k q) := by
  unfold State.runEdges
  dsimp only
  refine Calms.foldl (Calms.foldl (Calms.foldl (Calms.refl s) fun t i hi => ?_) fun t i _ => ?_) fun t i _ => ?_
  · split
    · exact Calms.ite (calm_doEdge hT (refChans_lt hk hi)) (Calms.refl t)
    · exact Calms.refl t
  · exact (Calms.refl t).setChan _ _ (Chan.wait_seeBy ..)
  · exact (Calms.refl t).setChan _ _ (Chan.wait_fireOn ..)

theorem calm_beginHalf {s : State} {T k : Nat} {h : HalfPeriod} (hT : T < 28) (hk : k < 3) : Calms s (s.beginHalf T k h) := by
  unfold State.beginHalf
  dsimp only
  refine Calms.foldl ((Calms.refl s).setLeg ..) fun t i hi => ?_
  refine Calms.trans ?_ (calm_clampDuty hT)
  exact ((Calms.refl t).doIf (calm_stampLate _ _ hT (refChans_lt hk hi))).trans ((Calms.refl _).setChan _ _ (by rfl))

theorem calm_runLeg {s : State} {T k q : Nat} (hT : T < 28) (hk : k < 3) : Calms s (s.runLeg T k q) := by
  unfold State.runLeg
  dsimp only
  refine Calms.trans ?_ (calm_runEdges hT hk)
  exact Calms.foldl ((Calms.refl s).setLeg ..) fun t h _ => (calm_runEdges hT hk).trans (calm_beginHalf hT hk)

/-! ## Pins -/

theorem topo_aux {s : State} {T : Nat} (h : ¬T < 24) : s.topo T = topoTwo := by unfold State.topo; rw [if_neg h]

theorem bridgeSlots_lt {s : State} {B T : Nat} (hB : B < 28) (h : T ∈ s.bridgeSlots B) : T < 28 := by
  unfold State.bridgeSlots at h
  split at h
  · rename_i hc
    simp only [Bool.and_eq_true, decide_eq_true_eq] at hc
    simp at h; omega
  · simp at h; omega

theorem calm_interlock {s : State} {T : Nat} (hT : T < 24) : Calms s (s.interlock T) := by
  unfold State.interlock
  exact (((Calms.refl s).incF (n := 24) _ _ (by decide) hT).setB (n := 24) _ _ _ (by decide) hT (by decide)).postLimited ..

theorem calm_settlePin {s : State} {q T i : Nat} : Calms s (s.settlePin q T i) := by
  have lock : ∀ t : State, Calms t (t.doIf (t.topo T = topoA || t.topo T = topoB) (·.interlock T)) := by
    intro t
    unfold State.doIf
    split
    · rename_i hc
      refine calm_interlock (Decidable.byContradiction fun hn => ?_)
      rw [topo_aux hn] at hc; exact absurd hc (by decide)
    · exact Calms.refl t
  unfold State.settlePin
  dsimp only
  split
  · exact Calms.ite ((Calms.refl s).setChan _ _ (by rfl)) (Calms.refl s)
  · split
    · split
      · exact ((Calms.refl s).setChan _ _ (by rfl)).emit ..
      · exact Calms.ite (Calms.refl s) (((Calms.refl s).setChan _ _ (by rfl)).trans (lock _))
    · exact Calms.ite (Calms.refl s) (((Calms.refl s).setChan _ _ (by rfl)).trans (lock _))

theorem calm_settlePins {s : State} {B : Nat} : Calms s (s.settlePins B) := by
  unfold State.settlePins
  dsimp only
  exact Calms.foldl (Calms.foldl (Calms.foldl (Calms.refl s) fun t x _ => Calms.ite calm_settlePin (Calms.refl t))
    fun t x _ => Calms.ite calm_settlePin (Calms.refl t)) fun t x _ => Calms.ite calm_settlePin (Calms.refl t)

theorem calm_advance {s : State} {B q : Nat} (hB : B < 28) : Calms s (s.advance B q) := by
  unfold State.advance
  dsimp only
  refine Calms.trans ?_ calm_settlePins
  refine Calms.foldl (Calms.refl s) fun t T hT => Calms.foldl (Calms.refl t) fun u k hk => ?_
  exact calm_runLeg (bridgeSlots_lt hB hT) (by simp at hk; omega)

/-! ## Values that take effect -/

theorem calm_modeOff {s : State} {T i q : Nat} : Calms s (s.modeOff T i q) := by
  unfold State.modeOff
  dsimp only
  have h := (Calms.refl s).setChan (6 * T + i) { (s.chan (6 * T + i)).turnOff q with
    ref := false, edge := none, lastEdge := if (s.chan (6 * T + i)).ref then some q else (s.chan (6 * T + i)).lastEdge } rfl
  split
  · exact Calms.ite h (h.trans calm_legDrive)
  · exact (Calms.refl s).setChan _ _ (by rfl)

/-- What a value that takes effect leaves alone, once a cut by the refresh limit has been reported. -/
theorem calm_takeVal {u w : State} {T i te : Nat} {issue : Option Nat} {v : CmpVal} {c : Chan} (r : RefSt × Option (Nat × Nat)) (hT : T < 28) (hi : i < 6)
    (h1 : Calms u w) (hc : c.wait = (u.chan (6 * T + i)).wait) :
    let x := if v.mode = .off then (w.setChan (6 * T + i) { c with val := some v, defer := none, took := some te }).modeOff T i (te * 8)
      else w.setChan (6 * T + i) { c with toRefSt := r.1, took := some te }
    Calms u (match issue, r.2 with
      | none, _ => x
      | some n, none => x.setChan (6 * T + i) { x.chan (6 * T + i) with stampDue := some n }
      | some n, some (k, e) =>
        (x.setChan (6 * T + i) { x.chan (6 * T + i) with stampOpen := decide (k < 2) }).stamp T i k (if k < 2 then e / 8 - n else 0)) := by
  intro x
  have h2 : Calms u x := Calms.ite ((h1.setChan _ _ (by exact hc)).trans calm_modeOff) (h1.setChan _ _ (by exact hc))
  generalize x = y at h2 ⊢
  refine h2.trans ?_
  split
  · exact Calms.refl y
  · exact (Calms.refl y).setChan _ _ (by rfl)
  · exact ((Calms.refl y).setChan _ _ (by rfl)).trans (calm_stamp _ _ hT hi)

theorem calm_takeRef {s : State} {T i te : Nat} {issue : Option Nat} {v : CmpVal} (hT : T < 28) (hi : i < 6) :
    Calms s (s.takeRef T i te issue v) := by
  unfold State.takeRef
  dsimp only
  have h0 : Calms s (s.doIf ((s.chan (6 * T + i)).stampDue.isSome || (s.chan (6 * T + i)).stampOpen) (·.stampLate T i 5 0)) :=
    (Calms.refl s).doIf (calm_stampLate _ _ hT hi)
  generalize s.doIf _ _ = u at h0 ⊢
  have h9 := (Calms.refl u).setChan (6 * T + i) { u.chan (6 * T + i) with val := some v, defer := none, took := some te } rfl
  refine Calms.ite ((h0.trans h9).doIf (calm_stamp _ _ hT hi)) (h0.trans ?_)
  generalize u.legHalf T (i / 2) = oh
  cases oh with
  | none => exact calm_takeVal _ hT hi (Calms.refl u) rfl
  | some h => exact calm_takeVal _ hT hi (calm_clampDuty hT) rfl

theorem calm_takeLow {s : State} {T i te : Nat} {issue : Option Nat} {v : CmpVal} {w : Bool} (hT : T < 28) (hi : i < 6) :
    Calms s (s.takeLow T i te issue v w) := by
  unfold State.takeLow
  dsimp only
  have h0 : Calms s (s.doIf ((s.chan (6 * T + i)).stampDue.isSome) fun s =>
      (s.setChan (6 * T + i) { s.chan (6 * T + i) with stampDue := none }).stamp T i 5 0) :=
    (Calms.refl s).doIf (((Calms.refl s).setChan _ _ (by rfl)).trans (calm_stamp _ _ hT hi))
  generalize s.doIf _ _ = u at h0 ⊢
  refine h0.trans ?_
  have h1 := (Calms.refl u).setChan (6 * T + i) { u.chan (6 * T + i) with val := some v, took := some te } rfl
  generalize u.setChan (6 * T + i) { u.chan (6 * T + i) with val := some v, took := some te } = x at h1 ⊢
  refine Calms.ite (h1.doIf (calm_stamp _ _ hT hi)) (Calms.ite ((h1.trans calm_modeOff).doIf (calm_stamp _ _ hT hi)) ?_)
  have h2 : Calms u (x.doIf (!(u.chan (6 * T + i)).lowOpen) (·.lowOn T (i / 2) (te * 8))) := h1.doIf calm_lowOn
  generalize x.doIf (!(u.chan (6 * T + i)).lowOpen) (·.lowOn T (i / 2) (te * 8)) = y at h2 ⊢
  have h3 := (Calms.refl y).setChan (6 * T + i) { y.chan (6 * T + i) with stampDue := (y.chan (6 * T + i - 1)).stampDue } rfl
  refine Calms.ite h2 (Calms.ite (h2.trans h3) (Calms.ite ?_ (h2.trans (calm_stamp _ _ hT hi))))
  exact Calms.ite (h2.trans (calm_stamp _ _ hT hi)) (h2.trans (calm_stamp _ _ hT hi))

/-! ## The trip matrix -/

theorem calm_setSubst {s : State} {B : Nat} {on : Bool} (hB : B < 28) : Calms s (s.setSubst B on) := by
  unfold State.setSubst
  dsimp only
  refine Calms.doIf (Calms.foldl (Calms.refl s) fun t T hT => ?_) ((Calms.refl _).post ..)
  exact (Calms.refl t).setB (n := 28) _ _ _ (by decide) (bridgeSlots_lt hB hT) (by decide)

theorem calm_chooseSide {s : State} {B side : Nat} {ex : Bool} (hB : B < 28) : Calms s (s.chooseSide B side ex).1 := by
  have h (on : Bool) : Calms s (s.setSubst B on) := calm_setSubst hB
  unfold State.chooseSide
  dsimp only
  generalize (if side = actAscHigh then actAscLow else actAscHigh) = other
  by_cases h1 : (!s.sideBlocked B side || ex && decide (24 ≤ B)) = true
  · rw [if_pos h1]; exact h false
  · rw [if_neg h1]
    by_cases h2 : (!s.sideBlocked B other) = true
    · rw [if_pos h2]; exact h true
    · rw [if_neg h2]; exact h false

theorem calm_latchDemands {s : State} {B : Nat} {ds : List Demand} : Calms s (s.latchDemands B ds) := by
  unfold State.latchDemands
  dsimp only
  split
  · exact Calms.refl s
  · exact ((Calms.refl s).setTarget ..).setBitF (n := 1) _ _ _ _ (by decide) (by decide) (by decide)

theorem calm_keepAuto {s : State} {B : Nat} {ds : List Demand} (hB : B < 28) : Calms s (s.keepAuto B ds) := by
  unfold State.keepAuto
  refine Calms.doIf (Calms.refl s) (Calms.foldl (Calms.refl s) fun t T hT => ?_)
  exact (Calms.refl t).setB (n := 28) _ _ _ (by decide) (bridgeSlots_lt hB hT) (by decide)

theorem calm_decideAction {s : State} {B : Nat} {ds : List Demand} (hB : B < 28) : Calms s (s.decideAction B ds).1 := by
  unfold State.decideAction
  split
  · dsimp only
    refine Calms.trans ?_ (calm_setSubst hB)
    exact Calms.ite (((Calms.refl s).setTarget ..).post ..) (Calms.refl s)
  · dsimp only
    have hk := calm_keepAuto (s := s) (ds := ds) hB
    generalize State.keepAuto s B ds = u at hk
    split
    · exact hk
    · split
      · exact hk.trans (calm_chooseSide hB)
      · exact hk.trans (calm_setSubst (s := u) (on := false) hB)

theorem calm_heldBits {s : State} {B : Nat} {on : Bool} (hB : B < 28) : Calms s (s.heldBits B on) := by
  unfold State.heldBits
  refine Calms.sysB _ (Calms.foldl (Calms.refl s) fun t T hT => ?_) rfl
  exact ((Calms.refl t).setB (n := 28) _ _ _ (by decide) (bridgeSlots_lt hB hT) (by decide)).setBitF (n := 1) _ _ _ _ (by decide) (by decide) (by decide)

theorem calm_putAction {s : State} {B a : Nat} (hB : B < 28) : Calms s (s.putAction B a) := by
  unfold State.putAction
  exact Calms.foldl (Calms.refl s) fun t T hT => (Calms.refl t).setF (n := 28) _ _ _ (by decide) (bridgeSlots_lt hB hT) (by decide)

/-- The channels of a target at an onset: a value of this tick is stamped HELD, and each channel keeps the value that governs. -/
theorem calm_hold {s : State} {T i : Nat} {b : Bool} (hT : T < 28) (hi : i < 6) :
    Calms s (let v := s.doIf b fun s => (s.setChan (6 * T + i) { s.chan (6 * T + i) with stampDue := none, stampOpen := false }).stamp T i 4 0
      v.setChan (6 * T + i) { v.chan (6 * T + i) with held := some (v.chan (6 * T + i)).val }) := by
  dsimp only
  have h : Calms s (s.doIf b fun s => (s.setChan (6 * T + i) { s.chan (6 * T + i) with stampDue := none, stampOpen := false }).stamp T i 4 0) :=
    (Calms.refl s).doIf (((Calms.refl s).setChan _ _ (by rfl)).trans (calm_stamp _ _ hT hi))
  generalize s.doIf b _ = v at h ⊢
  exact h.trans ((Calms.refl v).setChan _ _ (by rfl))

theorem calm_onset {s : State} {B a first : Nat} (hB : B < 28) : Calms s (s.onset B a first) := by
  unfold State.onset
  dsimp only
  refine ((Calms.foldl ((calm_heldBits hB).trans (calm_putAction hB)) fun t T hT => ?_).setTarget ..).post ..
  refine Calms.foldl ?_ fun u i hi => calm_hold (bridgeSlots_lt hB hT) (List.mem_range.1 hi)
  exact (((Calms.refl t).setF (n := 28) _ _ _ (by decide) (bridgeSlots_lt hB hT) (by decide)).incF (n := 28) _ _ (by decide)
    (bridgeSlots_lt hB hT)).setF (n := 28) _ _ _ (by decide) (bridgeSlots_lt hB hT) (by decide)

theorem calm_freeTarget {s : State} {B : Nat} (hB : B < 28) : Calms s (s.freeTarget B) := by
  unfold State.freeTarget
  dsimp only
  refine ((Calms.foldl (Calms.foldl ((calm_heldBits hB).trans (calm_putAction hB)) fun t T hT => ?_) fun t T _ =>
    Calms.foldl (Calms.refl t) fun _ _ _ => calm_lowOn).setTarget ..).post ..
  refine Calms.foldl ?_ fun u i _ => (Calms.refl u).setChan _ _ rfl
  exact ((Calms.refl t).setB (n := 28) _ _ _ (by decide) (bridgeSlots_lt hB hT) (by decide)).setB (n := 28) _ _ _ (by decide) (bridgeSlots_lt hB hT) (by decide)

theorem calm_settleTarget {s : State} {B : Nat} {arming : Bool} (hB : B < 28) : Calms s (s.settleTarget B arming) := by
  unfold State.settleTarget
  dsimp only
  generalize hu : (if (s.targetHeld B && !arming) = true then s else s.setTarget B _) = u
  have h1 : Calms s u := by rw [← hu]; exact Calms.ite (Calms.refl s) ((Calms.refl s).setTarget ..)
  have h2 := h1.trans (calm_latchDemands (B := B) (ds := u.demands B))
  generalize State.latchDemands u B _ = v at h2
  have h3 := h2.trans (calm_decideAction (ds := v.allDemands B) hB)
  generalize State.decideAction v B _ = r at h3
  obtain ⟨w, o⟩ := r
  dsimp only at h3 ⊢
  cases o with
  | none =>
    dsimp only
    refine Calms.ite h3 (Calms.ite (h3.trans (calm_freeTarget hB)) (Calms.ite (h3.setTarget ..) h3))
  | some x =>
    dsimp only
    refine Calms.ite (h3.trans (calm_onset hB)) ?_
    have h4 := h3.setTarget B { w.target B with freeAt := none }
    generalize w.setTarget B { w.target B with freeAt := none } = y at h4 ⊢
    refine Calms.ite (Calms.trans ?_ (calm_putAction hB)) (Calms.ite h4 ?_)
    · exact Calms.foldl h4 fun t T hT => (Calms.refl t).setF (n := 28) _ _ _ (by decide) (bridgeSlots_lt hB hT) (by decide)
    · exact ((h4.trans (calm_putAction hB)).setTarget ..).post ..

theorem bridges_lt {s : State} {B : Nat} (h : B ∈ s.bridges) : B < 28 := by
  unfold State.bridges at h
  exact List.mem_range.mp (List.mem_filter.mp h).1

theorem calm_settleOnce {s : State} : Calms s s.settleOnce := by
  unfold State.settleOnce
  refine Calms.ite (Calms.foldl (Calms.refl s) fun t B hB => ?_) (Calms.refl s)
  exact ((calm_advance (bridges_lt hB)).trans (calm_settleTarget (bridges_lt hB))).trans calm_settlePins

theorem calm_dropVds {s : State} : Calms s s.dropVds := by
  unfold State.dropVds
  refine Calms.foldl (Calms.refl s) fun t x hx => ?_
  dsimp only
  have : x < 4 := by simp at hx; omega
  exact Calms.ite (Calms.refl t) (((Calms.refl t).setF (n := 4) _ _ _ (by decide) this (by decide)).setBitF (n := 4) _ _ _ _ (by decide) (by decide) (by decide))

/-- What the trip matrix leaves alone. -/
theorem calm_settle {s : State} : Calms s s.settle := by
  unfold State.settle
  dsimp only
  have h := (calm_settleOnce (s := s)).trans calm_dropVds
  exact Calms.ite h (h.trans calm_settleOnce)

end Sys2Proof.Machine
end

