-- ==== Sys2Proof/Laws/Bridge.lean ====
section
/-! SUPPORT. What block commutation, start tokens, the drive, grid and converter states, and the command input leave alone. -/
set_option maxRecDepth 4000
namespace Sys2Proof.Machine
open State (doIf_of doIf_not)

theorem foldl_inv {α : Type} {P : State → Prop} {g : State → α → State} (l : List α) (s : State) (h0 : P s) (hg : ∀ s a, P s → P (g s a)) : P (l.foldl g s) := by
  induction l generalizing s with
  | nil => exact h0
  | cons a l ih => exact ih _ (hg _ _ h0)

theorem f_raise (s : State) (r q : FRef) (i i' j' : Nat) (e : Ev) (a : Nat) (w0 w1 : Word) (hb : q.blk ≠ .sys) (h : Apart q r i' j' i 0) :
    (s.raise r i e a w0 w1).f q i' j' = s.f q i' j' := by
  unfold State.raise; split
  · rfl
  · rw [f_post _ _ _ _ _ _ _ _ hb, f_setB_apart _ _ _ _ _ _ h]
theorem b_raise (s : State) (r q : FRef) (i i' j' : Nat) (e : Ev) (a : Nat) (w0 w1 : Word) (hb : q.blk ≠ .sys) (h : Apart q r i' j' i 0) :
    (s.raise r i e a w0 w1).b q i' j' = s.b q i' j' := b_of_f (f_raise s r q i i' j' e a w0 w1 hb h)
theorem kget_kset_id {α : Type} [DecidableEq α] (d : α) (m : KMap α) (k j : Nat) : kget d (kset d m k (kget d m k)) j = kget d m j := by
  by_cases h : j = k
  · subst h; exact kget_kset_same ..
  · exact kget_kset_other _ _ _ h
theorem ctx_setCtx_same (s : State) (c : Nat) (x : CtxSt) : (s.setCtx c x).ctx c = x := by
  unfold State.ctx State.setCtx; exact kget_kset_same ..
theorem ctx_setCtx_other (s : State) {c d : Nat} (x : CtxSt) (h : d ≠ c) : (s.setCtx c x).ctx d = s.ctx d := by
  unfold State.ctx State.setCtx; exact kget_kset_other _ _ _ h
theorem ctx_modCtx_same (s : State) (c : Nat) (g : CtxSt → CtxSt) : (s.modCtx c g).ctx c = g (s.ctx c) := ctx_setCtx_same ..
theorem ctx_modCtx_other (s : State) {c d : Nat} (g : CtxSt → CtxSt) (h : d ≠ c) : (s.modCtx c g).ctx d = s.ctx d := ctx_setCtx_other _ _ h
theorem ctx_of_loop {s s' : State} (h : s'.loop = s.loop) (c : Nat) : s'.ctx c = s.ctx c := by unfold State.ctx; rw [h]
theorem f_setCtx (s : State) (c : Nat) (x : CtxSt) (q : FRef) (i j : Nat) : (s.setCtx c x).f q i j = s.f q i j := rfl
theorem b_setCtx (s : State) (c : Nat) (x : CtxSt) (q : FRef) (i j : Nat) : (s.setCtx c x).b q i j = s.b q i j := rfl
theorem f_modCtx (s : State) (c : Nat) (g : CtxSt → CtxSt) (q : FRef) (i j : Nat) : (s.modCtx c g).f q i j = s.f q i j := rfl
theorem b_modCtx (s : State) (c : Nat) (g : CtxSt → CtxSt) (q : FRef) (i j : Nat) : (s.modCtx c g).b q i j = s.b q i j := rfl
theorem qext_finish (s : State) (a b c d e f) : QExt s (s.finish a b c d e f) := by
  have fo : ∀ (x : State) (a : Nat) (y : HDesc) (b c d e f), (x.finishOwn a y b c d e f).sys.queue = x.sys.queue := by
    intro x a y b c d e f; exact congrArg SysSt.queue (tch_finishOwn.1 .sys (by decide))
  unfold State.finish
  split
  · exact QExt.refl _
  · split
    · exact QExt.of_eq (fo ..)
    · refine QExt.trans ?_ (QExt.of_eq (congrArg SysSt.queue (tch_scheduleEnd.1 .sys (by decide))))
      refine QExt.doIf (QExt.of_eq (congrArg SysSt.queue (tch_dropDesc.1 .sys (by decide)))) fun x hx => ?_
      refine hx.trans ((QExt.post ..).trans (QExt.of_eq (congrArg SysSt.queue (tch_modDesc.1 .sys (by decide)))))
theorem bitF_modCtx (s : State) (c : Nat) (g : CtxSt → CtxSt) (q : FRef) (k i j : Nat) : (s.modCtx c g).bitF q k i j = s.bitF q k i j := rfl
/-- A field is calm at every instance below `n`, as a check that evaluates. -/
def calmB (q : FRef) (n : Nat) : Bool :=
  decide (q.blk ≠ .sys) && plantFields.all fun x => decide (q.blk ≠ x.1.blk) || decide (x.1.lo ≤ x.1.hi ∧ q.lo ≤ q.hi ∧ q.hi < 32 ∧ (q.hi < x.1.lo ∨ x.1.hi < q.lo))
    || (List.range n).all fun i => (List.range x.2).all fun a => (List.range 6).all fun b => decide (q.key i 0 ≠ x.1.key a b)
theorem calm_of {q : FRef} {n i : Nat} (h : calmB q n = true) (hi : i < n) : Calm q i 0 := by
  simp only [calmB, Bool.and_eq_true, decide_eq_true_eq, List.all_eq_true, Bool.or_eq_true, List.mem_range] at h
  refine ⟨h.1, fun x hx a b ha hb => ?_⟩
  rcases h.2 x hx with (h | h) | h
  · exact Or.inl h
  · exact Or.inr (Or.inr h)
  · exact Or.inr (Or.inl (h i hi a ha b hb))

/-- What the six switches of a bridge leave alone. -/
structure Keeps (s s' : State) : Prop where
  fields : ∀ q i j, Calm q i j → s'.f q i j = s.f q i j
  bc : s'.pwm.bc = s.pwm.bc
  cmd : s'.pwm.cmd = s.pwm.cmd
  car : ∀ T, { s'.carrier T with opened := false } = { s.carrier T with opened := false }
  q : QExt s s'
theorem carrier_of_pwm {s s' : State} (h : s'.pwm.carriers = s.pwm.carriers) (T : Nat) : s'.carrier T = s.carrier T := by unfold State.carrier; rw [h]
theorem carrier_setCarrier_same (s : State) (T : Nat) (c : Carrier) : (s.setCarrier T c).carrier T = c := kget_kset_same ..
theorem carrier_setCarrier_other (s : State) {T U : Nat} (c : Carrier) (h : U ≠ T) : (s.setCarrier T c).carrier U = s.carrier U := kget_kset_other _ _ _ h
theorem Calms.k {s s' : State} (h : Calms s s') : Keeps s s' := ⟨h.fields, h.bc, h.cmd, fun T => by rw [carrier_of_pwm h.carriers T], h.q⟩
theorem Keeps.refl (s : State) : Keeps s s := ⟨fun _ _ _ _ => rfl, rfl, rfl, fun _ => rfl, QExt.refl s⟩
theorem Keeps.trans {s u v : State} (h : Keeps s u) (h' : Keeps u v) : Keeps s v :=
  ⟨fun q i j c => (h'.fields q i j c).trans (h.fields q i j c), h'.bc.trans h.bc, h'.cmd.trans h.cmd, fun T => (h'.car T).trans (h.car T), h.q.trans h'.q⟩
theorem Keeps.foldl {α : Type} {s0 s : State} {f : State → α → State} {l : List α} (h : Keeps s0 s) (hf : ∀ t, ∀ x ∈ l, Keeps t (f t x)) :
    Keeps s0 (l.foldl f s) := by
  induction l generalizing s with
  | nil => exact h
  | cons a l ih => exact ih (h.trans (hf s a (List.mem_cons_self ..))) fun t x hx => hf t x (List.mem_cons_of_mem _ hx)
theorem keeps_putPattern {s : State} {x : Nat} {p d o} (hx : x < 4) : Keeps s (s.putPattern x p d o) := by
  unfold State.putPattern
  dsimp only
  refine Keeps.trans ?_ (Calms.k calm_settle)
  refine Keeps.trans ?_ (Calms.k (calm_advance (by omega)))
  refine Keeps.foldl (Keeps.foldl ?_ ?_) ?_
  · have hc : ∀ T, { (s.setCarrier (24 + x) { s.carrier (24 + x) with opened := true }).carrier T with opened := false }
        = { s.carrier T with opened := false } := by
      intro T
      by_cases h : T = 24 + x
      · subst h; rw [carrier_setCarrier_same]
      · rw [carrier_setCarrier_other _ _ h]
    refine Keeps.trans (u := s.setCarrier (24 + x) { s.carrier (24 + x) with opened := true }) ⟨fun _ _ _ _ => rfl, rfl, rfl, hc, QExt.of_eq rfl⟩
      (Calms.k (calm_advance (by omega)))
  · intro t k hk; exact Calms.k (calm_takeRef (by omega) (by simp at hk; omega))
  · intro t k hk; exact Calms.k (calm_takeLow (by omega) (by simp at hk; omega))
theorem keeps_bcApply {s : State} {x : Nat} {o : Option Nat} (hx : x < 4) : Keeps s (s.bcApply x o) := keeps_putPattern hx
theorem bc_setBc_same (s : State) (x : Nat) (b : BcSt) : (s.setBc x b).bc x = b := kget_kset_same ..
theorem Keeps.bcx {s s' : State} (h : Keeps s s') (x : Nat) : s'.bc x = s.bc x := by unfold State.bc; rw [h.bc]
theorem calm_bcStat (q : FRef) (x : Nat) (hx : x < 4) (h : q = R.AUX_BC_STAT_PHASE ∨ q = R.AUX_BC_STAT_STALL ∨ q = R.AUX_BC_STAT_START_FAIL ∨ q = R.AUX_BC_STAT_RETRIES ∨ q = R.AUX_BC_STAT_INTERVAL) : Calm q x 0 := by
  rcases h with rfl | rfl | rfl | rfl | rfl <;> exact calm_of (n := 4) (by decide) hx
theorem f_setBc (s : State) (x : Nat) (b : BcSt) (q : FRef) (i j : Nat) : (s.setBc x b).f q i j = s.f q i j := rfl
theorem b_setBc (s : State) (x : Nat) (b : BcSt) (q : FRef) (i j : Nat) : (s.setBc x b).b q i j = s.b q i j := rfl
theorem bc_setF (s : State) (r : FRef) (v i j x : Nat) : (s.setF r v i j).bc x = s.bc x := by unfold State.bc; rw [State.setF_pwm]
theorem bc_raise (s : State) (r : FRef) (i : Nat) (e a w0 w1) (x : Nat) : (s.raise r i e a w0 w1).bc x = s.bc x := by unfold State.bc; rw [State.raise_pwm]
theorem now_bcApply (s : State) (x : Nat) : (s.bcApply x).now = s.now := by exact tch_bcApply.1 .now (by decide)
theorem bcOn_lt {s : State} {x : Nat} (h : s.bcOn x = true) : x < 4 := by
  unfold State.bcOn at h; simp only [Bool.and_eq_true, decide_eq_true_eq] at h; exact h.1.1.2
theorem apply_f {s : State} {x : Nat} (hx : x < 4) (q : FRef) (h : q = R.AUX_BC_STAT_PHASE ∨ q = R.AUX_BC_STAT_STALL ∨ q = R.AUX_BC_STAT_START_FAIL ∨ q = R.AUX_BC_STAT_RETRIES ∨ q = R.AUX_BC_STAT_INTERVAL) : (s.bcApply x).f q x = s.f q x :=
  (keeps_bcApply hx).fields q x 0 (calm_bcStat q x hx h)
theorem apply_run {s : State} {x : Nat} (hx : x < 4) : (s.bcApply x).f R.AUX_BC_RUN_N_RETRY x = s.f R.AUX_BC_RUN_N_RETRY x :=
  (keeps_bcApply hx).fields _ x 0 (calm_of (n := 4) (by decide) hx)
theorem rampStart (s : State) (x : Nat) (hx : x < 4) : (s.bcRampStart x).bcPhase x = bcRamp ∧ (s.bcRampStart x).bc x = { s.bc x with phaseAt := s.now, commAt := s.now, made := 0, run := 0, crossed := false, crossedBefore := false, interval := none } := by
  unfold State.bcRampStart
  dsimp only
  constructor
  · unfold State.bcPhase
    rw [apply_f hx _ (Or.inl rfl), f_setBc, f_setF_same _ _ _ _ _ (by decide)]; decide
  · rw [(keeps_bcApply hx).bcx, bc_setBc_same, bc_setF, State.setF_now]
theorem commut (s : State) (x : Nat) (hx : x < 4) : (s.bcCommutate x).bcPhase x = s.bcPhase x ∧ (s.bcCommutate x).bc x = { s.bc x with step := s.bcNext x, commAt := s.now, crossed := false, crossedBefore := (s.bc x).crossed, run := if (s.bc x).crossed then (s.bc x).run else 0, due := none, made := (s.bc x).made + 1 } := by
  unfold State.bcCommutate
  dsimp only
  constructor
  · unfold State.bcPhase
    rw [apply_f hx _ (Or.inl rfl), f_setBc]
  · rw [(keeps_bcApply hx).bcx, bc_setBc_same]
theorem bcFail_phase (s : State) (x : Nat) (hx : x < 4) : (s.bcFail x).bcPhase x = bcStopped := by
  unfold State.bcFail State.bcPhase
  dsimp only
  have h0 : (s.bcOff x).f R.AUX_BC_STAT_PHASE x = 0 := by
    unfold State.bcOff
    rw [apply_f hx _ (Or.inl rfl), f_setF_same _ _ _ _ _ (by decide)]; decide
  split
  · rw [f_setBc, f_setF_bits _ _ _ _ _ _ (by decide), h0]
  · rw [f_setBc, f_raise _ _ _ _ _ _ _ _ _ _ (by decide) (Or.inr (Or.inr (by decide))), h0]
theorem bcOff_f (s : State) (x : Nat) (hx : x < 4) (q : FRef) (h : q = R.AUX_BC_STAT_STALL ∨ q = R.AUX_BC_STAT_START_FAIL ∨ q = R.AUX_BC_STAT_RETRIES) : (s.bcOff x).f q x = s.f q x := by
  unfold State.bcOff
  rw [apply_f hx _ (by rcases h with h | h | h <;> simp [h])]
  rcases h with rfl | rfl | rfl <;> rw [f_setF_bits _ _ _ _ _ _ (by decide)]
theorem bcOff_n (s : State) (x : Nat) (hx : x < 4) : (s.bcOff x).f R.AUX_BC_RUN_N_RETRY x = s.f R.AUX_BC_RUN_N_RETRY x := by
  unfold State.bcOff
  rw [apply_run hx]; exact f_setF_key _ _ (by simp only [FRef.key, R.AUX_BC_RUN_N_RETRY, R.AUX_BC_STAT_PHASE]; omega)
theorem bcFail_rest (s : State) (x : Nat) (hx : x < 4) : if s.f R.AUX_BC_STAT_RETRIES x < s.f R.AUX_BC_RUN_N_RETRY x then
          (s.bcFail x).f R.AUX_BC_STAT_RETRIES x = s.f R.AUX_BC_STAT_RETRIES x + 1 ∧ ((s.bcFail x).bc x).retryAt = some (s.now + (s.f R.AUX_BC_STAT_RETRIES x + 1) * secQ)
         else (s.bcFail x).b R.AUX_BC_STAT_START_FAIL x = true ∧ ((s.bcFail x).bc x).barred = true := by
  have hn : (s.bcOff x).now = s.now := by unfold State.bcOff; rw [now_bcApply, State.setF_now]
  unfold State.bcFail
  dsimp only
  rw [bcOff_f s x hx _ (by simp), bcOff_n s x hx]
  by_cases hlt : s.f R.AUX_BC_STAT_RETRIES x < s.f R.AUX_BC_RUN_N_RETRY x
  · simp only [if_pos hlt]
    refine ⟨?_, ?_⟩
    · rw [f_setBc, f_setF_same _ _ _ _ _ (by decide)]
      have : s.f R.AUX_BC_RUN_N_RETRY x < 2 ^ 4 := by unfold State.f getBits; exact Nat.mod_lt _ (by decide)
      have hlt' := Nat.lt_of_lt_of_le hlt (Nat.le_of_lt_succ this)
      exact Nat.mod_eq_of_lt (by simp only [R.AUX_BC_STAT_RETRIES] at *; omega)
    · rw [bc_setBc_same]; dsimp only; rw [hn]
  · simp only [if_neg hlt]
    refine ⟨?_, ?_⟩
    · rw [b_setBc]; exact b_raise_same _ _ _ _ _ _ _ (by decide) (by decide)
    · rw [bc_setBc_same]
theorem keeps_field {s s' : State} (h : Keeps s s') (q : FRef) (x : Nat) (hx : x < 4) (hq : calmB q 4 = true) : s'.f q x = s.f q x := h.fields q x 0 (calm_of hq hx)
theorem comm_facts (v : State) (x : Nat) (iv : Option Nat) : (v.commInterval iv).1.bc x = v.bc x ∧ (v.commInterval iv).1.bcPhase x = v.bcPhase x ∧ (v.commInterval iv).1.now = v.now
   ∧ (v.commInterval iv).1.f R.AUX_BC_CFG_ADV x = v.f R.AUX_BC_CFG_ADV x ∧ ∀ n, iv = some n → (v.commInterval iv).2 = n := by
  cases iv with
  | none => exact ⟨rfl, rfl, rfl, rfl, fun _ h => by cases h⟩
  | some n => exact ⟨rfl, rfl, rfl, rfl, fun _ h => by cases h; rfl⟩
theorem sched_facts (m : State) (x : Nat) (hx : x < 4) (cl : Bool) (n : Nat) :
    (m.scheduleComm x cl n).bc x = { m.bc x with interval := some n, due := some (m.now + (128 - m.f R.AUX_BC_CFG_ADV x) * n / 256) } ∧ (m.scheduleComm x cl n).bcPhase x = m.bcPhase x := by
  unfold State.scheduleComm
  cases cl
  · rw [doIf_not (by rfl), bc_setBc_same]; exact ⟨rfl, rfl⟩
  · rw [doIf_of (by rfl), (keeps_bcApply hx).bcx, bc_setBc_same]
    refine ⟨rfl, ?_⟩
    unfold State.bcPhase
    rw [apply_f hx _ (Or.inl rfl), f_setBc]
theorem show_facts (u : State) (x : Nat) (iv : Option Nat) : (u.showInterval x iv).bcPhase x = u.bcPhase x ∧ (u.showInterval x iv).now = u.now
   ∧ (u.showInterval x iv).f R.AUX_BC_CFG_ADV x = u.f R.AUX_BC_CFG_ADV x := by
  unfold State.showInterval
  cases iv with
  | none => exact ⟨rfl, rfl, rfl⟩
  | some n =>
    refine ⟨?_, State.setF_now .., ?_⟩
    · unfold State.bcPhase; exact f_setF_bits _ _ _ _ _ _ (by decide)
    · exact f_setF_key _ _ (by simp only [FRef.key, R.AUX_BC_CFG_ADV, R.AUX_BC_STAT_INTERVAL]; omega)
theorem close_facts (w : State) (x : Nat) : (w.bcClose x).bcPhase x = bcClosed ∧ (w.bcClose x).bc x = w.bc x ∧ (w.bcClose x).now = w.now := by
  unfold State.bcClose
  refine ⟨?_, ?_, ?_⟩
  · unfold State.bcPhase
    rw [f_post _ _ _ _ _ _ _ _ (by decide), f_setF_same _ _ _ _ _ (by decide)]; decide
  · unfold State.bc; rw [State.post_pwm, State.setF_pwm]
  · rw [State.post_now, State.setF_now]
theorem zc (u : State) (x : Nat) (hx : x < 4) (hp : u.bcPhase x = bcRamp ∨ u.bcPhase x = bcClosed) :
        ((u.zeroCross x).bc x).crossed = true ∧ ((u.zeroCross x).bc x).crossAt = u.now ∧ ((u.zeroCross x).bc x).run = (u.bc x).run + 1
          ∧ ((u.zeroCross x).bcPhase x = bcClosed ↔ u.bcPhase x = bcClosed ∨ u.f R.AUX_BC_CFG_N_ZC x + 1 ≤ (u.bc x).run + 1)
          ∧ (u.bcPhase x = bcClosed →
              ((u.zeroCross x).bc x).due = some (u.now + (128 - u.f R.AUX_BC_CFG_ADV x) * (u.now - (u.bc x).crossAt) / 256)) := by
  have hcl : u.bcPhase x = bcClosed → u.crossInterval x = some (u.now - (u.bc x).crossAt) := fun e => by unfold State.crossInterval; rw [if_pos (by simp [e])]
  unfold State.zeroCross
  dsimp only
  generalize u.crossInterval x = iv at *
  obtain ⟨s1, s2, s3⟩ := show_facts u x iv
  generalize hc : (u.bcPhase x == bcRamp && decide (u.f R.AUX_BC_CFG_N_ZC x + 1 ≤ (u.bc x).run + 1)) = close
  generalize hv : ((u.showInterval x iv).setBc x { u.bc x with crossed := true, crossAt := u.now, run := (u.bc x).run + 1, interval := iv }).doIf close (·.bcClose x) = v
  have v1 : v.bcPhase x = if close then bcClosed else u.bcPhase x := by
    rw [← hv]; cases close
    · rw [doIf_not (by rfl)]; exact s1
    · rw [doIf_of (by rfl), (close_facts _ x).1]; rfl
  have v2 : v.bc x = { u.bc x with crossed := true, crossAt := u.now, run := (u.bc x).run + 1, interval := iv } := by
    rw [← hv]; cases close
    · rw [doIf_not (by rfl), bc_setBc_same]
    · rw [doIf_of (by rfl), (close_facts _ x).2.1, bc_setBc_same]
  have v3 : v.now = u.now := by
    rw [← hv]; cases close
    · rw [doIf_not (by rfl)]; exact s2
    · rw [doIf_of (by rfl), (close_facts _ x).2.2]; exact s2
  have v4 : close = false → v.f R.AUX_BC_CFG_ADV x = u.f R.AUX_BC_CFG_ADV x := by
    intro e; rw [← hv, e, doIf_not (by rfl)]; exact s3
  have hcc : (if close then bcClosed else u.bcPhase x) = bcClosed ↔ (u.bcPhase x = bcClosed ∨ u.f R.AUX_BC_CFG_N_ZC x + 1 ≤ (u.bc x).run + 1) := by
    rw [← hc]
    rcases hp with e | e <;> simp [e, bcRamp, bcClosed]
  have hcn : u.bcPhase x = bcClosed → close = false := by
    intro e; rw [← hc, e]; rfl
  clear hv hc
  by_cases hv : v.bcPhase x = bcClosed
  · rw [if_pos hv]
    obtain ⟨c1, c2, c3, c4, c5⟩ := comm_facts v x iv
    obtain ⟨d1, d2⟩ := sched_facts (v.commInterval iv).1 x hx close (v.commInterval iv).2
    rw [d1, d2, c1, c2, v2, v1]
    refine ⟨rfl, rfl, rfl, hcc, fun e => ?_⟩
    show some _ = some _
    rw [c3, c4, v3, v4 (hcn e), c5 _ (hcl e)]
  · rw [if_neg hv, v2, v1]
    refine ⟨rfl, rfl, rfl, hcc, fun e => ?_⟩
    rw [v1, hcc] at hv
    exact absurd (Or.inl e) hv
theorem putToken_mem (y : Nat × Nat) (q : List (Nat × Nat)) : y ∈ putToken y q := by
  induction q with
  | nil => simp [putToken]
  | cons a q ih => unfold putToken; split <;> simp [ih]
theorem grantDue_shut (s : State) (h : s.b R.PWR_TOK_CFG_EN = true) (ho : s.b R.PWR_TOK_STAT_OPEN = false) : s.grantDue = s := by
  unfold State.grantDue State.grantDue.go
  split
  · rename_i n r q heq
    rw [if_neg (by rw [h]; decide)]
    dsimp only
    rw [if_neg (by rw [ho]; simp)]
  · rfl
theorem setTokens_b (s : State) (q) : (s.setTokens q).b R.PWR_TOK_CFG_EN = s.b R.PWR_TOK_CFG_EN ∧ (s.setTokens q).b R.PWR_TOK_STAT_OPEN = s.b R.PWR_TOK_STAT_OPEN ∧ (s.setTokens q).pwm = s.pwm ∧ (s.setTokens q).pwr.tokens = q := by
  unfold State.setTokens
  refine ⟨?_, ?_, ?_, rfl⟩
  · rw [b_upd_pwr]; exact b_setF_key _ _ (by decide)
  · rw [b_upd_pwr]; exact b_setF_bits _ _ _ _ _ _ (by decide)
  · dsimp only; exact State.setF_pwm s _ _ _ _
theorem word_modCtx (s : State) (c : Nat) (g) (b : Blk) (k : Nat) : (s.modCtx c g).word b k = s.word b k := rfl
theorem word_post' (s : State) (e : Ev) (a : Nat) (w0 w1 : Word) (b : Blk) (k : Nat) (hb : b ≠ .sys) : (s.post e a w0 w1).word b k = s.word b k := by
  have h : (s.post e a w0 w1).regs.blk b = s.regs.blk b := tch_post.1 (.regs b) (by cases b <;> first | decide | exact absurd rfl hb)
  unfold State.word; rw [h]
/-- What entering a state of the drive after an event leaves. -/
theorem enter_facts (u : State) (c st : Nat) (e : Ev) (w : Word) (hr : u.room) :
    (((u.post e (subject c) w).drvEnter c st).drv c).st = st ∧ (((u.post e (subject c) w).drvEnter c st).drv c).entered = u.now
      ∧ Posts u ((u.post e (subject c) w).drvEnter c st) e (subject c) w ∧ (∀ d, d ≠ c → ((u.post e (subject c) w).drvEnter c st).ctx d = u.ctx d)
      ∧ ∀ b k, b ≠ .sys → ((u.post e (subject c) w).drvEnter c st).word b k = u.word b k := by
  have hR : Reports u (u.post e (subject c) w) e (subject c) w 0 := by
    obtain ⟨q, h1, h2⟩ := State.post_sys u e (subject c) w 0 hr; exact ⟨q, h1, h2⟩
  have hl : ∀ d, (u.post e (subject c) w).ctx d = u.ctx d := fun d => ctx_of_loop (State.post_loop ..) d
  have hn : (u.post e (subject c) w).now = u.now := State.post_now ..
  have hw : ∀ b k, b ≠ .sys → (u.post e (subject c) w).word b k = u.word b k := fun b k hb => word_post' _ _ _ _ _ _ _ hb
  generalize u.post e (subject c) w = v at *
  unfold State.drvEnter State.modDrv
  dsimp only
  generalize hm : (v.modCtx c fun x => { x with drv := { x.drv with st := st, entered := v.now, evals := 0, good := 0, pulse := 0, offLeft := 0, tlim := if st = dRamp then 0 else x.drv.tlim } }) = m
  have m1 : ∀ d, (m.doIf ((v.drv c).st != st) fun s => s.post E.DRV_STATE (subject c) (nw (v.drv c).st) (nw st)).ctx d = m.ctx d := by
    intro d; unfold State.doIf; split
    · exact ctx_of_loop (State.post_loop ..) d
    · rfl
  have m2 : QExt m (m.doIf ((v.drv c).st != st) fun s => s.post E.DRV_STATE (subject c) (nw (v.drv c).st) (nw st)) := QExt.doIf (QExt.refl _) fun x hx => hx.trans (QExt.post ..)
  have m3 : ∀ b k, b ≠ .sys → (m.doIf ((v.drv c).st != st) fun s => s.post E.DRV_STATE (subject c) (nw (v.drv c).st) (nw st)).word b k = m.word b k := by
    intro b k hb; unfold State.doIf; split
    · exact word_post' _ _ _ _ _ _ _ hb
    · rfl
  generalize (m.doIf ((v.drv c).st != st) fun s => s.post E.DRV_STATE (subject c) (nw (v.drv c).st) (nw st)) = z at *
  refine ⟨?_, ?_, hR.posts ((QExt.of_eq (by rw [← hm]; rfl)).trans m2), ?_, ?_⟩
  · unfold State.drv; rw [m1, ← hm, ctx_modCtx_same]
  · unfold State.drv; rw [m1, ← hm, ctx_modCtx_same]; exact hn
  · intro d hd; rw [m1, ← hm, ctx_modCtx_other _ _ hd, hl]
  · intro b k hb; rw [m3 b k hb, ← hm, word_modCtx, hw b k hb]
/-- Between two states only context `c` and SYS have changed. -/
structure Only (c : Nat) (s s' : State) : Prop where
  ctx : ∀ d, d ≠ c → s'.ctx d = s.ctx d
  word : ∀ b k, b ≠ .sys → s'.word b k = s.word b k
  q : QExt s s'
theorem Only.refl (c : Nat) (s : State) : Only c s s := ⟨fun _ _ => rfl, fun _ _ _ => rfl, QExt.refl s⟩
theorem Only.trans {c : Nat} {s u v : State} (h : Only c s u) (h' : Only c u v) : Only c s v :=
  ⟨fun d hd => (h'.ctx d hd).trans (h.ctx d hd), fun b k hb => (h'.word b k hb).trans (h.word b k hb), h.q.trans h'.q⟩
theorem Only.modCtx (c : Nat) (s : State) (g) : Only c s (s.modCtx c g) := ⟨fun _ hd => ctx_modCtx_other _ _ hd, fun _ _ _ => rfl, QExt.of_eq rfl⟩
theorem Only.post (c : Nat) (s : State) (e a w0 w1) : Only c s (s.post e a w0 w1) :=
  ⟨fun d _ => ctx_of_loop (State.post_loop ..) d, fun _ _ hb => word_post' _ _ _ _ _ _ _ hb, QExt.post ..⟩
theorem Only.doIf {c : Nat} {s u : State} {x : Bool} {g : State → State} (h : Only c s u) (hg : Only c u (g u)) : Only c s (u.doIf x g) := by
  unfold State.doIf; split
  · exact h.trans hg
  · exact h
theorem Only.pair {c : Nat} {s s' : State} (h : Only c s s') : (∀ d, d ≠ c → s'.ctx d = s.ctx d) ∧ ∀ b k, b ≠ .sys → s'.word b k = s.word b k := ⟨h.ctx, h.word⟩
theorem ctx_doPost (s : State) (x : Bool) (e a w0 w1) (d : Nat) : (s.doIf x fun s => s.post e a w0 w1).ctx d = s.ctx d := by
  unfold State.doIf; split
  · exact ctx_of_loop (State.post_loop ..) d
  · rfl
theorem gridEnter_only (s : State) (c st : Nat) : Only c s (s.gridEnter c st) := by
  unfold State.gridEnter State.modGrid
  exact Only.doIf (Only.modCtx ..) (Only.post ..)
theorem gridEnter_grid (s : State) (c st : Nat) : (s.gridEnter c st).grid c = { s.grid c with st := st, retRun := if st = gCoast then none else (s.grid c).retRun } := by
  unfold State.gridEnter State.modGrid
  dsimp only
  rw [show ∀ v : State, v.grid c = (v.ctx c).grid from fun _ => rfl, ctx_doPost, ctx_modCtx_same]
  rfl
theorem grid_post (s : State) (e a w0 w1) (c : Nat) : (s.post e a w0 w1).grid c = s.grid c := by unfold State.grid; rw [ctx_of_loop (State.post_loop ..)]
theorem grid_modGrid (s : State) (c : Nat) (g) : (s.modGrid c g).grid c = g (s.grid c) := by unfold State.grid State.modGrid; rw [ctx_modCtx_same]
theorem dcEnter_only (s : State) (c st : Nat) : Only c s (s.dcEnter c st) := by
  unfold State.dcEnter State.modDc
  exact Only.doIf (Only.modCtx ..) (Only.post ..)
theorem dcEnter_dc (s : State) (c st : Nat) : (s.dcEnter c st).dcdc c = { s.dcdc c with st := st, t := 0 } := by
  unfold State.dcEnter State.modDc
  dsimp only
  rw [show ∀ v : State, v.dcdc c = (v.ctx c).dcdc from fun _ => rfl, ctx_doPost, ctx_modCtx_same]
  rfl
theorem dc_post (s : State) (e a w0 w1) (c : Nat) : (s.post e a w0 w1).dcdc c = s.dcdc c := by unfold State.dcdc; rw [ctx_of_loop (State.post_loop ..)]
theorem dc_modDc (s : State) (c : Nat) (g) : (s.modDc c g).dcdc c = g (s.dcdc c) := by unfold State.dcdc State.modDc; rw [ctx_modCtx_same]
theorem modGrid_only (s : State) (c : Nat) (g) : Only c s (s.modGrid c g) := Only.modCtx ..
theorem modDc_only (s : State) (c : Nat) (g) : Only c s (s.modDc c g) := Only.modCtx ..
theorem gridByBand_only (s : State) (c : Nat) : Only c s (s.gridByBand c) := gridEnter_only ..
theorem band_grid (s : State) (c : Nat) : (s.gridByBand c).grid c = { s.grid c with st := if (s.ctx c).inBand then gRun else gRide } := by
  unfold State.gridByBand
  rw [gridEnter_grid]
  have : ¬ (if (s.ctx c).inBand = true then gRun else gRide) = gCoast := by split <;> decide
  rw [if_neg this]
theorem gridReturn_only (s : State) (c : Nat) : Only c s (s.gridReturn c) := by
  unfold State.gridReturn
  dsimp only
  split
  · exact (Only.post ..).trans (gridByBand_only ..)
  · split
    · exact ((Only.post ..).trans (modGrid_only ..)).trans (gridByBand_only ..)
    · exact ((Only.post ..).trans (modGrid_only ..)).trans (gridEnter_only ..)
theorem inBand_mod (s : State) (c : Nat) (g : GridSt → GridSt) (h : ∀ x, (g x).vmag = x.vmag) : ((s.modGrid c g).ctx c).inBand = (s.ctx c).inBand := by
  unfold CtxSt.inBand State.modGrid
  rw [ctx_modCtx_same]
  dsimp only
  rw [h]
  rfl
theorem inBand_post (s : State) (c : Nat) (e a w0 w1) : ((s.post e a w0 w1).ctx c).inBand = (s.ctx c).inBand := by rw [ctx_of_loop (State.post_loop ..)]
theorem dcFail_only (s : State) (c k : Nat) : Only c s (s.dcFail c k) := by
  unfold State.dcFail
  exact ((Only.post ..).trans (modDc_only ..)).trans (dcEnter_only ..)
theorem dcFail_facts (s : State) (c k : Nat) (hr : s.room) : ((s.dcFail c k).dcdc c).st = bFail ∧ ((s.dcFail c k).dcdc c).pre = false ∧ ((s.dcFail c k).dcdc c).main = false ∧ Posts s (s.dcFail c k) E.PRECHARGE_FAIL (subject c) (nw k) := by
  unfold State.dcFail
  rw [dcEnter_dc, dc_modDc]
  exact ⟨rfl, rfl, rfl, (State.post_sys s _ _ _ _ hr).posts (((modDc_only ..).trans (dcEnter_only ..)).q)⟩
theorem band_ne (p : Bool) : ¬ (if p = true then gRun else gRide) = gBlock := by cases p <;> decide
/-- What block commutation, its start tokens and the command window leave alone. -/
structure K2 (s s' : State) : Prop where
  cmd : s'.pwm.cmd = s.pwm.cmd
  stat : ∀ q : FRef, (q = R.AUX_CMD_STAT_STATIC_HI ∨ q = R.AUX_CMD_STAT_STATIC_LO) → s'.f q = s.f q
  plant : ∀ q i j, Calm q i j → q.blk = .pwm ∨ q.blk = .trip → s'.f q i j = s.f q i j
  car : ∀ T, { s'.carrier T with opened := false } = { s.carrier T with opened := false }
  q : QExt s s'
theorem K2.refl (s : State) : K2 s s := ⟨rfl, fun _ _ => rfl, fun _ _ _ _ _ => rfl, fun _ => rfl, QExt.refl s⟩
theorem K2.trans {s u v : State} (h : K2 s u) (h' : K2 u v) : K2 s v :=
  ⟨h'.1.trans h.1, fun q hq => (h'.2 q hq).trans (h.2 q hq), fun q i j c b => (h'.3 q i j c b).trans (h.3 q i j c b),
   fun T => (h'.4 T).trans (h.4 T), h.q.trans h'.q⟩
theorem K2.touch {s s' : State} {m : Nat} (h : Touches m s s') (hm : m &&& 8425856 = 0) (hq : QExt s s') : K2 s s' := by
  have bit : ∀ n, (8425856 : Nat).testBit n = true → m.testBit n = false := by
    intro n hn
    have := congrArg (Nat.testBit · n) hm
    simp only [Nat.testBit_and, hn, Bool.and_true, Nat.zero_testBit] at this
    exact this
  have pw := h.1 .pwm (bit _ (by decide))
  refine ⟨congrArg PwmSt.cmd pw, fun q hq => h.f q 0 0 ?_, fun q i j _ hb => h.f q i j ?_, fun T => congrArg (fun c : Carrier => { c with opened := false }) (carrier_of_pwm (congrArg PwmSt.carriers pw) T), hq⟩
  · rcases hq with rfl | rfl <;> exact bit _ (by decide)
  · rcases hb with hb | hb <;> rw [hb] <;> exact bit _ (by decide)
theorem K2.keeps {s s' : State} (h : Keeps s s') : K2 s s' := by
  refine ⟨h.cmd, fun q hq => h.fields q 0 0 ?_, fun q i j c _ => h.fields q i j c, h.car, h.q⟩
  rcases hq with rfl | rfl <;> exact calm_of (n := 1) (by decide) (by decide)
theorem K2.setF (s : State) (r : FRef) (v i j : Nat) (h : Apart R.AUX_CMD_STAT_STATIC_HI r 0 0 i j ∧ Apart R.AUX_CMD_STAT_STATIC_LO r 0 0 i j)
    (hb : r.blk ≠ .pwm ∧ r.blk ≠ .trip) : K2 s (s.setF r v i j) := by
  refine ⟨by rw [State.setF_pwm], fun q hq => ?_, fun q a b _ hq => f_setF_blk _ _ _ _ _ _ ?_,
    fun T => congrArg (fun c : Carrier => { c with opened := false }) (carrier_of_pwm (by rw [State.setF_pwm]) T), QExt.of_eq (by rw [State.setF_sys])⟩
  · rcases hq with rfl | rfl
    · exact f_setF_apart _ _ _ _ _ _ h.1
    · exact f_setF_apart _ _ _ _ _ _ h.2
  · rcases hq with hq | hq <;> rw [hq]
    · exact Ne.symm hb.1
    · exact Ne.symm hb.2
theorem K2.doIf {s u : State} {x : Bool} {g : State → State} (h : K2 s u) (hg : K2 u (g u)) : K2 s (u.doIf x g) := by
  unfold State.doIf; split
  · exact h.trans hg
  · exact h
theorem K2.foldl {α : Type} {s0 s : State} {f : State → α → State} {l : List α} (h : K2 s0 s) (hf : ∀ t, ∀ x ∈ l, K2 t (f t x)) : K2 s0 (l.foldl f s) := by
  induction l generalizing s with
  | nil => exact h
  | cons a l ih => exact ih (h.trans (hf s a (List.mem_cons_self ..))) fun t x hx => hf t x (List.mem_cons_of_mem _ hx)
theorem K2.setBc (s : State) (x : Nat) (b : BcSt) : K2 s (s.setBc x b) := ⟨rfl, fun _ _ => rfl, fun _ _ _ _ _ => rfl, fun _ => rfl, QExt.of_eq rfl⟩
theorem k2_apply {s : State} {x : Nat} (hx : x < 4) : K2 s (s.bcApply x) := K2.keeps (keeps_bcApply hx)
theorem k2_statF (s : State) (r : FRef) (v x : Nat) (hr : r = R.AUX_BC_STAT_PHASE ∨ r = R.AUX_BC_STAT_RETRIES) : K2 s (s.setF r v x) := by
  apply K2.setF
  · rcases hr with rfl | rfl
    · constructor <;> exact Or.inr (Or.inl (by simp only [FRef.key, R.AUX_CMD_STAT_STATIC_HI, R.AUX_CMD_STAT_STATIC_LO, R.AUX_BC_STAT_PHASE]; omega))
    · constructor <;> exact Or.inr (Or.inl (by simp only [FRef.key, R.AUX_CMD_STAT_STATIC_HI, R.AUX_CMD_STAT_STATIC_LO, R.AUX_BC_STAT_RETRIES]; omega))
  · rcases hr with rfl | rfl <;> decide
theorem k2_rampStart {s : State} {x : Nat} (hx : x < 4) : K2 s (s.bcRampStart x) := by
  unfold State.bcRampStart
  exact (k2_statF _ _ _ _ (Or.inl rfl)).trans ((K2.setBc ..).trans (k2_apply hx))
theorem k2_bcStart {s : State} {x : Nat} (hx : x < 4) : K2 s (s.bcStart x) := by
  unfold State.bcStart
  dsimp only
  split
  · exact (K2.setBc ..).trans (k2_rampStart hx)
  · exact (K2.setBc ..).trans ((k2_statF _ _ _ _ (Or.inl rfl)).trans ((K2.setBc ..).trans (k2_apply hx)))
theorem k2_bcOff {s : State} {x : Nat} (hx : x < 4) : K2 s (s.bcOff x) := (k2_statF _ _ _ _ (Or.inl rfl)).trans (k2_apply hx)
theorem k2_setTokens (s : State) (q) : K2 s (s.setTokens q) :=
  K2.touch tch_setTokens (by decide) (QExt.of_eq (congrArg SysSt.queue (tch_setTokens.1 .sys (by decide))))
theorem k2_post (s : State) (e : Ev) (a : Nat) (w0 w1 : Word) : K2 s (s.post e a w0 w1) := K2.touch tch_post (by decide) (QExt.post ..)
theorem f_raiseBit_apart (s : State) (r q : FRef) (k i i' j' : Nat) (e : Ev) (a : Nat) (w0 w1 : Word) (hb : q.blk ≠ .sys) (h : Apart q r i' j' i 0) :
    (s.raiseBit r k i e a w0 w1).f q i' j' = s.f q i' j' := by
  unfold State.raiseBit
  split
  · rfl
  · rw [f_post _ _ _ _ _ _ _ _ hb, f_setBitF]; exact f_setF_apart _ _ _ _ _ _ h
theorem raiseBit_reports (s : State) (r : FRef) (k i : Nat) (e : Ev) (a : Nat) (w0 w1 : Word) (h : s.bitF r k i = false) (hr : s.room) : Reports s (s.raiseBit r k i e a w0 w1) e a w0 w1 := by
  unfold State.raiseBit
  rw [if_neg (by rw [h]; decide)]
  refine (State.post_sys _ _ _ _ _ (by unfold State.room; rw [State.setBitF_sys]; exact hr)).of_eq (by rw [State.setBitF_sys]) ?_
  unfold State.shortTs State.ntime State.pwmTime
  simp only [State.setBitF_clk, State.setBitF_net, State.setBitF_now]
theorem raise_reports (s : State) (r : FRef) (i : Nat) (e : Ev) (a : Nat) (w0 w1 : Word) (h : s.b r i = false) (hr : s.room) : Reports s (s.raise r i e a w0 w1) e a w0 w1 := by
  unfold State.raise
  rw [if_neg (by rw [h]; decide)]
  refine (State.post_sys _ _ _ _ _ (by unfold State.room; rw [State.setB_sys]; exact hr)).of_eq (by rw [State.setB_sys]) ?_
  unfold State.shortTs State.ntime State.pwmTime
  simp only [State.setB_clk, State.setB_net, State.setB_now]
/-- What is reported in a later state of the same time is posted from the earlier one on. -/
theorem Reports.after {s u v s' : State} {e : Ev} {a : Nat} {w0 w1 : Word} (h : Reports u v e a w0 w1) (h0 : QExt s u) (ht : u.shortTs = s.shortTs) (h1 : QExt v s') :
    Posts s s' e a w0 w1 := by
  obtain ⟨q, hq, he⟩ := h
  obtain ⟨l, h0⟩ := h0
  obtain ⟨l', h1⟩ := h1
  exact ⟨l, q, l', by rw [h1, hq, h0]; simp, by rw [he, ht]⟩
theorem set_f (x : State) {q : FRef} {n i : Nat} (hc : calmB q n = true) (hi : i < n) : x.settle.f q i = x.f q i := calm_settle.fields q i 0 (calm_of hc hi)
theorem adv_f (x : State) {B p : Nat} (hB : B < 28) {q : FRef} {n i : Nat} (hc : calmB q n = true) (hi : i < n) : (x.advance B p).f q i = x.f q i := (calm_advance hB).fields q i 0 (calm_of hc hi)
theorem adv_ts (x : State) (B p : Nat) : (x.advance B p).shortTs = x.shortTs := (tch_advance (s := x) (a1 := B) (a2 := p)).shortTs (by decide)
theorem bridge_lt (u : State) {T : Nat} (h : T < 28) : u.bridge T < 28 := by unfold State.bridge; split <;> omega

end Sys2Proof.Machine
end

