-- ==== Sys2Proof/Laws/Safe.lean ====
section
/-! SUPPORT. What the outputs, demand lines and half faults of the safety island change and leave alone. -/
namespace Sys2Proof.Machine

/-- Only the outputs of the island and their levels change. -/
structure SO (s s' : State) : Prop where
  f : ∀ q : FRef, ∀ i, q.blk = .safe → Apart q R.SAFE_OUT_STAT_LEVEL i 0 0 0 → s'.f q i = s.f q i
  fo : ∀ q : FRef, ∀ i j, q.blk = .cfg ∨ q.blk = .loop ∨ q.blk = .meas ∨ q.blk = .pos ∨ q.blk = .net → s'.f q i j = s.f q i j
  safe : ∃ o, s'.safe = { s.safe with outs := o }
  q : QExt s s'
  ts : s'.shortTs = s.shortTs
  low : ∀ k, s.bitF R.SAFE_OUT_STAT_LEVEL k = false → s'.bitF R.SAFE_OUT_STAT_LEVEL k = false
theorem SO.refl (s : State) : SO s s := ⟨fun _ _ _ _ => rfl, fun _ _ _ _ => rfl, ⟨_, rfl⟩, QExt.refl s, rfl, fun _ h => h⟩
theorem SO.trans {s u v : State} (h : SO s u) (h' : SO u v) : SO s v :=
  ⟨fun q i a b => (h'.f q i a b).trans (h.f q i a b), fun q i j a => (h'.fo q i j a).trans (h.fo q i j a), by obtain ⟨o, e⟩ := h.safe; obtain ⟨o', e'⟩ := h'.safe; exact ⟨o', by rw [e', e]⟩,
   h.q.trans h'.q, h'.ts.trans h.ts, fun k x => h'.low k (h.low k x)⟩
theorem SO.doIf {s u : State} {x : Bool} {g : State → State} (h : SO s u) (hg : SO u (g u)) : SO s (u.doIf x g) := by
  unfold State.doIf; split
  · exact h.trans hg
  · exact h
theorem so_touch {s s' : State} {m : Nat} (h : Touches m s s') (hm : m &&& (512 + 67108864 + 18522046464) = 0) (hb : m.testBit 38 = false) (hc : ∀ b : Blk, b = .cfg ∨ b = .loop ∨ b = .meas ∨ b = .pos ∨ b = .net → m.testBit b.num = false) : SO s s' := by
  have bit : ∀ n, (512 + 67108864 + 18522046464 : Nat).testBit n = true → m.testBit n = false := by
    intro n hn
    have := congrArg (Nat.testBit · n) hm
    simp only [Nat.testBit_and, hn, Bool.and_true, Nat.zero_testBit] at this
    exact this
  have fs : ∀ q : FRef, ∀ i j, q.blk = .safe → s'.f q i j = s.f q i j := fun q i j e => h.f q i j (by rw [e]; exact bit _ (by decide))
  refine ⟨fun q i e _ => fs q i 0 e, fun q i j e => h.f q i j (hc _ e), ⟨s.safe.outs, ?_⟩, h.q hb, h.shortTs ?_, fun k hk => ?_⟩
  · exact h.1 .safe (bit _ (by decide))
  · apply Nat.eq_of_testBit_eq
    intro n
    rw [Nat.testBit_and, Nat.zero_testBit]
    cases hx : (18522046464 : Nat).testBit n
    · simp
    · have : (512 + 67108864 + 18522046464 : Nat).testBit n = true := by
        have e : (512 + 67108864 + 18522046464 : Nat) = (512 + 67108864) ||| 18522046464 := by decide
        rw [e, Nat.testBit_or, hx]; simp
      rw [bit n this]; rfl
  · rw [bitF_of_f (fs R.SAFE_OUT_STAT_LEVEL 0 0 rfl)]; exact hk
theorem settle_tch (s : State) : SO s s.settle := so_touch tch_settle (by decide) (by decide) (by rintro b (rfl | rfl | rfl | rfl | rfl) <;> decide)
theorem so_stoDown (s : State) : SO s s.stoDown := so_touch tch_stoDown (by decide) (by decide) (by rintro b (rfl | rfl | rfl | rfl | rfl) <;> decide)
theorem so_stoUp (s : State) : SO s s.stoUp := so_touch tch_stoUp (by decide) (by decide) (by rintro b (rfl | rfl | rfl | rfl | rfl) <;> decide)
theorem so_emit (s : State) (o : Output) : SO s (s.emit o) := so_touch tch_emit (by decide) (by decide) (by rintro b (rfl | rfl | rfl | rfl | rfl) <;> decide)
theorem so_post (s : State) (e : Ev) (a : Nat) (w0 w1 : Word) : SO s (s.post e a w0 w1) := so_touch tch_post (by decide) (by decide) (by rintro b (rfl | rfl | rfl | rfl | rfl) <;> decide)
theorem bitF_setBitF_ne (s : State) (r : FRef) (k k' : Nat) (v : Bool) (i j : Nat) (h : r.lo ≤ r.hi ∧ r.hi < 32) (hk : k' ≠ k) :
    (s.setBitF r k v i j).bitF r k' i j = s.bitF r k' i j := by
  unfold State.bitF
  rw [f_setBitF, f_setF_same _ _ _ _ _ h, Nat.testBit_mod_two_pow, testBit_put, if_neg hk]
  by_cases h2 : k' < r.hi + 1 - r.lo
  · simp [h2]
  · have : (s.f r i j).testBit k' = false := Nat.testBit_lt_two_pow (Nat.lt_of_lt_of_le (f_lt s r i j) (Nat.pow_le_pow_right (by decide) (by omega)))
    simp [this]
theorem so_level (s : State) (k : Nat) (lv : Bool) (hk : lv = true → s.bitF R.SAFE_OUT_STAT_LEVEL k = true) : SO s (s.setBitF R.SAFE_OUT_STAT_LEVEL k lv) := by
  refine ⟨fun q i _ h => (f_setBitF ..).trans (f_setF_apart _ _ _ _ _ _ h), fun q i j h => (f_setBitF ..).trans (f_setF_blk _ _ _ _ _ _ ?_), ⟨s.safe.outs, ?_⟩, QExt.of_eq (by rw [State.setBitF_sys]), State.shortTs_eq (by rw [State.setBitF_now]) (by rw [State.setBitF_clk]) (by rw [State.setBitF_net]), fun k' h' => ?_⟩
  · rcases h with h | h | h | h | h <;> (rw [h]; decide)
  · rw [State.setBitF_safe]
  · by_cases e : k' = k
    · subst e
      cases lv
      · by_cases h6 : k' < 6
        · rw [bitF_setBitF _ _ _ _ _ _ _ (by decide) h6, if_pos rfl]
        · unfold State.bitF
          exact Nat.testBit_lt_two_pow (Nat.lt_of_lt_of_le (f_lt _ R.SAFE_OUT_STAT_LEVEL 0 0) (Nat.pow_le_pow_right (by decide) (by simp only [R.SAFE_OUT_STAT_LEVEL]; omega)))
      · rw [hk rfl] at h'; cases h'
    · rw [bitF_setBitF_ne _ _ _ _ _ _ _ (by decide) e]; exact h'
theorem so_safeOut (s : State) (k : Nat) (o : SafeOut) : SO s (s.setSafeOut k o) :=
  ⟨fun _ _ _ _ => f_upd_safe .., fun _ _ _ _ => f_upd_safe .., ⟨_, rfl⟩, QExt.of_eq rfl, State.shortTs_eq rfl rfl rfl, fun k h => by rw [← h]; exact bitF_of_f (f_upd_safe ..)⟩
theorem setOut_cases (s : State) (k : Nat) : (s.bitF R.SAFE_OUT_STAT_LEVEL k = false ∧ s.setOut k false = s) ∨
    ∃ o, let v := ((s.setBitF R.SAFE_OUT_STAT_LEVEL k false).setSafeOut k o).emit (.safePin k false); s.setOut k false = v ∨ s.setOut k false = v.stoDown := by
  simp only [State.setOut, Bool.false_and, Bool.false_eq_true, if_false, Bool.not_false, if_true]
  split
  · exact Or.inl ⟨by assumption, rfl⟩
  · by_cases h2 : 2 ≤ k
    · rw [if_pos h2]; exact Or.inr ⟨_, Or.inl rfl⟩
    · rw [if_neg h2]; exact Or.inr ⟨_, Or.inr rfl⟩
theorem so_setOut (s : State) (k : Nat) : SO s (s.setOut k false) := by
  have h1 : ∀ o, SO s (((s.setBitF R.SAFE_OUT_STAT_LEVEL k false).setSafeOut k o).emit (.safePin k false)) := fun o =>
    (so_level s k false (fun h => by cases h)).trans ((so_safeOut ..).trans (so_emit ..))
  rcases setOut_cases s k with ⟨_, e⟩ | ⟨o, e⟩
  · rw [e]; exact SO.refl s
  · rcases e with e | e
    · rw [e]; exact h1 o
    · rw [e]; exact (h1 o).trans (so_stoDown _)
theorem setOut_low (s : State) {k : Nat} (hk : k < 6) : (s.setOut k false).bitF R.SAFE_OUT_STAT_LEVEL k = false := by
  have h1 : ∀ o, (((s.setBitF R.SAFE_OUT_STAT_LEVEL k false).setSafeOut k o).emit (.safePin k false)).bitF R.SAFE_OUT_STAT_LEVEL k = false := by
    intro o
    have e := bitF_setBitF s R.SAFE_OUT_STAT_LEVEL k false 0 0 k (by decide) hk
    rw [if_pos rfl] at e
    exact (so_emit ..).low k ((so_safeOut ..).low k e)
  rcases setOut_cases s k with ⟨l, e⟩ | ⟨o, e⟩
  · rw [e]; exact l
  · rcases e with e | e
    · rw [e]; exact h1 o
    · rw [e]; exact (so_stoDown _).low k (h1 o)
theorem outs_fold (l : List Nat) (h : Nat) : ∀ s : State, SO s (l.foldl (fun s k => if outHalf k = h then s.setOut k false else s) s)
    ∧ ∀ k ∈ l, k < 6 → outHalf k = h → (l.foldl (fun s k => if outHalf k = h then s.setOut k false else s) s).bitF R.SAFE_OUT_STAT_LEVEL k = false := by
  induction l with
  | nil => intro s; exact ⟨SO.refl s, by simp⟩
  | cons a l ih =>
    intro s
    rw [List.foldl_cons]
    have st : SO s (if outHalf a = h then s.setOut a false else s) := by
      split
      · exact so_setOut ..
      · exact SO.refl s
    obtain ⟨i1, i2⟩ := ih (if outHalf a = h then s.setOut a false else s)
    refine ⟨st.trans i1, fun k hk h6 hh => ?_⟩
    rcases List.mem_cons.1 hk with rfl | hk
    · refine i1.low k ?_
      rw [if_pos hh]; exact setOut_low s h6
    · exact i2 k hk h6 hh
theorem putBit_true (n i j : Nat) : (putBit n i true).testBit j = (n.testBit j || decide (j = i)) := by
  rw [testBit_put]
  by_cases h : j = i <;> simp [h]
theorem dem_fold (s : State) (l : List Nat) (c : Nat → Bool) (hc : ∀ x ∈ l, c x = true) : ∀ d, (∀ j, d.testBit j = true → (l.foldl (fun d x => if c x = true then putBit d (s.f R.SAFE_AX_CFG_DEM x) true else d) d).testBit j = true)
    ∧ ∀ x ∈ l, (l.foldl (fun d x => if c x = true then putBit d (s.f R.SAFE_AX_CFG_DEM x) true else d) d).testBit (s.f R.SAFE_AX_CFG_DEM x) = true := by
  induction l with
  | nil => intro d; exact ⟨fun _ h => h, by simp⟩
  | cons a l ih =>
    intro d
    rw [List.foldl_cons, if_pos (hc a (List.mem_cons_self ..))]
    obtain ⟨i1, i2⟩ := ih (fun x hx => hc x (List.mem_cons_of_mem _ hx)) (putBit d (s.f R.SAFE_AX_CFG_DEM a) true)
    refine ⟨fun j hj => i1 j (by rw [putBit_true, hj]; rfl), fun x hx => ?_⟩
    rcases List.mem_cons.1 hx with rfl | hx
    · exact i1 _ (by rw [putBit_true]; simp)
    · exact i2 x hx
theorem demand_all (s : State) (h : s.halfFlt 0 = true ∨ s.halfFlt 1 = true) {x : Nat} (hx : x < 4) (he : s.b R.SAFE_AX_CFG_EN x = true) : s.demandLines.testBit (s.f R.SAFE_AX_CFG_DEM x) = true := by
  unfold State.demandLines
  refine (dem_fold s s.axes _ (fun y _ => ?_) 0).2 x ?_
  · rcases h with h | h <;> simp [h]
  · simp [State.axes, hx, he]
theorem SO.half {s s' : State} (h : SO s s') (k : Nat) : s'.halfFlt k = s.halfFlt k := by
  unfold State.halfFlt
  split
  · exact b_of_f (h.f R.SAFE_STAT_HALF_A_FLT 0 rfl (Or.inr (Or.inl (by decide))))
  · exact b_of_f (h.f R.SAFE_STAT_HALF_B_FLT 0 rfl (Or.inr (Or.inl (by decide))))
/-- What a half fault does and leaves alone. -/
theorem halfFault_facts (s : State) {h cause : Nat} (hh : h < 2) (hc : cause < 16) (hf : s.halfFlt h = false) (hr : s.room) :
    HalfFaults s (s.halfFault h cause) h cause
    ∧ (∀ q : FRef, ∀ i, q.blk = .safe → q.key i 0 ≠ 4 → Apart q R.SAFE_OUT_STAT_LEVEL i 0 0 0 → (s.halfFault h cause).f q i = s.f q i)
    ∧ (∃ o d, (s.halfFault h cause).safe = { s.safe with outs := o, dem := d })
    ∧ (s.halfFault h cause).shortTs = s.shortTs ∧ QExt s (s.halfFault h cause) := by
  unfold State.halfFault
  rw [if_neg (by rw [hf]; decide)]
  dsimp only
  generalize hv : (if h = 0 then (s.setB R.SAFE_STAT_HALF_A_FLT true).setF R.SAFE_STAT_FCAUSE_A cause
      else (s.setB R.SAFE_STAT_HALF_B_FLT true).setF R.SAFE_STAT_FCAUSE_B cause) = v
  have v1 : v.halfFlt h = true ∧ v.f (if h = 0 then R.SAFE_STAT_FCAUSE_A else R.SAFE_STAT_FCAUSE_B) = cause := by
    rw [← hv]
    unfold State.halfFlt
    split
    · refine ⟨?_, ?_⟩
      · rw [b_setF_bits _ _ _ _ _ _ (by decide), b_setB_same _ _ _ _ _ (by decide)]
      · rw [f_setF_same _ _ _ _ _ (by decide)]; exact Nat.mod_eq_of_lt hc
    · refine ⟨?_, ?_⟩
      · rw [b_setF_bits _ _ _ _ _ _ (by decide), b_setB_same _ _ _ _ _ (by decide)]
      · rw [f_setF_same _ _ _ _ _ (by decide)]; exact Nat.mod_eq_of_lt hc
  have v2 : ∀ q : FRef, ∀ i, q.key i 0 ≠ 4 → v.f q i = s.f q i := by
    intro q i hq
    rw [← hv]
    split
    · exact (f_setF_key _ _ hq).trans (f_setF_key _ _ hq)
    · exact (f_setF_key _ _ hq).trans (f_setF_key _ _ hq)
  have v3 : v.safe = s.safe ∧ v.sys = s.sys ∧ v.shortTs = s.shortTs := by
    rw [← hv]
    split
    · exact ⟨by rw [State.setF_safe, State.setB_safe], by rw [State.setF_sys, State.setB_sys], by rw [State.setF_shortTs, State.setB_shortTs]⟩
    · exact ⟨by rw [State.setF_safe, State.setB_safe], by rw [State.setF_sys, State.setB_sys], by rw [State.setF_shortTs, State.setB_shortTs]⟩
  clear hv
  have rp : Reports s (v.post E.HALF_FAULT (subject h) (nw cause)) E.HALF_FAULT (subject h) (nw cause) :=
    (State.post_sys _ _ _ _ _ (by unfold State.room; rw [v3.2.1]; exact hr)).of_eq (by rw [v3.2.1]) v3.2.2
  have p1 := so_post v E.HALF_FAULT (subject h) (nw cause) 0
  obtain ⟨o1, o2⟩ := outs_fold (List.range 6) h (v.post E.HALF_FAULT (subject h) (nw cause))
  have ox := p1.trans o1
  generalize hw : (List.range 6).foldl (fun s k => if outHalf k = h then s.setOut k false else s) (v.post E.HALF_FAULT (subject h) (nw cause)) = w at *
  clear hw
  have fin : ∀ z, QExt w z → z.shortTs = w.shortTs → (∀ q : FRef, ∀ i, q.blk = .safe → z.f q i = w.f q i) → (∃ d, z.safe = { w.safe with dem := d }) →
      (z.b R.SAFE_CTL_ARMED = true → z.safe.dem = w.demandLines) →
      HalfFaults s z h cause ∧ (∀ q : FRef, ∀ i, q.blk = .safe → q.key i 0 ≠ 4 → Apart q R.SAFE_OUT_STAT_LEVEL i 0 0 0 → z.f q i = s.f q i)
        ∧ (∃ o d, z.safe = { s.safe with outs := o, dem := d }) ∧ z.shortTs = s.shortTs ∧ QExt s z := by
    intro z z1 z2 z3 z4 z5
    have zh : z.halfFlt h = true := by
      have : w.halfFlt h = true := by rw [ox.half, v1.1]
      rw [← this]
      unfold State.halfFlt
      split
      · exact b_of_f (z3 _ 0 rfl)
      · exact b_of_f (z3 _ 0 rfl)
    refine ⟨⟨zh, ?_, fun k hk ho => ?_, fun ha x hx he => ?_, rp.posts (o1.q.trans z1)⟩, fun q i hq hk ha => ?_, ?_, ?_, ?_⟩
    · rw [z3 _ 0 (by split <;> rfl), ox.f _ 0 (by split <;> rfl) (by split <;> exact Or.inr (Or.inl (by decide))), v1.2]
    · rw [bitF_of_f (z3 R.SAFE_OUT_STAT_LEVEL 0 rfl)]; exact o2 k (List.mem_range.2 hk) hk ho
    · rw [z5 ha, z3 R.SAFE_AX_CFG_DEM x rfl]
      refine demand_all w ?_ hx (by rw [← he]; exact (b_of_f (z3 R.SAFE_AX_CFG_EN x rfl)).symm)
      have : w.halfFlt h = true := by rw [ox.half, v1.1]
      have h2 : h = 0 ∨ h = 1 := by omega
      rcases h2 with rfl | rfl
      · exact Or.inl this
      · exact Or.inr this
    · rw [z3 q i hq, ox.f q i hq ha, v2 q i hk]
    · obtain ⟨d, e⟩ := z4
      obtain ⟨o, e'⟩ := ox.safe
      exact ⟨o, d, by rw [e, e', v3.1]⟩
    · rw [z2, ox.ts, v3.2.2]
    · exact (QExt.of_eq (congrArg _ v3.2.1)).trans (ox.q.trans z1)
  cases ha : w.b R.SAFE_CTL_ARMED
  · rw [State.doIf_not rfl]
    exact fin w (QExt.refl w) rfl (fun _ _ _ => rfl) ⟨_, rfl⟩ (fun h => by rw [ha] at h; cases h)
  · rw [State.doIf_of rfl]
    unfold State.setDemands
    have x1 : ∀ x : State, x.safe = { w.safe with dem := w.demandLines } → x.sys = w.sys → x.shortTs = w.shortTs → (∀ q : FRef, ∀ i, x.f q i = w.f q i) → 
        x.settle.safe = { w.safe with dem := w.demandLines } ∧ QExt w x.settle ∧ x.settle.shortTs = w.shortTs ∧ ∀ q : FRef, ∀ i, q.blk = .safe → x.settle.f q i = w.f q i := by
      intro x h1 h2 h3 h4
      have st := tch_settle (s := x)
      exact ⟨(st.1 .safe (by decide)).trans h1, (QExt.of_eq (congrArg _ h2)).trans (st.q (by decide)), (st.shortTs (by decide)).trans h3,
        fun q i hq => (st.f q i 0 (by rw [hq]; decide)).trans (h4 q i)⟩
    obtain ⟨y1, y2, y3, y4⟩ := x1 { w with safe := { w.safe with dem := w.demandLines } } rfl rfl (State.shortTs_eq rfl rfl rfl) (fun q i => f_upd_safe ..)
    exact fin _ y2 y3 y4 ⟨_, y1⟩ (fun _ => by rw [y1])

end Sys2Proof.Machine
end

