-- ==== Sys2Proof/Tests/Slice0.lean ====
section
/-! SUPPORT. Tests: for every statement with hypotheses, and for each of its clauses, a state and operands that meet the hypotheses together; ill-formed
commands that the check of well-formedness refuses; and the manual's worked examples. -/
namespace Sys2Proof.Tests
open Sys2Proof Sys2Proof.Machine
set_option maxRecDepth 100000
set_option Elab.async false

/-! ## Well-formedness: every check refuses a command that breaks it -/

theorem test_illformed_registerWrite_to_stwr_0 : ([.registerWrite 0 2 0 0,
    .registerWrite 0 0 1048576 0,
    .registerWrite 0 0 2 0,
    .misalignedAccess 0 2 0 1 false,
    .misalignedAccess 0 0 1048576 1 false,
    .misalignedAccess 0 0 0 0 false,
    .misalignedAccess 0 0 0 4097 false,
    .misalignedAccess 0 0 0 4 false,
    .reservedAddressAccess 0 2 0 false,
    .reservedAddressAccess 0 0 1048576 false,
    .reservedAddressAccess 0 0 2 false,
    .pwmTimeLo 0 2,
    .netNtimeLo 0 2,
    .sysEvtSeqLo 0 2,
    .sysEvtOldLo 0 2,
    .flitSend 0 24 0 (.port 8 0) (.strd 0),
    .flitSend 0 0 15 (.port 8 0) (.strd 0),
    .flitReceive 0 148 [] [],
    .strd 0 24 0 0 0,
    .strd 0 0 15 0 0,
    .strd 0 0 0 16777216 0,
    .stwr 0 24 0 0 0 0,
    .stwr 0 0 15 0 0 0,
    .stwr 0 0 0 16777216 0 0] : List Instr).all (fun i => !i.wf) = true := by decide +kernel

theorem test_illformed_samplingInstant_to_compareEffective_1 : ([.samplingInstant 0 24 (List.replicate 4 0) none,
    .samplingInstant 0 0 [] none,
    .conversionPhaseEnd 0 24,
    .conversionEnd 0 24,
    .injectedTrigger 0 24,
    .sdConversionEnd 0 48 0 [],
    .sdProtectionOutput 0 48 0 [],
    .sdStuck 0 48,
    .sdResumed 0 48,
    .ntimeGeneratorEvent 0 8,
    .pairFaultClear 0 2 0,
    .quadEdge 0 8 false false 0 0,
    .indexLatch 0 8 false false 0 0 0,
    .hallTransition 0 8 0 0 0 0,
    .hallTransition 0 0 8 0 0 0,
    .serialFrameEnd 0 8 0 0 0 false false 0,
    .serTimeout 0 8 0,
    .excFault 0 8,
    .lossClear 0 2 0 0,
    .lossClear 0 0 8 0,
    .inputArrival 0 512 (.strd 0),
    .inputDeadline 0 512,
    .evaluation 0 512 {},
    .compareEffective 0 28] : List Instr).all (fun i => !i.wf) = true := by decide +kernel

theorem test_illformed_wdExpired_to_slotStarted_2 : ([.wdExpired 0 28,
    .ctxFaultClear 0 2 0 0,
    .ctxFaultClear 0 0 512 0,
    .paramTransaction 0 512 0 false 0 0 [],
    .paramTransaction 0 0 8 false 0 0 [],
    .forcedMigration 0 512,
    .coastTimeout 0 512,
    .ascHold 0 512,
    .dischTimeout 0 512,
    .alignEnd 0 4,
    .commutation 0 4,
    .zeroCross 0 4 [],
    .rampEnd 0 4,
    .bcStall 0 4,
    .bcRetry 0 4,
    .gridReturn 0 512,
    .rtTrip 0 512,
    .blockEnd 0 512,
    .resyncTimeout 0 512,
    .prechargeFail 0 512,
    .mainSettled 0 512,
    .bmsStale 0 512,
    .carrierEvent 0 28,
    .slotStarted 0 28] : List Instr).all (fun i => !i.wf) = true := by decide +kernel

theorem test_illformed_faultReturn_to_rejoin_3 : ([.faultReturn 0 144 none 0,
    .faultReturn 0 0 none 1,
    .bootUv 0 4 0,
    .bootUv 0 0 3,
    .bootUvRelease 0 4 0,
    .bootUvRelease 0 0 3,
    .vdsFault 0 4 0 0 0,
    .vdsFault 0 0 6 0 0,
    .vdsFault 0 0 0 1 0,
    .tripLatchClear 0 2 0,
    .shortClear 0 2 false 0,
    .cmpTrip 0 16 0 0 0,
    .cmpTrip 0 0 96 0 0,
    .cmpTrip 0 0 0 1 0,
    .lifeRecord 0 28 {} 0,
    .safetyCycleStart 0 0 0 4,
    .safetyEvaluation 0 4,
    .safetyResult 0 4,
    .lockstepMismatch 0 4,
    .faultMessage 0 2,
    .crossLinkLoss 0 2,
    .split 0 2 0,
    .splitDone 0 4 0 0,
    .rejoin 0 2 0 false] : List Instr).all (fun i => !i.wf) = true := by decide +kernel

theorem test_illformed_rejoinDone_to_vtest_4 : ([.rejoinDone 0 4,
    .splitTimeout 0 4,
    .sinChange 0 2 0 false 0,
    .sinChange 0 0 8 false 0,
    .sinChange 0 0 0 false 1,
    .sinDiscrepancy 0 8,
    .srstPress 0 none 1,
    .srstRelease 0 none 1,
    .readbackSample 0 2 0,
    .readbackSample 0 0 64,
    .testPulseStart 0 6,
    .testPulseEnd 0 6 false false,
    .testMissed 0 6,
    .pwLockoutEnd 0 8,
    .req 0 2 0,
    .challengeReady 0 2,
    .submit 0 2 0,
    .responseVerified 0 2,
    .challengeTimeout 0 2,
    .close 0 2 0,
    .sessionIdleTimeout 0 2,
    .sessionLockEnd 0 2,
    .kdbg 0 2 0,
    .vtest 0 2 0] : List Instr).all (fun i => !i.wf) = true := by decide +kernel

theorem test_illformed_give_to_ringDrained_5 : ([.give 0 2 0,
    .withdraw 0 2 0,
    .fuse 0 2 0 false,
    .commit 0 2 0,
    .pwSet 0 2 0,
    .pwDel 0 2 0,
    .load 0 2 0,
    .delete 0 2 0,
    .sakRemoval 0 8,
    .mkaFrame 0 2 {},
    .erase 0 2 0,
    .supplyLow 0 8 0 0,
    .supplyOk 0 [] 0,
    .sysRst 0 2 0,
    .start 0 2 0 none,
    .updateAbort 0 2 0,
    .verify 0 2 0,
    .revoke 0 2 0,
    .ringEnable 0 2 false 0 0,
    .ringEnable 0 0 false 32 0,
    .ringDisable 0 2 false 0 0,
    .ringDisable 0 0 false 32 0,
    .ringDrained 0 2 0,
    .ringDrained 0 0 32] : List Instr).all (fun i => !i.wf) = true := by decide +kernel

theorem test_illformed_sqTailDoorbell_to_set_6 : ([.sqTailDoorbell 0 2 0 0,
    .sqTailDoorbell 0 0 32 0,
    .cqHeadDoorbell 0 2 0 0,
    .cqHeadDoorbell 0 0 32 0,
    .descriptorFetch 0 2 0 (List.replicate 64 0) none,
    .descriptorFetch 0 0 32 (List.replicate 64 0) none,
    .descriptorFetch 0 0 0 [] none,
    .descriptorFetch 0 0 0 (List.replicate 64 0) (some []),
    .completion 0 2 0,
    .completion 0 0 32,
    .irqTimer 0 2 0,
    .irqTimer 0 0 32,
    .ringError 0 2 false 0 0,
    .ringError 0 0 false 32 0,
    .linkLoss 0 3 0,
    .linkLoss 0 0 2,
    .hostLost 0 2,
    .frameReceive 0 2 false none 0 [],
    .ptpSync 0 2 0 0,
    .ptpAnnounce 0 2 {},
    .ptpDelay 0 2 0 0 0 0,
    .announceTimeout 0 2,
    .syncLoss 0 2,
    .set 0 2 0] : List Instr).all (fun i => !i.wf) = true := by decide +kernel

theorem test_illformed_linkUp_to_canObjectEnable_7 : ([.linkUp 0 2 0,
    .linkUp 0 0 4,
    .linkDown 0 2,
    .launch 0 16,
    .launchDeadline 0 16,
    .frameItem 0 24 0 0 none [],
    .frameItem 0 0 15 0 none [],
    .canFrameReceive 0 4 0 false false false false false [] 0 0,
    .canFrameReceive 0 0 536870912 false false false false false [] 0 0,
    .canFrameReceive 0 0 2048 false false false false false [] 0 0,
    .canFrameReceive 0 0 0 false false false false false (List.replicate 65 0) 0 0,
    .canItemDelivered 0 256,
    .canTxItem 0 24 0 0 none [],
    .canTxItem 0 0 15 0 none [],
    .arbitrationStart 0 4 0,
    .arbitrationStart 0 0 4,
    .canTxDone 0 4 0,
    .canBusError 0 4 0 false false 0 0 false 0,
    .canBusError 0 0 8 false false 0 0 false 0,
    .recover 0 4 0 0,
    .recover 0 0 2 0,
    .recovered 0 4,
    .referenceInstant 0 4,
    .canObjectEnable 0 256 0 0] : List Instr).all (fun i => !i.wf) = true := by decide +kernel

theorem test_illformed_canObjectEnable_to_cmpRelease_8 : ([.canObjectEnable 0 0 2 0,
    .refEn 0 4 0 0,
    .refEn 0 0 2 0,
    .refLost 0 2 0 0,
    .refQualified 0 2 0,
    .lockLost 0 3 [],
    .backupHop 0 3,
    .slotHop 0 3,
    .pllRelocked 0 3 0,
    .bandCopy 0 3 0 0,
    .go 0 2 0,
    .ueKernel 0 24 0 0 0,
    .ueKernel 0 0 16 0 0,
    .ueKernel 0 0 0 2 0,
    .scrubRead 0 4 0 0 0 0 false none,
    .kernelTestDone 0 24 0 false false,
    .kernelTestDone 0 0 16 false false,
    .test 0 2 0,
    .tokenRequest 0 516,
    .tokenWithdraw 0 516,
    .pwrTokCfg 0 2 0,
    .referenceEdge 0 28,
    .cmpRelease 0 16 0 0 0,
    .cmpRelease 0 0 96 0 0] : List Instr).all (fun i => !i.wf) = true := by decide +kernel

theorem test_illformed_cmpRelease_to_mkaPeerTimeout_9 : ([.cmpRelease 0 0 0 1 0,
    .vdsBlankedRising 0 4 0 0,
    .vdsBlankedRising 0 0 6 0,
    .busMasterEnable 0 2,
    .msixVectorUnmask 0 2 0,
    .msixVectorUnmask 0 0 32,
    .ptpMessageInterval 0 2 0,
    .ptpMessageInterval 0 0 4,
    .frameTransmitEnd 0 2,
    .protocolExceptionEnd 0 4,
    .mkaPeerTimeout 0 2 []] : List Instr).all (fun i => !i.wf) = true := by decide +kernel

theorem test_wellformed : ([.registerWrite 0 1 0xFFFFC 0, .misalignedAccess 0 1 0xFFFFF 4 true, .samplingInstant 0 23 [0, 0, 0, 0] none, .hallTransition 0 7 7 0 0 0,
    .canFrameReceive 0 3 0x1FFFFFFF true false false false false [] 0 0, .scrubRead 0 3 0 0 0 0 false none] : List Instr).all (·.wf) = true := by decide +kernel

/-! ## The manual's worked examples -/

/-- R12: the example after it. -/
theorem test_short_time_is_512_ns_ahead : shortDiff 0x00000100 0xFFFFFF00 = 512 := by decide +kernel
/-- The edge at 1,234.75 ns: 617 ticks, fine 3 (example after R9), in steps of 250 ps. -/
theorem test_edge_is_617_ticks_fine_3 : cmpQ { mode := .compare, ticks := 617, fine := 3 } = 4939 := by decide +kernel
/-- R422: h and OFS of nodes 0x0_1234 and 0x0_1235 with WINDOW = 60 s. -/
theorem test_wake_hash : wakeHash 0x01234 = 2515 ∧ wakeHash 0x01235 = 43018 ∧ wakeOfs 0x01234 60 / 1000000 = 2302
    ∧ wakeOfs 0x01235 60 / 1000000 = 39384 := by decide +kernel
/-- R420: a 1,518-byte frame and the interframe gap take 12,336 ns at 1,000 Mb/s. -/
theorem test_frame_time : (State.reset.setF R.NET_PORT_STAT_SPEED 2 0).frameTime 0 1518 = 12336 * nsQ := by decide +kernel
/-- Table 19.5: bytes 16 to 31 of the entry of a TRIP_ONSET (the example after it). -/
theorem test_log_entry_bytes :
    (LogEntry.bytes { ntime := 0, seq := 0, cls := 9, flags := 0, code := 1, subject := 3, w0 := 1, w1 := 0x100 }).drop 16
      = [9, 0, 1, 0, 3, 0, 0, 0, 1, 0, 0, 0, 0, 1, 0, 0] := by decide +kernel
/-- R44: half of the range at gain 1, below it, its upper end at gain 1 and at gain 8. -/
theorem test_sar_codes : sarCode 1250000000 0 = 32768 ∧ sarCode (-1) 0 = 0 ∧ sarCode 2500000000 0 = 65535 ∧ sarCode 312500000 3 = 65535
    := by decide +kernel
/-- Table 7.4: 30.0006 % of the half-period of BS03 is 18,750 ticks and FINE 3, VAL0 = 150,003. -/
theorem test_compare_value : cmpQ { mode := .compare, ticks := 18750, fine := 3 } = 0x249F3 := by decide +kernel

/-! ## States that meet the hypotheses of the statements -/

/-- A sealed device in service in DEPLOYED: clocks run since instant 0, the link is up, function 0 carries OEM and function 1 OPR. -/
def live : State :=
  (({ State.reset with
      pwr := { porst := false }, husk := { firmware := true, pf0Base := true }
      hostq := { linkUp := true, bme := 3 }, clk := { ungatedAt := some 0 } }).setB R.CFG_STAT_SEALED true).setF R.HUSK_ID_LIFECYCLE 3
/-- A session of a domain is open on a function. -/
def session (s : State) (fn dom : Nat) : State := (s.setF R.HUSK_SESS_STAT_PHASE 2 0 fn).setF R.HUSK_SESS_STAT_DOMAIN dom 0 fn
/-- The state after a write at instant 0 has passed the husk. -/
def reqOnce (s : State) (fn : Nat) (r : FRef) (data : Word) (i j : Nat) : State := ((s.start 0).actionWrite fn r data i j).1
/-- Context 511 is enabled on kernel L01.0. -/
def loopOn (s : State) : State :=
  ((((s.setB R.LOOP_CTL_EN true).setB R.LOOP_CTX_CFG_EN true 511).setF R.LOOP_CTX_CFG_POD 1 511).setF R.LOOP_CTX_CFG_KMASK 1 511).setF R.LOOP_CTX_CFG_KIND 1 511
/-- Context 511 runs on kernel L01.0, and context 510 shares it. -/
def ctx1 (x : CtxSt) (y : CtxSt := {}) : State :=
  { ((((loopOn live).setB R.LOOP_CTX_CFG_EN true 510).setF R.LOOP_CTX_CFG_POD 1 510).setF R.LOOP_CTX_CFG_KMASK 3 510).setF R.LOOP_CTX_FLT_MISS_N 3 511 with
    loop := { ctx := [(510, y), (511, x)] } }
/-- Slot 23 belongs to context 511 (A) and context 510 (B); AUX bridge 3 belongs to context 511. -/
def pwm1 : State :=
  (((((((((ctx1 {}).setB R.PWM_CTL_EN true).setB R.PWM_SLOT_CFG_EN true 23).setF R.PWM_SLOT_CFG_TOPO 1 23).setB R.PWM_SLOT_OWN_A_EN true 23).setF
    R.PWM_SLOT_OWN_OWNER_A 511 23).setB R.PWM_SLOT_OWN_B_EN true 23).setF R.PWM_SLOT_OWN_OWNER_B 510 23).setB R.AUX_BR_CFG_OWN_EN true 3).setF
    R.AUX_BR_CFG_OWNER 511 3
/-- The island is armed, pairs 0 to 2 in LOCKSTEP, pair 3 in a given state. -/
def safe1 (st : Nat) : State :=
  ((((live.setB R.SAFE_CTL_ARMED true).setF R.SAFE_PAIR_STATE st 3).setF R.SAFE_PAIR_STATE 1 0).setF R.SAFE_PAIR_STATE 1 1).setF R.SAFE_PAIR_STATE 1 2
/-- Function 1: CQ 3 runs for OPR with 16 entries, SQ 31 feeds it. -/
def ring0 : State :=
  ((((live.setB R.HOSTQ_CQ_CFG_EN true 3 1).setF R.HOSTQ_CQ_CFG_SIZE 4 3 1).setF R.HOSTQ_CQ_STAT_STATE 1 3 1).setF R.HOSTQ_CQ_STAT_DOMAIN 2 3 1).setB R.HOSTQ_CQ_STAT_PHASE true 3 1
def ring1 : State :=
  ((((ring0.setB R.HOSTQ_SQ_CFG_EN true 31 1).setF R.HOSTQ_SQ_CFG_SIZE 4 31 1).setF R.HOSTQ_SQ_CFG_CQ 3 31 1).setF R.HOSTQ_SQ_STAT_STATE 1 31 1).setF R.HOSTQ_SQ_STAT_DOMAIN 2 31 1
/-- Port 1 is up at 1,000 Mb/s and its queues are enabled. -/
def netUp (n : NetSt) : State :=
  { (((((live.setB R.NET_CTL_EN true).setB R.NET_PORT_CFG_EN true 1).setB R.NET_PORT_STAT_LINK true 1).setF R.NET_PORT_STAT_SPEED 2 1).setB R.NET_LQ_CFG_EN true 8).setB R.NET_LQ_CFG_EN true 15 with
    net := n, sea := { roles := [(16, 4)] }, rel := { backing := [(16, 16)] } }
/-- A header whose check words hold. -/
def hdrOf (seq svn len : Nat) : SlotHdr :=
  let h : SlotHdr := { magic := imgMagic, format := 1, hdrLen := 320, seq := seq, svn := svn, nsec := 4, len := len, keyOfs := 576, sigOfs := 896,
                       table := [{ id := 0x100, ofs := 320, len := 64 }, { id := 0x200, ofs := 384, len := 64 }, { id := 0x300, ofs := 448, len := 64 }, { id := 0x500, ofs := 512, len := 64 }] }
  { h with crc := crcWords ((hdrWords h).take 80) }
/-- An image of four sections, the last as given. -/
def imgOf (h : SlotHdr) (base : Bool) (keys : List (BitVec 776)) : SlotImage :=
  { hdr := h, secs := [.roleMap [] [] 0 0 0 [] [], .programs [], .contexts [], .huskPolicy base keys], key := { kind := 2 } }
/-- Every PLL has a slot that runs from REFCLK. -/
def pllsOn (s : State) : State :=
  (((((s.setB R.CLK_SLOT_A_VALID true 0 0).setF R.CLK_SLOT_A_N 60 0 0).setB R.CLK_SLOT_A_VALID true 1 0).setF R.CLK_SLOT_A_N 40 1 0).setB
    R.CLK_SLOT_A_VALID true 2 0).setF R.CLK_SLOT_A_N 40 2 0
/-- The boot before SEALED: slot 1 in trial, both slots with a header. -/
def boot1 (rel placed : Bool) : State :=
  { (live.setB R.CFG_STAT_SEALED false).setB R.REL_STAT_BOOT_BIST_DONE true with
    clk := {}, cfg := { slots := [(0, imgOf (hdrOf 7 64 992) true []), (1, imgOf (hdrOf 8 0 992) true [])], order := [1, 0], first := some 1, released := rel, placed := placed, loaded := if rel then [0x100, 0x200, 0x300] else [] } }
def hitAddr : RegHit := (findReg 0x20044 0).get (by decide +kernel)
theorem canWrote_eq (x : State × Option (RegHit × List FieldDef)) (h : x.2.isSome = true) :
    x = (x.1, some ((x.2.getD (hitAddr, [])).1, (x.2.getD (hitAddr, [])).2)) := by
  rcases x with ⟨a, _ | ⟨b, c⟩⟩
  · simp at h
  · rfl

def dstCfg : FlitDst := .port 8 2
theorem wit_MisalignedAccessIsDiscarded_1 : (1 < 2) ∧ (65538 < 1048576) ∧ (1 ≤ 4) ∧ (4 ≤ 4096) ∧ (¬(4 = 4 ∧ 65538 % 4 = 0))
    ∧ ((live.start 0).barOpen = true) ∧ ((live.start 0).room) := by decide +kernel
theorem wit_MisalignedAccessIsDiscarded_2 : (1 < 2) ∧ (65536 < 1048576) ∧ (1 ≤ 4096) ∧ (4096 ≤ 4096) ∧ (¬(4096 = 4 ∧ 65536 % 4 = 0))
    ∧ ((live.start 0).barOpen = true) ∧ ((live.start 0).room) := by decide +kernel
theorem wit_ReservedAddressIsReported_1 : (1 < 2) ∧ (1048572 < 1048576) ∧ (1048572 % 4 = 0) ∧ (findReg 1048572 1 = none)
    ∧ ((live.start 0).barOpen = true) ∧ ((live.start 0).room) := by decide +kernel
def fieldsOf (s : State) (h : RegHit) (fn : Nat) : List FieldDef := match s.checkWrite h fn with
  | .granted fs => fs
  | _ => []
theorem wit_GrantedWriteSetsFields_1 : (0 < 2) ∧ (131140 < 1048576) ∧ (131140 % 4 = 0) ∧ (findReg 131140 0 = some hitAddr) ∧ (hitAddr.plain = true)
    ∧ ((live.start 0).barOpen = true) ∧ ((live.start 0).blockOpen hitAddr.blk 0 true = true)
    ∧ ((live.start 0).checkWrite hitAddr 0 = WriteVerdict.granted (fieldsOf live hitAddr 0)) := by decide +kernel
def hitBase : RegHit := (findReg 0x31000 0).get (by decide +kernel)
def ringOn : State := (live.setB R.HOSTQ_SQ_CFG_EN true 0 0).setF R.HOSTQ_SQ_STAT_DOMAIN 1 0 0
theorem wit_GuardedBlocksFilterGrantedWrites_1 : (0 < 2) ∧ (200704 < 1048576) ∧ (200704 % 4 = 0) ∧ (findReg 200704 0 = some hitBase)
    ∧ ((ringOn.start 0).barOpen = true) ∧ ((ringOn.start 0).blockOpen hitBase.blk 0 true = true)
    ∧ ((ringOn.start 0).checkWrite hitBase 0 = WriteVerdict.granted (fieldsOf ringOn hitBase 0)) ∧ ((ringOn.start 0).ringBaseHeld hitBase = true)
    := by decide +kernel
def oprLive : State := session live 1 2
def hitPtp : RegHit := (findReg 0xA0040 1).get (by decide +kernel)
def ptpRun : State := (session live 1 2).setB R.NET_CTL_PTP_EN true
def hitOvr : RegHit := (findReg 0x45044 0).get (by decide +kernel)
def ovrSet : State := live.setF R.MEAS_INJ_OVR_OVR 3
theorem wit_GuardedBlocksFilterGrantedWrites_2 : (1 < 2) ∧ (655424 < 1048576) ∧ (655424 % 4 = 0) ∧ (findReg 655424 1 = some hitPtp)
    ∧ ((ptpRun.start 0).barOpen = true) ∧ ((ptpRun.start 0).blockOpen hitPtp.blk 1 true = true)
    ∧ ((ptpRun.start 0).checkWrite hitPtp 1 = WriteVerdict.granted (fieldsOf ptpRun hitPtp 1)) ∧ (hitPtp.blk = Blk.net)
    ∧ ((ptpRun.start 0).netFields hitPtp (fieldsOf ptpRun hitPtp 1) = []) := by decide +kernel
theorem wit_GuardedBlocksFilterGrantedWrites_3 : (0 < 2) ∧ (282692 < 1048576) ∧ (282692 % 4 = 0) ∧ (findReg 282692 0 = some hitOvr)
    ∧ ((ovrSet.start 0).barOpen = true) ∧ ((ovrSet.start 0).blockOpen hitOvr.blk 0 true = true)
    ∧ ((ovrSet.start 0).checkWrite hitOvr 0 = WriteVerdict.granted (fieldsOf ovrSet hitOvr 0)) ∧ (hitOvr.blk = Blk.meas) ∧ (hitOvr.key ≠ 4)
    := by decide +kernel
def hitCfg : RegHit := (findReg 0x20044 1).get (by decide +kernel)
def hitSeq : RegHit := (findReg 0x40000 0).get (by decide +kernel)
theorem wit_RefusedWriteIsDiscarded_1 : (1 < 2) ∧ (131140 < 1048576) ∧ (131140 % 4 = 0) ∧ (findReg 131140 1 = some hitCfg) ∧ (hitCfg.blk ≠ Blk.hostq)
    ∧ ((live.start 0).barOpen = true) ∧ ((live.start 0).blockOpen hitCfg.blk 1 true = true)
    ∧ ((live.start 0).checkWrite hitCfg 1 = WriteVerdict.refused 0) := by decide +kernel
theorem wit_RefusedWriteIsDiscarded_2 : (0 < 2) ∧ (262144 < 1048576) ∧ (262144 % 4 = 0) ∧ (findReg 262144 0 = some hitSeq) ∧ (hitSeq.blk ≠ Blk.hostq)
    ∧ ((live.start 0).barOpen = true) ∧ ((live.start 0).blockOpen hitSeq.blk 0 true = true)
    ∧ ((live.start 0).checkWrite hitSeq 0 = WriteVerdict.refused 1) := by decide +kernel
theorem wit_LowWordReadLatchesHighWord_1 : (0 < 2) ∧ ((live.start (2 ^ 40)).readGranted 0 (W.PWM_TIME_LO.addr 0 0) = true) := by decide +kernel
theorem wit_LowWordReadLatchesHighWord_2 : (1 < 2) ∧ ((live.start 0).readGranted 1 (W.NET_NTIME_LO.addr 0 0) = true) := by decide +kernel
theorem wit_LowWordReadLatchesHighWord_3 : (1 < 2) ∧ ((live.start 0).readGranted 1 (W.SYS_EVT_SEQ_LO.addr 0 0) = true) := by decide +kernel
theorem wit_LowWordReadLatchesHighWord_4 : (1 < 2) ∧ ((live.start 0).readGranted 1 (W.SYS_EVT_OLD_LO.addr 0 0) = true) := by decide +kernel
/-- Kernel L00.0 is backed and has the LOOP role; it may read page 0 of the store and write page 1. -/
def sea1 : State :=
  { live with
    rel := { backing := [(0, 1)] }
    sea := { roles := [(0, 1)], regions := [⟨0, 1, 1, 2, 0⟩, ⟨1, 1, 1, 0, 2⟩], store := [(3, 77), (128, 5)] } }
theorem wit_PodRouterPassesByRole_1 : ((sea1.start 0).sealed = true) ∧ (0 < 24) ∧ (0 < 15) ∧ ((sea1.start 0).backed (16 * 0 + 0) = true)
    ∧ ((sea1.start 0).mayPass (16 * 0 + 0) { dst := FlitDst.port 18 0, src := FlitSrc.kernel 0 0, payload := Payload.evt { cls := 1, code := 1, subject := 0, w0 := 0, w1 := 0, ts := 0 : Evt } : Flit } = true)
    := by decide +kernel
theorem wit_PodRouterPassesByRole_2 : ((sea1.start 0).sealed = true) ∧ (0 < 24) ∧ (0 < 15) ∧ ((sea1.start 0).backed (16 * 0 + 0) = true)
    ∧ ((sea1.start 0).mayPass (16 * 0 + 0) { dst := FlitDst.port 18 0, src := FlitSrc.kernel 0 0, payload := Payload.safWords 0 0 0 true [] : Flit } = false)
    ∧ ((sea1.start 0).room) := by decide +kernel
def someFlit : Flit := { dst := .port 18 0, src := .kernel 0 0, payload := .strd 0 }
def restQ : LinkQ := ((({} : LinkQ).push 16 someFlit).pop.get (by decide +kernel)).2
/-- A flit waits at the link from block port 25 to router 23. -/
def linked : State := { live with mesh := live.mesh.setLink 147 (({} : LinkQ).push 16 someFlit) }
theorem wit_LinkCorrectsUpToTwoBits_1 : ((linked.start 0).alive = true) ∧ (147 < 148)
    ∧ (((linked.start 0).mesh.link 147).pop = some (someFlit, restQ)) := by decide +kernel
theorem wit_LinkCorrectsUpToTwoBits_2 : ((linked.start 0).alive = true) ∧ (147 < 148)
    ∧ (((linked.start 0).mesh.link 147).pop = some (someFlit, restQ)) ∧ ([3, 4] ≠ []) ∧ ([3, 4].length ≤ 2) := by decide +kernel
theorem wit_LinkCorrectsUpToTwoBits_3 : ((linked.start 0).alive = true) ∧ (147 < 148)
    ∧ (((linked.start 0).mesh.link 147).pop = some (someFlit, restQ)) ∧ (2 < [3, 4, 5].length) ∧ ([3, 4].length ≤ 2) := by decide +kernel
theorem wit_LinkCorrectsUpToTwoBits_4 : ((linked.start 0).alive = true) ∧ (147 < 148)
    ∧ (((linked.start 0).mesh.link 147).pop = some (someFlit, restQ)) ∧ (2 < [3, 4, 5].length) ∧ (2 < [3, 4, 5].length) ∧ ((linked.start 0).room)
    := by decide +kernel
theorem wit_StoreBankServesRightsOnly_1 : ((sea1.start 0).sealed = true) ∧ (0 < 24) ∧ (0 < 15) ∧ ((sea1.start 0).backed (16 * 0 + 0) = true)
    ∧ (roleMay ((sea1.start 0).role (16 * 0 + 0)) 6 = true) ∧ ((sea1.start 0).room)
    ∧ ((sea1.start 0).storeGrant ((sea1.start 0).role (16 * 0 + 0)) 96 false = true) ∧ (0 ≤ 2) ∧ (¬96 / 32 ∈ (sea1.start 0).sea.badWords)
    := by decide +kernel
theorem wit_StoreBankServesRightsOnly_2 : ((sea1.start 0).sealed = true) ∧ (0 < 24) ∧ (0 < 15) ∧ ((sea1.start 0).backed (16 * 0 + 0) = true)
    ∧ (roleMay ((sea1.start 0).role (16 * 0 + 0)) 6 = true) ∧ ((sea1.start 0).room)
    ∧ ((sea1.start 0).storeGrant ((sea1.start 0).role (16 * 0 + 0)) 4096 false = false) := by decide +kernel
theorem wit_StoreBankServesRightsOnly_3 : ((sea1.start 0).sealed = true) ∧ (0 < 24) ∧ (0 < 15) ∧ ((sea1.start 0).backed (16 * 0 + 0) = true)
    ∧ (roleMay ((sea1.start 0).role (16 * 0 + 0)) 6 = true) ∧ ((sea1.start 0).room)
    ∧ ((sea1.start 0).storeGrant ((sea1.start 0).role (16 * 0 + 0)) 4095 false = true) ∧ (3 ≤ 3) := by decide +kernel
theorem wit_StoreBankServesRightsOnly_4 : ((sea1.start 0).sealed = true) ∧ (0 < 24) ∧ (0 < 15) ∧ ((sea1.start 0).backed (16 * 0 + 0) = true)
    ∧ (roleMay ((sea1.start 0).role (16 * 0 + 0)) 8 = true) ∧ ((sea1.start 0).storeGrant ((sea1.start 0).role (16 * 0 + 0)) 4096 true = true)
    ∧ (¬4096 / 32 ∈ (sea1.start 0).sea.badWords) ∧ ((sea1.start 0).opsOf (4096 / 32) = none) := by decide +kernel
/-- A write of kernel L00.1 has reached word 128 in the tick of instant 0. -/
def seaTwo : State := { sea1 with sea := { sea1.sea with opsTick := 0, ops := [⟨128, 9, [⟨1, 3, 6⟩]⟩] } }
theorem wit_StoreBankServesRightsOnly_5 : ((seaTwo.start 0).sealed = true) ∧ (0 < 24) ∧ (0 < 15) ∧ ((seaTwo.start 0).backed (16 * 0 + 0) = true)
    ∧ (roleMay ((seaTwo.start 0).role (16 * 0 + 0)) 8 = true) ∧ ((seaTwo.start 0).storeGrant ((seaTwo.start 0).role (16 * 0 + 0)) 4096 true = true)
    ∧ ((seaTwo.start 0).opsOf (4096 / 32) = some { word := 128, old := 9, writes := [{ src := 1, mask := 3, data := 6 : StoreOp }] : StoreOps })
    ∧ ({ word := 128, old := 9, writes := [{ src := 1, mask := 3, data := 6 : StoreOp }] : StoreOps }.writes = [{ src := 1, mask := 3, data := 6 : StoreOp }])
    ∧ ({ src := 1, mask := 3, data := 6 : StoreOp }.src ≠ srcOrder (16 * 0 + 0)) := by decide +kernel
theorem wit_StoreBankServesRightsOnly_6 : ((sea1.start 0).sealed = true) ∧ (0 < 24) ∧ (0 < 15) ∧ ((sea1.start 0).backed (16 * 0 + 0) = true)
    ∧ (roleMay ((sea1.start 0).role (16 * 0 + 0)) 8 = true) ∧ ((sea1.start 0).storeGrant ((sea1.start 0).role (16 * 0 + 0)) 0 true = false)
    ∧ ((sea1.start 0).room) := by decide +kernel
def evtFlit (lost : Nat) : QueuedEvt := ⟨⟨2, 5, 0, 1, 2, 3⟩, 0, false, lost != 0⟩
def waiting (lost : Nat) : State := { live with sys := { queue := [evtFlit lost], lostNow := lost } }
def fullQueue : State := { live with sys := { queue := List.replicate 64 ⟨⟨2, 5, 0, 1, 2, 3⟩, 0, false, false⟩ } }
theorem wit_EventLogTakesOldestAndCountsLost_1 : (((waiting 0).start 0).inReset = false) ∧ (((waiting 0).start 0).sys.queue = [evtFlit 0])
    ∧ ((evtFlit 0).lostBefore = false) := ⟨by decide +kernel, by (exact rfl), by decide +kernel⟩
theorem wit_EventLogTakesOldestAndCountsLost_2 : (((waiting 9).start 0).inReset = false) ∧ (((waiting 9).start 0).sys.queue = [evtFlit 9])
    ∧ ((evtFlit 9).lostBefore = true) := ⟨by decide +kernel, by (exact rfl), by decide +kernel⟩
theorem wit_EventLogTakesOldestAndCountsLost_3 : (1 < 2) ∧ (1048575 < 1048576) ∧ (1 ≤ 1) ∧ (1 ≤ 4096) ∧ (¬(1 = 4 ∧ 1048575 % 4 = 0))
    ∧ ((fullQueue.start 0).answers 1 1048575 true = true) ∧ (64 ≤ (fullQueue.start 0).sys.queue.length) := by decide +kernel
theorem wit_TapSelectsBypassInstead_1 : (TapInstr.extest ∈ [TapInstr.extest, TapInstr.clamp, TapInstr.highz]) ∧ (live.pwr.porst = false)
    := by decide +kernel
theorem wit_TapSelectsBypassInstead_2 : (TapInstr.highz ∈ [TapInstr.extest, TapInstr.clamp, TapInstr.highz]) ∧ (State.reset.pwr.porst = true)
    := by decide +kernel
theorem wit_TapSelectsBypassInstead_3 : (State.reset.pwr.porst = true) ∧ (∀ (c : Nat × Bool), c ∈ [(0, true), (167, false)] → c.fst < 168)
    := by decide +kernel
theorem wit_TapSelectsBypassInstead_4 : (live.b R.HUSK_DBG_STAT_KDBG_OPEN = false) ∧ (live.b R.HUSK_DBG_STAT_VTEST_OPEN = false) := by decide +kernel
theorem wit_TapSelectsBypassInstead_5 : TapInstr.preload ∈ [TapInstr.bypass, TapInstr.idcode, TapInstr.preload] := by decide +kernel
theorem wit_SarCodeIsFlooredRatio_1 : -1 < 0 := by decide +kernel
theorem wit_SarCodeIsFlooredRatio_2 : 2500000000 ≤ 2500000000 * 2 ^ 0 := by decide +kernel
theorem wit_SarCodeIsFlooredRatio_3 : (0 ≤ 2499999999) ∧ (2499999999 * 2 ^ 0 < 2500000000) := by decide +kernel
def meas1 (x : UnitSt) : State :=
  { (live.setB R.MEAS_CTL_EN true).setB R.MEAS_CTL_CAL_DONE true with meas := { units := [(23, x)] } }
theorem wit_ConverterUnitRunsItsSequences_1 : (((meas1 { phase := 1, entry := 2, until_ := 8 : UnitSt }).start 8).measOn = true)
    ∧ ((((meas1 { phase := 1, entry := 2, until_ := 8 : UnitSt }).start 8).unit 23).phase = 1)
    ∧ ((((meas1 { phase := 1, entry := 2, until_ := 8 : UnitSt }).start 8).unit 23).until_ ≤ ((meas1 { phase := 1, entry := 2, until_ := 8 : UnitSt }).start 8).now)
    := by decide +kernel
theorem wit_ConverterUnitRunsItsSequences_2 : (((meas1 { phase := 2, entry := 2, until_ := 8 : UnitSt }).start 8).measOn = true)
    ∧ ((((meas1 { phase := 2, entry := 2, until_ := 8 : UnitSt }).start 8).unit 23).phase = 2)
    ∧ ((((meas1 { phase := 2, entry := 2, until_ := 8 : UnitSt }).start 8).unit 23).until_ ≤ ((meas1 { phase := 2, entry := 2, until_ := 8 : UnitSt }).start 8).now)
    ∧ ((((meas1 { phase := 2, entry := 2, until_ := 8 : UnitSt }).start 8).unit 23).inj = false)
    ∧ ((((meas1 { phase := 2, entry := 2, until_ := 8 : UnitSt }).start 8).unit 23).injWait = false)
    ∧ ((((meas1 { phase := 2, entry := 2, until_ := 8 : UnitSt }).start 8).unit 23).restart = false) := by decide +kernel
theorem wit_ConverterUnitRunsItsSequences_3 : (((meas1 { phase := 2, entry := 2, until_ := 8, restart := true : UnitSt }).start 8).measOn = true)
    ∧ ((((meas1 { phase := 2, entry := 2, until_ := 8, restart := true : UnitSt }).start 8).unit 23).phase = 2)
    ∧ ((((meas1 { phase := 2, entry := 2, until_ := 8, restart := true : UnitSt }).start 8).unit 23).until_ ≤ ((meas1 { phase := 2, entry := 2, until_ := 8, restart := true : UnitSt }).start 8).now)
    ∧ ((((meas1 { phase := 2, entry := 2, until_ := 8, restart := true : UnitSt }).start 8).unit 23).inj = false)
    ∧ ((((meas1 { phase := 2, entry := 2, until_ := 8, restart := true : UnitSt }).start 8).unit 23).injWait = false)
    ∧ ((((meas1 { phase := 2, entry := 2, until_ := 8, restart := true : UnitSt }).start 8).unit 23).restart = true) := by decide +kernel
theorem wit_ConverterUnitRunsItsSequences_4 : (((meas1 { phase := 2, entry := 2, until_ := 8, injWait := true : UnitSt }).start 8).measOn = true)
    ∧ ((((meas1 { phase := 2, entry := 2, until_ := 8, injWait := true : UnitSt }).start 8).unit 23).phase = 2)
    ∧ ((((meas1 { phase := 2, entry := 2, until_ := 8, injWait := true : UnitSt }).start 8).unit 23).until_ ≤ ((meas1 { phase := 2, entry := 2, until_ := 8, injWait := true : UnitSt }).start 8).now)
    ∧ ((((meas1 { phase := 2, entry := 2, until_ := 8, injWait := true : UnitSt }).start 8).unit 23).injWait = true) := by decide +kernel
theorem wit_ConverterUnitRunsItsSequences_5 : (((meas1 { phase := 1, injDue := true : UnitSt }).start 8).measOn = true)
    ∧ ((((meas1 { phase := 1, injDue := true : UnitSt }).start 8).unit 23).injDue = true) ∧ (23 < 24)
    ∧ ((((meas1 { phase := 1, injDue := true : UnitSt }).start 8).unit 23).inj = false)
    ∧ ((((meas1 { phase := 1, injDue := true : UnitSt }).start 8).unit 23).injWait = false)
    ∧ ((((meas1 { phase := 1, injDue := true : UnitSt }).start 8).unit 23).phase = 1) := by decide +kernel
theorem wit_ConverterUnitRunsItsSequences_6 : (((meas1 { phase := 2, injDue := true : UnitSt }).start 8).measOn = true)
    ∧ ((((meas1 { phase := 2, injDue := true : UnitSt }).start 8).unit 23).injDue = true) ∧ (23 < 24)
    ∧ ((((meas1 { phase := 2, injDue := true : UnitSt }).start 8).unit 23).inj = false)
    ∧ ((((meas1 { phase := 2, injDue := true : UnitSt }).start 8).unit 23).injWait = false)
    ∧ ((((meas1 { phase := 2, injDue := true : UnitSt }).start 8).unit 23).phase = 2) := by decide +kernel
theorem wit_ConverterUnitRunsItsSequences_7 : (((meas1 { phase := 1, entry := 13, inj := true, injDue := true : UnitSt }).start 8).measOn = true)
    ∧ ((((meas1 { phase := 1, entry := 13, inj := true, injDue := true : UnitSt }).start 8).unit 23).injDue = true) ∧ (23 < 24)
    ∧ ((((meas1 { phase := 1, entry := 13, inj := true, injDue := true : UnitSt }).start 8).unit 23).inj = true) := by decide +kernel
def acc1 : State := (meas1 { flight := [(5, 65535, 0)] }).setB R.MEAS_ACC_CFG_EN true 255
def acc2 : State := (acc1.setB R.MEAS_SEQ_ENT_ACC_EN true 23 5).setF R.MEAS_SEQ_ENT_ACC 255 23 5
theorem acc2_flight (m : Nat) (hm : m ≠ 23) : ((acc2.start 512).unit m).flight = [] := by
  have e : (acc2.start 512).meas.units = [(23, { flight := [(5, 65535, 0)] })] := by decide +kernel
  unfold State.unit
  rw [e]
  simp only [kget]
  rw [if_neg hm]
/-- Channel 47 runs on clock output 0 and feeds accumulator 255. -/
def accSd (x : SdSt) : State :=
  { ((((acc1.setB R.MEAS_SD_CFG_EN true 47).setB R.MEAS_SD_RT_ACC_EN true 47).setF R.MEAS_SD_RT_ACC 255 47).setF R.MEAS_SD_CFG_OSR 31 47).setB
      R.MEAS_SDCK_CFG_EN true 0 with
    meas := { sd := [(47, x)] } }
theorem wit_ConversionEntersItsAccumulator_1 : ((acc2.start 512).measOn = true) ∧ ((acc2.start 512).b R.MEAS_ACC_CFG_EN 255 = true)
    ∧ ((acc2.start 512).b R.MEAS_ACC_CFG_MODE 255 = false) ∧ ((acc2.start 512).f R.MEAS_ACC_CLOSE_SRC 255 ≠ 2)
    ∧ (((acc2.start 512).acc 255).cnt + 1 < 16777215) ∧ (23 < 24) ∧ (((acc2.start 512).unit 23).flight = [(5, 65535, 0)])
    ∧ ((acc2.start 512).convDone 0 = true) ∧ (∀ (x : Nat × Nat × Instant), x ∈ [] → (acc2.start 512).convDone x.snd.snd = false)
    ∧ (∀ (m : Nat), m ≠ 23 → ∀ (x : Nat × Nat × Instant), x ∈ ((acc2.start 512).unit m).flight → (acc2.start 512).convDone x.snd.snd = false)
    ∧ ((acc2.start 512).b R.MEAS_SEQ_ENT_ACC_EN 23 5 = true) ∧ ((acc2.start 512).f R.MEAS_SEQ_ENT_ACC 23 5 = 255)
    ∧ ((acc2.start 512).b R.MEAS_SEQ_ENT_MMT_EN 23 5 = false) := ⟨by decide +kernel, by decide +kernel, by decide +kernel, by decide +kernel,
    by decide +kernel, by decide +kernel, by decide +kernel, by decide +kernel, by decide +kernel,
    by (exact fun m hm x hx => by rw [acc2_flight m hm] at hx; cases hx), by decide +kernel, by decide +kernel, by decide +kernel⟩
theorem wit_ConversionEntersItsAccumulator_2 : (((accSd { discard := 0 : SdSt }).start 512).measOn = true)
    ∧ (((accSd { discard := 0 : SdSt }).start 512).b R.MEAS_ACC_CFG_EN 255 = true)
    ∧ (((accSd { discard := 0 : SdSt }).start 512).b R.MEAS_ACC_CFG_MODE 255 = false)
    ∧ (((accSd { discard := 0 : SdSt }).start 512).f R.MEAS_ACC_CLOSE_SRC 255 ≠ 2)
    ∧ ((((accSd { discard := 0 : SdSt }).start 512).acc 255).cnt + 1 < 16777215) ∧ (((accSd { discard := 0 : SdSt }).start 512).sdOn 47 = true)
    ∧ ((((accSd { discard := 0 : SdSt }).start 512).sdCh 47).discard = 0) ∧ (((accSd { discard := 0 : SdSt }).start 512).b R.MEAS_SD_RT_ACC_EN 47 = true)
    ∧ (((accSd { discard := 0 : SdSt }).start 512).f R.MEAS_SD_RT_ACC 47 = 255)
    ∧ (((accSd { discard := 0 : SdSt }).start 512).b R.MEAS_SD_RT_MMT_EN 47 = false) := by decide +kernel
theorem wit_ConversionEntersItsAccumulator_3 : (((accSd { discard := 1 : SdSt }).start 512).measOn = true)
    ∧ (((accSd { discard := 1 : SdSt }).start 512).b R.MEAS_ACC_CFG_EN 255 = true)
    ∧ (((accSd { discard := 1 : SdSt }).start 512).b R.MEAS_ACC_CFG_MODE 255 = false)
    ∧ (((accSd { discard := 1 : SdSt }).start 512).f R.MEAS_ACC_CLOSE_SRC 255 ≠ 2)
    ∧ ((((accSd { discard := 1 : SdSt }).start 512).acc 255).cnt + 1 < 16777215) ∧ (((accSd { discard := 1 : SdSt }).start 512).sdOn 47 = true)
    ∧ (0 < (((accSd { discard := 1 : SdSt }).start 512).sdCh 47).discard) := by decide +kernel
def accPr (x : SdSt) : State :=
  { (((((acc1.setB R.MEAS_SD_CFG_EN true 47).setB R.MEAS_SD_RT_PMMT_EN true 47).setF R.MEAS_SD_RT_PMMT 127 47).setF R.MEAS_SD_CFG_PROT_OSR 3 47).setB
      R.MEAS_MMT_CFG_EN true 127).setB R.MEAS_SDCK_CFG_EN true 0 with
    meas := { sd := [(47, x)] } }
theorem wit_ProtectionFilterFeedsItsTracker_1 : (((accPr { discardProt := 1 : SdSt }).start 0).sdOn 47 = true)
    ∧ (((accPr { discardProt := 1 : SdSt }).start 0).f R.MEAS_SD_CFG_PROT_OSR 47 ≠ 0)
    ∧ (0 < (((accPr { discardProt := 1 : SdSt }).start 0).sdCh 47).discardProt) := by decide +kernel
theorem wit_ProtectionFilterFeedsItsTracker_2 : (((accPr { discardProt := 0 : SdSt }).start 0).sdOn 47 = true)
    ∧ (((accPr { discardProt := 0 : SdSt }).start 0).f R.MEAS_SD_CFG_PROT_OSR 47 ≠ 0)
    ∧ ((((accPr { discardProt := 0 : SdSt }).start 0).sdCh 47).discardProt = 0)
    ∧ (((accPr { discardProt := 0 : SdSt }).start 0).b R.MEAS_SD_RT_PMMT_EN 47 = true)
    ∧ (((accPr { discardProt := 0 : SdSt }).start 0).f R.MEAS_SD_RT_PMMT 47 = 127)
    ∧ (((accPr { discardProt := 0 : SdSt }).start 0).b R.MEAS_MMT_CFG_EN 127 = true)
    ∧ (((accPr { discardProt := 0 : SdSt }).start 0).f R.MEAS_MMT_CLOSE_SRC 127 ≠ 2)
    ∧ ((((accPr { discardProt := 0 : SdSt }).start 0).mmt 127).cnt + 1 < 16777215) := by decide +kernel
theorem wit_ChannelsCalibrateStickAndResume_1 : (((let __src := State.reset;         { pending := __src.pending, now := __src.now, out := __src.out, free := __src.free, fresh := __src.fresh, regs := __src.regs, sys := __src.sys, husk := __src.husk, pwr := { porst := false : PwrSt }, sea := __src.sea, mesh := __src.mesh, meas := __src.meas, pos := __src.pos, pwm := __src.pwm, trip := __src.trip, loop := __src.loop, safe := __src.safe, hostq := __src.hostq, net := __src.net, can := __src.can, clk := __src.clk, rel := __src.rel, cfg := __src.cfg, tap := __src.tap : State }).start       0).alive =   true)
    ∧ (((let __src := State.reset;           { pending := __src.pending, now := __src.now, out := __src.out, free := __src.free, fresh := __src.fresh, regs := __src.regs, sys := __src.sys, husk := __src.husk, pwr := { porst := false : PwrSt }, sea := __src.sea, mesh := __src.mesh, meas := __src.meas, pos := __src.pos, pwm := __src.pwm, trip := __src.trip, loop := __src.loop, safe := __src.safe, hostq := __src.hostq, net := __src.net, can := __src.can, clk := __src.clk, rel := __src.rel, cfg := __src.cfg, tap := __src.tap : State }).start         0).b     R.MEAS_CTL_CAL_DONE =   false)
    := by decide +kernel
theorem wit_ChannelsCalibrateStickAndResume_2 : (((accSd { : SdSt }).start 0).sdOn 47 = true) ∧ (((accSd { : SdSt }).start 0).room)
    := by decide +kernel
theorem wit_ChannelsCalibrateStickAndResume_3 : (((accSd { stuck := true : SdSt }).start 0).sdClocked 47 = true)
    ∧ ((((accSd { stuck := true : SdSt }).start 0).sdCh 47).stuck = true) ∧ (((accSd { stuck := true : SdSt }).start 0).room) := by decide +kernel
theorem wit_ChannelsCalibrateStickAndResume_4 : ((((live.setB R.MEAS_CTL_EN true).setB R.MEAS_SEQ_CTL_EN true 3).start 0).alive = true)
    ∧ ((((live.setB R.MEAS_CTL_EN true).setB R.MEAS_SEQ_CTL_EN true 3).start 0).b R.MEAS_CTL_CAL_DONE = false) := by decide +kernel
def pairFlt : State := (session live 0 3).setF R.MEAS_PAIR_STAT_FAULT 0x80000003
theorem wit_PairFaultClearReleasesPairs_1 : (pairFlt.start 0).actionWrite 0 R.MEAS_PAIR_STAT_FAULT 2147483649 = (reqOnce pairFlt 0 R.MEAS_PAIR_STAT_FAULT 2147483649 0 0, true)
    := by (exact Prod.ext rfl (by decide +kernel))
/-- Generator 7 has a period of 1 µs; accumulator 255 closes by it. -/
def ntev : State := ((((meas1 {}).setF R.MEAS_NTEV_PER_PERIOD 1000 7).setB R.MEAS_ACC_CFG_EN true 255).setF R.MEAS_ACC_CLOSE_SRC 1 255).setF R.MEAS_ACC_CLOSE_ARG 7 255
theorem wit_NtimeGeneratorProducesEachInstantOnce_1 : ((ntev.start 4000).sealed = true) ∧ ((ntev.start 4000).regs.canon)
    ∧ ((ntev.start 4000).ntevDue 7 = some 1) := ⟨by decide +kernel, by (intro b; cases b <;> decide +kernel), by decide +kernel⟩
def pos1 (x : PiSt) : State :=
  { (((live.setB R.POS_CTL_EN true).setB R.POS_PI_CFG_EN true 7).setB R.POS_PI_CFG_INC_EN true 7).setB R.POS_INC_CFG_Z_EN true 7 with
    pos := { pi := [(7, x)] } }
theorem wit_QuadratureEdgeCounts_1 : (((pos1 { qa := some false, qb := some false, cnt := 4294967295 : PiSt }).start 8000).piOn 7 = true)
    ∧ (((pos1 { qa := some false, qb := some false, cnt := 4294967295 : PiSt }).start 8000).b R.POS_PI_CFG_INC_EN 7 = true)
    ∧ (((pos1 { qa := some false, qb := some false, cnt := 4294967295 : PiSt }).start 8000).accepted 7 7000 = true)
    ∧ ((((pos1 { qa := some false, qb := some false, cnt := 4294967295 : PiSt }).start 8000).pi 7).qa = some !true)
    ∧ ((((pos1 { qa := some false, qb := some false, cnt := 4294967295 : PiSt }).start 8000).pi 7).qb = some false) := by decide +kernel
theorem wit_QuadratureEdgeCounts_2 : (((pos1 { qa := some false, qb := some false, cnt := 5 : PiSt }).start 8000).piOn 7 = true)
    ∧ (((pos1 { qa := some false, qb := some false, cnt := 5 : PiSt }).start 8000).b R.POS_PI_CFG_INC_EN 7 = true)
    ∧ (((pos1 { qa := some false, qb := some false, cnt := 5 : PiSt }).start 8000).accepted 7 7000 = true)
    ∧ ((((pos1 { qa := some false, qb := some false, cnt := 5 : PiSt }).start 8000).pi 7).qb = some !true)
    ∧ ((((pos1 { qa := some false, qb := some false, cnt := 5 : PiSt }).start 8000).pi 7).qa = some false) := by decide +kernel
theorem wit_QuadratureEdgeCounts_3 : (((pos1 { qa := some false, qb := some false, cnt := 5 : PiSt }).start 8000).piOn 7 = true)
    ∧ (((pos1 { qa := some false, qb := some false, cnt := 5 : PiSt }).start 8000).b R.POS_PI_CFG_INC_EN 7 = true)
    ∧ (((pos1 { qa := some false, qb := some false, cnt := 5 : PiSt }).start 8000).accepted 7 7000 = true)
    ∧ (((pos1 { qa := some false, qb := some false, cnt := 5 : PiSt }).start 8000).accepted 7 7000 = true)
    ∧ ((((pos1 { qa := some false, qb := some false, cnt := 5 : PiSt }).start 8000).pi 7).qa = some !true)
    ∧ ((((pos1 { qa := some false, qb := some false, cnt := 5 : PiSt }).start 8000).pi 7).qb = some !true) := by decide +kernel
theorem wit_QuadratureEdgeCounts_4 : ((((pos1 { qa := some false, qb := some false, cnt := 5 : PiSt }).setF R.POS_PI_CFG_FILT 63 7).start 8000).piOn 7 = true)
    ∧ ((((pos1 { qa := some false, qb := some false, cnt := 5 : PiSt }).setF R.POS_PI_CFG_FILT 63 7).start 8000).b R.POS_PI_CFG_INC_EN 7 = true)
    ∧ ((((pos1 { qa := some false, qb := some false, cnt := 5 : PiSt }).setF R.POS_PI_CFG_FILT 63 7).start 8000).accepted 7 7900 = false)
    ∧ ((((pos1 { qa := some false, qb := some false, cnt := 5 : PiSt }).setF R.POS_PI_CFG_FILT 63 7).start 8000).accepted 7 7900 = false)
    := by decide +kernel
theorem wit_IndexAndHallFollowTheirSignals_1 : (((pos1 { qa := some true, qb := some true, cnt := 5, idxCnt := 1, idxValid := true : PiSt }).start 8000).piOn 7 = true)
    ∧ (((pos1 { qa := some true, qb := some true, cnt := 5, idxCnt := 1, idxValid := true : PiSt }).start 8000).b R.POS_PI_CFG_INC_EN 7 = true)
    ∧ (((pos1 { qa := some true, qb := some true, cnt := 5, idxCnt := 1, idxValid := true : PiSt }).start 8000).b R.POS_INC_CFG_Z_EN 7 = true)
    ∧ (((pos1 { qa := some true, qb := some true, cnt := 5, idxCnt := 1, idxValid := true : PiSt }).start 8000).accepted 7 7000 = true)
    ∧ (((pos1 { qa := some true, qb := some true, cnt := 5, idxCnt := 1, idxValid := true : PiSt }).start 8000).f R.POS_INC_CFG_Z_GATE 7 = 0 ∨ ((pos1 { qa := some true, qb := some true, cnt := 5, idxCnt := 1, idxValid := true : PiSt }).start 8000).f R.POS_INC_CFG_Z_GATE 7 = 1
    ∧ true = true ∧ true = true) := ⟨by decide +kernel, by decide +kernel, by decide +kernel, by decide +kernel, by (exact Or.inl (by decide +kernel))⟩
def hall1 (o : Option Nat) : State := { (pos1 {}).setB R.POS_PI_CFG_HALL_EN true 7 with pos := { pi := [(7, { hall := o })] } }
theorem wit_IndexAndHallFollowTheirSignals_2 : (((hall1 (some 1)).start 8000).piOn 7 = true)
    ∧ (((hall1 (some 1)).start 8000).b R.POS_PI_CFG_HALL_EN 7 = true) ∧ (7 < 8) ∧ (((hall1 (some 1)).start 8000).accepted 7 7000 = true)
    ∧ (((hall1 (some 1)).start 8000).accepted 7 7000 = true) ∧ (((hall1 (some 1)).start 8000).accepted 7 7000 = true)
    ∧ ((((hall1 (some 1)).start 8000).pi 7).hall = some 1) ∧ (1 < 8) ∧ (7 ≠ 1) := by decide +kernel
theorem wit_IndexAndHallFollowTheirSignals_3 : (((hall1 none).start 8000).piOn 7 = true) ∧ (((hall1 none).start 8000).b R.POS_PI_CFG_HALL_EN 7 = true)
    ∧ (0 < 8) ∧ (((hall1 none).start 8000).accepted 7 7000 = true) ∧ (((hall1 none).start 8000).accepted 7 7000 = true)
    ∧ (((hall1 none).start 8000).accepted 7 7000 = true) ∧ ((((hall1 none).start 8000).pi 7).hall = none) := by decide +kernel
def ser1 : State :=
  { ((((live.setB R.POS_CTL_EN true).setB R.POS_PI_CFG_EN true 7).setF R.POS_PI_CFG_SER 1 7).setF R.POS_SER_CFG_LEN 15 7).setF R.POS_SER_CFG_MA_DIV 5 7 with
    pos := { pi := [(7, { ser := { running := true } })] } }
theorem wit_SerialFrameEndsInRecord_1 : ((ser1.start 4000).piOn 7 = true) ∧ (((ser1.start 4000).pi 7).ser.running = true)
    ∧ (4660 = 4660 % 2 ^ ((ser1.start 4000).f R.POS_SER_CFG_LEN 7 + 1)) ∧ ((ser1.start 4000).f R.POS_PI_CFG_SER 7 = 1) := by decide +kernel
theorem wit_SerialFrameEndsInRecord_2 : (((ser1.setF R.POS_PI_CFG_SER 2 7).start 4000).piOn 7 = true)
    ∧ ((((ser1.setF R.POS_PI_CFG_SER 2 7).start 4000).pi 7).ser.running = true)
    ∧ (4660 = 4660 % 2 ^ (((ser1.setF R.POS_PI_CFG_SER 2 7).start 4000).f R.POS_SER_CFG_LEN 7 + 1))
    ∧ (((ser1.setF R.POS_PI_CFG_SER 2 7).start 4000).f R.POS_PI_CFG_SER 7 = 2) := by decide +kernel
theorem wit_SerialFrameEndsInRecord_3 : ((ser1.start 40000000).piOn 7 = true) ∧ (((ser1.start 40000000).pi 7).ser.running = true)
    ∧ ((ser1.start 40000000).f R.POS_PI_CFG_SER 7 = 1)
    ∧ (((ser1.start 40000000).pi 7).ser.start + 4 * ((ser1.start 40000000).f R.POS_SER_CFG_TIMEOUT 7 + 1) * ((ser1.start 40000000).f R.POS_SER_CFG_MA_DIV 7 * 4 * nsQ) ≤ (ser1.start 40000000).now)
    := by decide +kernel
def exc1 : State :=
  { ((live.setB R.POS_CTL_EN true).setB R.POS_PI_CFG_EN true 7).setB R.POS_RES_CFG_EXC_EN true 7 with
    pos := { pi := [(7, { exc := [⟨0, true, 0, 1, 50000, 0⟩] })] } }
/-- Interface 7 is lost; `again`: its loss was set in the tick of instant 0. -/
def loss1 (again : Bool) : State :=
  let s := ((pos1 { hallRun := 3 }).setB R.POS_PI_STAT_LOSS true 7).setBitF R.POS_CTL_LOSS_LINE 7 true
  if again then s else { s with fresh := [] }
theorem wit_ExcitationFaultAndLossClear_1 : ((exc1.start 8000).piOn 7 = true) ∧ ((exc1.start 8000).b R.POS_RES_CFG_EXC_EN 7 = true)
    := by decide +kernel
theorem wit_ExcitationFaultAndLossClear_2 : (7 < 8)
    ∧ (((loss1 false).start 0).actionWrite 0 R.POS_PI_STAT_LOSS 1024 7 = (reqOnce (loss1 false) 0 R.POS_PI_STAT_LOSS 1024 7 0, true))
    ∧ (((reqOnce (loss1 false) 0 R.POS_PI_STAT_LOSS 1024 7 0).freshOf Blk.pos (R.POS_PI_STAT_LOSS.key 7 0)).testBit R.POS_PI_STAT_LOSS.lo = false)
    := ⟨by decide +kernel, by (exact Prod.ext rfl (by decide +kernel)), by decide +kernel⟩
theorem wit_ExcitationFaultAndLossClear_3 : (7 < 8)
    ∧ (((loss1 true).start 0).actionWrite 0 R.POS_PI_STAT_LOSS 1024 7 = (reqOnce (loss1 true) 0 R.POS_PI_STAT_LOSS 1024 7 0, true))
    ∧ (((reqOnce (loss1 true) 0 R.POS_PI_STAT_LOSS 1024 7 0).freshOf Blk.pos (R.POS_PI_STAT_LOSS.key 7 0)).testBit R.POS_PI_STAT_LOSS.lo = true)
    ∧ ((reqOnce (loss1 true) 0 R.POS_PI_STAT_LOSS 1024 7 0).b R.POS_PI_STAT_LOSS 7 = true) := ⟨by decide +kernel,
    by (exact Prod.ext rfl (by decide +kernel)), by decide +kernel, by decide +kernel⟩
def inDesc : CtxDesc := { inputs := [⟨1, 1, 9, 255⟩] }
theorem wit_InputsStartEvaluationsThatEndWhole_1 : (((ctx1 { desc := inDesc : CtxSt }).start 0).ctxOn 511 = true)
    ∧ ((((ctx1 { desc := inDesc : CtxSt }).start 0).ctx 511).desc.inputs[0]? = some { kind := 1, cls := 1, src := 9, fb := 255 : InputDef })
    ∧ ({ kind := 1, cls := 1, src := 9, fb := 255 : InputDef }.kind = 1)
    ∧ ({ kind := 1, cls := 1, src := 9, fb := 255 : InputDef }.src = { acc := 9, sum := 100, cnt := 4 : WinItem }.acc)
    ∧ ((((ctx1 { desc := inDesc : CtxSt }).start 0).ctx 511).phase ≠ 1) := by decide +kernel
theorem wit_InputsStartEvaluationsThatEndWhole_2 : (((ctx1 { desc := inDesc, phase := 1 : CtxSt }).start 0).ctxOn 511 = true)
    ∧ ((((ctx1 { desc := inDesc, phase := 1 : CtxSt }).start 0).ctx 511).phase = 1)
    ∧ ((((ctx1 { desc := inDesc, phase := 1 : CtxSt }).start 0).landInputs 511 (Payload.winres 7 { acc := 9, sum := 100, cnt := 4 : WinItem } none)).allLanded 511 = true)
    := by decide +kernel
theorem wit_InputsStartEvaluationsThatEndWhole_3 : (((ctx1 { desc := inDesc, phase := 1 : CtxSt } { phase := 3 : CtxSt }).start 8000).ctxOn 511 = true)
    ∧ ((((ctx1 { desc := inDesc, phase := 1 : CtxSt } { phase := 3 : CtxSt }).start 8000).ctx 511).phase = 1)
    ∧ ((((ctx1 { desc := inDesc, phase := 1 : CtxSt } { phase := 3 : CtxSt }).start 8000).ctx 511).trig.getD 0 + ((ctx1 { desc := inDesc, phase := 1 : CtxSt } { phase := 3 : CtxSt }).start 8000).f R.LOOP_CTX_TIME_T_IN 511 ≤ ((ctx1 { desc := inDesc, phase := 1 : CtxSt } { phase := 3 : CtxSt }).start 8000).pwmTime)
    ∧ (((ctx1 { desc := inDesc, phase := 1 : CtxSt } { phase := 3 : CtxSt }).start 8000).kernelBusy 511 = true) := by decide +kernel
theorem wit_InputsStartEvaluationsThatEndWhole_4 : (((ctx1 { desc := inDesc, phase := 1 : CtxSt }).start 8000).ctxOn 511 = true)
    ∧ ((((ctx1 { desc := inDesc, phase := 1 : CtxSt }).start 8000).ctx 511).phase = 1)
    ∧ ((((ctx1 { desc := inDesc, phase := 1 : CtxSt }).start 8000).ctx 511).trig.getD 0 + ((ctx1 { desc := inDesc, phase := 1 : CtxSt }).start 8000).f R.LOOP_CTX_TIME_T_IN 511 ≤ ((ctx1 { desc := inDesc, phase := 1 : CtxSt }).start 8000).pwmTime)
    ∧ (((ctx1 { desc := inDesc, phase := 1 : CtxSt }).start 8000).kernelBusy 511 = false) := by decide +kernel
theorem wit_InputsStartEvaluationsThatEndWhole_5 : (((ctx1 { desc := inDesc, states := [Num.fin 1, Num.nan], phase := 3 : CtxSt }).start 8000).ctxOn 511 = true)
    ∧ ((((ctx1 { desc := inDesc, states := [Num.fin 1, Num.nan], phase := 3 : CtxSt }).start 8000).ctx 511).phase = 3) := by decide +kernel
def faulted : State := { ((ctx1 { cause := 1 }).setB R.LOOP_CTX_STAT_FAULT true 511).setBitF R.LOOP_FAULT_FAULT 31 true 15 with fresh := [] }
theorem wit_ParametersAndFaultClearReachContext_1 : (511 < 512)
    ∧ ((faulted.start 0).actionWrite 0 R.LOOP_CTX_STAT_FAULT 2147483648 511 = (reqOnce faulted 0 R.LOOP_CTX_STAT_FAULT 2147483648 511 0, true))
    ∧ ((reqOnce faulted 0 R.LOOP_CTX_STAT_FAULT 2147483648 511 0).b R.LOOP_CTX_STAT_FAULT 511 = true)
    ∧ ((reqOnce faulted 0 R.LOOP_CTX_STAT_FAULT 2147483648 511 0).setNow R.LOOP_CTX_STAT_FAULT 0 511 = false)
    ∧ (((reqOnce faulted 0 R.LOOP_CTX_STAT_FAULT 2147483648 511 0).ctx 511).cause ≠ 4) := ⟨by decide +kernel, by (exact Prod.ext rfl (by decide +kernel)),
    by decide +kernel, by decide +kernel, by decide +kernel⟩
def parDesc : CtxDesc := { params := [⟨0, 0, 0, 0, 1, false, true⟩, ⟨0, 0, 0x3F800000, 0, 1, true, false⟩] }
theorem wit_ParametersAndFaultClearReachContext_2 : (((ctx1 { desc := parDesc, params := [0, 0] : CtxSt }).start 0).ctxOn 511 = true)
    ∧ (((ctx1 { desc := parDesc, params := [0, 0] : CtxSt }).start 0).txnDetail 511 1 true [(1, 1073741824)] = some 2)
    ∧ (((ctx1 { desc := parDesc, params := [0, 0] : CtxSt }).start 0).room) := by decide +kernel
theorem wit_ParametersAndFaultClearReachContext_3 : (((ctx1 { desc := parDesc, params := [0, 0] : CtxSt }).start 0).ctxOn 511 = true)
    ∧ (((ctx1 { desc := parDesc, params := [0, 0] : CtxSt }).start 0).txnDetail 511 1 true [(1, 1056964608)] = none)
    ∧ ((((ctx1 { desc := parDesc, params := [0, 0] : CtxSt }).start 0).ctx 511).sent = none)
    ∧ ((((ctx1 { desc := parDesc, params := [0, 0] : CtxSt }).start 0).ctx 511).txnQueue = [])
    ∧ (((ctx1 { desc := parDesc, params := [0, 0] : CtxSt }).start 0).partner 511 = none) := by decide +kernel
theorem wit_ParametersAndFaultClearReachContext_4 : (((((ctx1 { desc := parDesc, params := [0, 0] : CtxSt }).setB R.LOOP_CTX_HO_FB_EN true 511).setF R.LOOP_CTX_HO_FALLBACK 510 511).start 0).ctxOn 511 = true)
    ∧ (((((ctx1 { desc := parDesc, params := [0, 0] : CtxSt }).setB R.LOOP_CTX_HO_FB_EN true 511).setF R.LOOP_CTX_HO_FALLBACK 510 511).start 0).txnDetail 511 1 false [(0, 0)] = none)
    ∧ (((((ctx1 { desc := parDesc, params := [0, 0] : CtxSt }).setB R.LOOP_CTX_HO_FB_EN true 511).setF R.LOOP_CTX_HO_FALLBACK 510 511).start 0).partner 511 = some 510)
    ∧ (510 ≠ 511) ∧ ((((((ctx1 { desc := parDesc, params := [0, 0] : CtxSt }).setB R.LOOP_CTX_HO_FB_EN true 511).setF R.LOOP_CTX_HO_FALLBACK 510 511).start 0).ctx 510).sent = none)
    ∧ ((((((ctx1 { desc := parDesc, params := [0, 0] : CtxSt }).setB R.LOOP_CTX_HO_FB_EN true 511).setF R.LOOP_CTX_HO_FALLBACK 510 511).start 0).ctx 510).txnQueue = [])
    ∧ ((((((ctx1 { desc := parDesc, params := [0, 0] : CtxSt }).setB R.LOOP_CTX_HO_FB_EN true 511).setF R.LOOP_CTX_HO_FALLBACK 510 511).start 0).ctx 511).sharedWords [(0, 0)] ≠ [])
    := by decide +kernel
def cmpwTo (T : Nat) (m : CmpMode) (take : Bool) : Cmpw := ⟨0, 511, T, take, 255, false, false, [some ⟨m, 100, 7⟩, none, none, none, none, none]⟩
def flitOf (w : Cmpw) (k : Nat) : Flit := { dst := .port 1 1, src := .kernel 1 k, payload := .cmpw w }
theorem wit_CmpwDiscardsKeepTheirOrder_1 : ((pwm1.start 0).sealed = true)
    ∧ ((flitOf (cmpwTo 28 CmpMode.compare false) 0).payload = Payload.cmpw (cmpwTo 28 CmpMode.compare false))
    ∧ (28 ≤ (cmpwTo 28 CmpMode.compare false).target) ∧ ((pwm1.start 0).room) := by decide +kernel
theorem wit_CmpwDiscardsKeepTheirOrder_2 : ((pwm1.start 0).sealed = true)
    ∧ ((flitOf (cmpwTo 23 CmpMode.compare false) 1).payload = Payload.cmpw (cmpwTo 23 CmpMode.compare false))
    ∧ ((cmpwTo 23 CmpMode.compare false).target < 28)
    ∧ ((pwm1.start 0).ownerIndex (cmpwTo 23 CmpMode.compare false).target (cmpwTo 23 CmpMode.compare false).ctx = none ∨ (pwm1.start 0).kernelOf (flitOf (cmpwTo 23 CmpMode.compare false) 1).src (cmpwTo 23 CmpMode.compare false).ctx = false)
    ∧ ((pwm1.start 0).room) := by decide +kernel
theorem wit_CmpwDiscardsKeepTheirOrder_3 : (((pwm1.setB R.PWM_SLOT_STAT_B_ACTIVE true 23).start 0).sealed = true)
    ∧ ((flitOf (cmpwTo 23 CmpMode.compare false) 0).payload = Payload.cmpw (cmpwTo 23 CmpMode.compare false))
    ∧ ((cmpwTo 23 CmpMode.compare false).target < 28)
    ∧ (((pwm1.setB R.PWM_SLOT_STAT_B_ACTIVE true 23).start 0).ownerIndex (cmpwTo 23 CmpMode.compare false).target (cmpwTo 23 CmpMode.compare false).ctx = some 0)
    ∧ (((pwm1.setB R.PWM_SLOT_STAT_B_ACTIVE true 23).start 0).kernelOf (flitOf (cmpwTo 23 CmpMode.compare false) 0).src (cmpwTo 23 CmpMode.compare false).ctx = true)
    ∧ (0 ≠ ((pwm1.setB R.PWM_SLOT_STAT_B_ACTIVE true 23).start 0).activeIndex (cmpwTo 23 CmpMode.compare false).target)
    ∧ ((cmpwTo 23 CmpMode.compare false).take = false) := by decide +kernel
theorem wit_CmpwDiscardsKeepTheirOrder_4 : ((pwm1.start 0).sealed = true)
    ∧ ((flitOf (cmpwTo 23 CmpMode.reserved false) 0).payload = Payload.cmpw (cmpwTo 23 CmpMode.reserved false))
    ∧ ((cmpwTo 23 CmpMode.reserved false).target < 28)
    ∧ ((pwm1.start 0).ownerIndex (cmpwTo 23 CmpMode.reserved false).target (cmpwTo 23 CmpMode.reserved false).ctx = some 0)
    ∧ ((pwm1.start 0).kernelOf (flitOf (cmpwTo 23 CmpMode.reserved false) 0).src (cmpwTo 23 CmpMode.reserved false).ctx = true)
    ∧ (0 = (pwm1.start 0).activeIndex (cmpwTo 23 CmpMode.reserved false).target)
    ∧ ((pwm1.start 0).cmpwMalformed (cmpwTo 23 CmpMode.reserved false) = true) := by decide +kernel
theorem wit_CmpwDiscardsKeepTheirOrder_5 : ((pwm1.start 0).sealed = true)
    ∧ ((flitOf (cmpwTo 27 CmpMode.reserved false) 0).payload = Payload.cmpw (cmpwTo 27 CmpMode.reserved false))
    ∧ ((cmpwTo 27 CmpMode.reserved false).target < 28)
    ∧ ((pwm1.start 0).ownerIndex (cmpwTo 27 CmpMode.reserved false).target (cmpwTo 27 CmpMode.reserved false).ctx = some 0)
    ∧ ((pwm1.start 0).kernelOf (flitOf (cmpwTo 27 CmpMode.reserved false) 0).src (cmpwTo 27 CmpMode.reserved false).ctx = true)
    ∧ (0 = (pwm1.start 0).activeIndex (cmpwTo 27 CmpMode.reserved false).target)
    ∧ ((pwm1.start 0).cmpwMalformed (cmpwTo 27 CmpMode.reserved false) = true) := by decide +kernel
theorem wit_AcceptedCompareWaitsForItsInstant_1 : ((pwm1.start 0).sealed = true)
    ∧ ((flitOf (cmpwTo 23 CmpMode.compare true) 0).payload = Payload.cmpw (cmpwTo 23 CmpMode.compare true))
    ∧ ((cmpwTo 23 CmpMode.compare true).target < 24)
    ∧ ((pwm1.start 0).ownerIndex (cmpwTo 23 CmpMode.compare true).target (cmpwTo 23 CmpMode.compare true).ctx = some 0)
    ∧ ((pwm1.start 0).kernelOf (flitOf (cmpwTo 23 CmpMode.compare true) 0).src (cmpwTo 23 CmpMode.compare true).ctx = true)
    ∧ (0 = (pwm1.start 0).activeIndex (cmpwTo 23 CmpMode.compare true).target ∨ (cmpwTo 23 CmpMode.compare true).take = true)
    ∧ ((pwm1.start 0).cmpwMalformed (cmpwTo 23 CmpMode.compare true) = false) ∧ ((cmpwTo 23 CmpMode.compare true).carrier = false)
    ∧ ((cmpwTo 23 CmpMode.compare true).epoch = (pwm1.start 0).net.parity) ∧ ((cmpwTo 23 CmpMode.compare true).vals.length = 6)
    ∧ ((cmpwTo 23 CmpMode.compare true).seq < 256)
    ∧ ((pwm1.start 0).issueTick (cmpwTo 23 CmpMode.compare true) + ↑((pwm1.start 0).f R.LOOP_CTX_TIME_L_DLV (cmpwTo 23 CmpMode.compare true).ctx) = ↑0)
    ∧ ((pwm1.start 0).pwmTime ≤ 0) := by decide +kernel
def mig4 : MigSt := { ctx := 511, step := 4, snapLanded := true, srcPod := 1, srcMask := 1, dstPod := 2, dstMask := 1 }
def migAt (m : MigSt) : State := { ctx1 {} with loop := { ctx := [(511, {})], mig := some m } }
theorem wit_MigrationsCommitAbortOrForce_1 : (((migAt { ctx := 511, dstPod := 2, dstMask := 1 : MigSt }).start 8000).loop.mig = some { ctx := 511, dstPod := 2, dstMask := 1 : MigSt })
    ∧ (((migAt { ctx := 511, dstPod := 2, dstMask := 1 : MigSt }).start 8000).loop.migQueue = [])
    ∧ ({ ctx := 511, dstPod := 2, dstMask := 1 : MigSt }.rel = false) ∧ ({ ctx := 511, dstPod := 2, dstMask := 1 : MigSt }.tag = none)
    ∧ ({ ctx := 511, dstPod := 2, dstMask := 1 : MigSt }.step = 0)
    ∧ (Option.any (fun r => r.fst == { ctx := 511, dstPod := 2, dstMask := 1 : MigSt }.dstPod) ((migAt { ctx := 511, dstPod := 2, dstMask := 1 : MigSt }).start 8000).clk.podReq = false)
    := by decide +kernel
theorem wit_MigrationsCommitAbortOrForce_2 : (((migAt { ctx := 511, step := 4 : MigSt }).start 8000).loop.mig = some { ctx := 511, step := 4 : MigSt })
    ∧ (((migAt { ctx := 511, step := 4 : MigSt }).start 8000).loop.migQueue = []) ∧ ({ ctx := 511, step := 4 : MigSt }.rel = false)
    ∧ ({ ctx := 511, step := 4 : MigSt }.tag = none) ∧ ({ ctx := 511, step := 4 : MigSt }.step = 4)
    ∧ ({ ctx := 511, step := 4 : MigSt }.snapLanded = false)
    ∧ ({ ctx := 511, step := 4 : MigSt }.trig1.getD 0 + ((migAt { ctx := 511, step := 4 : MigSt }).start 8000).f R.LOOP_CTX_TIME_T_IN { ctx := 511, step := 4 : MigSt }.ctx ≤ ((migAt { ctx := 511, step := 4 : MigSt }).start 8000).pwmTime)
    := by decide +kernel
/-- The CRC parts of one kernel. -/
def crcs (l : List Nat) : List (List Nat × List Nat) := [(l, [])]
def snaps (l : List Word) : List (List Word × List Word) := [(l, [])]
theorem wit_MigrationsCommitAbortOrForce_3 : (((migAt mig4).start 8000).loop.mig = some mig4) ∧ (((migAt mig4).start 8000).loop.migQueue = [])
    ∧ (mig4.rel = false) ∧ (mig4.tag = none) ∧ (mig4.step = 4) ∧ (mig4.snapLanded = true) ∧ ((((migAt mig4).start 8000).ctx mig4.ctx).phase = 0)
    ∧ (((migAt mig4).start 8000).partsOk mig4 (crcs []) = true) ∧ ((snaps []).length = (crcs []).length)
    ∧ (List.map (fun p => (((migAt mig4).start 8000).ctx mig4.ctx).verifyWords p.fst p.snd) ((((migAt mig4).start 8000).ctx mig4.ctx).partWords (crcs [])) = List.map (fun p => (((migAt mig4).start 8000).ctx mig4.ctx).verifyWords p.fst p.snd) (snaps []))
    := by decide +kernel
theorem wit_MigrationsCommitAbortOrForce_4 : (((migAt mig4).start 8000).loop.mig = some mig4) ∧ (((migAt mig4).start 8000).loop.migQueue = [])
    ∧ (mig4.rel = false) ∧ (mig4.tag = none) ∧ (mig4.step = 4) ∧ (mig4.snapLanded = true) ∧ ((((migAt mig4).start 8000).ctx mig4.ctx).phase = 0)
    ∧ (((migAt mig4).start 8000).partsOk mig4 (crcs []) = true) ∧ ((snaps [1]).length = (crcs []).length)
    ∧ (List.map (fun p => (((migAt mig4).start 8000).ctx mig4.ctx).verifyWords p.fst p.snd) ((((migAt mig4).start 8000).ctx mig4.ctx).partWords (crcs [])) ≠ List.map (fun p => (((migAt mig4).start 8000).ctx mig4.ctx).verifyWords p.fst p.snd) (snaps [1]))
    := by decide +kernel
def lostKernel : State := { faulted with rel := { reloads := [⟨[511], 16, 17⟩] } }
theorem wit_MigrationsCommitAbortOrForce_5 : (511 < 512) ∧ ((lostKernel.start 0).loop.mig = none)
    ∧ (List.find? (fun x => x.ctxs.contains 511) (lostKernel.start 0).rel.reloads = some { ctxs := [511], src := 16, dst := 17 : Reload })
    ∧ ((List.filter (fun x => x.ctxs.contains 511) (lostKernel.start 0).rel.reloads).length = 1) := by decide +kernel
def drive1 (st : Nat) : State := ctx1 { drv := { st := st } }
theorem wit_DriveTimersEnterTheirState_1 : (((drive1 dCoastWait).start 8).ctxOn 511 = true) ∧ (((drive1 dCoastWait).start 8).room)
    ∧ ((((drive1 dCoastWait).start 8).drv 511).st = dCoastWait)
    ∧ (spanOf (((drive1 dCoastWait).start 8).pv 511 19) ≤ ((drive1 dCoastWait).start 8).drvSince 511) := by decide +kernel
theorem wit_DriveTimersEnterTheirState_2 : (((drive1 dAcquire).start 8).ctxOn 511 = true) ∧ (((drive1 dAcquire).start 8).room)
    ∧ ((((drive1 dAcquire).start 8).drv 511).st = dAcquire) ∧ (spanOf (((drive1 dAcquire).start 8).pv 511 25) ≤ ((drive1 dAcquire).start 8).drvSince 511)
    := by decide +kernel
theorem wit_DriveTimersEnterTheirState_3 : (((drive1 dDischarge).start 8).ctxOn 511 = true) ∧ (((drive1 dDischarge).start 8).room)
    ∧ ((((drive1 dDischarge).start 8).drv 511).st = dDischarge)
    ∧ (spanOf (((drive1 dDischarge).start 8).pv 511 28) ≤ ((drive1 dDischarge).start 8).drvSince 511) := by decide +kernel
def grid1 (g : GridSt) (ps : List Word := []) : State := ctx1 { grid := g, params := ps }
def gfmParams : List Word := List.replicate 104 0 ++ [0x10]
theorem wit_GridAndBatteryTimersAct_1 : (((grid1 { st := gRun, tk := [0, 0, 0, 1] : GridSt } ((List.replicate 127 1073741824).set 125 1056964608)).start 8).ctxOn 511 = true)
    ∧ (((grid1 { st := gRun, tk := [0, 0, 0, 1] : GridSt } ((List.replicate 127 1073741824).set 125 1056964608)).start 8).room)
    ∧ ((((grid1 { st := gRun, tk := [0, 0, 0, 1] : GridSt } ((List.replicate 127 1073741824).set 125 1056964608)).start 8).ctx 511).rtLimit = some 3)
    := by decide +kernel
theorem wit_GridAndBatteryTimersAct_2 : (((grid1 { st := gBlock : GridSt }).start 8).ctxOn 511 = true)
    ∧ (((grid1 { st := gBlock : GridSt }).start 8).room) ∧ ((((grid1 { st := gBlock : GridSt }).start 8).ctx 511).resyncOver = true) := by decide +kernel
theorem wit_GridAndBatteryTimersAct_3 : (((grid1 { st := gCoast, tk := [-1, -1, -1, -1], th := -1, tf := -1, retRun := some 1 : GridSt } gfmParams).start 8).ctxOn 511 = true)
    ∧ (((grid1 { st := gCoast, tk := [-1, -1, -1, -1], th := -1, tf := -1, retRun := some 1 : GridSt } gfmParams).start 8).room)
    ∧ ((((grid1 { st := gCoast, tk := [-1, -1, -1, -1], th := -1, tf := -1, retRun := some 1 : GridSt } gfmParams).start 8).ctx 511).gridBack = true)
    ∧ ((((grid1 { st := gCoast, tk := [-1, -1, -1, -1], th := -1, tf := -1, retRun := some 1 : GridSt } gfmParams).start 8).ctx 511).rtLimit = none)
    := by decide +kernel
theorem wit_GridAndBatteryTimersAct_4 : (((grid1 { st := gCoast, tk := [-1, -1, -1, -1], th := -1, tf := -1, retRun := some 1 : GridSt }).start 8).ctxOn 511 = true)
    ∧ (((grid1 { st := gCoast, tk := [-1, -1, -1, -1], th := -1, tf := -1, retRun := some 1 : GridSt }).start 8).room)
    ∧ ((((grid1 { st := gCoast, tk := [-1, -1, -1, -1], th := -1, tf := -1, retRun := some 1 : GridSt }).start 8).ctx 511).gridBack = true)
    ∧ ((((grid1 { st := gCoast, tk := [-1, -1, -1, -1], th := -1, tf := -1, retRun := some 1 : GridSt }).start 8).ctx 511).rtLimit = none)
    := by decide +kernel
theorem wit_GridAndBatteryTimersAct_5 : (((grid1 { st := gBlock, lockRun := 8 : GridSt }).start 8).ctxOn 511 = true)
    ∧ (((grid1 { st := gBlock, lockRun := 8 : GridSt }).start 8).room)
    ∧ ((((grid1 { st := gBlock, lockRun := 8 : GridSt }).start 8).ctx 511).blockOver = true) := by decide +kernel
theorem wit_GridAndBatteryTimersAct_6 : (((ctx1 { dcdc := { st := bCharge, t := 1, half := true : DcSt } : CtxSt }).start 8).ctxOn 511 = true)
    ∧ (((ctx1 { dcdc := { st := bCharge, t := 1, half := true : DcSt } : CtxSt }).start 8).room)
    ∧ ((((ctx1 { dcdc := { st := bCharge, t := 1, half := true : DcSt } : CtxSt }).start 8).ctx 511).prechargeOver = some 1) := by decide +kernel
theorem wit_GridAndBatteryTimersAct_7 : (((ctx1 { dcdc := { st := bClose, vBat := 100, vdc := 100 : DcSt } : CtxSt }).start 8).ctxOn 511 = true)
    ∧ (((ctx1 { dcdc := { st := bClose, vBat := 100, vdc := 100 : DcSt } : CtxSt }).start 8).room)
    ∧ ((((ctx1 { dcdc := { st := bClose, vBat := 100, vdc := 100 : DcSt } : CtxSt }).start 8).ctx 511).mainOver = true) := by decide +kernel
theorem wit_GridAndBatteryTimersAct_8 : (((ctx1 { params := List.replicate 155 1065353216, dcdc := { bmsTime := 2 : DcSt } : CtxSt }).start 8).ctxOn 511 = true)
    ∧ (((ctx1 { params := List.replicate 155 1065353216, dcdc := { bmsTime := 2 : DcSt } : CtxSt }).start 8).room)
    ∧ ((((ctx1 { params := List.replicate 155 1065353216, dcdc := { bmsTime := 2 : DcSt } : CtxSt }).start 8).ctx 511).bmsOver = true)
    := by decide +kernel
def bridge1 (ph retries : Nat) (b : BcSt) : State :=
  { (((((((live.setB R.AUX_CTL_EN true).setB R.AUX_BR_CFG_EN true 3).setB R.AUX_BC_CFG_EN true 3).setF R.AUX_BC_STAT_PHASE ph 3).setF
      R.AUX_BC_STAT_RETRIES retries 3).setF R.AUX_BC_RUN_N_RETRY 2 3).setF R.AUX_BC_CFG_N_ZC 3 3).setB R.PWR_TOK_CFG_EN true with
    pwm := { bc := [(3, b)] } }
theorem wit_BridgeRunsSixSteps_1 : (((bridge1 bcAlign 0 { : BcSt }).start 8).bcOn 3 = true)
    ∧ (((bridge1 bcAlign 0 { : BcSt }).start 8).bcPhase 3 = bcAlign)
    ∧ ((((bridge1 bcAlign 0 { : BcSt }).start 8).bc 3).phaseAt + ((bridge1 bcAlign 0 { : BcSt }).start 8).f R.AUX_BC_START_T_ALIGN 3 * 10 * msQ ≤ ((bridge1 bcAlign 0 { : BcSt }).start 8).now)
    := by decide +kernel
theorem wit_BridgeRunsSixSteps_2 : (((bridge1 bcClosed 0 { due := some 8 : BcSt }).start 8).bcOn 3 = true)
    ∧ ((((bridge1 bcClosed 0 { due := some 8 : BcSt }).start 8).bcPhase 3 = bcClosed
    ∧ ∃ d, (((bridge1 bcClosed 0 { due := some 8 : BcSt }).start 8).bc 3).due = some d
    ∧ d ≤ ((bridge1 bcClosed 0 { due := some 8 : BcSt }).start 8).now) ∨ ((bridge1 bcClosed 0 { due := some 8 : BcSt }).start 8).bcPhase 3 = bcRamp
    ∧ ((bridge1 bcClosed 0 { due := some 8 : BcSt }).start 8).rampDue 3 = true) := ⟨by decide +kernel,
    by (exact Or.inl ⟨by decide +kernel, 8, by decide +kernel, by decide +kernel⟩)⟩
theorem wit_BridgeRunsSixSteps_3 : (((bridge1 bcRamp 0 { step := 1, run := 3 : BcSt }).start 8).bcOn 3 = true)
    ∧ (((bridge1 bcRamp 0 { step := 1, run := 3 : BcSt }).start 8).bcPhase 3 = bcRamp ∨ ((bridge1 bcRamp 0 { step := 1, run := 3 : BcSt }).start 8).bcPhase 3 = bcClosed)
    ∧ ((((bridge1 bcRamp 0 { step := 1, run := 3 : BcSt }).start 8).bc 3).crossed = false)
    ∧ (((bridge1 bcRamp 0 { step := 1, run := 3 : BcSt }).start 8).samplesOk 3 (((bridge1 bcRamp 0 { step := 1, run := 3 : BcSt }).start 8).bc 3).commAt ([] ++ [(8, true)]) = true)
    ∧ ([(8, true)].length = ((bridge1 bcRamp 0 { step := 1, run := 3 : BcSt }).start 8).f R.AUX_BC_CFG_ZC_FILT 3 + 1)
    ∧ (Option.map (fun x => x.fst) [(8, true)].getLast? = some ((bridge1 bcRamp 0 { step := 1, run := 3 : BcSt }).start 8).now)
    ∧ (∀ (a : Instant × Bool), a ∈ [(8, true)] → (((bridge1 bcRamp 0 { step := 1, run := 3 : BcSt }).start 8).bc 3).commAt + ((bridge1 bcRamp 0 { step := 1, run := 3 : BcSt }).start 8).f R.AUX_BC_CFG_BLANK 3 * (((bridge1 bcRamp 0 { step := 1, run := 3 : BcSt }).start 8).bc 3).interval.getD 0 / 256 ≤ a.fst
    ∧ a.snd = ((bridge1 bcRamp 0 { step := 1, run := 3 : BcSt }).start 8).expectSide 3) := ⟨by decide +kernel, by (exact Or.inl (by decide +kernel)),
    by decide +kernel, by decide +kernel, by decide +kernel, by decide +kernel, by decide +kernel⟩
theorem wit_BridgeRunsSixSteps_4 : (((bridge1 bcRamp 1 { : BcSt }).start 8).bcOn 3 = true)
    ∧ (((bridge1 bcRamp 1 { : BcSt }).start 8).bcPhase 3 = bcRamp)
    ∧ ((((bridge1 bcRamp 1 { : BcSt }).start 8).bc 3).phaseAt + ((bridge1 bcRamp 1 { : BcSt }).start 8).f R.AUX_BC_START_T_RAMP 3 * 10 * msQ ≤ ((bridge1 bcRamp 1 { : BcSt }).start 8).now)
    := by decide +kernel
theorem wit_BridgeRunsSixSteps_5 : (((bridge1 bcRamp 2 { : BcSt }).start 8).bcOn 3 = true)
    ∧ (((bridge1 bcRamp 2 { : BcSt }).start 8).bcPhase 3 = bcRamp)
    ∧ ((((bridge1 bcRamp 2 { : BcSt }).start 8).bc 3).phaseAt + ((bridge1 bcRamp 2 { : BcSt }).start 8).f R.AUX_BC_START_T_RAMP 3 * 10 * msQ ≤ ((bridge1 bcRamp 2 { : BcSt }).start 8).now)
    := by decide +kernel
theorem wit_BridgeRunsSixSteps_6 : (((bridge1 bcClosed 2 { : BcSt }).start 8).bcOn 3 = true)
    ∧ (((bridge1 bcClosed 2 { : BcSt }).start 8).bcPhase 3 = bcClosed) ∧ ((((bridge1 bcClosed 2 { : BcSt }).start 8).bc 3).crossed = false)
    ∧ ((((bridge1 bcClosed 2 { : BcSt }).start 8).bc 3).commAt + 2 * (((bridge1 bcClosed 2 { : BcSt }).start 8).bc 3).interval.getD 0 ≤ ((bridge1 bcClosed 2 { : BcSt }).start 8).now)
    := by decide +kernel
theorem wit_BridgeRunsSixSteps_7 : (((bridge1 bcStopped 2 { retryAt := some 8 : BcSt }).start 8).bcOn 3 = true)
    ∧ (((bridge1 bcStopped 2 { retryAt := some 8 : BcSt }).start 8).bcPhase 3 = bcStopped)
    ∧ (∃ r, (((bridge1 bcStopped 2 { retryAt := some 8 : BcSt }).start 8).bc 3).retryAt = some r
    ∧ r ≤ ((bridge1 bcStopped 2 { retryAt := some 8 : BcSt }).start 8).now)
    ∧ (((bridge1 bcStopped 2 { retryAt := some 8 : BcSt }).start 8).b R.PWR_TOK_CFG_EN = true)
    ∧ (((bridge1 bcStopped 2 { retryAt := some 8 : BcSt }).start 8).b R.PWR_TOK_STAT_OPEN = false) := ⟨by decide +kernel, by decide +kernel,
    by (exact ⟨8, by decide +kernel, by decide +kernel⟩), by decide +kernel, by decide +kernel⟩
def cmd1 (mode : Nat) (c : CmdSt) : State :=
  { ((((((live.setB R.AUX_CMD_CFG_EN true).setF R.AUX_CMD_CFG_MODE mode).setB R.AUX_CMD_CFG_ACC_EN true).setF R.AUX_CMD_CFG_ACC 255).setB
      R.MEAS_ACC_CFG_EN true 255).setF R.AUX_CMD_SCALE_F_FS 1000) with pwm := { cmd := c } }
theorem wit_CommandInputMakesCodes_1 : (((cmd1 0 { : CmdSt }).start (1000 * usQ)).b R.AUX_CMD_CFG_ACC_EN = true)
    ∧ (((cmd1 0 { : CmdSt }).start (1000 * usQ)).f R.AUX_CMD_CFG_ACC = 255) ∧ (((cmd1 0 { : CmdSt }).start (1000 * usQ)).b R.AUX_CMD_CFG_MMT_EN = false)
    ∧ (((cmd1 0 { : CmdSt }).start (1000 * usQ)).b R.MEAS_ACC_CFG_EN 255 = true)
    ∧ (((cmd1 0 { : CmdSt }).start (1000 * usQ)).b R.MEAS_ACC_CFG_MODE 255 = false)
    ∧ (((cmd1 0 { : CmdSt }).start (1000 * usQ)).f R.MEAS_ACC_CLOSE_SRC 255 ≠ 2)
    ∧ ((((cmd1 0 { : CmdSt }).start (1000 * usQ)).acc 255).cnt + 1 < 16777215) ∧ (((cmd1 0 { : CmdSt }).start (1000 * usQ)).cmdOn 0 = true)
    ∧ (((cmd1 0 { : CmdSt }).start (1000 * usQ)).pwm.cmd.lastAt + (((cmd1 0 { : CmdSt }).start (1000 * usQ)).f R.AUX_CMD_CFG_RATE + 1) * usQ ≤ ((cmd1 0 { : CmdSt }).start (1000 * usQ)).now)
    := by decide +kernel
def duty1 : State := cmd1 1 { riseAt := some 0, fallAt := 100000 }
/-- The command input after its filter has seen a wave up to an instant. -/
def fed (s : State) (wave : List (Instant × Bool)) (t : Instant) : CmdSt := (s.pwm.cmd.feed s.cmdFilt wave t).1
theorem wit_CommandInputMakesCodes_2 : ((duty1.start 500000).b R.AUX_CMD_CFG_ACC_EN = true) ∧ ((duty1.start 500000).f R.AUX_CMD_CFG_ACC = 255)
    ∧ ((duty1.start 500000).b R.AUX_CMD_CFG_MMT_EN = false) ∧ ((duty1.start 500000).b R.MEAS_ACC_CFG_EN 255 = true)
    ∧ ((duty1.start 500000).b R.MEAS_ACC_CFG_MODE 255 = false) ∧ ((duty1.start 500000).f R.MEAS_ACC_CLOSE_SRC 255 ≠ 2)
    ∧ (((duty1.start 500000).acc 255).cnt + 1 < 16777215) ∧ ((duty1.start 500000).cmdOn 1 = true)
    ∧ ((duty1.start 500000).pwm.cmd.feed (duty1.start 500000).cmdFilt [(400000, true)] (duty1.start 500000).now = (fed duty1 [(400000, true)] 500000, [(400000, 100000)]))
    ∧ (50 * usQ ≤ 400000) ∧ (400000 ≤ 1000 * usQ) := by decide +kernel
theorem wit_CommandInputMakesCodes_3 : ((duty1.start 5000000).b R.AUX_CMD_CFG_ACC_EN = true) ∧ ((duty1.start 5000000).f R.AUX_CMD_CFG_ACC = 255)
    ∧ ((duty1.start 5000000).b R.AUX_CMD_CFG_MMT_EN = false) ∧ ((duty1.start 5000000).b R.MEAS_ACC_CFG_EN 255 = true)
    ∧ ((duty1.start 5000000).b R.MEAS_ACC_CFG_MODE 255 = false) ∧ ((duty1.start 5000000).f R.MEAS_ACC_CLOSE_SRC 255 ≠ 2)
    ∧ (((duty1.start 5000000).acc 255).cnt + 1 < 16777215) ∧ ((duty1.start 5000000).cmdOn 1 = true)
    ∧ ((duty1.start 5000000).pwm.cmd.feed (duty1.start 5000000).cmdFilt [(4000001, true)] (duty1.start 5000000).now = (fed duty1 [(4000001, true)] 5000000, [(4000001, 100000)]))
    ∧ (4000001 < 50 * usQ ∨ 1000 * usQ < 4000001) := ⟨by decide +kernel, by decide +kernel, by decide +kernel, by decide +kernel, by decide +kernel,
    by decide +kernel, by decide +kernel, by decide +kernel, by decide +kernel, by (exact Or.inr (by decide +kernel))⟩
theorem wit_CommandInputMakesCodes_4 : ((duty1.start 500000).b R.AUX_CMD_CFG_ACC_EN = true) ∧ ((duty1.start 500000).f R.AUX_CMD_CFG_ACC = 255)
    ∧ ((duty1.start 500000).b R.AUX_CMD_CFG_MMT_EN = false) ∧ ((duty1.start 500000).b R.MEAS_ACC_CFG_EN 255 = true)
    ∧ ((duty1.start 500000).b R.MEAS_ACC_CFG_MODE 255 = false) ∧ ((duty1.start 500000).f R.MEAS_ACC_CLOSE_SRC 255 ≠ 2)
    ∧ (((duty1.start 500000).acc 255).cnt + 1 < 16777215) ∧ ((duty1.start 500000).cmdOn 1 = true) ∧ ((duty1.start 500000).pwm.cmd.level = false)
    ∧ ((duty1.start 500000).pwm.cmd.raw = false) ∧ ((duty1.start 500000).pwm.cmd.riseAt = some 0)
    ∧ (400000 + (duty1.start 500000).cmdFilt ≤ (duty1.start 500000).now) ∧ (50 * usQ ≤ 400000 - 0) ∧ (400000 - 0 ≤ 1000 * usQ) := by decide +kernel
theorem wit_CommandInputMakesCodes_5 : ((duty1.start 400010).b R.AUX_CMD_CFG_ACC_EN = true) ∧ ((duty1.start 400010).f R.AUX_CMD_CFG_ACC = 255)
    ∧ ((duty1.start 400010).b R.AUX_CMD_CFG_MMT_EN = false) ∧ ((duty1.start 400010).b R.MEAS_ACC_CFG_EN 255 = true)
    ∧ ((duty1.start 400010).b R.MEAS_ACC_CFG_MODE 255 = false) ∧ ((duty1.start 400010).f R.MEAS_ACC_CLOSE_SRC 255 ≠ 2)
    ∧ (((duty1.start 400010).acc 255).cnt + 1 < 16777215) ∧ ((duty1.start 400010).cmdOn 1 = true) ∧ ((duty1.start 400010).pwm.cmd.level = false)
    ∧ ((duty1.start 400010).pwm.cmd.raw = false) ∧ ((duty1.start 400010).pwm.cmd.riseAt = some 0)
    ∧ ((duty1.start 400010).now < 400000 + (duty1.start 400010).cmdFilt) := by decide +kernel
def freq1 : State := cmd1 2 { riseAt := some 0 }
theorem wit_CommandInputMakesCodes_6 : ((freq1.start 12000000).b R.AUX_CMD_CFG_ACC_EN = true) ∧ ((freq1.start 12000000).f R.AUX_CMD_CFG_ACC = 255)
    ∧ ((freq1.start 12000000).b R.AUX_CMD_CFG_MMT_EN = false) ∧ ((freq1.start 12000000).b R.MEAS_ACC_CFG_EN 255 = true)
    ∧ ((freq1.start 12000000).b R.MEAS_ACC_CFG_MODE 255 = false) ∧ ((freq1.start 12000000).f R.MEAS_ACC_CLOSE_SRC 255 ≠ 2)
    ∧ (((freq1.start 12000000).acc 255).cnt + 1 < 16777215) ∧ ((freq1.start 12000000).cmdOn 2 = true)
    ∧ ((freq1.start 12000000).pwm.cmd.lastAt + ((freq1.start 12000000).f R.AUX_CMD_CFG_RATE + 1) * 100 * usQ ≤ (freq1.start 12000000).now)
    ∧ (((freq1.start 12000000).pwm.cmd.feed (freq1.start 12000000).cmdFilt [(8000000, true)] (freq1.start 12000000).now).fst = fed freq1 [(8000000, true)] 12000000)
    ∧ ((fed freq1 [(8000000, true)] 12000000).riseAt = some 8000000) ∧ ((fed freq1 [(8000000, true)] 12000000).per = some 8000000)
    ∧ ((freq1.start 12000000).now ≤ 8000000 + secQ) ∧ (8000000 ≠ 0) ∧ ((freq1.start 12000000).f R.AUX_CMD_SCALE_F_FS ≠ 0) := by decide +kernel
theorem wit_CommandInputMakesCodes_7 : (((cmd1 2 { : CmdSt }).start 12000000).b R.AUX_CMD_CFG_ACC_EN = true)
    ∧ (((cmd1 2 { : CmdSt }).start 12000000).f R.AUX_CMD_CFG_ACC = 255) ∧ (((cmd1 2 { : CmdSt }).start 12000000).b R.AUX_CMD_CFG_MMT_EN = false)
    ∧ (((cmd1 2 { : CmdSt }).start 12000000).b R.MEAS_ACC_CFG_EN 255 = true) ∧ (((cmd1 2 { : CmdSt }).start 12000000).b R.MEAS_ACC_CFG_MODE 255 = false)
    ∧ (((cmd1 2 { : CmdSt }).start 12000000).f R.MEAS_ACC_CLOSE_SRC 255 ≠ 2) ∧ ((((cmd1 2 { : CmdSt }).start 12000000).acc 255).cnt + 1 < 16777215)
    ∧ (((cmd1 2 { : CmdSt }).start 12000000).cmdOn 2 = true)
    ∧ (((cmd1 2 { : CmdSt }).start 12000000).pwm.cmd.lastAt + (((cmd1 2 { : CmdSt }).start 12000000).f R.AUX_CMD_CFG_RATE + 1) * 100 * usQ ≤ ((cmd1 2 { : CmdSt }).start 12000000).now)
    ∧ ((((cmd1 2 { : CmdSt }).start 12000000).pwm.cmd.feed ((cmd1 2 { : CmdSt }).start 12000000).cmdFilt [] ((cmd1 2 { : CmdSt }).start 12000000).now).fst = fed (cmd1 2 { : CmdSt }) [] 12000000)
    ∧ ((fed (cmd1 2 { : CmdSt }) [] 12000000).riseAt = none ∨ ∃ rise, (fed (cmd1 2 { : CmdSt }) [] 12000000).riseAt = some rise
    ∧ rise + secQ < ((cmd1 2 { : CmdSt }).start 12000000).now) := ⟨by decide +kernel, by decide +kernel, by decide +kernel, by decide +kernel,
    by decide +kernel, by decide +kernel, by decide +kernel, by decide +kernel, by decide +kernel, by decide +kernel,
    by (exact Or.inl (by decide +kernel))⟩
theorem wit_CommandInputMakesCodes_8 : (((cmd1 1 { : CmdSt }).start 12000000).b R.AUX_CMD_CFG_ACC_EN = true)
    ∧ (((cmd1 1 { : CmdSt }).start 12000000).f R.AUX_CMD_CFG_ACC = 255) ∧ (((cmd1 1 { : CmdSt }).start 12000000).b R.AUX_CMD_CFG_MMT_EN = false)
    ∧ (((cmd1 1 { : CmdSt }).start 12000000).b R.MEAS_ACC_CFG_EN 255 = true) ∧ (((cmd1 1 { : CmdSt }).start 12000000).b R.MEAS_ACC_CFG_MODE 255 = false)
    ∧ (((cmd1 1 { : CmdSt }).start 12000000).f R.MEAS_ACC_CLOSE_SRC 255 ≠ 2) ∧ ((((cmd1 1 { : CmdSt }).start 12000000).acc 255).cnt + 1 < 16777215)
    ∧ (((cmd1 1 { : CmdSt }).start 12000000).cmdOn 1 = true)
    ∧ (((cmd1 1 { : CmdSt }).start 12000000).pwm.cmd.feed ((cmd1 1 { : CmdSt }).start 12000000).cmdFilt [] ((cmd1 1 { : CmdSt }).start 12000000).now = (fed (cmd1 1 { : CmdSt }) [] 12000000, []))
    ∧ ((fed (cmd1 1 { : CmdSt }) [] 12000000).quietAt + (2 + (fed (cmd1 1 { : CmdSt }) [] 12000000).statics) * msQ ≤ ((cmd1 1 { : CmdSt }).start 12000000).now)
    := by decide +kernel
def slot23 (c : Carrier) : State := { pwm1.setF R.PWM_SLOT_TOP_TOP 5000 23 with pwm := { carriers := [(23, c)] } }
def slotChan (c : Chan) : State :=
  { slot23 {} with pwm := { carriers := [(23, { hp := some ⟨0, 5000, true⟩ })], chans := [(138, c)] } }
theorem wit_CarriersTurnAndValuesTakeEffect_1 : (((slot23 { hp := some { start := 0, len := 5000, up := true : HalfPeriod } : Carrier }).start 40000).sealed = true)
    ∧ (23 < 28) ∧ (((slot23 { hp := some { start := 0, len := 5000, up := true : HalfPeriod } : Carrier }).start 40000).bridge 23 = 23)
    ∧ ((((slot23 { hp := some { start := 0, len := 5000, up := true : HalfPeriod } : Carrier }).start 40000).carrier 23).hp = some { start := 0, len := 5000, up := true : HalfPeriod })
    ∧ ({ start := 0, len := 5000, up := true : HalfPeriod }.start + { start := 0, len := 5000, up := true : HalfPeriod }.len ≤ ((slot23 { hp := some { start := 0, len := 5000, up := true : HalfPeriod } : Carrier }).start 40000).pwmTime)
    := by decide +kernel
theorem wit_CarriersTurnAndValuesTakeEffect_2 : (((slot23 { hp := some { start := 5000, len := 5000, up := false : HalfPeriod }, newTop := [(6000, 9000)] : Carrier }).start 80000).sealed = true)
    ∧ (23 < 28) ∧ (((slot23 { hp := some { start := 5000, len := 5000, up := false : HalfPeriod }, newTop := [(6000, 9000)] : Carrier }).start 80000).bridge 23 = 23)
    ∧ ((((slot23 { hp := some { start := 5000, len := 5000, up := false : HalfPeriod }, newTop := [(6000, 9000)] : Carrier }).start 80000).carrier 23).hp = some { start := 5000, len := 5000, up := false : HalfPeriod })
    ∧ ({ start := 5000, len := 5000, up := false : HalfPeriod }.start + { start := 5000, len := 5000, up := false : HalfPeriod }.len ≤ ((slot23 { hp := some { start := 5000, len := 5000, up := false : HalfPeriod }, newTop := [(6000, 9000)] : Carrier }).start 80000).pwmTime)
    := by decide +kernel
theorem wit_CarriersTurnAndValuesTakeEffect_3 : (((slot23 { : Carrier }).start 80000).sealed = true) ∧ (23 < 28)
    ∧ (((slot23 { : Carrier }).start 80000).bridge 23 = 23) ∧ (((slot23 { : Carrier }).start 80000).targetEn 23 = true)
    ∧ (((slot23 { : Carrier }).start 80000).topo 23 ≠ topoOff) ∧ ((((slot23 { : Carrier }).start 80000).carrier 23).hp = none)
    ∧ (((slot23 { : Carrier }).start 80000).nextZero 23 (((slot23 { : Carrier }).start 80000).pwm.enTick + 5000) (((slot23 { : Carrier }).start 80000).top 23) ≤ ((slot23 { : Carrier }).start 80000).pwmTime)
    ∧ (((slot23 { : Carrier }).start 80000).room) := by decide +kernel
theorem wit_CarriersTurnAndValuesTakeEffect_4 : (((slotChan { edge := some 800 : Chan }).start 800).sealed = true) ∧ (23 < 28) ∧ (0 < 6)
    ∧ (0 ∈ ((slotChan { edge := some 800 : Chan }).start 800).refChans 23 (0 / 2)) ∧ (((slotChan { edge := some 800 : Chan }).start 800).topo 23 ≠ topoA)
    ∧ (((slotChan { edge := some 800 : Chan }).start 800).topo 23 ≠ topoB)
    ∧ (((slotChan { edge := some 800 : Chan }).start 800).b R.TRIP_CTL_ARMED = false)
    ∧ ((((slotChan { edge := some 800 : Chan }).start 800).carrier 23).hp = some { start := 0, len := 5000, up := true : HalfPeriod })
    ∧ ((((slotChan { edge := some 800 : Chan }).start 800).leg 23 (0 / 2)).queue = [])
    ∧ ((((slotChan { edge := some 800 : Chan }).start 800).chan (6 * 23 + 0)).edge = some 800)
    ∧ (800 ≤ min ((slotChan { edge := some 800 : Chan }).start 800).pwmQ (({ start := 0, len := 5000, up := true : HalfPeriod }.start + { start := 0, len := 5000, up := true : HalfPeriod }.len) * 8 - 1))
    := by decide +kernel
theorem wit_CarriersTurnAndValuesTakeEffect_5 : (((slot23 { served := [(100, true)] : Carrier }).start 800).sealed = true) ∧ (23 < 28)
    := by decide +kernel
theorem wit_CarriersTurnAndValuesTakeEffect_6 : (((slot23 { wdCount := 1 : Carrier }).start 800).sealed = true) ∧ (23 < 28)
    ∧ (((slot23 { wdCount := 1 : Carrier }).start 800).activeOwner 23 = some 511)
    ∧ ((((slot23 { wdCount := 1 : Carrier }).start 800).carrier 23).wdLine = false)
    ∧ (((slot23 { wdCount := 1 : Carrier }).start 800).f R.LOOP_CTX_FLT_WD_N 511 + 1 ≤ (((slot23 { wdCount := 1 : Carrier }).start 800).carrier 23).wdCount)
    ∧ (((slot23 { wdCount := 1 : Carrier }).start 800).room) := by decide +kernel
def bcWait : WaitVal := { val := { mode := .compare, ticks := 1000, fine := 4 }, teff := 100, issue := 0, withHigh := true }
/-- Block commutation of AX3 with a waiting value on its first channel. -/
def commutes : State :=
  { (((pwm1.setB R.AUX_CTL_EN true).setB R.AUX_BR_CFG_EN true 3).setB R.AUX_BC_CFG_EN true 3).setF R.AUX_BR_TOP_TOP 5000 3 with
    pwm := { chans := [(162, { wait := some bcWait })], carriers := [(27, { served := [(100, true)] })] } }
theorem wit_CarriersTurnAndValuesTakeEffect_7 : ((commutes.start 800).sealed = true) ∧ (27 < 28) := by decide +kernel
theorem wit_CarriersTurnAndValuesTakeEffect_8 : let u := commutes.start 800
    27 = 24 + 3 ∧ u.bcOn 3 = true ∧ (u.chan (6 * 27)).wait = some bcWait ∧ bcWait.teff ≤ u.pwmTime := by decide +kernel
def fb1 : State := (live.setF R.PWM_FB_CFG_FB_EN 32 23).setF R.PWM_FB_CFG_POL 32 23
def aux1 (c : Chan) : State :=
  { (((live.setB R.AUX_CTL_EN true).setB R.AUX_BR_CFG_EN true 3).setB R.TRIP_TGT_STAT_HELD false 27).setF R.TRIP_TGT_STAT_ACTION 0 27 with pwm := { chans := [(166, { drive := false }), (167, c)] } }
def cmp1 : State := live.setB R.TRIP_CMP_CFG_EN true 15
theorem wit_TripSourcesSetTheirLines_1 : ((fb1.start 8000).sealed = true) ∧ (143 < 144)
    ∧ ((fb1.start 8000).bitF R.PWM_FB_CFG_FB_EN (143 % 6) (143 / 6) = true)
    ∧ ((fb1.start 8000).bitF R.PWM_FB_STAT_LIVE (143 % 6) (143 / 6) ≠ ((some true).getD ((fb1.start 8000).bitF R.PWM_FB_CFG_POL (143 % 6) (143 / 6)) == (fb1.start 8000).bitF R.PWM_FB_CFG_POL (143 % 6) (143 / 6)))
    ∧ (max ((fb1.start 8000).firstTick 0) (fb1.start 8000).pwm.enTick + (fb1.start 8000).f R.PWM_FB_CFG_FILT (143 / 6) ≤ (fb1.start 8000).pwmTime)
    ∧ (((fb1.start 8000).advance ((fb1.start 8000).bridge (143 / 6)) (fb1.start 8000).pwmQ).room) := by decide +kernel
theorem wit_TripSourcesSetTheirLines_10 : ((fb1.start 8000).sealed = true) ∧ (143 < 144)
    ∧ ((fb1.start 8000).bitF R.PWM_FB_CFG_FB_EN (143 % 6) (143 / 6) = true)
    ∧ ((fb1.start 8000).bitF R.PWM_FB_STAT_LIVE (143 % 6) (143 / 6) ≠ (none.getD ((fb1.start 8000).bitF R.PWM_FB_CFG_POL (143 % 6) (143 / 6)) == (fb1.start 8000).bitF R.PWM_FB_CFG_POL (143 % 6) (143 / 6)))
    ∧ (max ((fb1.start 8000).firstTick 0) (fb1.start 8000).pwm.enTick + (fb1.start 8000).f R.PWM_FB_CFG_FILT (143 / 6) ≤ (fb1.start 8000).pwmTime)
    ∧ (((fb1.start 8000).advance ((fb1.start 8000).bridge (143 / 6)) (fb1.start 8000).pwmQ).room) := by decide +kernel
theorem wit_TripSourcesSetTheirLines_2 : ((live.start 8000).sealed = true) ∧ (3 < 4) ∧ (2 < 3)
    ∧ ((live.start 8000).bitF R.AUX_BR_STAT_BOOT_UV_LIVE 2 3 = false) ∧ (((live.start 8000).advance (24 + 3) (live.start 8000).pwmQ).room)
    := by decide +kernel
theorem wit_TripSourcesSetTheirLines_3 : (((live.setF R.AUX_BR_STAT_BOOT_UV_LIVE 7 3).start 8000).sealed = true) ∧ (3 < 4) ∧ (2 < 3)
    ∧ (((live.setF R.AUX_BR_STAT_BOOT_UV_LIVE 7 3).start 8000).bitF R.AUX_BR_STAT_BOOT_UV_LIVE 2 3 = true) := by decide +kernel
theorem wit_TripSourcesSetTheirLines_4 : (((aux1 { drive := true, pin := true : Chan }).start 8000).sealed = true) ∧ (3 < 4) ∧ (5 < 6)
    ∧ (((((aux1 { drive := true, pin := true : Chan }).start 8000).advance (24 + 3) ((aux1 { drive := true, pin := true : Chan }).start 8000).pwmQ).chan (6 * (24 + 3) + 5)).pin = true)
    ∧ ((fun mv => ↑(1000 * vdsThreshold (if 5 % 2 = 0 then (((aux1 { drive := true, pin := true : Chan }).start 8000).advance (24 + 3) ((aux1 { drive := true, pin := true : Chan }).start 8000).pwmQ).f R.AUX_BR_VDS_VTH_HS 3 else (((aux1 { drive := true, pin := true : Chan }).start 8000).advance (24 + 3) ((aux1 { drive := true, pin := true : Chan }).start 8000).pwmQ).f R.AUX_BR_VDS_VTH_LS 3)) < mv) 1000000000)
    ∧ ((((aux1 { drive := true, pin := true : Chan }).start 8000).advance (24 + 3) ((aux1 { drive := true, pin := true : Chan }).start 8000).pwmQ).bitF R.AUX_BR_STAT_VDS_LIVE 5 3 = false)
    ∧ ((((aux1 { drive := true, pin := true : Chan }).start 8000).advance (24 + 3) ((aux1 { drive := true, pin := true : Chan }).start 8000).pwmQ).room)
    ∧ ((if (((aux1 { drive := true, pin := true : Chan }).start 8000).advance (24 + 3) ((aux1 { drive := true, pin := true : Chan }).start 8000).pwmQ).pwmQ - ((((aux1 { drive := true, pin := true : Chan }).start 8000).advance (24 + 3) ((aux1 { drive := true, pin := true : Chan }).start 8000).pwmQ).now - 0) ≤ ((((aux1 { drive := true, pin := true : Chan }).start 8000).advance (24 + 3) ((aux1 { drive := true, pin := true : Chan }).start 8000).pwmQ).chan (6 * (24 + 3) + 5)).pinAt + ((((aux1 { drive := true, pin := true : Chan }).start 8000).advance (24 + 3) ((aux1 { drive := true, pin := true : Chan }).start 8000).pwmQ).f R.AUX_BR_VDS_BLANK 3 + 1) * 250 * nsQ then ((((aux1 { drive := true, pin := true : Chan }).start 8000).advance (24 + 3) ((aux1 { drive := true, pin := true : Chan }).start 8000).pwmQ).chan (6 * (24 + 3) + 5)).pinAt + ((((aux1 { drive := true, pin := true : Chan }).start 8000).advance (24 + 3) ((aux1 { drive := true, pin := true : Chan }).start 8000).pwmQ).f R.AUX_BR_VDS_BLANK 3 + 1) * 250 * nsQ else (((aux1 { drive := true, pin := true : Chan }).start 8000).advance (24 + 3) ((aux1 { drive := true, pin := true : Chan }).start 8000).pwmQ).pwmQ - ((((aux1 { drive := true, pin := true : Chan }).start 8000).advance (24 + 3) ((aux1 { drive := true, pin := true : Chan }).start 8000).pwmQ).now - 0) + ((((aux1 { drive := true, pin := true : Chan }).start 8000).advance (24 + 3) ((aux1 { drive := true, pin := true : Chan }).start 8000).pwmQ).f R.AUX_BR_VDS_VFILT 3 + 1) * 50 * nsQ) ≤ (((aux1 { drive := true, pin := true : Chan }).start 8000).advance (24 + 3) ((aux1 { drive := true, pin := true : Chan }).start 8000).pwmQ).pwmQ)
    := by decide +kernel
theorem wit_TripSourcesSetTheirLines_5 : (((aux1 { drive := true, pin := true, changes := [7000] : Chan }).start 7999).sealed = true) ∧ (3 < 4)
    ∧ (5 < 6) ∧ (((((aux1 { drive := true, pin := true, changes := [7000] : Chan }).start 7999).advance (24 + 3) ((aux1 { drive := true, pin := true, changes := [7000] : Chan }).start 7999).pwmQ).chan (6 * (24 + 3) + 5)).pin = true)
    ∧ ((fun mv => ↑(1000 * vdsThreshold (if 5 % 2 = 0 then (((aux1 { drive := true, pin := true, changes := [7000] : Chan }).start 7999).advance (24 + 3) ((aux1 { drive := true, pin := true, changes := [7000] : Chan }).start 7999).pwmQ).f R.AUX_BR_VDS_VTH_HS 3 else (((aux1 { drive := true, pin := true, changes := [7000] : Chan }).start 7999).advance (24 + 3) ((aux1 { drive := true, pin := true, changes := [7000] : Chan }).start 7999).pwmQ).f R.AUX_BR_VDS_VTH_LS 3)) < mv) 1000000000)
    ∧ ((((aux1 { drive := true, pin := true, changes := [7000] : Chan }).start 7999).advance (24 + 3) ((aux1 { drive := true, pin := true, changes := [7000] : Chan }).start 7999).pwmQ).pwmQ < ((((aux1 { drive := true, pin := true, changes := [7000] : Chan }).start 7999).advance (24 + 3) ((aux1 { drive := true, pin := true, changes := [7000] : Chan }).start 7999).pwmQ).chan (6 * (24 + 3) + 5)).pinAt + ((((aux1 { drive := true, pin := true, changes := [7000] : Chan }).start 7999).advance (24 + 3) ((aux1 { drive := true, pin := true, changes := [7000] : Chan }).start 7999).pwmQ).f R.AUX_BR_VDS_BLANK 3 + 1) * 250 * nsQ)
    := by decide +kernel
theorem wit_TripSourcesSetTheirLines_6 : ((live.start 8000).sealed = true) ∧ ((live.start 8000).b R.AUX_CTL_VGD_UV = false) := by decide +kernel
theorem wit_TripSourcesSetTheirLines_7 : (((live.setB R.AUX_CTL_VGD_UV true).start 8000).sealed = true)
    ∧ (((live.setB R.AUX_CTL_VGD_UV true).start 8000).b R.AUX_CTL_VGD_UV = true) := by decide +kernel
theorem wit_TripSourcesSetTheirLines_8 : ((cmp1.start 8000).sealed = true) ∧ (15 < 16) ∧ ((cmp1.start 8000).b R.TRIP_CMP_CFG_EN 15 = true)
    ∧ (max ((cmp1.start 8000).firstTick 0) (cmp1.start 8000).pwm.enTick + (cmp1.start 8000).f R.TRIP_CMP_CFG_CFILT 15 ≤ (cmp1.start 8000).pwmTime)
    ∧ ((cmp1.start 8000).bitF R.TRIP_CMP_STAT_LIVE 15 = false)
    ∧ (if (cmp1.start 8000).b R.TRIP_CMP_CFG_POL 15 = true then (((cmp1.start 8000).f R.TRIP_CMP_CFG_THR 15 * 2500000000 : Nat) : Int) < -1 * 1024 else -1 * 1024 < (((cmp1.start 8000).f R.TRIP_CMP_CFG_THR 15 * 2500000000 : Nat) : Int))
    ∧ ((cmp1.start 8000).room) := by decide +kernel
theorem wit_TripSourcesSetTheirLines_9 : (((cmp1.setF R.TRIP_CMP_STAT_LIVE 32768).start 8000).sealed = true) ∧ (15 < 16)
    ∧ (((cmp1.setF R.TRIP_CMP_STAT_LIVE 32768).start 8000).b R.TRIP_CMP_CFG_EN 15 = true)
    ∧ (max (((cmp1.setF R.TRIP_CMP_STAT_LIVE 32768).start 8000).firstTick 0) ((cmp1.setF R.TRIP_CMP_STAT_LIVE 32768).start 8000).pwm.enTick + ((cmp1.setF R.TRIP_CMP_STAT_LIVE 32768).start 8000).f R.TRIP_CMP_CFG_CFILT 15 ≤ ((cmp1.setF R.TRIP_CMP_STAT_LIVE 32768).start 8000).pwmTime)
    ∧ (((cmp1.setF R.TRIP_CMP_STAT_LIVE 32768).start 8000).bitF R.TRIP_CMP_STAT_LIVE 15 = true)
    ∧ (if ((cmp1.setF R.TRIP_CMP_STAT_LIVE 32768).start 8000).b R.TRIP_CMP_CFG_POL 15 = true then 0 * 1024 ≤ ↑(((cmp1.setF R.TRIP_CMP_STAT_LIVE 32768).start 8000).f R.TRIP_CMP_CFG_THR 15 * 2500000000) - ↑(((cmp1.setF R.TRIP_CMP_STAT_LIVE 32768).start 8000).f R.TRIP_CMP_CFG_HYS 15 * 2441000 * 1024) else ↑(((cmp1.setF R.TRIP_CMP_STAT_LIVE 32768).start 8000).f R.TRIP_CMP_CFG_THR 15 * 2500000000) + ↑(((cmp1.setF R.TRIP_CMP_STAT_LIVE 32768).start 8000).f R.TRIP_CMP_CFG_HYS 15 * 2441000 * 1024) ≤ 0 * 1024)
    := by decide +kernel
def masked : State := { (live.setB R.TRIP_TGT_STAT_STO_MASKED true 27) with trip := { stoMask := true, stoEnd := some 800 } }
theorem wit_LatchesHoldUntilCleared_1 : bestDemand [{ ord := 1, act := 1, first := 7, latch := false : Demand }, { ord := 0, act := 2, first := 8, latch := true : Demand }] = some { ord := 0, act := 2, first := 8, latch := true : Demand }
    := by decide +kernel
theorem wit_LatchesHoldUntilCleared_2 : ((masked.start 800).trip.stoMask = true) ∧ ((masked.start 800).trip.stoEnd = some 800)
    ∧ (800 ≤ (masked.start 800).now) := by decide +kernel
def latchedT : State := { live.setF R.TRIP_LATCH_LATCH 0x8000000 with fresh := [] }
def shortT : State := latchedT.setF R.TRIP_SHORT_SHORT 0xA000000
theorem wit_LatchesHoldUntilCleared_3 : ((shortT.start 0).actionWrite 0 R.TRIP_LATCH_LATCH 134217728 = (reqOnce shortT 0 R.TRIP_LATCH_LATCH 134217728 0 0, true))
    ∧ (27 < 28) ∧ (BitVec.toNat (134217728 : Word) = 2 ^ 27) ∧ ((reqOnce shortT 0 R.TRIP_LATCH_LATCH 134217728 0 0).bitF R.TRIP_LATCH_LATCH 27 = true)
    ∧ ((reqOnce shortT 0 R.TRIP_LATCH_LATCH 134217728 0 0).latchSource 27 = true) ∧ ((reqOnce shortT 0 R.TRIP_LATCH_LATCH 134217728 0 0).room)
    := ⟨by (exact Prod.ext rfl (by decide +kernel)), by decide +kernel, by decide +kernel, by decide +kernel, by decide +kernel, by decide +kernel⟩
theorem wit_LatchesHoldUntilCleared_4 : ((latchedT.start 0).actionWrite 0 R.TRIP_LATCH_LATCH 134217728 = (reqOnce latchedT 0 R.TRIP_LATCH_LATCH 134217728 0 0, true))
    ∧ (27 < 28) ∧ (BitVec.toNat (134217728 : Word) = 2 ^ 27) ∧ ((reqOnce latchedT 0 R.TRIP_LATCH_LATCH 134217728 0 0).bitF R.TRIP_LATCH_LATCH 27 = true)
    ∧ ((reqOnce latchedT 0 R.TRIP_LATCH_LATCH 134217728 0 0).latchSource 27 = false)
    ∧ ((reqOnce latchedT 0 R.TRIP_LATCH_LATCH 134217728 0 0).setNow R.TRIP_LATCH_LATCH 27 = false) := ⟨by (exact Prod.ext rfl (by decide +kernel)),
    by decide +kernel, by decide +kernel, by decide +kernel, by decide +kernel, by decide +kernel⟩
theorem wit_LatchesHoldUntilCleared_5 : (shortT.start 0).actionWrite 0 (if false = true then R.TRIP_MLS_MLS else R.TRIP_SHORT_SHORT) 33554432 = (reqOnce shortT 0 R.TRIP_SHORT_SHORT 33554432 0 0, true)
    := by (exact Prod.ext rfl (by decide +kernel))
def life1 : State := { live with trip := { lifeCfg := { present := true, tLm := 100, saveInt := 60, posMap := List.replicate 168 0 }, lifeRecs := [(27, { fresh := true })] } }
theorem wit_LifeModelStepsAndSaves_1 : ((life1.start 8).sealed = true) ∧ ((life1.start 8).trip.lifeCfg.present = true) ∧ (27 < 28)
    := by decide +kernel
theorem wit_LifeModelStepsAndSaves_2 : ((life1.start (100 * usQ)).sealed = true) ∧ ((life1.start (100 * usQ)).trip.lifeCfg.present = true)
    ∧ ((life1.start (100 * usQ)).trip.lifeLastStep + (life1.start (100 * usQ)).trip.lifeCfg.tLm * usQ ≤ (life1.start (100 * usQ)).now)
    := by decide +kernel
theorem wit_LifeModelStepsAndSaves_3 : ((life1.start (3600 * secQ)).sealed = true) ∧ ((life1.start (3600 * secQ)).trip.lifeCfg.present = true)
    ∧ ((life1.start (3600 * secQ)).trip.lifeLastSave + (life1.start (3600 * secQ)).trip.lifeCfg.saveInt * 60 * secQ ≤ (life1.start (3600 * secQ)).now)
    := by decide +kernel
def rel1 (r : RelSt) : State := { ((live.setB R.REL_CTL_EN true).setB R.REL_CTL_SCRUB_EN true) with rel := r }
theorem wit_ReliabilityCountsAndTests_1 : (((rel1 { backing := [(0, 384)] : RelSt }).start 8).sealed = true) ∧ (23 < 24) ∧ (15 < 16) ∧ (1 < 2)
    ∧ (((rel1 { backing := [(0, 384)] : RelSt }).start 8).room) := by decide +kernel
theorem wit_ReliabilityCountsAndTests_2 : (((rel1 { : RelSt }).start 8).sealed = true) ∧ (((rel1 { : RelSt }).start 8).b R.REL_CTL_EN = true)
    ∧ (((rel1 { : RelSt }).start 8).b R.REL_CTL_SCRUB_EN = true) ∧ (3 < 4) := by decide +kernel
theorem wit_ReliabilityCountsAndTests_3 : (((rel1 { ceRun := [(wordKey 2 0 0 0, 2, 1)] : RelSt }).start (3600 * 4 * secQ)).sealed = true)
    ∧ (((rel1 { ceRun := [(wordKey 2 0 0 0, 2, 1)] : RelSt }).start (3600 * 4 * secQ)).b R.REL_CTL_EN = true)
    ∧ (((rel1 { ceRun := [(wordKey 2 0 0 0, 2, 1)] : RelSt }).start (3600 * 4 * secQ)).b R.REL_CTL_SCRUB_EN = true) ∧ (2 < 4) ∧ (2 = 1 ∨ 2 = 2)
    ∧ (((rel1 { ceRun := [(wordKey 2 0 0 0, 2, 1)] : RelSt }).start (3600 * 4 * secQ)).room) := ⟨by decide +kernel, by decide +kernel, by decide +kernel,
    by decide +kernel, by (exact Or.inr rfl), by decide +kernel⟩
theorem wit_ReliabilityCountsAndTests_4 : (((rel1 { : RelSt }).start 8).sealed = true) ∧ (((rel1 { : RelSt }).start 8).b R.REL_CTL_EN = true)
    ∧ (((rel1 { : RelSt }).start 8).b R.REL_CTL_SCRUB_EN = true) ∧ (3 < 4) ∧ (3 ≤ 3) ∧ (((rel1 { : RelSt }).start 8).room) := by decide +kernel
theorem wit_ReliabilityCountsAndTests_5 : (((rel1 { : RelSt }).start (100 * msQ)).sealed = true)
    ∧ (((rel1 { : RelSt }).start (100 * msQ)).b R.REL_CTL_EN = true)
    ∧ (((rel1 { : RelSt }).start (100 * msQ)).rel.checkAt + 100 * msQ ≤ ((rel1 { : RelSt }).start (100 * msQ)).now)
    ∧ (((rel1 { : RelSt }).start (100 * msQ)).sys.queue.length + [(131140, 74565)].length ≤ 64) := by decide +kernel
theorem wit_ReliabilityCountsAndTests_13 : (((rel1 { : RelSt }).start 8).sealed = true) ∧ (((rel1 { : RelSt }).start 8).b R.REL_CTL_EN = true)
    ∧ (((rel1 { : RelSt }).start 8).b R.REL_CTL_SCRUB_EN = true) ∧ (3 < 4) ∧ (1 = 1 ∨ 1 = 2) := ⟨by decide +kernel, by decide +kernel, by decide +kernel,
    by decide +kernel, by (exact Or.inl rfl)⟩
theorem wit_ReliabilityCountsAndTests_6 : (((rel1 { first := [{ kernel := 383, why := 1 : TestReq }] : RelSt }).start 8).sealed = true)
    ∧ (((rel1 { first := [{ kernel := 383, why := 1 : TestReq }] : RelSt }).start 8).b R.REL_CTL_EN = true)
    ∧ (((rel1 { first := [{ kernel := 383, why := 1 : TestReq }] : RelSt }).start 8).testIdle = true)
    ∧ (((rel1 { first := [{ kernel := 383, why := 1 : TestReq }] : RelSt }).start 8).rel.first = [{ kernel := 383, why := 1 : TestReq }])
    ∧ (((rel1 { first := [{ kernel := 383, why := 1 : TestReq }] : RelSt }).start 8).logicalOf { kernel := 383, why := 1 : TestReq }.kernel = none)
    := by decide +kernel
theorem wit_ReliabilityCountsAndTests_7 : (((rel1 { testing := [{ kernel := 383, why := 1 : TestReq }] : RelSt }).start 8).sealed = true)
    ∧ (((rel1 { testing := [{ kernel := 383, why := 1 : TestReq }] : RelSt }).start 8).b R.REL_CTL_EN = true)
    ∧ (((rel1 { testing := [{ kernel := 383, why := 1 : TestReq }] : RelSt }).start 8).rel.testing = [{ kernel := 383, why := 1 : TestReq }])
    ∧ ({ kernel := 383, why := 1 : TestReq }.kernel = 16 * 23 + 15)
    ∧ (((rel1 { testing := [{ kernel := 383, why := 1 : TestReq }] : RelSt }).start 8).rel.pair = none)
    ∧ ((((rel1 { testing := [{ kernel := 383, why := 1 : TestReq }] : RelSt }).start 8).retire { kernel := 383, why := 1 : TestReq }.kernel).room)
    := by decide +kernel
theorem wit_ReliabilityCountsAndTests_8 : (((rel1 { gone := [(383, 1)], testing := [{ kernel := 383, why := 1 : TestReq }] : RelSt }).start 8).sealed = true)
    ∧ (((rel1 { gone := [(383, 1)], testing := [{ kernel := 383, why := 1 : TestReq }] : RelSt }).start 8).b R.REL_CTL_EN = true)
    ∧ (((rel1 { gone := [(383, 1)], testing := [{ kernel := 383, why := 1 : TestReq }] : RelSt }).start 8).rel.testing = [{ kernel := 383, why := 1 : TestReq }])
    ∧ ({ kernel := 383, why := 1 : TestReq }.kernel = 16 * 23 + 15)
    ∧ (((rel1 { gone := [(383, 1)], testing := [{ kernel := 383, why := 1 : TestReq }] : RelSt }).start 8).rel.pair = none)
    ∧ (((rel1 { gone := [(383, 1)], testing := [{ kernel := 383, why := 1 : TestReq }] : RelSt }).start 8).isGone { kernel := 383, why := 1 : TestReq }.kernel = true)
    ∧ (((rel1 { gone := [(383, 1)], testing := [{ kernel := 383, why := 1 : TestReq }] : RelSt }).start 8).room) := by decide +kernel
theorem wit_ReliabilityCountsAndTests_9 : (((rel1 { testing := [{ kernel := 383, why := 1 : TestReq }] : RelSt }).start 8).sealed = true)
    ∧ (((rel1 { testing := [{ kernel := 383, why := 1 : TestReq }] : RelSt }).start 8).b R.REL_CTL_EN = true)
    ∧ (((rel1 { testing := [{ kernel := 383, why := 1 : TestReq }] : RelSt }).start 8).rel.testing = [{ kernel := 383, why := 1 : TestReq }])
    ∧ ({ kernel := 383, why := 1 : TestReq }.kernel = 16 * 23 + 15)
    ∧ (((rel1 { testing := [{ kernel := 383, why := 1 : TestReq }] : RelSt }).start 8).rel.pair = none)
    ∧ (((rel1 { testing := [{ kernel := 383, why := 1 : TestReq }] : RelSt }).start 8).isGone { kernel := 383, why := 1 : TestReq }.kernel = false)
    := by decide +kernel
theorem wit_ReliabilityCountsAndTests_10 : (((rel1 { : RelSt }).start 0).sealed = true)
    ∧ (((rel1 { : RelSt }).start 0).actionWrite 0 R.REL_CMD_TEST 3749707776 = (reqOnce (rel1 { : RelSt }) 0 R.REL_CMD_TEST 3749707776 0 0, true))
    := ⟨by decide +kernel, by (exact Prod.ext rfl (by decide +kernel))⟩
theorem wit_ReliabilityCountsAndTests_11 : (((rel1 { : RelSt }).start (3600 * secQ)).sealed = true)
    ∧ (((rel1 { : RelSt }).start (3600 * secQ)).b R.REL_CTL_EN = true)
    ∧ (((rel1 { : RelSt }).start (3600 * secQ)).rel.ageAt + 3600 * secQ ≤ ((rel1 { : RelSt }).start (3600 * secQ)).now) := by decide +kernel
theorem wit_ReliabilityCountsAndTests_12 : (((rel1 { : RelSt }).start secQ).sealed = true) ∧ (((rel1 { : RelSt }).start secQ).b R.REL_CTL_EN = true)
    ∧ (((rel1 { : RelSt }).start secQ).rel.lifeAt + secQ ≤ ((rel1 { : RelSt }).start secQ).now) := by decide +kernel
def drained (st : Nat) : State := { safe1 st with safe := { drained := 8 } }
theorem wit_HalvesAndPairsFaultSplitAndRejoin_1 : (((safe1 2).start 8).safeOn = true) ∧ (3 < 4)
    ∧ (((safe1 2).start 8).pairState 3 = 1 ∨ ((safe1 2).start 8).pairState 3 = 2) ∧ (((safe1 2).start 8).halfFlt (3 / 2) = false)
    ∧ (((safe1 2).start 8).sys.queue.length + 2 ≤ 64) := by decide +kernel
theorem wit_HalvesAndPairsFaultSplitAndRejoin_2 : ((((safe1 1).setB R.SAFE_STAT_HALF_A_FLT true).start 8).safeOn = true) ∧ (1 < 2)
    ∧ ((((safe1 1).setB R.SAFE_STAT_HALF_A_FLT true).start 8).halfFlt 1 = false) ∧ ((((safe1 1).setB R.SAFE_STAT_HALF_A_FLT true).start 8).room)
    ∧ ((((safe1 1).setB R.SAFE_STAT_HALF_A_FLT true).start 8).halfFlt (1 - 1) = true) := by decide +kernel
theorem wit_HalvesAndPairsFaultSplitAndRejoin_3 : (((let __src := safe1 1;         { pending := __src.pending, now := __src.now, out := __src.out, free := __src.free, fresh := __src.fresh, regs := __src.regs, sys := __src.sys, husk := __src.husk, pwr := __src.pwr, sea := __src.sea, mesh := __src.mesh, meas := __src.meas, pos := __src.pos, pwm := __src.pwm, trip := __src.trip, loop := __src.loop, safe := { linkRun := [(1, 2)] : SafeSt }, hostq := __src.hostq, net := __src.net, can := __src.can, clk := __src.clk, rel := __src.rel, cfg := __src.cfg, tap := __src.tap : State }).start       8).safeOn =   true)
    ∧ (1 < 2) ∧ (((let __src := safe1 1;           { pending := __src.pending, now := __src.now, out := __src.out, free := __src.free, fresh := __src.fresh, regs := __src.regs, sys := __src.sys, husk := __src.husk, pwr := __src.pwr, sea := __src.sea, mesh := __src.mesh, meas := __src.meas, pos := __src.pos, pwm := __src.pwm, trip := __src.trip, loop := __src.loop, safe := { linkRun := [(1, 2)] : SafeSt }, hostq := __src.hostq, net := __src.net, can := __src.can, clk := __src.clk, rel := __src.rel, cfg := __src.cfg, tap := __src.tap : State }).start         8).halfFlt     1 =   false)
    ∧ (((let __src := safe1 1;       { pending := __src.pending, now := __src.now, out := __src.out, free := __src.free, fresh := __src.fresh, regs := __src.regs, sys := __src.sys, husk := __src.husk, pwr := __src.pwr, sea := __src.sea, mesh := __src.mesh, meas := __src.meas, pos := __src.pos, pwm := __src.pwm, trip := __src.trip, loop := __src.loop, safe := { linkRun := [(1, 2)] : SafeSt }, hostq := __src.hostq, net := __src.net, can := __src.can, clk := __src.clk, rel := __src.rel, cfg := __src.cfg, tap := __src.tap : State }).start     8).room)
    ∧ (2 ≤   kget 0     ((let __src := safe1 1;             { pending := __src.pending, now := __src.now, out := __src.out, free := __src.free, fresh := __src.fresh, regs := __src.regs, sys := __src.sys, husk := __src.husk, pwr := __src.pwr, sea := __src.sea, mesh := __src.mesh, meas := __src.meas, pos := __src.pos, pwm := __src.pwm, trip := __src.trip, loop := __src.loop, safe := { linkRun := [(1, 2)] : SafeSt }, hostq := __src.hostq, net := __src.net, can := __src.can, clk := __src.clk, rel := __src.rel, cfg := __src.cfg, tap := __src.tap : State }).start           8).safe.linkRun     1)
    := by decide +kernel
theorem wit_HalvesAndPairsFaultSplitAndRejoin_4 : (((drained 2).start 8).safeOn = true) ∧ (3 < 4) ∧ (((drained 2).start 8).pairState 3 = 2)
    ∧ (((drained 2).start 8).safe.drained.testBit 3 = true) ∧ (((drained 2).start 8).room) := by decide +kernel
theorem wit_HalvesAndPairsFaultSplitAndRejoin_5 : (((drained 2).start 8).safeOn = true) ∧ (3 < 4) ∧ (((drained 2).start 8).pairState 3 = 2)
    ∧ (((drained 2).start 8).safe.drained.testBit 3 = true) ∧ (((drained 2).start 8).room) ∧ (5 ≠ 6) ∧ (((drained 2).start 8).halfFlt (3 / 2) = false)
    := by decide +kernel
theorem wit_HalvesAndPairsFaultSplitAndRejoin_6 : (((safe1 4).start 8).safeOn = true) ∧ (3 < 4) ∧ (((safe1 4).start 8).pairState 3 = 4)
    ∧ (((safe1 4).start 8).room) := by decide +kernel
theorem wit_HalvesAndPairsFaultSplitAndRejoin_7 : (((safe1 3).start 8).safeOn = true) ∧ (3 < 4)
    ∧ (((safe1 3).start 8).pairState 3 = 3 ∨ ((safe1 3).start 8).pairState 3 = 4) ∧ (kget 0 ((safe1 3).start 8).safe.splitEnd 3 ≤ ((safe1 3).start 8).now)
    ∧ (((safe1 3).start 8).halfFlt (3 / 2) = false) ∧ (((safe1 3).start 8).room) := by decide +kernel
def safS (st : Nat) : State := session (safe1 st) 1 3
theorem wit_HalvesAndPairsFaultSplitAndRejoin_8 : (((safS 3).start 0).actionWrite 1 R.SAFE_SPLIT_SPLIT 2952790016 = (reqOnce (safS 3) 1 R.SAFE_SPLIT_SPLIT 2952790016 0 0, true))
    ∧ ((reqOnce (safS 3) 1 R.SAFE_SPLIT_SPLIT 2952790016 0 0).safeOn = true) ∧ ((∃ q, q < 4
    ∧ (reqOnce (safS 3) 1 R.SAFE_SPLIT_SPLIT 2952790016 0 0).pairState q ≠ 1) ∨ (reqOnce (safS 3) 1 R.SAFE_SPLIT_SPLIT 2952790016 0 0).halfFlt 0 = true ∨ (reqOnce (safS 3) 1 R.SAFE_SPLIT_SPLIT 2952790016 0 0).halfFlt 1 = true ∨ ∃ x, x < 4
    ∧ (reqOnce (safS 3) 1 R.SAFE_SPLIT_SPLIT 2952790016 0 0).b R.SAFE_AX_CFG_EN x = true
    ∧ (reqOnce (safS 3) 1 R.SAFE_SPLIT_SPLIT 2952790016 0 0).f R.SAFE_AX_CFG_GROUP x = (reqOnce (safS 3) 1 R.SAFE_SPLIT_SPLIT 2952790016 0 0).f R.SAFE_SPLIT_PAIR % 2
    ∧ (((reqOnce (safS 3) 1 R.SAFE_SPLIT_SPLIT 2952790016 0 0).axHalf x 0).st = 2 ∨ ((reqOnce (safS 3) 1 R.SAFE_SPLIT_SPLIT 2952790016 0 0).axHalf x 1).st = 2))
    ∧ ((reqOnce (safS 3) 1 R.SAFE_SPLIT_SPLIT 2952790016 0 0).room) := ⟨by (exact Prod.ext rfl (by decide +kernel)), by decide +kernel, by decide +kernel,
    by decide +kernel⟩
theorem wit_HalvesAndPairsFaultSplitAndRejoin_9 : (((safS 1).start 0).actionWrite 1 R.SAFE_SPLIT_SPLIT 2952790016 = (reqOnce (safS 1) 1 R.SAFE_SPLIT_SPLIT 2952790016 0 0, true))
    ∧ ((reqOnce (safS 1) 1 R.SAFE_SPLIT_SPLIT 2952790016 0 0).safeOn = true) ∧ (¬((∃ q, q < 4
    ∧ (reqOnce (safS 1) 1 R.SAFE_SPLIT_SPLIT 2952790016 0 0).pairState q ≠ 1) ∨ (reqOnce (safS 1) 1 R.SAFE_SPLIT_SPLIT 2952790016 0 0).halfFlt 0 = true ∨ (reqOnce (safS 1) 1 R.SAFE_SPLIT_SPLIT 2952790016 0 0).halfFlt 1 = true ∨ ∃ x, x < 4
    ∧ (reqOnce (safS 1) 1 R.SAFE_SPLIT_SPLIT 2952790016 0 0).b R.SAFE_AX_CFG_EN x = true
    ∧ (reqOnce (safS 1) 1 R.SAFE_SPLIT_SPLIT 2952790016 0 0).f R.SAFE_AX_CFG_GROUP x = (reqOnce (safS 1) 1 R.SAFE_SPLIT_SPLIT 2952790016 0 0).f R.SAFE_SPLIT_PAIR % 2
    ∧ (((reqOnce (safS 1) 1 R.SAFE_SPLIT_SPLIT 2952790016 0 0).axHalf x 0).st = 2 ∨ ((reqOnce (safS 1) 1 R.SAFE_SPLIT_SPLIT 2952790016 0 0).axHalf x 1).st = 2)))
    := ⟨by (exact Prod.ext rfl (by decide +kernel)), by decide +kernel, by decide +kernel⟩
theorem wit_HalvesAndPairsFaultSplitAndRejoin_10 : (((safS 3).start 0).actionWrite 1 R.SAFE_SPLIT_REJOIN 1879048192 = (reqOnce (safS 3) 1 R.SAFE_SPLIT_REJOIN 1879048192 0 0, true))
    ∧ ((reqOnce (safS 3) 1 R.SAFE_SPLIT_REJOIN 1879048192 0 0).safeOn = true)
    ∧ ((reqOnce (safS 3) 1 R.SAFE_SPLIT_REJOIN 1879048192 0 0).pairState ((reqOnce (safS 3) 1 R.SAFE_SPLIT_REJOIN 1879048192 0 0).f R.SAFE_SPLIT_PAIR) = 3)
    := ⟨by (exact Prod.ext rfl (by decide +kernel)), by decide +kernel, by decide +kernel⟩
theorem wit_HalvesAndPairsFaultSplitAndRejoin_11 : (((safS 3).start 0).actionWrite 1 R.SAFE_SPLIT_REJOIN 1879048192 = (reqOnce (safS 3) 1 R.SAFE_SPLIT_REJOIN 1879048192 0 0, true))
    ∧ ((reqOnce (safS 3) 1 R.SAFE_SPLIT_REJOIN 1879048192 0 0).safeOn = true)
    ∧ ((reqOnce (safS 3) 1 R.SAFE_SPLIT_REJOIN 1879048192 0 0).pairState ((reqOnce (safS 3) 1 R.SAFE_SPLIT_REJOIN 1879048192 0 0).f R.SAFE_SPLIT_PAIR) = 3)
    ∧ ((reqOnce (safS 3) 1 R.SAFE_SPLIT_REJOIN 1879048192 0 0).halfFlt ((reqOnce (safS 3) 1 R.SAFE_SPLIT_REJOIN 1879048192 0 0).f R.SAFE_SPLIT_PAIR / 2) = false)
    ∧ ((reqOnce (safS 3) 1 R.SAFE_SPLIT_REJOIN 1879048192 0 0).room) := ⟨by (exact Prod.ext rfl (by decide +kernel)), by decide +kernel,
    by decide +kernel, by decide +kernel, by decide +kernel⟩
theorem wit_HalvesAndPairsFaultSplitAndRejoin_12 : (((safS 1).start 0).actionWrite 1 R.SAFE_SPLIT_REJOIN 1879048192 = (reqOnce (safS 1) 1 R.SAFE_SPLIT_REJOIN 1879048192 0 0, true))
    ∧ ((reqOnce (safS 1) 1 R.SAFE_SPLIT_REJOIN 1879048192 0 0).safeOn = true)
    ∧ ((reqOnce (safS 1) 1 R.SAFE_SPLIT_REJOIN 1879048192 0 0).pairState ((reqOnce (safS 1) 1 R.SAFE_SPLIT_REJOIN 1879048192 0 0).f R.SAFE_SPLIT_PAIR) ≠ 3)
    ∧ ((reqOnce (safS 1) 1 R.SAFE_SPLIT_REJOIN 1879048192 0 0).room) := ⟨by (exact Prod.ext rfl (by decide +kernel)), by decide +kernel,
    by decide +kernel, by decide +kernel⟩
def unsealed : State := { (State.reset.setB R.SAFE_CTL_EN true) with pwr := { porst := false }, safe := { present := true } }
theorem wit_HalvesAndPairsFaultSplitAndRejoin_13 : ((unsealed.start 8).alive = true) ∧ ((unsealed.start 8).b R.CFG_STAT_SEALED = false)
    ∧ ((unsealed.start 8).safe.present = true) ∧ ((unsealed.start 8).b R.SAFE_CTL_EN = true) ∧ ((unsealed.start 8).b R.SAFE_CTL_CHAFF_OK = false)
    ∧ ((unsealed.start 8).halfFlt 0 = false) ∧ ((unsealed.start 8).halfFlt 1 = false) := by decide +kernel
theorem wit_HalvesAndPairsFaultSplitAndRejoin_14 : ((unsealed.start 8).alive = true) ∧ ((unsealed.start 8).b R.CFG_STAT_SEALED = false)
    ∧ ((unsealed.start 8).safe.present = true) ∧ ((unsealed.start 8).b R.SAFE_CTL_EN = true) ∧ ((unsealed.start 8).b R.SAFE_CTL_CHAFF_OK = false)
    ∧ ((unsealed.start 8).halfFlt 0 = false) ∧ ((unsealed.start 8).halfFlt 1 = false) ∧ (1 < 2) ∧ (((unsealed.start 8).halfFault 1 5).room)
    := by decide +kernel
def tsc : Nat := 1000000
theorem wit_SafetyCycleRunsOnce_1 : (((safe1 1).start tsc).safeOn = true) ∧ (((safe1 1).start tsc).nextCycle ≤ ((safe1 1).start tsc).pwmTime)
    := by decide +kernel
/-- Pair 3 owes its RESULT; the four kernels of pod 23 hold SAFETY. -/
def owing (e : Nat) : State :=
  { safe1 1 with
    safe := { owed := 8, evaluated := e }
    sea := { roles := [(368, 5), (369, 5), (370, 5), (371, 5)] }
    rel := { backing := [(368, 369), (369, 370), (370, 371), (371, 372)] } }
theorem wit_SafetyCycleRunsOnce_2 : (((owing 0).start tsc).safeOn = true) ∧ (3 < 4) ∧ (((owing 0).start tsc).pairRuns 3 = true)
    ∧ (((owing 0).start tsc).safe.owed.testBit 3 = true) ∧ (((owing 0).start tsc).safe.evaluated.testBit 3 = false)
    ∧ (((owing 0).start tsc).role (16 * halfPod (3 / 2) + ((owing 0).start tsc).leader 3) = roleSafety)
    ∧ (((owing 0).start tsc).backed (16 * halfPod (3 / 2) + ((owing 0).start tsc).leader 3) = true) := by decide +kernel
theorem wit_SafetyCycleRunsOnce_3 : (((owing 8).start tsc).safeOn = true) ∧ (3 < 4) ∧ (((owing 8).start tsc).safe.owed.testBit 3 = true)
    ∧ (((owing 8).start tsc).safe.evaluated.testBit 3 = true) := by decide +kernel
def sin1 (x : SafeSt) : State := { (live.setB R.SAFE_SIN_CFG_EN true 7) with safe := { x with present := true } }
theorem wit_SafetyInputsAndOutputs_1 : (((sin1 { : SafeSt }).start msQ).sealed = true) ∧ (((sin1 { : SafeSt }).start msQ).safe.present = true)
    ∧ (1 < 2) ∧ (7 < 8) ∧ (((sin1 { : SafeSt }).start msQ).b R.SAFE_SIN_CFG_EN 7 = true)
    ∧ (0 + (((sin1 { : SafeSt }).start msQ).f R.SAFE_SIN_CFG_FILT 7 + 1) * 500 * usQ ≤ ((sin1 { : SafeSt }).start msQ).now) := by decide +kernel
theorem wit_SafetyInputsAndOutputs_2 : (((sin1 { disagreeAt := [(7, 1)] : SafeSt }).start (msQ + 1)).sealed = true)
    ∧ (((sin1 { disagreeAt := [(7, 1)] : SafeSt }).start (msQ + 1)).safe.present = true) ∧ (7 < 8)
    ∧ (kget 0 ((sin1 { disagreeAt := [(7, 1)] : SafeSt }).start (msQ + 1)).safe.disagreeAt 7 ≠ 0)
    ∧ (((sin1 { disagreeAt := [(7, 1)] : SafeSt }).start (msQ + 1)).bitF R.SAFE_SIN_STAT_DISC 7 = false)
    ∧ (kget 0 ((sin1 { disagreeAt := [(7, 1)] : SafeSt }).start (msQ + 1)).safe.disagreeAt 7 + (((sin1 { disagreeAt := [(7, 1)] : SafeSt }).start (msQ + 1)).f R.SAFE_SIN_CFG_T_DISC 7 + 1) * msQ < ((sin1 { disagreeAt := [(7, 1)] : SafeSt }).start (msQ + 1)).now + 1)
    ∧ (((sin1 { disagreeAt := [(7, 1)] : SafeSt }).start (msQ + 1)).room) := by decide +kernel
theorem wit_SafetyInputsAndOutputs_3 : ((live.start (50 * msQ)).alive = true) ∧ (0 + 10 * msQ ≤ (live.start (50 * msQ)).now)
    ∧ (((some false).getD !((live.start (50 * msQ)).sealed && (live.start (50 * msQ)).b R.SAFE_RST_POL)) = (live.start (50 * msQ)).b R.SAFE_RST_POL)
    ∧ ((live.start (50 * msQ)).b R.SAFE_RST_PRESSED = false) := by decide +kernel
theorem wit_SafetyInputsAndOutputs_4 : (((live.setB R.SAFE_RST_PRESSED true).start (50 * msQ)).alive = true)
    ∧ (0 + 10 * msQ ≤ ((live.setB R.SAFE_RST_PRESSED true).start (50 * msQ)).now)
    ∧ (((some true).getD !(((live.setB R.SAFE_RST_PRESSED true).start (50 * msQ)).sealed && ((live.setB R.SAFE_RST_PRESSED true).start (50 * msQ)).b R.SAFE_RST_POL)) ≠ ((live.setB R.SAFE_RST_PRESSED true).start (50 * msQ)).b R.SAFE_RST_POL)
    ∧ (((live.setB R.SAFE_RST_PRESSED true).start (50 * msQ)).b R.SAFE_RST_PRESSED = true) := by decide +kernel
theorem wit_SafetyInputsAndOutputs_5 : ((((safe1 1).setB R.SAFE_RST_PRESSED true).start (5 * secQ)).safeOn = true)
    ∧ ((((safe1 1).setB R.SAFE_RST_PRESSED true).start (5 * secQ)).b R.SAFE_RST_PRESSED = true)
    ∧ ((((safe1 1).setB R.SAFE_RST_PRESSED true).start (5 * secQ)).b R.SAFE_RST_STUCK = false)
    ∧ ((((safe1 1).setB R.SAFE_RST_PRESSED true).start (5 * secQ)).safe.pressAt + 5 * secQ ≤ (((safe1 1).setB R.SAFE_RST_PRESSED true).start (5 * secQ)).now)
    ∧ ((((safe1 1).setB R.SAFE_RST_PRESSED true).start (5 * secQ)).room) := by decide +kernel
def high1 (o : SafeOut) : State := { ((safe1 1).setF R.SAFE_OUT_STAT_LEVEL 63).setB R.SAFE_SOUT_CFG_TP_EN true 3 with safe := { outs := [(5, o)] } }
theorem wit_SafetyInputsAndOutputs_6 : (((high1 { : SafeOut }).start (20 * usQ)).safeOn = true) ∧ (5 < 6) ∧ (outHalf 5 = 1)
    ∧ ((((high1 { : SafeOut }).start (20 * usQ)).safeOut 5).changedAt + 20 * usQ ≤ ((high1 { : SafeOut }).start (20 * usQ)).now)
    ∧ (Nat.testBit 63 5 = (((high1 { : SafeOut }).start (20 * usQ)).bitF R.SAFE_OUT_STAT_LEVEL 5 && (((high1 { : SafeOut }).start (20 * usQ)).safeOut 5).pulse.isNone))
    := by decide +kernel
theorem wit_SafetyInputsAndOutputs_7 : (((high1 { rbRun := 2 : SafeOut }).start (20 * usQ)).safeOn = true) ∧ (5 < 6) ∧ (outHalf 5 = 1)
    ∧ ((((high1 { rbRun := 2 : SafeOut }).start (20 * usQ)).safeOut 5).changedAt + 20 * usQ ≤ ((high1 { rbRun := 2 : SafeOut }).start (20 * usQ)).now)
    ∧ (Nat.testBit 31 5 ≠ (((high1 { rbRun := 2 : SafeOut }).start (20 * usQ)).bitF R.SAFE_OUT_STAT_LEVEL 5 && (((high1 { rbRun := 2 : SafeOut }).start (20 * usQ)).safeOut 5).pulse.isNone))
    ∧ (2 ≤ (((high1 { rbRun := 2 : SafeOut }).start (20 * usQ)).safeOut 5).rbRun)
    ∧ (((high1 { rbRun := 2 : SafeOut }).start (20 * usQ)).bitF R.SAFE_OUT_STAT_RB_FLT 5 = false) := by decide +kernel
theorem wit_SafetyInputsAndOutputs_8 : (((high1 { : SafeOut }).start (10 * msQ)).safeOn = true) ∧ (5 < 6)
    ∧ ((((high1 { : SafeOut }).start (10 * msQ)).pulseCfg 5).fst = true) ∧ (((high1 { : SafeOut }).start (10 * msQ)).bitF R.SAFE_OUT_STAT_LEVEL 5 = true)
    ∧ ((((high1 { : SafeOut }).start (10 * msQ)).safeOut 5).pulse = none)
    ∧ ((((high1 { : SafeOut }).start (10 * msQ)).safeOut (outPartner 5)).pulse = none)
    ∧ (((((high1 { : SafeOut }).start (10 * msQ)).pulseCfg 5).snd.snd + 1) * 10 * msQ ≤ ((high1 { : SafeOut }).start (10 * msQ)).highTime 5)
    := by decide +kernel
theorem wit_SafetyInputsAndOutputs_9 : (((high1 { : SafeOut }).start (20 * msQ + 1)).safeOn = true) ∧ (5 < 6)
    ∧ ((((high1 { : SafeOut }).start (20 * msQ + 1)).pulseCfg 5).fst = true)
    ∧ (((high1 { : SafeOut }).start (20 * msQ + 1)).bitF R.SAFE_OUT_STAT_LEVEL 5 = true)
    ∧ (((high1 { : SafeOut }).start (20 * msQ + 1)).bitF R.SAFE_OUT_STAT_TEST_MISS 5 = false)
    ∧ (2 * ((((high1 { : SafeOut }).start (20 * msQ + 1)).pulseCfg 5).snd.snd + 1) * 10 * msQ < ((high1 { : SafeOut }).start (20 * msQ + 1)).highTime 5)
    ∧ (((high1 { : SafeOut }).start (20 * msQ + 1)).room) := by decide +kernel
theorem wit_SafetyInputsAndOutputs_10 : (((high1 { pulse := some 0 : SafeOut }).start (10 * usQ)).safeOn = true)
    ∧ ((((high1 { pulse := some 0 : SafeOut }).start (10 * usQ)).safeOut 5).pulse = some 0)
    ∧ (0 + ((((high1 { pulse := some 0 : SafeOut }).start (10 * usQ)).pulseCfg 5).snd.fst + 1) * 10 * usQ ≤ ((high1 { pulse := some 0 : SafeOut }).start (10 * usQ)).now)
    := by decide +kernel
theorem wit_SafetyInputsAndOutputs_11 : (((sin1 { staged := some (0, [], 0, 8) : SafeSt }).start 8).safe.staged = some (0, [], 0, 8))
    ∧ (8 ≤ ((sin1 { staged := some (0, [], 0, 8) : SafeSt }).start 8).now) := by decide +kernel
def locked7 : State := { (live.setF R.SAFE_PW_STAT_LOCKED 255) with husk := { live.husk with pw := [(7, { lockEnd := 8 })] } }
theorem wit_SafetyInputsAndOutputs_12 : (7 < 8) ∧ (((locked7.start 8).pwSlot 7).lockEnd ≠ 0)
    ∧ (((locked7.start 8).pwSlot 7).lockEnd ≤ (locked7.start 8).now) := by decide +kernel
def phase (p : Nat) (x : Session) : State :=
  { live.setF R.HUSK_SESS_STAT_PHASE p 0 1 with husk := { live.husk with sess := [(1, x)] } }
theorem wit_SessionsOpenAndEnd_1 : (((phase 1 { : Session }).start 0).actionWrite 1 R.HUSK_SESS_CTL_REQ 2214592512 0 1 = (reqOnce (phase 1 { : Session }) 1 R.HUSK_SESS_CTL_REQ 2214592512 0 1, true))
    ∧ ((reqOnce (phase 1 { : Session }) 1 R.HUSK_SESS_CTL_REQ 2214592512 0 1).f R.HUSK_SESS_STAT_PHASE 0 1 ≠ 0)
    ∧ ((reqOnce (phase 1 { : Session }) 1 R.HUSK_SESS_CTL_REQ 2214592512 0 1).room) := ⟨by (exact Prod.ext rfl (by decide +kernel)), by decide +kernel,
    by decide +kernel⟩
theorem wit_SessionsOpenAndEnd_2 : (((phase 0 { : Session }).start 0).actionWrite 1 R.HUSK_SESS_CTL_REQ 2214592512 0 1 = (reqOnce (phase 0 { : Session }) 1 R.HUSK_SESS_CTL_REQ 2214592512 0 1, true))
    ∧ ((reqOnce (phase 0 { : Session }) 1 R.HUSK_SESS_CTL_REQ 2214592512 0 1).reqRefusal 1 = none) := ⟨by (exact Prod.ext rfl (by decide +kernel)),
    by decide +kernel⟩
theorem wit_SessionsOpenAndEnd_3 : (((phase 1 { : Session }).start 0).actionWrite 1 R.HUSK_SESS_CTL_SUBMIT 1073741824 0 1 = (reqOnce (phase 1 { : Session }) 1 R.HUSK_SESS_CTL_SUBMIT 1073741824 0 1, true))
    ∧ ((reqOnce (phase 1 { : Session }) 1 R.HUSK_SESS_CTL_SUBMIT 1073741824 0 1).f R.HUSK_SESS_STAT_PHASE 0 1 = 1)
    ∧ (((reqOnce (phase 1 { : Session }) 1 R.HUSK_SESS_CTL_SUBMIT 1073741824 0 1).session 1).verifying = false)
    := ⟨by (exact Prod.ext rfl (by decide +kernel)), by decide +kernel, by decide +kernel⟩
theorem wit_SessionsOpenAndEnd_4 : (((session live 1 1).start 0).actionWrite 1 R.HUSK_SESS_CTL_CLOSE 536870912 0 1 = (reqOnce (session live 1 1) 1 R.HUSK_SESS_CTL_CLOSE 536870912 0 1, true))
    ∧ ((reqOnce (session live 1 1) 1 R.HUSK_SESS_CTL_CLOSE 536870912 0 1).sessionOpen 1 = true)
    ∧ ((reqOnce (session live 1 1) 1 R.HUSK_SESS_CTL_CLOSE 536870912 0 1).room) := ⟨by (exact Prod.ext rfl (by decide +kernel)), by decide +kernel,
    by decide +kernel⟩
theorem wit_SessionsOpenAndEnd_5 : (((phase 1 { : Session }).start 0).actionWrite 1 R.HUSK_SESS_CTL_CLOSE 536870912 0 1 = (reqOnce (phase 1 { : Session }) 1 R.HUSK_SESS_CTL_CLOSE 536870912 0 1, true))
    ∧ ((reqOnce (phase 1 { : Session }) 1 R.HUSK_SESS_CTL_CLOSE 536870912 0 1).f R.HUSK_SESS_STAT_PHASE 0 1 = 1)
    := ⟨by (exact Prod.ext rfl (by decide +kernel)), by decide +kernel⟩
theorem wit_SessionsOpenAndEnd_6 : (((phase 0 { wanted := true : Session }).start 8).session 1).wanted = true := by decide +kernel
/-- User 7 of SAF answers the challenge on function 1 with these words. -/
def answered (ws : List Word) : State := (phase 1 { verifying := true, dom := 3, user := 7 }).setWords W.HUSK_RESP ws 1
/-- The right response. -/
def rightWords : List Word := natToWords 12 (Config.hkdfResponse 0 (List.replicate 12 0) 7).toNat
theorem answered_challenge (ws : List Word) (h : ws.length = 12) : ((answered ws).start 8).words W.HUSK_CHAL 12 1 = List.replicate 12 0 := by
  have e (w : Nat) (hw : w < 12) : ((answered ws).start 8).word .husk (W.HUSK_CHAL.key w 1) = 0 := by
    refine (word_setWords_other (phase 1 { verifying := true, dom := 3, user := 7 }) W.HUSK_RESP ws 1 .husk (W.HUSK_CHAL.key w 1) ?_).trans ?_
    · intro i hi; right; simp only [FRef.key, W.HUSK_RESP, W.HUSK_CHAL]; omega
    · exact (by decide +kernel : ∀ w < 12, (phase 1 { verifying := true, dom := 3, user := 7 }).word .husk (W.HUSK_CHAL.key w 1) = 0) w hw
  exact List.map_congr_left (g := fun _ => (0 : Word)) fun w hw => e w (List.mem_range.mp hw)
theorem answered_husk (ws : List Word) (h : ws.length = 12) : ((answered ws).start 8).husk = (phase 1 { verifying := true, dom := 3, user := 7 }).husk := by
  match ws, h with
  | [_, _, _, _, _, _, _, _, _, _, _, _], _ => rfl
/-- The response on function 1 is right exactly where its words are the right ones. -/
theorem answered_ok (ws : List Word) (h : ws.length = 12) : ((answered ws).start 8).responseOk 1 = (ws == rightWords) := by
  unfold State.responseOk State.session State.pwSlot
  rw [answered_husk ws h]
  have e : ((answered ws).start 8).words W.HUSK_RESP 12 1 = ws :=
    h ▸ words_setWords_same (phase 1 { verifying := true, dom := 3, user := 7 }) W.HUSK_RESP ws 1 (by decide)
  rw [e, answered_challenge ws h]
  rfl
def wrongWords : List Word := (rightWords.getD 0 0 + 1) :: rightWords.drop 1
theorem wit_SessionsOpenAndEnd_7 : ((((answered rightWords).start 8).session 1).verifying = true)
    ∧ (((answered rightWords).start 8).responseOk 1 = true) ∧ ((((answered rightWords).start 8).session 1).dom < 8)
    ∧ (((answered rightWords).start 8).room) := ⟨by decide +kernel, by (exact (answered_ok rightWords rfl).trans (beq_self_eq_true _)), by decide +kernel,
    by decide +kernel⟩
theorem wrong_ne : (wrongWords == rightWords) = false := by
  have h : ∀ (a : Word) (as : List Word), ((a + 1) :: as == a :: as) = false := by
    intro a as
    simp
  exact h _ _
theorem wit_SessionsOpenAndEnd_8 : ((((answered wrongWords).start 8).session 1).verifying = true)
    ∧ (((answered wrongWords).start 8).responseOk 1 = false) := ⟨by decide +kernel, by (exact (answered_ok wrongWords rfl).trans wrong_ne)⟩
theorem wit_SessionsOpenAndEnd_9 : (((phase 1 { : Session }).start (30 * secQ)).f R.HUSK_SESS_STAT_PHASE 0 1 = 1)
    ∧ ((((phase 1 { : Session }).start (30 * secQ)).session 1).verifying = false)
    ∧ ((((phase 1 { : Session }).start (30 * secQ)).session 1).chalAt + 30 * secQ ≤ ((phase 1 { : Session }).start (30 * secQ)).now) := by decide +kernel
theorem wit_SessionsOpenAndEnd_10 : (((session live 1 1).start (900 * secQ)).sessionOpen 1 = true)
    ∧ ((((session live 1 1).start (900 * secQ)).session 1).lastAct + 900 * secQ ≤ ((session live 1 1).start (900 * secQ)).now)
    ∧ (((session live 1 1).start (900 * secQ)).room) := by decide +kernel
theorem wit_SessionsOpenAndEnd_11 : ((((phase 0 { lockEnd := 8 : Session }).start 8).session 1).lockEnd ≠ 0)
    ∧ ((((phase 0 { lockEnd := 8 : Session }).start 8).session 1).lockEnd ≤ ((phase 0 { lockEnd := 8 : Session }).start 8).now) := by decide +kernel
def consented (lc : Nat) : State := ((live.setF R.HUSK_ID_LIFECYCLE lc).setB R.HUSK_DBG_STAT_CONSENT true)
def oemS : State := session (consented 3) 1 1
theorem wit_DebugAndProvisioningKeepTheirGates_1 : ((oemS.start 0).actionWrite 1 R.HUSK_DBG_CTL_KDBG 2147483648 = (reqOnce oemS 1 R.HUSK_DBG_CTL_KDBG 2147483648 0 0, true))
    ∧ ((reqOnce oemS 1 R.HUSK_DBG_CTL_KDBG 2147483648 0 0).f R.HUSK_ID_LIFECYCLE = lcDeployed)
    ∧ ((reqOnce oemS 1 R.HUSK_DBG_CTL_KDBG 2147483648 0 0).sessionOpen 1 = true ∧ (reqOnce oemS 1 R.HUSK_DBG_CTL_KDBG 2147483648 0 0).domainOf 1 = domOem
    ∧ (reqOnce oemS 1 R.HUSK_DBG_CTL_KDBG 2147483648 0 0).b R.HUSK_DBG_STAT_CONSENT = true) ∧ ((reqOnce oemS 1 R.HUSK_DBG_CTL_KDBG 2147483648 0 0).room)
    := ⟨by (exact Prod.ext rfl (by decide +kernel)), by decide +kernel, by decide +kernel, by decide +kernel⟩
theorem wit_DebugAndProvisioningKeepTheirGates_2 : ((live.start 0).actionWrite 0 R.HUSK_DBG_CTL_KDBG 2147483648 = (reqOnce live 0 R.HUSK_DBG_CTL_KDBG 2147483648 0 0, true))
    ∧ ((reqOnce live 0 R.HUSK_DBG_CTL_KDBG 2147483648 0 0).f R.HUSK_ID_LIFECYCLE = lcDeployed)
    ∧ ((reqOnce live 0 R.HUSK_DBG_CTL_KDBG 2147483648 0 0).sessionOpen 0 = false ∨ (reqOnce live 0 R.HUSK_DBG_CTL_KDBG 2147483648 0 0).domainOf 0 ≠ domOem ∨ (reqOnce live 0 R.HUSK_DBG_CTL_KDBG 2147483648 0 0).b R.HUSK_DBG_STAT_CONSENT = false)
    := ⟨by (exact Prod.ext rfl (by decide +kernel)), by decide +kernel, by decide +kernel⟩
theorem wit_DebugAndProvisioningKeepTheirGates_3 : (((consented 2).start 0).actionWrite 0 R.HUSK_DBG_CTL_KDBG 2147483648 = (reqOnce (consented 2) 0 R.HUSK_DBG_CTL_KDBG 2147483648 0 0, true))
    ∧ ((reqOnce (consented 2) 0 R.HUSK_DBG_CTL_KDBG 2147483648 0 0).f R.HUSK_ID_LIFECYCLE = lcOemOpen) ∧ (0 = 0)
    ∧ ((reqOnce (consented 2) 0 R.HUSK_DBG_CTL_KDBG 2147483648 0 0).sessionOpen 0 = false)
    ∧ ((reqOnce (consented 2) 0 R.HUSK_DBG_CTL_KDBG 2147483648 0 0).room) := ⟨by (exact Prod.ext rfl (by decide +kernel)), by decide +kernel,
    by decide +kernel, by decide +kernel, by decide +kernel⟩
def vndS : State := session (consented 4) 1 4
theorem wit_DebugAndProvisioningKeepTheirGates_4 : ((vndS.start 0).actionWrite 1 R.HUSK_DBG_CTL_VTEST 1073741824 = (reqOnce vndS 1 R.HUSK_DBG_CTL_VTEST 1073741824 0 0, true))
    ∧ ((reqOnce vndS 1 R.HUSK_DBG_CTL_VTEST 1073741824 0 0).f R.HUSK_ID_LIFECYCLE = lcReturned)
    ∧ ((reqOnce vndS 1 R.HUSK_DBG_CTL_VTEST 1073741824 0 0).sessionOpen 1 = true) ∧ ((reqOnce vndS 1 R.HUSK_DBG_CTL_VTEST 1073741824 0 0).room)
    := ⟨by (exact Prod.ext rfl (by decide +kernel)), by decide +kernel, by decide +kernel, by decide +kernel⟩
theorem wit_DebugAndProvisioningKeepTheirGates_5 : ((live.start 0).actionWrite 1 R.HUSK_DBG_CONSENT_GIVE 2147483648 = (reqOnce live 1 R.HUSK_DBG_CONSENT_GIVE 2147483648 0 0, true))
    ∧ (getBits 2147483648 30 30 = 0) ∧ ((reqOnce live 1 R.HUSK_DBG_CONSENT_GIVE 2147483648 0 0).room) := ⟨by (exact Prod.ext rfl (by decide +kernel)),
    by decide +kernel, by decide +kernel⟩
def opened : State := (consented 3).setB R.HUSK_DBG_STAT_KDBG_OPEN true
theorem wit_DebugAndProvisioningKeepTheirGates_6 : (opened.start 0).actionWrite 1 R.HUSK_DBG_CONSENT_WITHDRAW 1073741824 = (reqOnce opened 1 R.HUSK_DBG_CONSENT_WITHDRAW 1073741824 0 0, true)
    := by (exact Prod.ext rfl (by decide +kernel))
theorem wit_DebugAndProvisioningKeepTheirGates_7 : ((opened.start 8).b R.HUSK_DBG_STAT_CONSENT = true)
    ∧ ((opened.start 8).husk.consentEnd ≤ (opened.start 8).now) := by decide +kernel
def oemOpen (a : Option (BitVec 384)) : State := { live.setF R.HUSK_ID_LIFECYCLE 2 with husk := { live.husk with oemRootHash := a, oemKek := a.map fun _ => 0 } }
theorem wit_DebugAndProvisioningKeepTheirGates_8 : (((oemOpen none).start 0).actionWrite 0 R.HUSK_PROV_CTL_FUSE 2415919104 = (reqOnce (oemOpen none) 0 R.HUSK_PROV_CTL_FUSE 2415919104 0 0, true))
    ∧ ((reqOnce (oemOpen none) 0 R.HUSK_PROV_CTL_FUSE 2415919104 0 0).f R.HUSK_ID_LIFECYCLE = lcOemOpen)
    ∧ ((reqOnce (oemOpen none) 0 R.HUSK_PROV_CTL_FUSE 2415919104 0 0).f R.HUSK_PROV_CTL_ITEM = 1)
    ∧ ((reqOnce (oemOpen none) 0 R.HUSK_PROV_CTL_FUSE 2415919104 0 0).husk.oemRootHash = none)
    ∧ ((reqOnce (oemOpen none) 0 R.HUSK_PROV_CTL_FUSE 2415919104 0 0).room) := ⟨by (exact Prod.ext rfl (by decide +kernel)), by decide +kernel,
    by decide +kernel, by decide +kernel, by decide +kernel⟩
theorem wit_DebugAndProvisioningKeepTheirGates_9 : (((oemOpen (some 0)).start 0).actionWrite 0 R.HUSK_PROV_CTL_FUSE 2415919104 = (reqOnce (oemOpen (some 0)) 0 R.HUSK_PROV_CTL_FUSE 2415919104 0 0, true))
    ∧ ((reqOnce (oemOpen (some 0)) 0 R.HUSK_PROV_CTL_FUSE 2415919104 0 0).f R.HUSK_ID_LIFECYCLE = lcOemOpen)
    ∧ ((reqOnce (oemOpen (some 0)) 0 R.HUSK_PROV_CTL_FUSE 2415919104 0 0).f R.HUSK_PROV_CTL_ITEM = 1)
    ∧ ((reqOnce (oemOpen (some 0)) 0 R.HUSK_PROV_CTL_FUSE 2415919104 0 0).husk.oemRootHash ≠ none) := ⟨by (exact Prod.ext rfl (by decide +kernel)),
    by decide +kernel, by decide +kernel, by decide +kernel⟩
theorem wit_DebugAndProvisioningKeepTheirGates_10 : (((oemOpen (some 0)).start 0).actionWrite 0 R.HUSK_PROV_CTL_FUSE 3221225472 = (reqOnce (oemOpen (some 0)) 0 R.HUSK_PROV_CTL_FUSE 3221225472 0 0, true))
    ∧ ((reqOnce (oemOpen (some 0)) 0 R.HUSK_PROV_CTL_FUSE 3221225472 0 0).f R.HUSK_ID_LIFECYCLE = lcOemOpen)
    ∧ ((reqOnce (oemOpen (some 0)) 0 R.HUSK_PROV_CTL_FUSE 3221225472 0 0).f R.HUSK_PROV_CTL_ITEM = 4) := ⟨by (exact Prod.ext rfl (by decide +kernel)),
    by decide +kernel, by decide +kernel⟩
theorem wit_DebugAndProvisioningKeepTheirGates_11 : (((oemOpen none).start 0).actionWrite 0 R.HUSK_PROV_CTL_FUSE 3221225472 = (reqOnce (oemOpen none) 0 R.HUSK_PROV_CTL_FUSE 3221225472 0 0, true))
    ∧ ((reqOnce (oemOpen none) 0 R.HUSK_PROV_CTL_FUSE 3221225472 0 0).f R.HUSK_ID_LIFECYCLE = lcOemOpen)
    ∧ ((reqOnce (oemOpen none) 0 R.HUSK_PROV_CTL_FUSE 3221225472 0 0).f R.HUSK_PROV_CTL_ITEM = 4) := ⟨by (exact Prod.ext rfl (by decide +kernel)),
    by decide +kernel, by decide +kernel⟩
def svn1 : State := live.setF R.HUSK_SVN_RUN_SVN 64
theorem wit_DebugAndProvisioningKeepTheirGates_12 : ((svn1.start 0).actionWrite 0 R.HUSK_SVN_CMD_COMMIT 2147483648 = (reqOnce svn1 0 R.HUSK_SVN_CMD_COMMIT 2147483648 0 0, true))
    ∧ ((reqOnce svn1 0 R.HUSK_SVN_CMD_COMMIT 2147483648 0 0).f R.HUSK_SVN_IMG_SVN < (reqOnce svn1 0 R.HUSK_SVN_CMD_COMMIT 2147483648 0 0).f R.HUSK_SVN_RUN_SVN)
    ∧ ((reqOnce svn1 0 R.HUSK_SVN_CMD_COMMIT 2147483648 0 0).room) := ⟨by (exact Prod.ext rfl (by decide +kernel)), by decide +kernel, by decide +kernel⟩
theorem wit_DebugAndProvisioningKeepTheirGates_13 : ((live.start 0).actionWrite 0 R.HUSK_SVN_CMD_COMMIT 2147483648 = (reqOnce live 0 R.HUSK_SVN_CMD_COMMIT 2147483648 0 0, true))
    ∧ ((reqOnce live 0 R.HUSK_SVN_CMD_COMMIT 2147483648 0 0).f R.HUSK_SVN_RUN_SVN ≤ (reqOnce live 0 R.HUSK_SVN_CMD_COMMIT 2147483648 0 0).f R.HUSK_SVN_IMG_SVN)
    := ⟨by (exact Prod.ext rfl (by decide +kernel)), by decide +kernel⟩
def safUser (u : Nat) : State :=
  { (session live 1 3).setF R.HUSK_SESS_STAT_USER u 0 1 with husk := { live.husk with pw := [(0, { set := true }), (7, { set := true })] } }
theorem wit_KeysAreLoadedAndRemoved_1 : ((live.start 0).actionWrite 0 R.HUSK_KEY_CTL_PW_SET 805306368 = (reqOnce live 0 R.HUSK_KEY_CTL_PW_SET 805306368 0 0, true))
    ∧ (keyConflict 805306368 = true) := ⟨by (exact Prod.ext rfl (by decide +kernel)), by decide +kernel⟩
theorem wit_KeysAreLoadedAndRemoved_2 : ((live.start 0).actionWrite 0 R.HUSK_KEY_CTL_PW_SET 536870912 = (reqOnce live 0 R.HUSK_KEY_CTL_PW_SET 536870912 0 0, true))
    ∧ (keyConflict 536870912 = false) ∧ ((reqOnce live 0 R.HUSK_KEY_CTL_PW_SET 536870912 0 0).sessionOpen 0 = false)
    := ⟨by (exact Prod.ext rfl (by decide +kernel)), by decide +kernel, by decide +kernel⟩
def oemPlain : State := session live 1 1
theorem wit_KeysAreLoadedAndRemoved_3 : ((oemPlain.start 0).actionWrite 1 R.HUSK_KEY_CTL_PW_SET 536870912 = (reqOnce oemPlain 1 R.HUSK_KEY_CTL_PW_SET 536870912 0 0, true))
    ∧ (keyConflict 536870912 = false) ∧ ((reqOnce oemPlain 1 R.HUSK_KEY_CTL_PW_SET 536870912 0 0).sessionOpen 1 = true)
    ∧ ((reqOnce oemPlain 1 R.HUSK_KEY_CTL_PW_SET 536870912 0 0).domainOf 1 = domOem)
    ∧ (((reqOnce oemPlain 1 R.HUSK_KEY_CTL_PW_SET 536870912 0 0).pwSlot 0).set = false)
    ∧ ((reqOnce oemPlain 1 R.HUSK_KEY_CTL_PW_SET 536870912 0 0).f R.HUSK_KEY_CTL_SLOT = 0) := ⟨by (exact Prod.ext rfl (by decide +kernel)),
    by decide +kernel, by decide +kernel, by decide +kernel, by decide +kernel, by decide +kernel⟩
theorem wit_KeysAreLoadedAndRemoved_4 : (((safUser 7).start 0).actionWrite 1 R.HUSK_KEY_CTL_PW_SET 771751936 = (reqOnce (safUser 7) 1 R.HUSK_KEY_CTL_PW_SET 771751936 0 0, true))
    ∧ (keyConflict 771751936 = false) ∧ ((reqOnce (safUser 7) 1 R.HUSK_KEY_CTL_PW_SET 771751936 0 0).sessionOpen 1 = true)
    ∧ ((reqOnce (safUser 7) 1 R.HUSK_KEY_CTL_PW_SET 771751936 0 0).domainOf 1 = domSaf)
    ∧ (((reqOnce (safUser 7) 1 R.HUSK_KEY_CTL_PW_SET 771751936 0 0).pwSlot 0).set = true)
    ∧ ((reqOnce (safUser 7) 1 R.HUSK_KEY_CTL_PW_SET 771751936 0 0).f R.HUSK_KEY_CTL_SLOT = (reqOnce (safUser 7) 1 R.HUSK_KEY_CTL_PW_SET 771751936 0 0).f R.HUSK_SESS_STAT_USER 0 1 ∨ (reqOnce (safUser 7) 1 R.HUSK_KEY_CTL_PW_SET 771751936 0 0).f R.HUSK_SESS_STAT_USER 0 1 = 0)
    := ⟨by (exact Prod.ext rfl (by decide +kernel)), by decide +kernel, by decide +kernel, by decide +kernel, by decide +kernel, by decide +kernel⟩
theorem wit_KeysAreLoadedAndRemoved_5 : (((safUser 0).start 0).actionWrite 1 R.HUSK_KEY_CTL_PW_DEL 503316480 = (reqOnce (safUser 0) 1 R.HUSK_KEY_CTL_PW_DEL 503316480 0 0, true))
    ∧ (keyConflict 503316480 = false) := ⟨by (exact Prod.ext rfl (by decide +kernel)), by decide +kernel⟩
theorem wit_KeysAreLoadedAndRemoved_6 : ((live.start 0).actionWrite 1 R.HUSK_KEY_CTL_LOAD 2407530496 = (reqOnce live 1 R.HUSK_KEY_CTL_LOAD 2407530496 0 0, true))
    ∧ (keyConflict 2407530496 = false) ∧ ((reqOnce live 1 R.HUSK_KEY_CTL_LOAD 2407530496 0 0).room) := ⟨by (exact Prod.ext rfl (by decide +kernel)),
    by decide +kernel, by decide +kernel⟩
theorem wit_KeysAreLoadedAndRemoved_7 : ((live.start 0).actionWrite 1 R.HUSK_KEY_CTL_DELETE 1308622848 = (reqOnce live 1 R.HUSK_KEY_CTL_DELETE 1308622848 0 0, true))
    ∧ (keyConflict 1308622848 = false) ∧ ((reqOnce live 1 R.HUSK_KEY_CTL_DELETE 1308622848 0 0).room) := ⟨by (exact Prod.ext rfl (by decide +kernel)),
    by decide +kernel, by decide +kernel⟩
def cak1 (x : CakSlot) : State :=
  { ((((live.setB R.NET_CTL_EN true).setB R.NET_PORT_CFG_EN true 1).setB R.NET_PORT_STAT_LINK true 1).setB R.NET_PORT_CFG_MSEC true 1) with
    husk := { live.husk with cak := [(7, x)] }, net := { txSa := [(1, 8)] } }
theorem wit_KeysAreLoadedAndRemoved_8 : ((((cak1 { sakDeadline := 8 : CakSlot }).start 8).cakSlot 7).valid = false)
    ∧ ((((cak1 { sakDeadline := 8 : CakSlot }).start 8).cakSlot 7).sakDeadline ≠ 0) := by decide +kernel
theorem wit_KeysAreLoadedAndRemoved_9 : (((cak1 { valid := true, port := 1 : CakSlot }).start 8).mkaOn 1 = true)
    ∧ ({ slot := some 7 : MkaFrame }.slot = some 7) ∧ ((((cak1 { valid := true, port := 1 : CakSlot }).start 8).cakSlot 7).valid = true)
    ∧ ((((cak1 { valid := true, port := 1 : CakSlot }).start 8).cakSlot 7).port = 1) := by decide +kernel
def cakPeer : State := { cak1 {} with net := { ports := [(1, { peer := some (1, 2, 7) })] } }
theorem wit_KeysAreLoadedAndRemoved_10 : ((cakPeer.start 8).mkaOn 1 = true) ∧ (((cakPeer.start 8).port 1).peer = some (1, 2, 7)) := by decide +kernel
theorem wit_ResetSourcesWipeTheDevice_1 : ((live.start 8000).pwr.porst = false) ∧ (0 + usQ ≤ (live.start 8000).now) := by decide +kernel
theorem wit_ResetSourcesWipeTheDevice_2 : (7 < 8) ∧ (0 < railFall 7) ∧ (0 + 2 * usQ ≤ (live.start 16000).now) := by decide +kernel
theorem wit_ResetSourcesWipeTheDevice_3 : (3 < 8) ∧ (1199 < railFall 3) ∧ (0 + 2 * usQ ≤ (live.start 16000).now) := by decide +kernel
def inReset (p : PwrSt) : State := { live with pwr := p }
theorem wit_ResetSourcesWipeTheDevice_4 : (((inReset { rails := 0, porst := false, supplyReset := true : PwrSt }).start 8000000).pwr.supplyReset = true)
    ∧ (0 + msQ ≤ ((inReset { rails := 0, porst := false, supplyReset := true : PwrSt }).start 8000000).now)
    ∧ (∀ (r : Nat), r < 8 → (if ((inReset { rails := 0, porst := false, supplyReset := true : PwrSt }).start 8000000).pwr.rails.testBit r = true then railFall r else railRise r) ≤ [3000, 3000, 3000, 3000, 3000, 3000, 3000, 3000].getD r 0)
    := by decide +kernel
theorem wit_ResetSourcesWipeTheDevice_5 : (((inReset { : PwrSt }).start 8).inReset = true) ∧ (((inReset { : PwrSt }).start 8).pwr.supplyReset = false)
    ∧ (((inReset { : PwrSt }).start 8).pwr.softEnd ≤ ((inReset { : PwrSt }).start 8).now) := by decide +kernel
theorem wit_ResetSourcesWipeTheDevice_6 : ((live.start 8000).inReset = false) ∧ ((live.start 8000).hostq.linkUp = true)
    ∧ (0 + usQ ≤ (live.start 8000).now) := by decide +kernel
theorem wit_ResetSourcesWipeTheDevice_7 : (live.start 8).inReset = false := by decide +kernel
def oemSes : State := session live 1 1
def notHeld : State := (((oemSes.setB R.PWM_CTL_EN true).setB R.PWM_SLOT_CFG_EN true 23).setF R.PWM_SLOT_CFG_TOPO 1 23).setB R.TRIP_TGT_STAT_HELD false 23
theorem wit_ResetSourcesWipeTheDevice_8 : ((oemSes.start 0).actionWrite 1 R.PWR_RST_CMD_SYS_RST 2147528711 = (reqOnce oemSes 1 R.PWR_RST_CMD_SYS_RST 2147528711 0 0, true))
    ∧ ((reqOnce oemSes 1 R.PWR_RST_CMD_SYS_RST 2147528711 0 0).sessionOpen 1 = true)
    ∧ ((reqOnce oemSes 1 R.PWR_RST_CMD_SYS_RST 2147528711 0 0).domainOf 1 = domOem) ∧ (getBits 2147528711 15 0 = 45063)
    ∧ ((reqOnce oemSes 1 R.PWR_RST_CMD_SYS_RST 2147528711 0 0).allHeld = true) := ⟨by (exact Prod.ext rfl (by decide +kernel)), by decide +kernel,
    by decide +kernel, by decide +kernel, by decide +kernel⟩
theorem wit_ResetSourcesWipeTheDevice_9 : ((notHeld.start 0).actionWrite 1 R.PWR_RST_CMD_SYS_RST 2147528711 = (reqOnce notHeld 1 R.PWR_RST_CMD_SYS_RST 2147528711 0 0, true))
    ∧ ((reqOnce notHeld 1 R.PWR_RST_CMD_SYS_RST 2147528711 0 0).sessionOpen 1 = true)
    ∧ ((reqOnce notHeld 1 R.PWR_RST_CMD_SYS_RST 2147528711 0 0).domainOf 1 = domOem) ∧ (getBits 2147528711 15 0 = 45063)
    ∧ ((reqOnce notHeld 1 R.PWR_RST_CMD_SYS_RST 2147528711 0 0).allHeld = false) ∧ ((reqOnce notHeld 1 R.PWR_RST_CMD_SYS_RST 2147528711 0 0).room)
    := ⟨by (exact Prod.ext rfl (by decide +kernel)), by decide +kernel, by decide +kernel, by decide +kernel, by decide +kernel, by decide +kernel⟩
theorem wit_ResetSourcesWipeTheDevice_10 : ((oemSes.start 0).actionWrite 1 R.PWR_RST_CMD_SYS_RST 2147483655 = (reqOnce oemSes 1 R.PWR_RST_CMD_SYS_RST 2147483655 0 0, true))
    ∧ ((reqOnce oemSes 1 R.PWR_RST_CMD_SYS_RST 2147483655 0 0).sessionOpen 1 = false ∨ (reqOnce oemSes 1 R.PWR_RST_CMD_SYS_RST 2147483655 0 0).domainOf 1 ≠ domOem ∨ getBits 2147483655 15 0 ≠ 45063)
    := ⟨by (exact Prod.ext rfl (by decide +kernel)), by decide +kernel⟩
theorem wit_EraseLeavesNothing_1 : ((oemSes.start 0).actionWrite 1 R.HUSK_ERASE_CTL_ERASE 2147512644 = (reqOnce oemSes 1 R.HUSK_ERASE_CTL_ERASE 2147512644 0 0, true))
    ∧ ((reqOnce oemSes 1 R.HUSK_ERASE_CTL_ERASE 2147512644 0 0).sessionOpen 1 = true
    ∧ ((reqOnce oemSes 1 R.HUSK_ERASE_CTL_ERASE 2147512644 0 0).domainOf 1 = domOem ∨ (reqOnce oemSes 1 R.HUSK_ERASE_CTL_ERASE 2147512644 0 0).domainOf 1 = domVnd
    ∧ (reqOnce oemSes 1 R.HUSK_ERASE_CTL_ERASE 2147512644 0 0).b R.HUSK_DBG_STAT_CONSENT = true)
    ∧ (reqOnce oemSes 1 R.HUSK_ERASE_CTL_ERASE 2147512644 0 0).f R.HUSK_ID_LIFECYCLE = lcDeployed ∧ getBits 2147512644 15 0 = 28996
    ∧ (reqOnce oemSes 1 R.HUSK_ERASE_CTL_ERASE 2147512644 0 0).allHeld = true) := ⟨by (exact Prod.ext rfl (by decide +kernel)), by decide +kernel⟩
theorem wit_EraseLeavesNothing_2 : ((notHeld.start 0).actionWrite 1 R.HUSK_ERASE_CTL_ERASE 2147512644 = (reqOnce notHeld 1 R.HUSK_ERASE_CTL_ERASE 2147512644 0 0, true))
    ∧ (¬((reqOnce notHeld 1 R.HUSK_ERASE_CTL_ERASE 2147512644 0 0).sessionOpen 1 = true
    ∧ ((reqOnce notHeld 1 R.HUSK_ERASE_CTL_ERASE 2147512644 0 0).domainOf 1 = domOem ∨ (reqOnce notHeld 1 R.HUSK_ERASE_CTL_ERASE 2147512644 0 0).domainOf 1 = domVnd
    ∧ (reqOnce notHeld 1 R.HUSK_ERASE_CTL_ERASE 2147512644 0 0).b R.HUSK_DBG_STAT_CONSENT = true)
    ∧ (reqOnce notHeld 1 R.HUSK_ERASE_CTL_ERASE 2147512644 0 0).f R.HUSK_ID_LIFECYCLE = lcDeployed ∧ getBits 2147512644 15 0 = 28996
    ∧ (reqOnce notHeld 1 R.HUSK_ERASE_CTL_ERASE 2147512644 0 0).allHeld = true)) ∧ ((reqOnce notHeld 1 R.HUSK_ERASE_CTL_ERASE 2147512644 0 0).room)
    := ⟨by (exact Prod.ext rfl (by decide +kernel)), by decide +kernel, by decide +kernel⟩
def erasing : State := { live with husk := { live.husk with eraseHeld := true, eraseOpen := true } }
theorem wit_EraseLeavesNothing_3 : ((erasing.start 8).inReset = false) ∧ ((erasing.start 8).husk.eraseHeld = true)
    ∧ ((erasing.start 8).husk.eraseOpen = true) ∧ ((erasing.start 8).room) := by decide +kernel
/-- An image with no key of a known kind is not signed. -/
theorem unsigned {s : State} {im : SlotImage} (h : im.key.kind = 2) : s.verifyResult im = 1 := by
  have h0 : imageKey im.key = none := by simp [imageKey, h]
  simp [State.verifyResult, State.signatureOk, h0]
def bist0 : State := { live.setB R.CFG_STAT_SEALED false with rel := { gone := [(383, 2)] } }
theorem wit_BootChainReachesReady_1 : ((bist0.start 8).alive = true) ∧ ((bist0.start 8).husk.firmware = true)
    ∧ ((bist0.start 8).b R.CLK_STAT_NOREF = false) ∧ ((bist0.start 8).b R.REL_STAT_BOOT_BIST_DONE = false) := by decide +kernel
theorem wit_BootChainReachesReady_2 : (((boot1 false false).start 8).alive = true) ∧ (((boot1 false false).start 8).husk.firmware = true)
    ∧ (((boot1 false false).start 8).b R.CLK_STAT_NOREF = false) ∧ (((boot1 false false).start 8).cfg.released = false)
    ∧ (((boot1 false false).start 8).b R.CFG_STAT_SEALED = false) ∧ (((boot1 false false).start 8).cfg.order.head? = some 1) ∧ (1 < 2)
    ∧ (((boot1 false false).start 8).verifyResult (((boot1 false false).start 8).slotImg 1) = 1) ∧ (1 ≠ 0) ∧ (((boot1 false false).start 8).room)
    := ⟨by decide +kernel, by decide +kernel, by decide +kernel, by decide +kernel, by decide +kernel, by decide +kernel, by decide +kernel,
    by (exact unsigned rfl), by decide +kernel, by decide +kernel⟩
def bootWith (im : SlotImage) : State := { boot1 true false with cfg := { (boot1 true false).cfg with slots := [(1, im)] } }
def badTable : SlotImage := { imgOf (hdrOf 8 0 992) true [] with secs := [] }
theorem wit_BootChainReachesReady_3 : (((bootWith badTable).start 8).alive = true) ∧ (((bootWith badTable).start 8).cfg.released = true)
    ∧ (((bootWith badTable).start 8).cfg.placed = false) ∧ (((bootWith badTable).start 8).b R.REL_STAT_BOOT_BIST_DONE = true)
    ∧ (((bootWith badTable).start 8).b R.CFG_STAT_SEALED = false)
    ∧ (layoutBad (((bootWith badTable).start 8).slotImg (((bootWith badTable).start 8).cfg.order.head?.getD 0)) = some (256, 0))
    ∧ (((bootWith badTable).start 8).cfg.order.head? = some 1) ∧ (((bootWith badTable).start 8).room) := by decide +kernel
def nineKeys : SlotImage := imgOf (hdrOf 8 0 992) true (List.replicate 9 0)
theorem wit_BootChainReachesReady_4 : (((bootWith nineKeys).start 8).alive = true) ∧ (((bootWith nineKeys).start 8).cfg.released = true)
    ∧ (((bootWith nineKeys).start 8).cfg.placed = false) ∧ (((bootWith nineKeys).start 8).b R.REL_STAT_BOOT_BIST_DONE = true)
    ∧ (((bootWith nineKeys).start 8).b R.CFG_STAT_SEALED = false)
    ∧ (layoutBad (((bootWith nineKeys).start 8).slotImg (((bootWith nineKeys).start 8).cfg.order.head?.getD 0)) = none)
    ∧ (List.drop ((bootWith nineKeys).start 8).cfg.loaded.length (((bootWith nineKeys).start 8).slotImg (((bootWith nineKeys).start 8).cfg.order.head?.getD 0)).secs = [Section.huskPolicy true (List.replicate 9 0)])
    ∧ (((bootWith nineKeys).start 8).cfg.order.head? = some 1) ∧ (1280 = sectionId (Section.huskPolicy true (List.replicate 9 0)))
    ∧ ((∃ l, l ∈ ((bootWith nineKeys).start 8).cfg.loaded ∧ 1280 ≤ l) ∧ 8 = 0 ∨ (∀ (l : Nat), l ∈ ((bootWith nineKeys).start 8).cfg.loaded → l < 1280)
    ∧ ((bootWith nineKeys).start 8).loadSection (Section.huskPolicy true (List.replicate 9 0)) = Except.error 8) ∧ (((bootWith nineKeys).start 8).room)
    := ⟨by decide +kernel, by decide +kernel, by decide +kernel, by decide +kernel, by decide +kernel, by decide +kernel, by decide +kernel,
    by decide +kernel, by decide +kernel, by (exact Or.inr ⟨by decide +kernel, rfl⟩), by decide +kernel⟩
def loaded5 : State := { boot1 true false with cfg := { (boot1 true false).cfg with loaded := [0x100, 0x200, 0x500] } }
theorem wit_BootChainReachesReady_5 : ((loaded5.start 8).alive = true) ∧ ((loaded5.start 8).cfg.released = true)
    ∧ ((loaded5.start 8).cfg.placed = false) ∧ ((loaded5.start 8).b R.REL_STAT_BOOT_BIST_DONE = true) ∧ ((loaded5.start 8).b R.CFG_STAT_SEALED = false)
    ∧ (layoutBad ((loaded5.start 8).slotImg ((loaded5.start 8).cfg.order.head?.getD 0)) = none)
    ∧ (List.drop (loaded5.start 8).cfg.loaded.length ((loaded5.start 8).slotImg ((loaded5.start 8).cfg.order.head?.getD 0)).secs = [Section.huskPolicy true []])
    ∧ ((loaded5.start 8).cfg.order.head? = some 1) ∧ (1280 = sectionId (Section.huskPolicy true [])) ∧ ((∃ l, l ∈ (loaded5.start 8).cfg.loaded ∧ 1280 ≤ l)
    ∧ 0 = 0 ∨ (∀ (l : Nat), l ∈ (loaded5.start 8).cfg.loaded → l < 1280) ∧ (loaded5.start 8).loadSection (Section.huskPolicy true []) = Except.error 0)
    ∧ ((loaded5.start 8).room) := ⟨by decide +kernel, by decide +kernel, by decide +kernel, by decide +kernel, by decide +kernel, by decide +kernel,
    by decide +kernel, by decide +kernel, by decide +kernel, by (exact Or.inl (by decide +kernel)), by decide +kernel⟩
theorem wit_BootChainReachesReady_6 : (((boot1 true false).start 8).alive = true) ∧ (((boot1 true false).start 8).cfg.released = true)
    ∧ (((boot1 true false).start 8).cfg.placed = false) ∧ (((boot1 true false).start 8).b R.REL_STAT_BOOT_BIST_DONE = true)
    ∧ (((boot1 true false).start 8).b R.CFG_STAT_SEALED = false)
    ∧ (layoutBad (((boot1 true false).start 8).slotImg (((boot1 true false).start 8).cfg.order.head?.getD 0)) = none)
    ∧ (List.drop ((boot1 true false).start 8).cfg.loaded.length (((boot1 true false).start 8).slotImg (((boot1 true false).start 8).cfg.order.head?.getD 0)).secs = [Section.huskPolicy true []])
    ∧ (∀ (l : Nat), l ∈ ((boot1 true false).start 8).cfg.loaded → l < sectionId (Section.huskPolicy true [])) ∧ (some (0, 0) ≠ none) := by decide +kernel
def loaded2 : State := { boot1 true false with cfg := { (boot1 true false).cfg with loaded := [0x100, 0x200] } }
theorem wit_BootChainReachesReady_7 : ((loaded2.start 8).alive = true) ∧ ((loaded2.start 8).cfg.released = true)
    ∧ ((loaded2.start 8).cfg.placed = false) ∧ ((loaded2.start 8).b R.REL_STAT_BOOT_BIST_DONE = true) ∧ ((loaded2.start 8).b R.CFG_STAT_SEALED = false)
    ∧ (layoutBad ((loaded2.start 8).slotImg ((loaded2.start 8).cfg.order.head?.getD 0)) = none)
    ∧ (List.drop (loaded2.start 8).cfg.loaded.length ((loaded2.start 8).slotImg ((loaded2.start 8).cfg.order.head?.getD 0)).secs = [Section.contexts [], Section.huskPolicy true []])
    ∧ (∀ (l : Nat), l ∈ (loaded2.start 8).cfg.loaded → l < sectionId (Section.contexts [])) ∧ ([Section.huskPolicy true []] ≠ []) := by decide +kernel
theorem wit_BootChainReachesReady_8 : (((pllsOn (boot1 true false)).start 8).alive = true)
    ∧ (((pllsOn (boot1 true false)).start 8).cfg.released = true) ∧ (((pllsOn (boot1 true false)).start 8).cfg.placed = false)
    ∧ (((pllsOn (boot1 true false)).start 8).b R.REL_STAT_BOOT_BIST_DONE = true) ∧ (((pllsOn (boot1 true false)).start 8).b R.CFG_STAT_SEALED = false)
    ∧ (layoutBad (((pllsOn (boot1 true false)).start 8).slotImg (((pllsOn (boot1 true false)).start 8).cfg.order.head?.getD 0)) = none)
    ∧ (List.drop ((pllsOn (boot1 true false)).start 8).cfg.loaded.length (((pllsOn (boot1 true false)).start 8).slotImg (((pllsOn (boot1 true false)).start 8).cfg.order.head?.getD 0)).secs = [Section.huskPolicy true []])
    ∧ (∀ (l : Nat), l ∈ ((pllsOn (boot1 true false)).start 8).cfg.loaded → l < sectionId (Section.huskPolicy true []))
    ∧ (({           pending :=             { pending := ((pllsOn (boot1 true false)).start 8).pending, now := ((pllsOn (boot1 true false)).start 8).now, out := ((pllsOn (boot1 true false)).start 8).out, free := ((pllsOn (boot1 true false)).start 8).free, fresh := ((pllsOn (boot1 true false)).start 8).fresh, regs := ((pllsOn (boot1 true false)).start 8).regs, sys := ((pllsOn (boot1 true false)).start 8).sys,                 husk :=                   have __src := ((pllsOn (boot1 true false)).start 8).husk;                   { sess := __src.sess, skvRootHash := __src.skvRootHash, duk := __src.duk, oemRootHash := __src.oemRootHash, oemKek := __src.oemKek, safRootHash := __src.safRootHash, pw := __src.pw, cak := __src.cak, consentEnd := __src.consentEnd, eraseHeld := __src.eraseHeld, eraseOpen := __src.eraseOpen, pf0Base := true, firmware := __src.firmware, recordBad := __src.recordBad : HuskSt },                 pwr := ((pllsOn (boot1 true false)).start 8).pwr, sea := ((pllsOn (boot1 true false)).start 8).sea, mesh := ((pllsOn (boot1 true false)).start 8).mesh, meas := ((pllsOn (boot1 true false)).start 8).meas, pos := ((pllsOn (boot1 true false)).start 8).pos, pwm := ((pllsOn (boot1 true false)).start 8).pwm, trip := ((pllsOn (boot1 true false)).start 8).trip, loop := ((pllsOn (boot1 true false)).start 8).loop, safe := ((pllsOn (boot1 true false)).start 8).safe, hostq := ((pllsOn (boot1 true false)).start 8).hostq, net := ((pllsOn (boot1 true false)).start 8).net, can := ((pllsOn (boot1 true false)).start 8).can, clk := ((pllsOn (boot1 true false)).start 8).clk, rel := ((pllsOn (boot1 true false)).start 8).rel, cfg := ((pllsOn (boot1 true false)).start 8).cfg, tap := ((pllsOn (boot1 true false)).start 8).tap : State }.pending,           now :=             { pending := ((pllsOn (boot1 true false)).start 8).pending, now := ((pllsOn (boot1 true false)).start 8).now, out := ((pllsOn (boot1 true false)).start 8).out, free := ((pllsOn (boot1 true false)).start 8).free, fresh := ((pllsOn (boot1 true false)).start 8).fresh, regs := ((pllsOn (boot1 true false)).start 8).regs, sys := ((pllsOn (boot1 true false)).start 8).sys,                 husk :=                   have __src := ((pllsOn (boot1 true false)).start 8).husk;                   { sess := __src.sess, skvRootHash := __src.skvRootHash, duk := __src.duk, oemRootHash := __src.oemRootHash, oemKek := __src.oemKek, safRootHash := __src.safRootHash, pw := __src.pw, cak := __src.cak, consentEnd := __src.consentEnd, eraseHeld := __src.eraseHeld, eraseOpen := __src.eraseOpen, pf0Base := true, firmware := __src.firmware, recordBad := __src.recordBad : HuskSt },                 pwr := ((pllsOn (boot1 true false)).start 8).pwr, sea := ((pllsOn (boot1 true false)).start 8).sea, mesh := ((pllsOn (boot1 true false)).start 8).mesh, meas := ((pllsOn (boot1 true false)).start 8).meas, pos := ((pllsOn (boot1 true false)).start 8).pos, pwm := ((pllsOn (boot1 true false)).start 8).pwm, trip := ((pllsOn (boot1 true false)).start 8).trip, loop := ((pllsOn (boot1 true false)).start 8).loop, safe := ((pllsOn (boot1 true false)).start 8).safe, hostq := ((pllsOn (boot1 true false)).start 8).hostq, net := ((pllsOn (boot1 true false)).start 8).net, can := ((pllsOn (boot1 true false)).start 8).can, clk := ((pllsOn (boot1 true false)).start 8).clk, rel := ((pllsOn (boot1 true false)).start 8).rel, cfg := ((pllsOn (boot1 true false)).start 8).cfg, tap := ((pllsOn (boot1 true false)).start 8).tap : State }.now,           out :=             { pending := ((pllsOn (boot1 true false)).start 8).pending, now := ((pllsOn (boot1 true false)).start 8).now, out := ((pllsOn (boot1 true false)).start 8).out, free := ((pllsOn (boot1 true false)).start 8).free, fresh := ((pllsOn (boot1 true false)).start 8).fresh, regs := ((pllsOn (boot1 true false)).start 8).regs, sys := ((pllsOn (boot1 true false)).start 8).sys,                 husk :=                   have __src := ((pllsOn (boot1 true false)).start 8).husk;                   { sess := __src.sess, skvRootHash := __src.skvRootHash, duk := __src.duk, oemRootHash := __src.oemRootHash, oemKek := __src.oemKek, safRootHash := __src.safRootHash, pw := __src.pw, cak := __src.cak, consentEnd := __src.consentEnd, eraseHeld := __src.eraseHeld, eraseOpen := __src.eraseOpen, pf0Base := true, firmware := __src.firmware, recordBad := __src.recordBad : HuskSt },                 pwr := ((pllsOn (boot1 true false)).start 8).pwr, sea := ((pllsOn (boot1 true false)).start 8).sea, mesh := ((pllsOn (boot1 true false)).start 8).mesh, meas := ((pllsOn (boot1 true false)).start 8).meas, pos := ((pllsOn (boot1 true false)).start 8).pos, pwm := ((pllsOn (boot1 true false)).start 8).pwm, trip := ((pllsOn (boot1 true false)).start 8).trip, loop := ((pllsOn (boot1 true false)).start 8).loop, safe := ((pllsOn (boot1 true false)).start 8).safe, hostq := ((pllsOn (boot1 true false)).start 8).hostq, net := ((pllsOn (boot1 true false)).start 8).net, can := ((pllsOn (boot1 true false)).start 8).can, clk := ((pllsOn (boot1 true false)).start 8).clk, rel := ((pllsOn (boot1 true false)).start 8).rel, cfg := ((pllsOn (boot1 true false)).start 8).cfg, tap := ((pllsOn (boot1 true false)).start 8).tap : State }.out,           free :=             { pending := ((pllsOn (boot1 true false)).start 8).pending, now := ((pllsOn (boot1 true false)).start 8).now, out := ((pllsOn (boot1 true false)).start 8).out, free := ((pllsOn (boot1 true false)).start 8).free, fresh := ((pllsOn (boot1 true false)).start 8).fresh, regs := ((pllsOn (boot1 true false)).start 8).regs, sys := ((pllsOn (boot1 true false)).start 8).sys,                 husk :=                   have __src := ((pllsOn (boot1 true false)).start 8).husk;                   { sess := __src.sess, skvRootHash := __src.skvRootHash, duk := __src.duk, oemRootHash := __src.oemRootHash, oemKek := __src.oemKek, safRootHash := __src.safRootHash, pw := __src.pw, cak := __src.cak, consentEnd := __src.consentEnd, eraseHeld := __src.eraseHeld, eraseOpen := __src.eraseOpen, pf0Base := true, firmware := __src.firmware, recordBad := __src.recordBad : HuskSt },                 pwr := ((pllsOn (boot1 true false)).start 8).pwr, sea := ((pllsOn (boot1 true false)).start 8).sea, mesh := ((pllsOn (boot1 true false)).start 8).mesh, meas := ((pllsOn (boot1 true false)).start 8).meas, pos := ((pllsOn (boot1 true false)).start 8).pos, pwm := ((pllsOn (boot1 true false)).start 8).pwm, trip := ((pllsOn (boot1 true false)).start 8).trip, loop := ((pllsOn (boot1 true false)).start 8).loop, safe := ((pllsOn (boot1 true false)).start 8).safe, hostq := ((pllsOn (boot1 true false)).start 8).hostq, net := ((pllsOn (boot1 true false)).start 8).net, can := ((pllsOn (boot1 true false)).start 8).can, clk := ((pllsOn (boot1 true false)).start 8).clk, rel := ((pllsOn (boot1 true false)).start 8).rel, cfg := ((pllsOn (boot1 true false)).start 8).cfg, tap := ((pllsOn (boot1 true false)).start 8).tap : State }.free,           fresh :=             { pending := ((pllsOn (boot1 true false)).start 8).pending, now := ((pllsOn (boot1 true false)).start 8).now, out := ((pllsOn (boot1 true false)).start 8).out, free := ((pllsOn (boot1 true false)).start 8).free, fresh := ((pllsOn (boot1 true false)).start 8).fresh, regs := ((pllsOn (boot1 true false)).start 8).regs, sys := ((pllsOn (boot1 true false)).start 8).sys,                 husk :=                   have __src := ((pllsOn (boot1 true false)).start 8).husk;                   { sess := __src.sess, skvRootHash := __src.skvRootHash, duk := __src.duk, oemRootHash := __src.oemRootHash, oemKek := __src.oemKek, safRootHash := __src.safRootHash, pw := __src.pw, cak := __src.cak, consentEnd := __src.consentEnd, eraseHeld := __src.eraseHeld, eraseOpen := __src.eraseOpen, pf0Base := true, firmware := __src.firmware, recordBad := __src.recordBad : HuskSt },                 pwr := ((pllsOn (boot1 true false)).start 8).pwr, sea := ((pllsOn (boot1 true false)).start 8).sea, mesh := ((pllsOn (boot1 true false)).start 8).mesh, meas := ((pllsOn (boot1 true false)).start 8).meas, pos := ((pllsOn (boot1 true false)).start 8).pos, pwm := ((pllsOn (boot1 true false)).start 8).pwm, trip := ((pllsOn (boot1 true false)).start 8).trip, loop := ((pllsOn (boot1 true false)).start 8).loop, safe := ((pllsOn (boot1 true false)).start 8).safe, hostq := ((pllsOn (boot1 true false)).start 8).hostq, net := ((pllsOn (boot1 true false)).start 8).net, can := ((pllsOn (boot1 true false)).start 8).can, clk := ((pllsOn (boot1 true false)).start 8).clk, rel := ((pllsOn (boot1 true false)).start 8).rel, cfg := ((pllsOn (boot1 true false)).start 8).cfg, tap := ((pllsOn (boot1 true false)).start 8).tap : State }.fresh,           regs :=             { pending := ((pllsOn (boot1 true false)).start 8).pending, now := ((pllsOn (boot1 true false)).start 8).now, out := ((pllsOn (boot1 true false)).start 8).out, free := ((pllsOn (boot1 true false)).start 8).free, fresh := ((pllsOn (boot1 true false)).start 8).fresh, regs := ((pllsOn (boot1 true false)).start 8).regs, sys := ((pllsOn (boot1 true false)).start 8).sys,                 husk :=                   have __src := ((pllsOn (boot1 true false)).start 8).husk;                   { sess := __src.sess, skvRootHash := __src.skvRootHash, duk := __src.duk, oemRootHash := __src.oemRootHash, oemKek := __src.oemKek, safRootHash := __src.safRootHash, pw := __src.pw, cak := __src.cak, consentEnd := __src.consentEnd, eraseHeld := __src.eraseHeld, eraseOpen := __src.eraseOpen, pf0Base := true, firmware := __src.firmware, recordBad := __src.recordBad : HuskSt },                 pwr := ((pllsOn (boot1 true false)).start 8).pwr, sea := ((pllsOn (boot1 true false)).start 8).sea, mesh := ((pllsOn (boot1 true false)).start 8).mesh, meas := ((pllsOn (boot1 true false)).start 8).meas, pos := ((pllsOn (boot1 true false)).start 8).pos, pwm := ((pllsOn (boot1 true false)).start 8).pwm, trip := ((pllsOn (boot1 true false)).start 8).trip, loop := ((pllsOn (boot1 true false)).start 8).loop, safe := ((pllsOn (boot1 true false)).start 8).safe, hostq := ((pllsOn (boot1 true false)).start 8).hostq, net := ((pllsOn (boot1 true false)).start 8).net, can := ((pllsOn (boot1 true false)).start 8).can, clk := ((pllsOn (boot1 true false)).start 8).clk, rel := ((pllsOn (boot1 true false)).start 8).rel, cfg := ((pllsOn (boot1 true false)).start 8).cfg, tap := ((pllsOn (boot1 true false)).start 8).tap : State }.regs,           sys :=             { pending := ((pllsOn (boot1 true false)).start 8).pending, now := ((pllsOn (boot1 true false)).start 8).now, out := ((pllsOn (boot1 true false)).start 8).out, free := ((pllsOn (boot1 true false)).start 8).free, fresh := ((pllsOn (boot1 true false)).start 8).fresh, regs := ((pllsOn (boot1 true false)).start 8).regs, sys := ((pllsOn (boot1 true false)).start 8).sys,                 husk :=                   have __src := ((pllsOn (boot1 true false)).start 8).husk;                   { sess := __src.sess, skvRootHash := __src.skvRootHash, duk := __src.duk, oemRootHash := __src.oemRootHash, oemKek := __src.oemKek, safRootHash := __src.safRootHash, pw := __src.pw, cak := __src.cak, consentEnd := __src.consentEnd, eraseHeld := __src.eraseHeld, eraseOpen := __src.eraseOpen, pf0Base := true, firmware := __src.firmware, recordBad := __src.recordBad : HuskSt },                 pwr := ((pllsOn (boot1 true false)).start 8).pwr, sea := ((pllsOn (boot1 true false)).start 8).sea, mesh := ((pllsOn (boot1 true false)).start 8).mesh, meas := ((pllsOn (boot1 true false)).start 8).meas, pos := ((pllsOn (boot1 true false)).start 8).pos, pwm := ((pllsOn (boot1 true false)).start 8).pwm, trip := ((pllsOn (boot1 true false)).start 8).trip, loop := ((pllsOn (boot1 true false)).start 8).loop, safe := ((pllsOn (boot1 true false)).start 8).safe, hostq := ((pllsOn (boot1 true false)).start 8).hostq, net := ((pllsOn (boot1 true false)).start 8).net, can := ((pllsOn (boot1 true false)).start 8).can, clk := ((pllsOn (boot1 true false)).start 8).clk, rel := ((pllsOn (boot1 true false)).start 8).rel, cfg := ((pllsOn (boot1 true false)).start 8).cfg, tap := ((pllsOn (boot1 true false)).start 8).tap : State }.sys,           husk :=             { pending := ((pllsOn (boot1 true false)).start 8).pending, now := ((pllsOn (boot1 true false)).start 8).now, out := ((pllsOn (boot1 true false)).start 8).out, free := ((pllsOn (boot1 true false)).start 8).free, fresh := ((pllsOn (boot1 true false)).start 8).fresh, regs := ((pllsOn (boot1 true false)).start 8).regs, sys := ((pllsOn (boot1 true false)).start 8).sys,                 husk :=                   have __src := ((pllsOn (boot1 true false)).start 8).husk;                   { sess := __src.sess, skvRootHash := __src.skvRootHash, duk := __src.duk, oemRootHash := __src.oemRootHash, oemKek := __src.oemKek, safRootHash := __src.safRootHash, pw := __src.pw, cak := __src.cak, consentEnd := __src.consentEnd, eraseHeld := __src.eraseHeld, eraseOpen := __src.eraseOpen, pf0Base := true, firmware := __src.firmware, recordBad := __src.recordBad : HuskSt },                 pwr := ((pllsOn (boot1 true false)).start 8).pwr, sea := ((pllsOn (boot1 true false)).start 8).sea, mesh := ((pllsOn (boot1 true false)).start 8).mesh, meas := ((pllsOn (boot1 true false)).start 8).meas, pos := ((pllsOn (boot1 true false)).start 8).pos, pwm := ((pllsOn (boot1 true false)).start 8).pwm, trip := ((pllsOn (boot1 true false)).start 8).trip, loop := ((pllsOn (boot1 true false)).start 8).loop, safe := ((pllsOn (boot1 true false)).start 8).safe, hostq := ((pllsOn (boot1 true false)).start 8).hostq, net := ((pllsOn (boot1 true false)).start 8).net, can := ((pllsOn (boot1 true false)).start 8).can, clk := ((pllsOn (boot1 true false)).start 8).clk, rel := ((pllsOn (boot1 true false)).start 8).rel, cfg := ((pllsOn (boot1 true false)).start 8).cfg, tap := ((pllsOn (boot1 true false)).start 8).tap : State }.husk,           pwr :=             { pending := ((pllsOn (boot1 true false)).start 8).pending, now := ((pllsOn (boot1 true false)).start 8).now, out := ((pllsOn (boot1 true false)).start 8).out, free := ((pllsOn (boot1 true false)).start 8).free, fresh := ((pllsOn (boot1 true false)).start 8).fresh, regs := ((pllsOn (boot1 true false)).start 8).regs, sys := ((pllsOn (boot1 true false)).start 8).sys,                 husk :=                   have __src := ((pllsOn (boot1 true false)).start 8).husk;                   { sess := __src.sess, skvRootHash := __src.skvRootHash, duk := __src.duk, oemRootHash := __src.oemRootHash, oemKek := __src.oemKek, safRootHash := __src.safRootHash, pw := __src.pw, cak := __src.cak, consentEnd := __src.consentEnd, eraseHeld := __src.eraseHeld, eraseOpen := __src.eraseOpen, pf0Base := true, firmware := __src.firmware, recordBad := __src.recordBad : HuskSt },                 pwr := ((pllsOn (boot1 true false)).start 8).pwr, sea := ((pllsOn (boot1 true false)).start 8).sea, mesh := ((pllsOn (boot1 true false)).start 8).mesh, meas := ((pllsOn (boot1 true false)).start 8).meas, pos := ((pllsOn (boot1 true false)).start 8).pos, pwm := ((pllsOn (boot1 true false)).start 8).pwm, trip := ((pllsOn (boot1 true false)).start 8).trip, loop := ((pllsOn (boot1 true false)).start 8).loop, safe := ((pllsOn (boot1 true false)).start 8).safe, hostq := ((pllsOn (boot1 true false)).start 8).hostq, net := ((pllsOn (boot1 true false)).start 8).net, can := ((pllsOn (boot1 true false)).start 8).can, clk := ((pllsOn (boot1 true false)).start 8).clk, rel := ((pllsOn (boot1 true false)).start 8).rel, cfg := ((pllsOn (boot1 true false)).start 8).cfg, tap := ((pllsOn (boot1 true false)).start 8).tap : State }.pwr,           sea :=             { pending := ((pllsOn (boot1 true false)).start 8).pending, now := ((pllsOn (boot1 true false)).start 8).now, out := ((pllsOn (boot1 true false)).start 8).out, free := ((pllsOn (boot1 true false)).start 8).free, fresh := ((pllsOn (boot1 true false)).start 8).fresh, regs := ((pllsOn (boot1 true false)).start 8).regs, sys := ((pllsOn (boot1 true false)).start 8).sys,                 husk :=                   have __src := ((pllsOn (boot1 true false)).start 8).husk;                   { sess := __src.sess, skvRootHash := __src.skvRootHash, duk := __src.duk, oemRootHash := __src.oemRootHash, oemKek := __src.oemKek, safRootHash := __src.safRootHash, pw := __src.pw, cak := __src.cak, consentEnd := __src.consentEnd, eraseHeld := __src.eraseHeld, eraseOpen := __src.eraseOpen, pf0Base := true, firmware := __src.firmware, recordBad := __src.recordBad : HuskSt },                 pwr := ((pllsOn (boot1 true false)).start 8).pwr, sea := ((pllsOn (boot1 true false)).start 8).sea, mesh := ((pllsOn (boot1 true false)).start 8).mesh, meas := ((pllsOn (boot1 true false)).start 8).meas, pos := ((pllsOn (boot1 true false)).start 8).pos, pwm := ((pllsOn (boot1 true false)).start 8).pwm, trip := ((pllsOn (boot1 true false)).start 8).trip, loop := ((pllsOn (boot1 true false)).start 8).loop, safe := ((pllsOn (boot1 true false)).start 8).safe, hostq := ((pllsOn (boot1 true false)).start 8).hostq, net := ((pllsOn (boot1 true false)).start 8).net, can := ((pllsOn (boot1 true false)).start 8).can, clk := ((pllsOn (boot1 true false)).start 8).clk, rel := ((pllsOn (boot1 true false)).start 8).rel, cfg := ((pllsOn (boot1 true false)).start 8).cfg, tap := ((pllsOn (boot1 true false)).start 8).tap : State }.sea,           mesh :=             { pending := ((pllsOn (boot1 true false)).start 8).pending, now := ((pllsOn (boot1 true false)).start 8).now, out := ((pllsOn (boot1 true false)).start 8).out, free := ((pllsOn (boot1 true false)).start 8).free, fresh := ((pllsOn (boot1 true false)).start 8).fresh, regs := ((pllsOn (boot1 true false)).start 8).regs, sys := ((pllsOn (boot1 true false)).start 8).sys,                 husk :=                   have __src := ((pllsOn (boot1 true false)).start 8).husk;                   { sess := __src.sess, skvRootHash := __src.skvRootHash, duk := __src.duk, oemRootHash := __src.oemRootHash, oemKek := __src.oemKek, safRootHash := __src.safRootHash, pw := __src.pw, cak := __src.cak, consentEnd := __src.consentEnd, eraseHeld := __src.eraseHeld, eraseOpen := __src.eraseOpen, pf0Base := true, firmware := __src.firmware, recordBad := __src.recordBad : HuskSt },                 pwr := ((pllsOn (boot1 true false)).start 8).pwr, sea := ((pllsOn (boot1 true false)).start 8).sea, mesh := ((pllsOn (boot1 true false)).start 8).mesh, meas := ((pllsOn (boot1 true false)).start 8).meas, pos := ((pllsOn (boot1 true false)).start 8).pos, pwm := ((pllsOn (boot1 true false)).start 8).pwm, trip := ((pllsOn (boot1 true false)).start 8).trip, loop := ((pllsOn (boot1 true false)).start 8).loop, safe := ((pllsOn (boot1 true false)).start 8).safe, hostq := ((pllsOn (boot1 true false)).start 8).hostq, net := ((pllsOn (boot1 true false)).start 8).net, can := ((pllsOn (boot1 true false)).start 8).can, clk := ((pllsOn (boot1 true false)).start 8).clk, rel := ((pllsOn (boot1 true false)).start 8).rel, cfg := ((pllsOn (boot1 true false)).start 8).cfg, tap := ((pllsOn (boot1 true false)).start 8).tap : State }.mesh,           meas :=             { pending := ((pllsOn (boot1 true false)).start 8).pending, now := ((pllsOn (boot1 true false)).start 8).now, out := ((pllsOn (boot1 true false)).start 8).out, free := ((pllsOn (boot1 true false)).start 8).free, fresh := ((pllsOn (boot1 true false)).start 8).fresh, regs := ((pllsOn (boot1 true false)).start 8).regs, sys := ((pllsOn (boot1 true false)).start 8).sys,                 husk :=                   have __src := ((pllsOn (boot1 true false)).start 8).husk;                   { sess := __src.sess, skvRootHash := __src.skvRootHash, duk := __src.duk, oemRootHash := __src.oemRootHash, oemKek := __src.oemKek, safRootHash := __src.safRootHash, pw := __src.pw, cak := __src.cak, consentEnd := __src.consentEnd, eraseHeld := __src.eraseHeld, eraseOpen := __src.eraseOpen, pf0Base := true, firmware := __src.firmware, recordBad := __src.recordBad : HuskSt },                 pwr := ((pllsOn (boot1 true false)).start 8).pwr, sea := ((pllsOn (boot1 true false)).start 8).sea, mesh := ((pllsOn (boot1 true false)).start 8).mesh, meas := ((pllsOn (boot1 true false)).start 8).meas, pos := ((pllsOn (boot1 true false)).start 8).pos, pwm := ((pllsOn (boot1 true false)).start 8).pwm, trip := ((pllsOn (boot1 true false)).start 8).trip, loop := ((pllsOn (boot1 true false)).start 8).loop, safe := ((pllsOn (boot1 true false)).start 8).safe, hostq := ((pllsOn (boot1 true false)).start 8).hostq, net := ((pllsOn (boot1 true false)).start 8).net, can := ((pllsOn (boot1 true false)).start 8).can, clk := ((pllsOn (boot1 true false)).start 8).clk, rel := ((pllsOn (boot1 true false)).start 8).rel, cfg := ((pllsOn (boot1 true false)).start 8).cfg, tap := ((pllsOn (boot1 true false)).start 8).tap : State }.meas,           pos :=             { pending := ((pllsOn (boot1 true false)).start 8).pending, now := ((pllsOn (boot1 true false)).start 8).now, out := ((pllsOn (boot1 true false)).start 8).out, free := ((pllsOn (boot1 true false)).start 8).free, fresh := ((pllsOn (boot1 true false)).start 8).fresh, regs := ((pllsOn (boot1 true false)).start 8).regs, sys := ((pllsOn (boot1 true false)).start 8).sys,                 husk :=                   have __src := ((pllsOn (boot1 true false)).start 8).husk;                   { sess := __src.sess, skvRootHash := __src.skvRootHash, duk := __src.duk, oemRootHash := __src.oemRootHash, oemKek := __src.oemKek, safRootHash := __src.safRootHash, pw := __src.pw, cak := __src.cak, consentEnd := __src.consentEnd, eraseHeld := __src.eraseHeld, eraseOpen := __src.eraseOpen, pf0Base := true, firmware := __src.firmware, recordBad := __src.recordBad : HuskSt },                 pwr := ((pllsOn (boot1 true false)).start 8).pwr, sea := ((pllsOn (boot1 true false)).start 8).sea, mesh := ((pllsOn (boot1 true false)).start 8).mesh, meas := ((pllsOn (boot1 true false)).start 8).meas, pos := ((pllsOn (boot1 true false)).start 8).pos, pwm := ((pllsOn (boot1 true false)).start 8).pwm, trip := ((pllsOn (boot1 true false)).start 8).trip, loop := ((pllsOn (boot1 true false)).start 8).loop, safe := ((pllsOn (boot1 true false)).start 8).safe, hostq := ((pllsOn (boot1 true false)).start 8).hostq, net := ((pllsOn (boot1 true false)).start 8).net, can := ((pllsOn (boot1 true false)).start 8).can, clk := ((pllsOn (boot1 true false)).start 8).clk, rel := ((pllsOn (boot1 true false)).start 8).rel, cfg := ((pllsOn (boot1 true false)).start 8).cfg, tap := ((pllsOn (boot1 true false)).start 8).tap : State }.pos,           pwm :=             { pending := ((pllsOn (boot1 true false)).start 8).pending, now := ((pllsOn (boot1 true false)).start 8).now, out := ((pllsOn (boot1 true false)).start 8).out, free := ((pllsOn (boot1 true false)).start 8).free, fresh := ((pllsOn (boot1 true false)).start 8).fresh, regs := ((pllsOn (boot1 true false)).start 8).regs, sys := ((pllsOn (boot1 true false)).start 8).sys,                 husk :=                   have __src := ((pllsOn (boot1 true false)).start 8).husk;                   { sess := __src.sess, skvRootHash := __src.skvRootHash, duk := __src.duk, oemRootHash := __src.oemRootHash, oemKek := __src.oemKek, safRootHash := __src.safRootHash, pw := __src.pw, cak := __src.cak, consentEnd := __src.consentEnd, eraseHeld := __src.eraseHeld, eraseOpen := __src.eraseOpen, pf0Base := true, firmware := __src.firmware, recordBad := __src.recordBad : HuskSt },                 pwr := ((pllsOn (boot1 true false)).start 8).pwr, sea := ((pllsOn (boot1 true false)).start 8).sea, mesh := ((pllsOn (boot1 true false)).start 8).mesh, meas := ((pllsOn (boot1 true false)).start 8).meas, pos := ((pllsOn (boot1 true false)).start 8).pos, pwm := ((pllsOn (boot1 true false)).start 8).pwm, trip := ((pllsOn (boot1 true false)).start 8).trip, loop := ((pllsOn (boot1 true false)).start 8).loop, safe := ((pllsOn (boot1 true false)).start 8).safe, hostq := ((pllsOn (boot1 true false)).start 8).hostq, net := ((pllsOn (boot1 true false)).start 8).net, can := ((pllsOn (boot1 true false)).start 8).can, clk := ((pllsOn (boot1 true false)).start 8).clk, rel := ((pllsOn (boot1 true false)).start 8).rel, cfg := ((pllsOn (boot1 true false)).start 8).cfg, tap := ((pllsOn (boot1 true false)).start 8).tap : State }.pwm,           trip :=             { pending := ((pllsOn (boot1 true false)).start 8).pending, now := ((pllsOn (boot1 true false)).start 8).now, out := ((pllsOn (boot1 true false)).start 8).out, free := ((pllsOn (boot1 true false)).start 8).free, fresh := ((pllsOn (boot1 true false)).start 8).fresh, regs := ((pllsOn (boot1 true false)).start 8).regs, sys := ((pllsOn (boot1 true false)).start 8).sys,                 husk :=                   have __src := ((pllsOn (boot1 true false)).start 8).husk;                   { sess := __src.sess, skvRootHash := __src.skvRootHash, duk := __src.duk, oemRootHash := __src.oemRootHash, oemKek := __src.oemKek, safRootHash := __src.safRootHash, pw := __src.pw, cak := __src.cak, consentEnd := __src.consentEnd, eraseHeld := __src.eraseHeld, eraseOpen := __src.eraseOpen, pf0Base := true, firmware := __src.firmware, recordBad := __src.recordBad : HuskSt },                 pwr := ((pllsOn (boot1 true false)).start 8).pwr, sea := ((pllsOn (boot1 true false)).start 8).sea, mesh := ((pllsOn (boot1 true false)).start 8).mesh, meas := ((pllsOn (boot1 true false)).start 8).meas, pos := ((pllsOn (boot1 true false)).start 8).pos, pwm := ((pllsOn (boot1 true false)).start 8).pwm, trip := ((pllsOn (boot1 true false)).start 8).trip, loop := ((pllsOn (boot1 true false)).start 8).loop, safe := ((pllsOn (boot1 true false)).start 8).safe, hostq := ((pllsOn (boot1 true false)).start 8).hostq, net := ((pllsOn (boot1 true false)).start 8).net, can := ((pllsOn (boot1 true false)).start 8).can, clk := ((pllsOn (boot1 true false)).start 8).clk, rel := ((pllsOn (boot1 true false)).start 8).rel, cfg := ((pllsOn (boot1 true false)).start 8).cfg, tap := ((pllsOn (boot1 true false)).start 8).tap : State }.trip,           loop :=             { pending := ((pllsOn (boot1 true false)).start 8).pending, now := ((pllsOn (boot1 true false)).start 8).now, out := ((pllsOn (boot1 true false)).start 8).out, free := ((pllsOn (boot1 true false)).start 8).free, fresh := ((pllsOn (boot1 true false)).start 8).fresh, regs := ((pllsOn (boot1 true false)).start 8).regs, sys := ((pllsOn (boot1 true false)).start 8).sys,                 husk :=                   have __src := ((pllsOn (boot1 true false)).start 8).husk;                   { sess := __src.sess, skvRootHash := __src.skvRootHash, duk := __src.duk, oemRootHash := __src.oemRootHash, oemKek := __src.oemKek, safRootHash := __src.safRootHash, pw := __src.pw, cak := __src.cak, consentEnd := __src.consentEnd, eraseHeld := __src.eraseHeld, eraseOpen := __src.eraseOpen, pf0Base := true, firmware := __src.firmware, recordBad := __src.recordBad : HuskSt },                 pwr := ((pllsOn (boot1 true false)).start 8).pwr, sea := ((pllsOn (boot1 true false)).start 8).sea, mesh := ((pllsOn (boot1 true false)).start 8).mesh, meas := ((pllsOn (boot1 true false)).start 8).meas, pos := ((pllsOn (boot1 true false)).start 8).pos, pwm := ((pllsOn (boot1 true false)).start 8).pwm, trip := ((pllsOn (boot1 true false)).start 8).trip, loop := ((pllsOn (boot1 true false)).start 8).loop, safe := ((pllsOn (boot1 true false)).start 8).safe, hostq := ((pllsOn (boot1 true false)).start 8).hostq, net := ((pllsOn (boot1 true false)).start 8).net, can := ((pllsOn (boot1 true false)).start 8).can, clk := ((pllsOn (boot1 true false)).start 8).clk, rel := ((pllsOn (boot1 true false)).start 8).rel, cfg := ((pllsOn (boot1 true false)).start 8).cfg, tap := ((pllsOn (boot1 true false)).start 8).tap : State }.loop,           safe :=             { pending := ((pllsOn (boot1 true false)).start 8).pending, now := ((pllsOn (boot1 true false)).start 8).now, out := ((pllsOn (boot1 true false)).start 8).out, free := ((pllsOn (boot1 true false)).start 8).free, fresh := ((pllsOn (boot1 true false)).start 8).fresh, regs := ((pllsOn (boot1 true false)).start 8).regs, sys := ((pllsOn (boot1 true false)).start 8).sys,                 husk :=                   have __src := ((pllsOn (boot1 true false)).start 8).husk;                   { sess := __src.sess, skvRootHash := __src.skvRootHash, duk := __src.duk, oemRootHash := __src.oemRootHash, oemKek := __src.oemKek, safRootHash := __src.safRootHash, pw := __src.pw, cak := __src.cak, consentEnd := __src.consentEnd, eraseHeld := __src.eraseHeld, eraseOpen := __src.eraseOpen, pf0Base := true, firmware := __src.firmware, recordBad := __src.recordBad : HuskSt },                 pwr := ((pllsOn (boot1 true false)).start 8).pwr, sea := ((pllsOn (boot1 true false)).start 8).sea, mesh := ((pllsOn (boot1 true false)).start 8).mesh, meas := ((pllsOn (boot1 true false)).start 8).meas, pos := ((pllsOn (boot1 true false)).start 8).pos, pwm := ((pllsOn (boot1 true false)).start 8).pwm, trip := ((pllsOn (boot1 true false)).start 8).trip, loop := ((pllsOn (boot1 true false)).start 8).loop, safe := ((pllsOn (boot1 true false)).start 8).safe, hostq := ((pllsOn (boot1 true false)).start 8).hostq, net := ((pllsOn (boot1 true false)).start 8).net, can := ((pllsOn (boot1 true false)).start 8).can, clk := ((pllsOn (boot1 true false)).start 8).clk, rel := ((pllsOn (boot1 true false)).start 8).rel, cfg := ((pllsOn (boot1 true false)).start 8).cfg, tap := ((pllsOn (boot1 true false)).start 8).tap : State }.safe,           hostq :=             { pending := ((pllsOn (boot1 true false)).start 8).pending, now := ((pllsOn (boot1 true false)).start 8).now, out := ((pllsOn (boot1 true false)).start 8).out, free := ((pllsOn (boot1 true false)).start 8).free, fresh := ((pllsOn (boot1 true false)).start 8).fresh, regs := ((pllsOn (boot1 true false)).start 8).regs, sys := ((pllsOn (boot1 true false)).start 8).sys,                 husk :=                   have __src := ((pllsOn (boot1 true false)).start 8).husk;                   { sess := __src.sess, skvRootHash := __src.skvRootHash, duk := __src.duk, oemRootHash := __src.oemRootHash, oemKek := __src.oemKek, safRootHash := __src.safRootHash, pw := __src.pw, cak := __src.cak, consentEnd := __src.consentEnd, eraseHeld := __src.eraseHeld, eraseOpen := __src.eraseOpen, pf0Base := true, firmware := __src.firmware, recordBad := __src.recordBad : HuskSt },                 pwr := ((pllsOn (boot1 true false)).start 8).pwr, sea := ((pllsOn (boot1 true false)).start 8).sea, mesh := ((pllsOn (boot1 true false)).start 8).mesh, meas := ((pllsOn (boot1 true false)).start 8).meas, pos := ((pllsOn (boot1 true false)).start 8).pos, pwm := ((pllsOn (boot1 true false)).start 8).pwm, trip := ((pllsOn (boot1 true false)).start 8).trip, loop := ((pllsOn (boot1 true false)).start 8).loop, safe := ((pllsOn (boot1 true false)).start 8).safe, hostq := ((pllsOn (boot1 true false)).start 8).hostq, net := ((pllsOn (boot1 true false)).start 8).net, can := ((pllsOn (boot1 true false)).start 8).can, clk := ((pllsOn (boot1 true false)).start 8).clk, rel := ((pllsOn (boot1 true false)).start 8).rel, cfg := ((pllsOn (boot1 true false)).start 8).cfg, tap := ((pllsOn (boot1 true false)).start 8).tap : State }.hostq,           net :=             { pending := ((pllsOn (boot1 true false)).start 8).pending, now := ((pllsOn (boot1 true false)).start 8).now, out := ((pllsOn (boot1 true false)).start 8).out, free := ((pllsOn (boot1 true false)).start 8).free, fresh := ((pllsOn (boot1 true false)).start 8).fresh, regs := ((pllsOn (boot1 true false)).start 8).regs, sys := ((pllsOn (boot1 true false)).start 8).sys,                 husk :=                   have __src := ((pllsOn (boot1 true false)).start 8).husk;                   { sess := __src.sess, skvRootHash := __src.skvRootHash, duk := __src.duk, oemRootHash := __src.oemRootHash, oemKek := __src.oemKek, safRootHash := __src.safRootHash, pw := __src.pw, cak := __src.cak, consentEnd := __src.consentEnd, eraseHeld := __src.eraseHeld, eraseOpen := __src.eraseOpen, pf0Base := true, firmware := __src.firmware, recordBad := __src.recordBad : HuskSt },                 pwr := ((pllsOn (boot1 true false)).start 8).pwr, sea := ((pllsOn (boot1 true false)).start 8).sea, mesh := ((pllsOn (boot1 true false)).start 8).mesh, meas := ((pllsOn (boot1 true false)).start 8).meas, pos := ((pllsOn (boot1 true false)).start 8).pos, pwm := ((pllsOn (boot1 true false)).start 8).pwm, trip := ((pllsOn (boot1 true false)).start 8).trip, loop := ((pllsOn (boot1 true false)).start 8).loop, safe := ((pllsOn (boot1 true false)).start 8).safe, hostq := ((pllsOn (boot1 true false)).start 8).hostq, net := ((pllsOn (boot1 true false)).start 8).net, can := ((pllsOn (boot1 true false)).start 8).can, clk := ((pllsOn (boot1 true false)).start 8).clk, rel := ((pllsOn (boot1 true false)).start 8).rel, cfg := ((pllsOn (boot1 true false)).start 8).cfg, tap := ((pllsOn (boot1 true false)).start 8).tap : State }.net,           can :=             { pending := ((pllsOn (boot1 true false)).start 8).pending, now := ((pllsOn (boot1 true false)).start 8).now, out := ((pllsOn (boot1 true false)).start 8).out, free := ((pllsOn (boot1 true false)).start 8).free, fresh := ((pllsOn (boot1 true false)).start 8).fresh, regs := ((pllsOn (boot1 true false)).start 8).regs, sys := ((pllsOn (boot1 true false)).start 8).sys,                 husk :=                   have __src := ((pllsOn (boot1 true false)).start 8).husk;                   { sess := __src.sess, skvRootHash := __src.skvRootHash, duk := __src.duk, oemRootHash := __src.oemRootHash, oemKek := __src.oemKek, safRootHash := __src.safRootHash, pw := __src.pw, cak := __src.cak, consentEnd := __src.consentEnd, eraseHeld := __src.eraseHeld, eraseOpen := __src.eraseOpen, pf0Base := true, firmware := __src.firmware, recordBad := __src.recordBad : HuskSt },                 pwr := ((pllsOn (boot1 true false)).start 8).pwr, sea := ((pllsOn (boot1 true false)).start 8).sea, mesh := ((pllsOn (boot1 true false)).start 8).mesh, meas := ((pllsOn (boot1 true false)).start 8).meas, pos := ((pllsOn (boot1 true false)).start 8).pos, pwm := ((pllsOn (boot1 true false)).start 8).pwm, trip := ((pllsOn (boot1 true false)).start 8).trip, loop := ((pllsOn (boot1 true false)).start 8).loop, safe := ((pllsOn (boot1 true false)).start 8).safe, hostq := ((pllsOn (boot1 true false)).start 8).hostq, net := ((pllsOn (boot1 true false)).start 8).net, can := ((pllsOn (boot1 true false)).start 8).can, clk := ((pllsOn (boot1 true false)).start 8).clk, rel := ((pllsOn (boot1 true false)).start 8).rel, cfg := ((pllsOn (boot1 true false)).start 8).cfg, tap := ((pllsOn (boot1 true false)).start 8).tap : State }.can,           clk :=             { pending := ((pllsOn (boot1 true false)).start 8).pending, now := ((pllsOn (boot1 true false)).start 8).now, out := ((pllsOn (boot1 true false)).start 8).out, free := ((pllsOn (boot1 true false)).start 8).free, fresh := ((pllsOn (boot1 true false)).start 8).fresh, regs := ((pllsOn (boot1 true false)).start 8).regs, sys := ((pllsOn (boot1 true false)).start 8).sys,                 husk :=                   have __src := ((pllsOn (boot1 true false)).start 8).husk;                   { sess := __src.sess, skvRootHash := __src.skvRootHash, duk := __src.duk, oemRootHash := __src.oemRootHash, oemKek := __src.oemKek, safRootHash := __src.safRootHash, pw := __src.pw, cak := __src.cak, consentEnd := __src.consentEnd, eraseHeld := __src.eraseHeld, eraseOpen := __src.eraseOpen, pf0Base := true, firmware := __src.firmware, recordBad := __src.recordBad : HuskSt },                 pwr := ((pllsOn (boot1 true false)).start 8).pwr, sea := ((pllsOn (boot1 true false)).start 8).sea, mesh := ((pllsOn (boot1 true false)).start 8).mesh, meas := ((pllsOn (boot1 true false)).start 8).meas, pos := ((pllsOn (boot1 true false)).start 8).pos, pwm := ((pllsOn (boot1 true false)).start 8).pwm, trip := ((pllsOn (boot1 true false)).start 8).trip, loop := ((pllsOn (boot1 true false)).start 8).loop, safe := ((pllsOn (boot1 true false)).start 8).safe, hostq := ((pllsOn (boot1 true false)).start 8).hostq, net := ((pllsOn (boot1 true false)).start 8).net, can := ((pllsOn (boot1 true false)).start 8).can, clk := ((pllsOn (boot1 true false)).start 8).clk, rel := ((pllsOn (boot1 true false)).start 8).rel, cfg := ((pllsOn (boot1 true false)).start 8).cfg, tap := ((pllsOn (boot1 true false)).start 8).tap : State }.clk,           rel :=             { pending := ((pllsOn (boot1 true false)).start 8).pending, now := ((pllsOn (boot1 true false)).start 8).now, out := ((pllsOn (boot1 true false)).start 8).out, free := ((pllsOn (boot1 true false)).start 8).free, fresh := ((pllsOn (boot1 true false)).start 8).fresh, regs := ((pllsOn (boot1 true false)).start 8).regs, sys := ((pllsOn (boot1 true false)).start 8).sys,                 husk :=                   have __src := ((pllsOn (boot1 true false)).start 8).husk;                   { sess := __src.sess, skvRootHash := __src.skvRootHash, duk := __src.duk, oemRootHash := __src.oemRootHash, oemKek := __src.oemKek, safRootHash := __src.safRootHash, pw := __src.pw, cak := __src.cak, consentEnd := __src.consentEnd, eraseHeld := __src.eraseHeld, eraseOpen := __src.eraseOpen, pf0Base := true, firmware := __src.firmware, recordBad := __src.recordBad : HuskSt },                 pwr := ((pllsOn (boot1 true false)).start 8).pwr, sea := ((pllsOn (boot1 true false)).start 8).sea, mesh := ((pllsOn (boot1 true false)).start 8).mesh, meas := ((pllsOn (boot1 true false)).start 8).meas, pos := ((pllsOn (boot1 true false)).start 8).pos, pwm := ((pllsOn (boot1 true false)).start 8).pwm, trip := ((pllsOn (boot1 true false)).start 8).trip, loop := ((pllsOn (boot1 true false)).start 8).loop, safe := ((pllsOn (boot1 true false)).start 8).safe, hostq := ((pllsOn (boot1 true false)).start 8).hostq, net := ((pllsOn (boot1 true false)).start 8).net, can := ((pllsOn (boot1 true false)).start 8).can, clk := ((pllsOn (boot1 true false)).start 8).clk, rel := ((pllsOn (boot1 true false)).start 8).rel, cfg := ((pllsOn (boot1 true false)).start 8).cfg, tap := ((pllsOn (boot1 true false)).start 8).tap : State }.rel,           cfg :=             have __src :=               { pending := ((pllsOn (boot1 true false)).start 8).pending, now := ((pllsOn (boot1 true false)).start 8).now, out := ((pllsOn (boot1 true false)).start 8).out, free := ((pllsOn (boot1 true false)).start 8).free, fresh := ((pllsOn (boot1 true false)).start 8).fresh, regs := ((pllsOn (boot1 true false)).start 8).regs, sys := ((pllsOn (boot1 true false)).start 8).sys,                   husk :=                     have __src := ((pllsOn (boot1 true false)).start 8).husk;                     { sess := __src.sess, skvRootHash := __src.skvRootHash, duk := __src.duk, oemRootHash := __src.oemRootHash, oemKek := __src.oemKek, safRootHash := __src.safRootHash, pw := __src.pw, cak := __src.cak, consentEnd := __src.consentEnd, eraseHeld := __src.eraseHeld, eraseOpen := __src.eraseOpen, pf0Base := true, firmware := __src.firmware, recordBad := __src.recordBad : HuskSt },                   pwr := ((pllsOn (boot1 true false)).start 8).pwr, sea := ((pllsOn (boot1 true false)).start 8).sea, mesh := ((pllsOn (boot1 true false)).start 8).mesh, meas := ((pllsOn (boot1 true false)).start 8).meas, pos := ((pllsOn (boot1 true false)).start 8).pos, pwm := ((pllsOn (boot1 true false)).start 8).pwm, trip := ((pllsOn (boot1 true false)).start 8).trip, loop := ((pllsOn (boot1 true false)).start 8).loop, safe := ((pllsOn (boot1 true false)).start 8).safe, hostq := ((pllsOn (boot1 true false)).start 8).hostq, net := ((pllsOn (boot1 true false)).start 8).net, can := ((pllsOn (boot1 true false)).start 8).can, clk := ((pllsOn (boot1 true false)).start 8).clk, rel := ((pllsOn (boot1 true false)).start 8).rel, cfg := ((pllsOn (boot1 true false)).start 8).cfg, tap := ((pllsOn (boot1 true false)).start 8).tap : State }.cfg;             { slots := __src.slots, order := __src.order, first := __src.first, released := __src.released,               loaded :=                 { pending := ((pllsOn (boot1 true false)).start 8).pending, now := ((pllsOn (boot1 true false)).start 8).now, out := ((pllsOn (boot1 true false)).start 8).out, free := ((pllsOn (boot1 true false)).start 8).free, fresh := ((pllsOn (boot1 true false)).start 8).fresh, regs := ((pllsOn (boot1 true false)).start 8).regs, sys := ((pllsOn (boot1 true false)).start 8).sys,                         husk :=                           have __src := ((pllsOn (boot1 true false)).start 8).husk;                           { sess := __src.sess, skvRootHash := __src.skvRootHash, duk := __src.duk, oemRootHash := __src.oemRootHash, oemKek := __src.oemKek, safRootHash := __src.safRootHash, pw := __src.pw, cak := __src.cak, consentEnd := __src.consentEnd, eraseHeld := __src.eraseHeld, eraseOpen := __src.eraseOpen, pf0Base := true, firmware := __src.firmware, recordBad := __src.recordBad : HuskSt },                         pwr := ((pllsOn (boot1 true false)).start 8).pwr, sea := ((pllsOn (boot1 true false)).start 8).sea, mesh := ((pllsOn (boot1 true false)).start 8).mesh, meas := ((pllsOn (boot1 true false)).start 8).meas, pos := ((pllsOn (boot1 true false)).start 8).pos, pwm := ((pllsOn (boot1 true false)).start 8).pwm, trip := ((pllsOn (boot1 true false)).start 8).trip, loop := ((pllsOn (boot1 true false)).start 8).loop, safe := ((pllsOn (boot1 true false)).start 8).safe, hostq := ((pllsOn (boot1 true false)).start 8).hostq, net := ((pllsOn (boot1 true false)).start 8).net, can := ((pllsOn (boot1 true false)).start 8).can, clk := ((pllsOn (boot1 true false)).start 8).clk, rel := ((pllsOn (boot1 true false)).start 8).rel, cfg := ((pllsOn (boot1 true false)).start 8).cfg, tap := ((pllsOn (boot1 true false)).start 8).tap : State }.cfg.loaded ++                   [sectionId (Section.huskPolicy true [])],               placed := __src.placed, noSafety := __src.noSafety, sent := __src.sent, written := __src.written, job := __src.job, verified := __src.verified : CfgSt },           tap :=             { pending := ((pllsOn (boot1 true false)).start 8).pending, now := ((pllsOn (boot1 true false)).start 8).now, out := ((pllsOn (boot1 true false)).start 8).out, free := ((pllsOn (boot1 true false)).start 8).free, fresh := ((pllsOn (boot1 true false)).start 8).fresh, regs := ((pllsOn (boot1 true false)).start 8).regs, sys := ((pllsOn (boot1 true false)).start 8).sys,                 husk :=                   have __src := ((pllsOn (boot1 true false)).start 8).husk;                   { sess := __src.sess, skvRootHash := __src.skvRootHash, duk := __src.duk, oemRootHash := __src.oemRootHash, oemKek := __src.oemKek, safRootHash := __src.safRootHash, pw := __src.pw, cak := __src.cak, consentEnd := __src.consentEnd, eraseHeld := __src.eraseHeld, eraseOpen := __src.eraseOpen, pf0Base := true, firmware := __src.firmware, recordBad := __src.recordBad : HuskSt },                 pwr := ((pllsOn (boot1 true false)).start 8).pwr, sea := ((pllsOn (boot1 true false)).start 8).sea, mesh := ((pllsOn (boot1 true false)).start 8).mesh, meas := ((pllsOn (boot1 true false)).start 8).meas, pos := ((pllsOn (boot1 true false)).start 8).pos, pwm := ((pllsOn (boot1 true false)).start 8).pwm, trip := ((pllsOn (boot1 true false)).start 8).trip, loop := ((pllsOn (boot1 true false)).start 8).loop, safe := ((pllsOn (boot1 true false)).start 8).safe, hostq := ((pllsOn (boot1 true false)).start 8).hostq, net := ((pllsOn (boot1 true false)).start 8).net, can := ((pllsOn (boot1 true false)).start 8).can, clk := ((pllsOn (boot1 true false)).start 8).clk, rel := ((pllsOn (boot1 true false)).start 8).rel, cfg := ((pllsOn (boot1 true false)).start 8).cfg, tap := ((pllsOn (boot1 true false)).start 8).tap : State }.tap :           State }.cfglSection       (Section.huskPolicy true [])).imageBad =   none)
    := by decide +kernel
def badImg : State := { ((boot1 true false).setB R.NET_CTL_EN true).setB R.TRIP_TGT_CFG_EN true 0 with loop := { ctx := [] } }
theorem wit_BootChainReachesReady_9 : ((badImg.start 8).alive = true) ∧ ((badImg.start 8).cfg.released = true) ∧ ((badImg.start 8).cfg.placed = false)
    ∧ ((badImg.start 8).b R.REL_STAT_BOOT_BIST_DONE = true) ∧ ((badImg.start 8).b R.CFG_STAT_SEALED = false)
    ∧ (layoutBad ((badImg.start 8).slotImg ((badImg.start 8).cfg.order.head?.getD 0)) = none)
    ∧ (List.drop (badImg.start 8).cfg.loaded.length ((badImg.start 8).slotImg ((badImg.start 8).cfg.order.head?.getD 0)).secs = [Section.huskPolicy true []])
    ∧ (∀ (l : Nat), l ∈ (badImg.start 8).cfg.loaded → l < sectionId (Section.huskPolicy true []))
    ∧ (({           pending :=             { pending := (badImg.start 8).pending, now := (badImg.start 8).now, out := (badImg.start 8).out, free := (badImg.start 8).free, fresh := (badImg.start 8).fresh, regs := (badImg.start 8).regs, sys := (badImg.start 8).sys,                 husk :=                   have __src := (badImg.start 8).husk;                   { sess := __src.sess, skvRootHash := __src.skvRootHash, duk := __src.duk, oemRootHash := __src.oemRootHash, oemKek := __src.oemKek, safRootHash := __src.safRootHash, pw := __src.pw, cak := __src.cak, consentEnd := __src.consentEnd, eraseHeld := __src.eraseHeld, eraseOpen := __src.eraseOpen, pf0Base := true, firmware := __src.firmware, recordBad := __src.recordBad : HuskSt },                 pwr := (badImg.start 8).pwr, sea := (badImg.start 8).sea, mesh := (badImg.start 8).mesh, meas := (badImg.start 8).meas, pos := (badImg.start 8).pos, pwm := (badImg.start 8).pwm, trip := (badImg.start 8).trip, loop := (badImg.start 8).loop, safe := (badImg.start 8).safe, hostq := (badImg.start 8).hostq, net := (badImg.start 8).net, can := (badImg.start 8).can, clk := (badImg.start 8).clk, rel := (badImg.start 8).rel, cfg := (badImg.start 8).cfg, tap := (badImg.start 8).tap : State }.pending,           now :=             { pending := (badImg.start 8).pending, now := (badImg.start 8).now, out := (badImg.start 8).out, free := (badImg.start 8).free, fresh := (badImg.start 8).fresh, regs := (badImg.start 8).regs, sys := (badImg.start 8).sys,                 husk :=                   have __src := (badImg.start 8).husk;                   { sess := __src.sess, skvRootHash := __src.skvRootHash, duk := __src.duk, oemRootHash := __src.oemRootHash, oemKek := __src.oemKek, safRootHash := __src.safRootHash, pw := __src.pw, cak := __src.cak, consentEnd := __src.consentEnd, eraseHeld := __src.eraseHeld, eraseOpen := __src.eraseOpen, pf0Base := true, firmware := __src.firmware, recordBad := __src.recordBad : HuskSt },                 pwr := (badImg.start 8).pwr, sea := (badImg.start 8).sea, mesh := (badImg.start 8).mesh, meas := (badImg.start 8).meas, pos := (badImg.start 8).pos, pwm := (badImg.start 8).pwm, trip := (badImg.start 8).trip, loop := (badImg.start 8).loop, safe := (badImg.start 8).safe, hostq := (badImg.start 8).hostq, net := (badImg.start 8).net, can := (badImg.start 8).can, clk := (badImg.start 8).clk, rel := (badImg.start 8).rel, cfg := (badImg.start 8).cfg, tap := (badImg.start 8).tap : State }.now,           out :=             { pending := (badImg.start 8).pending, now := (badImg.start 8).now, out := (badImg.start 8).out, free := (badImg.start 8).free, fresh := (badImg.start 8).fresh, regs := (badImg.start 8).regs, sys := (badImg.start 8).sys,                 husk :=                   have __src := (badImg.start 8).husk;                   { sess := __src.sess, skvRootHash := __src.skvRootHash, duk := __src.duk, oemRootHash := __src.oemRootHash, oemKek := __src.oemKek, safRootHash := __src.safRootHash, pw := __src.pw, cak := __src.cak, consentEnd := __src.consentEnd, eraseHeld := __src.eraseHeld, eraseOpen := __src.eraseOpen, pf0Base := true, firmware := __src.firmware, recordBad := __src.recordBad : HuskSt },                 pwr := (badImg.start 8).pwr, sea := (badImg.start 8).sea, mesh := (badImg.start 8).mesh, meas := (badImg.start 8).meas, pos := (badImg.start 8).pos, pwm := (badImg.start 8).pwm, trip := (badImg.start 8).trip, loop := (badImg.start 8).loop, safe := (badImg.start 8).safe, hostq := (badImg.start 8).hostq, net := (badImg.start 8).net, can := (badImg.start 8).can, clk := (badImg.start 8).clk, rel := (badImg.start 8).rel, cfg := (badImg.start 8).cfg, tap := (badImg.start 8).tap : State }.out,           free :=             { pending := (badImg.start 8).pending, now := (badImg.start 8).now, out := (badImg.start 8).out, free := (badImg.start 8).free, fresh := (badImg.start 8).fresh, regs := (badImg.start 8).regs, sys := (badImg.start 8).sys,                 husk :=                   have __src := (badImg.start 8).husk;                   { sess := __src.sess, skvRootHash := __src.skvRootHash, duk := __src.duk, oemRootHash := __src.oemRootHash, oemKek := __src.oemKek, safRootHash := __src.safRootHash, pw := __src.pw, cak := __src.cak, consentEnd := __src.consentEnd, eraseHeld := __src.eraseHeld, eraseOpen := __src.eraseOpen, pf0Base := true, firmware := __src.firmware, recordBad := __src.recordBad : HuskSt },                 pwr := (badImg.start 8).pwr, sea := (badImg.start 8).sea, mesh := (badImg.start 8).mesh, meas := (badImg.start 8).meas, pos := (badImg.start 8).pos, pwm := (badImg.start 8).pwm, trip := (badImg.start 8).trip, loop := (badImg.start 8).loop, safe := (badImg.start 8).safe, hostq := (badImg.start 8).hostq, net := (badImg.start 8).net, can := (badImg.start 8).can, clk := (badImg.start 8).clk, rel := (badImg.start 8).rel, cfg := (badImg.start 8).cfg, tap := (badImg.start 8).tap : State }.free,           fresh :=             { pending := (badImg.start 8).pending, now := (badImg.start 8).now, out := (badImg.start 8).out, free := (badImg.start 8).free, fresh := (badImg.start 8).fresh, regs := (badImg.start 8).regs, sys := (badImg.start 8).sys,                 husk :=                   have __src := (badImg.start 8).husk;                   { sess := __src.sess, skvRootHash := __src.skvRootHash, duk := __src.duk, oemRootHash := __src.oemRootHash, oemKek := __src.oemKek, safRootHash := __src.safRootHash, pw := __src.pw, cak := __src.cak, consentEnd := __src.consentEnd, eraseHeld := __src.eraseHeld, eraseOpen := __src.eraseOpen, pf0Base := true, firmware := __src.firmware, recordBad := __src.recordBad : HuskSt },                 pwr := (badImg.start 8).pwr, sea := (badImg.start 8).sea, mesh := (badImg.start 8).mesh, meas := (badImg.start 8).meas, pos := (badImg.start 8).pos, pwm := (badImg.start 8).pwm, trip := (badImg.start 8).trip, loop := (badImg.start 8).loop, safe := (badImg.start 8).safe, hostq := (badImg.start 8).hostq, net := (badImg.start 8).net, can := (badImg.start 8).can, clk := (badImg.start 8).clk, rel := (badImg.start 8).rel, cfg := (badImg.start 8).cfg, tap := (badImg.start 8).tap : State }.fresh,           regs :=             { pending := (badImg.start 8).pending, now := (badImg.start 8).now, out := (badImg.start 8).out, free := (badImg.start 8).free, fresh := (badImg.start 8).fresh, regs := (badImg.start 8).regs, sys := (badImg.start 8).sys,                 husk :=                   have __src := (badImg.start 8).husk;                   { sess := __src.sess, skvRootHash := __src.skvRootHash, duk := __src.duk, oemRootHash := __src.oemRootHash, oemKek := __src.oemKek, safRootHash := __src.safRootHash, pw := __src.pw, cak := __src.cak, consentEnd := __src.consentEnd, eraseHeld := __src.eraseHeld, eraseOpen := __src.eraseOpen, pf0Base := true, firmware := __src.firmware, recordBad := __src.recordBad : HuskSt },                 pwr := (badImg.start 8).pwr, sea := (badImg.start 8).sea, mesh := (badImg.start 8).mesh, meas := (badImg.start 8).meas, pos := (badImg.start 8).pos, pwm := (badImg.start 8).pwm, trip := (badImg.start 8).trip, loop := (badImg.start 8).loop, safe := (badImg.start 8).safe, hostq := (badImg.start 8).hostq, net := (badImg.start 8).net, can := (badImg.start 8).can, clk := (badImg.start 8).clk, rel := (badImg.start 8).rel, cfg := (badImg.start 8).cfg, tap := (badImg.start 8).tap : State }.regs,           sys :=             { pending := (badImg.start 8).pending, now := (badImg.start 8).now, out := (badImg.start 8).out, free := (badImg.start 8).free, fresh := (badImg.start 8).fresh, regs := (badImg.start 8).regs, sys := (badImg.start 8).sys,                 husk :=                   have __src := (badImg.start 8).husk;                   { sess := __src.sess, skvRootHash := __src.skvRootHash, duk := __src.duk, oemRootHash := __src.oemRootHash, oemKek := __src.oemKek, safRootHash := __src.safRootHash, pw := __src.pw, cak := __src.cak, consentEnd := __src.consentEnd, eraseHeld := __src.eraseHeld, eraseOpen := __src.eraseOpen, pf0Base := true, firmware := __src.firmware, recordBad := __src.recordBad : HuskSt },                 pwr := (badImg.start 8).pwr, sea := (badImg.start 8).sea, mesh := (badImg.start 8).mesh, meas := (badImg.start 8).meas, pos := (badImg.start 8).pos, pwm := (badImg.start 8).pwm, trip := (badImg.start 8).trip, loop := (badImg.start 8).loop, safe := (badImg.start 8).safe, hostq := (badImg.start 8).hostq, net := (badImg.start 8).net, can := (badImg.start 8).can, clk := (badImg.start 8).clk, rel := (badImg.start 8).rel, cfg := (badImg.start 8).cfg, tap := (badImg.start 8).tap : State }.sys,           husk :=             { pending := (badImg.start 8).pending, now := (badImg.start 8).now, out := (badImg.start 8).out, free := (badImg.start 8).free, fresh := (badImg.start 8).fresh, regs := (badImg.start 8).regs, sys := (badImg.start 8).sys,                 husk :=                   have __src := (badImg.start 8).husk;                   { sess := __src.sess, skvRootHash := __src.skvRootHash, duk := __src.duk, oemRootHash := __src.oemRootHash, oemKek := __src.oemKek, safRootHash := __src.safRootHash, pw := __src.pw, cak := __src.cak, consentEnd := __src.consentEnd, eraseHeld := __src.eraseHeld, eraseOpen := __src.eraseOpen, pf0Base := true, firmware := __src.firmware, recordBad := __src.recordBad : HuskSt },                 pwr := (badImg.start 8).pwr, sea := (badImg.start 8).sea, mesh := (badImg.start 8).mesh, meas := (badImg.start 8).meas, pos := (badImg.start 8).pos, pwm := (badImg.start 8).pwm, trip := (badImg.start 8).trip, loop := (badImg.start 8).loop, safe := (badImg.start 8).safe, hostq := (badImg.start 8).hostq, net := (badImg.start 8).net, can := (badImg.start 8).can, clk := (badImg.start 8).clk, rel := (badImg.start 8).rel, cfg := (badImg.start 8).cfg, tap := (badImg.start 8).tap : State }.husk,           pwr :=             { pending := (badImg.start 8).pending, now := (badImg.start 8).now, out := (badImg.start 8).out, free := (badImg.start 8).free, fresh := (badImg.start 8).fresh, regs := (badImg.start 8).regs, sys := (badImg.start 8).sys,                 husk :=                   have __src := (badImg.start 8).husk;                   { sess := __src.sess, skvRootHash := __src.skvRootHash, duk := __src.duk, oemRootHash := __src.oemRootHash, oemKek := __src.oemKek, safRootHash := __src.safRootHash, pw := __src.pw, cak := __src.cak, consentEnd := __src.consentEnd, eraseHeld := __src.eraseHeld, eraseOpen := __src.eraseOpen, pf0Base := true, firmware := __src.firmware, recordBad := __src.recordBad : HuskSt },                 pwr := (badImg.start 8).pwr, sea := (badImg.start 8).sea, mesh := (badImg.start 8).mesh, meas := (badImg.start 8).meas, pos := (badImg.start 8).pos, pwm := (badImg.start 8).pwm, trip := (badImg.start 8).trip, loop := (badImg.start 8).loop, safe := (badImg.start 8).safe, hostq := (badImg.start 8).hostq, net := (badImg.start 8).net, can := (badImg.start 8).can, clk := (badImg.start 8).clk, rel := (badImg.start 8).rel, cfg := (badImg.start 8).cfg, tap := (badImg.start 8).tap : State }.pwr,           sea :=             { pending := (badImg.start 8).pending, now := (badImg.start 8).now, out := (badImg.start 8).out, free := (badImg.start 8).free, fresh := (badImg.start 8).fresh, regs := (badImg.start 8).regs, sys := (badImg.start 8).sys,                 husk :=                   have __src := (badImg.start 8).husk;                   { sess := __src.sess, skvRootHash := __src.skvRootHash, duk := __src.duk, oemRootHash := __src.oemRootHash, oemKek := __src.oemKek, safRootHash := __src.safRootHash, pw := __src.pw, cak := __src.cak, consentEnd := __src.consentEnd, eraseHeld := __src.eraseHeld, eraseOpen := __src.eraseOpen, pf0Base := true, firmware := __src.firmware, recordBad := __src.recordBad : HuskSt },                 pwr := (badImg.start 8).pwr, sea := (badImg.start 8).sea, mesh := (badImg.start 8).mesh, meas := (badImg.start 8).meas, pos := (badImg.start 8).pos, pwm := (badImg.start 8).pwm, trip := (badImg.start 8).trip, loop := (badImg.start 8).loop, safe := (badImg.start 8).safe, hostq := (badImg.start 8).hostq, net := (badImg.start 8).net, can := (badImg.start 8).can, clk := (badImg.start 8).clk, rel := (badImg.start 8).rel, cfg := (badImg.start 8).cfg, tap := (badImg.start 8).tap : State }.sea,           mesh :=             { pending := (badImg.start 8).pending, now := (badImg.start 8).now, out := (badImg.start 8).out, free := (badImg.start 8).free, fresh := (badImg.start 8).fresh, regs := (badImg.start 8).regs, sys := (badImg.start 8).sys,                 husk :=                   have __src := (badImg.start 8).husk;                   { sess := __src.sess, skvRootHash := __src.skvRootHash, duk := __src.duk, oemRootHash := __src.oemRootHash, oemKek := __src.oemKek, safRootHash := __src.safRootHash, pw := __src.pw, cak := __src.cak, consentEnd := __src.consentEnd, eraseHeld := __src.eraseHeld, eraseOpen := __src.eraseOpen, pf0Base := true, firmware := __src.firmware, recordBad := __src.recordBad : HuskSt },                 pwr := (badImg.start 8).pwr, sea := (badImg.start 8).sea, mesh := (badImg.start 8).mesh, meas := (badImg.start 8).meas, pos := (badImg.start 8).pos, pwm := (badImg.start 8).pwm, trip := (badImg.start 8).trip, loop := (badImg.start 8).loop, safe := (badImg.start 8).safe, hostq := (badImg.start 8).hostq, net := (badImg.start 8).net, can := (badImg.start 8).can, clk := (badImg.start 8).clk, rel := (badImg.start 8).rel, cfg := (badImg.start 8).cfg, tap := (badImg.start 8).tap : State }.mesh,           meas :=             { pending := (badImg.start 8).pending, now := (badImg.start 8).now, out := (badImg.start 8).out, free := (badImg.start 8).free, fresh := (badImg.start 8).fresh, regs := (badImg.start 8).regs, sys := (badImg.start 8).sys,                 husk :=                   have __src := (badImg.start 8).husk;                   { sess := __src.sess, skvRootHash := __src.skvRootHash, duk := __src.duk, oemRootHash := __src.oemRootHash, oemKek := __src.oemKek, safRootHash := __src.safRootHash, pw := __src.pw, cak := __src.cak, consentEnd := __src.consentEnd, eraseHeld := __src.eraseHeld, eraseOpen := __src.eraseOpen, pf0Base := true, firmware := __src.firmware, recordBad := __src.recordBad : HuskSt },                 pwr := (badImg.start 8).pwr, sea := (badImg.start 8).sea, mesh := (badImg.start 8).mesh, meas := (badImg.start 8).meas, pos := (badImg.start 8).pos, pwm := (badImg.start 8).pwm, trip := (badImg.start 8).trip, loop := (badImg.start 8).loop, safe := (badImg.start 8).safe, hostq := (badImg.start 8).hostq, net := (badImg.start 8).net, can := (badImg.start 8).can, clk := (badImg.start 8).clk, rel := (badImg.start 8).rel, cfg := (badImg.start 8).cfg, tap := (badImg.start 8).tap : State }.meas,           pos :=             { pending := (badImg.start 8).pending, now := (badImg.start 8).now, out := (badImg.start 8).out, free := (badImg.start 8).free, fresh := (badImg.start 8).fresh, regs := (badImg.start 8).regs, sys := (badImg.start 8).sys,                 husk :=                   have __src := (badImg.start 8).husk;                   { sess := __src.sess, skvRootHash := __src.skvRootHash, duk := __src.duk, oemRootHash := __src.oemRootHash, oemKek := __src.oemKek, safRootHash := __src.safRootHash, pw := __src.pw, cak := __src.cak, consentEnd := __src.consentEnd, eraseHeld := __src.eraseHeld, eraseOpen := __src.eraseOpen, pf0Base := true, firmware := __src.firmware, recordBad := __src.recordBad : HuskSt },                 pwr := (badImg.start 8).pwr, sea := (badImg.start 8).sea, mesh := (badImg.start 8).mesh, meas := (badImg.start 8).meas, pos := (badImg.start 8).pos, pwm := (badImg.start 8).pwm, trip := (badImg.start 8).trip, loop := (badImg.start 8).loop, safe := (badImg.start 8).safe, hostq := (badImg.start 8).hostq, net := (badImg.start 8).net, can := (badImg.start 8).can, clk := (badImg.start 8).clk, rel := (badImg.start 8).rel, cfg := (badImg.start 8).cfg, tap := (badImg.start 8).tap : State }.pos,           pwm :=             { pending := (badImg.start 8).pending, now := (badImg.start 8).now, out := (badImg.start 8).out, free := (badImg.start 8).free, fresh := (badImg.start 8).fresh, regs := (badImg.start 8).regs, sys := (badImg.start 8).sys,                 husk :=                   have __src := (badImg.start 8).husk;                   { sess := __src.sess, skvRootHash := __src.skvRootHash, duk := __src.duk, oemRootHash := __src.oemRootHash, oemKek := __src.oemKek, safRootHash := __src.safRootHash, pw := __src.pw, cak := __src.cak, consentEnd := __src.consentEnd, eraseHeld := __src.eraseHeld, eraseOpen := __src.eraseOpen, pf0Base := true, firmware := __src.firmware, recordBad := __src.recordBad : HuskSt },                 pwr := (badImg.start 8).pwr, sea := (badImg.start 8).sea, mesh := (badImg.start 8).mesh, meas := (badImg.start 8).meas, pos := (badImg.start 8).pos, pwm := (badImg.start 8).pwm, trip := (badImg.start 8).trip, loop := (badImg.start 8).loop, safe := (badImg.start 8).safe, hostq := (badImg.start 8).hostq, net := (badImg.start 8).net, can := (badImg.start 8).can, clk := (badImg.start 8).clk, rel := (badImg.start 8).rel, cfg := (badImg.start 8).cfg, tap := (badImg.start 8).tap : State }.pwm,           trip :=             { pending := (badImg.start 8).pending, now := (badImg.start 8).now, out := (badImg.start 8).out, free := (badImg.start 8).free, fresh := (badImg.start 8).fresh, regs := (badImg.start 8).regs, sys := (badImg.start 8).sys,                 husk :=                   have __src := (badImg.start 8).husk;                   { sess := __src.sess, skvRootHash := __src.skvRootHash, duk := __src.duk, oemRootHash := __src.oemRootHash, oemKek := __src.oemKek, safRootHash := __src.safRootHash, pw := __src.pw, cak := __src.cak, consentEnd := __src.consentEnd, eraseHeld := __src.eraseHeld, eraseOpen := __src.eraseOpen, pf0Base := true, firmware := __src.firmware, recordBad := __src.recordBad : HuskSt },                 pwr := (badImg.start 8).pwr, sea := (badImg.start 8).sea, mesh := (badImg.start 8).mesh, meas := (badImg.start 8).meas, pos := (badImg.start 8).pos, pwm := (badImg.start 8).pwm, trip := (badImg.start 8).trip, loop := (badImg.start 8).loop, safe := (badImg.start 8).safe, hostq := (badImg.start 8).hostq, net := (badImg.start 8).net, can := (badImg.start 8).can, clk := (badImg.start 8).clk, rel := (badImg.start 8).rel, cfg := (badImg.start 8).cfg, tap := (badImg.start 8).tap : State }.trip,           loop :=             { pending := (badImg.start 8).pending, now := (badImg.start 8).now, out := (badImg.start 8).out, free := (badImg.start 8).free, fresh := (badImg.start 8).fresh, regs := (badImg.start 8).regs, sys := (badImg.start 8).sys,                 husk :=                   have __src := (badImg.start 8).husk;                   { sess := __src.sess, skvRootHash := __src.skvRootHash, duk := __src.duk, oemRootHash := __src.oemRootHash, oemKek := __src.oemKek, safRootHash := __src.safRootHash, pw := __src.pw, cak := __src.cak, consentEnd := __src.consentEnd, eraseHeld := __src.eraseHeld, eraseOpen := __src.eraseOpen, pf0Base := true, firmware := __src.firmware, recordBad := __src.recordBad : HuskSt },                 pwr := (badImg.start 8).pwr, sea := (badImg.start 8).sea, mesh := (badImg.start 8).mesh, meas := (badImg.start 8).meas, pos := (badImg.start 8).pos, pwm := (badImg.start 8).pwm, trip := (badImg.start 8).trip, loop := (badImg.start 8).loop, safe := (badImg.start 8).safe, hostq := (badImg.start 8).hostq, net := (badImg.start 8).net, can := (badImg.start 8).can, clk := (badImg.start 8).clk, rel := (badImg.start 8).rel, cfg := (badImg.start 8).cfg, tap := (badImg.start 8).tap : State }.loop,           safe :=             { pending := (badImg.start 8).pending, now := (badImg.start 8).now, out := (badImg.start 8).out, free := (badImg.start 8).free, fresh := (badImg.start 8).fresh, regs := (badImg.start 8).regs, sys := (badImg.start 8).sys,                 husk :=                   have __src := (badImg.start 8).husk;                   { sess := __src.sess, skvRootHash := __src.skvRootHash, duk := __src.duk, oemRootHash := __src.oemRootHash, oemKek := __src.oemKek, safRootHash := __src.safRootHash, pw := __src.pw, cak := __src.cak, consentEnd := __src.consentEnd, eraseHeld := __src.eraseHeld, eraseOpen := __src.eraseOpen, pf0Base := true, firmware := __src.firmware, recordBad := __src.recordBad : HuskSt },                 pwr := (badImg.start 8).pwr, sea := (badImg.start 8).sea, mesh := (badImg.start 8).mesh, meas := (badImg.start 8).meas, pos := (badImg.start 8).pos, pwm := (badImg.start 8).pwm, trip := (badImg.start 8).trip, loop := (badImg.start 8).loop, safe := (badImg.start 8).safe, hostq := (badImg.start 8).hostq, net := (badImg.start 8).net, can := (badImg.start 8).can, clk := (badImg.start 8).clk, rel := (badImg.start 8).rel, cfg := (badImg.start 8).cfg, tap := (badImg.start 8).tap : State }.safe,           hostq :=             { pending := (badImg.start 8).pending, now := (badImg.start 8).now, out := (badImg.start 8).out, free := (badImg.start 8).free, fresh := (badImg.start 8).fresh, regs := (badImg.start 8).regs, sys := (badImg.start 8).sys,                 husk :=                   have __src := (badImg.start 8).husk;                   { sess := __src.sess, skvRootHash := __src.skvRootHash, duk := __src.duk, oemRootHash := __src.oemRootHash, oemKek := __src.oemKek, safRootHash := __src.safRootHash, pw := __src.pw, cak := __src.cak, consentEnd := __src.consentEnd, eraseHeld := __src.eraseHeld, eraseOpen := __src.eraseOpen, pf0Base := true, firmware := __src.firmware, recordBad := __src.recordBad : HuskSt },                 pwr := (badImg.start 8).pwr, sea := (badImg.start 8).sea, mesh := (badImg.start 8).mesh, meas := (badImg.start 8).meas, pos := (badImg.start 8).pos, pwm := (badImg.start 8).pwm, trip := (badImg.start 8).trip, loop := (badImg.start 8).loop, safe := (badImg.start 8).safe, hostq := (badImg.start 8).hostq, net := (badImg.start 8).net, can := (badImg.start 8).can, clk := (badImg.start 8).clk, rel := (badImg.start 8).rel, cfg := (badImg.start 8).cfg, tap := (badImg.start 8).tap : State }.hostq,           net :=             { pending := (badImg.start 8).pending, now := (badImg.start 8).now, out := (badImg.start 8).out, free := (badImg.start 8).free, fresh := (badImg.start 8).fresh, regs := (badImg.start 8).regs, sys := (badImg.start 8).sys,                 husk :=                   have __src := (badImg.start 8).husk;                   { sess := __src.sess, skvRootHash := __src.skvRootHash, duk := __src.duk, oemRootHash := __src.oemRootHash, oemKek := __src.oemKek, safRootHash := __src.safRootHash, pw := __src.pw, cak := __src.cak, consentEnd := __src.consentEnd, eraseHeld := __src.eraseHeld, eraseOpen := __src.eraseOpen, pf0Base := true, firmware := __src.firmware, recordBad := __src.recordBad : HuskSt },                 pwr := (badImg.start 8).pwr, sea := (badImg.start 8).sea, mesh := (badImg.start 8).mesh, meas := (badImg.start 8).meas, pos := (badImg.start 8).pos, pwm := (badImg.start 8).pwm, trip := (badImg.start 8).trip, loop := (badImg.start 8).loop, safe := (badImg.start 8).safe, hostq := (badImg.start 8).hostq, net := (badImg.start 8).net, can := (badImg.start 8).can, clk := (badImg.start 8).clk, rel := (badImg.start 8).rel, cfg := (badImg.start 8).cfg, tap := (badImg.start 8).tap : State }.net,           can :=             { pending := (badImg.start 8).pending, now := (badImg.start 8).now, out := (badImg.start 8).out, free := (badImg.start 8).free, fresh := (badImg.start 8).fresh, regs := (badImg.start 8).regs, sys := (badImg.start 8).sys,                 husk :=                   have __src := (badImg.start 8).husk;                   { sess := __src.sess, skvRootHash := __src.skvRootHash, duk := __src.duk, oemRootHash := __src.oemRootHash, oemKek := __src.oemKek, safRootHash := __src.safRootHash, pw := __src.pw, cak := __src.cak, consentEnd := __src.consentEnd, eraseHeld := __src.eraseHeld, eraseOpen := __src.eraseOpen, pf0Base := true, firmware := __src.firmware, recordBad := __src.recordBad : HuskSt },                 pwr := (badImg.start 8).pwr, sea := (badImg.start 8).sea, mesh := (badImg.start 8).mesh, meas := (badImg.start 8).meas, pos := (badImg.start 8).pos, pwm := (badImg.start 8).pwm, trip := (badImg.start 8).trip, loop := (badImg.start 8).loop, safe := (badImg.start 8).safe, hostq := (badImg.start 8).hostq, net := (badImg.start 8).net, can := (badImg.start 8).can, clk := (badImg.start 8).clk, rel := (badImg.start 8).rel, cfg := (badImg.start 8).cfg, tap := (badImg.start 8).tap : State }.can,           clk :=             { pending := (badImg.start 8).pending, now := (badImg.start 8).now, out := (badImg.start 8).out, free := (badImg.start 8).free, fresh := (badImg.start 8).fresh, regs := (badImg.start 8).regs, sys := (badImg.start 8).sys,                 husk :=                   have __src := (badImg.start 8).husk;                   { sess := __src.sess, skvRootHash := __src.skvRootHash, duk := __src.duk, oemRootHash := __src.oemRootHash, oemKek := __src.oemKek, safRootHash := __src.safRootHash, pw := __src.pw, cak := __src.cak, consentEnd := __src.consentEnd, eraseHeld := __src.eraseHeld, eraseOpen := __src.eraseOpen, pf0Base := true, firmware := __src.firmware, recordBad := __src.recordBad : HuskSt },                 pwr := (badImg.start 8).pwr, sea := (badImg.start 8).sea, mesh := (badImg.start 8).mesh, meas := (badImg.start 8).meas, pos := (badImg.start 8).pos, pwm := (badImg.start 8).pwm, trip := (badImg.start 8).trip, loop := (badImg.start 8).loop, safe := (badImg.start 8).safe, hostq := (badImg.start 8).hostq, net := (badImg.start 8).net, can := (badImg.start 8).can, clk := (badImg.start 8).clk, rel := (badImg.start 8).rel, cfg := (badImg.start 8).cfg, tap := (badImg.start 8).tap : State }.clk,           rel :=             { pending := (badImg.start 8).pending, now := (badImg.start 8).now, out := (badImg.start 8).out, free := (badImg.start 8).free, fresh := (badImg.start 8).fresh, regs := (badImg.start 8).regs, sys := (badImg.start 8).sys,                 husk :=                   have __src := (badImg.start 8).husk;                   { sess := __src.sess, skvRootHash := __src.skvRootHash, duk := __src.duk, oemRootHash := __src.oemRootHash, oemKek := __src.oemKek, safRootHash := __src.safRootHash, pw := __src.pw, cak := __src.cak, consentEnd := __src.consentEnd, eraseHeld := __src.eraseHeld, eraseOpen := __src.eraseOpen, pf0Base := true, firmware := __src.firmware, recordBad := __src.recordBad : HuskSt },                 pwr := (badImg.start 8).pwr, sea := (badImg.start 8).sea, mesh := (badImg.start 8).mesh, meas := (badImg.start 8).meas, pos := (badImg.start 8).pos, pwm := (badImg.start 8).pwm, trip := (badImg.start 8).trip, loop := (badImg.start 8).loop, safe := (badImg.start 8).safe, hostq := (badImg.start 8).hostq, net := (badImg.start 8).net, can := (badImg.start 8).can, clk := (badImg.start 8).clk, rel := (badImg.start 8).rel, cfg := (badImg.start 8).cfg, tap := (badImg.start 8).tap : State }.rel,           cfg :=             have __src :=               { pending := (badImg.start 8).pending, now := (badImg.start 8).now, out := (badImg.start 8).out, free := (badImg.start 8).free, fresh := (badImg.start 8).fresh, regs := (badImg.start 8).regs, sys := (badImg.start 8).sys,                   husk :=                     have __src := (badImg.start 8).husk;                     { sess := __src.sess, skvRootHash := __src.skvRootHash, duk := __src.duk, oemRootHash := __src.oemRootHash, oemKek := __src.oemKek, safRootHash := __src.safRootHash, pw := __src.pw, cak := __src.cak, consentEnd := __src.consentEnd, eraseHeld := __src.eraseHeld, eraseOpen := __src.eraseOpen, pf0Base := true, firmware := __src.firmware, recordBad := __src.recordBad : HuskSt },                   pwr := (badImg.start 8).pwr, sea := (badImg.start 8).sea, mesh := (badImg.start 8).mesh, meas := (badImg.start 8).meas, pos := (badImg.start 8).pos, pwm := (badImg.start 8).pwm, trip := (badImg.start 8).trip, loop := (badImg.start 8).loop, safe := (badImg.start 8).safe, hostq := (badImg.start 8).hostq, net := (badImg.start 8).net, can := (badImg.start 8).can, clk := (badImg.start 8).clk, rel := (badImg.start 8).rel, cfg := (badImg.start 8).cfg, tap := (badImg.start 8).tap : State }.cfg;             { slots := __src.slots, order := __src.order, first := __src.first, released := __src.released,               loaded :=                 { pending := (badImg.start 8).pending, now := (badImg.start 8).now, out := (badImg.start 8).out, free := (badImg.start 8).free, fresh := (badImg.start 8).fresh, regs := (badImg.start 8).regs, sys := (badImg.start 8).sys,                         husk :=                           have __src := (badImg.start 8).husk;                           { sess := __src.sess, skvRootHash := __src.skvRootHash, duk := __src.duk, oemRootHash := __src.oemRootHash, oemKek := __src.oemKek, safRootHash := __src.safRootHash, pw := __src.pw, cak := __src.cak, consentEnd := __src.consentEnd, eraseHeld := __src.eraseHeld, eraseOpen := __src.eraseOpen, pf0Base := true, firmware := __src.firmware, recordBad := __src.recordBad : HuskSt },                         pwr := (badImg.start 8).pwr, sea := (badImg.start 8).sea, mesh := (badImg.start 8).mesh, meas := (badImg.start 8).meas, pos := (badImg.start 8).pos, pwm := (badImg.start 8).pwm, trip := (badImg.start 8).trip, loop := (badImg.start 8).loop, safe := (badImg.start 8).safe, hostq := (badImg.start 8).hostq, net := (badImg.start 8).net, can := (badImg.start 8).can, clk := (badImg.start 8).clk, rel := (badImg.start 8).rel, cfg := (badImg.start 8).cfg, tap := (badImg.start 8).tap : State }.cfg.loaded ++                   [sectionId (Section.huskPolicy true [])],               placed := __src.placed, noSafety := __src.noSafety, sent := __src.sent, written := __src.written, job := __src.job, verified := __src.verified : CfgSt },           tap :=             { pending := (badImg.start 8).pending, now := (badImg.start 8).now, out := (badImg.start 8).out, free := (badImg.start 8).free, fresh := (badImg.start 8).fresh, regs := (badImg.start 8).regs, sys := (badImg.start 8).sys,                 husk :=                   have __src := (badImg.start 8).husk;                   { sess := __src.sess, skvRootHash := __src.skvRootHash, duk := __src.duk, oemRootHash := __src.oemRootHash, oemKek := __src.oemKek, safRootHash := __src.safRootHash, pw := __src.pw, cak := __src.cak, consentEnd := __src.consentEnd, eraseHeld := __src.eraseHeld, eraseOpen := __src.eraseOpen, pf0Base := true, firmware := __src.firmware, recordBad := __src.recordBad : HuskSt },                 pwr := (badImg.start 8).pwr, sea := (badImg.start 8).sea, mesh := (badImg.start 8).mesh, meas := (badImg.start 8).meas, pos := (badImg.start 8).pos, pwm := (badImg.start 8).pwm, trip := (badImg.start 8).trip, loop := (badImg.start 8).loop, safe := (badImg.start 8).safe, hostq := (badImg.start 8).hostq, net := (badImg.start 8).net, can := (badImg.start 8).can, clk := (badImg.start 8).clk, rel := (badImg.start 8).rel, cfg := (badImg.start 8).cfg, tap := (badImg.start 8).tap : State }.tap :           State }.cfglSection       (Section.huskPolicy true [])).imageBad ≠   none)
    := by decide +kernel
def toSeal (sync : Bool) : State := (boot1 true true).setB R.CLK_CTL_SYNC_EN sync
theorem wit_BootChainReachesReady_10 : (((toSeal false).start 8).alive = true) ∧ (((toSeal false).start 8).cfg.placed = true)
    ∧ (((toSeal false).start 8).chaffOver = true) ∧ (((toSeal false).start 8).b R.CFG_STAT_SEALED = false)
    ∧ (((toSeal false).start 8).clk.syncWait = none) ∧ (((toSeal false).start 8).cfg.order.head? = some 1) ∧ (1 < 2)
    ∧ (((toSeal false).start 8).b R.CLK_CTL_SYNC_EN = false) := by decide +kernel
theorem wit_BootChainReachesReady_11 : (((toSeal true).start 8).alive = true) ∧ (((toSeal true).start 8).cfg.placed = true)
    ∧ (((toSeal true).start 8).chaffOver = true) ∧ (((toSeal true).start 8).b R.CFG_STAT_SEALED = false) ∧ (((toSeal true).start 8).clk.syncWait = none)
    ∧ (((toSeal true).start 8).cfg.order.head? = some 1) ∧ (1 < 2) ∧ (((toSeal true).start 8).b R.CLK_CTL_SYNC_EN = true) := by decide +kernel
def nearReady : State := (live.setB R.TRIP_CTL_ARMED true).setB R.MEAS_CTL_CAL_DONE true
theorem wit_BootChainReachesReady_12 : ((nearReady.start 8).alive = true) ∧ ((nearReady.start 8).readyOk = true)
    ∧ ((nearReady.start 8).b R.PWR_STAT_READY = false) ∧ ((nearReady.start 8).room) := by decide +kernel
/-- An image whose signature Config.ecdsa accepts, for an OEM root key whose hash is fused. -/
def signedImg (h : SlotHdr) : SlotImage := { imgOf h true [] with key := {} }
def fused (s : State) : State := { s with husk := { s.husk with oemRootHash := some (keyHash 0) } }
theorem accepted {s : State} {h : SlotHdr} (he : Config.ecdsa 0 0 0 = true) (hr : s.husk.oemRootHash = some (keyHash 0))
    (hl : s.f R.HUSK_ID_LIFECYCLE = lcDeployed) (hv : s.f R.HUSK_SVN_IMG_SVN ≤ h.svn ∧ h.svn ≤ 64) (ht : s.tagsOk (signedImg h) = true)
    (ho : s.husk.safRootHash = none) (hb : h.bind = 0) : s.verifyResult (signedImg h) = 0 := by
  have h0 : s.signatureOk (signedImg h) = true := by
    simp only [State.signatureOk, State.oemSigned, signedImg, imageKey, hr, imgOf, if_true, Option.any_some, he]
    simp
  have h1 : s.fwOk (signedImg h) = true := by simp [State.fwOk, signedImg, imgOf]
  have h2 : s.officerOk (signedImg h) = true := by simp [State.officerOk, ho]
  have h3 : s.signerOk (signedImg h) = true := by simp [State.signerOk, State.oemSigned, signedImg, imgOf, hr, hl]
  have h4 : ¬(h.svn < s.f R.HUSK_SVN_IMG_SVN ∨ 64 < h.svn) := by omega
  simp only [State.verifyResult, h0, h1, h2, h3, ht]
  simp [signedImg, imgOf, hb, h4]
def trialOf (im : SlotImage) : State := fused { boot1 false false with cfg := { (boot1 false false).cfg with slots := [(1, im)] } }
theorem wit_BootChainReachesReady_signed (he : Config.ecdsa 0 0 0 = true) :
    let u := (trialOf (signedImg (hdrOf 8 0 992))).start 8
    u.alive = true ∧ u.husk.firmware = true ∧ u.b R.CLK_STAT_NOREF = false ∧ u.cfg.released = false ∧ u.b R.CFG_STAT_SEALED = false
      ∧ u.cfg.order.head? = some 1 ∧ signedImg (hdrOf 8 0 992) = u.slotImg 1 ∧ u.verifyResult (signedImg (hdrOf 8 0 992)) = 0 :=
  ⟨by decide +kernel, by decide +kernel, by decide +kernel, by decide +kernel, by decide +kernel, by decide +kernel, rfl,
    accepted he (by rfl) (by decide +kernel) (by decide +kernel) (by decide +kernel) (by rfl) (by decide +kernel)⟩
def upd0 (job : Option UpdJob) (ph : Nat) : State :=
  { (live.setF R.CFG_STAT_SLOT 2 |>.setF R.CFG_UPD_LEN_LEN 992 |>.setF R.CFG_UPD_STAT_PHASE ph |>.setF R.HUSK_SVN_IMG_SVN 1) with
    cfg := { (boot1 true true).cfg with job := job } }
def updS (job : Option UpdJob) (ph : Nat) : State := session (upd0 job ph) 0 1
def im1 : SlotImage := imgOf (hdrOf 9 1 992) true []
def runs1 : UpdJob := { verify := false, slot := 0, img := im1 }
def startOf (s : State) : State := reqOnce s 0 R.CFG_UPD_CTL_START 0x80000000 0 0
theorem wit_UpdatesWriteTheOtherSlot_1 : (((updS (some runs1) 2).start 0).actionWrite 0 R.CFG_UPD_CTL_START 2147483648 = (startOf (updS (some runs1) 2), true))
    ∧ ((startOf (updS (some runs1) 2)).room) ∧ ((startOf (updS (some runs1) 2)).cfg.job ≠ none) := ⟨by (exact Prod.ext rfl (by decide +kernel)),
    by decide +kernel, by decide +kernel⟩
def noBus : State := { updS none 0 with hostq := { linkUp := true, bme := 2 } }
theorem wit_UpdatesWriteTheOtherSlot_2 : ((noBus.start 0).actionWrite 0 R.CFG_UPD_CTL_START 2147483648 = (startOf noBus, true))
    ∧ ((startOf noBus).room) ∧ ((startOf noBus).cfg.job = none) ∧ ((startOf noBus).pf0Reads = false) := ⟨by (exact Prod.ext rfl (by decide +kernel)),
    by decide +kernel, by decide +kernel, by decide +kernel⟩
theorem wit_UpdatesWriteTheOtherSlot_3 : (((updS none 0).start 0).actionWrite 0 R.CFG_UPD_CTL_START 2147483648 = (startOf (updS none 0), true))
    ∧ ((startOf (updS none 0)).room) ∧ ((startOf (updS none 0)).cfg.job = none) := ⟨by (exact Prod.ext rfl (by decide +kernel)), by decide +kernel,
    by decide +kernel⟩
theorem wit_UpdatesWriteTheOtherSlot_4 : (((updS none 0).start 0).actionWrite 0 R.CFG_UPD_CTL_START 2147483648 = (startOf (updS none 0), true))
    ∧ ((startOf (updS none 0)).room) ∧ ((startOf (updS none 0)).cfg.job = none) ∧ ((startOf (updS none 0)).pf0Reads = true)
    ∧ (¬((imgOf (hdrOf 9 1 993) true []).hdr.len ≤ 16777216 ∧ (startOf (updS none 0)).f R.CFG_UPD_LEN_LEN = (imgOf (hdrOf 9 1 993) true []).hdr.len))
    := ⟨by (exact Prod.ext rfl (by decide +kernel)), by decide +kernel, by decide +kernel, by decide +kernel, by decide +kernel⟩
theorem wit_UpdatesWriteTheOtherSlot_5 : (((updS none 0).start 0).actionWrite 0 R.CFG_UPD_CTL_START 2147483648 = (startOf (updS none 0), true))
    ∧ ((startOf (updS none 0)).room) ∧ ((startOf (updS none 0)).cfg.job = none) ∧ ((startOf (updS none 0)).pf0Reads = true)
    ∧ ((imgOf (hdrOf 8 1 992) true []).hdr.len ≤ 16777216 ∧ (startOf (updS none 0)).f R.CFG_UPD_LEN_LEN = (imgOf (hdrOf 8 1 992) true []).hdr.len)
    ∧ (¬∀ (j : Nat), (startOf (updS none 0)).slotInForce = some j → ((startOf (updS none 0)).slotHdr j).seq < (imgOf (hdrOf 8 1 992) true []).hdr.seq)
    := ⟨by (exact Prod.ext rfl (by decide +kernel)), by decide +kernel, by decide +kernel, by decide +kernel, by decide +kernel,
    by (intro h; exact absurd (h 1 (by decide +kernel)) (by decide +kernel))⟩
theorem wit_UpdatesWriteTheOtherSlot_6 : (((updS none 0).start 0).actionWrite 0 R.CFG_UPD_CTL_START 2147483648 = (startOf (updS none 0), true))
    ∧ ((startOf (updS none 0)).room) ∧ ((startOf (updS none 0)).cfg.job = none) ∧ ((startOf (updS none 0)).pf0Reads = true)
    ∧ ((imgOf (hdrOf 9 0 992) true []).hdr.len ≤ 16777216 ∧ (startOf (updS none 0)).f R.CFG_UPD_LEN_LEN = (imgOf (hdrOf 9 0 992) true []).hdr.len)
    ∧ (∀ (j : Nat), (startOf (updS none 0)).slotInForce = some j → ((startOf (updS none 0)).slotHdr j).seq < (imgOf (hdrOf 9 0 992) true []).hdr.seq)
    ∧ ((imgOf (hdrOf 9 0 992) true []).hdr.svn < (startOf (updS none 0)).f R.HUSK_SVN_IMG_SVN) := ⟨by (exact Prod.ext rfl (by decide +kernel)),
    by decide +kernel, by decide +kernel, by decide +kernel, by decide +kernel,
    by (intro j hj; obtain rfl : 1 = j := Option.some.inj ((show some 1 = _ by decide +kernel).trans hj); decide +kernel), by decide +kernel⟩
theorem wit_UpdatesWriteTheOtherSlot_7 : (((updS none 0).start 0).actionWrite 0 R.CFG_UPD_CTL_START 2147483648 = (startOf (updS none 0), true))
    ∧ ((startOf (updS none 0)).room) ∧ ((startOf (updS none 0)).cfg.job = none) ∧ ((startOf (updS none 0)).pf0Reads = true) ∧ (im1.hdr.len ≤ 16777216
    ∧ (startOf (updS none 0)).f R.CFG_UPD_LEN_LEN = im1.hdr.len)
    ∧ (∀ (j : Nat), (startOf (updS none 0)).slotInForce = some j → ((startOf (updS none 0)).slotHdr j).seq < im1.hdr.seq)
    ∧ ((startOf (updS none 0)).f R.HUSK_SVN_IMG_SVN ≤ im1.hdr.svn) := ⟨by (exact Prod.ext rfl (by decide +kernel)), by decide +kernel, by decide +kernel,
    by decide +kernel, by decide +kernel,
    by (intro j hj; obtain rfl : 1 = j := Option.some.inj ((show some 1 = _ by decide +kernel).trans hj); decide +kernel), by decide +kernel⟩
theorem wit_UpdatesWriteTheOtherSlot_8 : (((updS (some runs1) 1).start 8).alive = true) ∧ (((updS (some runs1) 1).start 8).cfg.job = some runs1)
    ∧ (((updS (some runs1) 1).start 8).room) ∧ (runs1.verify = false) ∧ (((updS (some runs1) 1).start 8).f R.CFG_UPD_STAT_PHASE = 1) := by decide +kernel
theorem wit_UpdatesWriteTheOtherSlot_9 : (((updS (some runs1) 1).start 8).alive = true) ∧ (((updS (some runs1) 1).start 8).cfg.job = some runs1)
    ∧ (((updS (some runs1) 1).start 8).room) ∧ (runs1.verify = false) ∧ (((updS (some runs1) 1).start 8).f R.CFG_UPD_STAT_PHASE = 1) := by decide +kernel
theorem wit_UpdatesWriteTheOtherSlot_10 : (((updS (some runs1) 2).start 8).alive = true) ∧ (((updS (some runs1) 2).start 8).cfg.job = some runs1)
    ∧ (((updS (some runs1) 2).start 8).room) ∧ (runs1.verify = false) ∧ (((updS (some runs1) 2).start 8).f R.CFG_UPD_STAT_PHASE = 2)
    ∧ (((updS (some runs1) 2).start 8).pf0Reads = true) := by decide +kernel
theorem wit_UpdatesWriteTheOtherSlot_11 : (((updS (some runs1) 2).start 8).alive = true) ∧ (((updS (some runs1) 2).start 8).cfg.job = some runs1)
    ∧ (((updS (some runs1) 2).start 8).room) ∧ (runs1.verify = false) ∧ (((updS (some runs1) 2).start 8).f R.CFG_UPD_STAT_PHASE = 2)
    ∧ (1 = 1 ∨ ((updS (some runs1) 2).start 8).pf0Reads = false) := by decide +kernel
theorem wit_UpdatesWriteTheOtherSlot_12 : (((updS (some runs1) 2).start 8).alive = true) ∧ (((updS (some runs1) 2).start 8).cfg.job = some runs1)
    ∧ (((updS (some runs1) 2).start 8).room) ∧ (runs1.verify = false) ∧ (((updS (some runs1) 2).start 8).f R.CFG_UPD_STAT_PHASE = 2)
    ∧ (((updS (some runs1) 2).start 8).pf0Reads = true) := by decide +kernel
theorem unsignedUpd {s : State} {im : SlotImage} (h : im.key.kind = 2) : s.updResult im = 1 := by simp [State.updResult, unsigned h]
theorem wit_UpdatesWriteTheOtherSlot_13 : (((updS (some runs1) 3).start 8).alive = true) ∧ (((updS (some runs1) 3).start 8).cfg.job = some runs1)
    ∧ (((updS (some runs1) 3).start 8).room) ∧ (runs1.verify = false) ∧ (((updS (some runs1) 3).start 8).f R.CFG_UPD_STAT_PHASE = 3)
    ∧ (((updS (some runs1) 3).start 8).updResult runs1.img = 1) ∧ (1 ≠ 0) := ⟨by decide +kernel, by decide +kernel, by decide +kernel, by decide +kernel,
    by decide +kernel, by (exact unsignedUpd rfl), by decide +kernel⟩
theorem wit_UpdatesWriteTheOtherSlot_14 : (((updS           (some             (let __src := runs1;             { verify := true, slot := 1, img := __src.img : UpdJob }))           0).start       8).alive =   true)
    ∧ (((updS             (some               (let __src := runs1;               { verify := true, slot := 1, img := __src.img : UpdJob }))             0).start         8).cfg.job =   some     (let __src := runs1;     { verify := true, slot := 1, img := __src.img : UpdJob }))
    ∧ (((updS         (some           (let __src := runs1;           { verify := true, slot := 1, img := __src.img : UpdJob }))         0).start     8).room)
    ∧ ((let __src := runs1;     { verify := true, slot := 1, img := __src.img : UpdJob }).verify =   true)
    ∧ ((let __src := runs1;     { verify := true, slot := 1, img := __src.img : UpdJob }).slot <   2)
    ∧ (1 =   if       slotValid           (let __src := runs1;               { verify := true, slot := 1, img := __src.img : UpdJob }).img.hdr =         true then     ((updS               (some                 (let __src := runs1;                 { verify := true, slot := 1, img := __src.img : UpdJob }))               0).start           8).updResult       (let __src := runs1;         { verify := true, slot := 1, img := __src.img : UpdJob }).img   else 9)
    := ⟨by decide +kernel, by decide +kernel, by decide +kernel, by decide +kernel, by decide +kernel, by (rw [unsignedUpd rfl]; decide +kernel)⟩
theorem wit_UpdatesWriteTheOtherSlot_15 : (((updS           (some             (let __src := runs1;             { verify := true, slot := __src.slot, img := { : SlotImage } : UpdJob }))           0).start       8).alive =   true)
    ∧ (((updS             (some               (let __src := runs1;               { verify := true, slot := __src.slot, img := { : SlotImage } : UpdJob }))             0).start         8).cfg.job =   some     (let __src := runs1;     { verify := true, slot := __src.slot, img := { : SlotImage } : UpdJob }))
    ∧ (((updS         (some           (let __src := runs1;           { verify := true, slot := __src.slot, img := { : SlotImage } : UpdJob }))         0).start     8).room)
    ∧ ((let __src := runs1;     { verify := true, slot := __src.slot, img := { : SlotImage } : UpdJob }).verify =   true)
    ∧ ((let __src := runs1;     { verify := true, slot := __src.slot, img := { : SlotImage } : UpdJob }).slot <   2)
    ∧ (9 =   if       slotValid           (let __src := runs1;               { verify := true, slot := __src.slot, img := { : SlotImage } : UpdJob }).img.hdr =         true then     ((updS               (some                 (let __src := runs1;                 { verify := true, slot := __src.slot, img := { : SlotImage } : UpdJob }))               0).start           8).updResult       (let __src := runs1;         { verify := true, slot := __src.slot, img := { : SlotImage } : UpdJob }).img   else 9)
    := by decide +kernel
theorem wit_UpdatesWriteTheOtherSlot_16 : (((updS (some runs1) 2).start 0).actionWrite 0 R.CFG_UPD_CTL_ABORT 1073741824 = (reqOnce (updS (some runs1) 2) 0 R.CFG_UPD_CTL_ABORT 1073741824 0 0, true))
    ∧ ((reqOnce (updS (some runs1) 2) 0 R.CFG_UPD_CTL_ABORT 1073741824 0 0).room)
    ∧ ((reqOnce (updS (some runs1) 2) 0 R.CFG_UPD_CTL_ABORT 1073741824 0 0).cfg.job = some runs1) ∧ (runs1.verify = false)
    := ⟨by (exact Prod.ext rfl (by decide +kernel)), by decide +kernel, by decide +kernel, by decide +kernel⟩
def verOf (s : State) (d : Word) : State := reqOnce s 0 R.CFG_UPD_CTL_VERIFY d 0 0
theorem wit_UpdatesWriteTheOtherSlot_17 : (((updS none 0).start 0).actionWrite 0 R.CFG_UPD_CTL_VERIFY 671088640 = (verOf (updS none 0) 671088640, true))
    ∧ ((verOf (updS none 0) 671088640).room) ∧ ((verOf (updS none 0) 671088640).cfg.job = none) := ⟨by (exact Prod.ext rfl (by decide +kernel)),
    by decide +kernel, by decide +kernel⟩
theorem wit_UpdatesWriteTheOtherSlot_18 : (((updS (some runs1) 0).start 0).actionWrite 0 R.CFG_UPD_CTL_VERIFY 536870912 = (verOf (updS (some runs1) 0) 536870912, true))
    ∧ ((verOf (updS (some runs1) 0) 536870912).room) ∧ ((verOf (updS (some runs1) 0) 536870912).cfg.job ≠ none)
    := ⟨by (exact Prod.ext rfl (by decide +kernel)), by decide +kernel, by decide +kernel⟩
def revOf (s : State) (d : Word) : State := reqOnce s 0 R.CFG_UPD_CTL_REVOKE d 0 0
theorem wit_UpdatesWriteTheOtherSlot_19 : (((updS none 0).start 0).actionWrite 0 R.CFG_UPD_CTL_REVOKE 268435456 = (revOf (updS none 0) 268435456, true))
    ∧ ((revOf (updS none 0) 268435456).room) ∧ ((revOf (updS none 0) 268435456).cfg.job = none
    ∧ ((revOf (updS none 0) 268435456).slotInForce = some ((revOf (updS none 0) 268435456).f R.CFG_UPD_CTL_SLOT) → 1 - (revOf (updS none 0) 268435456).f R.CFG_UPD_CTL_SLOT ∈ (revOf (updS none 0) 268435456).cfg.verified))
    := ⟨by (exact Prod.ext rfl (by decide +kernel)), by decide +kernel, by decide +kernel⟩
theorem wit_UpdatesWriteTheOtherSlot_20 : (((updS none 0).start 0).actionWrite 0 R.CFG_UPD_CTL_REVOKE 402653184 = (revOf (updS none 0) 402653184, true))
    ∧ ((revOf (updS none 0) 402653184).room) ∧ (¬((revOf (updS none 0) 402653184).cfg.job = none
    ∧ ((revOf (updS none 0) 402653184).slotInForce = some ((revOf (updS none 0) 402653184).f R.CFG_UPD_CTL_SLOT) → 1 - (revOf (updS none 0) 402653184).f R.CFG_UPD_CTL_SLOT ∈ (revOf (updS none 0) 402653184).cfg.verified)))
    := ⟨by (exact Prod.ext rfl (by decide +kernel)), by decide +kernel, by decide +kernel⟩
/-- A whole image: four SAFETY kernels in P00 and in P23, pods at 500 MHz, every PLL from REFCLK. -/
def wholeImg (h : SlotHdr) : SlotImage :=
  let roles := (List.range 360).map fun i => if i % 15 < 4 ∧ (i / 15 = 0 ∨ i / 15 = 23) then 5 else 0
  { signedImg h with
    secs := [.roleMap roles (List.replicate 24 500) 0 0 0 [] [(0xC0100, 0x8F000000), (0xC0140, 0x8A000000), (0xC0180, 0x8A000000)],
             .programs [], .contexts [], .huskPolicy true []] }
theorem wit_UpdatesWriteTheOtherSlot_signed (he : Config.ecdsa 0 0 0 = true) :
    let j : UpdJob := { verify := false, slot := 0, img := wholeImg (hdrOf 9 1 992) }
    let u := (fused (updS (some j) 3)).start 8
    u.alive = true ∧ u.cfg.job = some j ∧ u.room ∧ u.f R.CFG_UPD_STAT_PHASE = 3 ∧ u.updResult j.img = 0 := by
  intro j u
  have h0 : u.verifyResult j.img = 0 := by
    have h1 : u.signatureOk j.img = true := by
      simp only [State.signatureOk, State.oemSigned, j, wholeImg, signedImg, imageKey, imgOf, if_true, Option.any_some, he,
        show u.husk.oemRootHash = some (keyHash 0) from rfl]
      simp
    have h2 : u.signerOk j.img = true := by
      simp only [State.signerOk, State.oemSigned, j, wholeImg, signedImg, imgOf, show u.husk.oemRootHash = some (keyHash 0) from rfl,
        show u.f R.HUSK_ID_LIFECYCLE = lcDeployed by decide +kernel]
      simp
    have h3 : u.fwOk j.img = true := by decide +kernel
    have h4 : u.tagsOk j.img = true := by decide +kernel
    have h5 : u.officerOk j.img = true := by decide +kernel
    have h6 : ¬(j.img.hdr.svn < u.f R.HUSK_SVN_IMG_SVN ∨ 64 < j.img.hdr.svn) := by decide +kernel
    have h7 : j.img.hdr.bind = 0 := by decide +kernel
    simp only [State.verifyResult, h1, h2, h3, h4, h5]
    simp [h6, h7]
  have h8 : slotValid j.img.hdr = true := by decide +kernel
  have h9 : u.imageFails j.img = false := by decide +kernel
  exact ⟨by decide +kernel, rfl, by decide +kernel, by decide +kernel, by simp [State.updResult, h0, h8, h9]⟩
/-- The write of a ring's register at instant 0. -/
def wrote (s : State) (r : FRef) (data : Word) (q : Nat) : State × Option (RegHit × List FieldDef) := (s.start 0).writeAt 1 .hostq (r.off q 1) data
theorem wrote_eq (x : State × Option (RegHit × List FieldDef)) (h : x.2.isSome = true) : x = (x.1, some (x.2.getD (hitAddr, []))) := by
  rcases x with ⟨a, _ | b⟩
  · simp at h
  · rfl
theorem wit_RingsCarryCompletions_1 : (1 < 2) ∧ (31 < 32) ∧ (getBits 2696937472 31 31 = 1)
    ∧ ((ring0.start 0).writeAt 1 Blk.hostq (R.HOSTQ_SQ_CFG_EN.off 31 1) 2696937472 = ((wrote ring0 R.HOSTQ_SQ_CFG_EN 2696937472 31).fst, some ((wrote ring0 R.HOSTQ_SQ_CFG_EN 2696937472 31).snd.getD (hitAddr, []))))
    ∧ ((ring0.start 0).b R.HOSTQ_SQ_CFG_EN 31 1 = false) ∧ ((wrote ring0 R.HOSTQ_SQ_CFG_EN 2696937472 31).fst.sqState 1 31 = 0)
    ∧ (4 ≤ (wrote ring0 R.HOSTQ_SQ_CFG_EN 2696937472 31).fst.f R.HOSTQ_SQ_CFG_SIZE 31 1
    ∧ (wrote ring0 R.HOSTQ_SQ_CFG_EN 2696937472 31).fst.f R.HOSTQ_SQ_CFG_SIZE 31 1 ≤ 12)
    ∧ ((wrote ring0 R.HOSTQ_SQ_CFG_EN 2696937472 31).fst.cqState 1 ((wrote ring0 R.HOSTQ_SQ_CFG_EN 2696937472 31).fst.cqOf 1 31) = 1)
    ∧ ((wrote ring0 R.HOSTQ_SQ_CFG_EN 2696937472 31).fst.f R.HOSTQ_CQ_STAT_DOMAIN ((wrote ring0 R.HOSTQ_SQ_CFG_EN 2696937472 31).fst.cqOf 1 31) 1 = (ring0.start 0).domainOf 1)
    := ⟨by decide +kernel, by decide +kernel, by decide +kernel, by (exact wrote_eq _ (by decide +kernel)), by decide +kernel, by decide +kernel,
    by decide +kernel, by decide +kernel, by decide +kernel⟩
theorem wit_RingsCarryCompletions_2 : (1 < 2) ∧ (31 < 32) ∧ (getBits 2701131776 31 31 = 1)
    ∧ ((ring0.start 0).writeAt 1 Blk.hostq (R.HOSTQ_SQ_CFG_EN.off 31 1) 2701131776 = ((wrote ring0 R.HOSTQ_SQ_CFG_EN 2701131776 31).fst, some ((wrote ring0 R.HOSTQ_SQ_CFG_EN 2701131776 31).snd.getD (hitAddr, []))))
    ∧ ((ring0.start 0).b R.HOSTQ_SQ_CFG_EN 31 1 = false)
    ∧ ((wrote ring0 R.HOSTQ_SQ_CFG_EN 2701131776 31).fst.cqState 1 ((wrote ring0 R.HOSTQ_SQ_CFG_EN 2701131776 31).fst.cqOf 1 31) = 0 ∨ (wrote ring0 R.HOSTQ_SQ_CFG_EN 2701131776 31).fst.f R.HOSTQ_CQ_STAT_DOMAIN ((wrote ring0 R.HOSTQ_SQ_CFG_EN 2701131776 31).fst.cqOf 1 31) 1 ≠ (ring0.start 0).domainOf 1)
    ∧ ((wrote ring0 R.HOSTQ_SQ_CFG_EN 2701131776 31).fst.room) := ⟨by decide +kernel, by decide +kernel, by decide +kernel,
    by (exact wrote_eq _ (by decide +kernel)), by decide +kernel, by decide +kernel, by decide +kernel⟩
def cqOther : State := ring0.setF R.HOSTQ_CQ_STAT_DOMAIN 1 3 1
theorem wit_RingsCarryCompletions_3 : (1 < 2) ∧ (31 < 32) ∧ (getBits 2696937472 31 31 = 1)
    ∧ ((cqOther.start 0).writeAt 1 Blk.hostq (R.HOSTQ_SQ_CFG_EN.off 31 1) 2696937472 = ((wrote cqOther R.HOSTQ_SQ_CFG_EN 2696937472 31).fst, some ((wrote cqOther R.HOSTQ_SQ_CFG_EN 2696937472 31).snd.getD (hitAddr, []))))
    ∧ ((cqOther.start 0).b R.HOSTQ_SQ_CFG_EN 31 1 = false)
    ∧ ((wrote cqOther R.HOSTQ_SQ_CFG_EN 2696937472 31).fst.cqState 1 ((wrote cqOther R.HOSTQ_SQ_CFG_EN 2696937472 31).fst.cqOf 1 31) = 0 ∨ (wrote cqOther R.HOSTQ_SQ_CFG_EN 2696937472 31).fst.f R.HOSTQ_CQ_STAT_DOMAIN ((wrote cqOther R.HOSTQ_SQ_CFG_EN 2696937472 31).fst.cqOf 1 31) 1 ≠ (cqOther.start 0).domainOf 1)
    ∧ ((wrote cqOther R.HOSTQ_SQ_CFG_EN 2696937472 31).fst.room) := ⟨by decide +kernel, by decide +kernel, by decide +kernel,
    by (exact wrote_eq _ (by decide +kernel)), by decide +kernel, by decide +kernel, by decide +kernel⟩
theorem wit_RingsCarryCompletions_4 : (1 < 2) ∧ (31 < 32) ∧ (getBits 3758096384 31 31 = 1)
    ∧ ((live.start 0).writeAt 1 Blk.hostq (R.HOSTQ_CQ_CFG_EN.off 31 1) 3758096384 = ((wrote live R.HOSTQ_CQ_CFG_EN 3758096384 31).fst, some ((wrote live R.HOSTQ_CQ_CFG_EN 3758096384 31).snd.getD (hitAddr, []))))
    ∧ ((live.start 0).b R.HOSTQ_CQ_CFG_EN 31 1 = false) ∧ ((wrote live R.HOSTQ_CQ_CFG_EN 3758096384 31).fst.cqState 1 31 = 0)
    ∧ (4 ≤ (wrote live R.HOSTQ_CQ_CFG_EN 3758096384 31).fst.f R.HOSTQ_CQ_CFG_SIZE 31 1
    ∧ (wrote live R.HOSTQ_CQ_CFG_EN 3758096384 31).fst.f R.HOSTQ_CQ_CFG_SIZE 31 1 ≤ 12) := ⟨by decide +kernel, by decide +kernel, by decide +kernel,
    by (exact wrote_eq _ (by decide +kernel)), by decide +kernel, by decide +kernel, by decide +kernel⟩
theorem wit_RingsCarryCompletions_5 : (1 < 2) ∧ (31 < 32) ∧ (getBits 549453824 31 31 = 0)
    ∧ ((ring1.start 0).writeAt 1 Blk.hostq (R.HOSTQ_SQ_CFG_EN.off 31 1) 549453824 = ((wrote ring1 R.HOSTQ_SQ_CFG_EN 549453824 31).fst, some ((wrote ring1 R.HOSTQ_SQ_CFG_EN 549453824 31).snd.getD (hitAddr, []))))
    ∧ ((ring1.start 0).b R.HOSTQ_SQ_CFG_EN 31 1 = true) := ⟨by decide +kernel, by decide +kernel, by decide +kernel,
    by (exact wrote_eq _ (by decide +kernel)), by decide +kernel⟩
def ringOut : State := ring1.setF R.HOSTQ_SQ_STAT_OUTSTANDING 1 31 1
theorem wit_RingsCarryCompletions_6 : (1 < 2) ∧ (31 < 32) ∧ (getBits 549453824 31 31 = 0)
    ∧ ((ringOut.start 0).writeAt 1 Blk.hostq (R.HOSTQ_SQ_CFG_EN.off 31 1) 549453824 = ((wrote ringOut R.HOSTQ_SQ_CFG_EN 549453824 31).fst, some ((wrote ringOut R.HOSTQ_SQ_CFG_EN 549453824 31).snd.getD (hitAddr, []))))
    ∧ ((ringOut.start 0).b R.HOSTQ_SQ_CFG_EN 31 1 = true) := ⟨by decide +kernel, by decide +kernel, by decide +kernel,
    by (exact wrote_eq _ (by decide +kernel)), by decide +kernel⟩
theorem wit_RingsCarryCompletions_7 : (1 < 2) ∧ (3 < 32) ∧ (getBits 536870912 31 31 = 0)
    ∧ ((ring1.start 0).writeAt 1 Blk.hostq (R.HOSTQ_CQ_CFG_EN.off 3 1) 536870912 = ((wrote ring1 R.HOSTQ_CQ_CFG_EN 536870912 3).fst, some ((wrote ring1 R.HOSTQ_CQ_CFG_EN 536870912 3).snd.getD (hitAddr, []))))
    ∧ ((ring1.start 0).b R.HOSTQ_CQ_CFG_EN 3 1 = true) ∧ ((ring1.start 0).cqState 1 3 ≠ 3) ∧ (∃ r, r < 32 ∧ (ring1.start 0).b R.HOSTQ_SQ_CFG_EN r 1 = true
    ∧ (ring1.start 0).cqOf 1 r = 3) ∧ ((wrote ring1 R.HOSTQ_CQ_CFG_EN 536870912 3).fst.room) := ⟨by decide +kernel, by decide +kernel, by decide +kernel,
    by (exact wrote_eq _ (by decide +kernel)), by decide +kernel, by decide +kernel, by decide +kernel, by decide +kernel⟩
def drained1 : State := (ring1.setB R.HOSTQ_SQ_CFG_EN false 31 1).setF R.HOSTQ_SQ_STAT_STATE 2 31 1
theorem wit_RingsCarryCompletions_8 : (1 < 2) ∧ (31 < 32) ∧ ((drained1.start 8).b R.HOSTQ_SQ_CFG_EN 31 1 = false)
    ∧ ((drained1.start 8).f R.HOSTQ_SQ_STAT_OUTSTANDING 31 1 = 0) ∧ ((drained1.start 8).sqState 1 31 = 2 ∨ (drained1.start 8).sqState 1 31 = 3)
    := by decide +kernel
theorem wit_RingsCarryCompletions_9 : (1 < 2) ∧ (31 < 32) ∧ ((ring1.start 8).bellOpen = true) ∧ ((ring1.start 8).b R.HOSTQ_SQ_CFG_EN 31 1 = true)
    ∧ (BitVec.toNat (15 : Word) < 2 ^ (ring1.start 8).f R.HOSTQ_SQ_CFG_SIZE 31 1) := by decide +kernel
theorem wit_RingsCarryCompletions_10 : (1 < 2) ∧ (31 < 32) ∧ ((ring1.start 8).bellOpen = true) ∧ ((ring1.start 8).b R.HOSTQ_SQ_CFG_EN 31 1 = true)
    ∧ (2 ^ (ring1.start 8).f R.HOSTQ_SQ_CFG_SIZE 31 1 ≤ BitVec.toNat (16 : Word)) ∧ ((ring1.start 8).b R.HOSTQ_SQ_STAT_DB_BAD 31 1 = false)
    ∧ ((ring1.start 8).room) := by decide +kernel
theorem wit_RingsCarryCompletions_11 : (1 < 2) ∧ (31 < 32) ∧ ((ring0.start 8).b R.HOSTQ_SQ_CFG_EN 31 1 = false) := by decide +kernel
theorem wit_RingsCarryCompletions_12 : (1 < 2) ∧ (3 < 32) ∧ ((ring1.start 8).bellOpen = true) ∧ ((ring1.start 8).b R.HOSTQ_CQ_CFG_EN 3 1 = true)
    ∧ ((ring1.start 8).f R.HOSTQ_CQ_CFG_SIZE 3 1 ≤ 12) ∧ (BitVec.toNat (1 : Word) < 2 ^ (ring1.start 8).f R.HOSTQ_CQ_CFG_SIZE 3 1) := by decide +kernel
theorem wit_RingsCarryCompletions_13 : (1 < 2) ∧ (3 < 32) ∧ ((ring1.start 8).bellOpen = true) ∧ ((ring1.start 8).b R.HOSTQ_CQ_CFG_EN 3 1 = true)
    ∧ ((ring1.start 8).f R.HOSTQ_CQ_CFG_SIZE 3 1 ≤ 12) ∧ (2 ^ (ring1.start 8).f R.HOSTQ_CQ_CFG_SIZE 3 1 ≤ BitVec.toNat (16 : Word))
    ∧ ((ring1.start 8).b R.HOSTQ_CQ_STAT_DB_BAD 3 1 = false) ∧ ((ring1.start 8).room) := by decide +kernel
def doneDesc : HDesc := { fn := 1, sq := 31, cid := 9, phase := 4 }
def ring2 (tail : Nat) : State := { ring1.setF R.HOSTQ_CQ_STAT_TAIL tail 3 1 with hostq := { linkUp := true, bme := 2, descs := [(5, doneDesc)], waiting := [5] } }
theorem wit_RingsCarryCompletions_14 : (1 < 2) ∧ (3 < 32) ∧ (((ring2 0).start 8).waitingOf 1 3 = some (5, doneDesc))
    ∧ (((ring2 0).start 8).cqState 1 3 = 1) ∧ (((ring2 0).start 8).busOpen 1 = true) ∧ (((ring2 0).start 8).b R.HOSTQ_CQ_STAT_FULL 3 1 = false)
    ∧ (((ring2 0).start 8).f R.HOSTQ_CQ_CFG_SIZE 3 1 ≤ 12) ∧ (doneDesc.sq < 32) := by decide +kernel
theorem wit_RingsCarryCompletions_15 : (1 < 2) ∧ (3 < 32) ∧ (((ring2 15).start 8).waitingOf 1 3 = some (5, doneDesc))
    ∧ (((ring2 15).start 8).cqState 1 3 = 1) ∧ (((ring2 15).start 8).busOpen 1 = true) ∧ (((ring2 15).start 8).b R.HOSTQ_CQ_STAT_FULL 3 1 = false)
    ∧ (((ring2 15).start 8).f R.HOSTQ_CQ_CFG_SIZE 3 1 ≤ 12) ∧ (doneDesc.sq < 32) := by decide +kernel
def ringT (open_ : List Nat) : State :=
  { (ring1.setF R.HOSTQ_CQ_CFG_IRQ_TIME 1 3 1).setF R.HOSTQ_CQ_CFG_VEC 31 3 1 with hostq := { linkUp := true, bme := 2, unsig := [(35, [0])], vecOpen := open_ } }
theorem wit_RingsCarryCompletions_16 : (1 < 2) ∧ (3 < 32) ∧ (kget [] ((ringT [63]).start usQ).hostq.unsig (32 * 1 + 3) = [0])
    ∧ (((ringT [63]).start usQ).busOpen 1 = true) ∧ (((ringT [63]).start usQ).f R.HOSTQ_CQ_CFG_IRQ_TIME 3 1 ≠ 0)
    ∧ (0 + ((ringT [63]).start usQ).f R.HOSTQ_CQ_CFG_IRQ_TIME 3 1 * usQ ≤ ((ringT [63]).start usQ).now) := by decide +kernel
theorem wit_RingsCarryCompletions_17 : (1 < 2) ∧ (3 < 32) ∧ (kget [] ((ringT []).start usQ).hostq.unsig (32 * 1 + 3) = [0])
    ∧ (((ringT []).start usQ).busOpen 1 = true) ∧ (((ringT []).start usQ).f R.HOSTQ_CQ_CFG_IRQ_TIME 3 1 ≠ 0)
    ∧ (0 + ((ringT []).start usQ).f R.HOSTQ_CQ_CFG_IRQ_TIME 3 1 * usQ ≤ ((ringT []).start usQ).now) := by decide +kernel
def ringV (p : List Nat) : State := { live with hostq := { linkUp := true, vecPend := p } }
theorem wit_RingsCarryCompletions_18 : (1 < 2) ∧ (31 < 32) ∧ (((ringV [63]).start 8).hostq.linkUp = true)
    ∧ (¬32 * 1 + 31 ∈ ((ringV [63]).start 8).hostq.vecOpen) := by decide +kernel
theorem wit_RingsCarryCompletions_19 : (1 < 2) ∧ (31 < 32) ∧ (((ringV []).start 8).hostq.linkUp = true) := by decide +kernel
theorem wit_RingsCarryCompletions_20 : (1 < 2) ∧ (31 < 32) ∧ ((ring1.start 8).sealed = true) ∧ (0 < 4) ∧ (4 < 5) ∧ ((ring1.start 8).room)
    ∧ ((ring1.start 8).sqState 1 31 = 1 ∨ (ring1.start 8).sqState 1 31 = 2) := by decide +kernel
theorem wit_RingsCarryCompletions_21 : (1 < 2) ∧ (3 < 32) ∧ ((ring1.start 8).sealed = true) ∧ (0 < 1) ∧ (1 < 5) ∧ ((ring1.start 8).room)
    ∧ ((ring1.start 8).cqState 1 3 = 1) := by decide +kernel
theorem wit_RingsCarryCompletions_22 : (1 < 2) ∧ (3 < 32) ∧ ((ring1.start 8).hostq.linkUp = true) ∧ ((ring1.start 8).inReset = false)
    := by decide +kernel
theorem wit_RingsCarryCompletions_23 : (1 < 2) ∧ (3 < 32) ∧ ((ring1.start 8).hostq.linkUp = true) ∧ ((ring1.start 8).inReset = false)
    := by decide +kernel
theorem wit_RingsCarryCompletions_24 : (1 < 2) ∧ (3 < 32) ∧ ((ring1.start 8).hostq.linkUp = true) ∧ ((ring1.start 8).inReset = false)
    := by decide +kernel
def lossy (c : Nat) : State := { live.setB R.HOSTQ_HL_CFG_HB_EN true 1 |>.setF R.HOSTQ_HL_CFG_HB_TIMEOUT 10 1 with hostq := { linkUp := true, bme := 3, lossCause := if c = 0 then [] else [(1, c)] } }
theorem wit_RingsCarryCompletions_25 : (1 < 2) ∧ (3 < 32) ∧ (((lossy 3).start 8).sealed = true) ∧ (((lossy 3).start 8).hostLost 1 = false)
    ∧ (((lossy 3).start 8).room) ∧ (3 ≠ 0 ∧ 3 < 4 ∧ kget 0 ((lossy 3).start 8).hostq.lossCause 1 = 3 ∨ 3 = 1
    ∧ kget 0 ((lossy 3).start 8).hostq.lossCause 1 = 0 ∧ ((lossy 3).start 8).b R.HOSTQ_HL_CFG_HB_EN 1 = true
    ∧ kget 0 ((lossy 3).start 8).hostq.lastHb 1 + ((lossy 3).start 8).f R.HOSTQ_HL_CFG_HB_TIMEOUT 1 * msQ ≤ ((lossy 3).start 8).now)
    := ⟨by decide +kernel, by decide +kernel, by decide +kernel, by decide +kernel, by decide +kernel, by (decide +kernel)⟩
theorem wit_RingsCarryCompletions_26 : (1 < 2) ∧ (3 < 32) ∧ (((lossy 0).start (10 * msQ)).sealed = true)
    ∧ (((lossy 0).start (10 * msQ)).hostLost 1 = false) ∧ (((lossy 0).start (10 * msQ)).room) ∧ (1 ≠ 0 ∧ 1 < 4
    ∧ kget 0 ((lossy 0).start (10 * msQ)).hostq.lossCause 1 = 1 ∨ 1 = 1 ∧ kget 0 ((lossy 0).start (10 * msQ)).hostq.lossCause 1 = 0
    ∧ ((lossy 0).start (10 * msQ)).b R.HOSTQ_HL_CFG_HB_EN 1 = true
    ∧ kget 0 ((lossy 0).start (10 * msQ)).hostq.lastHb 1 + ((lossy 0).start (10 * msQ)).f R.HOSTQ_HL_CFG_HB_TIMEOUT 1 * msQ ≤ ((lossy 0).start (10 * msQ)).now)
    := ⟨by decide +kernel, by decide +kernel, by decide +kernel, by decide +kernel, by decide +kernel, by (decide +kernel)⟩
/-- A set-point word. -/
def spParam : ParamDef := { init := 0, lo := 0, hi := 0, ramp := 0, owner := 2, integer := true, setpoint := true }
/-- Function 1 with its descriptors; kernels 16 to 19 back themselves and hold roles; context 511 runs. -/
def hq (ds : KMap HDesc) : State :=
  { (live.setF R.LOOP_CTX_STAT_STATE 1 511) with
    hostq := { linkUp := true, bme := 3, descs := ds }
    sea := { roles := [(16, 3), (17, 2)] }
    loop := { ctx := [(511, { desc := { agentPod := 1, agentK := 0, params := [spParam] } })] } }
/-- Ring 31 of function 1 with one descriptor to fetch. -/
def fetch1 (refusing : List Nat) : State := { ring1 with hostq := { linkUp := true, bme := 3, tails := [(63, 1)], refusing := refusing } }
def dBytes (op flags target count : Nat) : List Byte :=
  [BitVec.ofNat 8 op, BitVec.ofNat 8 flags, 9, 0, 0, 0, 0, 0, BitVec.ofNat 8 target, BitVec.ofNat 8 (target / 256), BitVec.ofNat 8 count, 0] ++ List.replicate 52 0
theorem wit_DescriptorsAreCheckedReleasedAndAborted_1 : (((fetch1 []).start 8).sealed = true)
    ∧ (((fetch1 []).start 8).turn = (some (32 * 1 + 31), false)) ∧ (1 < 2) ∧ (31 < 32) ∧ (((fetch1 []).start 8).f R.HOSTQ_SQ_CFG_SIZE 31 1 ≤ 12)
    ∧ (leAt (dBytes 12 0 0 0) 0 1 = 0 ∨ 11 < leAt (dBytes 12 0 0 0) 0 1) := by decide +kernel
theorem wit_DescriptorsAreCheckedReleasedAndAborted_2 : (((fetch1 [63]).start 8).sealed = true)
    ∧ (((fetch1 [63]).start 8).turn = (some (32 * 1 + 31), false)) ∧ (1 < 2) ∧ (31 < 32) ∧ (((fetch1 [63]).start 8).f R.HOSTQ_SQ_CFG_SIZE 31 1 ≤ 12)
    ∧ (0 < leAt (dBytes 11 0 0 0) 0 1) ∧ (leAt (dBytes 11 0 0 0) 0 1 ≤ 11) ∧ (32 * 1 + 31 ∈ ((fetch1 [63]).start 8).hostq.refusing) := by decide +kernel
theorem wit_DescriptorsAreCheckedReleasedAndAborted_3 : (((fetch1 []).start 8).sealed = true)
    ∧ (((fetch1 []).start 8).turn = (some (32 * 1 + 31), false)) ∧ (1 < 2) ∧ (31 < 32) ∧ (((fetch1 []).start 8).f R.HOSTQ_SQ_CFG_SIZE 31 1 ≤ 12)
    ∧ (((fetch1 []).start 8).fetchRefusal 1 31 (((fetch1 []).start 8).f R.HOSTQ_SQ_STAT_DOMAIN 31 1) (dBytes 10 0 0 0) none = some (19, 0))
    := by decide +kernel
theorem wit_DescriptorsAreCheckedReleasedAndAborted_4 : (((fetch1 []).start 8).sealed = true)
    ∧ (((fetch1 []).start 8).turn = (some (32 * 1 + 31), false)) ∧ (1 < 2) ∧ (31 < 32) ∧ (((fetch1 []).start 8).f R.HOSTQ_SQ_CFG_SIZE 31 1 ≤ 12)
    ∧ (((fetch1 []).start 8).fetchRefusal 1 31 (((fetch1 []).start 8).f R.HOSTQ_SQ_STAT_DOMAIN 31 1) (dBytes 11 4 0 0) none = none) := by decide +kernel
theorem wit_DescriptorsAreCheckedReleasedAndAborted_5 : (((hq [(5, { fn := 1, sq := 31, cid := 9, op := 1, apply := some 2 : HDesc })]).start 8).sealed = true)
    ∧ (((hq [(5, { fn := 1, sq := 31, cid := 9, op := 1, apply := some 2 : HDesc })]).start 8).desc 5 = some { fn := 1, sq := 31, cid := 9, op := 1, apply := some 2 : HDesc })
    ∧ ({ fn := 1, sq := 31, cid := 9, op := 1, apply := some 2 : HDesc }.parent = none)
    ∧ ({ fn := 1, sq := 31, cid := 9, op := 1, apply := some 2 : HDesc }.dead = false)
    ∧ ({ fn := 1, sq := 31, cid := 9, op := 1, apply := some 2 : HDesc }.phase = 0)
    ∧ ({ fn := 1, sq := 31, cid := 9, op := 1, apply := some 2 : HDesc }.apply = none ∨ { fn := 1, sq := 31, cid := 9, op := 1, apply := some 2 : HDesc }.late = true ∨ ∃ a, { fn := 1, sq := 31, cid := 9, op := 1, apply := some 2 : HDesc }.apply = some a
    ∧ ntLe (a - 1000000) ((hq [(5, { fn := 1, sq := 31, cid := 9, op := 1, apply := some 2 : HDesc })]).start 8).ntime = true)
    ∧ (((hq [(5, { fn := 1, sq := 31, cid := 9, op := 1, apply := some 2 : HDesc })]).start 8).inOrder { fn := 1, sq := 31, cid := 9, op := 1, apply := some 2 : HDesc } = true)
    ∧ ({ fn := 1, sq := 31, cid := 9, op := 1, apply := some 2 : HDesc }.late = false ∨ { fn := 1, sq := 31, cid := 9, op := 1, apply := some 2 : HDesc }.flags.testBit 3 = false ∨ { fn := 1, sq := 31, cid := 9, op := 1, apply := some 2 : HDesc }.op ≠ 1
    ∧ { fn := 1, sq := 31, cid := 9, op := 1, apply := some 2 : HDesc }.op ≠ 2) := ⟨by decide +kernel, by decide +kernel, by decide +kernel,
    by decide +kernel, by decide +kernel, by (exact Or.inr (Or.inr ⟨2, by decide +kernel⟩)), by decide +kernel, by decide +kernel⟩
theorem wit_DescriptorsAreCheckedReleasedAndAborted_6 : (((hq [(5, { fn := 1, sq := 31, cid := 9, op := 1, flags := 8, apply := some 0, late := true : HDesc })]).start 8).sealed = true)
    ∧ (((hq [(5, { fn := 1, sq := 31, cid := 9, op := 1, flags := 8, apply := some 0, late := true : HDesc })]).start 8).desc 5 = some { fn := 1, sq := 31, cid := 9, op := 1, flags := 8, apply := some 0, late := true : HDesc })
    ∧ ({ fn := 1, sq := 31, cid := 9, op := 1, flags := 8, apply := some 0, late := true : HDesc }.parent = none)
    ∧ ({ fn := 1, sq := 31, cid := 9, op := 1, flags := 8, apply := some 0, late := true : HDesc }.dead = false)
    ∧ ({ fn := 1, sq := 31, cid := 9, op := 1, flags := 8, apply := some 0, late := true : HDesc }.phase = 0)
    ∧ ({ fn := 1, sq := 31, cid := 9, op := 1, flags := 8, apply := some 0, late := true : HDesc }.apply = none ∨ { fn := 1, sq := 31, cid := 9, op := 1, flags := 8, apply := some 0, late := true : HDesc }.late = true ∨ ∃ a, { fn := 1, sq := 31, cid := 9, op := 1, flags := 8, apply := some 0, late := true : HDesc }.apply = some a
    ∧ ntLe (a - 1000000) ((hq [(5, { fn := 1, sq := 31, cid := 9, op := 1, flags := 8, apply := some 0, late := true : HDesc })]).start 8).ntime = true)
    ∧ (((hq [(5, { fn := 1, sq := 31, cid := 9, op := 1, flags := 8, apply := some 0, late := true : HDesc })]).start 8).inOrder { fn := 1, sq := 31, cid := 9, op := 1, flags := 8, apply := some 0, late := true : HDesc } = true)
    ∧ ({ fn := 1, sq := 31, cid := 9, op := 1, flags := 8, apply := some 0, late := true : HDesc }.late = true)
    ∧ ({ fn := 1, sq := 31, cid := 9, op := 1, flags := 8, apply := some 0, late := true : HDesc }.flags.testBit 3 = true)
    ∧ ({ fn := 1, sq := 31, cid := 9, op := 1, flags := 8, apply := some 0, late := true : HDesc }.op = 1 ∨ { fn := 1, sq := 31, cid := 9, op := 1, flags := 8, apply := some 0, late := true : HDesc }.op = 2)
    := ⟨by decide +kernel, by decide +kernel, by decide +kernel, by decide +kernel, by decide +kernel, by (exact Or.inr (Or.inl rfl)), by decide +kernel,
    by decide +kernel, by decide +kernel, by decide +kernel⟩
def sched : HDesc := { fn := 1, sq := 31, cid := 9, op := 3, phase := 1, body := List.replicate 8 0 ++ [1, 0, 0, 0] }
def full256 : State := (hq [(5, sched)]).setF R.HOSTQ_STAT_SCHEDULES 256
theorem wit_DescriptorsAreCheckedReleasedAndAborted_7 : ((full256.start 8).sealed = true) ∧ ((full256.start 8).desc 5 = some sched)
    ∧ (sched.parent = none) ∧ (sched.dead = false) ∧ (sched.late = false) ∧ (sched.phase = 1) ∧ (sched.op = 3)
    ∧ (256 ≤ (full256.start 8).f R.HOSTQ_STAT_SCHEDULES) := by decide +kernel
theorem wit_DescriptorsAreCheckedReleasedAndAborted_8 : (((hq [(5, sched)]).start 8800).sealed = true)
    ∧ (((hq [(5, sched)]).start 8800).desc 5 = some sched) ∧ (sched.parent = none) ∧ (sched.dead = false) ∧ (sched.late = false) ∧ (sched.phase = 1)
    ∧ (sched.op = 3) ∧ (((hq [(5, sched)]).start 8800).f R.HOSTQ_STAT_SCHEDULES < 256) := by decide +kernel
def heldSched : HDesc := { sched with phase := 2, held := true, nextM := 2, inner := dBytes 1 0 511 1 }
theorem wit_DescriptorsAreCheckedReleasedAndAborted_9 : (((hq [(5, heldSched)]).start 8).sealed = true)
    ∧ (((hq [(5, heldSched)]).start 8).desc 5 = some heldSched) ∧ (heldSched.held = true) ∧ (heldSched.phase = 2)
    ∧ (heldSched.count = 0 ∨ heldSched.fired < heldSched.count)
    ∧ (ntLe (ntWrap (heldSched.start + ↑heldSched.nextM * heldSched.period) - 1000000) ((hq [(5, heldSched)]).start 8).ntime = true)
    ∧ (((hq [(5, heldSched)]).start 8).desc (((hq [(5, heldSched)]).start 8).freeTag 1024) = none) := by decide +kernel
def abort1 : HDesc := { fn := 1, sq := 30, cid := 3, op := 4, phase := 1, dom := 2, body := [31, 0, 9, 0] }
def target1 (dom phase op : Nat) : HDesc := { fn := 1, sq := 31, cid := 9, op := op, phase := phase, dom := dom }
theorem wit_DescriptorsAreCheckedReleasedAndAborted_10 : (((hq [(5, target1 1 0 1), (6, abort1)]).start 8).sealed = true)
    ∧ (((hq [(5, target1 1 0 1), (6, abort1)]).start 8).desc 6 = some abort1) ∧ (abort1.parent = none) ∧ (abort1.dead = false) ∧ (abort1.late = false)
    ∧ (abort1.phase = 1) ∧ (abort1.op = 4)
    ∧ (List.find? (fun x => x.snd.fn == abort1.fn && x.snd.sq == abort1.num 16 1 && x.snd.cid == abort1.num 18 2 && x.snd.parent.isNone && !x.snd.dead) ((hq [(5, target1 1 0 1), (6, abort1)]).start 8).hostq.descs = some (5, target1 1 0 1))
    ∧ (((hq [(5, target1 1 0 1), (6, abort1)]).start 8).desc 5 = some (target1 1 0 1)) ∧ ((target1 1 0 1).dom ≠ abort1.dom) := by decide +kernel
theorem wit_DescriptorsAreCheckedReleasedAndAborted_11 : (((hq [(5, target1 2 4 1), (6, abort1)]).start 8).sealed = true)
    ∧ (((hq [(5, target1 2 4 1), (6, abort1)]).start 8).desc 6 = some abort1) ∧ (abort1.parent = none) ∧ (abort1.dead = false) ∧ (abort1.late = false)
    ∧ (abort1.phase = 1) ∧ (abort1.op = 4)
    ∧ (List.find? (fun x => x.snd.fn == abort1.fn && x.snd.sq == abort1.num 16 1 && x.snd.cid == abort1.num 18 2 && x.snd.parent.isNone && !x.snd.dead) ((hq [(5, target1 2 4 1), (6, abort1)]).start 8).hostq.descs = some (5, target1 2 4 1))
    ∧ (((hq [(5, target1 2 4 1), (6, abort1)]).start 8).desc 5 = some (target1 2 4 1)) ∧ ((target1 2 4 1).dom = abort1.dom) ∧ ((target1 2 4 1).phase = 4)
    := by decide +kernel
theorem wit_DescriptorsAreCheckedReleasedAndAborted_12 : (((hq [(5, target1 2 3 10), (6, abort1)]).start 8).sealed = true)
    ∧ (((hq [(5, target1 2 3 10), (6, abort1)]).start 8).desc 6 = some abort1) ∧ (abort1.parent = none) ∧ (abort1.dead = false) ∧ (abort1.late = false)
    ∧ (abort1.phase = 1) ∧ (abort1.op = 4)
    ∧ (List.find? (fun x => x.snd.fn == abort1.fn && x.snd.sq == abort1.num 16 1 && x.snd.cid == abort1.num 18 2 && x.snd.parent.isNone && !x.snd.dead) ((hq [(5, target1 2 3 10), (6, abort1)]).start 8).hostq.descs = some (5, target1 2 3 10))
    ∧ (((hq [(5, target1 2 3 10), (6, abort1)]).start 8).desc 5 = some (target1 2 3 10)) ∧ ((target1 2 3 10).dom = abort1.dom)
    ∧ ((target1 2 3 10).phase ≠ 4) ∧ ((target1 2 3 10).cancellable = false) := by decide +kernel
theorem wit_DescriptorsAreCheckedReleasedAndAborted_13 : (((hq [(5, target1 2 0 1), (6, abort1)]).start 8).sealed = true)
    ∧ (((hq [(5, target1 2 0 1), (6, abort1)]).start 8).desc 6 = some abort1) ∧ (abort1.parent = none) ∧ (abort1.dead = false) ∧ (abort1.late = false)
    ∧ (abort1.phase = 1) ∧ (abort1.op = 4)
    ∧ (List.find? (fun x => x.snd.fn == abort1.fn && x.snd.sq == abort1.num 16 1 && x.snd.cid == abort1.num 18 2 && x.snd.parent.isNone && !x.snd.dead) ((hq [(5, target1 2 0 1), (6, abort1)]).start 8).hostq.descs = some (5, target1 2 0 1))
    ∧ (((hq [(5, target1 2 0 1), (6, abort1)]).start 8).desc 5 = some (target1 2 0 1)) ∧ ((target1 2 0 1).dom = abort1.dom) ∧ ((target1 2 0 1).phase ≠ 4)
    ∧ ((target1 2 0 1).cancellable = true) := by decide +kernel
theorem wit_DescriptorsAreCheckedReleasedAndAborted_14 : (((hq [(6, abort1)]).start 8).sealed = true)
    ∧ (((hq [(6, abort1)]).start 8).desc 6 = some abort1) ∧ (abort1.parent = none) ∧ (abort1.dead = false) ∧ (abort1.late = false) ∧ (abort1.phase = 1)
    ∧ (abort1.op = 4) ∧ (List.find? (fun x => x.snd.fn == abort1.fn && x.snd.sq == abort1.num 16 1 && x.snd.cid == abort1.num 18 2 && x.snd.parent.isNone && !x.snd.dead) ((hq [(6, abort1)]).start 8).hostq.descs = none)
    ∧ (26 = if ((hq [(6, abort1)]).start 8).f R.HOSTQ_SQ_STAT_DOMAIN (abort1.num 16 1) abort1.fn = abort1.dom
    ∧ abort1.num 18 2 ∈ kget [] ((hq [(6, abort1)]).start 8).hostq.done (32 * abort1.fn + abort1.num 16 1) then 2 else 26) := by decide +kernel
def aborted : State := { ring1.setF R.HOSTQ_SQ_STAT_DOMAIN 2 31 1 with hostq := { linkUp := true, bme := 3, descs := [(6, abort1)], done := [(63, [9])] } }
theorem wit_DescriptorsAreCheckedReleasedAndAborted_15 : ((aborted.start 8).sealed = true) ∧ ((aborted.start 8).desc 6 = some abort1)
    ∧ (abort1.parent = none) ∧ (abort1.dead = false) ∧ (abort1.late = false) ∧ (abort1.phase = 1) ∧ (abort1.op = 4)
    ∧ (List.find? (fun x => x.snd.fn == abort1.fn && x.snd.sq == abort1.num 16 1 && x.snd.cid == abort1.num 18 2 && x.snd.parent.isNone && !x.snd.dead) (aborted.start 8).hostq.descs = none)
    ∧ (2 = if (aborted.start 8).f R.HOSTQ_SQ_STAT_DOMAIN (abort1.num 16 1) abort1.fn = abort1.dom
    ∧ abort1.num 18 2 ∈ kget [] (aborted.start 8).hostq.done (32 * abort1.fn + abort1.num 16 1) then 2 else 26) := by decide +kernel
def sp1 : HDesc := { fn := 1, sq := 31, cid := 9, op := 1, phase := 1, target := 511, count := 1, dom := 2, body := [0, 0, 1, 2, 3, 4] }
theorem wit_HandlersAnswerDescriptors_1 : ((((hq [(5, sp1)]).setF R.LOOP_CTX_STAT_STATE 3 511).start 8).sealed = true)
    ∧ ((((hq [(5, sp1)]).setF R.LOOP_CTX_STAT_STATE 3 511).start 8).desc 5 = some sp1) ∧ (sp1.parent = none) ∧ (sp1.dead = false) ∧ (sp1.late = false)
    ∧ (sp1.phase = 1) ∧ (sp1.op = 1)
    ∧ ((((hq [(5, sp1)]).setF R.LOOP_CTX_STAT_STATE 3 511).start 8).ctxState sp1.target = stStopped ∨ (((hq [(5, sp1)]).setF R.LOOP_CTX_STAT_STATE 3 511).start 8).ctxState sp1.target = stFaulted)
    := by decide +kernel
def fell : State := { hq [(5, sp1)] with loop := { ctx := [(511, { fallback := 2, desc := { params := [spParam] } })] } }
theorem wit_HandlersAnswerDescriptors_2 : ((fell.start 8).sealed = true) ∧ ((fell.start 8).desc 5 = some sp1) ∧ (sp1.parent = none)
    ∧ (sp1.dead = false) ∧ (sp1.late = false) ∧ (sp1.phase = 1) ∧ (sp1.op = 1)
    ∧ (¬((fell.start 8).ctxState sp1.target = stStopped ∨ (fell.start 8).ctxState sp1.target = stFaulted))
    ∧ (((fell.start 8).ctx sp1.target).fallback ≠ 0)
    ∧ (((fell.start 8).ctx sp1.target).writesSetpoint (List.map (fun i => (sp1.num (16 + 6 * i) 2, nw (sp1.num (18 + 6 * i) 4))) (List.range sp1.count)) = true)
    := by decide +kernel
theorem wit_HandlersAnswerDescriptors_3 : (((hq [(5, sp1)]).start 8).sealed = true) ∧ (((hq [(5, sp1)]).start 8).desc 5 = some sp1)
    ∧ (sp1.parent = none) ∧ (sp1.dead = false) ∧ (sp1.late = false) ∧ (sp1.phase = 1) ∧ (sp1.op = 1)
    ∧ (¬(((hq [(5, sp1)]).start 8).ctxState sp1.target = stStopped ∨ ((hq [(5, sp1)]).start 8).ctxState sp1.target = stFaulted))
    ∧ ((((hq [(5, sp1)]).start 8).ctx sp1.target).fallback = 0) := by decide +kernel
def ptx (kind : Nat) : HDesc := { fn := 1, sq := 31, cid := 9, op := 2, phase := 1, target := 511, count := 1, dom := 2, body := List.replicate 8 0 ++ [BitVec.ofNat 8 kind] }
theorem wit_HandlersAnswerDescriptors_4 : (((hq [(5, ptx 1)]).start 8).sealed = true) ∧ (((hq [(5, ptx 1)]).start 8).desc 5 = some (ptx 1))
    ∧ ((ptx 1).parent = none) ∧ ((ptx 1).dead = false) ∧ ((ptx 1).late = false) ∧ ((ptx 1).phase = 1) ∧ ((ptx 1).op = 2) ∧ ((ptx 1).num 24 1 < 2)
    := by decide +kernel
theorem wit_HandlersAnswerDescriptors_5 : ((((hq [(5, ptx 0)]).setF R.LOOP_CTX_STAT_STATE 0 511).start 8).sealed = true)
    ∧ ((((hq [(5, ptx 0)]).setF R.LOOP_CTX_STAT_STATE 0 511).start 8).desc 5 = some (ptx 0)) ∧ ((ptx 0).parent = none) ∧ ((ptx 0).dead = false)
    ∧ ((ptx 0).late = false) ∧ ((ptx 0).phase = 1) ∧ ((ptx 0).op = 2) ∧ ((ptx 0).num 24 1 = 0)
    ∧ ((((hq [(5, ptx 0)]).setF R.LOOP_CTX_STAT_STATE 0 511).start 8).ctxState (ptx 0).target = stStopped ∨ (((hq [(5, ptx 0)]).setF R.LOOP_CTX_STAT_STATE 0 511).start 8).ctxState (ptx 0).target = stFaulted)
    := by decide +kernel
theorem wit_HandlersAnswerDescriptors_6 : (((hq [(5, ptx 0)]).start 8).sealed = true) ∧ (((hq [(5, ptx 0)]).start 8).desc 5 = some (ptx 0))
    ∧ ((ptx 0).parent = none) ∧ ((ptx 0).dead = false) ∧ ((ptx 0).late = false) ∧ ((ptx 0).phase = 1) ∧ ((ptx 0).op = 2) ∧ ((ptx 0).num 24 1 = 0)
    ∧ (¬(((hq [(5, ptx 0)]).start 8).ctxState (ptx 0).target = stStopped ∨ ((hq [(5, ptx 0)]).start 8).ctxState (ptx 0).target = stFaulted))
    ∧ ((((hq [(5, ptx 0)]).start 8).ctx (ptx 0).target).fallback = 0) := by decide +kernel
theorem wit_HandlersAnswerDescriptors_7 : (((hq [(5, ptx 2)]).start 8).sealed = true) ∧ (((hq [(5, ptx 2)]).start 8).desc 5 = some (ptx 2))
    ∧ ((ptx 2).parent = none) ∧ ((ptx 2).dead = false) ∧ ((ptx 2).late = false) ∧ ((ptx 2).phase = 1) ∧ ((ptx 2).op = 2)
    ∧ ((ptx 2).num 24 1 = 1 ∨ (ptx 2).num 24 1 = 2) ∧ (¬(((hq [(5, ptx 2)]).start 8).sessionOpen (ptx 2).fn = true
    ∧ ((hq [(5, ptx 2)]).start 8).domainOf (ptx 2).fn = domSaf)) ∧ (((hq [(5, ptx 2)]).start 8).room) := by decide +kernel
def telem (phase : Nat) : HDesc :=
  { fn := 1, sq := 31, cid := 9, op := 5, phase := phase, count := 1, dom := 2, body := [0, 16, 0, 0, 0, 0, 0, 0, 0, 16, 0, 0, 100, 0, 0, 0, 0, 32] }
def streams16 : State := hq ((List.range 16).map (fun i => (100 + i, telem 2)) ++ [(500, telem 1)])
theorem wit_HandlersAnswerDescriptors_8 : ((streams16.start 8).sealed = true) ∧ ((streams16.start 8).desc 500 = some (telem 1))
    ∧ ((telem 1).parent = none) ∧ ((telem 1).dead = false) ∧ ((telem 1).late = false) ∧ ((telem 1).phase = 1) ∧ ((telem 1).op = 5)
    ∧ (16 ≤ (List.filter (fun x => x.snd.op == 5 && x.snd.phase == 2 && x.snd.fn == (telem 1).fn) (streams16.start 8).hostq.descs).length)
    := by decide +kernel
theorem wit_HandlersAnswerDescriptors_9 : (((hq [(5, telem 1)]).start 8).sealed = true) ∧ (((hq [(5, telem 1)]).start 8).desc 5 = some (telem 1))
    ∧ ((telem 1).parent = none) ∧ ((telem 1).dead = false) ∧ ((telem 1).late = false) ∧ ((telem 1).phase = 1) ∧ ((telem 1).op = 5)
    ∧ ((List.filter (fun x => x.snd.op == 5 && x.snd.phase == 2 && x.snd.fn == (telem 1).fn) ((hq [(5, telem 1)]).start 8).hostq.descs).length < 16)
    := by decide +kernel
theorem wit_HandlersAnswerDescriptors_10 : (((hq [(5, telem 2)]).start 8).sealed = true) ∧ (((hq [(5, telem 2)]).start 8).desc 5 = some (telem 2))
    ∧ ((telem 2).parent = none) ∧ ((telem 2).dead = false) ∧ ((telem 2).late = false) ∧ ((telem 2).phase = 2) ∧ ((telem 2).op = 5)
    ∧ (((hq [(5, telem 2)]).start 8).busOpen (telem 2).fn = true) ∧ (ntLe (telem 2).nextAt ((hq [(5, telem 2)]).start 8).ntime = true)
    := by decide +kernel
theorem wit_HandlersAnswerDescriptors_11 : (((hq [(5, telem 2)]).start 8).sealed = true) ∧ (((hq [(5, telem 2)]).start 8).desc 5 = some (telem 2))
    ∧ ((telem 2).parent = none) ∧ ((telem 2).dead = false) ∧ ((telem 2).late = false) ∧ ((telem 2).phase = 2) ∧ ((telem 2).op = 5)
    ∧ (((hq [(5, telem 2)]).start 8).busOpen (telem 2).fn = true) ∧ (ntLe (telem 2).nextAt ((hq [(5, telem 2)]).start 8).ntime = true)
    ∧ ((telem 2).count = 1) ∧ ((telem 2).num 40 4 = 0)
    ∧ ((telem 2).bytes % (telem 2).num 24 4 + (recordOf 1000 (telem 2).target (telem 2).recs (false || !((hq [(5, telem 2)]).start 8).itemFed (kget { : TelemItem } ((hq [(5, telem 2)]).start 8).hostq.items (telem 2).target)) (((hq [(5, telem 2)]).start 8).recordBytes (kget { : TelemItem } ((hq [(5, telem 2)]).start 8).hostq.items (telem 2).target) [7])).length ≤ (telem 2).num 24 4)
    := by decide +kernel
def stats (len : Nat) : HDesc := { fn := 1, sq := 31, cid := 9, op := 6, phase := 1, count := 1, dom := 2, body := [0, 16, 0, 0, 0, 0, 0, 0, BitVec.ofNat 8 len] }
theorem wit_HandlersAnswerDescriptors_12 : (((hq [(5, stats 8)]).start 8).sealed = true) ∧ (((hq [(5, stats 8)]).start 8).desc 5 = some (stats 8))
    ∧ ((stats 8).parent = none) ∧ ((stats 8).dead = false) ∧ ((stats 8).late = false) ∧ ((stats 8).phase = 1) ∧ ((stats 8).op = 6)
    ∧ (((hq [(5, stats 8)]).start 8).busOpen (stats 8).fn = true)
    ∧ ((stats 8).num 24 4 < (List.flatMap (fun x => recordOf x.snd.fst ((stats 8).target + x.fst) x.fst (x.snd.snd.fst || !((hq [(5, stats 8)]).start 8).itemFed (kget { : TelemItem } ((hq [(5, stats 8)]).start 8).hostq.items ((stats 8).target + x.fst))) (((hq [(5, stats 8)]).start 8).recordBytes (kget { : TelemItem } ((hq [(5, stats 8)]).start 8).hostq.items ((stats 8).target + x.fst)) x.snd.snd.snd)) ((List.range (stats 8).count).zip [(0, false, [7])])).length)
    := by decide +kernel
theorem wit_HandlersAnswerDescriptors_13 : (((hq [(5, stats 64)]).start 8).sealed = true) ∧ (((hq [(5, stats 64)]).start 8).desc 5 = some (stats 64))
    ∧ ((stats 64).parent = none) ∧ ((stats 64).dead = false) ∧ ((stats 64).late = false) ∧ ((stats 64).phase = 1) ∧ ((stats 64).op = 6)
    ∧ (((hq [(5, stats 64)]).start 8).busOpen (stats 64).fn = true)
    ∧ ((List.flatMap (fun x => recordOf x.snd.fst ((stats 64).target + x.fst) x.fst (x.snd.snd.fst || !((hq [(5, stats 64)]).start 8).itemFed (kget { : TelemItem } ((hq [(5, stats 64)]).start 8).hostq.items ((stats 64).target + x.fst))) (((hq [(5, stats 64)]).start 8).recordBytes (kget { : TelemItem } ((hq [(5, stats 64)]).start 8).hostq.items ((stats 64).target + x.fst)) x.snd.snd.snd)) ((List.range (stats 64).count).zip [(0, false, [7])])).length ≤ (stats 64).num 24 4)
    := by decide +kernel
theorem wit_HandlersAnswerDescriptors_14 : (((hq [(5, stats 64)]).start 8).sealed = true) ∧ (((hq [(5, stats 64)]).start 8).desc 5 = some (stats 64))
    ∧ ((stats 64).parent = none) ∧ ((stats 64).dead = false) ∧ ((stats 64).late = false) ∧ ((stats 64).phase = 1) ∧ ((stats 64).op = 6)
    ∧ (((hq [(5, stats 64)]).start 8).busOpen (stats 64).fn = true)
    ∧ ((List.flatMap (fun x => recordOf x.snd.fst ((stats 64).target + x.fst) x.fst (x.snd.snd.fst || !((hq [(5, stats 64)]).start 8).itemFed (kget { : TelemItem } ((hq [(5, stats 64)]).start 8).hostq.items ((stats 64).target + x.fst))) (((hq [(5, stats 64)]).start 8).recordBytes (kget { : TelemItem } ((hq [(5, stats 64)]).start 8).hostq.items ((stats 64).target + x.fst)) x.snd.snd.snd)) ((List.range (stats 64).count).zip [(0, false, [7])])).length ≤ (stats 64).num 24 4)
    := by decide +kernel
def logf : HDesc := { fn := 1, sq := 31, cid := 9, op := 7, phase := 1, count := 1, dom := 2, body := [0, 16] }
def logSt : State := { hq [(5, logf)] with sys := { log := [{ seq := 1, ntime := 0, cls := 1, code := 1, subject := 0, flags := 0, w0 := 0, w1 := 0 }], nextSeq := 2 } }
theorem wit_HandlersAnswerDescriptors_15 : ((logSt.start 8).sealed = true) ∧ ((logSt.start 8).desc 5 = some logf) ∧ (logf.parent = none)
    ∧ (logf.dead = false) ∧ (logf.late = false) ∧ (logf.phase = 1) ∧ (logf.op = 7) ∧ (logf.target = 0) ∧ ((logSt.start 8).busOpen logf.fn = true)
    := by decide +kernel
theorem wit_HandlersAnswerDescriptors_16 : ((logSt.start 8).sealed = true) ∧ ((logSt.start 8).desc 5 = some logf) ∧ (logf.parent = none)
    ∧ (logf.dead = false) ∧ (logf.late = false) ∧ (logf.phase = 1) ∧ (logf.op = 7) ∧ (logf.target = 0) ∧ ((logSt.start 8).busOpen logf.fn = true)
    := by decide +kernel
def cantx (count fdf : Nat) : HDesc := { fn := 1, sq := 31, cid := 9, op := 8, phase := 1, target := 255, count := count, dom := 2, body := [0, 0, 0, 0, BitVec.ofNat 8 fdf] }
def canSt (d : HDesc) : State :=
  { (((((hq [(5, d)]).setB R.CAN_OBJ_CFG_DIR true 255).setB R.CAN_OBJ_CFG_FDF_OK true 255).setB R.CAN_CFG_FD_EN true 3).setF R.CAN_OBJ_CFG_ROUTER 1 255).setF R.CAN_OBJ_CFG_LK 0 255 with sea := { roles := [(16, 4)] } }
theorem wit_HandlersAnswerDescriptors_17 : (((hq [(5, cantx 8 0)]).start 8).sealed = true)
    ∧ (((hq [(5, cantx 8 0)]).start 8).desc 5 = some (cantx 8 0)) ∧ ((cantx 8 0).parent = none) ∧ ((cantx 8 0).dead = false) ∧ ((cantx 8 0).late = false)
    ∧ ((cantx 8 0).phase = 1) ∧ ((cantx 8 0).op = 8) ∧ (((hq [(5, cantx 8 0)]).start 8).canBadField (cantx 8 0) = some 8) := by decide +kernel
theorem wit_HandlersAnswerDescriptors_18 : (((canSt (cantx 48 1)).start 8).sealed = true)
    ∧ (((canSt (cantx 48 1)).start 8).desc 5 = some (cantx 48 1)) ∧ ((cantx 48 1).parent = none) ∧ ((cantx 48 1).dead = false)
    ∧ ((cantx 48 1).late = false) ∧ ((cantx 48 1).phase = 1) ∧ ((cantx 48 1).op = 8) ∧ (((canSt (cantx 48 1)).start 8).canBadField (cantx 48 1) = none)
    ∧ (32 < (cantx 48 1).count) := by decide +kernel
theorem wit_HandlersAnswerDescriptors_19 : (((canSt (cantx 8 0)).start 8).sealed = true) ∧ (((canSt (cantx 8 0)).start 8).desc 5 = some (cantx 8 0))
    ∧ ((cantx 8 0).parent = none) ∧ ((cantx 8 0).dead = false) ∧ ((cantx 8 0).late = false) ∧ ((cantx 8 0).phase = 1) ∧ ((cantx 8 0).op = 8)
    ∧ (((canSt (cantx 8 0)).start 8).canBadField (cantx 8 0) = none) := by decide +kernel
def nettx : HDesc := { fn := 1, sq := 31, cid := 9, op := 9, phase := 1, target := 15, count := 60, dom := 2 }
theorem wit_HandlersAnswerDescriptors_20 : (((hq [(5, nettx)]).start 8).sealed = true) ∧ (((hq [(5, nettx)]).start 8).desc 5 = some nettx)
    ∧ (nettx.parent = none) ∧ (nettx.dead = false) ∧ (nettx.late = false) ∧ (nettx.phase = 1) ∧ (nettx.op = 9) := by decide +kernel
theorem wit_HandlersAnswerDescriptors_21 : (((hq [(5, nettx)]).start 8).sealed = true) ∧ (((hq [(5, nettx)]).start 8).desc 5 = some nettx)
    ∧ (nettx.parent = none) ∧ (nettx.dead = false) ∧ (nettx.late = false) ∧ (nettx.phase = 1) ∧ (nettx.op = 9) := by decide +kernel
def migr (pod mask : Nat) : HDesc := { fn := 1, sq := 31, cid := 9, op := 10, phase := 1, target := 511, dom := 1, body := [BitVec.ofNat 8 pod, 0, BitVec.ofNat 8 mask, 0] }
def migSt (d : HDesc) (role : Nat) (mig : Option MigSt) (st : Nat) : State :=
  { loopOn ((hq [(5, d)]).setF R.LOOP_CTX_STAT_STATE st 511) with
    sea := { roles := [(16, 2), (17, role)] }, rel := { backing := [(16, 16), (17, 17)] }, loop := { ctx := [(511, {})], mig := mig } }
theorem wit_HandlersAnswerDescriptors_22 : (((migSt (migr 1 3) 0 none 1).start 8).sealed = true)
    ∧ (((migSt (migr 1 3) 0 none 1).start 8).desc 5 = some (migr 1 3)) ∧ ((migr 1 3).parent = none) ∧ ((migr 1 3).dead = false)
    ∧ ((migr 1 3).late = false) ∧ ((migr 1 3).phase = 1) ∧ ((migr 1 3).op = 10)
    ∧ (((migSt (migr 1 3) 0 none 1).start 8).migWanted (migr 1 3).target ((migr 1 3).num 16 1) ((migr 1 3).num 18 2) = none) := by decide +kernel
def wants : MigSt := { ctx := 511, srcPod := 1, srcMask := 1, dstPod := 1, dstMask := 2 }
theorem wit_HandlersAnswerDescriptors_23 : (((migSt (migr 1 2) 0 (some { : MigSt }) 1).start 8).sealed = true)
    ∧ (((migSt (migr 1 2) 0 (some { : MigSt }) 1).start 8).desc 5 = some (migr 1 2)) ∧ ((migr 1 2).parent = none) ∧ ((migr 1 2).dead = false)
    ∧ ((migr 1 2).late = false) ∧ ((migr 1 2).phase = 1) ∧ ((migr 1 2).op = 10)
    ∧ (((migSt (migr 1 2) 0 (some { : MigSt }) 1).start 8).migWanted (migr 1 2).target ((migr 1 2).num 16 1) ((migr 1 2).num 18 2) = some wants)
    ∧ (((migSt (migr 1 2) 0 (some { : MigSt }) 1).start 8).loop.mig ≠ none) := by decide +kernel
theorem wit_HandlersAnswerDescriptors_24 : (((migSt (migr 1 2) 2 none 1).start 8).sealed = true)
    ∧ (((migSt (migr 1 2) 2 none 1).start 8).desc 5 = some (migr 1 2)) ∧ ((migr 1 2).parent = none) ∧ ((migr 1 2).dead = false)
    ∧ ((migr 1 2).late = false) ∧ ((migr 1 2).phase = 1) ∧ ((migr 1 2).op = 10)
    ∧ (((migSt (migr 1 2) 2 none 1).start 8).migWanted (migr 1 2).target ((migr 1 2).num 16 1) ((migr 1 2).num 18 2) = some wants)
    ∧ (((migSt (migr 1 2) 2 none 1).start 8).loop.mig = none) ∧ (((migSt (migr 1 2) 2 none 1).start 8).migFit wants = false) := by decide +kernel
theorem wit_HandlersAnswerDescriptors_25 : (((migSt (migr 1 2) 0 none 3).start 8).sealed = true)
    ∧ (((migSt (migr 1 2) 0 none 3).start 8).desc 5 = some (migr 1 2)) ∧ ((migr 1 2).parent = none) ∧ ((migr 1 2).dead = false)
    ∧ ((migr 1 2).late = false) ∧ ((migr 1 2).phase = 1) ∧ ((migr 1 2).op = 10)
    ∧ (((migSt (migr 1 2) 0 none 3).start 8).migWanted (migr 1 2).target ((migr 1 2).num 16 1) ((migr 1 2).num 18 2) = some wants)
    ∧ (((migSt (migr 1 2) 0 none 3).start 8).migFit wants = true) ∧ (((migSt (migr 1 2) 0 none 3).start 8).loop.mig = none)
    ∧ (((migSt (migr 1 2) 0 none 3).start 8).ctxState (migr 1 2).target = stStopped ∨ ((migSt (migr 1 2) 0 none 3).start 8).ctxState (migr 1 2).target = stFaulted)
    := by decide +kernel
theorem wit_HandlersAnswerDescriptors_26 : (((migSt (migr 1 2) 0 none 1).start 8).sealed = true)
    ∧ (((migSt (migr 1 2) 0 none 1).start 8).desc 5 = some (migr 1 2)) ∧ ((migr 1 2).parent = none) ∧ ((migr 1 2).dead = false)
    ∧ ((migr 1 2).late = false) ∧ ((migr 1 2).phase = 1) ∧ ((migr 1 2).op = 10)
    ∧ (((migSt (migr 1 2) 0 none 1).start 8).migWanted (migr 1 2).target ((migr 1 2).num 16 1) ((migr 1 2).num 18 2) = some wants)
    ∧ (((migSt (migr 1 2) 0 none 1).start 8).migFit wants = true) ∧ (((migSt (migr 1 2) 0 none 1).start 8).loop.mig = none)
    ∧ (¬(((migSt (migr 1 2) 0 none 1).start 8).ctxState (migr 1 2).target = stStopped ∨ ((migSt (migr 1 2) 0 none 1).start 8).ctxState (migr 1 2).target = stFaulted))
    ∧ (((migSt (migr 1 2) 0 none 1).start 8).room) := by decide +kernel
def beat : HDesc := { fn := 1, sq := 31, cid := 9, op := 11, phase := 1 }
theorem wit_HandlersAnswerDescriptors_27 : (((hq [(5, beat)]).start 8).sealed = true) ∧ (((hq [(5, beat)]).start 8).desc 5 = some beat)
    ∧ (beat.parent = none) ∧ (beat.dead = false) ∧ (beat.late = false) ∧ (beat.phase = 1) ∧ (beat.op = 11) ∧ (beat.fn < 2) := by decide +kernel
def netDown : State := (live.setB R.NET_CTL_EN true).setB R.NET_PORT_CFG_EN true 1
theorem wit_FramesLaunchAndLinksChange_1 : ((netDown.start 8).sealed = true) ∧ (1 < 2) ∧ (3 < 4) ∧ ((netDown.start 8).b R.NET_CTL_EN = true)
    ∧ ((netDown.start 8).b R.NET_PORT_CFG_EN 1 = true) ∧ ((netDown.start 8).b R.NET_PORT_STAT_LINK 1 = false) ∧ ((netDown.start 8).room)
    := by decide +kernel
def busyNet : NetSt := { ports := [(1, { ptpOut := [1], mkaOut := [[1]], best := [{}], busy := some (1, 2, 80) })], lq := [(8, [{}]), (3, [{}])] }
theorem wit_FramesLaunchAndLinksChange_2 : (((netUp busyNet).start 8).sealed = true) ∧ (1 < 2)
    ∧ (((netUp busyNet).start 8).b R.NET_PORT_STAT_LINK 1 = true) ∧ (((netUp busyNet).start 8).room) := by decide +kernel
def fr (launch : Int) (late drop : Bool) : NetFrame := { launch := launch, late := late, lateDrop := drop, bytes := List.replicate 60 1 }
theorem wit_FramesLaunchAndLinksChange_3 : (((netUp { lq := [(15, [fr 2 false false, fr 3 false false])] : NetSt }).start 8).sealed = true)
    ∧ (15 < 16) ∧ (((netUp { lq := [(15, [fr 2 false false, fr 3 false false])] : NetSt }).start 8).lqOf 15 = [fr 2 false false, fr 3 false false])
    ∧ (((netUp { lq := [(15, [fr 2 false false, fr 3 false false])] : NetSt }).start 8).b R.NET_LQ_CFG_EN 15 = true)
    ∧ (((netUp { lq := [(15, [fr 2 false false, fr 3 false false])] : NetSt }).start 8).portUp (15 / 8) = true)
    ∧ (((netUp { lq := [(15, [fr 2 false false, fr 3 false false])] : NetSt }).start 8).portFast (15 / 8) = true)
    ∧ (((netUp { lq := [(15, [fr 2 false false, fr 3 false false])] : NetSt }).start 8).maySend (15 / 8) 0 = true)
    ∧ ((((netUp { lq := [(15, [fr 2 false false, fr 3 false false])] : NetSt }).start 8).port (15 / 8)).busy = none)
    ∧ ((fr 2 false false).late = true ∨ ntLe (fr 2 false false).launch ((netUp { lq := [(15, [fr 2 false false, fr 3 false false])] : NetSt }).start 8).ntime = true
    ∧ ntLe ((netUp { lq := [(15, [fr 2 false false, fr 3 false false])] : NetSt }).start 8).ntime ((fr 2 false false).launch + ↑(((netUp { lq := [(15, [fr 2 false false, fr 3 false false])] : NetSt }).start 8).f R.NET_LQ_CFG_LATE_TOL 15) * 8) = true)
    ∧ (∀ (r : Nat), r / 8 = 15 / 8 → r < 15 → ((netUp { lq := [(15, [fr 2 false false, fr 3 false false])] : NetSt }).start 8).lqDue r = false)
    := ⟨by decide +kernel, by decide +kernel, by decide +kernel, by decide +kernel, by decide +kernel, by decide +kernel, by decide +kernel,
    by decide +kernel, by (exact Or.inr (by decide +kernel)),
    by (intro r h1 h2; exact (by decide +kernel : ∀ x < 15, x / 8 = 15 / 8 → ((netUp { lq := [(15, [fr 2 false false, fr 3 false false])] }).start 8).lqDue x = false) r h2 h1)⟩
theorem wit_FramesLaunchAndLinksChange_4 : (((netUp { lq := [(8, [fr 9 true false])] : NetSt }).start 8).sealed = true) ∧ (8 < 16)
    ∧ (((netUp { lq := [(8, [fr 9 true false])] : NetSt }).start 8).lqOf 8 = [fr 9 true false])
    ∧ (((netUp { lq := [(8, [fr 9 true false])] : NetSt }).start 8).b R.NET_LQ_CFG_EN 8 = true)
    ∧ (((netUp { lq := [(8, [fr 9 true false])] : NetSt }).start 8).portUp (8 / 8) = true)
    ∧ (((netUp { lq := [(8, [fr 9 true false])] : NetSt }).start 8).portFast (8 / 8) = true)
    ∧ (((netUp { lq := [(8, [fr 9 true false])] : NetSt }).start 8).maySend (8 / 8) 0 = true)
    ∧ ((((netUp { lq := [(8, [fr 9 true false])] : NetSt }).start 8).port (8 / 8)).busy = none)
    ∧ ((fr 9 true false).late = true ∨ ntLe (fr 9 true false).launch ((netUp { lq := [(8, [fr 9 true false])] : NetSt }).start 8).ntime = true
    ∧ ntLe ((netUp { lq := [(8, [fr 9 true false])] : NetSt }).start 8).ntime ((fr 9 true false).launch + ↑(((netUp { lq := [(8, [fr 9 true false])] : NetSt }).start 8).f R.NET_LQ_CFG_LATE_TOL 8) * 8) = true)
    ∧ (∀ (r : Nat), r / 8 = 8 / 8 → r < 8 → ((netUp { lq := [(8, [fr 9 true false])] : NetSt }).start 8).lqDue r = false) := ⟨by decide +kernel,
    by decide +kernel, by decide +kernel, by decide +kernel, by decide +kernel, by decide +kernel, by decide +kernel, by decide +kernel,
    by (exact Or.inl rfl),
    by (intro r h1 h2; exact (by decide +kernel : ∀ x < 8, x / 8 = 8 / 8 → ((netUp { lq := [(8, [fr 9 true false])] }).start 8).lqDue x = false) r h2 h1)⟩
theorem wit_FramesLaunchAndLinksChange_5 : (((netUp { lq := [(15, [fr 1 false true, fr 1 false false, fr 2 false true])] : NetSt }).start 8).sealed = true)
    ∧ (15 < 16) := by decide +kernel
def portSt (p : PortSt) : State :=
  (((netUp { ports := [(1, p)] }).setB R.NET_CTL_PTP_EN true).setB R.NET_PORT_CFG_PTP true 1).setB R.NET_PTP_CFG_BC true
theorem wit_FramesLaunchAndLinksChange_6 : (((portSt { busy := some (0, 0, 8) : PortSt }).start 8).sealed = true) ∧ (1 < 2)
    ∧ ((((portSt { busy := some (0, 0, 8) : PortSt }).start 8).port 1).busy = some (0, 0, 8))
    ∧ (8 ≤ ((portSt { busy := some (0, 0, 8) : PortSt }).start 8).now) ∧ (0 = 1 → 0 ≠ 0 ∧ 0 ≠ 6)
    ∧ ((((portSt { busy := some (0, 0, 8) : PortSt }).start 8).port 1).ptpOut = [])
    ∧ ((((portSt { busy := some (0, 0, 8) : PortSt }).start 8).port 1).mkaOut = [])
    ∧ ((((portSt { busy := some (0, 0, 8) : PortSt }).start 8).port 1).best = []) := by decide +kernel
theorem wit_FramesLaunchAndLinksChange_7 : (((portSt { ptpOut := [1, 3], mkaOut := [[7]], busy := some (1, 1, 8) : PortSt }).start 8).sealed = true)
    ∧ (1 < 2) ∧ ((((portSt { ptpOut := [1, 3], mkaOut := [[7]], busy := some (1, 1, 8) : PortSt }).start 8).port 1).busy = some (1, 1, 8))
    ∧ (8 ≤ ((portSt { ptpOut := [1, 3], mkaOut := [[7]], busy := some (1, 1, 8) : PortSt }).start 8).now) ∧ (1 = 1 → 1 ≠ 0 ∧ 1 ≠ 6)
    ∧ ((((portSt { ptpOut := [1, 3], mkaOut := [[7]], busy := some (1, 1, 8) : PortSt }).start 8).port 1).ptpOut = [1, 3])
    ∧ (((portSt { ptpOut := [1, 3], mkaOut := [[7]], busy := some (1, 1, 8) : PortSt }).start 8).ptpOn 1 = true)
    ∧ (((portSt { ptpOut := [1, 3], mkaOut := [[7]], busy := some (1, 1, 8) : PortSt }).start 8).maySend 1 1 = true)
    ∧ (((portSt { ptpOut := [1, 3], mkaOut := [[7]], busy := some (1, 1, 8) : PortSt }).start 8).launchNear 1 (((portSt { ptpOut := [1, 3], mkaOut := [[7]], busy := some (1, 1, 8) : PortSt }).start 8).frameTime 1 (((portSt { ptpOut := [1, 3], mkaOut := [[7]], busy := some (1, 1, 8) : PortSt }).start 8).ptpLen 1)) = false)
    := by decide +kernel
theorem wit_FramesLaunchAndLinksChange_8 : (((portSt { mkaOut := [[7], [8]], best := [{ : NetFrame }], busy := some (2, 0, 8) : PortSt }).start 8).sealed = true)
    ∧ (1 < 2) ∧ ((((portSt { mkaOut := [[7], [8]], best := [{ : NetFrame }], busy := some (2, 0, 8) : PortSt }).start 8).port 1).busy = some (2, 0, 8))
    ∧ (8 ≤ ((portSt { mkaOut := [[7], [8]], best := [{ : NetFrame }], busy := some (2, 0, 8) : PortSt }).start 8).now) ∧ (2 = 1 → 0 ≠ 0 ∧ 0 ≠ 6)
    ∧ ((((portSt { mkaOut := [[7], [8]], best := [{ : NetFrame }], busy := some (2, 0, 8) : PortSt }).start 8).port 1).ptpOut = [])
    ∧ ((((portSt { mkaOut := [[7], [8]], best := [{ : NetFrame }], busy := some (2, 0, 8) : PortSt }).start 8).port 1).mkaOut = [[7], [8]])
    ∧ (((portSt { mkaOut := [[7], [8]], best := [{ : NetFrame }], busy := some (2, 0, 8) : PortSt }).start 8).portUp 1 = true)
    ∧ (((portSt { mkaOut := [[7], [8]], best := [{ : NetFrame }], busy := some (2, 0, 8) : PortSt }).start 8).launchNear 1 (((portSt { mkaOut := [[7], [8]], best := [{ : NetFrame }], busy := some (2, 0, 8) : PortSt }).start 8).frameTime 1 [7].length) = false)
    := by decide +kernel
def etherBytes : List Byte := List.replicate 12 0 ++ [0x88, 0x99] ++ List.replicate 60 7
theorem wit_FramesLaunchAndLinksChange_9 : (((netUp { : NetSt }).start 8).sealed = true) ∧ (((netUp { : NetSt }).start 8).portUp 1 = true)
    ∧ (true = false ∨ (List.replicate 59 0).length < 60 ∨ 1518 < (List.replicate 59 0).length) := by decide +kernel
def secured (replay : Nat) (px : List (Nat × Nat)) : State := { ((netUp { ports := [(1, { rxPn := px })] }).setB R.NET_PORT_CFG_MSEC true 1).setF R.NET_PORT_CFG_REPLAY_WIN replay 1 with fresh := [] }
theorem wit_FramesLaunchAndLinksChange_10 : (((secured 0 []).start 8).sealed = true) ∧ (((secured 0 []).start 8).portUp 1 = true) ∧ (true = true)
    ∧ (60 ≤ etherBytes.length) ∧ (etherBytes.length ≤ 1518) ∧ (isTag (frameType etherBytes) = false) ∧ (frameType etherBytes ≠ 34958)
    ∧ (frameType etherBytes ≠ 34824) ∧ (ptpStart (((secured 0 []).start 8).b R.NET_PTP_CFG_UDP) etherBytes = none)
    ∧ (((secured 0 []).start 8).b R.NET_PORT_CFG_MSEC 1 = true) ∧ ((∃ g : SecTag, none = some g
    ∧ (g.icv = false ∨ g.pn + ((secured 0 []).start 8).f R.NET_PORT_CFG_REPLAY_WIN 1 < kget 0 (((secured 0 []).start 8).port 1).rxPn (4 * g.sc + g.an))) ∨ (none : Option SecTag) = none
    ∧ ((secured 0 []).start 8).f R.NET_PORT_CFG_VALIDATE 1 ≠ 1) := ⟨by decide +kernel, by decide +kernel, by decide +kernel, by decide +kernel,
    by decide +kernel, by decide +kernel, by decide +kernel, by decide +kernel, by decide +kernel, by decide +kernel,
    by (exact Or.inr (by decide +kernel))⟩
theorem wit_FramesLaunchAndLinksChange_11 : (((secured 5 [(15, 9)]).start 8).sealed = true) ∧ (((secured 5 [(15, 9)]).start 8).portUp 1 = true)
    ∧ (true = true) ∧ (60 ≤ etherBytes.length) ∧ (etherBytes.length ≤ 1518) ∧ (isTag (frameType etherBytes) = false) ∧ (frameType etherBytes ≠ 34958)
    ∧ (frameType etherBytes ≠ 34824) ∧ (ptpStart (((secured 5 [(15, 9)]).start 8).b R.NET_PTP_CFG_UDP) etherBytes = none)
    ∧ (((secured 5 [(15, 9)]).start 8).b R.NET_PORT_CFG_MSEC 1 = true) ∧ ((∃ g : SecTag, some { sc := 3, an := 3, pn := 3 : SecTag } = some g
    ∧ (g.icv = false ∨ g.pn + ((secured 5 [(15, 9)]).start 8).f R.NET_PORT_CFG_REPLAY_WIN 1 < kget 0 (((secured 5 [(15, 9)]).start 8).port 1).rxPn (4 * g.sc + g.an))) ∨ some { sc := 3, an := 3, pn := 3 : SecTag } = none
    ∧ ((secured 5 [(15, 9)]).start 8).f R.NET_PORT_CFG_VALIDATE 1 ≠ 1) := ⟨by decide +kernel, by decide +kernel, by decide +kernel, by decide +kernel,
    by decide +kernel, by decide +kernel, by decide +kernel, by decide +kernel, by decide +kernel, by decide +kernel,
    by (exact Or.inl ⟨_, rfl, Or.inr (by decide +kernel)⟩)⟩
def filtered (s : State) : State := ((((s.setB R.NET_RXF_EN true 15).setF R.NET_RXF_PORTS 2 15).setF R.NET_RXF_ETYPE 0x8899 15).setF R.NET_RXF_DST_ROUTER 1 15)
theorem wit_FramesLaunchAndLinksChange_12 : (((filtered (netUp { : NetSt })).start 8).sealed = true)
    ∧ (((filtered (netUp { : NetSt })).start 8).portUp 1 = true) ∧ (60 ≤ etherBytes.length) ∧ (etherBytes.length ≤ 1518)
    ∧ (isTag (frameType etherBytes) = false) ∧ (frameType etherBytes ≠ 34958) ∧ (frameType etherBytes ≠ 34824)
    ∧ (ptpStart (((filtered (netUp { : NetSt })).start 8).b R.NET_PTP_CFG_UDP) etherBytes = none)
    ∧ (((filtered (netUp { : NetSt })).start 8).b R.NET_PORT_CFG_MSEC 1 = false)
    ∧ (((filtered (netUp { : NetSt })).start 8).rxFilter 1 (frameType etherBytes) (frameVid etherBytes) = some 15) := by decide +kernel
theorem wit_FramesLaunchAndLinksChange_13 : (((filtered (secured 5 [(15, 9)])).start 8).sealed = true)
    ∧ (((filtered (secured 5 [(15, 9)])).start 8).portUp 1 = true) ∧ (60 ≤ etherBytes.length) ∧ (etherBytes.length ≤ 1518)
    ∧ (isTag (frameType etherBytes) = false) ∧ (frameType etherBytes ≠ 34958) ∧ (frameType etherBytes ≠ 34824)
    ∧ (ptpStart (((filtered (secured 5 [(15, 9)])).start 8).b R.NET_PTP_CFG_UDP) etherBytes = none)
    ∧ (((filtered (secured 5 [(15, 9)])).start 8).b R.NET_PORT_CFG_MSEC 1 = true) ∧ ({ sc := 3, an := 3, pn := 4 : SecTag }.icv = true)
    ∧ ({ sc := 3, an := 3, pn := 4 : SecTag }.sc < 4) ∧ ({ sc := 3, an := 3, pn := 4 : SecTag }.an < 4) ∧ (0 < { sc := 3, an := 3, pn := 4 : SecTag }.pn)
    ∧ ({ sc := 3, an := 3, pn := 4 : SecTag }.pn < 2 ^ 32)
    ∧ (kget 0 (((filtered (secured 5 [(15, 9)])).start 8).port 1).rxPn (4 * { sc := 3, an := 3, pn := 4 : SecTag }.sc + { sc := 3, an := 3, pn := 4 : SecTag }.an) ≤ { sc := 3, an := 3, pn := 4 : SecTag }.pn + ((filtered (secured 5 [(15, 9)])).start 8).f R.NET_PORT_CFG_REPLAY_WIN 1)
    ∧ (((filtered (secured 5 [(15, 9)])).start 8).rxFilter 1 (frameType etherBytes) (frameVid etherBytes) = some 15) := by decide +kernel
theorem wit_FramesLaunchAndLinksChange_14 : (((netUp { : NetSt }).start 8).sealed = true) ∧ (((netUp { : NetSt }).start 8).portUp 1 = true)
    ∧ (60 ≤ etherBytes.length) ∧ (etherBytes.length ≤ 1518) ∧ (isTag (frameType etherBytes) = false) ∧ (frameType etherBytes ≠ 34958)
    ∧ (frameType etherBytes ≠ 34824) ∧ (ptpStart (((netUp { : NetSt }).start 8).b R.NET_PTP_CFG_UDP) etherBytes = none)
    ∧ (((netUp { : NetSt }).start 8).b R.NET_PORT_CFG_MSEC 1 = false)
    ∧ (((netUp { : NetSt }).start 8).rxFilter 1 (frameType etherBytes) (frameVid etherBytes) = none) := by decide +kernel
def txWords (q len : Nat) (launch : Nat) : List Word := [nw (q * 65536 + 2 ^ 25 + len), nw launch, 0, 0, 7]
theorem wit_FramesLaunchAndLinksChange_15 : (((netUp { : NetSt }).start 8).sealed = true) ∧ (1 < 24) ∧ (0 < 15)
    ∧ (((netUp { : NetSt }).start 8).backed (16 * 1 + 0) = true)
    ∧ (((netUp { : NetSt }).start 8).mayPass (16 * 1 + 0) { dst := FlitDst.port 15 0, src := FlitSrc.kernel 1 0, payload := Payload.svcx { sub := 4, tag := 9, domain := 0, first := 0, last := true, words := List.take 5 (txWords 15 3 1) : Svcx } : Flit } = true)
    ∧ (15 = getBits ((txWords 15 3 1).getD 0 0) 20 16) ∧ (3 = getBits ((txWords 15 3 1).getD 0 0) 10 0) ∧ (getBits ((txWords 15 3 1).getD 0 0) 26 25 = 1)
    ∧ ((txWords 15 3 1).length = 4 + (3 + 3) / 4) ∧ (15 < 16) ∧ (((netUp { : NetSt }).start 8).lqRefusal 15 = none) := by decide +kernel
theorem wit_FramesLaunchAndLinksChange_16 : (((netUp { : NetSt }).start 8).sealed = true) ∧ (1 < 24) ∧ (0 < 15)
    ∧ (((netUp { : NetSt }).start 8).backed (16 * 1 + 0) = true)
    ∧ (((netUp { : NetSt }).start 8).mayPass (16 * 1 + 0) { dst := FlitDst.port 15 0, src := FlitSrc.kernel 1 0, payload := Payload.svcx { sub := 4, tag := 9, domain := 0, first := 0, last := true, words := List.take 5 (txWords 14 3 1) : Svcx } : Flit } = true)
    ∧ (14 = getBits ((txWords 14 3 1).getD 0 0) 20 16) ∧ (3 = getBits ((txWords 14 3 1).getD 0 0) 10 0) ∧ (getBits ((txWords 14 3 1).getD 0 0) 26 25 = 1)
    ∧ ((txWords 14 3 1).length = 4 + (3 + 3) / 4) ∧ (14 < 16) ∧ (((netUp { : NetSt }).start 8).lqRefusal 14 ≠ none) := by decide +kernel
def wakeNet (n : NetSt) : State := { live.setB R.PWR_TOK_CFG_WAKE_EN true with net := n }
theorem wit_FramesLaunchAndLinksChange_17 : (((wakeNet { wakeCfg := some (3, 7, 2) : NetSt }).start (2 * secQ)).sealed = true)
    ∧ (((wakeNet { wakeCfg := some (3, 7, 2) : NetSt }).start (2 * secQ)).net.wakeW = none)
    ∧ (((wakeNet { wakeCfg := some (3, 7, 2) : NetSt }).start (2 * secQ)).net.wakeCfg = some (3, 7, 2))
    ∧ (((wakeNet { wakeCfg := some (3, 7, 2) : NetSt }).start (2 * secQ)).net.porstAt + 2 * secQ ≤ ((wakeNet { wakeCfg := some (3, 7, 2) : NetSt }).start (2 * secQ)).now)
    ∧ (((wakeNet { wakeCfg := some (3, 7, 2) : NetSt }).start (2 * secQ)).room) := by decide +kernel
theorem wit_FramesLaunchAndLinksChange_18 : (((wakeNet { wakeW := some 2 : NetSt }).start 8).sealed = true)
    ∧ (((wakeNet { wakeW := some 2 : NetSt }).start 8).net.wakeW = some 2)
    ∧ (((wakeNet { wakeW := some 2 : NetSt }).start 8).b R.NET_WAKE_STAT_DONE = false)
    ∧ (ntLe 2 ((wakeNet { wakeW := some 2 : NetSt }).start 8).ntime = true) := by decide +kernel
/-- Port 1 runs the time engine in a PTP state, in a time state. -/
def ptp (ps ts : Nat) (n : NetSt) : State :=
  { (((((((netUp {}).setB R.NET_CTL_PTP_EN true).setB R.NET_PORT_CFG_PTP true 1).setB R.NET_PTP_CFG_BC true).setPs 1 ps).setF R.NET_STAT_STATE ts).setF R.NET_SERVO_LIM_SLEW 1000).setF R.NET_SERVO_LIM_LOCK_THR 100 |>.setF R.NET_SERVO_KP 256 |>.setF R.NET_SERVO_KI 4096 with net := n }
theorem wit_TimeEngineFollowsItsMaster_1 : (((ptp 6 2 { : NetSt }).start 8).sealed = true) ∧ (((ptp 6 2 { : NetSt }).start 8).ptpOn 1 = true)
    ∧ (((ptp 6 2 { : NetSt }).start 8).ps 1 = 6) ∧ (((ptp 6 2 { : NetSt }).start 8).timeState ≠ 0) ∧ (((ptp 6 2 { : NetSt }).start 8).timeState ≠ 3)
    := by decide +kernel
theorem wit_TimeEngineFollowsItsMaster_2 : (((ptp 6 1 { integ := 5000 : NetSt }).start 8).sealed = true)
    ∧ (((ptp 6 1 { integ := 5000 : NetSt }).start 8).ptpOn 1 = true) ∧ (((ptp 6 1 { integ := 5000 : NetSt }).start 8).ps 1 = 6)
    ∧ (((ptp 6 1 { integ := 5000 : NetSt }).start 8).timeState ≠ 0) ∧ (((ptp 6 1 { integ := 5000 : NetSt }).start 8).timeState ≠ 3) := by decide +kernel
theorem wit_TimeEngineFollowsItsMaster_3 : (((ptp 6 3 { : NetSt }).start 8).sealed = true) ∧ (((ptp 6 3 { : NetSt }).start 8).ptpOn 1 = true)
    ∧ (((ptp 6 3 { : NetSt }).start 8).ps 1 = 6) ∧ (((ptp 6 3 { : NetSt }).start 8).timeState = 0 ∨ ((ptp 6 3 { : NetSt }).start 8).timeState = 3)
    := by decide +kernel
theorem wit_TimeEngineFollowsItsMaster_4 : (((ptp 6 1 { lockRun := 15 : NetSt }).start 8).sealed = true)
    ∧ (((ptp 6 1 { lockRun := 15 : NetSt }).start 8).ptpOn 1 = true) ∧ (((ptp 6 1 { lockRun := 15 : NetSt }).start 8).ps 1 = 6)
    ∧ (((ptp 6 1 { lockRun := 15 : NetSt }).start 8).timeState = 1) ∧ (((ptp 6 1 { lockRun := 15 : NetSt }).start 8).net.lockRun = 15)
    ∧ (((ptp 6 1 { lockRun := 15 : NetSt }).start 8).ingress 1 100 - 0 - (((ptp 6 1 { lockRun := 15 : NetSt }).start 8).port 1).delay - ((ptp 6 1 { lockRun := 15 : NetSt }).start 8).asym 1 ≤ ↑(((ptp 6 1 { lockRun := 15 : NetSt }).start 8).f R.NET_SERVO_LIM_LOCK_THR))
    ∧ (-↑(((ptp 6 1 { lockRun := 15 : NetSt }).start 8).f R.NET_SERVO_LIM_LOCK_THR) ≤ ((ptp 6 1 { lockRun := 15 : NetSt }).start 8).ingress 1 100 - 0 - (((ptp 6 1 { lockRun := 15 : NetSt }).start 8).port 1).delay - ((ptp 6 1 { lockRun := 15 : NetSt }).start 8).asym 1)
    := by decide +kernel
theorem wit_TimeEngineFollowsItsMaster_5 : (((ptp 6 2 { run := 3, integ := 5 : NetSt }).start 8).sealed = true)
    ∧ (((ptp 6 2 { run := 3, integ := 5 : NetSt }).start 8).ptpOn 1 = true) ∧ (((ptp 6 2 { run := 3, integ := 5 : NetSt }).start 8).ps 1 = 6)
    ∧ (((ptp 6 2 { run := 3, integ := 5 : NetSt }).start 8).timeState = 1 ∨ ((ptp 6 2 { run := 3, integ := 5 : NetSt }).start 8).timeState = 2)
    ∧ (((ptp 6 2 { run := 3, integ := 5 : NetSt }).start 8).net.step = none) ∧ (((ptp 6 2 { run := 3, integ := 5 : NetSt }).start 8).net.run = 3)
    ∧ (1000 ≤ ((ptp 6 2 { run := 3, integ := 5 : NetSt }).start 8).ingress 1 3000 - 0 - (((ptp 6 2 { run := 3, integ := 5 : NetSt }).start 8).port 1).delay - ((ptp 6 2 { run := 3, integ := 5 : NetSt }).start 8).asym 1)
    := by decide +kernel
def announcer : Announce := { prio1 := 1, gm := Config.clockIdentity 0 + 1, src := Config.clockIdentity 0 + 1, srcPort := 1 }
def heard : State := (ptp 5 1 { ports := [(1, { foreign := [(announcer, 8, none)] })] }).setF R.NET_PTP_DS_PRIORITY1 128 |>.setF R.NET_PTP_DS_CLASS 248
theorem other_clock : announcer.src ≠ (heard.start 16).clockId := by
  have h : (heard.start 16).macOf 0 = 0 := by decide +kernel
  rw [State.clockId, h]; exact Nat.succ_ne_self _
theorem wit_TimeEngineFollowsItsMaster_6 : ((heard.start 16).sealed = true) ∧ ((heard.start 16).ptpOn 1 = true)
    ∧ (announcer.src ≠ (heard.start 16).clockId) ∧ (announcer.steps < 255) := ⟨by decide +kernel, by decide +kernel, by (exact other_clock),
    by decide +kernel⟩
theorem wit_TimeEngineFollowsItsMaster_7 : (((ptp 6 2 { parent := some (7, 1), gmId := some 7, ports := [(1, { foreign := [(announcer, 8, none)] : PortSt })] : NetSt }).start (8 * secQ)).sealed = true)
    ∧ (((ptp 6 2 { parent := some (7, 1), gmId := some 7, ports := [(1, { foreign := [(announcer, 8, none)] : PortSt })] : NetSt }).start (8 * secQ)).ptpOn 1 = true)
    ∧ (((ptp 6 2 { parent := some (7, 1), gmId := some 7, ports := [(1, { foreign := [(announcer, 8, none)] : PortSt })] : NetSt }).start (8 * secQ)).ps 1 = 6 ∨ ((ptp 6 2 { parent := some (7, 1), gmId := some 7, ports := [(1, { foreign := [(announcer, 8, none)] : PortSt })] : NetSt }).start (8 * secQ)).ps 1 = 5 ∨ ((ptp 6 2 { parent := some (7, 1), gmId := some 7, ports := [(1, { foreign := [(announcer, 8, none)] : PortSt })] : NetSt }).start (8 * secQ)).ps 1 = 4 ∨ ((ptp 6 2 { parent := some (7, 1), gmId := some 7, ports := [(1, { foreign := [(announcer, 8, none)] : PortSt })] : NetSt }).start (8 * secQ)).ps 1 = 1)
    ∧ ((((ptp 6 2 { parent := some (7, 1), gmId := some 7, ports := [(1, { foreign := [(announcer, 8, none)] : PortSt })] : NetSt }).start (8 * secQ)).port 1).annAt + ((ptp 6 2 { parent := some (7, 1), gmId := some 7, ports := [(1, { foreign := [(announcer, 8, none)] : PortSt })] : NetSt }).start (8 * secQ)).f R.NET_PTP_CFG_ANN_TO * logInterval (((ptp 6 2 { parent := some (7, 1), gmId := some 7, ports := [(1, { foreign := [(announcer, 8, none)] : PortSt })] : NetSt }).start (8 * secQ)).f R.NET_PTP_CFG_LOG_ANN) ≤ ((ptp 6 2 { parent := some (7, 1), gmId := some 7, ports := [(1, { foreign := [(announcer, 8, none)] : PortSt })] : NetSt }).start (8 * secQ)).now)
    := by decide +kernel
theorem wit_TimeEngineFollowsItsMaster_8 : (((ptp 6 2 { : NetSt }).start (3 * secQ)).sealed = true)
    ∧ (((ptp 6 2 { : NetSt }).start (3 * secQ)).ptpOn 1 = true) ∧ (((ptp 6 2 { : NetSt }).start (3 * secQ)).ps 1 = 6)
    ∧ (((ptp 6 2 { : NetSt }).start (3 * secQ)).timeState = 2)
    ∧ ((((ptp 6 2 { : NetSt }).start (3 * secQ)).port 1).syncAt + 3 * logInterval (((ptp 6 2 { : NetSt }).start (3 * secQ)).f R.NET_PTP_CFG_LOG_SYNC) ≤ ((ptp 6 2 { : NetSt }).start (3 * secQ)).now)
    ∧ (((ptp 6 2 { : NetSt }).start (3 * secQ)).room) := by decide +kernel
theorem wit_TimeEngineFollowsItsMaster_9 : (((ptp 6 2 { : NetSt }).start 8).sealed = true) ∧ (((ptp 6 2 { : NetSt }).start 8).ptpOn 1 = true)
    ∧ (((ptp 6 2 { : NetSt }).start 8).b R.NET_PTP_CFG_P2P = false) ∧ (((ptp 6 2 { : NetSt }).start 8).ps 1 = 6) := by decide +kernel
def peers : State := (ptp 3 2 {}).setB R.NET_PTP_CFG_P2P true
theorem wit_TimeEngineFollowsItsMaster_10 : ((peers.start 8).sealed = true) ∧ ((peers.start 8).ptpOn 1 = true)
    ∧ ((peers.start 8).b R.NET_PTP_CFG_P2P = true) := by decide +kernel
theorem wit_TimeEngineFollowsItsMaster_11 : (((ptp 3 2 { ports := [(1, { busy := some (0, 0, 80) : PortSt })] : NetSt }).start 8).sealed = true)
    ∧ (((ptp 3 2 { ports := [(1, { busy := some (0, 0, 80) : PortSt })] : NetSt }).start 8).ptpOn 1 = true) ∧ (1 = 0 ∨ 1 = 1)
    ∧ (((ptp 3 2 { ports := [(1, { busy := some (0, 0, 80) : PortSt })] : NetSt }).start 8).ps 1 = 3)
    ∧ (kget 0 (((ptp 3 2 { ports := [(1, { busy := some (0, 0, 80) : PortSt })] : NetSt }).start 8).port 1).sentAt 1 = 0 ∨ kget 0 (((ptp 3 2 { ports := [(1, { busy := some (0, 0, 80) : PortSt })] : NetSt }).start 8).port 1).sentAt 1 + logInterval (if 1 = 0 then ((ptp 3 2 { ports := [(1, { busy := some (0, 0, 80) : PortSt })] : NetSt }).start 8).f R.NET_PTP_CFG_LOG_SYNC else ((ptp 3 2 { ports := [(1, { busy := some (0, 0, 80) : PortSt })] : NetSt }).start 8).f R.NET_PTP_CFG_LOG_ANN) ≤ ((ptp 3 2 { ports := [(1, { busy := some (0, 0, 80) : PortSt })] : NetSt }).start 8).now + 1)
    ∧ ((((ptp 3 2 { ports := [(1, { busy := some (0, 0, 80) : PortSt })] : NetSt }).start 8).port 1).busy ≠ none) := ⟨by decide +kernel,
    by decide +kernel, by decide +kernel, by decide +kernel, by (exact Or.inl (by decide +kernel)), by decide +kernel⟩
theorem wit_TimeEngineFollowsItsMaster_12 : (((ptp 3 2 { ports := [(1, { sentAt := [(0, 8)] : PortSt })] : NetSt }).start (secQ + 7)).sealed = true)
    ∧ (((ptp 3 2 { ports := [(1, { sentAt := [(0, 8)] : PortSt })] : NetSt }).start (secQ + 7)).ptpOn 1 = true) ∧ (0 = 0 ∨ 0 = 1)
    ∧ (((ptp 3 2 { ports := [(1, { sentAt := [(0, 8)] : PortSt })] : NetSt }).start (secQ + 7)).ps 1 = 3)
    ∧ (kget 0 (((ptp 3 2 { ports := [(1, { sentAt := [(0, 8)] : PortSt })] : NetSt }).start (secQ + 7)).port 1).sentAt 0 = 0 ∨ kget 0 (((ptp 3 2 { ports := [(1, { sentAt := [(0, 8)] : PortSt })] : NetSt }).start (secQ + 7)).port 1).sentAt 0 + logInterval (if 0 = 0 then ((ptp 3 2 { ports := [(1, { sentAt := [(0, 8)] : PortSt })] : NetSt }).start (secQ + 7)).f R.NET_PTP_CFG_LOG_SYNC else ((ptp 3 2 { ports := [(1, { sentAt := [(0, 8)] : PortSt })] : NetSt }).start (secQ + 7)).f R.NET_PTP_CFG_LOG_ANN) ≤ ((ptp 3 2 { ports := [(1, { sentAt := [(0, 8)] : PortSt })] : NetSt }).start (secQ + 7)).now + 1)
    ∧ ((((ptp 3 2 { ports := [(1, { sentAt := [(0, 8)] : PortSt })] : NetSt }).start (secQ + 7)).port 1).busy = none)
    ∧ ((((ptp 3 2 { ports := [(1, { sentAt := [(0, 8)] : PortSt })] : NetSt }).start (secQ + 7)).port 1).ptpOut = [])
    ∧ (((ptp 3 2 { ports := [(1, { sentAt := [(0, 8)] : PortSt })] : NetSt }).start (secQ + 7)).maySend 1 1 = true)
    ∧ (((ptp 3 2 { ports := [(1, { sentAt := [(0, 8)] : PortSt })] : NetSt }).start (secQ + 7)).launchNear 1 (((ptp 3 2 { ports := [(1, { sentAt := [(0, 8)] : PortSt })] : NetSt }).start (secQ + 7)).frameTime 1 (((ptp 3 2 { ports := [(1, { sentAt := [(0, 8)] : PortSt })] : NetSt }).start (secQ + 7)).ptpLen 0)) = false)
    := ⟨by decide +kernel, by decide +kernel, by decide +kernel, by decide +kernel, by (exact Or.inr (by decide +kernel)), by decide +kernel,
    by decide +kernel, by decide +kernel, by decide +kernel⟩
theorem wit_TimeEngineFollowsItsMaster_13 : (((ptp 3 2 { step := some (-5, 8) : NetSt }).start (10 * usQ + 8)).sealed = true)
    ∧ (((ptp 3 2 { step := some (-5, 8) : NetSt }).start (10 * usQ + 8)).net.step = some (-5, 8))
    ∧ (8 + 10 * usQ ≤ ((ptp 3 2 { step := some (-5, 8) : NetSt }).start (10 * usQ + 8)).now)
    ∧ (((ptp 3 2 { step := some (-5, 8) : NetSt }).start (10 * usQ + 8)).quiet = true)
    ∧ (((ptp 3 2 { step := some (-5, 8) : NetSt }).start (10 * usQ + 8)).carrierNear = false)
    ∧ (((ptp 3 2 { step := some (-5, 8) : NetSt }).start (10 * usQ + 8)).ntevNear = false)
    ∧ (((ptp 3 2 { step := some (-5, 8) : NetSt }).start (10 * usQ + 8)).launchSoon = false)
    ∧ (((ptp 3 2 { step := some (-5, 8) : NetSt }).start (10 * usQ + 8)).room) := by decide +kernel
theorem wit_TimeEngineFollowsItsMaster_14 : (((ptp 3 2 { step := some (-5, 8) : NetSt }).start (100 * msQ + 8)).sealed = true)
    ∧ (((ptp 3 2 { step := some (-5, 8) : NetSt }).start (100 * msQ + 8)).net.step = some (-5, 8))
    ∧ (8 + 100 * msQ ≤ ((ptp 3 2 { step := some (-5, 8) : NetSt }).start (100 * msQ + 8)).now) := by decide +kernel
def setTime (ts : Nat) : State := (live.setF R.NET_STAT_STATE ts).setF R.NET_TIME_SET_LO_TIME 77
theorem wit_TimeEngineFollowsItsMaster_15 : (((setTime 0).start 0).sealed = true)
    ∧ (((setTime 0).start 0).actionWrite 1 R.NET_TIME_CMD_SET 2147483648 = (reqOnce (setTime 0) 1 R.NET_TIME_CMD_SET 2147483648 0 0, true))
    ∧ ((reqOnce (setTime 0) 1 R.NET_TIME_CMD_SET 2147483648 0 0).timeState = 0)
    ∧ ((reqOnce (setTime 0) 1 R.NET_TIME_CMD_SET 2147483648 0 0).b R.NET_STAT_GM = false) := ⟨by decide +kernel,
    by (exact Prod.ext rfl (by decide +kernel)), by decide +kernel, by decide +kernel⟩
theorem wit_TimeEngineFollowsItsMaster_16 : (((setTime 2).start 0).sealed = true)
    ∧ (((setTime 2).start 0).actionWrite 1 R.NET_TIME_CMD_SET 2147483648 = (reqOnce (setTime 2) 1 R.NET_TIME_CMD_SET 2147483648 0 0, true))
    ∧ ((reqOnce (setTime 2) 1 R.NET_TIME_CMD_SET 2147483648 0 0).timeState ≠ 0 ∨ (reqOnce (setTime 2) 1 R.NET_TIME_CMD_SET 2147483648 0 0).b R.NET_STAT_GM = true)
    ∧ ((reqOnce (setTime 2) 1 R.NET_TIME_CMD_SET 2147483648 0 0).room) := ⟨by decide +kernel, by (exact Prod.ext rfl (by decide +kernel)),
    by decide +kernel, by decide +kernel⟩
/-- Controller 3 takes part in traffic; object 255 sends and object 200 receives, served by kernel P01.0. -/
def can0 (c : CanCtl) (os : KMap CanObj) : State :=
  { ((((((((((live.setB R.CAN_CTL_EN true).setB R.CAN_CFG_EN true 3).setB R.CAN_OBJ_CFG_EN true 200).setB R.CAN_OBJ_CFG_CLS_OK true 200).setF R.CAN_OBJ_MASK_MASK 0x7FF 200).setF
      R.CAN_OBJ_ID_ID 5 200).setB R.CAN_OBJ_CFG_EN true 255).setB R.CAN_OBJ_CFG_DIR true 255).setF R.CAN_OBJ_CFG_ROUTER 1 255).setF R.CAN_OBJ_CFG_ROUTER 1 200) with
    can := { ctl := [(3, c)], obj := os }, sea := { roles := [(16, 4)] }, rel := { backing := [(16, 16)] } }
def onBus : CanCtl := { onBus := true }
def rx5 : CanRx := { sof := 7, id := 5, xtd := false, fdf := false, brs := false, esi := false, bytes := [1, 2] }
theorem wit_CanObjectsSendReceiveAndRecover_1 : (3 < 4) ∧ (((can0 onBus []).start 8).canOn 3 = true)
    ∧ (false = false ∨ ((can0 onBus []).start 8).b R.CAN_CFG_FD_EN 3 = true) ∧ ((((can0 onBus []).start 8).canCtl 3).att = none) ∧ (200 / 64 = 3)
    ∧ (((can0 onBus []).start 8).canMatch 200 { sof := 7, id := 5 % if false = true then 2 ^ 29 else 2 ^ 11, brs := true && false, esi := true && false, bytes := List.take (if false = true then 64 else 8) [1, 2] : CanRx } = true)
    ∧ (∀ (r : Nat), r / 64 = 3 → r < 200 → ((can0 onBus []).start 8).canMatch r { sof := 7, id := 5 % if false = true then 2 ^ 29 else 2 ^ 11, brs := true && false, esi := true && false, bytes := List.take (if false = true then 64 else 8) [1, 2] : CanRx } = false)
    := ⟨by decide +kernel, by decide +kernel, by (exact Or.inl rfl), by decide +kernel, by decide +kernel, by decide +kernel,
    by (intro r h1 h2; exact (by decide +kernel : ∀ x < 200, x / 64 = 3 → ((can0 onBus []).start 8).canMatch x rx5 = false) r h2 h1)⟩
def twoFull : KMap CanObj := [(200, { main := some rx5, shadow := some rx5 })]
theorem wit_CanObjectsSendReceiveAndRecover_2 : (3 < 4) ∧ (((can0 onBus twoFull).start 8).canOn 3 = true)
    ∧ (false = false ∨ ((can0 onBus twoFull).start 8).b R.CAN_CFG_FD_EN 3 = true) ∧ ((((can0 onBus twoFull).start 8).canCtl 3).att = none)
    ∧ (200 / 64 = 3) ∧ (((can0 onBus twoFull).start 8).canMatch 200 { sof := 7, id := 5 % if false = true then 2 ^ 29 else 2 ^ 11, brs := true && false, esi := true && false, bytes := List.take (if false = true then 64 else 8) [1, 2] : CanRx } = true)
    ∧ (∀ (r : Nat), r / 64 = 3 → r < 200 → ((can0 onBus twoFull).start 8).canMatch r { sof := 7, id := 5 % if false = true then 2 ^ 29 else 2 ^ 11, brs := true && false, esi := true && false, bytes := List.take (if false = true then 64 else 8) [1, 2] : CanRx } = false)
    := ⟨by decide +kernel, by decide +kernel, by (exact Or.inl rfl), by decide +kernel, by decide +kernel, by decide +kernel,
    by (intro r h1 h2; exact (by decide +kernel : ∀ x < 200, x / 64 = 3 → ((can0 onBus twoFull).start 8).canMatch x rx5 = false) r h2 h1)⟩
def rx6 : CanRx := { rx5 with id := 6 }
theorem wit_CanObjectsSendReceiveAndRecover_3 : (3 < 4) ∧ (((can0 onBus []).start 8).canOn 3 = true)
    ∧ (false = false ∨ ((can0 onBus []).start 8).b R.CAN_CFG_FD_EN 3 = true) ∧ ((((can0 onBus []).start 8).canCtl 3).att = none)
    ∧ (∀ (o : Nat), o / 64 = 3 → ((can0 onBus []).start 8).canMatch o { sof := 7, id := 6 % if false = true then 2 ^ 29 else 2 ^ 11, brs := true && false, esi := true && false, bytes := List.take (if false = true then 64 else 8) [1, 2] : CanRx } = false)
    := ⟨by decide +kernel, by decide +kernel, by (exact Or.inl rfl), by decide +kernel,
    by (intro o h1; exact (by decide +kernel : ∀ x < 256, x / 64 = 3 → ((can0 onBus []).start 8).canMatch x rx6 = false) o (by omega) h1)⟩
theorem wit_CanObjectsSendReceiveAndRecover_4 : (3 < 4)
    ∧ (((can0 onBus [(200, { main := some rx5, shadow := some rx6, loss := true : CanObj })]).start 8).sealed = true) ∧ (200 < 256)
    ∧ ((((can0 onBus [(200, { main := some rx5, shadow := some rx6, loss := true : CanObj })]).start 8).canObj 200).main = some rx5) := by decide +kernel
def canWords (w0 : Nat) : List Word := [nw w0, 0, 0, 5, 0x04030201]
theorem wit_CanObjectsSendReceiveAndRecover_5 : (3 < 4) ∧ (((can0 onBus []).start 8).sealed = true) ∧ (1 < 24) ∧ (0 < 15)
    ∧ (((can0 onBus []).start 8).backed (16 * 1 + 0) = true)
    ∧ (((can0 onBus []).start 8).mayPass (16 * 1 + 0) { dst := FlitDst.port 15 1, src := FlitSrc.kernel 1 0, payload := Payload.svcx { sub := 4, tag := 9, domain := 0, first := 0, last := true, words := List.take 5 (canWords (255 * 256 + 2 ^ 25 + 4)) : Svcx } : Flit } = true)
    ∧ (255 = getBits ((canWords (255 * 256 + 2 ^ 25 + 4)).getD 0 0) 15 8)
    ∧ (((can0 onBus []).start 8).canItemBad (16 * 1 + 0) 255 (canWords (255 * 256 + 2 ^ 25 + 4)) = false)
    ∧ (((can0 onBus []).start 8).canRefusal 255 = none) := by decide +kernel
theorem wit_CanObjectsSendReceiveAndRecover_6 : (3 < 4) ∧ (((can0 onBus []).start 8).sealed = true) ∧ (1 < 24) ∧ (0 < 15)
    ∧ (((can0 onBus []).start 8).backed (16 * 1 + 0) = true)
    ∧ (((can0 onBus []).start 8).mayPass (16 * 1 + 0) { dst := FlitDst.port 15 1, src := FlitSrc.kernel 1 0, payload := Payload.svcx { sub := 4, tag := 9, domain := 0, first := 0, last := true, words := List.take 5 (canWords (255 * 256 + 2 ^ 25 + 5)) : Svcx } : Flit } = true)
    ∧ (255 = getBits ((canWords (255 * 256 + 2 ^ 25 + 5)).getD 0 0) 15 8)
    ∧ (((can0 onBus []).start 8).canItemBad (16 * 1 + 0) 255 (canWords (255 * 256 + 2 ^ 25 + 5)) = true) ∧ (((can0 onBus []).start 8).room)
    := by decide +kernel
def tx5 : CanFrame := { apply := 0, id := 5, bytes := [1] }
theorem wit_CanObjectsSendReceiveAndRecover_7 : (3 < 4) ∧ (((can0 onBus [(255, { queue := [tx5] : CanObj })]).start 8).canOn 3 = true)
    ∧ (((can0 onBus [(255, { queue := [tx5] : CanObj })]).start 8).b R.CAN_CFG_LOM 3 = false)
    ∧ ((((can0 onBus [(255, { queue := [tx5] : CanObj })]).start 8).canCtl 3).att = none)
    ∧ (((can0 onBus [(255, { queue := [tx5] : CanObj })]).start 8).offers 3 ≠ []) := by decide +kernel
def sending : State := can0 { onBus with att := some 255 } [(255, { queue := [tx5, { tx5 with id := 6 }] })]
def tec3 : State := sending.setF R.CAN_ERR_TEC 3 3
theorem wit_CanObjectsSendReceiveAndRecover_8 : (3 < 4) ∧ ((tec3.start 8).canOn 3 = true) ∧ (((tec3.start 8).canCtl 3).att = some 255)
    ∧ (255 / 64 = 3) ∧ (((tec3.start 8).canObj 255).queue =   [tx5,     let __src := tx5;     { apply := __src.apply, late := __src.late, desc := __src.desc, item := __src.item, src := __src.src, id := 6, xtd := __src.xtd, fdf := __src.fdf, brs := __src.brs, bytes := __src.bytes : CanFrame }])
    := by decide +kernel
def noPeer : State := (sending.setF R.CAN_OBJ_CFG_N_NOACK 1 255).setF R.CAN_OBJ_CFG_ID_COLL_LIMIT 1 255
theorem wit_CanObjectsSendReceiveAndRecover_9 : (3 < 4) ∧ ((noPeer.start 8).canOn 3 = true) ∧ ((noPeer.start 8).b R.CAN_CFG_LOM 3 = false) ∧ (1 ≤ 3)
    ∧ (3 ≤ 6) ∧ (((noPeer.start 8).canCtl 3).att = some 255) ∧ (255 / 64 = 3) := by decide +kernel
theorem wit_CanObjectsSendReceiveAndRecover_10 : (3 < 4) ∧ ((noPeer.start 8).canOn 3 = true) ∧ ((noPeer.start 8).b R.CAN_CFG_LOM 3 = false) ∧ (1 ≤ 4)
    ∧ (4 ≤ 6) ∧ (((noPeer.start 8).canCtl 3).att = some 255) ∧ (255 / 64 = 3) := by decide +kernel
def tec248 : State := sending.setF R.CAN_ERR_TEC 248 3
theorem wit_CanObjectsSendReceiveAndRecover_11 : (3 < 4) ∧ ((tec248.start 8).canOn 3 = true) ∧ ((tec248.start 8).b R.CAN_CFG_LOM 3 = false) ∧ (1 ≤ 1)
    ∧ (1 ≤ 6) ∧ (((tec248.start 8).canCtl 3).att = some 255) ∧ (255 / 64 = 3) := by decide +kernel
theorem wit_CanObjectsSendReceiveAndRecover_12 : (3 < 4) ∧ (((sending.setF R.CAN_ERR_TEC 120 3).start 8).canOn 3 = true)
    ∧ (((sending.setF R.CAN_ERR_TEC 120 3).start 8).b R.CAN_CFG_LOM 3 = false) ∧ (1 ≤ 6) ∧ (6 ≤ 6)
    ∧ ((((sending.setF R.CAN_ERR_TEC 120 3).start 8).canCtl 3).att = some 255) ∧ (255 / 64 = 3) := by decide +kernel
theorem wit_CanObjectsSendReceiveAndRecover_13 : (3 < 4) ∧ (((can0 onBus []).start 8).canOn 3 = true)
    ∧ (((can0 onBus []).start 8).b R.CAN_CFG_LOM 3 = false) ∧ (1 ≤ 6) ∧ (6 ≤ 6) ∧ ((((can0 onBus []).start 8).canCtl 3).att = none) := by decide +kernel
def pxe : State := (can0 onBus []).setB R.CAN_CFG_PXE true 3
theorem wit_CanObjectsSendReceiveAndRecover_14 : (3 < 4) ∧ ((pxe.start 8).canOn 3 = true) ∧ ((pxe.start 8).b R.CAN_CFG_LOM 3 = false) ∧ (1 ≤ 1)
    ∧ (1 ≤ 6) ∧ ((pxe.start 8).b R.CAN_CFG_PXE 3 = true) := by decide +kernel
def off3 (st : Nat) : State := { (((can0 onBus []).setF R.CAN_STAT_STATE st 3).setB R.CAN_CFG_OWNER true 3).setF R.CAN_CTL_BUSOFF 8 with fresh := [] }
theorem wit_CanObjectsSendReceiveAndRecover_15 : (3 < 4)
    ∧ (((off3 2).start 0).actionWrite 1 R.CAN_CMD_RECOVER 2147483648 3 = (reqOnce (off3 2) 1 R.CAN_CMD_RECOVER 2147483648 3 0, true))
    ∧ ((reqOnce (off3 2) 1 R.CAN_CMD_RECOVER 2147483648 3 0).canState 3 = 2) := ⟨by decide +kernel, by (exact Prod.ext rfl (by decide +kernel)),
    by decide +kernel⟩
theorem wit_CanObjectsSendReceiveAndRecover_16 : (3 < 4)
    ∧ (((off3 0).start 0).actionWrite 1 R.CAN_CMD_RECOVER 2147483648 3 = (reqOnce (off3 0) 1 R.CAN_CMD_RECOVER 2147483648 3 0, true))
    ∧ ((reqOnce (off3 0) 1 R.CAN_CMD_RECOVER 2147483648 3 0).canState 3 ≠ 2) ∧ ((reqOnce (off3 0) 1 R.CAN_CMD_RECOVER 2147483648 3 0).room)
    := ⟨by decide +kernel, by (exact Prod.ext rfl (by decide +kernel)), by decide +kernel, by decide +kernel⟩
theorem wit_CanObjectsSendReceiveAndRecover_17 : (3 < 4) ∧ (((off3 3).start 8).canEn 3 = true) ∧ (((off3 3).start 8).canState 3 = 3)
    ∧ (((off3 3).start 8).room) := by decide +kernel
def px3 : State := (can0 {} []).setB R.CAN_STAT_PX true 3
theorem wit_CanObjectsSendReceiveAndRecover_18 : (3 < 4) ∧ ((px3.start 8).canEn 3 = true)
    ∧ ((px3.start 8).b R.CAN_STAT_PX 3 = true ∨ ((px3.start 8).canCtl 3).onBus = false) := ⟨by decide +kernel, by decide +kernel,
    by (exact Or.inl (by decide +kernel))⟩
/-- The write of an object's or a controller's register at instant 0. -/
def canWrote (s : State) (r : FRef) (i : Nat) (data : Word) : State × Option (RegHit × List FieldDef) := (s.start 0).writeAt 1 .can (r.off i 0) data
def opr255 (en : Bool) : State := (sending.setF R.CAN_OBJ_CFG_DOMAIN 2 255).setB R.CAN_OBJ_CFG_EN en 255
theorem wit_CanObjectsSendReceiveAndRecover_19 : (3 < 4) ∧ (255 < 256)
    ∧ (((opr255 false).start 0).writeAt 1 Blk.can (R.CAN_OBJ_CFG_EN.off 255 0) 3493986304 = ((canWrote (opr255 false) R.CAN_OBJ_CFG_EN 255 3493986304).fst, some (((canWrote (opr255 false) R.CAN_OBJ_CFG_EN 255 3493986304).snd.getD (hitAddr, [])).fst, ((canWrote (opr255 false) R.CAN_OBJ_CFG_EN 255 3493986304).snd.getD (hitAddr, [])).snd)))
    ∧ (∃ fd, fd ∈ ((canWrote (opr255 false) R.CAN_OBJ_CFG_EN 255 3493986304).snd.getD (hitAddr, [])).snd ∧ fd.hi = 31)
    ∧ (BitVec.getLsbD (3493986304 : Word) 31 = true) := ⟨by decide +kernel, by decide +kernel, by (exact canWrote_eq _ (by decide +kernel)),
    by decide +kernel, by decide +kernel⟩
theorem wit_CanObjectsSendReceiveAndRecover_20 : (3 < 4) ∧ (255 < 256)
    ∧ (((opr255 true).start 0).writeAt 1 Blk.can (R.CAN_OBJ_CFG_EN.off 255 0) 1346502656 = ((canWrote (opr255 true) R.CAN_OBJ_CFG_EN 255 1346502656).fst, some (((canWrote (opr255 true) R.CAN_OBJ_CFG_EN 255 1346502656).snd.getD (hitAddr, [])).fst, ((canWrote (opr255 true) R.CAN_OBJ_CFG_EN 255 1346502656).snd.getD (hitAddr, [])).snd)))
    ∧ (∃ fd, fd ∈ ((canWrote (opr255 true) R.CAN_OBJ_CFG_EN 255 1346502656).snd.getD (hitAddr, [])).snd ∧ fd.hi = 31)
    ∧ (BitVec.getLsbD (1346502656 : Word) 31 = false) := ⟨by decide +kernel, by decide +kernel, by (exact canWrote_eq _ (by decide +kernel)),
    by decide +kernel, by decide +kernel⟩
def refSt (c : CanCtl) (fmt st : Bool) : State :=
  (((((can0 c []).setB R.CAN_CFG_OWNER true 3).setF R.CAN_REF_CFG_REF_PERIOD 1000 3).setB R.CAN_REF_CFG_REF_FMT fmt 3).setB R.CAN_REF_CFG_REF_EN st 3).setB R.CAN_REF_CFG_REF_RUN st 3
theorem wit_CanObjectsSendReceiveAndRecover_21 : (3 < 4)
    ∧ (((refSt { : CanCtl } true false).start 0).writeAt 1 Blk.can (R.CAN_REF_CFG_REF_EN.off 3 0) 3221226472 = ((canWrote (refSt { : CanCtl } true false) R.CAN_REF_CFG_REF_EN 3 3221226472).fst, some (((canWrote (refSt { : CanCtl } true false) R.CAN_REF_CFG_REF_EN 3 3221226472).snd.getD (hitAddr, [])).fst, ((canWrote (refSt { : CanCtl } true false) R.CAN_REF_CFG_REF_EN 3 3221226472).snd.getD (hitAddr, [])).snd)))
    ∧ (∃ fd, fd ∈ ((canWrote (refSt { : CanCtl } true false) R.CAN_REF_CFG_REF_EN 3 3221226472).snd.getD (hitAddr, [])).snd ∧ fd.hi = 31)
    ∧ (BitVec.getLsbD (3221226472 : Word) 31 = true) := ⟨by decide +kernel, by (exact canWrote_eq _ (by decide +kernel)), by decide +kernel,
    by decide +kernel⟩
theorem wit_CanObjectsSendReceiveAndRecover_22 : (3 < 4)
    ∧ (((refSt { : CanCtl } true true).start 0).writeAt 1 Blk.can (R.CAN_REF_CFG_REF_EN.off 3 0) 1073742824 = ((canWrote (refSt { : CanCtl } true true) R.CAN_REF_CFG_REF_EN 3 1073742824).fst, some (((canWrote (refSt { : CanCtl } true true) R.CAN_REF_CFG_REF_EN 3 1073742824).snd.getD (hitAddr, [])).fst, ((canWrote (refSt { : CanCtl } true true) R.CAN_REF_CFG_REF_EN 3 1073742824).snd.getD (hitAddr, [])).snd)))
    ∧ (∃ fd, fd ∈ ((canWrote (refSt { : CanCtl } true true) R.CAN_REF_CFG_REF_EN 3 1073742824).snd.getD (hitAddr, [])).snd ∧ fd.hi = 31)
    ∧ (BitVec.getLsbD (1073742824 : Word) 31 = false) := ⟨by decide +kernel, by (exact canWrote_eq _ (by decide +kernel)), by decide +kernel,
    by decide +kernel⟩
theorem wit_CanObjectsSendReceiveAndRecover_23 : (3 < 4)
    ∧ (((refSt             (let __src := onBus;             { onBus := __src.onBus, att := __src.att, sof := __src.sof, ref := some 6, refNext := __src.refNext, refDone := __src.refDone, refSeq := 63, refColl := __src.refColl : CanCtl })             true true).start         4).canEn     3 =   true)
    ∧ (((refSt             (let __src := onBus;             { onBus := __src.onBus, att := __src.att, sof := __src.sof, ref := some 6, refNext := __src.refNext, refDone := __src.refDone, refSeq := 63, refColl := __src.refColl : CanCtl })             true true).start         4).b     R.CAN_REF_CFG_REF_EN 3 =   true)
    ∧ (((refSt             (let __src := onBus;             { onBus := __src.onBus, att := __src.att, sof := __src.sof, ref := some 6, refNext := __src.refNext, refDone := __src.refDone, refSeq := 63, refColl := __src.refColl : CanCtl })             true true).start         4).b     R.CAN_REF_CFG_REF_RUN 3 =   true)
    ∧ (((refSt             (let __src := onBus;             { onBus := __src.onBus, att := __src.att, sof := __src.sof, ref := some 6, refNext := __src.refNext, refDone := __src.refDone, refSeq := 63, refColl := __src.refColl : CanCtl })             true true).start         4).b     R.CAN_CFG_LOM 3 =   false)
    ∧ (1000000 =   ↑(((refSt                 (let __src := onBus;                 { onBus := __src.onBus, att := __src.att, sof := __src.sof, ref := some 6, refNext := __src.refNext, refDone := __src.refDone, refSeq := 63, refColl := __src.refColl : CanCtl })                 true true).start             4).f         R.CAN_REF_CFG_REF_PERIOD 3 *       1000))
    ∧ (1000000 ≠ 0) ∧ (0 =   (((refSt               (let __src := onBus;               { onBus := __src.onBus, att := __src.att, sof := __src.sof, ref := some 6, refNext := __src.refNext, refDone := __src.refDone, refSeq := 63, refColl := __src.refColl : CanCtl })               true true).start           4).ntime -       ↑(((refSt                     (let __src := onBus;                     { onBus := __src.onBus, att := __src.att, sof := __src.sof, ref := some 6, refNext := __src.refNext, refDone := __src.refDone, refSeq := 63, refColl := __src.refColl : CanCtl })                     true true).start                 4).f             R.CAN_REF_PH_REF_PHASE 3 *           1000)) /     1000000)
    ∧ (((refSt               (let __src := onBus;               { onBus := __src.onBus, att := __src.att, sof := __src.sof, ref := some 6, refNext := __src.refNext, refDone := __src.refDone, refSeq := 63, refColl := __src.refColl : CanCtl })               true true).start           4).ntime -       ↑(((refSt                     (let __src := onBus;                     { onBus := __src.onBus, att := __src.att, sof := __src.sof, ref := some 6, refNext := __src.refNext, refDone := __src.refDone, refSeq := 63, refColl := __src.refColl : CanCtl })                     true true).start                 4).f             R.CAN_REF_PH_REF_PHASE 3 *           1000) -     0 * 1000000 <   if       ((refSt                   (let __src := onBus;                   { onBus := __src.onBus, att := __src.att, sof := __src.sof, ref := some 6, refNext := __src.refNext, refDone := __src.refDone, refSeq := 63, refColl := __src.refColl : CanCtl })                   true true).start               4).net.stepTick =         some           ((refSt                   (let __src := onBus;                   { onBus := __src.onBus, att := __src.att, sof := __src.sof, ref := some 6, refNext := __src.refNext, refDone := __src.refDone, refSeq := 63, refColl := __src.refColl : CanCtl })                   true true).start               4).pwmTime then     1   else 2)
    ∧ (inRanges 0     (((refSt                 (let __src := onBus;                 { onBus := __src.onBus, att := __src.att, sof := __src.sof, ref := some 6, refNext := __src.refNext, refDone := __src.refDone, refSeq := 63, refColl := __src.refColl : CanCtl })                 true true).start             4).canCtl         3).refDone =   false)
    ∧ ((((refSt               (let __src := onBus;               { onBus := __src.onBus, att := __src.att, sof := __src.sof, ref := some 6, refNext := __src.refNext, refDone := __src.refDone, refSeq := 63, refColl := __src.refColl : CanCtl })               true true).start           4).canCtl       3).att ≠   some 256)
    ∧ ((((refSt               (let __src := onBus;               { onBus := __src.onBus, att := __src.att, sof := __src.sof, ref := some 6, refNext := __src.refNext, refDone := __src.refDone, refSeq := 63, refColl := __src.refColl : CanCtl })               true true).start           4).canCtl       3).refNext =   none)
    ∧ (((refSt             (let __src := onBus;             { onBus := __src.onBus, att := __src.att, sof := __src.sof, ref := some 6, refNext := __src.refNext, refDone := __src.refDone, refSeq := 63, refColl := __src.refColl : CanCtl })             true true).start         4).refMay     3 =   true)
    ∧ (((refSt             (let __src := onBus;             { onBus := __src.onBus, att := __src.att, sof := __src.sof, ref := some 6, refNext := __src.refNext, refDone := __src.refDone, refSeq := 63, refColl := __src.refColl : CanCtl })             true true).start         4).canState     3 <   2)
    := by decide +kernel
theorem wit_CanObjectsSendReceiveAndRecover_24 : (3 < 4) ∧ (((refSt onBus false true).start 4).canEn 3 = true)
    ∧ (((refSt onBus false true).start 4).b R.CAN_REF_CFG_REF_EN 3 = true) ∧ (((refSt onBus false true).start 4).b R.CAN_REF_CFG_REF_RUN 3 = true)
    ∧ (((refSt onBus false true).start 4).b R.CAN_CFG_LOM 3 = false)
    ∧ (1000000 = ↑(((refSt onBus false true).start 4).f R.CAN_REF_CFG_REF_PERIOD 3 * 1000)) ∧ (1000000 ≠ 0)
    ∧ (0 = (((refSt onBus false true).start 4).ntime - ↑(((refSt onBus false true).start 4).f R.CAN_REF_PH_REF_PHASE 3 * 1000)) / 1000000)
    ∧ (((refSt onBus false true).start 4).ntime - ↑(((refSt onBus false true).start 4).f R.CAN_REF_PH_REF_PHASE 3 * 1000) - 0 * 1000000 < if ((refSt onBus false true).start 4).net.stepTick = some ((refSt onBus false true).start 4).pwmTime then 1 else 2)
    ∧ (inRanges 0 (((refSt onBus false true).start 4).canCtl 3).refDone = false) ∧ ((((refSt onBus false true).start 4).canCtl 3).att ≠ some 256)
    ∧ ((((refSt onBus false true).start 4).canCtl 3).refNext = none) ∧ (((refSt onBus false true).start 4).refMay 3 = false)
    ∧ ((((refSt onBus false true).start 4).canCtl 3).ref = none) := by decide +kernel
/-- PLL 2 in a state, both references qualified. -/
def pll2 (st : Nat) (x : PllSt) : State :=
  { (((live.setB R.CLK_STAT_REFCLK_OK true).setB R.CLK_STAT_XTAL_OK true).setF R.CLK_PLL_STAT_STATE st 2) with clk := { ungatedAt := some 0, plls := [(2, x)] } }
theorem wit_ClocksHoldOverHopAndSync_1 : (((pll2 1 { : PllSt }).start 8).inReset = false) ∧ (0 < 2) ∧ (((pll2 1 { : PllSt }).start 8).refOk 0 = true)
    ∧ (((pll2 1 { : PllSt }).start 8).room)
    ∧ (1000 < 1001 ∨ (10 * 10000 < 9 * if 0 = 0 then 10000 else 2500) ∨ (11 * if 0 = 0 then 10000 else 2500) < 10 * 10000) := ⟨by decide +kernel,
    by decide +kernel, by decide +kernel, by decide +kernel, by (exact Or.inl (by decide +kernel))⟩
theorem wit_ClocksHoldOverHopAndSync_2 : (((pll2 3 { ref := 1 : PllSt }).start 8).inReset = false) ∧ (1 < 2)
    ∧ (((pll2 3 { ref := 1 : PllSt }).start 8).refOk 1 = true) ∧ (((pll2 3 { ref := 1 : PllSt }).start 8).room)
    ∧ (1000 < 0 ∨ (10 * 2249 < 9 * if 1 = 0 then 10000 else 2500) ∨ (11 * if 1 = 0 then 10000 else 2500) < 10 * 2249) := ⟨by decide +kernel,
    by decide +kernel, by decide +kernel, by decide +kernel, by (exact Or.inr (Or.inl (by decide +kernel)))⟩
theorem wit_ClocksHoldOverHopAndSync_3 : (((pll2 3 { ref := 1 : PllSt }).start 8).inReset = false) ∧ (1 < 2)
    ∧ (((pll2 3 { ref := 1 : PllSt }).start 8).refOk 1 = true) ∧ (((pll2 3 { ref := 1 : PllSt }).start 8).room)
    ∧ (1000 < 0 ∨ (10 * 2751 < 9 * if 1 = 0 then 10000 else 2500) ∨ (11 * if 1 = 0 then 10000 else 2500) < 10 * 2751) := ⟨by decide +kernel,
    by decide +kernel, by decide +kernel, by decide +kernel, by (exact Or.inr (Or.inr (by decide +kernel)))⟩
def lostRef : State := { (pll2 2 {}).setB R.CLK_STAT_REFCLK_OK false with clk := { ungatedAt := some 0, lost := 1, lostAt := [(0, 8)], plls := [(2, {})] } }
theorem wit_ClocksHoldOverHopAndSync_4 : ((lostRef.start (10 * msQ + 8)).inReset = false) ∧ (0 < 2) ∧ ((lostRef.start (10 * msQ + 8)).refOk 0 = false)
    ∧ ((lostRef.start (10 * msQ + 8)).b R.CLK_STAT_NOREF = false) ∧ ((lostRef.start (10 * msQ + 8)).clk.lost.testBit 0 = true)
    ∧ (kget 0 (lostRef.start (10 * msQ + 8)).clk.lostAt 0 ≤ 8) ∧ (8 + 10 * msQ ≤ (lostRef.start (10 * msQ + 8)).now)
    ∧ ((lostRef.start (10 * msQ + 8)).room) := by decide +kernel
def noRef : State := { (((live.setB R.CFG_STAT_SEALED false).setB R.CLK_STAT_NOREF true).setF R.CLK_STAT_STRAP 1) with clk := {} }
theorem wit_ClocksHoldOverHopAndSync_5 : ((noRef.start (100 * usQ)).inReset = false) ∧ (1 < 2) ∧ ((noRef.start (100 * usQ)).refOk 1 = false)
    ∧ ((noRef.start (100 * usQ)).b R.CLK_STAT_NOREF = true) ∧ ((noRef.start (100 * usQ)).f R.CLK_STAT_STRAP = 1)
    ∧ ((noRef.start (100 * usQ)).pwr.waiting = none) ∧ ((noRef.start (100 * usQ)).clk.lost.testBit 1 = false)
    ∧ (0 + 100 * usQ ≤ (noRef.start (100 * usQ)).now) := by decide +kernel
theorem wit_ClocksHoldOverHopAndSync_6 : (((pll2 1 { : PllSt }).start 8).inReset = false) ∧ (2 < 3) ∧ (((pll2 1 { : PllSt }).start 8).pllState 2 = 1)
    ∧ (((pll2 1 { : PllSt }).start 8).refOk (((pll2 1 { : PllSt }).start 8).pll 2).ref = true) ∧ (((pll2 1 { : PllSt }).start 8).room)
    ∧ ([501, 600, 700, 501].length = 4) ∧ (∀ (e : Nat), e ∈ [501, 600, 700, 501] → 500 < e) := ⟨by decide +kernel, by decide +kernel, by decide +kernel,
    by decide +kernel, by decide +kernel, by decide +kernel, by (decide +kernel)⟩
def backup2 (x : PllSt) : State := (((pll2 2 x).setB R.CLK_CTL_BACKUP_EN true).setF R.CLK_PLL_CFG_BACKUP_SLOT 7 2).setB R.CLK_SLOT_A_REFSEL true 2 7
theorem wit_ClocksHoldOverHopAndSync_7 : (((backup2 { boot := false : PllSt }).start (100 * usQ)).inReset = false) ∧ (2 < 3)
    ∧ (7 = ((backup2 { boot := false : PllSt }).start (100 * usQ)).f R.CLK_PLL_CFG_BACKUP_SLOT 2)
    ∧ (((backup2 { boot := false : PllSt }).start (100 * usQ)).b R.CLK_CTL_BACKUP_EN = true)
    ∧ (((backup2 { boot := false : PllSt }).start (100 * usQ)).pllState 2 = 2)
    ∧ ((((backup2 { boot := false : PllSt }).start (100 * usQ)).pll 2).hop = none)
    ∧ ((((backup2 { boot := false : PllSt }).start (100 * usQ)).pll 2).boot = false)
    ∧ (((backup2 { boot := false : PllSt }).start (100 * usQ)).f R.CLK_PLL_STAT_SLOT 2 ≠ 7)
    ∧ (((backup2 { boot := false : PllSt }).start (100 * usQ)).refOk (((backup2 { boot := false : PllSt }).start (100 * usQ)).f R.CLK_SLOT_A_REFSEL 2 7) = true)
    ∧ ((((backup2 { boot := false : PllSt }).start (100 * usQ)).pll 2).holdAt + 100 * usQ ≤ ((backup2 { boot := false : PllSt }).start (100 * usQ)).now)
    := by decide +kernel
def hop2 : State := ((pll2 2 { hop := some 7 }).setF R.CLK_SLOT_A_N 160 2 7).setF R.CLK_SLOT_F_FRAC 5 2 7
theorem wit_ClocksHoldOverHopAndSync_8 : ((hop2.start 8).inReset = false) ∧ (2 < 3) ∧ (7 < 8) ∧ (((hop2.start 8).pll 2).hop = some 7)
    ∧ ((hop2.start 8).room) := by decide +kernel
theorem wit_ClocksHoldOverHopAndSync_9 : (((pll2 3 { ref := 1 : PllSt }).start (40960 * nsQ)).inReset = false) ∧ (2 < 3)
    ∧ (((pll2 3 { ref := 1 : PllSt }).start (40960 * nsQ)).pllState 2 = 3) ∧ (50 ≤ 50)
    ∧ ((((pll2 3 { ref := 1 : PllSt }).start (40960 * nsQ)).pll 2).relockAt + (1024 * if (((pll2 3 { ref := 1 : PllSt }).start (40960 * nsQ)).pll 2).ref = 0 then 10 else 40) * nsQ ≤ ((pll2 3 { ref := 1 : PllSt }).start (40960 * nsQ)).now)
    ∧ (((pll2 3 { ref := 1 : PllSt }).start (40960 * nsQ)).room) := by decide +kernel
def valid2 : State := (pll2 1 {}).setB R.CLK_SLOT_A_VALID true 2 7
theorem wit_ClocksHoldOverHopAndSync_10 : ((valid2.start (10 * secQ)).inReset = false) ∧ (2 < 3) ∧ (63 < 64)
    ∧ ((valid2.start (10 * secQ)).pllState 2 = 1) ∧ (((valid2.start (10 * secQ)).pll 2).copyAt + 10 * secQ ≤ (valid2.start (10 * secQ)).now)
    := by decide +kernel
def waitSync (e : Option Instant) : State := { (((boot1 true true).setB R.CLK_CTL_SYNC_EN true).setF R.CLK_CTL_SYNC_TO 1).setB R.CLK_STAT_REFCLK_OK true with clk := { syncWait := some 0, syncAt := e } }
theorem wit_ClocksHoldOverHopAndSync_11 : (((waitSync (some 0)).start 172).inReset = false) ∧ (((waitSync (some 0)).start 172).alive = true)
    ∧ (((waitSync (some 0)).start 172).clk.syncWait = some 0) ∧ (((waitSync (some 0)).start 172).clk.syncAt = some 0)
    ∧ (0 + 172 ≤ ((waitSync (some 0)).start 172).now) ∧ (((waitSync (some 0)).start 172).room) := by decide +kernel
theorem wit_ClocksHoldOverHopAndSync_12 : (((waitSync none).start msQ).inReset = false) ∧ (((waitSync none).start msQ).alive = true)
    ∧ (((waitSync none).start msQ).clk.syncWait = some 0) ∧ (((waitSync none).start msQ).clk.syncAt = none)
    ∧ (0 + ((waitSync none).start msQ).f R.CLK_CTL_SYNC_TO * msQ ≤ ((waitSync none).start msQ).now) ∧ (((waitSync none).start msQ).room)
    := by decide +kernel
theorem wit_ClocksHoldOverHopAndSync_13 : (((pll2 1 { : PllSt }).start 13).inReset = false) ∧ (((pll2 1 { : PllSt }).start 13).refOk 0 = true)
    ∧ (((pll2 1 { : PllSt }).start 13).clk.ungatedAt = some 0) ∧ (0 ≤ ((pll2 1 { : PllSt }).start 13).now) := by decide +kernel
theorem wit_ClocksHoldOverHopAndSync_14 : (((waitSync none).start 8).inReset = false) ∧ (((waitSync none).start 8).refOk 0 = true)
    ∧ (((waitSync none).start 8).clk.ungatedAt = none) ∧ (((waitSync none).start 8).clk.syncWait = some 0) ∧ (((waitSync none).start 8).clk.syncAt = none)
    := by decide +kernel
theorem wit_ClocksHoldOverHopAndSync_15 : ((live.start 8).inReset = false) ∧ ((live.start 8).refOk 0 = false) := by decide +kernel
def podSt (roles : KMap Nat) (mig : Option MigSt) (req : Option (Nat × Nat)) : State :=
  { live with sea := { roles := roles }, loop := { mig := mig }, clk := { ungatedAt := some 0, podReq := req } }
theorem noMove {s : State} {pod : Nat} (h : s.loop.mig = none) : ¬ ∃ m, s.loop.mig = some m ∧ (m.srcPod = pod ∨ m.dstPod = pod) := by
  rw [h]; rintro ⟨m, hm, -⟩; exact nomatch hm
def goOf (s : State) (d : Word) : State := reqOnce s 0 R.CLK_POD_REQ_GO d 0 0
theorem wit_ClocksHoldOverHopAndSync_16 : (((podSt [(382, 5)] none none).start 0).inReset = false)
    ∧ (((podSt [(382, 5)] none none).start 0).actionWrite 0 R.CLK_POD_REQ_GO 3723755520 = (goOf (podSt [(382, 5)] none none) 3723755520, true))
    ∧ (23 = (goOf (podSt [(382, 5)] none none) 3723755520).f R.CLK_POD_REQ_POD)
    ∧ (500 = (goOf (podSt [(382, 5)] none none) 3723755520).f R.CLK_POD_REQ_MHZ) ∧ ((goOf (podSt [(382, 5)] none none) 3723755520).room)
    ∧ ((goOf (podSt [(382, 5)] none none) 3723755520).podHasRole 23 = true) := ⟨by decide +kernel, by (exact Prod.ext rfl (by decide +kernel)),
    by decide +kernel, by decide +kernel, by decide +kernel, by decide +kernel⟩
theorem wit_ClocksHoldOverHopAndSync_17 : (((podSt [] (some { dstPod := 23 : MigSt }) none).start 0).inReset = false)
    ∧ (((podSt [] (some { dstPod := 23 : MigSt }) none).start 0).actionWrite 0 R.CLK_POD_REQ_GO 3723755520 = (goOf (podSt [] (some { dstPod := 23 : MigSt }) none) 3723755520, true))
    ∧ (23 = (goOf (podSt [] (some { dstPod := 23 : MigSt }) none) 3723755520).f R.CLK_POD_REQ_POD)
    ∧ (500 = (goOf (podSt [] (some { dstPod := 23 : MigSt }) none) 3723755520).f R.CLK_POD_REQ_MHZ)
    ∧ ((goOf (podSt [] (some { dstPod := 23 : MigSt }) none) 3723755520).room)
    ∧ ((goOf (podSt [] (some { dstPod := 23 : MigSt }) none) 3723755520).podHasRole 23 = false)
    ∧ (∃ m, (goOf (podSt [] (some { dstPod := 23 : MigSt }) none) 3723755520).loop.mig = some m ∧ (m.srcPod = 23 ∨ m.dstPod = 23)) := ⟨by decide +kernel,
    by (exact Prod.ext rfl (by decide +kernel)), by decide +kernel, by decide +kernel, by decide +kernel, by decide +kernel,
    by (exact ⟨_, rfl, Or.inr rfl⟩)⟩
theorem wit_ClocksHoldOverHopAndSync_18 : (((podSt [] none (some (1, 250))).start 0).inReset = false)
    ∧ (((podSt [] none (some (1, 250))).start 0).actionWrite 0 R.CLK_POD_REQ_GO 3723755520 = (goOf (podSt [] none (some (1, 250))) 3723755520, true))
    ∧ (23 = (goOf (podSt [] none (some (1, 250))) 3723755520).f R.CLK_POD_REQ_POD)
    ∧ (500 = (goOf (podSt [] none (some (1, 250))) 3723755520).f R.CLK_POD_REQ_MHZ) ∧ ((goOf (podSt [] none (some (1, 250))) 3723755520).room)
    ∧ ((goOf (podSt [] none (some (1, 250))) 3723755520).podHasRole 23 = false)
    ∧ (¬∃ m, (goOf (podSt [] none (some (1, 250))) 3723755520).loop.mig = some m ∧ (m.srcPod = 23 ∨ m.dstPod = 23))
    ∧ ((goOf (podSt [] none (some (1, 250))) 3723755520).clk.podReq ≠ none) := ⟨by decide +kernel, by (exact Prod.ext rfl (by decide +kernel)),
    by decide +kernel, by decide +kernel, by decide +kernel, by decide +kernel, by (exact noMove rfl), by decide +kernel⟩
theorem wit_ClocksHoldOverHopAndSync_19 : (((podSt [] none none).start 0).inReset = false)
    ∧ (((podSt [] none none).start 0).actionWrite 0 R.CLK_POD_REQ_GO 3707305984 = (goOf (podSt [] none none) 3707305984, true))
    ∧ (23 = (goOf (podSt [] none none) 3707305984).f R.CLK_POD_REQ_POD) ∧ (249 = (goOf (podSt [] none none) 3707305984).f R.CLK_POD_REQ_MHZ)
    ∧ ((goOf (podSt [] none none) 3707305984).room) ∧ ((goOf (podSt [] none none) 3707305984).podHasRole 23 = false)
    ∧ (¬∃ m, (goOf (podSt [] none none) 3707305984).loop.mig = some m ∧ (m.srcPod = 23 ∨ m.dstPod = 23))
    ∧ ((goOf (podSt [] none none) 3707305984).clk.podReq = none) ∧ (¬(250 ≤ 249 ∧ 249 ≤ 1000 ∧ 23 < 24)) := ⟨by decide +kernel,
    by (exact Prod.ext rfl (by decide +kernel)), by decide +kernel, by decide +kernel, by decide +kernel, by decide +kernel, by (exact noMove rfl),
    by decide +kernel, by decide +kernel⟩
theorem wit_ClocksHoldOverHopAndSync_20 : (((podSt [] none none).start 0).inReset = false)
    ∧ (((podSt [] none none).start 0).actionWrite 0 R.CLK_POD_REQ_GO 3707371520 = (goOf (podSt [] none none) 3707371520, true))
    ∧ (23 = (goOf (podSt [] none none) 3707371520).f R.CLK_POD_REQ_POD) ∧ (250 = (goOf (podSt [] none none) 3707371520).f R.CLK_POD_REQ_MHZ)
    ∧ ((goOf (podSt [] none none) 3707371520).room) ∧ ((goOf (podSt [] none none) 3707371520).podHasRole 23 = false)
    ∧ (¬∃ m, (goOf (podSt [] none none) 3707371520).loop.mig = some m ∧ (m.srcPod = 23 ∨ m.dstPod = 23))
    ∧ ((goOf (podSt [] none none) 3707371520).clk.podReq = none) ∧ (250 ≤ 250 ∧ 250 ≤ 1000 ∧ 23 < 24) := ⟨by decide +kernel,
    by (exact Prod.ext rfl (by decide +kernel)), by decide +kernel, by decide +kernel, by decide +kernel, by decide +kernel, by (exact noMove rfl),
    by decide +kernel, by decide +kernel⟩
theorem wit_ClocksHoldOverHopAndSync_21 : (((podSt [] none (some (23, 999))).start 8).inReset = false)
    ∧ (((podSt [] none (some (23, 999))).start 8).clk.podReq = some (23, 999)) ∧ (23 < 24) ∧ (250 ≤ 999) ∧ (999 ≤ 1000)
    ∧ (((podSt [] none (some (23, 999))).start 8).room) := by decide +kernel
/-- Context 511 waits to precharge; the bucket is used, open or not, with a level and waiting requests. -/
def tok (en opened : Bool) (level : Nat) (q : List (Nat × Nat)) : State :=
  { ((((((live.setB R.PWR_TOK_CFG_EN en).setB R.PWR_TOK_STAT_OPEN opened).setF R.PWR_TOK_STAT_LEVEL level).setF R.PWR_TOK_CFG_CAP 7).setF R.PWR_TOK_CFG_PC_COST 3).setF
      R.PWR_TOK_CFG_AUX_COST 2).setF R.PWR_TOK_CFG_REFILL 1 with
    loop := { ctx := [(511, { desc := { sections := 4 }, dcdc := { st := 1 } })] }, pwr := { porst := false, tokens := q, refillAt := some 8 } }
theorem wit_StartTokensAreGrantedInOrder_1 : (((tok true false 0 [(0, 5), (9, 7)]).start 8).sealed = true)
    ∧ (∀ (y : Nat × Nat), y ∈ ((tok true false 0 [(0, 5), (9, 7)]).start 8).pwr.tokens → y.snd ≠ 511) ∧ (511 < 512
    ∧ (((tok true false 0 [(0, 5), (9, 7)]).start 8).ctx 511).section_ 2 = true ∧ (((tok true false 0 [(0, 5), (9, 7)]).start 8).dcdc 511).st = bWait
    ∧ (((tok true false 0 [(0, 5), (9, 7)]).start 8).dcdc 511).granted = false ∨ 511 = 512 + 0
    ∧ ((tok true false 0 [(0, 5), (9, 7)]).start 8).bcOn 0 = true ∧ ((tok true false 0 [(0, 5), (9, 7)]).start 8).bcPhase 0 = bcStopped
    ∧ 8 / 256 ≤ (((tok true false 0 [(0, 5), (9, 7)]).start 8).bc 0).duty ∧ (((tok true false 0 [(0, 5), (9, 7)]).start 8).bc 0).retryAt = none
    ∧ (((tok true false 0 [(0, 5), (9, 7)]).start 8).bc 0).barred = false) ∧ (((tok true false 0 [(0, 5), (9, 7)]).start 8).b R.PWR_TOK_CFG_EN = true)
    ∧ (((tok true false 0 [(0, 5), (9, 7)]).start 8).b R.PWR_TOK_STAT_OPEN = false) := ⟨by decide +kernel, by decide +kernel,
    by (exact Or.inl (by decide +kernel)), by decide +kernel, by decide +kernel⟩
theorem wit_StartTokensAreGrantedInOrder_2 : (((tok false false 0 []).start 8).sealed = true)
    ∧ (∀ (y : Nat × Nat), y ∈ ((tok false false 0 []).start 8).pwr.tokens → y.snd ≠ 511) ∧ (511 < 512
    ∧ (((tok false false 0 []).start 8).ctx 511).section_ 2 = true ∧ (((tok false false 0 []).start 8).dcdc 511).st = bWait
    ∧ (((tok false false 0 []).start 8).dcdc 511).granted = false ∨ 511 = 512 + 0 ∧ ((tok false false 0 []).start 8).bcOn 0 = true
    ∧ ((tok false false 0 []).start 8).bcPhase 0 = bcStopped ∧ 8 / 256 ≤ (((tok false false 0 []).start 8).bc 0).duty
    ∧ (((tok false false 0 []).start 8).bc 0).retryAt = none ∧ (((tok false false 0 []).start 8).bc 0).barred = false)
    ∧ (((tok false false 0 []).start 8).b R.PWR_TOK_CFG_EN = false) ∧ (((tok false false 0 []).start 8).pwr.tokens = [])
    ∧ (((tok false false 0 []).start 8).room) ∧ (511 < 1024) := ⟨by decide +kernel, by decide +kernel, by (exact Or.inl (by decide +kernel)),
    by decide +kernel, by decide +kernel, by decide +kernel, by decide +kernel⟩
theorem wit_StartTokensAreGrantedInOrder_3 : (((tok true true 3 []).start 8).sealed = true)
    ∧ (∀ (y : Nat × Nat), y ∈ ((tok true true 3 []).start 8).pwr.tokens → y.snd ≠ 511) ∧ (511 < 512
    ∧ (((tok true true 3 []).start 8).ctx 511).section_ 2 = true ∧ (((tok true true 3 []).start 8).dcdc 511).st = bWait
    ∧ (((tok true true 3 []).start 8).dcdc 511).granted = false ∨ 511 = 512 + 0 ∧ ((tok true true 3 []).start 8).bcOn 0 = true
    ∧ ((tok true true 3 []).start 8).bcPhase 0 = bcStopped ∧ 8 / 256 ≤ (((tok true true 3 []).start 8).bc 0).duty
    ∧ (((tok true true 3 []).start 8).bc 0).retryAt = none ∧ (((tok true true 3 []).start 8).bc 0).barred = false)
    ∧ (((tok true true 3 []).start 8).b R.PWR_TOK_CFG_EN = true) ∧ (((tok true true 3 []).start 8).b R.PWR_TOK_STAT_OPEN = true)
    ∧ (((tok true true 3 []).start 8).pwr.tokens = [])
    ∧ (((tok true true 3 []).start 8).tokenCost 511 ≤ ((tok true true 3 []).start 8).f R.PWR_TOK_STAT_LEVEL) ∧ (((tok true true 3 []).start 8).room)
    := ⟨by decide +kernel, by decide +kernel, by (exact Or.inl (by decide +kernel)), by decide +kernel, by decide +kernel, by decide +kernel,
    by decide +kernel, by decide +kernel⟩
/-- Block commutation of AX3 is stopped and asked for a duty of 8/256. -/
def bc3 : State := { ((((tok false false 0 []).setB R.AUX_CTL_EN true).setB R.AUX_BR_CFG_EN true 3).setB R.AUX_BC_CFG_EN true 3).setF R.AUX_BC_START_T_ALIGN 5 3 with pwm := { bc := [(3, { duty := 8 / 256 })] } }
theorem wit_StartTokensAreGrantedInOrder_4 : ((bc3.start 8).sealed = true) ∧ (∀ (y : Nat × Nat), y ∈ (bc3.start 8).pwr.tokens → y.snd ≠ 515)
    ∧ (515 < 512 ∧ ((bc3.start 8).ctx 515).section_ 2 = true ∧ ((bc3.start 8).dcdc 515).st = bWait
    ∧ ((bc3.start 8).dcdc 515).granted = false ∨ 515 = 512 + 3 ∧ (bc3.start 8).bcOn 3 = true ∧ (bc3.start 8).bcPhase 3 = bcStopped
    ∧ 8 / 256 ≤ ((bc3.start 8).bc 3).duty ∧ ((bc3.start 8).bc 3).retryAt = none ∧ ((bc3.start 8).bc 3).barred = false)
    ∧ ((bc3.start 8).b R.PWR_TOK_CFG_EN = false) ∧ ((bc3.start 8).pwr.tokens = []) ∧ ((bc3.start 8).room) ∧ (515 < 1024) := ⟨by decide +kernel,
    by decide +kernel, by (exact Or.inr (by decide +kernel)), by decide +kernel, by decide +kernel, by decide +kernel, by decide +kernel⟩
theorem wit_StartTokensAreGrantedInOrder_5 : (((tok true false 0 [(0, 5), (9, 511)]).start 8).sealed = true)
    ∧ (∃ y, y ∈ ((tok true false 0 [(0, 5), (9, 511)]).start 8).pwr.tokens ∧ y.snd = ((tok true false 0 [(0, 5), (9, 511)]).start 8).requester 511)
    ∧ (((tok true false 0 [(0, 5), (9, 511)]).start 8).b R.PWR_TOK_CFG_EN = true)
    ∧ (((tok true false 0 [(0, 5), (9, 511)]).start 8).b R.PWR_TOK_STAT_OPEN = false) ∧ (((tok true false 0 [(0, 5), (9, 511)]).start 8).room)
    := by decide +kernel
theorem wit_StartTokensAreGrantedInOrder_6 : (((tok true true 8 []).start 8).sealed = true) ∧ (((tok true true 8 []).start 8).pwr.refillAt = some 8)
    ∧ (8 ≤ ((tok true true 8 []).start 8).now) ∧ (((tok true true 8 []).start 8).b R.PWR_TOK_STAT_OPEN = true)
    ∧ (((tok true true 8 []).start 8).b R.PWR_TOK_CFG_EN = true) ∧ (((tok true true 8 []).start 8).pwr.tokens = []) := by decide +kernel
theorem wit_StartTokensAreGrantedInOrder_7 : (((tok true true 2 [(0, 511)]).start 8).sealed = true)
    ∧ (((tok true true 2 [(0, 511)]).start 8).pwr.refillAt = some 8) ∧ (8 ≤ ((tok true true 2 [(0, 511)]).start 8).now)
    ∧ (((tok true true 2 [(0, 511)]).start 8).b R.PWR_TOK_STAT_OPEN = true) ∧ (((tok true true 2 [(0, 511)]).start 8).b R.PWR_TOK_CFG_EN = true)
    ∧ (((tok true true 2 [(0, 511)]).start 8).pwr.tokens = [(0, 511)])
    ∧ (((tok true true 2 [(0, 511)]).start 8).tokenCost 511 ≤ min (((tok true true 2 [(0, 511)]).start 8).f R.PWR_TOK_STAT_LEVEL + 1) (((tok true true 2 [(0, 511)]).start 8).f R.PWR_TOK_CFG_CAP + 1))
    ∧ (((tok true true 2 [(0, 511)]).start 8).room) := by decide +kernel
theorem wit_StartTokensAreGrantedInOrder_8 : (((tok true true 1 [(0, 511), (1, 515)]).start 8).sealed = true)
    ∧ (((tok true true 1 [(0, 511), (1, 515)]).start 8).pwr.refillAt = some 8) ∧ (8 ≤ ((tok true true 1 [(0, 511), (1, 515)]).start 8).now)
    ∧ (((tok true true 1 [(0, 511), (1, 515)]).start 8).b R.PWR_TOK_STAT_OPEN = true)
    ∧ (((tok true true 1 [(0, 511), (1, 515)]).start 8).b R.PWR_TOK_CFG_EN = true)
    ∧ (((tok true true 1 [(0, 511), (1, 515)]).start 8).pwr.tokens = [(0, 511), (1, 515)])
    ∧ (min (((tok true true 1 [(0, 511), (1, 515)]).start 8).f R.PWR_TOK_STAT_LEVEL + 1) (((tok true true 1 [(0, 511), (1, 515)]).start 8).f R.PWR_TOK_CFG_CAP + 1) < ((tok true true 1 [(0, 511), (1, 515)]).start 8).tokenCost 511)
    := by decide +kernel
/-- The write of PWR_TOK_CFG at instant 0. -/
def tokWrote (s : State) (data : Word) : State × Option (RegHit × List FieldDef) := (s.start 0).writeAt 1 .pwr (R.PWR_TOK_CFG_EN.off 0 0) data
theorem wit_StartTokensAreGrantedInOrder_9 : (((tok true true 3 []).start 0).sealed = true)
    ∧ (((tok true true 3 []).start 0).writeAt 1 Blk.pwr (R.PWR_TOK_CFG_EN.off 0 0) 2215444481 = ((tokWrote (tok true true 3 []) 2215444481).fst, some (((tokWrote (tok true true 3 []) 2215444481).snd.getD (hitAddr, [])).fst, ((tokWrote (tok true true 3 []) 2215444481).snd.getD (hitAddr, [])).snd)))
    ∧ (getBits (List.foldl (fun x fd => applyField 0 x 2215444481 fd) ((tokWrote (tok true true 3 []) 2215444481).fst.word Blk.pwr 16) ((tokWrote (tok true true 3 []) 2215444481).snd.getD (hitAddr, [])).snd) 29 26 + 1 < getBits (List.foldl (fun x fd => applyField 0 x 2215444481 fd) ((tokWrote (tok true true 3 []) 2215444481).fst.word Blk.pwr 16) ((tokWrote (tok true true 3 []) 2215444481).snd.getD (hitAddr, [])).snd) 20 18 ∨ getBits (List.foldl (fun x fd => applyField 0 x 2215444481 fd) ((tokWrote (tok true true 3 []) 2215444481).fst.word Blk.pwr 16) ((tokWrote (tok true true 3 []) 2215444481).snd.getD (hitAddr, [])).snd) 29 26 + 1 < getBits (List.foldl (fun x fd => applyField 0 x 2215444481 fd) ((tokWrote (tok true true 3 []) 2215444481).fst.word Blk.pwr 16) ((tokWrote (tok true true 3 []) 2215444481).snd.getD (hitAddr, [])).snd) 17 15)
    := ⟨by decide +kernel, by (exact canWrote_eq _ (by decide +kernel)), by decide +kernel⟩
theorem wit_StartTokensAreGrantedInOrder_10 : (((tok true true 0 [(0, 511)]).start 0).sealed = true)
    ∧ (((tok true true 0 [(0, 511)]).start 0).writeAt 1 Blk.pwr (R.PWR_TOK_CFG_EN.off 0 0) 470614017 = ((tokWrote (tok true true 0 [(0, 511)]) 470614017).fst, some (((tokWrote (tok true true 0 [(0, 511)]) 470614017).snd.getD (hitAddr, [])).fst, ((tokWrote (tok true true 0 [(0, 511)]) 470614017).snd.getD (hitAddr, [])).snd)))
    ∧ (¬(getBits (List.foldl (fun x fd => applyField 0 x 470614017 fd) ((tokWrote (tok true true 0 [(0, 511)]) 470614017).fst.word Blk.pwr 16) ((tokWrote (tok true true 0 [(0, 511)]) 470614017).snd.getD (hitAddr, [])).snd) 29 26 + 1 < getBits (List.foldl (fun x fd => applyField 0 x 470614017 fd) ((tokWrote (tok true true 0 [(0, 511)]) 470614017).fst.word Blk.pwr 16) ((tokWrote (tok true true 0 [(0, 511)]) 470614017).snd.getD (hitAddr, [])).snd) 20 18 ∨ getBits (List.foldl (fun x fd => applyField 0 x 470614017 fd) ((tokWrote (tok true true 0 [(0, 511)]) 470614017).fst.word Blk.pwr 16) ((tokWrote (tok true true 0 [(0, 511)]) 470614017).snd.getD (hitAddr, [])).snd) 29 26 + 1 < getBits (List.foldl (fun x fd => applyField 0 x 470614017 fd) ((tokWrote (tok true true 0 [(0, 511)]) 470614017).fst.word Blk.pwr 16) ((tokWrote (tok true true 0 [(0, 511)]) 470614017).snd.getD (hitAddr, [])).snd) 17 15))
    := ⟨by decide +kernel, by (exact canWrote_eq _ (by decide +kernel)), by decide +kernel⟩
theorem wit_StartTokensAreGrantedInOrder_11 : (((tok false true 5 []).start 0).sealed = true)
    ∧ (((tok false true 5 []).start 0).writeAt 1 Blk.pwr (R.PWR_TOK_CFG_EN.off 0 0) 2282586113 = ((tokWrote (tok false true 5 []) 2282586113).fst, some (((tokWrote (tok false true 5 []) 2282586113).snd.getD (hitAddr, [])).fst, ((tokWrote (tok false true 5 []) 2282586113).snd.getD (hitAddr, [])).snd)))
    ∧ (¬(getBits (List.foldl (fun x fd => applyField 0 x 2282586113 fd) ((tokWrote (tok false true 5 []) 2282586113).fst.word Blk.pwr 16) ((tokWrote (tok false true 5 []) 2282586113).snd.getD (hitAddr, [])).snd) 29 26 + 1 < getBits (List.foldl (fun x fd => applyField 0 x 2282586113 fd) ((tokWrote (tok false true 5 []) 2282586113).fst.word Blk.pwr 16) ((tokWrote (tok false true 5 []) 2282586113).snd.getD (hitAddr, [])).snd) 20 18 ∨ getBits (List.foldl (fun x fd => applyField 0 x 2282586113 fd) ((tokWrote (tok false true 5 []) 2282586113).fst.word Blk.pwr 16) ((tokWrote (tok false true 5 []) 2282586113).snd.getD (hitAddr, [])).snd) 29 26 + 1 < getBits (List.foldl (fun x fd => applyField 0 x 2282586113 fd) ((tokWrote (tok false true 5 []) 2282586113).fst.word Blk.pwr 16) ((tokWrote (tok false true 5 []) 2282586113).snd.getD (hitAddr, [])).snd) 17 15))
    := ⟨by decide +kernel, by (exact canWrote_eq _ (by decide +kernel)), by decide +kernel⟩
theorem wit_AnswersEventsAndSectionsComplete_1 : (1 < 2) ∧ (65537 < 1048576) ∧ (1 ≤ 4) ∧ (4 ≤ 4096) ∧ ((live.start 8).answers 1 65537 false = true)
    ∧ (¬(4 = 4 ∧ 65537 % 4 = 0)) := by decide +kernel
theorem wit_AnswersEventsAndSectionsComplete_2 : (1 < 2) ∧ (1048572 < 1048576) ∧ (1 ≤ 4) ∧ (4 ≤ 4096) ∧ ((live.start 8).answers 1 1048572 true = true)
    ∧ (1048572 % 4 = 0) ∧ (findReg 1048572 1 = none) := by decide +kernel
/-- Generator 7 has a period of 1,000 ns and a phase of 3; accumulator 255 closes on it; unit 23 takes its injected trigger from it. -/
def ntev7 (step : Option Nat) (ph : Nat) : State :=
  { ((((((((((live.setB R.MEAS_CTL_EN true).setB R.MEAS_CTL_CAL_DONE true).setF R.MEAS_NTEV_PER_PERIOD 1000 7).setF R.MEAS_NTEV_PH_LO_PHASE_LO ph 7).setB R.MEAS_ACC_CFG_EN true 255).setF
      R.MEAS_ACC_CLOSE_SRC 1 255).setF R.MEAS_ACC_CLOSE_ARG 7 255).setB R.MEAS_SEQ_CTL_EN true 23).setB R.MEAS_SEQ_CTL_MODE true 23).setF R.MEAS_SEQ_CTL_INJ_TRIG 2 23).setF R.MEAS_SEQ_CTL_INJ_NTEV 7 23 with
    meas := { acc := [(255, { sum := 99, cnt := 4 })], ntevDone := [(7, [(0, 1)])] }, net := { stepTick := step } }
theorem ntev7_flight (step : Option Nat) (ph t n : Nat) : (((ntev7 step ph).start t).unit n).flight = [] := rfl
theorem wit_AnswersEventsAndSectionsComplete_3 : (((ntev7 none 3).start 8016).sealed = true) ∧ (((ntev7 none 3).start 8016).measOn = true)
    ∧ (((ntev7 none 3).start 8016).regs.canon) ∧ (7 < 8) ∧ (1000 = ((ntev7 none 3).start 8016).f R.MEAS_NTEV_PER_PERIOD 7) ∧ (1000 ≠ 0)
    ∧ (3 = signed 64 (((ntev7 none 3).start 8016).f R.MEAS_NTEV_PH_LO_PHASE_LO 7 + ((ntev7 none 3).start 8016).f R.MEAS_NTEV_PH_HI_PHASE_HI 7 * 2 ^ 32))
    ∧ (3 + 2 * ↑1000 ≤ ((ntev7 none 3).start 8016).ntime) ∧ (((ntev7 none 3).start 8016).ntime < 3 + (2 + 1) * ↑1000)
    ∧ (((ntev7 none 3).start 8016).ntime < 3 + 2 * ↑1000 + if ((ntev7 none 3).start 8016).net.stepTick = some ((ntev7 none 3).start 8016).pwmTime then 1 else 2)
    ∧ (inRanges 2 (kget [] ((ntev7 none 3).start 8016).meas.ntevDone 7) = false)
    ∧ (∀ (n : Nat) (x : Nat × Nat × Instant), x ∈ (((ntev7 none 3).start 8016).unit n).flight → ((ntev7 none 3).start 8016).convDone x.snd.snd = false)
    := ⟨by decide +kernel, by decide +kernel, by (intro b; cases b <;> decide +kernel), by decide +kernel, by decide +kernel, by decide +kernel,
    by decide +kernel, by decide +kernel, by decide +kernel, by decide +kernel, by decide +kernel,
    by (intro n x hx; exact absurd hx (by rw [ntev7_flight]; exact List.not_mem_nil))⟩
theorem wit_AnswersEventsAndSectionsComplete_4 : (((ntev7 (some 1002) 4).start 8016).sealed = true)
    ∧ (((ntev7 (some 1002) 4).start 8016).measOn = true) ∧ (((ntev7 (some 1002) 4).start 8016).regs.canon) ∧ (7 < 8)
    ∧ (1000 = ((ntev7 (some 1002) 4).start 8016).f R.MEAS_NTEV_PER_PERIOD 7) ∧ (1000 ≠ 0)
    ∧ (4 = signed 64 (((ntev7 (some 1002) 4).start 8016).f R.MEAS_NTEV_PH_LO_PHASE_LO 7 + ((ntev7 (some 1002) 4).start 8016).f R.MEAS_NTEV_PH_HI_PHASE_HI 7 * 2 ^ 32))
    ∧ (4 + 2 * ↑1000 ≤ ((ntev7 (some 1002) 4).start 8016).ntime) ∧ (((ntev7 (some 1002) 4).start 8016).ntime < 4 + (2 + 1) * ↑1000)
    ∧ (((ntev7 (some 1002) 4).start 8016).ntime < 4 + 2 * ↑1000 + if ((ntev7 (some 1002) 4).start 8016).net.stepTick = some ((ntev7 (some 1002) 4).start 8016).pwmTime then 1 else 2)
    ∧ (inRanges 2 (kget [] ((ntev7 (some 1002) 4).start 8016).meas.ntevDone 7) = false)
    ∧ (∀ (n : Nat) (x : Nat × Nat × Instant), x ∈ (((ntev7 (some 1002) 4).start 8016).unit n).flight → ((ntev7 (some 1002) 4).start 8016).convDone x.snd.snd = false)
    := ⟨by decide +kernel, by decide +kernel, by (intro b; cases b <;> decide +kernel), by decide +kernel, by decide +kernel, by decide +kernel,
    by decide +kernel, by decide +kernel, by decide +kernel, by decide +kernel, by decide +kernel,
    by (intro n x hx; exact absurd hx (by rw [ntev7_flight]; exact List.not_mem_nil))⟩
def hdr5 : SlotHdr :=
  { magic := imgMagic, format := 1, hdrLen := 368, seq := 8, nsec := 5, len := 1056, keyOfs := 640, sigOfs := 960
    table := [{ id := 0x200, ofs := 384 }, { id := 0x300, ofs := 384 }, { id := 0x400, ofs := 384 }, { id := 0x500, ofs := 384, len := 160 }, { id := 0x600, ofs := 576, len := 64 }] }
def loaded4 : State := { boot1 true false with cfg := { (boot1 true false).cfg with slots := [(1, { imgOf (hdrOf 8 0 992) true [] with hdr := hdr5, secs := [.programs [], .contexts [], .telemetry [], .huskPolicy true [0], .network []] })], loaded := [0x200, 0x300, 0x400] } }
theorem wit_AnswersEventsAndSectionsComplete_5 : ((loaded4.start 8).alive = true) ∧ ((loaded4.start 8).cfg.released = true)
    ∧ ((loaded4.start 8).cfg.placed = false) ∧ ((loaded4.start 8).b R.REL_STAT_BOOT_BIST_DONE = true) ∧ ((loaded4.start 8).b R.CFG_STAT_SEALED = false)
    ∧ (layoutBad ((loaded4.start 8).slotImg ((loaded4.start 8).cfg.order.head?.getD 0)) = none)
    ∧ (List.drop (loaded4.start 8).cfg.loaded.length ((loaded4.start 8).slotImg ((loaded4.start 8).cfg.order.head?.getD 0)).secs = [Section.huskPolicy true [0], Section.network []])
    ∧ (∀ (l : Nat), l ∈ (loaded4.start 8).cfg.loaded → l < 1280) ∧ ([0].length ≤ 8) := by decide +kernel

/-- R460: the pod clock of the example at 700 MHz reads 700,011 kHz. -/
theorem test_pod_clock_700 : (match exec (.podClkChanged 8) { live with clk := { ungatedAt := some 0, podReq := some (3, 700) } } with
    | .next s => decide (s.f R.CLK_POD_KHZ 3 = 700011) | _ => false) = true := by decide +kernel
/-- The command at the front runs; the rest stays. -/
theorem wit_StepTakesFrontCommand_1 : ({ live with pending := [.vgdUv 8, .ready 9] }).pending = .vgdUv 8 :: [.ready 9] := rfl
theorem wit_StepTakesFrontCommand_2 : live.pending = [] := rfl
theorem live_canon : live.regs.canon := by intro b; cases b <;> decide +kernel
/-- A device in service keeps the invariant, and a step from it ends in a next state. -/
theorem wit_StepKeepsInvariant_1 : Inv live ∧ step live = .next live := by
  refine ⟨⟨live_canon, ⟨by decide +kernel, by decide +kernel, by decide +kernel⟩,
    ⟨by decide +kernel, by decide +kernel, by decide +kernel⟩, ?_⟩, rfl⟩
  rintro (h | h | h) <;> exact nomatch h

end Sys2Proof.Tests
end

section
/-! PROOFS. O7. Bits of words and fields: what single bits read after a field is set (R9) and after a written 1 clears them
(R5); and what a write that the husk grants does (R5, R6, Table 0.5). -/
namespace Sys2Proof.Machine

/-- A bit of a field is a bit of its word. -/
theorem testBit_getBits (w : Word) (hi lo k : Nat) : (getBits w hi lo).testBit k = (decide (k < hi + 1 - lo) && w.getLsbD (lo + k)) := by
  unfold getBits
  rw [Nat.testBit_mod_two_pow, Nat.testBit_shiftRight]
  rfl

theorem getBits_eq_of_getLsbD {w w' : Word} {i : Nat} (h : getBits w i i = getBits w' i i) : w.getLsbD i = w'.getLsbD i := by
  have := congrArg (Nat.testBit · 0) h
  simpa only [testBit_getBits, Nat.add_zero, show 0 < i + 1 - i by omega, decide_true, Bool.true_and] using this

/-- The bits of a word after one of its fields is set. -/
theorem getLsbD_setBits (w : Word) {hi lo : Nat} (v : Nat) {i : Nat} (h : lo ≤ hi) (hh : hi < 32) (hi32 : i < 32) :
    (setBits w hi lo v).getLsbD i = if lo ≤ i ∧ i ≤ hi then v.testBit (i - lo) else w.getLsbD i := by
  split
  case isTrue hin =>
    have hk := congrArg (Nat.testBit · (i - lo)) (getBits_setBits_same w v h hh)
    simp only [testBit_getBits, Nat.testBit_mod_two_pow, show i - lo < hi + 1 - lo by omega, decide_true, Bool.true_and,
      show lo + (i - lo) = i by omega] at hk
    exact hk
  case isFalse hout =>
    exact getBits_eq_of_getLsbD (getBits_setBits_other w v h (Nat.le_refl i) hi32 (by omega))

/-- The bits of a word after a write has taken effect on one of its fields, by the access code (Table 0.5). -/
theorem getLsbD_applyField (fresh old data : Word) (fd : FieldDef) {i : Nat} (h : fd.lo ≤ fd.hi) (hh : fd.hi < 32) (hi : i < 32) :
    (applyField fresh old data fd).getLsbD i =
      if fd.lo ≤ i ∧ i ≤ fd.hi then
        match fd.acc with
        | .ro => old.getLsbD i
        | .rw | .wo => data.getLsbD i
        | .w1c => old.getLsbD i && !(data.getLsbD i && !fresh.getLsbD i)
        | .w1s => old.getLsbD i || data.getLsbD i
      else old.getLsbD i := by
  have field (v : Word) : (setBits old fd.hi fd.lo (getBits v fd.hi fd.lo)).getLsbD i
      = if fd.lo ≤ i ∧ i ≤ fd.hi then v.getLsbD i else old.getLsbD i := by
    rw [getLsbD_setBits _ _ h hh hi]
    by_cases hin : fd.lo ≤ i ∧ i ≤ fd.hi
    · rw [if_pos hin, if_pos hin, testBit_getBits, decide_eq_true (by omega), Bool.true_and, show fd.lo + (i - fd.lo) = i by omega]
    · rw [if_neg hin, if_neg hin]
  unfold applyField
  cases fd.acc with
  | ro => exact (ite_self _).symm
  | rw => exact field data
  | wo => exact field data
  | w1c => simpa [hi] using field (old &&& ~~~ (data &&& ~~~ fresh))
  | w1s => simpa using field (old ||| data)

/-- Bit `k` of a field is a bit of the register's word. -/
theorem bitF_eq_getLsbD (s : State) (r : FRef) (k i j : Nat) :
    s.bitF r k i j = (decide (k < r.hi + 1 - r.lo) && (s.word r.blk (r.key i j)).getLsbD (r.lo + k)) := testBit_getBits ..

/-- A field of one bit. -/
theorem b_eq_bitF (s : State) (r : FRef) (i j : Nat) (h : r.lo = r.hi) : s.b r i j = s.bitF r 0 i j := by
  have hlt := f_lt s r i j
  rw [show r.hi + 1 - r.lo = 1 by omega] at hlt
  unfold State.b State.bitF
  generalize s.f r i j = v at hlt ⊢
  obtain rfl | rfl : v = 0 ∨ v = 1 := by omega
  · rfl
  · rfl

/-- A clear of a W1C bit clears the bit that it names unless the hardware sets it in the same cycle, and no other (R5). -/
theorem bitF_w1c (s : State) (r : FRef) (k i j k' : Nat) (h : r.hi < 32) :
    (s.w1c r k i j).bitF r k' i j = (s.bitF r k' i j && !(decide (k' = k) && !s.setNow r k i j)) := by
  unfold State.w1c
  split
  case isTrue hn => simp [hn]
  case isFalse hn =>
    rw [bitF_eq_getLsbD, bitF_eq_getLsbD, word_setWord_same, show (1 : Word) <<< (r.lo + k) = BitVec.twoPow 32 (r.lo + k) from rfl,
      BitVec.getLsbD_and, BitVec.getLsbD_not, BitVec.getLsbD_twoPow]
    by_cases hk : k' < r.hi + 1 - r.lo
    · have h32 : r.lo + k' < 32 := by omega
      by_cases he : k' = k
      · subst he; simp [hn, h32]
      · simp [he, h32, Ne.symm he]
    · simp [hk]

@[simp] theorem State.w1c_fresh (s : State) (r : FRef) (k i j : Nat) : (s.w1c r k i j).fresh = s.fresh := by
  unfold State.w1c
  split <;> rfl

@[simp] theorem State.w1c_meas (s : State) (r : FRef) (k i j : Nat) : (s.w1c r k i j).meas = s.meas := by
  unfold State.w1c
  split <;> rfl

theorem setNow_of_fresh {s s' : State} (h : s'.fresh = s.fresh) (r : FRef) (k i j : Nat) : s'.setNow r k i j = s.setNow r k i j := by
  unfold State.setNow State.freshOf; rw [h]

/-! ## Granted writes (R5, R6, R7) -/

/-- A register found in a block stands in that block. -/
theorem blk_of_findIn {b : Blk} {off fn : Nat} {h : RegHit} (hf : findIn b off fn = some h) : h.blk = b := by
  unfold findIn at hf
  obtain ⟨d, _, hd⟩ := List.exists_of_findSome?_eq_some hf
  split at hd
  · cases hd
  · cases hd; rfl

/-- A register found at an address is found in its block. -/
theorem findIn_of_findReg {addr fn : Nat} {h : RegHit} (hf : findReg addr fn = some h) : findIn h.blk (addr % 0x10000) fn = some h := by
  unfold findReg at hf
  split at hf
  · cases hf
  · rw [blk_of_findIn hf]; exact hf

/-- An access that keeps a session from going idle changes neither a register nor what the husk makes of the access. -/
theorem word_touch (s : State) (fn : Nat) (b : Blk) (k : Nat) : (s.touch fn).word b k = s.word b k := by
  unfold State.touch
  split <;> rfl

theorem freshOf_touch (s : State) (fn : Nat) (b : Blk) (k : Nat) : (s.touch fn).freshOf b k = s.freshOf b k := by
  unfold State.touch
  split <;> rfl

theorem domainOf_touch (s : State) (fn f : Nat) : (s.touch fn).domainOf f = s.domainOf f := by
  unfold State.touch
  split <;> rfl

theorem bitGrant_touch (s : State) (fn : Nat) (h : RegHit) (d : Nat) : (s.touch fn).bitGrant h d = s.bitGrant h d := by
  unfold State.touch
  split <;> rfl

/-- The word of a register after a granted write: each granted field that has no command of its own by its access code. -/
def State.grantedWord (s : State) (h : RegHit) (fs : List FieldDef) (d : Word) : Word :=
  (fs.filter fun fd => !fd.own).foldl (fun w fd => applyField (nw (s.freshOf h.blk h.key)) w d fd) (s.word h.blk h.key)

/-- A write that the husk grants sets the register's word, and keeps the session. -/
theorem writeAt_granted {s : State} {fn off : Nat} {data : Word} {h : RegHit} {fs : List FieldDef} (hb : s.barOpen = true)
    (ho : s.blockOpen h.blk fn true = true) (hf : findIn h.blk off fn = some h) (hc : s.checkWrite h fn = .granted fs) :
    s.writeAt fn h.blk off data
      = ((s.touch fn).setWord h.blk h.key (s.grantedWord h fs (data &&& s.bitGrant h (s.domainOf fn))), some (h, fs)) := by
  unfold State.writeAt State.grantedWord
  simp only [hb, ho, hf, hc, domainOf_touch, bitGrant_touch, freshOf_touch, word_touch]
  rfl

/-- A register whose write brings nothing beyond its fields is no ring base that could be held (R371). -/
theorem ringBaseHeld_of_plain {s : State} {h : RegHit} (hp : h.plain = true) : s.ringBaseHeld h = false := by
  unfold RegHit.plain at hp
  unfold State.ringBaseHeld
  cases hb : h.blk <;> simp [hb] at hp ⊢
  simp [hp]

/-- No block follows a write of it. -/
theorem afterWrite_of_plain {s : State} {h : RegHit} {data : Word} (hp : h.plain = true) : s.afterWrite h data = s := by
  unfold RegHit.plain at hp
  unfold State.afterWrite
  cases hb : h.blk <;> simp [hb] at hp ⊢ <;> simp [hp]

/-- A write of it takes the plain way. -/
theorem writeReg_of_plain {s : State} {fn addr : Nat} {data : Word} {h : RegHit} (hp : h.plain = true) :
    s.writeReg fn addr data h = s.plainWrite fn addr data h := by
  unfold RegHit.plain at hp
  unfold State.writeReg
  cases hb : h.blk <;> simp [hb] at hp ⊢
  simp [hp]

theorem exec_registerWrite {s : State} {t : Instant} {fn addr : Nat} {data : Word} {h : RegHit} (hfn : fn < 2) (ha : addr < 0x100000)
    (hm : addr % 4 = 0) (hf : findReg addr fn = some h) :
    exec (.registerWrite t fn addr data) s = .next ((s.start t).writeReg fn addr data h) := by
  have hc : (decide (fn < 2) && addr % 4 == 0 && inBar0 addr) = true := by simp [inBar0, hfn, ha, hm]
  refine (congrArg Host.Outcome.next (State.doIf_of hc)).trans ?_
  rw [hf]

/-- Settles O7: the plain way of a granted write sets the register's word alone, and each field's bits follow its access code. -/
theorem grantedWriteSetsFields : Obligations.GrantedWriteSetsFields := by
  unfold Obligations.GrantedWriteSetsFields
  refine ⟨?_, fun fresh old data fd i h hh hi => getLsbD_applyField fresh old data fd h hh hi⟩
  rintro s u t fn addr data d h fs rfl hfn ha hm hf hp hb ho hc rfl
  refine ⟨_, exec_registerWrite hfn ha hm hf, ?_⟩
  rw [writeReg_of_plain hp]
  unfold State.plainWrite
  rw [writeAt_granted hb ho (findIn_of_findReg hf) hc]
  simp only [ringBaseHeld_of_plain hp, Bool.false_eq_true, if_false, afterWrite_of_plain hp]
  refine ⟨word_setWord_same .., fun b k hne => ?_, tch_touch.sysSame (by decide)⟩
  rw [← word_touch (s.start t) fn b k]
  by_cases hbk : b = h.blk
  · subst hbk; exact word_setWord_key _ _ _ fun hk => hne (by rw [hk])
  · exact word_setWord_blk _ _ _ _ hbk

end Sys2Proof.Machine
end

section
/-! PROOFS. O5, O60. Accesses of BAR0 that no register answers (R2, R527), and the state after reset. -/
namespace Sys2Proof.Machine

/-! ## Accesses that no register answers -/

/-- What an access that no register answers does: BAD_ACCESS where the device answers at all, and a read completes with zero. -/
def State.unanswered (s : State) (fn addr len : Nat) (write : Bool) : State :=
  (s.doIf (s.answers fn addr write) (·.badAccess fn addr len write)).readZero fn addr write

theorem exec_misalignedAccess {s : State} {t : Instant} {fn addr len : Nat} {write : Bool} (hf : fn < 2) (ha : addr < 0x100000)
    (h1 : 1 ≤ len) (h2 : len ≤ 4096) (hm : ¬ (len = 4 ∧ addr % 4 = 0)) :
    exec (.misalignedAccess t fn addr len write) s = .next ((s.start t).unanswered fn addr len write) := by
  have hc : (decide (fn < 2) && inBar0 addr && decide (1 ≤ len) && decide (len ≤ 4096) && !(len == 4 && addr % 4 == 0)) = true := by
    have hm' : ¬ len = 4 ∨ ¬ addr % 4 = 0 := by omega
    simp [inBar0, hf, ha, h1, h2, hm']
  exact congrArg _ (State.doIf_of hc)

theorem exec_reservedAddressAccess {s : State} {t : Instant} {fn addr : Nat} {write : Bool} (hf : fn < 2) (ha : addr < 0x100000)
    (hm : addr % 4 = 0) (hn : findReg addr fn = none) :
    exec (.reservedAddressAccess t fn addr write) s = .next ((s.start t).unanswered fn addr 4 write) := by
  have hc : (decide (fn < 2) && inBar0 addr && addr % 4 == 0 && (findReg addr fn).isNone) = true := by
    simp [inBar0, hf, ha, hm, hn]
  exact congrArg _ (State.doIf_of hc)

theorem State.barOpen_of_answers {s : State} {fn addr : Nat} {write : Bool} (h : s.answers fn addr write = true) : s.barOpen = true := by
  unfold State.answers at h
  exact (Bool.and_eq_true_iff.mp h).1

@[simp] theorem State.badAccess_barOpen (s : State) (fn addr len : Nat) (write : Bool) :
    (s.badAccess fn addr len write).barOpen = s.barOpen := State.post_barOpen ..

@[simp] theorem State.badAccess_out (s : State) (fn addr len : Nat) (write : Bool) : (s.badAccess fn addr len write).out = s.out :=
  tch_badAccess.1 .out (by decide)

theorem State.readZero_write {s : State} {fn addr : Nat} : s.readZero fn addr true = s := State.doIf_not (Bool.and_false _)

theorem State.readZero_read {s : State} {fn addr : Nat} (h : s.barOpen = true) : s.readZero fn addr false = s.emit (.readData fn addr 0) :=
  State.doIf_of (by rw [h]; rfl)

/-- A read completes with zero and posts nothing of its own. -/
theorem State.readZero_frame (s : State) (fn addr : Nat) (write : Bool) :
    (s.readZero fn addr write).regs = s.regs ∧ (s.readZero fn addr write).sys = s.sys := by
  unfold State.readZero State.doIf
  split <;> exact ⟨rfl, rfl⟩

/-- Where the device answers, BAD_ACCESS goes to SYS and a read completes with zero. -/
theorem State.unanswered_of_answers {s : State} {fn addr len : Nat} {write : Bool} (h : s.answers fn addr write = true) :
    s.unanswered fn addr len write =
      if write then s.badAccess fn addr len write else (s.badAccess fn addr len write).emit (.readData fn addr 0) := by
  unfold State.unanswered
  rw [State.doIf_of h]
  cases write with
  | true => exact State.readZero_write
  | false => exact State.readZero_read (by rw [State.badAccess_barOpen]; exact State.barOpen_of_answers h)

/-- Where it does not, nothing is posted. -/
theorem State.unanswered_of_not_answers {s : State} {fn addr len : Nat} {write : Bool} (h : s.answers fn addr write = false) :
    s.unanswered fn addr len write = s.readZero fn addr write := by
  unfold State.unanswered
  rw [State.doIf_not h]

theorem State.unanswered_regs {s : State} {fn addr len : Nat} {write : Bool} (hr : s.room) :
    (s.unanswered fn addr len write).regs = s.regs := by
  unfold State.unanswered
  rw [(State.readZero_frame ..).1]
  unfold State.doIf
  split
  · exact State.post_regs _ _ _ _ _ hr
  · rfl

theorem State.unanswered_out {s : State} {fn addr len : Nat} {write : Bool} (hb : s.barOpen = true) :
    (s.unanswered fn addr len write).out = s.out ++ if write then [] else [.readData fn addr 0] := by
  cases ha : s.answers fn addr write with
  | true =>
    rw [State.unanswered_of_answers ha]
    cases write with
    | true => simp
    | false => simp [State.emit]
  | false =>
    rw [State.unanswered_of_not_answers ha]
    cases write with
    | true => simp [State.readZero_write]
    | false => simp [State.readZero_read hb, State.emit]

theorem State.unanswered_reports {s : State} {fn addr len : Nat} {write : Bool} (hr : s.room) (h : s.answers fn addr write = true) :
    Reports s (s.unanswered fn addr len write) E.BAD_ACCESS (subject fn 0 fn) (nw addr) (nw (b2n write + 2 * len)) := by
  have hp := State.post_sys s E.BAD_ACCESS (subject fn 0 fn) (nw addr) (nw (b2n write + 2 * len)) hr
  rw [State.unanswered_of_answers h]
  cases write with
  | true => exact hp
  | false => exact hp.emit _

/-- Settles O5: the access does what `State.unanswered` says, whose registers, outputs and report are stated above. -/
theorem misalignedAccessIsDiscarded : Obligations.MisalignedAccessIsDiscarded := by
  unfold Obligations.MisalignedAccessIsDiscarded
  rintro s u t fn addr len write rfl hf ha h1 h2 hm hb hr
  refine ⟨_, exec_misalignedAccess hf ha h1 h2 hm, State.unanswered_regs hr, ?_, State.unanswered_reports hr, fun h => ?_⟩
  · exact State.unanswered_out hb
  · rw [State.unanswered_of_not_answers h]
    exact (State.readZero_frame ..).2

/-! ## The state after reset -/

/-- Settles O60: the registers by their reset words, the pins because no channel is listed. -/
theorem resetLeavesStatedValues : Obligations.ResetLeavesStatedValues := by
  unfold Obligations.ResetLeavesStatedValues
  dsimp only
  refine ⟨by decide, by decide, by decide, rfl, by decide, by decide, by decide, by decide,
    by decide, fun c => rfl, by decide, by decide, rfl, rfl, rfl⟩

end Sys2Proof.Machine
end

section
/-! PROOFS. O21, O26. Clears of pair faults (R5, R74), and the excitation fault and the clear of a position loss (R5, R91, R97, R98). -/
namespace Sys2Proof.Machine

/-! ## Pair faults -/

theorem pair_setPair_same (s : State) (p : Nat) (x : PairSt) : (s.setPair p x).pair p = x := kget_kset_same ..
theorem pair_setPair_other (s : State) {p q : Nat} (x : PairSt) (h : q ≠ p) : (s.setPair p x).pair q = s.pair q := kget_kset_other _ _ _ h
theorem pair_w1c (s : State) (r : FRef) (k i j p : Nat) : (s.w1c r k i j).pair p = s.pair p := by
  unfold State.pair; rw [State.w1c_meas]

/-- The clear of a pair clears its fault bit, unless that is set in the same cycle, and no other. -/
theorem bitF_clearPair (s : State) (p q : Nat) :
    (s.clearPair p).bitF R.MEAS_PAIR_STAT_FAULT q
      = (s.bitF R.MEAS_PAIR_STAT_FAULT q && !(decide (q = p) && !s.setNow R.MEAS_PAIR_STAT_FAULT p)) := by
  rw [← bitF_w1c s R.MEAS_PAIR_STAT_FAULT p 0 0 q (by decide)]
  unfold State.clearPair
  dsimp only
  split <;> rfl

/-- It notes nothing as set in the present cycle. -/
theorem fresh_clearPair (s : State) (p : Nat) : (s.clearPair p).fresh = s.fresh := by
  rw [← State.w1c_fresh s R.MEAS_PAIR_STAT_FAULT p 0 0]
  unfold State.clearPair
  dsimp only
  split <;> rfl

/-- The count of a pair that loses its fault starts again, and no other. -/
theorem run_clearPair (s : State) (p q : Nat) :
    ((s.clearPair p).pair q).run
      = if q = p ∧ s.bitF R.MEAS_PAIR_STAT_FAULT p = true ∧ s.setNow R.MEAS_PAIR_STAT_FAULT p = false then 0 else (s.pair q).run := by
  unfold State.clearPair
  dsimp only
  rw [bitF_w1c s R.MEAS_PAIR_STAT_FAULT p 0 0 p (by decide)]
  by_cases hc : s.bitF R.MEAS_PAIR_STAT_FAULT p = true ∧ s.setNow R.MEAS_PAIR_STAT_FAULT p = false
  · rw [if_pos (by simp [hc])]
    by_cases hq : q = p
    · subst hq; rw [pair_setPair_same, if_pos ⟨rfl, hc⟩]
    · rw [pair_setPair_other _ _ hq, pair_w1c, if_neg (fun h => hq h.1)]
  · rw [if_neg (by revert hc; cases s.bitF R.MEAS_PAIR_STAT_FAULT p <;> cases s.setNow R.MEAS_PAIR_STAT_FAULT p <;> simp),
      pair_w1c, if_neg (fun h => hc h.2)]

/-- A clear of several pairs, in any order. -/
theorem clearPairs (ps : List Nat) (s : State) (q : Nat) :
    let s' := ps.foldl (fun s p => s.clearPair p) s
    let clears := decide (q ∈ ps) && !s.setNow R.MEAS_PAIR_STAT_FAULT q
    s'.bitF R.MEAS_PAIR_STAT_FAULT q = (s.bitF R.MEAS_PAIR_STAT_FAULT q && !clears)
      ∧ (s'.pair q).run = if s.bitF R.MEAS_PAIR_STAT_FAULT q && clears then 0 else (s.pair q).run := by
  induction ps generalizing s with
  | nil => simp
  | cons p ps ih =>
    obtain ⟨hbit, hrun⟩ := ih (s.clearPair p)
    simp only [List.foldl_cons, bitF_clearPair, setNow_of_fresh (fresh_clearPair s p), run_clearPair] at hbit hrun ⊢
    by_cases hq : q = p
    · subst hq
      simp only [hbit, hrun, List.mem_cons]
      cases s.bitF R.MEAS_PAIR_STAT_FAULT q <;> cases s.setNow R.MEAS_PAIR_STAT_FAULT q <;> simp
    · simp [hbit, hrun, hq]

/-- The summary bit leaves the faults and the counts. -/
theorem f_pairAny (s : State) : s.pairAny.f R.MEAS_PAIR_STAT_FAULT = s.f R.MEAS_PAIR_STAT_FAULT := f_setB_key _ _ (by decide)

theorem b_pairAny (s : State) : s.pairAny.b R.MEAS_STAT_PAIR_ANY = (s.f R.MEAS_PAIR_STAT_FAULT != 0) := b_setB_same _ _ _ _ _ (by decide)

theorem pair_pairAny (s : State) (p : Nat) : s.pairAny.pair p = s.pair p := rfl

theorem exec_pairFaultClear {s w : State} {t : Instant} {fn : Nat} {data : Word}
    (h : (s.start t).actionWrite fn R.MEAS_PAIR_STAT_FAULT data = (w, true)) :
    exec (.pairFaultClear t fn data) s
      = .next (((List.range 32).filter fun p => data.toNat.testBit p).foldl (fun s p => s.clearPair p) w).pairAny := by
  show execPairFaultClear t fn data s = _
  unfold execPairFaultClear
  rw [h]
  rfl

/-- Settles O21: the clear runs pair by pair, and the summary follows the faults that are left. -/
theorem pairFaultClearReleasesPairs : Obligations.PairFaultClearReleasesPairs := by
  unfold Obligations.PairFaultClearReleasesPairs
  intro s w t fn data h
  refine ⟨_, exec_pairFaultClear h, fun p hp => ?_⟩
  have hmem : decide (p ∈ (List.range 32).filter fun p => data.toNat.testBit p) = data.getLsbD p := by
    rw [Bool.eq_iff_iff]
    simp [hp, BitVec.getLsbD]
  have hnow : w.setNow R.MEAS_PAIR_STAT_FAULT p = (w.freshOf .meas (R.MEAS_PAIR_STAT_FAULT.key 0 0)).testBit p :=
    congrArg (Nat.testBit _) (Nat.zero_add p)
  obtain ⟨hbit, hrun⟩ := clearPairs ((List.range 32).filter fun p => data.toNat.testBit p) w p
  rw [hmem, hnow] at hbit hrun
  refine ⟨?_, ?_, ?_⟩
  · rw [bitF_of_f (f_pairAny _)]; exact hbit
  · rw [pair_pairAny]; exact hrun
  · rw [f_pairAny]; exact b_pairAny _

/-! ## The excitation output and LOSS -/

theorem pi_setPi_same (s : State) (n : Nat) (p : PiSt) : (s.setPi n p).pi n = p := kget_kset_same ..

theorem pi_of_pos {s s' : State} (h : s'.pos = s.pos) (n : Nat) : s'.pi n = s.pi n := by
  unfold State.pi; rw [h]

theorem pi_settle (s : State) (n : Nat) : s.settle.pi n = s.pi n := pi_of_pos (tch_settle.1 .pos (by decide)) n

theorem f_settle_pos (s : State) (q : FRef) (i j : Nat) (h : q.blk = .pos) : s.settle.f q i j = s.f q i j :=
  tch_settle.f q i j (by rw [h]; decide)

theorem b_settle_pos (s : State) (q : FRef) (i j : Nat) (h : q.blk = .pos) : s.settle.b q i j = s.b q i j :=
  b_of_f (f_settle_pos s q i j h)

theorem pi_raise (s : State) (r : FRef) (i : Nat) (e : Ev) (a : Nat) (w0 w1 : Word) (n : Nat) :
    (s.raise r i e a w0 w1).pi n = s.pi n := pi_of_pos (State.raise_pos ..) n

/-- A cause of loss leaves the interfaces and the other conditions as they were. -/
theorem pi_lossCause (s : State) (n bit m : Nat) : (s.lossCause n bit).pi m = s.pi m := by
  unfold State.lossCause
  split
  · rw [pi_settle]
    exact (pi_of_pos (State.setBitF_pos ..) m).trans (pi_raise ..)
  · rfl

theorem f_lossCause (s : State) (n bit : Nat) (q : FRef) (i j : Nat) (hq : q.blk = .pos) (hs : Apart q R.POS_PI_STAT_LOSS i j n 0)
    (hl : Apart q R.POS_CTL_LOSS_LINE i j 0 0) : (s.lossCause n bit).f q i j = s.f q i j := by
  unfold State.lossCause
  split
  · rw [f_settle_pos _ _ _ _ hq, f_setBitF, f_setF_apart _ _ _ _ _ _ hl, f_raise _ _ _ _ _ _ _ _ _ _ (by rw [hq]; decide) hs]
  · rfl

/-- A condition sets its bit, and leaves the excitation. -/
theorem b_cond (s : State) (n k : Nat) (r : FRef) (e : Ev) (h : r.lo = r.hi ∧ r.hi < 32) (hb : r.blk ≠ .sys) : (s.cond n k r e).b r n = true :=
  b_raise_same _ _ _ _ _ _ _ h hb

theorem exc_cond (s : State) (n k : Nat) (r : FRef) (e : Ev) : ((s.cond n k r e).pi n).exc = (s.pi n).exc := by
  unfold State.cond
  dsimp only
  rw [pi_raise, pi_setPi_same]

/-- The newest stretch of excitation is kept. -/
theorem head_pruneSegs (now : Nat) (g : ExcSeg) (gs : List ExcSeg) : (pruneSegs now (g :: gs)).head? = some g := by
  unfold pruneSegs
  split <;> rfl

theorem head_pushExc (s : State) (n : Nat) (g : ExcSeg) : ((s.pushExc n g).pi n).exc.head? = some g := by
  unfold State.pushExc
  dsimp only
  exact (congrArg (fun p : PiSt => p.exc.head?) (pi_setPi_same ..)).trans (head_pruneSegs ..)

/-- An excitation that has run is switched as told. -/
theorem head_excSwitch (s : State) (n : Nat) (on : Bool) (h : (s.pi n).exc ≠ []) :
    ∃ g, ((s.excSwitch n on).pi n).exc.head? = some g ∧ g.on = on := by
  unfold State.excSwitch
  split
  · exact ⟨_, head_pushExc .., rfl⟩
  · contradiction

theorem f_excSwitch (s : State) (n : Nat) (on : Bool) (q : FRef) (i j : Nat) : (s.excSwitch n on).f q i j = s.f q i j := by
  unfold State.excSwitch
  split <;> rfl

theorem exec_excFault {s : State} {t : Instant} {n : Nat} (hp : (s.start t).piOn n = true) (he : (s.start t).b R.POS_RES_CFG_EXC_EN n = true) :
    exec (.excFault t n) s
      = .next ((((s.start t).cond n 0 R.POS_PI_STAT_EXC_FAULT E.EXC_FAULT).excSwitch n false).lossCause n lossExc) :=
  congrArg Host.Outcome.next (State.doIf_of (by rw [hp, he]; rfl))

/-- Bits that the hardware sets in a field are not noted in another field of the register. -/
theorem setNow_setF_bits (s : State) {r q : FRef} (v i j k : Nat) (hb : q.blk = r.blk) (hk : q.key i j = r.key i j)
    (h : q.lo + k < r.lo ∨ r.hi < q.lo + k) : (s.setF r v i j).setNow q k i j = s.setNow q k i j := by
  unfold State.setNow State.freshOf State.setF State.noteSet
  rw [hb, hk, kget_kset_same, Nat.testBit_or, Nat.testBit_shiftLeft, Nat.testBit_mod_two_pow]
  have : (decide (r.lo ≤ q.lo + k) && (decide (q.lo + k - r.lo < r.hi + 1 - r.lo) && v.testBit (q.lo + k - r.lo))) = false := by
    rcases h with h | h
    · rw [decide_eq_false (by omega)]; rfl
    · rw [decide_eq_false (p := q.lo + k - r.lo < _) (by omega), Bool.false_and, Bool.and_false]
  rw [this, Bool.or_false]
  rfl

theorem setNow_excSwitch (s : State) (n : Nat) (on : Bool) (r : FRef) (k i j : Nat) : (s.excSwitch n on).setNow r k i j = s.setNow r k i j := by
  unfold State.excSwitch
  split <;> rfl

/-- LOSS and the note of it stay under a condition where they stay without. -/
theorem loss_doIf {s : State} {c : Bool} {g : State → State} {n : Nat}
    (hg : (g s).b R.POS_PI_STAT_LOSS n = s.b R.POS_PI_STAT_LOSS n ∧ (g s).setNow R.POS_PI_STAT_LOSS 0 n = s.setNow R.POS_PI_STAT_LOSS 0 n) :
    (s.doIf c g).b R.POS_PI_STAT_LOSS n = s.b R.POS_PI_STAT_LOSS n
      ∧ (s.doIf c g).setNow R.POS_PI_STAT_LOSS 0 n = s.setNow R.POS_PI_STAT_LOSS 0 n := by
  cases c with
  | true => exact hg
  | false => exact ⟨rfl, rfl⟩

/-- What clears of the other bits bring neither takes LOSS nor counts as a cause of it. -/
theorem loss_piStatCleared (s : State) (n : Nat) (data : Word) :
    (s.piStatCleared n data).b R.POS_PI_STAT_LOSS n = s.b R.POS_PI_STAT_LOSS n
      ∧ (s.piStatCleared n data).setNow R.POS_PI_STAT_LOSS 0 n = s.setNow R.POS_PI_STAT_LOSS 0 n := by
  unfold State.piStatCleared
  dsimp only
  obtain ⟨hb, hn⟩ := loss_doIf (s := s) (c := data.getLsbD 7 && s.piOn n && s.hallBad n) (g := (·.setB R.POS_PI_STAT_HALL_ERR true n)) (n := n)
    ⟨b_setB_bits _ _ _ _ _ _ (by decide), setNow_setF_bits _ _ _ _ _ rfl rfl (by decide)⟩
  rw [← hb, ← hn]
  exact loss_doIf ⟨b_of_f (f_excSwitch ..), setNow_excSwitch ..⟩

/-- LOSS after its clear: it stays where a cause has set it in the same cycle. -/
theorem loss_clearLoss (s : State) (n : Nat) :
    (s.clearLoss n).b R.POS_PI_STAT_LOSS n = (s.b R.POS_PI_STAT_LOSS n && s.setNow R.POS_PI_STAT_LOSS 0 n) := by
  have hw : (s.w1c R.POS_PI_STAT_LOSS 0 n).b R.POS_PI_STAT_LOSS n = (s.b R.POS_PI_STAT_LOSS n && s.setNow R.POS_PI_STAT_LOSS 0 n) := by
    rw [b_eq_bitF _ _ _ _ rfl, bitF_w1c _ _ _ _ _ _ (by decide), b_eq_bitF _ _ _ _ rfl, decide_eq_true rfl, Bool.true_and, Bool.not_not]
  rw [← hw]
  unfold State.clearLoss
  dsimp only
  split
  · rfl
  · refine b_of_f ((f_setBitF ..).trans (f_setF_key _ _ ?_))
    simp [FRef.key, R.POS_PI_STAT_LOSS, R.POS_CTL_LOSS_LINE]

/-- Where LOSS goes, its line falls and the counts of the interface start again. -/
theorem clearLoss_clears {s : State} {n : Nat} (hn : n < 8) (h : s.setNow R.POS_PI_STAT_LOSS 0 n = false) :
    (s.clearLoss n).bitF R.POS_CTL_LOSS_LINE n = false ∧ ((s.clearLoss n).pi n).hallRun = 0 ∧ ((s.clearLoss n).pi n).resRun = 0
      ∧ ((s.clearLoss n).pi n).ser.run = 0 := by
  have hb : (s.w1c R.POS_PI_STAT_LOSS 0 n).b R.POS_PI_STAT_LOSS n = false := by
    rw [b_eq_bitF _ _ _ _ rfl, bitF_w1c _ _ _ _ _ _ (by decide), h]; simp
  unfold State.clearLoss
  dsimp only
  rw [hb]
  simp only [Bool.false_eq_true, if_false]
  have hpi (x : State) (p : PiSt) : ((x.setPi n p).setBitF R.POS_CTL_LOSS_LINE n false).pi n = p :=
    (pi_of_pos (State.setBitF_pos ..) n).trans (pi_setPi_same ..)
  rw [hpi, bitF_setBitF _ _ _ _ _ _ _ (by decide) (by simpa [R.POS_CTL_LOSS_LINE] using hn), if_pos rfl]
  exact ⟨rfl, rfl, rfl, rfl⟩

theorem exec_lossClear {s w : State} {t : Instant} {fn n : Nat} {data : Word}
    (h : (s.start t).actionWrite fn R.POS_PI_STAT_LOSS data n = (w, true)) :
    exec (.lossClear t fn n data) s = .next ((w.piStatCleared n data).clearLoss n).settle := by
  show execLossClear t fn n data s = _
  unfold execLossClear
  rw [h]
  rfl

/-- Settles O26: the fault by the order of its three parts, of which the later leave what the earlier did; the clear by its W1C bit. -/
theorem excitationFaultAndLossClear : Obligations.ExcitationFaultAndLossClear := by
  unfold Obligations.ExcitationFaultAndLossClear
  constructor
  · rintro s u t n rfl hp he
    refine ⟨_, exec_excFault hp he, ?_, fun hx => ?_⟩
    · refine (b_of_f (f_lossCause _ _ _ _ _ _ rfl (Or.inr (Or.inr (by decide))) (Or.inr (Or.inl ?_)))).trans
        ((b_of_f (f_excSwitch ..)).trans (b_cond _ _ _ _ _ (by decide) (by decide)))
      simp [FRef.key, R.POS_PI_STAT_EXC_FAULT, R.POS_CTL_LOSS_LINE]
    · rw [pi_lossCause]
      exact head_excSwitch _ _ _ (by rw [exc_cond]; exact hx)
  · intro s w t fn n data hn h
    obtain ⟨hb, hnow⟩ := loss_piStatCleared w n data
    have hloss : ((w.piStatCleared n data).clearLoss n).settle.b R.POS_PI_STAT_LOSS n
        = (w.b R.POS_PI_STAT_LOSS n && w.setNow R.POS_PI_STAT_LOSS 0 n) := by
      rw [b_settle_pos _ _ _ _ rfl, loss_clearLoss, hb, hnow]
    refine ⟨fun ha => ⟨_, exec_lossClear h, ?_⟩, fun ha hl => ⟨_, exec_lossClear h, ?_⟩⟩
    · obtain ⟨hline, hruns⟩ := clearLoss_clears hn (hnow.trans ha)
      rw [pi_settle, bitF_of_f (f_settle_pos _ _ _ _ rfl)]
      exact ⟨hloss.trans (by rw [show w.setNow R.POS_PI_STAT_LOSS 0 n = false from ha, Bool.and_false]), hline, hruns⟩
    · exact hloss.trans (by rw [hl, Bool.true_and]; exact ha)

end Sys2Proof.Machine
end

section
/-! PROOFS. O59. Events of the NTIME generators: the windows that they close and the units that they trigger (R61, R62); and the load of a husk
section (R352, R357). -/
namespace Sys2Proof.Machine

/-! ## What a close of windows leaves alone -/

/-- The record of an accumulator after its window has closed (R65, R66). -/
def AccSt.closed (x : AccSt) : AccSt :=
  { x with sum := 0, cnt := 0, rail := false, resSum := if x.cnt < 4 then 0 else x.sum, resCnt := if x.cnt < 4 then 0 else x.cnt }

/-- The result of a window that is not void. -/
theorem AccSt.closed_of_full {x : AccSt} (h : 4 ≤ x.cnt) :
    x.closed = { x with sum := 0, cnt := 0, rail := false, resSum := x.sum, resCnt := x.cnt } := by
  unfold AccSt.closed
  rw [if_neg (by omega), if_neg (by omega)]

/-- From `s` to `s'` the windows of the accumulators `as` close and no other does; the units, the generators and the registers of MEAS stay, but
for its status registers. -/
structure WindowsClose (as : List Nat) (s s' : State) : Prop where
  acc : ∀ a, s'.acc a = if a ∈ as then (s.acc a).closed else s.acc a
  unit : ∀ n, s'.unit n = s.unit n
  done : s'.meas.ntevDone = s.meas.ntevDone
  words : ∀ k, k ≠ 4 → k < 0x5000 → s'.word .meas k = s.word .meas k

/-- From `s` to `s'` no window closes. -/
abbrev NoClose (s s' : State) : Prop := WindowsClose [] s s'

theorem NoClose.of {s s' : State} (hacc : ∀ a, s'.acc a = s.acc a) (hunit : ∀ n, s'.unit n = s.unit n)
    (hdone : s'.meas.ntevDone = s.meas.ntevDone) (hw : ∀ k, k ≠ 4 → k < 0x5000 → s'.word .meas k = s.word .meas k) : NoClose s s' :=
  ⟨fun a => by simpa using hacc a, hunit, hdone, hw⟩

theorem NoClose.refl (s : State) : NoClose s s := .of (fun _ => rfl) (fun _ => rfl) rfl fun _ _ _ => rfl

/-- Windows that close one after the other. -/
theorem WindowsClose.comp {as bs : List Nat} {s u v : State} (h : WindowsClose as s u) (h' : WindowsClose bs u v) (hd : ∀ a ∈ as, a ∉ bs) :
    WindowsClose (as ++ bs) s v where
  acc a := by
    rw [h'.acc, h.acc]
    by_cases ha : a ∈ as
    · simp [ha, hd a ha]
    · simp [ha]
  unit n := (h'.unit n).trans (h.unit n)
  done := h'.done.trans h.done
  words k h4 hk := (h'.words k h4 hk).trans (h.words k h4 hk)

theorem WindowsClose.then {as : List Nat} {s u v : State} (h : WindowsClose as s u) (h' : NoClose u v) : WindowsClose as s v := by
  simpa using h.comp h' (fun _ _ => List.not_mem_nil)

theorem NoClose.foldl {α : Type} {f : State → α → State} (l : List α) (s : State) (hf : ∀ t x, NoClose t (f t x)) :
    NoClose s (l.foldl f s) := by
  induction l generalizing s with
  | nil => exact NoClose.refl s
  | cons x l ih => exact (hf s x).then (ih _)

theorem NoClose.doIf {s : State} {c : Bool} {g : State → State} (h : NoClose s (g s)) : NoClose s (s.doIf c g) := by
  cases c with
  | true => exact h
  | false => exact NoClose.refl s

theorem acc_of_meas {s s' : State} (h : s'.meas = s.meas) (a : Nat) : s'.acc a = s.acc a := by unfold State.acc; rw [h]
theorem unit_of_meas {s s' : State} (h : s'.meas = s.meas) (n : Nat) : s'.unit n = s.unit n := by unfold State.unit; rw [h]

/-- A change that leaves MEAS alone, its registers and what stands behind them. -/
theorem NoClose.touch {m : Nat} {s s' : State} (h : Touches m s s') (hm : m.testBit 21 = false) (hr : m.testBit 4 = false) : NoClose s s' := by
  have e : s'.meas = s.meas := h.1 .meas hm
  exact .of (acc_of_meas e) (unit_of_meas e) (by rw [e]) fun k _ _ => h.word .meas k hr

theorem noClose_post (s : State) (e : Ev) (a : Nat) (w0 w1 : Word) : NoClose s (s.post e a w0 w1) := .touch tch_post (by decide) (by decide)

theorem noClose_setPair (s : State) (p : Nat) (x : PairSt) : NoClose s (s.setPair p x) := .of (fun _ => rfl) (fun _ => rfl) rfl fun _ _ _ => rfl

theorem noClose_setMmt (s : State) (m : Nat) (x : MmtSt) : NoClose s (s.setMmt m x) := .of (fun _ => rfl) (fun _ => rfl) rfl fun _ _ _ => rfl

/-- A write of a status register. -/
theorem noClose_setF (s : State) (r : FRef) (v i j : Nat) (h : r.key i j = 4 ∨ 0x5000 ≤ r.key i j) : NoClose s (s.setF r v i j) := by
  refine .of (fun _ => rfl) (fun _ => rfl) rfl fun k h4 hk => ?_
  unfold State.setF
  rw [word_noteSet]
  by_cases hb : Blk.meas = r.blk
  · rw [← hb]; exact word_setWord_key _ _ _ (by omega)
  · exact word_setWord_blk _ _ _ _ hb

theorem noClose_setB (s : State) (r : FRef) (v : Bool) (i j : Nat) (h : r.key i j = 4 ∨ 0x5000 ≤ r.key i j) : NoClose s (s.setB r v i j) :=
  noClose_setF s r _ i j h

theorem noClose_setBitF (s : State) (r : FRef) (k : Nat) (v : Bool) (i j : Nat) (h : r.key i j = 4 ∨ 0x5000 ≤ r.key i j) :
    NoClose s (s.setBitF r k v i j) :=
  have hset := noClose_setF s r (putBit (s.f r i j) k v) i j h
  ⟨hset.acc, hset.unit, hset.done, hset.words⟩

theorem noClose_raiseBit (s : State) (r : FRef) (k i : Nat) (e : Ev) (a : Nat) (w0 w1 : Word) (h : r.key i 0 = 4 ∨ 0x5000 ≤ r.key i 0) :
    NoClose s (s.raiseBit r k i e a w0 w1) := by
  unfold State.raiseBit
  split
  · exact .touch tch_noteSet (by decide) (by decide)
  · exact (noClose_setBitF _ _ _ _ _ _ h).then (noClose_post ..)

/-! ## The close of accumulators and trackers -/

theorem noClose_comparePair (s : State) (p : Nat) : NoClose s (s.comparePair p) := by
  unfold State.comparePair
  dsimp only
  split
  · exact noClose_setPair ..
  · split
    · split
      · exact ((noClose_setPair ..).then (noClose_raiseBit _ _ _ _ _ _ _ _ (by decide))).then (noClose_setB _ _ _ _ _ (by decide))
      · exact noClose_setPair ..
    · exact noClose_setPair ..

theorem noClose_pairResult (s : State) (a : Nat) : NoClose s (s.pairResult a) := by
  unfold State.pairResult
  refine NoClose.foldl _ _ fun t p => ?_
  dsimp only
  split
  · exact (noClose_setPair ..).then (NoClose.doIf (noClose_comparePair ..))
  · exact NoClose.refl t

/-- The status bits of a window that is void or has met a rail code. -/
theorem noClose_status (s : State) (r q : FRef) (a : Nat) (e : Ev) (hr : 0x5000 ≤ r.base) (hq : q.key 0 0 = 4) :
    NoClose s ((s.raiseBit r (a % 32) (a / 32) e (subject a)).setB q true) :=
  (noClose_raiseBit _ _ _ _ _ _ _ _ (Or.inr (by unfold FRef.key; omega))).then (noClose_setB _ _ _ _ _ (Or.inl hq))

theorem acc_setAcc_same (s : State) (a : Nat) (x : AccSt) : (s.setAcc a x).acc a = x := kget_kset_same ..
theorem acc_setAcc_other (s : State) {a b : Nat} (x : AccSt) (h : b ≠ a) : (s.setAcc a x).acc b = s.acc b := kget_kset_other _ _ _ h

/-- One window closes. -/
theorem closes_closeAcc (s : State) (a : Nat) : WindowsClose [a] s (s.closeAcc a).1 := by
  have hset : WindowsClose [a] s (s.setAcc a (s.acc a).closed) := by
    refine ⟨fun b => ?_, fun _ => rfl, rfl, fun _ _ _ => rfl⟩
    by_cases hb : b = a
    · subst hb; simp [acc_setAcc_same]
    · simp [hb, acc_setAcc_other _ _ hb]
  have hclosed : (s.acc a).closed = { s.acc a with
      sum := 0, cnt := 0, rail := false
      resSum := if decide ((s.acc a).cnt < 4) = true then 0 else (s.acc a).sum
      resCnt := if decide ((s.acc a).cnt < 4) = true then 0 else (s.acc a).cnt } := by
    unfold AccSt.closed; simp only [decide_eq_true_eq]
  unfold State.closeAcc
  dsimp only
  rw [← hclosed]
  refine (hset.then ?_).then (noClose_pairResult ..)
  split
  · exact noClose_status _ _ _ _ _ (by decide) rfl
  · exact NoClose.doIf (noClose_status _ _ _ _ _ (by decide) rfl)

/-- One accumulator of a list closes, and its result joins the others. -/
def closeNext (x : State × List WinItem) (a : Nat) : State × List WinItem := ((x.1.closeAcc a).1, x.2 ++ [(x.1.closeAcc a).2])

theorem closes_foldl_closeNext (as : List Nat) (h : as.Nodup) (x : State × List WinItem) : WindowsClose as x.1 (as.foldl closeNext x).1 := by
  induction as generalizing x with
  | nil => exact NoClose.refl _
  | cons a as ih =>
    obtain ⟨ha, has⟩ := List.nodup_cons.mp h
    exact (closes_closeAcc x.1 a).comp (ih has (closeNext x a)) (by simpa using ha)

theorem State.closeAccs_eq (s : State) (as : List Nat) :
    s.closeAccs as = ((as.foldl closeNext (s, [])).1.sendWins (as.foldl closeNext (s, [])).2).resolvers as := rfl

/-- Windows that one event closes: these and no others. -/
theorem closes_closeAccs (s : State) (as : List Nat) (h : as.Nodup) : WindowsClose as s (s.closeAccs as) := by
  rw [State.closeAccs_eq]
  exact ((closes_foldl_closeNext as h (s, [])).then (.touch tch_sendWins (by decide) (by decide))).then
    (.touch tch_resolvers (by decide) (by decide))

/-- One tracker of a list closes, and its result joins the others. -/
def closeNextMmt (x : State × List TrkItem) (m : Nat) : State × List TrkItem := ((x.1.closeMmt m).1, x.2 ++ [(x.1.closeMmt m).2])

theorem noClose_foldl_closeNextMmt (ms : List Nat) (x : State × List TrkItem) : NoClose x.1 (ms.foldl closeNextMmt x).1 := by
  induction ms generalizing x with
  | nil => exact NoClose.refl _
  | cons m ms ih => exact (noClose_setMmt ..).then (ih (closeNextMmt x m))

theorem State.closeMmts_eq (s : State) (ms : List Nat) :
    s.closeMmts ms = (ms.foldl closeNextMmt (s, [])).1.sendTrks (ms.foldl closeNextMmt (s, [])).2 := rfl

/-- Trackers have windows of their own. -/
theorem noClose_closeMmts (s : State) (ms : List Nat) : NoClose s (s.closeMmts ms) := by
  rw [State.closeMmts_eq]
  exact (noClose_foldl_closeNextMmt ms (s, [])).then (.touch tch_sendTrks (by decide) (by decide))

/-! ## The enabled accumulators -/

theorem mem_of_kget {α : Type} {d : α} {m : KMap α} {k : Nat} (h : kget d m k ≠ d) : (k, kget d m k) ∈ m := by
  induction m with
  | nil => exact absurd rfl h
  | cons x m ih =>
    obtain ⟨k', v⟩ := x
    unfold kget at h ⊢
    split
    · rename_i e; subst e; exact List.mem_cons_self
    · rename_i e; rw [if_neg e] at h; exact List.mem_cons_of_mem _ (ih h)

theorem lt_of_kabove {α : Type} {k : Nat} {m : KMap α} (h : kabove k m = true) : ∀ x ∈ m, k < x.1 := by
  induction m with
  | nil => intro x hx; cases hx
  | cons y m ih =>
    simp only [kabove, Bool.and_eq_true, decide_eq_true_eq] at h
    exact List.forall_mem_cons.mpr ⟨h.1, ih h.2⟩

/-- The keys of a canonical map rise strictly. -/
theorem keys_rise {α : Type} [DecidableEq α] {d : α} {m : KMap α} (h : kwf d m = true) : m.Pairwise fun x y => x.1 < y.1 := by
  induction m with
  | nil => exact List.Pairwise.nil
  | cons y m ih =>
    simp only [kwf, Bool.and_eq_true] at h
    exact List.pairwise_cons.mpr ⟨lt_of_kabove h.1.1, ih h.2⟩

theorem nodup_accsOn {s : State} (h : s.regs.canon) : s.accsOn.Nodup := by
  have hlt : s.accsOn.Pairwise (· < ·) := by
    unfold State.accsOn
    refine List.pairwise_filterMap.mpr ((keys_rise (h .meas)).imp fun {x y} hxy b hb c hc => ?_)
    simp only [Option.ite_none_right_eq_some, Option.some.injEq] at hb hc
    omega
  exact hlt.imp Nat.ne_of_lt

/-- An enabled accumulator is among those that are on. -/
theorem mem_accsOn {s : State} {a : Nat} (ha : a < 256) (he : s.b R.MEAS_ACC_CFG_EN a = true) : a ∈ s.accsOn := by
  have hkey : R.MEAS_ACC_CFG_EN.key a 0 = 0x2000 + 16 * a := by simp [FRef.key, R.MEAS_ACC_CFG_EN]
  have hbit : getBits (kget 0 s.regs.meas (0x2000 + 16 * a)) 31 31 = 1 := by rw [← hkey]; exact eq_of_beq he
  have hne : kget 0 s.regs.meas (0x2000 + 16 * a) ≠ 0 := by
    intro h0; rw [h0] at hbit; exact absurd hbit (by decide)
  unfold State.accsOn
  refine List.mem_filterMap.mpr ⟨_, mem_of_kget hne, ?_⟩
  rw [if_pos ⟨by omega, by omega, by omega, hbit⟩]
  exact congrArg some (by dsimp only; omega)

/-! ## Conversions and triggers at the event -/

/-- The state with other records of its converter units. -/
def State.withUnits (s : State) (us : KMap UnitSt) : State := { s with meas := { s.meas with units := us } }

/-- The conversions of one unit land beside those of the units before it. -/
def landNext (x : State × List Conv) (n : Nat) : State × List Conv := ((x.1.unitDone n).1, x.2 ++ (x.1.unitDone n).2)

theorem State.landConversions_eq (s : State) :
    s.landConversions = ((List.range 24).foldl landNext (s, [])).1.deliver ((List.range 24).foldl landNext (s, [])).2 := by
  unfold State.landConversions
  generalize List.range 24 = l
  rfl

theorem State.deliver_nil (s : State) : s.deliver [] = s.settle := rfl

/-- Where no conversion of the unit has ended, it has none that lands. -/
theorem landNext_none {s : State} {us : KMap UnitSt} {n : Nat} (hus : kget {} us n = s.unit n)
    (h : ∀ x ∈ (s.unit n).flight, s.convDone x.2.2 = false) :
    landNext (s.withUnits us, []) n = (s.withUnits (kset {} us n (kget {} us n)), []) := by
  have hnone : (kget {} us n).flight.filter (fun x => s.convDone x.2.2) = [] := by
    rw [hus]; exact List.filter_eq_nil_iff.mpr fun x hx => Bool.eq_false_iff.mp (h x hx)
  have hall : (kget {} us n).flight.filter (fun x => !s.convDone x.2.2) = (kget {} us n).flight := by
    rw [hus]; exact List.filter_eq_self.mpr fun x hx => by rw [h x hx]; rfl
  have hunit : (s.withUnits us).unit n = kget {} us n := rfl
  have hconv (q : Instant) : (s.withUnits us).convDone q = s.convDone q := rfl
  unfold landNext State.unitDone
  simp only [hunit, hconv, hnone, hall, List.map_nil, List.append_nil]
  rfl

theorem foldl_landNext_none (s : State) (h : ∀ n, ∀ x ∈ (s.unit n).flight, s.convDone x.2.2 = false) (l : List Nat) (us : KMap UnitSt)
    (hus : ∀ n, kget {} us n = s.unit n) :
    ∃ us', (∀ n, kget {} us' n = s.unit n) ∧ l.foldl landNext (s.withUnits us, []) = (s.withUnits us', []) := by
  induction l generalizing us with
  | nil => exact ⟨us, hus, rfl⟩
  | cons n l ih =>
    rw [List.foldl_cons, landNext_none (hus n) (h n)]
    exact ih _ fun m => by rw [kget_kset_id, hus m]

/-- Then the landing of conversions leaves MEAS as it was. -/
theorem noClose_landConversions {s : State} (h : ∀ n, ∀ x ∈ (s.unit n).flight, s.convDone x.2.2 = false) :
    NoClose s s.landConversions ∧ s.landConversions.regs.meas = s.regs.meas := by
  obtain ⟨us, hus, he⟩ := foldl_landNext_none s h (List.range 24) s.meas.units fun _ => rfl
  have hland : s.landConversions = (s.withUnits us).settle := by
    rw [State.landConversions_eq, show (s, ([] : List Conv)) = (s.withUnits s.meas.units, []) from rfl, he, State.deliver_nil]
  have hset : NoClose s (s.withUnits us) := .of (fun _ => rfl) hus rfl fun _ _ _ => rfl
  rw [hland]
  exact ⟨hset.then (.touch tch_settle (by decide) (by decide)), tch_settle.1 (.regs .meas) (by decide)⟩

/-- A unit takes its trigger from a generator (R50). -/
def State.ntevTriggers (s : State) (k n : Nat) : Bool :=
  s.b R.MEAS_SEQ_CTL_EN n && s.b R.MEAS_SEQ_CTL_MODE n && s.f R.MEAS_SEQ_CTL_INJ_TRIG n == 2 && s.f R.MEAS_SEQ_CTL_INJ_NTEV n == k

theorem State.ntevTriggers_of {s : State} {k n : Nat} (he : s.b R.MEAS_SEQ_CTL_EN n = true) (hm : s.b R.MEAS_SEQ_CTL_MODE n = true)
    (ht : s.f R.MEAS_SEQ_CTL_INJ_TRIG n = 2) (hk : s.f R.MEAS_SEQ_CTL_INJ_NTEV n = k) : s.ntevTriggers k n = true := by
  unfold State.ntevTriggers
  rw [he, hm, ht, hk, beq_self_eq_true, beq_self_eq_true]
  rfl

/-- The event of generator `k` makes the trigger of unit `n` due, if the unit takes its triggers there. -/
def State.ntevUnit (k : Nat) (s : State) (n : Nat) : State :=
  s.doIf (s.ntevTriggers k n) fun s => s.setUnit n { s.unit n with injDue := true }

theorem State.unitsNtev_eq (s : State) (k : Nat) : s.unitsNtev k = (List.range 24).foldl (State.ntevUnit k) s := rfl

theorem unit_setUnit_same (s : State) (n : Nat) (x : UnitSt) : (s.setUnit n x).unit n = x := kget_kset_same ..
theorem unit_setUnit_other (s : State) {n m : Nat} (x : UnitSt) (h : m ≠ n) : (s.setUnit n x).unit m = s.unit m := kget_kset_other _ _ _ h

/-- Only triggers change, and none is lost. -/
theorem injDue_ntevUnit (k : Nat) (s : State) (n m : Nat) :
    ((s.ntevUnit k n).unit m).injDue = ((s.unit m).injDue || decide (m = n) && s.ntevTriggers k n) := by
  unfold State.ntevUnit
  cases hc : s.ntevTriggers k n with
  | false => simp
  | true =>
    rw [State.doIf_true]
    by_cases hm : m = n
    · subst hm; simp [unit_setUnit_same]
    · simp [unit_setUnit_other _ _ hm, hm]

theorem ntevUnit_frame (k : Nat) (s : State) (n : Nat) : (s.ntevUnit k n).meas.acc = s.meas.acc
    ∧ (s.ntevUnit k n).meas.ntevDone = s.meas.ntevDone ∧ ∀ m, (s.ntevUnit k n).ntevTriggers k m = s.ntevTriggers k m := by
  unfold State.ntevUnit State.doIf
  split <;> exact ⟨rfl, rfl, fun _ => rfl⟩

/-- The units that a generator triggers have their trigger due after its event; their triggers are the only change. -/
theorem foldl_ntevUnit (k : Nat) (l : List Nat) (s : State) :
    (l.foldl (State.ntevUnit k) s).meas.acc = s.meas.acc ∧ (l.foldl (State.ntevUnit k) s).meas.ntevDone = s.meas.ntevDone
      ∧ ∀ m, ((l.foldl (State.ntevUnit k) s).unit m).injDue = ((s.unit m).injDue || decide (m ∈ l) && s.ntevTriggers k m) := by
  induction l generalizing s with
  | nil => exact ⟨rfl, rfl, fun m => by simp⟩
  | cons n l ih =>
    obtain ⟨hacc, hdone, htrig⟩ := ntevUnit_frame k s n
    obtain ⟨ihacc, ihdone, ihdue⟩ := ih (s.ntevUnit k n)
    refine ⟨ihacc.trans hacc, ihdone.trans hdone, fun m => ?_⟩
    rw [List.foldl_cons, ihdue, htrig, injDue_ntevUnit]
    by_cases hm : m = n
    · subst hm; cases s.ntevTriggers k m <;> simp
    · simp [hm]

/-! ## The event -/

/-- The accumulators that a generator closes. -/
def State.ntevCloses (s : State) (k : Nat) : List Nat :=
  s.accsOn.filter fun a => s.f R.MEAS_ACC_CLOSE_SRC a == 1 && s.f R.MEAS_ACC_CLOSE_ARG a % 8 == k

theorem nodup_ntevCloses {s : State} (h : s.regs.canon) (k : Nat) : (s.ntevCloses k).Nodup := (nodup_accsOn h).filter _

theorem mem_ntevCloses {s : State} {a k : Nat} (ha : a < 256) (he : s.b R.MEAS_ACC_CFG_EN a = true) (hs : s.f R.MEAS_ACC_CLOSE_SRC a = 1)
    (hk : s.f R.MEAS_ACC_CLOSE_ARG a % 8 = k) : a ∈ s.ntevCloses k :=
  List.mem_filter.mpr ⟨mem_accsOn ha he, by simp [hs, hk]⟩

theorem ntevCloses_of_meas {s s' : State} (h : s'.regs.meas = s.regs.meas) (k : Nat) : s'.ntevCloses k = s.ntevCloses k := by
  unfold State.ntevCloses State.accsOn State.f State.word
  rw [show s'.regs.blk R.MEAS_ACC_CLOSE_SRC.blk = s.regs.blk R.MEAS_ACC_CLOSE_SRC.blk from h,
    show s'.regs.blk R.MEAS_ACC_CLOSE_ARG.blk = s.regs.blk R.MEAS_ACC_CLOSE_ARG.blk from h, h]

/-- The event closes the windows of its accumulators. -/
theorem closes_windowsNtev (s : State) (k : Nat) (h : (s.ntevCloses k).Nodup) : WindowsClose (s.ntevCloses k) s (s.windowsNtev k) :=
  (closes_closeAccs s _ h).then (noClose_closeMmts ..)

/-- The registers of a unit's sequence are no status registers. -/
theorem WindowsClose.ntevTriggers {as : List Nat} {s s' : State} (h : WindowsClose as s s') (k : Nat) {n : Nat} (hn : n < 24) :
    s'.ntevTriggers k n = s.ntevTriggers k n := by
  have hw : s'.word .meas (0x100 + 4 * n + 0 * 0) = s.word .meas (0x100 + 4 * n + 0 * 0) := h.words _ (by omega) (by omega)
  unfold State.ntevTriggers State.b State.f FRef.key
  simp only [R.MEAS_SEQ_CTL_EN, R.MEAS_SEQ_CTL_MODE, R.MEAS_SEQ_CTL_INJ_TRIG, R.MEAS_SEQ_CTL_INJ_NTEV, hw]

/-- What an event of a generator does in MEAS, with no conversion to land. -/
theorem measNtev_spec {s : State} {k : Nat} (hm : s.measOn = true) (hc : s.regs.canon)
    (hf : ∀ n, ∀ x ∈ (s.unit n).flight, s.convDone x.2.2 = false) :
    (s.measNtev k).meas.ntevDone = s.meas.ntevDone
      ∧ (∀ a, (s.measNtev k).acc a = if a ∈ s.ntevCloses k then (s.acc a).closed else s.acc a)
      ∧ ∀ n < 24, s.ntevTriggers k n = true → ((s.measNtev k).unit n).injDue = true := by
  obtain ⟨hland, hregs⟩ := noClose_landConversions hf
  have hlist := ntevCloses_of_meas hregs k
  have hclose := closes_windowsNtev s.landConversions k (by rw [hlist]; exact nodup_ntevCloses hc k)
  rw [hlist] at hclose
  have hall : WindowsClose (s.ntevCloses k) s (s.landConversions.windowsNtev k) := by
    simpa using hland.comp hclose (fun _ h => absurd h List.not_mem_nil)
  obtain ⟨hacc, hdone, htrig⟩ := foldl_ntevUnit k (List.range 24) (s.landConversions.windowsNtev k)
  unfold State.measNtev
  rw [if_pos hm, State.unitsNtev_eq]
  refine ⟨hdone.trans hall.done, fun a => ?_, fun n hn ht => ?_⟩
  · rw [← hall.acc a]
    exact congrArg (kget {} · a) hacc
  · rw [htrig, hall.ntevTriggers k hn, ht, decide_eq_true (List.mem_range.mpr hn), Bool.and_self, Bool.or_true]

/-- An instant added to those done, and no other. -/
theorem inRanges_addRange (m j : Int) (rs : List (Int × Int)) : inRanges j (addRange m rs) = true ↔ j = m ∨ inRanges j rs = true := by
  unfold addRange
  split
  case h_1 a b rs =>
    split <;> simp only [inRanges, List.any_cons, Bool.or_eq_true, Bool.and_eq_true, decide_eq_true_eq]
    case isTrue h => rw [← or_assoc]; exact or_congr_left (by omega)
    case isFalse => exact or_congr_left (by omega)
  case h_2 =>
    simp only [inRanges, List.any_cons, List.any_nil, Bool.or_false, Bool.and_eq_true, decide_eq_true_eq, Bool.false_eq_true, or_false]
    omega

theorem ntevDone_ntevMark (s : State) (k : Nat) (m : Int) :
    kget [] (s.ntevMark k m).meas.ntevDone k = addRange m (kget [] s.meas.ntevDone k) := kget_kset_same ..

/-- The instant that NTIME has reached and that has not produced its event is due (R62). -/
theorem ntevDue_of {s : State} {k per : Nat} {ph m : Int} (hk : k < 8) (hper : per = s.f R.MEAS_NTEV_PER_PERIOD k) (h0 : per ≠ 0)
    (hph : ph = signed 64 (s.f R.MEAS_NTEV_PH_LO_PHASE_LO k + s.f R.MEAS_NTEV_PH_HI_PHASE_HI k * 2 ^ 32)) (h1 : ph + m * per ≤ s.ntime)
    (h2 : s.ntime < ph + (m + 1) * per) (h3 : s.ntime < ph + m * per + (if s.net.stepTick = some s.pwmTime then 1 else 2))
    (h4 : inRanges m (kget [] s.meas.ntevDone k) = false) : s.ntevDue k = some m := by
  have hpos : (0 : Int) < per := by omega
  have hdiv : (s.ntime - ph) / (per : Int) = m :=
    Int.le_antisymm (Int.lt_add_one_iff.mp ((Int.ediv_lt_iff_lt_mul hpos).mpr (by omega))) ((Int.le_ediv_iff_mul_le hpos).mpr (by omega))
  unfold State.ntevDue
  dsimp only
  rw [← hper, ← hph, hdiv, if_neg (by omega), if_pos ⟨by omega, by rw [h4]; rfl⟩]

/-- What follows the event in MEAS: captures, triggers of contexts, and the bridges. -/
def State.ntevFollowers (s : State) (k : Nat) : State := ((s.captureNtev k).triggersNtev k s.pwmTime).bcSync.settle

theorem meas_ntevFollowers (s : State) (k : Nat) : (s.ntevFollowers k).meas = s.meas := by
  unfold State.ntevFollowers
  calc _ = _ := tch_settle.1 .meas (by decide)
    _ = _ := tch_bcSync.1 .meas (by decide)
    _ = _ := tch_triggersNtev.1 .meas (by decide)
    _ = _ := tch_captureNtev.1 .meas (by decide)

theorem exec_ntimeGeneratorEvent {s : State} {t : Instant} {k : Nat} {m : Int} (hs : (s.start t).sealed = true)
    (hd : (s.start t).ntevDue k = some m) :
    exec (.ntimeGeneratorEvent t k) s = .next ((((s.start t).ntevMark k m).measNtev k).ntevFollowers k) := by
  show execNtimeGeneratorEvent t k s = _
  unfold execNtimeGeneratorEvent
  dsimp only
  rw [if_pos hs, hd]
  rfl

/-! ## The section that tells the husk its keys -/

theorem takeSection_huskPolicy {s : State} {base : Bool} {keys : List (BitVec 776)} (hl : ∀ l ∈ s.cfg.loaded, l < 0x500)
    (hk : keys.length ≤ 8) :
    s.takeSection (.huskPolicy base keys) = .ok { s with
      husk := { s.husk with pf0Base := base, svcKeys := keys }
      cfg := { s.cfg with loaded := s.cfg.loaded ++ [0x500] } } := by
  have hn : s.sectionNext 0x500 = true := List.all_eq_true.mpr fun l h => decide_eq_true (hl l h)
  unfold State.takeSection State.loadSection
  simp only [sectionId, hn, Bool.not_true, Bool.false_eq_true, if_false, if_pos hk]

theorem exec_sectionLoad_huskPolicy {s : State} {t : Instant} {base : Bool} {keys : List (BitVec 776)} {sec : Section} {rest : List Section}
    {ofs : Nat} (ha : (s.start t).alive = true) (hr : s.cfg.released = true) (hp : s.cfg.placed = false)
    (hbist : s.b R.REL_STAT_BOOT_BIST_DONE = true) (hs : s.b R.CFG_STAT_SEALED = false)
    (hlay : layoutBad (s.slotImg (s.cfg.order.head?.getD 0)) = none)
    (hsec : (s.slotImg (s.cfg.order.head?.getD 0)).secs.drop s.cfg.loaded.length = .huskPolicy base keys :: sec :: rest)
    (hl : ∀ l ∈ s.cfg.loaded, l < 0x500) (hk : keys.length ≤ 8) :
    exec (.sectionLoad t none ofs) s = .next { s.start t with
      husk := { s.husk with pf0Base := base, svcKeys := keys }
      cfg := { s.cfg with loaded := s.cfg.loaded ++ [0x500] } } := by
  have hguard : ((s.start t).alive && (s.start t).cfg.released && !(s.start t).cfg.placed && (s.start t).b R.REL_STAT_BOOT_BIST_DONE
      && !(s.start t).b R.CFG_STAT_SEALED) = true := by
    rw [ha, b_start, b_start, hbist, hs, show (s.start t).cfg = s.cfg from rfl, hr, hp]; rfl
  show execSectionLoad t none ofs s = _
  unfold execSectionLoad
  dsimp only
  rw [State.doIf_of hguard]
  have hlay' : layoutBad ((s.start t).slotImg ((s.start t).trial.getD 0)) = none := hlay
  have hsec' : ((s.start t).slotImg ((s.start t).trial.getD 0)).secs.drop (s.start t).cfg.loaded.length = .huskPolicy base keys :: sec :: rest := hsec
  have htake := takeSection_huskPolicy (s := s.start t) (base := base) hl hk
  simp only [hlay', hsec', htake]
  rfl

/-- Settles O59: the access by `State.unanswered`; the event by what `State.measNtev` does, which nothing that follows changes; the section by
its load. -/
theorem answersEventsAndSectionsComplete : Obligations.AnswersEventsAndSectionsComplete := by
  unfold Obligations.AnswersEventsAndSectionsComplete
  rintro s u t rfl
  refine ⟨?_, ?_, ?_⟩
  · intro fn addr len write hf ha h1 h2 hans
    have he := State.unanswered_of_answers (len := len) hans
    refine ⟨fun hm => ?_, fun hlen hm hn => ?_⟩
    · rw [exec_misalignedAccess hf ha h1 h2 hm, he]; rfl
    · subst hlen
      rw [exec_reservedAddressAccess hf ha hm hn, he]; rfl
  · intro k per ph m hs hm hc hk hper h0 hph h1 h2 h3 h4 hflight
    refine ⟨_, exec_ntimeGeneratorEvent hs (ntevDue_of hk hper h0 hph h1 h2 h3 h4), ?_⟩
    obtain ⟨hdone, hacc, htrig⟩ := measNtev_spec (s := (s.start t).ntevMark k m) (k := k) hm hc hflight
    have hmeas := meas_ntevFollowers (((s.start t).ntevMark k m).measNtev k) k
    generalize ((s.start t).ntevMark k m).measNtev k = v at hdone hacc htrig hmeas ⊢
    refine ⟨fun j => ?_, fun a ha hen hsrc harg hcnt => ?_, fun n hn hen hmode hinj hnt => ?_⟩
    · rw [hmeas, hdone, ntevDone_ntevMark]
      exact inRanges_addRange ..
    · have hclosed := hacc a
      rw [if_pos (mem_ntevCloses (s := (s.start t).ntevMark k m) ha hen hsrc harg)] at hclosed
      exact (acc_of_meas hmeas a).trans (hclosed.trans (AccSt.closed_of_full hcnt))
    · rw [unit_of_meas hmeas]
      exact htrig n hn (State.ntevTriggers_of hen hmode hinj hnt)
  · rintro im base keys sec rest ofs ha hr hp hbist hs rfl hlay hsec hl hk
    exact exec_sectionLoad_huskPolicy ha hr hp hbist hs hlay hsec hl hk

end Sys2Proof.Machine
end

section
/-! PROOFS. O16, O17, O20. The code of a sampled voltage (R44); the sequences of a converter unit and its injected triggers (R43 to R52); and the
calibration of the units, and the sigma-delta channels that stick and resume (R47, R56, R58). -/
namespace Sys2Proof.Machine

/-! ## The code of a sampled voltage -/

theorem sarCode_lt (vin : Int) (g : Nat) : sarCode vin g < 65536 := by
  unfold sarCode; omega

theorem sarCode_of_neg {vin : Int} (g : Nat) (h : vin < 0) : sarCode vin g = 0 := by
  unfold sarCode
  rw [Int.max_eq_right (by omega)]
  simp

/-- A voltage that is not negative enters the code as a natural number. -/
theorem sarCode_natCast (v g : Nat) : sarCode v g = min (v * 2 ^ g * 65536 / 2500000000) 65535 := by
  unfold sarCode
  rw [Int.max_eq_left (by omega), Int.toNat_natCast]

theorem natCast_mul_two_pow (v g : Nat) : (v : Int) * 2 ^ g = ((v * 2 ^ g : Nat) : Int) := by
  rw [Int.natCast_mul, Int.natCast_pow]; rfl

theorem isRail_iff (code : Nat) : isRail code = true ↔ code = 0 ∨ code = 65535 := by
  simp [isRail]

/-- Settles O16: below 0 V by the clamp of the voltage, else by the division of natural numbers. -/
theorem sarCodeIsFlooredRatio : Obligations.SarCodeIsFlooredRatio := by
  unfold Obligations.SarCodeIsFlooredRatio
  intro vin g
  refine ⟨sarCode_of_neg g, fun h => ?_, fun h0 h => ?_, sarCode_lt vin g, isRail_iff _⟩
  · have h0 : 0 ≤ vin := Int.not_lt.mp fun hn => by
      have hneg : vin * 2 ^ g < 0 := Int.mul_neg_of_neg_of_pos hn (Int.pow_pos (by decide))
      omega
    obtain ⟨v, rfl⟩ := Int.eq_ofNat_of_zero_le h0
    rw [natCast_mul_two_pow] at h
    rw [sarCode_natCast]
    omega
  · obtain ⟨v, rfl⟩ := Int.eq_ofNat_of_zero_le h0
    rw [natCast_mul_two_pow] at h ⊢
    rw [sarCode_natCast]
    omega

/-! ## Entries of a converter unit -/

/-- The record of a unit that acquires entry `e` until `q`. -/
def UnitSt.acquires (x : UnitSt) (e : Nat) (inj : Bool) (q : Instant) : UnitSt :=
  { x with phase := 1, entry := e, inj := inj, injWait := false, resume := if inj then x.resume else e, restart := inj && x.restart, until_ := q }

/-- The acquisition of an entry starts within the delay that is given (R46, R50, R52). -/
theorem unit_startEntry_same (s : State) (n e d : Nat) (inj : Bool) :
    ∃ k ≤ d, (s.startEntry n e d inj).unit n = (s.unit n).acquires e inj (s.now + k + s.acqTime n e) :=
  ⟨_, Nat.lt_succ_iff.mp (Nat.mod_lt _ (Nat.succ_pos d)), unit_setUnit_same ..⟩

/-- Without a delay it starts at once. -/
theorem unit_startEntry_now (s : State) (n e : Nat) (inj : Bool) :
    (s.startEntry n e 0 inj).unit n = (s.unit n).acquires e inj (s.now + s.acqTime n e) := by
  obtain ⟨k, hk, h⟩ := unit_startEntry_same s n e 0 inj
  rw [h, Nat.le_zero.mp hk, Nat.add_zero]

theorem unit_startEntry_other (s : State) {n m : Nat} (e d : Nat) (inj : Bool) (h : m ≠ n) :
    (s.startEntry n e d inj).unit m = s.unit m := unit_setUnit_other _ _ h

theorem acqTime_setUnit (s : State) (n : Nat) (x : UnitSt) (m e : Nat) : (s.setUnit n x).acqTime m e = s.acqTime m e := rfl

/-! ## Sampling -/

/-- The code of a conversion is a code of 16 bits, and where no pin of the unit is under injection, that of its input; it draws at most a free
value (R44, R510). -/
theorem unitCode_spec (s : State) (n e : Nat) (vin : List Int) (inj : Option Instant) :
    (s.unitCode n e vin inj).2 < 65536 ∧ (s.unitCode n e vin inj).1.meas = s.meas ∧ (s.unitCode n e vin inj).1.now = s.now
      ∧ ((∀ q, inj = some q → q + 2 * usQ < s.now) →
          (s.unitCode n e vin inj).2 = sarCode (vin.getD (s.f R.MEAS_SEQ_ENT_INPUT n e) 0) (s.f R.MEAS_SEQ_ENT_GAIN n e)) := by
  unfold State.unitCode
  split
  case isTrue hi =>
    obtain ⟨q, hq, hle⟩ := (Option.any_eq_true _ _).mp hi
    exact ⟨Nat.mod_lt _ (by decide), rfl, rfl, fun h => absurd (h q hq) (Nat.not_lt.mpr (of_decide_eq_true hle))⟩
  case isFalse => exact ⟨sarCode_lt .., rfl, rfl, fun _ => rfl⟩

theorem exec_samplingInstant {s : State} {t : Instant} {n : Nat} {vin : List Int} {inj : Option Instant} (hm : (s.start t).measOn = true)
    (hp : ((s.start t).unit n).phase = 1) (hu : ((s.start t).unit n).until_ ≤ (s.start t).now) :
    exec (.samplingInstant t n vin inj) s =
      let u := s.start t
      let c := u.unitCode n (u.unit n).entry vin inj
      .next (c.1.setUnit n { u.unit n with
        phase := 2, until_ := c.1.now + 60 * nsQ, flight := (u.unit n).flight ++ [((u.unit n).entry, c.2, c.1.now)] }) :=
  congrArg Host.Outcome.next (State.doIf_of (by rw [hm, hp, decide_eq_true hu]; rfl))

/-! ## The end of a conversion phase -/

/-- The regular sequence notes the entry at which it goes on; an injected one leaves it. -/
def State.noteResume (s : State) (n : Nat) : State :=
  if (s.unit n).inj then s else s.setUnit n { s.unit n with resume := s.nextRegular n (s.unit n).entry }

theorem unit_noteResume (s : State) (n : Nat) :
    (s.noteResume n).unit n
      = { s.unit n with resume := if (s.unit n).inj then (s.unit n).resume else s.nextRegular n (s.unit n).entry } := by
  unfold State.noteResume
  cases (s.unit n).inj with
  | true => rfl
  | false => exact unit_setUnit_same ..

theorem noteResume_frame (s : State) (n e : Nat) : (s.noteResume n).now = s.now ∧ (s.noteResume n).acqTime n e = s.acqTime n e := by
  unfold State.noteResume
  split <;> exact ⟨rfl, rfl⟩

theorem exec_conversionPhaseEnd {s : State} {t : Instant} {n : Nat} (hm : (s.start t).measOn = true) (hp : ((s.start t).unit n).phase = 2)
    (hu : ((s.start t).unit n).until_ ≤ (s.start t).now) :
    exec (.conversionPhaseEnd t n) s = .next (((s.start t).noteResume n).nextEntry n) :=
  congrArg Host.Outcome.next (State.doIf_of (by rw [hm, hp, decide_eq_true hu]; rfl))

/-- An injected sequence that waits starts at its first entry. -/
theorem nextEntry_of_injWait {s : State} {n : Nat} (h : (s.unit n).injWait = true) : s.nextEntry n = s.startEntry n 12 (5 * nsQ) true :=
  if_pos h

/-- With no injected sequence the regular one goes on. -/
theorem nextEntry_of_regular {s : State} {n : Nat} (hw : (s.unit n).injWait = false) (hi : (s.unit n).inj = false) :
    s.nextEntry n = s.resumeRegular n :=
  (if_neg (by rw [hw]; exact Bool.false_ne_true)).trans (if_neg (by rw [hi]; exact Bool.false_ne_true))

/-- At the end of a phase of the regular sequence its next entry follows at once. -/
theorem phaseEnd_of_regular {s : State} {n : Nat} (hi : (s.unit n).inj = false) (hw : (s.unit n).injWait = false)
    (hr : (s.unit n).restart = false) :
    ∃ x : UnitSt, ((s.noteResume n).nextEntry n).unit n
        = x.acquires (s.nextRegular n (s.unit n).entry) false (s.now + s.acqTime n (s.nextRegular n (s.unit n).entry))
      ∧ x.flight = (s.unit n).flight := by
  obtain ⟨hnow, hacq⟩ := noteResume_frame s n (s.nextRegular n (s.unit n).entry)
  have hx := unit_noteResume s n
  rw [hi, if_neg Bool.false_ne_true] at hx
  refine ⟨(s.noteResume n).unit n, ?_, by rw [hx]⟩
  have hres : ((s.noteResume n).unit n).resume = s.nextRegular n (s.unit n).entry := congrArg UnitSt.resume hx
  rw [nextEntry_of_regular ((congrArg UnitSt.injWait hx).trans hw) ((congrArg UnitSt.inj hx).trans hi)]
  unfold State.resumeRegular
  rw [if_neg (by rw [(congrArg UnitSt.restart hx).trans hr]; exact Bool.false_ne_true), unit_startEntry_now, hres, hnow, hacq]

/-- Where a restart waits, entry 0 follows within 5 ns (R52). -/
theorem phaseEnd_of_restart {s : State} {n : Nat} (hi : (s.unit n).inj = false) (hw : (s.unit n).injWait = false)
    (hr : (s.unit n).restart = true) :
    ∃ x : UnitSt, ∃ k ≤ 5 * nsQ, ((s.noteResume n).nextEntry n).unit n = x.acquires 0 false (s.now + k + s.acqTime n 0) := by
  obtain ⟨hnow, hacq⟩ := noteResume_frame s n 0
  have hx := unit_noteResume s n
  obtain ⟨k, hk, he⟩ := unit_startEntry_same (s.noteResume n) n 0 (5 * nsQ) false
  refine ⟨(s.noteResume n).unit n, k, hk, ?_⟩
  rw [nextEntry_of_regular ((congrArg UnitSt.injWait hx).trans hw) ((congrArg UnitSt.inj hx).trans hi)]
  unfold State.resumeRegular
  rw [if_pos ((congrArg UnitSt.restart hx).trans hr), he, hnow, hacq]

/-- Where an injected sequence waits, it starts. -/
theorem phaseEnd_of_injWait {s : State} {n : Nat} (hw : (s.unit n).injWait = true) :
    ∃ (x : UnitSt) (q : Instant), ((s.noteResume n).nextEntry n).unit n = x.acquires 12 true q := by
  obtain ⟨k, -, he⟩ := unit_startEntry_same (s.noteResume n) n 12 (5 * nsQ) true
  rw [nextEntry_of_injWait ((congrArg UnitSt.injWait (unit_noteResume s n)).trans hw), he]
  exact ⟨_, _, rfl⟩

/-! ## Injected triggers -/

theorem exec_injectedTrigger {s : State} {t : Instant} {n : Nat} (hm : (s.start t).measOn = true)
    (hd : ((s.start t).unit n).injDue = true) : exec (.injectedTrigger t n) s = .next ((s.start t).injTrigger n) :=
  congrArg Host.Outcome.next (State.doIf_of (by rw [hm, hd]; rfl))

/-- The trigger of a unit has been taken. -/
def State.takeInj (s : State) (n : Nat) : State := s.setUnit n { s.unit n with injDue := false }

@[simp] theorem unit_takeInj (s : State) (n : Nat) : (s.takeInj n).unit n = { s.unit n with injDue := false } := unit_setUnit_same ..

/-- What a trigger brings: while an injected sequence runs or waits, the overrun; else its start in an acquisition, its wait in a conversion
phase, and nothing at a unit that stands still (R50, R51). -/
theorem injTrigger_eq (s : State) (n : Nat) :
    s.injTrigger n =
      if (s.unit n).inj || (s.unit n).injWait then
        ((s.takeInj n).raiseBit R.MEAS_INJ_OVR_OVR n 0 E.INJ_OVERRUN (subject n)).setB R.MEAS_STAT_OVR_ANY true
      else if (s.unit n).phase = 1 then (s.takeInj n).startEntry n 12 (5 * nsQ) true
      else if (s.unit n).phase = 2 then (s.takeInj n).setUnit n { (s.takeInj n).unit n with injWait := true }
      else s.takeInj n := rfl

/-- An overrun shows in both registers, and leaves the records of MEAS. -/
theorem injOverrun_spec (s : State) {n : Nat} (hn : n < 24) :
    let s' := (s.raiseBit R.MEAS_INJ_OVR_OVR n 0 E.INJ_OVERRUN (subject n)).setB R.MEAS_STAT_OVR_ANY true
    s'.bitF R.MEAS_INJ_OVR_OVR n = true ∧ s'.b R.MEAS_STAT_OVR_ANY = true ∧ s'.meas = s.meas := by
  refine ⟨?_, b_setB_same _ _ _ _ _ (by decide), by simp⟩
  rw [bitF_of_f (f_setB_key _ _ (by decide))]
  exact bitF_raiseBit_same _ _ _ _ _ _ _ _ (by decide) (by simpa [R.MEAS_INJ_OVR_OVR] using hn) (by decide)

/-- Settles O17: each command by what it leaves in the unit's record. -/
theorem converterUnitRunsItsSequences : Obligations.ConverterUnitRunsItsSequences := by
  unfold Obligations.ConverterUnitRunsItsSequences
  constructor
  · rintro s u t n rfl hm
    refine ⟨fun vin inj hp hu => ?_, fun hp hu hi hw hr => ?_, fun hp hu hi hw hr => ?_, fun hp hu hw => ?_⟩
    · refine ⟨_, exec_samplingInstant hm hp hu, ?_⟩
      obtain ⟨hlt, hmeas, hnow, hcode⟩ := unitCode_spec (s.start t) n ((s.start t).unit n).entry vin inj
      dsimp only
      rw [unit_setUnit_same, hnow]
      exact ⟨rfl, rfl, rfl, ⟨_, rfl, hlt, hcode⟩, fun m hne => (unit_setUnit_other _ _ hne).trans (unit_of_meas hmeas m)⟩
    · obtain ⟨x, he, hflight⟩ := phaseEnd_of_regular hi hw hr
      refine ⟨_, exec_conversionPhaseEnd hm hp hu, ?_⟩
      dsimp only
      rw [he]
      exact ⟨rfl, rfl, rfl, rfl, hflight⟩
    · obtain ⟨x, k, hk, he⟩ := phaseEnd_of_restart hi hw hr
      refine ⟨_, exec_conversionPhaseEnd hm hp hu, ?_⟩
      dsimp only
      rw [he]
      exact ⟨rfl, rfl, rfl, Nat.add_le_add_right (Nat.le_add_right _ k) _,
        Nat.le_trans (Nat.le_of_eq (Nat.add_right_comm _ k _)) (Nat.add_le_add_left hk _)⟩
    · obtain ⟨x, q, he⟩ := phaseEnd_of_injWait hw
      refine ⟨_, exec_conversionPhaseEnd hm hp hu, ?_⟩
      dsimp only
      rw [he]
      exact ⟨rfl, rfl, rfl⟩
  · rintro s u t n rfl hm hd hn
    refine ⟨fun hi hw hp => ⟨_, exec_injectedTrigger hm hd, ?_⟩, fun hi hw hp => ⟨_, exec_injectedTrigger hm hd, ?_⟩,
      fun hi => ⟨_, exec_injectedTrigger hm hd, ?_⟩⟩
    · rw [injTrigger_eq, hi, hw, Bool.or_self, if_neg Bool.false_ne_true, if_pos hp]
      obtain ⟨k, -, he⟩ := unit_startEntry_same ((s.start t).takeInj n) n 12 (5 * nsQ) true
      rw [he, unit_takeInj]
      exact ⟨rfl, rfl, rfl, rfl⟩
    · rw [injTrigger_eq, hi, hw, Bool.or_self, if_neg Bool.false_ne_true, if_neg (by omega), if_pos hp]
      dsimp only
      rw [unit_setUnit_same, unit_takeInj]
      exact ⟨hp, rfl, hi⟩
    · rw [injTrigger_eq, hi, Bool.true_or, if_pos rfl]
      obtain ⟨hovr, hany, hmeas⟩ := injOverrun_spec ((s.start t).takeInj n) hn
      exact ⟨hovr, hany, by rw [unit_of_meas hmeas, unit_takeInj]⟩

/-! ## Calibration -/

/-- A unit that is enabled starts its regular sequence once all have calibrated (R47). -/
def State.startUnit (s : State) (n : Nat) : State :=
  s.doIf (s.b R.MEAS_CTL_EN && s.b R.MEAS_CTL_CAL_DONE && s.b R.MEAS_SEQ_CTL_EN n) (·.startEntry n 0 0 false)

theorem State.startUnits_eq (s : State) : s.startUnits = (List.range 24).foldl State.startUnit s := rfl

/-- From `s` to `v` records of MEAS and free values alone change. -/
abbrev UnitsOnly (s v : State) : Prop := Touches 68721573888 s v

/-- A start touches no more. -/
theorem tch_startUnit {s : State} {n : Nat} : UnitsOnly s (s.startUnit n) :=
  Touches.doIf (Touches.refl _ s) fun _ h => tch_startEntry.comp (by decide) h

/-- In `v` unit `n` acquires entry 0, from the instant of `s` on. -/
def Begun (s v : State) (n : Nat) : Prop :=
  (v.unit n).phase = 1 ∧ (v.unit n).entry = 0 ∧ (v.unit n).until_ = s.now + s.acqTime n 0

/-- A start of any unit keeps a unit begun, and its own start begins it. -/
theorem begun_startUnit {s v : State} {n m : Nat} (hv : UnitsOnly s v) (h1 : s.b R.MEAS_CTL_EN = true)
    (h2 : s.b R.MEAS_CTL_CAL_DONE = true) (h3 : s.b R.MEAS_SEQ_CTL_EN n = true) (h : m = n ∨ Begun s v n) : Begun s (v.startUnit m) n := by
  have hf (r : FRef) (i j : Nat) (hr : r.blk = .meas) : v.f r i j = s.f r i j := hv.f r i j (by rw [hr]; decide)
  by_cases hm : m = n
  · subst hm
    unfold State.startUnit
    rw [State.doIf_of (by rw [b_of_f (hf _ _ _ rfl), b_of_f (hf _ _ _ rfl), b_of_f (hf _ _ _ rfl), h1, h2, h3]; rfl)]
    unfold Begun
    rw [unit_startEntry_now, show v.now = s.now from hv.1 .now (by decide),
      show v.acqTime m 0 = s.acqTime m 0 by unfold State.acqTime; rw [hf _ _ _ rfl, hf _ _ _ rfl]]
    exact ⟨rfl, rfl, rfl⟩
  · have hu : (v.startUnit m).unit n = v.unit n := by
      unfold State.startUnit State.doIf
      split
      · exact unit_startEntry_other _ _ _ _ (Ne.symm hm)
      · rfl
    unfold Begun
    rw [hu]
    exact h.resolve_left hm

/-- At the start of the units each that is enabled begins. -/
theorem begun_startUnits {s : State} {n : Nat} (hn : n < 24) (h1 : s.b R.MEAS_CTL_EN = true) (h2 : s.b R.MEAS_CTL_CAL_DONE = true)
    (h3 : s.b R.MEAS_SEQ_CTL_EN n = true) : Begun s s.startUnits n := by
  obtain ⟨as, bs, hl⟩ := List.append_of_mem (List.mem_range.mpr hn)
  have hstep (v : State) (m : Nat) (hv : UnitsOnly s v) : UnitsOnly s (v.startUnit m) := tch_startUnit.comp (by decide) hv
  have has : UnitsOnly s (as.foldl State.startUnit s) := Touches.foldl (Touches.refl _ s) hstep
  rw [State.startUnits_eq, hl, List.foldl_append, List.foldl_cons]
  have hall := foldl_inv (P := fun v => UnitsOnly s v ∧ Begun s v n) (g := State.startUnit) bs _
    ⟨hstep _ n has, begun_startUnit has h1 h2 h3 (Or.inl rfl)⟩
    fun v m h => ⟨hstep v m h.1, begun_startUnit h.1 h1 h2 h3 (Or.inr h.2)⟩
  exact hall.2

/-- An acquisition time reads no bit of the calibration's register. -/
theorem acqTime_calDone (s : State) (n e : Nat) : (s.setB R.MEAS_CTL_CAL_DONE true).acqTime n e = s.acqTime n e := by
  unfold State.acqTime
  rw [f_setB_key _ _ (by simp [FRef.key, R.MEAS_SEQ_ENT_ACQ, R.MEAS_CTL_CAL_DONE]),
    f_setB_key _ _ (by simp [FRef.key, R.MEAS_SEQ_ENT_GAIN, R.MEAS_CTL_CAL_DONE])]

theorem b_calDone (s : State) : (s.setB R.MEAS_CTL_CAL_DONE true).b R.MEAS_CTL_CAL_DONE = true := b_setB_same _ _ _ _ _ (by decide)

/-- The end of the calibration starts each enabled unit. -/
theorem begun_calibrated {s : State} {n : Nat} (hn : n < 24) (hen : s.b R.MEAS_CTL_EN = true) (hseq : s.b R.MEAS_SEQ_CTL_EN n = true) :
    Begun s (s.setB R.MEAS_CTL_CAL_DONE true).startUnits n := by
  have hb := begun_startUnits hn ((b_setB_bits s _ _ _ _ _ (by decide)).trans hen) (b_calDone s)
    ((b_setB_key s _ (by simp [FRef.key, R.MEAS_SEQ_CTL_EN, R.MEAS_CTL_CAL_DONE])).trans hseq)
  unfold Begun at hb ⊢
  rwa [acqTime_calDone] at hb

theorem exec_calibrationDone {s : State} {t : Instant} (ha : (s.start t).alive = true) (hc : (s.start t).b R.MEAS_CTL_CAL_DONE = false) :
    exec (.calibrationDone t) s
      = .next (((s.start t).setB R.MEAS_CTL_CAL_DONE true).doIf (s.start t).sealed (·.startUnits)) := by
  have hs : ((s.start t).setB R.MEAS_CTL_CAL_DONE true).sealed = (s.start t).sealed :=
    congrArg ((s.start t).alive && ·) (b_setB_blk _ _ _ _ _ _ (by decide))
  rw [← hs]
  exact congrArg Host.Outcome.next (State.doIf_of (by rw [ha, hc]; rfl))

/-! ## Channels that stick and resume -/

theorem sdCh_setSd_same (s : State) (n : Nat) (x : SdSt) : (s.setSd n x).sdCh n = x := kget_kset_same ..

theorem sdCh_of_meas {s s' : State} (h : s'.meas = s.meas) (n : Nat) : s'.sdCh n = s.sdCh n := by unfold State.sdCh; rw [h]

/-- A channel that runs is one of the 48. -/
theorem lt_of_sdOn {s : State} {n : Nat} (h : s.sdOn n = true) : n < 48 := by
  unfold State.sdOn State.sdClocked at h
  simp only [Bool.and_eq_true, decide_eq_true_eq] at h
  omega

/-- A channel that is stuck does not run. -/
theorem sdOn_of_stuck {s : State} {n : Nat} (h : (s.sdCh n).stuck = true) : s.sdOn n = false := by
  unfold State.sdOn
  rw [h, Bool.not_true, Bool.and_false]

/-- The bit of a channel that is set in the registers. -/
theorem setStuck_spec (s : State) {n : Nat} (hn : n < 48) :
    (s.setStuck n).b R.MEAS_STAT_STUCK_ANY = true
      ∧ if n < 32 then (s.setStuck n).bitF R.MEAS_SD_STUCK0_STUCK n = true else (s.setStuck n).bitF R.MEAS_SD_STUCK1_STUCK (n - 32) = true := by
  refine ⟨b_setB_same _ _ _ _ _ (by decide), ?_⟩
  unfold State.setStuck
  split
  · rw [bitF_of_f (f_setB_key _ _ (by decide)), bitF_setBitF _ _ _ _ _ _ _ (by decide) (by simpa [R.MEAS_SD_STUCK0_STUCK]), if_pos rfl]
  · rw [bitF_of_f (f_setB_key _ _ (by decide)), bitF_setBitF _ _ _ _ _ _ _ (by decide) (by dsimp only [R.MEAS_SD_STUCK1_STUCK]; omega), if_pos rfl]

theorem exec_sdStuck {s : State} {t : Instant} {n : Nat} (h : (s.start t).sdOn n = true) :
    exec (.sdStuck t n) s
      = .next ((((s.start t).setSd n { (s.start t).sdCh n with stuck := true }).setStuck n).post E.SD_STUCK (subject n)) :=
  congrArg Host.Outcome.next (State.doIf_of h)

theorem exec_sdResumed {s : State} {t : Instant} {n : Nat} (h : (s.start t).sdClocked n = true) (hs : ((s.start t).sdCh n).stuck = true) :
    exec (.sdResumed t n) s = .next (((s.start t).setSd n {}).post E.SD_RESUMED (subject n)) :=
  congrArg Host.Outcome.next (State.doIf_of (by rw [h, hs]; rfl))

/-- Settles O20: the bit of the calibration stays through the start of the units; the report of a channel stands behind the change of its record. -/
theorem channelsCalibrateStickAndResume : Obligations.ChannelsCalibrateStickAndResume := by
  unfold Obligations.ChannelsCalibrateStickAndResume
  rintro s u t n rfl
  refine ⟨fun ha hc => ⟨_, exec_calibrationDone ha hc, ?_⟩, fun hon hr => ⟨_, exec_sdStuck hon, ?_⟩,
    fun hck hst hr => ⟨_, exec_sdResumed hck hst, ?_⟩⟩
  · refine ⟨?_, fun hs hen hn hseq => ?_, fun hs => ?_⟩
    · unfold State.doIf
      split
      · exact (b_of_f (tch_startUnits.f _ _ _ (by decide))).trans (b_calDone _)
      · exact b_calDone _
    · rw [State.doIf_of hs]
      exact begun_calibrated hn hen hseq
    · rw [State.doIf_not hs]; rfl
  · generalize hv : (s.start t).setSd n { (s.start t).sdCh n with stuck := true } = v
    have hstuck : (((v.setStuck n).post E.SD_STUCK (subject n)).sdCh n).stuck = true := by
      rw [sdCh_of_meas ((State.post_meas ..).trans (tch_setStuck.1 .meas (by decide))), ← hv, sdCh_setSd_same]
    obtain ⟨hany, hbit⟩ := setStuck_spec v (lt_of_sdOn hon)
    refine ⟨hstuck, (b_post _ _ _ _ _ _ _ _ (by decide)).trans hany, sdOn_of_stuck hstuck, ?_, ?_⟩
    · rw [bitF_of_f (f_post _ _ _ _ _ _ _ _ (by decide)), bitF_of_f (f_post _ _ _ _ _ _ _ _ (by decide))]
      exact hbit
    · subst hv
      have ht : Touches 2097168 (s.start t) (((s.start t).setSd n { (s.start t).sdCh n with stuck := true }).setStuck n) :=
        tch_setStuck.comp (by decide) (tch_setSd.mono (by decide))
      exact ht.reports (by decide) (by decide) hr ..
  · have hch : (((s.start t).setSd n {}).post E.SD_RESUMED (subject n)).sdCh n = {} := by
      rw [sdCh_of_meas (State.post_meas ..), sdCh_setSd_same]
    dsimp only
    rw [hch]
    exact ⟨rfl, rfl, rfl, State.post_regs _ _ _ _ _ hr, tch_setSd.reports (by decide) (by decide) hr ..⟩

end Sys2Proof.Machine
end

section
/-! PROOFS. O19, O22. The outputs of the protection filters in their trackers (R57, R69, R70); and the events of the NTIME generators, with the
windows that they leave open (R61, R62). -/
namespace Sys2Proof.Machine

/-! ## A conversion in a tracker -/

theorem mmt_setMmt_same (s : State) (m : Nat) (x : MmtSt) : (s.setMmt m x).mmt m = x := kget_kset_same ..
theorem mmt_setMmt_other (s : State) {m k : Nat} (x : MmtSt) (h : k ≠ m) : (s.setMmt m x).mmt k = s.mmt k := kget_kset_other _ _ _ h
theorem mmt_of_meas {s s' : State} (h : s'.meas = s.meas) (m : Nat) : s'.mmt m = s.mmt m := by unfold State.mmt; rw [h]

/-- From `s` to `s'` a code enters tracker `m`, whose window stays open: its count and its extremes follow; the other trackers, the accumulators
and the registers of MEAS stay. -/
structure MmtEnters (m code : Nat) (s s' : State) : Prop where
  cnt : (s'.mmt m).cnt = (s.mmt m).cnt + 1
  max : (s'.mmt m).max = Max.max (s.mmt m).max code
  min : (s'.mmt m).min = if (s.mmt m).cnt = 0 then code else Min.min (s.mmt m).min code
  acc : s'.meas.acc = s.meas.acc
  other : ∀ k, k ≠ m → s'.mmt k = s.mmt k
  f : ∀ (q : FRef) (i j : Nat), q.blk = .meas → s'.f q i j = s.f q i j

/-- What follows the entry leaves it as it is, where it leaves MEAS. -/
theorem MmtEnters.then {m code M : Nat} {s u v : State} (h : MmtEnters m code s u) (ht : Touches M u v) (hm : M.testBit 21 = false)
    (hr : M.testBit 4 = false) : MmtEnters m code s v := by
  have e : v.meas = u.meas := ht.1 .meas hm
  refine ⟨?_, ?_, ?_, by rw [e, h.acc], fun k hk => by rw [mmt_of_meas e, h.other k hk],
    fun q i j hq => by rw [ht.f q i j (by rw [hq]; exact hr), h.f q i j hq]⟩
  · rw [mmt_of_meas e, h.cnt]
  · rw [mmt_of_meas e, h.max]
  · rw [mmt_of_meas e, h.min]

theorem mmtEnters_setMmt {s : State} {m code : Nat} {x : MmtSt} (hc : x.cnt = (s.mmt m).cnt + 1) (hx : x.max = max (s.mmt m).max code)
    (hn : x.min = if (s.mmt m).cnt = 0 then code else min (s.mmt m).min code) : MmtEnters m code s (s.setMmt m x) :=
  ⟨by rw [mmt_setMmt_same, hc], by rw [mmt_setMmt_same, hx], by rw [mmt_setMmt_same, hn], rfl, fun _ hk => mmt_setMmt_other _ _ hk,
    fun _ _ _ _ => rfl⟩

theorem MmtEnters.postIf {m code : Nat} {s u : State} (h : MmtEnters m code s u) (c : Bool) (e : Ev) (a : Nat) :
    MmtEnters m code s (u.doIf c (·.post e a)) := by
  unfold State.doIf
  split
  · exact h.then tch_post (by decide) (by decide)
  · exact h

/-- A code enters an enabled tracker; the lines that it asserts only post (R69, R70, R71). -/
theorem mmtAdd_enters {s : State} {m : Nat} (code : Nat) (he : s.b R.MEAS_MMT_CFG_EN m = true) (hc : (s.mmt m).cnt + 1 < 16777215) :
    MmtEnters m code s (s.mmtAdd m code) := by
  unfold State.mmtAdd
  rw [if_pos he]
  dsimp only
  rw [State.doIf_not (c := (s.mmt m).cnt + 1 == 16777215) (by simpa using Nat.ne_of_lt hc)]
  exact ((mmtEnters_setMmt rfl rfl rfl).postIf _ _ _).postIf _ _ _

/-- A window below its limits stays open. -/
theorem mmtFull_of_open {s : State} {m : Nat} (hs : s.f R.MEAS_MMT_CLOSE_SRC m ≠ 2) (hc : (s.mmt m).cnt ≠ 16777215) : s.mmtFull m = s := by
  unfold State.mmtFull
  dsimp only
  rw [if_neg (by simp [hs]), if_neg hc]

/-- A conversion for a tracker alone enters it and closes no window, where it fills none. -/
theorem deliver_enters {s : State} {m : Nat} (code : Nat) (he : s.b R.MEAS_MMT_CFG_EN m = true) (hs : s.f R.MEAS_MMT_CLOSE_SRC m ≠ 2)
    (hc : (s.mmt m).cnt + 1 < 16777215) : MmtEnters m code s (s.deliver [{ acc := none, mmt := some m, code := code }]) := by
  have h := mmtAdd_enters code he hc
  have hd : s.deliver [{ acc := none, mmt := some m, code := code }]
      = ((s.mmtAdd m code).doIf ((s.mmtAdd m code).b R.MEAS_MMT_CFG_EN m) (·.mmtFull m)).settle := rfl
  rw [hd, State.doIf_of ((b_of_f (h.f _ _ _ rfl)).trans he),
    mmtFull_of_open (by rw [h.f _ _ _ rfl]; exact hs) (by rw [h.cnt]; exact Nat.ne_of_lt hc)]
  exact h.then tch_settle (by decide) (by decide)

/-! ## The output of a protection filter -/

/-- The bits of a protection filter at its output, newest first. -/
def State.protBits (s : State) (n : Nat) (clk : Instant) (pin : List (Instant × Bool)) : List Bool :=
  (s.sdBits n (2 ^ protLog (s.f R.MEAS_SD_CFG_PROT_OSR n)) clk pin ++ (s.sdCh n).bitsProt).take (3 * 2 ^ protLog (s.f R.MEAS_SD_CFG_PROT_OSR n))

/-- The channel with these bits in its protection filter, and one output less to discard. -/
def State.protTaken (s : State) (n : Nat) (clk : Instant) (pin : List (Instant × Bool)) : State :=
  s.setSd n { s.sdCh n with discardProt := (s.sdCh n).discardProt - 1, bitsProt := s.protBits n clk pin }

/-- The code of the output. -/
def State.protOut (s : State) (n : Nat) (clk : Instant) (pin : List (Instant × Bool)) : Nat :=
  protCode (sinc3 (2 ^ protLog (s.f R.MEAS_SD_CFG_PROT_OSR n)) (s.protBits n clk pin)) (s.f R.MEAS_SD_CFG_PROT_OSR n)

theorem exec_sdProtectionOutput {s : State} {t clk : Instant} {n : Nat} {pin : List (Instant × Bool)} (hon : (s.start t).sdOn n = true)
    (hp : (s.start t).f R.MEAS_SD_CFG_PROT_OSR n ≠ 0) :
    exec (.sdProtectionOutput t n clk pin) s
      = .next (((s.start t).protTaken n clk pin).doIf (((s.start t).sdCh n).discardProt == 0) (·.deliver
          [{ acc := none, mmt := routeTo ((s.start t).b R.MEAS_SD_RT_PMMT_EN n) ((s.start t).f R.MEAS_SD_RT_PMMT n)
             code := (s.start t).protOut n clk pin }])) :=
  congrArg Host.Outcome.next (State.doIf_of (by rw [hon, bne_iff_ne.mpr hp]; rfl))

/-- Settles O19: the output either is discarded or is a conversion for a tracker alone. -/
theorem protectionFilterFeedsItsTracker : Obligations.ProtectionFilterFeedsItsTracker := by
  unfold Obligations.ProtectionFilterFeedsItsTracker
  rintro s u t n m clk pin rfl hon hp
  refine ⟨fun hd => ⟨_, exec_sdProtectionOutput hon hp, ?_⟩, ?_⟩
  · rw [State.doIf_not (by simpa using Nat.ne_of_gt hd)]
    have hch : ((s.start t).protTaken n clk pin).sdCh n = { (s.start t).sdCh n with
        discardProt := ((s.start t).sdCh n).discardProt - 1, bitsProt := (s.start t).protBits n clk pin } := sdCh_setSd_same ..
    dsimp only
    rw [hch]
    exact ⟨rfl, rfl, rfl, rfl⟩
  · intro hd hrt hm hen hsrc hcnt code hcode
    refine ⟨_, exec_sdProtectionOutput hon hp, ?_⟩
    have hout : (s.start t).protOut n clk pin = code := hcode.symm
    rw [State.doIf_of (by rw [hd]; rfl), hrt, hm, hout, show routeTo true m = some m from rfl]
    have hmmt (k : Nat) : ((s.start t).protTaken n clk pin).mmt k = (s.start t).mmt k := rfl
    obtain ⟨h1, h2, h3, h4, h5, -⟩ := deliver_enters (s := (s.start t).protTaken n clk pin) (m := m) code hen hsrc hcnt
    simp only [hmmt] at h1 h2 h3 h5
    exact ⟨h1, h2, h3, h4, h5⟩

/-! ## The accumulators that a generator closes -/

/-- What a canonical map lists at a key is its value there. -/
theorem kget_of_mem {α : Type} [DecidableEq α] {d : α} {m : KMap α} {k : Nat} {v : α} (h : kwf d m = true) (hm : (k, v) ∈ m) :
    kget d m k = v := by
  induction m with
  | nil => cases hm
  | cons x m ih =>
    obtain ⟨hx, hrise⟩ := List.pairwise_cons.mp (keys_rise h)
    simp only [kwf, Bool.and_eq_true] at h
    unfold kget
    rcases List.mem_cons.mp hm with rfl | hm
    · exact if_pos rfl
    · rw [if_neg (Nat.ne_of_gt (hx _ hm))]
      exact ih h.2 hm

/-- The accumulators that are on are those enabled. -/
theorem mem_accsOn_iff {s : State} {a : Nat} (h : s.regs.canon) (ha : a < 256) : a ∈ s.accsOn ↔ s.b R.MEAS_ACC_CFG_EN a = true := by
  refine ⟨fun hm => ?_, mem_accsOn ha⟩
  unfold State.accsOn at hm
  obtain ⟨⟨k, w⟩, hmem, hx⟩ := List.mem_filterMap.mp hm
  obtain ⟨⟨hlo, hhi, hmod, hbit⟩, hk⟩ := Option.ite_none_right_eq_some.mp hx
  have hkey : R.MEAS_ACC_CFG_EN.key a 0 = k := by
    have := Option.some.inj hk
    simp only [FRef.key, R.MEAS_ACC_CFG_EN] at hlo hmod this ⊢
    omega
  unfold State.b State.f State.word
  rw [hkey, show kget 0 (s.regs.blk R.MEAS_ACC_CFG_EN.blk) k = w from kget_of_mem (h .meas) hmem]
  exact beq_iff_eq.mpr hbit

theorem mem_ntevCloses_iff {s : State} {a k : Nat} (h : s.regs.canon) (ha : a < 256) :
    a ∈ s.ntevCloses k ↔ s.b R.MEAS_ACC_CFG_EN a = true ∧ s.f R.MEAS_ACC_CLOSE_SRC a = 1 ∧ s.f R.MEAS_ACC_CLOSE_ARG a % 8 = k := by
  unfold State.ntevCloses
  rw [List.mem_filter, mem_accsOn_iff h ha, Bool.and_eq_true, beq_iff_eq, beq_iff_eq]

/-! ## The instants done -/

/-- From `s` to `s'` the instants that the generators have done stay. -/
structure DoneStays (s s' : State) : Prop where
  eq : s'.meas.ntevDone = s.meas.ntevDone

theorem DoneStays.refl (s : State) : DoneStays s s := ⟨rfl⟩

theorem DoneStays.then {s u v : State} (h : DoneStays s u) (h' : DoneStays u v) : DoneStays s v := ⟨h'.eq.trans h.eq⟩

theorem DoneStays.touch {M : Nat} {s s' : State} (h : Touches M s s') (hm : M.testBit 21 = false) : DoneStays s s' :=
  ⟨congrArg MeasSt.ntevDone (h.1 .meas hm)⟩

theorem WindowsClose.doneStays {as : List Nat} {s s' : State} (h : WindowsClose as s s') : DoneStays s s' := ⟨h.done⟩

theorem DoneStays.doIf {s : State} {c : Bool} {g : State → State} (h : DoneStays s (g s)) : DoneStays s (s.doIf c g) := by
  unfold State.doIf
  split
  · exact h
  · exact DoneStays.refl s

/-- A fold keeps them where each step does; `g` is the state in what is folded. -/
theorem DoneStays.foldl {α β : Type} (g : α → State) {f : α → β → α} (h : ∀ x y, DoneStays (g x) (g (f x y))) (l : List β) (x : α) :
    DoneStays (g x) (g (l.foldl f x)) := by
  induction l generalizing x with
  | nil => exact DoneStays.refl _
  | cons y l ih => exact (h x y).then (ih _)

theorem doneStays_post (s : State) (e : Ev) (a : Nat) (w0 w1 : Word) : DoneStays s (s.post e a w0 w1) := .touch tch_post (by decide)

theorem doneStays_closeAccs (s : State) (as : List Nat) : DoneStays s (s.closeAccs as) := by
  rw [State.closeAccs_eq]
  exact ((DoneStays.foldl (·.1) (f := closeNext) (fun x a => (closes_closeAcc x.1 a).doneStays) as (s, [])).then
    (.touch tch_sendWins (by decide))).then (.touch tch_resolvers (by decide))

theorem doneStays_accFull (s : State) (a : Nat) : DoneStays s (s.accFull a) := by
  unfold State.accFull
  dsimp only
  split
  · exact doneStays_closeAccs ..
  · split
    · exact (doneStays_closeAccs ..).then (doneStays_post ..)
    · exact DoneStays.refl s

theorem doneStays_setAcc (s : State) (a : Nat) (x : AccSt) : DoneStays s (s.setAcc a x) := ⟨rfl⟩

theorem doneStays_accAdd (s : State) (a code : Nat) : DoneStays s (s.accAdd a code) := by
  unfold State.accAdd
  dsimp only
  split
  · exact (doneStays_setAcc ..).then (.doIf (doneStays_accFull ..))
  · exact DoneStays.refl s

theorem doneStays_mmtFull (s : State) (m : Nat) : DoneStays s (s.mmtFull m) := by
  unfold State.mmtFull
  dsimp only
  split
  · exact (noClose_closeMmts ..).doneStays
  · split
    · exact (noClose_closeMmts ..).doneStays.then (doneStays_post ..)
    · exact DoneStays.refl s

theorem doneStays_mmtAdd (s : State) (m code : Nat) : DoneStays s (s.mmtAdd m code) := by
  unfold State.mmtAdd
  dsimp only
  split
  · exact (((noClose_setMmt ..).doneStays.then (.doIf (doneStays_post ..))).then (.doIf (doneStays_post ..))).then
      (.doIf (doneStays_mmtFull ..))
  · exact DoneStays.refl s

theorem doneStays_enter (s : State) (c : Conv) : DoneStays s (s.enter c) := by
  obtain ⟨acc, mmt, code⟩ := c
  cases acc with
  | none => cases mmt with
    | none => exact DoneStays.refl s
    | some m => exact doneStays_mmtAdd ..
  | some a => cases mmt with
    | none => exact doneStays_accAdd ..
    | some m => exact (doneStays_accAdd ..).then (doneStays_mmtAdd ..)

/-- Conversions enter windows and fill them, and no generator is asked. -/
theorem doneStays_deliver (s : State) (cs : List Conv) : DoneStays s (s.deliver cs) := by
  unfold State.deliver State.fillCloses
  refine (((DoneStays.foldl id doneStays_enter cs s).then (.foldl id (fun x c => ?_) cs _)).then (.foldl id (fun x c => ?_) cs _)).then
    (.touch tch_settle (by decide))
  · dsimp only [id]
    split
    · exact .doIf (doneStays_accFull ..)
    · exact DoneStays.refl x
  · dsimp only [id]
    split
    · exact .doIf (doneStays_mmtFull ..)
    · exact DoneStays.refl x

theorem doneStays_landConversions (s : State) : DoneStays s s.landConversions := by
  rw [State.landConversions_eq]
  exact (DoneStays.foldl (·.1) (f := landNext) (fun _ _ => ⟨rfl⟩) (List.range 24) (s, [])).then (doneStays_deliver ..)

theorem doneStays_windowsNtev (s : State) (k : Nat) : DoneStays s (s.windowsNtev k) :=
  (doneStays_closeAccs ..).then (noClose_closeMmts ..).doneStays

theorem doneStays_unitsNtev (s : State) (k : Nat) : DoneStays s (s.unitsNtev k) := by
  obtain ⟨-, hdone, -⟩ := foldl_ntevUnit k (List.range 24) s
  rw [State.unitsNtev_eq]
  exact ⟨hdone⟩

/-- An event leaves what its generator has marked. -/
theorem doneStays_measNtev (s : State) (k : Nat) : DoneStays s (s.measNtev k) := by
  unfold State.measNtev
  split
  · exact ((doneStays_landConversions s).then (doneStays_windowsNtev ..)).then (doneStays_unitsNtev ..)
  · exact DoneStays.refl s

/-- Settles O22: what follows the event leaves MEAS, so its records are those that `State.measNtev` leaves. -/
theorem ntimeGeneratorProducesEachInstantOnce : Obligations.NtimeGeneratorProducesEachInstantOnce := by
  unfold Obligations.NtimeGeneratorProducesEachInstantOnce
  rintro s u t k m rfl hs hc hd
  refine ⟨_, exec_ntimeGeneratorEvent hs hd, ?_⟩
  have hmeas := meas_ntevFollowers (((s.start t).ntevMark k m).measNtev k) k
  refine ⟨fun j => ?_, fun hm hflight => ?_⟩
  · rw [hmeas, (doneStays_measNtev _ k).eq, ntevDone_ntevMark]
    exact inRanges_addRange ..
  · obtain ⟨-, hacc, htrig⟩ := measNtev_spec (s := (s.start t).ntevMark k m) (k := k) hm hc hflight
    refine ⟨fun a ha => ?_, fun n hn hen hmode hinj hnt => ?_⟩
    · rw [acc_of_meas hmeas, hacc a]
      exact ite_congr (propext (mem_ntevCloses_iff (s := (s.start t).ntevMark k m) hc ha)) (fun _ => rfl) (fun _ => rfl)
    · rw [unit_of_meas hmeas]
      exact htrig n hn (State.ntevTriggers_of hen hmode hinj hnt)

end Sys2Proof.Machine
end

section
/-! PROOFS. O23, O24, O25. Edges of A and B and the index (R81 to R83); Hall levels (R84); and the ends of serial frames (R85 to R88, R97). -/
namespace Sys2Proof.Machine

/-! ## Interfaces and their status bits -/

theorem pi_setPi_other (s : State) {n m : Nat} (p : PiSt) (h : m ≠ n) : (s.setPi n p).pi m = s.pi m := kget_kset_other _ _ _ h

/-- What holds of a change holds of it under a condition. -/
theorem eq_doIf {α : Type} (φ : State → α) {s : State} {c : Bool} {g : State → State} (h : φ (g s) = φ s) : φ (s.doIf c g) = φ s := by
  cases c with
  | true => exact h
  | false => rfl

/-- An interface record after a condition: each KIND of record has seen STATUS bit `k`. -/
def PiSt.sees (p : PiSt) (k : Nat) : PiSt :=
  { p with seenInc := putBit p.seenInc k true, seenSer := putBit p.seenSer k true, seenRes := putBit p.seenRes k true }

theorem pi_cond_same (s : State) (n k : Nat) (r : FRef) (e : Ev) : (s.cond n k r e).pi n = (s.pi n).sees k := by
  unfold State.cond
  dsimp only
  rw [pi_raise, pi_setPi_same]
  rfl

theorem f_cond (s : State) (n k : Nat) (r : FRef) (e : Ev) (q : FRef) (i j : Nat) (hq : q.blk ≠ .sys) (h : Apart q r i j n 0) :
    (s.cond n k r e).f q i j = s.f q i j := f_raise _ _ _ _ _ _ _ _ _ _ hq h

theorem b_cond_bits (s : State) (n k : Nat) (r : FRef) (e : Ev) (q : FRef) (i : Nat) (hq : q.blk ≠ .sys)
    (h : r.lo ≤ r.hi ∧ q.lo ≤ q.hi ∧ q.hi < 32 ∧ (q.hi < r.lo ∨ r.hi < q.lo)) : (s.cond n k r e).b q i = s.b q i :=
  b_of_f (f_cond _ _ _ _ _ _ _ _ hq (Or.inr (Or.inr h)))

/-- A field of an interface's registers that lies beside LOSS. -/
abbrev BesideLoss (q : FRef) : Prop := q.blk = .pos ∧ q.base ≠ 0 ∧ q.lo ≤ q.hi ∧ q.hi < 32 ∧ (q.hi < 10 ∨ 10 < q.lo)

theorem b_lossCause (s : State) (n bit : Nat) (q : FRef) (i : Nat) (h : BesideLoss q) : (s.lossCause n bit).b q i = s.b q i := by
  obtain ⟨hblk, hbase, hbits⟩ := h
  refine b_of_f (f_lossCause _ _ _ _ _ _ hblk (Or.inr (Or.inr ⟨by decide, hbits⟩)) (Or.inr (Or.inl ?_)))
  simp only [FRef.key, R.POS_CTL_LOSS_LINE]
  omega

/-! ## Edges of A and B (R81, R82) -/

/-- The acceptance tick of an edge is kept. -/
def State.edgeTaken (s : State) (n e : Nat) : State :=
  s.setPi n { s.pi n with edges := ((e + s.f R.POS_PI_CFG_FILT n) :: (s.pi n).edges).take 2 }

/-- Edges of both pins at one edge time. -/
def State.edgesClash (s : State) (n e : Nat) : State :=
  (((s.edgeTaken n e).cond n 8 R.POS_PI_STAT_QUAD_ERR E.QUAD_ERROR).lossCause n lossQuad).settle

/-- An interface record after one count. -/
def PiSt.counts (p : PiSt) (up : Bool) (e : Nat) : PiSt :=
  { p with cnt := if up then p.cnt + 1 else p.cnt - 1, edgeTick := some e, edgeDir := up }

/-- An edge of one pin counts. -/
def State.edgeCounts (s : State) (n e : Nat) (up : Bool) : State :=
  ((s.edgeTaken n e).setPi n (((s.edgeTaken n e).pi n).counts up e)).settle

theorem quadEdge_both (s : State) (n e : Nat) (a b : Bool) : s.quadEdge n e true true a b = s.edgesClash n e := by
  unfold State.quadEdge
  exact if_pos rfl

theorem quadEdge_a (s : State) (n e : Nat) (a b : Bool) :
    s.quadEdge n e true false a b = s.edgeCounts n e ((a != b) != s.b R.POS_INC_CFG_DIR_INV n) := by
  unfold State.quadEdge
  exact if_neg (by decide)

theorem quadEdge_b (s : State) (n e : Nat) (a b : Bool) :
    s.quadEdge n e false true a b = s.edgeCounts n e ((a == b) != s.b R.POS_INC_CFG_DIR_INV n) := by
  unfold State.quadEdge
  exact if_neg (by decide)

theorem pi_edgeTaken (s : State) (n e : Nat) :
    (s.edgeTaken n e).pi n = { s.pi n with edges := ((e + s.f R.POS_PI_CFG_FILT n) :: (s.pi n).edges).take 2 } := pi_setPi_same ..

/-- A count moves the counter of its interface alone. -/
theorem pi_edgeCounts (s : State) (n e : Nat) (up : Bool) :
    (s.edgeCounts n e up).pi n = ((s.edgeTaken n e).pi n).counts up e ∧ ∀ m, m ≠ n → (s.edgeCounts n e up).pi m = s.pi m := by
  unfold State.edgeCounts
  refine ⟨by rw [pi_settle, pi_setPi_same], fun m hm => ?_⟩
  rw [pi_settle, pi_setPi_other _ _ hm]
  exact pi_setPi_other _ _ hm

theorem pi_edgesClash (s : State) (n e : Nat) : (s.edgesClash n e).pi n = ((s.edgeTaken n e).pi n).sees 8 := by
  unfold State.edgesClash
  rw [pi_settle, pi_lossCause, pi_cond_same]

theorem edgesClash_sets (s : State) (n e : Nat) : (s.edgesClash n e).b R.POS_PI_STAT_QUAD_ERR n = true := by
  unfold State.edgesClash
  rw [b_settle_pos _ _ _ _ rfl, b_lossCause _ _ _ _ _ (by decide)]
  exact b_cond _ _ _ _ _ (by decide) (by decide)

/-- The accepted levels of A and B. -/
def State.levelsTaken (s : State) (n : Nat) (qa qb : Option Bool) : State := s.setPi n { s.pi n with qa := qa, qb := qb }

theorem pi_levelsTaken_same (s : State) (n : Nat) (qa qb : Option Bool) :
    (s.levelsTaken n qa qb).pi n = { s.pi n with qa := qa, qb := qb } := pi_setPi_same ..

theorem pi_levelsTaken_other (s : State) {n m : Nat} (qa qb : Option Bool) (h : m ≠ n) : (s.levelsTaken n qa qb).pi m = s.pi m :=
  pi_setPi_other _ _ h

/-- A count after levels that are taken. -/
theorem counted_levelsTaken (s : State) (n e : Nat) (qa qb : Option Bool) (up : Bool) :
    let s' := (s.levelsTaken n qa qb).edgeCounts n e up
    (s'.pi n).edgeDir = up ∧ (s'.pi n).cnt = (if up then (s.pi n).cnt + 1 else (s.pi n).cnt - 1) ∧ (s'.pi n).edgeTick = some e
      ∧ ∀ m, m ≠ n → s'.pi m = s.pi m := by
  obtain ⟨hpi, hother⟩ := pi_edgeCounts (s.levelsTaken n qa qb) n e up
  refine ⟨?_, ?_, ?_, fun m hm => (hother m hm).trans (pi_levelsTaken_other _ _ _ hm)⟩
  all_goals
    rw [hpi, pi_edgeTaken, pi_levelsTaken_same]
    rfl

/-- QUAD_ERROR is posted after levels that are taken, and before what a loss of position brings. -/
theorem edgesClash_posts {s : State} {n : Nat} (e : Nat) (qa qb : Option Bool) (hb : s.b R.POS_PI_STAT_QUAD_ERR n = false) (hr : s.room) :
    Posts s ((s.levelsTaken n qa qb).edgesClash n e) E.QUAD_ERROR (subject n) := by
  have hreport : Reports s (((s.levelsTaken n qa qb).edgeTaken n e).cond n 8 R.POS_PI_STAT_QUAD_ERR E.QUAD_ERROR) E.QUAD_ERROR (subject n) :=
    raise_reports (((s.levelsTaken n qa qb).edgeTaken n e).setPi n ((((s.levelsTaken n qa qb).edgeTaken n e).pi n).sees 8)) _ _ _ _ _ _ hb hr
  exact hreport.posts (tch_lossCause.q.trans tch_settle.q)

section
variable {s : State} {n : Nat} {a b : Bool} {ta tb : Instant}

theorem quadLevels_edge_a (h : s.accepted n ta = true) (ha : (s.pi n).qa = some (!a)) (hb : (s.pi n).qb = some b) :
    s.quadLevels n a b ta tb = (s.levelsTaken n (some a) (some b)).quadEdge n (s.firstTick ta) true false a b := by
  unfold State.quadLevels State.levelsTaken
  simp [h, ha, hb]

theorem quadLevels_edge_b (h : s.accepted n tb = true) (hb : (s.pi n).qb = some (!b)) (ha : (s.pi n).qa = some a) :
    s.quadLevels n a b ta tb = (s.levelsTaken n (some a) (some b)).quadEdge n (s.firstTick tb) false true a b := by
  unfold State.quadLevels State.levelsTaken
  simp [h, ha, hb]

theorem quadLevels_edges_at_once (h : s.accepted n ta = true) (h' : s.accepted n tb = true) (ha : (s.pi n).qa = some (!a))
    (hb : (s.pi n).qb = some (!b)) (he : s.firstTick ta = s.firstTick tb) :
    s.quadLevels n a b ta tb = (s.levelsTaken n (some a) (some b)).quadEdge n (s.firstTick ta) true true a b := by
  unfold State.quadLevels State.levelsTaken
  simp [h, h', ha, hb, he]

theorem quadLevels_not_accepted (h : s.accepted n ta = false) (h' : s.accepted n tb = false) :
    s.quadLevels n a b ta tb = s.levelsTaken n (s.pi n).qa (s.pi n).qb := by
  unfold State.quadLevels State.levelsTaken
  simp [h, h']

theorem quadLevels_no_edge (ha : (s.pi n).qa = some a) (hb : (s.pi n).qb = some b) :
    s.quadLevels n a b ta tb = s.levelsTaken n (some a) (some b) := by
  unfold State.quadLevels State.levelsTaken
  simp [ha, hb]

theorem exec_quadEdge {t : Instant} (hp : (s.start t).piOn n = true) (hi : (s.start t).b R.POS_PI_CFG_INC_EN n = true) :
    exec (.quadEdge t n a b ta tb) s = .next ((s.start t).quadLevels n a b ta tb) :=
  congrArg Host.Outcome.next (State.doIf_of (by rw [hp, hi]; rfl))

end

/-- Settles O23: each case of the levels is one equation of `State.quadLevels`, and what a count or a clash does is said of it. -/
theorem quadratureEdgeCounts : Obligations.QuadratureEdgeCounts := by
  unfold Obligations.QuadratureEdgeCounts
  rintro s u t n a b ta tb rfl hp hi
  refine ⟨fun h ha hb => ⟨_, exec_quadEdge hp hi, ?_⟩, fun h hb ha => ⟨_, exec_quadEdge hp hi, ?_⟩,
    fun h h' ha hb he => ⟨_, exec_quadEdge hp hi, ?_⟩, fun h h' => ⟨_, exec_quadEdge hp hi, ?_⟩⟩
  · rw [quadLevels_edge_a h ha hb, quadEdge_a]
    exact counted_levelsTaken ..
  · rw [quadLevels_edge_b h hb ha, quadEdge_b]
    exact counted_levelsTaken ..
  · rw [quadLevels_edges_at_once h h' ha hb he, quadEdge_both]
    refine ⟨?_, edgesClash_sets .., edgesClash_posts _ _ _⟩
    rw [pi_edgesClash, pi_edgeTaken, pi_levelsTaken_same]
    rfl
  · rw [quadLevels_not_accepted h h']
    exact ⟨congrArg PiSt.cnt (pi_levelsTaken_same ..), rfl⟩

/-! ## The index (R83) -/

/-- What the index reads of an interface beside the counter is the same in both states: the last latch, and the lines of the encoder. -/
structure IndexKept (n : Nat) (s s' : State) : Prop where
  idxCnt : (s'.pi n).idxCnt = (s.pi n).idxCnt
  idxValid : (s'.pi n).idxValid = (s.pi n).idxValid
  lines : s'.f R.POS_INC_CFG_LINES n = s.f R.POS_INC_CFG_LINES n

theorem IndexKept.then {n : Nat} {s u v : State} (h : IndexKept n s u) (h' : IndexKept n u v) : IndexKept n s v :=
  ⟨h'.idxCnt.trans h.idxCnt, h'.idxValid.trans h.idxValid, h'.lines.trans h.lines⟩

theorem indexKept_setPi {n : Nat} {s : State} {p : PiSt} (hc : p.idxCnt = (s.pi n).idxCnt) (hv : p.idxValid = (s.pi n).idxValid) :
    IndexKept n s (s.setPi n p) :=
  ⟨by rw [pi_setPi_same, hc], by rw [pi_setPi_same, hv], rfl⟩

theorem indexKept_cond (s : State) (n k : Nat) {r : FRef} (e : Ev) (h : R.POS_INC_CFG_LINES.key n 0 ≠ r.key n 0) :
    IndexKept n s (s.cond n k r e) :=
  ⟨by rw [pi_cond_same]; rfl, by rw [pi_cond_same]; rfl, f_cond _ _ _ _ _ _ _ _ (by decide) (Or.inr (Or.inl h))⟩

theorem indexKept_lossCause (s : State) (n bit : Nat) : IndexKept n s (s.lossCause n bit) := by
  refine ⟨by rw [pi_lossCause], by rw [pi_lossCause], f_lossCause _ _ _ _ _ _ rfl (Or.inr (Or.inl ?_)) (Or.inr (Or.inl ?_))⟩
  · simp [FRef.key, R.POS_INC_CFG_LINES, R.POS_PI_STAT_LOSS]
  · simp [FRef.key, R.POS_INC_CFG_LINES, R.POS_CTL_LOSS_LINE]

theorem indexKept_settle (s : State) (n : Nat) : IndexKept n s s.settle :=
  ⟨by rw [pi_settle], by rw [pi_settle], f_settle_pos _ _ _ _ rfl⟩

theorem indexKept_edgeTaken (s : State) (n e : Nat) : IndexKept n s (s.edgeTaken n e) := by
  unfold State.edgeTaken
  exact indexKept_setPi rfl rfl

theorem indexKept_edgeCounts (s : State) (n e : Nat) (up : Bool) : IndexKept n s (s.edgeCounts n e up) := by
  have hset : IndexKept n (s.edgeTaken n e) ((s.edgeTaken n e).setPi n (((s.edgeTaken n e).pi n).counts up e)) := indexKept_setPi rfl rfl
  exact ((indexKept_edgeTaken ..).then hset).then (indexKept_settle ..)

theorem indexKept_edgesClash (s : State) (n e : Nat) : IndexKept n s (s.edgesClash n e) := by
  unfold State.edgesClash
  refine (((indexKept_edgeTaken ..).then (indexKept_cond _ _ _ _ ?_)).then (indexKept_lossCause ..)).then (indexKept_settle ..)
  simp [FRef.key, R.POS_INC_CFG_LINES, R.POS_PI_STAT_QUAD_ERR]

/-- However the levels of A and B are taken, the index is left. -/
theorem indexKept_quadLevels (s : State) (n : Nat) (a b : Bool) (ta tb : Instant) : IndexKept n s (s.quadLevels n a b ta tb) := by
  have taken (qa qb : Option Bool) : IndexKept n s (s.setPi n { s.pi n with qa := qa, qb := qb }) := indexKept_setPi rfl rfl
  have edge_a (u : State) (e : Nat) (a b : Bool) : IndexKept n u (u.quadEdge n e true false a b) := by
    rw [quadEdge_a]; exact indexKept_edgeCounts ..
  have edge_b (u : State) (e : Nat) (a b : Bool) : IndexKept n u (u.quadEdge n e false true a b) := by
    rw [quadEdge_b]; exact indexKept_edgeCounts ..
  unfold State.quadLevels
  dsimp only
  split
  case isTrue =>
    split
    case isTrue => rw [quadEdge_both]; exact (taken ..).then (indexKept_edgesClash ..)
    case isFalse =>
      split
      · exact ((taken ..).then (edge_a ..)).then (edge_b ..)
      · exact ((taken ..).then (edge_b ..)).then (edge_a ..)
  case isFalse =>
    split
    case isTrue => exact (taken ..).then (edge_a ..)
    case isFalse =>
      split
      · exact (taken ..).then (edge_b ..)
      · exact taken ..

/-- A latch that is out of step raises INDEX_ERR and may lose the position. -/
def State.indexBreaks (s : State) (n : Nat) : State := (s.cond n 7 R.POS_PI_STAT_INDEX_ERR E.INDEX_ERROR).lossCause n lossQuad

/-- The latch takes the counter and leaves it running. -/
theorem indexLatch_takes (s : State) (n : Nat) :
    ((s.indexLatch n).pi n).cnt = (s.pi n).cnt ∧ ((s.indexLatch n).pi n).idxCnt = (s.pi n).cnt ∧ ((s.indexLatch n).pi n).idxValid = true := by
  have breaks (u : State) : ((u.indexBreaks n).pi n) = (u.pi n).sees 7 := by
    unfold State.indexBreaks
    rw [pi_lossCause, pi_cond_same]
  have keeps {α : Type} (φ : PiSt → α) (hφ : ∀ p, φ (p.sees 7) = φ p) (u : State) (c : Bool) :
      φ ((u.doIf c (·.indexBreaks n)).pi n) = φ (u.pi n) :=
    eq_doIf (fun x : State => φ (x.pi n)) (by rw [breaks, hφ])
  refine ⟨(keeps PiSt.cnt (fun _ => rfl) _ _).trans ?_, (keeps PiSt.idxCnt (fun _ => rfl) _ _).trans ?_,
    (keeps PiSt.idxValid (fun _ => rfl) _ _).trans ?_⟩
  all_goals rw [pi_setPi_same]

theorem indexLatch_sets {s : State} {n : Nat} (hv : (s.pi n).idxValid = true)
    (hb : indexBad (s.pi n).cnt (s.pi n).idxCnt (4 * (s.f R.POS_INC_CFG_LINES n + 1)) = true) :
    (s.indexLatch n).b R.POS_PI_STAT_INDEX_ERR n = true := by
  unfold State.indexLatch
  dsimp only
  rw [State.doIf_of (by rw [hv, hb]; rfl), b_lossCause _ _ _ _ _ (by decide)]
  exact b_cond _ _ _ _ _ (by decide) (by decide)

theorem exec_indexLatch {s : State} {t : Instant} {n : Nat} {a b : Bool} {ta tb tz : Instant} (hp : (s.start t).piOn n = true)
    (hi : (s.start t).b R.POS_PI_CFG_INC_EN n = true) (hz : (s.start t).b R.POS_INC_CFG_Z_EN n = true) (hacc : (s.start t).accepted n tz = true)
    (hg : (s.start t).f R.POS_INC_CFG_Z_GATE n = 0 ∨ (s.start t).f R.POS_INC_CFG_Z_GATE n = 1 ∧ a = true ∧ b = true) :
    exec (.indexLatch t n a b ta tb tz) s = .next (((s.start t).quadLevels n a b ta tb).indexLatch n) := by
  have hgate : ((s.start t).f R.POS_INC_CFG_Z_GATE n == 0 || ((s.start t).f R.POS_INC_CFG_Z_GATE n == 1 && a && b)) = true := by
    rcases hg with h | ⟨h, rfl, rfl⟩ <;> rw [h] <;> rfl
  refine congrArg Host.Outcome.next ((State.doIf_of (by rw [hp, hi]; rfl)).trans (State.doIf_of ?_))
  rw [hz, hacc, hgate]
  rfl

/-! ## Hall levels (R84) -/

/-- The three bits of a state, put into another, make it that state. -/
theorem hallBits_put :
    ∀ o < 8, ∀ h < 8, putBit (putBit (putBit o 0 (Nat.testBit h 0)) 1 (Nat.testBit h 1)) 2 (Nat.testBit h 2) = h := by decide

theorem putBit_self (n i : Nat) : putBit n i (n.testBit i) = n := by
  unfold putBit
  cases n.testBit i <;> rfl

/-- One pin, where it is accepted with edge time `e`, puts its level into a Hall state. -/
def State.hallPin (s : State) (n h : Nat) (since : List Instant) (e o i : Nat) : Nat :=
  if s.accepted n (since.getD (2 - i) 0) && s.firstTick (since.getD (2 - i) 0) == e then putBit o i (h.testBit i) else o

/-- A Hall state after the three pins. -/
def State.hallPins (s : State) (n h : Nat) (since : List Instant) (e o : Nat) : Nat := (List.range 3).foldl (s.hallPin n h since e) o

theorem hallPin_accepted {s : State} {n : Nat} {q : Instant} {since : List Instant} {e i : Nat} (h o : Nat) (hq : since.getD (2 - i) 0 = q)
    (hacc : s.accepted n q = true) (he : s.firstTick q = e) : s.hallPin n h since e o i = putBit o i (h.testBit i) := by
  unfold State.hallPin
  rw [hq, hacc, he, Bool.true_and]
  exact if_pos (beq_self_eq_true e)

/-- A pin leaves a state that shows its level. -/
theorem hallPin_self (s : State) (n h : Nat) (since : List Instant) (e i : Nat) : s.hallPin n h since e h i = h := by
  unfold State.hallPin
  rw [putBit_self, ite_self]

theorem hallPins_eq (s : State) (n h : Nat) (since : List Instant) (e o : Nat) :
    s.hallPins n h since e o = s.hallPin n h since e (s.hallPin n h since e (s.hallPin n h since e o 0) 1) 2 := rfl

theorem hallAt_known {s : State} {n o : Nat} (hs : (s.pi n).hall = some o) (h : Nat) (since : List Instant) (e : Nat) :
    s.hallAt n h since e = s.doIf (s.hallPins n h since e o != o) (·.hallChange n (s.hallPins n h since e o) e) := by
  unfold State.hallAt
  rw [hs]
  rfl

/-- Levels that the state shows already bring nothing. -/
theorem hallAt_stays {s : State} {n h : Nat} (hs : (s.pi n).hall = some h) (since : List Instant) (e : Nat) : s.hallAt n h since e = s := by
  rw [hallAt_known hs, hallPins_eq, hallPin_self, hallPin_self, hallPin_self]
  exact State.doIf_not (bne_self_eq_false h)

/-- The end of an invalid state is noted for the records alone. -/
theorem hallPast_frame (s : State) (n : Nat) : ((s.hallPast n).pi n).hall = (s.pi n).hall ∧ (s.hallPast n).regs = s.regs := by
  unfold State.hallPast
  dsimp only
  split
  · exact ⟨by rw [pi_setPi_same], rfl⟩
  · exact ⟨rfl, rfl⟩

/-- The new state and its edge time are kept. -/
def State.hallTaken (s : State) (n h e : Nat) : State :=
  s.setPi n { s.pi n with hall := some h, hallTick := some e
                          hallEdges := ((e + s.f R.POS_PI_CFG_FILT n) :: (s.pi n).hallEdges).take 2
                          hallDir := match (s.pi n).hall with | some o => !hallInvalid o && hallNext o == h | none => false }

/-- A change of more than one level. -/
def hallJumps (old : Option Nat) (h : Nat) : Bool := old.any fun o => decide (2 ≤ popcount 3 (o ^^^ h))

/-- The conditions that a change of state meets. -/
def State.hallJudged (s : State) (n h : Nat) (old : Option Nat) : State :=
  ((s.doIf (hallJumps old h) (·.cond n 5 R.POS_PI_STAT_HALL_SEQ E.HALL_SEQUENCE)).doIf (hallInvalid h)
    (·.cond n 6 R.POS_PI_STAT_HALL_ERR E.HALL_INVALID)).settle

theorem hallChange_eq (s : State) (n h e : Nat) :
    s.hallChange n h e = ((s.hallPast n).hallTaken n h e).hallJudged n h (s.pi n).hall := by
  rw [← (hallPast_frame s n).1]
  unfold State.hallChange State.hallJudged State.hallTaken hallJumps
  rfl

/-- The conditions leave what an interface record holds beside what its records have seen. -/
theorem hallJudged_keeps {α : Type} (φ : PiSt → α) (hφ : ∀ p k, φ (p.sees k) = φ p) (s : State) (n h : Nat) (old : Option Nat) :
    φ ((s.hallJudged n h old).pi n) = φ (s.pi n) := by
  unfold State.hallJudged
  rw [pi_settle]
  refine (eq_doIf (fun x : State => φ (x.pi n)) ?_).trans (eq_doIf (fun x : State => φ (x.pi n)) ?_)
  all_goals rw [pi_cond_same, hφ]

theorem hallJudged_err {s : State} {n h : Nat} (old : Option Nat) (hi : hallInvalid h = true) :
    (s.hallJudged n h old).b R.POS_PI_STAT_HALL_ERR n = true := by
  unfold State.hallJudged
  rw [b_settle_pos _ _ _ _ rfl, State.doIf_of hi]
  exact b_cond _ _ _ _ _ (by decide) (by decide)

theorem hallJudged_seq (s : State) (n h : Nat) (old : Option Nat) :
    (s.hallJudged n h old).b R.POS_PI_STAT_HALL_SEQ n = (hallJumps old h || s.b R.POS_PI_STAT_HALL_SEQ n) := by
  unfold State.hallJudged
  rw [b_settle_pos _ _ _ _ rfl]
  refine (eq_doIf (fun x : State => x.b R.POS_PI_STAT_HALL_SEQ n) ?_).trans ?_
  · exact b_cond_bits _ _ _ _ _ _ _ (by decide) (by decide)
  · cases hallJumps old h with
    | true => exact b_cond _ _ _ _ _ (by decide) (by decide)
    | false => rfl

/-- A change of the Hall state: the state, its edge time, and its two error bits. -/
theorem hallChange_spec (s : State) (n h e : Nat) :
    let s' := s.hallChange n h e
    (s'.pi n).hall = some h ∧ (s'.pi n).hallTick = some e ∧ (hallInvalid h = true → s'.b R.POS_PI_STAT_HALL_ERR n = true)
      ∧ s'.b R.POS_PI_STAT_HALL_SEQ n = (hallJumps (s.pi n).hall h || s.b R.POS_PI_STAT_HALL_SEQ n) := by
  rw [hallChange_eq]
  have htaken (u : State) : (u.hallTaken n h e).pi n = _ := pi_setPi_same ..
  refine ⟨?_, ?_, hallJudged_err _, ?_⟩
  · rw [hallJudged_keeps PiSt.hall fun _ _ => rfl, htaken]
  · rw [hallJudged_keeps PiSt.hallTick fun _ _ => rfl, htaken]
  · rw [hallJudged_seq]
    congr 1
    unfold State.b State.f State.word State.hallTaken State.setPi
    rw [← (hallPast_frame s n).2]

section
variable {s : State} {n h : Nat} {tu tv tw : Instant}

theorem exec_hallTransition {t : Instant} (hp : (s.start t).piOn n = true) (he : (s.start t).b R.POS_PI_CFG_HALL_EN n = true) (hh : h < 8) :
    exec (.hallTransition t n h tu tv tw) s = .next ((s.start t).hallLevels n h [tu, tv, tw]) := by
  refine congrArg Host.Outcome.next ((State.doIf_of (by rw [hp, he]; rfl)).trans ?_)
  rw [Nat.mod_eq_of_lt hh]

variable (hu : s.accepted n tu = true) (hv : s.accepted n tv = true) (hw : s.accepted n tw = true)
  (huv : s.firstTick tu = s.firstTick tv) (hvw : s.firstTick tv = s.firstTick tw)
include hu hv hw huv hvw

/-- Pins that are all accepted with one edge time bring the state that they show. -/
theorem hallAt_moves {o : Nat} (hs : (s.pi n).hall = some o) (ho : o < 8) (hh : h < 8) (hne : h ≠ o) :
    s.hallAt n h [tu, tv, tw] (s.firstTick tu) = s.hallChange n h (s.firstTick tu) := by
  have hpins : s.hallPins n h [tu, tv, tw] (s.firstTick tu) o = h := by
    have hW := fun o => hallPin_accepted (since := [tu, tv, tw]) (i := 0) h o rfl hw (huv.trans hvw).symm
    have hV := fun o => hallPin_accepted (since := [tu, tv, tw]) (i := 1) h o rfl hv huv.symm
    have hU := fun o => hallPin_accepted (since := [tu, tv, tw]) (i := 2) (e := s.firstTick tu) h o rfl hu rfl
    rw [hallPins_eq, hW, hV, hU]
    exact hallBits_put o ho h hh
  rw [hallAt_known hs, hpins]
  exact State.doIf_of (bne_iff_ne.mpr hne)

omit hu hv hw in
/-- Three levels of one edge time are one entry in the order of the edge times, thrice. -/
theorem hallTicks_eq :
    [tu, tv, tw].foldr (fun q es => insertTick (s.firstTick q) es) [] = [s.firstTick tu, s.firstTick tu, s.firstTick tu] := by
  simp only [List.foldr_cons, List.foldr_nil, ← hvw, ← huv, insertTick, Nat.le_refl, if_true]

/-- Three levels of one edge time bring one change, at that time. -/
theorem hallLevels_of_known {o : Nat} (hs : (s.pi n).hall = some o) (ho : o < 8) (hh : h < 8) (hne : h ≠ o) :
    s.hallLevels n h [tu, tv, tw] = s.hallChange n h (s.firstTick tu) := by
  obtain ⟨hall, -⟩ := hallChange_spec s n h (s.firstTick tu)
  unfold State.hallLevels
  dsimp only
  rw [hallTicks_eq huv hvw, if_neg (by rw [hs]; exact Bool.false_ne_true)]
  simp only [List.foldl_cons, List.foldl_nil]
  rw [hallAt_moves hu hv hw huv hvw hs ho hh hne, hallAt_stays hall, hallAt_stays hall]

/-- The first accepted state of all. -/
theorem hallLevels_of_unknown (hs : (s.pi n).hall = none) : s.hallLevels n h [tu, tv, tw] = s.hallChange n h (s.firstTick tu) := by
  unfold State.hallLevels
  dsimp only
  rw [hallTicks_eq huv hvw, if_pos (by rw [hs]; rfl)]
  exact State.doIf_of (by simp only [List.all_cons, List.all_nil, hu, hv, hw, Bool.and_self])

end

/-- Settles O24: the index by what the levels of A and B leave of it, and the Hall state by the one change that levels of one edge time bring. -/
theorem indexAndHallFollowTheirSignals : Obligations.IndexAndHallFollowTheirSignals := by
  unfold Obligations.IndexAndHallFollowTheirSignals
  constructor
  · rintro s u t n a b ta tb tz rfl hp hi hz hacc hg
    obtain ⟨hcnt, hidx, hvalid⟩ := indexLatch_takes ((s.start t).quadLevels n a b ta tb) n
    have kept := indexKept_quadLevels (s.start t) n a b ta tb
    refine ⟨_, exec_indexLatch hp hi hz hacc hg, hidx.trans hcnt.symm, hvalid, fun ha hb => ?_, fun hv hbad => indexLatch_sets ?_ ?_⟩
    · rw [hcnt, quadLevels_no_edge ha hb, pi_levelsTaken_same]
    · rw [kept.idxValid, hv]
    · rw [kept.idxCnt, kept.lines, ← hcnt]
      exact hbad
  · rintro s u t n h tu tv tw rfl hp he hh hu hv hw huv hvw
    obtain ⟨hhall, htick, herr, hseq⟩ := hallChange_spec (s.start t) n h ((s.start t).firstTick tu)
    refine ⟨fun o ho ho8 hne => ⟨_, exec_hallTransition hp he hh, ?_⟩, fun hn => ⟨_, exec_hallTransition hp he hh, ?_⟩⟩
    · rw [hallLevels_of_known hu hv hw huv hvw ho ho8 hh hne]
      refine ⟨hhall, htick, fun hinv => herr ?_, fun hjump => ?_⟩
      · rcases hinv with rfl | rfl <;> rfl
      · rw [hseq, ho, hallJumps, Option.any_some, decide_eq_true hjump, Bool.true_or]
    · rw [hallLevels_of_unknown hu hv hw huv hvw hn]
      exact ⟨hhall, by rw [hseq, hn]; rfl⟩

/-! ## Ends of serial frames (R85 to R88, R97) -/

theorem pi_serStop (s : State) (n : Nat) (ready : Instant) :
    (s.serStop n ready).pi n = { s.pi n with ser := { (s.pi n).ser with running := false, ready := ready } } := by
  unfold State.serStop
  exact (pi_of_pos (State.emit_pos ..) n).trans (pi_setPi_same ..)

theorem ser_cond (s : State) (n k : Nat) (r : FRef) (e : Ev) : ((s.cond n k r e).pi n).ser = (s.pi n).ser := by rw [pi_cond_same]; rfl

theorem pos_foldl_send (l : List FlitDst) (f : FlitDst → Flit) (s : State) : (l.foldl (fun s d => s.send (f d)) s).pos = s.pos := by
  induction l generalizing s with
  | nil => rfl
  | cons d l ih => exact (ih _).trans (State.send_pos ..)

/-- A record that is sent leaves the serial part of its interface. -/
theorem ser_sendPos (s : State) (n : Nat) (ts : Word) (status : Nat) (body : PosBody) : ((s.sendPos n ts status body).pi n).ser = (s.pi n).ser := by
  unfold State.sendPos
  refine (eq_doIf (fun x : State => (x.pi n).ser) ?_).trans (by rw [pi_setPi_same])
  rw [pi_of_pos (pos_foldl_send _ (fun d => { dst := d, src := posPort, payload := .posres ts n status body }) _)]

theorem ser_serRecord (s : State) (n pos lineDly : Nat) : ((s.serRecord n pos lineDly).pi n).ser = (s.pi n).ser := by
  unfold State.serRecord
  rw [ser_sendPos, pi_setPi_same]

theorem b_serRecord (s : State) (n pos lineDly : Nat) (q : FRef) (i : Nat) (hq : q.blk = .pos) : (s.serRecord n pos lineDly).b q i = s.b q i :=
  b_of_f (tch_serRecord.f q i 0 (by rw [hq]; decide))

/-- The count of failures after a frame, which a good one starts again. -/
theorem ser_serOutcome (s : State) (n : Nat) (failed : Bool) :
    ((s.serOutcome n failed).pi n).ser = { (s.pi n).ser with run := if failed then (s.pi n).ser.run + 1 else 0 } := by
  unfold State.serOutcome
  cases failed with
  | true =>
    refine (eq_doIf (fun x : State => (x.pi n).ser) (congrArg PiSt.ser (pi_lossCause ..))).trans ?_
    rw [pi_setPi_same]
    rfl
  | false => exact congrArg PiSt.ser (pi_setPi_same ..)

theorem b_serOutcome (s : State) (n : Nat) (failed : Bool) (q : FRef) (i : Nat) (h : BesideLoss q) : (s.serOutcome n failed).b q i = s.b q i := by
  unfold State.serOutcome
  cases failed with
  | true => exact eq_doIf (fun x : State => x.b q i) (b_lossCause _ _ _ _ _ h)
  | false => rfl

/-- A frame's check has failed, or not. -/
def State.serCheck (s : State) (n : Nat) (bad : Bool) : State := s.doIf bad (·.cond n 4 R.POS_PI_STAT_SER_CRC E.SER_CRC)

theorem ser_serCheck (s : State) (n : Nat) (bad : Bool) : ((s.serCheck n bad).pi n).ser = (s.pi n).ser :=
  eq_doIf (fun x : State => (x.pi n).ser) (ser_cond ..)

theorem serCheck_sets (s : State) (n : Nat) : (s.serCheck n true).b R.POS_PI_STAT_SER_CRC n = true :=
  b_cond _ _ _ _ _ (by decide) (by decide)

/-- The encoder's own error and warning (BiSS-C). -/
def State.encBits (s : State) (n : Nat) (nE nW : Bool) : State :=
  (s.doIf (!nE) fun s => (s.cond n 2 R.POS_PI_STAT_ENC_ERR E.ENC_ERROR).lossCause n lossEnc).doIf (!nW)
    (·.cond n 1 R.POS_PI_STAT_ENC_WARN E.ENC_WARNING)

theorem ser_encBits (s : State) (n : Nat) (nE nW : Bool) : ((s.encBits n nE nW).pi n).ser = (s.pi n).ser := by
  refine (eq_doIf (fun x : State => (x.pi n).ser) (ser_cond ..)).trans (eq_doIf (fun x : State => (x.pi n).ser) ?_)
  rw [pi_lossCause, ser_cond]

theorem crc_encBits (s : State) (n : Nat) (nE nW : Bool) : (s.encBits n nE nW).b R.POS_PI_STAT_SER_CRC n = s.b R.POS_PI_STAT_SER_CRC n := by
  refine (eq_doIf (fun x : State => x.b R.POS_PI_STAT_SER_CRC n) ?_).trans (eq_doIf (fun x : State => x.b R.POS_PI_STAT_SER_CRC n) ?_)
  · exact b_cond_bits _ _ _ _ _ _ _ (by decide) (by decide)
  · exact (b_lossCause _ _ _ _ _ (by decide)).trans (b_cond_bits _ _ _ _ _ _ _ (by decide) (by decide))

/-- What the end of a frame leaves: an interface that is free from an instant on, SER_CRC where the check failed, and a count of failures that
starts again where it did not. -/
structure FrameEnds (s' : State) (n : Nat) (ready : Instant) (bad : Bool) : Prop where
  running : (s'.pi n).ser.running = false
  ready : (s'.pi n).ser.ready = ready
  crc : bad = true → s'.b R.POS_PI_STAT_SER_CRC n = true
  run : bad = false → (s'.pi n).ser.run = 0

/-- A frame that is stopped and checked ends by its outcome and its record, whatever keeps its serial part and SER_CRC in between. -/
theorem frameEnds_record {s u : State} {n : Nat} {ready : Instant} {bad : Bool}
    (hser : (u.pi n).ser = (((s.serStop n ready).serCheck n bad).pi n).ser)
    (hcrc : u.b R.POS_PI_STAT_SER_CRC n = ((s.serStop n ready).serCheck n bad).b R.POS_PI_STAT_SER_CRC n) (pos lineDly : Nat) :
    FrameEnds ((u.serOutcome n bad).serRecord n pos lineDly) n ready bad := by
  have h : (((u.serOutcome n bad).serRecord n pos lineDly).pi n).ser
      = { (s.pi n).ser with running := false, ready := ready, run := if bad then (s.pi n).ser.run + 1 else 0 } := by
    rw [ser_serRecord, ser_serOutcome, hser, ser_serCheck, pi_serStop]
  refine ⟨by rw [h], by rw [h], ?_, ?_⟩
  · rintro rfl
    rw [b_serRecord _ _ _ _ _ _ rfl, b_serOutcome _ _ _ _ _ (by decide), hcrc]
    exact serCheck_sets ..
  · rintro rfl
    rw [h]
    rfl

section
variable {s : State} {n : Nat}

theorem exec_serialFrameEnd {t : Instant} {raw check lineDly : Nat} {nE nW : Bool} {ready : Instant} (hp : (s.start t).piOn n = true)
    (hr : ((s.start t).pi n).ser.running = true) :
    exec (.serialFrameEnd t n raw check lineDly nE nW ready) s = .next ((s.start t).serialEnd n raw check lineDly nE nW ready) :=
  congrArg Host.Outcome.next (State.doIf_of (by rw [hp, hr]; rfl))

/-- The end of a BiSS-C frame: its check is the CRC of the position and the encoder's two bits. -/
theorem serialEnd_biss (raw check lineDly : Nat) (nE nW : Bool) (ready : Instant) (h : s.f R.POS_PI_CFG_SER n = 1) :
    FrameEnds (s.serialEnd n raw check lineDly nE nW ready) n ready
      (63 - biss6 (s.f R.POS_SER_CFG_LEN n + 3) (raw % 2 ^ (s.f R.POS_SER_CFG_LEN n + 1) * 4 + b2n nE * 2 + b2n nW) != check % 64) := by
  unfold State.serialEnd
  dsimp only
  rw [if_pos h]
  exact frameEnds_record (ser_encBits ..) (crc_encBits ..) _ _

/-- The end of an SSI frame: its check is the parity, where the interface has one. -/
theorem serialEnd_ssi (raw check lineDly : Nat) (nE nW : Bool) (ready : Instant) (h : s.f R.POS_PI_CFG_SER n = 2) :
    FrameEnds (s.serialEnd n raw check lineDly nE nW ready) n (s.now + 25 * usQ)
      (s.b R.POS_SER_CFG_PARITY n && popcount 41 (raw % 2 ^ (s.f R.POS_SER_CFG_LEN n + 1)) % 2 != check % 2) := by
  unfold State.serialEnd
  dsimp only
  rw [if_neg (by rw [h]; decide)]
  exact frameEnds_record rfl rfl _ _

theorem exec_serTimeout {t : Instant} {ready : Instant} (hp : (s.start t).piOn n = true) (hs : (s.start t).f R.POS_PI_CFG_SER n = 1)
    (hr : ((s.start t).pi n).ser.running = true)
    (hd : ((s.start t).pi n).ser.start + 4 * ((s.start t).f R.POS_SER_CFG_TIMEOUT n + 1) * (s.start t).maPeriod n ≤ (s.start t).now) :
    exec (.serTimeout t n ready) s = .next ((s.start t).serTimeout n ready) :=
  congrArg Host.Outcome.next (State.doIf_of (by rw [hp, hs, hr, decide_eq_true hd]; rfl))

/-- A frame without a start bit ends with SER_TIMEOUT. -/
theorem serTimeout_ends (ready : Instant) :
    ((s.serTimeout n ready).pi n).ser.running = false ∧ ((s.serTimeout n ready).pi n).ser.ready = ready
      ∧ (s.serTimeout n ready).b R.POS_PI_STAT_SER_TIMEOUT n = true := by
  have h : ((s.serTimeout n ready).pi n).ser = { (s.pi n).ser with running := false, ready := ready, run := (s.pi n).ser.run + 1 } := by
    unfold State.serTimeout
    rw [ser_serOutcome, ser_cond, pi_serStop]
    rfl
  refine ⟨by rw [h], by rw [h], ?_⟩
  unfold State.serTimeout
  rw [b_serOutcome _ _ _ _ _ (by decide)]
  exact b_cond _ _ _ _ _ (by decide) (by decide)

end

/-- Settles O25: the frame of either protocol ends as `FrameEnds` says with its own check, and a timeout by its own equation. -/
theorem serialFrameEndsInRecord : Obligations.SerialFrameEndsInRecord := by
  unfold Obligations.SerialFrameEndsInRecord
  rintro s u t n rfl hp hr
  refine ⟨?_, fun hs hd ready => ⟨_, exec_serTimeout hp hs hr hd, serTimeout_ends ready⟩⟩
  rintro raw check lineDly nE nW ready v rfl
  constructor
  · intro hs
    obtain ⟨hrun, hready, hcrc, hgood⟩ := serialEnd_biss raw check lineDly nE nW ready hs
    exact ⟨_, exec_serialFrameEnd hp hr, hrun, hready, fun h => hcrc (bne_iff_ne.mpr h), fun h => hgood (bne_eq_false_iff_eq.mpr h)⟩
  · intro hs
    obtain ⟨hrun, hready, hcrc, hgood⟩ := serialEnd_ssi raw check lineDly nE nW ready hs
    exact ⟨_, exec_serialFrameEnd hp hr, hrun, hready, hcrc, hgood⟩

end Sys2Proof.Machine
end

section
/-! PROOFS. O28. Clears of FAULT (R146), and parameter transactions at the agent (R147, R148). -/
namespace Sys2Proof.Machine

/-! ## Clearing a fault (R146) -/

/-- FAULT of a context and its mirror are cleared, and the context restarts at its next trigger. -/
def State.faultCleared (s : State) (c : Nat) : State := (s.setCtxFault c false).modCtx c fun x => { x with restart := true }

theorem exec_ctxFaultClear {s w : State} {t : Instant} {fn c : Nat} {data : Word}
    (h : (s.start t).actionWrite fn R.LOOP_CTX_STAT_FAULT data c = (w, true)) (hb : w.b R.LOOP_CTX_STAT_FAULT c = true)
    (hn : w.setNow R.LOOP_CTX_STAT_FAULT 0 c = false) (hc : (w.ctx c).cause ≠ 4) :
    exec (.ctxFaultClear t fn c data) s = .next (w.faultCleared c) := by
  show execCtxFaultClear t fn c data s = _
  unfold execCtxFaultClear
  rw [h]
  exact congrArg Host.Outcome.next (State.doIf_of (by rw [hb, hn, bne_iff_ne.mpr hc]; rfl))

/-- The mirror of FAULT in LOOP_FAULT lies in another word than LOOP_CTX_STAT. -/
theorem loopFault_key_ne (q : FRef) (c : Nat) (hb : q.base = 0x5000) (h1 : q.s1 = 4) (h2 : q.s2 = 0) :
    q.key c 0 ≠ R.LOOP_FAULT_FAULT.key (c / 32) 0 := by
  unfold FRef.key
  rw [hb, h1, h2]
  simp only [R.LOOP_FAULT_FAULT]
  omega

theorem b_setCtxFault (s : State) (c : Nat) (on : Bool) : (s.setCtxFault c on).b R.LOOP_CTX_STAT_FAULT c = on :=
  (b_of_f ((f_setBitF ..).trans (f_setF_key _ _ (loopFault_key_ne _ _ rfl rfl rfl)))).trans (b_setB_same _ _ _ _ _ (by decide))

theorem bitF_setCtxFault (s : State) (c : Nat) (on : Bool) : (s.setCtxFault c on).bitF R.LOOP_FAULT_FAULT (c % 32) (c / 32) = on := by
  refine (bitF_setBitF _ R.LOOP_FAULT_FAULT (c % 32) on (c / 32) 0 (c % 32) (by decide) (Nat.mod_lt c (show 0 < 32 by decide))).trans ?_
  rw [if_pos rfl]

theorem ctx_setCtxFault (s : State) (c : Nat) (on : Bool) (d : Nat) : (s.setCtxFault c on).ctx d = s.ctx d :=
  ctx_of_loop ((State.setBitF_loop ..).trans (State.setB_loop ..)) d

theorem faultCleared_spec (s : State) (c : Nat) :
    (s.faultCleared c).b R.LOOP_CTX_STAT_FAULT c = false ∧ (s.faultCleared c).bitF R.LOOP_FAULT_FAULT (c % 32) (c / 32) = false
      ∧ ((s.faultCleared c).ctx c).restart = true ∧ ∀ d, d ≠ c → (s.faultCleared c).ctx d = s.ctx d := by
  unfold State.faultCleared
  refine ⟨(b_modCtx ..).trans (b_setCtxFault ..), (bitF_modCtx ..).trans (bitF_setCtxFault ..), by rw [ctx_modCtx_same], fun d hd => ?_⟩
  rw [ctx_modCtx_other _ _ hd, ctx_setCtxFault]

/-! ## Parameter transactions (R147, R148) -/

/-- A context is given a transaction, which the agent forwards when it is the only one. -/
def State.giveTxn (s : State) (c : Nat) (t : Txn) : State := (s.modCtx c fun x => { x with txnQueue := x.txnQueue ++ [t] }).forwardTxn c

theorem ctx_sendCtx (s : State) (src : FlitSrc) (c : Nat) (p : Payload) (d : Nat) : (s.sendCtx src c p).ctx d = s.ctx d :=
  ctx_of_loop (tch_sendCtx.1 .loop (by decide)) d

theorem ctx_forwardTxn_other (s : State) {c d : Nat} (h : d ≠ c) : (s.forwardTxn c).ctx d = s.ctx d := by
  unfold State.forwardTxn
  dsimp only
  split
  · exact foldl_inv (P := fun x => x.ctx d = s.ctx d) _ _ (ctx_setCtx_other _ _ h) fun x _ hx => (ctx_sendCtx ..).trans hx
  · rfl

theorem ctx_forwardTxn_same {s : State} {c : Nat} {t : Txn} {q : List Txn} (hs : (s.ctx c).sent = none) (hq : (s.ctx c).txnQueue = t :: q) :
    (s.forwardTxn c).ctx c = { s.ctx c with sent := some t, txnQueue := q } := by
  unfold State.forwardTxn
  dsimp only
  rw [hs, hq]
  dsimp only
  exact foldl_inv (P := fun x => x.ctx c = { s.ctx c with sent := some t, txnQueue := q }) _ _ (ctx_setCtx_same ..)
    fun x _ hx => (ctx_sendCtx ..).trans hx

theorem ctx_giveTxn_other (s : State) {c d : Nat} (t : Txn) (h : d ≠ c) : (s.giveTxn c t).ctx d = s.ctx d :=
  (ctx_forwardTxn_other _ h).trans (ctx_modCtx_other _ _ h)

/-- With none under way and none waiting, a transaction goes on at once. -/
theorem ctx_giveTxn_idle {s : State} {c : Nat} (t : Txn) (hs : (s.ctx c).sent = none) (hq : (s.ctx c).txnQueue = []) :
    (s.giveTxn c t).ctx c = { s.ctx c with sent := some t } := by
  unfold State.giveTxn
  rw [ctx_forwardTxn_same (t := t) (q := []) (by rw [ctx_modCtx_same]; exact hs) (by rw [ctx_modCtx_same, hq]; rfl), ctx_modCtx_same, ← hq]

theorem loop_giveTxn (s : State) (c : Nat) (t : Txn) : (s.giveTxn c t).regs.loop = s.regs.loop :=
  (tch_forwardTxn.1 (.regs .loop) (by decide)).trans (tch_modCtx.1 (.regs .loop) (by decide))

theorem partner_of_loop {s s' : State} (h : s'.regs.loop = s.regs.loop) (c : Nat) : s'.partner c = s.partner c := by
  have word (k : Nat) : s'.word .loop k = s.word .loop k := congrArg (kget 0 · k) h
  have field (q : FRef) (hq : q.blk = .loop) : s'.f q c = s.f q c := by unfold State.f; rw [hq, word]
  unfold State.partner State.ctxKind State.b
  rw [field _ rfl, field _ rfl, field _ rfl]

/-- A transaction of a context is refused with a DETAIL. -/
def State.refuseTxn (s : State) (c tag d : Nat) : State := (s.post E.PARAM_REFUSED (subject c) (nw d)).agentReply c (some tag) 0x16 d s.shortTs

theorem refuseTxn_posts {s : State} (c tag d : Nat) (hr : s.room) : Posts s (s.refuseTxn c tag d) E.PARAM_REFUSED (subject c) (nw d) :=
  (State.post_sys _ _ _ _ _ hr).posts tch_agentReply.q

theorem refuseTxn_loop (s : State) (c tag d : Nat) : (s.refuseTxn c tag d).loop = s.loop :=
  (tch_agentReply.1 .loop (by decide)).trans (State.post_loop ..)

section
variable {s : State} {t : Instant} {c dom : Nat} {setp : Bool} {apply : Int} {tag : Nat} {words : List (Nat × Word)}
  (hon : (s.start t).ctxOn c = true)
include hon

theorem exec_paramTransaction_refused {d : Nat} (h : (s.start t).txnDetail c dom setp words = some d) :
    exec (.paramTransaction t c dom setp apply tag words) s = .next ((s.start t).refuseTxn c tag d) := by
  refine congrArg Host.Outcome.next ((State.doIf_of hon).trans ?_)
  rw [h]
  rfl

variable (h : (s.start t).txnDetail c dom setp words = none)
include h

theorem exec_paramTransaction_alone (hp : (s.start t).partner c = none) :
    exec (.paramTransaction t c dom setp apply tag words) s
      = .next ((s.start t).giveTxn c { apply := apply, words := words, tag := some tag }) := by
  have hp' := (partner_of_loop (loop_giveTxn (s.start t) c { apply := apply, words := words, tag := some tag }) c).trans hp
  refine congrArg Host.Outcome.next ((State.doIf_of hon).trans ?_)
  rw [h]
  unfold State.giveTxn at hp' ⊢
  dsimp only
  rw [hp']

theorem exec_paramTransaction_shared {p : Nat} (hp : (s.start t).partner c = some p) (hw : ((s.start t).ctx c).sharedWords words ≠ []) :
    exec (.paramTransaction t c dom setp apply tag words) s
      = .next (((s.start t).giveTxn c { apply := apply, words := words, tag := some tag }).giveTxn p
          { apply := apply, words := ((s.start t).ctx c).sharedWords words }) := by
  have hp' := (partner_of_loop (loop_giveTxn (s.start t) c { apply := apply, words := words, tag := some tag }) c).trans hp
  refine congrArg Host.Outcome.next ((State.doIf_of hon).trans ?_)
  rw [h]
  unfold State.giveTxn at hp' ⊢
  dsimp only
  rw [hp']
  exact State.doIf_of (by rw [List.isEmpty_eq_false_iff.mpr hw]; rfl)

end

/-- Settles O28: the clear by the two bits that show FAULT, a transaction by what the agent gives to each partner. -/
theorem parametersAndFaultClearReachContext : Obligations.ParametersAndFaultClearReachContext := by
  unfold Obligations.ParametersAndFaultClearReachContext
  constructor
  · intro s w t fn c data _ h hb hn hc
    exact ⟨_, exec_ctxFaultClear h hb hn hc, faultCleared_spec w c⟩
  · rintro s u t c dom setp apply tag words rfl hon
    refine ⟨fun d hd hr => ⟨_, exec_paramTransaction_refused hon hd, refuseTxn_posts c tag d hr, refuseTxn_loop ..⟩,
      fun hd hs hq hp => ⟨_, exec_paramTransaction_alone hon hd hp, ctx_giveTxn_idle _ hs hq, fun d hne => ctx_giveTxn_other _ _ hne, loop_giveTxn ..⟩,
      fun p hd hp hne hs hq hw => ⟨_, exec_paramTransaction_shared hon hd hp hw, ?_, (loop_giveTxn ..).trans (loop_giveTxn ..)⟩⟩
    have hctx := ctx_giveTxn_other (s.start t) { apply := apply, words := words, tag := some tag } hne
    rw [ctx_giveTxn_idle _ (by rw [hctx]; exact hs) (by rw [hctx]; exact hq)]

end Sys2Proof.Machine
end

section
/-! PROOFS. O29, O30. CMPW flits at PWM and AUX: those that are discarded (R133, R236), and the COMPARE flit that is accepted (R121, R125, R126). -/
namespace Sys2Proof.Machine

/-! ## CMPW flits that are discarded (R133, R236) -/

theorem exec_cmpwArrival {s : State} {t : Instant} {f : Flit} {w : Cmpw} (hs : (s.start t).sealed = true) (hp : f.payload = .cmpw w) :
    exec (.cmpwArrival t f) s = .next ((s.start t).cmpwArrive f.src w) := by
  refine congrArg Host.Outcome.next ((State.doIf_of hs).trans ?_)
  rw [hp]

section
variable {s : State} {src : FlitSrc} {w : Cmpw}

theorem cmpwArrive_noTarget (h : 28 ≤ w.target) : s.cmpwArrive src w = s.post E.CMPW_BAD (subject w.target) := by
  unfold State.cmpwArrive State.cmpwBad
  dsimp only
  rw [if_pos h, if_neg (Nat.not_lt.mpr h)]

theorem cmpwArrive_noOwner (hT : w.target < 28) (h : s.ownerIndex w.target w.ctx = none ∨ s.kernelOf src w.ctx = false) :
    s.cmpwArrive src w = s.post E.CMPW_NOT_OWNER (subject w.target) (nw w.ctx) := by
  unfold State.cmpwArrive
  dsimp only
  rw [if_neg (Nat.not_le.mpr hT)]
  split
  · rfl
  case h_2 own ho =>
    have hk : s.kernelOf src w.ctx = false := h.resolve_left (by rw [ho]; exact Option.some_ne_none own)
    rw [hk]
    rfl

variable {own : Nat} (hT : w.target < 28) (ho : s.ownerIndex w.target w.ctx = some own) (hk : s.kernelOf src w.ctx = true)
include hT ho hk

/-- A flit of an owner meets the three checks that follow: the active owner or TAKE, the form, and the acceptance. -/
theorem cmpwArrive_ofOwner : s.cmpwArrive src w =
    if own ≠ s.activeIndex w.target ∧ !w.take then s
    else if s.cmpwMalformed w then s.cmpwBad w.target
    else (s.doIf (w.take && w.target < 24) (·.setB R.PWM_SLOT_STAT_B_ACTIVE (own == 1) w.target)).acceptCmpw w own := by
  unfold State.cmpwArrive
  dsimp only
  rw [if_neg (Nat.not_le.mpr hT), ho, hk]
  rfl

theorem cmpwArrive_inactive (ha : own ≠ s.activeIndex w.target) (ht : w.take = false) : s.cmpwArrive src w = s := by
  rw [cmpwArrive_ofOwner hT ho hk, if_pos ⟨ha, by rw [ht]; rfl⟩]

theorem cmpwArrive_malformed (ha : own = s.activeIndex w.target) (hm : s.cmpwMalformed w = true) : s.cmpwArrive src w = s.cmpwBad w.target := by
  rw [cmpwArrive_ofOwner hT ho hk, if_neg fun h => h.1 ha, if_pos hm]

theorem cmpwArrive_accepted (ha : own = s.activeIndex w.target ∨ w.take = true) (hm : s.cmpwMalformed w = false) :
    s.cmpwArrive src w = (s.doIf (w.take && w.target < 24) (·.setB R.PWM_SLOT_STAT_B_ACTIVE (own == 1) w.target)).acceptCmpw w own := by
  rw [cmpwArrive_ofOwner hT ho hk, if_neg, if_neg (by rw [hm]; decide)]
  rintro ⟨hne, ht⟩
  rw [ha.resolve_left hne] at ht
  exact nomatch ht

end

/-- The status bit of a malformed flit, in the register of its target. -/
theorem cmpwBad_sets (s : State) {T : Nat} (hT : T < 28) :
    (s.cmpwBad T).pwm = s.pwm ∧ (T < 24 → (s.cmpwBad T).b R.PWM_SLOT_STAT_CMPW_BAD T = true)
      ∧ (24 ≤ T → (s.cmpwBad T).b R.AUX_BR_STAT_CMPW_BAD (T - 24) = true) := by
  unfold State.cmpwBad State.targetRaise
  rw [if_pos hT]
  by_cases h : T < 24
  · rw [if_pos h]
    exact ⟨State.raise_pwm .., fun _ => b_raise_same _ _ _ _ _ _ _ (by decide) (by decide), fun h' => absurd h (Nat.not_lt.mpr h')⟩
  · rw [if_neg h]
    exact ⟨State.raise_pwm .., fun h' => absurd h' h, fun _ => b_raise_same _ _ _ _ _ _ _ (by decide) (by decide)⟩

/-- Settles O29: each check of `State.cmpwArrive` in its order, and what it does with the flit. -/
theorem cmpwDiscardsKeepTheirOrder : Obligations.CmpwDiscardsKeepTheirOrder := by
  unfold Obligations.CmpwDiscardsKeepTheirOrder
  rintro s u t f w rfl hs hp
  refine ⟨fun hT hr => ⟨_, exec_cmpwArrival hs hp, ?_⟩, fun hT ho hr => ⟨_, exec_cmpwArrival hs hp, ?_⟩,
    fun own hT ho hk => ⟨fun ha ht => ⟨_, exec_cmpwArrival hs hp, cmpwArrive_inactive hT ho hk ha ht⟩,
      fun ha hm => ⟨_, exec_cmpwArrival hs hp, ?_⟩⟩⟩
  · rw [cmpwArrive_noTarget hT]
    exact ⟨State.post_pwm .., State.post_regs _ _ _ _ _ hr, State.post_sys _ _ _ _ _ hr⟩
  · rw [cmpwArrive_noOwner hT ho]
    exact ⟨State.post_pwm .., State.post_regs _ _ _ _ _ hr, State.post_sys _ _ _ _ _ hr⟩
  · rw [cmpwArrive_malformed hT ho hk ha hm]
    exact cmpwBad_sets _ hT

/-! ## Folds over a list with its indices -/

/-- A fold over a list with its indices, whose steps each change only what stands at their own index, leaves at an index what the step of that
index makes of what stood there. -/
theorem foldl_zipIdx_at {σ α β : Type} (φ : σ → Nat → β) (f : σ → α × Nat → σ) (hf : ∀ s a j n, n ≠ j → φ (f s (a, j)) n = φ s n)
    {l : List α} {n : Nat} {a : α} (h : l[n]? = some a) (k : Nat) (s : σ) :
    ∃ u, φ u (k + n) = φ s (k + n) ∧ φ ((l.zipIdx k).foldl f s) (k + n) = φ (f u (a, k + n)) (k + n) := by
  induction l generalizing n k s with
  | nil => exact nomatch h
  | cons b l ih =>
    rw [List.zipIdx_cons, List.foldl_cons]
    cases n with
    | zero =>
      rw [List.getElem?_cons_zero, Option.some_inj] at h
      subst h
      refine ⟨s, rfl, List.foldlRecOn _ f (motive := fun x => φ x (k + 0) = φ (f s (b, k + 0)) (k + 0)) rfl fun x hx y hy => ?_⟩
      obtain ⟨c, j⟩ := y
      have hj := List.le_snd_of_mem_zipIdx hy
      exact (hf x c j _ (by simp only at hj; omega)).trans hx
    | succ n =>
      rw [List.getElem?_cons_succ] at h
      obtain ⟨u, hu, hl⟩ := ih h (k + 1) (f s (b, k))
      rw [Nat.add_right_comm] at hu hl
      exact ⟨u, hu.trans (hf s b k _ (by omega)), hl⟩

/-! ## The COMPARE flit that is accepted (R121, R125, R126) -/

theorem chan_of_pwm {s s' : State} (h : s'.pwm = s.pwm) (k : Nat) : s'.chan k = s.chan k := by unfold State.chan; rw [h]

theorem chan_setCarrier (s : State) (T : Nat) (x : Carrier) (k : Nat) : (s.setCarrier T x).chan k = s.chan k := rfl

/-- The value of one place of a flit arrives, if the flit carries one. -/
def State.valueStep (w : Cmpw) (te issue : Nat) (s : State) (v : Option CmpVal × Nat) : State :=
  match v.1 with
  | some x => s.arriveValue w.target v.2 x te issue (v.2 % 2 == 1 && (w.vals.getD (v.2 - 1) none).isSome)
  | none => s

/-- The values of a flit arrive, and the flit counts as served at T_eff. -/
def State.valuesArrive (s : State) (w : Cmpw) (te issue : Nat) : State :=
  let s := w.vals.zipIdx.foldl (State.valueStep w te issue) s
  s.setCarrier w.target { s.carrier w.target with served := (s.carrier w.target).served ++ [(te, false)] }

/-- The owner that a TAKE names becomes the active one. -/
def State.takeOver (s : State) (w : Cmpw) (own : Nat) : State :=
  s.doIf (w.take && w.target < 24) (·.setB R.PWM_SLOT_STAT_B_ACTIVE (own == 1) w.target)

section
variable (s : State) {T i : Nat} (v : CmpVal) (te issue : Nat) (wh : Bool)

theorem chan_arriveValue_same :
    (s.arriveValue T i v te issue wh).chan (6 * T + i)
      = { (s.doIf ((s.chan (6 * T + i)).wait.isSome) (·.stamp T i 5 0)).chan (6 * T + i) with
          wait := some { val := v, teff := te, issue := issue, withHigh := wh } } := chan_setChan_same ..

theorem chan_stamp (c a k : Nat) : (s.stamp T i c a).chan k = s.chan k := chan_of_pwm (tch_stamp.1 .pwm (by decide)) k

theorem chan_arriveValue_other {k : Nat} (h : k ≠ 6 * T + i) : (s.arriveValue T i v te issue wh).chan k = s.chan k :=
  (chan_setChan_other _ _ h).trans (eq_doIf (fun x : State => x.chan k) (chan_stamp ..))

theorem f_arriveValue (hT : T < 28) (hi : i < 6) {q : FRef} {j k : Nat} (hq : Calm q j k) : (s.arriveValue T i v te issue wh).f q j k = s.f q j k :=
  eq_doIf (fun x : State => x.f q j k) ((calm_stamp 5 0 hT hi).fields q j k hq)

end

section
variable (s : State) (w : Cmpw)

theorem chan_valueStep_other (te issue : Nat) (v : Option CmpVal) (j n : Nat) (h : n ≠ j) :
    (s.valueStep w te issue (v, j)).chan (6 * w.target + n) = s.chan (6 * w.target + n) := by
  cases v with
  | none => rfl
  | some x => exact chan_arriveValue_other _ _ _ _ _ (by omega)

/-- The values that a flit carries wait for T_eff, and the other channels keep what they had. -/
theorem valuesArrive_chan (te issue i : Nat) :
    (∀ v, w.vals[i]? = some (some v) → ∃ x, ((s.valuesArrive w te issue).chan (6 * w.target + i)).wait = some x ∧ x.val = v ∧ x.teff = te)
      ∧ (w.vals[i]? = some none → (s.valuesArrive w te issue).chan (6 * w.target + i) = s.chan (6 * w.target + i)) := by
  have at_i {o : Option CmpVal} (h : w.vals[i]? = some o) :=
    foldl_zipIdx_at (fun x n => x.chan (6 * w.target + n)) (State.valueStep w te issue)
      (fun x => chan_valueStep_other x w te issue) h 0 s
  rw [Nat.zero_add] at at_i
  refine ⟨fun v h => ?_, fun h => ?_⟩
  · obtain ⟨u, -, hu⟩ := at_i h
    exact ⟨_, congrArg Chan.wait (hu.trans (chan_arriveValue_same ..)), rfl, rfl⟩
  · obtain ⟨u, hs, hu⟩ := at_i h
    exact hu.trans hs

theorem f_valuesArrive (te issue : Nat) (hT : w.target < 28) (hl : w.vals.length = 6) {q : FRef} {j k : Nat} (hq : Calm q j k) :
    (s.valuesArrive w te issue).f q j k = s.f q j k := by
  refine List.foldlRecOn (motive := fun x : State => x.f q j k = s.f q j k) _ (State.valueStep w te issue) rfl fun x hx v hv => ?_
  obtain ⟨o, i⟩ := v
  cases o with
  | none => exact hx
  | some y =>
    have hi := List.snd_lt_of_mem_zipIdx hv
    exact (f_arriveValue x y te issue _ hT (by simp only at hi; omega) hq).trans hx

end

/-- A flit is taken: TAKE is followed, and SEQ is checked and kept. -/
def State.flitTaken (s : State) (w : Cmpw) (own : Nat) : State := (s.takeOver w own).acceptSeq w own

section
variable (s : State) (w : Cmpw) (own : Nat)

theorem tch_flitTaken : Touches 549764300929 s (s.flitTaken w own) := by
  unfold State.flitTaken State.takeOver
  refine Touches.comp tch_acceptSeq (by decide) (Touches.doIf (Touches.refl _ _) fun _ h => ?_)
  exact Touches.comp tch_setB (by decide) h

theorem chan_targetRaise (T : Nat) (r ra : FRef) (e ea : Ev) (k : Nat) : (s.targetRaise T r ra e ea).chan k = s.chan k := by
  unfold State.targetRaise
  split <;> exact chan_of_pwm (State.raise_pwm ..) k

theorem chan_acceptSeq (k : Nat) : (s.acceptSeq w own).chan k = s.chan k := by
  unfold State.acceptSeq
  dsimp only
  split
  all_goals
    refine (chan_of_pwm (State.setF_pwm ..) k).trans ((chan_setCarrier ..).trans ?_)
    exact eq_doIf (fun x : State => x.chan k) (chan_targetRaise ..)

theorem chan_flitTaken (k : Nat) : (s.flitTaken w own).chan k = s.chan k :=
  (chan_acceptSeq ..).trans (eq_doIf (fun x : State => x.chan k) (chan_of_pwm (State.setB_pwm ..) k))

variable {s w}

theorem seq_flitTaken (hT : w.target < 24) (hq : w.seq < 256) : (s.flitTaken w own).f R.PWM_SLOT_UPD_SEQ w.target = w.seq := by
  unfold State.flitTaken State.acceptSeq
  dsimp only
  rw [if_pos hT, f_setF_same _ _ _ _ _ (by decide)]
  exact Nat.mod_eq_of_lt hq

theorem b_acceptSeq (hT : w.target < 24) : (s.acceptSeq w own).b R.PWM_SLOT_STAT_B_ACTIVE w.target = s.b R.PWM_SLOT_STAT_B_ACTIVE w.target := by
  unfold State.acceptSeq
  dsimp only
  rw [if_pos hT, b_setF_key _ _ (by simp only [FRef.key, R.PWM_SLOT_STAT_B_ACTIVE, R.PWM_SLOT_UPD_SEQ]; omega)]
  refine eq_doIf (fun x : State => x.b R.PWM_SLOT_STAT_B_ACTIVE w.target) ?_
  unfold State.targetRaise
  rw [if_pos hT, b_raise _ _ _ _ _ _ _ _ _ _ (by decide) (Or.inr (Or.inr (by decide)))]

theorem active_flitTaken (hT : w.target < 24) (ht : w.take = true) : (s.flitTaken w own).b R.PWM_SLOT_STAT_B_ACTIVE w.target = (own == 1) := by
  unfold State.flitTaken State.takeOver
  rw [b_acceptSeq own hT, State.doIf_of (by rw [ht, decide_eq_true hT]; rfl), b_setB_same _ _ _ _ _ (by decide)]

/-- Taking a flit leaves what T_eff is read from. -/
theorem times_flitTaken : (s.flitTaken w own).pwmTime = s.pwmTime ∧ (s.flitTaken w own).net = s.net ∧ (s.flitTaken w own).issueTick w = s.issueTick w
    ∧ (s.flitTaken w own).f R.LOOP_CTX_TIME_L_DLV w.ctx = s.f R.LOOP_CTX_TIME_L_DLV w.ctx := by
  have h := tch_flitTaken s w own
  have hnet : (s.flitTaken w own).net = s.net := h.1 .net (by decide)
  have hnow : (s.flitTaken w own).now = s.now := h.1 .now (by decide)
  have hclk : (s.flitTaken w own).clk = s.clk := h.1 .clk (by decide)
  have htime : (s.flitTaken w own).pwmTime = s.pwmTime := by unfold State.pwmTime; rw [hnow, hclk]
  refine ⟨htime, hnet, ?_, h.f _ _ _ (by decide)⟩
  unfold State.issueTick State.ntime
  rw [htime, hnet]

/-- A COMPARE flit in time: its values arrive, and nothing takes effect yet. -/
theorem acceptCmpw_inTime {te : Nat} (hc : w.carrier = false) (he : w.epoch = s.net.parity)
    (hte : s.issueTick w + (s.f R.LOOP_CTX_TIME_L_DLV w.ctx : Int) = (te : Int)) (hle : s.pwmTime ≤ te) :
    (s.takeOver w own).acceptCmpw w own = (s.flitTaken w own).valuesArrive w te (s.issueTick w).toNat := by
  obtain ⟨htime, hnet, hissue, hdlv⟩ := times_flitTaken (s := s) (w := w) own
  have hlate : (decide (((te : Int)) < (s.pwmTime : Int)) || w.epoch != s.net.parity) = false := by
    rw [he, bne_self_eq_false, Bool.or_false, decide_eq_false_iff_not]
    omega
  unfold State.acceptCmpw
  dsimp only
  rw [show (s.takeOver w own).acceptSeq w own = s.flitTaken w own from rfl, hissue, hdlv, hte, htime, hnet, hlate, hc]
  rfl

end

/-- Settles O30: the flit is taken, and its values arrive channel by channel; what keeps SEQ and the active owner is no field of theirs. -/
theorem acceptedCompareWaitsForItsInstant : Obligations.AcceptedCompareWaitsForItsInstant := by
  unfold Obligations.AcceptedCompareWaitsForItsInstant
  rintro s u t f w own rfl hs hp hT ho hk ha hm hc he hl hq te hte hle
  have hT28 : w.target < 28 := by omega
  have calm {q : FRef} (h : calmB q 24 = true) := calm_of h hT
  refine ⟨_, (exec_cmpwArrival hs hp).trans (congrArg Host.Outcome.next
    ((cmpwArrive_accepted hT28 ho hk ha hm).trans (acceptCmpw_inTime own hc he hte hle))), ?_, ?_, ?_, ?_⟩
  · rw [f_valuesArrive _ _ _ _ hT28 hl (calm (by decide)), seq_flitTaken own hT hq]
  · intro i
    exact (valuesArrive_chan _ w te _ i).1
  · intro i h
    rw [(valuesArrive_chan _ w te _ i).2 h, chan_flitTaken]
  · intro ht
    rw [b_of_f (f_valuesArrive _ _ _ _ hT28 hl (calm (by decide))), active_flitTaken own hT ht]

end Sys2Proof.Machine
end

section
/-! PROOFS. O27. Inputs that land (R117), the start of an evaluation (R112, R115, R116), and its end (R118, R144). -/
namespace Sys2Proof.Machine

/-! ## What leaves a context alone -/

/-- From `s` to `s'` a context and its STATE stay as they were. -/
structure CtxStays (c : Nat) (s s' : State) : Prop where
  ctx : s'.ctx c = s.ctx c
  state : s'.ctxState c = s.ctxState c

theorem CtxStays.refl (c : Nat) (s : State) : CtxStays c s s := ⟨rfl, rfl⟩

theorem CtxStays.then {c : Nat} {s u v : State} (h : CtxStays c s u) (h' : CtxStays c u v) : CtxStays c s v :=
  ⟨h'.ctx.trans h.ctx, h'.state.trans h.state⟩

theorem CtxStays.doIf {c : Nat} {s : State} {b : Bool} {g : State → State} (h : CtxStays c s (g s)) : CtxStays c s (s.doIf b g) := by
  cases b with
  | true => exact h
  | false => exact .refl c s

theorem CtxStays.foldl {α : Type} {c : Nat} {f : State → α → State} (hf : ∀ s x, CtxStays c s (f s x)) (l : List α) (s : State) :
    CtxStays c s (l.foldl f s) :=
  foldl_inv (P := CtxStays c s) l s (.refl c s) fun u x h => h.then (hf u x)

theorem CtxStays.touch {m c : Nat} {s s' : State} (h : Touches m s s') (hl : m.testBit 25 = false) (hr : m.testBit 6 = false) : CtxStays c s s' :=
  ⟨ctx_of_loop (h.1 .loop hl) c, h.f _ _ _ hr⟩

theorem ctxStays_loop (c : Nat) (s : State) (x : LoopSt) (h : x.ctx = s.loop.ctx) : CtxStays c s { s with loop := x } :=
  ⟨by unfold State.ctx; rw [h], f_upd_loop ..⟩

/-- A write of a field apart from STATE. -/
theorem ctxStays_setF (c : Nat) (s : State) (r : FRef) (v i j : Nat) (h : Apart R.LOOP_CTX_STAT_STATE r c 0 i j) : CtxStays c s (s.setF r v i j) :=
  ⟨ctx_of_loop (State.setF_loop ..) c, f_setF_apart _ _ _ _ _ _ h⟩

/-- LOOP_STAT, LOOP_MIG_STAT and LOOP_FAULT are other words than LOOP_CTX_STAT. -/
theorem apart_ctxState {r : FRef} (c : Nat) {i j : Nat} (h : r.key i j < 0x5000) : Apart R.LOOP_CTX_STAT_STATE r c 0 i j := by
  refine Or.inr (Or.inl ?_)
  simp only [FRef.key, R.LOOP_CTX_STAT_STATE] at h ⊢
  omega

theorem ctxStays_modCtx_other (s : State) {c d : Nat} (g : CtxSt → CtxSt) (h : c ≠ d) : CtxStays c s (s.modCtx d g) := ⟨ctx_modCtx_other _ _ h, rfl⟩

theorem ctxStays_post (c : Nat) (s : State) (e : Ev) (a : Nat) (w0 w1 : Word) : CtxStays c s (s.post e a w0 w1) :=
  .touch tch_post (by decide) (by decide)

/-! ## Migrations leave the contexts alone (R151 to R153) -/

theorem ctxStays_freeNext (c : Nat) (s : State) (a b : Nat) : CtxStays c s (s.freeNext a b) := by
  unfold State.freeNext
  split
  · exact ctxStays_loop _ _ _ rfl
  · exact .touch tch_endTest (by decide) (by decide)

theorem ctxStays_skipTest (c : Nat) (s : State) (k : Nat) : CtxStays c s (s.skipTest k) := .touch tch_skipTest (by decide) (by decide)

theorem ctxStays_setMoving (c : Nat) (s : State) (m : Option (Nat × Nat)) (n : Nat) : CtxStays c s (s.setMoving m n) := ⟨rfl, rfl⟩

theorem ctxStays_relMigEnd (c : Nat) (s : State) (ok : Bool) : CtxStays c s (s.relMigEnd ok) := by
  unfold State.relMigEnd
  split
  · exact .refl c s
  · split
    · split
      · exact (ctxStays_setMoving ..).then (.touch tch_beginTests (by decide) (by decide))
      · exact .touch tch_endTest (by decide) (by decide)
      · exact ctxStays_freeNext ..
    · split
      · exact (ctxStays_setMoving ..).then (ctxStays_freeNext ..)
      · exact ctxStays_skipTest ..

theorem ctxStays_beginMig (c : Nat) (s : State) (m : MigSt) : CtxStays c s (s.beginMig m) := by
  unfold State.beginMig
  dsimp only
  refine .then (.then (ctxStays_loop c s { s.loop with mig := some m } rfl) ?_) (ctxStays_post ..)
  refine .then ?_ (.foldl (fun _ _ => .touch tch_sendLoad (by decide) (by decide)) _ _)
  exact (((ctxStays_setF _ _ _ _ _ _ (apart_ctxState _ (by decide))).then (ctxStays_setF _ _ _ _ _ _ (apart_ctxState _ (by decide)))).then
    (ctxStays_setF _ _ _ _ _ _ (apart_ctxState _ (by decide)))).then (ctxStays_setF _ _ _ _ _ _ (apart_ctxState _ (by decide)))

theorem ctxStays_startWaiting (c : Nat) (s : State) (m : MigSt) : CtxStays c s (s.startWaiting m) := by
  unfold State.startWaiting
  split
  · split
    · exact ctxStays_relMigEnd ..
    · split
      · exact ctxStays_beginMig ..
      · exact ctxStays_skipTest ..
  · exact .refl c s

theorem ctxStays_nextMig (c : Nat) (s : State) (n : Nat) : CtxStays c s (s.nextMig n) := by
  induction n generalizing s with
  | zero => exact .refl c s
  | succ n ih =>
    unfold State.nextMig
    split
    case h_1 m ms _ _ => exact (ctxStays_loop c s { s.loop with migQueue := ms } rfl).then ((ctxStays_startWaiting c _ m).then (ih _))
    · exact .refl c s

theorem ctxStays_endMig (c : Nat) (s : State) (status : Nat) (info0 : Word) : CtxStays c s (s.endMig status info0) := by
  unfold State.endMig
  split
  · exact .refl c s
  · dsimp only
    refine .then (.then ?_ (.doIf (ctxStays_relMigEnd ..))) (ctxStays_nextMig ..)
    have hidle := (ctxStays_setF c s R.LOOP_MIG_STAT_PHASE 0 0 0 (apart_ctxState _ (by decide))).then
      (ctxStays_loop c _ { (s.setF R.LOOP_MIG_STAT_PHASE 0).loop with mig := none } rfl)
    split
    · exact hidle.then (.touch tch_reply (by decide) (by decide))
    · exact hidle

theorem ctxStays_abortMig (c : Nat) (s : State) : CtxStays c s s.abortMig := by
  unfold State.abortMig
  split
  · exact .refl c s
  · dsimp only
    refine .then (.then (.then ?_ (ctxStays_setF _ _ _ _ _ _ (apart_ctxState _ (by decide)))) (ctxStays_post ..)) (ctxStays_endMig ..)
    exact ⟨ctx_of_loop (State.send_loop ..) c, rfl⟩

theorem ctxStays_disturbMig (c : Nat) (s : State) (d : Nat) : CtxStays c s (s.disturbMig d) := by
  unfold State.disturbMig
  split
  · split
    · exact ctxStays_abortMig ..
    · exact .refl c s
  · exact .refl c s

theorem ctxStays_migSnap (c : Nat) (s : State) (d : Nat) : CtxStays c s (s.migSnap d) := by
  unfold State.migSnap
  split
  · split
    · exact .then (.touch tch_sendVector (by decide) (by decide)) (ctxStays_loop _ _ _ rfl)
    · exact .refl c s
  · exact .refl c s

/-! ## The start of an evaluation (R112, R115 to R117) -/

/-- The inputs that are missing when the evaluation of a context starts (R116). -/
def State.missing (s : State) (c : Nat) : List (InputDef × Nat) :=
  (s.ctx c).desc.inputs.zipIdx.filter fun d => !(isAct d.1) && !inputReady (s.ctx c).trigTs d.1 (kget {} (s.ctx c).inputs d.2)

/-- One input as the evaluation takes it: stale where it is missing. -/
def takeInput (ts : Word) (m : KMap InSt) (d : InputDef × Nat) : KMap InSt :=
  kset {} m d.2 { kget {} m d.2 with stale := !(isAct d.1) && !inputReady ts d.1 (kget {} m d.2), landed := false }

/-- The inputs as the evaluation takes them. -/
def CtxSt.takenInputs (x : CtxSt) : KMap InSt := x.desc.inputs.zipIdx.foldl (takeInput x.trigTs) x.inputs

/-- What the start of an evaluation sets in its context. -/
structure EvalStarted (s s' : State) (c : Nat) : Prop where
  phase : (s'.ctx c).phase = 3
  inputs : (s'.ctx c).inputs = (s.ctx c).takenInputs
  evalIn : (s'.ctx c).evalIn = (s.ctx c).takenInputs
  missed : s.missing c ≠ [] → (s'.ctx c).missRun = (s.ctx c).missRun + 1 ∧ s'.b R.LOOP_CTX_STAT_MISSED c = true

/-- MISSED of a context with its event. -/
def State.raiseMissed (s : State) (c : Nat) (on : Bool) : State := s.doIf on (·.raise R.LOOP_CTX_STAT_MISSED c E.INPUT_MISSING (subject c))

theorem startEval_eq (s : State) (c : Nat) : ∃ x, x.phase = 3 ∧ x.inputs = (s.ctx c).takenInputs ∧ x.evalIn = (s.ctx c).takenInputs
    ∧ x.missRun = (if (s.missing c).isEmpty then 0 else (s.ctx c).missRun + 1) ∧ s.startEval c = (s.setCtx c x).raiseMissed c (!(s.missing c).isEmpty) :=
  ⟨_, rfl, rfl, rfl, rfl, rfl⟩

theorem ctx_raiseMissed (s : State) (c : Nat) (on : Bool) (d : Nat) : (s.raiseMissed c on).ctx d = s.ctx d :=
  eq_doIf (fun x : State => x.ctx d) (ctx_of_loop (State.raise_loop ..) d)

theorem startEval_starts (s : State) (c : Nat) : EvalStarted s (s.startEval c) c := by
  obtain ⟨x, hphase, hinputs, hevalIn, hrun, heq⟩ := startEval_eq s c
  have hctx : (s.startEval c).ctx c = x := by rw [heq, ctx_raiseMissed, ctx_setCtx_same]
  refine ⟨by rw [hctx, hphase], by rw [hctx, hinputs], by rw [hctx, hevalIn], fun hm => ?_⟩
  have hne : (s.missing c).isEmpty = false := List.isEmpty_eq_false_iff.mpr hm
  rw [hctx, hrun, heq, hne]
  exact ⟨rfl, b_raise_same _ _ _ _ _ _ _ (by decide) (by decide)⟩

theorem ctxStays_startEval (s : State) {c d : Nat} (h : c ≠ d) : CtxStays c s (s.startEval d) := by
  obtain ⟨x, -, -, -, -, heq⟩ := startEval_eq s d
  rw [heq]
  refine ⟨by rw [ctx_raiseMissed, ctx_setCtx_other _ _ h], ?_⟩
  exact eq_doIf (fun u : State => u.ctxState c) (f_raise _ _ _ _ _ _ _ _ _ _ (by decide) (Or.inr (Or.inr (by decide))))

theorem kget_takeInput_other (ts : Word) (m : KMap InSt) (d : InputDef) (j n : Nat) (h : n ≠ j) :
    kget {} (takeInput ts m (d, j)) n = kget {} m n := kget_kset_other _ _ _ h

section
variable {s : State} {c n : Nat} {d : InputDef} (hd : (s.ctx c).desc.inputs[n]? = some d) (ha : isAct d = false)
  (hr : inputReady (s.ctx c).trigTs d (kget {} (s.ctx c).inputs n) = false)
include hd ha hr

theorem mem_missing : (d, n) ∈ s.missing c :=
  List.mem_filter.mpr ⟨List.mk_mem_zipIdx_iff_getElem?.mpr hd, by rw [ha, hr]; rfl⟩

/-- A missing input keeps its value, as stale (R116). -/
theorem takenInputs_missing :
    kget {} (s.ctx c).takenInputs n = { kget {} (s.ctx c).inputs n with stale := true, landed := false } := by
  obtain ⟨m, hm, hl⟩ := foldl_zipIdx_at (kget ({} : InSt)) (takeInput (s.ctx c).trigTs) (kget_takeInput_other _) hd 0 (s.ctx c).inputs
  rw [Nat.zero_add] at hm hl
  refine hl.trans ((kget_kset_same ..).trans ?_)
  rw [hm, ha, hr]
  rfl

end

theorem wakeEval_busy {s : State} {c : Nat} (h : s.kernelBusy c = true) : s.wakeEval c = s.modCtx c fun x => { x with phase := 2 } := if_pos h

theorem wakeEval_free {s : State} {c : Nat} (h : s.kernelBusy c = false) : s.wakeEval c = s.startEval c := if_neg (by rw [h]; decide)

theorem phase_wakeEval (s : State) (c : Nat) : ((s.wakeEval c).ctx c).phase = if s.kernelBusy c then 2 else 3 := by
  cases h : s.kernelBusy c with
  | true => rw [wakeEval_busy h, ctx_modCtx_same]; rfl
  | false => rw [wakeEval_free h, (startEval_starts s c).phase]; rfl

theorem exec_inputDeadline {s : State} {t : Instant} {c : Nat} (hon : (s.start t).ctxOn c = true) (hp : ((s.start t).ctx c).phase = 1)
    (ht : ((s.start t).ctx c).trig.getD 0 + (s.start t).f R.LOOP_CTX_TIME_T_IN c ≤ (s.start t).pwmTime) :
    exec (.inputDeadline t c) s = .next ((s.start t).wakeEval c) :=
  congrArg Host.Outcome.next (State.doIf_of (by rw [hon, hp, decide_eq_true ht]; rfl))

/-! ## Window results that land (R114, R117) -/

/-- What a flit brings to one input; a late due input is discarded. -/
def CtxSt.landInput (x : CtxSt) (c : Nat) (p : Payload) (m : KMap InSt) (d : InputDef × Nat) : KMap InSt :=
  match inputValue c d.1 p with
  | some (v, ts) =>
    if d.1.cls == 0 && (x.phase == 0 || x.phase == 3 || ts != x.trigTs) then m
    else kset {} m d.2 { v with ts := ts, landed := true, got := true }
  | none => m

/-- The inputs of a context once a flit has landed. -/
def CtxSt.landedInputs (x : CtxSt) (c : Nat) (p : Payload) : KMap InSt := x.desc.inputs.zipIdx.foldl (x.landInput c p) x.inputs

theorem landInputs_eq (s : State) (c : Nat) (p : Payload) :
    s.landInputs c p = s.setCtx c { s.ctx c with inputs := (s.ctx c).landedInputs c p } := rfl

theorem ctx_landInputs (s : State) (c : Nat) (p : Payload) : (s.landInputs c p).ctx c = { s.ctx c with inputs := (s.ctx c).landedInputs c p } := by
  rw [landInputs_eq, ctx_setCtx_same]

theorem kget_landInput_other (x : CtxSt) (c : Nat) (p : Payload) (m : KMap InSt) (d : InputDef) (j n : Nat) (h : n ≠ j) :
    kget {} (x.landInput c p m (d, j)) n = kget {} m n := by
  unfold CtxSt.landInput
  split
  · split
    · rfl
    · exact kget_kset_other _ _ _ h
  · rfl

theorem inputValue_winres {c : Nat} {d : InputDef} {a : WinItem} (ts : Word) (b : Option WinItem) (hk : d.kind = 1) (hs : d.src = a.acc) :
    inputValue c d (.winres ts a b) = some ({ sum := a.sum.toInt, cnt := a.cnt }, ts) := by
  unfold inputValue
  dsimp only
  rw [if_pos hk, if_pos hs.symm]

/-- A window result lands in an input of its accumulator, unless it is due and late. -/
theorem landedInputs_winres {x : CtxSt} {c n : Nat} {d : InputDef} {a : WinItem} {ts : Word} {b : Option WinItem}
    (hd : x.desc.inputs[n]? = some d) (hk : d.kind = 1) (hs : d.src = a.acc) :
    kget {} (x.landedInputs c (.winres ts a b)) n =
      if d.cls = 0 ∧ (x.phase = 0 ∨ x.phase = 3 ∨ ts ≠ x.trigTs) then kget {} x.inputs n
      else { sum := a.sum.toInt, cnt := a.cnt, ts := ts, landed := true, got := true } := by
  obtain ⟨m, hm, hl⟩ := foldl_zipIdx_at (kget ({} : InSt)) (x.landInput c (.winres ts a b)) (kget_landInput_other x c _) hd 0 x.inputs
  rw [Nat.zero_add] at hm hl
  have hlate : (d.cls == 0 && (x.phase == 0 || x.phase == 3 || ts != x.trigTs)) = decide (d.cls = 0 ∧ (x.phase = 0 ∨ x.phase = 3 ∨ ts ≠ x.trigTs)) := by
    rw [Bool.eq_iff_iff]
    simp only [Bool.and_eq_true, Bool.or_eq_true, beq_iff_eq, bne_iff_ne, decide_eq_true_eq, or_assoc]
  refine hl.trans ?_
  unfold CtxSt.landInput
  dsimp only
  rw [inputValue_winres ts b hk hs]
  dsimp only
  rw [hlate]
  by_cases h : d.cls = 0 ∧ (x.phase = 0 ∨ x.phase = 3 ∨ ts ≠ x.trigTs)
  · rw [if_pos h, if_pos (decide_eq_true h), hm]
  · rw [if_neg h, if_neg (by rw [decide_eq_false h]; decide), kget_kset_same]

theorem exec_inputArrival {s : State} {t : Instant} {c : Nat} {p : Payload} (hon : (s.start t).ctxOn c = true) :
    exec (.inputArrival t c p) s = .next ((s.start t).inputArrival c p) := congrArg Host.Outcome.next (State.doIf_of hon)

section
variable {s : State} {c : Nat} {ts : Word} {a : WinItem} {b : Option WinItem}

theorem inputArrival_winres : s.inputArrival c (.winres ts a b) =
    (s.landInputs c (.winres ts a b)).doIf ((s.ctx c).phase == 1 && (s.landInputs c (.winres ts a b)).allLanded c) (·.wakeEval c) := by
  have hphase : ((s.landInputs c (.winres ts a b)).ctx c).phase = (s.ctx c).phase := by rw [ctx_landInputs]
  rw [← hphase]
  rfl

/-- A context that does not wait for its inputs starts nothing. -/
theorem inputArrival_waits (hp : (s.ctx c).phase ≠ 1) : s.inputArrival c (.winres ts a b) = s.landInputs c (.winres ts a b) :=
  inputArrival_winres.trans (State.doIf_not (by rw [beq_false_of_ne hp, Bool.false_and]))

/-- The result that completes the inputs wakes the evaluation. -/
theorem inputArrival_completes (hp : (s.ctx c).phase = 1) (hall : (s.landInputs c (.winres ts a b)).allLanded c = true) :
    s.inputArrival c (.winres ts a b) = (s.landInputs c (.winres ts a b)).wakeEval c :=
  inputArrival_winres.trans (State.doIf_of (by rw [hp, hall]; rfl))

end

/-! ## Waiting evaluations (R112) -/

/-- The context that goes first is one that waits. -/
theorem nextWaiting_waits {s : State} {c d : Nat} (h : s.nextWaiting c = some d) : (s.ctx d).phase = 2 := by
  unfold State.nextWaiting at h
  refine List.foldlRecOn (motive := fun o : Option Nat => ∀ d, o = some d → (s.ctx d).phase = 2) _ _
    (fun _ h => absurd h.symm (Option.some_ne_none _)) (fun b hb e he d hd => ?_) d h
  have hwaits : (s.ctx e).phase = 2 := by
    have := (List.mem_filter.mp he).2
    simp only [Bool.and_eq_true, beq_iff_eq] at this
    exact this.1.1
  cases b with
  | none => exact Option.some.inj hd ▸ hwaits
  | some o =>
    dsimp only at hd
    split at hd
    · exact Option.some.inj hd ▸ hwaits
    · exact hb d hd

/-- The evaluations that take up freed kernels leave a context that does not wait. -/
theorem ctxStays_freeKernels {s : State} {c : Nat} (h : (s.ctx c).phase ≠ 2) (d : Nat) : CtxStays c s (s.freeKernels d) := by
  have go (n : Nat) (u : State) (hu : (u.ctx c).phase ≠ 2) : CtxStays c u (State.freeKernels.go d n u) := by
    induction n generalizing u with
    | zero => exact .refl c u
    | succ n ih =>
      unfold State.freeKernels.go
      split
      case h_1 e he =>
        have hstays := ctxStays_startEval u fun hce : c = e => hu (hce ▸ nextWaiting_waits he)
        exact hstays.then (ih _ (by rw [hstays.ctx]; exact hu))
      · exact .refl c u
  exact go 4 s h

/-! ## Faults (R144) -/

theorem ctxState_setCtxState (s : State) (c : Nat) {st : Nat} (h : st < 4) : (s.setCtxState c st).ctxState c = st := by
  have hset : (s.setF R.LOOP_CTX_STAT_STATE st c).ctxState c = st := (f_setF_same _ _ _ _ _ (by decide)).trans (Nat.mod_eq_of_lt h)
  unfold State.setCtxState
  refine Eq.trans ?_ hset
  exact ((ctxStays_setF _ _ _ _ _ _ (apart_ctxState _ (by decide))).then ((ctxStays_setF _ _ _ _ _ _ (apart_ctxState _ (by decide))).then
    (ctxStays_setF _ _ _ _ _ _ (Or.inl (by decide))))).state

/-- FAULT and its mirror are not STATE. -/
theorem ctxStays_setCtxFault (s : State) (c : Nat) (on : Bool) : CtxStays c s (s.setCtxFault c on) :=
  ⟨ctx_setCtxFault .., ((f_setBitF ..).trans (f_setF_key _ _ (loopFault_key_ne _ _ rfl rfl rfl))).trans
    (f_setB_bits _ _ _ _ _ _ (by decide))⟩

/-- CTX_FAULT of a context, where FAULT was not set before. -/
def State.postFault (s : State) (c cause : Nat) (was : Bool) : State := s.doIf (!was) (·.post E.CTX_FAULT (subject c) (nw cause))

theorem ctxStays_postFault (s : State) (c cause : Nat) (was : Bool) : CtxStays c s (s.postFault c cause was) := .doIf (ctxStays_post ..)

/-- A context that is faulted already takes the loss of its kernel as its cause. -/
def State.losesKernel (s : State) (c : Nat) : State := (s.setCtxFault c true).modCtx c fun x => { x with cause := 4, restart := false }

/-- A context is FAULTED and idle, with its cause. -/
def State.turnsFaulted (s : State) (c cause : Nat) : State :=
  let s := (s.setCtxFault c true).setCtxState c stFaulted
  s.modCtx c fun x => { x with
    phase := 0, cause := cause, faultDue := 0, missRun := 0, ovrRun := 0, restart := false
    stopped := cause == 3 || s.f R.LOOP_CTX_FLT_ACTION c == 1 }

theorem ctxFault_eq (s : State) (c cause : Nat) :
    s.ctxFault c cause =
      if s.ctxState c = stFaulted then s.doIf (cause == 4) fun s' => (s'.losesKernel c).postFault c 4 (s.b R.LOOP_CTX_STAT_FAULT c)
      else (((s.turnsFaulted c cause).postFault c cause (s.b R.LOOP_CTX_STAT_FAULT c)).freeKernels c).disturbMig c := rfl

theorem losesKernel_spec (s : State) (c : Nat) :
    (s.losesKernel c).ctxState c = s.ctxState c ∧ ((s.losesKernel c).ctx c).phase = (s.ctx c).phase := by
  have h := ctxStays_setCtxFault s c true
  unfold State.losesKernel
  exact ⟨(f_modCtx ..).trans h.state, by rw [ctx_modCtx_same, h.ctx]⟩

theorem turnsFaulted_spec (s : State) (c cause : Nat) :
    (s.turnsFaulted c cause).ctxState c = stFaulted ∧ ((s.turnsFaulted c cause).ctx c).phase = 0 := by
  unfold State.turnsFaulted
  exact ⟨(f_modCtx ..).trans (ctxState_setCtxState _ _ (by decide)), by rw [ctx_modCtx_same]⟩

/-- A context that faults is FAULTED, and an idle one stays idle. -/
theorem ctxFault_faults (s : State) (c cause : Nat) :
    (s.ctxFault c cause).ctxState c = stFaulted ∧ ((s.ctx c).phase = 0 → ((s.ctxFault c cause).ctx c).phase = 0) := by
  rw [ctxFault_eq]
  by_cases hf : s.ctxState c = stFaulted
  · rw [if_pos hf]
    cases cause == 4 with
    | false => exact ⟨hf, id⟩
    | true =>
      obtain ⟨hstate, hphase⟩ := losesKernel_spec s c
      have hpost := ctxStays_postFault (s.losesKernel c) c 4 (s.b R.LOOP_CTX_STAT_FAULT c)
      rw [State.doIf_true]
      exact ⟨hpost.state.trans (hstate.trans hf), fun hp => by rw [hpost.ctx, hphase, hp]⟩
  · rw [if_neg hf]
    obtain ⟨hstate, hphase⟩ := turnsFaulted_spec s c cause
    have hpost := ctxStays_postFault (s.turnsFaulted c cause) c cause (s.b R.LOOP_CTX_STAT_FAULT c)
    have hstays := hpost.then ((ctxStays_freeKernels (by rw [hpost.ctx, hphase]; decide) c).then (ctxStays_disturbMig c _ c))
    exact ⟨hstays.state.trans hstate, fun _ => by rw [hstays.ctx, hphase]⟩

/-! ## The end of an evaluation (R118, R144) -/

/-- A context has faulted, or none of its states is a NaN. -/
def State.endsWhole (s : State) (c : Nat) : Prop := s.ctxState c = stFaulted ∨ ∀ x ∈ (s.ctx c).states, x.isNan = false

theorem CtxStays.endsWhole {c : Nat} {s s' : State} (h : CtxStays c s s') (hs : s.endsWhole c) : s'.endsWhole c := by
  unfold State.endsWhole
  rw [h.state, h.ctx]
  exact hs

/-- A NaN among the states faults the context once its flits have gone out. -/
theorem evalOut_endsWhole (s : State) (c st : Nat) (y : List Num) (l : LawOut) : (s.evalOut c st y l).endsWhole c := by
  unfold State.evalOut
  extract_lets u v
  cases hn : (v.ctx c).states.any (·.isNan) with
  | true => exact Or.inl (ctxFault_faults ..).1
  | false => exact Or.inr fun x hx => by simpa using List.any_eq_false.mp hn x hx

/-- The end of an evaluation leaves its context idle, and whole where it was. -/
theorem evalEnd_idle {s : State} {c : Nat} (h : s.endsWhole c) : ((s.evalEnd c).ctx c).phase = 0 ∧ (s.evalEnd c).endsWhole c := by
  unfold State.evalEnd
  generalize hx : s.modCtx c _ = u
  have hidle : (u.ctx c).phase = 0 := by rw [← hx, ctx_modCtx_same]
  have hwhole : u.endsWhole c := by
    rw [← hx]
    unfold State.endsWhole
    rw [ctx_modCtx_same]
    exact h
  have hfree := ctxStays_freeKernels (show (u.ctx c).phase ≠ 2 by rw [hidle]; decide) c
  have hidle' : ((u.freeKernels c).ctx c).phase = 0 := by rw [hfree.ctx, hidle]
  have hsnap (v : State) := ctxStays_migSnap c v c
  rw [(hsnap _).ctx]
  unfold State.dueFault
  cases ((u.freeKernels c).ctx c).faultDue != 0 with
  | false => exact ⟨hidle', (hsnap _).endsWhole (hfree.endsWhole hwhole)⟩
  | true =>
    obtain ⟨hf, hp⟩ := ctxFault_faults (u.freeKernels c) c ((u.freeKernels c).ctx c).faultDue
    exact ⟨hp hidle', (hsnap _).endsWhole (Or.inl hf)⟩

theorem exec_evaluation {s : State} {t : Instant} {c : Nat} {law : LawOut} (hon : (s.start t).ctxOn c = true)
    (hp : ((s.start t).ctx c).phase = 3) : exec (.evaluation t c law) s = .next ((s.start t).evaluate c law) :=
  congrArg Host.Outcome.next (State.doIf_of (by rw [hon, hp]; rfl))

/-- Settles O27: the landing input by input, the start by what `State.startEval` sets, and the end by the last steps of `State.evaluate`. -/
theorem inputsStartEvaluationsThatEndWhole : Obligations.InputsStartEvaluationsThatEndWhole := by
  unfold Obligations.InputsStartEvaluationsThatEndWhole
  constructor
  · rintro s u t c rfl hon
    refine ⟨fun n d a ts hd hk hsrc hp => ⟨_, (exec_inputArrival hon).trans (congrArg _ (inputArrival_waits hp)), ?_⟩,
      fun a ts hp hall => ⟨_, (exec_inputArrival hon).trans (congrArg _ (inputArrival_completes hp hall)), phase_wakeEval ..⟩,
      fun hp ht => ⟨fun hb => ⟨_, exec_inputDeadline hon hp ht, ?_⟩, fun hb => ⟨_, exec_inputDeadline hon hp ht, ?_⟩⟩⟩
    · dsimp only
      rw [ctx_landInputs]
      exact ⟨landedInputs_winres hd hk hsrc, rfl, rfl, rfl⟩
    · exact ⟨by rw [phase_wakeEval, hb]; rfl, by rw [wakeEval_busy hb]; rfl⟩
    · rw [wakeEval_free hb]
      obtain ⟨hphase, hinputs, hevalIn, hmissed⟩ := startEval_starts (s.start t) c
      refine ⟨hphase, fun n d hd ha hr => ?_⟩
      obtain ⟨hrun, hbit⟩ := hmissed (List.ne_nil_of_mem (mem_missing hd ha hr))
      rw [hinputs, hevalIn]
      exact ⟨takenInputs_missing hd ha hr, rfl, hbit, hrun⟩
  · rintro s u t c law rfl hon hp
    exact ⟨_, exec_evaluation hon hp, evalEnd_idle (evalOut_endsWhole ..)⟩

end Sys2Proof.Machine
end

section
/-! PROOFS. O32, O34. The timed ends of the drive states COAST_WAIT, ACQUIRE and DISCHARGE (R169, R175, R176, R190); and block commutation of
the AUX bridges: ALIGN, commutations, crossings, failures and retries (R179 to R183). -/
namespace Sys2Proof.Machine

/-! ## Timed ends of drive states -/

theorem exec_coastTimeout {s : State} {t : Instant} {c : Nat} (hon : (s.start t).ctxOn c = true) (hst : ((s.start t).drv c).st = dCoastWait)
    (hover : spanOf ((s.start t).pv c 19) ≤ (s.start t).drvSince c) :
    exec (.coastTimeout t c) s = .next (((s.start t).post E.START_FAILED (subject c) (nw 1)).drvEnter c dOff) :=
  congrArg Host.Outcome.next (State.doIf_of (by rw [hon, hst, decide_eq_true hover]; rfl))

theorem exec_dischTimeout {s : State} {t : Instant} {c : Nat} (hon : (s.start t).ctxOn c = true) (hst : ((s.start t).drv c).st = dDischarge)
    (hover : spanOf ((s.start t).pv c 28) ≤ (s.start t).drvSince c) :
    exec (.dischTimeout t c) s = .next (((s.start t).post E.DISCH_TIMEOUT (subject c)).drvEnter c dOff) :=
  congrArg Host.Outcome.next (State.doIf_of (by rw [hon, hst, decide_eq_true hover]; rfl))

/-- The drive whose zero-voltage pulse T_REACQ cuts estimates anew once ASC has settled (R175). -/
def State.cutPulse (s : State) (c : Nat) : State :=
  s.modDrv c fun v => if (s.drv c).pulse != 0 then { v with args := [], settleEnd := s.now + spanOf (s.pv c 22) } else v

theorem cutPulse_only (s : State) (c : Nat) : Only c s (s.cutPulse c) := by
  unfold State.cutPulse State.modDrv
  exact Only.modCtx ..

theorem exec_ascHold {s : State} {t : Instant} {c : Nat} (hon : (s.start t).ctxOn c = true) (hst : ((s.start t).drv c).st = dAcquire)
    (hover : spanOf ((s.start t).pv c 25) ≤ (s.start t).drvSince c) :
    exec (.ascHold t c) s = .next ((((s.start t).cutPulse c).post E.ASC_HOLD (subject c)).drvEnter c dAscHold) :=
  congrArg Host.Outcome.next (State.doIf_of (by rw [hon, hst, decide_eq_true hover]; rfl))

/-- Settles O32: each timer posts its event and enters its state; the cut of a pulse before that changes the context alone. -/
theorem driveTimersEnterTheirState : Obligations.DriveTimersEnterTheirState := by
  unfold Obligations.DriveTimersEnterTheirState
  rintro s u t c rfl hon hroom
  refine ⟨fun hst hover => ⟨_, exec_coastTimeout hon hst hover, enter_facts _ _ _ _ _ hroom⟩, fun hst hover => ?_,
    fun hst hover => ⟨_, exec_dischTimeout hon hst hover, enter_facts _ _ _ _ _ hroom⟩⟩
  obtain ⟨hstate, hentered, hposts, hctx, hword⟩ := enter_facts ((s.start t).cutPulse c) c dAscHold E.ASC_HOLD 0 hroom
  have hcut := cutPulse_only (s.start t) c
  exact ⟨_, exec_ascHold hon hst hover, hstate, hentered, hposts, fun d hd => (hctx d hd).trans (hcut.ctx d hd),
    fun b k hb => (hword b k hb).trans (hcut.word b k hb)⟩

/-! ## The commands of block commutation -/

section Bridge
variable {s : State} {t : Instant} {x : Nat} (hon : (s.start t).bcOn x = true)
include hon

theorem exec_alignEnd (hp : (s.start t).bcPhase x = bcAlign)
    (hover : ((s.start t).bc x).phaseAt + (s.start t).f R.AUX_BC_START_T_ALIGN x * 10 * msQ ≤ (s.start t).now) :
    exec (.alignEnd t x) s
      = .next (((s.start t).setBc x { (s.start t).bc x with step := (s.start t).bcNext x }).bcRampStart x) :=
  congrArg Host.Outcome.next (State.doIf_of (by rw [hon, hp, decide_eq_true hover]; rfl))

theorem exec_commutation (hdue : (s.start t).bcPhase x = bcClosed ∧ (∃ d, ((s.start t).bc x).due = some d ∧ d ≤ (s.start t).now)
      ∨ (s.start t).bcPhase x = bcRamp ∧ (s.start t).rampDue x = true) :
    exec (.commutation t x) s = .next ((s.start t).bcCommutate x) := by
  refine congrArg Host.Outcome.next (State.doIf_of ?_)
  rcases hdue with ⟨hp, d, hd, hle⟩ | ⟨hp, hr⟩
  · rw [hon, hp, hd, Option.any_some, decide_eq_true hle]
    rfl
  · rw [hon, hp, hr]
    rfl

theorem exec_zeroCross {samples : List (Instant × Bool)} (hp : (s.start t).bcPhase x = bcRamp ∨ (s.start t).bcPhase x = bcClosed)
    (hc : ((s.start t).bc x).crossed = false) (hok : (s.start t).samplesOk x ((s.start t).bc x).commAt samples = true)
    (hacc : (s.start t).crossAccepted x samples = true) : exec (.zeroCross t x samples) s = .next ((s.start t).zeroCross x) := by
  refine congrArg Host.Outcome.next (State.doIf_of ?_)
  rw [hon, hc, hok, hacc]
  rcases hp with hp | hp <;> rw [hp] <;> rfl

theorem exec_rampEnd (hp : (s.start t).bcPhase x = bcRamp)
    (hover : ((s.start t).bc x).phaseAt + (s.start t).f R.AUX_BC_START_T_RAMP x * 10 * msQ ≤ (s.start t).now) :
    exec (.rampEnd t x) s = .next ((s.start t).bcFail x) :=
  congrArg Host.Outcome.next (State.doIf_of (by rw [hon, hp, decide_eq_true hover]; rfl))

theorem exec_bcStall (hp : (s.start t).bcPhase x = bcClosed) (hc : ((s.start t).bc x).crossed = false)
    (hover : ((s.start t).bc x).commAt + 2 * ((s.start t).bc x).interval.getD 0 ≤ (s.start t).now) :
    exec (.bcStall t x) s = .next (((s.start t).raise R.AUX_BC_STAT_STALL x E.BC_STALL (subject x)).bcFail x) :=
  congrArg Host.Outcome.next (State.doIf_of (by rw [hon, hp, hc, decide_eq_true hover]; rfl))

theorem exec_bcRetry {r : Nat} (hp : (s.start t).bcPhase x = bcStopped) (hr : ((s.start t).bc x).retryAt = some r)
    (hover : r ≤ (s.start t).now) :
    exec (.bcRetry t x) s = .next (((s.start t).setBc x { (s.start t).bc x with retryAt := none }).tokenRequest (512 + x)) :=
  congrArg Host.Outcome.next (State.doIf_of (by rw [hon, hp, hr, Option.any_some, decide_eq_true hover]; rfl))

end Bridge

/-! ## Crossings, failures and retries -/

/-- Samples that end in ZC_FILT + 1 on the new side, past the blanking, accept a crossing (R180). -/
theorem crossAccepted_of_tail {u : State} {x : Nat} {old new : List (Instant × Bool)} (hlen : new.length = u.f R.AUX_BC_CFG_ZC_FILT x + 1)
    (hlast : (new.getLast?).map (·.1) = some u.now) (hnew : ∀ a ∈ new, u.blankEnd x ≤ a.1 ∧ a.2 = u.expectSide x) :
    u.crossAccepted x (old ++ new) = true := by
  have hpast : new.filter (fun a => decide (u.blankEnd x ≤ a.1)) = new := List.filter_eq_self.mpr fun a ha => decide_eq_true (hnew a ha).1
  have hside : ∀ a ∈ new.reverse, (a.2 == u.expectSide x) = true := fun a ha => beq_iff_eq.mpr (hnew a (List.mem_reverse.mp ha)).2
  have hend : ((old ++ new).getLast?).any (fun a => a.1 == u.now) = true := by
    obtain ⟨a, ha, hnow⟩ := Option.map_eq_some_iff.mp hlast
    rw [List.getLast?_append, ha, Option.some_or, Option.any_some]
    exact beq_iff_eq.mpr hnow
  unfold State.crossAccepted
  dsimp only
  rw [List.filter_append, hpast, List.reverse_append, List.takeWhile_append_of_pos hside, hend, Bool.and_true, List.length_append,
    List.length_reverse, hlen]
  exact decide_eq_true (Nat.le_add_right ..)

/-- A stall stays shown when the bridge stops (R183). -/
theorem bcFail_stall (s : State) {x : Nat} (hx : x < 4) : (s.bcFail x).b R.AUX_BC_STAT_STALL x = s.b R.AUX_BC_STAT_STALL x := by
  refine b_of_f ((?_ : _ = (s.bcOff x).f R.AUX_BC_STAT_STALL x).trans (bcOff_f s x hx _ (Or.inl rfl)))
  unfold State.bcFail
  dsimp only
  split
  · rw [f_setBc, f_setF_bits _ _ _ _ _ _ (by decide)]
  · rw [f_setBc, f_raise _ _ _ _ _ _ _ _ _ _ (by decide) (Or.inr (Or.inr (by decide)))]

/-- From `u` to `s'` an attempt of bridge `x` fails: the bridge stops for RETRIES + 1 s, or for good after N_RETRY (R183). -/
def BridgeFails (x : Nat) (u s' : State) : Prop :=
  s'.bcPhase x = bcStopped
    ∧ if u.f R.AUX_BC_STAT_RETRIES x < u.f R.AUX_BC_RUN_N_RETRY x then
        s'.f R.AUX_BC_STAT_RETRIES x = u.f R.AUX_BC_STAT_RETRIES x + 1 ∧ (s'.bc x).retryAt = some (u.now + (u.f R.AUX_BC_STAT_RETRIES x + 1) * secQ)
      else s'.b R.AUX_BC_STAT_START_FAIL x = true ∧ (s'.bc x).barred = true

theorem bridgeFails_bcFail (u : State) {x : Nat} (hx : x < 4) : BridgeFails x u (u.bcFail x) := ⟨bcFail_phase _ _ hx, bcFail_rest _ _ hx⟩

/-- A stall counts from the retries there were before it. -/
theorem bridgeFails_stall (u : State) {x : Nat} (hx : x < 4) :
    BridgeFails x u ((u.raise R.AUX_BC_STAT_STALL x E.BC_STALL (subject x)).bcFail x) := by
  have hfails := bridgeFails_bcFail (u.raise R.AUX_BC_STAT_STALL x E.BC_STALL (subject x)) hx
  have hmost : R.AUX_BC_RUN_N_RETRY.key x 0 ≠ R.AUX_BC_STAT_STALL.key x 0 := by
    simp only [FRef.key, R.AUX_BC_RUN_N_RETRY, R.AUX_BC_STAT_STALL]; omega
  unfold BridgeFails at hfails ⊢
  rwa [f_raise _ _ R.AUX_BC_STAT_RETRIES _ _ _ _ _ _ _ (by decide) (Or.inr (Or.inr (by decide))),
    f_raise _ _ R.AUX_BC_RUN_N_RETRY _ _ _ _ _ _ _ (by decide) (Or.inr (Or.inl hmost)), State.raise_now] at hfails

/-- While the bucket is shut a request waits, or one of the requester waits already (R498). -/
theorem tokenRequest_shut {s : State} (req : Nat) (hen : s.b R.PWR_TOK_CFG_EN = true) (hopen : s.b R.PWR_TOK_STAT_OPEN = false) :
    (∀ x, (s.tokenRequest req).bc x = s.bc x) ∧ ∃ p ∈ (s.tokenRequest req).pwr.tokens, p.2 = req := by
  unfold State.tokenRequest
  split
  case isTrue hany =>
    obtain ⟨p, hp, hreq⟩ := List.any_eq_true.mp hany
    exact ⟨fun _ => rfl, p, hp, beq_iff_eq.mp hreq⟩
  case isFalse =>
    obtain ⟨hen', hopen', hpwm, htok⟩ := setTokens_b s (putToken (s.pwmTime, req) s.pwr.tokens)
    rw [grantDue_shut _ (hen'.trans hen) (hopen'.trans hopen), htok]
    exact ⟨fun x => by unfold State.bc; rw [hpwm], _, putToken_mem .., rfl⟩

/-- Settles O34: a bridge's commands one by one, each by what its operation sets; a crossing by the samples at the end of its step. -/
theorem bridgeRunsSixSteps : Obligations.BridgeRunsSixSteps := by
  unfold Obligations.BridgeRunsSixSteps
  rintro s u t x rfl hon
  have hx := bcOn_lt hon
  refine ⟨fun hp hover => ⟨_, exec_alignEnd hon hp hover, ?_⟩, fun hdue => ⟨_, exec_commutation hon hdue, ?_⟩,
    fun hp hc old new hok hlen hlast hnew =>
      ⟨_, exec_zeroCross hon hp hc hok (crossAccepted_of_tail hlen hlast hnew), zc _ _ hx hp⟩,
    fun hp hover => ⟨_, exec_rampEnd hon hp hover, bridgeFails_bcFail _ hx⟩,
    fun hp hc hover => ⟨_, exec_bcStall hon hp hc hover, bridgeFails_stall _ hx, ?_⟩, ?_⟩
  · obtain ⟨hphase, hbc⟩ := rampStart ((s.start t).setBc x { (s.start t).bc x with step := (s.start t).bcNext x }) x hx
    rw [bc_setBc_same] at hbc
    exact ⟨hphase, by rw [hbc], by rw [hbc], by rw [hbc]; rfl⟩
  · obtain ⟨hphase, hbc⟩ := commut (s.start t) x hx
    exact ⟨by rw [hbc], by rw [hbc], by rw [hbc], by rw [hbc], hphase⟩
  · rw [bcFail_stall _ hx]
    exact b_raise_same _ _ _ _ _ _ _ (by decide) (by decide)
  · rintro hp ⟨r, hr, hover⟩ hen hopen
    obtain ⟨hbc, hwaits⟩ := tokenRequest_shut (s := (s.start t).setBc x { (s.start t).bc x with retryAt := none }) (512 + x) hen hopen
    exact ⟨_, exec_bcRetry hon hp hr hover, congrArg BcSt.retryAt ((hbc x).trans (bc_setBc_same ..)), hwaits⟩

end Sys2Proof.Machine
end

section
/-! PROOFS. O35. The command input: its filter, and the codes of its four modes in their accumulator (R185 to R187). -/
namespace Sys2Proof.Machine

/-! ## What start tokens and duties of the bridges leave alone -/

theorem k2_grantContext (s : State) (c : Nat) : K2 s (s.grantContext c) := K2.touch tch_grantContext (by decide) tch_grantContext.q

theorem k2_grant (s : State) (req : Nat) : K2 s (s.grant req) := by
  have hcount : K2 s (((s.incF R.PWR_TOK_STAT_GRANTS).setF R.PWR_TOK_LAST_REQ req).post E.TOKEN_GRANTED (subject req)) :=
    ((K2.touch tch_incF (by decide) tch_incF.q).trans (K2.touch tch_setF (by decide) tch_setF.q)).trans (k2_post ..)
  unfold State.grant
  dsimp only
  split
  · exact hcount.trans (k2_grantContext ..)
  · by_cases hreq : req < 516
    · exact hcount.doIf (k2_bcStart (by omega))
    · rw [decide_eq_false hreq]
      exact hcount

theorem k2_grantDue (s : State) : K2 s s.grantDue := by
  have go (n : Nat) (u : State) : K2 u (State.grantDue.go n u) := by
    induction n generalizing u with
    | zero => exact K2.refl u
    | succ n ih =>
      unfold State.grantDue.go
      split
      case h_1 n' _ r q hn _ =>
        cases hn
        have htake := k2_setTokens u q
        dsimp only
        split
        · exact htake.trans ((k2_grant ..).trans (ih _))
        · split
          · exact htake.trans ((K2.touch tch_setF (by decide) tch_setF.q).trans ((k2_grant ..).trans (ih _)))
          · exact K2.refl u
      · exact K2.refl u
  exact go 516 s

theorem k2_tokenRequest (s : State) (req : Nat) : K2 s (s.tokenRequest req) := by
  unfold State.tokenRequest
  split
  · exact K2.refl s
  · exact (k2_setTokens ..).trans (k2_grantDue _)

theorem k2_tokenWithdraw (s : State) (req : Nat) : K2 s (s.tokenWithdraw req) := by
  unfold State.tokenWithdraw
  split
  · exact ((k2_setTokens ..).trans (k2_post ..)).trans (k2_grantDue _)
  · exact K2.refl s

theorem k2_bcDemand {s : State} {x : Nat} {d : Rat} {issue : Option Nat} (hx : x < 4) : K2 s (s.bcDemand x d issue) := by
  unfold State.bcDemand
  dsimp only
  have hset : K2 s (s.setBc x { s.bc x with duty := d }) := K2.setBc ..
  generalize s.setBc x { s.bc x with duty := d } = u at hset ⊢
  refine hset.trans ?_
  split
  · exact (((k2_tokenWithdraw ..).trans (k2_statF _ _ _ _ (Or.inr rfl))).trans (K2.setBc ..)).doIf (k2_bcOff hx)
  · split
    · exact (K2.refl _).doIf (k2_tokenRequest ..)
    · exact (K2.refl _).doIf (K2.keeps (keeps_bcApply hx))

/-- A window of the command input gives duties to the bridges; the command input itself stays (R184). -/
theorem k2_bcSync (s : State) : K2 s s.bcSync := by
  unfold State.bcSync
  dsimp only
  split
  · exact K2.refl s
  · exact (K2.refl s).foldl fun u x hx => (K2.refl u).doIf (k2_bcDemand (by simp at hx; omega))

theorem k2_settle (s : State) : K2 s s.settle := K2.keeps calm_settle.k

/-! ## A code of the command input in its accumulator -/

/-- The record of an accumulator with one more conversion of weight +1 (R64). -/
def AccSt.plus (x : AccSt) (code : Nat) : AccSt := { x with sum := x.sum + code, cnt := x.cnt + 1, rail := x.rail || isRail code }

theorem accAdd_open {s : State} {a : Nat} (code : Nat) (he : s.b R.MEAS_ACC_CFG_EN a = true) (hm : s.b R.MEAS_ACC_CFG_MODE a = false)
    (hc : (s.acc a).cnt + 1 < 16777215) : s.accAdd a code = s.setAcc a ((s.acc a).plus code) := by
  unfold State.accAdd
  rw [if_pos he, hm]
  exact State.doIf_not (by simpa using Nat.ne_of_lt hc)

theorem accFull_of_open {s : State} {a : Nat} (hs : s.f R.MEAS_ACC_CLOSE_SRC a ≠ 2) (hc : (s.acc a).cnt ≠ 16777215) : s.accFull a = s := by
  unfold State.accFull
  dsimp only
  rw [if_neg (by simp [hs]), if_neg hc]

/-- A conversion for an accumulator alone that it does not fill enters it and closes no window. -/
theorem deliver_acc_open {s : State} {a : Nat} (code : Nat) (he : s.b R.MEAS_ACC_CFG_EN a = true) (hm : s.b R.MEAS_ACC_CFG_MODE a = false)
    (hs : s.f R.MEAS_ACC_CLOSE_SRC a ≠ 2) (hc : (s.acc a).cnt + 1 < 16777215) :
    s.deliver [{ acc := some a, mmt := none, code := code }] = (s.setAcc a ((s.acc a).plus code)).settle := by
  have hd : s.deliver [{ acc := some a, mmt := none, code := code }]
      = ((s.accAdd a code).doIf ((s.accAdd a code).b R.MEAS_ACC_CFG_EN a) (·.accFull a)).settle := rfl
  have hcnt : ((s.setAcc a ((s.acc a).plus code)).acc a).cnt = (s.acc a).cnt + 1 := congrArg AccSt.cnt (acc_setAcc_same ..)
  have hopen : (s.setAcc a ((s.acc a).plus code)).accFull a = s.setAcc a ((s.acc a).plus code) := accFull_of_open hs (by omega)
  rw [hd, accAdd_open code he hm hc, State.doIf_of (c := (s.setAcc a ((s.acc a).plus code)).b R.MEAS_ACC_CFG_EN a) he, hopen]

/-- CMD_IN goes to accumulator `a` alone, of weight +1 (R64), whose window stays open with one more conversion. -/
structure CmdFeeds (a : Nat) (s : State) : Prop where
  toAcc : s.b R.AUX_CMD_CFG_ACC_EN = true
  acc : s.f R.AUX_CMD_CFG_ACC = a
  noMmt : s.b R.AUX_CMD_CFG_MMT_EN = false
  en : s.b R.MEAS_ACC_CFG_EN a = true
  unsigned : s.b R.MEAS_ACC_CFG_MODE a = false
  src : s.f R.MEAS_ACC_CLOSE_SRC a ≠ 2
  room : (s.acc a).cnt + 1 < 16777215

theorem CmdFeeds.setCmd {a : Nat} {s : State} (h : CmdFeeds a s) (c : CmdSt) : CmdFeeds a (s.setCmd c) :=
  ⟨h.toAcc, h.acc, h.noMmt, h.en, h.unsigned, h.src, h.room⟩

/-- A status bit of the command input is none of its settings. -/
theorem CmdFeeds.raise {a : Nat} {s : State} (h : CmdFeeds a s) {r : FRef} (hblk : r.blk = .aux) (hkey : r.key 0 0 = 0x888) (e : Ev) (n : Nat)
    (w0 w1 : Word) : CmdFeeds a (s.raise r 0 e n w0 w1) := by
  have haux (q : FRef) (hb : q.blk = .aux) (hk : q.key 0 0 = 0x880) : (s.raise r 0 e n w0 w1).f q = s.f q :=
    f_raise_apart _ _ _ _ _ _ _ _ _ _ (by rw [hb]; decide) (Or.inr (Or.inl (by rw [hk, hkey]; decide)))
  have hmeas (q : FRef) (hb : q.blk = .meas) : (s.raise r 0 e n w0 w1).f q a = s.f q a :=
    f_raise_apart _ _ _ _ _ _ _ _ _ _ (by rw [hb]; decide) (Or.inl (by rw [hb, hblk]; decide))
  exact ⟨(b_of_f (haux _ rfl rfl)).trans h.toAcc, (haux _ rfl rfl).trans h.acc, (b_of_f (haux _ rfl rfl)).trans h.noMmt,
    (b_of_f (hmeas _ rfl)).trans h.en, (b_of_f (hmeas _ rfl)).trans h.unsigned, fun hs => h.src ((hmeas _ rfl).symm.trans hs),
    by rw [acc_of_meas (State.raise_meas ..)]; exact h.room⟩

/-- From `s` to `s'` a code enters accumulator `a` and no other. -/
def CodeEnters (a code : Nat) (s s' : State) : Prop := s'.acc a = (s.acc a).plus code ∧ ∀ b, b ≠ a → s'.acc b = s.acc b

theorem CodeEnters.of_meas {a code : Nat} {s u v : State} (h : CodeEnters a code u v) (hu : u.meas = s.meas) : CodeEnters a code s v := by
  obtain ⟨hin, hother⟩ := h
  exact ⟨by rw [hin, acc_of_meas hu], fun b hb => by rw [hother b hb, acc_of_meas hu]⟩

/-- A conversion of CMD_IN enters its accumulator, and leaves the command input alone (R187). -/
theorem cmdCode_enters {a : Nat} {s : State} (h : CmdFeeds a s) (code : Nat) : CodeEnters a code s (s.cmdCode code) ∧ K2 s (s.cmdCode code) := by
  have heq : s.cmdCode code = ((s.setAcc a ((s.acc a).plus code)).settle.bcSync).settle := by
    unfold State.cmdCode
    rw [h.toAcc, h.noMmt, h.acc]
    exact congrArg (fun v : State => v.bcSync.settle) (deliver_acc_open code h.en h.unsigned h.src h.room)
  have hset : K2 s (s.setAcc a ((s.acc a).plus code)) := ⟨rfl, fun _ _ => rfl, fun _ _ _ _ _ => rfl, fun _ => rfl, QExt.refl s⟩
  have hmeas (v : State) : v.settle.bcSync.settle.meas = v.meas :=
    (tch_settle.1 .meas (by decide)).trans ((tch_bcSync.1 .meas (by decide)).trans (tch_settle.1 .meas (by decide)))
  rw [heq]
  exact ⟨⟨(acc_of_meas (hmeas _) a).trans (acc_setAcc_same ..), fun b hb => (acc_of_meas (hmeas _) b).trans (acc_setAcc_other _ _ hb)⟩,
    ((hset.trans (k2_settle _)).trans (k2_bcSync _)).trans (k2_settle _)⟩

/-- The same where the command input has just been set. -/
theorem cmdCode_setCmd {a : Nat} {s : State} (h : CmdFeeds a s) (c : CmdSt) (code : Nat) :
    CodeEnters a code s ((s.setCmd c).cmdCode code) ∧ ((s.setCmd c).cmdCode code).pwm.cmd = c :=
  have ⟨henters, hkeeps⟩ := cmdCode_enters (h.setCmd c) code
  ⟨henters.of_meas rfl, hkeeps.cmd⟩

/-- The command input after a conversion or a gate of this instant. -/
def CmdSt.sampled (c : CmdSt) (now : Nat) : CmdSt := { c with lastAt := now }

theorem cmdCode_sampled {a : Nat} {s : State} (h : CmdFeeds a s) (c : CmdSt) (code : Nat) :
    CodeEnters a code s ((s.setCmd (c.sampled s.now)).cmdCode code) ∧ ((s.setCmd (c.sampled s.now)).cmdCode code).pwm.cmd.lastAt = s.now :=
  have ⟨henters, hcmd⟩ := cmdCode_setCmd h (c.sampled s.now) code
  ⟨henters, by rw [hcmd]; rfl⟩

/-! ## The glitch filter (R185) -/

/-- The command input at a rising edge of its pin that does not count yet. -/
def CmdSt.rising (c : CmdSt) (e : Nat) : CmdSt := { c with raw := true, rawAt := e }

/-- A rising edge ends the period that began at `r`. -/
def CmdSt.risen (c : CmdSt) (e r : Nat) : CmdSt :=
  { c.rising e with level := true, riseAt := some e, quietAt := e, statics := 0, per := some (e - r) }

/-- A level that has not lasted the filter's time does not count. -/
theorem accept_rising_early {c : CmdSt} {e filt now : Nat} (h : now < e + filt) : (c.rising e).accept filt now = (c.rising e, []) :=
  if_pos (Or.inr h)

/-- A level that has lasted the filter's time counts from its edge. -/
theorem accept_rising_late {c : CmdSt} {e r filt now : Nat} (hl : c.level = false) (hr : c.riseAt = some r) (h : e + filt ≤ now) :
    (c.rising e).accept filt now = (c.risen e r, [(e - r, c.fallAt - r)]) := by
  have hcounts : ¬ ((c.rising e).raw = (c.rising e).level ∨ now < (c.rising e).rawAt + filt) := by
    show ¬ (true = c.level ∨ now < e + filt)
    rw [hl]
    exact not_or.mpr ⟨Bool.noConfusion, Nat.not_lt.mpr h⟩
  unfold CmdSt.accept
  rw [if_neg hcounts]
  simp [CmdSt.rising, CmdSt.risen, hr]

/-- A rising edge after a low that has counted: what the filter makes of it at the instant. -/
theorem feed_rise {c : CmdSt} {e filt now : Nat} (hl : c.level = false) (hraw : c.raw = false) :
    c.feed filt [(e, true)] now = (c.rising e).accept filt now := by
  have hlow : c.accept filt e = (c, []) := if_pos (Or.inl (hraw.trans hl.symm))
  have hchange : c.change filt (e, true) = (c.rising e, []) := by
    unfold CmdSt.change
    rw [hlow]
    exact Prod.ext (if_neg (by simp [hraw])) rfl
  unfold CmdSt.feed
  rw [List.foldl_cons, List.foldl_nil]
  dsimp only
  rw [hchange]
  rfl

/-! ## Codes of a period and of a gate (R185) -/

theorem dutyCode_in_range {s : State} {per high : Nat} (h50 : 50 * usQ ≤ per) (h1000 : per ≤ 1000 * usQ) :
    s.dutyCode (per, high) = s.cmdCode (min 65535 (65536 * high / per)) := if_pos ⟨h50, h1000⟩

theorem dutyCode_out_of_range {s : State} {per high : Nat} (h : per < 50 * usQ ∨ 1000 * usQ < per) :
    s.dutyCode (per, high) = s.raise R.AUX_CMD_STAT_RANGE 0 E.CMD_RANGE 0 :=
  if_neg fun hin => h.elim (Nat.not_lt.mpr hin.1) (Nat.not_lt.mpr hin.2)

theorem gateCode_of_period {s : State} {rise per : Nat} (hr : s.pwm.cmd.riseAt = some rise) (hp : s.pwm.cmd.per = some per)
    (hlate : s.now ≤ rise + secQ) (hper : per ≠ 0) (hfs : s.f R.AUX_CMD_SCALE_F_FS ≠ 0) :
    s.gateCode = (s, min 65535 (65536 * secQ / (per * s.f R.AUX_CMD_SCALE_F_FS))) := by
  unfold State.gateCode
  dsimp only
  rw [hr, hp]
  dsimp only
  rw [if_neg (Nat.not_lt.mpr hlate), if_neg (by simp [hper, hfs])]

/-- Without a rising edge within the last second the code is 0. -/
theorem gateCode_of_still {s : State} (h : s.pwm.cmd.riseAt = none ∨ ∃ rise, s.pwm.cmd.riseAt = some rise ∧ rise + secQ < s.now) :
    s.gateCode = (s, 0) := by
  unfold State.gateCode
  dsimp only
  rcases h with hr | ⟨rise, hr, hstill⟩
  · rw [hr]
  · rw [hr]
    cases s.pwm.cmd.per with
    | none => rfl
    | some per => exact if_pos hstill

/-! ## The commands of the command input -/

theorem exec_cmdAnalogueConversion {s : State} {t : Instant} (vin : Int) (hon : (s.start t).cmdOn 0 = true)
    (hdue : (s.start t).pwm.cmd.lastAt + ((s.start t).f R.AUX_CMD_CFG_RATE + 1) * usQ ≤ (s.start t).now) :
    exec (.cmdAnalogueConversion t vin) s
      = .next (((s.start t).setCmd ((s.start t).pwm.cmd.sampled (s.start t).now)).cmdCode (sarCode vin 0)) :=
  congrArg Host.Outcome.next (State.doIf_of (by rw [hon, decide_eq_true hdue]; rfl))

theorem exec_cmdDutyEdge {s : State} {t : Instant} {wave : List (Instant × Bool)} {c : CmdSt} {ps : List (Nat × Nat)}
    (hon : (s.start t).cmdOn 1 = true) (hfeed : (s.start t).pwm.cmd.feed (s.start t).cmdFilt wave (s.start t).now = (c, ps)) :
    exec (.cmdDutyEdge t wave) s = .next (ps.foldl State.dutyCode ((s.start t).setCmd c)) :=
  congrArg Host.Outcome.next ((State.doIf_of hon).trans (by dsimp only; rw [hfeed]))

/-- One period of 50 µs to 1 ms ends and makes its code. -/
theorem exec_cmdDutyEdge_in_range {s : State} {t : Instant} {wave : List (Instant × Bool)} {c : CmdSt} {per high : Nat}
    (hon : (s.start t).cmdOn 1 = true) (hfeed : (s.start t).pwm.cmd.feed (s.start t).cmdFilt wave (s.start t).now = (c, [(per, high)]))
    (h50 : 50 * usQ ≤ per) (h1000 : per ≤ 1000 * usQ) :
    exec (.cmdDutyEdge t wave) s = .next (((s.start t).setCmd c).cmdCode (min 65535 (65536 * high / per))) := by
  rw [exec_cmdDutyEdge hon hfeed, List.foldl_cons, List.foldl_nil, dutyCode_in_range h50 h1000]

/-- One period of another length ends and only sets RANGE. -/
theorem exec_cmdDutyEdge_out_of_range {s : State} {t : Instant} {wave : List (Instant × Bool)} {c : CmdSt} {per high : Nat}
    (hon : (s.start t).cmdOn 1 = true) (hfeed : (s.start t).pwm.cmd.feed (s.start t).cmdFilt wave (s.start t).now = (c, [(per, high)]))
    (hout : per < 50 * usQ ∨ 1000 * usQ < per) :
    exec (.cmdDutyEdge t wave) s = .next (((s.start t).setCmd c).raise R.AUX_CMD_STAT_RANGE 0 E.CMD_RANGE 0) := by
  rw [exec_cmdDutyEdge hon hfeed, List.foldl_cons, List.foldl_nil, dutyCode_out_of_range hout]

theorem exec_cmdFrequencyGate {s : State} {t : Instant} {wave : List (Instant × Bool)} {c : CmdSt} {code : Nat}
    (hon : (s.start t).cmdOn 2 = true)
    (hdue : (s.start t).pwm.cmd.lastAt + ((s.start t).f R.AUX_CMD_CFG_RATE + 1) * 100 * usQ ≤ (s.start t).now)
    (hfeed : ((s.start t).pwm.cmd.feed (s.start t).cmdFilt wave (s.start t).now).1 = c)
    (hcode : ((s.start t).setCmd c).gateCode = ((s.start t).setCmd c, code)) :
    exec (.cmdFrequencyGate t wave) s = .next (((s.start t).setCmd (c.sampled (s.start t).now)).cmdCode code) :=
  congrArg Host.Outcome.next ((State.doIf_of (by rw [hon, decide_eq_true hdue]; rfl)).trans (by dsimp only; rw [hfeed, hcode]; rfl))

/-- A static level is shown by its own status bit (R186). -/
def State.showStatic (s : State) (level : Bool) : State :=
  if level then s.raise R.AUX_CMD_STAT_STATIC_HI 0 E.CMD_STATIC 0 1 else s.raise R.AUX_CMD_STAT_STATIC_LO 0 E.CMD_STATIC 0 0

theorem exec_cmdStatic {s : State} {t : Instant} {wave : List (Instant × Bool)} {c : CmdSt} (hon : (s.start t).cmdOn 1 = true)
    (hfeed : (s.start t).pwm.cmd.feed (s.start t).cmdFilt wave (s.start t).now = (c, []))
    (hdue : c.quietAt + (2 + c.statics) * msQ ≤ (s.start t).now) :
    exec (.cmdStatic t wave) s
      = .next ((((s.start t).setCmd { c with statics := c.statics + 1 }).showStatic c.level).cmdCode (if c.level then 65535 else 0)) := by
  refine congrArg Host.Outcome.next ((State.doIf_of hon).trans ?_)
  dsimp only
  rw [hfeed]
  exact State.doIf_of (decide_eq_true hdue)

/-- What showing a static level leaves, and its bit. -/
theorem showStatic_spec {a : Nat} {s : State} (h : CmdFeeds a s) (level : Bool) :
    CmdFeeds a (s.showStatic level) ∧ (s.showStatic level).meas = s.meas ∧ (s.showStatic level).pwm = s.pwm
      ∧ (s.showStatic level).b (if level then R.AUX_CMD_STAT_STATIC_HI else R.AUX_CMD_STAT_STATIC_LO) = true := by
  cases level with
  | true => exact ⟨h.raise rfl rfl _ _ _ _, State.raise_meas .., State.raise_pwm .., b_raise_same _ _ _ _ _ _ _ (by decide) (by decide)⟩
  | false => exact ⟨h.raise rfl rfl _ _ _ _, State.raise_meas .., State.raise_pwm .., b_raise_same _ _ _ _ _ _ _ (by decide) (by decide)⟩

/-- A static level makes its code and shows its bit, which the code leaves. -/
theorem static_enters {a : Nat} {s : State} (h : CmdFeeds a s) (c : CmdSt) (level : Bool) (code : Nat) :
    CodeEnters a code s (((s.setCmd c).showStatic level).cmdCode code) ∧ (((s.setCmd c).showStatic level).cmdCode code).pwm.cmd = c
      ∧ (((s.setCmd c).showStatic level).cmdCode code).b (if level then R.AUX_CMD_STAT_STATIC_HI else R.AUX_CMD_STAT_STATIC_LO) = true := by
  obtain ⟨hfeeds, hmeas, hpwm, hbit⟩ := showStatic_spec (h.setCmd c) level
  obtain ⟨henters, hkeeps⟩ := cmdCode_enters hfeeds code
  refine ⟨henters.of_meas hmeas, hkeeps.cmd.trans (congrArg PwmSt.cmd hpwm), (b_of_f (hkeeps.stat _ ?_)).trans hbit⟩
  cases level with
  | true => exact Or.inl rfl
  | false => exact Or.inr rfl

/-- Settles O35: each command of the input sets the input and then makes one code, a status bit, or nothing. -/
theorem commandInputMakesCodes : Obligations.CommandInputMakesCodes := by
  unfold Obligations.CommandInputMakesCodes
  rintro s u t a rfl htoAcc hacc hnoMmt hen hmode hsrc hroom
  have hfeeds : CmdFeeds a (s.start t) := ⟨htoAcc, hacc, hnoMmt, hen, hmode, hsrc, hroom⟩
  refine ⟨fun vin hon hdue => ?_, fun wave c per high hon hfeed => ⟨fun h50 h1000 => ?_, fun hout => ?_⟩,
    fun e r hon hlevel hraw hrise => ⟨fun hlasts h50 h1000 => ?_, fun hshort => ?_⟩, fun wave c hon hdue hfeed => ⟨?_, fun hstill => ?_⟩,
    fun wave c hon hfeed hdue => ?_⟩
  · exact ⟨_, exec_cmdAnalogueConversion vin hon hdue, cmdCode_sampled hfeeds _ _⟩
  · exact ⟨_, exec_cmdDutyEdge_in_range hon hfeed h50 h1000, cmdCode_setCmd hfeeds c (min 65535 (65536 * high / per))⟩
  · exact ⟨_, exec_cmdDutyEdge_out_of_range hon hfeed hout, State.raise_meas ..,
      b_raise_same _ _ _ _ _ _ _ (by decide) (by decide), congrArg PwmSt.cmd (State.raise_pwm ..)⟩
  · obtain ⟨henters, hcmd⟩ :=
      cmdCode_setCmd hfeeds ((s.start t).pwm.cmd.risen e r) (min 65535 (65536 * ((s.start t).pwm.cmd.fallAt - r) / (e - r)))
    have hfeed := (feed_rise hlevel hraw).trans (accept_rising_late hlevel hrise hlasts)
    exact ⟨_, exec_cmdDutyEdge_in_range hon hfeed h50 h1000, henters, by rw [hcmd]; rfl⟩
  · exact ⟨_, exec_cmdDutyEdge hon ((feed_rise hlevel hraw).trans (accept_rising_early hshort)), rfl, hrise⟩
  · intro rise per hrise hper hlate hne hfs
    exact ⟨_, exec_cmdFrequencyGate hon hdue hfeed (gateCode_of_period hrise hper hlate hne hfs), cmdCode_sampled hfeeds _ _⟩
  · exact ⟨_, exec_cmdFrequencyGate hon hdue hfeed (gateCode_of_still hstill), cmdCode_sampled hfeeds _ _⟩
  · exact ⟨_, exec_cmdStatic hon hfeed hdue, static_enters hfeeds _ _ _⟩

end Sys2Proof.Machine
end

section
/-! PROOFS. O33. The timers of the grid side (ride-through, return, BLOCK: R200, R204, R206) and of the DC-DC side (precharge, MAIN, battery limits:
R214, R216), each with what its transition sets; that it leaves the rest alone is `Only`. -/
namespace Sys2Proof.Machine

/-! ## What the transitions set -/

/-- A grid state entered with an event. -/
theorem postGridEnter_facts (u : State) (c st : Nat) (e : Ev) (w : Word) (hroom : u.room) :
    (((u.post e (subject c) w).gridEnter c st).grid c).st = st ∧ Posts u ((u.post e (subject c) w).gridEnter c st) e (subject c) w
      ∧ Only c u ((u.post e (subject c) w).gridEnter c st) :=
  ⟨by rw [gridEnter_grid], (State.post_sys _ _ _ _ _ hroom).posts (gridEnter_only ..).q, (Only.post ..).trans (gridEnter_only ..)⟩

theorem gridTrip_of_limit {s : State} {c k : Nat} (h : (s.ctx c).rtLimit = some k) :
    s.gridTrip c = (s.post E.RT_TRIP (subject c) (nw k)).gridEnter c gTripOut := by
  unfold State.gridTrip
  rw [h]

/-- How far the returned grid's angle is from θ̂ in grid-following (R204). -/
def State.returnAngle (s : State) (c : Nat) : Rat := rnd (wrapPi (Vec2.arg (s.grid c).vpos - (s.grid c).theta))

section Return
variable {s : State} {c : Nat}

/-- Grid-forming follows the band and keeps its angle (R204, NONE). -/
theorem gridReturn_forming (hf : s.gridForming c = true) :
    (s.gridReturn c).grid c = { s.grid c with st := if (s.ctx c).inBand then gRun else gRide } := by
  unfold State.gridReturn
  simp only [hf, if_true]
  rw [band_grid, grid_post, inBand_post]

/-- Near the old angle, θ̂ takes the grid's angle, and the band decides the state (R204, SLEW). -/
theorem gridReturn_near (hf : s.gridForming c = false) (hd : absQ (s.returnAngle c) ≤ s.pv c 133) :
    ((s.gridReturn c).grid c).theta = Vec2.arg (s.grid c).vpos ∧ ((s.gridReturn c).grid c).st ≠ gBlock := by
  unfold State.returnAngle State.grid State.pv at hd
  unfold State.gridReturn
  simp only [hf, Bool.false_eq_true, if_false, if_pos hd, if_neg (show ¬ (0 : Nat) = 2 by decide), if_true]
  rw [band_grid, grid_modGrid, grid_post]
  exact ⟨rfl, band_ne _⟩

/-- Far from the old angle, θ̂ takes the grid's angle in BLOCK (R204, BLOCK). -/
theorem gridReturn_far (hf : s.gridForming c = false) (hd : ¬ absQ (s.returnAngle c) ≤ s.pv c 133) :
    ((s.gridReturn c).grid c).theta = Vec2.arg (s.grid c).vpos ∧ ((s.gridReturn c).grid c).st = gBlock := by
  unfold State.returnAngle State.grid State.pv at hd
  unfold State.gridReturn
  simp only [hf, Bool.false_eq_true, if_false, if_neg hd, if_neg (show ¬ (1 : Nat) = 2 by decide), if_neg (show ¬ (1 : Nat) = 0 by decide)]
  rw [gridEnter_grid, grid_modGrid, grid_post]
  exact ⟨rfl, rfl⟩

theorem gridReturn_following (hf : s.gridForming c = false) :
    ((s.gridReturn c).grid c).theta = Vec2.arg (s.grid c).vpos
      ∧ (((s.gridReturn c).grid c).st = gBlock ↔ ¬ absQ (s.returnAngle c) ≤ s.pv c 133) := by
  by_cases hd : absQ (s.returnAngle c) ≤ s.pv c 133
  · exact (gridReturn_near hf hd).imp_right fun hst => iff_of_false hst (not_not_intro hd)
  · exact (gridReturn_far hf hd).imp_right fun hst => iff_of_true hst hd

end Return

theorem blockEnd_facts (s : State) (c : Nat) :
    ((s.blockEnd c).grid c).st = gRamp ∧ ((s.blockEnd c).grid c).ilim = 0 ∧ Only c s (s.blockEnd c) := by
  unfold State.blockEnd
  rw [gridEnter_grid, grid_modGrid]
  exact ⟨rfl, rfl, (modGrid_only ..).trans (gridEnter_only ..)⟩

theorem mainSettled_of_charged {s : State} {c : Nat} (h : (s.ctx c).linkCharged = true) :
    s.mainSettled c = (s.modDc c fun d => { d with pre := false, chg := 0, dis := 0, up := true }).dcEnter c bRun := if_pos h

theorem mainSettled_of_uncharged {s : State} {c : Nat} (h : (s.ctx c).linkCharged ≠ true) : s.mainSettled c = s.dcFail c 2 := if_neg h

/-- A charged link starts RUN with its limits at 0; another one is a failed close (R216). -/
theorem mainSettled_facts (s : State) (c : Nat) (hroom : s.room) :
    (if (s.ctx c).linkCharged then ((s.mainSettled c).dcdc c).st = bRun ∧ ((s.mainSettled c).dcdc c).pre = false
        ∧ ((s.mainSettled c).dcdc c).chg = 0 ∧ ((s.mainSettled c).dcdc c).dis = 0
      else ((s.mainSettled c).dcdc c).st = bFail ∧ Posts s (s.mainSettled c) E.PRECHARGE_FAIL (subject c) (nw 2))
      ∧ Only c s (s.mainSettled c) := by
  split
  next h =>
    rw [mainSettled_of_charged h, dcEnter_dc, dc_modDc]
    exact ⟨⟨rfl, rfl, rfl, rfl⟩, (modDc_only ..).trans (dcEnter_only ..)⟩
  next h =>
    rw [mainSettled_of_uncharged h]
    obtain ⟨hst, -, -, hposts⟩ := dcFail_facts s c 2 hroom
    exact ⟨⟨hst, hposts⟩, dcFail_only ..⟩

theorem bmsStale_facts (s : State) (c : Nat) (hroom : s.room) :
    ((s.bmsStale c).dcdc c).stale = true ∧ Reports s (s.bmsStale c) E.BMS_STALE (subject c) ∧ Only c s (s.bmsStale c) := by
  unfold State.bmsStale
  rw [dc_post, dc_modDc]
  exact ⟨rfl, State.post_sys _ _ _ _ _ hroom, (modDc_only ..).trans (Only.post ..)⟩

/-! ## The commands -/

section Timers
variable {s : State} {t : Instant} {c : Nat} (hon : (s.start t).ctxOn c = true)
include hon

theorem exec_rtTrip {k : Nat} (h : ((s.start t).ctx c).rtLimit = some k) :
    exec (.rtTrip t c) s = .next (((s.start t).post E.RT_TRIP (subject c) (nw k)).gridEnter c gTripOut) :=
  congrArg Host.Outcome.next ((State.doIf_of hon).trans (gridTrip_of_limit h))

theorem exec_resyncTimeout (h : ((s.start t).ctx c).resyncOver = true) : exec (.resyncTimeout t c) s = .next ((s.start t).resyncTimeout c) :=
  congrArg Host.Outcome.next (State.doIf_of (by rw [hon, h]; rfl))

theorem exec_gridReturn (h : ((s.start t).ctx c).gridBack = true) (hlim : ((s.start t).ctx c).rtLimit = none) :
    exec (.gridReturn t c) s = .next ((s.start t).gridReturn c) :=
  congrArg Host.Outcome.next (State.doIf_of (by rw [hon, h, hlim]; rfl))

theorem exec_blockEnd (h : ((s.start t).ctx c).blockOver = true) : exec (.blockEnd t c) s = .next ((s.start t).blockEnd c) :=
  congrArg Host.Outcome.next (State.doIf_of (by rw [hon, h]; rfl))

theorem exec_prechargeFail {k : Nat} (h : ((s.start t).ctx c).prechargeOver = some k) :
    exec (.prechargeFail t c) s = .next ((s.start t).dcFail c k) :=
  congrArg Host.Outcome.next ((State.doIf_of hon).trans (by rw [h]))

theorem exec_mainSettled (h : ((s.start t).ctx c).mainOver = true) : exec (.mainSettled t c) s = .next ((s.start t).mainSettled c) :=
  congrArg Host.Outcome.next (State.doIf_of (by rw [hon, h]; rfl))

theorem exec_bmsStale (h : ((s.start t).ctx c).bmsOver = true) : exec (.bmsStale t c) s = .next ((s.start t).bmsStale c) :=
  congrArg Host.Outcome.next (State.doIf_of (by rw [hon, h]; rfl))

end Timers

/-- Settles O33: each command makes its transition, whose facts are above; what it leaves alone is read off `Only`. -/
theorem gridAndBatteryTimersAct : Obligations.GridAndBatteryTimersAct := by
  unfold Obligations.GridAndBatteryTimersAct
  rintro s u t c rfl hon hroom
  refine ⟨fun k hlim => ?_, fun hover => ?_, fun hback hlim => ?_, fun hover => ?_, fun k hover => ?_, fun hover => ?_, fun hover => ?_⟩
  · obtain ⟨hst, hposts, honly⟩ := postGridEnter_facts (s.start t) c gTripOut E.RT_TRIP (nw k) hroom
    exact ⟨_, exec_rtTrip hon hlim, hst, hposts, honly.pair⟩
  · obtain ⟨hst, hposts, honly⟩ := postGridEnter_facts (s.start t) c gTripOut E.RESYNC_TIMEOUT 0 hroom
    exact ⟨_, exec_resyncTimeout hon hover, hst, hposts, honly.pair⟩
  · refine ⟨_, exec_gridReturn hon hback hlim, fun hf => ?_, gridReturn_following, (gridReturn_only ..).pair⟩
    rw [gridReturn_forming hf]
    exact ⟨rfl, rfl⟩
  · obtain ⟨hst, hilim, honly⟩ := blockEnd_facts (s.start t) c
    exact ⟨_, exec_blockEnd hon hover, hst, hilim, honly.pair⟩
  · obtain ⟨hst, hpre, hmain, hposts⟩ := dcFail_facts (s.start t) c k hroom
    exact ⟨_, exec_prechargeFail hon hover, hst, hpre, hmain, hposts, (dcFail_only ..).pair⟩
  · obtain ⟨hends, honly⟩ := mainSettled_facts (s.start t) c hroom
    exact ⟨_, exec_mainSettled hon hover, hends, honly.pair⟩
  · obtain ⟨hstale, hreports, honly⟩ := bmsStale_facts (s.start t) c hroom
    exact ⟨_, exec_bmsStale hon hover, hstale, hreports, honly.pair⟩

end Sys2Proof.Machine
end

section
/-! PROOFS. O10. Reads of a low word, which latch the high word (R223, R408, R528). -/
namespace Sys2Proof.Machine

/-- A granted read of a low word answers bits 31:0 of the value and leaves bits 63:32 in the high word. -/
theorem latchRead_granted {u : State} {fn : Nat} {lo hi : FRef} (v : Nat) (hg : u.readGranted fn (lo.addr 0 0) = true)
    (hw : hi.lo = 0 ∧ hi.hi = 31) :
    (u.latchRead fn lo hi v).out = u.out ++ [.readData fn (lo.addr 0 0) (BitVec.ofNat 32 v)]
      ∧ (u.latchRead fn lo hi v).f hi = v / 2 ^ 32 % 2 ^ 32 := by
  have hout : (u.touch fn).out = u.out := tch_touch.1 .out (by decide)
  unfold State.latchRead
  dsimp only
  rw [if_pos hg]
  constructor
  · rw [State.emit_out, State.setF_out, State.setF_out, hout]
  · rw [f_emit, f_setF_same _ _ _ _ _ (by omega), hw.1, hw.2]

/-- A signed value has the same low word in 32 bits as in 64. -/
theorem ofNat_unsignedOf (v : Int) : BitVec.ofNat 32 (unsignedOf 64 v) = BitVec.ofInt 32 v := by
  apply BitVec.eq_of_toNat_eq
  rw [BitVec.toNat_ofNat, BitVec.toNat_ofInt]
  unfold unsignedOf
  omega

theorem unsignedOf_high (v : Int) : unsignedOf 64 v / 2 ^ 32 % 2 ^ 32 = unsignedOf 64 v / 2 ^ 32 := by
  unfold unsignedOf
  omega

/-- Settles O10: each of the four commands is the latching read of its pair. -/
theorem lowWordReadLatchesHighWord : Obligations.LowWordReadLatchesHighWord := by
  unfold Obligations.LowWordReadLatchesHighWord
  rintro s u t fn rfl hfn
  have hon {g : State → State} : (s.start t).doIf (decide (fn < 2)) g = g (s.start t) := State.doIf_of (decide_eq_true hfn)
  refine ⟨fun hg => ⟨_, congrArg Host.Outcome.next hon, latchRead_granted _ hg ⟨rfl, rfl⟩⟩,
    fun hg => ⟨_, congrArg Host.Outcome.next hon, ?_⟩,
    fun hg => ⟨_, congrArg Host.Outcome.next hon, latchRead_granted _ hg ⟨rfl, rfl⟩⟩,
    fun hg => ⟨_, congrArg Host.Outcome.next hon, latchRead_granted _ hg ⟨rfl, rfl⟩⟩⟩
  have h := latchRead_granted (hi := W.NET_NTIME_HI) (unsignedOf 64 (s.start t).ntime) hg ⟨rfl, rfl⟩
  rwa [ofNat_unsignedOf, unsignedOf_high] at h

end Sys2Proof.Machine
end

section
/-! PROOFS. O37. The sources of the trip matrix: fault returns (R239), bootstrap under-voltages (R242), VDS faults (R243), the under-voltage of VGD
(R244), and comparators (R264). -/
namespace Sys2Proof.Machine

/-! ## Fields that the plant side leaves, and status bits that stand after it -/

theorem Calms.f_eq {s s' : State} (h : Calms s s') {q : FRef} {n i : Nat} (hc : calmB q n = true) (hi : i < n) : s'.f q i = s.f q i :=
  h.fields q i 0 (calm_of hc hi)

theorem Calms.bitF_eq {s s' : State} (h : Calms s s') {q : FRef} {n i : Nat} (k : Nat) (hc : calmB q n = true) (hi : i < n) :
    s'.bitF q k i = s.bitF q k i := bitF_of_f (h.f_eq hc hi)

theorem Calms.b_eq {s s' : State} (h : Calms s s') {q : FRef} {n i : Nat} (hc : calmB q n = true) (hi : i < n) : s'.b q i = s.b q i :=
  b_of_f (h.f_eq hc hi)

theorem f_setBitF_apart (s : State) {r q : FRef} (k : Nat) (v : Bool) (i j i' j' : Nat) (h : Apart q r i' j' i j) :
    (s.setBitF r k v i j).f q i' j' = s.f q i' j' := (f_setBitF ..).trans (f_setF_apart _ _ _ _ _ _ h)

@[simp] theorem State.setBitF_room (s : State) (r : FRef) (k : Nat) (v : Bool) (i j : Nat) : (s.setBitF r k v i j).room = s.room := rfl
@[simp] theorem State.setBitF_shortTs (s : State) (r : FRef) (k : Nat) (v : Bool) (i j : Nat) : (s.setBitF r k v i j).shortTs = s.shortTs := rfl
theorem QExt.setBitF {s u : State} (h : QExt s u) (r : FRef) (k : Nat) (v : Bool) (i j : Nat) : QExt s (u.setBitF r k v i j) :=
  h.trans (QExt.of_eq rfl)

/-- From `u` to `s'` bit `k` of a status field has been seen: it stands, and a rise of it has been reported. -/
def BitSeen (u s' : State) (r : FRef) (k i : Nat) (e : Ev) (subj : Nat) : Prop :=
  s'.bitF r k i = true ∧ (u.bitF r k i = false → Posts u s' e subj)

/-- A bit raised between two changes that leave it alone and take no flit from SYS. -/
theorem bitSeen_raiseBit {u v s' : State} {r : FRef} {k i : Nat} {e : Ev} {subj : Nat} (h : r.lo ≤ r.hi ∧ r.hi < 32) (hk : k < r.hi + 1 - r.lo)
    (hb : r.blk ≠ .sys) (hroom : v.room) (hq : QExt u v) (hts : v.shortTs = u.shortTs) (hbit : v.bitF r k i = u.bitF r k i)
    (hq' : QExt (v.raiseBit r k i e subj) s') (hf : s'.f r i = (v.raiseBit r k i e subj).f r i) : BitSeen u s' r k i e subj :=
  ⟨(bitF_of_f hf).trans (bitF_raiseBit_same _ _ _ _ _ _ _ _ h hk hb),
    fun hclear => (raiseBit_reports _ _ _ _ _ _ _ _ (hbit.trans hclear) hroom).after hq hts hq'⟩

/-- A source asserts its line, bit `k` of one field, and is seen in bit `k` of another field. -/
def State.lineRaised (s : State) (line seen : FRef) (k i : Nat) (e : Ev) (subj : Nat) : State :=
  (s.setBitF line k true i).raiseBit seen k i e subj

/-- A line and the field that keeps what has been seen of it: outside SYS, and in its words the second lies above the first. -/
def LineSeen (line seen : FRef) : Prop :=
  line.blk ≠ .sys ∧ seen.blk ≠ .sys ∧ line.lo ≤ line.hi ∧ line.hi < seen.lo ∧ seen.lo ≤ seen.hi ∧ seen.hi < 32

section Line
variable {line seen : FRef} {k i : Nat} {e : Ev} {subj : Nat} (h : LineSeen line seen)
include h

theorem bitF_setBitF_line (s : State) (v : Bool) (k' : Nat) : (s.setBitF line k v i).bitF seen k' i = s.bitF seen k' i := by
  obtain ⟨-, -, hline, habove, hseen, htop⟩ := h
  exact bitF_of_f (f_setBitF_apart _ _ _ _ _ _ _ (Or.inr (Or.inr ⟨hline, hseen, htop, Or.inr habove⟩)))

/-- The line stands. -/
theorem lineRaised_line (s : State) (hk : k < line.hi + 1 - line.lo) : (s.lineRaised line seen k i e subj).bitF line k i = true := by
  obtain ⟨hb, -, hline, habove, hseen, htop⟩ := h
  have hapart : Apart line seen i 0 i 0 := Or.inr (Or.inr ⟨hseen, hline, by omega, Or.inl habove⟩)
  unfold State.lineRaised
  rw [bitF_of_f (f_raiseBit_apart _ _ _ _ _ _ _ _ _ _ _ hb hapart), bitF_setBitF _ _ _ _ _ _ _ ⟨hline, by omega⟩ hk, if_pos rfl]

/-- The other bit has been seen, where what goes before and what follows leave its field alone. -/
theorem bitSeen_lineRaised {u v s' : State} (hk : k < seen.hi + 1 - seen.lo) (hroom : v.room) (hq : QExt u v) (hts : v.shortTs = u.shortTs)
    (hbit : v.bitF seen k i = u.bitF seen k i) (hq' : QExt (v.lineRaised line seen k i e subj) s')
    (hf : s'.f seen i = (v.lineRaised line seen k i e subj).f seen i) : BitSeen u s' seen k i e subj := by
  have ⟨_, hb, _, _, hseen, htop⟩ := h
  exact bitSeen_raiseBit ⟨hseen, htop⟩ hk hb (by rwa [State.setBitF_room]) (hq.setBitF ..) (by rwa [State.setBitF_shortTs])
    ((bitF_setBitF_line h v true k).trans hbit) hq' hf

end Line

/-! ## Fault returns (R239, R509) -/

theorem Calms.fbLive {s s' : State} (h : Calms s s') {T : Nat} (k : Nat) (hT : T < 24) :
    s'.bitF R.PWM_FB_STAT_LIVE k T = s.bitF R.PWM_FB_STAT_LIVE k T := h.bitF_eq k (n := 24) (by decide) hT

theorem Calms.fbSeen {s s' : State} (h : Calms s s') {T : Nat} (hT : T < 24) : s'.f R.PWM_FB_STAT_SEEN T = s.f R.PWM_FB_STAT_SEEN T :=
  h.f_eq (n := 24) (by decide) hT

theorem lineSeen_fb : LineSeen R.PWM_FB_STAT_LIVE R.PWM_FB_STAT_SEEN := by unfold LineSeen; decide

/-- The accepted fault level of a channel stands in LIVE and in SEEN. -/
abbrev State.fbRaised (s : State) (T i : Nat) : State := s.lineRaised R.PWM_FB_STAT_LIVE R.PWM_FB_STAT_SEEN i T E.FB_FAULT (subject T i)

/-- What follows, the note of the STO mask or a short report, reaches the trip matrix and SYS alone. -/
theorem faultAccepted_touches (s : State) (T i first : Nat) : Touches 16843009 (s.fbRaised T i) (s.faultAccepted T i first) := by
  have hpost : Touches 16843009 (s.fbRaised T i) ((s.fbRaised T i).post E.STO_MASKED (subject (s.bridge T))) :=
    tch_post.mono (by decide)
  unfold State.faultAccepted
  dsimp only
  rw [← State.lineRaised]
  split
  · split
    · exact Touches.refl _ _
    · exact hpost.upd_trip (by decide)
  · exact Touches.doIf (Touches.refl _ _) fun _ h => tch_shortReport.comp (by decide) h

/-- What an accepted fault level leaves: the channel's LIVE and SEEN bits stand, and a rise of SEEN has been reported. -/
theorem faultAccepted_seen (u : State) {T i : Nat} (first B q : Nat) (hT : T < 24) (hi : i < 6) (hB : B < 28) (hroom : (u.advance B q).room) :
    (((u.advance B q).faultAccepted T i first).settle).bitF R.PWM_FB_STAT_LIVE i T = true
      ∧ BitSeen u ((u.advance B q).faultAccepted T i first).settle R.PWM_FB_STAT_SEEN i T E.FB_FAULT (subject T i) := by
  have hbefore : Calms u (u.advance B q) := calm_advance hB
  have hts := adv_ts u B q
  generalize u.advance B q = v at *
  have hlater := faultAccepted_touches v T i first
  constructor
  · rw [calm_settle.fbLive _ hT, bitF_of_f (hlater.f _ _ _ (by decide)), lineRaised_line lineSeen_fb v hi]
  · exact bitSeen_lineRaised lineSeen_fb hi hroom hbefore.q hts (bitF_of_f (hbefore.fbSeen hT)) (hlater.q.trans calm_settle.q)
      ((calm_settle.fbSeen hT).trans (hlater.f _ _ _ (by decide)))

/-- What the end of a fault level leaves: the LIVE bit is clear, and what has been seen stays. -/
theorem faultEnded_live (u : State) {T i : Nat} (B q : Nat) (hT : T < 24) (hi : i < 6) (hB : B < 28) :
    (((u.advance B q).setBitF R.PWM_FB_STAT_LIVE i false T).settle).bitF R.PWM_FB_STAT_LIVE i T = false
      ∧ (((u.advance B q).setBitF R.PWM_FB_STAT_LIVE i false T).settle).bitF R.PWM_FB_STAT_SEEN i T = u.bitF R.PWM_FB_STAT_SEEN i T := by
  constructor
  · rw [calm_settle.fbLive _ hT, bitF_setBitF _ _ _ _ _ _ _ (by decide) hi, if_pos rfl]
  · rw [bitF_of_f (calm_settle.fbSeen hT), bitF_setBitF_line lineSeen_fb, bitF_of_f ((calm_advance hB).fbSeen hT)]

section FaultReturn
variable {s : State} {t : Instant} {ch : Nat} {level : Option Bool} {since : Instant} {fault : Bool} (hs : (s.start t).sealed = true)
  (hch : ch < 144) (hen : (s.start t).bitF R.PWM_FB_CFG_FB_EN (ch % 6) (ch / 6) = true)
  (hfault : (level.getD ((s.start t).bitF R.PWM_FB_CFG_POL (ch % 6) (ch / 6)) == (s.start t).bitF R.PWM_FB_CFG_POL (ch % 6) (ch / 6)) = fault)
  (hnew : (s.start t).bitF R.PWM_FB_STAT_LIVE (ch % 6) (ch / 6) ≠ fault)
  (hfilt : max ((s.start t).firstTick since) (s.start t).pwm.enTick + (s.start t).f R.PWM_FB_CFG_FILT (ch / 6) ≤ (s.start t).pwmTime)
include hs hch hen hfault hnew hfilt

/-- A level that differs from LIVE and has passed the filter is accepted; an open return stands at its fault level. -/
theorem exec_faultReturn :
    exec (.faultReturn t ch level since) s = .next
      (let v := (s.start t).advance ((s.start t).bridge (ch / 6)) (s.start t).pwmQ
      (if fault then v.faultAccepted (ch / 6) (ch % 6) (v.firstTick since)
        else v.setBitF R.PWM_FB_STAT_LIVE (ch % 6) false (ch / 6)).settle) := by
  have hpull : (level.getD ((s.start t).fbPull (ch / 6) (ch % 6)) == (s.start t).bitF R.PWM_FB_CFG_POL (ch % 6) (ch / 6)) = fault := by
    rw [State.fbPull, hs, hen]
    exact hfault
  subst hpull
  have hpass : (s.start t).filtered since ((s.start t).f R.PWM_FB_CFG_FILT (ch / 6)) = true := decide_eq_true hfilt
  exact congrArg Host.Outcome.next (State.doIf_of (by rw [hs, hen, decide_eq_true hch, bne_iff_ne.mpr hnew, hpass]; rfl))

/-- LIVE follows the accepted level, SEEN keeps a fault, and its rise has been reported. -/
theorem faultReturn_lines (hroom : ((s.start t).advance ((s.start t).bridge (ch / 6)) (s.start t).pwmQ).room) :
    Runs (.faultReturn t ch level since) s fun s' =>
      s'.bitF R.PWM_FB_STAT_LIVE (ch % 6) (ch / 6) = fault
        ∧ s'.bitF R.PWM_FB_STAT_SEEN (ch % 6) (ch / 6) = ((s.start t).bitF R.PWM_FB_STAT_SEEN (ch % 6) (ch / 6) || fault)
        ∧ (fault = true → (s.start t).bitF R.PWM_FB_STAT_SEEN (ch % 6) (ch / 6) = false →
          Posts (s.start t) s' E.FB_FAULT (subject (ch / 6) (ch % 6))) := by
  have hT : ch / 6 < 24 := by omega
  have hi : ch % 6 < 6 := Nat.mod_lt _ (by decide)
  have hB := bridge_lt (s.start t) (T := ch / 6) (by omega)
  refine ⟨_, exec_faultReturn hs hch hen hfault hnew hfilt, ?_⟩
  cases fault with
  | true =>
    obtain ⟨hlive, hseen, hposts⟩ := faultAccepted_seen (s.start t) _ _ _ hT hi hB hroom
    exact ⟨hlive, hseen.trans (Bool.or_true _).symm, fun _ => hposts⟩
  | false =>
    obtain ⟨hlive, hseen⟩ := faultEnded_live (s.start t) _ _ hT hi hB
    exact ⟨hlive, hseen.trans (Bool.or_false _).symm, fun h => nomatch h⟩

end FaultReturn

/-! ## Bootstrap under-voltages (R242) -/

theorem calm_bootDown (s : State) {x : Nat} (k : Nat) (hx : x < 4) : Calms s (s.bootDown x k) := by
  unfold State.bootDown
  dsimp only
  exact (((calm_advance (by omega)).setLeg ..).trans ((Calms.refl _).setChan _ _ (Chan.wait_turnOff ..))).trans calm_lowOn

/-- Once the edges up to now have run, the high side goes off without a report. -/
theorem bootDown_sys (s : State) (x k : Nat) : (s.bootDown x k).sys = (s.advance (24 + x) s.pwmQ).sys := by
  unfold State.bootDown
  dsimp only
  generalize s.advance (24 + x) s.pwmQ = v
  exact (tch_lowOn.comp (m := 8388608) (by decide) (tch_setChan.comp (by decide) tch_setLeg)).1 .sys (by decide)

theorem f_bootAny (s : State) (x : Nat) {q : FRef} {i : Nat} (h : Apart q R.AUX_STAT_BOOT_UV_ANY i 0 0 0) : (s.bootAny x).f q i = s.f q i :=
  f_setBitF_apart _ _ _ _ _ _ _ h

/-- The status word of a bridge is not that of AUX. -/
theorem apart_bridgeStat {q r : FRef} (i : Nat) (hq : q.base = 0x118 ∧ q.s2 = 0) (hr : r.base < 0x118 ∧ r.s1 = 0 ∧ r.s2 = 0) : Apart q r i 0 0 0 := by
  obtain ⟨hbase, hs2⟩ := hq
  obtain ⟨hbase', hs1', hs2'⟩ := hr
  refine Or.inr (Or.inl ?_)
  unfold FRef.key
  rw [hs2, hs1', hs2', hbase]
  omega

/-- The summary of a bridge follows the phases that are in under-voltage. -/
theorem bootAny_any (s : State) {x k : Nat} (hx : x < 4) (h : s.bitF R.AUX_BR_STAT_BOOT_UV_LIVE k x = true) :
    (s.bootAny x).bitF R.AUX_STAT_BOOT_UV_ANY x = true := by
  unfold State.bootAny
  rw [bitF_setBitF _ _ _ _ _ _ _ (by decide) hx, if_pos rfl, bne_iff_ne]
  intro hzero
  rw [State.bitF, hzero, Nat.zero_testBit] at h
  cases h

theorem lineSeen_boot : LineSeen R.AUX_BR_STAT_BOOT_UV_LIVE R.AUX_BR_STAT_BOOT_UV := by unfold LineSeen; decide

/-- What the summary and the plant side leave of a status field of a bridge. -/
theorem f_bootSettled (s : State) {x : Nat} (hx : x < 4) {q : FRef} (hq : q.base = 0x118 ∧ q.s2 = 0) (hc : calmB q 4 = true) :
    (s.bootAny x).settle.f q x = s.f q x := (calm_settle.f_eq hc hx).trans (f_bootAny _ _ (apart_bridgeStat x hq (by decide)))

/-- The state that an under-voltage of a phase leaves. -/
def State.bootTaken (s : State) (x k : Nat) : State :=
  (((s.bootDown x k).lineRaised R.AUX_BR_STAT_BOOT_UV_LIVE R.AUX_BR_STAT_BOOT_UV k x E.BOOT_UV (subject x k)).bootAny x).settle.settlePins (24 + x)

/-- A phase in under-voltage stands in its LIVE bit, in the summary of its bridge, and in its status bit, whose rise has been reported. -/
theorem bootTaken_seen (u : State) {x k : Nat} (hx : x < 4) (hk : k < 3) (hroom : (u.advance (24 + x) u.pwmQ).room) :
    (u.bootTaken x k).bitF R.AUX_BR_STAT_BOOT_UV_LIVE k x = true ∧ (u.bootTaken x k).bitF R.AUX_STAT_BOOT_UV_ANY x = true
      ∧ BitSeen u (u.bootTaken x k) R.AUX_BR_STAT_BOOT_UV k x E.BOOT_UV (subject x k) := by
  have hbefore := calm_bootDown u k hx
  have hts : (u.bootDown x k).shortTs = u.shortTs := tch_bootDown.shortTs (by decide)
  have hroom' : (u.bootDown x k).room := by
    unfold State.room
    rw [bootDown_sys]
    exact hroom
  unfold State.bootTaken
  generalize u.bootDown x k = v at *
  have hlive := lineRaised_line (k := k) (i := x) (e := E.BOOT_UV) (subj := subject x k) lineSeen_boot v hk
  refine ⟨?_, ?_, ?_⟩
  · rw [calm_settlePins.bitF_eq (n := 4) _ (by decide) hx, bitF_of_f (f_bootSettled _ hx (by decide) (by decide)), hlive]
  · rw [(calm_settle.trans calm_settlePins).bitF_eq (n := 1) _ (by decide) (by decide), bootAny_any _ hx hlive]
  · exact bitSeen_lineRaised lineSeen_boot hk hroom' hbefore.q hts (hbefore.bitF_eq (n := 4) _ (by decide) hx)
      (((QExt.refl _).setBitF ..).trans (calm_settle.trans calm_settlePins).q)
      ((calm_settlePins.f_eq (n := 4) (by decide) hx).trans (f_bootSettled _ hx (by decide) (by decide)))

theorem exec_bootUv {s : State} {t : Instant} {x k : Nat} (hs : (s.start t).sealed = true) (hx : x < 4) (hk : k < 3)
    (hlive : (s.start t).bitF R.AUX_BR_STAT_BOOT_UV_LIVE k x = false) : exec (.bootUv t x k) s = .next ((s.start t).bootTaken x k) :=
  congrArg Host.Outcome.next (State.doIf_of (by rw [hs, hlive, decide_eq_true hx, decide_eq_true hk]; rfl))

theorem exec_bootUvRelease {s : State} {t : Instant} {x k : Nat} (hs : (s.start t).sealed = true) (hx : x < 4) (hk : k < 3)
    (hlive : (s.start t).bitF R.AUX_BR_STAT_BOOT_UV_LIVE k x = true) :
    exec (.bootUvRelease t x k) s = .next (((s.start t).setBitF R.AUX_BR_STAT_BOOT_UV_LIVE k false x).bootAny x).settle :=
  congrArg Host.Outcome.next (State.doIf_of (by rw [hs, hlive, decide_eq_true hx, decide_eq_true hk]; rfl))

/-- The release of a phase clears its LIVE bit alone; what has been seen stays. -/
theorem bootUvRelease_live (u : State) {x k : Nat} (hx : x < 4) (hk : k < 3) :
    let s' := ((u.setBitF R.AUX_BR_STAT_BOOT_UV_LIVE k false x).bootAny x).settle
    (∀ j, s'.bitF R.AUX_BR_STAT_BOOT_UV_LIVE j x = if j = k then false else u.bitF R.AUX_BR_STAT_BOOT_UV_LIVE j x)
      ∧ s'.bitF R.AUX_BR_STAT_BOOT_UV k x = u.bitF R.AUX_BR_STAT_BOOT_UV k x := by
  refine ⟨fun j => ?_, ?_⟩
  · rw [bitF_of_f (f_bootSettled _ hx (by decide) (by decide)), bitF_setBitF _ _ _ _ _ _ _ (by decide) hk]
  · rw [bitF_of_f (f_bootSettled _ hx (by decide) (by decide)), bitF_setBitF_line lineSeen_boot]

/-! ## VDS faults (R243) -/

/-- The VDS fault of a switch stands in its line and in its status bit. -/
def State.vdsRaised (s : State) (x i : Nat) : State :=
  ((s.setBitF R.AUX_BR_STAT_VDS_LIVE i true x).setBitF R.AUX_STAT_VDS_LINE x true).raiseBit R.AUX_BR_STAT_VDS_FLT i x E.VDS_FAULT (subject x i)

/-- The state that a VDS fault leaves: beside the bits, a short report of the leg once the matrix is armed (R256). -/
def State.vdsTaken (s : State) (x i : Nat) : State :=
  ((s.vdsRaised x i).doIf ((s.vdsRaised x i).b R.TRIP_CTL_ARMED && (s.vdsRaised x i).b R.TRIP_TGT_CFG_EN (24 + x))
    (·.shortReport (24 + x) (i / 2) (s.vdsRaised x i).pwmTime)).settle

theorem vdsTaken_seen (u : State) {x i : Nat} (q : Nat) (hx : x < 4) (hi : i < 6) (hroom : (u.advance (24 + x) q).room) :
    BitSeen u ((u.advance (24 + x) q).vdsTaken x i) R.AUX_BR_STAT_VDS_FLT i x E.VDS_FAULT (subject x i) := by
  have hbefore : Calms u (u.advance (24 + x) q) := calm_advance (by omega)
  have hts := adv_ts u (24 + x) q
  generalize u.advance (24 + x) q = v at *
  have hlater (c : Bool) : Touches 16843009 (v.vdsRaised x i) ((v.vdsRaised x i).doIf c (·.shortReport (24 + x) (i / 2) (v.vdsRaised x i).pwmTime)) :=
    Touches.doIf (Touches.refl _ _) fun _ h => tch_shortReport.comp (by decide) h
  refine bitSeen_raiseBit (v := (v.setBitF R.AUX_BR_STAT_VDS_LIVE i true x).setBitF R.AUX_STAT_VDS_LINE x true) (by decide) hi (by decide)
    (by rwa [State.setBitF_room, State.setBitF_room]) ((hbefore.q.setBitF ..).setBitF ..)
    (by rwa [State.setBitF_shortTs, State.setBitF_shortTs]) ?_ ((hlater _).q.trans calm_settle.q)
    ((calm_settle.f_eq (n := 4) (by decide) hx).trans ((hlater _).f _ _ _ (by decide)))
  rw [bitF_of_f (f_setBitF_apart _ _ _ _ _ _ _ (apart_bridgeStat x (by decide) (by decide))),
    bitF_of_f (f_setBitF_apart _ _ _ _ _ _ _ (Or.inr (Or.inr (by decide)))), hbefore.bitF_eq (n := 4) _ (by decide) hx]

/-- Blanking ends T_BLANK after the switch's pin last changed. -/
theorem vdsBlankEnd_eq (s : State) (x i : Nat) :
    s.vdsBlankEnd x i = (s.chan (6 * (24 + x) + i)).pinAt + (s.f R.AUX_BR_VDS_BLANK x + 1) * 250 * nsQ := by
  unfold State.vdsBlankEnd
  rw [show 144 + 6 * x + i = 6 * (24 + x) + i by omega]

section Vds
variable {s v : State} {t : Instant} {x i : Nat} {mv : Int} (hs : (s.start t).sealed = true) (hx : x < 4) (hi : i < 6)
  (hv : v = (s.start t).advance (24 + x) (s.start t).pwmQ) (hpin : (v.chan (6 * (24 + x) + i)).pin = true) (habove : v.vdsAbove x i mv = true)
include hs hx hi hv hpin habove

theorem exec_vdsFault {since : Instant} (hlive : v.bitF R.AUX_BR_STAT_VDS_LIVE i x = false)
    (hdue : v.vdsDeclared x i (v.pwmQ - (v.now - since)) = true) : exec (.vdsFault t x i since mv) s = .next (v.vdsTaken x i) := by
  subst hv
  refine congrArg Host.Outcome.next ((State.doIf_of (by rw [hs, decide_eq_true hx, decide_eq_true hi]; rfl)).trans (if_pos ?_))
  rw [hpin, habove, hdue, hlive]
  rfl

theorem exec_vdsBlankedRising (hblank : v.pwmQ < v.vdsBlankEnd x i) : exec (.vdsBlankedRising t x i mv) s = .next (v.incF R.AUX_BR_CNT_BLANKED 1 x) := by
  subst hv
  refine congrArg Host.Outcome.next ((State.doIf_of (by rw [hs, decide_eq_true hx, decide_eq_true hi]; rfl)).trans (State.doIf_of ?_))
  rw [hpin, habove, decide_eq_true hblank]
  rfl

end Vds

/-- A rise inside blanking counts, and is no fault. -/
theorem vdsBlanked_counts (u : State) {x : Nat} (i q : Nat) (hx : x < 4) :
    let s' := (u.advance (24 + x) q).incF R.AUX_BR_CNT_BLANKED 1 x
    s'.f R.AUX_BR_CNT_BLANKED x = min (u.f R.AUX_BR_CNT_BLANKED x + 1) 65535
      ∧ s'.bitF R.AUX_BR_STAT_VDS_FLT i x = u.bitF R.AUX_BR_STAT_VDS_FLT i x := by
  have hbefore : Calms u (u.advance (24 + x) q) := calm_advance (by omega)
  have hkey : R.AUX_BR_STAT_VDS_FLT.key x 0 ≠ R.AUX_BR_CNT_BLANKED.key x 0 := by
    simp only [FRef.key, R.AUX_BR_STAT_VDS_FLT, R.AUX_BR_CNT_BLANKED]
    omega
  constructor
  · rw [f_incF_same _ _ _ _ _ (by decide), hbefore.f_eq (n := 4) (by decide) hx]
    rfl
  · exact (bitF_of_f (f_setF_key _ _ hkey)).trans (hbefore.bitF_eq (n := 4) _ (by decide) hx)

/-! ## The under-voltage of VGD (R244) -/

/-- Both bits of VGD stand: what goes before them does not matter, and what follows are pins and the matrix. -/
theorem vgdDown_bits (s : State) : s.vgdDown.b R.AUX_CTL_VGD_UV = true ∧ s.vgdDown.b R.AUX_CTL_VGD_UV_SEEN = true := by
  unfold State.vgdDown
  dsimp only
  generalize List.foldl _ s [24, 25, 26, 27] = v
  have hlater (w : State) : Calms w ([24, 25, 26, 27].foldl (fun s T => s.settlePins T) w).settle :=
    (Calms.foldl (Calms.refl w) fun _ _ _ => calm_settlePins).trans calm_settle
  constructor
  · rw [(hlater _).b_eq (n := 1) (by decide) (by decide), b_raise _ _ _ _ _ _ _ _ _ _ (by decide) (Or.inr (Or.inr (by decide))),
      b_setB_same _ _ _ _ _ (by decide)]
  · rw [(hlater _).b_eq (n := 1) (by decide) (by decide), b_raise_same _ _ _ _ _ _ _ (by decide) (by decide)]

theorem exec_vgdUv {s : State} {t : Instant} (hs : (s.start t).sealed = true) (huv : (s.start t).b R.AUX_CTL_VGD_UV = false) :
    exec (.vgdUv t) s = .next (s.start t).vgdDown := congrArg Host.Outcome.next (State.doIf_of (by rw [hs, huv]; rfl))

theorem exec_vgdUvRelease {s : State} {t : Instant} (hs : (s.start t).sealed = true) (huv : (s.start t).b R.AUX_CTL_VGD_UV = true) :
    exec (.vgdUvRelease t) s = .next ((s.start t).setB R.AUX_CTL_VGD_UV false).settle :=
  congrArg Host.Outcome.next (State.doIf_of (by rw [hs, huv]; rfl))

/-- The release clears the line alone. -/
theorem vgdUvRelease_bits (u : State) : (u.setB R.AUX_CTL_VGD_UV false).settle.b R.AUX_CTL_VGD_UV = false
    ∧ (u.setB R.AUX_CTL_VGD_UV false).settle.b R.AUX_CTL_VGD_UV_SEEN = u.b R.AUX_CTL_VGD_UV_SEEN := by
  constructor
  · rw [calm_settle.b_eq (n := 1) (by decide) (by decide), b_setB_same _ _ _ _ _ (by decide)]
  · rw [calm_settle.b_eq (n := 1) (by decide) (by decide), b_setB_bits _ _ _ _ _ _ (by decide)]

/-! ## Comparators (R264) -/

theorem lineSeen_cmp : LineSeen R.TRIP_CMP_STAT_LIVE R.TRIP_CMP_STAT_SEEN := by unfold LineSeen; decide

/-- A comparator trips: its line and its SEEN bit. -/
abbrev State.cmpRaised (s : State) (c : Nat) : State := s.lineRaised R.TRIP_CMP_STAT_LIVE R.TRIP_CMP_STAT_SEEN c 0 E.CMP_TRIP (subject c)

/-- A comparator that trips stands in its line and in SEEN, whose rise has been reported. -/
theorem cmpTrip_seen (u : State) {c : Nat} (hc : c < 16) (hroom : u.room) :
    (u.cmpRaised c).settle.bitF R.TRIP_CMP_STAT_LIVE c = true
      ∧ BitSeen u (u.cmpRaised c).settle R.TRIP_CMP_STAT_SEEN c 0 E.CMP_TRIP (subject c) := by
  constructor
  · rw [calm_settle.bitF_eq (n := 1) _ (by decide) (by decide), lineRaised_line lineSeen_cmp u hc]
  · exact bitSeen_lineRaised lineSeen_cmp hc hroom (QExt.refl u) rfl rfl calm_settle.q (calm_settle.f_eq (n := 1) (by decide) (by decide))

/-- A release clears the comparator's line; what has been seen stays. -/
theorem cmpRelease_live (u : State) {c : Nat} (hc : c < 16) :
    (u.setBitF R.TRIP_CMP_STAT_LIVE c false).settle.bitF R.TRIP_CMP_STAT_LIVE c = false
      ∧ (u.setBitF R.TRIP_CMP_STAT_LIVE c false).settle.bitF R.TRIP_CMP_STAT_SEEN c = u.bitF R.TRIP_CMP_STAT_SEEN c := by
  constructor
  · rw [calm_settle.bitF_eq (n := 1) _ (by decide) (by decide), bitF_setBitF _ _ _ _ _ _ _ (by decide) hc, if_pos rfl]
  · rw [calm_settle.bitF_eq (n := 1) _ (by decide) (by decide), bitF_setBitF_line lineSeen_cmp]

section Comparator
variable {s : State} {t : Instant} {c : Nat} {since : Instant} {v : Int} (hs : (s.start t).sealed = true) (hc : c < 16)
  (hen : (s.start t).b R.TRIP_CMP_CFG_EN c = true) (hfilt : (s.start t).filtered since ((s.start t).f R.TRIP_CMP_CFG_CFILT c) = true)
include hs hc hen hfilt

theorem exec_cmpTrip (hlive : (s.start t).bitF R.TRIP_CMP_STAT_LIVE c = false) (hv : (s.start t).cmpBeyond c v = true) :
    exec (.cmpTrip t c ((s.start t).f R.TRIP_CMP_CFG_AIN c) since v) s = .next ((s.start t).cmpRaised c).settle :=
  congrArg Host.Outcome.next (State.doIf_of (by rw [hs, hen, hlive, hv, hfilt, decide_eq_true hc, beq_self_eq_true]; rfl))

theorem exec_cmpRelease (hlive : (s.start t).bitF R.TRIP_CMP_STAT_LIVE c = true) (hv : (s.start t).cmpBack c v = true) :
    exec (.cmpRelease t c ((s.start t).f R.TRIP_CMP_CFG_AIN c) since v) s = .next ((s.start t).setBitF R.TRIP_CMP_STAT_LIVE c false).settle :=
  congrArg Host.Outcome.next (State.doIf_of (by rw [hs, hen, hlive, hv, hfilt, decide_eq_true hc, beq_self_eq_true]; rfl))

end Comparator

/-- A comparison of a comparator, by its polarity. -/
theorem decide_byPol {pol : Bool} {P Q : Prop} [Decidable P] [Decidable Q] (h : if pol then P else Q) :
    (if pol then decide P else decide Q) = true := by
  cases pol <;> exact decide_eq_true h

/-- Settles O37: each command sets or clears its bits between changes of the plant side, which leave those bits as they are. -/
theorem tripSourcesSetTheirLines : Obligations.TripSourcesSetTheirLines := by
  unfold Obligations.TripSourcesSetTheirLines
  rintro s u t rfl hs
  refine ⟨?_, ?_, ?_, ?_, ?_, ?_, ?_⟩
  · intro ch level since hch hen fault hnew hfilt hroom
    exact faultReturn_lines hs hch hen rfl hnew hfilt hroom
  · intro x k hx hk hlive hroom
    obtain ⟨hset, hany, hseen, hposts⟩ := bootTaken_seen (s.start t) hx hk hroom
    exact ⟨_, exec_bootUv hs hx hk hlive, hset, hseen, hany, hposts⟩
  · intro x k hx hk hlive
    obtain ⟨hlines, hseen⟩ := bootUvRelease_live (s.start t) hx hk
    exact ⟨_, exec_bootUvRelease hs hx hk hlive, (hlines k).trans (if_pos rfl), fun j _ hj => (hlines j).trans (if_neg hj), hseen⟩
  · intro x i v hx hi hv c blankEnd above
    have hend : v.vdsBlankEnd x i = blankEnd := vdsBlankEnd_eq v x i
    refine ⟨fun since mv hpin habove hlive hroom hdue => ⟨_, exec_vdsFault hs hx hi hv hpin (decide_eq_true habove) hlive ?_, ?_⟩,
      fun mv hpin habove hblank => ⟨_, exec_vdsBlankedRising hs hx hi hv hpin (decide_eq_true habove) (by rw [hend]; exact hblank), ?_⟩⟩
    · unfold State.vdsDeclared
      rw [hend]
      exact decide_eq_true hdue
    · subst hv
      exact vdsTaken_seen (s.start t) _ hx hi hroom
    · subst hv
      obtain ⟨hcount, hflt⟩ := vdsBlanked_counts (s.start t) i (s.start t).pwmQ hx
      exact ⟨hcount, hflt, State.incF_sys ..⟩
  · exact fun huv => ⟨_, exec_vgdUv hs huv, vgdDown_bits _⟩
  · exact fun huv => ⟨_, exec_vgdUvRelease hs huv, vgdUvRelease_bits _⟩
  · intro c since v hc hen hfilt thr hys pol
    refine ⟨fun hlive hbeyond hroom => ?_, fun hlive hback =>
      ⟨_, exec_cmpRelease hs hc hen (decide_eq_true hfilt) hlive (decide_byPol hback), cmpRelease_live _ hc⟩⟩
    obtain ⟨hset, hseen, hposts⟩ := cmpTrip_seen (s.start t) hc hroom
    exact ⟨_, exec_cmpTrip hs hc hen (decide_eq_true hfilt) hlive (decide_byPol hbeyond), hset, hseen, hposts⟩

end Sys2Proof.Machine
end

section
/-! PROOFS. O39. The life model: records (R265), its step (R266) and its save (R270). -/
namespace Sys2Proof.Machine

theorem lifeRec_setLifeRec_same (s : State) (T : Nat) (r : LifeRec) : (s.setLifeRec T r).lifeRec T = r := kget_kset_same ..
theorem lifeRec_setLifeRec_other (s : State) {T T' : Nat} (r : LifeRec) (h : T' ≠ T) : (s.setLifeRec T r).lifeRec T' = s.lifeRec T' :=
  kget_kset_other _ _ _ h

/-- Of TRIP at most the estimates of the positions change. -/
def PositionsOnly (s s' : State) : Prop := s'.trip = { s.trip with life := s'.trip.life }

theorem PositionsOnly.of_trip {s s' : State} (h : s'.trip = s.trip) : PositionsOnly s s' := by unfold PositionsOnly; rw [h]

theorem PositionsOnly.trans {s u v : State} (h : PositionsOnly s u) (h' : PositionsOnly u v) : PositionsOnly s v := by
  unfold PositionsOnly at h h' ⊢
  rw [h', h]

theorem PositionsOnly.doIf {s : State} {c : Bool} {g : State → State} (h : PositionsOnly s (g s)) : PositionsOnly s (s.doIf c g) := by
  cases c with
  | true => exact h
  | false => exact .of_trip rfl

theorem PositionsOnly.foldl {α : Type} {f : State → α → State} (hf : ∀ u x, PositionsOnly u (f u x)) (l : List α) (s : State) :
    PositionsOnly s (l.foldl f s) :=
  foldl_inv (P := PositionsOnly s) l s (.of_trip rfl) fun u x h => h.trans (hf u x)

theorem PositionsOnly.lifeRec {s s' : State} (h : PositionsOnly s s') (T : Nat) : s'.lifeRec T = s.lifeRec T := by
  unfold State.lifeRec; rw [h]

theorem positionsOnly_setLifePos (s : State) (p : Nat) (x : LifePos) : PositionsOnly s (s.setLifePos p x) := rfl

theorem positionsOnly_post (s : State) (e : Ev) (a : Nat) (w0 w1 : Word) : PositionsOnly s (s.post e a w0 w1) := .of_trip (State.post_trip ..)

theorem positionsOnly_lifeWarn (s : State) (p : Nat) : PositionsOnly s (s.lifeWarn p) :=
  have warning (c : Bool) (u : State) (e : Ev) (a : Nat) (w : Word) : PositionsOnly u (u.doIf c (·.post e a w)) := .doIf (positionsOnly_post ..)
  (((warning ..).trans (warning ..)).trans (warning ..)).trans (positionsOnly_setLifePos ..)

theorem positionsOnly_lifePosStep (s : State) (T i : Nat) (tref : Rat) : PositionsOnly s (s.lifePosStep T i tref) := by
  unfold State.lifePosStep
  dsimp only
  split
  · exact .of_trip rfl
  · exact (positionsOnly_setLifePos ..).trans (positionsOnly_lifeWarn ..)

/-- A record after its use in a step (R265): once fresh, then again, and stale with the eighth time. -/
def LifeRec.used (r : LifeRec) : LifeRec :=
  if r.stale then r
  else
    let n := if r.fresh then 0 else r.reused + 1
    { r with fresh := false, reused := n, stale := n == 8 }

/-- The step of a target uses its record; past that, it changes estimates alone. -/
theorem positionsOnly_lifeTarget (s : State) (tref : Rat) (T : Nat) (h : (s.lifeRec T).stale = false) :
    PositionsOnly (s.setLifeRec T (s.lifeRec T).used) (s.lifeTarget tref T) := by
  unfold LifeRec.used State.lifeTarget
  simp only [h, Bool.false_eq_true, if_false]
  refine (PositionsOnly.foldl (fun u i => positionsOnly_lifePosStep u T i tref) _ _).trans (.doIf ?_)
  exact (positionsOnly_post ..).trans (.foldl (fun u i => .doIf (positionsOnly_setLifePos ..)) _ _)

/-- The step of a target with a stale record does nothing. -/
theorem lifeTarget_stale {s : State} (tref : Rat) {T : Nat} (h : (s.lifeRec T).stale = true) : s.lifeTarget tref T = s := if_pos h

/-- Of TRIP at most the estimates and the records change. -/
def EstimatesOnly (s s' : State) : Prop := s'.trip = { s.trip with life := s'.trip.life, lifeRecs := s'.trip.lifeRecs }

theorem estimatesOnly_lifeTarget (s : State) (tref : Rat) (T : Nat) : EstimatesOnly s (s.lifeTarget tref T) := by
  cases h : (s.lifeRec T).stale with
  | true => rw [lifeTarget_stale tref h]; rfl
  | false =>
    have hpos := positionsOnly_lifeTarget s tref T h
    unfold PositionsOnly at hpos
    unfold EstimatesOnly
    rw [hpos]; rfl

theorem lifeRec_lifeTarget_same (s : State) (tref : Rat) (T : Nat) : (s.lifeTarget tref T).lifeRec T = (s.lifeRec T).used := by
  cases h : (s.lifeRec T).stale with
  | true => rw [lifeTarget_stale tref h]; exact (if_pos h).symm
  | false => rw [(positionsOnly_lifeTarget s tref T h).lifeRec, lifeRec_setLifeRec_same]

theorem lifeRec_lifeTarget_other (s : State) (tref : Rat) {T T' : Nat} (hne : T' ≠ T) : (s.lifeTarget tref T).lifeRec T' = s.lifeRec T' := by
  cases h : (s.lifeRec T).stale with
  | true => rw [lifeTarget_stale tref h]
  | false => rw [(positionsOnly_lifeTarget s tref T h).lifeRec, lifeRec_setLifeRec_other _ _ hne]

theorem estimatesOnly_foldl_lifeTarget (tref : Rat) (l : List Nat) (s : State) :
    EstimatesOnly s (l.foldl (fun s T => s.lifeTarget tref T) s) :=
  foldl_inv (P := EstimatesOnly s) l s rfl fun u T h => by
    have hstep := estimatesOnly_lifeTarget u tref T
    unfold EstimatesOnly at h hstep ⊢
    rw [hstep, h]

/-- Steps of other targets leave a record. -/
theorem lifeRec_foldl_lifeTarget_other (tref : Rat) {l : List Nat} {T : Nat} (hT : T ∉ l) (s : State) :
    (l.foldl (fun s T => s.lifeTarget tref T) s).lifeRec T = s.lifeRec T := by
  induction l generalizing s with
  | nil => rfl
  | cons U l ih =>
    obtain ⟨hne, hl⟩ := List.ne_and_not_mem_of_not_mem_cons hT
    exact (ih hl _).trans (lifeRec_lifeTarget_other s tref hne)

/-- Steps of distinct targets use the record of each once. -/
theorem lifeRec_foldl_lifeTarget (tref : Rat) {l : List Nat} (hl : l.Nodup) {T : Nat} (hT : T ∈ l) (s : State) :
    (l.foldl (fun s T => s.lifeTarget tref T) s).lifeRec T = (s.lifeRec T).used := by
  induction l generalizing s with
  | nil => exact nomatch hT
  | cons U l ih =>
    obtain ⟨hU, hl⟩ := List.nodup_cons.mp hl
    rw [List.foldl_cons]
    by_cases hTU : T = U
    · subst hTU
      rw [lifeRec_foldl_lifeTarget_other tref hU, lifeRec_lifeTarget_same]
    · rw [ih hl (List.mem_of_ne_of_mem hTU hT), lifeRec_lifeTarget_other s tref hTU]

theorem lifeCfg_targets_nodup (c : LifeCfg) : c.targets.Nodup := List.nodup_range.filter _

/-- The highest temperatures go to the contexts as flits, and TRIP stays. -/
theorem trip_foldl_lifeSend (l : List Nat) (s : State) : (l.foldl (fun s B => s.lifeSend B) s).trip = s.trip :=
  foldl_inv (P := fun x => x.trip = s.trip) l s rfl fun _ _ h => (tch_lifeSend.1 .trip (by decide)).trans h

/-- The time of the life model moves by T_LM, and the reference temperature is read (R266). -/
abbrev State.lifeTick (s : State) : State :=
  { s with trip := { s.trip with lifeLastStep := s.now, lifeTime := s.trip.lifeTime + (s.trip.lifeCfg.tLm : Rat) / 1000000, lifeRef := s.lifeTref } }

/-- The targets of the model take one step each. -/
abbrev State.lifeTargets (s : State) : State := s.trip.lifeCfg.targets.foldl (fun u T => u.lifeTarget s.lifeTref T) s.lifeTick

/-- A step that is due. -/
abbrev State.lifeStepped (s : State) : State :=
  (s.lifeTargets.bridges.filter fun B => s.trip.lifeCfg.targets.any fun T => s.lifeTargets.bridge T == B).foldl (fun s B => s.lifeSend B)
    s.lifeTargets

/-- After a step the time and the reference stand as its begin leaves them, and the records as the targets' steps do. -/
theorem lifeStepped_trip (s : State) : s.lifeStepped.trip.lifeLastStep = s.now
    ∧ s.lifeStepped.trip.lifeTime = s.trip.lifeTime + (s.trip.lifeCfg.tLm : Rat) / 1000000 ∧ s.lifeStepped.trip.lifeRef = s.lifeTref
    ∧ ∀ T ∈ s.trip.lifeCfg.targets, s.lifeStepped.lifeRec T = (s.lifeRec T).used := by
  have hsend : s.lifeStepped.trip = s.lifeTargets.trip := trip_foldl_lifeSend _ _
  have hest : EstimatesOnly s.lifeTick s.lifeTargets := estimatesOnly_foldl_lifeTarget _ _ _
  have htrip := hsend.trans hest
  refine ⟨by rw [htrip], by rw [htrip], by rw [htrip], fun T hT => ?_⟩
  unfold State.lifeRec
  rw [hsend]
  exact lifeRec_foldl_lifeTarget s.lifeTref (lifeCfg_targets_nodup _) hT s.lifeTick

/-- A save that is done: the records stand in flash, and the highest Tj of each position begins again. -/
abbrev State.lifeSaved (s : State) : State :=
  s.trip.life.foldl (fun s x => s.setLifePos x.1 { x.2 with maxTj := x.2.tj }) s.saveRecords

/-- The highest Tj that begin again are estimates, which no saved record follows. -/
theorem lifeSaved_eq (s : State) : s.lifeSaved = { s.saveRecords with trip := { s.saveRecords.trip with life := s.lifeSaved.trip.life } } :=
  foldl_inv (P := fun u => u = { s.saveRecords with trip := { s.saveRecords.trip with life := u.trip.life } }) _ _ rfl
    fun u x h => by rw [h]; rfl

section Life
variable {s : State} {t : Instant} (hs : (s.start t).sealed = true) (hp : (s.start t).trip.lifeCfg.present = true)
include hs hp

theorem exec_lifeRecord {T : Nat} (r : LifeIn) (span : Nat) (hT : T < 28) : exec (.lifeRecord t T r span) s = .next ((s.start t).setLifeRec T
    { cur := r.cur, vdc := r.vdc, duty := r.duty, edges := r.edges, span := secs span, fresh := true }) :=
  congrArg Host.Outcome.next (State.doIf_of (by rw [hs, hp, decide_eq_true hT]; rfl))

theorem exec_lifeStep (hdue : (s.start t).trip.lifeLastStep + (s.start t).trip.lifeCfg.tLm * usQ ≤ (s.start t).now) :
    exec (.lifeStep t) s = .next (s.start t).lifeStepped :=
  congrArg Host.Outcome.next (State.doIf_of (by rw [hs, hp, decide_eq_true hdue]; rfl))

theorem exec_lifeSave (hdue : (s.start t).trip.lifeLastSave + (s.start t).trip.lifeCfg.saveInt * 60 * secQ ≤ (s.start t).now) :
    exec (.lifeSave t) s = .next (s.start t).lifeSaved :=
  congrArg Host.Outcome.next (State.doIf_of (by rw [hs, hp, decide_eq_true hdue]; rfl))

end Life

/-- Settles O39: the record by its own key, the step target by target, the save by what the flash then holds. -/
theorem lifeModelStepsAndSaves : Obligations.LifeModelStepsAndSaves := by
  unfold Obligations.LifeModelStepsAndSaves
  rintro s u t rfl hs hp
  refine ⟨fun T r span hT => ⟨_, exec_lifeRecord hs hp r span hT, lifeRec_setLifeRec_same .., fun T' hne => lifeRec_setLifeRec_other _ _ hne, rfl, rfl⟩,
    fun hdue => ⟨_, exec_lifeStep hs hp hdue, lifeStepped_trip _⟩,
    fun hdue => ⟨_, exec_lifeSave hs hp hdue, ?_⟩⟩
  rw [lifeSaved_eq]
  exact ⟨rfl, rfl, rfl, rfl, rfl⟩

end Sys2Proof.Machine
end

section
/-! PROOFS. O2, O3. What every step keeps (R324, R531, R533). -/
namespace Sys2Proof.Machine

/-- Settles O2: the reset words are listed in the order of their keys, and what every step keeps can be computed of the rest. -/
theorem resetKeepsInvariant : Obligations.ResetKeepsInvariant := by
  unfold Obligations.ResetKeepsInvariant
  refine ⟨fun b => ?_, ⟨rfl, rfl, rfl⟩, ⟨by decide, by decide, by decide⟩, fun _ => rfl⟩
  cases b <;> decide

theorem Inv.start {s : State} (h : Inv s) (t : Instant) : Inv (s.start t) := ⟨h.regs, h.sea, h.sys, h.tap⟩

theorem Inv.takeFront {s : State} (h : Inv s) (cs : List Instr) : Inv { s with pending := cs } := ⟨h.regs, h.sea, h.sys, h.tap⟩

/-- A command keeps what every step keeps. -/
theorem exec_keeps_inv {c : Instr} {s s' : State} (h : Inv s) (hexec : exec c s = .next s') : Inv s' := by
  have htouch := exec_touches c s
  rw [hexec] at htouch
  exact htouch.2.1 (h.start c.time)

/-- Settles O3: the invariant goes with every change that Laws/ says what it touches, and a command is such a change. -/
theorem stepKeepsInvariant : Obligations.StepKeepsInvariant := by
  unfold Obligations.StepKeepsInvariant
  intro s s' hinv hstep
  unfold step at hstep
  split at hstep
  case h_1 => cases hstep; exact hinv
  case h_2 c cs _ => exact exec_keeps_inv (hinv.takeFront cs) hstep

end Sys2Proof.Machine
end

section
/-! PROOFS. O15. What the TAP selects, and what it drives (R324). -/
namespace Sys2Proof.Machine

/-- Levels that go to the pins change the outputs alone. -/
theorem drivePins_eq (s : State) (cells : List (Nat × Bool)) :
    s.drivePins cells = { s with out := s.out ++ cells.map fun c => .pin c.1 c.2 } := by
  unfold State.drivePins
  induction cells generalizing s with
  | nil => simp
  | cons c cells ih => rw [List.foldl_cons, ih]; simp [State.emit]

theorem drivePins_tap (s : State) (cells : List (Nat × Bool)) : (s.drivePins cells).tap = s.tap := by rw [drivePins_eq]

/-- The levels that the TAP holds with an instruction. -/
def TapSt.held (x : TapSt) (cells : List (Nat × Bool)) : TapInstr → List (Nat × Bool)
  | .preload | .extest => cells.filter fun c => decide (c.1 < 168)
  | _ => x.cells

/-- The TAP once it has loaded what it selects. -/
def State.tapLoaded (s : State) (i : TapInstr) (cells : List (Nat × Bool)) : State :=
  { s with tap := { instr := s.tapSelects i, cells := s.tap.held cells (s.tapSelects i) } }

section Tap
variable {s : State} {t : Instant} {i : TapInstr} {cells : List (Nat × Bool)}

/-- An instruction that drives the pins brings them the levels held. -/
theorem exec_tapInstruction_drives (h : tapDrives ((s.start t).tapSelects i) = true) :
    exec (.tapInstruction t i cells) s
      = .next (((s.start t).tapLoaded i cells).drivePins ((s.start t).tapLoaded i cells).tap.cells) :=
  congrArg Host.Outcome.next (if_pos h)

/-- Another one lets go of the pins that were driven. -/
theorem exec_tapInstruction_releases (h : tapDrives ((s.start t).tapSelects i) = false) :
    exec (.tapInstruction t i cells) s = .next (((s.start t).tapLoaded i cells).doIf (tapDrives s.tap.instr && s.pwr.porst)
      (·.drivePins ((s.tap.cells.filter (·.2)).map fun c => (c.1, false)))) :=
  congrArg Host.Outcome.next (if_neg (by rw [h]; exact Bool.false_ne_true))

theorem tapInstruction_selects {j : TapInstr} (hsel : (s.start t).tapSelects i = j) :
    Runs (.tapInstruction t i cells) s fun s' => s'.tap.instr = j := by
  subst hsel
  cases hdrives : tapDrives ((s.start t).tapSelects i) with
  | true => exact ⟨_, exec_tapInstruction_drives hdrives, congrArg TapSt.instr (drivePins_tap ..)⟩
  | false =>
    refine ⟨_, exec_tapInstruction_releases hdrives, ?_⟩
    unfold State.doIf
    split
    · rw [drivePins_tap]; rfl
    · rfl

/-- An instruction that takes the pins is selected only while PORST_N is low. -/
theorem tapSelects_pins (h : i ∈ [.extest, .clamp, .highz]) : s.tapSelects i = if s.pwr.porst then i else .bypass := by
  simp only [List.mem_cons, List.not_mem_nil, or_false] at h
  obtain rfl | rfl | rfl := h <;> rfl

/-- With PORST_N high no pin is driven in its place. -/
theorem tapInstruction_refused (hi : i ∈ [.extest, .clamp, .highz]) (hp : s.pwr.porst = false) :
    Runs (.tapInstruction t i cells) s fun s' => s'.tap.instr = .bypass ∧ s'.out = [] := by
  have hsel : (s.start t).tapSelects i = .bypass := by rw [tapSelects_pins hi, State.start_pwr, hp]; rfl
  refine ⟨_, exec_tapInstruction_releases (by rw [hsel]; rfl), ?_⟩
  rw [State.doIf_not (by rw [hp, Bool.and_false])]
  exact ⟨hsel, rfl⟩

/-- EXTEST with PORST_N low drives each pin to the level of its cell. -/
theorem tapInstruction_extest (hp : s.pwr.porst = true) (hc : ∀ c ∈ cells, c.1 < 168) :
    Runs (.tapInstruction t .extest cells) s fun s' => s'.out = cells.map fun c => .pin c.1 c.2 := by
  have hsel : (s.start t).tapSelects .extest = .extest := if_pos hp
  have hheld : ((s.start t).tapLoaded .extest cells).tap.cells = cells := by
    unfold State.tapLoaded
    rw [hsel]
    exact List.filter_eq_self.mpr fun c hmem => decide_eq_true (hc c hmem)
  refine ⟨_, exec_tapInstruction_drives (by rw [hsel]; rfl), ?_⟩
  rw [hheld, drivePins_eq]
  exact List.nil_append _

/-- An instruction of the part's own tests is selected only once a debug path is open. -/
theorem tapSelects_priv (n : Nat) :
    s.tapSelects (.priv n) = if s.b R.HUSK_DBG_STAT_KDBG_OPEN || s.b R.HUSK_DBG_STAT_VTEST_OPEN then .priv n else .bypass := rfl

/-- The other instructions are selected at any time. -/
theorem tapSelects_always (hi : i ∈ [.bypass, .idcode, .preload]) : s.tapSelects i = i := by
  simp only [List.mem_cons, List.not_mem_nil, or_false] at hi
  obtain rfl | rfl | rfl := hi <;> rfl

end Tap

/-- Settles O15: an instruction by what the TAP selects for it, and the pins by the cells that it holds. -/
theorem tapSelectsBypassInstead : Obligations.TapSelectsBypassInstead := by
  unfold Obligations.TapSelectsBypassInstead
  intro s t i cells
  refine ⟨tapInstruction_refused, fun hi hp => tapInstruction_selects ?_, tapInstruction_extest,
    fun n hi hk hv => tapInstruction_selects ?_, fun hi => tapInstruction_selects (tapSelects_always hi)⟩
  · rw [tapSelects_pins hi, State.start_pwr, hp, if_pos rfl]
  · rw [hi, tapSelects_priv, b_start, b_start, hk, hv, Bool.or_false, if_neg Bool.false_ne_true]

end Sys2Proof.Machine
end

section
/-! PROOFS. O45. Debug paths and consent (R323, R325), the one-time fuses (R329), and the security version (R332). -/
namespace Sys2Proof.Machine

/-! ## Commands that a register write brings -/

/-- What a command does past the write that brings it, once the husk has let that write through. -/
theorem action_passes {a : State × Bool} {w : State} (h : a = (w, true)) (act : State → Bool → State) :
    (.next (act a.1 a.2) : Res) = .next (act w true) := by rw [h]

/-- The domain of an access through a function follows the function's session, LIFECYCLE and the base domain of PF0 alone. -/
theorem domainOf_of_eq {s s' : State} {fn : Nat}
    (hsess : s'.word .husk (R.HUSK_SESS_STAT_PHASE.key 0 fn) = s.word .husk (R.HUSK_SESS_STAT_PHASE.key 0 fn))
    (hlife : s'.f R.HUSK_ID_LIFECYCLE = s.f R.HUSK_ID_LIFECYCLE) (hbase : s'.husk.pf0Base = s.husk.pf0Base) :
    s'.domainOf fn = s.domainOf fn := by
  have hphase : s'.sessionOpen fn = s.sessionOpen fn := congrArg (fun w => getBits w 25 24 == 2) hsess
  have hdom : s'.f R.HUSK_SESS_STAT_DOMAIN 0 fn = s.f R.HUSK_SESS_STAT_DOMAIN 0 fn := congrArg (getBits · 31 29) hsess
  unfold State.domainOf State.baseDomain
  rw [hphase, hdom, hlife, hbase]

section Action
variable {s w : State} {t : Instant} {fn : Nat} {data : Word}

/-! ## Debug paths and consent -/

theorem exec_kdbg (h : (s.start t).actionWrite fn R.HUSK_DBG_CTL_KDBG data = (w, true)) :
    exec (.kdbg t fn data) s = .next (w.doIf (w.kdbgAllowed fn) (·.openDebug R.HUSK_DBG_STAT_KDBG_OPEN fn)) :=
  action_passes h fun s go => s.doIf (go && s.kdbgAllowed fn) (·.openDebug R.HUSK_DBG_STAT_KDBG_OPEN fn)

theorem exec_vtest (h : (s.start t).actionWrite fn R.HUSK_DBG_CTL_VTEST data = (w, true)) :
    exec (.vtest t fn data) s = .next (w.doIf (w.f R.HUSK_ID_LIFECYCLE == lcReturned && w.sessionOpen fn)
      (·.openDebug R.HUSK_DBG_STAT_VTEST_OPEN fn)) :=
  action_passes h fun s go => s.doIf (go && s.f R.HUSK_ID_LIFECYCLE == lcReturned && s.sessionOpen fn)
    (·.openDebug R.HUSK_DBG_STAT_VTEST_OPEN fn)

theorem exec_give (h : (s.start t).actionWrite fn R.HUSK_DBG_CONSENT_GIVE data = (w, true)) :
    exec (.give t fn data) s = .next (if getBits data 30 30 = 1 then w.withdraw fn else w.give fn) :=
  (action_passes h fun s go => s.doIf go fun s => if getBits data 30 30 = 1 then s.withdraw fn else s.give fn).trans
    (congrArg Host.Outcome.next (State.doIf_true ..))

theorem exec_withdraw (h : (s.start t).actionWrite fn R.HUSK_DBG_CONSENT_WITHDRAW data = (w, true)) :
    exec (.withdraw t fn data) s = .next (w.withdraw fn) :=
  (action_passes h fun s go => s.doIf go (·.withdraw fn)).trans (congrArg Host.Outcome.next (State.doIf_true ..))

/-- An opened debug path shows in its bit, and is reported. -/
theorem openDebug_facts (w : State) (r : FRef) (fn : Nat) (hr : r.lo = r.hi ∧ r.hi < 32) (hb : r.blk = .husk) (hroom : w.room) :
    (w.openDebug r fn).b r = true ∧ Reports w (w.openDebug r fn) E.DBG_UNLOCK (subject 0 0 fn (w.domainOf fn)) := by
  have htouch : Touches 2 w (w.setB r true) := tch_setB.mono (by rw [hb]; decide)
  unfold State.openDebug
  exact ⟨by rw [b_post _ _ _ _ _ _ _ _ (by rw [hb]; decide), b_setB_same _ _ _ _ _ hr], htouch.reports (by decide) (by decide) hroom ..⟩

theorem kdbgAllowed_deployed (hlc : w.f R.HUSK_ID_LIFECYCLE = lcDeployed) :
    w.kdbgAllowed fn = (w.sessionOpen fn && w.domainOf fn == domOem && w.b R.HUSK_DBG_STAT_CONSENT) := if_pos hlc

theorem kdbgAllowed_oemOpen (hlc : w.f R.HUSK_ID_LIFECYCLE = lcOemOpen) : w.kdbgAllowed fn = (fn == 0 && !w.sessionOpen fn) := by
  unfold State.kdbgAllowed
  rw [hlc]
  rfl

/-- CONSENT and the end of consent, which change together. -/
def State.setConsent (s : State) (v : Bool) (q : Instant) : State :=
  { s.setB R.HUSK_DBG_STAT_CONSENT v with husk := { s.husk with consentEnd := q } }

theorem tch_setConsent (s : State) (v : Bool) (q : Instant) : Touches 131074 s (s.setConsent v q) :=
  Touches.upd_husk (by decide) (tch_setB.mono (by decide))

theorem setConsent_bits (s : State) (v : Bool) (q : Instant) : (s.setConsent v q).b R.HUSK_DBG_STAT_CONSENT = v
    ∧ (s.setConsent v q).b R.HUSK_DBG_STAT_KDBG_OPEN = s.b R.HUSK_DBG_STAT_KDBG_OPEN := by
  unfold State.setConsent
  exact ⟨by rw [b_upd_husk, b_setB_same _ _ _ _ _ (by decide)], by rw [b_upd_husk, b_setB_bits _ _ _ _ _ _ (by decide)]⟩

theorem give_eq (w : State) (fn : Nat) : w.give fn
    = (w.setConsent true (w.now + 600 * secQ)).post E.CONSENT_GIVEN (subject 0 0 fn (w.domainOf fn)) := rfl

/-- Consent given stands for 600 s. -/
theorem give_facts (w : State) (fn : Nat) (hroom : w.room) :
    (w.give fn).b R.HUSK_DBG_STAT_CONSENT = true ∧ (w.give fn).husk.consentEnd = w.now + 600 * secQ
      ∧ Reports w (w.give fn) E.CONSENT_GIVEN (subject 0 0 fn (w.domainOf fn)) := by
  rw [give_eq]
  refine ⟨?_, by rw [State.post_husk]; rfl, (tch_setConsent ..).reports (by decide) (by decide) hroom ..⟩
  rw [b_post _ _ _ _ _ _ _ _ (by decide), (setConsent_bits ..).1]

/-- A withdrawal while KDBG is open closes it and reports it. -/
theorem withdraw_open (h : w.b R.HUSK_DBG_STAT_KDBG_OPEN = true) : w.withdraw fn
    = ((w.setConsent false 0).setB R.HUSK_DBG_STAT_KDBG_OPEN false).post E.DBG_CLOSED (subject 0 0 fn (w.domainOf fn)) := by
  unfold State.withdraw State.setConsent
  rw [if_pos h]

theorem withdraw_shut (h : w.b R.HUSK_DBG_STAT_KDBG_OPEN = false) : w.withdraw fn = w.setConsent false 0 := by
  unfold State.withdraw State.setConsent
  rw [if_neg (by rw [h]; exact Bool.false_ne_true)]

theorem withdraw_facts (w : State) (fn : Nat) :
    (w.withdraw fn).b R.HUSK_DBG_STAT_CONSENT = false ∧ (w.withdraw fn).b R.HUSK_DBG_STAT_KDBG_OPEN = false
      ∧ (w.b R.HUSK_DBG_STAT_KDBG_OPEN = true → w.room → Reports w (w.withdraw fn) E.DBG_CLOSED (subject 0 0 fn (w.domainOf fn))) := by
  obtain ⟨hconsent, hkdbg⟩ := setConsent_bits w false 0
  have htouch := tch_setConsent w false 0
  cases hopen : w.b R.HUSK_DBG_STAT_KDBG_OPEN with
  | false =>
    rw [withdraw_shut hopen]
    exact ⟨hconsent, hkdbg.trans hopen, fun h => nomatch h⟩
  | true =>
    rw [withdraw_open hopen]
    refine ⟨?_, ?_, fun _ hroom => (tch_setB.comp (by decide) htouch).reports (by decide) (by decide) hroom ..⟩
    · rw [b_post _ _ _ _ _ _ _ _ (by decide), b_setB_bits _ _ _ _ _ _ (by decide), hconsent]
    · rw [b_post _ _ _ _ _ _ _ _ (by decide), b_setB_same _ _ _ _ _ (by decide)]

theorem exec_consentExpiry (hc : (s.start t).b R.HUSK_DBG_STAT_CONSENT = true) (hend : (s.start t).husk.consentEnd ≤ (s.start t).now) :
    exec (.consentExpiry t) s = .next ((s.start t).setConsent false 0) :=
  congrArg Host.Outcome.next (State.doIf_of (by rw [hc, decide_eq_true hend]; rfl))

/-! ## Fuses -/

theorem exec_fuse (ok : Bool) (h : (s.start t).actionWrite fn R.HUSK_PROV_CTL_FUSE data = (w, true))
    (hlc : w.f R.HUSK_ID_LIFECYCLE = lcOemOpen) : exec (.fuse t fn data ok) s = .next (w.doFuse fn ok) :=
  (action_passes h fun s go => s.doIf (go && s.f R.HUSK_ID_LIFECYCLE == lcOemOpen) (·.doFuse fn ok)).trans
    (congrArg Host.Outcome.next (State.doIf_of (by rw [hlc]; rfl)))

/-- Clearing HUSK_KEY_DATA leaves every word of the husk outside it, and every other block. -/
theorem word_clearKeyData (s : State) (b : Blk) {k : Nat} (h : k < 0x540 ∨ 0x580 ≤ k) : s.clearKeyData.word b k = s.word b k := by
  refine word_setWords_other s W.HUSK_KEY_DATA _ 0 b k fun i hi => Or.inr ?_
  simp only [List.length_replicate] at hi
  simp only [FRef.key, W.HUSK_KEY_DATA]
  omega

theorem f_clearKeyData (s : State) (r : FRef) (i j : Nat) (h : r.key i j < 0x540 ∨ 0x580 ≤ r.key i j) :
    s.clearKeyData.f r i j = s.f r i j := congrArg (getBits · r.hi r.lo) (word_clearKeyData s r.blk h)

theorem words_clearKeyData (s : State) : s.clearKeyData.words W.HUSK_KEY_DATA 16 = List.replicate 16 0 :=
  words_setWords_same s W.HUSK_KEY_DATA (List.replicate 16 0) 0 (by decide)

/-- A write of a field changes the word of its register alone. -/
theorem word_setF_other (s : State) (r : FRef) (v i j : Nat) {b : Blk} {k : Nat} (h : b ≠ r.blk ∨ k ≠ r.key i j) :
    (s.setF r v i j).word b k = s.word b k := by
  by_cases hb : b = r.blk
  · subst hb; exact word_setWord_key _ _ _ (h.resolve_left fun hne => hne rfl)
  · exact word_setWord_blk _ _ _ _ hb

theorem words_setF_other (s : State) (r q : FRef) (v n : Nat) (h : ∀ w < n, q.key w 0 ≠ r.key 0 0) :
    (s.setF r v).words q n = s.words q n :=
  List.map_congr_left fun w hw => word_setF_other _ _ _ _ _ (.inr (h w (List.mem_range.mp hw)))

theorem words_post (s : State) (e : Ev) (a : Nat) (w0 w1 : Word) (q : FRef) (n j : Nat) (hb : q.blk ≠ .sys) :
    (s.post e a w0 w1).words q n j = s.words q n j := List.map_congr_left fun _ _ => word_post _ _ _ _ _ _ _ hb

/-- The state of a fuse command past the blowing of its fuses: OEM_KEYS shows them, and HUSK_KEY_DATA is clear. -/
def State.fuseShown (s : State) : State :=
  (s.setB R.HUSK_STAT_OEM_KEYS (s.husk.oemRootHash.isSome && s.husk.oemKek.isSome)).clearKeyData

/-- The end of a fuse command: RESULT shows whether the fuses read back as written, and a good end is reported. -/
def State.fuseDone (s : State) (fn item : Nat) (ok : Bool) : State :=
  if ok then (s.fuseShown.setF R.HUSK_PROV_STAT_RESULT 0).post E.PROV_FUSED (subject item 0 fn (s.fuseShown.domainOf fn))
  else s.fuseShown.setF R.HUSK_PROV_STAT_RESULT 3

/-- The state in which the hash of the OEM root has been blown. -/
def State.rootBlown (w : State) : State :=
  { w.setBitF R.HUSK_PROV_STAT_DONE 2 true with
    husk := { w.husk with oemRootHash := some (BitVec.ofNat 384 (wordsToNat (w.words W.HUSK_KEY_DATA 16))) } }

/-- A fuse command of ITEM 1 blows the hash of the OEM root, once. -/
theorem doFuse_root (ok : Bool) (hitem : w.f R.HUSK_PROV_CTL_ITEM = 1) : w.doFuse fn ok =
    if w.husk.oemRootHash.isSome then w.setF R.HUSK_PROV_STAT_RESULT 1 else w.rootBlown.fuseDone fn 1 ok := by
  unfold State.doFuse State.fuseDone State.fuseShown State.rootBlown
  simp only [hitem, if_true]

/-- A fuse command of ITEM 4 moves LIFECYCLE on, once both OEM fuses are blown. -/
theorem doFuse_deployed (ok : Bool) (hitem : w.f R.HUSK_PROV_CTL_ITEM = 4) : w.doFuse fn ok =
    if w.husk.oemRootHash.isSome && w.husk.oemKek.isSome then (w.setF R.HUSK_ID_LIFECYCLE lcDeployed).fuseDone fn 4 ok
    else w.setF R.HUSK_PROV_STAT_RESULT 2 := by
  unfold State.doFuse State.fuseDone State.fuseShown
  simp only [hitem, if_true]
  rfl

theorem tch_fuseShown (s : State) : Touches 2 s s.fuseShown := tch_clearKeyData.comp (by decide) (tch_setB.mono (by decide))

theorem word_fuseShown (s : State) {k : Nat} (hstat : k ≠ 0x4) (hdata : k < 0x540 ∨ 0x580 ≤ k) :
    s.fuseShown.word .husk k = s.word .husk k :=
  (word_clearKeyData _ _ hdata).trans (word_setF_other _ _ _ _ _ (.inr hstat))

theorem domainOf_fuseShown (s : State) (fn : Nat) : s.fuseShown.domainOf fn = s.domainOf fn := by
  refine domainOf_of_eq (word_fuseShown s ?_ ?_) (congrArg (getBits · 31 28) (word_fuseShown s (by decide) (by decide)))
    (congrArg HuskSt.pf0Base ((tch_fuseShown s).1 .husk (by decide)))
  all_goals simp only [FRef.key, R.HUSK_SESS_STAT_PHASE]; omega

/-- A fuse command that ends leaves the fuses and LIFECYCLE as it has set them. -/
theorem fuseDone_keeps (s : State) (fn item : Nat) (ok : Bool) :
    (s.fuseDone fn item ok).husk = s.husk ∧ (s.fuseDone fn item ok).f R.HUSK_ID_LIFECYCLE = s.f R.HUSK_ID_LIFECYCLE := by
  have hhusk : s.fuseShown.husk = s.husk := (tch_fuseShown s).1 .husk (by decide)
  have hlife : s.fuseShown.f R.HUSK_ID_LIFECYCLE = s.f R.HUSK_ID_LIFECYCLE :=
    congrArg (getBits · 31 28) (word_fuseShown s (by decide) (by decide))
  unfold State.fuseDone
  split
  · rw [State.post_husk, f_post _ _ _ _ _ _ _ _ (by decide), State.setF_husk, f_setF_key _ _ (by decide)]
    exact ⟨hhusk, hlife⟩
  · rw [State.setF_husk, f_setF_key _ _ (by decide)]
    exact ⟨hhusk, hlife⟩

/-- A good end clears HUSK_KEY_DATA and shows RESULT 0. -/
theorem fuseDone_ok (s : State) (fn item : Nat) :
    (s.fuseDone fn item true).words W.HUSK_KEY_DATA 16 = List.replicate 16 0 ∧ (s.fuseDone fn item true).f R.HUSK_PROV_STAT_RESULT = 0 := by
  unfold State.fuseDone
  rw [if_pos rfl, words_post _ _ _ _ _ _ _ _ (by decide), words_setF_other _ _ _ _ _ (by decide), f_post _ _ _ _ _ _ _ _ (by decide),
    f_setF_same _ _ _ _ _ (by decide)]
  exact ⟨words_clearKeyData _, rfl⟩

theorem tch_rootBlown (w : State) : Touches 131074 w w.rootBlown := Touches.upd_husk (by decide) (tch_setBitF.mono (by decide))

/-- The blowing of a fuse that ends well is reported, as seen from before it. -/
theorem fuseDone_reports {s : State} (fn item : Nat) {m : Nat} (h : Touches m w s) (hm : 2 &&& m = 2) (hts : m &&& 18522046464 = 0)
    (hsys : m.testBit 16 = false) (hroom : w.room) :
    Reports w (s.fuseDone fn item true) E.PROV_FUSED (subject item 0 fn (s.domainOf fn)) := by
  have hshown : Touches m w (s.fuseShown.setF R.HUSK_PROV_STAT_RESULT 0) := tch_setF.comp hm ((tch_fuseShown s).comp hm h)
  unfold State.fuseDone
  rw [if_pos rfl, domainOf_fuseShown]
  exact hshown.reports hts hsys hroom ..

theorem word_setBitF_other (s : State) (r : FRef) (n : Nat) (v : Bool) (i j : Nat) {b : Blk} {k : Nat} (h : b ≠ r.blk ∨ k ≠ r.key i j) :
    (s.setBitF r n v i j).word b k = s.word b k := word_setF_other s r _ i j h

theorem word_upd_husk (s : State) (x : HuskSt) (b : Blk) (k : Nat) : State.word { s with husk := x } b k = s.word b k := rfl

theorem domainOf_rootBlown (w : State) (fn : Nat) : w.rootBlown.domainOf fn = w.domainOf fn := by
  unfold State.rootBlown
  refine domainOf_of_eq ?_ ?_ rfl
  · rw [word_upd_husk, word_setBitF_other _ _ _ _ _ _ (.inr ?_)]
    simp only [FRef.key, R.HUSK_SESS_STAT_PHASE, R.HUSK_PROV_STAT_DONE]
    omega
  · rw [f_upd_husk, f_setBitF_apart _ _ _ _ _ _ _ (.inr (.inl (by decide)))]

/-! ## The security version -/

theorem exec_commit (h : (s.start t).actionWrite fn R.HUSK_SVN_CMD_COMMIT data = (w, true)) :
    exec (.commit t fn data) s = .next (w.doIf (decide (w.f R.HUSK_SVN_IMG_SVN < w.f R.HUSK_SVN_RUN_SVN)) fun s =>
      (s.setF R.HUSK_SVN_IMG_SVN (s.f R.HUSK_SVN_RUN_SVN)).post E.SVN_COMMIT (subject 0 0 fn (s.domainOf fn))) :=
  action_passes h fun s go => s.doIf (go && decide (s.f R.HUSK_SVN_IMG_SVN < s.f R.HUSK_SVN_RUN_SVN)) fun s =>
    (s.setF R.HUSK_SVN_IMG_SVN (s.f R.HUSK_SVN_RUN_SVN)).post E.SVN_COMMIT (subject 0 0 fn (s.domainOf fn))

/-! ## The clauses of the statement -/

theorem kdbg_gates (h : (s.start t).actionWrite fn R.HUSK_DBG_CTL_KDBG data = (w, true)) :
    (w.f R.HUSK_ID_LIFECYCLE = lcDeployed →
      (w.sessionOpen fn = true ∧ w.domainOf fn = domOem ∧ w.b R.HUSK_DBG_STAT_CONSENT = true → w.room → Runs (.kdbg t fn data) s fun s' =>
        s'.b R.HUSK_DBG_STAT_KDBG_OPEN = true ∧ Reports w s' E.DBG_UNLOCK (subject 0 0 fn (w.domainOf fn)))
      ∧ (w.sessionOpen fn = false ∨ w.domainOf fn ≠ domOem ∨ w.b R.HUSK_DBG_STAT_CONSENT = false → Runs (.kdbg t fn data) s fun s' => s' = w))
    ∧ (w.f R.HUSK_ID_LIFECYCLE = lcOemOpen → fn = 0 → w.sessionOpen fn = false → w.room → Runs (.kdbg t fn data) s fun s' =>
        s'.b R.HUSK_DBG_STAT_KDBG_OPEN = true ∧ Reports w s' E.DBG_UNLOCK (subject 0 0 fn (w.domainOf fn))) := by
  have opens (hallowed : w.kdbgAllowed fn = true) (hroom : w.room) : Runs (.kdbg t fn data) s fun s' =>
      s'.b R.HUSK_DBG_STAT_KDBG_OPEN = true ∧ Reports w s' E.DBG_UNLOCK (subject 0 0 fn (w.domainOf fn)) :=
    ⟨_, (exec_kdbg h).trans (congrArg Host.Outcome.next (State.doIf_of hallowed)), openDebug_facts w _ fn (by decide) rfl hroom⟩
  refine ⟨fun hlc => ⟨fun ⟨hopen, hdom, hconsent⟩ => opens ?_, fun hgate => ⟨w, ?_, rfl⟩⟩, fun hlc hfn hopen => opens ?_⟩
  · rw [kdbgAllowed_deployed hlc, hopen, hdom, hconsent]; rfl
  · refine (exec_kdbg h).trans (congrArg Host.Outcome.next (State.doIf_not ?_))
    rw [kdbgAllowed_deployed hlc]
    obtain hopen | hdom | hconsent := hgate
    · rw [hopen]; rfl
    · rw [beq_false_of_ne hdom, Bool.and_false, Bool.false_and]
    · rw [hconsent, Bool.and_false]
  · subst hfn
    rw [kdbgAllowed_oemOpen hlc, hopen]; rfl

theorem fuse_gates (h : (s.start t).actionWrite fn R.HUSK_PROV_CTL_FUSE data = (w, true)) (hlc : w.f R.HUSK_ID_LIFECYCLE = lcOemOpen) :
    (w.f R.HUSK_PROV_CTL_ITEM = 1 → w.husk.oemRootHash = none → w.room → Runs (.fuse t fn data true) s fun s' =>
        s'.husk.oemRootHash = some (BitVec.ofNat 384 (wordsToNat (w.words W.HUSK_KEY_DATA 16)))
          ∧ s'.words W.HUSK_KEY_DATA 16 = List.replicate 16 0 ∧ s'.f R.HUSK_PROV_STAT_RESULT = 0
          ∧ Reports w s' E.PROV_FUSED (subject 1 0 fn (w.domainOf fn)))
    ∧ (∀ ok : Bool, w.f R.HUSK_PROV_CTL_ITEM = 1 → w.husk.oemRootHash ≠ none → Runs (.fuse t fn data ok) s fun s' =>
        s'.husk = w.husk ∧ s'.f R.HUSK_PROV_STAT_RESULT = 1)
    ∧ (∀ ok : Bool, w.f R.HUSK_PROV_CTL_ITEM = 4 → Runs (.fuse t fn data ok) s fun s' => s'.husk.oemRootHash = w.husk.oemRootHash
        ∧ (w.husk.oemRootHash ≠ none ∧ w.husk.oemKek ≠ none → s'.f R.HUSK_ID_LIFECYCLE = lcDeployed)
        ∧ (w.husk.oemRootHash = none ∨ w.husk.oemKek = none →
            s'.f R.HUSK_ID_LIFECYCLE = lcOemOpen ∧ s'.f R.HUSK_PROV_STAT_RESULT = 2)) := by
  refine ⟨fun hitem hroot hroom => ⟨_, exec_fuse true h hlc, ?_⟩, fun ok hitem hroot => ⟨_, exec_fuse ok h hlc, ?_⟩,
    fun ok hitem => ⟨_, exec_fuse ok h hlc, ?_⟩⟩
  · rw [doFuse_root true hitem, if_neg (by rw [hroot]; exact Bool.false_ne_true)]
    have hreport := fuseDone_reports fn 1 (tch_rootBlown w) (by decide) (by decide) (by decide) hroom
    rw [domainOf_rootBlown] at hreport
    obtain ⟨hdata, hresult⟩ := fuseDone_ok w.rootBlown fn 1
    exact ⟨congrArg HuskSt.oemRootHash (fuseDone_keeps w.rootBlown fn 1 true).1, hdata, hresult, hreport⟩
  · rw [doFuse_root ok hitem, if_pos (Option.isSome_iff_ne_none.mpr hroot)]
    exact ⟨State.setF_husk .., f_setF_same _ _ _ _ _ (by decide)⟩
  · rw [doFuse_deployed ok hitem]
    cases hblown : w.husk.oemRootHash.isSome && w.husk.oemKek.isSome with
    | true =>
      rw [if_pos rfl]
      obtain ⟨hhusk, hlife⟩ := fuseDone_keeps (w.setF R.HUSK_ID_LIFECYCLE lcDeployed) fn 4 ok
      refine ⟨congrArg HuskSt.oemRootHash (hhusk.trans (State.setF_husk ..)), fun _ => hlife.trans (f_setF_same _ _ _ _ _ (by decide)),
        fun hnone => ?_⟩
      obtain hroot | hkek := hnone
      · rw [hroot] at hblown; cases hblown
      · rw [hkek, Option.isSome_none, Bool.and_false] at hblown; cases hblown
    | false =>
      rw [if_neg Bool.false_ne_true]
      refine ⟨by rw [State.setF_husk], fun ⟨hroot, hkek⟩ => ?_,
        fun _ => ⟨by rw [f_setF_key _ _ (by decide), hlc], f_setF_same _ _ _ _ _ (by decide)⟩⟩
      rw [Option.isSome_iff_ne_none.mpr hroot, Option.isSome_iff_ne_none.mpr hkek] at hblown
      cases hblown

end Action

/-- Settles O45: each command by its gate, past which one operation says what it sets and what it reports. -/
theorem debugAndProvisioningKeepTheirGates : Obligations.DebugAndProvisioningKeepTheirGates := by
  unfold Obligations.DebugAndProvisioningKeepTheirGates
  refine ⟨fun s w t fn data h => kdbg_gates h, ?_, ?_, ?_, ?_, fun s w t fn data h hlc => fuse_gates h hlc, ?_⟩
  · intro s w t fn data h hlc hopen hroom
    exact ⟨_, (exec_vtest h).trans (congrArg Host.Outcome.next (State.doIf_of (by rw [hlc, hopen]; rfl))),
      openDebug_facts w _ fn (by decide) rfl hroom⟩
  · intro s w t fn data h hbit hroom
    exact ⟨_, (exec_give h).trans (congrArg Host.Outcome.next (if_neg (by rw [hbit]; decide))), give_facts w fn hroom⟩
  · exact fun s w t fn data h => ⟨_, exec_withdraw h, withdraw_facts w fn⟩
  · rintro s u t rfl hc hend
    obtain ⟨hconsent, hkdbg⟩ := setConsent_bits (s.start t) false 0
    exact ⟨_, exec_consentExpiry hc hend, hconsent, hkdbg, rfl⟩
  · intro s w t fn data h
    refine ⟨fun hlt hroom => ⟨_, (exec_commit h).trans (congrArg Host.Outcome.next (State.doIf_of (decide_eq_true hlt))), ?_, ?_⟩,
      fun hle => ⟨w, (exec_commit h).trans (congrArg Host.Outcome.next (State.doIf_not (decide_eq_false (by omega)))), rfl⟩⟩
    · rw [f_post _ _ _ _ _ _ _ _ (by decide), f_setF_same _ _ _ _ _ (by decide)]
      exact Nat.mod_eq_of_lt (f_lt w R.HUSK_SVN_RUN_SVN 0 0)
    · exact tch_setF.reports (by decide) (by decide) hroom ..

end Sys2Proof.Machine
end

section
/-! PROOFS. O46. Key commands: passwords (R334), CAK slots (R336, R337), and the key agreement of the ports (R402, R421). -/
namespace Sys2Proof.Machine

/-! ## The end of a key command -/

theorem keyRefused_facts (s : State) (fn r : Nat) (hr : r < 16) :
    (s.keyRefused fn r).husk = s.husk ∧ (s.keyRefused fn r).f R.HUSK_KEY_STAT_RESULT = r := by
  unfold State.keyRefused
  rw [State.post_husk, State.setF_husk, f_post _ _ _ _ _ _ _ _ (by decide), f_setF_same _ _ _ _ _ (by decide)]
  exact ⟨rfl, Nat.mod_eq_of_lt hr⟩

theorem keyDone_husk (s : State) : s.keyDone.husk = s.husk := tch_keyDone.1 .husk (by decide)

theorem keyDone_facts (s : State) : s.keyDone.f R.HUSK_KEY_STAT_RESULT = 0 ∧ s.keyDone.words W.HUSK_KEY_DATA 16 = List.replicate 16 0 := by
  unfold State.keyDone
  rw [f_clearKeyData _ _ _ _ (by decide), f_setF_same _ _ _ _ _ (by decide)]
  exact ⟨rfl, words_clearKeyData _⟩

theorem keyDone_valid (s : State) : s.keyDone.f R.HUSK_KEY_STAT_VALID = s.f R.HUSK_KEY_STAT_VALID := by
  unfold State.keyDone
  rw [f_clearKeyData _ _ _ _ (by decide), f_setF_bits _ _ _ _ _ _ (by decide)]

/-! ## Slots -/

theorem setPwSlot_husk (s : State) (k : Nat) (p : PwSlot) :
    (s.setPwSlot k p).husk = { s.husk with pw := kset {} s.husk.pw k p } := by
  unfold State.setPwSlot
  rw [State.setBitF_husk, State.setBitF_husk]

theorem setCakSlot_husk (s : State) (k : Nat) (c : CakSlot) :
    (s.setCakSlot k c).husk = { s.husk with cak := kset {} s.husk.cak k c } := by
  unfold State.setCakSlot
  rw [State.setBitF_husk, State.setBitF_husk]

/-- A password slot just written reads as written, whatever follows that leaves the husk. -/
theorem pwSlot_of_husk {s s' : State} {k : Nat} {p : PwSlot} (h : s'.husk = (s.setPwSlot k p).husk) : s'.pwSlot k = p := by
  unfold State.pwSlot
  rw [h, setPwSlot_husk, kget_kset_same]

theorem cakSlot_of_husk {s s' : State} {k : Nat} {c : CakSlot} (h : s'.husk = (s.setCakSlot k c).husk) : s'.cakSlot k = c := by
  unfold State.cakSlot
  rw [h, setCakSlot_husk, kget_kset_same]

/-- HUSK_KEY_STAT shows whether a CAK slot is valid. -/
theorem setCakSlot_valid (s : State) {k : Nat} (c : CakSlot) (hk : k < 8) : (s.setCakSlot k c).bitF R.HUSK_KEY_STAT_VALID k = c.valid := by
  unfold State.setCakSlot
  rw [bitF_of_f (f_setBitF_apart _ _ _ _ _ _ _ (.inr (.inr (by decide)))), bitF_setBitF _ _ _ _ _ _ _ (by decide) hk, if_pos rfl]

/-- A slot's verifier just set reads as set, with the salt from the challenge. -/
theorem setVerifier_facts (s : State) (fn slot : Nat) (v : BitVec 384) :
    (s.setVerifier fn slot v).pwSlot slot
        = { s.pwSlot slot with set := true, salt := BitVec.ofNat 128 (wordsToNat (s.words W.HUSK_CHAL 4 fn)), verifier := v }
      ∧ (s.setVerifier fn slot v).f R.HUSK_KEY_STAT_RESULT = 0
      ∧ (s.setVerifier fn slot v).words W.HUSK_KEY_DATA 16 = List.replicate 16 0 := by
  unfold State.setVerifier
  exact ⟨pwSlot_of_husk ((keyDone_husk _).trans (tch_logChange.1 .husk (by decide))), keyDone_facts _⟩

/-! ## Passwords (R334) -/

section Keys
variable {s w : State} {t : Instant} {fn : Nat} {data : Word}

theorem keyCommand_conflict (h : keyConflict data = true) (g : State → State) : w.keyCommand fn data g = w.keyRefused fn 1 := if_pos h

theorem keyCommand_alone (h : keyConflict data = false) (g : State → State) : w.keyCommand fn data g = g w :=
  if_neg (by rw [h]; exact Bool.false_ne_true)

theorem exec_pwSet (h : (s.start t).actionWrite fn R.HUSK_KEY_CTL_PW_SET data = (w, true)) :
    exec (.pwSet t fn data) s = .next (w.keyCommand fn data (·.doPwSet fn)) :=
  (action_passes h fun s go => s.doIf go (·.keyCommand fn data (·.doPwSet fn))).trans (congrArg Host.Outcome.next (State.doIf_true ..))

theorem exec_pwDel (h : (s.start t).actionWrite fn R.HUSK_KEY_CTL_PW_DEL data = (w, true)) (hc : keyConflict data = false) :
    exec (.pwDel t fn data) s = .next (w.doPwDel fn) :=
  (action_passes h fun s go => s.doIf go (·.keyCommand fn data (·.doPwDel fn))).trans
    (congrArg Host.Outcome.next ((State.doIf_true ..).trans (keyCommand_alone hc _)))

theorem exec_load (h : (s.start t).actionWrite fn R.HUSK_KEY_CTL_LOAD data = (w, true)) (hc : keyConflict data = false) :
    exec (.load t fn data) s = .next (w.doLoad fn) :=
  (action_passes h fun s go => s.doIf go (·.keyCommand fn data (·.doLoad fn))).trans
    (congrArg Host.Outcome.next ((State.doIf_true ..).trans (keyCommand_alone hc _)))

theorem exec_delete (h : (s.start t).actionWrite fn R.HUSK_KEY_CTL_DELETE data = (w, true)) (hc : keyConflict data = false) :
    exec (.delete t fn data) s = .next (w.doDelete fn) :=
  (action_passes h fun s go => s.doIf go (·.keyCommand fn data (·.doDelete fn))).trans
    (congrArg Host.Outcome.next ((State.doIf_true ..).trans (keyCommand_alone hc _)))

theorem doPwSet_closed (h : w.sessionOpen fn = false) : w.doPwSet fn = w.keyRefused fn 3 := if_pos (by rw [h]; rfl)

/-- In an OEM session slot 0 is set while it is not (R334). -/
theorem doPwSet_oem (hopen : w.sessionOpen fn = true) (hdom : w.domainOf fn = domOem) (hunset : (w.pwSlot 0).set = false)
    (hslot : w.f R.HUSK_KEY_CTL_SLOT = 0) :
    w.doPwSet fn = w.setVerifier fn 0 (BitVec.ofNat 384 (wordsToNat ((w.words W.HUSK_KEY_DATA 16).take 12))) := by
  unfold State.doPwSet
  dsimp only
  rw [hopen, if_neg (by decide), if_pos hdom, if_pos (by rw [hunset, hslot]; rfl)]

/-- In a session of SAF the own slot is set, and by slot 0 every one, with a verifier that unwraps. -/
theorem doPwSet_saf (hopen : w.sessionOpen fn = true) (hdom : w.domainOf fn = domSaf) (hset : (w.pwSlot 0).set = true)
    (hslot : w.f R.HUSK_KEY_CTL_SLOT = w.f R.HUSK_SESS_STAT_USER 0 fn ∨ w.f R.HUSK_SESS_STAT_USER 0 fn = 0)
    {r : Option (BitVec 384)} (hr : r = Config.unwrapVerifier (w.pwSlot (w.f R.HUSK_SESS_STAT_USER 0 fn)).verifier
      (w.words W.HUSK_CHAL 12 fn) (w.words W.HUSK_KEY_DATA 16)) :
    w.doPwSet fn = r.elim (w.keyRefused fn 2) (w.setVerifier fn (w.f R.HUSK_KEY_CTL_SLOT)) := by
  unfold State.doPwSet
  dsimp only
  rw [hopen, if_neg (by decide), if_neg (by rw [hdom]; decide), if_pos (by simpa [hset] using hslot), ← hr]
  cases r with
  | none => simp only [Option.elim_none]
  | some v => simp only [Option.elim_some]

/-- Only slot 0 deletes, and only other slots. -/
theorem doPwDel_facts (w : State) (fn : Nat) :
    if w.sessionOpen fn = true ∧ w.domainOf fn = domSaf ∧ w.f R.HUSK_SESS_STAT_USER 0 fn = 0 ∧ w.f R.HUSK_KEY_CTL_SLOT ≠ 0 then
      (w.doPwDel fn).pwSlot (w.f R.HUSK_KEY_CTL_SLOT) = { w.pwSlot (w.f R.HUSK_KEY_CTL_SLOT) with set := false, salt := 0, verifier := 0 }
        ∧ (w.doPwDel fn).f R.HUSK_KEY_STAT_RESULT = 0
    else (w.doPwDel fn).husk = w.husk ∧ (w.doPwDel fn).f R.HUSK_KEY_STAT_RESULT = 3 := by
  have hcond : (w.sessionOpen fn && w.domainOf fn == domSaf && w.f R.HUSK_SESS_STAT_USER 0 fn == 0 && w.f R.HUSK_KEY_CTL_SLOT != 0) = true
      ↔ w.sessionOpen fn = true ∧ w.domainOf fn = domSaf ∧ w.f R.HUSK_SESS_STAT_USER 0 fn = 0 ∧ w.f R.HUSK_KEY_CTL_SLOT ≠ 0 := by
    simp [and_assoc]
  unfold State.doPwDel
  split
  case isTrue h =>
    rw [if_pos (hcond.mpr h)]
    exact ⟨pwSlot_of_husk ((keyDone_husk _).trans (tch_logChange.1 .husk (by decide))), (keyDone_facts _).1⟩
  case isFalse h =>
    rw [if_neg (mt hcond.mp h)]
    exact keyRefused_facts w fn 3 (by decide)

/-! ## CAK slots (R336, R337) -/

/-- The slot that LOAD fills from HUSK_KEY_DATA. -/
def State.loadedCak (w : State) : CakSlot :=
  { valid := true, cak := BitVec.ofNat 256 (wordsToNat ((w.words W.HUSK_KEY_DATA 16).take 8))
    ckn := BitVec.ofNat 256 (wordsToNat ((w.words W.HUSK_KEY_DATA 16).drop 8) % 2 ^ (8 * w.f R.HUSK_KEY_CTL_CKN_LEN))
    cknLen := w.f R.HUSK_KEY_CTL_CKN_LEN, port := w.f R.HUSK_KEY_CTL_PORT }

/-- A CAK slot that is written by a key command which ends well and is reported. -/
theorem cakWritten_facts (w : State) (c : CakSlot) (e : Ev) (a : Nat) (hroom : w.room) :
    (((w.setCakSlot (w.f R.HUSK_KEY_CTL_SLOT) c).keyDone).post e a).cakSlot (w.f R.HUSK_KEY_CTL_SLOT) = c
      ∧ (((w.setCakSlot (w.f R.HUSK_KEY_CTL_SLOT) c).keyDone).post e a).bitF R.HUSK_KEY_STAT_VALID (w.f R.HUSK_KEY_CTL_SLOT) = c.valid
      ∧ Reports w (((w.setCakSlot (w.f R.HUSK_KEY_CTL_SLOT) c).keyDone).post e a) e a := by
  have htouch : Touches 131074 w (w.setCakSlot (w.f R.HUSK_KEY_CTL_SLOT) c).keyDone := tch_keyDone.comp (by decide) tch_setCakSlot
  refine ⟨cakSlot_of_husk ((State.post_husk ..).trans (keyDone_husk _)), ?_, htouch.reports (by decide) (by decide) hroom ..⟩
  rw [bitF_of_f (f_post _ _ _ _ _ _ _ _ (by decide)), bitF_of_f (keyDone_valid _)]
  exact setCakSlot_valid w c (f_lt w R.HUSK_KEY_CTL_SLOT 0 0)

theorem doLoad_facts (w : State) (fn : Nat) (hroom : w.room) :
    if 1 ≤ w.f R.HUSK_KEY_CTL_CKN_LEN ∧ w.f R.HUSK_KEY_CTL_CKN_LEN ≤ 32 then
      (w.doLoad fn).cakSlot (w.f R.HUSK_KEY_CTL_SLOT) = w.loadedCak
        ∧ (w.doLoad fn).bitF R.HUSK_KEY_STAT_VALID (w.f R.HUSK_KEY_CTL_SLOT) = true
        ∧ Reports w (w.doLoad fn) E.KEY_LOADED (subject (w.f R.HUSK_KEY_CTL_SLOT) 0 fn (w.domainOf fn))
    else (w.doLoad fn).husk = w.husk ∧ (w.doLoad fn).f R.HUSK_KEY_STAT_RESULT = 1 := by
  unfold State.doLoad
  dsimp only
  split
  case isTrue h =>
    rw [if_neg (by omega)]
    exact cakWritten_facts w w.loadedCak _ _ hroom
  case isFalse h =>
    rw [if_pos (by omega)]
    exact keyRefused_facts w fn 1 (by decide)

end Keys

/-! ## Transmit SAs of the ports (R336, R421) -/

/-- The port has no transmit SA. -/
def State.SaGone (s : State) (p : Nat) : Prop := s.b R.NET_PORT_STAT_SA_TX p = false ∧ kget 0 s.net.txSa p = 0

/-- The port has the transmit SA of a CAK slot. -/
def State.SaOf (s : State) (p slot : Nat) : Prop := s.b R.NET_PORT_STAT_SA_TX p = true ∧ kget 0 s.net.txSa p = slot + 1

theorem loseSa_net (s : State) (p : Nat) : (s.loseSa p).net = { s.net with txSa := kset 0 s.net.txSa p 0 } := by
  unfold State.loseSa
  dsimp only
  split
  · rw [State.post_net, State.setB_net]
  · rfl

theorem txSa_loseSa (s : State) (p q : Nat) : kget 0 (s.loseSa p).net.txSa q = if q = p then 0 else kget 0 s.net.txSa q := by
  rw [loseSa_net]
  show kget 0 (kset 0 s.net.txSa p 0) q = _
  split
  case isTrue h => rw [h, kget_kset_same]
  case isFalse h => rw [kget_kset_other _ _ _ h]

theorem loseSa_gone (s : State) (p : Nat) : (s.loseSa p).SaGone p := by
  refine ⟨?_, (txSa_loseSa s p p).trans (if_pos rfl)⟩
  unfold State.loseSa
  dsimp only
  split
  · rw [b_post _ _ _ _ _ _ _ _ (by decide), b_setB_same _ _ _ _ _ (by decide)]
  case isFalse h => exact Bool.eq_false_iff.mpr h

/-- SA_TX of another port stays. -/
theorem loseSa_tx_other (s : State) {p q : Nat} (h : q ≠ p) : (s.loseSa p).b R.NET_PORT_STAT_SA_TX q = s.b R.NET_PORT_STAT_SA_TX q := by
  have hkey : R.NET_PORT_STAT_SA_TX.key q 0 ≠ R.NET_PORT_STAT_SA_TX.key p 0 := by
    simp only [FRef.key, R.NET_PORT_STAT_SA_TX]
    omega
  unfold State.loseSa
  dsimp only
  split
  · rw [b_post _ _ _ _ _ _ _ _ (by decide), b_setB_key _ _ hkey, b_upd_net]
  · rw [b_upd_net]

/-- A port whose transmit SA comes from a slot loses it. -/
def State.dropSa (s : State) (slot p : Nat) : State := if kget 0 s.net.txSa p = slot + 1 then s.loseSa p else s

theorem dropSa_gone {s : State} {slot p : Nat} (h : kget 0 s.net.txSa p = slot + 1) : (s.dropSa slot p).SaGone p := by
  unfold State.dropSa
  rw [if_pos h]
  exact loseSa_gone s p

/-- The other port keeps its transmit SA. -/
theorem dropSa_other (s : State) (slot : Nat) {p q : Nat} (h : q ≠ p) : kget 0 (s.dropSa slot p).net.txSa q = kget 0 s.net.txSa q
    ∧ (s.dropSa slot p).b R.NET_PORT_STAT_SA_TX q = s.b R.NET_PORT_STAT_SA_TX q := by
  unfold State.dropSa
  split
  · exact ⟨(txSa_loseSa s p q).trans (if_neg h), loseSa_tx_other s h⟩
  · exact ⟨rfl, rfl⟩

theorem dropSa_both {s : State} {slot p : Nat} (hp : p < 2) (h : kget 0 s.net.txSa p = slot + 1) :
    ((s.dropSa slot 0).dropSa slot 1).SaGone p := by
  obtain rfl | rfl : p = 0 ∨ p = 1 := by omega
  · obtain ⟨hsa, htx⟩ := dropSa_other (s.dropSa slot 0) slot (p := 1) (q := 0) (by decide)
    obtain ⟨htx0, hsa0⟩ := dropSa_gone h
    exact ⟨htx.trans htx0, hsa.trans hsa0⟩
  · exact dropSa_gone ((dropSa_other s slot (by decide)).1.trans h)

theorem exec_sakRemoval {s : State} {t : Instant} {slot : Nat} (hv : ((s.start t).cakSlot slot).valid = false)
    (hd : ((s.start t).cakSlot slot).sakDeadline ≠ 0) :
    exec (.sakRemoval t slot) s = .next ((((s.start t).dropSa slot 0).dropSa slot 1).setCakSlot slot
      { (s.start t).cakSlot slot with sakDeadline := 0 }) :=
  congrArg Host.Outcome.next (State.doIf_of (by rw [hv, bne_iff_ne.mpr hd]; rfl))

/-- Writing a CAK slot leaves the ports alone. -/
theorem SaGone.setCakSlot {s : State} {p : Nat} (h : s.SaGone p) (k : Nat) (c : CakSlot) : (s.setCakSlot k c).SaGone p := by
  have htouch : Touches 131074 s (s.setCakSlot k c) := tch_setCakSlot
  exact ⟨(b_of_f (htouch.f _ _ _ (by decide))).trans h.1, by rw [show (s.setCakSlot k c).net = s.net from htouch.1 .net (by decide)]; exact h.2⟩

/-! ## The key agreement (R402, R421) -/

/-- From `s` to `s'` a port keeps its peer, and its transmit SA but for a new SAK of the peer's slot. -/
def SaKeeps (p : Nat) (s s' : State) : Prop :=
  (s'.port p).peer = (s.port p).peer
    ∧ ((kget 0 s'.net.txSa p = kget 0 s.net.txSa p ∧ s'.b R.NET_PORT_STAT_SA_TX p = s.b R.NET_PORT_STAT_SA_TX p)
      ∨ ∃ x, (s.port p).peer = some x ∧ s'.SaOf p x.2.2)

theorem SaKeeps.refl (p : Nat) (s : State) : SaKeeps p s s := ⟨rfl, .inl ⟨rfl, rfl⟩⟩

theorem SaKeeps.trans {p : Nat} {s u v : State} (h : SaKeeps p s u) (h' : SaKeeps p u v) : SaKeeps p s v := by
  obtain ⟨hpeer, hsa⟩ := h
  obtain ⟨hpeer', hsa'⟩ := h'
  refine ⟨hpeer'.trans hpeer, ?_⟩
  obtain ⟨hkeep, htx⟩ | ⟨x, hx, hnew⟩ := hsa'
  · obtain ⟨hkeep0, htx0⟩ | ⟨x, hx, hnew, hold⟩ := hsa
    · exact .inl ⟨hkeep.trans hkeep0, htx.trans htx0⟩
    · exact .inr ⟨x, hx, htx.trans hnew, hkeep.trans hold⟩
  · exact .inr ⟨x, hpeer ▸ hx, hnew⟩

/-- What leaves NET alone keeps the agreement. -/
theorem SaKeeps.of_touches {p m : Nat} {s s' : State} (h : Touches m s s') (hnet : m.testBit 28 = false) (hregs : m.testBit 10 = false) :
    SaKeeps p s s' := by
  have heq : s'.net = s.net := h.1 .net hnet
  refine ⟨?_, .inl ⟨by rw [heq], b_of_f (h.f _ _ _ hregs)⟩⟩
  unfold State.port
  rw [heq]

theorem port_setPort (s : State) (p : Nat) (x : PortSt) : (s.setPort p x).port p = x := kget_kset_same ..

theorem SaKeeps.setPort {p : Nat} {s : State} {x : PortSt} (h : x.peer = (s.port p).peer) : SaKeeps p s (s.setPort p x) :=
  ⟨by rw [port_setPort, h], .inl ⟨rfl, rfl⟩⟩

theorem installSak_net (s : State) (p slot : Nat) :
    (s.installSak p slot).net.ports = (s.setPort p { s.port p with txPn := 0, rxPn := [] }).net.ports
      ∧ (s.installSak p slot).net.txSa = kset 0 s.net.txSa p (slot + 1) := by
  unfold State.installSak
  rw [State.setB_net]
  exact ⟨rfl, rfl⟩

/-- A new SAK is that of the slot it derives from. -/
theorem installSak_saOf (s : State) (p slot : Nat) : (s.installSak p slot).SaOf p slot := by
  refine ⟨?_, by rw [(installSak_net ..).2, kget_kset_same]⟩
  unfold State.installSak
  rw [b_setB_same _ _ _ _ _ (by decide)]

theorem peer_installSak (s : State) (p slot : Nat) : ((s.installSak p slot).port p).peer = (s.port p).peer := by
  have hport : (s.installSak p slot).port p = (s.setPort p { s.port p with txPn := 0, rxPn := [] }).port p :=
    congrArg (fun m => kget ({} : PortSt) m p) (installSak_net s p slot).1
  rw [hport, port_setPort]

theorem SaKeeps.installSak {p : Nat} {s : State} {x : Nat × Nat × Nat} (h : (s.port p).peer = some x) : SaKeeps p s (s.installSak p x.2.2) :=
  ⟨peer_installSak .., .inr ⟨x, h, installSak_saOf ..⟩⟩

theorem SaKeeps.takePn (s : State) (p cls : Nat) : SaKeeps p s (s.takePn p cls) := by
  unfold State.takePn
  dsimp only
  split
  · exact .refl p s
  · have hport : SaKeeps p s (s.setPort p { s.port p with txPn := (s.port p).txPn + 1 }) := .setPort rfl
    split
    case h_1 x hx =>
      unfold State.doIf
      split
      · exact hport.trans (.installSak hx)
      · exact hport
    case h_2 => exact hport

theorem SaKeeps.startFrame (s : State) (p cls kind len : Nat) (bytes : List Byte) : SaKeeps p s (s.startFrame p cls kind len bytes) := by
  unfold State.startFrame
  have hbusy : SaKeeps p s (s.setPort p { s.port p with busy := some (cls, kind, s.now + s.frameTime p len) }) := .setPort rfl
  exact (hbusy.trans (.takePn ..)).trans (.of_touches (m := 34359738368) tch_emit (by decide) (by decide))

theorem SaKeeps.startNext {s : State} {p : Nat} {x : PortSt} (h : x.peer = (s.port p).peer) (cls kind len : Nat) (bytes : List Byte) :
    SaKeeps p s ((s.setPort p x).startFrame p cls kind len bytes) := (SaKeeps.setPort h).trans (.startFrame ..)

/-- A frame that starts keeps the agreement, but for the SAK that the key server renews. -/
theorem SaKeeps.txKick (s : State) (p : Nat) : SaKeeps p s (s.txKick p) := by
  unfold State.txKick
  dsimp only
  split
  · exact .refl p s
  · split
    · split
      · exact .refl p s
      · exact .startNext (by rfl) ..
    · split
      · exact .refl p s
      · exact .startNext (by rfl) ..
    · split
      · exact .refl p s
      · exact SaKeeps.trans (.startNext (by rfl) ..) (.of_touches (m := 1134005649417) tch_frameOver (by decide) (by decide))
    · exact .refl p s

/-- The agreement of a port without a peer. -/
theorem SaKeeps.gone {p : Nat} {s s' : State} (h : SaKeeps p s s') (hnone : (s.port p).peer = none) :
    kget 0 s'.net.txSa p = kget 0 s.net.txSa p ∧ s'.b R.NET_PORT_STAT_SA_TX p = s.b R.NET_PORT_STAT_SA_TX p :=
  h.2.resolve_right fun ⟨_, hx, _⟩ => nomatch hnone.symm.trans hx

/-- A SAK of the peer's slot stays one. -/
theorem SaKeeps.saOf {p : Nat} {s s' : State} {x : Nat × Nat × Nat} (h : SaKeeps p s s') (hpeer : (s.port p).peer = some x)
    (hsa : s.SaOf p x.2.2) : s'.SaOf p x.2.2 := by
  obtain ⟨hkeep, htx⟩ | ⟨y, hy, hnew⟩ := h.2
  · exact ⟨htx.trans hsa.1, hkeep.trans hsa.2⟩
  · cases hpeer.symm.trans hy
    exact hnew

/-- A port's peer is noted, or none, and MKA frames wait for the port. -/
def State.notePeer (s : State) (p : Nat) (peer : Option (Nat × Nat × Nat)) (fs : List (List Byte)) : State :=
  (s.setPort p { s.port p with peer := peer }).mkaSend p fs

theorem peer_notePeer (s : State) (p : Nat) (peer : Option (Nat × Nat × Nat)) (fs : List (List Byte)) :
    ((s.notePeer p peer fs).port p).peer = peer := by
  unfold State.notePeer State.mkaSend
  rw [port_setPort, port_setPort]

theorem tch_notePeer (s : State) (p : Nat) (peer : Option (Nat × Nat × Nat)) (fs : List (List Byte)) :
    Touches 268435456 s (s.notePeer p peer fs) := tch_mkaSend.comp (by decide) tch_setPort

/-- The device ranks itself against a live peer by its registers (R421). -/
theorem keyServer_of_peer {s s' : State} {p m : Nat} {x : Nat × Nat × Nat} (h : Touches m s s') (hregs : m.testBit 10 = false)
    (hpeer : (s'.port p).peer = some x) : s'.keyServer p = lexLt [s.f R.NET_PORT_CFG_KS_PRIO p, s.sci p] [x.1, x.2.1] := by
  have hf (q : FRef) (hq : q.blk = .net) : s'.f q p = s.f q p := h.f q p 0 (by rw [hq]; exact hregs)
  unfold State.keyServer State.sci State.macOf
  rw [hpeer, Option.any_some, hf _ rfl, hf R.NET_PORT_MAC_HI_MAC rfl, hf R.NET_PORT_MAC_LO_MAC rfl]

section Mka
variable {s : State} {t : Instant} {p : Nat} (hon : (s.start t).mkaOn p = true)
include hon

theorem exec_mkaFrame {m : MkaFrame} {slot : Nat} (hslot : m.slot = some slot) (hv : ((s.start t).cakSlot slot).valid = true)
    (hp : ((s.start t).cakSlot slot).port = p) :
    exec (.mkaFrame t p m) s = .next
      (let v := (s.start t).notePeer p (some (m.prio, m.sci, slot)) m.send
      (v.doIf (if v.keyServer p then !((s.start t).port p).peer.any fun x => x.2.1 == m.sci && x.2.2 == slot else m.sak)
        (·.installSak p slot)).txKick p) := by
  show execMkaFrame t p m s = _
  unfold execMkaFrame
  dsimp only
  rw [State.doIf_of hon, hslot]
  exact congrArg Host.Outcome.next (State.doIf_of (by rw [hv, hp, beq_self_eq_true]; rfl))

theorem exec_mkaPeerTimeout {x : Nat × Nat × Nat} (send : List (List Byte)) (hpeer : ((s.start t).port p).peer = some x) :
    exec (.mkaPeerTimeout t p send) s = .next
      (let v := (s.start t).notePeer p none send
      (if (s.start t).keyServer p && (v.cakSlot x.2.2).valid then v.installSak p x.2.2 else v.loseSa p).txKick p) := by
  show execMkaPeerTimeout t p send s = _
  unfold execMkaPeerTimeout
  dsimp only
  rw [State.doIf_of hon, hpeer]
  rfl

/-- A frame of a live peer leaves it as the peer, and brings its SAK where the device is key server for a new one, or the frame carries one. -/
theorem mkaFrame_agrees {m : MkaFrame} {slot : Nat} (hslot : m.slot = some slot) (hv : ((s.start t).cakSlot slot).valid = true)
    (hp : ((s.start t).cakSlot slot).port = p) :
    Runs (.mkaFrame t p m) s fun s' =>
      (s'.port p).peer = some (m.prio, m.sci, slot)
        ∧ ((if lexLt [(s.start t).f R.NET_PORT_CFG_KS_PRIO p, (s.start t).sci p] [m.prio, m.sci] then
            ((s.start t).port p).peer.map (·.2) ≠ some (m.sci, slot) else m.sak = true) → s'.SaOf p slot) := by
  refine ⟨_, exec_mkaFrame hon hslot hv hp, ?_⟩
  dsimp only
  have hpeer := peer_notePeer (s.start t) p (some (m.prio, m.sci, slot)) m.send
  have hserver := keyServer_of_peer (tch_notePeer (s.start t) p (some (m.prio, m.sci, slot)) m.send) (by decide) hpeer
  generalize (s.start t).notePeer p (some (m.prio, m.sci, slot)) m.send = v at hpeer hserver ⊢
  have hchanged : (!((s.start t).port p).peer.any fun x => x.2.1 == m.sci && x.2.2 == slot) = true
      ↔ ((s.start t).port p).peer.map (·.2) ≠ some (m.sci, slot) := by
    cases ((s.start t).port p).peer with
    | none => exact ⟨fun _ => (Option.some_ne_none _).symm, fun _ => rfl⟩
    | some x =>
      show (!(x.2.1 == m.sci && x.2.2 == slot)) = true ↔ some (x.2.1, x.2.2) ≠ some (m.sci, slot)
      rw [Bool.not_eq_true', ← Bool.not_eq_true, Bool.and_eq_true, beq_iff_eq, beq_iff_eq, ne_eq, Option.some.injEq, Prod.mk.injEq]
  rw [hserver]
  generalize hcond : (if lexLt _ _ then _ else m.sak : Bool) = c
  cases c with
  | true =>
    rw [State.doIf_true]
    have hkeeps := SaKeeps.txKick (v.installSak p slot) p
    have hpeer' : ((v.installSak p slot).port p).peer = some (m.prio, m.sci, slot) := (peer_installSak ..).trans hpeer
    exact ⟨hkeeps.1.trans hpeer', fun _ => hkeeps.saOf hpeer' (installSak_saOf ..)⟩
  | false =>
    rw [State.doIf_false]
    refine ⟨(SaKeeps.txKick v p).1.trans hpeer, fun hsak => ?_⟩
    split at hsak
    case isTrue hlex =>
      rw [if_pos hlex, hchanged.mpr hsak] at hcond
      cases hcond
    case isFalse hlex =>
      rw [if_neg hlex, hsak] at hcond
      cases hcond

/-- A peer that is lost leaves the port without one; the key server takes a new SAK of a slot that is still valid, else the transmit SA goes. -/
theorem mkaPeerTimeout_agrees {prio sci slot : Nat} (send : List (List Byte)) (hpeer : ((s.start t).port p).peer = some (prio, sci, slot)) :
    Runs (.mkaPeerTimeout t p send) s fun s' =>
      (s'.port p).peer = none
        ∧ (if lexLt [(s.start t).f R.NET_PORT_CFG_KS_PRIO p, (s.start t).sci p] [prio, sci] = true ∧ ((s.start t).cakSlot slot).valid = true then
            s'.SaOf p slot else s'.SaGone p) := by
  refine ⟨_, exec_mkaPeerTimeout hon send hpeer, ?_⟩
  dsimp only
  have hnone := peer_notePeer (s.start t) p none send
  have hcak : ((s.start t).notePeer p none send).cakSlot slot = (s.start t).cakSlot slot :=
    congrArg (fun x : HuskSt => kget ({} : CakSlot) x.cak slot) ((tch_notePeer (s.start t) p none send).1 .husk (by decide))
  rw [keyServer_of_peer (Touches.refl 0 (s.start t)) (by decide) hpeer, hcak]
  generalize (s.start t).notePeer p none send = v at hnone ⊢
  simp only [← Bool.and_eq_true]
  split
  case isTrue h =>
    have hpeer' : ((v.installSak p slot).port p).peer = none := (peer_installSak ..).trans hnone
    have hkeeps := SaKeeps.txKick (v.installSak p slot) p
    obtain ⟨hsa, htx⟩ := hkeeps.gone hpeer'
    obtain ⟨htx0, hsa0⟩ := installSak_saOf v p slot
    exact ⟨hkeeps.1.trans hpeer', htx.trans htx0, hsa.trans hsa0⟩
  case isFalse h =>
    have hpeer' : ((v.loseSa p).port p).peer = none := by
      unfold State.port
      rw [loseSa_net]
      exact hnone
    have hkeeps := SaKeeps.txKick (v.loseSa p) p
    obtain ⟨hsa, htx⟩ := hkeeps.gone hpeer'
    obtain ⟨htx0, hsa0⟩ := loseSa_gone v p
    exact ⟨hkeeps.1.trans hpeer', htx.trans htx0, hsa.trans hsa0⟩

end Mka

/-- Settles O46: the key commands by what each writes into its slot, the SAKs by what each port keeps of its transmit SA. -/
theorem keysAreLoadedAndRemoved : Obligations.KeysAreLoadedAndRemoved := by
  unfold Obligations.KeysAreLoadedAndRemoved
  refine ⟨fun s w t fn data => ?_, ?_⟩
  · dsimp only
    refine ⟨fun h => ⟨fun hc => ?_, fun hc hopen => ?_, fun hc hopen hdom hunset hslot => ?_, fun hc hopen hdom hset hslot r hr => ?_⟩,
      fun h hc => ⟨_, exec_pwDel h hc, doPwDel_facts w fn⟩,
      fun h hc hroom => ⟨_, exec_load h hc, doLoad_facts w fn hroom⟩,
      fun h hc hroom => ⟨_, exec_delete h hc, cakWritten_facts w _ _ _ hroom⟩⟩
    · refine ⟨_, exec_pwSet h, ?_⟩
      rw [keyCommand_conflict hc]
      exact keyRefused_facts w fn 1 (by decide)
    · refine ⟨_, exec_pwSet h, ?_⟩
      rw [keyCommand_alone hc, doPwSet_closed hopen]
      exact keyRefused_facts w fn 3 (by decide)
    · refine ⟨_, exec_pwSet h, ?_⟩
      rw [keyCommand_alone hc, doPwSet_oem hopen hdom hunset hslot]
      exact setVerifier_facts ..
    · refine ⟨_, exec_pwSet h, ?_⟩
      rw [keyCommand_alone hc, doPwSet_saf hopen hdom hset hslot hr]
      cases r with
      | none =>
        rw [Option.elim_none]
        exact keyRefused_facts w fn 2 (by decide)
      | some v =>
        rw [Option.elim_some]
        obtain ⟨hpw, hresult, -⟩ := setVerifier_facts w fn (w.f R.HUSK_KEY_CTL_SLOT) v
        exact ⟨hpw, hresult⟩
  · rintro s u t rfl
    refine ⟨fun slot hv hd => ⟨_, exec_sakRemoval hv hd, cakSlot_of_husk rfl, fun p hp hsa => ?_⟩, fun p hon =>
      ⟨fun m slot hslot hv hp => mkaFrame_agrees hon hslot hv hp, fun prio sci slot send hpeer => mkaPeerTimeout_agrees hon send hpeer⟩⟩
    obtain ⟨htx, hnone⟩ := SaGone.setCakSlot (dropSa_both hp hsa) slot { (s.start t).cakSlot slot with sakDeadline := 0 }
    exact ⟨hnone, htx⟩

end Sys2Proof.Machine
end

section
/-! PROOFS. O47, O48. What a reset leaves (R327, R491), and what PORST_N and the rails do (R485 to R488). -/
namespace Sys2Proof.Machine

/-! ## The state that a reset leaves -/

/-- What a reset leaves beside the registers that it keeps: what flash and one-time storage hold, the rails and sources, and the TAP. -/
def State.resetBase (s : State) : State :=
  { pending := s.pending, now := s.now, out := s.out, free := s.free, tap := s.tap
    husk := { skvRootHash := s.husk.skvRootHash, duk := s.husk.duk, oemRootHash := s.husk.oemRootHash, oemKek := s.husk.oemKek
              safRootHash := s.husk.safRootHash, pw := s.husk.pw, cak := s.husk.cak, eraseOpen := s.husk.eraseOpen
              recordBad := s.husk.recordBad }
    pwr := { s.pwr with tokens := [], refillAt := none, waiting := none }
    safe := { changeLog := s.safe.changeLog, overlay := s.safe.overlay, lastCrc := s.safe.lastCrc }
    trip := { lifeSaved := s.trip.lifeSaved, lifeSavedTime := s.trip.lifeSavedTime }
    rel := { saved := s.rel.saved }
    cfg := { slots := s.cfg.slots } }

theorem cleared_eq (s : State) : s.cleared = fuseFields.foldl (fun t r => t.keepF s r) s.resetBase := rfl

theorem tch_resetBase_cleared (s : State) : Touches 16387 s.resetBase s.cleared := by
  have hblk : ∀ r ∈ fuseFields, 2 ^ r.blk.num &&& 16387 = 2 ^ r.blk.num := by decide
  rw [cleared_eq]
  exact List.foldlRecOn fuseFields _ (Touches.refl _ _) fun t h r hr => tch_keepF.comp (hblk r hr) h

/-- The fields that a reset keeps beside LIFECYCLE stand in other words. -/
theorem lifecycle_cleared (s : State) : s.cleared.f R.HUSK_ID_LIFECYCLE = s.f R.HUSK_ID_LIFECYCLE := by
  have hother : ∀ r ∈ fuseFields.tail, R.HUSK_ID_LIFECYCLE.blk ≠ r.blk ∨ R.HUSK_ID_LIFECYCLE.key 0 0 ≠ r.key 0 0 := by decide
  rw [cleared_eq]
  show (fuseFields.tail.foldl (fun t r => t.keepF s r) (s.resetBase.keepF s R.HUSK_ID_LIFECYCLE)).f R.HUSK_ID_LIFECYCLE = _
  refine List.foldlRecOn (motive := fun t : State => t.f R.HUSK_ID_LIFECYCLE = s.f R.HUSK_ID_LIFECYCLE) fuseFields.tail _ ?_ fun t h r hr => ?_
  · exact (f_setF_same _ _ _ _ _ (by decide)).trans (Nat.mod_eq_of_lt (f_lt s R.HUSK_ID_LIFECYCLE 0 0))
  · rw [← h]
    exact f_setF_apart _ _ _ _ _ _ ((hother r hr).imp id .inl)

/-- A reset leaves the device wiped, whatever has been done since to PWR. -/
theorem wiped_of_touches {s v : State} (h : Touches 802816 s.pinsLow.cleared v) (hheld : v.inReset = true) : Wiped s v := by
  have hbase : Touches 802819 s.pinsLow.resetBase v := h.comp (by decide) ((tch_resetBase_cleared _).mono (by decide))
  have hpins : Touches 34359738368 s s.pinsLow := tch_pinsLow
  have hhusk : s.pinsLow.husk = s.husk := hpins.1 .husk (by decide)
  have hsafe : s.pinsLow.safe = s.safe := hpins.1 .safe (by decide)
  have hcfg : v.cfg = { slots := s.pinsLow.cfg.slots } := hbase.1 .cfg (by decide)
  have hrel : v.rel = { saved := s.pinsLow.rel.saved } := hbase.1 .rel (by decide)
  have hsafe' : v.safe = s.pinsLow.resetBase.safe := hbase.1 .safe (by decide)
  have htrip : v.trip = s.pinsLow.resetBase.trip := hbase.1 .trip (by decide)
  have hhusk' : v.husk = s.pinsLow.resetBase.husk := hbase.1 .husk (by decide)
  have htap : v.tap = s.pinsLow.tap := hbase.1 .tap (by decide)
  refine ⟨hheld, fun b h1 h2 h3 => ?_, ⟨hbase.1 .sys (by decide), hbase.1 .hostq (by decide), hbase.1 .net (by decide), hbase.1 .can (by decide)⟩,
    ⟨hbase.1 .sea (by decide), hbase.1 .meas (by decide), hbase.1 .pos (by decide), hbase.1 .pwm (by decide), hbase.1 .loop (by decide),
      hbase.1 .clk (by decide), hbase.1 .mesh (by decide)⟩, ⟨?_, ?_, ?_, ?_, ?_⟩, ⟨?_, ?_, ?_, ?_, ?_⟩, ?_, ?_⟩
  · exact hbase.1 (.regs b) (by revert h1 h2 h3; cases b <;> decide)
  · rw [hcfg, show s.pinsLow.cfg = s.cfg from hpins.1 .cfg (by decide)]
  · rw [hrel, show s.pinsLow.rel = s.rel from hpins.1 .rel (by decide)]
  · rw [hsafe', ← hsafe]; rfl
  · rw [hsafe', ← hsafe]; rfl
  · rw [htrip, ← show s.pinsLow.trip = s.trip from hpins.1 .trip (by decide)]; rfl
  · rw [hhusk', ← hhusk]; rfl
  · rw [hhusk', ← hhusk]; rfl
  · rw [hhusk', ← hhusk]; rfl
  · rw [hhusk', ← hhusk]; rfl
  · rw [hhusk', ← hhusk]; rfl
  · rw [h.f _ _ _ (by decide), lifecycle_cleared, hpins.f _ _ _ (by decide)]
  · rw [htap, show s.pinsLow.tap = s.tap from hpins.1 .tap (by decide)]

/-- Of a reset that a source asserts, PWR records the cause. -/
theorem tch_cleared_assertReset (s : State) {cause : FRef} (hc : cause.blk = .pwr) : Touches 16384 s.pinsLow.cleared (s.assertReset cause) := by
  unfold State.assertReset
  refine tch_setB.comp (by rw [hc]; decide) ?_
  exact Touches.doIf (Touches.refl _ _) fun u h => tch_setWord.comp (by decide) h

/-! ## PORST_N, rails, and the end of a reset (R485 to R488) -/

/-- Bits of RST_CAUSE that stand, with none of the others, when a power-on has written it. -/
theorem b_powerOn (s : State) : ((s.setWord .pwr (W.PWR_RST_CAUSE.key 0 0) 0).setB R.PWR_RST_CAUSE_POR true).b R.PWR_RST_CAUSE_POR = true
    ∧ ∀ r ∈ [R.PWR_RST_CAUSE_SUPPLY, R.PWR_RST_CAUSE_PIN],
      ((s.setWord .pwr (W.PWR_RST_CAUSE.key 0 0) 0).setB R.PWR_RST_CAUSE_POR true).b r = false := by
  have hzero (hi lo : Nat) : getBits ((s.setWord .pwr (W.PWR_RST_CAUSE.key 0 0) 0).word .pwr (W.PWR_RST_CAUSE.key 0 0)) hi lo = 0 := by
    rw [word_setWord_same]
    simp [getBits]
  refine ⟨b_setB_same _ _ _ _ _ (by decide), fun r hr => ?_⟩
  simp only [List.mem_cons, List.not_mem_nil, or_false] at hr
  obtain rfl | rfl := hr
  · rw [b_setB_bits _ _ _ _ _ _ (by decide)]
    exact congrArg (· == 1) (hzero 29 29)
  · rw [b_setB_bits _ _ _ _ _ _ (by decide)]
    exact congrArg (· == 1) (hzero 30 30)

theorem b_assertReset (s : State) {cause : FRef} (hc : cause.lo = cause.hi ∧ cause.hi < 32) : (s.assertReset cause).b cause = true :=
  b_setB_same _ _ _ _ _ hc

/-- The state that PORST_N leaves. -/
def State.porstLow (s : State) : State :=
  { s.assertReset R.PWR_RST_CAUSE_PIN with pwr := { (s.assertReset R.PWR_RST_CAUSE_PIN).pwr with porst := true } }

theorem porstLow_facts (s : State) : Wiped s s.porstLow ∧ s.porstLow.pwr.porst = true ∧ s.porstLow.b R.PWR_RST_CAUSE_PIN = true := by
  have htouch : Touches 802816 s.pinsLow.cleared s.porstLow :=
    Touches.upd_pwr (fun _ _ => rfl) (by decide) ((tch_cleared_assertReset s rfl).mono (by decide))
  refine ⟨wiped_of_touches htouch rfl, rfl, ?_⟩
  unfold State.porstLow
  rw [b_upd_pwr, b_assertReset _ (by decide)]

/-- The state in which a rail below its threshold holds the device. -/
def State.railLow (s : State) (r : Nat) : State :=
  { s.assertReset R.PWR_RST_CAUSE_SUPPLY with
    pwr := { (s.assertReset R.PWR_RST_CAUSE_SUPPLY).pwr with
      supplyReset := true, rails := putBit (s.assertReset R.PWR_RST_CAUSE_SUPPLY).pwr.rails r false } }

theorem tch_railLow (s : State) (r : Nat) : Touches 802816 s.pinsLow.cleared (s.railLow r) :=
  Touches.upd_pwr_keep rfl (by decide) ((tch_cleared_assertReset s rfl).mono (by decide))

/-- The state that SUPPLY_LOW leaves: the rail in RST_CAUSE, or a power-on alone. -/
def State.supplyFallen (s : State) (r : Nat) (deep : Bool) : State :=
  ((s.railLow r).setBitF R.PWR_RST_CAUSE_RAILS r true).doIf deep fun s =>
    (s.setWord .pwr (W.PWR_RST_CAUSE.key 0 0) 0).setB R.PWR_RST_CAUSE_POR true

theorem tch_supplyFallen (s : State) (r : Nat) (deep : Bool) : Touches 16384 (s.railLow r) (s.supplyFallen r deep) :=
  Touches.doIf (tch_setBitF.mono (by decide)) fun _ h => tch_setB.comp (by decide) (tch_setWord.comp (by decide) h)

theorem supplyFallen_pwr (s : State) (r : Nat) (deep : Bool) : (s.supplyFallen r deep).pwr = (s.railLow r).pwr :=
  (tch_supplyFallen s r deep).1 .pwr (by decide)

theorem supplyFallen_facts (s : State) {r : Nat} (deep : Bool) (hr : r < 8) :
    Wiped s (s.supplyFallen r deep) ∧ (s.supplyFallen r deep).pwr.supplyReset = true ∧ (s.supplyFallen r deep).pwr.rails.testBit r = false
      ∧ (if deep = true then (s.supplyFallen r deep).b R.PWR_RST_CAUSE_POR = true ∧ (s.supplyFallen r deep).b R.PWR_RST_CAUSE_SUPPLY = false
            ∧ (s.supplyFallen r deep).b R.PWR_RST_CAUSE_PIN = false
          else (s.supplyFallen r deep).b R.PWR_RST_CAUSE_SUPPLY = true ∧ (s.supplyFallen r deep).bitF R.PWR_RST_CAUSE_RAILS r = true) := by
  have hpwr := supplyFallen_pwr s r deep
  refine ⟨wiped_of_touches ((tch_supplyFallen s r deep).comp (by decide) (tch_railLow s r)) ?_, by rw [hpwr]; rfl, ?_, ?_⟩
  · unfold State.inReset
    rw [hpwr, show (s.railLow r).pwr.supplyReset = true from rfl, Bool.or_true, Bool.true_or]
  · rw [hpwr]
    exact (testBit_put _ _ _ _).trans (if_pos rfl)
  · cases deep with
    | true =>
      obtain ⟨hpor, hothers⟩ := b_powerOn ((s.railLow r).setBitF R.PWR_RST_CAUSE_RAILS r true)
      rw [if_pos rfl]
      exact ⟨hpor, hothers _ (by decide), hothers _ (by decide)⟩
    | false =>
      rw [if_neg Bool.false_ne_true]
      unfold State.supplyFallen
      rw [State.doIf_false, b_of_f (f_setBitF_apart _ _ _ _ _ _ _ (.inr (.inr (by decide)))), bitF_setBitF _ _ _ _ _ _ _ (by decide) hr, if_pos rfl]
      unfold State.railLow
      rw [b_upd_pwr, b_assertReset _ (by decide)]
      exact ⟨rfl, rfl⟩

section Sources
variable {s : State} {t : Instant}

theorem exec_porstN {since : Instant} (hp : (s.start t).pwr.porst = false) (hsince : since + usQ ≤ (s.start t).now) :
    exec (.porstN t since) s = .next (s.start t).porstLow :=
  congrArg Host.Outcome.next (State.doIf_of (by rw [hp, decide_eq_true hsince]; rfl))

theorem exec_supplyLow {r mv : Nat} {since : Instant} (hr : r < 8) (hmv : mv < railFall r) (hsince : since + 2 * usQ ≤ (s.start t).now) :
    exec (.supplyLow t r mv since) s = .next ((s.start t).supplyFallen r (decide (mv < 1200) && r == 3)) :=
  congrArg Host.Outcome.next (State.doIf_of (by rw [decide_eq_true hr, decide_eq_true hmv, decide_eq_true hsince]; rfl))

theorem exec_supplyOk {mvs : List Nat} {since : Instant} (hs : (s.start t).pwr.supplyReset = true) (hsince : since + msQ ≤ (s.start t).now)
    (hrails : ∀ r < 8, (if (s.start t).pwr.rails.testBit r then railFall r else railRise r) ≤ mvs.getD r 0) :
    exec (.supplyOk t mvs since) s
      = .next { s.start t with pwr := { (s.start t).pwr with supplyReset := false, rails := 0xFF } } := by
  have hup : (s.start t).railsUp mvs = true :=
    List.all_eq_true.mpr fun r hr => decide_eq_true (hrails r (List.mem_range.mp hr))
  exact congrArg Host.Outcome.next (State.doIf_of (by rw [hs, hup, decide_eq_true hsince]; rfl))

end Sources

end Sys2Proof.Machine
end

section
/-! PROOFS. O47. SYS_RST (R489), PERST_N (R490), and the sessions and rings that a loss of the link ends (R315, R374). -/
namespace Sys2Proof.Machine

/-! ## SYS_RST (R489) -/

/-- The time does not move when a reset is asserted. -/
theorem assertReset_now (s : State) {cause : FRef} (hc : cause.blk = .pwr) : (s.assertReset cause).now = s.now :=
  calc (s.assertReset cause).now = s.pinsLow.cleared.now := (tch_cleared_assertReset s hc).1 .now (by decide)
    _ = s.pinsLow.now := (tch_resetBase_cleared s.pinsLow).1 .now (by decide)
    _ = s.now := tch_pinsLow.1 .now (by decide)

/-- The state that SYS_RST leaves. -/
def State.softLow (s : State) : State :=
  { s.assertReset R.PWR_RST_CAUSE_SOFT with pwr := { (s.assertReset R.PWR_RST_CAUSE_SOFT).pwr with softEnd := (s.assertReset R.PWR_RST_CAUSE_SOFT).now + 100 * usQ } }

theorem softLow_facts (s : State) : Wiped s s.softLow ∧ s.softLow.pwr.softEnd = s.now + 100 * usQ ∧ s.softLow.b R.PWR_RST_CAUSE_SOFT = true := by
  have htouch : Touches 802816 s.pinsLow.cleared s.softLow :=
    Touches.upd_pwr_keep rfl (by decide) ((tch_cleared_assertReset s rfl).mono (by decide))
  have hend : s.softLow.pwr.softEnd = s.now + 100 * usQ := congrArg (· + 100 * usQ) (assertReset_now s rfl)
  have hpos : 0 < 100 * usQ := by decide
  refine ⟨wiped_of_touches htouch ?_, hend, ?_⟩
  · unfold State.inReset
    rw [hend, bne_iff_ne.mpr (Nat.ne_of_gt (Nat.add_pos_right _ hpos)), Bool.or_true]
  · unfold State.softLow
    rw [b_upd_pwr, b_assertReset _ (by decide)]

/-- What the device does of its own before a reset by SYS_RST: update and flash work end, and the records are saved. -/
def State.savedForReset (w : State) : State := (w.failUpdate 0xE).doIf w.sealed (·.saveRecords)

theorem savedForReset_now (w : State) : w.savedForReset.now = w.now :=
  have h : Touches (4295032837 ||| 2164260864) w w.savedForReset :=
    Touches.doIf (tch_failUpdate.mono (by decide)) fun _ h => tch_saveRecords.comp (by decide) h
  h.1 .now (by decide)

section SysRst
variable {s w : State} {t : Instant} {fn : Nat} {data : Word}

theorem exec_sysRst (h : (s.start t).actionWrite fn R.PWR_RST_CMD_SYS_RST data = (w, true)) : exec (.sysRst t fn data) s
    = .next (w.doIf (w.sessionOpen fn && w.domainOf fn == domOem && getBits data 15 0 == 0xB007) fun w =>
        if w.allHeld then w.savedForReset.softLow else w.post E.RST_CMD_REFUSED) :=
  action_passes h fun s go => s.doIf (go && s.sessionOpen fn && s.domainOf fn == domOem && getBits data 15 0 == 0xB007) fun s =>
    if s.allHeld then s.savedForReset.softLow else s.post E.RST_CMD_REFUSED

theorem exec_sysRst_of (h : (s.start t).actionWrite fn R.PWR_RST_CMD_SYS_RST data = (w, true)) (hopen : w.sessionOpen fn = true)
    (hdom : w.domainOf fn = domOem) (hkey : getBits data 15 0 = 0xB007) :
    exec (.sysRst t fn data) s = .next (if w.allHeld then w.savedForReset.softLow else w.post E.RST_CMD_REFUSED) :=
  (exec_sysRst h).trans (congrArg Host.Outcome.next (State.doIf_of (by rw [hopen, hdom, hkey]; decide)))

theorem exec_sysRst_not (h : (s.start t).actionWrite fn R.PWR_RST_CMD_SYS_RST data = (w, true))
    (hno : w.sessionOpen fn = false ∨ w.domainOf fn ≠ domOem ∨ getBits data 15 0 ≠ 0xB007) : exec (.sysRst t fn data) s = .next w := by
  refine (exec_sysRst h).trans (congrArg Host.Outcome.next (State.doIf_not ?_))
  obtain hopen | hdom | hkey := hno
  · rw [hopen, Bool.false_and, Bool.false_and]
  · rw [beq_false_of_ne hdom, Bool.and_false, Bool.false_and]
  · rw [beq_false_of_ne hkey, Bool.and_false]

end SysRst

/-! ## PERST_N (R490) -/

theorem exec_perstNRelease {s : State} {t : Instant} (h : (s.start t).inReset = false) :
    exec (.perstNRelease t) s = .next { s.start t with hostq := { (s.start t).hostq with linkUp := true } } :=
  congrArg Host.Outcome.next (State.doIf_of (by rw [h]; rfl))

theorem exec_perstN {s : State} {t since : Instant} (h : (s.start t).inReset = false) (hsince : since + usQ ≤ (s.start t).now) :
    exec (.perstN t since) s = .next (s.start t).loseLink :=
  congrArg Host.Outcome.next (State.doIf_of (by rw [h, decide_eq_true hsince]; rfl))

/-- What the rings and the sessions of HOSTQ leave alone: the link, Bus Master Enable, and the cause of a loss of host. -/
def SameLink (s s' : State) : Prop :=
  s'.hostq.linkUp = s.hostq.linkUp ∧ s'.hostq.bme = s.hostq.bme ∧ s'.hostq.lossCause = s.hostq.lossCause

theorem SameLink.refl (s : State) : SameLink s s := ⟨rfl, rfl, rfl⟩

theorem SameLink.of_hostq {s s' : State} (h : s'.hostq = s.hostq) : SameLink s s' := by
  unfold SameLink
  rw [h]
  exact ⟨rfl, rfl, rfl⟩

theorem SameLink.trans {s u v : State} (h : SameLink s u) (h' : SameLink u v) : SameLink s v :=
  ⟨h'.1.trans h.1, h'.2.1.trans h.2.1, h'.2.2.trans h.2.2⟩

theorem Touches.sameLink {m : Nat} {s s' : State} (h : Touches m s s') (hm : m.testBit 27 = false) : SameLink s s' := .of_hostq (h.1 .hostq hm)

theorem SameLink.doIf {s u : State} {c : Bool} {g : State → State} (h : SameLink s u) (hg : SameLink u (g u)) : SameLink s (u.doIf c g) := by
  cases c with
  | true => exact h.trans hg
  | false => exact h

theorem sameLink_modDesc (s : State) (tag : Nat) (g : HDesc → HDesc) : SameLink s (s.modDesc tag g) := by
  unfold State.modDesc
  split
  · exact ⟨rfl, rfl, rfl⟩
  · exact .refl s

theorem sameLink_dropDesc (s : State) (tag : Nat) : SameLink s (s.dropDesc tag) := by
  unfold State.dropDesc
  split
  · exact .refl s
  · dsimp only
    split
    · exact ⟨rfl, rfl, rfl⟩
    · refine .trans ?_ (.of_hostq (State.setF_hostq ..))
      refine .doIf (.trans ?_ (.of_hostq (State.setF_hostq ..))) (.of_hostq (State.setF_hostq ..))
      exact ⟨rfl, rfl, rfl⟩

theorem sameLink_discard (s : State) (c : HDesc → Bool) : SameLink s (s.discard c) := by
  unfold State.discard
  refine List.foldlRecOn (motive := SameLink s) _ _ (.refl s) fun t h x _ => ?_
  split
  · exact h.trans (sameLink_dropDesc ..)
  · exact h.trans (sameLink_modDesc ..)

/-- The records of interrupts and refusals are no part of the link. -/
theorem sameLink_upd (s : State) (unsig : KMap (List Instant)) (unsigNow refusing : List Nat) :
    SameLink s { s with hostq := { s.hostq with unsig := unsig, unsigNow := unsigNow, refusing := refusing } } := ⟨rfl, rfl, rfl⟩

theorem sameLink_dropRings (s : State) (fn : Nat) : SameLink s (s.dropRings fn) := by
  have hoff : SameLink s ((List.range 32).foldl (fun s q => (s.sqOff fn q).cqOff fn q) (s.discard fun d => d.fn == fn)) :=
    List.foldlRecOn (motive := SameLink s) _ _ (sameLink_discard ..) fun t h q _ =>
      (h.trans (tch_sqOff.sameLink (by decide))).trans (tch_cqOff.sameLink (by decide))
  unfold State.dropRings
  dsimp only
  generalize (List.range 32).foldl _ _ = u at hoff ⊢
  exact hoff.trans (sameLink_upd ..)

/-! ## Sessions that end -/

/-- The fields of HUSK_SESS_STAT of a function stand in one word, and each function has its own. -/
theorem key_sessStat_ne {i j : Nat} (h : i ≠ j) : R.HUSK_SESS_STAT_PHASE.key 0 i ≠ R.HUSK_SESS_STAT_PHASE.key 0 j := by
  show 0x24 + 65536 * i ≠ 0x24 + 65536 * j
  omega

theorem noSession_phase (s : State) (fn : Nat) : (s.noSession fn).f R.HUSK_SESS_STAT_PHASE 0 fn = 0 := by
  unfold State.noSession
  rw [f_setF_bits _ _ _ _ _ _ (by decide), f_setF_bits _ _ _ _ _ _ (by decide), f_setF_same _ _ _ _ _ (by decide)]
  rfl

/-- The end of a session writes to no other word. -/
theorem f_noSession_other (s : State) {fn : Nat} {q : FRef} {i j : Nat} (h : q.key i j ≠ R.HUSK_SESS_STAT_PHASE.key 0 fn) :
    (s.noSession fn).f q i j = s.f q i j := by
  have hdom : q.key i j ≠ R.HUSK_SESS_STAT_DOMAIN.key 0 fn := h
  have huser : q.key i j ≠ R.HUSK_SESS_STAT_USER.key 0 fn := h
  unfold State.noSession
  rw [f_setF_key _ _ huser, f_setF_key _ _ hdom, f_setF_key _ _ h]

theorem tch_noSession_endSession (s : State) (fn : Nat) : Touches 134414337 (s.noSession fn) (s.endSession fn) := by
  unfold State.endSession
  refine tch_post.comp (by decide) (.ite (tch_setSession.mono (by decide)) ?_)
  exact .upd_hostq (by decide) (tch_setSession.mono (by decide))

theorem tch_setF_dropSession {s : State} {fn : Nat} (h : s.sessionOpen fn = false) :
    Touches 131072 (s.setF R.HUSK_SESS_STAT_PHASE 0 0 fn) (s.dropSession fn) := by
  unfold State.dropSession
  rw [if_neg (by rw [h]; exact Bool.false_ne_true)]
  exact tch_setSession

theorem dropSession_phase (s : State) (fn : Nat) : (s.dropSession fn).f R.HUSK_SESS_STAT_PHASE 0 fn = 0 := by
  cases h : s.sessionOpen fn with
  | true =>
    rw [show s.dropSession fn = s.endSession fn from if_pos h, (tch_noSession_endSession s fn).f _ _ _ (by decide), noSession_phase]
  | false =>
    rw [(tch_setF_dropSession h).f _ _ _ (by decide), f_setF_same _ _ _ _ _ (by decide)]
    rfl

theorem f_dropSession_other (s : State) {fn : Nat} {q : FRef} {i j : Nat} (hq : q.blk = .husk)
    (hkey : q.key i j ≠ R.HUSK_SESS_STAT_PHASE.key 0 fn) : (s.dropSession fn).f q i j = s.f q i j := by
  cases h : s.sessionOpen fn with
  | true =>
    rw [show s.dropSession fn = s.endSession fn from if_pos h, (tch_noSession_endSession s fn).f _ _ _ (by rw [hq]; decide), f_noSession_other s hkey]
  | false => rw [(tch_setF_dropSession h).f _ _ _ (by rw [hq]; decide), f_setF_key _ _ hkey]

/-- The rings that a session of domain `d` has bound refuse further descriptors, where the function's base domain is another. -/
def State.refuseBound (s : State) (fn d : Nat) (bound : List Nat) : State :=
  if s.baseDomain fn = d then s
  else { s with hostq := { s.hostq with refusing := s.hostq.refusing ++ bound.filter (fun q => !s.hostq.refusing.contains q) } }

theorem sameLink_refuseBound (s : State) (fn d : Nat) (bound : List Nat) : SameLink s (s.refuseBound fn d bound) := by
  unfold State.refuseBound
  split
  · exact .refl s
  · exact ⟨rfl, rfl, rfl⟩

/-- The rings of a function that a session has bound. -/
def State.boundRings (s : State) (fn : Nat) : List Nat :=
  ((List.range 32).filter fun q => s.b R.HOSTQ_SQ_CFG_EN q fn && s.f R.HOSTQ_SQ_STAT_DOMAIN q fn == s.f R.HUSK_SESS_STAT_DOMAIN 0 fn).map (32 * fn + ·)

theorem endSession_eq (s : State) (fn : Nat) : s.endSession fn =
    (((s.noSession fn).setSession fn { s.session fn with verifying := false, wanted := false }).refuseBound fn (s.f R.HUSK_SESS_STAT_DOMAIN 0 fn)
      (s.boundRings fn)).post E.SESSION_CLOSED (sessSubject (s.session fn) fn) := rfl

theorem sameLink_endSession (s : State) (fn : Nat) : SameLink s (s.endSession fn) := by
  have hset (x : Session) : SameLink s ((s.noSession fn).setSession fn x) :=
    (tch_setSession.comp (m := 131074) (by decide) (tch_noSession.mono (by decide))).sameLink (by decide)
  rw [endSession_eq]
  exact ((hset _).trans (sameLink_refuseBound ..)).trans (.of_hostq (State.post_hostq ..))

theorem sameLink_dropSession (s : State) (fn : Nat) : SameLink s (s.dropSession fn) := by
  cases h : s.sessionOpen fn with
  | true => rw [show s.dropSession fn = s.endSession fn from if_pos h]; exact sameLink_endSession s fn
  | false => exact .trans (.of_hostq (State.setF_hostq ..)) ((tch_setF_dropSession h).sameLink (by decide))

/-! ## The loss of the link -/

theorem loseFn_hostq (s : State) (cause fn : Nat) : (s.loseFn cause fn).hostq.linkUp = s.hostq.linkUp
    ∧ (s.loseFn cause fn).hostq.bme = putBit s.hostq.bme fn false ∧ (s.loseFn cause fn).hostq.lossCause = kset 0 s.hostq.lossCause fn cause := by
  obtain ⟨hup, hbme, hcause⟩ := (sameLink_dropRings s fn).trans (sameLink_dropSession _ fn)
  unfold State.loseFn
  exact ⟨hup, by rw [← hbme], by rw [← hcause]⟩

theorem loseFn_phase (s : State) (cause fn : Nat) : (s.loseFn cause fn).f R.HUSK_SESS_STAT_PHASE 0 fn = 0 := by
  unfold State.loseFn
  rw [f_upd_hostq, dropSession_phase]

theorem loseFn_phase_other (s : State) (cause : Nat) {fn j : Nat} (h : j ≠ fn) :
    (s.loseFn cause fn).f R.HUSK_SESS_STAT_PHASE 0 j = s.f R.HUSK_SESS_STAT_PHASE 0 j := by
  unfold State.loseFn
  rw [f_upd_hostq, f_dropSession_other _ rfl (key_sessStat_ne h), tch_dropRings.f _ _ _ (by decide)]

theorem loseLink_facts (s : State) (h : s.hostq.linkUp = true) : s.loseLink.hostq.linkUp = false ∧ s.loseLink.hostq.bme.testBit 0 = false
    ∧ s.loseLink.hostq.bme.testBit 1 = false ∧ s.loseLink.f R.HUSK_SESS_STAT_PHASE 0 0 = 0 ∧ s.loseLink.f R.HUSK_SESS_STAT_PHASE 0 1 = 0
    ∧ kget 0 s.loseLink.hostq.lossCause 0 = 2 ∧ kget 0 s.loseLink.hostq.lossCause 1 = 2 := by
  unfold State.loseLink
  rw [if_pos h]
  generalize hu : { s with hostq := { s.hostq with linkUp := false } } = u
  have hdown : u.hostq.linkUp = false := by rw [← hu]
  obtain ⟨hup0, hbme0, hcause0⟩ := loseFn_hostq u 2 0
  obtain ⟨hup1, hbme1, hcause1⟩ := loseFn_hostq (u.loseFn 2 0) 2 1
  refine ⟨by rw [hup1, hup0, hdown], ?_, ?_, ?_, loseFn_phase .., ?_, ?_⟩
  · rw [hbme1, testBit_put, if_neg (by decide), hbme0, testBit_put, if_pos rfl]
  · rw [hbme1, testBit_put, if_pos rfl]
  · rw [loseFn_phase_other _ _ (by decide), loseFn_phase]
  · rw [hcause1, kget_kset_other _ _ _ (by decide), hcause0, kget_kset_same]
  · rw [hcause1, kget_kset_same]

end Sys2Proof.Machine
end

section
/-! PROOFS. O47. The release of reset (R487): what the boot chain leaves of the sources, of NET and of the queue of SYS. -/
namespace Sys2Proof.Machine

/-! ## What an erase leaves of the core die -/

/-- After the die is held, an erase writes to registers of the husk alone. -/
theorem tch_heldOver_eraseCore (s : State) (fn : Nat) : Touches 2 (s.pinsLow.heldOver fn s.pinsLow.cleared) (s.eraseCore fn) := by
  unfold State.eraseCore
  refine tch_setF.comp (by decide) (tch_setF.comp (by decide) (.doIf ?_ fun _ h => tch_noSession.comp (by decide) h))
  refine tch_setF.comp (by decide) (tch_setF.comp (by decide) (tch_setF.comp (by decide) ?_))
  exact tch_setB.comp (by decide) (tch_setB.comp (by decide) (tch_setF.mono (by decide)))

theorem inReset_of_pwr {s s' : State} (h : s'.pwr = s.pwr) : s'.inReset = s.inReset := by
  unfold State.inReset
  rw [h]

theorem heldOver_pwr (s : State) (fn : Nat) (c : State) : (s.heldOver fn c).pwr = c.pwr := rfl

theorem resetBase_pwr (s : State) : s.resetBase.pwr = { s.pwr with tokens := [], refillAt := none, waiting := none } := rfl

theorem eraseCore_pwr (s : State) (fn : Nat) : (s.eraseCore fn).pwr = { s.pwr with tokens := [], refillAt := none, waiting := none } := by
  have hcore : (s.eraseCore fn).pwr = (s.pinsLow.heldOver fn s.pinsLow.cleared).pwr := (tch_heldOver_eraseCore s fn).1 .pwr (by decide)
  have hbase : s.pinsLow.cleared.pwr = s.pinsLow.resetBase.pwr := (tch_resetBase_cleared _).1 .pwr (by decide)
  have hpins : s.pinsLow.pwr = s.pwr := tch_pinsLow.1 .pwr (by decide)
  rw [hcore, heldOver_pwr, hbase, resetBase_pwr, hpins]

/-! ## The end of a reset (R487) -/

theorem eraseOpen_tryFirmware (l : List (BitVec 384 × Nat × Nat)) : ∀ (n : Nat) (s : State), (s.tryFirmware n l).husk.eraseOpen = s.husk.eraseOpen := by
  induction l with
  | nil => exact fun n s => congrArg HuskSt.eraseOpen (State.setF_husk ..)
  | cons x l ih =>
    obtain ⟨fw, svn, build⟩ := x
    intro n s
    unfold State.tryFirmware
    split
    · unfold State.runFirmware
      rw [State.setF_husk, State.setF_husk]
    · rw [ih, State.post_husk]

theorem inReset_huskBoot (s : State) (b : BootIn) : (s.huskBoot b).inReset = s.inReset := by
  have hphase : (s.setF R.PWR_STAT_PHASE 2).inReset = s.inReset := inReset_of_pwr (State.setF_pwr ..)
  rw [← hphase]
  unfold State.huskBoot
  dsimp only
  generalize s.setF R.PWR_STAT_PHASE 2 = u
  split
  · unfold State.inReset
    rw [eraseCore_pwr]
  · have h : Touches 6526558727 u (((u.loadRecords b).loadLife b).beginChoice) := 
      tch_beginChoice.comp (by decide) (tch_loadLife.comp (by decide) (tch_loadRecords.mono (by decide)))
    exact inReset_of_pwr (h.1 .pwr (by decide))

/-- Starting the records and the slot choice leaves NET, the sources of reset and what SYS has to report. -/
theorem tch_huskBoot_noErase {s : State} {b : BootIn} (h : s.husk.eraseOpen = false) : Touches 6526558727 s (s.huskBoot b) := by
  unfold State.huskBoot
  dsimp only
  rw [State.setF_husk, h, Bool.false_and, if_neg Bool.false_ne_true]
  exact tch_beginChoice.comp (by decide) (tch_loadLife.comp (by decide) (tch_loadRecords.comp (by decide) (tch_setF.mono (by decide))))

/-- The state with the PWR of another that waits for no reference. -/
def State.waitsNot (u : State) (x : PwrSt) : State := { u with pwr := { x with waiting := none } }

theorem inReset_waitsNot (s u : State) : (u.waitsNot s.pwr).inReset = s.inReset := rfl
theorem waitsNot_husk (u : State) (x : PwrSt) : (u.waitsNot x).husk = u.husk := rfl

theorem tch_waitsNot {u : State} {x : PwrSt} (h : x = u.pwr) : Touches 524288 u (u.waitsNot x) := by
  subst h
  exact .upd_pwr_keep rfl (by decide) (.refl _ _)

/-- The state in which the boot chain has begun. -/
def State.bootBegun (s : State) : State := (s.setF R.PWR_STAT_PHASE 1).waitsNot s.pwr

theorem inReset_bootBegun (s : State) : s.bootBegun.inReset = s.inReset := inReset_waitsNot ..

theorem bootBegun_husk (s : State) : s.bootBegun.husk = s.husk := (waitsNot_husk ..).trans (State.setF_husk ..)

theorem tch_bootBegun {s : State} : Touches 540672 s s.bootBegun :=
  (tch_waitsNot (State.setF_pwr ..).symm).comp (by decide) (tch_setF.mono (by decide))

/-- The state in which the sprout has tried the copies of the husk firmware. -/
def State.sproutRun (s : State) (b : BootIn) : State :=
  ((s.setF R.CFG_FLASH_STAT_SIZE_LOG2 b.flashLog2).setB R.CFG_FLASH_STAT_OCTAL_DDR true).tryFirmware 0 (b.hfw.take 2)

theorem tch_sproutRun {s : State} {b : BootIn} : Touches 196615 s (s.sproutRun b) :=
  tch_tryFirmware.comp (by decide) (tch_setB.comp (by decide) (tch_setF.mono (by decide)))

theorem eraseOpen_sproutRun (s : State) (b : BootIn) : (s.sproutRun b).husk.eraseOpen = s.husk.eraseOpen := by
  unfold State.sproutRun
  rw [eraseOpen_tryFirmware, State.setB_husk, State.setF_husk]

theorem bootOn_eq (s : State) (b : BootIn) : s.bootOn b =
    if !b.kat then s.bootBegun.setF R.HUSK_STAT_BOOT_ERR 1
    else (s.bootBegun.sproutRun b).doIf (s.bootBegun.sproutRun b).husk.firmware (·.huskBoot b) := rfl

theorem inReset_bootOn (s : State) (b : BootIn) : (s.bootOn b).inReset = s.inReset := by
  rw [bootOn_eq, ← inReset_bootBegun s]
  split
  · exact inReset_of_pwr (State.setF_pwr ..)
  · rw [← inReset_of_pwr (tch_sproutRun.1 .pwr (by decide) : (s.bootBegun.sproutRun b).pwr = s.bootBegun.pwr)]
    exact eq_doIf State.inReset (inReset_huskBoot ..)

theorem tch_bootOn_noErase {s : State} {b : BootIn} (h : s.husk.eraseOpen = false) : Touches 6527083015 s (s.bootOn b) := by
  rw [bootOn_eq]
  have hsprout : (s.bootBegun.sproutRun b).husk.eraseOpen = false := by rw [eraseOpen_sproutRun, bootBegun_husk, h]
  refine .ite (tch_setF.comp (by decide) (tch_bootBegun.mono (by decide))) ?_
  have htried : Touches 6527083015 s (s.bootBegun.sproutRun b) := tch_sproutRun.comp (by decide) (tch_bootBegun.mono (by decide))
  cases hfw : (s.bootBegun.sproutRun b).husk.firmware with
  | true =>
    rw [State.doIf_true]
    exact (tch_huskBoot_noErase hsprout).comp (by decide) htried
  | false => exact htried

/-- The state in which no source of reset is left. -/
def State.sourcesOver (s : State) (b : BootIn) : State :=
  { s with pwr := { s.pwr with porst := false, softEnd := 0 }, net := { s.net with porstAt := s.now }
           hostq := { s.hostq with linkUp := b.perst }, tap := { s.tap with instr := .bypass } }

theorem inReset_sourcesOver {s : State} (b : BootIn) (h : s.pwr.supplyReset = false) : (s.sourcesOver b).inReset = false :=
  show (false || s.pwr.supplyReset || false) = false by rw [h]; rfl

theorem sourcesOver_porstAt (s : State) (b : BootIn) : (s.sourcesOver b).net.porstAt = s.now := rfl
theorem sourcesOver_husk (s : State) (b : BootIn) : (s.sourcesOver b).husk = s.husk := rfl
theorem sourcesOver_room (s : State) (b : BootIn) : (s.sourcesOver b).room = s.room := rfl
theorem sourcesOver_word (s : State) (b : BootIn) (x : Blk) (k : Nat) : (s.sourcesOver b).word x k = s.word x k := rfl
theorem sourcesOver_sys (s : State) (b : BootIn) : (s.sourcesOver b).sys = s.sys := rfl
theorem sourcesOver_shortTs (s : State) (b : BootIn) : (s.sourcesOver b).shortTs = s.shortTs := rfl

/-- The state in which the rails show, and the cause of the reset is reported. -/
def State.causeReported (s : State) : State :=
  (s.setF R.PWR_SUP_STAT_OK s.pwr.rails).post E.RESET_CAUSE 0 (s.word .pwr (W.PWR_RST_CAUSE.key 0 0))

theorem tch_causeReported {s : State} : Touches 81921 s s.causeReported := tch_post.comp (by decide) (tch_setF.mono (by decide))

/-- The state in which the boot clocks run and the lane tests are over. -/
def State.lanesTested (s : State) (b : BootIn) : State := ((s.rewriteSlots b.slots).startClocks b).wiresFaulty b.wires

theorem tch_lanesTested {s : State} {b : BootIn} : Touches 7516270593 s (s.lanesTested b) :=
  tch_wiresFaulty.comp (by decide) (tch_startClocks.comp (by decide) (tch_rewriteSlots.mono (by decide)))

/-- The boot waits for its reference. -/
def State.waitsRef (s : State) (b : BootIn) : State := { s with pwr := { s.pwr with waiting := some b } }

theorem inReset_waitsRef (s : State) (b : BootIn) : (s.waitsRef b).inReset = s.inReset := rfl
theorem tch_waitsRef {s : State} {b : BootIn} : Touches 524288 s (s.waitsRef b) := .upd_pwr_keep rfl (by decide) (.refl _ _)

theorem resetOver_eq (s : State) (b : BootIn) : s.resetOver b =
    if ((s.sourcesOver b).causeReported.lanesTested b).b R.CLK_STAT_NOREF then ((s.sourcesOver b).causeReported.lanesTested b).waitsRef b
    else ((s.sourcesOver b).causeReported.lanesTested b).bootOn b := rfl

theorem inReset_resetOver {s : State} (b : BootIn) (h : s.pwr.supplyReset = false) : (s.resetOver b).inReset = false := by
  have htested : ((s.sourcesOver b).causeReported.lanesTested b).pwr = (s.sourcesOver b).pwr :=
    (tch_lanesTested.1 .pwr (by decide)).trans (tch_causeReported.1 .pwr (by decide))
  rw [← inReset_sourcesOver b h, ← inReset_of_pwr htested, resetOver_eq]
  split
  · exact inReset_waitsRef ..
  · exact inReset_bootOn ..

/-- What comes after RESET_CAUSE leaves NET and the queue of SYS, unless an erase resumes. -/
theorem tch_causeReported_resetOver {s : State} {b : BootIn} (h : s.husk.eraseOpen = false) :
    Touches 7600828935 (s.sourcesOver b).causeReported (s.resetOver b) := by
  have htested : ((s.sourcesOver b).causeReported.lanesTested b).husk = s.husk :=
    (tch_lanesTested.1 .husk (by decide)).trans ((tch_causeReported.1 .husk (by decide)).trans (sourcesOver_husk ..))
  rw [resetOver_eq]
  refine .ite (tch_waitsRef.comp (by decide) (tch_lanesTested.mono (by decide))) ?_
  exact (tch_bootOn_noErase (by rw [htested, h])).comp (by decide) (tch_lanesTested.mono (by decide))

theorem porstAt_resetOver {s : State} {b : BootIn} (h : s.husk.eraseOpen = false) : (s.resetOver b).net.porstAt = s.now := by
  have hnet : (s.resetOver b).net = (s.sourcesOver b).net :=
    ((tch_causeReported_resetOver h).1 .net (by decide)).trans (tch_causeReported.1 .net (by decide))
  rw [hnet, sourcesOver_porstAt]

theorem posts_resetOver {s : State} {b : BootIn} (h : s.husk.eraseOpen = false) (hroom : s.room) :
    Posts s (s.resetOver b) E.RESET_CAUSE 0 (s.word .pwr (W.PWR_RST_CAUSE.key 0 0)) := by
  have hreport : Reports (s.sourcesOver b) (s.sourcesOver b).causeReported E.RESET_CAUSE 0 ((s.sourcesOver b).word .pwr (W.PWR_RST_CAUSE.key 0 0)) :=
    (tch_setF (a1 := R.PWR_SUP_STAT_OK)).reports (by decide) (by decide) (sourcesOver_room s b ▸ hroom) ..
  rw [sourcesOver_word] at hreport
  exact (hreport.of_eq (by rw [sourcesOver_sys]) (sourcesOver_shortTs s b)).posts (tch_causeReported_resetOver h).q

theorem exec_resetRelease {s : State} {t : Instant} (b : BootIn) (hin : (s.start t).inReset = true) (hsupply : (s.start t).pwr.supplyReset = false)
    (hend : (s.start t).pwr.softEnd ≤ (s.start t).now) : exec (.resetRelease t b) s = .next ((s.start t).resetOver b) :=
  congrArg Host.Outcome.next (State.doIf_of (by rw [hin, hsupply, decide_eq_true hend]; rfl))

end Sys2Proof.Machine
end

section
/-! PROOFS. O47. The reset sources together. -/
namespace Sys2Proof.Machine

theorem runs_supplyOk {s : State} {t since : Instant} {mvs : List Nat} (hs : (s.start t).pwr.supplyReset = true)
    (hsince : since + msQ ≤ (s.start t).now)
    (hrails : ∀ r < 8, (if (s.start t).pwr.rails.testBit r then railFall r else railRise r) ≤ mvs.getD r 0) :
    Runs (.supplyOk t mvs since) s fun s' =>
      s'.pwr = { (s.start t).pwr with supplyReset := false, rails := 0xFF } ∧ s'.regs = (s.start t).regs :=
  ⟨_, exec_supplyOk hs hsince hrails, rfl, rfl⟩

theorem runs_supplyLow {s : State} {t since : Instant} {r mv : Nat} (hr : r < 8) (hmv : mv < railFall r)
    (hsince : since + 2 * usQ ≤ (s.start t).now) : Runs (.supplyLow t r mv since) s fun s' =>
      Wiped (s.start t) s' ∧ s'.pwr.supplyReset = true ∧ s'.pwr.rails.testBit r = false
        ∧ (if r = 3 ∧ mv < 1200 then
            s'.b R.PWR_RST_CAUSE_POR = true ∧ s'.b R.PWR_RST_CAUSE_SUPPLY = false ∧ s'.b R.PWR_RST_CAUSE_PIN = false
          else s'.b R.PWR_RST_CAUSE_SUPPLY = true ∧ s'.bitF R.PWR_RST_CAUSE_RAILS r = true) := by
  have hdeep : (decide (mv < 1200) && r == 3) = true ↔ r = 3 ∧ mv < 1200 := by
    rw [Bool.and_eq_true, decide_eq_true_eq, beq_iff_eq, and_comm]
  obtain ⟨hwiped, hreset, hrail, hcause⟩ := supplyFallen_facts (s.start t) (decide (mv < 1200) && r == 3) hr
  refine ⟨_, exec_supplyLow hr hmv hsince, hwiped, hreset, hrail, ?_⟩
  simpa only [hdeep] using hcause

theorem runs_resetRelease {s : State} {t : Instant} (b : BootIn) (hin : (s.start t).inReset = true)
    (hsupply : (s.start t).pwr.supplyReset = false) (hend : (s.start t).pwr.softEnd ≤ (s.start t).now) : Runs (.resetRelease t b) s fun s' =>
      s'.inReset = false ∧ ((s.start t).husk.eraseOpen = false → s'.net.porstAt = (s.start t).now
        ∧ ((s.start t).room → Posts (s.start t) s' E.RESET_CAUSE 0 ((s.start t).word .pwr (W.PWR_RST_CAUSE.key 0 0)))) :=
  ⟨_, exec_resetRelease b hin hsupply hend, inReset_resetOver b hsupply, fun hopen => ⟨porstAt_resetOver hopen, posts_resetOver hopen⟩⟩

theorem runs_sysRst {s w : State} {t : Instant} {fn : Nat} {data : Word} (h : (s.start t).actionWrite fn R.PWR_RST_CMD_SYS_RST data = (w, true)) :
    (w.sessionOpen fn = true → w.domainOf fn = domOem → getBits data 15 0 = 0xB007 →
      (w.allHeld = true → Runs (.sysRst t fn data) s fun s' =>
          Wiped w.savedForReset s' ∧ s'.pwr.softEnd = w.now + 100 * usQ ∧ s'.b R.PWR_RST_CAUSE_SOFT = true)
      ∧ (w.allHeld = false → w.room → Runs (.sysRst t fn data) s fun s' => Reports w s' E.RST_CMD_REFUSED ∧ s'.pwr = w.pwr ∧ s'.husk = w.husk))
    ∧ (w.sessionOpen fn = false ∨ w.domainOf fn ≠ domOem ∨ getBits data 15 0 ≠ 0xB007 → Runs (.sysRst t fn data) s fun s' => s' = w) := by
  refine ⟨fun hopen hdom hkey => ?_, fun hno => ⟨w, exec_sysRst_not h hno, rfl⟩⟩
  have hexec := exec_sysRst_of h hopen hdom hkey
  refine ⟨fun hheld => ?_, fun hheld hroom => ?_⟩
  · rw [if_pos hheld] at hexec
    obtain ⟨hwiped, hend, hsoft⟩ := softLow_facts w.savedForReset
    exact ⟨_, hexec, hwiped, by rw [hend, savedForReset_now], hsoft⟩
  · rw [if_neg (by rw [hheld]; exact Bool.false_ne_true)] at hexec
    exact ⟨_, hexec, State.post_sys _ _ _ _ _ hroom, State.post_pwr .., State.post_husk ..⟩

/-- Settles O47: each source of reset by the state that it leaves, the end of a reset by what the boot chain touches. -/
theorem resetSourcesWipeTheDevice : Obligations.ResetSourcesWipeTheDevice := by
  unfold Obligations.ResetSourcesWipeTheDevice
  refine ⟨fun s u t hu => ?_, fun s w t fn data h => runs_sysRst h⟩
  subst hu
  refine ⟨fun since hp hsince => ⟨_, exec_porstN hp hsince, porstLow_facts _⟩, fun r mv since hr hmv hsince => runs_supplyLow hr hmv hsince,
    fun mvs since hs hsince hrails => runs_supplyOk hs hsince hrails, fun b hin hsupply hend => runs_resetRelease b hin hsupply hend,
    fun since hin hup hsince => ⟨_, exec_perstN hin hsince, loseLink_facts _ hup⟩, fun hin => ⟨_, exec_perstNRelease hin, rfl, rfl⟩⟩

end Sys2Proof.Machine
end

section
/-! PROOFS. O48. The erase on return (R338, R339). -/
namespace Sys2Proof.Machine

/-! ## An erase that is allowed -/

theorem resetBase_facts (s : State) : s.resetBase.loop = State.reset.loop ∧ s.resetBase.sea = State.reset.sea ∧ s.resetBase.pwm = State.reset.pwm
    ∧ s.resetBase.sys = State.reset.sys ∧ s.resetBase.regs = State.reset.regs := ⟨rfl, rfl, rfl, rfl, rfl⟩

/-- What the held die has of the state that a reset leaves. -/
theorem heldOver_facts (s : State) (fn : Nat) (c : State) : (s.heldOver fn c).loop = c.loop ∧ (s.heldOver fn c).sea = c.sea
    ∧ (s.heldOver fn c).pwm = c.pwm ∧ (s.heldOver fn c).sys = c.sys
    ∧ ∀ b : Blk, b ≠ .husk → (s.heldOver fn c).regs.blk b = c.regs.blk b := by
  refine ⟨rfl, rfl, rfl, rfl, fun b hb => ?_⟩
  cases b with
  | husk => exact absurd rfl hb
  | _ => rfl

theorem heldOver_husk (s : State) (fn : Nat) (c : State) : (s.heldOver fn c).husk.eraseHeld = true ∧ (s.heldOver fn c).husk.eraseOpen = true
    ∧ (s.heldOver fn c).husk.cak = [] ∧ (s.heldOver fn c).husk.oemRootHash = some (BitVec.allOnes 384)
    ∧ (s.heldOver fn c).husk.oemKek = some (BitVec.allOnes 256) ∧ (s.heldOver fn c).husk.safRootHash = some (BitVec.allOnes 384) :=
  ⟨rfl, rfl, rfl, rfl, rfl, rfl⟩

theorem alive_of_eraseHeld {s : State} (h : s.husk.eraseHeld = true) : s.alive = false := by
  unfold State.alive
  rw [h, Bool.not_true, Bool.and_false]

/-- The units and registers of the core die are those after reset. -/
theorem eraseCore_units (s : State) (fn : Nat) : (s.eraseCore fn).loop = State.reset.loop ∧ (s.eraseCore fn).sea = State.reset.sea
    ∧ (s.eraseCore fn).pwm = State.reset.pwm ∧ (s.eraseCore fn).sys = State.reset.sys
    ∧ ∀ b : Blk, b ≠ .sys → b ≠ .husk → b ≠ .pwr → (s.eraseCore fn).regs.blk b = State.reset.regs.blk b := by
  have hcore := tch_heldOver_eraseCore s fn
  have hclear := tch_resetBase_cleared s.pinsLow
  obtain ⟨hloop, hsea, hpwm, hsys, hregs⟩ := heldOver_facts s.pinsLow fn s.pinsLow.cleared
  obtain ⟨hloop', hsea', hpwm', hsys', hregs'⟩ := resetBase_facts s.pinsLow
  refine ⟨?_, ?_, ?_, ?_, fun b h1 h2 h3 => ?_⟩
  · exact (hcore.1 .loop (by decide)).trans (hloop.trans ((hclear.1 .loop (by decide)).trans hloop'))
  · exact (hcore.1 .sea (by decide)).trans (hsea.trans ((hclear.1 .sea (by decide)).trans hsea'))
  · exact (hcore.1 .pwm (by decide)).trans (hpwm.trans ((hclear.1 .pwm (by decide)).trans hpwm'))
  · exact (hcore.1 .sys (by decide)).trans (hsys.trans ((hclear.1 .sys (by decide)).trans hsys'))
  · have hheld : (s.eraseCore fn).regs.blk b = (s.pinsLow.heldOver fn s.pinsLow.cleared).regs.blk b :=
      hcore.1 (.regs b) (by revert h2; cases b <;> decide)
    have hfresh : s.pinsLow.cleared.regs.blk b = s.pinsLow.resetBase.regs.blk b :=
      hclear.1 (.regs b) (by revert h1 h2 h3; cases b <;> decide)
    rw [hheld, hregs b h2, hfresh, hregs']

/-- The keys are gone, and the die is held until the erase is done. -/
theorem eraseCore_husk (s : State) (fn : Nat) : (s.eraseCore fn).husk.eraseHeld = true ∧ (s.eraseCore fn).husk.eraseOpen = true
    ∧ (s.eraseCore fn).husk.cak = [] ∧ (s.eraseCore fn).husk.oemRootHash = some (BitVec.allOnes 384)
    ∧ (s.eraseCore fn).husk.oemKek = some (BitVec.allOnes 256) ∧ (s.eraseCore fn).husk.safRootHash = some (BitVec.allOnes 384) := by
  rw [show (s.eraseCore fn).husk = (s.pinsLow.heldOver fn s.pinsLow.cleared).husk from (tch_heldOver_eraseCore s fn).1 .husk (by decide)]
  exact heldOver_husk ..

/-- The registers that show an erase: the fuses, the lifecycle and the empty slots. -/
def State.eraseShown (c : State) : State :=
  ((((((c.setF R.HUSK_ID_LIFECYCLE lcReturned).setB R.HUSK_STAT_OEM_KEYS true).setB R.HUSK_STAT_SAF_ROOT true).setF R.HUSK_PROV_STAT_DONE 7).setF
    R.HUSK_KEY_STAT_VALID 0).setF R.HUSK_KEY_STAT_PORTS 0)

theorem lifecycle_eraseShown (c : State) : c.eraseShown.f R.HUSK_ID_LIFECYCLE = lcReturned := by
  unfold State.eraseShown
  rw [f_setF_key _ _ (by decide), f_setF_key _ _ (by decide), f_setF_key _ _ (by decide), f_setB_key _ _ (by decide), f_setB_key _ _ (by decide),
    f_setF_same _ _ _ _ _ (by decide)]
  decide

/-- LIFECYCLE is in no word of HUSK_SESS_STAT. -/
theorem key_lifecycle_ne (fn : Nat) : R.HUSK_ID_LIFECYCLE.key 0 0 ≠ R.HUSK_SESS_STAT_PHASE.key 0 fn := by
  show 0 ≠ 0x24 + 65536 * fn
  omega

theorem lifecycle_doNoSession (s : State) (c : Bool) (fn : Nat) :
    (s.doIf c (·.noSession fn)).f R.HUSK_ID_LIFECYCLE = s.f R.HUSK_ID_LIFECYCLE := by
  cases c with
  | true => exact f_noSession_other s (key_lifecycle_ne fn)
  | false => rfl

/-- The state in which all is shown but how far the erase is. -/
def State.eraseBegun (s : State) (fn : Nat) : State :=
  (s.pinsLow.heldOver fn s.pinsLow.cleared).eraseShown.doIf (decide (fn < 2)) (·.noSession (1 - fn))

theorem lifecycle_eraseBegun (s : State) (fn : Nat) : (s.eraseBegun fn).f R.HUSK_ID_LIFECYCLE = lcReturned := by
  unfold State.eraseBegun
  rw [lifecycle_doNoSession, lifecycle_eraseShown]

theorem eraseCore_eq (s : State) (fn : Nat) :
    s.eraseCore fn = ((s.eraseBegun fn).setF R.HUSK_ERASE_STAT_PHASE 4).setF R.HUSK_ERASE_STAT_PCT 0 := rfl

theorem eraseCore_shown (s : State) (fn : Nat) :
    (s.eraseCore fn).f R.HUSK_ID_LIFECYCLE = lcReturned ∧ (s.eraseCore fn).f R.HUSK_ERASE_STAT_PHASE = 4 := by
  rw [eraseCore_eq]
  refine ⟨?_, ?_⟩
  · rw [f_setF_key _ _ (by decide), f_setF_key _ _ (by decide), lifecycle_eraseBegun]
  · rw [f_setF_bits _ _ _ _ _ _ (by decide), f_setF_same _ _ _ _ _ (by decide)]
    rfl

section Erase
variable {s w : State} {t : Instant} {fn : Nat} {data : Word}

theorem exec_erase (h : (s.start t).actionWrite fn R.HUSK_ERASE_CTL_ERASE data = (w, true)) : exec (.erase t fn data) s
    = .next (if w.eraseAllowed fn data then ((w.failUpdate 0xE).post E.ERASE_START (subject 0 0 fn (w.domainOf fn))).eraseCore fn
        else w.post E.ERASE_REFUSED (subject 0 0 fn (w.domainOf fn))) :=
  (action_passes h fun s go => s.doIf go fun s =>
    if s.eraseAllowed fn data then ((s.failUpdate 0xE).post E.ERASE_START (subject 0 0 fn (s.domainOf fn))).eraseCore fn
    else s.post E.ERASE_REFUSED (subject 0 0 fn (s.domainOf fn))).trans (congrArg Host.Outcome.next (State.doIf_true ..))

theorem eraseAllowed_iff : w.eraseAllowed fn data = true ↔
    w.sessionOpen fn = true ∧ (w.domainOf fn = domOem ∨ w.domainOf fn = domVnd ∧ w.b R.HUSK_DBG_STAT_CONSENT = true)
      ∧ w.f R.HUSK_ID_LIFECYCLE = lcDeployed ∧ getBits data 15 0 = 0x7144 ∧ w.allHeld = true := by
  unfold State.eraseAllowed
  simp only [Bool.and_eq_true, Bool.or_eq_true, beq_iff_eq, and_assoc]

theorem runs_erase_refused (h : (s.start t).actionWrite fn R.HUSK_ERASE_CTL_ERASE data = (w, true)) (hno : ¬ w.eraseAllowed fn data = true)
    (hroom : w.room) : Runs (.erase t fn data) s fun s' =>
      Reports w s' E.ERASE_REFUSED (subject 0 0 fn (w.domainOf fn)) ∧ s'.husk = w.husk ∧ s'.loop = w.loop ∧ s'.sea = w.sea :=
  ⟨_, (exec_erase h).trans (congrArg Host.Outcome.next (if_neg hno)), State.post_sys _ _ _ _ _ hroom, State.post_husk .., State.post_loop ..,
    State.post_sea ..⟩

theorem runs_erase_allowed (h : (s.start t).actionWrite fn R.HUSK_ERASE_CTL_ERASE data = (w, true)) (hyes : w.eraseAllowed fn data = true) :
    Runs (.erase t fn data) s fun s' =>
      s'.husk.eraseHeld = true ∧ s'.husk.eraseOpen = true ∧ s'.alive = false ∧ s'.f R.HUSK_ID_LIFECYCLE = lcReturned
        ∧ s'.f R.HUSK_ERASE_STAT_PHASE = 4 ∧ s'.husk.cak = [] ∧ s'.husk.oemRootHash ≠ none ∧ s'.husk.oemKek ≠ none ∧ s'.husk.safRootHash ≠ none
        ∧ s'.loop = State.reset.loop ∧ s'.sea = State.reset.sea ∧ s'.pwm = State.reset.pwm ∧ s'.sys = State.reset.sys
        ∧ ∀ b : Blk, b ≠ .sys → b ≠ .husk → b ≠ .pwr → s'.regs.blk b = State.reset.regs.blk b := by
  refine ⟨_, (exec_erase h).trans (congrArg Host.Outcome.next (if_pos hyes)), ?_⟩
  generalize (w.failUpdate 0xE).post E.ERASE_START (subject 0 0 fn (w.domainOf fn)) = u
  obtain ⟨hheld, hopen, hcak, hroot, hkek, hsaf⟩ := eraseCore_husk u fn
  obtain ⟨hlife, hphase⟩ := eraseCore_shown u fn
  exact ⟨hheld, hopen, alive_of_eraseHeld hheld, hlife, hphase, hcak, by rw [hroot]; exact Option.some_ne_none _,
    by rw [hkek]; exact Option.some_ne_none _, by rw [hsaf]; exact Option.some_ne_none _, eraseCore_units u fn⟩

end Erase

/-! ## An erase that is done -/

/-- The state in which slots, records and the CAK store are blank. -/
def State.blanked (s : State) : State :=
  { s with
    cfg := { s.cfg with slots := [], order := [] }
    husk := { s.husk with pw := [], cak := [], eraseOpen := false, recordBad := false }
    safe := { s.safe with changeLog := [], overlay := none, lastCrc := none }
    trip := { s.trip with lifeSaved := none, lifeSavedTime := 0 }
    rel := { s.rel with saved := {} } }

theorem blanked_facts (s : State) : s.blanked.husk = { s.husk with pw := [], cak := [], eraseOpen := false, recordBad := false }
    ∧ s.blanked.cfg.slots = [] ∧ s.blanked.safe.changeLog = [] ∧ s.blanked.safe.overlay = none ∧ s.blanked.trip.lifeSaved = none
    ∧ s.blanked.rel.saved = {} := ⟨rfl, rfl, rfl, rfl, rfl, rfl⟩

theorem tch_blanked {s : State} : Touches 6526468096 s s.blanked := .upd_husk_trip_safe_rel_cfg (by decide) (.refl _ _)

/-- The registers that show an erase that is done. -/
def State.doneShown (s : State) : State := ((s.setF R.HUSK_ERASE_STAT_PHASE 5).setF R.HUSK_ERASE_STAT_PCT 100).setB R.HUSK_STAT_ERASED true

theorem tch_doneShown {s : State} : Touches 2 s s.doneShown := tch_setB.comp (by decide) (tch_setF.comp (by decide) (tch_setF.mono (by decide)))

theorem doneShown_facts (s : State) : s.doneShown.f R.HUSK_ERASE_STAT_PHASE = 5 ∧ s.doneShown.f R.HUSK_ERASE_STAT_PCT = 100
    ∧ s.doneShown.b R.HUSK_STAT_ERASED = true := by
  unfold State.doneShown
  refine ⟨?_, ?_, b_setB_same _ _ _ _ _ (by decide)⟩
  · rw [f_setB_key _ _ (by decide), f_setF_bits _ _ _ _ _ _ (by decide), f_setF_same _ _ _ _ _ (by decide)]
    rfl
  · rw [f_setB_key _ _ (by decide), f_setF_same _ _ _ _ _ (by decide)]
    rfl

theorem exec_eraseDone {s : State} {t : Instant} (hin : (s.start t).inReset = false) (hheld : (s.start t).husk.eraseHeld = true)
    (hopen : (s.start t).husk.eraseOpen = true) : exec (.eraseDone t) s = .next ((s.start t).blanked.doneShown.post E.ERASE_DONE) :=
  congrArg Host.Outcome.next (State.doIf_of (by rw [hin, hheld, hopen]; rfl))

theorem runs_eraseDone {s : State} {t : Instant} (hin : (s.start t).inReset = false) (hheld : (s.start t).husk.eraseHeld = true)
    (hopen : (s.start t).husk.eraseOpen = true) (hroom : (s.start t).room) : Runs (.eraseDone t) s fun s' =>
      s'.husk = { (s.start t).husk with pw := [], cak := [], eraseOpen := false, recordBad := false } ∧ s'.cfg.slots = []
      ∧ s'.safe.changeLog = [] ∧ s'.safe.overlay = none ∧ s'.trip.lifeSaved = none ∧ s'.rel.saved = {} ∧ s'.alive = false
      ∧ s'.f R.HUSK_ERASE_STAT_PHASE = 5 ∧ s'.f R.HUSK_ERASE_STAT_PCT = 100 ∧ s'.b R.HUSK_STAT_ERASED = true
      ∧ Reports (s.start t) s' E.ERASE_DONE := by
  refine ⟨_, exec_eraseDone hin hheld hopen, ?_⟩
  generalize s.start t = u at hheld hroom
  obtain ⟨hhusk, hslots, hlog, hoverlay, hlife, hrel⟩ := blanked_facts u
  obtain ⟨hphase, hpct, herased⟩ := doneShown_facts u.blanked
  have hshown : Touches 65539 u.blanked (u.blanked.doneShown.post E.ERASE_DONE) := tch_post.comp (by decide) (tch_doneShown.mono (by decide))
  have hsafe : (u.blanked.doneShown.post E.ERASE_DONE).safe = u.blanked.safe := hshown.1 .safe (by decide)
  have hhusk' : (u.blanked.doneShown.post E.ERASE_DONE).husk = _ := (hshown.1 .husk (by decide)).trans hhusk
  refine ⟨hhusk', ?_, by rw [hsafe, hlog], by rw [hsafe, hoverlay], ?_, ?_, alive_of_eraseHeld ?_, ?_, ?_, ?_, ?_⟩
  · exact (congrArg CfgSt.slots (hshown.1 .cfg (by decide))).trans hslots
  · exact (congrArg TripSt.lifeSaved (hshown.1 .trip (by decide))).trans hlife
  · exact (congrArg RelSt.saved (hshown.1 .rel (by decide))).trans hrel
  · rw [hhusk', hheld]
  · rw [f_post _ _ _ _ _ _ _ _ (by decide), hphase]
  · rw [f_post _ _ _ _ _ _ _ _ (by decide), hpct]
  · rw [b_post _ _ _ _ _ _ _ _ (by decide), herased]
  · exact (tch_doneShown.comp (m := 6526468098) (by decide) (tch_blanked.mono (by decide))).reports (by decide) (by decide) hroom ..

/-- Settles O48: an erase that is let through by the state of the held die, one that is done by the blank records and registers. -/
theorem eraseLeavesNothing : Obligations.EraseLeavesNothing := by
  unfold Obligations.EraseLeavesNothing
  refine ⟨fun s w t fn data h => ⟨fun hyes => runs_erase_allowed h (eraseAllowed_iff.mpr hyes), fun hno hroom => ?_⟩, ?_⟩
  · exact runs_erase_refused h (fun hyes => hno (eraseAllowed_iff.mp hyes)) hroom
  · intro s u t hu hin hheld hopen hroom
    subst hu
    exact runs_eraseDone hin hheld hopen hroom

end Sys2Proof.Machine
end

section
/-! PROOFS. O1, O4, O6, O8, O14. What every step and every command does to the state as a whole; reserved addresses (R527); writes that a block filters
further (R371, R407, R424); and the entries of the event log (R531, R533). -/
namespace Sys2Proof.Machine

/-! ## Steps and footprints -/

/-- Settles O1: the two clauses are the two arms of `step`. -/
theorem stepTakesFrontCommand : Obligations.StepTakesFrontCommand := by
  unfold Obligations.StepTakesFrontCommand
  refine ⟨fun s c cs h => ?_, fun s h => ?_⟩
  · unfold step; rw [h]
  · unfold step; rw [h]

/-- No command stops the machine. -/
theorem exec_runs (c : Instr) (s : State) : ∃ s', exec c s = .next s' := by
  cases c with
  | canObjectEnable t o fn data =>
    show ∃ s', execCanObjectEnable t o fn data s = .next s'
    unfold execCanObjectEnable
    split <;> exact ⟨_, rfl⟩
  | refEn t n fn data =>
    show ∃ s', execRefEn t n fn data s = .next s'
    unfold execRefEn
    split <;> exact ⟨_, rfl⟩
  | pwrTokCfg t fn data =>
    show ∃ s', execPwrTokCfg t fn data s = .next s'
    unfold execPwrTokCfg
    split <;> exact ⟨_, rfl⟩
  | _ => exact ⟨_, rfl⟩

/-- No command's footprint holds the time or the queue of commands. -/
theorem footprint_excludes (c : Instr) : Part.now ∉ c.footprint ∧ Part.pending ∉ c.footprint := by
  cases c <;> simp [Instr.footprint]

/-- Settles O4: a command touches its footprint and the outputs, and the start of a command the time and the outputs. -/
theorem commandChangesFootprintOnly : Obligations.CommandChangesFootprintOnly := by
  unfold Obligations.CommandChangesFootprintOnly
  intro c s
  obtain ⟨s', hexec⟩ := exec_runs c s
  have htouch := exec_touches c s
  rw [hexec] at htouch
  obtain ⟨hnow, hpending⟩ := footprint_excludes c
  have hsame (p : Part) (hp : p ∉ c.footprint) (hout : p ≠ .out) : p.same (s.start c.time) s' :=
    htouch.1 p (maskOf_not_mem (by simp [hp, hout]))
  have hstart (p : Part) (hp : p ≠ .now) (hout : p ≠ .out) : p.same s (s.start c.time) := by
    cases p <;> first | rfl | contradiction
  exact ⟨s', hexec, hsame .now hnow (by decide), hsame .pending hpending (by decide),
    fun p hp hn ho => Part.same_trans (hstart p hn ho) (hsame p hp ho)⟩

/-! ## Reserved addresses (R527) -/

/-- Settles O6: as O5, by what `State.unanswered` does. -/
theorem reservedAddressIsReported : Obligations.ReservedAddressIsReported := by
  unfold Obligations.ReservedAddressIsReported
  rintro s u t fn addr write rfl hf ha hm hn hb hr
  refine ⟨_, exec_reservedAddressAccess hf ha hm hn, State.unanswered_regs hr, State.unanswered_out hb, State.unanswered_reports hr, fun h => ?_⟩
  rw [State.unanswered_of_not_answers h]
  exact (State.readZero_frame ..).2

/-! ## Writes that a block filters further (R371, R407, R424) -/

/-- A word that is written and then put back. -/
theorem word_setWord_back {s v : State} {b : Blk} {k : Nat} (w : Word) (h : ∀ b' k', v.word b' k' = s.word b' k') (b' : Blk) (k' : Nat) :
    ((v.setWord b k w).setWord b k (s.word b k)).word b' k' = s.word b' k' := by
  by_cases hb : b' = b
  · subst hb
    by_cases hk : k' = k
    · subst hk; exact word_setWord_same ..
    · rw [word_setWord_key _ _ _ hk, word_setWord_key _ _ _ hk, h]
  · rw [word_setWord_blk _ _ _ _ hb, word_setWord_blk _ _ _ _ hb, h]

/-- The base of an enabled ring is a register of HOSTQ that takes the plain way. -/
theorem writeReg_ringBaseHeld {s : State} {fn addr : Nat} {data : Word} {h : RegHit} (hh : s.ringBaseHeld h = true) :
    s.writeReg fn addr data h = s.plainWrite fn addr data h := by
  unfold State.ringBaseHeld at hh
  simp only [Bool.and_eq_true, Bool.or_eq_true, beq_iff_eq] at hh
  obtain ⟨hb, hbase⟩ := hh
  unfold State.writeReg
  simp only [hb]
  rw [if_neg (by omega), if_neg (by omega)]

theorem kind_refuse (s : State) (fn : Nat) (b : Blk) (off : Nat) (write : Bool) {kind : Nat} (hk : kind < 4) :
    (s.refuse fn b off write kind).f R.HUSK_REFUSE_LAST_KIND = kind := by
  unfold State.refuse
  rw [f_postLimited _ _ _ _ _ _ _ _ _ (by decide), f_setF_same _ _ _ _ _ (by decide)]
  exact Nat.mod_eq_of_lt hk

section Filtered
variable {s : State} {fn addr : Nat} {data : Word} {h : RegHit} {fs : List FieldDef} (hb : s.barOpen = true)
  (ho : s.blockOpen h.blk fn true = true) (hf : findReg addr fn = some h) (hc : s.checkWrite h fn = .granted fs)
include hb ho hf hc

/-- The base of an enabled ring is written and put back. -/
theorem plainWrite_ringBaseHeld (hh : s.ringBaseHeld h = true) (b : Blk) (k : Nat) : (s.plainWrite fn addr data h).word b k = s.word b k := by
  unfold State.plainWrite
  rw [writeAt_granted hb ho (findIn_of_findReg hf) hc]
  simp only [hh, if_true]
  exact word_setWord_back _ (fun _ _ => word_touch ..) b k

/-- A write of a NET register with no field open is put back and refused. -/
theorem netWrite_closed (hn : h.blk = .net) (hfields : s.netFields h fs = []) :
    (∀ b k, b ≠ .husk → b ≠ .sys → (s.netWrite fn addr data h).word b k = s.word b k)
      ∧ (s.netWrite fn addr data h).f R.HUSK_REFUSE_LAST_KIND = 1 := by
  have hw := writeAt_granted (data := data) hb ho (findIn_of_findReg hf) hc
  rw [hn] at hw
  unfold State.netWrite
  simp only [hw, hfields, List.isEmpty_nil, Bool.true_or, if_true]
  refine ⟨fun b k hh hs => ?_, kind_refuse _ _ _ _ _ (by decide)⟩
  rw [tch_refuse.word b k (by cases b <;> first | rfl | contradiction)]
  exact word_setWord_back _ (fun _ _ => word_touch ..) b k

omit hb ho hf hc in
/-- The aggregates of MEAS_STAT write that word alone. -/
theorem word_measAggregates (s : State) {b : Blk} {k : Nat} (hne : (b, k) ≠ (Blk.meas, 4)) : s.measAggregates.word b k = s.word b k := by
  have hkey (u : State) (r : FRef) (v : Bool) (hr : r.blk = .meas ∧ r.key 0 0 = 4) : (u.setB r v).word b k = u.word b k :=
    word_setF_other _ _ _ _ _ (by
      by_cases hb : b = r.blk
      · right; rw [hr.2]; exact fun hk => hne (by rw [hb, hr.1, hk])
      · exact .inl hb)
  unfold State.measAggregates
  rw [hkey _ _ _ (by decide), hkey _ _ _ (by decide), hkey _ _ _ (by decide), hkey _ _ _ (by decide)]

/-- A write of a MEAS register sets its granted fields, and MEAS_STAT follows. -/
theorem plainWrite_meas (hm : h.blk = .meas) (hkey : h.key ≠ 4) :
    (s.plainWrite fn addr data h).word .meas h.key = s.grantedWord h fs (data &&& s.bitGrant h (s.domainOf fn))
      ∧ ∀ b k, (b, k) ≠ (Blk.meas, h.key) → (b, k) ≠ (Blk.meas, 4) → (s.plainWrite fn addr data h).word b k = s.word b k := by
  have hheld : s.ringBaseHeld h = false := by unfold State.ringBaseHeld; rw [hm]; rfl
  have hafter (u : State) : u.afterWrite h data = u.measAggregates := by unfold State.afterWrite; simp only [hm]
  unfold State.plainWrite
  rw [writeAt_granted hb ho (findIn_of_findReg hf) hc]
  simp only [hheld, hafter, Bool.false_eq_true, if_false, hm]
  refine ⟨?_, fun b k hne h4 => ?_⟩
  · rw [word_measAggregates _ (by simp [hkey]), word_setWord_same]
  · rw [word_measAggregates _ h4]
    by_cases hbk : b = .meas
    · subst hbk; rw [word_setWord_key _ _ _ (fun hk => hne (by rw [hk])), word_touch]
    · rw [word_setWord_blk _ _ _ _ hbk, word_touch]

end Filtered

/-- Settles O8: the write by the way that its block takes. -/
theorem guardedBlocksFilterGrantedWrites : Obligations.GuardedBlocksFilterGrantedWrites := by
  unfold Obligations.GuardedBlocksFilterGrantedWrites
  rintro s u t fn addr data h fs rfl hfn ha hm hf hb ho hc d
  refine ⟨fun hh => ?_, fun hn hfields => ?_, fun hmeas hkey => ?_⟩
  · refine ⟨_, exec_registerWrite hfn ha hm hf, ?_⟩
    rw [writeReg_ringBaseHeld hh]
    exact plainWrite_ringBaseHeld hb ho hf hc hh
  · refine ⟨_, exec_registerWrite hfn ha hm hf, ?_⟩
    rw [show (s.start t).writeReg fn addr data h = (s.start t).netWrite fn addr data h by unfold State.writeReg; simp only [hn]]
    exact netWrite_closed hb ho hf hc hn hfields
  · refine ⟨_, exec_registerWrite hfn ha hm hf, ?_⟩
    rw [show (s.start t).writeReg fn addr data h = (s.start t).plainWrite fn addr data h by unfold State.writeReg; simp only [hmeas]]
    have hw := plainWrite_meas (data := data) hb ho hf hc hmeas hkey
    unfold State.grantedWord at hw
    rw [hmeas] at hw
    exact hw

/-! ## Entries of the event log (R531, R533) -/

/-- An entry takes no flit from the queue. -/
theorem queue_add (x : SysSt) (e : LogEntry) : (x.add e).queue = x.queue := by cases x; rfl

/-- An entry goes into the log, and nothing else of SYS changes. -/
theorem logEntry_sys (s : State) (e : LogEntry) : (s.logEntry e).sys = s.sys.add e := by
  unfold State.logEntry
  rw [tch_pendClass.sysSame (by decide), tch_pendClass.sysSame (by decide), tch_showLog.sysSame (by decide)]

theorem logLost_sys (s : State) : s.logLost.sys = { s.sys.add s.lostEntry with lostNow := 0 } := by
  unfold State.logLost State.clearLost
  rw [logEntry_sys]

theorem setQueue_sys (s : State) (qs : List QueuedEvt) : (s.setQueue qs).sys = { s.sys with queue := qs } := rfl

theorem exec_eventWrite {s : State} {t : Instant} {q : QueuedEvt} {qs : List QueuedEvt} (hr : (s.start t).inReset = false)
    (hq : (s.start t).sys.queue = q :: qs) :
    exec (.eventWrite t) s = .next ((((s.start t).setQueue qs).doIf q.lostBefore (·.logLost)).logEntry q.entry) := by
  refine (congrArg Host.Outcome.next (State.doIf_of (by rw [hr]; rfl))).trans (congrArg Host.Outcome.next ?_)
  unfold State.writeEvent
  rw [hq]

theorem lostEntry_marks (s : State) : s.lostEntry.flags / 2 = 1 := by
  show (2 + b2n (s.f R.NET_STAT_STATE != 2)) / 2 = 1
  cases s.f R.NET_STAT_STATE != 2 <;> rfl

/-- At a full queue a flit is lost, and counted. -/
theorem post_lost {s : State} (e : Ev) (a : Nat) (w0 w1 : Word) (h : 64 ≤ s.sys.queue.length) :
    (s.post e a w0 w1).sys = { s.sys with lostNow := s.sys.lostNow + 1 }
      ∧ (s.post e a w0 w1).f R.SYS_EVT_LOST_LOST = min (s.f R.SYS_EVT_LOST_LOST + 1) (2 ^ 32 - 1) := by
  unfold State.post
  rw [if_neg (by omega)]
  refine ⟨rfl, ?_⟩
  rw [f_upd_sys]
  exact f_incF_same s R.SYS_EVT_LOST_LOST 1 0 0 (by decide)

/-- Settles O14: an entry by `SysSt.add`, a loss by the event of an access that no register answers. -/
theorem eventLogTakesOldestAndCountsLost : Obligations.EventLogTakesOldestAndCountsLost := by
  unfold Obligations.EventLogTakesOldestAndCountsLost
  refine ⟨⟨fun x e => ⟨rfl, queue_add x e, by simp only [SysSt.add]⟩, ?_⟩, ?_⟩
  · rintro s u t q qs rfl hr hq
    refine ⟨⟨rfl, rfl, rfl, rfl, rfl, rfl, rfl⟩, fun hl => ⟨_, exec_eventWrite hr hq, ?_⟩, fun hl => ⟨_, exec_eventWrite hr hq, ?_⟩⟩
    · dsimp only
      rw [State.doIf_not hl, logEntry_sys, setQueue_sys]
    · refine ⟨((s.start t).setQueue qs).lostEntry, rfl, rfl, lostEntry_marks _, rfl, ?_⟩
      rw [State.doIf_of hl, logEntry_sys, logLost_sys, setQueue_sys]
  · rintro s u t fn addr len rfl hf ha h1 h2 hm hans hfull
    refine ⟨_, exec_misalignedAccess hf ha h1 h2 hm, ?_⟩
    rw [State.unanswered_of_answers hans, if_pos rfl]
    obtain ⟨hsys, hcount⟩ := post_lost E.BAD_ACCESS (subject fn 0 fn) (nw addr) (nw (b2n true + 2 * len)) hfull
    unfold State.badAccess
    rw [hsys]
    exact ⟨rfl, rfl, rfl, hcount⟩

end Sys2Proof.Machine
end

section
/-! PROOFS. O50. Updates of the slots at run time: the update, the verification of a slot, its revocation (R360 to R362). -/
namespace Sys2Proof.Machine

/-- A value that fits reads back from its field as written. -/
theorem f_setF_fits (s : State) (r : FRef) {v : Nat} (i j : Nat) (h : r.lo ≤ r.hi ∧ r.hi < 32) (hv : v < 2 ^ (r.hi + 1 - r.lo)) :
    (s.setF r v i j).f r i j = v := (f_setF_same s r v i j h).trans (Nat.mod_eq_of_lt hv)

/-! ## Slots in flash -/

theorem cfg_showSlot (s : State) (k : Nat) : (s.showSlot k).cfg = s.cfg := tch_showSlot.1 .cfg (by decide)

theorem setSlot_cfg (s : State) (k : Nat) (im : SlotImage) : (s.setSlot k im).cfg = { s.cfg with slots := kset {} s.cfg.slots k im } :=
  cfg_showSlot ..

theorem spoilSlot_cfg (s : State) (k : Nat) (im : SlotImage) : (s.spoilSlot k im).cfg
    = { s.cfg with slots := kset {} s.cfg.slots k (unmarked im), verified := s.cfg.verified.filter (· != k) } :=
  congrArg (fun c : CfgSt => { c with verified := c.verified.filter (· != k) }) (setSlot_cfg ..)

theorem slots_spoilSlot (s : State) (k : Nat) (im : SlotImage) : (s.spoilSlot k im).cfg.slots = kset {} s.cfg.slots k (unmarked im) := by
  rw [spoilSlot_cfg]

theorem job_spoilSlot (s : State) (k : Nat) (im : SlotImage) : (s.spoilSlot k im).cfg.job = s.cfg.job := by rw [spoilSlot_cfg]

/-- A slot of flash that holds what has been written last. -/
theorem slotImg_of_slots {s s' : State} {k : Nat} {im : SlotImage} (h : s'.cfg.slots = kset {} s.cfg.slots k im) :
    s'.slotImg k = im ∧ ∀ j, j ≠ k → s'.slotImg j = s.slotImg j := by
  unfold State.slotImg
  rw [h]
  exact ⟨kget_kset_same .., fun j hj => kget_kset_other _ _ _ hj⟩

theorem slotValid_unmarked (im : SlotImage) : slotValid (unmarked im).hdr = false := rfl

/-- A slot's flash shows in the registers of the slots alone. -/
theorem f_showSlot (s : State) (k : Nat) (q : FRef) (h : 0x40 ≤ q.key 0 0) : (s.showSlot k).f q = s.f q := by
  have hne (r : FRef) (hr : r.key 0 0 < 0x40) : q.key 0 0 ≠ r.key 0 0 := by omega
  unfold State.showSlot
  split
  · rw [f_setF_key _ _ (hne _ (by decide)), f_setF_key _ _ (hne _ (by decide)), f_setF_key _ _ (hne _ (by decide)), f_setB_key _ _ (hne _ (by decide))]
  · rw [f_setF_key _ _ (hne _ (by decide)), f_setF_key _ _ (hne _ (by decide)), f_setF_key _ _ (hne _ (by decide)), f_setB_key _ _ (hne _ (by decide))]

theorem f_setSlot (s : State) (k : Nat) (im : SlotImage) (q : FRef) (h : 0x40 ≤ q.key 0 0) : (s.setSlot k im).f q = s.f q :=
  (f_showSlot _ k q h).trans (f_upd_cfg ..)

theorem f_spoilSlot (s : State) (k : Nat) (im : SlotImage) (q : FRef) (h : 0x40 ≤ q.key 0 0) : (s.spoilSlot k im).f q = s.f q :=
  (f_upd_cfg ..).trans (f_setSlot _ _ _ q h)

/-! ## Commands that are refused, and updates that fail -/

theorem refuseUpd_facts (w : State) (k : Nat) {r : Nat} (hr : r < 16) (hroom : w.room) :
    (w.refuseUpd k r).f R.CFG_UPD_STAT_RESULT = r ∧ (w.refuseUpd k r).cfg = w.cfg ∧ Reports w (w.refuseUpd k r) E.UPD_FAIL (subject k) (nw r) := by
  have htouch : Touches 4 w (w.setF R.CFG_UPD_STAT_RESULT r) := tch_setF.mono (by decide)
  refine ⟨?_, tch_refuseUpd.1 .cfg (by decide), htouch.reports (by decide) (by decide) hroom ..⟩
  unfold State.refuseUpd
  rw [f_post _ _ _ _ _ _ _ _ (by decide), f_setF_fits _ _ _ _ (by decide) hr]

/-- CFG_UPD_STAT as an update ends. -/
def State.updEnds (s : State) (phase result : Nat) : State :=
  ((s.setF R.CFG_UPD_STAT_PHASE phase).setF R.CFG_UPD_STAT_RESULT result).setB R.CFG_UPD_STAT_DONE true

theorem tch_updEnds {s : State} {phase result : Nat} : Touches 4 s (s.updEnds phase result) :=
  tch_setB.comp (by decide) (tch_setF.comp (by decide) (tch_setF.mono (by decide)))

theorem updEnds_facts (s : State) {phase result : Nat} (hp : phase < 8) (hr : result < 16) :
    (s.updEnds phase result).f R.CFG_UPD_STAT_PHASE = phase ∧ (s.updEnds phase result).f R.CFG_UPD_STAT_RESULT = result
      ∧ (s.updEnds phase result).b R.CFG_UPD_STAT_DONE = true := by
  unfold State.updEnds
  refine ⟨?_, ?_, b_setB_same _ _ _ _ _ (by decide)⟩
  · rw [f_setB_bits _ _ _ _ _ _ (by decide), f_setF_bits _ _ _ _ _ _ (by decide), f_setF_fits _ _ _ _ (by decide) hp]
  · rw [f_setB_bits _ _ _ _ _ _ (by decide), f_setF_fits _ _ _ _ (by decide) hr]

/-- The update in work is over. -/
def State.jobOver (s : State) : State := { s with cfg := { s.cfg with job := none } }

theorem failUpdate_eq {s : State} {j : UpdJob} (r : Nat) (hj : s.cfg.job = some j) (hv : j.verify = false) :
    s.failUpdate r = (s.jobOver.updEnds 6 r).post E.UPD_FAIL (subject j.slot) (nw r) := by
  unfold State.failUpdate
  rw [hj]
  exact if_neg (by rw [hv]; exact Bool.false_ne_true)

theorem failUpdate_facts {s : State} {j : UpdJob} {r : Nat} (hr : r < 16) (hj : s.cfg.job = some j) (hv : j.verify = false) (hroom : s.room) :
    (s.failUpdate r).f R.CFG_UPD_STAT_PHASE = 6 ∧ (s.failUpdate r).f R.CFG_UPD_STAT_RESULT = r ∧ (s.failUpdate r).b R.CFG_UPD_STAT_DONE = true
      ∧ (s.failUpdate r).cfg = { s.cfg with job := none } ∧ Reports s (s.failUpdate r) E.UPD_FAIL (subject j.slot) (nw r) := by
  rw [failUpdate_eq r hj hv]
  obtain ⟨hphase, hresult, hdone⟩ := updEnds_facts s.jobOver (phase := 6) (by decide) hr
  have htouch : Touches 4294967300 s (s.jobOver.updEnds 6 r) := tch_updEnds.comp (by decide) (Touches.upd_cfg (by decide) (.refl _ _))
  refine ⟨?_, ?_, ?_, ?_, htouch.reports (by decide) (by decide) hroom ..⟩
  · rw [f_post _ _ _ _ _ _ _ _ (by decide), hphase]
  · rw [f_post _ _ _ _ _ _ _ _ (by decide), hresult]
  · rw [b_post _ _ _ _ _ _ _ _ (by decide), hdone]
  · rw [State.post_cfg]
    exact tch_updEnds.1 .cfg (by decide)

/-- Every RESULT of a verification fits its field. -/
theorem updResult_lt (s : State) (im : SlotImage) : s.updResult im < 16 := by
  have hverify : s.verifyResult im < 8 := by
    unfold State.verifyResult
    dsimp only
    repeat' split
    all_goals omega
  unfold State.updResult
  dsimp only
  split <;> omega

/-! ## START -/

section Start
variable {s w : State} {t : Instant} {fn : Nat} {data : Word} {im : SlotImage}

theorem exec_start (im : Option SlotImage) (h : (s.start t).actionWrite fn R.CFG_UPD_CTL_START data = (w, true)) :
    exec (.start t fn data im) s = .next (w.beginUpdate (if w.pf0Reads then im else none)) :=
  (action_passes h fun s go => s.doIf go (·.beginUpdate (if s.pf0Reads then im else none))).trans (congrArg Host.Outcome.next (State.doIf_true ..))

theorem beginUpdate_refused {im : Option SlotImage} {r : Nat} (h : w.startRefusal im = some r) : w.beginUpdate im = w.refuseUpd w.updTarget r := by
  unfold State.beginUpdate
  rw [h]
  rfl

theorem startRefusal_busy (im : Option SlotImage) (h : w.cfg.job ≠ none) : w.startRefusal im = some 0xF :=
  if_pos (Option.isSome_iff_ne_none.mpr h)

theorem startRefusal_unread (h : w.cfg.job = none) : w.startRefusal none = some 0xC := by
  unfold State.startRefusal
  rw [h]
  rfl

/-- The checks of a header that CFG has read, in their order (R361). -/
theorem startRefusal_some (h : w.cfg.job = none) : w.startRefusal (some im) =
    if 0x1000000 < w.f R.CFG_UPD_LEN_LEN ∨ w.f R.CFG_UPD_LEN_LEN ≠ im.hdr.len then some 0xB
    else if w.slotInForce.elim false (fun k => decide (im.hdr.seq ≤ (w.slotHdr k).seq)) then some 0xA
    else if im.hdr.svn < w.f R.HUSK_SVN_IMG_SVN then some 2 else none := by
  unfold State.startRefusal
  rw [h]
  rfl

theorem olderSeq_iff : w.slotInForce.elim false (fun k => decide (im.hdr.seq ≤ (w.slotHdr k).seq)) = true
    ↔ ¬ ∀ j, w.slotInForce = some j → (w.slotHdr j).seq < im.hdr.seq := by
  cases w.slotInForce with
  | none => simp
  | some k => simp

/-- The target as an update begins: the flash is blank, and the job is noted. -/
def State.updBegun (w : State) (i : SlotImage) : State :=
  let v := ((w.setF R.CFG_UPD_STAT_PHASE 1).setF R.CFG_UPD_STAT_TARGET w.updTarget).setF R.CFG_UPD_STAT_PCT 0
  { v with cfg := { v.cfg with job := some { verify := false, slot := w.updTarget, img := i } } }.spoilSlot w.updTarget {}

theorem beginUpdate_accepted (h : w.startRefusal (some im) = none) : w.beginUpdate (some im) = (w.updBegun im).post E.UPD_START (subject w.updTarget) := by
  unfold State.beginUpdate
  rw [h]
  rfl

theorem updTarget_lt (w : State) : w.updTarget < 2 := by
  unfold State.updTarget
  split
  · omega
  · split <;> decide

theorem tch_updBegun {w : State} {i : SlotImage} : Touches 4294967300 w (w.updBegun i) :=
  tch_spoilSlot.comp (by decide) (Touches.upd_cfg (by decide) (tch_setF.comp (by decide) (tch_setF.comp (by decide) (tch_setF.mono (by decide)))))

theorem updBegun_job (w : State) (i : SlotImage) : (w.updBegun i).cfg.job = some { verify := false, slot := w.updTarget, img := i } := by
  unfold State.updBegun
  dsimp only
  rw [job_spoilSlot]

theorem updBegun_slots (w : State) (i : SlotImage) : (w.updBegun i).cfg.slots = kset {} w.cfg.slots w.updTarget (unmarked {}) := by
  unfold State.updBegun
  dsimp only
  rw [slots_spoilSlot]
  dsimp only
  rw [State.setF_cfg, State.setF_cfg, State.setF_cfg]

theorem updBegun_shows (w : State) (i : SlotImage) :
    (w.updBegun i).f R.CFG_UPD_STAT_PHASE = 1 ∧ (w.updBegun i).f R.CFG_UPD_STAT_TARGET = w.updTarget := by
  unfold State.updBegun
  refine ⟨?_, ?_⟩
  · rw [f_spoilSlot _ _ _ _ (by decide), f_upd_cfg, f_setF_bits _ _ _ _ _ _ (by decide), f_setF_bits _ _ _ _ _ _ (by decide),
      f_setF_fits _ _ _ _ (by decide) (by decide)]
  · rw [f_spoilSlot _ _ _ _ (by decide), f_upd_cfg, f_setF_bits _ _ _ _ _ _ (by decide), f_setF_fits _ _ _ _ (by decide) (updTarget_lt w)]

end Start

/-! ## Phases of an update -/

theorem updating_of {s : State} {j : UpdJob} {phase : Nat} (ha : s.alive = true) (hj : s.cfg.job = some j) (hv : j.verify = false)
    (hp : s.f R.CFG_UPD_STAT_PHASE = phase) : s.updating phase = true := by
  unfold State.updating
  rw [ha, hp, hj]
  simp [hv]

section Phases
variable {s : State} {t : Instant} {j : UpdJob}

theorem exec_updateEraseDone (ok : Bool) (h : (s.start t).updating 1 = true) : exec (.updateEraseDone t ok) s
    = .next (if ok then (s.start t).setF R.CFG_UPD_STAT_PHASE 2 else (s.start t).failUpdate 0xD) := congrArg Host.Outcome.next (State.doIf_of h)

theorem exec_updateProgramDone (err : Nat) (h : (s.start t).updating 2 = true) : exec (.updateProgramDone t err) s
    = .next (if err = 1 ∨ !(s.start t).pf0Reads then (s.start t).failUpdate 0xC
        else if err = 0 then ((s.start t).writeJob.setF R.CFG_UPD_STAT_PHASE 3).setF R.CFG_UPD_STAT_PCT 100
        else (s.start t).failUpdate 0xD) := congrArg Host.Outcome.next (State.doIf_of h)

/-- What a successful verification leaves: the image with its MAGIC, and no job. -/
def State.updDone (s : State) (j : UpdJob) : State := ((s.setSlot j.slot j.img).jobOver.updEnds 5 0).post E.UPD_DONE (subject j.slot)

theorem exec_updateVerifyDone (hj : (s.start t).cfg.job = some j) (h : (s.start t).updating 3 = true) : exec (.updateVerifyDone t) s
    = .next (if (s.start t).updResult j.img != 0 then (s.start t).failUpdate ((s.start t).updResult j.img) else (s.start t).updDone j) := by
  refine congrArg Host.Outcome.next ?_
  rw [hj]
  exact State.doIf_of h

/-- Programming writes every byte but MAGIC. -/
theorem programmed_facts {u : State} (hj : u.cfg.job = some j) :
    let s' := (u.writeJob.setF R.CFG_UPD_STAT_PHASE 3).setF R.CFG_UPD_STAT_PCT 100
    s'.f R.CFG_UPD_STAT_PHASE = 3 ∧ s'.f R.CFG_UPD_STAT_PCT = 100 ∧ s'.slotImg j.slot = unmarked j.img
      ∧ (∀ k, k ≠ j.slot → s'.slotImg k = u.slotImg k) ∧ s'.cfg.job = some j ∧ s'.sys = u.sys := by
  have hw : u.writeJob = u.spoilSlot j.slot j.img := by unfold State.writeJob; rw [hj]
  dsimp only
  rw [hw]
  have hslots := slots_spoilSlot u j.slot j.img
  have hjob := (job_spoilSlot u j.slot j.img).trans hj
  rw [← State.setF_cfg _ R.CFG_UPD_STAT_PHASE 3 0 0, ← State.setF_cfg _ R.CFG_UPD_STAT_PCT 100 0 0] at hslots hjob
  obtain ⟨hsame, hother⟩ := slotImg_of_slots hslots
  refine ⟨?_, f_setF_fits _ _ _ _ (by decide) (by decide), hsame, hother, hjob, ?_⟩
  · rw [f_setF_bits _ _ _ _ _ _ (by decide), f_setF_fits _ _ _ _ (by decide) (by decide)]
  · rw [State.setF_sys, State.setF_sys, tch_spoilSlot.sysSame (by decide)]

theorem updDone_facts {u : State} (hroom : u.room) :
    (u.updDone j).slotImg j.slot = j.img ∧ (u.updDone j).f R.CFG_UPD_STAT_PHASE = 5 ∧ (u.updDone j).f R.CFG_UPD_STAT_RESULT = 0
      ∧ (u.updDone j).b R.CFG_UPD_STAT_DONE = true ∧ (u.updDone j).cfg.job = none ∧ (∀ k, k ≠ j.slot → (u.updDone j).slotImg k = u.slotImg k)
      ∧ Reports u (u.updDone j) E.UPD_DONE (subject j.slot) := by
  unfold State.updDone
  obtain ⟨hphase, hresult, hdone⟩ := updEnds_facts (u.setSlot j.slot j.img).jobOver (phase := 5) (result := 0) (by decide) (by decide)
  have htouch : Touches 4294967300 u ((u.setSlot j.slot j.img).jobOver.updEnds 5 0) :=
    tch_updEnds.comp (by decide) (Touches.upd_cfg (by decide) tch_setSlot)
  have hcfg : (((u.setSlot j.slot j.img).jobOver.updEnds 5 0).post E.UPD_DONE (subject j.slot)).cfg
      = { (u.setSlot j.slot j.img).cfg with job := none } := (State.post_cfg ..).trans (tch_updEnds.1 .cfg (by decide))
  rw [setSlot_cfg] at hcfg
  obtain ⟨hsame, hother⟩ := slotImg_of_slots (s := u) (by rw [hcfg])
  refine ⟨hsame, ?_, ?_, ?_, by rw [hcfg], hother, htouch.reports (by decide) (by decide) hroom ..⟩
  · rw [f_post _ _ _ _ _ _ _ _ (by decide), hphase]
  · rw [f_post _ _ _ _ _ _ _ _ (by decide), hresult]
  · rw [b_post _ _ _ _ _ _ _ _ (by decide), hdone]

theorem slotValid_of_updResult {u : State} {im : SlotImage} (h : u.updResult im = 0) : slotValid im.hdr = true := by
  unfold State.updResult at h
  cases hv : slotValid im.hdr with
  | true => rfl
  | false =>
    simp only [hv, Bool.not_false, true_or, and_true] at h
    split at h <;> omega

/-! ## VERIFY -/

/-- The RESULT that a slot gets. -/
def State.slotResult (s : State) (j : UpdJob) : Nat := if slotValid j.img.hdr then s.updResult j.img else 9

/-- The result stands, and the slots that have passed are noted. -/
def State.slotShown (s : State) (j : UpdJob) (r : Nat) : State :=
  let v := (s.setSlotResult j.slot r).setB R.CFG_UPD_STAT_DONE true
  { v with cfg := { v.cfg with
      job := none, verified := if r = 0 then j.slot :: v.cfg.verified.filter (· != j.slot) else v.cfg.verified.filter (· != j.slot) } }

theorem exec_slotVerified (ha : (s.start t).alive = true) (hj : (s.start t).cfg.job = some j) (hv : j.verify = true) : exec (.slotVerified t) s
    = .next (((s.start t).slotShown j ((s.start t).slotResult j)).post E.SLOT_VERIFIED (subject j.slot) (nw ((s.start t).slotResult j))) := by
  refine congrArg Host.Outcome.next ?_
  rw [hj]
  exact State.doIf_of (by rw [ha, hv]; rfl)

theorem tch_slotShown {u : State} {r : Nat} : Touches 4294967300 u (u.slotShown j r) :=
  Touches.upd_cfg (by decide) (tch_setB.comp (by decide) (tch_setSlotResult.mono (by decide)))

theorem setSlotResult_shows (u : State) {k r : Nat} (hk : k < 2) (hr : r < 16) :
    (u.setSlotResult k r).f (if k = 0 then R.CFG_SLOT_STAT_A_RESULT else R.CFG_SLOT_STAT_B_RESULT) = r := by
  unfold State.setSlotResult
  obtain rfl | rfl : k = 0 ∨ k = 1 := by omega
  · exact (f_setB_bits _ _ _ _ _ _ (by decide)).trans (f_setF_fits _ _ _ _ (by decide) hr)
  · exact (f_setB_bits _ _ _ _ _ _ (by decide)).trans (f_setF_fits _ _ _ _ (by decide) hr)

theorem slotShown_facts {u : State} {r : Nat} (hslot : j.slot < 2) (hr : r < 16) :
    (u.slotShown j r).cfg.job = none ∧ (u.slotShown j r).b R.CFG_UPD_STAT_DONE = true ∧ (j.slot ∈ (u.slotShown j r).cfg.verified ↔ r = 0)
      ∧ (u.slotShown j r).f (if j.slot = 0 then R.CFG_SLOT_STAT_A_RESULT else R.CFG_SLOT_STAT_B_RESULT) = r
      ∧ (u.slotShown j r).cfg.slots = u.cfg.slots := by
  have hcfg : ((u.setSlotResult j.slot r).setB R.CFG_UPD_STAT_DONE true).cfg = u.cfg := by
    rw [State.setB_cfg, tch_setSlotResult.1 .cfg (by decide)]
  unfold State.slotShown
  dsimp only
  rw [hcfg, b_upd_cfg, f_upd_cfg, b_setB_same _ _ _ _ _ (by decide), f_setB_key _ _ (by split <;> decide), setSlotResult_shows u hslot hr]
  refine ⟨rfl, rfl, ?_, rfl, rfl⟩
  by_cases h0 : r = 0
  · simp [h0]
  · simp [h0]

theorem slotResult_lt (u : State) (j : UpdJob) : u.slotResult j < 16 := by
  unfold State.slotResult
  split
  · exact updResult_lt ..
  · decide

end Phases

/-! ## ABORT, VERIFY and REVOKE as commands -/

section Commands
variable {s w : State} {t : Instant} {fn : Nat} {data : Word} {j : UpdJob}

theorem exec_updateAbort (h : (s.start t).actionWrite fn R.CFG_UPD_CTL_ABORT data = (w, true)) (hj : w.cfg.job = some j) (hv : j.verify = false) :
    exec (.updateAbort t fn data) s = .next (w.failUpdate 0xE) :=
  (action_passes h fun s go => s.doIf (go && s.cfg.job.any fun j : UpdJob => !j.verify) (·.failUpdate 0xE)).trans
    (congrArg Host.Outcome.next (State.doIf_of (by simp [hj, hv])))

theorem exec_verify (h : (s.start t).actionWrite fn R.CFG_UPD_CTL_VERIFY data = (w, true)) :
    exec (.verify t fn data) s = .next (if w.cfg.job.isSome then w.refuseUpd (w.f R.CFG_UPD_CTL_SLOT) 0xF
      else { w with cfg := { w.cfg with
        job := some { verify := true, slot := w.f R.CFG_UPD_CTL_SLOT, img := w.slotImg (w.f R.CFG_UPD_CTL_SLOT) } } }) :=
  (action_passes h fun s go => s.doIf go fun s =>
    let k := s.f R.CFG_UPD_CTL_SLOT
    if s.cfg.job.isSome then s.refuseUpd k 0xF
    else { s with cfg := { s.cfg with job := some { verify := true, slot := k, img := s.slotImg k } } }).trans
      (congrArg Host.Outcome.next (State.doIf_true ..))

/-- A slot that has been revoked. -/
def State.revoked (s : State) (k : Nat) : State :=
  ((s.spoilSlot k (s.slotImg k)).setB R.CFG_UPD_STAT_DONE true).post E.SLOT_REVOKED (subject k)

theorem exec_revoke (h : (s.start t).actionWrite fn R.CFG_UPD_CTL_REVOKE data = (w, true)) :
    exec (.revoke t fn data) s = .next (if w.revokeRefused (w.f R.CFG_UPD_CTL_SLOT) then w.refuseUpd (w.f R.CFG_UPD_CTL_SLOT) 0xF
      else w.revoked (w.f R.CFG_UPD_CTL_SLOT)) :=
  (action_passes h fun s go => s.doIf go fun s =>
    let k := s.f R.CFG_UPD_CTL_SLOT
    if s.revokeRefused k then s.refuseUpd k 0xF else s.revoked k).trans (congrArg Host.Outcome.next (State.doIf_true ..))

theorem revokeRefused_iff (k : Nat) :
    w.revokeRefused k = true ↔ ¬ (w.cfg.job = none ∧ (w.slotInForce = some k → 1 - k ∈ w.cfg.verified)) := by
  unfold State.revokeRefused
  cases w.cfg.job with
  | none => simp
  | some j => simp

theorem revoked_facts (k : Nat) (hroom : w.room) :
    slotValid ((w.revoked k).slotHdr k) = false ∧ (∀ j, j ≠ k → (w.revoked k).slotHdr j = w.slotHdr j) ∧ (w.revoked k).b R.CFG_UPD_STAT_DONE = true
      ∧ (w.revoked k).cfg.job = w.cfg.job ∧ Reports w (w.revoked k) E.SLOT_REVOKED (subject k) := by
  unfold State.revoked
  have htouch : Touches 4294967300 w ((w.spoilSlot k (w.slotImg k)).setB R.CFG_UPD_STAT_DONE true) := tch_setB.comp (by decide) tch_spoilSlot
  have hcfg : (((w.spoilSlot k (w.slotImg k)).setB R.CFG_UPD_STAT_DONE true).post E.SLOT_REVOKED (subject k)).cfg
      = (w.spoilSlot k (w.slotImg k)).cfg := (State.post_cfg ..).trans (State.setB_cfg ..)
  have hslots := slots_spoilSlot w k (w.slotImg k)
  have hjob := job_spoilSlot w k (w.slotImg k)
  rw [← hcfg] at hslots hjob
  obtain ⟨hsame, hother⟩ := slotImg_of_slots hslots
  refine ⟨?_, fun i hi => congrArg SlotImage.hdr (hother i hi), ?_, hjob, htouch.reports (by decide) (by decide) hroom ..⟩
  · unfold State.slotHdr
    rw [hsame, slotValid_unmarked]
  · rw [b_post _ _ _ _ _ _ _ _ (by decide), b_setB_same _ _ _ _ _ (by decide)]

end Commands

/-! ## The clauses of the statement -/

/-- START: a refusal by the first check that fails, else an update that has begun. -/
theorem start_checks {s w : State} {t : Instant} {fn : Nat} {data : Word} {im : SlotImage}
    (h : (s.start t).actionWrite fn R.CFG_UPD_CTL_START data = (w, true)) (hroom : w.room) (given : Option SlotImage) :
    (∀ r < 16, w.startRefusal (if w.pf0Reads then given else none) = some r → Runs (.start t fn data given) s fun s' =>
      s'.f R.CFG_UPD_STAT_RESULT = r ∧ s'.cfg = w.cfg ∧ Reports w s' E.UPD_FAIL (subject w.updTarget) (nw r))
    ∧ (w.pf0Reads = true → given = some im → w.startRefusal given = none → Runs (.start t fn data given) s fun s' =>
        s'.f R.CFG_UPD_STAT_PHASE = 1 ∧ s'.f R.CFG_UPD_STAT_TARGET = w.updTarget ∧ slotValid (s'.slotHdr w.updTarget) = false
          ∧ s'.cfg.job = some { verify := false, slot := w.updTarget, img := im } ∧ (∀ j, j ≠ w.updTarget → s'.slotHdr j = w.slotHdr j)
          ∧ Reports w s' E.UPD_START (subject w.updTarget)) := by
  refine ⟨fun r hr href => ⟨_, exec_start given h, ?_⟩, fun hpf hgiven hnone => ⟨_, exec_start given h, ?_⟩⟩
  · rw [beginUpdate_refused href]
    exact refuseUpd_facts w _ hr hroom
  · subst hgiven
    rw [if_pos hpf, beginUpdate_accepted hnone]
    obtain ⟨hphase, htarget⟩ := updBegun_shows w im
    have hjob := updBegun_job w im
    have hslots := updBegun_slots w im
    rw [← State.post_cfg _ E.UPD_START (subject w.updTarget) 0 0] at hjob hslots
    obtain ⟨hsame, hother⟩ := slotImg_of_slots hslots
    refine ⟨?_, ?_, ?_, hjob, fun i hi => congrArg SlotImage.hdr (hother i hi), tch_updBegun.reports (by decide) (by decide) hroom ..⟩
    · rw [f_post _ _ _ _ _ _ _ _ (by decide), hphase]
    · rw [f_post _ _ _ _ _ _ _ _ (by decide), htarget]
    · unfold State.slotHdr
      rw [hsame, slotValid_unmarked]

/-- Settles O50: START by the first check that fails, the phases by what each leaves of CFG, REVOKE as VERIFY by the slots. -/
theorem updatesWriteTheOtherSlot : Obligations.UpdatesWriteTheOtherSlot := by
  unfold Obligations.UpdatesWriteTheOtherSlot
  dsimp only
  refine ⟨?start, ?phases, ?abort, ?verify, ?revoke⟩
  case start =>
    intro s w t fn data im h hroom
    obtain ⟨hrefused, haccepted⟩ := start_checks (im := im) h hroom (some im)
    have hread (hpf : w.pf0Reads = true) : (if w.pf0Reads then some im else none) = some im := if_pos hpf
    refine ⟨fun hj => hrefused 0xF (by decide) (startRefusal_busy _ hj), fun hj hpf => hrefused 0xC (by decide) ?_, fun hj => ?_,
      fun hj hpf hlen => hrefused 0xB (by decide) ?_, fun hj hpf hlen hseq => hrefused 0xA (by decide) ?_,
      fun hj hpf hlen hseq hsvn => hrefused 2 (by decide) ?_, fun hj hpf hlen hseq hsvn => haccepted hpf rfl ?_⟩
    · rw [hpf]
      exact startRefusal_unread hj
    · exact (start_checks (im := im) h hroom none).1 0xC (by decide) (by rw [ite_self]; exact startRefusal_unread hj)
    · rw [hread hpf, startRefusal_some hj, if_pos (by omega)]
    · rw [hread hpf, startRefusal_some hj, if_neg (by omega), if_pos (olderSeq_iff.mpr hseq)]
    · rw [hread hpf, startRefusal_some hj, if_neg (by omega), if_neg (fun h => olderSeq_iff.mp h hseq), if_pos hsvn]
    · rw [startRefusal_some hj, if_neg (by omega), if_neg (fun h => olderSeq_iff.mp h hseq), if_neg (by omega)]
  case phases =>
    rintro s u t j rfl ha hj hroom
    refine ⟨fun hv hp => ?_, fun hv hp => ?_, fun hv hp => ?_, ?_⟩
    · have hup := updating_of ha hj hv hp
      refine ⟨⟨_, exec_updateEraseDone true hup, f_setF_fits _ _ _ _ (by decide) (by decide), rfl, rfl⟩, ⟨_, exec_updateEraseDone false hup, ?_⟩⟩
      exact failUpdate_facts (by decide) hj hv hroom
    · have hup := updating_of ha hj hv hp
      refine ⟨fun hpf => ⟨_, exec_updateProgramDone 0 hup, ?_⟩, fun err herr => ⟨_, exec_updateProgramDone err hup, ?_⟩,
        fun hpf => ⟨_, exec_updateProgramDone 2 hup, ?_⟩⟩
      · rw [if_neg (by simp [hpf]), if_pos rfl]
        exact programmed_facts hj
      · rw [if_pos (by simpa using herr)]
        exact failUpdate_facts (by decide) hj hv hroom
      · rw [if_neg (by simp [hpf]), if_neg (by decide)]
        exact failUpdate_facts (by decide) hj hv hroom
    · have hup := updating_of ha hj hv hp
      refine ⟨fun h0 => ⟨_, exec_updateVerifyDone hj hup, ?_⟩, fun r hr h0 => ⟨_, exec_updateVerifyDone hj hup, ?_⟩⟩
      · rw [h0, if_neg (by decide)]
        obtain ⟨himg, hrest⟩ := updDone_facts (j := j) hroom
        exact ⟨himg, slotValid_of_updResult h0, hrest⟩
      · subst hr
        rw [if_pos (by simpa using h0)]
        exact failUpdate_facts (updResult_lt ..) hj hv hroom
    · rintro hv hslot r rfl
      refine ⟨_, exec_slotVerified ha hj hv, ?_⟩
      obtain ⟨hjob, hdone, hmem, hres, hslots⟩ := slotShown_facts (u := s.start t) hslot (slotResult_lt (s.start t) j)
      refine ⟨by rw [State.post_cfg, hjob], by rw [b_post _ _ _ _ _ _ _ _ (by decide), hdone], by rw [State.post_cfg]; exact hmem, ?_,
        by rw [State.post_cfg, hslots], tch_slotShown.reports (by decide) (by decide) hroom ..⟩
      rw [f_post _ _ _ _ _ _ _ _ (by split <;> decide)]
      exact hres
  case abort =>
    intro s w t fn data j h hroom hj hv
    exact ⟨_, exec_updateAbort h hj hv, failUpdate_facts (by decide) hj hv hroom⟩
  case verify =>
    intro s w t fn data h hroom
    refine ⟨fun hj => ⟨_, exec_verify h, ?_⟩, fun hj => ⟨_, exec_verify h, ?_⟩⟩
    · rw [if_neg (by rw [hj]; exact Bool.false_ne_true)]
    · rw [if_pos (Option.isSome_iff_ne_none.mpr hj)]
      exact refuseUpd_facts w _ (by decide) hroom
  case revoke =>
    intro s w t fn data h hroom
    refine ⟨fun hmay => ⟨_, exec_revoke h, ?_⟩, fun hmay => ⟨_, exec_revoke h, ?_⟩⟩
    · rw [if_neg (fun h => (revokeRefused_iff _).mp h hmay)]
      obtain ⟨hvalid, hother, hdone, hjob, hrep⟩ := revoked_facts (w.f R.CFG_UPD_CTL_SLOT) hroom
      exact ⟨hvalid, hother, hdone, hjob.trans hmay.1, hrep⟩
    · rw [if_pos ((revokeRefused_iff _).mpr hmay)]
      exact refuseUpd_facts w _ (by decide) hroom

end Sys2Proof.Machine
end

section
/-! PROOFS. O58. Start tokens: requests that wait, grants, withdrawals, refills, and writes of their configuration (R497, R498, R500, R501). -/
namespace Sys2Proof.Machine

/-! ## Fields of PWR -/

theorem f_setTokens (s : State) (q : List (Nat × Nat)) {r : FRef} (h : Apart r R.PWR_TOK_STAT_PENDING 0 0 0 0) : (s.setTokens q).f r = s.f r :=
  (f_upd_pwr ..).trans (f_setF_apart _ _ _ _ _ _ h)

theorem pending_setTokens (s : State) (q : List (Nat × Nat)) : (s.setTokens q).f R.PWR_TOK_STAT_PENDING = q.length % 1024 :=
  (f_upd_pwr ..).trans (f_setF_same _ _ _ _ _ (by decide))

theorem setTokens_pwr (s : State) (q : List (Nat × Nat)) : (s.setTokens q).pwr = { s.pwr with tokens := q } := rfl

theorem tokenCost_of_f {s s' : State} (hpc : s'.f R.PWR_TOK_CFG_PC_COST = s.f R.PWR_TOK_CFG_PC_COST)
    (haux : s'.f R.PWR_TOK_CFG_AUX_COST = s.f R.PWR_TOK_CFG_AUX_COST) (r : Nat) : s'.tokenCost r = s.tokenCost r := by
  unfold State.tokenCost
  rw [hpc, haux]

/-! ## Grants -/

/-- A grant as PWR shows and reports it, before it reaches the requester. -/
def State.grantShown (s : State) (req : Nat) : State :=
  ((s.incF R.PWR_TOK_STAT_GRANTS).setF R.PWR_TOK_LAST_REQ req).post E.TOKEN_GRANTED (subject req)

theorem grant_eq (s : State) (req : Nat) : s.grant req = if req < 512 then (s.grantShown req).grantContext req
    else (s.grantShown req).doIf (decide (req < 516)) (·.bcStart (req - 512)) := rfl

/-- What a grant does beyond PWR and the event. -/
theorem tch_grantShown_grant (s : State) (req : Nat) : Touches 1683685998977 (s.grantShown req) (s.grant req) := by
  rw [grant_eq]
  exact Touches.ite (tch_grantContext.mono (by decide)) (.doIf (.refl _ _) fun u h => tch_bcStart.comp (by decide) h)

theorem tch_shown (s : State) (req : Nat) : Touches 16384 s ((s.incF R.PWR_TOK_STAT_GRANTS).setF R.PWR_TOK_LAST_REQ req) :=
  tch_setF.comp (by decide) (tch_incF.mono (by decide))

theorem grant_pwr (s : State) (req : Nat) : (s.grant req).pwr = s.pwr := tch_grant.1 .pwr (by decide)

/-- A field of PWR that shows no grant. -/
theorem f_grant (s : State) (req : Nat) {q : FRef} (hb : q.blk = .pwr) (hl : q.key 0 0 ≠ 0x18) (hg : Apart q R.PWR_TOK_STAT_GRANTS 0 0 0 0) :
    (s.grant req).f q = s.f q := by
  rw [(tch_grantShown_grant s req).f q 0 0 (by rw [hb]; decide)]
  unfold State.grantShown State.incF
  rw [f_post _ _ _ _ _ _ _ _ (by rw [hb]; decide), f_setF_key _ _ hl, f_setF_apart _ _ _ _ _ _ hg]

theorem grant_shows (s : State) {req : Nat} (hr : req < 1024) : (s.grant req).f R.PWR_TOK_LAST_REQ = req
    ∧ (s.grant req).f R.PWR_TOK_STAT_GRANTS = min (s.f R.PWR_TOK_STAT_GRANTS + 1) (2 ^ 16 - 1) := by
  rw [(tch_grantShown_grant s req).f _ _ _ (by decide), (tch_grantShown_grant s req).f _ _ _ (by decide)]
  unfold State.grantShown
  rw [f_post _ _ _ _ _ _ _ _ (by decide), f_post _ _ _ _ _ _ _ _ (by decide), f_setF_fits _ _ _ _ (by decide) hr,
    f_setF_key _ _ (by decide), f_incF_same _ _ _ _ _ (by decide)]
  exact ⟨rfl, rfl⟩

theorem grant_posts {s u : State} {m : Nat} (req : Nat) (h : Touches m s u) (hts : m &&& 18522046464 = 0) (hs : m.testBit 16 = false) (hroom : s.room)
    (hm : 16384 &&& m = 16384) : Posts s (u.grant req) E.TOKEN_GRANTED (subject req) :=
  (((tch_shown u req).comp hm h).reports hts hs hroom ..).posts (tch_grantShown_grant u req).q

/-- The bridge that a grant starts is in ALIGN, where ALIGN takes time (R182). -/
theorem grant_bridge (s : State) {x : Nat} (hx : x < 4) (hT : s.f R.AUX_BC_START_T_ALIGN x ≠ 0) : (s.grant (512 + x)).bcPhase x = bcAlign := by
  rw [grant_eq, if_neg (by omega), State.doIf_of (by simp; omega), Nat.add_sub_cancel_left]
  have hshown : (s.grantShown (512 + x)).f R.AUX_BC_START_T_ALIGN x = s.f R.AUX_BC_START_T_ALIGN x := by
    unfold State.grantShown
    rw [f_post _ _ _ _ _ _ _ _ (by decide), (tch_shown s (512 + x)).f _ _ _ (by decide)]
  unfold State.bcStart
  rw [if_neg (by rw [tch_setBc.f _ _ _ (by decide), hshown]; exact hT)]
  unfold State.bcPhase
  rw [apply_f hx _ (.inl rfl), tch_setBc.f _ _ _ (by decide), f_setF_fits _ _ _ _ (by decide) (by decide)]

/-! ## Grants that are due -/

theorem grantDue_nil {s : State} (h : s.pwr.tokens = []) : s.grantDue = s := by
  unfold State.grantDue State.grantDue.go
  rw [h]

theorem go_nil {s : State} (n : Nat) (h : s.pwr.tokens = []) : State.grantDue.go n s = s := by
  unfold State.grantDue.go
  cases n with
  | zero => rfl
  | succ n => rw [h]

section Due
variable {s : State} {tick r : Nat} {q : List (Nat × Nat)} (h : s.pwr.tokens = (tick, r) :: q)
include h

theorem go_cons (n : Nat) : State.grantDue.go (n + 1) s = if !s.b R.PWR_TOK_CFG_EN then State.grantDue.go n ((s.setTokens q).grant r)
    else if s.b R.PWR_TOK_STAT_OPEN && decide (s.tokenCost r ≤ s.f R.PWR_TOK_STAT_LEVEL) then
      State.grantDue.go n (((s.setTokens q).setF R.PWR_TOK_STAT_LEVEL (s.f R.PWR_TOK_STAT_LEVEL - s.tokenCost r)).grant r)
    else s := by
  conv => lhs; unfold State.grantDue.go
  rw [h]

/-- With EN = 0 the head is granted. -/
theorem go_free (n : Nat) (hen : s.b R.PWR_TOK_CFG_EN = false) : State.grantDue.go (n + 1) s = State.grantDue.go n ((s.setTokens q).grant r) := by
  rw [go_cons h]
  exact if_pos (by rw [hen]; rfl)

/-- While the level is below its cost the head waits. -/
theorem grantDue_holds (hen : s.b R.PWR_TOK_CFG_EN = true) (hl : s.f R.PWR_TOK_STAT_LEVEL < s.tokenCost r) : s.grantDue = s := by
  unfold State.grantDue
  rw [go_cons h, if_neg (by rw [hen]; decide), if_neg (by simp; omega)]

end Due

/-- A single request is granted with EN = 0. -/
theorem grantDue_single_free {s : State} {tick r : Nat} (h : s.pwr.tokens = [(tick, r)]) (hen : s.b R.PWR_TOK_CFG_EN = false) :
    s.grantDue = (s.setTokens []).grant r := by
  unfold State.grantDue
  rw [go_free h _ hen, go_nil]
  rw [grant_pwr]
  rfl

/-- A single request is granted from the bucket that pays for it. -/
theorem grantDue_single_paid {s : State} {tick r : Nat} (h : s.pwr.tokens = [(tick, r)]) (hen : s.b R.PWR_TOK_CFG_EN = true)
    (hopen : s.b R.PWR_TOK_STAT_OPEN = true) (hl : s.tokenCost r ≤ s.f R.PWR_TOK_STAT_LEVEL) :
    s.grantDue = ((s.setTokens []).setF R.PWR_TOK_STAT_LEVEL (s.f R.PWR_TOK_STAT_LEVEL - s.tokenCost r)).grant r := by
  unfold State.grantDue
  rw [go_cons h, if_neg (by rw [hen]; decide), if_pos (by rw [hopen]; simpa using hl), go_nil]
  rw [grant_pwr]
  rfl

theorem granted_facts {s u : State} {r : Nat} (hr : r < 1024) (hu : u.pwr.tokens = []) (hg : u.f R.PWR_TOK_STAT_GRANTS = s.f R.PWR_TOK_STAT_GRANTS) :
    (u.grant r).pwr.tokens = [] ∧ (u.grant r).f R.PWR_TOK_LAST_REQ = r
      ∧ (u.grant r).f R.PWR_TOK_STAT_GRANTS = min (s.f R.PWR_TOK_STAT_GRANTS + 1) (2 ^ 16 - 1) := by
  obtain ⟨hlast, hgrants⟩ := grant_shows u hr
  exact ⟨by rw [grant_pwr, hu], hlast, by rw [hgrants, hg]⟩

/-- A request paid for: LEVEL falls by its cost, and no other waits. -/
theorem paid_facts {s : State} {tick r : Nat} (h : s.pwr.tokens = [(tick, r)]) (hen : s.b R.PWR_TOK_CFG_EN = true)
    (hopen : s.b R.PWR_TOK_STAT_OPEN = true) (hl : s.tokenCost r ≤ s.f R.PWR_TOK_STAT_LEVEL) :
    s.grantDue.pwr.tokens = [] ∧ s.grantDue.f R.PWR_TOK_STAT_LEVEL = s.f R.PWR_TOK_STAT_LEVEL - s.tokenCost r := by
  rw [grantDue_single_paid h hen hopen hl]
  refine ⟨by rw [grant_pwr]; rfl, ?_⟩
  have hlt := f_lt s R.PWR_TOK_STAT_LEVEL 0 0
  rw [f_grant _ _ rfl (by decide) (.inr (.inr (by decide))), f_setF_fits _ _ _ _ (by decide) (Nat.lt_of_le_of_lt (Nat.sub_le ..) hlt)]

theorem paid_posts {s u : State} {tick r : Nat} (h : u.pwr.tokens = [(tick, r)]) (hen : u.b R.PWR_TOK_CFG_EN = true)
    (hopen : u.b R.PWR_TOK_STAT_OPEN = true) (hl : u.tokenCost r ≤ u.f R.PWR_TOK_STAT_LEVEL) (ht : Touches 540672 s u) (hroom : s.room) :
    Posts s u.grantDue E.TOKEN_GRANTED (subject r) := by
  rw [grantDue_single_paid h hen hopen hl]
  exact grant_posts r (tch_setF.comp (by decide) (tch_setTokens.comp (by decide) ht)) (by decide) (by decide) hroom (by decide)

/-- With EN = 0 every request is granted (R501). -/
theorem grantDue_drains {s : State} (hen : s.b R.PWR_TOK_CFG_EN = false) (hlen : s.pwr.tokens.length ≤ 516) : s.grantDue.pwr.tokens = [] := by
  have go (q : List (Nat × Nat)) : ∀ (n : Nat) (s : State), s.pwr.tokens = q → s.b R.PWR_TOK_CFG_EN = false → q.length ≤ n →
      (State.grantDue.go n s).pwr.tokens = [] := by
    induction q with
    | nil => intro n s hq _ _; rw [go_nil n hq, hq]
    | cons y q ih =>
      intro n s hq hen hlen
      obtain ⟨n, rfl⟩ : ∃ k, n = k + 1 := ⟨n - 1, by simp at hlen; omega⟩
      rw [go_free hq n hen]
      refine ih n _ (by rw [grant_pwr]; rfl) ?_ (by simpa using hlen)
      rw [b_of_f (f_grant _ _ rfl (by decide) (.inr (.inl (by decide)))), (setTokens_b s q).1, hen]
  exact go _ _ s rfl hen hlen

/-- A grant leaves the configuration. -/
theorem word_grant (s : State) (req : Nat) : (s.grant req).word .pwr 0x10 = s.word .pwr 0x10 := by
  rw [(tch_grantShown_grant s req).word _ _ (by decide)]
  unfold State.grantShown State.incF
  rw [word_post _ _ _ _ _ _ _ (by decide), word_setF_other _ _ _ _ _ (.inr (by decide)), word_setF_other _ _ _ _ _ (.inr (by decide))]

theorem word_upd_pwr (s : State) (p : PwrSt) (b : Blk) (k : Nat) : State.word { s with pwr := p } b k = s.word b k := rfl

theorem word_setTokens (s : State) (q : List (Nat × Nat)) : (s.setTokens q).word .pwr 0x10 = s.word .pwr 0x10 :=
  (word_upd_pwr ..).trans (word_setF_other s R.PWR_TOK_STAT_PENDING q.length 0 0 (.inr (by decide)))

/-- Grants leave the configuration. -/
theorem word_grantDue (s : State) : s.grantDue.word .pwr 0x10 = s.word .pwr 0x10 := by
  have go (n : Nat) : ∀ s : State, (State.grantDue.go n s).word .pwr 0x10 = s.word .pwr 0x10 := by
    induction n with
    | zero => intro s; rfl
    | succ n ih =>
      intro s
      cases htok : s.pwr.tokens with
      | nil => rw [go_nil _ htok]
      | cons y q =>
        rw [go_cons htok]
        split
        · rw [ih, word_grant, word_setTokens]
        · split
          · rw [ih, word_grant, word_setF_other _ _ _ _ _ (.inr (by decide)), word_setTokens]
          · rfl
  exact go 516 s

/-! ## Requests that wait -/

/-- A request joins behind those of earlier ticks, and of the same tick behind those of lower requesters. -/
theorem putToken_splits (x : Nat × Nat) (l : List (Nat × Nat)) : ∃ a b, l = a ++ b ∧ putToken x l = a ++ x :: b
    ∧ (∀ y ∈ a, y.1 < x.1 ∨ y.1 = x.1 ∧ y.2 ≤ x.2) ∧ ∀ y, b.head? = some y → x.1 < y.1 ∨ x.1 = y.1 ∧ x.2 < y.2 := by
  induction l with
  | nil => exact ⟨[], [], rfl, rfl, by simp, by simp⟩
  | cons z l ih =>
    unfold putToken
    by_cases hz : x.1 < z.1 ∨ (x.1 = z.1 ∧ x.2 < z.2)
    · rw [if_pos hz]
      exact ⟨[], z :: l, rfl, rfl, by simp, by rintro y hy; cases hy; exact hz⟩
    · obtain ⟨a, b, rfl, hput, ha, hb⟩ := ih
      rw [if_neg hz]
      refine ⟨z :: a, b, rfl, by rw [hput]; rfl, ?_, hb⟩
      intro y hy
      rcases List.mem_cons.mp hy with rfl | hy
      · omega
      · exact ha y hy

theorem length_putToken (x : Nat × Nat) (l : List (Nat × Nat)) : (putToken x l).length = l.length + 1 := by
  obtain ⟨a, b, rfl, hput, _, _⟩ := putToken_splits x l
  rw [hput]
  simp
  omega

theorem tokenRequest_new {s : State} {req : Nat} (h : ∀ y ∈ s.pwr.tokens, y.2 ≠ req) :
    s.tokenRequest req = (s.setTokens (putToken (s.pwmTime, req) s.pwr.tokens)).grantDue := by
  unfold State.tokenRequest
  rw [if_neg]
  simp only [List.any_eq_true, beq_iff_eq]
  exact fun ⟨y, hy, he⟩ => h y hy he

theorem tokenWithdraw_waiting {s : State} {req : Nat} (h : ∃ y ∈ s.pwr.tokens, y.2 = req) :
    s.tokenWithdraw req = ((s.setTokens (s.pwr.tokens.filter (·.2 != req))).post E.TOKEN_WITHDRAWN (subject req)).grantDue := by
  unfold State.tokenWithdraw
  rw [if_pos]
  simpa only [List.any_eq_true, beq_iff_eq] using h

/-! ## The commands -/

section Commands
variable {s : State} {t : Instant}

theorem exec_tokenRequest {req x : Nat} (hs : (s.start t).sealed = true)
    (h : req < 512 ∧ ((s.start t).ctx req).section_ 2 = true ∧ ((s.start t).dcdc req).st = bWait ∧ ((s.start t).dcdc req).granted = false
      ∨ req = 512 + x ∧ (s.start t).bcOn x = true ∧ (s.start t).bcPhase x = bcStopped ∧ 8 / 256 ≤ ((s.start t).bc x).duty
        ∧ ((s.start t).bc x).retryAt = none ∧ ((s.start t).bc x).barred = false) :
    exec (.tokenRequest t req) s = .next ((s.start t).tokenRequest ((s.start t).requester req)) := by
  refine congrArg Host.Outcome.next (State.doIf_of ?_)
  rw [hs, Bool.true_and, Bool.or_eq_true]
  rcases h with ⟨hreq, hsec, hst, hgr⟩ | ⟨rfl, hon, hphase, hduty, hretry, hbar⟩
  · left
    rw [hsec, hst, hgr]
    simp [hreq]
  · right
    rw [Nat.add_sub_cancel_left, hon, hphase, hretry, hbar]
    simp [hduty]

theorem exec_tokenWithdraw (req : Nat) (hs : (s.start t).sealed = true) :
    exec (.tokenWithdraw t req) s = .next ((s.start t).tokenWithdraw ((s.start t).requester req)) := congrArg Host.Outcome.next (State.doIf_of hs)

/-- A refill before what it grants. -/
def State.refilled (s : State) (r : Instant) : State :=
  let v := s.setF R.PWR_TOK_STAT_LEVEL (min (s.f R.PWR_TOK_STAT_LEVEL + 1) s.tokenCap)
  { v with pwr := { v.pwr with refillAt := some (r + v.refillQ) } }

theorem exec_tokenRefill {r : Instant} (h : (s.start t).pwr.refillAt = some r) (hr : r ≤ (s.start t).now) (hopen : (s.start t).b R.PWR_TOK_STAT_OPEN = true) :
    exec (.tokenRefill t) s = .next ((s.start t).refilled r).grantDue := by
  refine congrArg Host.Outcome.next ?_
  rw [h]
  exact if_pos ⟨hr, hopen⟩

theorem level_refilled (u : State) (r : Instant) :
    (u.refilled r).f R.PWR_TOK_STAT_LEVEL = min (u.f R.PWR_TOK_STAT_LEVEL + 1) (u.f R.PWR_TOK_CFG_CAP + 1) := by
  unfold State.refilled
  dsimp only
  have hcap := f_lt u R.PWR_TOK_CFG_CAP 0 0
  rw [f_upd_pwr, f_setF_fits _ _ _ _ (by decide)]
  · rfl
  · unfold State.tokenCap
    have : u.f R.PWR_TOK_CFG_CAP < 16 := hcap
    show min _ _ < 32
    omega

theorem f_refilled (u : State) (r : Instant) {q : FRef} (h : Apart q R.PWR_TOK_STAT_LEVEL 0 0 0 0) : (u.refilled r).f q = u.f q := by
  unfold State.refilled
  dsimp only
  rw [f_upd_pwr, f_setF_apart _ _ _ _ _ _ h]

theorem refilled_pwr (u : State) (r : Instant) :
    (u.refilled r).pwr = { u.pwr with refillAt := some (r + u.f R.PWR_TOK_CFG_REFILL * msQ) } := by
  unfold State.refilled State.refillQ
  dsimp only
  rw [State.setF_pwr, f_setF_key _ _ (by decide)]

theorem tch_refilled (u : State) (r : Instant) : Touches 540672 u (u.refilled r) :=
  Touches.upd_pwr_keep rfl (by decide) (tch_setF.mono (by decide))

theorem exec_pwrTokCfg {w : State} {fn : Nat} {data v : Word} {h : RegHit} {fs : List FieldDef}
    (hw : (s.start t).writeAt fn .pwr (R.PWR_TOK_CFG_EN.off 0 0) data = (w, some (h, fs)))
    (hv : v = fs.foldl (fun x fd => applyField 0 x data fd) (w.word .pwr 0x10)) : exec (.pwrTokCfg t fn data) s = .next (w.tokCfg fn v) := by
  show execPwrTokCfg t fn data s = _
  unfold execPwrTokCfg
  rw [hw, hv]

theorem tokCfgBad_iff (v : Word) : tokCfgBad v = true ↔ getBits v 29 26 + 1 < getBits v 20 18 ∨ getBits v 29 26 + 1 < getBits v 17 15 := by
  unfold tokCfgBad
  simp

/-- EN of PWR_TOK_CFG is bit 31 of its word. -/
theorem tokEn_iff (w : State) : w.b R.PWR_TOK_CFG_EN = (w.word .pwr 0x10).getLsbD 31 := by
  rw [b_eq_bitF _ _ _ _ rfl, bitF_eq_getLsbD]
  rfl

theorem tokCfg_refused {w : State} {v : Word} (fn : Nat) (h : tokCfgBad v = true) :
    (w.tokCfg fn v).word .pwr 0x10 = w.word .pwr 0x10 ∧ (w.tokCfg fn v).pwr = w.pwr ∧ (w.tokCfg fn v).f R.HUSK_REFUSE_LAST_KIND = 1 := by
  unfold State.tokCfg
  dsimp only
  rw [if_pos h]
  exact ⟨tch_refuse.word _ _ (by decide), tch_refuse.1 .pwr (by decide), kind_refuse _ _ _ _ _ (by decide)⟩

/-- A new configuration with EN = 1 over one with EN = 0. -/
def State.bucketEmptied (w : State) (v : Word) : State :=
  ((w.setWord .pwr 0x10 v).setF R.PWR_TOK_STAT_LEVEL 0).doIf ((w.setWord .pwr 0x10 v).b R.PWR_TOK_STAT_OPEN) fun s =>
    { s with pwr := { s.pwr with refillAt := some (s.now + s.refillQ) } }

theorem tokCfg_set {w : State} {v : Word} (fn : Nat) (h : tokCfgBad v = false) : w.tokCfg fn v =
    if w.b R.PWR_TOK_CFG_EN && !v.getLsbD 31 then (w.setWord .pwr 0x10 v).grantDue
    else if !w.b R.PWR_TOK_CFG_EN && v.getLsbD 31 then w.bucketEmptied v
    else w.setWord .pwr 0x10 v := by
  rw [tokEn_iff]
  unfold State.tokCfg State.bucketEmptied
  dsimp only
  rw [if_neg (by rw [h]; decide)]

theorem bucketEmptied_facts (w : State) (v : Word) : (w.bucketEmptied v).word .pwr 0x10 = v ∧ (w.bucketEmptied v).f R.PWR_TOK_STAT_LEVEL = 0
    ∧ (w.b R.PWR_TOK_STAT_OPEN = true → (w.bucketEmptied v).pwr.refillAt = some (w.now + getBits v 14 0 * msQ)) := by
  have hopen : (w.setWord .pwr 0x10 v).b R.PWR_TOK_STAT_OPEN = w.b R.PWR_TOK_STAT_OPEN := by
    unfold State.b State.f
    rw [show R.PWR_TOK_STAT_OPEN.blk = Blk.pwr from rfl, word_setWord_key _ _ _ (by decide)]
  have hword : ((w.setWord .pwr 0x10 v).setF R.PWR_TOK_STAT_LEVEL 0).word .pwr 0x10 = v := by
    rw [word_setF_other _ _ _ _ _ (.inr (by decide)), word_setWord_same]
  have hlevel : ((w.setWord .pwr 0x10 v).setF R.PWR_TOK_STAT_LEVEL 0).f R.PWR_TOK_STAT_LEVEL = 0 := f_setF_fits _ _ _ _ (by decide) (by decide)
  unfold State.bucketEmptied
  rw [hopen]
  cases w.b R.PWR_TOK_STAT_OPEN with
  | false => exact ⟨hword, hlevel, fun h => nomatch h⟩
  | true =>
    rw [State.doIf_true, word_upd_pwr, f_upd_pwr]
    refine ⟨hword, hlevel, fun _ => ?_⟩
    dsimp only
    rw [State.setF_now, State.setWord_now]
    unfold State.refillQ State.f
    rw [show R.PWR_TOK_CFG_REFILL.blk = Blk.pwr from rfl, show R.PWR_TOK_CFG_REFILL.key 0 0 = 0x10 from rfl, hword]
    rfl

end Commands

/-! ## The clauses of the statement -/

section Request
variable {u : State} {r : Nat} (hnew : ∀ y ∈ u.pwr.tokens, y.2 ≠ r)
include hnew

theorem tokenRequest_waits (hen : u.b R.PWR_TOK_CFG_EN = true) (hopen : u.b R.PWR_TOK_STAT_OPEN = false) :
    ∃ a b, u.pwr.tokens = a ++ b ∧ (u.tokenRequest r).pwr.tokens = a ++ (u.pwmTime, r) :: b
      ∧ (∀ y ∈ a, y.1 < u.pwmTime ∨ y.1 = u.pwmTime ∧ y.2 ≤ r)
      ∧ (∀ y, b.head? = some y → u.pwmTime < y.1 ∨ u.pwmTime = y.1 ∧ r < y.2)
      ∧ (u.tokenRequest r).f R.PWR_TOK_STAT_PENDING = (u.pwr.tokens.length + 1) % 1024 := by
  obtain ⟨hen', hopen', -, htok⟩ := setTokens_b u (putToken (u.pwmTime, r) u.pwr.tokens)
  obtain ⟨a, b, hab, hput, ha, hb⟩ := putToken_splits (u.pwmTime, r) u.pwr.tokens
  rw [tokenRequest_new hnew, grantDue_shut _ (hen'.trans hen) (hopen'.trans hopen), pending_setTokens, length_putToken, htok]
  exact ⟨a, b, hab, hput, ha, hb, rfl⟩

theorem tokenRequest_free (hen : u.b R.PWR_TOK_CFG_EN = false) (hnone : u.pwr.tokens = []) :
    u.tokenRequest r = ((u.setTokens [(u.pwmTime, r)]).setTokens []).grant r := by
  obtain ⟨hen', -, -, htok⟩ := setTokens_b u [(u.pwmTime, r)]
  rw [tokenRequest_new hnew, hnone]
  exact grantDue_single_free htok (hen'.trans hen)

theorem tokenRequest_paid (hen : u.b R.PWR_TOK_CFG_EN = true) (hopen : u.b R.PWR_TOK_STAT_OPEN = true) (hnone : u.pwr.tokens = [])
    (hl : u.tokenCost r ≤ u.f R.PWR_TOK_STAT_LEVEL) (hroom : u.room) :
    (u.tokenRequest r).pwr.tokens = [] ∧ (u.tokenRequest r).f R.PWR_TOK_STAT_LEVEL = u.f R.PWR_TOK_STAT_LEVEL - u.tokenCost r
      ∧ Posts u (u.tokenRequest r) E.TOKEN_GRANTED (subject r) := by
  obtain ⟨hen', hopen', -, htok⟩ := setTokens_b u [(u.pwmTime, r)]
  have hlevel : (u.setTokens [(u.pwmTime, r)]).f R.PWR_TOK_STAT_LEVEL = u.f R.PWR_TOK_STAT_LEVEL := f_setTokens _ _ (.inr (.inr (by decide)))
  have hcost : (u.setTokens [(u.pwmTime, r)]).tokenCost r = u.tokenCost r :=
    tokenCost_of_f (f_setTokens _ _ (.inr (.inl (by decide)))) (f_setTokens _ _ (.inr (.inl (by decide)))) r
  rw [tokenRequest_new hnew, hnone]
  show (State.grantDue (u.setTokens [(u.pwmTime, r)])).pwr.tokens = [] ∧ _
  have hl' : (u.setTokens [(u.pwmTime, r)]).tokenCost r ≤ (u.setTokens [(u.pwmTime, r)]).f R.PWR_TOK_STAT_LEVEL := by rw [hlevel, hcost]; exact hl
  obtain ⟨hnil, hpaid⟩ := paid_facts htok (hen'.trans hen) (hopen'.trans hopen) hl'
  rw [hlevel, hcost] at hpaid
  exact ⟨hnil, hpaid, paid_posts htok (hen'.trans hen) (hopen'.trans hopen) hl' tch_setTokens hroom⟩

end Request

theorem tokenWithdraw_gone {u : State} {r : Nat} (h : ∃ y ∈ u.pwr.tokens, y.2 = r) (hen : u.b R.PWR_TOK_CFG_EN = true)
    (hopen : u.b R.PWR_TOK_STAT_OPEN = false) (hroom : u.room) :
    (u.tokenWithdraw r).pwr.tokens = u.pwr.tokens.filter (fun y => y.2 != r) ∧ Reports u (u.tokenWithdraw r) E.TOKEN_WITHDRAWN (subject r) := by
  obtain ⟨hen', hopen', -, htok⟩ := setTokens_b u (u.pwr.tokens.filter (·.2 != r))
  rw [tokenWithdraw_waiting h, grantDue_shut]
  · exact ⟨by rw [State.post_pwr, htok], tch_setTokens.reports (by decide) (by decide) hroom ..⟩
  · rw [b_post _ _ _ _ _ _ _ _ (by decide), hen', hen]
  · rw [b_post _ _ _ _ _ _ _ _ (by decide), hopen', hopen]

/-- Settles O58: a request by what the bucket makes of it, a refill by the head, a new configuration by EN before and after it. -/
theorem startTokensAreGrantedInOrder : Obligations.StartTokensAreGrantedInOrder := by
  unfold Obligations.StartTokensAreGrantedInOrder
  rintro s u t rfl hs
  refine ⟨?request, ?withdraw, ?refill, ?config⟩
  case request =>
    rintro req x r rfl hnew hwho
    have hexec := exec_tokenRequest hs hwho
    refine ⟨fun hen hopen => ⟨_, hexec, tokenRequest_waits hnew hen hopen⟩, fun hen hnone hroom hr => ⟨_, hexec, ?_⟩,
      fun hen hopen hnone hl hroom => ⟨_, hexec, tokenRequest_paid hnew hen hopen hnone hl hroom⟩⟩
    rw [tokenRequest_free hnew hen hnone]
    have htouch : Touches 540672 (s.start t) (((s.start t).setTokens [((s.start t).pwmTime, (s.start t).requester req)]).setTokens []) :=
      tch_setTokens.comp (by decide) tch_setTokens
    obtain ⟨hnil, hlast, hgrants⟩ := granted_facts (s := s.start t) hr (setTokens_b _ []).2.2.2
      ((f_setTokens _ _ (.inr (.inr (by decide)))).trans (f_setTokens (s.start t) [((s.start t).pwmTime, (s.start t).requester req)] (.inr (.inr (by decide)))))
    refine ⟨hnil, hlast, hgrants, grant_posts _ htouch (by decide) (by decide) hroom (by decide), fun hreq hx hT => ?_⟩
    have hself : (s.start t).requester req = 512 + x := by
      unfold State.requester
      rw [if_neg (by omega), hreq]
    rw [hself]
    exact grant_bridge _ hx (by rw [(tch_setTokens.comp (by decide) tch_setTokens : Touches 540672 (s.start t) _).f _ _ _ (by decide)]; exact hT)
  case withdraw =>
    intro req hin hen hopen hroom
    exact ⟨_, exec_tokenWithdraw req hs, tokenWithdraw_gone hin hen hopen hroom⟩
  case refill =>
    intro r hr hnow hopen hen level
    have hexec := exec_tokenRefill hr hnow hopen
    have hlevel := level_refilled (s.start t) r
    have hpwr := refilled_pwr (s.start t) r
    have hen' : ((s.start t).refilled r).b R.PWR_TOK_CFG_EN = true := (b_of_f (f_refilled _ _ (.inr (.inl (by decide))))).trans hen
    have hopen' : ((s.start t).refilled r).b R.PWR_TOK_STAT_OPEN = true := (b_of_f (f_refilled _ _ (.inr (.inr (by decide))))).trans hopen
    have hcost (g : Nat) : ((s.start t).refilled r).tokenCost g = (s.start t).tokenCost g :=
      tokenCost_of_f (f_refilled _ _ (.inr (.inl (by decide)))) (f_refilled _ _ (.inr (.inl (by decide)))) g
    refine ⟨fun hnone => ⟨_, hexec, ?_⟩, fun tick g hone hpays hroom => ⟨_, hexec, ?_⟩, fun tick g q hq hshort => ⟨_, hexec, ?_⟩⟩
    · rw [grantDue_nil (by rw [hpwr]; exact hnone)]
      exact ⟨hlevel, (tch_refilled _ _).sysSame (by decide), hpwr⟩
    · have hone' : ((s.start t).refilled r).pwr.tokens = [(tick, g)] := by rw [hpwr]; exact hone
      have hpays' : ((s.start t).refilled r).tokenCost g ≤ ((s.start t).refilled r).f R.PWR_TOK_STAT_LEVEL := by rw [hcost, hlevel]; exact hpays
      obtain ⟨hnil, hpaid⟩ := paid_facts hone' hen' hopen' hpays'
      rw [hcost, hlevel] at hpaid
      exact ⟨hpaid, hnil, paid_posts hone' hen' hopen' hpays' (tch_refilled _ _) hroom⟩
    · rw [grantDue_holds (by rw [hpwr]; exact hq) hen' (by rw [hcost, hlevel]; exact hshort)]
      exact ⟨hlevel, by rw [hpwr], (tch_refilled _ _).sysSame (by decide)⟩
  case config =>
    intro w fn data v h fs hw hv bad
    have hexec := exec_pwrTokCfg hw hv
    refine ⟨fun hbad => ⟨_, hexec, tokCfg_refused fn ((tokCfgBad_iff v).mpr hbad)⟩, fun hgood => ⟨_, hexec, ?_⟩⟩
    rw [tokCfg_set fn (Bool.eq_false_iff.mpr fun h => hgood ((tokCfgBad_iff v).mp h))]
    have hset : (w.setWord .pwr 0x10 v).word .pwr 0x10 = v := word_setWord_same ..
    cases hen : w.b R.PWR_TOK_CFG_EN with
    | true =>
      cases h31 : v.getLsbD 31 with
      | true => exact ⟨hset, by simp, by simp⟩
      | false =>
        have hdrain := grantDue_drains (s := w.setWord .pwr 0x10 v) (by rw [tokEn_iff, hset, h31])
        exact ⟨(word_grantDue _).trans hset, fun _ _ hlen => hdrain hlen, by simp⟩
    | false =>
      cases h31 : v.getLsbD 31 with
      | true =>
        obtain ⟨hword, hlevel, hrefill⟩ := bucketEmptied_facts w v
        exact ⟨hword, by simp, fun _ _ => ⟨hlevel, hrefill⟩⟩
      | false => exact ⟨hset, by simp, by simp⟩

end Sys2Proof.Machine
end

section
/-! PROOFS. O57. Clocks: references, holdover, relock, hops, SYNC_IN and pod clocks (R449, R454 to R456, R458, R460). -/
namespace Sys2Proof.Machine

/-! ## PLLs -/

theorem f_setPll (s : State) (p : Nat) (x : PllSt) (r : FRef) (i j : Nat) : (s.setPll p x).f r i j = s.f r i j := rfl

theorem b_setPll (s : State) (p : Nat) (x : PllSt) (r : FRef) (i j : Nat) : (s.setPll p x).b r i j = s.b r i j := rfl

theorem pll_setPll_same (s : State) (p : Nat) (x : PllSt) : (s.setPll p x).pll p = x := kget_kset_same ..

theorem pll_setPll_other (s : State) {p q : Nat} (x : PllSt) (h : p ≠ q) : (s.setPll q x).pll p = s.pll p := kget_kset_other _ _ _ h

theorem pll_of_clk {s u : State} (h : u.clk = s.clk) (p : Nat) : u.pll p = s.pll p := by
  unfold State.pll
  rw [h]

theorem refOk_lost_setPll (s : State) (p : Nat) (x : PllSt) : (s.setPll p x).clk.lost = s.clk.lost := rfl

theorem refOkF_apart (ref : Nat) {r : FRef} {i j : Nat} (hk : r.key i j ≠ 4) : ∀ i' j', (refOkF ref).key i' j' = 4 ∧ r.key i j ≠ (refOkF ref).key i' j' := by
  intro i' j'
  have : (refOkF ref).key i' j' = 4 := by
    unfold refOkF
    split <;> simp [FRef.key, R.CLK_STAT_REFCLK_OK, R.CLK_STAT_XTAL_OK]
  exact ⟨this, by rw [this]; exact hk⟩

/-- The reference of a PLL is qualified or not as before when only other registers change. -/
theorem refOk_setF (s : State) (ref : Nat) (r : FRef) (v i j : Nat) (hk : r.key i j ≠ 4) : (s.setF r v i j).refOk ref = s.refOk ref :=
  b_setF_key _ _ (by rw [(refOkF_apart ref hk 0 0).1]; exact hk.symm)

theorem refOk_setB (s : State) (ref : Nat) (r : FRef) (v : Bool) (i j : Nat) (hk : r.key i j ≠ 4) : (s.setB r v i j).refOk ref = s.refOk ref :=
  refOk_setF s ref r _ i j hk

theorem refOkF_blk (ref : Nat) : (refOkF ref).blk = .clk := by
  unfold refOkF
  split <;> rfl

theorem refOk_post (s : State) (ref : Nat) (e : Ev) (a : Nat) (w0 w1 : Word) : (s.post e a w0 w1).refOk ref = s.refOk ref :=
  b_post _ _ _ _ _ _ _ _ (by rw [refOkF_blk]; decide)

theorem tch_setB_refOkF (s : State) (ref : Nat) (v : Bool) : Touches 4096 s (s.setB (refOkF ref) v) := by
  have h : Touches (2 ^ (refOkF ref).blk.num) s (s.setB (refOkF ref) v) := tch_setB
  rw [refOkF_blk] at h
  exact h

theorem refOk_set (s : State) (ref : Nat) (v : Bool) : (s.setB (refOkF ref) v).refOk ref = v :=
  b_setB_same _ _ _ _ _ (by unfold refOkF; split <;> decide)

/-- Registers of PLLs other than `p` and `q`'s own do not share a word. -/
theorem pllKey_ne {p q : Nat} (hp : p < 3) (hq : q < 3) (h : p ≠ q) :
    R.CLK_PLL_STAT_STATE.key p 0 ≠ R.CLK_PLL_STAT_STATE.key q 0 ∧ R.CLK_PLL_STAT_STATE.key p 0 ≠ R.CLK_PLL_CNT_HOLDOVERS.key q 0
      ∧ R.CLK_PLL_CNT_HOLDOVERS.key p 0 ≠ R.CLK_PLL_STAT_STATE.key q 0 ∧ R.CLK_PLL_CNT_HOLDOVERS.key p 0 ≠ R.CLK_PLL_CNT_HOLDOVERS.key q 0 :=
  (by decide : ∀ p < 3, ∀ q < 3, p ≠ q → R.CLK_PLL_STAT_STATE.key p 0 ≠ R.CLK_PLL_STAT_STATE.key q 0
    ∧ R.CLK_PLL_STAT_STATE.key p 0 ≠ R.CLK_PLL_CNT_HOLDOVERS.key q 0 ∧ R.CLK_PLL_CNT_HOLDOVERS.key p 0 ≠ R.CLK_PLL_STAT_STATE.key q 0
    ∧ R.CLK_PLL_CNT_HOLDOVERS.key p 0 ≠ R.CLK_PLL_CNT_HOLDOVERS.key q 0) p hp q hq h

theorem pllStat_ne_cnt {p : Nat} (hp : p < 3) : R.CLK_PLL_STAT_STATE.key p 0 ≠ R.CLK_PLL_CNT_HOLDOVERS.key p 0 :=
  (by decide : ∀ p < 3, R.CLK_PLL_STAT_STATE.key p 0 ≠ R.CLK_PLL_CNT_HOLDOVERS.key p 0) p hp

theorem pllStat_ne_stat {p : Nat} (hp : p < 3) : R.CLK_PLL_STAT_STATE.key p 0 ≠ 4 :=
  (by decide : ∀ p < 3, R.CLK_PLL_STAT_STATE.key p 0 ≠ 4) p hp

/-- What a step of CLK sees and changes of one PLL. -/
def State.pllView (s : State) (p : Nat) : Nat × PllSt × Bool × Nat × Instant :=
  (s.pllState p, s.pll p, s.b R.CLK_PLL_STAT_HOLD_SEEN p, s.f R.CLK_PLL_CNT_HOLDOVERS p, s.now)

theorem pllView_iff {s u : State} {p : Nat} : u.pllView p = s.pllView p ↔ u.pllState p = s.pllState p ∧ u.pll p = s.pll p
    ∧ u.b R.CLK_PLL_STAT_HOLD_SEEN p = s.b R.CLK_PLL_STAT_HOLD_SEEN p ∧ u.f R.CLK_PLL_CNT_HOLDOVERS p = s.f R.CLK_PLL_CNT_HOLDOVERS p ∧ u.now = s.now := by
  unfold State.pllView
  simp only [Prod.mk.injEq]

/-- A register that holds nothing of the view of `p`. -/
theorem pllView_setF (s : State) {r : FRef} {v i j p : Nat} (hs : R.CLK_PLL_STAT_STATE.key p 0 ≠ r.key i j)
    (hc : R.CLK_PLL_CNT_HOLDOVERS.key p 0 ≠ r.key i j) : (s.setF r v i j).pllView p = s.pllView p :=
  pllView_iff.mpr ⟨f_setF_key _ _ hs, rfl, b_setF_key _ _ hs, f_setF_key _ _ hc, rfl⟩

theorem pllView_setPll (s : State) {p q : Nat} (x : PllSt) (h : p ≠ q) : (s.setPll q x).pllView p = s.pllView p :=
  pllView_iff.mpr ⟨rfl, pll_setPll_other s x h, rfl, rfl, rfl⟩

theorem pllView_post (s : State) (p : Nat) (e : Ev) (a : Nat) (w0 w1 : Word) : (s.post e a w0 w1).pllView p = s.pllView p :=
  pllView_iff.mpr ⟨f_post _ _ _ _ _ _ _ _ (by decide), pll_of_clk (State.post_clk ..) p, b_post _ _ _ _ _ _ _ _ (by decide),
    f_post _ _ _ _ _ _ _ _ (by decide), State.post_now ..⟩

/-- HOLDOVER as a PLL shows, counts and reports it. -/
def State.holdShown (s : State) (p : Nat) : State :=
  (((s.setF R.CLK_PLL_STAT_STATE pllHold p).setB R.CLK_PLL_STAT_HOLD_SEEN true p).incF R.CLK_PLL_CNT_HOLDOVERS 1 p).post E.PLL_HOLDOVER (subject p)

theorem enterHold_eq (s : State) (p : Nat) : s.enterHold p = (s.holdShown p).setPll p { (s.holdShown p).pll p with holdAt := (s.holdShown p).now } := rfl

theorem pll_setF (s : State) (r : FRef) (v i j p : Nat) : (s.setF r v i j).pll p = s.pll p := pll_of_clk (State.setF_clk ..) p

theorem refOk_setPll (s : State) (p : Nat) (x : PllSt) (ref : Nat) : (s.setPll p x).refOk ref = s.refOk ref := rfl

section OnePll
variable {p : Nat} (hp : p < 3)
include hp

theorem enterHold_shows (s : State) : (s.enterHold p).pllState p = pllHold ∧ (s.enterHold p).b R.CLK_PLL_STAT_HOLD_SEEN p = true
    ∧ (s.enterHold p).f R.CLK_PLL_CNT_HOLDOVERS p = min (s.f R.CLK_PLL_CNT_HOLDOVERS p + 1) (2 ^ 16 - 1)
    ∧ ((s.enterHold p).pll p).holdAt = s.now := by
  have hkey := pllStat_ne_cnt hp
  rw [enterHold_eq]
  unfold State.pllState
  rw [f_setPll, b_setPll, f_setPll, pll_setPll_same]
  dsimp only
  unfold State.holdShown
  rw [f_post _ _ _ _ _ _ _ _ (by decide), b_post _ _ _ _ _ _ _ _ (by decide), f_post _ _ _ _ _ _ _ _ (by decide),
    f_incF_same _ _ _ _ _ (by decide), f_setB_key (r := R.CLK_PLL_STAT_HOLD_SEEN) _ _ hkey.symm, f_setF_key _ _ hkey.symm, State.post_now,
    State.incF_now, State.setB_now, State.setF_now]
  unfold State.incF
  rw [f_setF_key _ _ hkey, b_setF_key (q := R.CLK_PLL_STAT_HOLD_SEEN) _ _ hkey, b_setB_same _ _ _ _ _ (by decide),
    f_setB_bits _ _ _ _ _ _ (by decide), f_setF_fits _ _ _ _ (by decide) (by decide)]
  exact ⟨rfl, rfl, rfl, rfl⟩

theorem enterHold_other (s : State) {q : Nat} (hq : q < 3) (h : p ≠ q) : (s.enterHold q).pllView p = s.pllView p := by
  obtain ⟨hss, hsc, hcs, hcc⟩ := pllKey_ne hp hq h
  rw [enterHold_eq, pllView_setPll _ _ h]
  unfold State.holdShown State.incF State.setB
  rw [pllView_post, pllView_setF _ hsc hcc, pllView_setF (r := R.CLK_PLL_STAT_HOLD_SEEN) _ hss hcs, pllView_setF _ hss hcs]

theorem enterHold_refOk (s : State) (ref : Nat) : (s.enterHold p).refOk ref = s.refOk ref := by
  rw [enterHold_eq, refOk_setPll]
  unfold State.holdShown State.incF
  rw [refOk_post, refOk_setF, refOk_setB, refOk_setF]
  · exact pllStat_ne_stat hp
  · exact pllStat_ne_stat hp
  · exact (by decide : ∀ p < 3, R.CLK_PLL_CNT_HOLDOVERS.key p 0 ≠ 4) p hp

theorem enterRelock_shows (s : State) : (s.enterRelock p).pllState p = pllRelock ∧ (s.enterRelock p).pll p = { s.pll p with relockAt := s.now }
    ∧ (s.enterRelock p).b R.CLK_PLL_STAT_LOCK_LOST_SEEN p = s.b R.CLK_PLL_STAT_LOCK_LOST_SEEN p
    ∧ (s.enterRelock p).f R.CLK_PLL_CNT_HOLDOVERS p = s.f R.CLK_PLL_CNT_HOLDOVERS p := by
  unfold State.enterRelock State.pllState
  rw [f_setPll, b_setPll, f_setPll, f_setF_fits _ _ _ _ (by decide) (by decide), b_setF_bits _ _ _ _ _ _ (by decide),
    f_setF_key _ _ (pllStat_ne_cnt hp).symm, pll_setPll_same]
  exact ⟨rfl, rfl, rfl, rfl⟩

theorem enterRelock_other (s : State) {q : Nat} (hq : q < 3) (h : p ≠ q) : (s.enterRelock q).pllView p = s.pllView p := by
  obtain ⟨hss, -, hcs, -⟩ := pllKey_ne hp hq h
  unfold State.enterRelock
  rw [pllView_setPll _ _ h, pllView_setF _ hss hcs]

theorem enterRelock_refOk (s : State) (ref : Nat) : (s.enterRelock p).refOk ref = s.refOk ref := by
  unfold State.enterRelock
  rw [refOk_setPll, refOk_setF _ _ _ _ _ _ (pllStat_ne_stat hp)]

end OnePll

theorem enterHold_lost (s : State) (p : Nat) : (s.enterHold p).clk.lost = s.clk.lost := by
  rw [enterHold_eq, refOk_lost_setPll]
  unfold State.holdShown
  rw [State.post_clk, State.incF_clk, State.setB_clk, State.setF_clk]

theorem enterRelock_lost (s : State) (p : Nat) : (s.enterRelock p).clk.lost = s.clk.lost := by
  unfold State.enterRelock
  rw [refOk_lost_setPll, State.setF_clk]

/-- A step over the three PLLs that changes one PLL at a time gives each what its own turn gives it. -/
theorem pllView_foldl {g : State → Nat → State} (other : ∀ s p q, p < 3 → q < 3 → p ≠ q → (g s q).pllView p = s.pllView p) (s : State) {p : Nat}
    (hp : p < 3) : ∃ v, v.pllView p = s.pllView p ∧ ([0, 1, 2].foldl g s).pllView p = (g v p).pllView p := by
  have ho := fun s q hq hne => other s p q hp hq hne
  match p, hp with
  | 0, hp => exact ⟨s, rfl, by simp only [List.foldl]; rw [ho _ 2 (by decide) (by decide), ho _ 1 (by decide) (by decide)]⟩
  | 1, hp => exact ⟨g s 0, ho _ 0 (by decide) (by decide), by simp only [List.foldl]; rw [ho _ 2 (by decide) (by decide)]⟩
  | 2, hp => exact ⟨g (g s 0) 1, by rw [ho _ 1 (by decide) (by decide), ho _ 0 (by decide) (by decide)], rfl⟩

/-- A property that each of the three turns keeps. -/
theorem foldl_three {P : State → Prop} {g : State → Nat → State} (step : ∀ s p, p < 3 → P s → P (g s p)) {s : State} (h : P s) :
    P ([0, 1, 2].foldl g s) := step _ 2 (by decide) (step _ 1 (by decide) (step _ 0 (by decide) h))

/-! ## References lost and qualified -/

section Refs
variable {s u : State} {t : Instant}

theorem refWindowOk_false {ref gap edges n : Nat} (hn : n = if ref = 0 then 10000 else 2500) (h : 1000 < gap ∨ 10 * edges < 9 * n ∨ 11 * n < 10 * edges) :
    refWindowOk ref gap edges = false := by
  unfold refWindowOk
  rw [← hn]
  simp
  omega

/-- A reference is lost: its bit and its event, then its record. -/
def State.refGoneShown (s : State) (ref : Nat) : State := (s.setB (refOkF ref) false).post E.REF_LOST (subject ref)

def State.refGone (s : State) (ref : Nat) : State :=
  { s.refGoneShown ref with clk := { (s.refGoneShown ref).clk with
      lost := putBit (s.refGoneShown ref).clk.lost ref true, lostAt := kset 0 (s.refGoneShown ref).clk.lostAt ref (s.refGoneShown ref).now } }

/-- The PLLs that follow a lost reference enter HOLDOVER. -/
def State.holdFollowers (s : State) (ref : Nat) : State :=
  [0, 1, 2].foldl (fun s p => s.doIf (s.pllFollows p && (s.pll p).ref == ref) (·.enterHold p)) s

theorem exec_refLost {ref gap edges n : Nat} (hr : (s.start t).inReset = false) (href : ref < 2) (hok : (s.start t).refOk ref = true)
    (hn : n = if ref = 0 then 10000 else 2500) (h : 1000 < gap ∨ 10 * edges < 9 * n ∨ 11 * n < 10 * edges) :
    exec (.refLost t ref gap edges) s = .next (((s.start t).refGone ref).holdFollowers ref) := by
  refine congrArg Host.Outcome.next (State.doIf_of ?_)
  rw [hr, hok, refWindowOk_false hn h]
  simp [href]

theorem pllFollows_iff (s : State) (p : Nat) : s.pllFollows p = true ↔ s.pllState p = 1 ∨ s.pllState p = 3 := by
  unfold State.pllFollows
  simp

theorem refGone_view (s : State) (ref : Nat) {p : Nat} (hp : p < 3) : (s.refGone ref).pllView p = s.pllView p := by
  have hk := (refOkF_apart ref (pllStat_ne_stat hp) 0 0).2
  have hkc := (refOkF_apart ref ((by decide : ∀ p < 3, R.CLK_PLL_CNT_HOLDOVERS.key p 0 ≠ 4) p hp) 0 0).2
  have hview : (s.refGoneShown ref).pllView p = s.pllView p := by
    unfold State.refGoneShown State.setB
    rw [pllView_post, pllView_setF _ hk hkc]
  exact (pllView_iff.mpr ⟨rfl, rfl, rfl, rfl, rfl⟩ : (s.refGone ref).pllView p = (s.refGoneShown ref).pllView p).trans hview

/-- What the loss of its reference does to a PLL. -/
theorem holdFollowers_pll (s : State) (ref : Nat) {p : Nat} (hp : p < 3) :
    if (s.pllState p = 1 ∨ s.pllState p = 3) ∧ (s.pll p).ref = ref then
      (s.holdFollowers ref).pllState p = 2 ∧ (s.holdFollowers ref).b R.CLK_PLL_STAT_HOLD_SEEN p = true
        ∧ ((s.holdFollowers ref).pll p).holdAt = s.now
        ∧ (s.holdFollowers ref).f R.CLK_PLL_CNT_HOLDOVERS p = min (s.f R.CLK_PLL_CNT_HOLDOVERS p + 1) (2 ^ 16 - 1)
    else (s.holdFollowers ref).pllState p = s.pllState p ∧ (s.holdFollowers ref).pll p = s.pll p := by
  obtain ⟨v, hv, hfold⟩ := pllView_foldl (g := fun s p => s.doIf (s.pllFollows p && (s.pll p).ref == ref) (·.enterHold p))
    (fun s p q hp hq hne => eq_doIf (State.pllView · p) (enterHold_other hp s hq hne)) s hp
  obtain ⟨hst, hpll, hseen, hcnt, hnow⟩ := pllView_iff.mp hfold
  obtain ⟨vst, vpll, vseen, vcnt, vnow⟩ := pllView_iff.mp hv
  have hfollows := pllFollows_iff v p
  change (s.holdFollowers ref).pllState p = _ at hst
  change (s.holdFollowers ref).pll p = _ at hpll
  change (s.holdFollowers ref).b _ p = _ at hseen
  change (s.holdFollowers ref).f _ p = _ at hcnt
  rw [hst, hpll, hseen, hcnt]
  rw [vst] at hfollows
  by_cases h : (s.pllState p = 1 ∨ s.pllState p = 3) ∧ (s.pll p).ref = ref
  · rw [if_pos h, State.doIf_of (by rw [hfollows.mpr h.1, vpll, h.2]; simp)]
    obtain ⟨h1, h2, h3, h4⟩ := enterHold_shows hp v
    exact ⟨h1, h2, h4.trans vnow, h3.trans (by rw [vcnt])⟩
  · rw [if_neg h, State.doIf_not, vst, vpll]
    · exact ⟨rfl, rfl⟩
    · rw [vpll, Bool.eq_false_iff]
      intro ht
      rw [Bool.and_eq_true, beq_iff_eq] at ht
      exact h ⟨hfollows.mp ht.1, ht.2⟩

theorem holdFollowers_keeps (s : State) (ref r : Nat) : (s.holdFollowers ref).refOk r = s.refOk r ∧ (s.holdFollowers ref).clk.lost = s.clk.lost
    ∧ QExt s (s.holdFollowers ref) := by
  refine foldl_three (P := fun v => v.refOk r = s.refOk r ∧ v.clk.lost = s.clk.lost ∧ QExt s v) (fun v p hp hv => ?_) ⟨rfl, rfl, QExt.refl s⟩
  obtain ⟨hok, hlost, hq⟩ := hv
  cases v.pllFollows p && (v.pll p).ref == ref with
  | false => exact ⟨hok, hlost, hq⟩
  | true =>
    rw [State.doIf_true, enterHold_refOk hp, enterHold_lost]
    exact ⟨hok, hlost, hq.trans tch_enterHold.q⟩

theorem refOk_upd_clk (s : State) (x : ClkSt) (ref : Nat) : State.refOk { s with clk := x } ref = s.refOk ref := rfl

theorem refGone_shows (s : State) (ref : Nat) (hroom : s.room) : (s.refGone ref).refOk ref = false ∧ (s.refGone ref).clk.lost.testBit ref = true
    ∧ Reports s (s.refGone ref) E.REF_LOST (subject ref) := by
  have hok : (s.refGoneShown ref).refOk ref = false := by
    unfold State.refGoneShown
    rw [refOk_post, refOk_set]
  have hrep : Reports s (s.refGoneShown ref) E.REF_LOST (subject ref) := by
    unfold State.refGoneShown
    exact (tch_setB_refOkF s ref false).reports (by decide) (by decide) hroom ..
  unfold State.refGone
  generalize s.refGoneShown ref = v at *
  rw [refOk_upd_clk]
  dsimp only
  rw [testBit_put, if_pos rfl]
  obtain ⟨q, hq, hevt⟩ := hrep
  exact ⟨hok, rfl, q, hq, hevt⟩

/-- A reference qualifies again: its bit, its event after a loss, its record. -/
def State.refShown (s : State) (ref : Nat) (lost : Bool) : State := (s.setB (refOkF ref) true).doIf lost (·.post E.REF_QUALIFIED (subject ref))

def State.refGot (s : State) (ref : Nat) (lost : Bool) : State :=
  { s.refShown ref lost with clk := { (s.refShown ref lost).clk with lost := putBit (s.refShown ref lost).clk.lost ref false } }

/-- The PLLs come back to a reference. -/
def State.refsBack (s : State) (ref : Nat) : State := [0, 1, 2].foldl (fun s p => s.refBack p ref) s

/-- The boot takes its reference. -/
def State.bootGoesOn (s : State) (ref : Nat) : State :=
  if s.b R.CLK_STAT_NOREF && s.f R.CLK_STAT_STRAP == ref then
    match s.pwr.waiting with
    | some b => s.bootClocks.bootOn b
    | none => s.bootClocks
  else s

theorem exec_refQualified {ref : Nat} {since : Instant} {lost : Bool} (hr : (s.start t).inReset = false) (href : ref < 2)
    (hno : (s.start t).refOk ref = false) (hl : (s.start t).clk.lost.testBit ref = lost)
    (hwait : since + (if lost then 10 * msQ else 100 * usQ) ≤ (s.start t).now) (hat : lost = true → kget 0 (s.start t).clk.lostAt ref ≤ since) :
    exec (.refQualified t ref since) s =
      .next ((((s.start t).refGot ref lost).bootGoesOn ref).doIf lost (·.refsBack ref)) := by
  subst hl
  refine congrArg Host.Outcome.next (State.doIf_of ?_)
  rw [hr, hno]
  simp only [href, hwait, Bool.not_false, Bool.true_and, decide_true, Bool.or_eq_true, Bool.not_eq_true', decide_eq_true_eq]
  cases h : (s.start t).clk.lost.testBit ref with
  | false => exact .inl rfl
  | true => exact .inr (hat h)

theorem refShown_view (s : State) (ref : Nat) (lost : Bool) {p : Nat} (hp : p < 3) : (s.refShown ref lost).pllView p = s.pllView p := by
  have hk := (refOkF_apart ref (pllStat_ne_stat hp) 0 0).2
  have hkc := (refOkF_apart ref ((by decide : ∀ p < 3, R.CLK_PLL_CNT_HOLDOVERS.key p 0 ≠ 4) p hp) 0 0).2
  unfold State.refShown State.setB
  cases lost with
  | false => exact pllView_setF _ hk hkc
  | true => rw [State.doIf_true, pllView_post, pllView_setF _ hk hkc]

theorem refGot_view (s : State) (ref : Nat) (lost : Bool) {p : Nat} (hp : p < 3) : (s.refGot ref lost).pllView p = s.pllView p :=
  (pllView_iff.mpr ⟨rfl, rfl, rfl, rfl, rfl⟩ : (s.refGot ref lost).pllView p = (s.refShown ref lost).pllView p).trans (refShown_view s ref lost hp)

theorem refGot_b (s : State) (ref : Nat) (lost : Bool) : (s.refGot ref lost).refOk ref = true ∧ (s.refGot ref lost).clk.lost.testBit ref = false
    ∧ (s.refGot ref lost).b R.CLK_STAT_NOREF = s.b R.CLK_STAT_NOREF ∧ (s.refGot ref lost).f R.CLK_STAT_STRAP = s.f R.CLK_STAT_STRAP := by
  have hshown : (s.refShown ref lost).refOk ref = true ∧ (s.refShown ref lost).b R.CLK_STAT_NOREF = s.b R.CLK_STAT_NOREF
      ∧ (s.refShown ref lost).f R.CLK_STAT_STRAP = s.f R.CLK_STAT_STRAP := by
    have hset : (s.setB (refOkF ref) true).b R.CLK_STAT_NOREF = s.b R.CLK_STAT_NOREF
        ∧ (s.setB (refOkF ref) true).f R.CLK_STAT_STRAP = s.f R.CLK_STAT_STRAP := by
      unfold refOkF
      split <;> exact ⟨b_setB_bits _ _ _ _ _ _ (by decide), f_setB_bits _ _ _ _ _ _ (by decide)⟩
    unfold State.refShown
    cases lost with
    | false => exact ⟨refOk_set .., hset⟩
    | true =>
      rw [State.doIf_true, refOk_post, refOk_set, b_post _ _ _ _ _ _ _ _ (by decide), f_post _ _ _ _ _ _ _ _ (by decide)]
      exact ⟨rfl, hset⟩
  obtain ⟨hok, hnoref, hstrap⟩ := hshown
  unfold State.refGot
  generalize s.refShown ref lost = v at *
  rw [refOk_upd_clk, b_upd_clk, f_upd_clk]
  dsimp only
  rw [testBit_put, if_pos rfl]
  exact ⟨hok, rfl, hnoref, hstrap⟩

theorem refGot_reports (s : State) (ref : Nat) (hroom : s.room) : Reports s (s.refGot ref true) E.REF_QUALIFIED (subject ref) := by
  have hrep : Reports s (s.refShown ref true) E.REF_QUALIFIED (subject ref) := by
    unfold State.refShown
    rw [State.doIf_true]
    exact (tch_setB_refOkF s ref true).reports (by decide) (by decide) hroom ..
  obtain ⟨q, hq, hevt⟩ := hrep
  exact ⟨q, hq, hevt⟩

theorem bootGoesOn_not {v : State} {ref : Nat} (h : v.b R.CLK_STAT_NOREF = false) : v.bootGoesOn ref = v := by
  unfold State.bootGoesOn
  rw [h]
  rfl

theorem bootGoesOn_clocks {v : State} {ref : Nat} (h : v.b R.CLK_STAT_NOREF = true) (hstrap : v.f R.CLK_STAT_STRAP = ref) (hwait : v.pwr.waiting = none) :
    v.bootGoesOn ref = v.bootClocks := by
  unfold State.bootGoesOn
  rw [h, hstrap, hwait]
  simp

/-- A hop begins from HOLDOVER; it changes nothing of another PLL. -/
theorem beginHop_other (v : State) {p q : Nat} (hp : p < 3) (hq : q < 3) (h : p ≠ q) (k : Nat) : (v.beginHop q k).pllView p = v.pllView p := by
  unfold State.beginHop
  dsimp only
  rw [pllView_setPll _ _ h]
  cases v.pllState q != pllHold with
  | false => rfl
  | true => exact enterHold_other hp v hq h

theorem beginHop_keeps (v : State) {p : Nat} (hp : p < 3) (k ref : Nat) : (v.beginHop p k).refOk ref = v.refOk ref
    ∧ (v.beginHop p k).clk.lost = v.clk.lost := by
  unfold State.beginHop
  dsimp only
  rw [refOk_setPll, refOk_lost_setPll]
  cases v.pllState p != pllHold with
  | false => exact ⟨rfl, rfl⟩
  | true => exact ⟨enterHold_refOk hp v ref, enterHold_lost v p⟩

theorem refBack_other (v : State) (ref : Nat) {p q : Nat} (hp : p < 3) (hq : q < 3) (h : p ≠ q) : (v.refBack q ref).pllView p = v.pllView p := by
  unfold State.refBack
  dsimp only
  split
  · exact eq_doIf (State.pllView · p) (enterRelock_other hp v hq h)
  · exact eq_doIf (State.pllView · p) (beginHop_other v hp hq h _)

theorem refBack_keeps (v : State) (ref r : Nat) {p : Nat} (hp : p < 3) : (v.refBack p ref).refOk r = v.refOk r
    ∧ (v.refBack p ref).clk.lost = v.clk.lost := by
  unfold State.refBack State.doIf
  dsimp only
  split
  · split
    · exact ⟨enterRelock_refOk hp v r, enterRelock_lost v p⟩
    · exact ⟨rfl, rfl⟩
  · split
    · exact beginHop_keeps v hp _ r
    · exact ⟨rfl, rfl⟩

theorem refBack_relocks {v : State} {ref p : Nat} (href : (v.pll p).ref = ref) (hhop : (v.pll p).hop = none) (hst : v.pllState p = 2) :
    v.refBack p ref = v.enterRelock p := by
  unfold State.refBack
  dsimp only
  rw [if_pos href, State.doIf_of (by rw [hst, hhop]; rfl)]

theorem refsBack_keeps (v : State) (ref r : Nat) : (v.refsBack ref).refOk r = v.refOk r ∧ (v.refsBack ref).clk.lost = v.clk.lost
    ∧ QExt v (v.refsBack ref) := by
  refine foldl_three (P := fun x => x.refOk r = v.refOk r ∧ x.clk.lost = v.clk.lost ∧ QExt v x) (fun x p hp hx => ?_) ⟨rfl, rfl, QExt.refl v⟩
  obtain ⟨hok, hlost, hq⟩ := hx
  obtain ⟨hok', hlost'⟩ := refBack_keeps x ref r hp
  exact ⟨hok'.trans hok, hlost'.trans hlost, hq.trans tch_refBack.q⟩

/-- A PLL in HOLDOVER relocks when the reference that it follows is back. -/
theorem refsBack_pll (v : State) {ref p : Nat} (hp : p < 3) (href : (v.pll p).ref = ref) (hhop : (v.pll p).hop = none) (hst : v.pllState p = 2) :
    (v.refsBack ref).pllState p = 3 ∧ ((v.refsBack ref).pll p).relockAt = v.now := by
  obtain ⟨x, hx, hfold⟩ := pllView_foldl (g := fun s p => s.refBack p ref) (fun s p q hp hq hne => refBack_other s ref hp hq hne) v hp
  obtain ⟨xst, xpll, -, -, xnow⟩ := pllView_iff.mp hx
  obtain ⟨hst', hpll', -, -, -⟩ := pllView_iff.mp hfold
  change (v.refsBack ref).pllState p = _ at hst'
  change (v.refsBack ref).pll p = _ at hpll'
  rw [refBack_relocks (by rw [xpll, href]) (by rw [xpll, hhop]) (by rw [xst, hst])] at hst' hpll'
  obtain ⟨h1, h2, -, -⟩ := enterRelock_shows hp x
  rw [hst', hpll', h1, h2]
  exact ⟨rfl, xnow⟩

/-! ### The boot clocks -/

/-- What one PLL takes at boot. -/
def State.bootPll (strap : Nat) (s : State) (p : Nat) : State :=
  let s := s.setPll p { ref := strap, copyAt := s.now }
  ((s.setF R.CLK_PLL_STAT_STATE pllLocked p).setF R.CLK_PLL_STAT_SLOT 0 p).loadDiv p

theorem bootClocks_eq (s : State) : s.bootClocks = [0, 1, 2].foldl (State.bootPll (s.f R.CLK_STAT_STRAP)) (s.setB R.CLK_STAT_NOREF false) := rfl

/-- A divider is no part of any other register. -/
theorem f_loadDiv (s : State) (p : Nat) {r : FRef} {i j : Nat} (h : r.key i j ≠ R.CLK_PLL_DIV_N.key p 0) : (s.loadDiv p).f r i j = s.f r i j := by
  unfold State.loadDiv State.showDiv
  dsimp only
  split
  · rw [f_setF_key (r := R.CLK_PLL_DIV_FRAC) _ _ h, f_setF_key _ _ h]
  · rw [f_upd_clk, f_setF_key (r := R.CLK_PLL_DIV_FRAC) _ _ h, f_setF_key _ _ h]

theorem b_loadDiv (s : State) (p : Nat) {r : FRef} {i j : Nat} (h : r.key i j ≠ R.CLK_PLL_DIV_N.key p 0) : (s.loadDiv p).b r i j = s.b r i j :=
  b_of_f (f_loadDiv s p h)

theorem bootPll_f (strap : Nat) (s : State) (p : Nat) {r : FRef} {i j : Nat} (hs : r.key i j ≠ R.CLK_PLL_STAT_STATE.key p 0)
    (hd : r.key i j ≠ R.CLK_PLL_DIV_N.key p 0) : (s.bootPll strap p).f r i j = s.f r i j := by
  unfold State.bootPll
  dsimp only
  rw [f_loadDiv _ _ hd, f_setF_key (r := R.CLK_PLL_STAT_SLOT) _ _ hs, f_setF_key _ _ hs, f_setPll]

theorem bootPll_locked (strap : Nat) (s : State) {p : Nat} (hp : p < 3) : (s.bootPll strap p).pllState p = 1 := by
  unfold State.bootPll State.pllState
  dsimp only
  rw [f_loadDiv _ _ ((by decide : ∀ p < 3, R.CLK_PLL_STAT_STATE.key p 0 ≠ R.CLK_PLL_DIV_N.key p 0) p hp), f_setF_bits _ _ _ _ _ _ (by decide),
    f_setF_fits _ _ _ _ (by decide) (by decide)]

theorem bootClocks_locked (s : State) {p : Nat} (hp : p < 3) : s.bootClocks.pllState p = 1 := by
  have hstat : ∀ p < 3, ∀ q < 3, p ≠ q → R.CLK_PLL_STAT_STATE.key p 0 ≠ R.CLK_PLL_STAT_STATE.key q 0
      ∧ R.CLK_PLL_STAT_STATE.key p 0 ≠ R.CLK_PLL_DIV_N.key q 0 := by decide
  have hother (x : State) (q : Nat) (hq : q < 3) (hne : p ≠ q) : (x.bootPll (s.f R.CLK_STAT_STRAP) q).pllState p = x.pllState p :=
    bootPll_f _ x q (hstat p hp q hq hne).1 (hstat p hp q hq hne).2
  rw [bootClocks_eq]
  simp only [List.foldl]
  match p, hp with
  | 0, hp => rw [hother _ 2 (by decide) (by decide), hother _ 1 (by decide) (by decide), bootPll_locked _ _ hp]
  | 1, hp => rw [hother _ 2 (by decide) (by decide), bootPll_locked _ _ hp]
  | 2, hp => rw [bootPll_locked _ _ hp]

/-- CLK_STAT after the boot clocks: NOREF is clear, and nothing else of it has changed. -/
theorem bootClocks_stat (s : State) {r : FRef} (hk : r.key 0 0 = 4) : s.bootClocks.f r = (s.setB R.CLK_STAT_NOREF false).f r := by
  rw [bootClocks_eq]
  refine foldl_three (P := fun x => x.f r = (s.setB R.CLK_STAT_NOREF false).f r) (fun x p hp hx => (bootPll_f _ x p ?_ ?_).trans hx) rfl
  · rw [hk]
    exact (pllStat_ne_stat hp).symm
  · rw [hk]
    exact (by decide : ∀ p < 3, 4 ≠ R.CLK_PLL_DIV_N.key p 0) p hp

theorem bootClocks_shows (s : State) (ref : Nat) : s.bootClocks.refOk ref = s.refOk ref ∧ s.bootClocks.b R.CLK_STAT_NOREF = false := by
  have hk := (refOkF_apart ref (r := R.CLK_PLL_CFG_INIT_SLOT) (i := 0) (j := 0) (by decide) 0 0).1
  constructor
  · refine (b_of_f (bootClocks_stat s hk)).trans ?_
    unfold State.refOk refOkF
    split <;> exact b_setB_bits _ _ _ _ _ _ (by decide)
  · exact (b_of_f (bootClocks_stat s rfl)).trans (b_setB_same _ _ _ _ _ (by decide))

end Refs

/-! ## Lock, hops and bands -/

section Locks
variable {s u : State} {t : Instant}

/-- Loss of lock, as a PLL shows and reports it. -/
def State.lockGone (s : State) (p : Nat) : State := (s.setB R.CLK_PLL_STAT_LOCK_LOST_SEEN true p).post E.LOCK_LOST (subject p)

theorem exec_lockLost {p : Nat} {errs : List Nat} (hr : (s.start t).inReset = false) (hp : p < 3) (hst : (s.start t).pllState p = 1)
    (hok : (s.start t).refOk ((s.start t).pll p).ref = true) (hlen : errs.length = 4) (herr : ∀ e ∈ errs, 500 < e) :
    exec (.lockLost t p errs) s = .next ((((s.start t).lockGone p).enterHold p).enterRelock p) := by
  refine congrArg Host.Outcome.next (State.doIf_of ?_)
  rw [hr, hok, hst, hlen]
  simpa [hp] using herr

theorem lockGone_shows (u : State) {p : Nat} (hp : p < 3) : (u.lockGone p).b R.CLK_PLL_STAT_LOCK_LOST_SEEN p = true
    ∧ (u.lockGone p).f R.CLK_PLL_CNT_HOLDOVERS p = u.f R.CLK_PLL_CNT_HOLDOVERS p ∧ (u.lockGone p).now = u.now := by
  unfold State.lockGone
  rw [b_post _ _ _ _ _ _ _ _ (by decide), f_post _ _ _ _ _ _ _ _ (by decide), b_setB_same _ _ _ _ _ (by decide),
    f_setB_key (r := R.CLK_PLL_STAT_LOCK_LOST_SEEN) _ _ (pllStat_ne_cnt hp).symm, State.post_now, State.setB_now]
  exact ⟨rfl, rfl, rfl⟩

theorem lockGone_reports (u : State) (p : Nat) (hroom : u.room) : Reports u (u.lockGone p) E.LOCK_LOST (subject p) := by
  unfold State.lockGone
  exact (tch_setB.mono (by decide) : Touches 4096 u _).reports (by decide) (by decide) hroom ..

theorem enterHold_seen (u : State) {p : Nat} (hp : p < 3) :
    (u.enterHold p).b R.CLK_PLL_STAT_LOCK_LOST_SEEN p = u.b R.CLK_PLL_STAT_LOCK_LOST_SEEN p ∧ (u.enterHold p).now = u.now := by
  rw [enterHold_eq, b_setPll]
  constructor
  · unfold State.holdShown State.incF
    rw [b_post _ _ _ _ _ _ _ _ (by decide), b_setF_key (q := R.CLK_PLL_STAT_LOCK_LOST_SEEN) _ _ (pllStat_ne_cnt hp),
      b_setB_bits _ _ _ _ _ _ (by decide), b_setF_bits _ _ _ _ _ _ (by decide)]
  · show (u.holdShown p).now = _
    unfold State.holdShown
    rw [State.post_now, State.incF_now, State.setB_now, State.setF_now]

theorem lockLost_shows (u : State) {p : Nat} (hp : p < 3) (hroom : u.room) (s' : State) (hs : s' = ((u.lockGone p).enterHold p).enterRelock p) :
    s'.pllState p = 3 ∧ s'.b R.CLK_PLL_STAT_LOCK_LOST_SEEN p = true ∧ (s'.pll p).relockAt = u.now
      ∧ s'.f R.CLK_PLL_CNT_HOLDOVERS p = min (u.f R.CLK_PLL_CNT_HOLDOVERS p + 1) (2 ^ 16 - 1) ∧ Posts u s' E.LOCK_LOST (subject p) := by
  obtain ⟨hseen, hcnt, hnow⟩ := lockGone_shows u hp
  obtain ⟨-, -, hcnt', -⟩ := enterHold_shows hp (u.lockGone p)
  obtain ⟨hseen', hnow'⟩ := enterHold_seen (u.lockGone p) hp
  obtain ⟨hst, hpll, hseen'', hcnt''⟩ := enterRelock_shows hp ((u.lockGone p).enterHold p)
  subst hs
  refine ⟨hst, by rw [hseen'', hseen', hseen], ?_, by rw [hcnt'', hcnt', hcnt], ?_⟩
  · rw [hpll]
    dsimp only
    rw [hnow', hnow]
  · have hhold : QExt (u.lockGone p) ((u.lockGone p).enterHold p) := tch_enterHold.q
    exact (lockGone_reports u p hroom).posts (hhold.trans tch_enterRelock.q)

theorem exec_backupHop {p k : Nat} (hr : (s.start t).inReset = false) (hp : p < 3) (hk : k = (s.start t).f R.CLK_PLL_CFG_BACKUP_SLOT p)
    (hen : (s.start t).b R.CLK_CTL_BACKUP_EN = true) (hst : (s.start t).pllState p = 2) (hhop : ((s.start t).pll p).hop = none)
    (hboot : ((s.start t).pll p).boot = false) (hslot : (s.start t).f R.CLK_PLL_STAT_SLOT p ≠ k)
    (hok : (s.start t).refOk ((s.start t).f R.CLK_SLOT_A_REFSEL p k) = true) (hwait : ((s.start t).pll p).holdAt + 100 * usQ ≤ (s.start t).now) :
    exec (.backupHop t p) s = .next ((s.start t).beginHop p k) := by
  subst hk
  refine congrArg Host.Outcome.next (State.doIf_of ?_)
  rw [hr, hen, hst, hhop, hboot, hok, decide_eq_true hp, decide_eq_true hwait, bne_iff_ne.mpr hslot]
  rfl

theorem beginHop_held {u : State} {p : Nat} (h : u.pllState p = 2) (k : Nat) : u.beginHop p k = u.setPll p { u.pll p with hop := some k } := by
  unfold State.beginHop
  dsimp only
  rw [State.doIf_not (by rw [h]; rfl)]

theorem exec_slotHop {p k : Nat} (hr : (s.start t).inReset = false) (hp : p < 3) (hhop : ((s.start t).pll p).hop = some k) :
    exec (.slotHop t p) s = .next ((s.start t).endHop p k) := by
  refine congrArg Host.Outcome.next ?_
  rw [hhop]
  exact State.doIf_of (by rw [hr]; simpa using hp)

theorem exec_pllRelocked {p worst : Nat} (hr : (s.start t).inReset = false) (hp : p < 3) (hst : (s.start t).pllState p = 3) (hw : worst ≤ 50)
    (hwait : ((s.start t).pll p).relockAt + 1024 * (if ((s.start t).pll p).ref = 0 then 10 else 40) * nsQ ≤ (s.start t).now) :
    exec (.pllRelocked t p worst) s = .next (((s.start t).setF R.CLK_PLL_STAT_STATE pllLocked p).post E.PLL_RELOCKED (subject p)) := by
  refine congrArg Host.Outcome.next (State.doIf_of ?_)
  rw [hr, hst, decide_eq_true hp, decide_eq_true hw, decide_eq_true hwait]
  rfl

theorem relocked_shows (u : State) {p : Nat} (hroom : u.room) (s' : State) (hs : s' = (u.setF R.CLK_PLL_STAT_STATE pllLocked p).post E.PLL_RELOCKED (subject p)) :
    s'.pllState p = 1 ∧ s'.clk = u.clk ∧ Reports u s' E.PLL_RELOCKED (subject p) := by
  subst hs
  refine ⟨?_, ?_, (tch_setF.mono (by decide) : Touches 4096 u _).reports (by decide) (by decide) hroom ..⟩
  · unfold State.pllState
    rw [f_post _ _ _ _ _ _ _ _ (by decide), f_setF_fits _ _ _ _ (by decide) (by decide)]
  · rw [State.post_clk, State.setF_clk]

/-! ### The end of a hop -/

/-- Keys of the slots and of the PLLs. -/
theorem slotKey_ne {p k q : Nat} (hp : p < 3) (hk : k < 8) (hq : q < 3) : R.CLK_SLOT_A_N.key p k ≠ R.CLK_PLL_STAT_STATE.key q 0
    ∧ R.CLK_SLOT_A_N.key p k ≠ R.CLK_STAT_REF_ACTIVE.key 0 0 ∧ R.CLK_SLOT_F_FRAC.key p k ≠ R.CLK_PLL_STAT_STATE.key q 0
    ∧ R.CLK_SLOT_F_FRAC.key p k ≠ R.CLK_STAT_REF_ACTIVE.key 0 0 := by
  unfold FRef.key
  simp only [R.CLK_SLOT_A_N, R.CLK_SLOT_F_FRAC, R.CLK_PLL_STAT_STATE, R.CLK_STAT_REF_ACTIVE]
  omega

/-- A slot is taken: its record and its number. -/
def State.slotTaken (s : State) (p k : Nat) : State :=
  (s.setPll p { s.pll p with boot := false, ref := s.f R.CLK_SLOT_A_REFSEL p k, hop := none }).setF R.CLK_PLL_STAT_SLOT k p

/-- On PLL_PWM its reference is shown too. -/
def State.slotInUse (s : State) (p k : Nat) : State := (s.slotTaken p k).doIf (p == 1) (·.setF R.CLK_STAT_REF_ACTIVE (s.f R.CLK_SLOT_A_REFSEL p k))

theorem takeSlot_eq (s : State) (p k : Nat) : s.takeSlot p k = (s.slotInUse p k).loadDiv p := rfl

theorem slotInUse_cases (s : State) (p k : Nat) : s.slotInUse p k = s.slotTaken p k ∨ ∃ v, s.slotInUse p k = (s.slotTaken p k).setF R.CLK_STAT_REF_ACTIVE v := by
  unfold State.slotInUse
  cases p == 1 with
  | false => exact .inl (State.doIf_false ..)
  | true => exact .inr ⟨_, State.doIf_true ..⟩

theorem slotInUse_f (u : State) (p k : Nat) {r : FRef} {i j : Nat} (hs : r.key i j ≠ R.CLK_PLL_STAT_SLOT.key p 0)
    (ha : r.key i j ≠ R.CLK_STAT_REF_ACTIVE.key 0 0) : (u.slotInUse p k).f r i j = u.f r i j := by
  have htaken : (u.slotTaken p k).f r i j = u.f r i j := by
    unfold State.slotTaken
    rw [f_setF_key _ _ hs, f_setPll]
  rcases slotInUse_cases u p k with h | ⟨v, h⟩
  · rw [h, htaken]
  · rw [h, f_setF_key _ _ ha, htaken]

theorem slotInUse_pll (u : State) (p k : Nat) : (u.slotInUse p k).pll p = { u.pll p with boot := false, ref := u.f R.CLK_SLOT_A_REFSEL p k, hop := none } := by
  have htaken : (u.slotTaken p k).pll p = { u.pll p with boot := false, ref := u.f R.CLK_SLOT_A_REFSEL p k, hop := none } := by
    unfold State.slotTaken
    rw [pll_setF, pll_setPll_same]
  rcases slotInUse_cases u p k with h | ⟨v, h⟩
  · rw [h, htaken]
  · rw [h, pll_setF, htaken]

theorem slotInUse_stat (u : State) {p k : Nat} (hp : p < 3) (hk : k < 8) : (u.slotInUse p k).f R.CLK_PLL_STAT_SLOT p = k
    ∧ (u.slotInUse p k).pllState p = u.pllState p := by
  have ha : R.CLK_PLL_STAT_SLOT.key p 0 ≠ R.CLK_STAT_REF_ACTIVE.key 0 0 := pllStat_ne_stat hp
  have htaken : (u.slotTaken p k).f R.CLK_PLL_STAT_SLOT p = k ∧ (u.slotTaken p k).f R.CLK_PLL_STAT_STATE p = u.f R.CLK_PLL_STAT_STATE p := by
    unfold State.slotTaken
    rw [f_setF_fits _ _ _ _ (by decide) hk, f_setF_bits _ _ _ _ _ _ (by decide), f_setPll]
    exact ⟨rfl, rfl⟩
  unfold State.pllState
  rcases slotInUse_cases u p k with h | ⟨v, h⟩
  · rw [h]
    exact htaken
  · rw [h, f_setF_key _ _ ha, f_setF_key (q := R.CLK_PLL_STAT_STATE) _ _ ha]
    exact htaken

theorem slotInUse_refOk (u : State) {p : Nat} (hp : p < 3) (k ref : Nat) : (u.slotInUse p k).refOk ref = u.refOk ref := by
  have htaken : (u.slotTaken p k).refOk ref = u.refOk ref := by
    unfold State.slotTaken
    rw [refOk_setF _ _ R.CLK_PLL_STAT_SLOT _ _ _ (pllStat_ne_stat hp), refOk_setPll]
  rcases slotInUse_cases u p k with h | ⟨v, h⟩
  · rw [h, htaken]
  · rw [h, ← htaken]
    unfold State.refOk refOkF
    split <;> exact b_setF_bits _ _ _ _ _ _ (by decide)

theorem slotInUse_ungated (u : State) (p k : Nat) : (u.slotInUse p k).clk.ungatedAt = u.clk.ungatedAt := by
  have htaken : (u.slotTaken p k).clk.ungatedAt = u.clk.ungatedAt := by
    unfold State.slotTaken
    rw [State.setF_clk]
    rfl
  rcases slotInUse_cases u p k with h | ⟨v, h⟩
  · rw [h, htaken]
  · rw [h, State.setF_clk, htaken]

theorem pll_upd_clk (s : State) (x : ClkSt) (p : Nat) : State.pll { s with clk := x } p = kget {} x.plls p := rfl

theorem loadDiv_pll (u : State) (p q : Nat) : (u.loadDiv p).pll q = u.pll q := by
  unfold State.loadDiv State.showDiv
  dsimp only
  split
  · rw [pll_setF, pll_setF]
  · rw [pll_upd_clk]
    rfl

theorem loadDiv_clk (u : State) (p : Nat) : (u.loadDiv p).clk.ungatedAt = u.clk.ungatedAt ∧ (u.loadDiv p).clk.syncWait = u.clk.syncWait := by
  unfold State.loadDiv State.showDiv
  dsimp only
  split
  · rw [State.setF_clk, State.setF_clk]
    exact ⟨rfl, rfl⟩
  · exact ⟨rfl, rfl⟩

theorem shortTs_of_ungated {s u : State} (hnow : u.now = s.now) (hun : u.clk.ungatedAt = s.clk.ungatedAt) (hnet : u.net = s.net) :
    u.shortTs = s.shortTs := by
  unfold State.shortTs State.ntime State.pwmTime
  rw [hnow, hun, hnet]

/-- As `Touches.reports`, where CLK changes but for the ungating. -/
theorem Touches.reports_ungated {m : Nat} {s u : State} (h : Touches m s u) (hm : m.testBit 16 = false ∧ m.testBit 34 = false ∧ m.testBit 28 = false)
    (hun : u.clk.ungatedAt = s.clk.ungatedAt) (hroom : s.room) (e : Ev) (a : Nat) (w0 w1 : Word) : Reports s (u.post e a w0 w1) e a w0 w1 := by
  obtain ⟨hs, hnow, hnet⟩ := hm
  have hsys := h.sysSame hs
  exact (State.post_sys u e a w0 w1 (by unfold State.room; rw [hsys]; exact hroom)).of_eq (by rw [hsys])
    (shortTs_of_ungated (h.1 .now hnow) hun (h.1 .net hnet))

/-- The divider of a slot, loaded into a PLL that the servo does not steer. -/
theorem loadDiv_divider {u : State} {p k : Nat} (hp : p ≠ 1) (hboot : (u.pll p).boot = false) (hslot : u.f R.CLK_PLL_STAT_SLOT p = k) :
    (u.loadDiv p).f R.CLK_PLL_DIV_N p = u.f R.CLK_SLOT_A_N p k ∧ (u.loadDiv p).f R.CLK_PLL_DIV_FRAC p = u.f R.CLK_SLOT_F_FRAC p k := by
  have hn : u.f R.CLK_SLOT_A_N p k < 2 ^ 8 := f_lt u R.CLK_SLOT_A_N p k
  have hfrac : u.f R.CLK_SLOT_F_FRAC p k < 2 ^ 24 := f_lt u R.CLK_SLOT_F_FRAC p k
  have hbase : u.pllBase p = u.f R.CLK_SLOT_A_N p k * 2 ^ 24 + u.f R.CLK_SLOT_F_FRAC p k := by
    unfold State.pllBase
    rw [if_neg (by rw [hboot]; decide), hslot]
  have hload : u.loadDiv p = u.showDiv p (u.pllBase p) := by
    unfold State.loadDiv
    exact if_pos (by simpa using hp)
  rw [hload, hbase]
  generalize u.f R.CLK_SLOT_A_N p k = n at *
  generalize u.f R.CLK_SLOT_F_FRAC p k = m at *
  have hdiv : (n * 2 ^ 24 + m) / 2 ^ 24 = n := by omega
  have hmod : (n * 2 ^ 24 + m) % 2 ^ 24 = m := by omega
  unfold State.showDiv
  rw [hdiv, hmod, f_setF_bits _ _ _ _ _ _ (by decide), f_setF_fits _ _ _ _ (by decide) hn, f_setF_fits _ _ _ _ (by decide) hfrac]
  exact ⟨rfl, rfl⟩

/-- A hop's end before the loop closes. -/
def State.hopped (s : State) (p k : Nat) : State := ((s.takeSlot p k).incF R.CLK_PLL_CNT_HOPS 1 p).post E.SLOT_HOP (subject p)

theorem endHop_eq (s : State) (p k : Nat) : s.endHop p k = (s.hopped p k).doIf ((s.hopped p k).refOk ((s.hopped p k).pll p).ref) (·.enterRelock p) := rfl

theorem hopped_reports (u : State) (p k : Nat) (hroom : u.room) : Reports u (u.hopped p k) E.SLOT_HOP (subject p) := by
  have htch : Touches 1073745920 u ((u.takeSlot p k).incF R.CLK_PLL_CNT_HOPS 1 p) := tch_incF.comp (by decide) tch_takeSlot
  have hungated : ((u.takeSlot p k).incF R.CLK_PLL_CNT_HOPS 1 p).clk.ungatedAt = u.clk.ungatedAt := by
    rw [State.incF_clk, takeSlot_eq, (loadDiv_clk _ p).1]
    exact slotInUse_ungated u p k
  unfold State.hopped
  exact htch.reports_ungated (by decide) hungated hroom ..

theorem hopped_f (u : State) (p k : Nat) {r : FRef} {i j : Nat} (hb : r.blk = .clk) (hk : r.key i j ≠ R.CLK_PLL_CNT_HOPS.key p 0) :
    (u.hopped p k).f r i j = (u.takeSlot p k).f r i j := by
  unfold State.hopped State.incF
  rw [f_post _ _ _ _ _ _ _ _ (by rw [hb]; decide), f_setF_key _ _ hk]

theorem hopped_pll (u : State) (p k : Nat) : (u.hopped p k).pll p = { u.pll p with boot := false, ref := u.f R.CLK_SLOT_A_REFSEL p k, hop := none } := by
  unfold State.hopped
  rw [pll_of_clk (State.post_clk ..), pll_of_clk (State.incF_clk ..), takeSlot_eq, loadDiv_pll, slotInUse_pll]

theorem hopped_shows (u : State) {p k : Nat} (hp : p < 3) (hk : k < 8) : (u.hopped p k).f R.CLK_PLL_STAT_SLOT p = k ∧ (u.hopped p k).pllState p = u.pllState p
    ∧ (u.hopped p k).f R.CLK_PLL_CNT_HOPS p = min (u.f R.CLK_PLL_CNT_HOPS p + 1) (2 ^ 16 - 1)
    ∧ (∀ ref, (u.hopped p k).refOk ref = u.refOk ref)
    ∧ (p ≠ 1 → (u.hopped p k).f R.CLK_PLL_DIV_N p = u.f R.CLK_SLOT_A_N p k ∧ (u.hopped p k).f R.CLK_PLL_DIV_FRAC p = u.f R.CLK_SLOT_F_FRAC p k) := by
  have hcnt := pllStat_ne_cnt hp
  have hdiv := (by decide : ∀ p < 3, R.CLK_PLL_STAT_STATE.key p 0 ≠ R.CLK_PLL_DIV_N.key p 0) p hp
  have hdc := (by decide : ∀ p < 3, R.CLK_PLL_DIV_N.key p 0 ≠ R.CLK_PLL_CNT_HOLDOVERS.key p 0) p hp
  have hca := (by decide : ∀ p < 3, R.CLK_PLL_CNT_HOPS.key p 0 ≠ R.CLK_STAT_REF_ACTIVE.key 0 0) p hp
  have h4c := (by decide : ∀ p < 3, 4 ≠ R.CLK_PLL_CNT_HOPS.key p 0) p hp
  have h4d := (by decide : ∀ p < 3, 4 ≠ R.CLK_PLL_DIV_N.key p 0) p hp
  obtain ⟨hslot, hst⟩ := slotInUse_stat u hp hk
  refine ⟨?_, ?_, ?_, fun ref => ?_, fun h1 => ?_⟩
  · rw [hopped_f u p k (r := R.CLK_PLL_STAT_SLOT) rfl hcnt, takeSlot_eq, f_loadDiv (r := R.CLK_PLL_STAT_SLOT) _ _ hdiv, hslot]
  · show (u.hopped p k).f R.CLK_PLL_STAT_STATE p = _
    rw [hopped_f u p k rfl hcnt, takeSlot_eq, f_loadDiv _ _ hdiv]
    exact hst
  · unfold State.hopped
    rw [f_post _ _ _ _ _ _ _ _ (by decide), f_incF_same _ _ _ _ _ (by decide), takeSlot_eq, f_loadDiv (r := R.CLK_PLL_CNT_HOPS) _ _ hdc.symm,
      slotInUse_f (r := R.CLK_PLL_CNT_HOPS) _ _ _ hcnt.symm hca]
    rfl
  · have hkey := (refOkF_apart ref (r := R.CLK_PLL_CFG_INIT_SLOT) (i := 0) (j := 0) (by decide) 0 0).1
    rw [← slotInUse_refOk u hp k ref]
    unfold State.refOk
    refine b_of_f ?_
    rw [hopped_f u p k (refOkF_blk ref) (by rw [hkey]; exact h4c), takeSlot_eq, f_loadDiv _ _ (by rw [hkey]; exact h4d)]
  · obtain ⟨hsn, hsa, hfn, hfa⟩ := slotKey_ne hp hk hp
    have hboot : ((u.slotInUse p k).pll p).boot = false := by rw [slotInUse_pll]
    obtain ⟨hn, hfrac⟩ := loadDiv_divider h1 hboot hslot
    rw [hopped_f u p k (r := R.CLK_PLL_DIV_N) rfl hdc, hopped_f u p k (r := R.CLK_PLL_DIV_FRAC) rfl hdc, takeSlot_eq, hn, hfrac,
      slotInUse_f _ _ _ hsn hsa, slotInUse_f _ _ _ hfn hfa]
    exact ⟨rfl, rfl⟩

theorem endHop_shows (u : State) {p k : Nat} (hp : p < 3) (hk : k < 8) (hroom : u.room) (s' : State) (hs : s' = u.endHop p k) :
    s'.f R.CLK_PLL_STAT_SLOT p = k ∧ (s'.pll p).hop = none ∧ (s'.pll p).ref = u.f R.CLK_SLOT_A_REFSEL p k ∧ (s'.pll p).boot = false
      ∧ s'.f R.CLK_PLL_CNT_HOPS p = min (u.f R.CLK_PLL_CNT_HOPS p + 1) (2 ^ 16 - 1)
      ∧ s'.pllState p = (if u.refOk (u.f R.CLK_SLOT_A_REFSEL p k) then 3 else u.pllState p) ∧ Posts u s' E.SLOT_HOP (subject p)
      ∧ (p ≠ 1 → s'.f R.CLK_PLL_DIV_N p = u.f R.CLK_SLOT_A_N p k ∧ s'.f R.CLK_PLL_DIV_FRAC p = u.f R.CLK_SLOT_F_FRAC p k) := by
  obtain ⟨hslot, hst, hcnt, hok, hdiv⟩ := hopped_shows u hp hk
  have hpll := hopped_pll u p k
  have hrep := hopped_reports u p k hroom
  rw [endHop_eq, hpll, hok] at hs
  dsimp only at hs
  generalize u.hopped p k = v at *
  subst hs
  cases u.refOk (u.f R.CLK_SLOT_A_REFSEL p k) with
  | false =>
    rw [State.doIf_false, hpll]
    exact ⟨hslot, rfl, rfl, rfl, hcnt, hst, hrep.posts (QExt.refl v), hdiv⟩
  | true =>
    rw [State.doIf_true]
    obtain ⟨hst', hpll', -, -⟩ := enterRelock_shows hp v
    have hother {r : FRef} (h : r.key p 0 ≠ R.CLK_PLL_STAT_STATE.key p 0) : (v.enterRelock p).f r p = v.f r p := by
      unfold State.enterRelock
      rw [f_setPll, f_setF_key _ _ h]
    have hslot' : (v.enterRelock p).f R.CLK_PLL_STAT_SLOT p = v.f R.CLK_PLL_STAT_SLOT p := by
      unfold State.enterRelock
      rw [f_setPll, f_setF_bits _ _ _ _ _ _ (by decide)]
    have hdk := (by decide : ∀ p < 3, R.CLK_PLL_DIV_N.key p 0 ≠ R.CLK_PLL_STAT_STATE.key p 0) p hp
    rw [hslot', hother (r := R.CLK_PLL_CNT_HOPS) (pllStat_ne_cnt hp).symm, hother (r := R.CLK_PLL_DIV_N) hdk, hother (r := R.CLK_PLL_DIV_FRAC) hdk, hpll', hpll]
    exact ⟨hslot, rfl, rfl, rfl, hcnt, hst', hrep.posts tch_enterRelock.q, hdiv⟩

/-! ### The copy of the band -/

/-- The valid slots of a PLL. -/
def State.validSlots (s : State) (p : Nat) : List Nat := (List.range 8).filter fun k => s.b R.CLK_SLOT_A_VALID p k

theorem mem_validSlots (s : State) (p k : Nat) : k ∈ s.validSlots p ↔ k < 8 ∧ s.b R.CLK_SLOT_A_VALID p k = true := by
  unfold State.validSlots
  rw [List.mem_filter, List.mem_range]

/-- The copy of the band and the code in use into the valid slots. -/
def State.bandCopied (s : State) (p band code : Nat) : State :=
  let v := (s.validSlots p).foldl (fun s k => s.setF R.CLK_SLOT_A_BAND band p k) s
  v.setPll p { v.pll p with copyAt := v.now, tune := (s.validSlots p).foldl (fun m k => kset 0 m k code) (v.pll p).tune }

theorem exec_bandCopy {p band code : Nat} (hr : (s.start t).inReset = false) (hp : p < 3) (hst : (s.start t).pllState p = 1)
    (hwait : ((s.start t).pll p).copyAt + 10 * secQ ≤ (s.start t).now) : exec (.bandCopy t p band code) s = .next ((s.start t).bandCopied p band code) := by
  refine congrArg Host.Outcome.next (State.doIf_of ?_)
  rw [hr, hst, decide_eq_true hp, decide_eq_true hwait]
  rfl

theorem slotBand_key {p k j : Nat} (h : k ≠ j) : R.CLK_SLOT_A_BAND.key p k ≠ R.CLK_SLOT_A_BAND.key p j := by
  unfold FRef.key
  simp only [R.CLK_SLOT_A_BAND]
  omega

theorem bands_foldl (p band : Nat) (hb : band < 64) (k : Nat) (l : List Nat) : ∀ v : State,
    (l.foldl (fun s k => s.setF R.CLK_SLOT_A_BAND band p k) v).f R.CLK_SLOT_A_BAND p k = if k ∈ l then band else v.f R.CLK_SLOT_A_BAND p k := by
  induction l with
  | nil => intro v; rfl
  | cons j l ih =>
    intro v
    rw [List.foldl_cons, ih]
    by_cases hj : k = j
    · subst hj
      rw [f_setF_fits _ _ _ _ (by decide) hb]
      simp
    · rw [f_setF_key _ _ (slotBand_key hj)]
      simp [hj]

theorem tunes_foldl (code k : Nat) (l : List Nat) : ∀ m : KMap Nat, k ∈ l → kget 0 (l.foldl (fun m k => kset 0 m k code) m) k = code := by
  have stays (l : List Nat) : ∀ m : KMap Nat, kget 0 m k = code → kget 0 (l.foldl (fun m k => kset 0 m k code) m) k = code := by
    induction l with
    | nil => exact fun m h => h
    | cons j l ih =>
      intro m h
      refine ih _ ?_
      by_cases hj : k = j
      · rw [hj, kget_kset_same]
      · rw [kget_kset_other _ _ _ hj, h]
  induction l with
  | nil => exact fun m h => absurd h (by simp)
  | cons j l ih =>
    intro m h
    by_cases hj : k = j
    · exact stays l _ (by rw [hj, kget_kset_same])
    · exact ih _ ((List.mem_cons.mp h).resolve_left hj)

theorem bands_keep (l : List Nat) (p band : Nat) (v : State) : (l.foldl (fun s k => s.setF R.CLK_SLOT_A_BAND band p k) v).now = v.now
    ∧ (l.foldl (fun s k => s.setF R.CLK_SLOT_A_BAND band p k) v).sys = v.sys :=
  foldl_inv (P := fun x => x.now = v.now ∧ x.sys = v.sys) l v ⟨rfl, rfl⟩ fun _ _ h => by
    rw [State.setF_now, State.setF_sys]
    exact h

theorem bandCopied_shows (u : State) (p band code : Nat) (hb : band < 64) (s' : State) (hs : s' = u.bandCopied p band code) :
    (s'.pll p).copyAt = u.now ∧ s'.sys = u.sys ∧ ∀ k < 8, if u.b R.CLK_SLOT_A_VALID p k then s'.f R.CLK_SLOT_A_BAND p k = band
      ∧ kget 0 (s'.pll p).tune k = code else s'.f R.CLK_SLOT_A_BAND p k = u.f R.CLK_SLOT_A_BAND p k := by
  obtain ⟨hnow, hsys⟩ := bands_keep (u.validSlots p) p band u
  have hbands (k : Nat) := bands_foldl p band hb k (u.validSlots p) u
  unfold State.bandCopied at hs
  dsimp only at hs
  generalize (u.validSlots p).foldl (fun s k => s.setF R.CLK_SLOT_A_BAND band p k) u = v at *
  subst hs
  rw [pll_setPll_same]
  refine ⟨hnow, hsys, fun k hk => ?_⟩
  rw [f_setPll, hbands]
  have hmem := mem_validSlots u p k
  split
  · next hv =>
    have hin : k ∈ u.validSlots p := hmem.mpr ⟨hk, hv⟩
    rw [if_pos hin]
    exact ⟨rfl, tunes_foldl code k _ _ hin⟩
  · next hv => rw [if_neg fun hin => hv (hmem.mp hin).2]

end Locks

/-! ## SYNC_IN -/

/-- The ungating and CLK_SYNC_STAT stay. -/
structure SyncStays (s s' : State) : Prop where
  ungated : s'.clk.ungatedAt = s.clk.ungatedAt
  waits : s'.clk.syncWait = s.clk.syncWait
  stat : s'.word .clk 8 = s.word .clk 8

theorem SyncStays.refl (s : State) : SyncStays s s := ⟨rfl, rfl, rfl⟩

theorem SyncStays.trans {s u v : State} (h : SyncStays s u) (h' : SyncStays u v) : SyncStays s v :=
  ⟨h'.ungated.trans h.ungated, h'.waits.trans h.waits, h'.stat.trans h.stat⟩

/-- What leaves CLK alone. -/
theorem SyncStays.of_touches {m : Nat} {s s' : State} (h : Touches m s s') (hc : m.testBit 30 = false) (hr : m.testBit 12 = false) : SyncStays s s' := by
  have hclk : s'.clk = s.clk := h.1 .clk hc
  exact ⟨by rw [hclk], by rw [hclk], h.word _ _ hr⟩

theorem SyncStays.doIf {s u : State} {c : Bool} {g : State → State} (h : SyncStays s u) (hg : SyncStays u (g u)) : SyncStays s (u.doIf c g) := by
  cases c with
  | false => exact h
  | true => exact h.trans hg

theorem SyncStays.foldl {α : Type} {g : State → α → State} (l : List α) (s : State) (hg : ∀ v a, SyncStays v (g v a)) : SyncStays s (l.foldl g s) :=
  foldl_inv l s (.refl s) fun v a h => h.trans (hg v a)

theorem SyncStays.b {s u : State} (h : SyncStays s u) {r : FRef} (hb : r.blk = .clk) (hk : r.key 0 0 = 8) : u.b r = s.b r := by
  refine b_of_f ?_
  unfold State.f
  rw [hb, hk, h.stat]

/-- A register write of CLK beside CLK_SYNC_STAT. -/
theorem SyncStays.setF (s : State) {r : FRef} {v i j : Nat} (h : r.key i j ≠ 8) : SyncStays s (s.setF r v i j) :=
  ⟨by rw [State.setF_clk], by rw [State.setF_clk], word_setF_other _ _ _ _ _ (.inr h.symm)⟩

theorem word_upd_clk (s : State) (x : ClkSt) (b : Blk) (k : Nat) : State.word { s with clk := x } b k = s.word b k := rfl

theorem syncStays_loadDiv (s : State) : SyncStays s (s.loadDiv 1) := by
  obtain ⟨hun, hwait⟩ := loadDiv_clk s 1
  refine ⟨hun, hwait, ?_⟩
  unfold State.loadDiv State.showDiv
  dsimp only
  rw [if_neg (by decide), word_upd_clk, word_setF_other _ _ _ _ _ (.inr (by decide)), word_setF_other _ _ _ _ _ (.inr (by decide))]

theorem SyncStays.raise (s : State) {r : FRef} {i : Nat} (h : r.key i 0 ≠ 8) (e : Ev) (a : Nat) : SyncStays s (s.raise r i e a) := by
  unfold State.raise
  split
  · exact .of_touches tch_noteSet (by decide) (by decide)
  · exact (SyncStays.setF s h).trans (.of_touches tch_post (by decide) (by decide))

theorem syncStays_steer (s : State) (f : Rat) : SyncStays s (s.steer f) := by
  unfold State.steer
  extract_lets lim g c u v
  have hu : SyncStays s u := ⟨rfl, rfl, rfl⟩
  have hv : SyncStays u v := by
    unfold v
    split
    · exact .raise u (by decide) _ _
    · exact .setF u (by decide)
  exact (hu.trans hv).trans (syncStays_loadDiv v)

theorem syncStays_setFreq (s : State) (f : Rat) : SyncStays s (s.setFreq f) := by
  unfold State.setFreq
  extract_lets n u
  have hu : Touches 268435456 s u := Touches.upd_net (by decide) (.refl _ _)
  have hshown : Touches 1024 u (u.setF R.NET_FREQ_FREQ (satWord (f * 256).floor).toNat) := tch_setF.mono (by decide)
  exact ((SyncStays.of_touches hu (by decide) (by decide)).trans (.of_touches hshown (by decide) (by decide))).trans (syncStays_steer _ _)

theorem syncStays_enterTime (s : State) (st : Nat) : SyncStays s (s.enterTime st) := by
  unfold State.enterTime
  extract_lets u n v
  split
  · exact .refl s
  · have hu : Touches 66561 s u := tch_post.comp (by decide) (tch_setF.mono (by decide))
    have hv : Touches 268435456 u v := Touches.upd_net (by decide) (.refl _ _)
    refine ((SyncStays.of_touches hu (by decide) (by decide)).trans (.of_touches hv (by decide) (by decide))).trans ?_
    split
    · exact .of_touches tch_lockWake (by decide) (by decide)
    · split
      · exact syncStays_setFreq ..
      · exact .refl v

theorem syncStays_slaveLost (s : State) : SyncStays s s.slaveLost := by
  unfold State.slaveLost
  split
  · exact .refl s
  · split
    · exact syncStays_enterTime ..
    · split
      · exact syncStays_enterTime ..
      · exact .refl s

theorem syncStays_dropLink (s : State) (p : Nat) : SyncStays s (s.dropLink p) := by
  unfold State.dropLink
  dsimp only
  refine SyncStays.trans ?_ (syncStays_slaveLost _)
  refine SyncStays.trans ?_ (.foldl _ _ fun v q => .of_touches tch_failQueue (by decide) (by decide))
  refine SyncStays.trans ?_ (.of_touches tch_post (by decide) (by decide))
  refine SyncStays.trans ?_ (.of_touches tch_setPort (by decide) (by decide))
  refine SyncStays.trans ?_ (.of_touches tch_setPs (by decide) (by decide))
  have hlink (v : State) : Touches 1024 v (v.setB (if p = 0 then R.NET_STAT_LINK0 else R.NET_STAT_LINK1) false) := by
    split <;> exact tch_setB.mono (by decide)
  have hdown : Touches 1024 s (s.setB R.NET_PORT_STAT_LINK false p) := tch_setB.mono (by decide)
  exact (SyncStays.of_touches hdown (by decide) (by decide)).trans (.of_touches (hlink _) (by decide) (by decide))

theorem syncStays_netFollow (s : State) : SyncStays s s.netFollow := by
  unfold State.netFollow
  dsimp only
  have hlinks : SyncStays s ([0, 1].foldl (fun s p => s.doIf (s.b R.NET_PORT_STAT_LINK p && !(s.b R.NET_CTL_EN && s.b R.NET_PORT_CFG_EN p)) (·.dropLink p)) s) :=
    .foldl _ _ fun v p => (SyncStays.refl v).doIf (syncStays_dropLink v p)
  refine hlinks.trans ?_
  generalize [0, 1].foldl _ s = v
  have hqueues : SyncStays v ((List.range 16).foldl (fun s q => s.doIf (!s.b R.NET_LQ_CFG_EN q && !(s.lqOf q).isEmpty) (·.failQueue q 1)) v) :=
    .foldl _ _ fun v q => (SyncStays.refl v).doIf (.of_touches tch_failQueue (by decide) (by decide))
  refine hqueues.trans ?_
  generalize (List.range 16).foldl _ v = w
  have hport (x : State) (p : Nat) (y : PortSt) : SyncStays x (x.setPort p y) := .of_touches tch_setPort (by decide) (by decide)
  have hps (x : State) (p y : Nat) : SyncStays x (x.setPs p y) := .of_touches tch_setPs (by decide) (by decide)
  split
  · exact .foldl _ _ fun x p => (SyncStays.refl x).doIf ((hps ..).trans (hport ..))
  · refine SyncStays.trans ?_ (syncStays_enterTime _ _)
    refine SyncStays.trans ?_ (.of_touches (m := 268435456) (Touches.upd_net (by decide) (.refl _ _)) (by decide) (by decide))
    refine SyncStays.trans ?_ (.foldl _ _ fun x p => hport ..)
    exact ((hps ..).trans (hps ..)).trans (.of_touches (m := 1024) (tch_setB.mono (by decide)) (by decide) (by decide))

theorem syncStays_startBlocks (s : State) : SyncStays s s.startBlocks := by
  unfold State.startBlocks
  dsimp only
  refine SyncStays.trans ?_ (.of_touches tch_stoDown (by decide) (by decide))
  refine SyncStays.trans ?_ (.of_touches tch_armTrip (by decide) (by decide))
  refine SyncStays.trans ?_ (.doIf (.of_touches tch_startSet (by decide) (by decide)) (.of_touches tch_armSafe (by decide) (by decide)))
  refine SyncStays.trans ?_ (.of_touches tch_startWake (by decide) (by decide))
  refine SyncStays.trans ?_ (syncStays_netFollow _)
  refine SyncStays.trans ?_ (.of_touches tch_canStart (by decide) (by decide))
  refine SyncStays.trans ?_ (.of_touches tch_loopStart (by decide) (by decide))
  refine SyncStays.trans ?_ (.of_touches tch_excStart (by decide) (by decide))
  refine SyncStays.trans ?_ (.of_touches tch_startUnits (by decide) (by decide))
  exact .of_touches tch_unifiedFirst (by decide) (by decide)

/-- The device is sealed, before its blocks start. -/
def State.sealShown (s : State) : State :=
  let k := s.trial.getD 0
  let h := s.slotHdr k
  let s := { s with clk := { s.clk with ungatedAt := some s.now, syncWait := none } }
  let s := (((s.setB R.CFG_STAT_SEALED true).setF R.CFG_STAT_PHASE 3).setF R.CFG_STAT_SLOT (k + 1)).setF R.HUSK_STAT_SLOT (k + 1)
  let s := (s.setF R.HUSK_SVN_RUN_SVN h.svn).setF R.PWR_STAT_PHASE 4
  s.post E.IMG_LOADED (subject k) (nw h.seq) (nw (h.seq / 2 ^ 32))

theorem sealNow_eq (s : State) : s.sealNow = s.sealShown.startTimes.startBlocks := rfl

theorem sealShown_shows (s : State) : s.sealShown.clk.ungatedAt = some s.now ∧ s.sealShown.clk.syncWait = none
    ∧ s.sealShown.word .clk 8 = s.word .clk 8 ∧ s.sealShown.b R.CFG_STAT_SEALED = true := by
  unfold State.sealShown
  dsimp only
  rw [State.post_clk, State.setF_clk, State.setF_clk, State.setF_clk, State.setF_clk, State.setF_clk, State.setB_clk,
    word_post _ _ _ _ _ _ _ (by decide), b_post _ _ _ _ _ _ _ _ (by decide), b_setF_blk _ _ _ _ _ _ (by decide), b_setF_blk _ _ _ _ _ _ (by decide),
    b_setF_blk _ _ _ _ _ _ (by decide), b_setF_bits _ _ _ _ _ _ (by decide), b_setF_bits _ _ _ _ _ _ (by decide), b_setB_same _ _ _ _ _ (by decide)]
  refine ⟨rfl, rfl, ?_, rfl⟩
  unfold State.setB
  rw [word_setF_other _ _ _ _ _ (.inl (by decide)), word_setF_other _ _ _ _ _ (.inl (by decide)), word_setF_other _ _ _ _ _ (.inl (by decide)),
    word_setF_other _ _ _ _ _ (.inl (by decide)), word_setF_other _ _ _ _ _ (.inl (by decide)), word_setF_other _ _ _ _ _ (.inl (by decide))]
  rfl

/-- Sealing ungates PLL_PWM now; CLK_SYNC_STAT stays. -/
theorem sealNow_shows (s : State) : s.sealNow.b R.CFG_STAT_SEALED = true ∧ s.sealNow.clk.ungatedAt = some s.now ∧ s.sealNow.clk.syncWait = none
    ∧ s.sealNow.word .clk 8 = s.word .clk 8 := by
  obtain ⟨hun, hwait, hstat, hsealed⟩ := sealShown_shows s
  have htimes : Touches 2306867200 s.sealShown s.sealShown.startTimes := tch_startTimes
  have hstays := (SyncStays.of_touches htimes (by decide) (by decide)).trans (syncStays_startBlocks _)
  have hblocks : Touches 1204199464905 s.sealShown.startTimes s.sealShown.startTimes.startBlocks := tch_startBlocks
  rw [sealNow_eq]
  refine ⟨(b_of_f ((hblocks.f _ _ _ (by decide)).trans (htimes.f _ _ _ (by decide)))).trans hsealed, hstays.ungated.trans hun,
    hstays.waits.trans hwait, hstays.stat.trans hstat⟩

section Sync
variable {s u : State} {t : Instant}

theorem exec_syncDone {at_ e : Instant} (ha : (s.start t).alive = true) (hw : (s.start t).clk.syncWait = some at_) (he : (s.start t).clk.syncAt = some e)
    (hwait : e + 172 ≤ (s.start t).now) :
    exec (.syncDone t) s = .next ((((s.start t).setB R.CLK_SYNC_STAT_SYNCED true).post E.SYNC_DONE).sealNow) := by
  refine congrArg Host.Outcome.next ?_
  rw [hw, he]
  exact State.doIf_of (by rw [ha, decide_eq_true hwait]; rfl)

theorem exec_syncTimeout {at_ : Instant} (ha : (s.start t).alive = true) (hw : (s.start t).clk.syncWait = some at_) (he : (s.start t).clk.syncAt = none)
    (hwait : at_ + (s.start t).f R.CLK_CTL_SYNC_TO * msQ ≤ (s.start t).now) :
    exec (.syncTimeout t) s = .next ((((s.start t).setB R.CLK_SYNC_STAT_TIMEOUT true).post E.SYNC_TIMEOUT).sealNow) := by
  refine congrArg Host.Outcome.next ?_
  rw [hw, he]
  exact State.doIf_of (by rw [ha, decide_eq_true hwait]; rfl)

/-- A sealing that a bit of CLK_SYNC_STAT and an event announce. -/
theorem announced_sealing (u : State) {r : FRef} (hb : r.blk = .clk) (hk : r.key 0 0 = 8) (hr : r.lo = r.hi ∧ r.hi < 32) (e : Ev) (hroom : u.room)
    (s' : State) (hs : s' = ((u.setB r true).post e).sealNow) :
    s'.b r = true ∧ s'.b R.CFG_STAT_SEALED = true ∧ s'.clk.ungatedAt = some u.now ∧ s'.clk.syncWait = none ∧ Posts u s' e := by
  have hset : ((u.setB r true).post e).b r = true := by
    rw [b_post _ _ _ _ _ _ _ _ (by rw [hb]; decide), b_setB_same _ _ _ _ _ hr]
  have hnow : ((u.setB r true).post e).now = u.now := by rw [State.post_now, State.setB_now]
  have htch : Touches (2 ^ r.blk.num) u (u.setB r true) := tch_setB
  rw [hb] at htch
  have hrep : Reports u ((u.setB r true).post e) e := htch.reports (by decide) (by decide) hroom ..
  generalize (u.setB r true).post e = v at *
  subst hs
  obtain ⟨hsealed, hun, hwait, hstat⟩ := sealNow_shows v
  refine ⟨?_, hsealed, by rw [hun, hnow], hwait, hrep.posts tch_sealNow.q⟩
  rw [← hset]
  refine b_of_f ?_
  unfold State.f
  rw [hb, hk, hstat]

theorem exec_syncEdge_shut (h : (s.start t).refOk 0 = false) : exec (.syncEdge t) s = .next (s.start t) := by
  refine congrArg Host.Outcome.next (if_pos ?_)
  rw [h]
  simp

theorem exec_syncEdge_ungated {e : Instant} (hr : (s.start t).inReset = false) (hok : (s.start t).refOk 0 = true) (h : (s.start t).clk.ungatedAt = some e) :
    exec (.syncEdge t) s =
      .next (((s.start t).setF R.CLK_SYNC_STAT_SYNC_PH ((8 - ((s.start t).now - e) % 8) % 8)).setB R.CLK_SYNC_STAT_SYNC_SEEN true) := by
  refine congrArg Host.Outcome.next ((if_neg ?_).trans ?_)
  · rw [hr, hok]
    decide
  · rw [h]

theorem exec_syncEdge_waiting {at_ : Instant} (hr : (s.start t).inReset = false) (hok : (s.start t).refOk 0 = true)
    (h : (s.start t).clk.ungatedAt = none) (hw : (s.start t).clk.syncWait = some at_) (he : (s.start t).clk.syncAt = none) :
    exec (.syncEdge t) s = .next { s.start t with clk := { (s.start t).clk with syncAt := some (s.start t).now } } := by
  refine congrArg Host.Outcome.next ((if_neg ?_).trans ?_)
  · rw [hr, hok]
    decide
  · rw [h]
    exact State.doIf_of (by rw [hw, he]; rfl)

theorem syncPhase_shows (u : State) (d : Nat) (s' : State)
    (hs : s' = (u.setF R.CLK_SYNC_STAT_SYNC_PH ((8 - d % 8) % 8)).setB R.CLK_SYNC_STAT_SYNC_SEEN true) :
    s'.b R.CLK_SYNC_STAT_SYNC_SEEN = true ∧ (d + s'.f R.CLK_SYNC_STAT_SYNC_PH) % 8 = 0 ∧ s'.f R.CLK_SYNC_STAT_SYNC_PH < 8 ∧ s'.clk = u.clk := by
  subst hs
  rw [b_setB_same _ _ _ _ _ (by decide), f_setB_bits _ _ _ _ _ _ (by decide), f_setF_fits _ _ _ _ (by decide) (show (8 - d % 8) % 8 < 2 ^ 3 by omega), State.setB_clk,
    State.setF_clk]
  exact ⟨rfl, by omega, by omega, rfl⟩

end Sync

/-! ## Pod clocks -/

section Pods
variable {s w u : State} {t : Instant} {fn : Nat} {data : Word}

theorem exec_go (h : (s.start t).actionWrite fn R.CLK_POD_REQ_GO data = (w, true)) : exec (.go t fn data) s = .next w.doGo :=
  action_passes h fun s go => s.doIf go (·.doGo)

/-- A refused request, as CLK shows and reports it. -/
theorem doGo_refused {pod mhz r : Nat} (hpod : pod = w.f R.CLK_POD_REQ_POD) (hmhz : mhz = w.f R.CLK_POD_REQ_MHZ) (h : w.podRefusal pod mhz = some r)
    (hr : r < 8) (hroom : w.room) : w.doGo.f R.CLK_POD_REQ_STAT_RESULT = r ∧ w.doGo.b R.CLK_POD_REQ_STAT_DONE = true ∧ w.doGo.clk = w.clk
      ∧ Reports w w.doGo E.POD_CLK_REFUSED (subject pod) (nw r) := by
  unfold State.doGo
  dsimp only
  rw [← hpod, ← hmhz, h]
  dsimp only
  rw [f_post _ _ _ _ _ _ _ _ (by decide), b_post _ _ _ _ _ _ _ _ (by decide), State.post_clk, f_setB_bits _ _ _ _ _ _ (by decide),
    f_setF_fits _ _ _ _ (by decide) hr, b_setB_same _ _ _ _ _ (by decide), State.setB_clk, State.setF_clk]
  have htch : Touches 4096 w ((w.setF R.CLK_POD_REQ_STAT_RESULT r).setB R.CLK_POD_REQ_STAT_DONE true) :=
    tch_setB.comp (by decide) (tch_setF.mono (by decide))
  exact ⟨rfl, rfl, rfl, htch.reports (by decide) (by decide) hroom ..⟩

theorem doGo_accepted {pod mhz : Nat} (hpod : pod = w.f R.CLK_POD_REQ_POD) (hmhz : mhz = w.f R.CLK_POD_REQ_MHZ) (h : w.podRefusal pod mhz = none) :
    w.doGo.clk = { w.clk with podReq := some (pod, mhz) } ∧ w.doGo.b R.CLK_POD_REQ_STAT_BUSY = true ∧ w.doGo.f R.CLK_POD_REQ_STAT_RESULT = 0
      ∧ w.doGo.sys = w.sys := by
  unfold State.doGo
  dsimp only
  rw [← hpod, ← hmhz, h]
  dsimp only
  rw [State.setB_clk, State.setF_clk, b_setB_same _ _ _ _ _ (by decide), f_setB_bits _ _ _ _ _ _ (by decide),
    f_setF_fits _ _ _ _ (by decide) (by decide), State.setB_sys, State.setF_sys]
  exact ⟨rfl, rfl, rfl, rfl⟩

/-- A migration from or to the pod. -/
theorem podMoves_iff (w : State) (pod : Nat) : (w.loop.mig.any fun m => m.srcPod == pod || m.dstPod == pod) = true
    ↔ ∃ m, w.loop.mig = some m ∧ (m.srcPod = pod ∨ m.dstPod = pod) := by
  simp [Option.any_eq_true]

theorem podRefusal_role {pod mhz : Nat} (h : w.podHasRole pod = true) : w.podRefusal pod mhz = some 1 := by
  unfold State.podRefusal
  rw [if_pos h]

theorem podRefusal_moving {pod mhz : Nat} (h : w.podHasRole pod = false) (hm : ∃ m, w.loop.mig = some m ∧ (m.srcPod = pod ∨ m.dstPod = pod)) :
    w.podRefusal pod mhz = some 2 := by
  unfold State.podRefusal
  rw [if_neg (by rw [h]; decide), if_pos ((podMoves_iff w pod).mpr hm)]

theorem podRefusal_free {pod mhz : Nat} (h : w.podHasRole pod = false) (hm : ¬ ∃ m, w.loop.mig = some m ∧ (m.srcPod = pod ∨ m.dstPod = pod)) :
    w.podRefusal pod mhz = if w.clk.podReq.isSome then some 3 else if mhz < 250 ∨ 1000 < mhz ∨ 24 ≤ pod then some 4 else none := by
  unfold State.podRefusal
  rw [if_neg (by rw [h]; decide), if_neg (mt (podMoves_iff w pod).mp hm)]

theorem podRefusal_idle {pod mhz : Nat} (h : w.podHasRole pod = false) (hm : ¬ ∃ m, w.loop.mig = some m ∧ (m.srcPod = pod ∨ m.dstPod = pod))
    (hreq : w.clk.podReq = none) : w.podRefusal pod mhz = if mhz < 250 ∨ 1000 < mhz ∨ 24 ≤ pod then some 4 else none := by
  rw [podRefusal_free h hm, hreq]
  rfl

/-- The realised clock is at most 50 ppm above the programmed one (log 111). -/
theorem podKhz_bounds {mhz : Nat} (hlo : 250 ≤ mhz) (hhi : mhz ≤ 1000) : mhz * 1000 ≤ podKhz mhz ∧ podKhz mhz * 20000 < mhz * 1000 * 20001 := by
  unfold podKhz
  have hdiv := Nat.div_add_mod 24576000 mhz
  have hmod := Nat.mod_lt 24576000 (show 0 < mhz by omega)
  generalize hd : 24576000 / mhz = d at *
  generalize 24576000 % mhz = r at *
  have hpos : 0 < d := by
    rw [← hd]
    exact Nat.div_pos (by omega) (by omega)
  have hk := Nat.div_add_mod 24576000000 d
  have hkmod := Nat.mod_lt 24576000000 hpos
  constructor
  · rw [Nat.le_div_iff_mul_le hpos]
    nlinarith
  · have hle : 24576000000 / d * d ≤ 24576000000 := Nat.div_mul_le_self ..
    generalize 24576000000 / d = k at *
    by_contra hge
    have hge' : mhz * 1000 * 20001 * d ≤ k * 20000 * d := Nat.mul_le_mul_right d (by omega)
    have hprod : mhz * d = 24576000 - r := by omega
    have h1 : mhz * 1000 * 20001 * d = (mhz * d) * 20001000 := by ring
    have h2 : k * 20000 * d = (k * d) * 20000 := by ring
    rw [h1, h2, hprod] at hge'
    omega

/-- A pod clock is changed, shown and reported. -/
def State.podChanged (s : State) (pod mhz : Nat) : State :=
  let s := { s with clk := { s.clk with podReq := none } }
  let s := ((s.setPodClk pod mhz).setB R.CLK_POD_REQ_STAT_BUSY false).setF R.CLK_POD_REQ_STAT_RESULT 0
  (s.setB R.CLK_POD_REQ_STAT_DONE true).post E.POD_CLK_CHANGED (subject pod)

theorem exec_podClkChanged {pod mhz : Nat} (h : (s.start t).clk.podReq = some (pod, mhz)) :
    exec (.podClkChanged t) s = .next ((s.start t).podChanged pod mhz) := by
  refine congrArg Host.Outcome.next ?_
  rw [h]
  rfl

theorem podChanged_clock {pod mhz : Nat} (hp : pod < 24) (hlo : 250 ≤ mhz) (hhi : mhz ≤ 1000) :
    (u.podChanged pod mhz).f R.CLK_POD_MHZ pod = mhz ∧ (u.podChanged pod mhz).f R.CLK_POD_KHZ pod = podKhz mhz := by
  have hkey : ∀ pod < 24, R.CLK_POD_MHZ.key pod 0 ≠ R.CLK_POD_REQ_STAT_BUSY.key 0 0 := by decide
  have hk := hkey pod hp
  have hbound := podKhz_bounds hlo hhi
  unfold State.podChanged State.setPodClk
  dsimp only
  rw [f_post _ _ _ _ _ _ _ _ (by decide), f_post _ _ _ _ _ _ _ _ (by decide), f_setB_key (r := R.CLK_POD_REQ_STAT_DONE) _ _ hk,
    f_setB_key (r := R.CLK_POD_REQ_STAT_DONE) (q := R.CLK_POD_KHZ) _ _ hk, f_setF_key (r := R.CLK_POD_REQ_STAT_RESULT) _ _ hk,
    f_setF_key (r := R.CLK_POD_REQ_STAT_RESULT) (q := R.CLK_POD_KHZ) _ _ hk, f_setB_key _ _ hk, f_setB_key (q := R.CLK_POD_KHZ) _ _ hk,
    f_setF_bits _ _ _ _ _ _ (by decide), f_setF_fits _ _ _ _ (by decide) (show mhz < 2 ^ 10 by omega),
    f_setF_fits _ _ _ _ (by decide) (show podKhz mhz < 2 ^ 20 by omega)]
  exact ⟨rfl, rfl⟩

theorem podChanged_done (u : State) (pod mhz : Nat) (hroom : u.room) : (u.podChanged pod mhz).clk.podReq = none
    ∧ (u.podChanged pod mhz).b R.CLK_POD_REQ_STAT_BUSY = false ∧ (u.podChanged pod mhz).b R.CLK_POD_REQ_STAT_DONE = true
    ∧ Reports u (u.podChanged pod mhz) E.POD_CLK_CHANGED (subject pod) := by
  have hset (v : State) : Touches 4096 v (v.setPodClk pod mhz) := tch_setPodClk
  unfold State.podChanged
  dsimp only
  rw [State.post_clk, State.setB_clk, State.setF_clk, State.setB_clk, b_post _ _ _ _ _ _ _ _ (by decide), b_post _ _ _ _ _ _ _ _ (by decide),
    b_setB_same _ _ _ _ _ (by decide), b_setB_bits _ _ _ _ _ _ (by decide), b_setF_bits _ _ _ _ _ _ (by decide), b_setB_same _ _ _ _ _ (by decide)]
  have htch : Touches 1073745920 u ((((State.setPodClk { u with clk := { u.clk with podReq := none } } pod mhz).setB R.CLK_POD_REQ_STAT_BUSY false).setF
      R.CLK_POD_REQ_STAT_RESULT 0).setB R.CLK_POD_REQ_STAT_DONE true) :=
    tch_setB.comp (by decide) (tch_setF.comp (by decide) (tch_setB.comp (by decide) (tch_setPodClk.comp (by decide) (Touches.upd_clk (by decide) (.refl _ _)))))
  refine ⟨?_, rfl, rfl, htch.reports_ungated (by decide) ?_ hroom ..⟩
  · unfold State.setPodClk
    rw [State.setF_clk, State.setF_clk]
  · unfold State.setPodClk
    rw [State.setB_clk, State.setF_clk, State.setB_clk, State.setF_clk, State.setF_clk]

end Pods

/-! ## The statement -/

/-- Settles O57: each command by what its PLL, its reference, its wait or its pod is. -/
theorem clocksHoldOverHopAndSync : Obligations.ClocksHoldOverHopAndSync := by
  unfold Obligations.ClocksHoldOverHopAndSync
  rintro s u t rfl hreset
  refine ⟨?lost, ?qualified, ?lock, ?backup, ?hop, ?relocked, ?band, ?done, ?timeout, ?edge, ?shut, ?go, ?changed⟩
  case lost =>
    intro ref gap edges n href hok hroom hn hbad
    obtain ⟨hgone, hlost, hrep⟩ := refGone_shows (s.start t) ref hroom
    obtain ⟨hkeep, hkeepLost, hq⟩ := holdFollowers_keeps ((s.start t).refGone ref) ref ref
    refine ⟨_, exec_refLost hreset href hok hn hbad, hkeep.trans hgone, by rw [hkeepLost, hlost], hrep.posts hq, fun p hp => ?_⟩
    obtain ⟨hst, hpll, -, hcnt, hnow⟩ := pllView_iff.mp (refGone_view (s.start t) ref hp)
    have hfollow := holdFollowers_pll ((s.start t).refGone ref) ref hp
    rwa [hst, hpll, hcnt, hnow] at hfollow
  case qualified =>
    intro ref since href hno
    refine ⟨fun hnoref hlost hat hwait hroom => ?_, fun hnoref hstrap hboot hlost hwait => ?_⟩
    · have hexec := exec_refQualified hreset href hno hlost hwait fun _ => hat
      obtain ⟨hok, hclear, hnoref', -⟩ := refGot_b (s.start t) ref true
      rw [bootGoesOn_not (hnoref'.trans hnoref), State.doIf_true] at hexec
      obtain ⟨hkeep, hkeepLost, hq⟩ := refsBack_keeps ((s.start t).refGot ref true) ref ref
      refine ⟨_, hexec, hkeep.trans hok, by rw [hkeepLost, hclear], (refGot_reports (s.start t) ref hroom).posts hq, fun p hp href' hhop hst => ?_⟩
      obtain ⟨hst', hpll', -, -, hnow'⟩ := pllView_iff.mp (refGot_view (s.start t) ref true hp)
      have hback := refsBack_pll ((s.start t).refGot ref true) hp (by rw [hpll', href']) (by rw [hpll', hhop]) (by rw [hst', hst])
      rwa [hnow'] at hback
    · have hexec := exec_refQualified hreset href hno hlost hwait fun h => nomatch h
      obtain ⟨hok, -, hnoref', hstrap'⟩ := refGot_b (s.start t) ref false
      have hgot : Touches 1073745920 (s.start t) ((s.start t).refGot ref false) :=
        Touches.upd_clk (by decide) ((tch_setB_refOkF (s.start t) ref true).mono (by decide))
      have hpwr : ((s.start t).refGot ref false).pwr = (s.start t).pwr := hgot.1 .pwr (by decide)
      rw [State.doIf_false, bootGoesOn_clocks (hnoref'.trans hnoref) (hstrap'.trans hstrap) (by rw [hpwr, hboot])] at hexec
      obtain ⟨hok', hclear⟩ := bootClocks_shows ((s.start t).refGot ref false) ref
      exact ⟨_, hexec, hok'.trans hok, hclear, fun p hp => bootClocks_locked _ hp, (tch_bootClocks.sysSame (by decide)).trans (hgot.sysSame (by decide))⟩
  case lock =>
    intro p errs hp hst hok hroom hlen herr
    exact ⟨_, exec_lockLost hreset hp hst hok hlen herr, lockLost_shows _ hp hroom _ rfl⟩
  case backup =>
    intro p k hp hk hen hst hhop hboot hslot hok hwait
    refine ⟨_, exec_backupHop hreset hp hk hen hst hhop hboot hslot hok hwait, ?_⟩
    rw [beginHop_held hst]
    dsimp only
    rw [pll_setPll_same]
    exact ⟨rfl, rfl⟩
  case hop =>
    intro p k hp hk hhop hroom
    exact ⟨_, exec_slotHop hreset hp hhop, endHop_shows _ hp hk hroom _ rfl⟩
  case relocked =>
    intro p worst hp hst hw hwait hroom
    exact ⟨_, exec_pllRelocked hreset hp hst hw hwait, relocked_shows _ hroom _ rfl⟩
  case band =>
    intro p band code hp hb hst hwait
    exact ⟨_, exec_bandCopy hreset hp hst hwait, bandCopied_shows _ p band code hb _ rfl⟩
  case done =>
    intro at_ e ha hw he hwait hroom
    exact ⟨_, exec_syncDone ha hw he hwait, announced_sealing _ rfl rfl (by decide) _ hroom _ rfl⟩
  case timeout =>
    intro at_ ha hw he hwait hroom
    exact ⟨_, exec_syncTimeout ha hw he hwait, announced_sealing _ rfl rfl (by decide) _ hroom _ rfl⟩
  case edge =>
    intro hok
    refine ⟨fun e hun _ => ⟨_, exec_syncEdge_ungated hreset hok hun, syncPhase_shows _ _ _ rfl⟩, fun at_ hun hw he => ?_⟩
    exact ⟨_, exec_syncEdge_waiting hreset hok hun hw he, rfl, rfl⟩
  case shut => exact fun hok => ⟨_, exec_syncEdge_shut hok, rfl⟩
  case go =>
    intro w fn pod mhz data hgo hpod hmhz hroom
    have hexec := exec_go hgo
    refine ⟨fun hrole => ⟨_, hexec, doGo_refused hpod hmhz (podRefusal_role hrole) (by decide) hroom⟩,
      fun hrole hm => ⟨_, hexec, doGo_refused hpod hmhz (podRefusal_moving hrole hm) (by decide) hroom⟩, fun hrole hm hreq => ⟨_, hexec, ?_⟩,
      fun hrole hm hreq hrange => ⟨_, hexec, ?_⟩, fun hrole hm hreq hrange => ⟨_, hexec, ?_⟩⟩
    · exact doGo_refused hpod hmhz ((podRefusal_free hrole hm).trans (if_pos (Option.isSome_iff_ne_none.mpr hreq))) (by decide) hroom
    · exact doGo_refused hpod hmhz ((podRefusal_idle hrole hm hreq).trans (if_pos (by omega))) (by decide) hroom
    · exact doGo_accepted hpod hmhz ((podRefusal_idle hrole hm hreq).trans (if_neg (by omega)))
  case changed =>
    intro pod mhz hreq hp hlo hhi hroom
    obtain ⟨hmhz, hkhz⟩ := podChanged_clock (u := s.start t) hp hlo hhi
    obtain ⟨hlow, hhigh⟩ := podKhz_bounds hlo hhi
    exact ⟨_, exec_podClkChanged hreq, hmhz, by rw [hkhz]; exact hlow, by rw [hkhz]; exact hhigh, podChanged_done _ pod mhz hroom⟩

end Sys2Proof.Machine
end

section
/-! PROOFS. O40. Reliability: uncorrectable words, scrubbing, register checks, background tests, aging and life (R464 to R481). -/
namespace Sys2Proof.Machine

/-! ## Uncorrectable words of kernels -/

section Kernels
variable {s u : State} {t : Instant}

theorem exec_ueKernel {pod k mem word : Nat} (hs : (s.start t).sealed = true) (hpod : pod < 24) (hk : k < 16) (hmem : mem < 2) :
    exec (.ueKernel t pod k mem word) s = .next ((s.start t).kernelWord (16 * pod + k) mem word) :=
  congrArg Host.Outcome.next (State.doIf_of (by rw [hs, decide_eq_true hpod, decide_eq_true hk, decide_eq_true hmem]; rfl))

/-- An uncorrectable word of a kernel as REL shows and reports it. -/
def State.kernelWordShown (s : State) (p mem word : Nat) : State :=
  (s.uncorrectable mem (p / 16) (p % 16) word).post E.UE_KERNEL (kernelSubject p) (nw mem) (nw word)

/-- What follows from it for a safety pair, or for another kernel. -/
def State.kernelLost (s : State) (p : Nat) : State :=
  match s.pairOf p with
  | some q =>
    s.doIf (s.safeOn && (s.pairState q == spLockstep || s.pairState q == spDraining))
      (fun s => (s.post E.LOCKSTEP_MISMATCH (subject q)).pairFault q fcMismatch)
  | none =>
    if s.isGone p then s
    else { s.retire p with rel := { (s.retire p).rel with first := (s.retire p).rel.first ++ [{ kernel := p, why := 1 }] } }

theorem kernelWord_eq (s : State) (p mem word : Nat) : s.kernelWord p mem word = (s.kernelWordShown p mem word).kernelLost p := rfl

theorem qext_kernelLost (s : State) (p : Nat) : QExt s (s.kernelLost p) := by
  unfold State.kernelLost
  split
  · exact (QExt.refl s).doIf fun x hx => (hx.trans (QExt.post ..)).trans tch_pairFault.q
  · split
    · exact .refl s
    · have h : QExt s (s.retire p) := tch_retire.q
      exact h

theorem tch_kernelWordShown (s : State) (p mem word : Nat) : Touches 73729 s (s.kernelWordShown p mem word) :=
  tch_post.comp (by decide) (tch_uncorrectable.mono (by decide))

theorem pairOf_of_parts {s v : State} (hrel : v.rel = s.rel) (hsea : v.sea = s.sea) (p : Nat) : v.pairOf p = s.pairOf p := by
  unfold State.pairOf State.logicalOf State.role State.safetyKernels
  rw [hrel, hsea]

theorem isGone_of_rel {s v : State} (hrel : v.rel = s.rel) (p : Nat) : v.isGone p = s.isGone p := by
  unfold State.isGone
  rw [hrel]

/-- A kernel beside the safety pairs waits first for a test. -/
theorem kernelLost_first {p : Nat} (hpair : s.pairOf p = none) (hgone : s.isGone p = false) :
    { kernel := p, why := 1 } ∈ (s.kernelLost p).rel.first := by
  unfold State.kernelLost
  rw [hpair]
  dsimp only
  rw [if_neg (by rw [hgone]; decide)]
  exact List.mem_append_right _ (List.mem_singleton_self _)

theorem kernelWord_shows (u : State) (p mem word : Nat) (hroom : u.room) :
    Posts u (u.kernelWord p mem word) E.UE_KERNEL (kernelSubject p) (nw mem) (nw word)
      ∧ (u.pairOf p = none → u.isGone p = false → { kernel := p, why := 1 } ∈ (u.kernelWord p mem word).rel.first) := by
  have htch := tch_kernelWordShown u p mem word
  have hrel : (u.kernelWordShown p mem word).rel = u.rel := htch.1 .rel (by decide)
  have hsea : (u.kernelWordShown p mem word).sea = u.sea := htch.1 .sea (by decide)
  rw [kernelWord_eq]
  refine ⟨?_, fun hpair hgone => kernelLost_first (by rw [pairOf_of_parts hrel hsea, hpair]) (by rw [isGone_of_rel hrel, hgone])⟩
  have hrep : Reports u (u.kernelWordShown p mem word) E.UE_KERNEL (kernelSubject p) (nw mem) (nw word) :=
    (tch_uncorrectable : Touches 8192 u _).reports (by decide) (by decide) hroom ..
  exact hrep.posts (qext_kernelLost _ p)

end Kernels

/-! ## Scrubbing -/

section Scrub
variable {s u : State} {t : Instant} {mem pod unit word : Nat}

theorem relOn_of (hs : u.sealed = true) (hen : u.b R.REL_CTL_EN = true) : u.relOn = true := by
  unfold State.relOn
  rw [hs, hen]
  rfl

/-- The run of corrections of a word begins anew. -/
def State.runCleared (s : State) (key : Nat) : State := { s with rel := { s.rel with ceRun := kset (0, 0) s.rel.ceRun key (0, 0) } }

theorem exec_scrubRead {errs : Nat} {other : Bool} {entry : Option Nat} (hon : (s.start t).relOn = true)
    (hscrub : (s.start t).b R.REL_CTL_SCRUB_EN = true) (hmem : mem < 4) :
    exec (.scrubRead t mem pod unit word errs other entry) s = .next
      (if errs = 0 ∨ (eccFixed errs ∧ other) then
        ((s.start t).doIf (eccFixed errs) (·.corrected mem pod unit word)).runCleared (wordKey mem pod unit word)
      else if eccFixed errs then (s.start t).scrubFixed mem pod unit word
      else (s.start t).scrubBad mem pod unit word entry) :=
  congrArg Host.Outcome.next (State.doIf_of (by rw [hon, hscrub, decide_eq_true hmem]; rfl))

theorem eccFixed_of {errs : Nat} (h : errs = 1 ∨ errs = 2) : eccFixed errs = true := by
  rcases h with rfl | rfl <;> rfl

theorem eccFixed_not {errs : Nat} (h : 3 ≤ errs) : eccFixed errs = false := by
  unfold eccFixed
  simp
  omega

theorem runCleared_run (s : State) (key : Nat) : kget (0, 0) (s.runCleared key).rel.ceRun key = (0, 0) := by
  unfold State.runCleared
  exact kget_kset_same _ _ _ (0, 0)

/-- LAST_ERR lies apart from the counts. -/
theorem f_lastErr (s : State) (ue : Bool) (mem pod unit word : Nat) {r : FRef} {i j : Nat} (hk : r.key i j ≠ 0x18) :
    (s.lastErr ue mem pod unit word).f r i j = s.f r i j := by
  unfold State.lastErr
  rw [f_setF_key (r := R.REL_LAST_ERR_WORD) _ _ hk, f_setF_key (r := R.REL_LAST_ERR_UNIT) _ _ hk, f_setF_key (r := R.REL_LAST_ERR_POD) _ _ hk,
    f_setF_key (r := R.REL_LAST_ERR_MEM) _ _ hk, f_setB_key (r := R.REL_LAST_ERR_UE) _ _ hk]

theorem corrected_count (s : State) (mem pod unit word : Nat) :
    (s.corrected mem pod unit word).f R.REL_CE_CNT_CE = min (s.f R.REL_CE_CNT_CE + 1) (2 ^ 32 - 1) := by
  unfold State.corrected
  rw [f_lastErr _ _ _ _ _ _ (by decide), f_setB_key _ _ (by decide), f_incF_same _ _ _ _ _ (by decide)]
  rfl

/-- A corrected word before a hard error is reported. -/
def State.scrubCounted (s : State) (mem pod unit word n : Nat) : State :=
  { s.corrected mem pod unit word with
    rel := { (s.corrected mem pod unit word).rel with
      ceRun := kset (0, 0) (s.corrected mem pod unit word).rel.ceRun (wordKey mem pod unit word) (n, s.scrubPass mem) } }

/-- A hard error is reported, and puts a kernel first in the tests. -/
def State.hardError (s : State) (mem pod unit word : Nat) : State :=
  let s := s.post E.CE_HARD (subject pod unit) (nw mem) (nw word)
  if mem < 2 then { s with rel := { s.rel with first := s.rel.first ++ [{ kernel := 16 * pod + unit, why := 0 }] } } else s

theorem scrubFixed_eq {run : Nat × Nat} {n : Nat} (hrun : run = kget (0, 0) u.rel.ceRun (wordKey mem pod unit word))
    (hn : n = if run.2 = u.scrubPass mem then run.1 else if run.2 + 1 = u.scrubPass mem then run.1 + 1 else 1) :
    u.scrubFixed mem pod unit word =
      (u.scrubCounted mem pod unit word n).doIf (n == 3 && run.2 != u.scrubPass mem) (·.hardError mem pod unit word) := by
  subst hrun hn
  rfl

theorem hardError_keeps (s : State) (mem pod unit word : Nat) : (s.hardError mem pod unit word).f R.REL_CE_CNT_CE = s.f R.REL_CE_CNT_CE
    ∧ (s.hardError mem pod unit word).rel.ceRun = s.rel.ceRun := by
  unfold State.hardError
  dsimp only
  split
  · rw [f_upd_rel, f_post _ _ _ _ _ _ _ _ (by decide), State.post_rel]
    exact ⟨rfl, rfl⟩
  · rw [f_post _ _ _ _ _ _ _ _ (by decide), State.post_rel]
    exact ⟨rfl, rfl⟩

theorem scrubCounted_touches (u : State) (mem pod unit word n : Nat) : Touches 2147491840 u (u.scrubCounted mem pod unit word n) :=
  Touches.upd_rel (by decide) (tch_corrected.mono (by decide))

theorem hardError_reports {v : State} {m : Nat} (h : Touches m u v) (hts : m &&& 18522046464 = 0) (hs : m.testBit 16 = false) (hroom : u.room)
    (mem pod unit word : Nat) : Reports u (v.hardError mem pod unit word) E.CE_HARD (subject pod unit) (nw mem) (nw word) := by
  have hrep := h.reports hts hs hroom E.CE_HARD (subject pod unit) (nw mem) (nw word)
  unfold State.hardError
  dsimp only
  split
  · obtain ⟨q, hq, hevt⟩ := hrep
    exact ⟨q, hq, hevt⟩
  · exact hrep

theorem scrubFixed_shows {run : Nat × Nat} {n : Nat} (hrun : run = kget (0, 0) u.rel.ceRun (wordKey mem pod unit word))
    (hn : n = if run.2 = u.scrubPass mem then run.1 else if run.2 + 1 = u.scrubPass mem then run.1 + 1 else 1) (hroom : u.room) (s' : State)
    (hs : s' = u.scrubFixed mem pod unit word) : s'.f R.REL_CE_CNT_CE = min (u.f R.REL_CE_CNT_CE + 1) (2 ^ 32 - 1)
      ∧ kget (0, 0) s'.rel.ceRun (wordKey mem pod unit word) = (n, u.scrubPass mem)
      ∧ (n = 3 → run.2 ≠ u.scrubPass mem → Reports u s' E.CE_HARD (subject pod unit) (nw mem) (nw word)) := by
  have hcount : (u.scrubCounted mem pod unit word n).f R.REL_CE_CNT_CE = min (u.f R.REL_CE_CNT_CE + 1) (2 ^ 32 - 1) :=
    (f_upd_rel ..).trans (corrected_count ..)
  have hset : kget (0, 0) (u.scrubCounted mem pod unit word n).rel.ceRun (wordKey mem pod unit word) = (n, u.scrubPass mem) := kget_kset_same ..
  have htch := scrubCounted_touches u mem pod unit word n
  rw [scrubFixed_eq hrun hn] at hs
  generalize u.scrubCounted mem pod unit word n = v at *
  subst hs
  cases hc : n == 3 && run.2 != u.scrubPass mem with
  | false =>
    rw [State.doIf_false]
    refine ⟨hcount, hset, fun h3 hne => ?_⟩
    rw [h3, bne_iff_ne.mpr hne] at hc
    exact absurd hc (by decide)
  | true =>
    rw [State.doIf_true]
    obtain ⟨hkeep, hrunKeep⟩ := hardError_keeps v mem pod unit word
    exact ⟨hkeep.trans hcount, by rw [hrunKeep, hset], fun _ _ => hardError_reports htch (by decide) (by decide) hroom mem pod unit word⟩

theorem scrubBad_block (u : State) (pod unit word : Nat) (hroom : u.room) (s' : State) (hs : s' = u.scrubBad 3 pod unit word none) :
    s'.b R.REL_STAT_UE_SEEN = true ∧ Reports u s' E.UE_BLOCK (subject unit) (nw word) ∧ s'.f R.REL_UE_CNT_UE = u.f R.REL_UE_CNT_UE := by
  have heq : u.scrubBad 3 pod unit word none = ((u.setB R.REL_STAT_UE_SEEN true).lastErr true 3 pod unit word).post E.UE_BLOCK (subject unit) (nw word) := rfl
  have htch : Touches 8192 u ((u.setB R.REL_STAT_UE_SEEN true).lastErr true 3 pod unit word) := tch_lastErr.comp (by decide) (tch_setB.mono (by decide))
  rw [hs, heq]
  refine ⟨?_, htch.reports (by decide) (by decide) hroom .., ?_⟩
  · rw [b_post _ _ _ _ _ _ _ _ (by decide), b_of_f (f_lastErr _ _ _ _ _ _ (by decide)), b_setB_same _ _ _ _ _ (by decide)]
  · rw [f_post _ _ _ _ _ _ _ _ (by decide), f_lastErr _ _ _ _ _ _ (by decide), f_setB_key _ _ (by decide)]

end Scrub

/-! ## Register checks -/

section Check
variable {s u : State} {t : Instant}

/-- The check of one register. -/
def State.checkReg (s : State) (a : Nat × Word) : State :=
  match findReg a.1 0 with
  | some h => s.doIf (h.isSealed && (a.2 ^^^ s.word h.blk h.key) &&& h.sealedBits != 0) (·.post E.REG_RESTORED (subject (a.1 % 0x10000 / 4) h.blk.num))
  | none => s

def State.checkTimed (s : State) : State := { s with rel := { s.rel with checkAt := s.now } }

theorem exec_registerCheck {found : List (Nat × Word)} (hon : (s.start t).relOn = true) (hwait : (s.start t).rel.checkAt + 100 * msQ ≤ (s.start t).now) :
    exec (.registerCheck t found) s = .next (found.foldl State.checkReg (s.start t).checkTimed) :=
  congrArg Host.Outcome.next (State.doIf_of (by rw [hon, decide_eq_true hwait]; rfl))

theorem checkReg_cases (s : State) (a : Nat × Word) : s.checkReg a = s ∨ ∃ e subj w0 w1, s.checkReg a = s.post e subj w0 w1 := by
  unfold State.checkReg
  split
  · unfold State.doIf
    split
    · exact .inr ⟨_, _, _, _, rfl⟩
    · exact .inl rfl
  · exact .inl rfl

/-- A check posts or does nothing. -/
theorem checkReg_keeps (s : State) (a : Nat × Word) : (∀ b k, b ≠ .sys → (s.checkReg a).word b k = s.word b k) ∧ (s.checkReg a).rel = s.rel
    ∧ (s.checkReg a).shortTs = s.shortTs ∧ QExt s (s.checkReg a) ∧ (s.checkReg a).sys.queue.length ≤ s.sys.queue.length + 1 := by
  rcases checkReg_cases s a with h | ⟨e, subj, w0, w1, h⟩
  · rw [h]
    exact ⟨fun _ _ _ => rfl, rfl, rfl, .refl s, Nat.le_succ _⟩
  · rw [h]
    refine ⟨fun b k hb => word_post' _ _ _ _ _ _ _ hb, State.post_rel .., tch_post.shortTs (by decide), .post .., ?_⟩
    by_cases hroom : s.room
    · obtain ⟨q, hq, -⟩ := State.post_sys s e subj w0 w1 hroom
      rw [hq]
      simp
    · have hfull : (s.post e subj w0 w1).sys.queue = s.sys.queue := by
        unfold State.post
        rw [if_neg (show ¬ s.sys.queue.length < 64 from hroom)]
      rw [hfull]
      exact Nat.le_succ _

theorem checkReg_posts {a : Nat × Word} {h : RegHit} (hfind : findReg a.1 0 = some h) (hsealed : h.isSealed = true)
    (hdiff : (a.2 ^^^ s.word h.blk h.key) &&& h.sealedBits ≠ 0) (hroom : s.room) :
    Reports s (s.checkReg a) E.REG_RESTORED (subject (a.1 % 0x10000 / 4) h.blk.num) := by
  unfold State.checkReg
  rw [hfind]
  dsimp only
  rw [State.doIf_of (by rw [hsealed, bne_iff_ne.mpr hdiff]; rfl)]
  exact State.post_sys _ _ _ _ _ hroom

/-- A list of checks that SYS has room for reports each changed register. -/
theorem checks_post {u : State} (found : List (Nat × Word)) : ∀ s : State, (∀ b k, b ≠ .sys → s.word b k = u.word b k) → s.shortTs = u.shortTs → QExt u s →
    s.sys.queue.length + found.length ≤ 64 → ∀ a ∈ found, ∀ h, findReg a.1 0 = some h → h.isSealed = true →
      (a.2 ^^^ u.word h.blk h.key) &&& h.sealedBits ≠ 0 → h.blk ≠ .sys →
      Posts u (found.foldl State.checkReg s) E.REG_RESTORED (subject (a.1 % 0x10000 / 4) h.blk.num) := by
  induction found with
  | nil => exact fun s _ _ _ _ a ha => absurd ha (by simp)
  | cons b found ih =>
    intro s hword hts hq hlen a ha h hfind hsealed hdiff hblk
    obtain ⟨hw, -, ht, hqb, hl⟩ := checkReg_keeps s b
    rw [List.length_cons] at hlen
    rcases List.mem_cons.mp ha with rfl | hin
    · have hrep := checkReg_posts (s := s) hfind hsealed (by rw [hword _ _ hblk]; exact hdiff) (by unfold State.room; omega)
      refine hrep.after hq hts ?_
      exact foldl_inv (P := QExt (s.checkReg a)) found _ (.refl _) fun x y hx => hx.trans (checkReg_keeps x y).2.2.2.1
    · exact ih _ (fun b' k hb => (hw b' k hb).trans (hword b' k hb)) (ht.trans hts) (hq.trans hqb) (by omega) a hin h hfind hsealed hdiff hblk

theorem checks_keep (found : List (Nat × Word)) (s : State) : (∀ b k, b ≠ .sys → (found.foldl State.checkReg s).word b k = s.word b k)
    ∧ (found.foldl State.checkReg s).rel = s.rel :=
  foldl_inv (P := fun x => (∀ b k, b ≠ .sys → x.word b k = s.word b k) ∧ x.rel = s.rel) found s ⟨fun _ _ _ => rfl, rfl⟩ fun x a hx => by
    obtain ⟨hw, hrel, -⟩ := checkReg_keeps x a
    exact ⟨fun b k hb => (hw b k hb).trans (hx.1 b k hb), hrel.trans hx.2⟩

end Check

/-! ## Background tests -/

section Tests
variable {s u : State} {t : Instant}

theorem exec_backgroundTest {r : TestReq} {rs : List TestReq} (hon : (s.start t).relOn = true) (hidle : (s.start t).testIdle = true)
    (hfirst : (s.start t).rel.first = r :: rs) :
    exec (.backgroundTest t) s = .next (State.selectTest { s.start t with rel := { (s.start t).rel with first := rs } } r) := by
  refine congrArg Host.Outcome.next ((State.doIf_of ?_).trans ?_)
  · rw [hon, hidle]
    rfl
  · unfold State.nextTest
    rw [hfirst]

theorem selectTest_spare {v : State} {r : TestReq} (h : v.logicalOf r.kernel = none) : v.selectTest r = v.beginTests [r] := by
  unfold State.selectTest
  rw [h]

theorem beginTests_shows (v : State) (rs : List TestReq) : (v.beginTests rs).rel = { v.rel with testing := rs }
    ∧ (v.beginTests rs).f R.REL_BIST_PHASE = 2 := by
  unfold State.beginTests
  dsimp only
  rw [f_upd_rel, f_setF_bits _ _ _ _ _ _ (by decide), f_setF_bits _ _ _ _ _ _ (by decide), f_setF_fits _ _ _ _ (by decide) (by decide),
    State.setF_rel, State.setF_rel, State.setF_rel]
  exact ⟨rfl, rfl⟩

/-- The end of a test. -/
theorem endTest_rel (v : State) : v.endTest.rel = { v.rel with moving := none, aborts := 0, testing := [], pair := none, pairBad := false, askedNow := false } := by
  have hover : v.testOver.rel = { v.rel with moving := none, aborts := 0, testing := [], pair := none, pairBad := false, askedNow := false } := by
    unfold State.testOver
    rfl
  unfold State.endTest
  dsimp only
  cases v.rel.askedNow with
  | false => rw [State.doIf_false, hover]
  | true => rw [State.doIf_true, State.setB_rel, hover]

theorem endTest_seen (v : State) : v.endTest.b R.REL_STAT_BIST_FAIL_SEEN = v.b R.REL_STAT_BIST_FAIL_SEEN := by
  have hover : v.testOver.b R.REL_STAT_BIST_FAIL_SEEN = v.b R.REL_STAT_BIST_FAIL_SEEN := by
    unfold State.testOver
    rw [b_upd_rel, b_setF_key _ _ (by decide)]
  unfold State.endTest
  dsimp only
  cases v.rel.askedNow with
  | false => rw [State.doIf_false, hover]
  | true => rw [State.doIf_true, b_setB_key _ _ (by decide), hover]

theorem showPods_rel (v : State) : v.showPods.rel = v.rel := tch_showPods.1 .rel (by decide)

/-- The totals of the pods lie apart from BIST_FAIL_SEEN. -/
theorem showPods_seen (v : State) : v.showPods.b R.REL_STAT_BIST_FAIL_SEEN = v.b R.REL_STAT_BIST_FAIL_SEEN := by
  have hkey (n : Nat) : R.REL_STAT_BIST_FAIL_SEEN.key 0 0 ≠ R.REL_POD_SPARE.key n 0 := by
    unfold FRef.key
    simp only [R.REL_STAT_BIST_FAIL_SEEN, R.REL_POD_SPARE]
    omega
  unfold State.showPods
  extract_lets unb pods left
  have hpods : pods.b R.REL_STAT_BIST_FAIL_SEEN = v.b R.REL_STAT_BIST_FAIL_SEEN := by
    refine foldl_inv (P := fun x => x.b R.REL_STAT_BIST_FAIL_SEEN = v.b R.REL_STAT_BIST_FAIL_SEEN) _ v rfl fun x n hx => ?_
    dsimp only
    rw [b_setF_key (r := R.REL_POD_UNBACKED) _ _ (hkey n), b_setF_key (r := R.REL_POD_FAILED) _ _ (hkey n), b_setB_key _ _ (hkey n), hx]
  rw [b_setF_bits _ _ _ _ _ _ (by decide)]
  show (pods.setF R.REL_STAT_SPARES_LEFT _).b _ = _
  rw [b_setF_bits _ _ _ _ _ _ (by decide), hpods]

theorem setGone_gone (v : State) (p n : Nat) : kget 0 (v.setGone p n).rel.gone p = n := by
  unfold State.setGone
  exact kget_kset_same _ _ _ n

/-- A kernel mapped out, before the totals of its pod are shown. -/
def State.mapShown (s : State) (p : Nat) : State := ((s.setGone p 2).setB R.REL_STAT_BIST_FAIL_SEEN true).post E.BIST_FAIL (kernelSubject p)

theorem mapOut_eq (s : State) (p : Nat) : s.mapOut p = (s.mapShown p).showPods := rfl

theorem mapOut_shows (v : State) (p : Nat) : kget 0 (v.mapOut p).rel.gone p = 2 ∧ (v.mapOut p).b R.REL_STAT_BIST_FAIL_SEEN = true := by
  rw [mapOut_eq, showPods_rel, showPods_seen]
  unfold State.mapShown
  rw [State.post_rel, State.setB_rel, b_post _ _ _ _ _ _ _ _ (by decide), b_setB_same _ _ _ _ _ (by decide)]
  exact ⟨setGone_gone .., rfl⟩

theorem mapShown_reports (v : State) (p : Nat) (hroom : v.room) : Reports v (v.mapShown p) E.BIST_FAIL (kernelSubject p) :=
  (tch_setB.comp (by decide) (tch_setGone.mono (by decide)) : Touches 2147491840 v _).reports (by decide) (by decide) hroom ..

variable {r : TestReq} {pod k : Nat}

theorem exec_kernelTestDone {pass ok : Bool} (hon : (s.start t).relOn = true) (htest : (s.start t).rel.testing = [r]) (hk : r.kernel = 16 * pod + k)
    (hpair : (s.start t).rel.pair = none) : exec (.kernelTestDone t pod k pass ok) s =
      .next (if pass then (s.start t).testPassed r else ((s.start t).retire r.kernel).mapOut r.kernel).endTest := by
  refine congrArg Host.Outcome.next ?_
  rw [htest, List.find?_cons_of_pos (by rw [hk]; exact beq_self_eq_true _), hpair]
  exact State.doIf_of hon

theorem testFailed_shows (u : State) (p : Nat) (hroom : (u.retire p).room) (s' : State) (hs : s' = ((u.retire p).mapOut p).endTest) :
    s'.rel.testing = [] ∧ kget 0 s'.rel.gone p = 2 ∧ s'.b R.REL_STAT_BIST_FAIL_SEEN = true ∧ Posts u s' E.BIST_FAIL (kernelSubject p) := by
  have hq : QExt u (u.retire p) := tch_retire.q
  have hts : (u.retire p).shortTs = u.shortTs := tch_retire.shortTs (by decide)
  have hrep := mapShown_reports (u.retire p) p hroom
  obtain ⟨hgone, hseen⟩ := mapOut_shows (u.retire p) p
  have hshow : QExt ((u.retire p).mapShown p) ((u.retire p).mapOut p) := tch_showPods.q
  subst hs
  generalize (u.retire p).mapOut p = v at *
  rw [endTest_seen, endTest_rel]
  exact ⟨rfl, hgone, hseen, hrep.after hq hts (hshow.trans tch_endTest.q)⟩

/-- A kernel that was out of use is restored, before the totals of its pod are shown. -/
def State.restoreShown (s : State) (r : TestReq) : State :=
  let l := s.logicalOf r.kernel
  let s := (s.setGone r.kernel 0).doIf (l.any fun k => s.role k != roleSafety) fun s => s.setBacking (l.getD 0) none
  s.post E.KERNEL_RESTORED (kernelSubject r.kernel)

theorem testPassed_gone (h : u.isGone r.kernel = true) : u.testPassed r = (u.restoreShown r).showPods := by
  unfold State.testPassed
  rw [if_pos h]
  rfl

theorem restoreShown_shows (u : State) (r : TestReq) (hroom : u.room) : kget 0 (u.restoreShown r).rel.gone r.kernel = 0
    ∧ Reports u (u.restoreShown r) E.KERNEL_RESTORED (kernelSubject r.kernel) := by
  unfold State.restoreShown
  extract_lets l v
  have hv : kget 0 v.rel.gone r.kernel = 0 := by
    unfold v
    exact (eq_doIf (fun x : State => kget 0 x.rel.gone r.kernel) rfl).trans (setGone_gone ..)
  have htch : Touches 2147483648 u v := .doIf tch_setGone fun x hx => tch_setBacking.comp (by decide) hx
  exact ⟨by rw [State.post_rel, hv], htch.reports (by decide) (by decide) hroom ..⟩

theorem testRestored_shows (u : State) (r : TestReq) (hgone : u.isGone r.kernel = true) (hroom : u.room) (s' : State) (hs : s' = (u.testPassed r).endTest) :
    s'.rel.testing = [] ∧ kget 0 s'.rel.gone r.kernel = 0 ∧ Posts u s' E.KERNEL_RESTORED (kernelSubject r.kernel) := by
  obtain ⟨hback, hrep⟩ := restoreShown_shows u r hroom
  have hshow : QExt (u.restoreShown r) (u.restoreShown r).showPods := tch_showPods.q
  subst hs
  rw [testPassed_gone hgone, endTest_rel, showPods_rel]
  exact ⟨rfl, hback, hrep.posts (hshow.trans tch_endTest.q)⟩

theorem testKept_shows (u : State) (r : TestReq) (hgone : u.isGone r.kernel = false) (s' : State) (hs : s' = (u.testPassed r).endTest) :
    s'.rel.testing = [] ∧ s'.rel.gone = u.rel.gone
      ∧ s'.rel.first = (r.src.bind u.physOf).toList.map (fun p => { kernel := p, why := 0 }) ++ u.rel.first := by
  subst hs
  rw [endTest_rel]
  unfold State.testPassed
  rw [if_neg (by rw [hgone]; decide)]
  cases r.src.bind u.physOf with
  | none => exact ⟨rfl, rfl, rfl⟩
  | some p => exact ⟨rfl, rfl, rfl⟩

end Tests

/-! ## Requests, aging and life -/

section Life
variable {s u w : State} {t : Instant} {fn : Nat} {data : Word}

theorem exec_test (h : (s.start t).actionWrite fn R.REL_CMD_TEST data = (w, true)) : exec (.test t fn data) s = .next
    (match w.testRefusal (w.f R.REL_CMD_POD) (w.f R.REL_CMD_LK) with
      | some r => (w.setF R.REL_CMD_RESULT r).setB R.REL_CMD_DONE true
      | none => { w.setF R.REL_CMD_RESULT 0 with rel := { w.rel with asked := some (16 * w.f R.REL_CMD_POD + w.f R.REL_CMD_LK) } }) :=
  action_passes h fun s go => s.doIf go fun s =>
      let pod := s.f R.REL_CMD_POD
      let lk := s.f R.REL_CMD_LK
      match s.testRefusal pod lk with
      | some r => (s.setF R.REL_CMD_RESULT r).setB R.REL_CMD_DONE true
      | none => { s.setF R.REL_CMD_RESULT 0 with rel := { s.rel with asked := some (16 * pod + lk) } }

theorem testRefusal_lt {pod lk r : Nat} (h : w.testRefusal pod lk = some r) : r < 8 := by
  unfold State.testRefusal at h
  dsimp only at h
  have hr : r = 1 ∨ r = 2 ∨ r = 3 := by
    split_ifs at h <;> simp_all
  omega

/-- The measurement of an hour begins: the link counts start anew. -/
def State.hourBegun (s : State) : State :=
  (List.range 148).foldl (fun s l => s.setF R.REL_LINK_CE_HOUR 0 l) { s with rel := { s.rel with ageAt := s.now, wires := [] } }

/-- What the measurement of a pod shows. -/
def State.podMeasured (s : State) (x : (Nat × Nat) × Nat) : State :=
  let n := x.2
  let slow := slowOf x.1.1 x.1.2
  let s := s.setF R.REL_AGE_SLOW slow n
  let warn := decide (s.f R.REL_THR_AGE_WARN * 10 ≤ slow)
  let s := if warn then (s.doIf (!s.b R.REL_AGE_WARN n) (·.setB R.REL_STAT_AGE_SEEN true)).raise R.REL_AGE_WARN n E.AGE_WARN (subject n)
    else s.setB R.REL_AGE_WARN false n
  if s.f R.REL_THR_AGE_LIMIT * 10 ≤ slow then s.raise R.REL_AGE_LIMIT n E.AGE_LIMIT (subject n) else s.setB R.REL_AGE_LIMIT false n

theorem exec_ageMeasure {counts : List (Nat × Nat)} (hon : (s.start t).relOn = true) (hwait : (s.start t).rel.ageAt + 3600 * secQ ≤ (s.start t).now) :
    exec (.ageMeasure t counts) s = .next ((counts.zipIdx.take 24).foldl State.podMeasured (s.start t).hourBegun) :=
  congrArg Host.Outcome.next (State.doIf_of (by rw [hon, decide_eq_true hwait]; rfl))

theorem linkKey_inj {l m : Nat} (h : l ≠ m) : R.REL_LINK_CE_HOUR.key l 0 ≠ R.REL_LINK_CE_HOUR.key m 0 := by
  unfold FRef.key
  simp only [R.REL_LINK_CE_HOUR]
  omega

theorem links_cleared (ls : List Nat) : ∀ v : State, ∀ l ∈ ls, (ls.foldl (fun s l => s.setF R.REL_LINK_CE_HOUR 0 l) v).f R.REL_LINK_CE_HOUR l = 0 := by
  have stays (ls : List Nat) (l : Nat) (v : State) (h : v.f R.REL_LINK_CE_HOUR l = 0) :
      (ls.foldl (fun s l => s.setF R.REL_LINK_CE_HOUR 0 l) v).f R.REL_LINK_CE_HOUR l = 0 :=
    foldl_inv (P := fun x => x.f R.REL_LINK_CE_HOUR l = 0) ls v h fun x m hx => by
      by_cases hm : l = m
      · rw [hm, f_setF_fits _ _ _ _ (by decide) (by decide)]
      · rw [f_setF_key _ _ (linkKey_inj hm), hx]
  induction ls with
  | nil => exact fun v l hl => absurd hl (by simp)
  | cons m ls ih =>
    intro v l hl
    rcases List.mem_cons.mp hl with rfl | hin
    · exact stays ls l _ (f_setF_fits _ _ _ _ (by decide) (by decide))
    · exact ih _ l hin

theorem hourBegun_shows (u : State) : u.hourBegun.rel.ageAt = u.now ∧ ∀ l < 148, u.hourBegun.f R.REL_LINK_CE_HOUR l = 0 := by
  unfold State.hourBegun
  refine ⟨?_, fun l hl => links_cleared _ _ l (List.mem_range.mpr hl)⟩
  refine foldl_inv (P := fun x => x.rel.ageAt = u.now) _ _ rfl fun x l hx => ?_
  rw [State.setF_rel, hx]

/-- A measurement leaves what lies apart from REL_AGE of its pod and REL_STAT. -/
theorem podMeasured_f (v : State) (x : (Nat × Nat) × Nat) {r : FRef} {i : Nat} (hb : r.blk = .rel) (hk : r.key i 0 ≠ R.REL_AGE_SLOW.key x.2 0)
    (hs : r.key i 0 ≠ R.REL_STAT_AGE_SEEN.key 0 0) : (v.podMeasured x).f r i = v.f r i := by
  unfold State.podMeasured
  extract_lets n slow v1 warn v2
  have h1 : v1.f r i = v.f r i := f_setF_key _ _ hk
  have h2 : v2.f r i = v1.f r i := by
    unfold v2
    split
    · refine (f_raise_apart _ R.REL_AGE_WARN r n i 0 _ _ _ _ (by rw [hb]; decide) (.inr (.inl hk))).trans ?_
      unfold State.doIf
      split
      · exact f_setB_key _ _ hs
      · rfl
    · exact f_setB_key _ _ hk
  rw [← h1, ← h2]
  split
  · exact f_raise_apart _ R.REL_AGE_LIMIT r n i 0 _ _ _ _ (by rw [hb]; decide) (.inr (.inl hk))
  · exact f_setB_key _ _ hk

theorem slowOf_lt (a b : Nat) : slowOf a b < 2 ^ 12 := by
  unfold slowOf satN
  split <;> omega

theorem podMeasured_slow (v : State) (x : (Nat × Nat) × Nat) : (v.podMeasured x).f R.REL_AGE_SLOW x.2 = slowOf x.1.1 x.1.2 := by
  have hk : R.REL_AGE_SLOW.key x.2 0 ≠ R.REL_STAT_AGE_SEEN.key 0 0 := by
    unfold FRef.key
    simp only [R.REL_AGE_SLOW, R.REL_STAT_AGE_SEEN]
    omega
  unfold State.podMeasured
  extract_lets n slow v1 warn v2
  have h1 : v1.f R.REL_AGE_SLOW x.2 = slow := f_setF_fits _ _ _ _ (by decide) (slowOf_lt ..)
  have h2 : v2.f R.REL_AGE_SLOW x.2 = v1.f R.REL_AGE_SLOW x.2 := by
    unfold v2
    split
    · refine (f_raise_apart _ R.REL_AGE_WARN R.REL_AGE_SLOW n n 0 _ _ _ _ (by decide) (.inr (.inr (by decide)))).trans ?_
      unfold State.doIf
      split
      · exact f_setB_key _ _ hk
      · rfl
    · exact f_setB_bits _ _ _ _ _ _ (by decide)
  refine Eq.trans ?_ (h2.trans h1)
  split
  · exact f_raise_apart _ R.REL_AGE_LIMIT R.REL_AGE_SLOW n n 0 _ _ _ _ (by decide) (.inr (.inr (by decide)))
  · exact f_setB_bits _ _ _ _ _ _ (by decide)

theorem podMeasured_rel (v : State) (x : (Nat × Nat) × Nat) : (v.podMeasured x).rel = v.rel := by
  have h : Touches 73729 v (v.podMeasured x) := by
    unfold State.podMeasured
    extract_lets n slow v1 warn v2
    have h1 : Touches 73729 v v1 := tch_setF.mono (by decide)
    have h2 : Touches 73729 v v2 :=
      .ite (tch_raise.comp (by decide) (.doIf h1 fun y hy => tch_setB.comp (by decide) hy)) (tch_setB.comp (by decide) h1)
    exact .ite (tch_raise.comp (by decide) h2) (tch_setB.comp (by decide) h2)
  exact h.1 .rel (by decide)

theorem measured_keeps (xs : List ((Nat × Nat) × Nat)) (v : State) {r : FRef} {i : Nat} (hb : r.blk = .rel)
    (hk : ∀ x ∈ xs, r.key i 0 ≠ R.REL_AGE_SLOW.key x.2 0) (hs : r.key i 0 ≠ R.REL_STAT_AGE_SEEN.key 0 0) :
    (xs.foldl State.podMeasured v).f r i = v.f r i := by
  induction xs generalizing v with
  | nil => rfl
  | cons x xs ih =>
    rw [List.foldl_cons, ih _ fun y hy => hk y (List.mem_cons_of_mem _ hy), podMeasured_f v x hb (hk x List.mem_cons_self) hs]

theorem ageKey_inj {n m : Nat} (h : n ≠ m) : R.REL_AGE_SLOW.key n 0 ≠ R.REL_AGE_SLOW.key m 0 := by
  unfold FRef.key
  simp only [R.REL_AGE_SLOW]
  omega

/-- Of measurements of pods in order, each pod shows its own. -/
theorem measured_slow (xs : List ((Nat × Nat) × Nat)) (hnodup : (xs.map (·.2)).Nodup) : ∀ v : State, ∀ x ∈ xs,
    (xs.foldl State.podMeasured v).f R.REL_AGE_SLOW x.2 = slowOf x.1.1 x.1.2 := by
  induction xs with
  | nil => exact fun v x hx => absurd hx (by simp)
  | cons y xs ih =>
    intro v x hx
    rw [List.map_cons, List.nodup_cons] at hnodup
    obtain ⟨hfresh, hnodup⟩ := hnodup
    rcases List.mem_cons.mp hx with rfl | hin
    · rw [List.foldl_cons, measured_keeps xs _ rfl (fun z hz => ageKey_inj fun he => hfresh (List.mem_map.mpr ⟨z, hz, he.symm⟩))]
      · exact podMeasured_slow v x
      · unfold FRef.key
        simp only [R.REL_AGE_SLOW, R.REL_STAT_AGE_SEEN]
        omega
    · exact ih hnodup _ x hin

/-- Tj and the life of the device, with the steps of the second. -/
def State.lifeCounted (s : State) (m : Int) : State :=
  let life := s.rel.life + arrhenius ((m : Rat) / 8)
  let top := if s.rel.tjSeen then max m (signed 16 (s.f R.REL_TJ_TJ_MAX)) else m
  let old := s.rel.life
  let s := { s with rel := { s.rel with life := life, tjSeen := true, lifeAt := s.now } }
  let s := (s.setF R.REL_TJ_TJ_NOW (unsignedOf 16 m)).setF R.REL_TJ_TJ_MAX (unsignedOf 16 top)
  let s := s.setF R.REL_LIFE_HOURS (satN 32 (life / 3600).floor.toNat)
  s.doIf (decide (old < lifeWarnSec) && decide (lifeWarnSec ≤ life)) (·.post E.DEVICE_LIFE)

theorem exec_lifeCount {a : Int} {as : List Int} (hon : (s.start t).relOn = true) (hwait : (s.start t).rel.lifeAt + secQ ≤ (s.start t).now) :
    exec (.lifeCount t (a :: as)) s = .next ((s.start t).lifeCounted (as.foldl max a)) :=
  congrArg Host.Outcome.next (State.doIf_of (by rw [hon, decide_eq_true hwait]; rfl))

theorem unsignedOf_lt (n : Nat) (v : Int) : unsignedOf n v < 2 ^ n := by
  unfold unsignedOf
  have h : (0 : Int) < ((2 ^ n : Nat) : Int) := by exact_mod_cast Nat.two_pow_pos n
  have h1 := Int.emod_lt_of_pos v h
  have h2 := Int.emod_nonneg v (ne_of_gt h)
  omega

theorem satN_lt (n v : Nat) : satN n v < 2 ^ n := by
  have h := Nat.two_pow_pos n
  unfold satN
  omega

theorem lifeCounted_shows (u : State) (m : Int) (s' : State) (hs : s' = u.lifeCounted m) : s'.rel.life = u.rel.life + arrhenius ((m : Rat) / 8)
    ∧ s'.rel.lifeAt = u.now ∧ s'.f R.REL_TJ_TJ_NOW = unsignedOf 16 m ∧ s'.f R.REL_LIFE_HOURS = satN 32 (s'.rel.life / 3600).floor.toNat := by
  subst hs
  unfold State.lifeCounted
  extract_lets life top old x v1 v2 v3
  have hrel : v3.rel = v1.rel := by
    unfold v3 v2
    rw [State.setF_rel, State.setF_rel, State.setF_rel]
  have hnow : v3.f R.REL_TJ_TJ_NOW = unsignedOf 16 m := by
    unfold v3 v2
    rw [f_setF_key _ _ (by decide), f_setF_bits _ _ _ _ _ _ (by decide)]
    exact f_setF_fits _ _ _ _ (by decide) (unsignedOf_lt 16 m)
  have hhours : v3.f R.REL_LIFE_HOURS = satN 32 (life / 3600).floor.toNat := f_setF_fits _ _ _ _ (by decide) (satN_lt ..)
  clear_value v3
  cases decide (old < lifeWarnSec) && decide (lifeWarnSec ≤ life) with
  | false =>
    rw [State.doIf_false, hrel]
    exact ⟨rfl, rfl, hnow, hhours⟩
  | true =>
    rw [State.doIf_true, State.post_rel, hrel, f_post _ _ _ _ _ _ _ _ (by decide), f_post _ _ _ _ _ _ _ _ (by decide)]
    exact ⟨rfl, rfl, hnow, hhours⟩

end Life

/-! ## The statement -/

theorem zipIdx_places (xs : List (Nat × Nat)) : (xs.zipIdx.take 24).map (·.2) = List.range (min 24 xs.length) := by
  rw [List.map_take, List.zipIdx_map_snd, ← List.range_eq_range', List.take_range]

theorem mem_zipIdx_take {xs : List (Nat × Nat)} {n : Nat} {x : Nat × Nat} (hn : n < 24) (h : xs[n]? = some x) : (x, n) ∈ xs.zipIdx.take 24 := by
  rw [List.mem_iff_getElem?]
  refine ⟨n, ?_⟩
  rw [List.getElem?_take_of_lt hn, List.getElem?_zipIdx, h]
  simp

/-- Settles O40: each command by what its word, its test, its request or its second is. -/
theorem reliabilityCountsAndTests : Obligations.ReliabilityCountsAndTests := by
  unfold Obligations.ReliabilityCountsAndTests
  rintro s u t rfl hs
  refine ⟨?kernel, ?scrub, ?check, ?select, ?tested, ?request, ?age, ?life⟩
  case kernel =>
    intro pod k mem word hpod hk hmem hroom
    exact ⟨_, exec_ueKernel hs hpod hk hmem, kernelWord_shows _ _ mem word hroom⟩
  case scrub =>
    intro hen hscrub mem pod unit word hmem key run pass n
    have hexec {errs : Nat} {other : Bool} := exec_scrubRead (s := s) (t := t) (pod := pod) (unit := unit) (word := word) (errs := errs) (other := other)
      (entry := none) (relOn_of hs hen) hscrub hmem
    refine ⟨fun other => ⟨_, hexec, ?_⟩, fun errs herrs => ⟨fun hroom => ⟨_, hexec, ?_⟩, ⟨_, hexec, ?_⟩⟩, fun errs other h3 hm hroom => ⟨_, hexec, ?_⟩⟩
    · rw [if_pos (.inl rfl)]
      exact ⟨rfl, runCleared_run .., rfl⟩
    · rw [if_neg (by rw [eccFixed_of herrs]; rcases herrs with rfl | rfl <;> decide), if_pos (eccFixed_of herrs)]
      exact scrubFixed_shows rfl rfl hroom _ rfl
    · rw [if_pos (.inr ⟨eccFixed_of herrs, rfl⟩), eccFixed_of herrs, State.doIf_true]
      exact ⟨(f_upd_rel ..).trans (corrected_count ..), runCleared_run ..⟩
    · rw [if_neg (by rw [eccFixed_not h3]; simp; omega), if_neg (by rw [eccFixed_not h3]; decide), hm]
      exact scrubBad_block _ pod unit word hroom _ rfl
  case check =>
    intro hen hwait found hlen
    obtain ⟨hword, hrel⟩ := checks_keep found (s.start t).checkTimed
    refine ⟨_, exec_registerCheck (relOn_of hs hen) hwait, by rw [hrel]; rfl, hword, ?_⟩
    exact checks_post found _ (fun _ _ _ => rfl) rfl (.of_eq rfl) hlen
  case select =>
    intro r rs hen hidle hfirst hnone
    refine ⟨_, exec_backgroundTest (relOn_of hs hen) hidle hfirst, ?_⟩
    rw [selectTest_spare (v := { s.start t with rel := { (s.start t).rel with first := rs } }) hnone]
    obtain ⟨hrel, hphase⟩ := beginTests_shows { s.start t with rel := { (s.start t).rel with first := rs } } [r]
    exact ⟨by rw [hrel], by rw [hrel], hphase⟩
  case tested =>
    intro r pod k ok hen htest hk hpair
    have hexec {pass : Bool} := exec_kernelTestDone (s := s) (t := t) (pass := pass) (ok := ok) (relOn_of hs hen) htest hk hpair
    exact ⟨fun hroom => ⟨_, hexec, testFailed_shows _ _ hroom _ rfl⟩, fun hgone hroom => ⟨_, hexec, testRestored_shows _ _ hgone hroom _ rfl⟩,
      fun hgone => ⟨_, hexec, testKept_shows _ _ hgone _ rfl⟩⟩
  case request =>
    intro w fn data hw
    refine ⟨_, exec_test hw, ?_⟩
    dsimp only
    cases h : w.testRefusal (w.f R.REL_CMD_POD) (w.f R.REL_CMD_LK) with
    | some r =>
      dsimp only
      rw [f_setB_bits _ _ _ _ _ _ (by decide), f_setF_fits _ _ _ _ (by decide) (testRefusal_lt h), b_setB_same _ _ _ _ _ (by decide), State.setB_rel,
        State.setF_rel]
      exact ⟨rfl, rfl, rfl⟩
    | none =>
      dsimp only
      rw [f_upd_rel, f_setF_fits _ _ _ _ (by decide) (by decide)]
      exact ⟨rfl, rfl⟩
  case age =>
    intro hen hwait counts
    obtain ⟨hat, hlinks⟩ := hourBegun_shows (s.start t)
    refine ⟨_, exec_ageMeasure (relOn_of hs hen) hwait, ?_, fun l hl => ?_, fun n hn x hx => ?_⟩
    · rw [← hat]
      exact foldl_inv (P := fun v => v.rel.ageAt = (s.start t).hourBegun.rel.ageAt) _ _ rfl fun v x h => by rw [podMeasured_rel, h]
    · refine (measured_keeps _ _ rfl (fun x hx => ?_) ?_).trans (hlinks l hl)
      · have hx24 : x.2 < 24 := by
          have hin := List.mem_map_of_mem (f := (·.2)) hx
          rw [zipIdx_places, List.mem_range] at hin
          omega
        unfold FRef.key
        simp only [R.REL_AGE_SLOW, R.REL_LINK_CE_HOUR]
        omega
      · unfold FRef.key
        simp only [R.REL_STAT_AGE_SEEN, R.REL_LINK_CE_HOUR]
        omega
    · exact measured_slow _ (by rw [zipIdx_places]; exact List.nodup_range) _ (x, n) (mem_zipIdx_take hn hx)
  case life =>
    intro hen hwait a as
    exact ⟨_, exec_lifeCount (relOn_of hs hen) hwait, lifeCounted_shows _ _ _ rfl⟩

end Sys2Proof.Machine
end

section
/-! PROOFS. O55. The time engine: servo, lock, holdover, delay, messages and steps (R405, R406, R409 to R413). -/
namespace Sys2Proof.Machine

/-! ## A correction and a servo state -/

theorem setFreq_net (s : State) (f : Rat) : (s.setFreq f).net = { s.net with f := f } := by
  unfold State.setFreq
  extract_lets n v
  have hv : (v.setF R.NET_FREQ_FREQ (satWord (f * 256).floor).toNat).net = v.net := State.setF_net ..
  exact (tch_steer.1 .net (by decide)).trans hv

theorem setFreq_f (s : State) (f : Rat) {r : FRef} {i j : Nat} (hb : r.blk = .net) (hk : r.key i j ≠ 0x1C) : (s.setFreq f).f r i j = s.f r i j := by
  unfold State.setFreq
  rw [tch_steer.f _ _ _ (by rw [hb]; decide), f_setF_key _ _ hk, f_upd_net]

/-- The servo state and its event. -/
def State.timeShown (s : State) (st : Nat) : State := (s.setF R.NET_STAT_STATE st).post E.TIME_STATE (subject st)

/-- The servo counts anew in a new state. -/
def State.timeBegun (s : State) (st : Nat) : State := { s.timeShown st with net := { (s.timeShown st).net with lockRun := 0, run := 0 } }

theorem enterTime_eq (s : State) (st : Nat) : s.enterTime st = if s.timeState = st then s else
    if st = tmLocked then (s.timeBegun st).lockWake else if st = tmHoldover then (s.timeBegun st).setFreq (s.timeBegun st).net.fh else s.timeBegun st := rfl

theorem timeBegun_net (s : State) (st : Nat) : (s.timeBegun st).net = { s.net with lockRun := 0, run := 0 } := by
  unfold State.timeBegun State.timeShown
  dsimp only
  rw [State.post_net, State.setF_net]

theorem timeBegun_state (s : State) {st : Nat} (hst : st < 4) : (s.timeBegun st).timeState = st := by
  unfold State.timeBegun State.timeShown State.timeState
  rw [f_upd_net, f_post _ _ _ _ _ _ _ _ (by decide), f_setF_fits _ _ _ _ (by decide) hst]

theorem timeBegun_f (s : State) (st : Nat) {r : FRef} {i j : Nat} (hb : r.blk ≠ .sys) (ha : Apart r R.NET_STAT_STATE i j 0 0) :
    (s.timeBegun st).f r i j = s.f r i j := by
  unfold State.timeBegun State.timeShown
  rw [f_upd_net, f_post _ _ _ _ _ _ _ _ hb, f_setF_apart _ _ _ _ _ _ ha]

theorem timeBegun_reports (s : State) (st : Nat) (hroom : s.room) : Reports s (s.timeBegun st) E.TIME_STATE (subject st) := by
  have hrep : Reports s (s.timeShown st) E.TIME_STATE (subject st) := by
    unfold State.timeShown
    exact (tch_setF.mono (by decide) : Touches 1024 s _).reports (by decide) (by decide) hroom ..
  obtain ⟨q, hq, hevt⟩ := hrep
  exact ⟨q, hq, hevt⟩

theorem fixWake_keeps (s : State) (w : Int) (synced : Bool) : (s.fixWake w synced).net = { s.net with wakeW := some w }
    ∧ (∀ r i j, r.blk ≠ .sys → r.key i j ≠ 0x54 → (s.fixWake w synced).f r i j = s.f r i j) := by
  unfold State.fixWake
  refine ⟨?_, fun r i j hb hk => ?_⟩
  · rw [State.post_net]
  · rw [f_post _ _ _ _ _ _ _ _ hb, f_upd_net, f_setB_key _ _ hk]

theorem lockWake_keeps (s : State) : (∃ w, s.lockWake.net = { s.net with wakeW := w })
    ∧ (∀ r i j, r.blk ≠ .sys → r.key i j ≠ 0x54 → s.lockWake.f r i j = s.f r i j) := by
  unfold State.lockWake
  split
  · unfold State.doIf
    split
    · obtain ⟨hnet, hf⟩ := fixWake_keeps s (nextSlot s.ntime _ (wakeOfs _ _)) true
      exact ⟨⟨_, hnet⟩, hf⟩
    · exact ⟨⟨s.net.wakeW, rfl⟩, fun _ _ _ _ _ => rfl⟩
  · exact ⟨⟨s.net.wakeW, rfl⟩, fun _ _ _ _ _ => rfl⟩

/-- A register of NET that a servo state does not show. -/
def NetApart (r : FRef) (i j : Nat) : Prop :=
  r.blk = .net ∧ Apart r R.NET_STAT_STATE i j 0 0 ∧ r.key i j ≠ 0x54 ∧ r.key i j ≠ 0x1C

theorem enterTime_f (s : State) (st : Nat) {r : FRef} {i j : Nat} (h : NetApart r i j) : (s.enterTime st).f r i j = s.f r i j := by
  obtain ⟨hb, ha, hw, hf⟩ := h
  have hsys : r.blk ≠ .sys := by rw [hb]; decide
  rw [enterTime_eq]
  split
  · rfl
  · split
    · exact ((lockWake_keeps _).2 _ _ _ hsys hw).trans (timeBegun_f s st hsys ha)
    · split
      · exact (setFreq_f _ _ hb hf).trans (timeBegun_f s st hsys ha)
      · exact timeBegun_f s st hsys ha

theorem timeState_enterTime (s : State) {st : Nat} (hst : st < 4) : (s.enterTime st).timeState = st := by
  rw [enterTime_eq]
  split
  · next h => exact h
  · split
    · exact ((lockWake_keeps _).2 R.NET_STAT_STATE 0 0 (by decide) (by decide)).trans (timeBegun_state s hst)
    · split
      · exact (setFreq_f (r := R.NET_STAT_STATE) (i := 0) (j := 0) _ _ rfl (by decide)).trans (timeBegun_state s hst)
      · exact timeBegun_state s hst

theorem enterTime_acquiring {s : State} (h : s.timeState ≠ 1) : (s.enterTime tmAcquiring).net = { s.net with lockRun := 0, run := 0 } := by
  rw [enterTime_eq, if_neg h]
  exact timeBegun_net s 1

theorem enterTime_locked {s : State} (h : s.timeState ≠ 2) : ∃ w, (s.enterTime tmLocked).net = { s.net with lockRun := 0, run := 0, wakeW := w } := by
  rw [enterTime_eq, if_neg h, if_pos rfl]
  obtain ⟨w, hw⟩ := (lockWake_keeps (s.timeBegun tmLocked)).1
  exact ⟨w, by rw [hw, timeBegun_net]⟩

theorem enterTime_holdover {s : State} (h : s.timeState ≠ 3) :
    (s.enterTime tmHoldover).net = { s.net with lockRun := 0, run := 0, f := s.net.fh } := by
  rw [enterTime_eq, if_neg h, if_neg (by decide), if_pos rfl, setFreq_net, timeBegun_net]

theorem enterTime_reports {s : State} {st : Nat} (h : s.timeState ≠ st) (hroom : s.room) : Posts s (s.enterTime st) E.TIME_STATE (subject st) := by
  have hrep := timeBegun_reports s st hroom
  rw [enterTime_eq, if_neg h]
  split
  · exact hrep.posts tch_lockWake.q
  · split
    · exact hrep.posts tch_setFreq.q
    · exact hrep.posts (.refl _)

/-! ## The servo -/

/-- The correction that a θ asks for, and the one within the clamp. -/
def State.wantFreq (s : State) (th : Rat) : Rat := s.net.fh - ((s.f R.NET_SERVO_KP : Rat) / 256 * th + s.net.integ)

def State.clampFreq (s : State) (th : Rat) : Rat :=
  let slew : Rat := s.f R.NET_SERVO_LIM_SLEW
  if s.wantFreq th < s.net.fh - slew then s.net.fh - slew else if s.wantFreq th > s.net.fh + slew then s.net.fh + slew else s.wantFreq th

/-- The integral after a θ. -/
def State.integNext (s : State) (th : Rat) : Rat :=
  if s.clampFreq th = s.wantFreq th then s.net.integ + (s.f R.NET_SERVO_KI : Rat) / 4096 * th else s.net.integ

/-- The corrections of the last 64 Syncs in LOCKED. -/
def State.freqsNext (s : State) (th : Rat) : List Rat := (s.clampFreq th :: s.net.freqs).take 64

def State.integrated (s : State) (th : Rat) : State := { s with net := { s.net with integ := s.integNext th } }

def State.averaged (s : State) (fs : List Rat) : State := { s with net := { s.net with freqs := fs, fh := fs.foldl (· + ·) 0 / (fs.length : Rat) } }

theorem servo_eq (s : State) (th : Rat) :
    s.servo th = ((s.integrated th).doIf (s.timeState == tmLocked) (·.averaged (s.freqsNext th))).setFreq (s.clampFreq th) := rfl

theorem servo_f (s : State) (th : Rat) {r : FRef} {i j : Nat} (hb : r.blk = .net) (hk : r.key i j ≠ 0x1C) : (s.servo th).f r i j = s.f r i j := by
  rw [servo_eq, setFreq_f _ _ hb hk]
  unfold State.doIf
  split <;> rfl

theorem servo_net (s : State) (th : Rat) : (s.servo th).net = if s.timeState = 2 then
    { s.net with integ := s.integNext th, freqs := s.freqsNext th, fh := (s.freqsNext th).foldl (· + ·) 0 / ((s.freqsNext th).length : Rat), f := s.clampFreq th }
    else { s.net with integ := s.integNext th, f := s.clampFreq th } := by
  rw [servo_eq, setFreq_net]
  by_cases h : s.timeState = 2
  · rw [if_pos h, State.doIf_of (by rw [h]; rfl)]
    rfl
  · rw [if_neg h, State.doIf_not (by simpa using h)]
    rfl

theorem servo_timeState (s : State) (th : Rat) : (s.servo th).timeState = s.timeState := servo_f s th rfl (by decide)

/-- What a Sync leaves of NET, but for the runs, the wake slot and a step. -/
structure ServoStays (s s' : State) : Prop where
  f : s'.net.f = s.net.f
  freqs : s'.net.freqs = s.net.freqs
  fh : s'.net.fh = s.net.fh
  ports : s'.net.ports = s.net.ports
  regs : ∀ r i j, NetApart r i j → s'.f r i j = s.f r i j

theorem ServoStays.refl (s : State) : ServoStays s s := ⟨rfl, rfl, rfl, rfl, fun _ _ _ _ => rfl⟩

theorem ServoStays.trans {s u v : State} (h : ServoStays s u) (h' : ServoStays u v) : ServoStays s v :=
  ⟨h'.f.trans h.f, h'.freqs.trans h.freqs, h'.fh.trans h.fh, h'.ports.trans h.ports, fun r i j hr => (h'.regs r i j hr).trans (h.regs r i j hr)⟩

/-- The run of θ that may decide a step (R411). -/
def State.runNext (s : State) (th : Rat) : Int :=
  if decide (1000 ≤ th) then (if 0 < s.net.run then s.net.run + 1 else 1)
  else if decide (th ≤ -1000) then (if s.net.run < 0 then s.net.run - 1 else -1) else 0

/-- A step is decided. -/
def State.stepDecided (s : State) (th : Rat) : State := { s with net := { s.net with run := 0, integ := 0, step := some (-(roundHalf th), s.now) } }

theorem stepCheck_eq (s : State) (th : Rat) : s.stepCheck th = if s.net.step.isSome then s
    else if s.runNext th = 4 ∨ s.runNext th = -4 then (s.stepDecided th).doIf (s.timeState == tmLocked) (·.enterTime tmAcquiring)
    else { s with net := { s.net with run := s.runNext th } } := rfl

theorem stepCheck_waiting {s : State} {th : Rat} (h : s.net.step ≠ none) : s.stepCheck th = s := by
  rw [stepCheck_eq, if_pos (Option.isSome_iff_ne_none.mpr h)]

theorem stepCheck_counts {s : State} {th : Rat} (h : s.net.step = none) (h4 : s.runNext th ≠ 4) (hm4 : s.runNext th ≠ -4) :
    s.stepCheck th = { s with net := { s.net with run := s.runNext th } } := by
  rw [stepCheck_eq, h, if_neg (by decide), if_neg (by omega)]

theorem stepCheck_decides {s : State} {th : Rat} (h : s.net.step = none) (h4 : s.runNext th = 4) :
    s.stepCheck th = (s.stepDecided th).doIf (s.timeState == tmLocked) (·.enterTime tmAcquiring) := by
  rw [stepCheck_eq, h, if_neg (by decide), if_pos (.inl h4)]

theorem stepDecided_timeState (s : State) (th : Rat) : (s.stepDecided th).timeState = s.timeState := rfl

theorem servoStays_stepCheck (s : State) (th : Rat) : ServoStays s (s.stepCheck th) := by
  rw [stepCheck_eq]
  split
  · exact .refl s
  · split
    · have hdec : ServoStays s (s.stepDecided th) := ⟨rfl, rfl, rfl, rfl, fun _ _ _ _ => rfl⟩
      refine hdec.trans ?_
      cases hl : s.timeState == tmLocked with
      | false => exact .refl _
      | true =>
        have hne : (s.stepDecided th).timeState ≠ 1 := by
          rw [stepDecided_timeState, beq_iff_eq.mp hl]
          decide
        have hnet := enterTime_acquiring hne
        rw [State.doIf_true]
        exact ⟨by rw [hnet], by rw [hnet], by rw [hnet], by rw [hnet], fun r i j hr => enterTime_f _ _ hr⟩
    · exact ⟨rfl, rfl, rfl, rfl, fun _ _ _ _ => rfl⟩

/-- The run of θ within LOCK_THR (R409). -/
def State.lockNext (s : State) (th : Rat) : Nat :=
  let thr : Rat := s.f R.NET_SERVO_LIM_LOCK_THR
  if th ≤ thr ∧ -thr ≤ th then s.net.lockRun + 1 else 0

theorem lockCheck_eq (s : State) (th : Rat) : s.lockCheck th = if s.timeState != tmAcquiring then s
    else if 16 ≤ s.lockNext th then s.enterTime tmLocked else { s with net := { s.net with lockRun := s.lockNext th } } := rfl

theorem lockNext_le (s : State) (th : Rat) : s.lockNext th ≤ s.net.lockRun + 1 := by
  unfold State.lockNext
  dsimp only
  split <;> omega

/-- What the lock's check leaves. -/
theorem lockCheck_cases (s : State) (th : Rat) : s.lockCheck th = s ∨ s.lockCheck th = { s with net := { s.net with lockRun := s.lockNext th } }
    ∨ s.timeState = 1 ∧ s.lockCheck th = s.enterTime tmLocked := by
  rw [lockCheck_eq]
  cases h : s.timeState != tmAcquiring with
  | true => exact .inl rfl
  | false =>
    simp only [Bool.false_eq_true, if_false]
    split
    · exact .inr (.inr ⟨by simpa using h, rfl⟩)
    · exact .inr (.inl rfl)

theorem lockCheck_keeps (s : State) (th : Rat) : ServoStays s (s.lockCheck th) ∧ (s.lockCheck th).net.step = s.net.step
    ∧ (s.lockCheck th).net.integ = s.net.integ ∧ ((s.lockCheck th).net.run = s.net.run ∨ (s.lockCheck th).net.run = 0) := by
  rcases lockCheck_cases s th with h | h | ⟨hst, h⟩
  · rw [h]
    exact ⟨.refl s, rfl, rfl, .inl rfl⟩
  · rw [h]
    exact ⟨⟨rfl, rfl, rfl, rfl, fun _ _ _ _ => rfl⟩, rfl, rfl, .inl rfl⟩
  · rw [h]
    obtain ⟨w, hnet⟩ := enterTime_locked (s := s) (by rw [hst]; decide)
    exact ⟨⟨by rw [hnet], by rw [hnet], by rw [hnet], by rw [hnet], fun r i j hr => enterTime_f _ _ hr⟩, by rw [hnet], by rw [hnet], .inr (by rw [hnet])⟩

/-- The lock is not reached by a run that is short. -/
theorem lockCheck_timeState {s : State} {th : Rat} (h : s.net.lockRun < 15) : (s.lockCheck th).timeState = s.timeState := by
  have hn := lockNext_le s th
  rw [lockCheck_eq, if_neg (by omega : ¬ 16 ≤ s.lockNext th)]
  split <;> rfl

theorem lockCheck_other {s : State} {th : Rat} (h : s.timeState ≠ 1) : s.lockCheck th = s := by
  rw [lockCheck_eq, if_pos (by simpa using h)]

theorem lockCheck_locks {s : State} {th : Rat} (hst : s.timeState = 1) (hrun : s.net.lockRun = 15) (hle : th ≤ s.f R.NET_SERVO_LIM_LOCK_THR)
    (hge : -(s.f R.NET_SERVO_LIM_LOCK_THR : Rat) ≤ th) : (s.lockCheck th).timeState = 2 := by
  have hn : s.lockNext th = 16 := by
    unfold State.lockNext
    dsimp only
    rw [if_pos ⟨hle, hge⟩, hrun]
  rw [lockCheck_eq, if_neg (by rw [hst]; decide), if_pos (by omega), timeState_enterTime _ (by decide)]

theorem servo_parts (s : State) (th : Rat) : (s.servo th).net.f = s.clampFreq th ∧ (s.servo th).net.integ = s.integNext th
    ∧ (s.servo th).net.step = s.net.step ∧ (s.servo th).net.run = s.net.run ∧ (s.servo th).net.lockRun = s.net.lockRun
    ∧ (s.servo th).net.ports = s.net.ports := by
  rw [servo_net]
  split <;> exact ⟨rfl, rfl, rfl, rfl, rfl, rfl⟩

theorem servo_mean (s : State) (th : Rat) :
    (s.timeState = 2 → (s.servo th).net.freqs = s.freqsNext th ∧ (s.servo th).net.fh = (s.freqsNext th).foldl (· + ·) 0 / ((s.freqsNext th).length : Rat))
    ∧ (s.timeState ≠ 2 → (s.servo th).net.fh = s.net.fh) := by
  rw [servo_net]
  exact ⟨fun h => by rw [if_pos h]; exact ⟨rfl, rfl⟩, fun h => by rw [if_neg h]⟩

theorem servo_now (s : State) (th : Rat) : (s.servo th).now = s.now := tch_servo.1 .now (by decide)

/-- A Sync on the servo. -/
def State.synced (s : State) (th : Rat) : State := ((s.servo th).stepCheck th).lockCheck th

theorem synced_stays (s : State) (th : Rat) : ServoStays (s.servo th) (s.synced th) :=
  (servoStays_stepCheck (s.servo th) th).trans (lockCheck_keeps _ th).1

/-- θ below 1 µs breaks a run and decides no step. -/
theorem synced_small {s : State} {th : Rat} (hlo : -1000 < th) (hhi : th < 1000) : (s.net.step = none → (s.synced th).net.run = 0)
    ∧ (s.synced th).net.step = s.net.step ∧ (s.synced th).net.integ = s.integNext th := by
  obtain ⟨-, hinteg, hstep, -, -, -⟩ := servo_parts s th
  have hrun : (s.servo th).runNext th = 0 := by
    unfold State.runNext
    rw [if_neg (by simpa using hhi), if_neg (by simpa using hlo)]
  obtain ⟨-, hkeepStep, hkeepInteg, hkeepRun⟩ := lockCheck_keeps ((s.servo th).stepCheck th) th
  by_cases hnone : s.net.step = none
  · have hcheck := stepCheck_counts (s := s.servo th) (th := th) (by rw [hstep, hnone]) (by rw [hrun]; decide) (by rw [hrun]; decide)
    have hzero : ((s.servo th).stepCheck th).net.run = 0 := by
      rw [hcheck]
      exact hrun
    have hkeep : ((s.servo th).stepCheck th).net.step = (s.servo th).net.step ∧ ((s.servo th).stepCheck th).net.integ = (s.servo th).net.integ := by
      rw [hcheck]
      exact ⟨rfl, rfl⟩
    exact ⟨fun _ => hkeepRun.elim (·.trans hzero) id, hkeepStep.trans (hkeep.1.trans hstep), hkeepInteg.trans (hkeep.2.trans hinteg)⟩
  · have hcheck := stepCheck_waiting (s := s.servo th) (th := th) (by rw [hstep]; exact hnone)
    rw [hcheck] at hkeepStep hkeepInteg
    unfold State.synced
    rw [hcheck]
    exact ⟨fun h => absurd h hnone, hkeepStep.trans hstep, hkeepInteg.trans hinteg⟩

theorem timeState_upd_net (s : State) (x : NetSt) : State.timeState { s with net := x } = s.timeState := rfl

/-- A servo that has just entered ACQUIRING stays there for this Sync. -/
theorem synced_acquiring {s : State} {th : Rat} (hst : s.timeState = 1) (hrun : s.net.run = 0) (hlock : s.net.lockRun = 0) : (s.synced th).timeState = 1 := by
  obtain ⟨-, -, hstep, hrun', hlock', -⟩ := servo_parts s th
  have hst' := (servo_timeState s th).trans hst
  have hnext : (s.servo th).runNext th ≠ 4 ∧ (s.servo th).runNext th ≠ -4 := by
    unfold State.runNext
    rw [hrun', hrun]
    split_ifs <;> decide
  have hcheck : ((s.servo th).stepCheck th).timeState = 1 ∧ ((s.servo th).stepCheck th).net.lockRun = 0 := by
    by_cases hnone : (s.servo th).net.step = none
    · rw [stepCheck_counts hnone hnext.1 hnext.2, timeState_upd_net]
      exact ⟨hst', hlock'.trans hlock⟩
    · rw [stepCheck_waiting hnone]
      exact ⟨hst', hlock'.trans hlock⟩
  unfold State.synced
  rw [lockCheck_timeState (by rw [hcheck.2]; decide), hcheck.1]

/-- In ACQUIRING the check for a step changes neither the run towards the lock nor the servo state. -/
theorem stepCheck_acquiring {s : State} (hst : s.timeState = 1) (th : Rat) : (s.stepCheck th).timeState = 1 ∧ (s.stepCheck th).net.lockRun = s.net.lockRun := by
  rw [stepCheck_eq]
  split
  · exact ⟨hst, rfl⟩
  · split
    · rw [State.doIf_not (by rw [hst]; rfl)]
      exact ⟨hst, rfl⟩
    · exact ⟨hst, rfl⟩

theorem synced_locks {s : State} {th : Rat} (hst : s.timeState = 1) (hrun : s.net.lockRun = 15) (hle : th ≤ s.f R.NET_SERVO_LIM_LOCK_THR)
    (hge : -(s.f R.NET_SERVO_LIM_LOCK_THR : Rat) ≤ th) : (s.synced th).timeState = 2 := by
  obtain ⟨-, -, -, -, hlock, -⟩ := servo_parts s th
  obtain ⟨hst', hlock'⟩ := stepCheck_acquiring ((servo_timeState s th).trans hst) th
  have hthr : ((s.servo th).stepCheck th).f R.NET_SERVO_LIM_LOCK_THR = s.f R.NET_SERVO_LIM_LOCK_THR :=
    ((servoStays_stepCheck (s.servo th) th).regs _ _ _ ⟨rfl, .inr (.inl (by decide)), by decide, by decide⟩).trans (servo_f s th rfl (by decide))
  exact lockCheck_locks hst' (hlock'.trans (hlock.trans hrun)) (by rw [hthr]; exact hle) (by rw [hthr]; exact hge)

/-- The fourth θ of 1 µs decides a step; a LOCKED servo acquires anew. -/
theorem synced_decides {s : State} {th : Rat} (hst : s.timeState = 1 ∨ s.timeState = 2) (hnone : s.net.step = none) (hrun : s.net.run = 3)
    (hth : 1000 ≤ th) : (s.synced th).net.step = some (-(roundHalf th), s.now) ∧ (s.synced th).net.integ = 0 ∧ (s.synced th).net.run = 0
      ∧ (s.timeState = 2 → (s.synced th).timeState = 1) := by
  obtain ⟨-, -, hstep, hrun', -, -⟩ := servo_parts s th
  have hts := servo_timeState s th
  have hnow := servo_now s th
  have hnext : (s.servo th).runNext th = 4 := by
    unfold State.runNext
    rw [if_pos (by simpa using hth), hrun', hrun]
    rfl
  have hcheck := stepCheck_decides (by rw [hstep, hnone]) hnext
  rw [hts] at hcheck
  obtain ⟨-, hkeepStep, hkeepInteg, hkeepRun⟩ := lockCheck_keeps ((s.servo th).stepCheck th) th
  have hdec : ((s.servo th).stepCheck th).net.step = some (-(roundHalf th), s.now) ∧ ((s.servo th).stepCheck th).net.integ = 0
      ∧ ((s.servo th).stepCheck th).net.run = 0 ∧ (s.timeState = 2 → ((s.servo th).stepCheck th).timeState = 1 ∧ ((s.servo th).stepCheck th).net.lockRun = 0) := by
    rw [hcheck, ← hnow]
    rcases hst with h | h
    · rw [State.doIf_not (by rw [h]; rfl)]
      exact ⟨rfl, rfl, rfl, fun h2 => absurd (h.symm.trans h2) (by decide)⟩
    · have hne : ((s.servo th).stepDecided th).timeState ≠ 1 := by
        rw [stepDecided_timeState, hts, h]
        decide
      have hnet := enterTime_acquiring hne
      rw [State.doIf_of (by rw [h]; rfl), hnet]
      exact ⟨rfl, rfl, rfl, fun _ => ⟨timeState_enterTime _ (by decide), rfl⟩⟩
  obtain ⟨hstep', hinteg', hrun'', hst'⟩ := hdec
  refine ⟨hkeepStep.trans hstep', hkeepInteg.trans hinteg', hkeepRun.elim (·.trans hrun'') id, fun h2 => ?_⟩
  obtain ⟨hacq, hlock⟩ := hst' h2
  unfold State.synced
  rw [lockCheck_timeState (by rw [hlock]; decide), hacq]

section Sync
variable {s u : State} {t : Instant} {p : Nat}

theorem setPort_net (s : State) (p : Nat) (x : PortSt) : (s.setPort p x).net = { s.net with ports := kset {} s.net.ports p x } := rfl

theorem f_setPort (s : State) (p : Nat) (x : PortSt) (r : FRef) (i j : Nat) : (s.setPort p x).f r i j = s.f r i j := rfl

theorem b_setPort (s : State) (p : Nat) (x : PortSt) (r : FRef) (i j : Nat) : (s.setPort p x).b r i j = s.b r i j := rfl

theorem setPort_now (s : State) (p : Nat) (x : PortSt) : (s.setPort p x).now = s.now := rfl

/-- A Sync and its θ as the port and NET_OFFSET show them. -/
def State.syncNoted (s : State) (p : Nat) (th : Rat) : State :=
  (s.setPort p { s.port p with syncAt := s.now }).setF R.NET_OFFSET_OFFSET (satWord (roundHalf th)).toNat

/-- The offset that a Sync gives. -/
def State.theta (s : State) (p : Nat) (origin raw : Rat) : Rat := s.ingress p raw - origin - (s.port p).delay - s.asym p

/-- A Sync takes the servo out of FREE_RUN or HOLDOVER. -/
def State.syncHeard (s : State) (p : Nat) (th : Rat) : State :=
  (s.syncNoted p th).doIf ((s.syncNoted p th).timeState == tmFree || (s.syncNoted p th).timeState == tmHoldover) (·.enterTime tmAcquiring)

theorem exec_ptpSync {origin raw : Rat} (hon : (s.start t).ptpOn p = true) (hps : (s.start t).ps p = 6) : exec (.ptpSync t p origin raw) s = .next
    (((s.start t).syncHeard p ((s.start t).theta p origin raw)).synced ((s.start t).theta p origin raw)) := by
  show execPtpSync t p origin raw s = _
  unfold execPtpSync
  dsimp only
  rw [State.doIf_of (by rw [hon, hps]; rfl)]
  unfold State.synced State.syncHeard State.syncNoted State.theta
  dsimp only

theorem syncNoted_net (u : State) (p : Nat) (th : Rat) : (u.syncNoted p th).net = { u.net with ports := kset {} u.net.ports p { u.port p with syncAt := u.now } } := by
  unfold State.syncNoted
  rw [State.setF_net, setPort_net]

theorem syncNoted_f (u : State) (p : Nat) (th : Rat) {r : FRef} {i j : Nat} (hk : r.key i j ≠ 0x18) : (u.syncNoted p th).f r i j = u.f r i j := by
  unfold State.syncNoted
  rw [f_setF_key _ _ hk, f_setPort]

theorem syncNoted_offset (u : State) (p : Nat) (th : Rat) : (u.syncNoted p th).f R.NET_OFFSET_OFFSET = (satWord (roundHalf th)).toNat := by
  unfold State.syncNoted
  exact f_setF_fits _ _ _ _ (by decide) (satWord _).isLt

theorem syncNoted_now (u : State) (p : Nat) (th : Rat) : (u.syncNoted p th).now = u.now := by
  unfold State.syncNoted
  rw [State.setF_now, setPort_now]

/-- A Sync is noted apart from what the servo reads. -/
theorem syncNoted_servo (u : State) (p : Nat) (th : Rat) : (u.syncNoted p th).clampFreq th = u.clampFreq th
    ∧ (u.syncNoted p th).integNext th = u.integNext th ∧ (u.syncNoted p th).freqsNext th = u.freqsNext th ∧ (u.syncNoted p th).timeState = u.timeState := by
  have hkp := syncNoted_f u p th (r := R.NET_SERVO_KP) (i := 0) (j := 0) (by decide)
  have hki := syncNoted_f u p th (r := R.NET_SERVO_KI) (i := 0) (j := 0) (by decide)
  have hslew := syncNoted_f u p th (r := R.NET_SERVO_LIM_SLEW) (i := 0) (j := 0) (by decide)
  have hwant : (u.syncNoted p th).wantFreq th = u.wantFreq th := by
    unfold State.wantFreq
    rw [hkp, syncNoted_net]
  have hclamp : (u.syncNoted p th).clampFreq th = u.clampFreq th := by
    unfold State.clampFreq
    rw [hslew, hwant, syncNoted_net]
  refine ⟨hclamp, ?_, ?_, syncNoted_f u p th (r := R.NET_STAT_STATE) (by decide)⟩
  · unfold State.integNext
    rw [hclamp, hwant, hki, syncNoted_net]
  · unfold State.freqsNext
    rw [hclamp, syncNoted_net]

theorem syncHeard_following {th : Rat} (h0 : u.timeState ≠ 0) (h3 : u.timeState ≠ 3) : u.syncHeard p th = u.syncNoted p th := by
  obtain ⟨-, -, -, hst⟩ := syncNoted_servo u p th
  unfold State.syncHeard
  rw [hst, State.doIf_not]
  rw [Bool.or_eq_false_iff]
  exact ⟨beq_false_of_ne h0, beq_false_of_ne h3⟩

theorem syncHeard_begins (p : Nat) (th : Rat) (h : u.timeState = 0 ∨ u.timeState = 3) :
    (u.syncHeard p th).timeState = 1 ∧ (u.syncHeard p th).net.run = 0 ∧ (u.syncHeard p th).net.lockRun = 0 := by
  obtain ⟨-, -, -, hst⟩ := syncNoted_servo u p th
  have hne : (u.syncNoted p th).timeState ≠ 1 := by omega
  have hnet := enterTime_acquiring hne
  have hst1 := timeState_enterTime (u.syncNoted p th) (st := tmAcquiring) (by decide)
  unfold State.syncHeard
  rw [State.doIf_of (by rw [hst]; rcases h with h | h <;> rw [h] <;> rfl), hnet]
  exact ⟨hst1, rfl, rfl⟩

/-- A Sync that finds the servo following. -/
theorem synced_shows (u : State) (p : Nat) (th : Rat) (s' : State) (hs : s' = (u.syncNoted p th).synced th) : (s'.port p).syncAt = u.now
    ∧ s'.f R.NET_OFFSET_OFFSET = (satWord (roundHalf th)).toNat ∧ s'.net.f = u.clampFreq th
    ∧ (u.timeState = 2 → s'.net.freqs = (s'.net.f :: u.net.freqs).take 64 ∧ s'.net.fh = s'.net.freqs.foldl (· + ·) 0 / (s'.net.freqs.length : Rat))
    ∧ (u.timeState ≠ 2 → s'.net.fh = u.net.fh) := by
  obtain ⟨hclamp, -, hfreqs, hts⟩ := syncNoted_servo u p th
  obtain ⟨hf, -, -, -, -, hports⟩ := servo_parts (u.syncNoted p th) th
  obtain ⟨hlocked, hother⟩ := servo_mean (u.syncNoted p th) th
  obtain ⟨kf, kfreqs, kfh, kports, kregs⟩ := synced_stays (u.syncNoted p th) th
  rw [hts] at hlocked hother
  subst hs
  refine ⟨?_, ?_, by rw [kf, hf, hclamp], fun h2 => ?_, fun h2 => ?_⟩
  · unfold State.port
    rw [kports, hports, syncNoted_net, kget_kset_same]
  · rw [kregs _ _ _ ⟨rfl, .inr (.inl (by decide)), by decide, by decide⟩, servo_f _ _ rfl (by decide), syncNoted_offset]
  · rw [kfreqs, kfh, kf, (hlocked h2).1, (hlocked h2).2, hf, hfreqs, hclamp]
    exact ⟨rfl, rfl⟩
  · rw [kfh, hother h2, syncNoted_net]

theorem integNext_within {u : State} {th : Rat} (hlo : u.net.fh - (u.f R.NET_SERVO_LIM_SLEW : Rat) ≤ u.wantFreq th)
    (hhi : u.wantFreq th ≤ u.net.fh + (u.f R.NET_SERVO_LIM_SLEW : Rat)) :
    u.integNext th = u.net.integ + (u.f R.NET_SERVO_KI : Rat) / 4096 * th := by
  unfold State.integNext
  rw [if_pos]
  unfold State.clampFreq
  dsimp only
  rw [if_neg (not_lt.mpr hlo), if_neg (not_lt.mpr hhi)]

theorem integNext_beyond {u : State} {th : Rat} (h : u.wantFreq th < u.net.fh - (u.f R.NET_SERVO_LIM_SLEW : Rat)
    ∨ u.net.fh + (u.f R.NET_SERVO_LIM_SLEW : Rat) < u.wantFreq th) : u.integNext th = u.net.integ := by
  unfold State.integNext
  rw [if_neg]
  unfold State.clampFreq
  dsimp only
  split_ifs with h1 h2
  · exact ne_of_gt h1
  · exact ne_of_lt h2
  · exact absurd h (not_or.mpr ⟨h1, h2⟩)

end Sync

/-! ## The best master clock -/

/-- What a servo state leaves of the ports and of the master. -/
theorem enterTime_master (s : State) (st : Nat) : (s.enterTime st).net.ports = s.net.ports ∧ (s.enterTime st).net.parent = s.net.parent
    ∧ (s.enterTime st).net.gmId = s.net.gmId := by
  have hbegun := timeBegun_net s st
  rw [enterTime_eq]
  split
  · exact ⟨rfl, rfl, rfl⟩
  · split
    · obtain ⟨w, hw⟩ := (lockWake_keeps (s.timeBegun st)).1
      rw [hw, hbegun]
      exact ⟨rfl, rfl, rfl⟩
    · split
      · rw [setFreq_net, hbegun]
        exact ⟨rfl, rfl, rfl⟩
      · rw [hbegun]
        exact ⟨rfl, rfl, rfl⟩

/-- From `s` to `s'` the ports, the master and the registers beside the servo state's stay. -/
structure MasterStays (s s' : State) : Prop where
  ports : s'.net.ports = s.net.ports
  parent : s'.net.parent = s.net.parent
  gm : s'.net.gmId = s.net.gmId
  regs : ∀ r i j, NetApart r i j → s'.f r i j = s.f r i j
  queue : QExt s s'

theorem MasterStays.refl (s : State) : MasterStays s s := ⟨rfl, rfl, rfl, fun _ _ _ _ => rfl, .refl s⟩

theorem MasterStays.trans {s u v : State} (h : MasterStays s u) (h' : MasterStays u v) : MasterStays s v :=
  ⟨h'.ports.trans h.ports, h'.parent.trans h.parent, h'.gm.trans h.gm, fun r i j hr => (h'.regs r i j hr).trans (h.regs r i j hr), h.queue.trans h'.queue⟩

theorem masterStays_enterTime (s : State) (st : Nat) : MasterStays s (s.enterTime st) :=
  have ⟨hports, hparent, hgm⟩ := enterTime_master s st
  ⟨hports, hparent, hgm, fun _ _ _ hr => enterTime_f s st hr, tch_enterTime.q⟩

theorem MasterStays.doIf {s u : State} {c : Bool} {g : State → State} (h : MasterStays s u) (hg : MasterStays u (g u)) : MasterStays s (u.doIf c g) := by
  cases c with
  | false => exact h
  | true => exact h.trans hg

theorem masterStays_slaveLost (s : State) : MasterStays s s.slaveLost := by
  unfold State.slaveLost
  split
  · exact .refl s
  · split
    · exact masterStays_enterTime ..
    · split
      · exact masterStays_enterTime ..
      · exact .refl s

/-- A port is SLAVE; the device is grandmaster. -/
def State.isSlave (s : State) : Bool := s.ps 0 == psSlave || s.ps 1 == psSlave

def State.isGm (s : State) : Bool := !s.isSlave && (s.ps 0 == psMaster || s.ps 1 == psMaster)

theorem slaveLost_slave {s : State} (h : s.isSlave = true) : s.slaveLost = s := by
  unfold State.slaveLost
  rw [if_pos]
  unfold State.isSlave at h
  simpa using h

/-- Both ports take the states that the algorithm recommends. -/
def State.bmcaPorts (s : State) (forced : Option Nat) : State :=
  let steps := (s.eBest.map fun x => x.2.steps + 1).getD 0
  (s.takePs 0 (s.recommended 0 (forced == some 0)) steps).takePs 1 (s.recommended 1 (forced == some 1)) steps

/-- GM and stepsRemoved are shown. -/
def State.bmcaShown (s : State) (steps : Nat) : State := (s.setB R.NET_STAT_GM s.isGm).setF R.NET_STAT_STEPS_REMOVED (if s.isSlave then satN 8 steps else 0)

/-- The parent and the grandmaster by the outcome. -/
def State.parentNext (s : State) (slave gm : Bool) (best : Option (Nat × Announce)) : Option (Nat × Nat) :=
  match slave, best with
  | true, some x => some (x.2.src, x.2.srcPort)
  | _, _ => if gm then some (s.clockId, 0) else s.net.parent

def State.gmNext (s : State) (slave gm : Bool) (best : Option (Nat × Announce)) : Option Nat :=
  match slave, best with
  | true, some x => some x.2.gm
  | _, _ => if gm then some s.clockId else s.net.gmId

/-- The parent and the grandmaster are noted; a new parent is reported. -/
def State.masterNoted (s : State) (slave gm : Bool) (best : Option (Nat × Announce)) : State :=
  { s with net := { s.net with parent := s.parentNext slave gm best, gmId := s.gmNext slave gm best } }

def State.masterTold (s : State) (slave gm : Bool) (best : Option (Nat × Announce)) : State :=
  (s.masterNoted slave gm best).doIf (s.parentNext slave gm best != s.net.parent) (·.post E.PARENT_CHANGED)

/-- A new grandmaster takes a LOCKED servo to ACQUIRING. -/
def State.bmcaEnd (s : State) (slave gm : Bool) (best : Option (Nat × Announce)) : State :=
  ((s.masterTold slave gm best).doIf (s.net.gmId.isSome && s.gmNext slave gm best != s.net.gmId && (s.masterTold slave gm best).timeState == tmLocked && slave)
    (·.enterTime tmAcquiring)).slaveLost

theorem bmca_eq {s : State} (h : s.b R.NET_CTL_PTP_EN = true) (forced : Option Nat) : s.bmca forced =
    State.bmcaEnd ((s.bmcaPorts forced).bmcaShown ((s.eBest.map fun x => x.2.steps + 1).getD 0)) (s.bmcaPorts forced).isSlave (s.bmcaPorts forced).isGm s.eBest := by
  unfold State.bmca State.bmcaShown State.bmcaPorts State.isGm State.isSlave
  rw [if_neg (by rw [h]; decide)]
  dsimp only
  generalize (s.takePs 0 (s.recommended 0 (forced == some 0)) ((s.eBest.map fun x => x.2.steps + 1).getD 0)).takePs 1
    (s.recommended 1 (forced == some 1)) ((s.eBest.map fun x => x.2.steps + 1).getD 0) = v
  generalize (v.ps 0 == psSlave || v.ps 1 == psSlave) = slave
  generalize (!slave && (v.ps 0 == psMaster || v.ps 1 == psMaster)) = gm
  generalize ((v.setB R.NET_STAT_GM gm).setF R.NET_STAT_STEPS_REMOVED
    (if slave = true then satN 8 ((s.eBest.map fun x => x.2.steps + 1).getD 0) else 0)) = w
  generalize s.eBest = best
  cases slave <;> cases best <;> rfl

theorem masterTold_parts (s : State) (slave gm : Bool) (best : Option (Nat × Announce)) :
    (s.masterTold slave gm best).net = { s.net with parent := s.parentNext slave gm best, gmId := s.gmNext slave gm best }
      ∧ (∀ r i j, r.blk = .net → (s.masterTold slave gm best).f r i j = s.f r i j) := by
  unfold State.masterTold
  cases s.parentNext slave gm best != s.net.parent with
  | false => exact ⟨rfl, fun _ _ _ _ => rfl⟩
  | true =>
    rw [State.doIf_true, State.post_net]
    refine ⟨rfl, fun r i j hb => ?_⟩
    rw [f_post _ _ _ _ _ _ _ _ (by rw [hb]; decide)]
    rfl

theorem masterTold_posts {s : State} {slave gm : Bool} {best : Option (Nat × Announce)} (h : s.parentNext slave gm best ≠ s.net.parent) (hroom : s.room) :
    Reports s (s.masterTold slave gm best) E.PARENT_CHANGED := by
  unfold State.masterTold
  rw [State.doIf_of (bne_iff_ne.mpr h)]
  exact State.post_sys _ _ _ _ _ hroom

/-- The end of the algorithm: the master, its report, and a LOCKED servo under a new grandmaster. -/
theorem bmcaEnd_shows (s : State) (slave gm : Bool) (best : Option (Nat × Announce)) (hslave : slave = s.isSlave) (s' : State)
    (hs : s' = s.bmcaEnd slave gm best) : s'.net.ports = s.net.ports ∧ (∀ r i j, NetApart r i j → s'.f r i j = s.f r i j)
      ∧ s'.net.parent = s.parentNext slave gm best ∧ s'.net.gmId = s.gmNext slave gm best
      ∧ (s.room → s'.net.parent ≠ s.net.parent → Posts s s' E.PARENT_CHANGED)
      ∧ (slave = true → s.timeState = 2 → s'.timeState = if s.net.gmId ≠ none ∧ s.net.gmId ≠ s'.net.gmId then 1 else 2) := by
  obtain ⟨hnet, hregs⟩ := masterTold_parts s slave gm best
  have hpost := fun h => masterTold_posts (s := s) (slave := slave) (gm := gm) (best := best) h
  have hstays : MasterStays (s.masterTold slave gm best) s' := by
    rw [hs]
    exact ((MasterStays.refl _).doIf (masterStays_enterTime ..)).trans (masterStays_slaveLost _)
  have hgm : s'.net.gmId = s.gmNext slave gm best := hstays.gm.trans (by rw [hnet])
  have hparent : s'.net.parent = s.parentNext slave gm best := hstays.parent.trans (by rw [hnet])
  refine ⟨hstays.ports.trans (by rw [hnet]), fun r i j hr => (hstays.regs r i j hr).trans (hregs r i j hr.1), hparent, hgm,
    fun hroom hne => (hpost (by rw [← hparent]; exact hne) hroom).posts hstays.queue, fun hsl h2 => ?_⟩
  have hts : (s.masterTold slave gm best).timeState = 2 := (hregs R.NET_STAT_STATE 0 0 rfl).trans h2
  have hkeep (x : State) (hx : ∀ q < 2, x.ps q = s.ps q) : x.slaveLost = x := by
    refine slaveLost_slave ?_
    unfold State.isSlave
    rw [hx 0 (by decide), hx 1 (by decide)]
    exact hslave.symm.trans hsl
  have hps : ∀ q < 2, (s.masterTold slave gm best).ps q = s.ps q := fun q _ => hregs _ _ _ rfl
  have hapart : ∀ q < 2, NetApart R.NET_PORT_STAT_PSTATE q 0 := by
    intro q hq
    unfold NetApart Apart
    interval_cases q <;> decide
  rw [hgm]
  rw [hs]
  unfold State.bmcaEnd
  rw [hts, hsl]
  cases hc : s.net.gmId.isSome && s.gmNext true gm best != s.net.gmId with
  | true =>
    rw [Bool.and_eq_true, Option.isSome_iff_ne_none, bne_iff_ne] at hc
    rw [if_pos ⟨hc.1, hc.2.symm⟩, State.doIf_of (by rfl), hkeep, timeState_enterTime _ (by decide)]
    intro q hq
    exact (enterTime_f _ _ (hapart q hq)).trans (by rw [← hsl]; exact hps q hq)
  | false =>
    rw [State.doIf_not (by rfl), hkeep _ (by rw [← hsl]; exact hps), if_neg, ← hsl, hts]
    rintro ⟨h1, h3⟩
    rw [Option.isSome_iff_ne_none.mpr h1, bne_iff_ne.mpr h3.symm] at hc
    exact absurd hc (by decide)

/-! ### The states of the ports -/

theorem psFit_lt (s : State) {v : Nat} (p : Nat) (hv : v < 8) : s.psFit p v < 8 := by
  unfold State.psFit
  split_ifs <;> first | exact hv | decide

theorem recommended_lt (s : State) (p : Nat) (forced : Bool) : s.recommended p forced < 8 := by
  unfold State.recommended
  dsimp only
  split
  · decide
  · split
    · split <;> decide
    · split
      · decide
      · split
        · split_ifs <;> decide
        · decide

/-- The word of a port's state, and that of both. -/
theorem setPs_f (s : State) (p v : Nat) {r : FRef} {i j : Nat} (hk : r.key i j ≠ R.NET_PORT_STAT_PSTATE.key p 0) (h4 : r.key i j ≠ 4) :
    (s.setPs p v).f r i j = s.f r i j := by
  unfold State.setPs
  have h0 : r.key i j ≠ (if p = 0 then R.NET_STAT_PS0 else R.NET_STAT_PS1).key 0 0 := by
    split <;> exact h4
  rw [f_setF_key _ _ h0, f_setF_key _ _ hk]

theorem pstateKey_ne {p q : Nat} (h : q ≠ p) : R.NET_PORT_STAT_PSTATE.key q 0 ≠ R.NET_PORT_STAT_PSTATE.key p 0 := by
  unfold FRef.key
  simp only [R.NET_PORT_STAT_PSTATE]
  omega

theorem pstateKey_ne_stat (p : Nat) : R.NET_PORT_STAT_PSTATE.key p 0 ≠ 4 := by
  unfold FRef.key
  simp only [R.NET_PORT_STAT_PSTATE]
  omega

theorem ps_setPs_same (s : State) (p : Nat) {v : Nat} (hv : v < 8) : (s.setPs p v).ps p = v := by
  unfold State.ps State.setPs
  have h0 : R.NET_PORT_STAT_PSTATE.key p 0 ≠ (if p = 0 then R.NET_STAT_PS0 else R.NET_STAT_PS1).key 0 0 := by
    split <;> exact pstateKey_ne_stat p
  rw [f_setF_key _ _ h0, f_setF_fits _ _ _ _ (by decide) hv]

theorem setPs_net (s : State) (p v : Nat) : (s.setPs p v).net = s.net := by
  unfold State.setPs
  rw [State.setF_net, State.setF_net]

/-- A port as PRE_MASTER begins. -/
def State.preBegun (s : State) (p v steps : Nat) : State :=
  s.doIf (v == psPreMaster && s.ps p != psPreMaster) fun s => s.setPort p { s.port p with preTill := s.now + (steps + 1) * s.annInterval }

theorem takePs_eq (s : State) (p v steps : Nat) : s.takePs p v steps = (s.preBegun p (s.psFit p v) steps).setPs p (s.psFit p v) := rfl

theorem preBegun_keeps (s : State) (p v steps : Nat) : (∀ r i j, (s.preBegun p v steps).f r i j = s.f r i j)
    ∧ (s.preBegun p v steps).net.parent = s.net.parent ∧ (s.preBegun p v steps).net.gmId = s.net.gmId
    ∧ ∀ q, ((s.preBegun p v steps).port q).annAt = (s.port q).annAt ∧ ((s.preBegun p v steps).port q).foreign = (s.port q).foreign := by
  unfold State.preBegun
  cases v == psPreMaster && s.ps p != psPreMaster with
  | false => exact ⟨fun _ _ _ => rfl, rfl, rfl, fun _ => ⟨rfl, rfl⟩⟩
  | true =>
    rw [State.doIf_true]
    refine ⟨fun _ _ _ => f_setPort .., rfl, rfl, fun q => ?_⟩
    by_cases hq : q = p
    · rw [hq, port_setPort]
      exact ⟨rfl, rfl⟩
    · have hother : (s.setPort p { s.port p with preTill := s.now + (steps + 1) * s.annInterval }).port q = s.port q := kget_kset_other _ _ _ hq
      rw [hother]
      exact ⟨rfl, rfl⟩

theorem takePs_keeps (s : State) (p v steps : Nat) :
    (∀ r i j, r.key i j ≠ R.NET_PORT_STAT_PSTATE.key p 0 → r.key i j ≠ 4 → (s.takePs p v steps).f r i j = s.f r i j)
    ∧ (s.takePs p v steps).net.parent = s.net.parent ∧ (s.takePs p v steps).net.gmId = s.net.gmId
    ∧ ∀ q, ((s.takePs p v steps).port q).annAt = (s.port q).annAt ∧ ((s.takePs p v steps).port q).foreign = (s.port q).foreign := by
  obtain ⟨hf, hparent, hgm, hports⟩ := preBegun_keeps s p (s.psFit p v) steps
  rw [takePs_eq]
  refine ⟨fun r i j hk h4 => (setPs_f _ p _ hk h4).trans (hf r i j), by rw [setPs_net, hparent], by rw [setPs_net, hgm], fun q => ?_⟩
  have hport : ((s.preBegun p (s.psFit p v) steps).setPs p (s.psFit p v)).port q = (s.preBegun p (s.psFit p v) steps).port q := by
    unfold State.port
    rw [setPs_net]
  rw [hport]
  exact hports q

theorem ps_takePs_same (s : State) (p steps : Nat) {v : Nat} (hv : v < 8) : (s.takePs p v steps).ps p = s.psFit p v := by
  rw [takePs_eq, ps_setPs_same _ _ (psFit_lt s p hv)]

theorem ps_takePs_other (s : State) {p q : Nat} (v steps : Nat) (h : q ≠ p) : (s.takePs p v steps).ps q = s.ps q :=
  (takePs_keeps s p v steps).1 _ _ _ (pstateKey_ne h) (pstateKey_ne_stat q)

theorem sealed_of_touches {m : Nat} {s s' : State} (h : Touches m s s') (hm : m.testBit 19 = false ∧ m.testBit 17 = false ∧ m.testBit 2 = false) :
    s'.sealed = s.sealed := by
  obtain ⟨hpwr, hhusk, hcfg⟩ := hm
  unfold State.sealed State.alive State.inReset
  rw [h.1 .pwr hpwr, h.1 .husk hhusk, b_of_f (h.f R.CFG_STAT_SEALED 0 0 hcfg)]

/-- What fits a port does not depend on the other's state. -/
theorem psFit_takePs (s : State) (v0 steps v : Nat) : (s.takePs 0 v0 steps).psFit 1 v = s.psFit 1 v := by
  have hf (r : FRef) (i j : Nat) (hk : r.key i j ≠ R.NET_PORT_STAT_PSTATE.key 0 0 ∧ r.key i j ≠ 4) : (s.takePs 0 v0 steps).f r i j = s.f r i j :=
    (takePs_keeps s 0 v0 steps).1 r i j hk.1 hk.2
  have hsealed : (s.takePs 0 v0 steps).sealed = s.sealed := sealed_of_touches tch_takePs (by decide)
  have hon : (s.takePs 0 v0 steps).ptpOn 1 = s.ptpOn 1 := by
    unfold State.ptpOn State.portUp State.portFast
    rw [hsealed, b_of_f (hf R.NET_CTL_EN 0 0 (by decide)), b_of_f (hf R.NET_PORT_CFG_EN 1 0 (by decide)),
      b_of_f (hf R.NET_PORT_STAT_LINK 1 0 (by decide)), hf R.NET_PORT_STAT_SPEED 1 0 (by decide), b_of_f (hf R.NET_CTL_PTP_EN 0 0 (by decide)),
      b_of_f (hf R.NET_PORT_CFG_PTP 1 0 (by decide)), b_of_f (hf R.NET_PTP_CFG_BC 0 0 (by decide)), hf R.NET_PTP_CFG_OC_PORT 0 0 (by decide)]
  unfold State.psFit
  rw [hon, ps_takePs_other s v0 steps (by decide), b_of_f (hf R.NET_PTP_CFG_SLAVE_ONLY 0 0 (by decide))]

theorem bmcaPorts_shows (w : State) (forced : Option Nat) : (∀ q < 2, (w.bmcaPorts forced).ps q = w.psFit q (w.recommended q (forced == some q)))
    ∧ (w.bmcaPorts forced).net.parent = w.net.parent ∧ (w.bmcaPorts forced).net.gmId = w.net.gmId
    ∧ (∀ q, ((w.bmcaPorts forced).port q).annAt = (w.port q).annAt ∧ ((w.bmcaPorts forced).port q).foreign = (w.port q).foreign) := by
  unfold State.bmcaPorts
  extract_lets steps
  have ports (v0 v1 : Nat) (h0 : v0 < 8) (h1 : v1 < 8) : ((w.takePs 0 v0 steps).takePs 1 v1 steps).ps 0 = w.psFit 0 v0
      ∧ ((w.takePs 0 v0 steps).takePs 1 v1 steps).ps 1 = w.psFit 1 v1 := by
    rw [ps_takePs_other _ v1 steps (by decide), ps_takePs_same w 0 steps h0, ps_takePs_same _ 1 steps h1, psFit_takePs]
    exact ⟨rfl, rfl⟩
  obtain ⟨hps0, hps1⟩ := ports _ _ (recommended_lt w 0 (forced == some 0)) (recommended_lt w 1 (forced == some 1))
  obtain ⟨-, hparent0, hgm0, hports0⟩ := takePs_keeps w 0 (w.recommended 0 (forced == some 0)) steps
  obtain ⟨-, hparent1, hgm1, hports1⟩ := takePs_keeps (w.takePs 0 (w.recommended 0 (forced == some 0)) steps) 1 (w.recommended 1 (forced == some 1)) steps
  refine ⟨fun q hq => ?_, hparent1.trans hparent0, hgm1.trans hgm0,
    fun q => ⟨(hports1 q).1.trans (hports0 q).1, (hports1 q).2.trans (hports0 q).2⟩⟩
  match q, hq with
  | 0, _ => exact hps0
  | 1, _ => exact hps1

theorem bmcaPorts_touches (w : State) (forced : Option Nat) : Touches 268436480 w (w.bmcaPorts forced) := tch_takePs.comp (by decide) tch_takePs

theorem takePs_tofs (s : State) (p v steps : Nat) : (s.takePs p v steps).net.tofs = s.net.tofs := by
  rw [takePs_eq, setPs_net]
  unfold State.preBegun
  exact eq_doIf (fun x : State => x.net.tofs) rfl

theorem bmcaPorts_tofs (w : State) (forced : Option Nat) : (w.bmcaPorts forced).net.tofs = w.net.tofs := by
  unfold State.bmcaPorts
  dsimp only
  rw [takePs_tofs, takePs_tofs]

theorem shortTs_of_tofs {s u : State} (hnow : u.now = s.now) (hclk : u.clk = s.clk) (htofs : u.net.tofs = s.net.tofs) : u.shortTs = s.shortTs := by
  unfold State.shortTs State.ntime State.pwmTime
  rw [hnow, hclk, htofs]

theorem bmcaPorts_timeState (w : State) (forced : Option Nat) : (w.bmcaPorts forced).timeState = w.timeState := by
  have hset (s : State) (p v : Nat) : (s.setPs p v).timeState = s.timeState := by
    unfold State.timeState State.setPs
    have hk : R.NET_STAT_STATE.key 0 0 ≠ R.NET_PORT_STAT_PSTATE.key p 0 := (pstateKey_ne_stat p).symm
    split
    · rw [f_setF_bits _ _ _ _ _ _ (by decide), f_setF_key _ _ hk]
    · rw [f_setF_bits _ _ _ _ _ _ (by decide), f_setF_key _ _ hk]
  have htake (s : State) (p v steps : Nat) : (s.takePs p v steps).timeState = s.timeState := by
    rw [takePs_eq, hset]
    exact (preBegun_keeps ..).1 ..
  unfold State.bmcaPorts
  dsimp only
  rw [htake, htake]

/-- What GM and stepsRemoved show. -/
theorem bmcaShown_shows (v : State) (steps : Nat) : (v.bmcaShown steps).net = v.net ∧ (∀ q, (v.bmcaShown steps).ps q = v.ps q)
    ∧ (v.bmcaShown steps).b R.NET_STAT_GM = v.isGm ∧ (v.bmcaShown steps).f R.NET_STAT_STEPS_REMOVED = (if v.isSlave then satN 8 steps else 0)
    ∧ (v.bmcaShown steps).timeState = v.timeState := by
  have hfit : (if v.isSlave then satN 8 steps else 0) < 2 ^ 8 := by
    split
    · exact satN_lt 8 steps
    · decide
  unfold State.bmcaShown
  refine ⟨by rw [State.setF_net, State.setB_net], fun q => ?_, ?_, f_setF_fits _ _ _ _ (by decide) hfit, ?_⟩
  · unfold State.ps
    rw [f_setF_key (r := R.NET_STAT_STEPS_REMOVED) _ _ (pstateKey_ne_stat q), f_setB_key (r := R.NET_STAT_GM) _ _ (pstateKey_ne_stat q)]
  · rw [b_setF_bits _ _ _ _ _ _ (by decide), b_setB_same _ _ _ _ _ (by decide)]
  · unfold State.timeState
    rw [f_setF_bits _ _ _ _ _ _ (by decide), f_setB_bits _ _ _ _ _ _ (by decide)]

theorem isSlave_iff (v : State) : v.isSlave = true ↔ v.ps 0 = 6 ∨ v.ps 1 = 6 := by
  unfold State.isSlave
  simp

theorem isGm_iff (v : State) : v.isGm = true ↔ v.ps 0 ≠ 6 ∧ v.ps 1 ≠ 6 ∧ (v.ps 0 = 3 ∨ v.ps 1 = 3) := by
  unfold State.isGm State.isSlave
  simp [and_assoc]

/-- The outcome of the best master clock algorithm (R406, R409). -/
theorem bmca_outcome {w : State} (forced : Option Nat) (hen : w.b R.NET_CTL_PTP_EN = true) (s' : State) (hs : s' = w.bmca forced) :
    (∀ q, (s'.port q).annAt = (w.port q).annAt ∧ (s'.port q).foreign = (w.port q).foreign)
      ∧ (∀ q < 2, s'.ps q = w.psFit q (w.recommended q (forced == some q)))
      ∧ (s'.b R.NET_STAT_GM = true ↔ s'.ps 0 ≠ 6 ∧ s'.ps 1 ≠ 6 ∧ (s'.ps 0 = 3 ∨ s'.ps 1 = 3))
      ∧ (w.room → s'.net.parent ≠ w.net.parent → Posts w s' E.PARENT_CHANGED)
      ∧ (s'.ps 0 = 6 ∨ s'.ps 1 = 6 →
        (∀ (q : Nat) (e : Announce), w.eBest = some (q, e) → s'.net.parent = some (e.src, e.srcPort) ∧ s'.net.gmId = some e.gm
          ∧ s'.f R.NET_STAT_STEPS_REMOVED = min (e.steps + 1) 255)
        ∧ (w.timeState = 2 → s'.timeState = if w.net.gmId ≠ none ∧ w.net.gmId ≠ s'.net.gmId then 1 else 2)) := by
  obtain ⟨hps, hparent, hgmId, hports⟩ := bmcaPorts_shows w forced
  have hts := bmcaPorts_timeState w forced
  have htch := bmcaPorts_touches w forced
  have htofs := bmcaPorts_tofs w forced
  rw [bmca_eq hen] at hs
  generalize hsteps : (w.eBest.map fun x => x.2.steps + 1).getD 0 = steps at hs
  generalize hbest : w.eBest = best at *
  generalize w.bmcaPorts forced = v at *
  obtain ⟨knet, kps, kgm, ksteps, kts⟩ := bmcaShown_shows v steps
  have kslave : v.isSlave = (v.bmcaShown steps).isSlave := by
    unfold State.isSlave
    rw [kps, kps]
  have kshown : Touches 1024 v (v.bmcaShown steps) := tch_setF.comp (by decide) (tch_setB.mono (by decide))
  obtain ⟨eports, eregs, eparent, egm, epost, eacq⟩ := bmcaEnd_shows (v.bmcaShown steps) v.isSlave v.isGm best kslave s' hs
  have hapart : ∀ q < 2, NetApart R.NET_PORT_STAT_PSTATE q 0 := by
    intro q hq
    unfold NetApart Apart
    interval_cases q <;> decide
  have sps (q : Nat) (hq : q < 2) : s'.ps q = v.ps q := (eregs _ _ _ (hapart q hq)).trans (kps q)
  have sgm : s'.b R.NET_STAT_GM = v.isGm := (b_of_f (eregs R.NET_STAT_GM 0 0 ⟨rfl, .inr (.inr (by decide)), by decide, by decide⟩)).trans kgm
  have hall : Touches 268436480 w (v.bmcaShown steps) := kshown.comp (by decide) htch
  refine ⟨fun q => ?_, fun q hq => (sps q hq).trans (hps q hq), ?_, fun hroom hne => ?_, fun hslave => ⟨fun q e he => ?_, fun h2 => ?_⟩⟩
  · unfold State.port
    rw [eports, knet]
    exact hports q
  · rw [sgm, isGm_iff, sps 0 (by decide), sps 1 (by decide)]
  · have hsys := hall.sysSame (by decide)
    have hts' : (v.bmcaShown steps).shortTs = w.shortTs :=
      shortTs_of_tofs (hall.1 .now (by decide)) (hall.1 .clk (by decide)) (by rw [knet, htofs])
    obtain ⟨a, q, b, hq, hevt⟩ := epost (by unfold State.room; rw [hsys]; exact hroom) (by rw [knet, hparent]; exact hne)
    exact ⟨a, q, b, by rw [hq, hsys], by rw [hevt, hts']⟩
  · rw [sps 0 (by decide), sps 1 (by decide)] at hslave
    have hsl := (isSlave_iff v).mpr hslave
    subst he hsteps
    rw [eparent, egm, eregs R.NET_STAT_STEPS_REMOVED 0 0 ⟨rfl, .inr (.inr (by decide)), by decide, by decide⟩, ksteps, hsl]
    exact ⟨rfl, rfl, rfl⟩
  · rw [sps 0 (by decide), sps 1 (by decide)] at hslave
    have := eacq ((isSlave_iff v).mpr hslave) (kts.trans (hts.trans h2))
    rwa [knet, hgmId] at this

section Announces
variable {s u : State} {t : Instant} {p : Nat}

theorem ptpOn_parts (h : u.ptpOn p = true) : p < 2 ∧ u.b R.NET_CTL_PTP_EN = true := by
  unfold State.ptpOn State.portUp at h
  simp only [Bool.and_eq_true, decide_eq_true_eq] at h
  exact ⟨h.1.1.1.1.1.1.1.2, h.1.1.2⟩

theorem exec_ptpAnnounce {a : Announce} (hon : (s.start t).ptpOn p = true) (hsrc : a.src ≠ (s.start t).clockId) (hsteps : a.steps < 255) :
    exec (.ptpAnnounce t p a) s = .next (((s.start t).keepAnnounce p a).bmca none) :=
  congrArg Host.Outcome.next (State.doIf_of (by rw [hon, bne_iff_ne.mpr hsrc, decide_eq_true hsteps]; rfl))

theorem exec_announceTimeout (hon : (s.start t).ptpOn p = true)
    (hps : (s.start t).ps p = 6 ∨ (s.start t).ps p = 5 ∨ (s.start t).ps p = 4 ∨ (s.start t).ps p = 1)
    (hwait : ((s.start t).port p).annAt + (s.start t).f R.NET_PTP_CFG_ANN_TO * logInterval ((s.start t).f R.NET_PTP_CFG_LOG_ANN) ≤ (s.start t).now) :
    exec (.announceTimeout t p) s =
      .next (((s.start t).setPort p { (s.start t).port p with annAt := (s.start t).now, foreign := [] }).bmca (some p)) := by
  refine congrArg Host.Outcome.next (State.doIf_of ?_)
  unfold State.annInterval
  rw [hon, decide_eq_true hwait]
  rcases hps with h | h | h | h <;> rw [h] <;> rfl

theorem keepAnnounce_port (u : State) (p : Nat) (a : Announce) : ∃ (x : PortSt) (before : Option Instant) (old : List (Announce × Instant × Option Instant)),
    u.keepAnnounce p a = u.setPort p x ∧ x.annAt = u.now ∧ x.foreign = (a, u.now, before) :: old := ⟨_, _, _, rfl, rfl, rfl⟩

/-- What an Announce, or its absence, brings: the algorithm runs on a port record of this instant. -/
theorem announced_outcome (u : State) (p : Nat) (x : PortSt) (forced : Option Nat) (hon : u.ptpOn p = true) (hx : x.annAt = u.now) (w s' : State)
    (hw : w = u.setPort p x) (hs : s' = w.bmca forced) : ((s'.port p).annAt = u.now
        ∧ (∀ q < 2, s'.ps q = w.psFit q (w.recommended q (forced == some q)))
        ∧ (s'.b R.NET_STAT_GM = true ↔ s'.ps 0 ≠ 6 ∧ s'.ps 1 ≠ 6 ∧ (s'.ps 0 = 3 ∨ s'.ps 1 = 3))
        ∧ (u.room → s'.net.parent ≠ u.net.parent → Posts u s' E.PARENT_CHANGED)
        ∧ (s'.ps 0 = 6 ∨ s'.ps 1 = 6 →
          (∀ (q : Nat) (e : Announce), w.eBest = some (q, e) → s'.net.parent = some (e.src, e.srcPort) ∧ s'.net.gmId = some e.gm
            ∧ s'.f R.NET_STAT_STEPS_REMOVED = min (e.steps + 1) 255)
          ∧ (u.timeState = 2 → s'.timeState = if u.net.gmId ≠ none ∧ u.net.gmId ≠ s'.net.gmId then 1 else 2)))
      ∧ (s'.port p).foreign = x.foreign := by
  have hen : w.b R.NET_CTL_PTP_EN = true := by
    rw [hw, b_setPort]
    exact (ptpOn_parts hon).2
  have hport : w.port p = x := by rw [hw, port_setPort]
  obtain ⟨hports, hps, hgm, hpost, hslave⟩ := bmca_outcome forced hen s' hs
  obtain ⟨hann, hforeign⟩ := hports p
  rw [hport] at hann hforeign
  refine ⟨⟨hann.trans hx, hps, hgm, fun hroom hne => ?_, fun hsl => ?_⟩, hforeign⟩
  · rw [hw] at hpost
    exact hpost hroom hne
  · obtain ⟨hmaster, hacq⟩ := hslave hsl
    rw [hw] at hacq
    exact ⟨hmaster, hacq⟩

end Announces

/-! ## Holdover, delay and messages -/

section Messages
variable {s u : State} {t : Instant} {p : Nat}

theorem exec_syncLoss (hon : (s.start t).ptpOn p = true) (hps : (s.start t).ps p = 6) (hst : (s.start t).timeState = 2)
    (hwait : ((s.start t).port p).syncAt + 3 * logInterval ((s.start t).f R.NET_PTP_CFG_LOG_SYNC) ≤ (s.start t).now) :
    exec (.syncLoss t p) s = .next ((s.start t).enterTime tmHoldover) :=
  congrArg Host.Outcome.next (State.doIf_of (by rw [hon, hps, hst, decide_eq_true hwait]; rfl))

/-- A measured delay. -/
def State.delaySet (s : State) (p : Nat) (d : Rat) : State :=
  (s.setPort p { s.port p with delay := d }).setF R.NET_PORT_DELAY_DELAY (satN 32 (roundHalf (d * 8)).toNat) p

theorem exec_ptpDelay_ends {t1 t2 t3 t4 : Rat} (hon : (s.start t).ptpOn p = true) (hp2p : (s.start t).b R.NET_PTP_CFG_P2P = false)
    (hps : (s.start t).ps p = 6) : exec (.ptpDelay t p t1 t2 t3 t4) s =
      .next ((s.start t).delaySet p ((((s.start t).ingress p t2 - t1) + (t4 - (s.start t).egress p t3)) / 2)) := by
  have hring : (((s.start t).ingress p t2 - t1 - (s.start t).asym p) + (t4 - (s.start t).egress p t3 + (s.start t).asym p)) / 2
      = (((s.start t).ingress p t2 - t1) + (t4 - (s.start t).egress p t3)) / 2 := by ring
  rw [← hring]
  refine congrArg Host.Outcome.next ((State.doIf_of ?_).trans ?_)
  · rw [hon, hp2p, hps]
    rfl
  · dsimp only
    rw [hp2p]
    rfl

theorem exec_ptpDelay_peers {t1 t2 t3 t4 : Rat} (hon : (s.start t).ptpOn p = true) (hp2p : (s.start t).b R.NET_PTP_CFG_P2P = true) :
    exec (.ptpDelay t p t1 t2 t3 t4) s =
      .next ((s.start t).delaySet p (((t2 - (s.start t).egress p t1) + ((s.start t).ingress p t4 - t3)) / 2)) := by
  have hring : ((t2 - (s.start t).egress p t1 + (s.start t).asym p) + ((s.start t).ingress p t4 - t3 - (s.start t).asym p)) / 2
      = ((t2 - (s.start t).egress p t1) + ((s.start t).ingress p t4 - t3)) / 2 := by ring
  rw [← hring]
  refine congrArg Host.Outcome.next ((State.doIf_of ?_).trans ?_)
  · rw [hon, hp2p]
    rfl
  · dsimp only
    rw [hp2p]
    rfl

theorem delaySet_shows (u : State) (p : Nat) (d : Rat) : ((u.delaySet p d).port p).delay = d
    ∧ (u.delaySet p d).f R.NET_PORT_DELAY_DELAY p = min (roundHalf (d * 8)).toNat (2 ^ 32 - 1) := by
  unfold State.delaySet
  refine ⟨?_, f_setF_fits _ _ _ _ (by decide) (satN_lt 32 _)⟩
  unfold State.port
  rw [State.setF_net, setPort_net, kget_kset_same]

theorem exec_ptpMessageInterval {kind : Nat} (hon : (s.start t).ptpOn p = true) (hkind : kind = 0 ∨ kind = 1) (hps : (s.start t).ps p = 3)
    (hdue : kget 0 ((s.start t).port p).sentAt kind = 0 ∨ kget 0 ((s.start t).port p).sentAt kind
      + logInterval (if kind = 0 then (s.start t).f R.NET_PTP_CFG_LOG_SYNC else (s.start t).f R.NET_PTP_CFG_LOG_ANN) ≤ (s.start t).now + 1) :
    exec (.ptpMessageInterval t p kind) s = .next ((s.start t).ptpSend p kind) := by
  have hpre : (s.start t).doIf ((s.start t).ptpOn p && (s.start t).ps p == psPreMaster && decide (((s.start t).port p).preTill ≤ (s.start t).now))
      (·.setPs p psMaster) = s.start t :=
    State.doIf_not (by rw [hps, show ((3 : Nat) == psPreMaster) = false from rfl, Bool.and_false, Bool.false_and])
  show execPtpMessageInterval t p kind s = _
  unfold execPtpMessageInterval
  dsimp only
  rw [hpre]
  refine congrArg Host.Outcome.next (State.doIf_of ?_)
  rcases hkind with rfl | rfl
  · rw [if_pos rfl] at hdue
    rw [hon, hps]
    simpa using hdue
  · rw [if_neg (by decide)] at hdue
    rw [hon, hps]
    simpa using hdue

/-- A message of the time engine in line. -/
def State.ptpQueued (s : State) (p kind : Nat) : State :=
  s.setPort p { s.port p with ptpOut := (s.port p).ptpOut ++ [kind], sentAt := kset 0 (s.port p).sentAt kind (s.now + 1) }

theorem ptpSend_eq (s : State) (p kind : Nat) : s.ptpSend p kind = (s.ptpQueued p kind).txKick p := rfl

theorem txKick_busy {v : State} (h : (v.port p).busy ≠ none) : v.txKick p = v := by
  unfold State.txKick
  dsimp only
  rw [if_pos (by rw [Option.isSome_iff_ne_none.mpr h]; rfl)]

/-- An idle port starts a message of the time engine before other frames of its class (R403). -/
theorem txKick_ptp {v : State} {k : Nat} {ks : List Nat} (hbusy : (v.port p).busy = none) (hup : v.portUp p = true) (hon : v.ptpOn p = true)
    (hmay : v.maySend p 1 = true) (hout : (v.port p).ptpOut = k :: ks) (hnear : v.launchNear p (v.frameTime p (v.ptpLen k)) = false) :
    v.txKick p = (v.setPort p { v.port p with ptpOut := ks }).startFrame p 1 k (v.ptpLen k) [BitVec.ofNat 8 k] := by
  unfold State.txKick
  dsimp only
  rw [if_neg (by rw [hbusy, hup]; decide), if_pos (by rw [hon, hmay]; rfl), hout]
  dsimp only
  rw [if_neg (by rw [hnear]; decide)]
  rfl

theorem ptpOn_up (h : u.ptpOn p = true) : u.portUp p = true := by
  unfold State.ptpOn at h
  simp only [Bool.and_eq_true] at h
  exact h.1.1.1.1

theorem installSak_port (v : State) (p slot : Nat) : (v.installSak p slot).port p = { v.port p with txPn := 0, rxPn := [] } := by
  have hports := (installSak_net v p slot).1
  have : (v.installSak p slot).port p = (v.setPort p { v.port p with txPn := 0, rxPn := [] }).port p := by
    unfold State.port
    rw [hports]
    rfl
  rw [this, port_setPort]

/-- A packet number leaves what is on the wire and in line. -/
theorem takePn_port (v : State) (p cls : Nat) : ((v.takePn p cls).port p).busy = (v.port p).busy ∧ ((v.takePn p cls).port p).ptpOut = (v.port p).ptpOut := by
  unfold State.takePn
  split
  · exact ⟨rfl, rfl⟩
  · extract_lets n x w
    have hw : w.port p = { v.port p with txPn := n } := port_setPort ..
    split
    · unfold State.doIf
      split
      · rw [installSak_port, hw]
        exact ⟨rfl, rfl⟩
      · rw [hw]
        exact ⟨rfl, rfl⟩
    · rw [hw]
      exact ⟨rfl, rfl⟩

theorem port_emit (v : State) (o : Output) (p : Nat) : (v.emit o).port p = v.port p := rfl

theorem startFrame_port (v : State) (p cls kind len : Nat) (bytes : List Byte) :
    ((v.startFrame p cls kind len bytes).port p).busy = some (cls, kind, v.now + v.frameTime p len)
      ∧ ((v.startFrame p cls kind len bytes).port p).ptpOut = (v.port p).ptpOut := by
  unfold State.startFrame
  rw [port_emit]
  obtain ⟨hbusy, hout⟩ := takePn_port (v.setPort p { v.port p with busy := some (cls, kind, v.now + v.frameTime p len) }) p cls
  rw [hbusy, hout, port_setPort]
  exact ⟨rfl, rfl⟩

theorem ptpQueued_port (u : State) (p kind : Nat) :
    (u.ptpQueued p kind).port p = { u.port p with ptpOut := (u.port p).ptpOut ++ [kind], sentAt := kset 0 (u.port p).sentAt kind (u.now + 1) } :=
  port_setPort ..

/-- The line changes neither the port's clearance nor the pace of its frames. -/
theorem ptpQueued_port_parts (u : State) (p kind : Nat) : (u.ptpQueued p kind).portUp p = u.portUp p ∧ (u.ptpQueued p kind).ptpOn p = u.ptpOn p
    ∧ (u.ptpQueued p kind).maySend p 1 = u.maySend p 1 ∧ (u.ptpQueued p kind).launchNear p = u.launchNear p
    ∧ (u.ptpQueued p kind).frameTime p = u.frameTime p ∧ (u.ptpQueued p kind).ptpLen = u.ptpLen := ⟨rfl, rfl, rfl, rfl, rfl, rfl⟩

theorem ptpSend_waits {kind : Nat} (hbusy : (u.port p).busy ≠ none) : u.ptpSend p kind = u.ptpQueued p kind := by
  rw [ptpSend_eq, txKick_busy]
  rw [ptpQueued_port]
  exact hbusy

theorem ptpSend_starts {kind : Nat} (hon : u.ptpOn p = true) (hbusy : (u.port p).busy = none) (hout : (u.port p).ptpOut = []) (hmay : u.maySend p 1 = true)
    (hnear : u.launchNear p (u.frameTime p (u.ptpLen kind)) = false) :
    ((u.ptpSend p kind).port p).busy = some (1, kind, u.now + u.frameTime p (u.ptpLen kind)) ∧ ((u.ptpSend p kind).port p).ptpOut = [] := by
  obtain ⟨kup, kon, kmay, knear, ktime, klen⟩ := ptpQueued_port_parts u p kind
  have hport := ptpQueued_port u p kind
  have hnow : (u.ptpQueued p kind).now = u.now := rfl
  rw [ptpSend_eq]
  generalize u.ptpQueued p kind = v at *
  rw [txKick_ptp (k := kind) (ks := []) (by rw [hport]; exact hbusy) (by rw [kup, ptpOn_up hon]) (by rw [kon, hon]) (by rw [kmay, hmay])
    (by rw [hport, hout]; rfl) (by rw [knear, ktime, klen, hnear])]
  obtain ⟨hbusy', hout'⟩ := startFrame_port (v.setPort p { v.port p with ptpOut := [] }) p 1 kind (v.ptpLen kind) [BitVec.ofNat 8 kind]
  have htime : (v.setPort p { v.port p with ptpOut := [] }).frameTime p = v.frameTime p := rfl
  rw [hbusy', hout', port_setPort, setPort_now, htime, hnow, ktime, klen]
  exact ⟨rfl, rfl⟩

end Messages

/-! ## Steps -/

section Steps
variable {s u w : State} {t : Instant} {d : Int} {at_ : Instant}

theorem exec_stepApplied (hs : (s.start t).sealed = true) (hstep : (s.start t).net.step = some (d, at_)) (hwait : at_ + 10 * usQ ≤ (s.start t).now)
    (hquiet : (s.start t).quiet = true) (hcar : (s.start t).carrierNear = false) (hntev : (s.start t).ntevNear = false)
    (hlaunch : (s.start t).launchSoon = false) : exec (.stepApplied t) s = .next ((s.start t).applyStep d) := by
  refine congrArg Host.Outcome.next ?_
  rw [hstep]
  exact State.doIf_of (by rw [hs, decide_eq_true hwait, hquiet, hcar, hntev, hlaunch]; rfl)

theorem exec_stepForced (hs : (s.start t).sealed = true) (hstep : (s.start t).net.step = some (d, at_)) (hwait : at_ + 100 * msQ ≤ (s.start t).now) :
    exec (.stepForced t) s = .next ((((List.range 28).foldl (fun s T => s.forceTarget T) (s.start t)).applyStep d).settle.raise R.NET_STEP_STAT_FORCED 0
      E.STEP_FORCED 0) := by
  refine congrArg Host.Outcome.next ?_
  rw [hstep]
  exact State.doIf_of (by rw [hs, decide_eq_true hwait]; rfl)

/-- A step as NTIME and its count show it. -/
def State.stepCounted (s : State) (d : Int) : State :=
  State.incF { s with net := { s.net with tofs := (s.net.tofs + d).bmod (2 ^ 64), parity := !s.net.parity, lastStep := d, stepTick := some s.pwmTime,
                                          step := none, run := 0 } } R.NET_STEP_STAT_STEPS

theorem applyStep_eq (s : State) (d : Int) : s.applyStep d = (s.stepCounted d).post E.STEP_APPLIED 0 (satWord d) := rfl

theorem applyStep_shows (v : State) (d : Int) : (v.applyStep d).net.tofs = (v.net.tofs + d).bmod (2 ^ 64) ∧ (v.applyStep d).net.parity = !v.net.parity
    ∧ (v.applyStep d).net.step = none ∧ (v.applyStep d).f R.NET_STEP_STAT_STEPS = min (v.f R.NET_STEP_STAT_STEPS + 1) (2 ^ 16 - 1) := by
  rw [applyStep_eq, State.post_net, f_post _ _ _ _ _ _ _ _ (by decide)]
  unfold State.stepCounted
  rw [State.incF_net, f_incF_same _ _ _ _ _ (by decide), f_upd_net]
  exact ⟨rfl, rfl, rfl, rfl⟩

theorem applyStep_reports (u : State) (d : Int) (hroom : u.room) : ∃ x, (u.applyStep d).sys.queue = u.sys.queue ++ [x]
    ∧ x.evt.cls = E.STEP_APPLIED.1.code ∧ x.evt.code = E.STEP_APPLIED.2 ∧ x.evt.w0 = satWord d := by
  have hsys : (u.stepCounted d).sys = u.sys := by
    unfold State.stepCounted
    rw [State.incF_sys]
  obtain ⟨x, hx, hevt⟩ := State.post_sys (u.stepCounted d) E.STEP_APPLIED 0 (satWord d) 0 (by unfold State.room; rw [hsys]; exact hroom)
  rw [hsys] at hx
  exact ⟨x, hx, by rw [hevt], by rw [hevt], by rw [hevt]⟩

theorem forceTargets_touches (u : State) : Touches 1683686539713 u ((List.range 28).foldl (fun s T => s.forceTarget T) u) :=
  .foldl (.refl _ _) fun _ _ h => tch_forceTarget.comp (by decide) h

theorem stepForced_shows (u : State) (d : Int) (s' : State)
    (hs : s' = (((List.range 28).foldl (fun s T => s.forceTarget T) u).applyStep d).settle.raise R.NET_STEP_STAT_FORCED 0 E.STEP_FORCED 0) :
    (s'.net.tofs = (u.net.tofs + d).bmod (2 ^ 64) ∧ s'.net.parity = !u.net.parity ∧ s'.net.step = none
      ∧ s'.f R.NET_STEP_STAT_STEPS = min (u.f R.NET_STEP_STAT_STEPS + 1) (2 ^ 16 - 1)) ∧ s'.b R.NET_STEP_STAT_FORCED = true := by
  have htch := forceTargets_touches u
  generalize (List.range 28).foldl (fun s T => s.forceTarget T) u = v at *
  have hnet : v.net = u.net := htch.1 .net (by decide)
  have hsteps : v.f R.NET_STEP_STAT_STEPS = u.f R.NET_STEP_STAT_STEPS := htch.f _ _ _ (by decide)
  obtain ⟨htofs, hparity, hstep, hcount⟩ := applyStep_shows v d
  generalize v.applyStep d = x at *
  have hsettle : x.settle.net = x.net := tch_settle.1 .net (by decide)
  have hsettleF : x.settle.f R.NET_STEP_STAT_STEPS = x.f R.NET_STEP_STAT_STEPS := tch_settle.f _ _ _ (by decide)
  generalize x.settle = y at *
  have hraise : (y.raise R.NET_STEP_STAT_FORCED 0 E.STEP_FORCED 0).net = y.net := tch_raise.1 .net (by decide)
  subst hs
  refine ⟨?_, b_raise_same _ _ _ _ _ _ _ (by decide) (by decide)⟩
  rw [hraise, f_raise_apart y R.NET_STEP_STAT_FORCED R.NET_STEP_STAT_STEPS 0 0 0 _ _ _ _ (by decide) (.inr (.inr (by decide))), hsettle, hsettleF, htofs,
    hparity, hstep, hcount, hnet, hsteps]
  exact ⟨rfl, rfl, rfl, rfl⟩

variable {fn : Nat} {data : Word}

theorem exec_set (h : (s.start t).actionWrite fn R.NET_TIME_CMD_SET data = (w, true)) : exec (.set t fn data) s = .next
    (if w.timeState = tmFree ∧ !w.b R.NET_STAT_GM then
      { w with net := { w.net with
          step := some (signed 64 (w.f R.NET_TIME_SET_LO_TIME + w.f R.NET_TIME_SET_HI_TIME * 2 ^ 32) - w.ntime, w.now) } }
    else w.post E.TIME_SET_REFUSED) :=
  action_passes h fun s go => s.doIf go fun s =>
      if s.timeState = tmFree ∧ !s.b R.NET_STAT_GM then
        let v := signed 64 (s.f R.NET_TIME_SET_LO_TIME + s.f R.NET_TIME_SET_HI_TIME * 2 ^ 32)
        { s with net := { s.net with step := some (v - s.ntime, s.now) } }
      else s.post E.TIME_SET_REFUSED

end Steps

/-! ## The statement -/

/-- Settles O55: a Sync by the servo state that it finds, an Announce by the outcome of the algorithm, each interval and step by what it waits for. -/
theorem timeEngineFollowsItsMaster : Obligations.TimeEngineFollowsItsMaster := by
  unfold Obligations.TimeEngineFollowsItsMaster
  rintro s u t rfl hs
  refine ⟨?sync, ?announce, ?loss, ?delay, ?message, ?step, ?set⟩
  case sync =>
    intro p origin raw th hon hps hdef lo hi want ki
    have hexec := exec_ptpSync (s := s) (t := t) (origin := origin) (raw := raw) hon hps
    have hth : (s.start t).theta p origin raw = th := hdef.symm
    rw [hth] at hexec
    refine ⟨fun h0 h3 => ⟨_, hexec, ?_⟩, fun h03 => ⟨_, hexec, ?_⟩, fun h1 hrun hle hge => ⟨_, hexec, ?_⟩, fun h12 hnone hrun hle => ⟨_, hexec, ?_⟩⟩
    · rw [syncHeard_following h0 h3]
      obtain ⟨hat, hoffset, hf, hlocked, hother⟩ := synced_shows (s.start t) p th _ rfl
      refine ⟨hat, hoffset, hf, hlocked, hother, fun hlo hhi => ?_⟩
      obtain ⟨hrun, hstep, hinteg⟩ := synced_small (s := (s.start t).syncNoted p th) hlo hhi
      obtain ⟨-, hnext, -, -⟩ := syncNoted_servo (s.start t) p th
      have hnet := syncNoted_net (s.start t) p th
      exact ⟨fun h => hrun (by rw [hnet]; exact h), by rw [hstep, hnet], fun hl hh => by rw [hinteg, hnext]; exact integNext_within hl hh,
        fun h => by rw [hinteg, hnext]; exact integNext_beyond h⟩
    · obtain ⟨hst, hrun, hlock⟩ := syncHeard_begins p th h03
      exact synced_acquiring hst hrun hlock
    · rw [syncHeard_following (by omega) (by omega)]
      obtain ⟨-, -, -, hst⟩ := syncNoted_servo (s.start t) p th
      have hthr := syncNoted_f (s.start t) p th (r := R.NET_SERVO_LIM_LOCK_THR) (i := 0) (j := 0) (by decide)
      exact synced_locks (hst.trans h1) (by rw [syncNoted_net]; exact hrun) (by rw [hthr]; exact hle) (by rw [hthr]; exact hge)
    · rw [syncHeard_following (by omega) (by omega)]
      obtain ⟨-, -, -, hst⟩ := syncNoted_servo (s.start t) p th
      obtain ⟨hstep, hinteg, hzero, hacq⟩ := synced_decides (s := (s.start t).syncNoted p th) (by rw [hst]; exact h12)
        (by rw [syncNoted_net]; exact hnone) (by rw [syncNoted_net]; exact hrun) hle
      rw [syncNoted_now] at hstep
      exact ⟨hstep, hinteg, hzero, fun h2 => hacq (hst.trans h2)⟩
  case announce =>
    intro p a hon decided
    refine ⟨fun hsrc hsteps => ⟨_, exec_ptpAnnounce hon hsrc hsteps, ?_⟩, fun hps hwait => ⟨_, exec_announceTimeout hon hps hwait, ?_⟩⟩
    · obtain ⟨x, before, old, hkeep, hx, hnew⟩ := keepAnnounce_port (s.start t) p a
      obtain ⟨hout, hforeign⟩ := announced_outcome (s.start t) p x none hon hx _ _ hkeep rfl
      rw [hnew] at hforeign
      exact ⟨hout, _, by rw [hforeign]; exact List.mem_cons_self⟩
    · obtain ⟨hout, hforeign⟩ := announced_outcome (s.start t) p { (s.start t).port p with annAt := (s.start t).now, foreign := [] } (some p) hon rfl _ _ rfl rfl
      exact ⟨hout, hforeign⟩
  case loss =>
    intro p hon hps hst hwait hroom
    have hne : (s.start t).timeState ≠ 3 := by rw [hst]; decide
    have hnet := enterTime_holdover hne
    exact ⟨_, exec_syncLoss hon hps hst hwait, timeState_enterTime _ (by decide), enterTime_reports hne hroom, by rw [hnet], by rw [hnet]⟩
  case delay =>
    intro p t1 t2 t3 t4 hon delay
    exact ⟨fun hp2p hps => ⟨_, exec_ptpDelay_ends hon hp2p hps, delaySet_shows ..⟩, fun hp2p => ⟨_, exec_ptpDelay_peers hon hp2p, delaySet_shows ..⟩⟩
  case message =>
    intro p kind hon hkind hps hdue
    have hexec := exec_ptpMessageInterval hon hkind hps hdue
    refine ⟨fun hbusy => ⟨_, hexec, ?_⟩, fun hbusy hout hmay hnear => ⟨_, hexec, ptpSend_starts hon hbusy hout hmay hnear⟩⟩
    rw [ptpSend_waits hbusy]
    dsimp only
    rw [ptpQueued_port]
    exact ⟨rfl, kget_kset_same 0 ((s.start t).port p).sentAt kind ((s.start t).now + 1), rfl⟩
  case step =>
    intro d at_ hstep stepped
    exact ⟨fun hwait hquiet hcar hntev hlaunch hroom => ⟨_, exec_stepApplied hs hstep hwait hquiet hcar hntev hlaunch, applyStep_shows .., applyStep_reports _ d hroom⟩,
      fun hwait => ⟨_, exec_stepForced hs hstep hwait, stepForced_shows _ d _ rfl⟩⟩
  case set =>
    intro w fn data hw
    have hexec := exec_set hw
    refine ⟨fun hst hgm => ⟨_, hexec, ?_⟩, fun hor hroom => ⟨_, hexec, ?_⟩⟩
    · rw [if_pos ⟨hst, by rw [hgm]; rfl⟩]
      exact ⟨rfl, rfl⟩
    · rw [if_neg]
      · exact ⟨State.post_sys _ _ _ _ _ hroom, State.post_net ..⟩
      · rintro ⟨h0, hgm⟩
        rcases hor with h | h
        · exact h h0
        · rw [h] at hgm
          exact absurd hgm (by decide)

end Sys2Proof.Machine
end

section
/-! PROOFS. O54. Ethernet links, launch queues, received frames, frame items and the wake slot (R401 to R403, R417 to R420, R422, R423, R425). -/
namespace Sys2Proof.Machine

/-! ## Items and reports of frames -/

/-- An item of NET goes on the mesh, and changes nothing beside it. -/
theorem frameItem_keeps (s : State) (k tag kind port queue status len : Nat) (time : Int) (extra : Nat) (bytes : List Byte) :
    (s.frameItem k tag kind port queue status len time extra bytes).regs = s.regs
      ∧ (s.frameItem k tag kind port queue status len time extra bytes).net = s.net
      ∧ s.out <+: (s.frameItem k tag kind port queue status len time extra bytes).out := by
  unfold State.frameItem State.sendItem State.doIf
  split
  · refine foldl_inv (P := fun v => v.regs = s.regs ∧ v.net = s.net ∧ s.out <+: v.out) _ s ⟨rfl, rfl, List.prefix_rfl⟩ fun v i hv => ?_
    obtain ⟨hregs, hnet, hout⟩ := hv
    exact ⟨hregs, hnet, hout.trans (List.prefix_append ..)⟩
  · exact ⟨rfl, rfl, List.prefix_rfl⟩

theorem reply_out (s : State) (src : FlitSrc) (tag status detail : Nat) (doneTs info0 : Word) (info1 : BitVec 64) :
    s.out <+: (s.reply src tag status detail doneTs info0 info1).out := by
  have hdone (f : Flit) : s.out <+: ((s.send f).finish tag status detail doneTs info0 info1).out := by
    have hout : ((s.send f).finish tag status detail doneTs info0 info1).out = (s.send f).out := tch_finish.1 .out (by decide)
    rw [hout]
    exact List.prefix_append ..
  unfold State.reply
  dsimp only
  split
  · unfold State.route
    split
    · exact List.prefix_rfl
    · split
      · exact hdone _
      · rw [State.post_out]
  · exact hdone _

theorem frameOver_out (s : State) (p q : Nat) (f : NetFrame) (code : Nat) (egress : Int) : s.out <+: (s.frameOver p q f code egress).out := by
  obtain ⟨-, -, hitem⟩ := frameItem_keeps s f.src f.item 2 p q code f.bytes.length egress 0 []
  unfold State.frameOver
  dsimp only
  split
  · exact hitem
  · exact hitem.trans (reply_out ..)

theorem frameOver_net (s : State) (p q : Nat) (f : NetFrame) (code : Nat) (egress : Int) : (s.frameOver p q f code egress).net = s.net :=
  tch_frameOver.1 .net (by decide)

theorem frameOver_f (s : State) (p q : Nat) (f : NetFrame) (code : Nat) (egress : Int) {r : FRef} {i j : Nat} (hb : r.blk = .net) :
    (s.frameOver p q f code egress).f r i j = s.f r i j := tch_frameOver.f _ _ _ (by rw [hb]; decide)

/-! ## The queues and lines of a port -/

theorem lqOf_setLq_same (s : State) (q : Nat) (fs : List NetFrame) : (s.setLq q fs).lqOf q = fs := by
  unfold State.lqOf State.setLq
  rw [State.setF_net]
  exact kget_kset_same ..

theorem lqOf_setLq_other (s : State) {q r : Nat} (fs : List NetFrame) (h : r ≠ q) : (s.setLq q fs).lqOf r = s.lqOf r := by
  unfold State.lqOf State.setLq
  rw [State.setF_net]
  exact kget_kset_other _ _ _ h

theorem port_setLq (s : State) (q p : Nat) (fs : List NetFrame) : (s.setLq q fs).port p = s.port p := by
  unfold State.port State.setLq
  rw [State.setF_net]

theorem setLq_f (s : State) (q : Nat) (fs : List NetFrame) {r : FRef} {i j : Nat} (h : Apart r R.NET_LQ_STAT_FILL i j q 0) :
    (s.setLq q fs).f r i j = s.f r i j := by
  unfold State.setLq
  rw [f_setF_apart _ _ _ _ _ _ h, f_upd_net]

theorem lqOf_of_net {s s' : State} (h : s'.net = s.net) (q : Nat) : s'.lqOf q = s.lqOf q := by
  unfold State.lqOf
  rw [h]

theorem port_of_net {s s' : State} (h : s'.net = s.net) (p : Nat) : s'.port p = s.port p := by
  unfold State.port
  rw [h]

/-- The launch queues, what is on the wire and in line at each port, and the links stay. -/
structure LinesStay (s s' : State) : Prop where
  lq : s'.net.lq = s.net.lq
  busy : ∀ p, (s'.port p).busy = (s.port p).busy
  ptpOut : ∀ p, (s'.port p).ptpOut = (s.port p).ptpOut
  mkaOut : ∀ p, (s'.port p).mkaOut = (s.port p).mkaOut
  best : ∀ p, (s'.port p).best = (s.port p).best
  link : ∀ p, s'.b R.NET_PORT_STAT_LINK p = s.b R.NET_PORT_STAT_LINK p

theorem LinesStay.refl (s : State) : LinesStay s s := ⟨rfl, fun _ => rfl, fun _ => rfl, fun _ => rfl, fun _ => rfl, fun _ => rfl⟩

theorem LinesStay.trans {s u v : State} (h : LinesStay s u) (h' : LinesStay u v) : LinesStay s v :=
  ⟨h'.lq.trans h.lq, fun p => (h'.busy p).trans (h.busy p), fun p => (h'.ptpOut p).trans (h.ptpOut p), fun p => (h'.mkaOut p).trans (h.mkaOut p),
    fun p => (h'.best p).trans (h.best p), fun p => (h'.link p).trans (h.link p)⟩

theorem LinesStay.of_net {s s' : State} (h : s'.net = s.net) (hlink : ∀ p, s'.b R.NET_PORT_STAT_LINK p = s.b R.NET_PORT_STAT_LINK p) : LinesStay s s' := by
  have hport := port_of_net h
  exact ⟨by rw [h], fun p => by rw [hport], fun p => by rw [hport], fun p => by rw [hport], fun p => by rw [hport], hlink⟩

/-- What NET changes beside its ports and launch queues. -/
theorem LinesStay.of_ports {s s' : State} (hlq : s'.net.lq = s.net.lq) (hports : s'.net.ports = s.net.ports)
    (hlink : ∀ p, s'.b R.NET_PORT_STAT_LINK p = s.b R.NET_PORT_STAT_LINK p) : LinesStay s s' := by
  have hport (p : Nat) : s'.port p = s.port p := by
    unfold State.port
    rw [hports]
  exact ⟨hlq, fun p => by rw [hport], fun p => by rw [hport], fun p => by rw [hport], fun p => by rw [hport], hlink⟩

/-- A port's record changes beside its lines. -/
theorem LinesStay.setPort {s : State} {p : Nat} {x : PortSt} (hbusy : x.busy = (s.port p).busy) (hptp : x.ptpOut = (s.port p).ptpOut)
    (hmka : x.mkaOut = (s.port p).mkaOut) (hbest : x.best = (s.port p).best) : LinesStay s (s.setPort p x) := by
  have heach {α : Type} (g : PortSt → α) (h : g x = g (s.port p)) (q : Nat) : g ((s.setPort p x).port q) = g (s.port q) := by
    by_cases hq : q = p
    · rw [hq, port_setPort, h]
    · refine congrArg g ?_
      unfold State.port
      rw [setPort_net]
      exact kget_kset_other _ _ _ hq
  exact ⟨rfl, heach (·.busy) hbusy, heach (·.ptpOut) hptp, heach (·.mkaOut) hmka, heach (·.best) hbest, fun q => b_setPort ..⟩

theorem LinesStay.doIf {s u : State} {c : Bool} {g : State → State} (h : LinesStay s u) (hg : LinesStay u (g u)) : LinesStay s (u.doIf c g) := by
  cases c with
  | false => exact h
  | true => exact h.trans hg

theorem linesStay_setPs (s : State) (p v : Nat) : LinesStay s (s.setPs p v) := by
  refine .of_net (setPs_net ..) fun q => b_of_f ?_
  unfold State.setPs
  refine (f_setF_key (r := if p = 0 then R.NET_STAT_PS0 else R.NET_STAT_PS1) (q := R.NET_PORT_STAT_LINK) _ _ ?_).trans
    (f_setF_bits _ _ _ _ _ _ (by decide))
  have hstat : (if p = 0 then R.NET_STAT_PS0 else R.NET_STAT_PS1).key 0 0 = 4 := by split <;> rfl
  rw [hstat]
  simp only [FRef.key, R.NET_PORT_STAT_LINK]
  omega

theorem linesStay_installSak (s : State) (p slot : Nat) : LinesStay s (s.installSak p slot) := by
  unfold State.installSak
  extract_lets x v
  have hv : LinesStay s v := .setPort rfl rfl rfl rfl
  have hsa : LinesStay v ({ v with net := { v.net with txSa := kset 0 v.net.txSa p (slot + 1) } }) := .of_ports rfl rfl fun _ => rfl
  exact (hv.trans hsa).trans (.of_net (State.setB_net ..) fun q => b_setB_bits _ _ _ _ _ _ (by decide))

theorem linesStay_takePn (s : State) (p cls : Nat) : LinesStay s (s.takePn p cls) := by
  unfold State.takePn
  split
  · exact .refl s
  · extract_lets n x v
    have hv : LinesStay s v := .setPort rfl rfl rfl rfl
    split
    · exact hv.doIf (linesStay_installSak ..)
    · exact hv

theorem installSak_f (s : State) (p slot : Nat) {r : FRef} {i j : Nat} (h : Apart r R.NET_PORT_STAT_SA_TX i j p 0) :
    (s.installSak p slot).f r i j = s.f r i j := by
  unfold State.installSak
  rw [f_setB_apart _ _ _ _ _ _ h, f_upd_net, f_setPort]

/-- A packet number may bring a new transmit SA; no other register follows. -/
theorem takePn_f (s : State) (p cls : Nat) {r : FRef} {i j : Nat} (h : Apart r R.NET_PORT_STAT_SA_TX i j p 0) : (s.takePn p cls).f r i j = s.f r i j := by
  unfold State.takePn
  split
  · rfl
  · extract_lets n x v
    have hv : v.f r i j = s.f r i j := f_setPort ..
    split
    · unfold State.doIf
      split
      · exact (installSak_f _ _ _ h).trans hv
      · exact hv
    · exact hv

theorem linesStay_enterTime (s : State) (st : Nat) : LinesStay s (s.enterTime st) := by
  have hlq : (s.enterTime st).net.lq = s.net.lq := by
    rw [enterTime_eq]
    have hbegun := timeBegun_net s st
    split
    · rfl
    · split
      · obtain ⟨w, hw⟩ := (lockWake_keeps (s.timeBegun st)).1
        rw [hw, hbegun]
      · split
        · rw [setFreq_net, hbegun]
        · rw [hbegun]
  refine .of_ports hlq (enterTime_master s st).1 fun p => b_of_f (enterTime_f s st ⟨rfl, .inr (.inl ?_), ?_, ?_⟩) <;>
    simp only [FRef.key, R.NET_PORT_STAT_LINK, R.NET_STAT_STATE] <;> omega

theorem linesStay_slaveLost (s : State) : LinesStay s s.slaveLost := by
  unfold State.slaveLost
  split
  · exact .refl s
  · split
    · exact linesStay_enterTime ..
    · split
      · exact linesStay_enterTime ..
      · exact .refl s

theorem linesStay_post (s : State) (e : Ev) (a : Nat) (w0 w1 : Word) : LinesStay s (s.post e a w0 w1) :=
  .of_net (State.post_net ..) fun _ => b_post _ _ _ _ _ _ _ _ (by decide)

theorem linesStay_takePs (s : State) (p v steps : Nat) : LinesStay s (s.takePs p v steps) := by
  rw [takePs_eq]
  refine LinesStay.trans ?_ (linesStay_setPs ..)
  exact (LinesStay.refl s).doIf (.setPort rfl rfl rfl rfl)

theorem linesStay_bmcaShown (s : State) (steps : Nat) : LinesStay s (s.bmcaShown steps) := by
  have hkey (p : Nat) : R.NET_PORT_STAT_LINK.key p 0 ≠ 4 := by
    simp only [FRef.key, R.NET_PORT_STAT_LINK]
    omega
  refine .of_net (bmcaShown_shows s steps).1 fun p => b_of_f ?_
  unfold State.bmcaShown
  exact (f_setF_key (r := R.NET_STAT_STEPS_REMOVED) (q := R.NET_PORT_STAT_LINK) _ _ (hkey p)).trans
    (f_setB_key (r := R.NET_STAT_GM) (q := R.NET_PORT_STAT_LINK) _ _ (hkey p))

theorem linesStay_bmcaEnd (s : State) (slave gm : Bool) (best : Option (Nat × Announce)) : LinesStay s (s.bmcaEnd slave gm best) := by
  obtain ⟨hnet, hregs⟩ := masterTold_parts s slave gm best
  have htold : LinesStay s (s.masterTold slave gm best) := .of_ports (by rw [hnet]) (by rw [hnet]) fun p => b_of_f (hregs _ _ _ rfl)
  unfold State.bmcaEnd
  exact (htold.doIf (linesStay_enterTime ..)).trans (linesStay_slaveLost _)

theorem linesStay_bmca (s : State) (forced : Option Nat) : LinesStay s (s.bmca forced) := by
  cases hen : s.b R.NET_CTL_PTP_EN with
  | false =>
    have hoff : s.bmca forced = s := by
      unfold State.bmca
      rw [hen]
      rfl
    rw [hoff]
    exact .refl s
  | true =>
    rw [bmca_eq hen]
    have hports : LinesStay s (s.bmcaPorts forced) := (linesStay_takePs ..).trans (linesStay_takePs ..)
    exact hports.trans ((linesStay_bmcaShown ..).trans (linesStay_bmcaEnd ..))

/-! ## The next frame -/

theorem startFrame_f (s : State) (p cls kind len : Nat) (bytes : List Byte) {r : FRef} {i j : Nat} (h : Apart r R.NET_PORT_STAT_SA_TX i j p 0) :
    (s.startFrame p cls kind len bytes).f r i j = s.f r i j := by
  unfold State.startFrame
  exact (takePn_f _ p cls h).trans (f_setPort ..)

theorem startFrame_lq (s : State) (p cls kind len : Nat) (bytes : List Byte) : (s.startFrame p cls kind len bytes).net.lq = s.net.lq := by
  unfold State.startFrame
  exact (linesStay_takePn _ p cls).lq

theorem startFrame_lines (s : State) (p cls kind len : Nat) (bytes : List Byte) :
    ((s.startFrame p cls kind len bytes).port p).mkaOut = (s.port p).mkaOut ∧ ((s.startFrame p cls kind len bytes).port p).best = (s.port p).best := by
  have hstay := linesStay_takePn (s.setPort p { s.port p with busy := some (cls, kind, s.now + s.frameTime p len) }) p cls
  unfold State.startFrame
  rw [port_emit, hstay.mkaOut, hstay.best, port_setPort]
  exact ⟨rfl, rfl⟩

/-- What a port that may start a frame leaves of NET beside the port (R403). -/
theorem txKick_keeps (s : State) (p : Nat) : (s.txKick p).net.lq = s.net.lq
    ∧ ∀ r i j, r.blk = .net → Apart r R.NET_PORT_STAT_SA_TX i j p 0 → (s.txKick p).f r i j = s.f r i j := by
  have hstart (x : PortSt) (cls kind len : Nat) (bytes : List Byte) : ((s.setPort p x).startFrame p cls kind len bytes).net.lq = s.net.lq
      ∧ ∀ r i j, r.blk = .net → Apart r R.NET_PORT_STAT_SA_TX i j p 0 → ((s.setPort p x).startFrame p cls kind len bytes).f r i j = s.f r i j :=
    ⟨startFrame_lq .., fun r i j _ h => (startFrame_f _ _ _ _ _ _ h).trans (f_setPort ..)⟩
  unfold State.txKick
  dsimp only
  split
  · exact ⟨rfl, fun _ _ _ _ _ => rfl⟩
  · split
    · split
      · exact ⟨rfl, fun _ _ _ _ _ => rfl⟩
      · exact hstart ..
    · split
      · exact ⟨rfl, fun _ _ _ _ _ => rfl⟩
      · exact hstart ..
    · split
      · exact ⟨rfl, fun _ _ _ _ _ => rfl⟩
      · obtain ⟨hlq, hf⟩ := hstart _ _ _ _ _
        exact ⟨(congrArg NetSt.lq (frameOver_net ..)).trans hlq, fun r i j hb h => (frameOver_f _ _ _ _ _ _ hb).trans (hf r i j hb h)⟩
    · exact ⟨rfl, fun _ _ _ _ _ => rfl⟩

theorem txKick_idle {s : State} {p : Nat} (hptp : (s.port p).ptpOut = []) (hmka : (s.port p).mkaOut = []) (hbest : (s.port p).best = []) :
    s.txKick p = s := by
  unfold State.txKick
  dsimp only
  rw [hptp, hmka, hbest, ite_self, ite_self]
  split <;> rfl

/-- Without a message of the time engine, an MKA frame is next. -/
theorem txKick_mka {s : State} {p : Nat} {m : List Byte} {ms : List (List Byte)} (hbusy : (s.port p).busy = none) (hup : s.portUp p = true)
    (hptp : (s.port p).ptpOut = []) (hmka : (s.port p).mkaOut = m :: ms) (hnear : s.launchNear p (s.frameTime p m.length) = false) :
    s.txKick p = (s.setPort p { s.port p with mkaOut := ms }).startFrame p 2 0 m.length m := by
  unfold State.txKick
  dsimp only
  rw [if_neg (by rw [hbusy, hup]; decide), hptp, ite_self, hmka]
  dsimp only
  rw [if_neg (by rw [hnear]; decide)]

/-- An MKA frame takes no packet number. -/
theorem startFrame_mka (s : State) (p len : Nat) (bytes : List Byte) : s.startFrame p 2 0 len bytes =
    (s.setPort p { s.port p with busy := some (2, 0, s.now + s.frameTime p len) }).emit (.ethFrame p 2 bytes) := by
  unfold State.startFrame State.takePn
  rw [if_pos (.inr (.inl rfl))]

/-! ## Links -/

/-- An event after a change of NET that leaves TOFS. -/
theorem Touches.reports_tofs {m : Nat} {s u : State} (h : Touches m s u) (hm : m.testBit 16 = false ∧ m.testBit 34 = false ∧ m.testBit 30 = false)
    (htofs : u.net.tofs = s.net.tofs) (hroom : s.room) (e : Ev) (a : Nat) (w0 w1 : Word) : Reports s (u.post e a w0 w1) e a w0 w1 := by
  obtain ⟨hs, hnow, hclk⟩ := hm
  have hsys := h.sysSame hs
  exact (State.post_sys u e a w0 w1 (by unfold State.room; rw [hsys]; exact hroom)).of_eq (by rw [hsys])
    (shortTs_of_tofs (h.1 .now hnow) (h.1 .clk hclk) htofs)

/-- What each step of a fold brings for its element, and every later step keeps, holds for each element. -/
theorem foldl_settles {α : Type} {Q : State → α → Prop} {g : State → α → State} (hnew : ∀ s a, Q (g s a) a) (hkeep : ∀ s a b, Q s b → Q (g s a) b)
    (l : List α) (s : State) : ∀ a ∈ l, Q (l.foldl g s) a := by
  induction l generalizing s with
  | nil => exact fun a ha => nomatch ha
  | cons b l ih =>
    intro a ha
    rcases List.mem_cons.mp ha with rfl | ha
    · exact foldl_inv (P := fun v => Q v a) l _ (hnew s a) fun v c hv => hkeep v c a hv
    · exact ih _ a ha

section Links
variable {s u : State} {t : Instant} {p : Nat}

theorem setPs_apart (s : State) (p v : Nat) {r : FRef} {i j : Nat} (ha : Apart r R.NET_PORT_STAT_PSTATE i j p 0) (h4 : r.key i j ≠ 4) :
    (s.setPs p v).f r i j = s.f r i j := by
  have hstat : (if p = 0 then R.NET_STAT_PS0 else R.NET_STAT_PS1).key 0 0 = 4 := by split <;> rfl
  unfold State.setPs
  rw [f_setF_key _ _ (by rw [hstat]; exact h4), f_setF_apart _ _ _ _ _ _ ha]

/-- The speed at which a link comes up in the port's mode (R401). -/
def State.linkSpeed (s : State) (p speed : Nat) : Nat :=
  if s.f R.NET_PORT_CFG_MODE p = 0 then min speed 2 else if s.f R.NET_PORT_CFG_MODE p = 1 then 2 else 3

theorem linkSpeed_lt (s : State) (p speed : Nat) : s.linkSpeed p speed < 4 := by
  unfold State.linkSpeed
  split_ifs <;> omega

/-- A link that is up, as the port shows it. -/
def State.linkShown (s : State) (p speed : Nat) : State :=
  ((s.setB R.NET_PORT_STAT_LINK true p).setF R.NET_PORT_STAT_SPEED (s.linkSpeed p speed) p).setB (if p = 0 then R.NET_STAT_LINK0 else R.NET_STAT_LINK1) true

def State.linkTimed (s : State) (p : Nat) : State := s.setPort p { s.port p with annAt := s.now }

def State.linkBegun (s : State) (p : Nat) : State := s.setPs p (if s.ptpOn p then psListening else 0)

theorem exec_linkUp {speed : Nat} (hs : (s.start t).sealed = true) (hp : p < 2) (hen : (s.start t).b R.NET_CTL_EN = true)
    (hport : (s.start t).b R.NET_PORT_CFG_EN p = true) (hlink : (s.start t).b R.NET_PORT_STAT_LINK p = false) : exec (.linkUp t p speed) s = .next
      ((State.post (((s.start t).linkShown p speed).linkTimed p |>.linkBegun p) E.LINK_UP (subject p)).txKick p) :=
  congrArg Host.Outcome.next (State.doIf_of (by rw [hs, hen, hport, hlink, decide_eq_true hp]; rfl))

theorem linkShown_shows (s : State) (p speed : Nat) : (s.linkShown p speed).b R.NET_PORT_STAT_LINK p = true
    ∧ (s.linkShown p speed).f R.NET_PORT_STAT_SPEED p = s.linkSpeed p speed := by
  have hstat : (if p = 0 then R.NET_STAT_LINK0 else R.NET_STAT_LINK1).key 0 0 = 4 := by split <;> rfl
  have hkey : R.NET_PORT_STAT_LINK.key p 0 ≠ 4 ∧ R.NET_PORT_STAT_SPEED.key p 0 ≠ 4 := by
    simp only [FRef.key, R.NET_PORT_STAT_LINK, R.NET_PORT_STAT_SPEED]
    omega
  unfold State.linkShown
  rw [b_setB_key _ _ (by rw [hstat]; exact hkey.1), b_setF_bits _ _ _ _ _ _ (by decide), f_setB_key _ _ (by rw [hstat]; exact hkey.2)]
  exact ⟨b_setB_same _ _ _ _ _ (by decide), f_setF_fits _ _ _ _ (by decide) (linkSpeed_lt ..)⟩

theorem linkTimed_f (s : State) (p : Nat) (r : FRef) (i j : Nat) : (s.linkTimed p).f r i j = s.f r i j := f_setPort ..

theorem linkUp_shows (u : State) (p speed : Nat) (hroom : u.room) (s' : State)
    (hs : s' = (State.post ((u.linkShown p speed).linkTimed p |>.linkBegun p) E.LINK_UP (subject p)).txKick p) :
    s'.b R.NET_PORT_STAT_LINK p = true ∧ Posts u s' E.LINK_UP (subject p) ∧ s'.f R.NET_PORT_STAT_SPEED p = u.linkSpeed p speed := by
  have hkeep (r : FRef) (hb : r.blk = .net) (hsa : Apart r R.NET_PORT_STAT_SA_TX p 0 p 0) (hps : Apart r R.NET_PORT_STAT_PSTATE p 0 p 0) (h4 : r.key p 0 ≠ 4) :
      s'.f r p = (u.linkShown p speed).f r p := by
    rw [hs, (txKick_keeps _ p).2 r p 0 hb hsa, f_post _ _ _ _ _ _ _ _ (by rw [hb]; decide)]
    unfold State.linkBegun
    rw [setPs_apart _ _ _ hps h4, linkTimed_f]
  obtain ⟨hlink, hspeed⟩ := linkShown_shows u p speed
  refine ⟨(b_of_f (hkeep R.NET_PORT_STAT_LINK rfl (.inr (.inr (by decide))) (.inr (.inr (by decide))) ?_)).trans hlink, ?_,
    (hkeep R.NET_PORT_STAT_SPEED rfl (.inr (.inr (by decide))) (.inr (.inr (by decide))) ?_).trans hspeed⟩
  · simp only [FRef.key, R.NET_PORT_STAT_LINK]
    omega
  · have hshown : Touches 268436480 u (u.linkShown p speed) := by
      unfold State.linkShown
      refine (tch_setB (a1 := if p = 0 then R.NET_STAT_LINK0 else R.NET_STAT_LINK1)).comp ?_
        (tch_setF.comp (by decide) (tch_setB.mono (by decide) : Touches 268436480 _ _))
      split <;> decide
    have htch : Touches 268436480 u ((u.linkShown p speed).linkTimed p |>.linkBegun p) := tch_setPs.comp (by decide) (tch_setPort.comp (by decide) hshown)
    have htofs : ((u.linkShown p speed).linkTimed p |>.linkBegun p).net.tofs = u.net.tofs := by
      unfold State.linkBegun State.linkTimed State.linkShown
      rw [setPs_net, setPort_net, State.setB_net, State.setF_net, State.setB_net]
    rw [hs]
    exact (htch.reports_tofs (by decide) htofs hroom ..).posts tch_txKick.q
  · simp only [FRef.key, R.NET_PORT_STAT_SPEED]
    omega

/-- A link that is down, as the port shows it; what waits at the port is gone. -/
def State.linkCut (s : State) (p : Nat) : State :=
  ((s.setB R.NET_PORT_STAT_LINK false p).setB (if p = 0 then R.NET_STAT_LINK0 else R.NET_STAT_LINK1) false).setPs p (if s.ps p = 0 then 0 else psFaulty)

def State.linesCut (s : State) (p : Nat) : State :=
  s.setPort p { s.port p with ptpOut := [], mkaOut := [], best := [], busy := none, foreign := [], peer := none }

/-- Every launch queue of a port fails. -/
def State.failQueues (s : State) (p : Nat) : State := (portQueues p).foldl (fun s q => s.failQueue q 3) s

theorem dropLink_eq (s : State) (p : Nat) :
    s.dropLink p = (State.failQueues (((s.linkCut p).linesCut p).post E.LINK_DOWN (subject p)) p).slaveLost := rfl

theorem exec_linkDown (hs : (s.start t).sealed = true) (hp : p < 2) (hlink : (s.start t).b R.NET_PORT_STAT_LINK p = true) :
    exec (.linkDown t p) s = .next (((s.start t).dropLink p).bmca none) :=
  congrArg Host.Outcome.next (State.doIf_of (by rw [hs, hlink, decide_eq_true hp]; rfl))

/-- The reports of frames leave NET as it is. -/
theorem framesOver_keep (p q code : Nat) (fs : List NetFrame) (s : State) :
    (fs.foldl (fun s f => s.frameOver p q f code s.ntime) s).net = s.net
      ∧ ∀ r i j, r.blk = .net → (fs.foldl (fun s f => s.frameOver p q f code s.ntime) s).f r i j = s.f r i j := by
  induction fs generalizing s with
  | nil => exact ⟨rfl, fun _ _ _ _ => rfl⟩
  | cons f fs ih =>
    obtain ⟨hnet, hf⟩ := ih (s.frameOver p q f code s.ntime)
    exact ⟨hnet.trans (frameOver_net ..), fun r i j hb => (hf r i j hb).trans (frameOver_f _ _ _ _ _ _ hb)⟩

/-- A queue that fails is empty; the other queues, the ports and the links stay. -/
theorem failQueue_shows (s : State) (q detail : Nat) : (s.failQueue q detail).lqOf q = [] ∧ (∀ r, s.lqOf r = [] → (s.failQueue q detail).lqOf r = [])
    ∧ (s.failQueue q detail).net.ports = s.net.ports ∧ ∀ p < 2, (s.failQueue q detail).b R.NET_PORT_STAT_LINK p = s.b R.NET_PORT_STAT_LINK p := by
  obtain ⟨hnet, hf⟩ := framesOver_keep (q / 8) q (detail + 2) (s.lqOf q) (s.setLq q [])
  have hlink (p : Nat) := b_of_f (hf R.NET_PORT_STAT_LINK p 0 rfl)
  unfold State.failQueue
  generalize (s.lqOf q).foldl (fun s f => s.frameOver (q / 8) q f (detail + 2) s.ntime) (s.setLq q []) = v at *
  refine ⟨(lqOf_of_net hnet q).trans (lqOf_setLq_same ..), fun r hr => ?_, ?_, fun p hp => ?_⟩
  · rw [lqOf_of_net hnet]
    by_cases hqr : r = q
    · rw [hqr, lqOf_setLq_same]
    · rw [lqOf_setLq_other _ _ hqr, hr]
  · rw [hnet]
    unfold State.setLq
    rw [State.setF_net]
  · rw [hlink]
    refine b_of_f (setLq_f _ _ _ (.inr (.inl ?_)))
    simp only [FRef.key, R.NET_PORT_STAT_LINK, R.NET_LQ_STAT_FILL]
    omega

theorem failQueues_shows (s : State) {p : Nat} (hp : p < 2) : (∀ q, q / 8 = p → (s.failQueues p).lqOf q = []) ∧ (s.failQueues p).net.ports = s.net.ports
    ∧ (s.failQueues p).b R.NET_PORT_STAT_LINK p = s.b R.NET_PORT_STAT_LINK p := by
  unfold State.failQueues
  have hempty := foldl_settles (Q := fun v q => v.lqOf q = []) (g := fun s q => s.failQueue q 3) (fun v q => (failQueue_shows v q 3).1)
    (fun v q r hr => (failQueue_shows v q 3).2.1 r hr) (portQueues p) s
  refine ⟨fun q hq => hempty q ?_, ?_⟩
  · unfold portQueues
    exact List.mem_map.mpr ⟨q % 8, List.mem_range.mpr (Nat.mod_lt _ (by decide)), by omega⟩
  · refine foldl_inv (P := fun v => v.net.ports = s.net.ports ∧ v.b R.NET_PORT_STAT_LINK p = s.b R.NET_PORT_STAT_LINK p) _ s ⟨rfl, rfl⟩ fun v q hv => ?_
    obtain ⟨-, -, hports, hlink⟩ := failQueue_shows v q 3
    exact ⟨hports.trans hv.1, (hlink p hp).trans hv.2⟩

theorem linkCut_shows (s : State) (p : Nat) : (s.linkCut p).b R.NET_PORT_STAT_LINK p = false ∧ (s.linkCut p).net = s.net := by
  have hstat : (if p = 0 then R.NET_STAT_LINK0 else R.NET_STAT_LINK1).key 0 0 = 4 := by split <;> rfl
  have hkey : R.NET_PORT_STAT_LINK.key p 0 ≠ 4 := by
    simp only [FRef.key, R.NET_PORT_STAT_LINK]
    omega
  unfold State.linkCut
  rw [b_of_f (setPs_apart _ _ _ (.inr (.inr (by decide))) hkey), b_setB_key _ _ (by rw [hstat]; exact hkey), setPs_net]
  exact ⟨b_setB_same _ _ _ _ _ (by decide), by rw [State.setB_net, State.setB_net]⟩

theorem linkCut_touches (s : State) (p : Nat) : Touches 268436480 s ((s.linkCut p).linesCut p) := by
  have hcut : Touches 268436480 s (s.linkCut p) := by
    refine tch_setPs.comp (by decide) ((tch_setB (a1 := if p = 0 then R.NET_STAT_LINK0 else R.NET_STAT_LINK1)).comp ?_ (tch_setB.mono (by decide)))
    split <;> decide
  exact tch_setPort.comp (by decide) hcut

/-- A port without a link: its lines and queues are empty, and LINK_DOWN is reported. -/
theorem linkDown_shows (u : State) {p : Nat} (hp : p < 2) (hroom : u.room) (s' : State) (hs : s' = (u.dropLink p).bmca none) :
    s'.b R.NET_PORT_STAT_LINK p = false ∧ (∀ q, q / 8 = p → s'.lqOf q = []) ∧ (s'.port p).ptpOut = [] ∧ (s'.port p).mkaOut = []
      ∧ (s'.port p).best = [] ∧ (s'.port p).busy = none ∧ Posts u s' E.LINK_DOWN (subject p) := by
  obtain ⟨hlink, hnet⟩ := linkCut_shows u p
  have htch := linkCut_touches u p
  have hcut : ((u.linkCut p).linesCut p).port p = { (u.linkCut p).port p with ptpOut := [], mkaOut := [], best := [], busy := none, foreign := [], peer := none } :=
    port_setPort ..
  have htofs : ((u.linkCut p).linesCut p).net.tofs = u.net.tofs := by
    unfold State.linesCut
    rw [setPort_net, hnet]
  have hlink' : ((u.linkCut p).linesCut p).b R.NET_PORT_STAT_LINK p = false := (b_setPort ..).trans hlink
  have hrep := htch.reports_tofs (by decide) htofs hroom E.LINK_DOWN (subject p) 0 0
  rw [dropLink_eq] at hs
  generalize (u.linkCut p).linesCut p = v at *
  obtain ⟨hqueues, hports, hkeep⟩ := failQueues_shows (v.post E.LINK_DOWN (subject p)) hp
  have hstay : LinesStay ((v.post E.LINK_DOWN (subject p)).failQueues p) s' := by
    rw [hs]
    exact (linesStay_slaveLost _).trans (linesStay_bmca ..)
  have hq : QExt (v.post E.LINK_DOWN (subject p)) s' := by
    have hfail : Touches 1134274085897 (v.post E.LINK_DOWN (subject p)) ((v.post E.LINK_DOWN (subject p)).failQueues p) :=
      (Touches.refl _ _).foldl fun x q h => tch_failQueue.comp (by decide) h
    rw [hs]
    exact (hfail.q.trans tch_slaveLost.q).trans tch_bmca.q
  have hport : ((v.post E.LINK_DOWN (subject p)).failQueues p).port p = v.port p := by
    unfold State.port
    rw [hports, State.post_net]
  rw [hcut] at hport
  refine ⟨?_, fun q hq => ?_, ?_, ?_, ?_, ?_, hrep.posts hq⟩
  · rw [hstay.link, hkeep, b_post _ _ _ _ _ _ _ _ (by decide), hlink']
  · unfold State.lqOf
    rw [hstay.lq]
    exact hqueues q hq
  · rw [hstay.ptpOut, hport]
  · rw [hstay.mkaOut, hport]
  · rw [hstay.best, hport]
  · rw [hstay.busy, hport]

end Links

/-! ## Launch queues -/

section Launches
variable {s u : State} {t : Instant} {q : Nat}

/-- The NET_TX of a frame on the wire. -/
def State.descSent (s : State) (desc : Option Nat) : State :=
  match desc with
  | some g => s.modDesc g fun d => { d with phase := 3 }
  | none => s

theorem descSent_touches (s : State) (desc : Option Nat) : Touches 134217728 s (s.descSent desc) := by
  unfold State.descSent
  split
  · exact tch_modDesc
  · exact .refl _ _

/-- The head of a launch queue on the wire. -/
def State.launchStarted (s : State) (q : Nat) (f : NetFrame) (fs : List NetFrame) : State :=
  (s.setLq q fs).startFrame (q / 8) 0 0 f.bytes.length f.bytes

def State.launched (s : State) (q : Nat) (f : NetFrame) (fs : List NetFrame) : State :=
  ((s.launchStarted q f fs).descSent f.desc).doIf f.late (·.sentLate q)

theorem exec_launch {f : NetFrame} {fs : List NetFrame} (hq : q < 16) (hlq : (s.start t).lqOf q = f :: fs) (hen : (s.start t).b R.NET_LQ_CFG_EN q = true)
    (hup : (s.start t).portUp (q / 8) = true) (hfast : (s.start t).portFast (q / 8) = true) (hmay : (s.start t).maySend (q / 8) 0 = true)
    (hbusy : ((s.start t).port (q / 8)).busy = none)
    (hdue : f.late = true ∨ ntLe f.launch (s.start t).ntime = true
      ∧ ntLe (s.start t).ntime (f.launch + (s.start t).f R.NET_LQ_CFG_LATE_TOL q * 8) = true)
    (hfirst : ∀ r, r / 8 = q / 8 → r < q → (s.start t).lqDue r = false) :
    exec (.launch t q) s = .next (State.frameOver ((s.start t).launched q f fs) (q / 8) q f (b2n f.late)
      (((s.start t).launchStarted q f fs).descSent f.desc).ntime) := by
  have hlqDue : (s.start t).lqDue q = true := by
    unfold State.lqDue
    rw [hlq]
    rcases hdue with h | ⟨h, -⟩ <;> simp [h]
  have htime : (f.late || ntLe (s.start t).ntime ((s.start t).lateLimit q f)) = true := by
    rw [Bool.or_eq_true]
    exact hdue.imp_right (·.2)
  have hlower : ((portQueues (q / 8)).any fun r => decide (r < q) && (s.start t).lqDue r) = false := by
    rw [List.any_eq_false]
    intro r hr
    unfold portQueues at hr
    obtain ⟨i, hi, rfl⟩ := List.mem_map.mp hr
    have hi := List.mem_range.mp hi
    rw [Bool.and_eq_true, decide_eq_true_iff]
    rintro ⟨hlt, h⟩
    rw [hfirst _ (by omega) hlt] at h
    exact absurd h (by decide)
  show execLaunch t q s = _
  unfold execLaunch
  dsimp only
  rw [hlq]
  dsimp only
  rw [hen, hup, hfast, hmay, hbusy, hlqDue, htime, hlower, decide_eq_true hq]
  exact congrArg Host.Outcome.next (State.doIf_of rfl)

theorem launchStarted_shows (u : State) (q : Nat) (f : NetFrame) (fs : List NetFrame) : (u.launchStarted q f fs).lqOf q = fs
    ∧ ((u.launchStarted q f fs).port (q / 8)).busy = some (0, 0, u.now + u.frameTime (q / 8) f.bytes.length)
    ∧ .ethFrame (q / 8) 0 f.bytes ∈ (u.launchStarted q f fs).out
    ∧ (u.launchStarted q f fs).f R.NET_LQ_STAT_LATE_CNT q = u.f R.NET_LQ_STAT_LATE_CNT q := by
  have htime : (u.setLq q fs).frameTime (q / 8) = u.frameTime (q / 8) := by
    unfold State.frameTime
    rw [setLq_f]
    refine .inr (.inl ?_)
    simp only [FRef.key, R.NET_PORT_STAT_SPEED, R.NET_LQ_STAT_FILL]
    omega
  have hnow : (u.setLq q fs).now = u.now := tch_setLq.1 .now (by decide)
  unfold State.launchStarted
  refine ⟨?_, ?_, ?_, ?_⟩
  · unfold State.lqOf
    rw [startFrame_lq]
    exact lqOf_setLq_same ..
  · rw [(startFrame_port ..).1, htime, hnow]
  · unfold State.startFrame
    exact List.mem_append_right _ (List.mem_singleton.mpr rfl)
  · rw [startFrame_f _ _ _ _ _ _ (.inr (.inr (by decide))), setLq_f _ _ _ (.inr (.inr (by decide)))]

theorem sentLate_shows (s : State) (q : Nat) : (s.sentLate q).net = s.net ∧ (s.sentLate q).out = s.out
    ∧ (s.sentLate q).b R.NET_LQ_STAT_LATE_SEEN q = true := by
  unfold State.sentLate
  rw [State.raise_net, State.incF_net, State.raise_out, State.incF_out]
  exact ⟨rfl, rfl, b_raise_same _ _ _ _ _ _ _ (by decide) (by decide)⟩

theorem launched_shows (u : State) (q : Nat) (f : NetFrame) (fs : List NetFrame) : (u.launched q f fs).lqOf q = fs
    ∧ ((u.launched q f fs).port (q / 8)).busy = some (0, 0, u.now + u.frameTime (q / 8) f.bytes.length) ∧ .ethFrame (q / 8) 0 f.bytes ∈ (u.launched q f fs).out
    ∧ (f.late = false → (u.launched q f fs).f R.NET_LQ_STAT_LATE_CNT q = u.f R.NET_LQ_STAT_LATE_CNT q)
    ∧ (f.late = true → (u.launched q f fs).b R.NET_LQ_STAT_LATE_SEEN q = true) := by
  obtain ⟨hlq, hbusy, hout, hcnt⟩ := launchStarted_shows u q f fs
  have htch := descSent_touches (u.launchStarted q f fs) f.desc
  have hnet : ((u.launchStarted q f fs).descSent f.desc).net = (u.launchStarted q f fs).net := htch.1 .net (by decide)
  have hout' : ((u.launchStarted q f fs).descSent f.desc).out = (u.launchStarted q f fs).out := htch.1 .out (by decide)
  have hcnt' := (htch.f R.NET_LQ_STAT_LATE_CNT q 0 (by decide)).trans hcnt
  rw [← hout'] at hout
  have hlq' := (lqOf_of_net hnet q).trans hlq
  have hbusy' := (congrArg PortSt.busy (port_of_net hnet (q / 8))).trans hbusy
  unfold State.launched
  generalize (u.launchStarted q f fs).descSent f.desc = v at hout hcnt' hlq' hbusy' ⊢
  cases f.late with
  | false =>
    rw [State.doIf_false]
    exact ⟨hlq', hbusy', hout, fun _ => hcnt', fun h => (nomatch h)⟩
  | true =>
    obtain ⟨knet, kout, kseen⟩ := sentLate_shows v q
    rw [State.doIf_true]
    exact ⟨(lqOf_of_net knet q).trans hlq', (congrArg PortSt.busy (port_of_net knet _)).trans hbusy', by rw [kout]; exact hout, fun h => (nomatch h), fun _ => kseen⟩

/-- A frame whose launch has passed by more than LATE_TOL (R420). -/
def State.past (s : State) (q : Nat) (f : NetFrame) : Bool := !f.late && ntLt (f.launch + s.f R.NET_LQ_CFG_LATE_TOL q * 8) s.ntime

/-- What stays in a queue at its deadline, and what is dropped. -/
def State.lqKept (s : State) (q : Nat) : List NetFrame :=
  ((s.lqOf q).filter fun f => !(s.past q f && f.lateDrop)).map fun f => if s.past q f then { f with late := true } else f

def State.lqDropped (s : State) (q : Nat) : List NetFrame := (s.lqOf q).filter fun f => s.past q f && f.lateDrop

theorem exec_launchDeadline (hs : (s.start t).sealed = true) (hq : q < 16) : exec (.launchDeadline t q) s = .next
    ((((s.start t).lqDropped q).foldl (fun v f => v.droppedLate q f) ((s.start t).setLq q ((s.start t).lqKept q))).txKick (q / 8)) :=
  congrArg Host.Outcome.next (State.doIf_of (by rw [hs, decide_eq_true hq]; rfl))

theorem droppedLate_shows (s : State) (q : Nat) (f : NetFrame) : (s.droppedLate q f).net = s.net ∧ (s.droppedLate q f).b R.NET_LQ_STAT_DROP_SEEN q = true := by
  unfold State.droppedLate
  rw [frameOver_net, State.raise_net, State.incF_net, b_of_f (frameOver_f _ _ _ _ _ _ rfl)]
  exact ⟨rfl, b_raise_same _ _ _ _ _ _ _ (by decide) (by decide)⟩

theorem launchDeadline_shows (u : State) (q : Nat) (s' : State)
    (hs : s' = ((u.lqDropped q).foldl (fun v f => v.droppedLate q f) (u.setLq q (u.lqKept q))).txKick (q / 8)) :
    s'.lqOf q = u.lqKept q ∧ ((∃ f ∈ u.lqOf q, u.past q f = true ∧ f.lateDrop = true) → s'.b R.NET_LQ_STAT_DROP_SEEN q = true) := by
  have hnet : ((u.lqDropped q).foldl (fun v f => v.droppedLate q f) (u.setLq q (u.lqKept q))).net = (u.setLq q (u.lqKept q)).net :=
    foldl_inv (P := fun v => v.net = (u.setLq q (u.lqKept q)).net) _ _ rfl fun v f hv => (droppedLate_shows v q f).1.trans hv
  have hseen := foldl_settles (Q := fun v (_ : NetFrame) => v.b R.NET_LQ_STAT_DROP_SEEN q = true) (g := fun v f => v.droppedLate q f)
    (fun v f => (droppedLate_shows v q f).2) (fun v f _ _ => (droppedLate_shows v q f).2) (u.lqDropped q) (u.setLq q (u.lqKept q))
  rw [hs]
  obtain ⟨hlq, hf⟩ := txKick_keeps ((u.lqDropped q).foldl (fun v f => v.droppedLate q f) (u.setLq q (u.lqKept q))) (q / 8)
  refine ⟨?_, fun ⟨f, hmem, hpast, hdrop⟩ => ?_⟩
  · unfold State.lqOf
    rw [hlq, hnet]
    exact lqOf_setLq_same ..
  · rw [b_of_f (hf R.NET_LQ_STAT_DROP_SEEN q 0 rfl (.inr (.inr (by decide))))]
    refine hseen f (List.mem_filter.mpr ⟨hmem, ?_⟩)
    rw [hpast, hdrop]
    rfl

end Launches

/-! ## The end of a frame -/

section Ends
variable {s u : State} {t : Instant} {p : Nat}

/-- A port whose frame has left. -/
def State.wireFree (s : State) (p : Nat) : State := s.setPort p { s.port p with busy := none }

theorem exec_frameTransmitEnd {cls kind : Nat} {till : Instant} (hp : p < 2) (hbusy : ((s.start t).port p).busy = some (cls, kind, till))
    (htill : till ≤ (s.start t).now) (hone : cls = 1 → kind ≠ 0 ∧ kind ≠ 6) : exec (.frameTransmitEnd t p) s = .next (((s.start t).wireFree p).txKick p) := by
  show execFrameTransmitEnd t p s = _
  unfold execFrameTransmitEnd
  dsimp only
  rw [hbusy]
  refine congrArg Host.Outcome.next ((State.doIf_of (by rw [decide_eq_true hp, decide_eq_true htill]; rfl)).trans ?_)
  rw [if_neg fun h => (hone h.1).1 h.2.1, if_neg fun h => (hone h.1).2 h.2.1]
  rfl

theorem wireFree_port (u : State) (p : Nat) : (u.wireFree p).port p = { u.port p with busy := none } := port_setPort ..

theorem wireFree_parts (u : State) (p : Nat) : (u.wireFree p).portUp p = u.portUp p ∧ (u.wireFree p).ptpOn p = u.ptpOn p
    ∧ (u.wireFree p).maySend p 1 = u.maySend p 1 ∧ (u.wireFree p).launchNear p = u.launchNear p ∧ (u.wireFree p).frameTime p = u.frameTime p
    ∧ (u.wireFree p).ptpLen = u.ptpLen ∧ (u.wireFree p).now = u.now ∧ (u.wireFree p).out = u.out := ⟨rfl, rfl, rfl, rfl, rfl, rfl, rfl, rfl⟩

theorem setPort_out (s : State) (p : Nat) (x : PortSt) : (s.setPort p x).out = s.out := rfl

/-- A free port starts the first message of the time engine. -/
theorem wireFree_starts {k : Nat} {ks : List Nat} (hout : (u.port p).ptpOut = k :: ks) (hon : u.ptpOn p = true) (hmay : u.maySend p 1 = true)
    (hnear : u.launchNear p (u.frameTime p (u.ptpLen k)) = false) (s' : State) (hs : s' = (u.wireFree p).txKick p) :
    (s'.port p).busy = some (1, k, u.now + u.frameTime p (u.ptpLen k)) ∧ (s'.port p).ptpOut = ks ∧ (s'.port p).mkaOut = (u.port p).mkaOut := by
  obtain ⟨kup, kon, kmay, knear, ktime, klen, know, -⟩ := wireFree_parts u p
  have hport := wireFree_port u p
  generalize u.wireFree p = v at *
  rw [txKick_ptp (k := k) (ks := ks) (by rw [hport]) (by rw [kup, ptpOn_up hon]) (by rw [kon, hon]) (by rw [kmay, hmay])
    (by rw [hport]; exact hout) (by rw [knear, ktime, klen, hnear])] at hs
  obtain ⟨hbusy', hout'⟩ := startFrame_port (v.setPort p { v.port p with ptpOut := ks }) p 1 k (v.ptpLen k) [BitVec.ofNat 8 k]
  obtain ⟨hmka', -⟩ := startFrame_lines (v.setPort p { v.port p with ptpOut := ks }) p 1 k (v.ptpLen k) [BitVec.ofNat 8 k]
  have htime : (v.setPort p { v.port p with ptpOut := ks }).frameTime p = v.frameTime p := rfl
  rw [hs, hbusy', hout', hmka', port_setPort, setPort_now, htime, know, ktime, klen, hport]
  exact ⟨rfl, rfl, rfl⟩

/-- Without one, a free port starts an MKA frame. -/
theorem wireFree_mka {m : List Byte} {ms : List (List Byte)} (hptp : (u.port p).ptpOut = []) (hmka : (u.port p).mkaOut = m :: ms) (hup : u.portUp p = true)
    (hnear : u.launchNear p (u.frameTime p m.length) = false) (s' : State) (hs : s' = (u.wireFree p).txKick p) :
    (s'.port p).busy = some (2, 0, u.now + u.frameTime p m.length) ∧ (s'.port p).mkaOut = ms ∧ (s'.port p).best = (u.port p).best
      ∧ s'.out = u.out ++ [.ethFrame p 2 m] := by
  obtain ⟨kup, -, -, knear, ktime, -, know, kout⟩ := wireFree_parts u p
  have hport := wireFree_port u p
  generalize u.wireFree p = v at *
  rw [txKick_mka (m := m) (ms := ms) (by rw [hport]) (by rw [kup, hup]) (by rw [hport]; exact hptp) (by rw [hport]; exact hmka)
    (by rw [knear, ktime, hnear]), startFrame_mka] at hs
  have htime : (v.setPort p { v.port p with mkaOut := ms }).frameTime p = v.frameTime p := rfl
  rw [hs, State.emit_out, setPort_out, setPort_out, port_emit, port_setPort, port_setPort, setPort_now, htime, know, ktime, kout, hport]
  exact ⟨rfl, rfl, rfl, rfl⟩

end Ends

/-! ## Received frames -/

section Received
variable {s u : State} {t : Instant} {p : Nat} {sec : Option SecTag} {time : Int} {bytes : List Byte}

/-- A frame that MACsec refuses (R421). -/
def State.secBad (s : State) (p : Nat) : State := (s.incF R.NET_PORT_CNT_MSEC_BAD 1 p).raise R.NET_PORT_STAT_MSEC_BAD_SEEN p E.MSEC_BAD (subject p)

theorem counted_shows (u : State) (cnt seen : FRef) (p : Nat) (e : Ev) (hblk : cnt.blk = .net ∧ seen.blk = .net) (hkey : cnt.key p 0 ≠ seen.key p 0)
    (hbits : cnt.lo ≤ cnt.hi ∧ cnt.hi < 32) (hseen : seen.lo = seen.hi ∧ seen.hi < 32) (s' : State)
    (hs : s' = (u.incF cnt 1 p).raise seen p e (subject p)) :
    s'.f cnt p = min (u.f cnt p + 1) (2 ^ (cnt.hi + 1 - cnt.lo) - 1) ∧ s'.b seen p = true ∧ s'.net = u.net ∧ s'.out = u.out := by
  obtain ⟨hcb, hsb⟩ := hblk
  rw [hs, State.raise_net, State.incF_net, State.raise_out, State.incF_out, b_raise_same _ _ _ _ _ _ _ hseen (by rw [hsb]; decide),
    f_raise_apart (u.incF cnt 1 p) seen cnt p p 0 _ _ _ _ (by rw [hcb]; decide) (.inr (.inl hkey)), f_incF_same _ _ _ _ _ hbits]
  exact ⟨rfl, rfl, rfl, rfl⟩

theorem rxDrop_shows (u : State) (p : Nat) (s' : State) (hs : s' = u.rxDrop p) : s'.f R.NET_PORT_CNT_RX_DROP p = min (u.f R.NET_PORT_CNT_RX_DROP p + 1) (2 ^ 16 - 1)
    ∧ s'.b R.NET_PORT_STAT_RX_DROP_SEEN p = true ∧ s'.net = u.net ∧ s'.out = u.out :=
  counted_shows u R.NET_PORT_CNT_RX_DROP R.NET_PORT_STAT_RX_DROP_SEEN p E.RX_DROP ⟨rfl, rfl⟩
    (by simp only [FRef.key, R.NET_PORT_CNT_RX_DROP, R.NET_PORT_STAT_RX_DROP_SEEN]; omega) (by decide) (by decide) s' hs

theorem secBad_shows (u : State) (p : Nat) (s' : State) (hs : s' = u.secBad p) : s'.f R.NET_PORT_CNT_MSEC_BAD p = min (u.f R.NET_PORT_CNT_MSEC_BAD p + 1) (2 ^ 16 - 1)
    ∧ s'.b R.NET_PORT_STAT_MSEC_BAD_SEEN p = true ∧ s'.net = u.net ∧ s'.out = u.out :=
  counted_shows u R.NET_PORT_CNT_MSEC_BAD R.NET_PORT_STAT_MSEC_BAD_SEEN p E.MSEC_BAD ⟨rfl, rfl⟩
    (by simp only [FRef.key, R.NET_PORT_CNT_MSEC_BAD, R.NET_PORT_STAT_MSEC_BAD_SEEN]; omega) (by decide) (by decide) s' hs

theorem exec_frameReceive_bad {fcsOk : Bool} (hup : (s.start t).portUp p = true) (hbad : fcsOk = false ∨ bytes.length < 60 ∨ 1518 < bytes.length) :
    exec (.frameReceive t p fcsOk sec time bytes) s = .next ((s.start t).rxDrop p) := by
  refine congrArg Host.Outcome.next ((State.doIf_of hup).trans (if_pos ?_))
  rcases hbad with rfl | h | h
  · exact .inl rfl
  · exact .inr (.inl h)
  · exact .inr (.inr (.inl h))

/-- The packet number of a protected frame is noted. -/
def State.noted (s : State) (p : Nat) (tag : Option SecTag) : State :=
  match tag with
  | some g => s.notePn p g
  | none => s

/-- A frame goes by the receive filters (R402). -/
def State.byFilter (s : State) (p : Nat) (tag : Option SecTag) (time : Int) (bytes : List Byte) : State :=
  match s.rxFilter p (frameType bytes) (frameVid bytes) with
  | none => s.rxDrop p
  | some k => s.toFilter p k tag time bytes

/-- A frame that a receive filter may take: its length and check are good, and it is neither MKA's, the pause type nor the time engine's. -/
structure ForFilter (u : State) (bytes : List Byte) : Prop where
  low : 60 ≤ bytes.length
  high : bytes.length ≤ 1518
  tag : isTag (frameType bytes) = false
  mka : frameType bytes ≠ 0x888E
  pause : frameType bytes ≠ 0x8808
  ptp : ptpStart (u.b R.NET_PTP_CFG_UDP) bytes = none

theorem exec_frameReceive_good (hup : (s.start t).portUp p = true) (h : ForFilter (s.start t) bytes) :
    exec (.frameReceive t p true sec time bytes) s = .next
      (if (s.start t).b R.NET_PORT_CFG_MSEC p && !(s.start t).secPass p sec then (s.start t).secBad p
      else ((s.start t).noted p (if (s.start t).b R.NET_PORT_CFG_MSEC p then sec else none)).byFilter p
        (if (s.start t).b R.NET_PORT_CFG_MSEC p then sec else none) time bytes) := by
  obtain ⟨hlow, hhigh, htag, hmka, hpause, hptp⟩ := h
  have hgood : ¬ ((!true) = true ∨ bytes.length < 60 ∨ 1518 < bytes.length ∨ isTag (frameType bytes) = true) := by
    rw [htag]
    simp only [Bool.not_true, Bool.false_eq_true, or_false, false_or]
    omega
  have hmine : ¬ (frameType bytes = 0x888E ∨ frameType bytes = 0x8808) := fun h => h.elim hmka hpause
  refine congrArg Host.Outcome.next ((State.doIf_of hup).trans ?_)
  dsimp only
  rw [if_neg hgood, hptp, beq_false_of_ne hmka]
  have hsec (b c : Bool) : (b && !(false || (none : Option Nat).isSome && c)) = b := Bool.and_true b
  rw [hsec, if_neg hmine]
  generalize (if (s.start t).b R.NET_PORT_CFG_MSEC p = true then sec else none) = tag
  unfold State.noted State.byFilter State.secBad
  cases tag <;> rfl

theorem byFilter_some {v : State} {tag : Option SecTag} {k : Nat} (h : v.rxFilter p (frameType bytes) (frameVid bytes) = some k) :
    v.byFilter p tag time bytes = v.toFilter p k tag time bytes := by
  unfold State.byFilter
  rw [h]

theorem byFilter_none {v : State} {tag : Option SecTag} (h : v.rxFilter p (frameType bytes) (frameVid bytes) = none) :
    v.byFilter p tag time bytes = v.rxDrop p := by
  unfold State.byFilter
  rw [h]

/-- A frame for a kernel: it takes the next tag, and its item changes nothing else of NET. -/
theorem toFilter_keeps (v : State) (p k : Nat) (tag : Option SecTag) (time : Int) (bytes : List Byte) :
    (v.toFilter p k tag time bytes).regs = v.regs ∧ (v.toFilter p k tag time bytes).net = { v.net with tag := (v.net.tag + 1) % 65536 } := by
  obtain ⟨hregs, hnet, -⟩ := frameItem_keeps { v with net := { v.net with tag := (v.net.tag + 1) % 65536 } }
    (16 * v.f R.NET_RXF_DST_ROUTER k + v.f R.NET_RXF_DST_LK k) v.net.tag 0 p (16 + p) 0 bytes.length time
    (256 * b2n tag.isSome + 512 * (tag.elim 0 SecTag.sc)) bytes
  exact ⟨hregs, hnet⟩

/-- What MACsec refuses: a failed check, a packet number below the window, or an unprotected frame where one must be protected. -/
theorem secPass_refused (h : (∃ g, sec = some g ∧ (g.icv = false ∨ g.pn + u.f R.NET_PORT_CFG_REPLAY_WIN p < kget 0 (u.port p).rxPn (4 * g.sc + g.an)))
    ∨ sec = none ∧ u.f R.NET_PORT_CFG_VALIDATE p ≠ 1) : u.secPass p sec = false := by
  rcases h with ⟨g, rfl, hicv | hpn⟩ | ⟨rfl, hval⟩
  · unfold State.secPass
    dsimp only
    rw [hicv]
    rfl
  · unfold State.secPass
    dsimp only
    rw [decide_eq_false (by omega : ¬ kget 0 (u.port p).rxPn (4 * g.sc + g.an) ≤ g.pn + u.f R.NET_PORT_CFG_REPLAY_WIN p), Bool.and_false]
  · exact beq_false_of_ne hval

theorem secPass_accepted {g : SecTag} (hicv : g.icv = true) (hsc : g.sc < 4) (han : g.an < 4) (hpos : 0 < g.pn) (hpn : g.pn < 2 ^ 32)
    (hwin : kget 0 (u.port p).rxPn (4 * g.sc + g.an) ≤ g.pn + u.f R.NET_PORT_CFG_REPLAY_WIN p) : u.secPass p (some g) = true := by
  have hlt : g.pn < 2 ^ (if u.b R.NET_PORT_CFG_XPN p then 64 else 32) := by split <;> omega
  unfold State.secPass
  dsimp only
  rw [hicv, decide_eq_true hsc, decide_eq_true han, bne_iff_ne.mpr (by omega), decide_eq_true hlt, decide_eq_true hwin]
  rfl

/-- The window of a receive SA follows an accepted frame. -/
theorem notePn_port (u : State) (p : Nat) (g : SecTag) : kget 0 ((u.notePn p g).port p).rxPn (4 * g.sc + g.an)
    = max (kget 0 (u.port p).rxPn (4 * g.sc + g.an)) (g.pn + 1) := by
  unfold State.notePn
  dsimp only
  rw [port_setPort]
  exact kget_kset_same ..

end Received

/-! ## Frame items -/

section Items
variable {s u : State} {t : Instant} {router k tag q len : Nat} {ws : List Word}

/-- The frame of an item that names no NET_TX (R423). -/
def itemFrame (src tag len : Nat) (ws : List Word) : NetFrame :=
  { launch := ((ws.getD 2 0) ++ (ws.getD 1 0) : BitVec 64).toInt, item := tag, src := src, bytes := (wordsBytes (ws.drop 4)).take len }

/-- The flit in which an item for NET reaches its router. -/
def itemFlit (router k tag : Nat) (ws : List Word) : Flit :=
  { dst := .port 15 0, src := .kernel router k
    payload := .svcx { sub := 4, tag := tag, domain := 0, first := 0, last := true, words := ws.take 5 } }

/-- An item for a launch queue joins it past the router. -/
theorem exec_frameItem (hs : (s.start t).sealed = true) (hr : router < 24) (hk : k < 15) (hback : (s.start t).backed (16 * router + k) = true)
    (hmay : (s.start t).mayPass (16 * router + k) (itemFlit router k tag ws) = true)
    (hq : q = getBits (ws.getD 0 0) 20 16) (hlen : len = getBits (ws.getD 0 0) 10 0) (hkind : getBits (ws.getD 0 0) 26 25 = 1)
    (hwords : ws.length = 4 + (len + 3) / 4) (hq16 : q < 16) :
    exec (.frameItem t router k tag none ws) s = .next ((s.start t).enqueue q (itemFrame (16 * router + k) tag len ws)) := by
  subst hq hlen
  refine congrArg Host.Outcome.next ((State.doIf_of (by rw [hs, decide_eq_true hr, decide_eq_true hk]; rfl)).trans ?_)
  unfold itemFlit at hmay
  unfold State.route
  rw [if_neg (by rw [hback]; decide), if_pos hmay]
  unfold State.takeItem
  dsimp only
  rw [if_neg (by rw [hkind]; omega), if_pos hq16]
  rfl

theorem enqueue_joins {f : NetFrame} (href : u.lqRefusal q = none) (hdrop : f.lateDrop = false) :
    (u.enqueue q f).lqOf q = u.lqOf q ++ [if ntLt f.launch u.ntime then { f with late := true } else f] ∧ ∀ r, r ≠ q → (u.enqueue q f).lqOf r = u.lqOf r := by
  unfold State.enqueue
  rw [href, hdrop]
  dsimp only
  split
  · exact ⟨lqOf_setLq_same .., fun r hr => lqOf_setLq_other _ _ hr⟩
  · exact ⟨lqOf_setLq_same .., fun r hr => lqOf_setLq_other _ _ hr⟩

theorem enqueue_refused {f : NetFrame} (href : u.lqRefusal q ≠ none) (r : Nat) : (u.enqueue q f).lqOf r = u.lqOf r := by
  unfold State.enqueue
  split
  · exact lqOf_of_net (frameOver_net ..) r
  · next h => exact absurd h href

end Items

/-! ## The wake slot -/

section Wake
variable {s u : State} {t : Instant}

theorem exec_wakeSyncTimeout {node window limit : Nat} (hs : (s.start t).sealed = true) (hw : (s.start t).net.wakeW = none)
    (hcfg : (s.start t).net.wakeCfg = some (node, window, limit)) (htime : (s.start t).net.porstAt + limit * secQ ≤ (s.start t).now) :
    exec (.wakeSyncTimeout t) s = .next ((s.start t).fixWake ((limit * 1000000000 + wakeOfs node window : Nat) : Int) false) := by
  have halive : (s.start t).alive = true := by
    unfold State.sealed at hs
    exact (Bool.and_eq_true_iff.mp hs).1
  show execWakeSyncTimeout t s = _
  unfold execWakeSyncTimeout
  dsimp only
  rw [hw, hcfg]
  exact congrArg Host.Outcome.next (State.doIf_of (by rw [halive, decide_eq_true htime]; rfl))

theorem fixWake_shows (u : State) (w : Int) (synced : Bool) (hroom : u.room) : (u.fixWake w synced).b R.NET_WAKE_STAT_SYNCED = synced
    ∧ Reports u (u.fixWake w synced) E.WAKE_SLOT 0 (satWord w) := by
  have htch : Touches 268436480 u ({ u.setB R.NET_WAKE_STAT_SYNCED synced with net := { u.net with wakeW := some w } }) :=
    Touches.upd_net (by decide) (tch_setB.mono (by decide))
  refine ⟨?_, htch.reports_tofs (by decide) rfl hroom ..⟩
  unfold State.fixWake
  rw [b_post _ _ _ _ _ _ _ _ (by decide), b_upd_net, b_setB_same _ _ _ _ _ (by decide)]

theorem exec_wakeInstant {w : Int} (hs : (s.start t).sealed = true) (hw : (s.start t).net.wakeW = some w)
    (hdone : (s.start t).b R.NET_WAKE_STAT_DONE = false) (htime : ntLe w (s.start t).ntime = true) :
    exec (.wakeInstant t) s = .next (State.wakeOpen ((s.start t).setB R.NET_WAKE_STAT_DONE true)) := by
  show execWakeInstant t s = _
  unfold execWakeInstant
  dsimp only
  rw [hw]
  exact congrArg Host.Outcome.next (State.doIf_of (by rw [hs, hdone, htime]; rfl))

/-- Grants leave the bucket open. -/
theorem grantDue_open (s : State) : s.grantDue.f R.PWR_TOK_STAT_OPEN = s.f R.PWR_TOK_STAT_OPEN := by
  have htokens (v : State) (x : List (Nat × Nat)) : (v.setTokens x).f R.PWR_TOK_STAT_OPEN = v.f R.PWR_TOK_STAT_OPEN :=
    (f_upd_pwr ..).trans (f_setF_bits _ _ _ _ _ _ (by decide))
  have hgrant (v : State) (r : Nat) : (v.grant r).f R.PWR_TOK_STAT_OPEN = v.f R.PWR_TOK_STAT_OPEN := f_grant v r rfl (by decide) (.inr (.inr (by decide)))
  have go (n : Nat) : ∀ s : State, (State.grantDue.go n s).f R.PWR_TOK_STAT_OPEN = s.f R.PWR_TOK_STAT_OPEN := by
    induction n with
    | zero => intro s; rfl
    | succ n ih =>
      intro s
      cases htok : s.pwr.tokens with
      | nil => rw [go_nil _ htok]
      | cons y q =>
        rw [go_cons htok]
        split
        · rw [ih, hgrant, htokens]
        · split
          · rw [ih, hgrant, f_setF_bits _ _ _ _ _ _ (by decide), htokens]
          · rfl
  exact go 516 s

theorem openBucket_open (s : State) : s.openBucket.b R.PWR_TOK_STAT_OPEN = true := by
  unfold State.openBucket
  rw [b_of_f (grantDue_open _), b_upd_pwr, b_setF_bits _ _ _ _ _ _ (by decide), b_setB_same _ _ _ _ _ (by decide)]

/-- The wake instant opens the bucket that waits for it. -/
theorem wakeOpen_open (s : State) (hen : s.b R.PWR_TOK_CFG_WAKE_EN = true) : s.wakeOpen.b R.PWR_TOK_STAT_OPEN = true := by
  unfold State.wakeOpen
  rw [hen]
  cases h : s.b R.PWR_TOK_STAT_OPEN with
  | true => exact h
  | false => exact openBucket_open _

end Wake

/-- Settles O54, clause by clause: what a starting frame, a report and the algorithm of the masters leave of the queues and lines of a port. -/
theorem framesLaunchAndLinksChange : Obligations.FramesLaunchAndLinksChange := by
  unfold Obligations.FramesLaunchAndLinksChange
  rintro s u t rfl hs
  refine ⟨fun p speed hp _ hen hport hlink hroom => ⟨_, exec_linkUp hs hp hen hport hlink, linkUp_shows _ p speed hroom _ rfl⟩,
    fun p hp hlink hroom => ⟨_, exec_linkDown hs hp hlink, linkDown_shows _ hp hroom _ rfl⟩,
    fun q f fs hq hlq hen hup hfast hmay hbusy hdue hfirst => ⟨_, exec_launch hq hlq hen hup hfast hmay hbusy hdue hfirst, ?_⟩,
    fun q hq => ⟨_, exec_launchDeadline hs hq, launchDeadline_shows _ q _ rfl⟩,
    fun p cls kind till hp hbusy htill hone => ⟨fun hptp hmka hbest => ⟨_, exec_frameTransmitEnd hp hbusy htill hone, ?_⟩,
      fun k ks hout hon hmay hnear => ⟨_, exec_frameTransmitEnd hp hbusy htill hone, wireFree_starts hout hon hmay hnear _ rfl⟩,
      fun m ms hptp hmka hup hnear => ⟨_, exec_frameTransmitEnd hp hbusy htill hone, wireFree_mka hptp hmka hup hnear _ rfl⟩⟩,
    fun p fcsOk sec time bytes hup => ⟨fun hbad => ⟨_, exec_frameReceive_bad hup hbad, rxDrop_shows _ p _ rfl⟩,
      fun hfcs hlow hhigh htag hmka hpause hptp => ?_⟩,
    fun router k tag q len ws f hr hk hback hmay hq hlen hkind hwords hf => ⟨fun hq16 href => ⟨_, exec_frameItem hs hr hk hback hmay hq hlen hkind hwords hq16, ?_⟩,
      fun hq16 href => ⟨_, exec_frameItem hs hr hk hback hmay hq hlen hkind hwords hq16, enqueue_refused href⟩⟩,
    fun node window limit hw hcfg htime hroom => ⟨_, exec_wakeSyncTimeout hs hw hcfg htime, ?_⟩,
    fun w hw hdone htime => ⟨_, exec_wakeInstant hs hw hdone htime, ?_, fun hen => ?_⟩⟩
  · obtain ⟨hlq', hbusy', hout, hcnt, hseen⟩ := launched_shows (s.start t) q f fs
    generalize State.launched (s.start t) q f fs = v at *
    generalize State.ntime _ = time
    have hnet := frameOver_net v (q / 8) q f (b2n f.late) time
    exact ⟨(lqOf_of_net hnet q).trans hlq', (congrArg PortSt.busy (port_of_net hnet _)).trans hbusy', (frameOver_out ..).subset hout,
      fun h => (frameOver_f _ _ _ _ _ _ rfl).trans (hcnt h), fun h => (b_of_f (frameOver_f _ _ _ _ _ _ rfl)).trans (hseen h)⟩
  · have hport := wireFree_port (s.start t) p
    dsimp only
    rw [txKick_idle (by rw [hport]; exact hptp) (by rw [hport]; exact hmka) (by rw [hport]; exact hbest), hport]
    exact ⟨rfl, rfl⟩
  · subst hfcs
    have hfor : ForFilter (s.start t) bytes := ⟨hlow, hhigh, htag, hmka, hpause, hptp⟩
    have hexec := exec_frameReceive_good (sec := sec) (time := time) hup hfor
    refine ⟨fun hsec hbad => ?_, fun k hsec hfilter => ?_, fun k g hsec hg hicv hsc han hpos hpn hwin hfilter => ?_, fun hsec hfilter => ?_⟩
    · rw [hsec, secPass_refused hbad] at hexec
      exact ⟨_, hexec, secBad_shows _ p _ rfl⟩
    · rw [hsec] at hexec
      refine ⟨_, hexec.trans (congrArg Host.Outcome.next (byFilter_some hfilter)), ?_⟩
      obtain ⟨hregs, hnet⟩ := toFilter_keeps (s.start t) p k none time bytes
      exact ⟨hnet, hregs, rfl⟩
    · subst hg
      rw [hsec, secPass_accepted hicv hsc han hpos hpn hwin] at hexec
      refine ⟨_, hexec.trans (congrArg Host.Outcome.next (byFilter_some hfilter)), ?_⟩
      obtain ⟨hregs, hnet⟩ := toFilter_keeps ((s.start t).notePn p g) p k (some g) time bytes
      have hport := notePn_port (s.start t) p g
      refine ⟨hregs, congrArg NetSt.tag hnet, Eq.trans ?_ hport⟩
      unfold State.port
      have hports := congrArg NetSt.ports hnet
      exact congrArg (fun m => kget 0 (kget ({} : PortSt) m p).rxPn (4 * g.sc + g.an)) hports
    · rw [hsec] at hexec
      exact ⟨_, hexec.trans (congrArg Host.Outcome.next (byFilter_none hfilter)), rxDrop_shows _ p _ rfl⟩
  · subst hf
    exact enqueue_joins href rfl
  · exact ⟨(fixWake_keeps ..).1, fixWake_shows _ _ _ hroom⟩
  · exact (b_of_f (tch_wakeOpen.f _ _ _ (by decide))).trans (b_setB_same _ _ _ _ _ (by decide))
  · exact wakeOpen_open _ ((b_setB_blk _ _ _ _ _ _ (by decide)).trans hen)

end Sys2Proof.Machine
end

section
/-! PROOFS. O52. Descriptors: the fetch with its checks, the release, schedules and ABORT (R376, R379, R381, R382, R386, R393). -/
namespace Sys2Proof.Machine

/-! ## Descriptors under their tags -/

theorem find_kput_same {α : Type} (m : KMap α) (k : Nat) (v : α) : (kput m k v).find? (fun x => x.1 == k) = some (k, v) := by
  induction m with
  | nil => simp [kput]
  | cons y m ih =>
    unfold kput
    split
    · simp
    · split
      · simp
      · next hne => rw [List.find?_cons_of_neg (by simpa using fun h => hne h.symm), ih]

theorem find_kput_other {α : Type} (m : KMap α) {k j : Nat} (v : α) (h : j ≠ k) :
    (kput m k v).find? (fun x => x.1 == j) = m.find? (fun x => x.1 == j) := by
  have hk : ¬ ((k == j) = true) := by simpa using h.symm
  induction m with
  | nil => exact List.find?_cons_of_neg hk
  | cons y m ih =>
    unfold kput
    split
    · exact List.find?_cons_of_neg hk
    · split
      · next heq =>
        subst heq
        rw [List.find?_cons, List.find?_cons, Bool.eq_false_iff.mpr hk]
      · rw [List.find?_cons, List.find?_cons, ih]

theorem desc_setDesc_same (s : State) (tag : Nat) (d : HDesc) : (s.setDesc tag d).desc tag = some d := by
  show ((kput s.hostq.descs tag d).find? fun x => x.1 == tag).map (·.2) = _
  rw [find_kput_same]
  rfl

theorem desc_setDesc_other (s : State) {tag g : Nat} (d : HDesc) (h : g ≠ tag) : (s.setDesc tag d).desc g = s.desc g := by
  show ((kput s.hostq.descs tag d).find? fun x => x.1 == g).map (·.2) = _
  rw [find_kput_other _ _ h]
  rfl

theorem setDesc_f (s : State) (tag : Nat) (d : HDesc) (r : FRef) (i j : Nat) : (s.setDesc tag d).f r i j = s.f r i j := rfl

theorem desc_of_hostq {s s' : State} (h : s'.hostq = s.hostq) (tag : Nat) : s'.desc tag = s.desc tag := by
  unfold State.desc
  rw [h]

theorem modDesc_of {s : State} {tag : Nat} {d : HDesc} (h : s.desc tag = some d) (g : HDesc → HDesc) : s.modDesc tag g = s.setDesc tag (g d) := by
  unfold State.modDesc
  rw [h]

/-! ## The end of a descriptor -/

/-- A descriptor of a ring that has finished: its completion waits. -/
def State.finished (s : State) (tag : Nat) (e : HDesc) : State :=
  { s.setDesc tag e with hostq := { (s.setDesc tag e).hostq with waiting := s.hostq.waiting ++ [tag] } }

/-- A descriptor that may still end: it belongs to a ring, and its completion is wanted and does not wait yet. -/
structure MayEnd (d : HDesc) : Prop where
  own : d.parent = none
  live : d.dead = false
  open_ : d.phase ≠ 4

theorem finish_own {s : State} {tag : Nat} {d : HDesc} (hd : s.desc tag = some d) (hown : d.parent = none) (status detail : Nat) (ts info0 : Word)
    (info1 : BitVec 64) : s.finish tag status detail ts info0 info1 = s.finishOwn tag d status detail ts info0 info1 := by
  unfold State.finish
  rw [hd]
  dsimp only
  split
  · rfl
  · next h => exact nomatch hown.symm.trans h

/-- A descriptor ends with the status that its handler gives, unless OK becomes LATE (R381). -/
theorem finish_ends {s : State} {tag : Nat} {d : HDesc} (hd : s.desc tag = some d) (h : MayEnd d) (status detail : Nat) (ts info0 : Word) (info1 : BitVec 64)
    (hstatus : status ≠ 0 ∨ d.late = false) : s.finish tag status detail ts info0 info1 = s.finished tag
      { d with phase := 4, status := status, detail := detail, doneTs := ts, info0 := info0, info1 := info1 } := by
  obtain ⟨hown, hlive, hopen⟩ := h
  have hgood : (if status = 0 ∧ d.late = true then 1 else status) = status := if_neg fun h => hstatus.elim (· h.1) fun hl => by rw [hl] at h; exact absurd h.2 (by decide)
  rw [finish_own hd hown]
  unfold State.finishOwn
  dsimp only
  rw [if_neg hopen, if_neg (by rw [hlive]; decide), hgood]
  rfl

/-- A descriptor that has ended stays as it is. -/
theorem finish_done {s : State} {tag : Nat} {d : HDesc} (hd : s.desc tag = some d) (hown : d.parent = none) (hphase : d.phase = 4)
    (status detail : Nat) (ts info0 : Word) (info1 : BitVec 64) : s.finish tag status detail ts info0 info1 = s := by
  rw [finish_own hd hown]
  exact if_pos hphase

theorem finished_shows (s : State) (tag : Nat) (e : HDesc) : tag ∈ (s.finished tag e).hostq.waiting ∧ (s.finished tag e).desc tag = some e
    ∧ (∀ g, g ≠ tag → (s.finished tag e).desc g = s.desc g) ∧ (∀ g ∈ s.hostq.waiting, g ∈ (s.finished tag e).hostq.waiting)
    ∧ (s.finished tag e).regs = s.regs := by
  refine ⟨List.mem_append_right _ (List.mem_singleton.mpr rfl), ?_, fun g hg => ?_, fun g hg => List.mem_append_left _ hg, rfl⟩
  · exact desc_setDesc_same s tag e
  · exact desc_setDesc_other s e hg

/-- The end of a descriptor, as the obligation tells it. -/
def Ended (u : State) (tag status detail : Nat) (s' : State) : Prop := tag ∈ s'.hostq.waiting
  ∧ ∃ d e, u.desc tag = some d ∧ s'.desc tag = some e ∧ e.phase = 4 ∧ e.status = status ∧ e.detail = detail ∧ e.cid = d.cid

theorem ended_of_finish {u s : State} {tag : Nat} {d d' : HDesc} (hu : u.desc tag = some d) (hd : s.desc tag = some d') (hcid : d'.cid = d.cid) (h : MayEnd d')
    (status detail : Nat) (ts info0 : Word) (info1 : BitVec 64) (hstatus : status ≠ 0 ∨ d'.late = false) :
    Ended u tag status detail (s.finish tag status detail ts info0 info1) := by
  rw [finish_ends hd h status detail ts info0 info1 hstatus]
  obtain ⟨hwait, hdesc, -⟩ := finished_shows s tag { d' with phase := 4, status := status, detail := detail, doneTs := ts, info0 := info0, info1 := info1 }
  exact ⟨hwait, d, _, hu, hdesc, rfl, rfl, rfl, hcid⟩

/-! ## Fetch -/

section Fetch
variable {s u : State} {t : Instant} {fn q : Nat} {b : List Byte} {inner : Option (List Byte)} {fresh : Bool}

/-- The descriptor that a fetch makes of 64 bytes (R376). -/
def State.fetchedDesc (s : State) (fn q : Nat) (b : List Byte) (inner : Option (List Byte)) : HDesc :=
  let at_ := if leAt b 1 1 % 8 < 4 then none else some (shortToNtime (BitVec.ofNat 32 (leAt b 4 4)) s.ntime)
  { mkDesc b with fn := fn, sq := q, dom := s.f R.HOSTQ_SQ_STAT_DOMAIN q fn, order := s.hostq.order, apply := at_
                  late := at_.any (fun a => ntLe a s.ntime), inner := inner.getD [] }

/-- The turn of the ring, and its HEAD after a fetch. -/
def State.turnTaken (s : State) (fn q : Nat) (fresh : Bool) : State :=
  let round := if fresh then [] else s.hostq.round
  { s with hostq := { s.hostq with order := s.hostq.order + 1, served := 32 * fn + q + 1
                                   round := kset 0 round (32 * fn + q) (kget 0 round (32 * fn + q) + 1) } }

def State.headMoved (s : State) (fn q : Nat) : State :=
  s.setF R.HOSTQ_SQ_STAT_HEAD ((s.f R.HOSTQ_SQ_STAT_HEAD q fn + 1) % 2 ^ s.f R.HOSTQ_SQ_CFG_SIZE q fn) q fn

/-- One more descriptor is outstanding. -/
def State.outstandingUp (s : State) (fn q : Nat) : State :=
  (s.setF R.HOSTQ_SQ_STAT_OUTSTANDING (s.f R.HOSTQ_SQ_STAT_OUTSTANDING q fn + 1) q fn).setF R.HOSTQ_STAT_OUTSTANDING (s.f R.HOSTQ_STAT_OUTSTANDING + 1)

/-- A ring after its fetch, before the descriptor is there. -/
def State.fetchBegun (s : State) (fn q : Nat) (fresh : Bool) : State :=
  let v := ((s.turnTaken fn q fresh).headMoved fn q).outstandingUp fn q
  v.doIf (v.sessionOpen fn && v.domainOf fn == s.f R.HOSTQ_SQ_STAT_DOMAIN q fn) (·.touch fn)

/-- A refused descriptor ends at once (R379). -/
def State.fetchRefused (s : State) (fn q dom tag st detail : Nat) : State :=
  let v := s.doIf (st == 0x13 || st == 0x14 || st == 0x15) (·.postLimited (0x0205 * 2 + fn) E.OPCODE_REFUSED (subject q 0 fn dom))
  (v.modDesc tag fun d => { d with late := false }).finish tag st detail v.shortTs

theorem fetch_eq (s : State) (fn q : Nat) (fresh : Bool) (b : List Byte) (inner : Option (List Byte)) : s.fetch fn q fresh b inner =
    match s.fetchRefusal fn q (s.f R.HOSTQ_SQ_STAT_DOMAIN q fn) b inner with
    | none => (s.fetchBegun fn q fresh).setDesc (s.freeTag 0) (s.fetchedDesc fn q b inner)
    | some (st, detail) => State.fetchRefused ((s.fetchBegun fn q fresh).setDesc (s.freeTag 0) (s.fetchedDesc fn q b inner)) fn q
        (s.f R.HOSTQ_SQ_STAT_DOMAIN q fn) (s.freeTag 0) st detail := by
  unfold State.fetch State.fetchBegun State.fetchedDesc State.fetchRefused
  dsimp only
  generalize s.fetchRefusal fn q (s.f R.HOSTQ_SQ_STAT_DOMAIN q fn) b inner = bad
  cases bad <;> rfl

theorem exec_descriptorFetch (hturn : (s.start t).turn = (some (32 * fn + q), fresh)) (hq : q < 32) :
    exec (.descriptorFetch t fn q b inner) s = .next ((s.start t).fetch fn q fresh b inner) := by
  show execDescriptorFetch t fn q b inner s = _
  unfold execDescriptorFetch
  dsimp only
  rw [hturn]
  exact congrArg Host.Outcome.next (State.doIf_of (by rw [decide_eq_true hq, beq_self_eq_true]; rfl))

/-- HEAD after a fetch (R372). -/
theorem fetchBegun_head (u : State) (fn q : Nat) (fresh : Bool) (hsize : u.f R.HOSTQ_SQ_CFG_SIZE q fn ≤ 12) :
    (u.fetchBegun fn q fresh).f R.HOSTQ_SQ_STAT_HEAD q fn = (u.f R.HOSTQ_SQ_STAT_HEAD q fn + 1) % 2 ^ u.f R.HOSTQ_SQ_CFG_SIZE q fn := by
  have htaken (r : FRef) (i j : Nat) : (u.turnTaken fn q fresh).f r i j = u.f r i j := rfl
  have hlt : (u.f R.HOSTQ_SQ_STAT_HEAD q fn + 1) % 2 ^ u.f R.HOSTQ_SQ_CFG_SIZE q fn < 2 ^ (R.HOSTQ_SQ_STAT_HEAD.hi + 1 - R.HOSTQ_SQ_STAT_HEAD.lo) :=
    Nat.lt_of_lt_of_le (Nat.mod_lt _ (Nat.two_pow_pos _)) (Nat.pow_le_pow_right (by decide) hsize)
  have hkey : R.HOSTQ_SQ_STAT_HEAD.key q fn ≠ R.HOSTQ_STAT_OUTSTANDING.key 0 0 := by
    simp only [FRef.key, R.HOSTQ_SQ_STAT_HEAD, R.HOSTQ_STAT_OUTSTANDING]
    omega
  have hup : (((u.turnTaken fn q fresh).headMoved fn q).outstandingUp fn q).f R.HOSTQ_SQ_STAT_HEAD q fn
      = (u.f R.HOSTQ_SQ_STAT_HEAD q fn + 1) % 2 ^ u.f R.HOSTQ_SQ_CFG_SIZE q fn := by
    unfold State.outstandingUp State.headMoved
    rw [f_setF_key _ _ hkey, f_setF_bits _ _ _ _ _ _ (by decide), htaken, htaken]
    exact f_setF_fits _ _ _ _ (by decide) hlt
  unfold State.fetchBegun
  extract_lets v
  cases v.sessionOpen fn && v.domainOf fn == u.f R.HOSTQ_SQ_STAT_DOMAIN q fn with
  | false => exact hup
  | true =>
    rw [State.doIf_true, tch_touch.f _ _ _ (by decide)]
    exact hup

theorem ring_sys (u : State) (fn q : Nat) (fresh : Bool) : (((u.turnTaken fn q fresh).headMoved fn q).outstandingUp fn q).sys = u.sys := by
  unfold State.outstandingUp State.headMoved
  rw [State.setF_sys, State.setF_sys, State.setF_sys]
  rfl

theorem fetchBegun_sys (u : State) (fn q : Nat) (fresh : Bool) : (u.fetchBegun fn q fresh).sys = u.sys := by
  unfold State.fetchBegun
  extract_lets v
  have hv : v.sys = u.sys := ring_sys u fn q fresh
  cases v.sessionOpen fn && v.domainOf fn == u.f R.HOSTQ_SQ_STAT_DOMAIN q fn with
  | false => exact hv
  | true => exact (tch_touch.1 .sys (by decide)).trans hv

theorem fetchRefused_shows {v : State} {tag : Nat} {d : HDesc} (hd : v.desc tag = some d) (h : MayEnd d) (dom st detail : Nat) :
    tag ∈ (v.fetchRefused fn q dom tag st detail).hostq.waiting ∧ (∃ e, (v.fetchRefused fn q dom tag st detail).desc tag = some e
      ∧ e.phase = 4 ∧ e.status = st ∧ e.detail = detail ∧ e.fn = d.fn ∧ e.sq = d.sq ∧ e.cid = d.cid)
      ∧ (v.fetchRefused fn q dom tag st detail).f R.HOSTQ_SQ_STAT_HEAD q fn = v.f R.HOSTQ_SQ_STAT_HEAD q fn := by
  unfold State.fetchRefused
  extract_lets w
  have htch : Touches 65537 v w := by
    refine (Touches.refl _ _).doIf fun x hx => tch_postLimited.comp (by decide) hx
  have hw : w.desc tag = some d := (desc_of_hostq (htch.1 .hostq (by decide)) tag).trans hd
  rw [modDesc_of hw, finish_ends (d := { d with late := false }) (desc_setDesc_same ..) ⟨h.own, h.live, h.open_⟩ _ _ _ _ _ (.inr rfl)]
  obtain ⟨hwait, hdesc, -, -, hregs⟩ := finished_shows (w.setDesc tag { d with late := false }) tag
    { d with late := false, phase := 4, status := st, detail := detail, doneTs := w.shortTs, info0 := 0, info1 := 0 }
  refine ⟨hwait, ⟨_, hdesc, rfl, rfl, rfl, rfl, rfl, rfl⟩, ?_⟩
  refine Eq.trans ?_ (htch.f _ _ _ (by decide))
  unfold State.f State.word
  rw [hregs]
  rfl

/-- A refused descriptor: HEAD has moved on, and its completion waits. -/
theorem fetch_refused {st detail : Nat} (hsize : u.f R.HOSTQ_SQ_CFG_SIZE q fn ≤ 12)
    (hbad : u.fetchRefusal fn q (u.f R.HOSTQ_SQ_STAT_DOMAIN q fn) b inner = some (st, detail)) (s' : State) (hs : s' = u.fetch fn q fresh b inner) :
    s'.f R.HOSTQ_SQ_STAT_HEAD q fn = (u.f R.HOSTQ_SQ_STAT_HEAD q fn + 1) % 2 ^ u.f R.HOSTQ_SQ_CFG_SIZE q fn
      ∧ u.freeTag 0 ∈ s'.hostq.waiting ∧ ∃ e, s'.desc (u.freeTag 0) = some e
        ∧ e.phase = 4 ∧ e.status = st ∧ e.detail = detail ∧ e.fn = fn ∧ e.sq = q ∧ e.cid = leAt b 2 2 := by
  have hd := desc_setDesc_same (u.fetchBegun fn q fresh) (u.freeTag 0) (u.fetchedDesc fn q b inner)
  obtain ⟨hwait, hdesc, hhead⟩ := fetchRefused_shows (fn := fn) (q := q) hd ⟨rfl, rfl, by show (0 : Nat) ≠ 4; decide⟩ (u.f R.HOSTQ_SQ_STAT_DOMAIN q fn) st detail
  rw [fetch_eq, hbad] at hs
  rw [hs]
  exact ⟨hhead.trans (fetchBegun_head u fn q fresh hsize), hwait, hdesc⟩

theorem testBit_two_iff (n : Nat) : (n.testBit 2 = true) ↔ ¬ n % 8 < 4 := by
  rw [Nat.testBit_eq_decide_div_mod_eq, decide_eq_true_iff]
  omega

/-- An accepted descriptor. -/
theorem fetch_accepted (hsize : u.f R.HOSTQ_SQ_CFG_SIZE q fn ≤ 12)
    (hgood : u.fetchRefusal fn q (u.f R.HOSTQ_SQ_STAT_DOMAIN q fn) b inner = none) (s' : State) (hs : s' = u.fetch fn q fresh b inner) :
    s'.f R.HOSTQ_SQ_STAT_HEAD q fn = (u.f R.HOSTQ_SQ_STAT_HEAD q fn + 1) % 2 ^ u.f R.HOSTQ_SQ_CFG_SIZE q fn
      ∧ s'.sys = u.sys ∧ ∃ e, s'.desc (u.freeTag 0) = some e ∧ e.phase = 0 ∧ e.op = leAt b 0 1 ∧ e.cid = leAt b 2 2 ∧ e.fn = fn
        ∧ e.sq = q ∧ e.dom = u.f R.HOSTQ_SQ_STAT_DOMAIN q fn
        ∧ e.apply = (if (leAt b 1 1).testBit 2 then some (shortToNtime (BitVec.ofNat 32 (leAt b 4 4)) u.ntime) else none)
        ∧ e.late = e.apply.any (fun a => ntLe a u.ntime) ∧ e.target = leAt b 8 2 ∧ e.count = leAt b 10 2 ∧ e.body = b.drop 16 := by
  have hd := desc_setDesc_same (u.fetchBegun fn q fresh) (u.freeTag 0) (u.fetchedDesc fn q b inner)
  have happly : (u.fetchedDesc fn q b inner).apply = if (leAt b 1 1).testBit 2 then some (shortToNtime (BitVec.ofNat 32 (leAt b 4 4)) u.ntime) else none := by
    have hbit := testBit_two_iff (leAt b 1 1)
    unfold State.fetchedDesc
    dsimp only
    by_cases h : leAt b 1 1 % 8 < 4
    · rw [if_pos h, if_neg fun hb => hbit.mp hb h]
    · rw [if_neg h, if_pos (hbit.mpr h)]
  rw [fetch_eq, hgood] at hs
  rw [hs]
  exact ⟨fetchBegun_head u fn q fresh hsize, fetchBegun_sys u fn q fresh, _, hd, rfl, rfl, rfl, rfl, rfl, rfl, happly, rfl, rfl, rfl, rfl⟩

end Fetch

/-! ## Release and schedules -/

section Releases
variable {s u : State} {t : Instant} {tag : Nat} {d : HDesc}

theorem exec_descriptorRelease (hs : (s.start t).sealed = true) (hd : (s.start t).desc tag = some d) (hphase : d.phase = 0) (hown : d.parent = none)
    (hdue : d.apply = none ∨ d.late = true ∨ ∃ a, d.apply = some a ∧ ntLe (a - 1000000) (s.start t).ntime = true) (horder : (s.start t).inOrder d = true) :
    exec (.descriptorRelease t tag) s = .next ((s.start t).release tag d) := by
  have hnow : (s.start t).dueNow d = true := by
    unfold State.dueNow
    split
    · rfl
    · next a ha =>
      rw [Bool.or_eq_true]
      rcases hdue with h | h | ⟨b, hb, hle⟩
      · exact nomatch h.symm.trans ha
      · exact .inl h
      · cases hb.symm.trans ha
        exact .inr hle
  show execDescriptorRelease t tag s = _
  unfold execDescriptorRelease
  dsimp only
  rw [hd]
  exact congrArg Host.Outcome.next (State.doIf_of (by rw [hs, hphase, hown, hnow, horder]; rfl))

theorem lateDrops_false (h : d.late = false ∨ d.flags.testBit 3 = false ∨ d.op ≠ 1 ∧ d.op ≠ 2) : lateDrops d = false := by
  unfold lateDrops
  rcases h with h | h | ⟨h1, h2⟩
  · rw [h]
    rfl
  · rw [h, Bool.and_false]
    rfl
  · rw [beq_false_of_ne h1, beq_false_of_ne h2]
    exact Bool.and_false _

theorem lateDrops_true (hl : d.late = true) (hf : d.flags.testBit 3 = true) (ho : d.op = 1 ∨ d.op = 2) : lateDrops d = true := by
  unfold lateDrops
  rw [hl, hf]
  rcases ho with h | h <;> rw [h] <;> rfl

/-- A descriptor in time is with its handler; one that LATE_DROP concerns ends. -/
theorem release_goes (h : lateDrops d = false) : (u.release tag d).desc tag = some { d with phase := 1 } ∧ (u.release tag d).regs = u.regs
    ∧ (u.release tag d).sys = u.sys := by
  unfold State.release
  rw [if_neg (by rw [h]; decide)]
  exact ⟨desc_setDesc_same .., rfl, rfl⟩

theorem release_drops (hd : u.desc tag = some d) (hmay : MayEnd d) (h : lateDrops d = true) : Ended u tag 0x1E 0 (u.release tag d) := by
  unfold State.release
  rw [if_pos h]
  exact ended_of_finish hd hd rfl hmay _ _ _ _ _ (.inl (by decide))

theorem takeUp_of {op : Nat} {g : State → HDesc → State} (hs : u.sealed = true) (hd : u.desc tag = some d) (hop : d.op = op) (hphase : d.phase = 1) :
    u.takeUp tag op g = g u d := by
  unfold State.takeUp
  rw [hd]
  exact State.doIf_of (by rw [hs, hphase, hop, beq_self_eq_true]; rfl)

/-- The handler ends a descriptor. -/
theorem ended_of_fin {v : State} {d' : HDesc} (hu : u.desc tag = some d) (hd : v.desc tag = some d') (hcid : d'.cid = d.cid) (h : MayEnd d')
    (hlate : d'.late = false) (status detail : Nat) (info0 : Word) (info1 : BitVec 64) : Ended u tag status detail (v.fin tag status detail info0 info1) :=
  ended_of_finish hu hd hcid h _ _ _ _ _ (.inr hlate)

/-- The first instant of a schedule that is not past (R386). -/
theorem firstM_least (d : HDesc) (now : Int) (h : d.period ≠ 0) : ntSub now d.start ≤ d.firstM now * d.period
    ∧ ∀ n : Nat, n < d.firstM now → n * d.period < ntSub now d.start := by
  have hpos : 0 < d.period := by
    unfold HDesc.period at h ⊢
    omega
  unfold HDesc.firstM
  cases hle : ntLe now d.start with
  | true =>
    rw [if_pos (.inr rfl)]
    unfold ntLe at hle
    have hle := of_decide_eq_true hle
    exact ⟨by rw [Nat.cast_zero, zero_mul]; exact hle, fun n hn => absurd hn (Nat.not_lt_zero n)⟩
  | false =>
    rw [if_neg (by simpa using h)]
    unfold ntLe at hle
    have hgt := of_decide_eq_false hle
    generalize ntSub now d.start = x at hgt ⊢
    generalize d.period = p at hpos ⊢
    have hq : 0 ≤ (x + p - 1) / p := Int.ediv_nonneg (by omega) (by omega)
    have hdiv := Int.mul_ediv_add_emod (x + p - 1) p
    have hmod := Int.emod_nonneg (x + p - 1) (by omega : p ≠ 0)
    have hlt := Int.emod_lt_of_pos (x + p - 1) hpos
    have hcomm : p * ((x + p - 1) / p) = (x + p - 1) / p * p := mul_comm ..
    rw [Int.toNat_of_nonneg hq]
    refine ⟨by omega, fun n hn => ?_⟩
    have hn' : (n : Int) + 1 ≤ (x + p - 1) / p := by omega
    have hmul := mul_le_mul_of_nonneg_right hn' hpos.le
    rw [add_mul, one_mul] at hmul
    omega

/-- A released schedule is held, or finds the table full. -/
def State.scheduled (s : State) (tag : Nat) (d : HDesc) : State :=
  if 256 ≤ s.f R.HOSTQ_STAT_SCHEDULES then s.fin tag 0x1D
  else (s.setF R.HOSTQ_STAT_SCHEDULES (s.f R.HOSTQ_STAT_SCHEDULES + 1)).setDesc tag { d with phase := 2, held := true, nextM := d.firstM s.ntime }

theorem exec_schedule (hs : (s.start t).sealed = true) (hd : (s.start t).desc tag = some d) (hphase : d.phase = 1) (hop : d.op = 3) :
    exec (.schedule t tag) s = .next ((s.start t).scheduled tag d) :=
  congrArg Host.Outcome.next (takeUp_of (g := fun s d => s.scheduled tag d) hs hd hop hphase)

theorem firstM_once (d : HDesc) (now : Int) (h : d.period = 0) : d.firstM now = 0 := if_pos (.inl h)

theorem exec_scheduleFiring (hs : (s.start t).sealed = true) (hd : (s.start t).desc tag = some d) (hheld : d.held = true) (hphase : d.phase = 2)
    (hleft : d.count = 0 ∨ d.fired < d.count) (hdue : ntLe (ntWrap (d.start + d.nextM * d.period) - 1000000) (s.start t).ntime = true) :
    exec (.scheduleFiring t tag) s = .next ((s.start t).fire tag d) := by
  have hmore : (d.count == 0 || decide (d.fired < d.count)) = true := by
    rcases hleft with h | h <;> simp [h]
  have hdue : ntLe (d.nextInstant - 1000000) (s.start t).ntime = true := hdue
  show execScheduleFiring t tag s = _
  unfold execScheduleFiring
  dsimp only
  rw [hd]
  exact congrArg Host.Outcome.next (State.doIf_of (by rw [hs, hheld, hphase, hmore, hdue]; rfl))

/-- The copy of the inner descriptor that a firing releases. -/
def State.firedCopy (s : State) (tag : Nat) (d : HDesc) : HDesc :=
  { mkDesc d.inner with
    fn := d.fn, sq := d.sq, dom := d.dom, order := d.order, apply := some d.nextInstant, late := ntLt d.nextInstant s.ntime, phase := 1
    parent := some tag }

theorem nextInstant_eq (d : HDesc) : d.nextInstant = ntWrap (d.start + d.nextM * d.period) := rfl

theorem firedCopy_late (s : State) (tag : Nat) (d : HDesc) : (s.firedCopy tag d).late = ntLt (ntWrap (d.start + d.nextM * d.period)) s.ntime := by
  unfold State.firedCopy
  dsimp only
  rw [nextInstant_eq]

/-- A firing: the schedule goes on, and a copy of its inner descriptor is released. -/
theorem fire_shows (hd : u.desc tag = some d) (hfree : u.desc (u.freeTag 1024) = none) :
    (u.fire tag d).desc tag = some { d with nextM := d.nextM + 1, fired := d.fired + 1 }
      ∧ ∃ e, (u.fire tag d).desc (u.freeTag 1024) = some e ∧ e.parent = some tag ∧ e.phase = 1
        ∧ e.apply = some (ntWrap (d.start + d.nextM * d.period)) ∧ e.late = ntLt (ntWrap (d.start + d.nextM * d.period)) u.ntime
        ∧ e.op = leAt d.inner 0 1 ∧ e.body = d.inner.drop 16 := by
  have hne : tag ≠ u.freeTag 1024 := fun h => nomatch hd.symm.trans ((congrArg u.desc h).trans hfree)
  have hgoes : (u.fire tag d).desc tag = (u.setDesc tag { d with nextM := d.nextM + 1, fired := d.fired + 1 }).desc tag :=
    desc_setDesc_other _ (u.firedCopy tag d) hne
  have hcopy : (u.fire tag d).desc (u.freeTag 1024) = some (u.firedCopy tag d) := desc_setDesc_same ..
  exact ⟨hgoes.trans (desc_setDesc_same ..), u.firedCopy tag d, hcopy, rfl, rfl, rfl, firedCopy_late .., rfl, rfl⟩

end Releases

/-! ## ABORT -/

section Aborts
variable {s u : State} {t : Instant} {tag g : Nat} {d e : HDesc}

/-- ABORT names a descriptor by function, SQ and CID (R393). -/
def HDesc.names (d : HDesc) (x : Nat × HDesc) : Bool :=
  x.2.fn == d.fn && x.2.sq == d.num 16 1 && x.2.cid == d.num 18 2 && x.2.parent.isNone && !x.2.dead

/-- What ABORT does with the descriptor that it finds, and without one. -/
def State.abortFound (s : State) (tag : Nat) (d : HDesc) (g : Nat) (e : HDesc) : State :=
  if e.dom != d.dom then s.fin tag 0x1A
  else if e.phase = 4 then s.fin tag 2
  else if e.cancellable then (s.cancel g e).fin tag 0
  else s.fin tag 0x1B

def State.abortMissed (s : State) (tag : Nat) (d : HDesc) : State :=
  if s.f R.HOSTQ_SQ_STAT_DOMAIN (d.num 16 1) d.fn == d.dom && (kget [] s.hostq.done (32 * d.fn + d.num 16 1)).contains (d.num 18 2) then s.fin tag 2
  else s.fin tag 0x1A

theorem exec_abort_found (hs : (s.start t).sealed = true) (hd : (s.start t).desc tag = some d) (hphase : d.phase = 1) (hop : d.op = 4)
    (hfind : (s.start t).hostq.descs.find? d.names = some (g, e)) : exec (.abort t tag) s = .next ((s.start t).abortFound tag d g e) := by
  refine congrArg Host.Outcome.next ((takeUp_of hs hd hop hphase).trans ?_)
  dsimp only
  unfold HDesc.names at hfind
  rw [hfind]
  rfl

theorem exec_abort_missed (hs : (s.start t).sealed = true) (hd : (s.start t).desc tag = some d) (hphase : d.phase = 1) (hop : d.op = 4)
    (hfind : (s.start t).hostq.descs.find? d.names = none) : exec (.abort t tag) s = .next ((s.start t).abortMissed tag d) := by
  refine congrArg Host.Outcome.next ((takeUp_of hs hd hop hphase).trans ?_)
  dsimp only
  unfold HDesc.names at hfind
  rw [hfind]
  rfl

/-- The figures of a cancelled schedule or stream. -/
def HDesc.cancelInfo (e : HDesc) : Word × BitVec 64 :=
  if e.op = 3 then (nw e.fired, BitVec.ofNat 64 e.failed) else if e.op = 5 then (nw e.recs, BitVec.ofNat 64 e.bytes) else (0, 0)

/-- Firings under way lose their schedule. -/
def orphanOf (g : Nat) (x : Nat × HDesc) : Nat × HDesc := if x.2.parent == some g then (x.1, { x.2 with parent := some 4096 }) else x

def State.orphaned (s : State) (g : Nat) : State := { s with hostq := { s.hostq with descs := s.hostq.descs.map (orphanOf g) } }

/-- The migration of a descriptor aborts with it. -/
def State.migDropped (s : State) (g : Nat) : State :=
  match s.loop.mig with
  | some m => s.doIf (m.tag == some g) (·.abortMig)
  | none => s

theorem cancel_eq (s : State) (g : Nat) (e : HDesc) :
    s.cancel g e = (((s.fin g 3 0 e.cancelInfo.1 e.cancelInfo.2).dropFrame g).orphaned g).migDropped g := by
  unfold State.cancel HDesc.cancelInfo
  split
  next i0 i1 h =>
    rw [h]
    rfl

theorem orphaned_desc (s : State) (g j : Nat) : (s.orphaned g).desc j = (s.desc j).map fun x => (orphanOf g (j, x)).2 := by
  have hkey (x : Nat × HDesc) : (orphanOf g x).1 = x.1 := by
    unfold orphanOf
    split <;> rfl
  show ((s.hostq.descs.map (orphanOf g)).find? fun x => x.1 == j).map (·.2) = _
  rw [List.find?_map]
  have hpred : ((fun x : Nat × HDesc => x.1 == j) ∘ orphanOf g) = fun x => x.1 == j := funext fun x => by rw [Function.comp_apply, hkey]
  unfold State.desc
  rw [hpred]
  cases h : s.hostq.descs.find? fun x => x.1 == j with
  | none => rfl
  | some y =>
    have hy := List.find?_some h
    obtain ⟨k, y⟩ := y
    cases (beq_iff_eq.mp hy : k = j)
    rfl

theorem orphaned_own (s : State) {g j : Nat} {x : HDesc} (hd : s.desc j = some x) (hown : x.parent = none) : (s.orphaned g).desc j = some x := by
  rw [orphaned_desc, hd, Option.map_some]
  unfold orphanOf
  dsimp only
  rw [if_neg (by rw [hown]; simp)]

theorem reply_done {v : State} {x : HDesc} (hd : v.desc g = some x) (hown : x.parent = none) (hphase : x.phase = 4) (status detail : Nat)
    (ts info0 : Word) (info1 : BitVec 64) : (v.reply cfgPort g status detail ts info0 info1).hostq = v.hostq := by
  unfold State.reply
  dsimp only
  generalize hf : ({ dst := .port 8 0, src := cfgPort, payload := _ } : Flit) = f
  have hsent : (v.send f).hostq = v.hostq := rfl
  exact (congrArg State.hostq (finish_done ((desc_of_hostq hsent g).trans hd) hown hphase ..)).trans hsent

/-- A migration that ends leaves a descriptor that has ended. -/
theorem endMig_hostq {v : State} {m : MigSt} {x : HDesc} (hm : v.loop.mig = some m) (htag : m.tag = some g) (hd : v.desc g = some x)
    (hown : x.parent = none) (hphase : x.phase = 4) (status : Nat) (info0 : Word) : (v.endMig status info0).hostq = v.hostq := by
  unfold State.endMig
  rw [hm]
  dsimp only
  rw [htag]
  dsimp only
  have hphase' : ({ v.setF R.LOOP_MIG_STAT_PHASE 0 with loop := { v.loop with mig := none } } : State).hostq = v.hostq :=
    State.setF_hostq v R.LOOP_MIG_STAT_PHASE 0 0 0
  generalize ({ v.setF R.LOOP_MIG_STAT_PHASE 0 with loop := { v.loop with mig := none } } : State) = w at hphase' ⊢
  have hreply := reply_done ((desc_of_hostq hphase' g).trans hd) hown hphase status 0 w.shortTs info0 0
  generalize w.reply cfgPort g status 0 w.shortTs info0 0 = r at hreply ⊢
  have hrel : (r.doIf m.rel (·.relMigEnd (status == 0))).hostq = r.hostq := eq_doIf _ (tch_relMigEnd.1 .hostq (by decide))
  exact (tch_nextMig.1 .hostq (by decide)).trans (hrel.trans (hreply.trans hphase'))

/-- A migration that aborts leaves HOSTQ as it is but for its own descriptor, which has ended. -/
theorem migDropped_hostq (s : State) {g : Nat} {x : HDesc} (hd : s.desc g = some x) (hown : x.parent = none) (hphase : x.phase = 4) :
    (s.migDropped g).hostq = s.hostq := by
  unfold State.migDropped
  split
  · next m hm =>
    cases htag : m.tag == some g with
    | false => rfl
    | true =>
      rw [State.doIf_true]
      have htag := beq_iff_eq.mp htag
      unfold State.abortMig
      rw [hm]
      dsimp only
      generalize hop : ({ dst := .kernels m.dstPod m.dstMask, src := cfgPort, payload := _ } : Flit) = f
      have hpost : (((s.send f).setB R.LOOP_MIG_STAT_ABORTED true).post E.MIG_ABORT (subject m.ctx)).hostq = s.hostq := by
        rw [State.post_hostq, State.setB_hostq]
        rfl
      have hloop : (((s.send f).setB R.LOOP_MIG_STAT_ABORTED true).post E.MIG_ABORT (subject m.ctx)).loop = s.loop := by
        rw [State.post_loop, State.setB_loop]
        rfl
      generalize ((s.send f).setB R.LOOP_MIG_STAT_ABORTED true).post E.MIG_ABORT (subject m.ctx) = v at hpost hloop ⊢
      rw [endMig_hostq (by rw [hloop, hm]) htag ((desc_of_hostq hpost g).trans hd) hown hphase, hpost]
  · rfl

theorem names_own {x : Nat × HDesc} (h : d.names x = true) : x.2.parent = none ∧ x.2.dead = false := by
  unfold HDesc.names at h
  simp only [Bool.and_eq_true, Bool.not_eq_true', Option.isNone_iff_eq_none] at h
  exact ⟨h.1.2, h.2⟩

/-- A descriptor that ABORT may cancel is cancelled, and ABORT ends well. -/
theorem cancel_ends (hne : g ≠ tag) (hd : u.desc tag = some d) (hmay : MayEnd d) (hlate : d.late = false) (he : u.desc g = some e) (hcan : MayEnd e) :
    Ended u tag 0 0 ((u.cancel g e).fin tag 0) ∧ Ended u g 3 0 ((u.cancel g e).fin tag 0) := by
  have hfin : u.fin g 3 0 e.cancelInfo.1 e.cancelInfo.2 = u.finished g
      { e with phase := 4, status := 3, detail := 0, doneTs := u.shortTs, info0 := e.cancelInfo.1, info1 := e.cancelInfo.2 } :=
    finish_ends he hcan _ _ _ _ _ (.inl (by decide))
  generalize hx : ({ e with phase := 4, status := 3, detail := 0, doneTs := u.shortTs, info0 := e.cancelInfo.1, info1 := e.cancelInfo.2 } : HDesc) = x at hfin
  have hxown : x.parent = none := by rw [← hx]; exact hcan.own
  have hxend : x.phase = 4 ∧ x.status = 3 ∧ x.detail = 0 ∧ x.cid = e.cid := by rw [← hx]; exact ⟨rfl, rfl, rfl, rfl⟩
  obtain ⟨hxphase, hxstatus, hxdetail, hxcid⟩ := hxend
  obtain ⟨hwait, hdescg, hother, -, -⟩ := finished_shows u g x
  have hdrop : ((u.finished g x).dropFrame g).hostq = (u.finished g x).hostq := tch_dropFrame.1 .hostq (by decide)
  have hg : ((((u.finished g x).dropFrame g).orphaned g).migDropped g).desc g = some x := by
    have horph := orphaned_own (g := g) _ ((desc_of_hostq hdrop g).trans hdescg) hxown
    exact (desc_of_hostq (migDropped_hostq _ horph hxown hxphase) g).trans horph
  have hrest : ((((u.finished g x).dropFrame g).orphaned g).migDropped g).desc tag = some d
      ∧ g ∈ ((((u.finished g x).dropFrame g).orphaned g).migDropped g).hostq.waiting := by
    have horphg := orphaned_own (g := g) _ ((desc_of_hostq hdrop g).trans hdescg) hxown
    have horph := orphaned_own (g := g) _ ((desc_of_hostq hdrop tag).trans ((hother tag hne.symm).trans hd)) hmay.own
    have hsame := migDropped_hostq _ horphg hxown hxphase
    refine ⟨(desc_of_hostq hsame tag).trans horph, ?_⟩
    rw [hsame]
    show g ∈ ((u.finished g x).dropFrame g).hostq.waiting
    rw [hdrop]
    exact hwait
  rw [cancel_eq, hfin]
  generalize (((u.finished g x).dropFrame g).orphaned g).migDropped g = v at hg hrest ⊢
  obtain ⟨htag, hmem⟩ := hrest
  refine ⟨ended_of_fin hd htag rfl hmay hlate .., ?_⟩
  have hlast : v.fin tag 0 = v.finished tag { d with phase := 4, status := 0, detail := 0, doneTs := v.shortTs, info0 := 0, info1 := 0 } :=
    finish_ends htag hmay _ _ _ _ _ (.inr hlate)
  rw [hlast]
  obtain ⟨-, -, hkeep, hwaits, -⟩ := finished_shows v tag { d with phase := 4, status := 0, detail := 0, doneTs := v.shortTs, info0 := 0, info1 := 0 }
  exact ⟨hwaits g hmem, e, x, he, (hkeep g hne).trans hg, hxphase, hxstatus, hxdetail, hxcid⟩

end Aborts

/-- Settles O52: a fetch by the refusal that its checks give, a release by LATE_DROP, a schedule by the table and the first instant, a firing by its
copy, and ABORT by what it finds. -/
theorem descriptorsAreCheckedReleasedAndAborted : Obligations.DescriptorsAreCheckedReleasedAndAborted := by
  unfold Obligations.DescriptorsAreCheckedReleasedAndAborted
  rintro ends s u t rfl hs
  refine ⟨fun fn q b inner fresh hturn hfn hq hsize => ?_, fun tag d hd hown hlive hphase hdue horder => ?_,
    fun tag d hd hown hlive hlate hphase hop => ?_, fun tag d hd hheld hphase hleft hdue hfree => ?_, fun tag d hd hown hlive hlate hphase hop => ?_⟩
  · have hbad (st detail : Nat) (h : (s.start t).fetchRefusal fn q ((s.start t).f R.HOSTQ_SQ_STAT_DOMAIN q fn) b inner = some (st, detail)) :=
      fetch_refused (fresh := fresh) hsize h _ rfl
    refine ⟨fun hop => ⟨_, exec_descriptorFetch hturn hq, hbad _ _ ?_⟩, fun hlo hhi href => ⟨_, exec_descriptorFetch hturn hq, hbad _ _ ?_⟩,
      fun st detail h => ⟨_, exec_descriptorFetch hturn hq, hbad _ _ h⟩, fun h => ⟨_, exec_descriptorFetch hturn hq, fetch_accepted hsize h _ rfl⟩⟩
    · unfold State.fetchRefusal
      dsimp only
      rw [if_pos hop]
    · unfold State.fetchRefusal
      dsimp only
      rw [if_neg (by omega), if_pos (by simpa using href)]
  · have hexec := exec_descriptorRelease hs hd hphase hown hdue horder
    exact ⟨fun h => ⟨_, hexec, release_goes (lateDrops_false h)⟩,
      fun hl hf ho => ⟨_, hexec, release_drops hd ⟨hown, hlive, by omega⟩ (lateDrops_true hl hf ho)⟩⟩
  · have hexec := exec_schedule hs hd hphase hop
    refine ⟨fun hfull => ⟨_, hexec, ?_⟩, fun hroom => ⟨_, hexec, ?_⟩⟩
    · unfold State.scheduled
      rw [if_pos hfull]
      exact ended_of_fin hd hd rfl ⟨hown, hlive, by omega⟩ hlate ..
    · unfold State.scheduled
      rw [if_neg (by omega)]
      refine ⟨?_, _, desc_setDesc_same .., firstM_once d _, firstM_least d _⟩
      rw [setDesc_f]
      exact f_setF_fits _ _ _ _ (by decide) (Nat.lt_of_le_of_lt hroom (by decide))
  · exact ⟨_, exec_scheduleFiring hs hd hheld hphase hleft hdue, fire_shows hd hfree⟩
  · have hmay : MayEnd d := ⟨hown, hlive, by omega⟩
    refine ⟨fun g e hfind he => ?_, fun hfind status hstatus => ⟨_, exec_abort_missed hs hd hphase hop hfind, ?_⟩⟩
    · have hexec := exec_abort_found hs hd hphase hop hfind
      obtain ⟨heown, helive⟩ := names_own (List.find?_some hfind)
      refine ⟨fun hdom => ⟨_, hexec, ?_⟩, fun hdom h4 => ⟨_, hexec, ?_⟩, fun hdom h4 hcan => ⟨_, hexec, ?_⟩, fun hdom h4 hcan => ⟨_, hexec, ?_⟩⟩
      all_goals unfold State.abortFound
      · rw [if_pos (by simpa using hdom)]
        exact ended_of_fin hd hd rfl hmay hlate ..
      · rw [if_neg (by simpa using hdom), if_pos h4]
        exact ended_of_fin hd hd rfl hmay hlate ..
      · rw [if_neg (by simpa using hdom), if_neg h4, if_neg (by rw [hcan]; decide)]
        exact ended_of_fin hd hd rfl hmay hlate ..
      · rw [if_neg (by simpa using hdom), if_neg h4, if_pos hcan]
        refine cancel_ends ?_ hd hmay hlate he ⟨heown, helive, h4⟩
        rintro rfl
        cases he.symm.trans hd
        unfold HDesc.cancellable at hcan
        rw [hop] at hcan
        exact Bool.false_ne_true hcan
    · subst hstatus
      unfold State.abortMissed
      by_cases h : (s.start t).f R.HOSTQ_SQ_STAT_DOMAIN (d.num 16 1) d.fn = d.dom ∧ d.num 18 2 ∈ kget [] (s.start t).hostq.done (32 * d.fn + d.num 16 1)
      · rw [if_pos h, if_pos (by simpa using h)]
        exact ended_of_fin hd hd rfl hmay hlate ..
      · rw [if_neg h, if_neg (by simpa using h)]
        exact ended_of_fin hd hd rfl hmay hlate ..

end Sys2Proof.Machine
end

section
/-! PROOFS. O51. Rings: enable and disable, doorbells, completions and interrupts, errors, loss of the link and of the host
(R370 to R375, R394, R397). -/
namespace Sys2Proof.Machine

/-! ## Folds and fields of a ring -/

/-- What the step of one element brings, and every step of the list keeps. -/
theorem foldl_settles_in {α : Type} {Q : State → Prop} {g : State → α → State} {l : List α} {a : α} (ha : a ∈ l) (hnew : ∀ s, Q (g s a))
    (hkeep : ∀ s, ∀ b ∈ l, Q s → Q (g s b)) (s : State) : Q (l.foldl g s) := by
  induction l generalizing s with
  | nil => exact nomatch ha
  | cons b l ih =>
    have hrest : ∀ s, ∀ c ∈ l, Q s → Q (g s c) := fun s c hc => hkeep s c (List.mem_cons_of_mem _ hc)
    rcases List.mem_cons.mp ha with rfl | ha
    · exact List.foldlRecOn l g (hnew s) fun v hv c hc => hrest v c hc hv
    · exact ih ha hrest _

section Enable
variable {s u w : State} {t : Instant} {fn q : Nat} {data : Word} {p : RegHit × List FieldDef}

/-- A write that passes sets the word of the register that it hits, and keeps the session. -/
theorem writeAt_passed {b : Blk} {off : Nat} (hw : u.writeAt fn b off data = (w, some p)) :
    findIn b off fn = some p.1 ∧ ∃ x, w = (u.touch fn).setWord b p.1.key x := by
  unfold State.writeAt at hw
  split at hw
  · exact nomatch congrArg Prod.snd hw
  · split at hw
    · exact nomatch congrArg Prod.snd hw
    · next h hf =>
      split at hw
      · exact nomatch congrArg Prod.snd hw
      · exact nomatch congrArg Prod.snd hw
      · have hp := Option.some.inj (congrArg Prod.snd hw)
        have hst := congrArg Prod.fst hw
        have hst : _ = w := hst
        rw [← hp, ← hst]
        exact ⟨hf, _, rfl⟩

/-- The CFG register of a ring, as both functions address it. -/
theorem sqCfg_key : ∀ fn < 2, ∀ q < 32, (findIn .hostq (R.HOSTQ_SQ_CFG_EN.off q fn) fn).map (·.key) = some (R.HOSTQ_SQ_CFG_EN.key q fn) := by decide

theorem cqCfg_key : ∀ fn < 2, ∀ q < 32, (findIn .hostq (R.HOSTQ_CQ_CFG_EN.off q fn) fn).map (·.key) = some (R.HOSTQ_CQ_CFG_EN.key q fn) := by decide

/-- What a granted write of a ring's CFG register changes: its word, and the session's time. -/
theorem cfgWrite_passed {r : FRef} (hkey : (findIn .hostq (r.off q fn) fn).map (·.key) = some (r.key q fn))
    (hw : u.writeAt fn .hostq (r.off q fn) data = (w, some p)) :
    (∀ k, k ≠ r.key q fn → w.word .hostq k = u.word .hostq k) ∧ w.hostq = u.hostq := by
  obtain ⟨hf, x, hx⟩ := writeAt_passed hw
  rw [hf, Option.map_some] at hkey
  have hkey := Option.some.inj hkey
  rw [hx, hkey]
  refine ⟨fun k hk => ?_, tch_touch.1 .hostq (by decide)⟩
  rw [word_setWord_key _ _ _ hk, word_touch]

/-- A refused change of a ring puts the word back (R371). -/
def State.ringRefused (s : State) (fn q key dom : Nat) (old : Word) : State :=
  (s.setWord .hostq key old).post E.RING_CFG_REFUSED (ringSubject fn q dom)

theorem ringRefused_words {key dom : Nat} {v : State} (hrest : ∀ k, k ≠ key → v.word .hostq k = u.word .hostq k) (k : Nat) :
    (v.ringRefused fn q key dom (u.word .hostq key)).word .hostq k = u.word .hostq k := by
  unfold State.ringRefused
  rw [word_post _ _ _ _ _ _ _ (by decide)]
  by_cases hk : k = key
  · rw [hk, word_setWord_same]
  · rw [word_setWord_key _ _ _ hk, hrest k hk]

theorem ringRefused_hostq (v : State) (key dom : Nat) (old : Word) : (v.ringRefused fn q key dom old).hostq = v.hostq := by
  unfold State.ringRefused
  rw [State.post_hostq]
  rfl

theorem ringRefused_reports (v : State) (key dom : Nat) (old : Word) (hroom : v.room) :
    Reports v (v.ringRefused fn q key dom old) E.RING_CFG_REFUSED (ringSubject fn q dom) :=
  tch_setWord.reports (by decide) (by decide) hroom ..

theorem sq_enable (hfn : fn < 2) (hq : q < 32) (hon : getBits data 31 31 = 1)
    (hw : (s.start t).writeAt fn .hostq (R.HOSTQ_SQ_CFG_EN.off q fn) data = (w, some p)) (hwas : (s.start t).b R.HOSTQ_SQ_CFG_EN q fn = false) :
    exec (.ringEnable t fn false q data) s = .next (if w.ringOnOk false fn q ((s.start t).domainOf fn) then w.sqOn fn q ((s.start t).domainOf fn)
      else w.ringRefused fn q (R.HOSTQ_SQ_CFG_EN.key q fn) ((s.start t).domainOf fn) ((s.start t).word .hostq (R.HOSTQ_SQ_CFG_EN.key q fn))) := by
  refine congrArg Host.Outcome.next ((State.doIf_of (by rw [hon, decide_eq_true hfn, decide_eq_true hq]; rfl)).trans ?_)
  unfold State.ringCfg
  dsimp only
  rw [if_neg (by decide), hw]
  dsimp only
  rw [hwas, hon, State.doIf_false, if_pos (by decide), if_neg Bool.false_ne_true]
  rfl

theorem cq_enable (hfn : fn < 2) (hq : q < 32) (hon : getBits data 31 31 = 1)
    (hw : (s.start t).writeAt fn .hostq (R.HOSTQ_CQ_CFG_EN.off q fn) data = (w, some p)) (hwas : (s.start t).b R.HOSTQ_CQ_CFG_EN q fn = false)
    (hok : w.ringOnOk true fn q ((s.start t).domainOf fn) = true) :
    exec (.ringEnable t fn true q data) s = .next (w.cqOn fn q ((s.start t).domainOf fn)) := by
  refine congrArg Host.Outcome.next ((State.doIf_of (by rw [hon, decide_eq_true hfn, decide_eq_true hq]; rfl)).trans ?_)
  unfold State.ringCfg
  dsimp only
  rw [if_pos rfl, hw]
  dsimp only
  rw [hwas, hon, State.doIf_false, hok]
  rfl

/-- The registers of an SQ that is enabled, and of a CQ (R371, R373). -/
def State.sqShown (s : State) (fn q dom : Nat) : State :=
  ((((s.setB R.HOSTQ_SQ_CFG_EN true q fn).setF R.HOSTQ_SQ_STAT_STATE rgActive q fn).setF R.HOSTQ_SQ_STAT_DOMAIN dom q fn).setF
    R.HOSTQ_SQ_STAT_ERR 0 q fn).setF R.HOSTQ_SQ_STAT_HEAD 0 q fn

def State.cqShown (s : State) (fn q dom : Nat) : State :=
  ((((((s.setB R.HOSTQ_CQ_CFG_EN true q fn).setF R.HOSTQ_CQ_STAT_STATE rgActive q fn).setF R.HOSTQ_CQ_STAT_DOMAIN dom q fn).setB
    R.HOSTQ_CQ_STAT_PHASE true q fn).setB R.HOSTQ_CQ_STAT_FULL false q fn).setF R.HOSTQ_CQ_STAT_HEAD 0 q fn).setF R.HOSTQ_CQ_STAT_TAIL 0 q fn

/-- HOSTQ's records of a ring that is enabled: it is empty, and nothing of its past is kept. -/
def State.sqEmptied (s : State) (fn q : Nat) : State :=
  { s with hostq := { s.hostq with
      tails := kset 0 s.hostq.tails (32 * fn + q) 0, done := kset [] s.hostq.done (32 * fn + q) []
      refusing := s.hostq.refusing.filter (· != 32 * fn + q) } }

def State.cqEmptied (s : State) (fn q : Nat) : State :=
  { s with hostq := { s.hostq with
      filled := s.hostq.filled.filter (· != 32 * fn + q), unsig := kset [] s.hostq.unsig (32 * fn + q) []
      unsigNow := s.hostq.unsigNow.filter (· != 32 * fn + q) } }

theorem sqOn_eq (s : State) (fn q dom : Nat) : s.sqOn fn q dom = (s.sqShown fn q dom).sqEmptied fn q := rfl

theorem cqOn_eq (s : State) (fn q dom : Nat) : s.cqOn fn q dom = (s.cqShown fn q dom).cqEmptied fn q := rfl

theorem sqEmptied_parts (s : State) (fn q : Nat) : (∀ r i j, (s.sqEmptied fn q).f r i j = s.f r i j)
    ∧ kget 0 (s.sqEmptied fn q).hostq.tails (32 * fn + q) = 0 ∧ (s.sqEmptied fn q).sys = s.sys :=
  ⟨fun _ _ _ => rfl, kget_kset_same 0 s.hostq.tails (32 * fn + q) 0, rfl⟩

theorem cqEmptied_f (s : State) (fn q : Nat) (r : FRef) (i j : Nat) : (s.cqEmptied fn q).f r i j = s.f r i j := rfl

theorem sqCfg_ne_stat (fn q : Nat) : R.HOSTQ_SQ_CFG_EN.key q fn ≠ R.HOSTQ_SQ_STAT_STATE.key q fn := by
  simp only [FRef.key, R.HOSTQ_SQ_CFG_EN, R.HOSTQ_SQ_STAT_STATE]
  omega

theorem cqCfg_ne_stat (fn q : Nat) : R.HOSTQ_CQ_CFG_EN.key q fn ≠ R.HOSTQ_CQ_STAT_STATE.key q fn := by
  simp only [FRef.key, R.HOSTQ_CQ_CFG_EN, R.HOSTQ_CQ_STAT_STATE]
  omega

theorem sqShown_cfg (s : State) (fn q dom : Nat) {r : FRef} (hkey : r.key q fn = R.HOSTQ_SQ_CFG_EN.key q fn) :
    (s.sqShown fn q dom).f r q fn = (s.setB R.HOSTQ_SQ_CFG_EN true q fn).f r q fn := by
  have hne : r.key q fn ≠ R.HOSTQ_SQ_STAT_STATE.key q fn := hkey ▸ sqCfg_ne_stat fn q
  unfold State.sqShown
  rw [f_setF_key, f_setF_key, f_setF_key, f_setF_key]
  all_goals exact hne

theorem sqOn_shows (w : State) (fn q dom : Nat) : (w.sqOn fn q dom).b R.HOSTQ_SQ_CFG_EN q fn = true ∧ (w.sqOn fn q dom).sqState fn q = 1
    ∧ (w.sqOn fn q dom).f R.HOSTQ_SQ_STAT_DOMAIN q fn = dom % 8 ∧ (w.sqOn fn q dom).f R.HOSTQ_SQ_STAT_HEAD q fn = 0
    ∧ kget 0 (w.sqOn fn q dom).hostq.tails (32 * fn + q) = 0 ∧ (w.sqOn fn q dom).cqOf fn q = w.cqOf fn q ∧ (w.sqOn fn q dom).sys = w.sys := by
  obtain ⟨hf, htails, hsys⟩ := sqEmptied_parts (w.sqShown fn q dom) fn q
  have hen := b_of_f ((hf R.HOSTQ_SQ_CFG_EN q fn).trans (sqShown_cfg w fn q dom rfl))
  have hcq := (hf R.HOSTQ_SQ_CFG_CQ q fn).trans (sqShown_cfg w fn q dom (r := R.HOSTQ_SQ_CFG_CQ) rfl)
  rw [sqOn_eq]
  refine ⟨hen.trans (b_setB_same _ _ _ _ _ (by decide)), (hf ..).trans ?_, (hf ..).trans ?_, (hf ..).trans ?_, htails,
    hcq.trans (f_setB_bits _ _ _ _ _ _ (by decide)), hsys.trans ?_⟩ <;> unfold State.sqShown
  · rw [f_setF_bits _ _ _ _ _ _ (by decide), f_setF_bits _ _ _ _ _ _ (by decide), f_setF_bits _ _ _ _ _ _ (by decide)]
    exact f_setF_fits _ _ _ _ (by decide) (by decide)
  · rw [f_setF_bits _ _ _ _ _ _ (by decide), f_setF_bits _ _ _ _ _ _ (by decide)]
    exact f_setF_same _ _ _ _ _ (by decide)
  · exact f_setF_fits _ _ _ _ (by decide) (by decide)
  · rw [State.setF_sys, State.setF_sys, State.setF_sys, State.setF_sys, State.setB_sys]

theorem cqShown_en (s : State) (fn q dom : Nat) : (s.cqShown fn q dom).f R.HOSTQ_CQ_CFG_EN q fn = (s.setB R.HOSTQ_CQ_CFG_EN true q fn).f R.HOSTQ_CQ_CFG_EN q fn := by
  unfold State.cqShown
  rw [f_setF_key, f_setF_key, f_setB_key, f_setB_key, f_setF_key, f_setF_key]
  all_goals exact cqCfg_ne_stat fn q

theorem cqShown_phase (s : State) (fn q dom : Nat) : (s.cqShown fn q dom).b R.HOSTQ_CQ_STAT_PHASE q fn = true := by
  unfold State.cqShown
  rw [b_setF_bits _ _ _ _ _ _ (by decide), b_setF_bits _ _ _ _ _ _ (by decide), b_setB_bits _ _ _ _ _ _ (by decide)]
  exact b_setB_same _ _ _ _ _ (by decide)

theorem cqOn_shows (w : State) (fn q dom : Nat) : (w.cqOn fn q dom).b R.HOSTQ_CQ_CFG_EN q fn = true ∧ (w.cqOn fn q dom).cqState fn q = 1
    ∧ (w.cqOn fn q dom).b R.HOSTQ_CQ_STAT_PHASE q fn = true ∧ (w.cqOn fn q dom).f R.HOSTQ_CQ_STAT_HEAD q fn = 0
    ∧ (w.cqOn fn q dom).f R.HOSTQ_CQ_STAT_TAIL q fn = 0 ∧ (w.cqOn fn q dom).f R.HOSTQ_CQ_STAT_DOMAIN q fn = dom % 8 := by
  have hf := cqEmptied_f (w.cqShown fn q dom) fn q
  have hen := b_of_f ((hf R.HOSTQ_CQ_CFG_EN q fn).trans (cqShown_en w fn q dom))
  rw [cqOn_eq]
  refine ⟨hen.trans (b_setB_same _ _ _ _ _ (by decide)), (hf ..).trans ?_, (b_of_f (hf ..)).trans (cqShown_phase w fn q dom), (hf ..).trans ?_,
    (hf ..).trans ?_, (hf ..).trans ?_⟩ <;> unfold State.cqShown
  · rw [f_setF_bits _ _ _ _ _ _ (by decide), f_setF_bits _ _ _ _ _ _ (by decide), f_setB_bits _ _ _ _ _ _ (by decide),
      f_setB_bits _ _ _ _ _ _ (by decide), f_setF_bits _ _ _ _ _ _ (by decide)]
    exact f_setF_fits _ _ _ _ (by decide) (by decide)
  · rw [f_setF_bits _ _ _ _ _ _ (by decide)]
    exact f_setF_fits _ _ _ _ (by decide) (by decide)
  · exact f_setF_fits _ _ _ _ (by decide) (by decide)
  · rw [f_setF_bits _ _ _ _ _ _ (by decide), f_setF_bits _ _ _ _ _ _ (by decide), f_setB_bits _ _ _ _ _ _ (by decide),
      f_setB_bits _ _ _ _ _ _ (by decide)]
    exact f_setF_same _ _ _ _ _ (by decide)

end Enable

/-! ## The enable and the disable (R371, R374, R375) -/

theorem f_of_regs {s s' : State} (h : s'.regs = s.regs) (r : FRef) (i j : Nat) : s'.f r i j = s.f r i j := by
  unfold State.f State.word
  rw [h]

theorem f_of_words {s s' : State} {b : Blk} (h : ∀ k, s'.word b k = s.word b k) {r : FRef} (hb : r.blk = b) (i j : Nat) : s'.f r i j = s.f r i j := by
  subst hb
  unfold State.f
  rw [h]

section Disable
variable {s u w : State} {t : Instant} {fn q : Nat} {data : Word} {p : RegHit × List FieldDef}

theorem sqOnOk_of {dom : Nat} (hoff : w.sqState fn q = 0) (hsize : 4 ≤ w.f R.HOSTQ_SQ_CFG_SIZE q fn ∧ w.f R.HOSTQ_SQ_CFG_SIZE q fn ≤ 12)
    (hcq : w.cqState fn (w.cqOf fn q) = 1) (hdom : w.f R.HOSTQ_CQ_STAT_DOMAIN (w.cqOf fn q) fn = dom) : w.ringOnOk false fn q dom = true := by
  unfold State.ringOnOk sizeOk
  rw [if_neg Bool.false_ne_true]
  dsimp only
  rw [hoff, hcq, hdom, decide_eq_true hsize.1, decide_eq_true hsize.2, beq_self_eq_true dom]
  rfl

theorem sqOnOk_not {dom : Nat} (h : w.cqState fn (w.cqOf fn q) = 0 ∨ w.f R.HOSTQ_CQ_STAT_DOMAIN (w.cqOf fn q) fn ≠ dom) :
    w.ringOnOk false fn q dom = false := by
  unfold State.ringOnOk
  rw [if_neg Bool.false_ne_true]
  dsimp only
  rcases h with h | h
  · rw [h, show (0 == rgActive) = false from rfl, Bool.and_false, Bool.false_and]
  · rw [beq_eq_false_iff_ne.mpr h, Bool.and_false]

theorem cqOnOk_of {dom : Nat} (hoff : w.cqState fn q = 0) (hsize : 4 ≤ w.f R.HOSTQ_CQ_CFG_SIZE q fn ∧ w.f R.HOSTQ_CQ_CFG_SIZE q fn ≤ 12) :
    w.ringOnOk true fn q dom = true := by
  unfold State.ringOnOk sizeOk
  rw [if_pos rfl, hoff, decide_eq_true hsize.1, decide_eq_true hsize.2]
  rfl

/-- The word of an enabled SQ is put back before its EN is looked at. -/
theorem sq_disable (hfn : fn < 2) (hq : q < 32) (hoff : getBits data 31 31 = 0)
    (hw : (s.start t).writeAt fn .hostq (R.HOSTQ_SQ_CFG_EN.off q fn) data = (w, some p)) (hwas : (s.start t).b R.HOSTQ_SQ_CFG_EN q fn = true) :
    exec (.ringDisable t fn false q data) s = .next ((w.setWord .hostq (R.HOSTQ_SQ_CFG_EN.key q fn)
      ((s.start t).word .hostq (R.HOSTQ_SQ_CFG_EN.key q fn))).ringOff false fn q) := by
  refine congrArg Host.Outcome.next ((State.doIf_of (by rw [hoff, decide_eq_true hfn, decide_eq_true hq]; rfl)).trans ?_)
  unfold State.ringCfg
  dsimp only
  rw [if_neg (by decide), hw]
  dsimp only
  rw [hwas, hoff, State.doIf_true, if_neg (by decide), if_neg Bool.false_ne_true, if_pos (by decide)]
  unfold State.ringOffOk
  rw [Bool.not_false, Bool.true_or, Bool.true_or, if_pos rfl]

/-- The SQ of a disable as it was before, with its EN cleared. -/
theorem sqOff_shows (v : State) (fn q : Nat) : (v.sqOff fn q).b R.HOSTQ_SQ_CFG_EN q fn = false ∧ (v.sqOff fn q).sqState fn q = 0
    ∧ (v.sqOff fn q).f R.HOSTQ_SQ_STAT_DOMAIN q fn = 0 ∧ (v.sqOff fn q).f R.HOSTQ_SQ_STAT_ERR q fn = 0 := by
  have hne := sqCfg_ne_stat fn q
  unfold State.sqOff State.sqState
  dsimp only
  refine ⟨?_, ?_, ?_, f_setF_fits _ _ _ _ (by decide) (by decide)⟩
  · rw [b_setF_key _ _ (r := R.HOSTQ_SQ_STAT_ERR) hne]
    exact b_setB_same _ _ _ _ _ (by decide)
  · rw [f_setF_bits _ _ _ _ _ _ (by decide), f_setB_key _ _ (q := R.HOSTQ_SQ_STAT_STATE) hne.symm, f_setF_bits _ _ _ _ _ _ (by decide)]
    exact f_setF_fits _ _ _ _ (by decide) (by decide)
  · rw [f_setF_bits _ _ _ _ _ _ (by decide), f_setB_key _ _ (q := R.HOSTQ_SQ_STAT_DOMAIN) hne.symm]
    exact f_setF_fits _ _ _ _ (by decide) (by decide)

theorem sqRingOff_shows (v : State) (fn q : Nat) : (v.ringOff false fn q).b R.HOSTQ_SQ_CFG_EN q fn = false
    ∧ (v.ringOff false fn q).sqState fn q
      = if v.f R.HOSTQ_SQ_STAT_OUTSTANDING q fn = 0 then 0 else if v.sqState fn q = 1 then 2 else v.sqState fn q := by
  have hne := sqCfg_ne_stat fn q
  have hstate : (v.setB R.HOSTQ_SQ_CFG_EN false q fn).sqState fn q = v.sqState fn q := f_setB_key _ _ (q := R.HOSTQ_SQ_STAT_STATE) hne.symm
  have hen := b_setB_same v R.HOSTQ_SQ_CFG_EN false q fn (by decide)
  unfold State.ringOff
  rw [if_neg Bool.false_ne_true]
  split
  · exact ⟨(sqOff_shows v fn q).1, (sqOff_shows v fn q).2.1⟩
  · dsimp only
    rw [hstate]
    by_cases hact : v.sqState fn q = 1
    · rw [hact, State.doIf_of (show (1 == rgActive) = true from rfl), if_pos rfl]
      exact ⟨(b_setF_key _ _ (r := R.HOSTQ_SQ_STAT_STATE) hne).trans hen, f_setF_fits _ _ _ _ (by decide) (by decide)⟩
    · rw [State.doIf_not (beq_eq_false_iff_ne.mpr hact), if_neg hact]
      exact ⟨hen, hstate⟩

/-- A CQ that an enabled SQ names is not disabled (R371). -/
theorem cqOffOk_not {v : State} (herr : v.cqState fn q ≠ 3) (hsq : ∃ r < 32, v.b R.HOSTQ_SQ_CFG_EN r fn = true ∧ v.cqOf fn r = q) :
    v.ringOffOk true fn q = false := by
  obtain ⟨r, hr, hen, hcq⟩ := hsq
  have hany : ((List.range 32).any fun p => v.b R.HOSTQ_SQ_CFG_EN p fn && v.cqOf fn p == q) = true :=
    List.any_eq_true.mpr ⟨r, List.mem_range.mpr hr, by rw [hen, hcq, beq_self_eq_true]; rfl⟩
  unfold State.ringOffOk
  rw [beq_eq_false_iff_ne.mpr herr, hany]
  rfl

/-- The word of a CQ's CFG register that a write of an enabled CQ leaves: its interrupt fields alone are new. -/
def cqCfgKept (old new : Word) : Word := setBits old 21 4 (getBits new 21 4)

theorem cq_disable_refused (hfn : fn < 2) (hq : q < 32) (hoff : getBits data 31 31 = 0)
    (hw : (s.start t).writeAt fn .hostq (R.HOSTQ_CQ_CFG_EN.off q fn) data = (w, some p)) (hwas : (s.start t).b R.HOSTQ_CQ_CFG_EN q fn = true)
    (hno : (w.setWord .hostq (R.HOSTQ_CQ_CFG_EN.key q fn) (cqCfgKept ((s.start t).word .hostq (R.HOSTQ_CQ_CFG_EN.key q fn))
      (w.word .hostq (R.HOSTQ_CQ_CFG_EN.key q fn)))).ringOffOk true fn q = false) :
    exec (.ringDisable t fn true q data) s = .next ((w.setWord .hostq (R.HOSTQ_CQ_CFG_EN.key q fn)
      (cqCfgKept ((s.start t).word .hostq (R.HOSTQ_CQ_CFG_EN.key q fn)) (w.word .hostq (R.HOSTQ_CQ_CFG_EN.key q fn)))).ringRefused fn q
        (R.HOSTQ_CQ_CFG_EN.key q fn) ((s.start t).domainOf fn) ((s.start t).word .hostq (R.HOSTQ_CQ_CFG_EN.key q fn))) := by
  refine congrArg Host.Outcome.next ((State.doIf_of (by rw [hoff, decide_eq_true hfn, decide_eq_true hq]; rfl)).trans ?_)
  unfold State.ringCfg
  dsimp only
  rw [if_pos rfl, hw]
  dsimp only
  rw [hwas, hoff, State.doIf_true, if_neg (by decide), if_pos (by decide)]
  unfold cqCfgKept at hno
  rw [if_pos rfl, if_neg (by rw [hno]; exact Bool.false_ne_true)]
  rfl

/-- The words of a ring's CFG register and of its SQs, while the CFG word of a CQ is written. -/
theorem cqCfg_apart (fn q r : Nat) (hr : r < 32) (hq : q < 32) : R.HOSTQ_SQ_CFG_EN.key r fn ≠ R.HOSTQ_CQ_CFG_EN.key q fn := by
  simp only [FRef.key, R.HOSTQ_CQ_CFG_EN, R.HOSTQ_SQ_CFG_EN]
  omega

/-- What a granted write with EN = 0 makes of an enabled SQ: the fields of its words are those of before. -/
theorem sqDisabled_shows (hrest : ∀ k, k ≠ R.HOSTQ_SQ_CFG_EN.key q fn → w.word .hostq k = u.word .hostq k) :
    let v := w.setWord .hostq (R.HOSTQ_SQ_CFG_EN.key q fn) (u.word .hostq (R.HOSTQ_SQ_CFG_EN.key q fn))
    (v.ringOff false fn q).b R.HOSTQ_SQ_CFG_EN q fn = false ∧ (v.ringOff false fn q).sqState fn q
      = if u.f R.HOSTQ_SQ_STAT_OUTSTANDING q fn = 0 then 0 else if u.sqState fn q = 1 then 2 else u.sqState fn q := by
  intro v
  have hwords (k : Nat) : v.word .hostq k = u.word .hostq k := by
    by_cases hk : k = R.HOSTQ_SQ_CFG_EN.key q fn
    · rw [hk]
      exact word_setWord_same ..
    · exact (word_setWord_key _ _ _ hk).trans (hrest k hk)
  have hout : v.f R.HOSTQ_SQ_STAT_OUTSTANDING q fn = u.f R.HOSTQ_SQ_STAT_OUTSTANDING q fn := f_of_words hwords rfl q fn
  have hstate : v.sqState fn q = u.sqState fn q := f_of_words hwords rfl q fn
  rw [← hout, ← hstate]
  exact sqRingOff_shows v fn q

section CqDisable
variable (hrest : ∀ k, k ≠ R.HOSTQ_CQ_CFG_EN.key q fn → w.word .hostq k = u.word .hostq k)
include hrest

/-- An SQ and the STATE of the CQ are as they were, whatever is written to the CQ's CFG register. -/
theorem cqKept_refused (hq : q < 32) (herr : u.cqState fn q ≠ 3) (hsq : ∃ r < 32, u.b R.HOSTQ_SQ_CFG_EN r fn = true ∧ u.cqOf fn r = q) (x : Word) :
    (w.setWord .hostq (R.HOSTQ_CQ_CFG_EN.key q fn) x).ringOffOk true fn q = false := by
  have hf {r : FRef} {i : Nat} (hb : r.blk = .hostq) (hk : r.key i fn ≠ R.HOSTQ_CQ_CFG_EN.key q fn) :
      (w.setWord .hostq (R.HOSTQ_CQ_CFG_EN.key q fn) x).f r i fn = u.f r i fn := by
    unfold State.f
    rw [hb, word_setWord_key _ _ _ hk, hrest _ hk]
  obtain ⟨r, hr, hen, hcq⟩ := hsq
  have hne := cqCfg_apart fn q r hr hq
  exact cqOffOk_not (fun h => herr ((hf (r := R.HOSTQ_CQ_STAT_STATE) rfl (cqCfg_ne_stat fn q).symm).symm.trans h))
    ⟨r, hr, (b_of_f (hf rfl hne)).trans hen, (hf (r := R.HOSTQ_SQ_CFG_CQ) rfl hne).trans hcq⟩

theorem cqDisable_words (x : Word) (dom k : Nat) : ((w.setWord .hostq (R.HOSTQ_CQ_CFG_EN.key q fn) x).ringRefused fn q (R.HOSTQ_CQ_CFG_EN.key q fn) dom
    (u.word .hostq (R.HOSTQ_CQ_CFG_EN.key q fn))).word .hostq k = u.word .hostq k :=
  ringRefused_words (fun k hk => (word_setWord_key _ _ _ hk).trans (hrest k hk)) k

end CqDisable

theorem cqDisable_reports (w : State) (key dom : Nat) (x old : Word) (hroom : w.room) :
    Reports w ((w.setWord .hostq key x).ringRefused fn q key dom old) E.RING_CFG_REFUSED (ringSubject fn q dom) := by
  have hset : Touches 8 w (w.setWord .hostq key x) := tch_setWord.mono (by decide)
  have hback : Touches 8 w ((w.setWord .hostq key x).setWord .hostq key old) := (tch_setWord (a1 := .hostq)).comp (by decide) hset
  exact hback.reports (by decide) (by decide) hroom ..

end Disable

/-- A ring whose last outstanding descriptor has finished (R374). -/
theorem ring_drained {s : State} {t : Instant} {fn q : Nat} (hfn : fn < 2) (hq : q < 32) (hen : (s.start t).b R.HOSTQ_SQ_CFG_EN q fn = false)
    (hout : (s.start t).f R.HOSTQ_SQ_STAT_OUTSTANDING q fn = 0) (hst : (s.start t).sqState fn q = 2 ∨ (s.start t).sqState fn q = 3) :
    exec (.ringDrained t fn q) s = .next ((s.start t).sqOff fn q) := by
  refine congrArg Host.Outcome.next (State.doIf_of ?_)
  rw [decide_eq_true hfn, decide_eq_true hq, hen, hout]
  rcases hst with h | h <;> rw [h] <;> rfl

/-! ## Doorbells (R372, R373) -/

section Bells
variable {s u : State} {t : Instant} {fn q : Nat} {data : Word}

/-- A tail, or a head, that its ring does not hold. -/
def State.bellBad (s : State) (r : FRef) (fn q dom : Nat) : State := (s.setB r true q fn).post E.DB_BAD (ringSubject fn q dom)

theorem bellBad_b (s : State) {r : FRef} (h : r.lo = r.hi ∧ r.hi < 32) (hb : r.blk ≠ .sys) (fn q dom : Nat) : (s.bellBad r fn q dom).b r q fn = true := by
  unfold State.bellBad
  rw [b_post _ _ _ _ _ _ _ _ hb]
  exact b_setB_same _ _ _ _ _ h

theorem bellBad_hostq (s : State) (r : FRef) (fn q dom : Nat) : (s.bellBad r fn q dom).hostq = s.hostq := by
  unfold State.bellBad
  rw [State.post_hostq, State.setB_hostq]

theorem bellBad_reports (s : State) {r : FRef} (hb : r.blk = .hostq) (fn q dom : Nat) (hroom : s.room) :
    Reports s (s.bellBad r fn q dom) E.DB_BAD (ringSubject fn q dom) :=
  tch_setB.reports (by rw [hb]; decide) (by rw [hb]; decide) hroom ..

theorem bellBad_head (s : State) (fn q dom : Nat) :
    (s.bellBad R.HOSTQ_CQ_STAT_DB_BAD fn q dom).f R.HOSTQ_CQ_STAT_HEAD q fn = s.f R.HOSTQ_CQ_STAT_HEAD q fn := by
  unfold State.bellBad
  rw [f_post _ _ _ _ _ _ _ _ (by decide), f_setB_bits _ _ _ _ _ _ (by decide)]

theorem sqBell_runs (hfn : fn < 2) (hq : q < 32) (hopen : (s.start t).bellOpen = true) (hen : (s.start t).b R.HOSTQ_SQ_CFG_EN q fn = true) :
    exec (.sqTailDoorbell t fn q data) s = .next (if data.toNat < 2 ^ (s.start t).f R.HOSTQ_SQ_CFG_SIZE q fn then
        { s.start t with hostq := { (s.start t).hostq with tails := kset 0 (s.start t).hostq.tails (32 * fn + q) data.toNat } }
      else if (s.start t).b R.HOSTQ_SQ_STAT_DB_BAD q fn then s.start t
      else (s.start t).bellBad R.HOSTQ_SQ_STAT_DB_BAD fn q ((s.start t).f R.HOSTQ_SQ_STAT_DOMAIN q fn)) := by
  refine congrArg Host.Outcome.next ((State.doIf_of (by rw [hopen, hen, decide_eq_true hfn, decide_eq_true hq]; rfl)).trans ?_)
  exact ite_congr rfl (fun _ => rfl) fun _ => ite_congr rfl (fun _ => rfl) fun _ => rfl

theorem sqBell_off (hen : (s.start t).b R.HOSTQ_SQ_CFG_EN q fn = false) : exec (.sqTailDoorbell t fn q data) s = .next (s.start t) :=
  congrArg Host.Outcome.next (State.doIf_not (by rw [hen, Bool.and_false]))

theorem cqBell_runs (hfn : fn < 2) (hq : q < 32) (hopen : (s.start t).bellOpen = true) (hen : (s.start t).b R.HOSTQ_CQ_CFG_EN q fn = true) :
    exec (.cqHeadDoorbell t fn q data) s = .next (if data.toNat < 2 ^ (s.start t).f R.HOSTQ_CQ_CFG_SIZE q fn then
        ((s.start t).setF R.HOSTQ_CQ_STAT_HEAD data.toNat q fn).fillCheck fn q
      else if (s.start t).b R.HOSTQ_CQ_STAT_DB_BAD q fn then s.start t
      else (s.start t).bellBad R.HOSTQ_CQ_STAT_DB_BAD fn q ((s.start t).f R.HOSTQ_CQ_STAT_DOMAIN q fn)) := by
  refine congrArg Host.Outcome.next ((State.doIf_of (by rw [hopen, hen, decide_eq_true hfn, decide_eq_true hq]; rfl)).trans ?_)
  exact ite_congr rfl (fun _ => rfl) fun _ => ite_congr rfl (fun _ => rfl) fun _ => rfl

end Bells

/-- A CQ is full where its next TAIL is the HEAD. -/
def State.cqFull (s : State) (fn q : Nat) : Bool :=
  (s.f R.HOSTQ_CQ_STAT_TAIL q fn + 1) % 2 ^ s.f R.HOSTQ_CQ_CFG_SIZE q fn == s.f R.HOSTQ_CQ_STAT_HEAD q fn

/-- The first fill of a CQ since its EN is reported. -/
def State.fillReport (s : State) (fn q : Nat) (full : Bool) : State :=
  if full && !s.hostq.filled.contains (32 * fn + q) then
    ({ s with hostq := { s.hostq with filled := (32 * fn + q) :: s.hostq.filled } }).post E.CQ_FULL (ringSubject fn q (s.f R.HOSTQ_CQ_STAT_DOMAIN q fn))
  else s

theorem fillCheck_eq (s : State) (fn q : Nat) : s.fillCheck fn q = (s.setB R.HOSTQ_CQ_STAT_FULL (s.cqFull fn q) q fn).fillReport fn q (s.cqFull fn q) := by
  unfold State.fillCheck State.fillReport State.cqFull
  rfl

theorem fillReport_f (s : State) (fn q : Nat) (full : Bool) {r : FRef} (h : r.blk ≠ .sys) (i j : Nat) : (s.fillReport fn q full).f r i j = s.f r i j := by
  unfold State.fillReport
  split
  · rw [f_post _ _ _ _ _ _ _ _ h]
    rfl
  · rfl

theorem fillCheck_f (s : State) (fn q : Nat) {r : FRef} (h : r.blk ≠ .sys) (i j : Nat) :
    (s.fillCheck fn q).f r i j = (s.setB R.HOSTQ_CQ_STAT_FULL (s.cqFull fn q) q fn).f r i j := by
  rw [fillCheck_eq, fillReport_f _ _ _ _ h]

/-- The head of a CQ moves: it is full where the next TAIL meets it (R373). -/
theorem headMoved_shows {u : State} {fn q d : Nat} (hsize : u.f R.HOSTQ_CQ_CFG_SIZE q fn ≤ 12) (hd : d < 2 ^ u.f R.HOSTQ_CQ_CFG_SIZE q fn) :
    ((u.setF R.HOSTQ_CQ_STAT_HEAD d q fn).fillCheck fn q).f R.HOSTQ_CQ_STAT_HEAD q fn = d
      ∧ ((u.setF R.HOSTQ_CQ_STAT_HEAD d q fn).fillCheck fn q).b R.HOSTQ_CQ_STAT_FULL q fn
        = decide ((u.f R.HOSTQ_CQ_STAT_TAIL q fn + 1) % 2 ^ u.f R.HOSTQ_CQ_CFG_SIZE q fn = d) := by
  have hfit : d < 2 ^ 12 := Nat.lt_of_lt_of_le hd (Nat.pow_le_pow_right (by decide) hsize)
  have hhead : (u.setF R.HOSTQ_CQ_STAT_HEAD d q fn).f R.HOSTQ_CQ_STAT_HEAD q fn = d := f_setF_fits _ _ _ _ (by decide) hfit
  have htail : (u.setF R.HOSTQ_CQ_STAT_HEAD d q fn).f R.HOSTQ_CQ_STAT_TAIL q fn = u.f R.HOSTQ_CQ_STAT_TAIL q fn := f_setF_bits _ _ _ _ _ _ (by decide)
  have hcfg : (u.setF R.HOSTQ_CQ_STAT_HEAD d q fn).f R.HOSTQ_CQ_CFG_SIZE q fn = u.f R.HOSTQ_CQ_CFG_SIZE q fn :=
    f_setF_key _ _ (r := R.HOSTQ_CQ_STAT_HEAD) (q := R.HOSTQ_CQ_CFG_SIZE) (cqCfg_ne_stat fn q)
  have hfull : (u.setF R.HOSTQ_CQ_STAT_HEAD d q fn).cqFull fn q = decide ((u.f R.HOSTQ_CQ_STAT_TAIL q fn + 1) % 2 ^ u.f R.HOSTQ_CQ_CFG_SIZE q fn = d) := by
    unfold State.cqFull
    rw [hhead, htail, hcfg]
    rfl
  refine ⟨(fillCheck_f _ _ _ (by decide) _ _).trans ((f_setB_bits _ _ _ _ _ _ (by decide)).trans hhead), ?_⟩
  rw [b_of_f (fillCheck_f _ fn q (r := R.HOSTQ_CQ_STAT_FULL) (by decide) q fn), b_setB_same _ _ _ _ _ (by decide), hfull]

/-! ## What the end of a descriptor leaves alone -/

theorem desc_of_descs {s s' : State} (h : s'.hostq.descs = s.hostq.descs) (tag : Nat) : s'.desc tag = s.desc tag := by
  unfold State.desc
  rw [h]

theorem find_kdel_same {α : Type} (m : KMap α) (k : Nat) : (kdel m k).find? (fun x => x.1 == k) = none := by
  induction m with
  | nil => rfl
  | cons y m ih =>
    unfold kdel
    split
    · exact ih
    · next h => rw [List.find?_cons_of_neg (by simpa using Ne.symm h), ih]

/-- The record of a descriptor is taken away. -/
def State.forgetDesc (s : State) (tag : Nat) : State :=
  { s with hostq := { s.hostq with descs := kdel s.hostq.descs tag, waiting := s.hostq.waiting.filter (· != tag) } }

/-- The counts of outstanding descriptors and of held schedules go down by a descriptor. -/
def State.uncount (s : State) (d : HDesc) : State :=
  let s := s.setF R.HOSTQ_STAT_OUTSTANDING (s.f R.HOSTQ_STAT_OUTSTANDING - 1)
  let s := s.doIf d.held fun s => s.setF R.HOSTQ_STAT_SCHEDULES (s.f R.HOSTQ_STAT_SCHEDULES - 1)
  s.setF R.HOSTQ_SQ_STAT_OUTSTANDING (s.f R.HOSTQ_SQ_STAT_OUTSTANDING d.sq d.fn - 1) d.sq d.fn

theorem uncount_f (s : State) (d : HDesc) {r : FRef} {i j : Nat} (hall : Apart r R.HOSTQ_STAT_OUTSTANDING i j 0 0) (hheld : Apart r R.HOSTQ_STAT_SCHEDULES i j 0 0)
    (hown : Apart r R.HOSTQ_SQ_STAT_OUTSTANDING i j d.sq d.fn) : (s.uncount d).f r i j = s.f r i j := by
  unfold State.uncount
  dsimp only
  rw [f_setF_apart _ _ _ _ _ _ hown]
  cases d.held with
  | true => rw [State.doIf_true, f_setF_apart _ _ _ _ _ _ hheld, f_setF_apart _ _ _ _ _ _ hall]
  | false => rw [State.doIf_false, f_setF_apart _ _ _ _ _ _ hall]

theorem uncount_hostq (s : State) (d : HDesc) : (s.uncount d).hostq = s.hostq := by
  unfold State.uncount
  dsimp only
  rw [State.setF_hostq]
  cases d.held with
  | true => rw [State.doIf_true, State.setF_hostq, State.setF_hostq]
  | false => rw [State.doIf_false, State.setF_hostq]

theorem dropDesc_of {s : State} {tag : Nat} {d : HDesc} (h : s.desc tag = some d) :
    s.dropDesc tag = if d.parent.isSome then s.forgetDesc tag else (s.forgetDesc tag).uncount d := by
  unfold State.dropDesc State.forgetDesc State.uncount
  rw [h]

theorem dropDesc_none {s : State} {tag : Nat} (h : s.desc tag = none) : s.dropDesc tag = s := by
  unfold State.dropDesc
  rw [h]

theorem forgetDesc_f (s : State) (tag : Nat) (r : FRef) (i j : Nat) : (s.forgetDesc tag).f r i j = s.f r i j := rfl

theorem dropDesc_f (s : State) (tag : Nat) {r : FRef} {i j : Nat} (hall : Apart r R.HOSTQ_STAT_OUTSTANDING i j 0 0)
    (hheld : Apart r R.HOSTQ_STAT_SCHEDULES i j 0 0) (hown : ∀ d, s.desc tag = some d → Apart r R.HOSTQ_SQ_STAT_OUTSTANDING i j d.sq d.fn) :
    (s.dropDesc tag).f r i j = s.f r i j := by
  cases h : s.desc tag with
  | none => rw [dropDesc_none h]
  | some d =>
    rw [dropDesc_of h]
    split
    · exact forgetDesc_f ..
    · rw [uncount_f _ _ hall hheld (hown d h), forgetDesc_f]

theorem dropDesc_hostq {s : State} {tag : Nat} {d : HDesc} (h : s.desc tag = some d) : (s.dropDesc tag).hostq = (s.forgetDesc tag).hostq := by
  rw [dropDesc_of h]
  split
  · rfl
  · exact uncount_hostq ..

theorem forgetDesc_desc (s : State) (tag : Nat) : (s.forgetDesc tag).desc tag = none := by
  show ((kdel s.hostq.descs tag).find? fun x => x.1 == tag).map (·.2) = none
  rw [find_kdel_same]
  rfl

/-! ## Completions and interrupts (R373, R397) -/

/-- What an interrupt keeps: descriptors, the CIDs done, registers, and the outputs so far. -/
def IrqOnly (s s' : State) : Prop :=
  s'.hostq.descs = s.hostq.descs ∧ s'.hostq.done = s.hostq.done ∧ s'.regs = s.regs ∧ ∀ o ∈ s.out, o ∈ s'.out

theorem IrqOnly.refl (s : State) : IrqOnly s s := ⟨rfl, rfl, rfl, fun _ h => h⟩

theorem sendVec_only (s : State) (fn v : Nat) : IrqOnly s (s.sendVec fn v) := by
  unfold State.sendVec
  dsimp only
  split
  · exact ⟨rfl, rfl, rfl, fun _ h => List.mem_append_left _ h⟩
  · split
    · exact .refl s
    · exact ⟨rfl, rfl, rfl, fun _ h => h⟩

/-- All completions of a CQ count as signalled. -/
def State.allSignalled (s : State) (fn q : Nat) : State :=
  { s with hostq := { s.hostq with
      unsig := kset [] s.hostq.unsig (32 * fn + q) [], unsigNow := s.hostq.unsigNow.filter (· != 32 * fn + q) } }

theorem signal_eq (s : State) (fn q : Nat) : s.signal fn q = (s.allSignalled fn q).sendVec fn (s.f R.HOSTQ_CQ_CFG_VEC q fn) := rfl

theorem signalCheck_only (s : State) (fn q : Nat) : IrqOnly s (s.signalCheck fn q) := by
  unfold State.signalCheck State.doIf
  dsimp only
  split
  · rw [signal_eq]
    exact sendVec_only (s.allSignalled fn q) fn _
  · exact .refl s

theorem fillReport_only (s : State) (fn q : Nat) (full : Bool) : (s.fillReport fn q full).hostq.descs = s.hostq.descs
    ∧ (s.fillReport fn q full).hostq.done = s.hostq.done := by
  unfold State.fillReport
  split
  · rw [State.post_hostq]
    exact ⟨rfl, rfl⟩
  · exact ⟨rfl, rfl⟩

theorem fillCheck_only (s : State) (fn q : Nat) : (s.fillCheck fn q).hostq.descs = s.hostq.descs
    ∧ (s.fillCheck fn q).hostq.done = s.hostq.done := by
  obtain ⟨hd, hdone⟩ := fillReport_only (s.setB R.HOSTQ_CQ_STAT_FULL (s.cqFull fn q) q fn) fn q (s.cqFull fn q)
  rw [fillCheck_eq, hd, hdone, State.setB_hostq]
  exact ⟨rfl, rfl⟩

/-- TAIL moves to `next`, and PHASE inverts at the wrap. -/
def State.tailMoved (s : State) (fn q next : Nat) (phase : Bool) : State :=
  (s.setF R.HOSTQ_CQ_STAT_TAIL next q fn).doIf (next == 0) (·.setB R.HOSTQ_CQ_STAT_PHASE (!phase) q fn)

/-- The CID of a completion joins the last of its SQ, and the completion waits for its interrupt. -/
def State.noteDone (s : State) (q : Nat) (d : HDesc) : State :=
  { s with hostq := { s.hostq with
      done := kset [] s.hostq.done (32 * d.fn + d.sq) ((d.cid :: kget [] s.hostq.done (32 * d.fn + d.sq)).take 256)
      unsig := kset [] s.hostq.unsig (32 * d.fn + q) (kget [] s.hostq.unsig (32 * d.fn + q) ++ [s.now])
      unsigNow := if d.flags.testBit 0 then (32 * d.fn + q) :: s.hostq.unsigNow else s.hostq.unsigNow } }

/-- A completion as it is written: its bytes, its TAIL, its record. -/
def State.writeEntry (s : State) (q : Nat) (d : HDesc) : State :=
  ((s.emit (.dmaWrite d.fn (s.cqEntry d.fn q (s.f R.HOSTQ_CQ_STAT_TAIL q d.fn))
      (completionBytes d (s.b R.HOSTQ_CQ_STAT_PHASE q d.fn) (s.f R.HOSTQ_SQ_STAT_HEAD d.sq d.fn)))).tailMoved d.fn q
    ((s.f R.HOSTQ_CQ_STAT_TAIL q d.fn + 1) % 2 ^ s.f R.HOSTQ_CQ_CFG_SIZE q d.fn) (s.b R.HOSTQ_CQ_STAT_PHASE q d.fn)).noteDone q d

theorem complete_eq (s : State) (q tag : Nat) (d : HDesc) :
    s.complete q tag d = (((s.writeEntry q d).dropDesc tag).fillCheck d.fn q).signalCheck d.fn q := rfl

theorem tailMoved_keeps (s : State) (fn q next : Nat) (phase : Bool) : (s.tailMoved fn q next phase).hostq = s.hostq
    ∧ (s.tailMoved fn q next phase).out = s.out := by
  unfold State.tailMoved State.doIf
  split
  · rw [State.setB_hostq, State.setF_hostq, State.setB_out, State.setF_out]
    exact ⟨rfl, rfl⟩
  · rw [State.setF_hostq, State.setF_out]
    exact ⟨rfl, rfl⟩

theorem tailMoved_tail (s : State) (fn q : Nat) {next : Nat} (phase : Bool) (h : next < 2 ^ 12) :
    (s.tailMoved fn q next phase).f R.HOSTQ_CQ_STAT_TAIL q fn = next := by
  have htail : (s.setF R.HOSTQ_CQ_STAT_TAIL next q fn).f R.HOSTQ_CQ_STAT_TAIL q fn = next := f_setF_fits _ _ _ _ (by decide) h
  unfold State.tailMoved
  exact (eq_doIf (fun x => x.f R.HOSTQ_CQ_STAT_TAIL q fn) (f_setB_bits _ _ _ _ _ _ (by decide))).trans htail

theorem tailMoved_phase (s : State) (fn q next : Nat) : (s.tailMoved fn q next (s.b R.HOSTQ_CQ_STAT_PHASE q fn)).b R.HOSTQ_CQ_STAT_PHASE q fn
    = if next = 0 then !s.b R.HOSTQ_CQ_STAT_PHASE q fn else s.b R.HOSTQ_CQ_STAT_PHASE q fn := by
  unfold State.tailMoved
  by_cases h : next = 0
  · rw [h, State.doIf_of (beq_self_eq_true 0), if_pos rfl]
    exact b_setB_same _ _ _ _ _ (by decide)
  · rw [State.doIf_not (beq_eq_false_iff_ne.mpr h), if_neg h]
    exact b_setF_bits _ _ _ _ _ _ (by decide)

theorem noteDone_f (s : State) (q : Nat) (d : HDesc) (r : FRef) (i j : Nat) : (s.noteDone q d).f r i j = s.f r i j := rfl

theorem noteDone_parts (s : State) (q : Nat) (d : HDesc) : (s.noteDone q d).hostq.descs = s.hostq.descs ∧ (s.noteDone q d).out = s.out
    ∧ d.cid ∈ kget [] (s.noteDone q d).hostq.done (32 * d.fn + d.sq) := by
  refine ⟨rfl, rfl, ?_⟩
  rw [show (s.noteDone q d).hostq.done = kset [] s.hostq.done (32 * d.fn + d.sq) ((d.cid :: kget [] s.hostq.done (32 * d.fn + d.sq)).take 256) from rfl,
    kget_kset_same]
  exact List.mem_cons_self

/-- No count of descriptors lies in the STAT word of a CQ. -/
theorem dropDesc_cqStat {s : State} {tag q fn : Nat} {d : HDesc} {r : FRef} (hd : s.desc tag = some d) (hq : q < 32) (hsq : d.sq < 32) (hfn : d.fn = fn)
    (hkey : r.key q fn = R.HOSTQ_CQ_STAT_STATE.key q fn) : (s.dropDesc tag).f r q fn = s.f r q fn := by
  have hne : r.key q fn ≠ 0 := by
    rw [hkey]
    simp only [FRef.key, R.HOSTQ_CQ_STAT_STATE]
    omega
  refine dropDesc_f s tag (.inr (.inl hne)) (.inr (.inl hne)) fun e he => .inr (.inl ?_)
  rw [← Option.some.inj (hd.symm.trans he), hkey, hfn]
  simp only [FRef.key, R.HOSTQ_CQ_STAT_STATE, R.HOSTQ_SQ_STAT_OUTSTANDING]
  omega

/-- What a written completion shows (R373, R377). -/
theorem complete_shows {u : State} {q g : Nat} {d : HDesc} (hd : u.desc g = some d) (hq : q < 32) (hsq : d.sq < 32)
    (hsize : u.f R.HOSTQ_CQ_CFG_SIZE q d.fn ≤ 12) :
    .dmaWrite d.fn (u.cqEntry d.fn q (u.f R.HOSTQ_CQ_STAT_TAIL q d.fn))
        (completionBytes d (u.b R.HOSTQ_CQ_STAT_PHASE q d.fn) (u.f R.HOSTQ_SQ_STAT_HEAD d.sq d.fn)) ∈ (u.complete q g d).out
      ∧ (u.complete q g d).f R.HOSTQ_CQ_STAT_TAIL q d.fn = (u.f R.HOSTQ_CQ_STAT_TAIL q d.fn + 1) % 2 ^ u.f R.HOSTQ_CQ_CFG_SIZE q d.fn
      ∧ (u.complete q g d).b R.HOSTQ_CQ_STAT_PHASE q d.fn
        = (if (u.f R.HOSTQ_CQ_STAT_TAIL q d.fn + 1) % 2 ^ u.f R.HOSTQ_CQ_CFG_SIZE q d.fn = 0 then !u.b R.HOSTQ_CQ_STAT_PHASE q d.fn
          else u.b R.HOSTQ_CQ_STAT_PHASE q d.fn)
      ∧ (u.complete q g d).desc g = none ∧ d.cid ∈ kget [] (u.complete q g d).hostq.done (32 * d.fn + d.sq) := by
  have hnext : (u.f R.HOSTQ_CQ_STAT_TAIL q d.fn + 1) % 2 ^ u.f R.HOSTQ_CQ_CFG_SIZE q d.fn < 2 ^ 12 :=
    Nat.lt_of_lt_of_le (Nat.mod_lt _ (Nat.two_pow_pos _)) (Nat.pow_le_pow_right (by decide) hsize)
  rw [complete_eq]
  unfold State.writeEntry
  generalize (u.f R.HOSTQ_CQ_STAT_TAIL q d.fn + 1) % 2 ^ u.f R.HOSTQ_CQ_CFG_SIZE q d.fn = next at hnext ⊢
  generalize ho : Output.dmaWrite d.fn (u.cqEntry d.fn q (u.f R.HOSTQ_CQ_STAT_TAIL q d.fn))
    (completionBytes d (u.b R.HOSTQ_CQ_STAT_PHASE q d.fn) (u.f R.HOSTQ_SQ_STAT_HEAD d.sq d.fn)) = o
  obtain ⟨hmq, hmo⟩ := tailMoved_keeps (u.emit o) d.fn q next (u.b R.HOSTQ_CQ_STAT_PHASE q d.fn)
  have htail := tailMoved_tail (u.emit o) d.fn q (u.b R.HOSTQ_CQ_STAT_PHASE q d.fn) hnext
  have hphase : ((u.emit o).tailMoved d.fn q next (u.b R.HOSTQ_CQ_STAT_PHASE q d.fn)).b R.HOSTQ_CQ_STAT_PHASE q d.fn = _ :=
    tailMoved_phase (u.emit o) d.fn q next
  rw [b_emit] at hphase
  generalize (u.emit o).tailMoved d.fn q next (u.b R.HOSTQ_CQ_STAT_PHASE q d.fn) = m at hmq hmo htail hphase ⊢
  obtain ⟨hnd, hno, hdone⟩ := noteDone_parts m q d
  have hnf := noteDone_f m q d
  generalize m.noteDone q d = n at hnd hno hdone hnf ⊢
  have hnone : n.desc g = some d := (desc_of_descs (hnd.trans (congrArg HostqSt.descs hmq)) g).trans hd
  have hdq := dropDesc_hostq hnone
  obtain ⟨hfd, hfdone⟩ := fillCheck_only (n.dropDesc g) d.fn q
  obtain ⟨hid, hidone, hiregs, hiout⟩ := signalCheck_only ((n.dropDesc g).fillCheck d.fn q) d.fn q
  have hf {r : FRef} (hkey : r.key q d.fn = R.HOSTQ_CQ_STAT_STATE.key q d.fn) (hb : r.blk ≠ .sys) (hbits : Apart r R.HOSTQ_CQ_STAT_FULL q d.fn q d.fn) :
      (((n.dropDesc g).fillCheck d.fn q).signalCheck d.fn q).f r q d.fn = m.f r q d.fn := by
    rw [f_of_regs hiregs, fillCheck_f _ _ _ hb, f_setB_apart _ _ _ _ _ _ hbits, dropDesc_cqStat hnone hq hsq rfl hkey, hnf]
  refine ⟨hiout o ?_, (hf (r := R.HOSTQ_CQ_STAT_TAIL) rfl (by decide) (.inr (.inr (by decide)))).trans htail,
    (b_of_f (hf (r := R.HOSTQ_CQ_STAT_PHASE) rfl (by decide) (.inr (.inr (by decide))))).trans hphase, ?_, ?_⟩
  · rw [tch_fillCheck.1 .out (by decide), tch_dropDesc.1 .out (by decide)]
    show o ∈ n.out
    rw [hno, hmo]
    exact List.mem_append_right _ (List.mem_singleton_self o)
  · rw [desc_of_descs (hid.trans (hfd.trans (congrArg HostqSt.descs hdq)))]
    exact forgetDesc_desc n g
  · rw [hidone, hfdone, hdq]
    exact hdone

theorem completion_runs {s : State} {t : Instant} {fn q g : Nat} {d : HDesc} (hw : (s.start t).waitingOf fn q = some (g, d))
    (hst : (s.start t).cqState fn q = 1) (hbus : (s.start t).busOpen fn = true) (hfull : (s.start t).b R.HOSTQ_CQ_STAT_FULL q fn = false) :
    exec (.completion t fn q) s = .next ((s.start t).complete q g d) := by
  refine congrArg Host.Outcome.next ?_
  rw [hw]
  dsimp only
  rw [if_pos hst, hbus, hfull]
  rfl

theorem waitingOf_some {u : State} {fn q g : Nat} {d : HDesc} (h : u.waitingOf fn q = some (g, d)) : u.desc g = some d ∧ d.fn = fn := by
  unfold State.waitingOf at h
  obtain ⟨k, _, hk⟩ := List.exists_of_findSome?_eq_some h
  split at hk
  · next e he =>
    split at hk
    · next hc =>
      cases hk
      exact ⟨he, hc.1⟩
    · exact nomatch hk
  · exact nomatch hk

/-! ## The timer and the masks of interrupts (R370, R397) -/

theorem irqTimer_runs {s : State} {t a : Instant} {fn q : Nat} {l : List Instant} (hk : kget [] (s.start t).hostq.unsig (32 * fn + q) = a :: l)
    (hbus : (s.start t).busOpen fn = true) (hage : (s.start t).f R.HOSTQ_CQ_CFG_IRQ_TIME q fn ≠ 0)
    (hdue : a + (s.start t).f R.HOSTQ_CQ_CFG_IRQ_TIME q fn * usQ ≤ (s.start t).now) :
    exec (.irqTimer t fn q) s = .next ((s.start t).signal fn q) := by
  refine congrArg Host.Outcome.next ?_
  rw [hk]
  exact State.doIf_of (by rw [hbus, bne_iff_ne.mpr hage, decide_eq_true hdue]; rfl)

theorem sendVec_unsig (s : State) (fn v : Nat) : (s.sendVec fn v).hostq.unsig = s.hostq.unsig := by
  unfold State.sendVec
  dsimp only
  split
  · rfl
  · split <;> rfl

theorem sendVec_open {s : State} {fn v : Nat} (h : 32 * fn + v ∈ s.hostq.vecOpen) : .msix fn v ∈ (s.sendVec fn v).out := by
  unfold State.sendVec
  rw [if_pos (List.contains_iff_mem.mpr h)]
  exact List.mem_append_right _ (List.mem_singleton_self _)

theorem sendVec_masked {s : State} {fn v : Nat} (h : 32 * fn + v ∉ s.hostq.vecOpen) : 32 * fn + v ∈ (s.sendVec fn v).hostq.vecPend
    ∧ (s.sendVec fn v).out = s.out := by
  unfold State.sendVec
  rw [if_neg (mt List.contains_iff_mem.mp h)]
  split
  · next hpend => exact ⟨List.contains_iff_mem.mp hpend, rfl⟩
  · exact ⟨List.mem_cons_self, rfl⟩

theorem allSignalled_parts (s : State) (fn q : Nat) : kget [] (s.allSignalled fn q).hostq.unsig (32 * fn + q) = []
    ∧ (s.allSignalled fn q).hostq.vecOpen = s.hostq.vecOpen ∧ (s.allSignalled fn q).out = s.out :=
  ⟨kget_kset_same [] s.hostq.unsig (32 * fn + q) [], rfl, rfl⟩

theorem signal_shows {u : State} {fn q : Nat} (hout : u.out = []) : kget [] (u.signal fn q).hostq.unsig (32 * fn + q) = []
    ∧ if 32 * fn + u.f R.HOSTQ_CQ_CFG_VEC q fn ∈ u.hostq.vecOpen then .msix fn (u.f R.HOSTQ_CQ_CFG_VEC q fn) ∈ (u.signal fn q).out
      else 32 * fn + u.f R.HOSTQ_CQ_CFG_VEC q fn ∈ (u.signal fn q).hostq.vecPend ∧ (u.signal fn q).out = [] := by
  obtain ⟨hunsig, hvec, hrest⟩ := allSignalled_parts u fn q
  rw [signal_eq, sendVec_unsig]
  refine ⟨hunsig, ?_⟩
  split
  · next h => exact sendVec_open (hvec.symm ▸ h)
  · next h =>
    obtain ⟨hpend, ho⟩ := sendVec_masked (s := u.allSignalled fn q) (fn := fn) (v := u.f R.HOSTQ_CQ_CFG_VEC q fn) (hvec.symm ▸ h)
    exact ⟨hpend, ho.trans (hrest.trans hout)⟩

/-- A vector is unmasked; it is pending no longer. -/
def State.vecUnmasked (s : State) (k : Nat) : State :=
  { s with hostq := { s.hostq with vecOpen := k :: s.hostq.vecOpen, vecPend := s.hostq.vecPend.filter (· != k) } }

theorem vecUnmasked_parts (s : State) (k : Nat) : k ∈ (s.vecUnmasked k).hostq.vecOpen ∧ k ∉ (s.vecUnmasked k).hostq.vecPend
    ∧ (s.vecUnmasked k).out = s.out := by
  refine ⟨List.mem_cons_self, fun h => ?_, rfl⟩
  have h : k ∈ s.hostq.vecPend.filter (· != k) := h
  simp at h

theorem unmask_runs {s : State} {t : Instant} {fn q : Nat} (hfn : fn < 2) (hq : q < 32) (hup : (s.start t).hostq.linkUp = true)
    (hmask : 32 * fn + q ∉ (s.start t).hostq.vecOpen) : exec (.msixVectorUnmask t fn q) s
      = .next (((s.start t).vecUnmasked (32 * fn + q)).doIf ((s.start t).hostq.vecPend.contains (32 * fn + q)) (·.emit (.msix fn q))) := by
  refine congrArg Host.Outcome.next ((State.doIf_of ?_).trans rfl)
  rw [hup, decide_eq_true hfn, decide_eq_true hq, Bool.eq_false_iff.mpr (mt List.contains_iff_mem.mp hmask)]
  rfl

theorem unmasked_shows {u : State} (k fn q : Nat) (hout : u.out = []) :
    let v := (u.vecUnmasked k).doIf (u.hostq.vecPend.contains k) (·.emit (.msix fn q))
    k ∈ v.hostq.vecOpen ∧ k ∉ v.hostq.vecPend ∧ v.out = if k ∈ u.hostq.vecPend then [.msix fn q] else [] := by
  obtain ⟨hopen, hpend, ho⟩ := vecUnmasked_parts u k
  by_cases h : k ∈ u.hostq.vecPend
  · rw [State.doIf_of (List.contains_iff_mem.mpr h), if_pos h]
    exact ⟨hopen, hpend, by rw [show ((u.vecUnmasked k).emit (.msix fn q)).out = (u.vecUnmasked k).out ++ [.msix fn q] from rfl, ho, hout]; rfl⟩
  · rw [State.doIf_not (Bool.eq_false_iff.mpr (mt List.contains_iff_mem.mp h)), if_neg h]
    exact ⟨hopen, hpend, ho.trans hout⟩

theorem busMaster_runs {s : State} {t : Instant} {fn : Nat} (hfn : fn < 2) (hup : (s.start t).hostq.linkUp = true) : exec (.busMasterEnable t fn) s
    = .next { s.start t with hostq := { (s.start t).hostq with bme := putBit (s.start t).hostq.bme fn true } } :=
  congrArg Host.Outcome.next (State.doIf_of (by rw [hup, decide_eq_true hfn]; rfl))

/-! ## Ring errors (R375) -/

/-- The STAT words of two SQs of a function, and of an SQ and a CQ. -/
theorem sqStat_ne {p r : Nat} (fn : Nat) (h : p ≠ r) : R.HOSTQ_SQ_STAT_STATE.key p fn ≠ R.HOSTQ_SQ_STAT_STATE.key r fn := by
  simp only [FRef.key, R.HOSTQ_SQ_STAT_STATE]
  omega

theorem cqStat_ne_sqStat {p : Nat} (q fn : Nat) (h : p < 32) : R.HOSTQ_CQ_STAT_STATE.key q fn ≠ R.HOSTQ_SQ_STAT_STATE.key p fn := by
  simp only [FRef.key, R.HOSTQ_CQ_STAT_STATE, R.HOSTQ_SQ_STAT_STATE]
  omega

theorem sqError_other (s : State) {fn q err : Nat} {r : FRef} {i : Nat} (hb : r.blk ≠ .sys) (h : r.key i fn ≠ R.HOSTQ_SQ_STAT_STATE.key q fn) :
    (s.sqError fn q err).f r i fn = s.f r i fn := by
  unfold State.sqError
  rw [f_post _ _ _ _ _ _ _ _ hb, f_setF_key _ _ (r := R.HOSTQ_SQ_STAT_ERR) h, f_setF_key _ _ h]

/-- The ring is in ERROR with its code. -/
def State.SqFailed (s : State) (fn q err : Nat) : Prop := s.sqState fn q = 3 ∧ s.f R.HOSTQ_SQ_STAT_ERR q fn = err

theorem sqError_failed (s : State) (fn q : Nat) {err : Nat} (h : err < 8) : (s.sqError fn q err).SqFailed fn q err := by
  unfold State.SqFailed State.sqError State.sqState
  rw [f_post _ _ _ _ _ _ _ _ (by decide), f_post _ _ _ _ _ _ _ _ (by decide)]
  refine ⟨?_, f_setF_fits _ _ _ _ (by decide) h⟩
  rw [f_setF_bits _ _ _ _ _ _ (by decide)]
  exact f_setF_fits _ _ _ _ (by decide) (by decide)

theorem sqError_reports {u : State} (fn q err : Nat) (hroom : u.room) :
    Reports u (u.sqError fn q err) E.RING_ERROR (ringSubject fn q (u.f R.HOSTQ_SQ_STAT_DOMAIN q fn)) (nw err) := by
  have hstate : Touches 8 u (u.setF R.HOSTQ_SQ_STAT_STATE rgError q fn) := (tch_setF (a1 := R.HOSTQ_SQ_STAT_STATE)).mono (by decide)
  have hregs : Touches 8 u ((u.setF R.HOSTQ_SQ_STAT_STATE rgError q fn).setF R.HOSTQ_SQ_STAT_ERR err q fn) :=
    (tch_setF (a1 := R.HOSTQ_SQ_STAT_ERR)).comp (by decide) hstate
  exact hregs.reports (by decide) (by decide) hroom ..

theorem sqErrors_fail {l : List Nat} {p fn err : Nat} (hp : p ∈ l) (herr : err < 8) (s : State) :
    (l.foldl (fun s p => s.sqError fn p err) s).SqFailed fn p err := by
  have hnew (s : State) : (s.sqError fn p err).SqFailed fn p err := sqError_failed s fn p herr
  refine foldl_settles_in (Q := fun s => s.SqFailed fn p err) (g := fun s p => s.sqError fn p err) hp hnew (fun s b _ h => ?_) s
  by_cases hpb : p = b
  · rw [← hpb]
    exact hnew s
  · exact ⟨(sqError_other s (r := R.HOSTQ_SQ_STAT_STATE) (by decide) (sqStat_ne fn hpb)).trans h.1,
      (sqError_other s (r := R.HOSTQ_SQ_STAT_ERR) (by decide) (sqStat_ne fn hpb)).trans h.2⟩

/-- A field that no count of descriptors overlaps keeps its value while descriptors are discarded. -/
theorem discard_f (s : State) (c : HDesc → Bool) {r : FRef} {i j : Nat} (hall : Apart r R.HOSTQ_STAT_OUTSTANDING i j 0 0)
    (hheld : Apart r R.HOSTQ_STAT_SCHEDULES i j 0 0) (hown : ∀ p n, Apart r R.HOSTQ_SQ_STAT_OUTSTANDING i j p n) :
    (s.discard c).f r i j = s.f r i j := by
  unfold State.discard
  refine List.foldlRecOn (motive := fun v : State => v.f r i j = s.f r i j) _ _ rfl fun v hv x _ => ?_
  split
  · rw [dropDesc_f v x.1 hall hheld fun d _ => hown d.sq d.fn, hv]
  · unfold State.modDesc
    split
    · exact hv
    · exact hv

/-- STATE and ERR of a ring lie beside its count, in a word of their own. -/
theorem discard_stat (s : State) (c : HDesc → Bool) {r : FRef} (fn q : Nat) (h0 : r.key q fn ≠ 0)
    (hbits : R.HOSTQ_SQ_STAT_OUTSTANDING.hi < r.lo ∧ r.lo ≤ r.hi ∧ r.hi < 32 ∨ r.hi < R.HOSTQ_SQ_STAT_OUTSTANDING.lo ∧ r.lo ≤ r.hi) :
    (s.discard c).f r q fn = s.f r q fn := by
  refine discard_f s c (.inr (.inl h0)) (.inr (.inl h0)) fun p n => .inr (.inr ?_)
  simp only [R.HOSTQ_SQ_STAT_OUTSTANDING] at hbits ⊢
  omega

theorem sqRingError_runs {s : State} {t : Instant} {fn q err : Nat} (hfn : fn < 2) (hq : q < 32) (hseal : (s.start t).sealed = true) (h0 : 0 < err)
    (h5 : err < 5) (hst : (s.start t).sqState fn q = 1 ∨ (s.start t).sqState fn q = 2) :
    exec (.ringError t fn false q err) s = .next ((s.start t).sqError fn q err) := by
  refine congrArg Host.Outcome.next ((State.doIf_of ?_).trans ?_)
  · rw [hseal, decide_eq_true hfn, decide_eq_true hq, decide_eq_true h0, decide_eq_true h5]
    rfl
  · rw [if_neg Bool.false_ne_true]
    refine State.doIf_of ?_
    rcases hst with h | h <;> rw [h] <;> rfl

/-- A CQ enters ERROR. -/
def State.cqError (s : State) (fn q err : Nat) : State :=
  (s.setF R.HOSTQ_CQ_STAT_STATE rgError q fn).post E.RING_ERROR (ringSubject fn q (s.f R.HOSTQ_CQ_STAT_DOMAIN q fn)) (nw err)

/-- The enabled SQs that name a CQ. -/
def State.boundSqs (s : State) (fn q : Nat) : List Nat :=
  (List.range 32).filter fun p => (s.sqState fn p == rgActive || s.sqState fn p == rgDraining) && s.cqOf fn p == q

/-- The SQs of a CQ fail with it, and what is outstanding on them is discarded. -/
def State.takeSqs (s : State) (fn q : Nat) : State :=
  let v := (s.boundSqs fn q).foldl (fun s p => s.sqError fn p 5) s
  v.discard fun d => d.fn == fn && v.cqOf fn d.sq == q

theorem cqRingError_runs {s : State} {t : Instant} {fn q err : Nat} (hfn : fn < 2) (hq : q < 32) (hseal : (s.start t).sealed = true) (h0 : 0 < err)
    (h5 : err < 5) (hst : (s.start t).cqState fn q = 1) :
    exec (.ringError t fn true q err) s = .next (((s.start t).cqError fn q err).takeSqs fn q) := by
  refine congrArg Host.Outcome.next ((State.doIf_of ?_).trans ?_)
  · rw [hseal, decide_eq_true hfn, decide_eq_true hq, decide_eq_true h0, decide_eq_true h5]
    rfl
  · rw [if_pos rfl]
    exact (State.doIf_of (by rw [hst]; rfl)).trans rfl

theorem cqError_other (s : State) {fn q err : Nat} {r : FRef} {i : Nat} (hb : r.blk ≠ .sys) (h : r.key i fn ≠ R.HOSTQ_CQ_STAT_STATE.key q fn) :
    (s.cqError fn q err).f r i fn = s.f r i fn := by
  unfold State.cqError
  rw [f_post _ _ _ _ _ _ _ _ hb, f_setF_key _ _ h]

theorem takeSqs_cqState (v : State) (fn q : Nat) : (v.takeSqs fn q).cqState fn q = v.cqState fn q := by
  have hne : R.HOSTQ_CQ_STAT_STATE.key q fn ≠ 0 := by
    simp only [FRef.key, R.HOSTQ_CQ_STAT_STATE]
    omega
  have hfold := List.foldlRecOn (motive := fun x => x.cqState fn q = v.cqState fn q) (v.boundSqs fn q) (fun s p => s.sqError fn p 5) rfl
    fun x hx p hp => (sqError_other x (r := R.HOSTQ_CQ_STAT_STATE) (by decide)
      (cqStat_ne_sqStat q fn (List.mem_range.mp (List.mem_filter.mp hp).1))).trans hx
  exact (discard_stat _ _ fn q hne (by decide)).trans hfold

theorem takeSqs_fails {v : State} {fn q p : Nat} (hp : p < 32) (hst : v.sqState fn p = 1 ∨ v.sqState fn p = 2) (hcq : v.cqOf fn p = q) :
    (v.takeSqs fn q).SqFailed fn p 5 := by
  have hne : R.HOSTQ_SQ_STAT_STATE.key p fn ≠ 0 := by
    simp only [FRef.key, R.HOSTQ_SQ_STAT_STATE]
    omega
  have hmem : p ∈ v.boundSqs fn q := by
    refine List.mem_filter.mpr ⟨List.mem_range.mpr hp, ?_⟩
    rw [hcq, beq_self_eq_true, Bool.and_true]
    rcases hst with h | h <;> rw [h] <;> rfl
  obtain ⟨hstate, herr⟩ := sqErrors_fail hmem (fn := fn) (err := 5) (by decide) v
  exact ⟨(discard_stat _ _ (r := R.HOSTQ_SQ_STAT_STATE) fn p hne (by decide)).trans hstate,
    (discard_stat _ _ (r := R.HOSTQ_SQ_STAT_ERR) fn p hne (by decide)).trans herr⟩

theorem takeSqs_qext (v : State) (fn q : Nat) : QExt v (v.takeSqs fn q) := by
  have hfold := List.foldlRecOn (motive := QExt v) (v.boundSqs fn q) (fun s p => s.sqError fn p 5) (QExt.refl v) fun x hx p _ => hx.trans tch_sqError.q
  exact hfold.trans tch_discard.q

theorem cqError_shows {u : State} {fn q err : Nat} (hroom : u.room) : ((u.cqError fn q err).takeSqs fn q).cqState fn q = 3
    ∧ Posts u ((u.cqError fn q err).takeSqs fn q) E.RING_ERROR (ringSubject fn q (u.f R.HOSTQ_CQ_STAT_DOMAIN q fn)) (nw err)
    ∧ ∀ p < 32, u.sqState fn p = 1 ∨ u.sqState fn p = 2 → u.cqOf fn p = q →
      ((u.cqError fn q err).takeSqs fn q).sqState fn p = 3 ∧ ((u.cqError fn q err).takeSqs fn q).f R.HOSTQ_SQ_STAT_ERR p fn = 5 := by
  have hreports : Reports u (u.cqError fn q err) E.RING_ERROR (ringSubject fn q (u.f R.HOSTQ_CQ_STAT_DOMAIN q fn)) (nw err) :=
    tch_setF.reports (by decide) (by decide) hroom ..
  refine ⟨(takeSqs_cqState _ fn q).trans ?_, hreports.posts (takeSqs_qext ..), fun p hp hst hcq => ?_⟩
  · unfold State.cqError State.cqState
    rw [f_post _ _ _ _ _ _ _ _ (by decide)]
    exact f_setF_fits _ _ _ _ (by decide) (by decide)
  · have hstate : (u.cqError fn q err).sqState fn p = u.sqState fn p :=
      cqError_other u (r := R.HOSTQ_SQ_STAT_STATE) (by decide) (cqStat_ne_sqStat q fn hp).symm
    have hname : (u.cqError fn q err).cqOf fn p = u.cqOf fn p := by
      refine cqError_other u (r := R.HOSTQ_SQ_CFG_CQ) (by decide) ?_
      simp only [FRef.key, R.HOSTQ_SQ_CFG_CQ, R.HOSTQ_CQ_STAT_STATE]
      omega
    exact takeSqs_fails hp (hstate ▸ hst) (hname.trans hcq)

/-! ## Loss of the link (R374) -/

theorem sqOff_other (s : State) {fn q : Nat} {r : FRef} {i j : Nat} (hstat : r.key i j ≠ R.HOSTQ_SQ_STAT_STATE.key q fn)
    (hcfg : r.key i j ≠ R.HOSTQ_SQ_CFG_EN.key q fn) : (s.sqOff fn q).f r i j = s.f r i j := by
  unfold State.sqOff
  dsimp only
  rw [f_setF_key _ _ (r := R.HOSTQ_SQ_STAT_ERR) hstat, f_setB_key _ _ hcfg, f_setF_key _ _ (r := R.HOSTQ_SQ_STAT_DOMAIN) hstat, f_setF_key _ _ hstat]

theorem cqOff_other (s : State) {fn q : Nat} {r : FRef} {i j : Nat} (hstat : r.key i j ≠ R.HOSTQ_CQ_STAT_STATE.key q fn)
    (hcfg : r.key i j ≠ R.HOSTQ_CQ_CFG_EN.key q fn) : (s.cqOff fn q).f r i j = s.f r i j := by
  unfold State.cqOff
  dsimp only
  rw [f_setB_key _ _ (r := R.HOSTQ_CQ_STAT_FULL) hstat, f_setB_key _ _ hcfg, f_setF_key _ _ (r := R.HOSTQ_CQ_STAT_DOMAIN) hstat, f_setF_key _ _ hstat]

theorem cqOff_state (s : State) (fn q : Nat) : (s.cqOff fn q).cqState fn q = 0 := by
  unfold State.cqOff State.cqState
  dsimp only
  rw [f_setB_bits _ _ _ _ _ _ (by decide), f_setB_key _ _ (q := R.HOSTQ_CQ_STAT_STATE) (cqCfg_ne_stat fn q).symm, f_setF_bits _ _ _ _ _ _ (by decide)]
  exact f_setF_fits _ _ _ _ (by decide) (by decide)

/-- An SQ and a CQ of one number become DISABLED. -/
def State.ringsOff (s : State) (fn q : Nat) : State := (s.sqOff fn q).cqOff fn q

/-- The STATE fields of the rings `p` of a function. -/
def State.RingClear (s : State) (n p : Nat) : Prop := s.sqState n p = 0 ∧ s.cqState n p = 0

theorem ringsOff_clear (s : State) (fn p : Nat) : (s.ringsOff fn p).RingClear fn p := by
  refine ⟨(cqOff_other (s.sqOff fn p) (r := R.HOSTQ_SQ_STAT_STATE) ?_ ?_).trans (sqOff_shows s fn p).2.1, cqOff_state (s.sqOff fn p) fn p⟩ <;>
  · simp only [FRef.key, R.HOSTQ_SQ_STAT_STATE, R.HOSTQ_CQ_STAT_STATE, R.HOSTQ_CQ_CFG_EN]
    omega

/-- Other rings of a function, and rings of the other function, stay as they are. -/
theorem ringsOff_keeps (s : State) {fn q n p : Nat} (hp : p < 32) (hq : q < 32) (hne : p ≠ q ∨ n ≠ fn) :
    (s.ringsOff fn q).sqState n p = s.sqState n p ∧ (s.ringsOff fn q).cqState n p = s.cqState n p := by
  refine ⟨(cqOff_other (s.sqOff fn q) (r := R.HOSTQ_SQ_STAT_STATE) ?_ ?_).trans (sqOff_other s (r := R.HOSTQ_SQ_STAT_STATE) ?_ ?_),
    (cqOff_other (s.sqOff fn q) (r := R.HOSTQ_CQ_STAT_STATE) ?_ ?_).trans (sqOff_other s (r := R.HOSTQ_CQ_STAT_STATE) ?_ ?_)⟩ <;>
  · simp only [FRef.key, R.HOSTQ_SQ_STAT_STATE, R.HOSTQ_SQ_CFG_EN, R.HOSTQ_CQ_STAT_STATE, R.HOSTQ_CQ_CFG_EN]
    omega

/-- HOSTQ's records of the rings of a function go. -/
def State.ringsForgotten (s : State) (fn : Nat) : State :=
  { s with hostq := { s.hostq with
      unsig := s.hostq.unsig.filter (fun x => !(x.1 / 32 == fn)), unsigNow := s.hostq.unsigNow.filter (fun r => !(r / 32 == fn))
      refusing := s.hostq.refusing.filter (fun r => !(r / 32 == fn)) } }

theorem dropRings_eq (s : State) (fn : Nat) : s.dropRings fn
    = ((List.range 32).foldl (fun s q => s.ringsOff fn q) (s.discard fun d => d.fn == fn)).ringsForgotten fn := rfl

theorem ringsForgotten_f (s : State) (fn : Nat) (r : FRef) (i j : Nat) : (s.ringsForgotten fn).f r i j = s.f r i j := rfl

theorem dropRings_clear (s : State) (fn : Nat) {p : Nat} (hp : p < 32) : (s.dropRings fn).RingClear fn p := by
  have hnew (s : State) : (s.ringsOff fn p).RingClear fn p := ringsOff_clear s fn p
  have hfold := foldl_settles_in (Q := fun s => s.RingClear fn p) (g := fun s q => s.ringsOff fn q) (List.mem_range.mpr hp) hnew
    (fun s b hb h => by
      by_cases hpb : p = b
      · rw [← hpb]
        exact hnew s
      · obtain ⟨hsq, hcq⟩ := ringsOff_keeps s (fn := fn) (n := fn) hp (List.mem_range.mp hb) (.inl hpb)
        exact ⟨hsq.trans h.1, hcq.trans h.2⟩) (s.discard fun d => d.fn == fn)
  rw [dropRings_eq]
  exact ⟨(ringsForgotten_f ..).trans hfold.1, (ringsForgotten_f ..).trans hfold.2⟩

theorem dropRings_keeps (s : State) {fn n p : Nat} (hp : p < 32) (hn : n ≠ fn) :
    (s.dropRings fn).sqState n p = s.sqState n p ∧ (s.dropRings fn).cqState n p = s.cqState n p := by
  have hsq0 : R.HOSTQ_SQ_STAT_STATE.key p n ≠ 0 := by
    simp only [FRef.key, R.HOSTQ_SQ_STAT_STATE]
    omega
  have hcq0 : R.HOSTQ_CQ_STAT_STATE.key p n ≠ 0 := by
    simp only [FRef.key, R.HOSTQ_CQ_STAT_STATE]
    omega
  have hfold (v : State) := List.foldlRecOn (motive := fun x : State => x.sqState n p = v.sqState n p ∧ x.cqState n p = v.cqState n p) (List.range 32)
    (fun s q => s.ringsOff fn q) ⟨rfl, rfl⟩ fun x hx q hq => by
      obtain ⟨hsq, hcq⟩ := ringsOff_keeps x (fn := fn) hp (List.mem_range.mp hq) (.inr hn)
      exact ⟨hsq.trans hx.1, hcq.trans hx.2⟩
  obtain ⟨hsq, hcq⟩ := hfold (s.discard fun d => d.fn == fn)
  rw [dropRings_eq]
  exact ⟨(ringsForgotten_f ..).trans (hsq.trans (discard_stat _ _ (r := R.HOSTQ_SQ_STAT_STATE) n p hsq0 (by decide))),
    (ringsForgotten_f ..).trans (hcq.trans (discard_stat _ _ (r := R.HOSTQ_CQ_STAT_STATE) n p hcq0 (by decide)))⟩

theorem loseFn_f (s : State) (cause fn : Nat) {r : FRef} (hb : r.blk = .hostq) (i j : Nat) : (s.loseFn cause fn).f r i j = (s.dropRings fn).f r i j := by
  unfold State.loseFn
  rw [f_upd_hostq, tch_dropSession.f _ _ _ (by rw [hb]; decide)]

/-- A function is lost: its Bus Master Enable, the cause, its rings. -/
def State.FnLost (s : State) (kind n : Nat) : Prop :=
  s.hostq.bme.testBit n = false ∧ kget 0 s.hostq.lossCause n = kind ∧ ∀ p < 32, s.sqState n p = 0 ∧ s.cqState n p = 0

theorem loseFn_lost (s : State) (cause fn : Nat) : (s.loseFn cause fn).FnLost cause fn := by
  obtain ⟨_, hbme, hcause⟩ := loseFn_hostq s cause fn
  refine ⟨by rw [hbme, testBit_put, if_pos rfl], by rw [hcause, kget_kset_same], fun p hp => ?_⟩
  obtain ⟨hsq, hcq⟩ := dropRings_clear s fn hp
  exact ⟨(loseFn_f s cause fn rfl p fn).trans hsq, (loseFn_f s cause fn rfl p fn).trans hcq⟩

theorem loseFn_lost_other {s : State} {kind n : Nat} (h : s.FnLost kind n) (cause : Nat) {fn : Nat} (hn : n ≠ fn) : (s.loseFn cause fn).FnLost kind n := by
  obtain ⟨_, hbme, hcause⟩ := loseFn_hostq s cause fn
  obtain ⟨h0, h1, hrings⟩ := h
  refine ⟨by rw [hbme, testBit_put, if_neg hn, h0], by rw [hcause, kget_kset_other _ _ _ hn, h1], fun p hp => ?_⟩
  obtain ⟨hsq, hcq⟩ := dropRings_keeps s (fn := fn) hp hn
  exact ⟨((loseFn_f s cause fn rfl p n).trans hsq).trans (hrings p hp).1, ((loseFn_f s cause fn rfl p n).trans hcq).trans (hrings p hp).2⟩

/-- Both functions are lost. -/
theorem loseBoth_lost (s : State) (kind : Nat) : ((s.loseFn kind 0).loseFn kind 1).hostq.linkUp = s.hostq.linkUp
    ∧ ∀ n < 2, ((s.loseFn kind 0).loseFn kind 1).FnLost kind n := by
  refine ⟨(loseFn_hostq _ kind 1).1.trans (loseFn_hostq s kind 0).1, fun n hn => ?_⟩
  interval_cases n
  · exact loseFn_lost_other (loseFn_lost s kind 0) kind (by decide)
  · exact loseFn_lost _ kind 1

/-- The link is down, before the functions lose theirs. -/
def State.linkDown (s : State) : State := { s with hostq := { s.hostq with linkUp := false } }

theorem loseLink_eq {s : State} (h : s.hostq.linkUp = true) : s.loseLink = (s.linkDown.loseFn 2 0).loseFn 2 1 := if_pos h

theorem linkDown_linkUp (s : State) : s.linkDown.hostq.linkUp = false := rfl

theorem linkLoss_runs {s : State} {t : Instant} (kind fn : Nat) (hup : (s.start t).hostq.linkUp = true) (hres : (s.start t).inReset = false) :
    exec (.linkLoss t kind fn) s = .next (if kind = 0 then (s.start t).loseLink else if kind = 1 then ((s.start t).loseFn 3 0).loseFn 3 1
      else (s.start t).doIf (kind == 2 && decide (fn < 2)) (·.loseFn 3 fn)) :=
  congrArg Host.Outcome.next (State.doIf_of (by rw [hup, hres]; rfl))

/-! ## Loss of the host (R394) -/

theorem lossDue_of {u : State} {fn cause : Nat} (h : cause ≠ 0 ∧ cause < 4 ∧ kget 0 u.hostq.lossCause fn = cause
      ∨ cause = 1 ∧ kget 0 u.hostq.lossCause fn = 0 ∧ u.b R.HOSTQ_HL_CFG_HB_EN fn = true
        ∧ kget 0 u.hostq.lastHb fn + u.f R.HOSTQ_HL_CFG_HB_TIMEOUT fn * msQ ≤ u.now) : u.lossDue fn = some cause ∧ cause < 4 := by
  unfold State.lossDue
  dsimp only
  rcases h with ⟨h0, h4, hc⟩ | ⟨h1, hc, hen, hdue⟩
  · rw [hc, if_pos (bne_iff_ne.mpr h0)]
    exact ⟨rfl, h4⟩
  · rw [hc, hen, decide_eq_true hdue, h1]
    exact ⟨rfl, by decide⟩

/-- SEEN and CAUSE of a function. -/
def hlSeen (fn : Nat) : FRef := if fn = 0 then R.HOSTQ_HL_STAT_SEEN0 else R.HOSTQ_HL_STAT_SEEN1

def hlCause (fn : Nat) : FRef := if fn = 0 then R.HOSTQ_HL_STAT_CAUSE0 else R.HOSTQ_HL_STAT_CAUSE1

/-- The registers of a host that is lost. -/
def State.lossShown (s : State) (fn cause : Nat) : State := ((s.setB (lostF fn) true).setB (hlSeen fn) true).setF (hlCause fn) cause

theorem loseHost_eq (s : State) (fn cause : Nat) :
    s.loseHost fn cause = (((s.lossShown fn cause).post E.HOST_LOST (subject fn 0 fn) (nw cause)).settle).fallbackCheck fn := by
  unfold State.loseHost State.lossShown hlSeen hlCause
  split <;> rfl

/-- The three fields of a function in HOSTQ_HL_STAT. -/
theorem hl_apart : ∀ fn < 2, (hlCause fn).lo ≤ (hlCause fn).hi ∧ (hlCause fn).hi < 32 ∧ (lostF fn).lo = (lostF fn).hi ∧ (lostF fn).hi < 32
    ∧ (hlSeen fn).lo = (hlSeen fn).hi ∧ (hlSeen fn).hi < 32 ∧ (hlCause fn).hi + 1 - (hlCause fn).lo = 2
    ∧ (hlCause fn).hi < (hlSeen fn).lo ∧ (hlSeen fn).hi < (lostF fn).lo := by decide

theorem lossShown_shows (s : State) {fn cause : Nat} (hfn : fn < 2) (hc : cause < 4) : (s.lossShown fn cause).b (lostF fn) = true
    ∧ (s.lossShown fn cause).f (hlCause fn) = cause ∧ (s.lossShown fn cause).b (hlSeen fn) = true := by
  obtain ⟨hc1, hc2, hl1, hl2, hs1, hs2, hwidth, hcs, hsl⟩ := hl_apart fn hfn
  unfold State.lossShown
  refine ⟨?_, f_setF_fits _ _ _ _ ⟨hc1, hc2⟩ (by rw [hwidth]; exact hc), ?_⟩
  · rw [b_setF_bits _ _ _ _ _ _ (by omega), b_setB_bits _ _ _ _ _ _ (by omega)]
    exact b_setB_same _ _ _ _ _ ⟨hl1, hl2⟩
  · rw [b_setF_bits _ _ _ _ _ _ (by omega)]
    exact b_setB_same _ _ _ _ _ ⟨hs1, hs2⟩

theorem lossShown_touches (s : State) (fn cause : Nat) : Touches 8 s (s.lossShown fn cause) := by
  have hblk : (lostF fn).blk = .hostq ∧ (hlSeen fn).blk = .hostq ∧ (hlCause fn).blk = .hostq := by
    unfold lostF hlSeen hlCause
    split <;> exact ⟨rfl, rfl, rfl⟩
  obtain ⟨hl, hs, hc⟩ := hblk
  have hlost : Touches 8 s (s.setB (lostF fn) true) := tch_setB.mono (by rw [hl]; decide)
  have hseen : Touches 8 s ((s.setB (lostF fn) true).setB (hlSeen fn) true) := (tch_setB (a1 := hlSeen fn)).comp (by rw [hs]; decide) hlost
  exact (tch_setF (a1 := hlCause fn)).comp (by rw [hc]; decide) hseen

/-- Every enabled context is changed. -/
def State.onContexts (s : State) (g : State → Nat → CtxSt → CtxSt) : State :=
  (List.range 512).foldl (fun s c => s.doIf (s.b R.LOOP_CTX_CFG_EN c) (·.modCtx c (g s c))) s

theorem fallbackCheck_cases (s : State) (fn : Nat) : s.fallbackCheck fn = s
    ∨ ∃ g on e, s.fallbackCheck fn = ((s.onContexts g).setB R.HOSTQ_STAT_FALLBACK on).post e (subject fn 0 fn) := by
  unfold State.fallbackCheck
  dsimp only
  split
  · exact .inl rfl
  · split
    · exact .inr ⟨fun s c x => x.startFallback (getBits (s.word .hostq (W.HOSTQ_FB.key (c / 16) 0)) (2 * (c % 16) + 1) (2 * (c % 16))), true,
        E.FALLBACK_START, rfl⟩
    · exact .inr ⟨fun _ _ x => { x.holdSetpoints with fallback := 0 }, false, E.FALLBACK_END, rfl⟩

theorem onContexts_f (s : State) (g : State → Nat → CtxSt → CtxSt) (r : FRef) (i j : Nat) : (s.onContexts g).f r i j = s.f r i j :=
  List.foldlRecOn (motive := fun x : State => x.f r i j = s.f r i j) _ _ rfl fun _ hx _ _ =>
    (eq_doIf (fun y => y.f r i j) rfl).trans hx

/-- The fallback writes to no word of HOSTQ but HOSTQ_STAT. -/
theorem fallbackCheck_f (s : State) (fn : Nat) {r : FRef} (hb : r.blk = .hostq) {i j : Nat} (h0 : r.key i j ≠ 0) : (s.fallbackCheck fn).f r i j = s.f r i j := by
  rcases fallbackCheck_cases s fn with h | ⟨g, on, e, h⟩
  · rw [h]
  · rw [h, f_post _ _ _ _ _ _ _ _ (by rw [hb]; decide), f_setB_key _ _ h0, onContexts_f]

/-- A lost host as HOST_LOST and the fallback leave it. -/
theorem loseHost_f (s : State) (fn cause : Nat) {r : FRef} (hb : r.blk = .hostq) (h0 : r.key 0 0 ≠ 0) :
    (s.loseHost fn cause).f r = (s.lossShown fn cause).f r := by
  rw [loseHost_eq, fallbackCheck_f _ _ hb h0, tch_settle.f _ _ _ (by rw [hb]; decide), f_post _ _ _ _ _ _ _ _ (by rw [hb]; decide)]

theorem loseHost_shows {u : State} {fn cause : Nat} (hfn : fn < 2) (hc : cause < 4) : (u.loseHost fn cause).hostLost fn = true
    ∧ (u.loseHost fn cause).f (hlCause fn) = cause ∧ (u.loseHost fn cause).b (hlSeen fn) = true := by
  have hblk : (lostF fn).blk = .hostq ∧ (hlSeen fn).blk = .hostq ∧ (hlCause fn).blk = .hostq
      ∧ (lostF fn).key 0 0 ≠ 0 ∧ (hlSeen fn).key 0 0 ≠ 0 ∧ (hlCause fn).key 0 0 ≠ 0 := by
    unfold lostF hlSeen hlCause
    split <;> decide
  obtain ⟨hl, hs, hcb, hlk, hsk, hck⟩ := hblk
  obtain ⟨hlost, hcause, hseen⟩ := lossShown_shows u hfn hc
  exact ⟨(b_of_f (loseHost_f u fn cause hl hlk)).trans hlost, (loseHost_f u fn cause hcb hck).trans hcause, (b_of_f (loseHost_f u fn cause hs hsk)).trans hseen⟩

theorem loseHost_posts {u : State} (fn cause : Nat) (hroom : u.room) : Posts u (u.loseHost fn cause) E.HOST_LOST (subject fn 0 fn) (nw cause) := by
  have hreports := (lossShown_touches u fn cause).reports (by decide) (by decide) hroom E.HOST_LOST (subject fn 0 fn) (nw cause) 0
  rw [loseHost_eq]
  exact hreports.posts (tch_settle.q.trans tch_fallbackCheck.q)

/-- The cause of a loss is used up. -/
def State.causeTaken (s : State) (fn : Nat) : State := { s with hostq := { s.hostq with lossCause := kset 0 s.hostq.lossCause fn 0 } }

theorem causeTaken_parts (s : State) (fn : Nat) : (s.causeTaken fn).hostLost fn = s.hostLost fn ∧ (s.causeTaken fn).sys = s.sys
    ∧ (s.causeTaken fn).shortTs = s.shortTs := ⟨rfl, rfl, rfl⟩

theorem hostLost_runs {s : State} {t : Instant} {fn cause : Nat} (hfn : fn < 2) (hseal : (s.start t).sealed = true) (hno : (s.start t).hostLost fn = false)
    (hdue : (s.start t).lossDue fn = some cause) : exec (.hostLost t fn) s = .next (((s.start t).causeTaken fn).loseHost fn cause) := by
  refine congrArg Host.Outcome.next ?_
  rw [hdue]
  refine (State.doIf_of (by rw [hseal, decide_eq_true hfn]; rfl)).trans (State.doIf_of ?_)
  show (!((s.start t).causeTaken fn).hostLost fn) = true
  rw [(causeTaken_parts _ fn).1, hno]
  rfl

theorem hostLost_shows {u : State} {fn cause : Nat} (hfn : fn < 2) (hc : cause < 4) (hroom : u.room) :
    ((u.causeTaken fn).loseHost fn cause).hostLost fn = true ∧ ((u.causeTaken fn).loseHost fn cause).f (hlCause fn) = cause
      ∧ ((u.causeTaken fn).loseHost fn cause).b (hlSeen fn) = true
      ∧ Posts u ((u.causeTaken fn).loseHost fn cause) E.HOST_LOST (subject fn 0 fn) (nw cause) := by
  obtain ⟨_, hsys, hts⟩ := causeTaken_parts u fn
  generalize u.causeTaken fn = v at hsys hts ⊢
  obtain ⟨hlost, hcause, hseen⟩ := loseHost_shows (u := v) hfn hc
  have hposts := loseHost_posts (u := v) fn cause (by unfold State.room; rw [hsys]; exact hroom)
  unfold Posts at hposts ⊢
  rw [hsys, hts] at hposts
  exact ⟨hlost, hcause, hseen, hposts⟩

/-- Settles O51, clause by clause: enable and disable of rings, doorbells, completions and their interrupts, ring errors, the loss of the link and of
the host. -/
theorem ringsCarryCompletions : Obligations.RingsCarryCompletions := by
  unfold Obligations.RingsCarryCompletions
  rintro s u t fn q rfl hfn hq
  refine ⟨?_, ?_, ?_, ?_, ?_, ?_, ?_, ?_, ?_, ?_, ?_, ?_, ?_, ?_⟩
  · intro data w p hon hw hwas
    refine ⟨fun hoff hsize hcq hdom => ⟨_, sq_enable hfn hq hon hw hwas, ?_⟩, fun hno hroom => ⟨_, sq_enable hfn hq hon hw hwas, ?_⟩⟩
    · rw [if_pos (sqOnOk_of hoff hsize hcq hdom)]
      exact sqOn_shows ..
    · rw [if_neg (by rw [sqOnOk_not hno]; exact Bool.false_ne_true)]
      obtain ⟨hrest, hhq⟩ := cfgWrite_passed (sqCfg_key fn hfn q hq) hw
      exact ⟨ringRefused_words hrest, (ringRefused_hostq ..).trans hhq, ringRefused_reports _ _ _ _ hroom⟩
  · exact fun data w p hon hw hwas hoff hsize => ⟨_, cq_enable hfn hq hon hw hwas (cqOnOk_of hoff hsize), cqOn_shows ..⟩
  · intro data w p hoff
    refine ⟨fun hw hwas => ⟨_, sq_disable hfn hq hoff hw hwas, ?_⟩, fun hw hwas herr hsq hroom => ?_⟩
    · exact sqDisabled_shows (cfgWrite_passed (sqCfg_key fn hfn q hq) hw).1
    · obtain ⟨hrest, _⟩ := cfgWrite_passed (cqCfg_key fn hfn q hq) hw
      exact ⟨_, cq_disable_refused hfn hq hoff hw hwas (cqKept_refused hrest hq herr hsq _), cqDisable_words hrest _ _, cqDisable_reports _ _ _ _ _ hroom⟩
  · intro hen hout hst
    obtain ⟨_, hstate, hdom, herr⟩ := sqOff_shows (s.start t) fn q
    exact ⟨_, ring_drained hfn hq hen hout hst, hstate, hdom, herr⟩
  · intro data hopen hen
    refine ⟨fun hd => ⟨_, sqBell_runs hfn hq hopen hen, if_pos hd⟩, fun hd hbad hroom => ⟨_, sqBell_runs hfn hq hopen hen, ?_⟩⟩
    rw [if_neg (Nat.not_lt.mpr hd), if_neg (by rw [hbad]; exact Bool.false_ne_true)]
    exact ⟨bellBad_b _ (by decide) (by decide) .., bellBad_hostq .., bellBad_reports _ rfl _ _ _ hroom⟩
  · exact fun data hen => ⟨_, sqBell_off hen, rfl⟩
  · intro data hopen hen hsize
    refine ⟨fun hd => ⟨_, cqBell_runs hfn hq hopen hen, ?_⟩, fun hd hbad hroom => ⟨_, cqBell_runs hfn hq hopen hen, ?_⟩⟩
    · rw [if_pos hd]
      exact headMoved_shows hsize hd
    · rw [if_neg (Nat.not_lt.mpr hd), if_neg (by rw [hbad]; exact Bool.false_ne_true)]
      exact ⟨bellBad_head .., bellBad_b _ (by decide) (by decide) .., bellBad_reports _ rfl _ _ _ hroom⟩
  · intro g d hw hst hbus hfull hsize hsq
    obtain ⟨hd, hdfn⟩ := waitingOf_some hw
    subst hdfn
    exact ⟨_, completion_runs hw hst hbus hfull, complete_shows hd hq hsq hsize⟩
  · exact fun a l hk hbus hage hdue => ⟨_, irqTimer_runs hk hbus hage hdue, signal_shows (State.start_out s t)⟩
  · exact fun hup hmask => ⟨_, unmask_runs hfn hq hup hmask, unmasked_shows _ _ _ (State.start_out s t)⟩
  · exact fun hup => ⟨_, busMaster_runs hfn hup, by rw [testBit_put, if_pos rfl], rfl⟩
  · intro err hseal h0 h5 hroom
    refine ⟨fun hst => ⟨_, sqRingError_runs hfn hq hseal h0 h5 hst, ?_⟩, fun hst => ⟨_, cqRingError_runs hfn hq hseal h0 h5 hst, cqError_shows hroom⟩⟩
    obtain ⟨hstate, herr⟩ := sqError_failed (s.start t) fn q (Nat.lt_trans h5 (by decide))
    exact ⟨hstate, herr, sqError_reports fn q err hroom⟩
  · intro hup hres
    refine ⟨⟨_, linkLoss_runs 0 fn hup hres, ?_⟩, ⟨_, linkLoss_runs 1 fn hup hres, ?_⟩, ⟨_, linkLoss_runs 2 fn hup hres, ?_⟩⟩
    · rw [if_pos rfl, loseLink_eq hup]
      obtain ⟨hlink, hlost⟩ := loseBoth_lost (s.start t).linkDown 2
      exact ⟨hlink.trans (linkDown_linkUp _), hlost⟩
    · rw [if_neg (by decide), if_pos rfl]
      obtain ⟨hlink, hlost⟩ := loseBoth_lost (s.start t) 3
      exact ⟨hlink.trans hup, hlost⟩
    · rw [if_neg (by decide), if_neg (by decide), State.doIf_of (by rw [decide_eq_true hfn]; rfl)]
      exact ⟨(loseFn_hostq _ 3 fn).1.trans hup, loseFn_lost _ 3 fn⟩
  · intro cause hseal hno hroom hdue
    obtain ⟨hdue, hc⟩ := lossDue_of hdue
    exact ⟨_, hostLost_runs hfn hseal hno hdue, hostLost_shows hfn hc hroom⟩

end Sys2Proof.Machine
end

section
/-! PROOFS. O56. CAN: reception, queues, arbitration, acknowledgement, error confinement, and the reference slot (R427, R431 to R445). -/
namespace Sys2Proof.Machine

/-! ## Objects and controllers beside their registers -/

theorem canObj_of_can {s s' : State} (h : s'.can = s.can) (o : Nat) : s'.canObj o = s.canObj o := by
  unfold State.canObj
  rw [h]

theorem canCtl_of_ctl {s s' : State} (h : s'.can.ctl = s.can.ctl) (n : Nat) : s'.canCtl n = s.canCtl n := by
  unfold State.canCtl
  rw [h]

/-- An object before its FILL follows. -/
def State.putCanObj (s : State) (o : Nat) (x : CanObj) : State := { s with can := { s.can with obj := kset {} s.can.obj o x } }

theorem putCanObj_parts (s : State) (o : Nat) (x : CanObj) : (s.putCanObj o x).regs = s.regs ∧ (s.putCanObj o x).can.ctl = s.can.ctl
    ∧ (s.putCanObj o x).out = s.out ∧ (s.putCanObj o x).canObj o = x ∧ ∀ r, r ≠ o → (s.putCanObj o x).canObj r = s.canObj r :=
  ⟨rfl, rfl, rfl, kget_kset_same ({} : CanObj) s.can.obj o x, fun _ h => kget_kset_other ({} : CanObj) s.can.obj x h⟩

/-- FILL of an object. -/
def State.fillOf (s : State) (o : Nat) (x : CanObj) : Nat := if s.b R.CAN_OBJ_CFG_DIR o then x.queue.length else b2n x.main.isSome + b2n x.shadow.isSome

theorem setCanObj_eq (s : State) (o : Nat) (x : CanObj) : s.setCanObj o x = (s.putCanObj o x).setF R.CAN_OBJ_STAT_FILL (s.fillOf o x) o := rfl

theorem canObj_setCanObj_same (s : State) (o : Nat) (x : CanObj) : (s.setCanObj o x).canObj o = x := by
  rw [setCanObj_eq, canObj_of_can (State.setF_can ..)]
  exact (putCanObj_parts s o x).2.2.2.1

theorem canObj_setCanObj_other (s : State) {o r : Nat} (x : CanObj) (h : r ≠ o) : (s.setCanObj o x).canObj r = s.canObj r := by
  rw [setCanObj_eq, canObj_of_can (State.setF_can ..)]
  exact (putCanObj_parts s o x).2.2.2.2 r h

theorem setCanObj_ctl (s : State) (o : Nat) (x : CanObj) : (s.setCanObj o x).can.ctl = s.can.ctl := by
  rw [setCanObj_eq, State.setF_can]
  rfl

theorem canCtl_setCanCtl_same (s : State) (n : Nat) (c : CanCtl) : (s.setCanCtl n c).canCtl n = c := kget_kset_same ({} : CanCtl) s.can.ctl n c

theorem setCanCtl_f (s : State) (n : Nat) (c : CanCtl) (r : FRef) (i j : Nat) : (s.setCanCtl n c).f r i j = s.f r i j := rfl

theorem setCanCtl_canObj (s : State) (n : Nat) (c : CanCtl) (o : Nat) : (s.setCanCtl n c).canObj o = s.canObj o := rfl

/-! ## What the end of frames leaves alone -/

/-- Fields of objects that never overlap. -/
def ObjApart (r q : FRef) : Prop := ∀ o o', Apart r q o 0 o' 0

/-- A field of an object that FILL does not overlap. -/
def ObjField (r : FRef) : Prop := r.blk = .can ∧ 0x1000 ≤ r.base ∧ ObjApart r R.CAN_OBJ_STAT_FILL

/-- The configuration of objects lies in other words than their STAT. -/
theorem objApart_cfg {r q : FRef} (h : r.base = 0x1000 ∨ r.base = 0x1004 ∨ r.base = 0x1008) (hs : r.s1 = 16 ∧ r.s2 = 0) (hq : q.base = 0x100C)
    (hqs : q.s1 = 16) : ObjApart r q := by
  refine fun o o' => .inr (.inl ?_)
  unfold FRef.key
  rw [hs.1, hq, hqs]
  omega

/-- STATE of a controller and the bus-off flags may change: the other words of controllers, the fields of objects but for FILL, and the controllers
beside their registers do not. -/
structure StateOnly (n : Nat) (s s' : State) : Prop where
  word : ∀ k < 0x1000, k ≠ R.CAN_STAT_STATE.key n 0 → k ≠ 0 → s'.word .can k = s.word .can k
  field : ∀ r o, ObjField r → s'.f r o = s.f r o
  ctl : s'.can.ctl = s.can.ctl

/-- Queues alone change, and FILL with them. -/
structure QueueOnly (s s' : State) : Prop where
  word : ∀ k < 0x1000, s'.word .can k = s.word .can k
  field : ∀ r o, ObjField r → s'.f r o = s.f r o
  ctl : s'.can.ctl = s.can.ctl

theorem QueueOnly.refl (s : State) : QueueOnly s s := ⟨fun _ _ => rfl, fun _ _ _ => rfl, rfl⟩

theorem QueueOnly.trans {s u v : State} (h : QueueOnly s u) (h' : QueueOnly u v) : QueueOnly s v :=
  ⟨fun k hk => (h'.word k hk).trans (h.word k hk), fun r o hr => (h'.field r o hr).trans (h.field r o hr), h'.ctl.trans h.ctl⟩

theorem StateOnly.trans {n : Nat} {s u v : State} (h : StateOnly n s u) (h' : StateOnly n u v) : StateOnly n s v :=
  ⟨fun k hk hs h0 => (h'.word k hk hs h0).trans (h.word k hk hs h0), fun r o hr => (h'.field r o hr).trans (h.field r o hr), h'.ctl.trans h.ctl⟩

theorem QueueOnly.state {s s' : State} (h : QueueOnly s s') (n : Nat) : StateOnly n s s' := ⟨fun k hk _ _ => h.word k hk, h.field, h.ctl⟩

theorem StateOnly.refl (n : Nat) (s : State) : StateOnly n s s := (QueueOnly.refl s).state n

/-- What touches nothing of CAN. -/
theorem Touches.queueOnly {m : Nat} {s s' : State} (h : Touches m s s') (hm : m.testBit 11 = false ∧ m.testBit 29 = false) : QueueOnly s s' :=
  ⟨fun k _ => h.word .can k hm.1, fun r o hr => h.f r o 0 (by rw [hr.1]; exact hm.1), congrArg CanSt.ctl (h.1 .can hm.2)⟩

theorem setCanObj_queueOnly (s : State) (o : Nat) (x : CanObj) : QueueOnly s (s.setCanObj o x) := by
  refine ⟨fun k hk => ?_, fun r i hr => ?_, setCanObj_ctl s o x⟩
  · rw [setCanObj_eq, word_setF_other _ _ _ _ _ (.inr ?_)]
    · rfl
    · simp only [FRef.key, R.CAN_OBJ_STAT_FILL]
      omega
  · rw [setCanObj_eq, f_setF_apart _ _ _ _ _ _ (hr.2.2 i o)]
    rfl

theorem canOver_queueOnly (s : State) (o : Nat) (f : CanFrame) (d : Nat) (sof : Int) : QueueOnly s (s.canOver o f d sof) := tch_canOver.queueOnly (by decide)

theorem canOver_can (s : State) (o : Nat) (f : CanFrame) (d : Nat) (sof : Int) : (s.canOver o f d sof).can = s.can := tch_canOver.1 .can (by decide)

/-- Frames end one after another; CAN's own records stay. -/
theorem canOvers_keep (o d : Nat) (l : List CanFrame) (s : State) : QueueOnly s (l.foldl (fun s f => s.canOver o f d 0) s)
    ∧ (l.foldl (fun s f => s.canOver o f d 0) s).can = s.can :=
  List.foldlRecOn (motive := fun v => QueueOnly s v ∧ v.can = s.can) l _ ⟨.refl s, rfl⟩ fun _ hv _ _ =>
    ⟨hv.1.trans (canOver_queueOnly ..), (canOver_can ..).trans hv.2⟩

theorem failObj_queueOnly (s : State) (o d keep : Nat) : QueueOnly s (s.failObj o d keep) := by
  unfold State.failObj
  exact (setCanObj_queueOnly ..).trans (canOvers_keep ..).1

theorem failObj_obj (s : State) (o d keep : Nat) : (s.failObj o d keep).canObj o = { s.canObj o with queue := (s.canObj o).queue.take keep }
    ∧ ∀ r, r ≠ o → (s.failObj o d keep).canObj r = s.canObj r := by
  unfold State.failObj
  dsimp only
  refine ⟨?_, fun r hr => ?_⟩
  · rw [canObj_of_can (canOvers_keep ..).2, canObj_setCanObj_same]
  · rw [canObj_of_can (canOvers_keep ..).2, canObj_setCanObj_other _ _ hr]

theorem headOver_queueOnly (s : State) (o d : Nat) (sof : Int) : QueueOnly s (s.headOver o d sof) := by
  unfold State.headOver
  split
  · exact (setCanObj_queueOnly ..).trans (canOver_queueOnly ..)
  · exact .refl s

theorem headOver_obj {s : State} {o : Nat} {f : CanFrame} {fs : List CanFrame} (h : (s.canObj o).queue = f :: fs) (d : Nat) (sof : Int) :
    (s.headOver o d sof).canObj o = { s.canObj o with queue := fs } := by
  unfold State.headOver
  rw [h]
  dsimp only
  rw [canObj_of_can (canOver_can ..), canObj_setCanObj_same]

theorem triedOver_queueOnly (s : State) (o : Nat) (ack : Bool) : QueueOnly s (s.triedOver o ack) := by
  unfold State.triedOver
  split
  · exact headOver_queueOnly ..
  · split
    · exact headOver_queueOnly ..
    · exact .refl s

/-- The fields of a word that keeps its value. -/
theorem f_of_word {s s' : State} {b : Blk} {r : FRef} {i j : Nat} (hb : r.blk = b) (h : s'.word b (r.key i j) = s.word b (r.key i j)) :
    s'.f r i j = s.f r i j := by
  subst hb
  unfold State.f
  rw [h]

/-! ## Error confinement (R438) -/

/-- The error counters show their counts. -/
def State.errCounted (s : State) (n tec rec : Nat) : State := (s.setF R.CAN_ERR_TEC (satN 8 tec) n).setF R.CAN_ERR_REC (satN 8 rec) n

/-- A controller is BUS_OFF, as its registers show it. -/
def State.busOffShown (s : State) (n : Nat) : State :=
  ((s.setF R.CAN_STAT_STATE csBusOff n).setB R.CAN_STAT_BUSOFF_SEEN true n).setBitF R.CAN_CTL_BUSOFF n true

/-- It reports it, and the frames of its objects end. -/
def State.enterBusOff (s : State) (n : Nat) : State :=
  (objsOf n).foldl (fun s o => s.failObj o 3) ((s.busOffShown n).post E.BUS_OFF (subject n))

def State.enterPassive (s : State) (n : Nat) : State :=
  ((s.setF R.CAN_STAT_STATE csPassive n).setB R.CAN_STAT_PASSIVE_SEEN true n).post E.ERROR_PASSIVE (subject n)

def State.enterActive (s : State) (n : Nat) : State := (s.setF R.CAN_STAT_STATE csActive n).post E.ERROR_ACTIVE (subject n)

/-- STATE follows the counters. -/
def State.stateFollows (s : State) (n tec rec : Nat) : State :=
  if 255 < tec then s.enterBusOff n
  else if 127 < tec ∨ 127 < rec then s.doIf (s.canState n == csActive) (·.enterPassive n)
  else s.doIf (s.canState n == csPassive) (·.enterActive n)

theorem canConfine_eq (s : State) (n tec rec : Nat) : s.canConfine n tec rec = (s.errCounted n tec rec).stateFollows n tec rec := by
  unfold State.canConfine State.stateFollows State.errCounted State.enterBusOff State.busOffShown State.enterPassive State.enterActive
  rfl

theorem errCounted_shows (s : State) (n tec rec : Nat) : (s.errCounted n tec rec).f R.CAN_ERR_TEC n = min tec 255
    ∧ (s.errCounted n tec rec).f R.CAN_ERR_REC n = min rec 255 ∧ (s.errCounted n tec rec).f R.CAN_ERR_LEC n = s.f R.CAN_ERR_LEC n := by
  unfold State.errCounted
  refine ⟨?_, ?_, ?_⟩
  · rw [f_setF_bits _ _ _ _ _ _ (by decide)]
    exact f_setF_fits _ _ _ _ (by decide) (Nat.lt_of_le_of_lt (Nat.min_le_right ..) (by decide))
  · exact f_setF_fits _ _ _ _ (by decide) (Nat.lt_of_le_of_lt (Nat.min_le_right ..) (by decide))
  · rw [f_setF_bits _ _ _ _ _ _ (by decide), f_setF_bits _ _ _ _ _ _ (by decide)]

/-- Only the word of the counters changes with them. -/
theorem errCounted_word (s : State) (n tec rec : Nat) {k : Nat} (h : k ≠ R.CAN_ERR_TEC.key n 0) :
    (s.errCounted n tec rec).word .can k = s.word .can k := by
  unfold State.errCounted
  rw [word_setF_other _ R.CAN_ERR_REC _ _ _ (.inr h), word_setF_other _ R.CAN_ERR_TEC _ _ _ (.inr h)]

theorem errCounted_can (s : State) (n tec rec : Nat) : (s.errCounted n tec rec).can = s.can := by
  unfold State.errCounted
  rw [State.setF_can, State.setF_can]

/-- The registers of controllers lie below those of objects. -/
theorem ctlKey_lt {r : FRef} {n : Nat} (hn : n < 4) (hbase : r.base + 64 * 3 < 0x1000) (hs : r.s1 ≤ 64 ∧ r.s2 = 0) : r.key n 0 < 0x1000 := by
  obtain ⟨h1, h2⟩ := hs
  have := Nat.mul_le_mul h1 (Nat.le_of_lt_succ hn)
  unfold FRef.key
  omega

theorem objKey_ge {r : FRef} (h : 0x1000 ≤ r.base) (o : Nat) : 0x1000 ≤ r.key o 0 := by
  unfold FRef.key
  omega

/-- A write to CAN_STAT of the controller, or to CAN_CTL. -/
theorem stateOnly_setF (s : State) {r : FRef} {n i : Nat} (v : Nat) (hn : n < 4)
    (h : r.key i 0 = R.CAN_STAT_STATE.key n 0 ∨ r.key i 0 = 0) : StateOnly n s (s.setF r v i) := by
  have hkey : r.key i 0 < 0x1000 := by
    have := ctlKey_lt (r := R.CAN_STAT_STATE) hn (by decide) (by decide)
    omega
  refine ⟨fun k hk hs h0 => word_setF_other _ _ _ _ _ (.inr ?_), fun q o hq => f_setF_key _ _ ?_, congrArg CanSt.ctl (State.setF_can ..)⟩
  · rcases h with h | h <;> rw [h] <;> assumption
  · have := objKey_ge hq.2.1 o
    omega

theorem stateOnly_flag (s : State) (n : Nat) (v : Bool) : StateOnly n s (s.setBitF R.CAN_CTL_BUSOFF n v) := by
  refine ⟨fun k _ _ h0 => word_setBitF_other _ _ _ _ _ _ (.inr h0), fun q o hq => f_setBitF_apart _ _ _ _ _ _ _ (.inr (.inl ?_)),
    congrArg CanSt.ctl (State.setBitF_can ..)⟩
  have := objKey_ge hq.2.1 o
  show q.key o 0 ≠ 0
  omega

theorem stateOnly_post (n : Nat) (s : State) (e : Ev) (a : Nat) (w0 w1 : Word) : StateOnly n s (s.post e a w0 w1) :=
  (tch_post.queueOnly (by decide)).state n

theorem busOffShown_stateOnly (s : State) {n : Nat} (hn : n < 4) : StateOnly n s (s.busOffShown n) :=
  ((stateOnly_setF s csBusOff hn (.inl rfl)).trans (stateOnly_setF _ (b2n true) hn (r := R.CAN_STAT_BUSOFF_SEEN) (.inl rfl))).trans
    (stateOnly_flag _ n true)

theorem failObjs_queueOnly (l : List Nat) (d : Nat) (s : State) : QueueOnly s (l.foldl (fun s o => s.failObj o d) s) :=
  List.foldlRecOn (motive := QueueOnly s) l _ (.refl s) fun _ hv _ _ => hv.trans (failObj_queueOnly ..)

theorem stateFollows_stateOnly (s : State) {n : Nat} (hn : n < 4) (tec rec : Nat) : StateOnly n s (s.stateFollows n tec rec) := by
  unfold State.stateFollows State.doIf
  split
  · exact ((busOffShown_stateOnly s hn).trans (stateOnly_post ..)).trans ((failObjs_queueOnly ..).state n)
  · split <;> split
    · exact ((stateOnly_setF s csPassive hn (.inl rfl)).trans (stateOnly_setF _ (b2n true) hn (r := R.CAN_STAT_PASSIVE_SEEN) (.inl rfl))).trans
        (stateOnly_post ..)
    · exact .refl n s
    · exact (stateOnly_setF s csActive hn (.inl rfl)).trans (stateOnly_post ..)
    · exact .refl n s

/-- The counters and LEC after error confinement. -/
theorem canConfine_err (s : State) {n : Nat} (hn : n < 4) (tec rec : Nat) : (s.canConfine n tec rec).f R.CAN_ERR_TEC n = min tec 255
    ∧ (s.canConfine n tec rec).f R.CAN_ERR_REC n = min rec 255 ∧ (s.canConfine n tec rec).f R.CAN_ERR_LEC n = s.f R.CAN_ERR_LEC n := by
  obtain ⟨htec, hrec, hlec⟩ := errCounted_shows s n tec rec
  have hne : R.CAN_ERR_TEC.key n 0 ≠ R.CAN_STAT_STATE.key n 0 ∧ R.CAN_ERR_TEC.key n 0 ≠ 0 := by
    simp only [FRef.key, R.CAN_ERR_TEC, R.CAN_STAT_STATE]
    omega
  have hword := (stateFollows_stateOnly (s.errCounted n tec rec) hn tec rec).word _ (ctlKey_lt (r := R.CAN_ERR_TEC) hn (by decide) (by decide)) hne.1 hne.2
  rw [canConfine_eq]
  exact ⟨(f_of_word rfl hword).trans htec, (f_of_word (r := R.CAN_ERR_REC) rfl hword).trans hrec, (f_of_word (r := R.CAN_ERR_LEC) rfl hword).trans hlec⟩

/-- Words of controllers that error confinement does not write. -/
theorem canConfine_word (s : State) {n k : Nat} (hn : n < 4) (tec rec : Nat) (hk : k < 0x1000) (herr : k ≠ R.CAN_ERR_TEC.key n 0)
    (hst : k ≠ R.CAN_STAT_STATE.key n 0) (h0 : k ≠ 0) : (s.canConfine n tec rec).word .can k = s.word .can k := by
  rw [canConfine_eq, (stateFollows_stateOnly _ hn tec rec).word k hk hst h0, errCounted_word _ _ _ _ herr]

theorem canConfine_field (s : State) {n : Nat} (hn : n < 4) (tec rec : Nat) {r : FRef} (o : Nat) (hr : ObjField r) :
    (s.canConfine n tec rec).f r o = s.f r o := by
  have hne : r.key o 0 ≠ R.CAN_ERR_TEC.key n 0 := by
    have h1 := objKey_ge hr.2.1 o
    have h2 := ctlKey_lt (r := R.CAN_ERR_TEC) hn (by decide) (by decide)
    omega
  rw [canConfine_eq, (stateFollows_stateOnly _ hn tec rec).field r o hr, f_of_word hr.1 (errCounted_word _ _ _ _ hne)]

theorem canConfine_ctl (s : State) {n : Nat} (hn : n < 4) (tec rec : Nat) : (s.canConfine n tec rec).can.ctl = s.can.ctl := by
  rw [canConfine_eq, (stateFollows_stateOnly _ hn tec rec).ctl, errCounted_can]

/-- Below bus-off no frame ends. -/
theorem canConfine_can (s : State) (n : Nat) {tec : Nat} (rec : Nat) (h : tec ≤ 255) : (s.canConfine n tec rec).can = s.can := by
  rw [canConfine_eq, ← errCounted_can s n tec rec]
  unfold State.stateFollows
  rw [if_neg (Nat.not_lt.mpr h)]
  split
  · exact eq_doIf State.can ((State.post_can ..).trans ((State.setB_can ..).trans (State.setF_can ..)))
  · exact eq_doIf State.can ((State.post_can ..).trans (State.setF_can ..))

/-- STATE as the counters have it, with the state it had. -/
theorem errCounted_state (s : State) (n tec rec : Nat) : (s.errCounted n tec rec).canState n = s.canState n := by
  refine f_of_word (r := R.CAN_STAT_STATE) rfl (errCounted_word s n tec rec ?_)
  simp only [FRef.key, R.CAN_ERR_TEC, R.CAN_STAT_STATE]
  omega

theorem canConfine_passive (s : State) {n tec : Nat} (rec : Nat) (hst : s.canState n < 2) (h1 : 127 < tec) (h2 : tec ≤ 255) :
    (s.canConfine n tec rec).canState n = 1 := by
  rw [canConfine_eq]
  unfold State.stateFollows
  rw [if_neg (Nat.not_lt.mpr h2), if_pos (.inl h1), errCounted_state]
  by_cases h : s.canState n = 0
  · rw [h, State.doIf_of (show (0 == csActive) = true from rfl)]
    unfold State.enterPassive State.canState
    rw [f_post _ _ _ _ _ _ _ _ (by decide), f_setB_bits _ _ _ _ _ _ (by decide)]
    exact f_setF_fits _ _ _ _ (by decide) (by decide)
  · rw [State.doIf_not (beq_eq_false_iff_ne.mpr h), errCounted_state]
    omega

/-- The flags of bus-off. -/
theorem busOffShown_shows (s : State) {n : Nat} (hn : n < 4) : (s.busOffShown n).canState n = 2 ∧ (s.busOffShown n).b R.CAN_STAT_BUSOFF_SEEN n = true
    ∧ (s.busOffShown n).bitF R.CAN_CTL_BUSOFF n = true := by
  have hne : R.CAN_STAT_STATE.key n 0 ≠ R.CAN_CTL_BUSOFF.key 0 0 := by
    simp only [FRef.key, R.CAN_STAT_STATE, R.CAN_CTL_BUSOFF]
    omega
  unfold State.busOffShown
  refine ⟨?_, ?_, ?_⟩
  · refine (f_setBitF_apart _ _ _ _ _ _ _ (.inr (.inl hne))).trans ?_
    rw [f_setB_bits _ _ _ _ _ _ (by decide)]
    exact f_setF_fits _ _ _ _ (by decide) (by decide)
  · exact (b_of_f (f_setBitF_apart _ (q := R.CAN_STAT_BUSOFF_SEEN) _ _ _ _ _ _ (.inr (.inl hne)))).trans (b_setB_same _ _ _ _ _ (by decide))
  · rw [bitF_setBitF _ _ _ _ _ _ _ (by decide) hn, if_pos rfl]

theorem mem_objsOf {n r : Nat} (h : r / 64 = n) : r ∈ objsOf n := List.mem_map.mpr ⟨r % 64, List.mem_range.mpr (Nat.mod_lt _ (by decide)), by omega⟩

theorem failObj_queue (s : State) (o d : Nat) : ((s.failObj o d).canObj o).queue = [] := by
  rw [(failObj_obj s o d 0).1]
  rfl

/-- Every object of the list is empty afterwards. -/
theorem failObjs_empty {l : List Nat} {r : Nat} (hr : r ∈ l) (d : Nat) (s : State) : ((l.foldl (fun s o => s.failObj o d) s).canObj r).queue = [] := by
  refine foldl_settles_in (Q := fun s => (s.canObj r).queue = []) (g := fun s o => s.failObj o d) hr (fun s => failObj_queue s r d) (fun v b _ h => ?_) s
  by_cases hb : r = b
  · rw [hb]
    exact failObj_queue v b d
  · exact (congrArg CanObj.queue ((failObj_obj v b d 0).2 r hb)).trans h

theorem canConfine_busOff (s : State) {n tec : Nat} (hn : n < 4) (rec : Nat) (h : 255 < tec) : (s.canConfine n tec rec).canState n = 2
    ∧ (s.canConfine n tec rec).b R.CAN_STAT_BUSOFF_SEEN n = true ∧ (s.canConfine n tec rec).bitF R.CAN_CTL_BUSOFF n = true
    ∧ ∀ r, r / 64 = n → ((s.canConfine n tec rec).canObj r).queue = [] := by
  rw [canConfine_eq]
  unfold State.stateFollows
  rw [if_pos h]
  generalize s.errCounted n tec rec = v
  obtain ⟨hstate, hseen, hflag⟩ := busOffShown_shows v hn
  have hq := failObjs_queueOnly (objsOf n) 3 ((v.busOffShown n).post E.BUS_OFF (subject n))
  have hkey := ctlKey_lt (r := R.CAN_STAT_STATE) hn (by decide) (by decide)
  have hf {r : FRef} {i : Nat} (hb : r.blk = .can) (hk : r.key i 0 < 0x1000) : (v.enterBusOff n).f r i = (v.busOffShown n).f r i := by
    refine (f_of_word hb (hq.word _ hk)).trans (f_post _ _ _ _ _ _ _ _ ?_)
    rw [hb]
    decide
  exact ⟨(hf (r := R.CAN_STAT_STATE) rfl hkey).trans hstate, (b_of_f (hf (r := R.CAN_STAT_BUSOFF_SEEN) rfl hkey)).trans hseen,
    (bitF_of_f (hf (r := R.CAN_CTL_BUSOFF) (i := 0) rfl (by decide))).trans hflag, fun r hr => failObjs_empty (mem_objsOf hr) 3 _⟩

/-! ## Reception (R431 to R433) -/

/-- NO_PEER of an object clears. -/
def State.peerCleared (s : State) (o : Nat) : State := s.doIf (s.b R.CAN_OBJ_STAT_NO_PEER o) (·.setB R.CAN_OBJ_STAT_NO_PEER false o)

theorem peerSeen_eq (s : State) (n : Nat) : s.peerSeen n = (objsOf n).foldl (fun s o => s.peerCleared o) s := rfl

/-- What objects whose peer is seen keep. -/
def PeerOnly (s s' : State) : Prop :=
  s'.can = s.can ∧ (∀ k < 0x1000, s'.word .can k = s.word .can k) ∧ ∀ r o, ObjApart r R.CAN_OBJ_STAT_NO_PEER → s'.f r o = s.f r o

theorem peerCleared_only (s : State) (o : Nat) : PeerOnly s (s.peerCleared o) := by
  unfold State.peerCleared State.doIf
  split
  · refine ⟨State.setB_can .., fun k hk => word_setF_other _ _ _ _ _ (.inr ?_), fun r i hr => f_setB_apart _ _ _ _ _ _ (hr i o)⟩
    have := objKey_ge (r := R.CAN_OBJ_STAT_NO_PEER) (by decide) o
    omega
  · exact ⟨rfl, fun _ _ => rfl, fun _ _ _ => rfl⟩

theorem peerSeen_keeps (s : State) (n : Nat) : PeerOnly s (s.peerSeen n) := by
  rw [peerSeen_eq]
  refine List.foldlRecOn (motive := PeerOnly s) (objsOf n) _ ⟨rfl, fun _ _ => rfl, fun _ _ _ => rfl⟩ fun v hv o _ => ?_
  obtain ⟨hcan, hword, hf⟩ := peerCleared_only v o
  exact ⟨hcan.trans hv.1, fun k hk => (hword k hk).trans (hv.2.1 k hk), fun r i hr => (hf r i hr).trans (hv.2.2 r i hr)⟩

/-- The receive count after a frame without error. -/
def recAfter (rec_ recTo : Nat) : Nat := if 127 < rec_ then max 119 (min recTo 127) else rec_ - 1

/-- A controller has received a frame without error, before the frame goes to its object. -/
def State.heard (s : State) (n recTo : Nat) : State :=
  (s.peerSeen n).doIf (!(s.peerSeen n).b R.CAN_CFG_LOM n)
    (·.canConfine n ((s.peerSeen n).f R.CAN_ERR_TEC n) (recAfter ((s.peerSeen n).f R.CAN_ERR_REC n) recTo))

theorem tec_le (s : State) (n : Nat) : s.f R.CAN_ERR_TEC n ≤ 255 := Nat.le_of_lt_succ (f_lt s R.CAN_ERR_TEC n 0)

theorem heard_can (s : State) (n recTo : Nat) : (s.heard n recTo).can = s.can := by
  unfold State.heard
  exact (eq_doIf State.can (canConfine_can _ _ _ (tec_le _ _))).trans (peerSeen_keeps s n).1

theorem heard_field (s : State) {n : Nat} (hn : n < 4) (recTo : Nat) {r : FRef} (o : Nat) (hr : ObjField r) (hp : ObjApart r R.CAN_OBJ_STAT_NO_PEER) :
    (s.heard n recTo).f r o = s.f r o := by
  unfold State.heard State.doIf
  split
  · rw [canConfine_field _ hn _ _ o hr]
    exact (peerSeen_keeps s n).2.2 r o hp
  · exact (peerSeen_keeps s n).2.2 r o hp

theorem heard_word (s : State) {n k : Nat} (hn : n < 4) (recTo : Nat) (hk : k < 0x1000) (herr : k ≠ R.CAN_ERR_TEC.key n 0)
    (hst : k ≠ R.CAN_STAT_STATE.key n 0) (h0 : k ≠ 0) : (s.heard n recTo).word .can k = s.word .can k := by
  unfold State.heard
  exact (eq_doIf (fun x => x.word .can k) (canConfine_word _ hn _ _ hk herr hst h0)).trans ((peerSeen_keeps s n).2.1 k hk)

theorem heard_err (s : State) {n : Nat} (hn : n < 4) (recTo : Nat) (hlom : s.b R.CAN_CFG_LOM n = false) :
    (s.heard n recTo).f R.CAN_ERR_TEC n = s.f R.CAN_ERR_TEC n
      ∧ (s.f R.CAN_ERR_REC n ≤ 127 → (s.heard n recTo).f R.CAN_ERR_REC n = s.f R.CAN_ERR_REC n - 1) := by
  obtain ⟨_, hword, _⟩ := peerSeen_keeps s n
  have hlom' : (s.peerSeen n).b R.CAN_CFG_LOM n = false :=
    (b_of_f (f_of_word (r := R.CAN_CFG_LOM) rfl (hword _ (ctlKey_lt (r := R.CAN_CFG_LOM) hn (by decide) (by decide))))).trans hlom
  have herr := hword _ (ctlKey_lt (r := R.CAN_ERR_TEC) hn (by decide) (by decide))
  have htec : (s.peerSeen n).f R.CAN_ERR_TEC n = s.f R.CAN_ERR_TEC n := f_of_word rfl herr
  have hrec : (s.peerSeen n).f R.CAN_ERR_REC n = s.f R.CAN_ERR_REC n := f_of_word (r := R.CAN_ERR_REC) rfl herr
  unfold State.heard
  rw [hlom', htec, hrec]
  obtain ⟨htec', hrec', _⟩ := canConfine_err (s.peerSeen n) hn (s.f R.CAN_ERR_TEC n) (recAfter (s.f R.CAN_ERR_REC n) recTo)
  refine ⟨htec'.trans (Nat.min_eq_left (tec_le s n)), fun h => hrec'.trans ?_⟩
  unfold recAfter
  rw [if_neg (by omega)]
  omega

/-- What an object matches depends on its configuration, not on NO_PEER. -/
theorem canMatch_of {s s' : State} {o : Nat} (h : ∀ r, ObjField r → ObjApart r R.CAN_OBJ_STAT_NO_PEER → s'.f r o = s.f r o) (f : CanRx) :
    s'.canMatch o f = s.canMatch o f := by
  have hcfg {r : FRef} (hb : r.blk = .can) (hbase : r.base = 0x1000 ∨ r.base = 0x1004 ∨ r.base = 0x1008) (hs : r.s1 = 16 ∧ r.s2 = 0) : s'.f r o = s.f r o :=
    h r ⟨hb, by omega, objApart_cfg hbase hs rfl rfl⟩ (objApart_cfg hbase hs rfl rfl)
  have hcoll : s'.f R.CAN_OBJ_STAT_ID_COLL o = s.f R.CAN_OBJ_STAT_ID_COLL o :=
    h _ ⟨rfl, by decide, fun _ _ => .inr (.inr (by decide))⟩ fun _ _ => .inr (.inr (by decide))
  have hb {r : FRef} (hb : r.blk = .can) (hbase : r.base = 0x1000 ∨ r.base = 0x1004 ∨ r.base = 0x1008) (hs : r.s1 = 16 ∧ r.s2 = 0) : s'.b r o = s.b r o :=
    b_of_f (hcfg hb hbase hs)
  unfold State.canMatch State.objOn
  dsimp only
  rw [hcfg (r := R.CAN_OBJ_MASK_MASK) rfl (by decide) ⟨rfl, rfl⟩, hcfg (r := R.CAN_OBJ_ID_ID) rfl (by decide) ⟨rfl, rfl⟩,
    hb (r := R.CAN_OBJ_CFG_EN) rfl (by decide) ⟨rfl, rfl⟩, hb (r := R.CAN_OBJ_CFG_DIR) rfl (by decide) ⟨rfl, rfl⟩,
    hb (r := R.CAN_OBJ_ID_XTD) rfl (by decide) ⟨rfl, rfl⟩, hb (r := R.CAN_OBJ_CFG_FDF_OK) rfl (by decide) ⟨rfl, rfl⟩,
    hb (r := R.CAN_OBJ_CFG_CLS_OK) rfl (by decide) ⟨rfl, rfl⟩, b_of_f hcoll]

theorem heard_match (s : State) {n : Nat} (hn : n < 4) (recTo o : Nat) (f : CanRx) : (s.heard n recTo).canMatch o f = s.canMatch o f :=
  canMatch_of (fun _ hr hp => heard_field s hn recTo o hr hp) f

/-- The lowest object of a controller that meets a condition. -/
theorem find_objsOf {n o : Nat} {p : Nat → Bool} (ho : o / 64 = n) (hp : p o = true) (hlow : ∀ r, r / 64 = n → r < o → p r = false) :
    (objsOf n).find? p = some o := by
  unfold objsOf
  have hfind : (List.range 64).find? (p ∘ (64 * n + ·)) = some (o % 64) := by
    rw [List.find?_range_eq_some]
    refine ⟨?_, List.mem_range.mpr (Nat.mod_lt _ (by decide)), fun j hj => ?_⟩
    · show p (64 * n + o % 64) = true
      rw [← ho, Nat.div_add_mod, hp]
    · show (!p (64 * n + j)) = true
      rw [hlow _ (by omega) (by omega)]
      rfl
  rw [List.find?_map, hfind, ← ho]
  exact congrArg some (Nat.div_add_mod o 64)

theorem find_objsOf_none {n : Nat} {p : Nat → Bool} (h : ∀ o, o / 64 = n → p o = false) : (objsOf n).find? p = none := by
  refine List.find?_eq_none.mpr fun x hx => ?_
  obtain ⟨i, hi, rfl⟩ := List.mem_map.mp hx
  have := List.mem_range.mp hi
  rw [h _ (by omega)]
  exact Bool.false_ne_true

theorem exec_canFrame {s : State} {t : Instant} {n id recTo : Nat} {xtd fdf brs esi : Bool} {bytes : List Byte} {sof : Int} {f : CanRx}
    (hon : (s.start t).canOn n = true) (hfd : fdf = false ∨ (s.start t).b R.CAN_CFG_FD_EN n = true) (hatt : ((s.start t).canCtl n).att = none)
    (hf : f = { sof := sof, id := id % (if xtd then 2 ^ 29 else 2 ^ 11), xtd := xtd, fdf := fdf, brs := brs && fdf, esi := esi && fdf
                bytes := bytes.take (if fdf then 64 else 8) }) :
    exec (.canFrameReceive t n id xtd fdf brs esi false bytes sof recTo) s = .next (((objsOf n).find? fun o => ((s.start t).heard n recTo).canMatch o f).elim
      (((s.start t).heard n recTo).canUnmatched n) fun o => ((s.start t).heard n recTo).canStore o f) := by
  subst hf
  have hlost : (s.start t).attemptLost n = s.start t := by
    unfold State.attemptLost
    rw [hatt]
  refine congrArg Host.Outcome.next ((State.doIf_of ?_).trans ?_)
  · rw [hon]
    rcases hfd with h | h <;> rw [h]
    · rfl
    · rw [Bool.or_true]
      rfl
  · rw [hlost]
    generalize s.start t = u
    unfold State.heard recAfter
    dsimp only
    rw [Bool.false_and, if_neg Bool.false_ne_true]
    generalize (u.peerSeen n).doIf _ _ = v
    cases (objsOf n).find? _ <;> rfl

/-- The frame of an object whose main buffer is free, or whose shadow buffer is. -/
theorem canStore_main {s : State} {o : Nat} (f : CanRx) (hm : (s.canObj o).main = none) :
    s.canStore o f = s.setCanObj o { s.canObj o with main := some { f with loss := (s.canObj o).loss }, loss := false } := by
  unfold State.canStore
  dsimp only
  rw [hm]

theorem canStore_shadow {s : State} {o : Nat} (f : CanRx) {g : CanRx} (hm : (s.canObj o).main = some g) (hs : (s.canObj o).shadow = none) :
    s.canStore o f = s.setCanObj o { s.canObj o with shadow := some f } := by
  unfold State.canStore
  dsimp only
  rw [hm, hs]

theorem canStore_over {s : State} {o : Nat} (f : CanRx) {g g' : CanRx} (hm : (s.canObj o).main = some g) (hs : (s.canObj o).shadow = some g') :
    s.canStore o f = ((s.setCanObj o { s.canObj o with shadow := some f, loss := true }).incF R.CAN_OBJ_STAT_CNT 1 o).raise R.CAN_OBJ_STAT_LOST_SEEN o E.RX_LOST
      (subject (o / 64) o) := by
  unfold State.canStore
  dsimp only
  rw [hm, hs]

/-- Where a frame goes, by the object as it was (R432). -/
theorem canStore_shows (s : State) (o : Nat) (f : CanRx) :
    ((s.canObj o).main = none → ((s.canStore o f).canObj o).main = some { f with loss := (s.canObj o).loss }
      ∧ ((s.canStore o f).canObj o).shadow = (s.canObj o).shadow)
    ∧ ((s.canObj o).main ≠ none → ((s.canStore o f).canObj o).main = (s.canObj o).main ∧ ((s.canStore o f).canObj o).shadow = some f)
    ∧ ((s.canObj o).main ≠ none → (s.canObj o).shadow ≠ none → ((s.canStore o f).canObj o).loss = true ∧ (s.canStore o f).b R.CAN_OBJ_STAT_LOST_SEEN o = true
      ∧ (s.canStore o f).f R.CAN_OBJ_STAT_CNT o = min (s.f R.CAN_OBJ_STAT_CNT o + 1) (2 ^ 16 - 1))
    ∧ (∀ r, r ≠ o → (s.canStore o f).canObj r = s.canObj r) ∧ ∀ r i, r.blk = .can → r.key i 0 < 0x1000 → (s.canStore o f).f r i = s.f r i := by
  have hword (x : CanObj) (r : FRef) (i : Nat) (hb : r.blk = .can) (hk : r.key i 0 < 0x1000) : (s.setCanObj o x).f r i = s.f r i :=
    f_of_word hb ((setCanObj_queueOnly s o x).word _ hk)
  cases hm : (s.canObj o).main with
  | none =>
    rw [canStore_main f hm, canObj_setCanObj_same]
    exact ⟨fun _ => ⟨rfl, rfl⟩, fun h => absurd rfl h, fun h => absurd rfl h, fun r hr => canObj_setCanObj_other _ _ hr, hword _⟩
  | some g =>
    cases hs : (s.canObj o).shadow with
    | none =>
      rw [canStore_shadow f hm hs, canObj_setCanObj_same]
      exact ⟨fun h => (nomatch h), fun _ => ⟨hm, rfl⟩, fun _ h => absurd rfl h, fun r hr => canObj_setCanObj_other _ _ hr, hword _⟩
    | some g' =>
      have hcan (v : State) : ((v.incF R.CAN_OBJ_STAT_CNT 1 o).raise R.CAN_OBJ_STAT_LOST_SEEN o E.RX_LOST (subject (o / 64) o)).can = v.can := by
        rw [State.raise_can, State.incF_can]
      rw [canStore_over f hm hs, canObj_of_can (hcan _), canObj_setCanObj_same]
      refine ⟨fun h => (nomatch h), fun _ => ⟨hm, rfl⟩, fun _ _ => ⟨rfl, b_raise_same _ _ _ _ _ _ _ (by decide) (by decide), ?_⟩, fun r hr => ?_,
        fun r i hb hk => ?_⟩
      · rw [f_raise _ _ _ _ _ _ _ _ _ _ (by decide) (.inr (.inr (by decide))), f_incF_same _ _ _ _ _ (by decide),
          (setCanObj_queueOnly s o _).field R.CAN_OBJ_STAT_CNT o ⟨rfl, by decide, fun _ _ => .inr (.inr (by decide))⟩]
        rfl
      · rw [canObj_of_can (hcan _), canObj_setCanObj_other _ _ hr]
      · have hne : r.key i 0 ≠ R.CAN_OBJ_STAT_CNT.key o 0 := by
          have := objKey_ge (r := R.CAN_OBJ_STAT_CNT) (by decide) o
          omega
        rw [f_raise _ R.CAN_OBJ_STAT_LOST_SEEN _ _ _ _ _ _ _ _ (by rw [hb]; decide) (.inr (.inl hne))]
        exact (f_setF_key _ _ hne).trans (hword _ r i hb hk)

theorem canUnmatched_shows (s : State) (n : Nat) : (s.canUnmatched n).f R.CAN_CNT_RX_UNMATCHED n = min (s.f R.CAN_CNT_RX_UNMATCHED n + 1) (2 ^ 16 - 1)
    ∧ (s.canUnmatched n).b R.CAN_STAT_UNM_SEEN n = true ∧ (s.canUnmatched n).can = s.can := by
  have hlim (v : State) (r : FRef) (hb : r.blk ≠ .sys) (c : Bool) : (v.doIf c (·.postLimited (0x0C08 * 4 + n) E.RX_UNMATCHED (subject n))).f r n = v.f r n :=
    eq_doIf (fun x => x.f r n) (f_postLimited _ _ _ _ _ _ _ _ _ hb)
  have hne : R.CAN_CNT_RX_UNMATCHED.key n 0 ≠ R.CAN_STAT_UNM_SEEN.key n 0 := by
    simp only [FRef.key, R.CAN_CNT_RX_UNMATCHED, R.CAN_STAT_UNM_SEEN]
    omega
  unfold State.canUnmatched
  refine ⟨?_, ?_, ?_⟩
  · rw [hlim _ _ (by decide), f_setB_key _ _ hne, f_incF_same _ _ _ _ _ (by decide)]
    rfl
  · exact (b_of_f (hlim _ R.CAN_STAT_UNM_SEEN (by decide) _)).trans (b_setB_same _ _ _ _ _ (by decide))
  · exact (eq_doIf State.can (tch_postLimited.1 .can (by decide))).trans ((State.setB_can ..).trans (State.incF_can ..))

/-- What a controller that has heard a frame shows, where an object takes it. -/
theorem received_shows {u : State} {n o : Nat} (hn : n < 4) (recTo : Nat) (f : CanRx) :
    let s' := (u.heard n recTo).canStore o f
    ((u.canObj o).main = none → (s'.canObj o).main = some { f with loss := (u.canObj o).loss } ∧ (s'.canObj o).shadow = (u.canObj o).shadow)
      ∧ ((u.canObj o).main ≠ none → (s'.canObj o).main = (u.canObj o).main ∧ (s'.canObj o).shadow = some f)
      ∧ ((u.canObj o).main ≠ none → (u.canObj o).shadow ≠ none → (s'.canObj o).loss = true ∧ s'.b R.CAN_OBJ_STAT_LOST_SEEN o = true
          ∧ s'.f R.CAN_OBJ_STAT_CNT o = min (u.f R.CAN_OBJ_STAT_CNT o + 1) (2 ^ 16 - 1))
      ∧ (∀ r, r ≠ o → s'.canObj r = u.canObj r)
      ∧ (u.b R.CAN_CFG_LOM n = false → s'.f R.CAN_ERR_TEC n = u.f R.CAN_ERR_TEC n ∧ (u.f R.CAN_ERR_REC n ≤ 127 → s'.f R.CAN_ERR_REC n = u.f R.CAN_ERR_REC n - 1)) := by
  have hobj := canObj_of_can (heard_can u n recTo)
  have hcnt : (u.heard n recTo).f R.CAN_OBJ_STAT_CNT o = u.f R.CAN_OBJ_STAT_CNT o :=
    heard_field u hn recTo o ⟨rfl, by decide, fun _ _ => .inr (.inr (by decide))⟩ fun _ _ => .inr (.inr (by decide))
  have herr := ctlKey_lt (r := R.CAN_ERR_TEC) hn (by decide) (by decide)
  obtain ⟨hmain, hshadow, hover, hother, hctl⟩ := canStore_shows (u.heard n recTo) o f
  rw [hobj o] at hmain hshadow hover
  rw [hcnt] at hover
  refine ⟨hmain, hshadow, hover, fun r hr => (hother r hr).trans (hobj r), fun hlom => ?_⟩
  obtain ⟨htec, hrec⟩ := heard_err u hn recTo hlom
  exact ⟨(hctl R.CAN_ERR_TEC n rfl herr).trans htec, fun h => (hctl R.CAN_ERR_REC n rfl herr).trans (hrec h)⟩

/-- What it shows where no object takes the frame. -/
theorem unmatched_shows {u : State} {n : Nat} (hn : n < 4) (recTo : Nat) :
    let s' := (u.heard n recTo).canUnmatched n
    s'.f R.CAN_CNT_RX_UNMATCHED n = min (u.f R.CAN_CNT_RX_UNMATCHED n + 1) (2 ^ 16 - 1) ∧ s'.b R.CAN_STAT_UNM_SEEN n = true
      ∧ ∀ r, s'.canObj r = u.canObj r := by
  have hkeys : R.CAN_CNT_RX_UNMATCHED.key n 0 ≠ R.CAN_ERR_TEC.key n 0 ∧ R.CAN_CNT_RX_UNMATCHED.key n 0 ≠ R.CAN_STAT_STATE.key n 0
      ∧ R.CAN_CNT_RX_UNMATCHED.key n 0 ≠ 0 := by
    simp only [FRef.key, R.CAN_CNT_RX_UNMATCHED, R.CAN_ERR_TEC, R.CAN_STAT_STATE]
    omega
  have hcnt : (u.heard n recTo).f R.CAN_CNT_RX_UNMATCHED n = u.f R.CAN_CNT_RX_UNMATCHED n :=
    f_of_word rfl (heard_word u hn recTo (ctlKey_lt (r := R.CAN_CNT_RX_UNMATCHED) hn (by decide) (by decide)) hkeys.1 hkeys.2.1 hkeys.2.2)
  obtain ⟨hun, hseen, hcan⟩ := canUnmatched_shows (u.heard n recTo) n
  rw [hcnt] at hun
  exact ⟨hun, hseen, canObj_of_can (hcan.trans (heard_can u n recTo))⟩

/-! ## Items to and from kernels (R432 to R434) -/

/-- The outputs of an item that a port sends. -/
theorem sendItem_out {s v : State} (hout : v.out = s.out) (a b : Nat) {dst : FlitDst} (hdst : v.svcDst dst = s.svcDst dst) (sub tag dom : Nat) (ws : List Word) :
    (v.sendItem (.port a b) dst sub tag dom ws).out = (s.sendItem (.port a b) dst sub tag dom ws).out := by
  have hfold (l : List Nat) (p : Nat → Payload) : ∀ s v : State, v.out = s.out →
      (l.foldl (fun s i => s.transmit { dst := dst, src := .port a b, payload := p i }) v).out
        = (l.foldl (fun s i => s.transmit { dst := dst, src := .port a b, payload := p i }) s).out := by
    induction l with
    | nil => exact fun _ _ h => h
    | cons i l ih => exact fun s v h => ih _ _ (congrArg (· ++ [Output.flit { dst := dst, src := .port a b, payload := p i }]) h)
  unfold State.sendItem
  dsimp only
  rw [hdst]
  cases s.svcDst dst with
  | true => exact hfold _ _ s v hout
  | false => exact hout

/-- CAN's next tag is taken. -/
def State.tagTaken (s : State) : State := { s with can := { s.can with tag := (s.can.tag + 1) % 65536 } }

theorem tagTaken_parts (s : State) : s.tagTaken.out = s.out ∧ (∀ dst, s.tagTaken.svcDst dst = s.svcDst dst) ∧ (∀ o, s.tagTaken.canObj o = s.canObj o)
    ∧ ∀ o, s.tagTaken.canServer o = s.canServer o := ⟨rfl, fun _ => rfl, fun _ => rfl, fun _ => rfl⟩

/-- The buffers of an object whose item has left (R432). -/
def CanObj.itemGone (x : CanObj) : CanObj :=
  match x.shadow with
  | some g => { x with main := some { g with loss := x.loss }, shadow := none, loss := false }
  | none => { x with main := none }

theorem itemGone_shows (x : CanObj) : x.itemGone.shadow = none ∧ x.itemGone.main = x.shadow.map (fun g => { g with loss := x.loss }) := by
  unfold CanObj.itemGone
  cases h : x.shadow with
  | some g => exact ⟨rfl, rfl⟩
  | none => exact ⟨rfl, rfl⟩

/-- The item of a received frame. -/
def State.rxItem (s : State) (tag o : Nat) (f : CanRx) : State := s.canItem (s.canServer o) tag o 0 0 f.loss f.fdf f.brs f.esi f.xtd f.sof f.id f.bytes

theorem exec_itemDelivered {s : State} {t : Instant} {o : Nat} {f : CanRx} (hseal : (s.start t).sealed = true) (ho : o < 256)
    (hm : ((s.start t).canObj o).main = some f) : exec (.canItemDelivered t o) s
      = .next (((s.start t).tagTaken.rxItem (s.start t).can.tag o f).setCanObj o ((s.start t).canObj o).itemGone) := by
  refine congrArg Host.Outcome.next ?_
  dsimp only
  rw [hm]
  refine (State.doIf_of (by rw [hseal, decide_eq_true ho]; rfl)).trans ?_
  unfold CanObj.itemGone
  cases ((s.start t).canObj o).shadow <;> rfl

theorem itemDelivered_shows (u : State) (o : Nat) (f : CanRx) :
    ((u.tagTaken.rxItem u.can.tag o f).setCanObj o (u.canObj o).itemGone).out = (u.rxItem u.can.tag o f).out
    ∧ ((u.tagTaken.rxItem u.can.tag o f).setCanObj o (u.canObj o).itemGone).canObj o = (u.canObj o).itemGone := by
  obtain ⟨hout, hdst, _, _⟩ := tagTaken_parts u
  refine ⟨?_, canObj_setCanObj_same ..⟩
  rw [setCanObj_eq, State.setF_out, (putCanObj_parts ..).2.2.1]
  exact sendItem_out hout 15 1 (hdst _) ..

/-- The frame that a transmit item without a descriptor asks for. -/
def txFrame (u : State) (router k tag : Nat) (ws : List Word) : CanFrame :=
  { apply := ((ws.getD 2 0) ++ (ws.getD 1 0) : BitVec 64).toInt
    late := decide (((ws.getD 2 0) ++ (ws.getD 1 0) : BitVec 64).toInt ≠ 0) && ntLt ((ws.getD 2 0) ++ (ws.getD 1 0) : BitVec 64).toInt u.ntime
    item := tag, src := 16 * router + k, id := getBits (ws.getD 3 0) 28 0, xtd := (ws.getD 0 0).getLsbD 19, fdf := (ws.getD 0 0).getLsbD 16
    brs := (ws.getD 0 0).getLsbD 17, bytes := (wordsBytes (ws.drop 4)).take (getBits (ws.getD 0 0) 6 0) }

theorem exec_canTxItem {s : State} {t : Instant} {router k tag : Nat} {ws : List Word} (hseal : (s.start t).sealed = true) (hr : router < 24) (hk : k < 15)
    (hback : (s.start t).backed (16 * router + k) = true)
    (hmay : (s.start t).mayPass (16 * router + k) { dst := .port 15 1, src := .kernel router k
                                                    payload := .svcx { sub := 4, tag := tag, domain := 0, first := 0, last := true, words := ws.take 5 } } = true) :
    exec (.canTxItem t router k tag none ws) s = .next ((s.start t).takeCanItem (16 * router + k) tag none ws) := by
  refine congrArg Host.Outcome.next ((State.doIf_of (by rw [hseal, decide_eq_true hr, decide_eq_true hk]; rfl)).trans ?_)
  unfold State.route
  rw [if_neg (by rw [hback]; decide), if_pos hmay]

theorem takeCanItem_good {u : State} {router k tag : Nat} {ws : List Word} (hbad : u.canItemBad (16 * router + k) (getBits (ws.getD 0 0) 15 8) ws = false)
    (href : u.canRefusal (getBits (ws.getD 0 0) 15 8) = none) :
    u.takeCanItem (16 * router + k) tag none ws = u.setCanObj (getBits (ws.getD 0 0) 15 8) { u.canObj (getBits (ws.getD 0 0) 15 8) with
      queue := (u.canObj (getBits (ws.getD 0 0) 15 8)).queue ++ [txFrame u router k tag ws] } := by
  unfold State.takeCanItem
  dsimp only
  rw [hbad, if_neg Bool.false_ne_true]
  unfold State.canQueue
  rw [href]
  rfl

theorem takeCanItem_bad {u : State} {router k tag : Nat} {ws : List Word} (hbad : u.canItemBad (16 * router + k) (getBits (ws.getD 0 0) 15 8) ws = true) :
    u.takeCanItem (16 * router + k) tag none ws = u.post E.CAN_ITEM_BAD (subject (getBits (ws.getD 0 0) 15 8 / 64) (getBits (ws.getD 0 0) 15 8)) := by
  unfold State.takeCanItem
  dsimp only
  rw [hbad, if_pos rfl]

/-! ## Arbitration (R435, R436) -/

theorem lowestOffer_lowest {l : List (Nat × Nat)} (h : l ≠ []) : ∃ v o, lowestOffer l = some (v, o) ∧ (v, o) ∈ l ∧ ∀ x ∈ l, v ≤ x.1 := by
  induction l with
  | nil => exact absurd rfl h
  | cons x xs ih =>
    unfold lowestOffer
    cases xs with
    | nil => exact ⟨x.1, x.2, rfl, List.mem_cons_self, fun y hy => by rw [List.mem_singleton.mp hy]⟩
    | cons y ys =>
      obtain ⟨v, o, heq, hmem, hlow⟩ := ih (List.cons_ne_nil y ys)
      rw [heq]
      dsimp only
      split
      · next hlt =>
        exact ⟨v, o, rfl, List.mem_cons_of_mem _ hmem, fun z hz => (List.mem_cons.mp hz).elim (fun hz => by rw [hz]; omega) (hlow z)⟩
      · next hge =>
        refine ⟨x.1, x.2, rfl, List.mem_cons_self, fun z hz => (List.mem_cons.mp hz).elim (fun hz => by rw [hz]) fun hz => ?_⟩
        have := hlow z hz
        omega

/-- The attempt is under way, in its controller. -/
def State.attempting (s : State) (n o : Nat) (sof : Int) : State := s.setCanCtl n { s.canCtl n with att := some o, sof := sof }

theorem attempt_ctl (s : State) (n o : Nat) (sof : Int) : (s.attempt n o sof).canCtl n = { s.canCtl n with att := some o, sof := sof } := by
  have hctl : (s.attempting n o sof).canCtl n = { s.canCtl n with att := some o, sof := sof } := canCtl_setCanCtl_same ..
  have hrest : (s.attempt n o sof).can = (s.attempting n o sof).can := by
    unfold State.attempt State.attempting
    dsimp only
    split
    · rfl
    · split
      · next f _ _ => exact (descSent_touches _ f.desc).1 .can (by decide)
      · rfl
  exact (canCtl_of_ctl (congrArg CanSt.ctl hrest) n).trans hctl

theorem attempting_out (s : State) (n o : Nat) (sof : Int) : (s.attempting n o sof).out = s.out := rfl

/-- A frame goes out, behind what its descriptor hears. -/
def State.frameSent (s : State) (n : Nat) (f : CanFrame) : State :=
  (s.descSent f.desc).emit (.canFrame n f.id f.xtd f.fdf f.brs (f.fdf && (s.descSent f.desc).canEsi n) f.bytes)

theorem attempt_of {s : State} {n o : Nat} {sof : Int} (ho : o ≠ 256) {f : CanFrame} {fs : List CanFrame} (hq : (s.canObj o).queue = f :: fs) :
    s.attempt n o sof = (s.attempting n o sof).frameSent n f := by
  unfold State.attempt
  rw [if_neg ho]
  have hq' : ((s.attempting n o sof).canObj o).queue = f :: fs := hq
  unfold State.attempting at hq' ⊢
  dsimp only
  rw [hq']
  rfl

theorem frameSent_out (s : State) (n : Nat) (f : CanFrame) :
    (s.frameSent n f).out = s.out ++ [Output.canFrame n f.id f.xtd f.fdf f.brs (f.fdf && decide (s.canState n = 1)) f.bytes] := by
  have hsent := descSent_touches s f.desc
  have hout : (s.descSent f.desc).out = s.out := hsent.1 .out (by decide)
  have hesi : (s.descSent f.desc).canEsi n = decide (s.canState n = 1) := by
    unfold State.canEsi State.canState
    rw [hsent.f _ _ _ (by decide)]
    rfl
  unfold State.frameSent
  rw [hesi, ← hout]
  rfl

theorem attempting_state (s : State) (n o : Nat) (sof : Int) : (s.attempting n o sof).canState n = s.canState n := rfl

theorem exec_arbitration {s : State} {t : Instant} {n dly v o : Nat} (hon : (s.start t).canOn n = true) (hlom : (s.start t).b R.CAN_CFG_LOM n = false)
    (hatt : ((s.start t).canCtl n).att = none) (hlow : lowestOffer ((s.start t).offers n) = some (v, o)) :
    exec (.arbitrationStart t n dly) s = .next ((s.start t).attempt n o ((s.start t).ntime + 2 * (min dly 3 : Nat))) := by
  refine congrArg Host.Outcome.next ((State.doIf_of (by rw [hon, hlom, hatt]; rfl)).trans ?_)
  rw [hlow]

theorem attempt_out {u : State} {n o : Nat} {sof : Int} (hout : u.out = []) (ho : o < 256) {f : CanFrame} {fs : List CanFrame}
    (hq : (u.canObj o).queue = f :: fs) :
    (u.attempt n o sof).out = [.canFrame n f.id f.xtd f.fdf f.brs (f.fdf && decide (u.canState n = 1)) f.bytes] := by
  rw [attempt_of (by omega) hq, frameSent_out, attempting_state, attempting_out, hout]
  rfl

/-! ## The end of an attempt -/

theorem word_raise_other (s : State) {r : FRef} (i : Nat) (e : Ev) (a : Nat) (w0 w1 : Word) {b : Blk} {k : Nat} (hb : b ≠ .sys) (h : k ≠ r.key i 0) :
    (s.raise r i e a w0 w1).word b k = s.word b k := by
  unfold State.raise
  split
  · rfl
  · rw [word_post _ _ _ _ _ _ _ hb]
    exact word_setF_other _ r _ _ _ (.inr h)

/-- What the reference slot's end changes beside the slot: two fields of CAN_CNT and CAN_STAT. -/
theorem refMissed_word (s : State) (n : Nat) {k : Nat} (hcnt : k ≠ R.CAN_CNT_REF_MISSED.key n 0) (hst : k ≠ R.CAN_STAT_REF_MISS_SEEN.key n 0) :
    (s.refMissed n).word .can k = s.word .can k := by
  have hinc : (s.incF R.CAN_CNT_REF_MISSED 1 n).word .can k = s.word .can k := word_setF_other _ _ _ _ _ (.inr hcnt)
  exact (word_raise_other _ (r := R.CAN_STAT_REF_MISS_SEEN) _ _ _ _ _ (by decide) hst).trans hinc

theorem refMissed_can (s : State) (n : Nat) : (s.refMissed n).can = s.can := by
  unfold State.refMissed
  rw [State.raise_can, State.incF_can]

theorem refMissed_state (s : State) (n : Nat) : (s.refMissed n).canState n = s.canState n := by
  have hne : R.CAN_STAT_STATE.key n 0 ≠ R.CAN_CNT_REF_MISSED.key n 0 := by
    simp only [FRef.key, R.CAN_CNT_REF_MISSED, R.CAN_STAT_STATE]
    omega
  unfold State.refMissed State.canState
  rw [f_raise _ _ _ _ _ _ _ _ _ _ (by decide) (.inr (.inr (by decide)))]
  exact f_setF_key _ _ (q := R.CAN_STAT_STATE) hne

theorem refMissed_shows (s : State) (n : Nat) : (s.refMissed n).f R.CAN_CNT_REF_MISSED n = min (s.f R.CAN_CNT_REF_MISSED n + 1) (2 ^ 16 - 1)
    ∧ (s.refMissed n).b R.CAN_STAT_REF_MISS_SEEN n = true := by
  have hne : R.CAN_CNT_REF_MISSED.key n 0 ≠ R.CAN_STAT_REF_MISS_SEEN.key n 0 := by
    simp only [FRef.key, R.CAN_CNT_REF_MISSED, R.CAN_STAT_REF_MISS_SEEN]
    omega
  unfold State.refMissed
  refine ⟨?_, b_raise_same _ _ _ _ _ _ _ (by decide) (by decide)⟩
  rw [f_raise _ _ _ _ _ _ _ _ _ _ (by decide) (.inr (.inl hne)), f_incF_same _ _ _ _ _ (by decide)]
  rfl

/-- What the end of an attempt keeps: words but two, objects, and STATE. -/
structure AttemptOver (n : Nat) (s s' : State) : Prop where
  word : ∀ k, k ≠ R.CAN_CNT_REF_MISSED.key n 0 → k ≠ R.CAN_STAT_STATE.key n 0 → s'.word .can k = s.word .can k
  state : s'.canState n = s.canState n
  obj : s'.can.obj = s.can.obj
  idle : (s'.canCtl n).att = none

/-- The attempt leaves its controller, and the slot takes what waited for that. -/
def State.attIdle (s : State) (n : Nat) : State :=
  s.setCanCtl n { s.canCtl n with att := none, ref := (s.canCtl n).refNext.getD (s.canCtl n).ref, refNext := none }

theorem attIdle_over (s : State) (n : Nat) : AttemptOver n s (s.attIdle n) :=
  ⟨fun _ _ _ => rfl, rfl, rfl, congrArg CanCtl.att (canCtl_setCanCtl_same ..)⟩

theorem attemptEnd_eq (s : State) (n : Nat) : s.attemptEnd n
    = (s.attIdle n).doIf ((s.canCtl n).att == some 256 && (s.canCtl n).ref.isSome && (s.canCtl n).refNext.isSome) (·.refMissed n) := rfl

theorem attemptEnd_over (s : State) (n : Nat) : AttemptOver n s (s.attemptEnd n) := by
  obtain ⟨hword, hstate, hobj, hidle⟩ := attIdle_over s n
  rw [attemptEnd_eq]
  cases (s.canCtl n).att == some 256 && (s.canCtl n).ref.isSome && (s.canCtl n).refNext.isSome with
  | false =>
    rw [State.doIf_false]
    exact ⟨hword, hstate, hobj, hidle⟩
  | true =>
    rw [State.doIf_true]
    exact ⟨fun k hc hs => (refMissed_word _ n hc hs).trans (hword k hc hs), (refMissed_state ..).trans hstate,
      (congrArg CanSt.obj (refMissed_can ..)).trans hobj, (congrArg CanCtl.att (canCtl_of_ctl (congrArg CanSt.ctl (refMissed_can ..)) n)).trans hidle⟩

theorem AttemptOver.canObj {n : Nat} {s s' : State} (h : AttemptOver n s s') (o : Nat) : s'.canObj o = s.canObj o := by
  unfold State.canObj
  rw [h.obj]

theorem AttemptOver.field {n : Nat} {s s' : State} (hn : n < 4) (h : AttemptOver n s s') {r : FRef} (hb : r.blk = .can) (hbase : 0x1000 ≤ r.base) (o : Nat) :
    s'.f r o = s.f r o := by
  have hk := objKey_ge hbase o
  have hcnt := ctlKey_lt (r := R.CAN_CNT_REF_MISSED) hn (by decide) (by decide)
  have hst := ctlKey_lt (r := R.CAN_STAT_STATE) hn (by decide) (by decide)
  exact f_of_word hb (h.word _ (by omega) (by omega))

/-- The word of the error counters is no word of the slot. -/
theorem AttemptOver.err {n : Nat} {s s' : State} (h : AttemptOver n s s') : s'.word .can (R.CAN_ERR_TEC.key n 0) = s.word .can (R.CAN_ERR_TEC.key n 0) := by
  refine h.word _ ?_ ?_ <;>
  · simp only [FRef.key, R.CAN_ERR_TEC, R.CAN_CNT_REF_MISSED, R.CAN_STAT_STATE]
    omega

/-! ## Acknowledgement (R436) -/

/-- The delay measured in a frame changes TDCV alone. -/
theorem canTdc_keeps (s : State) (n o tdcv : Nat) : (s.canTdc n o tdcv).can = s.can
    ∧ ∀ k, k ≠ R.CAN_TDC_TDCV.key n 0 → (s.canTdc n o tdcv).word .can k = s.word .can k := by
  unfold State.canTdc
  dsimp only
  exact ⟨eq_doIf State.can (State.setF_can ..), fun k hk => eq_doIf (fun x => x.word .can k) (word_setF_other _ _ _ _ _ (.inr hk))⟩

theorem canTdc_field (s : State) {n : Nat} (hn : n < 4) (o tdcv : Nat) {r : FRef} (hb : r.blk = .can) (hbase : 0x1000 ≤ r.base) (i : Nat) :
    (s.canTdc n o tdcv).f r i = s.f r i := by
  have hk := objKey_ge hbase i
  have htdc := ctlKey_lt (r := R.CAN_TDC_TDCV) hn (by decide) (by decide)
  exact f_of_word hb ((canTdc_keeps s n o tdcv).2 _ (by omega))

/-- The counters of an object whose frame went through. -/
def State.objServed (s : State) (o : Nat) : State :=
  ((s.setF R.CAN_OBJ_STAT_COLL_CNT 0 o).setF R.CAN_OBJ_STAT_NOACK_CNT 0 o).setB R.CAN_OBJ_STAT_NO_PEER false o

theorem objServed_shows (s : State) (o : Nat) : (s.objServed o).f R.CAN_OBJ_STAT_COLL_CNT o = 0 ∧ (s.objServed o).f R.CAN_OBJ_STAT_NOACK_CNT o = 0
    ∧ (s.objServed o).b R.CAN_OBJ_STAT_NO_PEER o = false ∧ (s.objServed o).can = s.can ∧ ∀ k < 0x1000, (s.objServed o).word .can k = s.word .can k := by
  unfold State.objServed
  refine ⟨?_, ?_, b_setB_same _ _ _ _ _ (by decide), ?_, fun k hk => ?_⟩
  · rw [f_setB_bits _ _ _ _ _ _ (by decide), f_setF_bits _ _ _ _ _ _ (by decide)]
    exact f_setF_fits _ _ _ _ (by decide) (by decide)
  · rw [f_setB_bits _ _ _ _ _ _ (by decide)]
    exact f_setF_fits _ _ _ _ (by decide) (by decide)
  · rw [State.setB_can, State.setF_can, State.setF_can]
  · have hne : k ≠ R.CAN_OBJ_STAT_NO_PEER.key o 0 := by
      have := objKey_ge (r := R.CAN_OBJ_STAT_NO_PEER) (by decide) o
      omega
    refine (word_setF_other _ R.CAN_OBJ_STAT_NO_PEER _ _ _ (.inr hne)).trans ?_
    rw [word_setF_other _ R.CAN_OBJ_STAT_NOACK_CNT _ _ _ (.inr hne), word_setF_other _ R.CAN_OBJ_STAT_COLL_CNT _ _ _ (.inr hne)]

/-- STAT fields of an object beside FILL. -/
theorem objField_stat {r : FRef} (hb : r.blk = .can) (hbase : 0x1000 ≤ r.base) (hbits : r.lo ≤ r.hi ∧ r.hi < 32 ∧ (r.hi < 26 ∨ 28 < r.lo)) : ObjField r :=
  ⟨hb, hbase, fun _ _ => .inr (.inr ⟨by decide, hbits⟩)⟩

/-- The counters as an acknowledged attempt leaves them. -/
def State.ackCounted (s : State) (n o tdcv : Nat) : State := (s.canTdc n o tdcv).canConfine n (s.f R.CAN_ERR_TEC n - 1) (s.f R.CAN_ERR_REC n)

/-- An attempt of an object is acknowledged. -/
def State.txDone (s : State) (n o tdcv : Nat) : State :=
  (((s.ackCounted n o tdcv).objServed o).headOver o 0 ((s.ackCounted n o tdcv).canCtl n).sof).attemptEnd n

theorem exec_txDone {s : State} {t : Instant} {n o tdcv : Nat} (hon : (s.start t).canOn n = true) (hatt : ((s.start t).canCtl n).att = some o) (ho : o ≠ 256) :
    exec (.canTxDone t n tdcv) s = .next ((s.start t).txDone n o tdcv) := by
  refine congrArg Host.Outcome.next ?_
  rw [hatt]
  refine (State.doIf_of hon).trans ?_
  rw [if_neg ho]
  rfl

theorem txDone_shows {u : State} {n o : Nat} (hn : n < 4) (tdcv : Nat) {f : CanFrame} {fs : List CanFrame} (hq : (u.canObj o).queue = f :: fs) :
    ((u.txDone n o tdcv).canObj o).queue = fs ∧ ((u.txDone n o tdcv).canCtl n).att = none
    ∧ (u.txDone n o tdcv).f R.CAN_ERR_TEC n = u.f R.CAN_ERR_TEC n - 1 ∧ (u.txDone n o tdcv).f R.CAN_OBJ_STAT_COLL_CNT o = 0
    ∧ (u.txDone n o tdcv).f R.CAN_OBJ_STAT_NOACK_CNT o = 0 ∧ (u.txDone n o tdcv).b R.CAN_OBJ_STAT_NO_PEER o = false := by
  have htec := tec_le u n
  have herr := ctlKey_lt (r := R.CAN_ERR_TEC) hn (by decide) (by decide)
  have hcan : (u.ackCounted n o tdcv).can = u.can := (canConfine_can _ _ _ (by omega)).trans (canTdc_keeps ..).1
  have hcount : (u.ackCounted n o tdcv).f R.CAN_ERR_TEC n = u.f R.CAN_ERR_TEC n - 1 := (canConfine_err _ hn _ _).1.trans (Nat.min_eq_left (by omega))
  unfold State.txDone
  generalize u.ackCounted n o tdcv = v at hcan hcount ⊢
  obtain ⟨hcoll, hnoack, hpeer, hscan, hsword⟩ := objServed_shows v o
  have hserved : ((v.objServed o).canObj o).queue = f :: fs := (congrArg CanObj.queue (canObj_of_can (hscan.trans hcan) o)).trans hq
  generalize v.objServed o = w at hcoll hnoack hpeer hsword hserved ⊢
  have hhead := headOver_queueOnly w o 0 (v.canCtl n).sof
  have hobj := headOver_obj hserved 0 (v.canCtl n).sof
  generalize w.headOver o 0 (v.canCtl n).sof = x at hhead hobj ⊢
  have hover := attemptEnd_over x n
  have hf {r : FRef} (hr : ObjField r) : (x.attemptEnd n).f r o = w.f r o := (hover.field hn hr.1 hr.2.1 o).trans (hhead.field r o hr)
  refine ⟨?_, hover.idle, (f_of_word rfl (hover.err.trans ((hhead.word _ herr).trans (hsword _ herr)))).trans hcount,
    (hf (objField_stat rfl (by decide) (by decide))).trans hcoll, (hf (objField_stat rfl (by decide) (by decide))).trans hnoack,
    (b_of_f (hf (r := R.CAN_OBJ_STAT_NO_PEER) (objField_stat rfl (by decide) (by decide)))).trans hpeer⟩
  rw [hover.canObj o, hobj]

/-! ## Errors of a transmitter (R438, R440, R442) -/

/-- Words of controllers and the controllers beside their registers stay as they are. -/
def CtlKept (s s' : State) : Prop := (∀ k < 0x1000, s'.word .can k = s.word .can k) ∧ s'.can.ctl = s.can.ctl

theorem CtlKept.trans {s u v : State} (h : CtlKept s u) (h' : CtlKept u v) : CtlKept s v :=
  ⟨fun k hk => (h'.1 k hk).trans (h.1 k hk), h'.2.trans h.2⟩

theorem CtlKept.refl (s : State) : CtlKept s s := ⟨fun _ _ => rfl, rfl⟩

theorem QueueOnly.ctlKept {s s' : State} (h : QueueOnly s s') : CtlKept s s' := ⟨h.word, h.ctl⟩

theorem ctlKept_setF (s : State) {r : FRef} (h : 0x1000 ≤ r.base) (v o : Nat) : CtlKept s (s.setF r v o) := by
  refine ⟨fun k hk => word_setF_other _ _ _ _ _ (.inr ?_), congrArg CanSt.ctl (State.setF_can ..)⟩
  have := objKey_ge h o
  omega

theorem ctlKept_post (s : State) (e : Ev) (a : Nat) (w0 w1 : Word) : CtlKept s (s.post e a w0 w1) := (tch_post.queueOnly (by decide)).ctlKept

/-- An object that is out of use for collisions. -/
def State.objDisabled (s : State) (o : Nat) : State := ((s.setB R.CAN_OBJ_STAT_ID_COLL true o).failObj o 5).post E.ID_COLLISION (subject (o / 64) o)

/-- An object whose peer is gone. -/
def State.objAlone (s : State) (o : Nat) : State := ((s.setB R.CAN_OBJ_STAT_NO_PEER true o).failObj o 4).post E.NO_PEER (subject (o / 64) o)

/-- The frames of an object end after a flag is set. -/
theorem flagFail_shows (s : State) {r : FRef} (hr : ObjField r) (hbit : r.lo = r.hi ∧ r.hi < 32) (o d : Nat) (e : Ev) (a : Nat) (w0 w1 : Word) :
    (((s.setB r true o).failObj o d).post e a w0 w1).b r o = true ∧ ((((s.setB r true o).failObj o d).post e a w0 w1).canObj o).queue = []
    ∧ CtlKept s (((s.setB r true o).failObj o d).post e a w0 w1)
    ∧ ∀ q i, ObjField q → Apart q r i 0 o 0 → (((s.setB r true o).failObj o d).post e a w0 w1).f q i = s.f q i := by
  have hfail := failObj_queueOnly (s.setB r true o) o d 0
  have hpost {q : FRef} (hq : ObjField q) (i : Nat) : (((s.setB r true o).failObj o d).post e a w0 w1).f q i = (s.setB r true o).f q i :=
    (f_post _ _ _ _ _ _ _ _ (by rw [hq.1]; decide)).trans (hfail.field q i hq)
  refine ⟨(b_of_f (hpost hr o)).trans (b_setB_same _ _ _ _ _ hbit), ?_, ((ctlKept_setF s hr.2.1 _ o).trans hfail.ctlKept).trans (ctlKept_post ..),
    fun q i hq ha => (hpost hq i).trans (f_setB_apart _ _ _ _ _ _ ha)⟩
  rw [canObj_of_can (State.post_can ..)]
  exact failObj_queue ..

theorem objField_coll : ObjField R.CAN_OBJ_STAT_ID_COLL := objField_stat rfl (by decide) (by decide)

theorem objField_peer : ObjField R.CAN_OBJ_STAT_NO_PEER := objField_stat rfl (by decide) (by decide)

/-- A collision of an object's head (R440). -/
theorem objCollision_shows (s : State) (o : Nat) : CtlKept s (s.objCollision o)
    ∧ (s.objCollision o).f R.CAN_OBJ_STAT_COLL_CNT o = min (s.f R.CAN_OBJ_STAT_COLL_CNT o + 1) 31
    ∧ (s.f R.CAN_OBJ_CFG_ID_COLL_LIMIT o ≠ 0 → s.f R.CAN_OBJ_CFG_ID_COLL_LIMIT o ≤ s.f R.CAN_OBJ_STAT_COLL_CNT o + 1 →
      (s.objCollision o).b R.CAN_OBJ_STAT_ID_COLL o = true ∧ ((s.objCollision o).canObj o).queue = []) := by
  have hcnt : (s.incF R.CAN_OBJ_STAT_COLL_CNT 1 o).f R.CAN_OBJ_STAT_COLL_CNT o = min (s.f R.CAN_OBJ_STAT_COLL_CNT o + 1) 31 :=
    f_incF_same _ _ _ _ _ (by decide)
  have hlim : (s.incF R.CAN_OBJ_STAT_COLL_CNT 1 o).f R.CAN_OBJ_CFG_ID_COLL_LIMIT o = s.f R.CAN_OBJ_CFG_ID_COLL_LIMIT o :=
    f_setF_key _ _ (q := R.CAN_OBJ_CFG_ID_COLL_LIMIT) (by simp only [FRef.key, R.CAN_OBJ_CFG_ID_COLL_LIMIT, R.CAN_OBJ_STAT_COLL_CNT]; omega)
  have hkept : CtlKept s (s.incF R.CAN_OBJ_STAT_COLL_CNT 1 o) := ctlKept_setF s (by decide) _ o
  have hlt : s.f R.CAN_OBJ_CFG_ID_COLL_LIMIT o < 16 := f_lt ..
  unfold State.objCollision
  dsimp only
  rw [hlim, hcnt]
  generalize s.incF R.CAN_OBJ_STAT_COLL_CNT 1 o = v at hcnt hkept ⊢
  by_cases h : s.f R.CAN_OBJ_CFG_ID_COLL_LIMIT o ≠ 0 ∧ s.f R.CAN_OBJ_CFG_ID_COLL_LIMIT o ≤ min (s.f R.CAN_OBJ_STAT_COLL_CNT o + 1) 31
  · obtain ⟨hflag, hempty, hctl, hf⟩ := flagFail_shows v objField_coll (by decide) o 5 E.ID_COLLISION (subject (o / 64) o) 0 0
    rw [State.doIf_of (by rw [bne_iff_ne.mpr h.1, decide_eq_true h.2]; rfl)]
    exact ⟨hkept.trans hctl, (hf _ o (objField_stat rfl (by decide) (by decide)) (.inr (.inr (by decide)))).trans hcnt, fun _ _ => ⟨hflag, hempty⟩⟩
  · rw [State.doIf_not (Bool.eq_false_iff.mpr fun hc => h ?_)]
    · exact ⟨hkept, hcnt, fun h0 h1 => absurd ⟨h0, by omega⟩ h⟩
    · rw [Bool.and_eq_true, bne_iff_ne, decide_eq_true_eq] at hc
      exact hc

/-- A missing acknowledgement of an object's head (R442). -/
theorem objNoAck_shows (s : State) (o : Nat) : CtlKept s (s.objNoAck o)
    ∧ (s.objNoAck o).f R.CAN_OBJ_STAT_NOACK_CNT o = min (s.f R.CAN_OBJ_STAT_NOACK_CNT o + 1) 31
    ∧ (s.f R.CAN_OBJ_CFG_N_NOACK o ≠ 0 → s.f R.CAN_OBJ_CFG_N_NOACK o ≤ s.f R.CAN_OBJ_STAT_NOACK_CNT o + 1 → s.b R.CAN_OBJ_STAT_NO_PEER o = false →
      (s.objNoAck o).b R.CAN_OBJ_STAT_NO_PEER o = true ∧ ((s.objNoAck o).canObj o).queue = []) := by
  have hkept : CtlKept s ((s.incF R.CAN_OBJ_STAT_NOACK_CNT 1 o).incF R.CAN_OBJ_STAT_CNT 1 o) :=
    (ctlKept_setF s (r := R.CAN_OBJ_STAT_NOACK_CNT) (by decide) _ o).trans (ctlKept_setF _ (r := R.CAN_OBJ_STAT_CNT) (by decide) _ o)
  have hcnt : ((s.incF R.CAN_OBJ_STAT_NOACK_CNT 1 o).incF R.CAN_OBJ_STAT_CNT 1 o).f R.CAN_OBJ_STAT_NOACK_CNT o
      = min (s.f R.CAN_OBJ_STAT_NOACK_CNT o + 1) 31 :=
    (f_setF_bits _ _ _ _ _ _ (by decide)).trans (f_incF_same _ _ _ _ _ (by decide))
  have hlim : ((s.incF R.CAN_OBJ_STAT_NOACK_CNT 1 o).incF R.CAN_OBJ_STAT_CNT 1 o).f R.CAN_OBJ_CFG_N_NOACK o = s.f R.CAN_OBJ_CFG_N_NOACK o := by
    have hne : R.CAN_OBJ_CFG_N_NOACK.key o 0 ≠ R.CAN_OBJ_STAT_CNT.key o 0 := by
      simp only [FRef.key, R.CAN_OBJ_CFG_N_NOACK, R.CAN_OBJ_STAT_CNT]
      omega
    exact (f_setF_key _ _ (q := R.CAN_OBJ_CFG_N_NOACK) hne).trans (f_setF_key _ _ (q := R.CAN_OBJ_CFG_N_NOACK) hne)
  have hpeer : ((s.incF R.CAN_OBJ_STAT_NOACK_CNT 1 o).incF R.CAN_OBJ_STAT_CNT 1 o).b R.CAN_OBJ_STAT_NO_PEER o = s.b R.CAN_OBJ_STAT_NO_PEER o :=
    (b_setF_bits _ _ _ _ _ _ (by decide)).trans (b_setF_bits _ _ _ _ _ _ (by decide))
  have hlt : s.f R.CAN_OBJ_CFG_N_NOACK o < 32 := f_lt ..
  unfold State.objNoAck
  dsimp only
  rw [hlim, hcnt, hpeer]
  generalize (s.incF R.CAN_OBJ_STAT_NOACK_CNT 1 o).incF R.CAN_OBJ_STAT_CNT 1 o = v at hcnt hkept ⊢
  by_cases h : (s.f R.CAN_OBJ_CFG_N_NOACK o ≠ 0 ∧ s.f R.CAN_OBJ_CFG_N_NOACK o ≤ min (s.f R.CAN_OBJ_STAT_NOACK_CNT o + 1) 31) ∧ s.b R.CAN_OBJ_STAT_NO_PEER o = false
  · obtain ⟨hflag, hempty, hctl, hf⟩ := flagFail_shows v objField_peer (by decide) o 4 E.NO_PEER (subject (o / 64) o) 0 0
    rw [State.doIf_of (by rw [bne_iff_ne.mpr h.1.1, decide_eq_true h.1.2, h.2]; rfl)]
    exact ⟨hkept.trans hctl, (hf _ o (objField_stat rfl (by decide) (by decide)) (.inr (.inr (by decide)))).trans hcnt, fun _ _ _ => ⟨hflag, hempty⟩⟩
  · rw [State.doIf_not (Bool.eq_false_iff.mpr fun hc => h ?_)]
    · exact ⟨hkept, hcnt, fun h0 h1 hp => absurd ⟨⟨h0, by omega⟩, hp⟩ h⟩
    · rw [Bool.and_eq_true, Bool.and_eq_true, bne_iff_ne, decide_eq_true_eq, Bool.not_eq_true'] at hc
      exact hc

/-- The head of an object's queue ends, if one is there and something ends it. -/
def State.headTried (s : State) (o : Nat) (ack : Bool) : State := s.doIf (!(s.canObj o).queue.isEmpty) (·.triedOver o ack)

/-- The counter of an attempt that has met an error. -/
def State.objCounted (s : State) (o : Nat) (ack coll : Bool) : State := if coll then s.objCollision o else if ack then s.objNoAck o else s

/-- The object of an attempt that has met an error: its counter, and its head's end. -/
def State.objTried (s : State) (o : Nat) (ack coll : Bool) : State := (s.objCounted o ack coll).headTried o ack

theorem attemptError_of (s : State) (n : Nat) {o : Nat} (ho : o ≠ 256) (ack coll : Bool) : s.attemptError n o ack coll = (s.objTried o ack coll).attemptEnd n := by
  unfold State.attemptError State.objTried State.objCounted State.headTried
  rw [if_neg ho]

/-- An object without frames has no head to end. -/
theorem headTried_empty {s : State} {o : Nat} (ack : Bool) (h : (s.canObj o).queue = []) : s.headTried o ack = s :=
  State.doIf_not (by rw [h]; rfl)

theorem headTried_queueOnly (s : State) (o : Nat) (ack : Bool) : QueueOnly s (s.headTried o ack) := by
  unfold State.headTried State.doIf
  split
  · exact triedOver_queueOnly ..
  · exact .refl s

theorem objCounted_coll (s : State) (o : Nat) (ack : Bool) : s.objCounted o ack true = s.objCollision o := if_pos rfl

theorem objCounted_ack (s : State) (o : Nat) : s.objCounted o true false = s.objNoAck o := (if_neg Bool.false_ne_true).trans (if_pos rfl)

theorem objCounted_other (s : State) (o : Nat) : s.objCounted o false false = s := (if_neg Bool.false_ne_true).trans (if_neg Bool.false_ne_true)

theorem objCounted_ctlKept (s : State) (o : Nat) (ack coll : Bool) : CtlKept s (s.objCounted o ack coll) := by
  cases coll with
  | true =>
    rw [objCounted_coll]
    exact (objCollision_shows s o).1
  | false =>
    cases ack with
    | true =>
      rw [objCounted_ack]
      exact (objNoAck_shows s o).1
    | false =>
      rw [objCounted_other]
      exact .refl s

theorem objTried_ctlKept (s : State) (o : Nat) (ack coll : Bool) : CtlKept s (s.objTried o ack coll) :=
  (objCounted_ctlKept s o ack coll).trans (headTried_queueOnly ..).ctlKept

theorem objTried_collision (s : State) (o : Nat) (ack : Bool) : (s.objTried o ack true).f R.CAN_OBJ_STAT_COLL_CNT o = min (s.f R.CAN_OBJ_STAT_COLL_CNT o + 1) 31
    ∧ (s.f R.CAN_OBJ_CFG_ID_COLL_LIMIT o ≠ 0 → s.f R.CAN_OBJ_CFG_ID_COLL_LIMIT o ≤ s.f R.CAN_OBJ_STAT_COLL_CNT o + 1 →
      (s.objTried o ack true).b R.CAN_OBJ_STAT_ID_COLL o = true ∧ ((s.objTried o ack true).canObj o).queue = []) := by
  obtain ⟨_, hcnt, hlim⟩ := objCollision_shows s o
  unfold State.objTried
  rw [objCounted_coll]
  refine ⟨((headTried_queueOnly _ o ack).field _ o (objField_stat rfl (by decide) (by decide))).trans hcnt, fun h0 h1 => ?_⟩
  obtain ⟨hflag, hempty⟩ := hlim h0 h1
  rw [headTried_empty ack hempty]
  exact ⟨hflag, hempty⟩

theorem objTried_noAck (s : State) (o : Nat) : (s.objTried o true false).f R.CAN_OBJ_STAT_NOACK_CNT o = min (s.f R.CAN_OBJ_STAT_NOACK_CNT o + 1) 31
    ∧ (s.f R.CAN_OBJ_CFG_N_NOACK o ≠ 0 → s.f R.CAN_OBJ_CFG_N_NOACK o ≤ s.f R.CAN_OBJ_STAT_NOACK_CNT o + 1 → s.b R.CAN_OBJ_STAT_NO_PEER o = false →
      (s.objTried o true false).b R.CAN_OBJ_STAT_NO_PEER o = true ∧ ((s.objTried o true false).canObj o).queue = []) := by
  obtain ⟨_, hcnt, hlim⟩ := objNoAck_shows s o
  unfold State.objTried
  rw [objCounted_ack]
  refine ⟨((headTried_queueOnly _ o true).field _ o (objField_stat rfl (by decide) (by decide))).trans hcnt, fun h0 h1 hp => ?_⟩
  obtain ⟨hflag, hempty⟩ := hlim h0 h1 hp
  rw [headTried_empty true hempty]
  exact ⟨hflag, hempty⟩

/-! ## Errors on the bus (R438) -/

/-- An error is noted before it is counted: LEC, and the delay of the attempt's frame. -/
def State.errNoted (s : State) (n o kind tdcv : Nat) : State := (s.setF R.CAN_ERR_LEC kind n).canTdc n o tdcv

theorem errNoted_keeps (s : State) {n : Nat} (hn : n < 4) (o tdcv : Nat) {kind : Nat} (hk : kind < 8) : (s.errNoted n o kind tdcv).can = s.can
    ∧ (s.errNoted n o kind tdcv).f R.CAN_ERR_LEC n = kind ∧ (s.errNoted n o kind tdcv).canState n = s.canState n
    ∧ ∀ r i, r.blk = .can → 0x1000 ≤ r.base → (s.errNoted n o kind tdcv).f r i = s.f r i := by
  have hkeys : R.CAN_ERR_LEC.key n 0 ≠ R.CAN_TDC_TDCV.key n 0 ∧ R.CAN_STAT_STATE.key n 0 ≠ R.CAN_TDC_TDCV.key n 0
      ∧ R.CAN_STAT_STATE.key n 0 ≠ R.CAN_ERR_LEC.key n 0 := by
    simp only [FRef.key, R.CAN_ERR_LEC, R.CAN_TDC_TDCV, R.CAN_STAT_STATE]
    omega
  obtain ⟨hlec, hst, hse⟩ := hkeys
  obtain ⟨hcan, hword⟩ := canTdc_keeps (s.setF R.CAN_ERR_LEC kind n) n o tdcv
  unfold State.errNoted
  refine ⟨hcan.trans (State.setF_can ..), (f_of_word rfl (hword _ hlec)).trans (f_setF_fits _ _ _ _ (by decide) hk),
    (f_of_word (r := R.CAN_STAT_STATE) rfl (hword _ hst)).trans (f_setF_key _ _ (q := R.CAN_STAT_STATE) hse), fun r i hb hbase => ?_⟩
  have hlt := ctlKey_lt (r := R.CAN_ERR_LEC) hn (by decide) (by decide)
  have hge := objKey_ge hbase i
  exact (canTdc_field _ hn o tdcv hb hbase i).trans (f_setF_key _ _ (by omega))

/-- The transmit count after an error. -/
def tecAfter (tec plus : Nat) (exempt : Bool) : Nat := tec + (if exempt then 0 else 8) + 8 * plus

/-- A bit error of the data, of the arbitration or of the control field counts as a collision only past the arbitration (R440). -/
def isCollision (kind field : Nat) : Bool := (kind == 4 || kind == 5) && decide (1 ≤ field) && decide (field ≤ 3)

theorem isCollision_of {kind field : Nat} (hk : kind = 4 ∨ kind = 5) (h1 : 1 ≤ field) (h3 : field ≤ 3) : isCollision kind field = true := by
  unfold isCollision
  rw [decide_eq_true h1, decide_eq_true h3]
  rcases hk with h | h <;> rw [h] <;> rfl

/-- An error of the attempt under way. -/
def State.txFailed (s : State) (n o kind field plus tdcv : Nat) (exempt : Bool) : State :=
  ((s.errNoted n o kind tdcv).attemptError n o (kind == 3) (isCollision kind field)).canConfine n (tecAfter (s.f R.CAN_ERR_TEC n) plus exempt)
    (s.f R.CAN_ERR_REC n)

/-- An error of a receiver. -/
def State.rxFailed (s : State) (n kind plus : Nat) (exempt : Bool) : State :=
  (s.setF R.CAN_ERR_LEC kind n).canConfine n (s.f R.CAN_ERR_TEC n) (s.f R.CAN_ERR_REC n + (if exempt then 0 else 1) + 8 * plus)

section BusError
variable {s : State} {t : Instant} {n kind field plus o tdcv : Nat} {exempt : Bool}

theorem exec_txError (hon : (s.start t).canOn n = true) (hlom : (s.start t).b R.CAN_CFG_LOM n = false) (h1 : 1 ≤ kind) (h6 : kind ≤ 6)
    (hatt : ((s.start t).canCtl n).att = some o) :
    exec (.canBusError t n kind false true field plus exempt tdcv) s = .next ((s.start t).txFailed n o kind field plus tdcv exempt) := by
  have h7 : ¬ kind = 7 := by omega
  refine congrArg Host.Outcome.next ((State.doIf_of ?_).trans ?_)
  · rw [hon, decide_eq_true h1, decide_eq_true (by omega : kind ≤ 7), if_pos rfl, hatt]
    rfl
  · rw [if_neg fun h => h7 h.1, if_neg h7]
    dsimp only
    rw [if_neg Bool.false_ne_true, if_pos rfl, hatt]
    dsimp only
    rw [hlom, Bool.not_false, State.doIf_true, if_pos rfl, f_setF_bits _ _ _ _ _ _ (by decide), f_setF_bits _ _ _ _ _ _ (by decide)]
    rfl

theorem exec_rxError (hon : (s.start t).canOn n = true) (hlom : (s.start t).b R.CAN_CFG_LOM n = false) (h1 : 1 ≤ kind) (h6 : kind ≤ 6)
    (hatt : ((s.start t).canCtl n).att = none) :
    exec (.canBusError t n kind false false field plus exempt tdcv) s = .next ((s.start t).rxFailed n kind plus exempt) := by
  have h7 : ¬ kind = 7 := by omega
  have hlost : ((s.start t).setF R.CAN_ERR_LEC kind n).attemptLost n = (s.start t).setF R.CAN_ERR_LEC kind n := by
    have hatt' : (((s.start t).setF R.CAN_ERR_LEC kind n).canCtl n).att = none := (congrArg CanCtl.att (canCtl_of_ctl rfl n)).trans hatt
    unfold State.attemptLost
    rw [hatt']
  refine congrArg Host.Outcome.next ((State.doIf_of ?_).trans ?_)
  · rw [hon, decide_eq_true h1, decide_eq_true (by omega : kind ≤ 7)]
    rfl
  · rw [if_neg fun h => h7 h.1, if_neg h7]
    dsimp only
    rw [if_neg Bool.false_ne_true, if_neg Bool.false_ne_true]
    dsimp only
    rw [hlost, hlom, f_setF_bits _ _ _ _ _ _ (by decide), f_setF_bits _ _ _ _ _ _ (by decide)]
    rfl

/-- A recessive res bit where the controller takes it as a protocol exception (R427). -/
def State.resBit (s : State) (n : Nat) : State :=
  ((s.attemptLost n).setB R.CAN_STAT_PX true n).raise R.CAN_STAT_PX_SEEN n E.PROTOCOL_EXCEPTION (subject n)

theorem exec_resBit (hon : (s.start t).canOn n = true) (hpxe : (s.start t).b R.CAN_CFG_PXE n = true) :
    exec (.canBusError t n 7 false false field plus exempt tdcv) s = .next ((s.start t).resBit n) := by
  refine congrArg Host.Outcome.next ((State.doIf_of (by rw [hon]; rfl)).trans ?_)
  rw [if_pos ⟨rfl, hpxe⟩]
  rfl

end BusError

theorem canOn_state {s : State} {n : Nat} (h : s.canOn n = true) : s.canState n < 2 := by
  unfold State.canOn at h
  rw [Bool.and_eq_true, decide_eq_true_eq] at h
  exact h.2

/-- A frame queue that is empty before error confinement is empty behind it. -/
theorem canConfine_empty {s : State} {n o : Nat} (hn : n < 4) (ho : o / 64 = n) (tec rec : Nat) (h : (s.canObj o).queue = []) :
    ((s.canConfine n tec rec).canObj o).queue = [] := by
  by_cases ht : 255 < tec
  · exact (canConfine_busOff s hn rec ht).2.2.2 o ho
  · rw [canObj_of_can (canConfine_can s n rec (Nat.not_lt.mp ht)), h]

/-- What an error of a transmitter shows. -/
theorem txFailed_shows {u : State} {n o kind : Nat} (hn : n < 4) (field plus tdcv : Nat) (exempt : Bool) (hst : u.canState n < 2) (hk : kind < 8) (ho : o / 64 = n) :
    let s' := u.txFailed n o kind field plus tdcv exempt
    let tec := tecAfter (u.f R.CAN_ERR_TEC n) plus exempt
    s'.f R.CAN_ERR_TEC n = min tec 255 ∧ s'.f R.CAN_ERR_REC n = u.f R.CAN_ERR_REC n ∧ s'.f R.CAN_ERR_LEC n = kind ∧ (s'.canCtl n).att = none
      ∧ (255 < tec → s'.canState n = 2 ∧ s'.b R.CAN_STAT_BUSOFF_SEEN n = true ∧ s'.bitF R.CAN_CTL_BUSOFF n = true
          ∧ ∀ r, r / 64 = n → (s'.canObj r).queue = [])
      ∧ (127 < tec → tec ≤ 255 → s'.canState n = 1)
      ∧ (kind = 3 → s'.f R.CAN_OBJ_STAT_NOACK_CNT o = min (u.f R.CAN_OBJ_STAT_NOACK_CNT o + 1) 31
          ∧ (u.f R.CAN_OBJ_CFG_N_NOACK o ≠ 0 → u.f R.CAN_OBJ_CFG_N_NOACK o ≤ u.f R.CAN_OBJ_STAT_NOACK_CNT o + 1 → u.b R.CAN_OBJ_STAT_NO_PEER o = false →
              s'.b R.CAN_OBJ_STAT_NO_PEER o = true ∧ (s'.canObj o).queue = []))
      ∧ (isCollision kind field = true → s'.f R.CAN_OBJ_STAT_COLL_CNT o = min (u.f R.CAN_OBJ_STAT_COLL_CNT o + 1) 31
          ∧ (u.f R.CAN_OBJ_CFG_ID_COLL_LIMIT o ≠ 0 → u.f R.CAN_OBJ_CFG_ID_COLL_LIMIT o ≤ u.f R.CAN_OBJ_STAT_COLL_CNT o + 1 →
              s'.b R.CAN_OBJ_STAT_ID_COLL o = true ∧ (s'.canObj o).queue = [])) := by
  intro s' tec
  obtain ⟨_, hlec, hstate, hfield⟩ := errNoted_keeps u hn o tdcv hk
  have herr := ctlKey_lt (r := R.CAN_ERR_TEC) hn (by decide) (by decide)
  have hrecLe : u.f R.CAN_ERR_REC n ≤ 255 := Nat.le_of_lt_succ (f_lt u R.CAN_ERR_REC n 0)
  have hs' : s' = (((u.errNoted n o kind tdcv).objTried o (kind == 3) (isCollision kind field)).attemptEnd n).canConfine n tec (u.f R.CAN_ERR_REC n) :=
    congrArg (fun x : State => x.canConfine n tec (u.f R.CAN_ERR_REC n)) (attemptError_of _ n (by omega) _ _)
  have hnoack := objTried_noAck (u.errNoted n o kind tdcv) o
  have hcoll := objTried_collision (u.errNoted n o kind tdcv) o (kind == 3)
  have hkept := objTried_ctlKept (u.errNoted n o kind tdcv) o (kind == 3) (isCollision kind field)
  have hpeer : (u.errNoted n o kind tdcv).b R.CAN_OBJ_STAT_NO_PEER o = u.b R.CAN_OBJ_STAT_NO_PEER o := b_of_f (hfield _ o rfl (by decide))
  rw [hfield R.CAN_OBJ_STAT_NOACK_CNT o rfl (by decide), hfield R.CAN_OBJ_CFG_N_NOACK o rfl (by decide), hpeer] at hnoack
  rw [hfield R.CAN_OBJ_STAT_COLL_CNT o rfl (by decide), hfield R.CAN_OBJ_CFG_ID_COLL_LIMIT o rfl (by decide)] at hcoll
  have hstTried : ((u.errNoted n o kind tdcv).objTried o (kind == 3) (isCollision kind field)).canState n = u.canState n :=
    (f_of_word (r := R.CAN_STAT_STATE) rfl (hkept.1 _ (ctlKey_lt (r := R.CAN_STAT_STATE) hn (by decide) (by decide)))).trans hstate
  have hlecTried : ((u.errNoted n o kind tdcv).objTried o (kind == 3) (isCollision kind field)).f R.CAN_ERR_LEC n = kind :=
    (f_of_word (r := R.CAN_ERR_LEC) rfl (hkept.1 _ herr)).trans hlec
  have hover := attemptEnd_over ((u.errNoted n o kind tdcv).objTried o (kind == 3) (isCollision kind field)) n
  have hend {r : FRef} (hr : ObjField r) : s'.f r o = ((u.errNoted n o kind tdcv).objTried o (kind == 3) (isCollision kind field)).f r o := by
    rw [hs', canConfine_field _ hn _ _ o hr, hover.field hn hr.1 hr.2.1]
  have hempty (h : (((u.errNoted n o kind tdcv).objTried o (kind == 3) (isCollision kind field)).canObj o).queue = []) : (s'.canObj o).queue = [] := by
    rw [hs']
    exact canConfine_empty hn ho _ _ ((congrArg CanObj.queue (hover.canObj o)).trans h)
  obtain ⟨htec, hrec, hlec'⟩ := canConfine_err (((u.errNoted n o kind tdcv).objTried o (kind == 3) (isCollision kind field)).attemptEnd n) hn tec (u.f R.CAN_ERR_REC n)
  refine ⟨hs' ▸ htec, (hs' ▸ hrec).trans (Nat.min_eq_left hrecLe), ?_, ?_, fun h => hs' ▸ canConfine_busOff _ hn _ h, fun h1 h2 => ?_, fun h3 => ?_, fun hc => ?_⟩
  · rw [hs', hlec', f_of_word (r := R.CAN_ERR_LEC) rfl hover.err, hlecTried]
  · rw [hs', canCtl_of_ctl (canConfine_ctl _ hn _ _), hover.idle]
  · rw [hs']
    exact canConfine_passive _ _ (by rw [hover.state, hstTried]; exact hst) h1 h2
  · have hcollNot : isCollision kind field = false := by rw [h3]; rfl
    rw [h3] at hcollNot hend hempty
    rw [hcollNot] at hend hempty
    subst h3
    refine ⟨(hend (objField_stat rfl (by decide) (by decide))).trans hnoack.1, fun h0 h1 hp => ?_⟩
    obtain ⟨hflag, hq⟩ := hnoack.2 h0 h1 hp
    exact ⟨(b_of_f (hend objField_peer)).trans hflag, hempty hq⟩
  · rw [hc] at hend hempty
    refine ⟨(hend (objField_stat rfl (by decide) (by decide))).trans hcoll.1, fun h0 h1 => ?_⟩
    obtain ⟨hflag, hq⟩ := hcoll.2 h0 h1
    exact ⟨(b_of_f (hend objField_coll)).trans hflag, hempty hq⟩

theorem rxFailed_shows {u : State} {n kind : Nat} (hn : n < 4) (plus : Nat) (exempt : Bool) (hk : kind < 8) :
    (u.rxFailed n kind plus exempt).f R.CAN_ERR_REC n = min (u.f R.CAN_ERR_REC n + (if exempt then 0 else 1) + 8 * plus) 255
    ∧ (u.rxFailed n kind plus exempt).f R.CAN_ERR_TEC n = u.f R.CAN_ERR_TEC n ∧ (u.rxFailed n kind plus exempt).f R.CAN_ERR_LEC n = kind := by
  unfold State.rxFailed
  obtain ⟨htec, hrec, hlec⟩ := canConfine_err (u.setF R.CAN_ERR_LEC kind n) hn (u.f R.CAN_ERR_TEC n) (u.f R.CAN_ERR_REC n + (if exempt then 0 else 1) + 8 * plus)
  rw [Nat.min_eq_left (tec_le u n)] at htec
  exact ⟨hrec, htec, hlec.trans (f_setF_fits _ _ _ _ (by decide) hk)⟩

/-- A lost attempt leaves the error counters alone. -/
theorem attemptLost_err (s : State) {n : Nat} (hn : n < 4) : (s.attemptLost n).word .can (R.CAN_ERR_TEC.key n 0) = s.word .can (R.CAN_ERR_TEC.key n 0) := by
  unfold State.attemptLost
  split
  · rfl
  · rw [(attemptEnd_over _ n).err]
    exact eq_doIf (fun x => x.word .can (R.CAN_ERR_TEC.key n 0))
      ((triedOver_queueOnly ..).word _ (ctlKey_lt (r := R.CAN_ERR_TEC) hn (by decide) (by decide)))

theorem resBit_shows (u : State) {n : Nat} (hn : n < 4) : (u.resBit n).b R.CAN_STAT_PX n = true ∧ (u.resBit n).b R.CAN_STAT_PX_SEEN n = true
    ∧ (u.resBit n).word .can (R.CAN_ERR_TEC.key n 0) = u.word .can (R.CAN_ERR_TEC.key n 0) := by
  have hne : R.CAN_ERR_TEC.key n 0 ≠ R.CAN_STAT_PX.key n 0 := by
    simp only [FRef.key, R.CAN_ERR_TEC, R.CAN_STAT_PX]
    omega
  have hpx : ((u.attemptLost n).setB R.CAN_STAT_PX true n).b R.CAN_STAT_PX n = true := b_setB_same _ _ _ _ _ (by decide)
  have hword : ((u.attemptLost n).setB R.CAN_STAT_PX true n).word .can (R.CAN_ERR_TEC.key n 0) = u.word .can (R.CAN_ERR_TEC.key n 0) :=
    (word_setF_other _ R.CAN_STAT_PX _ _ _ (.inr hne)).trans (attemptLost_err u hn)
  unfold State.resBit
  refine ⟨?_, b_raise_same _ _ _ _ _ _ _ (by decide) (by decide), ?_⟩
  · rw [b_raise _ _ _ _ _ _ _ _ _ _ (by decide) (.inr (.inr (by decide))), hpx]
  · exact (word_raise_other _ (r := R.CAN_STAT_PX_SEEN) _ _ _ _ _ (by decide) hne).trans hword

/-! ## Recovery (R427, R439) -/

theorem exec_recover {s w : State} {t : Instant} {n fn : Nat} {data : Word} (hn : n < 4) (h : (s.start t).actionWrite fn R.CAN_CMD_RECOVER data n = (w, true)) :
    exec (.recover t n fn data) s = .next (if w.canState n = csBusOff then (w.setF R.CAN_STAT_STATE csRecovering n).setBitF R.CAN_CTL_BUSOFF n false
      else w.post E.RECOVER_REFUSED (subject n)) := by
  show execRecover t n fn data s = _
  unfold execRecover
  rw [h]
  exact congrArg Host.Outcome.next (State.doIf_of (by rw [decide_eq_true hn]; rfl))

theorem recovering_shows (w : State) {n : Nat} (hn : n < 4) :
    ((w.setF R.CAN_STAT_STATE csRecovering n).setBitF R.CAN_CTL_BUSOFF n false).canState n = 3
    ∧ ((w.setF R.CAN_STAT_STATE csRecovering n).setBitF R.CAN_CTL_BUSOFF n false).bitF R.CAN_CTL_BUSOFF n = false
    ∧ ((w.setF R.CAN_STAT_STATE csRecovering n).setBitF R.CAN_CTL_BUSOFF n false).sys = w.sys := by
  have hne : R.CAN_STAT_STATE.key n 0 ≠ R.CAN_CTL_BUSOFF.key 0 0 := by
    simp only [FRef.key, R.CAN_STAT_STATE, R.CAN_CTL_BUSOFF]
    omega
  refine ⟨?_, ?_, by rw [State.setBitF_sys, State.setF_sys]⟩
  · refine (f_setBitF_apart _ (q := R.CAN_STAT_STATE) _ _ _ _ _ _ (.inr (.inl hne))).trans ?_
    exact f_setF_fits _ _ _ _ (by decide) (by decide)
  · rw [bitF_setBitF _ _ _ _ _ _ _ (by decide) hn, if_pos rfl]

/-- A controller that has recovered is error-active with counters of zero. -/
def State.recoveredShown (s : State) (n : Nat) : State := ((s.setF R.CAN_ERR_TEC 0 n).setF R.CAN_ERR_REC 0 n).setF R.CAN_STAT_STATE csActive n

theorem exec_recovered {s : State} {t : Instant} {n : Nat} (hen : (s.start t).canEn n = true) (hst : (s.start t).canState n = 3) :
    exec (.recovered t n) s = .next (((s.start t).recoveredShown n).post E.RECOVERED (subject n)) :=
  congrArg Host.Outcome.next (State.doIf_of (by rw [hen, hst]; rfl))

theorem recovered_shows (u : State) (n : Nat) : ((u.recoveredShown n).post E.RECOVERED (subject n)).canState n = 0
    ∧ ((u.recoveredShown n).post E.RECOVERED (subject n)).f R.CAN_ERR_TEC n = 0 ∧ ((u.recoveredShown n).post E.RECOVERED (subject n)).f R.CAN_ERR_REC n = 0 := by
  have hne : R.CAN_ERR_TEC.key n 0 ≠ R.CAN_STAT_STATE.key n 0 := by
    simp only [FRef.key, R.CAN_ERR_TEC, R.CAN_STAT_STATE]
    omega
  unfold State.canState
  rw [f_post _ _ _ _ _ _ _ _ (by decide), f_post _ _ _ _ _ _ _ _ (by decide), f_post _ _ _ _ _ _ _ _ (by decide)]
  unfold State.recoveredShown
  refine ⟨f_setF_fits _ _ _ _ (by decide) (by decide), ?_, ?_⟩
  · rw [f_setF_key _ _ (q := R.CAN_ERR_TEC) hne, f_setF_bits _ _ _ _ _ _ (by decide)]
    exact f_setF_fits _ _ _ _ (by decide) (by decide)
  · rw [f_setF_key _ _ (q := R.CAN_ERR_REC) hne]
    exact f_setF_fits _ _ _ _ (by decide) (by decide)

theorem recovered_reports {u : State} (n : Nat) (hroom : u.room) : Reports u ((u.recoveredShown n).post E.RECOVERED (subject n)) E.RECOVERED (subject n) := by
  have htec : Touches 2048 u (u.setF R.CAN_ERR_TEC 0 n) := (tch_setF (a1 := R.CAN_ERR_TEC)).mono (by decide)
  have hrec : Touches 2048 u ((u.setF R.CAN_ERR_TEC 0 n).setF R.CAN_ERR_REC 0 n) := (tch_setF (a1 := R.CAN_ERR_REC)).comp (by decide) htec
  have hst : Touches 2048 u (u.recoveredShown n) := (tch_setF (a1 := R.CAN_STAT_STATE)).comp (by decide) hrec
  exact hst.reports (by decide) (by decide) hroom ..

/-- A controller takes part in the traffic of its bus. -/
def State.onBusNow (s : State) (n : Nat) : State := s.setCanCtl n { s.canCtl n with onBus := true }

theorem onBusNow_parts (s : State) (n : Nat) : (s.onBusNow n).regs = s.regs ∧ (s.onBusNow n).sys = s.sys ∧ ((s.onBusNow n).canCtl n).onBus = true :=
  ⟨rfl, rfl, congrArg CanCtl.onBus (canCtl_setCanCtl_same ..)⟩

/-- It does so again, behind a protocol exception. -/
def State.rejoined (s : State) (n : Nat) : State := (s.setB R.CAN_STAT_PX false n).onBusNow n

theorem exec_protocolExceptionEnd {s : State} {t : Instant} {n : Nat} (hen : (s.start t).canEn n = true)
    (h : (s.start t).b R.CAN_STAT_PX n = true ∨ ((s.start t).canCtl n).onBus = false) : exec (.protocolExceptionEnd t n) s = .next ((s.start t).rejoined n) := by
  refine congrArg Host.Outcome.next (State.doIf_of ?_)
  rw [hen]
  rcases h with h | h
  · rw [h]
    rfl
  · rw [h, Bool.not_false, Bool.or_true]
    rfl

theorem rejoined_shows (u : State) (n : Nat) : (u.rejoined n).b R.CAN_STAT_PX n = false ∧ ((u.rejoined n).canCtl n).onBus = true ∧ (u.rejoined n).sys = u.sys := by
  obtain ⟨hregs, hsys, hbus⟩ := onBusNow_parts (u.setB R.CAN_STAT_PX false n) n
  unfold State.rejoined
  exact ⟨(b_of_f (f_of_regs hregs _ _ _)).trans (b_setB_same _ _ _ _ _ (by decide)), hbus, hsys.trans (State.setB_sys ..)⟩

/-! ## Objects and the reference slot at run time (R443 to R445) -/

theorem any_hi {fs : List FieldDef} (h : ∃ fd ∈ fs, fd.hi = 31) : (fs.any fun fd => fd.hi == 31) = true := by
  obtain ⟨fd, hfd, hhi⟩ := h
  exact List.any_eq_true.mpr ⟨fd, hfd, by rw [hhi]; rfl⟩

/-- An object enabled at run time forgets its collisions and its peer. -/
def State.objEnabled (s : State) (o : Nat) : State :=
  ((((s.setB R.CAN_OBJ_CFG_EN true o).setB R.CAN_OBJ_STAT_ID_COLL false o).setB R.CAN_OBJ_STAT_NO_PEER false o).setF R.CAN_OBJ_STAT_COLL_CNT 0 o).setF
    R.CAN_OBJ_STAT_NOACK_CNT 0 o

/-- An object stopped at run time: its waiting frames end, but for one that an attempt has taken. -/
def State.objStopped (s : State) (o : Nat) : State := (s.setB R.CAN_OBJ_CFG_EN false o).failObj o 1 (b2n ((s.canCtl (o / 64)).att == some o))

theorem exec_canObjectEnable {s w : State} {t : Instant} {o fn : Nat} {data : Word} {h : RegHit} {fs : List FieldDef} (ho : o < 256)
    (hw : (s.start t).writeAt fn .can (R.CAN_OBJ_CFG_EN.off o 0) data = (w, some (h, fs))) (hfs : ∃ fd ∈ fs, fd.hi = 31) :
    exec (.canObjectEnable t o fn data) s = .next (if data.getLsbD 31 then w.objEnabled o else w.objStopped o) := by
  show execCanObjectEnable t o fn data s = _
  unfold execCanObjectEnable
  rw [hw]
  exact congrArg Host.Outcome.next (State.doIf_of (by rw [decide_eq_true ho, any_hi hfs]; rfl))

theorem objEnabled_shows (w : State) (o : Nat) : (w.objEnabled o).b R.CAN_OBJ_CFG_EN o = true ∧ (w.objEnabled o).b R.CAN_OBJ_STAT_ID_COLL o = false
    ∧ (w.objEnabled o).b R.CAN_OBJ_STAT_NO_PEER o = false ∧ (w.objEnabled o).f R.CAN_OBJ_STAT_COLL_CNT o = 0
    ∧ (w.objEnabled o).f R.CAN_OBJ_STAT_NOACK_CNT o = 0 ∧ (w.objEnabled o).can = w.can := by
  have hne : R.CAN_OBJ_CFG_EN.key o 0 ≠ R.CAN_OBJ_STAT_NO_PEER.key o 0 := by
    simp only [FRef.key, R.CAN_OBJ_CFG_EN, R.CAN_OBJ_STAT_NO_PEER]
    omega
  unfold State.objEnabled
  refine ⟨?_, ?_, ?_, ?_, f_setF_fits _ _ _ _ (by decide) (by decide), ?_⟩
  · rw [b_setF_key _ _ (r := R.CAN_OBJ_STAT_NOACK_CNT) hne, b_setF_key _ _ (r := R.CAN_OBJ_STAT_COLL_CNT) hne, b_setB_key _ _ hne,
      b_setB_key _ _ (r := R.CAN_OBJ_STAT_ID_COLL) hne]
    exact b_setB_same _ _ _ _ _ (by decide)
  · rw [b_setF_bits _ _ _ _ _ _ (by decide), b_setF_bits _ _ _ _ _ _ (by decide), b_setB_bits _ _ _ _ _ _ (by decide)]
    exact b_setB_same _ _ _ _ _ (by decide)
  · rw [b_setF_bits _ _ _ _ _ _ (by decide), b_setF_bits _ _ _ _ _ _ (by decide)]
    exact b_setB_same _ _ _ _ _ (by decide)
  · rw [f_setF_bits _ _ _ _ _ _ (by decide)]
    exact f_setF_fits _ _ _ _ (by decide) (by decide)
  · rw [State.setF_can, State.setF_can, State.setB_can, State.setB_can, State.setB_can]

theorem objStopped_shows (w : State) (o : Nat) : (w.objStopped o).b R.CAN_OBJ_CFG_EN o = false
    ∧ ((w.objStopped o).canObj o).queue = if (w.canCtl (o / 64)).att = some o then (w.canObj o).queue.take 1 else [] := by
  have hfield : ObjField R.CAN_OBJ_CFG_EN := ⟨rfl, by decide, objApart_cfg (.inl rfl) ⟨rfl, rfl⟩ rfl rfl⟩
  unfold State.objStopped
  refine ⟨(b_of_f ((failObj_queueOnly ..).field _ o hfield)).trans (b_setB_same _ _ _ _ _ (by decide)), ?_⟩
  rw [(failObj_obj ..).1, canObj_of_can (State.setB_can ..)]
  by_cases h : (w.canCtl (o / 64)).att = some o
  · rw [if_pos h, h, beq_self_eq_true]
    rfl
  · rw [if_neg h, beq_eq_false_iff_ne.mpr h]
    rfl

theorem exec_refEn {s w : State} {t : Instant} {n fn : Nat} {data : Word} {h : RegHit} {fs : List FieldDef} (hn : n < 4)
    (hw : (s.start t).writeAt fn .can (R.CAN_REF_CFG_REF_EN.off n 0) data = (w, some (h, fs))) (hfs : ∃ fd ∈ fs, fd.hi = 31) :
    exec (.refEn t n fn data) s = .next (w.refSet n (data.getLsbD 31)) := by
  show execRefEn t n fn data s = _
  unfold execRefEn
  rw [hw]
  exact congrArg Host.Outcome.next (State.doIf_of (by rw [decide_eq_true hn, any_hi hfs]; rfl))

/-- RUN of a slot is written, and the slot with it. -/
def State.slotRuns (s : State) (n : Nat) (c : CanCtl) (on : Bool) : State := (s.setCanCtl n c).setB R.CAN_REF_CFG_REF_RUN on n

theorem slotRuns_shows (s : State) (n : Nat) (c : CanCtl) (on : Bool) : (s.slotRuns n c on).b R.CAN_REF_CFG_REF_RUN n = on
    ∧ (s.slotRuns n c on).b R.CAN_REF_CFG_REF_EN n = s.b R.CAN_REF_CFG_REF_EN n ∧ (s.slotRuns n c on).canCtl n = c := by
  unfold State.slotRuns
  refine ⟨b_setB_same _ _ _ _ _ (by decide), b_setB_bits _ _ _ _ _ _ (by decide), ?_⟩
  exact (canCtl_of_ctl (congrArg CanSt.ctl (State.setB_can ..)) n).trans (canCtl_setCanCtl_same ..)

/-- A controller whose slot starts, and one whose slot stops. -/
def CanCtl.slotStarted (c : CanCtl) : CanCtl := { c with refColl := 0, ref := if c.att = some 256 then c.ref else none }

def CanCtl.slotStopped (c : CanCtl) : CanCtl := { c with ref := if c.att = some 256 then c.ref else none, refNext := none }

theorem refSet_on (w : State) (n : Nat) : w.refSet n true = (w.setB R.CAN_REF_CFG_REF_EN true n).doIf (!(w.setB R.CAN_REF_CFG_REF_EN true n).b R.CAN_REF_CFG_REF_RUN n)
    (·.slotRuns n (w.canCtl n).slotStarted true) := by
  unfold State.refSet State.slotRuns CanCtl.slotStarted
  dsimp only
  rw [if_pos rfl]

theorem refSet_off (w : State) (n : Nat) : w.refSet n false = (w.setB R.CAN_REF_CFG_REF_EN false n).slotRuns n (w.canCtl n).slotStopped false := by
  unfold State.refSet State.slotRuns CanCtl.slotStopped
  dsimp only
  rw [if_neg Bool.false_ne_true]

theorem refStarted_shows (w : State) (n : Nat) : (w.refSet n true).b R.CAN_REF_CFG_REF_EN n = true ∧ (w.refSet n true).b R.CAN_REF_CFG_REF_RUN n = true
    ∧ (w.b R.CAN_REF_CFG_REF_RUN n = false → ((w.refSet n true).canCtl n).refColl = 0) := by
  have hen : (w.setB R.CAN_REF_CFG_REF_EN true n).b R.CAN_REF_CFG_REF_EN n = true := b_setB_same _ _ _ _ _ (by decide)
  have hrun : (w.setB R.CAN_REF_CFG_REF_EN true n).b R.CAN_REF_CFG_REF_RUN n = w.b R.CAN_REF_CFG_REF_RUN n := b_setB_bits _ _ _ _ _ _ (by decide)
  rw [refSet_on]
  generalize w.setB R.CAN_REF_CFG_REF_EN true n = v at hen hrun ⊢
  rw [hrun]
  cases h : w.b R.CAN_REF_CFG_REF_RUN n with
  | true => exact ⟨hen, hrun.trans h, fun h => (nomatch h)⟩
  | false =>
    obtain ⟨h1, h2, h3⟩ := slotRuns_shows v n (w.canCtl n).slotStarted true
    rw [Bool.not_false, State.doIf_true]
    exact ⟨h2.trans hen, h1, fun _ => by rw [h3]; rfl⟩

theorem refStopped_shows (w : State) (n : Nat) : (w.refSet n false).b R.CAN_REF_CFG_REF_EN n = false ∧ (w.refSet n false).b R.CAN_REF_CFG_REF_RUN n = false
    ∧ ((w.refSet n false).canCtl n).refNext = none ∧ ((w.canCtl n).att ≠ some 256 → ((w.refSet n false).canCtl n).ref = none) := by
  have hen : (w.setB R.CAN_REF_CFG_REF_EN false n).b R.CAN_REF_CFG_REF_EN n = false := b_setB_same _ _ _ _ _ (by decide)
  rw [refSet_off]
  generalize w.setB R.CAN_REF_CFG_REF_EN false n = v at hen ⊢
  obtain ⟨h1, h2, h3⟩ := slotRuns_shows v n (w.canCtl n).slotStopped false
  rw [h3]
  exact ⟨h2.trans hen, h1, rfl, fun h => if_neg h⟩

/-- A controller has served instant `m`. -/
def CanCtl.served (c : CanCtl) (m : Int) : CanCtl := { c with refDone := addRange m c.refDone }

def State.instantServed (s : State) (n : Nat) (m : Int) : State := s.setCanCtl n ((s.canCtl n).served m)

theorem exec_referenceInstant {s : State} {t : Instant} {n : Nat} {per m : Int} (hen : (s.start t).canEn n = true)
    (href : (s.start t).b R.CAN_REF_CFG_REF_EN n = true) (hrun : (s.start t).b R.CAN_REF_CFG_REF_RUN n = true) (hlom : (s.start t).b R.CAN_CFG_LOM n = false)
    (hper : per = (((s.start t).f R.CAN_REF_CFG_REF_PERIOD n * 1000 : Nat) : Int)) (h0 : per ≠ 0)
    (hm : m = ((s.start t).ntime - ((s.start t).f R.CAN_REF_PH_REF_PHASE n * 1000 : Nat)) / per)
    (hdue : (s.start t).ntime - ((s.start t).f R.CAN_REF_PH_REF_PHASE n * 1000 : Nat) - m * per < (if (s.start t).net.stepTick = some (s.start t).pwmTime then 1 else 2))
    (hnew : inRanges m ((s.start t).canCtl n).refDone = false) :
    exec (.referenceInstant t n) s = .next (((s.start t).instantServed n m).refInstant n) := by
  subst hper hm
  have hper : (s.start t).f R.CAN_REF_CFG_REF_PERIOD n * 1000 ≠ 0 := fun h => h0 (by rw [h]; rfl)
  refine congrArg Host.Outcome.next ((State.doIf_of ?_).trans rfl)
  rw [hen, href, hrun, hlom, decide_eq_true hper, decide_eq_true hdue, hnew]
  rfl

/-- The slot takes the message of an instant. -/
def CanCtl.instant (c : CanCtl) (may : Bool) : CanCtl :=
  { c with ref := if may then some c.refSeq else none, refNext := none, refSeq := (c.refSeq + b2n may) % 64 }

theorem refInstant_of {v : State} {n : Nat} {may : Bool} (hmay : (v.refMay n && decide (v.canState n < 2)) = may) (hatt : (v.canCtl n).att ≠ some 256)
    (hnext : (v.canCtl n).refNext = none) : v.refInstant n
      = ((v.setCanCtl n ((v.canCtl n).instant may)).doIf (v.canCtl n).ref.isSome (·.refMissed n)).doIf (!may) (·.refMissed n) := by
  unfold State.refInstant
  dsimp only
  rw [hmay, hnext, bne_iff_ne.mpr hatt, if_neg hatt]
  dsimp only [Option.any_none]
  rw [Bool.true_and, Bool.or_false]
  unfold CanCtl.instant
  rfl

theorem instantServed_parts (u : State) (n : Nat) (m : Int) : (u.instantServed n m).refMay n = u.refMay n ∧ (u.instantServed n m).canState n = u.canState n
    ∧ (u.instantServed n m).canCtl n = (u.canCtl n).served m
    ∧ ∀ r i j, (u.instantServed n m).f r i j = u.f r i j := ⟨rfl, rfl, canCtl_setCanCtl_same .., fun _ _ _ => rfl⟩

/-- An instant that the slot takes (R443). -/
theorem instantTaken_shows {u : State} {n : Nat} (m : Int) (hatt : (u.canCtl n).att ≠ some 256) (hnext : (u.canCtl n).refNext = none) (hmay : u.refMay n = true)
    (hst : u.canState n < 2) : let s' := (u.instantServed n m).refInstant n
      (s'.canCtl n).ref = some (u.canCtl n).refSeq ∧ (s'.canCtl n).refSeq = ((u.canCtl n).refSeq + 1) % 64 ∧ inRanges m (s'.canCtl n).refDone = true
        ∧ s'.f R.CAN_CNT_REF_MISSED n
          = if (u.canCtl n).ref = none then u.f R.CAN_CNT_REF_MISSED n else min (u.f R.CAN_CNT_REF_MISSED n + 1) (2 ^ 16 - 1) := by
  intro s'
  obtain ⟨hvmay, hvst, hctl, hf⟩ := instantServed_parts u n m
  have heq : s' = _ := refInstant_of (v := u.instantServed n m) (n := n) (may := true) (by rw [hvmay, hvst, hmay, decide_eq_true hst]; rfl)
    (by rw [hctl]; exact hatt) (by rw [hctl]; exact hnext)
  rw [heq, Bool.not_true, State.doIf_false, hctl, show ((u.canCtl n).served m).ref = (u.canCtl n).ref from rfl]
  have hset : ((u.instantServed n m).setCanCtl n (((u.canCtl n).served m).instant true)).f R.CAN_CNT_REF_MISSED n
      = u.f R.CAN_CNT_REF_MISSED n := hf ..
  have hnew := canCtl_setCanCtl_same (u.instantServed n m) n (((u.canCtl n).served m).instant true)
  generalize (u.instantServed n m).setCanCtl n (((u.canCtl n).served m).instant true) = v at hset hnew ⊢
  have hdone : inRanges m (addRange m (u.canCtl n).refDone) = true := (inRanges_addRange ..).mpr (.inl rfl)
  have hctl' : (v.doIf (u.canCtl n).ref.isSome (·.refMissed n)).canCtl n = ((u.canCtl n).served m).instant true :=
    (eq_doIf (fun x => x.canCtl n) (canCtl_of_ctl (congrArg CanSt.ctl (refMissed_can ..)) n)).trans hnew
  refine ⟨by rw [hctl']; rfl, by rw [hctl']; rfl, by rw [hctl']; exact hdone, ?_⟩
  cases (u.canCtl n).ref with
  | none => exact hset
  | some k =>
    rw [State.doIf_of (show (some k).isSome = true from rfl), (refMissed_shows v n).1, hset]
    rfl

/-- An instant that the slot may not take. -/
theorem instantMissed_shows {u : State} {n : Nat} (m : Int) (hatt : (u.canCtl n).att ≠ some 256) (hnext : (u.canCtl n).refNext = none) (hmay : u.refMay n = false)
    (href : (u.canCtl n).ref = none) : let s' := (u.instantServed n m).refInstant n
      (s'.canCtl n).ref = none ∧ s'.f R.CAN_CNT_REF_MISSED n = min (u.f R.CAN_CNT_REF_MISSED n + 1) (2 ^ 16 - 1) ∧ s'.b R.CAN_STAT_REF_MISS_SEEN n = true := by
  intro s'
  obtain ⟨hvmay, _, hctl, hf⟩ := instantServed_parts u n m
  have heq : s' = _ := refInstant_of (v := u.instantServed n m) (n := n) (may := false) (by rw [hvmay, hmay]; rfl)
    (by rw [hctl]; exact hatt) (by rw [hctl]; exact hnext)
  have hidle : ((u.canCtl n).served m).ref.isSome = false := by
    rw [show ((u.canCtl n).served m).ref = (u.canCtl n).ref from rfl, href]
    rfl
  rw [heq, Bool.not_false, State.doIf_true, hctl, State.doIf_not hidle]
  have hset : ((u.instantServed n m).setCanCtl n (((u.canCtl n).served m).instant false)).f R.CAN_CNT_REF_MISSED n
      = u.f R.CAN_CNT_REF_MISSED n := hf ..
  have hnew := canCtl_setCanCtl_same (u.instantServed n m) n (((u.canCtl n).served m).instant false)
  generalize (u.instantServed n m).setCanCtl n (((u.canCtl n).served m).instant false) = v at hset hnew ⊢
  obtain ⟨hcnt, hseen⟩ := refMissed_shows v n
  rw [canCtl_of_ctl (congrArg CanSt.ctl (refMissed_can ..)) n, hnew]
  exact ⟨rfl, by rw [hcnt, hset], hseen⟩

/-! ## The obligation -/

/-- Settles O56, clause by clause: reception, items, arbitration, acknowledgement, errors, recovery, objects and the reference slot. -/
theorem canObjectsSendReceiveAndRecover : Obligations.CanObjectsSendReceiveAndRecover := by
  unfold Obligations.CanObjectsSendReceiveAndRecover
  rintro s u t n rfl hn
  refine ⟨?_, ?_, ?_, ?_, ?_, ?_, ?_, ?_, ?_, ?_, ?_, ?_⟩
  · intro id recTo xtd fdf brs esi bytes sof hon hfd hatt len f
    refine ⟨fun o ho hmatch hlow => ⟨_, exec_canFrame hon hfd hatt rfl, ?_⟩, fun hno => ⟨_, exec_canFrame hon hfd hatt rfl, ?_⟩⟩
    · have hfind : ((objsOf n).find? fun o => ((s.start t).heard n recTo).canMatch o f) = some o :=
        find_objsOf ho ((heard_match _ hn recTo o f).trans hmatch) fun r hr hlt => (heard_match _ hn recTo r f).trans (hlow r hr hlt)
      rw [hfind]
      exact received_shows hn recTo f
    · have hfind : ((objsOf n).find? fun o => ((s.start t).heard n recTo).canMatch o f) = none :=
        find_objsOf_none fun o ho => (heard_match _ hn recTo o f).trans (hno o ho)
      rw [hfind]
      exact unmatched_shows hn recTo
  · intro o f hseal ho hm
    obtain ⟨hout, hobj⟩ := itemDelivered_shows (s.start t) o f
    refine ⟨_, exec_itemDelivered hseal ho hm, hout, ?_⟩
    rw [hobj]
    exact itemGone_shows _
  · intro router k tag o ws f hseal hr hk hback item apply hmay ho hf
    subst ho hf
    refine ⟨fun hbad href => ⟨_, exec_canTxItem hseal hr hk hback hmay, ?_⟩, fun hbad hroom => ⟨_, exec_canTxItem hseal hr hk hback hmay, ?_⟩⟩
    · rw [takeCanItem_good hbad href]
      exact ⟨congrArg CanObj.queue (canObj_setCanObj_same ..), tch_setCanObj.sysSame (by decide)⟩
    · rw [takeCanItem_bad hbad]
      exact ⟨State.post_can .., State.post_sys _ _ _ _ _ hroom⟩
  · intro dly hon hlom hatt hoffers
    obtain ⟨v, o, hlow, hmem, hleast⟩ := lowestOffer_lowest hoffers
    refine ⟨_, exec_arbitration hon hlom hatt hlow, v, o, hmem, hleast, ?_, ?_, fun ho f fs hq => attempt_out (State.start_out s t) ho hq⟩
    · rw [attempt_ctl]
    · rw [attempt_ctl]
  · exact fun o tdcv f fs hon hatt ho hq => ⟨_, exec_txDone hon hatt (by omega), txDone_shows hn tdcv hq⟩
  · intro kind field plus o tdcv exempt hon hlom h1 h6
    refine ⟨fun hatt ho => ⟨_, exec_txError hon hlom h1 h6 hatt, ?_⟩, fun hatt => ⟨_, exec_rxError hon hlom h1 h6 hatt, rxFailed_shows hn plus exempt (by omega)⟩,
      fun hpxe => ⟨_, exec_resBit hon hpxe, resBit_shows _ hn⟩⟩
    have hkind : kind < 8 := by omega
    obtain ⟨htec, hrec, hlec, hatt', hoff, hpassive, hack, hcoll⟩ := txFailed_shows hn field plus tdcv exempt (canOn_state hon) hkind ho
    exact ⟨htec, hrec, hlec, hatt', hoff, hpassive, hack, fun hk hf1 hf3 => hcoll (isCollision_of hk hf1 hf3)⟩
  · intro w fn data hw
    refine ⟨fun hst => ⟨_, exec_recover hn hw, ?_⟩, fun hst hroom => ⟨_, exec_recover hn hw, ?_⟩⟩
    · rw [if_pos hst]
      exact recovering_shows w hn
    · rw [if_neg hst]
      exact ⟨State.post_regs _ _ _ _ _ hroom, State.post_sys _ _ _ _ _ hroom⟩
  · intro hen hst hroom
    obtain ⟨h1, h2, h3⟩ := recovered_shows (s.start t) n
    exact ⟨_, exec_recovered hen hst, h1, h2, h3, recovered_reports n hroom⟩
  · exact fun hen h => ⟨_, exec_protocolExceptionEnd hen h, rejoined_shows _ n⟩
  · intro o fn data w h fs ho hw hfs
    refine ⟨fun hon => ⟨_, exec_canObjectEnable ho hw hfs, ?_⟩, fun hoff => ⟨_, exec_canObjectEnable ho hw hfs, ?_⟩⟩
    · rw [hon, if_pos rfl]
      exact objEnabled_shows w o
    · rw [hoff, if_neg Bool.false_ne_true]
      exact objStopped_shows w o
  · intro fn data w h fs hw hfs
    refine ⟨fun hon => ⟨_, exec_refEn hn hw hfs, ?_⟩, fun hoff => ⟨_, exec_refEn hn hw hfs, ?_⟩⟩
    · rw [hon]
      exact refStarted_shows w n
    · rw [hoff]
      exact refStopped_shows w n
  · intro per m hen href hrun hlom hper h0 hm hdue hnew hatt hnext
    exact ⟨fun hmay hst => ⟨_, exec_referenceInstant hen href hrun hlom hper h0 hm hdue hnew, instantTaken_shows m hatt hnext hmay hst⟩,
      fun hmay hnone => ⟨_, exec_referenceInstant hen href hrun hlom hper h0 hm hdue hnew, instantMissed_shows m hatt hnext hmay hnone⟩⟩

end Sys2Proof.Machine
end
